-- ==== Sys2Proof/Word.lean ====
section
/-! DEFINITION. Bytes, and the sparse tables that hold the block's many like things. -/

namespace Sys2Proof

/-- One byte. -/
abbrev Byte := BitVec 8

/-- A sparse table: pairs of key and value, keys rising, default values left out. -/
abbrev Tab (α : Type) := List (Nat × α)

end Sys2Proof
end

