-- ==== Sys2Proof/Syntax.lean ====
section
/-! DEFINITION. The commands of the block: one constructor of `Instr` per row of spec/opcode_table.json,
and the plain-data types of their operands. The table gives no row any bits, so an operand is what the
chapter's rule says comes from outside the block: a register value, a converter code, bytes of host memory,
a reading, a packet (assumption log 7). -/

namespace Sys2Proof

/-- One converter sample of a symbol slot (R101): field, column, colour, and what the analogue path adds to the raw code that the field's light
stands for, in codes; for a 5 GBd slot also what it adds to the second half (R49, R100, R214; assumption log 54). -/
structure Sample where
  f : Nat
  c : Nat
  g : Nat
  err : Int
  err2 : Int := 0
  deriving DecidableEq, Repr

/-- What a loop slot finds at its input (R144): a fresh result, no fresh result, or a failed converter. -/
inductive InputState where
  | fresh
  | missing
  | failed
  deriving DecidableEq, Repr

/-- The two run estimates of one calibrated quantity of a point (R175): its key and the estimates. -/
structure PointEst where
  key : Nat
  first : Int
  second : Int
  deriving DecidableEq, Repr

/-- A load or a store of a core's kernel (R268, R269): the address of its instruction, its address as an offset from the core's local base, its length, and the
bytes of a store. -/
structure CoreAccess where
  pc : BitVec 64
  off : Nat
  len : Nat
  store : Option (List (BitVec 8)) := none
  deriving DecidableEq, Repr

/-- The loads and stores of a core's kernel since the core's last row, in program order. -/
abbrev CoreWork := List CoreAccess

/-- What the hardware finds while a bring-up step runs (R411 to R427). -/
structure StepObs where
  /-- groups of step 1 whose power is good -/
  good : BitVec 10 := 0
  /-- PLLs that lock in step 2 -/
  plls : BitVec 5 := 0
  /-- HBM stacks that train in step 3 -/
  hbm : BitVec 12 := 0
  /-- DDR channels that train in step 3 -/
  ddr : BitVec 12 := 0
  /-- image bytes read from host memory in step 4 -/
  image : List (BitVec 8) := []
  /-- the host-memory read of step 4 failed -/
  readError : Bool := false
  /-- vector cores that did not report in step 7 -/
  coresBad : List Nat := []
  /-- fields that reached their lock criteria in step 8 -/
  fieldsOk : BitVec 32 := 0
  /-- bands that failed in step 8, key 8*field+band -/
  bandsBad : List Nat := []
  /-- DIMMs that step 3 found on the channels: channel and capacity in GB -/
  dimms : List (Nat × Nat) := []
  /-- the speed at which the channels trained, SPEED encoding -/
  speed : Nat := 0
  /-- die temperatures at training: unit (0 to 11 stacks, 16 to 27 channels), 1/128 °C -/
  temps : List (Nat × Int) := []
  deriving DecidableEq, Repr

/-- A link packet (header and data of R361). -/
structure Packet where
  /-- DST (width 14; 15 R361). -/
  dst : Nat := 0
  /-- SRC (width 14; 15 R361). -/
  src : Nat := 0
  /-- TYPE (width 4; 15 R361). -/
  type : Nat := 0
  /-- escape flag (width 1; 15 R361). -/
  escape : Bool := false
  /-- HOPS (width 8; 15 R361). -/
  hops : Nat := 0
  /-- ADDR (width 48; 15 R361). -/
  addr : Nat := 0
  /-- FIRST_BYTE (width 3; 15 R361). -/
  firstByte : Nat := 0
  /-- BYTES (width 13; 15 R361). -/
  bytes : Nat := 0
  /-- OPREF (width 16; 15 R361). -/
  opref : Nat := 0
  /-- VC (width 2; 15 R355, R368). -/
  vc : Nat := 0
  /-- data bytes (width 4096 x 8; 15 R361). -/
  data : List (BitVec 8) := []
  /-- poisoned data words (width 512; 15 R355). -/
  poison : List Nat := []
  deriving DecidableEq, Repr

/-- A flit (R355). -/
structure Flit where
  /-- KIND (width 2; 15 R355). -/
  kind : Nat := 0
  /-- SOP (width 1; 15 R355). -/
  sop : Bool := false
  /-- EOP (width 1; 15 R355). -/
  eop : Bool := false
  /-- CLASS (width 2; 15 R355). -/
  cls : Nat := 0
  /-- VC (width 2; 15 R355). -/
  vc : Nat := 0
  /-- SEQ (width 12; 15 R355). -/
  seq : Nat := 0
  /-- ACK (width 12; 15 R355). -/
  ack : Nat := 0
  /-- POISON (width 30; 15 R355). -/
  poison : BitVec 30 := 0
  /-- CR_POOL (width 4; 15 R355). -/
  crPool : Nat := 15
  /-- CR_COUNT (width 16; 15 R355). -/
  crCount : Nat := 0
  /-- SHARED (width 1; 15 R355). -/
  shared : Bool := false
  /-- PAYLOAD (width 240 x 8; 15 R355). -/
  payload : List (BitVec 8) := []
  /-- CRC (width 32; 15 R355). -/
  crc : BitVec 32 := 0
  deriving DecidableEq, Repr

/-- The commands of the block, one constructor per row of spec/opcode_table.json, in the table's order. -/
inductive Instr where
  /-- BEAT_EDGE (R16). The beat edge: beat number +1 and every change R17 and R26 place at an edge or in its halt; REFV inside its window (R169). -/
  | beatEdge (refvOk : Bool)
  /-- SLICE_WINDOW_OPEN (R19). Every running op's slice of this beat starts or resumes (R19, R259). -/
  | sliceWindowOpen
  /-- CALIBRATION_WINDOW_OPEN (R170). Slices of every group with a member that reserves the window end (R170, R256). -/
  | calibrationWindowOpen
  /-- SLICE_WINDOW_END (R21). The remaining slices end at t = 1000 ns (R19, R21). -/
  | sliceWindowEnd
  /-- SYMBOL_SLOT (R101). One symbol slot of the shape group whose member 0 is field f; samples: (field, column, colour, analogue error, that of the second half). -/
  | symbolSlot (f : Nat) (starved : Bool) (samples : List Sample)
  /-- LOADER_BUFFER_LOADED (R93). At t, the next tile enters field f's input buffer (R93). -/
  | loaderBufferLoaded (f : Nat) (t : Nat)
  /-- FILL_COMPLETE (R92). A fill of field f settles at t (R92). -/
  | fillComplete (f : Nat) (t : Nat)
  /-- SWAP (R39). Field f's planned swap (R39, R40). -/
  | swap (f : Nat) (t : Nat)
  /-- LIVE_REFRESH (R41). Live refresh of field f (R41). -/
  | liveRefresh (f : Nat)
  /-- PENDING_REWRITE (R41). Rewrite of field f's pending plane (R41). -/
  | pendingRewrite (f : Nat) (t : Nat)
  /-- PENDING_TILE_RELOAD (R42). Reload of the pending tile, t = 2 to 66 ns (R42). -/
  | pendingTileReload (f : Nat)
  /-- TRIM_ROUND_START (R95). The trim converters restart their round (R95). -/
  | trimRoundStart
  /-- LOOP_SLOT_COMPUTE (R142). Loop slot's computation; y and st: the measured value in Q15 of a modulator bias or auxiliary loop and whether there is one, which no other state of the block gives (R141). -/
  | loopSlotCompute (slot : Nat) (y : Int) (st : InputState)
  /-- FADE_LEVEL_FALL (R74). Fade level of port n colour g falls (R74). -/
  | fadeLevelFall (n : Nat) (g : Nat)
  /-- FADE_COMPARATOR_TRIP (R75). Comparator of port n colour g trips (R75). -/
  | fadeComparatorTrip (n : Nat) (g : Nat)
  /-- RELAY_RECOVERED (R75). Relay x recovers (R75). -/
  | relayRecovered (x : Nat)
  /-- RELAY_PRELOCK_DONE (R77). Relay x warmed and pre-locked (R77). -/
  | relayPrelockDone (x : Nat)
  /-- LIGHT_PAUSE_START (R79). The requested light pause starts, or a further port joins it (R79, R81). -/
  | lightPauseStart
  /-- RELAY_SETTLED (R67). Port n's selector has settled (R67, R79). -/
  | relaySettled (n : Nat)
  /-- QUICK_GAIN_DONE (R179). Quick gain of port n done, or its limit of 40 beats reached (R179). -/
  | quickGainDone (n : Nat)
  /-- LIGHT_PAUSE_END (R79). Slices resume (R79). -/
  | lightPauseEnd
  /-- MONITOR_SLOT_END (R131). Converter k's current slot ends; v: the converted value before saturation, ±2^23 for ±1.250 V (R131). -/
  | monitorSlotEnd (k : Nat) (v : Int)
  /-- MONITOR_INJECT_TRIGGER (R128). Trigger 0 light, 1 temperature, 2 request on converter k. -/
  | monitorInjectTrigger (k : Nat) (trig : Nat)
  /-- MONITOR_SELFTEST_RUN (R135). Self-test of converter k in its turn. -/
  | monitorSelftestRun (k : Nat)
  /-- MON_COMMIT_WRITE (R126). Write of MON_CTRL with COMMIT. -/
  | monCommitWrite (k : Nat) (w : BitVec 32)
  /-- MON_HOST_INJECT_WRITE (R127). Write of MON_INJ with HOST_INJECT. -/
  | monHostInjectWrite (k : Nat) (w : BitVec 32)
  /-- MON_RING_ON_WRITE (R137). Write of MON_RING_CTRL. -/
  | monRingOnWrite (w : BitVec 32)
  /-- COOLPWM_WINDOW (R151). End of a 64-beat window: high time in ns of 64 us. -/
  | coolpwmWindow (high : Nat)
  /-- COOLANT_PWM_LOST (R151). 10 ms without a COOLPWM edge. -/
  | coolantPwmLost
  /-- LP_FREEZE_WRITE (R147). Write of word +0x00 of LP_SLOT_s. -/
  | lpFreezeWrite (slot : Nat) (w : BitVec 32)
  /-- LOOP_FREEZE_TIMEOUT (R148). Slot s frozen for 64 beats. -/
  | loopFreezeTimeout (slot : Nat)
  /-- LP_TEST_START (R159). Write of LP_TEST_CTRL with START. -/
  | lpTestStart (w : BitVec 32)
  /-- LP_TEST_STOP (R161). Write of LP_TEST_CTRL with STOP. -/
  | lpTestStop (w : BitVec 32)
  /-- CAPTURE_BUFFER_FULL (R161). The capture buffer is full. -/
  | captureBufferFull
  /-- THERMAL_PAUSE_START (R158). Field f's slew exceeded 60 degC/ms. -/
  | thermalPauseStart (f : Nat)
  /-- THERMAL_PAUSE_END (R158). End of field f's thermal pause. -/
  | thermalPauseEnd (f : Nat)
  /-- CAL_CADENCE_TICK (R184). The 1.000 s cadence tick of partition p. -/
  | calCadenceTick (p : Nat)
  /-- CAL_RUN_COMPLETE (R175). Both runs of the current point of the procedure on band b of field f, or of its quick gain in a light pause: what each run estimates (R175). -/
  | calRunComplete (f : Nat) (b : Nat) (q : List PointEst)
  /-- DESCRIPTOR_ISSUE (R234). Stream s's next descriptor. -/
  | descriptorIssue (slot : Nat)
  /-- FIELD_GEMM (R252). Admission of op o. -/
  | fieldGemm (o : Nat)
  /-- OP_HANDOVER (R257). The loaders of field f pass to op o. -/
  | opHandover (o : Nat) (f : Nat)
  /-- ACC_DRAIN (R282). Admission. -/
  | accDrain (o : Nat)
  /-- TREE_FENCE_PASS (R117). Op o's tree fence passes; the drain or save reads and writes. -/
  | treeFencePass (o : Nat)
  /-- ACC_SAVE (R115). Admission. -/
  | accSave (o : Nat)
  /-- ACC_RESTORE (R240). Admission. -/
  | accRestore (o : Nat)
  /-- VEC_KERNEL (R274). Admission and launch. -/
  | vecKernel (o : Nat)
  /-- QUANT_SCALE (R196). Admission. -/
  | quantScale (o : Nat)
  /-- MOVE (R361). Admission. -/
  | move (o : Nat)
  /-- MOVE_REDUCE (R364). Admission. -/
  | moveReduce (o : Nat)
  /-- FENCE (R244). Op o's fence. -/
  | fence (o : Nat)
  /-- WAIT (R241). Admission. -/
  | wait (o : Nat)
  /-- SIGNAL (R241). Admission. -/
  | signal (o : Nat)
  /-- TOLLGATE (R326). Admission. -/
  | tollgate (o : Nat)
  /-- NOP (R237). Admission. -/
  | nop (o : Nat)
  /-- OP_RETIRE (R260). Retire point of op o. -/
  | opRetire (o : Nat)
  /-- LAYER_REWRITE_START (R328). Partition p. -/
  | layerRewriteStart (p : Nat)
  /-- LAYER_REWRITE_DONE (R331). Partition p. -/
  | layerRewriteDone (p : Nat)
  /-- SWAP_DRAIN_TIMEOUT (R330). Partition p. -/
  | swapDrainTimeout (p : Nat)
  /-- SPILL_COPY_DONE (R333). Copy into HOT_STAGE address slot completes. -/
  | spillCopyDone (slot : Nat)
  /-- KERNEL_RETURN (R276). Core c; wk: its loads and stores in local memory since its last row. -/
  | kernelReturn (c : Nat) (a0 : BitVec 64) (wk : CoreWork)
  /-- KERNEL_TRAP (R276). Core c; wk as in KERNEL_RETURN. -/
  | kernelTrap (c : Nat) (cause : Nat) (mcause : BitVec 64) (mepc : BitVec 64) (wk : CoreWork)
  /-- KERNEL_WATCHDOG (R276). Core c; wk as in KERNEL_RETURN. -/
  | kernelWatchdog (c : Nat) (mepc : BitVec 64) (wk : CoreWork)
  /-- VBARRIER_WRITE (R277). Core c. -/
  | vbarrierWrite (c : Nat) (wk : CoreWork)
  /-- VPOISON_WRITE (R269). Core c; wk: loads and stores before the write. -/
  | vpoisonWrite (c : Nat) (w : BitVec 64) (wk : CoreWork)
  /-- CORE_DMA_DESCRIPTOR (R271). Core c, channel ch; wk: loads and stores before the descriptor. -/
  | coreDmaDescriptor (c : Nat) (ch : Nat) (src : Nat) (dst : Nat) (len : Nat) (rows : Nat) (sstr : Nat) (dstr : Nat) (wk : CoreWork)
  /-- HOST_CXL_READ (R290). Device address, bytes; flips: bit errors that arose since (word address, mask). -/
  | hostCxlRead (addr : Nat) (n : Nat) (flips : List (Nat × BitVec 80))
  /-- HOST_CXL_WRITE (R290). Device address, data. -/
  | hostCxlWrite (addr : Nat) (bytes : List (BitVec 8))
  /-- PATROL_SCRUB_READ (R302). Unit u. -/
  | patrolScrubRead (u : Nat) (flips : List (Nat × BitVec 80))
  /-- CE_RATE_TRIP (R304). Unit u. -/
  | ceRateTrip (u : Nat)
  /-- RETRAIN_START (R305). The next waiting unit. -/
  | retrainStart
  /-- RETRAIN_DONE (R306). The unit retraining. -/
  | retrainDone (pass : Bool)
  /-- MEMORY_ZEROING_DONE (R301). Unit u. -/
  | memoryZeroingDone (u : Nat)
  /-- D2D_LINK_FAIL (R338). Link Dn. -/
  | d2dLinkFail (n : Nat)
  /-- D2D_FALLBACK_READY (R338). Link Dn. -/
  | d2dFallbackReady (n : Nat)
  /-- PARTITION_RESET_EFFECTIVE (R344). Partition p. -/
  | partitionResetEffective (p : Nat)
  /-- PARTITION_RESET_RELEASE (R344). Cores that failed the convoy. -/
  | partitionResetRelease (p : Nat) (failed : List Nat)
  /-- LINK_PORT_TRAINED (R360). Port p: quads whose lanes passed, the partner's FEC mode, whether training passed. -/
  | linkPortTrained (p : Nat) (quads : BitVec 4) (peerLight : Bool) (ok : Bool)
  /-- LINK_PORT_DOWN (R360). Port p. -/
  | linkPortDown (p : Nat)
  /-- LANE_FAIL (R358). Port p. -/
  | laneFail (p : Nat) (lane : Nat)
  /-- LANE_DROP_RETRAIN (R359). Port p. -/
  | laneDropRetrain (p : Nat)
  /-- PORT_TRAIN_RETRY (R360). Port p. -/
  | portTrainRetry (p : Nat)
  /-- FLIT_SEND (R357). Port p sends the first waiting flit it may. -/
  | flitSend (p : Nat)
  /-- FLIT_RECEIVE (R356). Flit arriving at port p; corr and uncorr: symbols corrected in, and uncorrectable ones among, the FEC codewords decoded with it. -/
  | flitReceive (p : Nat) (fl : Flit) (clean : Bool) (corr : Nat) (uncorr : Nat)
  /-- REPLAY_REQUEST (R356). Replay request received at port p. -/
  | replayRequest (p : Nat) (frm : Nat)
  /-- CREDIT_RETURN (R357). Credits returned to port p. -/
  | creditReturn (p : Nat) (pool : Nat) (n : Nat)
  /-- PACKET_FORWARD (R369). Packet at this device, arrived over port frm (24: own). -/
  | packetForward (pk : Packet) (frm : Nat)
  /-- WRITE_PACKET_ARRIVAL (R362). Write packet for this device. -/
  | writePacketArrival (pk : Packet)
  /-- REDUCE_PACKET_ARRIVAL (R364). Reduce packet for this device. -/
  | reducePacketArrival (pk : Packet)
  /-- WRITE_ACK_RECEIVE (R362). Ack. -/
  | writeAckReceive (opref : Nat) (refused : Bool)
  /-- LINK_WRITE_LOST (R362). Packet lost. -/
  | linkWriteLost (opref : Nat)
  /-- TIME_MESSAGE_SEND (R370). Every 64 beats. -/
  | timeMessageSend
  /-- TIME_MESSAGE_RECEIVE (R370). Neighbour's beat, its transmit time, receive time here and the delay it measured, 0.05 ns. -/
  | timeMessageReceive (p : Nat) (beat : Nat) (tx : Nat) (rx : Nat) (back : Int)
  /-- TICKIN_EDGE (R22). Rising edge at off (0.05 ns) from the nearest beat edge. -/
  | tickinEdge (off : Int)
  /-- TICK_FALLBACK (R24). Three expected edges missing. -/
  | tickFallback
  /-- TICK_DISAGREE (R371). Over 50 ns for 64 beats. -/
  | tickDisagree
  /-- LE_FLT_N_FALL (R351). Port p. -/
  | leFltNFall (p : Nat)
  /-- LE_FLT_N_RESTORE (R351). Port p. -/
  | leFltNRestore (p : Nat)
  /-- LIGHT_ENGINE_POLL (R351). Engine of port p. -/
  | lightEnginePoll (p : Nat) (answers : Bool) (profile : BitVec 16) (status : BitVec 16) (temp : BitVec 16) (rx : List Int)
  /-- IDENTITY_MESSAGE (R374). Identity message at port p. -/
  | identityMessage (p : Nat) (coord : Nat) (port : Nat) (lx : Nat) (ly : Nat) (lz : Nat) (msg : List (BitVec 8))
  /-- MUSTER_REPORT (R375). Report of the child in direction d (6: own subtree complete). -/
  | musterReport (d : Nat) (second : Bool) (present : List Nat) (beat : Nat)
  /-- SYSTEM_READY_DECLARE (R376). Root at its own time ms. -/
  | systemReadyDeclare (ms : Nat) (beat : Nat)
  /-- STANDBY_ROOT_DECLARE (R376). R2 at its own time ms. -/
  | standbyRootDeclare (ms : Nat) (beat : Nat)
  /-- SYSTEM_READY_RECEIVE (R376). Flood received. -/
  | systemReadyReceive (absent : List Nat) (beat : Nat)
  /-- MUSTER_PORT_TIMEOUT (R373). Port p at 120 s. -/
  | musterPortTimeout (p : Nat)
  /-- ROUTE_UPDATE_RECEIVE (R377). Route update. -/
  | routeUpdateReceive (coord : Nat) (present : Bool) (beat : Nat)
  /-- ROUTE_SWITCH_BEAT (R377). The switch beat. -/
  | routeSwitchBeat
  /-- MB_ENABLE_WRITE (R383). Write of MB_CTRL. -/
  | mbEnableWrite (m : Nat) (w : BitVec 32)
  /-- MB_CMD_TAIL_WRITE (R385). Write of MB_CMD_TAIL. -/
  | mbCmdTailWrite (m : Nat) (w : BitVec 32)
  /-- MB_DOORBELL (R386). Write of MB_DOORBELL. -/
  | mbDoorbell (m : Nat) (w : BitVec 32)
  /-- COMMAND_FETCH (R386). The 64 bytes and extended payload the steward reads from host memory. -/
  | commandFetch (m : Nat) (entry : List (BitVec 8)) (ext : List (BitVec 8))
  /-- COMMAND_DEADLINE (R393). Command k. -/
  | commandDeadline (k : Nat)
  /-- COMMAND_COMPLETE (R389). Command k. -/
  | commandComplete (k : Nat)
  /-- REGISTER_WRITE (R12). 32-bit write to BAR0, BAR2 or BAR4, or (bar 1) to the management register of command code off. -/
  | registerWrite (bar : Nat) (off : Nat) (w : BitVec 32)
  /-- DEV_INFO (R406). The fetched mailbox command with key k: dev.info writes the device information record. -/
  | devInfo (k : Nat)
  /-- DEV_RESET (R429). The fetched mailbox command with key k: dev.reset completes with accepted and resets the device as RESET_N does. -/
  | devReset (k : Nat)
  /-- DEV_CMD_CANCEL (R395). The fetched mailbox command with key k: dev.cmd.cancel aborts a named uncommitted command or reports it done. -/
  | devCmdCancel (k : Nat)
  /-- DEV_UNIT_DISABLE (R465). The fetched mailbox command with key k: dev.unit.disable removes a unit gracefully or immediately. -/
  | devUnitDisable (k : Nat)
  /-- DEV_UNIT_ENABLE (R467). The fetched mailbox command with key k: dev.unit.enable enqueues a HOST_ENABLE recovery for a fenced or disabled unit. -/
  | devUnitEnable (k : Nat)
  /-- DEV_UNIT_STATUS (R514). The fetched mailbox command with key k: dev.unit.status returns the state of every unit. -/
  | devUnitStatus (k : Nat)
  /-- DEV_FAULT_READ (R514). The fetched mailbox command with key k: dev.fault.read returns the fault queue and fault log. -/
  | devFaultRead (k : Nat)
  /-- DEV_MEM_STATUS (R311). The fetched mailbox command with key k: dev.mem.status returns the memory registers. -/
  | devMemStatus (k : Nat)
  /-- DEV_MEM_RETRAIN (R305). The fetched mailbox command with key k: dev.mem.retrain queues a retraining trigger for a named unit. -/
  | devMemRetrain (k : Nat)
  /-- DEV_MEM_SCRUB (R302). The fetched mailbox command with key k: dev.mem.scrub sets the patrol scrub settings. -/
  | devMemScrub (k : Nat)
  /-- DEV_MEM_REGION (R309). The fetched mailbox command with key k: dev.mem.region sets or clears one region entry. -/
  | devMemRegion (k : Nat)
  /-- DEV_PARTITION_CONFIG (R342). The fetched mailbox command with key k: dev.partition.config sets the number of partitions and re-forms the device. -/
  | devPartitionConfig (k : Nat)
  /-- DEV_PARTITION_RESET (R343). The fetched mailbox command with key k: dev.partition.reset schedules a partition reset at the next beat edge. -/
  | devPartitionReset (k : Nat)
  /-- DEV_PARTITION_STATUS (R346). The fetched mailbox command with key k: dev.partition.status returns the network registers. -/
  | devPartitionStatus (k : Nat)
  /-- POWER_STATUS (R454). The fetched mailbox command with key k: power.status returns PWR_STATE and the domain states. -/
  | powerStatus (k : Nat)
  /-- POWER_STATE (R434). The fetched mailbox command with key k: power.state moves the device to D1, D0 or D3. -/
  | powerState (k : Nat)
  /-- POWER_DOMAIN (R432). The fetched mailbox command with key k: power.domain switches one power domain on or off. -/
  | powerDomain (k : Nat)
  /-- LIGHT_STATUS (R85). The fetched mailbox command with key k: light.status returns levels, P0, power, compensation and relay state. -/
  | lightStatus (k : Nat)
  /-- LIGHT_COMMISSION (R68). Command k; what the REFL photodiode reads on its factory scale, 0.01 dBm, used when a reference is applied (R69). -/
  | lightCommission (k : Nat) (refl : Int)
  /-- LIGHT_RELAY_ASSIGN (R85). The fetched mailbox command with key k: light.relay.assign assigns, warms and pre-locks a named relay for a port. -/
  | lightRelayAssign (k : Nat)
  /-- LIGHT_RELAY_SWITCH (R85). The fetched mailbox command with key k: light.relay.switch moves a port to its assigned relay by a light pause. -/
  | lightRelaySwitch (k : Nat)
  /-- LIGHT_RELAY_RELEASE (R85). The fetched mailbox command with key k: light.relay.release returns a port to its own source and frees the relay. -/
  | lightRelayRelease (k : Nat)
  /-- CAL_STATUS (R514). The fetched mailbox command with key k: cal.status returns calibration ages, procedure states and REFV state. -/
  | calStatus (k : Nat)
  /-- CAL_RUN (R189). The fetched mailbox command with key k: cal.run runs the named calibration procedures on named fields and bands. -/
  | calRun (k : Nat)
  /-- CAL_CADENCE (R185). The fetched mailbox command with key k: cal.cadence sets a partition's calibration cadence. -/
  | calCadence (k : Nat)
  /-- CAL_VERIFY (R187). Command k; its first arrival starts the check, its second, once every stage has run, ends it (R187). -/
  | calVerify (k : Nat)
  /-- CAL_USER_CLEAR (R167). The fetched mailbox command with key k: cal.user.clear zeroes the user calibration layer and maximises every age. -/
  | calUserClear (k : Nat)
  /-- CAL_BAND_HOLD (R189). The fetched mailbox command with key k: cal.band.hold withholds named bands without a procedure. -/
  | calBandHold (k : Nat)
  /-- CAL_BAND_RELEASE (R189). The fetched mailbox command with key k: cal.band.release returns held bands to dispatch at a halt. -/
  | calBandRelease (k : Nat)
  /-- MODEL_LOAD_BEGIN (R314). The fetched mailbox command with key k: model.load.begin opens a load context. -/
  | modelLoadBegin (k : Nat)
  /-- MODEL_LOAD_CHUNK (R315). Command k; its first arrival starts the chunk, its second carries the bytes that a host read gives from SRC on and the byte offsets of those returned as poisoned. -/
  | modelLoadChunk (k : Nat) (data : List (BitVec 8)) (bad : List Nat)
  /-- MODEL_LOAD_END (R317). The fetched mailbox command with key k: model.load.end publishes or stages the loaded version and closes the context. -/
  | modelLoadEnd (k : Nat)
  /-- MODEL_DIR_SET (R323). The fetched mailbox command with key k: model.dir.set switches a handle's pointer to a new version. -/
  | modelDirSet (k : Nat)
  /-- MODEL_DIR_READ (R514). The fetched mailbox command with key k: model.dir.read returns directory entries and the swap state. -/
  | modelDirRead (k : Nat)
  /-- MODEL_DIR_FREE (R324). The fetched mailbox command with key k: model.dir.free frees a directory entry and bumps its generation. -/
  | modelDirFree (k : Nat)
  /-- MODEL_SWAP_STAGE (R325). The fetched mailbox command with key k: model.swap.stage stages a version in tile order for a swap. -/
  | modelSwapStage (k : Nat)
  /-- MODEL_SWAP_STATUS (R514). The fetched mailbox command with key k: model.swap.status returns per-layer swap states. -/
  | modelSwapStatus (k : Nat)
  /-- MODEL_SWAP_CANCEL (R331). The fetched mailbox command with key k: model.swap.cancel cancels a swap before any rewrite. -/
  | modelSwapCancel (k : Nat)
  /-- MODEL_PREFETCH (R333). The fetched mailbox command with key k: model.prefetch starts the copy of a spilled tensor into its HOT_STAGE. -/
  | modelPrefetch (k : Nat)
  /-- EXEC_SUBMIT (R233). The fetched mailbox command with key k: exec.submit appends a submission of descriptors to a stream's queue. -/
  | execSubmit (k : Nat)
  /-- EXEC_ABORT (R264). The fetched mailbox command with key k: exec.abort aborts named ops of a stream or reports them done. -/
  | execAbort (k : Nat)
  /-- EXEC_STATUS (R266). The fetched mailbox command with key k: exec.status returns stream state. -/
  | execStatus (k : Nat)
  /-- EXEC_TOKEN (R242). The fetched mailbox command with key k: exec.token reads or resets a range of dependency tokens. -/
  | execToken (k : Nat)
  /-- EXEC_STREAM (R235). The fetched mailbox command with key k: exec.stream sets a stream's priority. -/
  | execStream (k : Nat)
  /-- MANIFEST_OPEN (R266). The fetched mailbox command with key k: manifest.open makes a free manifest entry OPEN with its request fields. -/
  | manifestOpen (k : Nat)
  /-- MANIFEST_CLOSE (R249). The fetched mailbox command with key k: manifest.close makes an entry DONE. -/
  | manifestClose (k : Nat)
  /-- MANIFEST_FREE (R266). The fetched mailbox command with key k: manifest.free releases a DONE entry with no ops in flight. -/
  | manifestFree (k : Nat)
  /-- MANIFEST_READ (R512). The fetched mailbox command with key k: manifest.read returns manifest entries. -/
  | manifestRead (k : Nat)
  /-- LINK_STATUS (R378). The fetched mailbox command with key k: link.status returns port states, engine readings, absent list and route epoch. -/
  | linkStatus (k : Nat)
  /-- LINK_CONFIG (R378). The fetched mailbox command with key k: link.config sets coordinate, torus lengths and muster roots. -/
  | linkConfig (k : Nat)
  /-- LINK_PORT_RETRAIN (R360). The fetched mailbox command with key k: link.port.retrain retrains one port. -/
  | linkPortRetrain (k : Nat)
  /-- LINK_PORT_DISABLE (R378). The fetched mailbox command with key k: link.port.disable steers queued packets away and disables a port. -/
  | linkPortDisable (k : Nat)
  /-- LINK_PORT_ENABLE (R378). The fetched mailbox command with key k: link.port.enable enables and trains a port. -/
  | linkPortEnable (k : Nat)
  /-- LINK_FEC (R353). The fetched mailbox command with key k: link.fec sets a port's FEC mode and retrains it. -/
  | linkFec (k : Nat)
  /-- LINK_MUSTER_STATUS (R378). The fetched mailbox command with key k: link.muster.status returns muster phase, parent, reports and bitmap. -/
  | linkMusterStatus (k : Nat)
  /-- LINK_REJOIN (R377). The fetched mailbox command with key k: link.rejoin at the root floods a route update naming a late device as present. -/
  | linkRejoin (k : Nat)
  /-- LINK_TIME (R503). The fetched mailbox command with key k: link.time moves the beat to TICKIN or to link time by gradual corrections. -/
  | linkTime (k : Nat)
  /-- THERMAL_STATUS (R514). The fetched mailbox command with key k: thermal.status returns the thermal registers and every sensor's state. -/
  | thermalStatus (k : Nat)
  /-- THERMAL_CONFIG (R454). The fetched mailbox command with key k: thermal.config sets GRACE and the EXT_T registers. -/
  | thermalConfig (k : Nat)
  /-- THERMAL_THROTTLE_ACK (R446). The fetched mailbox command with key k: thermal.throttle.ack suspends enforcement of the active throttle episode. -/
  | thermalThrottleAck (k : Nat)
  /-- THERMAL_SENSOR (R514). The fetched mailbox command with key k: thermal.sensor returns one sensor's last 64 readings. -/
  | thermalSensor (k : Nat)
  /-- SEC_CERT_READ (R403). The fetched mailbox command with key k: sec.cert.read returns the device certificate chain. -/
  | secCertRead (k : Nat)
  /-- SEC_MEASURE_READ (R478). The fetched mailbox command with key k: sec.measure.read returns a signed measurement report for a nonce. -/
  | secMeasureRead (k : Nat)
  /-- SEC_LICENCE_INSTALL (R482). The fetched mailbox command with key k: sec.licence.install checks and stores a licence token. -/
  | secLicenceInstall (k : Nat)
  /-- SEC_LICENCE_LIST (R482). The fetched mailbox command with key k: sec.licence.list returns stored tokens and installed and granted features. -/
  | secLicenceList (k : Nat)
  /-- SEC_IMAGE_STAGE (R484). The fetched mailbox command with key k: sec.image.stage writes a piece of an image into the inactive slot. -/
  | secImageStage (k : Nat)
  /-- SEC_IMAGE_COMMIT (R485). The fetched mailbox command with key k: sec.image.commit names the staged image in the select record and may blow fuses. -/
  | secImageCommit (k : Nat)
  /-- IMAGE_STAGE_IDLE_TIMEOUT (R484). Staging context idle. -/
  | imageStageIdleTimeout
  /-- TELEMETRY_READ (R489). The fetched mailbox command with key k: telemetry.read returns the selected register images at one beat edge. -/
  | telemetryRead (k : Nat)
  /-- TELEMETRY_CONFIG (R489). The fetched mailbox command with key k: telemetry.config selects the telemetry groups. -/
  | telemetryConfig (k : Nat)
  /-- DEBUG_READ (R407). The fetched mailbox command with key k: debug.read reads words of a device, MMIO or steward SRAM space. -/
  | debugRead (k : Nat)
  /-- DEBUG_WRITE (R407). The fetched mailbox command with key k: debug.write writes whole words to device addresses or MMIO. -/
  | debugWrite (k : Nat)
  /-- DEBUG_STEWARD (R407). The fetched mailbox command with key k: debug.steward writes the steward snapshot and trace. -/
  | debugSteward (k : Nat)
  /-- LOOP_STATUS (R162). The fetched mailbox command with key k: loop.status returns loop registers. -/
  | loopStatus (k : Nat)
  /-- LOOP_CONFIG (R162). The fetched mailbox command with key k: loop.config writes loop slot registers. -/
  | loopConfig (k : Nat)
  /-- LOOP_FREEZE (R148). The fetched mailbox command with key k: loop.freeze freezes a loop slot at the next beat edge. -/
  | loopFreeze (k : Nat)
  /-- LOOP_RELEASE (R147). The fetched mailbox command with key k: loop.release unfreezes a loop slot at the next beat edge. -/
  | loopRelease (k : Nat)
  /-- LOOP_TEST (R159). The fetched mailbox command with key k: loop.test applies a test signal to selected slots and captures them. -/
  | loopTest (k : Nat)
  /-- LOOP_CAPTURE (R161). The fetched mailbox command with key k: loop.capture configures or returns the capture buffer. -/
  | loopCapture (k : Nat)
  /-- LOOP_COOLANT (R149). The fetched mailbox command with key k: loop.coolant sets the coolant source and offset. -/
  | loopCoolant (k : Nat)
  /-- MONITOR_STATUS (R137). The fetched mailbox command with key k: monitor.status returns monitor registers. -/
  | monitorStatus (k : Nat)
  /-- MONITOR_CONFIG (R126). The fetched mailbox command with key k: monitor.config stages and commits a converter's mode and sequences. -/
  | monitorConfig (k : Nat)
  /-- MONITOR_SELFTEST (R135). The fetched mailbox command with key k: monitor.selftest runs a converter self-test on demand. -/
  | monitorSelftest (k : Nat)
  /-- MONITOR_INJECT (R127). The fetched mailbox command with key k: monitor.inject triggers the injected sequence of named converters. -/
  | monitorInject (k : Nat)
  /-- MONITOR_READ (R137). The fetched mailbox command with key k: monitor.read returns monitor results. -/
  | monitorRead (k : Nat)
  /-- RESET_N_RISE (R408). RESET_N rises. -/
  | resetNRise
  /-- BOOT_SET_READY (R408). Boot set ready. -/
  | bootSetReady
  /-- RESET_N_FALL (R429). RESET_N falls. -/
  | resetNFall
  /-- PWROK_FALL (R429). PWROK falls. -/
  | pwrokFall
  /-- REFCLK_LOSS (R501). REFCLK out of limits for over 1 us. -/
  | refclkLoss
  /-- REFCLK_RESTORE (R501). REFCLK in limits for 1 ms. -/
  | refclkRestore
  /-- BU_DOMAIN_EN_WRITE (R411). Register write. -/
  | buDomainEnWrite (w : BitVec 32)
  /-- BU_PLL_GO (R412). Register write. -/
  | buPllGo (w : BitVec 32)
  /-- BU_HBM_TRAIN_GO (R413). Register write (low word). -/
  | buHbmTrainGo (w : BitVec 32)
  /-- BU_IMG_LOAD (R415). Register write. -/
  | buImgLoad (w : BitVec 32)
  /-- BU_AUTH_VERIFY (R416). Register write. -/
  | buAuthVerify (w : BitVec 32)
  /-- BU_STEWARD_RUN (R417). Register write. -/
  | buStewardRun (w : BitVec 32)
  /-- BU_CONVOY_GO (R418). Register write. -/
  | buConvoyGo (w : BitVec 32)
  /-- BU_CONVOY_ACCEPT (R420). Register write. -/
  | buConvoyAccept (w : BitVec 32)
  /-- BU_STEP_WARMUP (R423). Register write. -/
  | buStepWarmup (w : BitVec 32)
  /-- BU_STEP_FACTORY_CAL (R425). Register write. -/
  | buStepFactoryCal (w : BitVec 32)
  /-- BU_STEP_USER_CAL (R426). Register write. -/
  | buStepUserCal (w : BitVec 32)
  /-- BRINGUP_STEP_COMPLETE (R409). The running step ends; obs: what the hardware found (groups good, PLLs locked, units trained, image bytes, read error ...). -/
  | bringupStepComplete (ms : Nat) (obs : StepObs)
  /-- BRINGUP_STEP_TIMEOUT (R410). The running step reaches its limit. -/
  | bringupStepTimeout
  /-- WARMUP_FIELD_TIMEOUT (R424). Field f, or one of its bands. -/
  | warmupFieldTimeout (f : Nat) (band : Option Nat)
  /-- CONVOY_CHUNK_RECEIVE (R419). Chunk at core c: its 16-byte header and the payload. -/
  | convoyChunkReceive (c : Nat) (chunk : List (BitVec 8))
  /-- CONVOY_REPAIR_ROUND (R420). The steward runs a repair round. -/
  | convoyRepairRound
  /-- CORE_RECONVOY (R422). Cores convoyed and those that failed. -/
  | coreReconvoy (cs : List Nat) (failed : List Nat)
  /-- SENSOR_READING (R440). Die d (22: EXT_T), sensor j; v: an HBM stack's own reading in 0.25 degC, the others are read from their converter's results. -/
  | sensorReading (d : Nat) (j : Nat) (v : Int)
  /-- OVERTEMP_COMPARATOR_TRIP (R442). Die d. -/
  | overtempComparatorTrip (d : Nat)
  /-- THROTTLE_GRACE_EXPIRY (R446). Grace ended. -/
  | throttleGraceExpiry
  /-- THROTTLE_ACK_LIMIT (R446). 50 ms after ack, or +3 degC. -/
  | throttleAckLimit
  /-- THROTTLE_STEP_TIMER (R448). 10 ms step timer. -/
  | throttleStepTimer
  /-- SENSOR_HOLD_TIMER (R449). Hold of die d ends. -/
  | sensorHoldTimer (d : Nat)
  /-- SHUTDOWN_COMPARATOR_TRIP (R451). Die d. -/
  | shutdownComparatorTrip (d : Nat)
  /-- DOMAIN_POWER_GOOD_LOSS (R458). Domain d. -/
  | domainPowerGoodLoss (d : Nat)
  /-- FAULT_DETECT (R457). Unit fault. -/
  | faultDetect (code : Nat) (kind : Nat) (index : Nat) (sub : Nat) (detail : Nat)
  /-- CORE_HEARTBEAT_MISS (R458). Core c. -/
  | coreHeartbeatMiss (c : Nat)
  /-- FAULT_QUEUE_TAKE (R461). The steward takes the next entry. -/
  | faultQueueTake
  /-- RECOVERY_END (R458). The running recovery ends. -/
  | recoveryEnd (pass : Bool)
  /-- DISABLE_GRACEFUL_TIMEOUT (R465). Disable command k. -/
  | disableGracefulTimeout (k : Nat)
  /-- STEWARD_WATCHDOG_EXPIRY (R468). Watchdog. -/
  | stewardWatchdogExpiry
  /-- SEC_SELF_TEST (R493). Known-answer tests. -/
  | secSelfTest (pass : Bool)
  /-- SPDM_REQUEST (R479). SPDM request. -/
  | spdmRequest (transport : Nat) (code : Nat) (body : List (BitVec 8))
  /-- MCTP_VENDOR_REQUEST (R487). Type-0x7E request. -/
  | mctpVendorRequest (entry : List (BitVec 8)) (ext : List (BitVec 8))
  /-- MG_RESET_WRITE (R490). Write of MG_RESET; soon: within 1 ms of the previous. -/
  | mgResetWrite (v : BitVec 8) (soon : Bool)
  /-- DEVICE_FAULT (R468). 2 steward memory, 3 sequencer or mailbox hardware. -/
  | deviceFault (cause : Nat)
  /-- DECODER_COMMIT (R413). CXL.mem decoder of region 0 HBM, 1 DDR, 2 SRAM. -/
  | decoderCommit (region : Nat) (base : Nat)
  /-- SET_ENDPOINT_ID (R487). MCTP Set Endpoint ID. -/
  | setEndpointId (eid : Nat)
  /-- DYNAMIC_ADDRESS_ASSIGN (R486). I3C dynamic address. -/
  | dynamicAddressAssign (a : Nat)
  /-- MEASUREMENT_EXTEND (R477). M6 or M7. -/
  | measurementExtend (reg : Nat) (d : List (BitVec 8))
  deriving DecidableEq, Repr

end Sys2Proof
end

