-- ==== Sys2Proof/Decode.lean ====
section
/-! DEFINITION. Decoding of a command word. The opcode table gives no row any bits, so no word spells a command. -/

namespace Sys2Proof

/-- The command that a word spells by the table's bits: none, for every width, as no row has bits. -/
def decodeTableWord (nbits w : Nat) : Option Instr := match nbits, w with | _, _ => none

end Sys2Proof
end

