-- ==== Sys2Proof/Config.lean ====
section
/-! DEFINITION. What an implementation fixes, and the free values: constants without a body, of which nothing can be
proved (assumption log 8). -/

namespace Sys2Proof

/-- A fresh value where the manual states no value, named by the counter `State.free`. -/
opaque Config.freeNat : Nat → Nat

/-- Sign and payload of a NaN result, from the operand words. -/
opaque Config.nanBits : Nat → Nat → Nat

/-- The extinction drive code of cell 65536*field + 256*row + column, measured by the factory (R35). -/
opaque Config.extinction : Nat → Int

/-- What a cell loader's result differs by from the formula of R33, of which one code either way counts: by cell, weight code and gain entry. -/
opaque Config.loaderError : Nat → Int → Int → Int

/-- The pre-emphasis coefficient e of a field's row and colour in 1/32, set by the factory (R90, R166). -/
opaque Config.preEmphasis : Nat → Nat → Nat → Nat

/-- Which beat of two (step 3) or of four (step 4) an enforced throttle allows slices in (R447). -/
opaque Config.idlePhase : Nat → Nat

/-- The factory thermal coefficient of an LO phase slot or modulator bias instance (R153), output LSB per 65536 Q15 steps of ΔT. -/
opaque Config.thermalCoef : Nat → Int

/-- The heater zones of band 8·field + band, over which R153 takes the band's mean ΔT. -/
opaque Config.bandZones : Nat → List Nat

/-- The heater zone nearest the row of a modulator bias instance (R153). -/
opaque Config.rowZone : Nat → Nat

/-- The factory feed-forward coefficient of a die thermal slot (R142), Q15 per unit of supply power, in 1/65536. -/
opaque Config.heaterFeed : Nat → Int

/-- The supply power of the electronic die of a tile, from the results of its voltage and current sense points (R121, R142), whose order and
scale the manual does not give. -/
opaque Config.supplyPower : Nat → List Int → Int

/-- The power-splitting imbalance of cell 65536·field + 256·row + column as a phase in µrad, which its phase trim cancels (R31, R34). -/
opaque Config.imbalance : Nat → Int

/-- The skew of an ADC slice against its channel, in taps, from the products of its samples with the neighbouring slice's (R99): the manual
names the estimator and gives no formula. -/
opaque Config.skewOf : List Int → Int

/-- What one step of a band's common-offset DAC adds to a raw code of column 65536·field + 4·column + colour, in 1/65536 code (R97): the manual names
the DAC and states no weight. -/
opaque Config.offsetWeight : Nat → Int

/-- How far below the reading of code 1 a tap reads whose code is 0 or less (R66): the logarithm has no value there. -/
opaque Config.darkBelow : Int → Nat

/-- What a thermistor reads whose resistance or parameters give no number (R439), in 1/128 °C: by converter code, R25 and β. -/
opaque Config.ntcOpen : Int → Nat → Nat → BitVec 16

/-- SHA-384 (R471, R477). -/
opaque Config.sha384 : List Byte → List Byte

/-- Whether an identity message's signatures and certificates verify over the nonce sent (R374, R475): by nonce and message. -/
opaque Config.sigOk : List Byte → List Byte → Bool

/-- ECDSA P-384 verification (R474): by public key, signature and hash value. -/
opaque Config.ecdsaOk : List Byte → List Byte → List Byte → Bool

/-- LMS verification under RFC 8554 (R474): by public key, signature and message. -/
opaque Config.lmsOk : List Byte → List Byte → List Byte → Bool

/-- The device's own signature block and boot-key certificate over a message (R475): by boot key and message. -/
opaque Config.deviceSign : List Byte → List Byte → List Byte

/-- The version of the security block's mask ROM (R477). -/
opaque Config.romVersion : List Byte

/-- Whether a write of package flash takes, named by the counter `State.free` (R476). -/
opaque Config.flashOk : Nat → Bool

/-- The values that the factory calibration region of flash holds (R163, R425), whose encoding the manual does not give: pairs of CalKey and value. -/
opaque Config.factoryTable : List Byte → List (Nat × Int)

/-- The shipped coefficients and limits of a loop slot (R162, R423), by slot and register: 0 KP, 1 KI, 2 KD, 3 OUT_MIN, 4 OUT_MAX, 5 D_ALPHA, 6 SLEW. -/
opaque Config.shipped : Nat → Nat → Nat

/-- The kernel watchdog that the steward firmware of the device sets, in ms (R276); 0 for one that keeps the default. -/
opaque Config.watchdog : Nat

/-- An SPDM 1.2 response to a supported request (R479): by transport and connection state, request code, body and measurement
registers. -/
opaque Config.spdmReply : Nat → Nat → List Byte → List (List Byte) → List Byte

end Sys2Proof
end

