-- ==== Sys2Proof/Machine/State.lean ====
section
/-! DEFINITION. The state of the block as plain data, its reset value, and the reasons a step can stop.
Every field names the chapter and rule of spec/ that gives it. A table (`Tab`) lists only the entries that differ
from the default of their kind, so a reset table is empty. -/

namespace Sys2Proof.Machine

open Sys2Proof

/-- M0 to M7 at reset: all zero (R477). -/
def zeroMeas : List (List (BitVec 8)) := List.replicate 8 (List.replicate 48 0)

/-- The beat sequencer's clock, beat alignment and time within the beat. -/
structure Tim where
  /-- beats since bring-up step 2; DESIGN CHOICE 4 before counting (width 64; 01 R15, 17 R412). -/
  beat : Nat := 0
  /-- beat counting runs (width 1; 17 R412). -/
  counting : Bool := false
  /-- time within the beat in 0.1 ns of the last timed event (log 7) (width 14; 01 R16). -/
  t : Nat := 0
  /-- halt correction of this beat in field-clock cycles, -1, 0 or 1 (width 2; 01 R23). -/
  haltAdj : Int := 0
  /-- the sequencer admits slices and ops (width 1; 17 R427). -/
  admits : Bool := false
  /-- admission starts at the next beat edge (width 1; 17 R427). -/
  aloneStart : Bool := false
  /-- the device has admitted a slice (width 1; 15 R372). -/
  everAdmitted : Bool := false
  /-- TICKIN is followed (width 1; 01 R22, 21 R502). -/
  tickUse : Bool := false
  /-- consecutive expected TICKIN edges missing (width 2; 01 R24). -/
  tickMiss : Nat := 0
  /-- a TICKIN edge was accepted in this beat (width 1; 21 R502). -/
  tickSeen : Bool := false
  /-- TICKIN offset from the beat edge, 0.05 ns units (width 15; 21 R502, R503). -/
  tickOff : Int := 0
  /-- offset from the muster-tree parent (link time), 0.05 ns units (width 15; 15 R370). -/
  ltOff : Int := 0
  /-- consecutive beats with link time and TICKIN over 50 ns apart (width 7; 15 R371). -/
  disagree : Nat := 0
  /-- link.time progress: 0 none, 1 waiting for 64 edges, 2 moving to TICKIN, 3 moving to link time (width 2; 21 R503). -/
  sel : Nat := 0
  /-- agreeing TICKIN edges counted (width 7; 21 R503). -/
  selGood : Nat := 0
  /-- beats since link.time began (width 11; 21 R503). -/
  selBeats : Nat := 0
  /-- a TICKIN edge was seen since link.time began (width 1; 21 R503). -/
  selAny : Bool := false
  /-- key of the link.time command in progress (width 32; 21 R503). -/
  selCmd : Nat := 0
  deriving DecidableEq, Repr

/-- Package pins the rules name. -/
structure Pins where
  /-- RESET_N (width 1; 17 R408, R429). -/
  rstN : Bool := false
  /-- PWROK (width 1; 21 R500). -/
  pwrok : Bool := false
  /-- REFCLK within its limits; DESIGN CHOICE 4 (width 1; 21 R501). -/
  refclk : Bool := true
  /-- THROT_N (1: high) (width 1; 18 R445, R451). -/
  throtN : Bool := true
  /-- FAULT_N (1: high) (width 1; 19 R468, 18 R451). -/
  faultN : Bool := true
  /-- LE_EN_p (width 24; 15 R351). -/
  leEn : BitVec 24 := 0
  /-- LE_FLT_N_p as filtered (pull-up) (width 24; 15 R351). -/
  leFltN : BitVec 24 := 0xFFFFFF
  /-- held in reset after REFCLK loss (width 1; 21 R501). -/
  held : Bool := false
  /-- I3C dynamic address of the management target (width 7; 20 R486). -/
  mgAddr : Option Nat := none
  /-- MCTP endpoint ID of the management interface (width 8; 20 R487). -/
  mgEid : Option Nat := none
  /-- beat at whose edge TICKOUT was last driven (width 32; 01 R22, 21 R502). -/
  tickOut : Option Nat := none
  deriving DecidableEq, Repr

/-- One weight plane of a field: shadow or live. -/
structure Plane where
  /-- weight codes written, cell 256*r+c; unlisted 0 (width 65536 x 8; 02 R33, R35). -/
  codes : Tab (BitVec 8) := []
  /-- drive codes written by the loaders; unlisted 0; DESIGN CHOICE 4 (width 65536 x 10; 02 R32, 04 R92). -/
  drives : Tab Int := []
  /-- columns that hold poisoned weight words (width 256; 04 R114). -/
  poisonCols : BitVec 256 := 0
  /-- K-tile number of the plane (width 32; 10 R259). -/
  tile : Nat := 0
  deriving DecidableEq, Repr

/-- What a known-answer check has measured of one band and colour. -/
structure KaSum where
  /-- outputs compared (width 32; 07 R188). -/
  n : Nat := 0
  /-- sum of the errors, 2^-16 code products (width 64; 07 R187, R188). -/
  sum : Int := 0
  /-- sum of their squares (width 128; 07 R187, R188). -/
  sq : Nat := 0
  /-- largest magnitude, 2^-16 code products (width 40; 07 R188). -/
  mx : Nat := 0
  /-- conditions that any output carries (width 5; 07 R188). -/
  flags : BitVec 5 := 0
  deriving DecidableEq, Repr

/-- One field: field, edge, calibration and vector-core registers of the field block. -/
structure Field where
  /-- plane select: false A live, true B live (width 1; 02 R62). -/
  livePlane : Bool := false
  /-- shadow filled and not yet swapped in (width 1; 02 R62). -/
  shadowReady : Bool := false
  /-- false: dark (parked, D1 or warm-up), STATE 0 (width 1; 02 R62, 17 R423). -/
  lit : Bool := false
  /-- the field is fenced (width 1; 02 R62, 19 R459). -/
  fenced : Bool := false
  /-- the fence was made during bring-up (width 1; 17 R410, 19 R467). -/
  bootFenced : Bool := false
  /-- colours in force this beat; 0 no modes in force (width 4; 02 R62, 10 R258). -/
  colours : BitVec 4 := 0
  /-- colour mode in force, COLOUR encoding (0 C1, 1 C2, 2 C4) (width 2; 10 R258). -/
  colourMode : Nat := 0
  /-- fenced bands (width 8; 02 R62). -/
  bandFenced : BitVec 8 := 0
  /-- withheld bands (width 8; 02 R62, R55). -/
  bandWithheld : BitVec 8 := 0
  /-- SYMBOL_RATE: true 5 GBd (width 1; 02 R62). -/
  slow : Bool := false
  /-- HEADROOM in force (width 2; 04 R119). -/
  headroom : Nat := 2
  /-- ns time of the live plane's last fill (LIVE_AGE 0 until one) (width 15; 02 R62). -/
  liveAt : Option Nat := none
  /-- ns time of the shadow plane's last fill (width 15; 02 R62). -/
  shadowAt : Option Nat := none
  /-- REFRESH_COUNT (width 32; 02 R62). -/
  refreshCount : BitVec 32 := 0
  /-- weight hold A (width 65536 x 10; 02 R37). -/
  planeA : Plane := {}
  /-- weight hold B (width 65536 x 10; 02 R37). -/
  planeB : Plane := {}
  /-- cell-loader input buffer (width 64 KiB; 04 R93). -/
  inBuf : Plane := {}
  /-- drive-code store of the live plane (width 65536 x 10; 04 R93). -/
  drvStore : Tab Int := []
  /-- 0.1 ns time at which the fill in progress settles (width 64; 04 R92). -/
  fillEnd : Nat := 0
  /-- a fill or rewrite is in progress (width 1; 04 R119). -/
  loaderBusy : Bool := false
  /-- BUFFER_FULL (width 1; 04 R119). -/
  bufFull : Bool := false
  /-- SHADOW_STALE (width 1; 04 R119, R94). -/
  shadowStale : Bool := false
  /-- TREE_ROOT (width 1; 04 R119). -/
  treeRoot : Bool := false
  /-- TREE_DEPTH (width 5; 04 R119). -/
  treeDepth : Nat := 0
  /-- TRIM_ROUND (width 6; 04 R119, R95). -/
  trimRound : Nat := 0
  /-- a planned swap waits for the fill (width 1; 02 R40). -/
  swapWait : Bool := false
  /-- a live-refresh swap is due in the next halt (width 1; 02 R41). -/
  refreshSwap : Bool := false
  /-- the pending tile must be reloaded (width 1; 02 R42). -/
  reloadPend : Bool := false
  /-- EDG_ADC_SEL (width 14; 04 R119). -/
  adcSel : BitVec 14 := 0
  /-- symbol index n since bring-up (width 64; 02 R52). -/
  symIdx : Nat := 0
  /-- ADC sample index (width 64; 04 R96). -/
  smpIdx : Nat := 0
  /-- bytes that the row modulators carry in this slot, key 4*row+colour; unlisted 0x80, dark; DESIGN CHOICE 4 (width 1024 x 8; 04 R88). -/
  feed : Tab (BitVec 8) := []
  /-- bytes of the slot before, for the second tap; DESIGN CHOICE 4 (width 1024 x 8; 04 R90). -/
  feedPrev : Tab (BitVec 8) := []
  /-- the modulator DACs take the bytes as DAC codes, bypassing the table (row calibration) (width 1; 07 R172). -/
  direct : Bool := false
  /-- so in the slot before (width 1; 07 R172). -/
  directPrev : Bool := false
  /-- beat of the last row calibration; none: maximum age (width 12; 07 R190, R182). -/
  rowAt : Option Nat := none
  /-- PROC (width 3; 07 R190). -/
  proc : Nat := 0
  /-- PROC_BAND (width 3; 07 R190). -/
  procBand : Nat := 0
  /-- WINDOW: calibration window reserved this beat (width 1; 07 R190). -/
  window : Bool := false
  /-- op that holds the field's symbol slots (width 32; 10 R256). -/
  slots : Option Nat := none
  /-- op that holds the field's loaders (width 32; 10 R257). -/
  loader : Option Nat := none
  /-- op whose modes take force at the next beat edge (width 32; 10 R258). -/
  nextOp : Option Nat := none
  /-- QUANT_BUSY (width 4; 11 R285). -/
  quantBusy : BitVec 4 := 0
  /-- DRAIN: clusters draining (width 4; 11 R285). -/
  drain : BitVec 4 := 0
  /-- slew estimate: the largest abs(sum of 32 - sum of 32) of its zones; S is that over 131.072 degC per ms (width 16; 06 R156). -/
  slew : Nat := 0
  /-- thermal pause in progress (width 1; 06 R158). -/
  thPause : Bool := false
  /-- pause due at the next beat edge (width 1; 06 R158). -/
  thPauseReq : Bool := false
  /-- beat of the pause's start (width 32; 06 R158). -/
  thPauseAt : Nat := 0
  /-- fenced for light (FENCED of its port) (width 1; 03 R82, R86). -/
  lightFenced : Bool := false
  /-- start of the field's thermal lock (width 32; 17 R424). -/
  tlStart : Option Nat := none
  /-- zones and loops settled (width 1; 17 R424). -/
  tlLocked : Bool := false
  /-- key of the cal.verify command running on the field (width 32; 07 R187). -/
  kaCheck : Option Nat := none
  /-- time within the beat at which the field's next symbol slot begins, 0.1 ns (width 14; 01 R16, 02 R52). -/
  slotT : Nat := 0
  /-- 0.1 ns time up to which a swap keeps the field's slots without user symbols (width 64; 01 R18, 02 R39). -/
  darkTo : Nat := 0
  /-- COMMON_OFFSET of the last halt, key 8*colour+band (width 32 x 12; 04 R119). -/
  commonOff : Tab Int := []
  /-- test voltage of trim converter 15: 0 none, 1 and -1 for +0.625 V and -0.625 V (width 2; 05 R134, R135). -/
  testV : Int := 0
  /-- quadrature pilot correlation of this beat so far, 1/16 code, key 8*colour+band; DESIGN CHOICE 4 (width 32 x 40; 06 R141, 02 R53). -/
  quad : Tab Int := []
  /-- amplitude that the pilot gains give those symbols, 2^-16 code, same key; DESIGN CHOICE 4 (width 32 x 40; 06 R141). -/
  quadAmp : Tab Int := []
  /-- sum of the corrected codes of this beat's halt slots, 1/16 code, same key; DESIGN CHOICE 4 (width 32 x 40; 06 R141). -/
  haltSum : Tab Int := []
  /-- samples in that sum, same key; DESIGN CHOICE 4 (width 32 x 16; 06 R141). -/
  haltN : Tab Nat := []
  /-- LO phase estimates of the beat that closed last, Q15, same key; DESIGN CHOICE 4 (width 32 x 16; 06 R138, R141). -/
  loY : Tab (Option Int) := []
  /-- receiver offset estimates of that beat, Q15, same key; DESIGN CHOICE 4 (width 32 x 16; 06 R138, R141). -/
  offY : Tab (Option Int) := []
  /-- beat for which those estimates stand (width 32; 06 R138). -/
  estBeat : Option Nat := none
  /-- sums of each slice's samples over this beat, key slice, index 4*column+colour; DESIGN CHOICE 4 (width 16 x 1024 x 32; 04 R99). -/
  slSum : Tab (List Int) := []
  /-- samples of each slice in this beat; DESIGN CHOICE 4 (width 16 x 12; 04 R99). -/
  slN : Tab Nat := []
  /-- sums of squares of each slice's samples over 16 beats; DESIGN CHOICE 4 (width 16 x 1024 x 40; 04 R99). -/
  slSq : Tab (List Int) := []
  /-- sums of each slice's samples times those of the slice before, over 16 beats; DESIGN CHOICE 4 (width 16 x 1024 x 40; 04 R99). -/
  slCor : Tab (List Int) := []
  /-- samples of each slice in those 16 beats; DESIGN CHOICE 4 (width 16 x 16; 04 R99). -/
  slN16 : Tab Nat := []
  /-- the last sample of every column and colour; DESIGN CHOICE 4 (width 1024 x 10; 04 R99). -/
  lastRaw : List Int := []
  /-- stage of the known-answer check: 0 to 7 onion, 8 dense (width 4; 07 R187). -/
  kaStage : Nat := 0
  /-- tokens per colour carried in the stage (width 12; 07 R187). -/
  kaTok : Nat := 0
  /-- ns time at which the stage's codes were set (width 64; 07 R172, R187). -/
  kaAt : Nat := 0
  /-- bands whose slice telemetry stands as before they were withheld (width 8; 07 R173). -/
  telHeld : BitVec 8 := 0
  /-- what the check has measured so far, key 4*band+colour (width 32 x 200; 07 R187, R188). -/
  kaSums : Tab KaSum := []
  deriving DecidableEq, Repr

/-- Correction state of one ADC slice, key ((field*256+column)*4+colour)*16+slice. -/
structure Adc where
  /-- OFFSET, 1/16 code (width 12; 04 R119, R99). -/
  offset : Int := 0
  /-- GAIN_TRIM (width 8; 04 R119). -/
  gainTrim : BitVec 8 := 0x80
  /-- SKEW_TAP (width 6; 04 R119). -/
  skew : Nat := 32
  deriving DecidableEq, Repr

/-- Taint windows of one column octet in one colour, key (field*32+octet)*4+colour. -/
structure Taint where
  /-- first slot index after the octet's window (width 64; 04 R104, R105). -/
  upTo : Nat := 0
  deriving DecidableEq, Repr

/-- One accumulator cell, key (field*2048+row)*1024+cell. -/
structure AccCell where
  /-- two's-complement value; reset DESIGN CHOICE 4 (width 32; 04 R111). -/
  val : Int := 0
  /-- taint flag (width 1; 04 R111). -/
  T : Bool := false
  /-- overrange flag (width 1; 04 R111). -/
  O : Bool := false
  /-- poison flag (width 1; 04 R111). -/
  P : Bool := false
  /-- copies that differ from the flags as the majority reads them: bit 3k of copy k for T, 3k+1 for O, 3k+2 for P (width 9; 04 R113). -/
  dis : BitVec 9 := 0
  deriving DecidableEq, Repr

/-- One band, key 8*field+band. -/
structure Band where
  /-- beat of the last band calibration; none: maximum age (width 16; 07 R190, R182). -/
  bandAt : Option Nat := none
  /-- beat of the last cell calibration; none: maximum age (width 12; 07 R190, R182). -/
  cellAt : Option Nat := none
  /-- SUSPECT (width 1; 07 R190). -/
  suspect : Bool := false
  /-- held by cal.band.hold (width 1; 07 R189). -/
  hold : Bool := false
  /-- procedure on the band (PROC encoding, 0 none) (width 3; 07 R190). -/
  proc : Nat := 0
  /-- procedures still to run on the band, in order (width 3 x 3; 07 R184, R426). -/
  queue : List Nat := []
  /-- failed tries of the current point (width 2; 07 R175). -/
  repeats : Nat := 0
  /-- void runs of the current procedure (width 5; 07 R176). -/
  voids : Nat := 0
  /-- accepted effective values waiting for the procedure's end (width -; 07 R180). -/
  pend : Tab Int := []
  /-- every point passed; results take force in the next halt (width 1; 07 R180). -/
  done : Bool := false
  /-- the band returns to dispatch at the next halt (width 1; 07 R174, R181). -/
  back : Bool := false
  /-- since the band's return: 0 no plane filled, 1 the shadow plane filled, 2 such a plane is live (width 2; 04 R94). -/
  planeOk : Nat := 2
  /-- an LO loop of the band lost lock in this beat (width 1; 06 R155). -/
  lostLock : Bool := false
  /-- withheld for loop.test (width 1; 06 R159). -/
  test : Bool := false
  /-- key of the cal.run command that started the procedure (width 32; 07 R189). -/
  cmd : Option Nat := none
  /-- fenced during bring-up (width 1; 17 R410). -/
  bootFenced : Bool := false
  /-- colour of the single-colour fault that fenced the band (width 2; 19 R463). -/
  colFault : Option Nat := none
  /-- current point of the procedure (width 12; 07 R175). -/
  point : Nat := 0
  /-- samples that calibration symbols have given both runs of the current point: one a symbol at 10 GBd, two at 5 GBd (width 24; 07 R171, R175). -/
  symbols : Nat := 0
  /-- ns time at which the point's weight codes were set (width 64; 07 R172). -/
  codesAt : Nat := 0
  /-- a sample of the point's runs clipped or was tainted, or a beat they span was out of limits (width 1; 07 R176). -/
  marred : Bool := false
  /-- times the LO phase point has moved its centre (width 2; 07 R175). -/
  moves : Nat := 0
  /-- phase-trim codes that each trim converter of the band has yet to write in free slots (width 13; 04 R95). -/
  trimLeft : Nat := 0
  /-- order in which the procedure's last point passed (width 32; 07 R180). -/
  doneAt : Nat := 0
  /-- quick gain of the light pause: 0 none, 1 running, 2 every point passed, 3 dropped (width 2; 07 R179). -/
  qg : Nat := 0
  /-- its headroom setting (width 2; 07 R179). -/
  qgPoint : Nat := 0
  /-- the same for that point (width 16; 07 R171, R179). -/
  qgSymbols : Nat := 0
  /-- failed tries of that point (width 2; 07 R175). -/
  qgRepeats : Nat := 0
  /-- its void runs (width 5; 07 R176). -/
  qgVoids : Nat := 0
  /-- as for a procedure (width 1; 07 R176). -/
  qgMarred : Bool := false
  /-- accepted values of the quick gain (width -; 07 R179, R180). -/
  qgPend : Tab Int := []
  deriving DecidableEq, Repr

/-- Calibration layers and schedules. -/
structure Cal where
  /-- factory values by CalKey; loaded at step 9; reset PRESUMED 9 nominal (width per R165; 07 R163). -/
  factory : Tab Int := []
  /-- user deltas by CalKey, all zero at reset (width per R165; 07 R164). -/
  user : Tab Int := []
  /-- REFV inside its window; DESIGN CHOICE 4 (width 1; 07 R169, 21 R504). -/
  refvOk : Bool := true
  /-- next band index b of each partition (width 3; 07 R184). -/
  cadNext : Tab Nat := []
  /-- beat of the last cadence tick of each partition (width 32; 07 R184). -/
  cadAt : Tab Nat := []
  /-- beat of the last deep run of each partition (width 32; 07 R184). -/
  deepAt : Tab Nat := []
  /-- bit p: partition p runs scheduled cadence (width 4; 07 R185, R190). -/
  scheduled : BitVec 4 := 0
  /-- cadence in force from the next beat edge (width 4; 07 R185). -/
  schedNext : BitVec 4 := 0
  /-- cal.user.clear takes effect in the next halt (width 1; 07 R167). -/
  clearPend : Bool := false
  /-- user delta that the phase-trim holds carry, by CalKey (width 12 per cell; 02 R43, R44, 07 R180). -/
  trims : Tab Int := []
  /-- procedures accepted so far (width 32; 07 R180). -/
  accepts : Nat := 0
  deriving DecidableEq, Repr

/-- One colour of one light port, key 4*port+colour. -/
structure LightCol where
  /-- LEVEL: 0 normal, 1 F1, 2 F2, 3 F3 (width 2; 03 R86). -/
  level : Nat := 0
  /-- COMPARATOR (width 1; 03 R86). -/
  comparator : Bool := false
  /-- FLOOR_LOSS (width 1; 03 R86). -/
  floor : Bool := false
  /-- POWER, 0.01 dBm (width 16; 03 R86). -/
  power : Int := 0
  /-- stored P0 (register reads 0 while none) (width 16; 03 R86, R71). -/
  p0 : Option Int := none
  /-- LO reference, 0.01 dBm (width 16; 03 R68). -/
  loRef : Int := 0
  /-- LO tap reading (bus tap for LX ports), 0.01 dBm (width 16; 03 R66). -/
  loTap : Int := 0
  /-- COMP, 0.005 dB (width 12; 03 R86, R72). -/
  comp : Int := 0
  /-- PRELOCK, 0.005 dB (width 12; 03 R86, R77). -/
  prelock : Int := 0
  /-- consecutive beats at least 0.3 dB short of the level's threshold (width 10; 03 R74). -/
  short : Nat := 0
  /-- consecutive beats within 1.0 dB of P0 (relay sources) (width 10; 03 R75). -/
  near : Nat := 0
  /-- largest d_src of those beats, 0.01 dB (width 16; 03 R74). -/
  maxD : Int := 0
  deriving DecidableEq, Repr

/-- One light port n = 0..9. -/
structure LightPort where
  /-- SOURCE: 0 own, 1 LX0, 2 LX1 (width 2; 03 R86). -/
  source : Nat := 0
  /-- TRACE_REFL (width 1; 03 R86). -/
  traceRefl : Bool := false
  /-- compensation frozen for a failed converter (width 1; 05 R136). -/
  frozen : Bool := false
  /-- switch progress: 0 none, 1 requested, 2 moving, 3 settled, 4 quick gain done, 5 its gains in force (width 3; 03 R79). -/
  sw : Nat := 0
  /-- source being switched to (width 2; 03 R79). -/
  swTo : Nat := 0
  /-- source before the switch (width 2; 03 R79). -/
  swFrom : Nat := 0
  /-- light command that asked for the switch (width 32; 03 R85). -/
  swCmd : Option Nat := none
  /-- the port's level at the last beat edge (width 2; 03 R78). -/
  lastLevel : Nat := 0
  /-- beat in which the selector settled (width 32; 03 R79). -/
  settledAt : Nat := 0
  deriving DecidableEq, Repr

/-- One relay source, 0 LX0, 1 LX1. -/
structure Relay where
  /-- X_PORT (register 0xF while none) (width 4; 03 R86). -/
  port : Option Nat := none
  /-- X_STATE: 0 idle, 1 warming, 2 warmed, 3 serving (width 2; 03 R86). -/
  state : Nat := 0
  /-- unavailable after a trip (width 1; 03 R75). -/
  tripped : Bool := false
  /-- a converter of the relay's taps is failed (width 1; 05 R136). -/
  failed : Bool := false
  /-- light.relay.assign command waiting for pre-lock (width 32; 03 R85). -/
  cmd : Option Nat := none
  deriving DecidableEq, Repr

/-- Light supply state. -/
structure Light where
  /-- PAUSE (width 1; 03 R86). -/
  pause : Bool := false
  /-- a pause is requested for the next beat edge (width 1; 03 R79). -/
  pauseReq : Bool := false
  /-- PAUSE_COUNT (width 16; 03 R86). -/
  pauseCount : Nat := 0
  /-- beat of the pause's start (width 32; 03 R79). -/
  pauseAt : Nat := 0
  /-- colours disabled device-wide (width 4; 02 R47). -/
  disabled : BitVec 4 := 0
  /-- single-colour faults: colour, field, beat (width -; 19 R463). -/
  colFaults : List (Nat × Nat × Nat) := []
  /-- ports that reached F1 in this beat and wait for a relay (width 8; 03 R77, R78). -/
  f1Pend : BitVec 8 := 0
  deriving DecidableEq, Repr

/-- One monitor converter k = 0..63. -/
structure Mon where
  /-- ENABLE (staged) (width 1; 05 R137). -/
  enable : Bool := false
  /-- RATE (staged) (width 1; 05 R137). -/
  fine : Bool := false
  /-- LOWPWR (staged) (width 1; 05 R137). -/
  lowpwr : Bool := false
  /-- RING_EN (width 1; 05 R137). -/
  ringEn : Bool := false
  /-- SEQ_LEN (staged) (width 5; 05 R137). -/
  seqLen : Nat := 0
  /-- INJ_LEN (staged) (width 2; 05 R137). -/
  injLen : Nat := 0
  /-- INJ0..INJ3 (staged) (width 20; 05 R137). -/
  inj : BitVec 20 := 0
  /-- TRIG_LIGHT, TRIG_TEMP, TRIG_HOST (staged) (width 3; 05 R137). -/
  trig : BitVec 3 := 0
  /-- MON_SEQ slot bytes (staged) (width 32 x 8; 05 R137). -/
  seq : Tab (BitVec 8) := []
  /-- ENABLE in force (ACTIVE) (width 1; 05 R126). -/
  aEnable : Bool := false
  /-- RATE in force (width 1; 05 R126). -/
  aFine : Bool := false
  /-- LOWPWR in force (width 1; 05 R126). -/
  aLowpwr : Bool := false
  /-- SEQ_LEN in force (width 5; 05 R126). -/
  aSeqLen : Nat := 0
  /-- INJ_LEN in force (width 2; 05 R126). -/
  aInjLen : Nat := 0
  /-- injected inputs in force (width 20; 05 R126). -/
  aInj : BitVec 20 := 0
  /-- triggers in force (width 3; 05 R126). -/
  aTrig : BitVec 3 := 0
  /-- sequence in force (width 32 x 8; 05 R126). -/
  aSeq : Tab (BitVec 8) := []
  /-- COMMIT_PENDING (width 1; 05 R137). -/
  commitPend : Bool := false
  /-- first beat of the fine-rate or low-power window that may deliver (width 32; 05 R126). -/
  winFrom : Nat := 0
  /-- slots that missed a frame of their window (width 32 x 5; 05 R128). -/
  winMiss : List Nat := []
  /-- INJ_RUNNING (width 1; 05 R137). -/
  injRun : Bool := false
  /-- next injected slot (width 2; 05 R127). -/
  injSlot : Nat := 0
  /-- INJ_PENDING (width 1; 05 R137). -/
  injPend : Bool := false
  /-- the regular sequence runs in this frame (width 1; 05 R128). -/
  resume : Bool := true
  /-- next regular slot of the frame (width 5; 05 R123). -/
  nextSlot : Nat := 0
  /-- the running sequence is a self-test (width 1; 05 R135). -/
  selfTest : Bool := false
  /-- every result of the running self-test so far meets its criterion (width 1; 05 R135). -/
  selfPass : Bool := false
  /-- monitor.selftest command that waits for the self-test (width 32; 05 R135). -/
  selfCmd : Option Nat := none
  /-- self-test runs so far (parity of the test voltage) (width 32; 05 R135). -/
  selfRuns : Nat := 0
  /-- consecutive failed self-tests (width 2; 05 R136). -/
  selfFails : Nat := 0
  /-- FAILED (width 1; 05 R137). -/
  failed : Bool := false
  /-- SKIP_COUNT (width 16; 05 R137). -/
  skip : Nat := 0
  /-- beat in which the running injected slot started (width 32; 05 R132). -/
  injBeat : Nat := 0
  deriving DecidableEq, Repr

/-- Latest result of one monitor input, key 32*k+i. -/
structure MonLast where
  /-- RESULT (width 24; 05 R137). -/
  result : BitVec 24 := 0
  /-- VALID (width 1; 05 R137). -/
  valid : Bool := false
  /-- OVER (width 1; 05 R137). -/
  ovr : Bool := false
  /-- INJ (width 1; 05 R137). -/
  inj : Bool := false
  /-- the latest two samples, newest first: beat, result (width 2 x 56; 05 R130). -/
  samples : List (Nat × BitVec 24) := []
  /-- beat and value of the latest result at 10 uA, of a diode or EXT_T input (width 56; 05 R123, 18 R439). -/
  low : Option (Nat × BitVec 24) := none
  /-- beat and value of the latest result at 100 uA (width 56; 05 R123, 18 R439). -/
  high : Option (Nat × BitVec 24) := none
  deriving DecidableEq, Repr

/-- The monitor ring. -/
structure MonRing where
  /-- RING_ON (width 1; 05 R137). -/
  on : Bool := false
  /-- SIZE_LOG2 (width 5; 05 R137). -/
  sizeLog2 : Nat := 10
  /-- BASE, byte offset / 64 (width 18; 05 R137). -/
  base : Nat := 0
  /-- WR_INDEX (width 32; 05 R137). -/
  wr : BitVec 32 := 0
  /-- RD_INDEX (width 32; 05 R137). -/
  rd : BitVec 32 := 0
  /-- OVF (width 1; 05 R137). -/
  ovf : Bool := false
  /-- CFG_ERR (width 1; 05 R137). -/
  cfgErr : Bool := false
  /-- DROP_COUNT (width 16; 05 R137). -/
  drop : Nat := 0
  deriving DecidableEq, Repr

/-- One loop slot s = 0..8191 (KIND and SP_SRC resets depend on s, R162). -/
structure LoopSlot where
  /-- KIND of a free slot (fixed slots: R140) (width 4; 06 R162). -/
  kind : Nat := 0
  /-- SP_SRC (2 for thermal slots) (width 2; 06 R162). -/
  spSrc : Nat := 0
  /-- D_EN (width 1; 06 R162). -/
  dEn : Bool := false
  /-- FREEZE (width 1; 06 R162). -/
  freeze : Bool := false
  /-- BUMPLESS (width 1; 06 R162). -/
  bumpless : Bool := false
  /-- SP (width 16; 06 R162). -/
  sp : BitVec 16 := 0
  /-- CASCADE (width 13; 06 R162). -/
  cascade : Nat := 0
  /-- KP (width 20; 06 R162). -/
  kp : BitVec 20 := 0
  /-- KI (width 20; 06 R162). -/
  ki : BitVec 20 := 0
  /-- KD (width 20; 06 R162). -/
  kd : BitVec 20 := 0
  /-- OUT_MIN (width 16; 06 R162). -/
  outMin : BitVec 16 := 0
  /-- OUT_MAX (width 16; 06 R162). -/
  outMax : BitVec 16 := 0
  /-- D_ALPHA (width 16; 06 R162). -/
  dAlpha : BitVec 16 := 0
  /-- SLEW (width 16; 06 R162). -/
  slew : BitVec 16 := 0
  /-- OUT, Q15 (width 16; 06 R162). -/
  out : Int := 0
  /-- SAT (width 1; 06 R162). -/
  sat : Bool := false
  /-- MISS (width 1; 06 R162). -/
  miss : Bool := false
  /-- INPUT_FAIL (width 1; 06 R162). -/
  inputFail : Bool := false
  /-- HELD (width 1; 06 R162). -/
  held : Bool := false
  /-- FROZEN (width 1; 06 R162). -/
  frozen : Bool := false
  /-- LOCK (width 1; 06 R162). -/
  lock : Bool := false
  /-- integral i, Q30; DESIGN CHOICE 4 (width 40; 06 R142). -/
  integ : Int := 0
  /-- D filter, Q15; DESIGN CHOICE 4 (width 40; 06 R142). -/
  df : Int := 0
  /-- e_prev; DESIGN CHOICE 4 (width 16; 06 R142). -/
  ePrev : Int := 0
  /-- consecutive computations within the settling criterion (width 5; 06 R141, R155). -/
  okRun : Nat := 0
  /-- consecutive computations at SAT or INPUT_FAIL (width 10; 19 R458). -/
  badRun : Nat := 0
  /-- consecutive computations with heater output 0 (width 7; 06 R152). -/
  zeroRun : Nat := 0
  /-- beat of the freeze (width 32; 06 R148). -/
  frozenAt : Nat := 0
  /-- the next computation presets the integral bumplessly (width 1; 06 R147, R174). -/
  preset : Bool := false
  /-- beat of the previous computation (n_beats) (width 32; 06 R142). -/
  lastBeat : Option Nat := none
  /-- thermal set point now in force, 1/25 of a Q15 step (0.020 degC is 64) (width 16; 06 R152). -/
  target : Int := 0
  /-- zone temperatures of the last 64 computations, newest first (width 64 x 16; 06 R156). -/
  temps : List Int := []
  /-- THERMAL_HEADROOM posted for the present run (width 1; 06 R152). -/
  headNoted : Bool := false
  /-- thermal slots: the zone's ΔT latched in the last halt, Q15 (width 16; 06 R153). -/
  feedFwd : Int := 0
  /-- beat in which the slot last ran (width 32; 06 R138). -/
  slotBeat : Option Nat := none
  deriving DecidableEq, Repr

/-- Loop engine, coolant, test and capture. -/
structure LoopEng where
  /-- RUN (width 1; 06 R162). -/
  run : Bool := false
  /-- TEST_ACTIVE (width 1; 06 R162). -/
  testActive : Bool := false
  /-- CAP_DONE (width 1; 06 R162). -/
  capDone : Bool := false
  /-- LP_COOL SRC (width 2; 06 R162). -/
  src : Nat := 0
  /-- OFFSET (width 6; 06 R162). -/
  offset : Nat := 40
  /-- OFFSET in force (width 6; 01 R26, 06 R152). -/
  offNow : Nat := 40
  /-- BAD (width 1; 06 R162). -/
  bad : Bool := false
  /-- PWM_LOST (width 1; 06 R162). -/
  pwmLost : Bool := false
  /-- COOL_T, 1/256 degC (width 16; 06 R162). -/
  coolT : Int := 0
  /-- COOLREF filter, 1/65536 degC; DESIGN CHOICE 4 (width 26; 06 R150). -/
  coolF : Int := 0
  /-- COOL_SET (width 16; 06 R162). -/
  coolSet : BitVec 16 := 0x1900
  /-- readings in range since the last bad one (width 64 x 16; 06 R150). -/
  goodRun : List Int := []
  /-- NSLOT (width 2; 06 R162). -/
  nslot : Nat := 0
  /-- SLOT_A of LP_CAP_SEL_0 (width 13; 06 R162). -/
  sel0 : Nat := 0
  /-- SLOT_B of LP_CAP_SEL_0 (width 13; 06 R162). -/
  sel1 : Nat := 0
  /-- SLOT_A of LP_CAP_SEL_1 (width 13; 06 R162). -/
  sel2 : Nat := 0
  /-- SLOT_B of LP_CAP_SEL_1 (width 13; 06 R162). -/
  sel3 : Nat := 0
  /-- COUNT (width 17; 06 R162). -/
  count : Nat := 0
  /-- SIGNAL (width 2; 06 R162). -/
  signal : Nat := 0
  /-- POINT (width 1; 06 R162). -/
  point : Bool := false
  /-- PRBS_HOLD (width 8; 06 R162). -/
  prbsHold : Nat := 0
  /-- AMPL (width 16; 06 R162). -/
  ampl : BitVec 16 := 0
  /-- SINE_N (width 16; 06 R162). -/
  sineN : Nat := 3
  /-- capture buffer; DESIGN CHOICE 4 (width 65536 x 64; 06 R161). -/
  cap : Tab (BitVec 64) := []
  /-- computations of each selected slot since the start (width 32; 06 R160). -/
  testN : Tab Nat := []
  /-- test starts at the next beat edge (width 1; 06 R159). -/
  startPend : Bool := false
  /-- test ends at the next beat edge (width 1; 06 R161). -/
  stopPend : Bool := false
  /-- capture runs (width 1; 06 R161). -/
  capturing : Bool := false
  /-- test ended, tested loops still settling (width 1; 06 R159). -/
  settling : Bool := false
  /-- loop.test command waiting for its start edge (width 32; 06 R159). -/
  testCmd : Option Nat := none
  /-- beat of the last COOLREF reading taken (width 32; 06 R150). -/
  coolAt : Option Nat := none
  deriving DecidableEq, Repr

/-- One queued exec.submit. -/
structure Submission where
  /-- submission number on the stream (width 32; 10 R233). -/
  id : Nat := 0
  /-- first descriptor (width 48; 10 R233). -/
  addr : Nat := 0
  /-- descriptors (width 17; 10 R233). -/
  count : Nat := 0
  /-- completion base (width 48; 10 R233). -/
  cplBase : Nat := 0
  /-- next descriptor to issue (width 17; 10 R234). -/
  next : Nat := 0
  /-- descriptors retired (width 17; 10 R233). -/
  retired : Nat := 0
  /-- submitting mailbox (width 7; 10 R236). -/
  mb : Nat := 0
  /-- descriptors aborted before their issue (width 16 x 65536; 10 R264). -/
  skip : List Nat := []
  deriving DecidableEq, Repr

/-- One op stream. -/
structure Stream where
  /-- PRIORITY (width 2; 10 R265). -/
  prio : Nat := 2
  /-- submissions not fully retired, oldest first (width 256; 10 R233). -/
  subs : List Submission := []
  /-- exec.abort commands waiting for their last retire (ABORTING) (width 1; 10 R265). -/
  aborting : List Nat := []
  /-- RETIRED (width 32; 10 R265). -/
  retired : BitVec 32 := 0
  /-- submissions accepted since device reset (width 32; 16 R404). -/
  subCount : Nat := 0
  /-- tags of the last 4,096 ops retired, newest first (width 4096 x 16; 16 R404). -/
  tags : List Nat := []
  deriving DecidableEq, Repr

/-- One dependency token, key 4096*partition+token. -/
structure Token where
  /-- count; DESIGN CHOICE 4 (width 16; 10 R241). -/
  count : BitVec 16 := 0
  /-- sticky ABORT; DESIGN CHOICE 4 (width 1; 10 R241). -/
  abort : Bool := false
  deriving DecidableEq, Repr

/-- One row map. -/
structure RowMap where
  /-- owning partition (width 2; 10 R252). -/
  part : Nat := 0
  /-- FIRST_ROW (width 11; 10 R240). -/
  firstRow : Nat := 0
  /-- ROWS (width 12; 10 R240). -/
  rows : Nat := 0
  /-- COLOUR (width 2; 10 R240). -/
  colour : Nat := 0
  /-- HEADROOM (width 2; 10 R240). -/
  headroom : Nat := 0
  /-- SHAPE (width 3; 10 R240). -/
  shape : Nat := 0
  /-- SHAPE_RUN (width 3; 10 R240). -/
  shapeRun : Nat := 0
  /-- WSRC (width 2; 10 R240). -/
  wsrc : Nat := 0
  /-- M (width 16; 10 R240). -/
  m : Nat := 0
  /-- MCOUNT (width 16; 10 R240). -/
  mcount : Nat := 0
  /-- N (width 32; 10 R240). -/
  n : Nat := 0
  /-- N0 (width 32; 10 R240). -/
  n0 : Nat := 0
  /-- WHANDLE (width 32; 10 R240). -/
  whandle : Nat := 0
  /-- EPOCH (width 32; 10 R240). -/
  epoch : Nat := 0
  /-- Q (width 16; 10 R240). -/
  q : Nat := 0
  /-- R (width 16; 10 R240). -/
  r : Nat := 0
  /-- C_STEP (width 16; 10 R240). -/
  cStep : Nat := 0
  /-- ROOT_MASK (width 32; 10 R240). -/
  rootMask : BitVec 32 := 0
  /-- SCALE_PTR (width 48; 10 R240). -/
  scalePtr : Nat := 0
  /-- held s_w values (width 65536 x 32; 10 R240, 11 R280). -/
  scales : List (BitVec 32) := []
  /-- GROUP_BANDS (width 32 x 8; 10 R240). -/
  bands : List (BitVec 8) := []
  /-- colour of mode C1 when the map was made (width 2; 10 R251, 02 R47). -/
  c1col : Nat := 0
  /-- the colour set in use was the substitute pair (width 1; 10 R251, 02 R47). -/
  c2sub : Bool := false
  /-- colour mode that ran (COLOUR encoding): C2 for a C4 op admitted while C4 is unavailable (width 2; 10 R254, 02 R47). -/
  mode : Nat := 0
  /-- columns of the stored tensor (beyond it the scale is 1.0) (width 32; 10 R239). -/
  tensorN : Nat := 0
  /-- a held scale is a zero-range one (width 1; 08 R202). -/
  zeroCol : Bool := false
  deriving DecidableEq, Repr

/-- What an op captured of one manifest entry at admission. -/
structure Capt where
  /-- entry index (width 16; 10 R234). -/
  entry : Nat := 0
  /-- KPTR (width 48; 10 R234). -/
  kptr : Nat := 0
  /-- VPTR (width 48; 10 R234). -/
  vptr : Nat := 0
  /-- KV_STRIDE (width 32; 10 R234). -/
  stride : Nat := 0
  /-- LENGTH (width 32; 10 R234). -/
  len : Nat := 0
  /-- EPOCH (width 32; 10 R234). -/
  epoch : Nat := 0
  deriving DecidableEq, Repr

/-- Where one shape group of a running field.gemm stands (R252, R254, R259). -/
structure GPos where
  /-- member 0 of the group (width 5; 10 R259). -/
  root : Nat := 0
  /-- request of a manifest operand (width 13; 10 R255). -/
  req : Nat := 0
  /-- column step (width 16; 10 R259). -/
  colStep : Nat := 0
  /-- K step (width 16; 10 R259). -/
  kStep : Nat := 0
  /-- next row offset of colour positions 0 and 2 (width 12; 10 R259, R254). -/
  rowA : Nat := 0
  /-- next row offset of colour positions 1 and 3 (width 12; 10 R259, R254). -/
  rowB : Nat := 0
  /-- the live plane holds the current tile (width 1; 10 R259). -/
  live : Bool := false
  /-- a slice runs now (width 1; 01 R19). -/
  on : Bool := false
  /-- row offsets planned for this slice (width 16; 01 R21). -/
  planned : Nat := 0
  /-- row offsets sent in this slice (width 16; 01 R21). -/
  sent : Nat := 0
  /-- the group's last row offset is sent (width 1; 10 R256). -/
  done : Bool := false
  /-- beat of the group's last slice (width 32; 03 R76, 06 R157). -/
  beat : Option Nat := none
  /-- colours that slice used (width 4; 03 R76). -/
  cols : BitVec 4 := 0
  /-- beat of the slice before (width 32; 03 R76, 06 R157). -/
  beatPrev : Option Nat := none
  /-- colours that slice used (width 4; 03 R76). -/
  colsPrev : BitVec 4 := 0
  deriving DecidableEq, Repr

/-- One issued, unretired op. -/
structure Op where
  /-- op key of the model (log 11) (width 32; 10 R234). -/
  key : Nat := 0
  /-- STREAM (width 6; 10 R261). -/
  stream : Nat := 0
  /-- submission number (width 32; 10 R233). -/
  sub : Nat := 0
  /-- INDEX (width 16; 10 R261). -/
  index : Nat := 0
  /-- submitting mailbox (width 7; 10 R236). -/
  mb : Nat := 0
  /-- completion address (width 48; 10 R233). -/
  cpl : Nat := 0
  /-- descriptor bytes (width 64 x 8; 10 R236). -/
  desc : List (BitVec 8) := []
  /-- 0 issue stalled, 1 issued, 2 admitted, 3 work done, 4 waiting for the tree fence (width 3; 10 R234). -/
  stage : Nat := 0
  /-- REASON (width 8; 10 R262). -/
  reason : Nat := 0
  /-- DETAIL (width 16; 10 R261). -/
  detail : Nat := 0
  /-- FLAGS (width 11; 10 R261). -/
  flags : BitVec 11 := 0
  /-- beat of admission (BEATS) (width 32; 10 R261). -/
  admBeat : Option Nat := none
  /-- beat edge after which the abort retires the op (width 32; 10 R264). -/
  abortAt : Option Nat := none
  /-- directory index held (HOLDERS) (width 14; 13 R322). -/
  holds : Option Nat := none
  /-- the hold moved to PREV_HOLDERS (width 1; 13 R323). -/
  holdsPrev : Bool := false
  /-- captured PTR (or HOT_STAGE) (width 48; 13 R322). -/
  ptr : Nat := 0
  /-- captured SCALE_PTR (width 48; 13 R322). -/
  scalePtr : Nat := 0
  /-- captured EPOCH (width 32; 13 R322). -/
  epoch : Nat := 0
  /-- captured ZERO_COL (width 1; 13 R322). -/
  zeroCol : Bool := false
  /-- tensor K captured (width 32; 13 R321). -/
  tk : Nat := 0
  /-- tensor N captured (width 32; 13 R321). -/
  tn : Nat := 0
  /-- waits for a spill copy (width 1; 13 R333). -/
  copying : Bool := false
  /-- captured PTR of a spilled tensor, source of its copy (width 48; 13 R333). -/
  spillSrc : Nat := 0
  /-- manifest captures (width 8192; 10 R234). -/
  entries : List Capt := []
  /-- entries whose INFLIGHT counts this op (width 8192 x 16; 10 R249). -/
  named : List Nat := []
  /-- shape run (width 3; 10 R252). -/
  shapeRun : Nat := 0
  /-- row map of the op's rows (width -; 10 R252). -/
  map : Option RowMap := none
  /-- where each shape group of a field.gemm stands (width 32; 10 R259, 01 R19). -/
  pos : List GPos := []
  /-- beat of the op's last slice (width 32; 10 R260). -/
  sliceBeat : Option Nat := none
  /-- beat of the slice before that one (width 32; 10 R260, 03 R76). -/
  slicePrev : Option Nat := none
  /-- first beat in which that slice's conditions are evaluated (width 32; 10 R260). -/
  evalBeat : Nat := 0
  /-- row maps fixed at admission (drain, save) (width 64; 11 R282). -/
  maps : List RowMap := []
  /-- root field, cluster field, cluster (width 32; 11 R282). -/
  clusters : List (Nat × Nat × Nat) := []
  /-- entries a toll gate holds (width 8192 x 16; 13 R326). -/
  held : List Nat := []
  /-- OPREFs of packets not yet acknowledged (width 32; 15 R362). -/
  acks : List Nat := []
  /-- bytes of a remote move not yet accepted by a port (width 32; 15 R361). -/
  toSend : Nat := 0
  /-- the move goes to another device (width 1; 15 R361). -/
  remote : Bool := false
  /-- cores of the launch still running (width 2048; 11 R274). -/
  cores : List Nat := []
  /-- what the quant.scale will push: m(t), scale, SAT, ZERO_RANGE, SEEDED, FILL was 0 (width -; 08 R197). -/
  push : List Nat := []
  /-- exec.abort commands that wait for the op's retire (width -; 10 R264). -/
  abortCmds : List Nat := []
  deriving DecidableEq, Repr

/-- A range of whole words that an op has written and no DEVICE or SYSTEM fence has shown to the host: what the host still reads there. -/
structure Hidden where
  /-- stream of the op (width 6; 10 R245). -/
  stream : Nat := 0
  /-- device address, a multiple of 8 (width 48; 10 R245). -/
  addr : Nat := 0
  /-- bytes before the write, to a multiple of 8 (width -; 10 R245). -/
  data : List (BitVec 8) := []
  /-- words that read as poisoned before the write (width -; 10 R245). -/
  bad : List Nat := []
  deriving DecidableEq, Repr

/-- Sequencer top level. -/
structure Seq where
  /-- next op key (log 11) (width 32; 10 R234). -/
  nextKey : Nat := 1
  /-- stream last served per priority (width 6; 10 R235). -/
  rrLast : Tab Nat := []
  /-- pass count of accumulator row, key 2048*field+row (width 16; 09 R224). -/
  passes : Tab Nat := []
  /-- OPREF, stream, TAG, destination of unacknowledged packets (width -; 10 R244, 15 R362). -/
  remoteUnacked : List (Nat × Nat × Nat × Nat) := []
  /-- next OPREF (width 16; 15 R361). -/
  opRef : Nat := 0
  /-- ranges that ops have written and no fence has shown to the host, oldest first (width -; 10 R245). -/
  hidden : List Hidden := []
  deriving DecidableEq, Repr

/-- One manifest entry (steward SRAM, R248). -/
structure Manifest where
  /-- REQ_ID (width 64; 10 R248). -/
  reqId : BitVec 64 := 0
  /-- STATE (width 2; 10 R248). -/
  state : Nat := 0
  /-- VALID; DESIGN CHOICE 4 (width 1; 10 R248). -/
  valid : Bool := false
  /-- CARRIED (width 1; 10 R248). -/
  carried : Bool := false
  /-- INFLIGHT (width 16; 10 R248). -/
  inflight : Nat := 0
  /-- EPOCH (width 32; 10 R248). -/
  epoch : Nat := 0
  /-- EPOCH_PREV (width 32; 10 R248). -/
  epochPrev : Nat := 0
  /-- SWITCH_LEN (width 32; 10 R248). -/
  switchLen : Nat := 0
  /-- KPTR (width 48; 10 R248). -/
  kptr : Nat := 0
  /-- VPTR (width 48; 10 R248). -/
  vptr : Nat := 0
  /-- KV_STRIDE (width 32; 10 R248). -/
  stride : Nat := 0
  /-- LENGTH (width 32; 10 R248). -/
  length : Nat := 0
  /-- LIMIT (width 32; 10 R248). -/
  limit : Nat := 0
  /-- USER (width 64; 10 R248). -/
  user : BitVec 64 := 0
  /-- highest ORDER passed in the current token (width 16; 13 R327). -/
  gateOrder : Option Nat := none
  /-- admitted unretired MADV ops naming the entry (width 16; 10 R250). -/
  madvPend : Nat := 0
  deriving DecidableEq, Repr

/-- One descriptor of a core's DMA channel. -/
structure DmaDesc where
  /-- source address (width 48; 11 R271). -/
  src : Nat := 0
  /-- destination address (width 48; 11 R271). -/
  dst : Nat := 0
  /-- bytes of a row (width 32; 11 R271). -/
  len : Nat := 0
  /-- rows (width 16; 11 R271). -/
  rows : Nat := 0
  /-- source stride (width 32; 11 R271). -/
  sstr : Nat := 0
  /-- destination stride (width 32; 11 R271). -/
  dstr : Nat := 0
  deriving DecidableEq, Repr

/-- One vector core, key 64*field+core. -/
structure Core where
  /-- STATE: 0 idle, 1 kernel, 2 drain, 3 fenced (width 2; 11 R285). -/
  state : Nat := 0
  /-- TRAPPED (width 1; 11 R285). -/
  trapped : Bool := false
  /-- CAUSE (width 4; 11 R285). -/
  cause : Nat := 0
  /-- POISON (vpoison bit 0) (width 1; 11 R285). -/
  poison : Bool := false
  /-- vpoison bit 1 (width 1; 11 R269). -/
  poisonNext : Bool := false
  /-- checked package: address and CODE_CRC (RESIDENT) (width -; 11 R285, R274). -/
  resident : Option (Nat × BitVec 32) := none
  /-- the convoyed image is verified (healthy) (width 1; 17 R421). -/
  verified : Bool := false
  /-- fenced during bring-up (width 1; 17 R410). -/
  bootFenced : Bool := false
  /-- op of the running launch (width 32; 11 R274). -/
  launch : Option Nat := none
  /-- rank (width 11; 11 R275). -/
  rank : Nat := 0
  /-- beat of the kernel's start (width 32; 11 R276). -/
  started : Nat := 0
  /-- vbarrier writes so far (width 32; 11 R277). -/
  barrier : Nat := 0
  /-- stalled at vbarrier (width 1; 11 R277). -/
  stalled : Bool := false
  /-- package FLAGS bit 0 (width 1; 11 R277). -/
  usesBarrier : Bool := false
  /-- where the kernel was entered: ENTRY_OFF within the kernel code region; DESIGN CHOICE 4 (width 64; 11 R272, R275). -/
  pc : Nat := 0
  /-- integer registers x1 to x31 as the kernel was entered, key the register's number, unlisted 0; DESIGN CHOICE 4 (width 31x64; 11 R275). -/
  xregs : Tab Nat := []
  /-- floating-point registers at kernel entry, unlisted 0; DESIGN CHOICE 4 (width 32x64; 11 R267, R275). -/
  fregs : Tab Nat := []
  /-- vector registers at kernel entry, unlisted 0; DESIGN CHOICE 4 (width 32x512; 11 R267, R275). -/
  vregs : Tab Nat := []
  /-- rounding mode at kernel entry, 0 round to nearest even; DESIGN CHOICE 4 (width 3; 11 R275). -/
  frm : Nat := 0
  /-- floating-point flags at kernel entry; DESIGN CHOICE 4 (width 5; 11 R275). -/
  fflags : Nat := 0
  /-- vtype.vill, set at kernel entry; DESIGN CHOICE 4 (width 1; 11 R275). -/
  vill : Bool := false
  /-- vector length at kernel entry; DESIGN CHOICE 4 (width -; 11 R275). -/
  vl : Nat := 0
  /-- convoy chunks received: the receipt bitmap, and the digest d_i of each (width 512 x 384; 17 R419). -/
  chunks : Tab (List (BitVec 8)) := []
  /-- descriptors completed per channel (status done) (width 4; 11 R271). -/
  dma : Tab (List DmaDesc) := []
  /-- stream of the op whose launch it runs, or ran last (width 6; 10 R245). -/
  stream : Nat := 0
  /-- channels that may still have a descriptor in progress after the end of a launch (width 4; 11 R276, R278). -/
  dmaLeft : BitVec 4 := 0
  deriving DecidableEq, Repr

/-- One memory unit, 0..11 HBM stacks, 16..27 DDR channels. -/
structure MemUnit where
  /-- STATE (width 2; 12 R311). -/
  state : Nat := 0
  /-- PRESENT (width 1; 12 R311). -/
  present : Bool := false
  /-- SPEED (width 2; 12 R311). -/
  speed : Nat := 0
  /-- CAPACITY (width 9; 12 R311). -/
  capacity : Nat := 0
  /-- RETRAIN_QUEUED (width 1; 12 R311). -/
  queued : Bool := false
  /-- CE_COUNT (width 32; 12 R311). -/
  ce : BitVec 32 := 0
  /-- UE_COUNT (width 32; 12 R311). -/
  ue : BitVec 32 := 0
  /-- SCRUB_POS (width 32; 12 R311). -/
  scrubPos : BitVec 32 := 0
  /-- beats of correctable words in the last 1 s (width -; 12 R304). -/
  ceWin : List Nat := []
  /-- beats of uncorrectable words in the last 1 s (width -; 12 R293, 19 R458). -/
  ueWin : List Nat := []
  /-- beats of MEM_UE events in the last 1 s (width -; 12 R293). -/
  uePosts : List Nat := []
  /-- the controller holds requests for a contained fault or a graceful disable (width 1; 19 R457, R465). -/
  hold : Bool := false
  /-- being written as zero (width 1; 12 R301). -/
  zeroing : Bool := false
  /-- fenced during bring-up (width 1; 17 R410). -/
  bootFenced : Bool := false
  /-- its interleave place was given up (width 1; 12 R297, 19 R467). -/
  gaveUp : Bool := false
  /-- temperature at the last training, 1/128 degC (width 16; 12 R305). -/
  trainTemp : Option Int := none
  /-- doubled refresh rate (width 1; 18 R443). -/
  fastRef : Bool := false
  /-- in self-refresh (width 1; 18 R433, R434). -/
  selfRef : Bool := false
  deriving DecidableEq, Repr

/-- One region table entry. -/
structure Region where
  /-- entry in use; DESIGN CHOICE 4 (width 1; 12 R309). -/
  set : Bool := false
  /-- KIND (width 3; 12 R309). -/
  kind : Nat := 0
  /-- OPS_RO (width 1; 12 R309). -/
  opsRo : Bool := false
  /-- partition (width 2; 12 R309). -/
  part : Nat := 0
  /-- BASE (width 48; 12 R309). -/
  base : Nat := 0
  /-- LENGTH (width 48; 12 R309). -/
  len : Nat := 0
  deriving DecidableEq, Repr

/-- Memory control. -/
structure MemTop where
  /-- SCRUB_HOURS (width 8; 12 R311). -/
  scrubHours : Nat := 24
  /-- SCRUB_EN (width 1; 12 R311). -/
  scrubEn : Bool := true
  /-- CE_RATE_LIMIT (width 16; 12 R311). -/
  ceRateLimit : Nat := 64
  /-- channels of the interleave (DDR_CHANNELS is their number) (width 4; 12 R311). -/
  ddrC : List Nat := []
  /-- DDR_D (width 9; 12 R311). -/
  ddrD : Nat := 0
  /-- unit retraining (UNIT 31 while none) (width 5; 12 R311). -/
  retrain : Option Nat := none
  /-- units waiting (QUEUED) (width 5; 12 R305). -/
  queue : List Nat := []
  /-- beat the retraining started (ELAPSED) (width 32; 12 R311). -/
  retrainAt : Nat := 0
  /-- MEM_LAST_UE (width 48; 12 R311). -/
  lastUe : Nat := 0
  /-- stacks of each partition's interleave (width -; 12 R297). -/
  windows : Tab (List Nat) := []
  /-- held host requests: unit, write?, address, data (width -; 12 R306). -/
  heldReqs : List (Nat × Bool × Nat × List (BitVec 8)) := []
  /-- bytes of the last host CXL.mem read response (the model's record of an output, log 3) (width -; 12 R290). -/
  cxlData : List (BitVec 8) := []
  /-- poison mark of each word of that response (width -; 12 R292). -/
  cxlPoison : List Bool := []
  /-- CXL.mem decoders committed (HBM, DDR, SRAM) (width 3; 17 R413, 12 R287). -/
  decoders : BitVec 3 := 0
  /-- decoder bases (width 64; 12 R287). -/
  decBase : Tab Nat := []
  deriving DecidableEq, Repr

/-- One weight-directory entry. -/
structure Dir where
  /-- PTR (width 48; 13 R321). -/
  ptr : Nat := 0
  /-- GEN; DESIGN CHOICE 4 (width 16; 13 R321). -/
  gen : Nat := 0
  /-- SCALE_PTR (width 48; 13 R321). -/
  scalePtr : Nat := 0
  /-- SWAP (width 2; 13 R321). -/
  swap : Nat := 0
  /-- VALID (width 1; 13 R321). -/
  valid : Bool := false
  /-- ZERO_COL (width 1; 13 R321). -/
  zeroCol : Bool := false
  /-- SPILLED (width 1; 13 R321). -/
  spilled : Bool := false
  /-- DAMAGED (width 1; 13 R321). -/
  damaged : Bool := false
  /-- PARTITION (width 2; 13 R321). -/
  part : Nat := 0
  /-- NEXT_ZERO_COL (width 1; 13 R321). -/
  nextZeroCol : Bool := false
  /-- EPOCH (width 32; 13 R321). -/
  epoch : Nat := 0
  /-- K (width 32; 13 R321). -/
  k : Nat := 0
  /-- N (width 32; 13 R321). -/
  n : Nat := 0
  /-- ORDER (width 16; 13 R321). -/
  order : Nat := 0
  /-- HOLDERS (width 16; 13 R321). -/
  holders : Nat := 0
  /-- PREV_HOLDERS (width 16; 13 R321). -/
  prevHolders : Nat := 0
  /-- NEXT_PTR (width 48; 13 R321). -/
  nextPtr : Nat := 0
  /-- NEXT_SCALE_PTR (width 48; 13 R321). -/
  nextScalePtr : Nat := 0
  /-- NEXT_EPOCH (width 32; 13 R321). -/
  nextEpoch : Nat := 0
  /-- HOT_STAGE (width 48; 13 R321). -/
  hotStage : Nat := 0
  deriving DecidableEq, Repr

/-- One load context, key 4*partition+i. -/
structure LoadCtx where
  /-- open (width 1; 13 R314). -/
  open_ : Bool := false
  /-- failed (width 1; 13 R316). -/
  failed : Bool := false
  /-- HANDLE (width 32; 13 R314). -/
  handle : Nat := 0
  /-- TARGET (width 1; 13 R314). -/
  target : Nat := 0
  /-- SFMT (width 2; 13 R314). -/
  sfmt : Nat := 0
  /-- TRANSPOSE (width 1; 13 R314). -/
  transpose : Bool := false
  /-- SPILL (width 1; 13 R314). -/
  spill : Bool := false
  /-- K (width 32; 13 R314). -/
  k : Nat := 0
  /-- N (width 32; 13 R314). -/
  n : Nat := 0
  /-- LD (width 32; 13 R314). -/
  ld : Nat := 0
  /-- EPOCH (width 32; 13 R314). -/
  epoch : Nat := 0
  /-- DEST (width 48; 13 R314). -/
  dest : Nat := 0
  /-- ORDER (width 16; 13 R314). -/
  order : Nat := 0
  /-- DEST_SCALE (width 48; 13 R314). -/
  destScale : Nat := 0
  /-- STAGE (width 48; 13 R314). -/
  stage : Nat := 0
  /-- STAGE_LEN (width 64; 13 R314). -/
  stageLen : Nat := 0
  /-- HOT_STAGE (width 48; 13 R314). -/
  hotStage : Nat := 0
  /-- column ranges delivered (n0, cn) (width -; 13 R315). -/
  ranges : List (Nat × Nat) := []
  /-- packed stream received so far (width -; 13 R319). -/
  stream : List (BitVec 8) := []
  /-- a delivered column has zero range (width 1; 13 R317). -/
  zeroCol : Bool := false
  /-- packed stream complete and accepted (width 1; 13 R320). -/
  complete : Bool := false
  /-- a chunk is in progress (width 1; 13 R315). -/
  busy : Bool := false
  deriving DecidableEq, Repr

/-- Swap state of one partition. -/
structure Swap where
  /-- swap epoch E, 0 none (width 32; 16 R514). -/
  epoch : Nat := 0
  /-- armed (width 1; 13 R327). -/
  armed : Bool := false
  /-- POLICY: 0 drain, 1 carry-over (width 1; 13 R327). -/
  policy : Nat := 0
  /-- TIMEOUT, ms (width 16; 13 R327). -/
  timeout : Nat := 0
  /-- beat of arming (width 32; 13 R327). -/
  armedAt : Nat := 0
  /-- old requests treated as carry-over (width 1; 13 R330). -/
  timedOut : Bool := false
  /-- directory index being rewritten (width 14; 13 R328). -/
  rewriting : Option Nat := none
  /-- a layer has left ARMED (width 1; 13 R331). -/
  layersDone : Bool := false
  /-- epoch that old requests switch to, 0 none (width 32; 13 R327, R329). -/
  trackE : Nat := 0
  /-- old requests switch at their token boundaries (width 1; 13 R329, R330). -/
  trackCarry : Bool := false
  /-- handles staged at E, those already rewritten among them (width 32 x 16383; 13 R325). -/
  handles : List Nat := []
  /-- handles of the swap whose old requests still switch (width 32 x 16383; 16 R514). -/
  doneHandles : List Nat := []
  deriving DecidableEq, Repr

/-- Weight directory top level. -/
structure Wts where
  /-- HOT_STAGE contents: handle, epoch (width -; 13 R333). -/
  hot : Tab (Nat × Nat) := []
  /-- copies in progress: HOT_STAGE -> handle, epoch, PTR (width -; 13 R333). -/
  hotBusy : Tab (Nat × Nat × Nat) := []
  deriving DecidableEq, Repr

/-- One die-to-die link Dn, n = 0..6. -/
structure NetLink where
  /-- STATE: 0 untrained, 1 electrical, 2 optical (width 2; 14 R346). -/
  state : Nat := 0
  /-- REPLAYS (width 16; 14 R346). -/
  replays : Nat := 0
  /-- flits held while the optical path readies (width 1; 14 R338). -/
  switching : Bool := false
  deriving DecidableEq, Repr

/-- One partition. -/
structure Part where
  /-- RESETTING (width 1; 14 R343). -/
  resetting : Bool := false
  /-- reset due at the next beat edge (width 1; 14 R343). -/
  resetReq : Bool := false
  /-- dev.partition.reset command (width 32; 16 R394). -/
  cmd : Option Nat := none
  deriving DecidableEq, Repr

/-- Package network and partitions. -/
structure Net where
  /-- PARTITIONS (width 3; 14 R346). -/
  parts : Nat := 1
  /-- P taking force at the next beat edge (width 3; 14 R342). -/
  partsNext : Option Nat := none
  /-- FALLBACKS (width 2; 14 R346). -/
  fallbacks : Nat := 0
  deriving DecidableEq, Repr

/-- A packet on the package network (R337). -/
structure NetPkt where
  /-- source die: 0 to 3 T0 to T3, 4 B0, 5 B1 (width 3; 14 R337). -/
  src : Nat := 0
  /-- destination die (width 3; 14 R337). -/
  dst : Nat := 0
  /-- traffic class: 0 request, 1 response, 2 control (width 2; 14 R337). -/
  cls : Nat := 0
  /-- a write of the host, else a read (width 1; 12 R290). -/
  write : Bool := false
  /-- device address of a host access (width 48; 12 R290). -/
  addr : Nat := 0
  /-- bytes of a host read (width 13; 12 R290). -/
  len : Nat := 0
  /-- bytes of a host write or of a response (width 256 x 8; 12 R290). -/
  data : List (BitVec 8) := []
  /-- poison mark of each word of a response (width 32; 12 R292). -/
  poison : List Bool := []
  deriving DecidableEq, Repr

/-- One link port p = 0..23. -/
structure LinkPort where
  /-- STATE: 0 down, 1 training, 2 up, 3 disabled (width 2; 15 R379). -/
  state : Nat := 0
  /-- WIDTH (lanes/4 - 1) (width 2; 15 R379). -/
  width : Nat := 0
  /-- FEC: true light (width 1; 15 R379). -/
  light : Bool := false
  /-- FEC_NEXT (width 1; 15 R379). -/
  lightNext : Bool := false
  /-- QUAD_OK (width 4; 15 R379). -/
  quadOk : BitVec 4 := 0
  /-- REASON (width 3; 15 R379). -/
  reason : Nat := 0
  /-- PARTNER (width 14; 15 R379). -/
  partner : Nat := 0
  /-- REPLAYS (width 32; 15 R379). -/
  replays : BitVec 32 := 0
  /-- FEC_CORR (width 32; 15 R379). -/
  fecCorr : BitVec 32 := 0
  /-- FEC_UNCORR (width 32; 15 R379). -/
  fecUncorr : BitVec 32 := 0
  /-- PARTNER_PORT (width 5; 15 R379). -/
  partnerPort : Nat := 0
  /-- quads disabled by dev.unit.disable (width 4; 19 R465). -/
  disQuads : BitVec 4 := 0
  /-- identity passed (width 1; 15 R374). -/
  passed : Bool := false
  /-- beat of a lane drop awaiting its retrain (width 32; 15 R359). -/
  dropAt : Option Nat := none
  /-- failed training tries (width 2; 15 R360). -/
  retries : Nat := 0
  /-- beat of the last failed try (width 32; 15 R360). -/
  retryAt : Nat := 0
  /-- next SEQ to send (width 12; 15 R355). -/
  seqTx : Nat := 0
  /-- next SEQ expected (width 12; 15 R356). -/
  seqRx : Nat := 0
  /-- sent flits not yet acknowledged (width 2048; 15 R356). -/
  replayBuf : List Flit := []
  /-- consecutive replays of the first unacknowledged flit (width 5; 15 R356). -/
  replayRow : Nat := 0
  /-- a replay request is to be sent (width 1; 15 R356). -/
  reqReplay : Bool := false
  /-- flits of the replay buffer still to resend (width 12; 15 R356). -/
  resend : Nat := 0
  /-- reserved credits used by pool CLASS*3+VC (64 each at start) (width 9 x 11; 15 R357). -/
  credits : Tab Nat := []
  /-- shared credits held (width 11; 15 R357). -/
  shared : Nat := 1728
  /-- receive buffer (width 2304; 15 R357). -/
  rxBuf : List Flit := []
  /-- credits to return by pool (9: shared) (width -; 15 R357). -/
  owed : Tab Nat := []
  /-- packets steered to the port (width -; 15 R369). -/
  waiting : List Packet := []
  /-- last engine STATUS (width 16; 15 R351). -/
  engStatus : BitVec 16 := 0
  /-- last engine TEMP (width 16; 15 R351). -/
  engTemp : BitVec 16 := 0
  /-- last engine RX_PWR (width 16 x 16; 15 R351). -/
  engRx : List Int := []
  /-- LANE_EN written to the engine (width 16; 15 R351). -/
  laneEn : BitVec 16 := 0
  /-- beat number of the last time message received (width 32; 15 R370). -/
  tmBeat : Nat := 0
  /-- link delay, 0.05 ns (width 32; 15 R370). -/
  tmDelay : Int := 0
  /-- flits already sent of the first waiting packet of each pool (width 9 x 5; 15 R357, R361). -/
  txDone : Tab Nat := []
  /-- last flit sent (the model's record of an output, log 3) (width 256 B; 15 R355). -/
  txOut : Option Flit := none
  /-- link.port.enable command waiting for the port to train (width 32; 15 R378, 16 R394). -/
  cmd : Option Nat := none
  /-- flits sent since the last marker flit (width 9; 15 R354). -/
  flits : Nat := 0
  /-- a time message waits for the next marker flit (width 1; 15 R370). -/
  tmDue : Bool := false
  deriving DecidableEq, Repr

/-- Torus, muster and routes. -/
structure Link where
  /-- COORD (width 14; 15 R379). -/
  coord : Nat := 0
  /-- LEN_X (width 4; 15 R379). -/
  lenX : Nat := 0
  /-- LEN_Y (width 5; 15 R379). -/
  lenY : Nat := 0
  /-- LEN_Z (width 5; 15 R379). -/
  lenZ : Nat := 0
  /-- PHASE (width 3; 15 R379). -/
  phase : Nat := 0
  /-- LINK_TIME (width 1; 15 R379). -/
  linkTime : Bool := false
  /-- ROOT (width 14; 15 R379). -/
  root : Nat := 0
  /-- ROOT2 (width 14; 15 R379). -/
  root2 : Nat := 0
  /-- link.config accepted (width 1; 15 R372). -/
  configured : Bool := false
  /-- direction of the parent (width 3; 15 R375). -/
  parent : Option Nat := none
  /-- direction of the parent in the second tree (width 3; 15 R375). -/
  parent2 : Option Nat := none
  /-- coordinate indices reported present (subtree) (width 12288; 15 R375). -/
  bitmap : List Nat := []
  /-- the same along the second tree (width 12288; 15 R375). -/
  bitmap2 : List Nat := []
  /-- directions whose child has reported (width 6; 15 R375). -/
  childrenIn : List Nat := []
  /-- own report sent (width 1; 15 R375). -/
  reported : Bool := false
  /-- absent coordinates (width 12288; 15 R376). -/
  absent : List Nat := []
  /-- SYSTEM_READY received or declared (width 1; 15 R376). -/
  readySeen : Bool := false
  /-- beat at which the route table takes force (width 32; 15 R376). -/
  readyBeat : Option Nat := none
  /-- route table in force (width 1; 15 R376). -/
  routed : Bool := false
  /-- route-table epoch (width 32; 15 R378). -/
  routeEpoch : Nat := 0
  /-- coordinate, present?, switch beat of scheduled updates (width -; 15 R377). -/
  pendRoute : List (Nat × Bool × Nat) := []
  /-- devices declared late (width 12288; 15 R377). -/
  late : List Nat := []
  /-- control messages flooded: type, beat, coordinates (width -; 15 R376, R377). -/
  floods : List (Nat × Nat × List Nat) := []
  /-- packets of this device that wait for a port (width -; 15 R361, R369). -/
  own : List Packet := []
  /-- beat number of the last time message sent, by direction (plus one) (width 32; 15 R370). -/
  tmSent : Tab Nat := []
  /-- own report along the second tree sent (width 1; 15 R375). -/
  second : Bool := false
  /-- fresh nonce (width 32 x 8; 15 R374). -/
  nonce : List (BitVec 8) := []
  /-- packets that left the network here (width -; 15 R366). -/
  delivered : List Packet := []
  /-- packets discarded at the hop limit (width 32; 15 R366). -/
  lost : Nat := 0
  /-- OPREF, beat at which the absence of its destination was learnt (width -; 15 R362). -/
  pending10 : List (Nat × Nat) := []
  deriving DecidableEq, Repr

/-- One mailbox. -/
structure Mb where
  /-- ENABLE (width 1; 16 R383). -/
  enable : Bool := false
  /-- CPL_IRQ (width 1; 16 R383). -/
  cplIrq : Bool := false
  /-- EVT_IRQ (width 1; 16 R383). -/
  evtIrq : Bool := false
  /-- EVT_MASK (width 14; 16 R383). -/
  mask : BitVec 14 := 0
  /-- DRAINING (width 1; 16 R383). -/
  draining : Bool := false
  /-- RING_ERR (width 1; 16 R383). -/
  ringErr : Bool := false
  /-- BASE_ERR (width 1; 16 R383). -/
  baseErr : Bool := false
  /-- MB_CMD_BASE (width 52; 16 R383). -/
  cmdBase : BitVec 64 := 0
  /-- MB_CPL_BASE (width 52; 16 R383). -/
  cplBase : BitVec 64 := 0
  /-- MB_EVT_BASE (width 52; 16 R383). -/
  evtBase : BitVec 64 := 0
  /-- CMD_HEAD (width 32; 16 R383). -/
  cmdHead : BitVec 32 := 0
  /-- CMD_TAIL (width 32; 16 R383). -/
  cmdTail : BitVec 32 := 0
  /-- CPL_HEAD (width 32; 16 R383). -/
  cplHead : BitVec 32 := 0
  /-- CPL_TAIL (width 32; 16 R383). -/
  cplTail : BitVec 32 := 0
  /-- EVT_TAIL (width 32; 16 R383). -/
  evtTail : BitVec 32 := 0
  /-- EVT_HEAD (width 32; 16 R383). -/
  evtHead : BitVec 32 := 0
  /-- LOST (width 16; 16 R383). -/
  lost : Nat := 0
  /-- OVF (width 1; 16 R383). -/
  ovf : Bool := false
  /-- CMD_TAIL at the last doorbell: fetch up to here (width 32; 16 R386). -/
  bell : Option (BitVec 32) := none
  deriving DecidableEq, Repr

/-- One command in progress. -/
structure Cmd where
  /-- command key of the model (log 11) (width 32; 16 R386). -/
  key : Nat := 0
  /-- mailbox 0 to 63, or 64 for the management interface (width 7; 16 R386, R402). -/
  src : Nat := 0
  /-- FETCH_INDEX (width 32; 16 R389). -/
  fetchIdx : BitVec 32 := 0
  /-- OPCODE (width 16; 16 R388). -/
  opcode : Nat := 0
  /-- CID (width 16; 16 R388). -/
  cid : Nat := 0
  /-- ORDERED (width 1; 16 R388). -/
  ordered : Bool := false
  /-- EXT_LEN (width 8; 16 R388). -/
  extLen : Nat := 0
  /-- EXT_ADDR (width 64; 16 R388). -/
  extAddr : Nat := 0
  /-- deadline in ms (default applied) (width 16; 16 R393). -/
  deadline : Nat := 0
  /-- command entry (width 64 x 8; 16 R388). -/
  entry : List (BitVec 8) := []
  /-- extended payload copied at fetch (width 16320 x 8; 16 R388). -/
  ext : List (BitVec 8) := []
  /-- beat of the fetch (width 32; 16 R389). -/
  fetchBeat : Nat := 0
  /-- started, whether or not committed (width 1; 16 R387). -/
  started : Bool := false
  /-- past its commit point (width 1; 16 R393). -/
  committed : Bool := false
  /-- status decided (width 1; 16 R392). -/
  decided : Bool := false
  /-- STATUS (width 8; 16 R389). -/
  status : Nat := 0
  /-- DETAIL (width 16; 16 R389). -/
  detail : Nat := 0
  /-- RESULT (width 16 x 8; 16 R389). -/
  result : List (BitVec 8) := []
  /-- output for the extended buffer (width -; 16 R389). -/
  output : List (BitVec 8) := []
  /-- what a committed command waits for (count of ops, or unit) (width 32; 16 R394). -/
  wait : Nat := 0
  /-- running count for the result (ABORTED) (width 32; 16 R404). -/
  aux : Nat := 0
  /-- second count for the result (RETIRED) (width 32; 16 R404). -/
  aux2 : Nat := 0
  deriving DecidableEq, Repr

/-- Steward top level. -/
structure Stw where
  /-- READY (width 1; 16 R383, 17 R430). -/
  ready : Bool := false
  /-- next command key (log 11) (width 32; 16 R386). -/
  nextKey : Nat := 1
  /-- beat of the last send of each MSI-X vector (width 32; 16 R382). -/
  irqAt : Tab Nat := []
  /-- sends of each MSI-X vector (width 32; 16 R382). -/
  irqCount : Tab Nat := []
  /-- vector unmasked in the MSI-X table (masked at reset, PRESUMED 12) (width 1; 16 R382). -/
  msixMask : Tab Bool := []
  /-- MSI-X pending bits (width 1; 16 R381). -/
  msixPend : Tab Bool := []
  /-- MSI-X table words (width 32; 16 R381). -/
  msixTab : Tab (BitVec 32) := []
  /-- telemetry groups selected (width 6; 20 R489). -/
  telemetry : BitVec 8 := 0x3F
  /-- kernel watchdog, ms (width 14; 11 R276). -/
  watchdogMs : Nat := 100
  /-- last response over the management interface (width -; 20 R487). -/
  mgOut : List (BitVec 8) := []
  /-- last SPDM response (width -; 20 R479). -/
  spdmOut : List (BitVec 8) := []
  /-- steward firmware trace entries (width -; 16 R407). -/
  traceOut : List (BitVec 8) := []
  /-- harts' PC, MCAUSE, MEPC, MTVAL, heartbeat (width 20 x 64; 16 R407). -/
  harts : List (BitVec 64) := []
  deriving DecidableEq, Repr

/-- Bring-up window. -/
structure Bu where
  /-- STEP (width 4; 17 R430). -/
  step : Nat := 0
  /-- STATE (width 2; 17 R430). -/
  state : Nat := 0
  /-- BOOT_OK (width 1; 17 R430). -/
  bootOk : Bool := false
  /-- RWL_LOCKED (width 1; 17 R430). -/
  rwlLocked : Bool := false
  /-- DEGRADED (width 1; 17 R430). -/
  degraded : Bool := false
  /-- ELAPSED (width 16; 17 R430). -/
  elapsed : Nat := 0
  /-- step being run, 0 none (width 4; 17 R409). -/
  running : Nat := 0
  /-- step that failed last (width 4; 17 R409). -/
  failedStep : Nat := 0
  /-- EN (width 10; 17 R430). -/
  en : BitVec 10 := 0
  /-- ON (width 10; 17 R430). -/
  on : BitVec 10 := 0
  /-- PLL_LOCK (width 5; 17 R430). -/
  pllLock : BitVec 5 := 0
  /-- HBM_SEL (width 12; 17 R430). -/
  hbmSel : BitVec 12 := 0xFFF
  /-- DDR_SEL (width 12; 17 R430). -/
  ddrSel : BitVec 12 := 0xFFF
  /-- HBM_OK (width 12; 17 R430). -/
  hbmOk : BitVec 12 := 0
  /-- DDR_OK (width 12; 17 R430). -/
  ddrOk : BitVec 12 := 0
  /-- BU_IMG_ADDR (width 52; 17 R430). -/
  imgAddr : BitVec 64 := 0
  /-- LEN (width 24; 17 R430). -/
  imgLen : BitVec 24 := 0
  /-- ECDSA_OK (width 1; 17 R430). -/
  ecdsaOk : Bool := false
  /-- LMS_OK (width 1; 17 R430). -/
  lmsOk : Bool := false
  /-- CHAIN_OK (width 1; 17 R430). -/
  chainOk : Bool := false
  /-- SVN_OK (width 1; 17 R430). -/
  svnOk : Bool := false
  /-- AUTHENTIC (width 1; 17 R430). -/
  authentic : Bool := false
  /-- ATTEMPTS (width 3; 17 R430). -/
  attempts : Nat := 0
  /-- LOCKOUT (width 1; 17 R430). -/
  lockout : Bool := false
  /-- REASON (width 4; 17 R430). -/
  reason : Nat := 0
  /-- RUNNING (width 1; 17 R430). -/
  stwRunning : Bool := false
  /-- BU_CONVOY_STATUS PHASE (width 2; 17 R430). -/
  cvPhase : Nat := 0
  /-- ROUND (width 2; 17 R430). -/
  cvRound : Nat := 0
  /-- FENCED (width 12; 17 R430). -/
  cvFenced : Nat := 0
  /-- OVER_LIMIT (width 1; 17 R430). -/
  cvOver : Bool := false
  /-- BU_FAULT VALID (width 1; 17 R430). -/
  fltValid : Bool := false
  /-- BU_FAULT STEP (width 4; 17 R430). -/
  fltStep : Nat := 0
  /-- BU_FAULT CODE (width 8; 17 R430). -/
  fltCode : Nat := 0
  /-- BU_FAULT DETAIL (width 16; 17 R430). -/
  fltDetail : Nat := 0
  /-- LIC_DONE (width 1; 17 R430). -/
  licDone : Bool := false
  /-- LICENCES (width 6; 17 R430). -/
  licences : BitVec 6 := 0
  /-- image in steward SRAM (width 8 MiB; 17 R415). -/
  image : List (BitVec 8) := []
  /-- IMAGE_TAG of the convoy in progress (width 32; 17 R418). -/
  cvTag : Nat := 0
  /-- chunks of the convoy in progress (width 16; 17 R418). -/
  cvN : Nat := 0
  deriving DecidableEq, Repr

/-- Power domains and state. -/
structure Pwr where
  /-- domains powered and good, ascending (width 224; 18 R453). -/
  on : List Nat := []
  /-- PWR_STATE STATE (3: D3, registers unreadable) (width 2; 18 R453). -/
  state : Nat := 0
  /-- state being entered at the next beat edge (width 2; 18 R434). -/
  next : Option Nat := none
  /-- power.state command in progress (width 32; 18 R434). -/
  cmd : Option Nat := none
  /-- PKG_POWER (width 16; 18 R453). -/
  pkgPower : Nat := 0
  /-- beat at which the return to D0 began; DESIGN CHOICE 4 (width 32; 18 R435). -/
  since : Nat := 0
  deriving DecidableEq, Repr

/-- One temperature sensor, key 16*die+sensor; EXT_T pins at die 22. -/
structure Sensor where
  /-- last accepted reading, 1/128 degC; DESIGN CHOICE 4 (width 16; 18 R440). -/
  reading : Int := 0
  /-- an accepted reading exists (width 1; 18 R440). -/
  any : Bool := false
  /-- failed (width 1; 18 R440). -/
  failed : Bool := false
  /-- consecutive discarded readings (width 2; 18 R440). -/
  discards : Nat := 0
  /-- last reading discarded (width 1; 16 R514). -/
  lastDiscard : Bool := false
  /-- beat from which readings have been accepted again (width 32; 18 R440). -/
  goodSince : Option Nat := none
  /-- last 64 readings, oldest first (width 64 x 64; 16 R514). -/
  hist : List (Nat × Int × Bool × Bool) := []
  deriving DecidableEq, Repr

/-- One die d = 0..21. -/
structure Die where
  /-- TEMP, 1/128 degC (width 16; 18 R453). -/
  temp : Int := 0
  /-- LEVEL (width 2; 18 R453). -/
  level : Nat := 0
  /-- HOTTEST (width 5; 18 R453). -/
  hottest : Nat := 0
  /-- SUBST (width 1; 18 R453). -/
  subst : Bool := false
  /-- ENFORCED (width 1; 18 R453). -/
  enforced : Bool := false
  /-- with a hold: the die's other sensors stand at throttle (width 1; 18 R449). -/
  rest : Bool := false
  /-- sensor of the last accepted die temperature (width 5; 18 R449). -/
  lastHot : Nat := 0
  /-- failed hottest sensor holding the step (width 5; 18 R449). -/
  hold : Option Nat := none
  /-- beat since which the substitute reads below the level (width 32; 18 R449). -/
  holdFrom : Option Nat := none
  deriving DecidableEq, Repr

/-- Throttle episode and thermal control. -/
structure Thm where
  /-- GRACE, 0.1 ms (width 10; 18 R453). -/
  grace : Nat := 20
  /-- EPISODE (width 1; 18 R453). -/
  episode : Bool := false
  /-- ACKED (width 1; 18 R453). -/
  acked : Bool := false
  /-- beat of the episode's start (width 32; 18 R445). -/
  startAt : Nat := 0
  /-- beat of the acknowledgement (width 32; 18 R446). -/
  ackAt : Nat := 0
  /-- enforcement runs (width 1; 18 R446). -/
  enforcing : Bool := false
  /-- beat of each tile's next look at a rise (width 4 x 32; 18 R448). -/
  raiseAt : List Nat := [0, 0, 0, 0]
  /-- beat since which every die over the tile is below its level less 4 degC (width 4 x 32; 18 R448). -/
  coolAt : List (Option Nat) := [none, none, none, none]
  /-- beat of each tile's next fall (width 4 x 32; 18 R448). -/
  fallAt : List (Option Nat) := [none, none, none, none]
  /-- enforcement step of each tile's fields in the episode (width 4 x 3; 18 R444, R448). -/
  tile : List Nat := [0, 0, 0, 0]
  /-- STEP_T0..T3 in force (width 4 x 3; 18 R453). -/
  steps : List Nat := [0, 0, 0, 0]
  /-- steps in force from the next beat edge (width 4 x 3; 18 R446). -/
  stepsNext : List Nat := [0, 0, 0, 0]
  /-- set-point clamp in force (width 1; 18 R452). -/
  clamped : Bool := false
  /-- thermal shut-down (width 1; 18 R451). -/
  shutdown : Bool := false
  deriving DecidableEq, Repr

/-- One EXT_T pin n = 0..7. -/
structure ExtT where
  /-- TYPE (width 2; 18 R453). -/
  type : Nat := 0
  /-- WARN (width 8; 18 R453). -/
  warn : BitVec 8 := 0x7F
  /-- BETA (width 16; 18 R453). -/
  beta : BitVec 16 := 3435
  /-- R25 (width 16; 18 R453). -/
  r25 : BitVec 16 := 1000
  /-- ETA (width 16; 18 R453). -/
  eta : BitVec 16 := 16548
  /-- EXT_T_WARN posted (width 1; 18 R443). -/
  warned : Bool := false
  deriving DecidableEq, Repr

/-- One fault queue or log entry (R460). -/
structure FaultE where
  /-- CODE (width 16; 19 R460). -/
  code : Nat := 0
  /-- KIND (width 8; 19 R460). -/
  kind : Nat := 0
  /-- SUB (width 8; 19 R460). -/
  sub : Nat := 0
  /-- INDEX (width 16; 19 R460). -/
  index : Nat := 0
  /-- REPEAT (width 1; 19 R460). -/
  rpt : Bool := false
  /-- RECOVERING (width 1; 19 R460). -/
  recovering : Bool := false
  /-- OUTCOME (width 3; 19 R460). -/
  outcome : Nat := 0
  /-- BEAT (width 32; 19 R460). -/
  beat : Nat := 0
  /-- DETAIL (width 32; 19 R460). -/
  detail : Nat := 0
  /-- dev.unit.enable commands of a HOST_ENABLE entry (width -; 19 R467). -/
  cmds : List Nat := []
  deriving DecidableEq, Repr

/-- Faults. -/
structure Flt where
  /-- waiting entries, oldest first (DEPTH) (width 64 x 128; 19 R460). -/
  queue : List FaultE := []
  /-- FLT_ACTIVE (width 64; 19 R469). -/
  active : Option FaultE := none
  /-- beat the recovery started (width 32; 19 R469). -/
  activeAt : Nat := 0
  /-- fault log, oldest first (width 256 x 128; 19 R461). -/
  log : List FaultE := []
  /-- DEVICE_ERROR (width 1; 19 R469). -/
  deviceError : Bool := false
  /-- DE_CAUSE (width 3; 19 R469). -/
  deCause : Nat := 0
  /-- FAULTS (width 32; 19 R469). -/
  faults : BitVec 32 := 0
  /-- FENCES (width 32; 19 R469). -/
  fences : BitVec 32 := 0
  /-- disables in progress: kind, index, sub, command, deadline beat (width -; 19 R465). -/
  disabling : List (Nat × Nat × Nat × Nat × Nat) := []
  deriving DecidableEq, Repr

/-- Security block, fuses, flash and licences. -/
structure Sec where
  /-- SERIAL fuse; DESIGN CHOICE 4 (width 64; 20 R471). -/
  serial : BitVec 64 := 0
  /-- PART; DESIGN CHOICE 4 (per part) (width 4; 17 R430). -/
  part : Nat := 1
  /-- STEPPING; DESIGN CHOICE 4 (per part) (width 8; 17 R430). -/
  stepping : Nat := 0
  /-- REVOKED (width 8; 20 R471). -/
  revoked : BitVec 8 := 0
  /-- MIN_SVN (width 7; 20 R471). -/
  minSvn : Nat := 0
  /-- ECDSA_ROOT_0-3, LMS_ROOT_0-3; DESIGN CHOICE 4 (width 8 x 384; 20 R471). -/
  roots : Tab (List (BitVec 8)) := []
  /-- FACTORY_LOCK; DESIGN CHOICE 4 (width 1; 20 R471). -/
  factoryLock : Bool := true
  /-- M0..M7 (width 8 x 384; 20 R477). -/
  meas : List (List (BitVec 8)) := zeroMeas
  /-- licence store slots (width 16 x 3136 B; 20 R483). -/
  tokens : Tab (List (BitVec 8)) := []
  /-- image slots A, B (width 2 x 8 MiB; 20 R483). -/
  flashImg : Tab (List (BitVec 8)) := []
  /-- slot named by the select record; DESIGN CHOICE 4 (width 1; 20 R485). -/
  select : Nat := 0
  /-- sequence number of the select record (width 32; 20 R485). -/
  selectSeq : Nat := 0
  /-- interface that holds the staging context (width 7; 20 R484). -/
  stOpen : Option Nat := none
  /-- staged bytes (width 8 MiB; 20 R484). -/
  stData : List (BitVec 8) := []
  /-- TOTAL (width 24; 20 R484). -/
  stTotal : Nat := 0
  /-- beat of the last piece (width 32; 20 R484). -/
  stAt : Nat := 0
  /-- a staged, authentic image stands (width 1; 20 R485). -/
  staged : Bool := false
  /-- top-tree leaf counter (width 15; 20 R476). -/
  leaf : Nat := 0
  /-- boot key public part (width -; 20 R476). -/
  bootKey : Option (List (BitVec 8)) := none
  /-- messages signed by the boot key (width 16; 20 R476). -/
  bootSigs : Nat := 0
  /-- P0 and LO references in flash, key port*8+colour (+4 LO) (width -; 20 R483, 03 R68). -/
  lightStore : Tab Int := []
  /-- factory calibration region (width 32 MiB; 20 R483). -/
  factoryFlash : List (BitVec 8) := []
  /-- device certificate object and X.509 chain (width 1 MiB; 20 R483). -/
  identity : List (BitVec 8) := []
  /-- SPDM connection state per transport (width -; 20 R479). -/
  spdm : Tab Nat := []
  deriving DecidableEq, Repr

/-- Management register page. -/
structure Mg where
  /-- MG_ALERT (width 7; 20 R490). -/
  alert : BitVec 7 := 0
  /-- MG_ALERT_EN (width 7; 20 R490). -/
  alertEn : BitVec 7 := 0x7F
  /-- 0x5A written to MG_RESET within 1 ms (width 1; 20 R490). -/
  resetArm : Bool := false
  /-- HOTTEST (width 8; 20 R490). -/
  hottest : Int := 0
  deriving DecidableEq, Repr

/-- The whole machine as plain data: everything the spec gives the block, and the queue of waiting commands. -/
@[ext]
structure State where
  /-- Beat clock, beat alignment and TICKIN (01, 15, 21). -/
  tim : Tim := {}
  /-- Package pins the rules name (15, 17 to 21). -/
  pins : Pins := {}
  /-- The 32 fields, key field (02, 04, 06, 07, 10, 11). -/
  fields : Tab Field := []
  /-- ADC slice corrections, key ((field*256+column)*4+colour)*16+slice (04 R119). -/
  adcs : Tab Adc := []
  /-- Telemetry that a withheld band keeps of its ADC slices, same key (04 R119, 07 R173). -/
  adcTel : Tab Adc := []
  /-- Taint windows, key (field*32+octet)*4+colour (04 R104, R105). -/
  taints : Tab Taint := []
  /-- Accumulator cells, key (field*2048+row)*1024+cell (04 R111). -/
  acc : Tab AccCell := []
  /-- Bands, key 8*field+band (02 R62, 07 R190). -/
  bands : Tab Band := []
  /-- Calibration layers and schedules (07). -/
  cal : Cal := {}
  /-- Light levels by port and colour, key 4*port+colour (03 R86). -/
  lcols : Tab LightCol := []
  /-- Light ports 0 to 9 (03 R86). -/
  lports : Tab LightPort := []
  /-- Relay sources, 0 LX0, 1 LX1 (03 R86). -/
  relays : Tab Relay := []
  /-- Light pause, disabled colours (02 R47, 03 R86). -/
  light : Light := {}
  /-- Monitor converters 0 to 63 (05 R137). -/
  mons : Tab Mon := []
  /-- Latest monitor results, key 32*converter+input (05 R137). -/
  monLasts : Tab MonLast := []
  /-- The monitor ring (05 R137). -/
  ring : MonRing := {}
  /-- Loop slots 0 to 8191 (06 R162). -/
  loops : Tab LoopSlot := []
  /-- Loop engine, coolant reading, test and capture (06 R162). -/
  eng : LoopEng := {}
  /-- Op streams 0 to 63 (10 R265). -/
  streams : Tab Stream := []
  /-- Issued, unretired ops in order of issue (10 R234). -/
  ops : List Op := []
  /-- Sequencer: keys, tree sums, pass counts (10). -/
  seq : Seq := {}
  /-- Dependency tokens, key 4096*partition+token (10 R241). -/
  tokens : Tab Token := []
  /-- Row maps (10 R252). -/
  rowMaps : List RowMap := []
  /-- The manifest, key entry (10 R248). -/
  manifest : Tab Manifest := []
  /-- Vector cores, key 64*field+core (11). -/
  cores : Tab Core := []
  /-- Device memory bytes that differ from zero, by address (12). -/
  mem : List Host.Cell := []
  /-- Poisoned memory words, key address/8 (12 R293). -/
  poison : Tab Bool := []
  /-- Bit errors that memory words hold against their code word, key address/8 (12 R291). -/
  errs : Tab (BitVec 80) := []
  /-- Memory units, 0 to 11 HBM stacks, 16 to 27 DDR channels (12 R311). -/
  units : Tab MemUnit := []
  /-- The region table, 256 entries (12 R309). -/
  regions : Tab Region := []
  /-- Memory control (12 R311). -/
  memTop : MemTop := {}
  /-- The weight directory, key index (13 R321). -/
  dir : Tab Dir := []
  /-- Load contexts, key 4*partition+context (13 R314). -/
  ctxs : Tab LoadCtx := []
  /-- Swap state by partition (13 R327). -/
  swaps : Tab Swap := []
  /-- Hot-stage copies (13 R333). -/
  wts : Wts := {}
  /-- Die-to-die links D0 to D6 (14 R346). -/
  netLinks : Tab NetLink := []
  /-- Partitions (14 R346). -/
  parts : Tab Part := []
  /-- Package network (14 R346). -/
  net : Net := {}
  /-- Packets that wait for a die-to-die link, oldest first, key 6*link+3*direction+class (14 R337, R338). -/
  netBufs : Tab (List NetPkt) := []
  /-- Link ports 0 to 23 (15 R379). -/
  ports : Tab LinkPort := []
  /-- Torus, muster and routes (15). -/
  link : Link := {}
  /-- Mailboxes 0 to 63 (16 R383). -/
  mbs : Tab Mb := []
  /-- Mailbox commands in progress, in order of fetch (16 R386). -/
  cmds : List Cmd := []
  /-- The steward (16). -/
  stw : Stw := {}
  /-- Host-memory bytes the device has written, where they differ from zero (assumption log 3). -/
  hostMem : List Host.Cell := []
  /-- Bring-up (17 R430). -/
  bu : Bu := {}
  /-- Power domains and power state (18 R453). -/
  pwr : Pwr := {}
  /-- Temperature sensors, key 16*die+sensor; EXT_T at die 22 (18 R440). -/
  sensors : Tab Sensor := []
  /-- Die temperatures 0 to 21 (18 R453). -/
  dies : Tab Die := []
  /-- Throttle episode and thermal control (18 R453). -/
  thm : Thm := {}
  /-- EXT_T pins 0 to 7 (18 R453). -/
  exts : Tab ExtT := []
  /-- Faults (19). -/
  flt : Flt := {}
  /-- Fuses, flash, measurements and licences (20). -/
  sec : Sec := {}
  /-- Management register page (20 R490). -/
  mg : Mg := {}
  /-- The model's own counter of free values drawn (assumption log 8). -/
  free : Nat := 0
  /-- The commands that wait, first in first out. -/
  pending : List Instr := []
  deriving DecidableEq, Repr

/-- The reasons the block can stop with a fault. No command of the table has one: the spec gives every command of
this block an effect, and what it forbids ends in a status, a REASON, poison or an event. -/
inductive Fault where
  /-- Raised by nothing in this model; safe. -/
  | unreachable
  deriving DecidableEq, Repr

/-- The reasons a command can be refused. -/
inductive Refusal where
  /-- A command whose meaning is not written yet, by its mnemonic; safe. -/
  | notModelled (mnemonic : String)
  deriving DecidableEq, Repr

namespace State

/-- `s` with its component `pins` changed by `g`. -/
def modPins (s : State) (g : Pins → Pins) : State :=
  { s with pins := g s.pins }

/-- `s` with its component `memTop` changed by `g`. -/
def modMemTop (s : State) (g : MemTop → MemTop) : State :=
  { s with memTop := g s.memTop }

/-- `s` with its component `dir` changed by `g`. -/
def modDir (s : State) (g : Tab Dir → Tab Dir) : State :=
  { s with dir := g s.dir }

/-- The state right after RESET_N falls: every field at the value the spec gives for reset, or the value that
assumption log 4, 5 or 9 names; the queue empty. -/
def reset : State := {}

end State

end Sys2Proof.Machine
end

