-- ==== Sys2Proof/Machine/Ops.lean ====
section
/-! DEFINITION. The named operations that every meaning uses: bit fields, bytes in little-endian order (R10), sparse
tables, memory bytes, and the accessors of State's tables. -/

namespace Sys2Proof.Machine

open Sys2Proof

/-! ### Bit fields and bytes -/

/-- Bits [lo+w-1 : lo] of `v` (R10). -/
def bits (v lo w : Nat) : Nat := v / 2 ^ lo % 2 ^ w

/-- Bit `i` of `v`. -/
def bit (v i : Nat) : Bool := v / 2 ^ i % 2 == 1

/-- The numbers 0 or 1 of a flag. -/
def b01 (b : Bool) : Nat := if b then 1 else 0

/-- The two's-complement value of the low `w` bits of `v` (R11). -/
def signed (w v : Nat) : Int :=
  let u := v % 2 ^ w
  if 2 * u < 2 ^ w then (u : Int) else (u : Int) - (2 ^ w : Nat)

/-- The `w`-bit two's-complement image of `i` (R11). -/
def image (w : Nat) (i : Int) : Nat := (i % (2 ^ w : Nat)).toNat

/-- `i` held within [lo, hi]. -/
def clampI (lo hi i : Int) : Int := if i < lo then lo else if hi < i then hi else i

/-- Rounding of the quotient a/b (b > 0) to the nearest integer, ties to even. -/
def roundEven (a : Int) (b : Nat) : Int :=
  let q := a.fdiv b
  let r := a.fmod b
  if 2 * r < b then q else if (b : Int) < 2 * r then q + 1 else if q % 2 = 0 then q else q + 1

/-- The `n` bytes of `v`, least significant first (R10). -/
def leBytes : Nat → Nat → List Byte
  | 0, _ => []
  | n + 1, v => BitVec.ofNat 8 v :: leBytes n (v / 256)

/-- The number that bytes spell, least significant first (R10). -/
def leNat : List Byte → Nat
  | [] => 0
  | b :: l => b.toNat + 256 * leNat l

/-- The number in `n` bytes of `l` from byte `i`. -/
def bytesAt (l : List Byte) (i n : Nat) : Nat := leNat ((l.drop i).take n)

/-- `l` cut or filled with zero bytes to `n` bytes. -/
def fitBytes (n : Nat) (l : List Byte) : List Byte := l.take n ++ List.replicate (n - l.length) 0

/-- The members of `l` for which bit `i` of `mask` is set, in rising order, up to `n`. -/
def maskList (n mask : Nat) : List Nat := (List.range n).filter (bit mask)

/-- The number whose set bits are the members of `l` below `n`. -/
def listMask (n : Nat) (l : List Nat) : Nat :=
  (List.range n).foldl (fun m i => if l.contains i then m + 2 ^ i else m) 0

/-! ### Sparse tables -/

/-- The value of key `k`: the listed one, or the default `d`. -/
def tget {α : Type} (d : α) : Tab α → Nat → α
  | [], _ => d
  | (a, v) :: l, k => if a = k then v else tget d l k

/-- The table without key `k`. -/
def tdel {α : Type} (t : Tab α) (k : Nat) : Tab α := t.filter (fun e => e.1 != k)

/-- The table with `(k, v)` put at its place among rising keys. -/
def tins {α : Type} (k : Nat) (v : α) : Tab α → Tab α
  | [] => [(k, v)]
  | (a, w) :: l => if k < a then (k, v) :: (a, w) :: l else (a, w) :: tins k v l

/-- The table with key `k` at `v`; a default value is left out. -/
def tset {α : Type} [DecidableEq α] (d : α) (t : Tab α) (k : Nat) (v : α) : Tab α :=
  if v = d then tdel t k else tins k v (tdel t k)

/-- The table with every key of `l` changed by `g`. -/
def tmod {α : Type} [DecidableEq α] (d : α) (t : Tab α) (l : List Nat) (g : Nat → α → α) : Tab α :=
  l.foldl (fun t k => tset d t k (g k (tget d t k))) t

/-- The table with every listed entry changed by `g`. -/
def tmap {α : Type} [DecidableEq α] (d : α) (t : Tab α) (g : Nat → α → α) : Tab α := tmod d t (t.map Prod.fst) g

/-- Keys strictly rising, no entry at the default: the one canonical form of a table. -/
def Tab.wf {α : Type} [DecidableEq α] (d : α) : Tab α → Bool
  | [] => true
  | [(_, v)] => !(decide (v = d))
  | (a, v) :: (b, w) :: l => !(decide (v = d)) && decide (a < b) && Tab.wf d ((b, w) :: l)

/-! ### Memory bytes -/

/-- What a byte of memory that no entry lists reads as: zero (R301 for HBM and DDR; assumption log 2 for SRAM). -/
def memDefault : Byte := 0

/-- The canonical form of a byte memory. -/
def Memory.wf (m : List Host.Cell) : Bool := Tab.wf memDefault m

/-- The byte at address `a`. -/
def Memory.read (m : List Host.Cell) (a : Nat) : Byte := tget memDefault m a

/-- The memory with byte `a` at `v`. -/
def Memory.write (m : List Host.Cell) (a : Nat) (v : Byte) : List Host.Cell := tset memDefault m a v

/-- The `n` bytes from address `a`. -/
def Memory.readN (m : List Host.Cell) (a n : Nat) : List Byte := (List.range n).map (fun i => Memory.read m (a + i))

/-- The memory with the bytes `l` stored from address `a`. -/
def Memory.writeN (m : List Host.Cell) (a : Nat) : List Byte → List Host.Cell
  | [] => m
  | v :: l => Memory.writeN (Memory.write m a v) (a + 1) l

/-! ### Loop slots -/

/-- The kind of loop slot `s` = 512·lane + k (R140, R162): 0 free or unused, 1 LO phase, 2 receiver offset, 3 modulator bias,
4 die thermal, 5 light power, 6 relay pre-lock. -/
def loopKindOf (s : Nat) : Nat :=
  let k := s % 512
  if k < 64 then 1 else if k < 128 then 2 else if k < 160 then 4 else if k < 165 then 5
  else if k = 165 then (if s < 4096 then 6 else 0) else if k < 295 then 3 else 0

/-- The reset values of loop slot `k`: KIND and SP_SRC depend on the slot (R140, R162). Keys from 8,192 hold the loop state of
modulator bias instances, sixteen to a slot (R140). -/
def loopReset (k : Nat) : LoopSlot :=
  if k < 8192 then { kind := loopKindOf k, spSrc := if loopKindOf k = 4 then 2 else 0 } else {}

end Sys2Proof.Machine
end

