-- ==== Sys2Proof/Machine/Access.lean ====
section
/-! DEFINITION. One reader, one writer and one changer for each table of State: every access goes through them. -/

namespace Sys2Proof.Machine

open Sys2Proof

namespace State

/-- Entry `k` of `fields`. -/
def field (s : State) (k : Nat) : Field := tget {} s.fields k

/-- `s` with entry `k` of `fields` at `v`. -/
def setField (s : State) (k : Nat) (v : Field) : State := { s with fields := tset {} s.fields k v }

/-- `s` with entry `k` of `fields` changed by `g`. -/
def modField (s : State) (k : Nat) (g : Field → Field) : State := s.setField k (g (s.field k))

/-- Entry `k` of `adcs`. -/
def adc (s : State) (k : Nat) : Adc := tget {} s.adcs k

/-- `s` with entry `k` of `adcs` at `v`. -/
def setAdc (s : State) (k : Nat) (v : Adc) : State := { s with adcs := tset {} s.adcs k v }

/-- `s` with entry `k` of `adcs` changed by `g`. -/
def modAdc (s : State) (k : Nat) (g : Adc → Adc) : State := s.setAdc k (g (s.adc k))

/-- Entry `k` of `adcTel`. -/
def adcOld (s : State) (k : Nat) : Adc := tget {} s.adcTel k

/-- `s` with entry `k` of `adcTel` at `v`. -/
def setAdcOld (s : State) (k : Nat) (v : Adc) : State := { s with adcTel := tset {} s.adcTel k v }

/-- `s` with entry `k` of `adcTel` changed by `g`. -/
def modAdcOld (s : State) (k : Nat) (g : Adc → Adc) : State := s.setAdcOld k (g (s.adcOld k))

/-- Entry `k` of `taints`. -/
def taint (s : State) (k : Nat) : Taint := tget {} s.taints k

/-- `s` with entry `k` of `taints` at `v`. -/
def setTaint (s : State) (k : Nat) (v : Taint) : State := { s with taints := tset {} s.taints k v }

/-- `s` with entry `k` of `taints` changed by `g`. -/
def modTaint (s : State) (k : Nat) (g : Taint → Taint) : State := s.setTaint k (g (s.taint k))

/-- Entry `k` of `acc`. -/
def accCell (s : State) (k : Nat) : AccCell := tget {} s.acc k

/-- `s` with entry `k` of `acc` at `v`. -/
def setAccCell (s : State) (k : Nat) (v : AccCell) : State := { s with acc := tset {} s.acc k v }

/-- `s` with entry `k` of `acc` changed by `g`. -/
def modAccCell (s : State) (k : Nat) (g : AccCell → AccCell) : State := s.setAccCell k (g (s.accCell k))

/-- Entry `k` of `bands`. -/
def band (s : State) (k : Nat) : Band := tget {} s.bands k

/-- `s` with entry `k` of `bands` at `v`. -/
def setBand (s : State) (k : Nat) (v : Band) : State := { s with bands := tset {} s.bands k v }

/-- `s` with entry `k` of `bands` changed by `g`. -/
def modBand (s : State) (k : Nat) (g : Band → Band) : State := s.setBand k (g (s.band k))

/-- Entry `k` of `lcols`. -/
def lcol (s : State) (k : Nat) : LightCol := tget {} s.lcols k

/-- `s` with entry `k` of `lcols` at `v`. -/
def setLcol (s : State) (k : Nat) (v : LightCol) : State := { s with lcols := tset {} s.lcols k v }

/-- `s` with entry `k` of `lcols` changed by `g`. -/
def modLcol (s : State) (k : Nat) (g : LightCol → LightCol) : State := s.setLcol k (g (s.lcol k))

/-- Entry `k` of `lports`. -/
def lport (s : State) (k : Nat) : LightPort := tget {} s.lports k

/-- `s` with entry `k` of `lports` at `v`. -/
def setLport (s : State) (k : Nat) (v : LightPort) : State := { s with lports := tset {} s.lports k v }

/-- `s` with entry `k` of `lports` changed by `g`. -/
def modLport (s : State) (k : Nat) (g : LightPort → LightPort) : State := s.setLport k (g (s.lport k))

/-- Entry `k` of `relays`. -/
def relay (s : State) (k : Nat) : Relay := tget {} s.relays k

/-- `s` with entry `k` of `relays` at `v`. -/
def setRelay (s : State) (k : Nat) (v : Relay) : State := { s with relays := tset {} s.relays k v }

/-- `s` with entry `k` of `relays` changed by `g`. -/
def modRelay (s : State) (k : Nat) (g : Relay → Relay) : State := s.setRelay k (g (s.relay k))

/-- Entry `k` of `mons`. -/
def mon (s : State) (k : Nat) : Mon := tget {} s.mons k

/-- `s` with entry `k` of `mons` at `v`. -/
def setMon (s : State) (k : Nat) (v : Mon) : State := { s with mons := tset {} s.mons k v }

/-- `s` with entry `k` of `mons` changed by `g`. -/
def modMon (s : State) (k : Nat) (g : Mon → Mon) : State := s.setMon k (g (s.mon k))

/-- Entry `k` of `monLasts`. -/
def monLast (s : State) (k : Nat) : MonLast := tget {} s.monLasts k

/-- `s` with entry `k` of `monLasts` at `v`. -/
def setMonLast (s : State) (k : Nat) (v : MonLast) : State := { s with monLasts := tset {} s.monLasts k v }

/-- `s` with entry `k` of `monLasts` changed by `g`. -/
def modMonLast (s : State) (k : Nat) (g : MonLast → MonLast) : State := s.setMonLast k (g (s.monLast k))

/-- Entry `k` of `loops`. -/
def loop (s : State) (k : Nat) : LoopSlot := tget (loopReset k) s.loops k

/-- `s` with entry `k` of `loops` at `v`. -/
def setLoop (s : State) (k : Nat) (v : LoopSlot) : State := { s with loops := tset (loopReset k) s.loops k v }

/-- `s` with entry `k` of `loops` changed by `g`. -/
def modLoop (s : State) (k : Nat) (g : LoopSlot → LoopSlot) : State := s.setLoop k (g (s.loop k))

/-- Entry `k` of `streams`. -/
def stream (s : State) (k : Nat) : Stream := tget {} s.streams k

/-- `s` with entry `k` of `streams` at `v`. -/
def setStream (s : State) (k : Nat) (v : Stream) : State := { s with streams := tset {} s.streams k v }

/-- `s` with entry `k` of `streams` changed by `g`. -/
def modStream (s : State) (k : Nat) (g : Stream → Stream) : State := s.setStream k (g (s.stream k))

/-- Entry `k` of `tokens`. -/
def token (s : State) (k : Nat) : Token := tget {} s.tokens k

/-- `s` with entry `k` of `tokens` at `v`. -/
def setToken (s : State) (k : Nat) (v : Token) : State := { s with tokens := tset {} s.tokens k v }

/-- `s` with entry `k` of `tokens` changed by `g`. -/
def modToken (s : State) (k : Nat) (g : Token → Token) : State := s.setToken k (g (s.token k))

/-- Entry `k` of `manifest`. -/
def entry (s : State) (k : Nat) : Manifest := tget {} s.manifest k

/-- `s` with entry `k` of `manifest` at `v`. -/
def setEntry (s : State) (k : Nat) (v : Manifest) : State := { s with manifest := tset {} s.manifest k v }

/-- `s` with entry `k` of `manifest` changed by `g`. -/
def modEntry (s : State) (k : Nat) (g : Manifest → Manifest) : State := s.setEntry k (g (s.entry k))

/-- Entry `k` of `cores`. -/
def coreOf (s : State) (k : Nat) : Core := tget {} s.cores k

/-- `s` with entry `k` of `cores` at `v`. -/
def setCoreOf (s : State) (k : Nat) (v : Core) : State := { s with cores := tset {} s.cores k v }

/-- `s` with entry `k` of `cores` changed by `g`. -/
def modCoreOf (s : State) (k : Nat) (g : Core → Core) : State := s.setCoreOf k (g (s.coreOf k))

/-- Entry `k` of `poison`. -/
def poisoned (s : State) (k : Nat) : Bool := tget false s.poison k

/-- `s` with entry `k` of `poison` at `v`. -/
def setPoisoned (s : State) (k : Nat) (v : Bool) : State := { s with poison := tset false s.poison k v }

/-- `s` with entry `k` of `poison` changed by `g`. -/
def modPoisoned (s : State) (k : Nat) (g : Bool → Bool) : State := s.setPoisoned k (g (s.poisoned k))

/-- Entry `k` of `errs`. -/
def err (s : State) (k : Nat) : BitVec 80 := tget 0 s.errs k

/-- `s` with entry `k` of `errs` at `v`. -/
def setErr (s : State) (k : Nat) (v : BitVec 80) : State := { s with errs := tset 0 s.errs k v }

/-- `s` with entry `k` of `errs` changed by `g`. -/
def modErr (s : State) (k : Nat) (g : BitVec 80 → BitVec 80) : State := s.setErr k (g (s.err k))

/-- Entry `k` of `units`. -/
def unit (s : State) (k : Nat) : MemUnit := tget {} s.units k

/-- `s` with entry `k` of `units` at `v`. -/
def setUnit (s : State) (k : Nat) (v : MemUnit) : State := { s with units := tset {} s.units k v }

/-- `s` with entry `k` of `units` changed by `g`. -/
def modUnit (s : State) (k : Nat) (g : MemUnit → MemUnit) : State := s.setUnit k (g (s.unit k))

/-- Entry `k` of `regions`. -/
def region (s : State) (k : Nat) : Region := tget {} s.regions k

/-- `s` with entry `k` of `regions` at `v`. -/
def setRegion (s : State) (k : Nat) (v : Region) : State := { s with regions := tset {} s.regions k v }

/-- `s` with entry `k` of `regions` changed by `g`. -/
def modRegion (s : State) (k : Nat) (g : Region → Region) : State := s.setRegion k (g (s.region k))

/-- Entry `k` of `dir`. -/
def dirEntry (s : State) (k : Nat) : Dir := tget {} s.dir k

/-- `s` with entry `k` of `dir` at `v`. -/
def setDirEntry (s : State) (k : Nat) (v : Dir) : State := { s with dir := tset {} s.dir k v }

/-- `s` with entry `k` of `dir` changed by `g`. -/
def modDirEntry (s : State) (k : Nat) (g : Dir → Dir) : State := s.setDirEntry k (g (s.dirEntry k))

/-- Entry `k` of `ctxs`. -/
def ctx (s : State) (k : Nat) : LoadCtx := tget {} s.ctxs k

/-- `s` with entry `k` of `ctxs` at `v`. -/
def setCtx (s : State) (k : Nat) (v : LoadCtx) : State := { s with ctxs := tset {} s.ctxs k v }

/-- `s` with entry `k` of `ctxs` changed by `g`. -/
def modCtx (s : State) (k : Nat) (g : LoadCtx → LoadCtx) : State := s.setCtx k (g (s.ctx k))

/-- Entry `k` of `swaps`. -/
def swapOf (s : State) (k : Nat) : Swap := tget {} s.swaps k

/-- `s` with entry `k` of `swaps` at `v`. -/
def setSwapOf (s : State) (k : Nat) (v : Swap) : State := { s with swaps := tset {} s.swaps k v }

/-- `s` with entry `k` of `swaps` changed by `g`. -/
def modSwapOf (s : State) (k : Nat) (g : Swap → Swap) : State := s.setSwapOf k (g (s.swapOf k))

/-- Entry `k` of `netLinks`. -/
def netLink (s : State) (k : Nat) : NetLink := tget {} s.netLinks k

/-- `s` with entry `k` of `netLinks` at `v`. -/
def setNetLink (s : State) (k : Nat) (v : NetLink) : State := { s with netLinks := tset {} s.netLinks k v }

/-- `s` with entry `k` of `netLinks` changed by `g`. -/
def modNetLink (s : State) (k : Nat) (g : NetLink → NetLink) : State := s.setNetLink k (g (s.netLink k))

/-- Entry `k` of `parts`. -/
def partOf (s : State) (k : Nat) : Part := tget {} s.parts k

/-- `s` with entry `k` of `parts` at `v`. -/
def setPartOf (s : State) (k : Nat) (v : Part) : State := { s with parts := tset {} s.parts k v }

/-- `s` with entry `k` of `parts` changed by `g`. -/
def modPartOf (s : State) (k : Nat) (g : Part → Part) : State := s.setPartOf k (g (s.partOf k))

/-- Entry `k` of `netBufs`. -/
def netBuf (s : State) (k : Nat) : List NetPkt := tget [] s.netBufs k

/-- `s` with entry `k` of `netBufs` at `v`. -/
def setNetBuf (s : State) (k : Nat) (v : List NetPkt) : State := { s with netBufs := tset [] s.netBufs k v }

/-- `s` with entry `k` of `netBufs` changed by `g`. -/
def modNetBuf (s : State) (k : Nat) (g : List NetPkt → List NetPkt) : State := s.setNetBuf k (g (s.netBuf k))

/-- Entry `k` of `ports`. -/
def port (s : State) (k : Nat) : LinkPort := tget {} s.ports k

/-- `s` with entry `k` of `ports` at `v`. -/
def setPort (s : State) (k : Nat) (v : LinkPort) : State := { s with ports := tset {} s.ports k v }

/-- `s` with entry `k` of `ports` changed by `g`. -/
def modPort (s : State) (k : Nat) (g : LinkPort → LinkPort) : State := s.setPort k (g (s.port k))

/-- Entry `k` of `mbs`. -/
def mb (s : State) (k : Nat) : Mb := tget {} s.mbs k

/-- `s` with entry `k` of `mbs` at `v`. -/
def setMb (s : State) (k : Nat) (v : Mb) : State := { s with mbs := tset {} s.mbs k v }

/-- `s` with entry `k` of `mbs` changed by `g`. -/
def modMb (s : State) (k : Nat) (g : Mb → Mb) : State := s.setMb k (g (s.mb k))

/-- Entry `k` of `sensors`. -/
def sensor (s : State) (k : Nat) : Sensor := tget {} s.sensors k

/-- `s` with entry `k` of `sensors` at `v`. -/
def setSensor (s : State) (k : Nat) (v : Sensor) : State := { s with sensors := tset {} s.sensors k v }

/-- `s` with entry `k` of `sensors` changed by `g`. -/
def modSensor (s : State) (k : Nat) (g : Sensor → Sensor) : State := s.setSensor k (g (s.sensor k))

/-- Entry `k` of `dies`. -/
def die (s : State) (k : Nat) : Die := tget {} s.dies k

/-- `s` with entry `k` of `dies` at `v`. -/
def setDie (s : State) (k : Nat) (v : Die) : State := { s with dies := tset {} s.dies k v }

/-- `s` with entry `k` of `dies` changed by `g`. -/
def modDie (s : State) (k : Nat) (g : Die → Die) : State := s.setDie k (g (s.die k))

/-- Entry `k` of `exts`. -/
def extT (s : State) (k : Nat) : ExtT := tget {} s.exts k

/-- `s` with entry `k` of `exts` at `v`. -/
def setExtT (s : State) (k : Nat) (v : ExtT) : State := { s with exts := tset {} s.exts k v }

/-- `s` with entry `k` of `exts` changed by `g`. -/
def modExtT (s : State) (k : Nat) (g : ExtT → ExtT) : State := s.setExtT k (g (s.extT k))

end State

end Sys2Proof.Machine
end

