-- ==== Sys2Proof/Machine/Events.lean ====
section
/-! DEFINITION. What the device sends to host software: bytes of host memory, MSI-X, and events (R382, R397 to R399,
R513). -/

namespace Sys2Proof.Machine

open Sys2Proof

/-- The device writes bytes to host memory. -/
def hostWrite (a : Nat) (l : List Byte) (s : State) : State := { s with hostMem := Memory.writeN s.hostMem a l }

/-- A send of MSI-X vector `v` (R382): merged with a send of the last 2 µs; while the MSI-X table masks the vector its
pending bit is set instead (PRESUMED, assumption log 12). -/
def msix (v : Nat) (s : State) : State :=
  if tget false s.stw.msixMask v then
    if tget 0 s.stw.irqCount v = 0 ∨ tget 0 s.stw.irqAt v + 2 ≤ s.tim.beat then
      { s with stw := { s.stw with
          irqAt := tset 0 s.stw.irqAt v s.tim.beat
          irqCount := tset 0 s.stw.irqCount v (tget 0 s.stw.irqCount v + 1) } }
    else s
  else { s with stw := { s.stw with msixPend := tset false s.stw.msixPend v true } }

/-- PHASE of a ring entry: 1 − bit 8 of its index (R389, R397). -/
def phaseOf (i : Nat) : Nat := 1 - bits i 8 1

/-- The 32 bytes of an event entry (R397). -/
def eventEntry (idx beat code : Nat) (items : List Byte) : List Byte :=
  leBytes 2 code ++ leBytes 1 (phaseOf idx) ++ [0] ++ leBytes 4 beat ++ fitBytes 24 items

/-- Event `code` to mailbox `m`: into its ring, or dropped when the ring is full (R397, R399). -/
def eventTo (code : Nat) (items : List Byte) (s : State) (m : Nat) : State :=
  let b := s.mb m
  if !b.enable || !(b.mask.getLsbD (code / 256 - 1)) then s
  else if b.evtTail - b.evtHead = 256 then
    s.setMb m { b with lost := min 0xFFFF (b.lost + 1), ovf := true }
  else
    let s := hostWrite (b.evtBase.toNat + 32 * (b.evtTail.toNat % 256))
      (eventEntry b.evtTail.toNat s.tim.beat code items) s
    let s := s.setMb m { b with evtTail := b.evtTail + 1 }
    if b.evtIrq then msix (64 + m) s else s

/-- Posting an event: to every enabled mailbox whose mask includes its group (R397); none in device error (R396). -/
def post (code : Nat) (items : List Byte) (s : State) : State :=
  if s.flt.deviceError then s else (s.mbs.map Prod.fst).foldl (eventTo code items) s

/-- Posting an event to one mailbox (OP_DONE, R397). -/
def postOne (m code : Nat) (items : List Byte) (s : State) : State :=
  if s.flt.deviceError then s else eventTo code items s m

/-- A cause of MG_ALERT: 0 throttle, 1 device error, 2 sensor, 3 warning, 4 licence, 5 image, 6 unit (R490). -/
def raiseAlert (i : Nat) (s : State) : State := { s with mg := { s.mg with alert := s.mg.alert ||| BitVec.twoPow 7 i } }

/-- ALERT_N is held low while a cause and its enable are both 1 (R491). -/
def alertN (s : State) : Bool := s.mg.alert &&& s.mg.alertEn == 0

/-- A change of BU_FAULT: MSI-X vector 128 (R382). -/
def buFault (step code detail : Nat) (s : State) : State :=
  msix 128 { s with bu := { s.bu with fltValid := true, fltStep := step, fltCode := code, fltDetail := detail } }

end Sys2Proof.Machine
end

