-- ==== Sys2Proof/Machine/Commands.lean ====
section
/-! DEFINITION. Mailbox commands: opcodes, deadlines, the header checks of a fetched command, its start, its reply
and its completion entry (R386 to R396, R403 to R405). -/

namespace Sys2Proof.Machine

open Sys2Proof

/-! ### Status codes (R392) -/

def stOk := 0x00
def stAccepted := 0x01
def stBusy := 0x02
def stBadOpcode := 0x03
def stBadField := 0x04
def stOutOfRange := 0x05
def stTimedOut := 0x06
def stNoResource := 0x07
def stNotLicensed := 0x08
def stAuthFailed := 0x09
def stAlreadyDone := 0x0A
def stAborted := 0x0B
def stDegraded := 0x0C
def stCapacity := 0x0D
def stPartitionResetting := 0x0E
def stDeviceError := 0x0F

/-- What a command answers: its status, DETAIL, RESULT bytes 8 to 23 and its output; `wait` says that its
work goes on, so that a later event decides its status, and `commit` whether it has committed by then. -/
structure Reply where
  status : Nat := 0
  detail : Nat := 0
  result : List Byte := []
  output : List Byte := []
  wait : Bool := false
  commit : Bool := true
  deriving DecidableEq, Repr

/-- A refusal with DETAIL. -/
def Reply.no (status : Nat) (detail : Nat := 0) : Reply := { status := status, detail := detail }

/-- Number of commands of a group: opcodes 0x0g01 to 0x0gnn without gaps; 0 for a group with gaps (R403). -/
def groupSize : Nat → Nat
  | 0x02 => 3 | 0x03 => 5 | 0x04 => 7 | 0x05 => 10 | 0x06 => 5 | 0x07 => 4 | 0x08 => 9
  | 0x09 => 4 | 0x0A => 6 | 0x0B => 2 | 0x0C => 3 | 0x0D => 7 | 0x0E => 5 | _ => 0

/-- Whether R403 defines the opcode. -/
def opcodeDefined (op : Nat) : Bool :=
  if op / 256 = 1 then [0x01, 0x02, 0x03, 0x10, 0x11, 0x12, 0x13, 0x20, 0x21, 0x22, 0x23, 0x30, 0x31, 0x32].contains (op % 256)
  else decide (1 ≤ op % 256 ∧ op % 256 ≤ groupSize (op / 256))

/-- Default and largest deadline of an opcode in ms (R403). -/
def deadlines (op : Nat) : Nat × Nat :=
  match op with
  | 0x0110 => (1000, 60000)
  | 0x0302 => (1000, 10000)
  | 0x0402 => (1000, 60000)
  | 0x0404 => (100, 1000)
  | 0x0502 => (10000, 60000)
  | 0x0602 => (100, 10000)
  | 0x0803 => (100, 10000)
  | 0x0805 => (100, 10000)
  | 0x0A05 => (10000, 60000)
  | _ =>
    match op / 256 with
    | 0x01 => (100, 10000) | 0x02 => (100, 10000) | 0x05 => (100, 10000) | 0x0A => (100, 10000)
    | _ => (10, 1000)

/-! ### Commands in progress -/

/-- The command with key `k`, if it is in progress. -/
def cmdOf (s : State) (k : Nat) : Option Cmd := s.cmds.find? (fun c => c.key == k)

/-- The commands with the one of key `k` changed. -/
def modCmd (k : Nat) (g : Cmd → Cmd) (s : State) : State :=
  { s with cmds := s.cmds.map (fun c => if c.key = k then g c else c) }

/-- Commands of a source fetched before command `k` and still in progress. -/
def earlierCmds (s : State) (c : Cmd) : List Cmd := (s.cmds.takeWhile (fun d => d.key != c.key)).filter (fun d => d.src == c.src)

/-- An ORDERED command that has not started, because an earlier command of its mailbox is in progress (R387). -/
def heldBack (s : State) (c : Cmd) : Bool :=
  c.ordered && !c.decided && !c.started && !(earlierCmds s c).isEmpty

/-- Command `c` may start: it has not started, every earlier command of its mailbox has, and an ORDERED one finds them complete (R387). -/
def mayStart (s : State) (c : Cmd) : Bool := !c.decided && !c.started && !heldBack s c && (earlierCmds s c).all Cmd.started

/-- The status of a command is decided, once (R392); COMMAND_COMPLETE reports it. -/
def Cmd.answer (c : Cmd) (r : Reply) : Cmd :=
  if c.decided then c
  else
    { c with
      started := true, committed := true, decided := true, status := r.status, detail := r.detail
      result := fitBytes 16 r.result, output := r.output }

/-- A command that has committed and waits gets its status. -/
def finishCmd (k : Nat) (r : Reply) (s : State) : State := modCmd k (fun c => c.answer r) s

/-- A command has started, and its answer is still to come; `commit` when it has committed (R393). -/
def startCmd (k : Nat) (commit : Bool) (s : State) : State :=
  modCmd k (fun c => { c with started := true, committed := c.committed || commit }) s

/-- DEADLINE stands above the largest of the command's opcode (R390, R393). -/
def Cmd.tooLate (c : Cmd) : Bool := decide ((deadlines c.opcode).2 < bytesAt c.entry 6 2)

/-- The reply of a command whose DEADLINE is too large: EXT_LEN below its need, which stands before it, or DEADLINE (R390, R391). -/
def lateReply (r : Reply) : Reply := if r.status = stBadField ∧ r.detail = 5 then r else .no stOutOfRange 6

/-- Running the command with key `k` and opcode `op`: its checks, its commit and its effect (R390, R393). The body answers
the state after the effect (unchanged when it refuses) and the reply. In device error the mailbox engine has already
answered every command (R396). Before release the security block serves the management interface itself (R488). -/
def runCmd (k op : Nat) (body : Cmd → State → State × Reply) (s : State) : State :=
  match cmdOf s k with
  | none => s
  | some c =>
    if c.opcode = op ∧ mayStart s c = true ∧ (s.stw.ready || c.src == 64) = true then
      let x := body c s
      if c.tooLate then finishCmd k (lateReply x.2) s
      else if x.2.wait then startCmd k x.2.commit x.1 else finishCmd k x.2 x.1
    else s

/-- Payload field of the command entry, or of the extended buffer from byte 64 on (R389). -/
def Cmd.at (c : Cmd) (i n : Nat) : Nat := if i < 64 then bytesAt c.entry i n else bytesAt c.ext (i - 64) n

/-- A check of a command: the reply that refuses it, or none. -/
def orElse (l : List (Bool × Reply)) : Option Reply := (l.find? (fun x => x.1)).map Prod.snd

/-- Unused payload bytes [i, j) are zero (R388, R391). -/
def Cmd.zero (c : Cmd) (i j : Nat) : Bool := c.at i (j - i) == 0

/-- The first byte of [i, j) that is not zero, for DETAIL (R391). -/
def Cmd.firstBad (c : Cmd) (i j : Nat) : Nat :=
  ((List.range (j - i)).find? (fun n => c.at (i + n) 1 != 0)).map (fun n => i + n) |>.getD i

/-- The refusal of non-zero reserved bytes [i, j). -/
def Cmd.rsvd (c : Cmd) (i j : Nat) : Bool × Reply := (!c.zero i j, .no stBadField (c.firstBad i j))

/-- The refusal of a field that fails R391 with `bad_field`. -/
def badField (b : Bool) (off : Nat) : Bool × Reply := (b, .no stBadField off)

/-- The refusal of a value that fails R391 with `out_of_range`. -/
def outOfRange (b : Bool) (off : Nat := 0) : Bool × Reply := (b, .no stOutOfRange off)

/-- The refusal of an extended buffer shorter than the command's need of `n` bytes (R390, R514). -/
def Cmd.extNeed (c : Cmd) (n : Nat) : Bool × Reply := badField (decide (64 * c.extLen < n)) 5

/-- A refusal with no detail. -/
def refuse (b : Bool) (st : Nat) : Bool × Reply := (b, .no st)

/-- Measurement register `i` is extended by `d`: M ← SHA-384(M ‖ d) (R477). -/
def extendMeas (i : Nat) (d : List Byte) (s : State) : State :=
  { s with sec := { s.sec with meas := s.sec.meas.set i (Config.sha384 (s.sec.meas.getD i [] ++ d)) } }

/-- M5 is extended by the SHA-384 of the payload of an accepted configuration command, at its commit (R477). -/
def extendConfig (c : Cmd) (s : State) : State := extendMeas 5 (Config.sha384 (c.entry.drop 16 ++ c.ext)) s

/-- A body that checks first and then acts. -/
def checked (l : List (Bool × Reply)) (act : State → State × Reply) (s : State) : State × Reply :=
  match orElse l with
  | some r => (s, r)
  | none => act s

end Sys2Proof.Machine
end

