-- ==== Sys2Proof/Machine/Memory.lean ====
section
/-! DEFINITION. Device memory: the address map (R286 to R300), the (80,64) code (R291, R292), poison (R293, R294), and the
reads and writes of bytes through it. -/

namespace Sys2Proof.Machine

open Sys2Proof

/-! ### Partitions and licences -/

/-- Licence bits of `dev.info` (R406): 0 COLOUR4, 1 LINK24, 2 DDRTIER, 3 PARTITION, 4 MANIFEST64K, 5 SYSTEM12K. -/
def licensed (s : State) (i : Nat) : Bool := s.bu.licences.getLsbD i

/-- The partition that owns field `f` (R340). -/
def partOfField (s : State) (f : Nat) : Nat := f * s.net.parts / 32

/-- The partition that owns stream `x` (R232). -/
def partOfStream (s : State) (x : Nat) : Nat := x * s.net.parts / 64

/-- The partition that owns mailbox `m` (R340). -/
def partOfMb (s : State) (m : Nat) : Nat := m * s.net.parts / 64

/-- The fields of partition `p` in rising order (R340). -/
def fieldsOfPart (s : State) (p : Nat) : List Nat := (List.range 32).filter (fun f => partOfField s f == p)

/-- Manifest entries: 65,536, or 4,096 without MANIFEST64K (R3, R248). -/
def manifestSize (s : State) : Nat := if licensed s 4 then 65536 else 4096

/-- The partition whose share of the manifest holds entry `i` (R340). -/
def partOfEntry (s : State) (i : Nat) : Nat := i * s.net.parts / manifestSize s

/-- A partition's reset is in progress (R343). -/
def resetting (s : State) (p : Nat) : Bool := (s.partOf p).resetting

/-! ### The address map -/

/-- Data bytes of one HBM stack: 102.4 GB (R296). -/
def stackBytes : Nat := 102400000000

/-- Base of HBM window `p` with `P` partitions (R295). -/
def windowBase (P p : Nat) : Nat := if P = 2 then p * 0x008F0D180000 else if P = 4 then p * 0x0047868C0000 else 0

/-- The stacks of partition `p` under R295, whether or not they serve. -/
def stacksOfPart (P p : Nat) : List Nat := (List.range (12 / P)).map (fun i => 12 / P * p + i)

/-- Where an address lies (R286, R288). -/
inductive Loc where
  | hbm (p u : Nat)
  | ddr (u : Nat)
  | feed (f : Nat)
  | accv (f : Nat)
  | coreMem (c : Nat)
  | steward
  | manifest
  | unmapped
  deriving DecidableEq, Repr

/-- The stack that holds byte `off` of a window with the given stacks (R296). -/
def stackAt (sts : List Nat) (off : Nat) : Nat := sts.getD (off / 256 % sts.length) 0

/-- Bytes of the DDR tier: C × D GB (R298 to R300). -/
def ddrBytes (s : State) : Nat := s.memTop.ddrC.length * (s.memTop.ddrD * 1000000000)

/-- Stacks of window `p` now in the interleave (R297). -/
def windowStacks (s : State) (p : Nat) : List Nat := tget [] s.memTop.windows p

/-- The HBM part of the address map. -/
def locHbm (s : State) (a : Nat) : List Nat → Loc
  | [] => .unmapped
  | p :: l =>
    let b := windowBase s.net.parts p
    let st := windowStacks s p
    if b ≤ a ∧ a < b + st.length * stackBytes then .hbm p (stackAt st (a - b)) else locHbm s a l

/-- Where device address `a` lies. -/
def locOf (s : State) (a : Nat) : Loc :=
  if a < 0x400000000000 then locHbm s a (List.range s.net.parts)
  else if a < 0x400000000000 + ddrBytes s then
    .ddr (s.memTop.ddrC.getD ((a - 0x400000000000) / 4096 % s.memTop.ddrC.length) 16)
  else if a < 0x7F0000000000 then .unmapped
  else
    let o := a - 0x7F0000000000
    if o < 0x40000000 then
      if o % 0x2000000 < 0x1800000 then .feed (o / 0x2000000) else .accv (o / 0x2000000)
    else if o < 0x60000000 then .coreMem ((o - 0x40000000) / 0x40000)
    else if o < 0x60C00000 then .steward
    else if o < 0x61000000 then .manifest
    else .unmapped

/-- The memory unit of a location: 0 to 11 stacks, 16 to 27 channels, 31 none. -/
def Loc.unit : Loc → Nat
  | .hbm _ u => u
  | .ddr u => u
  | _ => 31

/-- The partition of a location that a partition reset closes (R343): window, feed SRAM, accumulator and core-local
windows. -/
def Loc.part (s : State) : Loc → Option Nat
  | .hbm p _ => some p
  | .feed f => some (partOfField s f)
  | .accv f => some (partOfField s f)
  | .coreMem c => some (partOfField s (c / 64))
  | _ => none

/-- Who accesses memory. -/
inductive Agent where
  | host
  | steward
  | core (p : Nat)
  deriving DecidableEq, Repr

/-- Whether the agent may read (or write) the location (R288). -/
def reach (s : State) (ag : Agent) (wr : Bool) (l : Loc) : Bool :=
  match l, ag with
  | .unmapped, _ => false
  | .hbm _ _, .core p => decide (l.part s = some p)
  | .hbm _ _, _ => true
  | .ddr _, _ => true
  | .feed f, .core p => decide (partOfField s f = p)
  | .feed _, _ => true
  | .accv f, .core p => !wr && decide (partOfField s f = p)
  | .accv _, _ => !wr
  | .coreMem c, .core p => decide (partOfField s (c / 64) = p)
  | .coreMem _, _ => true
  | .steward, .steward => true
  | .steward, _ => false
  | .manifest, .steward => true
  | .manifest, _ => !wr

/-- The end of the window or region in which `a` lies (R286, R288, R295). -/
def regionEnd (s : State) (a : Nat) : Nat :=
  match locOf s a with
  | .hbm p _ => windowBase s.net.parts p + (windowStacks s p).length * stackBytes
  | .ddr _ => 0x400000000000 + ddrBytes s
  | .feed f => 0x7F0000000000 + 0x2000000 * f + 0x1800000
  | .accv f => 0x7F0000000000 + 0x2000000 * f + 0x2000000
  | .coreMem c => 0x7F0040000000 + 0x40000 * (c + 1)
  | .steward => 0x7F0060C00000
  | .manifest => 0x7F0061000000
  | .unmapped => a + 1

/-- The first address of [a, e) outside the agent's reach, window by window; the map has fewer than 2,200 windows. -/
def firstOutside (s : State) (ag : Agent) (wr : Bool) : Nat → Nat → Nat → Option Nat
  | 0, a, _ => some a
  | k + 1, a, e =>
    if !reach s ag wr (locOf s a) then some a
    else if e ≤ regionEnd s a then none else firstOutside s ag wr k (regionEnd s a) e

/-- The first address of [a, a+n) outside the agent's reach (R290). -/
def outsideReach (s : State) (ag : Agent) (wr : Bool) (a n : Nat) : Option Nat := if n = 0 then none else firstOutside s ag wr 2200 a (a + n)

/-- The whole range [a, a+n) lies within the agent's reach. -/
def reachRange (s : State) (ag : Agent) (wr : Bool) (a n : Nat) : Bool := (outsideReach s ag wr a n).isNone

/-! ### The (80,64) code -/

/-- g(x) = (x + 1)·m1(x)·m3(x) over GF(2), with m1 = x^7 + x^3 + 1 and m3 = x^7 + x^3 + x^2 + x + 1 (R291). -/
def codeG : Nat := 0xC599

/-- One step of the division by g: the remainder, times x, plus the next coefficient. -/
def codeStep (r : Nat) (b : Bool) : Nat :=
  let v := 2 * r + b01 b
  if v < 2 ^ 15 then v else v ^^^ codeG

/-- The check field C[14:0] of data D with poison bit P: i(x)·x^15 mod g(x) (R291). -/
def codeCheck (d : BitVec 64) (p : Bool) : BitVec 15 :=
  let info := p :: ((List.range 64).map (fun k => d.getLsbD (63 - k)))
  BitVec.ofNat 15 ((info ++ List.replicate 15 false).foldl codeStep 0)

/-- The 80-bit code word: w[63:0] data, w[78:64] check, w[79] poison (R291). -/
def codeWord (d : BitVec 64) (p : Bool) : BitVec 80 :=
  BitVec.ofNat 80 (d.toNat + 2 ^ 64 * (codeCheck d p).toNat + 2 ^ 79 * b01 p)

/-- The code-word position of bit `i` of w: C in 0 to 14, D in 15 to 78, P in 79 (R291). -/
def codePos (i : Nat) : Nat := if i < 64 then 15 + i else if i < 79 then i - 64 else 79

/-- x^n mod g(x). -/
def codePow : Nat → Nat
  | 0 => 1
  | n + 1 => codeStep (codePow n) false

/-- The syndromes of the single errors in w[0] to w[79]. -/
def codeSyn : List Nat := (List.range 80).map (fun i => codePow (codePos i))

/-- The syndrome of an error pattern. -/
def syndrome (e : BitVec 80) : Nat :=
  ((List.range 80).zip codeSyn).foldl (fun a x => if e.getLsbD x.1 then a ^^^ x.2 else a) 0

/-- The pair (i, j) of single errors whose syndromes sum to `sy`, if there is one. -/
def pairFor (sy : Nat) : Option (Nat × Nat) :=
  ((List.range 80).zip codeSyn).findSome? (fun x =>
    (((List.range 80).zip codeSyn).find? (fun y => x.1 < y.1 && (x.2 ^^^ y.2) == sy)).map (fun y => (x.1, y.1)))

/-- The decoder's answer for an error pattern: the pattern it takes to have occurred, or none for an uncorrectable
word (R292). -/
def decodeErr (e : BitVec 80) : Option (BitVec 80) :=
  let sy := syndrome e
  if sy = 0 then some 0
  else match ((List.range 80).zip codeSyn).find? (fun x => x.2 == sy) with
    | some x => some (BitVec.twoPow 80 x.1)
    | none => (pairFor sy).map (fun p => BitVec.twoPow 80 p.1 ||| BitVec.twoPow 80 p.2)

/-! ### Words -/

/-- The eight bytes of data word `w` (address 8·w) as memory holds them. -/
def rawWord (s : State) (w : Nat) : BitVec 64 := BitVec.ofNat 64 (leNat (Memory.readN s.mem (8 * w) 8))

/-- Memory with data word `w` at `d`. -/
def putWord (s : State) (w : Nat) (d : BitVec 64) : State :=
  { s with mem := Memory.writeN s.mem (8 * w) (leBytes 8 d.toNat) }

/-- Entries of a list of beats that lie within the last second. -/
def lastSecond (now : Nat) (l : List Nat) : List Nat := l.filter (fun b => now < b + 1000000)

/-- A unit's controller counts a correctable word (R304). -/
def countCe (u : Nat) (s : State) : State :=
  if u < 31 then
    s.modUnit u (fun m => { m with ce := if m.ce = BitVec.allOnes 32 then m.ce else m.ce + 1
                                   ceWin := s.tim.beat :: lastSecond s.tim.beat m.ceWin })
  else s

/-- A unit's controller counts an uncorrectable word and posts MEM_UE, at most 16 times a second per unit (R293). SRAM words
count at no unit (DEDUCED, assumption log 13). -/
def countUe (u a : Nat) (s : State) : State :=
  let s := { s with memTop := { s.memTop with lastUe := a } }
  if u < 31 then
    let m := s.unit u
    let recent := lastSecond s.tim.beat m.uePosts
    let s := s.setUnit u { m with ue := if m.ue = BitVec.allOnes 32 then m.ue else m.ue + 1
                                  ueWin := s.tim.beat :: lastSecond s.tim.beat m.ueWin
                                  uePosts := if recent.length < 16 then s.tim.beat :: recent else recent }
    if recent.length < 16 then post 0x0110 (leBytes 6 a) s else s
  else post 0x0110 (leBytes 6 a) s

/-- Accumulator cell of a byte of the accumulator window: key (field*2048+row)*1024+cell (R288). -/
def accKeyAt (a : Nat) : Nat :=
  let o := a - 0x7F0000000000
  (o / 0x2000000 * 2048 + (o % 0x2000000 - 0x1800000) / 4096) * 1024 + o % 4096 / 4

/-- Device address of row `row` of field `f`'s accumulator array (R288). -/
def accAddr (f row : Nat) : Nat := 0x7F0000000000 + 0x2000000 * f + 0x1800000 + 4096 * row

/-- The cell with the 32 error bits `e` in its value, and P set in all three copies where `bad`. -/
def AccCell.upset (e : Nat) (bad : Bool) (c : AccCell) : AccCell :=
  { c with val := signed 32 (image 32 c.val ^^^ e), P := c.P || bad, dis := if bad then c.dis &&& 0xDB else c.dis }

/-- Errors `e` in the cell's nine stored flag bits, three copies of T, O and P: each flag reads as the majority of its copies (R113). -/
def AccCell.flipFlags (e : BitVec 9) (c : AccCell) : AccCell :=
  let d := c.dis ^^^ e
  let turned := fun (j : Nat) => decide (2 ≤ ((List.range 3).filter (fun k => d.getLsbD (3 * k + j))).length)
  let mask := fun (j : Nat) => if turned j then (BitVec.ofNat 9 (0x49 * 2 ^ j)) else 0
  { c with T := c.T != turned 0, O := c.O != turned 1, P := c.P != turned 2, dis := d ^^^ mask 0 ^^^ mask 1 ^^^ mask 2 }

/-- A read of accumulator word `w`, cells 2k and 2k + 1, which holds error pattern `e` (R113): corrected and rewritten, or P set on both
cells and their values left as read. -/
def touchAcc (s : State) (w : Nat) (e : BitVec 80) : State :=
  let rest := match decodeErr e with
    | some g => (e ^^^ g, (e ^^^ g).getLsbD 79)
    | none => (e, true)
  let s := s.modAccCell (accKeyAt (8 * w)) (AccCell.upset (bits rest.1.toNat 0 32) rest.2)
  let s := s.modAccCell (accKeyAt (8 * w + 4)) (AccCell.upset (bits rest.1.toNat 32 32) rest.2)
  let s := s.setErr w 0
  if decodeErr e = none then countUe 31 (8 * w) s else s

/-- A read meets word `w` of plain memory, which holds error pattern `e`: corrected and rewritten (R303), or converted to a poisoned
word (R293). -/
def touchPlain (s : State) (w : Nat) (e : BitVec 80) : State :=
  let d := rawWord s w
  let p := s.poisoned w
  let u := (locOf s (8 * w)).unit
  match decodeErr e with
  | some g =>
    let rest := e ^^^ g
    let s := (putWord s w (d ^^^ (rest.setWidth 64))).setErr w 0
    let s := s.setPoisoned w (p != rest.getLsbD 79)
    if g = 0 then s else countCe u s
  | none =>
    let s := (putWord s w (d ^^^ (e.setWidth 64))).setErr w 0
    countUe u (8 * w) (s.setPoisoned w true)

/-- A read meets word `w`, which holds error pattern `e`. -/
def touchWord (s : State) (w : Nat) (e : BitVec 80) : State :=
  match locOf s (8 * w) with
  | .accv _ => touchAcc s w e
  | _ => touchPlain s w e

/-- A read of the words that `q` picks by their controllers: every one that holds bit errors is corrected or converted (R292, R293,
R303). -/
def touchWhere (q : Nat → Bool) (s : State) : State :=
  (s.errs.filter (fun x => q x.1)).foldl (fun s x => touchWord s x.1 x.2) s

/-- A read of the words of [a, a+n). -/
def touch (a n : Nat) (s : State) : State := touchWhere (fun w => decide (a / 8 ≤ w ∧ 8 * w < a + n)) s

/-- A read of row `row` of field `f`'s accumulator array. -/
def touchRow (f row : Nat) (s : State) : State := touch (accAddr f row) 4096 s

/-- Bit errors `e` arise at `a`: in word a/8; at an odd address of an accumulator word, in the 18 stored flag bits of its two cells, the lower cell's
in bits 0 to 8 (R113, assumption log 7). -/
def upsetAt (s : State) (a : Nat) (e : BitVec 80) : State :=
  match a % 8, locOf s (a / 8 * 8) with
  | 1, .accv _ =>
    (s.modAccCell (accKeyAt (a / 8 * 8)) (AccCell.flipFlags (e.extractLsb' 0 9))).modAccCell (accKeyAt (a / 8 * 8 + 4)) (AccCell.flipFlags (e.extractLsb' 9 9))
  | _, _ => s.setErr (a / 8) (s.err (a / 8) ^^^ e)

/-- Bit errors arise in memory since the last access (assumption log 7). -/
def upset (flips : List (Nat × BitVec 80)) (s : State) : State := flips.foldl (fun s x => upsetAt s x.1 x.2) s

/-- The manifest entry as memory shows it (R248). -/
def entryBytes (e : Manifest) : List Byte :=
  leBytes 8 e.reqId.toNat ++ leBytes 1 (e.state + 4 * b01 e.valid + 8 * b01 e.carried) ++ [0] ++
  leBytes 2 e.inflight ++ leBytes 4 e.epoch ++ leBytes 4 e.epochPrev ++ leBytes 4 e.switchLen ++
  leBytes 6 e.kptr ++ [0, 0] ++ leBytes 6 e.vptr ++ [0, 0] ++ leBytes 4 e.stride ++ leBytes 4 e.length ++
  leBytes 4 e.limit ++ [0, 0, 0, 0] ++ leBytes 8 e.user.toNat

/-- The data byte at `a`, wherever it lies. -/
def rdByte (s : State) (a : Nat) : Byte :=
  match locOf s a with
  | .accv _ => (leBytes 4 (image 32 (s.accCell (accKeyAt a)).val)).getD (a % 4) 0
  | .manifest => (entryBytes (s.entry ((a - 0x7F0060C00000) / 64))).getD (a % 64) 0
  | _ => Memory.read s.mem a

/-- Word `w` is read as poisoned: its own P, a fenced unit (R297), or a P flag of an accumulator cell (R288). -/
def wordBad (s : State) (w : Nat) : Bool :=
  let l := locOf s (8 * w)
  s.poisoned w || (s.unit l.unit).state == 3 ||
  (match l with
   | .accv _ => (s.accCell (accKeyAt (8 * w))).P || (s.accCell (accKeyAt (8 * w + 4))).P
   | .unmapped => true
   | _ => false)

/-- The `n` bytes at `a`, read after `touch`. -/
def rdBytes (s : State) (a n : Nat) : List Byte := (List.range n).map (fun i => rdByte s (a + i))

/-- The words that [a, a+n) touches. -/
def wordsOf (a n : Nat) : List Nat :=
  if n = 0 then [] else (List.range ((a + n - 1) / 8 - a / 8 + 1)).map (fun i => a / 8 + i)

/-- Some word of [a, a+n) is read as poisoned. -/
def anyBad (s : State) (a n : Nat) : Bool := (wordsOf a n).any (wordBad s)

/-- The little-endian number in the `n` bytes at `a`. -/
def rdNat (s : State) (a n : Nat) : Nat := leNat (rdBytes s a n)

/-- A write at `a` is discarded: its unit is fenced (R297), or no memory stands there that a write reaches (R288, R290). -/
def noStore (s : State) (a : Nat) : Bool :=
  match locOf s a with
  | .unmapped => true
  | .accv _ => true
  | .manifest => true
  | l => (s.unit l.unit).state == 3

/-- One byte stored, unless writes there are discarded. -/
def putByte (s : State) (a : Nat) (v : Byte) : State :=
  if noStore s a then s else { s with mem := Memory.write s.mem a v }

/-- Bytes stored from `a`. -/
def putBytesAt (s : State) (a : Nat) : List Byte → State
  | [] => s
  | v :: l => putBytesAt (putByte s a v) (a + 1) l

/-- The poison flag of word `w` after a write that covers `full` of it and brings poison `bad` (R293, R294). -/
def putPoison (s : State) (w : Nat) (full bad : Bool) : State :=
  if noStore s (8 * w) then s
  else (s.setPoisoned w (bad || (!full && s.poisoned w))).setErr w 0

/-- Word `w` lies whole within [a, a+n). -/
def wholeWord (a n w : Nat) : Bool := decide (a ≤ 8 * w ∧ 8 * w + 8 ≤ a + n)

/-- The device's write of bytes from `a`; `bad w` says which words the data brings as poisoned. A part-written word is read,
merged and stored (R294). -/
def wrBytes (a : Nat) (l : List Byte) (bad : Nat → Bool) (s : State) : State :=
  let ws := wordsOf a l.length
  let s := ((ws.filter (fun w => !wholeWord a l.length w)).foldl (fun s w => touch (8 * w) 8 s) s)
  let s := putBytesAt s a l
  ws.foldl (fun s w => putPoison s w (wholeWord a l.length w) (bad w)) s

/-- The device's write of clean bytes. -/
def wrClean (a : Nat) (l : List Byte) (s : State) : State := wrBytes a l (fun _ => false) s

/-! ### Requests that a unit holds -/

/-- Words of [a, a+n) lie on memory unit `u`. -/
def touchesUnit (s : State) (u a n : Nat) : Bool :=
  if n = 0 then false
  else
    let gran := if a < 0x400000000000 then 256 else 4096
    let cnt := (a + n - 1) / gran - a / gran + 1
    (List.range (min cnt 12)).any (fun i => (locOf s (if i = 0 then a else (a / gran + i) * gran)).unit == u)

/-- Unit `u` holds the requests for it: it retrains, is contained, or is being zeroed for the first time (R301, R306, R457). -/
def unitHolds (s : State) (u : Nat) : Bool := decide (u < 31) && ((s.unit u).state == 2 || (s.unit u).hold || (s.unit u).zeroing)

/-- Requests for one of the ranges `l`, as address and length, wait at a unit that holds them (R301, R306). -/
def heldAny (s : State) (l : List (Nat × Nat)) : Bool :=
  (List.range 31).any (fun u => unitHolds s u && l.any (fun r => touchesUnit s u r.1 r.2))

/-- A request for [a, a+n) waits so. -/
def held (s : State) (a n : Nat) : Bool := heldAny s [(a, n)]

/-! ### What the host sees (R245) -/

/-- The range covers byte `a`. -/
def Hidden.covers (h : Hidden) (a : Nat) : Bool := decide (h.addr ≤ a ∧ a < h.addr + h.data.length)

/-- The byte at `a` as the host reads it past the writes `l`, oldest first. -/
def seenByte (s : State) (l : List Hidden) (a : Nat) : Byte :=
  match l.find? (fun h => h.covers a) with
  | some h => h.data.getD (a - h.addr) 0
  | none => rdByte s a

/-- Whether the host reads word `w` as poisoned past the writes `l`. -/
def seenBad (s : State) (l : List Hidden) (w : Nat) : Bool :=
  match l.find? (fun h => h.covers (8 * w)) with
  | some h => h.bad.contains w
  | none => wordBad s w

/-- An op of stream `x` is about to write [a, a+n): until a DEVICE or SYSTEM fence of the stream retires, the host reads what stands there now. A range that an
op of the stream has hidden already stays as it was. -/
def hide (x a n : Nat) (s : State) : State :=
  let b := a / 8 * 8
  let m := (a + n + 7) / 8 * 8 - b
  if n = 0 ∨ s.seq.hidden.any (fun h => h.stream == x && h.addr == b && h.data.length == m) then s
  else { s with seq := { s.seq with hidden := s.seq.hidden ++ [{ stream := x, addr := b, data := rdBytes s b m, bad := (wordsOf b m).filter (wordBad s) }] } }

/-- The writes of stream `x` become visible: an older hidden range of another stream shows them too where they came later. -/
def reveal (s : State) (x : Nat) : List Hidden → List Hidden
  | [] => []
  | h :: l =>
    let r := reveal s x l
    if h.stream = x then r
    else
      let newer := fun (a : Nat) => l.any (fun g => g.stream == x && g.covers a)
      { h with
        data := (List.range h.data.length).map (fun i => if newer (h.addr + i) then seenByte s r (h.addr + i) else h.data.getD i 0)
        bad := (wordsOf h.addr h.data.length).filter (fun w => if newer (8 * w) then seenBad s r w else h.bad.contains w) } :: r

/-- The host sees at once what stands in [a, a+n), written by another than an op (R245). -/
def showNow (a n : Nat) (s : State) : State :=
  { s with seq := { s.seq with hidden := s.seq.hidden.map (fun h =>
      { h with
        data := (List.range h.data.length).map (fun i => if a ≤ h.addr + i ∧ h.addr + i < a + n then rdByte s (h.addr + i) else h.data.getD i 0)
        bad := (wordsOf h.addr h.data.length).filter (fun w => if wholeWord a n w then wordBad s w else h.bad.contains w) }) } }

/-- A write of clean bytes that the host sees at once (R245): its own, the steward's, or a completion word. -/
def wrShown (a : Nat) (l : List Byte) (s : State) : State := showNow a l.length (wrClean a l s)

/-- All bytes, poison flags and bit errors with addresses in [a, a+n) cleared: the all-zero code word (R301, R344). -/
def zeroRange (a n : Nat) (s : State) : State :=
  { s with
    mem := s.mem.filter (fun c => !decide (a ≤ c.1 ∧ c.1 < a + n))
    poison := s.poison.filter (fun c => !decide (a ≤ 8 * c.1 ∧ 8 * c.1 < a + n))
    errs := s.errs.filter (fun c => !decide (a ≤ 8 * c.1 ∧ 8 * c.1 < a + n)) }

end Sys2Proof.Machine
end

