-- ==== Sys2Proof/Machine/PackageNet.lean ====
section
/-! DEFINITION. The package network: six dies, seven die-to-die links, the fixed routes, and the packets that a switching link holds (R336 to R338).
Packets that carry state of the block are the host's CXL.mem requests and their responses; the transfers of one op are one step, and packets of
the control class carry nothing that State holds (assumption log 56). -/

namespace Sys2Proof.Machine

open Sys2Proof

/-- The die of a location: 0 to 3 are T0 to T3, 4 is B0, 5 is B1. Stacks H0 to H5 and channels 0 to 5 stand at B0, the others at B1; the steward's and the
manifest's SRAM stand at B0 (R295, R298, R336). -/
def Loc.die : Loc → Nat
  | .hbm _ u => if u < 6 then 4 else 5
  | .ddr u => if u < 22 then 4 else 5
  | .feed f => f / 8
  | .accv f => f / 8
  | .coreMem c => c / 512
  | .steward => 4
  | .manifest => 4
  | .unmapped => 5

/-- The two dies that link Dn joins (R336). -/
def linkEnds : List (Nat × Nat) := [(0, 4), (4, 1), (2, 5), (5, 3), (0, 2), (4, 5), (1, 3)]

/-- The routes of pairs that no link joins (R337). -/
def farRoutes : List (List Nat) := [[0, 4, 1], [2, 5, 3], [0, 2, 5], [1, 3, 5], [2, 0, 4], [3, 1, 4], [0, 4, 5, 3], [1, 4, 5, 2]]

/-- The dies that a packet from `a` to `b` passes: the route of R337, or its reverse. -/
def dieRoute (a b : Nat) : List Nat :=
  if a = b then [a]
  else ((farRoutes ++ farRoutes.map List.reverse).find? (fun r => r.head? == some a && r.getLast? == some b)).getD [a, b]

/-- The link from die `a` to die `b` and its direction: 0 as the table of R336 names its ends, 1 against it. -/
def linkTo (a b : Nat) : Option (Nat × Nat) :=
  match linkEnds.findIdx? (fun e => e == (a, b)), linkEnds.findIdx? (fun e => e == (b, a)) with
  | some n, _ => some (n, 0)
  | none, some n => some (n, 1)
  | none, none => none

/-- The links that a packet from `a` to `b` crosses, in order (R337). -/
def dieHops (a b : Nat) : List (Nat × Nat) := ((dieRoute a b).zip (dieRoute a b).tail).filterMap (fun e => linkTo e.1 e.2)

/-- The buffer of class `c` on link Dn in direction `d` (R337). -/
def netKey (n d c : Nat) : Nat := 6 * n + 3 * d + c

/-- A packet goes on over the hops `l`; at a link that switches it joins the buffer of its class (R338). True where it arrives. -/
def carry (p : NetPkt) : List (Nat × Nat) → State → State × Bool
  | [], s => (s, true)
  | h :: l, s =>
    if (s.netLink h.1).switching then (s.modNetBuf (netKey h.1 h.2 p.cls) (fun b => b ++ [p]), false) else carry p l s

/-- The hops of a packet that has waited for link `n` in direction `d`: that link, then the rest of its route. -/
def hopsLeft (n d : Nat) (p : NetPkt) : List (Nat × Nat) := (dieHops p.src p.dst).dropWhile (fun h => h != (n, d))

/-- A response reaches the host port on B1. -/
def hostAnswer (p : NetPkt) (s : State) : State := { s with memTop := { s.memTop with cxlData := p.data, cxlPoison := p.poison } }

/-- A response of `data` goes from die `d` to the host port. -/
def respond (d : Nat) (data : List Byte) (poison : List Bool) (s : State) : State :=
  let p : NetPkt := { src := d, dst := 5, cls := 1, data := data, poison := poison }
  let r := carry p (dieHops d 5) s
  if r.2 then hostAnswer p r.1 else r.1

/-- The response to a host CXL.mem read (R245, R290, R292). -/
def cxlRespond (a n : Nat) (s : State) : State :=
  let d := (locOf s a).die
  let s := touch a n s
  respond d ((List.range n).map (fun i => seenByte s s.seq.hidden (a + i))) ((wordsOf a n).map (seenBad s s.seq.hidden)) s

end Sys2Proof.Machine
end

