-- ==== Sys2Proof/Machine/OpCore.lean ====
section
/-! DEFINITION. Ops of the beat sequencer: descriptor fields (R236), shape groups and bands (R54 to R59), tokens (R241, R247), manifest
references (R249), holders (R322), retire with the completion word (R260, R261), and what a unit's loss means for ops. -/

namespace Sys2Proof.Machine

open Sys2Proof

/-! ### Flags and reasons (R261, R262) -/

def fSat := 0
def fOvr := 1
def fTaint := 2
def fPoison := 3
def fZero := 4
def fBound := 5
def fStale := 6
def fSlew := 7
def fLight := 8
def fOverrun := 9
def fDegraded := 10

/-- An op with flag `i` set. -/
def Op.flag (i : Nat) (o : Op) : Op := { o with flags := o.flags ||| BitVec.twoPow 11 i }

/-- An op with flag `i` set when `b` holds. -/
def Op.flagIf (b : Bool) (i : Nat) (o : Op) : Op := if b then o.flag i else o

/-! ### Descriptors -/

/-- The little-endian number in descriptor bytes i to i+n−1. -/
def Op.dn (o : Op) (i n : Nat) : Nat := bytesAt o.desc i n

/-- OPCODE of the descriptor. -/
def Op.code (o : Op) : Nat := o.dn 0 1

/-- TAG of the descriptor. -/
def Op.tag (o : Op) : Nat := o.dn 2 2

/-- The header bits EVENT, NO_PROPAGATE and MADV. -/
def Op.wantsEvent (o : Op) : Bool := bit (o.dn 1 1) 0
def Op.noPropagate (o : Op) : Bool := bit (o.dn 1 1) 1
def Op.madv (o : Op) : Bool := bit (o.dn 1 1) 2

/-- The enabled waits: token and target. -/
def Op.waits (o : Op) : List (Nat × Nat) :=
  (if bit (o.dn 4 2) 15 then [(bits (o.dn 4 2) 0 12, o.dn 6 2)] else []) ++
  (if bit (o.dn 8 2) 15 then [(bits (o.dn 8 2) 0 12, o.dn 10 2)] else [])

/-- The token that the op signals, if any. -/
def Op.signals (o : Op) : Option Nat := if bit (o.dn 12 2) 15 then some (bits (o.dn 12 2) 0 12) else none

/-- The count its signal adds: ADD for a `signal` op, else 1 (R241, R247). -/
def Op.signalCount (o : Op) : Nat := if o.code = 0x32 then o.dn 16 2 else 1

/-- The issued, unretired op with key `k`. -/
def opOf (s : State) (k : Nat) : Option Op := s.ops.find? (fun o => o.key == k)

/-- The op with key `k` changed. -/
def modOp (k : Nat) (g : Op → Op) (s : State) : State :=
  { s with ops := s.ops.map (fun o => if o.key = k then g o else o) }

/-- The partition of an op. -/
def Op.part (s : State) (o : Op) : Nat := partOfStream s o.stream

/-- The op was admitted. -/
def Op.admitted (o : Op) : Bool := decide (2 ≤ o.stage)

/-! ### Bands, groups and colours -/

/-- Band `b` of field `f` is in service: neither fenced nor withheld (R55), nor disabled with its field. -/
def bandInService (s : State) (f b : Nat) : Bool :=
  let x := s.field f
  !x.fenced && !x.bandFenced.getLsbD b && !x.bandWithheld.getLsbD b

/-- First field of the partition. -/
def firstField (s : State) (p : Nat) : Nat := 32 / s.net.parts * p

/-- Fields of group `g` of shape `sh` in partition `p` (R56). -/
def groupFields (s : State) (p sh g : Nat) : List Nat :=
  (List.range (2 ^ sh)).map (fun m => firstField s p + g * 2 ^ sh + m)

/-- Number of groups of shape `sh` in a partition (R56). -/
def groupCount (s : State) (sh : Nat) : Nat := 32 / s.net.parts / 2 ^ sh

/-- Field `f` is under recovery (R467). -/
def underRecovery (s : State) (f : Nat) : Bool := s.flt.active.any (fun a => a.kind == 0 && a.index == f)

/-- A field that takes no op: fenced, under recovery (R467), or being disabled (R465). -/
def fieldClosed (s : State) (f : Nat) : Bool :=
  (s.field f).fenced || underRecovery s f || s.flt.disabling.any (fun d => d.1 == 0 && d.2.1 == f)

/-- A group is complete when none of its fields is fenced (R59). -/
def groupComplete (s : State) (p sh g : Nat) : Bool := (groupFields s p sh g).all (fun f => !fieldClosed s f)

/-- A band is usable in a group only when it is in service in every field of it (R58); a band being disabled takes no new op
(R465). -/
def bandUsable (s : State) (p sh g b : Nat) : Bool :=
  groupComplete s p sh g &&
  (groupFields s p sh g).all (fun f =>
    bandInService s f b && !s.flt.disabling.any (fun d => d.1 == 1 && d.2.1 == f && d.2.2.1 == b))

/-- Usable bands of a group as a mask. -/
def usableMask (s : State) (p sh g : Nat) : BitVec 8 :=
  BitVec.ofNat 8 (listMask 8 ((List.range 8).filter (bandUsable s p sh g)))

/-- A colour that no op may use: disabled device-wide (R47), or being disabled (R465). -/
def colourOff (s : State) (g : Nat) : Bool :=
  s.light.disabled.getLsbD g || s.flt.disabling.any (fun d => d.1 == 2 && d.2.1 == g)

/-- The colour set of a mode (0 C1, 1 C2, 2 C4) on the device as it is (R47); none when unavailable. -/
def colourSet (s : State) (mode : Nat) : Option (List Nat) :=
  match mode with
  | 2 => if (List.range 4).any (colourOff s) then none else some [0, 1, 2, 3]
  | 1 => if !colourOff s 0 && !colourOff s 2 then some [0, 2]
         else if !colourOff s 1 && !colourOff s 3 then some [1, 3] else none
  | _ => ((List.range 4).find? (fun g => !colourOff s g)).map (fun g => [g])

/-- The colours of a row map: its mode's set, normal or substitute (R47). -/
def RowMap.colours (m : RowMap) : List Nat :=
  match m.mode with
  | 2 => [0, 1, 2, 3]
  | 1 => if m.c2sub then [1, 3] else [0, 2]
  | _ => [m.c1col]

/-- The (group, band) pairs of a row map in column order: groups rising, usable bands rising (R252). -/
def RowMap.bandList (m : RowMap) : List (Nat × Nat) :=
  ((List.range m.bands.length).map (fun g => ((List.range 8).filter (fun b => (m.bands.getD g 0).getLsbD b)).map (fun b => (g, b)))).flatten

/-- The (group, band) pairs that hold columns of the op (R252). -/
def RowMap.usedBands (m : RowMap) : List (Nat × Nat) := m.bandList.take ((min m.n m.cStep + 31) / 32)

/-- The row map places columns on band `b` of field `f`; `b` = 8 stands for any band (R457). -/
def RowMap.onBand (s : State) (m : RowMap) (f b : Nat) : Bool :=
  let g := (f - firstField s m.part) / 2 ^ m.shapeRun
  decide (partOfField s f = m.part) && m.usedBands.any (fun x => x.1 == g && (b == 8 || x.2 == b))

/-- Rows [r, r+n) of the map and rows [q, q+k) overlap. -/
def rowsOverlap (r n q k : Nat) : Bool := decide (r < q + k ∧ q < r + n)

/-- The row maps of partition `p` that overlap rows [r, r+n). -/
def mapsOver (s : State) (p r n : Nat) : List RowMap :=
  s.rowMaps.filter (fun m => m.part == p && rowsOverlap m.firstRow m.rows r n)

/-- The row maps without those of partition `p` that overlap rows [r, r+n) (R252, R264). -/
def dropMaps (p r n : Nat) (s : State) : State :=
  { s with rowMaps := s.rowMaps.filter (fun m => !(m.part == p && rowsOverlap m.firstRow m.rows r n)) }

/-! ### Units in use -/

/-- The row maps whose rows a drain or save reads: those fixed at admission, else those in force (R457). -/
def Op.rowMapsOf (s : State) (o : Op) : List RowMap :=
  if o.admitted then o.maps else mapsOver s (o.part s) (bits (o.dn 18 2) 0 11) (bits (o.dn 20 2) 0 12)

/-- The op's row maps place columns on band `b` of field `f` (8: any band): an admitted `field.gemm`, or an `acc.drain` or
`acc.save` not yet past its tree fence (R457). -/
def Op.onBand (s : State) (o : Op) (f b : Nat) : Bool :=
  match o.code with
  | 0x01 => o.admitted && o.map.any (fun m => m.onBand s f b)
  | 0x03 => (o.stage == 1 || o.stage == 4) && (o.rowMapsOf s).any (fun m => m.onBand s f b)
  | 0x04 => (o.stage == 1 || o.stage == 4) && (o.rowMapsOf s).any (fun m => m.onBand s f b)
  | _ => false

/-- The op uses the unit (R457, R465): kind 0 field, 1 band, 2 colour, 3 core. Memory units and link quads abort no op. -/
def Op.uses (s : State) (o : Op) (kind index sub : Nat) : Bool :=
  match kind with
  | 0 => o.onBand s index 8
  | 1 => o.onBand s index sub
  | 2 => o.admitted && decide (o.code = 0x01) && o.map.any (fun m => m.colours.contains index)
  | 3 => o.cores.contains (64 * index + sub) ||
         o.clusters.any (fun c => c.2.1 == index && c.2.2 == sub / 16)
  | _ => false

/-! ### Fences -/

/-- Bytes of codes of a K × N tensor (R312). -/
def codeBytes (k n : Nat) : Nat := 65536 * ((k + 255) / 256) * ((n + 255) / 256)

/-- A directory entry with DAMAGED set when its codes, scales or next version touch unit `u` (R334). -/
def Dir.damage (s : State) (u : Nat) (d : Dir) : Dir :=
  if d.valid && (touchesUnit s u d.ptr (codeBytes d.k d.n) || touchesUnit s u d.scalePtr (4 * d.n) ||
      (d.swap != 0 && (touchesUnit s u d.nextPtr (codeBytes d.k d.n) || touchesUnit s u d.nextScalePtr (4 * d.n))))
  then { d with damaged := true } else d

/-- Held host requests of unit `u` are served in order of arrival (R306). -/
def serveHeld (u : Nat) (s : State) : State :=
  let l := s.memTop.heldReqs.filter (fun r => r.1 == u)
  let s := { s with memTop := { s.memTop with heldReqs := s.memTop.heldReqs.filter (fun r => r.1 != u) } }
  l.foldl (fun s r => if r.2.1 then wrShown r.2.2.1 r.2.2.2 s else cxlRespond r.2.2.1 r.2.2.2.length s) s

/-- Number of set bits of a mask. -/
def popcount (n v : Nat) : Nat := ((List.range n).filter (bit v)).length

/-- A port after quads in `q` are taken out: it narrows, or goes down when none remains (R358, R459). -/
def LinkPort.dropQuads (q : BitVec 4) (l : LinkPort) : LinkPort :=
  let ok := l.quadOk &&& ~~~q
  if ok = 0 then { l with quadOk := 0, width := 0, state := if l.state = 3 then 3 else 0 }
  else { l with quadOk := ok, width := popcount 4 ok.toNat - 1 }

/-- A core is fenced: STATE 3; its launch ends for it. -/
def fenceCore (c : Nat) (s : State) : State := s.modCoreOf c (fun x => { x with state := 3, launch := none, stalled := false })

/-- The marking of a unit as fenced, as its governing rule gives it (R459): 0 field, 1 band, 2 colour, 3 core, 4 stack, 5 channel,
6 link quads (`sub` a mask). Ops and queue entries are the caller's. -/
def markFenced (kind index sub : Nat) (s : State) : State :=
  match kind with
  | 0 => s.modField index (fun x => { x with fenced := true })
  | 1 => s.modField index (fun x => { x with bandFenced := x.bandFenced ||| BitVec.twoPow 8 sub
                                             bandWithheld := x.bandWithheld &&& ~~~(BitVec.twoPow 8 sub) })
  | 2 => { s with light := { s.light with disabled := s.light.disabled ||| BitVec.twoPow 4 index } }
  | 3 => fenceCore (64 * index + sub) s
  | 4 => serveHeld index ((s.modUnit index (fun m => { m with state := 3, hold := false })).modDir (fun d => tmap {} d (fun _ e => e.damage s index)))
  | 5 => serveHeld (16 + index) ((s.modUnit (16 + index) (fun m => { m with state := 3, hold := false })).modDir
          (fun d => tmap {} d (fun _ e => e.damage s (16 + index))))
  | 6 => s.modPort index (fun l => { l.dropQuads (BitVec.ofNat 4 sub) with disQuads := l.disQuads ||| BitVec.ofNat 4 sub })
  | _ => s

/-- The items CODE, KIND, SUB and INDEX of the fault events (R470). -/
def faultItems (code kind sub index : Nat) : List Byte := leBytes 2 code ++ leBytes 1 kind ++ leBytes 1 sub ++ leBytes 2 index

/-- A graceful disable that no op holds any more ends: the unit is fenced and the command answered (R465). -/
def endDisable (s : State) (d : Nat × Nat × Nat × Nat × Nat) : State :=
  let (kind, index, sub, cmd, _) := d
  if s.ops.any (fun o => o.admitted && o.uses s kind index sub) then s
  else
    let n := ((cmdOf s cmd).map (fun c => c.aux)).getD 0
    let s := { s with flt := { s.flt with disabling := s.flt.disabling.filter (fun x => x != d) } }
    let s := markFenced kind index (if kind = 6 then 2 ^ sub else sub) s
    let s := post 0x0143 (faultItems 0 kind sub index ++ leBytes 4 n) s
    finishCmd cmd { status := if ((cmdOf s cmd).map (fun c => c.aux2)).getD 0 = 0 then stOk else stDegraded, result := leBytes 4 n } s

/-- Graceful disables whose units no op uses any more end (R465). -/
def endDisables (s : State) : State := (s.flt.disabling.filter (fun d => d.2.2.2.2 != 0)).foldl endDisable s

/-! ### Retire -/

/-- The token's count rises, and ABORT sticks when the signaller aborted (R241, R247). -/
def signalToken (p t n : Nat) (ab : Bool) (s : State) : State :=
  s.modToken (4096 * p + t) (fun x => { count := x.count + BitVec.ofNat 16 n, abort := x.abort || ab })

/-- An old request of partition `p`: VALID, not DONE, of an epoch below the tracked one (R327). -/
def oldRequest (s : State) (p : Nat) (i : Nat) (e : Manifest) : Bool :=
  e.valid && e.state != 3 && decide (partOfEntry s i = p) && decide (e.epoch < (s.swapOf p).trackE)

/-- A named entry at a token boundary: the MADV increment and, under carry-over, the switch of an old request, in one update
(R328, R329). -/
def tokenBoundary (p i : Nat) (s : State) : State :=
  let e := s.entry i
  let w := s.swapOf p
  let e' := { e with length := e.length + 1, gateOrder := none }
  s.setEntry i (if oldRequest s p i e && w.trackCarry then
      { e' with epochPrev := e.epoch, epoch := w.trackE, switchLen := e.length + 1, carried := true } else e')

/-- An entry that an op of one reference less names: OPEN again when INFLIGHT reaches 0 (R249). -/
def releaseEntry (madv : Bool) (i : Nat) (s : State) : State :=
  s.modEntry i (fun e =>
    let n := e.inflight - 1
    { e with inflight := n, state := if e.state = 1 ∧ n = 0 then 0 else e.state
             madvPend := if madv then e.madvPend - 1 else e.madvPend })

/-- The op's manifest references end; a MADV op that retires `done` is a token boundary of each entry (R236, R249, R328). -/
def releaseManifest (o : Op) (aborted : Bool) (s : State) : State :=
  o.named.foldl (fun s i =>
    let s := releaseEntry o.madv i s
    if o.madv && !aborted then tokenBoundary (o.part s) i s else s) s

/-- The entries that a toll gate holds leave HELD (R249, R326). -/
def releaseHeld (o : Op) (s : State) : State :=
  o.held.foldl (fun (s : State) i => s.modEntry i (fun e =>
    if e.state = 2 then { e with state := if e.inflight = 0 then 0 else 1 } else e)) s

/-- HOLDERS or PREV_HOLDERS of the captured version falls by one (R322, R323). -/
def releaseHandle (o : Op) (s : State) : State :=
  match o.holds with
  | none => s
  | some h => s.modDirEntry h (fun d =>
      if o.holdsPrev then { d with prevHolders := d.prevHolders - 1 } else { d with holders := d.holders - 1 })

/-- The fields' slots, loaders and quantisers that the op held fall free. -/
def releaseFields (o : Op) (s : State) : State :=
  { s with fields := tmap {} s.fields (fun f x =>
      { x with quantBusy := if o.code = 0x11 ∧ 2 ≤ o.stage ∧ (maskList 32 (o.dn 40 4)).head? = some f then 0 else x.quantBusy
               slots := if x.slots = some o.key then none else x.slots
               swapWait := x.swapWait && !(x.slots == some o.key)
               loader := if x.loader = some o.key then none else x.loader
               nextOp := if x.nextOp = some o.key then none else x.nextOp }) }

/-- The packets of an aborted move that no link port has yet accepted are dropped (R264). -/
def dropUnsent (o : Op) (s : State) : State :=
  if !o.remote then s
  else
    let unsent := fun (pk : Packet) => decide (pk.type ≤ 2) && o.acks.contains pk.opref && decide (pk.src = s.link.coord)
    let refs := (s.link.own.filter unsent).map (fun pk => pk.opref)
    { s with
      link := { s.link with own := s.link.own.filter (fun pk => !unsent pk) }
      seq := { s.seq with remoteUnacked := s.seq.remoteUnacked.filter (fun u => !refs.contains u.1) } }

/-- The 16 bytes of the completion word (R261). -/
def completionWord (s : State) (o : Op) (aborted : Bool) (reason detail : Nat) : List Byte :=
  leBytes 2 o.tag ++ leBytes 1 (0x80 + b01 aborted) ++ leBytes 1 reason ++ leBytes 2 o.flags.toNat ++
  leBytes 2 detail ++ leBytes 4 ((o.admBeat.map (fun b => s.tim.beat - b)).getD 0) ++ leBytes 1 o.stream ++ [0] ++
  leBytes 2 (o.index % 65536)

/-- The submission counts one more retired descriptor and leaves the queue when all have retired (R233). -/
def countRetired (o : Op) (s : State) : State :=
  s.modStream o.stream (fun x =>
    { x with retired := x.retired + 1
             tags := (o.tag :: x.tags).take 4096
             subs := (x.subs.map (fun u => if u.id = o.sub then { u with retired := u.retired + 1 } else u)).filter
                       (fun u => decide (u.retired < u.count)) })

/-- An `exec.abort` that waits for the op counts its retire, and is answered when none is left (R264, R404). -/
def countAbort (o : Op) (reason : Nat) (s : State) (k : Nat) : State :=
  let s := modCmd k (fun c => { c with wait := c.wait - 1, aux := if reason = 1 then c.aux + 1 else c.aux }) s
  match cmdOf s k with
  | some c =>
    if c.wait = 0 then
      finishCmd k { status := stOk, result := leBytes 4 c.aux ++ leBytes 4 c.aux2 }
        (s.modStream o.stream (fun x => { x with aborting := x.aborting.filter (fun y => y != k) }))
    else s
  | none => s

/-- A launch ends on a core: it is free, and the DMA descriptors that its channels have in progress may finish (R276, R278). -/
def Core.leave (x : Core) : Core := { x with state := if x.state = 3 then 3 else 0, launch := none, stalled := false, dmaLeft := 15 }

/-- An op leaves a core launch or a drain: its cores fall idle. -/
def releaseCores (o : Op) (s : State) : State :=
  let s := o.cores.foldl (fun s c => s.modCoreOf c (fun x =>
    if x.launch = some o.key then x.leave else x)) s
  o.clusters.foldl (fun s c =>
    s.modField c.2.1 (fun x => { x with drain := x.drain &&& ~~~(BitVec.twoPow 4 c.2.2) })) s

/-- A DEVICE or SYSTEM fence that retires `done` shows the writes of its stream's earlier ops to the host (R244, R245). -/
def showFence (o : Op) (aborted : Bool) (s : State) : State :=
  if o.code = 0x30 ∧ 2 ≤ bits (o.dn 16 1) 0 2 ∧ aborted = false then { s with seq := { s.seq with hidden := reveal s o.stream s.seq.hidden } } else s

/-- A completion word goes out: its unit takes it at once, or holds it among its requests (R245, R306). -/
def sendWord (a : Nat) (l : List Byte) (s : State) : State :=
  if held s a l.length then { s with memTop := { s.memTop with heldReqs := s.memTop.heldReqs ++ [((locOf s a).unit, true, a, l)] } } else wrShown a l s

/-- The retire of an op: its one completion word and everything that hangs on it (R245, R260, R261, R247, R249, R322). An aborted,
admitted `field.gemm` deletes the row map of its rows (R264). In device error nothing retires (R468). -/
def retire (k : Nat) (aborted : Bool) (reason detail : Nat) (s : State) : State :=
  match opOf s k with
  | none => s
  | some o =>
    if s.flt.deviceError then s
    else
      let o := o.flagIf (reason == 8) fDegraded
      let s := match o.map with
        | some m => if aborted && o.admitted && o.code == 0x01 then dropMaps m.part m.firstRow m.rows s else s
        | none => s
      let s := releaseManifest o aborted (releaseHeld o (if aborted then dropUnsent o s else s))
      let s := match o.signals with
        | some t => signalToken (o.part s) t o.signalCount aborted s
        | none => s
      let s := showFence o aborted (releaseFields o (releaseCores o (releaseHandle o s)))
      let s := sendWord o.cpl (completionWord s o aborted reason detail) s
      let s := countRetired o s
      let s := if o.wantsEvent then postOne o.mb 0x0101 (leBytes 1 o.stream ++ leBytes 2 o.tag ++ leBytes 2 (o.index % 65536)) s else s
      let s := { s with ops := s.ops.filter (fun x => x.key != k) }
      endDisables (o.abortCmds.foldl (countAbort o reason) s)

/-- The ops in `ks` retire `aborted` with `reason`; DETAIL of an `acc.save` counts the row-map blocks that it has written (R261). -/
def retireAll (ks : List Nat) (reason : Nat) (s : State) : State :=
  ks.foldl (fun s k => retire k true reason (((opOf s k).map (fun o => o.detail)).getD 0) s) s

/-- Keys of the ops that use a unit (R457). -/
def usersOf (s : State) (kind index sub : Nat) : List Nat := (s.ops.filter (fun o => o.uses s kind index sub)).map (fun o => o.key)

end Sys2Proof.Machine
end

