-- ==== Sys2Proof/Machine/CalKeys.lean ====
section
/-! DEFINITION. Calibrated quantities by key, their nominal values, limits and tolerances (R163 to R166, R175, R177), and
the count of procedures that a `cal.run` command waits for (R404). -/

namespace Sys2Proof.Machine

open Sys2Proof

/-! ### Keys

Quantities by number: 0 cell gain entry, 1 cell phase trim, 2 pre-distortion entry, 3 column gain in 2^−16 code products per
code, 4 column offset in 1/16 code, 5 pilot gain in 2^−16 code per input code, 6 LO phase offset in π/2^15 rad, 7 ADC slice
offset in 1/16 code, 8 ADC slice gain in trim steps, 9 ADC slice skew in taps, 10 light monitor scale in 0.01 dB
(assumption log 16). The factory alone sets 11 a tap's power at full scale in 0.01 dBm, 12 the weight of a diode in a zone's temperature in
1/65536 and 13 a converter's reading of its reference buffer, from index 64 on a diode's ideality in 1/16384; 14 and 15 hold what a
row and a cell calibration have measured until their tables stand: a knot's response in 1/16 DAC code, a cell's response (assumption log 9). -/

/-- The key of quantity `q`, index `i`. -/
def calKey (q i : Nat) : Nat := q + 16 * i

def kCellGain (f r c : Nat) : Nat := calKey 0 ((f * 257 + r) * 256 + c)
def kTrim (f r c : Nat) : Nat := calKey 1 ((f * 257 + r) * 256 + c)
def kPre (f r g i : Nat) : Nat := calKey 2 (((f * 257 + r) * 4 + g) * 256 + i)
def kGain (f c g h : Nat) : Nat := calKey 3 (((f * 256 + c) * 4 + g) * 4 + h)
def kOffset (f c g h : Nat) : Nat := calKey 4 (((f * 256 + c) * 4 + g) * 4 + h)
def kPilot (f c g h : Nat) : Nat := calKey 5 (((f * 256 + c) * 4 + g) * 4 + h)
def kLo (f b g : Nat) : Nat := calKey 6 ((f * 8 + b) * 4 + g)
def kSlice (q f c g i : Nat) : Nat := calKey q (((f * 256 + c) * 4 + g) * 16 + i)

/-- Light monitor scale of photodiode `i` of R66, 0 to 79, or of the REFL photodiode in colour i − 80. -/
def kLight (i : Nat) : Nat := calKey 10 i
def kTapScale (i : Nat) : Nat := calKey 11 i
def kZone (slot i : Nat) : Nat := calKey 12 (16 * slot + i)
def kRef (k : Nat) : Nat := calKey 13 k

/-- Ideality of diode `i` of die `d` (18 R439). -/
def kEta (d i : Nat) : Nat := calKey 13 (64 + 16 * d + i)
def kKnot (f r g i : Nat) : Nat := calKey 14 (((f * 257 + r) * 4 + g) * 17 + i)
def kResp (f r c : Nat) : Nat := calKey 15 ((f * 257 + r) * 256 + c)

/-- Divisor h of a HEADROOM code (R96). -/
def headDiv (h : Nat) : Nat := 4 * 2 ^ h

/-- The nominal value of a quantity: g of R96, 64 / g of R165, the table that maps a code to itself, the middle tap; else 0
(PRESUMED, assumption log 9). -/
def calNominal (k : Nat) : Int :=
  match k % 16 with
  | 2 => if k / 16 % 256 = 0 then 0 else (k / 16 % 256 : Nat) - 128
  | 3 => roundEven (4129024 * 65536) (511 * headDiv (k / 16 % 4))
  | 5 => roundEven (64 * 511 * headDiv (k / 16 % 4) * 65536) 4129024
  | 9 => 32
  | 11 => 2500
  | 12 => 4096
  | 13 => if k / 16 < 64 then 4194304 else 16548
  | _ => 0

/-- The factory value: the nominal one and the factory's difference from it (R163). -/
def calFactory (s : State) (k : Nat) : Int := calNominal k + tget 0 s.cal.factory k

/-- The effective value: factory value plus user delta (R163). -/
def calEff (s : State) (k : Nat) : Int := calFactory s k + tget 0 s.cal.user k

/-- The user delta after value `v` is accepted for key `k`. -/
def calSet (v : Nat × Int) (s : State) : State :=
  { s with cal := { s.cal with user := tset 0 s.cal.user v.1 (v.2 - calFactory s v.1) } }

/-- The place that holds the effective value of key `k` takes it: the state of an ADC slice, or the set point of an LO phase loop (R163, R165). -/
def loadValue (s : State) (k : Nat) : State :=
  let i := k / 16
  let v := calEff s k
  match k % 16 with
  | 6 => s.modLoop (512 * (i / 64) + 32 * (i / 32 % 2) + 8 * (i % 4) + i / 4 % 8) (fun l => { l with sp := BitVec.ofInt 16 v })
  | 7 => s.modAdc i (fun a => { a with offset := v })
  | 8 => s.modAdc i (fun a => { a with gainTrim := BitVec.ofInt 8 (128 + v) })
  | 9 => s.modAdc i (fun a => { a with skew := v.toNat })
  | _ => s

/-- The effective value of a quantity lies in its factory trim range, and the user delta in its limit (R165, R34, R99). -/
def calInRange (s : State) (k : Nat) (v : Int) : Bool :=
  let n := calNominal k
  let d := v - calFactory s k
  let rg := fun (lo hi lim : Int) => decide (lo ≤ v ∧ v ≤ hi ∧ -lim ≤ d ∧ d ≤ lim)
  match k % 16 with
  | 0 => rg (-1024) 1024 256
  | 1 => rg (-2047) 2047 512
  | 2 => rg (-127) 127 32
  | 3 => decide (100 * (v - n) ≤ 8 * n ∧ 100 * (n - v) ≤ 8 * n ∧ 100 * d ≤ 2 * n ∧ -(100 * d) ≤ 2 * n)
  | 4 => rg (-512) 512 128
  | 5 => decide (100 * (v - n) ≤ 8 * n ∧ 100 * (n - v) ≤ 8 * n ∧ 100 * d ≤ 2 * n ∧ -(100 * d) ≤ 2 * n)
  | 6 => rg (-32768) 32768 8192
  | 7 => rg (-2047) 2047 512
  | 8 => rg (-128) 127 32
  | 9 => rg 0 63 8
  | 10 => rg (-200) 200 50
  | _ => false

/-- The two estimates of a point agree within the tolerance of R175: the cell null's 0.0005 of transmission is 0.5 mrad, two and
a half trim codes; 16 codes of a gain entry are 1/1024 of the cell's response. -/
def calAgree (k : Nat) (a b : Int) : Bool :=
  let d := if a ≤ b then b - a else a - b
  match k % 16 with
  | 1 => decide (195 * d ≤ 500)
  | 3 => decide (4000 * d ≤ a + b)
  | 4 => decide (d ≤ 4)
  | 5 => decide (400 * d ≤ a + b)
  | 6 => decide (d ≤ 20)
  | 14 => decide (d ≤ 4)
  | 15 => decide (2048 * d ≤ a + b)
  | _ => true

/-- The accepted value: the mean of the two estimates (R175), rounded half to even to the unit of the key (DEDUCED, assumption log
16). -/
def calMean (a b : Int) : Int := roundEven (a + b) 2

/-! ### Procedures a command waits for (R404) -/

/-- A `cal.run` whose procedures have all ended is answered: any failure gives `degraded` (R404). -/
def calCmdEnd (k : Nat) (s : State) : State :=
  if s.bands.any (fun e => e.2.cmd == some k) then s
  else match cmdOf s k with
    | some c => finishCmd k { status := if c.aux2 = 0 then stOk else stDegraded, result := leBytes 4 c.aux ++ leBytes 4 c.aux2 } s
    | none => s

/-- The loop slot of the LO phase loop of band `i` in colour `g` (R140). -/
def loSlot (i g : Nat) : Nat := 512 * (i / 16) + 32 * (i / 8 % 2) + 8 * g + i % 8

/-- The key of the loop state with which the calibration sequencer drives the LO phase shifter of slot `n` (R173). -/
def driveKey (n : Nat) : Nat := 200000 + n

/-- The calibration sequencer lets go of the band's LO phase shifters. -/
def clearDrive (i : Nat) (s : State) : State := (List.range 4).foldl (fun (s : State) g => s.setLoop (driveKey (loSlot i g)) {}) s

/-- The phase-trim holds among `keys` carry the user layer's codes again (R181). -/
def restoreTrims (keys : List Nat) (s : State) : State :=
  { s with cal := { s.cal with trims := (keys.filter (fun k => k % 16 == 1)).foldl (fun t k => tset 0 t k (tget 0 s.cal.user k)) s.cal.trims } }

/-- The band without a procedure: nothing accepted, nothing counted. -/
def Band.fresh (b : Band) : Band :=
  { b with proc := 0, repeats := 0, voids := 0, pend := [], done := false, back := false, point := 0, symbols := 0, marred := false, moves := 0, trimLeft := 0 }

/-- Band `i`'s procedures end without effect: abandoned or failed (R181). -/
def dropProc (i : Nat) (s : State) : State :=
  let b := s.band i
  let s := restoreTrims (b.pend.map Prod.fst) (clearDrive i (s.setBand i { b.fresh with queue := [], cmd := none }))
  match b.cmd with
  | some k => calCmdEnd k (modCmd k (fun c => { c with aux2 := c.aux2 + b.queue.length + (if b.proc = 0 then 0 else 1) }) s)
  | none => s

/-- The band is to run the procedures `proc :: rest` from the next beat edge (R170, R181); any procedure on it is abandoned. -/
def startProc (f b proc : Nat) (rest : List Nat) (cmd : Option Nat) (s : State) : State :=
  (dropProc (8 * f + b) s).modBand (8 * f + b) (fun x => { x with queue := proc :: rest, cmd := cmd })

end Sys2Proof.Machine
end

