-- ==== Sys2Proof/Machine/Faults.lean ====
section
/-! DEFINITION. Faults: containment, the fault queue, recoveries, fences, colour faults and device error (R456 to R470). -/

namespace Sys2Proof.Machine

open Sys2Proof

/-- Whether the fault code is treated by a fence without recovery (R458). -/
def fenceCode (c : Nat) : Bool := [0x01, 0x03, 0x04, 0x05, 0x12, 0x21, 0x23].contains c

/-- SUB tells units of these kinds apart: bands and cores (R460). -/
def subOf (kind sub : Nat) : Nat := if kind = 1 ∨ kind = 3 then sub else 0

/-- Two entries name the same unit. -/
def sameUnit (k i b k' i' b' : Nat) : Bool := k == k' && i == i' && subOf k b == subOf k' b'

/-- A unit is already fenced, or lies in a fenced field (R461). -/
def unitOut (s : State) (kind index sub : Nat) : Bool :=
  match kind with
  | 0 => (s.field index).fenced
  | 1 => (s.field index).fenced || (s.field index).bandFenced.getLsbD sub
  | 2 => s.light.disabled.getLsbD index
  | 3 => (s.field index).fenced || (s.coreOf (64 * index + sub)).state == 3
  | 4 => (s.unit index).state == 3
  | 5 => (s.unit (16 + index)).state == 3
  | 6 => BitVec.ofNat 4 sub &&& ~~~((s.port index).disQuads) == 0
  | _ => false

/-- The unit itself stops at once (R457): bands withheld, the colour at null, the core stopped, requests held, quads dropped. -/
def stopUnit (kind index sub : Nat) (s : State) : State :=
  match kind with
  | 0 => s.modField index (fun x => { x with bandWithheld := ~~~ x.bandFenced })
  | 1 => s.modField index (fun x => { x with bandWithheld := x.bandWithheld ||| (BitVec.twoPow 8 sub &&& ~~~ x.bandFenced) })
  | 2 => { s with light := { s.light with disabled := s.light.disabled ||| BitVec.twoPow 4 index } }
  | 3 => s.modCoreOf (64 * index + sub) (fun x => { x with verified := false })
  | 4 => s.modUnit index (fun m => { m with hold := m.state != 3 })
  | 5 => s.modUnit (16 + index) (fun m => { m with hold := m.state != 3 })
  | 6 => s.modPort index (fun l => l.dropQuads (BitVec.ofNat 4 sub))
  | _ => s

/-- Containment at detection (R457): the unit stops, and every op in flight that uses it retires UNIT_DISABLED. -/
def contain (kind index sub : Nat) (s : State) : State :=
  retireAll (usersOf s kind index sub) 8 (stopUnit kind index sub s)

/-- Device error (R468): FAULT_N low, nothing more admitted, every mailbox command answered `device_error`, `dev.reset` with `accepted`, by the
mailbox engine (R396), the link ports down. The first cause stands. -/
def enterDeviceError (cause : Nat) (s : State) : State :=
  if s.flt.deviceError then s
  else { s with
    flt := { s.flt with deviceError := true, deCause := cause }
    pins := { s.pins with faultN := false }
    tim := { s.tim with admits := false }
    mg := { s.mg with alert := s.mg.alert ||| BitVec.twoPow 7 1 }
    ports := tmap {} s.ports (fun _ l => { l with state := if l.state = 3 then 3 else 0 })
    cmds := s.cmds.map (fun c => c.answer { status := if c.opcode = 0x0102 then stAccepted else stDeviceError }) }

/-- A processed entry moves to the fault log of the last 256 (R461). -/
def logFault (e : FaultE) (outcome : Nat) (s : State) : State :=
  { s with flt := { s.flt with
      log := (s.flt.log ++ [{ e with outcome := outcome, recovering := false }]).drop (s.flt.log.length + 1 - 256) } }

/-- Saturating count to 0xFFFF_FFFF. -/
def satInc (x : BitVec 32) : BitVec 32 := if x = BitVec.allOnes 32 then x else x + 1

/-- `n` more in a count that saturates at 0xFFFF_FFFF. -/
def satAdd (x : BitVec 32) (n : Nat) : BitVec 32 := BitVec.ofNat 32 (min 0xFFFFFFFF (x.toNat + n))

/-- The 64 cores of a field. -/
def coresOf (f : Nat) : List Nat := (List.range 64).map (fun c => 64 * f + c)

/-- Waiting entries for a band or core of field `f` leave the queue as superseded (R461). -/
def supersede (f : Nat) (s : State) : State :=
  let gone := s.flt.queue.filter (fun e => e.index == f && (e.kind == 1 || e.kind == 3))
  let s := { s with flt := { s.flt with queue := s.flt.queue.filter (fun e => !(e.index == f && (e.kind == 1 || e.kind == 3))) } }
  gone.foldl (fun s e => logFault e 3 s) s

/-- The steward fences a unit for a fault (R459): the marking, ops still on it, superseded entries, and with FIELD_POWER on
domain 4·f + 3 the field's cores. A band remembers the colour of a single-colour fault (R463). -/
def fenceFor (e : FaultE) (s : State) : State :=
  let s := contain e.kind e.index e.sub s
  let s := markFenced e.kind e.index e.sub s
  let s := raiseAlert 6 { s with flt := { s.flt with fences := satInc s.flt.fences } }
  match e.kind with
  | 0 =>
    let s := supersede e.index s
    let s := (List.range 8).foldl (fun (s : State) b => dropProc (8 * e.index + b) s) s
    if e.code = 0x04 ∧ !s.pwr.on.contains (4 * e.index + 3) then
      (coresOf e.index).foldl (fun s c => fenceCore c (contain 3 e.index (c % 64) s)) s
    else s
  | 1 =>
    let g := bits e.detail 8 3
    (dropProc (8 * e.index + e.sub) s).modBand (8 * e.index + e.sub) (fun b => { b with
      colFault := if e.code = 0x01 ∧ g < 4 then some g else none })
  | _ => s

/-- The entry is closed by a fence: OUTCOME 2, UNIT_FENCED (R461, R462). -/
def closeFenced (e : FaultE) (s : State) : State :=
  post 0x0142 (faultItems e.code e.kind e.sub e.index) (logFault e 2 (fenceFor e s))

/-- The `dev.unit.enable` commands of an entry are answered (R467). -/
def answerEnable (e : FaultE) (r : Reply) (s : State) : State := e.cmds.foldl (fun s k => finishCmd k r s) s

/-- A disable in progress on the unit of an entry (R466). -/
def disableOn (s : State) (kind index sub : Nat) : Option (Nat × Nat × Nat × Nat × Nat) :=
  s.flt.disabling.find? (fun d => sameUnit d.1 d.2.1 d.2.2.1 kind index sub)

/-- A disable ends because a fault met it: the unit is disabled at once and the command answered `ok` (R466). -/
def disableNow (d : Nat × Nat × Nat × Nat × Nat) (status : Nat) (s : State) : State :=
  let (kind, index, sub, cmd, _) := d
  let users := usersOf s kind index sub
  let n := ((cmdOf s cmd).map (fun c => c.aux)).getD 0 + users.length
  let s := { s with flt := { s.flt with disabling := s.flt.disabling.filter (fun x => x != d) } }
  let s := retireAll users 8 s
  let s := markFenced kind index (if kind = 6 then 2 ^ sub else sub) s
  let s := if kind = 0 then supersede index s else s
  let s := post 0x0143 (faultItems 0 kind sub index ++ leBytes 4 n) s
  finishCmd cmd { status := status, result := leBytes 4 n } s

/-- Entry `x` merges into `e`, which waits (R461): REPEAT, and the more severe of the codes; the commands of both wait for it. -/
def FaultE.merge (e x : FaultE) : FaultE :=
  let e := { e with rpt := true, cmds := e.cmds ++ x.cmds }
  if fenceCode x.code && !fenceCode e.code then { e with code := x.code, detail := x.detail } else e

/-- Entering the queue: merge, overflow (R462), or a new entry with UNIT_FAULT and FAULT_QUEUE_HIGH (R460, R461). -/
def enqueueFault (e : FaultE) (s : State) : State :=
  if s.flt.queue.any (fun x => sameUnit x.kind x.index x.sub e.kind e.index e.sub) then
    { s with flt := { s.flt with
        faults := satInc s.flt.faults
        queue := s.flt.queue.map (fun x =>
          if sameUnit x.kind x.index x.sub e.kind e.index e.sub then x.merge e else x) } }
  else if 64 ≤ s.flt.queue.length then enterDeviceError 4 s
  else
    let s := { s with flt := { s.flt with queue := s.flt.queue ++ [e], faults := satInc s.flt.faults } }
    let s := post 0x0140 (faultItems e.code e.kind e.sub e.index) s
    if s.flt.queue.length = 48 then post 0x0146 (faultItems e.code e.kind e.sub e.index) s else s

/-- The recovery that runs ends with a fence of its unit (R461, R462). -/
def failActive (s : State) : State :=
  match s.flt.active with
  | none => s
  | some a =>
    let s := { s with flt := { s.flt with active := none } }
    let s := closeFenced a s
    let s := answerEnable a { status := stDegraded } s
    match disableOn s a.kind a.index a.sub with
    | some d => disableNow d stOk s
    | none => s

/-- A single-colour CAL_SUSPECT is remembered for R463. -/
def noteColour (code kind index detail : Nat) (s : State) : State :=
  if code = 0x01 ∧ kind = 1 ∧ bits detail 8 3 < 4 then
    { s with light := { s.light with colFaults := (bits detail 8 3, index, s.tim.beat) :: s.light.colFaults } }
  else s

/-- The detection of a unit fault (R457, R461, R462, R466). A fault on a band of a field under recovery is a failure of that recovery (R458). -/
def raiseFault (code kind index sub detail : Nat) (s : State) : State :=
  if s.flt.deviceError then s
  else
    let out := unitOut s kind index sub
    let s := contain kind index sub s
    let onActive := s.flt.active.any (fun a => sameUnit a.kind a.index a.sub kind index sub) || (kind == 1 && underRecovery s index)
    if onActive then noteColour code kind index detail (failActive s)
    else if out then s
    else
      let e : FaultE := { code := code, kind := kind, sub := sub, index := index, beat := s.tim.beat % 2 ^ 32, detail := detail }
      match disableOn s kind index sub with
      | some d => disableNow d stOk (logFault e 4 s)
      | none => enqueueFault e (noteColour code kind index detail s)

/-! ### Recovery -/

/-- A trigger for retraining of unit `u`: merged when the unit already waits or retrains (R305). -/
def triggerRetrain (u : Nat) (s : State) : State :=
  if s.memTop.retrain = some u ∨ s.memTop.queue.contains u then s
  else (s.modUnit u (fun m => { m with queued := true })).modMemTop (fun t => { t with queue := t.queue ++ [u] })

/-- The recovery of the entry's unit starts (R458). A field locks first; its bands are calibrated once it has (R467). A fenced band is withheld while it is
calibrated. -/
def startRecovery (e : FaultE) (s : State) : State :=
  match e.kind with
  | 0 =>
    let s := (List.range 8).foldl (fun (s : State) b => dropProc (8 * e.index + b) s) s
    s.modField e.index (fun x => { x with fenced := false, lit := false, bandFenced := 0, bandWithheld := 0, tlStart := some s.tim.beat, tlLocked := false })
  | 1 => startProc e.index e.sub 1 [] none (s.modField e.index (fun x => { x with
      bandFenced := x.bandFenced &&& ~~~(BitVec.twoPow 8 e.sub), bandWithheld := x.bandWithheld ||| BitVec.twoPow 8 e.sub }))
  | 4 => triggerRetrain e.index s
  | 5 => triggerRetrain (16 + e.index) s
  | 6 => s.modPort e.index (fun l => { l with state := if l.state = 3 then 3 else 1 })
  | _ => s

/-- Bytes of memory unit `u` become the all-zero code word (R301). -/
def zeroUnit (u : Nat) (s : State) : State :=
  { s with
    mem := s.mem.filter (fun c => (locOf s c.1).unit != u)
    poison := s.poison.filter (fun c => (locOf s (8 * c.1)).unit != u)
    errs := s.errs.filter (fun c => (locOf s (8 * c.1)).unit != u) }

/-- The unit returns after a recovery that passed (R458, "After a pass"). Bands return to dispatch at a halt (R174). -/
def returnUnit (e : FaultE) (s : State) : State :=
  match e.kind with
  | 0 =>
    let s := s.modField e.index (fun x => { x with fenced := false, lit := true, lightFenced := false
                                                   bandFenced := 0, bandWithheld := BitVec.allOnes 8 })
    (List.range 8).foldl (fun s b => s.modBand (8 * e.index + b) (fun x => { x with
      proc := 0, queue := [], back := true, colFault := none })) s
  | 1 =>
    let s := s.modField e.index (fun x => { x with bandFenced := x.bandFenced &&& ~~~(BitVec.twoPow 8 e.sub)
                                                   bandWithheld := x.bandWithheld ||| BitVec.twoPow 8 e.sub })
    s.modBand (8 * e.index + e.sub) (fun x => { x with proc := 0, queue := [], back := true, colFault := none })
  | 2 => { s with light := { s.light with disabled := s.light.disabled &&& ~~~(BitVec.twoPow 4 e.index)
                                          colFaults := s.light.colFaults.filter (fun x => x.1 != e.index) } }
  | 3 => s.modCoreOf (64 * e.index + e.sub) (fun x => { x with state := 0, verified := true, launch := none })
  | 4 => let s := if e.code = 0x50 then zeroUnit e.index s else s
         serveHeld e.index (s.modUnit e.index (fun m => { m with state := 1, hold := false }))
  | 5 => let s := if e.code = 0x50 then zeroUnit (16 + e.index) s else s
         serveHeld (16 + e.index) (s.modUnit (16 + e.index) (fun m => { m with state := 1, hold := false }))
  | 6 => s.modPort e.index (fun l =>
      let ok := l.quadOk ||| BitVec.ofNat 4 e.sub
      { l with state := if l.state = 3 then 3 else 2, quadOk := ok, width := popcount 4 ok.toNat - 1
               disQuads := l.disQuads &&& ~~~(BitVec.ofNat 4 e.sub) })
  | _ => s

/-- Three single-colour faults in colour `g`, in three fields, lie within 10 s (R463). -/
def colourFaulty (s : State) (g : Nat) : Bool :=
  decide (3 ≤ (((s.light.colFaults.filter (fun x => x.1 == g && s.tim.beat < x.2.2 + 10000000)).map (fun x => x.2.1)).eraseDups).length)

/-- A colour that is to be disabled for them. -/
def colourDue (s : State) : Option Nat := (List.range 4).find? (fun g => !s.light.disabled.getLsbD g && colourFaulty s g)

/-- Bands that single-colour faults in colour `g` fenced (R463). -/
def colourBands (s : State) (g : Nat) : List Nat := (s.bands.filter (fun e => e.2.colFault == some g)).map Prod.fst

/-- A HOST_ENABLE entry for band `i`, to be calibrated without the colour that failed (R463). -/
def recalibrate (s : State) (i : Nat) : State :=
  enqueueFault { code := 0x50, kind := 1, sub := i % 8, index := i / 8, beat := s.tim.beat % 2 ^ 32 } s

/-- A band that the steward fences for a single-colour fault after it has disabled that colour is recalibrated too (R463). -/
def lateColour (e : FaultE) (s : State) : State :=
  let g := bits e.detail 8 3
  if e.code = 0x01 ∧ e.kind = 1 ∧ g < 4 ∧ s.light.disabled.getLsbD g = true ∧ colourFaulty s g = true then recalibrate s (8 * e.index + e.sub) else s

/-- The colour is disabled device-wide and its bands are recalibrated without it (R463). -/
def disableColour (g : Nat) (s : State) : State :=
  let e : FaultE := { code := 0x40, kind := 2, index := g, beat := s.tim.beat % 2 ^ 32 }
  let s := logFault e 5 (contain 2 g 0 s)
  let s := { s with flt := { s.flt with faults := satInc s.flt.faults } }
  let s := post 0x0145 (faultItems 0x40 2 0 g) s
  (colourBands s g).foldl recalibrate s

/-- The steward takes the next entry (R461): it fences, disables a colour, or starts the recovery. -/
def takeFault (s : State) : State :=
  match s.flt.active, s.flt.queue with
  | none, e :: rest =>
    if s.flt.deviceError then s
    else
      let s := { s with flt := { s.flt with queue := rest } }
      let s :=
        if fenceCode e.code then lateColour e (closeFenced e s)
        else if e.code = 0x50 ∧ e.kind = 2 then
          let s := logFault e 1 (returnUnit e s)
          answerEnable e {} (post 0x0144 (faultItems e.code e.kind e.sub e.index) s)
        else startRecovery e { s with flt := { s.flt with active := some { e with recovering := true }, activeAt := s.tim.beat } }
      match colourDue s with
      | some g => disableColour g s
      | none => s
  | _, _ => s

/-- The running recovery ends (R461, R467). -/
def endRecovery (pass : Bool) (s : State) : State :=
  match s.flt.active with
  | none => s
  | some a =>
    if !pass then failActive s
    else
      let s := { s with flt := { s.flt with active := none } }
      let s := logFault a 1 (returnUnit a s)
      let s := post (if a.code = 0x50 then 0x0144 else 0x0141) (faultItems a.code a.kind a.sub a.index) s
      let s := answerEnable a {} s
      match disableOn s a.kind a.index a.sub with
      | some d =>
        match cmdOf s d.2.2.2.1 with
        | some c =>
          if bit (c.at 17 1) 0 then disableNow d stOk s
          else
            let d' := (d.1, d.2.1, d.2.2.1, d.2.2.2.1, s.tim.beat + 1000 * (if c.at 18 2 = 0 then 100 else c.at 18 2))
            endDisables { s with flt := { s.flt with disabling := s.flt.disabling.map (fun x => if x = d then d' else x) } }
        | none => disableNow d stOk s
      | none => s

/-! ### Meanings -/

/-- FAULT_DETECT (R457 to R462). -/
def execFaultDetect (code kind index sub detail : Nat) (s : State) : Host.Outcome State Fault Refusal :=
  .next (raiseFault code kind index sub detail s)

/-- CORE_HEARTBEAT_MISS: CORE_HANG (R458). -/
def execCoreHeartbeatMiss (c : Nat) (s : State) : Host.Outcome State Fault Refusal :=
  .next (raiseFault 0x11 3 (c / 64) (c % 64) 0 s)

/-- FAULT_QUEUE_TAKE (R461, R463). -/
def execFaultQueueTake (s : State) : Host.Outcome State Fault Refusal := .next (takeFault s)

/-- Band `i` has been calibrated since beat `t`, and nothing is left to run on it. -/
def bandRecovered (s : State) (t i : Nat) : Bool :=
  (s.band i).bandAt.any (fun b => decide (t ≤ b)) && (s.band i).proc == 0 && (s.band i).queue.isEmpty

/-- The recovery that runs may pass (R458): every quantity accepted, the image verified, the training over, the port up. -/
def mayPass (s : State) (a : FaultE) : Bool :=
  let t := s.flt.activeAt
  let trained := fun (u : Nat) => s.memTop.retrain != some u && !s.memTop.queue.contains u
  match a.kind with
  | 0 => (s.field a.index).tlLocked && (s.field a.index).rowAt.any (fun b => decide (t ≤ b)) &&
      (List.range 8).all (fun b => bandRecovered s t (8 * a.index + b) && (s.band (8 * a.index + b)).cellAt.any (fun b => decide (t ≤ b)))
  | 1 => bandRecovered s t (8 * a.index + a.sub)
  | 3 => (s.coreOf (64 * a.index + a.sub)).verified
  | 4 => trained a.index
  | 5 => trained (16 + a.index)
  | 6 => (s.port a.index).state == 2
  | _ => true

/-- RECOVERY_END (R458, R459, R461, R467): a pass that the unit does not show is none, and the recovery goes on. -/
def execRecoveryEnd (pass : Bool) (s : State) : Host.Outcome State Fault Refusal :=
  .next (if pass && s.flt.active.any (fun a => !mayPass s a) then s else endRecovery pass s)

/-- STEWARD_WATCHDOG_EXPIRY: device error, cause watchdog (R468). -/
def execStewardWatchdogExpiry (s : State) : Host.Outcome State Fault Refusal :=
  .next (if s.bu.stwRunning then enterDeviceError 1 s else s)

/-- DEVICE_FAULT: device error, cause 2 steward memory or 3 sequencer or mailbox hardware (R468). -/
def execDeviceFault (cause : Nat) (s : State) : Host.Outcome State Fault Refusal :=
  .next (if cause = 2 ∨ cause = 3 then enterDeviceError cause s else s)

/-- DOMAIN_POWER_GOOD_LOSS (R458): a field's domain 4·f to 4·f + 3 raises FIELD_POWER; the domain is no longer powered and good. -/
def execDomainPowerGoodLoss (d : Nat) (s : State) : Host.Outcome State Fault Refusal :=
  .next (
    let s := { s with pwr := { s.pwr with on := s.pwr.on.filter (fun x => x != d) } }
    if d < 128 then raiseFault 0x04 0 (d / 4) 0 0 s else s)

/-! ### Disabling and enabling (R465 to R467) -/

/-- The range checks of KIND, INDEX and SUB (R404, R391). -/
def unitChecks (s : State) (c : Cmd) : List (Bool × Reply) :=
  let k := c.at 16 1
  let i := c.at 20 2
  let b := c.at 22 1
  [ badField (decide (6 < k)) 16 ] ++ [
    outOfRange (decide ((match k with | 2 => 4 | 4 => 12 | 5 => 12 | 6 => 24 | _ => 32) ≤ i)) 20,
    outOfRange (decide ((match k with | 1 => 8 | 3 => 64 | 6 => 4 | _ => 1) ≤ b)) 22,
    outOfRange ((k == 4 || k == 5) && (s.unit (if k = 4 then i else 16 + i)).state == 0) 20 ]

/-- The partition that a unit of the command belongs to, for R343: fields, bands, cores and stacks. -/
def unitPart (s : State) (kind index : Nat) : Option Nat :=
  match kind with
  | 0 => some (partOfField s index)
  | 1 => some (partOfField s index)
  | 3 => some (partOfField s index)
  | 4 => (List.range s.net.parts).find? (fun p => (stacksOfPart s.net.parts p).contains index)
  | _ => none

/-- The SUB of a unit as its fault entry carries it: a quad mask for link quads (R460). -/
def entrySub (kind sub : Nat) : Nat := if kind = 6 then 2 ^ sub else sub

/-- The unit is out of service for a command: fenced, disabled, or its port's quad gone. -/
def cmdUnitOut (s : State) (kind index sub : Nat) : Bool := unitOut s kind index (entrySub kind sub)

/-- The entries of the unit leave the queue with OUTCOME 4 (R466). -/
def cancelEntries (kind index sub : Nat) (s : State) : State :=
  let hit := fun (e : FaultE) => sameUnit e.kind e.index e.sub kind index sub
  let gone := s.flt.queue.filter hit
  let s := { s with flt := { s.flt with queue := s.flt.queue.filter (fun e => !hit e) } }
  gone.foldl (fun s e => logFault e 4 s) s

/-- DEV_UNIT_DISABLE (R465, R466). -/
def execDevUnitDisable (k : Nat) (s : State) : Host.Outcome State Fault Refusal :=
  .next (runCmd k 0x0110 (fun c s =>
    let kind := c.at 16 1
    let i := c.at 20 2
    let b := c.at 22 1
    let imm := bit (c.at 17 1) 0
    let t := if c.at 18 2 = 0 then 100 else c.at 18 2
    checked ([ badField (decide (6 < kind)) 16, badField (decide (1 < c.at 17 1)) 17,
               outOfRange (decide (60000 < c.at 18 2)) 18 ] ++ (unitChecks s c).drop 1 ++
             [ outOfRange (cmdUnitOut s kind i b) (if kind = 1 ∨ kind = 3 ∨ kind = 6 then 22 else 20), c.rsvd 23 64,
               refuse ((unitPart s kind i).any (resetting s)) stPartitionResetting,
               refuse (disableOn s kind i b).isSome stBusy ])
      (fun s =>
        let s := cancelEntries kind i (entrySub kind b) s
        let d := (kind, i, b, k, s.tim.beat + 1000 * t)
        let s := { s with flt := { s.flt with disabling := s.flt.disabling ++ [d] } }
        let running := s.flt.active.any (fun a => sameUnit a.kind a.index a.sub kind i b)
        if running then (s, { wait := true })
        else if imm || kind == 6 then (disableNow d stOk s, { wait := true })
        else if kind == 4 || kind == 5 then
          (disableNow d stOk (s.modUnit (if kind = 4 then i else 16 + i) (fun m => { m with hold := true })), { wait := true })
        else (endDisable s d, { wait := true })) s) s)

/-- DISABLE_GRACEFUL_TIMEOUT (R465): the ops still on the unit retire as in immediate mode, and the command completes with
`degraded`. -/
def execDisableGracefulTimeout (k : Nat) (s : State) : Host.Outcome State Fault Refusal :=
  .next (match s.flt.disabling.find? (fun d => d.2.2.2.1 == k) with
    | some d => if d.2.2.2.2 ≤ s.tim.beat then disableNow d stDegraded s else s
    | none => s)

/-- The light port that feeds field `f`: four fields to a primary port (03 R64). -/
def portOfField (f : Nat) : Nat := f / 4

/-- The unit was fenced during bring-up (R410, R467). -/
def fencedAtBoot (s : State) (kind index sub : Nat) : Bool :=
  match kind with
  | 0 => (s.field index).bootFenced
  | 1 => (s.band (8 * index + sub)).bootFenced || (s.field index).bootFenced
  | 3 => (s.coreOf (64 * index + sub)).bootFenced
  | 4 => (s.unit index).bootFenced
  | 5 => (s.unit (16 + index)).bootFenced
  | _ => false

/-- DEV_UNIT_ENABLE (R467): a HOST_ENABLE entry; the command is answered when its recovery ends. -/
def execDevUnitEnable (k : Nat) (s : State) : Host.Outcome State Fault Refusal :=
  .next (runCmd k 0x0111 (fun c s =>
    let kind := c.at 16 1
    let i := c.at 20 2
    let b := c.at 22 1
    let at3 := kind == 0 && (List.range 4).any (fun g => (s.lcol (4 * portOfField i + g)).level == 3)
    checked ([ badField (decide (6 < kind)) 16, badField (decide (1 < c.at 17 1)) 17,
               outOfRange (decide (60000 < c.at 18 2)) 18 ] ++ (unitChecks s c).drop 1 ++
             [ outOfRange (!cmdUnitOut s kind i b) (if kind = 1 ∨ kind = 3 ∨ kind = 6 then 22 else 20), c.rsvd 23 64,
               outOfRange (fencedAtBoot s kind i b || at3 ||
                 ((kind == 4 || kind == 5) && (s.unit (if kind = 4 then i else 16 + i)).gaveUp)) 20,
               refuse ((unitPart s kind i).any (resetting s)) stPartitionResetting ])
      (fun s =>
        -- the command commits when the recovery passes (R467): until then its deadline can withdraw it
        (enqueueFault { code := 0x50, kind := kind, sub := entrySub kind b, index := i, beat := s.tim.beat % 2 ^ 32, cmds := [k] } s,
         { wait := true, commit := false })) s) s)

end Sys2Proof.Machine
end

