-- ==== Sys2Proof/Machine/Real.lean ====
section
/-! DEFINITION. Real functions in fixed point: sines, for the test signal (R160) and the drive codes (R33), scaled by 2^64; the logarithm
of a tap reading (R66, R68); roots and angles for the estimators (R53, R99); field ratios of
gains in dB (R97). -/

namespace Sys2Proof.Machine

/-- One, in fixed point. -/
def fixOne : Int := 2 ^ 64

/-- π in fixed point. -/
def fixPi : Int := 57952155664616982739

/-- Terms of the sine series from the term `t` of index `n` (t = ±x^(2n+1)/(2n+1)!), `k` of them. -/
def sinTerms (x : Int) : Nat → Nat → Int → Int
  | 0, _, _ => 0
  | k + 1, n, t => t + sinTerms x k (n + 1) (-(t * x / fixOne * x / fixOne) / ((2 * n + 2) * (2 * n + 3) : Nat))

/-- sin x of a fixed-point angle with |x| ≤ π. -/
def fixSin (x : Int) : Int := sinTerms x 20 0 x

/-- A·sin(2π·n/N), rounded half to even. -/
def sineOf (a : Int) (n N : Nat) : Int :=
  if N = 0 then 0
  else
    let m := n % N
    let k : Int := if 2 * m ≤ N then (m : Int) else (m : Int) - N
    if 2 * m = N then 0 else roundEven (a * fixSin (2 * fixPi * k / N)) (2 ^ 64)

/-- `k` further bits of a base-2 logarithm whose mantissa `m` lies in [1, 2), scaled by 2^62. -/
def logBits : Nat → Nat → Nat → Nat
  | 0, _, acc => acc
  | k + 1, m, acc =>
    let q := m * m / 2 ^ 62
    if 2 ^ 63 ≤ q then logBits k (q / 2) (2 * acc + 1) else logBits k q (2 * acc)

/-- 2^32·log2 c, c > 0, cut to an integer. -/
def log2Fix (c : Nat) : Nat := c.log2 * 2 ^ 32 + logBits 32 (c * 2 ^ 62 / 2 ^ c.log2) 0

/-- 10·log10(c / 2^23) in 0.01 dB, rounded half to even, for c > 0. -/
def centiBel (c : Nat) : Int := roundEven (((log2Fix c : Int) - 23 * 2 ^ 32) * 301029995664) (2 ^ 32 * 10 ^ 9)

/-- The integer square root of `n` below 2^`k`, from its high bit down. -/
def rootFrom (n : Nat) : Nat → Nat → Nat
  | 0, r => r
  | k + 1, r => if (r + 2 ^ k) * (r + 2 ^ k) ≤ n then rootFrom n k (r + 2 ^ k) else rootFrom n k r

/-- The integer part of the square root of `n` < 2^128. -/
def isqrt (n : Nat) : Nat := rootFrom n 64 0

/-- The largest angle k·π/2^15, 0 ≤ k ≤ 2^14, whose sine times `d` is at most `n`, from step 2^`b` down. -/
def angleFrom (n d : Int) : Nat → Int → Int
  | 0, k => k
  | b + 1, k => if fixSin (fixPi * (k + 2 ^ b) / 2 ^ 15) * d ≤ n * fixOne then angleFrom n d b (k + 2 ^ b) else angleFrom n d b k

/-- The arc sine of n/d, d > 0, in π/2^15 rad, within ±π/2 (R141, R53). -/
def arcSine (n d : Int) : Int :=
  if d ≤ n then 2 ^ 14 else if n ≤ -d then -(2 ^ 14)
  else if 0 ≤ n then angleFrom n d 14 0 else -(angleFrom (-n) d 14 0)

/-- Terms of the exponential series from the term `t` of index `n`, `k` of them. -/
def expTerms (x : Int) : Nat → Nat → Int → Int
  | 0, _, _ => 0
  | k + 1, n, t => t + expTerms x k (n + 1) (t * x / fixOne / (n + 1 : Nat))

/-- 10^(x / 4000) in fixed point: the field ratio of `x` steps of 0.005 dB (R72). -/
def fieldRatio (x : Int) : Int :=
  let e := fun (n : Nat) => expTerms (n * 42475197918399869020 / 4000) 150 0 fixOne
  if x = 0 then fixOne else if 0 ≤ x then e x.toNat else fixOne * fixOne / e x.natAbs

end Sys2Proof.Machine
end

