-- ==== Sys2Proof/Machine/Light.lean ====
section
/-! DEFINITION. Light supply: taps and reference powers, compensation, fade levels, relays and the light pause (R63 to R86). Powers are
in 0.01 dBm, differences in 0.01 dB, compensation in 0.005 dB. -/

namespace Sys2Proof.Machine

open Sys2Proof

/-! ### Injected monitor sequences (R127 to R129) -/

/-- An injected run starts in beat `b`: the running regular conversion and the rest of its frame deliver nothing (R128). -/
def startInject (self : Bool) (b : Nat) (m : Mon) : Mon :=
  if m.resume && m.aEnable then
    { m with injRun := true, injSlot := 0, injBeat := b, selfTest := self, resume := false
             skip := min 0xFFFF (m.skip + (m.aSeqLen + 1 - m.nextSlot))
             winMiss := (m.winMiss ++ (List.range (m.aSeqLen + 1 - m.nextSlot)).map (fun i => m.nextSlot + i)).eraseDups }
  else { m with injRun := true, injSlot := 0, injBeat := b, selfTest := self }

/-- The test voltage of trim converter 15 of converter `k`'s field (R134, R135): 0 none, else its sign. -/
def setTestV (k : Nat) (v : Int) (s : State) : State := s.modField (k % 32) (fun x => { x with testV := v })

/-- A trigger (0 light, 1 temperature, 2 request) reaches converter `k` (R127 to R129); it ends a running self-test (R135). -/
def trigger (k t : Nat) (s : State) : State :=
  let m := s.mon k
  if !m.aEnable || !m.aTrig.getLsbD t then s
  else if m.injRun && !m.selfTest then s.setMon k { m with injPend := true }
  else (if m.selfTest then setTestV k 0 s else s).setMon k (startInject false s.tim.beat m)

/-! ### Sources -/

/-- The source port (0 to 9) that serves primary port `n` (R86: SOURCE 0 own fibre, 1 LX0, 2 LX1). -/
def servingPort (s : State) (n : Nat) : Nat :=
  match (s.lport n).source with
  | 1 => 8
  | 2 => 9
  | _ => n

/-- Relay `x` is available: every colour at least +15 dBm with a stored P0, not tripped, its converters good (R65, R71, R75, 05 R136). -/
def relayAvail (s : State) (x : Nat) : Bool :=
  !(s.relay x).tripped && !(s.relay x).failed &&
  (List.range 4).all (fun g =>
    let l := s.lcol (4 * (8 + x) + g)
    decide (1500 ≤ l.power) && l.p0.isSome)

/-- Relay `x` is free: available, not assigned, not serving (R78). -/
def relayFree (s : State) (x : Nat) : Bool := relayAvail s x && (s.relay x).port.isNone && (s.relay x).state != 3

/-- The lowest-numbered free relay (R77). -/
def freeRelay (s : State) : Option Nat := (List.range 2).find? (relayFree s)

/-- A relay assigned to port `n` and not serving. -/
def assignedRelay (s : State) (n : Nat) : Option Nat :=
  (List.range 2).find? (fun x => (s.relay x).port == some n && (s.relay x).state != 3)

/-- Fade of colour `g` of source port `n` below its P0, in 0.01 dB (R72); 0 without P0 (R71). -/
def fadeOf (s : State) (n g : Nat) : Int :=
  let l := s.lcol (4 * n + g)
  match l.p0 with
  | some p => p - l.power
  | none => 0

/-- No colour of source port `n` is more than `d` below its P0 (R85). -/
def notBelowP0 (s : State) (n : Nat) (d : Int) : Bool :=
  (List.range 4).all (fun g => (s.lcol (4 * n + g)).p0.isSome && decide (fadeOf s n g ≤ d))

/-- Every colour of source port `n` is within `d` of its P0, above or below (R83). -/
def withinP0 (s : State) (n : Nat) (d : Int) : Bool :=
  (List.range 4).all (fun g => (s.lcol (4 * n + g)).p0.isSome && decide (fadeOf s n g ≤ d) && decide (-d ≤ fadeOf s n g))

/-- The level of a port: the highest among its colours, colours disabled device-wide left out (R74). -/
def portLevel (s : State) (n : Nat) : Nat :=
  (List.range 4).foldl (fun m g => if s.light.disabled.getLsbD g then m else max m (s.lcol (4 * n + g)).level) 0

/-- The colours of port `n` at level `v` or above, as a mask (R513). -/
def coloursAt (s : State) (n v : Nat) : Nat :=
  listMask 4 ((List.range 4).filter (fun g => decide (v ≤ (s.lcol (4 * n + g)).level)))

/-- The four fields of port `n` (R29, R63). -/
def fieldsOfPort (n : Nat) : List Nat := [4 * n, 4 * n + 1, 4 * n + 2, 4 * n + 3]

/-! ### Tap readings (R66, R130)

Photodiodes in the order of R66: 0 to 31 source taps of LP0 to LP7, 32 to 63 LO taps, 64 to 71 source taps of LX0 and LX1, 72 to 79 bus taps. -/

/-- Monitor converter of photodiode `i` (R121). -/
def tapConverter (i : Nat) : Nat :=
  if i < 32 then i / 4 else if i < 64 then 8 + (i - 32) / 4 else if i < 72 then 16 + (i - 64) / 4 else 18 + (i - 72) / 4

/-- The monitor input of photodiode `i`, key 32·converter + input. -/
def tapInput (i : Nat) : Nat := 32 * tapConverter i + i % 4

/-- The loop slot of photodiode `i` (R140). -/
def tapSlot (i : Nat) : Nat := 512 * (i / 5) + 160 + i % 5

/-- The result of monitor input `j` that stands as its sample of beat `b` (R130). -/
def sampleAt (s : State) (j b : Nat) : Option (BitVec 24) := ((s.monLast j).samples.find? (fun x => x.1 == b)).map Prod.snd

/-- The power that result `code` of photodiode `i` means, in 0.01 dBm: the tap's factory scale and its light monitor scale (R66, R69, 07 R165;
assumption log 9). -/
def tapPower (s : State) (i : Nat) (code : Int) : Int :=
  calFactory s (kTapScale i) + calEff s (kLight i) +
    (if code ≤ 0 then centiBel 1 - Config.darkBelow code else centiBel code.toNat)

/-- The sample of beat `b` at photodiode `i` becomes the reading of its tap; a relay's source tap also counts the beats within 1.0 dB of P0 (R75). A failed
converter's result is no reading (05 R136). -/
def readTap (b : Nat) (s : State) (i : Nat) : State :=
  match if (s.mon (tapConverter i)).failed then none else sampleAt s (tapInput i) b with
  | none => s
  | some r =>
    let y := tapPower s i r.toInt
    if i < 32 then s.modLcol i (fun l => { l with power := y })
    else if i < 64 then s.modLcol (i - 32) (fun l => { l with loTap := y })
    else if i < 72 then s.modLcol (i - 32) (fun l =>
      { l with power := y
               near := match l.p0 with
                 | some p => if p - y ≤ 100 ∧ y - p ≤ 100 then min 1000 (l.near + 1) else 0
                 | none => 0 })
    else s.modLcol (i - 40) (fun l => { l with loTap := y })

/-- comp[n, γ] is set to `v`, and with it the output of its loop slot, 20 LSB to a step of 0.005 dB (R72, R141). -/
def setComp (n g : Nat) (v : Int) (s : State) : State :=
  (s.modLcol (4 * n + g) (fun l => { l with comp := v })).modLoop (tapSlot (32 + 4 * n + g)) (fun k => { k with out := 20 * v })

/-! ### Assignment, switch requests and fences -/

/-- A relay returns to idle, its tree to the absorber; a waiting assign command completes with `degraded` (R78, R85). -/
def lapseRelay (x : Nat) (s : State) : State :=
  let r := s.relay x
  let s := match r.port with
    | some n => (List.range 4).foldl (fun (s : State) g => s.modLcol (4 * n + g) (fun l => { l with prelock := 0 })) s
    | none => s
  let s := s.setRelay x { r with port := none, state := 0, cmd := none }
  match r.cmd with
  | some k => finishCmd k { status := stDegraded } s
  | none => s

/-- Relay `x` is assigned to port `n` and starts warming (R77). -/
def assignRelay (x n : Nat) (cmd : Option Nat) (s : State) : State :=
  s.modRelay x (fun r => { r with port := some n, state := 1, cmd := cmd })

/-- A switch of port `n` to source `dst` (0 own, 1 LX0, 2 LX1) is requested: a light pause at the next beat edge (R79). A port that switched in the
pause already keeps the source it had before it, and its command. -/
def requestSwitch (n dst : Nat) (cmd : Option Nat) (s : State) : State :=
  let s := s.modLport n (fun p => { p with
    sw := 1, swTo := dst, swFrom := if p.sw = 0 then p.source else p.swFrom, swCmd := if cmd.isSome then cmd else p.swCmd })
  { s with light := { s.light with pauseReq := true } }

/-- Port `n` reached F1 (R77, R513): LIGHT_F1, and the lowest free relay assigned if it has none. -/
def reachF1 (n : Nat) (s : State) : State :=
  let (s, x) : State × Nat :=
    match assignedRelay s n with
    | some x => (s, 8 + x)
    | none =>
      match freeRelay s with
      | some x => (assignRelay x n none s, 8 + x)
      | none => (s, 0xFF)
  post 0x0301 (leBytes 1 n ++ leBytes 1 (coloursAt s n 1) ++ leBytes 1 x) s

/-- The ports that reached F1 in this beat get their relays, the lower-numbered port first (R78). -/
def settleF1 (s : State) : State :=
  let ns := (List.range 8).filter (fun n => s.light.f1Pend.getLsbD n)
  ns.foldl (fun s n => reachF1 n s) { s with light := { s.light with f1Pend := 0 } }

/-- The switch that a port at F2 gets (R79, R81, R83): its assigned relay while that is available, or a free relay; from a relay, the other relay or
the own source. -/
def switchTarget (s : State) (n : Nat) : Option Nat :=
  match (assignedRelay s n).filter (relayAvail s) with
  | some x => some (1 + x)
  | none =>
    match freeRelay s with
    | some x => some (1 + x)
    | none => if (s.lport n).source != 0 && withinP0 s n 50 then some 0 else none

/-- The relay of target `t` is assigned to port `n` if it is not yet. -/
def assignTarget (t n : Nat) (s : State) : State :=
  if t = 0 ∨ (s.relay (t - 1)).port = some n then s else assignRelay (t - 1) n none s

/-- The port reached F2 (R79, R82, R83). -/
def reachF2 (n : Nat) (s : State) : State :=
  let s := post 0x0302 (leBytes 1 n ++ leBytes 1 (coloursAt s n 2)) s
  if (s.lport n).sw == 1 || (s.lport n).sw == 2 then s
  else match switchTarget s n with
    | some t => requestSwitch n t none (assignTarget t n s)
    | none => post 0x0304 (leBytes 1 n ++ leBytes 1 (coloursAt s n 2)) s

/-- The port reached F3 with no relay free: its four fields are disabled in immediate mode (R82, R458 FIELD_LIGHT). -/
def reachF3 (n : Nat) (s : State) : State :=
  let s := (fieldsOfPort n).foldl (fun (s : State) f =>
    raiseFault 0x05 0 f 0 0 (s.modField f (fun x => { x with lightFenced := true }))) s
  post 0x0305 (leBytes 1 n ++ leBytes 4 (listMask 32 (fieldsOfPort n))) s

/-- The actions of a port whose level rose from `old` (R74). F1 waits for the end of the beat, so that the lower-numbered of two ports goes first (R78),
or for F2. A level that jumps past F1 takes F1's action first, its event and its relay (DESIGN CHOICE, assumption log 55). -/
def levelRose (n old : Nat) (s : State) : State :=
  let new := portLevel s n
  let s : State := if old < 1 ∧ 1 ≤ new then { s with light := { s.light with f1Pend := s.light.f1Pend ||| BitVec.twoPow 8 n } } else s
  let s := if old < 2 ∧ 2 ≤ new then reachF2 n (settleF1 s) else s
  if old < 3 ∧ 3 ≤ new then reachF3 n s else s

/-- The level a fade reaches by itself: F3 only with no relay free for the port (R74). -/
def levelFor (s : State) (n : Nat) (d : Int) : Nat :=
  if 400 ≤ d ∧ (switchTarget s n).isNone ∧ (s.lport n).sw ≠ 1 ∧ (s.lport n).sw ≠ 2 then 3
  else if 200 ≤ d then 2 else if 100 ≤ d then 1 else 0

/-- Threshold of a level in 0.01 dB (R74). -/
def fadeThreshold (l : Nat) : Int := match l with | 1 => 100 | 2 => 200 | 3 => 400 | _ => 0

/-- The colours of the group's slice in beat `b`, 0 when it had none. -/
def GPos.ranIn (p : GPos) (b : Nat) : BitVec 4 := (if p.beat = some b then p.cols else 0) ||| (if p.beatPrev = some b then p.colsPrev else 0)

/-- Ops that had a slice in beat `b` on one of the fields in one of the colours carry `flag` (R76, R157). -/
def flagOps (flag : Nat) (b : Nat) (onField : Nat → Bool) (onColour : Nat → Bool) (s : State) : State :=
  { s with ops := s.ops.map (fun o =>
      o.flagIf (o.pos.any (fun p => (List.range 4).any (fun c => (p.ranIn b).getLsbD c && onColour c) &&
        (List.range (2 ^ o.shapeRun)).any (fun m => onField (p.root + m)))) flag) }

/-- LIGHT_LOW for the ops of beat `b` on port `n` in colour `g` at F2 or worse (R76, R82). -/
def flagLight (n g b : Nat) (s : State) : State :=
  if 2 ≤ (s.lcol (4 * n + g)).level then flagOps fLight b (fun f => f / 4 == n) (fun c => c == g) s else s

/-- The fade evaluation of colour `g` of port `n` from the beat's sample of its serving source, whose fade is `d` (R74). -/
def evalFade (n g : Nat) (d : Int) (s : State) : State :=
  let l := s.lcol (4 * n + g)
  let old := portLevel s n
  let v := levelFor s n d
  let s :=
    if l.level < v then s.setLcol (4 * n + g) { l with level := v, short := 0, maxD := 0 }
    else if 0 < l.level ∧ d ≤ fadeThreshold l.level - 30 then
      s.setLcol (4 * n + g) { l with short := min 1000 (l.short + 1), maxD := if l.short = 0 then d else max l.maxD d }
    else s.setLcol (4 * n + g) { l with short := 0, maxD := 0 }
  flagLight n g (s.tim.beat - 1) (levelRose n old s)

/-! ### A failed quantity (R177) -/

/-- The bands that a failed procedure makes suspect: its own, or for row calibration every band of the field (R177). -/
def suspects (i proc : Nat) : List Nat := if proc = 3 then (List.range 8).map (fun b => i / 8 * 8 + b) else [i]

/-- DETAIL of a CAL_SUSPECT fault: quantity, colour (4: several or none), column (assumption log 18). -/
def suspectDetail (key : Nat) : Nat :=
  let q := key % 16
  let i := key / 16
  let g := match q with
    | 2 => i / 256 % 4
    | 3 => i / 4 % 4
    | 4 => i / 4 % 4
    | 5 => i / 4 % 4
    | 6 => i % 4
    | 7 => i / 16 % 4
    | 8 => i / 16 % 4
    | 9 => i / 16 % 4
    | _ => 4
  let c := match q with
    | 0 => i % 256
    | 1 => i % 256
    | 3 => i / 16 % 256
    | 4 => i / 16 % 256
    | 5 => i / 16 % 256
    | 7 => i / 64 % 256
    | 8 => i / 64 % 256
    | 9 => i / 64 % 256
    | _ => 0
  q + 256 * g + 65536 * c

/-- A quantity of band `i`'s procedure failed: nothing is applied, CAL_SUSPECT and a band fault for every affected band (R177). -/
def failQuantity (i proc key : Nat) (s : State) : State :=
  let s := (dropProc i s)
  (suspects i proc).foldl (fun (s : State) j =>
    let s := s.modBand j (fun b => { b with suspect := true })
    let s := post 0x0401 (leBytes 1 (j / 8) ++ leBytes 1 (j % 8) ++ leBytes 1 (key % 16)) s
    raiseFault 0x01 1 (j / 8) (j % 8) (suspectDetail key) s) s

/-! ### The taps' loops (R71 to R74, R77, R141) -/

/-- d_src + d_lo in steps of 0.005 dB, within ±8 dB (R72, R141). -/
def compTarget (s : State) (n g : Nat) : Int :=
  let l := s.lcol (4 * n + g)
  clampI (-1600) 1600 (2 * (fadeOf s (servingPort s n) g + (l.loRef - l.loTap)))

/-- Port `n`'s loops stand still between settling on a relay and the halt of the quick gain (R77). -/
def portStalled (s : State) (n : Nat) : Bool :=
  let p := s.lport n
  decide (p.source ≠ 0) && (p.sw == 3 || p.sw == 4)

/-- The light loop of photodiode `i` computes: its colour holds P0 (R71), its port's loops do not stand still for a switch (R77) or a failed converter (05
R136). -/
def tapRuns (s : State) (i : Nat) : Bool :=
  let g := i % 4
  let n := i / 4 % 8
  if i < 32 then (s.lcol i).p0.isSome && !portStalled s n && !(s.lport n).frozen
  else if i < 64 then
    (s.lcol (i - 32)).p0.isSome && (s.lcol (4 * servingPort s n + g)).p0.isSome && !portStalled s n && !(s.lport n).frozen
  else if i < 72 then (s.lcol (i - 32)).p0.isSome
  else (s.lcol (i - 40)).p0.isSome

/-- The measured value of photodiode `i`'s loop in Q15, 40 LSB to 0.01 dB (R141): an LO tap's is the compensation that its port lacks, so that e of set
point 0 is d_src + d_lo; the other taps' is their power against P0 (DEDUCED, assumption log 17). -/
def tapValue (s : State) (i : Nat) : Int :=
  let g := i % 4
  if i < 32 then -(40 * fadeOf s (i / 4) g)
  else if i < 64 then
    0 - 40 * (fadeOf s (servingPort s ((i - 32) / 4)) g + ((s.lcol (i - 32)).loRef - (s.lcol (i - 32)).loTap))
  else if i < 72 then -(40 * fadeOf s (i / 4 - 8) g)
  else 40 * ((s.lcol (i - 40)).loTap - (s.lcol (i - 40)).p0.getD 0)

/-- The port to which the relay of a pre-lock slot is assigned, and the slot's colour (R140). -/
def prelockPort (s : State) (lane : Nat) : Option Nat := (s.relay (lane / 4)).port

/-- The measured value of lane `lane`'s pre-lock loop in Q15 (R77, R141): twice the relay's tap against the P0 of the port's own source. -/
def prelockValue (s : State) (lane : Nat) : Int :=
  match prelockPort s lane with
  | some n => 80 * ((s.lcol (4 * (8 + lane / 4) + lane % 4)).power - (s.lcol (4 * n + lane % 4)).p0.getD 0)
  | none => 0

/-- LIGHT_FLOOR when |d_lo − d_src| exceeds 0.5 dB (R73): once, when the condition begins (DESIGN CHOICE, assumption log 55). -/
def floorCheck (n g : Nat) (s : State) : State :=
  let l := s.lcol (4 * n + g)
  let d := (l.loRef - l.loTap) - fadeOf s (servingPort s n) g
  let bad := decide (50 < d) || decide (d < -50)
  let s := s.setLcol (4 * n + g) { l with floor := bad }
  if bad && !l.floor then post 0x0306 (leBytes 1 n ++ leBytes 1 g) s else s

/-- A loop output in steps of 0.005 dB, within ±8 dB (R72, R77, R86). -/
def stepsOf (out : Int) : Int := clampI (-1600) 1600 (roundEven out 20)

/-- What follows a computation of photodiode `i`'s loop with output `out`: an LO tap drives comp (R72) and shows a floor loss (R73); a source tap gives the
fade level of the port that it serves (R74). -/
def tapActs (i : Nat) (out : Int) (s : State) : State :=
  let g := i % 4
  if i < 32 then (if (s.lport (i / 4)).source = 0 then evalFade (i / 4) g (fadeOf s (i / 4) g) s else s)
  else if i < 64 then floorCheck ((i - 32) / 4) g (s.modLcol (i - 32) (fun l => { l with comp := stepsOf out }))
  else if i < 72 then
    let r := s.relay ((i - 64) / 4)
    match r.port with
    | some n => if r.state = 3 ∧ !(s.lport n).frozen then evalFade n g (fadeOf s (i / 4 - 8) g) s else s
    | none => s
  else s

/-- PRELOCK[n, γ] follows its loop's output while the relay is assigned and not serving (R77); 0 without the port's P0 (R71). -/
def prelockActs (lane : Nat) (out : Int) (s : State) : State :=
  match prelockPort s lane with
  | some n => s.modLcol (4 * n + lane % 4) (fun l => { l with prelock := if l.p0.isSome then stepsOf out else 0 })
  | none => s

/-! ### The beat edge -/

/-- The assignment of a relay that is no longer available lapses (R65, R75, R85). -/
def relayCheck (s : State) (x : Nat) : State :=
  if (s.relay x).port.isSome && (s.relay x).state != 3 && !relayAvail s x then lapseRelay x s else s

/-- The assignment of port `n` lapses when its level falls back to normal, unless a switch to the relay is under way (R78). -/
def lapseNormal (s : State) (n : Nat) : State :=
  let p := s.lport n
  if p.sw = 1 ∨ p.sw = 2 then s
  else
    let v := portLevel s n
    let s := s.setLport n { p with lastLevel := v }
    if v = 0 ∧ 0 < p.lastLevel then
      match assignedRelay s n with
      | some x => lapseRelay x s
      | none => s
    else s

/-- Light supply at a beat edge: the samples of the beat that closed, and what the relays owe to it. -/
def lightEdge (s : State) : State :=
  let s := (List.range 80).foldl (readTap (s.tim.beat - 1)) s
  (List.range 8).foldl lapseNormal (settleF1 ((List.range 2).foldl relayCheck s))

/-! ### Meanings -/

/-- FADE_LEVEL_FALL (R74): after 1,000 consecutive beats at least 0.3 dB short of the threshold the level falls in one step. -/
def execFadeLevelFall (n g : Nat) (s : State) : Host.Outcome State Fault Refusal :=
  .next (
    let l := s.lcol (4 * n + g)
    if l.level = 0 ∨ l.short < 1000 then s
    else
      let v := if 2 < l.level ∧ 170 < l.maxD then 2 else if 1 < l.level ∧ 70 < l.maxD then 1 else 0
      s.setLcol (4 * n + g) { l with level := v, short := 0, maxD := 0 })

/-- FADE_COMPARATOR_TRIP on colour `g` of source port `n` (R75): disarmed without P0 (R71); the injected sequence of MC n, MC16 or MC17 starts (R127). -/
def execFadeComparatorTrip (n g : Nat) (s : State) : Host.Outcome State Fault Refusal :=
  .next (
    let l := s.lcol (4 * n + g)
    if l.p0.isNone then s
    else
      let s := trigger (if n < 8 then n else 8 + n) 0 (s.setLcol (4 * n + g) { l with comparator := true })
      let served : Option Nat := if n < 8 then (if (s.lport n).source = 0 then some n else none)
        else if (s.relay (n - 8)).state = 3 then (s.relay (n - 8)).port else none
      match served with
      | some p =>
        let old := portLevel s p
        let s := s.modLcol (4 * p + g) (fun l => { l with level := max 2 l.level, short := 0, maxD := 0 })
        flagLight p g s.tim.beat (levelRose p old s)
      | none =>
        if n < 8 then s
        else lapseRelay (n - 8) ((s.modRelay (n - 8) (fun r => { r with tripped := true })).modLcol (4 * n + g) (fun l => { l with near := 0 })))

/-- RELAY_RECOVERED (R75): every colour within 1.0 dB of P0 for 1,000 consecutive beats. -/
def execRelayRecovered (x : Nat) (s : State) : Host.Outcome State Fault Refusal :=
  .next (if (List.range 4).all (fun g => decide (1000 ≤ (s.lcol (4 * (8 + x) + g)).near))
    then s.modRelay x (fun r => { r with tripped := false }) else s)

/-- The bus tap confirms the route of relay `x`'s tree (R77): every colour at most 10 dB below the source tap (DESIGN CHOICE, assumption log 55). -/
def routeConfirmed (s : State) (x : Nat) : Bool :=
  (List.range 4).all (fun g => decide ((s.lcol (4 * (8 + x) + g)).power - 1000 ≤ (s.lcol (4 * (8 + x) + g)).loTap))

/-- The relay's assign command, if one waits, completes with `ok` (R85). -/
def finishAssign (x : Nat) (s : State) : State :=
  let r := s.relay x
  let s := s.setRelay x { r with cmd := none }
  match r.cmd with
  | some k => finishCmd k {} s
  | none => s

/-- RELAY_PRELOCK_DONE (R77, R85): the relay is warmed, its route confirmed at the bus tap, and pre-locked; an assign command completes with `ok`. -/
def execRelayPrelockDone (x : Nat) (s : State) : Host.Outcome State Fault Refusal :=
  .next (
    let r := s.relay x
    if r.state = 1 ∧ r.port.isSome ∧ routeConfirmed s x then finishAssign x (s.setRelay x { r with state := 2 }) else s)

/-- Band calibrations on the fields of a switched port restart at step 2 (R181): what they had accepted is dropped. -/
def restartOn (fs : List Nat) (s : State) : State :=
  { s with bands := tmap {} s.bands (fun k b =>
      if fs.contains (k / 8) && b.proc == 1 then { b with pend := [], done := false, repeats := 0, point := 0, symbols := 0, marred := false, moves := 0 } else b) }

/-- LIGHT_PAUSE_START (R79, R81): no slice device-wide; the selectors of every requested port start to move. -/
def execLightPauseStart (s : State) : Host.Outcome State Fault Refusal :=
  .next (
    if !s.light.pauseReq then s
    else
      let movers := (List.range 8).filter (fun n => (s.lport n).sw == 1)
      let s := restartOn ((movers.map fieldsOfPort).flatten) s
      let s : State := movers.foldl (fun (s : State) n => s.modLport n (fun p => { p with sw := 2 })) s
      let s : State := { s with ops := s.ops.map (fun o => { o with pos := o.pos.map (fun p => { p with on := false }) }) }
      { s with light := { s.light with
          pause := true, pauseReq := false
          pauseCount := if s.light.pause then s.light.pauseCount else min 0xFFFF (s.light.pauseCount + 1)
          pauseAt := if s.light.pause then s.light.pauseAt else s.tim.beat } })

/-- The LO phase loops of the fields lose their lock and acquire again (R79, 06 R155). -/
def reacquire (fs : List Nat) (s : State) : State :=
  { s with loops := fs.foldl (fun t f =>
      (List.range 32).foldl (fun t i =>
        let k := 512 * (f / 2) + 32 * (f % 2) + i
        let d := loopReset k
        tset d t k { (tget d t k) with lock := false, okRun := 0 }) t) s.loops }

/-- Quick gain starts on every band of the fields that is not fenced (R79, 07 R179). -/
def startQuick (fs : List Nat) (s : State) : State :=
  fs.foldl (fun (s : State) f => ((List.range 8).filter (fun b => !(s.field f).fenced && !(s.field f).bandFenced.getLsbD b)).foldl (fun (s : State) b =>
    s.modBand (8 * f + b) (fun x => { x with
      qg := 1, qgPoint := 0, qgSymbols := 0, qgRepeats := 0, qgVoids := 0, qgMarred := false, qgPend := [] })) s) s

/-- The relay that served port `n` and serves it no longer is idle again. -/
def dropSource (src : Nat) (s : State) : State :=
  if src = 0 then s else s.modRelay (src - 1) (fun r => { r with port := none, state := 0 })

/-- Port `n` is served by source `dst` (R77, R79): a relay's pre-locked compensation takes effect, the fade is measured on the new source from its next
sample, and shows normal until then (DESIGN CHOICE, assumption log 55); the LO phases acquire again and the quick gain begins. -/
def settleOn (n dst : Nat) (s : State) : State :=
  let p := s.lport n
  let s := if p.source = dst then s else dropSource p.source s
  let s := if dst = 0 then s else finishAssign (dst - 1) (s.modRelay (dst - 1) (fun r => { r with port := some n, state := 3 }))
  let s := s.setLport n { p with sw := 3, source := dst, settledAt := s.tim.beat }
  let s := (List.range 4).foldl (fun (s : State) g =>
    let l := s.lcol (4 * n + g)
    (setComp n g (if dst = 0 ∨ p.source = dst then l.comp else l.prelock) s).modLcol (4 * n + g) (fun l =>
      { l with prelock := 0, short := 0, maxD := 0, level := 0 })) s
  startQuick (fieldsOfPort n) (reacquire (fieldsOfPort n) s)

/-- RELAY_SETTLED (R67, R77, R79): port `n`'s selector and the relay's tree have settled. A relay that became unavailable while they moved is not
assigned (R65, R75): the selector moves on to another target of R83, or back to the source before with LIGHT_NO_RELAY (R82) and a waiting command
`degraded` (DESIGN CHOICE, assumption log 55). -/
def execRelaySettled (n : Nat) (s : State) : Host.Outcome State Fault Refusal :=
  .next (
    let p := s.lport n
    if p.sw ≠ 2 then s
    else if p.swTo = 0 ∨ ((s.relay (p.swTo - 1)).port = some n ∧ relayAvail s (p.swTo - 1) = true) then settleOn n p.swTo s
    else match switchTarget s n with
      | some t => assignTarget t n (s.setLport n { p with swTo := t })
      | none =>
        let s := post 0x0304 (leBytes 1 n ++ leBytes 1 (coloursAt s n 2)) (settleOn n p.source s)
        match p.swCmd with
        | some k => finishCmd k { status := stDegraded } (s.modLport n (fun p => { p with swCmd := none }))
        | none => s)

/-- LIGHT_SWITCH and the answer to the command for one switched port (R79, R398). -/
def endSwitch (s : State) (n : Nat) : State :=
  let p := s.lport n
  let s := post 0x0303 (leBytes 1 n ++ leBytes 1 p.source ++ leBytes 1 p.swFrom ++ leBytes 4 (listMask 32 (fieldsOfPort n)) ++
    leBytes 2 (s.tim.beat - s.light.pauseAt)) s
  let s := s.setLport n { p with sw := 0, swCmd := none, swFrom := 0, swTo := 0 }
  match p.swCmd with
  | some k => finishCmd k {} s
  | none => s

/-- LIGHT_PAUSE_END (R79, R81): once every switched port has completed its timeline, slices may resume. -/
def execLightPauseEnd (s : State) : Host.Outcome State Fault Refusal :=
  .next (
    let sw := (List.range 8).filter (fun n => (s.lport n).sw != 0)
    if s.light.pause && sw.all (fun n => (s.lport n).sw == 5) then
      let s := sw.foldl endSwitch s
      { s with light := { s.light with pause := false } }
    else s)

/-! ### Light commands (R85, R404, R512) -/

/-- The photodiode of the source tap of port `n` in colour `g` (R66). -/
def sourceTap (n g : Nat) : Nat := if n < 8 then 4 * n + g else 32 + 4 * n + g

/-- What the light monitor scale `delta` adds to photodiode `i`'s reading beyond its present user delta (R69, 07 R164). -/
def scaleShift (s : State) (delta : Int) (i : Nat) : Int := delta - tget 0 s.cal.user (kLight i)

/-- The source-tap reading of port `n` in colour `g` under a new light monitor scale. -/
def scaledReading (s : State) (delta : Int) (n g : Nat) : Int := (s.lcol (4 * n + g)).power + scaleShift s delta (sourceTap n g)

/-- A source port is lit: every colour at least +15 dBm at its tap (R68). -/
def portLit (s : State) (delta : Int) (n : Nat) : Bool := (List.range 4).all (fun g => decide (1500 ≤ scaledReading s delta n g))

/-- Every photodiode takes the scale `delta`; the readings that stand follow (R69). -/
def rescaleTaps (delta : Int) (s : State) : State :=
  let lcols := (List.range 40).foldl (fun (t : Tab LightCol) i =>
    let n := i / 4
    let l := tget {} t i
    let lo := if n < 8 then 32 + i else 40 + i
    tset {} t i { l with power := l.power + scaleShift s delta (sourceTap n (i % 4)), loTap := l.loTap + scaleShift s delta lo }) s.lcols
  { s with lcols := lcols, cal := { s.cal with user := (List.range 80).foldl (fun t i => tset 0 t (kLight i) delta) s.cal.user } }

/-- P0 and LO references of one lit port (R68), in steward SRAM and in flash with their trace (R69, R86). -/
def storeP0 (refl : Bool) (s : State) (n : Nat) : State :=
  let s := (List.range 4).foldl (fun (s : State) g =>
    let i := 4 * n + g
    let l := s.lcol i
    let s := s.setLcol i { l with p0 := some l.power, loRef := if n < 8 then l.loTap else l.loRef }
    let st := tset 0 s.sec.lightStore (8 * n + g) l.power
    { s with sec := { s.sec with lightStore := if n < 8 then tset 0 st (8 * n + 4 + g) l.loTap else st } }) s
  { s.modLport n (fun p => { p with traceRefl := refl }) with
    sec := { s.sec with lightStore := tset 0 s.sec.lightStore (80 + n) (if refl then 1 else 0) } }

/-- A slice is admitted on some field: one runs, or an op's slices go on from beat to beat outside a light pause (R68, R79). -/
def sliceAdmitted (s : State) : Bool :=
  s.ops.any (fun o => o.code == 0x01 && o.stage == 2 && (!s.light.pause || o.pos.any (fun p => p.on)))

/-- LIGHT_COMMISSION (R68 to R71, R404). With REFL, `refl` is what the REFL photodiode reads on its factory scale: the difference to the power that the
payload states moves the scale of every tap, within the limits of 07 R165. -/
def execLightCommission (k : Nat) (refl : Int) (s : State) : Host.Outcome State Fault Refusal :=
  .next (runCmd k 0x0302 (fun c s =>
    let use := bit (c.at 16 1) 0
    let pw := signed 16 (c.at 18 2)
    let delta : Int := if use then pw - refl else 0
    let lit := (List.range 10).filter (portLit s delta)
    let bad := ((lit.map (fun n => (List.range 4).map (fun g => (n, g)))).flatten).find? (fun i =>
      decide (scaledReading s delta i.1 i.2 < 1900 ∨ 2300 < scaledReading s delta i.1 i.2))
    let where_ := (bad.map (fun i => i.1 + 256 * i.2)).getD 0
    checked [ badField (decide (1 < c.at 16 1)) 16, outOfRange (decide (3 < c.at 17 1)) 17,
              outOfRange (decide (pw < -1000 ∨ 0 < pw)) 18, c.rsvd 20 64,
              refuse (sliceAdmitted s) stBusy,
              outOfRange (!(List.range 80).all (fun i => calInRange s (kLight i) (calFactory s (kLight i) + delta))) 18,
              (bad.isSome, { status := stOutOfRange, detail := where_, result := leBytes 2 where_ }) ]
      (fun s =>
        let s := lit.foldl (storeP0 use) (rescaleTaps delta s)
        (((List.range 32).foldl (fun (s : State) i => setComp (i / 4) (i % 4) 0 s) s), {})) s) s)

/-- LIGHT_RELAY_ASSIGN (R85). -/
def execLightRelayAssign (k : Nat) (s : State) : Host.Outcome State Fault Refusal :=
  .next (runCmd k 0x0303 (fun c s =>
    let x := c.at 16 1
    let n := c.at 17 1
    checked [ badField (decide (1 < x)) 16, outOfRange (decide (7 < n)) 17, c.rsvd 18 64,
              refuse (!relayFree s x) stNoResource ]
      (fun s => (assignRelay x n (some k) s, { wait := true })) s) s)

/-- LIGHT_RELAY_SWITCH (R85): a light pause to the assigned, warmed relay. -/
def execLightRelaySwitch (k : Nat) (s : State) : Host.Outcome State Fault Refusal :=
  .next (runCmd k 0x0304 (fun c s =>
    let n := c.at 17 1
    let x := (List.range 2).find? (fun x => (s.relay x).port == some n && (s.relay x).state == 2)
    checked [ c.rsvd 16 17, outOfRange (decide (7 < n)) 17, c.rsvd 18 64,
              refuse ((s.lport n).sw != 0) stBusy, refuse x.isNone stNoResource ]
      (fun s => (requestSwitch n (1 + x.getD 0) (some k) s, { wait := true })) s) s)

/-- LIGHT_RELAY_RELEASE (R85): back to the own source, no colour of which is more than 0.5 dB below P0; a port its own fibre serves is refused
(DEDUCED, assumption log 14). -/
def execLightRelayRelease (k : Nat) (s : State) : Host.Outcome State Fault Refusal :=
  .next (runCmd k 0x0305 (fun c s =>
    let n := c.at 17 1
    checked [ c.rsvd 16 17, outOfRange (decide (7 < n)) 17, c.rsvd 18 64,
              outOfRange ((s.lport n).source == 0 || !notBelowP0 s n 50) 17,
              refuse ((s.lport n).sw != 0) stBusy ]
      (fun s => (requestSwitch n 0 (some k) s, { wait := true })) s) s)

end Sys2Proof.Machine
end

