-- ==== Sys2Proof/Machine/Monitor.lean ====
section
/-! DEFINITION. Monitor converters: staged registers, frames and slots, injected sequences, self-tests, the monitor ring (R120 to
R137), and the coolant reading that COOLREF and COOLPWM give (R150 to R152). -/

namespace Sys2Proof.Machine

open Sys2Proof

/-! ### Inputs (R121) -/

/-- Input `i` of converter `k` is wired; a slot that names another returns 0 with VALID set (R121). -/
def monWired (k i : Nat) : Bool :=
  if 28 ≤ i then true
  else if k < 20 then i < 4
  else if k < 36 then i < 12
  else if k < 60 then true
  else if k = 60 then i < 9
  else false

/-- Frames that one result spans (R124, R125). -/
def Mon.window (m : Mon) : Nat := (if m.aFine then 16 else 1) * (if m.aLowpwr then 2 else 1)

/-- MODE of a ring entry: 0 loop rate, 1 fine rate, 2 and 3 the same in low-power mode (R132). -/
def Mon.mode (m : Mon) : Nat := b01 m.aFine + 2 * b01 m.aLowpwr

/-- The 8 bytes of a ring entry (R132). -/
def ringEntry (k i : Nat) (r : BitVec 24) (inj ovr ihi : Bool) (mode beat : Nat) : List Byte :=
  leBytes 8 (r.toNat + 2 ^ 24 * i + 2 ^ 29 * b01 inj + 2 ^ 30 * b01 ovr + 2 ^ 31 * b01 ihi +
    2 ^ 32 * k + 2 ^ 38 * mode + 2 ^ 40 * (beat % 2 ^ 24))

/-- Address of the monitor ring's slot for index `n` in steward SRAM (R132, R137, R288). -/
def ringAddr (s : State) (n : Nat) : Nat := 0x7F0060000000 + 64 * s.ring.base + 8 * (n % 2 ^ s.ring.sizeLog2)

/-- A result goes to the ring, or is dropped from a full one (R133). -/
def toRing (bytes : List Byte) (s : State) : State :=
  if !s.ring.on then s
  else if (s.ring.wr - s.ring.rd).toNat = 2 ^ s.ring.sizeLog2 then
    let was := s.ring.ovf
    let s := { s with ring := { s.ring with ovf := true, drop := min 0xFFFF (s.ring.drop + 1) } }
    if was then s else post 0x0E01 [] s
  else
    let s := wrShown (ringAddr s s.ring.wr.toNat) bytes s
    { s with ring := { s.ring with wr := s.ring.wr + 1 } }

/-! ### The coolant reading (R150, R151) -/

/-- BAD is set, with COOLANT_REF_BAD when it was clear (R150). -/
def coolBad (s : State) : State :=
  let was := s.eng.bad
  let s := { s with eng := { s.eng with bad := true, goodRun := [] } }
  if was then s else post 0x0903 [] s

/-- One step of the first-order filter of 64-beat time constant (R150), in 1/65536 °C: f + (t − f)/64, rounded half to even (DESIGN CHOICE, assumption
log 55). -/
def coolStep (f t : Int) : Int := f + roundEven (t - f) 64

/-- `n` steps of the filter towards `t`. -/
def coolSteps : Nat → Int → Int → Int
  | 0, f, _ => f
  | n + 1, f, t => coolSteps n (coolStep f t) t

/-- A COOLREF reading of MC60 input 8, `n` beats after the one before (R150): V = 2.5·code/2^23 behind the 1:2 divider (21 R504), T = 40·(V − 0.1) °C. -/
def coolRef (code : Int) (n : Nat) (s : State) : State :=
  if 25 * code < 2 ^ 23 ∨ 24 * 2 ^ 23 < 25 * code then coolBad s
  else
    let t := roundEven (code * 25) 32 - 262144
    if s.eng.bad then
      let run := s.eng.goodRun ++ [t]
      if 64 ≤ run.length then
        let f := run.foldl coolStep (run.headD 0)
        post 0x0904 [] { s with eng := { s.eng with bad := false, goodRun := [], coolF := f, coolT := roundEven f 256 } }
      else { s with eng := { s.eng with goodRun := run } }
    else
      let f := coolSteps n s.eng.coolF t
      { s with eng := { s.eng with coolF := f, coolT := roundEven f 256 } }

/-- COOLREF once per beat, at its edge, from the sample of the beat that closed (R130, R150); a failed MC60 counts as out of range. The filter takes
one step for each beat since its last reading, so that a slower rate keeps its time constant (DEDUCED, assumption log 17). -/
def coolRefEdge (s : State) : State :=
  if s.eng.src ≠ 1 then s
  else if (s.mon 60).failed then coolBad s
  else
    let b := s.tim.beat - 1
    match sampleAt s (32 * 60 + 8) b with
    | some r =>
      let n := match s.eng.coolAt with
        | some a => min 1024 (b - a)
        | none => 1
      let s := { s with eng := { s.eng with coolAt := some b } }
      if (s.monLast (32 * 60 + 8)).ovr then coolBad s else coolRef r.toInt n s
    | none => s

/-- The coolant temperature and OFFSET that the set points of the beat use (R152, 01 R26): COOL_SET is taken at the edge. -/
def coolEdge (s : State) : State :=
  let s := coolRefEdge s
  { s with eng := { s.eng with
      offNow := s.eng.offset
      coolT := if s.eng.src = 0 then s.eng.coolSet.toInt else s.eng.coolT } }

/-- COOLPWM_WINDOW (R151): high time in ns of the 64 µs window that ended; T = 112.5·(D − 0.10) °C. BAD set and cleared posts the events of R150, to
which R151 points (DESIGN CHOICE, assumption log 55). -/
def execCoolpwmWindow (high : Nat) (s : State) : Host.Outcome State Fault Refusal :=
  .next (
    if s.eng.src ≠ 2 then s
    else if high < 6400 ∨ 57600 < high then coolBad s
    else
      let t := roundEven ((high : Int) * 225 * 128 - 6400 * 225 * 128) 64000
      let was := s.eng.bad
      let s := { s with eng := { s.eng with bad := false, pwmLost := false, goodRun := [], coolT := t } }
      if was then post 0x0904 [] s else s)

/-- COOLANT_PWM_LOST (R151): 10 ms without an edge. -/
def execCoolantPwmLost (s : State) : Host.Outcome State Fault Refusal :=
  .next (
    if s.eng.src ≠ 2 then s
    else
      let was := s.eng.pwmLost
      let s := { s with eng := { s.eng with pwmLost := true, bad := true, goodRun := [] } }
      if was then s else post 0x0905 [] s)

/-! ### Slots and results -/

/-- The result of converted value `v`: ±2^23 stand for ±1.250 V, and a value beyond them saturates (R131). -/
def saturate (v : Int) : BitVec 24 := BitVec.ofInt 24 (clampI (-(2 ^ 23)) (2 ^ 23 - 1) v)

/-- OVER of a converted value (R131). -/
def overRange (v : Int) : Bool := decide (v < -(2 ^ 23)) || decide (2 ^ 23 < v)

/-- IHI takes effect on diode and EXT_T inputs only (R121, R137). -/
def diodeInput (k i : Nat) : Bool :=
  if k < 20 then false else if k < 36 then i < 4 else if k < 46 then i < 8 else if k = 60 then i < 8 else false

/-- The samples of an input after result `r` in beat `b`: the later result of a beat stands, and the beat before is kept for the loops (R130, 06 R138). -/
def addSample (b : Nat) (r : BitVec 24) (l : List (Nat × BitVec 24)) : List (Nat × BitVec 24) := (b, r) :: (l.filter (fun x => x.1 != b)).take 1

/-- A result of input `i` of converter `k`, its first frame in beat `first` (R130 to R132): the sample of this beat, the latest result, that of a diode at its
current (R123), and the ring; an input that is not wired gives 0 (R121). -/
def deliver (k i : Nat) (v : Int) (inj ihi : Bool) (first : Nat) (s : State) : State :=
  let m := s.mon k
  let v := if monWired k i then v else 0
  let r := saturate v
  let s := s.modMonLast (32 * k + i) (fun l =>
    { result := r, valid := true, ovr := overRange v, inj := inj, samples := addSample s.tim.beat r l.samples
      low := if diodeInput k i && !ihi then some (s.tim.beat, r) else l.low
      high := if diodeInput k i && ihi then some (s.tim.beat, r) else l.high })
  if m.ringEn then toRing (ringEntry k i r inj (overRange v) (ihi && diodeInput k i) m.mode first) s else s

/-- Consumers of a converter that fails or recovers (R136): a primary port's compensation freezes while either of its converters
is failed; a relay is unavailable while any of its tap converters is failed. -/
def monConsumers (s : State) : State :=
  let s := (List.range 8).foldl (fun (s : State) n => s.modLport n (fun p =>
    { p with frozen := (s.mon n).failed || (s.mon (8 + n)).failed })) s
  (List.range 2).foldl (fun (s : State) x => s.modRelay x (fun r =>
    { r with failed := (s.mon (16 + x)).failed || (s.mon (18 + x)).failed })) s

/-! ### Self-tests (R134 to R136) -/

/-- Readings of the remote diodes of bridge die `d` (8 B0, 9 B1) that stand, in 1/128 °C. -/
def bridgeReadings (s : State) (d : Nat) : List Int :=
  (List.range 8).filterMap (fun i => let x := s.sensor (16 * d + i); if x.any && !x.failed then some x.reading else none)

/-- Result `r` of diagnostic input `i` of converter `k` meets its criterion (R135): the applied test voltage, the reference buffer against its factory
value, the supply behind its divider, and the local temperature sensor (scales PRESUMED, assumption log 9). -/
def selfOk (s : State) (k i : Nat) (r : Int) : Bool :=
  match i with
  | 28 => decide ((r - 4194304 * (s.field (k % 32)).testV).natAbs ≤ 4194)
  | 29 => let f := calFactory s (kRef k); decide (5000 * (r - f).natAbs ≤ f.natAbs)
  | 30 => decide (171 * 2 ^ 23 ≤ 250 * r ∧ 250 * r ≤ 189 * 2 ^ 23)
  | _ =>
    let l := bridgeReadings s (if k < 32 then 8 else 9)
    decide (-327680 ≤ r ∧ r ≤ 4096000) && decide ((l.length * r - 256 * l.foldl (· + ·) 0).natAbs ≤ 262144 * l.length)

/-- The verdict of a finished self-test (R136): two consecutive failures set FAILED and post MONITOR_FAULT; a pass clears it. -/
def judgeSelfTest (k : Nat) (s : State) : State :=
  let s := setTestV k 0 s
  let m := s.mon k
  let fails := if m.selfPass then 0 else min 2 (m.selfFails + 1)
  let s := s.setMon k { m with selfRuns := m.selfRuns + 1, selfFails := fails, failed := decide (fails = 2), selfTest := false, selfCmd := none }
  let s := if fails = 2 ∧ !m.failed then post 0x0E02 [] s else s
  let s := monConsumers s
  match m.selfCmd with
  | some c => finishCmd c {} s
  | none => s

/-- The end of an injected slot (R128 to R130, R135). Its result carries the beat in which the slot started (R132), and IHI 0, since MON_INJ names no
current (DESIGN CHOICE, assumption log 55). -/
def endInjSlot (k : Nat) (v : Int) (s : State) : State :=
  let m := s.mon k
  let i := if m.selfTest then 28 + m.injSlot else bits m.aInj.toNat (5 * m.injSlot) 5
  let n := if m.selfTest then 4 else m.aInjLen + 1
  let ok := !m.selfTest || selfOk s k i (saturate v).toInt
  let s := deliver k i v true false m.injBeat s
  let s := s.modMon k (fun m => { m with injBeat := s.tim.beat, selfPass := m.selfPass && ok })
  if m.injSlot + 1 < n then s.modMon k (fun m => { m with injSlot := m.injSlot + 1 })
  else
    let s := s.modMon k (fun m =>
      if m.injPend then { m with injSlot := 0, injPend := false, selfTest := false } else { m with injRun := false, injSlot := 0 })
    if m.selfTest then judgeSelfTest k s else s

/-- The end of a regular slot: a result at loop rate, or in the last frame of its window (R123 to R126, R128). -/
def endSlot (k : Nat) (v : Int) (s : State) : State :=
  let m := s.mon k
  let b := (tget 0 m.aSeq m.nextSlot).toNat
  let w := m.window
  let first := s.tim.beat - (w - 1)
  let slot := m.nextSlot
  let s := s.setMon k { m with nextSlot := slot + 1 }
  if s.tim.beat % w = w - 1 ∧ m.winFrom ≤ first ∧ !m.winMiss.contains slot then
    deliver k (bits b 0 5) v false (bit b 5) first s
  else s

/-- MONITOR_SLOT_END (R123 to R133, R135, R136). -/
def execMonitorSlotEnd (k : Nat) (v : Int) (s : State) : Host.Outcome State Fault Refusal :=
  .next (
    let m := s.mon k
    if m.injRun then endInjSlot k v s
    else if m.aEnable && m.resume && decide (m.nextSlot ≤ m.aSeqLen) then endSlot k v s
    else s)

/-- MONITOR_INJECT_TRIGGER (R127 to R129). -/
def execMonitorInjectTrigger (k trig : Nat) (s : State) : Host.Outcome State Fault Refusal := .next (trigger k trig s)

/-- A self-test of converter `k` starts, whatever its ENABLE, unless an injected sequence runs (R135): the test voltage stands at +0.625 V on even-numbered
runs and −0.625 V on odd-numbered ones. -/
def startSelfTest (k : Nat) (cmd : Option Nat) (s : State) : State :=
  let m := s.mon k
  let cmd := if cmd.isSome then cmd else m.selfCmd
  if m.injRun then s.setMon k { m with selfCmd := cmd }
  else (setTestV k (if m.selfRuns % 2 = 0 then 1 else -1) s).setMon k { startInject true s.tim.beat m with selfPass := true, selfCmd := cmd }

/-- MONITOR_SELFTEST_RUN (R135): the self-test in the converter's turn. -/
def execMonitorSelftestRun (k : Nat) (s : State) : Host.Outcome State Fault Refusal :=
  .next (startSelfTest k none s)

/-! ### Frames (R122, R126, R128) -/

/-- The staged values of a committed converter come into force; ENABLE going to 1 clears VALID of its inputs (R126, R137). An injected run in progress takes
the new inputs and length from its next slot, and ends when ENABLE goes to 0; a self-test goes on (DESIGN CHOICE, assumption log 55). -/
def adoptStaged (beat : Nat) (m : Mon) : Mon :=
  let m' := { m with aEnable := m.enable, aFine := m.fine, aLowpwr := m.lowpwr, aSeqLen := m.seqLen, aInjLen := m.injLen
                     aInj := m.inj, aTrig := m.trig, aSeq := m.seq, commitPend := false }
  let w := m'.window
  { m' with winFrom := (beat + w - 1) / w * w
            injRun := m.injRun && (m.enable || m.selfTest), injPend := m.injPend && m.enable }

/-- The new frame of a converter at a beat edge. -/
def newFrame (beat : Nat) (m : Mon) : Mon :=
  let m := if m.commitPend then adoptStaged beat m else m
  let m := if beat % m.window = 0 then { m with winMiss := [] } else m
  if m.injRun then
    { m with resume := false, skip := if m.aEnable then min 0xFFFF (m.skip + (m.aSeqLen + 1)) else m.skip
             winMiss := List.range (m.aSeqLen + 1) }
  else { m with resume := true, nextSlot := 0 }

/-- Every monitor converter closes its frame and starts a new one (R122). -/
def monitorFrames (s : State) : State :=
  let fresh := (s.mons.filter (fun e => e.2.commitPend && e.2.enable && !e.2.aEnable)).map Prod.fst
  { s with
    mons := tmap {} s.mons (fun _ m => newFrame s.tim.beat m)
    monLasts := tmap {} s.monLasts (fun j l => if fresh.contains (j / 32) then { l with valid := false } else l) }

/-! ### Register writes (R137) -/

/-- The new value of a field of `w` bits at `lo` under a write of `v` with mask `msk`: taken when the mask covers all of it. -/
def fieldW (v msk lo w old : Nat) : Nat := if bits msk lo w = 2 ^ w - 1 then bits v lo w else old

/-- The same for a one-bit field. -/
def bitW (v msk lo : Nat) (old : Bool) : Bool := if bit msk lo then bit v lo else old

/-- Writing MON_CTRL of converter `k`. -/
def writeMonCtrl (k v msk : Nat) (s : State) : State :=
  s.modMon k (fun m => { m with
    enable := bitW v msk 0 m.enable, fine := bitW v msk 1 m.fine, lowpwr := bitW v msk 2 m.lowpwr
    ringEn := bitW v msk 3 m.ringEn, seqLen := fieldW v msk 4 5 m.seqLen, injLen := fieldW v msk 9 2 m.injLen
    commitPend := m.commitPend || (bit v 11 && bit msk 11) })

/-- Writing MON_INJ of converter `k`: staged inputs and triggers, and the request trigger when TRIG_HOST is in force. -/
def writeMonInj (k v msk : Nat) (s : State) : State :=
  let s := s.modMon k (fun m => { m with
    inj := BitVec.ofNat 20 ((List.range 4).foldl (fun a j => a + 2 ^ (5 * j) * fieldW v msk (5 * j) 5 (bits m.inj.toNat (5 * j) 5)) 0)
    trig := BitVec.ofNat 3 ((List.range 3).foldl (fun a j => a + 2 ^ j * b01 (bitW v msk (20 + j) (m.trig.getLsbD j))) 0) })
  if bit v 23 && bit msk 23 then trigger k 2 s else s

/-- Writing MON_SEQ_w of converter `k`: four slot bytes. -/
def writeMonSeq (k w v msk : Nat) (s : State) : State :=
  s.modMon k (fun m => { m with seq := (List.range 4).foldl (fun (t : Tab (BitVec 8)) j =>
    let old := (tget 0 t (4 * w + j)).toNat
    tset 0 t (4 * w + j) (BitVec.ofNat 8 (fieldW v msk (8 * j) 5 (bits old 0 5) + 32 * b01 (bitW v msk (8 * j + 5) (bit old 5))))) m.seq })

/-- Writing MON_RING_CTRL (R137). RING_ON from 0 to 1 sets both indices to 0, unless the ring would pass the end of the 16 MiB of steward SRAM; every write
of 1 to it clears DROP_COUNT. -/
def writeRingCtrl (v msk : Nat) (s : State) : State :=
  let r := if bit v 0 && bit msk 0 then { s.ring with drop := 0 } else s.ring
  let sz := fieldW v msk 1 5 r.sizeLog2
  let sz := if r.on ∨ sz < 10 ∨ 18 < sz then r.sizeLog2 else sz
  let on := bitW v msk 0 r.on
  if on && !r.on then
    if 16777216 < 64 * r.base + 8 * 2 ^ sz then { s with ring := { r with sizeLog2 := sz, cfgErr := true } }
    else { s with ring := { r with sizeLog2 := sz, on := true, wr := 0, rd := 0 } }
  else { s with ring := { r with sizeLog2 := sz, on := on } }

/-- MON_COMMIT_WRITE (R126, R137). -/
def execMonCommitWrite (k : Nat) (w : BitVec 32) (s : State) : Host.Outcome State Fault Refusal :=
  .next (writeMonCtrl k w.toNat 0xFFFFFFFF s)

/-- MON_HOST_INJECT_WRITE (R127, R137). -/
def execMonHostInjectWrite (k : Nat) (w : BitVec 32) (s : State) : Host.Outcome State Fault Refusal :=
  .next (writeMonInj k w.toNat 0xFFFFFFFF s)

/-- MON_RING_ON_WRITE (R137). -/
def execMonRingOnWrite (w : BitVec 32) (s : State) : Host.Outcome State Fault Refusal :=
  .next (writeRingCtrl w.toNat 0xFFFFFFFF s)

end Sys2Proof.Machine
end

