-- ==== Sys2Proof/Machine/Sensors.lean ====
section
/-! DEFINITION. Temperature sensors: which converter reads them, the substitutes of failed ones (R438, R441), and the zone temperatures of the die
thermal loops (R141). Temperatures are in 1/128 °C. -/

namespace Sys2Proof.Machine

open Sys2Proof

/-- Sensors of die `d` (R442); 22 stands for the EXT_T pins. -/
def sensorCount (d : Nat) : Nat := if d < 8 then 16 else if d < 10 then 8 else if d < 22 then 1 else if d = 22 then 8 else 0

/-- Key of sensor `i` of die `d`. -/
def sensorKey (d i : Nat) : Nat := 16 * d + i

/-- The monitor converter that reads a sensor (R121, R438); HBM sensors have none. -/
def sensorConverter (d i : Nat) : Option Nat :=
  if d < 4 then some (20 + 4 * d + i / 4) else if d < 8 then some (36 + 2 * (d - 4) + i / 8) else if d < 10 then some (44 + (d - 8))
  else if d < 22 then none else some 60

/-- The sensor's converter is failed (R136). -/
def converterFailed (s : State) (d i : Nat) : Bool := (sensorConverter d i).any (fun k => (s.mon k).failed)

/-- The monitor input of a diode or an EXT_T pin (R121). -/
def sensorInput (d i : Nat) : Nat := 32 * (sensorConverter d i).getD 0 + (if d < 4 then i % 4 else if d < 8 then i % 8 else i)

/-! ### Conversion (R439) -/

/-- q·ΔV / (η·k·ln 10) − 273.15 in 1/128 °C, for ΔV = n·1.250 V/2^23, η = eta/16384, q/k = 11,604.5 K/V; held within its 16 bits. -/
def diodeTemp (n : Int) (eta : Nat) : Int :=
  let den := 4 * eta * 2302585092994046
  clampI (-32768) 32767 (roundEven (145056250000000000000 * n - 349632 * den) (10 * den))

/-- 1 / (1/298.15 + ln(R/R25)/β) − 273.15 in 1/128 °C, for R = r·1.250 V/2^23 / 10 µA and R25 = 10·r25 Ω; held within its 16 bits. Where no number comes out the
value is free (assumption log 40). -/
def ntcTemp (r : Int) (r25 beta : Nat) : Int :=
  let x : Int := (log2Fix (12500 * r.toNat) : Int) - log2Fix (2 ^ 23 * r25)
  let d : Int := 29815 * x * 693147180559945 + beta * (100 * 2 ^ 32 * 10 ^ 15)
  if r ≤ 0 ∨ r25 = 0 ∨ beta = 0 ∨ d ≤ 0 then (Config.ntcOpen r r25 beta).toInt
  else clampI (-32768) 32767 (roundEven (1280 * 29815 * beta * 2 ^ 32 * 10 ^ 15 - 349632 * d) (10 * d.toNat))

/-- A result of this beat. -/
def ofBeat (s : State) (r : Option (Nat × BitVec 24)) : Option Int := r.bind (fun e => if e.1 = s.tim.beat then some e.2.toInt else none)

/-- The temperature of a sensor (R438, R439): a stack's own reading `v` of 0.25 °C; a diode's from its converter's results of this beat at both currents, an NTC
thermistor's from that at 10 µA. None where a result is missing, or the pin has TYPE 0. -/
def sensorTemp (s : State) (d i : Nat) (v : Int) : Option Int :=
  let l := s.monLast (sensorInput d i)
  if 10 ≤ d ∧ d < 22 then some (clampI (-32768) 32767 (32 * v))
  else if d = 22 ∧ (s.extT i).type = 0 then none
  else if d = 22 ∧ (s.extT i).type = 2 then (ofBeat s l.low).map (fun r => ntcTemp r (s.extT i).r25.toNat (s.extT i).beta.toNat)
  else match ofBeat s l.low, ofBeat s l.high with
    | some a, some b => some (diodeTemp (b - a) (if d = 22 then (s.extT i).eta.toNat else (calFactory s (kEta d i)).toNat))
    | _, _ => none

/-- An EXT_T pin reads outside 0 to 1.20 V (21 R504). -/
def pinOutside (s : State) (d i : Nat) : Bool :=
  let l := s.monLast (sensorInput d i)
  let out := fun (r : Option (Nat × BitVec 24)) => (ofBeat s r).any (fun v => decide (v < 0 ∨ 120 * 2 ^ 23 < 125 * v))
  d == 22 && (out l.low || ((s.extT i).type == 1 && out l.high))

/-- The healthy neighbours of a sensor, searched downwards and upwards (R441): diodes of its die, or stacks of its bridge die's ring. -/
def neighbours (s : State) (d i : Nat) : List Nat :=
  let n := if 10 ≤ d then 6 else sensorCount d
  let at_ := if 10 ≤ d then (d - 10) % 6 else i
  let key := fun (j : Nat) => if 10 ≤ d then sensorKey (10 + (d - 10) / 6 * 6 + j % n) 0 else sensorKey d (j % n)
  let good := fun (k : Nat) => !(s.sensor k).failed && (s.sensor k).any
  let down := ((List.range (n - 1)).map (fun j => key (at_ + n - 1 - j))).find? good
  let up := ((List.range (n - 1)).map (fun j => key (at_ + 1 + j))).find? good
  down.toList ++ up.toList

/-- The substitute of a failed sensor (R441): the larger neighbour plus 10 °C; with no healthy neighbour left, a free value. -/
def substitute (s : State) (d i : Nat) : Int :=
  match (neighbours s d i).map (fun k => (s.sensor k).reading) with
  | [] => signed 16 (Config.freeNat (s.free + sensorKey d i))
  | v :: l => l.foldl max v + 1280

/-- The value that a sensor contributes: its last accepted reading, or its substitute; none before a reading. -/
def sensorValue (s : State) (d i : Nat) : Option Int :=
  let x := s.sensor (sensorKey d i)
  if x.failed then some (substitute s d i) else if x.any then some x.reading else none

/-- Sensor `i` of die `d` has a reading of beat `b`, or is failed, when its substitute stands for one (R438, R441). -/
def sensorFresh (s : State) (d i b : Nat) : Bool :=
  let x := s.sensor (sensorKey d i)
  x.failed || (x.any && (x.hist.getLast?).any (fun h => h.1 == b))

/-- The measured value of die thermal slot `n` on photonic die `d` in Q15, 1 LSB to 1/128 °C: the sum of the die's 16 readings with the factory's weights
(R141, R145); none while a reading of beat `b` is missing. -/
def zoneTemp (s : State) (n d b : Nat) : Option Int :=
  if (List.range 16).all (fun i => sensorFresh s d i b) then
    some (clampI (-32768) 32767 (roundEven ((List.range 16).foldl (fun a i =>
      a + calFactory s (kZone n i) * (sensorValue s d i).getD 0) 0) 65536))
  else none

end Sys2Proof.Machine
end

