-- ==== Sys2Proof/Machine/Loops.lean ====
section
/-! DEFINITION. The loop engine: slots, the loop law, lock, slew, thermal pauses, freezing, test signals and capture (R138 to R162), and
a band's return to dispatch (R174). -/

namespace Sys2Proof.Machine

open Sys2Proof

/-! ### What a slot acts on (R140) -/

/-- Modulator bias instance of a bias slot `s` in beat `b`, within its lane. -/
def biasInst (s b : Nat) : Nat := 16 * (s % 512 - 166) + b % 16

/-- The key under which a slot's loop keeps its state: the slot, or for a bias slot its instance of this beat. -/
def loopKey (s b : Nat) : Nat := if 166 ≤ s % 512 ∧ s % 512 < 295 then 8192 + 16 * s + b % 16 else s

/-- Field of a field loop's slot in beat `b`. -/
def slotField (s b : Nat) : Nat :=
  let l := s / 512
  let k := s % 512
  if k < 64 then 2 * l + k / 32 else if k < 128 then 2 * l + (k - 64) / 32 else if k < 160 then 2 * l + (k - 128) / 16
  else 2 * l + biasInst s b / 1028

/-- Band of an LO phase or receiver offset slot. -/
def slotBand (s : Nat) : Nat := s % 8

/-- Photodiode of a light slot, in the order of R66. -/
def slotTap (s : Nat) : Nat := 5 * (s / 512) + (s % 512 - 160)

/-- KIND of a slot: fixed below k = 295, the register's in the free slots (R162). -/
def slotKind (s : State) (n : Nat) : Nat := if n % 512 < 295 then loopKindOf n else (s.loop n).kind

/-- Every band of a field is fenced or withheld, and one at least is withheld for calibration rather than a test. -/
def fieldHeld (s : State) (f : Nat) : Bool :=
  let x := s.field f
  (x.bandFenced ||| x.bandWithheld) == BitVec.allOnes 8 &&
  (List.range 8).any (fun b => x.bandWithheld.getLsbD b && !(s.band (8 * f + b)).test)

/-- The loop is held: the band or field it acts on is withheld for calibration (R145); a band under test computes (R159). -/
def loopHeld (s : State) (n : Nat) : Bool :=
  let f := slotField n s.tim.beat
  match slotKind s n with
  | 1 => (s.field f).bandWithheld.getLsbD (slotBand n) && !(s.band (8 * f + slotBand n)).test
  | 2 => (s.field f).bandWithheld.getLsbD (slotBand n) && !(s.band (8 * f + slotBand n)).test
  | 3 => fieldHeld s f
  | 4 => fieldHeld s f
  | _ => false

/-- The colour, key 4·port + colour, that photodiode `i` reads. -/
def tapColour (i : Nat) : Nat := if i < 32 then i else if i < 72 then i - 32 else i - 40

/-- The loop does not run: free or unused slot, no bias instance in this beat (R140), an LO phase loop of a fenced band (R55), a light loop of a
colour without P0 (R71), a pre-lock loop whose relay is not assigned or serves (R141). -/
def loopIdle (s : State) (n : Nat) : Bool :=
  let f := slotField n s.tim.beat
  match slotKind s n with
  | 1 => (s.field f).bandFenced.getLsbD (slotBand n)
  | 2 => false
  | 3 => decide (2056 ≤ biasInst n s.tim.beat)
  | 4 => false
  | 5 => (s.lcol (tapColour (slotTap n))).p0.isNone
  | 6 => (s.relay (n / 512 / 4)).state == 3 ||
    (match prelockPort s (n / 512) with
     | some p => (s.lcol (4 * p + n / 512 % 4)).p0.isNone
     | none => true)
  | 7 => false
  | _ => true

/-! ### The loop law (R142 to R144) -/

/-- The product c·e in Q30 of a coefficient with mantissa [15:0] and exponent [19:16] plus `x` (R143, R155). -/
def coefMul (c : BitVec 20) (x : Nat) (e : Int) : Int :=
  signed 16 c.toNat * e * 2 ^ (bits c.toNat 16 4 + x)

def sat40 (i : Int) : Int := clampI (-(2 ^ 39)) (2 ^ 39 - 1) i
def sat16 (i : Int) : Int := clampI (-(2 ^ 15)) (2 ^ 15 - 1) i

/-- The loop's previous output stands at a limit and ki·e drives it further towards that limit (R144). -/
def LoopSlot.heldByLimit (k : LoopSlot) (acq : Nat) (e : Int) : Bool :=
  let v := coefMul k.ki acq e
  (decide (k.out = k.outMax.toInt) && decide (0 < v)) || (decide (k.out = k.outMin.toInt) && decide (v < 0))

/-- The terms of R142 that an error `e` gives: p, the D filter and d. -/
def lawTerms (c k : LoopSlot) (acq : Nat) (e : Int) : Int × Int × Int :=
  let df := if c.dEn then k.df + roundEven (c.dAlpha.toNat * ((e - k.ePrev) - k.df)) (2 ^ 15) else k.df
  (coefMul c.kp acq e, df, if c.dEn then coefMul c.kd 0 df else 0)

/-- One computation of R142. `c` holds coefficients and limits, `k` the loop's own state; `r` is the set point, `tSp` and `tOut` the test signal at its
two points, `acq` the exponent that acquisition adds (R155). A pending bumpless preset sets the integral so that the output before test signals and
limits is the held one (R147). -/
def loopLaw (c k : LoopSlot) (r tSp y n ff tOut : Int) (acq : Nat) : LoopSlot :=
  let e := sat16 (r + tSp - y)
  let x := lawTerms c k acq e
  let x₀ := lawTerms c k acq (sat16 (r - y))
  let i := if k.preset then sat40 (k.out * 2 ^ 15 - x₀.1 - x₀.2.2 - ff * 2 ^ 15)
    else if LoopSlot.heldByLimit { k with outMin := c.outMin, outMax := c.outMax, ki := c.ki } acq e then k.integ
    else sat40 (k.integ + n * coefMul c.ki acq e)
  let acc := sat40 (x.1 + i + x.2.2 + ff * 2 ^ 15)
  let u := clampI c.outMin.toInt c.outMax.toInt (roundEven acc (2 ^ 15) + tOut)
  let u := if c.slew = 0 then u else clampI (k.out - c.slew.toNat) (k.out + c.slew.toNat) u
  { k with
    integ := i, df := x.2.1, ePrev := e, out := u, preset := false
    sat := decide (u = c.outMax.toInt) || decide (u = c.outMin.toInt)
    miss := false, inputFail := false, held := false }

/-- The settling criterion of a kind: largest |e| in Q15 and computations in a row (R141, R155). R141 lists none for an auxiliary loop: |e| ≤ 20 for one
computation, as a light loop (DESIGN CHOICE, assumption log 55). -/
def settle : Nat → Int × Nat
  | 1 => (104, 4)
  | 2 => (25, 16)
  | 3 => (32, 4)
  | 4 => (6, 16)
  | _ => (20, 1)

/-- LOCK after a computation (R141, R155): an LO phase loop keeps it until |e| > 50 mrad. The error that settles a light or pre-lock loop is what its output
still lacks of e (DEDUCED, assumption log 17). -/
def LoopSlot.judge (kind : Nat) (k : LoopSlot) : LoopSlot :=
  let e := if kind = 5 ∨ kind = 6 then clampI k.outMin.toInt k.outMax.toInt k.ePrev - k.out else k.ePrev
  let a : Int := if e < 0 then -e else e
  let ok := decide (a ≤ (settle kind).1)
  let run := if ok then min (settle kind).2 (k.okRun + 1) else 0
  { k with
    okRun := run
    lock := decide (run = (settle kind).2) || (kind == 1 && k.lock && decide (a ≤ 521)) }

/-! ### Set points, test signals, capture -/

/-- Coolant plus OFFSET in 1/25 of a Q15 step, before the clamp of R452: as the last beat edge took them (R152, 01 R26). -/
def coolGoal (s : State) : Int := roundEven (25 * (s.eng.coolT + 256 * s.eng.offNow)) 2

/-- 80 °C, the largest set point (R452). -/
def setPointCap : Int := 256000

/-- The ramped thermal set point after `n` beats: at most 0.020 °C, 64/25 of a Q15 step, per beat (R152), and at most 80 °C (R452). -/
def rampTarget (s : State) (t : Int) (n : Nat) : Int := clampI (t - 64 * n) (t + 64 * n) (min setPointCap (coolGoal s))

/-- PRBS7 of x^7 + x^6 + 1 from all ones (R52): bit `n`, each bit the sum of the bits 6 and 7 places before (DEDUCED, assumption
log 17). `w` holds the last seven bits, the newest in bit 0. -/
def prbsFrom : Nat → Nat → Nat
  | 0, w => bits w 6 1
  | n + 1, w => prbsFrom n (w * 2 % 128 + (bits w 6 1 + bits w 5 1) % 2)

/-- +1 or −1 from prbs7[n mod 127] (R52). -/
def prbs7 (n : Nat) : Int := if prbsFrom (n % 127) 127 = 1 then 1 else -1

/-- Selection indices of a slot in the running test or capture (R159). -/
def selOf (s : State) (n : Nat) : List Nat :=
  ((List.range (s.eng.nslot + 1)).zip [s.eng.sel0, s.eng.sel1, s.eng.sel2, s.eng.sel3]).filterMap
    (fun x => if x.2 = n then some x.1 else none)

/-- The test signal of slot `n` at its next computation (R160). -/
def testSignal (s : State) (n : Nat) : Int :=
  if s.eng.testActive && !(selOf s n).isEmpty then
    let i := tget 0 s.eng.testN n
    match s.eng.signal with
    | 1 => s.eng.ampl.toInt
    | 2 => s.eng.ampl.toInt * prbs7 (i / (s.eng.prbsHold + 1))
    | 3 => sineOf s.eng.ampl.toInt i (s.eng.sineN + 1)
    | _ => 0
  else 0

/-- A computation of slot `n` is counted for the test signal (R160). -/
def testTick (n : Nat) (s : State) : State :=
  if s.eng.testActive && !(selOf s n).isEmpty
  then { s with eng := { s.eng with testN := tset 0 s.eng.testN n (tget 0 s.eng.testN n + 1) } } else s

/-- The 8-byte capture entry (R161). -/
def captureEntry (y u r : Int) (ch : Nat) (sat miss : Bool) (beat : Nat) : BitVec 64 :=
  BitVec.ofNat 64 (image 16 y + 2 ^ 16 * image 16 u + 2 ^ 32 * image 16 r + 2 ^ 48 * ch + 2 ^ 50 * b01 sat +
    2 ^ 51 * b01 miss + 2 ^ 52 * (beat % 4096))

/-- Capture of a computation, or skipped computation, of slot `n` (R161). -/
def capture (n : Nat) (y r : Int) (missed : Bool) (s : State) : State :=
  if !s.eng.capturing then s
  else
    let k := s.loop (loopKey n s.tim.beat)
    (selOf s n).foldl (fun (s : State) ch =>
      if s.eng.count < 65536 then
        { s with eng := { s.eng with
            cap := tset 0 s.eng.cap s.eng.count (captureEntry y k.out r ch k.sat missed s.tim.beat)
            count := s.eng.count + 1 } }
      else s) s

/-- The set point of slot `n` before any test signal, with the thermal ramp that it leaves (R149). -/
def setPoint (s : State) (n : Nat) (k : LoopSlot) (beats : Nat) : Int × Int :=
  let c := s.loop n
  match c.spSrc with
  | 1 => ((s.loop c.cascade).out, k.target)
  | 2 => let t := rampTarget s k.target beats
         (sat16 (roundEven t 25), t)
  | _ => (c.sp.toInt, k.target)

/-! ### Bands: loss of lock and return to dispatch -/

/-- The band's held loops are preset bumplessly at their next computation, to the actuator values that the procedure leaves, and the LO phase offsets are
written into the set points of its LO phase loops (R174, R147). -/
def presetBand (f b : Nat) (s : State) : State :=
  let s := (List.range 4).foldl (fun (s : State) g =>
    let n := loSlot (8 * f + b) g
    let d := s.loop (driveKey n)
    let s := s.modLoop n (fun k => { k with
      preset := true, held := false, out := if d.lastBeat.isSome then d.out else k.out, sp := BitVec.ofInt 16 (calEff s (kLo f b g)) })
    s.modLoop (n + 64) (fun k => { k with preset := true, held := false })) s
  clearDrive (8 * f + b) s

/-- The band returns to dispatch at a halt (R174), unless it is fenced, held, under test or has procedures to run. -/
def returnBand (i : Nat) (s : State) : State :=
  let b := s.band i
  if b.hold || b.test || b.proc != 0 || !b.queue.isEmpty then s
  else
    let s := s.setBand i { b with back := false, planeOk := 0 }
    let s := s.modField (i / 8) (fun x => { x with bandWithheld := x.bandWithheld &&& ~~~(BitVec.twoPow 8 (i % 8)) })
    presetBand (i / 8) (i % 8) s

/-- An LO phase loop lost lock while its band was in service: the band is withheld for a band calibration, and the beat's results carry
STALE_CAL (R155). -/
def loseLock (f b : Nat) (s : State) : State :=
  if bandInService s f b then
    startProc f b 1 [] none (s.modBand (8 * f + b) (fun x => { x with lostLock := true }))
  else s

/-- Slew estimate of a zone: |sum of its last 32 temperatures − sum of the 32 before| (R156); S is that over 131.072 °C/ms. With fewer than 64
computations there is no mean tb, and S is taken as 0 (DESIGN CHOICE, assumption log 55). -/
def slewOf (l : List Int) : Nat :=
  if l.length < 64 then 0 else ((l.take 32).foldl (· + ·) 0 - ((l.drop 32).take 32).foldl (· + ·) 0).natAbs

/-- THERMAL_SLEW above 25 °C/ms for the ops with a slice on field `f` in beat `b` (R157). -/
def flagSlew (b : Nat) (s : State) (f : Nat) : State :=
  if 3276 < (s.field f).slew then flagOps fSlew b (fun g => g == f) (fun _ => true) s else s

/-- A zone's temperature enters the slew estimate of its field, which judges the slices of the previous beat (R156, R157). -/
def noteTemp (n : Nat) (y : Int) (s : State) : State :=
  let f := slotField n s.tim.beat
  let s := s.modLoop n (fun k => { k with temps := (y :: k.temps).take 64 })
  let base := 512 * (f / 2) + 128 + 16 * (f % 2)
  let m := (List.range 16).foldl (fun m z => max m (slewOf (s.loop (base + z)).temps)) 0
  flagSlew (s.tim.beat - 1) (s.modField f (fun x => { x with slew := m })) f

/-- Heater output 0 for 64 consecutive computations posts THERMAL_HEADROOM with field and zone (R152). -/
def headroom (n : Nat) (s : State) : State :=
  let k := s.loop n
  let z := if k.out ≤ 0 then min 64 (k.zeroRun + 1) else 0
  let s := s.setLoop n { k with zeroRun := z, headNoted := decide (z = 64) }
  if z = 64 ∧ !k.headNoted then post 0x0901 (leBytes 1 (slotField n s.tim.beat) ++ leBytes 1 (n % 16)) s else s

/-- LOOP_STUCK: an LO phase or receiver offset loop at SAT or INPUT_FAIL for 1,000 consecutive computations (19 R458). -/
def stuckCheck (n : Nat) (s : State) : State :=
  let kind := slotKind s n
  if kind = 1 ∨ kind = 2 then
    let k := s.loop n
    let r := if k.sat || k.inputFail then min 1000 (k.badRun + 1) else 0
    let s := s.setLoop n { k with badRun := r }
    if r = 1000 ∧ k.badRun < 1000 then raiseFault 0x02 1 (slotField n s.tim.beat) (slotBand n) 0 s else s
  else s

/-! ### LOOP_SLOT_COMPUTE -/

/-- The set point before a test signal, and the measured value of beat `b` = the one that closed last, if there is one. -/
def shownPoint (s : State) (n : Nat) : Int := (setPoint s n (s.loop (loopKey n s.tim.beat)) 0).1

/-- A skipped computation: output, integral, D filter and e_prev hold (R145). -/
def skipSlot (n : Nat) (y : Int) (miss fail held : Bool) (s : State) : State :=
  let s := s.modLoop (loopKey n s.tim.beat) (fun k => { k with miss := miss, inputFail := fail, held := held })
  let s := if loopKey n s.tim.beat = n then s
    else s.modLoop n (fun k => { k with miss := miss, inputFail := fail, held := held })
  capture n y (shownPoint s n) true (if fail then stuckCheck n s else s)

/-- Beats since the last computation of the loop `k` of kind `kind`: 16 for a bias loop that never computed, else 1 (R143). -/
def lawBeats (s : State) (kind : Nat) (k : LoopSlot) : Nat :=
  match k.lastBeat with
  | some b => s.tim.beat - b
  | none => if kind = 3 then 16 else 1

/-- The feed-forward of a die thermal slot in Q15 (R142): the zone's factory coefficient times the supply power of the electronic die above. -/
def heaterFeed (s : State) (n : Nat) : Int :=
  let t := slotField n s.tim.beat / 8
  let results := (List.range 2).flatMap (fun j => (List.range 20).map (fun i => (s.monLast (32 * (36 + 2 * t + j) + 8 + i)).result.toInt))
  sat16 (roundEven (Config.heaterFeed n * Config.supplyPower t results) 65536)

/-- The exponent that acquisition adds to a slot's kp and ki (R155, R158). -/
def acqOf (s : State) (n : Nat) (k : LoopSlot) : Nat :=
  if slotKind s n = 1 ∧ (!k.lock || (s.field (slotField n s.tim.beat)).thPause) then 3 else 0

/-- The result of the loop law for slot `n`, with the test signal at the point it is injected (R142, R160), and the thermal target. -/
def lawOf (s : State) (n : Nat) (y : Int) : LoopSlot × Int :=
  let kind := slotKind s n
  let k := s.loop (loopKey n s.tim.beat)
  let t := testSignal s n
  let (r, target) := setPoint s n k (lawBeats s kind k)
  (loopLaw (s.loop n) k r (if s.eng.point then 0 else t) y (lawBeats s kind k) (if kind = 4 then heaterFeed s n else 0)
    (if s.eng.point then t else 0) (acqOf s n k), target)

/-- A computation under the loop law (R142) and what its output drives. -/
def lawSlot (n : Nat) (y : Int) (s : State) : State :=
  let kind := slotKind s n
  let key := loopKey n s.tim.beat
  let k := s.loop key
  let f := slotField n s.tim.beat
  let r := (setPoint s n k (lawBeats s kind k)).1 + (if s.eng.point then 0 else testSignal s n)
  let x := lawOf s n y
  let lim := s.loop n
  let k' := { LoopSlot.judge kind { x.1 with outMin := lim.outMin, outMax := lim.outMax } with
    outMin := k.outMin, outMax := k.outMax, target := x.2, lastBeat := some s.tim.beat }
  let s := s.setLoop key k'
  let s := if key = n then s
    else s.modLoop n (fun c => { c with out := k'.out, sat := k'.sat, lock := k'.lock, miss := false, inputFail := false, held := false })
  let s := if kind = 1 ∧ k.lock ∧ !k'.lock then loseLock f (slotBand n) s else s
  let s := if kind = 4 then headroom n (noteTemp n y s) else s
  let s := if kind = 5 then tapActs (slotTap n) k'.out s else if kind = 6 then prelockActs (n / 512) k'.out s else s
  testTick n (capture n y r false (stuckCheck n s))

/-- The set point that the calibration sequencer gives the LO phase of band `i` in colour `g` at the current point of a procedure (R173): the LO phase
offset, new once it is accepted; in the LO phase point one third of each run at 20 mrad below it, at it and 20 mrad above it. -/
def pointPhase (s : State) (i g : Nat) : Int :=
  let b := s.band i
  let key := kLo (i / 8) (i % 8) g
  let φ := match b.pend.find? (fun e => e.1 == key) with
    | some e => e.2
    | none => calEff s key
  if b.proc = 1 ∧ b.point = 4 then φ + ((b.symbols % 28672 * 3 / 28672 : Nat) - 1) * 209 else φ

/-- The calibration sequencer's own computation for LO phase slot `n` of a band withheld for a procedure, from the beat's pilot correlation (R173). -/
def driveSlot (n : Nat) (y : Int) (s : State) : State :=
  let f := slotField n s.tim.beat
  let i := 8 * f + slotBand n
  if (s.band i).proc = 0 then s
  else
    let d := s.loop (driveKey n)
    let k := if d.lastBeat.isSome then d else { s.loop n with preset := true }
    s.setLoop (driveKey n) { LoopSlot.judge 1 (loopLaw (s.loop n) k (pointPhase s i (n % 32 / 8)) 0 y (lawBeats s 1 k) 0 0 (acqOf s n k)) with
      lastBeat := some s.tim.beat }

/-- The monitor converter that feeds slot `n`, for the kinds that converters feed (R121, R141). -/
def feedConverter (s : State) (n : Nat) : Option Nat :=
  match slotKind s n with
  | 4 => some (20 + slotField n s.tim.beat / 2)
  | 5 => some (tapConverter (slotTap n))
  | 6 => some (16 + n / 512 / 4)
  | _ => none

/-- The measured value of slot `n` for the beat that closed last and whether there is one (R130, R138, R141): the field's estimators, the zone
temperature, the taps; `y` and `st` for a modulator bias or auxiliary loop. A FAILED converter's result is failed (R136), but a thermal loop computes from
its sensors' substitutes (R145). -/
def inputOf (s : State) (n : Nat) (y : Int) (st : InputState) : Int × InputState :=
  let f := slotField n s.tim.beat
  let x := s.field f
  let b := s.tim.beat - 1
  let given := fun (v : Option Int) => match v with
    | some v => (v, InputState.fresh)
    | none => (0, InputState.missing)
  let tap := fun (j : Nat) (v : Int) => if (s.mon (j / 32)).failed then (v, InputState.failed) else given ((sampleAt s j b).map (fun _ => v))
  match slotKind s n with
  | 1 => given (if x.estBeat = some b then tget none x.loY (n % 32) else none)
  | 2 => given (if x.estBeat = some b then tget none x.offY (n % 32) else none)
  | 4 => given (zoneTemp s n (f / 8) b)
  | 5 => tap (tapInput (slotTap n)) (tapValue s (slotTap n))
  | 6 => tap (tapInput (64 + n / 512)) (prelockValue s (n / 512))
  | _ => (sat16 y, st)

/-- A light loop whose port stands still for a switch (R77) or a failed converter (R136) does not compute. -/
def tapHolds (s : State) (n : Nat) : Bool := slotKind s n == 5 && !tapRuns s (slotTap n)

/-- LOOP_SLOT_COMPUTE (R138 to R145): once in a beat. Without a sample in low-power mode MISS stays clear. -/
def execLoopSlotCompute (slot : Nat) (y : Int) (st : InputState) (s : State) : Host.Outcome State Fault Refusal :=
  .next (
    if 8192 ≤ slot ∨ s.eng.run = false ∨ loopIdle s slot = true ∨ (s.loop slot).slotBeat = some s.tim.beat then s
    else
      let x := inputOf s slot y st
      let s := s.modLoop slot (fun k => { k with slotBeat := some s.tim.beat })
      if (s.loop slot).frozen then capture slot x.1 (shownPoint s slot) true s
      else if loopHeld s slot then
        skipSlot slot x.1 false false true (if slotKind s slot = 1 ∧ x.2 = .fresh then driveSlot slot x.1 s else s)
      else match x.2 with
        | .missing => skipSlot slot x.1 (!(feedConverter s slot).any (fun c => (s.mon c).aLowpwr)) false false s
        | .failed => skipSlot slot x.1 false true false s
        | .fresh => if tapHolds s slot then skipSlot slot x.1 false false false s else lawSlot slot (sat16 x.1) s)

/-! ### Freezing (R147, R148) -/

/-- Writes of SP_SRC: reserved values, source 2 off a thermal slot, and a CASCADE that names a free or unused slot leave the field
unchanged (R149). -/
def spSrcTaken (s : State) (n v : Nat) : Nat :=
  if v = 3 ∨ (v = 2 ∧ slotKind s n ≠ 4) then (s.loop n).spSrc else v

/-- FREEZE may not be set on an LO phase or receiver offset slot whose band is in service (R148). -/
def freezeRefused (s : State) (n : Nat) : Bool :=
  (slotKind s n == 1 || slotKind s n == 2) && bandInService s (slotField n s.tim.beat) (slotBand n)

/-- A write of word +0x00 of a slot, of the fields whose mask bits are set (R162). -/
def writeSlotWord0 (n : Nat) (w msk : BitVec 32) (s : State) : State :=
  let v := w.toNat
  let m := msk.toNat
  let c := s.loop n
  s.setLoop n { c with
    kind := if n % 512 < 295 ∨ bits m 0 4 ≠ 15 ∨ 8 ≤ bits v 0 4 then c.kind else bits v 0 4
    spSrc := if bits m 16 2 = 3 then spSrcTaken s n (bits v 16 2) else c.spSrc
    dEn := if bit m 18 then bit v 18 else c.dEn
    freeze := if bit m 19 then bit v 19 && !freezeRefused s n else c.freeze
    bumpless := if bit m 20 then bit v 20 else c.bumpless }

/-- LP_FREEZE_WRITE: a write of word +0x00 of LP_SLOT_s (R147, R148). -/
def execLpFreezeWrite (n : Nat) (w : BitVec 32) (s : State) : Host.Outcome State Fault Refusal :=
  .next (if n < 8192 then writeSlotWord0 n w (BitVec.allOnes 32) s else s)

/-- LOOP_FREEZE_TIMEOUT (R148): released at the next beat edge, with the event. -/
def execLoopFreezeTimeout (n : Nat) (s : State) : Host.Outcome State Fault Refusal :=
  .next (
    let c := s.loop n
    if c.frozen ∧ c.freeze ∧ c.frozenAt + 64 ≤ s.tim.beat then
      post 0x0D01 (leBytes 2 n) (s.setLoop n { c with freeze := false })
    else s)

/-- The freeze state of slot `n` at a beat edge (R147). -/
def freezeEdge (n : Nat) (s : State) : State :=
  let c := s.loop n
  if c.freeze && !c.frozen then s.setLoop n { c with frozen := true, frozenAt := s.tim.beat }
  else if !c.freeze && c.frozen then
    let s := s.setLoop n { c with frozen := false, preset := c.preset || c.bumpless }
    if c.bumpless && loopKindOf n == 3 then
      (List.range 16).foldl (fun (s : State) i => s.modLoop (8192 + 16 * n + i) (fun k => { k with preset := true })) s
    else s
  else s

/-! ### Test injection and capture (R159 to R161) -/

/-- The slots selected for a test. -/
def testSlots (s : State) : List Nat := [s.eng.sel0, s.eng.sel1, s.eng.sel2, s.eng.sel3].take (s.eng.nslot + 1)

/-- The bands that a tested loop acts on, as keys 8·field + band (R159). -/
def testBands (s : State) (n : Nat) : List Nat :=
  let all := fun (f : Nat) => (List.range 8).map (fun b => 8 * f + b)
  let f := slotField n s.tim.beat
  match slotKind s n with
  | 1 => [8 * f + slotBand n]
  | 2 => [8 * f + slotBand n]
  | 3 => (((List.range 16).map (fun j => 2 * (n / 512) + biasInst n j / 1028)).eraseDups.filter (fun g => g / 2 == n / 512)).flatMap all
  | 4 => all f
  | 5 =>
    let i := slotTap n
    let port := if i < 32 then some (i / 4) else if i < 64 then some ((i - 32) / 4)
      else (s.relay (if i < 72 then (i - 64) / 4 else (i - 72) / 4)).port
    (port.map (fun p => ((fieldsOfPort p).map all).flatten)).getD []
  | 6 => ((s.relay (n / 512 / 4)).port.map (fun p => ((fieldsOfPort p).map all).flatten)).getD []
  | _ => []

/-- A test may start: its slots hold loops, no test runs, and no procedure or hold is on their bands (R159, R181). -/
def testBadSlot (s : State) : Bool := (testSlots s).any (fun n => slotKind s n == 0)

def bandBusy (b : Band) : Bool := b.proc != 0 || !b.queue.isEmpty || b.test || b.hold || b.done || b.back

def testBusy (s : State) : Bool :=
  s.eng.testActive || s.eng.startPend || s.eng.settling || ((testSlots s).map (testBands s)).flatten.any (fun i => bandBusy (s.band i))

/-- A write of LP_TEST_CTRL, of the fields whose mask bits are set (R159, R161, R162): START and STOP act at the next beat edge. -/
def writeTestCtrl (v msk : Nat) (s : State) : State :=
  let e := s.eng
  let s := { s with eng := { e with
    signal := if bits msk 0 2 = 3 then bits v 0 2 else e.signal
    point := if bit msk 2 then bit v 2 else e.point
    prbsHold := if bits msk 5 8 = 255 then bits v 5 8 else e.prbsHold
    stopPend := e.stopPend || (bit v 4 && bit msk 4 && e.testActive) } }
  if bit v 3 && bit msk 3 && !testBadSlot s && !testBusy s then { s with eng := { s.eng with startPend := true } } else s

/-- LP_TEST_START: a write of LP_TEST_CTRL with START (R159, R162). -/
def execLpTestStart (w : BitVec 32) (s : State) : Host.Outcome State Fault Refusal := .next (writeTestCtrl w.toNat 0xFFFFFFFF s)

/-- LP_TEST_STOP: a write of LP_TEST_CTRL with STOP (R161). -/
def execLpTestStop (w : BitVec 32) (s : State) : Host.Outcome State Fault Refusal := .next (writeTestCtrl w.toNat 0xFFFFFFFF s)

/-- Slot `n`'s loop has settled; a bias slot's, when all its instances have (R140, R159). -/
def slotSettled (s : State) (n : Nat) : Bool :=
  if slotKind s n = 3 then (List.range 16).all (fun j => decide (2056 ≤ biasInst n j) || (s.loop (8192 + 16 * n + j)).lock) else (s.loop n).lock

/-- CAPTURE_BUFFER_FULL (R161): the capture ends and CAP_DONE is set; the test signal goes on until STOP (DESIGN CHOICE, assumption log 55). -/
def execCaptureBufferFull (s : State) : Host.Outcome State Fault Refusal :=
  .next (if s.eng.capturing ∧ s.eng.count = 65536 then { s with eng := { s.eng with capturing := false, capDone := true } } else s)

/-- The start of a test at a beat edge: the bands are withheld, signal and capture begin, and `loop.test` completes with `accepted` (R159, R394). -/
def testStartEdge (s : State) : State :=
  if !s.eng.startPend then s
  else
    let s := { s with eng := { s.eng with startPend := false, testActive := true, capturing := true, count := 0, testN := [], settling := false } }
    let s := (((testSlots s).map (testBands s)).flatten).foldl (fun (s : State) i =>
      let s := s.modBand i (fun b => { b with test := true })
      s.modField (i / 8) (fun x => { x with bandWithheld := x.bandWithheld ||| (BitVec.twoPow 8 (i % 8) &&& ~~~ x.bandFenced) })) s
    match s.eng.testCmd with
    | some k => finishCmd k { status := stAccepted } { s with eng := { s.eng with testCmd := none } }
    | none => s

/-- The end of a test at a beat edge (R161), and the return of its bands once every tested loop has settled (R159). -/
def testStopEdge (s : State) : State :=
  let s := if s.eng.stopPend then
      { s with eng := { s.eng with stopPend := false, testActive := false, capturing := false, capDone := true, settling := true } }
    else s
  if s.eng.settling && (testSlots s).all (slotSettled s) then
    let s := { s with eng := { s.eng with settling := false } }
    (s.bands.filter (fun e => e.2.test)).foldl (fun (s : State) e =>
      returnBand e.1 (s.modBand e.1 (fun b => { b with test := false }))) s
  else s

/-! ### Halts and the thermal pause -/

/-- Re-centring of an LO phase loop beyond ±0.75 (R154). -/
def LoopSlot.recentre (k : LoopSlot) : LoopSlot :=
  if 24576 < k.out then { k with out := k.out - 32768, integ := sat40 (k.integ - 2 ^ 30) }
  else if k.out < -24576 then { k with out := k.out + 32768, integ := sat40 (k.integ + 2 ^ 30) }
  else k

/-- ΔT of a zone: its last measured value less its set point (R153). -/
def zoneDelta (s : State) (n : Nat) : Int := (s.loop n).temps.headD 0 - (setPoint s n (s.loop n) 0).1

/-- The feed-forward that the device adds to an LO phase shifter or a bias DAC (R153): the factory's coefficient times the mean ΔT of the band's
zones, or the ΔT of the zone nearest the row, as the last halt latched them. -/
def thermalFeed (s : State) (key : Nat) : Int :=
  let n := if key < 8192 then key else (key - 8192) / 16
  let f := slotField n (key % 16)
  let dT := fun (z : Nat) => (s.loop (512 * (f / 2) + 128 + 16 * (f % 2) + z % 16)).feedFwd
  let zs := if key < 8192 then Config.bandZones (8 * f + slotBand n) else [Config.rowZone key]
  roundEven (Config.thermalCoef key * roundEven (zs.foldl (fun a z => a + dT z) 0) zs.length) 65536

/-- What the actuator of slot or instance `key` receives: the loop's output, or the calibration sequencer's (R173), with the feed-forward of R153. -/
def actuator (s : State) (key : Nat) : Int :=
  let d := s.loop (driveKey key)
  (if key < 8192 ∧ d.lastBeat.isSome then d.out else (s.loop key).out) + thermalFeed s key

/-- The DAC codes that outputs give (R141): a band's common-offset DAC, a modulator bias DAC, a zone heater DAC. -/
def offsetDac (u : Int) : Int := clampI (-2048) 2047 (roundEven u 16)
def biasDac (u : Int) : Int := clampI (-8192) 8191 (roundEven u 4)
def heaterDac (u : Int) : Int := clampI 0 4095 (roundEven (u * 4095) 32768)

/-- COMMON_OFFSET of every band that is not withheld, as this halt finds it (R119, R173). -/
def latchOffsets (s : State) : State :=
  (s.loops.filter (fun e => decide (e.1 < 8192) && loopKindOf e.1 == 2 &&
      !(s.field (slotField e.1 0)).bandWithheld.getLsbD (slotBand e.1))).foldl (fun (s : State) e =>
    s.modField (slotField e.1 0) (fun x => { x with commonOff := tset 0 x.commonOff (e.1 % 32) (offsetDac e.2.out) })) s

/-- The loop engine at a beat edge: freezes and releases, re-centring, the halt's thermal compensation, the slew of the beat before last, tests. -/
def loopEdge (s : State) : State :=
  let keys := s.loops.map Prod.fst
  let s := (keys.filter (fun n => decide (n < 8192))).foldl (fun (s : State) n => freezeEdge n s) s
  let s := { s with loops := keys.foldl (fun t n =>
      let d := loopReset n
      let k := tget d t n
      tset d t n (if (n < 8192 ∧ loopKindOf n = 1) ∨ driveKey 0 ≤ n then k.recentre
        else if n < 8192 ∧ loopKindOf n = 4 then { k with feedFwd := zoneDelta s n } else k)) s.loops }
  let s := (List.range 32).foldl (flagSlew (s.tim.beat - 2)) (latchOffsets s)
  testStartEdge (testStopEdge s)

/-- THERMAL_PAUSE_START (R158): from the next beat edge no slice on the field or its group-mates. -/
def execThermalPauseStart (f : Nat) (s : State) : Host.Outcome State Fault Refusal :=
  .next (if f < 32 ∧ 7864 < (s.field f).slew ∧ !(s.field f).thPause then s.modField f (fun x => { x with thPauseReq := true }) else s)

/-- Thermal pauses that start at this edge: the field's LO phase loops acquire again (R158, R155). -/
def thermalEdge (s : State) : State :=
  let fs := (List.range 32).filter (fun f => (s.field f).thPauseReq)
  let s := fs.foldl (fun (s : State) f => s.modField f (fun x => { x with thPauseReq := false, thPause := true, thPauseAt := s.tim.beat })) s
  if fs.isEmpty then s else reacquire fs s

/-- Every LO phase loop of band `b` is locked. -/
def bandLocked (s : State) (f b : Nat) : Bool :=
  (List.range 4).all (fun g => (s.loop (512 * (f / 2) + 32 * (f % 2) + 8 * g + b)).lock)

/-- THERMAL_PAUSE_END (R158): after 5 beats and every band relocked, or at 20 beats, when a band not locked is withheld for calibration. -/
def execThermalPauseEnd (f : Nat) (s : State) : Host.Outcome State Fault Refusal :=
  .next (
    let x := s.field f
    let loose := (List.range 8).filter (fun b => bandInService s f b && !bandLocked s f b)
    let n := s.tim.beat - x.thPauseAt
    if x.thPause ∧ 5 ≤ n ∧ (loose = [] ∨ 20 ≤ n) then
      let s := s.setField f { x with thPause := false }
      let s := loose.foldl (fun (s : State) b => startProc f b 1 [] none s) s
      post 0x0902 (leBytes 1 f ++ leBytes 2 n) s
    else s)

end Sys2Proof.Machine
end

