-- ==== Sys2Proof/Machine/Calib.lean ====
section
/-! DEFINITION. Calibration: procedures and their points, cadence, the halt in which results take effect, the known-answer check, and the
calibration commands (R163 to R190). -/

namespace Sys2Proof.Machine

open Sys2Proof

/-! ### What a calibration measures (R170 to R173) -/

/-- Band `i` returns at the next halt with the held actuator values (R181). -/
def abandonProc (i : Nat) (s : State) : State := (dropProc i s).modBand i (fun b => { b with back := true })

/-- Field `f` or band `b` of it is fenced. -/
def bandOut (s : State) (i : Nat) : Bool := (s.field (i / 8)).fenced || (s.field (i / 8)).bandFenced.getLsbD (i % 8)

/-- The colours that calibration measures on field `f`: the set in force, before the first op the default mode's (R25, R47), less those
disabled device-wide (R181). -/
def calColours (s : State) (f : Nat) : List Nat :=
  let m := (s.field f).colours
  let set := if m = 0 then (colourSet s (if licensed s 0 then 2 else 1)).getD [] else (List.range 4).filter (fun g => m.getLsbD g)
  set.filter (fun g => !s.light.disabled.getLsbD g)

/-- Samples that one run of a point takes (07, *Band calibration*, *Cell and row calibration*): at 10 GBd one a symbol, at 5 GBd two, so that a run takes
half as many symbols (R171). -/
def runLength (proc point : Nat) : Nat :=
  match proc with
  | 1 => if point = 4 then 28672 else 4096
  | 2 => 2048
  | 3 => 4352
  | _ => 4096

/-- The last point of a procedure: band calibration has four offset points, the LO phase point and four gain points; cell calibration 257 null points, 257
confirming ones and two code settings for each of 256 rows; row calibration one point for each row. -/
def lastPoint (proc : Nat) : Nat :=
  match proc with
  | 1 => 8
  | 2 => 1025
  | _ => 255

/-- The calibrated quantities that a point of a procedure measures on band `b` of field `f` in the colours `gs`. -/
def pointKeys (f b proc point : Nat) (gs : List Nat) : List Nat :=
  let cols := (List.range 32).map (fun c => 32 * b + c)
  match proc with
  | 1 =>
    if point < 4 then cols.flatMap (fun c => gs.flatMap (fun g => [kOffset f c g point, kPilot f c g point]))
    else if point = 4 then gs.map (kLo f b)
    else cols.flatMap (fun c => gs.map (fun g => kGain f c g (point - 5)))
  | 2 =>
    if point < 514 then cols.map (kTrim f (point % 257))
    else if point % 2 = 0 then [] else cols.map (kResp f ((point - 514) / 2))
  | _ => gs.flatMap (fun g => (List.range 17).map (kKnot f point g))

/-- The HEADROOM setting at which the receivers of band `i` run: that of the point of a procedure or of the quick gain, else the field's (R96; DEDUCED,
assumption log 18). -/
def bandHead (s : State) (i : Nat) : Nat :=
  let b := s.band i
  match b.proc with
  | 0 => if b.qg = 1 then b.qgPoint else (s.field (i / 8)).headroom
  | 1 => if b.point < 4 then b.point else if b.point = 4 then 2 else b.point - 5
  | _ => 3

/-- A running known-answer check, from the edge that withholds the field's bands (R187). -/
def Field.kaOn (x : Field) : Bool := x.kaCheck.isSome && x.kaAt != 0

/-- The weight code of cell (r, c) in stage `m` of the known-answer check: the onion sweep's layers up to `m` (R186), or the dense stage (R187). -/
def kaCode (m r c : Nat) : BitVec 8 :=
  if m < 8 then
    let lay := min (min r (255 - r)) (min c (255 - c)) / 16
    if lay ≤ m then BitVec.ofInt 8 (prbs7 ((r + 3 * c) % 127) * (127 - 16 * lay)) else 0
  else BitVec.ofInt 8 (((37 * r + 101 * c) % 255 : Nat) - 127)

/-- The calibration code that a fill writes into cell (r, c) of a withheld band, in place of cell-off (R172): +127 for band and row calibration and
quick gain; in cell calibration 0, and at a gain point ±127 in the row under test; a known-answer check's stage. -/
def procCode (s : State) (f r c : Nat) : Option (BitVec 8) :=
  let x := s.field f
  let b := s.band (8 * f + c / 32)
  if x.kaOn then some (kaCode x.kaStage r c)
  else match b.proc with
    | 0 => if b.qg = 1 then some 127 else none
    | 2 => some (if b.point < 514 ∨ r ≠ (b.point - 514) / 2 then 0 else if b.point % 2 = 0 then 127 else -127)
    | _ => some 127

/-- The live plane of field `f` was filled after the codes set at `t` ns: the fill takes 64 ns (R92, R172). -/
def filledAfter (s : State) (f t : Nat) : Bool :=
  match (s.field f).liveAt with
  | some a => decide (t + 64 ≤ a)
  | none => false

/-- A light pause that switches the field's source, or a thermal pause on the field (R181). -/
def fieldPaused (s : State) (f : Nat) : Bool := (s.field f).thPause || decide (2 ≤ (s.lport (portOfField f)).sw)

/-- The procedure on band `i` still lacks symbols of its point, and this slot may give them (R169, R172, R181, 04 R95). -/
def runOpen (s : State) (i : Nat) : Bool :=
  let b := s.band i
  b.proc != 0 && !b.done && decide (b.symbols < 2 * runLength b.proc b.point) && !bandOut s i && !fieldPaused s (i / 8) && s.cal.refvOk &&
  b.trimLeft == 0 && filledAfter s (i / 8) b.codesAt

/-- The quick gain of band `i` still lacks symbols of its point, and this slot may give them: its LO phases have locked again (R79, R169, R172). -/
def quickOpen (s : State) (i : Nat) : Bool :=
  let b := s.band i
  b.qg == 1 && decide (b.qgSymbols < 8192) && !bandOut s i && s.cal.refvOk && (s.lport (portOfField (i / 8))).sw == 3 &&
  filledAfter s (i / 8) (1000 * (s.lport (portOfField (i / 8))).settledAt) && (calColours s (i / 8)).all (fun g => (s.loop (loSlot i g)).lock)

/-- The band whose procedure, or quick gain, supplies the symbols of a calibration slot on field `f`: the lowest (DESIGN CHOICE, assumption log 18). -/
def servedBand (s : State) (f : Nat) (p : State → Nat → Bool) : Option Nat := (List.range 8).find? (fun b => p s (8 * f + b))

/-- The sign of a calibration symbol: alternating blocks of 64 (07, *Band calibration*). -/
def blockSign (n : Nat) : Int := if n / 64 % 2 = 0 then 1 else -1

/-- DAC code of knot `i` of a row calibration. -/
def knotCode (i : Nat) : Int := if i = 0 then -127 else if i = 16 then 127 else 16 * (i : Int) - 128

/-- The input code a of a known-answer check (R187). -/
def kaAmplitude (head : Nat) : Nat := min 127 (512 / headDiv head)

/-- The byte of row `r` in colour `g` that the calibration sequencer supplies on field `f`: none for dark (R170, R187). -/
def calByte (s : State) (f r g : Nat) : Option (BitVec 8) :=
  let x := s.field f
  if !(calColours s f).contains g then none
  else if x.kaOn then
    if x.kaStage < 9 ∧ filledAfter s f x.kaAt = true then
      some (BitVec.ofInt 8 (kaAmplitude x.headroom * prbs7 ((r + 7 * x.kaTok + 31 * g) % 127)))
    else none
  else match servedBand s f quickOpen with
  | some b =>
    let y := s.band (8 * f + b)
    some (BitVec.ofInt 8 (blockSign y.qgSymbols * (64 / headDiv y.qgPoint : Nat)))
  | none =>
    match servedBand s f runOpen with
    | none => none
    | some b =>
      let y := s.band (8 * f + b)
      let n := y.symbols % runLength y.proc y.point
      match y.proc with
      | 1 => some (if y.point < 4 then 0 else BitVec.ofInt 8 (blockSign n * (64 / headDiv (bandHead s (8 * f + b)) : Nat)))
      | 2 => if r = (if y.point < 514 then y.point % 257 else (y.point - 514) / 2) then some (BitVec.ofInt 8 (127 * blockSign n)) else none
      | _ => if r = y.point then some (BitVec.ofInt 8 (knotCode (n / 256))) else none

/-- The calibration symbols of field `f`, and whether the DACs take them past the table (row calibration, R170, R172). -/
def calFeed (s : State) (f : Nat) : Tab (BitVec 8) × Bool :=
  ((List.range 1024).filterMap (fun k => (calByte s f (k / 4) (k % 4)).map (fun b => (k, b))),
   !(s.field f).kaOn && (servedBand s f quickOpen).isNone &&
     match servedBand s f runOpen with
     | some b => (s.band (8 * f + b)).proc == 3
     | none => false)

/-! ### Runs (R171, R175, R176) -/

/-- A beat of a run is out of limits: field slew above 25 °C/ms, or the light at F2 or worse on a measured colour (R176). -/
def beatMarred (s : State) (f : Nat) : Bool :=
  decide (3276 < (s.field f).slew) || (calColours s f).any (fun g => decide (2 ≤ (s.lcol (4 * portOfField f + g)).level))

/-- Start of the run that `n` samples have reached. -/
def runStart (n len : Nat) : Nat := n - n % len

/-- CAL_ABANDONED for band `i` of procedure `proc` (R176). -/
def postAbandoned (i proc : Nat) (s : State) : State :=
  post 0x0402 (leBytes 1 (i / 8) ++ leBytes 1 (if proc = 3 then 0xFF else i % 8) ++ leBytes 1 proc) s

/-- The run in progress of band `i`'s procedure is void and is repeated from `start`; the sixteenth void run abandons the procedure (R176). -/
def voidRun (i start : Nat) (s : State) : State :=
  let b := s.band i
  if 16 ≤ b.voids + 1 then postAbandoned i b.proc (abandonProc i s)
  else s.setBand i { b with voids := b.voids + 1, symbols := start, marred := false }

/-- `k` samples of a calibration slot count for band `i`'s point; a run that ends marred is void. -/
def addSymbols (k : Nat) (bad : Bool) (i : Nat) (s : State) : State :=
  let b := s.band i
  let len := runLength b.proc b.point
  let start := runStart b.symbols len
  let m := b.marred || bad
  let n := min (b.symbols + k) (start + len)
  if n = start + len ∧ (m || beatMarred s (i / 8)) = true then voidRun i start s
  else s.setBand i { b with symbols := n, marred := m && decide (n < start + len) }

/-- The quick gain of port `n` is dropped: it applies nothing (R177, R181). -/
def dropQuick (n : Nat) (s : State) : State :=
  (fieldsOfPort n).foldl (fun (s : State) f => (List.range 8).foldl (fun (s : State) b =>
    s.modBand (8 * f + b) (fun x => if x.qg = 0 then x else { x with qg := 3, qgPend := [] })) s) s

/-- The same for the quick gain of band `i`. -/
def addQuick (k : Nat) (bad : Bool) (i : Nat) (s : State) : State :=
  let b := s.band i
  let start := runStart b.qgSymbols 4096
  let m := b.qgMarred || bad
  let n := min (b.qgSymbols + k) (start + 4096)
  if n = start + 4096 ∧ (m || beatMarred s (i / 8)) = true then
    if 16 ≤ b.qgVoids + 1 then postAbandoned i 4 (dropQuick (portOfField (i / 8)) s)
    else s.setBand i { b with qgVoids := b.qgVoids + 1, qgSymbols := start, qgMarred := false }
  else s.setBand i { b with qgSymbols := n, qgMarred := m && decide (n < start + 4096) }

/-! ### Points (R175 to R177) -/

/-- A quantity of a colour that is disabled device-wide (R47, R181). -/
def disabledKey (s : State) (key : Nat) : Bool := s.light.disabled.getLsbD (suspectDetail key / 256 % 256)

/-- The ADC slices of band `b` with their present offset, gain trim and skew tap, which band calibration records as the user layer's values
(step 5, R165). -/
def sliceState (s : State) (f b : Nat) : List (Nat × Int) :=
  ((List.range 32).map (fun c => ((List.range 4).map (fun g => ((List.range 16).map (fun i =>
    let a := s.adc (((f * 256 + (32 * b + c)) * 4 + g) * 16 + i)
    [(kSlice 7 f (32 * b + c) g i, a.offset), (kSlice 8 f (32 * b + c) g i, (a.gainTrim.toNat : Int) - 128),
     (kSlice 9 f (32 * b + c) g i, (a.skew : Int))])).flatten)).flatten)).flatten

/-- The value of key `k` among accepted ones. -/
def pendVal (l : List (Nat × Int)) (k : Nat) : Int := (l.find? (fun e => e.1 == k)).elim 0 (fun e => e.2)

/-- Gain entries of band `b` from the responses of its cells: T is the product of the row's and the column's mean over the band's, and the entry
round_half_even(16384·(c_cell·T/R − 1)) (07, *Cell and row calibration*, step 6). -/
def gainEntries (s : State) (f b : Nat) (l : List (Nat × Int)) : List (Nat × Int) :=
  let resp := fun (r c : Nat) => pendVal l (kResp f r (32 * b + c))
  let row := (List.range 256).map (fun r => (List.range 32).foldl (fun a c => a + resp r c) 0)
  let col := (List.range 32).map (fun c => (List.range 256).foldl (fun a r => a + resp r c) 0)
  let all := row.foldl (· + ·) 0
  (List.range 256).flatMap (fun r => (List.range 32).map (fun c =>
    let k := kCellGain f r (32 * b + c)
    (k, roundEven ((16384 + calEff s k) * (row.getD r 0) * (col.getD c 0)) (all * resp r c).toNat - 16384)))

/-- The DAC code at which the linear interpolation of the response `y` of 17 knots equals m·x, with 127·100·m = 95·`top`; none beyond the knots (07, *Cell
and row calibration*, step 4). -/
def tableEntry (y : List Int) (top x : Int) : Option Int :=
  let t := 95 * top * x
  ((List.range 16).find? (fun i => decide (12700 * y.getD i 0 ≤ t ∧ t ≤ 12700 * y.getD (i + 1) 0))).map (fun i =>
    let dy := y.getD (i + 1) 0 - y.getD i 0
    roundEven (knotCode i * (12700 * dy) + (t - 12700 * y.getD i 0) * (knotCode (i + 1) - knotCode i)) (12700 * dy).toNat)

/-- The pre-distortion tables of field `f` from the knots of every row, by colour; an entry that no knot reaches lies outside its range. -/
def tableEntries (f : Nat) (gs : List Nat) (l : List (Nat × Int)) : List (Nat × Int) :=
  gs.flatMap (fun g =>
    let y := fun (r : Nat) => (List.range 17).map (fun i => pendVal l (kKnot f r g i))
    let ends := (List.range 256).flatMap (fun r => [(y r).getD 16 0, -((y r).getD 0 0)])
    let top := ends.foldl min (ends.headD 0)
    (List.range 256).flatMap (fun r => (List.range 255).map (fun x =>
      (kPre f r g (x + 1), (tableEntry (y r) top ((x : Int) - 127)).getD 1000))))

/-- What the finished procedure changes, from what its points accepted. -/
def procValues (s : State) (f b proc : Nat) (l : List (Nat × Int)) : List (Nat × Int) :=
  match proc with
  | 1 => l ++ sliceState s f b
  | 2 => l.filter (fun e => e.1 % 16 == 1) ++ gainEntries s f b l
  | _ => tableEntries f ((List.range 4).filter (fun g => l.any (fun e => e.1 == kKnot f 0 g 0))) l

/-- An estimate pair fails its point: the runs disagree (R175), a confirming null point leaves more than 0.001 of transmission, or a row's response does not
rise from knot to knot. -/
def pairFails (s : State) (proc point : Nat) (q : List PointEst) (p : PointEst) : Bool :=
  let m := calMean p.first p.second
  let held := tget 0 s.cal.trims p.key + calFactory s p.key
  !calAgree p.key p.first p.second ||
  (decide (proc = 2 ∧ 257 ≤ point ∧ point < 514) && decide (1000 < 195 * (m - held) ∨ 1000 < 195 * (held - m))) ||
  (decide (proc = 3) && decide (0 < p.key / 16 % 17) &&
    (q.find? (fun z => decide (z.key + 16 = p.key))).any (fun z => decide (m ≤ calMean z.first z.second)))

/-- The next point of band `i`'s procedure: new codes are set at a cell's gain point, and before the confirming points the trim converters write the new phase
trims (R172, 04 R95). -/
def nextPoint (i now : Nat) (vals : List (Nat × Int)) (s : State) : State :=
  let b := s.band i
  s.setBand i { b with
    point := b.point + 1, symbols := 0, repeats := 0, marred := false, moves := 0
    pend := vals.foldl (fun t v => tins v.1 v.2 (tdel t v.1)) b.pend
    codesAt := if b.proc = 2 ∧ 514 ≤ b.point + 1 then now else b.codesAt
    trimLeft := if b.proc = 2 ∧ b.point + 1 = 257 then 4112 else b.trimLeft }

/-- The procedure of band `i` has passed its last point: what it changes waits for the next halt, unless a value breaks its limits (R177, R180). -/
def finishProc (i : Nat) (vals : List (Nat × Int)) (s : State) : State :=
  let b := s.band i
  let all := procValues s (i / 8) (i % 8) b.proc (b.pend ++ vals)
  match all.find? (fun v => !calInRange s v.1 v.2) with
  | some v => failQuantity i b.proc v.1 s
  | none =>
    { s.setBand i { b with done := true, doneAt := s.cal.accepts, pend := all.foldl (fun t v => tins v.1 v.2 (tdel t v.1)) [] } with
      cal := { s.cal with accepts := s.cal.accepts + 1 } }

/-- The vertex of the LO phase point lies beyond ±20 mrad of the centre (07, *Band calibration*, step 3). -/
def beyondCentre (s : State) (b : Band) (v : Nat × Int) : Bool :=
  let φ := match b.pend.find? (fun e => e.1 == v.1) with
    | some e => e.2
    | none => calEff s v.1
  decide (209 < v.2 - φ ∨ 209 < φ - v.2)

/-- The centre moves to the nearer outer point (07, *Band calibration*, step 3). -/
def moveCentre (s : State) (b : Band) (v : Nat × Int) : Nat × Int :=
  let φ := match b.pend.find? (fun e => e.1 == v.1) with
    | some e => e.2
    | none => calEff s v.1
  (v.1, if 209 < v.2 - φ then φ + 209 else if 209 < φ - v.2 then φ - 209 else φ)

/-- Both runs of the point of band `i`'s procedure are complete and estimate `q` (R175 to R177). -/
def takePoint (i : Nat) (q : List PointEst) (s : State) : State :=
  let b := s.band i
  let now := 1000 * s.tim.beat + (s.field (i / 8)).slotT / 10
  match q.find? (pairFails s b.proc b.point q) with
  | some p => if 3 ≤ b.repeats then failQuantity i b.proc p.key s
    else s.setBand i { b with repeats := b.repeats + 1, symbols := 0 }
  | none =>
    let vals := q.map (fun p => (p.key, calMean p.first p.second))
    match (if b.proc = 1 ∧ b.point = 4 then vals.find? (beyondCentre s b) else none) with
    | some v =>
      if 2 ≤ b.moves then failQuantity i 1 v.1 s
      else s.setBand i { b with
        moves := b.moves + 1, symbols := 0, repeats := 0
        pend := vals.foldl (fun t v => tins v.1 (moveCentre s b v).2 (tdel t v.1)) b.pend }
    | none =>
      let kept := if b.proc = 2 ∧ 257 ≤ b.point ∧ b.point < 514 then [] else vals
      match (kept.filter (fun v => decide (v.1 % 16 < 14))).find? (fun v => !calInRange s v.1 v.2) with
      | some v => failQuantity i b.proc v.1 s
      | none => if b.point = lastPoint b.proc then finishProc i kept s else nextPoint i now kept s

/-- The quick gain of band `i` fails: the quick gain of its port applies nothing, and the band is suspect (R177). -/
def failQuick (i key : Nat) (s : State) : State := failQuantity i 4 key (dropQuick (portOfField (i / 8)) s)

/-- Both runs of a point of band `i`'s quick gain are complete and estimate `q` (R175, R179). -/
def takeQuick (i : Nat) (q : List PointEst) (s : State) : State :=
  let b := s.band i
  match q.find? (fun p => !calAgree p.key p.first p.second) with
  | some p => if 3 ≤ b.qgRepeats then failQuick i p.key s else s.setBand i { b with qgRepeats := b.qgRepeats + 1, qgSymbols := 0 }
  | none =>
    let vals := q.map (fun p => (p.key, calMean p.first p.second))
    match vals.find? (fun v => !calInRange s v.1 v.2) with
    | some v => failQuick i v.1 s
    | none => s.setBand i { b with
        qg := if b.qgPoint = 3 then 2 else 1, qgPoint := if b.qgPoint = 3 then 3 else b.qgPoint + 1, qgSymbols := 0, qgRepeats := 0
        qgPend := vals.foldl (fun t v => tins v.1 v.2 (tdel t v.1)) b.qgPend }

/-- The estimates that answer the keys `ks`, in their order; none while one is missing. -/
def answers (ks : List Nat) (q : List PointEst) : Option (List PointEst) :=
  let l := ks.filterMap (fun k => q.find? (fun p => p.key == k))
  if l.length = ks.length then some l else none

/-- The quantities of a quick gain point: column gain and pilot gain at one headroom (R179). -/
def quickKeys (f b h : Nat) (gs : List Nat) : List Nat :=
  (List.range 32).flatMap (fun c => gs.flatMap (fun g => [kGain f (32 * b + c) g h, kPilot f (32 * b + c) g h]))

/-- CAL_RUN_COMPLETE (R175 to R177, R179): both runs of the current point have taken their symbols, those of the quick gain of a light pause first, and estimate
every quantity of the point. -/
def execCalRunComplete (f b : Nat) (q : List PointEst) (s : State) : Host.Outcome State Fault Refusal :=
  .next (
    let i := 8 * f + b
    let x := s.band i
    let gs := calColours s f
    if 32 ≤ f ∨ 8 ≤ b ∨ bandOut s i = true ∨ s.cal.refvOk = false then s
    else if x.qg = 1 ∧ 8192 ≤ x.qgSymbols then
      match answers (quickKeys f b x.qgPoint gs) q with
      | some l => takeQuick i l s
      | none => s
    else if x.proc = 0 ∨ x.done = true ∨ fieldPaused s f = true ∨ x.symbols < 2 * runLength x.proc x.point then s
    else match answers (pointKeys f b x.proc x.point gs) q with
      | some l => takePoint i l s
      | none => s)

/-! ### The halt (R180, R182, R184, R185, R170) -/

/-- The results of band `i`'s procedure take effect (R180): its values, its age (R182), and shadow planes filled with other gain entries
are stale (R94). -/
def applyProc (i : Nat) (s : State) : State :=
  let b := s.band i
  if !b.done then s
  else
    let stale := b.pend.any (fun e => e.1 % 16 == 0)
    let s := (b.pend.filter (fun v => !disabledKey s v.1)).foldl (fun (s : State) v => loadValue (calSet v s) v.1) s
    let s := s.setBand i { b.fresh with
      suspect := false
      back := b.queue.isEmpty, cmd := if b.queue.isEmpty then none else b.cmd
      bandAt := if b.proc = 1 then some s.tim.beat else b.bandAt
      cellAt := if b.proc = 2 then some s.tim.beat else b.cellAt }
    let s := s.modField (i / 8) (fun x => { x with
      rowAt := if b.proc = 3 then some s.tim.beat else x.rowAt
      shadowStale := x.shadowStale || (stale && (x.shadowReady || x.loaderBusy)) })
    match b.cmd with
    | some k => calCmdEnd k (modCmd k (fun c => { c with aux := c.aux + 1 }) s)
    | none => s

/-- `i` at its place by `rank` among `l`. -/
def insertBy (rank : Nat → Nat) (i : Nat) : List Nat → List Nat
  | [] => [i]
  | j :: l => if rank i < rank j then i :: j :: l else j :: insertBy rank i l

/-- The bands whose procedures have passed, in the order in which they did: where two carry a value for one quantity, the later prevails (R180). -/
def doneBands (s : State) : List Nat :=
  ((s.bands.filter (fun e => e.2.done)).map Prod.fst).foldl (fun l i => insertBy (fun j => (s.band j).doneAt) i l) []

/-- Band `i` is withheld from this edge. -/
def withhold (i : Nat) (s : State) : State :=
  s.modField (i / 8) (fun x => { x with bandWithheld := x.bandWithheld ||| (BitVec.twoPow 8 (i % 8) &&& ~~~ x.bandFenced) })

/-- Thermal slots of field `f` (R140). -/
def zoneSlots (f : Nat) : List Nat := (List.range 16).map (fun z => 512 * (f / 2) + 128 + 16 * (f % 2) + z)

/-- The zones of field `f` have settled, and so have its receiver offset loops and its LO phase loops in the colours measured (R423, R424; DEDUCED, assumption
log 60). -/
def fieldLocks (s : State) (f : Nat) : Bool :=
  (zoneSlots f).all (fun n => (s.loop n).lock) &&
  (List.range 8).all (fun b => (calColours s f).all (fun g =>
    (s.loop (loSlot (8 * f + b) g)).lock && (s.loop (loSlot (8 * f + b) g + 64)).lock))

/-- The procedures of step 10 and of a field's recovery (R426, R458): row calibration with its lowest band in service, then cell and band calibration of every band. -/
def calibrateField (s : State) (f : Nat) : State :=
  let bs := (List.range 8).filter (fun b => !(s.field f).bandFenced.getLsbD b)
  let s := s.modField f (fun x => { x with lit := true, bandWithheld := ~~~ x.bandFenced })
  bs.foldl (fun (s : State) b => if bs.head? = some b then startProc f b 3 [2, 1] none s else startProc f b 2 [1] none s) s

/-- The recovery of a field (R458, R467): once the field has locked, every band of it is calibrated. -/
def recoveryEdge (s : State) : State :=
  match s.flt.active with
  | some a =>
    if a.kind = 0 ∧ (s.field a.index).tlLocked = false ∧ fieldLocks s a.index = true then
      calibrateField (s.modField a.index (fun x => { x with tlLocked := true })) a.index
    else s
  | none => s

/-- Band `i`, or its field, is under the recovery that runs (R458). -/
def inRecovery (s : State) (i : Nat) : Bool :=
  s.flt.active.any (fun a => (a.kind == 0 && a.index == i / 8) || (a.kind == 1 && 8 * a.index + a.sub == i))

/-- In step 10 and in a field's recovery the bands are calibrated in ascending order: a lower one has still to end (R426, R458). -/
def lowerFirst (s : State) (i : Nat) : Bool :=
  (s.bu.running == 10 || underRecovery s (i / 8)) &&
  (List.range (i % 8)).any (fun b => (s.band (i / 8 * 8 + b)).proc != 0 || !(s.band (i / 8 * 8 + b)).queue.isEmpty)

/-- In the return to D0 band `i` waits for its offset and LO phase loops to settle and lock on samples taken since (R435). -/
def lockDue (s : State) (i : Nat) : Bool :=
  s.pwr.state == 2 && !(calColours s (i / 8)).all (fun g => [loSlot i g, loSlot i g + 64].all (fun n =>
    (s.loop n).lock && (s.loop n).lastBeat.any (fun b => decide (s.pwr.since ≤ b))))

/-- The next procedure of band `i` starts: the band is withheld at this beat edge (R170, R172); a band with phase trims still to be written stays withheld
(R44), and one under recovery until that has passed (R458). -/
def beginProc (i : Nat) (s : State) : State :=
  let b := s.band i
  match b.queue with
  | p :: rest =>
    if b.proc != 0 || b.hold || b.test || fieldPaused s (i / 8) || !s.cal.refvOk || lowerFirst s i || lockDue s i then s
    else withhold i (s.setBand i { b.fresh with proc := p, queue := rest, codesAt := 1000 * s.tim.beat })
  | [] =>
    if b.hold || decide (b.proc = 0 ∧ 0 < b.trimLeft) then withhold i s
    else if b.back && b.proc == 0 && !inRecovery s i then returnBand i s else s

/-- PROC and PROC_BAND of field `f` (R190) and its calibration window of this beat (R170). -/
def fieldProc (f : Nat) (s : State) : State :=
  let on := (List.range 8).filter (fun b => (s.band (8 * f + b)).proc != 0)
  let held := (List.range 8).filter (fun b => (s.band (8 * f + b)).hold)
  let x := s.field f
  let quick := (List.range 8).any (fun b => (s.band (8 * f + b)).qg != 0)
  let v : Nat × Nat :=
    if quick then (4, 0) else if x.kaOn then (5, 0)
    else match on, held with
      | b :: _, _ => ((s.band (8 * f + b)).proc, if (s.band (8 * f + b)).proc = 3 then 0 else b)
      | [], b :: _ => (6, b)
      | [], [] => (0, 0)
  s.setField f { x with proc := v.1, procBand := v.2
                        window := !s.cal.scheduled.getLsbD (partOfField s f) || !on.isEmpty || x.kaOn }

/-- What the estimators of R99 ask of one slice: offset in 1/16 code, gain in trim steps, skew in taps, each from its present value on. A value outside its
range marks the band suspect; else offset and gain take it, and the skew moves by one tap towards it. -/
def sliceTrim (key : Nat) (off gain skew : Int) (s : State) : State :=
  let f := key / 16384
  let c := key / 64 % 256
  if decide (off < -2047 ∨ 2047 < off ∨ gain < -128 ∨ 127 < gain ∨ skew < 0 ∨ 63 < skew) then
    failQuantity (8 * f + c / 32) 1 (kSlice (if off < -2047 ∨ 2047 < off then 7 else if gain < -128 ∨ 127 < gain then 8 else 9)
      f c (key / 16 % 4) (key % 16)) s
  else s.modAdc key (fun a => { a with
    offset := off, gainTrim := BitVec.ofInt 8 (128 + gain)
    skew := if (a.skew : Int) < skew then a.skew + 1 else if skew < a.skew then a.skew - 1 else a.skew })

/-- The estimators of R99 for slice `i` of channel `ch` = 4·column + colour of field `f` in the halt after a beat: offset from the beat's means; every 16 beats
gain from the slices' rms and skew from the products with the slice before (formula of the latter a free value). -/
def channelTrim (f ch : Nat) (x : Field) (s : State) (i : Nat) : State :=
  let key := (f * 1024 + ch) * 16 + i
  let a := s.adc key
  let at16 := fun (t : Tab (List Int)) (j : Nat) => (tget [] t j).getD ch 0
  let sum := fun (g : Nat → Int) => (List.range 16).foldl (fun t j => t + g j) 0
  let n := tget 0 x.slN i
  let all := (sum (fun j => ((tget 0 x.slN j : Nat) : Int))).toNat
  let off := if n = 0 then a.offset else roundEven (16 * (at16 x.slSum i * all - sum (at16 x.slSum) * n)) (n * all)
  let m := tget 0 x.slN16 i
  let all16 := (sum (fun j => ((tget 0 x.slN16 j : Nat) : Int))).toNat
  let rms := fun (q : Int) (n : Nat) => (isqrt (q.toNat * 2 ^ 40 / n) : Int)
  let ra := rms (sum (at16 x.slSq)) all16
  let due := decide (s.tim.beat % 16 = 0 ∧ 0 < m ∧ 0 < ra)
  let gain := (a.gainTrim.toNat : Int) - 128
  sliceTrim key off (if due then gain + roundEven ((ra - rms (at16 x.slSq i) m) * 1000000) (156 * ra).toNat else gain)
    (if due then a.skew + Config.skewOf ((List.range 16).map (fun j => at16 x.slCor ((i + j) % 16))) else a.skew) s

/-- The slice corrections of field `f` in the halt after a beat, of every band that is not fenced, and its estimators cleared (R99, R55). -/
def slicesEdge (f : Nat) (s : State) : State :=
  let x := s.field f
  let s := if x.slN = [] then s
    else ((List.range 1024).filter (fun ch => !x.bandFenced.getLsbD (ch / 128))).foldl (fun (s : State) ch =>
      (List.range 16).foldl (channelTrim f ch x) s) s
  s.modField f (fun y => { y with
    slSum := [], slN := []
    slSq := if s.tim.beat % 16 = 0 then [] else y.slSq
    slCor := if s.tim.beat % 16 = 0 then [] else y.slCor
    slN16 := if s.tim.beat % 16 = 0 then [] else y.slN16 })

/-- The check's fields return to dispatch at a halt (R187). -/
def kaEnd (k : Nat) (s : State) : State :=
  (((List.range 32).filter (fun f => (s.field f).kaCheck == some k))).foldl (fun (s : State) f =>
    let s := s.modField f (fun x => { x with kaCheck := none, kaAt := 0, kaStage := 0, kaTok := 0, kaSums := [] })
    (List.range 8).foldl (fun (s : State) b => s.modBand (8 * f + b) (fun x => { x with back := x.proc == 0 })) s) s

/-- REFV outside its window abandons every procedure; a `cal.verify` completes with `degraded` (R169, R181). -/
def refvLost (s : State) : State :=
  let keys := s.bands.map Prod.fst
  let s := (keys.filter (fun i => (s.band i).proc != 0 || (s.band i).cmd.isSome)).foldl (fun (s : State) i => abandonProc i s) s
  let s := (List.range 8).foldl (fun (s : State) n => dropQuick n s) s
  ((s.fields.filterMap (fun e => e.2.kaCheck)).eraseDups).foldl (fun (s : State) k => finishCmd k { status := stDegraded } (kaEnd k s)) s

/-- The user layer cleared by `cal.user.clear` takes effect in one halt (R167): every delta but those of the light monitor scales. A band whose phase trims
change is withheld until the trim converters have written them (R44; DEDUCED, assumption log 18). -/
def clearUser (s : State) : State :=
  let gains := s.cal.user.any (fun e => e.1 % 16 == 0)
  let moved := (s.cal.trims.map (fun e => e.1 / 16 / 65792 * 8 + e.1 / 16 % 256 / 32)).eraseDups
  let old := (s.cal.user.filter (fun e => e.1 % 16 != 10)).map Prod.fst
  let s := { s with
    cal := { s.cal with user := s.cal.user.filter (fun e => e.1 % 16 == 10), clearPend := false }
    fields := tmap {} s.fields (fun _ x => { x with shadowStale := x.shadowStale || (gains && (x.shadowReady || x.loaderBusy)) }) }
  let s := old.foldl (fun (s : State) k => loadValue s k) s
  moved.foldl (fun (s : State) i => s.modBand i (fun b => { b with trimLeft := 4112 })) s

/-- In a round of 64 beats each trim converter has 2,272 free write slots, in which it writes the new phase trims of a withheld band, in ascending row order
(04 R95): the codes of a cell calibration, or the user layer's. -/
def trimRoundEdge (s : State) : State :=
  if s.tim.beat % 64 ≠ 0 then s
  else ((s.bands.filter (fun e => decide (0 < e.2.trimLeft))).map Prod.fst).foldl (fun (s : State) i =>
    let b := s.band i
    let frm := 4112 - b.trimLeft
    let n := min b.trimLeft 2272
    let keys := (List.range n).flatMap (fun j => (List.range 2).map (fun q =>
      kTrim (i / 8) ((frm + j) / 16) (32 * (i % 8) + 16 * q + (frm + j) % 16)))
    let code := fun (k : Nat) => match b.pend.find? (fun e => e.1 == k) with
      | some e => e.2 - calFactory s k
      | none => tget 0 s.cal.user k
    { s.setBand i { b with trimLeft := b.trimLeft - n, back := b.back || (decide (b.proc = 0 ∧ b.trimLeft = n)) } with
      cal := { s.cal with trims := keys.foldl (fun t k => tset 0 t k (code k)) s.cal.trims } }) s

/-- In a light pause or thermal pause on the field the run in progress is void (R181); in a beat out of limits a run that spans its edge is marred (R176). -/
def runsEdge (i : Nat) (s : State) : State :=
  let b := s.band i
  let len := runLength b.proc b.point
  let s := if b.qg = 1 ∧ b.qgSymbols % 4096 ≠ 0 then s.modBand i (fun b => { b with qgMarred := b.qgMarred || beatMarred s (i / 8) }) else s
  if b.proc = 0 ∨ b.done = true ∨ b.symbols % len = 0 then s
  else if fieldPaused s (i / 8) then voidRun i (runStart b.symbols len) s
  else s.modBand i (fun b => { b with marred := b.marred || beatMarred s (i / 8) })

/-- QUICK_GAIN_DONE of port `n` (R79, R179): every band has passed or was dropped, or the limit is reached: 20 beats for the LO phases and 40 for the quick
gain from the beat in which the selector settled. The results take effect in the next halt. -/
def execQuickGainDone (n : Nat) (s : State) : Host.Outcome State Fault Refusal :=
  .next (
    let p := s.lport n
    let open_ := (fieldsOfPort n).any (fun f => (List.range 8).any (fun b => (s.band (8 * f + b)).qg == 1 && !bandOut s (8 * f + b)))
    if n < 8 ∧ p.sw = 3 ∧ (open_ = false ∨ p.settledAt + 60 ≤ s.tim.beat) then s.setLport n { p with sw := 4 } else s)

/-- The quick gain of port `n` in the halt in which its results take effect together (R79, R179): gains, LO references, compensation zero; a dropped one applies
nothing. A band without its results stays withheld for a band calibration. -/
def quickEdge (n : Nat) (s : State) : State :=
  if (s.lport n).sw ≠ 4 then s
  else
    let bands := (fieldsOfPort n).flatMap (fun f => (List.range 8).map (fun b => 8 * f + b))
    let ok := bands.all (fun i => (s.band i).qg != 3)
    let s := s.modLport n (fun p => { p with sw := 5 })
    let s := if !ok then s
      else (List.range 4).foldl (fun (s : State) g => (setComp n g 0 s).modLcol (4 * n + g) (fun l => { l with loRef := l.loTap })) s
    bands.foldl (fun (s : State) i =>
      let b := s.band i
      let s := s.modBand i (fun b => { b with qg := 0, qgPoint := 0, qgSymbols := 0, qgRepeats := 0, qgVoids := 0, qgMarred := false, qgPend := [] })
      if b.qg = 0 ∨ bandOut s i = true then s
      else if ok ∧ b.qg = 2 then (b.qgPend.filter (fun v => !disabledKey s v.1)).foldl (fun (s : State) v => calSet v s) s
      else if b.proc = 0 ∧ b.queue.isEmpty then withhold i (startProc (i / 8) (i % 8) 1 [] none s) else withhold i s) s

/-- A known-answer check begins on field `f` (R187): every band is withheld, the mode and headroom named are in force, and the first stage's codes are set. -/
def kaStart (f : Nat) (s : State) : State :=
  let x := s.field f
  match x.kaCheck.bind (cmdOf s) with
  | some c =>
    let set := (colourSet s (c.at 16 1)).getD []
    s.setField f { x with
      bandWithheld := ~~~ x.bandFenced
      kaAt := if x.kaAt = 0 then 1000 * s.tim.beat else x.kaAt
      colours := BitVec.ofNat 4 (listMask 4 set), colourMode := c.at 16 1, slow := c.at 16 1 == 0, headroom := c.at 17 1 }
  | none => s

/-- Calibration in a halt: REFV (R169), the slice corrections of R99, runs that a pause or a beat out of limits spoils, results of finished procedures in the
order of their acceptance (R180), procedures that start, bands that return (R174), cadence and window. -/
def calEdge (refvOk : Bool) (s : State) : State :=
  let s := { s with cal := { s.cal with refvOk := refvOk, scheduled := s.cal.schedNext } }
  let s := (List.range 32).foldl (fun (s : State) f => slicesEdge f s) s
  let s := ((s.bands.map Prod.fst).filter (fun i => bandOut s i && ((s.band i).proc != 0 || !(s.band i).queue.isEmpty))).foldl (fun (s : State) i => dropProc i s) s
  let s := if refvOk then s else refvLost s
  let s := (s.bands.map Prod.fst).foldl (fun (s : State) i => runsEdge i s) s
  let s := trimRoundEdge s
  let s := if s.cal.clearPend then clearUser s else s
  let s := (doneBands s).foldl (fun (s : State) i => applyProc i s) s
  let s := (List.range 8).foldl (fun (s : State) n => quickEdge n s) s
  let s := recoveryEdge s
  let s := (s.bands.map Prod.fst).foldl (fun (s : State) i => beginProc i s) s
  let s := (List.range 32).foldl (fun (s : State) f => kaStart f s) s
  (List.range 32).foldl (fun (s : State) f => fieldProc f s) s

/-- STALE_CAL holds for a slice that uses band `b` of field `f` at this edge (R183, R155). -/
def bandStale (s : State) (f b : Nat) : Bool :=
  let x := s.band (8 * f + b)
  let old := fun (a : Option Nat) (lim : Nat) => match a with
    | some t => decide (t + lim < s.tim.beat)
    | none => true
  old x.bandAt 10000000 || old x.cellAt 3600000000 || old (s.field f).rowAt 3600000000 || x.lostLock

/-! ### Cadence (R184) -/

/-- CAL_CADENCE_TICK of partition `p` (R184, R169). Where band 0 of a field is fenced or busy, its row calibration goes through the lowest band that is
neither (DEDUCED, assumption log 18). -/
def execCalCadenceTick (p : Nat) (s : State) : Host.Outcome State Fault Refusal :=
  .next (
    if s.net.parts ≤ p ∨ s.cal.scheduled.getLsbD p ∨ s.cal.refvOk = false ∨ s.tim.beat < tget 0 s.cal.cadAt p + 1000000 then s
    else
      let b := tget 0 s.cal.cadNext p
      let deep := decide (tget 0 s.cal.deepAt p + 225000000 ≤ s.tim.beat)
      let free := fun (f b : Nat) => !bandOut s (8 * f + b) && !bandBusy (s.band (8 * f + b)) && (s.field f).kaCheck.isNone
      let procs : Nat × List Nat := if deep then (if b = 0 then (3, [2, 1]) else (2, [1])) else (1, [])
      let s := ((fieldsOfPart s p).filter (fun f => (s.field f).lit)).foldl (fun (s : State) f =>
        if free f b then startProc f b procs.1 procs.2 none s
        else match (if deep ∧ b = 0 then (List.range 8).find? (free f) else none) with
          | some c => startProc f c 3 [] none s
          | none => s) s
      { s with cal := { s.cal with
          cadNext := tset 0 s.cal.cadNext p ((b + 1) % 8)
          cadAt := tset 0 s.cal.cadAt p s.tim.beat
          deepAt := if deep then tset 0 s.cal.deepAt p s.tim.beat else s.cal.deepAt } })

/-! ### Commands (R189) -/

/-- The bands that FIELD_MASK and BAND_MASK name. -/
def namedBands (fm bm : Nat) : List Nat := (((maskList 32 fm).map (fun f => (maskList 8 bm).map (fun b => 8 * f + b))).flatten)

/-- Partitions of the fields in a mask that are resetting (R390 check 6). -/
def maskResetting (s : State) (fm : Nat) : Bool := (maskList 32 fm).any (fun f => resetting s (partOfField s f))

/-- The procedures that PROC asks for on each named band: recovery calibration before band calibration (R189). -/
def calAsked (pr : Nat) : List Nat := (if bit pr 1 then [2] else []) ++ (if bit pr 0 then [1] else [])

/-- The bands of `cal.run` with their procedures, row calibration on one usable band of each named field (R189). -/
def calJobs (s : State) (pr fm bm : Nat) : List (Nat × List Nat) :=
  let rowBand := fun (f : Nat) => match (maskList 8 bm).find? (fun b => !bandOut s (8 * f + b)) with
    | some b => some b
    | none => (List.range 8).find? (fun b => !bandOut s (8 * f + b))
  ((maskList 32 fm).map (fun f =>
    (List.range 8).filterMap (fun b =>
      let own := if bit bm b then calAsked pr else []
      let l := if (bit pr 2 && rowBand f == some b) = true then 3 :: own else own
      match l with | [] => none | _ => some (8 * f + b, l)))).flatten

/-- CAL_RUN (R189, R404, R427): row, cell and band calibration in that order, row calibration through the lowest band named, or the lowest
band in service when none is (assumption log 18). -/
def execCalRun (k : Nat) (s : State) : Host.Outcome State Fault Refusal :=
  .next (runCmd k 0x0402 (fun c s =>
    let pr := c.at 16 1
    let fm := c.at 20 4
    let bm := c.at 24 1
    let rest := calAsked pr
    let jobs := calJobs s pr fm bm
    checked [ badField (decide (7 < pr)) 16, outOfRange (decide (pr = 0)) 16, c.rsvd 17 20,
              outOfRange (decide (fm = 0) || (maskList 32 fm).any (fun f => (s.field f).fenced)) 20,
              outOfRange ((decide (bm = 0) && !rest.isEmpty) || (!rest.isEmpty && (namedBands fm bm).any (bandOut s))) 24, c.rsvd 25 64,
              refuse (maskResetting s fm) stPartitionResetting,
              refuse (!s.cal.refvOk) stDegraded, refuse (!s.tim.admits || s.pwr.state != 0) stBusy,
              refuse (jobs.any (fun j => bandBusy (s.band j.1) || (s.field (j.1 / 8)).kaCheck.isSome)) stBusy ]
      (fun s =>
        let s := jobs.foldl (fun (s : State) j => startProc (j.1 / 8) (j.1 % 8) (j.2.headD 1) (j.2.drop 1) (some k) s) s
        if jobs.isEmpty then (s, { result := leBytes 4 0 ++ leBytes 4 0 }) else (s, { wait := true, commit := false })) s) s)

/-- A `cal.run` that ends before its commit: every procedure not yet applied is abandoned (R393). -/
def undoCalRun (k : Nat) (s : State) : State :=
  ((s.bands.filter (fun e => e.2.cmd == some k)).map Prod.fst).foldl (fun (s : State) i =>
    (dropProc i (s.modBand i (fun b => { b with cmd := none }))).modBand i (fun b => { b with back := true })) s

/-- CAL_CADENCE (R185, R512): in force from the next beat edge. -/
def execCalCadence (k : Nat) (s : State) : Host.Outcome State Fault Refusal :=
  .next (runCmd k 0x0403 (fun c s =>
    let p := c.at 16 1
    checked [ badField (decide (3 < p)) 16, outOfRange (decide (s.net.parts ≤ p)) 16, badField (decide (1 < c.at 17 1)) 17, c.rsvd 18 64,
              refuse (resetting s p) stPartitionResetting ]
      (fun s =>
        let m := BitVec.twoPow 4 p
        let v := if bit (c.at 17 1) 0 then s.cal.schedNext ||| m else s.cal.schedNext &&& ~~~ m
        ({ s with cal := { s.cal with schedNext := v } }, {})) s) s)

/-- CAL_USER_CLEAR (R167): every age takes its maximum, and the deltas but the light monitor scales become zero in the next halt. -/
def execCalUserClear (k : Nat) (s : State) : Host.Outcome State Fault Refusal :=
  .next (runCmd k 0x0405 (fun c s =>
    checked [ c.rsvd 16 64,
              refuse (s.bands.any (fun e => e.2.proc != 0 || !e.2.queue.isEmpty || e.2.qg != 0) || s.fields.any (fun e => e.2.kaCheck.isSome)) stBusy ]
      (fun s =>
        ({ s with
            cal := { s.cal with clearPend := true }
            bands := tmap {} s.bands (fun _ b => { b with bandAt := none, cellAt := none })
            fields := tmap {} s.fields (fun _ x => { x with rowAt := none }) }, {})) s) s)

/-- CAL_BAND_HOLD (R189): FIELD_MASK at 16 and BAND_MASK at 20 (R405); the bands are withheld from the next beat edge. -/
def execCalBandHold (k : Nat) (s : State) : Host.Outcome State Fault Refusal :=
  .next (runCmd k 0x0406 (fun c s =>
    let l := namedBands (c.at 16 4) (c.at 20 1)
    checked [ outOfRange (c.at 16 4 == 0 || (maskList 32 (c.at 16 4)).any (fun f => (s.field f).fenced)) 16,
              outOfRange (c.at 20 1 == 0 || l.any (bandOut s)) 20, c.rsvd 21 64,
              refuse (maskResetting s (c.at 16 4)) stPartitionResetting,
              refuse (l.any (fun i => (s.band i).proc != 0 || !(s.band i).queue.isEmpty || (s.band i).test || (s.field (i / 8)).kaCheck.isSome)) stBusy ]
      (fun s => (l.foldl (fun (s : State) i => s.modBand i (fun b => { b with hold := true, back := false })) s, {})) s) s)

/-- CAL_BAND_RELEASE (R189): the bands return to dispatch at a halt. -/
def execCalBandRelease (k : Nat) (s : State) : Host.Outcome State Fault Refusal :=
  .next (runCmd k 0x0407 (fun c s =>
    let l := namedBands (c.at 16 4) (c.at 20 1)
    checked [ outOfRange (c.at 16 4 == 0) 16, outOfRange (c.at 20 1 == 0 || l.any (fun i => !(s.band i).hold)) 20, c.rsvd 21 64,
              refuse (maskResetting s (c.at 16 4)) stPartitionResetting ]
      (fun s => (l.foldl (fun (s : State) i => s.modBand i (fun b => { b with hold := false, back := true })) s, {})) s) s)

/-! ### The known-answer check (R187, R188) -/

/-- σ1 of a colour mode at a HEADROOM code, in 0.001% FS (R220, R231). -/
def sigma1 (mode head : Nat) : Nat :=
  if head = 3 then (if mode = 2 then 450 else if mode = 1 then 390 else 290) else if mode = 2 then 360 else if mode = 1 then 280 else 230

/-- The colours of a known-answer check, none when the mode is unavailable. -/
def kaColours (s : State) (c : Cmd) : List Nat := (colourSet s (c.at 16 1)).getD []

/-- RMS of a record in 0.001% FS (R188): the root of the mean square as a fraction of FS = 4,129,024 / h code products, rounded half to even and held at the
field's end (DEDUCED, assumption log 18). -/
def KaSum.rms (head : Nat) (k : KaSum) : Nat :=
  min 65535 (roundEven (isqrt (k.sq * (100000 * headDiv head) ^ 2 / k.n)) (4129024 * 65536)).toNat

/-- MEAN of a record, in the same unit (R188). -/
def KaSum.mean (head : Nat) (k : KaSum) : Int := sat16 (roundEven (k.sum * (100000 * headDiv head : Nat)) (k.n * (4129024 * 65536)))

/-- The 16 bytes of a known-answer record (R188); all zero but its place for a band without outputs. -/
def kaRecord (mode head f b g : Nat) (k : KaSum) : List Byte :=
  if k.n = 0 then List.replicate 14 0 ++ leBytes 1 f ++ leBytes 1 (b + 16 * g)
  else
    let ex := b01 (decide (sigma1 mode head < k.rms head)) + 2 * b01 (decide (k.mean head < -50 ∨ 50 < k.mean head))
    leBytes 2 (k.rms head) ++ leBytes 2 (image 16 (k.mean head)) ++ leBytes 4 (roundEven k.mx 65536).toNat ++ leBytes 4 k.n ++ leBytes 1 k.flags.toNat ++
    leBytes 1 ex ++ leBytes 1 f ++ leBytes 1 (b + 16 * g)

/-- The records of the named fields in ascending field, band and colour (R512). -/
def kaOutput (s : State) (c : Cmd) : List Byte :=
  (maskList 32 (c.at 20 4)).flatMap (fun f => (List.range 8).flatMap (fun b => (kaColours s c).flatMap (fun g =>
    kaRecord (c.at 16 1) (c.at 17 1) f b g (tget {} (s.field f).kaSums (4 * b + g)))))

/-- CAL_VERIFY (R187 to R189, R427): the first arrival checks and starts the check; the second, once every named field has carried the nine stages, ends it with
what it measured. -/
def execCalVerify (k : Nat) (s : State) : Host.Outcome State Fault Refusal :=
  .next (
    match cmdOf s k with
    | some c =>
      if c.opcode = 0x0404 ∧ c.started ∧ !c.decided then
        if (maskList 32 (c.at 20 4)).all (fun f => decide (9 ≤ (s.field f).kaStage)) then finishCmd k { output := kaOutput s c } (kaEnd k s) else s
      else runCmd k 0x0404 (fun c s =>
        let fm := c.at 20 4
        checked [ c.extNeed (128 * (maskList 32 fm).length * (kaColours s c).length), refuse (c.at 16 1 == 2 && !licensed s 0) stNotLicensed,
                  badField (decide (2 < c.at 16 1)) 16, outOfRange (colourSet s (c.at 16 1)).isNone 16,
                  badField (decide (3 < c.at 17 1)) 17, c.rsvd 18 20,
                  outOfRange (decide (fm = 0) || (maskList 32 fm).any (fun f => (s.field f).fenced)) 20, c.rsvd 24 64,
                  refuse (maskResetting s fm) stPartitionResetting,
                  refuse (!s.cal.refvOk) stDegraded, refuse (!s.tim.admits || s.pwr.state != 0) stBusy,
                  refuse ((maskList 32 fm).any (fun f => (s.field f).kaCheck.isSome ||
                    (List.range 8).any (fun b => bandBusy (s.band (8 * f + b))))) stBusy ]
          (fun s => ((maskList 32 fm).foldl (fun (s : State) f => s.modField f (fun x => { x with
                       kaCheck := some k, kaAt := 0, kaStage := 0, kaTok := 0, kaSums := [] })) s,
                     { wait := true, commit := false })) s) s
    | none => s)

end Sys2Proof.Machine
end

