-- ==== Sys2Proof/Machine/Fp.lean ====
section
/-! DEFINITION. Floating-point formats as exact rationals rounded once: BF16, FP16, FP32 and FP64 with round to nearest even (R191, R192,
R206), and CRC-32C. -/

namespace Sys2Proof.Machine

open Sys2Proof

/-- The value of a floating-point word: not a number, an infinity, or (−1)^neg · m · 2^e. -/
inductive Fp where
  | nan
  | inf (neg : Bool)
  | fin (neg : Bool) (m : Nat) (e : Int)
  deriving DecidableEq, Repr

/-- A format: exponent bits and fraction bits. -/
structure FpFmt where
  eb : Nat
  mb : Nat
  deriving DecidableEq, Repr

def bf16 : FpFmt := { eb := 8, mb := 7 }
def fp16 : FpFmt := { eb := 5, mb := 10 }
def fp32 : FpFmt := { eb := 8, mb := 23 }
def fp64 : FpFmt := { eb := 11, mb := 52 }

/-- Exponent bias of a format. -/
def FpFmt.bias (f : FpFmt) : Nat := 2 ^ (f.eb - 1) - 1

/-- Width of a format in bits. -/
def FpFmt.width (f : FpFmt) : Nat := 1 + f.eb + f.mb

/-- The value that the bits `w` of format `f` stand for. -/
def fpOf (f : FpFmt) (w : Nat) : Fp :=
  let neg := bit w (f.eb + f.mb)
  let e := bits w f.mb f.eb
  let m := bits w 0 f.mb
  if e = 2 ^ f.eb - 1 then (if m = 0 then .inf neg else .nan)
  else if e = 0 then .fin neg m (1 - (f.bias : Int) - f.mb)
  else .fin neg (2 ^ f.mb + m) ((e : Int) - f.bias - f.mb)

/-- Bits of an infinity. -/
def fpInf (f : FpFmt) (neg : Bool) : Nat := (2 ^ f.eb - 1) * 2 ^ f.mb + b01 neg * 2 ^ (f.eb + f.mb)

/-- The exponent of num/den: the largest e with 2^e ≤ num/den, for num, den > 0. -/
def ratExp (num den : Nat) : Int :=
  let e : Int := (Nat.log2 num : Int) - Nat.log2 den
  let le := if 0 ≤ e then decide (den * 2 ^ e.toNat ≤ num) else decide (den ≤ num * 2 ^ (-e).toNat)
  if le then e else e - 1

/-- (−1)^neg · num/den rounded to nearest even in format `f`; an overflow gives an infinity. -/
def fpRound (f : FpFmt) (neg : Bool) (num den : Nat) : Nat :=
  let s := b01 neg * 2 ^ (f.eb + f.mb)
  if num = 0 then s
  else
    let emin : Int := 1 - (f.bias : Int)
    let e := max (ratExp num den) emin
    let sh : Int := (f.mb : Int) - e
    let q := (roundEven ((num * 2 ^ sh.toNat : Nat) : Int) (den * 2 ^ (-sh).toNat)).toNat
    let w := (e - emin).toNat * 2 ^ f.mb + q
    if (2 ^ f.eb - 1) * 2 ^ f.mb ≤ w then fpInf f neg else s + w

/-- m·2^e as numerator and denominator. -/
def dyadic (m : Nat) (e : Int) : Nat × Nat := (m * 2 ^ e.toNat, 2 ^ (-e).toNat)

/-- A NaN of format `f`: the manual states no payload and no sign (free value, assumption log 8). -/
def fpNan (f : FpFmt) (x y : Nat) : Nat :=
  let v := Config.nanBits x y
  (2 ^ f.eb - 1) * 2 ^ f.mb + 1 + v % (2 ^ f.mb - 1) + bits v f.mb 1 * 2 ^ (f.eb + f.mb)

/-- An integer rounded to format `f`. -/
def fpInt (f : FpFmt) (i : Int) : Nat := fpRound f (decide (i < 0)) i.natAbs 1

/-- A word of format `g` as a word of format `f`. -/
def fpConv (f g : FpFmt) (w : Nat) : Nat :=
  match fpOf g w with
  | .nan => fpNan f w w
  | .inf neg => fpInf f neg
  | .fin neg m e => let d := dyadic m e; fpRound f neg d.1 d.2

/-- The product of two words, rounded once. -/
def fpMul (f : FpFmt) (x y : Nat) : Nat :=
  match fpOf f x, fpOf f y with
  | .fin a m e, .fin b n g => let d := dyadic (m * n) (e + g); fpRound f (a != b) d.1 d.2
  | .inf a, .fin b n _ => if n = 0 then fpNan f x y else fpInf f (a != b)
  | .fin a m _, .inf b => if m = 0 then fpNan f x y else fpInf f (a != b)
  | .inf a, .inf b => fpInf f (a != b)
  | _, _ => fpNan f x y

/-- The sum of two words, rounded once; an exact zero sum is +0 unless both are −0. -/
def fpAdd (f : FpFmt) (x y : Nat) : Nat :=
  match fpOf f x, fpOf f y with
  | .fin a m e, .fin b n g =>
    let k := min e g
    let p : Int := (if a then -1 else 1) * (m * 2 ^ (e - k).toNat : Nat) + (if b then -1 else 1) * (n * 2 ^ (g - k).toNat : Nat)
    let d := dyadic p.natAbs k
    fpRound f (if p = 0 then a && b else decide (p < 0)) d.1 d.2
  | .inf a, .inf b => if a = b then fpInf f a else fpNan f x y
  | .inf a, .fin _ _ _ => fpInf f a
  | .fin _ _ _, .inf b => fpInf f b
  | _, _ => fpNan f x y

/-- The quotient of two words with a finite non-zero divisor, rounded once. -/
def fpDiv (f : FpFmt) (x y : Nat) : Nat :=
  match fpOf f x, fpOf f y with
  | .fin a m e, .fin b n g =>
    if n = 0 then (if m = 0 then fpNan f x y else fpInf f (a != b))
    else
      let d := dyadic m (e - g)
      fpRound f (a != b) d.1 (d.2 * n)
  | .inf a, .fin b _ _ => fpInf f (a != b)
  | .fin a _ _, .inf b => fpRound f (a != b) 0 1
  | _, _ => fpNan f x y

/-- A finite word is not NaN and not an infinity. -/
def fpFinite (f : FpFmt) (w : Nat) : Bool := bits w f.mb f.eb != 2 ^ f.eb - 1

/-- The word without its sign; for finite words of one format, larger magnitude is a larger number. -/
def fpAbs (f : FpFmt) (w : Nat) : Nat := w % 2 ^ (f.eb + f.mb)

/-- The sign bit. -/
def fpNeg (f : FpFmt) (w : Nat) : Bool := bit w (f.eb + f.mb)

/-- A finite word rounded half to even to an integer. -/
def fpToInt (f : FpFmt) (w : Nat) : Int :=
  match fpOf f w with
  | .fin neg m e => let d := dyadic m e; roundEven (if neg then -(d.1 : Int) else d.1) d.2
  | _ => 0

/-- 2^−126, the smallest normal FP32 value, 1.0 and the largest finite FP32 value. -/
def fp32MinNormal : Nat := 0x00800000
def fp32One : Nat := 0x3F800000
def fp32Max : Nat := 0x7F7FFFFF

/-- A scale that the drain accepts: positive and normal (R207). -/
def scaleValid (w : Nat) : Bool := decide (fp32MinNormal ≤ w % 2 ^ 32 ∧ w % 2 ^ 32 ≤ fp32Max)

/-! ### CRC-32C -/

/-- One bit of the reflected division by 0x1EDC6F41. -/
def crcBit (c : Nat) : Nat := if c % 2 = 1 then (c / 2) ^^^ 0x82F63B78 else c / 2

/-- One byte of CRC-32C. -/
def crcByte (c : Nat) (b : Byte) : Nat := (List.range 8).foldl (fun c _ => crcBit c) (c ^^^ b.toNat)

/-- CRC-32C of bytes: initial value and final exclusive-or of all ones (PRESUMED, assumption log 19). -/
def crc32c (l : List Byte) : Nat := (l.foldl crcByte 0xFFFFFFFF) ^^^ 0xFFFFFFFF

end Sys2Proof.Machine
end

