-- ==== Sys2Proof/Machine/Quant.lean ====
section
/-! DEFINITION. The quantiser and the scale tracker: codes, scales, ranges, tracker records and feed scale words (R191 to R202). -/

namespace Sys2Proof.Machine

open Sys2Proof

/-- The source format of a selector: BF16 or FP32 (R191). -/
def srcFmt (wide : Bool) : FpFmt := if wide then fp32 else bf16

/-- Bytes of an element. -/
def FpFmt.bytes (f : FpFmt) : Nat := f.width / 8

/-- An element as FP32, exactly (R192); the sign and payload of a NaN do not matter here. -/
def toFp32 (f : FpFmt) (w : Nat) : Nat := if f = fp32 then w % 2 ^ 32 else fpConv fp32 f w

/-- The code of a finite or infinite FP32 value with scale `s`, and whether it saturated (R192, R193). -/
def quantise (x s : Nat) : Int × Bool :=
  if fpFinite fp32 x then
    let q := fpDiv fp32 x s
    if fpFinite fp32 q then
      let n := fpToInt fp32 q
      if 127 < n then (127, true) else if n < -127 then (-127, true) else (n, false)
    else (if fpNeg fp32 x then -127 else 127, true)
  else (if fpNeg fp32 x then -127 else 127, true)

/-- A scale, whether its range overflowed, and whether the range is zero (R194). -/
structure ScaleOf where
  s : Nat
  sat : Bool
  zero : Bool
  deriving DecidableEq, Repr

/-- The scale of range `m` with headroom factor `f`, both FP32 (R194). -/
def scaleOf (f m : Nat) : ScaleOf :=
  let t := fpMul fp32 f m
  let sat := !fpFinite fp32 t
  let t := if sat then fp32Max else t
  let s := fpDiv fp32 t (fpInt fp32 127)
  if m = 0 ∨ s < fp32MinNormal then { s := fp32One, sat := sat, zero := true } else { s := s, sat := sat, zero := false }

/-- The largest |x| over the finite elements, as an FP32 word; 0 for none (R196). -/
def rangeOf (l : List Nat) : Nat :=
  l.foldl (fun m x => if fpFinite fp32 x then max m (fpAbs fp32 x) else m) 0

/-! ### The tracker record (R196 to R199) -/

/-- A tracker record. -/
structure Tracker where
  headF : Nat := fp32One
  windowH : Nat := 4
  fill : Nat := 0
  newest : Nat := 0
  state : Nat := 0
  lastScale : Nat := 0
  step : Nat := 0
  max : List Nat := []
  deriving DecidableEq, Repr

/-- The record in 128 bytes (R198). -/
def Tracker.ofBytes (l : List Byte) : Tracker :=
  { headF := bytesAt l 0 4, windowH := bytesAt l 4 1, fill := bytesAt l 5 1, newest := bytesAt l 6 1, state := bytesAt l 7 1
    lastScale := bytesAt l 8 4, step := bytesAt l 12 4, max := (List.range 16).map (fun i => bytesAt l (16 + 4 * i) 4) }

/-- The 128 bytes of a record (R198). -/
def Tracker.toBytes (t : Tracker) : List Byte :=
  leBytes 4 t.headF ++ leBytes 1 t.windowH ++ leBytes 1 t.fill ++ leBytes 1 t.newest ++ leBytes 1 t.state ++
  leBytes 4 t.lastScale ++ leBytes 4 t.step ++ ((List.range 16).map (fun i => leBytes 4 (t.max.getD i 0))).flatten ++
  List.replicate 48 0

/-- The record is one that a `quant.scale` accepts (R199): 0.25 to 16.0 is 0x3E800000 to 0x41800000. -/
def Tracker.valid (t : Tracker) : Bool :=
  decide (1 ≤ t.windowH ∧ t.windowH ≤ 16 ∧ t.fill ≤ 16 ∧ t.newest ≤ 15 ∧ 0x3E800000 ≤ t.headF ∧ t.headF ≤ 0x41800000)

/-- The largest of the most recent min(FILL, H) range values (R196). -/
def Tracker.windowMax (t : Tracker) : Nat :=
  (List.range (min t.fill t.windowH)).foldl (fun m i => Nat.max m (t.max.getD ((t.newest + 16 - i) % 16) 0)) 0

/-- The step seeds (R196). -/
def Tracker.seeds (t : Tracker) : Bool :=
  t.fill == 0 || t.windowMax == 0 || (scaleOf t.headF t.windowMax).zero

/-- The STEP a `quant.scale` uses: 0 when it read FILL = 0 (R197). -/
def Tracker.stepUsed (t : Tracker) : Nat := if t.fill = 0 then 0 else t.step

/-- The push of range `m` into the record as it now stands (R197); `zeroFill` says that the op read FILL = 0 at its start. -/
def Tracker.push (t : Tracker) (zeroFill : Bool) (m s : Nat) (sat zero seeded : Bool) : Tracker :=
  let n := (t.newest + 1) % 16
  { t with
    newest := n, max := (List.range 16).map (fun i => if i = n then m else t.max.getD i 0)
    fill := min (t.fill + 1) 16, step := ((if zeroFill then 0 else t.step) + 1) % 2 ^ 32
    lastScale := s, state := b01 sat + 2 * b01 zero + 4 * b01 seeded }

/-- The feed scale word (R200). -/
def feedWord (s : Nat) (sat zero seeded : Bool) (step : Nat) : Nat :=
  s + 2 ^ 32 * b01 sat + 2 ^ 33 * b01 zero + 2 ^ 34 * b01 seeded + 2 ^ 40 * (step % 2 ^ 24)

/-- Feed SRAM address of byte `off` of field `f` (R288). -/
def feedAddr (f off : Nat) : Nat := 0x7F0000000000 + 0x2000000 * f + off

/-- The elements of `n` addresses `a i`, read as FP32, with the addresses whose word is poisoned. -/
def elems (s : State) (f : FpFmt) (l : List Nat) : List (Nat × Bool) :=
  l.map (fun a => (toFp32 f (rdNat s a f.bytes), anyBad s a f.bytes))

/-- The words of [a, a+n) that hold bit errors are corrected or converted, for a strided set of rows. -/
def touchAll (l : List (Nat × Nat)) (s : State) : State := l.foldl (fun (s : State) r => touch r.1 r.2 s) s

end Sys2Proof.Machine
end

