-- ==== Sys2Proof/Machine/Tiles.lean ====
section
/-! DEFINITION. Weight planes: which tile a field needs, the codes of a tile, drive codes, and the cell loaders (R30 to R44, R92 to R95, R239,
R251 to R259, R312). -/

namespace Sys2Proof.Machine

open Sys2Proof

/-! ### The shape of a `field.gemm` -/

/-- The row map of an admitted `field.gemm`. -/
def Op.rm (o : Op) : RowMap := o.map.getD {}

/-- WSRC, WRITE, K, N, K0 and N0 of the descriptor (R239). -/
def Op.wsrc (o : Op) : Nat := bits (o.dn 16 2) 8 2
def Op.isAdd (o : Op) : Bool := bit (o.dn 16 2) 7
def Op.kLen (o : Op) : Nat := o.dn 24 4
def Op.nLen (o : Op) : Nat := o.dn 28 4
def Op.k0 (o : Op) : Nat := o.dn 36 4
def Op.n0 (o : Op) : Nat := o.dn 40 4

/-- K_STRIDE of the feed (R239). -/
def Op.kStride (o : Op) : Nat := 256 * ((o.kLen + 255) / 256)

/-- Bytes of an element of an operand quantised at load. -/
def Op.qfmt (o : Op) : FpFmt := srcFmt (bit (o.dn 16 2) 10)

/-- Number of colour positions of a mode (R251). -/
def posCount (colour : Nat) : Nat := 2 ^ colour

/-- Requests of the op: MCOUNT for WSRC 2 and 3, else one (R255). -/
def Op.requests (o : Op) : Nat := if 2 ≤ o.wsrc then o.dn 54 2 else 1

/-- Rows of one request, or of one column step (R251, R255). -/
def rowsPer (m mcount colour : Nat) : Nat := (m / max 1 mcount + posCount colour - 1) / posCount colour

/-- What the op captured of the manifest entry of request `r`. -/
def Op.capt (o : Op) (r : Nat) : Capt := o.entries.getD r {}

/-- Reduction length of request `r`: for values, the positions from K0 to min(K0 + K, LENGTH) (R255). -/
def Op.kOf (o : Op) (r : Nat) : Nat := if o.wsrc = 3 then min (o.k0 + o.kLen) (o.capt r).len - o.k0 else o.kLen

/-- Output columns of request `r`: for keys, the positions from N0 to min(N0 + N, LENGTH) (R255). -/
def Op.nOf (o : Op) (r : Nat) : Nat := if o.wsrc = 2 then min (o.n0 + o.nLen) (o.capt r).len - o.n0 else o.nLen

/-- K-tiles of request `r`; none when its position range is empty (R255). -/
def Op.kTiles (o : Op) (r : Nat) : Nat := if o.nOf r = 0 then 0 else (o.kOf r + 255) / 256

/-- K steps of request `r` (R110). -/
def Op.kSteps (o : Op) (r : Nat) : Nat := (o.kTiles r + 2 ^ o.shapeRun - 1) / 2 ^ o.shapeRun

/-- Group of field `f` in the op's partition, and its member number (R56, R57). -/
def Op.groupOf (s : State) (o : Op) (f : Nat) : Nat := (f - firstField s (o.part s)) / 2 ^ o.shapeRun
def Op.memberOf (s : State) (o : Op) (f : Nat) : Nat := (f - firstField s (o.part s)) % 2 ^ o.shapeRun

/-- The fields of the group whose member 0 is field `root`. -/
def Op.members (o : Op) (root : Nat) : List Nat := (List.range (2 ^ o.shapeRun)).map (fun m => root + m)

/-- Where the group of field `f` stands. -/
def Op.posOf (s : State) (o : Op) (f : Nat) : Option GPos :=
  o.pos.find? (fun p => p.root == firstField s (o.part s) + o.groupOf s f * 2 ^ o.shapeRun)

/-- The op with the position of group `root` changed. -/
def Op.modPos (root : Nat) (g : GPos → GPos) (o : Op) : Op := { o with pos := o.pos.map (fun p => if p.root = root then g p else p) }

/-- The next step after `p` (R252, R255): K step, column step, request; none after the last. -/
def Op.nextPos (o : Op) (p : GPos) : Option GPos :=
  let p := { p with rowA := 0, rowB := 0, live := false }
  if p.kStep + 1 < o.kSteps p.req then some { p with kStep := p.kStep + 1 }
  else if p.colStep + 1 < o.rm.q then some { p with kStep := 0, colStep := p.colStep + 1 }
  else
    match (List.range (o.requests - (p.req + 1))).find? (fun i => 0 < o.kSteps (p.req + 1 + i)) with
    | some i => some { p with kStep := 0, colStep := 0, req := p.req + 1 + i }
    | none => none

/-- The number that names the tile of step `p` on a field's plane; 0 for none. -/
def tileKey (o : Op) (p : GPos) : Nat := 2 ^ 48 * o.key + 2 ^ 32 * p.req + 2 ^ 16 * p.colStep + p.kStep + 1

/-- The K-tile that member `m` processes in step `p`, if K reaches it (R57, R109). -/
def Op.kTile (o : Op) (p : GPos) (m : Nat) : Option Nat :=
  let t := p.kStep * 2 ^ o.shapeRun + m
  if t < o.kTiles p.req then some t else none

/-- Position of band `b` of group `g` among the column units of a step (R252). -/
def RowMap.bandIndex (m : RowMap) (g b : Nat) : Option Nat := m.bandList.findIdx? (fun x => x == (g, b))

/-- Op column of column `c` of group `g` in column step `q`; none on a band that the group does not use (R58, R252). -/
def RowMap.opColumn (m : RowMap) (q g c : Nat) : Option Nat :=
  (m.bandIndex g (c / 32)).map (fun i => q * m.cStep + 32 * i + c % 32)

/-! ### Codes of a tile (R36, R239, R255, R312) -/

/-- A code, and whether the word that holds it is poisoned. -/
abbrev TileCode := BitVec 8 × Bool

/-- Cell-off (R35). -/
def cellOff : BitVec 8 := 0x80

/-- Address of the code of element (k, n) of a stored tensor (R312). -/
def codeAddr (ptr tk k n : Nat) : Nat :=
  ptr + 65536 * (n / 256 * ((tk + 255) / 256) + k / 256) + 256 * (k % 256) + n % 256

/-- Source address of element (k, n) of an operand quantised at load, for request `r` (R239, R255). -/
def Op.srcAddr (o : Op) (r k n : Nat) : Nat :=
  let e := o.qfmt.bytes
  let c := o.capt r
  match o.wsrc with
  | 1 => o.dn 48 6 + (o.k0 + k) * o.dn 56 4 + (o.n0 + n) * e
  | 2 => c.kptr + (o.n0 + n) * c.stride + o.dn 56 4 + (o.k0 + k) * e
  | _ => c.vptr + (o.k0 + k) * c.stride + o.dn 56 4 + (o.n0 + n) * e

/-- The bytes [a, a+n) give the op no data: a word of them is poisoned, or they lie outside its reach (R290, R281). -/
def Op.noData (s : State) (o : Op) (a n : Nat) : Bool := !reachRange s (.core (o.part s)) false a n || anyBad s a n

/-- The elements of output column `n` of request `r` as FP32, and which of them give no data (R203). -/
def Op.column (s : State) (o : Op) (r n : Nat) : List (Nat × Bool) :=
  (List.range (o.kOf r)).map (fun k =>
    let a := o.srcAddr r k n
    (toFp32 o.qfmt (rdNat s a o.qfmt.bytes), o.noData s a o.qfmt.bytes))

/-- A column that holds a non-finite element (R193); a word that gives no data is left out. -/
def badColumn (l : List (Nat × Bool)) : Bool := l.any (fun x => !x.2 && !fpFinite fp32 x.1)

/-- The scale index of output column `n` of request `r` among the held scales. -/
def Op.scaleIdx (o : Op) (r n : Nat) : Nat := r * o.nLen + n

/-- The code of element (k, n) of the op's weight role in request `r`, and whether it is poisoned (R239, R203, R313): a stored code's word, the source word of an
element quantised at load (R281), or a non-finite element in its column (R193). -/
def Op.weightCode (s : State) (o : Op) (r k n : Nat) : TileCode :=
  if o.kOf r ≤ k ∨ o.nOf r ≤ n then (cellOff, false)
  else if o.wsrc = 0 then
    if o.tk ≤ o.k0 + k ∨ o.tn ≤ o.n0 + n then (cellOff, false)
    else
      let a := codeAddr o.ptr o.tk (o.k0 + k) (o.n0 + n)
      if o.noData s a 1 then (cellOff, true) else (rdByte s a, false)
  else
    let sc := (o.rm.scales.getD (o.scaleIdx r n) 0).toNat
    let a := o.srcAddr r k n
    if o.noData s a o.qfmt.bytes || badColumn (o.column s r n) then (cellOff, true)
    else (BitVec.ofInt 8 (quantise (toFp32 o.qfmt (rdNat s a o.qfmt.bytes)) sc).1, false)

/-- The code that cell (r, c) of field `f` takes for step `p` of op `o`: cell-off where the step has no column or no K-tile (R58, R109). -/
def cellCode (s : State) (o : Op) (p : GPos) (f r c : Nat) : TileCode :=
  match o.rm.opColumn p.colStep (o.groupOf s f) c, o.kTile p (o.memberOf s f) with
  | some n, some t => o.weightCode s p.req (256 * t + r) n
  | _, _ => (cellOff, false)

/-- The code that a fill writes into cell (r, c) of field `f` where the plane has `w`: cell-off on a fenced band (R55), the calibration code on a band withheld
for calibration (R172). -/
def fillCode (s : State) (f r c : Nat) (w : BitVec 8) : BitVec 8 :=
  if (s.field f).bandFenced.getLsbD (c / 32) then cellOff else (procCode s f r c).getD w

/-- The words that the loaders read for step `p` on field `f` hold address `8·w` (R239, R255, R312). -/
def tileReads (s : State) (o : Op) (p : GPos) (f w : Nat) : Bool :=
  match o.kTile p (o.memberOf s f) with
  | none => false
  | some t => (List.range 256).any (fun c =>
      match o.rm.opColumn p.colStep (o.groupOf s f) c with
      | none => false
      | some n =>
        if o.nOf p.req ≤ n then false
        else if o.wsrc = 0 then (List.range 256).any (fun r => codeAddr o.ptr o.tk (o.k0 + (256 * t + r)) (o.n0 + n) / 8 == w)
        else (List.range (o.kOf p.req)).any (fun k => o.srcAddr p.req k n / 8 == w))

/-- What the loaders read for step `p` on field `f`, element by element (R239, R255, R312). -/
def tileRanges (s : State) (o : Op) (p : GPos) (f : Nat) : List (Nat × Nat) :=
  match o.kTile p (o.memberOf s f) with
  | none => []
  | some t => (List.range 256).flatMap (fun c =>
      match o.rm.opColumn p.colStep (o.groupOf s f) c with
      | none => []
      | some n =>
        if o.nOf p.req ≤ n then []
        else if o.wsrc = 0 then (List.range 256).map (fun r => (codeAddr o.ptr o.tk (o.k0 + (256 * t + r)) (o.n0 + n), 1))
        else (List.range (o.kOf p.req)).map (fun k => (o.srcAddr p.req k n, o.qfmt.bytes)))

/-- A table over the 65,536 cells of a plane, in row-major order. -/
def cellTab {α : Type} (d : α) [DecidableEq α] (g : Nat → Nat → α) : Tab α :=
  (List.range 65536).filterMap (fun i => let v := g (i / 256) (i % 256); if v = d then none else some (i, v))

/-- Feed-SRAM address of code (r, c) of the tile that field `f` stages for step `p` of an operand quantised at load (R280): two tiles of 64 KiB, taken in turn by K step,
codes in row-major order (DESIGN CHOICE, assumption log 50). -/
def stageAddr (f : Nat) (p : GPos) (r c : Nat) : Nat := feedAddr f (0x17E0000 + 65536 * (p.kStep % 2) + 256 * r + c)

/-- The quantisers write the codes of the tile into the field's feed SRAM (R203, R280); a poisoned code's word is written poisoned (R193, R281). -/
def stageTile (o : Op) (p : GPos) (f : Nat) (s : State) : State :=
  let l := (List.range 65536).map (fun i => cellCode s o p f (i / 256) (i % 256))
  let a := stageAddr f p 0 0
  wrBytes a (l.map Prod.fst) (fun w => (List.range 8).any (fun j => (l.getD (8 * w - a + j) (cellOff, false)).2)) (hide o.stream a 65536 s)

/-- The code that enters the input buffer for cell (r, c) (R93): a stored tensor's, as the sequencer assembles the tile, or the staged one; a poisoned word gives
cell-off (R114). -/
def bufferCode (s : State) (o : Op) (p : GPos) (f r c : Nat) : TileCode :=
  if o.wsrc = 0 then cellCode s o p f r c
  else if wordBad s (stageAddr f p r c / 8) then (cellOff, true) else (rdByte s (stageAddr f p r c), false)

/-- The plane of codes that enters the input buffer (R93), and the columns that a poisoned weight word covers (R114). -/
def tilePlane (s : State) (o : Op) (p : GPos) (f : Nat) : Plane :=
  { codes := cellTab 0 (fun r c => (bufferCode s o p f r c).1)
    poisonCols := BitVec.ofNat 256 (listMask 256 ((List.range 256).filter (fun c =>
      (List.range 256).any (fun r => (bufferCode s o p f r c).2))))
    tile := tileKey o p }

/-! ### Drive codes (R32 to R35) -/

/-- The drive code of weight code `w` with gain entry `k`: round_half_even(asin(u) / 0.0025) by the least magnitude whose upper rounding edge reaches
u = 0.90·(w/127)·(1 + k/16384) (R33). -/
def driveFormula (w k : Int) : Int :=
  let u : Int := 9 * w * (16384 + k) * 2 ^ 64 / (10 * 127 * 16384)
  let a : Int := if u < 0 then -u else u
  let d := ((List.range 512).find? (fun d => decide (a ≤ fixSin (((2 * d + 1 : Nat) : Int) * 2 ^ 64 / 800)))).getD 511
  if u < 0 then -(d : Int) else d

/-- The drive code that a loader writes (R33, R35): within one code of the formula, or the cell's own extinction code; free values of the part. -/
def driveCode (f r c : Nat) (w : BitVec 8) (k : Int) : Int :=
  if w = cellOff then clampI (-511) 511 (Config.extinction (65536 * f + 256 * r + c))
  else clampI (-511) 511 (driveFormula w.toInt k + clampI (-1) 1 (Config.loaderError (65536 * f + 256 * r + c) w.toInt k))

/-- A plane converted for field `f` with the gain entries and extinction codes in force (R94). -/
def convert (s : State) (f : Nat) (b : Plane) : Plane :=
  let code := fun (r c : Nat) => fillCode s f r c (tget 0 b.codes (256 * r + c))
  { b with codes := cellTab 0 code, drives := cellTab 0 (fun r c => driveCode f r c (code r c) (calEff s (kCellGain f r c))) }

/-! ### Planes of a field -/

/-- The live and the shadow plane (R37). -/
def Field.live (x : Field) : Plane := if x.livePlane then x.planeB else x.planeA
def Field.shadow (x : Field) : Plane := if x.livePlane then x.planeA else x.planeB

/-- The field with its shadow plane at `p`. -/
def Field.putShadow (p : Plane) (x : Field) : Field := if x.livePlane then { x with planeA := p } else { x with planeB := p }

/-- Time in ns since the device began to count beats, at `t` in 0.1 ns of this beat. -/
def nowNs (s : State) (t : Nat) : Nat := 1000 * s.tim.beat + t / 10

/-- Time in 0.1 ns since the device began to count beats, at `t` in 0.1 ns of this beat. -/
def absT (s : State) (t : Nat) : Nat := 10000 * s.tim.beat + t

/-- Length of a symbol slot of field `x` in 0.1 ns (R16). -/
def Field.slotLen (x : Field) : Nat := if x.slow then 2 else 1

/-- The symbol slots of field `f` before `t` pass dark: its symbol and sample indices advance (R20, R52, R96, R100). -/
def advanceSlots (t : Nat) (s : State) (f : Nat) : State :=
  s.modField f (fun x =>
    let n := (t - x.slotT + x.slotLen - 1) / x.slotLen
    { x with slotT := x.slotT + n * x.slotLen, symIdx := x.symIdx + n, smpIdx := x.smpIdx + n * x.slotLen })

/-- The time within the beat that the slots of the fields `fs` have reached. -/
def slotTime (s : State) (fs : List Nat) : Nat := fs.foldl (fun m f => max m (s.field f).slotT) 0

/-- STATE of a field (R62): 0 dark, 1 a band in service, 2 none in service and one withheld, 3 fenced or every band fenced. -/
def fieldState (s : State) (f : Nat) : Nat :=
  let x := s.field f
  if x.fenced || x.bandFenced == BitVec.allOnes 8 then 3
  else if !x.lit then 0
  else if (x.bandFenced ||| x.bandWithheld) == BitVec.allOnes 8 then 2 else 1

/-- Bands that wait for a plane filled after their return (R94) move on. -/
def bandsFilled (f frm dst : Nat) (s : State) : State :=
  (List.range 8).foldl (fun (s : State) b => if (s.band (8 * f + b)).planeOk = frm then s.modBand (8 * f + b) (fun x => { x with planeOk := dst }) else s) s

/-- The tile that the loaders of field `f` should load next for the op that holds them: the current one until it is live, then the next (R256,
R257). -/
def wantTile (s : State) (f : Nat) : Option (Op × GPos) :=
  match (s.field f).loader.bind (opOf s) with
  | none => none
  | some o =>
    match o.posOf s f with
    | none => none
    | some p =>
      let q := if p.done then none else if p.live then o.nextPos p else some p
      match q with
      | some q => if (o.kTile q (o.memberOf s f)).isSome then some (o, q) else none
      | none => none

/-- A fill of field `f`'s shadow plane from its input buffer starts at `t`: the loaders convert with the entries now in force, and it settles 64 ns later
(R92, R94). -/
def startFill (f t : Nat) (s : State) : State :=
  let plane := convert s f (s.field f).inBuf
  s.modField f (fun x => { x with
    inBuf := plane, shadowReady := false, shadowStale := false, loaderBusy := true, reloadPend := false, fillEnd := absT s t + 640 })

/-- LOADER_BUFFER_LOADED (R93, R203): the next tile has entered the input buffer at `t`, from feed SRAM when it is quantised at load, and the fill starts; while a live refresh holds the shadow plane it waits for
the refresh swap (R42). The feed starves while a unit holds its requests (R306). -/
def execLoaderBufferLoaded (f t : Nat) (s : State) : Host.Outcome State Fault Refusal :=
  .next (
    match wantTile s f with
    | some (o, p) =>
      if (s.field f).bufFull || heldAny s (tileRanges s o p f) then s
      else
        let s := { s with tim := { s.tim with t := t } }
        let s := touchWhere (tileReads s o p f) s
        let s := if o.wsrc = 0 then s else stageTile o p f s
        let plane := tilePlane s o p f
        let s := s.modField f (fun x => { x with inBuf := plane, bufFull := true, reloadPend := x.refreshSwap })
        let s := if (s.field f).refreshSwap then s else startFill f t s
        if plane.poisonCols = 0 then s else modOp o.key (Op.flag fPoison) s
    | none => s)

/-- A fill from the input buffer has settled: the shadow plane holds what the loaders wrote (R92). -/
def fillShadow (f : Nat) (s : State) : State :=
  let s := s.modField f (fun x => { x.putShadow x.inBuf with shadowReady := true, loaderBusy := false, shadowAt := some (x.fillEnd / 10) })
  bandsFilled f 0 1 s

/-- FILL_COMPLETE (R92): SHADOW_READY 64 ns after the fill started. -/
def execFillComplete (f t : Nat) (s : State) : Host.Outcome State Fault Refusal :=
  .next (if (s.field f).bufFull ∧ (s.field f).loaderBusy ∧ !(s.field f).refreshSwap ∧ (s.field f).fillEnd ≤ absT s t
    then fillShadow f { s with tim := { s.tim with t := t } } else s)

/-- The field inverts its plane select: the shadow plane becomes live, and the drive-code store takes its codes (R39, R93). -/
def swapField (f : Nat) (s : State) : State :=
  let x := s.field f
  let s := s.setField f { x with
    livePlane := !x.livePlane, shadowReady := false, bufFull := false, swapWait := false
    liveAt := x.shadowAt, shadowAt := none, drvStore := x.shadow.drives }
  bandsFilled f 1 2 s

/-- The members of the group that hold a tile of the step (R109). -/
def Op.tiled (s : State) (o : Op) (p : GPos) : List Nat := (o.members p.root).filter (fun f => (o.kTile p (o.memberOf s f)).isSome)

/-- At `t` the shadow plane of field `f` holds the tile of step `p`, filled and not stale (R40, R94). -/
def tileReady (s : State) (o : Op) (p : GPos) (t f : Nat) : Bool :=
  let x := s.field f
  x.shadowReady && !x.shadowStale && decide (x.shadow.tile = tileKey o p) && decide (x.fillEnd ≤ absT s t)

/-- SWAP of the group whose member 0 is field `f` (R39, R40, R109): at a symbol boundary from `t` on, all members at one slot; it waits for the slowest fill. For
2 ns the members carry no user symbols (R18). -/
def execSwap (f t : Nat) (s : State) : Host.Outcome State Fault Refusal :=
  .next (
    match (s.field f).slots.bind (opOf s) with
    | none => s
    | some o =>
      match o.pos.find? (fun p => p.root == f) with
      | none => s
      | some p =>
        let fs := o.members f
        let at_ := max t (slotTime s fs)
        if p.live ∨ p.done then s
        else if (o.tiled s p).all (tileReady s o p at_) then
          let s := fs.foldl (advanceSlots at_) { s with tim := { s.tim with t := t } }
          let s := (o.tiled s p).foldl (fun (s : State) g => swapField g s) s
          let s := fs.foldl (fun (s : State) g => s.modField g (fun x => { x with darkTo := absT s x.slotT + 20 })) s
          modOp o.key (Op.modPos f (fun p => { p with live := true })) s
        else (o.tiled s p).foldl (fun (s : State) g => s.modField g (fun x => { x with swapWait := true })) s)

/-- The live plane's age at the coming beat edge is 19 µs or more (R41). -/
def planeOld (s : State) (f : Nat) : Bool :=
  match (s.field f).liveAt with
  | some a => decide (a + 19000 ≤ 1000 * (s.tim.beat + 1))
  | none => true

/-- A withheld band of field `f` waits for the codes of its point (R172). -/
def codesDue (s : State) (f : Nat) : Bool :=
  let x := s.field f
  (x.kaOn && !filledAfter s f x.kaAt) || (List.range 8).any (fun b =>
    let y := s.band (8 * f + b)
    (y.proc != 0 && !y.done && !filledAfter s f y.codesAt) || (y.qg == 1 && !filledAfter s f (1000 * (s.lport (portOfField f)).settledAt)))

/-- Live refresh is due in STATE 1 or 2: for the live plane's age, or for the codes of a calibration point (R41, R172). -/
def refreshDue (s : State) (f : Nat) : Bool :=
  (fieldState s f == 1 || fieldState s f == 2) && (planeOld s f || codesDue s f)

/-- What a refresh fill writes: the codes of the drive-code store, with cell-off on fenced bands and the calibration codes of withheld ones (R41, R55, R93,
R172). -/
def refreshPlane (s : State) (f : Nat) : Plane :=
  let x := s.field f
  let plain := x.bandFenced = 0 ∧ !x.kaOn ∧ (List.range 8).all (fun b => (s.band (8 * f + b)).proc == 0 && (s.band (8 * f + b)).qg != 1)
  if plain then { x.live with drives := x.drvStore }
  else
    let w := fun (r c : Nat) => tget 0 x.live.codes (256 * r + c)
    { x.live with
      codes := cellTab 0 (fun r c => fillCode s f r c (w r c))
      drives := cellTab 0 (fun r c =>
        if x.bandFenced.getLsbD (c / 32) ∨ (procCode s f r c).isSome then driveCode f r c (fillCode s f r c (w r c)) (calEff s (kCellGain f r c))
        else tget 0 x.drvStore (256 * r + c)) }

/-- The swap of a live refresh at t = 0 to 2 ns of the halt (R41, R93). -/
def refreshEdge (f : Nat) (s : State) : State :=
  let x := s.field f
  if !x.refreshSwap then s
  else s.setField f { x with
    livePlane := !x.livePlane, refreshSwap := false, loaderBusy := false, liveAt := some (1000 * s.tim.beat), shadowAt := none
    drvStore := x.shadow.drives, darkTo := 10000 * s.tim.beat + 20, refreshCount := x.refreshCount + 1 }

/-- PENDING_TILE_RELOAD (R42): after the refresh swap the pending tile is converted again from the input buffer, from 2 to 66 ns of the halt. -/
def execPendingTileReload (f : Nat) (s : State) : Host.Outcome State Fault Refusal :=
  .next (if (s.field f).reloadPend ∧ (s.field f).bufFull ∧ !(s.field f).refreshSwap then startFill f 20 s else s)

/-- PENDING_REWRITE (R41): a filled shadow plane at an age of 19 µs is rewritten from the input buffer in 64 ns, and a swap waits for it; a stale one is refilled
the same way (R94). -/
def execPendingRewrite (f t : Nat) (s : State) : Host.Outcome State Fault Refusal :=
  .next (
    let x := s.field f
    let old : Bool := match x.shadowAt with
      | some a => decide (a + 19000 ≤ nowNs s t)
      | none => false
    if x.shadowReady ∧ x.bufFull ∧ (old || x.shadowStale) = true ∧ (fieldState s f = 1 ∨ fieldState s f = 2) then
      startFill f t { s with tim := { s.tim with t := t } }
    else s)

/-- The code that a trim converter refreshes in the phase-trim hold of cell (r, c) (R38, R43): the factory's and the delta written last, which changes only while
the band is withheld (R44, R180). -/
def trimHold (s : State) (f r c : Nat) : Int := calFactory s (kTrim f r c) + tget 0 s.cal.trims (kTrim f r c)

/-- The push-pull phase difference of cell (r, c) of field `f` in µrad: the live drive code, and the phase trim against the cell's own imbalance (R31, R32, R38). -/
def cellPhase (s : State) (f r c : Nat) : Int :=
  2500 * tget 0 (s.field f).live.drives (256 * r + c) + 195 * trimHold s f r c - Config.imbalance (65536 * f + 256 * r + c)

/-- The signed field transmission t = sin Δφ of the cell, in fixed point (R31). -/
def cellField (s : State) (f r c : Nat) : Int := fixSin (cellPhase s f r c * 2 ^ 64 / 1000000)

/-- The drive code that the trim converters write into both weight holds of every pilot cell (R37, R51): that of weight code +64 at c_cell = 1. -/
def pilotHold : Int := driveFormula 64 0

/-- TRIM_ROUND_START (R95): at the edge of a beat whose number is a multiple of 64 each trim converter restarts. A refresh rewrites the codes already
held, so no hold changes (R43). -/
def execTrimRoundStart (s : State) : Host.Outcome State Fault Refusal :=
  .next (if s.tim.beat % 64 = 0
    then { s with fields := tmap {} s.fields (fun _ x => { x with trimRound := 0 }) } else s)

end Sys2Proof.Machine
end

