-- ==== Sys2Proof/Machine/Slots.lean ====
section
/-! DEFINITION. Slices and symbol slots: which group may run in a beat, its plan, the output code of a sample, taint windows, the adder tree, the
accumulator (R19 to R21, R52, R53, R96 to R114, R251, R254, R256 to R259, R447). -/

namespace Sys2Proof.Machine

open Sys2Proof

/-! ### Throttle and modes -/

/-- Enforcement step in force on field `f`: that of its tile (R444, R453). -/
def stepOf (s : State) (f : Nat) : Nat := s.thm.steps.getD (f / 8) 0

/-- The highest step on a group's fields. -/
def groupStep (s : State) (fs : List Nat) : Nat := fs.foldl (fun m f => max m (stepOf s f)) 0

/-- Steps 3 and 4 allow slices in one beat of every 2 and of every 4; which one is a free value (R447). -/
def beatAllowed (s : State) (st : Nat) : Bool :=
  decide (st < 3) || (st == 3 && (s.tim.beat + Config.idlePhase 3) % 2 == 0) || (st == 4 && (s.tim.beat + Config.idlePhase 4) % 4 == 0)

/-- The symbol rate of an op on a group: 5 GBd in C1 and from step 2 on (R47, R447). -/
def slowFor (s : State) (o : Op) (fs : List Nat) : Bool := o.rm.mode == 0 || decide (2 ≤ groupStep s fs)

/-- A C4 op sends each K-tile twice while a step limits it to two colours (R254). -/
def pairsFor (s : State) (o : Op) (fs : List Nat) : Bool := o.rm.mode == 2 && decide (1 ≤ groupStep s fs)

/-- The colours of an op as a mask. -/
def Op.colourMask (o : Op) : BitVec 4 := BitVec.ofNat 4 (listMask 4 o.rm.colours)

/-- The modes in force on field `f` equal the op's (R258). -/
def modesMatch (s : State) (o : Op) (fs : List Nat) (f : Nat) : Bool :=
  let x := s.field f
  x.colours == o.colourMask && x.colourMode == o.rm.mode && x.slow == slowFor s o fs && x.headroom == o.rm.headroom

/-- The op's modes take force on field `f` at a beat edge (R17, R96, R258), with the tree of its group (R107, R119). -/
def setModes (o : Op) (fs : List Nat) (root : Nat) (s : State) (f : Nat) : State :=
  let slow := slowFor s o fs
  s.modField f (fun x => { x with
    colours := o.colourMask, colourMode := o.rm.mode, slow := slow, headroom := o.rm.headroom
    treeRoot := f == root, treeDepth := o.shapeRun, slots := some o.key, nextOp := none })

/-! ### Which group runs (R55, R71, R158, R256) -/

/-- Bands that the op uses in the group of `root`, as a mask (R58). -/
def Op.groupBands (s : State) (o : Op) (root : Nat) : BitVec 8 := o.rm.bands.getD (o.groupOf s root) 0

/-- The field's port holds P0 on every colour of the op (R71). -/
def lightStored (s : State) (o : Op) (f : Nat) : Bool := o.rm.colours.all (fun g => (s.lcol (4 * portOfField f + g)).p0.isSome)

/-- The live plane's age does not exceed 20 µs (R41). -/
def planeFresh (s : State) (f : Nat) : Bool :=
  match (s.field f).liveAt with
  | some a => decide (1000 * s.tim.beat ≤ a + 20000)
  | none => false

/-- The group may run a slice in this beat. -/
def mayRun (s : State) (o : Op) (p : GPos) : Bool :=
  let fs := o.members p.root
  let m := o.groupBands s p.root
  let st := groupStep s fs
  s.tim.admits && !s.flt.deviceError && !s.light.pause && !s.thm.shutdown && s.pwr.state == 0 && decide (st < 5) && beatAllowed s st &&
  decide (o.stage = 2) && !p.done && o.abortAt.isNone &&
  fs.all (fun f =>
    let x := s.field f
    x.lit && !x.thPause && x.slots == some o.key && (m &&& x.bandWithheld) == 0 &&
    lightStored s o f && (!p.live || !(o.tiled s p).contains f || planeFresh s f) &&
    (!p.live || (List.range 8).all (fun b => !(m &&& ~~~x.bandFenced).getLsbD b || (s.band (8 * f + b)).planeOk == 2)))

/-! ### The plan (R256, R21) -/

/-- End of the group's slice window in 0.1 ns (R170, R256). -/
def windowEnd (s : State) (fs : List Nat) : Nat := if fs.any (fun f => (s.field f).window) then 9904 else 10000

/-- Row offsets that fit from `t` to `te`: `left` slots of the current tile, then tiles of `per` slots each, a swap of 20 whose fill is ready at
`ready`, and the next fill 896 after each swap (R39, R93). Times in 0.1 ns, slots of length `len`. -/
def planSlots (te per len : Nat) : Nat → Nat → Nat → Nat → Nat
  | 0, t, left, _ => min left ((te - t) / len)
  | tiles + 1, t, left, ready =>
    let n := min left ((te - t) / len)
    if n < left then n
    else
      let sw := max (t + left * len) ready
      if te < sw + 20 then n else n + planSlots te per len tiles (sw + 20) per (sw + 20 + 896)

/-- Tiles of the op still to come after step `p`, at most `fuel`. -/
def Op.tilesLeft (o : Op) : Nat → GPos → Nat
  | 0, _ => 0
  | fuel + 1, p => match o.nextPos p with
    | some q => 1 + o.tilesLeft fuel q
    | none => 0

/-- Rows of one pass of a tile (R251, R255). -/
def Op.tileRows (o : Op) : Nat := rowsPer o.rm.m o.rm.mcount o.rm.mode

/-- Slots that the current tile still needs. -/
def Op.slotsLeft (o : Op) (pairs : Bool) (p : GPos) : Nat :=
  let r := o.tileRows
  if pairs || decide (p.rowB < p.rowA) then (r - p.rowA) + (r - p.rowB) else r - p.rowA

/-- When the shadow planes of the group are ready, in 0.1 ns of this beat (R92): a fill in progress settles at its time, and one not begun takes
the buffer load and the fill from now. -/
def readyAt (s : State) (fs : List Nat) (t : Nat) : Nat :=
  fs.foldl (fun m f =>
    let x := s.field f
    max m (if x.shadowReady && !x.shadowStale then 0 else if x.bufFull then x.fillEnd - 10000 * s.tim.beat else t + 896)) 0

/-- The row offsets that the sequencer plans for the group's slice from `t` (R256). -/
def planRows (s : State) (o : Op) (p : GPos) (t : Nat) : Nat :=
  let fs := o.members p.root
  let pairs := pairsFor s o fs
  let len := if slowFor s o fs then 2 else 1
  let te := windowEnd s fs
  let left := o.slotsLeft pairs p
  let per := if pairs then 2 * o.tileRows else o.tileRows
  let tiles := o.tilesLeft 11 p
  if p.live then planSlots te per len tiles t left (readyAt s fs t)
  else
    let sw := max t (readyAt s fs t)
    if te < sw + 20 then 0 else planSlots te per len tiles (sw + 20) left (sw + 20 + 896)

/-- The group's slice of beat `b` uses the colours `c`; that of the beat before is kept (R76, R157). -/
def GPos.ran (b : Nat) (c : BitVec 4) (p : GPos) : GPos :=
  if p.beat = some b then { p with cols := p.cols ||| c } else { p with beat := some b, cols := c, beatPrev := p.beat, colsPrev := p.cols }

/-- The group's slice of this beat starts at `t` (R19): the plan, STALE_CAL of the bands it uses (R183), LIGHT_LOW for a failed tap converter (05 R136). -/
def startSlice (o : Op) (p : GPos) (t : Nat) (s : State) : State :=
  let fs := o.members p.root
  let n := planRows s o p t
  let stale := fs.any (fun f => (List.range 8).any (fun b => o.rm.usedBands.contains (o.groupOf s p.root, b) && bandStale s f b))
  let frozen := fs.any (fun f => (s.lport (portOfField f)).frozen)
  modOp o.key (fun o =>
    let o := (o.flagIf stale fStale).flagIf frozen fLight
    let o := if o.sliceBeat = some s.tim.beat then o else { o with slicePrev := o.sliceBeat, sliceBeat := some s.tim.beat }
    o.modPos p.root (fun p => GPos.ran s.tim.beat o.colourMask { p with on := true, planned := n, sent := 0 })) s

/-- Slots and loaders: the group of `root` takes its fields when every member is free for it: it holds the slots, or the loaders of a field whose slots no op
holds (R256 to R258). `edge`: at a beat edge its modes take force, else they must already be in force. A field under a known-answer check is left alone (R187). -/
def claimGroup (edge : Bool) (key root : Nat) (s : State) : State :=
  match opOf s key with
  | none => s
  | some o =>
    let fs := o.members root
    if fs.all (fun f => ((s.field f).slots == some key || ((s.field f).slots == none && (s.field f).loader == some key)) && !(s.field f).kaOn) then
      if edge then fs.foldl (setModes o fs root) s
      else if fs.all (modesMatch s o fs) then
        fs.foldl (fun (s : State) f => s.modField f (fun x => { x with slots := some key, treeRoot := f == root, treeDepth := o.shapeRun })) s
      else fs.foldl (fun (s : State) f => s.modField f (fun x => { x with nextOp := some key })) s
    else s

/-- Every group of every admitted `field.gemm` claims its fields at a beat edge. -/
def claimEdge (s : State) : State :=
  (s.ops.filter (fun o => o.code == 0x01 && o.stage == 2)).foldl (fun (s : State) o =>
    (o.pos.filter (fun p => !p.done)).foldl (fun (s : State) p => claimGroup true o.key p.root s) s) s

/-- Slices of every group that may run start or resume at `t` (R19, R259). -/
def openSlices (t : Nat) (s : State) : State :=
  (s.ops.filter (fun o => o.code == 0x01 && o.stage == 2)).foldl (fun (s : State) o =>
    o.pos.foldl (fun (s : State) p => if mayRun s o p && !p.on then startSlice o p t s else s) s) s

/-- The group may start a slice now: its members' slots have reached a time inside their slice window (R19, R257). -/
def inWindow (s : State) (fs : List Nat) : Bool := decide (480 ≤ slotTime s fs ∧ slotTime s fs < windowEnd s fs)

/-- An op's groups try to take their fields and, within the window, to start at the slot that their members have reached. -/
def tryStart (key : Nat) (s : State) : State :=
  let s := match opOf s key with
    | some o => (o.pos.filter (fun p => !p.done)).foldl (fun (s : State) p => claimGroup false key p.root s) s
    | none => s
  match opOf s key with
  | some o => o.pos.foldl (fun (s : State) p =>
      let fs := o.members p.root
      if mayRun s o p && !p.on && inWindow s fs then startSlice o p (slotTime s fs) (fs.foldl (advanceSlots (slotTime s fs)) s) else s) s
  | none => s

/-- SLICE_WINDOW_OPEN (R19): at t = 48 ns; slots of the halt not yet taken have passed dark. The first slice admitted is remembered (R372). -/
def execSliceWindowOpen (s : State) : Host.Outcome State Fault Refusal :=
  .next (
    let s := openSlices 480 ((List.range 32).foldl (advanceSlots 480) { s with tim := { s.tim with t := 480 } })
    if s.ops.any (fun o => o.pos.any (fun p => p.on)) then { s with tim := { s.tim with everAdmitted := true } } else s)

/-- The slice of a group ends at the window's end: OVERRUN when it sent fewer row offsets than planned (R21, R259). -/
def endSlice (o : Op) (p : GPos) (s : State) : State :=
  modOp o.key (fun o => (o.flagIf (decide (p.sent < p.planned)) fOverrun).modPos p.root (fun p => { p with on := false })) s

/-- Running slices of the groups that `q` picks end. -/
def endSlices (q : List Nat → Bool) (s : State) : State :=
  s.ops.foldl (fun (s : State) o => o.pos.foldl (fun (s : State) p => if p.on && q (o.members p.root) then endSlice o p s else s) s) s

/-- CALIBRATION_WINDOW_OPEN (R170, R256): at t = 990.4 ns the slices of every group with a member that reserves the window end. -/
def execCalibrationWindowOpen (s : State) : Host.Outcome State Fault Refusal :=
  .next (endSlices (fun fs => fs.any (fun f => (s.field f).window)) { s with tim := { s.tim with t := 9904 } })

/-- SLICE_WINDOW_END (R19, R21): at t = 1000 ns. -/
def execSliceWindowEnd (s : State) : Host.Outcome State Fault Refusal :=
  .next (endSlices (fun _ => true) { s with tim := { s.tim with t := 10000 } })

/-! ### Live refresh (R41) -/

/-- At the coming beat edge the group's tiled members will hold the tile of step `q`, filled and not stale. -/
def readyByEdge (s : State) (o : Op) (q : GPos) : Bool :=
  (o.tiled s q).all (fun f =>
    let x := s.field f
    (x.shadowReady && !x.shadowStale && decide (x.shadow.tile = tileKey o q)) ||
    (x.loaderBusy && decide (x.inBuf.tile = tileKey o q) && decide (x.fillEnd ≤ absT s 10000)))

/-- A user swap is planned on field `f` before the coming beat edge: the running slice waits for its tile, or ends its tile early enough, and the fill ends in time
(R41). -/
def swapPlanned (s : State) (f : Nat) : Bool :=
  match (s.field f).slots.bind (opOf s) with
  | none => false
  | some o =>
    match o.posOf s f with
    | none => false
    | some p =>
      let fs := o.members p.root
      if !p.on then false
      else if !p.live then readyByEdge s o p
      else match o.nextPos p with
        | none => false
        | some q => decide (slotTime s fs + o.slotsLeft (pairsFor s o fs) p * (s.field f).slotLen + 20 ≤ windowEnd s fs) && readyByEdge s o q

/-- LIVE_REFRESH (R41): from t = 936 ns the loaders rewrite the shadow plane with the live codes; the field swaps in the halt that follows. A pending tile is loaded
again after it (R42). -/
def execLiveRefresh (f : Nat) (s : State) : Host.Outcome State Fault Refusal :=
  .next (
    let x := s.field f
    if f < 32 ∧ refreshDue s f ∧ !swapPlanned s f ∧ !x.refreshSwap then
      s.setField f { x.putShadow (refreshPlane s f) with
        refreshSwap := true, reloadPend := x.reloadPend || x.bufFull, shadowReady := false, loaderBusy := true
        shadowAt := some (1000 * (s.tim.beat + 1)), fillEnd := absT s 10000 }
    else s)

/-! ### The output code (R96 to R105) -/

/-- The pilot's sign s in slot n of colour γ (R52). -/
def pilotSign (n g : Nat) : Int := prbs7 ((n / 2 + 32 * g) % 127)

/-- A raw code at its rail (R101). -/
def atRail (r : Int) : Bool := decide (r ≤ -512 ∨ 511 ≤ r)

/-- The pilot symbol of slot n in colour γ as in-phase and quadrature amplitude, in input-code units: the pilot DAC drives one arm on even indices and the
other on odd ones (R52, R91). -/
def pilotSymbol (n g : Nat) : Int × Int := if n % 2 = 0 then (8 * pilotSign n g, 0) else (0, 8 * pilotSign n g)

/-- The sum over the rows of cell field times input code that the light of column `c` in colour `g` carries in this slot, in fixed point (R30, R31, R49): a dark row gives
nothing. -/
def columnSum (s : State) (f c g : Nat) : Int :=
  ((s.field f).feed.filter (fun e => e.1 % 4 == g)).foldl (fun a e => a + cellField s f (e.1 / 4) c * e.2.toInt) 0

/-- By how much the receiver's light-gain compensation exceeds the fade that light and LO show, in steps of 0.005 dB (R72, R97). -/
def gainExcess (s : State) (n g : Nat) : Int :=
  let l := s.lcol (4 * n + g)
  if (s.lcol (4 * servingPort s n + g)).p0.isNone then 0 else l.comp - 2 * (fadeOf s (servingPort s n) g + (l.loRef - l.loTap))

/-- What the common-offset DAC of the column's band adds, in 1/65536 code (R97, R141). -/
def bandOffset (s : State) (f c g : Nat) : Int :=
  let d := offsetDac (s.loop (loSlot (8 * f + c / 32) g + 64)).out
  if d = 0 then 0 else d * Config.offsetWeight (65536 * f + 4 * c + g)

/-- The headroom setting, column gain, column offset and pilot gain that the correction stage uses on a column and colour (R96, R101). -/
def columnCal (s : State) (f c g : Nat) : Nat × Int × Int × Int :=
  let h := bandHead s (8 * f + c / 32)
  (h, calEff s (kGain f c g h), calEff s (kOffset f c g h), calEff s (kPilot f c g h))

/-- The offset of the ADC slice that takes sample `i` of the column and colour (R87, R99). -/
def sliceOffset (s : State) (f c g i : Nat) : Int := (s.adc (((f * 256 + c) * 4 + g) * 16 + i % 16)).offset

/-- The raw code of sample `i` that the column's light stands for, rounded to a code: sum and in-phase pilot term under the receiver's gain against the calibrated one, the
slice's and the column's offset, and the band's common offset (R49, R53, R96, R97, R101). Full scale is 127 / 0.90 of a row's field to a code product (R33). -/
def idealCode (s : State) (f c g i : Nat) : Int :=
  let x := s.field f
  let (_, gain, colOff, pilot) := columnCal s f c g
  let den : Int := 9 * gain * 2 ^ 64
  let light := (pilotSymbol x.symIdx g).1 * pilot * den + columnSum s f c g * (1270 * 2 ^ 32)
  let fixed := (4096 * (sliceOffset s f c g i + colOff) + bandOffset s f c g) * (den * 2 ^ 64)
  roundEven (fixed + light * fieldRatio (gainExcess s (portOfField f) g)) (den * 2 ^ 80).toNat

/-- What the analogue path adds to a column's two samples of this slot, beside what State gives: an operand (assumption log 7). -/
def sampleErr (l : List Sample) (f c g : Nat) : Int × Int :=
  match l.find? (fun x => x.f == f && x.c == c && x.g == g) with
  | some x => (x.err, x.err2)
  | none => (0, 0)

/-- The two raw samples of a slot, the second at 5 GBd only (R96, R100), held within the rails. -/
def rawCodes (s : State) (l : List Sample) (f c g : Nat) : Int × Int :=
  let n := (s.field f).smpIdx
  let e := sampleErr l f c g
  (clampI (-512) 511 (idealCode s f c g n + e.1), clampI (-512) 511 (idealCode s f c g (n + 1) + e.2))

/-- The corrected value v of R101 in 1/16 code, before its rounding to a code: every step carries four fractional bits, rounded half to even. -/
def corrected (s : State) (f c g : Nat) (raw : Int × Int) : Int :=
  let x := s.field f
  let (_, _, colOff, pilot) := columnCal s f c g
  let v := 16 * raw.1 - sliceOffset s f c g x.smpIdx
  let v := if x.slow then roundEven (v + 16 * raw.2 - sliceOffset s f c g (x.smpIdx + 1)) 2 else v
  v - colOff - roundEven ((pilotSymbol x.symIdx g).1 * pilot) 4096

/-- The output code before taint, and whether it overranges (R101). At 5 GBd a rail in either half makes the slot overrange (R100); where the halves sit at opposite
rails the manual does not say whose sign the code takes, and the model takes the first half's (DESIGN CHOICE, assumption log 55). -/
def outputCode (slow : Bool) (raw : Int × Int) (v : Int) : Int × Bool :=
  let n := roundEven v 16
  if atRail raw.1 then (if raw.1 < 0 then -511 else 511, true)
  else if slow && atRail raw.2 then (if raw.2 < 0 then -511 else 511, true)
  else if 511 ≤ n then (511, true) else if n ≤ -511 then (-511, true) else (n, false)

/-- Key of the taint window of a column and colour (R104). -/
def octetKey (f c g : Nat) : Nat := (f * 32 + c / 8) * 4 + g

/-- The slot lies in the taint window of the column's octet. -/
def inTaint (s : State) (f c g : Nat) : Bool := decide ((s.field f).symIdx < (s.taint (octetKey f c g)).upTo)

/-- A judged sample: its raw codes, its corrected value in 1/16 code, its value in the tree, and its T, O and P bits (R102, R103, R105, R108). -/
structure TreeIn where
  f : Nat
  c : Nat
  g : Nat
  raw : Int × Int
  w : Int
  v : Int
  t : Bool
  o : Bool
  p : Bool
  deriving DecidableEq, Repr

/-- The judgement of a sample (R101 to R105): a taint marker adds as zero, an overrange sets O even inside the window. -/
def judge (s : State) (l : List Sample) (f c g : Nat) : TreeIn :=
  let raw := rawCodes s l f c g
  let w := corrected s f c g raw
  let y := outputCode (s.field f).slow raw w
  let t := inTaint s f c g
  { f := f, c := c, g := g, raw := raw, w := w, v := if t then 0 else y.1, t := t, o := y.2, p := (s.field f).live.poisonCols.getLsbD c }

/-- The receivers of field `f` that work: those of its bands that are not fenced, while it is not dark (R55, R62). -/
def receivers (x : Field) : List (Nat × Nat) :=
  if x.lit && !x.fenced then ((List.range 256).filter (fun c => !x.bandFenced.getLsbD (c / 32))).flatMap (fun c => (List.range 4).map (fun g => (c, g))) else []

/-- Every sample of field `f` in this slot, gated or not (R99, R103). -/
def judgeField (s : State) (l : List Sample) (f : Nat) : List TreeIn := (receivers (s.field f)).map (fun i => judge s l f i.1 i.2)

/-- Overranges open or restart their octets' windows: tainted to slot n + 24 (R104, R105). -/
def openTaints (l : List TreeIn) (s : State) : State :=
  (l.filter (fun x => x.o)).foldl (fun (s : State) x =>
    s.setTaint (octetKey x.f x.c x.g) { upTo := (s.field x.f).symIdx + 25 }) s

/-! ### Estimators (R53, R99, R141) -/

/-- Lists added place by place; the empty one stands for zeros. -/
def addLists (a b : List Int) : List Int := if a = [] then b else List.zipWith (· + ·) a b

/-- A sample of every channel enters the sums of slice `i` of its field (R99). -/
def noteSlice (i : Nat) (l : List Int) (x : Field) : Field :=
  { x with
    slSum := tset [] x.slSum i (addLists (tget [] x.slSum i) l), slN := tset 0 x.slN i (tget 0 x.slN i + 1)
    slSq := tset [] x.slSq i (addLists (tget [] x.slSq i) (l.map (fun v => v * v)))
    slCor := tset [] x.slCor i (addLists (tget [] x.slCor i) (List.zipWith (· * ·) l (if x.lastRaw = [] then l.map (fun _ => 0) else x.lastRaw)))
    slN16 := tset 0 x.slN16 i (tget 0 x.slN16 i + 1), lastRaw := l }

/-- The channels of a field in order 4·column + colour with the value that `v` takes from a judged sample; 0 where no receiver works. -/
def channels (l : List TreeIn) (v : TreeIn → Int) : List Int :=
  (List.range 1024).map (fun i => ((l.find? (fun x => 4 * x.c + x.g == i)).map v).getD 0)

/-- The slot's samples enter the estimators of field `f`: its slices (R99); on odd indices the correlation of the quadrature pilot, and in the halt the mean corrected
code, by band and colour (R53, R141). -/
def noteField (s₀ : State) (l : List TreeIn) (s : State) (f : Nat) : State :=
  let l := l.filter (fun x => x.f == f)
  let x₀ := s₀.field f
  let odd := decide (x₀.symIdx % 2 = 1)
  let halt := decide (x₀.slotT < 480)
  if l = [] then s
  else s.modField f (fun x =>
    let x := noteSlice (x₀.smpIdx % 16) (channels l (fun y => y.raw.1)) x
    let x := if x₀.slow then noteSlice ((x₀.smpIdx + 1) % 16) (channels l (fun y => y.raw.2)) x else x
    l.foldl (fun x y =>
      let k := 8 * y.g + y.c / 32
      let x := if odd then { x with
          quad := tset 0 x.quad k (tget 0 x.quad k + pilotSign x₀.symIdx y.g * y.w)
          quadAmp := tset 0 x.quadAmp k (tget 0 x.quadAmp k + 8 * (columnCal s₀ f y.c y.g).2.2.2) } else x
      if halt then { x with
          haltSum := tset 0 x.haltSum k (tget 0 x.haltSum k + y.w)
          haltN := tset 0 x.haltN k (tget 0 x.haltN k + 1) } else x) x)

/-- The slots of field `f` end with the beat; what its estimators found stands for the loops (R138, R141): the LO phase as the arc sine of the correlation over the pilot's
amplitude, in π/2^15; the receiver offset as the halt's mean code, 512 steps to a code. -/
def fieldSlotsEnd (s : State) (f : Nat) : State :=
  let s := advanceSlots 10000 s f
  s.modField f (fun x => { x with
    slotT := 0, estBeat := some s.tim.beat, quad := [], quadAmp := [], haltSum := [], haltN := []
    loY := (List.range 32).filterMap (fun k =>
      let a := tget 0 x.quadAmp k
      if 0 < a then some (k, some (arcSine (4096 * tget 0 x.quad k) a)) else none)
    offY := (List.range 32).filterMap (fun k =>
      let n := tget 0 x.haltN k
      if 0 < n then some (k, some (sat16 (roundEven (32 * tget 0 x.haltSum k) n))) else none) })

/-! ### One slot of a running group (R109 to R114, R251) -/

/-- The colour positions that the next slot sends, and its row offset (R251, R254). -/
def Op.slotWork (o : Op) (pairs : Bool) (p : GPos) : List Nat × Nat :=
  let n := posCount o.rm.mode
  if n < 4 then (List.range n, p.rowA)
  else if p.rowA = p.rowB then (if pairs then ([0, 2], p.rowA) else ([0, 1, 2, 3], p.rowA))
  else if pairs ∧ p.rowA < o.tileRows then ([0, 2], p.rowA)
  else ([1, 3], p.rowB)

/-- Token of a colour position at row offset `i` of request `r`; none where the row has no such token (R251, R255). -/
def Op.token (o : Op) (r i pos : Nat) : Option Nat :=
  let n := posCount o.rm.mode
  let per := o.rm.m / max 1 o.rm.mcount
  if n * i + pos < per then some (r * per + n * i + pos) else none

/-- Accumulator row of row offset `i` (R251, R255). -/
def Op.accRow (o : Op) (p : GPos) (i : Nat) : Nat := o.rm.firstRow + (p.colStep * max 1 o.rm.mcount + p.req) * o.tileRows + i

/-- A feed word that member `f` needs for token `j` in this step is poisoned (R114). -/
def feedBad (s : State) (o : Op) (p : GPos) (j f : Nat) : Bool :=
  match o.kTile p (o.memberOf s f) with
  | some t => anyBad s (feedAddr f (o.dn 44 3 + j * o.kStride + 256 * t)) (min 256 (o.kOf p.req - 256 * t))
  | none => false

/-- The feed words that the slot needs are read: corrected or converted (R292, R114). -/
def feedTouch (o : Op) (p : GPos) (work : List Nat) (i : Nat) (s : State) : State :=
  (work.filterMap (o.token p.req i)).foldl (fun (s : State) j =>
    (o.members p.root).foldl (fun (s : State) f =>
      match o.kTile p (o.memberOf s f) with
      | some t => touch (feedAddr f (o.dn 44 3 + j * o.kStride + 256 * t)) (min 256 (o.kOf p.req - 256 * t)) s
      | none => s) s) s

/-- The dark symbol (R88). -/
def darkByte : BitVec 8 := 0x80

/-- The feed byte of row `r` on member `f` for token `j` (R30, R88): dark without a K-tile (R109), beyond K (R36) and on rows that a poisoned feed word covers
(R114). -/
def feedByte (s : State) (o : Op) (p : GPos) (f j r : Nat) : BitVec 8 :=
  match o.kTile p (o.memberOf s f) with
  | some t =>
    let a := feedAddr f (o.dn 44 3 + j * o.kStride + 256 * t + r)
    if 256 * t + r < o.kOf p.req ∧ wordBad s (a / 8) = false then rdByte s a else darkByte
  | none => darkByte

/-- The bytes of row offset `i` on member `f`: each colour in use carries its token, and unused colours are dark (R48, R251). -/
def feedOf (s : State) (o : Op) (p : GPos) (work : List Nat) (i f : Nat) : Tab (BitVec 8) :=
  (List.range 1024).filterMap (fun k =>
    match (work.find? (fun pos => o.rm.colours.getD pos 0 == k % 4)).bind (o.token p.req i) with
    | some j => let b := feedByte s o p f j (k / 4); if b = darkByte then none else some (k, b)
    | none => none)

/-- The row modulators of field `f` take the bytes `l`, past the table when `direct` (R172); each driver keeps the slot before for its second tap (R88, R90). -/
def modulate (f : Nat) (l : Tab (BitVec 8)) (direct : Bool) (s : State) : State :=
  s.modField f (fun x => { x with feed := l, feedPrev := x.feed, direct := direct, directPrev := x.direct })

/-- The slot of the group reads its feed words, and its fields' modulators take the bytes. -/
def feedSlot (o : Op) (p : GPos) (s : State) : State :=
  let fs := o.members p.root
  let (work, i) := o.slotWork (pairsFor s o fs) p
  let s := feedTouch o p work i s
  fs.foldl (fun (s : State) f => modulate f (feedOf s o p work i f) false s) s

/-- The DAC code of a byte on row `r` and colour `g`: its entry of the pre-distortion table, or in row calibration the byte itself; the dark symbol is code 0 (R89, R172). -/
def dacCode (s : State) (f r g : Nat) (direct : Bool) (b : BitVec 8) : Int :=
  if b = darkByte then 0 else if direct then b.toInt else calEff s (kPre f r g (b.toInt + 128).toNat)

/-- The byte that the driver of row `r` and colour `g` takes in this slot, or in the one before (`back` = 1): the pilot row's follows the pattern of R52 in every slot (R91). -/
def driverByte (x : Field) (r g back : Nat) : BitVec 8 :=
  if r = 256 then (if x.symIdx < back then darkByte else BitVec.ofInt 8 (8 * pilotSign (x.symIdx - back) g))
  else tget darkByte (if back = 0 then x.feed else x.feedPrev) (4 * r + g)

/-- What the driver of row `r` and colour `g` puts out, in 1/32 DAC code: DAC(n) − e·DAC(n − 1) (R90); row 256 is the pilot row (R87, R91). -/
def modulatorDrive (s : State) (f r g : Nat) : Int :=
  let x := s.field f
  32 * dacCode s f r g (x.direct && decide (r < 256)) (driverByte x r g 0) -
    (min 15 (Config.preEmphasis f r g) : Nat) * dacCode s f r g (x.directPrev && decide (r < 256)) (driverByte x r g 1)

/-- The tree's output for a cell (R107, R108): members without a tile give an exact 0 (R109). `bad`: a poisoned feed word of the token. -/
def treeSum (s : State) (o : Op) (p : GPos) (l : List Sample) (g c : Nat) (bad : Bool) : AccCell :=
  ((o.tiled s p).map (fun f => judge s l f c g)).foldl (fun a x =>
    { val := a.val + x.v, T := a.T || x.t, O := a.O || x.o, P := a.P || x.p }) { val := 0, T := false, O := false, P := bad }

/-- An accumulator write (R112): initialise or add. -/
def accWrite (init : Bool) (key : Nat) (v : AccCell) (s : State) : State :=
  if init then s.setAccCell key v
  else s.modAccCell key (fun a => { val := signed 32 (image 32 (a.val + v.val)), T := a.T || v.T, O := a.O || v.O, P := a.P || v.P })

/-- The columns of the group's usable bands. -/
def Op.groupColumns (s : State) (o : Op) (root : Nat) : List Nat :=
  (List.range 256).filter (fun c => (o.groupBands s root).getLsbD (c / 32))

/-- A write of the pass count of a row (R224). -/
def countPass (root row n : Nat) (init : Bool) (s : State) : State :=
  let k := 2048 * root + row
  { s with seq := { s.seq with passes := tset 0 s.seq.passes k (if init then n else tget 0 s.seq.passes k + n) } }

/-- The position after a slot, and whether its tile is finished (R252). -/
def Op.advance (o : Op) (work : List Nat) (p : GPos) : GPos × Bool :=
  let p := { p with sent := p.sent + 1
                    rowA := if work.contains 0 then p.rowA + 1 else p.rowA
                    rowB := if work.contains 1 || work.length < 3 && !work.contains 2 then p.rowB + 1 else p.rowB }
  (p, decide (o.tileRows ≤ p.rowA ∧ o.tileRows ≤ p.rowB))

/-- The op's fields fall free with its last slice; the op that holds their loaders may take the slots (R256, R257). TREE_ROOT and TREE_DEPTH keep the values of the last op
(R119 says what they read while an op holds the field; DESIGN CHOICE, assumption log 55). -/
def freeGroup (o : Op) (s : State) : State :=
  let fs := o.pos.flatMap (fun p => o.members p.root)
  let s := fs.foldl (fun (s : State) f => s.modField f (fun x => { x with
    slots := if x.slots = some o.key then none else x.slots
    loader := if x.loader = some o.key then none else x.loader })) s
  ((fs.filterMap (fun f => (s.field f).loader)).eraseDups).foldl (fun (s : State) k => tryStart k s) s

/-- The last row offset of a group is sent; when every group has sent its last, the op's work is done, its fields fall free, and the conditions of this beat are evaluated in the
next (R256, R260). -/
def finishGroup (o : Op) (root : Nat) (s : State) : State :=
  let s := modOp o.key (Op.modPos root (fun p => { p with done := true, on := false, live := false })) s
  match opOf s o.key with
  | none => s
  | some o =>
    if o.pos.all (fun p => p.done) then freeGroup o (modOp o.key (fun o => { o with stage := 3, evalBeat := s.tim.beat + 1 }) s) else s

/-- The slot carries row offset `i` of the positions `work` of the group (R109 to R112): tree, accumulator, flags, pass counts, position. `s₀`: the state that
gave the samples. -/
def runSlot (o : Op) (p : GPos) (l : List Sample) (s₀ s : State) : State :=
  let fs := o.members p.root
  let (work, i) := o.slotWork (pairsFor s o fs) p
  let init := !o.isAdd && p.kStep == 0
  let row := o.accRow p i
  let cols := o.groupColumns s p.root
  let s := hide o.stream (accAddr p.root row) 4096 (touchRow p.root row s)
  let cells := (work.filterMap (fun pos => (o.token p.req i pos).map (fun j =>
    let g := o.rm.colours.getD pos 0
    let bad := fs.any (feedBad s o p j)
    cols.map (fun c => (((p.root * 2048 + row) * 1024 + 256 * g + c), treeSum s₀ o p l g c bad))))).flatten
  let s := cells.foldl (fun (s : State) x => accWrite init x.1 x.2 s) s
  let tiles := min (2 ^ o.shapeRun) (o.kTiles p.req - p.kStep * 2 ^ o.shapeRun)
  let s := if work.contains 0 then countPass p.root row tiles init s else s
  let past := decide (64 < tget 0 s.seq.passes (2048 * p.root + row))
  let (p', done) := o.advance work p
  let s := modOp o.key (fun o =>
    let o := o.flagIf (cells.any (fun x => x.2.O)) fOvr
    let o := o.flagIf (cells.any (fun x => x.2.T)) fTaint
    let o := o.flagIf (cells.any (fun x => x.2.P)) fPoison
    let o := o.flagIf past fBound
    o.modPos p.root (fun _ => p')) s
  if done then
    match o.nextPos p' with
    | some q => modOp o.key (Op.modPos p.root (fun _ => q)) s
    | none => finishGroup o p.root s
  else s

/-! ### Calibration slots (R170, R187) -/

/-- Field `f` has a calibration slot at `t`: in its reserved window, or from t = 48 ns in a beat in which no slice runs on it (R170). -/
def calSlot (s : State) (f t : Nat) : Bool :=
  (s.field f).lit && decide (480 ≤ t) && (((s.field f).window && decide (9904 ≤ t)) ||
    s.ops.all (fun o => o.pos.all (fun p => !(decide (p.beat = some s.tim.beat) && (o.members p.root).contains f))))

/-- A slot of field `f` at `t` without user symbols: calibration symbols in a calibration slot, else dark (R20, R39, R88, R109, R170). -/
def quietSlot (t : Nat) (s : State) (f : Nat) : State :=
  let c := if calSlot s f t then calFeed s f else ([], false)
  modulate f c.1 c.2 s

/-- The error of one output of a known-answer check in 2^−16 code products: the drained value acc × g in FP32, both scales 1, less the exact sum of code products (R187). -/
def kaError (s : State) (x : TreeIn) : Int :=
  let y := s.field x.f
  let g := (columnCal s x.f x.c x.g).2.1
  let v := match fpOf fp32 (fpMul fp32 (fpInt fp32 x.v) (fpRound fp32 (decide (g < 0)) g.natAbs 65536)) with
    | .fin neg m e => let d := dyadic m (e + 16); roundEven (if neg then -(d.1 : Int) else d.1) d.2
    | _ => 0
  let exact := (List.range 256).foldl (fun a r => a + (kaCode y.kaStage r x.c).toInt * ((calByte s x.f r x.g).getD 0).toInt) 0
  v - 65536 * exact

/-- The conditions that an output of a known-answer check carries (R188): OVR, TAINT, STALE_CAL, THERMAL_SLEW, LIGHT_LOW. -/
def kaFlags (s : State) (x : TreeIn) : BitVec 5 :=
  let n := portOfField x.f
  BitVec.ofNat 5 (b01 x.o + 2 * b01 x.t + 4 * b01 (bandStale s x.f (x.c / 32)) + 8 * b01 (decide (3276 < (s.field x.f).slew)) +
    16 * b01 (decide (2 ≤ (s.lcol (4 * n + x.g)).level) || (s.lport n).frozen))

/-- One output joins a record. -/
def KaSum.add (e : Int) (fl : BitVec 5) (k : KaSum) : KaSum :=
  { n := k.n + 1, sum := k.sum + e, sq := k.sq + e.natAbs * e.natAbs, mx := max k.mx e.natAbs, flags := k.flags ||| fl }

/-- A token of every colour of the check has passed field `f`; after 2,048 the next stage's codes are set (R187). -/
def kaToken (s₀ : State) (l : List TreeIn) (f : Nat) (s : State) : State :=
  let x₀ := s₀.field f
  let mine := l.filter (fun x => x.f == f && (calColours s₀ f).contains x.g)
  s.modField f (fun x => { x with
    kaSums := mine.foldl (fun t y =>
      let k := 4 * (y.c / 32) + y.g
      tset {} t k ((tget {} t k).add (kaError s₀ y) (kaFlags s₀ y))) x.kaSums
    kaTok := if x₀.kaTok = 2047 then 0 else x₀.kaTok + 1
    kaStage := if x₀.kaTok = 2047 then x₀.kaStage + 1 else x₀.kaStage
    kaAt := if x₀.kaTok = 2047 then nowNs s₀ x₀.slotT else x₀.kaAt })

/-- What a calibration slot of field `f` gives its procedures (R171, R176, R187): symbols for every band at the point of the band served; a run with a clipped or tainted
sample on a measured colour is marred. -/
def calCount (s₀ : State) (l : List TreeIn) (t : Nat) (s : State) (f : Nat) : State :=
  let k := (s₀.field f).slotLen
  let bad := fun (b : Nat) => l.any (fun x => x.f == f && x.c / 32 == b && (calColours s₀ f).contains x.g && (x.o || x.t))
  let each := fun (p : Nat → Bool) (add : Nat → Bool → Nat → State → State) (s : State) =>
    ((List.range 8).filter p).foldl (fun (s : State) b => add k (bad b) (8 * f + b) s) s
  if !calSlot s₀ f t then s
  else if (s₀.field f).kaOn then
    if (s₀.field f).kaStage < 9 ∧ filledAfter s₀ f (s₀.field f).kaAt = true then kaToken s₀ l f s else s
  else match servedBand s₀ f quickOpen with
  | some b => each (fun j => quickOpen s₀ (8 * f + j) && (s₀.band (8 * f + j)).qgPoint == (s₀.band (8 * f + b)).qgPoint) addQuick s
  | none =>
    match servedBand s₀ f runOpen with
    | some b => each (fun j => runOpen s₀ (8 * f + j) && (s₀.band (8 * f + j)).proc == (s₀.band (8 * f + b)).proc &&
        (s₀.band (8 * f + j)).point == (s₀.band (8 * f + b)).point) addSymbols s
    | none => s

/-! ### SYMBOL_SLOT -/

/-- The fields of the next symbol slot whose lowest is `f`, with the running op and its position: the group whose member 0 is `f`, or `f` alone while no op holds it; none
where `f` is another member of a group. -/
def slotGroup (s : State) (f : Nat) : Option (List Nat × Option (Op × GPos)) :=
  if 32 ≤ f then none
  else match (s.field f).slots.bind (opOf s) with
    | none => some ([f], none)
    | some o =>
      match o.posOf s f with
      | none => some ([f], none)
      | some p => if p.root = f then some (o.members f, some (o, p)) else none

/-- The slot at `t` of length `len` carries user symbols: a slice runs on its tile, inside its window, and no swap keeps a member dark (R18, R19, R39, R109). -/
def userSlot (s : State) (fs : List Nat) (p : GPos) (t len : Nat) : Bool :=
  p.on && p.live && decide (480 ≤ t ∧ t + len ≤ windowEnd s fs) && fs.all (fun f => decide ((s.field f).darkTo ≤ absT s t))

/-- The slot is over on every field of `fs`: symbol and sample indices and the field's time advance (R52, R96, R100). -/
def tickSlots (fs : List Nat) (s : State) : State :=
  fs.foldl (fun (s : State) f => s.modField f (fun x => { x with
    symIdx := x.symIdx + 1, smpIdx := x.smpIdx + x.slotLen, slotT := x.slotT + x.slotLen })) s

/-- SYMBOL_SLOT (R20, R88, R101 to R112, R170): the next symbol slot of the group whose member 0 is field `f`, or of the field alone when no op holds it; the slots of a
beat end with it. A slot that carries no user symbol, and a starved one, moves nothing of the op; it still opens taint windows and feeds the estimators. -/
def execSymbolSlot (f : Nat) (starved : Bool) (samples : List Sample) (s : State) : Host.Outcome State Fault Refusal :=
  .next (
    match slotGroup s f with
    | none => s
    | some (fs, run) =>
      let t := slotTime s fs
      let len := fs.foldl (fun m g => max m (s.field g).slotLen) 1
      if 10000 < t + len then s
      else
        let s := fs.foldl (advanceSlots t) s
        let user := run.filter (fun r => !starved && userSlot s fs r.2 t len)
        let s₀ := match user with
          | some (o, p) => feedSlot o p s
          | none => fs.foldl (quietSlot t) s
        let l := fs.flatMap (judgeField s₀ samples)
        let s := openTaints l (fs.foldl (noteField s₀ l) s₀)
        let s := match user with
          | some (o, p) => runSlot o p samples s₀ s
          | none => fs.foldl (calCount s₀ l t) s
        tickSlots fs s)

end Sys2Proof.Machine
end

