-- ==== Sys2Proof/Machine/Issue.lean ====
section
/-! DEFINITION. Issue: reading a stream's next descriptor, its validation, the resolution of a weight handle, and the copy of a spilled tensor
(R234, R236 to R240, R273, R290, R310, R322, R333, R364, R511). -/

namespace Sys2Proof.Machine

open Sys2Proof

/-! ### Reach and regions (R290, R310) -/

/-- The range meets a region with OPS_RO (R310). -/
def opsRo (s : State) (a n : Nat) : Bool := s.regions.any (fun r => r.2.set && r.2.opsRo && decide (a < r.2.base + r.2.len ∧ r.2.base < a + n))

/-- An op of partition `p` may not read the range. -/
def noRead (s : State) (p a n : Nat) : Bool := !reachRange s (.core p) false a n

/-- An op of partition `p` may not write the range, or it meets an OPS_RO region. -/
def noWrite (s : State) (p a n : Nat) : Bool := decide (0 < n) && (!reachRange s (.core p) true a n || opsRo s a n)

/-! ### Validation (R238) -/

/-- Bytes [i, j) of the descriptor are not all zero: a `rsvd` field at `i`. -/
def Op.rsvd (o : Op) (i j : Nat) : Nat × Bool := (i, o.dn i (j - i) != 0)

/-- Unlisted bytes [i, j): each is a `rsvd` field of its own. -/
def Op.unused (o : Op) (i j : Nat) : List (Nat × Bool) := (List.range (j - i)).map (fun n => (i + n, o.dn (i + n) 1 != 0))

/-- Address and length of the op's manifest list, in entries (R248). -/
def Op.mlist (o : Op) : Nat × Nat :=
  match o.code with
  | 0x01 => if 2 ≤ o.wsrc then (o.dn 48 6, o.dn 54 2) else (0, 0)
  | 0x10 => (o.dn 40 6, o.dn 46 2)
  | 0x33 => (o.dn 28 6, o.dn 34 2)
  | _ => (0, 0)

/-- Bytes of a drained element. -/
def Op.outBytes (o : Op) : Nat := if bit (o.dn 16 1) 0 then 4 else 2

/-- Fields that FIELD_MASK selects. -/
def selected (mask : Nat) : List Nat := maskList 32 mask

/-- A FIELD_MASK that selects a field outside the partition. -/
def outside (s : State) (p mask : Nat) : Bool := (selected mask).any (fun f => partOfField s f != p)

/-- The checks of the header (R236, R237): field offset and whether the field fails. -/
def headerChecks (o : Op) : List (Nat × Bool) :=
  let names := (decide (o.code = 0x01) && decide (2 ≤ o.wsrc)) || ((o.code == 0x10 || o.code == 0x33) && decide (0 < o.mlist.2))
  [ (0, !([0x01, 0x03, 0x04, 0x05, 0x10, 0x11, 0x20, 0x21, 0x30, 0x31, 0x32, 0x33, 0x3F].contains o.code)),
    (1, decide (8 ≤ o.dn 1 1) || (o.madv && !names)),
    (4, bits (o.dn 4 2) 12 3 != 0), (8, bits (o.dn 8 2) 12 3 != 0),
    (12, bits (o.dn 12 2) 12 3 != 0 || (o.code == 0x32 && !bit (o.dn 12 2) 15)), o.rsvd 14 16 ]

/-- `field.gemm` (R238, R239, R280). -/
def gemmChecks (s : State) (p : Nat) (o : Op) : List (Nat × Bool) :=
  let w := o.dn 16 2
  let e := o.qfmt.bytes
  let st := o.dn 56 4
  let lo := o.dn 48 6 + o.k0 * st + o.n0 * e
  let hi := o.dn 48 6 + (o.k0 + o.kLen - 1) * st + (o.n0 + o.nLen) * e
  let feed := o.dn 44 3
  let mc := o.dn 54 2
  [ (16, decide (32 / s.net.parts < 2 ^ bits w 0 3) || bits w 3 2 == 3 || bits w 11 5 != 0 || (o.wsrc == 0 && bit w 10)),
    (18, decide (2048 ≤ o.dn 18 2)), (20, o.dn 20 2 == 0 || decide (8192 < o.dn 20 2)), o.rsvd 22 24,
    (24, o.kLen == 0 || decide (1048576 < o.kLen)), (28, o.nLen == 0 || decide (65536 < o.nLen)),
    (32, o.wsrc != 0 && o.dn 32 4 != 0),
    (44, feed % 64 != 0 || decide (feed < 64) ||
      decide ((if o.wsrc = 0 then 0x1800000 else 0x17E0000) < feed + o.dn 20 2 * o.kStride)), o.rsvd 47 48,
    (48, (o.wsrc == 0 && o.dn 48 6 != 0) || (o.wsrc == 1 && noRead s p lo (hi - lo)) ||
      (decide (2 ≤ o.wsrc) && noRead s p (o.dn 48 6) (2 * mc))),
    (54, if 2 ≤ o.wsrc then mc == 0 || decide (8192 < mc) || o.dn 20 2 % mc != 0 else mc != 0),
    (56, o.wsrc == 0 && st != 0), o.rsvd 60 64 ]

/-- `acc.drain`. -/
def drainChecks (s : State) (p : Nat) (o : Op) : List (Nat × Bool) :=
  [ (16, decide (2 ≤ o.dn 16 1)), o.rsvd 17 18, (18, decide (2048 ≤ o.dn 18 2)),
    (20, o.dn 20 2 == 0 || decide (2048 < o.dn 18 2 + o.dn 20 2)), o.rsvd 22 24,
    (24, noWrite s p (o.dn 24 6) o.outBytes), o.rsvd 30 32, (32, o.dn 32 4 % o.outBytes != 0), (36, o.dn 36 3 % 8 != 0), o.rsvd 39 64 ]

/-- `acc.save` and `acc.restore` (R240). -/
def imageChecks (s : State) (p : Nat) (o : Op) (save : Bool) : List (Nat × Bool) :=
  let n := (selected (o.dn 24 4)).length
  let rows := o.dn 20 2
  let out := fun (a len : Nat) => if save then noWrite s p a len else noRead s p a len
  let ma := o.dn 40 6
  let mc := o.dn 46 2
  [ o.rsvd 16 18, (18, decide (2048 ≤ o.dn 18 2)), (20, rows == 0 || decide (2048 < o.dn 18 2 + rows)),
    (22, if save then o.dn 22 2 != 0 else decide (2048 ≤ o.dn 22 2) || decide (2048 < o.dn 22 2 + rows)),
    (24, outside s p (o.dn 24 4)), (28, out (o.dn 28 6) (n * rows * 4608)),
    (34, o.dn 34 6 != 0 && out (o.dn 34 6) (2 * n * rows)), (40, ma != 0 && out ma 128),
    (46, if save then mc != 0 else if ma = 0 then mc != 0 else mc == 0 || decide (64 < mc)), o.rsvd 48 64 ]

/-- `vec.kernel` (R272, R273). -/
def kernelChecks (s : State) (p : Nat) (o : Op) : List (Nat × Bool) :=
  let e := o.dn 16 6
  let home : Bool := match locOf s e with
    | .hbm _ _ => true
    | .ddr _ => true
    | _ => false
  [ (16, if e < 0x10000 then e != 2 else e % 256 != 0 || !home || noRead s p e 64) ] ++ o.unused 22 24 ++
  [ (24, outside s p (o.dn 24 4)), (28, o.dn 28 1 == 0 || decide (64 < o.dn 28 1)) ] ++ o.unused 29 32 ++
  [ (32, noRead s p (o.dn 32 6) (o.dn 38 2)), (38, decide (4096 < o.dn 38 2)),
    (40, (o.dn 40 6 == 0 && o.dn 46 2 != 0) || noRead s p (o.dn 40 6) (2 * o.dn 46 2)),
    (46, (o.dn 40 6 != 0 && o.dn 46 2 == 0) || decide (8192 < o.dn 46 2)) ] ++ o.unused 48 64

/-- `quant.scale` (R198, R239, R279). -/
def quantChecks (s : State) (p : Nat) (o : Op) : List (Nat × Bool) :=
  let e := (srcFmt (bit (o.dn 22 1) 0)).bytes
  let k := o.dn 32 4
  let m := o.dn 28 2
  let feed := o.dn 36 3
  let len := m * (256 * ((k + 255) / 256))
  [ (16, noRead s p (o.dn 16 6) ((m - 1) * o.dn 24 4 + k * e)), (22, decide (2 ≤ o.dn 22 1)) ] ++ o.unused 23 24 ++
  [ (28, m == 0 || decide (8192 < m)) ] ++ o.unused 30 32 ++
  [ (32, k == 0 || decide (1048576 < k)),
    (36, feed % 64 != 0 || decide (feed < 64) || decide (0x1800000 < feed + len) ||
      (selected (o.dn 40 4)).any (fun f => opsRo s (feedAddr f (feed - 8)) (8 + len))) ] ++ o.unused 39 40 ++
  [ (40, o.dn 40 4 == 0 || outside s p (o.dn 40 4)), (44, o.dn 44 6 % 128 != 0 || noWrite s p (o.dn 44 6) 128) ] ++ o.unused 50 64

/-- `move` and `move.reduce` (R246, R364). -/
def moveChecks (s : State) (p : Nat) (o : Op) (reduce : Bool) : List (Nat × Bool) :=
  let n := o.dn 32 4
  let other := bit (o.dn 36 2) 14
  let home : Bool := match locOf s (o.dn 24 6) with
    | .hbm _ _ => true
    | .ddr _ => true
    | _ => false
  [ (16, noRead s p (o.dn 16 6) n) ] ++ o.unused 22 24 ++
  [ (24, !other && (noWrite s p (o.dn 24 6) n || (reduce && !home))) ] ++ o.unused 30 32 ++
  [ (32, n == 0 || (reduce && n % (srcFmt (bit (o.dn 38 1) 0)).bytes != 0)), (36, bit (o.dn 36 2) 15),
    (38, if reduce then decide (2 ≤ o.dn 38 1) else o.dn 38 1 != 0) ] ++ o.unused 39 64

/-- `tollgate`. -/
def gateChecks (s : State) (p : Nat) (o : Op) : List (Nat × Bool) :=
  [ (24, decide (2 ≤ o.dn 24 1)) ] ++ o.unused 25 26 ++
  [ (26, decide (60000 < o.dn 26 2)), (28, noRead s p (o.dn 28 6) (2 * o.dn 34 2)) ] ++ o.unused 36 64

/-- The checks of the body, by opcode (R238). -/
def bodyChecks (s : State) (p : Nat) (o : Op) : List (Nat × Bool) :=
  match o.code with
  | 0x01 => gemmChecks s p o
  | 0x03 => drainChecks s p o
  | 0x04 => imageChecks s p o true
  | 0x05 => imageChecks s p o false
  | 0x10 => kernelChecks s p o
  | 0x11 => quantChecks s p o
  | 0x20 => moveChecks s p o false
  | 0x21 => moveChecks s p o true
  | 0x30 => [ (16, decide (4 ≤ o.dn 16 1)), (17, decide (32 ≤ o.dn 17 1) || (o.dn 16 1 != 0 && o.dn 17 1 != 0)) ] ++ o.unused 18 64
  | 0x32 => [ (16, o.dn 16 2 == 0 || decide (32767 < o.dn 16 2)) ] ++ o.unused 18 64
  | 0x33 => gateChecks s p o
  | _ => o.unused 16 64

/-- The byte offset of the first failing field, if one fails (R238). -/
def firstFailing (s : State) (o : Op) : Option Nat :=
  ((headerChecks o ++ bodyChecks s (o.part s) o).find? (fun x => x.2)).map Prod.fst

/-- The op asks for a feature beyond its unlicensed limit (R3): colour mode C4. -/
def unlicensedOp (s : State) (o : Op) : Bool := o.code == 0x01 && bits (o.dn 16 2) 3 2 == 2 && !licensed s 0

/-! ### Weight handles (R321, R322, R333) -/

/-- The directory index of a handle. -/
def handleIdx (h : Nat) : Nat := h % 65536

/-- The handle names a valid entry (R321, R322). -/
def handleValid (s : State) (h : Nat) : Bool :=
  decide (1 ≤ handleIdx h ∧ handleIdx h ≤ 16383) && (s.dirEntry (handleIdx h)).valid && decide ((s.dirEntry (handleIdx h)).gen = h / 65536)

/-- The copy that slot `a` holds is that of handle `h` at epoch `e` (R333). -/
def hotHolds (s : State) (a h e : Nat) : Bool := s.wts.hot.any (fun x => x.1 == a && x.2 == (h, e))

/-- WHANDLE of a `field.gemm`. -/
def Op.whandle (o : Op) : Nat := o.dn 32 4

/-- The resolution of a weight handle at issue (R322): failure, issue stall, or capture. -/
def resolveHandle (k : Nat) (s : State) : State :=
  match opOf s k with
  | none => s
  | some o =>
    let i := handleIdx o.whandle
    let d := s.dirEntry i
    if !handleValid s o.whandle || d.part != o.part s then retire k true 2 32 s
    else if d.swap = 3 then modOp k (fun o => { o with stage := 0 }) s
    else
      let s := s.setDirEntry i { d with holders := d.holders + 1 }
      modOp k (fun o => { o with
        stage := 1, holds := some i, ptr := if d.spilled then d.hotStage else d.ptr, scalePtr := d.scalePtr, epoch := d.epoch
        zeroCol := d.zeroCol, tk := d.k, tn := d.n, spillSrc := if d.spilled then d.ptr else 0
        copying := d.spilled && !hotHolds s d.hotStage o.whandle d.epoch }) s

/-! ### Issue (R234) -/

/-- The op that the stream's next descriptor makes, as it stands in memory. -/
def nextOp (st : Nat) (u : Submission) (s : State) : Op :=
  { key := s.seq.nextKey, stream := st, sub := u.id, index := u.next, mb := u.mb, cpl := u.cplBase + 16 * u.next
    desc := rdBytes s (u.addr + 64 * u.next) 64, stage := 1 }

/-- The first descriptor from `n` on that no abort has taken. -/
def Submission.after (u : Submission) (n : Nat) : Nat := n + ((List.range (u.count - n)).takeWhile (fun i => u.skip.contains (n + i))).length

/-- The op takes its place in the issue window. -/
def takeNext (st : Nat) (u : Submission) (s : State) : State :=
  let s := { s with ops := s.ops ++ [nextOp st u s], seq := { s.seq with nextKey := s.seq.nextKey + 1 } }
  s.modStream st (fun x => { x with subs := x.subs.map (fun v => if v.id = u.id then { v with next := v.after (v.next + 1) } else v) })

/-- Validation and handle resolution of the op just read (R238, R322, R511); `bad` is the offset of the first poisoned word. -/
def checkIssued (k : Nat) (bad : Option Nat) (s : State) : State :=
  match opOf s k with
  | none => s
  | some o =>
    match bad with
    | some i => retire k true 2 i (modOp k (Op.flag fPoison) s)
    | none =>
      match firstFailing s o with
      | some i => retire k true 2 i s
      | none =>
        if unlicensedOp s o then retire k true 3 0 s
        else if o.code = 0x01 ∧ o.wsrc = 0 then resolveHandle k s
        else s

/-- Issued, unretired ops of a stream. -/
def streamOps (s : State) (st : Nat) : List Op := s.ops.filter (fun o => o.stream == st)

/-- A stream that may issue its next descriptor: room in the window, no unretired fence, no issue stall (R234, R244). -/
def mayIssue (s : State) (st : Nat) : Bool :=
  let l := streamOps s st
  !s.flt.deviceError && !resetting s (partOfStream s st) && decide (l.length < 32) &&
  l.all (fun o => o.stage != 0 && o.code != 0x30)

/-- DESCRIPTOR_ISSUE (R234): an issue stall is tried again; otherwise the stream's next descriptor is read, validated and issued, once its unit serves the read
(R306). -/
def execDescriptorIssue (st : Nat) (s : State) : Host.Outcome State Fault Refusal :=
  .next (
    match (streamOps s st).find? (fun o => o.stage == 0) with
    | some o => if s.flt.deviceError then s else resolveHandle o.key s
    | none =>
      if mayIssue s st then
        match (s.stream st).subs.find? (fun u => decide (u.next < u.count)) with
        | none => s
        | some u =>
          let a := u.addr + 64 * u.next
          if held s a 64 then s
          else
            let s := touch a 64 s
            let k := s.seq.nextKey
            let bad := ((wordsOf a 64).find? (wordBad s)).map (fun w => 8 * w - a)
            checkIssued k bad (takeNext st u s)
      else s)

/-! ### Copies of spilled tensors (R333) -/

/-- An unretired op uses another copy in slot `a` than that of handle `h` at epoch `e`. -/
def hotUsed (s : State) (a h e : Nat) : Bool :=
  s.ops.any (fun o => o.code == 0x01 && o.holds.isSome && o.spillSrc != 0 && o.ptr == a && !o.copying && !(o.whandle == h && o.epoch == e))

/-- Bytes with their poison are copied from `src` to `dst` (R292); a read of an unmapped place is poisoned. -/
def copyBytes (src dst n : Nat) (s : State) : State :=
  let s := touch src n s
  let l := rdBytes s src n
  let badSrc := (wordsOf src n).filter (wordBad s)
  let bad := fun (w : Nat) => badSrc.any (fun v => decide (max (8 * v) src + dst < 8 * w + 8 + src ∧ 8 * w + src < min (8 * v + 8) (src + n) + dst))
  wrBytes dst l bad s

/-- A copy that the host sees at once (R245): the steward's, or a controller's. -/
def copyShown (src dst n : Nat) (s : State) : State := showNow dst n (copyBytes src dst n s)

/-- The copy of handle `h` at epoch `e` stands in slot `a`: ops that waited for it may be admitted. -/
def hotReady (a h e : Nat) (s : State) : State :=
  { s with
    wts := { s.wts with hot := tins a (h, e) (tdel s.wts.hot a), hotBusy := tdel s.wts.hotBusy a }
    ops := s.ops.map (fun o => if o.copying = true ∧ o.ptr = a ∧ o.whandle = h ∧ o.epoch = e then { o with copying := false } else o) }

/-- SPILL_COPY_DONE (R333): the copy into slot `a` ends: that of a `model.prefetch`, else that of the first op that waits for it once no
unretired op uses another copy there. A copy goes on while a unit holds its requests (R306). -/
def execSpillCopyDone (a : Nat) (s : State) : Host.Outcome State Fault Refusal :=
  .next (
    match s.wts.hotBusy.find? (fun x => x.1 == a) with
    | some (_, h, e, src) =>
      let d := s.dirEntry (handleIdx h)
      if heldAny s [(src, codeBytes d.k d.n), (a, codeBytes d.k d.n)] then s else hotReady a h e (copyShown src a (codeBytes d.k d.n) s)
    | none =>
      match s.ops.find? (fun o => o.copying && o.ptr == a) with
      | some o =>
        if hotUsed s a o.whandle o.epoch || heldAny s [(o.spillSrc, codeBytes o.tk o.tn), (a, codeBytes o.tk o.tn)] then s
        else hotReady a o.whandle o.epoch (copyShown o.spillSrc a (codeBytes o.tk o.tn) s)
      | none => s)

end Sys2Proof.Machine
end

