-- ==== Sys2Proof/Machine/Units.lean ====
section
/-! DEFINITION. The units that ops ask for, and the order in which ops are served: waits (R241, R247), the shape, row map and fields of a `field.gemm` (R56 to R59,
R252, R253, R256, R257), clusters of a drain (R282), cores of a launch (R274), quantisers (R279), priority and rotation (R235). -/

namespace Sys2Proof.Machine

open Sys2Proof

/-! ### Waits -/

/-- A wait on a token: met when (count − target) mod 2^16 < 2^15 (R241). -/
def waitMet (s : State) (p : Nat) (w : Nat × Nat) : Bool :=
  decide (((s.token (4096 * p + w.1)).count - BitVec.ofNat 16 w.2).toNat < 32768)

/-- Every enabled wait of the op is met. -/
def waitsMet (s : State) (o : Op) : Bool := o.waits.all (waitMet s (o.part s))

/-- A waited token carries ABORT and the op does not ignore it (R247). -/
def upstream (s : State) (o : Op) : Bool :=
  !o.noPropagate && o.waits.any (fun w => (s.token (4096 * o.part s + w.1)).abort)

/-- The sequencer admits ops, and the partition is not being reset (R343, R427, R468). -/
def admitting (s : State) (p : Nat) : Bool := s.tim.admits && !s.flt.deviceError && !resetting s p

/-! ### The shape of a `field.gemm` (R56 to R59, R252) -/

/-- Columns per step of shape `sh`: 32 for each usable band of a complete group (R252). -/
def columnsPer (s : State) (p sh : Nat) : Nat :=
  32 * ((List.range (groupCount s sh)).map (fun g => popcount 8 (usableMask s p sh g).toNat)).sum

/-- The shape code run (R59): the requested one, lowered until a complete group exists. -/
def shapeRunOf (s : State) (p : Nat) : Nat → Nat
  | 0 => 0
  | sh + 1 => if (List.range (groupCount s (sh + 1))).any (groupComplete s p (sh + 1)) then sh + 1 else shapeRunOf s p sh

/-- The colour mode that runs and its colours: C4 runs as C2 while C4 is unavailable (R47, R254). -/
def modeRun (s : State) (colour : Nat) : Option (Nat × List Nat) :=
  match colourSet s colour with
  | some l => some (colour, l)
  | none => if colour = 2 then (colourSet s 1).map (fun l => (1, l)) else none

/-- The row map that an initialise `field.gemm` would record, with shape run `sh` (R252); its scales come later. -/
def mapFor (s : State) (o : Op) (sh mode : Nat) (cols : List Nat) : RowMap :=
  let p := o.part s
  let c := columnsPer s p sh
  let n := groupCount s sh
  let q := (o.nLen + c - 1) / c
  let mc := if 2 ≤ o.wsrc then o.dn 54 2 else 0
  let r := rowsPer (o.dn 20 2) mc mode
  { part := p, firstRow := o.dn 18 2, rows := q * max 1 mc * r, colour := bits (o.dn 16 2) 3 2, headroom := bits (o.dn 16 2) 5 2
    shape := bits (o.dn 16 2) 0 3, shapeRun := sh, wsrc := o.wsrc, m := o.dn 20 2, mcount := mc, n := o.nLen, n0 := o.n0
    whandle := o.whandle, epoch := o.epoch, q := q, r := r, cStep := c
    rootMask := BitVec.ofNat 32 (listMask 32 (((List.range n).filter (groupComplete s p sh)).map (fun g => firstField s p + g * 2 ^ sh)))
    scalePtr := if o.wsrc = 0 then o.scalePtr else 0
    bands := (List.range n).map (fun g => usableMask s p sh g)
    c1col := if mode = 0 then cols.getD 0 0 else 0, c2sub := mode = 1 && cols.getD 0 0 == 1, mode := mode, tensorN := if o.wsrc = 0 then o.tn else o.nLen }

/-- The groups of a row map that carry columns: those with a usable band, by member 0. -/
def RowMap.roots (s : State) (m : RowMap) : List Nat :=
  ((List.range m.bands.length).filter (fun g => m.bands.getD g 0 != 0)).map (fun g => firstField s m.part + g * 2 ^ m.shapeRun)

/-! ### Row maps of adds (R253) -/

/-- Rows that the add op would cover in the layout of map `m`. -/
def addRows (s : State) (o : Op) (m : RowMap) : Nat :=
  let mc := if 2 ≤ o.wsrc then o.dn 54 2 else 0
  let col := bits (o.dn 16 2) 3 2
  let mode := if col = m.colour then m.mode else ((modeRun s col).map Prod.fst).getD col
  (o.nLen + m.cStep - 1) / max 1 m.cStep * max 1 mc * rowsPer (o.dn 20 2) mc mode

/-- The row map that the add op's rows cover exactly. -/
def addMap (s : State) (o : Op) : Option RowMap :=
  s.rowMaps.find? (fun m => m.part == o.part s && m.firstRow == o.dn 18 2 && m.rows == addRows s o m)

/-! ### Fields of the op (R256, R257) -/

/-- The loaders of field `f` may pass to another op: free, or their op's last tile is live on the field (R257). -/
def loaderFree (s : State) (f : Nat) : Bool :=
  match (s.field f).loader.bind (opOf s) with
  | none => true
  | some o =>
    match o.posOf s f with
    | none => true
    | some p => p.done || (p.live && (o.nextPos p).isNone)

/-- Another admitted `field.gemm` already waits for field `f`. -/
def fieldAwaited (s : State) (k f : Nat) : Bool :=
  s.ops.any (fun o => o.key != k && o.code == 0x01 && o.stage == 2 &&
    (match o.posOf s f with
     | some p => !p.done && (s.field f).slots != some o.key
     | none => false))

/-- Every field of the groups may be given to the op. -/
def fieldsReady (s : State) (k : Nat) (fs : List Nat) : Bool := fs.all (fun f => loaderFree s f && !fieldAwaited s k f)

/-- Fields of the groups whose members 0 are `roots`. -/
def groupsOf (sh : Nat) (roots : List Nat) : List Nat := (roots.map (fun r => (List.range (2 ^ sh)).map (fun m => r + m))).flatten

/-! ### Clusters (R282) -/

/-- A core is healthy: its image is verified, it is not fenced (R421, R459), and no disable keeps new work from it (R465). -/
def coreHealthy (s : State) (c : Nat) : Bool :=
  (s.coreOf c).verified && (s.coreOf c).state != 3 && !s.flt.disabling.any (fun d => d.1 == 3 && d.2.1 == c / 64 && d.2.2.1 == c % 64)

/-- Cluster `k` of field `f` runs a drain. -/
def draining (s : State) (f k : Nat) : Bool := (s.field f).drain.getLsbD k

/-- A core runs no launch and no drain (R274). -/
def coreFree (s : State) (c : Nat) : Bool := (s.coreOf c).launch.isNone && !draining s (c / 64) (c % 64 / 16)

/-- The sixteen cores of cluster `k` of field `f`. -/
def clusterCores (f k : Nat) : List Nat := (List.range 16).map (fun i => 64 * f + 16 * k + i)

/-- Healthy cores of a cluster. -/
def clusterHealth (s : State) (x : Nat × Nat) : Nat := ((clusterCores x.1 x.2).filter (coreHealthy s)).length

/-- A free cluster with a healthy core. -/
def clusterOk (s : State) (taken : List (Nat × Nat)) (x : Nat × Nat) : Bool :=
  !taken.contains x && (clusterCores x.1 x.2).all (coreFree s) && decide (0 < clusterHealth s x)

/-- The cluster with the most healthy cores among the free ones of `fs`; a tie goes to the lowest field number, then cluster. -/
def bestCluster (s : State) (taken : List (Nat × Nat)) (fs : List Nat) : Option (Nat × Nat) :=
  ((fs.map (fun f => (List.range 4).map (fun k => (f, k)))).flatten.filter (clusterOk s taken)).foldl (fun (b : Option (Nat × Nat)) x =>
    match b with
    | none => some x
    | some y => if clusterHealth s y < clusterHealth s x then some x else b) none

/-- The field has a core that is not fenced. -/
def fieldHasCores (s : State) (f : Nat) : Bool := (coresOf f).any (fun c => (s.coreOf c).state != 3)

/-- No core of the partition is healthy (R282). -/
def noCores (s : State) (p : Nat) : Bool := (fieldsOfPart s p).all (fun f => !(coresOf f).any (coreHealthy s))

/-- The cluster for root field `f` of a drain (R282). -/
def clusterFor (s : State) (p : Nat) (taken : List (Nat × Nat)) (f : Nat) : Option (Nat × Nat) :=
  if fieldHasCores s f then bestCluster s taken [f]
  else
    let others := (fieldsOfPart s p).filter (fun g => g != f)
    match bestCluster s taken (others.filter (fun g => g / 8 == f / 8)) with
    | some x => some x
    | none => bestCluster s taken others

/-- The clusters of a drain's root fields in ascending field number; none while one finds no cluster. -/
def clustersFor (s : State) (p : Nat) (roots : List Nat) : Option (List (Nat × Nat × Nat)) :=
  roots.foldl (fun acc f =>
    match acc with
    | none => none
    | some l => (clusterFor s p (l.map (fun x => x.2)) f).map (fun x => l ++ [(f, x)])) (some [])

/-! ### What a drain reads and writes -/

/-- Groups of a map that hold columns of its op, by member 0 (R252, R282). -/
def RowMap.usedRoots (s : State) (m : RowMap) : List Nat :=
  ((m.usedBands.map Prod.fst).eraseDups).map (fun g => firstField s m.part + g * 2 ^ m.shapeRun)

/-- One token on one band of one row: 32 or fewer outputs side by side. -/
structure Seg where
  m : RowMap
  root : Nat
  row : Nat
  g : Nat
  j : Nat
  c0 : Nat
  n0 : Nat
  cnt : Nat
  deriving DecidableEq, Repr

/-- Token of colour position `pos` in row `row` of the map (R251, R255). -/
def RowMap.tokenAt (m : RowMap) (row pos : Nat) : Option Nat :=
  let x := row - m.firstRow
  let per := m.m / max 1 m.mcount
  let i := x % max 1 m.r
  let n := posCount m.mode
  if n * i + pos < per then some (x / max 1 m.r % max 1 m.mcount * per + n * i + pos) else none

/-- The segments of row `row` of the map (R251, R252). -/
def RowMap.segs (s : State) (m : RowMap) (row : Nat) : List Seg :=
  let q := (row - m.firstRow) / (max 1 m.r * max 1 m.mcount)
  (((List.range m.bandList.length).map (fun i =>
    let gb := m.bandList.getD i (0, 0)
    let n0 := q * m.cStep + 32 * i
    if n0 < m.n then
      (List.range (posCount m.mode)).filterMap (fun pos => (m.tokenAt row pos).map (fun j =>
        { m := m, root := firstField s m.part + gb.1 * 2 ^ m.shapeRun, row := row, g := m.colours.getD pos 0, j := j
          c0 := 32 * gb.2, n0 := n0, cnt := min 32 (m.n - n0) : Seg }))
    else [])).flatten)

/-- The map of row `row` among `maps`. -/
def mapOf (maps : List RowMap) (row : Nat) : Option RowMap := maps.find? (fun m => decide (m.firstRow ≤ row ∧ row < m.firstRow + m.rows))

/-- Rows ACC_ROW to ACC_ROW + ROWS − 1. -/
def Op.rowRange (o : Op) : List Nat := (List.range (o.dn 20 2)).map (fun i => o.dn 18 2 + i)

/-- The segments of a drain. -/
def Op.segs (s : State) (o : Op) (maps : List RowMap) : List Seg :=
  (o.rowRange.map (fun row => match mapOf maps row with
    | some m => m.segs s row
    | none => [])).flatten

/-! ### Cores of a launch (R274) -/

/-- Healthy free cores of a field, in rising number. -/
def freeCores (s : State) (f : Nat) : List Nat := (coresOf f).filter (fun c => coreHealthy s c && coreFree s c)

/-- The launch finds its cores: CORES free ones in each field, or all its healthy ones if it has fewer (R274). -/
def canLaunch (s : State) (o : Op) : Bool :=
  (selected (o.dn 24 4)).all (fun f =>
    decide (min (o.dn 28 1) ((coresOf f).filter (coreHealthy s)).length ≤ (freeCores s f).length))

/-- The cores of the launch, in rank order. -/
def launchCores (s : State) (o : Op) : List Nat := ((selected (o.dn 24 4)).map (fun f => (freeCores s f).take (o.dn 28 1))).flatten

/-! ### The order of service (R235) -/

/-- The units that opcode `code` asks for: 1 fields, 2 cores, 3 quantisers, 0 none. -/
def unitClass (code : Nat) : Nat :=
  match code with
  | 0x01 => 1
  | 0x03 => 2
  | 0x10 => 2
  | 0x11 => 3
  | _ => 0

/-- The roots and shape of the groups that a `field.gemm` would run on now; none when it would not run. -/
def gemmFields (s : State) (o : Op) : Option (List Nat) :=
  if o.isAdd then (addMap s o).map (fun m => groupsOf m.shapeRun (m.roots s))
  else (modeRun s (bits (o.dn 16 2) 3 2)).map (fun x =>
    let m := mapFor s o (shapeRunOf s (o.part s) (bits (o.dn 16 2) 0 3)) x.1 x.2
    groupsOf m.shapeRun (m.roots s))

/-- The root fields whose rows a drain reads under `maps`, rising (R282). -/
def drainRoots (s : State) (o : Op) (maps : List RowMap) : List Nat :=
  let l := (o.segs s maps).map (fun x => x.root)
  (List.range 32).filter (fun f => l.contains f)

/-- The units that the op needs are free for it. -/
def unitsFree (s : State) (o : Op) : Bool :=
  match o.code with
  | 0x01 => ((gemmFields s o).map (fieldsReady s o.key)).getD false
  | 0x03 => (clustersFor s (o.part s) (drainRoots s o (mapsOver s (o.part s) (o.dn 18 2) (o.dn 20 2)))).isSome
  | 0x10 => canLaunch s o
  | 0x11 => (s.field ((selected (o.dn 40 4)).headD 0)).quantBusy == 0
  | _ => true

/-- The op waits only for the sequencer to offer it units (R234). -/
def admissible (s : State) (o : Op) : Bool :=
  o.stage == 1 && !o.copying && o.abortAt.isNone && admitting s (o.part s) && waitsMet s o && !upstream s o

/-- Streams from the one after the stream last served at this priority to `x`, in rising number with wrap (R235). -/
def rotation (s : State) (prio x : Nat) : Nat := (x + 127 - tget 63 s.seq.rrLast prio) % 64

/-- Op `a` is offered free units before op `b`: a higher priority, or the same and earlier in the rotation (R235). -/
def servedBefore (s : State) (a b : Op) : Bool :=
  let p := (s.stream a.stream).prio
  let q := (s.stream b.stream).prio
  decide (p < q) || (p == q && decide (rotation s p a.stream < rotation s q b.stream))

/-- No other admissible op of the partition that asks for units of the same kind, and finds them free, is to be served before `o` (R235). -/
def servedFirst (s : State) (o : Op) : Bool :=
  unitClass o.code == 0 || s.ops.all (fun q =>
    !(q.key != o.key && unitClass q.code == unitClass o.code && q.part s == o.part s && admissible s q && servedBefore s q o && unitsFree s q))

end Sys2Proof.Machine
end

