-- ==== Sys2Proof/Machine/Admit.lean ====
section
/-! DEFINITION. Admission: manifest entries (R249, R250), the step every op takes (R234, R235, R241, R247), and the admission of a `field.gemm` (R47, R58, R59,
R202, R203, R224, R239, R252 to R255, R257, R280). -/

namespace Sys2Proof.Machine

open Sys2Proof

/-! ### Manifest entries -/

/-- The entry indices of the op's manifest list, in list order. -/
def listOf (s : State) (o : Op) : List Nat := (List.range o.mlist.2).map (fun r => rdNat s (o.mlist.1 + 2 * r) 2)

/-- Steward-SRAM address of manifest entry `i` (R248, R288). -/
def entryAddr (i : Nat) : Nat := 0x7F0060C00000 + 64 * i

/-- A word of the list or of a named entry is poisoned (R250, R511). -/
def listBad (s : State) (o : Op) : Bool :=
  anyBad s o.mlist.1 (2 * o.mlist.2) || (listOf s o).any (fun i => anyBad s (entryAddr i) 64)

/-- The op's entries fail R250: outside the partition's share, DONE or not VALID, poisoned, or beyond LIMIT for a MADV op. -/
def manifestBad (s : State) (o : Op) : Bool :=
  listBad s o || (listOf s o).any (fun i =>
    let e := s.entry i
    decide (manifestSize s ≤ i) || partOfEntry s i != o.part s || !e.valid || e.state == 3 ||
    (o.madv && decide (e.limit < e.length + e.madvPend + 1)))

/-- A named entry is HELD (R250); a poisoned list names none. -/
def anyHeld (s : State) (o : Op) : Bool := !anyBad s o.mlist.1 (2 * o.mlist.2) && (listOf s o).any (fun i => (s.entry i).state == 2)

/-- What the op captures of an entry (R234). -/
def captOf (s : State) (i : Nat) : Capt :=
  let e := s.entry i
  { entry := i, kptr := e.kptr, vptr := e.vptr, stride := e.stride, len := e.length, epoch := e.epoch }

/-- The admission of an op that names entries (R249): INFLIGHT rises, an OPEN entry runs. -/
def nameEntries (k : Nat) (o : Op) (s : State) : State :=
  let l := listOf s o
  let u := l.eraseDups
  let caps := l.map (captOf s)
  let s := modOp k (fun o => { o with entries := caps, named := u }) s
  u.foldl (fun (s : State) i => s.modEntry i (fun e => { e with
    inflight := e.inflight + 1, state := if e.state = 0 then 1 else e.state
    madvPend := if o.madv then e.madvPend + 1 else e.madvPend })) s

/-- The op is recorded as admitted (R234). -/
def setAdmitted (k : Nat) (s : State) : State :=
  let s := modOp k (fun o => { o with stage := 2, admBeat := some s.tim.beat }) s
  match opOf s k with
  | some o => { s with seq := { s.seq with rrLast := tins (s.stream o.stream).prio o.stream (tdel s.seq.rrLast (s.stream o.stream).prio) } }
  | none => s

/-- The admission of op `k` with opcode `code`: waits, ABORT, its turn, and manifest entries, of which a HELD one, or a list that a unit holds back, makes it wait; then `body` (R234, R235, R241,
R247, R250, R306). `body` runs before the op is recorded as admitted; it may retire the op, leave it waiting, or admit it. -/
def admitOp (k code : Nat) (body : Op → State → State) (s : State) : State :=
  match opOf s k with
  | none => s
  | some o =>
    if o.code = code ∧ o.stage = 1 ∧ o.copying = false ∧ o.abortAt = none ∧ admitting s (o.part s) = true ∧ waitsMet s o = true then
      if upstream s o then retire k true 4 0 s
      else if !servedFirst s o then s
      else if o.mlist.2 = 0 then body o s
      else if held s o.mlist.1 (2 * o.mlist.2) then s
      else
        let s := touch o.mlist.1 (2 * o.mlist.2) s
        if anyHeld s o then s
        else if manifestBad s o then retire k true 7 0 (modOp k (Op.flagIf (listBad s o) fPoison) s)
        else body o s
    else s

/-- DETAIL of an add that differs from its map (R253); none when all fields agree. -/
def addDiffers (o : Op) (m : RowMap) : Option Nat :=
  let w := o.dn 16 2
  if bits w 3 2 ≠ m.colour ∨ bits w 5 2 ≠ m.headroom ∨ bits w 0 3 ≠ m.shape ∨ o.wsrc ≠ m.wsrc then some 16
  else if o.dn 20 2 ≠ m.m then some 20
  else if o.nLen ≠ m.n then some 28
  else if o.whandle ≠ m.whandle then some 32
  else if o.n0 ≠ m.n0 then some 40
  else none

/-! ### Held scales and flags (R202, R203, R239, R280) -/

/-- The source addresses of an operand quantised at load, as ranges: one per column. -/
def Op.sources (o : Op) : List (Nat × Nat) :=
  if o.wsrc = 0 then []
  else ((List.range o.requests).map (fun r => ((List.range (o.nOf r)).map (fun n =>
    (List.range (o.kOf r)).map (fun k => (o.srcAddr r k n, o.qfmt.bytes)))).flatten)).flatten

/-- The scale of output column `n` of request `r` (R203); 1.0 beyond the request's columns. -/
def Op.colScale (s : State) (o : Op) (r n : Nat) : ScaleOf :=
  if o.nOf r ≤ n then { s := fp32One, sat := false, zero := false }
  else scaleOf fp32One (rangeOf (((o.column s r n).filter (fun x => !x.2)).map Prod.fst))

/-- The scales that an initialise op measures, request by request (R280). -/
def Op.measure (s : State) (o : Op) : List ScaleOf :=
  if o.wsrc = 0 then [] else ((List.range o.requests).map (fun r => (List.range o.nLen).map (fun n => o.colScale s r n))).flatten

/-- A column of the operand quantised at load holds an element that gives no data, or one that is not finite (R193, R281). -/
def Op.loadBad (s : State) (o : Op) : Bool :=
  o.wsrc != 0 && (List.range o.requests).any (fun r => (List.range (o.nOf r)).any (fun n =>
    (o.column s r n).any (fun x => x.2 || !fpFinite fp32 x.1)))

/-- An element of an add op saturates under the held scales (R203). -/
def Op.loadSat (s : State) (o : Op) (m : RowMap) : Bool :=
  o.wsrc != 0 && (List.range o.requests).any (fun r => (List.range (o.nOf r)).any (fun n =>
    (o.column s r n).any (fun x => !x.2 && fpFinite fp32 x.1 && (quantise x.1 (m.scales.getD (o.scaleIdx r n) 0).toNat).2)))

/-- A request whose position range is empty (R255). -/
def Op.emptyReq (o : Op) (r : Nat) : Bool := o.kTiles r == 0

/-- Flags that the op takes from its scales and from the feed scale words of its fields (R202, R239, R511). -/
def Op.loadFlags (s : State) (fs : List Nat) (add : Bool) (m : RowMap) (o : Op) : Op :=
  let fa := fun (f : Nat) => feedAddr f (o.dn 44 3 - 8)
  let words := fs.map (fun f => (rdNat s (fa f) 8, anyBad s (fa f) 8))
  let ok := words.filter (fun w => !w.2)
  let o := o.flagIf (ok.any (fun w => bit w.1 32) || (add && o.loadSat s m)) fSat
  let o := o.flagIf (ok.any (fun w => bit w.1 33) || o.zeroCol || m.zeroCol || (List.range o.requests).any o.emptyReq) fZero
  o.flagIf (words.any (fun w => w.2) || o.loadBad s) fPoison

/-- Ranges that a captured pointer names and that lie outside the op's reach: MEM_UNMAPPED with the first address outside, and POISON (R290). -/
def runtimeReach (k : Nat) (l : List (Nat × Nat)) (s : State) : State :=
  match opOf s k with
  | none => s
  | some o =>
    (l.filterMap (fun r => outsideReach s (.core (o.part s)) false r.1 r.2)).foldl (fun (s : State) a =>
      post 0x0112 (leBytes 6 a) (modOp k (Op.flag fPoison) s)) s

/-- The ranges that the op reads through pointers captured from an entry: a stored tensor's codes tile row by tile row, keys column by column, values row by row
(R239, R255). -/
def Op.runtimeRanges (o : Op) : List (Nat × Nat) :=
  let e := o.qfmt.bytes
  match o.wsrc with
  | 0 =>
    let k1 := min o.tk (o.k0 + o.kLen)
    let n1 := min o.tn (o.n0 + o.nLen)
    (List.range (k1 - o.k0)).flatMap (fun k => (List.range ((n1 + 255) / 256 - o.n0 / 256)).map (fun j =>
      let n := max o.n0 (256 * (o.n0 / 256 + j))
      (codeAddr o.ptr o.tk (o.k0 + k) n, min n1 (256 * (n / 256 + 1)) - n)))
  | 1 => []
  | 2 => (List.range o.requests).flatMap (fun r => (List.range (o.nOf r)).map (fun n => (o.srcAddr r 0 n, o.kOf r * e)))
  | _ => (List.range o.requests).flatMap (fun r => (List.range (o.kOf r)).map (fun k => (o.srcAddr r k 0, o.nOf r * e)))

/-- The operand that the op quantises at load waits at a unit (R306): the source range of the descriptor, or the ranges of the entries that it names. -/
def Op.loadHeld (s : State) (o : Op) (m : RowMap) : Bool :=
  let st := o.dn 56 4
  let e := o.qfmt.bytes
  heldAny s (match o.wsrc with
    | 0 => []
    | 1 => [(o.dn 48 6 + o.k0 * st + o.n0 * e, (o.kLen - 1) * st + o.nLen * e)]
    | _ => Op.runtimeRanges { o with entries := (listOf s o).map (captOf s), map := some m })

/-! ### Starting the op -/

/-- Zeros in the rows of an initialise op's empty requests (R255), with a pass count of 0. -/
def zeroRequest (o : Op) (m : RowMap) (roots : List Nat) (r : Nat) (s : State) : State :=
  let rows := (List.range m.q).map (fun q => (List.range m.r).map (fun i => m.firstRow + (q * max 1 m.mcount + r) * m.r + i))
  (rows.flatten).foldl (fun (s : State) row =>
    roots.foldl (fun (s : State) root =>
      let cols := (List.range 256).filter (fun c => (o.groupBands s root).getLsbD (c / 32))
      let s := hide o.stream (accAddr root row) 4096 s
      let s := cols.foldl (fun (s : State) c => m.colours.foldl (fun (s : State) g => s.setAccCell ((root * 2048 + row) * 1024 + 256 * g + c) {}) s) s
      countPass root row 0 true s) s) s

/-- The op begins: its position on every group, the loaders it may take at once, and its first slices (R256, R257). -/
def startGemm (k : Nat) (m : RowMap) (roots : List Nat) (init : Bool) (s : State) : State :=
  match opOf s k with
  | none => s
  | some o =>
    let first := (List.range o.requests).find? (fun r => 0 < o.kSteps r)
    let s := if init then ((List.range o.requests).filter o.emptyReq).foldl (fun s r => zeroRequest o m roots r s) s else s
    match first with
    | none => modOp k (fun o => { o with stage := 3, evalBeat := s.tim.beat }) s
    | some r =>
      let s := modOp k (fun o => { o with pos := roots.map (fun root => { root := root, req := r }) }) s
      let s := (groupsOf m.shapeRun roots).foldl (fun (s : State) f =>
        if (s.field f).loader = none then s.modField f (fun x => { x with loader := some k, bufFull := false }) else s) s
      tryStart k s

/-- The op is admitted with row map `m`; its flags and scales are taken (R202, R239, R252, R280). -/
def takeGemm (k : Nat) (m : RowMap) (add : Bool) (o : Op) (s : State) : State :=
  let roots := m.roots s
  let fs := groupsOf m.shapeRun roots
  let s := nameEntries k o (setAdmitted k s)
  let s := modOp k (fun o => { o with map := some m, shapeRun := m.shapeRun }) s
  match opOf s k with
  | none => s
  | some o =>
    let s := touchAll (o.sources ++ fs.map (fun f => (feedAddr f (o.dn 44 3 - 8), 8))) s
    let sc := if add then [] else o.measure s
    let m := if add then m else { m with scales := sc.map (fun x => BitVec.ofNat 32 x.s), zeroCol := sc.any (fun x => x.zero) }
    let s := if add then s else { dropMaps m.part m.firstRow m.rows s with rowMaps := (dropMaps m.part m.firstRow m.rows s).rowMaps ++ [m] }
    let s := modOp k (fun o => Op.loadFlags s fs add m { o with map := some m }) s
    startGemm k m roots (!add) (runtimeReach k o.runtimeRanges s)

/-- The admission of an initialise op (R252 to R255). -/
def admitInit (k : Nat) (o : Op) (s : State) : State :=
  let p := o.part s
  let sh := shapeRunOf s p (bits (o.dn 16 2) 0 3)
  match modeRun s (bits (o.dn 16 2) 3 2) with
  | none => retire k true 8 0 s
  | some (mode, cols) =>
    if columnsPer s p sh = 0 then retire k true 8 0 s
    else
      let m := mapFor s o sh mode cols
      let s' := modOp k (Op.flagIf (sh != m.shape) fDegraded) s
      if o.wsrc = 2 ∧ m.cStep < o.nLen then
        -- R255: the op needs N ≤ C_step; the manual names no reason for one that has more (free value, assumption log 8).
        if Config.freeNat s.free % 2 = 0 then retire k true 2 28 { s' with free := s.free + 1 } else retire k true 5 0 { s' with free := s.free + 1 }
      else if 2048 < m.firstRow + m.rows then retire k true 5 0 s'
      else if 64 ≤ ((dropMaps p m.firstRow m.rows s).rowMaps.filter (fun x => x.part == p)).length then retire k true 10 0 s'
      else if !fieldsReady s k (groupsOf sh (m.roots s)) || o.loadHeld s m then s
      else takeGemm k m false o s'

/-- The pass count of row `row` on root `root` once op `g`, whose last tile is live there, has sent it, from the count `n` (R224). -/
def passAfter (s : State) (root row n : Nat) (g : Op) : Nat :=
  match g.pos.find? (fun p => p.root == root) with
  | none => n
  | some p =>
    let base := g.accRow p 0
    let tiles := min (2 ^ g.shapeRun) (g.kTiles p.req - p.kStep * 2 ^ g.shapeRun)
    if p.done ∨ g.rm.part ≠ partOfField s root ∨ row < base + p.rowA ∨ base + g.tileRows ≤ row then n
    else if !g.isAdd && p.kStep == 0 then tiles else n + tiles

/-- The pass count of a row after every `field.gemm` now at work, in admission order (R224, R257). -/
def passesAfter (s : State) (root row : Nat) : Nat :=
  (s.ops.filter (fun g => g.code == 0x01 && g.stage == 2)).foldl (passAfter s root row) (tget 0 s.seq.passes (2048 * root + row))

/-- A row that the add would carry beyond 65,535 passes (R224). -/
def passOver (s : State) (o : Op) (m : RowMap) : Bool :=
  (m.roots s).any (fun root => (List.range m.rows).any (fun i =>
    let r := i / max 1 m.r % max 1 m.mcount
    decide (65535 < passesAfter s root (m.firstRow + i) + o.kTiles r)))

/-- The admission of an add op (R253, R224); a colour of its map that is out of use leaves it no colour set (R252). -/
def admitAdd (k : Nat) (o : Op) (s : State) : State :=
  match addMap s o with
  | none => retire k true 2 18 s
  | some m =>
    match addDiffers o m with
    | some d => retire k true 2 d s
    | none =>
      let s' := modOp k (Op.flagIf (m.shapeRun != m.shape) fDegraded) s
      -- the request lengths that R224 counts are those captured now
      let oc := { o with entries := (listOf s o).map (captOf s), map := some m }
      if o.wsrc = 0 ∧ o.epoch ≠ m.epoch then retire k true 6 0 s
      else if m.colours.any (colourOff s) then retire k true 8 0 s
      else if !fieldsReady s k (groupsOf m.shapeRun (m.roots s)) || o.loadHeld s m then s
      else if passOver s oc m then retire k true 12 0 s'
      else takeGemm k m true o s'

/-- FIELD_GEMM (R234, R252 to R257). In D1 it stays issued until the return to D0 (R434). -/
def execFieldGemm (k : Nat) (s : State) : Host.Outcome State Fault Refusal :=
  .next (if s.pwr.state = 0 ∧ s.pwr.next = none then
      admitOp k 0x01 (fun o s => if o.isAdd then admitAdd k o s else admitInit k o s) s
    else s)

/-- OP_HANDOVER (R257): the loaders of field `f` pass to op `k` once the ending op's last tile is live there. -/
def execOpHandover (k f : Nat) (s : State) : Host.Outcome State Fault Refusal :=
  .next (
    match opOf s k with
    | none => s
    | some o =>
      let mine : Bool := match o.posOf s f with
        | some p => !p.done
        | none => false
      if o.code = 0x01 ∧ o.stage = 2 ∧ o.abortAt = none ∧ f < 32 ∧ mine = true ∧ loaderFree s f = true ∧ (s.field f).loader ≠ some k then
        tryStart k (s.modField f (fun x => { x with loader := some k, bufFull := false }))
      else s)

/-! ### Ops of the sequencer alone (R237, R241) -/

/-- WAIT: retires at its admission. -/
def execWait (k : Nat) (s : State) : Host.Outcome State Fault Refusal := .next (admitOp k 0x31 (fun _ s => retire k false 0 0 (setAdmitted k s)) s)

/-- NOP: retires at its admission. -/
def execNop (k : Nat) (s : State) : Host.Outcome State Fault Refusal := .next (admitOp k 0x3F (fun _ s => retire k false 0 0 (setAdmitted k s)) s)

/-- SIGNAL: retires at its admission, when its token's count rises by ADD (R241, R260). -/
def execSignal (k : Nat) (s : State) : Host.Outcome State Fault Refusal := .next (admitOp k 0x32 (fun _ s => retire k false 0 0 (setAdmitted k s)) s)

/-- An earlier op of the stream that the fence waits for (R244). -/
def fenceWaits (fence o : Op) : Bool :=
  let f := fence.dn 17 1
  let inField := fun (a n : Nat) =>
    (List.range 32).any (fun g => g == f && (
      decide (a < feedAddr f 0x2000000 ∧ feedAddr f 0 < a + n) ||
      decide (a < 0x7F0040000000 + 0x40000 * (64 * f + 64) ∧ 0x7F0040000000 + 0x40000 * 64 * f < a + n)))
  if bits (fence.dn 16 1) 0 2 ≠ 0 then true
  else match o.code with
    | 0x01 => true
    | 0x03 => true
    | 0x04 => bit (o.dn 24 4) f
    | 0x05 => bit (o.dn 24 4) f
    | 0x10 => bit (o.dn 24 4) f
    | 0x11 => bit (o.dn 40 4) f
    | 0x20 => inField (o.dn 16 6) (o.dn 32 4) || (!bit (o.dn 36 2) 14 && inField (o.dn 24 6) (o.dn 32 4))
    | 0x21 => inField (o.dn 16 6) (o.dn 32 4) || (!bit (o.dn 36 2) 14 && inField (o.dn 24 6) (o.dn 32 4))
    | _ => false

/-- The fence may retire: every earlier op it waits for has retired, and with SYSTEM scope every packet of an earlier op to another device is
complete (R244, R362). -/
def fenceMet (s : State) (fence : Op) : Bool :=
  (streamOps s fence.stream).all (fun o => o.key == fence.key || !fenceWaits fence o) &&
  (bits (fence.dn 16 1) 0 2 != 3 || s.seq.remoteUnacked.all (fun u => u.2.1 != fence.stream))

/-- FENCE (R244): admitted once its waits are met; it retires when the ops it orders have, at once or by OP_RETIRE. No later op of the stream issues before. -/
def execFence (k : Nat) (s : State) : Host.Outcome State Fault Refusal :=
  .next (admitOp k 0x30 (fun o s =>
    let s := setAdmitted k s
    if fenceMet s o then retire k false 0 0 s else s) s)

end Sys2Proof.Machine
end

