-- ==== Sys2Proof/Machine/Drain.lean ====
section
/-! DEFINITION. `acc.drain`, `acc.save` and `acc.restore`: clusters, the tree fence, outputs, row images, pass counts and row-map blocks (R115 to
R118, R206 to R208, R224, R225, R239, R240, R282). -/

namespace Sys2Proof.Machine

open Sys2Proof

/-- Address of a segment's first output (R282). -/
def Op.segAddr (o : Op) (x : Seg) : Nat := o.dn 24 6 + x.j * o.dn 32 4 + x.n0 * o.outBytes

/-- The column gain g_d: the FP32 mean of the members' gains (R206). -/
def groupGain (s : State) (m : RowMap) (root c g : Nat) : Nat :=
  let l := (List.range (2 ^ m.shapeRun)).map (fun i =>
    let v := calEff s (kGain (root + i) c g m.headroom)
    fpRound fp32 (decide (v < 0)) v.natAbs 65536)
  fpDiv fp32 (l.foldl (fpAdd fp32) 0) (fpInt fp32 (2 ^ m.shapeRun))

/-- The scales of a stored tensor that the op of map `m` uses, as a range; none for held scales (R239, R280). -/
def RowMap.scaleRange (m : RowMap) : Nat × Nat :=
  (m.scalePtr + 4 * m.n0, if m.wsrc = 0 then 4 * (min (m.n0 + m.n) m.tensorN - m.n0) else 0)

/-- s_w of op column `n`, and whether its word gives no data (R239, R280, R282, R290). -/
def colScaleAt (s : State) (m : RowMap) (req n : Nat) : Nat × Bool :=
  if m.wsrc = 0 then
    if m.tensorN ≤ m.n0 + n then (fp32One, false)
    else
      let a := m.scalePtr + 4 * (m.n0 + n)
      (rdNat s a 4, noRead s m.part a 4 || anyBad s a 4)
  else ((m.scales.getD (req * m.n + n) 0).toNat, false)

/-- One output: its bits, whether it is poisoned, and whether it overflowed (R206, R207, R118). -/
def drainOne (wide : Bool) (v : AccCell) (gd : Nat) (sw sx : Nat × Bool) : Nat × Bool × Bool :=
  let y := fpMul fp32 (fpMul fp32 (fpMul fp32 (fpInt fp32 v.val) gd) sw.1) sx.1
  let bad := v.P || sw.2 || sx.2 || !scaleValid sw.1 || !scaleValid sx.1
  let out := if wide then y else fpConv bf16 fp32 y
  (out, bad, !bad && !fpFinite (if wide then fp32 else bf16) out)

/-- The outputs of a segment. -/
def Op.segOut (s : State) (o : Op) (x : Seg) : List (AccCell × Nat × Bool × Bool) :=
  let a := feedAddr x.root (o.dn 36 3)
  let sx := (bits (rdNat s a 8) 0 32, anyBad s a 8)
  let req := (x.row - x.m.firstRow) / max 1 x.m.r % max 1 x.m.mcount
  (List.range x.cnt).map (fun i =>
    let v := s.accCell ((x.root * 2048 + x.row) * 1024 + 256 * x.g + x.c0 + i)
    (v, drainOne (bit (o.dn 16 1) 0) v (groupGain s x.m x.root (x.c0 + i) x.g) (colScaleAt s x.m req (x.n0 + i)) sx))

/-- The segment's outputs are written, a poisoned output as a poisoned word (R118, R207), and their flags taken. -/
def writeSeg (k : Nat) (x : Seg) (s : State) : State :=
  match opOf s k with
  | none => s
  | some o =>
    let l := o.segOut s x
    let a := o.segAddr x
    let e := o.outBytes
    let bad := fun (w : Nat) => (List.range l.length).any (fun i =>
      (l.getD i ({}, 0, false, false)).2.2.1 && decide (a + i * e < 8 * w + 8 ∧ 8 * w < a + i * e + e))
    let s := wrBytes a ((l.map (fun y => leBytes e y.2.1)).flatten) bad (hide o.stream a (l.length * e) s)
    modOp k (fun o =>
      let o := o.flagIf (l.any (fun y => y.1.T)) fTaint
      let o := o.flagIf (l.any (fun y => y.1.O)) fOvr
      let o := o.flagIf (l.any (fun y => y.2.2.1)) fPoison
      o.flagIf (l.any (fun y => y.2.2.2)) fSat) s

/-! ### Admission of a drain -/

/-- The op's tree fence is raised on its fields (R117, R119). -/
def raiseFence (k : Nat) (s : State) : State := modOp k (fun o => { o with stage := 4 }) s

/-- The fields whose arrays a drain or save reads. -/
def Op.fenceFields (o : Op) : List Nat := if o.code = 0x04 then selected (o.dn 24 4) else o.clusters.map Prod.fst

/-- TREE_FENCE of field `f` (R117, R119): a drain or save waits for its tree fence there. -/
def treeFenceOn (s : State) (f : Nat) : Bool := s.ops.any (fun o => o.stage == 4 && o.fenceFields.contains f)

/-- ACC_DRAIN (R282): cores, row maps, clusters and output range are checked; the drain then waits for its tree fence. -/
def execAccDrain (k : Nat) (s : State) : Host.Outcome State Fault Refusal :=
  .next (admitOp k 0x03 (fun o s =>
    let p := o.part s
    let maps := mapsOver s p (o.dn 18 2) (o.dn 20 2)
    if noCores s p then retire k true 13 0 s
    else if o.rowRange.any (fun r => (mapOf maps r).isNone) then retire k true 5 0 s
    else
      match clustersFor s p (drainRoots s o maps) with
      | none => s
      | some cl =>
        if (o.segs s maps).any (fun x => noWrite s p (o.segAddr x) (x.cnt * o.outBytes)) then retire k true 2 24 s
        else
          let s := modOp k (fun o => { o with maps := maps, clusters := cl }) (setAdmitted k s)
          let s := cl.foldl (fun (s : State) c => s.modField c.2.1 (fun x => { x with drain := x.drain ||| BitVec.twoPow 4 c.2.2 })) s
          raiseFence k s) s)

/-- The drain's read and writes, once its tree fence has passed (R206 to R208, R224, R290). -/
def drainPass (o : Op) (s : State) : State :=
  let segs := o.segs s o.maps
  let roots := (segs.map (fun x => x.root)).eraseDups
  let s := touchAll (roots.map (fun r => (feedAddr r (o.dn 36 3), 8)) ++
    o.maps.map RowMap.scaleRange) s
  let s := segs.foldl (fun (s : State) x => touchRow x.root x.row s) s
  let s := runtimeReach o.key (o.maps.map RowMap.scaleRange) s
  let words := roots.map (fun r => (rdNat s (feedAddr r (o.dn 36 3)) 8, anyBad s (feedAddr r (o.dn 36 3)) 8))
  let past := segs.any (fun x => decide (64 < tget 0 s.seq.passes (2048 * x.root + x.row)))
  let s := modOp o.key (fun o =>
    let o := o.flagIf (words.any (fun w => !w.2 && bit w.1 32)) fSat
    let o := o.flagIf (words.any (fun w => !w.2 && bit w.1 33)) fZero
    let o := o.flagIf (words.any (fun w => w.2)) fPoison
    o.flagIf past fBound) s
  segs.foldl (fun s x => writeSeg o.key x s) s

/-! ### Row images and row-map blocks (R115, R240) -/

/-- Bits [2:0] of a cell's flags: P, O, T from bit 2 down. -/
def flagBits (v : AccCell) : Nat := b01 v.T + 2 * b01 v.O + 4 * b01 v.P

/-- The 4,608 bytes of a row (R115). -/
def rowImage (s : State) (f row : Nat) : List Byte :=
  let cell := fun (j : Nat) => s.accCell ((f * 2048 + row) * 1024 + j)
  ((List.range 1024).map (fun j => leBytes 4 (image 32 (cell j).val))).flatten ++
  (List.range 512).map (fun i => BitVec.ofNat 8 (flagBits (cell (2 * i)) + 16 * flagBits (cell (2 * i + 1))))

/-- The bytes of a row-map block (R240). -/
def mapBlock (m : RowMap) : List Byte :=
  let sc := if m.wsrc = 0 then [] else m.scales
  let body := leBytes 4 0x4D574F52 ++ leBytes 2 1 ++ leBytes 2 m.firstRow ++ leBytes 2 m.rows ++
    leBytes 1 (m.colour + 4 * m.headroom + 16 * m.shape) ++ leBytes 1 (m.shapeRun + 8 * m.wsrc) ++ leBytes 2 m.m ++ leBytes 2 m.mcount ++
    leBytes 4 m.n ++ leBytes 4 m.n0 ++ leBytes 4 m.whandle ++ leBytes 4 m.epoch ++ leBytes 2 m.q ++ leBytes 2 m.r ++ leBytes 2 m.cStep ++ [0, 0] ++
    leBytes 4 m.rootMask.toNat ++ leBytes 6 m.scalePtr ++ [0, 0] ++ leBytes 4 sc.length ++ List.replicate 8 0 ++
    fitBytes 32 m.bands ++ List.replicate 32 0 ++ (sc.map (fun x => leBytes 4 x.toNat)).flatten
  fitBytes ((body.length + 63) / 64 * 64) body

/-- Bytes of the block whose SCALE_COUNT is `n`. -/
def blockLen (n : Nat) : Nat := (128 + 4 * n + 63) / 64 * 64

/-- The header fields of a block that lie in range (R240). -/
def blockOk (s : State) (l : List Byte) : Bool :=
  let d := bytesAt l
  let f := 32 / s.net.parts
  decide (d 0 4 = 0x4D574F52 ∧ d 4 2 = 1 ∧ d 6 2 < 2048 ∧ 1 ≤ d 8 2 ∧ d 8 2 ≤ 2048) && bits (d 10 1) 0 2 != 3 && !bit (d 10 1) 7 &&
  decide (2 ^ bits (d 10 1) 4 3 ≤ f) && decide (2 ^ bits (d 11 1) 0 3 ≤ f) && bits (d 11 1) 5 3 == 0 &&
  (decide (2 ≤ bits (d 11 1) 3 2) || d 14 2 == 0) && (bits (d 11 1) 3 2 == 0 || d 24 4 == 0) &&
  d 38 2 == 0 && d 50 2 == 0 && decide (d 52 4 ≤ 65536) && (d 52 4 == 0 || d 44 6 == 0) && d 56 8 == 0 && d 96 32 == 0

/-- The row map of a block, its rows moved by `dst − src` (R240). What the block does not carry is taken from the device as it stands
(assumption log 21). -/
def blockMap (s : State) (p src dst : Nat) (l sc : List Byte) : RowMap :=
  let d := bytesAt l
  let colour := bits (d 10 1) 0 2
  let mc := d 14 2
  let mode := if colour = 2 ∧ rowsPer (d 12 2) mc 2 ≠ d 34 2 ∧ rowsPer (d 12 2) mc 1 = d 34 2 then 1 else colour
  let cols := (colourSet s mode).getD []
  let scales := (List.range (d 52 4)).map (fun i => BitVec.ofNat 32 (bytesAt sc (4 * i) 4))
  let h := d 24 4
  { part := p, firstRow := d 6 2 + dst - src, rows := d 8 2, colour := colour, headroom := bits (d 10 1) 2 2, shape := bits (d 10 1) 4 3
    shapeRun := bits (d 11 1) 0 3, wsrc := bits (d 11 1) 3 2, m := d 12 2, mcount := mc, n := d 16 4, n0 := d 20 4, whandle := h, epoch := d 28 4
    q := d 32 2, r := d 34 2, cStep := d 36 2, rootMask := BitVec.ofNat 32 (d 40 4), scalePtr := d 44 6, scales := scales
    bands := (List.range (groupCount s (bits (d 11 1) 0 3))).map (fun g => BitVec.ofNat 8 (d (64 + g) 1))
    c1col := if mode = 0 then cols.getD 0 0 else 0, c2sub := mode == 1 && cols.getD 0 0 == 1, mode := mode
    tensorN := if handleValid s h then (s.dirEntry (handleIdx h)).n else d 20 4 + d 16 4
    zeroCol := scales.any (fun x => x.toNat == fp32One) && Config.freeNat s.free % 2 == 1 }

/-- The blocks of a restore, read one after another from `a`; none when one fails (R240). -/
def readBlocks (s : State) (o : Op) : Nat → Nat → Option (List RowMap)
  | 0, _ => some []
  | n + 1, a =>
    let p := o.part s
    if noRead s p a 128 || anyBad s a 128 then none
    else
      let l := rdBytes s a 128
      let len := blockLen (bytesAt l 52 4)
      if !blockOk s l || noRead s p a len || anyBad s a len then none
      else
        let m := blockMap s p (o.dn 18 2) (o.dn 22 2) l (rdBytes s (a + 128) (len - 128))
        let moved : Int := (bytesAt l 6 2 : Int) + o.dn 22 2 - o.dn 18 2
        if moved < o.dn 22 2 ∨ o.dn 22 2 + o.dn 20 2 < m.firstRow + m.rows then none
        else (readBlocks s o n (a + len)).map (fun r => m :: r)

/-- A word of the blocks' extent is poisoned: the op also carries POISON (R511). -/
def blocksBad (s : State) (o : Op) : Nat → Nat → Bool
  | 0, _ => false
  | n + 1, a => anyBad s a 128 || anyBad s a (blockLen (rdNat s (a + 52) 4)) || blocksBad s o n (a + blockLen (rdNat s (a + 52) 4))

/-- The ranges of `n` blocks from `a`, each as long as its header says (R240). -/
def blockRanges (s : State) : Nat → Nat → List (Nat × Nat)
  | 0, _ => []
  | n + 1, a => (a, blockLen (rdNat s (a + 52) 4)) :: blockRanges s n (a + blockLen (rdNat s (a + 52) 4))

/-- What a restore reads: its blocks, images and counts (R115, R240). -/
def Op.restoreRanges (s : State) (o : Op) : List (Nat × Nat) :=
  let n := (selected (o.dn 24 4)).length * o.dn 20 2
  blockRanges s (o.dn 46 2) (o.dn 40 6) ++ [(o.dn 28 6, n * 4608)] ++ (if o.dn 34 6 = 0 then [] else [(o.dn 34 6, 2 * n)])

/-- The words of the blocks are read: corrected or converted (R292). -/
def touchBlocks : Nat → Nat → State → State
  | 0, _, s => s
  | n + 1, a, s =>
    let s := touch a 128 s
    let len := blockLen (rdNat s (a + 52) 4)
    touchBlocks n (a + len) (touch a len s)

/-- ACC_SAVE (R115, R240): the row maps and their extent are fixed at admission; the save then waits for its tree fence. -/
def execAccSave (k : Nat) (s : State) : Host.Outcome State Fault Refusal :=
  .next (admitOp k 0x04 (fun o s =>
    let p := o.part s
    let maps := if o.dn 40 6 = 0 then [] else (List.range 2048).filterMap (fun r =>
      (mapsOver s p (o.dn 18 2) (o.dn 20 2)).find? (fun m => m.firstRow == r))
    let len := (maps.map (fun m => (mapBlock m).length)).sum
    if noWrite s p (o.dn 40 6) len then retire k true 2 40 s
    else
      let s := modOp k (fun o => { o with maps := maps }) (setAdmitted k s)
      raiseFence k s) s)

/-- The save's writes, once its tree fence has passed (R115, R225, R240). -/
def savePass (o : Op) (s : State) : State :=
  let fs := selected (o.dn 24 4)
  let n := o.dn 20 2
  let row0 := o.dn 18 2
  let s := fs.foldl (fun (s : State) f => o.rowRange.foldl (fun (s : State) r => touchRow f r s) s) s
  let pois := fs.any (fun f => o.rowRange.any (fun r => (List.range 1024).any (fun j => (s.accCell ((f * 2048 + r) * 1024 + j)).P)))
  let imgs := (fs.map (fun f => (o.rowRange.map (rowImage s f)).flatten)).flatten
  let cnts := (fs.map (fun f => ((List.range n).map (fun i => leBytes 2 (tget 0 s.seq.passes (2048 * f + row0 + i)))).flatten)).flatten
  let put := fun (a : Nat) (l : List Byte) (s : State) => wrClean a l (hide o.stream a l.length s)
  let s := put (o.dn 28 6) imgs s
  let s := if o.dn 34 6 = 0 then s else put (o.dn 34 6) cnts s
  let s := if o.dn 40 6 = 0 then s else put (o.dn 40 6) (o.maps.map mapBlock).flatten s
  modOp o.key (fun o => ({ o with detail := o.maps.length } : Op).flagIf pois fPoison) s

/-- What a drain reads and writes in HBM or the DDR tier, or what a save writes, once its tree fence has passed (R115, R206, R240). -/
def Op.passRanges (s : State) (o : Op) : List (Nat × Nat) :=
  let n := (selected (o.dn 24 4)).length * o.dn 20 2
  if o.code = 0x03 then o.maps.map RowMap.scaleRange ++ (o.segs s o.maps).map (fun x => (o.segAddr x, x.cnt * o.outBytes))
  else [(o.dn 28 6, n * 4608)] ++ (if o.dn 34 6 = 0 then [] else [(o.dn 34 6, 2 * n)]) ++
    (if o.dn 40 6 = 0 then [] else [(o.dn 40 6, (o.maps.map (fun m => (mapBlock m).length)).sum)])

/-- The tree fence of a drain or save may pass: no unfinished slice of an op targets its rows in those arrays (R117). -/
def fencePasses (s : State) (o : Op) : Bool :=
  let fs := o.fenceFields
  !s.ops.any (fun g => g.code == 0x01 && g.stage == 2 && g.sliceBeat.isSome &&
    g.map.any (fun m => m.part == o.part s && rowsOverlap m.firstRow m.rows (o.dn 18 2) (o.dn 20 2)) &&
    g.pos.any (fun p => !p.done && fs.contains p.root))

/-- TREE_FENCE_PASS (R117, R306): the drain or save reads and writes, once no unit holds its requests; its last write makes it ready to retire. -/
def execTreeFencePass (k : Nat) (s : State) : Host.Outcome State Fault Refusal :=
  .next (
    match opOf s k with
    | none => s
    | some o =>
      if o.stage = 4 ∧ o.abortAt = none ∧ s.flt.deviceError = false ∧ fencePasses s o = true ∧ heldAny s (o.passRanges s) = false then
        let s := if o.code = 0x03 then drainPass o s else savePass o s
        modOp k (fun o => { o with stage := 3 }) s
      else s)

/-- One restored row (R115, R116, R225). -/
def restoreRow (o : Op) (n k f i : Nat) (s : State) : State :=
  let a := o.dn 28 6 + (k * n + i) * 4608
  let row := o.dn 22 2 + i
  let s := touch a 4608 s
  let cnt := if o.dn 34 6 = 0 then 65535 else rdNat s (o.dn 34 6 + 2 * (k * n + i)) 2
  let cell := fun (j : Nat) =>
    let fb := bits (rdByte s (a + 4096 + j / 2)).toNat (4 * (j % 2)) 3
    { val := signed 32 (rdNat s (a + 4 * j) 4), T := bit fb 0, O := bit fb 1
      P := bit fb 2 || anyBad s (a + 4 * j) 4 || anyBad s (a + 4096 + j / 2) 1 : AccCell }
  let cells := (List.range 1024).map (fun j => ((f * 2048 + row) * 1024 + j, cell j))
  let s := hide o.stream (accAddr f row) 4096 (touchRow f row s)
  let s := cells.foldl (fun (s : State) x => s.setAccCell x.1 x.2) s
  countPass f row cnt true s

/-- ACC_RESTORE (R115, R116, R225, R240): blocks are checked first; the rows then take their images. Restored rows keep no older row map. It waits
while a unit holds its requests (R306). -/
def execAccRestore (k : Nat) (s : State) : Host.Outcome State Fault Refusal :=
  .next (admitOp k 0x05 (fun o s =>
    let p := o.part s
    let nblk := o.dn 46 2
    if heldAny s (o.restoreRanges s) then s
    else
    let s := touchBlocks nblk (o.dn 40 6) s
    match readBlocks s o nblk (o.dn 40 6) with
    | none => retire k true 2 40 (modOp k (Op.flagIf (blocksBad s o nblk (o.dn 40 6)) fPoison) s)
    | some maps =>
      let s1 := dropMaps p (o.dn 22 2) (o.dn 20 2) s
      let s2 := maps.foldl (fun s m => { dropMaps p m.firstRow m.rows s with rowMaps := (dropMaps p m.firstRow m.rows s).rowMaps ++ [m] }) s1
      if 64 < (s2.rowMaps.filter (fun m => m.part == p)).length then retire k true 10 0 s
      else
        let fs := selected (o.dn 24 4)
        let n := o.dn 20 2
        let s := touch (o.dn 28 6) (fs.length * n * 4608) (setAdmitted k { s2 with free := s2.free + 1 })
        let s := if o.dn 34 6 = 0 then s else touch (o.dn 34 6) (2 * n * fs.length) s
        let pois := anyBad s (o.dn 28 6) (fs.length * n * 4608) || (o.dn 34 6 != 0 && anyBad s (o.dn 34 6) (2 * n * fs.length))
        let s := (List.range fs.length).foldl (fun s i => (List.range n).foldl (fun s j => restoreRow o n i (fs.getD i 0) j s) s) s
        modOp k (fun o => ({ o with stage := 3 } : Op).flagIf pois fPoison) s) s)

end Sys2Proof.Machine
end

