-- ==== Sys2Proof/Machine/Kernels.lean ====
section
/-! DEFINITION. Vector kernels and quantisers: launch, package check, the FP32 reference product, kernel ends and traps, barriers, core DMA, and
`quant.scale` (R192 to R200, R267 to R281, R284, R511). -/

namespace Sys2Proof.Machine

open Sys2Proof

/-! ### Launch (R274, R275) -/

/-- Base of a core's local memory (R268, R288). -/
def coreBase (c : Nat) : Nat := 0x7F0040000000 + 0x40000 * c

/-- KERNEL_TRAP: stream, tag, core, cause, mcause, mepc (R276). -/
def postTrap (o : Op) (c cause mcause mepc : Nat) (s : State) : State :=
  post 0x0102 (leBytes 1 o.stream ++ leBytes 2 o.tag ++ leBytes 2 c ++ leBytes 1 cause ++ leBytes 8 mcause ++ leBytes 8 mepc) s

/-- Core `c` traps: its bits, the event, and POISON on the op (R276, R285). -/
def trapCore (o : Op) (c cause mcause mepc : Nat) (s : State) : State :=
  let s := s.modCoreOf c (fun x => { x with trapped := true, cause := cause })
  let s := modOp o.key (Op.flag fPoison) s
  postTrap o c cause mcause mepc s

/-- A stalled core goes on when no running core of the launch has written `vbarrier` fewer times (R277). -/
def releaseBarrier (k : Nat) (s : State) : State :=
  match opOf s k with
  | none => s
  | some o => o.cores.foldl (fun (s : State) c => s.modCoreOf c (fun x => { x with
      stalled := x.stalled && o.cores.any (fun d => decide ((s.coreOf d).barrier < x.barrier)) })) s

/-- Core `c` ends its part of the launch: it is free; the op's work is done when every core has ended (R276). -/
def endCore (o : Op) (c : Nat) (s : State) : State :=
  let pois := (s.coreOf c).poison
  let s := s.modCoreOf c Core.leave
  let s := modOp o.key (fun o =>
    let l := o.cores.filter (fun d => d != c)
    ({ o with cores := l, stage := if l.isEmpty then 3 else o.stage } : Op).flagIf pois fPoison) s
  releaseBarrier o.key s

/-- The package header passes its checks, and its code is readable with the stated CRC (R272, R274, R511). -/
def packageOk (s : State) (p e n : Nat) : Bool :=
  let d := fun (i len : Nat) => rdNat s (e + i) len
  let len := d 8 4
  !anyBad s e 64 && decide (d 0 4 = 0x50554B55 ∧ d 4 2 = 1 ∧ d 6 2 < 4 ∧ 4 ≤ len ∧ len ≤ 32768 ∧ len % 4 = 0 ∧ d 12 4 < len ∧ d 12 4 % 2 = 0 ∧
    d 16 4 ≤ 159744 ∧ 1 ≤ d 20 4 ∧ d 20 4 ≤ 2048) && d 28 36 == 0 &&
  !noRead s p (e + 64) len && !anyBad s (e + 64) len && decide (crc32c (rdBytes s (e + 64) len) = d 24 4) && decide (d 20 4 ≤ n)

/-- The integer registers at kernel entry (R275), by register number; rank `rank` of `n`. -/
def entryRegs (o : Op) (c rank n : Nat) : Tab Nat :=
  [(2, 0x40000), (4, c % 64), (10, 0x14000), (11, o.dn 38 2), (12, rank), (13, n), (14, c / 64),
    (15, if 0 < o.mlist.2 then 0x15000 else 0), (16, o.mlist.2), (17, o.stream * 65536 + o.tag)].filter (fun r => decide (0 < r.2))

/-- The runtime's copies on core `c`: code unless resident, arguments, manifest list (R274); entry state of R275. The manual states no code address
of a built-in kernel; its entry leaves `pc` 0. -/
def startCore (o : Op) (n c : Nat) (rank : Nat) (barrier : Bool) (s : State) : State :=
  let e := o.dn 16 6
  let crc := BitVec.ofNat 32 (rdNat s (e + 24) 4)
  let s := if e < 0x10000 ∨ (s.coreOf c).resident = some (e, crc) then s else copyShown (e + 64) (coreBase c + 0xC000) (rdNat s (e + 8) 4) s
  let s := copyShown (o.dn 32 6) (coreBase c + 0x14000) (o.dn 38 2) s
  let s := copyShown o.mlist.1 (coreBase c + 0x15000) (2 * o.mlist.2) s
  s.modCoreOf c (fun x => { x with
    state := 1, poison := false, poisonNext := false, launch := some o.key, stream := o.stream, rank := rank, started := s.tim.beat, barrier := 0, stalled := false, dmaLeft := 0
    usesBarrier := barrier, pc := if e < 0x10000 then 0 else 0xC000 + rdNat s (e + 12) 4, xregs := entryRegs o c rank n, fregs := [], vregs := [], frm := 0
    fflags := 0, vill := true, vl := 0, resident := if e < 0x10000 then x.resident else some (e, crc) })

/-! ### The FP32 reference product (R284) -/

/-- A code of the product: −128 counts as 0. -/
def refCode (b : Byte) : Int := if b = cellOff then 0 else b.toInt

/-- The arguments of the reference product. -/
structure RefArgs where
  w : Nat
  wld : Nat
  x : Nat
  xld : Nat
  k : Nat
  m : Nat
  n : Nat
  out : Nat
  perPass : Bool
  ok : Bool
  deriving DecidableEq, Repr

/-- The argument block; bytes beyond ARG_LEN read as zero. -/
def refArgs (s : State) (o : Op) : RefArgs :=
  let l := fitBytes 48 (rdBytes s (o.dn 32 6) (o.dn 38 2))
  let d := bytesAt l
  { w := d 0 6, wld := d 8 4, x := d 12 6, xld := d 20 4, k := d 24 4, m := d 28 2, n := d 32 4, out := d 36 6, perPass := bit (d 42 1) 0
    ok := decide (1 ≤ d 24 4 ∧ d 24 4 ≤ 1048576 ∧ 1 ≤ d 28 2 ∧ d 28 2 ≤ 8192 ∧ 1 ≤ d 32 4 ∧ d 32 4 ≤ 65536 ∧ d 42 1 < 2) && d 43 5 == 0 }

/-- Σ w·x over the reduction indices [lo, hi) for token `j` and column `n`: exact. -/
def refSum (s : State) (a : RefArgs) (j n lo hi : Nat) : Int :=
  ((List.range (hi - lo)).map (fun i => refCode (rdByte s (a.w + (lo + i) * a.wld + n)) * refCode (rdByte s (a.x + j * a.xld + lo + i)))).sum

/-- The bytes that token `j` writes, and where. -/
def refOut (s : State) (a : RefArgs) (j : Nat) : Nat × List Byte :=
  let kt := (a.k + 255) / 256
  if a.perPass then
    (a.out + j * a.n * kt * 4, ((List.range a.n).map (fun n => ((List.range kt).map (fun t =>
      leBytes 4 (fpInt fp32 (refSum s a j n (256 * t) (min a.k (256 * t + 256)))))).flatten)).flatten)
  else (a.out + j * a.n * 8, ((List.range a.n).map (fun n => leBytes 8 (fpInt fp64 (refSum s a j n 0 a.k)))).flatten)

/-- Tokens of rank `r` of `n` (R284). -/
def refTokens (a : RefArgs) (r n : Nat) : List Nat := (List.range (((r + 1) * a.m) / n - r * a.m / n)).map (fun i => r * a.m / n + i)

/-- Bytes that a token's outputs take. -/
def refLen (a : RefArgs) : Nat := if a.perPass then a.n * ((a.k + 255) / 256) * 4 else a.n * 8

/-- Something the core of these tokens reads or writes lies outside its reach (R270, R310). -/
def refBlocked (s : State) (p : Nat) (a : RefArgs) (toks : List Nat) : Bool :=
  !toks.isEmpty && ((List.range a.k).any (fun k => noRead s p (a.w + k * a.wld) a.n) ||
    toks.any (fun j => noRead s p (a.x + j * a.xld) a.k || noWrite s p (a.out + j * refLen a) (refLen a)))

/-- A poisoned word that the core reads: of the argument block, or of the operands (R269, R511). -/
def refPoison (s : State) (o : Op) (a : RefArgs) (toks : List Nat) : Bool :=
  anyBad s (o.dn 32 6) (min 48 (o.dn 38 2)) || !toks.isEmpty && ((List.range a.k).any (fun k => anyBad s (a.w + k * a.wld) a.n) || toks.any (fun j => anyBad s (a.x + j * a.xld) a.k))

/-- One rank of the reference product: it traps with ACCESS, or writes its tokens; it ends at KERNEL_RETURN. -/
def refRank (o : Op) (a : RefArgs) (n : Nat) (s : State) (rc : Nat × Nat) : State :=
  let toks := refTokens a rc.1 n
  let p := o.part s
  if refBlocked s p a toks then endCore o rc.2 (trapCore o rc.2 2 0 0 s)
  else
    let s := touchAll ((List.range a.k).map (fun k => (a.w + k * a.wld, a.n)) ++ toks.map (fun j => (a.x + j * a.xld, a.k))) s
    let s := s.modCoreOf rc.2 (fun x => { x with poison := refPoison s o a toks })
    toks.foldl (fun (s : State) j => let y := refOut s a j; wrClean y.1 y.2 (hide o.stream y.1 y.2.length s)) s

/-- What the launch reads: header and code, arguments, manifest list; and of the reference product the operands, and what it writes (R274, R284). -/
def Op.launchRanges (s : State) (o : Op) : List (Nat × Nat) :=
  let e := o.dn 16 6
  let a := refArgs s o
  [(o.dn 32 6, o.dn 38 2), (o.mlist.1, 2 * o.mlist.2)] ++
  (if 0x10000 ≤ e then [(e, 64), (e + 64, min 32768 (rdNat s (e + 8) 4))]
   else if a.ok then (List.range a.k).map (fun k => (a.w + k * a.wld, a.n)) ++ (List.range a.m).map (fun j => (a.x + j * a.xld, a.k)) ++ [(a.out, a.m * refLen a)]
   else [])

/-- VEC_KERNEL (R274): admission and launch, once no unit holds what it reads (R306). -/
def execVecKernel (k : Nat) (s : State) : Host.Outcome State Fault Refusal :=
  .next (admitOp k 0x10 (fun o s =>
    if !canLaunch s o || heldAny s (o.launchRanges s) then s
    else
      let cs := launchCores s o
      let e := o.dn 16 6
      let s := nameEntries k o (setAdmitted k s)
      let s := modOp k (fun o => { o with cores := cs }) s
      let fin := fun (s : State) => modOp k (fun o => { o with cores := [], stage := 3 }) s
      if cs.isEmpty then fin (postTrap o 0xFFFF 6 0 0 (modOp k (Op.flag fPoison) s))
      else
        let s := if e < 0x10000 then s else touch (e + 64) (min 32768 (rdNat s (e + 8) 4)) (touch e 64 s)
        let s := touch (o.dn 32 6) (o.dn 38 2) s
        if 0x10000 ≤ e ∧ packageOk s (o.part s) e cs.length = false then
          fin (cs.foldl (fun s c => trapCore o c 5 0 0 s) s)
        else
          let bar := decide (0x10000 ≤ e) && bit (rdNat s (e + 6) 2) 0
          let ranks := (List.range cs.length).zip cs
          let s := ranks.foldl (fun s x => startCore o cs.length x.2 x.1 bar s) s
          if 0x10000 ≤ e then s
          else
            let a := refArgs s o
            if a.ok then ranks.foldl (refRank o a cs.length) s
            else
              -- the kernel returns with some a0 ≠ 0, which the manual does not state (free value, assumption log 8)
              let a0 := 1 + Config.freeNat s.free % (2 ^ 64 - 1)
              cs.foldl (fun s c => endCore o c (trapCore o c 4 0 a0 s)) { s with free := s.free + 1 }) s)

/-! ### Kernel ends (R276 to R278) -/

/-- Core `c` runs a launch: its op. -/
def runningOp (s : State) (c : Nat) : Option Op :=
  if (s.coreOf c).state = 1 then ((s.coreOf c).launch.bind (opOf s)) else none

/-- How user mode ends an access of core `c`'s kernel (R268, R270, R310): a range beyond its local memory, or a store to an OPS_RO region, traps with ACCESS (cause 2);
a load from the resident runtime is a load access fault (`mcause` 5), and a store to it or to the kernel code region a store access fault (`mcause` 7). -/
def accessTrap (s : State) (c : Nat) (x : CoreAccess) : Option (Nat × Nat) :=
  if 0x40000 < x.off + x.len then some (2, 0)
  else if x.store.isSome then (if x.off < 0x14000 then some (1, 7) else if opsRo s (coreBase c + x.off) x.len then some (2, 0) else none)
  else if x.off < 0xC000 then some (1, 5) else none

/-- One load or store that user mode allows (R269): a load of a poisoned word sets `vpoison` bit 0; the aligned 8-byte store after a write of `vpoison` bit 1 writes a
poisoned word and clears it. -/
def coreAccess (o : Op) (c : Nat) (x : CoreAccess) (s : State) : State :=
  let a := coreBase c + x.off
  match x.store with
  | none =>
    let s := touch a x.len s
    if anyBad s a x.len then s.modCoreOf c (fun y => { y with poison := true }) else s
  | some l =>
    let bad := (s.coreOf c).poisonNext && l.length == 8 && x.off % 8 == 0
    let s := wrBytes a l (fun _ => bad) (hide o.stream a l.length s)
    if bad then s.modCoreOf c (fun y => { y with poisonNext := false }) else s

/-- The loads and stores of core `c`'s kernel in program order; the first that traps ends the kernel there, with a trap's `mepc` its instruction. A core stalled at
`vbarrier` makes none (R277). -/
def coreWork (c : Nat) (wk : CoreWork) (s : State) : State :=
  wk.foldl (fun (s : State) x =>
    match runningOp s c with
    | none => s
    | some o =>
      if (s.coreOf c).stalled then s
      else match accessTrap s c x with
        | some t => endCore o c (trapCore o c t.1 t.2 x.pc.toNat s)
        | none => coreAccess o c x s) s

/-- Core `c` executes its loads and stores and then, if it still runs and does not wait at `vbarrier`, what `g` says of its op. -/
def coreStep (c : Nat) (wk : CoreWork) (g : Op → State → State) (s : State) : State :=
  let s := coreWork c wk s
  match runningOp s c with
  | none => s
  | some o => if (s.coreOf c).stalled then s else g o s

/-- KERNEL_RETURN (R276): a return with a0 = 0 ends the kernel; any other is a trap of cause RETURN. -/
def execKernelReturn (c : Nat) (a0 : BitVec 64) (wk : CoreWork) (s : State) : Host.Outcome State Fault Refusal :=
  .next (coreStep c wk (fun o s => if a0 = 0 then endCore o c s else endCore o c (trapCore o c 4 0 a0.toNat s)) s)

/-- KERNEL_TRAP: EXCEPTION or ACCESS on core `c` (R270, R276). -/
def execKernelTrap (c cause : Nat) (mcause mepc : BitVec 64) (wk : CoreWork) (s : State) : Host.Outcome State Fault Refusal :=
  .next (coreStep c wk (fun o s =>
    if cause = 1 ∨ cause = 2 then endCore o c (trapCore o c cause mcause.toNat mepc.toNat s) else s) s)

/-- KERNEL_WATCHDOG (R276): a run past the watchdog, at a barrier too. -/
def execKernelWatchdog (c : Nat) (mepc : BitVec 64) (wk : CoreWork) (s : State) : Host.Outcome State Fault Refusal :=
  .next (
    if (s.coreOf c).started + 1000 * s.stw.watchdogMs ≤ s.tim.beat then
      let s := coreWork c wk s
      match runningOp s c with
      | none => s
      | some o => endCore o c (trapCore o c 3 0 mepc.toNat s)
    else s)

/-- VBARRIER_WRITE (R277). -/
def execVbarrierWrite (c : Nat) (wk : CoreWork) (s : State) : Host.Outcome State Fault Refusal :=
  .next (coreStep c wk (fun o s =>
    if (s.coreOf c).usesBarrier then releaseBarrier o.key (s.modCoreOf c (fun x => { x with barrier := x.barrier + 1, stalled := true })) else s) s)

/-- VPOISON_WRITE (R269): bit 1 makes the core's next aligned 8-byte store write a poisoned word. -/
def execVpoisonWrite (c : Nat) (w : BitVec 64) (wk : CoreWork) (s : State) : Host.Outcome State Fault Refusal :=
  .next (coreStep c wk (fun _ s => if w.getLsbD 1 then s.modCoreOf c (fun x => { x with poisonNext := true }) else s) s)

/-- A DMA range of core `c` lies outside the reach of R270, or would write an OPS_RO region (R310). -/
def dmaBlocked (s : State) (c : Nat) (d : DmaDesc) : Bool :=
  let p := partOfField s (c / 64)
  (List.range d.rows).any (fun i => noRead s p (d.src + i * d.sstr) d.len || noWrite s p (d.dst + i * d.dstr) d.len)

/-- Channel `ch` of core `c` completes a descriptor of an op of stream `x`: its rows are copied with their poison (R270, R271). -/
def dmaCopy (x c ch : Nat) (d : DmaDesc) (s : State) : State :=
  let l := List.range d.rows
  let s := touchAll (l.map (fun i => (d.src + i * d.sstr, d.len))) s
  let bad := l.any (fun i => anyBad s (d.src + i * d.sstr) d.len)
  let s := l.foldl (fun s i => copyBytes (d.src + i * d.sstr) (d.dst + i * d.dstr) d.len (hide x (d.dst + i * d.dstr) d.len s)) s
  s.modCoreOf c (fun x => { x with
    poison := x.poison || (bad && decide (x.state = 1)), dma := tins ch (tget [] x.dma ch ++ [d]) (tdel x.dma ch) })

/-- The rows of a DMA descriptor, as they are read and written. -/
def DmaDesc.ranges (d : DmaDesc) : List (Nat × Nat) :=
  (List.range d.rows).flatMap (fun i => [(d.src + i * d.sstr, d.len), (d.dst + i * d.dstr, d.len)])

/-- CORE_DMA_DESCRIPTOR (R270, R271): a channel completes a descriptor, once no unit holds its requests (R306), while its core runs, at a barrier too, or once more after the launch ended, for the one then in
progress (R276, R278). While the kernel runs, an address outside the core's reach traps with ACCESS. -/
def execCoreDmaDescriptor (c ch src dst len rows sstr dstr : Nat) (wk : CoreWork) (s : State) : Host.Outcome State Fault Refusal :=
  .next (
    let d : DmaDesc := { src := src, dst := dst, len := len, rows := rows, sstr := sstr, dstr := dstr }
    if 4 ≤ ch ∨ len = 0 ∨ 1048576 < len ∨ rows = 0 ∨ 65536 < rows ∨ heldAny s d.ranges = true then s
    else if (runningOp s c).isSome then
      let s := coreWork c wk s
      match runningOp s c with
      | none => s
      | some o => if dmaBlocked s c d then endCore o c (trapCore o c 2 0 0 s) else dmaCopy o.stream c ch d s
    else if (s.coreOf c).dmaLeft.getLsbD ch then
      let s := s.modCoreOf c (fun x => { x with dmaLeft := x.dmaLeft &&& ~~~(BitVec.twoPow 4 ch) })
      if dmaBlocked s c d then s else dmaCopy (s.coreOf c).stream c ch d s
    else s)

/-! ### `quant.scale` (R192 to R200, R279, R281) -/

/-- An FP32 word is not a number. -/
def isNan32 (x : Nat) : Bool := decide (fpOf fp32 x = .nan)

/-- A code of the instance, whether it saturated, and whether its feed word is poisoned (R192 to R194, R281). -/
def quantOne (x : Nat × Bool) (sc : Nat) (zero : Bool) : BitVec 8 × Bool × Bool :=
  if x.2 || isNan32 x.1 then (0, false, true)
  else if zero && fpFinite fp32 x.1 then (0, false, false)
  else
    let q := quantise x.1 sc
    (BitVec.ofInt 8 q.1, q.2, false)

/-- The codes of one token, padded with code 0 to K_STRIDE (R239). -/
def quantRow (l : List (Nat × Bool)) (sc : Nat) (zero : Bool) : List (BitVec 8 × Bool × Bool) :=
  l.map (fun x => quantOne x sc zero) ++ List.replicate ((l.length + 255) / 256 * 256 - l.length) (0, false, false)

/-- What a `quant.scale` reads: its record and its source rows (R279). -/
def Op.quantRanges (o : Op) : List (Nat × Nat) :=
  (o.dn 44 6, 128) :: (List.range (o.dn 28 2)).map (fun j => (o.dn 16 6 + j * o.dn 24 4, o.dn 32 4 * (srcFmt (bit (o.dn 22 1) 0)).bytes))

/-- QUANT_SCALE (R196, R279): it waits while a unit holds what it reads (R306); then the record is read and checked, the instance quantised, codes and scale word written in every selected field; the push
follows at the op's completion. -/
def execQuantScale (k : Nat) (s : State) : Host.Outcome State Fault Refusal :=
  .next (admitOp k 0x11 (fun o s =>
    let fs := selected (o.dn 40 4)
    let unit := fs.headD 0
    let tr := o.dn 44 6
    let fmt := srcFmt (bit (o.dn 22 1) 0)
    if (s.field unit).quantBusy ≠ 0 ∨ heldAny s o.quantRanges = true then s
    else
      let s := touch tr 128 (setAdmitted k s)
      let bad := anyBad s tr 128
      let t := Tracker.ofBytes (rdBytes s tr 128)
      if bad || !t.valid then retire k true 11 0 (modOp k (Op.flagIf bad fPoison) s)
      else
        let rows := (List.range (o.dn 28 2)).map (fun j => (List.range (o.dn 32 4)).map (fun i => o.dn 16 6 + j * o.dn 24 4 + i * fmt.bytes))
        let s := touchAll ((List.range (o.dn 28 2)).map (fun j => (o.dn 16 6 + j * o.dn 24 4, o.dn 32 4 * fmt.bytes))) s
        let xs := rows.map (elems s fmt)
        let m := rangeOf ((xs.flatten.filter (fun x => !x.2)).map Prod.fst)
        let seeded := t.seeds
        let sc := scaleOf t.headF (if seeded then m else t.windowMax)
        let codes := (xs.map (fun l => quantRow l sc.s sc.zero)).flatten
        let sat := sc.sat || codes.any (fun x => x.2.1)
        let pois := codes.any (fun x => x.2.2)
        let off := o.dn 36 3
        let s := fs.foldl (fun (s : State) f =>
          let a := feedAddr f off
          let s := hide o.stream (feedAddr f (off - 8)) (8 + codes.length) s
          let s := wrClean (feedAddr f (off - 8)) (leBytes 8 (feedWord sc.s sat sc.zero seeded t.stepUsed)) s
          wrBytes a (codes.map (fun x => x.1)) (fun w => (List.range 8).any (fun i => (codes.getD (8 * w + i - a) (0, false, false)).2.2)) s) s
        let s := s.modField unit (fun x => { x with quantBusy := 0xF })
        modOp k (fun o =>
          let o := { o with stage := 3, push := [m, sc.s, b01 sat, b01 sc.zero, b01 seeded, b01 (t.fill == 0)] }
          ((o.flagIf sat fSat).flagIf sc.zero fZero).flagIf pois fPoison) s) s)

/-- TRACKER_PUSH (R197): one atomic read-modify-write of the record as it now stands. -/
def trackerPush (o : Op) (s : State) : State :=
  match o.push with
  | [m, sc, sat, zr, seeded, z] =>
    let tr := o.dn 44 6
    let s := touch tr 128 s
    let t := Tracker.ofBytes (rdBytes s tr 128)
    let s := hide o.stream tr 128 s
    wrClean tr (Tracker.toBytes (t.push (z == 1) m sc (sat == 1) (zr == 1) (seeded == 1))) s
  | _ => s

end Sys2Proof.Machine
end

