-- ==== Sys2Proof/Machine/Swap.lean ====
section
/-! DEFINITION. Toll gates, arming, the rewriting of layers and the drain timeout (R326 to R331), and the retire points of the op kinds
(R260). -/

namespace Sys2Proof.Machine

open Sys2Proof

/-! ### Swap state -/

/-- An entry whose codes, scales or next version lie on a fenced stack or channel (R321, R334). -/
def markDamaged (s : State) (d : Dir) : Dir :=
  ((s.units.filter (fun u => u.2.state == 3)).map Prod.fst).foldl (fun d u => d.damage s u) { d with damaged := false }

/-- Directory indices of the layers of partition `p` that are not IDLE. -/
def layersOf (s : State) (p : Nat) : List Nat := (s.dir.filter (fun e => e.2.valid && e.2.part == p && e.2.swap != 0)).map Prod.fst

/-- Indices of the old requests of partition `p` (R327). -/
def oldRequests (s : State) (p : Nat) : List Nat := (s.manifest.filter (fun e => oldRequest s p e.1 e.2)).map Prod.fst

/-- Old request `i` can still reach a layer of order `ord` of partition `p` (R328). -/
def canReach (s : State) (p ord i : Nat) : Bool :=
  !(s.swapOf p).trackCarry || match (s.entry i).gateOrder with
    | none => true
    | some g => decide (g < ord)

/-- Some old request can still reach the layer (R328). -/
def reachable (s : State) (p ord : Nat) : Bool := (oldRequests s p).any (canReach s p ord)

/-- The handle of directory index `i`. -/
def handleOf (s : State) (i : Nat) : Nat := i + 65536 * (s.dirEntry i).gen

/-- The swap of partition `p` is armed (R327): every staged handle becomes ARMED, and old requests are tracked from now; those that an
earlier swap still tracks keep the order they have passed. -/
def armSwap (p policy timeout : Nat) (s : State) : State :=
  let known := oldRequests s p
  let s := s.modSwapOf p (fun w => { w with armed := true, policy := policy, timeout := timeout, armedAt := s.tim.beat, timedOut := false
                                            layersDone := false, trackE := w.epoch, trackCarry := decide (policy = 1) })
  let s := (layersOf s p).foldl (fun (s : State) i => s.modDirEntry i (fun d => if d.swap = 1 then { d with swap := 2 } else d)) s
  { s with manifest := tmap {} s.manifest (fun i e => if partOfEntry s i = p ∧ !known.contains i then { e with gateOrder := none } else e) }

/-- The entries have passed a gate of order `ord` in their current token (R327). -/
def passGate (l : List Nat) (ord : Nat) (s : State) : State :=
  l.foldl (fun (s : State) i => s.modEntry i (fun e => { e with gateOrder := some (match e.gateOrder with
    | none => ord
    | some g => max g ord) })) s

/-- The entries are held by gate `k` (R249, R326). -/
def holdEntries (k : Nat) (l : List Nat) (s : State) : State :=
  l.foldl (fun (s : State) i => s.modEntry i (fun e => if e.state < 2 then { e with state := 2 } else e)) (modOp k (fun o => { o with held := l }) s)

/-! ### Toll gates (R326) -/

/-- EPOCH, WHANDLE, POLICY and TIMEOUT of a gate (R240). -/
def Op.gEpoch (o : Op) : Nat := o.dn 16 4
def Op.gHandle (o : Op) : Nat := o.dn 20 4
def Op.gPolicy (o : Op) : Nat := bits (o.dn 24 1) 0 1
def Op.gTimeout (o : Op) : Nat := if o.dn 26 2 = 0 then 5000 else o.dn 26 2

/-- An admitted gate compares the epochs of its requests with its layer's (R326). -/
def gateActs (k e i : Nat) (l : List Nat) (s : State) : State :=
  let d := s.dirEntry i
  match (l.map (fun j => (s.entry j).epoch)).eraseDups with
  | [] => if e ≤ d.epoch then retire k false 0 0 s else s
  | [x] =>
    if x = d.epoch then retire k false 0 0 (passGate l d.order s)
    else if x = e ∧ d.epoch < e ∧ d.swap ≠ 0 ∧ d.nextEpoch = e then holdEntries k l s
    else retire k true 6 0 s
  | _ => retire k true 6 0 s

/-- TOLLGATE (R326, R327). -/
def execTollgate (k : Nat) (s : State) : Host.Outcome State Fault Refusal :=
  .next (admitOp k 0x33 (fun o s =>
    let p := o.part s
    let i := handleIdx o.gHandle
    let w := s.swapOf p
    let mine := o.gEpoch != 0 && w.epoch == o.gEpoch
    if !handleValid s o.gHandle || (s.dirEntry i).part != p then retire k true 2 20 s
    else if mine && w.armed && (o.gPolicy != w.policy || o.gTimeout != w.timeout) then retire k true 2 24 s
    else
      let s := if mine && !w.armed then armSwap p o.gPolicy o.gTimeout s else s
      let l := (listOf s o).eraseDups
      gateActs k o.gEpoch i l (setAdmitted k (nameEntries k o s))) s)

/-- A waiting gate whose layer has reached its epoch (R326). -/
def gateOpen (s : State) (o : Op) : Bool :=
  o.code == 0x33 && o.stage == 2 && handleValid s o.gHandle && decide (o.gEpoch ≤ (s.dirEntry (handleIdx o.gHandle)).epoch)

/-- The gates of layer `i` that its new epoch opens retire and release their entries (R326, R331). -/
def openGates (i : Nat) (s : State) : State :=
  ((s.ops.filter (fun o => gateOpen s o && handleIdx o.gHandle == i && o.abortAt.isNone)).map (fun o => o.key)).foldl
    (fun s k => retire k false 0 0 s) s

/-! ### Rewriting (R328, R331) -/

/-- The ARMED layer that rewrites next: no old request can reach it, HOLDERS is 0, lowest ORDER first (R328). -/
def nextLayer (s : State) (p : Nat) : Option Nat :=
  ((layersOf s p).filter (fun i =>
    let d := s.dirEntry i
    d.swap == 2 && d.holders == 0 && !reachable s p d.order)).foldl (fun b i =>
      match b with
      | none => some i
      | some j => if (s.dirEntry i).order < (s.dirEntry j).order then some i else some j) none

/-- LAYER_REWRITE_START (R328): one layer at a time in each partition. -/
def execLayerRewriteStart (p : Nat) (s : State) : Host.Outcome State Fault Refusal :=
  .next (
    let w := s.swapOf p
    if w.armed = true ∧ w.rewriting = none ∧ s.flt.deviceError = false ∧ resetting s p = false then
      match nextLayer s p with
      | some i => (s.modDirEntry i (fun d => { d with swap := 3 })).modSwapOf p (fun w => { w with rewriting := some i, layersDone := true })
      | none => s
    else s)

/-- The rewritten entry: the next version becomes the current one (R331). -/
def Dir.rewritten (e : Nat) (d : Dir) : Dir :=
  { d with epoch := e, zeroCol := d.nextZeroCol, nextZeroCol := false, nextPtr := 0, nextScalePtr := 0, nextEpoch := 0, swap := 0 }

/-- A swap whose last layer has ended: SWAP_DONE; old requests go on switching (R329, R331). -/
def swapDone (p e : Nat) (s : State) : State :=
  let s := post 0x0502 (leBytes 1 p ++ leBytes 4 e) s
  s.modSwapOf p (fun w => { w with epoch := 0, armed := false, handles := [], doneHandles := w.handles })

/-- LAYER_REWRITE_DONE (R331): the next codes and scales stand at PTR and SCALE_PTR. The rewrite goes on while a unit holds its requests (R306). -/
def execLayerRewriteDone (p : Nat) (s : State) : Host.Outcome State Fault Refusal :=
  .next (
    let w := s.swapOf p
    match w.rewriting with
    | none => s
    | some i =>
      let d := s.dirEntry i
      if heldAny s [(d.nextScalePtr, 4 * d.n), (d.scalePtr, 4 * d.n), (d.nextPtr, codeBytes d.k d.n), (d.ptr, codeBytes d.k d.n)] then s
      else
      let s := copyShown d.nextScalePtr d.scalePtr (4 * d.n) (copyShown d.nextPtr d.ptr (codeBytes d.k d.n) s)
      let s := (s.modDirEntry i (fun d => markDamaged s (d.rewritten w.epoch))).modSwapOf p (fun w => { w with rewriting := none })
      let s := openGates i (post 0x0501 (leBytes 4 (handleOf s i)) s)
      if (layersOf s p).isEmpty then swapDone p w.epoch s else s)

/-- SWAP_DRAIN_TIMEOUT (R330): TIMEOUT ms after arming under drain, the old requests left are treated as under carry-over. -/
def execSwapDrainTimeout (p : Nat) (s : State) : Host.Outcome State Fault Refusal :=
  .next (
    let w := s.swapOf p
    if w.armed = true ∧ w.policy = 0 ∧ w.timedOut = false ∧ w.armedAt + 1000 * w.timeout ≤ s.tim.beat ∧ (oldRequests s p).isEmpty = false then
      post 0x0503 (leBytes 1 p ++ leBytes 4 w.epoch ++ leBytes 4 (oldRequests s p).length)
        (s.modSwapOf p (fun w => { w with timedOut := true, trackCarry := true }))
    else s)

/-! ### OP_RETIRE (R260) -/

/-- Light slots whose samples decide the fade of the op's colours on the port of field `f` (R66, R140). -/
def fadeSlots (s : State) (o : Op) (f : Nat) : List Nat :=
  o.rm.colours.map (fun g =>
    let n := f / 4
    let i := match (s.lport n).source with
      | 0 => 4 * n + g
      | x => 64 + 4 * (x - 1) + g
    512 * (i / 5) + 160 + i % 5)

/-- The conditions of the beat of the op's last slice have been evaluated (R76, R157, R260): in the next beat, by the computations of its
fields' light and thermal slots; a computation that is skipped evaluates nothing, and the beat passes. -/
def evaluated (s : State) (o : Op) : Bool :=
  o.sliceBeat.isNone || decide (o.evalBeat < s.tim.beat) ||
  (o.evalBeat == s.tim.beat && ((o.pos.map (fun p => o.members p.root)).flatten).all (fun f =>
    (zoneSlots f ++ fadeSlots s o f).all (fun n => (s.loop n).lastBeat == some s.tim.beat)))

/-- OP_RETIRE (R260): an op that reached its retire point retires `done`, a fence once the ops that it orders have (R244); a recorded abort stands (R264). The
push of a `quant.scale` waits while a unit holds it (R306). -/
def execOpRetire (k : Nat) (s : State) : Host.Outcome State Fault Refusal :=
  .next (
    match opOf s k with
    | none => s
    | some o =>
      if o.abortAt.isSome then s
      else if o.code = 0x33 then (if gateOpen s o then retire k false 0 0 s else s)
      else if o.code = 0x30 then (if o.stage = 2 ∧ fenceMet s o = true then retire k false 0 0 s else s)
      else if o.stage ≠ 3 then s
      else if o.code = 0x01 then (if evaluated s o then retire k false 0 0 s else s)
      else if o.code = 0x11 then (if held s (o.dn 44 6) 128 then s else retire k false 0 0 (trackerPush o s))
      else retire k false 0 o.detail s)

end Sys2Proof.Machine
end

