-- ==== Sys2Proof/Machine/Weights.lean ====
section
/-! DEFINITION. Weights: ingest, the packed-code format, the weight directory, and the `model` commands (R312 to R335, R512, R514). -/

namespace Sys2Proof.Machine

open Sys2Proof

/-! ### Regions and capacity (R309, R318, R332) -/

/-- [a, a+n) lies wholly inside one region of `kind` of partition `p`. -/
def inRegion (s : State) (p kind a n : Nat) : Bool :=
  s.regions.any (fun r => r.2.set && r.2.kind == kind && r.2.part == p && decide (r.2.base ≤ a ∧ a + n ≤ r.2.base + r.2.len))

/-- [a, a+n) lies inside one region of `kind` of the partition's HBM. -/
def inHbmRegion (s : State) (p kind a n : Nat) : Bool := decide (a < 0x400000000000) && inRegion s p kind a n

/-- [a, a+n) lies inside one spill region of the DDR tier, which DDRTIER makes present (R3, R318). -/
def inSpill (s : State) (p a n : Nat) : Bool := licensed s 2 && decide (0x400000000000 ≤ a) && inRegion s p 5 a n

/-- An address of the DDR tier. -/
def inDdr (a : Nat) : Bool := decide (0x400000000000 ≤ a ∧ a < 0x7F0000000000)

/-- The capacity cases of R318 for a version to publish (`target` 0) or to stage (`target` 1, `spilled` from the handle). -/
def noCapacity (s : State) (p target : Nat) (spilled spill : Bool) (dest scale k n hot : Nat) : Bool :=
  let ok := fun (a len : Nat) =>
    if target = 0 then inHbmRegion s p 0 a len || (spill && inSpill s p a len)
    else inHbmRegion s p 4 a len || (spilled && inSpill s p a len)
  !ok dest (codeBytes k n) || !ok scale (4 * n) || (inDdr dest && !spill) || (spill && !inHbmRegion s p 4 hot (codeBytes k n))

/-! ### The directory (R321 to R324) -/

/-- The 64 bytes of a directory entry (R321). -/
def dirBytes (d : Dir) : List Byte :=
  leBytes 6 d.ptr ++ leBytes 2 d.gen ++ leBytes 6 d.scalePtr ++
  leBytes 1 (d.swap % 4 + 4 * b01 d.valid + 8 * b01 d.zeroCol + 16 * b01 d.spilled + 32 * b01 d.damaged + 64 * (d.part % 4)) ++
  leBytes 1 (b01 d.nextZeroCol) ++ leBytes 4 d.epoch ++ leBytes 4 d.k ++ leBytes 4 d.n ++ leBytes 2 d.order ++ leBytes 2 d.holders ++
  leBytes 6 d.nextPtr ++ leBytes 2 d.prevHolders ++ leBytes 6 d.nextScalePtr ++ [0, 0] ++ leBytes 4 d.nextEpoch ++ leBytes 6 d.hotStage ++
  List.replicate 6 0

/-- The pointer switch (R323): one update of the entry; the ops that hold the version before go on counting in PREV_HOLDERS. -/
def switchPointer (i : Nat) (d : Dir) (s : State) : State :=
  let old := s.dirEntry i
  let s := s.setDirEntry i (markDamaged s { d with prevHolders := old.holders, holders := 0 })
  { s with ops := s.ops.map (fun o => if o.holds = some i then { o with holdsPrev := true } else o) }

/-- A switch would meet holders of the version before, or a swap (R323). -/
def switchBusy (d : Dir) : Bool := d.prevHolders != 0 || d.swap != 0

/-- The lowest directory index not in use (R321). -/
def freeIndex (s : State) : Option Nat := (List.range 16383).map (· + 1) |>.find? (fun i => !(s.dirEntry i).valid)

/-! ### Staging (R325) -/

/-- The epoch refuses a stage: not above every handle's that is no layer of the swap at it, or another swap epoch is staged or armed. -/
def stageEpochBad (s : State) (p e : Nat) : Bool :=
  let w := s.swapOf p
  s.dir.any (fun x => x.2.valid && x.2.part == p && decide (e ≤ x.2.epoch) && !(w.epoch == e && w.handles.contains (x.1 + 65536 * x.2.gen))) ||
  (w.epoch != 0 && w.epoch != e)

/-- The next version's ranges refuse a stage (R325). -/
def stagePlaceBad (s : State) (d : Dir) (a n : Nat) : Bool := !inHbmRegion s d.part 4 a n && !(d.spilled && inSpill s d.part a n)

/-- A version becomes the next version of index `i` (R325). -/
def stageVersion (i e ptr scale order : Nat) (zero : Bool) (s : State) : State :=
  let d := s.dirEntry i
  let w := s.swapOf d.part
  let s := s.setDirEntry i (markDamaged s { d with nextPtr := ptr, nextScalePtr := scale, nextEpoch := e, nextZeroCol := zero, order := order
                                                   swap := if w.armed then 2 else 1 })
  s.modSwapOf d.part (fun w => { w with epoch := e, handles := (if w.epoch = e then w.handles else []) ++ [i + 65536 * d.gen] })

/-! ### The packed-code format (R319, R320) -/

/-- What the next block of a packed stream gives. -/
inductive RowRes where
  | bad
  | more
  | row (codes rest : List Byte)
  deriving DecidableEq, Repr

/-- Bytes strictly ascending. -/
def ascending : List Byte → Bool
  | a :: b :: l => decide (a.toNat < b.toNat) && ascending (b :: l)
  | _ => true

/-- The 4-bit two's-complement code in the low half of `v`. -/
def nibble (v : Nat) : Byte := BitVec.ofInt 8 (signed 4 v)

/-- One block: 256 codes of a tile row (R319). -/
def packedRow : List Byte → RowRes
  | [] => .more
  | m :: l =>
    match m.toNat with
    | 0 => if l.length < 256 then .more else .row (l.take 256) (l.drop 256)
    | 1 => .row (List.replicate 256 0) l
    | 2 =>
      if l.length < 128 then .more
      else .row (((l.take 128).map (fun b => [nibble b.toNat, nibble (b.toNat / 16)])).flatten) (l.drop 128)
    | 3 =>
      match l with
      | [] => .more
      | c :: l =>
        let n := c.toNat + 1
        if 64 < n then .bad
        else if l.length < 2 * n then .more
        else
          let cols := l.take n
          let codes := (l.drop n).take n
          if !ascending cols || codes.any (fun v => v == 0 || v == cellOff) then .bad
          else .row ((List.range 256).map (fun i => ((cols.zip codes).find? (fun x => x.1.toNat == i)).map Prod.snd |>.getD 0)) (l.drop (2 * n))
    | 4 => .row (List.replicate 256 cellOff) l
    | _ => .bad

/-- First row and first column of tile row `t` of a K-row tensor (R312). -/
def rowPlace (k t : Nat) : Nat × Nat :=
  let kt := (k + 255) / 256
  (t / 256 % kt * 256 + t % 256, t / 256 / kt * 256)

/-- Padding carries −128, and no position of the K × N area does (R320). -/
def rowFits (k n t : Nat) (codes : List Byte) : Bool :=
  let (r, c0) := rowPlace k t
  ((List.range 256).zip codes).all (fun x => (x.2 == cellOff) == !(decide (r < k) && decide (c0 + x.1 < n)))

/-- The rows that a body gives from tile row `t` on, at most `fuel` of them: rows, the rest, and whether it fails. -/
def packedRows (k n : Nat) : Nat → Nat → List Byte → List (List Byte) × List Byte × Bool
  | 0, _, l => ([], l, false)
  | fuel + 1, t, l =>
    match packedRow l with
    | .bad => ([], l, true)
    | .more => ([], l, false)
    | .row codes rest =>
      if rowFits k n t codes then
        let (rs, l', b) := packedRows k n fuel (t + 1) rest
        (codes :: rs, l', b)
      else ([], l, true)

/-- The 32-byte header agrees with the context (R319). -/
def packedHeader (k n : Nat) (l : List Byte) : Bool :=
  decide (bytesAt l 0 4 = 0x4B435055 ∧ bytesAt l 4 2 = 1 ∧ bytesAt l 6 2 = 0 ∧ bytesAt l 8 4 = k ∧ bytesAt l 12 4 = n ∧ bytesAt l 28 4 = 0)

/-- What a packed stream received so far holds. -/
structure Packed where
  rows : List (List Byte)
  scales : List Byte
  bad : Bool
  complete : Bool
  deriving DecidableEq, Repr

/-- A packed stream received so far, checked as far as it reaches; length and CRC at the last byte (R320). -/
def packedParse (k n : Nat) (l : List Byte) : Packed :=
  if l.length < 32 then { rows := [], scales := [], bad := false, complete := false }
  else
    let total := 256 * ((k + 255) / 256) * ((n + 255) / 256)
    let body := l.drop 32
    let (rows, rest, bad) := packedRows k n total 0 body
    if !packedHeader k n l || bad then { rows := rows, scales := [], bad := true, complete := false }
    else if rows.length < total then { rows := rows, scales := [], bad := false, complete := false }
    else
      let sc := rest.take (4 * n)
      let scBad := (List.range (sc.length / 4)).any (fun i => !scaleValid (bytesAt sc (4 * i) 4))
      let last : Bool := decide (4 * n ≤ rest.length)
      let len := body.length - rest.length
      let endBad := last && (decide (rest.length ≠ 4 * n ∨ bytesAt l 16 8 ≠ len) || crc32c body != bytesAt l 24 4)
      { rows := rows, scales := sc, bad := scBad || endBad, complete := last && !scBad && !endBad }

/-- Column `c` of a packed version holds only codes 0 (R317). -/
def packedZeroCol (k : Nat) (rows : List (List Byte)) (c : Nat) : Bool :=
  let kt := (k + 255) / 256
  (List.range k).all (fun r => ((rows.getD ((c / 256 * kt + r / 256) * 256 + r % 256) []).getD (c % 256) 0) == 0)

/-! ### Ingest (R314 to R317) -/

/-- Element format of SFMT. -/
def sfmtOf (v : Nat) : FpFmt := match v with | 1 => fp16 | 2 => fp32 | _ => bf16

/-- Offset of element (k, n0 + j) from a chunk's source address (R314). -/
def LoadCtx.srcOff (x : LoadCtx) (k j : Nat) : Nat :=
  let e := (sfmtOf x.sfmt).bytes
  if x.transpose then j * x.ld + k * e else k * x.ld + j * e

/-- Bytes of a wide chunk's source from its address on. -/
def LoadCtx.srcLen (x : LoadCtx) (cn : Nat) : Nat := x.srcOff (x.k - 1) (cn - 1) + (sfmtOf x.sfmt).bytes

/-- The bytes of a chunk's source and the offsets of its poisoned words: a host read's (a read that fails gives no byte), or device memory's. -/
def chunkSource (s : State) (kind src len : Nat) (data : List Byte) (bad : List Nat) : List Byte × (Nat → Bool) :=
  if kind = 0 then (data, fun i => decide (data.length ≤ i) || bad.any (fun b => decide (b ≤ i ∧ i < b + 8)))
  else (rdBytes s src len, fun i => decide (len ≤ i) || wordBad s ((src + i) / 8))

/-- Element (k, j) of a wide chunk as FP32, and whether it counts as not finite (R316). -/
def LoadCtx.elem (x : LoadCtx) (src : List Byte × (Nat → Bool)) (k j : Nat) : Nat × Bool :=
  let f := sfmtOf x.sfmt
  let o := x.srcOff k j
  let v := toFp32 f (bytesAt src.1 o f.bytes)
  (v, src.2 o || !fpFinite fp32 v)

/-- The first element of a wide chunk that is not finite, lowest row first (assumption log 22): (k, j). -/
def LoadCtx.firstBad (x : LoadCtx) (src : List Byte × (Nat → Bool)) (cn : Nat) : Option (Nat × Nat) :=
  (List.range x.k).findSome? (fun k => ((List.range cn).find? (fun j => (x.elem src k j).2)).map (fun j => (k, j)))

/-- The scale of column j of a wide chunk (R201). -/
def LoadCtx.colScale (x : LoadCtx) (src : List Byte × (Nat → Bool)) (j : Nat) : ScaleOf :=
  scaleOf fp32One (rangeOf ((List.range x.k).map (fun k => (x.elem src k j).1)))

/-- The 256 codes of row `r` of the column block of a wide chunk that starts at its column `j0`, padding included (R312, R315). -/
def LoadCtx.codeRow (x : LoadCtx) (src : List Byte × (Nat → Bool)) (scs : List ScaleOf) (cn j0 r : Nat) : List Byte :=
  (List.range 256).map (fun c =>
    let j := j0 + c
    if r < x.k ∧ j < cn then
      let sc := scs.getD j { s := fp32One, sat := false, zero := true }
      if sc.zero then 0 else BitVec.ofInt 8 (quantise (x.elem src r j).1 sc.s).1
    else cellOff)

/-- What stands in STAGE after a wide chunk: undefined (R315), so free values. -/
def stageScratch (x : LoadCtx) (s : State) : State :=
  let s' := wrShown x.stage ((List.range x.stageLen).map (fun i => BitVec.ofNat 8 (Config.freeNat (s.free + i)))) s
  { s' with free := s.free + x.stageLen }

/-- A wide chunk's codes and scales are written (R315). -/
def writeWide (x : LoadCtx) (src : List Byte × (Nat → Bool)) (n0 cn : Nat) (s : State) : State :=
  let scs := (List.range cn).map (x.colScale src)
  let kt := (x.k + 255) / 256
  let blocks := (List.range ((cn + 255) / 256)).map (fun b => ((List.range (256 * kt)).map (fun r => x.codeRow src scs cn (256 * b) r)).flatten)
  let s := wrShown (x.dest + 65536 * kt * (n0 / 256)) blocks.flatten s
  wrShown (x.destScale + 4 * n0) ((scs.map (fun sc => leBytes 4 sc.s)).flatten) s

/-- The context of number `i` fails (R316). -/
def failCtx (i : Nat) (s : State) : State := s.modCtx i (fun x => { x with failed := true, busy := false })

/-- The end of a wide chunk. -/
def endWide (i : Nat) (c : Cmd) (data : List Byte) (bad : List Nat) (s : State) : State × Reply :=
  let x := s.ctx i
  let n0 := c.at 20 4
  let cn := c.at 32 4
  let len := x.srcLen cn
  let s := if c.at 17 1 = 0 then s else touch (c.at 24 8) len s
  let src := chunkSource s (c.at 17 1) (c.at 24 8) len data bad
  match x.firstBad src cn with
  | some (k, j) => (stageScratch x (failCtx i s), { status := stOutOfRange, result := leBytes 4 k ++ leBytes 4 (n0 + j) })
  | none =>
    let s := writeWide x src n0 cn (stageScratch x s)
    let zero := (List.range cn).any (fun j => (x.colScale src j).zero)
    (s.modCtx i (fun y => { y with ranges := y.ranges ++ [(n0, cn)], zeroCol := y.zeroCol || zero, busy := false }), {})

/-- The end of a packed chunk: its newly complete rows, and the scales once the stream is complete, are written. -/
def endPacked (i : Nat) (c : Cmd) (data : List Byte) (bad : List Nat) (s : State) : State × Reply :=
  let x := s.ctx i
  let len := c.at 40 8
  let s := if c.at 17 1 = 0 then s else touch (c.at 24 8) len s
  let src := chunkSource s (c.at 17 1) (c.at 24 8) len data bad
  if (List.range len).any src.2 then (failCtx i s, .no stOutOfRange)
  else
    let stream := x.stream ++ src.1.take len
    let old := packedParse x.k x.n x.stream
    let new := packedParse x.k x.n stream
    if new.bad || x.complete then (failCtx i s, .no stOutOfRange)
    else
      let s := wrShown (x.dest + 256 * old.rows.length) ((new.rows.drop old.rows.length).flatten) s
      let s := if new.complete then wrShown x.destScale new.scales s else s
      let zero := new.complete && (List.range x.n).any (packedZeroCol x.k new.rows)
      (s.modCtx i (fun y => { y with stream := stream, complete := new.complete, zeroCol := zero, busy := false }), {})

/-- Columns [n0, n0+cn) meet a range already delivered (R315). -/
def overlaps (l : List (Nat × Nat)) (n0 cn : Nat) : Bool := l.any (fun r => decide (n0 < r.1 + r.2 ∧ r.1 < n0 + cn))

/-- Every column, or every byte of the stream, has been delivered (R317). -/
def LoadCtx.delivered (x : LoadCtx) : Bool := if x.sfmt = 3 then x.complete else (x.ranges.map Prod.snd).sum == x.n

/-! ### Commands -/

/-- The checks of a partition number at byte `i`. -/
def partChecks (s : State) (c : Cmd) (i : Nat) : List (Bool × Reply) := [badField (decide (3 < c.at i 1)) i, outOfRange (decide (s.net.parts ≤ c.at i 1)) i]

/-- The checks of `model.load.begin` (R314, R318); its fields stand in the extended buffer. -/
def loadBeginChecks (s : State) (c : Cmd) : List (Bool × Reply) :=
  let b := fun (i n : Nat) => c.at (64 + i) n
  let h := b 0 4
  let d := s.dirEntry (handleIdx h)
  let p := b 38 1
  let wide := b 5 1 < 3
  let spill := b 7 1 == 1
  [ c.extNeed 64, c.rsvd 16 64, outOfRange (h != 0 && !handleValid s h || (h == 0 && b 4 1 == 1)) 64, badField (decide (1 < b 4 1)) 68,
    badField (decide (3 < b 5 1)) 69, badField (decide (1 < b 6 1)) 70, badField (decide (1 < b 7 1)) 71,
    outOfRange (decide (b 8 4 = 0 ∨ 1048576 < b 8 4) || (h != 0 && b 8 4 != d.k)) 72,
    outOfRange (decide (b 12 4 = 0 ∨ 65536 < b 12 4) || (h != 0 && b 12 4 != d.n)) 76,
    outOfRange (b 20 4 == 0) 84, badField (b 24 6 % 65536 != 0) 88, badField (b 32 6 % 64 != 0) 96 ] ++ partChecks s c 102 ++
  [ outOfRange (h != 0 && p != d.part) 102, c.rsvd 103 104, outOfRange (!wide && b 40 6 != 0) 104, c.rsvd 110 112,
    outOfRange (!wide && b 48 8 != 0) 112, outOfRange (!spill && b 56 6 != 0) 120, c.rsvd 126 128,
    refuse (resetting s p) stPartitionResetting,
    refuse ((List.range 4).all (fun i => (s.ctx (4 * p + i)).open_)) stNoResource,
    refuse (noCapacity s p (b 4 1) (h != 0 && d.spilled) spill (b 24 6) (b 32 6) (b 8 4) (b 12 4) (b 56 6) ||
      (wide && !inHbmRegion s p 4 (b 40 6) (b 48 8))) stCapacity ]

/-- The load context that `model.load.begin` opens (R314). -/
def loadContext (c : Cmd) : LoadCtx :=
  let b := fun (i n : Nat) => c.at (64 + i) n
  { open_ := true, handle := b 0 4, target := b 4 1, sfmt := b 5 1, transpose := b 6 1 == 1, spill := b 7 1 == 1, k := b 8 4, n := b 12 4
    ld := b 16 4, epoch := b 20 4, dest := b 24 6, order := b 30 2, destScale := b 32 6, stage := b 40 6, stageLen := b 48 8, hotStage := b 56 6 }

/-- MODEL_LOAD_BEGIN (R314, R318): the lowest free of the partition's four contexts. -/
def execModelLoadBegin (k : Nat) (s : State) : Host.Outcome State Fault Refusal :=
  .next (runCmd k 0x0501 (fun c s =>
    let p := c.at 102 1
    checked (loadBeginChecks s c)
      (fun s =>
        let i := 4 * p + ((List.range 4).find? (fun i => !(s.ctx (4 * p + i)).open_)).getD 0
        (s.setCtx i (loadContext c), { result := leBytes 1 i })) s) s)

/-- The checks that name an open context at byte 16. -/
def ctxChecks (s : State) (c : Cmd) : Bool × Reply := outOfRange (decide (15 < c.at 16 1) || !(s.ctx (c.at 16 1)).open_) 16

/-- The checks of `model.load.chunk` (R315). -/
def loadChunkChecks (s : State) (c : Cmd) : List (Bool × Reply) :=
  let i := c.at 16 1
  let x := s.ctx i
  let wide : Bool := decide (x.sfmt < 3)
  let n0 := c.at 20 4
  let cn := c.at 32 4
  let len := if wide then x.srcLen cn else c.at 40 8
  let dev := c.at 17 1 == 1
  [ ctxChecks s c, outOfRange x.failed 16, badField (decide (1 < c.at 17 1)) 17, c.rsvd 18 20,
    outOfRange (if wide then n0 % 256 != 0 || decide (x.n ≤ n0) else n0 != 0) 20,
    outOfRange (dev && !reachRange s .host false (c.at 24 8) len) 24,
    outOfRange (if wide then cn == 0 || decide (x.n < n0 + cn) || (cn % 256 != 0 && n0 + cn != x.n) else cn != 0) 32,
    c.rsvd 36 40, outOfRange (if wide then c.at 40 8 != 0 else c.at 40 8 == 0) 40, c.rsvd 48 64,
    outOfRange (wide && (decide (x.stageLen < x.k * cn * (sfmtOf x.sfmt).bytes) || overlaps x.ranges n0 cn)) 32,
    refuse (resetting s (i / 4)) stPartitionResetting, refuse x.busy stBusy ]

/-- What a chunk reads and writes on the device (R315, R320). -/
def LoadCtx.moved (x : LoadCtx) (c : Cmd) : List (Nat × Nat) :=
  let kt := (x.k + 255) / 256
  let wide : Bool := decide (x.sfmt < 3)
  (if c.at 17 1 = 0 then [] else [(c.at 24 8, if wide then x.srcLen (c.at 32 4) else c.at 40 8)]) ++
  (if wide then [(x.stage, x.stageLen), (x.dest + 65536 * kt * (c.at 20 4 / 256), 65536 * kt * ((c.at 32 4 + 255) / 256)), (x.destScale + 4 * c.at 20 4, 4 * c.at 32 4)]
   else [(x.dest, codeBytes x.k x.n), (x.destScale, 4 * x.n)])

/-- MODEL_LOAD_CHUNK (R315, R316, R320): the first arrival checks and starts, the second ends the chunk, once no unit holds its requests (R306). -/
def execModelLoadChunk (k : Nat) (data : List Byte) (bad : List Nat) (s : State) : Host.Outcome State Fault Refusal :=
  .next (
    match cmdOf s k with
    | some c =>
      if c.opcode = 0x0502 ∧ c.started ∧ !c.decided then
        let i := c.at 16 1
        if !(s.ctx i).busy || heldAny s ((s.ctx i).moved c) then s
        else
          let r := if (s.ctx i).sfmt = 3 then endPacked i c data bad s else endWide i c data bad s
          finishCmd k r.2 r.1
      else runCmd k 0x0502 (fun c s =>
        checked (loadChunkChecks s c)
          (fun s => (s.modCtx (c.at 16 1) (fun x => { x with busy := true }), { wait := true, commit := false })) s) s
    | none => s)

/-- MODEL_LOAD_END (R317, R323, R325). -/
def execModelLoadEnd (k : Nat) (s : State) : Host.Outcome State Fault Refusal :=
  .next (runCmd k 0x0503 (fun c s =>
    let i := c.at 16 1
    let x := s.ctx i
    let p := i / 4
    let j := handleIdx x.handle
    let d := s.dirEntry j
    let old := x.handle != 0
    let close := fun (s : State) => s.setCtx i {}
    match orElse [ ctxChecks s c, c.rsvd 17 64, refuse (resetting s p) stPartitionResetting, refuse x.busy stBusy ] with
    | some r => (s, r)
    | none =>
      if x.failed then (close s, .no stOutOfRange 16)
      else
        checked [ outOfRange (!x.delivered) 16, outOfRange (old && !handleValid s x.handle) 16,
                  outOfRange (x.target == 1 && stageEpochBad s p x.epoch) 16,
                  refuse (!old && (freeIndex s).isNone) stNoResource,
                  refuse (old && x.target == 0 && switchBusy d) stBusy, refuse (x.target == 1 && d.swap != 0) stBusy ]
          (fun s =>
            if x.target = 1 then
              (close (stageVersion j x.epoch x.dest x.destScale x.order x.zeroCol s), { result := leBytes 4 x.handle })
            else
              let j := if old then j else (freeIndex s).getD 0
              let base : Dir := if old then d else { gen := (s.dirEntry j).gen, part := p, k := x.k, n := x.n }
              let s := switchPointer j { base with ptr := x.dest, scalePtr := x.destScale, epoch := x.epoch, zeroCol := x.zeroCol, order := x.order
                                                   valid := true, spilled := inDdr x.dest
                                                   hotStage := if inDdr x.dest then x.hotStage else 0 } s
              (close s, { result := leBytes 4 (handleOf s j) })) s) s)

/-- MODEL_DIR_SET (R313, R318, R323). -/
def execModelDirSet (k : Nat) (s : State) : Host.Outcome State Fault Refusal :=
  .next (runCmd k 0x0504 (fun c s =>
    let h := c.at 16 4
    let i := handleIdx h
    let d := s.dirEntry i
    let spill := bit (c.at 30 1) 1
    checked [ outOfRange (!handleValid s h) 16, outOfRange (c.at 20 4 == 0) 20, badField (c.at 24 6 % 65536 != 0) 24,
              badField (decide (3 < c.at 30 1)) 30, c.rsvd 31 32, badField (c.at 32 6 % 64 != 0) 32, c.rsvd 38 40,
              outOfRange (!spill && c.at 40 6 != 0) 40, c.rsvd 46 64, refuse (resetting s d.part) stPartitionResetting,
              refuse (switchBusy d) stBusy, refuse (noCapacity s d.part 0 d.spilled spill (c.at 24 6) (c.at 32 6) d.k d.n (c.at 40 6)) stCapacity ]
      (fun s => (switchPointer i { d with ptr := c.at 24 6, scalePtr := c.at 32 6, epoch := c.at 20 4, zeroCol := bit (c.at 30 1) 0
                                          spilled := inDdr (c.at 24 6)
                                          hotStage := if inDdr (c.at 24 6) then c.at 40 6 else 0 } s, {})) s) s)

/-- The state of a partition's swap: 0 none, 1 staged, 2 armed, 3 every layer rewritten while old requests still switch (R514). -/
def swapState (s : State) (p : Nat) : Nat :=
  let w := s.swapOf p
  if w.epoch ≠ 0 then (if w.armed then 2 else 1) else if (oldRequests s p).isEmpty then 0 else 3

/-- The swap-state record (R514). -/
def swapRecord (s : State) (p : Nat) : List Byte :=
  let w := s.swapOf p
  let st := swapState s p
  let e := match st with | 0 => 0 | 3 => w.trackE | _ => w.epoch
  fitBytes 64 (leBytes 4 e ++ leBytes 1 (st + if 2 ≤ st then 4 * w.policy else 0) ++ [0] ++ leBytes 2 (if 2 ≤ st then w.timeout else 0) ++
    leBytes 4 (if 2 ≤ st then (oldRequests s p).length else 0) ++
    leBytes 4 (if 2 ≤ st then min 0xFFFFFFFF ((s.tim.beat - w.armedAt) / 1000) else 0) ++ leBytes 2 (layersOf s p).length)

/-- MODEL_DIR_READ (R335, R514). -/
def execModelDirRead (k : Nat) (s : State) : Host.Outcome State Fault Refusal :=
  .next (runCmd k 0x0505 (fun c s =>
    let f := c.at 18 2
    let n := c.at 20 2
    checked (c.extNeed (64 * n + 64) :: partChecks s c 16 ++ [ c.rsvd 17 18, outOfRange (decide (f = 0 ∨ 16383 < f)) 18, outOfRange (decide (16384 < f + n)) 20, c.rsvd 22 64,
              refuse (resetting s (c.at 16 1)) stPartitionResetting ])
      (fun s => (s, { output := swapRecord s (c.at 16 1) ++ ((List.range n).map (fun i => dirBytes (s.dirEntry (f + i)))).flatten })) s) s)

/-- MODEL_DIR_FREE (R324). -/
def execModelDirFree (k : Nat) (s : State) : Host.Outcome State Fault Refusal :=
  .next (runCmd k 0x0506 (fun c s =>
    let h := c.at 16 4
    let d := s.dirEntry (handleIdx h)
    checked [ outOfRange (!handleValid s h) 16, c.rsvd 20 64, refuse (resetting s d.part) stPartitionResetting,
              refuse (d.holders != 0 || switchBusy d) stBusy ]
      (fun s => (s.setDirEntry (handleIdx h) { d with valid := false, gen := (d.gen + 1) % 65536 }, {})) s) s)

/-- MODEL_SWAP_STAGE (R325). -/
def execModelSwapStage (k : Nat) (s : State) : Host.Outcome State Fault Refusal :=
  .next (runCmd k 0x0507 (fun c s =>
    let h := c.at 16 4
    let i := handleIdx h
    let d := s.dirEntry i
    let e := c.at 20 4
    checked [ outOfRange (!handleValid s h) 16, outOfRange (e == 0 || stageEpochBad s d.part e) 20,
              badField (c.at 24 6 % 65536 != 0) 24, outOfRange (stagePlaceBad s d (c.at 24 6) (codeBytes d.k d.n)) 24,
              badField (c.at 32 6 % 64 != 0) 32, outOfRange (stagePlaceBad s d (c.at 32 6) (4 * d.n)) 32,
              badField (decide (1 < c.at 38 1)) 38, c.rsvd 39 64, refuse (resetting s d.part) stPartitionResetting, refuse (d.swap != 0) stBusy ]
      (fun s => (stageVersion i e (c.at 24 6) (c.at 32 6) (c.at 30 2) (bit (c.at 38 1) 0) s, {})) s) s)

/-- The handles of a partition's swap, those already rewritten included, by ascending ORDER (R514). -/
def swapHandles (s : State) (p : Nat) : List Nat :=
  let w := s.swapOf p
  let l := match swapState s p with | 0 => [] | 3 => w.doneHandles | _ => w.handles
  (l.filter (handleValid s)).foldl (fun q h =>
    let o := (s.dirEntry (handleIdx h)).order
    q.filter (fun x => decide ((s.dirEntry (handleIdx x)).order ≤ o)) ++ [h] ++ q.filter (fun x => decide (o < (s.dirEntry (handleIdx x)).order))) []

/-- MODEL_SWAP_STATUS (R514). -/
def execModelSwapStatus (k : Nat) (s : State) : Host.Outcome State Fault Refusal :=
  .next (runCmd k 0x0508 (fun c s =>
    let p := c.at 16 1
    let l := swapHandles s p
    checked (c.extNeed (64 + 8 * l.length) :: partChecks s c 16 ++ [ c.rsvd 17 64,
              refuse (resetting s p) stPartitionResetting ])
      (fun s => (s, { output := swapRecord s p ++ (l.map (fun h =>
        let d := s.dirEntry (handleIdx h)
        leBytes 4 h ++ leBytes 2 d.order ++ leBytes 1 d.swap ++ leBytes 1 (b01 (decide (2 ≤ swapState s p) && reachable s p d.order)))).flatten })) s) s)

/-- The swap of partition `p` ends before any rewrite: its handles fall IDLE, and gates that hold a request retire `aborted` (R331). -/
def cancelSwap (p : Nat) (s : State) : State :=
  let w := s.swapOf p
  let s := (layersOf s p).foldl (fun (s : State) i => s.modDirEntry i (fun d =>
    markDamaged s { d with swap := 0, nextPtr := 0, nextScalePtr := 0, nextEpoch := 0, nextZeroCol := false })) s
  let s := s.modSwapOf p (fun v => { v with epoch := 0, armed := false, rewriting := none, handles := []
                                            trackE := if w.armed then 0 else v.trackE, trackCarry := v.trackCarry && !w.armed })
  ((s.ops.filter (fun o => o.code == 0x33 && o.part s == p && !o.held.isEmpty)).map (fun o => o.key)).foldl (fun s k => retire k true 6 0 s) s

/-- MODEL_SWAP_CANCEL (R331). -/
def execModelSwapCancel (k : Nat) (s : State) : Host.Outcome State Fault Refusal :=
  .next (runCmd k 0x0509 (fun c s =>
    let p := c.at 16 1
    let w := s.swapOf p
    checked (partChecks s c 16 ++ [ outOfRange (w.epoch == 0) 16, c.rsvd 17 64, refuse (resetting s p) stPartitionResetting,
              refuse (w.armed && w.layersDone) stBusy ])
      (fun s => (cancelSwap p s, {})) s) s)

/-- MODEL_PREFETCH (R333): the copy of a spilled tensor starts, unless its slot holds it. -/
def execModelPrefetch (k : Nat) (s : State) : Host.Outcome State Fault Refusal :=
  .next (runCmd k 0x050A (fun c s =>
    let h := c.at 16 4
    let d := s.dirEntry (handleIdx h)
    let a := d.hotStage
    checked [ outOfRange (!handleValid s h || !d.spilled) 16, c.rsvd 20 64, refuse (resetting s d.part) stPartitionResetting,
              refuse (hotUsed s a h d.epoch || s.wts.hotBusy.any (fun x => x.1 == a) || s.ops.any (fun o => o.copying && o.ptr == a)) stBusy ]
      (fun s => (if hotHolds s a h d.epoch then s
                 else { s with wts := { s.wts with hotBusy := tins a (h, d.epoch, d.ptr) (tdel s.wts.hotBusy a) } }, {})) s) s)

end Sys2Proof.Machine
end

