-- ==== Sys2Proof/Machine/Exec.lean ====
section
/-! DEFINITION. The `exec` and `manifest` commands but `exec.status` (R233, R241, R242, R248 to R250, R264, R266, R327, R332, R404, R512, R514). -/

namespace Sys2Proof.Machine

open Sys2Proof

/-! ### exec -/

/-- EXEC_SUBMIT (R233, R404). -/
def execExecSubmit (k : Nat) (s : State) : Host.Outcome State Fault Refusal :=
  .next (runCmd k 0x0601 (fun c s =>
    let st := c.at 16 1
    let x := s.stream st
    let a := c.at 24 6
    let home : Bool := match locOf s a with
      | .hbm p _ => p == partOfStream s st
      | _ => false
    checked [ badField (decide (63 < st)) 16, c.rsvd 17 24, badField (a % 64 != 0) 24, outOfRange (!home) 24, c.rsvd 30 32,
              outOfRange (decide (c.at 32 4 = 0 ∨ 65536 < c.at 32 4)) 32, c.rsvd 36 40, badField (c.at 40 6 % 16 != 0) 40, c.rsvd 46 64,
              refuse (resetting s (partOfStream s st)) stPartitionResetting, refuse (decide (256 ≤ x.subs.length)) stNoResource ]
      (fun s =>
        (s.setStream st { x with subCount := x.subCount + 1, subs := x.subs ++ [({ id := x.subCount, addr := a, count := c.at 32 4, cplBase := c.at 40 6, mb := c.src } : Submission)] },
         { status := stAccepted, result := leBytes 4 x.subCount ++ leBytes 4 (x.subs.length + 1) })) s) s)

/-- Descriptors of stream `st` that are queued and not issued: submission number and index. -/
def queuedOps (s : State) (st : Nat) : List (Nat × Nat) :=
  ((s.stream st).subs.map (fun u =>
    ((List.range (u.count - u.next)).filter (fun i => !u.skip.contains (u.next + i))).map (fun i => (u.id, u.next + i)))).flatten

/-- TAG of a queued descriptor. -/
def queuedTag (s : State) (st : Nat) (q : Nat × Nat) : Nat :=
  match (s.stream st).subs.find? (fun u => u.id == q.1) with
  | some u => rdNat s (u.addr + 64 * q.2 + 2) 2
  | none => 65536

/-- A queued op is taken by an abort or a partition reset: it retires at once with that reason, and its descriptor issues no more (R264, R344). -/
def abortQueued (st reason : Nat) (s : State) (q : Nat × Nat) : State :=
  match (s.stream st).subs.find? (fun u => u.id == q.1) with
  | none => s
  | some u =>
    let o := nextOp st { u with next := q.2 } s
    let s := { s with ops := s.ops ++ [o], seq := { s.seq with nextKey := s.seq.nextKey + 1 } }
    let s := s.modStream st (fun x => { x with subs := x.subs.map (fun v =>
      if v.id = u.id then
        let v : Submission := { v with skip := q.2 :: v.skip }
        { v with next := v.after v.next }
      else v) })
    retire o.key true reason 0 s

/-- A queued descriptor that the abort `k` reads waits at a unit (R306). -/
def abortHeld (s : State) (k : Nat) : Bool :=
  (cmdOf s k).any (fun c => heldAny s ((queuedOps s (c.at 16 1)).filterMap (fun q =>
    ((s.stream (c.at 16 1)).subs.find? (fun u => u.id == q.1)).map (fun u => (u.addr + 64 * q.2, 64)))))

/-- EXEC_ABORT (R264, R404): what is not admitted retires at once; the command waits for the retire of what is, and for a unit that holds the descriptors that it
reads (R306). -/
def execExecAbort (k : Nat) (s : State) : Host.Outcome State Fault Refusal :=
  .next (if abortHeld s k then s else runCmd k 0x0602 (fun c s =>
    let st := c.at 16 1
    let byTag := c.at 17 1 == 0
    let tag := c.at 18 2
    let hit := fun (t : Nat) => !byTag || t == tag
    let issued := (streamOps s st).filter (fun o => hit o.tag)
    let queued := (queuedOps s st).filter (fun q => hit (queuedTag s st q))
    let gone := if byTag then ((s.stream st).tags.filter (fun t => t == tag)).length else 0
    let adm := (issued.filter Op.admitted).map (fun o => o.key)
    let early := issued.filter (fun o => !o.admitted)
    let found := issued.length + queued.length
    let now := early.length + queued.length
    checked [ badField (decide (63 < st)) 16, badField (decide (1 < c.at 17 1)) 17, c.rsvd 20 64,
              refuse (resetting s (partOfStream s st)) stPartitionResetting,
              outOfRange (byTag && found == 0 && gone == 0) 18,
              (byTag && found == 0, { status := stAlreadyDone, result := leBytes 4 0 ++ leBytes 4 gone }) ]
      (fun s =>
        let s := modCmd k (fun c => { c with wait := adm.length, aux := now, aux2 := gone }) s
        let s := { s with ops := s.ops.map (fun o =>
          if adm.contains o.key then { o with abortAt := some (o.abortAt.getD s.tim.beat), abortCmds := o.abortCmds ++ [k] } else o) }
        let s := queued.foldl (abortQueued st 1) (retireAll (early.map (fun o => o.key)) 1 s)
        if adm.isEmpty then (s, { result := leBytes 4 now ++ leBytes 4 gone })
        else (s.modStream st (fun x => { x with aborting := x.aborting ++ [k] }), { wait := true })) s) s)

/-- An issued, unretired op of the partition waits on or signals a token of the range (R242). -/
def tokensNamed (s : State) (p f n : Nat) : Bool :=
  s.ops.any (fun o => o.part s == p && ((o.waits.map Prod.fst) ++ o.signals.toList).any (fun t => decide (f ≤ t ∧ t < f + n)))

/-- EXEC_TOKEN (R242, R512, R514). -/
def execExecToken (k : Nat) (s : State) : Host.Outcome State Fault Refusal :=
  .next (runCmd k 0x0604 (fun c s =>
    let p := c.at 16 1
    let f := c.at 18 2
    let n := c.at 20 2
    let read := c.at 17 1 == 0
    checked (c.extNeed (if read then 4 * n else 0) :: partChecks s c 16 ++ [ badField (decide (1 < c.at 17 1)) 17, outOfRange (decide (4095 < f)) 18,
              outOfRange (decide (n = 0 ∨ 4096 < f + n)) 20, c.rsvd 22 64,
              refuse (resetting s p) stPartitionResetting, refuse (!read && tokensNamed s p f n) stBusy ])
      (fun s =>
        let l := (List.range n).map (fun i => 4096 * p + f + i)
        if read then (s, { output := (l.map (fun i => leBytes 4 ((s.token i).count.toNat + 65536 * b01 (s.token i).abort))).flatten })
        else (l.foldl (fun (s : State) i => s.setToken i {}) s, { result := leBytes 4 n })) s) s)

/-- EXEC_STREAM (R235, R512). -/
def execExecStream (k : Nat) (s : State) : Host.Outcome State Fault Refusal :=
  .next (runCmd k 0x0605 (fun c s =>
    let st := c.at 16 1
    checked [ badField (decide (63 < st)) 16, badField (decide (3 < c.at 17 1)) 17, c.rsvd 18 64,
              refuse (resetting s (partOfStream s st)) stPartitionResetting ]
      (fun s => (s.modStream st (fun x => { x with prio := c.at 17 1 }), {})) s) s)

/-! ### manifest -/

/-- Entries [i, i+n) pass the 4,096 of a device without MANIFEST64K (R3). -/
def beyondLicence (s : State) (i n : Nat) : Bool := !licensed s 4 && decide (4096 < i + n ∧ i + n ≤ 65536)

/-- The tracking of old requests ends once none is left and no swap is armed (R327). -/
def endTracking (p : Nat) (s : State) : State :=
  if (s.swapOf p).armed = false ∧ (oldRequests s p).isEmpty = true then s.modSwapOf p (fun w => { w with trackE := 0, trackCarry := false }) else s

/-- MANIFEST_OPEN (R249, R266, R327, R332, R404). -/
def execManifestOpen (k : Nat) (s : State) : Host.Outcome State Fault Refusal :=
  .next (runCmd k 0x0701 (fun c s =>
    let i := c.at 16 2
    let p := partOfEntry s i
    let s' := endTracking p s
    let len := c.at 52 4 * c.at 44 4
    checked [ refuse (beyondLicence s i 1) stNotLicensed, c.rsvd 18 20, outOfRange (decide (c.at 20 4 < (s'.swapOf p).trackE)) 20,
              outOfRange (decide (c.at 52 4 < c.at 48 4)) 48, refuse (resetting s p) stPartitionResetting, refuse (s.entry i).valid stBusy,
              refuse (!inRegion s p 1 (c.at 32 6) len || !inRegion s p 1 (c.at 38 6) len) stCapacity ]
      (fun _ =>
        (s'.setEntry i { valid := true, reqId := BitVec.ofNat 64 (c.at 24 8), epoch := c.at 20 4, kptr := c.at 32 6, vptr := c.at 38 6
                         stride := c.at 44 4, length := c.at 48 4, limit := c.at 52 4, user := BitVec.ofNat 64 (c.at 56 8) }, {})) s) s)

/-- MANIFEST_CLOSE (R249): the entry becomes DONE; ops in flight run to retire. -/
def execManifestClose (k : Nat) (s : State) : Host.Outcome State Fault Refusal :=
  .next (runCmd k 0x0702 (fun c s =>
    let i := c.at 16 2
    checked [ refuse (beyondLicence s i 1) stNotLicensed, outOfRange (!(s.entry i).valid) 16, c.rsvd 18 64,
              refuse (resetting s (partOfEntry s i)) stPartitionResetting ]
      (fun s => (s.modEntry i (fun e => { e with state := 3 }), {})) s) s)

/-- MANIFEST_FREE (R249, R266). -/
def execManifestFree (k : Nat) (s : State) : Host.Outcome State Fault Refusal :=
  .next (runCmd k 0x0703 (fun c s =>
    let i := c.at 16 2
    let e := s.entry i
    checked [ refuse (beyondLicence s i 1) stNotLicensed, outOfRange (!e.valid || e.state != 3) 16, c.rsvd 18 64,
              refuse (resetting s (partOfEntry s i)) stPartitionResetting, refuse (e.inflight != 0) stBusy ]
      (fun s => (s.setEntry i { e with valid := false }, {})) s) s)

/-- MANIFEST_READ (R512). -/
def execManifestRead (k : Nat) (s : State) : Host.Outcome State Fault Refusal :=
  .next (runCmd k 0x0704 (fun c s =>
    let i := c.at 16 2
    let n := c.at 18 2
    checked [ c.extNeed (64 * n), refuse (beyondLicence s i n) stNotLicensed, outOfRange (decide (manifestSize s ≤ i)) 16,
              outOfRange (decide (n = 0 ∨ 255 < n ∨ manifestSize s < i + n)) 18, c.rsvd 20 64,
              refuse ((List.range n).any (fun j => resetting s (partOfEntry s (i + j)))) stPartitionResetting ]
      (fun s => (s, { output := ((List.range n).map (fun j => entryBytes (s.entry (i + j)))).flatten })) s) s)

end Sys2Proof.Machine
end

