-- ==== Sys2Proof/Machine/MemEvents.lean ====
section
/-! DEFINITION. Memory events and commands: host CXL.mem requests, patrol scrub, retraining, initial zeroing, regions (R287 to R310). -/

namespace Sys2Proof.Machine

open Sys2Proof

/-! ### Host CXL.mem requests -/

/-- `n` bytes that the manual gives no value, and the counter after them (assumption log 8). -/
def freeBytes (n : Nat) (s : State) : List Byte := (List.range n).map (fun i => BitVec.ofNat 8 (Config.freeNat (s.free + i)))

/-- Base and extent of a decoder's region: 0 HBM, 1 DDR tier, 2 SRAM windows (R286). -/
def decoderRegion (s : State) (d : Nat) : Nat × Nat :=
  match d with
  | 0 => (0, 0x011E1A300000)
  | 1 => (0x400000000000, ddrBytes s)
  | _ => (0x7F0000000000, 0x61000000)

/-- The device address that host address `h` stands for: in the range of a committed decoder, as far from its base as from the region's (R287). A device that is not powered
answers none. -/
def deviceAddr (s : State) (h : Nat) : Option Nat :=
  if 3 ≤ s.pwr.state then none
  else ((List.range 3).find? (fun d => s.memTop.decoders.getLsbD d &&
      decide (tget 0 s.memTop.decBase d ≤ h ∧ h < tget 0 s.memTop.decBase d + (decoderRegion s d).2))).map (fun d =>
    (decoderRegion s d).1 + (h - tget 0 s.memTop.decBase d))

/-- A read that returns data marked poisoned: every word is marked, its data has no meaning (R290, R343). -/
def cxlRefused (d n : Nat) (s : State) : State :=
  respond d (freeBytes n s) (List.replicate ((n + 7) / 8) true) { s with free := s.free + n }

/-- The outcome of a host request at `a` over `n` bytes: refused by a resetting partition (R343), out of reach (R290), held, or served. -/
inductive HostReq where
  | resetting
  | unmapped
  | held (u : Nat)
  | serve
  deriving DecidableEq, Repr

/-- What becomes of a host request. -/
def hostReq (s : State) (wr : Bool) (a n : Nat) : HostReq :=
  let l := locOf s a
  if (l.part s).any (resetting s) then .resetting
  else if !reachRange s .host wr a n then .unmapped
  else if unitHolds s l.unit then .held l.unit
  else .serve

/-- A host request arrives at the die of its address: answered, held or refused there; a write that is refused is discarded (R290, R294, R306, R343). -/
def hostArrive (p : NetPkt) (s : State) : State :=
  let answer := fun s => if p.write then s else cxlRefused p.dst p.len s
  match hostReq s p.write p.addr p.len with
  | .resetting => post 0x0106 (leBytes 6 p.addr) (answer s)
  | .unmapped => post 0x0112 (leBytes 6 p.addr) (answer s)
  | .held u => { s with memTop := { s.memTop with heldReqs := s.memTop.heldReqs ++ [(u, p.write, p.addr, if p.write then p.data else List.replicate p.len 0)] } }
  | .serve => if p.write then wrShown p.addr p.data s else cxlRespond p.addr p.len s

/-- A host request sets out from the host port on B1, in the request class (R337). -/
def hostSend (wr : Bool) (a n : Nat) (data : List Byte) (s : State) : State :=
  let p : NetPkt := { src := 5, dst := (locOf s a).die, cls := 0, write := wr, addr := a, len := n, data := data }
  let r := carry p (dieHops 5 p.dst) s
  if r.2 then hostArrive p r.1 else r.1

/-- A packet that has waited for link `n` goes on. -/
def goOn (n d : Nat) (s : State) (p : NetPkt) : State :=
  let r := carry p (hopsLeft n d p) s
  if !r.2 then r.1 else if p.cls = 0 then hostArrive p r.1 else hostAnswer p r.1

/-- The packets that wait for link `n` go on, each class and direction in its order (R338). -/
def netRelease (n : Nat) (s : State) : State :=
  (List.range 6).foldl (fun s i => (s.netBuf (6 * n + i)).foldl (goOn n (i / 3)) (s.setNetBuf (6 * n + i) [])) s

/-- HOST_CXL_READ at a host address (R245, R287, R290, R292, R306, R343). -/
def execHostCxlRead (addr n : Nat) (flips : List (Nat × BitVec 80)) (s : State) : Host.Outcome State Fault Refusal :=
  .next (
    let s := upset flips s
    match deviceAddr s addr with
    | none => s
    | some a => hostSend false a n [] s)

/-- HOST_CXL_WRITE at a host address (R287, R290, R294, R306, R310, R343). -/
def execHostCxlWrite (addr : Nat) (bytes : List (BitVec 8)) (s : State) : Host.Outcome State Fault Refusal :=
  .next (
    match deviceAddr s addr with
    | none => s
    | some a => hostSend true a bytes.length bytes s)

/-! ### Scrub (R302) -/

/-- 256-byte blocks of unit `u`. -/
def unitBlocks (s : State) (u : Nat) : Nat := if u < 12 then stackBytes / 256 else (s.unit u).capacity * 1000000000 / 256

/-- Device address of block `b` of unit `u`, where it has one (R296, R300). -/
def blockAddr (s : State) (u b : Nat) : Option Nat :=
  if u < 12 then
    let p := u * s.net.parts / 12
    let l := windowStacks s p
    (l.findIdx? (fun x => x == u)).map (fun i => windowBase s.net.parts p + 256 * (b * l.length + i))
  else
    let l := s.memTop.ddrC
    match l.findIdx? (fun x => x == u) with
    | some i => if b < s.memTop.ddrD * 1000000000 / 256 then some (0x400000000000 + 4096 * (b / 16 * l.length + i) + 256 * (b % 16)) else none
    | none => none

/-- PATROL_SCRUB_READ (R302): the patrol reads the block at which it stands and goes on; it pauses on a unit that retrains. -/
def execPatrolScrubRead (u : Nat) (flips : List (Nat × BitVec 80)) (s : State) : Host.Outcome State Fault Refusal :=
  .next (
    let s := upset flips s
    let m := s.unit u
    if s.memTop.scrubEn = true ∧ m.state = 1 ∧ m.zeroing = false ∧ m.hold = false then
      let b := m.scrubPos.toNat
      let s := match blockAddr s u b with
        | some a => touch a 256 s
        | none => s
      s.modUnit u (fun m => { m with scrubPos := if b + 1 < unitBlocks s u then m.scrubPos + 1 else 0 })
    else s)

/-! ### Retraining (R304 to R308) -/

/-- CE_RATE_TRIP (R304): more correctable words than CE_RATE_LIMIT within 1 s post MEM_CE_RATE and trigger retraining; the window starts anew. -/
def execCeRateTrip (u : Nat) (s : State) : Host.Outcome State Fault Refusal :=
  .next (
    let m := s.unit u
    let n := (lastSecond s.tim.beat m.ceWin).length
    if u < 28 ∧ s.memTop.ceRateLimit < n ∧ (m.state = 1 ∨ m.state = 2) then
      triggerRetrain u (post 0x0111 (leBytes 1 u ++ leBytes 4 n) (s.setUnit u { m with ceWin := [] }))
    else s)

/-- RETRAIN_START (R305): one unit at a time, triggers in first-come order. -/
def execRetrainStart (s : State) : Host.Outcome State Fault Refusal :=
  .next (
    match s.memTop.retrain, s.memTop.queue with
    | none, u :: rest =>
      if (s.unit u).state = 0 ∨ (s.unit u).zeroing = true then s
      else (s.modUnit u (fun m => { m with state := 2, queued := false })).modMemTop (fun t =>
        { t with retrain := some u, queue := rest, retrainAt := s.tim.beat })
    | _, _ => s)

/-- The recovery in progress is that of memory unit `u`. -/
def recovering (s : State) (u : Nat) : Bool :=
  s.flt.active.any (fun e => (e.kind == 4 && e.index == u) || (e.kind == 5 && 16 + e.index == u))

/-- RETRAIN_DONE (R306, R308): the unit serves again and its held requests follow in order of arrival; a retraining that fails is a unit fault.
The end of a recovery that it serves is RECOVERY_END's. -/
def execRetrainDone (pass : Bool) (s : State) : Host.Outcome State Fault Refusal :=
  .next (
    match s.memTop.retrain with
    | none => s
    | some u =>
      let s := { s with memTop := { s.memTop with retrain := none } }
      if recovering s u then s
      else if pass then
        serveHeld u (s.modUnit u (fun m => { m with state := 1, hold := false, trainTemp := if u < 12 then some (s.die (10 + u)).temp else m.trainTemp }))
      else raiseFault (if u < 12 then 0x21 else 0x23) (if u < 12 then 4 else 5) (if u < 12 then u else u - 16) 0 0 s)

/-- MEMORY_ZEROING_DONE (R301, R308, R344): every word of the unit is the all-zero code word, and accesses are granted. -/
def execMemoryZeroingDone (u : Nat) (s : State) : Host.Outcome State Fault Refusal :=
  .next (
    if (s.unit u).zeroing = true ∧ (s.unit u).state ≠ 2 then
      serveHeld u ((zeroUnit u s).modUnit u (fun m => { m with zeroing := false, state := if m.state = 3 then 3 else 1 }))
    else s)

/-! ### Commands -/

/-- The partition of a memory unit; the DDR tier has none (R295). -/
def unitPartOf (s : State) (u : Nat) : Option Nat := if u < 12 then some (u * s.net.parts / 12) else none

/-- DEV_MEM_RETRAIN (R3, R305, R394): the unit, in the encoding of MEM_RETRAIN, at byte 16. -/
def execDevMemRetrain (k : Nat) (s : State) : Host.Outcome State Fault Refusal :=
  .next (runCmd k 0x0121 (fun c s =>
    let u := c.at 16 1
    checked [ refuse (decide (16 ≤ u ∧ u < 28) && !licensed s 2) stNotLicensed, outOfRange (!(decide (u < 12) || decide (16 ≤ u ∧ u < 28)) || !((s.unit u).state == 1 || (s.unit u).state == 2)) 16, c.rsvd 17 64,
              refuse ((unitPartOf s u).any (resetting s)) stPartitionResetting ]
      (fun s => (triggerRetrain u s, { status := stAccepted })) s) s)

/-- Ranges overlap. -/
def rangesMeet (a n b m : Nat) : Bool := decide (a < b + m ∧ b < a + n)

/-- The end of the HBM window or of the region of R286 in which `a` lies, if it lies in one: DDR tier, SRAM windows, MMIO (R286, R309). -/
def areaEnd (s : State) (a : Nat) : Option Nat :=
  if 0x7FF000000000 ≤ a then (if a < 0x7FF000200000 then some 0x7FF000200000 else none)
  else if 0x7F0000000000 ≤ a then (if a < 0x7F0061000000 then some 0x7F0061000000 else none)
  else match locOf s a with
    | .unmapped => none
    | _ => some (regionEnd s a)

/-- A region that R309 refuses: it overlaps another, crosses an edge, or lies where its kind or partition may not. -/
def regionBad (s : State) (i kind p a n : Nat) : Bool :=
  let placed : Bool := match locOf s a with
    | .hbm q _ => q == p && kind != 5
    | .ddr _ => true
    | _ => kind != 5
  !placed || !(areaEnd s a).any (fun e => decide (a + n ≤ e)) || s.regions.any (fun r => r.1 != i && r.2.set && rangesMeet a n r.2.base r.2.len)

/-- DEV_MEM_REGION (R3, R309, R512). -/
def execDevMemRegion (k : Nat) (s : State) : Host.Outcome State Fault Refusal :=
  .next (runCmd k 0x0123 (fun c s =>
    let i := c.at 16 1
    let set := c.at 17 1 == 1
    let kd := c.at 18 1
    let p := bits kd 4 2
    let a := c.at 24 6
    let n := c.at 32 8
    if set then
      checked [ refuse (decide (0x400000000000 ≤ a ∧ a < 0x7F0000000000) && !licensed s 2) stNotLicensed, badField (decide (5 < kd % 8 ∨ 63 < kd)) 18, outOfRange (decide (s.net.parts ≤ p)) 18, c.rsvd 19 24, badField (a % 4096 != 0) 24,
                outOfRange (n != 0 && n % 4096 == 0 && regionBad s i (kd % 8) p a n) 24, c.rsvd 30 32, outOfRange (n == 0 || n % 4096 != 0) 32,
                c.rsvd 40 64, refuse (resetting s p) stPartitionResetting ]
        (fun s => (s.setRegion i { set := true, kind := kd % 8, opsRo := bit kd 3, part := p, base := a, len := n }, {})) s
    else
      checked [ badField (decide (1 < c.at 17 1)) 17, c.rsvd 18 64,
                refuse ((s.region i).set && resetting s (s.region i).part) stPartitionResetting ]
        (fun s => (s.setRegion i {}, {})) s) s)

end Sys2Proof.Machine
end

