-- ==== Sys2Proof/Machine/Auth.lean ====
section
/-! DEFINITION. Signed objects, licence tokens, boot keys and device signatures (R471 to R477, R480, R481). -/

namespace Sys2Proof.Machine

open Sys2Proof

/-! ### Signature blocks (R473, R474) -/

/-- Length of a signature block. -/
def sigLen : Nat := 3072

/-- The bytes that a signed object covers, and its block. -/
def coveredBytes (obj : List Byte) : List Byte := obj.take (obj.length - sigLen)
def blockOf (obj : List Byte) : List Byte := obj.drop (obj.length - sigLen)

/-- D = SHA-384(covered bytes ‖ bytes 0 to 7 of the block). -/
def digestOf (obj : List Byte) : List Byte := Config.sha384 (coveredBytes obj ++ (blockOf obj).take 8)

/-- A big-endian number, as RFC 8554 encodes it. -/
def beNat (l : List Byte) : Nat := leNat l.reverse

/-- Root slots that a block names: ECDSA and LMS. -/
def slotsOf (b : List Byte) : Nat × Nat := (bits (bytesAt b 7 1) 0 2, bits (bytesAt b 7 1) 2 2)

/-- The block header check. -/
def headerOk (obj : List Byte) (ty : Nat) : Bool :=
  let b := blockOf obj
  decide (sigLen ≤ obj.length) && decide (bytesAt b 0 4 = 0x47495355 ∧ bytesAt b 4 2 = 1 ∧ bytesAt b 6 1 = ty ∧ bytesAt b 7 1 < 32) &&
  (b.drop 2924).all (fun x => x == 0)

/-- The chain check: both public keys hash to unrevoked roots. -/
def chainOk (s : State) (obj : List Byte) : Bool :=
  let b := blockOf obj
  let x := slotsOf b
  Config.sha384 ((b.drop 8).take 96) == tget [] s.sec.roots x.1 && Config.sha384 ((b.drop 200).take 56) == tget [] s.sec.roots (4 + x.2) &&
  !s.sec.revoked.getLsbD x.1 && !s.sec.revoked.getLsbD (4 + x.2)

/-- The ECDSA signature over D. -/
def ecdsaOk (obj : List Byte) : Bool :=
  let b := blockOf obj
  Config.ecdsaOk ((b.drop 8).take 96) ((b.drop 104).take 96) (digestOf obj)

/-- The LMS signature with message D, of exactly the types LMS_SHA256_M32_H15 (7) and LMOTS_SHA256_N32_W4 (3) of RFC 8554, with q < 32,768. -/
def lmsOk (obj : List Byte) : Bool :=
  let b := blockOf obj
  decide (beNat ((b.drop 200).take 4) = 7 ∧ beNat ((b.drop 204).take 4) = 3 ∧ beNat ((b.drop 256).take 4) < 32768) &&
  Config.lmsOk ((b.drop 200).take 56) ((b.drop 256).take 2668) (digestOf obj)

/-- The result of an authentication, as BU_AUTH_STATUS reports it. -/
structure AuthResult where
  ecdsa : Bool
  lms : Bool
  chain : Bool
  svn : Bool
  reason : Nat
  deriving DecidableEq, Repr

/-- Every check of R474 on an object of type `ty`; images name their security version. REASON is that of the first check that fails. -/
def authOf (s : State) (ty : Nat) (obj : List Byte) (svn : Nat) : AuthResult :=
  let e := ecdsaOk obj
  let l := lmsOk obj
  let c := chainOk s obj
  let v := decide (s.sec.minSvn ≤ svn)
  { ecdsa := e, lms := l, chain := c, svn := v
    reason := if !headerOk obj ty then 1 else if !c then 5 else if !e && !l then 4 else if !e then 2 else if !l then 3 else if !v then 6 else 0 }

/-- An object other than an image is authentic (R474). -/
def authentic (s : State) (ty : Nat) (obj : List Byte) : Bool := (authOf s ty obj s.sec.minSvn).reason == 0

/-! ### Licence tokens (R480, R481) -/

/-- The body fields of a token meet the table; the offset of the first that does not. -/
def tokenBad (t : List Byte) : Option Nat :=
  let f := bytesAt t 24 1
  if t.length ≠ 3136 then some 0
  else if bytesAt t 0 4 ≠ 0x43494C55 then some 0
  else if bytesAt t 4 2 ≠ 1 then some 4
  else if bytesAt t 6 2 ≠ 0 then some 6
  else if f = 0 ∨ 64 ≤ f then some 24
  else if bytesAt t 25 39 ≠ 0 then some 25
  else none

/-- The token is valid on this device. -/
def tokenValid (s : State) (t : List Byte) : Bool :=
  (tokenBad t).isNone && authentic s 2 t && decide (bytesAt t 8 8 = s.sec.serial.toNat)

/-- Slots of the licence store with valid tokens, ascending. -/
def validSlots (s : State) : List Nat := (List.range 16).filter (fun i => tokenValid s (tget [] s.sec.tokens i))

/-- Features of the stored valid tokens. -/
def installedMask (s : State) : Nat := (validSlots s).foldl (fun m i => m ||| bytesAt (tget [] s.sec.tokens i) 24 1) 0

/-! ### Boot keys and device signatures (R475 to R477) -/

/-- The next top-tree leaf is taken: the counter is written to flash and read back, and only then is a fresh boot key certified (R476). -/
def takeLeaf (s : State) : State :=
  if s.sec.leaf < 32768 then
    if Config.flashOk s.free then
      { s with sec := { s.sec with leaf := s.sec.leaf + 1, bootKey := some (freeBytes 56 { s with free := s.free + 1 }), bootSigs := 0 }, free := s.free + 57 }
    else post 0x0A05 [] { s with sec := { s.sec with bootKey := none }, free := s.free + 1 }
  else { s with sec := { s.sec with bootKey := none } }

/-- An exhausted boot key gives way to the next leaf's (R476). -/
def renewKey (s : State) : State := if s.sec.bootKey.isSome ∧ 32768 ≤ s.sec.bootSigs then takeLeaf s else s

/-- The signature block and boot-key certificate of a message that the device signs; none without a boot key (R475, R476). -/
def deviceSign (s : State) (msg : List Byte) : Option (List Byte) := s.sec.bootKey.map (fun k => Config.deviceSign k msg)

/-- The fuse image that M0 measures: roots, REVOKED, MIN_SVN, SERIAL (R477). -/
def fuseImage (s : State) : List Byte :=
  ((List.range 8).map (fun i => fitBytes 48 (tget [] s.sec.roots i))).flatten ++ leBytes 1 s.sec.revoked.toNat ++
  leBytes 8 (2 ^ s.sec.minSvn - 1) ++ leBytes 8 s.sec.serial.toNat

/-- Licence verification at the boot set: LICENCES, LIC_DONE and M1 (R408, R481). -/
def verifyLicences (s : State) : State :=
  let d := Config.sha384 (((validSlots s).map (fun i => tget [] s.sec.tokens i)).flatten)
  extendMeas 1 d { s with bu := { s.bu with licDone := true, licences := BitVec.ofNat 6 (installedMask s) } }

end Sys2Proof.Machine
end

