-- ==== Sys2Proof/Machine/Convoy.lean ====
section
/-! DEFINITION. The steward image in steward SRAM and the core image it carries: header fields, sections, and their place in core local memory
(R414, R418, R419). -/

namespace Sys2Proof.Machine

open Sys2Proof

/-- Header field of `n` bytes at byte `i` of the image in steward SRAM. -/
def imgField (l : List Byte) (i n : Nat) : Nat := bytesAt l i n

/-- The core image. -/
def coreImage (l : List Byte) : List Byte := (l.drop (imgField l 24 4)).take (imgField l 28 4)

/-- CORE_DIGEST. -/
def coreDigest (l : List Byte) : List Byte := (l.drop 48).take 48

/-- A section of the core image: offset, length, destination, cluster mask. -/
structure Section where
  off : Nat
  len : Nat
  dest : Nat
  mask : Nat
  deriving DecidableEq, Repr

/-- Entry `i` of the section table (R414). -/
def sectionAt (core : List Byte) (i : Nat) : Section :=
  { off := bytesAt core (16 * i) 4, len := bytesAt core (16 * i + 4) 4, dest := bytesAt core (16 * i + 8) 4, mask := bytesAt core (16 * i + 12) 4 }

/-- The sections in use: an unused entry is zero. -/
def sections (core : List Byte) : List Section :=
  ((List.range 8).map (sectionAt core)).filter (fun x => !(x.off == 0 && x.len == 0 && x.dest == 0 && x.mask == 0))

/-- Sections that cluster `k` gets. -/
def clusterSections (core : List Byte) (k : Nat) : List Section := (sections core).filter (fun x => bit x.mask k)

/-- The rules of R414 for the sections of every cluster. -/
def sectionsOk (core : List Byte) : Bool :=
  (sections core).all (fun x => decide (x.mask < 16 ∧ x.off + x.len ≤ core.length)) &&
  (List.range 4).all (fun k =>
    let l := clusterSections core k
    l.all (fun x => decide (x.dest + x.len ≤ 0xC000)) && l.any (fun x => x.dest == 0 && decide (0 < x.len)) &&
    (List.range l.length).all (fun i => (List.range i).all (fun j =>
      match l[i]?, l[j]? with
      | some x, some y => decide (x.dest + x.len ≤ y.dest ∨ y.dest + y.len ≤ x.dest)
      | _, _ => true)))

/-- First address of core `c`'s local memory. -/
def coreLocal (c : Nat) : Nat := 0x7F0040000000 + 0x40000 * c

/-- Where the payload of chunk `q` goes in core `c`: address and bytes for every section of `core` that selects its cluster (R419). -/
def chunkParts (core payload : List Byte) (c q : Nat) : List (Nat × List Byte) :=
  (clusterSections core (c % 64 / 16)).map (fun x =>
    let lo := max x.off (4096 * q)
    let hi := min (x.off + x.len) (4096 * q + 4096)
    (coreLocal c + x.dest + (lo - x.off), (payload.drop (lo - 4096 * q)).take (hi - lo)))

/-- The payload of chunk `q` copied into place in core `c`. -/
def placeChunk (core payload : List Byte) (c q : Nat) (s : State) : State := (chunkParts core payload c q).foldl (fun s x => wrClean x.1 x.2 s) s

/-- Chunks of the core image: CORE_LEN / 4,096 (R418). -/
def chunkCount (core : List Byte) : Nat := core.length / 4096

/-- The whole core image placed in core `c`, from the copy in steward SRAM (R422). -/
def placeImage (c : Nat) (s : State) : State :=
  let core := coreImage s.bu.image
  (List.range (chunkCount core)).foldl (fun s q => placeChunk core ((core.drop (4096 * q)).take 4096) c q s) s

end Sys2Proof.Machine
end

