-- ==== Sys2Proof/Machine/Partitions.lean ====
section
/-! DEFINITION. The package network's fall-back paths, partitions and their reset (R336 to R346, R402). -/

namespace Sys2Proof.Machine

open Sys2Proof

/-! ### Die-to-die links (R338, R339) -/

/-- D2D_LINK_FAIL: the link's flits are held while its optical path readies; a fourth failed link is a device fault. -/
def execD2dLinkFail (n : Nat) (s : State) : Host.Outcome State Fault Refusal :=
  .next (
    if n < 7 ∧ (s.netLink n).state = 1 ∧ (s.netLink n).switching = false then
      if 3 ≤ s.net.fallbacks then enterDeviceError 5 s
      else { s.modNetLink n (fun l => { l with switching := true }) with net := { s.net with fallbacks := s.net.fallbacks + 1 } }
    else s)

/-- D2D_FALLBACK_READY: the held flits go over the optical path; the steward posts D2D_FALLBACK. -/
def execD2dFallbackReady (n : Nat) (s : State) : Host.Outcome State Fault Refusal :=
  .next (
    if (s.netLink n).switching then
      netRelease n (post 0x0105 (leBytes 1 n) (s.modNetLink n (fun l => { l with state := 2, switching := false })))
    else s)

/-! ### What a partition owns (R340) -/

/-- Streams of partition `p` (R232). -/
def streamsOfPart (s : State) (p : Nat) : List Nat := (List.range 64).filter (fun x => partOfStream s x == p)

/-- Stacks of partition `p` that hold its window (R295, R297). -/
def liveStacks (s : State) (p : Nat) : List Nat := (stacksOfPart s.net.parts p).filter (fun u => (s.unit u).state == 1 || (s.unit u).state == 2)

/-- Every issued or queued op of partition `p` retires `aborted` with `reason` (R344). -/
def abortPartition (p reason : Nat) (s : State) : State :=
  let s := retireAll ((s.ops.filter (fun o => o.part s == p)).map (fun o => o.key)) reason s
  (streamsOfPart s p).foldl (fun s st => (queuedOps s st).foldl (abortQueued st reason) s) s

/-- Directory entries that `q` selects are freed; every copy of their handles fails resolution (R324). -/
def freeDir (q : Dir → Bool) (s : State) : State :=
  { s with dir := tmap {} s.dir (fun _ d => if q d then { ({} : Dir) with gen := if d.valid then (d.gen + 1) % 65536 else d.gen } else d) }

/-- The objects of the partitions that `q` selects are reset or freed: tokens, row maps, load contexts, manifest and directory entries, swaps;
what their ops wrote hides nothing more (R245, R342, R344). -/
def freeObjects (q : Nat → Bool) (s : State) : State :=
  let s := freeDir (fun d => q d.part) s
  { s with
    tokens := s.tokens.filter (fun x => !q (x.1 / 4096))
    rowMaps := s.rowMaps.filter (fun m => !q m.part)
    ctxs := s.ctxs.filter (fun x => !q (x.1 / 4))
    manifest := s.manifest.filter (fun x => !q (partOfEntry s x.1))
    swaps := s.swaps.filter (fun x => !q x.1)
    seq := { s.seq with hidden := s.seq.hidden.filter (fun h => !q (partOfStream s h.stream)) } }

/-- Feed SRAM, accumulators with their flags and pass counts, and core local memory of field `f` become zero (R344). -/
def zeroField (f : Nat) (s : State) : State :=
  let s := zeroRange (0x7F0000000000 + 0x2000000 * f) 0x1800000 s
  let s := zeroRange (accAddr f 0) 0x800000 s
  let s := zeroRange (0x7F0040000000 + 0x40000 * 64 * f) 0x1000000 s
  { s with acc := s.acc.filter (fun x => x.1 / (2048 * 1024) != f), seq := { s.seq with passes := s.seq.passes.filter (fun x => x.1 / 2048 != f) } }

/-! ### Commands in progress that name a partition (R343, R402) -/

/-- Partitions of the fields that a mask names. -/
def maskParts (s : State) (m : Nat) : List Nat := (maskList 32 m).map (partOfField s)

/-- The partitions that command `c` names. -/
def cmdParts (s : State) (c : Cmd) : List Nat :=
  let dirPart := fun (h : Nat) => if handleValid s h then [(s.dirEntry (handleIdx h)).part] else []
  match c.opcode with
  | 0x0110 => (unitPart s (c.at 16 1) (c.at 20 2)).toList
  | 0x0111 => (unitPart s (c.at 16 1) (c.at 20 2)).toList
  | 0x0121 => (unitPartOf s (c.at 16 1)).toList
  | 0x0123 => if c.at 17 1 = 1 then [bits (c.at 18 1) 4 2] else [(s.region (c.at 16 1)).part]
  | 0x0402 => maskParts s (c.at 20 4)
  | 0x0403 => [c.at 16 1]
  | 0x0404 => maskParts s (c.at 20 4)
  | 0x0406 => maskParts s (c.at 16 4)
  | 0x0407 => maskParts s (c.at 16 4)
  | 0x0501 => [c.at 102 1]
  | 0x0502 => [c.at 16 1 / 4]
  | 0x0503 => [c.at 16 1 / 4]
  | 0x0504 => dirPart (c.at 16 4)
  | 0x0505 => [c.at 16 1]
  | 0x0506 => dirPart (c.at 16 4)
  | 0x0507 => dirPart (c.at 16 4)
  | 0x0508 => [c.at 16 1]
  | 0x0509 => [c.at 16 1]
  | 0x050A => dirPart (c.at 16 4)
  | 0x0601 => [partOfStream s (c.at 16 1)]
  | 0x0602 => [partOfStream s (c.at 16 1)]
  | 0x0604 => [c.at 16 1]
  | 0x0605 => [partOfStream s (c.at 16 1)]
  | 0x0701 => [partOfEntry s (c.at 16 2)]
  | 0x0702 => [partOfEntry s (c.at 16 2)]
  | 0x0703 => [partOfEntry s (c.at 16 2)]
  | 0x0704 => (List.range (c.at 18 2)).map (fun j => partOfEntry s (c.at 16 2 + j))
  | _ => []

/-- The commands in progress that name partition `p` complete with `partition_resetting` (R402). -/
def refuseNaming (p : Nat) (s : State) : State :=
  { s with cmds := s.cmds.map (fun c => if (cmdParts s c).contains p then c.answer { status := stPartitionResetting } else c) }

/-! ### Partition reset (R343 to R345) -/

/-- DEV_PARTITION_RESET (R343, R394): it takes effect at the next beat edge. -/
def execDevPartitionReset (k : Nat) (s : State) : Host.Outcome State Fault Refusal :=
  .next (runCmd k 0x0131 (fun c s =>
    let p := c.at 16 1
    checked (partChecks s c 16 ++ [ c.rsvd 17 64, refuse ((s.partOf p).resetting || (s.partOf p).resetReq) stBusy ])
      (fun s => (s.modPartOf p (fun x => { x with resetReq := true, cmd := some k }), { wait := true, commit := false })) s) s)

/-- PARTITION_RESET_EFFECTIVE (R343, R344): from this beat edge the partition is resetting. Its ops retire, its swap is cancelled, its objects are
reset or freed, its SRAM is zero; its stacks are being written as zero, and its cores wait for the convoy. -/
def execPartitionResetEffective (p : Nat) (s : State) : Host.Outcome State Fault Refusal :=
  .next (
    let x := s.partOf p
    if x.resetReq = true ∧ p < s.net.parts then
      let s := match x.cmd with
        | some k => finishCmd k { status := stAccepted } s
        | none => s
      let s := refuseNaming p (s.setPartOf p { resetting := true })
      let s := freeObjects (fun q => q == p) (abortPartition p 9 s)
      let s := (fieldsOfPart s p).foldl (fun s f => zeroField f s) s
      let s := ((fieldsOfPart s p).map coresOf).flatten.foldl (fun (s : State) c => s.modCoreOf c (fun y =>
        if y.state = 3 then y else { y with state := 0, launch := none, stalled := false, dmaLeft := 0, barrier := 0, resident := none, verified := false
                                            poison := false, poisonNext := false, dma := [] })) s
      let s := (liveStacks s p).foldl (fun (s : State) u => s.modUnit u (fun m => { m with zeroing := true })) s
      let l := windowStacks s p
      let b := windowBase s.net.parts p
      let out := fun (a : Nat) => !(decide (b ≤ a ∧ a < b + l.length * stackBytes))
      { s with wts := { s.wts with hot := s.wts.hot.filter (fun e => out e.1), hotBusy := s.wts.hotBusy.filter (fun e => out e.1) } }
    else s)

/-- A mailbox whose rings a partition reset empties (R402); commands of it that are still in progress run on (R383). -/
def Mb.emptied (b : Mb) (busy : Bool) : Mb :=
  { b with enable := false, draining := b.draining || busy, cmdHead := 0, cmdTail := 0, cplHead := 0, cplTail := 0, evtTail := 0, evtHead := 0, bell := none }

/-- PARTITION_RESET_RELEASE (R344, R402): the stacks are zero and the convoy has reached the cores; those that failed it are fenced. The rings of the
partition's mailboxes are emptied by now. -/
def execPartitionResetRelease (p : Nat) (failed : List Nat) (s : State) : Host.Outcome State Fault Refusal :=
  .next (
    if (s.partOf p).resetting = true ∧ (liveStacks s p).all (fun u => !(s.unit u).zeroing) = true then
      let cs := ((fieldsOfPart s p).map coresOf).flatten.filter (fun c => (s.coreOf c).state != 3)
      let s := cs.foldl (fun (s : State) c => (placeImage c s).modCoreOf c (fun y => { y with verified := !failed.contains c })) s
      let s := (cs.filter (fun c => failed.contains c)).foldl (fun s c => raiseFault 0x12 3 (c / 64) (c % 64) 0 s) s
      let s := { s with mbs := tmap {} s.mbs (fun m b => if partOfMb s m = p then b.emptied (s.cmds.any (fun c => c.src == m)) else b) }
      post 0x0107 (leBytes 1 p) (s.setPartOf p {})
    else s)

/-! ### Partition configuration (R342) -/

/-- The windows of `P` partitions, formed over the stacks that serve (R295, R297). -/
def formWindows (P : Nat) (s : State) : State :=
  { s with memTop := { s.memTop with windows := (List.range P).map (fun p => (p, (stacksOfPart P p).filter (fun u =>
      (s.unit u).state == 1 || (s.unit u).state == 2))) } }

/-- Something of the device is in use that a configuration would pull away (R342). -/
def configBusy (s : State) : Bool :=
  !s.ops.isEmpty || s.streams.any (fun x => !x.2.subs.isEmpty) || s.ctxs.any (fun x => x.2.open_) || s.swaps.any (fun x => x.2.epoch != 0) ||
  s.memTop.retrain.any (fun u => decide (u < 12))

/-- DEV_PARTITION_CONFIG (R342): P at byte 16. The new P takes effect at the next beat edge. -/
def execDevPartitionConfig (k : Nat) (s : State) : Host.Outcome State Fault Refusal :=
  .next (runCmd k 0x0130 (fun c s =>
    let p := c.at 16 1
    checked [ refuse ((p == 2 || p == 4) && !licensed s 3) stNotLicensed, badField (decide (7 < p)) 16,
              outOfRange (!(p == 1 || p == 2 || p == 4)) 16, c.rsvd 17 64,
              refuse (s.parts.any (fun x => x.2.resetting || x.2.resetReq)) stPartitionResetting, refuse (configBusy s || s.net.partsNext.isSome) stBusy ]
      (fun s =>
        let s := (List.range 12).foldl (fun s u => zeroUnit u s) (freeObjects (fun _ => true) (extendConfig c s))
        ({ s with
           regions := s.regions.filter (fun r => decide (0x400000000000 ≤ r.2.base))
           wts := {}
           net := { s.net with partsNext := some p } }, {})) s) s)

/-- The new P takes force at the beat edge after the command's completion: windows re-form, and stacks out of service give up their place
(R297, R342). -/
def partsEdge (s : State) : State :=
  match s.net.partsNext with
  | none => s
  | some p =>
    if s.cmds.any (fun c => c.opcode == 0x0130 && c.decided && c.status == stOk) then s else
    let s := formWindows p { s with net := { s.net with parts := p, partsNext := none } }
    (List.range 12).foldl (fun (s : State) u => s.modUnit u (fun m => { m with gaveUp := m.gaveUp || m.state == 3 })) s

end Sys2Proof.Machine
end

