-- ==== Sys2Proof/Machine/Mailbox.lean ====
section
/-! DEFINITION. Mailboxes: their registers that act, fetching, deadlines, cancelling and completion of commands (R381 to R396, R402). -/

namespace Sys2Proof.Machine

open Sys2Proof

/-! ### Mailbox registers (R383 to R386) -/

/-- Commands of mailbox `m` fetched and not yet reported. -/
def inflight (s : State) (m : Nat) : Nat := (s.cmds.filter (fun c => c.src == m)).length

/-- Two rings overlap. -/
def ringsMeet (a n b k : Nat) : Bool := decide (a < b + k ∧ b < a + n)

/-- The three bases are valid: none is 0 and no two rings overlap (R384). -/
def basesOk (b : Mb) : Bool :=
  let c := b.cmdBase.toNat
  let p := b.cplBase.toNat
  let e := b.evtBase.toNat
  c != 0 && p != 0 && e != 0 && !ringsMeet c 0x4000 p 0x2000 && !ringsMeet c 0x4000 e 0x2000 && !ringsMeet p 0x2000 e 0x2000

/-- A mailbox window answers: the steward serves mailboxes, and the device is powered (R381). -/
def windowOpen (s : State) (m : Nat) : Bool := decide (m < 64) && s.stw.ready && decide (s.pwr.state < 3)

/-- Enable, indices and flags after a write of ENABLE (R383, R384). -/
def Mb.writeEnable (b : Mb) (on busy : Bool) : Mb :=
  if on then
    if b.enable ∨ b.draining then b
    else if !basesOk b then { b with baseErr := true }
    else { b with enable := true, cmdHead := 0, cmdTail := 0, cplHead := 0, cplTail := 0, evtTail := 0, evtHead := 0, lost := 0, bell := none }
  else if b.enable then { b with enable := false, draining := busy, bell := none } else b

/-- A write of MB_CTRL (R383, R384). -/
def mbCtrlWrite (m : Nat) (w : BitVec 32) (s : State) : State :=
  if windowOpen s m then
    let b := (s.mb m).writeEnable (w.getLsbD 0) (decide (0 < inflight s m))
    s.setMb m { b with cplIrq := w.getLsbD 1, evtIrq := w.getLsbD 2, mask := w.extractLsb' 9 14 }
  else s

/-- MB_ENABLE_WRITE (R383, R384). -/
def execMbEnableWrite (m : Nat) (w : BitVec 32) (s : State) : Host.Outcome State Fault Refusal := .next (mbCtrlWrite m w s)

/-- A write of MB_CMD_TAIL: refused with RING_ERR beyond 256 entries, ignored while ENABLE is 0 (R385). -/
def mbTailWrite (m : Nat) (w : BitVec 32) (s : State) : State :=
  if windowOpen s m ∧ (s.mb m).enable = true then
    if 256 < (w - (s.mb m).cmdHead).toNat then s.modMb m (fun b => { b with ringErr := true }) else s.modMb m (fun b => { b with cmdTail := w })
  else s

/-- MB_CMD_TAIL_WRITE (R385). -/
def execMbCmdTailWrite (m : Nat) (w : BitVec 32) (s : State) : Host.Outcome State Fault Refusal := .next (mbTailWrite m w s)

/-- A write of MB_DOORBELL: with CMD the steward fetches up to the CMD_TAIL of this moment (R386). -/
def mbBellWrite (m : Nat) (w : BitVec 32) (s : State) : State :=
  if windowOpen s m ∧ (s.mb m).enable = true ∧ w.getLsbD 0 = true then s.modMb m (fun b => { b with bell := some b.cmdTail }) else s

/-- MB_DOORBELL (R386). -/
def execMbDoorbell (m : Nat) (w : BitVec 32) (s : State) : Host.Outcome State Fault Refusal := .next (mbBellWrite m w s)

/-! ### Fetching (R386 to R391, R396, R402) -/

/-- The checks of R390 that need no more than the header, in their order: device error, opcode, header fields. EXT_LEN against the command's need and DEADLINE
follow where the command runs. -/
def headerReply (s : State) (e : List Byte) : Option Reply :=
  let op := bytesAt e 0 2
  let a := bytesAt e 8 8
  orElse [ refuse (s.flt.deviceError && op != 0x0102) stDeviceError, refuse (!opcodeDefined op) stBadOpcode,
           badField (decide (1 < bytesAt e 4 1)) 4, badField (a % 64 != 0 || (bytesAt e 5 1 == 0 && a != 0)) 8 ]

/-- A command enters the list of those in progress, with a fresh key; `why` is the reply that refuses it already. -/
def takeCommand (src : Nat) (idx : BitVec 32) (e ext : List Byte) (why : Option Reply) (s : State) : State :=
  let op := bytesAt e 0 2
  let c : Cmd := {
    key := s.stw.nextKey, src := src, fetchIdx := idx, opcode := op, cid := bytesAt e 2 2, ordered := bit (bytesAt e 4 1) 0
    extLen := bytesAt e 5 1, extAddr := bytesAt e 8 8, deadline := if bytesAt e 6 2 = 0 then (deadlines op).1 else bytesAt e 6 2
    entry := fitBytes 64 e, ext := fitBytes (64 * bytesAt e 5 1) ext, fetchBeat := s.tim.beat }
  let c := match why with
    | some r => c.answer r
    | none => c
  { s with cmds := s.cmds ++ [c], stw := { s.stw with nextKey := s.stw.nextKey + 1 } }

/-- COMMAND_FETCH: the entry at CMD_HEAD, with its extended payload, while a completion slot is free and at most 1,024 commands are in progress (R386).
The mailbox engine fetches in device error (R396); commands waiting in a resetting partition's ring are refused (R402). -/
def execCommandFetch (m : Nat) (entry ext : List (BitVec 8)) (s : State) : Host.Outcome State Fault Refusal :=
  .next (
    let b := s.mb m
    if windowOpen s m ∧ b.enable = true ∧ b.bell.any (fun t => t != b.cmdHead) = true ∧ s.cmds.length < 1024 ∧
        inflight s m + (b.cplTail - b.cplHead).toNat < 256 then
      let why := match headerReply s entry with
        | some r => some r
        | none => if resetting s (partOfMb s m) then some (.no stPartitionResetting) else none
      takeCommand m b.cmdHead entry ext why (s.setMb m { b with cmdHead := b.cmdHead + 1 })
    else s)

/-! ### Withdrawing (R393, R395) -/

/-- Entry `e` without command `k`. -/
def FaultE.without (k : Nat) (e : FaultE) : FaultE := { e with cmds := e.cmds.filter (fun c => c != k) }

/-- The `dev.unit.enable` command `k` is withdrawn: an entry that no other command waits for leaves the queue; its recovery, where it runs, stops, and the unit
stays out of service (R467). -/
def withdrawEnable (k : Nat) (s : State) : State :=
  let gone := fun (e : FaultE) => e.cmds == [k]
  let stop : Bool := s.flt.active.any gone
  let s' := { s with flt := { s.flt with
    queue := (s.flt.queue.filter (fun e => !gone e)).map (FaultE.without k)
    active := (s.flt.active.filter (fun e => !gone e)).map (FaultE.without k) } }
  match s.flt.active with
  | some a =>
    if !stop then s'
    else
      let u := if a.kind = 4 then a.index else 16 + a.index
      let s' := match a.kind with
        | 0 => (List.range 8).foldl (fun (s : State) b => dropProc (8 * a.index + b) s) s'
        | 1 => dropProc (8 * a.index + a.sub) s'
        | 4 => s'.modMemTop (fun t => { t with retrain := t.retrain.filter (fun x => x != u), queue := t.queue.filter (fun x => x != u) })
        | 5 => s'.modMemTop (fun t => { t with retrain := t.retrain.filter (fun x => x != u), queue := t.queue.filter (fun x => x != u) })
        | _ => s'
      markFenced a.kind a.index a.sub s'
  | none => s'

/-- What is undone when command `c` ends before its commit: the context of a chunk fails, calibration procedures that have not applied are abandoned,
a check, an enable, a test's start, a self-test or a partition reset is given up (R181, R187, R316, R393, R394, R467). -/
def undoCommand (c : Cmd) (s : State) : State :=
  if !c.started then s
  else match c.opcode with
    | 0x0402 => undoCalRun c.key s
    | 0x0404 => kaEnd c.key s
    | 0x0131 => s.modPartOf (c.at 16 1) (fun x => { x with resetReq := false, cmd := none })
    | 0x0111 => withdrawEnable c.key s
    | 0x0502 => failCtx (c.at 16 1) s
    | 0x0D05 => { s with eng := { s.eng with startPend := false, testCmd := none } }
    | 0x0E03 => s.modMon (c.at 16 1) (fun m => { m with selfCmd := none })
    | _ => s

/-- COMMAND_DEADLINE: a command that has not committed when its deadline passes has no effect (R393). -/
def execCommandDeadline (k : Nat) (s : State) : Host.Outcome State Fault Refusal :=
  .next (
    match cmdOf s k with
    | some c =>
      if c.decided = false ∧ c.committed = false ∧ c.fetchBeat + 1000 * c.deadline ≤ s.tim.beat then
        finishCmd k { status := stTimedOut } (if c.opcode = 0x0502 then failCtx (c.at 16 1) s else undoCommand c s)
      else s
    | none => s)

/-- DEV_CMD_CANCEL: the earliest fetched command of the mailbox with the CID (R395, R404). -/
def execDevCmdCancel (k : Nat) (s : State) : Host.Outcome State Fault Refusal :=
  .next (runCmd k 0x0103 (fun c s =>
    checked [ badField (decide (63 < c.at 16 1)) 16, c.rsvd 17 18, c.rsvd 20 64 ]
      (fun s =>
        match s.cmds.find? (fun d => d.key != k && d.src == c.at 16 1 && d.cid == c.at 18 2 && !(d.decided && d.status == stAborted)) with
        | none => (s, .no stOutOfRange)
        | some d =>
          if d.committed ∨ d.decided then (s, .no stAlreadyDone)
          else (finishCmd d.key { status := stAborted } (undoCommand d s), {})) s) s)

end Sys2Proof.Machine
end

