-- ==== Sys2Proof/Machine/Boot.lean ====
section
/-! DEFINITION. Reset and the boot set: RESET_N, PWROK, REFCLK, `dev.reset`, and the CXL.mem decoders (R408, R413, R429, R471, R500, R501). -/

namespace Sys2Proof.Machine

open Sys2Proof

/-- The domains of the boot set, marked B in R431. -/
def bootDomains : List Nat := [208, 209, 210, 211, 216, 217, 222, 223]

/-- What survives a reset: fuses and flash (R471, R483). -/
def Sec.kept (x : Sec) : Sec :=
  { serial := x.serial, part := x.part, stepping := x.stepping, revoked := x.revoked, minSvn := x.minSvn, roots := x.roots
    factoryLock := x.factoryLock, tokens := x.tokens, flashImg := x.flashImg, select := x.select, selectSeq := x.selectSeq, leaf := x.leaf
    lightStore := x.lightStore, factoryFlash := x.factoryFlash, identity := x.identity }

/-- The device at power-off, as a fall of RESET_N or PWROK leaves it (R429): fuses, flash, the input pins, host memory, the free values drawn
and the queue stand. -/
def resetTo (s : State) : State :=
  { State.reset with
    sec := s.sec.kept
    pins := { State.reset.pins with rstN := s.pins.rstN, pwrok := s.pins.pwrok, refclk := s.pins.refclk, leFltN := s.pins.leFltN }
    hostMem := s.hostMem, free := s.free, pending := s.pending }

/-- The boot set powers up (R408): its domains, the measurement of fuses and ROM (M0), and the next boot key (R476). -/
def bootStart (s : State) : State :=
  takeLeaf (extendMeas 0 (Config.sha384 (fuseImage s) ++ Config.romVersion) { s with pwr := { s.pwr with on := bootDomains } })

/-- `dev.reset` and MG_RESET act as RESET_N: the device resets and starts again at the boot set (R429, R490). -/
def devReset (s : State) : State := bootStart (resetTo s)

/-- RESET_N_RISE with PWROK high (R408). -/
def execResetNRise (s : State) : Host.Outcome State Fault Refusal :=
  .next (
    if s.pins.rstN = false ∨ (s.pins.pwrok = false ∧ s.thm.shutdown = false) then
      bootStart { s with pins := { s.pins with rstN := true, pwrok := true } }
    else s)

/-- BOOT_SET_READY: BOOT_OK, the licences and M1 (R408, R481); without LINK24 ports 6 to 23 are absent (R348). -/
def execBootSetReady (s : State) : Host.Outcome State Fault Refusal :=
  .next (
    if s.pins.rstN && s.pins.pwrok && s.pins.refclk && s.pwr.on.contains 217 && !s.bu.bootOk then
      let s := verifyLicences { s with bu := { s.bu with bootOk := true } }
      if licensed s 1 then s
      else ((List.range 18).map (· + 6)).foldl (fun (s : State) p => s.modPort p (fun l => { l with state := 3, reason := 1 })) s
    else s)

/-- RESET_N_FALL (R429, R451, R468). -/
def execResetNFall (s : State) : Host.Outcome State Fault Refusal :=
  .next (resetTo { s with pins := { s.pins with rstN := false } })

/-- PWROK_FALL (R429, R436); thermal shut-down holds its pins until RESET_N falls (R451, R500). -/
def execPwrokFall (s : State) : Host.Outcome State Fault Refusal :=
  .next (
    let s := { s with pins := { s.pins with pwrok := false } }
    if s.thm.shutdown then s else resetTo s)

/-- REFCLK_LOSS (R501): after step 2 as a fall of RESET_N; the device stays in reset. -/
def execRefclkLoss (s : State) : Host.Outcome State Fault Refusal :=
  .next (
    let s := { s with pins := { s.pins with refclk := false } }
    if 2 ≤ s.bu.step then
      let s := resetTo s
      { s with pins := { s.pins with held := true } }
    else s)

/-- REFCLK_RESTORE (R501): REFCLK has held its limits for 1 ms. -/
def execRefclkRestore (s : State) : Host.Outcome State Fault Refusal :=
  .next (
    if s.pins.refclk then s
    else
      let held := s.pins.held
      let s := { s with pins := { s.pins with refclk := true, held := false } }
      if held && s.pins.rstN && s.pins.pwrok then bootStart s else s)

/-- DEV_RESET (R394, R396, R429): `accepted`; the reset begins once the completion is reported. -/
def execDevReset (k : Nat) (s : State) : Host.Outcome State Fault Refusal :=
  .next (
    if s.flt.deviceError then
      (match cmdOf s k with
        | some c => if c.opcode = 0x0102 then finishCmd k { status := stAccepted } s else s
        | none => s)
    else runCmd k 0x0102 (fun c s => checked [ c.rsvd 16 64 ] (fun s => (s, { status := stAccepted })) s) s)

/-- DECODER_COMMIT (R287, R413): region `region` (0 HBM, 1 DDR, 2 SRAM) at host base `base`; refused before step 3 completes. -/
def execDecoderCommit (region base : Nat) (s : State) : Host.Outcome State Fault Refusal :=
  .next (
    if 3 ≤ s.bu.step ∧ region < 3 ∧ s.memTop.decoders.getLsbD region = false then
      { s with memTop := { s.memTop with decoders := s.memTop.decoders ||| BitVec.twoPow 3 region, decBase := tset 0 s.memTop.decBase region base } }
    else s)

/-! ### Completion (R382, R389) -/

/-- The 32 bytes of a completion entry (R389). -/
def completionEntry (s : State) (c : Cmd) (idx : Nat) : List Byte :=
  leBytes 2 c.cid ++ leBytes 2 c.opcode ++ leBytes 1 c.status ++ leBytes 1 (phaseOf idx) ++ leBytes 2 c.detail ++ fitBytes 16 c.result ++
  leBytes 4 (min 0xFFFFFFFF (s.tim.beat - c.fetchBeat)) ++ leBytes 4 c.fetchIdx.toNat

/-- The mailbox that has drained stops (R383). -/
def Mb.drained (b : Mb) (left : Nat) : Mb := if b.draining ∧ left = 0 then { b with draining := false } else b

/-- The report of a decided command leaves the device (R389, R487). -/
def reportCmd (c : Cmd) (s : State) : State :=
  let out := c.output.take (64 * c.extLen)
  let s := { s with cmds := s.cmds.filter (fun d => d.key != c.key) }
  if c.src = 64 then { s with stw := { s.stw with mgOut := [0x81] ++ completionEntry s c 0 ++ out } }
  else
    let b := s.mb c.src
    let s := hostWrite c.extAddr out s
    let s := hostWrite (b.cplBase.toNat + 32 * (b.cplTail.toNat % 256)) (completionEntry s c b.cplTail.toNat) s
    let s := s.setMb c.src ({ b with cplTail := b.cplTail + 1 }.drained (inflight s c.src))
    if b.cplIrq then msix c.src s else s

/-- COMMAND_COMPLETE: output, completion entry, CPL_TAIL and vector m, in that order (R389); over the management interface, the response (R487).
`dev.reset` resets the device once reported (R394, R396). -/
def execCommandComplete (k : Nat) (s : State) : Host.Outcome State Fault Refusal :=
  .next (
    match cmdOf s k with
    | some c =>
      if c.decided then
        let s := reportCmd c s
        if c.opcode = 0x0102 ∧ c.status = stAccepted then devReset s else s
      else s
    | none => s)

end Sys2Proof.Machine
end

