-- ==== Sys2Proof/Machine/LinkFlits.lean ====
section
/-! DEFINITION. Link ports below the packet layer: packets as flits, credits, replay, steering, and ports that train, narrow and
fall (R347 to R361, R369). -/

namespace Sys2Proof.Machine

open Sys2Proof

/-! ### Packets as flits (R355, R361) -/

/-- CLASS of a packet type (R355): requests, responses, control. -/
def classOfType (t : Nat) : Nat := if t ≤ 2 then 0 else if t ≤ 4 then 1 else 2

/-- The pool of a class and virtual channel (R357). -/
def poolOf (cls vc : Nat) : Nat := 3 * cls + vc

/-- The pool of a packet. -/
def pkPool (pk : Packet) : Nat := poolOf (classOfType pk.type) pk.vc

/-- The pool of a flit. -/
def flPool (fl : Flit) : Nat := poolOf fl.cls fl.vc

/-- Data words of a packet: whole aligned 64-bit words (R361). -/
def pkWords (pk : Packet) : Nat := if pk.bytes = 0 then 0 else (pk.firstByte + pk.bytes + 7) / 8

/-- The 16 header bytes (R361). -/
def pkHeader (pk : Packet) : List Byte :=
  leBytes 2 pk.dst ++ leBytes 2 pk.src ++ leBytes 1 (pk.type + 16 * b01 pk.escape) ++ leBytes 1 pk.hops ++ leBytes 6 pk.addr ++
  leBytes 2 (pk.firstByte + 8 * pk.bytes) ++ leBytes 2 pk.opref

/-- The payload bytes of a packet: its header, then its data in whole words, the bytes outside the valid ones zero. -/
def pkImage (pk : Packet) : List Byte :=
  (pkHeader pk) ++ fitBytes (8 * (pkWords pk)) (if pk.bytes = 0 then [] else List.replicate pk.firstByte 0 ++ pk.data)

/-- Flits of a packet: 240 payload bytes each (R354). -/
def pkFlits (pk : Packet) : Nat := (16 + 8 * (pkWords pk) + 239) / 240

/-- Flit `i` of a packet, before its sequence number and credits: word i of the payload is poisoned as the packet says. -/
def pkFlit (pk : Packet) (i : Nat) : Flit :=
  { kind := 1, sop := decide (i = 0), eop := decide (i + 1 = (pkFlits pk)), cls := classOfType pk.type, vc := pk.vc
    poison := BitVec.ofNat 30 (listMask 30 ((List.range 30).filter (fun j => decide (2 ≤ 30 * i + j) && pk.poison.contains (30 * i + j - 2))))
    payload := fitBytes 240 ((pkImage pk).drop (240 * i)) }

/-- The flits of pool `q` at the head of a receive buffer, up to the end of the first packet. -/
def headFlits (q : Nat) : List Flit → List Flit
  | [] => []
  | fl :: l => if (flPool fl) = q then (if fl.eop then [fl] else fl :: headFlits q l) else headFlits q l

/-- The packet that flits of one pool carry, once its last flit is there. -/
def packetOf (l : List Flit) : Option Packet :=
  match l with
  | [] => none
  | fl :: _ =>
    if !(fl.sop && l.any (fun x => x.eop)) then none
    else
      let im := (l.map (fun x => x.payload)).flatten
      let fb := bytesAt im 12 2 % 8
      let n := bytesAt im 12 2 / 8
      let bad := ((List.range l.length).map (fun i => ((List.range 30).filter (fun j => ((l.getD i {}).poison.getLsbD j))).map (fun j => 30 * i + j))).flatten
      some { dst := bytesAt im 0 2, src := bytesAt im 2 2, type := bytesAt im 4 1 % 16, escape := bit (bytesAt im 4 1) 4, hops := bytesAt im 5 1
             addr := bytesAt im 6 6, firstByte := fb, bytes := n, opref := bytesAt im 14 2, vc := fl.vc
             data := (im.drop (16 + fb)).take n, poison := (bad.filter (fun w => decide (2 ≤ w))).map (fun w => w - 2) }

/-- A receive buffer without the flits of its first packet in pool `q`. -/
def dropPacket (q : Nat) : List Flit → List Flit
  | [] => []
  | fl :: l => if (flPool fl) = q then (if fl.eop then l else dropPacket q l) else fl :: dropPacket q l

/-! ### Credits (R357) -/

/-- Reserved credits of pool `q` in use. -/
def LinkPort.used (l : LinkPort) (q : Nat) : Nat := tget 0 l.credits q

/-- Credits that a flit of pool `q` may use. -/
def LinkPort.free (l : LinkPort) (q : Nat) : Nat := 64 - l.used q + l.shared

/-- A credit of pool `q` taken: a reserved one first; the flag says that a shared one went. -/
def LinkPort.take (l : LinkPort) (q : Nat) : LinkPort × Bool :=
  if l.used q < 64 then ({ l with credits := tset 0 l.credits q (l.used q + 1) }, false) else ({ l with shared := l.shared - 1 }, true)

/-- `n` credits returned to pool `q`, or to the shared credits (9). -/
def LinkPort.give (l : LinkPort) (q n : Nat) : LinkPort :=
  if q ≤ 8 then { l with credits := tset 0 l.credits q (l.used q - n) }
  else if q = 9 then { l with shared := min 1728 (l.shared + n) } else l

/-- A credit owed to the partner for a flit that leaves the receive buffer. -/
def LinkPort.owe (l : LinkPort) (fl : Flit) : LinkPort :=
  let q := if fl.shared then 9 else (flPool fl)
  { l with owed := tset 0 l.owed q (tget 0 l.owed q + 1) }

/-- The next credits to return, as CR_POOL and CR_COUNT of an outgoing flit, and the port after they are gone (R355). -/
def LinkPort.payCredits (l : LinkPort) : LinkPort × Nat × Nat :=
  match l.owed with
  | [] => (l, 15, 0)
  | (q, n) :: rest => ({ l with owed := rest }, q, n)

/-! ### Sending (R356, R357) -/

/-- The first waiting packet that may send a flit: no earlier packet shares its pool, and the pool has a credit. -/
def LinkPort.nextPacket (l : LinkPort) (seen : List Nat) : List Packet → Option Packet
  | [] => none
  | pk :: rest => if !seen.contains (pkPool pk) && decide (0 < l.free (pkPool pk)) then some pk else l.nextPacket ((pkPool pk) :: seen) rest

/-- `l` without its first member that `p` selects. -/
def dropFirst {α : Type} (p : α → Bool) : List α → List α
  | [] => []
  | x :: l => if p x then l else x :: dropFirst p l

/-- Bytes 0 to 251 of a flit (R355). -/
def flitBytes (fl : Flit) : List Byte :=
  leBytes 1 (fl.kind % 4 + 4 * b01 fl.sop + 8 * b01 fl.eop + 16 * (fl.cls % 4) + 64 * (fl.vc % 4)) ++ leBytes 3 (fl.seq % 4096 + 4096 * (fl.ack % 4096)) ++
  leBytes 4 fl.poison.toNat ++ leBytes 1 (fl.crPool % 16) ++ leBytes 2 fl.crCount ++ leBytes 1 (b01 fl.shared) ++ fitBytes 240 fl.payload

/-- The CRC that a flit should carry (R355). -/
def flitCheck (fl : Flit) : BitVec 32 := BitVec.ofNat 32 (crc32c (flitBytes fl))

/-- A flit leaves port `p`, with ACK, credits and CRC attached. -/
def emitFlit (p : Nat) (fl : Flit) (s : State) : State :=
  let l := s.port p
  let x := l.payCredits
  let fl := { fl with ack := (l.seqRx + 4095) % 4096, crPool := x.2.1, crCount := x.2.2 }
  s.setPort p { x.1 with flits := (l.flits + 1) % 512, txOut := some { fl with crc := flitCheck fl } }

/-- The marker flit of port `p` (R354, R370): it carries a time message when one is due, the beat number and the transmit time within the beat in 0.05 ns. The
manual gives the message no place in the payload; the beat number stands in bytes 0 to 7 and the time in bytes 8 to 11 (DESIGN CHOICE, assumption log 58). -/
def sendMarker (p : Nat) (s : State) : State :=
  let l := s.port p
  emitFlit p { kind := 2, cls := 2, payload := if l.tmDue then leBytes 8 s.tim.beat ++ leBytes 4 (2 * s.tim.t) else [] } (s.setPort p { l with tmDue := false })

/-- FLIT_SEND (R354 to R357): every 512th flit is a marker; else a replay request first, then a flit due again, then the first data flit that holds a credit; else
an idle flit, which returns credits. The last flit of an own packet means that the port has accepted that packet (R361). -/
def sendFlit (p : Nat) (s : State) : State :=
  let l := s.port p
  if l.state ≠ 2 then s
  else if l.flits = 511 then sendMarker p s
  else if l.reqReplay then
    -- a replay request travels in a control flit that asks for SEQ on
    emitFlit p { kind := 0, cls := 2, seq := l.seqRx } (s.setPort p { l with reqReplay := false })
  else if 0 < l.resend then
    match l.replayBuf[l.replayBuf.length - l.resend]? with
    | some fl => emitFlit p fl (s.setPort p { l with resend := l.resend - 1 })
    | none => s.setPort p { l with resend := 0 }
  else
    match (if l.replayBuf.length < 2048 then l.nextPacket [] l.waiting else none) with
    | none => emitFlit p {} s
    | some pk =>
      let q := (pkPool pk)
      let i := tget 0 l.txDone q
      let c := l.take q
      let fl := { pkFlit pk i with seq := l.seqTx, shared := c.2 }
      let l := { c.1 with seqTx := (l.seqTx + 1) % 4096, replayBuf := c.1.replayBuf ++ [fl] }
      let l := if fl.eop then { l with txDone := tset 0 l.txDone q 0, waiting := dropFirst (fun x => pkPool x == q) l.waiting }
               else { l with txDone := tset 0 l.txDone q (i + 1) }
      emitFlit p fl (s.setPort p l)

/-- FLIT_SEND. -/
def execFlitSend (p : Nat) (s : State) : Host.Outcome State Fault Refusal := .next (if p < 24 then sendFlit p s else s)

/-! ### Receiving (R356) -/

/-- The replay buffer without the flits that `ack` covers; a flit newly first starts with no replays. -/
def LinkPort.acked (l : LinkPort) (ack : Nat) : LinkPort :=
  match l.replayBuf.findIdx? (fun x => x.seq == ack) with
  | some i => { l with replayBuf := l.replayBuf.drop (i + 1), replayRow := 0, resend := min l.resend (l.replayBuf.length - (i + 1)) }
  | none => l

/-- FLIT_RECEIVE (R355 to R357): header fields of a sound flit take effect; a data flit is accepted only when its FEC codewords decoded, its CRC
checks and its SEQ is the next, else a replay is requested. `corr` symbols were corrected in the codewords decoded with it, and `uncorr` codewords
were uncorrectable (R379). -/
def execFlitReceive (p : Nat) (fl : Flit) (clean : Bool) (corr uncorr : Nat) (s : State) : Host.Outcome State Fault Refusal :=
  .next (
    let l := s.port p
    if l.state ≠ 2 ∨ 24 ≤ p then s
    else
      let l := { l with fecCorr := satAdd l.fecCorr corr, fecUncorr := satAdd l.fecUncorr uncorr }
      if !(clean && fl.crc == flitCheck fl) then s.setPort p { l with reqReplay := true }
      else
        let l := (l.acked fl.ack).give fl.crPool fl.crCount
        if fl.kind ≠ 1 then s.setPort p l
        else if fl.seq ≠ l.seqRx then s.setPort p { l with reqReplay := true }
        else s.setPort p { l with seqRx := (l.seqRx + 1) % 4096, rxBuf := l.rxBuf ++ [fl], reqReplay := false })

/-- CREDIT_RETURN: credits returned in an idle flit's header (R357). -/
def execCreditReturn (p pool n : Nat) (s : State) : Host.Outcome State Fault Refusal :=
  .next (if p < 24 ∧ (s.port p).state = 2 then s.modPort p (fun l => l.give pool n) else s)

/-! ### Steering (R369) -/

/-- Direction of a port (R347). -/
def dirOf (p : Nat) : Nat := p % 6

/-- The ports of direction `d`. -/
def portsOfDir (d : Nat) : List Nat := [d, d + 6, d + 12, d + 18]

/-- Ports of direction `d` that are up. -/
def upPorts (s : State) (d : Nat) : List Nat := (portsOfDir d).filter (fun p => (s.port p).state == 2)

/-- Every port of direction `d` is down or disabled (R366). A port that trains is neither. -/
def dirDown (s : State) (d : Nat) : Bool := (portsOfDir d).all (fun p => (s.port p).state == 0 || (s.port p).state == 3)

/-- The better of two ports for a packet of pool `q` held on bridge die `die`: more free credits, then the same die, then the lower number. -/
def betterPort (s : State) (q die a b : Nat) : Nat :=
  let x := (s.port a).free q
  let y := (s.port b).free q
  if y < x then a else if x < y then b
  else if a / 12 = die ∧ b / 12 ≠ die then a else if b / 12 = die ∧ a / 12 ≠ die then b else min a b

/-- The port of direction `d` to which a packet of pool `q` on bridge die `die` goes, if one is up. -/
def steer (s : State) (d q die : Nat) : Option Nat :=
  match upPorts s d with
  | [] => none
  | p :: l => some (l.foldl (betterPort s q die) p)

/-- Packets of port `p` that have not started go to another up port of its direction; with none up they wait (R360, R369). -/
def resteer (p : Nat) (s : State) : State :=
  let l := s.port p
  let begun := fun (pk : Packet) => decide (0 < tget 0 l.txDone (pkPool pk)) && (l.waiting.find? (fun x => pkPool x == (pkPool pk)) == some pk)
  let s1 := s.setPort p { l with waiting := l.waiting.filter begun }
  (l.waiting.filter (fun pk => !begun pk)).foldl (fun s pk =>
    match steer s (dirOf p) (pkPool pk) (p / 12) with
    | some r => s.modPort r (fun x => { x with waiting := x.waiting ++ [pk] })
    | none => s.modPort p (fun x => { x with waiting := x.waiting ++ [pk] })) s1

/-! ### Ports that come up, fall and narrow (R351, R353, R358 to R360) -/

/-- Milliseconds since the rising edge of RESET_N, as beat counting and the last told time give them (R373). -/
def inMuster (s : State) : Bool := decide (1 ≤ s.link.phase ∧ s.link.phase ≤ 3)

/-- LANE_EN of a port whose quads are `q`. -/
def lanesOf (q : BitVec 4) : BitVec 16 := BitVec.ofNat 16 (listMask 16 ((List.range 16).filter (fun n => q.getLsbD (n / 4))))

/-- A port starts training; its packets are steered elsewhere (R360). -/
def startTraining (p : Nat) (s : State) : State :=
  resteer p ((s.modPort p (fun l => { l with state := 1, retries := 0, dropAt := none })).modPins (fun x =>
    { x with leEn := x.leEn ||| BitVec.twoPow 24 p }))

/-- A command that waits for the port is answered. -/
def answerPort (p : Nat) (r : Reply) (s : State) : State :=
  match (s.port p).cmd with
  | none => s
  | some k => finishCmd k r (s.modPort p (fun l => { l with cmd := none }))

/-- A port fails to train: it retries every 2 s, and after the third failed retry its lanes are a unit fault (R360). During muster it retries
until 120 s (R373). -/
def trainFailed (p reason : Nat) (s : State) : State :=
  let l := s.port p
  let n := min 3 (l.retries + 1)
  let s := s.setPort p { l with state := 0, reason := reason, retries := n, retryAt := s.tim.beat }
  let s := answerPort p { status := stDegraded } s
  if l.retries = 3 ∧ !inMuster s then raiseFault 0x30 6 p (15 - (s.port p).disQuads.toNat) 0 s else s

/-- LINK_PORT_TRAINED (R353, R358, R360, R374): the port is up at the widest width its lanes passed, and resends from the first unacknowledged
flit; ends whose FEC modes differ leave it down with FEC_MISMATCH. While LE_FLT_N is low no training restores the port (R351). -/
def execLinkPortTrained (p : Nat) (quads : BitVec 4) (peerLight ok : Bool) (s : State) : Host.Outcome State Fault Refusal :=
  .next (
    let l := s.port p
    let ok := ok && s.pins.leFltN.getLsbD p
    if 24 ≤ p ∨ l.state ≠ 1 then s
    else if ok ∧ peerLight ≠ l.lightNext then trainFailed p 5 s
    else
      let q := quads &&& ~~~l.disQuads
      if !ok ∨ q = 0 then trainFailed p 6 s
      else
        let s := s.setPort p { l with
          state := 2, quadOk := q, width := popcount 4 q.toNat - 1, light := l.lightNext, reason := 0, retries := 0
          laneEn := lanesOf q, resend := l.replayBuf.length, reqReplay := false }
        let s := answerPort p {} s
        if s.link.phase = 1 then { s with link := { s.link with phase := 2 } } else s)

/-- The neighbour of this device in direction `d`; the device itself where the dimension has length 1 (R365). -/
def neighbour (s : State) (c d : Nat) : Nat :=
  let x := c % 16
  let y := c / 16 % 32
  let z := c / 512
  let lx := s.link.lenX + 1
  let ly := s.link.lenY + 1
  let lz := s.link.lenZ + 1
  match d with
  | 0 => (x + 1) % lx + 16 * y + 512 * z
  | 1 => (x + lx - 1) % lx + 16 * y + 512 * z
  | 2 => x + 16 * ((y + 1) % ly) + 512 * z
  | 3 => x + 16 * ((y + ly - 1) % ly) + 512 * z
  | 4 => x + 16 * y + 512 * ((z + 1) % lz)
  | _ => x + 16 * y + 512 * ((z + lz - 1) % lz)

/-- The coordinate index x + 16·y + 384·z (R365). -/
def coordIdx (c : Nat) : Nat := c % 16 + 16 * (c / 16 % 32) + 384 * (c / 512)

/-- The coordinate of an index. -/
def idxCoord (i : Nat) : Nat := i % 16 + 16 * (i / 16 % 24) + 512 * (i / 384)

/-- A device with every port to it down has become absent: its neighbours flood a route update that names it and a switch beat 1,000 beats on
(R377; the device floods the earliest beat allowed, DEDUCED). -/
def checkAbsent (d : Nat) (s : State) : State :=
  let n := neighbour s s.link.coord d
  let towards := (List.range 6).filter (fun e => neighbour s s.link.coord e == n)
  if s.link.phase = 4 ∧ n ≠ s.link.coord ∧ !s.link.absent.contains n ∧ towards.all (dirDown s) = true ∧
      !s.link.pendRoute.any (fun x => x.1 == n && !x.2.1) then
    let b := s.tim.beat + 1000
    { s with link := { s.link with floods := s.link.floods ++ [(7, b, [n])], pendRoute := s.link.pendRoute ++ [(n, false, b)] } }
  else s

/-- A port goes down (R360): its packets move to other ports of the direction. -/
def portDown (p : Nat) (s : State) : State :=
  let l := s.port p
  if l.state = 3 then s
  else checkAbsent (dirOf p) (resteer p (s.setPort p { l with state := 0, resend := l.replayBuf.length }))

/-- LINK_PORT_DOWN. -/
def execLinkPortDown (p : Nat) (s : State) : Host.Outcome State Fault Refusal :=
  .next (if p < 24 ∧ (s.port p).state ≠ 3 then portDown p s else s)

/-- REPLAY_REQUEST (R356): the sender resends from the first unacknowledged flit, which the request names; sixteen consecutive replays of one flit
take the port down, and it retrains. -/
def execReplayRequest (p frm : Nat) (s : State) : Host.Outcome State Fault Refusal :=
  .next (
    if 24 ≤ p ∨ (s.port p).state ≠ 2 then s
    else
      let l := (s.port p).acked ((frm + 4095) % 4096)
      if l.replayBuf = [] then s.setPort p l
      else
        let l := { l with replays := satInc l.replays, replayRow := l.replayRow + 1, resend := l.replayBuf.length }
        if 16 ≤ l.replayRow then startTraining p (s.setPort p { l with replayRow := 0 }) else s.setPort p l)

/-- LANE_FAIL (R358): the quads that hold failed lanes are dropped and LINK_LANE_DROP names them; with none left the port is down. -/
def execLaneFail (p lane : Nat) (s : State) : Host.Outcome State Fault Refusal :=
  .next (
    let l := s.port p
    let q := BitVec.twoPow 4 (lane / 4)
    if p < 24 ∧ lane < 16 ∧ l.state = 2 ∧ l.quadOk &&& q ≠ 0 then
      let l' := l.dropQuads q
      let s := s.setPort p { l' with laneEn := lanesOf l'.quadOk, dropAt := some s.tim.beat, resend := l.replayBuf.length }
      let s := post 0x0802 (leBytes 1 p ++ leBytes 1 q.toNat) s
      if l'.state = 0 then portDown p s else s
    else s)

/-- LANE_DROP_RETRAIN (R359): once, 1 s after the drop. -/
def execLaneDropRetrain (p : Nat) (s : State) : Host.Outcome State Fault Refusal :=
  .next (
    let l := s.port p
    if p < 24 ∧ l.state ≠ 3 ∧ s.pins.leFltN.getLsbD p = true ∧ l.dropAt.any (fun b => decide (b + 1000000 ≤ s.tim.beat)) = true then startTraining p s else s)

/-- PORT_TRAIN_RETRY (R360): every 2 s. -/
def execPortTrainRetry (p : Nat) (s : State) : Host.Outcome State Fault Refusal :=
  .next (
    let l := s.port p
    if p < 24 ∧ l.state = 0 ∧ l.retries ≠ 0 ∧ l.retryAt + 2000000 ≤ s.tim.beat then s.setPort p { l with state := 1 } else s)

/-- LE_FLT_N_FALL (R351): an enabled port goes down, and LINK_ENGINE_FAULT names it. -/
def execLeFltNFall (p : Nat) (s : State) : Host.Outcome State Fault Refusal :=
  .next (
    if 24 ≤ p then s
    else
      let s := s.modPins (fun x => { x with leFltN := x.leFltN &&& ~~~(BitVec.twoPow 24 p) })
      if s.pins.leEn.getLsbD p then post 0x0801 (leBytes 1 p) (portDown p s) else s)

/-- LE_FLT_N_RESTORE (R351): the pin has stayed high for 100 ms, and the port retrains. -/
def execLeFltNRestore (p : Nat) (s : State) : Host.Outcome State Fault Refusal :=
  .next (
    if 24 ≤ p ∨ s.pins.leFltN.getLsbD p then s
    else
      let s := s.modPins (fun x => { x with leFltN := x.leFltN ||| BitVec.twoPow 24 p })
      if s.pins.leEn.getLsbD p ∧ (s.port p).state = 0 then startTraining p s else s)

/-- LIGHT_ENGINE_POLL (R351): the last readings; an engine that does not answer or whose PROFILE is not 0x0001 leaves its port disabled. -/
def execLightEnginePoll (p : Nat) (answers : Bool) (profile status temp : BitVec 16) (rx : List Int) (s : State) :
    Host.Outcome State Fault Refusal :=
  .next (
    if 24 ≤ p then s
    else if answers ∧ profile = 1 then
      s.modPort p (fun l => { l with engStatus := status, engTemp := temp, engRx := rx.take 16 })
    else if (s.port p).state = 3 then s
    else
      let s := answerPort p { status := stDegraded } (portDown p s)
      (s.modPort p (fun l => { l with state := 3, reason := 2 })).modPins (fun x => { x with leEn := x.leEn &&& ~~~(BitVec.twoPow 24 p) }))

end Sys2Proof.Machine
end

