-- ==== Sys2Proof/Machine/LinkRoute.lean ====
section
/-! DEFINITION. Routing and delivery of packets: the normal path, datelines, the escape path on the muster tree, and what arrives here
(R361 to R369). -/

namespace Sys2Proof.Machine

open Sys2Proof

/-! ### The torus (R365 to R367) -/

/-- Component of a coordinate: dimension 0 x, 1 y, 2 z. -/
def coordAt (c i : Nat) : Nat := if i = 0 then c % 16 else if i = 1 then c / 16 % 32 else c / 512

/-- Length of a dimension. -/
def lenAt (s : State) (i : Nat) : Nat := (if i = 0 then s.link.lenX else if i = 1 then s.link.lenY else s.link.lenZ) + 1

/-- A coordinate of the torus. -/
def inTorus (s : State) (c : Nat) : Bool := (List.range 3).all (fun i => decide (coordAt c i < lenAt s i))

/-- A device that routes may pass and reach: in the torus and not absent. -/
def presentDev (s : State) (c : Nat) : Bool := inTorus s c && !s.link.absent.contains c

/-- The hop in direction `d` from device `c` is available (R366): the neighbour is present and, for this device's own hop, not every port of the
direction is down or disabled. No message tells a device the port states of another, so other devices' hops rest on presence alone (DEDUCED). -/
def hopAvailable (s : State) (c d : Nat) : Bool :=
  presentDev s (neighbour s c d) && !(decide (c = s.link.coord) && dirDown s d)

/-- Every one of the next `n` hops in direction `d` from `c` is available. -/
def arcAvailable (s : State) (d : Nat) : Nat → Nat → Bool
  | 0, _ => true
  | n + 1, c => hopAvailable s c d && arcAvailable s d n (neighbour s c d)

/-- Direction and length of the two arcs of dimension `i`, the shorter first; a tie goes to the + direction. -/
def arcs (s : State) (i : Nat) (cur dst : Nat) : (Nat × Nat) × (Nat × Nat) :=
  let L := lenAt s i
  let up := (coordAt dst i + L - coordAt cur i) % L
  if up ≤ L - up then ((2 * i, up), (2 * i + 1, L - up)) else ((2 * i + 1, L - up), (2 * i, up))

/-- The normal path's next direction from `cur` to `dst`; none in the escape case (R366). -/
def normalDir (s : State) (cur dst : Nat) : Option Nat :=
  match (List.range 3).find? (fun i => coordAt cur i != coordAt dst i) with
  | none => none
  | some i =>
    let a := arcs s i cur dst
    if arcAvailable s a.1.1 a.1.2 cur then some a.1.1 else if arcAvailable s a.2.1 a.2.2 cur then some a.2.1 else none

/-- The hop from `cur` in direction `d` crosses the dateline of its ring (R367). -/
def crossesDateline (s : State) (cur d : Nat) : Bool :=
  let x := coordAt cur (d / 2)
  if d % 2 = 0 then decide (x + 1 = lenAt s (d / 2)) else decide (x = 0)

/-! ### The muster tree (R368, R375) -/

/-- Order in which equal parents are preferred: X−, X+, Y−, Y+, Z−, Z+ (R375). -/
def parentOrder : List Nat := [1, 0, 3, 2, 5, 4]

/-- One more ring of a breadth-first walk over present devices: those seen so far with their hops, and the newest ring. -/
def bfsRing (s : State) (n : Nat) (seen : List (Nat × Nat)) (ring : List Nat) : List (Nat × Nat) × List Nat :=
  ring.foldl (fun acc c => parentOrder.foldl (fun (acc : List (Nat × Nat) × List Nat) d =>
    let m := neighbour s c d
    if presentDev s m && !acc.1.any (fun x => x.1 == m) then (acc.1 ++ [(m, n)], acc.2 ++ [m]) else acc) acc) (seen, [])

/-- Breadth-first walk of at most `fuel` rings. -/
def bfsFrom (s : State) : Nat → Nat → List (Nat × Nat) → List Nat → List (Nat × Nat)
  | 0, _, seen, _ => seen
  | fuel + 1, n, seen, ring => if ring = [] then seen else let x := bfsRing s n seen ring; bfsFrom s fuel (n + 1) x.1 x.2

/-- Hops of every reachable device from the root (R375). -/
def treeHops (s : State) (root : Nat) : List (Nat × Nat) :=
  bfsFrom s (lenAt s 0 * lenAt s 1 * lenAt s 2) 1 [(root, 0)] [root]

/-- Hops of device `c`. -/
def hopsOf (t : List (Nat × Nat)) (c : Nat) : Option Nat := (t.find? (fun x => x.1 == c)).map Prod.snd

/-- The direction of the parent of `c` (R375). -/
def parentDir (s : State) (t : List (Nat × Nat)) (c : Nat) : Option Nat :=
  match hopsOf t c with
  | some (n + 1) => parentOrder.find? (fun d => hopsOf t (neighbour s c d) == some n)
  | _ => none

/-- `c` and its ancestors, nearest first. -/
def ancestors (s : State) (t : List (Nat × Nat)) : Nat → Nat → List Nat
  | 0, c => [c]
  | n + 1, c => match parentDir s t c with
    | some d => c :: ancestors s t n (neighbour s c d)
    | none => [c]

/-- The escape path's next direction (R368): towards the root until an ancestor of the destination, then down to it. -/
def escapeDir (s : State) (cur dst : Nat) : Option Nat :=
  let t := treeHops s s.link.root
  let up := ancestors s t t.length dst
  match up.findIdx? (fun c => c == cur) with
  | some 0 => none
  | some (i + 1) => let child := up.getD i 0; parentOrder.find? (fun d => neighbour s cur d == child)
  | none => parentDir s t cur

/-! ### Forwarding (R366 to R369) -/

/-- The direction that packet `pk` takes from here and the packet as it leaves: VC, escape flag and HOPS; `frm` the direction of the port it came
over, 6 for an own packet. A packet crosses its dateline on VC1 (DEDUCED). -/
def routePacket (s : State) (pk : Packet) (frm : Nat) : Option (Nat × Packet) :=
  let cur := s.link.coord
  let esc := fun (_ : Unit) => (escapeDir s cur pk.dst).map (fun d => (d, { pk with vc := 2, escape := true, hops := pk.hops + 1 }))
  if pk.vc = 2 then esc ()
  else match normalDir s cur pk.dst with
    | some d =>
      let v := if frm < 6 ∧ frm / 2 = d / 2 then pk.vc else 0
      some (d, { pk with vc := if crossesDateline s cur d then 1 else v, hops := pk.hops + 1 })
    | none => esc ()

/-- The remote op whose packet carries `opref`, told that a port has accepted `n` of its bytes: at none left its work is done (R260, R361). -/
def acceptBytes (opref n : Nat) (s : State) : State :=
  { s with ops := s.ops.map (fun o =>
    if o.remote ∧ o.acks.contains opref then
      let left := o.toSend - n
      { o with toSend := left, stage := if left = 0 ∧ o.stage = 2 then 3 else o.stage }
    else o) }

/-- A packet taken from where it waits: the receive buffer of port `frm` with its credits owed, or this device's own packets. -/
def takePacket (pk : Packet) (frm : Nat) (s : State) : State :=
  if frm < 24 then
    s.modPort frm (fun l =>
      { (headFlits (pkPool pk) l.rxBuf).foldl (fun (l : LinkPort) fl => l.owe fl) l with rxBuf := dropPacket (pkPool pk) l.rxBuf })
  else acceptBytes pk.opref pk.bytes { s with link := { s.link with own := dropFirst (fun x => x == pk) s.link.own } }

/-- The packet is the first of its pool at port `frm`, or waits among this device's own. -/
def packetWaits (s : State) (pk : Packet) (frm : Nat) : Bool :=
  if frm < 24 then packetOf (headFlits (pkPool pk) (s.port frm).rxBuf) == some pk else s.link.own.contains pk

/-- An own packet whose destination is absent: it waits for LINK_WRITE_LOST (R362, R377). -/
def noteAbsent (pk : Packet) (s : State) : State :=
  if s.link.pending10.any (fun x => x.1 == pk.opref) then s
  else { s with link := { s.link with pending10 := s.link.pending10 ++ [(pk.opref, s.tim.beat)] } }

/-- A packet leaves without being delivered. -/
def discardPacket (pk : Packet) (frm : Nat) (s : State) : State :=
  let s := takePacket pk frm s
  if pk.src = s.link.coord ∧ pk.type ≤ 2 then noteAbsent pk s else s

/-- PACKET_FORWARD (R361, R366 to R369): at its destination the packet leaves the network; at 255 hops it is discarded; else it goes to the port of its
direction with the most free credits, and waits while none is up. Without a route table nothing is forwarded. -/
def execPacketForward (pk : Packet) (frm : Nat) (s : State) : Host.Outcome State Fault Refusal :=
  .next (
    if 24 < frm ∨ packetWaits s pk frm = false then s
    else if pk.dst = s.link.coord then
      let s := takePacket pk frm s
      { s with link := { s.link with delivered := s.link.delivered ++ [pk] } }
    else if s.link.routed = false ∨ s.link.phase = 5 then s
    else if 255 ≤ pk.hops + 1 then
      let s := discardPacket pk frm s
      post 0x0808 [] { s with link := { s.link with lost := s.link.lost + 1 } }
    else if !presentDev s pk.dst then discardPacket pk frm s
    else match routePacket s pk (if frm < 24 then dirOf frm else 6) with
      | none => discardPacket pk frm s
      | some (d, pk') =>
        match steer s d (pkPool pk') (if frm < 24 then frm / 12 else 0) with
        | none => s
        | some p => (takePacket pk frm s).modPort p (fun l => { l with waiting := l.waiting ++ [pk'] }))

/-! ### Arrivals (R362, R364) -/

/-- An answer to a packet: type 3 write ack or 4 refuse ack. -/
def answerPacket (pk : Packet) (type : Nat) (s : State) : State :=
  { s with link := { s.link with own := s.link.own ++ [{ dst := pk.src, src := s.link.coord, type := type, opref := pk.opref }] } }

/-- First byte address of the packet's valid data. -/
def pkStart (pk : Packet) : Nat := pk.addr + pk.firstByte

/-- Why a remote write is refused (R290, R310, R343, R362): nothing, out of reach, an OPS_RO region, or a resetting partition. -/
def refusal (s : State) (pk : Packet) : Nat :=
  let a := pkStart pk
  if !reachRange s .host true a pk.bytes then 1
  else if s.regions.any (fun r => r.2.set && r.2.opsRo && decide (a < r.2.base + r.2.len ∧ r.2.base < a + pk.bytes)) then 2
  else if ((locOf s a).part s).any (resetting s) then 3 else 0

/-- The discarded packet's event, with the source coordinate, and the refuse ack. -/
def refusePacket (why : Nat) (pk : Packet) (s : State) : State :=
  let s := if why = 2 then post 0x0113 (leBytes 2 pk.src) s else if why = 3 then post 0x0106 (leBytes 2 pk.src) s else s
  answerPacket pk 4 s

/-- Poisoned words of the packet by device word. -/
def pkBad (pk : Packet) (w : Nat) : Bool := pk.poison.contains (w - pk.addr / 8)

/-- A delivered packet taken up. -/
def takeDelivered (pk : Packet) (s : State) : State :=
  { s with link := { s.link with delivered := dropFirst (fun x => x == pk) s.link.delivered } }

/-- WRITE_PACKET_ARRIVAL (R294, R306, R361, R362). -/
def execWritePacketArrival (pk : Packet) (s : State) : Host.Outcome State Fault Refusal :=
  .next (
    if s.link.delivered.contains pk = false ∨ pk.type ≠ 0 ∨ held s (pkStart pk) pk.bytes = true then s
    else
      let s := takeDelivered pk s
      let why := refusal s pk
      if why = 0 then answerPacket pk 3 (showNow (pkStart pk) pk.data.length (wrBytes (pkStart pk) pk.data (pkBad pk) s)) else refusePacket why pk s)

/-- One element added into memory at `a` (R246): the state and whether the sum overflowed. -/
def addElem (f : FpFmt) (a : Nat) (v : List Byte) (bad : Bool) (s : State) : State × Bool :=
  let n := f.width / 8
  let s := touch a n s
  let x := rdNat s a n
  let y := leNat v
  let r := fpAdd f x y
  let sat := fpFinite f x && fpFinite f y && !fpFinite f r
  (wrBytes a (leBytes n r) (fun _ => bad || anyBad s a n) s, sat)

/-- Elements added one after another from address `a`; `bad` says which device words bring poison. -/
def addElems (f : FpFmt) (bad : Nat → Bool) : Nat → List (List Byte) → State → State × Bool
  | _, [], s => (s, false)
  | a, v :: l, s =>
    let x := addElem f a v (bad (a / 8)) s
    let y := addElems f bad (a + f.width / 8) l x.1
    (y.1, x.2 || y.2)

/-- Bytes cut into elements of `n` bytes. -/
def elemsOf (n : Nat) (l : List Byte) : List (List Byte) := (List.range (l.length / n)).map (fun i => (l.drop (n * i)).take n)

/-- The format of a reduce packet: type 1 BF16, 2 FP32. -/
def reduceFmt (t : Nat) : FpFmt := if t = 1 then bf16 else fp32

/-- REDUCE_PACKET_ARRIVAL (R246, R306, R362, R364): only HBM and the DDR tier add; REDUCE_SAT names the source when an addition overflows. -/
def execReducePacketArrival (pk : Packet) (s : State) : Host.Outcome State Fault Refusal :=
  .next (
    if s.link.delivered.contains pk = false ∨ ¬(pk.type = 1 ∨ pk.type = 2) ∨ held s (pkStart pk) pk.bytes = true then s
    else
      let s := takeDelivered pk s
      let why := if (locOf s (pkStart pk)).unit = 31 then 1 else refusal s pk
      if why ≠ 0 then refusePacket why pk s
      else
        let f := reduceFmt pk.type
        let x := addElems f (pkBad pk) (pkStart pk) (elemsOf (f.width / 8) pk.data) s
        let s := answerPacket pk 3 (showNow (pkStart pk) pk.data.length x.1)
        if x.2 then post 0x0807 (leBytes 2 pk.src) s else s)

/-- A packet counts as complete: it leaves the unacknowledged ones, and its op's own list. -/
def completePacket (opref : Nat) (s : State) : State :=
  { s with
    seq := { s.seq with remoteUnacked := s.seq.remoteUnacked.filter (fun x => x.1 != opref) }
    ops := s.ops.map (fun o => if o.acks.contains opref then { o with acks := o.acks.filter (fun x => x != opref) } else o)
    link := { s.link with pending10 := s.link.pending10.filter (fun x => x.1 != opref) } }

/-- WRITE_ACK_RECEIVE (R362): either ack completes the packet; a refuse ack posts REMOTE_WRITE_REFUSED with stream and tag. -/
def execWriteAckReceive (opref : Nat) (refused : Bool) (s : State) : Host.Outcome State Fault Refusal :=
  .next (
    match s.link.delivered.find? (fun pk => pk.type == (if refused then 4 else 3) && pk.opref == opref),
      s.seq.remoteUnacked.find? (fun x => x.1 == opref) with
    | some pk, some u =>
      let s := completePacket opref (takeDelivered pk s)
      if refused then post 0x0805 (leBytes 1 u.2.1 ++ leBytes 2 u.2.2.1) s else s
    | some pk, none => takeDelivered pk s
    | none, _ => s)

/-- LINK_WRITE_LOST (R362): 10 ms after the device learnt that the destination is absent. -/
def execLinkWriteLost (opref : Nat) (s : State) : Host.Outcome State Fault Refusal :=
  .next (
    match s.link.pending10.find? (fun x => x.1 == opref), s.seq.remoteUnacked.find? (fun x => x.1 == opref) with
    | some w, some u =>
      if w.2 + 10000 ≤ s.tim.beat then
        post 0x0806 (leBytes 1 u.2.1 ++ leBytes 2 u.2.2.1 ++ leBytes 2 u.2.2.2) (completePacket opref s)
      else s
    | _, _ => s)

end Sys2Proof.Machine
end

