-- ==== Sys2Proof/Machine/LinkMuster.lean ====
section
/-! DEFINITION. Muster, system ready, route updates, time over the links, and the link commands that act (R370 to R378, R502, R503). -/

namespace Sys2Proof.Machine

open Sys2Proof

/-! ### Start of muster and identity (R373, R374) -/

/-- A port is disabled for `reason`; its engine's enable falls (R351). -/
def disablePort (p reason : Nat) (s : State) : State :=
  (answerPort p { status := stDegraded } (resteer p (s.modPort p (fun l => { l with state := 3, reason := reason, dropAt := none })))).modPins (fun x =>
    { x with leEn := x.leEn &&& ~~~(BitVec.twoPow 24 p) })

/-- Phase 2 of muster: every enabled port trains, with a fresh nonce for its identity (R373, R374). -/
def startMuster (s : State) : State :=
  let s := { s with link := { s.link with phase := 1, nonce := freeBytes 32 s }, free := s.free + 32 }
  ((List.range 24).filter (fun p => (s.port p).state != 3)).foldl (fun s p => startTraining p s) s

/-- Muster starts once local bring-up is complete and `link.config` is accepted (R373). -/
def tryMuster (s : State) : State :=
  if s.link.configured ∧ s.bu.step = 10 ∧ s.link.phase = 0 then startMuster s else s

/-- Hops between two coordinates on the whole torus. -/
def torusHops (s : State) (a b : Nat) : Nat :=
  ((List.range 3).map (fun i => (arcs s i a b).1.2)).foldl (· + ·) 0

/-- A direction with a port whose identity passed. -/
def dirPassed (s : State) (d : Nat) : Bool := (portsOfDir d).any (fun p => (s.port p).passed)

/-- The parent's direction in the tree rooted at `r` (R375): over a passed port, fewest hops to the root. Before system ready the hops are those of
the whole torus (DEDUCED). -/
def musterParent (s : State) (r : Nat) : Option Nat :=
  if s.link.coord = r then none
  else
    let ds := parentOrder.filter (dirPassed s)
    let h := fun d => torusHops s (neighbour s s.link.coord d) r
    ds.find? (fun d => ds.all (fun e => decide (h d ≤ h e)))

/-- A port has done its part in muster: it passed, it is disabled, or it has given up for want of a partner. -/
def portSettled (l : LinkPort) : Bool := l.state == 3 || l.passed || (l.state == 0 && l.reason == 6 && l.retries == 0)

/-- Phase 3 of muster is complete when every port is settled: parents are chosen and reports begin (R373, R375). -/
def tryReporting (s : State) : State :=
  if (s.link.phase = 1 ∨ s.link.phase = 2) ∧ (List.range 24).all (fun p => portSettled (s.port p)) = true then
    let i := coordIdx s.link.coord
    { s with link := { s.link with
      phase := 3, parent := musterParent s s.link.root, parent2 := musterParent s s.link.root2
      bitmap := i :: s.link.bitmap, bitmap2 := i :: s.link.bitmap2 } }
  else s

/-- IDENTITY_MESSAGE (R374): the signature and certificate chain over this device's nonce, then coordinate, port and lengths; the lengths as L − 1.
A port that fails is disabled for the rest of the muster. -/
def execIdentityMessage (p coord port lx ly lz : Nat) (msg : List (BitVec 8)) (s : State) : Host.Outcome State Fault Refusal :=
  .next (
    if 24 ≤ p ∨ (s.port p).state ≠ 2 ∨ s.link.configured = false then s
    else if !Config.sigOk s.link.nonce msg then tryReporting (post 0x0803 (leBytes 1 p) (disablePort p 3 s))
    else if coord ≠ neighbour s s.link.coord (dirOf p) ∨ port ≠ p - p % 6 + (p % 6 ^^^ 1) ∨
        lx ≠ s.link.lenX ∨ ly ≠ s.link.lenY ∨ lz ≠ s.link.lenZ then
      tryReporting (post 0x0804 (leBytes 2 coord ++ leBytes 1 port) (disablePort p 4 s))
    else tryReporting (s.modPort p (fun l => { l with passed := true, partner := coord, partnerPort := port })))

/-- MUSTER_PORT_TIMEOUT (R373): at 120 s a port without a training partner stops retrying. -/
def execMusterPortTimeout (p : Nat) (s : State) : Host.Outcome State Fault Refusal :=
  .next (
    if p < 24 ∧ inMuster s = true ∧ (s.port p).state < 2 then
      tryReporting (s.modPort p (fun l => { l with state := 0, reason := 6, retries := 0 }))
    else s)

/-! ### Reports and system ready (R372, R375, R376) -/

/-- Members of `b` added to `a` once. -/
def union (a b : List Nat) : List Nat := a ++ (b.filter (fun x => !a.contains x)).eraseDups

/-- The device may admit slices: bring-up is complete, in D0, and no device error stands (R372, R427). -/
def mayAdmit (s : State) : Bool := decide (s.bu.step = 10) && decide (s.pwr.state = 0) && !s.flt.deviceError

/-- The beat steps to the parent's time: the initial phase set of R23, after which the device admits slices (R372). -/
def stepBeat (beat : Nat) (s : State) : State :=
  let own := decide (s.link.coord = s.link.root)
  let s := if own then s else { s with tim := { s.tim with beat := beat, ltOff := 0 }, link := { s.link with linkTime := !s.tim.tickUse } }
  if mayAdmit s then { s with tim := { s.tim with admits := true } } else s

/-- MUSTER_REPORT (R372, R375): a child's report joins the bitmap; direction 6 is the device's own report up the tree, with which it steps its beat. A
device that reports after the root's declaration is late (R377). -/
def execMusterReport (d : Nat) (second : Bool) (present : List Nat) (beat : Nat) (s : State) : Host.Outcome State Fault Refusal :=
  .next (
    if s.link.phase = 0 then s
    else if d < 6 then
      if s.link.readySeen then { s with link := { s.link with late := union s.link.late (present.map idxCoord) } }
      else if second then { s with link := { s.link with bitmap2 := union s.link.bitmap2 present } }
      else { s with link := { s.link with bitmap := union s.link.bitmap present, childrenIn := union s.link.childrenIn [d] } }
    else if s.link.phase ≠ 3 then s
    else if second then { s with link := { s.link with second := true } }
    else if s.link.reported then s
    else stepBeat beat { s with link := { s.link with reported := true } })

/-- Every coordinate of the torus. -/
def allCoords (s : State) : List Nat :=
  ((List.range (lenAt s 2)).map (fun z => ((List.range (lenAt s 1)).map (fun y => (List.range (lenAt s 0)).map (fun x => x + 16 * y + 512 * z))).flatten)).flatten

/-- Coordinates of the torus that a bitmap lacks. -/
def missing (s : State) (bitmap : List Nat) : List Nat := (allCoords s).filter (fun c => !bitmap.contains (coordIdx c))

/-- Unacknowledged packets to devices now known to be absent (R362). -/
def learnAbsent (l : List Nat) (s : State) : State :=
  let more := s.seq.remoteUnacked.filter (fun u => l.contains u.2.2.2 && !s.link.pending10.any (fun x => x.1 == u.1))
  { s with link := { s.link with pending10 := s.link.pending10 ++ more.map (fun u => (u.1, s.tim.beat)) } }

/-- System ready as this device learns or declares it, flooded on every port; a device on the absent list is late (R376, R377). -/
def systemReady (absent : List Nat) (beat : Nat) (s : State) : State :=
  let s := learnAbsent absent { s with link := { s.link with
    readySeen := true, readyBeat := some beat, absent := absent, floods := s.link.floods ++ [(6, beat, absent)] } }
  if absent.contains s.link.coord then post 0x080A [] { s with link := { s.link with phase := 5, readyBeat := none } } else s

/-- SYSTEM_READY_DECLARE (R376): the root, when its bitmap is complete or at its own 120 s. -/
def execSystemReadyDeclare (ms beat : Nat) (s : State) : Host.Outcome State Fault Refusal :=
  .next (
    if s.link.coord = s.link.root ∧ s.link.phase = 3 ∧ s.link.readySeen = false ∧ s.tim.beat < beat ∧
        ((missing s s.link.bitmap).isEmpty = true ∨ 120000 ≤ ms) then
      systemReady (missing s s.link.bitmap) beat s
    else s)

/-- STANDBY_ROOT_DECLARE (R376): R2 at its own 123 s without SYSTEM_READY, from its own bitmap. -/
def execStandbyRootDeclare (ms beat : Nat) (s : State) : Host.Outcome State Fault Refusal :=
  .next (
    if s.link.coord = s.link.root2 ∧ s.link.phase = 3 ∧ s.link.readySeen = false ∧ s.tim.beat < beat ∧ 123000 ≤ ms then
      systemReady (missing s s.link.bitmap2) beat s
    else s)

/-- SYSTEM_READY_RECEIVE (R376): the first flood counts, and goes on. -/
def execSystemReadyReceive (absent : List Nat) (beat : Nat) (s : State) : Host.Outcome State Fault Refusal :=
  .next (if 1 ≤ s.link.phase ∧ s.link.readySeen = false then systemReady absent beat s else s)

/-! ### Route updates (R377) -/

/-- ROUTE_UPDATE_RECEIVE: a new update is flooded onward and scheduled; it may name this device itself. -/
def execRouteUpdateReceive (coord : Nat) (present : Bool) (beat : Nat) (s : State) : Host.Outcome State Fault Refusal :=
  .next (
    if s.link.phase < 3 ∨ s.link.pendRoute.contains (coord, present, beat) then s
    else
      let s := { s with link := { s.link with
        pendRoute := s.link.pendRoute ++ [(coord, present, beat)]
        floods := s.link.floods ++ [(if present then 23 else 7, beat, [coord])] } }
      let s := if present then s else learnAbsent [coord] s
      if coord = s.link.coord ∧ present = false then post 0x080A [] s else s)

/-- One scheduled update takes force. -/
def applyRoute (s : State) (u : Nat × Bool × Nat) : State :=
  let own := u.1 == s.link.coord
  { s with link := { s.link with
    absent := if u.2.1 then s.link.absent.filter (fun c => c != u.1) else union s.link.absent [u.1]
    late := if u.2.1 then s.link.late.filter (fun c => c != u.1) else s.link.late
    phase := if own then (if u.2.1 then 4 else 5) else s.link.phase
    routed := if own then u.2.1 else s.link.routed
    routeEpoch := (s.link.routeEpoch + 1) % 2 ^ 32 } }

/-- ROUTE_SWITCH_BEAT (R373, R376, R377): every route table whose beat has come takes force; the first brings SYSTEM_READY. -/
def execRouteSwitchBeat (s : State) : Host.Outcome State Fault Refusal :=
  .next (
    let s := if s.link.readyBeat.any (fun b => decide (b ≤ s.tim.beat)) then
        post 0x0809 [] { s with link := { s.link with
          readyBeat := none, routed := true, phase := 4, routeEpoch := (s.link.routeEpoch + 1) % 2 ^ 32 } }
      else s
    let due := s.link.pendRoute.filter (fun u => decide (u.2.2 ≤ s.tim.beat))
    due.foldl applyRoute { s with link := { s.link with pendRoute := s.link.pendRoute.filter (fun u => !decide (u.2.2 ≤ s.tim.beat)) } })

/-! ### Time (R22 to R24, R370, R371, R502, R503) -/

/-- TIME_MESSAGE_SEND (R370): every 64 beats a time message is due in the next marker flit of one up port of each direction, the lowest (DESIGN CHOICE,
assumption log 58). -/
def execTimeMessageSend (s : State) : Host.Outcome State Fault Refusal :=
  .next (
    let due := fun d => tget 0 s.link.tmSent d == 0 || decide (tget 0 s.link.tmSent d + 63 ≤ s.tim.beat)
    let ds := (List.range 6).filter (fun d => !(upPorts s d).isEmpty && due d)
    let s := ds.foldl (fun (s : State) d => s.modPort ((upPorts s d).headD 0) (fun l => { l with tmDue := true })) s
    { s with link := { s.link with tmSent := ds.foldl (fun t d => tset 0 t d (s.tim.beat + 1)) s.link.tmSent } })

/-- TIME_MESSAGE_RECEIVE (R370, R372, R377): the two directions of the link give its delay and this device's lead over the neighbour, in 0.05 ns; the
parent's counts as link time. A device that rejoins steps its beat to its parent's. -/
def execTimeMessageReceive (p beat tx rx : Nat) (back : Int) (s : State) : Host.Outcome State Fault Refusal :=
  .next (
    if 24 ≤ p ∨ (s.port p).state ≠ 2 then s
    else
      let here : Int := ((s.tim.beat : Int) - beat) * 20000 + rx - tx
      let s := s.modPort p (fun l => { l with tmBeat := beat % 2 ^ 32, tmDelay := (here + back) / 2 })
      let par := s.link.parent == some (dirOf p)
      if par && s.link.phase == 5 && s.link.pendRoute.any (fun u => u.1 == s.link.coord && u.2.1) && s.tim.beat != beat then stepBeat beat s
      else if par then { s with tim := { s.tim with ltOff := (here - back) / 2 } } else s)

/-- TICKIN_EDGE (R22, R502, R503): while TICKIN is followed an edge counts within ±50 ns of the beat edge; on link time every edge of the beat counts,
and 64 consecutive ones must agree in spacing within ±10 ns. -/
def execTickinEdge (off : Int) (s : State) : Host.Outcome State Fault Refusal :=
  .next (
    let t := s.tim
    if t.counting = false then s
    else if t.tickUse then
      if off.natAbs ≤ 1000 then { s with tim := { t with tickSeen := true, tickOff := off } } else s
    else if 10000 < off.natAbs then s
    else
      let agrees := t.selAny && t.tickMiss == 0 && decide ((off - t.tickOff).natAbs ≤ 200)
      { s with tim := { t with
        tickSeen := true, tickOff := off, selAny := t.sel != 0
        selGood := if t.sel = 1 then (if agrees then min 64 (t.selGood + 1) else 1) else t.selGood } })

/-- TICK_FALLBACK (R24): after three missing edges the device falls back to link time. -/
def execTickFallback (s : State) : Host.Outcome State Fault Refusal :=
  .next (
    if s.tim.tickUse = true ∧ 3 ≤ s.tim.tickMiss then
      post 0x0103 [] { s with tim := { s.tim with tickUse := false, tickMiss := 0, disagree := 0 }, link := { s.link with linkTime := true } }
    else s)

/-- TICK_DISAGREE (R371): once for a run of 64 beats. -/
def execTickDisagree (s : State) : Host.Outcome State Fault Refusal :=
  .next (
    if s.tim.tickUse = true ∧ s.tim.disagree = 64 then post 0x0104 [] { s with tim := { s.tim with disagree := 65 } } else s)

/-- The `link.time` command in progress ends. -/
def endSelect (r : Reply) (s : State) : State :=
  finishCmd s.tim.selCmd r { s with tim := { s.tim with sel := 0, selGood := 0, selBeats := 0, selAny := false } }

/-- Progress of `link.time` at a beat edge (R503). A run of three beats without an edge counts once an edge was seen; until then the limit is 10 µs
(DEDUCED). -/
def selectEdge (s : State) : State :=
  let t := s.tim
  if t.sel = 0 then s
  else if t.sel = 3 then
    if t.ltOff.natAbs ≤ 8 then { endSelect {} s with link := { s.link with linkTime := true } } else s
  else if (t.selAny && decide (3 ≤ t.tickMiss)) || (!t.selAny && decide (10 ≤ t.selBeats)) then endSelect { status := stOutOfRange } s
  else if t.sel = 1 then (if 64 ≤ t.selGood then { s with tim := { t with sel := 2 } } else s)
  else if t.tickOff.natAbs ≤ 8 then
    let s := endSelect {} s
    { s with tim := { s.tim with tickUse := true, tickMiss := 0 }, link := { s.link with linkTime := false } }
  else s

/-- The offset that corrections remove: TICKIN's, that to the muster-tree parent where there is one, or none (R22, R371, R503). -/
def phaseOff (s : State) : Int :=
  if s.tim.tickUse || s.tim.sel == 2 then s.tim.tickOff else if (s.link.linkTime || s.tim.sel == 3) && s.link.parent.isSome then s.tim.ltOff else 0

/-- The sequencer's part of a beat edge that concerns time: missing edges, the disagreement count, `link.time`, and at most one correction of 0.4 ns
for the coming halt (R22 to R24, R371, R503). -/
def timeEdge (s : State) : State :=
  let t := s.tim
  let watch := t.tickUse || t.sel == 1 || t.sel == 2
  let apart := t.tickUse && decide (1000 < (t.tickOff - t.ltOff).natAbs) && s.link.parent.isSome
  let s := { s with tim := { t with
    tickMiss := if watch && !t.tickSeen then min 3 (t.tickMiss + 1) else 0
    tickSeen := false
    disagree := if apart then (if t.disagree = 65 then 65 else min 64 (t.disagree + 1)) else 0
    selBeats := if t.sel = 0 then 0 else t.selBeats + 1 } }
  let s := selectEdge s
  let off := phaseOff s
  let adj : Int := if 8 < off then 1 else if off < -8 then -1 else 0
  { s with tim := { s.tim with haltAdj := adj, tickOff := s.tim.tickOff - 8 * adj, ltOff := if s.link.parent.isSome then s.tim.ltOff - 8 * adj else 0 } }

/-! ### Commands (R378) -/

/-- Dimensions of length 1 have their ports disabled (R365). -/
def disableFlat (s : State) : State :=
  ((List.range 24).filter (fun p => lenAt s (p % 6 / 2) == 1 && (s.port p).state != 3)).foldl (fun s p => disablePort p 0 s) s

/-- LINK_CONFIG (R365, R372, R378): coordinate, lengths, R and R2 from byte 16 (log 15). -/
def execLinkConfig (k : Nat) (s : State) : Host.Outcome State Fault Refusal :=
  .next (runCmd k 0x0802 (fun c s =>
    let x := c.at 18 1
    let y := c.at 19 1
    let z := c.at 20 1
    let out := fun v => !(decide (v % 16 < x ∧ v / 16 % 32 < y ∧ v / 512 < z))
    checked [ refuse (decide (64 < x * y * z) && !licensed s 5) stNotLicensed,
              outOfRange (decide (x = 0 ∨ 16 < x)) 18, outOfRange (decide (y = 0 ∨ 24 < y)) 19, outOfRange (decide (z = 0 ∨ 32 < z)) 20,
              outOfRange (out (c.at 16 2)) 16, c.rsvd 21 22, outOfRange (out (c.at 22 2)) 22, outOfRange (out (c.at 24 2)) 24, c.rsvd 26 64,
              refuse (s.link.phase != 0 || s.tim.everAdmitted) stBusy ]
      (fun s =>
        let s := extendConfig c { s with link := { s.link with
          coord := c.at 16 2, lenX := x - 1, lenY := y - 1, lenZ := z - 1, root := c.at 22 2, root2 := c.at 24 2, configured := true } }
        (tryMuster (disableFlat { s with tim := { s.tim with admits := false, aloneStart := false } }), {})) s) s)

/-- The checks of the port number at byte 16: its licence (R3, R390 step 4) and its range. -/
def portLicence (s : State) (c : Cmd) : Bool × Reply := refuse (decide (6 ≤ c.at 16 1 ∧ c.at 16 1 < 24) && !licensed s 1) stNotLicensed
def portCheck (c : Cmd) : Bool × Reply := outOfRange (decide (24 ≤ c.at 16 1)) 16

/-- LINK_PORT_RETRAIN (R3, R360, R394): `accepted` when training starts. -/
def execLinkPortRetrain (k : Nat) (s : State) : Host.Outcome State Fault Refusal :=
  .next (runCmd k 0x0803 (fun c s =>
    let p := c.at 16 1
    checked [ portLicence s c, portCheck c, outOfRange ((s.port p).state == 3) 16, c.rsvd 17 64, refuse ((s.port p).state == 1) stBusy ]
      (fun s => (startTraining p s, { status := stAccepted })) s) s)

/-- LINK_PORT_DISABLE (R378). -/
def execLinkPortDisable (k : Nat) (s : State) : Host.Outcome State Fault Refusal :=
  .next (runCmd k 0x0804 (fun c s =>
    let p := c.at 16 1
    checked [ portCheck c, c.rsvd 17 64, refuse (upPorts s (dirOf p) == [p] && !(s.port p).waiting.isEmpty) stBusy ]
      (fun s => if (s.port p).state = 3 then (s, {})
                else (disablePort p 7 s, {})) s) s)

/-- LINK_PORT_ENABLE (R347, R365, R374, R378): answered when the port has trained. A port that muster disabled stays so while muster runs. -/
def execLinkPortEnable (k : Nat) (s : State) : Host.Outcome State Fault Refusal :=
  .next (runCmd k 0x0805 (fun c s =>
    let p := c.at 16 1
    checked [ portLicence s c, portCheck c,
              outOfRange (s.link.configured && lenAt s (p % 6 / 2) == 1) 16, c.rsvd 17 64,
              refuse ((s.port p).cmd.isSome || (inMuster s && ((s.port p).reason == 3 || (s.port p).reason == 4))) stBusy ]
      (fun s => if (s.port p).state = 2 then (s, {})
                else (startTraining p (s.modPort p (fun l => { l with reason := 0, cmd := some k })), { wait := true })) s) s)

/-- LINK_FEC (R3, R353): the mode of the port's next training, which starts at once. -/
def execLinkFec (k : Nat) (s : State) : Host.Outcome State Fault Refusal :=
  .next (runCmd k 0x0806 (fun c s =>
    let p := c.at 16 1
    checked [ portLicence s c, portCheck c, outOfRange (decide (1 < c.at 17 1)) 17, c.rsvd 18 64 ]
      (fun s =>
        let s := s.modPort p (fun l => { l with lightNext := c.at 17 1 == 1 })
        (if (s.port p).state = 3 then s else startTraining p s, {})) s) s)

/-- LINK_REJOIN (R377): the root floods a route update that names an absent device as present. -/
def execLinkRejoin (k : Nat) (s : State) : Host.Outcome State Fault Refusal :=
  .next (runCmd k 0x0808 (fun c s =>
    let d := c.at 16 2
    checked [ refuse (!(s.link.configured && s.link.coord == s.link.root)) stOutOfRange, outOfRange (!s.link.absent.contains d) 16, c.rsvd 18 64 ]
      (fun s =>
        let b := s.tim.beat + 1000
        ({ s with link := { s.link with
           floods := s.link.floods ++ [(23, b, [d])], pendRoute := s.link.pendRoute ++ [(d, true, b)] } }, {})) s) s)

/-- LINK_TIME (R503): byte 16 selects TICKIN (0) or link time (1). -/
def execLinkTime (k : Nat) (s : State) : Host.Outcome State Fault Refusal :=
  .next (runCmd k 0x0809 (fun c s =>
    let m := c.at 16 1
    checked [ badField (decide (1 < m)) 16, c.rsvd 17 64, refuse (s.tim.sel != 0) stBusy ]
      (fun s =>
        if m = 0 ∧ s.tim.tickUse = true then (s, {})
        else
          ({ s with tim := { s.tim with
             sel := if m = 0 then 1 else 3, selGood := 0, selBeats := 0, selAny := false, selCmd := k, tickMiss := 0
             tickUse := s.tim.tickUse && m == 0 } }, { wait := true })) s) s)

end Sys2Proof.Machine
end

