-- ==== Sys2Proof/Machine/Bringup.lean ====
section
/-! DEFINITION. Bring-up: the steps' requests, their ends and limits, the convoy, and the bring-up registers that act (R409 to R430). -/

namespace Sys2Proof.Machine

open Sys2Proof

/-! ### Bring-up fault codes (R430) -/

def buOrder := 0x01
def buTimeout := 0x02
def buDependency := 0x03
def buSupply := 0x04
def buRefclk := 0x05
def buPll := 0x06
def buHbmTrain := 0x07
def buDdrTrain := 0x08
def buNoHbm := 0x09
def buImgRead := 0x0A
def buImgFormat := 0x0B
def buAuth := 0x0C
def buLockout := 0x0D
def buSteward := 0x0E
def buConvoyDegraded := 0x0F
def buConvoyFailed := 0x10
def buWarmupUnit := 0x11
def buNoField := 0x12
def buFactoryCal := 0x13
def buNoP0 := 0x14
def buCalUnit := 0x15

/-! ### Steps (R409, R410) -/

/-- Domains of power group `g` (R411, R431). -/
def groupDomains (g : Nat) : List Nat :=
  match g with
  | 0 => [212, 213, 214, 215]
  | 1 => [220, 221]
  | 2 => (List.range 12).map (· + 160)
  | 3 => (List.range 12).map (· + 172)
  | 4 => (List.range 24).map (· + 184)
  | 5 => [218, 219]
  | _ => (List.range 32).map (fun i => 32 * (g - 6) + i) ++ (List.range 8).map (fun i => 128 + 8 * (g - 6) + i)

/-- Domains `l` are powered and good; the list stays ascending. -/
def powerOn (l : List Nat) (s : State) : State :=
  { s with pwr := { s.pwr with on := (List.range 224).filter (fun d => s.pwr.on.contains d || l.contains d) } }

/-- The channels that step 3 trains: those selected, with DDRTIER (R413). -/
def ddrWanted (s : State) : List Nat := if licensed s 2 then maskList 12 s.bu.ddrSel.toNat else []

/-- Power groups that step `n` needs (R411). -/
def groupsFor (s : State) (n : Nat) : List Nat :=
  if n < 3 then []
  else if n = 3 then [0, 2] ++ (if ddrWanted s = [] then [] else [3])
  else (if 7 ≤ n then [0] else []) ++ [1] ++ (if n = 8 then [5] else []) ++ (if 7 ≤ n then [6, 7, 8, 9] else [])

/-- Step `n` completes (R409). -/
def stepDone (n : Nat) (degraded : Bool) (s : State) : State :=
  { s with bu := { s.bu with step := max n s.bu.step, state := 0, running := 0, failedStep := 0, degraded := s.bu.degraded || degraded } }

/-- Step `n` fails with a fault (R409). -/
def stepFail (n code detail : Nat) (s : State) : State :=
  buFault n code detail { s with bu := { s.bu with state := 2, running := 0, failedStep := n } }

/-- A unit fenced in a bring-up step (R410): marked until the next device reset; nothing uses it yet. -/
def bootFence (kind i b : Nat) (s : State) : State :=
  let s := raiseAlert 6 (markFenced kind i b s)
  match kind with
  | 0 => s.modField i (fun x => { x with bootFenced := true })
  | 1 => s.modBand (8 * i + b) (fun x => { x with bootFenced := true })
  | 3 => s.modCoreOf (64 * i + b) (fun x => { x with bootFenced := true })
  | 4 => s.modUnit i (fun x => { x with bootFenced := true })
  | 5 => s.modUnit (16 + i) (fun x => { x with bootFenced := true })
  | _ => s

/-- A unit that fails in warm-up or calibration: its entry passes through the fault queue to its fence at once (R424, R458, R461). -/
def bootFault (code kind i b detail : Nat) (s : State) : State :=
  if unitOut s kind i b then s
  else
    let s := enqueueFault { code := code, kind := kind, sub := b, index := i, beat := s.tim.beat % 2 ^ 32, detail := detail } (contain kind i b s)
    let hit := fun (e : FaultE) => sameUnit e.kind e.index e.sub kind i b
    let es := s.flt.queue.filter hit
    let s := es.foldl (fun s e => closeFenced e s) { s with flt := { s.flt with queue := s.flt.queue.filter (fun e => !hit e) } }
    bootFence kind i b s

/-- Fields that are not fenced. -/
def liveFields (s : State) : List Nat := (List.range 32).filter (fun f => !(s.field f).fenced)

/-! ### What a request starts -/

/-- Step 7 begins (R418): the steward multicasts the core image. -/
def convoyStart (s : State) : State :=
  let core := coreImage s.bu.image
  { s with
    bu := { s.bu with cvPhase := 1, cvRound := 0, cvFenced := 0, cvOver := false, cvTag := bytesAt (coreDigest s.bu.image) 0 4, cvN := chunkCount core }
    cores := tmap {} s.cores (fun _ c => { c with chunks := [] }) }

/-- The default regular sequence of monitor converter `k` (R121): slot bytes. -/
def defaultSeq (k : Nat) : List Nat :=
  let pair := fun (n : Nat) => ((List.range n).map (fun i => [i, 32 + i])).flatten
  if k < 20 then [0, 1, 2, 3]
  else if k < 36 then pair 4 ++ [4, 5, 6, 7, 8, 9, 10, 11]
  else if k < 46 then pair 8
  else if k < 60 then List.range 28
  else if k = 60 then pair 8 ++ [8]
  else []

/-- The default sequences start in the next frame (R121, R423). -/
def startMonitors (s : State) : State :=
  ((List.range 61).foldl (fun (s : State) k =>
    let l := defaultSeq k
    s.modMon k (fun m => { m with
      enable := true, fine := decide (46 ≤ k ∧ k < 60), lowpwr := false, seqLen := l.length - 1, commitPend := true
      seq := (List.range l.length).foldl (fun t i => tset 0 t i (BitVec.ofNat 8 (l.getD i 0))) [] })) s)

/-- A shipped value of a slot (R162, R423), by the numbers of `Config.shipped`. Light power and pre-lock slots ship with kp = 1, no integral, ±8.000 dB and,
at the LO taps, 20 LSB of slew, which makes R142 the law of R72 and R77 (DEDUCED, assumption log 17). -/
def shippedValue (n i : Nat) : Nat :=
  if loopKindOf n = 5 ∨ loopKindOf n = 6 then
    match i with
    | 0 => 0x14000
    | 3 => 0x8300
    | 4 => 0x7D00
    | 6 => if loopKindOf n = 5 ∧ 32 ≤ slotTap n ∧ slotTap n < 64 then 20 else 0
    | _ => 0
  else Config.shipped n i

/-- The shipped coefficients and limits of every loop slot in use (R423). -/
def shipSlots (s : State) : State :=
  (List.range 8192).foldl (fun (s : State) n =>
    if loopKindOf n = 0 then s
    else s.modLoop n (fun k => { k with
      kp := BitVec.ofNat 20 (shippedValue n 0), ki := BitVec.ofNat 20 (shippedValue n 1), kd := BitVec.ofNat 20 (shippedValue n 2)
      outMin := BitVec.ofNat 16 (shippedValue n 3), outMax := BitVec.ofNat 16 (shippedValue n 4)
      dAlpha := BitVec.ofNat 16 (shippedValue n 5 % 32768), slew := BitVec.ofNat 16 (shippedValue n 6) })) s

/-- P0, LO references and the trace of commissioned ports come from flash (R68, R86, R423). -/
def loadLight (s : State) : State :=
  let s := (List.range 10).foldl (fun (s : State) n => s.modLport n (fun p => { p with traceRefl := tget 0 s.sec.lightStore (80 + n) == 1 })) s
  (List.range 40).foldl (fun (s : State) i =>
    let n := i / 4
    let p := tget 0 s.sec.lightStore (8 * n + i % 4)
    if p = 0 then s
    else s.modLcol i (fun l => { l with p0 := some p, loRef := if n < 8 then tget 0 s.sec.lightStore (8 * n + 4 + i % 4) else l.loRef })) s

/-- Step 8 begins (R423): monitors and their self-tests (R135), loop set-up, the light store, and the thermal locks. -/
def warmupStart (s : State) : State :=
  let s := (List.range 64).foldl (fun (s : State) k => startSelfTest k none s) (startMonitors s)
  let s := loadLight (shipSlots s)
  let s := { s with eng := { s.eng with run := true } }
  (liveFields s).foldl (fun (s : State) f => s.modField f (fun x => { x with tlStart := some s.tim.beat, tlLocked := false })) s

/-- A source port holds P0 on every colour. -/
def holdsP0 (s : State) (n : Nat) : Bool := (List.range 4).all (fun g => (s.lcol (4 * n + g)).p0.isSome)

/-- Primary port `n` is in service: some field that it feeds is not fenced. -/
def portInService (s : State) (n : Nat) : Bool := (fieldsOfPort n).any (fun f => !(s.field f).fenced)

/-- Relay `x` is lit and not tripped. -/
def relayLit (s : State) (x : Nat) : Bool :=
  !(s.relay x).tripped && !(s.relay x).failed && (List.range 4).all (fun g => decide (1500 ≤ (s.lcol (4 * (8 + x) + g)).power))

/-- The first port that step 10 misses P0 on (R426). -/
def portWithoutP0 (s : State) : Option Nat :=
  (List.range 10).find? (fun n => (if n < 8 then portInService s n else relayLit s (n - 8)) && !holdsP0 s n)

/-- What a request of step `n` starts, once it is taken. -/
def stepStart (n : Nat) (s : State) : State :=
  match n with
  | 6 => { s with bu := { s.bu with rwlLocked := true, stwRunning := true } }
  | 7 => convoyStart s
  | 8 => warmupStart s
  | 10 =>
    match portWithoutP0 s with
    | some p => stepFail 10 buNoP0 p s
    | none => (liveFields s).foldl calibrateField s
  | _ => s

/-- Step `n` may run: the next step, more groups before release, or another image before release. Steps 6 and 7 do not run again after a failure. -/
def stepMayRun (s : State) (n : Nat) : Bool :=
  if s.bu.rwlLocked && decide (n ≤ 6) then false
  else if n = s.bu.step + 1 then !(n == 7 && s.bu.failedStep == 7)
  else n == 1 || (n == 4 && s.bu.step == 4)

/-- A request of step `n` (R409 to R411): ORDER when its predecessor has not completed; nothing while a step runs, when locked out, or when the
step may not run again. -/
def requestStep (n : Nat) (s : State) : State :=
  if s.bu.state = 1 ∨ s.bu.state = 3 then s
  else if s.bu.step + 1 < n then buFault n buOrder n s
  else if !stepMayRun s n then s
  else
    let s := { s with bu := { s.bu with state := 1, running := n, elapsed := 0, step := if n = 4 then 3 else s.bu.step } }
    match (groupsFor s n).find? (fun g => !s.bu.on.getLsbD g) with
    | some g => stepFail n buDependency g s
    | none => stepStart n s

/-! ### The registers that act (R430) -/

/-- A field of a 32-bit write replaced in a wider register. -/
def putBits (old v lo w : Nat) : Nat := old - bits old lo w * 2 ^ lo + v % 2 ^ w * 2 ^ lo

/-- ACCEPT (R420). -/
def acceptConvoy (s : State) : State :=
  if s.bu.cvOver ∧ s.bu.failedStep = 7 ∧ s.bu.state = 2 then stepDone 7 true s else s

/-- A write of BU_STEWARD_RUN (R430). -/
def writeStewardRun (v : Nat) (s : State) : State :=
  let st := bits v 8 4
  if bit v 0 then (if st = 0 then requestStep 6 s else if s.bu.state = 1 ∨ s.bu.state = 3 then s else buFault st buOrder st s)
  else if st = 0 then s
  else if st = 8 ∨ st = 9 ∨ st = 10 then requestStep st s
  else if s.bu.state = 1 ∨ s.bu.state = 3 then s else buFault st buOrder st s

/-- A write of 32 bits to the bring-up window at `off`, of the fields whose mask bits are set (R12, R430): nothing before BOOT_OK (R408), RWL fields
until release (R417). -/
def buWrite (off v msk : Nat) (s : State) : State :=
  let w := v &&& msk
  let rwl := !s.bu.rwlLocked
  let put := fun (old lo n at_ : Nat) => if rwl && decide (bits msk at_ n = 2 ^ n - 1) then putBits old (bits v at_ n) lo n else old
  if !s.bu.bootOk then s
  else match off with
  | 0x08 =>
    if s.bu.rwlLocked || bits w 0 10 == 0 || s.bu.state == 1 || s.bu.state == 3 then s
    else requestStep 1 { s with bu := { s.bu with en := s.bu.en ||| BitVec.ofNat 10 (bits w 0 10) } }
  | 0x0C => if bit w 0 then requestStep 2 s else s
  | 0x10 =>
    let s := { s with bu := { s.bu with hbmSel := BitVec.ofNat 12 (put s.bu.hbmSel.toNat 0 12 0), ddrSel := BitVec.ofNat 12 (put s.bu.ddrSel.toNat 0 12 12) } }
    if bit w 24 then requestStep 3 s else s
  | 0x18 => { s with bu := { s.bu with imgAddr := BitVec.ofNat 64 (put s.bu.imgAddr.toNat 12 20 12) } }
  | 0x1C => { s with bu := { s.bu with imgAddr := BitVec.ofNat 64 (put s.bu.imgAddr.toNat 32 32 0) } }
  | 0x20 =>
    let s := { s with bu := { s.bu with imgLen := BitVec.ofNat 24 (put s.bu.imgLen.toNat 0 24 0) } }
    if bit w 31 then requestStep 4 s else s
  | 0x24 => if bit w 0 then requestStep 5 s else s
  | 0x2C => writeStewardRun w s
  | 0x30 =>
    let s := if bit w 1 then acceptConvoy s else s
    if bit w 0 then requestStep 7 s else s
  | 0x38 => if bit w 0 then { s with bu := { s.bu with fltValid := false } } else s
  | _ => s

/-- A full 32-bit write by the host. -/
def buWrite32 (off : Nat) (w : BitVec 32) (s : State) : State := buWrite off w.toNat 0xFFFFFFFF s

/-- BU_DOMAIN_EN_WRITE (R411). -/
def execBuDomainEnWrite (w : BitVec 32) (s : State) : Host.Outcome State Fault Refusal := .next (buWrite32 0x08 w s)

/-- BU_PLL_GO (R412). -/
def execBuPllGo (w : BitVec 32) (s : State) : Host.Outcome State Fault Refusal := .next (buWrite32 0x0C w s)

/-- BU_HBM_TRAIN_GO (R413). -/
def execBuHbmTrainGo (w : BitVec 32) (s : State) : Host.Outcome State Fault Refusal := .next (buWrite32 0x10 w s)

/-- BU_IMG_LOAD (R415). -/
def execBuImgLoad (w : BitVec 32) (s : State) : Host.Outcome State Fault Refusal := .next (buWrite32 0x20 w s)

/-- BU_AUTH_VERIFY (R416). -/
def execBuAuthVerify (w : BitVec 32) (s : State) : Host.Outcome State Fault Refusal := .next (buWrite32 0x24 w s)

/-- BU_STEWARD_RUN with RUN (R417). -/
def execBuStewardRun (w : BitVec 32) (s : State) : Host.Outcome State Fault Refusal := .next (buWrite32 0x2C w s)

/-- BU_CONVOY_GO (R418). -/
def execBuConvoyGo (w : BitVec 32) (s : State) : Host.Outcome State Fault Refusal := .next (buWrite32 0x30 w s)

/-- BU_CONVOY_ACCEPT (R420). -/
def execBuConvoyAccept (w : BitVec 32) (s : State) : Host.Outcome State Fault Refusal := .next (buWrite32 0x30 w s)

/-- BU_STEP_WARMUP: STEP of BU_STEWARD_RUN = 8 (R423). -/
def execBuStepWarmup (w : BitVec 32) (s : State) : Host.Outcome State Fault Refusal := .next (buWrite32 0x2C w s)

/-- BU_STEP_FACTORY_CAL: STEP = 9 (R425). -/
def execBuStepFactoryCal (w : BitVec 32) (s : State) : Host.Outcome State Fault Refusal := .next (buWrite32 0x2C w s)

/-- BU_STEP_USER_CAL: STEP = 10 (R426). -/
def execBuStepUserCal (w : BitVec 32) (s : State) : Host.Outcome State Fault Refusal := .next (buWrite32 0x2C w s)

/-! ### The ends of steps 1 to 6 -/

/-- One requested group in step 1 (R411): prerequisite, power-good within 50 ms. -/
def powerGroup (good : BitVec 10) (s : State) (g : Nat) : State :=
  if s.bu.on.getLsbD g ∨ !s.bu.en.getLsbD g then s
  else
    let off := { s with bu := { s.bu with en := s.bu.en &&& ~~~(BitVec.twoPow 10 g) } }
    if 6 ≤ g ∧ s.bu.on.getLsbD 0 = false then stepFail 1 buDependency g off
    else if good.getLsbD g then powerOn (groupDomains g) { s with bu := { s.bu with on := s.bu.on ||| BitVec.twoPow 10 g } }
    else stepFail 1 buSupply g off

def endPower (obs : StepObs) (s : State) : State :=
  let s := (List.range 10).foldl (powerGroup obs.good) s
  if s.bu.state = 2 then s else stepDone 1 false s

def endPll (obs : StepObs) (s : State) : State :=
  if !s.pins.refclk then stepFail 2 buRefclk 0 s
  else
    let s := { s with bu := { s.bu with pllLock := obs.plls } }
    match (List.range 5).find? (fun i => !obs.plls.getLsbD i) with
    | some i => stepFail 2 buPll (8 + i) s
    | none => stepDone 2 false { s with tim := { s.tim with counting := true, beat := 0, t := 0 } }

/-- The DIMM that step 3 found on channel `n` meets R298. -/
def dimmOf (obs : StepObs) (n : Nat) : Option Nat :=
  ((obs.dimms.find? (fun x => x.1 == n)).map Prod.snd).filter (fun c => [16, 24, 32, 48, 64, 96, 128, 256].contains c)

/-- Unit `u` has trained and is zeroed (R301, R413). -/
def serveUnit (obs : StepObs) (u : Nat) (s : State) : State :=
  s.modUnit u (fun m => { m with state := 1, zeroing := false, trainTemp := (obs.temps.find? (fun x => x.1 == u)).map Prod.snd })

/-- The end of step 3 (R297, R298, R413). -/
def endTrain (obs : StepObs) (s : State) : State :=
  let hs := (maskList 12 s.bu.hbmSel.toNat).filter (fun n => (s.unit n).state != 1)
  let cs := (ddrWanted s).filter (fun n => (s.unit (16 + n)).state != 1)
  let hbad := hs.filter (fun n => !obs.hbm.getLsbD n)
  let s := hbad.foldl (fun s n => buFault 3 buHbmTrain n s) s
  if hs = hbad ∧ s.bu.hbmOk = 0 then stepFail 3 buNoHbm 0 s
  else
    let s := hbad.foldl (fun s n => bootFence 4 n 0 s) s
    let s := (hs.filter (fun n => obs.hbm.getLsbD n)).foldl (fun s n => serveUnit obs n s) s
    let cbad := cs.filter (fun n => !obs.ddr.getLsbD n || (dimmOf obs n).isNone)
    let cok := cs.filter (fun n => !cbad.contains n)
    let s := cs.foldl (fun (s : State) n => s.modUnit (16 + n) (fun m => { m with
      present := (dimmOf obs n).isSome, capacity := (dimmOf obs n).getD 0 })) s
    let s := cbad.foldl (fun s n => bootFence 5 n 0 (buFault 3 buDdrTrain n s)) s
    let s := cok.foldl (fun (s : State) n => (serveUnit obs (16 + n) s).modUnit (16 + n) (fun m => { m with speed := obs.speed % 4 })) s
    let caps := cok.map (fun n => (dimmOf obs n).getD 0)
    let d := caps.foldl min (caps.headD 0)
    let s := { s with
      bu := { s.bu with hbmOk := BitVec.ofNat 12 (listMask 12 ((List.range 12).filter (fun n => (s.unit n).state == 1)))
                        ddrOk := BitVec.ofNat 12 (listMask 12 cok) }
      memTop := { s.memTop with ddrC := cok, ddrD := d } }
    let s := if caps.any (fun c => c != d) then post 0x0114 (leBytes 2 (listMask 12 cok) ++ leBytes 2 d) s else s
    stepDone 3 (!hbad.isEmpty || !cbad.isEmpty) (formWindows s.net.parts s)

/-- The first header field of an image that violates R414, by byte offset; `len` is BU_IMG_LEN for an image from the host. -/
def imageBad (l : List Byte) (len : Option Nat) : Option Nat :=
  let f := fun (i n : Nat) => bytesAt l i n
  let n := f 8 4
  let body := n - sigLen
  ([ (f 0 4 != 0x57545355, 0), (f 4 2 != 1, 4), (f 6 2 != 0, 6),
     (decide (n = 0) || n % 4096 != 0 || decide (8388608 < n) || decide (l.length < n) || len.any (fun x => x != n), 8), (f 12 4 != sigLen, 12),
     (f 16 4 % 4096 != 0 || decide (body < f 16 4 + f 20 4), 16), (decide (6291456 < f 20 4), 20),
     (f 24 4 % 4096 != 0 || decide (body < f 24 4 + f 28 4) || (decide (f 28 4 ≤ 2097152) && !sectionsOk (coreImage l)), 24),
     (f 28 4 % 4096 != 0 || decide (2097152 < f 28 4), 28), (f 36 4 != 0x00010000, 36), (decide (f 20 4 ≤ f 44 4), 44),
     ((l.drop 96).take 160 != List.replicate 160 0, 96) ].find? (fun x => x.1)).map Prod.snd

/-- The end of step 4 (R415). -/
def endImage (obs : StepObs) (s : State) : State :=
  let flash := tget [] s.sec.flashImg s.sec.select
  let host := s.bu.imgAddr != 0
  let l := if host then obs.image else flash.take (bytesAt flash 8 4)
  if obs.readError then stepFail 4 buImgRead 0 s
  else match imageBad l (if host then some s.bu.imgLen.toNat else none) with
  | some off => stepFail 4 buImgFormat off s
  | none => stepDone 4 false { s with bu := { s.bu with
      image := l, ecdsaOk := false, lmsOk := false, chainOk := false, svnOk := false, authentic := false } }

/-- The end of step 5 (R416, R474, R477). -/
def endAuth (s : State) : State :=
  let l := s.bu.image
  let r := authOf s 1 l (bytesAt l 40 4)
  let ok := r.reason == 0
  let s := { s with bu := { s.bu with
    ecdsaOk := r.ecdsa, lmsOk := r.lms, chainOk := r.chain, svnOk := r.svn, authentic := ok, reason := r.reason
    attempts := if ok then s.bu.attempts else s.bu.attempts + 1 } }
  if ok then stepDone 5 false (extendMeas 3 (coreDigest l) (extendMeas 2 (digestOf l) s))
  else
    let s := stepFail 5 buAuth r.reason s
    if 4 ≤ s.bu.attempts then
      let s := stepFail 5 buLockout 0 s
      { s with bu := { s.bu with state := 3, lockout := true } }
    else s

/-- The end of step 6 (R417): READY; invalid stored tokens and few leaves are reported (R476, R481). -/
def endRelease (s : State) : State :=
  let s := { s with stw := { s.stw with ready := true, watchdogMs := if Config.watchdog = 0 then 100 else min 10000 Config.watchdog } }
  let bad := (List.range 16).filter (fun i => tget [] s.sec.tokens i != [] && !tokenValid s (tget [] s.sec.tokens i))
  let s := bad.foldl (fun s i => raiseAlert 4 (post 0x0A01 (leBytes 1 i) s)) s
  let s := if 32768 - s.sec.leaf < 1024 then post 0x0A04 [] s else s
  stepDone 6 false s

/-! ### The convoy (R418 to R422) -/

/-- A convoy chunk checks: its CRC over header bytes 0 to 11 and the payload, its IMAGE_TAG, and a number that the image has (R418, R419). -/
def chunkGood (s : State) (chunk : List Byte) : Bool :=
  bytesAt chunk 12 4 == crc32c (chunk.take 12 ++ chunk.drop 16) && bytesAt chunk 4 4 == s.bu.cvTag && decide (bytesAt chunk 0 2 < s.bu.cvN)

/-- Every bit of the receipt bitmap `t` is set, and the digest of the digests is CORE_DIGEST (R419). -/
def imageVerified (s : State) (t : Tab (List Byte)) : Bool :=
  let n := s.bu.cvN
  (List.range n).all (fun q => t.any (fun x => x.1 == q)) && Config.sha384 ((List.range n).flatMap (tget [] t)) == coreDigest s.bu.image

/-- CONVOY_CHUNK_RECEIVE (R418, R419): a chunk that checks is placed, its bit set and its digest kept; with every bit set the digest decides. A chunk that fails, or
comes again, changes nothing. -/
def execConvoyChunkReceive (c : Nat) (chunk : List Byte) (s : State) : Host.Outcome State Fault Refusal :=
  .next (
    let q := bytesAt chunk 0 2
    let payload := chunk.drop 16
    if s.bu.running = 7 ∧ c < 2048 ∧ chunkGood s chunk = true ∧ (s.coreOf c).chunks.any (fun x => x.1 == q) = false then
      let t := tins q (Config.sha384 payload) (s.coreOf c).chunks
      (placeChunk (coreImage s.bu.image) payload c q s).modCoreOf c (fun x => { x with chunks := t, verified := imageVerified s t })
    else s)

/-- CONVOY_REPAIR_ROUND (R420). -/
def execConvoyRepairRound (s : State) : Host.Outcome State Fault Refusal :=
  .next (if s.bu.running = 7 ∧ s.bu.cvRound < 3 then { s with bu := { s.bu with cvPhase := 2, cvRound := s.bu.cvRound + 1 } } else s)

/-- A core that reports lacks a chunk, and a repair round is left (R420). -/
def repairDue (s : State) (coresBad : List Nat) : Bool :=
  decide (s.bu.cvRound < 3) && (List.range 2048).any (fun c => !coresBad.contains c && decide ((s.coreOf c).chunks.length < s.bu.cvN))

/-- The end of step 7 (R420, R421): cores without a verified image, or that did not report, are fenced. -/
def endConvoy (coresBad : List Nat) (s : State) : State :=
  let bad := (List.range 2048).filter (fun c => !(s.coreOf c).verified || coresBad.contains c)
  let s := bad.foldl (fun (s : State) c => (bootFence 3 (c / 64) (c % 64) s).modCoreOf c (fun x => { x with verified := false })) s
  let n := bad.length
  let s := { s with
    cores := tmap {} s.cores (fun _ x => { x with chunks := [] })
    bu := { s.bu with cvPhase := 3, cvFenced := n, cvOver := decide (64 < n) } }
  if n = 2048 then stepFail 7 buConvoyFailed 0 s
  else if 64 < n then stepFail 7 buConvoyDegraded n { s with bu := { s.bu with degraded := true } }
  else stepDone 7 (decide (0 < n)) s

/-- CORE_RECONVOY (R422): the core image placed again in the named cores; those that fail are faults. -/
def execCoreReconvoy (cs failed : List Nat) (s : State) : Host.Outcome State Fault Refusal :=
  .next (
    if s.bu.step < 7 ∨ s.flt.deviceError then s
    else
      let l := cs.filter (fun c => decide (c < 2048))
      let s := l.foldl (fun (s : State) c => (placeImage c s).modCoreOf c (fun x => { x with verified := !failed.contains c, resident := none })) s
      (l.filter (fun c => failed.contains c)).foldl (fun s c => raiseFault 0x12 3 (c / 64) (c % 64) 0 s) s)

/-! ### Warm-up and calibration (R423 to R427) -/

/-- DETAIL of WARMUP_UNIT and CAL_UNIT: field in [4:0], band in [7:5]; 0xFF in [15:8] for a whole field. -/
def unitDetail (f : Nat) (b : Option Nat) : Nat :=
  match b with
  | some b => f + 32 * b
  | none => f + 0xFF00

/-- A field, or a band of it, fails to settle or lock (R424). -/
def warmupFail (f : Nat) (b : Option Nat) (s : State) : State :=
  let s := buFault 8 buWarmupUnit (unitDetail f b) { s with bu := { s.bu with degraded := true } }
  match b with
  | none => bootFault 0x03 0 f 0 0 s
  | some b => bootFault 0x03 1 f b 0 (s.modBand (8 * f + b) (fun x => { x with suspect := true }))

/-- The light check of port `n` (R84): a port with a colour below +15 dBm is a port at F3. A free relay serves it, or its fields are fenced for light,
with LIGHT_FENCE (R82). A colour without P0 keeps level normal, and posts no fade event (R71). -/
def lightCheck (s : State) (n : Nat) : State :=
  let dark := (List.range 4).filter (fun g => decide ((s.lcol (4 * n + g)).power < 1500))
  if dark = [] then s
  else match freeRelay s with
    | some x => (s.modRelay x (fun r => { r with port := some n, state := 3 })).modLport n (fun p => { p with source := 1 + x })
    | none =>
      let known := dark.filter (fun g => (s.lcol (4 * n + g)).p0.isSome)
      let s := known.foldl (fun (s : State) g => s.modLcol (4 * n + g) (fun l => { l with level := 3, short := 0, maxD := 0 })) s
      let s := (fieldsOfPort n).foldl (fun (s : State) f =>
        if (s.field f).fenced then s
        else (bootFault 0x05 0 f 0 0 { s with bu := { s.bu with degraded := true } }).modField f (fun x => { x with lightFenced := true })) s
      if known = [] then s else post 0x0305 (leBytes 1 n ++ leBytes 4 (listMask 32 (fieldsOfPort n))) s

/-- The end of step 8 (R423, R424). -/
def endWarmup (obs : StepObs) (s : State) : State :=
  let s := (List.range 8).foldl lightCheck s
  let s := ((liveFields s).filter (fun f => !obs.fieldsOk.getLsbD f)).foldl (fun s f => warmupFail f none s) s
  let s := (obs.bandsBad.filter (fun i => decide (i < 256))).foldl (fun (s : State) i =>
    if (s.field (i / 8)).fenced then s else warmupFail (i / 8) (some (i % 8)) s) s
  let s := (liveFields s).foldl (fun (s : State) f => s.modField f (fun x => { x with tlLocked := true })) s
  if liveFields s = [] then stepFail 8 buNoField 0 s else stepDone 8 false s

/-- WARMUP_FIELD_TIMEOUT (R424), 10 s after the start of the field's thermal lock for its zones and 11 s after it for a band's loops: in step 8 the field, or the
band, is fenced; in the recovery of R467 the recovery fails. -/
def execWarmupFieldTimeout (f : Nat) (band : Option Nat) (s : State) : Host.Outcome State Fault Refusal :=
  .next (
    let limit := if band.isSome then 11000000 else 10000000
    if 32 ≤ f ∨ 8 ≤ band.getD 0 ∨ (s.field f).tlLocked ∨ !(s.field f).tlStart.any (fun b => decide (b + limit ≤ s.tim.beat)) then s
    else if s.bu.running = 8 then (if (s.field f).fenced then s else warmupFail f band s)
    else raiseFault 0x03 0 f 0 0 s)

/-- The end of step 9 (R425): the region's dual signature and its binding to SERIAL in bytes 8 to 15 of its header. -/
def endFactory (s : State) : State :=
  let obj := s.sec.factoryFlash
  if authentic s 3 obj && bytesAt obj 8 8 == s.sec.serial.toNat then
    let s := { s with
      cal := { s.cal with user := [], factory := (Config.factoryTable obj).foldl (fun (t : Tab Int) (v : Nat × Int) => tset 0 t v.1 (v.2 - calNominal v.1)) [] } }
    let s := (s.cal.factory.map Prod.fst).foldl loadValue s
    stepDone 9 false (extendMeas 4 (digestOf obj) { s with
      bands := tmap {} s.bands (fun _ b => { b with bandAt := none, cellAt := none })
      fields := tmap {} s.fields (fun _ x => { x with rowAt := none }) })
  else stepFail 9 buFactoryCal 0 s

/-- A band whose quantity failed in step 10 (R426): CAL_UNIT, and fenced for the rest of the run. -/
def calUnit (s : State) (i : Nat) : State :=
  let f := i / 8
  let b := i % 8
  let e := s.flt.queue.find? (fun e => sameUnit e.kind e.index e.sub 1 f b)
  let s := buFault 10 buCalUnit (unitDetail f (some b)) s
  let s := match e with
    | some e => closeFenced e { s with flt := { s.flt with queue := s.flt.queue.filter (fun x => x != e) } }
    | none => s
  bootFence 1 f b s

/-- Local bring-up is complete (R427): D0, continuous cadence, and admission from the next beat edge or from the muster beat step. -/
def bringupDone (s : State) : State :=
  let s := { s with pwr := { s.pwr with state := 0 }, cal := { s.cal with scheduled := 0, schedNext := 0 } }
  if s.link.configured then tryMuster s else { s with tim := { s.tim with aloneStart := true } }

/-- The end of step 10 (R426, R427), once no band has a procedure left. -/
def endUserCal (s : State) : State :=
  let mine := fun (i : Nat) => !(s.field (i / 8)).fenced
  if (List.range 256).any (fun i => mine i && ((s.band i).proc != 0 || !(s.band i).queue.isEmpty)) then s
  else
    let bad := (List.range 256).filter (fun i => mine i && (s.band i).suspect && !(s.band i).bootFenced)
    let s := bad.foldl calUnit s
    bringupDone (stepDone 10 (!bad.isEmpty) s)

/-! ### Ends and limits -/

/-- BRINGUP_STEP_COMPLETE (R409 to R427): the running step ends after `ms` ms with what it met. -/
def execBringupStepComplete (ms : Nat) (obs : StepObs) (s : State) : Host.Outcome State Fault Refusal :=
  .next (
    let s := if s.bu.running = 0 then s else { s with bu := { s.bu with elapsed := min ms 0xFFFF } }
    match s.bu.running with
    | 1 => endPower obs s
    | 2 => endPll obs s
    | 3 => endTrain obs s
    | 4 => endImage obs s
    | 5 => endAuth s
    | 6 => endRelease s
    | 7 => if repairDue s obs.coresBad then s else endConvoy obs.coresBad s
    | 8 => endWarmup obs s
    | 9 => endFactory s
    | 10 => endUserCal s
    | _ => s)

/-- Limits of the steps in ms (R410). -/
def stepLimit (n : Nat) : Nat := [0, 500, 100, 10000, 2000, 1000, 2000, 2000, 20000, 3000, 5000].getD n 0

/-- Procedures of step 10 that have not ended are dropped; their fields are dark again (R410). -/
def undoUserCal (s : State) : State :=
  (liveFields s).foldl (fun (s : State) f =>
    if (List.range 8).any (fun b => (s.band (8 * f + b)).proc != 0 || !(s.band (8 * f + b)).queue.isEmpty) then
      let s := (List.range 8).foldl (fun (s : State) b => dropProc (8 * f + b) s) s
      s.modField f (fun x => { x with lit := false, bandWithheld := 0 })
    else s) s

/-- BRINGUP_STEP_TIMEOUT (R410, R417, R420): a core that has not reported by step 7's limit is fenced. -/
def execBringupStepTimeout (s : State) : Host.Outcome State Fault Refusal :=
  .next (
    let n := s.bu.running
    let s := if n = 0 then s else { s with bu := { s.bu with elapsed := stepLimit n } }
    if n = 0 then s
    else if n = 6 then stepFail 6 buSteward 0 s
    else if n = 7 then endConvoy [] s
    else stepFail n buTimeout 0 (if n = 10 then undoUserCal s else s))

end Sys2Proof.Machine
end

