-- ==== Sys2Proof/Machine/Thermal.lean ====
section
/-! DEFINITION. Temperatures: sensors, dies and their levels, the throttle handshake, enforcement, holds and shut-down (R438 to R452), and
the set-point clamp. Temperatures are in 1/128 °C. -/

namespace Sys2Proof.Machine

open Sys2Proof

/-! ### Sensors (R438 to R441) -/

/-- The reading is discarded (R440): outside the sensor's valid window, or too far from the previous accepted one. -/
def discards (d : Nat) (x : Sensor) (v : Int) : Bool :=
  let hbm := decide (10 ≤ d ∧ d < 22)
  let hi : Int := if hbm then 125 * 128 else 150 * 128
  let far := if hbm then decide (25600 < (v - x.reading).natAbs) else decide (128 < 5 * (v - x.reading).natAbs)
  decide (v < -5120) || decide (hi < v) || (x.any && far)

/-- DIE as the events and `thermal.sensor` name it: 0xFF for an EXT_T pin (R513). -/
def dieName (d : Nat) : Nat := if d = 22 then 0xFF else d

/-- The sensor fails (R440); the hottest sensor of a throttling die holds the step (R449). -/
def failSensor (d i : Nat) (s : State) : State :=
  let s := s.modSensor (sensorKey d i) (fun x => { x with failed := true, goodSince := none })
  let s := raiseAlert 2 (post 0x0915 (leBytes 1 (dieName d) ++ leBytes 1 i) s)
  if d < 22 ∧ s.thm.episode ∧ (s.die d).level = 2 ∧ (s.die d).lastHot = i then
    s.modDie d (fun x => { x with hold := some i, holdFrom := none, rest := true })
  else s

/-- The sensor recovers (R440); a hold for it ends at once (R449). -/
def recoverSensor (d i : Nat) (s : State) : State :=
  let s := s.modSensor (sensorKey d i) (fun x => { x with failed := false })
  let s := post 0x0916 (leBytes 1 (dieName d) ++ leBytes 1 i) s
  s.modDie d (fun x => if x.hold = some i then { x with hold := none, holdFrom := none, rest := false } else x)

/-- Failures and recoveries that the converter or the 1 s of accepted readings decide (R440). -/
def settleSensor (d i : Nat) (s : State) : State :=
  let x := s.sensor (sensorKey d i)
  if !x.failed && converterFailed s d i then failSensor d i s
  else if x.failed && !converterFailed s d i && x.goodSince.any (fun b => decide (b + 1000000 ≤ s.tim.beat)) then recoverSensor d i s
  else s

/-! ### Levels (R442) -/

/-- Warning, throttle and shut-down thresholds of die `d`. -/
def thresholds (d : Nat) : Int × Int × Int :=
  if d < 4 then (85 * 128, 90 * 128, 100 * 128) else if d < 10 then (95 * 128, 105 * 128, 118 * 128) else (85 * 128, 95 * 128, 105 * 128)

def throttleAt (d : Nat) : Int := (thresholds d).2.1

/-- The level at temperature `t`: entered at its threshold, left below it less 4 °C. -/
def levelOf (d old : Nat) (t : Int) : Nat :=
  let (w, th, _) := thresholds d
  if th ≤ t ∨ (old = 2 ∧ th - 512 ≤ t) then 2 else if w ≤ t ∨ (1 ≤ old ∧ w - 512 ≤ t) then 1 else 0

/-- The hottest sensor of die `d` and its value: the first of the largest (R442), leaving out sensor `skip`. -/
def hottestOf (s : State) (d : Nat) (skip : Option Nat) : Option (Nat × Int) :=
  (List.range (sensorCount d)).foldl (fun m i =>
    if skip = some i then m
    else match sensorValue s d i, m with
      | some v, some x => if x.2 < v then some (i, v) else m
      | some v, none => some (i, v)
      | none, _ => m) none

/-- Failed sensors of die `d`. -/
def failedCount (s : State) (d : Nat) : Nat := ((List.range (sensorCount d)).filter (fun i => (s.sensor (sensorKey d i)).failed)).length

/-! ### Scope, steps and THROT_N (R444 to R450) -/

/-- The dies in whose scope tile `t`'s fields lie (R444). -/
def diesOver (t : Nat) : List Nat := [t, 4 + t, 8, 9] ++ (List.range 12).map (· + 10)

/-- The step for tile `t`'s fields: the episode's, and at least 2 under enforced throttle (R450). -/
def tileStep (s : State) (t : Nat) : Nat :=
  let v := s.thm.tile.getD t 0
  if (diesOver t).any (fun d => (s.die d).enforced) then max 2 v else v

/-- THROT_N is low in an episode, under enforced throttle and at shut-down (R445, R450, R451); steps take force from the next beat edge (R446). -/
def throtUpdate (s : State) : State :=
  let low := s.thm.shutdown || s.thm.episode || (List.range 10).any (fun d => (s.die d).enforced)
  { s with pins := { s.pins with throtN := !low }, thm := { s.thm with stepsNext := (List.range 4).map (tileStep s) } }

/-- A die enters throttle: an episode begins, or the die joins it (R445). -/
def enterThrottle (d : Nat) (s : State) : State :=
  if s.thm.episode then s
  else
    let s := { s with thm := { s.thm with
      episode := true, acked := false, enforcing := false, startAt := s.tim.beat, tile := [0, 0, 0, 0]
      coolAt := [none, none, none, none], fallAt := [none, none, none, none] } }
    throtUpdate (raiseAlert 0 (post 0x0912 (leBytes 1 d ++ leBytes 2 (image 16 (s.die d).temp)) s))

/-- The episode ends (R448). -/
def endEpisode (s : State) : State :=
  let ms := (s.tim.beat - s.thm.startAt) / 1000
  throtUpdate (post 0x0914 (leBytes 4 ms) { s with thm := { s.thm with
    episode := false, acked := false, enforcing := false, tile := [0, 0, 0, 0], coolAt := [none, none, none, none], fallAt := [none, none, none, none] } })

/-- Some die is at throttle. -/
def anyThrottle (s : State) : Bool := (List.range 22).any (fun d => (s.die d).level == 2)

/-- Tile `t`'s step becomes `v`, set by die `d`: THERMAL_ENFORCE (R446, R513). -/
def setStep (t v d : Nat) (s : State) : State :=
  let s := throtUpdate { s with thm := { s.thm with tile := s.thm.tile.set t v } }
  post 0x0913 (leBytes 1 d ++ (List.range 4).flatMap (fun t => leBytes 1 (tileStep s t))) s

/-- Enforcement of a tile starts at step 1 when a die over it is at throttle (R446). -/
def startTile (s : State) (t : Nat) : State :=
  match (diesOver t).find? (fun d => (s.die d).level == 2) with
  | some d =>
    if s.thm.tile.getD t 0 = 0 then
      setStep t 1 d { s with thm := { s.thm with raiseAt := s.thm.raiseAt.set t (s.tim.beat + 10000), coolAt := s.thm.coolAt.set t none
                                                 fallAt := s.thm.fallAt.set t none } }
    else s
  | none => s

/-- Tiles that a die newly at throttle covers join a running enforcement; an episode with no step and no die at throttle ends (R445, R448). -/
def episodeUpdate (s : State) : State :=
  if !s.thm.episode then s
  else
    let s := if s.thm.enforcing then (List.range 4).foldl startTile s else s
    if !anyThrottle s && s.thm.tile.all (· == 0) && (s.thm.enforcing || s.thm.acked) then endEpisode s else s

/-- Enforcement starts (R446). -/
def startEnforcing (s : State) : State := episodeUpdate { s with thm := { s.thm with enforcing := true } }

/-- Thermal shut-down (R451): every domain off, nothing recorded, both pins low until RESET_N falls. -/
def shutDown (s : State) : State :=
  let s := resetTo s
  { s with pwr := { s.pwr with state := 3 }, thm := { s.thm with shutdown := true }, pins := { s.pins with throtN := false, faultN := false } }

/-! ### Evaluation of a die (R442, R443, R449 to R451) -/

/-- The hold of die `d` (R449): whether its other sensors stand at throttle, and since when the substitute reads below the level less 4 °C. -/
def holdUpdate (d : Nat) (s : State) : State :=
  match (s.die d).hold with
  | none => s
  | some i =>
    let th := throttleAt d
    let other := ((hottestOf s d (some i)).map Prod.snd).getD (-32768)
    let below := decide (substitute s d i < th - 512)
    s.modDie d (fun x => { x with
      rest := decide ((if x.rest then th - 512 else th) ≤ other)
      holdFrom := if below then (if x.holdFrom.isSome then x.holdFrom else some s.tim.beat) else none })

/-- An HBM stack at warning or above runs at doubled refresh rate (R443). -/
def refreshRate (d : Nat) (s : State) : State :=
  if 10 ≤ d then s.modUnit (d - 10) (fun m => { m with fastRef := decide (0 < (s.die d).level) }) else s

/-- The evaluation of die `d` from its sensors' present values. -/
def evalDie (d : Nat) (s : State) : State :=
  match hottestOf s d none with
  | none => s
  | some (i, t) =>
    let x := s.die d
    let lv := levelOf d x.level t
    let subst := (s.sensor (sensorKey d i)).failed
    let item := leBytes 1 d ++ leBytes 2 (image 16 t)
    if (thresholds d).2.2 ≤ t then shutDown s
    else
      let s := refreshRate d (s.setDie d { x with
        temp := t, hottest := i, subst := subst, level := lv, lastHot := if subst then x.lastHot else i, enforced := decide (2 ≤ failedCount s d) })
      let s := if x.level = 0 ∧ 0 < lv then raiseAlert 3 (post 0x0910 item s) else if 0 < x.level ∧ lv = 0 then post 0x0911 item s else s
      let s := if x.level < 2 ∧ lv = 2 then enterThrottle d s else s
      holdUpdate d s

/-- A stack whose temperature has moved by 20 °C since its last training retrains (R305). -/
def driftCheck (n : Nat) (s : State) : State :=
  match (s.unit n).trainTemp with
  | some t => if (s.unit n).state = 1 ∧ 2560 ≤ ((s.die (10 + n)).temp - t).natAbs then triggerRetrain n s else s
  | none => s

/-- Every die under every tile has been below its throttle level less 4 °C since then (R448). -/
def coolTrack (s : State) (t : Nat) : State :=
  let hot := (diesOver t).any (fun d => decide (throttleAt d - 512 ≤ (s.die d).temp))
  let held := (diesOver t).any (fun d => (s.die d).hold.isSome)
  let since := if hot then none else some ((s.thm.coolAt.getD t none).getD s.tim.beat)
  let fall := match since with
    | none => none
    | some b => if held then s.thm.fallAt.getD t none else some ((s.thm.fallAt.getD t none).getD (max (b + 10000) s.tim.beat))
  { s with thm := { s.thm with coolAt := s.thm.coolAt.set t since, fallAt := s.thm.fallAt.set t fall } }

/-- The episode's bookkeeping after dies have been evaluated. -/
def afterDies (s : State) : State :=
  if s.thm.shutdown then s
  else throtUpdate (episodeUpdate (if s.thm.enforcing then (List.range 4).foldl coolTrack s else s))

/-- Highest die temperature in °C for MG_STATUS (R490). -/
def hottestDie (s : State) : State :=
  let m := (List.range 21).foldl (fun m d => max m (s.die (d + 1)).temp) (s.die 0).temp
  { s with mg := { s.mg with hottest := m.fdiv 128 } }

/-- The dies' evaluation of this beat from the previous beat's readings (R442), and the set-point clamp (R452). -/
def dieEdge (s : State) : State :=
  let on := (List.range 10).filter (fun d => (List.range (sensorCount d)).any (fun i => (s.sensor (sensorKey d i)).any || (s.sensor (sensorKey d i)).failed))
  let s := (on ++ [22]).foldl (fun s d => (List.range (sensorCount d)).foldl (fun s i => settleSensor d i s) s) s
  let s := on.foldl (fun s d => if s.thm.shutdown then s else evalDie d s) s
  if s.thm.shutdown then s
  else
    let s := { s with free := if on = [] then s.free else s.free + 512 }
    let clamp := s.eng.run && decide (setPointCap < coolGoal s)
    let s := if clamp && !s.thm.clamped then post 0x0917 [] s else s
    hottestDie (afterDies { s with thm := { s.thm with clamped := clamp } })

/-! ### Meanings -/

/-- An EXT_T pin at its WARN (R443): once until it reads below. -/
def extWarn (i : Nat) (s : State) : State :=
  let x := s.sensor (sensorKey 22 i)
  let e := s.extT i
  let on := e.type != 0 && !x.failed && x.any && decide (128 * e.warn.toInt ≤ x.reading)
  let s := s.setExtT i { e with warned := on }
  if on && !e.warned then post 0x0918 [] s else s

/-- Temperature `v` of sensor `i` of die `d`, discarded when `out` (R440); an HBM die is evaluated at each new reading (R442). -/
def takeReading (d i : Nat) (out : Bool) (v : Int) (s : State) : State :=
  let k := sensorKey d i
  let x := s.sensor k
  let bad := out || discards d x v
  let n := if bad then x.discards + 1 else 0
  let s := s.setSensor k { x with
    reading := if bad then x.reading else v, any := x.any || !bad, discards := min 3 n, lastDiscard := bad
    goodSince := if bad then none else if x.goodSince.isSome then x.goodSince else some s.tim.beat
    hist := (x.hist ++ [(s.tim.beat, v, bad, x.failed)]).drop (x.hist.length + 1 - 64) }
  let s := if 3 ≤ n ∧ !x.failed then failSensor d i s else settleSensor d i s
  if d = 22 then extWarn i s
  else if 10 ≤ d then
    let s := evalDie d s
    if s.thm.shutdown then s else driftCheck (d - 10) (afterDies s)
  else s

/-- Sensor `i` of die `d` has had its reading of this beat (R438). -/
def readAlready (s : State) (d i : Nat) : Bool :=
  (decide (d < 10) || d == 22) && ((s.sensor (sensorKey d i)).hist.getLast?).any (fun h => h.1 == s.tim.beat)

/-- SENSOR_READING (R438 to R443): converted (R439), then accepted or discarded. -/
def execSensorReading (d i : Nat) (v : Int) (s : State) : Host.Outcome State Fault Refusal :=
  .next (
    if sensorCount d ≤ i ∨ s.tim.counting = false ∨ s.bu.on.getLsbD 1 = false ∨ readAlready s d i = true then s
    else match sensorTemp s d i v with
      | some t => takeReading d i (pinOutside s d i) t s
      | none => s)

/-- OVERTEMP_COMPARATOR_TRIP (R442): throttle in this beat, and the injected temperature sequences of R127. -/
def execOvertempComparatorTrip (d : Nat) (s : State) : Host.Outcome State Fault Refusal :=
  .next (
    if 22 ≤ d ∨ s.bu.on.getLsbD 1 = false then s
    else
      let x := s.die d
      let ks := ((List.range (sensorCount d)).filterMap (sensorConverter d)).eraseDups
      let s := ks.foldl (fun (s : State) k => trigger k 1 s) (refreshRate d (s.setDie d { x with level := 2 }))
      if x.level = 2 then s
      else
      let s := if x.level = 0 then raiseAlert 3 (post 0x0910 (leBytes 1 d ++ leBytes 2 (image 16 x.temp)) s) else s
      episodeUpdate (enterThrottle d s))

/-- THROTTLE_GRACE_EXPIRY (R446). -/
def execThrottleGraceExpiry (s : State) : Host.Outcome State Fault Refusal :=
  .next (
    if s.thm.episode ∧ !s.thm.acked ∧ !s.thm.enforcing ∧ s.thm.startAt + 100 * s.thm.grace ≤ s.tim.beat then startEnforcing s else s)

/-- THROTTLE_ACK_LIMIT (R446): 50 ms after the acknowledgement, or at the throttle level plus 3 °C. -/
def execThrottleAckLimit (s : State) : Host.Outcome State Fault Refusal :=
  .next (
    let hot := (List.range 22).any (fun d => (s.die d).level == 2 && decide (throttleAt d + 384 ≤ (s.die d).temp))
    if s.thm.episode && s.thm.acked && !s.thm.enforcing && anyThrottle s && (hot || decide (s.thm.ackAt + 50000 ≤ s.tim.beat)) then
      startEnforcing s
    else s)

/-- A die counts towards a rise: at throttle, or with a hold by its other sensors (R448, R449). -/
def raises (s : State) (d : Nat) : Bool := if (s.die d).hold.isSome then (s.die d).rest else (s.die d).level == 2

/-- The 10 ms timer of tile `t` (R448). -/
def tileTimer (s : State) (t : Nat) : State :=
  let v := s.thm.tile.getD t 0
  if v = 0 then s
  else
    let now := s.tim.beat
    let hot := (diesOver t).find? (raises s)
    let hottest := (diesOver t).foldl (fun a d => if (s.die a).temp < (s.die d).temp then d else a) t
    if s.thm.raiseAt.getD t 0 ≤ now ∧ hot.isSome then
      let s := { s with thm := { s.thm with raiseAt := s.thm.raiseAt.set t (s.thm.raiseAt.getD t 0 + 10000) } }
      if v < 5 then setStep t (v + 1) (hot.getD 0) s else s
    else
      let s := if s.thm.raiseAt.getD t 0 ≤ now then
          { s with thm := { s.thm with raiseAt := s.thm.raiseAt.set t (s.thm.raiseAt.getD t 0 + 10000) } } else s
      match s.thm.fallAt.getD t none with
      | some b =>
        if b ≤ now ∧ !(diesOver t).any (fun d => (s.die d).hold.isSome) then
          setStep t (v - 1) hottest { s with thm := { s.thm with fallAt := s.thm.fallAt.set t (some (b + 10000)) } }
        else s
      | none => s

/-- THROTTLE_STEP_TIMER (R448). -/
def execThrottleStepTimer (s : State) : Host.Outcome State Fault Refusal :=
  .next (
    if s.thm.episode && s.thm.enforcing then episodeUpdate ((List.range 4).foldl tileTimer ((List.range 4).foldl coolTrack s)) else s)

/-- SENSOR_HOLD_TIMER (R449): the substitute has read below the level less 4 °C for 1 s. -/
def execSensorHoldTimer (d : Nat) (s : State) : Host.Outcome State Fault Refusal :=
  .next (
    if (s.die d).hold.isSome && (s.die d).holdFrom.any (fun b => decide (b + 1000000 ≤ s.tim.beat)) then
      s.modDie d (fun x => { x with hold := none, holdFrom := none, rest := false })
    else s)

/-- SHUTDOWN_COMPARATOR_TRIP (R451): from the rising edge of RESET_N, without firmware. -/
def execShutdownComparatorTrip (d : Nat) (s : State) : Host.Outcome State Fault Refusal :=
  .next (if d < 22 ∧ s.pins.rstN ∧ s.pins.pwrok ∧ s.pwr.state < 3 then shutDown s else s)

/-- THERMAL_THROTTLE_ACK (R446, R454): after the grace time it changes nothing. -/
def execThermalThrottleAck (k : Nat) (s : State) : Host.Outcome State Fault Refusal :=
  .next (runCmd k 0x0903 (fun c s =>
    checked [ c.rsvd 16 64, outOfRange (!s.thm.episode) ]
      (fun s =>
        if !s.thm.enforcing && !s.thm.acked && decide (s.tim.beat < s.thm.startAt + 100 * s.thm.grace) then
          (episodeUpdate { s with thm := { s.thm with acked := true, ackAt := s.tim.beat } }, {})
        else (s, {})) s) s)

/-- A record of `thermal.sensor`: beat, reading, discarded and failed (R514). -/
def historyRecord (h : Nat × Int × Bool × Bool) : List Byte :=
  leBytes 4 h.1 ++ leBytes 2 (image 16 h.2.1) ++ leBytes 1 (b01 h.2.2.1 + 2 * b01 h.2.2.2) ++ [0]

/-- THERMAL_SENSOR (R454, R512, R514): the last 64 readings, oldest first; fewer stand at the end. -/
def execThermalSensor (k : Nat) (s : State) : Host.Outcome State Fault Refusal :=
  .next (runCmd k 0x0904 (fun c s =>
    let d := if c.at 16 1 = 0xFF then 22 else if c.at 16 1 < 22 then c.at 16 1 else 23
    checked [ c.extNeed 512, outOfRange (d == 23) 16, outOfRange (decide (sensorCount d ≤ c.at 17 1)) 17, c.rsvd 18 64 ]
      (fun s =>
        let h := (s.sensor (sensorKey d (c.at 17 1))).hist
        (s, { output := List.replicate (512 - 8 * h.length) 0 ++ (h.map historyRecord).flatten })) s) s)

end Sys2Proof.Machine
end

