-- ==== Sys2Proof/Machine/Power.lean ====
section
/-! DEFINITION. Power states and domains (R431 to R437, R454). -/

namespace Sys2Proof.Machine

open Sys2Proof

/-- The converter domains 4·f + 1 and 4·f + 2, off in D1 (R433). -/
def converterDomains : List Nat := ((List.range 32).map (fun f => [4 * f + 1, 4 * f + 2])).flatten

/-- POWER_STATE: the new state, then the previous one (R437). -/
def postPower (new_ old : Nat) (s : State) : State := post 0x0919 (leBytes 1 new_ ++ leBytes 1 old) s

/-- The device enters D1 at this beat edge (R434): modulators at null, receivers gated, converters off, memory in self-refresh; calibration procedures end;
light-engine enables fall (R351). -/
def enterD1 (s : State) : State :=
  let cmd := s.pwr.cmd
  let s := ((s.bands.filter (fun e => e.2.proc != 0 || !e.2.queue.isEmpty)).map Prod.fst).foldl (fun (s : State) i => abandonProc i s) s
  let s := { s with
    fields := tmap {} s.fields (fun _ x => { x with lit := false })
    units := tmap {} s.units (fun _ m => { m with selfRef := true })
    pins := { s.pins with leEn := 0 }
    pwr := { s.pwr with on := s.pwr.on.filter (fun d => !converterDomains.contains d), state := 1, next := none, cmd := none } }
  postPower 1 0 (match cmd with
    | some k => finishCmd k {} s
    | none => s)

/-- The device starts its return to D0 (R435): converters on, memory out of self-refresh, fields lit, and a band calibration on every band in service once its
loops have locked. -/
def leaveD1 (k : Nat) (s : State) : State :=
  let en := listMask 24 ((List.range 24).filter (fun p => (s.port p).state == 1 || (s.port p).state == 2))
  let s := powerOn converterDomains { s with
    units := tmap {} s.units (fun _ m => { m with selfRef := false })
    pwr := { s.pwr with state := 2, cmd := some k, since := s.tim.beat }, pins := { s.pins with leEn := BitVec.ofNat 24 en } }
  let s := (liveFields s).foldl (fun (s : State) f => s.modField f (fun x => { x with lit := true })) s
  ((liveFields s).flatMap (fun f => (List.range 8).map (fun b => 8 * f + b))).foldl (fun (s : State) i =>
    if bandInService s (i / 8) (i % 8) then startProc (i / 8) (i % 8) 1 [] none s else s) s

/-- Bands that the return to D0 still calibrates. -/
def returning (s : State) : List Nat :=
  (s.bands.filter (fun e => (e.2.proc != 0 || !e.2.queue.isEmpty) && !(s.field (e.1 / 8)).fenced)).map Prod.fst

/-- The return to D0 is complete at the beat edge at which no band has a procedure left, or at 100 ms: a band that has not locked or calibrated by then becomes
suspect (R435, R177). -/
def reachD0 (s : State) : State :=
  if returning s ≠ [] ∧ s.tim.beat < s.pwr.since + 100000 then s
  else
    let s := (returning s).foldl (fun (s : State) i => failQuantity i 1 (kLo (i / 8) (i % 8) 0) s) s
    let cmd := s.pwr.cmd
    let s := { s with pwr := { s.pwr with state := 0, cmd := none } }
    postPower 0 1 (match cmd with
      | some k => finishCmd k {} s
      | none => s)

/-- The device enters D3 (R436): every domain off. -/
def enterD3 (s : State) : State :=
  let s := resetTo s
  { s with pwr := { s.pwr with state := 3 } }

/-- Changes of power state at a beat edge. D3 follows once its command is reported. -/
def powerEdge (s : State) : State :=
  match s.pwr.next with
  | some 1 => enterD1 s
  | some 3 => if s.pwr.cmd.any (fun k => (cmdOf s k).isSome) then s else enterD3 s
  | _ => if s.pwr.state = 2 then reachD0 s else s

/-- POWER_STATE (R434 to R437): STATE at byte 16, 0 D0, 1 D1, 3 D3. The present state completes at once. -/
def execPowerState (k : Nat) (s : State) : Host.Outcome State Fault Refusal :=
  .next (runCmd k 0x0202 (fun c s =>
    let v := c.at 16 1
    checked [ badField (decide (v = 2 ∨ 3 < v)) 16, c.rsvd 17 64,
              refuse (s.bu.step != 10 || s.pwr.next.isSome || s.pwr.state == 2) stBusy,
              refuse (v == 1 && s.pwr.state == 0 && s.ops.any (fun o => o.code == 0x01)) stBusy,
              refuse (v == 3 && !s.ops.isEmpty) stBusy ]
      (fun s =>
        let s := extendConfig c s
        if v = 3 then (postPower 3 s.pwr.state { s with pwr := { s.pwr with next := some 3, cmd := some k } }, {})
        else if v = s.pwr.state then (s, {})
        else if v = 1 then ({ s with pwr := { s.pwr with next := some 1, cmd := some k } }, { wait := true })
        else (leaveD1 k s, { wait := true })) s) s)

/-- Domains that need domain `d` on (R431), among those that `power.domain` switches. -/
def dependants (d : Nat) : List Nat := if d < 128 ∧ d % 4 = 3 then [d - 3, d - 2, d - 1, 128 + d / 4] else []

/-- The prerequisite of a domain that `power.domain` switches (R431); routers and bridge domains stay on. -/
def prerequisite (d : Nat) : Option Nat :=
  if d < 128 then (if d % 4 = 3 then none else some (d / 4 * 4 + 3)) else if d < 160 then some (4 * (d - 128) + 3) else none

/-- The unit of a domain may lose its power (R432): fenced, disabled, or never trained or enabled. -/
def domainIdle (s : State) (d : Nat) : Bool :=
  if d < 128 then (s.field (d / 4)).fenced
  else if d < 160 then (coresOf (d - 128)).all (fun c => (s.coreOf c).state == 3)
  else if d < 172 then (s.unit (d - 160)).state == 0 || (s.unit (d - 160)).state == 3
  else if d < 184 then (s.unit (d - 156)).state == 0 || (s.unit (d - 156)).state == 3
  else (s.port (d - 184)).state == 3 || ((s.port (d - 184)).state == 0 && s.link.phase == 0)

/-- POWER_DOMAIN (R432): DOMAIN at byte 16, ON at byte 17. Switching restores power only. -/
def execPowerDomain (k : Nat) (s : State) : Host.Outcome State Fault Refusal :=
  .next (runCmd k 0x0203 (fun c s =>
    let d := c.at 16 1
    let on := c.at 17 1 == 1
    checked [ outOfRange (decide (208 ≤ d) || (!on && (dependants d).any (fun x => s.pwr.on.contains x))) 16, badField (decide (1 < c.at 17 1)) 17,
              outOfRange (on && (prerequisite d).any (fun x => !s.pwr.on.contains x)) 16, c.rsvd 18 64,
              refuse (!on && s.pwr.on.contains d && !domainIdle s d) stBusy ]
      (fun s => (if on then powerOn [d] s else { s with pwr := { s.pwr with on := s.pwr.on.filter (fun x => x != d) } }, {})) s) s)

end Sys2Proof.Machine
end

