-- ==== Sys2Proof/Machine/Edge.lean ====
section
/-! DEFINITION. The beat edge and its halt (R15 to R26, R39 to R41, R94, R155, R174, R180, R256 to R259, R264, R427, R468). -/

namespace Sys2Proof.Machine

open Sys2Proof

/-- The slices of the beat that ends are over (R16, R19), and with them the symbol slots of every field (R20, R138). -/
def closeSlices (s : State) : State := (List.range 32).foldl fieldSlotsEnd (endSlices (fun _ => true) s)

/-- Results of the beat in which an LO phase loop of a band lost lock carry STALE_CAL (R155, R183). -/
def flagLost (s : State) : State :=
  let lost := (s.bands.filter (fun e => e.2.lostLock)).map Prod.fst
  let hit := fun (o : Op) => o.sliceBeat == some (s.tim.beat - 1) && lost.any (fun i => o.map.any (fun m => m.onBand s (i / 8) (i % 8)))
  { s with
    ops := s.ops.map (fun o => o.flagIf (hit o) fStale)
    bands := tmod {} s.bands lost (fun _ b => { b with lostLock := false }) }

/-- The admitted ops that an abort names admit nothing after this edge; their cores stop, and they retire `aborted` (R264, R278). -/
def abortEdge (s : State) : State :=
  retireAll ((s.ops.filter (fun o => o.abortAt.isSome)).map (fun o => o.key)) 1 s

/-- Bands of field `f` that returned to dispatch between `s₀` and `s` (R174), or whose quick gain took effect between them (R179): their planes hold calibration
codes. -/
def returnedBands (s₀ s : State) (f : Nat) : BitVec 8 :=
  let n := portOfField f
  if (s₀.lport n).sw = 4 ∧ (s.lport n).sw = 5 then BitVec.allOnes 8 else (s₀.field f).bandWithheld &&& ~~~ (s.field f).bandWithheld

/-- A group whose op uses a returned band is dispatched only on planes filled after the return (R94): its present tile is loaded again. -/
def refillGroup (o : Op) (p : GPos) (s : State) : State :=
  let s := modOp o.key (Op.modPos p.root (fun p => { p with live := false })) s
  (o.members p.root).foldl (fun (s : State) f => s.modField f (fun x => { x with
    loader := some o.key, bufFull := false, loaderBusy := false, shadowReady := false, reloadPend := false })) s

/-- R94 at this edge, for every group that holds its slots. -/
def refillReturned (s₀ s : State) : State :=
  (s.ops.filter (fun o => o.code == 0x01 && o.stage == 2)).foldl (fun (s : State) o =>
    (o.pos.filter (fun p => !p.done && (o.members p.root).any (fun f =>
      (s.field f).slots == some o.key && (o.groupBands s p.root &&& returnedBands s₀ s f) != 0))).foldl (fun (s : State) p => refillGroup o p s) s) s

/-- The telemetry of the ADC slices of every band that is newly withheld holds what the slices were in `s₀`, before it was (R173, R55). -/
def holdTelemetry (s₀ s : State) : State :=
  (List.range 32).foldl (fun (s : State) f =>
    let x := s.field f
    let new := ((List.range 8).filter (fun b => (x.bandWithheld &&& ~~~ x.telHeld).getLsbD b))
    let keys := new.flatMap (fun b => (List.range 2048).map (fun i => (f * 256 + 32 * b) * 64 + i))
    let s := keys.foldl (fun (s : State) k => s.setAdcOld k (s₀.adc k)) s
    if x.telHeld = x.bandWithheld then s else s.setField f { x with telHeld := x.bandWithheld }) s

/-- TRIM_ROUND of every field (R95, R119). -/
def trimEdge (s : State) : State :=
  (List.range 32).foldl (fun (s : State) f => s.modField f (fun x => { x with trimRound := s.tim.beat % 64 })) s

/-- In device error every field stays dark (R468). -/
def darkEdge (s : State) : State := { s with fields := tmap {} s.fields (fun _ x => { x with lit := false }) }

/-- The package power of every 16th beat is a measurement (R453): a free value of 16 bits. -/
def powerReading (s : State) : State :=
  if s.tim.beat % 16 = 0 then { s with pwr := { s.pwr with pkgPower := Config.freeNat s.free % 65536 }, free := s.free + 1 } else s

/-- What hardware does at the edge of beat `s.tim.beat`, whatever the steward does: TICKOUT (R22), throttle steps, frames, the samples of the beat that closed
for light and coolant, alignment, live refresh, loops. -/
def hardwareEdge (s : State) : State :=
  let s := monitorFrames { s with
    thm := { s.thm with steps := s.thm.stepsNext }
    pins := { s.pins with tickOut := some s.tim.beat } }
  let s := timeEdge (coolEdge (lightEdge s))
  let s := (List.range 32).foldl (fun (s : State) f => refreshEdge f s) s
  powerReading (trimEdge (thermalEdge (loopEdge s)))

/-- What the sequencer and the steward do at the edge of the beat that follows `s₀`: partitions, calibration in the halt, aborts, admission, and the plan of the beat. -/
def plannedEdge (s₀ : State) (refvOk : Bool) (s : State) : State :=
  let s₁ := if s.tim.aloneStart then { s with tim := { s.tim with admits := true, aloneStart := false } } else s
  let s₂ := holdTelemetry s₁ (calEdge refvOk (partsEdge s₁))
  claimEdge (refillReturned s₀ (abortEdge (flagLost s₂)))

/-- BEAT_EDGE (R15, R16): while beats are counted; `refvOk` says whether REFV stands inside its window (R169). -/
def execBeatEdge (refvOk : Bool) (s : State) : Host.Outcome State Fault Refusal :=
  .next (
    if s.tim.counting then
      let s₀ := closeSlices s
      let s := hardwareEdge { s₀ with tim := { s₀.tim with beat := s₀.tim.beat + 1, t := 0 } }
      let s := if s.flt.deviceError then darkEdge s else plannedEdge s₀ refvOk s
      dieEdge (powerEdge s)
    else s)

end Sys2Proof.Machine
end

