-- ==== Sys2Proof/Machine/Moves.lean ====
section
/-! DEFINITION. The ops `move` and `move.reduce`, within the device and to another device (R237, R246, R260, R290, R361 to R364). -/

namespace Sys2Proof.Machine

open Sys2Proof

/-- DEST names another device (R236). -/
def Op.leaves (o : Op) : Bool := bit (o.dn 36 2) 14

/-- Source and destination address and length of a move. -/
def Op.src (o : Op) : Nat := o.dn 16 6
def Op.dst (o : Op) : Nat := o.dn 24 6
def Op.len (o : Op) : Nat := o.dn 32 4

/-- Destination word `w` takes a byte from a poisoned source word. -/
def movedBad (s : State) (src dst n : Nat) (w : Nat) : Bool :=
  (List.range 8).any (fun i => let a := 8 * w + i
    decide (dst ≤ a ∧ a < dst + n) && wordBad s ((src + (a - dst)) / 8))

/-- The cuts of [a, a+n) at 4 KiB-aligned addresses, as address and length (R361). -/
def cuts (a n : Nat) : List (Nat × Nat) :=
  if n = 0 then []
  else (List.range ((a + n - 1) / 4096 - a / 4096 + 1)).map (fun i =>
    let lo := max a (4096 * (a / 4096 + i))
    (lo, min (a + n) (4096 * (a / 4096 + i + 1)) - lo))

/-- TYPE of the packets of a move: 0 write, 1 reduce BF16, 2 reduce FP32 (R361). -/
def Op.pkType (o : Op) : Nat := if o.code = 0x20 then 0 else if bit (o.dn 38 1) 0 then 2 else 1

/-- One packet of a move to another device (R361). -/
def Op.packet (s : State) (o : Op) (opref : Nat) (c : Nat × Nat) : Packet :=
  let src := o.src + (c.1 - o.dst)
  let w0 := c.1 / 8
  { dst := bits (o.dn 36 2) 0 14, src := s.link.coord, type := o.pkType, addr := 8 * w0, firstByte := c.1 % 8, bytes := c.2, opref := opref
    data := rdBytes s src c.2
    poison := ((List.range ((c.1 % 8 + c.2 + 7) / 8)).filter (fun j => movedBad s src c.1 c.2 (w0 + j))) }

/-- The packets of a move to another device leave for the link ports, each with a reference of its own (R361, R362). -/
def sendMove (k : Nat) (o : Op) (s : State) : State :=
  let l := cuts o.dst o.len
  let refs := (List.range l.length).map (fun i => (s.seq.opRef + i) % 65536)
  let pks := (refs.zip l).map (fun x => o.packet s x.1 x.2)
  let s := modOp k (fun o => { o with acks := refs, toSend := o.len, remote := true }) s
  { s with
    seq := { s.seq with
      opRef := (s.seq.opRef + l.length) % 65536
      remoteUnacked := s.seq.remoteUnacked ++ refs.map (fun r => (r, o.stream, o.tag, bits (o.dn 36 2) 0 14)) }
    link := { s.link with own := s.link.own ++ pks } }

/-- A move within the device copies its bytes; poisoned words stay poisoned (R293). -/
def copyMove (o : Op) (s : State) : State :=
  let bad := (wordsOf o.dst o.len).filter (movedBad s o.src o.dst o.len)
  wrBytes o.dst (rdBytes s o.src o.len) (fun w => bad.contains w) (hide o.stream o.dst o.len s)

/-- A `move.reduce` within the device adds its elements in rising order (R246, R364): the state, and whether a sum overflowed. -/
def addMove (o : Op) (s : State) : State × Bool :=
  let f := if bit (o.dn 38 1) 0 then fp32 else bf16
  let bad := (wordsOf o.dst o.len).filter (movedBad s o.src o.dst o.len)
  addElems f (fun w => bad.contains w) o.dst (elemsOf (f.width / 8) (rdBytes s o.src o.len)) (hide o.stream o.dst o.len s)

/-- The move is admitted and acts (R246, R260, R263, R361): within the device its work is done at once; to another device when the ports have accepted its
last flit. -/
def runMove (k : Nat) (reduce : Bool) (o : Op) (s : State) : State :=
  let s := touch o.src o.len (setAdmitted k s)
  let s := modOp k (Op.flagIf (anyBad s o.src o.len) fPoison) s
  if o.leaves then sendMove k o s
  else
    let x := if reduce then addMove o s else (copyMove o s, false)
    modOp k (fun o => (Op.flagIf x.2 fSat { o with stage := 3 }).flagIf (anyBad x.1 o.dst o.len) fPoison) x.1

/-- What a move reads and writes on this device. -/
def Op.moveRanges (o : Op) : List (Nat × Nat) := (o.src, o.len) :: if o.leaves then [] else [(o.dst, o.len)]

/-- The move waits while a unit holds its requests (R306). -/
def tryMove (k : Nat) (reduce : Bool) (o : Op) (s : State) : State := if heldAny s o.moveRanges then s else runMove k reduce o s

/-- MOVE. -/
def execMove (k : Nat) (s : State) : Host.Outcome State Fault Refusal := .next (admitOp k 0x20 (tryMove k false) s)

/-- MOVE_REDUCE. -/
def execMoveReduce (k : Nat) (s : State) : Host.Outcome State Fault Refusal := .next (admitOp k 0x21 (tryMove k true) s)

end Sys2Proof.Machine
end

