-- ==== Sys2Proof/Machine/Regs.lean ====
section
/-! DEFINITION. Register images: what a read of each register returns (R12, R62, R86, R119, R137, R162, R190, R265, R285, R289, R311, R346, R379,
R383, R430, R453, R469, R490). Every image is the number of the register's 32-bit word at its offset; reserved bits and unassigned offsets are 0. -/

namespace Sys2Proof.Machine

open Sys2Proof

/-- The word whose fields are given as lowest bit, width and value. -/
def packReg : List (Nat × Nat × Nat) → Nat
  | [] => 0
  | (lo, w, v) :: l => v % 2 ^ w * 2 ^ lo + packReg l

/-- Low and high word of a 64-bit register. -/
def word64 (v i : Nat) : Nat := bits v (32 * i) 32

/-- Whole milliseconds from beat `b` to now, saturating at `lim`. -/
def sinceMs (s : State) (b lim : Nat) : Nat := min lim ((s.tim.beat - b) / 1000)

/-! ### Field blocks (R62, R119, R190, R285) -/

/-- Age in ns of a plane filled at `a`, saturating (R62). -/
def planeAge (s : State) (a : Option Nat) : Nat := (a.map (fun b => min 32767 (nowNs s s.tim.t - b))).getD 0

/-- Offset, gain or skew of a slice stands at the end of its range (R99, R119). -/
def Adc.atLimit (a : Adc) : Bool := a.offset.natAbs == 2047 || a.gainTrim == 0 || a.gainTrim == 255 || a.skew == 0 || a.skew == 63

/-- COMMON_OFFSET of column `c` and colour `g` (R119): the band's DAC code as the last halt found it, kept while the band is withheld (R173). -/
def commonOffset (s : State) (f c g : Nat) : Int := tget 0 (s.field f).commonOff (8 * g + c / 32)

/-- The state that a slice reports: what it was before its band was withheld, while it is (R55, R173). -/
def adcShown (s : State) (f c g i : Nat) : Adc :=
  let key := ((f * 256 + c) * 4 + g) * 16 + i
  let x := s.field f
  if (x.bandWithheld &&& x.telHeld).getLsbD (c / 32) then s.adcOld key else s.adc key

/-- Age since beat `b` in units of `u` beats, saturating at `lim`; the maximum while there is none (R182, R190). -/
def calAge (s : State) (b : Option Nat) (u lim : Nat) : Nat := (b.map (fun b => min lim ((s.tim.beat - b) / u))).getD lim

/-- CAL_AGE_b of field `f` (R190). -/
def calAgeReg (s : State) (f b : Nat) : Nat :=
  let x := s.band (8 * f + b)
  packReg [(0, 16, calAge s x.bandAt 1000 0xFFFF), (16, 12, calAge s x.cellAt 1000000 0xFFF), (28, 1, b01 x.suspect),
           (29, 1, b01 (x.proc != 0 || x.hold || x.qg != 0 || (s.field f).kaOn))]

/-- CAL_FIELD of field `f` (R190). -/
def calFieldReg (s : State) (f : Nat) : Nat :=
  let x := s.field f
  packReg [(0, 12, calAge s x.rowAt 1000000 0xFFF), (12, 3, x.proc), (15, 3, x.procBand), (18, 1, b01 x.window),
           (19, 1, b01 (!s.cal.scheduled.getLsbD (partOfField s f)))]

/-- TRACKER_BUSY of field `f` (R279, R285): its `quant.scale` has written its codes and not yet completed its push. -/
def trackerBusy (s : State) (f : Nat) : Bool := s.ops.any (fun o => o.code == 0x11 && o.stage == 3 && (selected (o.dn 40 4)).head? == some f)

/-- VC_CORE_c of field `f` (R285). -/
def vcCoreReg (s : State) (f c : Nat) : Nat :=
  let x := s.coreOf (64 * f + c)
  let st := if x.state = 0 ∧ (s.field f).drain.getLsbD (c / 16) = true then 2 else x.state
  packReg [(0, 2, st), (2, 1, b01 x.trapped), (3, 4, x.cause), (7, 1, b01 x.poison), (8, 1, b01 x.resident.isSome)]

/-- FLD_STATUS (R62). -/
def fldStatus (s : State) (f : Nat) : Nat :=
  let x := s.field f
  packReg [(0, 1, b01 x.livePlane), (1, 1, b01 x.shadowReady), (2, 2, fieldState s f), (4, 4, x.colours.toNat), (8, 8, x.bandFenced.toNat),
           (16, 8, x.bandWithheld.toNat), (24, 2, b01 x.slow)]

/-- EDG_STATUS (R119). -/
def edgStatus (s : State) (f : Nat) : Nat :=
  let x := s.field f
  packReg [(0, 2, x.headroom), (2, 1, b01 x.loaderBusy), (3, 1, b01 x.bufFull), (4, 1, b01 x.shadowStale), (5, 1, b01 (treeFenceOn s f)),
           (6, 1, b01 x.treeRoot), (7, 5, x.treeDepth), (12, 6, x.trimRound)]

/-- EDG_ADC_DATA (R119): the slice that EDG_ADC_SEL names. -/
def edgAdcData (s : State) (f : Nat) : Nat :=
  let sel := (s.field f).adcSel.toNat
  let a := adcShown s f (bits sel 0 8) (bits sel 8 2) (bits sel 10 4)
  packReg [(0, 12, image 12 a.offset), (12, 8, a.gainTrim.toNat), (20, 6, a.skew), (26, 1, b01 a.atLimit)]

/-- EDG_ADC_COL (R119): the column and colour that EDG_ADC_SEL names. -/
def edgAdcCol (s : State) (f : Nat) : Nat :=
  let x := s.field f
  let c := bits x.adcSel.toNat 0 8
  let g := bits x.adcSel.toNat 8 2
  packReg [(0, 12, image 12 (calEff s (kOffset f c g x.headroom))), (12, 12, image 12 (commonOffset s f c g)),
           (24, 1, b01 (decide (x.symIdx < (s.taint (octetKey f c g)).upTo)))]

/-- Word at offset `o` of the 4 KiB block of field `f` (R289). -/
def fieldRead (s : State) (f o : Nat) : Nat :=
  let x := s.field f
  match o with
  | 0x000 => fldStatus s f
  | 0x004 => packReg [(0, 15, planeAge s x.liveAt), (16, 15, if x.shadowReady then planeAge s x.shadowAt else 0)]
  | 0x008 => x.refreshCount.toNat
  | 0x100 => edgStatus s f
  | 0x110 => x.adcSel.toNat
  | 0x114 => edgAdcData s f
  | 0x118 => edgAdcCol s f
  | 0x220 => calFieldReg s f
  | 0x500 => packReg [(0, 7, ((coresOf f).filter (coreHealthy s)).length), (7, 4, x.drain.toNat), (11, 4, x.quantBusy.toNat), (15, 1, b01 (trackerBusy s f))]
  | _ =>
    if 0x200 ≤ o ∧ o < 0x220 then calAgeReg s f ((o - 0x200) / 4)
    else if 0x400 ≤ o ∧ o < 0x500 then vcCoreReg s f ((o - 0x400) / 4) else 0

/-! ### Light and sequencer (R86, R265) -/

/-- LGT_RELAY (R86). -/
def lgtRelay (s : State) : Nat :=
  let a := s.relay 0
  let b := s.relay 1
  packReg [(0, 4, a.port.getD 15), (4, 2, a.state), (6, 1, b01 (relayAvail s 0)), (8, 4, b.port.getD 15), (12, 2, b.state), (14, 1, b01 (relayAvail s 1)),
           (15, 1, b01 s.light.pause), (16, 16, s.light.pauseCount)]

/-- LGT_PORT_STATUS_n (R86): a relay's level is that of the port it serves (R74). -/
def lgtStatus (s : State) (n : Nat) : Nat :=
  let p := s.lport n
  let col := fun (q : LightCol → Bool) => listMask 4 ((List.range 4).filter (fun g => q (s.lcol (4 * n + g))))
  let lvl := fun (g : Nat) =>
    if n < 8 then (s.lcol (4 * n + g)).level
    else if (s.relay (n - 8)).state = 3 then (s.lcol (4 * (s.relay (n - 8)).port.getD 0 + g)).level else 0
  packReg ((List.range 4).map (fun g => (2 * g, 2, lvl g)) ++
    [(8, 2, p.source), (10, 4, col LightCol.comparator), (14, 4, col LightCol.floor),
     (18, 1, b01 ((List.range 4).all (fun g => (s.lcol (4 * n + g)).p0.isSome))), (19, 1, b01 p.traceRefl), (20, 1, b01 (decide (n < 8) && (fieldsOfPort n).any (fun f => (s.field f).lightFenced)))])

/-- LGT_POWER_n_γ, key 4·n + γ (R86). -/
def lgtPower (s : State) (k : Nat) : Nat := packReg [(0, 16, image 16 (s.lcol k).power), (16, 16, image 16 ((s.lcol k).p0.getD 0))]

/-- LGT_COMP_n_γ, key 4·n + γ (R86). -/
def lgtComp (s : State) (k : Nat) : Nat := packReg [(0, 12, image 12 (s.lcol k).comp), (12, 12, image 12 (s.lcol k).prelock)]

/-- Word at offset `o` of the light block (R86). -/
def lightRead (s : State) (o : Nat) : Nat :=
  if o = 0 then lgtRelay s
  else if 0x10 ≤ o ∧ o < 0x38 then lgtStatus s ((o - 0x10) / 4)
  else if 0x40 ≤ o ∧ o < 0xE0 then lgtPower s ((o - 0x40) / 4)
  else if 0x100 ≤ o ∧ o < 0x180 then lgtComp s ((o - 0x100) / 4) else 0

/-- SEQ_STREAM_x, 64 bits (R265). -/
def seqStream (s : State) (x : Nat) : Nat :=
  let t := s.stream x
  packReg [(0, 2, t.prio), (2, 1, b01 (s.stw.ready && !resetting s (partOfStream s x))), (3, 1, b01 (!t.aborting.isEmpty)),
           (4, 6, (streamOps s x).length), (10, 9, t.subs.length), (19, 2, partOfStream s x), (32, 32, t.retired.toNat)]

/-- SEQ_ROWMAPS (R265). -/
def seqRowMaps (s : State) : Nat := packReg ((List.range 4).map (fun p => (8 * p, 7, (s.rowMaps.filter (fun m => m.part == p)).length)))

/-- Word at offset `o` of the sequencer block (R265). -/
def seqRead (s : State) (o : Nat) : Nat :=
  if o < 0x200 then word64 (seqStream s (o / 8)) (o / 4 % 2) else if o = 0x200 then seqRowMaps s else 0

/-! ### Memory (R311) -/

/-- Word +0x0 of MEM_HBM_n or MEM_DDR_n, by unit. -/
def memUnitWord (s : State) (u : Nat) : Nat :=
  let m := s.unit u
  if u < 12 then packReg [(0, 2, m.state), (2, 2, u * s.net.parts / 12), (4, 1, b01 m.queued)]
  else packReg [(0, 2, m.state), (2, 1, b01 m.present), (3, 1, b01 m.queued), (4, 2, m.speed), (6, 9, m.capacity)]

/-- The four words of a unit. -/
def memUnitRead (s : State) (u i : Nat) : Nat :=
  match i with
  | 0 => memUnitWord s u
  | 1 => (s.unit u).ce.toNat
  | 2 => (s.unit u).ue.toNat
  | _ => (s.unit u).scrubPos.toNat

/-- Word at offset `o` of the memory block (R311). -/
def memRegRead (s : State) (o : Nat) : Nat :=
  let t := s.memTop
  if o < 0xC0 then memUnitRead s (o / 16) (o / 4 % 4)
  else if 0x100 ≤ o ∧ o < 0x1C0 then memUnitRead s (16 + (o - 0x100) / 16) (o / 4 % 4)
  else match o with
  | 0x200 => packReg [(0, 8, t.scrubHours), (8, 1, b01 t.scrubEn), (16, 16, t.ceRateLimit)]
  | 0x204 => packReg [(0, 3, s.net.parts), (3, 4, t.ddrC.length), (7, 9, t.ddrD)]
  | 0x208 => packReg [(0, 5, t.retrain.getD 31), (5, 5, t.queue.length), (16, 16, if t.retrain.isSome then sinceMs s t.retrainAt 0xFFFF else 0)]
  | 0x210 => word64 t.lastUe 0
  | 0x214 => bits t.lastUe 32 16
  | _ => 0

/-! ### Monitors and loops (R137, R162) -/

/-- Word at offset `o` of converter `k`'s block (R137). -/
def monRead (s : State) (k o : Nat) : Nat :=
  let m := s.mon k
  match o with
  | 0x00 => packReg [(0, 1, b01 m.enable), (1, 1, b01 m.fine), (2, 1, b01 m.lowpwr), (3, 1, b01 m.ringEn), (4, 5, m.seqLen), (9, 2, m.injLen)]
  | 0x04 => packReg [(0, 1, b01 m.aEnable), (1, 1, b01 m.injRun), (2, 1, b01 m.injPend), (3, 1, b01 m.commitPend), (4, 1, b01 m.failed), (16, 16, m.skip)]
  | 0x08 => packReg [(0, 20, m.inj.toNat), (20, 3, m.trig.toNat)]
  | _ =>
    if 0x40 ≤ o ∧ o < 0x60 then packReg ((List.range 4).map (fun j => (8 * j, 6, (tget 0 m.seq ((o - 0x40) + j)).toNat)))
    else if 0x80 ≤ o then
      let l := s.monLast (32 * k + (o - 0x80) / 4)
      packReg [(0, 24, l.result.toNat), (24, 1, b01 l.valid), (25, 1, b01 l.ovr), (26, 1, b01 l.inj)]
    else 0

/-- Word at offset `o` of the monitor block (R137). -/
def monBlockRead (s : State) (o : Nat) : Nat :=
  let r := s.ring
  match o with
  | 0x00 => packReg [(0, 1, b01 r.on), (1, 5, r.sizeLog2)]
  | 0x04 => packReg [(6, 18, r.base)]
  | 0x08 => r.wr.toNat
  | 0x0C => r.rd.toNat
  | 0x10 => packReg [(0, 1, b01 r.ovf), (1, 1, b01 r.cfgErr), (16, 16, r.drop)]
  | _ => if 0x100 ≤ o ∧ o < 0x4100 then monRead s ((o - 0x100) / 0x100) (o % 0x100) else 0

/-- INSTANCE of a slot within its lane (R140, R162): of a bias slot, the instance that computes in this beat. -/
def slotInstance (s : State) (n : Nat) : Nat :=
  let k := n % 512
  if k < 64 then k else if k < 128 then k - 64 else if k < 160 then k - 128 else if k < 165 then k - 160 else if k < 166 then 0
  else if k < 295 then biasInst n s.tim.beat else 0

/-- Word `i` of LP_SLOT_n (R162). -/
def slotRead (s : State) (n i : Nat) : Nat :=
  let c := s.loop n
  match i with
  | 0 => packReg [(0, 4, slotKind s n), (4, 12, slotInstance s n), (16, 2, c.spSrc), (18, 1, b01 c.dEn), (19, 1, b01 c.freeze), (20, 1, b01 c.bumpless)]
  | 1 => packReg [(0, 16, c.sp.toNat), (16, 13, c.cascade)]
  | 2 => c.kp.toNat
  | 3 => c.ki.toNat
  | 4 => c.kd.toNat
  | 5 => packReg [(0, 16, c.outMin.toNat), (16, 16, c.outMax.toNat)]
  | 6 => packReg [(0, 16, c.dAlpha.toNat), (16, 16, c.slew.toNat)]
  | _ => packReg [(0, 16, image 16 c.out), (16, 1, b01 c.sat), (17, 1, b01 c.miss), (18, 1, b01 c.inputFail), (19, 1, b01 c.held), (20, 1, b01 c.frozen),
                  (21, 1, b01 c.lock)]

/-- Engine registers of the loop block (R162). -/
def engineRead (s : State) (o : Nat) : Nat :=
  let e := s.eng
  match o with
  | 0x00 => packReg [(0, 1, b01 e.run), (1, 1, b01 (s.loops.any (fun x => x.2.frozen))), (2, 1, b01 e.testActive), (3, 1, b01 e.capDone)]
  | 0x04 => packReg [(0, 2, e.src), (2, 6, e.offset), (8, 1, b01 e.bad), (9, 1, b01 e.pwmLost),
                     (16, 16, image 16 e.coolT)]
  | 0x08 => e.coolSet.toNat
  | 0x10 => e.nslot % 4
  | 0x14 => packReg [(0, 13, e.sel0), (16, 13, e.sel1)]
  | 0x18 => packReg [(0, 13, e.sel2), (16, 13, e.sel3)]
  | 0x1C => e.count
  | 0x20 => packReg [(0, 2, e.signal), (2, 1, b01 e.point), (5, 8, e.prbsHold)]
  | 0x24 => packReg [(0, 16, e.ampl.toNat), (16, 16, e.sineN)]
  | _ => 0

/-- Word at offset `o` of the loop block (R162): engine, slots from 0x1_0000, capture buffer from 0x8_0000. -/
def loopRead (s : State) (o : Nat) : Nat :=
  if o < 0x10000 then engineRead s o
  else if o < 0x50000 then slotRead s ((o - 0x10000) / 32) (o / 4 % 8)
  else if 0x80000 ≤ o then word64 (tget 0 s.eng.cap ((o - 0x80000) / 8)).toNat (o / 4 % 2) else 0

/-! ### Network and links (R346, R379) -/

/-- NET_LINK_n (R346). -/
def netLinkReg (s : State) (n : Nat) : Nat := packReg [(0, 2, (s.netLink n).state), (16, 16, (s.netLink n).replays)]

/-- NET_PART (R346). -/
def netPartReg (s : State) : Nat :=
  packReg ([(0, 3, s.net.parts), (7, 2, s.net.fallbacks)] ++ (List.range 4).map (fun p => (3 + p, 1, b01 (resetting s p))))

/-- Word at offset `o` of the network block (R346). -/
def netRead (s : State) (o : Nat) : Nat := if o < 0x1C then netLinkReg s (o / 4) else if o = 0x20 then netPartReg s else 0

/-- Word `i` of LNK_PORT_p (R379). -/
def lnkPortRead (s : State) (p i : Nat) : Nat :=
  let l := s.port p
  match i with
  | 0 => packReg [(0, 2, l.state), (2, 2, l.width), (4, 1, b01 l.light), (5, 1, b01 l.lightNext), (6, 4, l.quadOk.toNat), (10, 3, p % 6),
                  (13, 3, l.reason), (16, 14, l.partner)]
  | 1 => l.replays.toNat
  | 2 => l.fecCorr.toNat
  | 3 => l.fecUncorr.toNat
  | 4 => packReg [(0, 5, l.partnerPort)]
  | _ => 0

/-- LNK_SYS (R379). -/
def lnkSys (s : State) : Nat :=
  let l := s.link
  packReg [(0, 14, l.coord), (14, 4, l.lenX), (18, 5, l.lenY), (23, 5, l.lenZ), (28, 3, l.phase), (31, 1, b01 l.linkTime)]

/-- LNK_ROOT (R379). -/
def lnkRoot (s : State) : Nat := packReg [(0, 14, s.link.root), (16, 14, s.link.root2)]

/-- Word at offset `o` of the link block (R379). -/
def lnkRead (s : State) (o : Nat) : Nat :=
  if o = 0 then lnkSys s else if o = 4 then lnkRoot s
  else if 0x100 ≤ o ∧ o < 0x400 then lnkPortRead s ((o - 0x100) / 0x20) (o / 4 % 8) else 0

/-! ### Power, temperature and faults (R453, R469) -/

/-- PWR_STATE (R453). -/
def pwrStateReg (s : State) : Nat := packReg [(0, 2, s.pwr.state), (16, 16, s.pwr.pkgPower)]

/-- PWR_DOMAIN_w (R453). -/
def pwrDomainReg (s : State) (w : Nat) : Nat := listMask 32 ((List.range 32).filter (fun i => s.pwr.on.contains (32 * w + i)))

/-- THM_THROTTLE (R453). -/
def thmThrottle (s : State) : Nat :=
  packReg ([(0, 1, b01 s.thm.episode), (1, 1, b01 s.thm.acked), (2, 1, b01 (s.dies.any (fun x => x.2.hold.isSome)))] ++
    (List.range 4).map (fun t => (4 * t + 8, 3, s.thm.steps.getD t 0)))

/-- THM_DIE_d (R453). -/
def thmDie (s : State) (d : Nat) : Nat :=
  let x := s.die d
  packReg [(0, 16, image 16 x.temp), (16, 2, x.level), (18, 4, min 15 (failedCount s d)), (22, 5, x.hottest), (27, 1, b01 x.subst), (28, 1, b01 x.enforced)]

/-- Word `i` of THM_EXT_n (R453). -/
def thmExt (s : State) (n i : Nat) : Nat :=
  let e := s.extT n
  let x := s.sensor (sensorKey 22 n)
  match i with
  | 0 => packReg [(0, 2, e.type), (2, 8, e.warn.toNat)]
  | 1 => packReg [(0, 16, image 16 x.reading), (16, 1, b01 x.failed)]
  | 2 => packReg [(0, 16, e.beta.toNat), (16, 16, e.r25.toNat)]
  | _ => packReg [(0, 16, e.eta.toNat)]

/-- Word at offset `o` of the power and temperature block (R453). -/
def pwrRead (s : State) (o : Nat) : Nat :=
  if o = 0 then pwrStateReg s
  else if 0x10 ≤ o ∧ o < 0x2C then pwrDomainReg s ((o - 0x10) / 4)
  else if o = 0x100 then s.thm.grace
  else if o = 0x104 then thmThrottle s
  else if 0x200 ≤ o ∧ o < 0x258 then thmDie s ((o - 0x200) / 4)
  else if 0x300 ≤ o ∧ o < 0x380 then thmExt s ((o - 0x300) / 16) (o / 4 % 4) else 0

/-- FLT_STATUS (R469). -/
def fltStatus (s : State) : Nat :=
  packReg [(0, 7, s.flt.queue.length), (7, 1, b01 s.flt.active.isSome), (8, 1, b01 s.flt.deviceError), (9, 3, s.flt.deCause)]

/-- FLT_ACTIVE, 64 bits (R469). -/
def fltActive (s : State) : Nat :=
  match s.flt.active with
  | none => 0
  | some e => packReg [(0, 16, e.code), (16, 8, e.kind), (24, 8, e.sub), (32, 16, e.index), (48, 16, sinceMs s s.flt.activeAt 0xFFFF)]

/-- Word at offset `o` of the fault block (R469). -/
def fltRead (s : State) (o : Nat) : Nat :=
  match o with
  | 0x00 => fltStatus s
  | 0x08 => word64 (fltActive s) 0
  | 0x0C => word64 (fltActive s) 1
  | 0x10 => s.flt.faults.toNat
  | 0x14 => s.flt.fences.toNat
  | _ => 0

/-! ### The MMIO region (R289) -/

/-- The 32-bit word at MMIO offset `o`. -/
def mmioRead (s : State) (o : Nat) : Nat :=
  if o < 0x20000 then fieldRead s (o / 0x1000) (o % 0x1000)
  else if o < 0x21000 then lightRead s (o - 0x20000)
  else if o < 0x22000 then seqRead s (o - 0x21000)
  else if o < 0x24000 then memRegRead s (o - 0x22000)
  else if o < 0x30000 then 0
  else if o < 0x34400 then monBlockRead s (o - 0x30000)
  else if o < 0x40000 then 0
  else if o < 0x41000 then netRead s (o - 0x40000)
  else if o < 0x50000 then 0
  else if o < 0x51000 then lnkRead s (o - 0x50000)
  else if o < 0x60000 then 0
  else if o < 0x61000 then pwrRead s (o - 0x60000)
  else if o < 0x70000 then 0
  else if o < 0x71000 then fltRead s (o - 0x70000)
  else if o < 0x100000 then 0
  else if o < 0x200000 then loopRead s (o - 0x100000) else 0

/-- An MMIO offset that lies in one of the blocks of R289. -/
def mmioMapped (o : Nat) : Bool :=
  decide (o < 0x24000) || decide (0x30000 ≤ o ∧ o < 0x34400) || decide (0x40000 ≤ o ∧ o < 0x41000) || decide (0x50000 ≤ o ∧ o < 0x51000) ||
  decide (0x60000 ≤ o ∧ o < 0x61000) || decide (0x70000 ≤ o ∧ o < 0x71000) || decide (0x100000 ≤ o ∧ o < 0x200000)

/-! ### BAR0, BAR2 and the management page (R383, R430, R490) -/

/-- Word at offset `o` of the bring-up window (R430); until BOOT_OK only BU_ID and BU_STATUS read other than zero (R408). -/
def buRead (s : State) (o : Nat) : Nat :=
  let b := s.bu
  if b.bootOk = false ∧ 4 < o then 0
  else match o with
  | 0x00 => packReg [(0, 4, s.sec.part), (4, 8, s.sec.stepping), (12, 4, 1), (16, 6, b.licences.toNat), (22, 1, b01 b.licDone)]
  | 0x04 => packReg [(0, 4, b.step), (4, 2, b.state), (6, 1, b01 b.bootOk), (7, 1, b01 b.rwlLocked), (8, 1, b01 b.degraded), (16, 16, b.elapsed)]
  | 0x08 => packReg [(0, 10, b.en.toNat), (16, 10, b.on.toNat)]
  | 0x0C => packReg [(1, 1, b01 (b.pllLock == BitVec.allOnes 5)), (2, 1, b01 s.pins.refclk), (8, 5, b.pllLock.toNat)]
  | 0x10 => packReg [(0, 12, b.hbmSel.toNat), (12, 12, b.ddrSel.toNat)]
  | 0x14 => packReg [(0, 12, b.hbmOk.toNat), (12, 12, b.ddrOk.toNat)]
  | 0x18 => word64 b.imgAddr.toNat 0
  | 0x1C => word64 b.imgAddr.toNat 1
  | 0x20 => b.imgLen.toNat
  | 0x28 => packReg [(0, 1, b01 b.ecdsaOk), (1, 1, b01 b.lmsOk), (2, 1, b01 b.chainOk), (3, 1, b01 b.svnOk), (4, 1, b01 b.authentic), (8, 3, b.attempts),
                     (11, 1, b01 b.lockout), (12, 4, b.reason)]
  | 0x2C => packReg [(1, 1, b01 b.stwRunning), (2, 1, b01 s.stw.ready)]
  | 0x34 => packReg [(0, 2, b.cvPhase), (2, 2, b.cvRound), (4, 12, b.cvFenced), (16, 1, b01 b.cvOver)]
  | 0x38 => packReg [(0, 1, b01 b.fltValid), (1, 4, b.fltStep), (8, 8, b.fltCode), (16, 16, b.fltDetail)]
  | _ => 0

/-- Word at offset `o` of the window of mailbox `m`, once the steward serves mailboxes (R381, R383). -/
def mbRead (s : State) (m o : Nat) : Nat :=
  let b := s.mb m
  if !windowOpen s m then 0
  else match o with
  | 0x00 => packReg [(0, 1, b01 b.enable), (1, 1, b01 b.cplIrq), (2, 1, b01 b.evtIrq), (9, 14, b.mask.toNat)]
  | 0x04 => packReg [(0, 1, b01 s.stw.ready), (1, 1, b01 b.enable), (2, 1, b01 b.draining), (3, 1, b01 b.ringErr), (4, 1, b01 b.baseErr),
                     (5, 1, b01 s.flt.deviceError), (6, 2, partOfMb s m), (8, 1, b01 (resetting s (partOfMb s m))), (16, 16, inflight s m)]
  | 0x08 => word64 b.cmdBase.toNat 0
  | 0x0C => word64 b.cmdBase.toNat 1
  | 0x10 => word64 b.cplBase.toNat 0
  | 0x14 => word64 b.cplBase.toNat 1
  | 0x18 => word64 b.evtBase.toNat 0
  | 0x1C => word64 b.evtBase.toNat 1
  | 0x20 => b.cmdHead.toNat
  | 0x24 => b.cmdTail.toNat
  | 0x28 => b.cplHead.toNat
  | 0x2C => b.cplTail.toNat
  | 0x34 => b.evtTail.toNat
  | 0x38 => b.evtHead.toNat
  | 0x3C => packReg [(0, 16, b.lost), (16, 1, b01 b.ovf)]
  | _ => 0

/-- POWER of MG_STATUS: 2 in bring-up (R490). -/
def mgPower (s : State) : Nat := if s.bu.step != 10 then 2 else if s.pwr.state = 1 then 1 else 0

/-- A management register by command code (R490). -/
def mgRead (s : State) (code : Nat) : Nat :=
  match code with
  | 0x01 => packReg [(0, 1, b01 s.bu.bootOk), (1, 1, b01 s.stw.ready), (2, 1, b01 (!s.pins.throtN)), (3, 1, b01 (!s.pins.faultN)),
                     (4, 1, b01 (!s.stw.ready || s.bu.lockout)), (6, 2, mgPower s), (8, 8, image 8 s.mg.hottest)]
  | 0x02 => s.mg.alert.toNat
  | 0x03 => s.mg.alertEn.toNat
  | _ => 0

end Sys2Proof.Machine
end

