-- ==== Sys2Proof/Machine/Security.lean ====
section
/-! DEFINITION. Security and management commands, SPDM, MCTP and the management page's reset (R471 to R493). -/

namespace Sys2Proof.Machine

open Sys2Proof

/-! ### Self-tests, measurements, SPDM (R477 to R479, R493) -/

/-- The security block is powered. -/
def secOn (s : State) : Bool := s.pwr.on.contains 222

/-- The management interface is powered. -/
def mgOn (s : State) : Bool := s.pwr.on.contains 223

/-- SEC_SELF_TEST (R493): a failure is the security-block cause of device error. -/
def execSecSelfTest (pass : Bool) (s : State) : Host.Outcome State Fault Refusal :=
  .next (if secOn s && !pass then enterDeviceError 6 s else s)

/-- MEASUREMENT_EXTEND (R477): steward firmware extends only M6 and M7. -/
def execMeasurementExtend (reg : Nat) (d : List (BitVec 8)) (s : State) : Host.Outcome State Fault Refusal :=
  .next (if s.bu.stwRunning ∧ (reg = 6 ∨ reg = 7) then extendMeas reg d s else s)

/-- Request codes of SPDM 1.2 that the responder supports (R479; the codes are PRESUMED, assumption log 23). -/
def spdmSupported : List Nat := [0x81, 0x82, 0x83, 0x84, 0x85, 0x86, 0xE0, 0xE1, 0xE3]

/-- ERROR with UnsupportedRequest (R479). -/
def spdmError (code : Nat) : List Byte := leBytes 1 0x12 ++ leBytes 1 0x7F ++ leBytes 1 0x07 ++ leBytes 1 code

/-- The connection state of a transport after a request: 0 none, 1 version, 2 capabilities, 3 algorithms. -/
def spdmNext (old code : Nat) : Nat := if code = 0x84 then 1 else if code = 0xE1 then 2 else if code = 0xE3 then 3 else old

/-- SPDM_REQUEST (R479): transport 0 MCTP, 1 CXL DOE; each keeps its own connection. -/
def execSpdmRequest (transport code : Nat) (body : List (BitVec 8)) (s : State) : Host.Outcome State Fault Refusal :=
  .next (
    if !secOn s ∨ 2 ≤ transport ∨ (transport = 0 ∧ !mgOn s) then s
    else if spdmSupported.contains code then
      let conn := tget 0 s.sec.spdm transport
      { s with
        sec := { s.sec with spdm := tset 0 s.sec.spdm transport (spdmNext conn code) }
        stw := { s.stw with spdmOut := Config.spdmReply (transport + 2 * conn) code body s.sec.meas } }
    else { s with stw := { s.stw with spdmOut := spdmError code } })

/-! ### The management interface (R486 to R490) -/

/-- Commands that the management interface carries (R487). -/
def carried : List Nat :=
  [0x0101, 0x0102, 0x0112, 0x0113, 0x0201, 0x0202, 0x0901, 0x0904, 0x0801, 0x0B01, 0x0B02, 0x0A01, 0x0A02, 0x0A03, 0x0A04, 0x0A05, 0x0A06]

/-- Commands that the security block serves in recovery mode (R488). -/
def recoveryServed : List Nat := [0x0101, 0x0102, 0x0A01, 0x0A02, 0x0A03, 0x0A04, 0x0A05, 0x0A06]

/-- Recovery mode (R488). -/
def recoveryMode (s : State) : Bool := !s.stw.ready || s.bu.lockout

/-- The checks of a command over management: device error, carried opcodes, header fields, recovery mode (R390, R487, R488). -/
def managementReply (s : State) (e : List Byte) : Option Reply :=
  let op := bytesAt e 0 2
  orElse [ refuse (s.flt.deviceError && op != 0x0102) stDeviceError, refuse (!carried.contains op) stBadOpcode,
           badField (decide (1 < bytesAt e 4 1)) 4, badField (bytesAt e 8 8 != 0) 8,
           outOfRange (recoveryMode s && !recoveryServed.contains op && decide ((deadlines op).2 < bytesAt e 6 2)) 6,
           refuse (recoveryMode s && !recoveryServed.contains op) stBusy ]

/-- MCTP_VENDOR_REQUEST (R487, R488): the carried command enters the list of those in progress, for source 64. -/
def execMctpVendorRequest (entry ext : List (BitVec 8)) (s : State) : Host.Outcome State Fault Refusal :=
  .next (if mgOn s then takeCommand 64 0 entry ext (managementReply s entry) s else s)

/-- MG_RESET_WRITE (R490): 0x5A, then 0xA5 within 1 ms. -/
def execMgResetWrite (v : BitVec 8) (soon : Bool) (s : State) : Host.Outcome State Fault Refusal :=
  .next (
    if !mgOn s then s
    else if v = 0xA5 ∧ soon ∧ s.mg.resetArm then devReset s
    else { s with mg := { s.mg with resetArm := v == 0x5A } })

/-- SET_ENDPOINT_ID (R487). -/
def execSetEndpointId (eid : Nat) (s : State) : Host.Outcome State Fault Refusal :=
  .next (if mgOn s ∧ eid < 256 then { s with pins := { s.pins with mgEid := some eid } } else s)

/-- DYNAMIC_ADDRESS_ASSIGN (R486). -/
def execDynamicAddressAssign (a : Nat) (s : State) : Host.Outcome State Fault Refusal :=
  .next (if mgOn s ∧ a < 128 then { s with pins := { s.pins with mgAddr := some a } } else s)

/-! ### Certificates and measurements (R475, R478) -/

/-- SEC_CERT_READ (R403, R483): the identity region, as much as the buffer holds. -/
def execSecCertRead (k : Nat) (s : State) : Host.Outcome State Fault Refusal :=
  .next (runCmd k 0x0A01 (fun c s => checked [ c.rsvd 16 64 ] (fun s => (s, { output := s.sec.identity })) s) s)

/-- The covered bytes of a measurement report (R478). -/
def reportBody (s : State) (nonce : List Byte) : List Byte :=
  leBytes 4 0x41454D55 ++ leBytes 2 1 ++ leBytes 2 0 ++ leBytes 8 s.sec.serial.toNat ++ leBytes 8 s.tim.beat ++ fitBytes 32 nonce ++
  leBytes 8 0 ++ s.sec.meas.flatten

/-- Length of a measurement report: header, registers, signature block and boot-key certificate. -/
def reportLen : Nat := 64 + 384 + 3072 + 2724

/-- SEC_MEASURE_READ (R475, R476, R478): NONCE at bytes 16 to 47. -/
def execSecMeasureRead (k : Nat) (s : State) : Host.Outcome State Fault Refusal :=
  .next (runCmd k 0x0A02 (fun c s =>
    checked [ c.extNeed reportLen, c.rsvd 48 64 ]
      (fun s =>
        let s := renewKey s
        let body := reportBody s ((c.entry.drop 16).take 32)
        match deviceSign s body with
        | none => (s, .no stNoResource)
        | some g => ({ s with sec := { s.sec with bootSigs := s.sec.bootSigs + 1 } }, { output := body ++ g })) s) s)

/-! ### Licences (R480 to R482) -/

/-- SEC_LICENCE_INSTALL (R482). -/
def execSecLicenceInstall (k : Nat) (s : State) : Host.Outcome State Fault Refusal :=
  .next (runCmd k 0x0A03 (fun c s =>
    let t := c.ext.take 3136
    let bad := tokenBad t
    let slots := validSlots s
    checked [ c.extNeed 3136, c.rsvd 16 64, badField bad.isSome (64 + bad.getD 0), refuse (!tokenValid s t) stAuthFailed,
              refuse (slots.any (fun i => bytesAt (tget [] s.sec.tokens i) 16 8 == bytesAt t 16 8)) stAlreadyDone,
              refuse (slots.length == 16) stNoResource ]
      (fun s =>
        let i := ((List.range 16).find? (fun i => !slots.contains i)).getD 0
        (raiseAlert 4 (post 0x0A02 [] { s with sec := { s.sec with tokens := tset [] s.sec.tokens i t } }), {})) s) s)

/-- A record of `sec.licence.list` (R482): slot, valid bit, FEATURES, TOKEN_ID at its multiple of 8 (R405). -/
def licenceRecord (s : State) (i : Nat) : List Byte :=
  let t := tget [] s.sec.tokens i
  leBytes 1 i ++ leBytes 1 (b01 (tokenValid s t)) ++ leBytes 1 (bytesAt t 24 1) ++ leBytes 5 0 ++ leBytes 8 (bytesAt t 16 8)

/-- SEC_LICENCE_LIST (R482): stored tokens, then the INSTALLED and GRANTED masks. -/
def execSecLicenceList (k : Nat) (s : State) : Host.Outcome State Fault Refusal :=
  .next (runCmd k 0x0A04 (fun c s =>
    let l := (List.range 16).filter (fun i => tget [] s.sec.tokens i != [])
    checked [ c.extNeed (16 * (l.length + 1)), c.rsvd 16 64 ]
      (fun s => (s, { output := l.flatMap (licenceRecord s) ++ leBytes 1 (installedMask s) ++ leBytes 1 s.bu.licences.toNat ++ leBytes 14 0 })) s) s)

/-! ### Image update (R484, R485) -/

/-- The slot that the select record does not name. -/
def idleSlot (s : State) : Nat := 1 - s.sec.select

/-- The staging context closes. -/
def closeStage (s : State) : State := { s with sec := { s.sec with stOpen := none, stData := [], stTotal := 0 } }

/-- The inactive slot holds `l`. -/
def putSlot (l : List Byte) (s : State) : State := { s with sec := { s.sec with flashImg := tset [] s.sec.flashImg (idleSlot s) l } }

/-- The last piece: the checks of R414 and R474 on the staged image; a failure discards it (R484). -/
def endStage (s : State) : State × Reply :=
  let l := s.sec.stData
  let bad := imageBad l (some s.sec.stTotal)
  let ok := (authOf s 1 l (bytesAt l 40 4)).reason == 0
  let s := closeStage s
  if bad.isSome then (putSlot [] s, .no stOutOfRange)
  else if !ok then (raiseAlert 5 (putSlot [] s), .no stAuthFailed)
  else ({ s with sec := { s.sec with staged := true } }, {})

/-- SEC_IMAGE_STAGE (R484): OFFSET at bytes 16 to 19, TOTAL at 20 to 23. -/
def execSecImageStage (k : Nat) (s : State) : Host.Outcome State Fault Refusal :=
  .next (runCmd k 0x0A05 (fun c s =>
    let off := c.at 16 4
    let total := c.at 20 4
    let n := c.ext.length
    let mine := s.sec.stOpen == some c.src
    checked [ c.extNeed 64, badField (off % 64 != 0) 16,
              outOfRange (off != 0 && (s.sec.stOpen.isNone || (mine && off != s.sec.stData.length))) 16,
              outOfRange (decide (total = 0 ∨ 8388608 < total ∨ total < off + n) || total % 4096 != 0 || (off != 0 && mine && total != s.sec.stTotal)) 20,
              c.rsvd 24 64, refuse (s.sec.stOpen.isSome && !mine) stBusy ]
      (fun s =>
        let l := (if off = 0 then [] else s.sec.stData) ++ c.ext
        let s := putSlot l { s with sec := { s.sec with stOpen := some c.src, stData := l, stTotal := total, stAt := s.tim.beat, staged := false } }
        if l.length = total then endStage s else (s, {})) s) s)

/-- IMAGE_STAGE_IDLE_TIMEOUT (R484): idle for 60 s. Before step 2 no beats count. -/
def execImageStageIdleTimeout (s : State) : Host.Outcome State Fault Refusal :=
  .next (if s.sec.stOpen.isSome ∧ (s.tim.counting = false ∨ s.sec.stAt + 60000000 ≤ s.tim.beat) then closeStage s else s)

/-- REVOKED after REVOKE_BELOW of a block: every slot below its ECDSA and LMS slots (R485). -/
def revokeBelow (old : BitVec 8) (b : List Byte) : BitVec 8 :=
  let x := slotsOf b
  if bit (bytesAt b 7 1) 4 then old ||| BitVec.ofNat 8 (2 ^ x.1 - 1 + 16 * (2 ^ x.2 - 1)) else old

/-- SEC_IMAGE_COMMIT (R485): RAISE_SVN in bit 0 of byte 16. -/
def execSecImageCommit (k : Nat) (s : State) : Host.Outcome State Fault Refusal :=
  .next (runCmd k 0x0A06 (fun c s =>
    checked [ badField (decide (1 < c.at 16 1)) 16, c.rsvd 17 64, outOfRange (!s.sec.staged),
              refuse (s.bu.running == 4 && s.bu.imgAddr == 0) stBusy ]
      (fun s =>
        let l := tget [] s.sec.flashImg (idleSlot s)
        let s := { s with sec := { s.sec with
          select := idleSlot s, selectSeq := s.sec.selectSeq + 1, staged := false
          minSvn := if bit (c.at 16 1) 0 then max s.sec.minSvn (min (bytesAt l 40 4) 64) else s.sec.minSvn
          revoked := revokeBelow s.sec.revoked (blockOf l) } }
        (raiseAlert 5 (post 0x0A03 [] s), {})) s) s)

end Sys2Proof.Machine
end

