-- ==== Sys2Proof/Machine/RegWrite.lean ====
section
/-! DEFINITION. Register writes: the writable fields of each register and what a write does to them (R12, R13, R62 to R490), and
REGISTER_WRITE. -/

namespace Sys2Proof.Machine

open Sys2Proof

/-! ### Field blocks -/

/-- A write to word `o` of field `f`'s block: EDG_ADC_SEL and the W1C bit TRAPPED (R119, R285). -/
def fieldWrite (f o v msk : Nat) (s : State) : State :=
  if o = 0x110 then
    s.modField f (fun x =>
      let old := x.adcSel.toNat
      { x with adcSel := BitVec.ofNat 14 (fieldW v msk 0 8 (bits old 0 8) + 256 * fieldW v msk 8 2 (bits old 8 2) + 1024 * fieldW v msk 10 4 (bits old 10 4)) })
  else if 0x400 ≤ o ∧ o < 0x500 ∧ bit v 2 && bit msk 2 then s.modCoreOf (64 * f + (o - 0x400) / 4) (fun c => { c with trapped := false })
  else s

/-- The W1C bits COMPARATOR of LGT_PORT_STATUS_n (R86). -/
def lightWrite (o v msk : Nat) (s : State) : State :=
  if 0x10 ≤ o ∧ o < 0x38 then
    (List.range 4).foldl (fun (s : State) g =>
      if bit v (10 + g) && bit msk (10 + g) then s.modLcol (4 * ((o - 0x10) / 4) + g) (fun l => { l with comparator := false }) else s) s
  else s

/-- MEM_CTRL (R311): values outside their range leave their field unchanged. -/
def memRegWrite (o v msk : Nat) (s : State) : State :=
  if o = 0x200 then
    let t := s.memTop
    let h := fieldW v msk 0 8 t.scrubHours
    let n := fieldW v msk 16 16 t.ceRateLimit
    { s with memTop := { t with
        scrubHours := if 1 ≤ h ∧ h ≤ 168 then h else t.scrubHours
        scrubEn := bitW v msk 8 t.scrubEn
        ceRateLimit := if n = 0 then t.ceRateLimit else n } }
  else s

/-! ### Monitors -/

/-- MON_RING_BASE, MON_RING_RD and MON_RING_STAT (R137). -/
def ringWrite (o v msk : Nat) (s : State) : State :=
  let r := s.ring
  match o with
  | 0x00 => writeRingCtrl v msk s
  | 0x04 => if r.on then s else { s with ring := { r with base := fieldW v msk 6 18 r.base } }
  | 0x0C => { s with ring := { r with rd := BitVec.ofNat 32 (fieldW v msk 0 32 r.rd.toNat) } }
  | 0x10 => { s with ring := { r with ovf := r.ovf && !(bit v 0 && bit msk 0), cfgErr := r.cfgErr && !(bit v 1 && bit msk 1) } }
  | _ => s

/-- Word `o` of converter `k` (R137). -/
def monWrite (k o v msk : Nat) (s : State) : State :=
  if o = 0 then writeMonCtrl k v msk s else if o = 8 then writeMonInj k v msk s
  else if 0x40 ≤ o ∧ o < 0x60 then writeMonSeq k ((o - 0x40) / 4) v msk s else s

/-- A write to the monitor block (R137). -/
def monBlockWrite (o v msk : Nat) (s : State) : State :=
  if o < 0x100 then ringWrite o v msk s else if o < 0x4100 then monWrite ((o - 0x100) / 0x100) (o % 0x100) v msk s else s

/-! ### Loops (R149, R162) -/

/-- Word `i` of LP_SLOT_n. -/
def slotWrite (n i v msk : Nat) (s : State) : State :=
  match i with
  | 0 => writeSlotWord0 n (BitVec.ofNat 32 v) (BitVec.ofNat 32 msk) s
  | 1 => s.modLoop n (fun c =>
      let q := fieldW v msk 16 13 c.cascade
      { c with sp := BitVec.ofNat 16 (fieldW v msk 0 16 c.sp.toNat), cascade := if slotKind s q = 0 then c.cascade else q })
  | 2 => s.modLoop n (fun c => { c with kp := BitVec.ofNat 20 (fieldW v msk 0 20 c.kp.toNat) })
  | 3 => s.modLoop n (fun c => { c with ki := BitVec.ofNat 20 (fieldW v msk 0 20 c.ki.toNat) })
  | 4 => s.modLoop n (fun c => { c with kd := BitVec.ofNat 20 (fieldW v msk 0 20 c.kd.toNat) })
  | 5 => s.modLoop n (fun c => { c with outMin := BitVec.ofNat 16 (fieldW v msk 0 16 c.outMin.toNat), outMax := BitVec.ofNat 16 (fieldW v msk 16 16 c.outMax.toNat) })
  | 6 => s.modLoop n (fun c => { c with dAlpha := if fieldW v msk 0 16 c.dAlpha.toNat < 32768 then BitVec.ofNat 16 (fieldW v msk 0 16 c.dAlpha.toNat) else c.dAlpha, slew := BitVec.ofNat 16 (fieldW v msk 16 16 c.slew.toNat) })
  | _ => s

/-- Engine registers of the loop block. -/
def engineWrite (o v msk : Nat) (s : State) : State :=
  let e := s.eng
  match o with
  | 0x00 => { s with eng := { e with capDone := e.capDone && !(bit v 3 && bit msk 3) } }
  | 0x04 =>
    let src := fieldW v msk 0 2 e.src
    let off := fieldW v msk 2 6 e.offset
    { s with eng := { e with src := if src = 3 then e.src else src, offset := if 20 ≤ off ∧ off ≤ 50 then off else e.offset } }
  | 0x08 => { s with eng := { e with coolSet := BitVec.ofNat 16 (fieldW v msk 0 16 e.coolSet.toNat) } }
  | 0x10 => { s with eng := { e with nslot := fieldW v msk 0 2 e.nslot } }
  | 0x14 => { s with eng := { e with sel0 := fieldW v msk 0 13 e.sel0, sel1 := fieldW v msk 16 13 e.sel1 } }
  | 0x18 => { s with eng := { e with sel2 := fieldW v msk 0 13 e.sel2, sel3 := fieldW v msk 16 13 e.sel3 } }
  | 0x20 => writeTestCtrl v msk s
  | 0x24 =>
    let n := fieldW v msk 16 16 e.sineN
    { s with eng := { e with ampl := BitVec.ofNat 16 (fieldW v msk 0 16 e.ampl.toNat), sineN := if n < 3 then e.sineN else n } }
  | _ => s

/-- A write to the loop block; the capture buffer is read-only. -/
def loopWrite (o v msk : Nat) (s : State) : State :=
  if o < 0x10000 then engineWrite o v msk s else if o < 0x50000 then slotWrite ((o - 0x10000) / 32) (o / 4 % 8) v msk s else s

/-! ### Power and temperature (R453) -/

/-- THM_EXT_n: TYPE 3 and an ETA outside 14,746 to 18,022 leave their field unchanged. -/
def extWrite (n i v msk : Nat) (s : State) : State :=
  match i with
  | 0 => s.modExtT n (fun e =>
      let t := fieldW v msk 0 2 e.type
      { e with type := if t = 3 then e.type else t, warn := BitVec.ofNat 8 (fieldW v msk 2 8 e.warn.toNat) })
  | 2 => s.modExtT n (fun e => { e with beta := BitVec.ofNat 16 (fieldW v msk 0 16 e.beta.toNat), r25 := BitVec.ofNat 16 (fieldW v msk 16 16 e.r25.toNat) })
  | 3 => s.modExtT n (fun e =>
      let t := fieldW v msk 0 16 e.eta.toNat
      { e with eta := if 14746 ≤ t ∧ t ≤ 18022 then BitVec.ofNat 16 t else e.eta })
  | _ => s

/-- A write to the power and temperature block: GRACE, 5 to 500, and the EXT_T registers. -/
def pwrWrite (o v msk : Nat) (s : State) : State :=
  if o = 0x100 then
    let g := fieldW v msk 0 10 s.thm.grace
    if 5 ≤ g ∧ g ≤ 500 then { s with thm := { s.thm with grace := g } } else s
  else if 0x300 ≤ o ∧ o < 0x380 then extWrite ((o - 0x300) / 16) (o / 4 % 4) v msk s else s

/-! ### The MMIO region -/

/-- A write of `v` to the word at MMIO offset `o`, of the fields whose bits in `msk` are all 1, by their access codes (R12, R289). -/
def mmioWrite (o v msk : Nat) (s : State) : State :=
  if o < 0x20000 then fieldWrite (o / 0x1000) (o % 0x1000) v msk s
  else if o < 0x21000 then lightWrite (o - 0x20000) v msk s
  else if o < 0x22000 then s
  else if o < 0x24000 then memRegWrite (o - 0x22000) v msk s
  else if o < 0x30000 then s
  else if o < 0x34400 then monBlockWrite (o - 0x30000) v msk s
  else if o < 0x60000 then s
  else if o < 0x61000 then pwrWrite (o - 0x60000) v msk s
  else if o < 0x100000 then s
  else if o < 0x200000 then loopWrite (o - 0x100000) v msk s
  else s

/-- The MMIO region answers: from PLL lock, while the device is powered (R381, R436). -/
def mmioOpen (s : State) : Bool := decide (2 ≤ s.bu.step) && decide (s.pwr.state < 3)

/-! ### Writable fields, for the masks of register-setting commands (R405) -/

/-- Four fields of a MON_SEQ word. -/
def seqFields : List (Nat × Nat) := ((List.range 4).map (fun j => [(8 * j, 5), (8 * j + 5, 1)])).flatten

/-- RW fields of the word at MMIO offset `o`: lowest bit and width. -/
def rwFields (o : Nat) : List (Nat × Nat) :=
  if o < 0x20000 then (if o % 0x1000 = 0x110 then [(0, 8), (8, 2), (10, 4)] else [])
  else if o = 0x22200 then [(0, 8), (8, 1), (16, 16)]
  else if o = 0x30000 then [(0, 1), (1, 5)]
  else if o = 0x30004 then [(6, 18)]
  else if o = 0x3000C then [(0, 32)]
  else if 0x30100 ≤ o ∧ o < 0x34100 then
    (match o % 0x100 with
     | 0x00 => [(0, 1), (1, 1), (2, 1), (3, 1), (4, 5), (9, 2)]
     | 0x08 => [(0, 5), (5, 5), (10, 5), (15, 5), (20, 1), (21, 1), (22, 1)]
     | r => if 0x40 ≤ r ∧ r < 0x60 then seqFields else [])
  else if o = 0x60100 then [(0, 10)]
  else if 0x60300 ≤ o ∧ o < 0x60380 then
    (match o % 16 with
     | 0 => [(0, 2), (2, 8)]
     | 8 => [(0, 16), (16, 16)]
     | 12 => [(0, 16)]
     | _ => [])
  else if 0x100000 ≤ o ∧ o < 0x110000 then
    (match o - 0x100000 with
     | 0x04 => [(0, 2), (2, 6)]
     | 0x08 => [(0, 16)]
     | 0x10 => [(0, 2)]
     | 0x14 => [(0, 13), (16, 13)]
     | 0x18 => [(0, 13), (16, 13)]
     | 0x20 => [(0, 2), (2, 1), (5, 8)]
     | 0x24 => [(0, 16), (16, 16)]
     | _ => [])
  else if 0x110000 ≤ o ∧ o < 0x150000 then
    (match o % 32 with
     | 0 => [(16, 2), (18, 1), (19, 1), (20, 1)] ++ (if (o - 0x110000) / 32 % 512 < 295 then [] else [(0, 4)])
     | 4 => [(0, 16), (16, 13)]
     | 8 => [(0, 20)]
     | 12 => [(0, 20)]
     | 16 => [(0, 20)]
     | 20 => [(0, 16), (16, 16)]
     | 24 => [(0, 16), (16, 16)]
     | _ => [])
  else []

/-- WO and W1C fields of the word at MMIO offset `o`. -/
def actFields (o : Nat) : List (Nat × Nat) :=
  if o < 0x20000 then (if 0x400 ≤ o % 0x1000 ∧ o % 0x1000 < 0x500 then [(2, 1)] else [])
  else if 0x20010 ≤ o ∧ o < 0x20038 then [(10, 4)]
  else if o = 0x30010 then [(0, 1), (1, 1)]
  else if 0x30100 ≤ o ∧ o < 0x34100 then (if o % 0x100 = 0 then [(11, 1)] else if o % 0x100 = 8 then [(23, 1)] else [])
  else if o = 0x100000 then [(3, 1)]
  else if o = 0x100020 then [(3, 1), (4, 1)]
  else []

/-- A mask covers whole writable fields and nothing else (R405). -/
def maskOk (o msk : Nat) : Bool :=
  let fs := rwFields o ++ actFields o
  fs.all (fun f => bits msk f.1 f.2 == 0 || bits msk f.1 f.2 == 2 ^ f.2 - 1) &&
  (List.range 32).all (fun i => !bit msk i || fs.any (fun f => decide (f.1 ≤ i ∧ i < f.1 + f.2)))

/-- A masked RW field that would not take its value: its description refuses it (R405). -/
def valueRefused (s : State) (o v msk : Nat) : Bool :=
  let s' := mmioWrite o v msk s
  (rwFields o).any (fun f => bits msk f.1 f.2 == 2 ^ f.2 - 1 && bits (mmioRead s' o) f.1 f.2 != bits v f.1 f.2)

/-! ### Mailbox, MSI-X and management registers -/

/-- A base register of a mailbox: half `hi` of it, bits [63:12] (R383). -/
def baseWrite (old : BitVec 64) (hi : Bool) (w : BitVec 32) : BitVec 64 :=
  if hi then BitVec.ofNat 64 (old.toNat % 2 ^ 32 + 2 ^ 32 * w.toNat) else BitVec.ofNat 64 (old.toNat / 2 ^ 32 * 2 ^ 32 + w.toNat / 4096 * 4096)

/-- A write to word `o` of the window of mailbox `m` (R383 to R386). -/
def mbWrite (m o : Nat) (w : BitVec 32) (s : State) : State :=
  let b := s.mb m
  if !windowOpen s m then s
  else match o with
  | 0x00 => mbCtrlWrite m w s
  | 0x04 => s.setMb m { b with ringErr := b.ringErr && !w.getLsbD 3, baseErr := b.baseErr && !w.getLsbD 4 }
  | 0x08 => if b.enable then s else s.setMb m { b with cmdBase := baseWrite b.cmdBase false w }
  | 0x0C => if b.enable then s else s.setMb m { b with cmdBase := baseWrite b.cmdBase true w }
  | 0x10 => if b.enable then s else s.setMb m { b with cplBase := baseWrite b.cplBase false w }
  | 0x14 => if b.enable then s else s.setMb m { b with cplBase := baseWrite b.cplBase true w }
  | 0x18 => if b.enable then s else s.setMb m { b with evtBase := baseWrite b.evtBase false w }
  | 0x1C => if b.enable then s else s.setMb m { b with evtBase := baseWrite b.evtBase true w }
  | 0x24 => mbTailWrite m w s
  | 0x28 => s.setMb m { b with cplHead := w }
  | 0x30 => mbBellWrite m w s
  | 0x38 => s.setMb m { b with evtHead := w }
  | 0x3C => s.setMb m { b with ovf := b.ovf && !w.getLsbD 16 }
  | _ => s

/-- A write to word `i` of the MSI-X table: bit 0 of a vector's last word masks it, and a vector that is pending is sent when unmasked
(R381, R382; PRESUMED, assumption log 12). -/
def msixWrite (i : Nat) (w : BitVec 32) (s : State) : State :=
  let s := { s with stw := { s.stw with msixTab := tset 0 s.stw.msixTab i w } }
  if i % 4 = 3 then
    let v := i / 4
    let s := { s with stw := { s.stw with msixMask := tset false s.stw.msixMask v (!w.getLsbD 0) } }
    if !w.getLsbD 0 && tget false s.stw.msixPend v then msix v { s with stw := { s.stw with msixPend := tset false s.stw.msixPend v false } } else s
  else s

/-- A write to BAR2 (R381). -/
def bar2Write (o : Nat) (w : BitVec 32) (s : State) : State :=
  if o < 0x100000 then mbWrite (o / 0x4000) (o % 0x4000) w s
  else if o < 0x100000 + 16 * 129 then msixWrite ((o - 0x100000) / 4) w s else s

/-- A write of a management register (R490): W1C causes and RW enables. -/
def mgWrite (code : Nat) (w : BitVec 32) (s : State) : State :=
  match code with
  | 0x02 => { s with mg := { s.mg with alert := s.mg.alert &&& ~~~(w.setWidth 7) } }
  | 0x03 => { s with mg := { s.mg with alertEn := w.setWidth 7 } }
  | _ => s

/-- REGISTER_WRITE (R12, R381): BAR0, BAR2, BAR4, or the management register page (bar 1, by command code). -/
def execRegisterWrite (bar off : Nat) (w : BitVec 32) (s : State) : Host.Outcome State Fault Refusal :=
  .next (
    match bar with
    | 0 => if s.bu.bootOk ∧ off % 4 = 0 then buWrite32 off w s else s
    | 1 => if mgOn s then mgWrite off w s else s
    | 2 => if s.pins.rstN ∧ s.pins.pwrok ∧ off % 4 = 0 then bar2Write off w s else s
    | 4 => if mmioOpen s ∧ off % 4 = 0 then mmioWrite off w.toNat 0xFFFFFFFF s else s
    | _ => s)

end Sys2Proof.Machine
end

