-- ==== Sys2Proof/Machine/Status.lean ====
section
/-! DEFINITION. The commands that read status and set registers: `dev.info`, the status commands of every group, `telemetry`, `debug`, `loop` and
`monitor` (R85, R162, R266, R378, R403 to R407, R454, R489, R512, R514). Where the manual gives a read no layout, it holds the named images in
ascending address or index order without gaps (R405, assumption log 15). -/

namespace Sys2Proof.Machine

open Sys2Proof

/-- The bytes of register images. -/
def imageBytes (l : List Nat) : List Byte := (l.map (leBytes 4)).flatten

/-- A read command without a payload: its buffer's need, its reserved bytes, and its output (R390, R405). -/
def statusCmd (k op need : Nat) (out : State → List Byte) (s : State) : State :=
  runCmd k op (fun c s => checked [ c.extNeed need, c.rsvd 16 64 ] (fun s => (s, { output := out s })) s) s

/-! ### dev -/

/-- Bits of the numbers below `n` that `q` selects. -/
def maskOf (n : Nat) (q : Nat → Bool) : Nat := listMask n ((List.range n).filter q)

/-- Healthy cores of field `f` as a mask. -/
def healthyMask (s : State) (f : Nat) : Nat := maskOf 64 (fun c => coreHealthy s (64 * f + c))

/-- The device information record (R406). -/
def infoRecord (s : State) : List Byte :=
  leBytes 8 s.sec.serial.toNat ++ leBytes 2 s.sec.part ++ leBytes 2 s.sec.stepping ++ fitBytes 4 (s.bu.image.drop 32) ++ leBytes 4 0x00010000 ++
  leBytes 1 s.bu.licences.toNat ++ leBytes 1 s.net.parts ++ leBytes 1 (maskOf 4 (fun g => !s.light.disabled.getLsbD g)) ++ [0] ++
  leBytes 4 (maskOf 32 (fun f => !(s.field f).fenced)) ++ leBytes 2 ((List.range 2048).filter (coreHealthy s)).length ++
  leBytes 2 (maskOf 12 (fun u => (s.unit u).state == 1)) ++ leBytes 2 (maskOf 12 (fun u => (s.unit (16 + u)).state == 1)) ++
  leBytes 3 (maskOf 24 (fun p => (s.port p).state == 2)) ++ [0, 0, 0] ++ leBytes 8 s.tim.beat ++ List.replicate 80 0

/-- DEV_INFO (R404, R406). -/
def execDevInfo (k : Nat) (s : State) : Host.Outcome State Fault Refusal := .next (statusCmd k 0x0101 128 infoRecord s)

/-- The record of `dev.unit.status` (R514). -/
def unitRecord (s : State) : List Byte :=
  leBytes 4 (maskOf 32 (fun f => fieldState s f == 1 || fieldState s f == 2)) ++ leBytes 4 (maskOf 32 (fun f => (s.field f).fenced)) ++
  leBytes 1 (maskOf 4 (fun g => !s.light.disabled.getLsbD g)) ++ leBytes 1 s.light.disabled.toNat ++ List.replicate 6 0 ++
  (List.range 32).flatMap (fun f => leBytes 1 (s.field f).bandFenced.toNat) ++ (List.range 32).flatMap (fun f => leBytes 1 (s.field f).bandWithheld.toNat) ++
  (List.range 32).flatMap (fun f => leBytes 8 (healthyMask s f)) ++
  imageBytes ((List.range 12).map (memUnitWord s) ++ (List.range 12).map (fun u => memUnitWord s (16 + u)) ++
    (List.range 24).map (fun p => lnkPortRead s p 0) ++ (List.range 7).map (netLinkReg s))

/-- DEV_UNIT_STATUS (R514). -/
def execDevUnitStatus (k : Nat) (s : State) : Host.Outcome State Fault Refusal := .next (statusCmd k 0x0112 556 unitRecord s)

/-- The 16 bytes of a fault queue entry (R460). -/
def faultBytes (e : FaultE) : List Byte :=
  leBytes 2 e.code ++ leBytes 1 e.kind ++ leBytes 1 e.sub ++ leBytes 2 e.index ++ leBytes 1 (b01 e.rpt + 2 * b01 e.recovering) ++ leBytes 1 e.outcome ++
  leBytes 4 e.beat ++ leBytes 4 e.detail

/-- DEV_FAULT_READ (R514): as many entries as the buffer holds. -/
def execDevFaultRead (k : Nat) (s : State) : Host.Outcome State Fault Refusal :=
  .next (runCmd k 0x0113 (fun c s =>
    let room := 4 * c.extLen - 1
    let q := s.flt.queue.take room
    let l := s.flt.log.take (room - q.length)
    checked [ c.rsvd 16 64 ]
      (fun s => (s, {
        output := leBytes 4 (fltStatus s) ++ leBytes 2 s.flt.queue.length ++ leBytes 2 s.flt.log.length ++ leBytes 8 (fltActive s) ++ (q ++ l).flatMap faultBytes
        result := leBytes 2 q.length ++ leBytes 2 l.length })) s) s)

/-- DEV_MEM_STATUS (R311). -/
def execDevMemStatus (k : Nat) (s : State) : Host.Outcome State Fault Refusal :=
  .next (statusCmd k 0x0120 404 (fun s => imageBytes (
    (List.range 48).map (fun i => memRegRead s (4 * i)) ++ (List.range 48).map (fun i => memRegRead s (0x100 + 4 * i)) ++
    [memRegRead s 0x200, memRegRead s 0x204, memRegRead s 0x208, memRegRead s 0x210, memRegRead s 0x214])) s)

/-- DEV_PARTITION_STATUS (R346). -/
def execDevPartitionStatus (k : Nat) (s : State) : Host.Outcome State Fault Refusal :=
  .next (statusCmd k 0x0132 32 (fun s => imageBytes ((List.range 7).map (netLinkReg s) ++ [netPartReg s])) s)

/-! ### power, light, cal, exec -/

/-- POWER_STATUS (R454). -/
def execPowerStatus (k : Nat) (s : State) : Host.Outcome State Fault Refusal :=
  .next (statusCmd k 0x0201 32 (fun s => imageBytes (pwrStateReg s :: (List.range 7).map (pwrDomainReg s))) s)

/-- LIGHT_STATUS (R85). -/
def execLightStatus (k : Nat) (s : State) : Host.Outcome State Fault Refusal :=
  .next (statusCmd k 0x0301 332 (fun s => imageBytes (
    lgtRelay s :: (List.range 10).map (lgtStatus s) ++ (List.range 40).map (lgtPower s) ++ (List.range 32).map (lgtComp s))) s)

/-- CAL_STATUS (R514). -/
def execCalStatus (k : Nat) (s : State) : Host.Outcome State Fault Refusal :=
  .next (statusCmd k 0x0401 2112 (fun s =>
    fitBytes 64 [BitVec.ofNat 8 (b01 s.cal.refvOk)] ++
    (List.range 32).flatMap (fun f => fitBytes 64 (imageBytes ((List.range 8).map (calAgeReg s f) ++ [calFieldReg s f])))) s)

/-- EXEC_STATUS (R265, R266): every stream and the row maps (log 15). -/
def execExecStatus (k : Nat) (s : State) : Host.Outcome State Fault Refusal :=
  .next (statusCmd k 0x0603 516 (fun s => (List.range 64).flatMap (fun x => leBytes 8 (seqStream s x)) ++ leBytes 4 (seqRowMaps s)) s)

/-! ### link -/

/-- The last readings of port `p`'s light engine (R351): STATUS, TEMP and 16 RX_PWR. -/
def engineBytes (s : State) (p : Nat) : List Byte :=
  let l := s.port p
  leBytes 2 l.engStatus.toNat ++ leBytes 2 l.engTemp.toNat ++ (List.range 16).flatMap (fun i => leBytes 2 (image 16 (l.engRx.getD i 0)))

/-- LINK_STATUS (R351, R378): link registers, engine readings, route-table epoch, number of absent devices and their coordinates as far as the
buffer holds them (log 15). -/
def execLinkStatus (k : Nat) (s : State) : Host.Outcome State Fault Refusal :=
  .next (statusCmd k 0x0801 1358 (fun s =>
    imageBytes (lnkSys s :: lnkRoot s :: (List.range 24).flatMap (fun p => (List.range 5).map (lnkPortRead s p))) ++
    (List.range 24).flatMap (engineBytes s) ++ leBytes 4 s.link.routeEpoch ++ leBytes 2 s.link.absent.length ++ s.link.absent.flatMap (leBytes 2)) s)

/-- LINK_MUSTER_STATUS (R375, R378): phase, parents, reports received by direction, and from byte 64 the bitmap by coordinate index (log 15). -/
def execLinkMusterStatus (k : Nat) (s : State) : Host.Outcome State Fault Refusal :=
  .next (statusCmd k 0x0807 1600 (fun s =>
    fitBytes 64 (leBytes 1 s.link.phase ++ leBytes 1 (s.link.parent.getD 0xFF) ++ leBytes 1 (s.link.parent2.getD 0xFF) ++
      leBytes 1 (listMask 6 s.link.childrenIn)) ++
    (List.range 1536).map (fun i => BitVec.ofNat 8 (maskOf 8 (fun j => s.link.bitmap.contains (8 * i + j))))) s)

/-! ### Register settings (R405) -/

/-- MMIO offset of instance `i` of block `b`, and its size; none for a reserved block or an instance outside it. -/
def blockBase (b i : Nat) : Option (Nat × Nat) :=
  match b with
  | 1 => if i < 32 then some (0x1000 * i, 0x1000) else none
  | 2 => if i = 0 then some (0x20000, 0x1000) else none
  | 3 => if i = 0 then some (0x21000, 0x1000) else none
  | 4 => if i = 0 then some (0x22000, 0x2000) else none
  | 5 => if i = 0 then some (0x30000, 0x100) else if i ≤ 64 then some (0x30000 + 0x100 * i, 0x100) else none
  | 6 => if i = 0 then some (0x100000, 0x10000) else if i ≤ 8192 then some (0x110000 + 32 * (i - 1), 32) else none
  | 7 => if i = 0 then some (0x40000, 0x1000) else none
  | 8 => if i = 0 then some (0x50000, 0x1000) else none
  | 9 => if i = 0 then some (0x60000, 0x1000) else none
  | 10 => if i = 0 then some (0x70000, 0x1000) else none
  | _ => none

/-- A command that sets register fields of block `blk`, of the registers that `q` admits by their offset in the block (R405). -/
def setRegs (k op blk : Nat) (q : Nat → Nat → Bool) (s : State) : State :=
  runCmd k op (fun c s =>
    let i := c.at 18 2
    let off := c.at 20 4
    let b := (blockBase blk i).getD (0, 0)
    let o := b.1 + off
    let v := c.at 24 4
    let msk := c.at 32 4
    checked [ badField (c.at 16 2 != blk) 16, badField (blockBase blk i).isNone 18,
              badField (decide (b.2 ≤ off) || off % 4 != 0 || !q i off) 20,
              outOfRange (maskOk o msk && valueRefused s o v msk) 24, badField (c.at 28 4 != 0) 28,
              badField (!maskOk o msk) 32, badField (c.at 36 4 != 0) 36, c.rsvd 40 64 ]
      (fun s => (mmioWrite o v msk s, {})) s) s

/-- DEV_MEM_SCRUB (R302, R311): MEM_CTRL. -/
def execDevMemScrub (k : Nat) (s : State) : Host.Outcome State Fault Refusal :=
  .next (setRegs k 0x0122 4 (fun _ off => off == 0x200) s)

/-- THERMAL_CONFIG (R454): GRACE and the EXT_T registers. -/
def execThermalConfig (k : Nat) (s : State) : Host.Outcome State Fault Refusal :=
  .next (setRegs k 0x0902 9 (fun _ off => off == 0x100 || decide (0x300 ≤ off ∧ off < 0x380)) s)

/-- MONITOR_CONFIG (R126, R137): ring and converter registers. -/
def execMonitorConfig (k : Nat) (s : State) : Host.Outcome State Fault Refusal := .next (setRegs k 0x0E02 5 (fun _ _ => true) s)

/-- LOOP_CONFIG (R162): engine and slot registers. -/
def execLoopConfig (k : Nat) (s : State) : Host.Outcome State Fault Refusal := .next (setRegs k 0x0D02 6 (fun _ _ => true) s)

/-- LOOP_COOLANT (R149 to R152, R162): LP_COOL and LP_COOL_SET. -/
def execLoopCoolant (k : Nat) (s : State) : Host.Outcome State Fault Refusal :=
  .next (setRegs k 0x0D07 6 (fun i off => i == 0 && (off == 4 || off == 8)) s)

/-! ### thermal and telemetry -/

/-- The record of a sensor in `thermal.status` (R514). -/
def sensorRecord (s : State) (d i : Nat) : List Byte :=
  let x := s.sensor (sensorKey d i)
  leBytes 4 (packReg [(0, 16, image 16 ((sensorValue s d i).getD 0)), (16, 1, b01 x.failed), (17, 1, b01 x.failed), (18, 1, b01 x.lastDiscard)])

/-- THERMAL_STATUS (R454, R514). -/
def execThermalStatus (k : Nat) (s : State) : Host.Outcome State Fault Refusal :=
  .next (statusCmd k 0x0901 912 (fun s =>
    fitBytes 256 (imageBytes (s.thm.grace :: thmThrottle s :: (List.range 22).map (thmDie s) ++
      (List.range 8).flatMap (fun n => (List.range 4).map (thmExt s n)))) ++
    (List.range 23).flatMap (fun d => (List.range (sensorCount d)).flatMap (sensorRecord s d))) s)

/-- The register images of telemetry group `i` (R489). -/
def telemetryGroup (s : State) (i : Nat) : List Nat :=
  match i with
  | 0 => [pwrStateReg s]
  | 1 => (List.range 22).map (thmDie s)
  | 2 => (List.range 10).map (lgtStatus s) ++ (List.range 40).map (lgtPower s)
  | 3 => (List.range 48).map (fun i => memRegRead s (4 * i)) ++ (List.range 48).map (fun i => memRegRead s (0x100 + 4 * i))
  | 4 => (List.range 24).flatMap (fun p => (List.range 5).map (lnkPortRead s p))
  | _ => [fltStatus s]

/-- Bytes of a telemetry group. -/
def telemetrySize (i : Nat) : Nat := match i with | 0 => 4 | 1 => 88 | 2 => 200 | 3 => 384 | 4 => 480 | _ => 4

/-- The groups that `telemetry.config` selected. -/
def telemetryOn (s : State) : List Nat := (List.range 6).filter (fun i => s.stw.telemetry.getLsbD i)

/-- TELEMETRY_READ (R489). -/
def execTelemetryRead (k : Nat) (s : State) : Host.Outcome State Fault Refusal :=
  .next (statusCmd k 0x0B01 ((telemetryOn s).map telemetrySize).sum (fun s => imageBytes ((telemetryOn s).flatMap (telemetryGroup s))) s)

/-- TELEMETRY_CONFIG (R489): the groups, at byte 16. -/
def execTelemetryConfig (k : Nat) (s : State) : Host.Outcome State Fault Refusal :=
  .next (runCmd k 0x0B02 (fun c s =>
    checked [ badField (decide (63 < c.at 16 1)) 16, c.rsvd 17 64 ]
      (fun s => ({ s with stw := { s.stw with telemetry := BitVec.ofNat 8 (c.at 16 1) } }, {})) s) s)

/-! ### debug (R407) -/

/-- A device address range of `debug`: within one region of R286, at a place that memory stands at. -/
def debugRange (s : State) (a n : Nat) : Bool := reachRange s .steward false a n

/-- A range that `debug` refuses as unmapped or as leaving its space (R407). -/
def debugOut (s : State) (sp a n : Nat) : Bool :=
  match sp with
  | 0 => !debugRange s a n
  | 1 => !((List.range (n / 4)).all (fun i => mmioMapped (a + 4 * i)))
  | _ => decide (0x1000000 < a + n)

/-- Some byte of a range of device addresses lies in a partition that is being reset (R343). A range of LEN bytes meets at most two windows: those of its first
and its last byte. -/
def debugPart (s : State) (sp a n : Nat) : Bool :=
  sp == 0 && decide (0 < n) && (((locOf s a).part s).any (resetting s) || ((locOf s (a + n - 1)).part s).any (resetting s))

/-- The checks of `debug.read` and `debug.write`; `spaces` is the number of spaces. -/
def debugChecks (s : State) (c : Cmd) (spaces : Nat) : List (Bool × Reply) :=
  let sp := c.at 16 1
  let a := c.at 24 6
  let n := c.at 32 4
  [ c.extNeed n, badField (decide (spaces ≤ sp)) 16, c.rsvd 17 24, badField (a % 8 != 0) 24, outOfRange (debugOut s sp a n) 24, c.rsvd 30 32,
    outOfRange (decide (n < 8) || n % 8 != 0) 32, c.rsvd 36 64, refuse (debugPart s sp a n) stPartitionResetting ]

/-- Device address of a `debug` range: space 2 counts from the steward SRAM's base (R288). -/
def debugAddr (sp a : Nat) : Nat := if sp = 2 then 0x7F0060000000 + a else a

/-- A word of the range lies in a unit that holds its requests: the command waits for it (R306). -/
def debugHeld (s : State) (k : Nat) : Bool := (cmdOf s k).any (fun c => c.at 16 1 == 0 && held s (c.at 24 6) (c.at 32 4))

/-- DEBUG_READ (R407). -/
def execDebugRead (k : Nat) (s : State) : Host.Outcome State Fault Refusal :=
  .next (
    if debugHeld s k then s
    else runCmd k 0x0C01 (fun c s =>
      let sp := c.at 16 1
      let n := c.at 32 4
      let a := debugAddr sp (c.at 24 6)
      checked (debugChecks s c 3)
        (fun s =>
          if sp = 1 then (s, { output := imageBytes ((List.range (n / 4)).map (fun i => mmioRead s (a + 4 * i))), result := leBytes 4 0 })
          else
            let s := touch a n s
            (s, { output := rdBytes s a n, result := leBytes 4 ((wordsOf a n).filter (wordBad s)).length })) s) s)

/-- DEBUG_WRITE (R407): as a host CXL.mem write (R290, R310), or as BAR4 writes (R12). -/
def execDebugWrite (k : Nat) (s : State) : Host.Outcome State Fault Refusal :=
  .next (
    if debugHeld s k then s
    else runCmd k 0x0C02 (fun c s =>
      let n := c.at 32 4
      let a := c.at 24 6
      let data := c.ext.take n
      checked (debugChecks s c 2)
        (fun s =>
          if c.at 16 1 = 1 then ((List.range (n / 4)).foldl (fun (s : State) i => mmioWrite (a + 4 * i) (bytesAt data (4 * i) 4) 0xFFFFFFFF s) s, {})
          else if reachRange s .host true a n then (wrShown a data s, {})
          else (post 0x0112 (leBytes 6 a) s, {})) s) s)

/-- DEBUG_STEWARD (R407): what the harts hold and what firmware traced are free values (log 8). -/
def execDebugSteward (k : Nat) (s : State) : Host.Outcome State Fault Refusal :=
  .next (runCmd k 0x0C03 (fun c s =>
    checked [ c.extNeed 256, c.rsvd 16 64 ]
      (fun s =>
        let n := (64 * c.extLen - 256) / 16 * 16
        let harts := (List.range 20).map (fun i => BitVec.ofNat 64 (Config.freeNat (s.free + i)))
        let trace := freeBytes n { s with free := s.free + 20 }
        ({ s with stw := { s.stw with harts := harts, traceOut := trace }, free := s.free + 20 + n },
         { output := (List.range 4).flatMap (fun h => fitBytes 64 ((List.range 5).flatMap (fun j => leBytes 8 (harts.getD (5 * h + j) 0).toNat))) ++ trace })) s) s)

/-! ### loop -/

/-- LOOP_STATUS (R162): engine registers, and from byte 64 the registers of the COUNT slots from FIRST, at bytes 16 and 18 (log 15). -/
def execLoopStatus (k : Nat) (s : State) : Host.Outcome State Fault Refusal :=
  .next (runCmd k 0x0D01 (fun c s =>
    let f := c.at 16 2
    let n := c.at 18 2
    checked [ c.extNeed (64 + 32 * n), outOfRange (decide (8191 < f)) 16, outOfRange (decide (8192 < f + n)) 18, c.rsvd 20 64 ]
      (fun s =>
        let out := fitBytes 64 (imageBytes ((List.range 10).map (fun i => engineRead s (4 * i)))) ++
          imageBytes ((List.range n).flatMap (fun j => (List.range 8).map (slotRead s (f + j))))
        (s, { output := out })) s) s)

/-- A check of the slot number at byte 16 (R391). -/
def slotChecks (s : State) (c : Cmd) : List (Bool × Reply) :=
  [ outOfRange (decide (8191 < c.at 16 2)) 16, badField (slotKind s (c.at 16 2) == 0) 16, c.rsvd 18 64 ]

/-- LOOP_FREEZE (R147, R148). -/
def execLoopFreeze (k : Nat) (s : State) : Host.Outcome State Fault Refusal :=
  .next (runCmd k 0x0D03 (fun c s =>
    checked (slotChecks s c ++ [ refuse (freezeRefused s (c.at 16 2)) stBusy ])
      (fun s => (s.modLoop (c.at 16 2) (fun x => { x with freeze := true }), {})) s) s)

/-- LOOP_RELEASE (R147). -/
def execLoopRelease (k : Nat) (s : State) : Host.Outcome State Fault Refusal :=
  .next (runCmd k 0x0D04 (fun c s =>
    checked (slotChecks s c) (fun s => (s.modLoop (c.at 16 2) (fun x => { x with freeze := false }), {})) s) s)

/-- LOOP_TEST (R159, R394): answered at its start beat edge. -/
def execLoopTest (k : Nat) (s : State) : Host.Outcome State Fault Refusal :=
  .next (runCmd k 0x0D05 (fun c s =>
    checked [ c.rsvd 16 64, badField (testBadSlot s) 0, refuse (testBusy s) stBusy ]
      (fun s => ({ s with eng := { s.eng with startPend := true, testCmd := some k } }, { wait := true, commit := false })) s) s)

/-- LOOP_CAPTURE (R161): with BLOCK 0 at byte 16 it returns COUNT entries of the buffer from FIRST, at bytes 20 and 24; else it sets LP_CAP_CTRL or
LP_CAP_SEL_j (R405, log 15). -/
def execLoopCapture (k : Nat) (s : State) : Host.Outcome State Fault Refusal :=
  .next (
    if (cmdOf s k).any (fun c => c.at 16 2 != 0) then setRegs k 0x0D06 6 (fun i off => i == 0 && [0x10, 0x14, 0x18].contains off) s
    else runCmd k 0x0D06 (fun c s =>
      let f := c.at 20 4
      let n := c.at 24 4
      checked [ c.extNeed (8 * n), c.rsvd 18 20, outOfRange (decide (65535 < f)) 20, outOfRange (decide (65536 < f + n)) 24, c.rsvd 28 64 ]
        (fun s => (s, { output := (List.range n).flatMap (fun i => leBytes 8 (tget 0 s.eng.cap (f + i)).toNat) })) s) s)

/-! ### monitor -/

/-- A check of the converter number at byte 16. -/
def monCheck (c : Cmd) : Bool × Reply := outOfRange (decide (63 < c.at 16 1)) 16

/-- MONITOR_STATUS (R137): the ring registers, and the registers of converter k, at byte 16, but its results (log 15). -/
def execMonitorStatus (k : Nat) (s : State) : Host.Outcome State Fault Refusal :=
  .next (runCmd k 0x0E01 (fun c s =>
    checked [ c.extNeed 64, monCheck c, c.rsvd 17 64 ]
      (fun s =>
        let m := c.at 16 1
        (s, { output := imageBytes ((List.range 5).map (fun i => monBlockRead s (4 * i)) ++ [monRead s m 0, monRead s m 4, monRead s m 8] ++
          (List.range 8).map (fun w => monRead s m (0x40 + 4 * w))) })) s) s)

/-- MONITOR_SELFTEST (R135): converter at byte 16; it completes when the self-test has run. -/
def execMonitorSelftest (k : Nat) (s : State) : Host.Outcome State Fault Refusal :=
  .next (runCmd k 0x0E03 (fun c s =>
    let m := c.at 16 1
    checked [ monCheck c, c.rsvd 17 64, refuse (s.mon m).selfCmd.isSome stBusy ]
      (fun s => (s.modMon m (fun x => { x with selfCmd := some k }), { wait := true, commit := false })) s) s)

/-- MONITOR_INJECT (R127): the converters of the 8-byte mask at byte 16 get the request trigger (log 15). -/
def execMonitorInject (k : Nat) (s : State) : Host.Outcome State Fault Refusal :=
  .next (runCmd k 0x0E04 (fun c s =>
    checked [ outOfRange (c.at 16 8 == 0) 16, c.rsvd 24 64 ]
      (fun s => ((maskList 64 (c.at 16 8)).foldl (fun (s : State) m => trigger m 2 s) s, {})) s) s)

/-- MONITOR_READ (R137): the latest results of converter k, at byte 16 (log 15). -/
def execMonitorRead (k : Nat) (s : State) : Host.Outcome State Fault Refusal :=
  .next (runCmd k 0x0E05 (fun c s =>
    checked [ c.extNeed 128, monCheck c, c.rsvd 17 64 ]
      (fun s => (s, { output := imageBytes ((List.range 32).map (fun i => monRead s (c.at 16 1) (0x80 + 4 * i))) })) s) s)

end Sys2Proof.Machine
end

