-- ==== Sys2Proof/Machine/Dispatch.lean ====
section
/-! DEFINITION. What each command does to everything but the queue: one arm per constructor of `Instr`, each a
direct call of that command's meaning. -/

namespace Sys2Proof.Machine

open Sys2Proof

def exec (i : Instr) (s : State) : Host.Outcome State Fault Refusal :=
  match i with
  | .beatEdge refvOk => Sys2Proof.Machine.execBeatEdge refvOk s
  | .sliceWindowOpen => Sys2Proof.Machine.execSliceWindowOpen s
  | .calibrationWindowOpen => Sys2Proof.Machine.execCalibrationWindowOpen s
  | .sliceWindowEnd => Sys2Proof.Machine.execSliceWindowEnd s
  | .symbolSlot f starved samples => Sys2Proof.Machine.execSymbolSlot f starved samples s
  | .loaderBufferLoaded f t => Sys2Proof.Machine.execLoaderBufferLoaded f t s
  | .fillComplete f t => Sys2Proof.Machine.execFillComplete f t s
  | .swap f t => Sys2Proof.Machine.execSwap f t s
  | .liveRefresh f => Sys2Proof.Machine.execLiveRefresh f s
  | .pendingRewrite f t => Sys2Proof.Machine.execPendingRewrite f t s
  | .pendingTileReload f => Sys2Proof.Machine.execPendingTileReload f s
  | .trimRoundStart => Sys2Proof.Machine.execTrimRoundStart s
  | .loopSlotCompute slot y st => Sys2Proof.Machine.execLoopSlotCompute slot y st s
  | .fadeLevelFall n g => Sys2Proof.Machine.execFadeLevelFall n g s
  | .fadeComparatorTrip n g => Sys2Proof.Machine.execFadeComparatorTrip n g s
  | .relayRecovered x => Sys2Proof.Machine.execRelayRecovered x s
  | .relayPrelockDone x => Sys2Proof.Machine.execRelayPrelockDone x s
  | .lightPauseStart => Sys2Proof.Machine.execLightPauseStart s
  | .relaySettled n => Sys2Proof.Machine.execRelaySettled n s
  | .quickGainDone n => Sys2Proof.Machine.execQuickGainDone n s
  | .lightPauseEnd => Sys2Proof.Machine.execLightPauseEnd s
  | .monitorSlotEnd k v => Sys2Proof.Machine.execMonitorSlotEnd k v s
  | .monitorInjectTrigger k trig => Sys2Proof.Machine.execMonitorInjectTrigger k trig s
  | .monitorSelftestRun k => Sys2Proof.Machine.execMonitorSelftestRun k s
  | .monCommitWrite k w => Sys2Proof.Machine.execMonCommitWrite k w s
  | .monHostInjectWrite k w => Sys2Proof.Machine.execMonHostInjectWrite k w s
  | .monRingOnWrite w => Sys2Proof.Machine.execMonRingOnWrite w s
  | .coolpwmWindow high => Sys2Proof.Machine.execCoolpwmWindow high s
  | .coolantPwmLost => Sys2Proof.Machine.execCoolantPwmLost s
  | .lpFreezeWrite slot w => Sys2Proof.Machine.execLpFreezeWrite slot w s
  | .loopFreezeTimeout slot => Sys2Proof.Machine.execLoopFreezeTimeout slot s
  | .lpTestStart w => Sys2Proof.Machine.execLpTestStart w s
  | .lpTestStop w => Sys2Proof.Machine.execLpTestStop w s
  | .captureBufferFull => Sys2Proof.Machine.execCaptureBufferFull s
  | .thermalPauseStart f => Sys2Proof.Machine.execThermalPauseStart f s
  | .thermalPauseEnd f => Sys2Proof.Machine.execThermalPauseEnd f s
  | .calCadenceTick p => Sys2Proof.Machine.execCalCadenceTick p s
  | .calRunComplete f b q => Sys2Proof.Machine.execCalRunComplete f b q s
  | .descriptorIssue slot => Sys2Proof.Machine.execDescriptorIssue slot s
  | .fieldGemm o => Sys2Proof.Machine.execFieldGemm o s
  | .opHandover o f => Sys2Proof.Machine.execOpHandover o f s
  | .accDrain o => Sys2Proof.Machine.execAccDrain o s
  | .treeFencePass o => Sys2Proof.Machine.execTreeFencePass o s
  | .accSave o => Sys2Proof.Machine.execAccSave o s
  | .accRestore o => Sys2Proof.Machine.execAccRestore o s
  | .vecKernel o => Sys2Proof.Machine.execVecKernel o s
  | .quantScale o => Sys2Proof.Machine.execQuantScale o s
  | .move o => Sys2Proof.Machine.execMove o s
  | .moveReduce o => Sys2Proof.Machine.execMoveReduce o s
  | .fence o => Sys2Proof.Machine.execFence o s
  | .wait o => Sys2Proof.Machine.execWait o s
  | .signal o => Sys2Proof.Machine.execSignal o s
  | .tollgate o => Sys2Proof.Machine.execTollgate o s
  | .nop o => Sys2Proof.Machine.execNop o s
  | .opRetire o => Sys2Proof.Machine.execOpRetire o s
  | .layerRewriteStart p => Sys2Proof.Machine.execLayerRewriteStart p s
  | .layerRewriteDone p => Sys2Proof.Machine.execLayerRewriteDone p s
  | .swapDrainTimeout p => Sys2Proof.Machine.execSwapDrainTimeout p s
  | .spillCopyDone slot => Sys2Proof.Machine.execSpillCopyDone slot s
  | .kernelReturn c a0 wk => Sys2Proof.Machine.execKernelReturn c a0 wk s
  | .kernelTrap c cause mcause mepc wk => Sys2Proof.Machine.execKernelTrap c cause mcause mepc wk s
  | .kernelWatchdog c mepc wk => Sys2Proof.Machine.execKernelWatchdog c mepc wk s
  | .vbarrierWrite c wk => Sys2Proof.Machine.execVbarrierWrite c wk s
  | .vpoisonWrite c w wk => Sys2Proof.Machine.execVpoisonWrite c w wk s
  | .coreDmaDescriptor c ch src dst len rows sstr dstr wk => Sys2Proof.Machine.execCoreDmaDescriptor c ch src dst len rows sstr dstr wk s
  | .hostCxlRead addr n flips => Sys2Proof.Machine.execHostCxlRead addr n flips s
  | .hostCxlWrite addr bytes => Sys2Proof.Machine.execHostCxlWrite addr bytes s
  | .patrolScrubRead u flips => Sys2Proof.Machine.execPatrolScrubRead u flips s
  | .ceRateTrip u => Sys2Proof.Machine.execCeRateTrip u s
  | .retrainStart => Sys2Proof.Machine.execRetrainStart s
  | .retrainDone pass => Sys2Proof.Machine.execRetrainDone pass s
  | .memoryZeroingDone u => Sys2Proof.Machine.execMemoryZeroingDone u s
  | .d2dLinkFail n => Sys2Proof.Machine.execD2dLinkFail n s
  | .d2dFallbackReady n => Sys2Proof.Machine.execD2dFallbackReady n s
  | .partitionResetEffective p => Sys2Proof.Machine.execPartitionResetEffective p s
  | .partitionResetRelease p failed => Sys2Proof.Machine.execPartitionResetRelease p failed s
  | .linkPortTrained p quads peerLight ok => Sys2Proof.Machine.execLinkPortTrained p quads peerLight ok s
  | .linkPortDown p => Sys2Proof.Machine.execLinkPortDown p s
  | .laneFail p lane => Sys2Proof.Machine.execLaneFail p lane s
  | .laneDropRetrain p => Sys2Proof.Machine.execLaneDropRetrain p s
  | .portTrainRetry p => Sys2Proof.Machine.execPortTrainRetry p s
  | .flitSend p => Sys2Proof.Machine.execFlitSend p s
  | .flitReceive p fl clean corr uncorr => Sys2Proof.Machine.execFlitReceive p fl clean corr uncorr s
  | .replayRequest p frm => Sys2Proof.Machine.execReplayRequest p frm s
  | .creditReturn p pool n => Sys2Proof.Machine.execCreditReturn p pool n s
  | .packetForward pk frm => Sys2Proof.Machine.execPacketForward pk frm s
  | .writePacketArrival pk => Sys2Proof.Machine.execWritePacketArrival pk s
  | .reducePacketArrival pk => Sys2Proof.Machine.execReducePacketArrival pk s
  | .writeAckReceive opref refused => Sys2Proof.Machine.execWriteAckReceive opref refused s
  | .linkWriteLost opref => Sys2Proof.Machine.execLinkWriteLost opref s
  | .timeMessageSend => Sys2Proof.Machine.execTimeMessageSend s
  | .timeMessageReceive p beat tx rx back => Sys2Proof.Machine.execTimeMessageReceive p beat tx rx back s
  | .tickinEdge off => Sys2Proof.Machine.execTickinEdge off s
  | .tickFallback => Sys2Proof.Machine.execTickFallback s
  | .tickDisagree => Sys2Proof.Machine.execTickDisagree s
  | .leFltNFall p => Sys2Proof.Machine.execLeFltNFall p s
  | .leFltNRestore p => Sys2Proof.Machine.execLeFltNRestore p s
  | .lightEnginePoll p answers profile status temp rx => Sys2Proof.Machine.execLightEnginePoll p answers profile status temp rx s
  | .identityMessage p coord port lx ly lz msg => Sys2Proof.Machine.execIdentityMessage p coord port lx ly lz msg s
  | .musterReport d second present beat => Sys2Proof.Machine.execMusterReport d second present beat s
  | .systemReadyDeclare ms beat => Sys2Proof.Machine.execSystemReadyDeclare ms beat s
  | .standbyRootDeclare ms beat => Sys2Proof.Machine.execStandbyRootDeclare ms beat s
  | .systemReadyReceive absent beat => Sys2Proof.Machine.execSystemReadyReceive absent beat s
  | .musterPortTimeout p => Sys2Proof.Machine.execMusterPortTimeout p s
  | .routeUpdateReceive coord present beat => Sys2Proof.Machine.execRouteUpdateReceive coord present beat s
  | .routeSwitchBeat => Sys2Proof.Machine.execRouteSwitchBeat s
  | .mbEnableWrite m w => Sys2Proof.Machine.execMbEnableWrite m w s
  | .mbCmdTailWrite m w => Sys2Proof.Machine.execMbCmdTailWrite m w s
  | .mbDoorbell m w => Sys2Proof.Machine.execMbDoorbell m w s
  | .commandFetch m entry ext => Sys2Proof.Machine.execCommandFetch m entry ext s
  | .commandDeadline k => Sys2Proof.Machine.execCommandDeadline k s
  | .commandComplete k => Sys2Proof.Machine.execCommandComplete k s
  | .registerWrite bar off w => Sys2Proof.Machine.execRegisterWrite bar off w s
  | .devInfo k => Sys2Proof.Machine.execDevInfo k s
  | .devReset k => Sys2Proof.Machine.execDevReset k s
  | .devCmdCancel k => Sys2Proof.Machine.execDevCmdCancel k s
  | .devUnitDisable k => Sys2Proof.Machine.execDevUnitDisable k s
  | .devUnitEnable k => Sys2Proof.Machine.execDevUnitEnable k s
  | .devUnitStatus k => Sys2Proof.Machine.execDevUnitStatus k s
  | .devFaultRead k => Sys2Proof.Machine.execDevFaultRead k s
  | .devMemStatus k => Sys2Proof.Machine.execDevMemStatus k s
  | .devMemRetrain k => Sys2Proof.Machine.execDevMemRetrain k s
  | .devMemScrub k => Sys2Proof.Machine.execDevMemScrub k s
  | .devMemRegion k => Sys2Proof.Machine.execDevMemRegion k s
  | .devPartitionConfig k => Sys2Proof.Machine.execDevPartitionConfig k s
  | .devPartitionReset k => Sys2Proof.Machine.execDevPartitionReset k s
  | .devPartitionStatus k => Sys2Proof.Machine.execDevPartitionStatus k s
  | .powerStatus k => Sys2Proof.Machine.execPowerStatus k s
  | .powerState k => Sys2Proof.Machine.execPowerState k s
  | .powerDomain k => Sys2Proof.Machine.execPowerDomain k s
  | .lightStatus k => Sys2Proof.Machine.execLightStatus k s
  | .lightCommission k refl => Sys2Proof.Machine.execLightCommission k refl s
  | .lightRelayAssign k => Sys2Proof.Machine.execLightRelayAssign k s
  | .lightRelaySwitch k => Sys2Proof.Machine.execLightRelaySwitch k s
  | .lightRelayRelease k => Sys2Proof.Machine.execLightRelayRelease k s
  | .calStatus k => Sys2Proof.Machine.execCalStatus k s
  | .calRun k => Sys2Proof.Machine.execCalRun k s
  | .calCadence k => Sys2Proof.Machine.execCalCadence k s
  | .calVerify k => Sys2Proof.Machine.execCalVerify k s
  | .calUserClear k => Sys2Proof.Machine.execCalUserClear k s
  | .calBandHold k => Sys2Proof.Machine.execCalBandHold k s
  | .calBandRelease k => Sys2Proof.Machine.execCalBandRelease k s
  | .modelLoadBegin k => Sys2Proof.Machine.execModelLoadBegin k s
  | .modelLoadChunk k data bad => Sys2Proof.Machine.execModelLoadChunk k data bad s
  | .modelLoadEnd k => Sys2Proof.Machine.execModelLoadEnd k s
  | .modelDirSet k => Sys2Proof.Machine.execModelDirSet k s
  | .modelDirRead k => Sys2Proof.Machine.execModelDirRead k s
  | .modelDirFree k => Sys2Proof.Machine.execModelDirFree k s
  | .modelSwapStage k => Sys2Proof.Machine.execModelSwapStage k s
  | .modelSwapStatus k => Sys2Proof.Machine.execModelSwapStatus k s
  | .modelSwapCancel k => Sys2Proof.Machine.execModelSwapCancel k s
  | .modelPrefetch k => Sys2Proof.Machine.execModelPrefetch k s
  | .execSubmit k => Sys2Proof.Machine.execExecSubmit k s
  | .execAbort k => Sys2Proof.Machine.execExecAbort k s
  | .execStatus k => Sys2Proof.Machine.execExecStatus k s
  | .execToken k => Sys2Proof.Machine.execExecToken k s
  | .execStream k => Sys2Proof.Machine.execExecStream k s
  | .manifestOpen k => Sys2Proof.Machine.execManifestOpen k s
  | .manifestClose k => Sys2Proof.Machine.execManifestClose k s
  | .manifestFree k => Sys2Proof.Machine.execManifestFree k s
  | .manifestRead k => Sys2Proof.Machine.execManifestRead k s
  | .linkStatus k => Sys2Proof.Machine.execLinkStatus k s
  | .linkConfig k => Sys2Proof.Machine.execLinkConfig k s
  | .linkPortRetrain k => Sys2Proof.Machine.execLinkPortRetrain k s
  | .linkPortDisable k => Sys2Proof.Machine.execLinkPortDisable k s
  | .linkPortEnable k => Sys2Proof.Machine.execLinkPortEnable k s
  | .linkFec k => Sys2Proof.Machine.execLinkFec k s
  | .linkMusterStatus k => Sys2Proof.Machine.execLinkMusterStatus k s
  | .linkRejoin k => Sys2Proof.Machine.execLinkRejoin k s
  | .linkTime k => Sys2Proof.Machine.execLinkTime k s
  | .thermalStatus k => Sys2Proof.Machine.execThermalStatus k s
  | .thermalConfig k => Sys2Proof.Machine.execThermalConfig k s
  | .thermalThrottleAck k => Sys2Proof.Machine.execThermalThrottleAck k s
  | .thermalSensor k => Sys2Proof.Machine.execThermalSensor k s
  | .secCertRead k => Sys2Proof.Machine.execSecCertRead k s
  | .secMeasureRead k => Sys2Proof.Machine.execSecMeasureRead k s
  | .secLicenceInstall k => Sys2Proof.Machine.execSecLicenceInstall k s
  | .secLicenceList k => Sys2Proof.Machine.execSecLicenceList k s
  | .secImageStage k => Sys2Proof.Machine.execSecImageStage k s
  | .secImageCommit k => Sys2Proof.Machine.execSecImageCommit k s
  | .imageStageIdleTimeout => Sys2Proof.Machine.execImageStageIdleTimeout s
  | .telemetryRead k => Sys2Proof.Machine.execTelemetryRead k s
  | .telemetryConfig k => Sys2Proof.Machine.execTelemetryConfig k s
  | .debugRead k => Sys2Proof.Machine.execDebugRead k s
  | .debugWrite k => Sys2Proof.Machine.execDebugWrite k s
  | .debugSteward k => Sys2Proof.Machine.execDebugSteward k s
  | .loopStatus k => Sys2Proof.Machine.execLoopStatus k s
  | .loopConfig k => Sys2Proof.Machine.execLoopConfig k s
  | .loopFreeze k => Sys2Proof.Machine.execLoopFreeze k s
  | .loopRelease k => Sys2Proof.Machine.execLoopRelease k s
  | .loopTest k => Sys2Proof.Machine.execLoopTest k s
  | .loopCapture k => Sys2Proof.Machine.execLoopCapture k s
  | .loopCoolant k => Sys2Proof.Machine.execLoopCoolant k s
  | .monitorStatus k => Sys2Proof.Machine.execMonitorStatus k s
  | .monitorConfig k => Sys2Proof.Machine.execMonitorConfig k s
  | .monitorSelftest k => Sys2Proof.Machine.execMonitorSelftest k s
  | .monitorInject k => Sys2Proof.Machine.execMonitorInject k s
  | .monitorRead k => Sys2Proof.Machine.execMonitorRead k s
  | .resetNRise => Sys2Proof.Machine.execResetNRise s
  | .bootSetReady => Sys2Proof.Machine.execBootSetReady s
  | .resetNFall => Sys2Proof.Machine.execResetNFall s
  | .pwrokFall => Sys2Proof.Machine.execPwrokFall s
  | .refclkLoss => Sys2Proof.Machine.execRefclkLoss s
  | .refclkRestore => Sys2Proof.Machine.execRefclkRestore s
  | .buDomainEnWrite w => Sys2Proof.Machine.execBuDomainEnWrite w s
  | .buPllGo w => Sys2Proof.Machine.execBuPllGo w s
  | .buHbmTrainGo w => Sys2Proof.Machine.execBuHbmTrainGo w s
  | .buImgLoad w => Sys2Proof.Machine.execBuImgLoad w s
  | .buAuthVerify w => Sys2Proof.Machine.execBuAuthVerify w s
  | .buStewardRun w => Sys2Proof.Machine.execBuStewardRun w s
  | .buConvoyGo w => Sys2Proof.Machine.execBuConvoyGo w s
  | .buConvoyAccept w => Sys2Proof.Machine.execBuConvoyAccept w s
  | .buStepWarmup w => Sys2Proof.Machine.execBuStepWarmup w s
  | .buStepFactoryCal w => Sys2Proof.Machine.execBuStepFactoryCal w s
  | .buStepUserCal w => Sys2Proof.Machine.execBuStepUserCal w s
  | .bringupStepComplete ms obs => Sys2Proof.Machine.execBringupStepComplete ms obs s
  | .bringupStepTimeout => Sys2Proof.Machine.execBringupStepTimeout s
  | .warmupFieldTimeout f band => Sys2Proof.Machine.execWarmupFieldTimeout f band s
  | .convoyChunkReceive c chunk => Sys2Proof.Machine.execConvoyChunkReceive c chunk s
  | .convoyRepairRound => Sys2Proof.Machine.execConvoyRepairRound s
  | .coreReconvoy cs failed => Sys2Proof.Machine.execCoreReconvoy cs failed s
  | .sensorReading d j v => Sys2Proof.Machine.execSensorReading d j v s
  | .overtempComparatorTrip d => Sys2Proof.Machine.execOvertempComparatorTrip d s
  | .throttleGraceExpiry => Sys2Proof.Machine.execThrottleGraceExpiry s
  | .throttleAckLimit => Sys2Proof.Machine.execThrottleAckLimit s
  | .throttleStepTimer => Sys2Proof.Machine.execThrottleStepTimer s
  | .sensorHoldTimer d => Sys2Proof.Machine.execSensorHoldTimer d s
  | .shutdownComparatorTrip d => Sys2Proof.Machine.execShutdownComparatorTrip d s
  | .domainPowerGoodLoss d => Sys2Proof.Machine.execDomainPowerGoodLoss d s
  | .faultDetect code kind index sub detail => Sys2Proof.Machine.execFaultDetect code kind index sub detail s
  | .coreHeartbeatMiss c => Sys2Proof.Machine.execCoreHeartbeatMiss c s
  | .faultQueueTake => Sys2Proof.Machine.execFaultQueueTake s
  | .recoveryEnd pass => Sys2Proof.Machine.execRecoveryEnd pass s
  | .disableGracefulTimeout k => Sys2Proof.Machine.execDisableGracefulTimeout k s
  | .stewardWatchdogExpiry => Sys2Proof.Machine.execStewardWatchdogExpiry s
  | .secSelfTest pass => Sys2Proof.Machine.execSecSelfTest pass s
  | .spdmRequest transport code body => Sys2Proof.Machine.execSpdmRequest transport code body s
  | .mctpVendorRequest entry ext => Sys2Proof.Machine.execMctpVendorRequest entry ext s
  | .mgResetWrite v soon => Sys2Proof.Machine.execMgResetWrite v soon s
  | .deviceFault cause => Sys2Proof.Machine.execDeviceFault cause s
  | .decoderCommit region base => Sys2Proof.Machine.execDecoderCommit region base s
  | .setEndpointId eid => Sys2Proof.Machine.execSetEndpointId eid s
  | .dynamicAddressAssign a => Sys2Proof.Machine.execDynamicAddressAssign a s
  | .measurementExtend reg d => Sys2Proof.Machine.execMeasurementExtend reg d s

end Sys2Proof.Machine
end

