-- ==== Sys2Proof/Safety.lean ====
section
/-! DEFINITION. The words of the statements: that a command completes with an effect, that a mailbox command is taken, and the canonical form of
the block's byte memories and word tables. -/

namespace Sys2Proof.Machine

open Sys2Proof

/-- The command completes: `exec` answers a next state, and `P` holds of it. -/
def Completes (i : Instr) (s : State) (P : State → Prop) : Prop := ∃ t, exec i s = .next t ∧ P t

/-- Command `c`, of key `k` and opcode `op`, is in progress, may start, names a DEADLINE that its opcode allows, and has someone who serves it: the steward
after release, or over the management interface the security block (R386, R387, R393, R488). -/
def Taken (s : State) (k op : Nat) (c : Cmd) : Prop :=
  cmdOf s k = some c ∧ c.opcode = op ∧ mayStart s c = true ∧ (s.stw.ready || c.src == 64) = true ∧ c.tooLate = false

/-- In `t`, command `k` of `s` has been answered with the reply `r` (R392). -/
def Answered (s t : State) (k : Nat) (r : Reply) : Prop := cmdOf t k = (cmdOf s k).map (fun c => c.answer r)

/-- In `t`, command `k` has started, and its answer is still to come. -/
def Waiting (t : State) (k : Nat) : Prop := ∃ c, cmdOf t k = some c ∧ c.started = true ∧ c.decided = false

/-- Op `o`, of key `k` and opcode `code`, is issued, its waits are met, no waited token carries ABORT to it, its partition admits, and
it has its turn, and the manifest entries it names, if any, are in order and none is held, nor its list's memory unit (R234, R235, R241, R247, R250, R306). -/
def Admissible (s : State) (k code : Nat) (o : Op) : Prop :=
  opOf s k = some o ∧ o.code = code ∧ o.stage = 1 ∧ o.copying = false ∧ o.abortAt = none ∧ admitting s (o.part s) = true ∧
  waitsMet s o = true ∧ upstream s o = false ∧ servedFirst s o = true ∧ (o.mlist.2 = 0 ∨ (s.errs = [] ∧ manifestBad s o = false ∧ anyHeld s o = false ∧ held s o.mlist.1 (2 * o.mlist.2) = false))

/-- Op `k` of `t` is in stage `n` (2 admitted, 3 at its retire point, 4 behind its tree fence). -/
def InStage (t : State) (k n : Nat) : Prop := ∃ o, opOf t k = some o ∧ o.stage = n

/-- `t` is `s` with device error entered for cause `n` (R468, R469): FAULT_N low, nothing more admitted, the ports down but for those that are disabled, every command
in progress answered, alert bit 1 posted, and nothing else changed. -/
def EntersDeviceError (n : Nat) (s t : State) : Prop :=
  t.flt = { s.flt with deviceError := true, deCause := n } ∧ t.pins = { s.pins with faultN := false } ∧ t.tim = { s.tim with admits := false } ∧
  (∀ p, (t.port p).state = (if (s.port p).state = 3 then 3 else 0)) ∧ (∀ c, c ∈ t.cmds → c.decided = true) ∧ t.mg.alert.getLsbD 1 = true ∧
  t = { s with flt := t.flt, pins := t.pins, tim := t.tim, mg := t.mg, ports := t.ports, cmds := t.cmds }

/-- Device memory, the host memory that the device wrote, and the poison and error marks of memory words are in their
canonical form. -/
def State.memWf (s : State) : Bool :=
  Memory.wf s.mem && Memory.wf s.hostMem && Tab.wf false s.poison && Tab.wf (0 : BitVec 80) s.errs

/-- A command that may store into device memory, or correct what it reads there. Every other command of the table leaves device memory, its poison and
its errors alone. -/
def mayStore : Instr → Bool
  | .beatEdge _ | .symbolSlot _ _ _ | .loaderBufferLoaded _ _ | .loopSlotCompute _ _ _ | .fadeComparatorTrip _ _ | .monitorSlotEnd _ _
  | .calRunComplete _ _ _ | .descriptorIssue _ | .fieldGemm _ | .accDrain _ | .treeFencePass _ | .accSave _ | .accRestore _ | .vecKernel _
  | .quantScale _ | .move _ | .moveReduce _ | .fence _ | .wait _ | .signal _ | .tollgate _ | .nop _ | .opRetire _ | .layerRewriteDone _
  | .spillCopyDone _ | .kernelReturn _ _ _ | .kernelTrap _ _ _ _ _ | .kernelWatchdog _ _ _ | .vbarrierWrite _ _ | .vpoisonWrite _ _ _
  | .coreDmaDescriptor _ _ _ _ _ _ _ _ _ | .hostCxlRead _ _ _ | .hostCxlWrite _ _ | .patrolScrubRead _ _ | .retrainDone _ | .memoryZeroingDone _
  | .d2dFallbackReady _ | .partitionResetEffective _ | .partitionResetRelease _ _ | .linkPortTrained _ _ _ _ | .writePacketArrival _
  | .reducePacketArrival _ | .commandComplete _ | .devUnitDisable _ | .devPartitionConfig _ | .modelLoadChunk _ _ _ | .modelSwapCancel _
  | .execAbort _ | .debugRead _ | .debugWrite _ | .resetNFall | .pwrokFall | .refclkLoss | .bringupStepComplete _ _ | .bringupStepTimeout
  | .warmupFieldTimeout _ _ | .convoyChunkReceive _ _ | .coreReconvoy _ _ | .sensorReading _ _ _ | .shutdownComparatorTrip _
  | .domainPowerGoodLoss _ | .faultDetect _ _ _ _ _ | .coreHeartbeatMiss _ | .faultQueueTake | .recoveryEnd _ | .disableGracefulTimeout _
  | .mgResetWrite _ _ => true
  | _ => false

/-- A command at which the device may reset or shut down: RESET_N, PWROK, REFCLK, MG_RESET, the report of `dev.reset`, and the events that can meet a
die at its shut-down level (R429, R451). -/
def mayReset : Instr → Bool
  | .resetNFall | .pwrokFall | .refclkLoss | .mgResetWrite _ _ | .commandComplete _ | .shutdownComparatorTrip _ | .sensorReading _ _ _
  | .beatEdge _ => true
  | _ => false

end Sys2Proof.Machine
end

