-- ==== Sys2Proof/Certificates/Slice0/Obligations.lean ====
section
/-! DEFINITION. The statements for the provers: what each family of commands does, and what no command does. -/

open Sys2Proof Sys2Proof.Machine

/-- The model's step (assumption log 6): it takes the command at the front of the queue and runs it with the queue's rest; on an empty queue the block
idles. -/
def Obligations.StepRunsFrontCommand : Prop :=
  (∀ (c : Instr) (s : State) (rest : List Instr), s.pending = c :: rest → step s = exec c { s with pending := rest }) ∧
  (∀ (s : State), s.pending = [] → step s = .next s)

/-- Every command of the table completes, in every state, and no command touches the queue of those that wait. The queue and this totality are the
model's own (assumption logs 1 and 6). -/
def Obligations.EveryCommandCompletesAndLeavesTheQueue : Prop :=
  ∀ (i : Instr) (s : State), ∃ t, exec i s = .next t ∧ t.pending = s.pending

/-- R137, R162, R311, R346, R430, R453, R489, R490: what reset leaves, as far as the manual gives values, and the canonical form of memory. -/
def Obligations.ResetLeavesTheManualsValues : Prop :=
  State.reset.memWf = true ∧ State.reset.mem = [] ∧ State.reset.pending = [] ∧ State.reset.cmds = [] ∧ State.reset.ops = [] ∧
  State.reset.bu.step = 0 ∧ State.reset.bu.state = 0 ∧ State.reset.bu.hbmSel = 0xFFF ∧ State.reset.bu.ddrSel = 0xFFF ∧ State.reset.bu.imgAddr = 0 ∧
  State.reset.memTop.scrubHours = 24 ∧ State.reset.memTop.scrubEn = true ∧ State.reset.memTop.ceRateLimit = 64 ∧ State.reset.net.parts = 1 ∧
  State.reset.thm.grace = 20 ∧ State.reset.mg.alertEn = 0x7F ∧ State.reset.mg.alert = 0 ∧ State.reset.eng.offset = 40 ∧ State.reset.eng.coolSet = 0x1900 ∧
  State.reset.ring.sizeLog2 = 10 ∧ State.reset.stw.telemetry = 0x3F ∧ State.reset.flt.deviceError = false ∧ State.reset.link.phase = 0 ∧
  (∀ p, (State.reset.port p).state = 0) ∧ (∀ m, (State.reset.mb m).enable = false) ∧ (∀ i, State.reset.token i = {}) ∧ ∀ n, (State.reset.stream n).prio = 2 ∧ (State.reset.stream n).subs = []

/-- Every step keeps device memory, host memory, poison and the errors of memory words in their canonical form: addresses strictly rising, nothing
listed that equals what an unlisted address reads as. The form is the model's (assumption log 2 says what an unlisted byte reads as). -/
def Obligations.EveryStepKeepsMemoryCanonical : Prop :=
  ∀ (s t : State), s.memWf = true → step s = .next t → t.memWf = true

/-- R287 to R294: a command that is none of those that store leaves every byte of device memory, its poison and its errors as they were. -/
def Obligations.OtherCommandsLeaveMemory : Prop :=
  ∀ (i : Instr) (s t : State), mayStore i = false → exec i s = .next t →
    (∀ a, Memory.read t.mem a = Memory.read s.mem a) ∧ (∀ w, t.poisoned w = s.poisoned w) ∧ ∀ w, t.err w = s.err w

/-- R471, R472, R476, R483, R485: no command changes the fuses of the device's identity, its roots, its factory calibration or its certificates, and
MIN_SVN, the revoked slots and the leaf counter never go back, not by a reset either. -/
def Obligations.IdentityNeverChangesAndRollbackIsBarred : Prop :=
  ∀ (i : Instr) (s t : State), exec i s = .next t →
    t.sec.serial = s.sec.serial ∧ t.sec.part = s.sec.part ∧ t.sec.stepping = s.sec.stepping ∧ t.sec.roots = s.sec.roots ∧ t.sec.factoryFlash = s.sec.factoryFlash ∧
    t.sec.identity = s.sec.identity ∧ s.sec.minSvn ≤ t.sec.minSvn ∧ s.sec.revoked &&& t.sec.revoked = s.sec.revoked ∧ s.sec.leaf ≤ t.sec.leaf

/-- R468: FAULT_N falls, nothing more is admitted, the ports go down, every command in progress is answered, and the first cause stands; a device
error ends only with a reset of the device. -/
def Obligations.DeviceErrorEndsOnlyWithReset : Prop :=
  (∀ (s : State), s.flt.deviceError = false → s.bu.stwRunning = true → Completes .stewardWatchdogExpiry s (fun t => EntersDeviceError 1 s t)) ∧
  (∀ (s : State) (n : Nat), s.flt.deviceError = false → n = 2 ∨ n = 3 → Completes (.deviceFault n) s (fun t => EntersDeviceError n s t)) ∧
  (∀ (s : State), s.flt.deviceError = false → secOn s = true → Completes (.secSelfTest false) s (fun t => EntersDeviceError 6 s t)) ∧
  (∀ (s : State), s.bu.stwRunning = false → exec .stewardWatchdogExpiry s = .next s) ∧
  (∀ (s : State) (n : Nat), n ≠ 2 → n ≠ 3 → exec (.deviceFault n) s = .next s) ∧
  (∀ (i : Instr) (s t : State), s.flt.deviceError = true → exec i s = .next t → mayReset i = true ∨ (t.flt.deviceError = true ∧ t.flt.deCause = s.flt.deCause))

/-- R16, R19, R21, R95, R170, R256: the rows of a beat. A beat edge counts one beat, unless the device enters D3 or shuts down at it; while no beats
are counted it does nothing. The slice window's opening starts every group that may run; its end, and for groups with a member that reserves it the
calibration window's opening, end every slice. At a beat that is a multiple of 64 each field's trim round restarts. -/
def Obligations.BeatRowsAct : Prop :=
  (∀ (s : State) (refvOk : Bool), s.tim.counting = true →
    Completes (.beatEdge refvOk) s (fun t => t.pwr.state = 3 ∨ t.tim.beat = s.tim.beat + 1)) ∧
  (∀ (s : State) (refvOk : Bool), s.tim.counting = false → exec (.beatEdge refvOk) s = .next s) ∧
  (∀ (s : State) (o : Op) (p : GPos), o ∈ s.ops → o.code = 0x01 → p ∈ o.pos → p.on = false → mayRun s o p = true →
    Completes .sliceWindowOpen s (fun t => t.tim.t = 480 ∧ t.tim.everAdmitted = true ∧
      ∀ o' ∈ t.ops, o'.key = o.key → ∀ p' ∈ o'.pos, p'.root = p.root → p'.on = true)) ∧
  (∀ s : State, Completes .sliceWindowEnd s (fun t => t.tim.t = 10000 ∧ ∀ o ∈ t.ops, ∀ p ∈ o.pos, p.on = false)) ∧
  (∀ s : State, Completes .calibrationWindowOpen s (fun t => t.tim.t = 9904 ∧
    ∀ o ∈ t.ops, ∀ p ∈ o.pos, (o.members p.root).any (fun f => (s.field f).window) = true → p.on = false)) ∧
  (∀ s : State, s.tim.beat % 64 = 0 → Completes .trimRoundStart s (fun t => ∀ f, (t.field f).trimRound = 0))

/-- R39 to R42, R92 to R94, R109: the loaders and the planes of a field. The next tile enters the input buffer and its fill starts, to settle 64 ns
later, or waits for a live refresh; a settled fill is the shadow plane; a pending tile and an old shadow plane are filled again; a live refresh writes
the shadow plane and swaps at the edge; the planes of a group swap together at a symbol boundary, once every member's is ready, and carry no user
symbols for 2 ns. -/
def Obligations.LoadersFillAndSwapPlanes : Prop :=
  (∀ (s : State) (f t₀ : Nat) (o : Op) (p : GPos), wantTile s f = some (o, p) → (s.field f).bufFull = false → heldAny s (tileRanges s o p f) = false →
    Completes (.loaderBufferLoaded f t₀) s (fun t => (t.field f).bufFull = true ∧ (t.field f).inBuf.tile = tileKey o p ∧
      ((s.field f).refreshSwap = false → (t.field f).loaderBusy = true ∧ (t.field f).shadowReady = false ∧
        (t.field f).fillEnd = 10000 * s.tim.beat + t₀ + 640) ∧
      ((s.field f).refreshSwap = true → (t.field f).reloadPend = true) ∧ ∀ g, g ≠ f → t.field g = s.field g)) ∧
  (∀ (s : State) (f t₀ : Nat), (s.field f).bufFull = true → (s.field f).loaderBusy = true → (s.field f).refreshSwap = false →
    (s.field f).fillEnd ≤ 10000 * s.tim.beat + t₀ →
    Completes (.fillComplete f t₀) s (fun t => (t.field f).shadowReady = true ∧ (t.field f).shadow = (s.field f).inBuf ∧
      (t.field f).loaderBusy = false ∧ (t.field f).live = (s.field f).live ∧ ∀ g, g ≠ f → t.field g = s.field g)) ∧
  (∀ (s : State) (f : Nat), (s.field f).reloadPend = true → (s.field f).bufFull = true → (s.field f).refreshSwap = false →
    Completes (.pendingTileReload f) s (fun t => (t.field f).inBuf = convert s f (s.field f).inBuf ∧ (t.field f).reloadPend = false ∧
      (t.field f).shadowReady = false ∧ (t.field f).loaderBusy = true ∧ (t.field f).fillEnd = 10000 * s.tim.beat + 660 ∧
      (t.field f).live = (s.field f).live ∧ ∀ g, g ≠ f → t.field g = s.field g)) ∧
  (∀ (s : State) (f t₀ a : Nat), (s.field f).shadowReady = true → (s.field f).bufFull = true → (s.field f).shadowAt = some a →
    a + 19000 ≤ nowNs s t₀ → fieldState s f = 1 ∨ fieldState s f = 2 →
    Completes (.pendingRewrite f t₀) s (fun t => (t.field f).inBuf = convert { s with tim := { s.tim with t := t₀ } } f (s.field f).inBuf ∧
      (t.field f).shadowReady = false ∧ (t.field f).loaderBusy = true ∧ (t.field f).fillEnd = 10000 * s.tim.beat + t₀ + 640 ∧
      (t.field f).live = (s.field f).live ∧ ∀ g, g ≠ f → t.field g = s.field g)) ∧
  (∀ (s : State) (f : Nat), f < 32 → refreshDue s f = true → swapPlanned s f = false → (s.field f).refreshSwap = false →
    Completes (.liveRefresh f) s (fun t => (t.field f).refreshSwap = true ∧ (t.field f).shadow = refreshPlane s f ∧ (t.field f).loaderBusy = true ∧
      ((s.field f).bufFull = true → (t.field f).reloadPend = true) ∧ (t.field f).live = (s.field f).live ∧ ∀ g, g ≠ f → t.field g = s.field g)) ∧
  (∀ (s : State) (f t₀ : Nat) (o : Op) (p : GPos), (s.field f).slots.bind (opOf s) = some o → o.pos.find? (fun p => p.root == f) = some p →
    p.live = false → p.done = false → (o.tiled s p).all (tileReady s o p (max t₀ (slotTime s (o.members f)))) = true →
    Completes (.swap f t₀) s (fun t => (∀ g ∈ o.tiled s p, (t.field g).live = (s.field g).shadow ∧ (t.field g).drvStore = (s.field g).shadow.drives) ∧
      (∀ g ∈ o.members f, (t.field g).darkTo = 10000 * s.tim.beat + (t.field g).slotT + 20) ∧
      (∀ g, g ∉ o.members f → g ∉ o.tiled s p → t.field g = s.field g) ∧
      ∀ o' ∈ t.ops, o'.key = o.key → ∀ p' ∈ o'.pos, p'.root = f → p'.live = true)) ∧
  (∀ (s : State) (f t₀ : Nat) (o : Op) (p : GPos), (s.field f).slots.bind (opOf s) = some o → o.pos.find? (fun p => p.root == f) = some p →
    p.live = false → p.done = false → (o.tiled s p).all (tileReady s o p (max t₀ (slotTime s (o.members f)))) = false →
    Completes (.swap f t₀) s (fun t => t.ops = s.ops ∧ ∀ g, (t.field g).live = (s.field g).live))

/-- R20, R52, R88, R101 to R112, R170: a symbol slot. A field that no running op holds takes calibration or dark symbols and counts the slot; in a
group that holds its slots a slot inside its slice feeds the modulators, judges every sample and runs the tree and the accumulator, and writes no
accumulator row but its own; a starved slot, and one outside the slice or its tile, moves nothing of the op. A slot that does not fit the beat is
none. -/
def Obligations.SymbolSlotRuns : Prop :=
  (∀ (s : State) (f : Nat) (starved : Bool) (l : List Sample), slotGroup s f = some ([f], none) → (s.field f).slotT + (s.field f).slotLen ≤ 10000 →
    Completes (.symbolSlot f starved l) s (fun t => (t.field f).symIdx = (s.field f).symIdx + 1 ∧ (t.field f).smpIdx = (s.field f).smpIdx + (s.field f).slotLen ∧
      (t.field f).slotT = (s.field f).slotT + (s.field f).slotLen ∧ t.acc = s.acc ∧ t.ops = s.ops ∧ t.mem = s.mem)) ∧
  (∀ (s : State) (f : Nat) (l : List Sample) (o : Op) (p : GPos) (fs : List Nat) (t len : Nat), slotGroup s f = some (fs, some (o, p)) →
    t = slotTime s fs → len = fs.foldl (fun m g => max m (s.field g).slotLen) 1 → t + len ≤ 10000 → userSlot (fs.foldl (advanceSlots t) s) fs p t len = true →
    exec (.symbolSlot f false l) s =
      .next (let s₀ := feedSlot o p (fs.foldl (advanceSlots t) s)
             let x := fs.flatMap (judgeField s₀ l)
             tickSlots fs (runSlot o p l s₀ (openTaints x (fs.foldl (noteField s₀ x) s₀))))) ∧
  (∀ (s : State) (f : Nat) (l : List Sample) (o : Op) (p : GPos) (fs : List Nat) (t len : Nat), slotGroup s f = some (fs, some (o, p)) → s.errs = [] → (∀ g ∈ o.rm.colours, g < 4) →
    t = slotTime s fs → len = fs.foldl (fun m g => max m (s.field g).slotLen) 1 → t + len ≤ 10000 → userSlot (fs.foldl (advanceSlots t) s) fs p t len = true →
    Completes (.symbolSlot f false l) s (fun u => u.mem = s.mem ∧
      ∀ k, k / 1024 ≠ p.root * 2048 + o.accRow p (o.slotWork (pairsFor s o fs) p).2 → u.accCell k = s.accCell k)) ∧
  (∀ (s : State) (f : Nat) (starved : Bool) (l : List Sample) (o : Op) (p : GPos) (fs : List Nat) (t len : Nat), slotGroup s f = some (fs, some (o, p)) →
    t = slotTime s fs → len = fs.foldl (fun m g => max m (s.field g).slotLen) 1 → t + len ≤ 10000 →
    starved = true ∨ p.on = false ∨ p.live = false ∨ t < 480 ∨ windowEnd s fs < t + len →
    Completes (.symbolSlot f starved l) s (fun u => u.ops = s.ops ∧ u.acc = s.acc ∧ u.mem = s.mem ∧
      ∀ g ∈ fs, (s.field g).symIdx < (u.field g).symIdx)) ∧
  (∀ (s : State) (f : Nat) (starved : Bool) (l : List Sample), slotGroup s f = some ([f], none) → 10000 < (s.field f).slotT + (s.field f).slotLen →
    exec (.symbolSlot f starved l) s = .next s)

/-- R31, R36, R49, R96, R101: at 10 GBd the output code of a sample that does not overrange is the column's sum of cell field times input code, scaled
to code products and divided by the calibrated gain, to within 17/16 code (two roundings to a code and one to 1/16), when neither the light nor the
analogue path departs from calibration (assumption log 54). How a sample stands on its light is the model's reading (assumption log 54). -/
def Obligations.MatrixProductWithinRounding : Prop :=
  ∀ (s : State) (l : List Sample) (f c g : Nat) (G n : Int), G = (columnCal s f c g).2.1 → 0 < G → (s.field f).slow = false →
    sampleErr l f c g = (0, 0) → gainExcess s (portOfField f) g = 0 → bandOffset s f c g = 0 →
    outputCode false (rawCodes s l f c g) (corrected s f c g (rawCodes s l f c g)) = (n, false) →
    -(17 * (9 * G * 2 ^ 48)) ≤ 16 * (n * (9 * G * 2 ^ 48) - 1270 * columnSum s f c g) ∧
    16 * (n * (9 * G * 2 ^ 48) - 1270 * columnSum s f c g) ≤ 17 * (9 * G * 2 ^ 48)

/-- R101, R102, R104, R105: the output code lies within ±511, and a code of ±511 is a clip: it comes with the overrange, and an overrange always
carries it. An overrange opens or restarts the taint window of its octet and colour, to the 24th slot after it; a sample inside a window adds as zero
with its taint mark. -/
def Obligations.OverrangeIsClippedAndTaintsItsOctet : Prop :=
  ((∀ (slow : Bool) (raw : Int × Int) (v : Int), -511 ≤ (outputCode slow raw v).1 ∧ (outputCode slow raw v).1 ≤ 511 ∧
    ((outputCode slow raw v).2 = true ↔ (outputCode slow raw v).1 = 511 ∨ (outputCode slow raw v).1 = -511)) ∧
  (∀ (slow : Bool) (a b v : Int), 511 ≤ a → outputCode slow (a, b) v = (511, true)) ∧
  (∀ (slow : Bool) (a b v : Int), a ≤ -512 → outputCode slow (a, b) v = (-511, true)) ∧
  (∀ (a b v : Int), -512 < a → a < 511 → 511 ≤ b → outputCode true (a, b) v = (511, true) ∧ (outputCode false (a, b) v = outputCode false (a, 0) v))) ∧
  (∀ (s : State) (l : List TreeIn) (x : TreeIn), x ∈ l → x.o = true →
    (∀ y ∈ l, y.o = true → octetKey y.f y.c y.g = octetKey x.f x.c x.g → y.f = x.f) →
    ((openTaints l s).taint (octetKey x.f x.c x.g)).upTo = (s.field x.f).symIdx + 25) ∧
  (∀ (s : State) (l : List TreeIn) (k : Nat), (∀ y ∈ l, y.o = true → octetKey y.f y.c y.g ≠ k) → (openTaints l s).taint k = s.taint k) ∧
  (∀ (s : State) (l : List Sample) (f c g : Nat) (y : Int × Bool), inTaint s f c g = true → outputCode (s.field f).slow (rawCodes s l f c g) (corrected s f c g (rawCodes s l f c g)) = y →
    (judge s l f c g).v = 0 ∧ (judge s l f c g).t = true ∧ (judge s l f c g).o = y.2) ∧
  (∀ (s : State) (l : List Sample) (f c g : Nat) (y : Int × Bool), inTaint s f c g = false → outputCode (s.field f).slow (rawCodes s l f c g) (corrected s f c g (rawCodes s l f c g)) = y →
    (judge s l f c g).v = y.1 ∧ (judge s l f c g).t = false ∧ (judge s l f c g).o = y.2)

/-- R112: an accumulator write either initialises a cell with the tree's output and flags or adds them: the value wraps in 32 bits, and each flag
sticks. No other cell changes, and nothing but the accumulator. -/
def Obligations.AccumulatorInitialisesOrAdds : Prop :=
  ∀ (s : State) (key : Nat) (v : AccCell),
    (accWrite true key v s).accCell key = v ∧
    ((accWrite false key v s).accCell key).val = signed 32 (image 32 ((s.accCell key).val + v.val)) ∧
    (((accWrite false key v s).accCell key).T = ((s.accCell key).T || v.T) ∧ ((accWrite false key v s).accCell key).O = ((s.accCell key).O || v.O) ∧
      ((accWrite false key v s).accCell key).P = ((s.accCell key).P || v.P)) ∧
    (∀ (init : Bool) (j : Nat), j ≠ key → (accWrite init key v s).accCell j = s.accCell j) ∧
    (∀ init : Bool, { accWrite init key v s with acc := s.acc } = s)

/-- R67, R74, R75, R77, R79, R81, R85: the rows of a light fade and of a light pause. A fall or a tripped comparator starts a fade; a pause starts for
every requested port and ends every slice, a settled port is served by its new source, and the quick gain is the last step of a port. -/
def Obligations.LightRowsAct : Prop :=
  (∀ (s : State) (n g : Nat), (s.lcol (4 * n + g)).level ≠ 0 → 1000 ≤ (s.lcol (4 * n + g)).short →
    Completes (.fadeLevelFall n g) s (fun t =>
      (t.lcol (4 * n + g)).level = (if 2 < (s.lcol (4 * n + g)).level ∧ 170 < (s.lcol (4 * n + g)).maxD then 2
        else if 1 < (s.lcol (4 * n + g)).level ∧ 70 < (s.lcol (4 * n + g)).maxD then 1 else 0) ∧
      (t.lcol (4 * n + g)).short = 0 ∧ t = s.setLcol (4 * n + g) (t.lcol (4 * n + g)))) ∧
  (∀ (s : State) (n g : Nat), n < 8 → g < 4 → (s.lcol (4 * n + g)).p0.isSome = true → (s.lport n).source = 0 →
    Completes (.fadeComparatorTrip n g) s (fun t => (t.lcol (4 * n + g)).comparator = true ∧ (t.lcol (4 * n + g)).level = max 2 (s.lcol (4 * n + g)).level ∧
      ∀ o' ∈ t.ops, ∀ o ∈ s.ops, o'.key = o.key → o.pos.any (fun p => (p.ranIn s.tim.beat).getLsbD g && (List.range (2 ^ o.shapeRun)).any (fun m => decide ((p.root + m) / 4 = n))) = true →
        (∀ q ∈ s.ops, q.key = o.key → q = o) → o'.flags.getLsbD fLight = true)) ∧
  (∀ (s : State) (x g : Nat), (s.lcol (4 * (8 + x) + g)).p0.isSome = true → (s.relay x).state ≠ 3 →
    Completes (.fadeComparatorTrip (8 + x) g) s (fun t => (t.relay x).tripped = true ∧ (t.relay x).state = 0 ∧ (t.relay x).port = none ∧
      (t.lcol (4 * (8 + x) + g)).near = 0)) ∧
  (∀ (s : State) (x : Nat), (∀ g, g < 4 → 1000 ≤ (s.lcol (4 * (8 + x) + g)).near) →
    Completes (.relayRecovered x) s (fun t => (t.relay x).tripped = false ∧ t = s.setRelay x (t.relay x))) ∧
  (∀ (s : State) (x : Nat), (s.relay x).state = 1 → (s.relay x).port.isSome = true → routeConfirmed s x = true →
    Completes (.relayPrelockDone x) s (fun t => (t.relay x).state = 2 ∧ (t.relay x).port = (s.relay x).port ∧
      ∀ k, (s.relay x).cmd = some k → Answered s t k {})) ∧
  (∀ s : State, s.light.pauseReq = true →
    Completes .lightPauseStart s (fun t => t.light.pause = true ∧ t.light.pauseReq = false ∧
      (∀ o ∈ t.ops, ∀ p ∈ o.pos, p.on = false) ∧ (∀ n, n < 8 → (s.lport n).sw = 1 → (t.lport n).sw = 2) ∧ t.fields = s.fields ∧ t.mem = s.mem)) ∧
  (∀ (s : State) (n : Nat), (s.lport n).sw = 2 → (s.lport n).swTo = 0 ∨ ((s.relay ((s.lport n).swTo - 1)).port = some n ∧ relayAvail s ((s.lport n).swTo - 1) = true) →
    Completes (.relaySettled n) s (fun t => (t.lport n).sw = 3 ∧ (t.lport n).source = (s.lport n).swTo ∧ (t.lport n).settledAt = s.tim.beat ∧
      (∀ g, g < 4 → (t.lcol (4 * n + g)).level = 0) ∧ (∀ m, m ≠ n → t.lport m = s.lport m) ∧ t.ops = s.ops ∧ t.mem = s.mem)) ∧
  (∀ (s : State) (n : Nat), (s.lport n).sw = 2 → (s.lport n).swTo ≠ 0 → (s.relay ((s.lport n).swTo - 1)).port ≠ some n ∨ relayAvail s ((s.lport n).swTo - 1) = false →
    switchTarget s n = none → Completes (.relaySettled n) s (fun t => (t.lport n).sw = 3 ∧ (t.lport n).source = (s.lport n).source ∧ t.ops = s.ops)) ∧
  (∀ (s : State) (n : Nat), n < 8 → (s.lport n).sw = 3 →
    (∀ f ∈ fieldsOfPort n, ∀ b, b < 8 → (s.band (8 * f + b)).qg ≠ 1 ∨ bandOut s (8 * f + b) = true) ∨ (s.lport n).settledAt + 60 ≤ s.tim.beat →
    Completes (.quickGainDone n) s (fun t => t = s.setLport n { s.lport n with sw := 4 })) ∧
  (∀ s : State, s.light.pause = true → (∀ n, n < 8 → (s.lport n).sw = 0 ∨ (s.lport n).sw = 5) →
    Completes .lightPauseEnd s (fun t => t.light.pause = false ∧ (∀ n, n < 8 → (t.lport n).sw = 0) ∧ t.fields = s.fields ∧ t.mem = s.mem))

/-- R64, R68 to R71, R77, R79, R85, R404: the light commands. Commissioning moves the scale of every tap by what the payload states of the reflected
power, stores every lit port's readings as P0 and its LO taps as references, with their trace, and takes every compensation to zero; an assigned relay
starts to warm; a switch and a release ask for a light pause. The last three answer later. -/
def Obligations.LightCommandsRun : Prop :=
  (∀ (s : State) (k : Nat) (c : Cmd) (refl delta : Int), Taken s k 0x0302 c → c.at 16 1 ≤ 1 → c.at 17 1 ≤ 3 → -1000 ≤ signed 16 (c.at 18 2) → signed 16 (c.at 18 2) ≤ 0 → c.at 20 44 = 0 →
    delta = (if bit (c.at 16 1) 0 then signed 16 (c.at 18 2) - refl else 0) → sliceAdmitted s = false →
    (∀ i, i < 80 → calInRange s (kLight i) (calFactory s (kLight i) + delta) = true) →
    (∀ n g, n < 10 → g < 4 → portLit s delta n = true → 1900 ≤ scaledReading s delta n g ∧ scaledReading s delta n g ≤ 2300) →
    Completes (.lightCommission k refl) s (fun t => Answered s t k {} ∧
      (∀ n g, n < 10 → g < 4 → portLit s delta n = true → (t.lcol (4 * n + g)).p0 = some (scaledReading s delta n g) ∧ (t.lport n).traceRefl = bit (c.at 16 1) 0 ∧
        (n < 8 → (t.lcol (4 * n + g)).loRef = (s.lcol (4 * n + g)).loTap + scaleShift s delta (32 + 4 * n + g))) ∧
      (∀ i, i < 32 → (t.lcol i).comp = 0) ∧ (∀ i, i < 80 → tget 0 t.cal.user (kLight i) = delta) ∧
      t = { s with cmds := t.cmds, lcols := t.lcols, lports := t.lports, loops := t.loops, cal := { s.cal with user := t.cal.user },
                   sec := { s.sec with lightStore := t.sec.lightStore } })) ∧
  (∀ (s : State) (k : Nat) (c : Cmd) (x n : Nat), Taken s k 0x0303 c → c.at 16 1 = x → c.at 17 1 = n → x < 2 → n < 8 → c.at 18 46 = 0 →
    relayFree s x = true →
    Completes (.lightRelayAssign k) s (fun t => Waiting t k ∧ t.relay x = { s.relay x with port := some n, state := 1, cmd := some k } ∧
      t = { s with cmds := t.cmds, relays := (s.setRelay x (t.relay x)).relays })) ∧
  (∀ (s : State) (k : Nat) (c : Cmd) (x n : Nat), Taken s k 0x0304 c → c.at 16 1 = 0 → c.at 17 1 = n → n < 8 → c.at 18 46 = 0 →
    (s.lport n).sw = 0 → x < 2 → (s.relay x).port = some n → (s.relay x).state = 2 → (x = 1 → (s.relay 0).port ≠ some n) →
    Completes (.lightRelaySwitch k) s (fun t => Waiting t k ∧ t.light = { s.light with pauseReq := true } ∧
      t.lport n = { s.lport n with sw := 1, swTo := 1 + x, swFrom := (s.lport n).source, swCmd := some k } ∧
      t = { s with cmds := t.cmds, light := t.light, lports := (s.setLport n (t.lport n)).lports })) ∧
  (∀ (s : State) (k : Nat) (c : Cmd) (n : Nat), Taken s k 0x0305 c → c.at 16 1 = 0 → c.at 17 1 = n → n < 8 → c.at 18 46 = 0 →
    (s.lport n).sw = 0 → (s.lport n).source ≠ 0 → notBelowP0 s n 50 = true →
    Completes (.lightRelayRelease k) s (fun t => Waiting t k ∧ t.light = { s.light with pauseReq := true } ∧
      t.lport n = { s.lport n with sw := 1, swTo := 0, swFrom := (s.lport n).source, swCmd := some k } ∧
      t = { s with cmds := t.cmds, light := t.light, lports := (s.setLport n (t.lport n)).lports }))

/-- R121 to R133: a slot of a monitor converter ends. Its result saturates at the ends of its range, with OVER beyond them, stands as the beat's
sample of its input, and is its latest; an injected slot's is delivered at once, a regular slot's in the last frame of its window; that of a diode
stands at its current (R123); an input that is not wired gives 0. -/
def Obligations.MonitorSlotsDeliver : Prop :=
  (∀ (s : State) (k i : Nat) (v x : Int), (s.mon k).injRun = true → (s.mon k).selfTest = false →
    (s.mon k).injSlot < (s.mon k).aInjLen → bits (s.mon k).aInj.toNat (5 * (s.mon k).injSlot) 5 = i → x = (if monWired k i then v else 0) →
    Completes (.monitorSlotEnd k v) s (fun t => (t.mon k).injSlot = (s.mon k).injSlot + 1 ∧ (t.mon k).injBeat = s.tim.beat ∧
      t.monLast (32 * k + i) = { result := saturate x, valid := true, ovr := overRange x, inj := true, samples := addSample s.tim.beat (saturate x) (s.monLast (32 * k + i)).samples,
                                  low := if diodeInput k i then some (s.tim.beat, saturate x) else (s.monLast (32 * k + i)).low, high := (s.monLast (32 * k + i)).high } ∧
      (∀ j, j ≠ 32 * k + i → t.monLast j = s.monLast j) ∧ ∀ j, j ≠ k → t.mon j = s.mon j)) ∧
  (∀ (s : State) (k i : Nat) (v x : Int) (hi : Bool), (s.mon k).injRun = false → (s.mon k).aEnable = true → (s.mon k).resume = true →
    (s.mon k).nextSlot ≤ (s.mon k).aSeqLen → s.tim.beat % (s.mon k).window = (s.mon k).window - 1 →
    (s.mon k).winFrom + ((s.mon k).window - 1) ≤ s.tim.beat → (s.mon k).winMiss.contains (s.mon k).nextSlot = false →
    bits (tget 0 (s.mon k).aSeq (s.mon k).nextSlot).toNat 0 5 = i → hi = (diodeInput k i && bit (tget 0 (s.mon k).aSeq (s.mon k).nextSlot).toNat 5) → x = (if monWired k i then v else 0) →
    Completes (.monitorSlotEnd k v) s (fun t => t.mon k = { s.mon k with nextSlot := (s.mon k).nextSlot + 1 } ∧
      t.monLast (32 * k + i) = { result := saturate x, valid := true, ovr := overRange x, inj := false, samples := addSample s.tim.beat (saturate x) (s.monLast (32 * k + i)).samples,
                                  low := if diodeInput k i && !hi then some (s.tim.beat, saturate x) else (s.monLast (32 * k + i)).low,
                                  high := if hi then some (s.tim.beat, saturate x) else (s.monLast (32 * k + i)).high } ∧
      (∀ j, j ≠ 32 * k + i → t.monLast j = s.monLast j) ∧ ∀ j, j ≠ k → t.mon j = s.mon j)) ∧
  (∀ (s : State) (k : Nat) (v : Int), (s.mon k).injRun = false → (s.mon k).aEnable = true → (s.mon k).resume = true →
    (s.mon k).nextSlot ≤ (s.mon k).aSeqLen → s.tim.beat % (s.mon k).window ≠ (s.mon k).window - 1 →
    exec (.monitorSlotEnd k v) s = .next (s.setMon k { s.mon k with nextSlot := (s.mon k).nextSlot + 1 })) ∧
  (∀ v : Int, (saturate v).toInt = (if v < -(2 ^ 23) then -(2 ^ 23) else if 2 ^ 23 - 1 < v then 2 ^ 23 - 1 else v) ∧
    (overRange v = true ↔ v < -(2 ^ 23) ∨ 2 ^ 23 < v))

/-- R129: a trigger that finds its injected sequence running is kept as pending, merges with one that is, and aborts nothing; the sequence then runs
once more, immediately after the running one's last slot. -/
def Obligations.TriggerDuringInjectedRunWaits : Prop :=
  (∀ (s : State) (k trig : Nat), (s.mon k).aEnable = true → (s.mon k).aTrig.getLsbD trig = true → (s.mon k).injRun = true → (s.mon k).selfTest = false →
    Completes (.monitorInjectTrigger k trig) s (fun t => t.mon k = { s.mon k with injPend := true } ∧ t = { s with mons := t.mons } ∧
      (∀ j, j ≠ k → t.mon j = s.mon j) ∧ exec (.monitorInjectTrigger k trig) t = .next t)) ∧
  (∀ (s : State) (k : Nat) (v : Int), (s.mon k).injRun = true → (s.mon k).selfTest = false →
    (s.mon k).injSlot = (s.mon k).aInjLen → (s.mon k).injPend = true →
    Completes (.monitorSlotEnd k v) s (fun t => t.mon k = { s.mon k with injSlot := 0, injPend := false, injBeat := s.tim.beat })) ∧
  (∀ (s : State) (k : Nat) (v : Int), (s.mon k).injRun = true → (s.mon k).selfTest = false →
    (s.mon k).injSlot = (s.mon k).aInjLen → (s.mon k).injPend = false →
    Completes (.monitorSlotEnd k v) s (fun t => (t.mon k).injRun = false))

/-- R126 to R128, R134, R135, R137: the writes that stage a converter's mode and inputs, the triggers, the self-test and the monitor ring's switch. A
write changes staged values only: what is in force stays. A trigger starts the injected sequence and ends a running self-test; a self-test puts its
test voltage up, its sign by the parity of the runs. -/
def Obligations.MonitorWritesAct : Prop :=
  (∀ (s : State) (k : Nat) (w : BitVec 32),
    Completes (.monCommitWrite k w) s (fun t => t.mon k = { s.mon k with
        enable := w.getLsbD 0, fine := w.getLsbD 1, lowpwr := w.getLsbD 2, ringEn := w.getLsbD 3
        seqLen := bits w.toNat 4 5, injLen := bits w.toNat 9 2, commitPend := (s.mon k).commitPend || w.getLsbD 11 } ∧
      t = s.setMon k (t.mon k))) ∧
  (∀ (s : State) (k : Nat) (w : BitVec 32), (w.getLsbD 23 && (s.mon k).aEnable && (s.mon k).aTrig.getLsbD 2) = false →
    Completes (.monHostInjectWrite k w) s (fun t =>
      t.mon k = { s.mon k with inj := w.extractLsb' 0 20, trig := w.extractLsb' 20 3 } ∧ t = s.setMon k (t.mon k))) ∧
  (∀ (s : State) (k : Nat) (w : BitVec 32), w.getLsbD 23 = true → (s.mon k).aEnable = true → (s.mon k).aTrig.getLsbD 2 = true →
    (s.mon k).injRun = false →
    Completes (.monHostInjectWrite k w) s (fun t => (t.mon k).injRun = true ∧ (t.mon k).injSlot = 0 ∧ (t.mon k).selfTest = false ∧
      (t.mon k).inj = w.extractLsb' 0 20 ∧ (t.mon k).trig = w.extractLsb' 20 3 ∧ (t.mon k).aInj = (s.mon k).aInj)) ∧
  (∀ (s : State) (k trig : Nat), (s.mon k).aEnable = true → (s.mon k).aTrig.getLsbD trig = true → (s.mon k).injRun = false → (s.mon k).selfTest = false →
    Completes (.monitorInjectTrigger k trig) s (fun t => (t.mon k).injRun = true ∧ (t.mon k).injSlot = 0 ∧ (t.mon k).selfTest = false ∧
      (t.mon k).resume = false ∧ (t.mon k).aInj = (s.mon k).aInj ∧ (t.mon k).injBeat = s.tim.beat ∧
      ((s.mon k).resume = true → (t.mon k).skip = min 0xFFFF ((s.mon k).skip + ((s.mon k).aSeqLen + 1 - (s.mon k).nextSlot))) ∧
      t = s.setMon k (t.mon k))) ∧
  (∀ (s : State) (k trig : Nat), (s.mon k).aEnable = true → (s.mon k).aTrig.getLsbD trig = true → (s.mon k).injRun = true → (s.mon k).selfTest = true →
    Completes (.monitorInjectTrigger k trig) s (fun t => (t.mon k).injRun = true ∧ (t.mon k).injSlot = 0 ∧ (t.mon k).selfTest = false ∧
      (t.mon k).injPend = (s.mon k).injPend ∧ (t.field (k % 32)).testV = 0)) ∧
  (∀ (s : State) (k trig : Nat), (s.mon k).aEnable = false ∨ (s.mon k).aTrig.getLsbD trig = false → exec (.monitorInjectTrigger k trig) s = .next s) ∧
  (∀ (s : State) (k : Nat), (s.mon k).injRun = false →
    Completes (.monitorSelftestRun k) s (fun t => (t.mon k).injRun = true ∧ (t.mon k).selfTest = true ∧ (t.mon k).injSlot = 0 ∧ (t.mon k).selfPass = true ∧
      (t.field (k % 32)).testV = (if (s.mon k).selfRuns % 2 = 0 then 1 else -1) ∧ (∀ j, j ≠ k → t.mon j = s.mon j) ∧ t = { s with mons := t.mons, fields := t.fields })) ∧
  (∀ (s : State) (k : Nat), (s.mon k).injRun = true → Completes (.monitorSelftestRun k) s (fun t => ∀ j, t.mon j = s.mon j)) ∧
  (∀ (s : State) (w : BitVec 32) (sz : Nat), s.ring.on = false → w.getLsbD 0 = true → sz = (if bits w.toNat 1 5 < 10 ∨ 18 < bits w.toNat 1 5 then s.ring.sizeLog2 else bits w.toNat 1 5) →
    64 * s.ring.base + 8 * 2 ^ sz ≤ 16777216 →
    exec (.monRingOnWrite w) s = .next { s with ring := { s.ring with sizeLog2 := sz, on := true, wr := 0, rd := 0, drop := 0 } }) ∧
  (∀ (s : State) (w : BitVec 32) (sz : Nat), s.ring.on = false → w.getLsbD 0 = true → sz = (if bits w.toNat 1 5 < 10 ∨ 18 < bits w.toNat 1 5 then s.ring.sizeLog2 else bits w.toNat 1 5) →
    16777216 < 64 * s.ring.base + 8 * 2 ^ sz →
    exec (.monRingOnWrite w) s = .next { s with ring := { s.ring with sizeLog2 := sz, cfgErr := true, drop := 0 } }) ∧
  (∀ (s : State) (w : BitVec 32), s.ring.on = true →
    exec (.monRingOnWrite w) s = .next { s with ring := { s.ring with on := w.getLsbD 0, drop := if w.getLsbD 0 then 0 else s.ring.drop } })

/-- R151, R158: the coolant reading and a thermal pause. COOLPWM reads in 1/256 °C as T = 112.5·(D − 0.10), and a window outside 0.10 to 0.90 leaves
the last value; a pause is asked for when the field's slew exceeds 60 °C/ms, and ends after 5 beats once every band has relocked, or at 20 beats. -/
def Obligations.CoolantAndThermalPauseAct : Prop :=
  (∀ (s : State) (high : Nat), s.eng.src = 2 → 6400 ≤ high → high ≤ 57600 →
    Completes (.coolpwmWindow high) s (fun t => t.eng.coolT = roundEven (28800 * ((high : Int) - 6400)) 64000 ∧ t.eng.bad = false ∧
      t.eng.pwmLost = false ∧ t = { s with eng := t.eng, hostMem := t.hostMem, mbs := t.mbs, stw := t.stw } ∧
      (s.eng.bad = false → t = { s with eng := t.eng }))) ∧
  (∀ (s : State) (high : Nat), s.eng.src = 2 → high < 6400 ∨ 57600 < high →
    Completes (.coolpwmWindow high) s (fun t => t.eng.coolT = s.eng.coolT ∧ t.eng.bad = true ∧ t.eng.pwmLost = s.eng.pwmLost)) ∧
  (∀ s : State, s.eng.src = 2 →
    Completes .coolantPwmLost s (fun t => t.eng.pwmLost = true ∧ t.eng.bad = true ∧ t.eng.coolT = s.eng.coolT ∧
      (s.eng.pwmLost = false → t = post 0x0905 [] { s with eng := t.eng }))) ∧
  (∀ (s : State) (high : Nat), s.eng.src ≠ 2 → exec (.coolpwmWindow high) s = .next s ∧ exec .coolantPwmLost s = .next s) ∧
  (∀ high : Nat, 6400 ≤ high → high ≤ 57600 → 0 ≤ roundEven (28800 * ((high : Int) - 6400)) 64000 ∧
    roundEven (28800 * ((high : Int) - 6400)) 64000 ≤ 90 * 256) ∧
  (∀ (s : State) (f : Nat), f < 32 → 7864 < (s.field f).slew → (s.field f).thPause = false →
    exec (.thermalPauseStart f) s = .next (s.setField f { s.field f with thPauseReq := true })) ∧
  (∀ (s : State) (f : Nat), (s.field f).slew ≤ 7864 → exec (.thermalPauseStart f) s = .next s) ∧
  (∀ (s : State) (f : Nat), (s.field f).thPause = true → (s.field f).thPauseAt + 5 ≤ s.tim.beat →
    (∀ b, b < 8 → bandInService s f b = true → bandLocked s f b = true) →
    exec (.thermalPauseEnd f) s = .next (post 0x0902 (leBytes 1 f ++ leBytes 2 (s.tim.beat - (s.field f).thPauseAt))
      (s.setField f { s.field f with thPause := false }))) ∧
  (∀ (s : State) (f b : Nat), (s.field f).thPause = true → (s.field f).thPauseAt + 20 ≤ s.tim.beat → b < 8 → bandInService s f b = true →
    bandLocked s f b = false →
    Completes (.thermalPauseEnd f) s (fun t => (t.field f).thPause = false ∧ (t.band (8 * f + b)).queue = [1] ∧ (t.band (8 * f + b)).proc = 0)) ∧
  (∀ (s : State) (f : Nat), s.tim.beat < (s.field f).thPauseAt + 5 → exec (.thermalPauseEnd f) s = .next s)

/-- R142 to R144, R147, R155: the loop law. The error and each stored value saturate at their width, a loop at a limit that ki·e pushes further keeps
its integral, the output keeps within the limits and within SLEW of the one before, the D filter moves only with D_EN, and a pending bumpless preset
gives back the held output. -/
def Obligations.LoopLawKeepsLimits : Prop :=
  (∀ (c k : LoopSlot) (r tSp y n ff tOut : Int) (acq : Nat),
    (loopLaw c k r tSp y n ff tOut acq).ePrev = sat16 (r + tSp - y) ∧
    (c.slew = 0 → c.outMin.toInt ≤ c.outMax.toInt →
      c.outMin.toInt ≤ (loopLaw c k r tSp y n ff tOut acq).out ∧ (loopLaw c k r tSp y n ff tOut acq).out ≤ c.outMax.toInt) ∧
    (c.slew ≠ 0 → (loopLaw c k r tSp y n ff tOut acq).out ≤ k.out + c.slew.toNat ∧ k.out - c.slew.toNat ≤ (loopLaw c k r tSp y n ff tOut acq).out) ∧
    -(2 ^ 39) ≤ (loopLaw c { k with integ := sat40 k.integ } r tSp y n ff tOut acq).integ ∧
    (loopLaw c { k with integ := sat40 k.integ } r tSp y n ff tOut acq).integ < 2 ^ 39 ∧
    (k.preset = false → k.out = c.outMax.toInt → 0 < coefMul c.ki acq (sat16 (r + tSp - y)) → (loopLaw c k r tSp y n ff tOut acq).integ = k.integ) ∧
    (k.preset = false → k.out = c.outMin.toInt → coefMul c.ki acq (sat16 (r + tSp - y)) < 0 → (loopLaw c k r tSp y n ff tOut acq).integ = k.integ) ∧
    (c.dEn = false → (loopLaw c k r tSp y n ff tOut acq).df = k.df) ∧
    (loopLaw c k r tSp y n ff tOut acq).preset = false) ∧
  (∀ (c k : LoopSlot) (r y n ff : Int) (acq : Nat), k.preset = true → c.outMin.toInt ≤ k.out → k.out ≤ c.outMax.toInt →
    sat40 (k.out * 2 ^ 15 - (lawTerms c k acq (sat16 (r - y))).1 - (lawTerms c k acq (sat16 (r - y))).2.2 - ff * 2 ^ 15) =
      k.out * 2 ^ 15 - (lawTerms c k acq (sat16 (r - y))).1 - (lawTerms c k acq (sat16 (r - y))).2.2 - ff * 2 ^ 15 →
    (loopLaw c k r 0 y n ff 0 acq).out = k.out)

/-- R72 to R74, R77, R138 to R145, R147 to R149, R159, R161, R162: a computation of a loop slot, once a beat. A slot that is frozen, held, without a
sample or failed keeps its output, integral, D filter and previous error; every other takes what the law gives from its sample, and an LO tap's output
drives the compensation, a source tap's sample the fade level, a pre-lock loop's output PRELOCK. The writes of a loop slot's first word and of the
test control word, and the end of a full capture. -/
def Obligations.LoopSlotsComputeAndAreWritten : Prop :=
  (∀ (s : State) (n : Nat) (y : Int) (st : InputState), 8192 ≤ n ∨ s.eng.run = false ∨ loopIdle s n = true ∨ (s.loop n).slotBeat = some s.tim.beat →
    exec (.loopSlotCompute n y st) s = .next s) ∧
  (∀ (s : State) (n : Nat) (y : Int) (st : InputState), n < 8192 → s.eng.run = true → loopIdle s n = false → (s.loop n).slotBeat ≠ some s.tim.beat →
    (s.loop n).frozen = true ∨ loopHeld s n = true ∨ (inputOf s n y st).2 ≠ .fresh →
    Completes (.loopSlotCompute n y st) s (fun t => (t.loop n).slotBeat = some s.tim.beat ∧ ∀ j, j < driveKey 0 → (t.loop j).out = (s.loop j).out ∧ (t.loop j).integ = (s.loop j).integ ∧
      (t.loop j).df = (s.loop j).df ∧ (t.loop j).ePrev = (s.loop j).ePrev)) ∧
  (∀ (s : State) (n key : Nat) (y : Int) (st : InputState) (x : LoopSlot), n < 8192 → s.eng.run = true → loopIdle s n = false → (s.loop n).slotBeat ≠ some s.tim.beat →
    (s.loop n).frozen = false → loopHeld s n = false → (inputOf s n y st).2 = .fresh → tapHolds s n = false → key = loopKey n s.tim.beat →
    x = (lawOf s n (sat16 (inputOf s n y st).1)).1 →
    Completes (.loopSlotCompute n y st) s (fun t => (t.loop key).out = x.out ∧ (t.loop key).integ = x.integ ∧
      (t.loop key).df = x.df ∧ (t.loop key).ePrev = x.ePrev ∧ (t.loop key).lastBeat = some s.tim.beat ∧
      (∀ j, j < driveKey 0 → j ≠ n → j ≠ key → t.loop j = s.loop j) ∧
      (slotKind s n = 5 → 32 ≤ slotTap n → slotTap n < 64 → (t.lcol (slotTap n - 32)).comp = stepsOf x.out) ∧
      (slotKind s n = 5 → slotTap n < 32 → (s.lport (slotTap n / 4)).source = 0 →
        (t.lcol (slotTap n)).level = max (s.lcol (slotTap n)).level (levelFor s (slotTap n / 4) (fadeOf s (slotTap n / 4) (slotTap n % 4)))) ∧
      (∀ p, slotKind s n = 6 → prelockPort s (n / 512) = some p → (t.lcol (4 * p + n / 512 % 4)).prelock = stepsOf x.out))) ∧
  (∀ (s : State) (n : Nat) (w : BitVec 32), n < 8192 →
    exec (.lpFreezeWrite n w) s = .next (s.setLoop n { s.loop n with
      kind := if n % 512 < 295 ∨ 8 ≤ bits w.toNat 0 4 then (s.loop n).kind else bits w.toNat 0 4
      spSrc := spSrcTaken s n (bits w.toNat 16 2), dEn := w.getLsbD 18, freeze := w.getLsbD 19 && !freezeRefused s n, bumpless := w.getLsbD 20 })) ∧
  (∀ (s : State) (w : BitVec 32), w.getLsbD 3 = true → testBadSlot s = false → testBusy s = false →
    exec (.lpTestStart w) s = .next { s with eng := { s.eng with
      signal := bits w.toNat 0 2, point := w.getLsbD 2, prbsHold := bits w.toNat 5 8, startPend := true } }) ∧
  (∀ (s : State) (w : BitVec 32), w.getLsbD 3 = false → w.getLsbD 4 = true → s.eng.testActive = true →
    exec (.lpTestStop w) s = .next { s with eng := { s.eng with
      signal := bits w.toNat 0 2, point := w.getLsbD 2, prbsHold := bits w.toNat 5 8, stopPend := true } }) ∧
  (∀ (s : State), s.eng.capturing = true → s.eng.count = 65536 →
    exec .captureBufferFull s = .next { s with eng := { s.eng with capturing := false, capDone := true } })

/-- R148: FREEZE is refused on an LO phase or receiver offset slot whose band is in service, which leaves it 0, and `loop.freeze` answers busy. A slot
frozen for 64 beats is released, with LOOP_FREEZE_TIMEOUT, at the beat edge. -/
def Obligations.FreezeIsRefusedInServiceAndTimesOut : Prop :=
  (∀ (s : State) (n : Nat) (w : BitVec 32), n < 8192 → slotKind s n = 1 ∨ slotKind s n = 2 → bandInService s (slotField n s.tim.beat) (slotBand n) = true →
    Completes (.lpFreezeWrite n w) s (fun t => (t.loop n).freeze = false ∧ (t.loop n).frozen = (s.loop n).frozen)) ∧
  (∀ (s : State) (k : Nat) (c : Cmd) (n : Nat), Taken s k 0x0D03 c → c.at 16 2 = n → n < 8192 → c.at 18 46 = 0 →
    slotKind s n = 1 ∨ slotKind s n = 2 → bandInService s (slotField n s.tim.beat) (slotBand n) = true →
    Completes (.loopFreeze k) s (fun t => Answered s t k { status := stBusy } ∧ t = { s with cmds := t.cmds })) ∧
  (∀ (s : State) (n : Nat), (s.loop n).frozen = true → (s.loop n).freeze = true → (s.loop n).frozenAt + 64 ≤ s.tim.beat →
    exec (.loopFreezeTimeout n) s = .next (post 0x0D01 (leBytes 2 n) (s.setLoop n { s.loop n with freeze := false }))) ∧
  (∀ (s : State) (n : Nat), (s.loop n).frozen = true → (s.loop n).freeze = false → ((freezeEdge n s).loop n).frozen = false)

/-- R171, R175 to R177, R179 to R181: the points of a calibration procedure. With both runs of a point complete, estimates that agree and lie in their
limits are kept for the halt with their mean, and nothing is applied yet; after the last point the procedure is done; an LO phase vertex beyond 20
mrad moves the centre; estimates that disagree repeat the point three times and then fail the quantity. A run that ends marred is void and is
repeated; the 16th abandons the procedure. -/
def Obligations.CalibrationPointIsKeptUntilTheHalt : Prop :=
  (∀ (s : State) (f b : Nat) (q l : List PointEst) (x : Band), s.band (8 * f + b) = x → f < 32 → b < 8 → bandOut s (8 * f + b) = false → s.cal.refvOk = true → x.qg ≠ 1 →
    x.proc ≠ 0 → x.done = false → fieldPaused s f = false → 2 * runLength x.proc x.point ≤ x.symbols →
    answers (pointKeys f b x.proc x.point (calColours s f)) q = some l → (l.map (fun p => p.key)).Nodup → l.find? (pairFails s x.proc x.point l) = none →
    ¬(x.proc = 1 ∧ x.point = 4) → x.point ≠ lastPoint x.proc →
    (∀ p, p ∈ l → (x.proc = 2 ∧ 257 ≤ x.point ∧ x.point < 514) ∨ 14 ≤ p.key % 16 ∨ calInRange s p.key (calMean p.first p.second) = true) →
    Completes (.calRunComplete f b q) s (fun t => t = s.setBand (8 * f + b) (t.band (8 * f + b)) ∧ (t.band (8 * f + b)).point = x.point + 1 ∧
      (t.band (8 * f + b)).symbols = 0 ∧ (t.band (8 * f + b)).repeats = 0 ∧ (t.band (8 * f + b)).done = false ∧ (t.band (8 * f + b)).proc = x.proc ∧
      (¬(x.proc = 2 ∧ 257 ≤ x.point ∧ x.point < 514) → ∀ p, p ∈ l → tget 0 (t.band (8 * f + b)).pend p.key = calMean p.first p.second))) ∧
  (∀ (s : State) (f b : Nat) (q l : List PointEst) (x : Band), s.band (8 * f + b) = x → f < 32 → b < 8 → bandOut s (8 * f + b) = false → s.cal.refvOk = true → x.qg ≠ 1 →
    x.proc ≠ 0 → x.done = false → fieldPaused s f = false → 2 * runLength x.proc x.point ≤ x.symbols →
    answers (pointKeys f b x.proc x.point (calColours s f)) q = some l → l.find? (pairFails s x.proc x.point l) = none →
    ¬(x.proc = 1 ∧ x.point = 4) → x.point = lastPoint x.proc → (∀ p, p ∈ l → 14 ≤ p.key % 16 ∨ calInRange s p.key (calMean p.first p.second) = true) →
    (∀ v, v ∈ procValues s f b x.proc (x.pend ++ l.map (fun p => (p.key, calMean p.first p.second))) → calInRange s v.1 v.2 = true) →
    Completes (.calRunComplete f b q) s (fun t => (t.band (8 * f + b)).done = true ∧ (t.band (8 * f + b)).doneAt = s.cal.accepts ∧
      t.cal = { s.cal with accepts := s.cal.accepts + 1 } ∧ (∀ j, j ≠ 8 * f + b → t.band j = s.band j))) ∧
  (∀ (s : State) (f b : Nat) (q l : List PointEst) (p : PointEst) (x : Band), s.band (8 * f + b) = x → f < 32 → b < 8 → bandOut s (8 * f + b) = false → s.cal.refvOk = true → x.qg ≠ 1 →
    x.proc ≠ 0 → x.done = false → fieldPaused s f = false → 2 * runLength x.proc x.point ≤ x.symbols →
    answers (pointKeys f b x.proc x.point (calColours s f)) q = some l → l.find? (pairFails s x.proc x.point l) = some p →
    exec (.calRunComplete f b q) s = .next (if 3 ≤ x.repeats then failQuantity (8 * f + b) x.proc p.key s
      else s.setBand (8 * f + b) { x with repeats := x.repeats + 1, symbols := 0 })) ∧
  (∀ (s : State) (f b : Nat) (q l : List PointEst) (v : Nat × Int) (x : Band), s.band (8 * f + b) = x → f < 32 → b < 8 → bandOut s (8 * f + b) = false → s.cal.refvOk = true → x.qg ≠ 1 →
    x.proc = 1 → x.point = 4 → x.done = false → fieldPaused s f = false → 57344 ≤ x.symbols →
    answers (pointKeys f b 1 4 (calColours s f)) q = some l → l.find? (pairFails s 1 4 l) = none →
    (l.map (fun p => (p.key, calMean p.first p.second))).find? (beyondCentre s x) = some v → x.moves < 2 →
    Completes (.calRunComplete f b q) s (fun t => (t.band (8 * f + b)).moves = x.moves + 1 ∧ (t.band (8 * f + b)).point = 4 ∧ (t.band (8 * f + b)).symbols = 0 ∧ t.cal = s.cal)) ∧
  (∀ (s : State) (f b : Nat) (q l : List PointEst) (x : Band), s.band (8 * f + b) = x → f < 32 → b < 8 → bandOut s (8 * f + b) = false → s.cal.refvOk = true → x.qg = 1 → 8192 ≤ x.qgSymbols →
    answers (quickKeys f b x.qgPoint (calColours s f)) q = some l → (∀ p, p ∈ l → calAgree p.key p.first p.second = true ∧ calInRange s p.key (calMean p.first p.second) = true) →
    Completes (.calRunComplete f b q) s (fun t => t = s.setBand (8 * f + b) (t.band (8 * f + b)) ∧ (t.band (8 * f + b)).qg = (if x.qgPoint = 3 then 2 else 1) ∧
      (x.qgPoint ≠ 3 → (t.band (8 * f + b)).qgPoint = x.qgPoint + 1) ∧ (t.band (8 * f + b)).qgSymbols = 0)) ∧
  (∀ (s : State) (f b : Nat) (q : List PointEst), 32 ≤ f ∨ 8 ≤ b ∨ bandOut s (8 * f + b) = true ∨ s.cal.refvOk = false ∨
      ((s.band (8 * f + b)).qg ≠ 1 ∧ ((s.band (8 * f + b)).proc = 0 ∨ (s.band (8 * f + b)).done = true)) →
    exec (.calRunComplete f b q) s = .next s) ∧
  (∀ (s : State) (k i len start : Nat) (x : Band), s.band i = x → len = runLength x.proc x.point → start = runStart x.symbols len → start + len ≤ x.symbols + k → x.voids < 15 →
    addSymbols k true i s = s.setBand i { x with voids := x.voids + 1, symbols := start, marred := false }) ∧
  (∀ (s : State) (k i len start : Nat) (x : Band), s.band i = x → len = runLength x.proc x.point → start = runStart x.symbols len → start + len ≤ x.symbols + k → 15 ≤ x.voids →
    ((addSymbols k true i s).band i).proc = 0 ∧ ((addSymbols k true i s).band i).pend = [] ∧ ((addSymbols k true i s).band i).back = true) ∧
  (∀ (s : State) (k i len start : Nat) (x : Band), s.band i = x → len = runLength x.proc x.point → start = runStart x.symbols len → x.marred = false → beatMarred s (i / 8) = false →
    addSymbols k false i s = s.setBand i { x with symbols := min (x.symbols + k) (start + len) })

/-- R167, R184, R185, R187 to R189: a tick of a partition's cadence gives the next band of every lit field of it a band calibration, and in a deep
tick the cell, and with band 0 the row, calibration before it; where band 0 cannot take the row calibration, the lowest free band does (assumption log
18). The band number moves on. The calibration commands. `cal.run` queues its procedures on its bands and waits; `cal.verify` takes its fields, and
its second arrival gives them back and answers with the records; the others act at once. -/
def Obligations.CalibrationIsScheduledAndCommanded : Prop :=
  (∀ (s : State) (p b : Nat) (deep : Bool), p < s.net.parts → s.cal.scheduled.getLsbD p = false → s.cal.refvOk = true →
    tget 0 s.cal.cadAt p + 1000000 ≤ s.tim.beat → tget 0 s.cal.cadNext p = b → deep = decide (tget 0 s.cal.deepAt p + 225000000 ≤ s.tim.beat) →
    Completes (.calCadenceTick p) s (fun t => tget 0 t.cal.cadNext p = (b + 1) % 8 ∧ tget 0 t.cal.cadAt p = s.tim.beat ∧
      tget 0 t.cal.deepAt p = (if deep then s.tim.beat else tget 0 s.cal.deepAt p) ∧ t.cal.user = s.cal.user ∧ t.fields = s.fields ∧
      (∀ f, f ∈ fieldsOfPart s p → (s.field f).lit = true → bandOut s (8 * f + b) = false → bandBusy (s.band (8 * f + b)) = false → (s.field f).kaCheck = none →
        (t.band (8 * f + b)).queue = if deep = true then (if b = 0 then [3, 2, 1] else [2, 1]) else [1]) ∧
      ∀ f c, f ∈ fieldsOfPart s p → (s.field f).lit = true → deep = true → b = 0 → bandOut s (8 * f) = true ∨ bandBusy (s.band (8 * f)) = true → (s.field f).kaCheck = none →
        (List.range 8).find? (fun c => !bandOut s (8 * f + c) && !bandBusy (s.band (8 * f + c))) = some c → (t.band (8 * f + c)).queue = [3])) ∧
  (∀ (s : State) (k : Nat) (c : Cmd), Taken s k 0x0402 c → 1 ≤ c.at 16 1 → c.at 16 1 ≤ 7 → c.at 17 3 = 0 → c.at 20 4 ≠ 0 → c.at 24 1 ≠ 0 → c.at 25 39 = 0 →
    (∀ f, f ∈ maskList 32 (c.at 20 4) → (s.field f).fenced = false) → (∀ i, i ∈ namedBands (c.at 20 4) (c.at 24 1) → bandOut s i = false) →
    maskResetting s (c.at 20 4) = false → s.cal.refvOk = true → s.tim.admits = true → s.pwr.state = 0 →
    (∀ j, j ∈ calJobs s (c.at 16 1) (c.at 20 4) (c.at 24 1) → bandBusy (s.band j.1) = false ∧ (s.field (j.1 / 8)).kaCheck = none ∧ (s.band j.1).cmd = none) →
    Completes (.calRun k) s (fun t => Waiting t k ∧ t = { s with cmds := t.cmds, bands := t.bands, loops := t.loops, cal := { s.cal with trims := t.cal.trims } } ∧
      (∀ j, j < driveKey 0 → t.loop j = s.loop j) ∧ (∀ i, i ∉ (calJobs s (c.at 16 1) (c.at 20 4) (c.at 24 1)).map (fun j => j.1) → t.band i = s.band i) ∧
      ∀ j, j ∈ calJobs s (c.at 16 1) (c.at 20 4) (c.at 24 1) → (t.band j.1).queue = j.2 ∧ (t.band j.1).cmd = some k)) ∧
  (∀ (s : State) (k : Nat) (c : Cmd) (p : Nat), Taken s k 0x0403 c → c.at 16 1 = p → p < 4 → p < s.net.parts → c.at 17 1 ≤ 1 → c.at 18 46 = 0 →
    resetting s p = false →
    Completes (.calCadence k) s (fun t => Answered s t k {} ∧ t = { s with cmds := t.cmds, cal := { s.cal with
      schedNext := if c.at 17 1 = 1 then s.cal.schedNext ||| BitVec.twoPow 4 p else s.cal.schedNext &&& ~~~ BitVec.twoPow 4 p } })) ∧
  (∀ (s : State) (k : Nat) (c : Cmd), Taken s k 0x0404 c → c.at 16 1 ≤ 2 → (c.at 16 1 = 2 → licensed s 0 = true) → (colourSet s (c.at 16 1)).isSome = true →
    c.at 17 1 ≤ 3 → c.at 18 2 = 0 → c.at 20 4 ≠ 0 →
    c.at 24 40 = 0 → 128 * (maskList 32 (c.at 20 4)).length * (kaColours s c).length ≤ 64 * c.extLen → maskResetting s (c.at 20 4) = false →
    s.cal.refvOk = true → s.tim.admits = true → s.pwr.state = 0 →
    (∀ f, f ∈ maskList 32 (c.at 20 4) → (s.field f).fenced = false ∧ (s.field f).kaCheck = none ∧ ∀ b, b < 8 → bandBusy (s.band (8 * f + b)) = false) →
    Completes (.calVerify k) s (fun t => Waiting t k ∧ t = { s with cmds := t.cmds, fields := t.fields } ∧
      (∀ f, f ∈ maskList 32 (c.at 20 4) → t.field f = { s.field f with kaCheck := some k, kaAt := 0, kaStage := 0, kaTok := 0, kaSums := [] }) ∧
      ∀ f, f ∉ maskList 32 (c.at 20 4) → t.field f = s.field f)) ∧
  (∀ (s : State) (k : Nat) (c : Cmd), cmdOf s k = some c → c.opcode = 0x0404 → c.started = true → c.decided = false →
    (∀ f, f ∈ maskList 32 (c.at 20 4) → 9 ≤ (s.field f).kaStage) →
    Completes (.calVerify k) s (fun t => Answered s t k { output := kaOutput s c } ∧ (∀ f, f < 32 → (t.field f).kaCheck ≠ some k) ∧
      t = { s with cmds := t.cmds, fields := t.fields, bands := t.bands })) ∧
  (∀ (s : State) (k f : Nat) (c : Cmd), cmdOf s k = some c → c.opcode = 0x0404 → c.started = true → c.decided = false →
    f ∈ maskList 32 (c.at 20 4) → (s.field f).kaStage < 9 → exec (.calVerify k) s = .next s) ∧
  (∀ (s : State) (k : Nat) (c : Cmd), Taken s k 0x0405 c → c.at 16 48 = 0 →
    (s.bands.any (fun e => e.2.proc != 0 || !e.2.queue.isEmpty || e.2.qg != 0) || s.fields.any (fun e => e.2.kaCheck.isSome)) = false →
    Completes (.calUserClear k) s (fun t => Answered s t k {} ∧ (∀ i, (t.band i).bandAt = none ∧ (t.band i).cellAt = none) ∧ (∀ f, (t.field f).rowAt = none) ∧
      t = { s with cmds := t.cmds, bands := t.bands, fields := t.fields, cal := { s.cal with clearPend := true } })) ∧
  (∀ (s : State) (k : Nat) (c : Cmd), Taken s k 0x0406 c → c.at 16 4 ≠ 0 → c.at 20 1 ≠ 0 → c.at 21 43 = 0 → maskResetting s (c.at 16 4) = false →
    (∀ f, f ∈ maskList 32 (c.at 16 4) → (s.field f).fenced = false) →
    (∀ i, i ∈ namedBands (c.at 16 4) (c.at 20 1) → bandOut s i = false ∧ (s.band i).proc = 0 ∧ (s.band i).queue = [] ∧ (s.band i).test = false ∧
      (s.field (i / 8)).kaCheck = none) →
    Completes (.calBandHold k) s (fun t => Answered s t k {} ∧ t = { s with cmds := t.cmds, bands := t.bands } ∧
      (∀ i, i ∈ namedBands (c.at 16 4) (c.at 20 1) → t.band i = { s.band i with hold := true, back := false }) ∧
      ∀ i, i ∉ namedBands (c.at 16 4) (c.at 20 1) → t.band i = s.band i)) ∧
  (∀ (s : State) (k : Nat) (c : Cmd), Taken s k 0x0407 c → c.at 16 4 ≠ 0 → c.at 20 1 ≠ 0 → c.at 21 43 = 0 → maskResetting s (c.at 16 4) = false →
    (∀ i, i ∈ namedBands (c.at 16 4) (c.at 20 1) → (s.band i).hold = true) →
    Completes (.calBandRelease k) s (fun t => Answered s t k {} ∧ t = { s with cmds := t.cmds, bands := t.bands } ∧
      (∀ i, i ∈ namedBands (c.at 16 4) (c.at 20 1) → t.band i = { s.band i with hold := false, back := true }) ∧
      ∀ i, i ∉ namedBands (c.at 16 4) (c.at 20 1) → t.band i = s.band i))

/-- R233, R241, R247, R257, R260, R261, R322: what a retire does. The op leaves the window and no other does; its token's count rises and ABORT
sticks; its stream counts one retired op; its completion word stands in memory. -/
def Obligations.RetireEndsTheOpAndStoresItsWord : Prop :=
  (∀ (s : State) (k : Nat) (o : Op) (ab : Bool) (reason detail : Nat), opOf s k = some o → s.flt.deviceError = false →
    opOf (retire k ab reason detail s) k = none ∧
    (∀ j, j ≠ k → opOf (retire k ab reason detail s) j = opOf s j) ∧
    (∀ tk, o.signals = some tk → (retire k ab reason detail s).token (4096 * o.part s + tk) =
      { count := (s.token (4096 * o.part s + tk)).count + BitVec.ofNat 16 o.signalCount, abort := (s.token (4096 * o.part s + tk)).abort || ab }) ∧
    (o.signals = none → (retire k ab reason detail s).tokens = s.tokens) ∧
    ((retire k ab reason detail s).stream o.stream).retired = (s.stream o.stream).retired + 1 ∧
    (∀ h, o.holds = some h → o.holdsPrev = false → ((retire k ab reason detail s).dirEntry h).holders = (s.dirEntry h).holders - 1) ∧
    ∀ f, ((retire k ab reason detail s).field f).slots ≠ some k ∧ ((retire k ab reason detail s).field f).loader ≠ some k) ∧
  (∀ (s : State) (k : Nat) (ab : Bool) (reason detail : Nat), s.flt.deviceError = true → retire k ab reason detail s = s) ∧
  (∀ (s : State) (k : Nat) (o : Op) (ab : Bool) (reason detail i : Nat), opOf s k = some o → s.flt.deviceError = false → s.errs = [] →
    s.flt.disabling = [] → (∀ j, j < 16 → noStore s (o.cpl + j) = false) → held s o.cpl 16 = false → i < 16 →
    Memory.read (retire k ab reason detail s).mem (o.cpl + i) = (completionWord s (o.flagIf (reason == 8) fDegraded) ab reason detail).getD i 0)

/-- R235, R237, R241, R244, R247, R260: a wait is met on the 16-bit circle; an op is not admitted before every wait is met, and one whose waited token
carries ABORT retires aborted with REASON 4, unless it ignores ABORT. Of the ops of a partition that ask for free units of one kind, one of a higher
priority, or earlier in the rotation, is served before. The ops that retire at their admission, and the retire point of one that has reached it. -/
def Obligations.SequencerOpsWaitAndRetire : Prop :=
  (∀ (s : State) (p tk target : Nat), waitMet s p (tk, target) = true ↔
    ((s.token (4096 * p + tk)).count - BitVec.ofNat 16 target).toNat < 32768) ∧
  (∀ (s : State) (k : Nat) (o : Op) (i : Instr), opOf s k = some o → waitsMet s o = false →
    i ∈ [Instr.wait k, .signal k, .nop k, .fence k, .accDrain k, .accSave k, .accRestore k, .vecKernel k, .quantScale k, .move k, .moveReduce k,
      .tollgate k, .fieldGemm k] → exec i s = .next s) ∧
  (∀ (s : State) (k : Nat) (o : Op), opOf s k = some o → o.code = 0x3F → o.stage = 1 → o.copying = false → o.abortAt = none →
    admitting s (o.part s) = true → waitsMet s o = true → upstream s o = true → exec (.nop k) s = .next (retire k true 4 0 s)) ∧
  (∀ (s : State) (k : Nat) (o q : Op) (i : Instr), opOf s k = some o → upstream s o = false → q ∈ s.ops → q.key ≠ o.key → q.part s = o.part s →
    unitClass o.code ≠ 0 → unitClass q.code = unitClass o.code → admissible s q = true → unitsFree s q = true → servedBefore s q o = true →
    i ∈ [Instr.accDrain k, .vecKernel k, .quantScale k, .fieldGemm k] → exec i s = .next s) ∧
  (∀ (s : State) (k : Nat) (o : Op), Admissible s k 0x31 o → exec (.wait k) s = .next (retire k false 0 0 (setAdmitted k s))) ∧
  (∀ (s : State) (k : Nat) (o : Op), Admissible s k 0x32 o → exec (.signal k) s = .next (retire k false 0 0 (setAdmitted k s))) ∧
  (∀ (s : State) (k : Nat) (o : Op), Admissible s k 0x3F o → exec (.nop k) s = .next (retire k false 0 0 (setAdmitted k s))) ∧
  (∀ (s : State) (k : Nat) (o : Op), Admissible s k 0x30 o → fenceMet s o = true → exec (.fence k) s = .next (retire k false 0 0 (setAdmitted k s))) ∧
  (∀ (s : State) (k : Nat) (o : Op), Admissible s k 0x30 o → fenceMet s o = false → exec (.fence k) s = .next (setAdmitted k s)) ∧
  (∀ (s : State) (k : Nat) (o : Op), opOf s k = some o → o.abortAt = none → o.code = 0x30 → o.stage = 2 → fenceMet s o = true →
    exec (.opRetire k) s = .next (retire k false 0 0 s)) ∧
  (∀ (s : State) (k : Nat) (o : Op), opOf s k = some o → o.abortAt = none → o.stage = 3 → o.code ∉ [0x33, 0x30, 0x11] →
    (o.code = 0x01 → evaluated s o = true) → exec (.opRetire k) s = .next (retire k false 0 (if o.code = 0x01 then 0 else o.detail) s)) ∧
  (∀ (s : State) (k : Nat) (o : Op), opOf s k = some o → o.abortAt = none → o.stage = 3 → o.code = 0x11 → held s (o.dn 44 6) 128 = false →
    exec (.opRetire k) s = .next (retire k false 0 0 (trackerPush o s))) ∧
  (∀ (s : State) (k : Nat) (o : Op), opOf s k = some o → o.abortAt.isSome = true ∨ (o.code ∉ [0x33, 0x30] ∧ o.stage ≠ 3) ∨ (o.code = 0x30 ∧ fenceMet s o = false) →
    exec (.opRetire k) s = .next s)

/-- R234, R238, R306, R322: DESCRIPTOR_ISSUE. The stream's next descriptor becomes an op of the window, the submission moves on, and an op of a weight
handle captures its directory entry. While the descriptor's memory unit holds requests the issue waits. -/
def Obligations.DescriptorIssues : Prop :=
  (∀ (s : State) (st : Nat) (u : Submission), (streamOps s st).find? (fun o => o.stage == 0) = none → mayIssue s st = true →
    (s.stream st).subs.find? (fun u => decide (u.next < u.count)) = some u → s.errs = [] → held s (u.addr + 64 * u.next) 64 = false → anyBad s (u.addr + 64 * u.next) 64 = false →
    opOf s s.seq.nextKey = none →
    firstFailing (takeNext st u s) (nextOp st u s) = none → unlicensedOp (takeNext st u s) (nextOp st u s) = false →
    (nextOp st u s).code ≠ 0x01 ∨ (nextOp st u s).wsrc ≠ 0 →
    Completes (.descriptorIssue st) s (fun t => opOf t s.seq.nextKey = some (nextOp st u s) ∧ t.seq.nextKey = s.seq.nextKey + 1 ∧
      (∀ v, v ∈ (s.stream st).subs → v.id = u.id → { v with next := v.after (v.next + 1) } ∈ (t.stream st).subs) ∧
      t = { s with ops := s.ops ++ [nextOp st u s], seq := { s.seq with nextKey := s.seq.nextKey + 1 }, streams := t.streams })) ∧
  (∀ (s : State) (st : Nat) (u : Submission) (d : Nat), (streamOps s st).find? (fun o => o.stage == 0) = none → mayIssue s st = true →
    (s.stream st).subs.find? (fun u => decide (u.next < u.count)) = some u → s.errs = [] → held s (u.addr + 64 * u.next) 64 = false → anyBad s (u.addr + 64 * u.next) 64 = false →
    opOf s s.seq.nextKey = none → firstFailing (takeNext st u s) (nextOp st u s) = some d →
    exec (.descriptorIssue st) s = .next (retire s.seq.nextKey true 2 d (takeNext st u s))) ∧
  (∀ (s : State) (st : Nat) (o : Op), (streamOps s st).find? (fun o => o.stage == 0) = some o → s.flt.deviceError = false → opOf s o.key = some o →
    handleValid s o.whandle = true → (s.dirEntry (handleIdx o.whandle)).part = o.part s → (s.dirEntry (handleIdx o.whandle)).swap ≠ 3 →
    (s.dirEntry (handleIdx o.whandle)).spilled = false →
    Completes (.descriptorIssue st) s (fun t => t.dirEntry (handleIdx o.whandle) =
        { s.dirEntry (handleIdx o.whandle) with holders := (s.dirEntry (handleIdx o.whandle)).holders + 1 } ∧
      (opOf t o.key).map (fun x => (x.stage, x.ptr, x.scalePtr, x.epoch, x.holds)) =
        some (1, (s.dirEntry (handleIdx o.whandle)).ptr, (s.dirEntry (handleIdx o.whandle)).scalePtr, (s.dirEntry (handleIdx o.whandle)).epoch,
          some (handleIdx o.whandle)) ∧ t.mem = s.mem)) ∧
  (∀ (s : State) (st : Nat), (streamOps s st).find? (fun o => o.stage == 0) = none → mayIssue s st = false → exec (.descriptorIssue st) s = .next s) ∧
  (∀ (s : State) (st : Nat) (u : Submission), (streamOps s st).find? (fun o => o.stage == 0) = none → (s.stream st).subs.find? (fun u => decide (u.next < u.count)) = some u →
    held s (u.addr + 64 * u.next) 64 = true → exec (.descriptorIssue st) s = .next s)

/-- R234, R252 to R257, R257, R434: the admission of a `field.gemm`. An initialise op records its row map in place of every map it overlaps; an add
keeps the maps; the fields' free loaders pass to the op. Without a colour set or a usable band it retires with REASON 8, beyond the rows with REASON
5. The hand-over of a field's loaders to the op that waits for it: the loaders take that op's tiles from now, and their buffer is free for its first. -/
def Obligations.FieldGemmIsAdmittedAndLoadersPass : Prop :=
  (∀ (s : State) (k : Nat) (o : Op) (mode : Nat) (cols : List Nat) (m : RowMap), s.pwr.state = 0 → s.pwr.next = none → Admissible s k 0x01 o →
    o.isAdd = false → modeRun s (bits (o.dn 16 2) 3 2) = some (mode, cols) →
    m = mapFor s o (shapeRunOf s (o.part s) (bits (o.dn 16 2) 0 3)) mode cols → m.cStep ≠ 0 → ¬ (o.wsrc = 2 ∧ m.cStep < o.nLen) →
    m.firstRow + m.rows ≤ 2048 → ((dropMaps m.part m.firstRow m.rows s).rowMaps.filter (fun x => x.part == m.part)).length < 64 →
    fieldsReady s k (groupsOf m.shapeRun (m.roots s)) = true → o.loadHeld s m = false →
    Completes (.fieldGemm k) s (fun t => ∃ o' sc z, opOf t k = some o' ∧ o'.map = some { m with scales := sc, zeroCol := z } ∧ (o.wsrc = 0 → sc = []) ∧
      o'.stage = (if (List.range o'.requests).all (fun r => o'.kSteps r == 0) then 3 else 2) ∧ o'.admBeat = some s.tim.beat ∧
      (o'.stage = 2 → o'.pos.map (fun p => p.root) = m.roots s ∧
        ∀ f, f ∈ groupsOf m.shapeRun (m.roots s) → (s.field f).loader = none → (t.field f).loader = some k) ∧
      t.rowMaps = (dropMaps m.part m.firstRow m.rows s).rowMaps ++ [{ m with scales := sc, zeroCol := z }] ∧
      t.tokens = s.tokens ∧ t.streams = s.streams)) ∧
  (∀ (s : State) (k : Nat) (o : Op) (m : RowMap), s.pwr.state = 0 → s.pwr.next = none → Admissible s k 0x01 o → o.isAdd = true →
    addMap s o = some m → addDiffers o m = none → (o.wsrc = 0 → o.epoch = m.epoch) → m.colours.any (colourOff s) = false →
    passOver s { o with entries := (listOf s o).map (captOf s), map := some m } m = false → fieldsReady s k (groupsOf m.shapeRun (m.roots s)) = true → o.loadHeld s m = false →
    Completes (.fieldGemm k) s (fun t => (∃ o', opOf t k = some o' ∧ o'.map = some m ∧ o'.admBeat = some s.tim.beat ∧
        o'.stage = (if (List.range o'.requests).all (fun r => o'.kSteps r == 0) then 3 else 2) ∧
        (o'.stage = 2 → o'.pos.map (fun p => p.root) = m.roots s ∧
          ∀ f, f ∈ groupsOf m.shapeRun (m.roots s) → (s.field f).loader = none → (t.field f).loader = some k)) ∧
      t.rowMaps = s.rowMaps ∧ (s.errs = [] → t.acc = s.acc) ∧ t.tokens = s.tokens)) ∧
  (∀ (s : State) (k : Nat) (o : Op), s.pwr.state = 0 → s.pwr.next = none → Admissible s k 0x01 o → o.mlist.2 = 0 → o.isAdd = false →
    modeRun s (bits (o.dn 16 2) 3 2) = none → exec (.fieldGemm k) s = .next (retire k true 8 0 s)) ∧
  (∀ (s : State) (k : Nat) (o : Op), s.pwr.state = 0 → s.pwr.next = none → Admissible s k 0x01 o → o.mlist.2 = 0 → o.isAdd = true →
    addMap s o = none → exec (.fieldGemm k) s = .next (retire k true 2 18 s)) ∧
  (∀ (s : State) (k : Nat), s.pwr.state ≠ 0 ∨ s.pwr.next ≠ none → exec (.fieldGemm k) s = .next s) ∧
  (∀ (s : State) (k f : Nat) (o : Op) (p : GPos), opOf s k = some o → o.code = 0x01 → o.stage = 2 → o.abortAt = none → f < 32 →
    o.posOf s f = some p → p.done = false → loaderFree s f = true → (s.field f).loader ≠ some k →
    Completes (.opHandover k f) s (fun t => (t.field f).loader = some k ∧ (t.field f).bufFull = false ∧ (∀ g, g ≠ f → (t.field g).loader = (s.field g).loader) ∧
      t.mem = s.mem ∧ t.rowMaps = s.rowMaps)) ∧
  (∀ (s : State) (k f : Nat), loaderFree s f = false → exec (.opHandover k f) s = .next s)

/-- R117, R119, R240, R282: a drain and a save are admitted, fix what they read, and wait behind their tree fence; when it passes they read and write,
and reach their retire point. -/
def Obligations.DrainAndSaveWaitForTheirTreeFence : Prop :=
  (∀ (s : State) (k : Nat) (o : Op) (cl : List (Nat × Nat × Nat)), Admissible s k 0x03 o → noCores s (o.part s) = false →
    (∀ r, r ∈ o.rowRange → (mapOf (mapsOver s (o.part s) (o.dn 18 2) (o.dn 20 2)) r).isSome = true) →
    clustersFor s (o.part s) (drainRoots s o (mapsOver s (o.part s) (o.dn 18 2) (o.dn 20 2))) = some cl →
    (∀ x, x ∈ o.segs s (mapsOver s (o.part s) (o.dn 18 2) (o.dn 20 2)) → noWrite s (o.part s) (o.segAddr x) (x.cnt * o.outBytes) = false) →
    Completes (.accDrain k) s (fun t => InStage t k 4 ∧
      (opOf t k).map (fun x => (x.maps, x.clusters, x.admBeat)) = some (mapsOver s (o.part s) (o.dn 18 2) (o.dn 20 2), cl, some s.tim.beat) ∧
      (∀ c, c ∈ cl → c.2.2 < 4 → (t.field c.2.1).drain.getLsbD c.2.2 = true) ∧ t = { s with ops := t.ops, seq := t.seq, fields := t.fields })) ∧
  (∀ (s : State) (k : Nat) (o : Op) (r : Nat), Admissible s k 0x03 o → noCores s (o.part s) = false → r ∈ o.rowRange →
    mapOf (mapsOver s (o.part s) (o.dn 18 2) (o.dn 20 2)) r = none → exec (.accDrain k) s = .next (retire k true 5 0 s)) ∧
  (∀ (s : State) (k : Nat) (o : Op), Admissible s k 0x04 o → o.dn 40 6 = 0 →
    Completes (.accSave k) s (fun t => InStage t k 4 ∧ (opOf t k).map (fun x => (x.maps, x.admBeat)) = some ([], some s.tim.beat) ∧
      t = { s with ops := t.ops, seq := t.seq })) ∧
  (∀ (s : State) (k : Nat) (o : Op), opOf s k = some o → o.stage = 4 → o.abortAt = none → s.flt.deviceError = false → fencePasses s o = true → heldAny s (o.passRanges s) = false → o.code = 0x03 →
    exec (.treeFencePass k) s = .next (modOp k (fun o => { o with stage := 3 }) (drainPass o s)) ∧ (drainPass o s).rowMaps = s.rowMaps) ∧
  (∀ (s : State) (k i : Nat) (o : Op), opOf s k = some o → o.stage = 4 → o.abortAt = none → s.flt.deviceError = false → fencePasses s o = true → heldAny s (o.passRanges s) = false → o.code = 0x04 →
    s.errs = [] → o.dn 34 6 = 0 → o.dn 40 6 = 0 → i < ((selected (o.dn 24 4)).map (fun f => (o.rowRange.map (rowImage s f)).flatten)).flatten.length →
    (∀ j, j ≤ i → noStore s (o.dn 28 6 + j) = false) →
    Completes (.treeFencePass k) s (fun t => InStage t k 3 ∧ t.acc = s.acc ∧
      Memory.read t.mem (o.dn 28 6 + i) = (((selected (o.dn 24 4)).map (fun f => (o.rowRange.map (rowImage s f)).flatten)).flatten).getD i 0)) ∧
  (∀ (s : State) (k : Nat) (o : Op), opOf s k = some o → o.stage ≠ 4 ∨ fencePasses s o = false ∨ heldAny s (o.passRanges s) = true → exec (.treeFencePass k) s = .next s)

/-- R115, R116, R240, R306: the image of a saved accumulator row gives back every cell's value and flags. An `acc.restore` without row-map blocks. The
row maps of the restored rows are gone, every cell takes the value in memory, and the op reaches its retire point. It waits while a unit holds its
requests. -/
def Obligations.AccRestoreTakesTheImage : Prop :=
  (∀ (s : State) (f row j : Nat), j < 1024 → -(2 ^ 31) ≤ (s.accCell ((f * 2048 + row) * 1024 + j)).val → (s.accCell ((f * 2048 + row) * 1024 + j)).val < 2 ^ 31 →
    (rowImage s f row).length = 4608 ∧
    signed 32 (bytesAt (rowImage s f row) (4 * j) 4) = (s.accCell ((f * 2048 + row) * 1024 + j)).val ∧
    bits (((rowImage s f row).getD (4096 + j / 2) 0).toNat) (4 * (j % 2)) 3 = flagBits (s.accCell ((f * 2048 + row) * 1024 + j))) ∧
  (∀ (s : State) (k : Nat) (o : Op), Admissible s k 0x05 o → o.dn 46 2 = 0 → s.errs = [] → heldAny s (o.restoreRanges s) = false →
    ((dropMaps (o.part s) (o.dn 22 2) (o.dn 20 2) s).rowMaps.filter (fun m => m.part == o.part s)).length ≤ 64 → o.dn 22 2 + o.dn 20 2 ≤ 2048 →
    Completes (.accRestore k) s (fun t => InStage t k 3 ∧ t.rowMaps = (dropMaps (o.part s) (o.dn 22 2) (o.dn 20 2) s).rowMaps ∧ t.mem = s.mem ∧
      ∀ i r j, i < (selected (o.dn 24 4)).length → r < o.dn 20 2 → j < 1024 →
        (∀ b f, b < 4 → locOf s (o.dn 28 6 + (i * o.dn 20 2 + r) * 4608 + 4 * j + b) ≠ .accv f) →
        (t.accCell (((selected (o.dn 24 4)).getD i 0 * 2048 + (o.dn 22 2 + r)) * 1024 + j)).val =
          signed 32 (rdNat s (o.dn 28 6 + (i * o.dn 20 2 + r) * 4608 + 4 * j) 4))) ∧
  (∀ (s : State) (k : Nat) (o : Op), Admissible s k 0x05 o → heldAny s (o.restoreRanges s) = true → exec (.accRestore k) s = .next s)

/-- R274 to R276, R306: the admission of a `vec.kernel`. With its cores free and its package in order every core of the launch runs, one rank each,
with the sp, tp, a0, a3, a4, frm, vtype.vill, vl and zero floating-point and vector registers of R275; with no healthy core in its fields the op ends
at once with POISON; while too few cores are free, or a unit holds its requests, it waits. -/
def Obligations.VecKernelLaunches : Prop :=
  (∀ (s : State) (k : Nat) (o : Op) (s' : State), Admissible s k 0x10 o → s.errs = [] → canLaunch s o = true → heldAny s (o.launchRanges s) = false → launchCores s o ≠ [] →
    0x10000 ≤ o.dn 16 6 → s' = modOp k (fun x => { x with cores := launchCores s o }) (nameEntries k o (setAdmitted k s)) →
    packageOk s' (o.part s') (o.dn 16 6) (launchCores s o).length = true →
    Completes (.vecKernel k) s (fun t => InStage t k 2 ∧ (opOf t k).map (fun x => (x.cores, x.admBeat)) = some (launchCores s o, some s.tim.beat) ∧
      (∀ c, c ∈ launchCores s o → (t.coreOf c).state = 1 ∧ (t.coreOf c).launch = some k ∧ (t.coreOf c).started = s.tim.beat ∧ (t.coreOf c).stalled = false ∧
        (t.coreOf c).vill = true ∧ (t.coreOf c).vl = 0 ∧ (t.coreOf c).frm = 0 ∧ (t.coreOf c).fregs = [] ∧ (t.coreOf c).vregs = [] ∧
        tget 0 (t.coreOf c).xregs 2 = 0x40000 ∧ tget 0 (t.coreOf c).xregs 4 = c % 64 ∧ tget 0 (t.coreOf c).xregs 10 = 0x14000 ∧
        tget 0 (t.coreOf c).xregs 13 = (launchCores s o).length ∧ tget 0 (t.coreOf c).xregs 14 = c / 64) ∧
      (∀ c, c ∉ launchCores s o → t.coreOf c = s.coreOf c) ∧ t.tokens = s.tokens ∧ t.rowMaps = s.rowMaps)) ∧
  (∀ (s : State) (k : Nat) (o : Op), Admissible s k 0x10 o → canLaunch s o = true → heldAny s (o.launchRanges s) = false → launchCores s o = [] →
    Completes (.vecKernel k) s (fun t => (∃ o', opOf t k = some o' ∧ o'.stage = 3 ∧ o'.flags.getLsbD fPoison = true ∧ o'.cores = []) ∧ t.cores = s.cores)) ∧
  (∀ (s : State) (k : Nat) (o : Op), Admissible s k 0x10 o → canLaunch s o = false ∨ heldAny s (o.launchRanges s) = true → exec (.vecKernel k) s = .next s)

/-- R268, R268 to R271, R269, R271, R276, R277, R306: what a running core writes. At a barrier it stalls until every running core of its launch has
written it as often; VPOISON bit 1 poisons its next aligned 8-byte store; a store goes to its local memory; a DMA descriptor's rows are copied, once
no unit holds its requests. A running core's kernel. A return with a0 = 0 frees the core, any other is a trap of cause RETURN; exceptions, denied
accesses and the watchdog trap with their cause; the op is at its retire point when its last core ends, with POISON after a trap. -/
def Obligations.KernelsWriteAndEnd : Prop :=
  (∀ (s : State) (c : Nat) (o : Op), runningOp s c = some o → (s.coreOf c).usesBarrier = true → (s.coreOf c).stalled = false → o.cores = [c] →
    Completes (.vbarrierWrite c []) s (fun t => (t.coreOf c).barrier = (s.coreOf c).barrier + 1 ∧ (t.coreOf c).stalled = false ∧ t = { s with cores := t.cores })) ∧
  (∀ (s : State) (c d : Nat) (o : Op), runningOp s c = some o → (s.coreOf c).usesBarrier = true → (s.coreOf c).stalled = false → c ∈ o.cores → d ∈ o.cores →
    (s.coreOf d).barrier ≤ (s.coreOf c).barrier → d ≠ c →
    Completes (.vbarrierWrite c []) s (fun t => (t.coreOf c).barrier = (s.coreOf c).barrier + 1 ∧ (t.coreOf c).stalled = true)) ∧
  (∀ (s : State) (c : Nat) (o : Op) (w : BitVec 64), runningOp s c = some o → (s.coreOf c).stalled = false →
    Completes (.vpoisonWrite c w []) s (fun t => t.coreOf c = { s.coreOf c with poisonNext := (s.coreOf c).poisonNext || w.getLsbD 1 } ∧
      ∀ d, d ≠ c → t.coreOf d = s.coreOf d)) ∧
  (∀ (s : State) (c off i : Nat) (o : Op) (w pc : BitVec 64) (l : List (BitVec 8)), runningOp s c = some o → (s.coreOf c).stalled = false → s.errs = [] → 0x14000 ≤ off → off + l.length ≤ 0x40000 → opsRo s (coreBase c + off) l.length = false →
    (∀ j, j < l.length → noStore s (coreBase c + off + j) = false) → i < l.length →
    Completes (.vpoisonWrite c w [{ pc := pc, off := off, len := l.length, store := some l }]) s (fun t => Memory.read t.mem (coreBase c + off + i) = l.getD i 0 ∧
      ∀ a, a < coreBase c + off ∨ coreBase c + off + l.length ≤ a → Memory.read t.mem a = Memory.read s.mem a)) ∧
  (∀ (s : State) (c ch src dst len i : Nat) (o : Op), runningOp s c = some o → ch < 4 → 0 < len → len ≤ 1048576 → heldAny s [(src, len), (dst, len)] = false → s.errs = [] →
    noRead s (partOfField s (c / 64)) src len = false → noWrite s (partOfField s (c / 64)) dst len = false → (∀ j, j < len → noStore s (dst + j) = false) → i < len →
    Completes (.coreDmaDescriptor c ch src dst len 1 0 0 []) s (fun t => Memory.read t.mem (dst + i) = rdByte s (src + i) ∧
      (∀ a, a < dst ∨ dst + len ≤ a → Memory.read t.mem a = Memory.read s.mem a) ∧ (t.coreOf c).state = (s.coreOf c).state)) ∧
  (∀ (s : State) (c ch src dst len : Nat) (o : Op), runningOp s c = some o → ch < 4 → 0 < len → len ≤ 1048576 → heldAny s [(src, len), (dst, len)] = false →
    noRead s (partOfField s (c / 64)) src len = true → Completes (.coreDmaDescriptor c ch src dst len 1 0 0 []) s (fun t => (t.coreOf c).trapped = true ∧ (t.coreOf c).cause = 2)) ∧
  (∀ (s : State) (c ch src dst len i : Nat), runningOp s c = none → (s.coreOf c).dmaLeft.getLsbD ch = true → ch < 4 → 0 < len → len ≤ 1048576 → heldAny s [(src, len), (dst, len)] = false → s.errs = [] →
    noRead s (partOfField s (c / 64)) src len = false → noWrite s (partOfField s (c / 64)) dst len = false → (∀ j, j < len → noStore s (dst + j) = false) → i < len →
    Completes (.coreDmaDescriptor c ch src dst len 1 0 0 []) s (fun t => Memory.read t.mem (dst + i) = rdByte s (src + i) ∧
      (t.coreOf c).dmaLeft.getLsbD ch = false ∧ t.ops = s.ops)) ∧
  (∀ (s : State) (c ch src dst len : Nat), heldAny s [(src, len), (dst, len)] = true → exec (.coreDmaDescriptor c ch src dst len 1 0 0 []) s = .next s) ∧
  (∀ (s : State) (c : Nat) (o : Op) (a0 : BitVec 64), runningOp s c = some o → (s.coreOf c).stalled = false → o.cores = [c] →
    Completes (.kernelReturn c a0 []) s (fun t => (t.coreOf c).state = 0 ∧ (t.coreOf c).launch = none ∧ InStage t o.key 3 ∧
      (a0 = 0 → (t.coreOf c).trapped = (s.coreOf c).trapped ∧ t.mem = s.mem) ∧
      (a0 ≠ 0 → (t.coreOf c).trapped = true ∧ (t.coreOf c).cause = 4 ∧ ∃ o', opOf t o.key = some o' ∧ o'.flags.getLsbD fPoison = true))) ∧
  (∀ (s : State) (c d : Nat) (o : Op), runningOp s c = some o → (s.coreOf c).stalled = false → o.stage = 2 → d ∈ o.cores → d ≠ c →
    Completes (.kernelReturn c 0 []) s (fun t => (t.coreOf c).state = 0 ∧ InStage t o.key 2 ∧ (t.coreOf d).state = (s.coreOf d).state)) ∧
  (∀ (s : State) (c cause : Nat) (o : Op) (mcause mepc : BitVec 64), runningOp s c = some o → (s.coreOf c).stalled = false → cause = 1 ∨ cause = 2 →
    Completes (.kernelTrap c cause mcause mepc []) s (fun t => (t.coreOf c).state = 0 ∧ (t.coreOf c).trapped = true ∧ (t.coreOf c).cause = cause ∧
      (∃ o', opOf t o.key = some o' ∧ o'.flags.getLsbD fPoison = true) ∧ t.mem = s.mem)) ∧
  (∀ (s : State) (c : Nat) (o : Op) (mepc : BitVec 64), runningOp s c = some o → (s.coreOf c).started + 1000 * s.stw.watchdogMs ≤ s.tim.beat →
    Completes (.kernelWatchdog c mepc []) s (fun t => (t.coreOf c).state = 0 ∧ (t.coreOf c).trapped = true ∧ (t.coreOf c).cause = 3 ∧
      ∃ o', opOf t o.key = some o' ∧ o'.flags.getLsbD fPoison = true)) ∧
  (∀ (s : State) (c : Nat) (o : Op) (mepc : BitVec 64) (wk : CoreWork), runningOp s c = some o → s.tim.beat < (s.coreOf c).started + 1000 * s.stw.watchdogMs →
    exec (.kernelWatchdog c mepc wk) s = .next s) ∧
  (∀ (s : State) (c : Nat) (o : Op) (a0 : BitVec 64) (x : CoreAccess) (t : Nat × Nat), runningOp s c = some o → (s.coreOf c).stalled = false → accessTrap s c x = some t →
    Completes (.kernelReturn c a0 [x]) s (fun t' => (t'.coreOf c).state = 0 ∧ (t'.coreOf c).trapped = true ∧ (t'.coreOf c).cause = t.1 ∧
      (∃ o', opOf t' o.key = some o' ∧ o'.flags.getLsbD fPoison = true) ∧ t'.mem = s.mem))

/-- R196, R197, R246, R260, R279, R306, R361: the admission of a `quant.scale` whose record is in order: the codes are written and the push waits for
the retire, while the quantiser of the first field is busy. A record that is not valid retires the op with REASON 11. The moves. Within the device the
bytes are copied, or added, at once; to another device every packet leaves with a reference of its own. A move waits while a unit holds its requests. -/
def Obligations.QuantScaleAndMovesAct : Prop :=
  (∀ (s : State) (k a : Nat) (o : Op), Admissible s k 0x11 o → s.errs = [] → heldAny s o.quantRanges = false → (s.field ((selected (o.dn 40 4)).headD 0)).quantBusy = 0 →
    anyBad s (o.dn 44 6) 128 = false → (Tracker.ofBytes (rdBytes s (o.dn 44 6) 128)).valid = true →
    (∀ f, f ∈ selected (o.dn 40 4) → 8 ≤ o.dn 36 3 ∧ (a < feedAddr f (o.dn 36 3 - 8) ∨ feedAddr f (o.dn 36 3) + o.dn 28 2 * (256 * ((o.dn 32 4 + 255) / 256)) ≤ a)) →
    Completes (.quantScale k) s (fun t => InStage t k 3 ∧ (t.field ((selected (o.dn 40 4)).headD 0)).quantBusy = 0xF ∧
      (opOf t k).map (fun x => (x.admBeat, x.push.length)) = some (some s.tim.beat, 6) ∧ Memory.read t.mem a = Memory.read s.mem a)) ∧
  (∀ (s : State) (k : Nat) (o : Op), Admissible s k 0x11 o → s.errs = [] → heldAny s o.quantRanges = false → (s.field ((selected (o.dn 40 4)).headD 0)).quantBusy = 0 →
    anyBad s (o.dn 44 6) 128 = false → (Tracker.ofBytes (rdBytes s (o.dn 44 6) 128)).valid = false →
    exec (.quantScale k) s = .next (retire k true 11 0 (setAdmitted k s))) ∧
  (∀ (s : State) (k : Nat) (o : Op), Admissible s k 0x11 o → (s.field ((selected (o.dn 40 4)).headD 0)).quantBusy ≠ 0 ∨ heldAny s o.quantRanges = true → exec (.quantScale k) s = .next s) ∧
  (∀ (s : State) (k i : Nat) (o : Op), Admissible s k 0x20 o → heldAny s o.moveRanges = false → o.leaves = false → s.errs = [] → i < o.len → (∀ j, j < o.len → noStore s (o.dst + j) = false) →
    Completes (.move k) s (fun t => InStage t k 3 ∧ Memory.read t.mem (o.dst + i) = rdByte s (o.src + i) ∧
      (∀ a, a < o.dst ∨ o.dst + o.len ≤ a → Memory.read t.mem a = Memory.read s.mem a) ∧
      t = { s with ops := t.ops, seq := t.seq, mem := t.mem, poison := t.poison })) ∧
  (∀ (s : State) (k : Nat) (o : Op), Admissible s k 0x20 o → heldAny s o.moveRanges = false → o.leaves = true → s.errs = [] →
    Completes (.move k) s (fun t => InStage t k 2 ∧ t.seq.opRef = (s.seq.opRef + (cuts o.dst o.len).length) % 65536 ∧
      t.link.own.length = s.link.own.length + (cuts o.dst o.len).length ∧ t = { s with ops := t.ops, seq := t.seq, link := t.link })) ∧
  (∀ (s : State) (k : Nat) (o : Op), Admissible s k 0x21 o → heldAny s o.moveRanges = false → o.leaves = false → s.errs = [] →
    Completes (.moveReduce k) s (fun t => InStage t k 3 ∧ (∀ a, a < o.dst ∨ o.dst + o.len ≤ a → Memory.read t.mem a = Memory.read s.mem a) ∧
      t.tokens = s.tokens ∧ t.link = s.link)) ∧
  (∀ (s : State) (k : Nat) (o : Op), Admissible s k 0x21 o → heldAny s o.moveRanges = false → o.leaves = true → s.errs = [] →
    Completes (.moveReduce k) s (fun t => InStage t k 2 ∧ t.link.own.length = s.link.own.length + (cuts o.dst o.len).length ∧ t.mem = s.mem)) ∧
  (∀ (s : State) (k : Nat) (o : Op), Admissible s k 0x20 o → heldAny s o.moveRanges = true → exec (.move k) s = .next s) ∧
  (∀ (s : State) (k : Nat) (o : Op), Admissible s k 0x21 o → heldAny s o.moveRanges = true → exec (.moveReduce k) s = .next s)

/-- R326, R327, R328, R330, R331, R333: a toll gate. One that waits for nothing retires `done` and its entries have passed its layer's order; one that
meets the next epoch arms the swap, if it is staged, and holds its entries; one that names another epoch retires with REASON 6. The rows of a layer
swap. The next layer's rewrite starts; when it is done the entry holds the next epoch at its own pointer, no next version is left, and no layer is
being rewritten; the drain timeout turns to carry-over; a spilled tensor's copy stands in its slot. -/
def Obligations.TollGatesAndSwapsAct : Prop :=
  (∀ (s : State) (k : Nat) (o : Op), Admissible s k 0x33 o → o.mlist.2 = 0 → handleValid s o.gHandle = true →
    (s.dirEntry (handleIdx o.gHandle)).part = o.part s → (s.swapOf (o.part s)).epoch ≠ o.gEpoch → o.gEpoch ≤ (s.dirEntry (handleIdx o.gHandle)).epoch →
    Completes (.tollgate k) s (fun t => opOf t k = none ∧ t.swaps = s.swaps)) ∧
  (∀ (s : State) (k : Nat) (o : Op), Admissible s k 0x33 o → handleValid s o.gHandle = true → (s.dirEntry (handleIdx o.gHandle)).part = o.part s →
    listOf s o ≠ [] → (∀ i, i ∈ listOf s o → (s.entry i).epoch = o.gEpoch ∧ (s.entry i).state < 2) →
    (s.dirEntry (handleIdx o.gHandle)).epoch < o.gEpoch → (s.dirEntry (handleIdx o.gHandle)).swap ≠ 0 → (s.dirEntry (handleIdx o.gHandle)).nextEpoch = o.gEpoch →
    (s.swapOf (o.part s)).epoch = o.gEpoch → (s.swapOf (o.part s)).armed = false →
    Completes (.tollgate k) s (fun t => InStage t k 2 ∧ (∀ i, i ∈ listOf s o → (t.entry i).state = 2) ∧
      (t.swapOf (o.part s)).armed = true ∧ (t.swapOf (o.part s)).policy = o.gPolicy ∧ (t.swapOf (o.part s)).timeout = o.gTimeout ∧
      (t.swapOf (o.part s)).armedAt = s.tim.beat ∧ t.mem = s.mem)) ∧
  (∀ (s : State) (k : Nat) (o : Op), Admissible s k 0x33 o → handleValid s o.gHandle = false → o.mlist.2 = 0 → exec (.tollgate k) s = .next (retire k true 2 20 s)) ∧
  (∀ (s : State) (k : Nat) (o : Op), opOf s k = some o → o.abortAt = none → gateOpen s o = true → exec (.opRetire k) s = .next (retire k false 0 0 s)) ∧
  (∀ (s : State) (p i : Nat), (s.swapOf p).armed = true → (s.swapOf p).rewriting = none → s.flt.deviceError = false → resetting s p = false →
    nextLayer s p = some i →
    Completes (.layerRewriteStart p) s (fun t => t.dirEntry i = { s.dirEntry i with swap := 3 } ∧ (∀ j, j ≠ i → t.dirEntry j = s.dirEntry j) ∧
      t.swapOf p = { s.swapOf p with rewriting := some i, layersDone := true } ∧ t = { s with dir := t.dir, swaps := t.swaps })) ∧
  (∀ (s : State) (p i j : Nat), nextLayer s p = some i → j ∈ layersOf s p → (s.dirEntry j).swap = 2 → (s.dirEntry j).holders = 0 →
    reachable s p (s.dirEntry j).order = false → (s.dirEntry i).order ≤ (s.dirEntry j).order ∧ (s.dirEntry i).holders = 0 ∧ (s.dirEntry i).swap = 2 ∧
      reachable s p (s.dirEntry i).order = false) ∧
  (∀ (s : State) (p i : Nat), (s.swapOf p).rewriting = some i →
    heldAny s [((s.dirEntry i).nextScalePtr, 4 * (s.dirEntry i).n), ((s.dirEntry i).scalePtr, 4 * (s.dirEntry i).n),
      ((s.dirEntry i).nextPtr, codeBytes (s.dirEntry i).k (s.dirEntry i).n), ((s.dirEntry i).ptr, codeBytes (s.dirEntry i).k (s.dirEntry i).n)] = false →
    Completes (.layerRewriteDone p) s (fun t => (t.swapOf p).rewriting = none ∧ (t.dirEntry i).epoch = (s.swapOf p).epoch ∧ (t.dirEntry i).swap = 0 ∧
      (t.dirEntry i).ptr = (s.dirEntry i).ptr ∧ (t.dirEntry i).scalePtr = (s.dirEntry i).scalePtr ∧ (t.dirEntry i).nextEpoch = 0 ∧
      (t.dirEntry i).zeroCol = (s.dirEntry i).nextZeroCol)) ∧
  (∀ (s : State) (p : Nat), (s.swapOf p).armed = true → (s.swapOf p).policy = 0 → (s.swapOf p).timedOut = false →
    (s.swapOf p).armedAt + 1000 * (s.swapOf p).timeout ≤ s.tim.beat → oldRequests s p ≠ [] →
    Completes (.swapDrainTimeout p) s (fun t => t.swapOf p = { s.swapOf p with timedOut := true, trackCarry := true } ∧
      t = { s with swaps := t.swaps, hostMem := t.hostMem, mbs := t.mbs, stw := t.stw })) ∧
  (∀ (s : State) (a h e src i : Nat), s.wts.hotBusy.find? (fun x => x.1 == a) = some (a, h, e, src) → s.errs = [] →
    heldAny s [(src, codeBytes (s.dirEntry (handleIdx h)).k (s.dirEntry (handleIdx h)).n), (a, codeBytes (s.dirEntry (handleIdx h)).k (s.dirEntry (handleIdx h)).n)] = false →
    i < codeBytes (s.dirEntry (handleIdx h)).k (s.dirEntry (handleIdx h)).n →
    (∀ j, j < codeBytes (s.dirEntry (handleIdx h)).k (s.dirEntry (handleIdx h)).n → noStore s (a + j) = false) →
    Completes (.spillCopyDone a) s (fun t => hotHolds t a h e = true ∧ Memory.read t.mem (a + i) = rdByte s (src + i) ∧
      ∀ o, o ∈ t.ops → o.ptr = a → o.whandle = h → o.epoch = e → o.copying = false))

/-- R314, R315, R317: loading a tensor. `model.load.begin` opens the lowest free context of the partition with the fields it names; a chunk keeps its
context busy from its first arrival to its second, which answers; the end publishes a version under a handle and closes the context. -/
def Obligations.ModelLoadCommandsRun : Prop :=
  (∀ (s : State) (k i : Nat) (c : Cmd), Taken s k 0x0501 c → orElse (loadBeginChecks s c) = none → i < 4 → (s.ctx (4 * c.at 102 1 + i)).open_ = false →
    (∀ j, j < i → (s.ctx (4 * c.at 102 1 + j)).open_ = true) →
    Completes (.modelLoadBegin k) s (fun t => Answered s t k { result := leBytes 1 (4 * c.at 102 1 + i) } ∧
      t.ctx (4 * c.at 102 1 + i) = { open_ := true, handle := c.at 64 4, target := c.at 68 1, sfmt := c.at 69 1, transpose := c.at 70 1 == 1, spill := c.at 71 1 == 1
                                     k := c.at 72 4, n := c.at 76 4, ld := c.at 80 4, epoch := c.at 84 4, dest := c.at 88 6, order := c.at 94 2
                                     destScale := c.at 96 6, stage := c.at 104 6, stageLen := c.at 112 8, hotStage := c.at 120 6 } ∧
      (∀ j, j ≠ 4 * c.at 102 1 + i → t.ctx j = s.ctx j) ∧ t = { s with cmds := t.cmds, ctxs := t.ctxs })) ∧
  (∀ (s : State) (k : Nat) (c : Cmd), Taken s k 0x0502 c → orElse (loadChunkChecks s c) = none →
    Completes (.modelLoadChunk k [] []) s (fun t => Waiting t k ∧ t.ctx (c.at 16 1) = { s.ctx (c.at 16 1) with busy := true } ∧
      t = { s with cmds := t.cmds, ctxs := t.ctxs })) ∧
  (∀ (s : State) (k : Nat) (c : Cmd) (data : List (BitVec 8)) (bad : List Nat), cmdOf s k = some c → c.opcode = 0x0502 → c.started = true → c.decided = false →
    (s.ctx (c.at 16 1)).busy = true → heldAny s ((s.ctx (c.at 16 1)).moved c) = false →
    Completes (.modelLoadChunk k data bad) s (fun t => (t.ctx (c.at 16 1)).busy = false ∧ (∃ r, Answered s t k r ∧ r.wait = false) ∧ t.dir = s.dir ∧ t.ops = s.ops)) ∧
  (∀ (s : State) (k i j : Nat) (c : Cmd), Taken s k 0x0503 c → c.at 16 1 = i → i < 16 → (s.ctx i).open_ = true → c.at 17 47 = 0 → resetting s (i / 4) = false →
    (s.ctx i).busy = false → (s.ctx i).failed = false → (s.ctx i).delivered = true → (s.ctx i).handle = 0 → (s.ctx i).target = 0 → freeIndex s = some j →
    inDdr (s.ctx i).dest = false →
    Completes (.modelLoadEnd k) s (fun t => Answered s t k { result := leBytes 4 (j + 65536 * (s.dirEntry j).gen) } ∧ t.ctx i = {} ∧
      (t.dirEntry j).valid = true ∧ (t.dirEntry j).ptr = (s.ctx i).dest ∧ (t.dirEntry j).scalePtr = (s.ctx i).destScale ∧
      (t.dirEntry j).epoch = (s.ctx i).epoch ∧ (t.dirEntry j).part = i / 4 ∧ (t.dirEntry j).k = (s.ctx i).k ∧ (t.dirEntry j).n = (s.ctx i).n ∧
      (t.dirEntry j).gen = (s.dirEntry j).gen ∧ (∀ m, m ≠ j → t.dirEntry m = s.dirEntry m) ∧ t.mem = s.mem)) ∧
  (∀ (s : State) (k i : Nat) (c : Cmd), Taken s k 0x0503 c → c.at 16 1 = i → i < 16 → (s.ctx i).open_ = true → c.at 17 47 = 0 → resetting s (i / 4) = false →
    (s.ctx i).busy = false → (s.ctx i).failed = true →
    Completes (.modelLoadEnd k) s (fun t => Answered s t k { status := stOutOfRange, detail := 16 } ∧ t.ctx i = {} ∧ t.dir = s.dir))

/-- R323 to R325, R331, R333: the directory's and the swap's commands. A switch changes the entry in one update and its holders become those of the
version before; a free bumps the generation; a stage makes the next version; a cancel drops the swap; a prefetch starts the copy of a spilled tensor. -/
def Obligations.DirectoryCommandsRun : Prop :=
  (∀ (s : State) (k h : Nat) (c : Cmd), Taken s k 0x0504 c → c.at 16 4 = h → handleValid s h = true → c.at 20 4 ≠ 0 → c.at 24 6 % 65536 = 0 → c.at 30 1 ≤ 3 →
    c.at 31 1 = 0 → c.at 32 6 % 64 = 0 → c.at 38 2 = 0 → (bit (c.at 30 1) 1 = false → c.at 40 6 = 0) → c.at 46 18 = 0 →
    resetting s (s.dirEntry (handleIdx h)).part = false → (s.dirEntry (handleIdx h)).prevHolders = 0 → (s.dirEntry (handleIdx h)).swap = 0 →
    noCapacity s (s.dirEntry (handleIdx h)).part 0 (s.dirEntry (handleIdx h)).spilled (bit (c.at 30 1) 1) (c.at 24 6) (c.at 32 6)
      (s.dirEntry (handleIdx h)).k (s.dirEntry (handleIdx h)).n (c.at 40 6) = false →
    Completes (.modelDirSet k) s (fun t => Answered s t k {} ∧ (t.dirEntry (handleIdx h)).ptr = c.at 24 6 ∧ (t.dirEntry (handleIdx h)).scalePtr = c.at 32 6 ∧
      (t.dirEntry (handleIdx h)).epoch = c.at 20 4 ∧ (t.dirEntry (handleIdx h)).holders = 0 ∧
      (t.dirEntry (handleIdx h)).prevHolders = (s.dirEntry (handleIdx h)).holders ∧ (t.dirEntry (handleIdx h)).gen = (s.dirEntry (handleIdx h)).gen ∧
      (∀ o, o ∈ t.ops → o.holds = some (handleIdx h) → o.holdsPrev = true) ∧ (∀ j, j ≠ handleIdx h → t.dirEntry j = s.dirEntry j) ∧ t.mem = s.mem)) ∧
  (∀ (s : State) (k h : Nat) (c : Cmd), Taken s k 0x0506 c → c.at 16 4 = h → handleValid s h = true → c.at 20 44 = 0 →
    resetting s (s.dirEntry (handleIdx h)).part = false → (s.dirEntry (handleIdx h)).holders = 0 → (s.dirEntry (handleIdx h)).prevHolders = 0 →
    (s.dirEntry (handleIdx h)).swap = 0 →
    Completes (.modelDirFree k) s (fun t => Answered s t k {} ∧ handleValid t h = false ∧
      t.dirEntry (handleIdx h) = { s.dirEntry (handleIdx h) with valid := false, gen := ((s.dirEntry (handleIdx h)).gen + 1) % 65536 } ∧
      t = { s with cmds := t.cmds, dir := t.dir })) ∧
  (∀ (s : State) (k h e : Nat) (c : Cmd), Taken s k 0x0507 c → c.at 16 4 = h → handleValid s h = true → c.at 20 4 = e → e ≠ 0 →
    stageEpochBad s (s.dirEntry (handleIdx h)).part e = false → c.at 24 6 % 65536 = 0 →
    stagePlaceBad s (s.dirEntry (handleIdx h)) (c.at 24 6) (codeBytes (s.dirEntry (handleIdx h)).k (s.dirEntry (handleIdx h)).n) = false →
    c.at 32 6 % 64 = 0 → stagePlaceBad s (s.dirEntry (handleIdx h)) (c.at 32 6) (4 * (s.dirEntry (handleIdx h)).n) = false → c.at 38 1 ≤ 1 → c.at 39 25 = 0 →
    resetting s (s.dirEntry (handleIdx h)).part = false → (s.dirEntry (handleIdx h)).swap = 0 →
    Completes (.modelSwapStage k) s (fun t => Answered s t k {} ∧ (t.dirEntry (handleIdx h)).nextPtr = c.at 24 6 ∧ (t.dirEntry (handleIdx h)).nextEpoch = e ∧
      (t.dirEntry (handleIdx h)).ptr = (s.dirEntry (handleIdx h)).ptr ∧ (t.dirEntry (handleIdx h)).order = c.at 30 2 ∧
      (t.dirEntry (handleIdx h)).swap = (if (s.swapOf (s.dirEntry (handleIdx h)).part).armed then 2 else 1) ∧
      (t.swapOf (s.dirEntry (handleIdx h)).part).epoch = e ∧ t = { s with cmds := t.cmds, dir := t.dir, swaps := t.swaps })) ∧
  (∀ (s : State) (k p : Nat) (c : Cmd), Taken s k 0x0509 c → c.at 16 1 = p → p < 4 → p < s.net.parts → (s.swapOf p).epoch ≠ 0 → c.at 17 47 = 0 → resetting s p = false →
    ((s.swapOf p).armed && (s.swapOf p).layersDone) = false → (∀ o, o ∈ s.ops → k ∉ o.abortCmds) → (∀ d, d ∈ s.flt.disabling → d.2.2.2.1 ≠ k) →
    Completes (.modelSwapCancel k) s (fun t => Answered s t k {} ∧ (t.swapOf p).epoch = 0 ∧ (t.swapOf p).armed = false ∧ (t.swapOf p).handles = [] ∧
      ∀ i, i ∈ layersOf s p → (t.dirEntry i).swap = 0 ∧ (t.dirEntry i).nextEpoch = 0 ∧ (t.dirEntry i).ptr = (s.dirEntry i).ptr)) ∧
  (∀ (s : State) (k h : Nat) (c : Cmd), Taken s k 0x050A c → c.at 16 4 = h → handleValid s h = true → (s.dirEntry (handleIdx h)).spilled = true → c.at 20 44 = 0 →
    resetting s (s.dirEntry (handleIdx h)).part = false → hotUsed s (s.dirEntry (handleIdx h)).hotStage h (s.dirEntry (handleIdx h)).epoch = false →
    s.wts.hotBusy.any (fun x => x.1 == (s.dirEntry (handleIdx h)).hotStage) = false → s.ops.any (fun o => o.copying && o.ptr == (s.dirEntry (handleIdx h)).hotStage) = false →
    hotHolds s (s.dirEntry (handleIdx h)).hotStage h (s.dirEntry (handleIdx h)).epoch = false →
    Completes (.modelPrefetch k) s (fun t => Answered s t k {} ∧
      t.wts.hotBusy.any (fun x => x == ((s.dirEntry (handleIdx h)).hotStage, h, (s.dirEntry (handleIdx h)).epoch, (s.dirEntry (handleIdx h)).ptr)) = true ∧
      t = { s with cmds := t.cmds, wts := { s.wts with hotBusy := t.wts.hotBusy } }))

/-- R233, R235, R242, R248, R249, R264, R266, R332: the `exec` commands. A submission joins its stream's queue; an abort takes what is not admitted at
once and is answered when nothing admitted is left; tokens are read in order or cleared; a stream takes its priority. The manifest commands. An entry
opens with its request's fields, becomes DONE, and is freed once no op in flight names it. -/
def Obligations.ExecAndManifestCommandsRun : Prop :=
  (∀ (s : State) (k st u : Nat) (c : Cmd), Taken s k 0x0601 c → c.at 16 1 = st → st < 64 → c.at 17 7 = 0 → c.at 24 6 % 64 = 0 →
    locOf s (c.at 24 6) = .hbm (partOfStream s st) u → c.at 30 2 = 0 → 1 ≤ c.at 32 4 → c.at 32 4 ≤ 65536 → c.at 36 4 = 0 → c.at 40 6 % 16 = 0 → c.at 46 18 = 0 →
    resetting s (partOfStream s st) = false → (s.stream st).subs.length < 256 →
    Completes (.execSubmit k) s (fun t =>
      Answered s t k { status := stAccepted, result := leBytes 4 (s.stream st).subCount ++ leBytes 4 ((s.stream st).subs.length + 1) } ∧
      (t.stream st).subs = (s.stream st).subs ++ [{ id := (s.stream st).subCount, addr := c.at 24 6, count := c.at 32 4, cplBase := c.at 40 6, mb := c.src }] ∧
      (t.stream st).subCount = (s.stream st).subCount + 1 ∧ (∀ j, j ≠ st → t.stream j = s.stream j) ∧ t = { s with cmds := t.cmds, streams := t.streams })) ∧
  (∀ (s : State) (k st : Nat) (c : Cmd), Taken s k 0x0602 c → c.at 16 1 = st → st < 64 → c.at 17 1 = 1 → c.at 20 44 = 0 →
    resetting s (partOfStream s st) = false → queuedOps s st = [] → (∀ o, o ∈ streamOps s st → o.admitted = true) → streamOps s st ≠ [] →
    Completes (.execAbort k) s (fun t => Waiting t k ∧ (∀ o, o ∈ t.ops → o.stream = st → o.abortAt.isSome = true ∧ k ∈ o.abortCmds) ∧ t.mem = s.mem)) ∧
  (∀ (s : State) (k st tag : Nat) (c : Cmd), Taken s k 0x0602 c → c.at 16 1 = st → st < 64 → c.at 17 1 = 0 → c.at 18 2 = tag → c.at 20 44 = 0 →
    resetting s (partOfStream s st) = false → (streamOps s st).filter (fun o => o.tag == tag) = [] →
    (queuedOps s st).filter (fun q => queuedTag s st q == tag) = [] → tag ∈ (s.stream st).tags → abortHeld s k = false →
    Completes (.execAbort k) s (fun t => Answered s t k { status := stAlreadyDone, result := leBytes 4 0 ++ leBytes 4 ((s.stream st).tags.filter (fun x => x == tag)).length } ∧ t = { s with cmds := t.cmds })) ∧
  (∀ (s : State) (k p f n : Nat) (c : Cmd), Taken s k 0x0604 c → c.at 16 1 = p → p < 4 → p < s.net.parts → c.at 17 1 = 0 → c.at 18 2 = f → c.at 20 2 = n → f < 4096 →
    1 ≤ n → f + n ≤ 4096 → 4 * n ≤ 64 * c.extLen → c.at 22 42 = 0 → resetting s p = false →
    Completes (.execToken k) s (fun t => Answered s t k { output := ((List.range n).map (fun i =>
        leBytes 4 ((s.token (4096 * p + f + i)).count.toNat + 65536 * b01 (s.token (4096 * p + f + i)).abort))).flatten } ∧ t = { s with cmds := t.cmds })) ∧
  (∀ (s : State) (k p f n : Nat) (c : Cmd), Taken s k 0x0604 c → c.at 16 1 = p → p < 4 → p < s.net.parts → c.at 17 1 = 1 → c.at 18 2 = f → c.at 20 2 = n → f < 4096 →
    1 ≤ n → f + n ≤ 4096 → c.at 22 42 = 0 → resetting s p = false → tokensNamed s p f n = false →
    Completes (.execToken k) s (fun t => Answered s t k { result := leBytes 4 n } ∧ (∀ i, i < n → t.token (4096 * p + f + i) = {}) ∧
      (∀ j, j < 4096 * p + f ∨ 4096 * p + f + n ≤ j → t.token j = s.token j) ∧ t = { s with cmds := t.cmds, tokens := t.tokens })) ∧
  (∀ (s : State) (k st : Nat) (c : Cmd), Taken s k 0x0605 c → c.at 16 1 = st → st < 64 → c.at 17 1 ≤ 3 → c.at 18 46 = 0 → resetting s (partOfStream s st) = false →
    Completes (.execStream k) s (fun t => Answered s t k {} ∧ t.stream st = { s.stream st with prio := c.at 17 1 } ∧
      (∀ j, j ≠ st → t.stream j = s.stream j) ∧ t = { s with cmds := t.cmds, streams := t.streams })) ∧
  (∀ (s : State) (k i : Nat) (c : Cmd), Taken s k 0x0701 c → c.at 16 2 = i → beyondLicence s i 1 = false → c.at 18 2 = 0 →
    (s.swapOf (partOfEntry s i)).trackE ≤ c.at 20 4 → c.at 48 4 ≤ c.at 52 4 → resetting s (partOfEntry s i) = false → (s.entry i).valid = false →
    inRegion s (partOfEntry s i) 1 (c.at 32 6) (c.at 52 4 * c.at 44 4) = true → inRegion s (partOfEntry s i) 1 (c.at 38 6) (c.at 52 4 * c.at 44 4) = true →
    Completes (.manifestOpen k) s (fun t => Answered s t k {} ∧
      t.entry i = { valid := true, reqId := BitVec.ofNat 64 (c.at 24 8), epoch := c.at 20 4, kptr := c.at 32 6, vptr := c.at 38 6, stride := c.at 44 4
                    length := c.at 48 4, limit := c.at 52 4, user := BitVec.ofNat 64 (c.at 56 8) } ∧
      (∀ j, j ≠ i → t.entry j = s.entry j) ∧ t = { s with cmds := t.cmds, manifest := t.manifest, swaps := t.swaps })) ∧
  (∀ (s : State) (k i : Nat) (c : Cmd), Taken s k 0x0702 c → c.at 16 2 = i → beyondLicence s i 1 = false → c.at 18 46 = 0 → (s.entry i).valid = true →
    resetting s (partOfEntry s i) = false →
    Completes (.manifestClose k) s (fun t => Answered s t k {} ∧ t.entry i = { s.entry i with state := 3 } ∧ (∀ j, j ≠ i → t.entry j = s.entry j) ∧
      t = { s with cmds := t.cmds, manifest := t.manifest })) ∧
  (∀ (s : State) (k i : Nat) (c : Cmd), Taken s k 0x0703 c → c.at 16 2 = i → beyondLicence s i 1 = false → c.at 18 46 = 0 → (s.entry i).valid = true →
    (s.entry i).state = 3 → (s.entry i).inflight = 0 → resetting s (partOfEntry s i) = false →
    Completes (.manifestFree k) s (fun t => Answered s t k {} ∧ t.entry i = { s.entry i with valid := false } ∧ (∀ j, j ≠ i → t.entry j = s.entry j) ∧
      t = { s with cmds := t.cmds, manifest := t.manifest })) ∧
  (∀ (s : State) (k i : Nat) (c : Cmd), Taken s k 0x0703 c → c.at 16 2 = i → beyondLicence s i 1 = false → c.at 18 46 = 0 → (s.entry i).valid = true →
    (s.entry i).state = 3 → (s.entry i).inflight ≠ 0 → resetting s (partOfEntry s i) = false →
    Completes (.manifestFree k) s (fun t => Answered s t k { status := stBusy } ∧ t = { s with cmds := t.cmds })) ∧
  (∀ (s : State) (k i n : Nat) (c : Cmd), Taken s k 0x0704 c → c.at 16 2 = i → c.at 18 2 = n → beyondLicence s i n = false → 1 ≤ n → n ≤ 255 → i + n ≤ manifestSize s →
    64 * n ≤ 64 * c.extLen → c.at 20 44 = 0 → (∀ j, j < n → resetting s (partOfEntry s (i + j)) = false) →
    Completes (.manifestRead k) s (fun t => Answered s t k { output := ((List.range n).map (fun j => entryBytes (s.entry (i + j)))).flatten } ∧
      t = { s with cmds := t.cmds }))

/-- R245, R287, R290, R292, R294, R306, R337, R338: the host's CXL.mem requests, at the device address its decoders give. A read that is served
answers with what the host sees there, a write stores its bytes and no other; a request that is refused changes no memory; one that its unit holds
waits in order; one that meets a link in switch-over waits in its buffer. -/
def Obligations.HostMemoryRequestsAct : Prop :=
  (∀ (s : State) (h a n : Nat), deviceAddr s h = some a → (∀ m, m < 7 → (s.netLink m).switching = false) → hostReq s false a n = .serve → s.errs = [] →
    exec (.hostCxlRead h n []) s = .next { s with memTop := { s.memTop with
      cxlData := (List.range n).map (fun i => seenByte s s.seq.hidden (a + i)), cxlPoison := (wordsOf a n).map (seenBad s s.seq.hidden) } }) ∧
  (∀ (s : State) (h a n : Nat), deviceAddr s h = some a → (∀ m, m < 7 → (s.netLink m).switching = false) →
    hostReq s false a n = .unmapped ∨ hostReq s false a n = .resetting →
    Completes (.hostCxlRead h n []) s (fun t => t.memTop.cxlPoison = List.replicate ((n + 7) / 8) true ∧ t.memTop.cxlData.length = n ∧ t.mem = s.mem)) ∧
  (∀ (s : State) (h a i : Nat) (l : List (BitVec 8)), deviceAddr s h = some a → (∀ m, m < 7 → (s.netLink m).switching = false) →
    hostReq s true a l.length = .serve → s.errs = [] → (∀ j, j < l.length → noStore s (a + j) = false) → i < l.length →
    Completes (.hostCxlWrite h l) s (fun t => Memory.read t.mem (a + i) = l.getD i 0 ∧ seenByte t t.seq.hidden (a + i) = l.getD i 0 ∧
      (∀ b, b < a ∨ a + l.length ≤ b → Memory.read t.mem b = Memory.read s.mem b) ∧
      t = { s with mem := t.mem, poison := t.poison, seq := { s.seq with hidden := t.seq.hidden } })) ∧
  (∀ (s : State) (h a u : Nat) (l : List (BitVec 8)), deviceAddr s h = some a → (∀ m, m < 7 → (s.netLink m).switching = false) →
    hostReq s true a l.length = .held u →
    exec (.hostCxlWrite h l) s = .next { s with memTop := { s.memTop with heldReqs := s.memTop.heldReqs ++ [(u, true, a, l)] } }) ∧
  (∀ (s : State) (h a : Nat) (l : List (BitVec 8)), deviceAddr s h = some a → (∀ m, m < 7 → (s.netLink m).switching = false) →
    hostReq s true a l.length = .unmapped → exec (.hostCxlWrite h l) s = .next (post 0x0112 (leBytes 6 a) s)) ∧
  (∀ (s : State) (h a n d : Nat) (l : List (Nat × Nat)), deviceAddr s h = some a → dieHops 5 (locOf s a).die = (n, d) :: l → (s.netLink n).switching = true →
    Completes (.hostCxlRead h 64 []) s (fun t => t.memTop = s.memTop ∧
      t.netBuf (netKey n d 0) = s.netBuf (netKey n d 0) ++ [{ src := 5, dst := (locOf s a).die, cls := 0, write := false, addr := a, len := 64, data := [] }])) ∧
  (∀ (s : State) (h n : Nat) (l : List (BitVec 8)), deviceAddr s h = none → exec (.hostCxlRead h n []) s = .next s ∧ exec (.hostCxlWrite h l) s = .next s)

/-- R301 to R308, R337 to R339: the controllers' rows. The patrol moves on block by block; a rate trip queues the unit to retrain and starts its
window anew; one unit retrains at a time and serves again when it passes; a zeroed unit reads as zero. A die-to-die link that fails holds its flits,
by class and direction, and sends them over its optical path when that is ready, with D2D_FALLBACK; the fourth that fails is a device error. -/
def Obligations.MemoryControllerAndDieLinkRowsAct : Prop :=
  (∀ (s : State) (u : Nat), s.memTop.scrubEn = true → (s.unit u).state = 1 → (s.unit u).zeroing = false → (s.unit u).hold = false → s.errs = [] →
    exec (.patrolScrubRead u []) s = .next (s.setUnit u { s.unit u with
      scrubPos := if (s.unit u).scrubPos.toNat + 1 < unitBlocks s u then (s.unit u).scrubPos + 1 else 0 })) ∧
  (∀ (s : State) (u : Nat), u < 28 → s.memTop.ceRateLimit < (lastSecond s.tim.beat (s.unit u).ceWin).length → (s.unit u).state = 1 ∨ (s.unit u).state = 2 →
    s.memTop.retrain ≠ some u →
    Completes (.ceRateTrip u) s (fun t => (t.unit u).ceWin = [] ∧ u ∈ t.memTop.queue ∧ (t.unit u).state = (s.unit u).state ∧ t.mem = s.mem)) ∧
  (∀ (s : State) (u : Nat) (rest : List Nat), s.memTop.retrain = none → s.memTop.queue = u :: rest → (s.unit u).state ≠ 0 → (s.unit u).zeroing = false →
    Completes .retrainStart s (fun t => t.unit u = { s.unit u with state := 2, queued := false } ∧
      t.memTop = { s.memTop with retrain := some u, queue := rest, retrainAt := s.tim.beat } ∧ t = { s with units := t.units, memTop := t.memTop })) ∧
  (∀ (s : State) (u : Nat), s.memTop.retrain = some u → exec .retrainStart s = .next s) ∧
  (∀ (s : State) (u : Nat), s.memTop.retrain = some u → recovering s u = false →
    Completes (.retrainDone true) s (fun t => (t.unit u).state = 1 ∧ (t.unit u).hold = false ∧ t.memTop.retrain = none ∧ ∀ r, r ∈ t.memTop.heldReqs → r.1 ≠ u)) ∧
  (∀ (s : State) (u : Nat), s.memTop.retrain = some u → recovering s u = false → u < 12 →
    exec (.retrainDone false) s = .next (raiseFault 0x21 4 u 0 0 { s with memTop := { s.memTop with retrain := none } })) ∧
  (∀ (s : State) (u a : Nat), (s.unit u).zeroing = true → (s.unit u).state ≠ 2 → s.memTop.heldReqs = [] → (locOf s a).unit = u →
    Completes (.memoryZeroingDone u) s (fun t => (t.unit u).zeroing = false ∧ (t.unit u).state = (if (s.unit u).state = 3 then 3 else 1) ∧
      Memory.read t.mem a = 0 ∧ (∀ b, (locOf s b).unit ≠ u → Memory.read t.mem b = Memory.read s.mem b))) ∧
  (∀ (s : State) (n : Nat), n < 7 → (s.netLink n).state = 1 → (s.netLink n).switching = false → s.net.fallbacks < 3 →
    Completes (.d2dLinkFail n) s (fun t => t.netLink n = { s.netLink n with switching := true } ∧ t.net = { s.net with fallbacks := s.net.fallbacks + 1 } ∧
      t = { s with net := t.net, netLinks := t.netLinks })) ∧
  (∀ (s : State) (n : Nat), n < 7 → (s.netLink n).state = 1 → (s.netLink n).switching = false → 3 ≤ s.net.fallbacks →
    Completes (.d2dLinkFail n) s (fun t => t.flt.deviceError = true)) ∧
  (∀ (s : State) (n : Nat), (s.netLink n).switching = true → (∀ i, i < 6 → s.netBuf (6 * n + i) = []) →
    Completes (.d2dFallbackReady n) s (fun t => t.netLink n = { s.netLink n with state := 2, switching := false } ∧ (∀ j, t.netBuf j = s.netBuf j) ∧
      (∀ m, m ≠ n → t.netLink m = s.netLink m) ∧ t.mem = s.mem ∧ t.memTop = s.memTop)) ∧
  (∀ (s : State) (n : Nat) (p : NetPkt), (s.netLink n).switching = true → (∀ m, m ≠ n → (s.netLink m).switching = false) → s.netBuf (6 * n + 1) = [p] →
    (∀ i, i < 6 → i ≠ 1 → s.netBuf (6 * n + i) = []) → p.cls ≠ 0 →
    Completes (.d2dFallbackReady n) s (fun t => t.memTop = { s.memTop with cxlData := p.data, cxlPoison := p.poison } ∧ t.netBuf (6 * n + 1) = [] ∧
      (t.netLink n).state = 2)) ∧
  (∀ (s : State) (n : Nat), (s.netLink n).switching = false → exec (.d2dFallbackReady n) s = .next s)

/-- R291, R292, R303: the decoder corrects every error of one bit of a code word, whichever of its 80 bits it is; a read of such a word of plain
memory leaves its data and poison as they were and no error waiting, and counts one correctable word at its unit. -/
def Obligations.OneBitErrorIsCorrected : Prop :=
  (∀ i : Nat, i < 80 → decodeErr (BitVec.twoPow 80 i) = some (BitVec.twoPow 80 i)) ∧
  (∀ (s : State) (w i : Nat), i < 80 → (∀ f, locOf s (8 * w) ≠ .accv f) →
    (∀ j, j < 8 → Memory.read (touchWord s w (BitVec.twoPow 80 i)).mem (8 * w + j) = Memory.read s.mem (8 * w + j)) ∧
    (touchWord s w (BitVec.twoPow 80 i)).poisoned w = s.poisoned w ∧ (touchWord s w (BitVec.twoPow 80 i)).err w = 0 ∧
    ((locOf s (8 * w)).unit < 31 → (s.unit (locOf s (8 * w)).unit).ce ≠ BitVec.allOnes 32 →
      ((touchWord s w (BitVec.twoPow 80 i)).unit (locOf s (8 * w)).unit).ce = (s.unit (locOf s (8 * w)).unit).ce + 1))

/-- R305, R309, R342, R432, R434 to R437: `dev.mem.retrain` queues the unit and is accepted; `dev.mem.region` records or clears a region.
`dev.partition.config` empties the device's objects and sets the new count for the next beat edge; `power.state` and `power.domain`. -/
def Obligations.MemoryPartitionAndPowerCommandsRun : Prop :=
  (∀ (s : State) (k u : Nat) (c : Cmd), Taken s k 0x0121 c → c.at 16 1 = u → u < 12 ∨ (16 ≤ u ∧ u < 28 ∧ licensed s 2 = true) → (s.unit u).state = 1 ∨ (s.unit u).state = 2 →
    c.at 17 47 = 0 → (unitPartOf s u).any (resetting s) = false → s.memTop.retrain ≠ some u →
    Completes (.devMemRetrain k) s (fun t => Answered s t k { status := stAccepted } ∧ u ∈ t.memTop.queue ∧ t.mem = s.mem ∧
      t = { s with cmds := t.cmds, memTop := { s.memTop with queue := t.memTop.queue }, units := t.units })) ∧
  (∀ (s : State) (k i kd a n : Nat) (c : Cmd), Taken s k 0x0123 c → c.at 16 1 = i → c.at 17 1 = 1 → c.at 18 1 = kd → kd % 8 ≤ 5 → kd < 64 → bits kd 4 2 < s.net.parts →
    c.at 19 5 = 0 → c.at 24 6 = a →
    a < 0x400000000000 ∨ 0x7F0000000000 ≤ a ∨ licensed s 2 = true → a % 4096 = 0 → c.at 30 2 = 0 → c.at 32 8 = n → n ≠ 0 → n % 4096 = 0 → regionBad s i (kd % 8) (bits kd 4 2) a n = false →
    c.at 40 24 = 0 → resetting s (bits kd 4 2) = false →
    Completes (.devMemRegion k) s (fun t => Answered s t k {} ∧
      t.region i = { set := true, kind := kd % 8, opsRo := bit kd 3, part := bits kd 4 2, base := a, len := n } ∧
      (∀ j, j ≠ i → t.region j = s.region j) ∧ t = { s with cmds := t.cmds, regions := t.regions })) ∧
  (∀ (s : State) (k i : Nat) (c : Cmd), Taken s k 0x0123 c → c.at 16 1 = i → c.at 17 1 = 0 → c.at 18 46 = 0 →
    ((s.region i).set && resetting s (s.region i).part) = false →
    Completes (.devMemRegion k) s (fun t => Answered s t k {} ∧ t.region i = {} ∧ (∀ j, j ≠ i → t.region j = s.region j) ∧
      t = { s with cmds := t.cmds, regions := t.regions })) ∧
  (∀ (s : State) (k p : Nat) (c : Cmd), Taken s k 0x0130 c → c.at 16 1 = p → p = 1 ∨ ((p = 2 ∨ p = 4) ∧ licensed s 3 = true) → c.at 17 47 = 0 →
    s.parts.any (fun x => x.2.resetting || x.2.resetReq) = false → configBusy s = false → s.net.partsNext = none →
    Completes (.devPartitionConfig k) s (fun t => Answered s t k {} ∧ t.net = { s.net with partsNext := some p } ∧ t.tokens = [] ∧ t.rowMaps = [] ∧ t.manifest = [] ∧
      t.ctxs = [] ∧ t.swaps = [] ∧ (∀ i, (t.dirEntry i).valid = false) ∧ t.wts = {} ∧ t.sec = (extendConfig c s).sec ∧ t.acc = s.acc)) ∧
  (∀ (s : State) (k : Nat) (c : Cmd), Taken s k 0x0202 c → c.at 16 1 = 1 → c.at 17 47 = 0 → s.bu.step = 10 → s.pwr.next = none → s.pwr.state = 0 →
    (∀ o, o ∈ s.ops → o.code ≠ 0x01) →
    Completes (.powerState k) s (fun t => Waiting t k ∧ t.pwr = { s.pwr with next := some 1, cmd := some k } ∧
      t = { s with cmds := t.cmds, pwr := t.pwr, sec := (extendConfig c s).sec })) ∧
  (∀ (s : State) (k : Nat) (c : Cmd), Taken s k 0x0202 c → c.at 16 1 = 3 → c.at 17 47 = 0 → s.bu.step = 10 → s.pwr.next = none → s.pwr.state = 0 → s.ops = [] →
    Completes (.powerState k) s (fun t => Answered s t k {} ∧ t.pwr.next = some 3 ∧ t.pwr.state = 0)) ∧
  (∀ (s : State) (k : Nat) (c : Cmd), Taken s k 0x0202 c → c.at 16 1 = 1 → c.at 17 47 = 0 → s.bu.step = 10 → s.pwr.next = none → s.pwr.state = 0 →
    (∃ o, o ∈ s.ops ∧ o.code = 0x01) → Completes (.powerState k) s (fun t => Answered s t k { status := stBusy } ∧ t = { s with cmds := t.cmds })) ∧
  (∀ (s : State) (k d : Nat) (c : Cmd), Taken s k 0x0203 c → c.at 16 1 = d → d < 208 → c.at 17 1 = 0 → c.at 18 46 = 0 →
    (dependants d).any (fun x => s.pwr.on.contains x) = false → s.pwr.on.contains d = false ∨ domainIdle s d = true →
    Completes (.powerDomain k) s (fun t => Answered s t k {} ∧ d ∉ t.pwr.on ∧ (∀ x, x ≠ d → (x ∈ t.pwr.on ↔ x ∈ s.pwr.on)) ∧ t = { s with cmds := t.cmds, pwr := t.pwr })) ∧
  (∀ (s : State) (k d : Nat) (c : Cmd), Taken s k 0x0203 c → c.at 16 1 = d → d < 208 → c.at 17 1 = 1 → c.at 18 46 = 0 →
    (prerequisite d).any (fun x => !s.pwr.on.contains x) = false →
    Completes (.powerDomain k) s (fun t => Answered s t k {} ∧ d ∈ t.pwr.on ∧ t = { s with cmds := t.cmds, pwr := t.pwr }))

/-- R343 to R345, R402: a partition's reset. It is asked for, takes effect at a beat edge, when the partition's ops, tokens, accumulators and feed
SRAM are gone and the command is accepted, and is released when its stacks are zero, with its mailboxes' rings empty. -/
def Obligations.PartitionResetRuns : Prop :=
  (∀ (s : State) (k p : Nat) (c : Cmd), Taken s k 0x0131 c → c.at 16 1 = p → p < 4 → p < s.net.parts → c.at 17 47 = 0 → (s.partOf p).resetting = false →
    (s.partOf p).resetReq = false →
    Completes (.devPartitionReset k) s (fun t => Waiting t k ∧ t.partOf p = { s.partOf p with resetReq := true, cmd := some k } ∧
      (∀ q, q ≠ p → t.partOf q = s.partOf q) ∧ t = { s with cmds := t.cmds, parts := t.parts })) ∧
  (∀ (s : State) (p k : Nat) (c : Cmd), (s.partOf p).resetReq = true → p < s.net.parts → s.flt.deviceError = false → (s.partOf p).cmd = some k → cmdOf s k = some c →
    c.decided = false →
    Completes (.partitionResetEffective p) s (fun t => resetting t p = true ∧ (∀ o, o ∈ t.ops → o.part s ≠ p) ∧ (∀ i, i / 4096 = p → t.token i = {}) ∧
      (∀ m, m ∈ t.rowMaps → m.part ≠ p) ∧ (∀ f i, f ∈ fieldsOfPart s p → i / 2097152 = f → t.accCell i = {}) ∧
      (∀ f a, f ∈ fieldsOfPart s p → 0x7F0000000000 + 0x2000000 * f ≤ a → a < 0x7F0000000000 + 0x2000000 * f + 0x1800000 → Memory.read t.mem a = 0) ∧
      (∃ c', cmdOf t k = some c' ∧ c'.decided = true ∧ c'.status = stAccepted))) ∧
  (∀ (s : State) (p : Nat), (s.partOf p).resetReq = false → exec (.partitionResetEffective p) s = .next s) ∧
  (∀ (s : State) (p : Nat), (s.partOf p).resetting = true → (∀ u, u ∈ liveStacks s p → (s.unit u).zeroing = false) →
    Completes (.partitionResetRelease p []) s (fun t => resetting t p = false ∧ (∀ m, partOfMb s m = p → (t.mb m).enable = false ∧ (t.mb m).cmdHead = 0 ∧
        (t.mb m).cmdTail = 0 ∧ (t.mb m).cplHead = 0 ∧ (t.mb m).cplTail = 0) ∧
      ∀ f c, f ∈ fieldsOfPart s p → c ∈ coresOf f → (s.coreOf c).state ≠ 3 → (t.coreOf c).verified = true))

/-- R354 to R357, R370: the flits of a port that is up. Every 512th is a marker, which carries a time message that is due (assumption log 58). The
first data flit that holds a credit leaves with the next sequence number and stays for replay; a sound flit with the number expected is accepted, any
other asks for a replay; returned credits count at once; a replay request resends from the flit it names, and the sixteenth in a row takes the port
into training. -/
def Obligations.FlitsAct : Prop :=
  (∀ (s : State) (p : Nat) (pk : Packet), p < 24 → (s.port p).state = 2 → (s.port p).reqReplay = false → (s.port p).resend = 0 → (s.port p).replayBuf.length < 2048 → (s.port p).flits ≠ 511 →
    (s.port p).nextPacket [] (s.port p).waiting = some pk →
    Completes (.flitSend p) s (fun t => ∃ fl, (t.port p).replayBuf = (s.port p).replayBuf ++ [fl] ∧
      fl = { pkFlit pk (tget 0 (s.port p).txDone (pkPool pk)) with seq := (s.port p).seqTx, shared := decide (64 ≤ (s.port p).used (pkPool pk)) } ∧
      (t.port p).seqTx = ((s.port p).seqTx + 1) % 4096 ∧ (t.port p).txOut.map Flit.payload = some fl.payload ∧
      (t.port p).txOut.map Flit.ack = some (((s.port p).seqRx + 4095) % 4096) ∧ (t.port p).txOut.any (fun x => x.crc == flitCheck x) = true ∧
      (t.port p).flits = (s.port p).flits + 1 ∧ (∀ q, q ≠ p → t.port q = s.port q) ∧ t = { s with ports := t.ports })) ∧
  (∀ (s : State) (p : Nat), p < 24 → (s.port p).state = 2 → (s.port p).flits = 511 →
    Completes (.flitSend p) s (fun t => (t.port p).txOut.any (fun x => x.kind == 2 && x.cls == 2 && x.crc == flitCheck x &&
        x.payload == (if (s.port p).tmDue then leBytes 8 s.tim.beat ++ leBytes 4 (2 * s.tim.t) else [])) = true ∧
      (t.port p).flits = 0 ∧ (t.port p).tmDue = false ∧ (t.port p).replayBuf = (s.port p).replayBuf ∧ (t.port p).seqTx = (s.port p).seqTx ∧
      (∀ q, q ≠ p → t.port q = s.port q) ∧ t = { s with ports := t.ports })) ∧
  (∀ (s : State) (p : Nat), (s.port p).state ≠ 2 → exec (.flitSend p) s = .next s) ∧
  (∀ (s : State) (p corr unc : Nat) (fl : Flit), p < 24 → (s.port p).state = 2 → fl.kind = 1 → fl.crc = flitCheck fl → fl.seq = (s.port p).seqRx →
    Completes (.flitReceive p fl true corr unc) s (fun t => (t.port p).rxBuf = (s.port p).rxBuf ++ [fl] ∧
      (t.port p).seqRx = ((s.port p).seqRx + 1) % 4096 ∧ (t.port p).reqReplay = false ∧ (∀ q, q ≠ p → t.port q = s.port q) ∧ t = { s with ports := t.ports })) ∧
  (∀ (s : State) (p corr unc : Nat) (fl : Flit) (cl : Bool), p < 24 → (s.port p).state = 2 → cl = false ∨ fl.crc ≠ flitCheck fl ∨ (fl.kind = 1 ∧ fl.seq ≠ (s.port p).seqRx) →
    Completes (.flitReceive p fl cl corr unc) s (fun t => (t.port p).rxBuf = (s.port p).rxBuf ∧ (t.port p).seqRx = (s.port p).seqRx ∧ (t.port p).reqReplay = true ∧
      (t.port p).fecCorr = satAdd (s.port p).fecCorr corr ∧ (t.port p).fecUncorr = satAdd (s.port p).fecUncorr unc ∧ t = { s with ports := t.ports })) ∧
  (∀ (s : State) (p q n : Nat), p < 24 → (s.port p).state = 2 → q ≤ 8 →
    Completes (.creditReturn p q n) s (fun t => (t.port p).used q = (s.port p).used q - n ∧ (t.port p).shared = (s.port p).shared ∧
      (∀ j, j ≠ q → (t.port p).used j = (s.port p).used j) ∧ t = { s with ports := t.ports })) ∧
  (∀ (s : State) (p n : Nat), p < 24 → (s.port p).state = 2 →
    exec (.creditReturn p 9 n) s = .next (s.setPort p { s.port p with shared := min 1728 ((s.port p).shared + n) })) ∧
  (∀ (s : State) (p frm : Nat) (l : LinkPort), p < 24 → (s.port p).state = 2 → (s.port p).acked ((frm + 4095) % 4096) = l → l.replayBuf ≠ [] → l.replayRow < 15 →
    exec (.replayRequest p frm) s = .next (s.setPort p { l with replays := satInc l.replays, replayRow := l.replayRow + 1, resend := l.replayBuf.length })) ∧
  (∀ (s : State) (p frm : Nat) (l : LinkPort), p < 24 → (s.port p).state = 2 → (s.port p).acked ((frm + 4095) % 4096) = l → l.replayBuf ≠ [] → l.replayRow = 15 →
    Completes (.replayRequest p frm) s (fun t => (t.port p).state = 1 ∧ (t.port p).replayRow = 0 ∧ (t.port p).replayBuf = l.replayBuf ∧
      t = { s with ports := t.ports, pins := t.pins }))

/-- R351, R353, R358 to R360: ports train, narrow, fall and retrain. A port comes up at the width its lanes passed when both ends agree on the FEC
mode; a failed lane takes its quad out and is reported; LE_FLT_N takes its port down. -/
def Obligations.LinkPortsAct : Prop :=
  (∀ (s : State) (p : Nat) (q : BitVec 4), p < 24 → (s.port p).state = 1 → s.pins.leFltN.getLsbD p = true → q &&& ~~~(s.port p).disQuads ≠ 0 →
    (s.port p).cmd = none → s.link.phase ≠ 1 →
    Completes (.linkPortTrained p q (s.port p).lightNext true) s (fun t => (t.port p).state = 2 ∧ (t.port p).quadOk = q &&& ~~~(s.port p).disQuads ∧
      (t.port p).width = popcount 4 (q &&& ~~~(s.port p).disQuads).toNat - 1 ∧ (t.port p).light = (s.port p).lightNext ∧
      (t.port p).resend = (s.port p).replayBuf.length ∧ (∀ j, j ≠ p → t.port j = s.port j) ∧ t = { s with ports := t.ports })) ∧
  (∀ (s : State) (p : Nat) (q : BitVec 4) (x : Bool), p < 24 → (s.port p).state = 1 → s.pins.leFltN.getLsbD p = true → x ≠ (s.port p).lightNext → (s.port p).retries < 3 →
    Completes (.linkPortTrained p q x true) s (fun t => (t.port p).state = 0 ∧ (t.port p).reason = 5 ∧ (t.port p).retries = (s.port p).retries + 1 ∧
      (t.port p).retryAt = s.tim.beat ∧ t = { s with ports := t.ports, cmds := t.cmds })) ∧
  (∀ (s : State) (p : Nat), p < 24 → (s.port p).state ≠ 3 →
    Completes (.linkPortDown p) s (fun t => (t.port p).state = 0 ∧ (t.port p).resend = (s.port p).replayBuf.length ∧ (∀ j, j ≠ p → (t.port j).state = (s.port j).state) ∧
      t = { s with ports := t.ports, link := t.link })) ∧
  (∀ (s : State) (p n : Nat) (q : BitVec 4), p < 24 → n < 16 → (s.port p).state = 2 → q = BitVec.twoPow 4 (n / 4) → (s.port p).quadOk &&& q ≠ 0 →
    (s.port p).quadOk &&& ~~~q ≠ 0 →
    Completes (.laneFail p n) s (fun t => (t.port p).state = 2 ∧ (t.port p).quadOk = (s.port p).quadOk &&& ~~~q ∧
      (t.port p).width = popcount 4 ((s.port p).quadOk &&& ~~~q).toNat - 1 ∧ (t.port p).dropAt = some s.tim.beat)) ∧
  (∀ (s : State) (p n : Nat) (q : BitVec 4), p < 24 → n < 16 → (s.port p).state = 2 → q = BitVec.twoPow 4 (n / 4) → (s.port p).quadOk = q →
    Completes (.laneFail p n) s (fun t => (t.port p).state = 0)) ∧
  (∀ (s : State) (p b : Nat), p < 24 → (s.port p).state ≠ 3 → s.pins.leFltN.getLsbD p = true → (s.port p).dropAt = some b → b + 1000000 ≤ s.tim.beat →
    Completes (.laneDropRetrain p) s (fun t => (t.port p).state = 1 ∧ (t.port p).dropAt = none ∧ t = { s with ports := t.ports, pins := t.pins })) ∧
  (∀ (s : State) (p : Nat), p < 24 → (s.port p).state = 0 → (s.port p).retries ≠ 0 → (s.port p).retryAt + 2000000 ≤ s.tim.beat →
    exec (.portTrainRetry p) s = .next (s.setPort p { s.port p with state := 1 })) ∧
  (∀ (s : State) (p : Nat), s.tim.beat < (s.port p).retryAt + 2000000 → exec (.portTrainRetry p) s = .next s) ∧
  (∀ (s : State) (p : Nat), p < 24 → s.pins.leEn.getLsbD p = true → (s.port p).state ≠ 3 →
    Completes (.leFltNFall p) s (fun t => (t.port p).state = 0 ∧ t.pins.leFltN.getLsbD p = false ∧ (∀ j, j ≠ p → t.pins.leFltN.getLsbD j = s.pins.leFltN.getLsbD j))) ∧
  (∀ (s : State) (p : Nat), p < 24 → s.pins.leFltN.getLsbD p = false → s.pins.leEn.getLsbD p = true → (s.port p).state = 0 →
    Completes (.leFltNRestore p) s (fun t => (t.port p).state = 1 ∧ t.pins.leFltN.getLsbD p = true ∧ t = { s with ports := t.ports, pins := t.pins })) ∧
  (∀ (s : State) (p : Nat) (st tp : BitVec 16) (rx : List Int), p < 24 →
    exec (.lightEnginePoll p true 1 st tp rx) s = .next (s.setPort p { s.port p with engStatus := st, engTemp := tp, engRx := rx.take 16 })) ∧
  (∀ (s : State) (p : Nat) (a : Bool) (pr st tp : BitVec 16) (rx : List Int), p < 24 → a = false ∨ pr ≠ 1 → (s.port p).state ≠ 3 →
    Completes (.lightEnginePoll p a pr st tp rx) s (fun t => (t.port p).state = 3 ∧ (t.port p).reason = 2 ∧ t.pins.leEn.getLsbD p = false ∧
      t = { s with ports := t.ports, pins := t.pins, link := t.link, cmds := t.cmds }))

/-- R361 to R364, R366, R369: packets. A packet here is delivered, a packet elsewhere goes to the port its direction steers it to with HOPS one
higher, and the 255th hop loses it; a write that is in order stores its bytes and is acknowledged, a refused one stores nothing and is answered with a
refuse ack; an ack completes its packet. -/
def Obligations.PacketsAct : Prop :=
  (∀ (s : State) (pk : Packet) (p : Nat), p < 24 → packetWaits s pk p = true → pk.dst = s.link.coord →
    Completes (.packetForward pk p) s (fun t => t.link = { s.link with delivered := s.link.delivered ++ [pk] } ∧
      (t.port p).rxBuf = dropPacket (pkPool pk) (s.port p).rxBuf ∧ t = { s with ports := t.ports, link := t.link })) ∧
  (∀ (s : State) (pk pk' : Packet) (d p : Nat), s.link.own.contains pk = true → pk.dst ≠ s.link.coord → s.link.routed = true → s.link.phase ≠ 5 → pk.hops < 254 →
    presentDev s pk.dst = true → routePacket s pk 6 = some (d, pk') → steer s d (pkPool pk') 0 = some p →
    Completes (.packetForward pk 24) s (fun t => (t.port p).waiting = (s.port p).waiting ++ [pk'] ∧ (∀ j, j ≠ p → t.port j = s.port j) ∧
      pk' = { pk with vc := pk'.vc, escape := pk'.escape, hops := pk.hops + 1 } ∧ t = { s with ports := t.ports, link := t.link, ops := t.ops })) ∧
  (∀ (s : State) (pk : Packet) (p : Nat), p < 24 → packetWaits s pk p = true → pk.dst ≠ s.link.coord → s.link.routed = true → s.link.phase ≠ 5 → 254 ≤ pk.hops →
    Completes (.packetForward pk p) s (fun t => t.link.lost = s.link.lost + 1 ∧ t.link.delivered = s.link.delivered)) ∧
  (∀ (s : State) (pk : Packet) (i : Nat), s.link.delivered.contains pk = true → held s (pkStart pk) pk.bytes = false → pk.type = 0 → refusal s pk = 0 → s.errs = [] →
    (∀ j, j < pk.data.length → noStore s (pkStart pk + j) = false) → i < pk.data.length →
    Completes (.writePacketArrival pk) s (fun t => Memory.read t.mem (pkStart pk + i) = pk.data.getD i 0 ∧
      (∀ b, b < pkStart pk ∨ pkStart pk + pk.data.length ≤ b → Memory.read t.mem b = Memory.read s.mem b) ∧
      t.link.own = s.link.own ++ [{ dst := pk.src, src := s.link.coord, type := 3, opref := pk.opref }] ∧
      t = { s with mem := t.mem, poison := t.poison, link := t.link, seq := { s.seq with hidden := t.seq.hidden } })) ∧
  (∀ (s : State) (pk : Packet), s.link.delivered.contains pk = true → held s (pkStart pk) pk.bytes = false → pk.type = 0 → refusal s pk ≠ 0 →
    Completes (.writePacketArrival pk) s (fun t => t.mem = s.mem ∧ t.poison = s.poison ∧
      t.link.own = s.link.own ++ [{ dst := pk.src, src := s.link.coord, type := 4, opref := pk.opref }])) ∧
  (∀ (s : State) (pk : Packet), s.link.delivered.contains pk = true → held s (pkStart pk) pk.bytes = false → pk.type = 1 ∨ pk.type = 2 → (locOf s (pkStart pk)).unit = 31 →
    Completes (.reducePacketArrival pk) s (fun t => t.mem = s.mem ∧
      t.link.own = s.link.own ++ [{ dst := pk.src, src := s.link.coord, type := 4, opref := pk.opref }])) ∧
  (∀ (s : State) (pk : Packet), s.link.delivered.contains pk = true → held s (pkStart pk) pk.bytes = false → pk.type = 2 → (locOf s (pkStart pk)).unit ≠ 31 → refusal s pk = 0 → s.errs = [] →
    pk.data.length = 4 → pk.poison = [] → noStore s (pkStart pk) = false → pkStart pk % 4 = 0 →
    Completes (.reducePacketArrival pk) s (fun t =>
      (s.poisoned (pkStart pk / 8) = false → rdNat t (pkStart pk) 4 = fpAdd fp32 (rdNat s (pkStart pk) 4) (leNat pk.data) % 2 ^ 32) ∧
      (∀ b, b < pkStart pk ∨ pkStart pk + 4 ≤ b → Memory.read t.mem b = Memory.read s.mem b) ∧
      t.link.own = s.link.own ++ [{ dst := pk.src, src := s.link.coord, type := 3, opref := pk.opref }])) ∧
  (∀ (s : State) (pk : Packet) (r : Nat) (u : Nat × Nat × Nat × Nat), s.link.delivered.find? (fun x => x.type == 3 && x.opref == r) = some pk →
    s.seq.remoteUnacked.find? (fun x => x.1 == r) = some u →
    Completes (.writeAckReceive r false) s (fun t => (∀ x, x ∈ t.seq.remoteUnacked → x.1 ≠ r) ∧ (∀ o, o ∈ t.ops → r ∉ o.acks) ∧
      (∀ x, x ∈ t.link.pending10 → x.1 ≠ r) ∧ t = { s with seq := t.seq, ops := t.ops, link := t.link })) ∧
  (∀ (s : State) (r b : Nat) (u : Nat × Nat × Nat × Nat), s.link.pending10.find? (fun x => x.1 == r) = some (r, b) → s.seq.remoteUnacked.find? (fun x => x.1 == r) = some u →
    b + 10000 ≤ s.tim.beat →
    Completes (.linkWriteLost r) s (fun t => (∀ x, x ∈ t.seq.remoteUnacked → x.1 ≠ r) ∧ (∀ o, o ∈ t.ops → r ∉ o.acks) ∧ t.mem = s.mem)) ∧
  (∀ (s : State) (r b : Nat), s.link.pending10.find? (fun x => x.1 == r) = some (r, b) → s.tim.beat < b + 10000 → exec (.linkWriteLost r) s = .next s)

/-- R22 to R24, R370, R371, R502, R503: time. A time message is due on an up port of each direction (the lowest, assumption log 58), and gives its
link's delay and, from the parent, this device's lead; TICKIN counts within 50 ns of the beat edge; three missing edges fall back to link time; a
disagreement is reported once in its run. -/
def Obligations.LinkTimeActs : Prop :=
  (∀ (s : State) (d : Nat), d < 6 → upPorts s d ≠ [] → tget 0 s.link.tmSent d = 0 ∨ tget 0 s.link.tmSent d + 63 ≤ s.tim.beat →
    Completes .timeMessageSend s (fun t => tget 0 t.link.tmSent d = s.tim.beat + 1 ∧ (t.port ((upPorts s d).headD 0)).tmDue = true ∧
      t = { s with link := { s.link with tmSent := t.link.tmSent }, ports := t.ports })) ∧
  (∀ (s : State) (d : Nat), upPorts s d = [] → Completes .timeMessageSend s (fun t => tget 0 t.link.tmSent d = tget 0 s.link.tmSent d)) ∧
  (∀ (s : State) (p b tx rx : Nat) (back here : Int), p < 24 → (s.port p).state = 2 → here = ((s.tim.beat : Int) - b) * 20000 + rx - tx →
    s.link.parent = some (dirOf p) → s.link.phase ≠ 5 →
    exec (.timeMessageReceive p b tx rx back) s = .next { s.setPort p { s.port p with tmBeat := b % 2 ^ 32, tmDelay := (here + back) / 2 } with
      tim := { s.tim with ltOff := (here - back) / 2 } }) ∧
  (∀ (s : State) (p b tx rx : Nat) (back here : Int), p < 24 → (s.port p).state = 2 → here = ((s.tim.beat : Int) - b) * 20000 + rx - tx →
    s.link.parent ≠ some (dirOf p) →
    exec (.timeMessageReceive p b tx rx back) s = .next (s.setPort p { s.port p with tmBeat := b % 2 ^ 32, tmDelay := (here + back) / 2 })) ∧
  (∀ (s : State) (off : Int), s.tim.counting = true → s.tim.tickUse = true → off.natAbs ≤ 1000 →
    exec (.tickinEdge off) s = .next { s with tim := { s.tim with tickSeen := true, tickOff := off } }) ∧
  (∀ (s : State) (off : Int), s.tim.tickUse = true → 1000 < off.natAbs → exec (.tickinEdge off) s = .next s) ∧
  (∀ (s : State), s.tim.tickUse = true → 3 ≤ s.tim.tickMiss →
    exec .tickFallback s = .next (post 0x0103 [] { s with tim := { s.tim with tickUse := false, tickMiss := 0, disagree := 0 }, link := { s.link with linkTime := true } })) ∧
  (∀ (s : State), s.tim.tickUse = false ∨ s.tim.tickMiss < 3 → exec .tickFallback s = .next s) ∧
  (∀ (s : State), s.tim.tickUse = true → s.tim.disagree = 64 →
    exec .tickDisagree s = .next (post 0x0104 [] { s with tim := { s.tim with disagree := 65 } })) ∧
  (∀ (s : State), s.tim.disagree ≠ 64 → exec .tickDisagree s = .next s)

/-- R373 to R377: muster. An identity that is genuine and in its place passes its port, any other disables it; reports join the bitmap; the root
declares system ready when its bitmap is complete or at 120 s, the standby root at 123 s; the absent list travels with it; route tables take force at
their beat. -/
def Obligations.MusterRuns : Prop :=
  (∀ (s : State) (p c q x y z : Nat) (m : List (BitVec 8)), p < 24 → (s.port p).state = 2 → s.link.configured = true → s.link.phase = 3 →
    c = neighbour s s.link.coord (dirOf p) → q = p - p % 6 + (p % 6 ^^^ 1) → x = s.link.lenX → y = s.link.lenY → z = s.link.lenZ →
    Completes (.identityMessage p c q x y z m) s (fun t =>
      if Config.sigOk s.link.nonce m = true then t = s.setPort p { s.port p with passed := true, partner := c, partnerPort := q }
      else (t.port p).state = 3 ∧ (t.port p).reason = 3 ∧ (t.port p).passed = (s.port p).passed ∧ t.pins.leEn.getLsbD p = false)) ∧
  (∀ (s : State) (p c q x y z : Nat) (m : List (BitVec 8)), p < 24 → (s.port p).state = 2 → s.link.configured = true → s.link.phase = 3 →
    c ≠ neighbour s s.link.coord (dirOf p) →
    Completes (.identityMessage p c q x y z m) s (fun t => (t.port p).state = 3 ∧ (t.port p).passed = (s.port p).passed ∧
      (t.port p).reason = (if Config.sigOk s.link.nonce m = true then 4 else 3))) ∧
  (∀ (s : State) (p : Nat), p < 24 → (s.port p).state < 2 → s.link.phase = 3 →
    exec (.musterPortTimeout p) s = .next (s.setPort p { s.port p with state := 0, reason := 6, retries := 0 })) ∧
  (∀ (s : State) (p : Nat), p < 24 → (s.port p).state < 2 → s.link.phase = 2 → (∀ q, q < 24 → q ≠ p → portSettled (s.port q) = true) →
    Completes (.musterPortTimeout p) s (fun t => t.link.phase = 3 ∧ coordIdx s.link.coord ∈ t.link.bitmap ∧ coordIdx s.link.coord ∈ t.link.bitmap2)) ∧
  (∀ (s : State) (d b i : Nat) (l : List Nat), s.link.phase ≠ 0 → d < 6 → s.link.readySeen = false →
    Completes (.musterReport d false l b) s (fun t => (i ∈ t.link.bitmap ↔ i ∈ s.link.bitmap ∨ i ∈ l) ∧ d ∈ t.link.childrenIn ∧ t.link.bitmap2 = s.link.bitmap2 ∧
      t = { s with link := t.link })) ∧
  (∀ (s : State) (l : List Nat) (b : Nat), s.link.phase = 3 → s.link.reported = false → s.link.coord ≠ s.link.root →
    Completes (.musterReport 6 false l b) s (fun t => t.link.reported = true ∧ t.tim.beat = b ∧ t.tim.admits = (s.tim.admits || mayAdmit s))) ∧
  (∀ (s : State) (ms b : Nat), s.link.coord = s.link.root → s.link.phase = 3 → s.link.readySeen = false → s.tim.beat < b → missing s s.link.bitmap = [] →
    Completes (.systemReadyDeclare ms b) s (fun t => t.link.readySeen = true ∧ t.link.readyBeat = some b ∧ t.link.absent = [] ∧ (6, b, []) ∈ t.link.floods)) ∧
  (∀ (s : State) (ms b : Nat), s.link.coord = s.link.root → s.link.phase = 3 → s.link.readySeen = false → s.tim.beat < b → 120000 ≤ ms →
    Completes (.systemReadyDeclare ms b) s (fun t => t.link.readySeen = true ∧ t.link.absent = missing s s.link.bitmap)) ∧
  (∀ (s : State) (ms b : Nat), missing s s.link.bitmap ≠ [] → ms < 120000 → exec (.systemReadyDeclare ms b) s = .next s) ∧
  (∀ (s : State) (ms b : Nat), s.link.coord = s.link.root2 → s.link.phase = 3 → s.link.readySeen = false → s.tim.beat < b → 123000 ≤ ms →
    Completes (.standbyRootDeclare ms b) s (fun t => t.link.readySeen = true ∧ t.link.absent = missing s s.link.bitmap2)) ∧
  (∀ (s : State) (ms b : Nat), ms < 123000 → exec (.standbyRootDeclare ms b) s = .next s) ∧
  (∀ (s : State) (l : List Nat) (b : Nat), 1 ≤ s.link.phase → s.link.readySeen = false → s.link.coord ∉ l →
    Completes (.systemReadyReceive l b) s (fun t => t.link.readySeen = true ∧ t.link.readyBeat = some b ∧ t.link.absent = l ∧ t.link.phase = s.link.phase ∧
      (6, b, l) ∈ t.link.floods ∧ t = { s with link := t.link })) ∧
  (∀ (s : State) (l : List Nat) (b : Nat), s.link.readySeen = true → exec (.systemReadyReceive l b) s = .next s) ∧
  (∀ (s : State) (c b : Nat), 3 ≤ s.link.phase → (c, true, b) ∉ s.link.pendRoute →
    exec (.routeUpdateReceive c true b) s = .next { s with link := { s.link with pendRoute := s.link.pendRoute ++ [(c, true, b)], floods := s.link.floods ++ [(23, b, [c])] } }) ∧
  (∀ (s : State) (c b : Nat), s.link.readyBeat = none → s.link.pendRoute = [(c, false, b)] → b ≤ s.tim.beat → c ≠ s.link.coord →
    Completes .routeSwitchBeat s (fun t => c ∈ t.link.absent ∧ t.link.pendRoute = [] ∧ t.link.routeEpoch = (s.link.routeEpoch + 1) % 2 ^ 32 ∧
      t.link.routed = s.link.routed ∧ t = { s with link := t.link })) ∧
  (∀ (s : State) (b : Nat), s.link.readyBeat = some b → b ≤ s.tim.beat → s.link.pendRoute = [] →
    Completes .routeSwitchBeat s (fun t => t.link.routed = true ∧ t.link.phase = 4 ∧ t.link.readyBeat = none))

/-- R3, R353, R360, R365, R372, R377, R378, R503: the link commands. -/
def Obligations.LinkCommandsRun : Prop :=
  (∀ (s : State) (k x y z : Nat) (c : Cmd), Taken s k 0x0802 c → c.at 18 1 = x → c.at 19 1 = y → c.at 20 1 = z → 1 ≤ x → x ≤ 16 → 1 ≤ y → y ≤ 24 → 1 ≤ z → z ≤ 32 →
    x * y * z ≤ 64 ∨ licensed s 5 = true → (c.at 16 2 % 16 < x ∧ c.at 16 2 / 16 % 32 < y ∧ c.at 16 2 / 512 < z) →
    (c.at 22 2 % 16 < x ∧ c.at 22 2 / 16 % 32 < y ∧ c.at 22 2 / 512 < z) → (c.at 24 2 % 16 < x ∧ c.at 24 2 / 16 % 32 < y ∧ c.at 24 2 / 512 < z) →
    c.at 21 1 = 0 → c.at 26 38 = 0 → s.link.phase = 0 → s.tim.everAdmitted = false → (∀ p, (s.port p).cmd = none) →
    Completes (.linkConfig k) s (fun t => Answered s t k {} ∧ t.link.configured = true ∧ t.link.coord = c.at 16 2 ∧ t.link.lenX + 1 = x ∧ t.link.lenY + 1 = y ∧
      t.link.lenZ + 1 = z ∧ t.link.root = c.at 22 2 ∧ t.link.root2 = c.at 24 2 ∧ t.tim = { s.tim with admits := false, aloneStart := false } ∧
      t.sec = (extendConfig c s).sec)) ∧
  (∀ (s : State) (k p : Nat) (c : Cmd), Taken s k 0x0803 c → c.at 16 1 = p → p < 24 → p < 6 ∨ licensed s 1 = true → c.at 17 47 = 0 → (s.port p).state = 0 ∨ (s.port p).state = 2 →
    Completes (.linkPortRetrain k) s (fun t => Answered s t k { status := stAccepted } ∧ (t.port p).state = 1 ∧ (t.port p).retries = 0 ∧
      t = { s with cmds := t.cmds, ports := t.ports, pins := t.pins })) ∧
  (∀ (s : State) (k p : Nat) (c : Cmd), Taken s k 0x0803 c → c.at 16 1 = p → p < 24 → p < 6 ∨ licensed s 1 = true → (s.port p).state = 3 →
    Completes (.linkPortRetrain k) s (fun t => (∃ r, Answered s t k r ∧ r.status = stOutOfRange) ∧ t = { s with cmds := t.cmds })) ∧
  (∀ (s : State) (k p : Nat) (c : Cmd), Taken s k 0x0804 c → c.at 16 1 = p → p < 24 → c.at 17 47 = 0 → (s.port p).state ≠ 3 → upPorts s (dirOf p) ≠ [p] ∨ (s.port p).waiting = [] →
    (s.port p).cmd = none →
    Completes (.linkPortDisable k) s (fun t => Answered s t k {} ∧ (t.port p).state = 3 ∧ (t.port p).reason = 7 ∧ t.pins.leEn.getLsbD p = false ∧
      t = { s with cmds := t.cmds, ports := t.ports, pins := t.pins })) ∧
  (∀ (s : State) (k p : Nat) (c : Cmd), Taken s k 0x0805 c → c.at 16 1 = p → p < 24 → p < 6 ∨ licensed s 1 = true → (s.link.configured && lenAt s (p % 6 / 2) == 1) = false →
    c.at 17 47 = 0 → (s.port p).cmd = none → inMuster s = false → (s.port p).state ≠ 2 →
    Completes (.linkPortEnable k) s (fun t => Waiting t k ∧ (t.port p).state = 1 ∧ (t.port p).cmd = some k ∧ (t.port p).reason = 0 ∧ t.pins.leEn.getLsbD p = true ∧
      t = { s with cmds := t.cmds, ports := t.ports, pins := t.pins })) ∧
  (∀ (s : State) (k p m : Nat) (c : Cmd), Taken s k 0x0806 c → c.at 16 1 = p → p < 24 → p < 6 ∨ licensed s 1 = true → c.at 17 1 = m → m < 2 → c.at 18 46 = 0 → (s.port p).state ≠ 3 →
    Completes (.linkFec k) s (fun t => Answered s t k {} ∧ (t.port p).lightNext = (m == 1) ∧ (t.port p).light = (s.port p).light ∧ (t.port p).state = 1 ∧
      t = { s with cmds := t.cmds, ports := t.ports, pins := t.pins })) ∧
  (∀ (s : State) (k p : Nat) (c : Cmd), Taken s k 0x0806 c → c.at 16 1 = p → 6 ≤ p → p < 24 → licensed s 1 = false →
    Completes (.linkFec k) s (fun t => Answered s t k { status := stNotLicensed } ∧ t = { s with cmds := t.cmds })) ∧
  (∀ (s : State) (k d b : Nat) (c : Cmd), Taken s k 0x0808 c → c.at 16 2 = d → s.link.configured = true → s.link.coord = s.link.root → d ∈ s.link.absent → c.at 18 46 = 0 →
    b = s.tim.beat + 1000 →
    Completes (.linkRejoin k) s (fun t => Answered s t k {} ∧ t.link = { s.link with floods := s.link.floods ++ [(23, b, [d])], pendRoute := s.link.pendRoute ++ [(d, true, b)] } ∧
      t = { s with cmds := t.cmds, link := t.link })) ∧
  (∀ (s : State) (k m : Nat) (c : Cmd), Taken s k 0x0809 c → c.at 16 1 = m → m < 2 → c.at 17 47 = 0 → s.tim.sel = 0 → s.tim.tickUse = false →
    Completes (.linkTime k) s (fun t => Waiting t k ∧ t.tim = { s.tim with sel := (if m = 0 then 1 else 3), selGood := 0, selBeats := 0, selAny := false, selCmd := k, tickMiss := 0 } ∧
      t = { s with cmds := t.cmds, tim := t.tim })) ∧
  (∀ (s : State) (k : Nat) (c : Cmd), Taken s k 0x0809 c → c.at 16 1 = 0 → c.at 17 47 = 0 → s.tim.sel = 0 → s.tim.tickUse = true →
    Completes (.linkTime k) s (fun t => Answered s t k {} ∧ t = { s with cmds := t.cmds })) ∧
  (∀ (s : State) (k : Nat) (c : Cmd), Taken s k 0x0809 c → c.at 16 1 < 2 → c.at 17 47 = 0 → s.tim.sel ≠ 0 →
    Completes (.linkTime k) s (fun t => Answered s t k { status := stBusy } ∧ t = { s with cmds := t.cmds }))

/-- R12, R289, R381, R383 to R386, R445, R490: the mailbox registers and writes of registers. A mailbox is enabled when its rings are in order, with
empty indices; CMD_TAIL and the doorbell act while it is enabled; a write reaches the writable fields of its register. -/
def Obligations.MailboxRegistersAct : Prop :=
  (∀ (s : State) (m : Nat) (w : BitVec 32), windowOpen s m = true → (s.mb m).enable = false → (s.mb m).draining = false → basesOk (s.mb m) = true → w.getLsbD 0 = true →
    Completes (.mbEnableWrite m w) s (fun t => (t.mb m).enable = true ∧ (t.mb m).cmdHead = 0 ∧ (t.mb m).cmdTail = 0 ∧ (t.mb m).cplHead = 0 ∧ (t.mb m).cplTail = 0 ∧
      (t.mb m).evtHead = 0 ∧ (t.mb m).evtTail = 0 ∧ (t.mb m).lost = 0 ∧ (t.mb m).mask = w.extractLsb' 9 14 ∧ (t.mb m).cplIrq = w.getLsbD 1 ∧ (t.mb m).evtIrq = w.getLsbD 2 ∧
      (∀ j, j ≠ m → t.mb j = s.mb j) ∧ t = { s with mbs := t.mbs })) ∧
  (∀ (s : State) (m : Nat) (w : BitVec 32), windowOpen s m = true → (s.mb m).enable = false → (s.mb m).draining = false → basesOk (s.mb m) = false → w.getLsbD 0 = true →
    Completes (.mbEnableWrite m w) s (fun t => (t.mb m).enable = false ∧ (t.mb m).baseErr = true)) ∧
  (∀ (s : State) (m : Nat) (w : BitVec 32), windowOpen s m = true → (s.mb m).enable = true → w.getLsbD 0 = false →
    Completes (.mbEnableWrite m w) s (fun t => (t.mb m).enable = false ∧ (t.mb m).bell = none ∧ (t.mb m).draining = decide (0 < inflight s m))) ∧
  (∀ (s : State) (m : Nat) (w : BitVec 32), windowOpen s m = true → (s.mb m).enable = true → (w - (s.mb m).cmdHead).toNat ≤ 256 →
    exec (.mbCmdTailWrite m w) s = .next (s.setMb m { s.mb m with cmdTail := w })) ∧
  (∀ (s : State) (m : Nat) (w : BitVec 32), windowOpen s m = true → (s.mb m).enable = true → 256 < (w - (s.mb m).cmdHead).toNat →
    exec (.mbCmdTailWrite m w) s = .next (s.setMb m { s.mb m with ringErr := true })) ∧
  (∀ (s : State) (m : Nat) (w : BitVec 32), (s.mb m).enable = false → exec (.mbCmdTailWrite m w) s = .next s ∧ exec (.mbDoorbell m w) s = .next s) ∧
  (∀ (s : State) (m : Nat) (w : BitVec 32), windowOpen s m = true → (s.mb m).enable = true → w.getLsbD 0 = true →
    exec (.mbDoorbell m w) s = .next (s.setMb m { s.mb m with bell := some (s.mb m).cmdTail })) ∧
  (∀ (s : State) (w : BitVec 32), mmioOpen s = true → 5 ≤ w.toNat % 1024 → w.toNat % 1024 ≤ 500 →
    exec (.registerWrite 4 0x60100 w) s = .next { s with thm := { s.thm with grace := w.toNat % 1024 } }) ∧
  (∀ (s : State) (w : BitVec 32), w.toNat % 1024 < 5 ∨ 500 < w.toNat % 1024 → exec (.registerWrite 4 0x60100 w) s = .next s) ∧
  (∀ (s : State) (m : Nat) (w : BitVec 32), s.pins.rstN = true → s.pins.pwrok = true → windowOpen s m = true →
    exec (.registerWrite 2 (0x4000 * m + 0x28) w) s = .next (s.setMb m { s.mb m with cplHead := w })) ∧
  (∀ (s : State) (w : BitVec 32), mgOn s = true → exec (.registerWrite 1 0x02 w) s = .next { s with mg := { s.mg with alert := s.mg.alert &&& ~~~(w.setWidth 7) } }) ∧
  (∀ (s : State) (off : Nat) (w : BitVec 32), s.bu.bootOk = false → exec (.registerWrite 0 off w) s = .next s)

/-- R386, R389 to R393, R395, R402, R404: a command's way through its mailbox: fetched in order while there is room, answered at once when its header
fails a check, timed out or cancelled without effect while it has not committed, and reported by its completion entry. -/
def Obligations.CommandsAreFetchedAndReported : Prop :=
  (∀ (s : State) (m : Nat) (x : BitVec 32) (e ext : List (BitVec 8)), windowOpen s m = true → (s.mb m).enable = true → (s.mb m).bell = some x → x ≠ (s.mb m).cmdHead →
    s.cmds.length < 1024 → inflight s m + ((s.mb m).cplTail - (s.mb m).cplHead).toNat < 256 → headerReply s e = none → resetting s (partOfMb s m) = false →
    Completes (.commandFetch m e ext) s (fun t => (∃ c, t.cmds = s.cmds ++ [c] ∧ c.key = s.stw.nextKey ∧ c.src = m ∧ c.opcode = bytesAt e 0 2 ∧ c.cid = bytesAt e 2 2 ∧
        c.fetchIdx = (s.mb m).cmdHead ∧ c.fetchBeat = s.tim.beat ∧ c.decided = false ∧ c.started = false ∧ c.entry = fitBytes 64 e) ∧
      t.mb m = { s.mb m with cmdHead := (s.mb m).cmdHead + 1 } ∧ t.stw.nextKey = s.stw.nextKey + 1 ∧ t = { s with cmds := t.cmds, mbs := t.mbs, stw := t.stw })) ∧
  (∀ (s : State) (m : Nat) (x : BitVec 32) (e ext : List (BitVec 8)) (r : Reply), windowOpen s m = true → (s.mb m).enable = true → (s.mb m).bell = some x → x ≠ (s.mb m).cmdHead →
    s.cmds.length < 1024 → inflight s m + ((s.mb m).cplTail - (s.mb m).cplHead).toNat < 256 → headerReply s e = some r →
    Completes (.commandFetch m e ext) s (fun t => ∃ c, t.cmds = s.cmds ++ [c] ∧ c.src = m ∧ c.decided = true ∧ c.status = r.status ∧ c.detail = r.detail)) ∧
  (∀ (s : State) (e : List (BitVec 8)), s.flt.deviceError = true → bytesAt e 0 2 ≠ 0x0102 → headerReply s e = some { status := stDeviceError }) ∧
  (∀ (s : State) (e : List (BitVec 8)), s.flt.deviceError = false → opcodeDefined (bytesAt e 0 2) = false → headerReply s e = some { status := stBadOpcode }) ∧
  (∀ (s : State) (m : Nat) (e ext : List (BitVec 8)), 1024 ≤ s.cmds.length ∨ (s.mb m).bell = some (s.mb m).cmdHead ∨ (s.mb m).enable = false →
    exec (.commandFetch m e ext) s = .next s) ∧
  (∀ (s : State) (k : Nat) (c : Cmd), cmdOf s k = some c → c.decided = false → c.committed = false → c.started = false → c.opcode ≠ 0x0502 →
    c.fetchBeat + 1000 * c.deadline ≤ s.tim.beat →
    Completes (.commandDeadline k) s (fun t => Answered s t k { status := stTimedOut } ∧ t = { s with cmds := t.cmds })) ∧
  (∀ (s : State) (k : Nat) (c : Cmd), cmdOf s k = some c → c.committed = true ∨ s.tim.beat < c.fetchBeat + 1000 * c.deadline → exec (.commandDeadline k) s = .next s) ∧
  (∀ (s : State) (k m i : Nat) (c : Cmd), cmdOf s k = some c → c.decided = true → c.src = m → m < 64 → c.opcode ≠ 0x0102 → i < 32 →
    Completes (.commandComplete k) s (fun t => cmdOf t k = none ∧ (t.mb m).cplTail = (s.mb m).cplTail + 1 ∧
      Memory.read t.hostMem ((s.mb m).cplBase.toNat + 32 * ((s.mb m).cplTail.toNat % 256) + i) = (completionEntry s c (s.mb m).cplTail.toNat).getD i 0 ∧
      t = { s with cmds := t.cmds, hostMem := t.hostMem, mbs := t.mbs, stw := t.stw })) ∧
  (∀ (s : State) (c : Cmd) (i : Nat), bytesAt (completionEntry s c i) 0 2 = c.cid % 65536 ∧ bytesAt (completionEntry s c i) 2 2 = c.opcode % 65536 ∧
    bytesAt (completionEntry s c i) 4 1 = c.status % 256 ∧ bytesAt (completionEntry s c i) 6 2 = c.detail % 65536) ∧
  (∀ (s : State) (k : Nat) (c : Cmd), cmdOf s k = some c → c.decided = false → exec (.commandComplete k) s = .next s) ∧
  (∀ (s : State) (k : Nat) (c : Cmd), cmdOf s k = some c → c.opcode = 0x0103 → mayStart s c = true → (s.stw.ready || c.src == 64) = true → c.tooLate = true →
    Completes (.devCmdCancel k) s (fun t => (∃ r, Answered s t k r ∧ r.status = stOutOfRange ∧ r.detail = 6) ∧ t = { s with cmds := t.cmds })) ∧
  (∀ (s : State) (k : Nat) (c d : Cmd), Taken s k 0x0103 c → c.at 16 1 ≤ 63 → c.at 17 1 = 0 → c.at 20 44 = 0 →
    s.cmds.find? (fun d => d.key != k && d.src == c.at 16 1 && d.cid == c.at 18 2 && !(d.decided && d.status == stAborted)) = some d →
    d.committed = false → d.decided = false → d.started = false →
    Completes (.devCmdCancel k) s (fun t => Answered s t k {} ∧ Answered s t d.key { status := stAborted } ∧ t = { s with cmds := t.cmds })) ∧
  (∀ (s : State) (k : Nat) (c d : Cmd), Taken s k 0x0103 c → c.at 16 1 ≤ 63 → c.at 17 1 = 0 → c.at 20 44 = 0 →
    s.cmds.find? (fun d => d.key != k && d.src == c.at 16 1 && d.cid == c.at 18 2 && !(d.decided && d.status == stAborted)) = some d →
    d.committed = true ∨ d.decided = true → Completes (.devCmdCancel k) s (fun t => Answered s t k { status := stAlreadyDone } ∧ t = { s with cmds := t.cmds })) ∧
  (∀ (s : State) (k : Nat) (c : Cmd), Taken s k 0x0103 c → c.at 16 1 ≤ 63 → c.at 17 1 = 0 → c.at 20 44 = 0 →
    (∀ d, d ∈ s.cmds → d.key ≠ k → d.src = c.at 16 1 → d.cid ≠ c.at 18 2) →
    Completes (.devCmdCancel k) s (fun t => Answered s t k { status := stOutOfRange } ∧ t = { s with cmds := t.cmds }))

/-- R85, R311, R346, R351, R375, R378, R406, R454, R489, R514: the status commands without a payload answer `ok` with a record of their length and
change nothing. The record of `dev.info` begins with SERIAL and holds the beat; a record of register images holds them in ascending order, four bytes
each. Layouts that the manual gives by field lists only are those of assumption log 15. -/
def Obligations.StatusCommandsAnswer : Prop :=
  (∀ (s : State) (k : Nat) (c : Cmd) (r : (Nat → Instr) × Nat × Nat), r ∈ [(Instr.devInfo, 0x0101, 128), (Instr.devUnitStatus, 0x0112, 556), (Instr.devMemStatus, 0x0120, 404),
      (Instr.devPartitionStatus, 0x0132, 32), (Instr.powerStatus, 0x0201, 32), (Instr.lightStatus, 0x0301, 332), (Instr.calStatus, 0x0401, 2112),
      (Instr.execStatus, 0x0603, 516), (Instr.linkMusterStatus, 0x0807, 1600), (Instr.thermalStatus, 0x0901, 912)] →
    Taken s k r.2.1 c → r.2.2 ≤ 64 * c.extLen → c.at 16 48 = 0 →
    Completes (r.1 k) s (fun t => (∃ l : List (BitVec 8), l.length = r.2.2 ∧ Answered s t k { output := l }) ∧ t = { s with cmds := t.cmds })) ∧
  (∀ (s : State) (k : Nat) (c : Cmd) (r : (Nat → Instr) × Nat × Nat), r ∈ [(Instr.devInfo, 0x0101, 128), (Instr.devUnitStatus, 0x0112, 556), (Instr.devMemStatus, 0x0120, 404),
      (Instr.devPartitionStatus, 0x0132, 32), (Instr.powerStatus, 0x0201, 32), (Instr.lightStatus, 0x0301, 332), (Instr.calStatus, 0x0401, 2112),
      (Instr.execStatus, 0x0603, 516), (Instr.linkStatus, 0x0801, 1358), (Instr.linkMusterStatus, 0x0807, 1600), (Instr.thermalStatus, 0x0901, 912)] →
    Taken s k r.2.1 c → 64 * c.extLen < r.2.2 →
    Completes (r.1 k) s (fun t => Answered s t k { status := stBadField, detail := 5 } ∧ t = { s with cmds := t.cmds })) ∧
  (∀ (s : State) (k : Nat) (c : Cmd), Taken s k 0x0101 c → 2 ≤ c.extLen → c.at 16 48 = 0 → exec (.devInfo k) s = .next (finishCmd k { output := infoRecord s } s)) ∧
  (∀ (s : State), bytesAt (infoRecord s) 0 8 = s.sec.serial.toNat ∧ bytesAt (infoRecord s) 20 1 = s.bu.licences.toNat % 256 ∧
    bytesAt (infoRecord s) 21 1 = s.net.parts % 256 ∧ bytesAt (infoRecord s) 24 4 = maskOf 32 (fun f => !(s.field f).fenced) % 2 ^ 32) ∧
  (∀ (s : State) (k : Nat) (c : Cmd), Taken s k 0x0201 c → 1 ≤ c.extLen → c.at 16 48 = 0 →
    Completes (.powerStatus k) s (fun t => ∃ l : List (BitVec 8), Answered s t k { output := l } ∧ bytesAt l 0 4 = pwrStateReg s % 2 ^ 32 ∧
      ∀ i, i < 7 → bytesAt l (4 + 4 * i) 4 = pwrDomainReg s i % 2 ^ 32)) ∧
  (∀ (s : State) (k : Nat) (c : Cmd), Taken s k 0x0120 c → 7 ≤ c.extLen → c.at 16 48 = 0 →
    Completes (.devMemStatus k) s (fun t => ∃ l : List (BitVec 8), Answered s t k { output := l } ∧ (∀ i, i < 48 → bytesAt l (4 * i) 4 = memRegRead s (4 * i) % 2 ^ 32) ∧
      ∀ i, i < 48 → bytesAt l (192 + 4 * i) 4 = memRegRead s (0x100 + 4 * i) % 2 ^ 32)) ∧
  (∀ (s : State) (k : Nat) (c : Cmd), Taken s k 0x0801 c → 22 ≤ c.extLen → c.at 16 48 = 0 →
    Completes (.linkStatus k) s (fun t => (∃ l : List (BitVec 8), Answered s t k { output := l } ∧ bytesAt l 0 4 = lnkSys s % 2 ^ 32 ∧
      bytesAt l 4 4 = lnkRoot s % 2 ^ 32 ∧ ∀ p j, p < 24 → j < 5 → bytesAt l (8 + 20 * p + 4 * j) 4 = lnkPortRead s p j % 2 ^ 32) ∧ t = { s with cmds := t.cmds })) ∧
  (∀ (s : State) (k : Nat) (c : Cmd), Taken s k 0x0B01 c → ((telemetryOn s).map telemetrySize).sum ≤ 64 * c.extLen → c.at 16 48 = 0 →
    Completes (.telemetryRead k) s (fun t => (∃ l : List (BitVec 8), l.length = ((telemetryOn s).map telemetrySize).sum ∧ Answered s t k { output := l }) ∧
      t = { s with cmds := t.cmds }))

/-- R137, R161, R162, R327, R407, R460, R475, R482, R512, R514: the commands that read with a payload answer with what they name and change nothing:
fault entries, loop slots, the capture, converter results, sensor readings, certificates, licences, directory entries, the swap, and memory. Payload
layouts that the manual gives by field lists only are those of assumption log 15. -/
def Obligations.ReadCommandsAnswer : Prop :=
  (∀ (s : State) (k : Nat) (c : Cmd), Taken s k 0x0113 c → c.at 16 48 = 0 →
    Completes (.devFaultRead k) s (fun t => (∃ r, Answered s t k r ∧ r.status = stOk ∧ bytesAt r.output 0 4 = fltStatus s % 2 ^ 32 ∧
      bytesAt r.output 4 2 = s.flt.queue.length % 65536 ∧ bytesAt r.output 6 2 = s.flt.log.length % 65536 ∧
      r.output.drop 16 = (s.flt.queue.take (4 * c.extLen - 1) ++ s.flt.log.take (4 * c.extLen - 1 - s.flt.queue.length)).flatMap faultBytes) ∧ t = { s with cmds := t.cmds })) ∧
  (∀ (s : State) (k f n : Nat) (c : Cmd), Taken s k 0x0D01 c → c.at 16 2 = f → c.at 18 2 = n → 64 + 32 * n ≤ 64 * c.extLen → f ≤ 8191 → f + n ≤ 8192 → c.at 20 44 = 0 →
    Completes (.loopStatus k) s (fun t => (∃ l : List (BitVec 8), Answered s t k { output := l } ∧ l.length = 64 + 32 * n ∧
      ∀ j i, j < n → i < 8 → bytesAt l (64 + 32 * j + 4 * i) 4 = slotRead s (f + j) i % 2 ^ 32) ∧ t = { s with cmds := t.cmds })) ∧
  (∀ (s : State) (k f n : Nat) (c : Cmd), Taken s k 0x0D06 c → c.at 16 2 = 0 → c.at 18 2 = 0 → c.at 20 4 = f → c.at 24 4 = n → 8 * n ≤ 64 * c.extLen → f ≤ 65535 →
    f + n ≤ 65536 → c.at 28 36 = 0 →
    Completes (.loopCapture k) s (fun t => (∃ l : List (BitVec 8), Answered s t k { output := l } ∧ l.length = 8 * n ∧
      ∀ i, i < n → bytesAt l (8 * i) 8 = (tget 0 s.eng.cap (f + i)).toNat) ∧ t = { s with cmds := t.cmds })) ∧
  (∀ (s : State) (k m : Nat) (c : Cmd), Taken s k 0x0E01 c → c.at 16 1 = m → m < 64 → 1 ≤ c.extLen → c.at 17 47 = 0 →
    Completes (.monitorStatus k) s (fun t => (∃ l : List (BitVec 8), Answered s t k { output := l } ∧ l.length = 64 ∧ (∀ i, i < 5 → bytesAt l (4 * i) 4 = monBlockRead s (4 * i) % 2 ^ 32) ∧
      bytesAt l 20 4 = monRead s m 0 % 2 ^ 32) ∧ t = { s with cmds := t.cmds })) ∧
  (∀ (s : State) (k m : Nat) (c : Cmd), Taken s k 0x0E05 c → c.at 16 1 = m → m < 64 → 2 ≤ c.extLen → c.at 17 47 = 0 →
    Completes (.monitorRead k) s (fun t => (∃ l : List (BitVec 8), Answered s t k { output := l } ∧ l.length = 128 ∧
      ∀ i, i < 32 → bytesAt l (4 * i) 4 = monRead s m (0x80 + 4 * i) % 2 ^ 32) ∧ t = { s with cmds := t.cmds })) ∧
  (∀ (s : State) (k d i : Nat) (c : Cmd), Taken s k 0x0904 c → c.at 16 1 = d → d < 22 → c.at 17 1 = i → i < sensorCount d → 8 ≤ c.extLen → c.at 18 46 = 0 →
    (s.sensor (sensorKey d i)).hist.length ≤ 64 →
    Completes (.thermalSensor k) s (fun t => (∃ l : List (BitVec 8), Answered s t k { output := l } ∧ l.length = 512 ∧
      l.drop (512 - 8 * (s.sensor (sensorKey d i)).hist.length) = ((s.sensor (sensorKey d i)).hist.map historyRecord).flatten) ∧ t = { s with cmds := t.cmds })) ∧
  (∀ (s : State) (k : Nat) (c : Cmd), Taken s k 0x0A01 c → c.at 16 48 = 0 →
    exec (.secCertRead k) s = .next (finishCmd k { output := s.sec.identity } s)) ∧
  (∀ (s : State) (k : Nat) (c : Cmd), Taken s k 0x0A04 c → c.at 16 48 = 0 → 5 ≤ c.extLen →
    Completes (.secLicenceList k) s (fun t => (∃ l : List (BitVec 8), Answered s t k { output := l } ∧ l.length ≤ 272 ∧ l.length % 16 = 0 ∧
      bytesAt l (l.length - 15) 1 = s.bu.licences.toNat % 256) ∧ t = { s with cmds := t.cmds })) ∧
  (∀ (s : State) (k p f n : Nat) (c : Cmd), Taken s k 0x0505 c → c.at 16 1 = p → p < 4 → p < s.net.parts → c.at 17 1 = 0 → c.at 18 2 = f → c.at 20 2 = n → 0 < f → f + n ≤ 16384 →
    f ≤ 16383 → 64 * n + 64 ≤ 64 * c.extLen → c.at 22 42 = 0 → resetting s p = false →
    Completes (.modelDirRead k) s (fun t => (∃ l : List (BitVec 8), Answered s t k { output := l } ∧ l.take 64 = swapRecord s p ∧
      l.drop 64 = ((List.range n).map (fun i => dirBytes (s.dirEntry (f + i)))).flatten) ∧ t = { s with cmds := t.cmds })) ∧
  (∀ (s : State) (k p : Nat) (c : Cmd), Taken s k 0x0508 c → c.at 16 1 = p → p < 4 → p < s.net.parts → 64 + 8 * (swapHandles s p).length ≤ 64 * c.extLen → c.at 17 47 = 0 →
    resetting s p = false →
    Completes (.modelSwapStatus k) s (fun t => (∃ l : List (BitVec 8), Answered s t k { output := l } ∧ l.take 64 = swapRecord s p ∧
      l.length = 64 + 8 * (swapHandles s p).length) ∧ t = { s with cmds := t.cmds })) ∧
  (∀ (s : State) (k a n : Nat) (c : Cmd), Taken s k 0x0C01 c → c.at 16 1 = 0 → c.at 17 7 = 0 → c.at 24 6 = a → c.at 30 2 = 0 → c.at 32 4 = n → c.at 36 28 = 0 → a % 8 = 0 → 8 ≤ n →
    n % 8 = 0 → n ≤ 64 * c.extLen → debugRange s a n = true → debugPart s 0 a n = false → held s a n = false → s.errs = [] →
    Completes (.debugRead k) s (fun t => Answered s t k { output := rdBytes s a n, result := leBytes 4 ((wordsOf a n).filter (wordBad s)).length } ∧ t = { s with cmds := t.cmds }))

/-- R127, R135, R137, R147, R149, R159, R162, R302, R407, R445, R446, R489: the commands that set. A register-setting command writes the masked fields
of the register that it names and no other; the rest set what they name. Payload layouts that the manual gives by field lists only are those of
assumption log 15. -/
def Obligations.SettingCommandsAct : Prop :=
  (∀ (s : State) (k : Nat) (c : Cmd), Taken s k 0x0122 c → c.at 16 2 = 4 → c.at 18 2 = 0 → c.at 20 4 = 0x200 → c.at 28 4 = 0 → c.at 32 4 = 0x100 → c.at 36 4 = 0 → c.at 40 24 = 0 →
    Completes (.devMemScrub k) s (fun t => Answered s t k {} ∧ t = { s with cmds := t.cmds, memTop := { s.memTop with scrubEn := bit (c.at 24 4) 8 } })) ∧
  (∀ (s : State) (k g : Nat) (c : Cmd), Taken s k 0x0902 c → c.at 16 2 = 9 → c.at 18 2 = 0 → c.at 20 4 = 0x100 → c.at 24 4 = g → 5 ≤ g → g ≤ 500 → c.at 28 4 = 0 →
    c.at 32 4 = 0x3FF → c.at 36 4 = 0 → c.at 40 24 = 0 →
    Completes (.thermalConfig k) s (fun t => Answered s t k {} ∧ t = { s with cmds := t.cmds, thm := { s.thm with grace := g } })) ∧
  (∀ (s : State) (k g : Nat) (c : Cmd), Taken s k 0x0902 c → c.at 16 2 = 9 → c.at 18 2 = 0 → c.at 20 4 = 0x100 → c.at 24 4 = g → 500 < g → g < 1024 → c.at 32 4 = 0x3FF →
    5 ≤ s.thm.grace → s.thm.grace ≤ 500 →
    Completes (.thermalConfig k) s (fun t => Answered s t k { status := stOutOfRange, detail := 24 } ∧ t = { s with cmds := t.cmds })) ∧
  (∀ (s : State) (k n : Nat) (c : Cmd), Taken s k 0x0E02 c → c.at 16 2 = 5 → c.at 18 2 = n + 1 → n < 64 → c.at 20 4 = 0 → c.at 24 4 = 1 → c.at 28 4 = 0 → c.at 32 4 = 1 →
    c.at 36 4 = 0 → c.at 40 24 = 0 →
    Completes (.monitorConfig k) s (fun t => Answered s t k {} ∧ t.mon n = { s.mon n with enable := true } ∧ (∀ j, j ≠ n → t.mon j = s.mon j) ∧
      t = { s with cmds := t.cmds, mons := t.mons })) ∧
  (∀ (s : State) (k n : Nat) (c : Cmd), Taken s k 0x0D02 c → c.at 16 2 = 6 → c.at 18 2 = n + 1 → n < 8192 → c.at 20 4 = 8 → c.at 24 4 < 2 ^ 20 → c.at 28 4 = 0 →
    c.at 32 4 = 0xFFFFF → c.at 36 4 = 0 → c.at 40 24 = 0 →
    Completes (.loopConfig k) s (fun t => Answered s t k {} ∧ t.loop n = { s.loop n with kp := BitVec.ofNat 20 (c.at 24 4) } ∧ (∀ j, j ≠ n → t.loop j = s.loop j) ∧
      t = { s with cmds := t.cmds, loops := t.loops })) ∧
  (∀ (s : State) (k : Nat) (c : Cmd), Taken s k 0x0D07 c → c.at 16 2 = 6 → c.at 18 2 = 0 → c.at 20 4 = 8 → c.at 24 4 < 2 ^ 16 → c.at 28 4 = 0 → c.at 32 4 = 0xFFFF → c.at 36 4 = 0 →
    c.at 40 24 = 0 →
    Completes (.loopCoolant k) s (fun t => Answered s t k {} ∧ t = { s with cmds := t.cmds, eng := { s.eng with coolSet := BitVec.ofNat 16 (c.at 24 4) } })) ∧
  (∀ (s : State) (k n : Nat) (c : Cmd), Taken s k 0x0D03 c → c.at 16 2 = n → n ≤ 8191 → slotKind s n ≠ 0 → c.at 18 46 = 0 → freezeRefused s n = false →
    Completes (.loopFreeze k) s (fun t => Answered s t k {} ∧ t.loop n = { s.loop n with freeze := true } ∧ (∀ j, j ≠ n → t.loop j = s.loop j) ∧
      t = { s with cmds := t.cmds, loops := t.loops })) ∧
  (∀ (s : State) (k n : Nat) (c : Cmd), Taken s k 0x0D04 c → c.at 16 2 = n → n ≤ 8191 → slotKind s n ≠ 0 → c.at 18 46 = 0 →
    Completes (.loopRelease k) s (fun t => Answered s t k {} ∧ t.loop n = { s.loop n with freeze := false } ∧ (∀ j, j ≠ n → t.loop j = s.loop j) ∧
      t = { s with cmds := t.cmds, loops := t.loops })) ∧
  (∀ (s : State) (k : Nat) (c : Cmd), Taken s k 0x0D05 c → c.at 16 48 = 0 → testBadSlot s = false → testBusy s = false →
    Completes (.loopTest k) s (fun t => Waiting t k ∧ t = { s with cmds := t.cmds, eng := { s.eng with startPend := true, testCmd := some k } })) ∧
  (∀ (s : State) (k m : Nat) (c : Cmd), Taken s k 0x0E03 c → c.at 16 1 = m → m < 64 → c.at 17 47 = 0 → (s.mon m).selfCmd = none →
    Completes (.monitorSelftest k) s (fun t => Waiting t k ∧ t.mon m = { s.mon m with selfCmd := some k } ∧ (∀ j, j ≠ m → t.mon j = s.mon j) ∧
      t = { s with cmds := t.cmds, mons := t.mons })) ∧
  (∀ (s : State) (k m : Nat) (c : Cmd), Taken s k 0x0E04 c → m < 64 → c.at 16 8 = 2 ^ m → c.at 24 40 = 0 → (s.mon m).aEnable = true → (s.mon m).aTrig.getLsbD 2 = true →
    (s.mon m).injRun = false →
    Completes (.monitorInject k) s (fun t => Answered s t k {} ∧ (t.mon m).injRun = true ∧ (t.mon m).injSlot = 0 ∧ (∀ j, j ≠ m → t.mon j = s.mon j) ∧
      t = { s with cmds := t.cmds, mons := t.mons })) ∧
  (∀ (s : State) (k g : Nat) (c : Cmd), Taken s k 0x0B02 c → c.at 16 1 = g → g ≤ 63 → c.at 17 47 = 0 →
    Completes (.telemetryConfig k) s (fun t => Answered s t k {} ∧ t = { s with cmds := t.cmds, stw := { s.stw with telemetry := BitVec.ofNat 8 g } })) ∧
  (∀ (s : State) (k d : Nat) (c : Cmd), Taken s k 0x0903 c → c.at 16 48 = 0 → s.thm.episode = true → s.thm.enforcing = false → s.thm.acked = false →
    s.tim.beat < s.thm.startAt + 100 * s.thm.grace → d < 22 → (s.die d).level = 2 →
    Completes (.thermalThrottleAck k) s (fun t => Answered s t k {} ∧ t = { s with cmds := t.cmds, thm := { s.thm with acked := true, ackAt := s.tim.beat } })) ∧
  (∀ (s : State) (k : Nat) (c : Cmd), Taken s k 0x0903 c → c.at 16 48 = 0 → s.thm.episode = false →
    Completes (.thermalThrottleAck k) s (fun t => Answered s t k { status := stOutOfRange } ∧ t = { s with cmds := t.cmds })) ∧
  (∀ (s : State) (k a n i : Nat) (c : Cmd), Taken s k 0x0C02 c → c.at 16 1 = 0 → c.at 17 7 = 0 → c.at 24 6 = a → c.at 30 2 = 0 → c.at 32 4 = n → c.at 36 28 = 0 → a % 8 = 0 →
    8 ≤ n → n % 8 = 0 → n ≤ 64 * c.extLen → c.ext.length = 64 * c.extLen → debugRange s a n = true → reachRange s .host true a n = true →
    debugPart s 0 a n = false → held s a n = false → s.errs = [] → (∀ j, j < n → noStore s (a + j) = false) → i < n →
    Completes (.debugWrite k) s (fun t => Answered s t k {} ∧ Memory.read t.mem (a + i) = c.ext.getD i 0 ∧
      (∀ b, b < a ∨ a + n ≤ b → Memory.read t.mem b = Memory.read s.mem b) ∧ t = { s with cmds := t.cmds, mem := t.mem, poison := t.poison, seq := { s.seq with hidden := t.seq.hidden } })) ∧
  (∀ (s : State) (k n : Nat) (c : Cmd), Taken s k 0x0C03 c → c.at 16 48 = 0 → c.extLen = n + 4 →
    Completes (.debugSteward k) s (fun t => (∃ l : List (BitVec 8), Answered s t k { output := l } ∧ l.length = 256 + 64 * n) ∧ t.stw.harts.length = 20 ∧
      t.free = s.free + 20 + 64 * n ∧ t = { s with cmds := t.cmds, stw := { s.stw with harts := t.stw.harts, traceOut := t.stw.traceOut }, free := t.free }))

/-- R394, R396, R461, R465 to R467: the commands on units. A disable of an unused unit takes it out of service at once; one of a unit that is out is
refused; an enable puts a HOST_ENABLE entry into the fault queue; the graceful limit ends a disable; `dev.reset` is accepted, also in device error. -/
def Obligations.UnitCommandsRun : Prop :=
  (∀ (s : State) (k kind i b : Nat) (c : Cmd), Taken s k 0x0110 c → c.at 16 1 = kind → c.at 20 2 = i → c.at 22 1 = b → kind ≤ 6 → c.at 17 1 ≤ 1 → c.at 18 2 ≤ 60000 →
    orElse (unitChecks s c) = none → cmdUnitOut s kind i b = false → c.at 23 41 = 0 → (unitPart s kind i).any (resetting s) = false → disableOn s kind i b = none →
    s.ops = [] → s.flt.active = none → s.memTop.heldReqs = [] → c.aux = 0 → c.aux2 = 0 →
    Completes (.devUnitDisable k) s (fun t => Answered s t k { result := leBytes 4 0 } ∧ cmdUnitOut t kind i b = true ∧ t.mem = s.mem ∧ t.acc = s.acc)) ∧
  (∀ (s : State) (k kind i b : Nat) (c : Cmd), Taken s k 0x0110 c → c.at 16 1 = kind → c.at 20 2 = i → c.at 22 1 = b → kind ≤ 6 → c.at 17 1 ≤ 1 → c.at 18 2 ≤ 60000 →
    orElse (unitChecks s c) = none → cmdUnitOut s kind i b = true →
    Completes (.devUnitDisable k) s (fun t => (∃ r, Answered s t k r ∧ r.status = stOutOfRange) ∧ t = { s with cmds := t.cmds })) ∧
  (∀ (s : State) (k kind i b : Nat) (c : Cmd), Taken s k 0x0111 c → c.at 16 1 = kind → c.at 20 2 = i → c.at 22 1 = b → kind ≤ 6 → c.at 17 1 ≤ 1 → c.at 18 2 ≤ 60000 →
    orElse (unitChecks s c) = none → cmdUnitOut s kind i b = true → c.at 23 41 = 0 → fencedAtBoot s kind i b = false →
    kind ≠ 0 ∨ (∀ g, g < 4 → (s.lcol (4 * portOfField i + g)).level ≠ 3) → (kind = 4 → (s.unit i).gaveUp = false) → (kind = 5 → (s.unit (16 + i)).gaveUp = false) → (unitPart s kind i).any (resetting s) = false →
    (∀ e, e ∈ s.flt.queue → sameUnit e.kind e.index e.sub kind i (entrySub kind b) = false) → s.flt.queue.length < 64 →
    Completes (.devUnitEnable k) s (fun t => Waiting t k ∧ t.flt.queue = s.flt.queue ++
      [{ code := 0x50, kind := kind, sub := entrySub kind b, index := i, beat := s.tim.beat % 2 ^ 32, cmds := [k] }] ∧ t.flt.faults = satInc s.flt.faults)) ∧
  (∀ (s : State) (k : Nat) (d : Nat × Nat × Nat × Nat × Nat), s.flt.disabling.find? (fun d => d.2.2.2.1 == k) = some d → d.2.2.2.2 ≤ s.tim.beat →
    Completes (.disableGracefulTimeout k) s (fun t => ∀ x, x ∈ t.flt.disabling → x ∈ s.flt.disabling ∧ x ≠ d)) ∧
  (∀ (s : State) (k : Nat) (d : Nat × Nat × Nat × Nat × Nat), s.flt.disabling.find? (fun d => d.2.2.2.1 == k) = some d → s.tim.beat < d.2.2.2.2 →
    exec (.disableGracefulTimeout k) s = .next s) ∧
  (∀ (s : State) (k : Nat) (c : Cmd), Taken s k 0x0102 c → s.flt.deviceError = false → c.at 16 48 = 0 →
    exec (.devReset k) s = .next (finishCmd k { status := stAccepted } s)) ∧
  (∀ (s : State) (k : Nat) (c : Cmd), cmdOf s k = some c → c.opcode = 0x0102 → s.flt.deviceError = true →
    exec (.devReset k) s = .next (finishCmd k { status := stAccepted } s))

/-- R475 to R479, R482, R484, R485, R486, R487, R490, R493: the security block. Signatures and digests are the hardware's (log 20): each clause says
what follows from either answer. -/
def Obligations.SecurityCommandsRun : Prop :=
  (∀ (s : State) (k : Nat) (c : Cmd) (key body : List (BitVec 8)), Taken s k 0x0A02 c → reportLen ≤ 64 * c.extLen → c.at 48 16 = 0 → s.sec.bootKey = some key →
    s.sec.bootSigs < 32768 → body = reportBody s ((c.entry.drop 16).take 32) →
    Completes (.secMeasureRead k) s (fun t => Answered s t k { output := body ++ Config.deviceSign key body } ∧
      t = { s with cmds := t.cmds, sec := { s.sec with bootSigs := s.sec.bootSigs + 1 } })) ∧
  (∀ (s : State) (k : Nat) (c : Cmd), Taken s k 0x0A02 c → reportLen ≤ 64 * c.extLen → c.at 48 16 = 0 → s.sec.bootKey = none →
    Completes (.secMeasureRead k) s (fun t => Answered s t k { status := stNoResource } ∧ t = { s with cmds := t.cmds })) ∧
  (∀ (s : State) (k : Nat) (c : Cmd) (tok : List (BitVec 8)), Taken s k 0x0A03 c → 3136 ≤ 64 * c.extLen → c.at 16 48 = 0 → tok = c.ext.take 3136 → tokenBad tok = none →
    s.sec.tokens = [] →
    Completes (.secLicenceInstall k) s (fun t =>
      if tokenValid s tok = true then Answered s t k {} ∧ tget [] t.sec.tokens 0 = tok ∧ t.mg.alert.getLsbD 4 = true ∧ t.sec.meas = s.sec.meas
      else Answered s t k { status := stAuthFailed } ∧ t = { s with cmds := t.cmds })) ∧
  (∀ (s : State) (k off total : Nat) (c : Cmd), Taken s k 0x0A05 c → 1 ≤ c.extLen → c.at 16 4 = off → c.at 20 4 = total → off = s.sec.stData.length → off % 64 = 0 → off ≠ 0 →
    s.sec.stOpen = some c.src → total = s.sec.stTotal → total ≠ 0 → total ≤ 8388608 → total % 4096 = 0 → off + c.ext.length < total → c.at 24 40 = 0 →
    Completes (.secImageStage k) s (fun t => Answered s t k {} ∧ t.sec.stOpen = some c.src ∧ t.sec.stData = s.sec.stData ++ c.ext ∧ t.sec.stAt = s.tim.beat ∧
      t.sec.staged = false ∧ t.sec.select = s.sec.select ∧ t.sec.minSvn = s.sec.minSvn ∧ t = { s with cmds := t.cmds, sec := t.sec })) ∧
  (∀ (s : State) (k : Nat) (c : Cmd), Taken s k 0x0A06 c → c.at 16 1 = 0 → c.at 17 47 = 0 → s.sec.staged = true → (s.bu.running == 4 && s.bu.imgAddr == 0) = false →
    Completes (.secImageCommit k) s (fun t => Answered s t k {} ∧ t.sec = { s.sec with select := idleSlot s, selectSeq := s.sec.selectSeq + 1, staged := false, revoked := revokeBelow s.sec.revoked (blockOf (tget [] s.sec.flashImg (idleSlot s))) } ∧ t.mg.alert.getLsbD 5 = true)) ∧
  (∀ (s : State) (k : Nat) (c : Cmd), Taken s k 0x0A06 c → c.at 16 1 ≤ 1 → c.at 17 47 = 0 → s.sec.staged = false →
    Completes (.secImageCommit k) s (fun t => Answered s t k { status := stOutOfRange } ∧ t = { s with cmds := t.cmds })) ∧
  (∀ (s : State) (src : Nat), s.sec.stOpen = some src → s.sec.stAt + 60000000 ≤ s.tim.beat →
    exec .imageStageIdleTimeout s = .next { s with sec := { s.sec with stOpen := none, stData := [], stTotal := 0 } }) ∧
  (∀ (s : State), s.sec.stOpen = none → exec .imageStageIdleTimeout s = .next s) ∧
  (∀ (s : State), secOn s = true → s.flt.deviceError = false → Completes (.secSelfTest false) s (fun t => t.flt.deviceError = true ∧ t.flt.deCause = 6)) ∧
  (∀ (s : State), exec (.secSelfTest true) s = .next s) ∧
  (∀ (s : State) (code : Nat) (body : List (BitVec 8)), secOn s = true → code ∈ spdmSupported →
    Completes (.spdmRequest 1 code body) s (fun t => tget 0 t.sec.spdm 1 = spdmNext (tget 0 s.sec.spdm 1) code ∧
      t.stw.spdmOut = Config.spdmReply (1 + 2 * tget 0 s.sec.spdm 1) code body s.sec.meas ∧
      t = { s with sec := { s.sec with spdm := t.sec.spdm }, stw := { s.stw with spdmOut := t.stw.spdmOut } })) ∧
  (∀ (s : State) (code : Nat) (body : List (BitVec 8)), secOn s = true → code ∉ spdmSupported →
    exec (.spdmRequest 1 code body) s = .next { s with stw := { s.stw with spdmOut := spdmError code } }) ∧
  (∀ (s : State) (e ext : List (BitVec 8)), mgOn s = true → managementReply s e = none →
    Completes (.mctpVendorRequest e ext) s (fun t => ∃ c, t.cmds = s.cmds ++ [c] ∧ c.key = s.stw.nextKey ∧ c.src = 64 ∧ c.opcode = bytesAt e 0 2 ∧ c.decided = false)) ∧
  (∀ (s : State) (e : List (BitVec 8)), s.flt.deviceError = false → bytesAt e 0 2 ∉ carried → managementReply s e = some { status := stBadOpcode }) ∧
  (∀ (s : State) (b : Bool), mgOn s = true → exec (.mgResetWrite 0x5A b) s = .next { s with mg := { s.mg with resetArm := true } }) ∧
  (∀ (s : State), mgOn s = true → s.mg.resetArm = true → exec (.mgResetWrite 0xA5 true) s = .next (devReset s)) ∧
  (∀ (s : State), mgOn s = true → s.mg.resetArm = false → exec (.mgResetWrite 0xA5 true) s = .next s) ∧
  (∀ (s : State) (n : Nat), mgOn s = true → n < 128 → exec (.setEndpointId n) s = .next { s with pins := { s.pins with mgEid := some n } } ∧
    exec (.dynamicAddressAssign n) s = .next { s with pins := { s.pins with mgAddr := some n } }) ∧
  (∀ (s : State) (r : Nat) (d : List (BitVec 8)), s.bu.stwRunning = true → r = 6 ∨ r = 7 → s.sec.meas.length = 8 →
    Completes (.measurementExtend r d) s (fun t => t.sec.meas.getD r [] = Config.sha384 (s.sec.meas.getD r [] ++ d) ∧
      (∀ j, j ≠ r → t.sec.meas.getD j [] = s.sec.meas.getD j []) ∧ t = { s with sec := { s.sec with meas := t.sec.meas } })) ∧
  (∀ (s : State) (r : Nat) (d : List (BitVec 8)), r < 6 → exec (.measurementExtend r d) s = .next s) ∧
  (∀ (s : State) (r b : Nat), 3 ≤ s.bu.step → r < 3 → s.memTop.decoders.getLsbD r = false →
    Completes (.decoderCommit r b) s (fun t => t.memTop.decoders.getLsbD r = true ∧ tget 0 t.memTop.decBase r = b ∧
      t = { s with memTop := { s.memTop with decoders := t.memTop.decoders, decBase := t.memTop.decBase } })) ∧
  (∀ (s : State) (r b : Nat), s.memTop.decoders.getLsbD r = true → exec (.decoderCommit r b) s = .next s)

/-- R287, R408, R429, R451, R471, R483, R490, R500, R501: the resets. A reset leaves fuses, flash, the input pins and host memory, and every other
part of the device at its reset value; the boot set starts at a rising RESET_N or PWROK; licences without LINK24 leave ports 6 to 23 out. -/
def Obligations.ResetsAct : Prop :=
  (∀ (s : State), exec .resetNFall s = .next { State.reset with sec := s.sec.kept, hostMem := s.hostMem, free := s.free, pending := s.pending, pins := { State.reset.pins with rstN := false, pwrok := s.pins.pwrok, refclk := s.pins.refclk, leFltN := s.pins.leFltN } }) ∧
  (∀ (s : State), s.thm.shutdown = false → exec .pwrokFall s = .next { State.reset with sec := s.sec.kept, hostMem := s.hostMem, free := s.free, pending := s.pending, pins := { State.reset.pins with rstN := s.pins.rstN, pwrok := false, refclk := s.pins.refclk, leFltN := s.pins.leFltN } }) ∧
  (∀ (s : State), s.thm.shutdown = true → exec .pwrokFall s = .next { s with pins := { s.pins with pwrok := false } }) ∧
  (∀ (s : State), s.pins.rstN = false → Completes .resetNRise s (fun t => t.pins = { s.pins with rstN := true, pwrok := true } ∧ t.pwr = { s.pwr with on := bootDomains } ∧
    t.bu = s.bu ∧ t.sec.leaf ≤ s.sec.leaf + 1 ∧ t.sec.meas = s.sec.meas.set 0 (Config.sha384 (s.sec.meas.getD 0 [] ++ (Config.sha384 (fuseImage s) ++ Config.romVersion))) ∧
    t.mem = s.mem)) ∧
  (∀ (s : State), s.pins.rstN = true → s.pins.pwrok = true → exec .resetNRise s = .next s) ∧
  (∀ (s : State) (p : Nat), s.pins.rstN = true → s.pins.pwrok = true → s.pins.refclk = true → 217 ∈ s.pwr.on → s.bu.bootOk = false → 6 ≤ p → p < 24 → s.sec.tokens = [] →
    Completes .bootSetReady s (fun t => t.bu.bootOk = true ∧ t.bu.licDone = true ∧ t.bu.licences = 0 ∧ (t.port p).state = 3 ∧ (∀ j, j < 6 → t.port j = s.port j))) ∧
  (∀ (s : State), s.pins.refclk = false → exec .bootSetReady s = .next s) ∧
  (∀ (s : State), 2 ≤ s.bu.step → Completes .refclkLoss s (fun t => t.pins.refclk = false ∧ t.pins.held = true ∧ t.bu = State.reset.bu ∧ t.mem = State.reset.mem ∧
    t.sec = s.sec.kept)) ∧
  (∀ (s : State), s.bu.step < 2 → exec .refclkLoss s = .next { s with pins := { s.pins with refclk := false } }) ∧
  (∀ (s : State), s.pins.refclk = false → s.pins.held = false → exec .refclkRestore s = .next { s with pins := { s.pins with refclk := true, held := false } }) ∧
  (∀ (s : State), s.pins.refclk = false → s.pins.held = true → s.pins.rstN = true → s.pins.pwrok = true →
    Completes .refclkRestore s (fun t => t.pins.refclk = true ∧ t.pins.held = false ∧ t.pwr.on = bootDomains)) ∧
  (∀ (s : State) (k : Nat) (c : Cmd), cmdOf s k = some c → c.opcode = 0x0102 → c.status = stAccepted → c.decided = true →
    Completes (.commandComplete k) s (fun t => t.bu = State.reset.bu ∧ t.cmds = [] ∧ t.ops = [] ∧ t.flt = State.reset.flt ∧ t.pwr.on = bootDomains ∧ t.sec.tokens = s.sec.tokens ∧
      t.sec.minSvn = s.sec.minSvn))

/-- R409 to R412, R413, R415 to R418, R420, R423, R425, R426, R430: the writes of the bring-up registers. Each starts its step when the step before
has completed and the step's power groups are on, is refused with ORDER or DEPENDENCY otherwise, and does nothing while a step runs. -/
def Obligations.BringupWritesAct : Prop :=
  (∀ (s : State) (w : BitVec 32), s.bu.bootOk = true → s.bu.rwlLocked = false → s.bu.state = 0 ∨ s.bu.state = 2 → bits w.toNat 0 10 ≠ 0 →
    exec (.buDomainEnWrite w) s = .next { s with bu := { s.bu with en := s.bu.en ||| w.setWidth 10, state := 1, running := 1, elapsed := 0 } }) ∧
  (∀ (s : State) (w : BitVec 32), s.bu.bootOk = true → s.bu.rwlLocked = false → s.bu.state = 0 ∨ s.bu.state = 2 → s.bu.step = 1 → w.getLsbD 0 = true →
    exec (.buPllGo w) s = .next { s with bu := { s.bu with state := 1, running := 2, elapsed := 0 } }) ∧
  (∀ (s : State) (w : BitVec 32), s.bu.bootOk = true → s.bu.state = 0 ∨ s.bu.state = 2 → s.bu.step = 0 → w.getLsbD 0 = true →
    exec (.buPllGo w) s = .next (buFault 2 buOrder 2 s)) ∧
  (∀ (s : State) (w : BitVec 32), s.bu.bootOk = false ∨ s.bu.state = 1 → exec (.buPllGo w) s = .next s ∧ exec (.buAuthVerify w) s = .next s) ∧
  (∀ (s : State) (w : BitVec 32), s.bu.bootOk = true → s.bu.rwlLocked = false → s.bu.state = 0 ∨ s.bu.state = 2 → s.bu.step = 2 → w.getLsbD 24 = true →
    s.bu.on.getLsbD 0 = true → s.bu.on.getLsbD 2 = true → s.bu.on.getLsbD 3 = true →
    exec (.buHbmTrainGo w) s = .next { s with bu := { s.bu with hbmSel := w.setWidth 12, ddrSel := w.extractLsb' 12 12, state := 1, running := 3, elapsed := 0 } }) ∧
  (∀ (s : State) (w : BitVec 32), s.bu.bootOk = true → s.bu.rwlLocked = false → s.bu.state = 0 ∨ s.bu.state = 2 → s.bu.step = 3 ∨ s.bu.step = 4 → w.getLsbD 31 = true →
    s.bu.on.getLsbD 1 = true →
    exec (.buImgLoad w) s = .next { s with bu := { s.bu with imgLen := w.setWidth 24, state := 1, running := 4, elapsed := 0, step := 3 } }) ∧
  (∀ (s : State) (w : BitVec 32), s.bu.bootOk = true → s.bu.rwlLocked = false → s.bu.state = 0 ∨ s.bu.state = 2 → s.bu.step = 4 → w.getLsbD 0 = true → s.bu.on.getLsbD 1 = true →
    exec (.buAuthVerify w) s = .next { s with bu := { s.bu with state := 1, running := 5, elapsed := 0 } }) ∧
  (∀ (s : State) (w : BitVec 32), s.bu.bootOk = true → s.bu.rwlLocked = false → s.bu.state = 0 ∨ s.bu.state = 2 → s.bu.step = 5 → w.getLsbD 0 = true → bits w.toNat 8 4 = 0 →
    s.bu.on.getLsbD 1 = true →
    exec (.buStewardRun w) s = .next { s with bu := { s.bu with state := 1, running := 6, elapsed := 0, rwlLocked := true, stwRunning := true } }) ∧
  (∀ (s : State) (w : BitVec 32), s.bu.bootOk = true → s.bu.state = 0 ∨ s.bu.state = 2 → s.bu.step = 6 → s.bu.failedStep ≠ 7 → w.getLsbD 0 = true → w.getLsbD 1 = false →
    (∀ g, g ∈ [0, 1, 6, 7, 8, 9] → s.bu.on.getLsbD g = true) →
    Completes (.buConvoyGo w) s (fun t => t.bu.running = 7 ∧ t.bu.state = 1 ∧ t.bu.cvPhase = 1 ∧ t.bu.cvRound = 0 ∧ t.bu.cvN = chunkCount (coreImage s.bu.image) ∧
      t.bu.cvTag = bytesAt (coreDigest s.bu.image) 0 4 ∧ (∀ c, (t.coreOf c).chunks = []) ∧ t = { s with bu := t.bu, cores := t.cores })) ∧
  (∀ (s : State) (w : BitVec 32) (g : Nat), s.bu.bootOk = true → s.bu.state = 0 ∨ s.bu.state = 2 → s.bu.step = 6 → s.bu.failedStep ≠ 7 → w.getLsbD 0 = true →
    w.getLsbD 1 = false → ([0, 1, 6, 7, 8, 9].find? fun g => !s.bu.on.getLsbD g) = some g →
    Completes (.buConvoyGo w) s (fun t => t.bu.state = 2 ∧ t.bu.running = 0 ∧ t.bu.failedStep = 7 ∧ t.bu.step = 6 ∧ t.bu.fltValid = true ∧ t.bu.fltStep = 7 ∧
      t.bu.fltCode = buDependency ∧ t.bu.fltDetail = g)) ∧
  (∀ (s : State) (w : BitVec 32), s.bu.bootOk = true → s.bu.state = 2 → s.bu.failedStep = 7 → s.bu.cvOver = true → s.bu.step = 6 → w.getLsbD 0 = false → w.getLsbD 1 = true →
    exec (.buConvoyAccept w) s = .next { s with bu := { s.bu with step := 7, state := 0, running := 0, failedStep := 0, degraded := true } }) ∧
  (∀ (s : State) (w : BitVec 32), s.bu.cvOver = false → w.getLsbD 0 = false → exec (.buConvoyAccept w) s = .next s) ∧
  (∀ (s : State) (w : BitVec 32) (m f : Nat), s.bu.bootOk = true → s.bu.state = 0 ∨ s.bu.state = 2 → s.bu.step = 7 → w.getLsbD 0 = false → bits w.toNat 8 4 = 8 →
    (∀ g, g ∈ [0, 1, 5, 6, 7, 8, 9] → s.bu.on.getLsbD g = true) → m < 61 → f < 32 → (s.field f).fenced = false →
    Completes (.buStepWarmup w) s (fun t => t.bu = { s.bu with state := 1, running := 8, elapsed := 0 } ∧ (t.mon m).enable = true ∧ (t.mon m).commitPend = true ∧
      t.eng = { s.eng with run := true } ∧ (t.field f).tlStart = some s.tim.beat)) ∧
  (∀ (s : State) (w : BitVec 32), s.bu.bootOk = true → s.bu.state = 0 ∨ s.bu.state = 2 → s.bu.step = 8 → w.getLsbD 0 = false → bits w.toNat 8 4 = 9 →
    (∀ g, g ∈ [0, 1, 6, 7, 8, 9] → s.bu.on.getLsbD g = true) →
    exec (.buStepFactoryCal w) s = .next { s with bu := { s.bu with state := 1, running := 9, elapsed := 0 } }) ∧
  (∀ (s : State) (w : BitVec 32), s.bu.bootOk = true → s.bu.state = 0 ∨ s.bu.state = 2 → s.bu.step = 9 → w.getLsbD 0 = false → bits w.toNat 8 4 = 10 →
    (∀ g, g ∈ [0, 1, 6, 7, 8, 9] → s.bu.on.getLsbD g = true) → portWithoutP0 s = none →
    Completes (.buStepUserCal w) s (fun t => t.bu = { s.bu with state := 1, running := 10, elapsed := 0 })) ∧
  (∀ (s : State) (w : BitVec 32) (p : Nat), s.bu.bootOk = true → s.bu.state = 0 ∨ s.bu.state = 2 → s.bu.step = 9 → w.getLsbD 0 = false → bits w.toNat 8 4 = 10 →
    (∀ g, g ∈ [0, 1, 6, 7, 8, 9] → s.bu.on.getLsbD g = true) → portWithoutP0 s = some p →
    Completes (.buStepUserCal w) s (fun t => t.bu.failedStep = 10 ∧ t.bu.state = 2 ∧ t.bu.fltCode = buNoP0 ∧ t.bu.fltDetail = p))

/-- R410 to R427: how the steps of bring-up end. -/
def Obligations.BringupStepsEnd : Prop :=
  (∀ (s : State) (ms : Nat) (obs : StepObs), s.bu.running = 0 → exec (.bringupStepComplete ms obs) s = .next s ∧ exec .bringupStepTimeout s = .next s) ∧
  (∀ (s : State) (ms : Nat) (obs : StepObs), s.bu.running = 1 → s.bu.state = 1 → s.bu.on = 0 → s.bu.en = 1 → obs.good.getLsbD 0 = true →
    Completes (.bringupStepComplete ms obs) s (fun t => t.bu.on = 1 ∧ t.bu.step = max 1 s.bu.step ∧ t.bu.state = 0 ∧ t.bu.running = 0 ∧
      (∀ d, d ∈ groupDomains 0 → d ∈ t.pwr.on))) ∧
  (∀ (s : State) (ms : Nat) (obs : StepObs), s.bu.running = 1 → s.bu.state = 1 → s.bu.on = 0 → s.bu.en = 1 → obs.good.getLsbD 0 = false →
    Completes (.bringupStepComplete ms obs) s (fun t => t.bu.on = 0 ∧ t.bu.en = 0 ∧ t.bu.state = 2 ∧ t.bu.fltCode = buSupply ∧ t.bu.fltDetail = 0 ∧ t.bu.step = s.bu.step)) ∧
  (∀ (s : State) (ms : Nat) (obs : StepObs), s.bu.running = 2 → s.pins.refclk = true → obs.plls = BitVec.allOnes 5 →
    Completes (.bringupStepComplete ms obs) s (fun t => t.bu.step = max 2 s.bu.step ∧ t.bu.pllLock = BitVec.allOnes 5 ∧ t.tim = { s.tim with counting := true, beat := 0, t := 0 })) ∧
  (∀ (s : State) (ms : Nat) (obs : StepObs), s.bu.running = 2 → s.pins.refclk = true → obs.plls = 0 →
    Completes (.bringupStepComplete ms obs) s (fun t => t.bu.state = 2 ∧ t.bu.fltCode = buPll ∧ t.bu.fltDetail = 8 ∧ t.tim = s.tim)) ∧
  (∀ (s : State) (ms n : Nat) (obs : StepObs), s.bu.running = 3 → s.bu.hbmSel = BitVec.allOnes 12 → s.bu.ddrSel = 0 → obs.hbm = BitVec.allOnes 12 → n < 12 →
    (∀ u, u < 12 → (s.unit u).state = 0) →
    Completes (.bringupStepComplete ms obs) s (fun t => (t.unit n).state = 1 ∧ t.bu.hbmOk = BitVec.allOnes 12 ∧ t.bu.step = max 3 s.bu.step)) ∧
  (∀ (s : State) (ms : Nat) (obs : StepObs), s.bu.running = 3 → obs.hbm = 0 → s.bu.hbmOk = 0 →
    Completes (.bringupStepComplete ms obs) s (fun t => t.bu.state = 2 ∧ t.bu.fltCode = buNoHbm ∧ t.bu.step = s.bu.step)) ∧
  (∀ (s : State) (ms : Nat) (obs : StepObs), s.bu.running = 4 → s.bu.imgAddr ≠ 0 → obs.readError = false → imageBad obs.image (some s.bu.imgLen.toNat) = none →
    Completes (.bringupStepComplete ms obs) s (fun t => t.bu.image = obs.image ∧ t.bu.authentic = false ∧ t.bu.step = max 4 s.bu.step ∧ t.bu.state = 0)) ∧
  (∀ (s : State) (ms off : Nat) (obs : StepObs), s.bu.running = 4 → s.bu.imgAddr ≠ 0 → obs.readError = false → imageBad obs.image (some s.bu.imgLen.toNat) = some off →
    Completes (.bringupStepComplete ms obs) s (fun t => t.bu.image = s.bu.image ∧ t.bu.fltCode = buImgFormat ∧ t.bu.fltDetail = off ∧ t.bu.state = 2)) ∧
  (∀ (s : State) (ms : Nat) (obs : StepObs), s.bu.running = 5 → s.bu.attempts < 3 →
    Completes (.bringupStepComplete ms obs) s (fun t => t.bu.authentic = ((authOf s 1 s.bu.image (bytesAt s.bu.image 40 4)).reason == 0) ∧
      if (authOf s 1 s.bu.image (bytesAt s.bu.image 40 4)).reason = 0 then t.bu.step = max 5 s.bu.step ∧ t.bu.attempts = s.bu.attempts
      else t.bu.step = s.bu.step ∧ t.bu.attempts = s.bu.attempts + 1 ∧ t.bu.fltCode = buAuth ∧ t.bu.state = 2)) ∧
  (∀ (s : State) (ms : Nat) (obs : StepObs), s.bu.running = 5 → s.bu.attempts = 3 →
    Completes (.bringupStepComplete ms obs) s (fun t => (authOf s 1 s.bu.image (bytesAt s.bu.image 40 4)).reason ≠ 0 → t.bu.state = 3 ∧ t.bu.lockout = true ∧
      t.bu.fltCode = buLockout)) ∧
  (∀ (s : State) (ms : Nat) (obs : StepObs), s.bu.running = 6 → Completes (.bringupStepComplete ms obs) s (fun t => t.stw.ready = true ∧ t.bu.step = max 6 s.bu.step)) ∧
  (∀ (s : State) (ms : Nat) (obs : StepObs), s.bu.running = 7 → (∀ c, c < 2048 → (s.coreOf c).verified = true) → obs.coresBad = [] → repairDue s [] = false →
    Completes (.bringupStepComplete ms obs) s (fun t => t.bu.step = max 7 s.bu.step ∧ t.bu.state = 0 ∧ t.bu.cvFenced = 0 ∧ t.bu.cvPhase = 3 ∧ t.bu.degraded = s.bu.degraded)) ∧
  (∀ (s : State) (ms : Nat) (obs : StepObs), s.bu.running = 7 → (∀ c, c < 2048 → (s.coreOf c).verified = false) → repairDue s obs.coresBad = false →
    Completes (.bringupStepComplete ms obs) s (fun t => t.bu.step = s.bu.step ∧ t.bu.state = 2 ∧ t.bu.fltCode = buConvoyFailed ∧ t.bu.cvFenced = 2048)) ∧
  (∀ (s : State) (ms : Nat) (obs : StepObs), s.bu.running = 7 → repairDue s obs.coresBad = true →
    exec (.bringupStepComplete ms obs) s = .next { s with bu := { s.bu with elapsed := min ms 0xFFFF } }) ∧
  (∀ (s : State) (ms : Nat) (obs : StepObs), s.bu.running = 8 → obs.fieldsOk = BitVec.allOnes 32 → obs.bandsBad = [] →
    (∀ i, i < 32 → 1500 ≤ (s.lcol i).power) → (∃ f, f < 32 ∧ (s.field f).fenced = false) →
    Completes (.bringupStepComplete ms obs) s (fun t => t.bu.step = max 8 s.bu.step ∧ t.bu.state = 0 ∧ ∀ f, f < 32 → (s.field f).fenced = false → (t.field f).tlLocked = true)) ∧
  (∀ (s : State) (ms : Nat) (obs : StepObs), s.bu.running = 9 →
    Completes (.bringupStepComplete ms obs) s (fun t =>
      if (authentic s 3 s.sec.factoryFlash && bytesAt s.sec.factoryFlash 8 8 == s.sec.serial.toNat) = true then t.bu.step = max 9 s.bu.step ∧ t.cal.user = []
      else t.bu.step = s.bu.step ∧ t.bu.fltCode = buFactoryCal ∧ t.bu.state = 2 ∧ t.cal = s.cal)) ∧
  (∀ (s : State) (ms : Nat) (obs : StepObs), s.bu.running = 10 → (∀ i, i < 256 → (s.band i).proc = 0 ∧ (s.band i).queue = [] ∧ (s.band i).suspect = false) →
    s.link.configured = false →
    Completes (.bringupStepComplete ms obs) s (fun t => t.bu.step = max 10 s.bu.step ∧ t.bu.state = 0 ∧ t.pwr = { s.pwr with state := 0 } ∧ t.tim = { s.tim with aloneStart := true } ∧
      t.cal = { s.cal with scheduled := 0, schedNext := 0 })) ∧
  (∀ (s : State) (n : Nat), s.bu.running = n → n ∈ [1, 2, 3, 4, 5, 8, 9] →
    Completes .bringupStepTimeout s (fun t => t.bu.state = 2 ∧ t.bu.running = 0 ∧ t.bu.failedStep = n ∧ t.bu.fltStep = n ∧ t.bu.fltCode = buTimeout ∧ t.bu.step = s.bu.step ∧
      t.bu.elapsed = stepLimit n)) ∧
  (∀ (s : State), s.bu.running = 6 → Completes .bringupStepTimeout s (fun t => t.bu.state = 2 ∧ t.bu.fltCode = buSteward ∧ t.bu.step = s.bu.step)) ∧
  (∀ (s : State) (f b : Nat), f < 32 → (s.field f).tlStart = some b → b + 10000000 ≤ s.tim.beat → (s.field f).tlLocked = false → s.bu.running = 8 → (s.field f).fenced = false → s.ops = [] →
    s.flt.queue = [] →
    Completes (.warmupFieldTimeout f none) s (fun t => (t.field f).fenced = true ∧ (t.field f).bootFenced = true ∧ t.bu.degraded = true ∧ t.bu.fltCode = buWarmupUnit ∧
      t.bu.fltDetail = f + 0xFF00)) ∧
  (∀ (s : State) (f : Nat) (b : Option Nat), (s.field f).tlStart = none → exec (.warmupFieldTimeout f b) s = .next s) ∧
  (∀ (s : State) (f b : Nat) (x : Option Nat), (s.field f).tlStart = some b → s.tim.beat < b + 10000000 → exec (.warmupFieldTimeout f x) s = .next s) ∧
  (∀ (s : State) (c q : Nat) (l : List (BitVec 8)), s.bu.running = 7 → c < 2048 → chunkGood s l = true → q = bytesAt l 0 2 → (s.coreOf c).chunks.any (fun x => x.1 == q) = false →
    Completes (.convoyChunkReceive c l) s (fun t => (t.coreOf c).chunks = tins q (Config.sha384 (l.drop 16)) (s.coreOf c).chunks ∧
      (t.coreOf c).verified = imageVerified s (t.coreOf c).chunks ∧ (∀ j, j ≠ c → (t.coreOf j).chunks = (s.coreOf j).chunks) ∧ t.bu = s.bu)) ∧
  (∀ (s : State) (c : Nat) (l : List (BitVec 8)), chunkGood s l = false ∨ (s.coreOf c).chunks.any (fun x => x.1 == bytesAt l 0 2) = true →
    exec (.convoyChunkReceive c l) s = .next s) ∧
  (∀ (s : State), s.bu.running = 7 → s.bu.cvRound < 3 → exec .convoyRepairRound s = .next { s with bu := { s.bu with cvPhase := 2, cvRound := s.bu.cvRound + 1 } }) ∧
  (∀ (s : State), 3 ≤ s.bu.cvRound → exec .convoyRepairRound s = .next s) ∧
  (∀ (s : State) (c : Nat), 7 ≤ s.bu.step → s.flt.deviceError = false → c < 2048 →
    Completes (.coreReconvoy [c] []) s (fun t => (t.coreOf c).verified = true ∧ (t.coreOf c).resident = none ∧ t.flt = s.flt ∧ t.bu = s.bu))

/-- R438 to R451, R439: the conversions. A diode's temperature lies within half a step of the formula's, a thermistor's where the formula gives one;
both keep within their 16 bits. Temperatures. An accepted reading counts, the third discarded one in a row fails its sensor, and an EXT_T reading
outside its window is discarded (R504); a die at throttle starts an episode with THROT_N low, the host's grace and then enforcement by steps; a die at
its shut-down level turns the device off. -/
def Obligations.TemperaturesAct : Prop :=
  (∀ (s : State) (d i : Nat) (v x : Int), d < 10 → i < sensorCount d → s.tim.counting = true → s.bu.on.getLsbD 1 = true → (s.sensor (sensorKey d i)).failed = false →
    converterFailed s d i = false → readAlready s d i = false → sensorTemp s d i v = some x → discards d (s.sensor (sensorKey d i)) x = false →
    Completes (.sensorReading d i v) s (fun t => (t.sensor (sensorKey d i)).reading = x ∧ (t.sensor (sensorKey d i)).any = true ∧ (t.sensor (sensorKey d i)).discards = 0 ∧
      (∀ j, j ≠ sensorKey d i → t.sensor j = s.sensor j) ∧ t = { s with sensors := t.sensors })) ∧
  (∀ (s : State) (d i : Nat) (v x : Int), d < 10 → i < sensorCount d → s.tim.counting = true → s.bu.on.getLsbD 1 = true → (s.sensor (sensorKey d i)).failed = false →
    converterFailed s d i = false → readAlready s d i = false → sensorTemp s d i v = some x → discards d (s.sensor (sensorKey d i)) x = true → (s.sensor (sensorKey d i)).discards < 2 →
    Completes (.sensorReading d i v) s (fun t => (t.sensor (sensorKey d i)).reading = (s.sensor (sensorKey d i)).reading ∧ (t.sensor (sensorKey d i)).failed = false ∧
      (t.sensor (sensorKey d i)).discards = (s.sensor (sensorKey d i)).discards + 1 ∧ (t.sensor (sensorKey d i)).lastDiscard = true)) ∧
  (∀ (s : State) (d i : Nat) (v x : Int), d < 10 → i < sensorCount d → s.tim.counting = true → s.bu.on.getLsbD 1 = true → (s.sensor (sensorKey d i)).failed = false →
    readAlready s d i = false → sensorTemp s d i v = some x → discards d (s.sensor (sensorKey d i)) x = true → (s.sensor (sensorKey d i)).discards = 2 →
    Completes (.sensorReading d i v) s (fun t => (t.sensor (sensorKey d i)).failed = true ∧ t.mg.alert.getLsbD 2 = true)) ∧
  (∀ (s : State) (i : Nat) (v x : Int), i < 8 → s.tim.counting = true → s.bu.on.getLsbD 1 = true → readAlready s 22 i = false → sensorTemp s 22 i v = some x →
    pinOutside s 22 i = true →
    Completes (.sensorReading 22 i v) s (fun t => (t.sensor (sensorKey 22 i)).reading = (s.sensor (sensorKey 22 i)).reading ∧ (t.sensor (sensorKey 22 i)).lastDiscard = true ∧
      t.thm = s.thm ∧ t.dies = s.dies)) ∧
  (∀ (s : State) (d i : Nat) (v : Int), d < 10 ∨ d = 22 → readAlready s d i = true → exec (.sensorReading d i v) s = .next s) ∧
  (∀ (s : State) (d : Nat) (v : Int), 10 ≤ d → d < 22 → s.tim.counting = true → s.bu.on.getLsbD 1 = true → (s.sensor (sensorKey d 0)).failed = false →
    discards d (s.sensor (sensorKey d 0)) (32 * v) = false → v < 420 →
    Completes (.sensorReading d 0 v) s (fun t => (t.die d).temp = 32 * v ∧ (t.die d).level = levelOf d (s.die d).level (32 * v) ∧
      (t.unit (d - 10)).fastRef = decide (0 < levelOf d (s.die d).level (32 * v)))) ∧
  (∀ (s : State) (d : Nat) (v : Int), 10 ≤ d → d < 22 → s.tim.counting = true → s.bu.on.getLsbD 1 = true → (s.sensor (sensorKey d 0)).failed = false →
    discards d (s.sensor (sensorKey d 0)) (32 * v) = false → 420 ≤ v →
    Completes (.sensorReading d 0 v) s (fun t => t.thm.shutdown = true ∧ t.pwr.state = 3 ∧ t.pwr.on = [] ∧ t.pins.throtN = false ∧ t.pins.faultN = false)) ∧
  (∀ (s : State) (d : Nat), d < 22 → s.bu.on.getLsbD 1 = true → (s.die d).level ≠ 2 → s.thm.episode = false →
    Completes (.overtempComparatorTrip d) s (fun t => (t.die d).level = 2 ∧ t.thm.episode = true ∧ t.thm.startAt = s.tim.beat ∧ t.thm.enforcing = false ∧ t.thm.acked = false ∧
      t.pins.throtN = false ∧ t.mg.alert.getLsbD 0 = true)) ∧
  (∀ (s : State) (d i k : Nat), d < 22 → s.bu.on.getLsbD 1 = true → (s.die d).level = 2 → i < sensorCount d → sensorConverter d i = some k → (s.mon k).aEnable = true →
    (s.mon k).aTrig.getLsbD 1 = true → (s.mon k).injRun = false → (s.mon k).selfTest = false →
    Completes (.overtempComparatorTrip d) s (fun t => (t.mon k).injRun = true ∧ (t.die d).level = 2 ∧ t.thm = s.thm ∧ t.pins = s.pins)) ∧
  (∀ (s : State), s.thm.episode = true → s.thm.acked = false → s.thm.enforcing = false → s.thm.startAt + 100 * s.thm.grace ≤ s.tim.beat → s.thm.tile = [0, 0, 0, 0] →
    (s.die 8).level = 2 →
    Completes .throttleGraceExpiry s (fun t => t.thm.enforcing = true ∧ t.thm.tile = [1, 1, 1, 1] ∧ t.pins.throtN = false)) ∧
  (∀ (s : State), s.thm.acked = true ∨ s.tim.beat < s.thm.startAt + 100 * s.thm.grace → exec .throttleGraceExpiry s = .next s) ∧
  (∀ (s : State), s.thm.episode = true → s.thm.acked = true → s.thm.enforcing = false → s.thm.ackAt + 50000 ≤ s.tim.beat → s.thm.tile = [0, 0, 0, 0] → (s.die 8).level = 2 →
    Completes .throttleAckLimit s (fun t => t.thm.enforcing = true ∧ t.thm.tile = [1, 1, 1, 1])) ∧
  (∀ (s : State), s.tim.beat < s.thm.ackAt + 50000 → (∀ d, d < 22 → (s.die d).temp < throttleAt d + 384) → exec .throttleAckLimit s = .next s) ∧
  (∀ (s : State) (n : Nat), s.thm.episode = true → s.thm.enforcing = true → 1 ≤ n → n ≤ 4 → s.thm.tile = [n, n, n, n] → s.thm.raiseAt = [s.tim.beat, s.tim.beat, s.tim.beat, s.tim.beat] →
    (s.die 8).level = 2 → (s.die 8).hold = none →
    Completes .throttleStepTimer s (fun t => t.thm.tile = [n + 1, n + 1, n + 1, n + 1] ∧
      t.thm.raiseAt = [s.tim.beat + 10000, s.tim.beat + 10000, s.tim.beat + 10000, s.tim.beat + 10000])) ∧
  (∀ (s : State), s.thm.enforcing = false → exec .throttleStepTimer s = .next s) ∧
  (∀ (s : State) (d i b : Nat), (s.die d).hold = some i → (s.die d).holdFrom = some b → b + 1000000 ≤ s.tim.beat →
    exec (.sensorHoldTimer d) s = .next (s.setDie d { s.die d with hold := none, holdFrom := none, rest := false })) ∧
  (∀ (s : State) (d b : Nat), (s.die d).holdFrom = some b → s.tim.beat < b + 1000000 → exec (.sensorHoldTimer d) s = .next s) ∧
  (∀ (s : State) (d : Nat), d < 22 → s.pins.rstN = true → s.pins.pwrok = true → s.pwr.state < 3 →
    Completes (.shutdownComparatorTrip d) s (fun t => t.thm.shutdown = true ∧ t.pwr.state = 3 ∧ t.pwr.on = [] ∧ t.pins.throtN = false ∧ t.pins.faultN = false ∧ t.ops = [] ∧
      t.cmds = [] ∧ t.sec = s.sec.kept)) ∧
  (∀ (n : Int) (eta : Nat), 0 < eta → -32768 ≤ diodeTemp n eta ∧ diodeTemp n eta ≤ 32767 ∧
    (-32768 < diodeTemp n eta → diodeTemp n eta < 32767 →
      2 * (40 * (eta : Int) * 2302585092994046 * diodeTemp n eta - (145056250000000000000 * n - 349632 * (4 * (eta : Int) * 2302585092994046))) ≤ 40 * eta * 2302585092994046 ∧
      -(40 * (eta : Int) * 2302585092994046) ≤
        2 * (40 * (eta : Int) * 2302585092994046 * diodeTemp n eta - (145056250000000000000 * n - 349632 * (4 * (eta : Int) * 2302585092994046))))) ∧
  (∀ (r : Int) (r25 beta : Nat), -32768 ≤ ntcTemp r r25 beta ∧ ntcTemp r r25 beta ≤ 32767) ∧
  (∀ (n beta : Nat), 0 < n → 0 < beta → 12500 * n = 2 ^ 23 * (n * 12500 / 2 ^ 23) → ntcTemp n (n * 12500 / 2 ^ 23) beta = 3200) ∧
  (∀ (s : State) (d i : Nat) (v a b : Int) (x y : BitVec 24), d < 10 → (s.monLast (sensorInput d i)).low = some (s.tim.beat, x) →
    (s.monLast (sensorInput d i)).high = some (s.tim.beat, y) → a = x.toInt → b = y.toInt →
    sensorTemp s d i v = some (diodeTemp (b - a) (calFactory s (kEta d i)).toNat)) ∧
  (∀ (s : State) (d i : Nat) (v : Int), d < 10 → (s.monLast (sensorInput d i)).high = none → exec (.sensorReading d i v) s = .next s) ∧
  (∀ (s : State) (i : Nat) (v : Int), (s.extT i).type = 0 → exec (.sensorReading 22 i v) s = .next s)

/-- R457 to R463, R466 to R468: faults. A fault of a unit in service stops the unit and enters the queue once; a full queue is a device error; the
steward fences or starts the recovery of the first entry; a recovery that passes returns the unit, one that fails fences it. -/
def Obligations.FaultsAct : Prop :=
  (∀ (s : State) (code kind index sub detail : Nat), s.flt.deviceError = false → unitOut s kind index sub = false → s.ops = [] → s.flt.active = none →
    disableOn s kind index sub = none → (∀ e, e ∈ s.flt.queue → sameUnit e.kind e.index e.sub kind index sub = false) → s.flt.queue.length < 64 →
    Completes (.faultDetect code kind index sub detail) s (fun t => t.flt.queue = s.flt.queue ++
        [{ code := code, kind := kind, sub := sub, index := index, beat := s.tim.beat % 2 ^ 32, detail := detail }] ∧ t.flt.faults = satInc s.flt.faults ∧
      t.flt.log = s.flt.log ∧ t.flt.deviceError = false ∧ (kind = 0 → (t.field index).bandWithheld = ~~~ (s.field index).bandFenced) ∧ t.mem = s.mem)) ∧
  (∀ (s : State) (code kind index sub detail : Nat), s.flt.deviceError = false → unitOut s kind index sub = false → s.ops = [] → s.flt.active = none →
    disableOn s kind index sub = none → (∀ e, e ∈ s.flt.queue → sameUnit e.kind e.index e.sub kind index sub = false) → s.flt.queue.length = 64 →
    Completes (.faultDetect code kind index sub detail) s (fun t => t.flt.deviceError = true ∧ t.flt.deCause = 4)) ∧
  (∀ (s : State) (code kind index sub detail : Nat), s.flt.deviceError = true → exec (.faultDetect code kind index sub detail) s = .next s) ∧
  (∀ (s : State) (c : Nat), c < 2048 → s.flt.deviceError = false → (s.field (c / 64)).fenced = false → (s.coreOf c).state ≠ 3 → s.ops = [] → s.flt.active = none → s.flt.disabling = [] →
    s.flt.queue = [] →
    Completes (.coreHeartbeatMiss c) s (fun t => t.flt.queue = [{ code := 0x11, kind := 3, sub := c % 64, index := c / 64, beat := s.tim.beat % 2 ^ 32, detail := 0 }] ∧
      (t.coreOf c).verified = false)) ∧
  (∀ (s : State) (e : FaultE) (rest : List FaultE), s.flt.active = none → s.flt.queue = e :: rest → s.flt.deviceError = false → fenceCode e.code = true → e.kind = 0 →
    s.ops = [] → s.light.colFaults = [] → s.flt.log = [] → rest = [] →
    Completes .faultQueueTake s (fun t => (t.field e.index).fenced = true ∧ t.flt.queue = [] ∧ t.flt.log = [{ e with outcome := 2, recovering := false }] ∧
      t.flt.active = none ∧ t.mg.alert.getLsbD 6 = true)) ∧
  (∀ (s : State) (e : FaultE) (rest : List FaultE), s.flt.active = none → s.flt.queue = e :: rest → s.flt.deviceError = false → fenceCode e.code = false → e.kind = 4 ∨ e.kind = 6 →
    s.light.colFaults = [] →
    Completes .faultQueueTake s (fun t => t.flt.queue = rest ∧ t.flt.active = some { e with recovering := true } ∧ t.flt.activeAt = s.tim.beat ∧ t.flt.log = s.flt.log)) ∧
  (∀ (s : State) (e : FaultE), s.flt.active = some e → exec .faultQueueTake s = .next s) ∧
  (∀ (s : State) (e : FaultE), s.flt.active = some e → e.kind = 1 → mayPass s e = true → e.cmds = [] → e.sub < 8 → s.flt.disabling = [] → s.flt.log = [] →
    Completes (.recoveryEnd true) s (fun t => t.flt.active = none ∧ t.flt.log = [{ e with outcome := 1, recovering := false }] ∧
      (t.field e.index).bandFenced.getLsbD e.sub = false ∧ (t.field e.index).bandWithheld.getLsbD e.sub = true ∧ (t.band (8 * e.index + e.sub)).back = true)) ∧
  (∀ (s : State) (e : FaultE), s.flt.active = some e → e.kind = 1 → e.cmds = [] → e.sub < 8 → s.flt.disabling = [] → s.ops = [] → s.flt.log = [] →
    Completes (.recoveryEnd false) s (fun t => t.flt.active = none ∧ t.flt.log = [{ e with outcome := 2, recovering := false }] ∧
      (t.field e.index).bandFenced.getLsbD e.sub = true)) ∧
  (∀ (s : State) (e : FaultE), s.flt.active = some e → mayPass s e = false → exec (.recoveryEnd true) s = .next s) ∧
  (∀ (s : State) (b : Bool), s.flt.active = none → exec (.recoveryEnd b) s = .next s) ∧
  (∀ (s : State) (d : Nat), 128 ≤ d → exec (.domainPowerGoodLoss d) s = .next { s with pwr := { s.pwr with on := s.pwr.on.filter (fun x => x != d) } }) ∧
  (∀ (s : State) (d : Nat), d < 128 → s.flt.deviceError = false → (s.field (d / 4)).fenced = false → s.ops = [] → s.flt.active = none → s.flt.disabling = [] → s.flt.queue = [] →
    Completes (.domainPowerGoodLoss d) s (fun t => d ∉ t.pwr.on ∧ t.flt.queue = [{ code := 4, kind := 0, sub := 0, index := d / 4, beat := s.tim.beat % 2 ^ 32, detail := 0 }]))
end

