-- ==== Sys2Proof/Laws/Tables.lean ====
section
/-! SUPPORT. The laws of sparse tables and of byte memory: what a read gives after a write, and that writes keep the
canonical form. -/

namespace Sys2Proof.Machine

open Sys2Proof

variable {α : Type}

theorem tget_tdel (d : α) (t : Tab α) (j k : Nat) :
    tget d (tdel t j) k = if k = j then d else tget d t k := by
  induction t with
  | nil => simp [tdel, tget]
  | cons e l ih =>
    obtain ⟨a, w⟩ := e
    unfold tdel at ih ⊢
    by_cases h : a = j
    · subst h
      simp only [bne_self_eq_false, Bool.false_eq_true, not_false_eq_true, List.filter_cons_of_neg, ih, tget]
      by_cases hk : k = a
      · simp [hk]
      · simp [hk, Ne.symm hk]
    · rw [List.filter_cons_of_pos (by simpa using h)]
      simp only [tget, ih]
      by_cases hk : a = k
      · subst hk; simp [h]
      · simp [hk]

theorem tget_tins_self (d : α) (t : Tab α) (k : Nat) (v : α) (h : ∀ e ∈ t, e.1 ≠ k) :
    tget d (tins k v t) k = v := by
  induction t with
  | nil => simp [tins, tget]
  | cons e l ih =>
    obtain ⟨a, w⟩ := e
    simp only [tins]
    have ha : a ≠ k := h (a, w) (by simp)
    split
    · simp [tget]
    · simp only [tget, ha, if_false]
      exact ih (fun e he => h e (by simp [he]))

theorem tget_tins_ne (d : α) (t : Tab α) (j k : Nat) (v : α) (h : k ≠ j) :
    tget d (tins j v t) k = tget d t k := by
  induction t with
  | nil => simp [tins, tget, Ne.symm h]
  | cons e l ih =>
    obtain ⟨a, w⟩ := e
    simp only [tins]
    split
    · simp [tget, Ne.symm h]
    · simp only [tget, ih]

theorem tdel_not_mem (t : Tab α) (k : Nat) : ∀ e ∈ tdel t k, e.1 ≠ k := by
  intro e he
  have := (List.mem_filter.mp he).2
  simpa using this

/-- What a table reads as after a write. -/
theorem tget_tset [DecidableEq α] (d : α) (t : Tab α) (j k : Nat) (v : α) :
    tget d (tset d t j v) k = if k = j then v else tget d t k := by
  unfold tset
  by_cases hk : k = j
  · subst hk
    by_cases hv : v = d
    · simp [hv, tget_tdel]
    · simp [hv, tget_tins_self d _ k v (tdel_not_mem t k)]
  · by_cases hv : v = d
    · simp [hv, tget_tdel, hk]
    · simp [hv, tget_tins_ne d _ j k v hk, tget_tdel, hk]

/-- A write of one key leaves every other key alone, whatever its default. -/
theorem tget_tset_ne [DecidableEq α] (d d' : α) (t : Tab α) (j k : Nat) (v : α) (h : k ≠ j) :
    tget d' (tset d t j v) k = tget d' t k := by
  unfold tset
  split
  · simp [tget_tdel, h]
  · simp [tget_tins_ne d' _ j k v h, tget_tdel, h]

/-- The lower bound of every key of a canonical table. -/
theorem Tab.wf_cons_iff [DecidableEq α] (d : α) (a : Nat) (v : α) (l : Tab α) :
    Tab.wf d ((a, v) :: l) = true ↔ v ≠ d ∧ (∀ e ∈ l, a < e.1) ∧ Tab.wf d l = true := by
  induction l generalizing a v with
  | nil => simp [Tab.wf]
  | cons e l ih =>
    obtain ⟨b, w⟩ := e
    have hb := ih b w
    simp only [Tab.wf, Bool.and_eq_true, Bool.not_eq_true', decide_eq_false_iff_not, decide_eq_true_eq]
    constructor
    · rintro ⟨⟨h1, h2⟩, h3⟩
      refine ⟨h1, ?_, h3⟩
      intro e he
      rcases List.mem_cons.mp he with rfl | he
      · exact h2
      · exact Nat.lt_trans h2 ((hb.mp h3).2.1 e he)
    · rintro ⟨h1, h2, h3⟩
      exact ⟨⟨h1, h2 (b, w) (by simp)⟩, h3⟩

theorem Tab.wf_tdel [DecidableEq α] (d : α) (t : Tab α) (k : Nat) (h : Tab.wf d t = true) :
    Tab.wf d (tdel t k) = true := by
  induction t with
  | nil => simp [tdel, Tab.wf]
  | cons e l ih =>
    obtain ⟨a, w⟩ := e
    obtain ⟨h1, h2, h3⟩ := (Tab.wf_cons_iff d a w l).mp h
    unfold tdel at ih ⊢
    by_cases hk : a = k
    · rw [List.filter_cons_of_neg (by simp [hk])]; exact ih h3
    · rw [List.filter_cons_of_pos (by simpa using hk)]
      exact (Tab.wf_cons_iff d a w _).mpr ⟨h1, fun e he => h2 e (List.mem_filter.mp he).1, ih h3⟩

theorem mem_tins (k : Nat) (v : α) (t : Tab α) (e : Nat × α) (h : e ∈ tins k v t) : e = (k, v) ∨ e ∈ t := by
  induction t with
  | nil => simpa [tins] using h
  | cons x l ih =>
    obtain ⟨a, w⟩ := x
    simp only [tins] at h
    split at h
    · rcases List.mem_cons.mp h with h | h
      · exact Or.inl h
      · exact Or.inr h
    · rcases List.mem_cons.mp h with h | h
      · exact Or.inr (by simp [h])
      · rcases ih h with h | h
        · exact Or.inl h
        · exact Or.inr (by simp [h])

theorem Tab.wf_tins [DecidableEq α] (d : α) (t : Tab α) (k : Nat) (v : α) (hv : v ≠ d)
    (h : Tab.wf d t = true) (hk : ∀ e ∈ t, e.1 ≠ k) : Tab.wf d (tins k v t) = true := by
  induction t with
  | nil => simp [tins, Tab.wf, hv]
  | cons e l ih =>
    obtain ⟨a, w⟩ := e
    obtain ⟨h1, h2, h3⟩ := (Tab.wf_cons_iff d a w l).mp h
    simp only [tins]
    have hak : a ≠ k := hk (a, w) (by simp)
    split
    · next hlt =>
      refine (Tab.wf_cons_iff d k v _).mpr ⟨hv, ?_, h⟩
      intro e he
      rcases List.mem_cons.mp he with rfl | he
      · exact hlt
      · exact Nat.lt_trans hlt (h2 e he)
    · next hge =>
      refine (Tab.wf_cons_iff d a w _).mpr ⟨h1, ?_, ih h3 (fun e he => hk e (by simp [he]))⟩
      intro e he
      rcases mem_tins k v l e he with rfl | he
      · show a < k
        omega
      · exact h2 e he

/-- A write keeps the canonical form. -/
theorem Tab.wf_tset [DecidableEq α] (d : α) (t : Tab α) (k : Nat) (v : α) (h : Tab.wf d t = true) :
    Tab.wf d (tset d t k v) = true := by
  unfold tset
  split
  · exact Tab.wf_tdel d t k h
  · next hv => exact Tab.wf_tins d _ k v hv (Tab.wf_tdel d t k h) (tdel_not_mem t k)

/-- A byte reads as written, and every other byte as before. -/
theorem Memory.read_write (m : List Host.Cell) (a b : Nat) (v : Byte) :
    Memory.read (Memory.write m a v) b = if b = a then v else Memory.read m b := tget_tset _ _ _ _ _

/-- A byte write keeps the canonical form. -/
theorem Memory.wf_write (m : List Host.Cell) (a : Nat) (v : Byte) (h : Memory.wf m = true) :
    Memory.wf (Memory.write m a v) = true := Tab.wf_tset _ _ _ _ h

/-- A store of several bytes keeps the canonical form. -/
theorem Memory.wf_writeN (m : List Host.Cell) (a : Nat) (l : List Byte) (h : Memory.wf m = true) :
    Memory.wf (Memory.writeN m a l) = true := by
  induction l generalizing m a with
  | nil => exact h
  | cons v l ih => exact ih _ _ (Memory.wf_write m a v h)

/-- A store of several bytes leaves every byte outside it alone. -/
theorem Memory.read_writeN_out (m : List Host.Cell) (a b : Nat) (l : List Byte) (h : b < a ∨ a + l.length ≤ b) :
    Memory.read (Memory.writeN m a l) b = Memory.read m b := by
  induction l generalizing m a with
  | nil => rfl
  | cons v l ih =>
    have hl : b < a + 1 ∨ a + 1 + l.length ≤ b := by
      simp only [List.length_cons] at h; omega
    have hne : b ≠ a := by simp only [List.length_cons] at h; omega
    simp only [Memory.writeN, ih _ _ hl, Memory.read_write, hne, if_false]

/-- A store of several bytes reads back. -/
theorem Memory.read_writeN_in (m : List Host.Cell) (a i : Nat) (l : List Byte) (h : i < l.length) :
    Memory.read (Memory.writeN m a l) (a + i) = l[i] := by
  induction l generalizing m a i with
  | nil => simp at h
  | cons v l ih =>
    cases i with
    | zero =>
      simp only [Memory.writeN, Nat.add_zero]
      rw [Memory.read_writeN_out _ _ _ _ (Or.inl (Nat.lt_succ_self a)), Memory.read_write]
      simp
    | succ i =>
      simp only [Memory.writeN]
      have := ih (Memory.write m a v) (a + 1) i (by simpa using h)
      rw [show a + (i + 1) = a + 1 + i by omega, this]
      simp

end Sys2Proof.Machine
end

