-- ==== Sys2Proof/Laws/Access.lean ====
section
/-! SUPPORT. One lemma per accessor of State's tables: what a read gives after a write of the same table. -/

namespace Sys2Proof.Machine.State

open Sys2Proof

@[simp] theorem field_setField (s : State) (j k : Nat) (v : Field) :
    (s.setField j v).field k = if k = j then v else s.field k := tget_tset _ _ _ _ _

@[simp] theorem field_modField (s : State) (j k : Nat) (g : Field → Field) :
    (s.modField j g).field k = if k = j then g (s.field j) else s.field k := tget_tset _ _ _ _ _

theorem field_congr (s t : State) (h : t.fields = s.fields) (k : Nat) : t.field k = s.field k := by unfold field; rw [h]

@[simp] theorem adc_setAdc (s : State) (j k : Nat) (v : Adc) :
    (s.setAdc j v).adc k = if k = j then v else s.adc k := tget_tset _ _ _ _ _

@[simp] theorem adc_modAdc (s : State) (j k : Nat) (g : Adc → Adc) :
    (s.modAdc j g).adc k = if k = j then g (s.adc j) else s.adc k := tget_tset _ _ _ _ _

theorem adc_congr (s t : State) (h : t.adcs = s.adcs) (k : Nat) : t.adc k = s.adc k := by unfold adc; rw [h]

@[simp] theorem adcOld_setAdcOld (s : State) (j k : Nat) (v : Adc) :
    (s.setAdcOld j v).adcOld k = if k = j then v else s.adcOld k := tget_tset _ _ _ _ _

@[simp] theorem adcOld_modAdcOld (s : State) (j k : Nat) (g : Adc → Adc) :
    (s.modAdcOld j g).adcOld k = if k = j then g (s.adcOld j) else s.adcOld k := tget_tset _ _ _ _ _

theorem adcOld_congr (s t : State) (h : t.adcTel = s.adcTel) (k : Nat) : t.adcOld k = s.adcOld k := by unfold adcOld; rw [h]

@[simp] theorem taint_setTaint (s : State) (j k : Nat) (v : Taint) :
    (s.setTaint j v).taint k = if k = j then v else s.taint k := tget_tset _ _ _ _ _

@[simp] theorem taint_modTaint (s : State) (j k : Nat) (g : Taint → Taint) :
    (s.modTaint j g).taint k = if k = j then g (s.taint j) else s.taint k := tget_tset _ _ _ _ _

theorem taint_congr (s t : State) (h : t.taints = s.taints) (k : Nat) : t.taint k = s.taint k := by unfold taint; rw [h]

@[simp] theorem accCell_setAccCell (s : State) (j k : Nat) (v : AccCell) :
    (s.setAccCell j v).accCell k = if k = j then v else s.accCell k := tget_tset _ _ _ _ _

@[simp] theorem accCell_modAccCell (s : State) (j k : Nat) (g : AccCell → AccCell) :
    (s.modAccCell j g).accCell k = if k = j then g (s.accCell j) else s.accCell k := tget_tset _ _ _ _ _

theorem accCell_congr (s t : State) (h : t.acc = s.acc) (k : Nat) : t.accCell k = s.accCell k := by unfold accCell; rw [h]

@[simp] theorem band_setBand (s : State) (j k : Nat) (v : Band) :
    (s.setBand j v).band k = if k = j then v else s.band k := tget_tset _ _ _ _ _

@[simp] theorem band_modBand (s : State) (j k : Nat) (g : Band → Band) :
    (s.modBand j g).band k = if k = j then g (s.band j) else s.band k := tget_tset _ _ _ _ _

theorem band_congr (s t : State) (h : t.bands = s.bands) (k : Nat) : t.band k = s.band k := by unfold band; rw [h]

@[simp] theorem lcol_setLcol (s : State) (j k : Nat) (v : LightCol) :
    (s.setLcol j v).lcol k = if k = j then v else s.lcol k := tget_tset _ _ _ _ _

@[simp] theorem lcol_modLcol (s : State) (j k : Nat) (g : LightCol → LightCol) :
    (s.modLcol j g).lcol k = if k = j then g (s.lcol j) else s.lcol k := tget_tset _ _ _ _ _

theorem lcol_congr (s t : State) (h : t.lcols = s.lcols) (k : Nat) : t.lcol k = s.lcol k := by unfold lcol; rw [h]

@[simp] theorem lport_setLport (s : State) (j k : Nat) (v : LightPort) :
    (s.setLport j v).lport k = if k = j then v else s.lport k := tget_tset _ _ _ _ _

@[simp] theorem lport_modLport (s : State) (j k : Nat) (g : LightPort → LightPort) :
    (s.modLport j g).lport k = if k = j then g (s.lport j) else s.lport k := tget_tset _ _ _ _ _

theorem lport_congr (s t : State) (h : t.lports = s.lports) (k : Nat) : t.lport k = s.lport k := by unfold lport; rw [h]

@[simp] theorem relay_setRelay (s : State) (j k : Nat) (v : Relay) :
    (s.setRelay j v).relay k = if k = j then v else s.relay k := tget_tset _ _ _ _ _

@[simp] theorem relay_modRelay (s : State) (j k : Nat) (g : Relay → Relay) :
    (s.modRelay j g).relay k = if k = j then g (s.relay j) else s.relay k := tget_tset _ _ _ _ _

theorem relay_congr (s t : State) (h : t.relays = s.relays) (k : Nat) : t.relay k = s.relay k := by unfold relay; rw [h]

@[simp] theorem mon_setMon (s : State) (j k : Nat) (v : Mon) :
    (s.setMon j v).mon k = if k = j then v else s.mon k := tget_tset _ _ _ _ _

@[simp] theorem mon_modMon (s : State) (j k : Nat) (g : Mon → Mon) :
    (s.modMon j g).mon k = if k = j then g (s.mon j) else s.mon k := tget_tset _ _ _ _ _

theorem mon_congr (s t : State) (h : t.mons = s.mons) (k : Nat) : t.mon k = s.mon k := by unfold mon; rw [h]

@[simp] theorem monLast_setMonLast (s : State) (j k : Nat) (v : MonLast) :
    (s.setMonLast j v).monLast k = if k = j then v else s.monLast k := tget_tset _ _ _ _ _

@[simp] theorem monLast_modMonLast (s : State) (j k : Nat) (g : MonLast → MonLast) :
    (s.modMonLast j g).monLast k = if k = j then g (s.monLast j) else s.monLast k := tget_tset _ _ _ _ _

theorem monLast_congr (s t : State) (h : t.monLasts = s.monLasts) (k : Nat) : t.monLast k = s.monLast k := by unfold monLast; rw [h]

@[simp] theorem loop_setLoop (s : State) (k : Nat) (v : LoopSlot) : (s.setLoop k v).loop k = v :=
  (tget_tset _ _ _ _ _).trans (if_pos rfl)

theorem loop_setLoop_ne (s : State) (j k : Nat) (v : LoopSlot) (h : k ≠ j) : (s.setLoop j v).loop k = s.loop k :=
  tget_tset_ne _ _ _ _ _ _ h

@[simp] theorem stream_setStream (s : State) (j k : Nat) (v : Stream) :
    (s.setStream j v).stream k = if k = j then v else s.stream k := tget_tset _ _ _ _ _

@[simp] theorem stream_modStream (s : State) (j k : Nat) (g : Stream → Stream) :
    (s.modStream j g).stream k = if k = j then g (s.stream j) else s.stream k := tget_tset _ _ _ _ _

theorem stream_congr (s t : State) (h : t.streams = s.streams) (k : Nat) : t.stream k = s.stream k := by unfold stream; rw [h]

@[simp] theorem token_setToken (s : State) (j k : Nat) (v : Token) :
    (s.setToken j v).token k = if k = j then v else s.token k := tget_tset _ _ _ _ _

@[simp] theorem token_modToken (s : State) (j k : Nat) (g : Token → Token) :
    (s.modToken j g).token k = if k = j then g (s.token j) else s.token k := tget_tset _ _ _ _ _

theorem token_congr (s t : State) (h : t.tokens = s.tokens) (k : Nat) : t.token k = s.token k := by unfold token; rw [h]

@[simp] theorem entry_setEntry (s : State) (j k : Nat) (v : Manifest) :
    (s.setEntry j v).entry k = if k = j then v else s.entry k := tget_tset _ _ _ _ _

@[simp] theorem entry_modEntry (s : State) (j k : Nat) (g : Manifest → Manifest) :
    (s.modEntry j g).entry k = if k = j then g (s.entry j) else s.entry k := tget_tset _ _ _ _ _

theorem entry_congr (s t : State) (h : t.manifest = s.manifest) (k : Nat) : t.entry k = s.entry k := by unfold entry; rw [h]

@[simp] theorem coreOf_setCoreOf (s : State) (j k : Nat) (v : Core) :
    (s.setCoreOf j v).coreOf k = if k = j then v else s.coreOf k := tget_tset _ _ _ _ _

@[simp] theorem coreOf_modCoreOf (s : State) (j k : Nat) (g : Core → Core) :
    (s.modCoreOf j g).coreOf k = if k = j then g (s.coreOf j) else s.coreOf k := tget_tset _ _ _ _ _

theorem coreOf_congr (s t : State) (h : t.cores = s.cores) (k : Nat) : t.coreOf k = s.coreOf k := by unfold coreOf; rw [h]

@[simp] theorem poisoned_setPoisoned (s : State) (j k : Nat) (v : Bool) :
    (s.setPoisoned j v).poisoned k = if k = j then v else s.poisoned k := tget_tset _ _ _ _ _

@[simp] theorem poisoned_modPoisoned (s : State) (j k : Nat) (g : Bool → Bool) :
    (s.modPoisoned j g).poisoned k = if k = j then g (s.poisoned j) else s.poisoned k := tget_tset _ _ _ _ _

theorem poisoned_congr (s t : State) (h : t.poison = s.poison) (k : Nat) : t.poisoned k = s.poisoned k := by unfold poisoned; rw [h]

@[simp] theorem err_setErr (s : State) (j k : Nat) (v : BitVec 80) :
    (s.setErr j v).err k = if k = j then v else s.err k := tget_tset _ _ _ _ _

@[simp] theorem err_modErr (s : State) (j k : Nat) (g : BitVec 80 → BitVec 80) :
    (s.modErr j g).err k = if k = j then g (s.err j) else s.err k := tget_tset _ _ _ _ _

theorem err_congr (s t : State) (h : t.errs = s.errs) (k : Nat) : t.err k = s.err k := by unfold err; rw [h]

@[simp] theorem unit_setUnit (s : State) (j k : Nat) (v : MemUnit) :
    (s.setUnit j v).unit k = if k = j then v else s.unit k := tget_tset _ _ _ _ _

@[simp] theorem unit_modUnit (s : State) (j k : Nat) (g : MemUnit → MemUnit) :
    (s.modUnit j g).unit k = if k = j then g (s.unit j) else s.unit k := tget_tset _ _ _ _ _

theorem unit_congr (s t : State) (h : t.units = s.units) (k : Nat) : t.unit k = s.unit k := by unfold unit; rw [h]

@[simp] theorem region_setRegion (s : State) (j k : Nat) (v : Region) :
    (s.setRegion j v).region k = if k = j then v else s.region k := tget_tset _ _ _ _ _

@[simp] theorem region_modRegion (s : State) (j k : Nat) (g : Region → Region) :
    (s.modRegion j g).region k = if k = j then g (s.region j) else s.region k := tget_tset _ _ _ _ _

theorem region_congr (s t : State) (h : t.regions = s.regions) (k : Nat) : t.region k = s.region k := by unfold region; rw [h]

@[simp] theorem dirEntry_setDirEntry (s : State) (j k : Nat) (v : Dir) :
    (s.setDirEntry j v).dirEntry k = if k = j then v else s.dirEntry k := tget_tset _ _ _ _ _

@[simp] theorem dirEntry_modDirEntry (s : State) (j k : Nat) (g : Dir → Dir) :
    (s.modDirEntry j g).dirEntry k = if k = j then g (s.dirEntry j) else s.dirEntry k := tget_tset _ _ _ _ _

theorem dirEntry_congr (s t : State) (h : t.dir = s.dir) (k : Nat) : t.dirEntry k = s.dirEntry k := by unfold dirEntry; rw [h]

@[simp] theorem ctx_setCtx (s : State) (j k : Nat) (v : LoadCtx) :
    (s.setCtx j v).ctx k = if k = j then v else s.ctx k := tget_tset _ _ _ _ _

@[simp] theorem ctx_modCtx (s : State) (j k : Nat) (g : LoadCtx → LoadCtx) :
    (s.modCtx j g).ctx k = if k = j then g (s.ctx j) else s.ctx k := tget_tset _ _ _ _ _

theorem ctx_congr (s t : State) (h : t.ctxs = s.ctxs) (k : Nat) : t.ctx k = s.ctx k := by unfold ctx; rw [h]

@[simp] theorem swapOf_setSwapOf (s : State) (j k : Nat) (v : Swap) :
    (s.setSwapOf j v).swapOf k = if k = j then v else s.swapOf k := tget_tset _ _ _ _ _

@[simp] theorem swapOf_modSwapOf (s : State) (j k : Nat) (g : Swap → Swap) :
    (s.modSwapOf j g).swapOf k = if k = j then g (s.swapOf j) else s.swapOf k := tget_tset _ _ _ _ _

theorem swapOf_congr (s t : State) (h : t.swaps = s.swaps) (k : Nat) : t.swapOf k = s.swapOf k := by unfold swapOf; rw [h]

@[simp] theorem netLink_setNetLink (s : State) (j k : Nat) (v : NetLink) :
    (s.setNetLink j v).netLink k = if k = j then v else s.netLink k := tget_tset _ _ _ _ _

@[simp] theorem netLink_modNetLink (s : State) (j k : Nat) (g : NetLink → NetLink) :
    (s.modNetLink j g).netLink k = if k = j then g (s.netLink j) else s.netLink k := tget_tset _ _ _ _ _

theorem netLink_congr (s t : State) (h : t.netLinks = s.netLinks) (k : Nat) : t.netLink k = s.netLink k := by unfold netLink; rw [h]

@[simp] theorem partOf_setPartOf (s : State) (j k : Nat) (v : Part) :
    (s.setPartOf j v).partOf k = if k = j then v else s.partOf k := tget_tset _ _ _ _ _

@[simp] theorem partOf_modPartOf (s : State) (j k : Nat) (g : Part → Part) :
    (s.modPartOf j g).partOf k = if k = j then g (s.partOf j) else s.partOf k := tget_tset _ _ _ _ _

theorem partOf_congr (s t : State) (h : t.parts = s.parts) (k : Nat) : t.partOf k = s.partOf k := by unfold partOf; rw [h]

@[simp] theorem netBuf_setNetBuf (s : State) (j k : Nat) (v : List NetPkt) :
    (s.setNetBuf j v).netBuf k = if k = j then v else s.netBuf k := tget_tset _ _ _ _ _

@[simp] theorem netBuf_modNetBuf (s : State) (j k : Nat) (g : List NetPkt → List NetPkt) :
    (s.modNetBuf j g).netBuf k = if k = j then g (s.netBuf j) else s.netBuf k := tget_tset _ _ _ _ _

theorem netBuf_congr (s t : State) (h : t.netBufs = s.netBufs) (k : Nat) : t.netBuf k = s.netBuf k := by unfold netBuf; rw [h]

@[simp] theorem port_setPort (s : State) (j k : Nat) (v : LinkPort) :
    (s.setPort j v).port k = if k = j then v else s.port k := tget_tset _ _ _ _ _

@[simp] theorem port_modPort (s : State) (j k : Nat) (g : LinkPort → LinkPort) :
    (s.modPort j g).port k = if k = j then g (s.port j) else s.port k := tget_tset _ _ _ _ _

theorem port_congr (s t : State) (h : t.ports = s.ports) (k : Nat) : t.port k = s.port k := by unfold port; rw [h]

@[simp] theorem mb_setMb (s : State) (j k : Nat) (v : Mb) :
    (s.setMb j v).mb k = if k = j then v else s.mb k := tget_tset _ _ _ _ _

@[simp] theorem mb_modMb (s : State) (j k : Nat) (g : Mb → Mb) :
    (s.modMb j g).mb k = if k = j then g (s.mb j) else s.mb k := tget_tset _ _ _ _ _

theorem mb_congr (s t : State) (h : t.mbs = s.mbs) (k : Nat) : t.mb k = s.mb k := by unfold mb; rw [h]

@[simp] theorem sensor_setSensor (s : State) (j k : Nat) (v : Sensor) :
    (s.setSensor j v).sensor k = if k = j then v else s.sensor k := tget_tset _ _ _ _ _

@[simp] theorem sensor_modSensor (s : State) (j k : Nat) (g : Sensor → Sensor) :
    (s.modSensor j g).sensor k = if k = j then g (s.sensor j) else s.sensor k := tget_tset _ _ _ _ _

theorem sensor_congr (s t : State) (h : t.sensors = s.sensors) (k : Nat) : t.sensor k = s.sensor k := by unfold sensor; rw [h]

@[simp] theorem die_setDie (s : State) (j k : Nat) (v : Die) :
    (s.setDie j v).die k = if k = j then v else s.die k := tget_tset _ _ _ _ _

@[simp] theorem die_modDie (s : State) (j k : Nat) (g : Die → Die) :
    (s.modDie j g).die k = if k = j then g (s.die j) else s.die k := tget_tset _ _ _ _ _

theorem die_congr (s t : State) (h : t.dies = s.dies) (k : Nat) : t.die k = s.die k := by unfold die; rw [h]

@[simp] theorem extT_setExtT (s : State) (j k : Nat) (v : ExtT) :
    (s.setExtT j v).extT k = if k = j then v else s.extT k := tget_tset _ _ _ _ _

@[simp] theorem extT_modExtT (s : State) (j k : Nat) (g : ExtT → ExtT) :
    (s.modExtT j g).extT k = if k = j then g (s.extT j) else s.extT k := tget_tset _ _ _ _ _

theorem extT_congr (s t : State) (h : t.exts = s.exts) (k : Nat) : t.extT k = s.extT k := by unfold extT; rw [h]

end Sys2Proof.Machine.State
end

