-- ==== Sys2Proof/Laws/State.lean ====
section
/-! SUPPORT. What the accessors of State's tables leave unchanged: one lemma per writer and per other component of State, so that no later
proof unfolds a record update. -/

namespace Sys2Proof.Machine.State

open Sys2Proof

/-- What every step of a fold keeps, the fold keeps. -/
theorem foldl_keep {σ α β : Type} (c : σ → β) (f : σ → α → σ) (h : ∀ s a, c (f s a) = c s) (l : List α) (s : σ) :
    c (l.foldl f s) = c s := by
  induction l generalizing s with
  | nil => rfl
  | cons a l ih => rw [List.foldl_cons, ih, h]

/-- A property that every step of a fold keeps holds of its result. -/
theorem foldl_inv {σ α : Type} (P : σ → Prop) (f : σ → α → σ) (h : ∀ s a, P s → P (f s a)) (l : List α) (s : σ) (hs : P s) :
    P (l.foldl f s) := by
  induction l generalizing s with
  | nil => exact hs
  | cons a l ih => exact ih _ (h s a hs)

theorem modField_eq (s : State) (k : Nat) (g : Field → Field) : s.modField k g = s.setField k (g (s.field k)) := rfl
@[simp] theorem setField_tim (s : State) (k : Nat) (v : Field) : (s.setField k v).tim = s.tim := rfl
@[simp] theorem modField_tim (s : State) (k : Nat) (v : Field → Field) : (s.modField k v).tim = s.tim := rfl
@[simp] theorem setField_pins (s : State) (k : Nat) (v : Field) : (s.setField k v).pins = s.pins := rfl
@[simp] theorem modField_pins (s : State) (k : Nat) (v : Field → Field) : (s.modField k v).pins = s.pins := rfl
@[simp] theorem setField_adcs (s : State) (k : Nat) (v : Field) : (s.setField k v).adcs = s.adcs := rfl
@[simp] theorem modField_adcs (s : State) (k : Nat) (v : Field → Field) : (s.modField k v).adcs = s.adcs := rfl
@[simp] theorem setField_adcTel (s : State) (k : Nat) (v : Field) : (s.setField k v).adcTel = s.adcTel := rfl
@[simp] theorem modField_adcTel (s : State) (k : Nat) (v : Field → Field) : (s.modField k v).adcTel = s.adcTel := rfl
@[simp] theorem setField_taints (s : State) (k : Nat) (v : Field) : (s.setField k v).taints = s.taints := rfl
@[simp] theorem modField_taints (s : State) (k : Nat) (v : Field → Field) : (s.modField k v).taints = s.taints := rfl
@[simp] theorem setField_acc (s : State) (k : Nat) (v : Field) : (s.setField k v).acc = s.acc := rfl
@[simp] theorem modField_acc (s : State) (k : Nat) (v : Field → Field) : (s.modField k v).acc = s.acc := rfl
@[simp] theorem setField_bands (s : State) (k : Nat) (v : Field) : (s.setField k v).bands = s.bands := rfl
@[simp] theorem modField_bands (s : State) (k : Nat) (v : Field → Field) : (s.modField k v).bands = s.bands := rfl
@[simp] theorem setField_cal (s : State) (k : Nat) (v : Field) : (s.setField k v).cal = s.cal := rfl
@[simp] theorem modField_cal (s : State) (k : Nat) (v : Field → Field) : (s.modField k v).cal = s.cal := rfl
@[simp] theorem setField_lcols (s : State) (k : Nat) (v : Field) : (s.setField k v).lcols = s.lcols := rfl
@[simp] theorem modField_lcols (s : State) (k : Nat) (v : Field → Field) : (s.modField k v).lcols = s.lcols := rfl
@[simp] theorem setField_lports (s : State) (k : Nat) (v : Field) : (s.setField k v).lports = s.lports := rfl
@[simp] theorem modField_lports (s : State) (k : Nat) (v : Field → Field) : (s.modField k v).lports = s.lports := rfl
@[simp] theorem setField_relays (s : State) (k : Nat) (v : Field) : (s.setField k v).relays = s.relays := rfl
@[simp] theorem modField_relays (s : State) (k : Nat) (v : Field → Field) : (s.modField k v).relays = s.relays := rfl
@[simp] theorem setField_light (s : State) (k : Nat) (v : Field) : (s.setField k v).light = s.light := rfl
@[simp] theorem modField_light (s : State) (k : Nat) (v : Field → Field) : (s.modField k v).light = s.light := rfl
@[simp] theorem setField_mons (s : State) (k : Nat) (v : Field) : (s.setField k v).mons = s.mons := rfl
@[simp] theorem modField_mons (s : State) (k : Nat) (v : Field → Field) : (s.modField k v).mons = s.mons := rfl
@[simp] theorem setField_monLasts (s : State) (k : Nat) (v : Field) : (s.setField k v).monLasts = s.monLasts := rfl
@[simp] theorem modField_monLasts (s : State) (k : Nat) (v : Field → Field) : (s.modField k v).monLasts = s.monLasts := rfl
@[simp] theorem setField_ring (s : State) (k : Nat) (v : Field) : (s.setField k v).ring = s.ring := rfl
@[simp] theorem modField_ring (s : State) (k : Nat) (v : Field → Field) : (s.modField k v).ring = s.ring := rfl
@[simp] theorem setField_loops (s : State) (k : Nat) (v : Field) : (s.setField k v).loops = s.loops := rfl
@[simp] theorem modField_loops (s : State) (k : Nat) (v : Field → Field) : (s.modField k v).loops = s.loops := rfl
@[simp] theorem setField_eng (s : State) (k : Nat) (v : Field) : (s.setField k v).eng = s.eng := rfl
@[simp] theorem modField_eng (s : State) (k : Nat) (v : Field → Field) : (s.modField k v).eng = s.eng := rfl
@[simp] theorem setField_streams (s : State) (k : Nat) (v : Field) : (s.setField k v).streams = s.streams := rfl
@[simp] theorem modField_streams (s : State) (k : Nat) (v : Field → Field) : (s.modField k v).streams = s.streams := rfl
@[simp] theorem setField_ops (s : State) (k : Nat) (v : Field) : (s.setField k v).ops = s.ops := rfl
@[simp] theorem modField_ops (s : State) (k : Nat) (v : Field → Field) : (s.modField k v).ops = s.ops := rfl
@[simp] theorem setField_seq (s : State) (k : Nat) (v : Field) : (s.setField k v).seq = s.seq := rfl
@[simp] theorem modField_seq (s : State) (k : Nat) (v : Field → Field) : (s.modField k v).seq = s.seq := rfl
@[simp] theorem setField_tokens (s : State) (k : Nat) (v : Field) : (s.setField k v).tokens = s.tokens := rfl
@[simp] theorem modField_tokens (s : State) (k : Nat) (v : Field → Field) : (s.modField k v).tokens = s.tokens := rfl
@[simp] theorem setField_rowMaps (s : State) (k : Nat) (v : Field) : (s.setField k v).rowMaps = s.rowMaps := rfl
@[simp] theorem modField_rowMaps (s : State) (k : Nat) (v : Field → Field) : (s.modField k v).rowMaps = s.rowMaps := rfl
@[simp] theorem setField_manifest (s : State) (k : Nat) (v : Field) : (s.setField k v).manifest = s.manifest := rfl
@[simp] theorem modField_manifest (s : State) (k : Nat) (v : Field → Field) : (s.modField k v).manifest = s.manifest := rfl
@[simp] theorem setField_cores (s : State) (k : Nat) (v : Field) : (s.setField k v).cores = s.cores := rfl
@[simp] theorem modField_cores (s : State) (k : Nat) (v : Field → Field) : (s.modField k v).cores = s.cores := rfl
@[simp] theorem setField_mem (s : State) (k : Nat) (v : Field) : (s.setField k v).mem = s.mem := rfl
@[simp] theorem modField_mem (s : State) (k : Nat) (v : Field → Field) : (s.modField k v).mem = s.mem := rfl
@[simp] theorem setField_poison (s : State) (k : Nat) (v : Field) : (s.setField k v).poison = s.poison := rfl
@[simp] theorem modField_poison (s : State) (k : Nat) (v : Field → Field) : (s.modField k v).poison = s.poison := rfl
@[simp] theorem setField_errs (s : State) (k : Nat) (v : Field) : (s.setField k v).errs = s.errs := rfl
@[simp] theorem modField_errs (s : State) (k : Nat) (v : Field → Field) : (s.modField k v).errs = s.errs := rfl
@[simp] theorem setField_units (s : State) (k : Nat) (v : Field) : (s.setField k v).units = s.units := rfl
@[simp] theorem modField_units (s : State) (k : Nat) (v : Field → Field) : (s.modField k v).units = s.units := rfl
@[simp] theorem setField_regions (s : State) (k : Nat) (v : Field) : (s.setField k v).regions = s.regions := rfl
@[simp] theorem modField_regions (s : State) (k : Nat) (v : Field → Field) : (s.modField k v).regions = s.regions := rfl
@[simp] theorem setField_memTop (s : State) (k : Nat) (v : Field) : (s.setField k v).memTop = s.memTop := rfl
@[simp] theorem modField_memTop (s : State) (k : Nat) (v : Field → Field) : (s.modField k v).memTop = s.memTop := rfl
@[simp] theorem setField_dir (s : State) (k : Nat) (v : Field) : (s.setField k v).dir = s.dir := rfl
@[simp] theorem modField_dir (s : State) (k : Nat) (v : Field → Field) : (s.modField k v).dir = s.dir := rfl
@[simp] theorem setField_ctxs (s : State) (k : Nat) (v : Field) : (s.setField k v).ctxs = s.ctxs := rfl
@[simp] theorem modField_ctxs (s : State) (k : Nat) (v : Field → Field) : (s.modField k v).ctxs = s.ctxs := rfl
@[simp] theorem setField_swaps (s : State) (k : Nat) (v : Field) : (s.setField k v).swaps = s.swaps := rfl
@[simp] theorem modField_swaps (s : State) (k : Nat) (v : Field → Field) : (s.modField k v).swaps = s.swaps := rfl
@[simp] theorem setField_wts (s : State) (k : Nat) (v : Field) : (s.setField k v).wts = s.wts := rfl
@[simp] theorem modField_wts (s : State) (k : Nat) (v : Field → Field) : (s.modField k v).wts = s.wts := rfl
@[simp] theorem setField_netLinks (s : State) (k : Nat) (v : Field) : (s.setField k v).netLinks = s.netLinks := rfl
@[simp] theorem modField_netLinks (s : State) (k : Nat) (v : Field → Field) : (s.modField k v).netLinks = s.netLinks := rfl
@[simp] theorem setField_parts (s : State) (k : Nat) (v : Field) : (s.setField k v).parts = s.parts := rfl
@[simp] theorem modField_parts (s : State) (k : Nat) (v : Field → Field) : (s.modField k v).parts = s.parts := rfl
@[simp] theorem setField_net (s : State) (k : Nat) (v : Field) : (s.setField k v).net = s.net := rfl
@[simp] theorem modField_net (s : State) (k : Nat) (v : Field → Field) : (s.modField k v).net = s.net := rfl
@[simp] theorem setField_netBufs (s : State) (k : Nat) (v : Field) : (s.setField k v).netBufs = s.netBufs := rfl
@[simp] theorem modField_netBufs (s : State) (k : Nat) (v : Field → Field) : (s.modField k v).netBufs = s.netBufs := rfl
@[simp] theorem setField_ports (s : State) (k : Nat) (v : Field) : (s.setField k v).ports = s.ports := rfl
@[simp] theorem modField_ports (s : State) (k : Nat) (v : Field → Field) : (s.modField k v).ports = s.ports := rfl
@[simp] theorem setField_link (s : State) (k : Nat) (v : Field) : (s.setField k v).link = s.link := rfl
@[simp] theorem modField_link (s : State) (k : Nat) (v : Field → Field) : (s.modField k v).link = s.link := rfl
@[simp] theorem setField_mbs (s : State) (k : Nat) (v : Field) : (s.setField k v).mbs = s.mbs := rfl
@[simp] theorem modField_mbs (s : State) (k : Nat) (v : Field → Field) : (s.modField k v).mbs = s.mbs := rfl
@[simp] theorem setField_cmds (s : State) (k : Nat) (v : Field) : (s.setField k v).cmds = s.cmds := rfl
@[simp] theorem modField_cmds (s : State) (k : Nat) (v : Field → Field) : (s.modField k v).cmds = s.cmds := rfl
@[simp] theorem setField_stw (s : State) (k : Nat) (v : Field) : (s.setField k v).stw = s.stw := rfl
@[simp] theorem modField_stw (s : State) (k : Nat) (v : Field → Field) : (s.modField k v).stw = s.stw := rfl
@[simp] theorem setField_hostMem (s : State) (k : Nat) (v : Field) : (s.setField k v).hostMem = s.hostMem := rfl
@[simp] theorem modField_hostMem (s : State) (k : Nat) (v : Field → Field) : (s.modField k v).hostMem = s.hostMem := rfl
@[simp] theorem setField_bu (s : State) (k : Nat) (v : Field) : (s.setField k v).bu = s.bu := rfl
@[simp] theorem modField_bu (s : State) (k : Nat) (v : Field → Field) : (s.modField k v).bu = s.bu := rfl
@[simp] theorem setField_pwr (s : State) (k : Nat) (v : Field) : (s.setField k v).pwr = s.pwr := rfl
@[simp] theorem modField_pwr (s : State) (k : Nat) (v : Field → Field) : (s.modField k v).pwr = s.pwr := rfl
@[simp] theorem setField_sensors (s : State) (k : Nat) (v : Field) : (s.setField k v).sensors = s.sensors := rfl
@[simp] theorem modField_sensors (s : State) (k : Nat) (v : Field → Field) : (s.modField k v).sensors = s.sensors := rfl
@[simp] theorem setField_dies (s : State) (k : Nat) (v : Field) : (s.setField k v).dies = s.dies := rfl
@[simp] theorem modField_dies (s : State) (k : Nat) (v : Field → Field) : (s.modField k v).dies = s.dies := rfl
@[simp] theorem setField_thm (s : State) (k : Nat) (v : Field) : (s.setField k v).thm = s.thm := rfl
@[simp] theorem modField_thm (s : State) (k : Nat) (v : Field → Field) : (s.modField k v).thm = s.thm := rfl
@[simp] theorem setField_exts (s : State) (k : Nat) (v : Field) : (s.setField k v).exts = s.exts := rfl
@[simp] theorem modField_exts (s : State) (k : Nat) (v : Field → Field) : (s.modField k v).exts = s.exts := rfl
@[simp] theorem setField_flt (s : State) (k : Nat) (v : Field) : (s.setField k v).flt = s.flt := rfl
@[simp] theorem modField_flt (s : State) (k : Nat) (v : Field → Field) : (s.modField k v).flt = s.flt := rfl
@[simp] theorem setField_sec (s : State) (k : Nat) (v : Field) : (s.setField k v).sec = s.sec := rfl
@[simp] theorem modField_sec (s : State) (k : Nat) (v : Field → Field) : (s.modField k v).sec = s.sec := rfl
@[simp] theorem setField_mg (s : State) (k : Nat) (v : Field) : (s.setField k v).mg = s.mg := rfl
@[simp] theorem modField_mg (s : State) (k : Nat) (v : Field → Field) : (s.modField k v).mg = s.mg := rfl
@[simp] theorem setField_free (s : State) (k : Nat) (v : Field) : (s.setField k v).free = s.free := rfl
@[simp] theorem modField_free (s : State) (k : Nat) (v : Field → Field) : (s.modField k v).free = s.free := rfl
@[simp] theorem setField_pending (s : State) (k : Nat) (v : Field) : (s.setField k v).pending = s.pending := rfl
@[simp] theorem modField_pending (s : State) (k : Nat) (v : Field → Field) : (s.modField k v).pending = s.pending := rfl

theorem modAdc_eq (s : State) (k : Nat) (g : Adc → Adc) : s.modAdc k g = s.setAdc k (g (s.adc k)) := rfl
@[simp] theorem setAdc_tim (s : State) (k : Nat) (v : Adc) : (s.setAdc k v).tim = s.tim := rfl
@[simp] theorem modAdc_tim (s : State) (k : Nat) (v : Adc → Adc) : (s.modAdc k v).tim = s.tim := rfl
@[simp] theorem setAdc_pins (s : State) (k : Nat) (v : Adc) : (s.setAdc k v).pins = s.pins := rfl
@[simp] theorem modAdc_pins (s : State) (k : Nat) (v : Adc → Adc) : (s.modAdc k v).pins = s.pins := rfl
@[simp] theorem setAdc_fields (s : State) (k : Nat) (v : Adc) : (s.setAdc k v).fields = s.fields := rfl
@[simp] theorem modAdc_fields (s : State) (k : Nat) (v : Adc → Adc) : (s.modAdc k v).fields = s.fields := rfl
@[simp] theorem setAdc_adcTel (s : State) (k : Nat) (v : Adc) : (s.setAdc k v).adcTel = s.adcTel := rfl
@[simp] theorem modAdc_adcTel (s : State) (k : Nat) (v : Adc → Adc) : (s.modAdc k v).adcTel = s.adcTel := rfl
@[simp] theorem setAdc_taints (s : State) (k : Nat) (v : Adc) : (s.setAdc k v).taints = s.taints := rfl
@[simp] theorem modAdc_taints (s : State) (k : Nat) (v : Adc → Adc) : (s.modAdc k v).taints = s.taints := rfl
@[simp] theorem setAdc_acc (s : State) (k : Nat) (v : Adc) : (s.setAdc k v).acc = s.acc := rfl
@[simp] theorem modAdc_acc (s : State) (k : Nat) (v : Adc → Adc) : (s.modAdc k v).acc = s.acc := rfl
@[simp] theorem setAdc_bands (s : State) (k : Nat) (v : Adc) : (s.setAdc k v).bands = s.bands := rfl
@[simp] theorem modAdc_bands (s : State) (k : Nat) (v : Adc → Adc) : (s.modAdc k v).bands = s.bands := rfl
@[simp] theorem setAdc_cal (s : State) (k : Nat) (v : Adc) : (s.setAdc k v).cal = s.cal := rfl
@[simp] theorem modAdc_cal (s : State) (k : Nat) (v : Adc → Adc) : (s.modAdc k v).cal = s.cal := rfl
@[simp] theorem setAdc_lcols (s : State) (k : Nat) (v : Adc) : (s.setAdc k v).lcols = s.lcols := rfl
@[simp] theorem modAdc_lcols (s : State) (k : Nat) (v : Adc → Adc) : (s.modAdc k v).lcols = s.lcols := rfl
@[simp] theorem setAdc_lports (s : State) (k : Nat) (v : Adc) : (s.setAdc k v).lports = s.lports := rfl
@[simp] theorem modAdc_lports (s : State) (k : Nat) (v : Adc → Adc) : (s.modAdc k v).lports = s.lports := rfl
@[simp] theorem setAdc_relays (s : State) (k : Nat) (v : Adc) : (s.setAdc k v).relays = s.relays := rfl
@[simp] theorem modAdc_relays (s : State) (k : Nat) (v : Adc → Adc) : (s.modAdc k v).relays = s.relays := rfl
@[simp] theorem setAdc_light (s : State) (k : Nat) (v : Adc) : (s.setAdc k v).light = s.light := rfl
@[simp] theorem modAdc_light (s : State) (k : Nat) (v : Adc → Adc) : (s.modAdc k v).light = s.light := rfl
@[simp] theorem setAdc_mons (s : State) (k : Nat) (v : Adc) : (s.setAdc k v).mons = s.mons := rfl
@[simp] theorem modAdc_mons (s : State) (k : Nat) (v : Adc → Adc) : (s.modAdc k v).mons = s.mons := rfl
@[simp] theorem setAdc_monLasts (s : State) (k : Nat) (v : Adc) : (s.setAdc k v).monLasts = s.monLasts := rfl
@[simp] theorem modAdc_monLasts (s : State) (k : Nat) (v : Adc → Adc) : (s.modAdc k v).monLasts = s.monLasts := rfl
@[simp] theorem setAdc_ring (s : State) (k : Nat) (v : Adc) : (s.setAdc k v).ring = s.ring := rfl
@[simp] theorem modAdc_ring (s : State) (k : Nat) (v : Adc → Adc) : (s.modAdc k v).ring = s.ring := rfl
@[simp] theorem setAdc_loops (s : State) (k : Nat) (v : Adc) : (s.setAdc k v).loops = s.loops := rfl
@[simp] theorem modAdc_loops (s : State) (k : Nat) (v : Adc → Adc) : (s.modAdc k v).loops = s.loops := rfl
@[simp] theorem setAdc_eng (s : State) (k : Nat) (v : Adc) : (s.setAdc k v).eng = s.eng := rfl
@[simp] theorem modAdc_eng (s : State) (k : Nat) (v : Adc → Adc) : (s.modAdc k v).eng = s.eng := rfl
@[simp] theorem setAdc_streams (s : State) (k : Nat) (v : Adc) : (s.setAdc k v).streams = s.streams := rfl
@[simp] theorem modAdc_streams (s : State) (k : Nat) (v : Adc → Adc) : (s.modAdc k v).streams = s.streams := rfl
@[simp] theorem setAdc_ops (s : State) (k : Nat) (v : Adc) : (s.setAdc k v).ops = s.ops := rfl
@[simp] theorem modAdc_ops (s : State) (k : Nat) (v : Adc → Adc) : (s.modAdc k v).ops = s.ops := rfl
@[simp] theorem setAdc_seq (s : State) (k : Nat) (v : Adc) : (s.setAdc k v).seq = s.seq := rfl
@[simp] theorem modAdc_seq (s : State) (k : Nat) (v : Adc → Adc) : (s.modAdc k v).seq = s.seq := rfl
@[simp] theorem setAdc_tokens (s : State) (k : Nat) (v : Adc) : (s.setAdc k v).tokens = s.tokens := rfl
@[simp] theorem modAdc_tokens (s : State) (k : Nat) (v : Adc → Adc) : (s.modAdc k v).tokens = s.tokens := rfl
@[simp] theorem setAdc_rowMaps (s : State) (k : Nat) (v : Adc) : (s.setAdc k v).rowMaps = s.rowMaps := rfl
@[simp] theorem modAdc_rowMaps (s : State) (k : Nat) (v : Adc → Adc) : (s.modAdc k v).rowMaps = s.rowMaps := rfl
@[simp] theorem setAdc_manifest (s : State) (k : Nat) (v : Adc) : (s.setAdc k v).manifest = s.manifest := rfl
@[simp] theorem modAdc_manifest (s : State) (k : Nat) (v : Adc → Adc) : (s.modAdc k v).manifest = s.manifest := rfl
@[simp] theorem setAdc_cores (s : State) (k : Nat) (v : Adc) : (s.setAdc k v).cores = s.cores := rfl
@[simp] theorem modAdc_cores (s : State) (k : Nat) (v : Adc → Adc) : (s.modAdc k v).cores = s.cores := rfl
@[simp] theorem setAdc_mem (s : State) (k : Nat) (v : Adc) : (s.setAdc k v).mem = s.mem := rfl
@[simp] theorem modAdc_mem (s : State) (k : Nat) (v : Adc → Adc) : (s.modAdc k v).mem = s.mem := rfl
@[simp] theorem setAdc_poison (s : State) (k : Nat) (v : Adc) : (s.setAdc k v).poison = s.poison := rfl
@[simp] theorem modAdc_poison (s : State) (k : Nat) (v : Adc → Adc) : (s.modAdc k v).poison = s.poison := rfl
@[simp] theorem setAdc_errs (s : State) (k : Nat) (v : Adc) : (s.setAdc k v).errs = s.errs := rfl
@[simp] theorem modAdc_errs (s : State) (k : Nat) (v : Adc → Adc) : (s.modAdc k v).errs = s.errs := rfl
@[simp] theorem setAdc_units (s : State) (k : Nat) (v : Adc) : (s.setAdc k v).units = s.units := rfl
@[simp] theorem modAdc_units (s : State) (k : Nat) (v : Adc → Adc) : (s.modAdc k v).units = s.units := rfl
@[simp] theorem setAdc_regions (s : State) (k : Nat) (v : Adc) : (s.setAdc k v).regions = s.regions := rfl
@[simp] theorem modAdc_regions (s : State) (k : Nat) (v : Adc → Adc) : (s.modAdc k v).regions = s.regions := rfl
@[simp] theorem setAdc_memTop (s : State) (k : Nat) (v : Adc) : (s.setAdc k v).memTop = s.memTop := rfl
@[simp] theorem modAdc_memTop (s : State) (k : Nat) (v : Adc → Adc) : (s.modAdc k v).memTop = s.memTop := rfl
@[simp] theorem setAdc_dir (s : State) (k : Nat) (v : Adc) : (s.setAdc k v).dir = s.dir := rfl
@[simp] theorem modAdc_dir (s : State) (k : Nat) (v : Adc → Adc) : (s.modAdc k v).dir = s.dir := rfl
@[simp] theorem setAdc_ctxs (s : State) (k : Nat) (v : Adc) : (s.setAdc k v).ctxs = s.ctxs := rfl
@[simp] theorem modAdc_ctxs (s : State) (k : Nat) (v : Adc → Adc) : (s.modAdc k v).ctxs = s.ctxs := rfl
@[simp] theorem setAdc_swaps (s : State) (k : Nat) (v : Adc) : (s.setAdc k v).swaps = s.swaps := rfl
@[simp] theorem modAdc_swaps (s : State) (k : Nat) (v : Adc → Adc) : (s.modAdc k v).swaps = s.swaps := rfl
@[simp] theorem setAdc_wts (s : State) (k : Nat) (v : Adc) : (s.setAdc k v).wts = s.wts := rfl
@[simp] theorem modAdc_wts (s : State) (k : Nat) (v : Adc → Adc) : (s.modAdc k v).wts = s.wts := rfl
@[simp] theorem setAdc_netLinks (s : State) (k : Nat) (v : Adc) : (s.setAdc k v).netLinks = s.netLinks := rfl
@[simp] theorem modAdc_netLinks (s : State) (k : Nat) (v : Adc → Adc) : (s.modAdc k v).netLinks = s.netLinks := rfl
@[simp] theorem setAdc_parts (s : State) (k : Nat) (v : Adc) : (s.setAdc k v).parts = s.parts := rfl
@[simp] theorem modAdc_parts (s : State) (k : Nat) (v : Adc → Adc) : (s.modAdc k v).parts = s.parts := rfl
@[simp] theorem setAdc_net (s : State) (k : Nat) (v : Adc) : (s.setAdc k v).net = s.net := rfl
@[simp] theorem modAdc_net (s : State) (k : Nat) (v : Adc → Adc) : (s.modAdc k v).net = s.net := rfl
@[simp] theorem setAdc_netBufs (s : State) (k : Nat) (v : Adc) : (s.setAdc k v).netBufs = s.netBufs := rfl
@[simp] theorem modAdc_netBufs (s : State) (k : Nat) (v : Adc → Adc) : (s.modAdc k v).netBufs = s.netBufs := rfl
@[simp] theorem setAdc_ports (s : State) (k : Nat) (v : Adc) : (s.setAdc k v).ports = s.ports := rfl
@[simp] theorem modAdc_ports (s : State) (k : Nat) (v : Adc → Adc) : (s.modAdc k v).ports = s.ports := rfl
@[simp] theorem setAdc_link (s : State) (k : Nat) (v : Adc) : (s.setAdc k v).link = s.link := rfl
@[simp] theorem modAdc_link (s : State) (k : Nat) (v : Adc → Adc) : (s.modAdc k v).link = s.link := rfl
@[simp] theorem setAdc_mbs (s : State) (k : Nat) (v : Adc) : (s.setAdc k v).mbs = s.mbs := rfl
@[simp] theorem modAdc_mbs (s : State) (k : Nat) (v : Adc → Adc) : (s.modAdc k v).mbs = s.mbs := rfl
@[simp] theorem setAdc_cmds (s : State) (k : Nat) (v : Adc) : (s.setAdc k v).cmds = s.cmds := rfl
@[simp] theorem modAdc_cmds (s : State) (k : Nat) (v : Adc → Adc) : (s.modAdc k v).cmds = s.cmds := rfl
@[simp] theorem setAdc_stw (s : State) (k : Nat) (v : Adc) : (s.setAdc k v).stw = s.stw := rfl
@[simp] theorem modAdc_stw (s : State) (k : Nat) (v : Adc → Adc) : (s.modAdc k v).stw = s.stw := rfl
@[simp] theorem setAdc_hostMem (s : State) (k : Nat) (v : Adc) : (s.setAdc k v).hostMem = s.hostMem := rfl
@[simp] theorem modAdc_hostMem (s : State) (k : Nat) (v : Adc → Adc) : (s.modAdc k v).hostMem = s.hostMem := rfl
@[simp] theorem setAdc_bu (s : State) (k : Nat) (v : Adc) : (s.setAdc k v).bu = s.bu := rfl
@[simp] theorem modAdc_bu (s : State) (k : Nat) (v : Adc → Adc) : (s.modAdc k v).bu = s.bu := rfl
@[simp] theorem setAdc_pwr (s : State) (k : Nat) (v : Adc) : (s.setAdc k v).pwr = s.pwr := rfl
@[simp] theorem modAdc_pwr (s : State) (k : Nat) (v : Adc → Adc) : (s.modAdc k v).pwr = s.pwr := rfl
@[simp] theorem setAdc_sensors (s : State) (k : Nat) (v : Adc) : (s.setAdc k v).sensors = s.sensors := rfl
@[simp] theorem modAdc_sensors (s : State) (k : Nat) (v : Adc → Adc) : (s.modAdc k v).sensors = s.sensors := rfl
@[simp] theorem setAdc_dies (s : State) (k : Nat) (v : Adc) : (s.setAdc k v).dies = s.dies := rfl
@[simp] theorem modAdc_dies (s : State) (k : Nat) (v : Adc → Adc) : (s.modAdc k v).dies = s.dies := rfl
@[simp] theorem setAdc_thm (s : State) (k : Nat) (v : Adc) : (s.setAdc k v).thm = s.thm := rfl
@[simp] theorem modAdc_thm (s : State) (k : Nat) (v : Adc → Adc) : (s.modAdc k v).thm = s.thm := rfl
@[simp] theorem setAdc_exts (s : State) (k : Nat) (v : Adc) : (s.setAdc k v).exts = s.exts := rfl
@[simp] theorem modAdc_exts (s : State) (k : Nat) (v : Adc → Adc) : (s.modAdc k v).exts = s.exts := rfl
@[simp] theorem setAdc_flt (s : State) (k : Nat) (v : Adc) : (s.setAdc k v).flt = s.flt := rfl
@[simp] theorem modAdc_flt (s : State) (k : Nat) (v : Adc → Adc) : (s.modAdc k v).flt = s.flt := rfl
@[simp] theorem setAdc_sec (s : State) (k : Nat) (v : Adc) : (s.setAdc k v).sec = s.sec := rfl
@[simp] theorem modAdc_sec (s : State) (k : Nat) (v : Adc → Adc) : (s.modAdc k v).sec = s.sec := rfl
@[simp] theorem setAdc_mg (s : State) (k : Nat) (v : Adc) : (s.setAdc k v).mg = s.mg := rfl
@[simp] theorem modAdc_mg (s : State) (k : Nat) (v : Adc → Adc) : (s.modAdc k v).mg = s.mg := rfl
@[simp] theorem setAdc_free (s : State) (k : Nat) (v : Adc) : (s.setAdc k v).free = s.free := rfl
@[simp] theorem modAdc_free (s : State) (k : Nat) (v : Adc → Adc) : (s.modAdc k v).free = s.free := rfl
@[simp] theorem setAdc_pending (s : State) (k : Nat) (v : Adc) : (s.setAdc k v).pending = s.pending := rfl
@[simp] theorem modAdc_pending (s : State) (k : Nat) (v : Adc → Adc) : (s.modAdc k v).pending = s.pending := rfl

theorem modAdcOld_eq (s : State) (k : Nat) (g : Adc → Adc) : s.modAdcOld k g = s.setAdcOld k (g (s.adcOld k)) := rfl
@[simp] theorem setAdcOld_tim (s : State) (k : Nat) (v : Adc) : (s.setAdcOld k v).tim = s.tim := rfl
@[simp] theorem modAdcOld_tim (s : State) (k : Nat) (v : Adc → Adc) : (s.modAdcOld k v).tim = s.tim := rfl
@[simp] theorem setAdcOld_pins (s : State) (k : Nat) (v : Adc) : (s.setAdcOld k v).pins = s.pins := rfl
@[simp] theorem modAdcOld_pins (s : State) (k : Nat) (v : Adc → Adc) : (s.modAdcOld k v).pins = s.pins := rfl
@[simp] theorem setAdcOld_fields (s : State) (k : Nat) (v : Adc) : (s.setAdcOld k v).fields = s.fields := rfl
@[simp] theorem modAdcOld_fields (s : State) (k : Nat) (v : Adc → Adc) : (s.modAdcOld k v).fields = s.fields := rfl
@[simp] theorem setAdcOld_adcs (s : State) (k : Nat) (v : Adc) : (s.setAdcOld k v).adcs = s.adcs := rfl
@[simp] theorem modAdcOld_adcs (s : State) (k : Nat) (v : Adc → Adc) : (s.modAdcOld k v).adcs = s.adcs := rfl
@[simp] theorem setAdcOld_taints (s : State) (k : Nat) (v : Adc) : (s.setAdcOld k v).taints = s.taints := rfl
@[simp] theorem modAdcOld_taints (s : State) (k : Nat) (v : Adc → Adc) : (s.modAdcOld k v).taints = s.taints := rfl
@[simp] theorem setAdcOld_acc (s : State) (k : Nat) (v : Adc) : (s.setAdcOld k v).acc = s.acc := rfl
@[simp] theorem modAdcOld_acc (s : State) (k : Nat) (v : Adc → Adc) : (s.modAdcOld k v).acc = s.acc := rfl
@[simp] theorem setAdcOld_bands (s : State) (k : Nat) (v : Adc) : (s.setAdcOld k v).bands = s.bands := rfl
@[simp] theorem modAdcOld_bands (s : State) (k : Nat) (v : Adc → Adc) : (s.modAdcOld k v).bands = s.bands := rfl
@[simp] theorem setAdcOld_cal (s : State) (k : Nat) (v : Adc) : (s.setAdcOld k v).cal = s.cal := rfl
@[simp] theorem modAdcOld_cal (s : State) (k : Nat) (v : Adc → Adc) : (s.modAdcOld k v).cal = s.cal := rfl
@[simp] theorem setAdcOld_lcols (s : State) (k : Nat) (v : Adc) : (s.setAdcOld k v).lcols = s.lcols := rfl
@[simp] theorem modAdcOld_lcols (s : State) (k : Nat) (v : Adc → Adc) : (s.modAdcOld k v).lcols = s.lcols := rfl
@[simp] theorem setAdcOld_lports (s : State) (k : Nat) (v : Adc) : (s.setAdcOld k v).lports = s.lports := rfl
@[simp] theorem modAdcOld_lports (s : State) (k : Nat) (v : Adc → Adc) : (s.modAdcOld k v).lports = s.lports := rfl
@[simp] theorem setAdcOld_relays (s : State) (k : Nat) (v : Adc) : (s.setAdcOld k v).relays = s.relays := rfl
@[simp] theorem modAdcOld_relays (s : State) (k : Nat) (v : Adc → Adc) : (s.modAdcOld k v).relays = s.relays := rfl
@[simp] theorem setAdcOld_light (s : State) (k : Nat) (v : Adc) : (s.setAdcOld k v).light = s.light := rfl
@[simp] theorem modAdcOld_light (s : State) (k : Nat) (v : Adc → Adc) : (s.modAdcOld k v).light = s.light := rfl
@[simp] theorem setAdcOld_mons (s : State) (k : Nat) (v : Adc) : (s.setAdcOld k v).mons = s.mons := rfl
@[simp] theorem modAdcOld_mons (s : State) (k : Nat) (v : Adc → Adc) : (s.modAdcOld k v).mons = s.mons := rfl
@[simp] theorem setAdcOld_monLasts (s : State) (k : Nat) (v : Adc) : (s.setAdcOld k v).monLasts = s.monLasts := rfl
@[simp] theorem modAdcOld_monLasts (s : State) (k : Nat) (v : Adc → Adc) : (s.modAdcOld k v).monLasts = s.monLasts := rfl
@[simp] theorem setAdcOld_ring (s : State) (k : Nat) (v : Adc) : (s.setAdcOld k v).ring = s.ring := rfl
@[simp] theorem modAdcOld_ring (s : State) (k : Nat) (v : Adc → Adc) : (s.modAdcOld k v).ring = s.ring := rfl
@[simp] theorem setAdcOld_loops (s : State) (k : Nat) (v : Adc) : (s.setAdcOld k v).loops = s.loops := rfl
@[simp] theorem modAdcOld_loops (s : State) (k : Nat) (v : Adc → Adc) : (s.modAdcOld k v).loops = s.loops := rfl
@[simp] theorem setAdcOld_eng (s : State) (k : Nat) (v : Adc) : (s.setAdcOld k v).eng = s.eng := rfl
@[simp] theorem modAdcOld_eng (s : State) (k : Nat) (v : Adc → Adc) : (s.modAdcOld k v).eng = s.eng := rfl
@[simp] theorem setAdcOld_streams (s : State) (k : Nat) (v : Adc) : (s.setAdcOld k v).streams = s.streams := rfl
@[simp] theorem modAdcOld_streams (s : State) (k : Nat) (v : Adc → Adc) : (s.modAdcOld k v).streams = s.streams := rfl
@[simp] theorem setAdcOld_ops (s : State) (k : Nat) (v : Adc) : (s.setAdcOld k v).ops = s.ops := rfl
@[simp] theorem modAdcOld_ops (s : State) (k : Nat) (v : Adc → Adc) : (s.modAdcOld k v).ops = s.ops := rfl
@[simp] theorem setAdcOld_seq (s : State) (k : Nat) (v : Adc) : (s.setAdcOld k v).seq = s.seq := rfl
@[simp] theorem modAdcOld_seq (s : State) (k : Nat) (v : Adc → Adc) : (s.modAdcOld k v).seq = s.seq := rfl
@[simp] theorem setAdcOld_tokens (s : State) (k : Nat) (v : Adc) : (s.setAdcOld k v).tokens = s.tokens := rfl
@[simp] theorem modAdcOld_tokens (s : State) (k : Nat) (v : Adc → Adc) : (s.modAdcOld k v).tokens = s.tokens := rfl
@[simp] theorem setAdcOld_rowMaps (s : State) (k : Nat) (v : Adc) : (s.setAdcOld k v).rowMaps = s.rowMaps := rfl
@[simp] theorem modAdcOld_rowMaps (s : State) (k : Nat) (v : Adc → Adc) : (s.modAdcOld k v).rowMaps = s.rowMaps := rfl
@[simp] theorem setAdcOld_manifest (s : State) (k : Nat) (v : Adc) : (s.setAdcOld k v).manifest = s.manifest := rfl
@[simp] theorem modAdcOld_manifest (s : State) (k : Nat) (v : Adc → Adc) : (s.modAdcOld k v).manifest = s.manifest := rfl
@[simp] theorem setAdcOld_cores (s : State) (k : Nat) (v : Adc) : (s.setAdcOld k v).cores = s.cores := rfl
@[simp] theorem modAdcOld_cores (s : State) (k : Nat) (v : Adc → Adc) : (s.modAdcOld k v).cores = s.cores := rfl
@[simp] theorem setAdcOld_mem (s : State) (k : Nat) (v : Adc) : (s.setAdcOld k v).mem = s.mem := rfl
@[simp] theorem modAdcOld_mem (s : State) (k : Nat) (v : Adc → Adc) : (s.modAdcOld k v).mem = s.mem := rfl
@[simp] theorem setAdcOld_poison (s : State) (k : Nat) (v : Adc) : (s.setAdcOld k v).poison = s.poison := rfl
@[simp] theorem modAdcOld_poison (s : State) (k : Nat) (v : Adc → Adc) : (s.modAdcOld k v).poison = s.poison := rfl
@[simp] theorem setAdcOld_errs (s : State) (k : Nat) (v : Adc) : (s.setAdcOld k v).errs = s.errs := rfl
@[simp] theorem modAdcOld_errs (s : State) (k : Nat) (v : Adc → Adc) : (s.modAdcOld k v).errs = s.errs := rfl
@[simp] theorem setAdcOld_units (s : State) (k : Nat) (v : Adc) : (s.setAdcOld k v).units = s.units := rfl
@[simp] theorem modAdcOld_units (s : State) (k : Nat) (v : Adc → Adc) : (s.modAdcOld k v).units = s.units := rfl
@[simp] theorem setAdcOld_regions (s : State) (k : Nat) (v : Adc) : (s.setAdcOld k v).regions = s.regions := rfl
@[simp] theorem modAdcOld_regions (s : State) (k : Nat) (v : Adc → Adc) : (s.modAdcOld k v).regions = s.regions := rfl
@[simp] theorem setAdcOld_memTop (s : State) (k : Nat) (v : Adc) : (s.setAdcOld k v).memTop = s.memTop := rfl
@[simp] theorem modAdcOld_memTop (s : State) (k : Nat) (v : Adc → Adc) : (s.modAdcOld k v).memTop = s.memTop := rfl
@[simp] theorem setAdcOld_dir (s : State) (k : Nat) (v : Adc) : (s.setAdcOld k v).dir = s.dir := rfl
@[simp] theorem modAdcOld_dir (s : State) (k : Nat) (v : Adc → Adc) : (s.modAdcOld k v).dir = s.dir := rfl
@[simp] theorem setAdcOld_ctxs (s : State) (k : Nat) (v : Adc) : (s.setAdcOld k v).ctxs = s.ctxs := rfl
@[simp] theorem modAdcOld_ctxs (s : State) (k : Nat) (v : Adc → Adc) : (s.modAdcOld k v).ctxs = s.ctxs := rfl
@[simp] theorem setAdcOld_swaps (s : State) (k : Nat) (v : Adc) : (s.setAdcOld k v).swaps = s.swaps := rfl
@[simp] theorem modAdcOld_swaps (s : State) (k : Nat) (v : Adc → Adc) : (s.modAdcOld k v).swaps = s.swaps := rfl
@[simp] theorem setAdcOld_wts (s : State) (k : Nat) (v : Adc) : (s.setAdcOld k v).wts = s.wts := rfl
@[simp] theorem modAdcOld_wts (s : State) (k : Nat) (v : Adc → Adc) : (s.modAdcOld k v).wts = s.wts := rfl
@[simp] theorem setAdcOld_netLinks (s : State) (k : Nat) (v : Adc) : (s.setAdcOld k v).netLinks = s.netLinks := rfl
@[simp] theorem modAdcOld_netLinks (s : State) (k : Nat) (v : Adc → Adc) : (s.modAdcOld k v).netLinks = s.netLinks := rfl
@[simp] theorem setAdcOld_parts (s : State) (k : Nat) (v : Adc) : (s.setAdcOld k v).parts = s.parts := rfl
@[simp] theorem modAdcOld_parts (s : State) (k : Nat) (v : Adc → Adc) : (s.modAdcOld k v).parts = s.parts := rfl
@[simp] theorem setAdcOld_net (s : State) (k : Nat) (v : Adc) : (s.setAdcOld k v).net = s.net := rfl
@[simp] theorem modAdcOld_net (s : State) (k : Nat) (v : Adc → Adc) : (s.modAdcOld k v).net = s.net := rfl
@[simp] theorem setAdcOld_netBufs (s : State) (k : Nat) (v : Adc) : (s.setAdcOld k v).netBufs = s.netBufs := rfl
@[simp] theorem modAdcOld_netBufs (s : State) (k : Nat) (v : Adc → Adc) : (s.modAdcOld k v).netBufs = s.netBufs := rfl
@[simp] theorem setAdcOld_ports (s : State) (k : Nat) (v : Adc) : (s.setAdcOld k v).ports = s.ports := rfl
@[simp] theorem modAdcOld_ports (s : State) (k : Nat) (v : Adc → Adc) : (s.modAdcOld k v).ports = s.ports := rfl
@[simp] theorem setAdcOld_link (s : State) (k : Nat) (v : Adc) : (s.setAdcOld k v).link = s.link := rfl
@[simp] theorem modAdcOld_link (s : State) (k : Nat) (v : Adc → Adc) : (s.modAdcOld k v).link = s.link := rfl
@[simp] theorem setAdcOld_mbs (s : State) (k : Nat) (v : Adc) : (s.setAdcOld k v).mbs = s.mbs := rfl
@[simp] theorem modAdcOld_mbs (s : State) (k : Nat) (v : Adc → Adc) : (s.modAdcOld k v).mbs = s.mbs := rfl
@[simp] theorem setAdcOld_cmds (s : State) (k : Nat) (v : Adc) : (s.setAdcOld k v).cmds = s.cmds := rfl
@[simp] theorem modAdcOld_cmds (s : State) (k : Nat) (v : Adc → Adc) : (s.modAdcOld k v).cmds = s.cmds := rfl
@[simp] theorem setAdcOld_stw (s : State) (k : Nat) (v : Adc) : (s.setAdcOld k v).stw = s.stw := rfl
@[simp] theorem modAdcOld_stw (s : State) (k : Nat) (v : Adc → Adc) : (s.modAdcOld k v).stw = s.stw := rfl
@[simp] theorem setAdcOld_hostMem (s : State) (k : Nat) (v : Adc) : (s.setAdcOld k v).hostMem = s.hostMem := rfl
@[simp] theorem modAdcOld_hostMem (s : State) (k : Nat) (v : Adc → Adc) : (s.modAdcOld k v).hostMem = s.hostMem := rfl
@[simp] theorem setAdcOld_bu (s : State) (k : Nat) (v : Adc) : (s.setAdcOld k v).bu = s.bu := rfl
@[simp] theorem modAdcOld_bu (s : State) (k : Nat) (v : Adc → Adc) : (s.modAdcOld k v).bu = s.bu := rfl
@[simp] theorem setAdcOld_pwr (s : State) (k : Nat) (v : Adc) : (s.setAdcOld k v).pwr = s.pwr := rfl
@[simp] theorem modAdcOld_pwr (s : State) (k : Nat) (v : Adc → Adc) : (s.modAdcOld k v).pwr = s.pwr := rfl
@[simp] theorem setAdcOld_sensors (s : State) (k : Nat) (v : Adc) : (s.setAdcOld k v).sensors = s.sensors := rfl
@[simp] theorem modAdcOld_sensors (s : State) (k : Nat) (v : Adc → Adc) : (s.modAdcOld k v).sensors = s.sensors := rfl
@[simp] theorem setAdcOld_dies (s : State) (k : Nat) (v : Adc) : (s.setAdcOld k v).dies = s.dies := rfl
@[simp] theorem modAdcOld_dies (s : State) (k : Nat) (v : Adc → Adc) : (s.modAdcOld k v).dies = s.dies := rfl
@[simp] theorem setAdcOld_thm (s : State) (k : Nat) (v : Adc) : (s.setAdcOld k v).thm = s.thm := rfl
@[simp] theorem modAdcOld_thm (s : State) (k : Nat) (v : Adc → Adc) : (s.modAdcOld k v).thm = s.thm := rfl
@[simp] theorem setAdcOld_exts (s : State) (k : Nat) (v : Adc) : (s.setAdcOld k v).exts = s.exts := rfl
@[simp] theorem modAdcOld_exts (s : State) (k : Nat) (v : Adc → Adc) : (s.modAdcOld k v).exts = s.exts := rfl
@[simp] theorem setAdcOld_flt (s : State) (k : Nat) (v : Adc) : (s.setAdcOld k v).flt = s.flt := rfl
@[simp] theorem modAdcOld_flt (s : State) (k : Nat) (v : Adc → Adc) : (s.modAdcOld k v).flt = s.flt := rfl
@[simp] theorem setAdcOld_sec (s : State) (k : Nat) (v : Adc) : (s.setAdcOld k v).sec = s.sec := rfl
@[simp] theorem modAdcOld_sec (s : State) (k : Nat) (v : Adc → Adc) : (s.modAdcOld k v).sec = s.sec := rfl
@[simp] theorem setAdcOld_mg (s : State) (k : Nat) (v : Adc) : (s.setAdcOld k v).mg = s.mg := rfl
@[simp] theorem modAdcOld_mg (s : State) (k : Nat) (v : Adc → Adc) : (s.modAdcOld k v).mg = s.mg := rfl
@[simp] theorem setAdcOld_free (s : State) (k : Nat) (v : Adc) : (s.setAdcOld k v).free = s.free := rfl
@[simp] theorem modAdcOld_free (s : State) (k : Nat) (v : Adc → Adc) : (s.modAdcOld k v).free = s.free := rfl
@[simp] theorem setAdcOld_pending (s : State) (k : Nat) (v : Adc) : (s.setAdcOld k v).pending = s.pending := rfl
@[simp] theorem modAdcOld_pending (s : State) (k : Nat) (v : Adc → Adc) : (s.modAdcOld k v).pending = s.pending := rfl

theorem modTaint_eq (s : State) (k : Nat) (g : Taint → Taint) : s.modTaint k g = s.setTaint k (g (s.taint k)) := rfl
@[simp] theorem setTaint_tim (s : State) (k : Nat) (v : Taint) : (s.setTaint k v).tim = s.tim := rfl
@[simp] theorem modTaint_tim (s : State) (k : Nat) (v : Taint → Taint) : (s.modTaint k v).tim = s.tim := rfl
@[simp] theorem setTaint_pins (s : State) (k : Nat) (v : Taint) : (s.setTaint k v).pins = s.pins := rfl
@[simp] theorem modTaint_pins (s : State) (k : Nat) (v : Taint → Taint) : (s.modTaint k v).pins = s.pins := rfl
@[simp] theorem setTaint_fields (s : State) (k : Nat) (v : Taint) : (s.setTaint k v).fields = s.fields := rfl
@[simp] theorem modTaint_fields (s : State) (k : Nat) (v : Taint → Taint) : (s.modTaint k v).fields = s.fields := rfl
@[simp] theorem setTaint_adcs (s : State) (k : Nat) (v : Taint) : (s.setTaint k v).adcs = s.adcs := rfl
@[simp] theorem modTaint_adcs (s : State) (k : Nat) (v : Taint → Taint) : (s.modTaint k v).adcs = s.adcs := rfl
@[simp] theorem setTaint_adcTel (s : State) (k : Nat) (v : Taint) : (s.setTaint k v).adcTel = s.adcTel := rfl
@[simp] theorem modTaint_adcTel (s : State) (k : Nat) (v : Taint → Taint) : (s.modTaint k v).adcTel = s.adcTel := rfl
@[simp] theorem setTaint_acc (s : State) (k : Nat) (v : Taint) : (s.setTaint k v).acc = s.acc := rfl
@[simp] theorem modTaint_acc (s : State) (k : Nat) (v : Taint → Taint) : (s.modTaint k v).acc = s.acc := rfl
@[simp] theorem setTaint_bands (s : State) (k : Nat) (v : Taint) : (s.setTaint k v).bands = s.bands := rfl
@[simp] theorem modTaint_bands (s : State) (k : Nat) (v : Taint → Taint) : (s.modTaint k v).bands = s.bands := rfl
@[simp] theorem setTaint_cal (s : State) (k : Nat) (v : Taint) : (s.setTaint k v).cal = s.cal := rfl
@[simp] theorem modTaint_cal (s : State) (k : Nat) (v : Taint → Taint) : (s.modTaint k v).cal = s.cal := rfl
@[simp] theorem setTaint_lcols (s : State) (k : Nat) (v : Taint) : (s.setTaint k v).lcols = s.lcols := rfl
@[simp] theorem modTaint_lcols (s : State) (k : Nat) (v : Taint → Taint) : (s.modTaint k v).lcols = s.lcols := rfl
@[simp] theorem setTaint_lports (s : State) (k : Nat) (v : Taint) : (s.setTaint k v).lports = s.lports := rfl
@[simp] theorem modTaint_lports (s : State) (k : Nat) (v : Taint → Taint) : (s.modTaint k v).lports = s.lports := rfl
@[simp] theorem setTaint_relays (s : State) (k : Nat) (v : Taint) : (s.setTaint k v).relays = s.relays := rfl
@[simp] theorem modTaint_relays (s : State) (k : Nat) (v : Taint → Taint) : (s.modTaint k v).relays = s.relays := rfl
@[simp] theorem setTaint_light (s : State) (k : Nat) (v : Taint) : (s.setTaint k v).light = s.light := rfl
@[simp] theorem modTaint_light (s : State) (k : Nat) (v : Taint → Taint) : (s.modTaint k v).light = s.light := rfl
@[simp] theorem setTaint_mons (s : State) (k : Nat) (v : Taint) : (s.setTaint k v).mons = s.mons := rfl
@[simp] theorem modTaint_mons (s : State) (k : Nat) (v : Taint → Taint) : (s.modTaint k v).mons = s.mons := rfl
@[simp] theorem setTaint_monLasts (s : State) (k : Nat) (v : Taint) : (s.setTaint k v).monLasts = s.monLasts := rfl
@[simp] theorem modTaint_monLasts (s : State) (k : Nat) (v : Taint → Taint) : (s.modTaint k v).monLasts = s.monLasts := rfl
@[simp] theorem setTaint_ring (s : State) (k : Nat) (v : Taint) : (s.setTaint k v).ring = s.ring := rfl
@[simp] theorem modTaint_ring (s : State) (k : Nat) (v : Taint → Taint) : (s.modTaint k v).ring = s.ring := rfl
@[simp] theorem setTaint_loops (s : State) (k : Nat) (v : Taint) : (s.setTaint k v).loops = s.loops := rfl
@[simp] theorem modTaint_loops (s : State) (k : Nat) (v : Taint → Taint) : (s.modTaint k v).loops = s.loops := rfl
@[simp] theorem setTaint_eng (s : State) (k : Nat) (v : Taint) : (s.setTaint k v).eng = s.eng := rfl
@[simp] theorem modTaint_eng (s : State) (k : Nat) (v : Taint → Taint) : (s.modTaint k v).eng = s.eng := rfl
@[simp] theorem setTaint_streams (s : State) (k : Nat) (v : Taint) : (s.setTaint k v).streams = s.streams := rfl
@[simp] theorem modTaint_streams (s : State) (k : Nat) (v : Taint → Taint) : (s.modTaint k v).streams = s.streams := rfl
@[simp] theorem setTaint_ops (s : State) (k : Nat) (v : Taint) : (s.setTaint k v).ops = s.ops := rfl
@[simp] theorem modTaint_ops (s : State) (k : Nat) (v : Taint → Taint) : (s.modTaint k v).ops = s.ops := rfl
@[simp] theorem setTaint_seq (s : State) (k : Nat) (v : Taint) : (s.setTaint k v).seq = s.seq := rfl
@[simp] theorem modTaint_seq (s : State) (k : Nat) (v : Taint → Taint) : (s.modTaint k v).seq = s.seq := rfl
@[simp] theorem setTaint_tokens (s : State) (k : Nat) (v : Taint) : (s.setTaint k v).tokens = s.tokens := rfl
@[simp] theorem modTaint_tokens (s : State) (k : Nat) (v : Taint → Taint) : (s.modTaint k v).tokens = s.tokens := rfl
@[simp] theorem setTaint_rowMaps (s : State) (k : Nat) (v : Taint) : (s.setTaint k v).rowMaps = s.rowMaps := rfl
@[simp] theorem modTaint_rowMaps (s : State) (k : Nat) (v : Taint → Taint) : (s.modTaint k v).rowMaps = s.rowMaps := rfl
@[simp] theorem setTaint_manifest (s : State) (k : Nat) (v : Taint) : (s.setTaint k v).manifest = s.manifest := rfl
@[simp] theorem modTaint_manifest (s : State) (k : Nat) (v : Taint → Taint) : (s.modTaint k v).manifest = s.manifest := rfl
@[simp] theorem setTaint_cores (s : State) (k : Nat) (v : Taint) : (s.setTaint k v).cores = s.cores := rfl
@[simp] theorem modTaint_cores (s : State) (k : Nat) (v : Taint → Taint) : (s.modTaint k v).cores = s.cores := rfl
@[simp] theorem setTaint_mem (s : State) (k : Nat) (v : Taint) : (s.setTaint k v).mem = s.mem := rfl
@[simp] theorem modTaint_mem (s : State) (k : Nat) (v : Taint → Taint) : (s.modTaint k v).mem = s.mem := rfl
@[simp] theorem setTaint_poison (s : State) (k : Nat) (v : Taint) : (s.setTaint k v).poison = s.poison := rfl
@[simp] theorem modTaint_poison (s : State) (k : Nat) (v : Taint → Taint) : (s.modTaint k v).poison = s.poison := rfl
@[simp] theorem setTaint_errs (s : State) (k : Nat) (v : Taint) : (s.setTaint k v).errs = s.errs := rfl
@[simp] theorem modTaint_errs (s : State) (k : Nat) (v : Taint → Taint) : (s.modTaint k v).errs = s.errs := rfl
@[simp] theorem setTaint_units (s : State) (k : Nat) (v : Taint) : (s.setTaint k v).units = s.units := rfl
@[simp] theorem modTaint_units (s : State) (k : Nat) (v : Taint → Taint) : (s.modTaint k v).units = s.units := rfl
@[simp] theorem setTaint_regions (s : State) (k : Nat) (v : Taint) : (s.setTaint k v).regions = s.regions := rfl
@[simp] theorem modTaint_regions (s : State) (k : Nat) (v : Taint → Taint) : (s.modTaint k v).regions = s.regions := rfl
@[simp] theorem setTaint_memTop (s : State) (k : Nat) (v : Taint) : (s.setTaint k v).memTop = s.memTop := rfl
@[simp] theorem modTaint_memTop (s : State) (k : Nat) (v : Taint → Taint) : (s.modTaint k v).memTop = s.memTop := rfl
@[simp] theorem setTaint_dir (s : State) (k : Nat) (v : Taint) : (s.setTaint k v).dir = s.dir := rfl
@[simp] theorem modTaint_dir (s : State) (k : Nat) (v : Taint → Taint) : (s.modTaint k v).dir = s.dir := rfl
@[simp] theorem setTaint_ctxs (s : State) (k : Nat) (v : Taint) : (s.setTaint k v).ctxs = s.ctxs := rfl
@[simp] theorem modTaint_ctxs (s : State) (k : Nat) (v : Taint → Taint) : (s.modTaint k v).ctxs = s.ctxs := rfl
@[simp] theorem setTaint_swaps (s : State) (k : Nat) (v : Taint) : (s.setTaint k v).swaps = s.swaps := rfl
@[simp] theorem modTaint_swaps (s : State) (k : Nat) (v : Taint → Taint) : (s.modTaint k v).swaps = s.swaps := rfl
@[simp] theorem setTaint_wts (s : State) (k : Nat) (v : Taint) : (s.setTaint k v).wts = s.wts := rfl
@[simp] theorem modTaint_wts (s : State) (k : Nat) (v : Taint → Taint) : (s.modTaint k v).wts = s.wts := rfl
@[simp] theorem setTaint_netLinks (s : State) (k : Nat) (v : Taint) : (s.setTaint k v).netLinks = s.netLinks := rfl
@[simp] theorem modTaint_netLinks (s : State) (k : Nat) (v : Taint → Taint) : (s.modTaint k v).netLinks = s.netLinks := rfl
@[simp] theorem setTaint_parts (s : State) (k : Nat) (v : Taint) : (s.setTaint k v).parts = s.parts := rfl
@[simp] theorem modTaint_parts (s : State) (k : Nat) (v : Taint → Taint) : (s.modTaint k v).parts = s.parts := rfl
@[simp] theorem setTaint_net (s : State) (k : Nat) (v : Taint) : (s.setTaint k v).net = s.net := rfl
@[simp] theorem modTaint_net (s : State) (k : Nat) (v : Taint → Taint) : (s.modTaint k v).net = s.net := rfl
@[simp] theorem setTaint_netBufs (s : State) (k : Nat) (v : Taint) : (s.setTaint k v).netBufs = s.netBufs := rfl
@[simp] theorem modTaint_netBufs (s : State) (k : Nat) (v : Taint → Taint) : (s.modTaint k v).netBufs = s.netBufs := rfl
@[simp] theorem setTaint_ports (s : State) (k : Nat) (v : Taint) : (s.setTaint k v).ports = s.ports := rfl
@[simp] theorem modTaint_ports (s : State) (k : Nat) (v : Taint → Taint) : (s.modTaint k v).ports = s.ports := rfl
@[simp] theorem setTaint_link (s : State) (k : Nat) (v : Taint) : (s.setTaint k v).link = s.link := rfl
@[simp] theorem modTaint_link (s : State) (k : Nat) (v : Taint → Taint) : (s.modTaint k v).link = s.link := rfl
@[simp] theorem setTaint_mbs (s : State) (k : Nat) (v : Taint) : (s.setTaint k v).mbs = s.mbs := rfl
@[simp] theorem modTaint_mbs (s : State) (k : Nat) (v : Taint → Taint) : (s.modTaint k v).mbs = s.mbs := rfl
@[simp] theorem setTaint_cmds (s : State) (k : Nat) (v : Taint) : (s.setTaint k v).cmds = s.cmds := rfl
@[simp] theorem modTaint_cmds (s : State) (k : Nat) (v : Taint → Taint) : (s.modTaint k v).cmds = s.cmds := rfl
@[simp] theorem setTaint_stw (s : State) (k : Nat) (v : Taint) : (s.setTaint k v).stw = s.stw := rfl
@[simp] theorem modTaint_stw (s : State) (k : Nat) (v : Taint → Taint) : (s.modTaint k v).stw = s.stw := rfl
@[simp] theorem setTaint_hostMem (s : State) (k : Nat) (v : Taint) : (s.setTaint k v).hostMem = s.hostMem := rfl
@[simp] theorem modTaint_hostMem (s : State) (k : Nat) (v : Taint → Taint) : (s.modTaint k v).hostMem = s.hostMem := rfl
@[simp] theorem setTaint_bu (s : State) (k : Nat) (v : Taint) : (s.setTaint k v).bu = s.bu := rfl
@[simp] theorem modTaint_bu (s : State) (k : Nat) (v : Taint → Taint) : (s.modTaint k v).bu = s.bu := rfl
@[simp] theorem setTaint_pwr (s : State) (k : Nat) (v : Taint) : (s.setTaint k v).pwr = s.pwr := rfl
@[simp] theorem modTaint_pwr (s : State) (k : Nat) (v : Taint → Taint) : (s.modTaint k v).pwr = s.pwr := rfl
@[simp] theorem setTaint_sensors (s : State) (k : Nat) (v : Taint) : (s.setTaint k v).sensors = s.sensors := rfl
@[simp] theorem modTaint_sensors (s : State) (k : Nat) (v : Taint → Taint) : (s.modTaint k v).sensors = s.sensors := rfl
@[simp] theorem setTaint_dies (s : State) (k : Nat) (v : Taint) : (s.setTaint k v).dies = s.dies := rfl
@[simp] theorem modTaint_dies (s : State) (k : Nat) (v : Taint → Taint) : (s.modTaint k v).dies = s.dies := rfl
@[simp] theorem setTaint_thm (s : State) (k : Nat) (v : Taint) : (s.setTaint k v).thm = s.thm := rfl
@[simp] theorem modTaint_thm (s : State) (k : Nat) (v : Taint → Taint) : (s.modTaint k v).thm = s.thm := rfl
@[simp] theorem setTaint_exts (s : State) (k : Nat) (v : Taint) : (s.setTaint k v).exts = s.exts := rfl
@[simp] theorem modTaint_exts (s : State) (k : Nat) (v : Taint → Taint) : (s.modTaint k v).exts = s.exts := rfl
@[simp] theorem setTaint_flt (s : State) (k : Nat) (v : Taint) : (s.setTaint k v).flt = s.flt := rfl
@[simp] theorem modTaint_flt (s : State) (k : Nat) (v : Taint → Taint) : (s.modTaint k v).flt = s.flt := rfl
@[simp] theorem setTaint_sec (s : State) (k : Nat) (v : Taint) : (s.setTaint k v).sec = s.sec := rfl
@[simp] theorem modTaint_sec (s : State) (k : Nat) (v : Taint → Taint) : (s.modTaint k v).sec = s.sec := rfl
@[simp] theorem setTaint_mg (s : State) (k : Nat) (v : Taint) : (s.setTaint k v).mg = s.mg := rfl
@[simp] theorem modTaint_mg (s : State) (k : Nat) (v : Taint → Taint) : (s.modTaint k v).mg = s.mg := rfl
@[simp] theorem setTaint_free (s : State) (k : Nat) (v : Taint) : (s.setTaint k v).free = s.free := rfl
@[simp] theorem modTaint_free (s : State) (k : Nat) (v : Taint → Taint) : (s.modTaint k v).free = s.free := rfl
@[simp] theorem setTaint_pending (s : State) (k : Nat) (v : Taint) : (s.setTaint k v).pending = s.pending := rfl
@[simp] theorem modTaint_pending (s : State) (k : Nat) (v : Taint → Taint) : (s.modTaint k v).pending = s.pending := rfl

theorem modAccCell_eq (s : State) (k : Nat) (g : AccCell → AccCell) : s.modAccCell k g = s.setAccCell k (g (s.accCell k)) := rfl
@[simp] theorem setAccCell_tim (s : State) (k : Nat) (v : AccCell) : (s.setAccCell k v).tim = s.tim := rfl
@[simp] theorem modAccCell_tim (s : State) (k : Nat) (v : AccCell → AccCell) : (s.modAccCell k v).tim = s.tim := rfl
@[simp] theorem setAccCell_pins (s : State) (k : Nat) (v : AccCell) : (s.setAccCell k v).pins = s.pins := rfl
@[simp] theorem modAccCell_pins (s : State) (k : Nat) (v : AccCell → AccCell) : (s.modAccCell k v).pins = s.pins := rfl
@[simp] theorem setAccCell_fields (s : State) (k : Nat) (v : AccCell) : (s.setAccCell k v).fields = s.fields := rfl
@[simp] theorem modAccCell_fields (s : State) (k : Nat) (v : AccCell → AccCell) : (s.modAccCell k v).fields = s.fields := rfl
@[simp] theorem setAccCell_adcs (s : State) (k : Nat) (v : AccCell) : (s.setAccCell k v).adcs = s.adcs := rfl
@[simp] theorem modAccCell_adcs (s : State) (k : Nat) (v : AccCell → AccCell) : (s.modAccCell k v).adcs = s.adcs := rfl
@[simp] theorem setAccCell_adcTel (s : State) (k : Nat) (v : AccCell) : (s.setAccCell k v).adcTel = s.adcTel := rfl
@[simp] theorem modAccCell_adcTel (s : State) (k : Nat) (v : AccCell → AccCell) : (s.modAccCell k v).adcTel = s.adcTel := rfl
@[simp] theorem setAccCell_taints (s : State) (k : Nat) (v : AccCell) : (s.setAccCell k v).taints = s.taints := rfl
@[simp] theorem modAccCell_taints (s : State) (k : Nat) (v : AccCell → AccCell) : (s.modAccCell k v).taints = s.taints := rfl
@[simp] theorem setAccCell_bands (s : State) (k : Nat) (v : AccCell) : (s.setAccCell k v).bands = s.bands := rfl
@[simp] theorem modAccCell_bands (s : State) (k : Nat) (v : AccCell → AccCell) : (s.modAccCell k v).bands = s.bands := rfl
@[simp] theorem setAccCell_cal (s : State) (k : Nat) (v : AccCell) : (s.setAccCell k v).cal = s.cal := rfl
@[simp] theorem modAccCell_cal (s : State) (k : Nat) (v : AccCell → AccCell) : (s.modAccCell k v).cal = s.cal := rfl
@[simp] theorem setAccCell_lcols (s : State) (k : Nat) (v : AccCell) : (s.setAccCell k v).lcols = s.lcols := rfl
@[simp] theorem modAccCell_lcols (s : State) (k : Nat) (v : AccCell → AccCell) : (s.modAccCell k v).lcols = s.lcols := rfl
@[simp] theorem setAccCell_lports (s : State) (k : Nat) (v : AccCell) : (s.setAccCell k v).lports = s.lports := rfl
@[simp] theorem modAccCell_lports (s : State) (k : Nat) (v : AccCell → AccCell) : (s.modAccCell k v).lports = s.lports := rfl
@[simp] theorem setAccCell_relays (s : State) (k : Nat) (v : AccCell) : (s.setAccCell k v).relays = s.relays := rfl
@[simp] theorem modAccCell_relays (s : State) (k : Nat) (v : AccCell → AccCell) : (s.modAccCell k v).relays = s.relays := rfl
@[simp] theorem setAccCell_light (s : State) (k : Nat) (v : AccCell) : (s.setAccCell k v).light = s.light := rfl
@[simp] theorem modAccCell_light (s : State) (k : Nat) (v : AccCell → AccCell) : (s.modAccCell k v).light = s.light := rfl
@[simp] theorem setAccCell_mons (s : State) (k : Nat) (v : AccCell) : (s.setAccCell k v).mons = s.mons := rfl
@[simp] theorem modAccCell_mons (s : State) (k : Nat) (v : AccCell → AccCell) : (s.modAccCell k v).mons = s.mons := rfl
@[simp] theorem setAccCell_monLasts (s : State) (k : Nat) (v : AccCell) : (s.setAccCell k v).monLasts = s.monLasts := rfl
@[simp] theorem modAccCell_monLasts (s : State) (k : Nat) (v : AccCell → AccCell) : (s.modAccCell k v).monLasts = s.monLasts := rfl
@[simp] theorem setAccCell_ring (s : State) (k : Nat) (v : AccCell) : (s.setAccCell k v).ring = s.ring := rfl
@[simp] theorem modAccCell_ring (s : State) (k : Nat) (v : AccCell → AccCell) : (s.modAccCell k v).ring = s.ring := rfl
@[simp] theorem setAccCell_loops (s : State) (k : Nat) (v : AccCell) : (s.setAccCell k v).loops = s.loops := rfl
@[simp] theorem modAccCell_loops (s : State) (k : Nat) (v : AccCell → AccCell) : (s.modAccCell k v).loops = s.loops := rfl
@[simp] theorem setAccCell_eng (s : State) (k : Nat) (v : AccCell) : (s.setAccCell k v).eng = s.eng := rfl
@[simp] theorem modAccCell_eng (s : State) (k : Nat) (v : AccCell → AccCell) : (s.modAccCell k v).eng = s.eng := rfl
@[simp] theorem setAccCell_streams (s : State) (k : Nat) (v : AccCell) : (s.setAccCell k v).streams = s.streams := rfl
@[simp] theorem modAccCell_streams (s : State) (k : Nat) (v : AccCell → AccCell) : (s.modAccCell k v).streams = s.streams := rfl
@[simp] theorem setAccCell_ops (s : State) (k : Nat) (v : AccCell) : (s.setAccCell k v).ops = s.ops := rfl
@[simp] theorem modAccCell_ops (s : State) (k : Nat) (v : AccCell → AccCell) : (s.modAccCell k v).ops = s.ops := rfl
@[simp] theorem setAccCell_seq (s : State) (k : Nat) (v : AccCell) : (s.setAccCell k v).seq = s.seq := rfl
@[simp] theorem modAccCell_seq (s : State) (k : Nat) (v : AccCell → AccCell) : (s.modAccCell k v).seq = s.seq := rfl
@[simp] theorem setAccCell_tokens (s : State) (k : Nat) (v : AccCell) : (s.setAccCell k v).tokens = s.tokens := rfl
@[simp] theorem modAccCell_tokens (s : State) (k : Nat) (v : AccCell → AccCell) : (s.modAccCell k v).tokens = s.tokens := rfl
@[simp] theorem setAccCell_rowMaps (s : State) (k : Nat) (v : AccCell) : (s.setAccCell k v).rowMaps = s.rowMaps := rfl
@[simp] theorem modAccCell_rowMaps (s : State) (k : Nat) (v : AccCell → AccCell) : (s.modAccCell k v).rowMaps = s.rowMaps := rfl
@[simp] theorem setAccCell_manifest (s : State) (k : Nat) (v : AccCell) : (s.setAccCell k v).manifest = s.manifest := rfl
@[simp] theorem modAccCell_manifest (s : State) (k : Nat) (v : AccCell → AccCell) : (s.modAccCell k v).manifest = s.manifest := rfl
@[simp] theorem setAccCell_cores (s : State) (k : Nat) (v : AccCell) : (s.setAccCell k v).cores = s.cores := rfl
@[simp] theorem modAccCell_cores (s : State) (k : Nat) (v : AccCell → AccCell) : (s.modAccCell k v).cores = s.cores := rfl
@[simp] theorem setAccCell_mem (s : State) (k : Nat) (v : AccCell) : (s.setAccCell k v).mem = s.mem := rfl
@[simp] theorem modAccCell_mem (s : State) (k : Nat) (v : AccCell → AccCell) : (s.modAccCell k v).mem = s.mem := rfl
@[simp] theorem setAccCell_poison (s : State) (k : Nat) (v : AccCell) : (s.setAccCell k v).poison = s.poison := rfl
@[simp] theorem modAccCell_poison (s : State) (k : Nat) (v : AccCell → AccCell) : (s.modAccCell k v).poison = s.poison := rfl
@[simp] theorem setAccCell_errs (s : State) (k : Nat) (v : AccCell) : (s.setAccCell k v).errs = s.errs := rfl
@[simp] theorem modAccCell_errs (s : State) (k : Nat) (v : AccCell → AccCell) : (s.modAccCell k v).errs = s.errs := rfl
@[simp] theorem setAccCell_units (s : State) (k : Nat) (v : AccCell) : (s.setAccCell k v).units = s.units := rfl
@[simp] theorem modAccCell_units (s : State) (k : Nat) (v : AccCell → AccCell) : (s.modAccCell k v).units = s.units := rfl
@[simp] theorem setAccCell_regions (s : State) (k : Nat) (v : AccCell) : (s.setAccCell k v).regions = s.regions := rfl
@[simp] theorem modAccCell_regions (s : State) (k : Nat) (v : AccCell → AccCell) : (s.modAccCell k v).regions = s.regions := rfl
@[simp] theorem setAccCell_memTop (s : State) (k : Nat) (v : AccCell) : (s.setAccCell k v).memTop = s.memTop := rfl
@[simp] theorem modAccCell_memTop (s : State) (k : Nat) (v : AccCell → AccCell) : (s.modAccCell k v).memTop = s.memTop := rfl
@[simp] theorem setAccCell_dir (s : State) (k : Nat) (v : AccCell) : (s.setAccCell k v).dir = s.dir := rfl
@[simp] theorem modAccCell_dir (s : State) (k : Nat) (v : AccCell → AccCell) : (s.modAccCell k v).dir = s.dir := rfl
@[simp] theorem setAccCell_ctxs (s : State) (k : Nat) (v : AccCell) : (s.setAccCell k v).ctxs = s.ctxs := rfl
@[simp] theorem modAccCell_ctxs (s : State) (k : Nat) (v : AccCell → AccCell) : (s.modAccCell k v).ctxs = s.ctxs := rfl
@[simp] theorem setAccCell_swaps (s : State) (k : Nat) (v : AccCell) : (s.setAccCell k v).swaps = s.swaps := rfl
@[simp] theorem modAccCell_swaps (s : State) (k : Nat) (v : AccCell → AccCell) : (s.modAccCell k v).swaps = s.swaps := rfl
@[simp] theorem setAccCell_wts (s : State) (k : Nat) (v : AccCell) : (s.setAccCell k v).wts = s.wts := rfl
@[simp] theorem modAccCell_wts (s : State) (k : Nat) (v : AccCell → AccCell) : (s.modAccCell k v).wts = s.wts := rfl
@[simp] theorem setAccCell_netLinks (s : State) (k : Nat) (v : AccCell) : (s.setAccCell k v).netLinks = s.netLinks := rfl
@[simp] theorem modAccCell_netLinks (s : State) (k : Nat) (v : AccCell → AccCell) : (s.modAccCell k v).netLinks = s.netLinks := rfl
@[simp] theorem setAccCell_parts (s : State) (k : Nat) (v : AccCell) : (s.setAccCell k v).parts = s.parts := rfl
@[simp] theorem modAccCell_parts (s : State) (k : Nat) (v : AccCell → AccCell) : (s.modAccCell k v).parts = s.parts := rfl
@[simp] theorem setAccCell_net (s : State) (k : Nat) (v : AccCell) : (s.setAccCell k v).net = s.net := rfl
@[simp] theorem modAccCell_net (s : State) (k : Nat) (v : AccCell → AccCell) : (s.modAccCell k v).net = s.net := rfl
@[simp] theorem setAccCell_netBufs (s : State) (k : Nat) (v : AccCell) : (s.setAccCell k v).netBufs = s.netBufs := rfl
@[simp] theorem modAccCell_netBufs (s : State) (k : Nat) (v : AccCell → AccCell) : (s.modAccCell k v).netBufs = s.netBufs := rfl
@[simp] theorem setAccCell_ports (s : State) (k : Nat) (v : AccCell) : (s.setAccCell k v).ports = s.ports := rfl
@[simp] theorem modAccCell_ports (s : State) (k : Nat) (v : AccCell → AccCell) : (s.modAccCell k v).ports = s.ports := rfl
@[simp] theorem setAccCell_link (s : State) (k : Nat) (v : AccCell) : (s.setAccCell k v).link = s.link := rfl
@[simp] theorem modAccCell_link (s : State) (k : Nat) (v : AccCell → AccCell) : (s.modAccCell k v).link = s.link := rfl
@[simp] theorem setAccCell_mbs (s : State) (k : Nat) (v : AccCell) : (s.setAccCell k v).mbs = s.mbs := rfl
@[simp] theorem modAccCell_mbs (s : State) (k : Nat) (v : AccCell → AccCell) : (s.modAccCell k v).mbs = s.mbs := rfl
@[simp] theorem setAccCell_cmds (s : State) (k : Nat) (v : AccCell) : (s.setAccCell k v).cmds = s.cmds := rfl
@[simp] theorem modAccCell_cmds (s : State) (k : Nat) (v : AccCell → AccCell) : (s.modAccCell k v).cmds = s.cmds := rfl
@[simp] theorem setAccCell_stw (s : State) (k : Nat) (v : AccCell) : (s.setAccCell k v).stw = s.stw := rfl
@[simp] theorem modAccCell_stw (s : State) (k : Nat) (v : AccCell → AccCell) : (s.modAccCell k v).stw = s.stw := rfl
@[simp] theorem setAccCell_hostMem (s : State) (k : Nat) (v : AccCell) : (s.setAccCell k v).hostMem = s.hostMem := rfl
@[simp] theorem modAccCell_hostMem (s : State) (k : Nat) (v : AccCell → AccCell) : (s.modAccCell k v).hostMem = s.hostMem := rfl
@[simp] theorem setAccCell_bu (s : State) (k : Nat) (v : AccCell) : (s.setAccCell k v).bu = s.bu := rfl
@[simp] theorem modAccCell_bu (s : State) (k : Nat) (v : AccCell → AccCell) : (s.modAccCell k v).bu = s.bu := rfl
@[simp] theorem setAccCell_pwr (s : State) (k : Nat) (v : AccCell) : (s.setAccCell k v).pwr = s.pwr := rfl
@[simp] theorem modAccCell_pwr (s : State) (k : Nat) (v : AccCell → AccCell) : (s.modAccCell k v).pwr = s.pwr := rfl
@[simp] theorem setAccCell_sensors (s : State) (k : Nat) (v : AccCell) : (s.setAccCell k v).sensors = s.sensors := rfl
@[simp] theorem modAccCell_sensors (s : State) (k : Nat) (v : AccCell → AccCell) : (s.modAccCell k v).sensors = s.sensors := rfl
@[simp] theorem setAccCell_dies (s : State) (k : Nat) (v : AccCell) : (s.setAccCell k v).dies = s.dies := rfl
@[simp] theorem modAccCell_dies (s : State) (k : Nat) (v : AccCell → AccCell) : (s.modAccCell k v).dies = s.dies := rfl
@[simp] theorem setAccCell_thm (s : State) (k : Nat) (v : AccCell) : (s.setAccCell k v).thm = s.thm := rfl
@[simp] theorem modAccCell_thm (s : State) (k : Nat) (v : AccCell → AccCell) : (s.modAccCell k v).thm = s.thm := rfl
@[simp] theorem setAccCell_exts (s : State) (k : Nat) (v : AccCell) : (s.setAccCell k v).exts = s.exts := rfl
@[simp] theorem modAccCell_exts (s : State) (k : Nat) (v : AccCell → AccCell) : (s.modAccCell k v).exts = s.exts := rfl
@[simp] theorem setAccCell_flt (s : State) (k : Nat) (v : AccCell) : (s.setAccCell k v).flt = s.flt := rfl
@[simp] theorem modAccCell_flt (s : State) (k : Nat) (v : AccCell → AccCell) : (s.modAccCell k v).flt = s.flt := rfl
@[simp] theorem setAccCell_sec (s : State) (k : Nat) (v : AccCell) : (s.setAccCell k v).sec = s.sec := rfl
@[simp] theorem modAccCell_sec (s : State) (k : Nat) (v : AccCell → AccCell) : (s.modAccCell k v).sec = s.sec := rfl
@[simp] theorem setAccCell_mg (s : State) (k : Nat) (v : AccCell) : (s.setAccCell k v).mg = s.mg := rfl
@[simp] theorem modAccCell_mg (s : State) (k : Nat) (v : AccCell → AccCell) : (s.modAccCell k v).mg = s.mg := rfl
@[simp] theorem setAccCell_free (s : State) (k : Nat) (v : AccCell) : (s.setAccCell k v).free = s.free := rfl
@[simp] theorem modAccCell_free (s : State) (k : Nat) (v : AccCell → AccCell) : (s.modAccCell k v).free = s.free := rfl
@[simp] theorem setAccCell_pending (s : State) (k : Nat) (v : AccCell) : (s.setAccCell k v).pending = s.pending := rfl
@[simp] theorem modAccCell_pending (s : State) (k : Nat) (v : AccCell → AccCell) : (s.modAccCell k v).pending = s.pending := rfl

theorem modBand_eq (s : State) (k : Nat) (g : Band → Band) : s.modBand k g = s.setBand k (g (s.band k)) := rfl
@[simp] theorem setBand_tim (s : State) (k : Nat) (v : Band) : (s.setBand k v).tim = s.tim := rfl
@[simp] theorem modBand_tim (s : State) (k : Nat) (v : Band → Band) : (s.modBand k v).tim = s.tim := rfl
@[simp] theorem setBand_pins (s : State) (k : Nat) (v : Band) : (s.setBand k v).pins = s.pins := rfl
@[simp] theorem modBand_pins (s : State) (k : Nat) (v : Band → Band) : (s.modBand k v).pins = s.pins := rfl
@[simp] theorem setBand_fields (s : State) (k : Nat) (v : Band) : (s.setBand k v).fields = s.fields := rfl
@[simp] theorem modBand_fields (s : State) (k : Nat) (v : Band → Band) : (s.modBand k v).fields = s.fields := rfl
@[simp] theorem setBand_adcs (s : State) (k : Nat) (v : Band) : (s.setBand k v).adcs = s.adcs := rfl
@[simp] theorem modBand_adcs (s : State) (k : Nat) (v : Band → Band) : (s.modBand k v).adcs = s.adcs := rfl
@[simp] theorem setBand_adcTel (s : State) (k : Nat) (v : Band) : (s.setBand k v).adcTel = s.adcTel := rfl
@[simp] theorem modBand_adcTel (s : State) (k : Nat) (v : Band → Band) : (s.modBand k v).adcTel = s.adcTel := rfl
@[simp] theorem setBand_taints (s : State) (k : Nat) (v : Band) : (s.setBand k v).taints = s.taints := rfl
@[simp] theorem modBand_taints (s : State) (k : Nat) (v : Band → Band) : (s.modBand k v).taints = s.taints := rfl
@[simp] theorem setBand_acc (s : State) (k : Nat) (v : Band) : (s.setBand k v).acc = s.acc := rfl
@[simp] theorem modBand_acc (s : State) (k : Nat) (v : Band → Band) : (s.modBand k v).acc = s.acc := rfl
@[simp] theorem setBand_cal (s : State) (k : Nat) (v : Band) : (s.setBand k v).cal = s.cal := rfl
@[simp] theorem modBand_cal (s : State) (k : Nat) (v : Band → Band) : (s.modBand k v).cal = s.cal := rfl
@[simp] theorem setBand_lcols (s : State) (k : Nat) (v : Band) : (s.setBand k v).lcols = s.lcols := rfl
@[simp] theorem modBand_lcols (s : State) (k : Nat) (v : Band → Band) : (s.modBand k v).lcols = s.lcols := rfl
@[simp] theorem setBand_lports (s : State) (k : Nat) (v : Band) : (s.setBand k v).lports = s.lports := rfl
@[simp] theorem modBand_lports (s : State) (k : Nat) (v : Band → Band) : (s.modBand k v).lports = s.lports := rfl
@[simp] theorem setBand_relays (s : State) (k : Nat) (v : Band) : (s.setBand k v).relays = s.relays := rfl
@[simp] theorem modBand_relays (s : State) (k : Nat) (v : Band → Band) : (s.modBand k v).relays = s.relays := rfl
@[simp] theorem setBand_light (s : State) (k : Nat) (v : Band) : (s.setBand k v).light = s.light := rfl
@[simp] theorem modBand_light (s : State) (k : Nat) (v : Band → Band) : (s.modBand k v).light = s.light := rfl
@[simp] theorem setBand_mons (s : State) (k : Nat) (v : Band) : (s.setBand k v).mons = s.mons := rfl
@[simp] theorem modBand_mons (s : State) (k : Nat) (v : Band → Band) : (s.modBand k v).mons = s.mons := rfl
@[simp] theorem setBand_monLasts (s : State) (k : Nat) (v : Band) : (s.setBand k v).monLasts = s.monLasts := rfl
@[simp] theorem modBand_monLasts (s : State) (k : Nat) (v : Band → Band) : (s.modBand k v).monLasts = s.monLasts := rfl
@[simp] theorem setBand_ring (s : State) (k : Nat) (v : Band) : (s.setBand k v).ring = s.ring := rfl
@[simp] theorem modBand_ring (s : State) (k : Nat) (v : Band → Band) : (s.modBand k v).ring = s.ring := rfl
@[simp] theorem setBand_loops (s : State) (k : Nat) (v : Band) : (s.setBand k v).loops = s.loops := rfl
@[simp] theorem modBand_loops (s : State) (k : Nat) (v : Band → Band) : (s.modBand k v).loops = s.loops := rfl
@[simp] theorem setBand_eng (s : State) (k : Nat) (v : Band) : (s.setBand k v).eng = s.eng := rfl
@[simp] theorem modBand_eng (s : State) (k : Nat) (v : Band → Band) : (s.modBand k v).eng = s.eng := rfl
@[simp] theorem setBand_streams (s : State) (k : Nat) (v : Band) : (s.setBand k v).streams = s.streams := rfl
@[simp] theorem modBand_streams (s : State) (k : Nat) (v : Band → Band) : (s.modBand k v).streams = s.streams := rfl
@[simp] theorem setBand_ops (s : State) (k : Nat) (v : Band) : (s.setBand k v).ops = s.ops := rfl
@[simp] theorem modBand_ops (s : State) (k : Nat) (v : Band → Band) : (s.modBand k v).ops = s.ops := rfl
@[simp] theorem setBand_seq (s : State) (k : Nat) (v : Band) : (s.setBand k v).seq = s.seq := rfl
@[simp] theorem modBand_seq (s : State) (k : Nat) (v : Band → Band) : (s.modBand k v).seq = s.seq := rfl
@[simp] theorem setBand_tokens (s : State) (k : Nat) (v : Band) : (s.setBand k v).tokens = s.tokens := rfl
@[simp] theorem modBand_tokens (s : State) (k : Nat) (v : Band → Band) : (s.modBand k v).tokens = s.tokens := rfl
@[simp] theorem setBand_rowMaps (s : State) (k : Nat) (v : Band) : (s.setBand k v).rowMaps = s.rowMaps := rfl
@[simp] theorem modBand_rowMaps (s : State) (k : Nat) (v : Band → Band) : (s.modBand k v).rowMaps = s.rowMaps := rfl
@[simp] theorem setBand_manifest (s : State) (k : Nat) (v : Band) : (s.setBand k v).manifest = s.manifest := rfl
@[simp] theorem modBand_manifest (s : State) (k : Nat) (v : Band → Band) : (s.modBand k v).manifest = s.manifest := rfl
@[simp] theorem setBand_cores (s : State) (k : Nat) (v : Band) : (s.setBand k v).cores = s.cores := rfl
@[simp] theorem modBand_cores (s : State) (k : Nat) (v : Band → Band) : (s.modBand k v).cores = s.cores := rfl
@[simp] theorem setBand_mem (s : State) (k : Nat) (v : Band) : (s.setBand k v).mem = s.mem := rfl
@[simp] theorem modBand_mem (s : State) (k : Nat) (v : Band → Band) : (s.modBand k v).mem = s.mem := rfl
@[simp] theorem setBand_poison (s : State) (k : Nat) (v : Band) : (s.setBand k v).poison = s.poison := rfl
@[simp] theorem modBand_poison (s : State) (k : Nat) (v : Band → Band) : (s.modBand k v).poison = s.poison := rfl
@[simp] theorem setBand_errs (s : State) (k : Nat) (v : Band) : (s.setBand k v).errs = s.errs := rfl
@[simp] theorem modBand_errs (s : State) (k : Nat) (v : Band → Band) : (s.modBand k v).errs = s.errs := rfl
@[simp] theorem setBand_units (s : State) (k : Nat) (v : Band) : (s.setBand k v).units = s.units := rfl
@[simp] theorem modBand_units (s : State) (k : Nat) (v : Band → Band) : (s.modBand k v).units = s.units := rfl
@[simp] theorem setBand_regions (s : State) (k : Nat) (v : Band) : (s.setBand k v).regions = s.regions := rfl
@[simp] theorem modBand_regions (s : State) (k : Nat) (v : Band → Band) : (s.modBand k v).regions = s.regions := rfl
@[simp] theorem setBand_memTop (s : State) (k : Nat) (v : Band) : (s.setBand k v).memTop = s.memTop := rfl
@[simp] theorem modBand_memTop (s : State) (k : Nat) (v : Band → Band) : (s.modBand k v).memTop = s.memTop := rfl
@[simp] theorem setBand_dir (s : State) (k : Nat) (v : Band) : (s.setBand k v).dir = s.dir := rfl
@[simp] theorem modBand_dir (s : State) (k : Nat) (v : Band → Band) : (s.modBand k v).dir = s.dir := rfl
@[simp] theorem setBand_ctxs (s : State) (k : Nat) (v : Band) : (s.setBand k v).ctxs = s.ctxs := rfl
@[simp] theorem modBand_ctxs (s : State) (k : Nat) (v : Band → Band) : (s.modBand k v).ctxs = s.ctxs := rfl
@[simp] theorem setBand_swaps (s : State) (k : Nat) (v : Band) : (s.setBand k v).swaps = s.swaps := rfl
@[simp] theorem modBand_swaps (s : State) (k : Nat) (v : Band → Band) : (s.modBand k v).swaps = s.swaps := rfl
@[simp] theorem setBand_wts (s : State) (k : Nat) (v : Band) : (s.setBand k v).wts = s.wts := rfl
@[simp] theorem modBand_wts (s : State) (k : Nat) (v : Band → Band) : (s.modBand k v).wts = s.wts := rfl
@[simp] theorem setBand_netLinks (s : State) (k : Nat) (v : Band) : (s.setBand k v).netLinks = s.netLinks := rfl
@[simp] theorem modBand_netLinks (s : State) (k : Nat) (v : Band → Band) : (s.modBand k v).netLinks = s.netLinks := rfl
@[simp] theorem setBand_parts (s : State) (k : Nat) (v : Band) : (s.setBand k v).parts = s.parts := rfl
@[simp] theorem modBand_parts (s : State) (k : Nat) (v : Band → Band) : (s.modBand k v).parts = s.parts := rfl
@[simp] theorem setBand_net (s : State) (k : Nat) (v : Band) : (s.setBand k v).net = s.net := rfl
@[simp] theorem modBand_net (s : State) (k : Nat) (v : Band → Band) : (s.modBand k v).net = s.net := rfl
@[simp] theorem setBand_netBufs (s : State) (k : Nat) (v : Band) : (s.setBand k v).netBufs = s.netBufs := rfl
@[simp] theorem modBand_netBufs (s : State) (k : Nat) (v : Band → Band) : (s.modBand k v).netBufs = s.netBufs := rfl
@[simp] theorem setBand_ports (s : State) (k : Nat) (v : Band) : (s.setBand k v).ports = s.ports := rfl
@[simp] theorem modBand_ports (s : State) (k : Nat) (v : Band → Band) : (s.modBand k v).ports = s.ports := rfl
@[simp] theorem setBand_link (s : State) (k : Nat) (v : Band) : (s.setBand k v).link = s.link := rfl
@[simp] theorem modBand_link (s : State) (k : Nat) (v : Band → Band) : (s.modBand k v).link = s.link := rfl
@[simp] theorem setBand_mbs (s : State) (k : Nat) (v : Band) : (s.setBand k v).mbs = s.mbs := rfl
@[simp] theorem modBand_mbs (s : State) (k : Nat) (v : Band → Band) : (s.modBand k v).mbs = s.mbs := rfl
@[simp] theorem setBand_cmds (s : State) (k : Nat) (v : Band) : (s.setBand k v).cmds = s.cmds := rfl
@[simp] theorem modBand_cmds (s : State) (k : Nat) (v : Band → Band) : (s.modBand k v).cmds = s.cmds := rfl
@[simp] theorem setBand_stw (s : State) (k : Nat) (v : Band) : (s.setBand k v).stw = s.stw := rfl
@[simp] theorem modBand_stw (s : State) (k : Nat) (v : Band → Band) : (s.modBand k v).stw = s.stw := rfl
@[simp] theorem setBand_hostMem (s : State) (k : Nat) (v : Band) : (s.setBand k v).hostMem = s.hostMem := rfl
@[simp] theorem modBand_hostMem (s : State) (k : Nat) (v : Band → Band) : (s.modBand k v).hostMem = s.hostMem := rfl
@[simp] theorem setBand_bu (s : State) (k : Nat) (v : Band) : (s.setBand k v).bu = s.bu := rfl
@[simp] theorem modBand_bu (s : State) (k : Nat) (v : Band → Band) : (s.modBand k v).bu = s.bu := rfl
@[simp] theorem setBand_pwr (s : State) (k : Nat) (v : Band) : (s.setBand k v).pwr = s.pwr := rfl
@[simp] theorem modBand_pwr (s : State) (k : Nat) (v : Band → Band) : (s.modBand k v).pwr = s.pwr := rfl
@[simp] theorem setBand_sensors (s : State) (k : Nat) (v : Band) : (s.setBand k v).sensors = s.sensors := rfl
@[simp] theorem modBand_sensors (s : State) (k : Nat) (v : Band → Band) : (s.modBand k v).sensors = s.sensors := rfl
@[simp] theorem setBand_dies (s : State) (k : Nat) (v : Band) : (s.setBand k v).dies = s.dies := rfl
@[simp] theorem modBand_dies (s : State) (k : Nat) (v : Band → Band) : (s.modBand k v).dies = s.dies := rfl
@[simp] theorem setBand_thm (s : State) (k : Nat) (v : Band) : (s.setBand k v).thm = s.thm := rfl
@[simp] theorem modBand_thm (s : State) (k : Nat) (v : Band → Band) : (s.modBand k v).thm = s.thm := rfl
@[simp] theorem setBand_exts (s : State) (k : Nat) (v : Band) : (s.setBand k v).exts = s.exts := rfl
@[simp] theorem modBand_exts (s : State) (k : Nat) (v : Band → Band) : (s.modBand k v).exts = s.exts := rfl
@[simp] theorem setBand_flt (s : State) (k : Nat) (v : Band) : (s.setBand k v).flt = s.flt := rfl
@[simp] theorem modBand_flt (s : State) (k : Nat) (v : Band → Band) : (s.modBand k v).flt = s.flt := rfl
@[simp] theorem setBand_sec (s : State) (k : Nat) (v : Band) : (s.setBand k v).sec = s.sec := rfl
@[simp] theorem modBand_sec (s : State) (k : Nat) (v : Band → Band) : (s.modBand k v).sec = s.sec := rfl
@[simp] theorem setBand_mg (s : State) (k : Nat) (v : Band) : (s.setBand k v).mg = s.mg := rfl
@[simp] theorem modBand_mg (s : State) (k : Nat) (v : Band → Band) : (s.modBand k v).mg = s.mg := rfl
@[simp] theorem setBand_free (s : State) (k : Nat) (v : Band) : (s.setBand k v).free = s.free := rfl
@[simp] theorem modBand_free (s : State) (k : Nat) (v : Band → Band) : (s.modBand k v).free = s.free := rfl
@[simp] theorem setBand_pending (s : State) (k : Nat) (v : Band) : (s.setBand k v).pending = s.pending := rfl
@[simp] theorem modBand_pending (s : State) (k : Nat) (v : Band → Band) : (s.modBand k v).pending = s.pending := rfl

theorem modLcol_eq (s : State) (k : Nat) (g : LightCol → LightCol) : s.modLcol k g = s.setLcol k (g (s.lcol k)) := rfl
@[simp] theorem setLcol_tim (s : State) (k : Nat) (v : LightCol) : (s.setLcol k v).tim = s.tim := rfl
@[simp] theorem modLcol_tim (s : State) (k : Nat) (v : LightCol → LightCol) : (s.modLcol k v).tim = s.tim := rfl
@[simp] theorem setLcol_pins (s : State) (k : Nat) (v : LightCol) : (s.setLcol k v).pins = s.pins := rfl
@[simp] theorem modLcol_pins (s : State) (k : Nat) (v : LightCol → LightCol) : (s.modLcol k v).pins = s.pins := rfl
@[simp] theorem setLcol_fields (s : State) (k : Nat) (v : LightCol) : (s.setLcol k v).fields = s.fields := rfl
@[simp] theorem modLcol_fields (s : State) (k : Nat) (v : LightCol → LightCol) : (s.modLcol k v).fields = s.fields := rfl
@[simp] theorem setLcol_adcs (s : State) (k : Nat) (v : LightCol) : (s.setLcol k v).adcs = s.adcs := rfl
@[simp] theorem modLcol_adcs (s : State) (k : Nat) (v : LightCol → LightCol) : (s.modLcol k v).adcs = s.adcs := rfl
@[simp] theorem setLcol_adcTel (s : State) (k : Nat) (v : LightCol) : (s.setLcol k v).adcTel = s.adcTel := rfl
@[simp] theorem modLcol_adcTel (s : State) (k : Nat) (v : LightCol → LightCol) : (s.modLcol k v).adcTel = s.adcTel := rfl
@[simp] theorem setLcol_taints (s : State) (k : Nat) (v : LightCol) : (s.setLcol k v).taints = s.taints := rfl
@[simp] theorem modLcol_taints (s : State) (k : Nat) (v : LightCol → LightCol) : (s.modLcol k v).taints = s.taints := rfl
@[simp] theorem setLcol_acc (s : State) (k : Nat) (v : LightCol) : (s.setLcol k v).acc = s.acc := rfl
@[simp] theorem modLcol_acc (s : State) (k : Nat) (v : LightCol → LightCol) : (s.modLcol k v).acc = s.acc := rfl
@[simp] theorem setLcol_bands (s : State) (k : Nat) (v : LightCol) : (s.setLcol k v).bands = s.bands := rfl
@[simp] theorem modLcol_bands (s : State) (k : Nat) (v : LightCol → LightCol) : (s.modLcol k v).bands = s.bands := rfl
@[simp] theorem setLcol_cal (s : State) (k : Nat) (v : LightCol) : (s.setLcol k v).cal = s.cal := rfl
@[simp] theorem modLcol_cal (s : State) (k : Nat) (v : LightCol → LightCol) : (s.modLcol k v).cal = s.cal := rfl
@[simp] theorem setLcol_lports (s : State) (k : Nat) (v : LightCol) : (s.setLcol k v).lports = s.lports := rfl
@[simp] theorem modLcol_lports (s : State) (k : Nat) (v : LightCol → LightCol) : (s.modLcol k v).lports = s.lports := rfl
@[simp] theorem setLcol_relays (s : State) (k : Nat) (v : LightCol) : (s.setLcol k v).relays = s.relays := rfl
@[simp] theorem modLcol_relays (s : State) (k : Nat) (v : LightCol → LightCol) : (s.modLcol k v).relays = s.relays := rfl
@[simp] theorem setLcol_light (s : State) (k : Nat) (v : LightCol) : (s.setLcol k v).light = s.light := rfl
@[simp] theorem modLcol_light (s : State) (k : Nat) (v : LightCol → LightCol) : (s.modLcol k v).light = s.light := rfl
@[simp] theorem setLcol_mons (s : State) (k : Nat) (v : LightCol) : (s.setLcol k v).mons = s.mons := rfl
@[simp] theorem modLcol_mons (s : State) (k : Nat) (v : LightCol → LightCol) : (s.modLcol k v).mons = s.mons := rfl
@[simp] theorem setLcol_monLasts (s : State) (k : Nat) (v : LightCol) : (s.setLcol k v).monLasts = s.monLasts := rfl
@[simp] theorem modLcol_monLasts (s : State) (k : Nat) (v : LightCol → LightCol) : (s.modLcol k v).monLasts = s.monLasts := rfl
@[simp] theorem setLcol_ring (s : State) (k : Nat) (v : LightCol) : (s.setLcol k v).ring = s.ring := rfl
@[simp] theorem modLcol_ring (s : State) (k : Nat) (v : LightCol → LightCol) : (s.modLcol k v).ring = s.ring := rfl
@[simp] theorem setLcol_loops (s : State) (k : Nat) (v : LightCol) : (s.setLcol k v).loops = s.loops := rfl
@[simp] theorem modLcol_loops (s : State) (k : Nat) (v : LightCol → LightCol) : (s.modLcol k v).loops = s.loops := rfl
@[simp] theorem setLcol_eng (s : State) (k : Nat) (v : LightCol) : (s.setLcol k v).eng = s.eng := rfl
@[simp] theorem modLcol_eng (s : State) (k : Nat) (v : LightCol → LightCol) : (s.modLcol k v).eng = s.eng := rfl
@[simp] theorem setLcol_streams (s : State) (k : Nat) (v : LightCol) : (s.setLcol k v).streams = s.streams := rfl
@[simp] theorem modLcol_streams (s : State) (k : Nat) (v : LightCol → LightCol) : (s.modLcol k v).streams = s.streams := rfl
@[simp] theorem setLcol_ops (s : State) (k : Nat) (v : LightCol) : (s.setLcol k v).ops = s.ops := rfl
@[simp] theorem modLcol_ops (s : State) (k : Nat) (v : LightCol → LightCol) : (s.modLcol k v).ops = s.ops := rfl
@[simp] theorem setLcol_seq (s : State) (k : Nat) (v : LightCol) : (s.setLcol k v).seq = s.seq := rfl
@[simp] theorem modLcol_seq (s : State) (k : Nat) (v : LightCol → LightCol) : (s.modLcol k v).seq = s.seq := rfl
@[simp] theorem setLcol_tokens (s : State) (k : Nat) (v : LightCol) : (s.setLcol k v).tokens = s.tokens := rfl
@[simp] theorem modLcol_tokens (s : State) (k : Nat) (v : LightCol → LightCol) : (s.modLcol k v).tokens = s.tokens := rfl
@[simp] theorem setLcol_rowMaps (s : State) (k : Nat) (v : LightCol) : (s.setLcol k v).rowMaps = s.rowMaps := rfl
@[simp] theorem modLcol_rowMaps (s : State) (k : Nat) (v : LightCol → LightCol) : (s.modLcol k v).rowMaps = s.rowMaps := rfl
@[simp] theorem setLcol_manifest (s : State) (k : Nat) (v : LightCol) : (s.setLcol k v).manifest = s.manifest := rfl
@[simp] theorem modLcol_manifest (s : State) (k : Nat) (v : LightCol → LightCol) : (s.modLcol k v).manifest = s.manifest := rfl
@[simp] theorem setLcol_cores (s : State) (k : Nat) (v : LightCol) : (s.setLcol k v).cores = s.cores := rfl
@[simp] theorem modLcol_cores (s : State) (k : Nat) (v : LightCol → LightCol) : (s.modLcol k v).cores = s.cores := rfl
@[simp] theorem setLcol_mem (s : State) (k : Nat) (v : LightCol) : (s.setLcol k v).mem = s.mem := rfl
@[simp] theorem modLcol_mem (s : State) (k : Nat) (v : LightCol → LightCol) : (s.modLcol k v).mem = s.mem := rfl
@[simp] theorem setLcol_poison (s : State) (k : Nat) (v : LightCol) : (s.setLcol k v).poison = s.poison := rfl
@[simp] theorem modLcol_poison (s : State) (k : Nat) (v : LightCol → LightCol) : (s.modLcol k v).poison = s.poison := rfl
@[simp] theorem setLcol_errs (s : State) (k : Nat) (v : LightCol) : (s.setLcol k v).errs = s.errs := rfl
@[simp] theorem modLcol_errs (s : State) (k : Nat) (v : LightCol → LightCol) : (s.modLcol k v).errs = s.errs := rfl
@[simp] theorem setLcol_units (s : State) (k : Nat) (v : LightCol) : (s.setLcol k v).units = s.units := rfl
@[simp] theorem modLcol_units (s : State) (k : Nat) (v : LightCol → LightCol) : (s.modLcol k v).units = s.units := rfl
@[simp] theorem setLcol_regions (s : State) (k : Nat) (v : LightCol) : (s.setLcol k v).regions = s.regions := rfl
@[simp] theorem modLcol_regions (s : State) (k : Nat) (v : LightCol → LightCol) : (s.modLcol k v).regions = s.regions := rfl
@[simp] theorem setLcol_memTop (s : State) (k : Nat) (v : LightCol) : (s.setLcol k v).memTop = s.memTop := rfl
@[simp] theorem modLcol_memTop (s : State) (k : Nat) (v : LightCol → LightCol) : (s.modLcol k v).memTop = s.memTop := rfl
@[simp] theorem setLcol_dir (s : State) (k : Nat) (v : LightCol) : (s.setLcol k v).dir = s.dir := rfl
@[simp] theorem modLcol_dir (s : State) (k : Nat) (v : LightCol → LightCol) : (s.modLcol k v).dir = s.dir := rfl
@[simp] theorem setLcol_ctxs (s : State) (k : Nat) (v : LightCol) : (s.setLcol k v).ctxs = s.ctxs := rfl
@[simp] theorem modLcol_ctxs (s : State) (k : Nat) (v : LightCol → LightCol) : (s.modLcol k v).ctxs = s.ctxs := rfl
@[simp] theorem setLcol_swaps (s : State) (k : Nat) (v : LightCol) : (s.setLcol k v).swaps = s.swaps := rfl
@[simp] theorem modLcol_swaps (s : State) (k : Nat) (v : LightCol → LightCol) : (s.modLcol k v).swaps = s.swaps := rfl
@[simp] theorem setLcol_wts (s : State) (k : Nat) (v : LightCol) : (s.setLcol k v).wts = s.wts := rfl
@[simp] theorem modLcol_wts (s : State) (k : Nat) (v : LightCol → LightCol) : (s.modLcol k v).wts = s.wts := rfl
@[simp] theorem setLcol_netLinks (s : State) (k : Nat) (v : LightCol) : (s.setLcol k v).netLinks = s.netLinks := rfl
@[simp] theorem modLcol_netLinks (s : State) (k : Nat) (v : LightCol → LightCol) : (s.modLcol k v).netLinks = s.netLinks := rfl
@[simp] theorem setLcol_parts (s : State) (k : Nat) (v : LightCol) : (s.setLcol k v).parts = s.parts := rfl
@[simp] theorem modLcol_parts (s : State) (k : Nat) (v : LightCol → LightCol) : (s.modLcol k v).parts = s.parts := rfl
@[simp] theorem setLcol_net (s : State) (k : Nat) (v : LightCol) : (s.setLcol k v).net = s.net := rfl
@[simp] theorem modLcol_net (s : State) (k : Nat) (v : LightCol → LightCol) : (s.modLcol k v).net = s.net := rfl
@[simp] theorem setLcol_netBufs (s : State) (k : Nat) (v : LightCol) : (s.setLcol k v).netBufs = s.netBufs := rfl
@[simp] theorem modLcol_netBufs (s : State) (k : Nat) (v : LightCol → LightCol) : (s.modLcol k v).netBufs = s.netBufs := rfl
@[simp] theorem setLcol_ports (s : State) (k : Nat) (v : LightCol) : (s.setLcol k v).ports = s.ports := rfl
@[simp] theorem modLcol_ports (s : State) (k : Nat) (v : LightCol → LightCol) : (s.modLcol k v).ports = s.ports := rfl
@[simp] theorem setLcol_link (s : State) (k : Nat) (v : LightCol) : (s.setLcol k v).link = s.link := rfl
@[simp] theorem modLcol_link (s : State) (k : Nat) (v : LightCol → LightCol) : (s.modLcol k v).link = s.link := rfl
@[simp] theorem setLcol_mbs (s : State) (k : Nat) (v : LightCol) : (s.setLcol k v).mbs = s.mbs := rfl
@[simp] theorem modLcol_mbs (s : State) (k : Nat) (v : LightCol → LightCol) : (s.modLcol k v).mbs = s.mbs := rfl
@[simp] theorem setLcol_cmds (s : State) (k : Nat) (v : LightCol) : (s.setLcol k v).cmds = s.cmds := rfl
@[simp] theorem modLcol_cmds (s : State) (k : Nat) (v : LightCol → LightCol) : (s.modLcol k v).cmds = s.cmds := rfl
@[simp] theorem setLcol_stw (s : State) (k : Nat) (v : LightCol) : (s.setLcol k v).stw = s.stw := rfl
@[simp] theorem modLcol_stw (s : State) (k : Nat) (v : LightCol → LightCol) : (s.modLcol k v).stw = s.stw := rfl
@[simp] theorem setLcol_hostMem (s : State) (k : Nat) (v : LightCol) : (s.setLcol k v).hostMem = s.hostMem := rfl
@[simp] theorem modLcol_hostMem (s : State) (k : Nat) (v : LightCol → LightCol) : (s.modLcol k v).hostMem = s.hostMem := rfl
@[simp] theorem setLcol_bu (s : State) (k : Nat) (v : LightCol) : (s.setLcol k v).bu = s.bu := rfl
@[simp] theorem modLcol_bu (s : State) (k : Nat) (v : LightCol → LightCol) : (s.modLcol k v).bu = s.bu := rfl
@[simp] theorem setLcol_pwr (s : State) (k : Nat) (v : LightCol) : (s.setLcol k v).pwr = s.pwr := rfl
@[simp] theorem modLcol_pwr (s : State) (k : Nat) (v : LightCol → LightCol) : (s.modLcol k v).pwr = s.pwr := rfl
@[simp] theorem setLcol_sensors (s : State) (k : Nat) (v : LightCol) : (s.setLcol k v).sensors = s.sensors := rfl
@[simp] theorem modLcol_sensors (s : State) (k : Nat) (v : LightCol → LightCol) : (s.modLcol k v).sensors = s.sensors := rfl
@[simp] theorem setLcol_dies (s : State) (k : Nat) (v : LightCol) : (s.setLcol k v).dies = s.dies := rfl
@[simp] theorem modLcol_dies (s : State) (k : Nat) (v : LightCol → LightCol) : (s.modLcol k v).dies = s.dies := rfl
@[simp] theorem setLcol_thm (s : State) (k : Nat) (v : LightCol) : (s.setLcol k v).thm = s.thm := rfl
@[simp] theorem modLcol_thm (s : State) (k : Nat) (v : LightCol → LightCol) : (s.modLcol k v).thm = s.thm := rfl
@[simp] theorem setLcol_exts (s : State) (k : Nat) (v : LightCol) : (s.setLcol k v).exts = s.exts := rfl
@[simp] theorem modLcol_exts (s : State) (k : Nat) (v : LightCol → LightCol) : (s.modLcol k v).exts = s.exts := rfl
@[simp] theorem setLcol_flt (s : State) (k : Nat) (v : LightCol) : (s.setLcol k v).flt = s.flt := rfl
@[simp] theorem modLcol_flt (s : State) (k : Nat) (v : LightCol → LightCol) : (s.modLcol k v).flt = s.flt := rfl
@[simp] theorem setLcol_sec (s : State) (k : Nat) (v : LightCol) : (s.setLcol k v).sec = s.sec := rfl
@[simp] theorem modLcol_sec (s : State) (k : Nat) (v : LightCol → LightCol) : (s.modLcol k v).sec = s.sec := rfl
@[simp] theorem setLcol_mg (s : State) (k : Nat) (v : LightCol) : (s.setLcol k v).mg = s.mg := rfl
@[simp] theorem modLcol_mg (s : State) (k : Nat) (v : LightCol → LightCol) : (s.modLcol k v).mg = s.mg := rfl
@[simp] theorem setLcol_free (s : State) (k : Nat) (v : LightCol) : (s.setLcol k v).free = s.free := rfl
@[simp] theorem modLcol_free (s : State) (k : Nat) (v : LightCol → LightCol) : (s.modLcol k v).free = s.free := rfl
@[simp] theorem setLcol_pending (s : State) (k : Nat) (v : LightCol) : (s.setLcol k v).pending = s.pending := rfl
@[simp] theorem modLcol_pending (s : State) (k : Nat) (v : LightCol → LightCol) : (s.modLcol k v).pending = s.pending := rfl

theorem modLport_eq (s : State) (k : Nat) (g : LightPort → LightPort) : s.modLport k g = s.setLport k (g (s.lport k)) := rfl
@[simp] theorem setLport_tim (s : State) (k : Nat) (v : LightPort) : (s.setLport k v).tim = s.tim := rfl
@[simp] theorem modLport_tim (s : State) (k : Nat) (v : LightPort → LightPort) : (s.modLport k v).tim = s.tim := rfl
@[simp] theorem setLport_pins (s : State) (k : Nat) (v : LightPort) : (s.setLport k v).pins = s.pins := rfl
@[simp] theorem modLport_pins (s : State) (k : Nat) (v : LightPort → LightPort) : (s.modLport k v).pins = s.pins := rfl
@[simp] theorem setLport_fields (s : State) (k : Nat) (v : LightPort) : (s.setLport k v).fields = s.fields := rfl
@[simp] theorem modLport_fields (s : State) (k : Nat) (v : LightPort → LightPort) : (s.modLport k v).fields = s.fields := rfl
@[simp] theorem setLport_adcs (s : State) (k : Nat) (v : LightPort) : (s.setLport k v).adcs = s.adcs := rfl
@[simp] theorem modLport_adcs (s : State) (k : Nat) (v : LightPort → LightPort) : (s.modLport k v).adcs = s.adcs := rfl
@[simp] theorem setLport_adcTel (s : State) (k : Nat) (v : LightPort) : (s.setLport k v).adcTel = s.adcTel := rfl
@[simp] theorem modLport_adcTel (s : State) (k : Nat) (v : LightPort → LightPort) : (s.modLport k v).adcTel = s.adcTel := rfl
@[simp] theorem setLport_taints (s : State) (k : Nat) (v : LightPort) : (s.setLport k v).taints = s.taints := rfl
@[simp] theorem modLport_taints (s : State) (k : Nat) (v : LightPort → LightPort) : (s.modLport k v).taints = s.taints := rfl
@[simp] theorem setLport_acc (s : State) (k : Nat) (v : LightPort) : (s.setLport k v).acc = s.acc := rfl
@[simp] theorem modLport_acc (s : State) (k : Nat) (v : LightPort → LightPort) : (s.modLport k v).acc = s.acc := rfl
@[simp] theorem setLport_bands (s : State) (k : Nat) (v : LightPort) : (s.setLport k v).bands = s.bands := rfl
@[simp] theorem modLport_bands (s : State) (k : Nat) (v : LightPort → LightPort) : (s.modLport k v).bands = s.bands := rfl
@[simp] theorem setLport_cal (s : State) (k : Nat) (v : LightPort) : (s.setLport k v).cal = s.cal := rfl
@[simp] theorem modLport_cal (s : State) (k : Nat) (v : LightPort → LightPort) : (s.modLport k v).cal = s.cal := rfl
@[simp] theorem setLport_lcols (s : State) (k : Nat) (v : LightPort) : (s.setLport k v).lcols = s.lcols := rfl
@[simp] theorem modLport_lcols (s : State) (k : Nat) (v : LightPort → LightPort) : (s.modLport k v).lcols = s.lcols := rfl
@[simp] theorem setLport_relays (s : State) (k : Nat) (v : LightPort) : (s.setLport k v).relays = s.relays := rfl
@[simp] theorem modLport_relays (s : State) (k : Nat) (v : LightPort → LightPort) : (s.modLport k v).relays = s.relays := rfl
@[simp] theorem setLport_light (s : State) (k : Nat) (v : LightPort) : (s.setLport k v).light = s.light := rfl
@[simp] theorem modLport_light (s : State) (k : Nat) (v : LightPort → LightPort) : (s.modLport k v).light = s.light := rfl
@[simp] theorem setLport_mons (s : State) (k : Nat) (v : LightPort) : (s.setLport k v).mons = s.mons := rfl
@[simp] theorem modLport_mons (s : State) (k : Nat) (v : LightPort → LightPort) : (s.modLport k v).mons = s.mons := rfl
@[simp] theorem setLport_monLasts (s : State) (k : Nat) (v : LightPort) : (s.setLport k v).monLasts = s.monLasts := rfl
@[simp] theorem modLport_monLasts (s : State) (k : Nat) (v : LightPort → LightPort) : (s.modLport k v).monLasts = s.monLasts := rfl
@[simp] theorem setLport_ring (s : State) (k : Nat) (v : LightPort) : (s.setLport k v).ring = s.ring := rfl
@[simp] theorem modLport_ring (s : State) (k : Nat) (v : LightPort → LightPort) : (s.modLport k v).ring = s.ring := rfl
@[simp] theorem setLport_loops (s : State) (k : Nat) (v : LightPort) : (s.setLport k v).loops = s.loops := rfl
@[simp] theorem modLport_loops (s : State) (k : Nat) (v : LightPort → LightPort) : (s.modLport k v).loops = s.loops := rfl
@[simp] theorem setLport_eng (s : State) (k : Nat) (v : LightPort) : (s.setLport k v).eng = s.eng := rfl
@[simp] theorem modLport_eng (s : State) (k : Nat) (v : LightPort → LightPort) : (s.modLport k v).eng = s.eng := rfl
@[simp] theorem setLport_streams (s : State) (k : Nat) (v : LightPort) : (s.setLport k v).streams = s.streams := rfl
@[simp] theorem modLport_streams (s : State) (k : Nat) (v : LightPort → LightPort) : (s.modLport k v).streams = s.streams := rfl
@[simp] theorem setLport_ops (s : State) (k : Nat) (v : LightPort) : (s.setLport k v).ops = s.ops := rfl
@[simp] theorem modLport_ops (s : State) (k : Nat) (v : LightPort → LightPort) : (s.modLport k v).ops = s.ops := rfl
@[simp] theorem setLport_seq (s : State) (k : Nat) (v : LightPort) : (s.setLport k v).seq = s.seq := rfl
@[simp] theorem modLport_seq (s : State) (k : Nat) (v : LightPort → LightPort) : (s.modLport k v).seq = s.seq := rfl
@[simp] theorem setLport_tokens (s : State) (k : Nat) (v : LightPort) : (s.setLport k v).tokens = s.tokens := rfl
@[simp] theorem modLport_tokens (s : State) (k : Nat) (v : LightPort → LightPort) : (s.modLport k v).tokens = s.tokens := rfl
@[simp] theorem setLport_rowMaps (s : State) (k : Nat) (v : LightPort) : (s.setLport k v).rowMaps = s.rowMaps := rfl
@[simp] theorem modLport_rowMaps (s : State) (k : Nat) (v : LightPort → LightPort) : (s.modLport k v).rowMaps = s.rowMaps := rfl
@[simp] theorem setLport_manifest (s : State) (k : Nat) (v : LightPort) : (s.setLport k v).manifest = s.manifest := rfl
@[simp] theorem modLport_manifest (s : State) (k : Nat) (v : LightPort → LightPort) : (s.modLport k v).manifest = s.manifest := rfl
@[simp] theorem setLport_cores (s : State) (k : Nat) (v : LightPort) : (s.setLport k v).cores = s.cores := rfl
@[simp] theorem modLport_cores (s : State) (k : Nat) (v : LightPort → LightPort) : (s.modLport k v).cores = s.cores := rfl
@[simp] theorem setLport_mem (s : State) (k : Nat) (v : LightPort) : (s.setLport k v).mem = s.mem := rfl
@[simp] theorem modLport_mem (s : State) (k : Nat) (v : LightPort → LightPort) : (s.modLport k v).mem = s.mem := rfl
@[simp] theorem setLport_poison (s : State) (k : Nat) (v : LightPort) : (s.setLport k v).poison = s.poison := rfl
@[simp] theorem modLport_poison (s : State) (k : Nat) (v : LightPort → LightPort) : (s.modLport k v).poison = s.poison := rfl
@[simp] theorem setLport_errs (s : State) (k : Nat) (v : LightPort) : (s.setLport k v).errs = s.errs := rfl
@[simp] theorem modLport_errs (s : State) (k : Nat) (v : LightPort → LightPort) : (s.modLport k v).errs = s.errs := rfl
@[simp] theorem setLport_units (s : State) (k : Nat) (v : LightPort) : (s.setLport k v).units = s.units := rfl
@[simp] theorem modLport_units (s : State) (k : Nat) (v : LightPort → LightPort) : (s.modLport k v).units = s.units := rfl
@[simp] theorem setLport_regions (s : State) (k : Nat) (v : LightPort) : (s.setLport k v).regions = s.regions := rfl
@[simp] theorem modLport_regions (s : State) (k : Nat) (v : LightPort → LightPort) : (s.modLport k v).regions = s.regions := rfl
@[simp] theorem setLport_memTop (s : State) (k : Nat) (v : LightPort) : (s.setLport k v).memTop = s.memTop := rfl
@[simp] theorem modLport_memTop (s : State) (k : Nat) (v : LightPort → LightPort) : (s.modLport k v).memTop = s.memTop := rfl
@[simp] theorem setLport_dir (s : State) (k : Nat) (v : LightPort) : (s.setLport k v).dir = s.dir := rfl
@[simp] theorem modLport_dir (s : State) (k : Nat) (v : LightPort → LightPort) : (s.modLport k v).dir = s.dir := rfl
@[simp] theorem setLport_ctxs (s : State) (k : Nat) (v : LightPort) : (s.setLport k v).ctxs = s.ctxs := rfl
@[simp] theorem modLport_ctxs (s : State) (k : Nat) (v : LightPort → LightPort) : (s.modLport k v).ctxs = s.ctxs := rfl
@[simp] theorem setLport_swaps (s : State) (k : Nat) (v : LightPort) : (s.setLport k v).swaps = s.swaps := rfl
@[simp] theorem modLport_swaps (s : State) (k : Nat) (v : LightPort → LightPort) : (s.modLport k v).swaps = s.swaps := rfl
@[simp] theorem setLport_wts (s : State) (k : Nat) (v : LightPort) : (s.setLport k v).wts = s.wts := rfl
@[simp] theorem modLport_wts (s : State) (k : Nat) (v : LightPort → LightPort) : (s.modLport k v).wts = s.wts := rfl
@[simp] theorem setLport_netLinks (s : State) (k : Nat) (v : LightPort) : (s.setLport k v).netLinks = s.netLinks := rfl
@[simp] theorem modLport_netLinks (s : State) (k : Nat) (v : LightPort → LightPort) : (s.modLport k v).netLinks = s.netLinks := rfl
@[simp] theorem setLport_parts (s : State) (k : Nat) (v : LightPort) : (s.setLport k v).parts = s.parts := rfl
@[simp] theorem modLport_parts (s : State) (k : Nat) (v : LightPort → LightPort) : (s.modLport k v).parts = s.parts := rfl
@[simp] theorem setLport_net (s : State) (k : Nat) (v : LightPort) : (s.setLport k v).net = s.net := rfl
@[simp] theorem modLport_net (s : State) (k : Nat) (v : LightPort → LightPort) : (s.modLport k v).net = s.net := rfl
@[simp] theorem setLport_netBufs (s : State) (k : Nat) (v : LightPort) : (s.setLport k v).netBufs = s.netBufs := rfl
@[simp] theorem modLport_netBufs (s : State) (k : Nat) (v : LightPort → LightPort) : (s.modLport k v).netBufs = s.netBufs := rfl
@[simp] theorem setLport_ports (s : State) (k : Nat) (v : LightPort) : (s.setLport k v).ports = s.ports := rfl
@[simp] theorem modLport_ports (s : State) (k : Nat) (v : LightPort → LightPort) : (s.modLport k v).ports = s.ports := rfl
@[simp] theorem setLport_link (s : State) (k : Nat) (v : LightPort) : (s.setLport k v).link = s.link := rfl
@[simp] theorem modLport_link (s : State) (k : Nat) (v : LightPort → LightPort) : (s.modLport k v).link = s.link := rfl
@[simp] theorem setLport_mbs (s : State) (k : Nat) (v : LightPort) : (s.setLport k v).mbs = s.mbs := rfl
@[simp] theorem modLport_mbs (s : State) (k : Nat) (v : LightPort → LightPort) : (s.modLport k v).mbs = s.mbs := rfl
@[simp] theorem setLport_cmds (s : State) (k : Nat) (v : LightPort) : (s.setLport k v).cmds = s.cmds := rfl
@[simp] theorem modLport_cmds (s : State) (k : Nat) (v : LightPort → LightPort) : (s.modLport k v).cmds = s.cmds := rfl
@[simp] theorem setLport_stw (s : State) (k : Nat) (v : LightPort) : (s.setLport k v).stw = s.stw := rfl
@[simp] theorem modLport_stw (s : State) (k : Nat) (v : LightPort → LightPort) : (s.modLport k v).stw = s.stw := rfl
@[simp] theorem setLport_hostMem (s : State) (k : Nat) (v : LightPort) : (s.setLport k v).hostMem = s.hostMem := rfl
@[simp] theorem modLport_hostMem (s : State) (k : Nat) (v : LightPort → LightPort) : (s.modLport k v).hostMem = s.hostMem := rfl
@[simp] theorem setLport_bu (s : State) (k : Nat) (v : LightPort) : (s.setLport k v).bu = s.bu := rfl
@[simp] theorem modLport_bu (s : State) (k : Nat) (v : LightPort → LightPort) : (s.modLport k v).bu = s.bu := rfl
@[simp] theorem setLport_pwr (s : State) (k : Nat) (v : LightPort) : (s.setLport k v).pwr = s.pwr := rfl
@[simp] theorem modLport_pwr (s : State) (k : Nat) (v : LightPort → LightPort) : (s.modLport k v).pwr = s.pwr := rfl
@[simp] theorem setLport_sensors (s : State) (k : Nat) (v : LightPort) : (s.setLport k v).sensors = s.sensors := rfl
@[simp] theorem modLport_sensors (s : State) (k : Nat) (v : LightPort → LightPort) : (s.modLport k v).sensors = s.sensors := rfl
@[simp] theorem setLport_dies (s : State) (k : Nat) (v : LightPort) : (s.setLport k v).dies = s.dies := rfl
@[simp] theorem modLport_dies (s : State) (k : Nat) (v : LightPort → LightPort) : (s.modLport k v).dies = s.dies := rfl
@[simp] theorem setLport_thm (s : State) (k : Nat) (v : LightPort) : (s.setLport k v).thm = s.thm := rfl
@[simp] theorem modLport_thm (s : State) (k : Nat) (v : LightPort → LightPort) : (s.modLport k v).thm = s.thm := rfl
@[simp] theorem setLport_exts (s : State) (k : Nat) (v : LightPort) : (s.setLport k v).exts = s.exts := rfl
@[simp] theorem modLport_exts (s : State) (k : Nat) (v : LightPort → LightPort) : (s.modLport k v).exts = s.exts := rfl
@[simp] theorem setLport_flt (s : State) (k : Nat) (v : LightPort) : (s.setLport k v).flt = s.flt := rfl
@[simp] theorem modLport_flt (s : State) (k : Nat) (v : LightPort → LightPort) : (s.modLport k v).flt = s.flt := rfl
@[simp] theorem setLport_sec (s : State) (k : Nat) (v : LightPort) : (s.setLport k v).sec = s.sec := rfl
@[simp] theorem modLport_sec (s : State) (k : Nat) (v : LightPort → LightPort) : (s.modLport k v).sec = s.sec := rfl
@[simp] theorem setLport_mg (s : State) (k : Nat) (v : LightPort) : (s.setLport k v).mg = s.mg := rfl
@[simp] theorem modLport_mg (s : State) (k : Nat) (v : LightPort → LightPort) : (s.modLport k v).mg = s.mg := rfl
@[simp] theorem setLport_free (s : State) (k : Nat) (v : LightPort) : (s.setLport k v).free = s.free := rfl
@[simp] theorem modLport_free (s : State) (k : Nat) (v : LightPort → LightPort) : (s.modLport k v).free = s.free := rfl
@[simp] theorem setLport_pending (s : State) (k : Nat) (v : LightPort) : (s.setLport k v).pending = s.pending := rfl
@[simp] theorem modLport_pending (s : State) (k : Nat) (v : LightPort → LightPort) : (s.modLport k v).pending = s.pending := rfl

theorem modRelay_eq (s : State) (k : Nat) (g : Relay → Relay) : s.modRelay k g = s.setRelay k (g (s.relay k)) := rfl
@[simp] theorem setRelay_tim (s : State) (k : Nat) (v : Relay) : (s.setRelay k v).tim = s.tim := rfl
@[simp] theorem modRelay_tim (s : State) (k : Nat) (v : Relay → Relay) : (s.modRelay k v).tim = s.tim := rfl
@[simp] theorem setRelay_pins (s : State) (k : Nat) (v : Relay) : (s.setRelay k v).pins = s.pins := rfl
@[simp] theorem modRelay_pins (s : State) (k : Nat) (v : Relay → Relay) : (s.modRelay k v).pins = s.pins := rfl
@[simp] theorem setRelay_fields (s : State) (k : Nat) (v : Relay) : (s.setRelay k v).fields = s.fields := rfl
@[simp] theorem modRelay_fields (s : State) (k : Nat) (v : Relay → Relay) : (s.modRelay k v).fields = s.fields := rfl
@[simp] theorem setRelay_adcs (s : State) (k : Nat) (v : Relay) : (s.setRelay k v).adcs = s.adcs := rfl
@[simp] theorem modRelay_adcs (s : State) (k : Nat) (v : Relay → Relay) : (s.modRelay k v).adcs = s.adcs := rfl
@[simp] theorem setRelay_adcTel (s : State) (k : Nat) (v : Relay) : (s.setRelay k v).adcTel = s.adcTel := rfl
@[simp] theorem modRelay_adcTel (s : State) (k : Nat) (v : Relay → Relay) : (s.modRelay k v).adcTel = s.adcTel := rfl
@[simp] theorem setRelay_taints (s : State) (k : Nat) (v : Relay) : (s.setRelay k v).taints = s.taints := rfl
@[simp] theorem modRelay_taints (s : State) (k : Nat) (v : Relay → Relay) : (s.modRelay k v).taints = s.taints := rfl
@[simp] theorem setRelay_acc (s : State) (k : Nat) (v : Relay) : (s.setRelay k v).acc = s.acc := rfl
@[simp] theorem modRelay_acc (s : State) (k : Nat) (v : Relay → Relay) : (s.modRelay k v).acc = s.acc := rfl
@[simp] theorem setRelay_bands (s : State) (k : Nat) (v : Relay) : (s.setRelay k v).bands = s.bands := rfl
@[simp] theorem modRelay_bands (s : State) (k : Nat) (v : Relay → Relay) : (s.modRelay k v).bands = s.bands := rfl
@[simp] theorem setRelay_cal (s : State) (k : Nat) (v : Relay) : (s.setRelay k v).cal = s.cal := rfl
@[simp] theorem modRelay_cal (s : State) (k : Nat) (v : Relay → Relay) : (s.modRelay k v).cal = s.cal := rfl
@[simp] theorem setRelay_lcols (s : State) (k : Nat) (v : Relay) : (s.setRelay k v).lcols = s.lcols := rfl
@[simp] theorem modRelay_lcols (s : State) (k : Nat) (v : Relay → Relay) : (s.modRelay k v).lcols = s.lcols := rfl
@[simp] theorem setRelay_lports (s : State) (k : Nat) (v : Relay) : (s.setRelay k v).lports = s.lports := rfl
@[simp] theorem modRelay_lports (s : State) (k : Nat) (v : Relay → Relay) : (s.modRelay k v).lports = s.lports := rfl
@[simp] theorem setRelay_light (s : State) (k : Nat) (v : Relay) : (s.setRelay k v).light = s.light := rfl
@[simp] theorem modRelay_light (s : State) (k : Nat) (v : Relay → Relay) : (s.modRelay k v).light = s.light := rfl
@[simp] theorem setRelay_mons (s : State) (k : Nat) (v : Relay) : (s.setRelay k v).mons = s.mons := rfl
@[simp] theorem modRelay_mons (s : State) (k : Nat) (v : Relay → Relay) : (s.modRelay k v).mons = s.mons := rfl
@[simp] theorem setRelay_monLasts (s : State) (k : Nat) (v : Relay) : (s.setRelay k v).monLasts = s.monLasts := rfl
@[simp] theorem modRelay_monLasts (s : State) (k : Nat) (v : Relay → Relay) : (s.modRelay k v).monLasts = s.monLasts := rfl
@[simp] theorem setRelay_ring (s : State) (k : Nat) (v : Relay) : (s.setRelay k v).ring = s.ring := rfl
@[simp] theorem modRelay_ring (s : State) (k : Nat) (v : Relay → Relay) : (s.modRelay k v).ring = s.ring := rfl
@[simp] theorem setRelay_loops (s : State) (k : Nat) (v : Relay) : (s.setRelay k v).loops = s.loops := rfl
@[simp] theorem modRelay_loops (s : State) (k : Nat) (v : Relay → Relay) : (s.modRelay k v).loops = s.loops := rfl
@[simp] theorem setRelay_eng (s : State) (k : Nat) (v : Relay) : (s.setRelay k v).eng = s.eng := rfl
@[simp] theorem modRelay_eng (s : State) (k : Nat) (v : Relay → Relay) : (s.modRelay k v).eng = s.eng := rfl
@[simp] theorem setRelay_streams (s : State) (k : Nat) (v : Relay) : (s.setRelay k v).streams = s.streams := rfl
@[simp] theorem modRelay_streams (s : State) (k : Nat) (v : Relay → Relay) : (s.modRelay k v).streams = s.streams := rfl
@[simp] theorem setRelay_ops (s : State) (k : Nat) (v : Relay) : (s.setRelay k v).ops = s.ops := rfl
@[simp] theorem modRelay_ops (s : State) (k : Nat) (v : Relay → Relay) : (s.modRelay k v).ops = s.ops := rfl
@[simp] theorem setRelay_seq (s : State) (k : Nat) (v : Relay) : (s.setRelay k v).seq = s.seq := rfl
@[simp] theorem modRelay_seq (s : State) (k : Nat) (v : Relay → Relay) : (s.modRelay k v).seq = s.seq := rfl
@[simp] theorem setRelay_tokens (s : State) (k : Nat) (v : Relay) : (s.setRelay k v).tokens = s.tokens := rfl
@[simp] theorem modRelay_tokens (s : State) (k : Nat) (v : Relay → Relay) : (s.modRelay k v).tokens = s.tokens := rfl
@[simp] theorem setRelay_rowMaps (s : State) (k : Nat) (v : Relay) : (s.setRelay k v).rowMaps = s.rowMaps := rfl
@[simp] theorem modRelay_rowMaps (s : State) (k : Nat) (v : Relay → Relay) : (s.modRelay k v).rowMaps = s.rowMaps := rfl
@[simp] theorem setRelay_manifest (s : State) (k : Nat) (v : Relay) : (s.setRelay k v).manifest = s.manifest := rfl
@[simp] theorem modRelay_manifest (s : State) (k : Nat) (v : Relay → Relay) : (s.modRelay k v).manifest = s.manifest := rfl
@[simp] theorem setRelay_cores (s : State) (k : Nat) (v : Relay) : (s.setRelay k v).cores = s.cores := rfl
@[simp] theorem modRelay_cores (s : State) (k : Nat) (v : Relay → Relay) : (s.modRelay k v).cores = s.cores := rfl
@[simp] theorem setRelay_mem (s : State) (k : Nat) (v : Relay) : (s.setRelay k v).mem = s.mem := rfl
@[simp] theorem modRelay_mem (s : State) (k : Nat) (v : Relay → Relay) : (s.modRelay k v).mem = s.mem := rfl
@[simp] theorem setRelay_poison (s : State) (k : Nat) (v : Relay) : (s.setRelay k v).poison = s.poison := rfl
@[simp] theorem modRelay_poison (s : State) (k : Nat) (v : Relay → Relay) : (s.modRelay k v).poison = s.poison := rfl
@[simp] theorem setRelay_errs (s : State) (k : Nat) (v : Relay) : (s.setRelay k v).errs = s.errs := rfl
@[simp] theorem modRelay_errs (s : State) (k : Nat) (v : Relay → Relay) : (s.modRelay k v).errs = s.errs := rfl
@[simp] theorem setRelay_units (s : State) (k : Nat) (v : Relay) : (s.setRelay k v).units = s.units := rfl
@[simp] theorem modRelay_units (s : State) (k : Nat) (v : Relay → Relay) : (s.modRelay k v).units = s.units := rfl
@[simp] theorem setRelay_regions (s : State) (k : Nat) (v : Relay) : (s.setRelay k v).regions = s.regions := rfl
@[simp] theorem modRelay_regions (s : State) (k : Nat) (v : Relay → Relay) : (s.modRelay k v).regions = s.regions := rfl
@[simp] theorem setRelay_memTop (s : State) (k : Nat) (v : Relay) : (s.setRelay k v).memTop = s.memTop := rfl
@[simp] theorem modRelay_memTop (s : State) (k : Nat) (v : Relay → Relay) : (s.modRelay k v).memTop = s.memTop := rfl
@[simp] theorem setRelay_dir (s : State) (k : Nat) (v : Relay) : (s.setRelay k v).dir = s.dir := rfl
@[simp] theorem modRelay_dir (s : State) (k : Nat) (v : Relay → Relay) : (s.modRelay k v).dir = s.dir := rfl
@[simp] theorem setRelay_ctxs (s : State) (k : Nat) (v : Relay) : (s.setRelay k v).ctxs = s.ctxs := rfl
@[simp] theorem modRelay_ctxs (s : State) (k : Nat) (v : Relay → Relay) : (s.modRelay k v).ctxs = s.ctxs := rfl
@[simp] theorem setRelay_swaps (s : State) (k : Nat) (v : Relay) : (s.setRelay k v).swaps = s.swaps := rfl
@[simp] theorem modRelay_swaps (s : State) (k : Nat) (v : Relay → Relay) : (s.modRelay k v).swaps = s.swaps := rfl
@[simp] theorem setRelay_wts (s : State) (k : Nat) (v : Relay) : (s.setRelay k v).wts = s.wts := rfl
@[simp] theorem modRelay_wts (s : State) (k : Nat) (v : Relay → Relay) : (s.modRelay k v).wts = s.wts := rfl
@[simp] theorem setRelay_netLinks (s : State) (k : Nat) (v : Relay) : (s.setRelay k v).netLinks = s.netLinks := rfl
@[simp] theorem modRelay_netLinks (s : State) (k : Nat) (v : Relay → Relay) : (s.modRelay k v).netLinks = s.netLinks := rfl
@[simp] theorem setRelay_parts (s : State) (k : Nat) (v : Relay) : (s.setRelay k v).parts = s.parts := rfl
@[simp] theorem modRelay_parts (s : State) (k : Nat) (v : Relay → Relay) : (s.modRelay k v).parts = s.parts := rfl
@[simp] theorem setRelay_net (s : State) (k : Nat) (v : Relay) : (s.setRelay k v).net = s.net := rfl
@[simp] theorem modRelay_net (s : State) (k : Nat) (v : Relay → Relay) : (s.modRelay k v).net = s.net := rfl
@[simp] theorem setRelay_netBufs (s : State) (k : Nat) (v : Relay) : (s.setRelay k v).netBufs = s.netBufs := rfl
@[simp] theorem modRelay_netBufs (s : State) (k : Nat) (v : Relay → Relay) : (s.modRelay k v).netBufs = s.netBufs := rfl
@[simp] theorem setRelay_ports (s : State) (k : Nat) (v : Relay) : (s.setRelay k v).ports = s.ports := rfl
@[simp] theorem modRelay_ports (s : State) (k : Nat) (v : Relay → Relay) : (s.modRelay k v).ports = s.ports := rfl
@[simp] theorem setRelay_link (s : State) (k : Nat) (v : Relay) : (s.setRelay k v).link = s.link := rfl
@[simp] theorem modRelay_link (s : State) (k : Nat) (v : Relay → Relay) : (s.modRelay k v).link = s.link := rfl
@[simp] theorem setRelay_mbs (s : State) (k : Nat) (v : Relay) : (s.setRelay k v).mbs = s.mbs := rfl
@[simp] theorem modRelay_mbs (s : State) (k : Nat) (v : Relay → Relay) : (s.modRelay k v).mbs = s.mbs := rfl
@[simp] theorem setRelay_cmds (s : State) (k : Nat) (v : Relay) : (s.setRelay k v).cmds = s.cmds := rfl
@[simp] theorem modRelay_cmds (s : State) (k : Nat) (v : Relay → Relay) : (s.modRelay k v).cmds = s.cmds := rfl
@[simp] theorem setRelay_stw (s : State) (k : Nat) (v : Relay) : (s.setRelay k v).stw = s.stw := rfl
@[simp] theorem modRelay_stw (s : State) (k : Nat) (v : Relay → Relay) : (s.modRelay k v).stw = s.stw := rfl
@[simp] theorem setRelay_hostMem (s : State) (k : Nat) (v : Relay) : (s.setRelay k v).hostMem = s.hostMem := rfl
@[simp] theorem modRelay_hostMem (s : State) (k : Nat) (v : Relay → Relay) : (s.modRelay k v).hostMem = s.hostMem := rfl
@[simp] theorem setRelay_bu (s : State) (k : Nat) (v : Relay) : (s.setRelay k v).bu = s.bu := rfl
@[simp] theorem modRelay_bu (s : State) (k : Nat) (v : Relay → Relay) : (s.modRelay k v).bu = s.bu := rfl
@[simp] theorem setRelay_pwr (s : State) (k : Nat) (v : Relay) : (s.setRelay k v).pwr = s.pwr := rfl
@[simp] theorem modRelay_pwr (s : State) (k : Nat) (v : Relay → Relay) : (s.modRelay k v).pwr = s.pwr := rfl
@[simp] theorem setRelay_sensors (s : State) (k : Nat) (v : Relay) : (s.setRelay k v).sensors = s.sensors := rfl
@[simp] theorem modRelay_sensors (s : State) (k : Nat) (v : Relay → Relay) : (s.modRelay k v).sensors = s.sensors := rfl
@[simp] theorem setRelay_dies (s : State) (k : Nat) (v : Relay) : (s.setRelay k v).dies = s.dies := rfl
@[simp] theorem modRelay_dies (s : State) (k : Nat) (v : Relay → Relay) : (s.modRelay k v).dies = s.dies := rfl
@[simp] theorem setRelay_thm (s : State) (k : Nat) (v : Relay) : (s.setRelay k v).thm = s.thm := rfl
@[simp] theorem modRelay_thm (s : State) (k : Nat) (v : Relay → Relay) : (s.modRelay k v).thm = s.thm := rfl
@[simp] theorem setRelay_exts (s : State) (k : Nat) (v : Relay) : (s.setRelay k v).exts = s.exts := rfl
@[simp] theorem modRelay_exts (s : State) (k : Nat) (v : Relay → Relay) : (s.modRelay k v).exts = s.exts := rfl
@[simp] theorem setRelay_flt (s : State) (k : Nat) (v : Relay) : (s.setRelay k v).flt = s.flt := rfl
@[simp] theorem modRelay_flt (s : State) (k : Nat) (v : Relay → Relay) : (s.modRelay k v).flt = s.flt := rfl
@[simp] theorem setRelay_sec (s : State) (k : Nat) (v : Relay) : (s.setRelay k v).sec = s.sec := rfl
@[simp] theorem modRelay_sec (s : State) (k : Nat) (v : Relay → Relay) : (s.modRelay k v).sec = s.sec := rfl
@[simp] theorem setRelay_mg (s : State) (k : Nat) (v : Relay) : (s.setRelay k v).mg = s.mg := rfl
@[simp] theorem modRelay_mg (s : State) (k : Nat) (v : Relay → Relay) : (s.modRelay k v).mg = s.mg := rfl
@[simp] theorem setRelay_free (s : State) (k : Nat) (v : Relay) : (s.setRelay k v).free = s.free := rfl
@[simp] theorem modRelay_free (s : State) (k : Nat) (v : Relay → Relay) : (s.modRelay k v).free = s.free := rfl
@[simp] theorem setRelay_pending (s : State) (k : Nat) (v : Relay) : (s.setRelay k v).pending = s.pending := rfl
@[simp] theorem modRelay_pending (s : State) (k : Nat) (v : Relay → Relay) : (s.modRelay k v).pending = s.pending := rfl

theorem modMon_eq (s : State) (k : Nat) (g : Mon → Mon) : s.modMon k g = s.setMon k (g (s.mon k)) := rfl
@[simp] theorem setMon_tim (s : State) (k : Nat) (v : Mon) : (s.setMon k v).tim = s.tim := rfl
@[simp] theorem modMon_tim (s : State) (k : Nat) (v : Mon → Mon) : (s.modMon k v).tim = s.tim := rfl
@[simp] theorem setMon_pins (s : State) (k : Nat) (v : Mon) : (s.setMon k v).pins = s.pins := rfl
@[simp] theorem modMon_pins (s : State) (k : Nat) (v : Mon → Mon) : (s.modMon k v).pins = s.pins := rfl
@[simp] theorem setMon_fields (s : State) (k : Nat) (v : Mon) : (s.setMon k v).fields = s.fields := rfl
@[simp] theorem modMon_fields (s : State) (k : Nat) (v : Mon → Mon) : (s.modMon k v).fields = s.fields := rfl
@[simp] theorem setMon_adcs (s : State) (k : Nat) (v : Mon) : (s.setMon k v).adcs = s.adcs := rfl
@[simp] theorem modMon_adcs (s : State) (k : Nat) (v : Mon → Mon) : (s.modMon k v).adcs = s.adcs := rfl
@[simp] theorem setMon_adcTel (s : State) (k : Nat) (v : Mon) : (s.setMon k v).adcTel = s.adcTel := rfl
@[simp] theorem modMon_adcTel (s : State) (k : Nat) (v : Mon → Mon) : (s.modMon k v).adcTel = s.adcTel := rfl
@[simp] theorem setMon_taints (s : State) (k : Nat) (v : Mon) : (s.setMon k v).taints = s.taints := rfl
@[simp] theorem modMon_taints (s : State) (k : Nat) (v : Mon → Mon) : (s.modMon k v).taints = s.taints := rfl
@[simp] theorem setMon_acc (s : State) (k : Nat) (v : Mon) : (s.setMon k v).acc = s.acc := rfl
@[simp] theorem modMon_acc (s : State) (k : Nat) (v : Mon → Mon) : (s.modMon k v).acc = s.acc := rfl
@[simp] theorem setMon_bands (s : State) (k : Nat) (v : Mon) : (s.setMon k v).bands = s.bands := rfl
@[simp] theorem modMon_bands (s : State) (k : Nat) (v : Mon → Mon) : (s.modMon k v).bands = s.bands := rfl
@[simp] theorem setMon_cal (s : State) (k : Nat) (v : Mon) : (s.setMon k v).cal = s.cal := rfl
@[simp] theorem modMon_cal (s : State) (k : Nat) (v : Mon → Mon) : (s.modMon k v).cal = s.cal := rfl
@[simp] theorem setMon_lcols (s : State) (k : Nat) (v : Mon) : (s.setMon k v).lcols = s.lcols := rfl
@[simp] theorem modMon_lcols (s : State) (k : Nat) (v : Mon → Mon) : (s.modMon k v).lcols = s.lcols := rfl
@[simp] theorem setMon_lports (s : State) (k : Nat) (v : Mon) : (s.setMon k v).lports = s.lports := rfl
@[simp] theorem modMon_lports (s : State) (k : Nat) (v : Mon → Mon) : (s.modMon k v).lports = s.lports := rfl
@[simp] theorem setMon_relays (s : State) (k : Nat) (v : Mon) : (s.setMon k v).relays = s.relays := rfl
@[simp] theorem modMon_relays (s : State) (k : Nat) (v : Mon → Mon) : (s.modMon k v).relays = s.relays := rfl
@[simp] theorem setMon_light (s : State) (k : Nat) (v : Mon) : (s.setMon k v).light = s.light := rfl
@[simp] theorem modMon_light (s : State) (k : Nat) (v : Mon → Mon) : (s.modMon k v).light = s.light := rfl
@[simp] theorem setMon_monLasts (s : State) (k : Nat) (v : Mon) : (s.setMon k v).monLasts = s.monLasts := rfl
@[simp] theorem modMon_monLasts (s : State) (k : Nat) (v : Mon → Mon) : (s.modMon k v).monLasts = s.monLasts := rfl
@[simp] theorem setMon_ring (s : State) (k : Nat) (v : Mon) : (s.setMon k v).ring = s.ring := rfl
@[simp] theorem modMon_ring (s : State) (k : Nat) (v : Mon → Mon) : (s.modMon k v).ring = s.ring := rfl
@[simp] theorem setMon_loops (s : State) (k : Nat) (v : Mon) : (s.setMon k v).loops = s.loops := rfl
@[simp] theorem modMon_loops (s : State) (k : Nat) (v : Mon → Mon) : (s.modMon k v).loops = s.loops := rfl
@[simp] theorem setMon_eng (s : State) (k : Nat) (v : Mon) : (s.setMon k v).eng = s.eng := rfl
@[simp] theorem modMon_eng (s : State) (k : Nat) (v : Mon → Mon) : (s.modMon k v).eng = s.eng := rfl
@[simp] theorem setMon_streams (s : State) (k : Nat) (v : Mon) : (s.setMon k v).streams = s.streams := rfl
@[simp] theorem modMon_streams (s : State) (k : Nat) (v : Mon → Mon) : (s.modMon k v).streams = s.streams := rfl
@[simp] theorem setMon_ops (s : State) (k : Nat) (v : Mon) : (s.setMon k v).ops = s.ops := rfl
@[simp] theorem modMon_ops (s : State) (k : Nat) (v : Mon → Mon) : (s.modMon k v).ops = s.ops := rfl
@[simp] theorem setMon_seq (s : State) (k : Nat) (v : Mon) : (s.setMon k v).seq = s.seq := rfl
@[simp] theorem modMon_seq (s : State) (k : Nat) (v : Mon → Mon) : (s.modMon k v).seq = s.seq := rfl
@[simp] theorem setMon_tokens (s : State) (k : Nat) (v : Mon) : (s.setMon k v).tokens = s.tokens := rfl
@[simp] theorem modMon_tokens (s : State) (k : Nat) (v : Mon → Mon) : (s.modMon k v).tokens = s.tokens := rfl
@[simp] theorem setMon_rowMaps (s : State) (k : Nat) (v : Mon) : (s.setMon k v).rowMaps = s.rowMaps := rfl
@[simp] theorem modMon_rowMaps (s : State) (k : Nat) (v : Mon → Mon) : (s.modMon k v).rowMaps = s.rowMaps := rfl
@[simp] theorem setMon_manifest (s : State) (k : Nat) (v : Mon) : (s.setMon k v).manifest = s.manifest := rfl
@[simp] theorem modMon_manifest (s : State) (k : Nat) (v : Mon → Mon) : (s.modMon k v).manifest = s.manifest := rfl
@[simp] theorem setMon_cores (s : State) (k : Nat) (v : Mon) : (s.setMon k v).cores = s.cores := rfl
@[simp] theorem modMon_cores (s : State) (k : Nat) (v : Mon → Mon) : (s.modMon k v).cores = s.cores := rfl
@[simp] theorem setMon_mem (s : State) (k : Nat) (v : Mon) : (s.setMon k v).mem = s.mem := rfl
@[simp] theorem modMon_mem (s : State) (k : Nat) (v : Mon → Mon) : (s.modMon k v).mem = s.mem := rfl
@[simp] theorem setMon_poison (s : State) (k : Nat) (v : Mon) : (s.setMon k v).poison = s.poison := rfl
@[simp] theorem modMon_poison (s : State) (k : Nat) (v : Mon → Mon) : (s.modMon k v).poison = s.poison := rfl
@[simp] theorem setMon_errs (s : State) (k : Nat) (v : Mon) : (s.setMon k v).errs = s.errs := rfl
@[simp] theorem modMon_errs (s : State) (k : Nat) (v : Mon → Mon) : (s.modMon k v).errs = s.errs := rfl
@[simp] theorem setMon_units (s : State) (k : Nat) (v : Mon) : (s.setMon k v).units = s.units := rfl
@[simp] theorem modMon_units (s : State) (k : Nat) (v : Mon → Mon) : (s.modMon k v).units = s.units := rfl
@[simp] theorem setMon_regions (s : State) (k : Nat) (v : Mon) : (s.setMon k v).regions = s.regions := rfl
@[simp] theorem modMon_regions (s : State) (k : Nat) (v : Mon → Mon) : (s.modMon k v).regions = s.regions := rfl
@[simp] theorem setMon_memTop (s : State) (k : Nat) (v : Mon) : (s.setMon k v).memTop = s.memTop := rfl
@[simp] theorem modMon_memTop (s : State) (k : Nat) (v : Mon → Mon) : (s.modMon k v).memTop = s.memTop := rfl
@[simp] theorem setMon_dir (s : State) (k : Nat) (v : Mon) : (s.setMon k v).dir = s.dir := rfl
@[simp] theorem modMon_dir (s : State) (k : Nat) (v : Mon → Mon) : (s.modMon k v).dir = s.dir := rfl
@[simp] theorem setMon_ctxs (s : State) (k : Nat) (v : Mon) : (s.setMon k v).ctxs = s.ctxs := rfl
@[simp] theorem modMon_ctxs (s : State) (k : Nat) (v : Mon → Mon) : (s.modMon k v).ctxs = s.ctxs := rfl
@[simp] theorem setMon_swaps (s : State) (k : Nat) (v : Mon) : (s.setMon k v).swaps = s.swaps := rfl
@[simp] theorem modMon_swaps (s : State) (k : Nat) (v : Mon → Mon) : (s.modMon k v).swaps = s.swaps := rfl
@[simp] theorem setMon_wts (s : State) (k : Nat) (v : Mon) : (s.setMon k v).wts = s.wts := rfl
@[simp] theorem modMon_wts (s : State) (k : Nat) (v : Mon → Mon) : (s.modMon k v).wts = s.wts := rfl
@[simp] theorem setMon_netLinks (s : State) (k : Nat) (v : Mon) : (s.setMon k v).netLinks = s.netLinks := rfl
@[simp] theorem modMon_netLinks (s : State) (k : Nat) (v : Mon → Mon) : (s.modMon k v).netLinks = s.netLinks := rfl
@[simp] theorem setMon_parts (s : State) (k : Nat) (v : Mon) : (s.setMon k v).parts = s.parts := rfl
@[simp] theorem modMon_parts (s : State) (k : Nat) (v : Mon → Mon) : (s.modMon k v).parts = s.parts := rfl
@[simp] theorem setMon_net (s : State) (k : Nat) (v : Mon) : (s.setMon k v).net = s.net := rfl
@[simp] theorem modMon_net (s : State) (k : Nat) (v : Mon → Mon) : (s.modMon k v).net = s.net := rfl
@[simp] theorem setMon_netBufs (s : State) (k : Nat) (v : Mon) : (s.setMon k v).netBufs = s.netBufs := rfl
@[simp] theorem modMon_netBufs (s : State) (k : Nat) (v : Mon → Mon) : (s.modMon k v).netBufs = s.netBufs := rfl
@[simp] theorem setMon_ports (s : State) (k : Nat) (v : Mon) : (s.setMon k v).ports = s.ports := rfl
@[simp] theorem modMon_ports (s : State) (k : Nat) (v : Mon → Mon) : (s.modMon k v).ports = s.ports := rfl
@[simp] theorem setMon_link (s : State) (k : Nat) (v : Mon) : (s.setMon k v).link = s.link := rfl
@[simp] theorem modMon_link (s : State) (k : Nat) (v : Mon → Mon) : (s.modMon k v).link = s.link := rfl
@[simp] theorem setMon_mbs (s : State) (k : Nat) (v : Mon) : (s.setMon k v).mbs = s.mbs := rfl
@[simp] theorem modMon_mbs (s : State) (k : Nat) (v : Mon → Mon) : (s.modMon k v).mbs = s.mbs := rfl
@[simp] theorem setMon_cmds (s : State) (k : Nat) (v : Mon) : (s.setMon k v).cmds = s.cmds := rfl
@[simp] theorem modMon_cmds (s : State) (k : Nat) (v : Mon → Mon) : (s.modMon k v).cmds = s.cmds := rfl
@[simp] theorem setMon_stw (s : State) (k : Nat) (v : Mon) : (s.setMon k v).stw = s.stw := rfl
@[simp] theorem modMon_stw (s : State) (k : Nat) (v : Mon → Mon) : (s.modMon k v).stw = s.stw := rfl
@[simp] theorem setMon_hostMem (s : State) (k : Nat) (v : Mon) : (s.setMon k v).hostMem = s.hostMem := rfl
@[simp] theorem modMon_hostMem (s : State) (k : Nat) (v : Mon → Mon) : (s.modMon k v).hostMem = s.hostMem := rfl
@[simp] theorem setMon_bu (s : State) (k : Nat) (v : Mon) : (s.setMon k v).bu = s.bu := rfl
@[simp] theorem modMon_bu (s : State) (k : Nat) (v : Mon → Mon) : (s.modMon k v).bu = s.bu := rfl
@[simp] theorem setMon_pwr (s : State) (k : Nat) (v : Mon) : (s.setMon k v).pwr = s.pwr := rfl
@[simp] theorem modMon_pwr (s : State) (k : Nat) (v : Mon → Mon) : (s.modMon k v).pwr = s.pwr := rfl
@[simp] theorem setMon_sensors (s : State) (k : Nat) (v : Mon) : (s.setMon k v).sensors = s.sensors := rfl
@[simp] theorem modMon_sensors (s : State) (k : Nat) (v : Mon → Mon) : (s.modMon k v).sensors = s.sensors := rfl
@[simp] theorem setMon_dies (s : State) (k : Nat) (v : Mon) : (s.setMon k v).dies = s.dies := rfl
@[simp] theorem modMon_dies (s : State) (k : Nat) (v : Mon → Mon) : (s.modMon k v).dies = s.dies := rfl
@[simp] theorem setMon_thm (s : State) (k : Nat) (v : Mon) : (s.setMon k v).thm = s.thm := rfl
@[simp] theorem modMon_thm (s : State) (k : Nat) (v : Mon → Mon) : (s.modMon k v).thm = s.thm := rfl
@[simp] theorem setMon_exts (s : State) (k : Nat) (v : Mon) : (s.setMon k v).exts = s.exts := rfl
@[simp] theorem modMon_exts (s : State) (k : Nat) (v : Mon → Mon) : (s.modMon k v).exts = s.exts := rfl
@[simp] theorem setMon_flt (s : State) (k : Nat) (v : Mon) : (s.setMon k v).flt = s.flt := rfl
@[simp] theorem modMon_flt (s : State) (k : Nat) (v : Mon → Mon) : (s.modMon k v).flt = s.flt := rfl
@[simp] theorem setMon_sec (s : State) (k : Nat) (v : Mon) : (s.setMon k v).sec = s.sec := rfl
@[simp] theorem modMon_sec (s : State) (k : Nat) (v : Mon → Mon) : (s.modMon k v).sec = s.sec := rfl
@[simp] theorem setMon_mg (s : State) (k : Nat) (v : Mon) : (s.setMon k v).mg = s.mg := rfl
@[simp] theorem modMon_mg (s : State) (k : Nat) (v : Mon → Mon) : (s.modMon k v).mg = s.mg := rfl
@[simp] theorem setMon_free (s : State) (k : Nat) (v : Mon) : (s.setMon k v).free = s.free := rfl
@[simp] theorem modMon_free (s : State) (k : Nat) (v : Mon → Mon) : (s.modMon k v).free = s.free := rfl
@[simp] theorem setMon_pending (s : State) (k : Nat) (v : Mon) : (s.setMon k v).pending = s.pending := rfl
@[simp] theorem modMon_pending (s : State) (k : Nat) (v : Mon → Mon) : (s.modMon k v).pending = s.pending := rfl

theorem modMonLast_eq (s : State) (k : Nat) (g : MonLast → MonLast) : s.modMonLast k g = s.setMonLast k (g (s.monLast k)) := rfl
@[simp] theorem setMonLast_tim (s : State) (k : Nat) (v : MonLast) : (s.setMonLast k v).tim = s.tim := rfl
@[simp] theorem modMonLast_tim (s : State) (k : Nat) (v : MonLast → MonLast) : (s.modMonLast k v).tim = s.tim := rfl
@[simp] theorem setMonLast_pins (s : State) (k : Nat) (v : MonLast) : (s.setMonLast k v).pins = s.pins := rfl
@[simp] theorem modMonLast_pins (s : State) (k : Nat) (v : MonLast → MonLast) : (s.modMonLast k v).pins = s.pins := rfl
@[simp] theorem setMonLast_fields (s : State) (k : Nat) (v : MonLast) : (s.setMonLast k v).fields = s.fields := rfl
@[simp] theorem modMonLast_fields (s : State) (k : Nat) (v : MonLast → MonLast) : (s.modMonLast k v).fields = s.fields := rfl
@[simp] theorem setMonLast_adcs (s : State) (k : Nat) (v : MonLast) : (s.setMonLast k v).adcs = s.adcs := rfl
@[simp] theorem modMonLast_adcs (s : State) (k : Nat) (v : MonLast → MonLast) : (s.modMonLast k v).adcs = s.adcs := rfl
@[simp] theorem setMonLast_adcTel (s : State) (k : Nat) (v : MonLast) : (s.setMonLast k v).adcTel = s.adcTel := rfl
@[simp] theorem modMonLast_adcTel (s : State) (k : Nat) (v : MonLast → MonLast) : (s.modMonLast k v).adcTel = s.adcTel := rfl
@[simp] theorem setMonLast_taints (s : State) (k : Nat) (v : MonLast) : (s.setMonLast k v).taints = s.taints := rfl
@[simp] theorem modMonLast_taints (s : State) (k : Nat) (v : MonLast → MonLast) : (s.modMonLast k v).taints = s.taints := rfl
@[simp] theorem setMonLast_acc (s : State) (k : Nat) (v : MonLast) : (s.setMonLast k v).acc = s.acc := rfl
@[simp] theorem modMonLast_acc (s : State) (k : Nat) (v : MonLast → MonLast) : (s.modMonLast k v).acc = s.acc := rfl
@[simp] theorem setMonLast_bands (s : State) (k : Nat) (v : MonLast) : (s.setMonLast k v).bands = s.bands := rfl
@[simp] theorem modMonLast_bands (s : State) (k : Nat) (v : MonLast → MonLast) : (s.modMonLast k v).bands = s.bands := rfl
@[simp] theorem setMonLast_cal (s : State) (k : Nat) (v : MonLast) : (s.setMonLast k v).cal = s.cal := rfl
@[simp] theorem modMonLast_cal (s : State) (k : Nat) (v : MonLast → MonLast) : (s.modMonLast k v).cal = s.cal := rfl
@[simp] theorem setMonLast_lcols (s : State) (k : Nat) (v : MonLast) : (s.setMonLast k v).lcols = s.lcols := rfl
@[simp] theorem modMonLast_lcols (s : State) (k : Nat) (v : MonLast → MonLast) : (s.modMonLast k v).lcols = s.lcols := rfl
@[simp] theorem setMonLast_lports (s : State) (k : Nat) (v : MonLast) : (s.setMonLast k v).lports = s.lports := rfl
@[simp] theorem modMonLast_lports (s : State) (k : Nat) (v : MonLast → MonLast) : (s.modMonLast k v).lports = s.lports := rfl
@[simp] theorem setMonLast_relays (s : State) (k : Nat) (v : MonLast) : (s.setMonLast k v).relays = s.relays := rfl
@[simp] theorem modMonLast_relays (s : State) (k : Nat) (v : MonLast → MonLast) : (s.modMonLast k v).relays = s.relays := rfl
@[simp] theorem setMonLast_light (s : State) (k : Nat) (v : MonLast) : (s.setMonLast k v).light = s.light := rfl
@[simp] theorem modMonLast_light (s : State) (k : Nat) (v : MonLast → MonLast) : (s.modMonLast k v).light = s.light := rfl
@[simp] theorem setMonLast_mons (s : State) (k : Nat) (v : MonLast) : (s.setMonLast k v).mons = s.mons := rfl
@[simp] theorem modMonLast_mons (s : State) (k : Nat) (v : MonLast → MonLast) : (s.modMonLast k v).mons = s.mons := rfl
@[simp] theorem setMonLast_ring (s : State) (k : Nat) (v : MonLast) : (s.setMonLast k v).ring = s.ring := rfl
@[simp] theorem modMonLast_ring (s : State) (k : Nat) (v : MonLast → MonLast) : (s.modMonLast k v).ring = s.ring := rfl
@[simp] theorem setMonLast_loops (s : State) (k : Nat) (v : MonLast) : (s.setMonLast k v).loops = s.loops := rfl
@[simp] theorem modMonLast_loops (s : State) (k : Nat) (v : MonLast → MonLast) : (s.modMonLast k v).loops = s.loops := rfl
@[simp] theorem setMonLast_eng (s : State) (k : Nat) (v : MonLast) : (s.setMonLast k v).eng = s.eng := rfl
@[simp] theorem modMonLast_eng (s : State) (k : Nat) (v : MonLast → MonLast) : (s.modMonLast k v).eng = s.eng := rfl
@[simp] theorem setMonLast_streams (s : State) (k : Nat) (v : MonLast) : (s.setMonLast k v).streams = s.streams := rfl
@[simp] theorem modMonLast_streams (s : State) (k : Nat) (v : MonLast → MonLast) : (s.modMonLast k v).streams = s.streams := rfl
@[simp] theorem setMonLast_ops (s : State) (k : Nat) (v : MonLast) : (s.setMonLast k v).ops = s.ops := rfl
@[simp] theorem modMonLast_ops (s : State) (k : Nat) (v : MonLast → MonLast) : (s.modMonLast k v).ops = s.ops := rfl
@[simp] theorem setMonLast_seq (s : State) (k : Nat) (v : MonLast) : (s.setMonLast k v).seq = s.seq := rfl
@[simp] theorem modMonLast_seq (s : State) (k : Nat) (v : MonLast → MonLast) : (s.modMonLast k v).seq = s.seq := rfl
@[simp] theorem setMonLast_tokens (s : State) (k : Nat) (v : MonLast) : (s.setMonLast k v).tokens = s.tokens := rfl
@[simp] theorem modMonLast_tokens (s : State) (k : Nat) (v : MonLast → MonLast) : (s.modMonLast k v).tokens = s.tokens := rfl
@[simp] theorem setMonLast_rowMaps (s : State) (k : Nat) (v : MonLast) : (s.setMonLast k v).rowMaps = s.rowMaps := rfl
@[simp] theorem modMonLast_rowMaps (s : State) (k : Nat) (v : MonLast → MonLast) : (s.modMonLast k v).rowMaps = s.rowMaps := rfl
@[simp] theorem setMonLast_manifest (s : State) (k : Nat) (v : MonLast) : (s.setMonLast k v).manifest = s.manifest := rfl
@[simp] theorem modMonLast_manifest (s : State) (k : Nat) (v : MonLast → MonLast) : (s.modMonLast k v).manifest = s.manifest := rfl
@[simp] theorem setMonLast_cores (s : State) (k : Nat) (v : MonLast) : (s.setMonLast k v).cores = s.cores := rfl
@[simp] theorem modMonLast_cores (s : State) (k : Nat) (v : MonLast → MonLast) : (s.modMonLast k v).cores = s.cores := rfl
@[simp] theorem setMonLast_mem (s : State) (k : Nat) (v : MonLast) : (s.setMonLast k v).mem = s.mem := rfl
@[simp] theorem modMonLast_mem (s : State) (k : Nat) (v : MonLast → MonLast) : (s.modMonLast k v).mem = s.mem := rfl
@[simp] theorem setMonLast_poison (s : State) (k : Nat) (v : MonLast) : (s.setMonLast k v).poison = s.poison := rfl
@[simp] theorem modMonLast_poison (s : State) (k : Nat) (v : MonLast → MonLast) : (s.modMonLast k v).poison = s.poison := rfl
@[simp] theorem setMonLast_errs (s : State) (k : Nat) (v : MonLast) : (s.setMonLast k v).errs = s.errs := rfl
@[simp] theorem modMonLast_errs (s : State) (k : Nat) (v : MonLast → MonLast) : (s.modMonLast k v).errs = s.errs := rfl
@[simp] theorem setMonLast_units (s : State) (k : Nat) (v : MonLast) : (s.setMonLast k v).units = s.units := rfl
@[simp] theorem modMonLast_units (s : State) (k : Nat) (v : MonLast → MonLast) : (s.modMonLast k v).units = s.units := rfl
@[simp] theorem setMonLast_regions (s : State) (k : Nat) (v : MonLast) : (s.setMonLast k v).regions = s.regions := rfl
@[simp] theorem modMonLast_regions (s : State) (k : Nat) (v : MonLast → MonLast) : (s.modMonLast k v).regions = s.regions := rfl
@[simp] theorem setMonLast_memTop (s : State) (k : Nat) (v : MonLast) : (s.setMonLast k v).memTop = s.memTop := rfl
@[simp] theorem modMonLast_memTop (s : State) (k : Nat) (v : MonLast → MonLast) : (s.modMonLast k v).memTop = s.memTop := rfl
@[simp] theorem setMonLast_dir (s : State) (k : Nat) (v : MonLast) : (s.setMonLast k v).dir = s.dir := rfl
@[simp] theorem modMonLast_dir (s : State) (k : Nat) (v : MonLast → MonLast) : (s.modMonLast k v).dir = s.dir := rfl
@[simp] theorem setMonLast_ctxs (s : State) (k : Nat) (v : MonLast) : (s.setMonLast k v).ctxs = s.ctxs := rfl
@[simp] theorem modMonLast_ctxs (s : State) (k : Nat) (v : MonLast → MonLast) : (s.modMonLast k v).ctxs = s.ctxs := rfl
@[simp] theorem setMonLast_swaps (s : State) (k : Nat) (v : MonLast) : (s.setMonLast k v).swaps = s.swaps := rfl
@[simp] theorem modMonLast_swaps (s : State) (k : Nat) (v : MonLast → MonLast) : (s.modMonLast k v).swaps = s.swaps := rfl
@[simp] theorem setMonLast_wts (s : State) (k : Nat) (v : MonLast) : (s.setMonLast k v).wts = s.wts := rfl
@[simp] theorem modMonLast_wts (s : State) (k : Nat) (v : MonLast → MonLast) : (s.modMonLast k v).wts = s.wts := rfl
@[simp] theorem setMonLast_netLinks (s : State) (k : Nat) (v : MonLast) : (s.setMonLast k v).netLinks = s.netLinks := rfl
@[simp] theorem modMonLast_netLinks (s : State) (k : Nat) (v : MonLast → MonLast) : (s.modMonLast k v).netLinks = s.netLinks := rfl
@[simp] theorem setMonLast_parts (s : State) (k : Nat) (v : MonLast) : (s.setMonLast k v).parts = s.parts := rfl
@[simp] theorem modMonLast_parts (s : State) (k : Nat) (v : MonLast → MonLast) : (s.modMonLast k v).parts = s.parts := rfl
@[simp] theorem setMonLast_net (s : State) (k : Nat) (v : MonLast) : (s.setMonLast k v).net = s.net := rfl
@[simp] theorem modMonLast_net (s : State) (k : Nat) (v : MonLast → MonLast) : (s.modMonLast k v).net = s.net := rfl
@[simp] theorem setMonLast_netBufs (s : State) (k : Nat) (v : MonLast) : (s.setMonLast k v).netBufs = s.netBufs := rfl
@[simp] theorem modMonLast_netBufs (s : State) (k : Nat) (v : MonLast → MonLast) : (s.modMonLast k v).netBufs = s.netBufs := rfl
@[simp] theorem setMonLast_ports (s : State) (k : Nat) (v : MonLast) : (s.setMonLast k v).ports = s.ports := rfl
@[simp] theorem modMonLast_ports (s : State) (k : Nat) (v : MonLast → MonLast) : (s.modMonLast k v).ports = s.ports := rfl
@[simp] theorem setMonLast_link (s : State) (k : Nat) (v : MonLast) : (s.setMonLast k v).link = s.link := rfl
@[simp] theorem modMonLast_link (s : State) (k : Nat) (v : MonLast → MonLast) : (s.modMonLast k v).link = s.link := rfl
@[simp] theorem setMonLast_mbs (s : State) (k : Nat) (v : MonLast) : (s.setMonLast k v).mbs = s.mbs := rfl
@[simp] theorem modMonLast_mbs (s : State) (k : Nat) (v : MonLast → MonLast) : (s.modMonLast k v).mbs = s.mbs := rfl
@[simp] theorem setMonLast_cmds (s : State) (k : Nat) (v : MonLast) : (s.setMonLast k v).cmds = s.cmds := rfl
@[simp] theorem modMonLast_cmds (s : State) (k : Nat) (v : MonLast → MonLast) : (s.modMonLast k v).cmds = s.cmds := rfl
@[simp] theorem setMonLast_stw (s : State) (k : Nat) (v : MonLast) : (s.setMonLast k v).stw = s.stw := rfl
@[simp] theorem modMonLast_stw (s : State) (k : Nat) (v : MonLast → MonLast) : (s.modMonLast k v).stw = s.stw := rfl
@[simp] theorem setMonLast_hostMem (s : State) (k : Nat) (v : MonLast) : (s.setMonLast k v).hostMem = s.hostMem := rfl
@[simp] theorem modMonLast_hostMem (s : State) (k : Nat) (v : MonLast → MonLast) : (s.modMonLast k v).hostMem = s.hostMem := rfl
@[simp] theorem setMonLast_bu (s : State) (k : Nat) (v : MonLast) : (s.setMonLast k v).bu = s.bu := rfl
@[simp] theorem modMonLast_bu (s : State) (k : Nat) (v : MonLast → MonLast) : (s.modMonLast k v).bu = s.bu := rfl
@[simp] theorem setMonLast_pwr (s : State) (k : Nat) (v : MonLast) : (s.setMonLast k v).pwr = s.pwr := rfl
@[simp] theorem modMonLast_pwr (s : State) (k : Nat) (v : MonLast → MonLast) : (s.modMonLast k v).pwr = s.pwr := rfl
@[simp] theorem setMonLast_sensors (s : State) (k : Nat) (v : MonLast) : (s.setMonLast k v).sensors = s.sensors := rfl
@[simp] theorem modMonLast_sensors (s : State) (k : Nat) (v : MonLast → MonLast) : (s.modMonLast k v).sensors = s.sensors := rfl
@[simp] theorem setMonLast_dies (s : State) (k : Nat) (v : MonLast) : (s.setMonLast k v).dies = s.dies := rfl
@[simp] theorem modMonLast_dies (s : State) (k : Nat) (v : MonLast → MonLast) : (s.modMonLast k v).dies = s.dies := rfl
@[simp] theorem setMonLast_thm (s : State) (k : Nat) (v : MonLast) : (s.setMonLast k v).thm = s.thm := rfl
@[simp] theorem modMonLast_thm (s : State) (k : Nat) (v : MonLast → MonLast) : (s.modMonLast k v).thm = s.thm := rfl
@[simp] theorem setMonLast_exts (s : State) (k : Nat) (v : MonLast) : (s.setMonLast k v).exts = s.exts := rfl
@[simp] theorem modMonLast_exts (s : State) (k : Nat) (v : MonLast → MonLast) : (s.modMonLast k v).exts = s.exts := rfl
@[simp] theorem setMonLast_flt (s : State) (k : Nat) (v : MonLast) : (s.setMonLast k v).flt = s.flt := rfl
@[simp] theorem modMonLast_flt (s : State) (k : Nat) (v : MonLast → MonLast) : (s.modMonLast k v).flt = s.flt := rfl
@[simp] theorem setMonLast_sec (s : State) (k : Nat) (v : MonLast) : (s.setMonLast k v).sec = s.sec := rfl
@[simp] theorem modMonLast_sec (s : State) (k : Nat) (v : MonLast → MonLast) : (s.modMonLast k v).sec = s.sec := rfl
@[simp] theorem setMonLast_mg (s : State) (k : Nat) (v : MonLast) : (s.setMonLast k v).mg = s.mg := rfl
@[simp] theorem modMonLast_mg (s : State) (k : Nat) (v : MonLast → MonLast) : (s.modMonLast k v).mg = s.mg := rfl
@[simp] theorem setMonLast_free (s : State) (k : Nat) (v : MonLast) : (s.setMonLast k v).free = s.free := rfl
@[simp] theorem modMonLast_free (s : State) (k : Nat) (v : MonLast → MonLast) : (s.modMonLast k v).free = s.free := rfl
@[simp] theorem setMonLast_pending (s : State) (k : Nat) (v : MonLast) : (s.setMonLast k v).pending = s.pending := rfl
@[simp] theorem modMonLast_pending (s : State) (k : Nat) (v : MonLast → MonLast) : (s.modMonLast k v).pending = s.pending := rfl

theorem modLoop_eq (s : State) (k : Nat) (g : LoopSlot → LoopSlot) : s.modLoop k g = s.setLoop k (g (s.loop k)) := rfl
@[simp] theorem setLoop_tim (s : State) (k : Nat) (v : LoopSlot) : (s.setLoop k v).tim = s.tim := rfl
@[simp] theorem modLoop_tim (s : State) (k : Nat) (v : LoopSlot → LoopSlot) : (s.modLoop k v).tim = s.tim := rfl
@[simp] theorem setLoop_pins (s : State) (k : Nat) (v : LoopSlot) : (s.setLoop k v).pins = s.pins := rfl
@[simp] theorem modLoop_pins (s : State) (k : Nat) (v : LoopSlot → LoopSlot) : (s.modLoop k v).pins = s.pins := rfl
@[simp] theorem setLoop_fields (s : State) (k : Nat) (v : LoopSlot) : (s.setLoop k v).fields = s.fields := rfl
@[simp] theorem modLoop_fields (s : State) (k : Nat) (v : LoopSlot → LoopSlot) : (s.modLoop k v).fields = s.fields := rfl
@[simp] theorem setLoop_adcs (s : State) (k : Nat) (v : LoopSlot) : (s.setLoop k v).adcs = s.adcs := rfl
@[simp] theorem modLoop_adcs (s : State) (k : Nat) (v : LoopSlot → LoopSlot) : (s.modLoop k v).adcs = s.adcs := rfl
@[simp] theorem setLoop_adcTel (s : State) (k : Nat) (v : LoopSlot) : (s.setLoop k v).adcTel = s.adcTel := rfl
@[simp] theorem modLoop_adcTel (s : State) (k : Nat) (v : LoopSlot → LoopSlot) : (s.modLoop k v).adcTel = s.adcTel := rfl
@[simp] theorem setLoop_taints (s : State) (k : Nat) (v : LoopSlot) : (s.setLoop k v).taints = s.taints := rfl
@[simp] theorem modLoop_taints (s : State) (k : Nat) (v : LoopSlot → LoopSlot) : (s.modLoop k v).taints = s.taints := rfl
@[simp] theorem setLoop_acc (s : State) (k : Nat) (v : LoopSlot) : (s.setLoop k v).acc = s.acc := rfl
@[simp] theorem modLoop_acc (s : State) (k : Nat) (v : LoopSlot → LoopSlot) : (s.modLoop k v).acc = s.acc := rfl
@[simp] theorem setLoop_bands (s : State) (k : Nat) (v : LoopSlot) : (s.setLoop k v).bands = s.bands := rfl
@[simp] theorem modLoop_bands (s : State) (k : Nat) (v : LoopSlot → LoopSlot) : (s.modLoop k v).bands = s.bands := rfl
@[simp] theorem setLoop_cal (s : State) (k : Nat) (v : LoopSlot) : (s.setLoop k v).cal = s.cal := rfl
@[simp] theorem modLoop_cal (s : State) (k : Nat) (v : LoopSlot → LoopSlot) : (s.modLoop k v).cal = s.cal := rfl
@[simp] theorem setLoop_lcols (s : State) (k : Nat) (v : LoopSlot) : (s.setLoop k v).lcols = s.lcols := rfl
@[simp] theorem modLoop_lcols (s : State) (k : Nat) (v : LoopSlot → LoopSlot) : (s.modLoop k v).lcols = s.lcols := rfl
@[simp] theorem setLoop_lports (s : State) (k : Nat) (v : LoopSlot) : (s.setLoop k v).lports = s.lports := rfl
@[simp] theorem modLoop_lports (s : State) (k : Nat) (v : LoopSlot → LoopSlot) : (s.modLoop k v).lports = s.lports := rfl
@[simp] theorem setLoop_relays (s : State) (k : Nat) (v : LoopSlot) : (s.setLoop k v).relays = s.relays := rfl
@[simp] theorem modLoop_relays (s : State) (k : Nat) (v : LoopSlot → LoopSlot) : (s.modLoop k v).relays = s.relays := rfl
@[simp] theorem setLoop_light (s : State) (k : Nat) (v : LoopSlot) : (s.setLoop k v).light = s.light := rfl
@[simp] theorem modLoop_light (s : State) (k : Nat) (v : LoopSlot → LoopSlot) : (s.modLoop k v).light = s.light := rfl
@[simp] theorem setLoop_mons (s : State) (k : Nat) (v : LoopSlot) : (s.setLoop k v).mons = s.mons := rfl
@[simp] theorem modLoop_mons (s : State) (k : Nat) (v : LoopSlot → LoopSlot) : (s.modLoop k v).mons = s.mons := rfl
@[simp] theorem setLoop_monLasts (s : State) (k : Nat) (v : LoopSlot) : (s.setLoop k v).monLasts = s.monLasts := rfl
@[simp] theorem modLoop_monLasts (s : State) (k : Nat) (v : LoopSlot → LoopSlot) : (s.modLoop k v).monLasts = s.monLasts := rfl
@[simp] theorem setLoop_ring (s : State) (k : Nat) (v : LoopSlot) : (s.setLoop k v).ring = s.ring := rfl
@[simp] theorem modLoop_ring (s : State) (k : Nat) (v : LoopSlot → LoopSlot) : (s.modLoop k v).ring = s.ring := rfl
@[simp] theorem setLoop_eng (s : State) (k : Nat) (v : LoopSlot) : (s.setLoop k v).eng = s.eng := rfl
@[simp] theorem modLoop_eng (s : State) (k : Nat) (v : LoopSlot → LoopSlot) : (s.modLoop k v).eng = s.eng := rfl
@[simp] theorem setLoop_streams (s : State) (k : Nat) (v : LoopSlot) : (s.setLoop k v).streams = s.streams := rfl
@[simp] theorem modLoop_streams (s : State) (k : Nat) (v : LoopSlot → LoopSlot) : (s.modLoop k v).streams = s.streams := rfl
@[simp] theorem setLoop_ops (s : State) (k : Nat) (v : LoopSlot) : (s.setLoop k v).ops = s.ops := rfl
@[simp] theorem modLoop_ops (s : State) (k : Nat) (v : LoopSlot → LoopSlot) : (s.modLoop k v).ops = s.ops := rfl
@[simp] theorem setLoop_seq (s : State) (k : Nat) (v : LoopSlot) : (s.setLoop k v).seq = s.seq := rfl
@[simp] theorem modLoop_seq (s : State) (k : Nat) (v : LoopSlot → LoopSlot) : (s.modLoop k v).seq = s.seq := rfl
@[simp] theorem setLoop_tokens (s : State) (k : Nat) (v : LoopSlot) : (s.setLoop k v).tokens = s.tokens := rfl
@[simp] theorem modLoop_tokens (s : State) (k : Nat) (v : LoopSlot → LoopSlot) : (s.modLoop k v).tokens = s.tokens := rfl
@[simp] theorem setLoop_rowMaps (s : State) (k : Nat) (v : LoopSlot) : (s.setLoop k v).rowMaps = s.rowMaps := rfl
@[simp] theorem modLoop_rowMaps (s : State) (k : Nat) (v : LoopSlot → LoopSlot) : (s.modLoop k v).rowMaps = s.rowMaps := rfl
@[simp] theorem setLoop_manifest (s : State) (k : Nat) (v : LoopSlot) : (s.setLoop k v).manifest = s.manifest := rfl
@[simp] theorem modLoop_manifest (s : State) (k : Nat) (v : LoopSlot → LoopSlot) : (s.modLoop k v).manifest = s.manifest := rfl
@[simp] theorem setLoop_cores (s : State) (k : Nat) (v : LoopSlot) : (s.setLoop k v).cores = s.cores := rfl
@[simp] theorem modLoop_cores (s : State) (k : Nat) (v : LoopSlot → LoopSlot) : (s.modLoop k v).cores = s.cores := rfl
@[simp] theorem setLoop_mem (s : State) (k : Nat) (v : LoopSlot) : (s.setLoop k v).mem = s.mem := rfl
@[simp] theorem modLoop_mem (s : State) (k : Nat) (v : LoopSlot → LoopSlot) : (s.modLoop k v).mem = s.mem := rfl
@[simp] theorem setLoop_poison (s : State) (k : Nat) (v : LoopSlot) : (s.setLoop k v).poison = s.poison := rfl
@[simp] theorem modLoop_poison (s : State) (k : Nat) (v : LoopSlot → LoopSlot) : (s.modLoop k v).poison = s.poison := rfl
@[simp] theorem setLoop_errs (s : State) (k : Nat) (v : LoopSlot) : (s.setLoop k v).errs = s.errs := rfl
@[simp] theorem modLoop_errs (s : State) (k : Nat) (v : LoopSlot → LoopSlot) : (s.modLoop k v).errs = s.errs := rfl
@[simp] theorem setLoop_units (s : State) (k : Nat) (v : LoopSlot) : (s.setLoop k v).units = s.units := rfl
@[simp] theorem modLoop_units (s : State) (k : Nat) (v : LoopSlot → LoopSlot) : (s.modLoop k v).units = s.units := rfl
@[simp] theorem setLoop_regions (s : State) (k : Nat) (v : LoopSlot) : (s.setLoop k v).regions = s.regions := rfl
@[simp] theorem modLoop_regions (s : State) (k : Nat) (v : LoopSlot → LoopSlot) : (s.modLoop k v).regions = s.regions := rfl
@[simp] theorem setLoop_memTop (s : State) (k : Nat) (v : LoopSlot) : (s.setLoop k v).memTop = s.memTop := rfl
@[simp] theorem modLoop_memTop (s : State) (k : Nat) (v : LoopSlot → LoopSlot) : (s.modLoop k v).memTop = s.memTop := rfl
@[simp] theorem setLoop_dir (s : State) (k : Nat) (v : LoopSlot) : (s.setLoop k v).dir = s.dir := rfl
@[simp] theorem modLoop_dir (s : State) (k : Nat) (v : LoopSlot → LoopSlot) : (s.modLoop k v).dir = s.dir := rfl
@[simp] theorem setLoop_ctxs (s : State) (k : Nat) (v : LoopSlot) : (s.setLoop k v).ctxs = s.ctxs := rfl
@[simp] theorem modLoop_ctxs (s : State) (k : Nat) (v : LoopSlot → LoopSlot) : (s.modLoop k v).ctxs = s.ctxs := rfl
@[simp] theorem setLoop_swaps (s : State) (k : Nat) (v : LoopSlot) : (s.setLoop k v).swaps = s.swaps := rfl
@[simp] theorem modLoop_swaps (s : State) (k : Nat) (v : LoopSlot → LoopSlot) : (s.modLoop k v).swaps = s.swaps := rfl
@[simp] theorem setLoop_wts (s : State) (k : Nat) (v : LoopSlot) : (s.setLoop k v).wts = s.wts := rfl
@[simp] theorem modLoop_wts (s : State) (k : Nat) (v : LoopSlot → LoopSlot) : (s.modLoop k v).wts = s.wts := rfl
@[simp] theorem setLoop_netLinks (s : State) (k : Nat) (v : LoopSlot) : (s.setLoop k v).netLinks = s.netLinks := rfl
@[simp] theorem modLoop_netLinks (s : State) (k : Nat) (v : LoopSlot → LoopSlot) : (s.modLoop k v).netLinks = s.netLinks := rfl
@[simp] theorem setLoop_parts (s : State) (k : Nat) (v : LoopSlot) : (s.setLoop k v).parts = s.parts := rfl
@[simp] theorem modLoop_parts (s : State) (k : Nat) (v : LoopSlot → LoopSlot) : (s.modLoop k v).parts = s.parts := rfl
@[simp] theorem setLoop_net (s : State) (k : Nat) (v : LoopSlot) : (s.setLoop k v).net = s.net := rfl
@[simp] theorem modLoop_net (s : State) (k : Nat) (v : LoopSlot → LoopSlot) : (s.modLoop k v).net = s.net := rfl
@[simp] theorem setLoop_netBufs (s : State) (k : Nat) (v : LoopSlot) : (s.setLoop k v).netBufs = s.netBufs := rfl
@[simp] theorem modLoop_netBufs (s : State) (k : Nat) (v : LoopSlot → LoopSlot) : (s.modLoop k v).netBufs = s.netBufs := rfl
@[simp] theorem setLoop_ports (s : State) (k : Nat) (v : LoopSlot) : (s.setLoop k v).ports = s.ports := rfl
@[simp] theorem modLoop_ports (s : State) (k : Nat) (v : LoopSlot → LoopSlot) : (s.modLoop k v).ports = s.ports := rfl
@[simp] theorem setLoop_link (s : State) (k : Nat) (v : LoopSlot) : (s.setLoop k v).link = s.link := rfl
@[simp] theorem modLoop_link (s : State) (k : Nat) (v : LoopSlot → LoopSlot) : (s.modLoop k v).link = s.link := rfl
@[simp] theorem setLoop_mbs (s : State) (k : Nat) (v : LoopSlot) : (s.setLoop k v).mbs = s.mbs := rfl
@[simp] theorem modLoop_mbs (s : State) (k : Nat) (v : LoopSlot → LoopSlot) : (s.modLoop k v).mbs = s.mbs := rfl
@[simp] theorem setLoop_cmds (s : State) (k : Nat) (v : LoopSlot) : (s.setLoop k v).cmds = s.cmds := rfl
@[simp] theorem modLoop_cmds (s : State) (k : Nat) (v : LoopSlot → LoopSlot) : (s.modLoop k v).cmds = s.cmds := rfl
@[simp] theorem setLoop_stw (s : State) (k : Nat) (v : LoopSlot) : (s.setLoop k v).stw = s.stw := rfl
@[simp] theorem modLoop_stw (s : State) (k : Nat) (v : LoopSlot → LoopSlot) : (s.modLoop k v).stw = s.stw := rfl
@[simp] theorem setLoop_hostMem (s : State) (k : Nat) (v : LoopSlot) : (s.setLoop k v).hostMem = s.hostMem := rfl
@[simp] theorem modLoop_hostMem (s : State) (k : Nat) (v : LoopSlot → LoopSlot) : (s.modLoop k v).hostMem = s.hostMem := rfl
@[simp] theorem setLoop_bu (s : State) (k : Nat) (v : LoopSlot) : (s.setLoop k v).bu = s.bu := rfl
@[simp] theorem modLoop_bu (s : State) (k : Nat) (v : LoopSlot → LoopSlot) : (s.modLoop k v).bu = s.bu := rfl
@[simp] theorem setLoop_pwr (s : State) (k : Nat) (v : LoopSlot) : (s.setLoop k v).pwr = s.pwr := rfl
@[simp] theorem modLoop_pwr (s : State) (k : Nat) (v : LoopSlot → LoopSlot) : (s.modLoop k v).pwr = s.pwr := rfl
@[simp] theorem setLoop_sensors (s : State) (k : Nat) (v : LoopSlot) : (s.setLoop k v).sensors = s.sensors := rfl
@[simp] theorem modLoop_sensors (s : State) (k : Nat) (v : LoopSlot → LoopSlot) : (s.modLoop k v).sensors = s.sensors := rfl
@[simp] theorem setLoop_dies (s : State) (k : Nat) (v : LoopSlot) : (s.setLoop k v).dies = s.dies := rfl
@[simp] theorem modLoop_dies (s : State) (k : Nat) (v : LoopSlot → LoopSlot) : (s.modLoop k v).dies = s.dies := rfl
@[simp] theorem setLoop_thm (s : State) (k : Nat) (v : LoopSlot) : (s.setLoop k v).thm = s.thm := rfl
@[simp] theorem modLoop_thm (s : State) (k : Nat) (v : LoopSlot → LoopSlot) : (s.modLoop k v).thm = s.thm := rfl
@[simp] theorem setLoop_exts (s : State) (k : Nat) (v : LoopSlot) : (s.setLoop k v).exts = s.exts := rfl
@[simp] theorem modLoop_exts (s : State) (k : Nat) (v : LoopSlot → LoopSlot) : (s.modLoop k v).exts = s.exts := rfl
@[simp] theorem setLoop_flt (s : State) (k : Nat) (v : LoopSlot) : (s.setLoop k v).flt = s.flt := rfl
@[simp] theorem modLoop_flt (s : State) (k : Nat) (v : LoopSlot → LoopSlot) : (s.modLoop k v).flt = s.flt := rfl
@[simp] theorem setLoop_sec (s : State) (k : Nat) (v : LoopSlot) : (s.setLoop k v).sec = s.sec := rfl
@[simp] theorem modLoop_sec (s : State) (k : Nat) (v : LoopSlot → LoopSlot) : (s.modLoop k v).sec = s.sec := rfl
@[simp] theorem setLoop_mg (s : State) (k : Nat) (v : LoopSlot) : (s.setLoop k v).mg = s.mg := rfl
@[simp] theorem modLoop_mg (s : State) (k : Nat) (v : LoopSlot → LoopSlot) : (s.modLoop k v).mg = s.mg := rfl
@[simp] theorem setLoop_free (s : State) (k : Nat) (v : LoopSlot) : (s.setLoop k v).free = s.free := rfl
@[simp] theorem modLoop_free (s : State) (k : Nat) (v : LoopSlot → LoopSlot) : (s.modLoop k v).free = s.free := rfl
@[simp] theorem setLoop_pending (s : State) (k : Nat) (v : LoopSlot) : (s.setLoop k v).pending = s.pending := rfl
@[simp] theorem modLoop_pending (s : State) (k : Nat) (v : LoopSlot → LoopSlot) : (s.modLoop k v).pending = s.pending := rfl

theorem modStream_eq (s : State) (k : Nat) (g : Stream → Stream) : s.modStream k g = s.setStream k (g (s.stream k)) := rfl
@[simp] theorem setStream_tim (s : State) (k : Nat) (v : Stream) : (s.setStream k v).tim = s.tim := rfl
@[simp] theorem modStream_tim (s : State) (k : Nat) (v : Stream → Stream) : (s.modStream k v).tim = s.tim := rfl
@[simp] theorem setStream_pins (s : State) (k : Nat) (v : Stream) : (s.setStream k v).pins = s.pins := rfl
@[simp] theorem modStream_pins (s : State) (k : Nat) (v : Stream → Stream) : (s.modStream k v).pins = s.pins := rfl
@[simp] theorem setStream_fields (s : State) (k : Nat) (v : Stream) : (s.setStream k v).fields = s.fields := rfl
@[simp] theorem modStream_fields (s : State) (k : Nat) (v : Stream → Stream) : (s.modStream k v).fields = s.fields := rfl
@[simp] theorem setStream_adcs (s : State) (k : Nat) (v : Stream) : (s.setStream k v).adcs = s.adcs := rfl
@[simp] theorem modStream_adcs (s : State) (k : Nat) (v : Stream → Stream) : (s.modStream k v).adcs = s.adcs := rfl
@[simp] theorem setStream_adcTel (s : State) (k : Nat) (v : Stream) : (s.setStream k v).adcTel = s.adcTel := rfl
@[simp] theorem modStream_adcTel (s : State) (k : Nat) (v : Stream → Stream) : (s.modStream k v).adcTel = s.adcTel := rfl
@[simp] theorem setStream_taints (s : State) (k : Nat) (v : Stream) : (s.setStream k v).taints = s.taints := rfl
@[simp] theorem modStream_taints (s : State) (k : Nat) (v : Stream → Stream) : (s.modStream k v).taints = s.taints := rfl
@[simp] theorem setStream_acc (s : State) (k : Nat) (v : Stream) : (s.setStream k v).acc = s.acc := rfl
@[simp] theorem modStream_acc (s : State) (k : Nat) (v : Stream → Stream) : (s.modStream k v).acc = s.acc := rfl
@[simp] theorem setStream_bands (s : State) (k : Nat) (v : Stream) : (s.setStream k v).bands = s.bands := rfl
@[simp] theorem modStream_bands (s : State) (k : Nat) (v : Stream → Stream) : (s.modStream k v).bands = s.bands := rfl
@[simp] theorem setStream_cal (s : State) (k : Nat) (v : Stream) : (s.setStream k v).cal = s.cal := rfl
@[simp] theorem modStream_cal (s : State) (k : Nat) (v : Stream → Stream) : (s.modStream k v).cal = s.cal := rfl
@[simp] theorem setStream_lcols (s : State) (k : Nat) (v : Stream) : (s.setStream k v).lcols = s.lcols := rfl
@[simp] theorem modStream_lcols (s : State) (k : Nat) (v : Stream → Stream) : (s.modStream k v).lcols = s.lcols := rfl
@[simp] theorem setStream_lports (s : State) (k : Nat) (v : Stream) : (s.setStream k v).lports = s.lports := rfl
@[simp] theorem modStream_lports (s : State) (k : Nat) (v : Stream → Stream) : (s.modStream k v).lports = s.lports := rfl
@[simp] theorem setStream_relays (s : State) (k : Nat) (v : Stream) : (s.setStream k v).relays = s.relays := rfl
@[simp] theorem modStream_relays (s : State) (k : Nat) (v : Stream → Stream) : (s.modStream k v).relays = s.relays := rfl
@[simp] theorem setStream_light (s : State) (k : Nat) (v : Stream) : (s.setStream k v).light = s.light := rfl
@[simp] theorem modStream_light (s : State) (k : Nat) (v : Stream → Stream) : (s.modStream k v).light = s.light := rfl
@[simp] theorem setStream_mons (s : State) (k : Nat) (v : Stream) : (s.setStream k v).mons = s.mons := rfl
@[simp] theorem modStream_mons (s : State) (k : Nat) (v : Stream → Stream) : (s.modStream k v).mons = s.mons := rfl
@[simp] theorem setStream_monLasts (s : State) (k : Nat) (v : Stream) : (s.setStream k v).monLasts = s.monLasts := rfl
@[simp] theorem modStream_monLasts (s : State) (k : Nat) (v : Stream → Stream) : (s.modStream k v).monLasts = s.monLasts := rfl
@[simp] theorem setStream_ring (s : State) (k : Nat) (v : Stream) : (s.setStream k v).ring = s.ring := rfl
@[simp] theorem modStream_ring (s : State) (k : Nat) (v : Stream → Stream) : (s.modStream k v).ring = s.ring := rfl
@[simp] theorem setStream_loops (s : State) (k : Nat) (v : Stream) : (s.setStream k v).loops = s.loops := rfl
@[simp] theorem modStream_loops (s : State) (k : Nat) (v : Stream → Stream) : (s.modStream k v).loops = s.loops := rfl
@[simp] theorem setStream_eng (s : State) (k : Nat) (v : Stream) : (s.setStream k v).eng = s.eng := rfl
@[simp] theorem modStream_eng (s : State) (k : Nat) (v : Stream → Stream) : (s.modStream k v).eng = s.eng := rfl
@[simp] theorem setStream_ops (s : State) (k : Nat) (v : Stream) : (s.setStream k v).ops = s.ops := rfl
@[simp] theorem modStream_ops (s : State) (k : Nat) (v : Stream → Stream) : (s.modStream k v).ops = s.ops := rfl
@[simp] theorem setStream_seq (s : State) (k : Nat) (v : Stream) : (s.setStream k v).seq = s.seq := rfl
@[simp] theorem modStream_seq (s : State) (k : Nat) (v : Stream → Stream) : (s.modStream k v).seq = s.seq := rfl
@[simp] theorem setStream_tokens (s : State) (k : Nat) (v : Stream) : (s.setStream k v).tokens = s.tokens := rfl
@[simp] theorem modStream_tokens (s : State) (k : Nat) (v : Stream → Stream) : (s.modStream k v).tokens = s.tokens := rfl
@[simp] theorem setStream_rowMaps (s : State) (k : Nat) (v : Stream) : (s.setStream k v).rowMaps = s.rowMaps := rfl
@[simp] theorem modStream_rowMaps (s : State) (k : Nat) (v : Stream → Stream) : (s.modStream k v).rowMaps = s.rowMaps := rfl
@[simp] theorem setStream_manifest (s : State) (k : Nat) (v : Stream) : (s.setStream k v).manifest = s.manifest := rfl
@[simp] theorem modStream_manifest (s : State) (k : Nat) (v : Stream → Stream) : (s.modStream k v).manifest = s.manifest := rfl
@[simp] theorem setStream_cores (s : State) (k : Nat) (v : Stream) : (s.setStream k v).cores = s.cores := rfl
@[simp] theorem modStream_cores (s : State) (k : Nat) (v : Stream → Stream) : (s.modStream k v).cores = s.cores := rfl
@[simp] theorem setStream_mem (s : State) (k : Nat) (v : Stream) : (s.setStream k v).mem = s.mem := rfl
@[simp] theorem modStream_mem (s : State) (k : Nat) (v : Stream → Stream) : (s.modStream k v).mem = s.mem := rfl
@[simp] theorem setStream_poison (s : State) (k : Nat) (v : Stream) : (s.setStream k v).poison = s.poison := rfl
@[simp] theorem modStream_poison (s : State) (k : Nat) (v : Stream → Stream) : (s.modStream k v).poison = s.poison := rfl
@[simp] theorem setStream_errs (s : State) (k : Nat) (v : Stream) : (s.setStream k v).errs = s.errs := rfl
@[simp] theorem modStream_errs (s : State) (k : Nat) (v : Stream → Stream) : (s.modStream k v).errs = s.errs := rfl
@[simp] theorem setStream_units (s : State) (k : Nat) (v : Stream) : (s.setStream k v).units = s.units := rfl
@[simp] theorem modStream_units (s : State) (k : Nat) (v : Stream → Stream) : (s.modStream k v).units = s.units := rfl
@[simp] theorem setStream_regions (s : State) (k : Nat) (v : Stream) : (s.setStream k v).regions = s.regions := rfl
@[simp] theorem modStream_regions (s : State) (k : Nat) (v : Stream → Stream) : (s.modStream k v).regions = s.regions := rfl
@[simp] theorem setStream_memTop (s : State) (k : Nat) (v : Stream) : (s.setStream k v).memTop = s.memTop := rfl
@[simp] theorem modStream_memTop (s : State) (k : Nat) (v : Stream → Stream) : (s.modStream k v).memTop = s.memTop := rfl
@[simp] theorem setStream_dir (s : State) (k : Nat) (v : Stream) : (s.setStream k v).dir = s.dir := rfl
@[simp] theorem modStream_dir (s : State) (k : Nat) (v : Stream → Stream) : (s.modStream k v).dir = s.dir := rfl
@[simp] theorem setStream_ctxs (s : State) (k : Nat) (v : Stream) : (s.setStream k v).ctxs = s.ctxs := rfl
@[simp] theorem modStream_ctxs (s : State) (k : Nat) (v : Stream → Stream) : (s.modStream k v).ctxs = s.ctxs := rfl
@[simp] theorem setStream_swaps (s : State) (k : Nat) (v : Stream) : (s.setStream k v).swaps = s.swaps := rfl
@[simp] theorem modStream_swaps (s : State) (k : Nat) (v : Stream → Stream) : (s.modStream k v).swaps = s.swaps := rfl
@[simp] theorem setStream_wts (s : State) (k : Nat) (v : Stream) : (s.setStream k v).wts = s.wts := rfl
@[simp] theorem modStream_wts (s : State) (k : Nat) (v : Stream → Stream) : (s.modStream k v).wts = s.wts := rfl
@[simp] theorem setStream_netLinks (s : State) (k : Nat) (v : Stream) : (s.setStream k v).netLinks = s.netLinks := rfl
@[simp] theorem modStream_netLinks (s : State) (k : Nat) (v : Stream → Stream) : (s.modStream k v).netLinks = s.netLinks := rfl
@[simp] theorem setStream_parts (s : State) (k : Nat) (v : Stream) : (s.setStream k v).parts = s.parts := rfl
@[simp] theorem modStream_parts (s : State) (k : Nat) (v : Stream → Stream) : (s.modStream k v).parts = s.parts := rfl
@[simp] theorem setStream_net (s : State) (k : Nat) (v : Stream) : (s.setStream k v).net = s.net := rfl
@[simp] theorem modStream_net (s : State) (k : Nat) (v : Stream → Stream) : (s.modStream k v).net = s.net := rfl
@[simp] theorem setStream_netBufs (s : State) (k : Nat) (v : Stream) : (s.setStream k v).netBufs = s.netBufs := rfl
@[simp] theorem modStream_netBufs (s : State) (k : Nat) (v : Stream → Stream) : (s.modStream k v).netBufs = s.netBufs := rfl
@[simp] theorem setStream_ports (s : State) (k : Nat) (v : Stream) : (s.setStream k v).ports = s.ports := rfl
@[simp] theorem modStream_ports (s : State) (k : Nat) (v : Stream → Stream) : (s.modStream k v).ports = s.ports := rfl
@[simp] theorem setStream_link (s : State) (k : Nat) (v : Stream) : (s.setStream k v).link = s.link := rfl
@[simp] theorem modStream_link (s : State) (k : Nat) (v : Stream → Stream) : (s.modStream k v).link = s.link := rfl
@[simp] theorem setStream_mbs (s : State) (k : Nat) (v : Stream) : (s.setStream k v).mbs = s.mbs := rfl
@[simp] theorem modStream_mbs (s : State) (k : Nat) (v : Stream → Stream) : (s.modStream k v).mbs = s.mbs := rfl
@[simp] theorem setStream_cmds (s : State) (k : Nat) (v : Stream) : (s.setStream k v).cmds = s.cmds := rfl
@[simp] theorem modStream_cmds (s : State) (k : Nat) (v : Stream → Stream) : (s.modStream k v).cmds = s.cmds := rfl
@[simp] theorem setStream_stw (s : State) (k : Nat) (v : Stream) : (s.setStream k v).stw = s.stw := rfl
@[simp] theorem modStream_stw (s : State) (k : Nat) (v : Stream → Stream) : (s.modStream k v).stw = s.stw := rfl
@[simp] theorem setStream_hostMem (s : State) (k : Nat) (v : Stream) : (s.setStream k v).hostMem = s.hostMem := rfl
@[simp] theorem modStream_hostMem (s : State) (k : Nat) (v : Stream → Stream) : (s.modStream k v).hostMem = s.hostMem := rfl
@[simp] theorem setStream_bu (s : State) (k : Nat) (v : Stream) : (s.setStream k v).bu = s.bu := rfl
@[simp] theorem modStream_bu (s : State) (k : Nat) (v : Stream → Stream) : (s.modStream k v).bu = s.bu := rfl
@[simp] theorem setStream_pwr (s : State) (k : Nat) (v : Stream) : (s.setStream k v).pwr = s.pwr := rfl
@[simp] theorem modStream_pwr (s : State) (k : Nat) (v : Stream → Stream) : (s.modStream k v).pwr = s.pwr := rfl
@[simp] theorem setStream_sensors (s : State) (k : Nat) (v : Stream) : (s.setStream k v).sensors = s.sensors := rfl
@[simp] theorem modStream_sensors (s : State) (k : Nat) (v : Stream → Stream) : (s.modStream k v).sensors = s.sensors := rfl
@[simp] theorem setStream_dies (s : State) (k : Nat) (v : Stream) : (s.setStream k v).dies = s.dies := rfl
@[simp] theorem modStream_dies (s : State) (k : Nat) (v : Stream → Stream) : (s.modStream k v).dies = s.dies := rfl
@[simp] theorem setStream_thm (s : State) (k : Nat) (v : Stream) : (s.setStream k v).thm = s.thm := rfl
@[simp] theorem modStream_thm (s : State) (k : Nat) (v : Stream → Stream) : (s.modStream k v).thm = s.thm := rfl
@[simp] theorem setStream_exts (s : State) (k : Nat) (v : Stream) : (s.setStream k v).exts = s.exts := rfl
@[simp] theorem modStream_exts (s : State) (k : Nat) (v : Stream → Stream) : (s.modStream k v).exts = s.exts := rfl
@[simp] theorem setStream_flt (s : State) (k : Nat) (v : Stream) : (s.setStream k v).flt = s.flt := rfl
@[simp] theorem modStream_flt (s : State) (k : Nat) (v : Stream → Stream) : (s.modStream k v).flt = s.flt := rfl
@[simp] theorem setStream_sec (s : State) (k : Nat) (v : Stream) : (s.setStream k v).sec = s.sec := rfl
@[simp] theorem modStream_sec (s : State) (k : Nat) (v : Stream → Stream) : (s.modStream k v).sec = s.sec := rfl
@[simp] theorem setStream_mg (s : State) (k : Nat) (v : Stream) : (s.setStream k v).mg = s.mg := rfl
@[simp] theorem modStream_mg (s : State) (k : Nat) (v : Stream → Stream) : (s.modStream k v).mg = s.mg := rfl
@[simp] theorem setStream_free (s : State) (k : Nat) (v : Stream) : (s.setStream k v).free = s.free := rfl
@[simp] theorem modStream_free (s : State) (k : Nat) (v : Stream → Stream) : (s.modStream k v).free = s.free := rfl
@[simp] theorem setStream_pending (s : State) (k : Nat) (v : Stream) : (s.setStream k v).pending = s.pending := rfl
@[simp] theorem modStream_pending (s : State) (k : Nat) (v : Stream → Stream) : (s.modStream k v).pending = s.pending := rfl

theorem modToken_eq (s : State) (k : Nat) (g : Token → Token) : s.modToken k g = s.setToken k (g (s.token k)) := rfl
@[simp] theorem setToken_tim (s : State) (k : Nat) (v : Token) : (s.setToken k v).tim = s.tim := rfl
@[simp] theorem modToken_tim (s : State) (k : Nat) (v : Token → Token) : (s.modToken k v).tim = s.tim := rfl
@[simp] theorem setToken_pins (s : State) (k : Nat) (v : Token) : (s.setToken k v).pins = s.pins := rfl
@[simp] theorem modToken_pins (s : State) (k : Nat) (v : Token → Token) : (s.modToken k v).pins = s.pins := rfl
@[simp] theorem setToken_fields (s : State) (k : Nat) (v : Token) : (s.setToken k v).fields = s.fields := rfl
@[simp] theorem modToken_fields (s : State) (k : Nat) (v : Token → Token) : (s.modToken k v).fields = s.fields := rfl
@[simp] theorem setToken_adcs (s : State) (k : Nat) (v : Token) : (s.setToken k v).adcs = s.adcs := rfl
@[simp] theorem modToken_adcs (s : State) (k : Nat) (v : Token → Token) : (s.modToken k v).adcs = s.adcs := rfl
@[simp] theorem setToken_adcTel (s : State) (k : Nat) (v : Token) : (s.setToken k v).adcTel = s.adcTel := rfl
@[simp] theorem modToken_adcTel (s : State) (k : Nat) (v : Token → Token) : (s.modToken k v).adcTel = s.adcTel := rfl
@[simp] theorem setToken_taints (s : State) (k : Nat) (v : Token) : (s.setToken k v).taints = s.taints := rfl
@[simp] theorem modToken_taints (s : State) (k : Nat) (v : Token → Token) : (s.modToken k v).taints = s.taints := rfl
@[simp] theorem setToken_acc (s : State) (k : Nat) (v : Token) : (s.setToken k v).acc = s.acc := rfl
@[simp] theorem modToken_acc (s : State) (k : Nat) (v : Token → Token) : (s.modToken k v).acc = s.acc := rfl
@[simp] theorem setToken_bands (s : State) (k : Nat) (v : Token) : (s.setToken k v).bands = s.bands := rfl
@[simp] theorem modToken_bands (s : State) (k : Nat) (v : Token → Token) : (s.modToken k v).bands = s.bands := rfl
@[simp] theorem setToken_cal (s : State) (k : Nat) (v : Token) : (s.setToken k v).cal = s.cal := rfl
@[simp] theorem modToken_cal (s : State) (k : Nat) (v : Token → Token) : (s.modToken k v).cal = s.cal := rfl
@[simp] theorem setToken_lcols (s : State) (k : Nat) (v : Token) : (s.setToken k v).lcols = s.lcols := rfl
@[simp] theorem modToken_lcols (s : State) (k : Nat) (v : Token → Token) : (s.modToken k v).lcols = s.lcols := rfl
@[simp] theorem setToken_lports (s : State) (k : Nat) (v : Token) : (s.setToken k v).lports = s.lports := rfl
@[simp] theorem modToken_lports (s : State) (k : Nat) (v : Token → Token) : (s.modToken k v).lports = s.lports := rfl
@[simp] theorem setToken_relays (s : State) (k : Nat) (v : Token) : (s.setToken k v).relays = s.relays := rfl
@[simp] theorem modToken_relays (s : State) (k : Nat) (v : Token → Token) : (s.modToken k v).relays = s.relays := rfl
@[simp] theorem setToken_light (s : State) (k : Nat) (v : Token) : (s.setToken k v).light = s.light := rfl
@[simp] theorem modToken_light (s : State) (k : Nat) (v : Token → Token) : (s.modToken k v).light = s.light := rfl
@[simp] theorem setToken_mons (s : State) (k : Nat) (v : Token) : (s.setToken k v).mons = s.mons := rfl
@[simp] theorem modToken_mons (s : State) (k : Nat) (v : Token → Token) : (s.modToken k v).mons = s.mons := rfl
@[simp] theorem setToken_monLasts (s : State) (k : Nat) (v : Token) : (s.setToken k v).monLasts = s.monLasts := rfl
@[simp] theorem modToken_monLasts (s : State) (k : Nat) (v : Token → Token) : (s.modToken k v).monLasts = s.monLasts := rfl
@[simp] theorem setToken_ring (s : State) (k : Nat) (v : Token) : (s.setToken k v).ring = s.ring := rfl
@[simp] theorem modToken_ring (s : State) (k : Nat) (v : Token → Token) : (s.modToken k v).ring = s.ring := rfl
@[simp] theorem setToken_loops (s : State) (k : Nat) (v : Token) : (s.setToken k v).loops = s.loops := rfl
@[simp] theorem modToken_loops (s : State) (k : Nat) (v : Token → Token) : (s.modToken k v).loops = s.loops := rfl
@[simp] theorem setToken_eng (s : State) (k : Nat) (v : Token) : (s.setToken k v).eng = s.eng := rfl
@[simp] theorem modToken_eng (s : State) (k : Nat) (v : Token → Token) : (s.modToken k v).eng = s.eng := rfl
@[simp] theorem setToken_streams (s : State) (k : Nat) (v : Token) : (s.setToken k v).streams = s.streams := rfl
@[simp] theorem modToken_streams (s : State) (k : Nat) (v : Token → Token) : (s.modToken k v).streams = s.streams := rfl
@[simp] theorem setToken_ops (s : State) (k : Nat) (v : Token) : (s.setToken k v).ops = s.ops := rfl
@[simp] theorem modToken_ops (s : State) (k : Nat) (v : Token → Token) : (s.modToken k v).ops = s.ops := rfl
@[simp] theorem setToken_seq (s : State) (k : Nat) (v : Token) : (s.setToken k v).seq = s.seq := rfl
@[simp] theorem modToken_seq (s : State) (k : Nat) (v : Token → Token) : (s.modToken k v).seq = s.seq := rfl
@[simp] theorem setToken_rowMaps (s : State) (k : Nat) (v : Token) : (s.setToken k v).rowMaps = s.rowMaps := rfl
@[simp] theorem modToken_rowMaps (s : State) (k : Nat) (v : Token → Token) : (s.modToken k v).rowMaps = s.rowMaps := rfl
@[simp] theorem setToken_manifest (s : State) (k : Nat) (v : Token) : (s.setToken k v).manifest = s.manifest := rfl
@[simp] theorem modToken_manifest (s : State) (k : Nat) (v : Token → Token) : (s.modToken k v).manifest = s.manifest := rfl
@[simp] theorem setToken_cores (s : State) (k : Nat) (v : Token) : (s.setToken k v).cores = s.cores := rfl
@[simp] theorem modToken_cores (s : State) (k : Nat) (v : Token → Token) : (s.modToken k v).cores = s.cores := rfl
@[simp] theorem setToken_mem (s : State) (k : Nat) (v : Token) : (s.setToken k v).mem = s.mem := rfl
@[simp] theorem modToken_mem (s : State) (k : Nat) (v : Token → Token) : (s.modToken k v).mem = s.mem := rfl
@[simp] theorem setToken_poison (s : State) (k : Nat) (v : Token) : (s.setToken k v).poison = s.poison := rfl
@[simp] theorem modToken_poison (s : State) (k : Nat) (v : Token → Token) : (s.modToken k v).poison = s.poison := rfl
@[simp] theorem setToken_errs (s : State) (k : Nat) (v : Token) : (s.setToken k v).errs = s.errs := rfl
@[simp] theorem modToken_errs (s : State) (k : Nat) (v : Token → Token) : (s.modToken k v).errs = s.errs := rfl
@[simp] theorem setToken_units (s : State) (k : Nat) (v : Token) : (s.setToken k v).units = s.units := rfl
@[simp] theorem modToken_units (s : State) (k : Nat) (v : Token → Token) : (s.modToken k v).units = s.units := rfl
@[simp] theorem setToken_regions (s : State) (k : Nat) (v : Token) : (s.setToken k v).regions = s.regions := rfl
@[simp] theorem modToken_regions (s : State) (k : Nat) (v : Token → Token) : (s.modToken k v).regions = s.regions := rfl
@[simp] theorem setToken_memTop (s : State) (k : Nat) (v : Token) : (s.setToken k v).memTop = s.memTop := rfl
@[simp] theorem modToken_memTop (s : State) (k : Nat) (v : Token → Token) : (s.modToken k v).memTop = s.memTop := rfl
@[simp] theorem setToken_dir (s : State) (k : Nat) (v : Token) : (s.setToken k v).dir = s.dir := rfl
@[simp] theorem modToken_dir (s : State) (k : Nat) (v : Token → Token) : (s.modToken k v).dir = s.dir := rfl
@[simp] theorem setToken_ctxs (s : State) (k : Nat) (v : Token) : (s.setToken k v).ctxs = s.ctxs := rfl
@[simp] theorem modToken_ctxs (s : State) (k : Nat) (v : Token → Token) : (s.modToken k v).ctxs = s.ctxs := rfl
@[simp] theorem setToken_swaps (s : State) (k : Nat) (v : Token) : (s.setToken k v).swaps = s.swaps := rfl
@[simp] theorem modToken_swaps (s : State) (k : Nat) (v : Token → Token) : (s.modToken k v).swaps = s.swaps := rfl
@[simp] theorem setToken_wts (s : State) (k : Nat) (v : Token) : (s.setToken k v).wts = s.wts := rfl
@[simp] theorem modToken_wts (s : State) (k : Nat) (v : Token → Token) : (s.modToken k v).wts = s.wts := rfl
@[simp] theorem setToken_netLinks (s : State) (k : Nat) (v : Token) : (s.setToken k v).netLinks = s.netLinks := rfl
@[simp] theorem modToken_netLinks (s : State) (k : Nat) (v : Token → Token) : (s.modToken k v).netLinks = s.netLinks := rfl
@[simp] theorem setToken_parts (s : State) (k : Nat) (v : Token) : (s.setToken k v).parts = s.parts := rfl
@[simp] theorem modToken_parts (s : State) (k : Nat) (v : Token → Token) : (s.modToken k v).parts = s.parts := rfl
@[simp] theorem setToken_net (s : State) (k : Nat) (v : Token) : (s.setToken k v).net = s.net := rfl
@[simp] theorem modToken_net (s : State) (k : Nat) (v : Token → Token) : (s.modToken k v).net = s.net := rfl
@[simp] theorem setToken_netBufs (s : State) (k : Nat) (v : Token) : (s.setToken k v).netBufs = s.netBufs := rfl
@[simp] theorem modToken_netBufs (s : State) (k : Nat) (v : Token → Token) : (s.modToken k v).netBufs = s.netBufs := rfl
@[simp] theorem setToken_ports (s : State) (k : Nat) (v : Token) : (s.setToken k v).ports = s.ports := rfl
@[simp] theorem modToken_ports (s : State) (k : Nat) (v : Token → Token) : (s.modToken k v).ports = s.ports := rfl
@[simp] theorem setToken_link (s : State) (k : Nat) (v : Token) : (s.setToken k v).link = s.link := rfl
@[simp] theorem modToken_link (s : State) (k : Nat) (v : Token → Token) : (s.modToken k v).link = s.link := rfl
@[simp] theorem setToken_mbs (s : State) (k : Nat) (v : Token) : (s.setToken k v).mbs = s.mbs := rfl
@[simp] theorem modToken_mbs (s : State) (k : Nat) (v : Token → Token) : (s.modToken k v).mbs = s.mbs := rfl
@[simp] theorem setToken_cmds (s : State) (k : Nat) (v : Token) : (s.setToken k v).cmds = s.cmds := rfl
@[simp] theorem modToken_cmds (s : State) (k : Nat) (v : Token → Token) : (s.modToken k v).cmds = s.cmds := rfl
@[simp] theorem setToken_stw (s : State) (k : Nat) (v : Token) : (s.setToken k v).stw = s.stw := rfl
@[simp] theorem modToken_stw (s : State) (k : Nat) (v : Token → Token) : (s.modToken k v).stw = s.stw := rfl
@[simp] theorem setToken_hostMem (s : State) (k : Nat) (v : Token) : (s.setToken k v).hostMem = s.hostMem := rfl
@[simp] theorem modToken_hostMem (s : State) (k : Nat) (v : Token → Token) : (s.modToken k v).hostMem = s.hostMem := rfl
@[simp] theorem setToken_bu (s : State) (k : Nat) (v : Token) : (s.setToken k v).bu = s.bu := rfl
@[simp] theorem modToken_bu (s : State) (k : Nat) (v : Token → Token) : (s.modToken k v).bu = s.bu := rfl
@[simp] theorem setToken_pwr (s : State) (k : Nat) (v : Token) : (s.setToken k v).pwr = s.pwr := rfl
@[simp] theorem modToken_pwr (s : State) (k : Nat) (v : Token → Token) : (s.modToken k v).pwr = s.pwr := rfl
@[simp] theorem setToken_sensors (s : State) (k : Nat) (v : Token) : (s.setToken k v).sensors = s.sensors := rfl
@[simp] theorem modToken_sensors (s : State) (k : Nat) (v : Token → Token) : (s.modToken k v).sensors = s.sensors := rfl
@[simp] theorem setToken_dies (s : State) (k : Nat) (v : Token) : (s.setToken k v).dies = s.dies := rfl
@[simp] theorem modToken_dies (s : State) (k : Nat) (v : Token → Token) : (s.modToken k v).dies = s.dies := rfl
@[simp] theorem setToken_thm (s : State) (k : Nat) (v : Token) : (s.setToken k v).thm = s.thm := rfl
@[simp] theorem modToken_thm (s : State) (k : Nat) (v : Token → Token) : (s.modToken k v).thm = s.thm := rfl
@[simp] theorem setToken_exts (s : State) (k : Nat) (v : Token) : (s.setToken k v).exts = s.exts := rfl
@[simp] theorem modToken_exts (s : State) (k : Nat) (v : Token → Token) : (s.modToken k v).exts = s.exts := rfl
@[simp] theorem setToken_flt (s : State) (k : Nat) (v : Token) : (s.setToken k v).flt = s.flt := rfl
@[simp] theorem modToken_flt (s : State) (k : Nat) (v : Token → Token) : (s.modToken k v).flt = s.flt := rfl
@[simp] theorem setToken_sec (s : State) (k : Nat) (v : Token) : (s.setToken k v).sec = s.sec := rfl
@[simp] theorem modToken_sec (s : State) (k : Nat) (v : Token → Token) : (s.modToken k v).sec = s.sec := rfl
@[simp] theorem setToken_mg (s : State) (k : Nat) (v : Token) : (s.setToken k v).mg = s.mg := rfl
@[simp] theorem modToken_mg (s : State) (k : Nat) (v : Token → Token) : (s.modToken k v).mg = s.mg := rfl
@[simp] theorem setToken_free (s : State) (k : Nat) (v : Token) : (s.setToken k v).free = s.free := rfl
@[simp] theorem modToken_free (s : State) (k : Nat) (v : Token → Token) : (s.modToken k v).free = s.free := rfl
@[simp] theorem setToken_pending (s : State) (k : Nat) (v : Token) : (s.setToken k v).pending = s.pending := rfl
@[simp] theorem modToken_pending (s : State) (k : Nat) (v : Token → Token) : (s.modToken k v).pending = s.pending := rfl

theorem modEntry_eq (s : State) (k : Nat) (g : Manifest → Manifest) : s.modEntry k g = s.setEntry k (g (s.entry k)) := rfl
@[simp] theorem setEntry_tim (s : State) (k : Nat) (v : Manifest) : (s.setEntry k v).tim = s.tim := rfl
@[simp] theorem modEntry_tim (s : State) (k : Nat) (v : Manifest → Manifest) : (s.modEntry k v).tim = s.tim := rfl
@[simp] theorem setEntry_pins (s : State) (k : Nat) (v : Manifest) : (s.setEntry k v).pins = s.pins := rfl
@[simp] theorem modEntry_pins (s : State) (k : Nat) (v : Manifest → Manifest) : (s.modEntry k v).pins = s.pins := rfl
@[simp] theorem setEntry_fields (s : State) (k : Nat) (v : Manifest) : (s.setEntry k v).fields = s.fields := rfl
@[simp] theorem modEntry_fields (s : State) (k : Nat) (v : Manifest → Manifest) : (s.modEntry k v).fields = s.fields := rfl
@[simp] theorem setEntry_adcs (s : State) (k : Nat) (v : Manifest) : (s.setEntry k v).adcs = s.adcs := rfl
@[simp] theorem modEntry_adcs (s : State) (k : Nat) (v : Manifest → Manifest) : (s.modEntry k v).adcs = s.adcs := rfl
@[simp] theorem setEntry_adcTel (s : State) (k : Nat) (v : Manifest) : (s.setEntry k v).adcTel = s.adcTel := rfl
@[simp] theorem modEntry_adcTel (s : State) (k : Nat) (v : Manifest → Manifest) : (s.modEntry k v).adcTel = s.adcTel := rfl
@[simp] theorem setEntry_taints (s : State) (k : Nat) (v : Manifest) : (s.setEntry k v).taints = s.taints := rfl
@[simp] theorem modEntry_taints (s : State) (k : Nat) (v : Manifest → Manifest) : (s.modEntry k v).taints = s.taints := rfl
@[simp] theorem setEntry_acc (s : State) (k : Nat) (v : Manifest) : (s.setEntry k v).acc = s.acc := rfl
@[simp] theorem modEntry_acc (s : State) (k : Nat) (v : Manifest → Manifest) : (s.modEntry k v).acc = s.acc := rfl
@[simp] theorem setEntry_bands (s : State) (k : Nat) (v : Manifest) : (s.setEntry k v).bands = s.bands := rfl
@[simp] theorem modEntry_bands (s : State) (k : Nat) (v : Manifest → Manifest) : (s.modEntry k v).bands = s.bands := rfl
@[simp] theorem setEntry_cal (s : State) (k : Nat) (v : Manifest) : (s.setEntry k v).cal = s.cal := rfl
@[simp] theorem modEntry_cal (s : State) (k : Nat) (v : Manifest → Manifest) : (s.modEntry k v).cal = s.cal := rfl
@[simp] theorem setEntry_lcols (s : State) (k : Nat) (v : Manifest) : (s.setEntry k v).lcols = s.lcols := rfl
@[simp] theorem modEntry_lcols (s : State) (k : Nat) (v : Manifest → Manifest) : (s.modEntry k v).lcols = s.lcols := rfl
@[simp] theorem setEntry_lports (s : State) (k : Nat) (v : Manifest) : (s.setEntry k v).lports = s.lports := rfl
@[simp] theorem modEntry_lports (s : State) (k : Nat) (v : Manifest → Manifest) : (s.modEntry k v).lports = s.lports := rfl
@[simp] theorem setEntry_relays (s : State) (k : Nat) (v : Manifest) : (s.setEntry k v).relays = s.relays := rfl
@[simp] theorem modEntry_relays (s : State) (k : Nat) (v : Manifest → Manifest) : (s.modEntry k v).relays = s.relays := rfl
@[simp] theorem setEntry_light (s : State) (k : Nat) (v : Manifest) : (s.setEntry k v).light = s.light := rfl
@[simp] theorem modEntry_light (s : State) (k : Nat) (v : Manifest → Manifest) : (s.modEntry k v).light = s.light := rfl
@[simp] theorem setEntry_mons (s : State) (k : Nat) (v : Manifest) : (s.setEntry k v).mons = s.mons := rfl
@[simp] theorem modEntry_mons (s : State) (k : Nat) (v : Manifest → Manifest) : (s.modEntry k v).mons = s.mons := rfl
@[simp] theorem setEntry_monLasts (s : State) (k : Nat) (v : Manifest) : (s.setEntry k v).monLasts = s.monLasts := rfl
@[simp] theorem modEntry_monLasts (s : State) (k : Nat) (v : Manifest → Manifest) : (s.modEntry k v).monLasts = s.monLasts := rfl
@[simp] theorem setEntry_ring (s : State) (k : Nat) (v : Manifest) : (s.setEntry k v).ring = s.ring := rfl
@[simp] theorem modEntry_ring (s : State) (k : Nat) (v : Manifest → Manifest) : (s.modEntry k v).ring = s.ring := rfl
@[simp] theorem setEntry_loops (s : State) (k : Nat) (v : Manifest) : (s.setEntry k v).loops = s.loops := rfl
@[simp] theorem modEntry_loops (s : State) (k : Nat) (v : Manifest → Manifest) : (s.modEntry k v).loops = s.loops := rfl
@[simp] theorem setEntry_eng (s : State) (k : Nat) (v : Manifest) : (s.setEntry k v).eng = s.eng := rfl
@[simp] theorem modEntry_eng (s : State) (k : Nat) (v : Manifest → Manifest) : (s.modEntry k v).eng = s.eng := rfl
@[simp] theorem setEntry_streams (s : State) (k : Nat) (v : Manifest) : (s.setEntry k v).streams = s.streams := rfl
@[simp] theorem modEntry_streams (s : State) (k : Nat) (v : Manifest → Manifest) : (s.modEntry k v).streams = s.streams := rfl
@[simp] theorem setEntry_ops (s : State) (k : Nat) (v : Manifest) : (s.setEntry k v).ops = s.ops := rfl
@[simp] theorem modEntry_ops (s : State) (k : Nat) (v : Manifest → Manifest) : (s.modEntry k v).ops = s.ops := rfl
@[simp] theorem setEntry_seq (s : State) (k : Nat) (v : Manifest) : (s.setEntry k v).seq = s.seq := rfl
@[simp] theorem modEntry_seq (s : State) (k : Nat) (v : Manifest → Manifest) : (s.modEntry k v).seq = s.seq := rfl
@[simp] theorem setEntry_tokens (s : State) (k : Nat) (v : Manifest) : (s.setEntry k v).tokens = s.tokens := rfl
@[simp] theorem modEntry_tokens (s : State) (k : Nat) (v : Manifest → Manifest) : (s.modEntry k v).tokens = s.tokens := rfl
@[simp] theorem setEntry_rowMaps (s : State) (k : Nat) (v : Manifest) : (s.setEntry k v).rowMaps = s.rowMaps := rfl
@[simp] theorem modEntry_rowMaps (s : State) (k : Nat) (v : Manifest → Manifest) : (s.modEntry k v).rowMaps = s.rowMaps := rfl
@[simp] theorem setEntry_cores (s : State) (k : Nat) (v : Manifest) : (s.setEntry k v).cores = s.cores := rfl
@[simp] theorem modEntry_cores (s : State) (k : Nat) (v : Manifest → Manifest) : (s.modEntry k v).cores = s.cores := rfl
@[simp] theorem setEntry_mem (s : State) (k : Nat) (v : Manifest) : (s.setEntry k v).mem = s.mem := rfl
@[simp] theorem modEntry_mem (s : State) (k : Nat) (v : Manifest → Manifest) : (s.modEntry k v).mem = s.mem := rfl
@[simp] theorem setEntry_poison (s : State) (k : Nat) (v : Manifest) : (s.setEntry k v).poison = s.poison := rfl
@[simp] theorem modEntry_poison (s : State) (k : Nat) (v : Manifest → Manifest) : (s.modEntry k v).poison = s.poison := rfl
@[simp] theorem setEntry_errs (s : State) (k : Nat) (v : Manifest) : (s.setEntry k v).errs = s.errs := rfl
@[simp] theorem modEntry_errs (s : State) (k : Nat) (v : Manifest → Manifest) : (s.modEntry k v).errs = s.errs := rfl
@[simp] theorem setEntry_units (s : State) (k : Nat) (v : Manifest) : (s.setEntry k v).units = s.units := rfl
@[simp] theorem modEntry_units (s : State) (k : Nat) (v : Manifest → Manifest) : (s.modEntry k v).units = s.units := rfl
@[simp] theorem setEntry_regions (s : State) (k : Nat) (v : Manifest) : (s.setEntry k v).regions = s.regions := rfl
@[simp] theorem modEntry_regions (s : State) (k : Nat) (v : Manifest → Manifest) : (s.modEntry k v).regions = s.regions := rfl
@[simp] theorem setEntry_memTop (s : State) (k : Nat) (v : Manifest) : (s.setEntry k v).memTop = s.memTop := rfl
@[simp] theorem modEntry_memTop (s : State) (k : Nat) (v : Manifest → Manifest) : (s.modEntry k v).memTop = s.memTop := rfl
@[simp] theorem setEntry_dir (s : State) (k : Nat) (v : Manifest) : (s.setEntry k v).dir = s.dir := rfl
@[simp] theorem modEntry_dir (s : State) (k : Nat) (v : Manifest → Manifest) : (s.modEntry k v).dir = s.dir := rfl
@[simp] theorem setEntry_ctxs (s : State) (k : Nat) (v : Manifest) : (s.setEntry k v).ctxs = s.ctxs := rfl
@[simp] theorem modEntry_ctxs (s : State) (k : Nat) (v : Manifest → Manifest) : (s.modEntry k v).ctxs = s.ctxs := rfl
@[simp] theorem setEntry_swaps (s : State) (k : Nat) (v : Manifest) : (s.setEntry k v).swaps = s.swaps := rfl
@[simp] theorem modEntry_swaps (s : State) (k : Nat) (v : Manifest → Manifest) : (s.modEntry k v).swaps = s.swaps := rfl
@[simp] theorem setEntry_wts (s : State) (k : Nat) (v : Manifest) : (s.setEntry k v).wts = s.wts := rfl
@[simp] theorem modEntry_wts (s : State) (k : Nat) (v : Manifest → Manifest) : (s.modEntry k v).wts = s.wts := rfl
@[simp] theorem setEntry_netLinks (s : State) (k : Nat) (v : Manifest) : (s.setEntry k v).netLinks = s.netLinks := rfl
@[simp] theorem modEntry_netLinks (s : State) (k : Nat) (v : Manifest → Manifest) : (s.modEntry k v).netLinks = s.netLinks := rfl
@[simp] theorem setEntry_parts (s : State) (k : Nat) (v : Manifest) : (s.setEntry k v).parts = s.parts := rfl
@[simp] theorem modEntry_parts (s : State) (k : Nat) (v : Manifest → Manifest) : (s.modEntry k v).parts = s.parts := rfl
@[simp] theorem setEntry_net (s : State) (k : Nat) (v : Manifest) : (s.setEntry k v).net = s.net := rfl
@[simp] theorem modEntry_net (s : State) (k : Nat) (v : Manifest → Manifest) : (s.modEntry k v).net = s.net := rfl
@[simp] theorem setEntry_netBufs (s : State) (k : Nat) (v : Manifest) : (s.setEntry k v).netBufs = s.netBufs := rfl
@[simp] theorem modEntry_netBufs (s : State) (k : Nat) (v : Manifest → Manifest) : (s.modEntry k v).netBufs = s.netBufs := rfl
@[simp] theorem setEntry_ports (s : State) (k : Nat) (v : Manifest) : (s.setEntry k v).ports = s.ports := rfl
@[simp] theorem modEntry_ports (s : State) (k : Nat) (v : Manifest → Manifest) : (s.modEntry k v).ports = s.ports := rfl
@[simp] theorem setEntry_link (s : State) (k : Nat) (v : Manifest) : (s.setEntry k v).link = s.link := rfl
@[simp] theorem modEntry_link (s : State) (k : Nat) (v : Manifest → Manifest) : (s.modEntry k v).link = s.link := rfl
@[simp] theorem setEntry_mbs (s : State) (k : Nat) (v : Manifest) : (s.setEntry k v).mbs = s.mbs := rfl
@[simp] theorem modEntry_mbs (s : State) (k : Nat) (v : Manifest → Manifest) : (s.modEntry k v).mbs = s.mbs := rfl
@[simp] theorem setEntry_cmds (s : State) (k : Nat) (v : Manifest) : (s.setEntry k v).cmds = s.cmds := rfl
@[simp] theorem modEntry_cmds (s : State) (k : Nat) (v : Manifest → Manifest) : (s.modEntry k v).cmds = s.cmds := rfl
@[simp] theorem setEntry_stw (s : State) (k : Nat) (v : Manifest) : (s.setEntry k v).stw = s.stw := rfl
@[simp] theorem modEntry_stw (s : State) (k : Nat) (v : Manifest → Manifest) : (s.modEntry k v).stw = s.stw := rfl
@[simp] theorem setEntry_hostMem (s : State) (k : Nat) (v : Manifest) : (s.setEntry k v).hostMem = s.hostMem := rfl
@[simp] theorem modEntry_hostMem (s : State) (k : Nat) (v : Manifest → Manifest) : (s.modEntry k v).hostMem = s.hostMem := rfl
@[simp] theorem setEntry_bu (s : State) (k : Nat) (v : Manifest) : (s.setEntry k v).bu = s.bu := rfl
@[simp] theorem modEntry_bu (s : State) (k : Nat) (v : Manifest → Manifest) : (s.modEntry k v).bu = s.bu := rfl
@[simp] theorem setEntry_pwr (s : State) (k : Nat) (v : Manifest) : (s.setEntry k v).pwr = s.pwr := rfl
@[simp] theorem modEntry_pwr (s : State) (k : Nat) (v : Manifest → Manifest) : (s.modEntry k v).pwr = s.pwr := rfl
@[simp] theorem setEntry_sensors (s : State) (k : Nat) (v : Manifest) : (s.setEntry k v).sensors = s.sensors := rfl
@[simp] theorem modEntry_sensors (s : State) (k : Nat) (v : Manifest → Manifest) : (s.modEntry k v).sensors = s.sensors := rfl
@[simp] theorem setEntry_dies (s : State) (k : Nat) (v : Manifest) : (s.setEntry k v).dies = s.dies := rfl
@[simp] theorem modEntry_dies (s : State) (k : Nat) (v : Manifest → Manifest) : (s.modEntry k v).dies = s.dies := rfl
@[simp] theorem setEntry_thm (s : State) (k : Nat) (v : Manifest) : (s.setEntry k v).thm = s.thm := rfl
@[simp] theorem modEntry_thm (s : State) (k : Nat) (v : Manifest → Manifest) : (s.modEntry k v).thm = s.thm := rfl
@[simp] theorem setEntry_exts (s : State) (k : Nat) (v : Manifest) : (s.setEntry k v).exts = s.exts := rfl
@[simp] theorem modEntry_exts (s : State) (k : Nat) (v : Manifest → Manifest) : (s.modEntry k v).exts = s.exts := rfl
@[simp] theorem setEntry_flt (s : State) (k : Nat) (v : Manifest) : (s.setEntry k v).flt = s.flt := rfl
@[simp] theorem modEntry_flt (s : State) (k : Nat) (v : Manifest → Manifest) : (s.modEntry k v).flt = s.flt := rfl
@[simp] theorem setEntry_sec (s : State) (k : Nat) (v : Manifest) : (s.setEntry k v).sec = s.sec := rfl
@[simp] theorem modEntry_sec (s : State) (k : Nat) (v : Manifest → Manifest) : (s.modEntry k v).sec = s.sec := rfl
@[simp] theorem setEntry_mg (s : State) (k : Nat) (v : Manifest) : (s.setEntry k v).mg = s.mg := rfl
@[simp] theorem modEntry_mg (s : State) (k : Nat) (v : Manifest → Manifest) : (s.modEntry k v).mg = s.mg := rfl
@[simp] theorem setEntry_free (s : State) (k : Nat) (v : Manifest) : (s.setEntry k v).free = s.free := rfl
@[simp] theorem modEntry_free (s : State) (k : Nat) (v : Manifest → Manifest) : (s.modEntry k v).free = s.free := rfl
@[simp] theorem setEntry_pending (s : State) (k : Nat) (v : Manifest) : (s.setEntry k v).pending = s.pending := rfl
@[simp] theorem modEntry_pending (s : State) (k : Nat) (v : Manifest → Manifest) : (s.modEntry k v).pending = s.pending := rfl

theorem modCoreOf_eq (s : State) (k : Nat) (g : Core → Core) : s.modCoreOf k g = s.setCoreOf k (g (s.coreOf k)) := rfl
@[simp] theorem setCoreOf_tim (s : State) (k : Nat) (v : Core) : (s.setCoreOf k v).tim = s.tim := rfl
@[simp] theorem modCoreOf_tim (s : State) (k : Nat) (v : Core → Core) : (s.modCoreOf k v).tim = s.tim := rfl
@[simp] theorem setCoreOf_pins (s : State) (k : Nat) (v : Core) : (s.setCoreOf k v).pins = s.pins := rfl
@[simp] theorem modCoreOf_pins (s : State) (k : Nat) (v : Core → Core) : (s.modCoreOf k v).pins = s.pins := rfl
@[simp] theorem setCoreOf_fields (s : State) (k : Nat) (v : Core) : (s.setCoreOf k v).fields = s.fields := rfl
@[simp] theorem modCoreOf_fields (s : State) (k : Nat) (v : Core → Core) : (s.modCoreOf k v).fields = s.fields := rfl
@[simp] theorem setCoreOf_adcs (s : State) (k : Nat) (v : Core) : (s.setCoreOf k v).adcs = s.adcs := rfl
@[simp] theorem modCoreOf_adcs (s : State) (k : Nat) (v : Core → Core) : (s.modCoreOf k v).adcs = s.adcs := rfl
@[simp] theorem setCoreOf_adcTel (s : State) (k : Nat) (v : Core) : (s.setCoreOf k v).adcTel = s.adcTel := rfl
@[simp] theorem modCoreOf_adcTel (s : State) (k : Nat) (v : Core → Core) : (s.modCoreOf k v).adcTel = s.adcTel := rfl
@[simp] theorem setCoreOf_taints (s : State) (k : Nat) (v : Core) : (s.setCoreOf k v).taints = s.taints := rfl
@[simp] theorem modCoreOf_taints (s : State) (k : Nat) (v : Core → Core) : (s.modCoreOf k v).taints = s.taints := rfl
@[simp] theorem setCoreOf_acc (s : State) (k : Nat) (v : Core) : (s.setCoreOf k v).acc = s.acc := rfl
@[simp] theorem modCoreOf_acc (s : State) (k : Nat) (v : Core → Core) : (s.modCoreOf k v).acc = s.acc := rfl
@[simp] theorem setCoreOf_bands (s : State) (k : Nat) (v : Core) : (s.setCoreOf k v).bands = s.bands := rfl
@[simp] theorem modCoreOf_bands (s : State) (k : Nat) (v : Core → Core) : (s.modCoreOf k v).bands = s.bands := rfl
@[simp] theorem setCoreOf_cal (s : State) (k : Nat) (v : Core) : (s.setCoreOf k v).cal = s.cal := rfl
@[simp] theorem modCoreOf_cal (s : State) (k : Nat) (v : Core → Core) : (s.modCoreOf k v).cal = s.cal := rfl
@[simp] theorem setCoreOf_lcols (s : State) (k : Nat) (v : Core) : (s.setCoreOf k v).lcols = s.lcols := rfl
@[simp] theorem modCoreOf_lcols (s : State) (k : Nat) (v : Core → Core) : (s.modCoreOf k v).lcols = s.lcols := rfl
@[simp] theorem setCoreOf_lports (s : State) (k : Nat) (v : Core) : (s.setCoreOf k v).lports = s.lports := rfl
@[simp] theorem modCoreOf_lports (s : State) (k : Nat) (v : Core → Core) : (s.modCoreOf k v).lports = s.lports := rfl
@[simp] theorem setCoreOf_relays (s : State) (k : Nat) (v : Core) : (s.setCoreOf k v).relays = s.relays := rfl
@[simp] theorem modCoreOf_relays (s : State) (k : Nat) (v : Core → Core) : (s.modCoreOf k v).relays = s.relays := rfl
@[simp] theorem setCoreOf_light (s : State) (k : Nat) (v : Core) : (s.setCoreOf k v).light = s.light := rfl
@[simp] theorem modCoreOf_light (s : State) (k : Nat) (v : Core → Core) : (s.modCoreOf k v).light = s.light := rfl
@[simp] theorem setCoreOf_mons (s : State) (k : Nat) (v : Core) : (s.setCoreOf k v).mons = s.mons := rfl
@[simp] theorem modCoreOf_mons (s : State) (k : Nat) (v : Core → Core) : (s.modCoreOf k v).mons = s.mons := rfl
@[simp] theorem setCoreOf_monLasts (s : State) (k : Nat) (v : Core) : (s.setCoreOf k v).monLasts = s.monLasts := rfl
@[simp] theorem modCoreOf_monLasts (s : State) (k : Nat) (v : Core → Core) : (s.modCoreOf k v).monLasts = s.monLasts := rfl
@[simp] theorem setCoreOf_ring (s : State) (k : Nat) (v : Core) : (s.setCoreOf k v).ring = s.ring := rfl
@[simp] theorem modCoreOf_ring (s : State) (k : Nat) (v : Core → Core) : (s.modCoreOf k v).ring = s.ring := rfl
@[simp] theorem setCoreOf_loops (s : State) (k : Nat) (v : Core) : (s.setCoreOf k v).loops = s.loops := rfl
@[simp] theorem modCoreOf_loops (s : State) (k : Nat) (v : Core → Core) : (s.modCoreOf k v).loops = s.loops := rfl
@[simp] theorem setCoreOf_eng (s : State) (k : Nat) (v : Core) : (s.setCoreOf k v).eng = s.eng := rfl
@[simp] theorem modCoreOf_eng (s : State) (k : Nat) (v : Core → Core) : (s.modCoreOf k v).eng = s.eng := rfl
@[simp] theorem setCoreOf_streams (s : State) (k : Nat) (v : Core) : (s.setCoreOf k v).streams = s.streams := rfl
@[simp] theorem modCoreOf_streams (s : State) (k : Nat) (v : Core → Core) : (s.modCoreOf k v).streams = s.streams := rfl
@[simp] theorem setCoreOf_ops (s : State) (k : Nat) (v : Core) : (s.setCoreOf k v).ops = s.ops := rfl
@[simp] theorem modCoreOf_ops (s : State) (k : Nat) (v : Core → Core) : (s.modCoreOf k v).ops = s.ops := rfl
@[simp] theorem setCoreOf_seq (s : State) (k : Nat) (v : Core) : (s.setCoreOf k v).seq = s.seq := rfl
@[simp] theorem modCoreOf_seq (s : State) (k : Nat) (v : Core → Core) : (s.modCoreOf k v).seq = s.seq := rfl
@[simp] theorem setCoreOf_tokens (s : State) (k : Nat) (v : Core) : (s.setCoreOf k v).tokens = s.tokens := rfl
@[simp] theorem modCoreOf_tokens (s : State) (k : Nat) (v : Core → Core) : (s.modCoreOf k v).tokens = s.tokens := rfl
@[simp] theorem setCoreOf_rowMaps (s : State) (k : Nat) (v : Core) : (s.setCoreOf k v).rowMaps = s.rowMaps := rfl
@[simp] theorem modCoreOf_rowMaps (s : State) (k : Nat) (v : Core → Core) : (s.modCoreOf k v).rowMaps = s.rowMaps := rfl
@[simp] theorem setCoreOf_manifest (s : State) (k : Nat) (v : Core) : (s.setCoreOf k v).manifest = s.manifest := rfl
@[simp] theorem modCoreOf_manifest (s : State) (k : Nat) (v : Core → Core) : (s.modCoreOf k v).manifest = s.manifest := rfl
@[simp] theorem setCoreOf_mem (s : State) (k : Nat) (v : Core) : (s.setCoreOf k v).mem = s.mem := rfl
@[simp] theorem modCoreOf_mem (s : State) (k : Nat) (v : Core → Core) : (s.modCoreOf k v).mem = s.mem := rfl
@[simp] theorem setCoreOf_poison (s : State) (k : Nat) (v : Core) : (s.setCoreOf k v).poison = s.poison := rfl
@[simp] theorem modCoreOf_poison (s : State) (k : Nat) (v : Core → Core) : (s.modCoreOf k v).poison = s.poison := rfl
@[simp] theorem setCoreOf_errs (s : State) (k : Nat) (v : Core) : (s.setCoreOf k v).errs = s.errs := rfl
@[simp] theorem modCoreOf_errs (s : State) (k : Nat) (v : Core → Core) : (s.modCoreOf k v).errs = s.errs := rfl
@[simp] theorem setCoreOf_units (s : State) (k : Nat) (v : Core) : (s.setCoreOf k v).units = s.units := rfl
@[simp] theorem modCoreOf_units (s : State) (k : Nat) (v : Core → Core) : (s.modCoreOf k v).units = s.units := rfl
@[simp] theorem setCoreOf_regions (s : State) (k : Nat) (v : Core) : (s.setCoreOf k v).regions = s.regions := rfl
@[simp] theorem modCoreOf_regions (s : State) (k : Nat) (v : Core → Core) : (s.modCoreOf k v).regions = s.regions := rfl
@[simp] theorem setCoreOf_memTop (s : State) (k : Nat) (v : Core) : (s.setCoreOf k v).memTop = s.memTop := rfl
@[simp] theorem modCoreOf_memTop (s : State) (k : Nat) (v : Core → Core) : (s.modCoreOf k v).memTop = s.memTop := rfl
@[simp] theorem setCoreOf_dir (s : State) (k : Nat) (v : Core) : (s.setCoreOf k v).dir = s.dir := rfl
@[simp] theorem modCoreOf_dir (s : State) (k : Nat) (v : Core → Core) : (s.modCoreOf k v).dir = s.dir := rfl
@[simp] theorem setCoreOf_ctxs (s : State) (k : Nat) (v : Core) : (s.setCoreOf k v).ctxs = s.ctxs := rfl
@[simp] theorem modCoreOf_ctxs (s : State) (k : Nat) (v : Core → Core) : (s.modCoreOf k v).ctxs = s.ctxs := rfl
@[simp] theorem setCoreOf_swaps (s : State) (k : Nat) (v : Core) : (s.setCoreOf k v).swaps = s.swaps := rfl
@[simp] theorem modCoreOf_swaps (s : State) (k : Nat) (v : Core → Core) : (s.modCoreOf k v).swaps = s.swaps := rfl
@[simp] theorem setCoreOf_wts (s : State) (k : Nat) (v : Core) : (s.setCoreOf k v).wts = s.wts := rfl
@[simp] theorem modCoreOf_wts (s : State) (k : Nat) (v : Core → Core) : (s.modCoreOf k v).wts = s.wts := rfl
@[simp] theorem setCoreOf_netLinks (s : State) (k : Nat) (v : Core) : (s.setCoreOf k v).netLinks = s.netLinks := rfl
@[simp] theorem modCoreOf_netLinks (s : State) (k : Nat) (v : Core → Core) : (s.modCoreOf k v).netLinks = s.netLinks := rfl
@[simp] theorem setCoreOf_parts (s : State) (k : Nat) (v : Core) : (s.setCoreOf k v).parts = s.parts := rfl
@[simp] theorem modCoreOf_parts (s : State) (k : Nat) (v : Core → Core) : (s.modCoreOf k v).parts = s.parts := rfl
@[simp] theorem setCoreOf_net (s : State) (k : Nat) (v : Core) : (s.setCoreOf k v).net = s.net := rfl
@[simp] theorem modCoreOf_net (s : State) (k : Nat) (v : Core → Core) : (s.modCoreOf k v).net = s.net := rfl
@[simp] theorem setCoreOf_netBufs (s : State) (k : Nat) (v : Core) : (s.setCoreOf k v).netBufs = s.netBufs := rfl
@[simp] theorem modCoreOf_netBufs (s : State) (k : Nat) (v : Core → Core) : (s.modCoreOf k v).netBufs = s.netBufs := rfl
@[simp] theorem setCoreOf_ports (s : State) (k : Nat) (v : Core) : (s.setCoreOf k v).ports = s.ports := rfl
@[simp] theorem modCoreOf_ports (s : State) (k : Nat) (v : Core → Core) : (s.modCoreOf k v).ports = s.ports := rfl
@[simp] theorem setCoreOf_link (s : State) (k : Nat) (v : Core) : (s.setCoreOf k v).link = s.link := rfl
@[simp] theorem modCoreOf_link (s : State) (k : Nat) (v : Core → Core) : (s.modCoreOf k v).link = s.link := rfl
@[simp] theorem setCoreOf_mbs (s : State) (k : Nat) (v : Core) : (s.setCoreOf k v).mbs = s.mbs := rfl
@[simp] theorem modCoreOf_mbs (s : State) (k : Nat) (v : Core → Core) : (s.modCoreOf k v).mbs = s.mbs := rfl
@[simp] theorem setCoreOf_cmds (s : State) (k : Nat) (v : Core) : (s.setCoreOf k v).cmds = s.cmds := rfl
@[simp] theorem modCoreOf_cmds (s : State) (k : Nat) (v : Core → Core) : (s.modCoreOf k v).cmds = s.cmds := rfl
@[simp] theorem setCoreOf_stw (s : State) (k : Nat) (v : Core) : (s.setCoreOf k v).stw = s.stw := rfl
@[simp] theorem modCoreOf_stw (s : State) (k : Nat) (v : Core → Core) : (s.modCoreOf k v).stw = s.stw := rfl
@[simp] theorem setCoreOf_hostMem (s : State) (k : Nat) (v : Core) : (s.setCoreOf k v).hostMem = s.hostMem := rfl
@[simp] theorem modCoreOf_hostMem (s : State) (k : Nat) (v : Core → Core) : (s.modCoreOf k v).hostMem = s.hostMem := rfl
@[simp] theorem setCoreOf_bu (s : State) (k : Nat) (v : Core) : (s.setCoreOf k v).bu = s.bu := rfl
@[simp] theorem modCoreOf_bu (s : State) (k : Nat) (v : Core → Core) : (s.modCoreOf k v).bu = s.bu := rfl
@[simp] theorem setCoreOf_pwr (s : State) (k : Nat) (v : Core) : (s.setCoreOf k v).pwr = s.pwr := rfl
@[simp] theorem modCoreOf_pwr (s : State) (k : Nat) (v : Core → Core) : (s.modCoreOf k v).pwr = s.pwr := rfl
@[simp] theorem setCoreOf_sensors (s : State) (k : Nat) (v : Core) : (s.setCoreOf k v).sensors = s.sensors := rfl
@[simp] theorem modCoreOf_sensors (s : State) (k : Nat) (v : Core → Core) : (s.modCoreOf k v).sensors = s.sensors := rfl
@[simp] theorem setCoreOf_dies (s : State) (k : Nat) (v : Core) : (s.setCoreOf k v).dies = s.dies := rfl
@[simp] theorem modCoreOf_dies (s : State) (k : Nat) (v : Core → Core) : (s.modCoreOf k v).dies = s.dies := rfl
@[simp] theorem setCoreOf_thm (s : State) (k : Nat) (v : Core) : (s.setCoreOf k v).thm = s.thm := rfl
@[simp] theorem modCoreOf_thm (s : State) (k : Nat) (v : Core → Core) : (s.modCoreOf k v).thm = s.thm := rfl
@[simp] theorem setCoreOf_exts (s : State) (k : Nat) (v : Core) : (s.setCoreOf k v).exts = s.exts := rfl
@[simp] theorem modCoreOf_exts (s : State) (k : Nat) (v : Core → Core) : (s.modCoreOf k v).exts = s.exts := rfl
@[simp] theorem setCoreOf_flt (s : State) (k : Nat) (v : Core) : (s.setCoreOf k v).flt = s.flt := rfl
@[simp] theorem modCoreOf_flt (s : State) (k : Nat) (v : Core → Core) : (s.modCoreOf k v).flt = s.flt := rfl
@[simp] theorem setCoreOf_sec (s : State) (k : Nat) (v : Core) : (s.setCoreOf k v).sec = s.sec := rfl
@[simp] theorem modCoreOf_sec (s : State) (k : Nat) (v : Core → Core) : (s.modCoreOf k v).sec = s.sec := rfl
@[simp] theorem setCoreOf_mg (s : State) (k : Nat) (v : Core) : (s.setCoreOf k v).mg = s.mg := rfl
@[simp] theorem modCoreOf_mg (s : State) (k : Nat) (v : Core → Core) : (s.modCoreOf k v).mg = s.mg := rfl
@[simp] theorem setCoreOf_free (s : State) (k : Nat) (v : Core) : (s.setCoreOf k v).free = s.free := rfl
@[simp] theorem modCoreOf_free (s : State) (k : Nat) (v : Core → Core) : (s.modCoreOf k v).free = s.free := rfl
@[simp] theorem setCoreOf_pending (s : State) (k : Nat) (v : Core) : (s.setCoreOf k v).pending = s.pending := rfl
@[simp] theorem modCoreOf_pending (s : State) (k : Nat) (v : Core → Core) : (s.modCoreOf k v).pending = s.pending := rfl

theorem modPoisoned_eq (s : State) (k : Nat) (g : Bool → Bool) : s.modPoisoned k g = s.setPoisoned k (g (s.poisoned k)) := rfl
@[simp] theorem setPoisoned_tim (s : State) (k : Nat) (v : Bool) : (s.setPoisoned k v).tim = s.tim := rfl
@[simp] theorem modPoisoned_tim (s : State) (k : Nat) (v : Bool → Bool) : (s.modPoisoned k v).tim = s.tim := rfl
@[simp] theorem setPoisoned_pins (s : State) (k : Nat) (v : Bool) : (s.setPoisoned k v).pins = s.pins := rfl
@[simp] theorem modPoisoned_pins (s : State) (k : Nat) (v : Bool → Bool) : (s.modPoisoned k v).pins = s.pins := rfl
@[simp] theorem setPoisoned_fields (s : State) (k : Nat) (v : Bool) : (s.setPoisoned k v).fields = s.fields := rfl
@[simp] theorem modPoisoned_fields (s : State) (k : Nat) (v : Bool → Bool) : (s.modPoisoned k v).fields = s.fields := rfl
@[simp] theorem setPoisoned_adcs (s : State) (k : Nat) (v : Bool) : (s.setPoisoned k v).adcs = s.adcs := rfl
@[simp] theorem modPoisoned_adcs (s : State) (k : Nat) (v : Bool → Bool) : (s.modPoisoned k v).adcs = s.adcs := rfl
@[simp] theorem setPoisoned_adcTel (s : State) (k : Nat) (v : Bool) : (s.setPoisoned k v).adcTel = s.adcTel := rfl
@[simp] theorem modPoisoned_adcTel (s : State) (k : Nat) (v : Bool → Bool) : (s.modPoisoned k v).adcTel = s.adcTel := rfl
@[simp] theorem setPoisoned_taints (s : State) (k : Nat) (v : Bool) : (s.setPoisoned k v).taints = s.taints := rfl
@[simp] theorem modPoisoned_taints (s : State) (k : Nat) (v : Bool → Bool) : (s.modPoisoned k v).taints = s.taints := rfl
@[simp] theorem setPoisoned_acc (s : State) (k : Nat) (v : Bool) : (s.setPoisoned k v).acc = s.acc := rfl
@[simp] theorem modPoisoned_acc (s : State) (k : Nat) (v : Bool → Bool) : (s.modPoisoned k v).acc = s.acc := rfl
@[simp] theorem setPoisoned_bands (s : State) (k : Nat) (v : Bool) : (s.setPoisoned k v).bands = s.bands := rfl
@[simp] theorem modPoisoned_bands (s : State) (k : Nat) (v : Bool → Bool) : (s.modPoisoned k v).bands = s.bands := rfl
@[simp] theorem setPoisoned_cal (s : State) (k : Nat) (v : Bool) : (s.setPoisoned k v).cal = s.cal := rfl
@[simp] theorem modPoisoned_cal (s : State) (k : Nat) (v : Bool → Bool) : (s.modPoisoned k v).cal = s.cal := rfl
@[simp] theorem setPoisoned_lcols (s : State) (k : Nat) (v : Bool) : (s.setPoisoned k v).lcols = s.lcols := rfl
@[simp] theorem modPoisoned_lcols (s : State) (k : Nat) (v : Bool → Bool) : (s.modPoisoned k v).lcols = s.lcols := rfl
@[simp] theorem setPoisoned_lports (s : State) (k : Nat) (v : Bool) : (s.setPoisoned k v).lports = s.lports := rfl
@[simp] theorem modPoisoned_lports (s : State) (k : Nat) (v : Bool → Bool) : (s.modPoisoned k v).lports = s.lports := rfl
@[simp] theorem setPoisoned_relays (s : State) (k : Nat) (v : Bool) : (s.setPoisoned k v).relays = s.relays := rfl
@[simp] theorem modPoisoned_relays (s : State) (k : Nat) (v : Bool → Bool) : (s.modPoisoned k v).relays = s.relays := rfl
@[simp] theorem setPoisoned_light (s : State) (k : Nat) (v : Bool) : (s.setPoisoned k v).light = s.light := rfl
@[simp] theorem modPoisoned_light (s : State) (k : Nat) (v : Bool → Bool) : (s.modPoisoned k v).light = s.light := rfl
@[simp] theorem setPoisoned_mons (s : State) (k : Nat) (v : Bool) : (s.setPoisoned k v).mons = s.mons := rfl
@[simp] theorem modPoisoned_mons (s : State) (k : Nat) (v : Bool → Bool) : (s.modPoisoned k v).mons = s.mons := rfl
@[simp] theorem setPoisoned_monLasts (s : State) (k : Nat) (v : Bool) : (s.setPoisoned k v).monLasts = s.monLasts := rfl
@[simp] theorem modPoisoned_monLasts (s : State) (k : Nat) (v : Bool → Bool) : (s.modPoisoned k v).monLasts = s.monLasts := rfl
@[simp] theorem setPoisoned_ring (s : State) (k : Nat) (v : Bool) : (s.setPoisoned k v).ring = s.ring := rfl
@[simp] theorem modPoisoned_ring (s : State) (k : Nat) (v : Bool → Bool) : (s.modPoisoned k v).ring = s.ring := rfl
@[simp] theorem setPoisoned_loops (s : State) (k : Nat) (v : Bool) : (s.setPoisoned k v).loops = s.loops := rfl
@[simp] theorem modPoisoned_loops (s : State) (k : Nat) (v : Bool → Bool) : (s.modPoisoned k v).loops = s.loops := rfl
@[simp] theorem setPoisoned_eng (s : State) (k : Nat) (v : Bool) : (s.setPoisoned k v).eng = s.eng := rfl
@[simp] theorem modPoisoned_eng (s : State) (k : Nat) (v : Bool → Bool) : (s.modPoisoned k v).eng = s.eng := rfl
@[simp] theorem setPoisoned_streams (s : State) (k : Nat) (v : Bool) : (s.setPoisoned k v).streams = s.streams := rfl
@[simp] theorem modPoisoned_streams (s : State) (k : Nat) (v : Bool → Bool) : (s.modPoisoned k v).streams = s.streams := rfl
@[simp] theorem setPoisoned_ops (s : State) (k : Nat) (v : Bool) : (s.setPoisoned k v).ops = s.ops := rfl
@[simp] theorem modPoisoned_ops (s : State) (k : Nat) (v : Bool → Bool) : (s.modPoisoned k v).ops = s.ops := rfl
@[simp] theorem setPoisoned_seq (s : State) (k : Nat) (v : Bool) : (s.setPoisoned k v).seq = s.seq := rfl
@[simp] theorem modPoisoned_seq (s : State) (k : Nat) (v : Bool → Bool) : (s.modPoisoned k v).seq = s.seq := rfl
@[simp] theorem setPoisoned_tokens (s : State) (k : Nat) (v : Bool) : (s.setPoisoned k v).tokens = s.tokens := rfl
@[simp] theorem modPoisoned_tokens (s : State) (k : Nat) (v : Bool → Bool) : (s.modPoisoned k v).tokens = s.tokens := rfl
@[simp] theorem setPoisoned_rowMaps (s : State) (k : Nat) (v : Bool) : (s.setPoisoned k v).rowMaps = s.rowMaps := rfl
@[simp] theorem modPoisoned_rowMaps (s : State) (k : Nat) (v : Bool → Bool) : (s.modPoisoned k v).rowMaps = s.rowMaps := rfl
@[simp] theorem setPoisoned_manifest (s : State) (k : Nat) (v : Bool) : (s.setPoisoned k v).manifest = s.manifest := rfl
@[simp] theorem modPoisoned_manifest (s : State) (k : Nat) (v : Bool → Bool) : (s.modPoisoned k v).manifest = s.manifest := rfl
@[simp] theorem setPoisoned_cores (s : State) (k : Nat) (v : Bool) : (s.setPoisoned k v).cores = s.cores := rfl
@[simp] theorem modPoisoned_cores (s : State) (k : Nat) (v : Bool → Bool) : (s.modPoisoned k v).cores = s.cores := rfl
@[simp] theorem setPoisoned_mem (s : State) (k : Nat) (v : Bool) : (s.setPoisoned k v).mem = s.mem := rfl
@[simp] theorem modPoisoned_mem (s : State) (k : Nat) (v : Bool → Bool) : (s.modPoisoned k v).mem = s.mem := rfl
@[simp] theorem setPoisoned_errs (s : State) (k : Nat) (v : Bool) : (s.setPoisoned k v).errs = s.errs := rfl
@[simp] theorem modPoisoned_errs (s : State) (k : Nat) (v : Bool → Bool) : (s.modPoisoned k v).errs = s.errs := rfl
@[simp] theorem setPoisoned_units (s : State) (k : Nat) (v : Bool) : (s.setPoisoned k v).units = s.units := rfl
@[simp] theorem modPoisoned_units (s : State) (k : Nat) (v : Bool → Bool) : (s.modPoisoned k v).units = s.units := rfl
@[simp] theorem setPoisoned_regions (s : State) (k : Nat) (v : Bool) : (s.setPoisoned k v).regions = s.regions := rfl
@[simp] theorem modPoisoned_regions (s : State) (k : Nat) (v : Bool → Bool) : (s.modPoisoned k v).regions = s.regions := rfl
@[simp] theorem setPoisoned_memTop (s : State) (k : Nat) (v : Bool) : (s.setPoisoned k v).memTop = s.memTop := rfl
@[simp] theorem modPoisoned_memTop (s : State) (k : Nat) (v : Bool → Bool) : (s.modPoisoned k v).memTop = s.memTop := rfl
@[simp] theorem setPoisoned_dir (s : State) (k : Nat) (v : Bool) : (s.setPoisoned k v).dir = s.dir := rfl
@[simp] theorem modPoisoned_dir (s : State) (k : Nat) (v : Bool → Bool) : (s.modPoisoned k v).dir = s.dir := rfl
@[simp] theorem setPoisoned_ctxs (s : State) (k : Nat) (v : Bool) : (s.setPoisoned k v).ctxs = s.ctxs := rfl
@[simp] theorem modPoisoned_ctxs (s : State) (k : Nat) (v : Bool → Bool) : (s.modPoisoned k v).ctxs = s.ctxs := rfl
@[simp] theorem setPoisoned_swaps (s : State) (k : Nat) (v : Bool) : (s.setPoisoned k v).swaps = s.swaps := rfl
@[simp] theorem modPoisoned_swaps (s : State) (k : Nat) (v : Bool → Bool) : (s.modPoisoned k v).swaps = s.swaps := rfl
@[simp] theorem setPoisoned_wts (s : State) (k : Nat) (v : Bool) : (s.setPoisoned k v).wts = s.wts := rfl
@[simp] theorem modPoisoned_wts (s : State) (k : Nat) (v : Bool → Bool) : (s.modPoisoned k v).wts = s.wts := rfl
@[simp] theorem setPoisoned_netLinks (s : State) (k : Nat) (v : Bool) : (s.setPoisoned k v).netLinks = s.netLinks := rfl
@[simp] theorem modPoisoned_netLinks (s : State) (k : Nat) (v : Bool → Bool) : (s.modPoisoned k v).netLinks = s.netLinks := rfl
@[simp] theorem setPoisoned_parts (s : State) (k : Nat) (v : Bool) : (s.setPoisoned k v).parts = s.parts := rfl
@[simp] theorem modPoisoned_parts (s : State) (k : Nat) (v : Bool → Bool) : (s.modPoisoned k v).parts = s.parts := rfl
@[simp] theorem setPoisoned_net (s : State) (k : Nat) (v : Bool) : (s.setPoisoned k v).net = s.net := rfl
@[simp] theorem modPoisoned_net (s : State) (k : Nat) (v : Bool → Bool) : (s.modPoisoned k v).net = s.net := rfl
@[simp] theorem setPoisoned_netBufs (s : State) (k : Nat) (v : Bool) : (s.setPoisoned k v).netBufs = s.netBufs := rfl
@[simp] theorem modPoisoned_netBufs (s : State) (k : Nat) (v : Bool → Bool) : (s.modPoisoned k v).netBufs = s.netBufs := rfl
@[simp] theorem setPoisoned_ports (s : State) (k : Nat) (v : Bool) : (s.setPoisoned k v).ports = s.ports := rfl
@[simp] theorem modPoisoned_ports (s : State) (k : Nat) (v : Bool → Bool) : (s.modPoisoned k v).ports = s.ports := rfl
@[simp] theorem setPoisoned_link (s : State) (k : Nat) (v : Bool) : (s.setPoisoned k v).link = s.link := rfl
@[simp] theorem modPoisoned_link (s : State) (k : Nat) (v : Bool → Bool) : (s.modPoisoned k v).link = s.link := rfl
@[simp] theorem setPoisoned_mbs (s : State) (k : Nat) (v : Bool) : (s.setPoisoned k v).mbs = s.mbs := rfl
@[simp] theorem modPoisoned_mbs (s : State) (k : Nat) (v : Bool → Bool) : (s.modPoisoned k v).mbs = s.mbs := rfl
@[simp] theorem setPoisoned_cmds (s : State) (k : Nat) (v : Bool) : (s.setPoisoned k v).cmds = s.cmds := rfl
@[simp] theorem modPoisoned_cmds (s : State) (k : Nat) (v : Bool → Bool) : (s.modPoisoned k v).cmds = s.cmds := rfl
@[simp] theorem setPoisoned_stw (s : State) (k : Nat) (v : Bool) : (s.setPoisoned k v).stw = s.stw := rfl
@[simp] theorem modPoisoned_stw (s : State) (k : Nat) (v : Bool → Bool) : (s.modPoisoned k v).stw = s.stw := rfl
@[simp] theorem setPoisoned_hostMem (s : State) (k : Nat) (v : Bool) : (s.setPoisoned k v).hostMem = s.hostMem := rfl
@[simp] theorem modPoisoned_hostMem (s : State) (k : Nat) (v : Bool → Bool) : (s.modPoisoned k v).hostMem = s.hostMem := rfl
@[simp] theorem setPoisoned_bu (s : State) (k : Nat) (v : Bool) : (s.setPoisoned k v).bu = s.bu := rfl
@[simp] theorem modPoisoned_bu (s : State) (k : Nat) (v : Bool → Bool) : (s.modPoisoned k v).bu = s.bu := rfl
@[simp] theorem setPoisoned_pwr (s : State) (k : Nat) (v : Bool) : (s.setPoisoned k v).pwr = s.pwr := rfl
@[simp] theorem modPoisoned_pwr (s : State) (k : Nat) (v : Bool → Bool) : (s.modPoisoned k v).pwr = s.pwr := rfl
@[simp] theorem setPoisoned_sensors (s : State) (k : Nat) (v : Bool) : (s.setPoisoned k v).sensors = s.sensors := rfl
@[simp] theorem modPoisoned_sensors (s : State) (k : Nat) (v : Bool → Bool) : (s.modPoisoned k v).sensors = s.sensors := rfl
@[simp] theorem setPoisoned_dies (s : State) (k : Nat) (v : Bool) : (s.setPoisoned k v).dies = s.dies := rfl
@[simp] theorem modPoisoned_dies (s : State) (k : Nat) (v : Bool → Bool) : (s.modPoisoned k v).dies = s.dies := rfl
@[simp] theorem setPoisoned_thm (s : State) (k : Nat) (v : Bool) : (s.setPoisoned k v).thm = s.thm := rfl
@[simp] theorem modPoisoned_thm (s : State) (k : Nat) (v : Bool → Bool) : (s.modPoisoned k v).thm = s.thm := rfl
@[simp] theorem setPoisoned_exts (s : State) (k : Nat) (v : Bool) : (s.setPoisoned k v).exts = s.exts := rfl
@[simp] theorem modPoisoned_exts (s : State) (k : Nat) (v : Bool → Bool) : (s.modPoisoned k v).exts = s.exts := rfl
@[simp] theorem setPoisoned_flt (s : State) (k : Nat) (v : Bool) : (s.setPoisoned k v).flt = s.flt := rfl
@[simp] theorem modPoisoned_flt (s : State) (k : Nat) (v : Bool → Bool) : (s.modPoisoned k v).flt = s.flt := rfl
@[simp] theorem setPoisoned_sec (s : State) (k : Nat) (v : Bool) : (s.setPoisoned k v).sec = s.sec := rfl
@[simp] theorem modPoisoned_sec (s : State) (k : Nat) (v : Bool → Bool) : (s.modPoisoned k v).sec = s.sec := rfl
@[simp] theorem setPoisoned_mg (s : State) (k : Nat) (v : Bool) : (s.setPoisoned k v).mg = s.mg := rfl
@[simp] theorem modPoisoned_mg (s : State) (k : Nat) (v : Bool → Bool) : (s.modPoisoned k v).mg = s.mg := rfl
@[simp] theorem setPoisoned_free (s : State) (k : Nat) (v : Bool) : (s.setPoisoned k v).free = s.free := rfl
@[simp] theorem modPoisoned_free (s : State) (k : Nat) (v : Bool → Bool) : (s.modPoisoned k v).free = s.free := rfl
@[simp] theorem setPoisoned_pending (s : State) (k : Nat) (v : Bool) : (s.setPoisoned k v).pending = s.pending := rfl
@[simp] theorem modPoisoned_pending (s : State) (k : Nat) (v : Bool → Bool) : (s.modPoisoned k v).pending = s.pending := rfl

theorem modErr_eq (s : State) (k : Nat) (g : BitVec 80 → BitVec 80) : s.modErr k g = s.setErr k (g (s.err k)) := rfl
@[simp] theorem setErr_tim (s : State) (k : Nat) (v : BitVec 80) : (s.setErr k v).tim = s.tim := rfl
@[simp] theorem modErr_tim (s : State) (k : Nat) (v : BitVec 80 → BitVec 80) : (s.modErr k v).tim = s.tim := rfl
@[simp] theorem setErr_pins (s : State) (k : Nat) (v : BitVec 80) : (s.setErr k v).pins = s.pins := rfl
@[simp] theorem modErr_pins (s : State) (k : Nat) (v : BitVec 80 → BitVec 80) : (s.modErr k v).pins = s.pins := rfl
@[simp] theorem setErr_fields (s : State) (k : Nat) (v : BitVec 80) : (s.setErr k v).fields = s.fields := rfl
@[simp] theorem modErr_fields (s : State) (k : Nat) (v : BitVec 80 → BitVec 80) : (s.modErr k v).fields = s.fields := rfl
@[simp] theorem setErr_adcs (s : State) (k : Nat) (v : BitVec 80) : (s.setErr k v).adcs = s.adcs := rfl
@[simp] theorem modErr_adcs (s : State) (k : Nat) (v : BitVec 80 → BitVec 80) : (s.modErr k v).adcs = s.adcs := rfl
@[simp] theorem setErr_adcTel (s : State) (k : Nat) (v : BitVec 80) : (s.setErr k v).adcTel = s.adcTel := rfl
@[simp] theorem modErr_adcTel (s : State) (k : Nat) (v : BitVec 80 → BitVec 80) : (s.modErr k v).adcTel = s.adcTel := rfl
@[simp] theorem setErr_taints (s : State) (k : Nat) (v : BitVec 80) : (s.setErr k v).taints = s.taints := rfl
@[simp] theorem modErr_taints (s : State) (k : Nat) (v : BitVec 80 → BitVec 80) : (s.modErr k v).taints = s.taints := rfl
@[simp] theorem setErr_acc (s : State) (k : Nat) (v : BitVec 80) : (s.setErr k v).acc = s.acc := rfl
@[simp] theorem modErr_acc (s : State) (k : Nat) (v : BitVec 80 → BitVec 80) : (s.modErr k v).acc = s.acc := rfl
@[simp] theorem setErr_bands (s : State) (k : Nat) (v : BitVec 80) : (s.setErr k v).bands = s.bands := rfl
@[simp] theorem modErr_bands (s : State) (k : Nat) (v : BitVec 80 → BitVec 80) : (s.modErr k v).bands = s.bands := rfl
@[simp] theorem setErr_cal (s : State) (k : Nat) (v : BitVec 80) : (s.setErr k v).cal = s.cal := rfl
@[simp] theorem modErr_cal (s : State) (k : Nat) (v : BitVec 80 → BitVec 80) : (s.modErr k v).cal = s.cal := rfl
@[simp] theorem setErr_lcols (s : State) (k : Nat) (v : BitVec 80) : (s.setErr k v).lcols = s.lcols := rfl
@[simp] theorem modErr_lcols (s : State) (k : Nat) (v : BitVec 80 → BitVec 80) : (s.modErr k v).lcols = s.lcols := rfl
@[simp] theorem setErr_lports (s : State) (k : Nat) (v : BitVec 80) : (s.setErr k v).lports = s.lports := rfl
@[simp] theorem modErr_lports (s : State) (k : Nat) (v : BitVec 80 → BitVec 80) : (s.modErr k v).lports = s.lports := rfl
@[simp] theorem setErr_relays (s : State) (k : Nat) (v : BitVec 80) : (s.setErr k v).relays = s.relays := rfl
@[simp] theorem modErr_relays (s : State) (k : Nat) (v : BitVec 80 → BitVec 80) : (s.modErr k v).relays = s.relays := rfl
@[simp] theorem setErr_light (s : State) (k : Nat) (v : BitVec 80) : (s.setErr k v).light = s.light := rfl
@[simp] theorem modErr_light (s : State) (k : Nat) (v : BitVec 80 → BitVec 80) : (s.modErr k v).light = s.light := rfl
@[simp] theorem setErr_mons (s : State) (k : Nat) (v : BitVec 80) : (s.setErr k v).mons = s.mons := rfl
@[simp] theorem modErr_mons (s : State) (k : Nat) (v : BitVec 80 → BitVec 80) : (s.modErr k v).mons = s.mons := rfl
@[simp] theorem setErr_monLasts (s : State) (k : Nat) (v : BitVec 80) : (s.setErr k v).monLasts = s.monLasts := rfl
@[simp] theorem modErr_monLasts (s : State) (k : Nat) (v : BitVec 80 → BitVec 80) : (s.modErr k v).monLasts = s.monLasts := rfl
@[simp] theorem setErr_ring (s : State) (k : Nat) (v : BitVec 80) : (s.setErr k v).ring = s.ring := rfl
@[simp] theorem modErr_ring (s : State) (k : Nat) (v : BitVec 80 → BitVec 80) : (s.modErr k v).ring = s.ring := rfl
@[simp] theorem setErr_loops (s : State) (k : Nat) (v : BitVec 80) : (s.setErr k v).loops = s.loops := rfl
@[simp] theorem modErr_loops (s : State) (k : Nat) (v : BitVec 80 → BitVec 80) : (s.modErr k v).loops = s.loops := rfl
@[simp] theorem setErr_eng (s : State) (k : Nat) (v : BitVec 80) : (s.setErr k v).eng = s.eng := rfl
@[simp] theorem modErr_eng (s : State) (k : Nat) (v : BitVec 80 → BitVec 80) : (s.modErr k v).eng = s.eng := rfl
@[simp] theorem setErr_streams (s : State) (k : Nat) (v : BitVec 80) : (s.setErr k v).streams = s.streams := rfl
@[simp] theorem modErr_streams (s : State) (k : Nat) (v : BitVec 80 → BitVec 80) : (s.modErr k v).streams = s.streams := rfl
@[simp] theorem setErr_ops (s : State) (k : Nat) (v : BitVec 80) : (s.setErr k v).ops = s.ops := rfl
@[simp] theorem modErr_ops (s : State) (k : Nat) (v : BitVec 80 → BitVec 80) : (s.modErr k v).ops = s.ops := rfl
@[simp] theorem setErr_seq (s : State) (k : Nat) (v : BitVec 80) : (s.setErr k v).seq = s.seq := rfl
@[simp] theorem modErr_seq (s : State) (k : Nat) (v : BitVec 80 → BitVec 80) : (s.modErr k v).seq = s.seq := rfl
@[simp] theorem setErr_tokens (s : State) (k : Nat) (v : BitVec 80) : (s.setErr k v).tokens = s.tokens := rfl
@[simp] theorem modErr_tokens (s : State) (k : Nat) (v : BitVec 80 → BitVec 80) : (s.modErr k v).tokens = s.tokens := rfl
@[simp] theorem setErr_rowMaps (s : State) (k : Nat) (v : BitVec 80) : (s.setErr k v).rowMaps = s.rowMaps := rfl
@[simp] theorem modErr_rowMaps (s : State) (k : Nat) (v : BitVec 80 → BitVec 80) : (s.modErr k v).rowMaps = s.rowMaps := rfl
@[simp] theorem setErr_manifest (s : State) (k : Nat) (v : BitVec 80) : (s.setErr k v).manifest = s.manifest := rfl
@[simp] theorem modErr_manifest (s : State) (k : Nat) (v : BitVec 80 → BitVec 80) : (s.modErr k v).manifest = s.manifest := rfl
@[simp] theorem setErr_cores (s : State) (k : Nat) (v : BitVec 80) : (s.setErr k v).cores = s.cores := rfl
@[simp] theorem modErr_cores (s : State) (k : Nat) (v : BitVec 80 → BitVec 80) : (s.modErr k v).cores = s.cores := rfl
@[simp] theorem setErr_mem (s : State) (k : Nat) (v : BitVec 80) : (s.setErr k v).mem = s.mem := rfl
@[simp] theorem modErr_mem (s : State) (k : Nat) (v : BitVec 80 → BitVec 80) : (s.modErr k v).mem = s.mem := rfl
@[simp] theorem setErr_poison (s : State) (k : Nat) (v : BitVec 80) : (s.setErr k v).poison = s.poison := rfl
@[simp] theorem modErr_poison (s : State) (k : Nat) (v : BitVec 80 → BitVec 80) : (s.modErr k v).poison = s.poison := rfl
@[simp] theorem setErr_units (s : State) (k : Nat) (v : BitVec 80) : (s.setErr k v).units = s.units := rfl
@[simp] theorem modErr_units (s : State) (k : Nat) (v : BitVec 80 → BitVec 80) : (s.modErr k v).units = s.units := rfl
@[simp] theorem setErr_regions (s : State) (k : Nat) (v : BitVec 80) : (s.setErr k v).regions = s.regions := rfl
@[simp] theorem modErr_regions (s : State) (k : Nat) (v : BitVec 80 → BitVec 80) : (s.modErr k v).regions = s.regions := rfl
@[simp] theorem setErr_memTop (s : State) (k : Nat) (v : BitVec 80) : (s.setErr k v).memTop = s.memTop := rfl
@[simp] theorem modErr_memTop (s : State) (k : Nat) (v : BitVec 80 → BitVec 80) : (s.modErr k v).memTop = s.memTop := rfl
@[simp] theorem setErr_dir (s : State) (k : Nat) (v : BitVec 80) : (s.setErr k v).dir = s.dir := rfl
@[simp] theorem modErr_dir (s : State) (k : Nat) (v : BitVec 80 → BitVec 80) : (s.modErr k v).dir = s.dir := rfl
@[simp] theorem setErr_ctxs (s : State) (k : Nat) (v : BitVec 80) : (s.setErr k v).ctxs = s.ctxs := rfl
@[simp] theorem modErr_ctxs (s : State) (k : Nat) (v : BitVec 80 → BitVec 80) : (s.modErr k v).ctxs = s.ctxs := rfl
@[simp] theorem setErr_swaps (s : State) (k : Nat) (v : BitVec 80) : (s.setErr k v).swaps = s.swaps := rfl
@[simp] theorem modErr_swaps (s : State) (k : Nat) (v : BitVec 80 → BitVec 80) : (s.modErr k v).swaps = s.swaps := rfl
@[simp] theorem setErr_wts (s : State) (k : Nat) (v : BitVec 80) : (s.setErr k v).wts = s.wts := rfl
@[simp] theorem modErr_wts (s : State) (k : Nat) (v : BitVec 80 → BitVec 80) : (s.modErr k v).wts = s.wts := rfl
@[simp] theorem setErr_netLinks (s : State) (k : Nat) (v : BitVec 80) : (s.setErr k v).netLinks = s.netLinks := rfl
@[simp] theorem modErr_netLinks (s : State) (k : Nat) (v : BitVec 80 → BitVec 80) : (s.modErr k v).netLinks = s.netLinks := rfl
@[simp] theorem setErr_parts (s : State) (k : Nat) (v : BitVec 80) : (s.setErr k v).parts = s.parts := rfl
@[simp] theorem modErr_parts (s : State) (k : Nat) (v : BitVec 80 → BitVec 80) : (s.modErr k v).parts = s.parts := rfl
@[simp] theorem setErr_net (s : State) (k : Nat) (v : BitVec 80) : (s.setErr k v).net = s.net := rfl
@[simp] theorem modErr_net (s : State) (k : Nat) (v : BitVec 80 → BitVec 80) : (s.modErr k v).net = s.net := rfl
@[simp] theorem setErr_netBufs (s : State) (k : Nat) (v : BitVec 80) : (s.setErr k v).netBufs = s.netBufs := rfl
@[simp] theorem modErr_netBufs (s : State) (k : Nat) (v : BitVec 80 → BitVec 80) : (s.modErr k v).netBufs = s.netBufs := rfl
@[simp] theorem setErr_ports (s : State) (k : Nat) (v : BitVec 80) : (s.setErr k v).ports = s.ports := rfl
@[simp] theorem modErr_ports (s : State) (k : Nat) (v : BitVec 80 → BitVec 80) : (s.modErr k v).ports = s.ports := rfl
@[simp] theorem setErr_link (s : State) (k : Nat) (v : BitVec 80) : (s.setErr k v).link = s.link := rfl
@[simp] theorem modErr_link (s : State) (k : Nat) (v : BitVec 80 → BitVec 80) : (s.modErr k v).link = s.link := rfl
@[simp] theorem setErr_mbs (s : State) (k : Nat) (v : BitVec 80) : (s.setErr k v).mbs = s.mbs := rfl
@[simp] theorem modErr_mbs (s : State) (k : Nat) (v : BitVec 80 → BitVec 80) : (s.modErr k v).mbs = s.mbs := rfl
@[simp] theorem setErr_cmds (s : State) (k : Nat) (v : BitVec 80) : (s.setErr k v).cmds = s.cmds := rfl
@[simp] theorem modErr_cmds (s : State) (k : Nat) (v : BitVec 80 → BitVec 80) : (s.modErr k v).cmds = s.cmds := rfl
@[simp] theorem setErr_stw (s : State) (k : Nat) (v : BitVec 80) : (s.setErr k v).stw = s.stw := rfl
@[simp] theorem modErr_stw (s : State) (k : Nat) (v : BitVec 80 → BitVec 80) : (s.modErr k v).stw = s.stw := rfl
@[simp] theorem setErr_hostMem (s : State) (k : Nat) (v : BitVec 80) : (s.setErr k v).hostMem = s.hostMem := rfl
@[simp] theorem modErr_hostMem (s : State) (k : Nat) (v : BitVec 80 → BitVec 80) : (s.modErr k v).hostMem = s.hostMem := rfl
@[simp] theorem setErr_bu (s : State) (k : Nat) (v : BitVec 80) : (s.setErr k v).bu = s.bu := rfl
@[simp] theorem modErr_bu (s : State) (k : Nat) (v : BitVec 80 → BitVec 80) : (s.modErr k v).bu = s.bu := rfl
@[simp] theorem setErr_pwr (s : State) (k : Nat) (v : BitVec 80) : (s.setErr k v).pwr = s.pwr := rfl
@[simp] theorem modErr_pwr (s : State) (k : Nat) (v : BitVec 80 → BitVec 80) : (s.modErr k v).pwr = s.pwr := rfl
@[simp] theorem setErr_sensors (s : State) (k : Nat) (v : BitVec 80) : (s.setErr k v).sensors = s.sensors := rfl
@[simp] theorem modErr_sensors (s : State) (k : Nat) (v : BitVec 80 → BitVec 80) : (s.modErr k v).sensors = s.sensors := rfl
@[simp] theorem setErr_dies (s : State) (k : Nat) (v : BitVec 80) : (s.setErr k v).dies = s.dies := rfl
@[simp] theorem modErr_dies (s : State) (k : Nat) (v : BitVec 80 → BitVec 80) : (s.modErr k v).dies = s.dies := rfl
@[simp] theorem setErr_thm (s : State) (k : Nat) (v : BitVec 80) : (s.setErr k v).thm = s.thm := rfl
@[simp] theorem modErr_thm (s : State) (k : Nat) (v : BitVec 80 → BitVec 80) : (s.modErr k v).thm = s.thm := rfl
@[simp] theorem setErr_exts (s : State) (k : Nat) (v : BitVec 80) : (s.setErr k v).exts = s.exts := rfl
@[simp] theorem modErr_exts (s : State) (k : Nat) (v : BitVec 80 → BitVec 80) : (s.modErr k v).exts = s.exts := rfl
@[simp] theorem setErr_flt (s : State) (k : Nat) (v : BitVec 80) : (s.setErr k v).flt = s.flt := rfl
@[simp] theorem modErr_flt (s : State) (k : Nat) (v : BitVec 80 → BitVec 80) : (s.modErr k v).flt = s.flt := rfl
@[simp] theorem setErr_sec (s : State) (k : Nat) (v : BitVec 80) : (s.setErr k v).sec = s.sec := rfl
@[simp] theorem modErr_sec (s : State) (k : Nat) (v : BitVec 80 → BitVec 80) : (s.modErr k v).sec = s.sec := rfl
@[simp] theorem setErr_mg (s : State) (k : Nat) (v : BitVec 80) : (s.setErr k v).mg = s.mg := rfl
@[simp] theorem modErr_mg (s : State) (k : Nat) (v : BitVec 80 → BitVec 80) : (s.modErr k v).mg = s.mg := rfl
@[simp] theorem setErr_free (s : State) (k : Nat) (v : BitVec 80) : (s.setErr k v).free = s.free := rfl
@[simp] theorem modErr_free (s : State) (k : Nat) (v : BitVec 80 → BitVec 80) : (s.modErr k v).free = s.free := rfl
@[simp] theorem setErr_pending (s : State) (k : Nat) (v : BitVec 80) : (s.setErr k v).pending = s.pending := rfl
@[simp] theorem modErr_pending (s : State) (k : Nat) (v : BitVec 80 → BitVec 80) : (s.modErr k v).pending = s.pending := rfl

theorem modUnit_eq (s : State) (k : Nat) (g : MemUnit → MemUnit) : s.modUnit k g = s.setUnit k (g (s.unit k)) := rfl
@[simp] theorem setUnit_tim (s : State) (k : Nat) (v : MemUnit) : (s.setUnit k v).tim = s.tim := rfl
@[simp] theorem modUnit_tim (s : State) (k : Nat) (v : MemUnit → MemUnit) : (s.modUnit k v).tim = s.tim := rfl
@[simp] theorem setUnit_pins (s : State) (k : Nat) (v : MemUnit) : (s.setUnit k v).pins = s.pins := rfl
@[simp] theorem modUnit_pins (s : State) (k : Nat) (v : MemUnit → MemUnit) : (s.modUnit k v).pins = s.pins := rfl
@[simp] theorem setUnit_fields (s : State) (k : Nat) (v : MemUnit) : (s.setUnit k v).fields = s.fields := rfl
@[simp] theorem modUnit_fields (s : State) (k : Nat) (v : MemUnit → MemUnit) : (s.modUnit k v).fields = s.fields := rfl
@[simp] theorem setUnit_adcs (s : State) (k : Nat) (v : MemUnit) : (s.setUnit k v).adcs = s.adcs := rfl
@[simp] theorem modUnit_adcs (s : State) (k : Nat) (v : MemUnit → MemUnit) : (s.modUnit k v).adcs = s.adcs := rfl
@[simp] theorem setUnit_adcTel (s : State) (k : Nat) (v : MemUnit) : (s.setUnit k v).adcTel = s.adcTel := rfl
@[simp] theorem modUnit_adcTel (s : State) (k : Nat) (v : MemUnit → MemUnit) : (s.modUnit k v).adcTel = s.adcTel := rfl
@[simp] theorem setUnit_taints (s : State) (k : Nat) (v : MemUnit) : (s.setUnit k v).taints = s.taints := rfl
@[simp] theorem modUnit_taints (s : State) (k : Nat) (v : MemUnit → MemUnit) : (s.modUnit k v).taints = s.taints := rfl
@[simp] theorem setUnit_acc (s : State) (k : Nat) (v : MemUnit) : (s.setUnit k v).acc = s.acc := rfl
@[simp] theorem modUnit_acc (s : State) (k : Nat) (v : MemUnit → MemUnit) : (s.modUnit k v).acc = s.acc := rfl
@[simp] theorem setUnit_bands (s : State) (k : Nat) (v : MemUnit) : (s.setUnit k v).bands = s.bands := rfl
@[simp] theorem modUnit_bands (s : State) (k : Nat) (v : MemUnit → MemUnit) : (s.modUnit k v).bands = s.bands := rfl
@[simp] theorem setUnit_cal (s : State) (k : Nat) (v : MemUnit) : (s.setUnit k v).cal = s.cal := rfl
@[simp] theorem modUnit_cal (s : State) (k : Nat) (v : MemUnit → MemUnit) : (s.modUnit k v).cal = s.cal := rfl
@[simp] theorem setUnit_lcols (s : State) (k : Nat) (v : MemUnit) : (s.setUnit k v).lcols = s.lcols := rfl
@[simp] theorem modUnit_lcols (s : State) (k : Nat) (v : MemUnit → MemUnit) : (s.modUnit k v).lcols = s.lcols := rfl
@[simp] theorem setUnit_lports (s : State) (k : Nat) (v : MemUnit) : (s.setUnit k v).lports = s.lports := rfl
@[simp] theorem modUnit_lports (s : State) (k : Nat) (v : MemUnit → MemUnit) : (s.modUnit k v).lports = s.lports := rfl
@[simp] theorem setUnit_relays (s : State) (k : Nat) (v : MemUnit) : (s.setUnit k v).relays = s.relays := rfl
@[simp] theorem modUnit_relays (s : State) (k : Nat) (v : MemUnit → MemUnit) : (s.modUnit k v).relays = s.relays := rfl
@[simp] theorem setUnit_light (s : State) (k : Nat) (v : MemUnit) : (s.setUnit k v).light = s.light := rfl
@[simp] theorem modUnit_light (s : State) (k : Nat) (v : MemUnit → MemUnit) : (s.modUnit k v).light = s.light := rfl
@[simp] theorem setUnit_mons (s : State) (k : Nat) (v : MemUnit) : (s.setUnit k v).mons = s.mons := rfl
@[simp] theorem modUnit_mons (s : State) (k : Nat) (v : MemUnit → MemUnit) : (s.modUnit k v).mons = s.mons := rfl
@[simp] theorem setUnit_monLasts (s : State) (k : Nat) (v : MemUnit) : (s.setUnit k v).monLasts = s.monLasts := rfl
@[simp] theorem modUnit_monLasts (s : State) (k : Nat) (v : MemUnit → MemUnit) : (s.modUnit k v).monLasts = s.monLasts := rfl
@[simp] theorem setUnit_ring (s : State) (k : Nat) (v : MemUnit) : (s.setUnit k v).ring = s.ring := rfl
@[simp] theorem modUnit_ring (s : State) (k : Nat) (v : MemUnit → MemUnit) : (s.modUnit k v).ring = s.ring := rfl
@[simp] theorem setUnit_loops (s : State) (k : Nat) (v : MemUnit) : (s.setUnit k v).loops = s.loops := rfl
@[simp] theorem modUnit_loops (s : State) (k : Nat) (v : MemUnit → MemUnit) : (s.modUnit k v).loops = s.loops := rfl
@[simp] theorem setUnit_eng (s : State) (k : Nat) (v : MemUnit) : (s.setUnit k v).eng = s.eng := rfl
@[simp] theorem modUnit_eng (s : State) (k : Nat) (v : MemUnit → MemUnit) : (s.modUnit k v).eng = s.eng := rfl
@[simp] theorem setUnit_streams (s : State) (k : Nat) (v : MemUnit) : (s.setUnit k v).streams = s.streams := rfl
@[simp] theorem modUnit_streams (s : State) (k : Nat) (v : MemUnit → MemUnit) : (s.modUnit k v).streams = s.streams := rfl
@[simp] theorem setUnit_ops (s : State) (k : Nat) (v : MemUnit) : (s.setUnit k v).ops = s.ops := rfl
@[simp] theorem modUnit_ops (s : State) (k : Nat) (v : MemUnit → MemUnit) : (s.modUnit k v).ops = s.ops := rfl
@[simp] theorem setUnit_seq (s : State) (k : Nat) (v : MemUnit) : (s.setUnit k v).seq = s.seq := rfl
@[simp] theorem modUnit_seq (s : State) (k : Nat) (v : MemUnit → MemUnit) : (s.modUnit k v).seq = s.seq := rfl
@[simp] theorem setUnit_tokens (s : State) (k : Nat) (v : MemUnit) : (s.setUnit k v).tokens = s.tokens := rfl
@[simp] theorem modUnit_tokens (s : State) (k : Nat) (v : MemUnit → MemUnit) : (s.modUnit k v).tokens = s.tokens := rfl
@[simp] theorem setUnit_rowMaps (s : State) (k : Nat) (v : MemUnit) : (s.setUnit k v).rowMaps = s.rowMaps := rfl
@[simp] theorem modUnit_rowMaps (s : State) (k : Nat) (v : MemUnit → MemUnit) : (s.modUnit k v).rowMaps = s.rowMaps := rfl
@[simp] theorem setUnit_manifest (s : State) (k : Nat) (v : MemUnit) : (s.setUnit k v).manifest = s.manifest := rfl
@[simp] theorem modUnit_manifest (s : State) (k : Nat) (v : MemUnit → MemUnit) : (s.modUnit k v).manifest = s.manifest := rfl
@[simp] theorem setUnit_cores (s : State) (k : Nat) (v : MemUnit) : (s.setUnit k v).cores = s.cores := rfl
@[simp] theorem modUnit_cores (s : State) (k : Nat) (v : MemUnit → MemUnit) : (s.modUnit k v).cores = s.cores := rfl
@[simp] theorem setUnit_mem (s : State) (k : Nat) (v : MemUnit) : (s.setUnit k v).mem = s.mem := rfl
@[simp] theorem modUnit_mem (s : State) (k : Nat) (v : MemUnit → MemUnit) : (s.modUnit k v).mem = s.mem := rfl
@[simp] theorem setUnit_poison (s : State) (k : Nat) (v : MemUnit) : (s.setUnit k v).poison = s.poison := rfl
@[simp] theorem modUnit_poison (s : State) (k : Nat) (v : MemUnit → MemUnit) : (s.modUnit k v).poison = s.poison := rfl
@[simp] theorem setUnit_errs (s : State) (k : Nat) (v : MemUnit) : (s.setUnit k v).errs = s.errs := rfl
@[simp] theorem modUnit_errs (s : State) (k : Nat) (v : MemUnit → MemUnit) : (s.modUnit k v).errs = s.errs := rfl
@[simp] theorem setUnit_regions (s : State) (k : Nat) (v : MemUnit) : (s.setUnit k v).regions = s.regions := rfl
@[simp] theorem modUnit_regions (s : State) (k : Nat) (v : MemUnit → MemUnit) : (s.modUnit k v).regions = s.regions := rfl
@[simp] theorem setUnit_memTop (s : State) (k : Nat) (v : MemUnit) : (s.setUnit k v).memTop = s.memTop := rfl
@[simp] theorem modUnit_memTop (s : State) (k : Nat) (v : MemUnit → MemUnit) : (s.modUnit k v).memTop = s.memTop := rfl
@[simp] theorem setUnit_dir (s : State) (k : Nat) (v : MemUnit) : (s.setUnit k v).dir = s.dir := rfl
@[simp] theorem modUnit_dir (s : State) (k : Nat) (v : MemUnit → MemUnit) : (s.modUnit k v).dir = s.dir := rfl
@[simp] theorem setUnit_ctxs (s : State) (k : Nat) (v : MemUnit) : (s.setUnit k v).ctxs = s.ctxs := rfl
@[simp] theorem modUnit_ctxs (s : State) (k : Nat) (v : MemUnit → MemUnit) : (s.modUnit k v).ctxs = s.ctxs := rfl
@[simp] theorem setUnit_swaps (s : State) (k : Nat) (v : MemUnit) : (s.setUnit k v).swaps = s.swaps := rfl
@[simp] theorem modUnit_swaps (s : State) (k : Nat) (v : MemUnit → MemUnit) : (s.modUnit k v).swaps = s.swaps := rfl
@[simp] theorem setUnit_wts (s : State) (k : Nat) (v : MemUnit) : (s.setUnit k v).wts = s.wts := rfl
@[simp] theorem modUnit_wts (s : State) (k : Nat) (v : MemUnit → MemUnit) : (s.modUnit k v).wts = s.wts := rfl
@[simp] theorem setUnit_netLinks (s : State) (k : Nat) (v : MemUnit) : (s.setUnit k v).netLinks = s.netLinks := rfl
@[simp] theorem modUnit_netLinks (s : State) (k : Nat) (v : MemUnit → MemUnit) : (s.modUnit k v).netLinks = s.netLinks := rfl
@[simp] theorem setUnit_parts (s : State) (k : Nat) (v : MemUnit) : (s.setUnit k v).parts = s.parts := rfl
@[simp] theorem modUnit_parts (s : State) (k : Nat) (v : MemUnit → MemUnit) : (s.modUnit k v).parts = s.parts := rfl
@[simp] theorem setUnit_net (s : State) (k : Nat) (v : MemUnit) : (s.setUnit k v).net = s.net := rfl
@[simp] theorem modUnit_net (s : State) (k : Nat) (v : MemUnit → MemUnit) : (s.modUnit k v).net = s.net := rfl
@[simp] theorem setUnit_netBufs (s : State) (k : Nat) (v : MemUnit) : (s.setUnit k v).netBufs = s.netBufs := rfl
@[simp] theorem modUnit_netBufs (s : State) (k : Nat) (v : MemUnit → MemUnit) : (s.modUnit k v).netBufs = s.netBufs := rfl
@[simp] theorem setUnit_ports (s : State) (k : Nat) (v : MemUnit) : (s.setUnit k v).ports = s.ports := rfl
@[simp] theorem modUnit_ports (s : State) (k : Nat) (v : MemUnit → MemUnit) : (s.modUnit k v).ports = s.ports := rfl
@[simp] theorem setUnit_link (s : State) (k : Nat) (v : MemUnit) : (s.setUnit k v).link = s.link := rfl
@[simp] theorem modUnit_link (s : State) (k : Nat) (v : MemUnit → MemUnit) : (s.modUnit k v).link = s.link := rfl
@[simp] theorem setUnit_mbs (s : State) (k : Nat) (v : MemUnit) : (s.setUnit k v).mbs = s.mbs := rfl
@[simp] theorem modUnit_mbs (s : State) (k : Nat) (v : MemUnit → MemUnit) : (s.modUnit k v).mbs = s.mbs := rfl
@[simp] theorem setUnit_cmds (s : State) (k : Nat) (v : MemUnit) : (s.setUnit k v).cmds = s.cmds := rfl
@[simp] theorem modUnit_cmds (s : State) (k : Nat) (v : MemUnit → MemUnit) : (s.modUnit k v).cmds = s.cmds := rfl
@[simp] theorem setUnit_stw (s : State) (k : Nat) (v : MemUnit) : (s.setUnit k v).stw = s.stw := rfl
@[simp] theorem modUnit_stw (s : State) (k : Nat) (v : MemUnit → MemUnit) : (s.modUnit k v).stw = s.stw := rfl
@[simp] theorem setUnit_hostMem (s : State) (k : Nat) (v : MemUnit) : (s.setUnit k v).hostMem = s.hostMem := rfl
@[simp] theorem modUnit_hostMem (s : State) (k : Nat) (v : MemUnit → MemUnit) : (s.modUnit k v).hostMem = s.hostMem := rfl
@[simp] theorem setUnit_bu (s : State) (k : Nat) (v : MemUnit) : (s.setUnit k v).bu = s.bu := rfl
@[simp] theorem modUnit_bu (s : State) (k : Nat) (v : MemUnit → MemUnit) : (s.modUnit k v).bu = s.bu := rfl
@[simp] theorem setUnit_pwr (s : State) (k : Nat) (v : MemUnit) : (s.setUnit k v).pwr = s.pwr := rfl
@[simp] theorem modUnit_pwr (s : State) (k : Nat) (v : MemUnit → MemUnit) : (s.modUnit k v).pwr = s.pwr := rfl
@[simp] theorem setUnit_sensors (s : State) (k : Nat) (v : MemUnit) : (s.setUnit k v).sensors = s.sensors := rfl
@[simp] theorem modUnit_sensors (s : State) (k : Nat) (v : MemUnit → MemUnit) : (s.modUnit k v).sensors = s.sensors := rfl
@[simp] theorem setUnit_dies (s : State) (k : Nat) (v : MemUnit) : (s.setUnit k v).dies = s.dies := rfl
@[simp] theorem modUnit_dies (s : State) (k : Nat) (v : MemUnit → MemUnit) : (s.modUnit k v).dies = s.dies := rfl
@[simp] theorem setUnit_thm (s : State) (k : Nat) (v : MemUnit) : (s.setUnit k v).thm = s.thm := rfl
@[simp] theorem modUnit_thm (s : State) (k : Nat) (v : MemUnit → MemUnit) : (s.modUnit k v).thm = s.thm := rfl
@[simp] theorem setUnit_exts (s : State) (k : Nat) (v : MemUnit) : (s.setUnit k v).exts = s.exts := rfl
@[simp] theorem modUnit_exts (s : State) (k : Nat) (v : MemUnit → MemUnit) : (s.modUnit k v).exts = s.exts := rfl
@[simp] theorem setUnit_flt (s : State) (k : Nat) (v : MemUnit) : (s.setUnit k v).flt = s.flt := rfl
@[simp] theorem modUnit_flt (s : State) (k : Nat) (v : MemUnit → MemUnit) : (s.modUnit k v).flt = s.flt := rfl
@[simp] theorem setUnit_sec (s : State) (k : Nat) (v : MemUnit) : (s.setUnit k v).sec = s.sec := rfl
@[simp] theorem modUnit_sec (s : State) (k : Nat) (v : MemUnit → MemUnit) : (s.modUnit k v).sec = s.sec := rfl
@[simp] theorem setUnit_mg (s : State) (k : Nat) (v : MemUnit) : (s.setUnit k v).mg = s.mg := rfl
@[simp] theorem modUnit_mg (s : State) (k : Nat) (v : MemUnit → MemUnit) : (s.modUnit k v).mg = s.mg := rfl
@[simp] theorem setUnit_free (s : State) (k : Nat) (v : MemUnit) : (s.setUnit k v).free = s.free := rfl
@[simp] theorem modUnit_free (s : State) (k : Nat) (v : MemUnit → MemUnit) : (s.modUnit k v).free = s.free := rfl
@[simp] theorem setUnit_pending (s : State) (k : Nat) (v : MemUnit) : (s.setUnit k v).pending = s.pending := rfl
@[simp] theorem modUnit_pending (s : State) (k : Nat) (v : MemUnit → MemUnit) : (s.modUnit k v).pending = s.pending := rfl

theorem modRegion_eq (s : State) (k : Nat) (g : Region → Region) : s.modRegion k g = s.setRegion k (g (s.region k)) := rfl
@[simp] theorem setRegion_tim (s : State) (k : Nat) (v : Region) : (s.setRegion k v).tim = s.tim := rfl
@[simp] theorem modRegion_tim (s : State) (k : Nat) (v : Region → Region) : (s.modRegion k v).tim = s.tim := rfl
@[simp] theorem setRegion_pins (s : State) (k : Nat) (v : Region) : (s.setRegion k v).pins = s.pins := rfl
@[simp] theorem modRegion_pins (s : State) (k : Nat) (v : Region → Region) : (s.modRegion k v).pins = s.pins := rfl
@[simp] theorem setRegion_fields (s : State) (k : Nat) (v : Region) : (s.setRegion k v).fields = s.fields := rfl
@[simp] theorem modRegion_fields (s : State) (k : Nat) (v : Region → Region) : (s.modRegion k v).fields = s.fields := rfl
@[simp] theorem setRegion_adcs (s : State) (k : Nat) (v : Region) : (s.setRegion k v).adcs = s.adcs := rfl
@[simp] theorem modRegion_adcs (s : State) (k : Nat) (v : Region → Region) : (s.modRegion k v).adcs = s.adcs := rfl
@[simp] theorem setRegion_adcTel (s : State) (k : Nat) (v : Region) : (s.setRegion k v).adcTel = s.adcTel := rfl
@[simp] theorem modRegion_adcTel (s : State) (k : Nat) (v : Region → Region) : (s.modRegion k v).adcTel = s.adcTel := rfl
@[simp] theorem setRegion_taints (s : State) (k : Nat) (v : Region) : (s.setRegion k v).taints = s.taints := rfl
@[simp] theorem modRegion_taints (s : State) (k : Nat) (v : Region → Region) : (s.modRegion k v).taints = s.taints := rfl
@[simp] theorem setRegion_acc (s : State) (k : Nat) (v : Region) : (s.setRegion k v).acc = s.acc := rfl
@[simp] theorem modRegion_acc (s : State) (k : Nat) (v : Region → Region) : (s.modRegion k v).acc = s.acc := rfl
@[simp] theorem setRegion_bands (s : State) (k : Nat) (v : Region) : (s.setRegion k v).bands = s.bands := rfl
@[simp] theorem modRegion_bands (s : State) (k : Nat) (v : Region → Region) : (s.modRegion k v).bands = s.bands := rfl
@[simp] theorem setRegion_cal (s : State) (k : Nat) (v : Region) : (s.setRegion k v).cal = s.cal := rfl
@[simp] theorem modRegion_cal (s : State) (k : Nat) (v : Region → Region) : (s.modRegion k v).cal = s.cal := rfl
@[simp] theorem setRegion_lcols (s : State) (k : Nat) (v : Region) : (s.setRegion k v).lcols = s.lcols := rfl
@[simp] theorem modRegion_lcols (s : State) (k : Nat) (v : Region → Region) : (s.modRegion k v).lcols = s.lcols := rfl
@[simp] theorem setRegion_lports (s : State) (k : Nat) (v : Region) : (s.setRegion k v).lports = s.lports := rfl
@[simp] theorem modRegion_lports (s : State) (k : Nat) (v : Region → Region) : (s.modRegion k v).lports = s.lports := rfl
@[simp] theorem setRegion_relays (s : State) (k : Nat) (v : Region) : (s.setRegion k v).relays = s.relays := rfl
@[simp] theorem modRegion_relays (s : State) (k : Nat) (v : Region → Region) : (s.modRegion k v).relays = s.relays := rfl
@[simp] theorem setRegion_light (s : State) (k : Nat) (v : Region) : (s.setRegion k v).light = s.light := rfl
@[simp] theorem modRegion_light (s : State) (k : Nat) (v : Region → Region) : (s.modRegion k v).light = s.light := rfl
@[simp] theorem setRegion_mons (s : State) (k : Nat) (v : Region) : (s.setRegion k v).mons = s.mons := rfl
@[simp] theorem modRegion_mons (s : State) (k : Nat) (v : Region → Region) : (s.modRegion k v).mons = s.mons := rfl
@[simp] theorem setRegion_monLasts (s : State) (k : Nat) (v : Region) : (s.setRegion k v).monLasts = s.monLasts := rfl
@[simp] theorem modRegion_monLasts (s : State) (k : Nat) (v : Region → Region) : (s.modRegion k v).monLasts = s.monLasts := rfl
@[simp] theorem setRegion_ring (s : State) (k : Nat) (v : Region) : (s.setRegion k v).ring = s.ring := rfl
@[simp] theorem modRegion_ring (s : State) (k : Nat) (v : Region → Region) : (s.modRegion k v).ring = s.ring := rfl
@[simp] theorem setRegion_loops (s : State) (k : Nat) (v : Region) : (s.setRegion k v).loops = s.loops := rfl
@[simp] theorem modRegion_loops (s : State) (k : Nat) (v : Region → Region) : (s.modRegion k v).loops = s.loops := rfl
@[simp] theorem setRegion_eng (s : State) (k : Nat) (v : Region) : (s.setRegion k v).eng = s.eng := rfl
@[simp] theorem modRegion_eng (s : State) (k : Nat) (v : Region → Region) : (s.modRegion k v).eng = s.eng := rfl
@[simp] theorem setRegion_streams (s : State) (k : Nat) (v : Region) : (s.setRegion k v).streams = s.streams := rfl
@[simp] theorem modRegion_streams (s : State) (k : Nat) (v : Region → Region) : (s.modRegion k v).streams = s.streams := rfl
@[simp] theorem setRegion_ops (s : State) (k : Nat) (v : Region) : (s.setRegion k v).ops = s.ops := rfl
@[simp] theorem modRegion_ops (s : State) (k : Nat) (v : Region → Region) : (s.modRegion k v).ops = s.ops := rfl
@[simp] theorem setRegion_seq (s : State) (k : Nat) (v : Region) : (s.setRegion k v).seq = s.seq := rfl
@[simp] theorem modRegion_seq (s : State) (k : Nat) (v : Region → Region) : (s.modRegion k v).seq = s.seq := rfl
@[simp] theorem setRegion_tokens (s : State) (k : Nat) (v : Region) : (s.setRegion k v).tokens = s.tokens := rfl
@[simp] theorem modRegion_tokens (s : State) (k : Nat) (v : Region → Region) : (s.modRegion k v).tokens = s.tokens := rfl
@[simp] theorem setRegion_rowMaps (s : State) (k : Nat) (v : Region) : (s.setRegion k v).rowMaps = s.rowMaps := rfl
@[simp] theorem modRegion_rowMaps (s : State) (k : Nat) (v : Region → Region) : (s.modRegion k v).rowMaps = s.rowMaps := rfl
@[simp] theorem setRegion_manifest (s : State) (k : Nat) (v : Region) : (s.setRegion k v).manifest = s.manifest := rfl
@[simp] theorem modRegion_manifest (s : State) (k : Nat) (v : Region → Region) : (s.modRegion k v).manifest = s.manifest := rfl
@[simp] theorem setRegion_cores (s : State) (k : Nat) (v : Region) : (s.setRegion k v).cores = s.cores := rfl
@[simp] theorem modRegion_cores (s : State) (k : Nat) (v : Region → Region) : (s.modRegion k v).cores = s.cores := rfl
@[simp] theorem setRegion_mem (s : State) (k : Nat) (v : Region) : (s.setRegion k v).mem = s.mem := rfl
@[simp] theorem modRegion_mem (s : State) (k : Nat) (v : Region → Region) : (s.modRegion k v).mem = s.mem := rfl
@[simp] theorem setRegion_poison (s : State) (k : Nat) (v : Region) : (s.setRegion k v).poison = s.poison := rfl
@[simp] theorem modRegion_poison (s : State) (k : Nat) (v : Region → Region) : (s.modRegion k v).poison = s.poison := rfl
@[simp] theorem setRegion_errs (s : State) (k : Nat) (v : Region) : (s.setRegion k v).errs = s.errs := rfl
@[simp] theorem modRegion_errs (s : State) (k : Nat) (v : Region → Region) : (s.modRegion k v).errs = s.errs := rfl
@[simp] theorem setRegion_units (s : State) (k : Nat) (v : Region) : (s.setRegion k v).units = s.units := rfl
@[simp] theorem modRegion_units (s : State) (k : Nat) (v : Region → Region) : (s.modRegion k v).units = s.units := rfl
@[simp] theorem setRegion_memTop (s : State) (k : Nat) (v : Region) : (s.setRegion k v).memTop = s.memTop := rfl
@[simp] theorem modRegion_memTop (s : State) (k : Nat) (v : Region → Region) : (s.modRegion k v).memTop = s.memTop := rfl
@[simp] theorem setRegion_dir (s : State) (k : Nat) (v : Region) : (s.setRegion k v).dir = s.dir := rfl
@[simp] theorem modRegion_dir (s : State) (k : Nat) (v : Region → Region) : (s.modRegion k v).dir = s.dir := rfl
@[simp] theorem setRegion_ctxs (s : State) (k : Nat) (v : Region) : (s.setRegion k v).ctxs = s.ctxs := rfl
@[simp] theorem modRegion_ctxs (s : State) (k : Nat) (v : Region → Region) : (s.modRegion k v).ctxs = s.ctxs := rfl
@[simp] theorem setRegion_swaps (s : State) (k : Nat) (v : Region) : (s.setRegion k v).swaps = s.swaps := rfl
@[simp] theorem modRegion_swaps (s : State) (k : Nat) (v : Region → Region) : (s.modRegion k v).swaps = s.swaps := rfl
@[simp] theorem setRegion_wts (s : State) (k : Nat) (v : Region) : (s.setRegion k v).wts = s.wts := rfl
@[simp] theorem modRegion_wts (s : State) (k : Nat) (v : Region → Region) : (s.modRegion k v).wts = s.wts := rfl
@[simp] theorem setRegion_netLinks (s : State) (k : Nat) (v : Region) : (s.setRegion k v).netLinks = s.netLinks := rfl
@[simp] theorem modRegion_netLinks (s : State) (k : Nat) (v : Region → Region) : (s.modRegion k v).netLinks = s.netLinks := rfl
@[simp] theorem setRegion_parts (s : State) (k : Nat) (v : Region) : (s.setRegion k v).parts = s.parts := rfl
@[simp] theorem modRegion_parts (s : State) (k : Nat) (v : Region → Region) : (s.modRegion k v).parts = s.parts := rfl
@[simp] theorem setRegion_net (s : State) (k : Nat) (v : Region) : (s.setRegion k v).net = s.net := rfl
@[simp] theorem modRegion_net (s : State) (k : Nat) (v : Region → Region) : (s.modRegion k v).net = s.net := rfl
@[simp] theorem setRegion_netBufs (s : State) (k : Nat) (v : Region) : (s.setRegion k v).netBufs = s.netBufs := rfl
@[simp] theorem modRegion_netBufs (s : State) (k : Nat) (v : Region → Region) : (s.modRegion k v).netBufs = s.netBufs := rfl
@[simp] theorem setRegion_ports (s : State) (k : Nat) (v : Region) : (s.setRegion k v).ports = s.ports := rfl
@[simp] theorem modRegion_ports (s : State) (k : Nat) (v : Region → Region) : (s.modRegion k v).ports = s.ports := rfl
@[simp] theorem setRegion_link (s : State) (k : Nat) (v : Region) : (s.setRegion k v).link = s.link := rfl
@[simp] theorem modRegion_link (s : State) (k : Nat) (v : Region → Region) : (s.modRegion k v).link = s.link := rfl
@[simp] theorem setRegion_mbs (s : State) (k : Nat) (v : Region) : (s.setRegion k v).mbs = s.mbs := rfl
@[simp] theorem modRegion_mbs (s : State) (k : Nat) (v : Region → Region) : (s.modRegion k v).mbs = s.mbs := rfl
@[simp] theorem setRegion_cmds (s : State) (k : Nat) (v : Region) : (s.setRegion k v).cmds = s.cmds := rfl
@[simp] theorem modRegion_cmds (s : State) (k : Nat) (v : Region → Region) : (s.modRegion k v).cmds = s.cmds := rfl
@[simp] theorem setRegion_stw (s : State) (k : Nat) (v : Region) : (s.setRegion k v).stw = s.stw := rfl
@[simp] theorem modRegion_stw (s : State) (k : Nat) (v : Region → Region) : (s.modRegion k v).stw = s.stw := rfl
@[simp] theorem setRegion_hostMem (s : State) (k : Nat) (v : Region) : (s.setRegion k v).hostMem = s.hostMem := rfl
@[simp] theorem modRegion_hostMem (s : State) (k : Nat) (v : Region → Region) : (s.modRegion k v).hostMem = s.hostMem := rfl
@[simp] theorem setRegion_bu (s : State) (k : Nat) (v : Region) : (s.setRegion k v).bu = s.bu := rfl
@[simp] theorem modRegion_bu (s : State) (k : Nat) (v : Region → Region) : (s.modRegion k v).bu = s.bu := rfl
@[simp] theorem setRegion_pwr (s : State) (k : Nat) (v : Region) : (s.setRegion k v).pwr = s.pwr := rfl
@[simp] theorem modRegion_pwr (s : State) (k : Nat) (v : Region → Region) : (s.modRegion k v).pwr = s.pwr := rfl
@[simp] theorem setRegion_sensors (s : State) (k : Nat) (v : Region) : (s.setRegion k v).sensors = s.sensors := rfl
@[simp] theorem modRegion_sensors (s : State) (k : Nat) (v : Region → Region) : (s.modRegion k v).sensors = s.sensors := rfl
@[simp] theorem setRegion_dies (s : State) (k : Nat) (v : Region) : (s.setRegion k v).dies = s.dies := rfl
@[simp] theorem modRegion_dies (s : State) (k : Nat) (v : Region → Region) : (s.modRegion k v).dies = s.dies := rfl
@[simp] theorem setRegion_thm (s : State) (k : Nat) (v : Region) : (s.setRegion k v).thm = s.thm := rfl
@[simp] theorem modRegion_thm (s : State) (k : Nat) (v : Region → Region) : (s.modRegion k v).thm = s.thm := rfl
@[simp] theorem setRegion_exts (s : State) (k : Nat) (v : Region) : (s.setRegion k v).exts = s.exts := rfl
@[simp] theorem modRegion_exts (s : State) (k : Nat) (v : Region → Region) : (s.modRegion k v).exts = s.exts := rfl
@[simp] theorem setRegion_flt (s : State) (k : Nat) (v : Region) : (s.setRegion k v).flt = s.flt := rfl
@[simp] theorem modRegion_flt (s : State) (k : Nat) (v : Region → Region) : (s.modRegion k v).flt = s.flt := rfl
@[simp] theorem setRegion_sec (s : State) (k : Nat) (v : Region) : (s.setRegion k v).sec = s.sec := rfl
@[simp] theorem modRegion_sec (s : State) (k : Nat) (v : Region → Region) : (s.modRegion k v).sec = s.sec := rfl
@[simp] theorem setRegion_mg (s : State) (k : Nat) (v : Region) : (s.setRegion k v).mg = s.mg := rfl
@[simp] theorem modRegion_mg (s : State) (k : Nat) (v : Region → Region) : (s.modRegion k v).mg = s.mg := rfl
@[simp] theorem setRegion_free (s : State) (k : Nat) (v : Region) : (s.setRegion k v).free = s.free := rfl
@[simp] theorem modRegion_free (s : State) (k : Nat) (v : Region → Region) : (s.modRegion k v).free = s.free := rfl
@[simp] theorem setRegion_pending (s : State) (k : Nat) (v : Region) : (s.setRegion k v).pending = s.pending := rfl
@[simp] theorem modRegion_pending (s : State) (k : Nat) (v : Region → Region) : (s.modRegion k v).pending = s.pending := rfl

theorem modDirEntry_eq (s : State) (k : Nat) (g : Dir → Dir) : s.modDirEntry k g = s.setDirEntry k (g (s.dirEntry k)) := rfl
@[simp] theorem setDirEntry_tim (s : State) (k : Nat) (v : Dir) : (s.setDirEntry k v).tim = s.tim := rfl
@[simp] theorem modDirEntry_tim (s : State) (k : Nat) (v : Dir → Dir) : (s.modDirEntry k v).tim = s.tim := rfl
@[simp] theorem setDirEntry_pins (s : State) (k : Nat) (v : Dir) : (s.setDirEntry k v).pins = s.pins := rfl
@[simp] theorem modDirEntry_pins (s : State) (k : Nat) (v : Dir → Dir) : (s.modDirEntry k v).pins = s.pins := rfl
@[simp] theorem setDirEntry_fields (s : State) (k : Nat) (v : Dir) : (s.setDirEntry k v).fields = s.fields := rfl
@[simp] theorem modDirEntry_fields (s : State) (k : Nat) (v : Dir → Dir) : (s.modDirEntry k v).fields = s.fields := rfl
@[simp] theorem setDirEntry_adcs (s : State) (k : Nat) (v : Dir) : (s.setDirEntry k v).adcs = s.adcs := rfl
@[simp] theorem modDirEntry_adcs (s : State) (k : Nat) (v : Dir → Dir) : (s.modDirEntry k v).adcs = s.adcs := rfl
@[simp] theorem setDirEntry_adcTel (s : State) (k : Nat) (v : Dir) : (s.setDirEntry k v).adcTel = s.adcTel := rfl
@[simp] theorem modDirEntry_adcTel (s : State) (k : Nat) (v : Dir → Dir) : (s.modDirEntry k v).adcTel = s.adcTel := rfl
@[simp] theorem setDirEntry_taints (s : State) (k : Nat) (v : Dir) : (s.setDirEntry k v).taints = s.taints := rfl
@[simp] theorem modDirEntry_taints (s : State) (k : Nat) (v : Dir → Dir) : (s.modDirEntry k v).taints = s.taints := rfl
@[simp] theorem setDirEntry_acc (s : State) (k : Nat) (v : Dir) : (s.setDirEntry k v).acc = s.acc := rfl
@[simp] theorem modDirEntry_acc (s : State) (k : Nat) (v : Dir → Dir) : (s.modDirEntry k v).acc = s.acc := rfl
@[simp] theorem setDirEntry_bands (s : State) (k : Nat) (v : Dir) : (s.setDirEntry k v).bands = s.bands := rfl
@[simp] theorem modDirEntry_bands (s : State) (k : Nat) (v : Dir → Dir) : (s.modDirEntry k v).bands = s.bands := rfl
@[simp] theorem setDirEntry_cal (s : State) (k : Nat) (v : Dir) : (s.setDirEntry k v).cal = s.cal := rfl
@[simp] theorem modDirEntry_cal (s : State) (k : Nat) (v : Dir → Dir) : (s.modDirEntry k v).cal = s.cal := rfl
@[simp] theorem setDirEntry_lcols (s : State) (k : Nat) (v : Dir) : (s.setDirEntry k v).lcols = s.lcols := rfl
@[simp] theorem modDirEntry_lcols (s : State) (k : Nat) (v : Dir → Dir) : (s.modDirEntry k v).lcols = s.lcols := rfl
@[simp] theorem setDirEntry_lports (s : State) (k : Nat) (v : Dir) : (s.setDirEntry k v).lports = s.lports := rfl
@[simp] theorem modDirEntry_lports (s : State) (k : Nat) (v : Dir → Dir) : (s.modDirEntry k v).lports = s.lports := rfl
@[simp] theorem setDirEntry_relays (s : State) (k : Nat) (v : Dir) : (s.setDirEntry k v).relays = s.relays := rfl
@[simp] theorem modDirEntry_relays (s : State) (k : Nat) (v : Dir → Dir) : (s.modDirEntry k v).relays = s.relays := rfl
@[simp] theorem setDirEntry_light (s : State) (k : Nat) (v : Dir) : (s.setDirEntry k v).light = s.light := rfl
@[simp] theorem modDirEntry_light (s : State) (k : Nat) (v : Dir → Dir) : (s.modDirEntry k v).light = s.light := rfl
@[simp] theorem setDirEntry_mons (s : State) (k : Nat) (v : Dir) : (s.setDirEntry k v).mons = s.mons := rfl
@[simp] theorem modDirEntry_mons (s : State) (k : Nat) (v : Dir → Dir) : (s.modDirEntry k v).mons = s.mons := rfl
@[simp] theorem setDirEntry_monLasts (s : State) (k : Nat) (v : Dir) : (s.setDirEntry k v).monLasts = s.monLasts := rfl
@[simp] theorem modDirEntry_monLasts (s : State) (k : Nat) (v : Dir → Dir) : (s.modDirEntry k v).monLasts = s.monLasts := rfl
@[simp] theorem setDirEntry_ring (s : State) (k : Nat) (v : Dir) : (s.setDirEntry k v).ring = s.ring := rfl
@[simp] theorem modDirEntry_ring (s : State) (k : Nat) (v : Dir → Dir) : (s.modDirEntry k v).ring = s.ring := rfl
@[simp] theorem setDirEntry_loops (s : State) (k : Nat) (v : Dir) : (s.setDirEntry k v).loops = s.loops := rfl
@[simp] theorem modDirEntry_loops (s : State) (k : Nat) (v : Dir → Dir) : (s.modDirEntry k v).loops = s.loops := rfl
@[simp] theorem setDirEntry_eng (s : State) (k : Nat) (v : Dir) : (s.setDirEntry k v).eng = s.eng := rfl
@[simp] theorem modDirEntry_eng (s : State) (k : Nat) (v : Dir → Dir) : (s.modDirEntry k v).eng = s.eng := rfl
@[simp] theorem setDirEntry_streams (s : State) (k : Nat) (v : Dir) : (s.setDirEntry k v).streams = s.streams := rfl
@[simp] theorem modDirEntry_streams (s : State) (k : Nat) (v : Dir → Dir) : (s.modDirEntry k v).streams = s.streams := rfl
@[simp] theorem setDirEntry_ops (s : State) (k : Nat) (v : Dir) : (s.setDirEntry k v).ops = s.ops := rfl
@[simp] theorem modDirEntry_ops (s : State) (k : Nat) (v : Dir → Dir) : (s.modDirEntry k v).ops = s.ops := rfl
@[simp] theorem setDirEntry_seq (s : State) (k : Nat) (v : Dir) : (s.setDirEntry k v).seq = s.seq := rfl
@[simp] theorem modDirEntry_seq (s : State) (k : Nat) (v : Dir → Dir) : (s.modDirEntry k v).seq = s.seq := rfl
@[simp] theorem setDirEntry_tokens (s : State) (k : Nat) (v : Dir) : (s.setDirEntry k v).tokens = s.tokens := rfl
@[simp] theorem modDirEntry_tokens (s : State) (k : Nat) (v : Dir → Dir) : (s.modDirEntry k v).tokens = s.tokens := rfl
@[simp] theorem setDirEntry_rowMaps (s : State) (k : Nat) (v : Dir) : (s.setDirEntry k v).rowMaps = s.rowMaps := rfl
@[simp] theorem modDirEntry_rowMaps (s : State) (k : Nat) (v : Dir → Dir) : (s.modDirEntry k v).rowMaps = s.rowMaps := rfl
@[simp] theorem setDirEntry_manifest (s : State) (k : Nat) (v : Dir) : (s.setDirEntry k v).manifest = s.manifest := rfl
@[simp] theorem modDirEntry_manifest (s : State) (k : Nat) (v : Dir → Dir) : (s.modDirEntry k v).manifest = s.manifest := rfl
@[simp] theorem setDirEntry_cores (s : State) (k : Nat) (v : Dir) : (s.setDirEntry k v).cores = s.cores := rfl
@[simp] theorem modDirEntry_cores (s : State) (k : Nat) (v : Dir → Dir) : (s.modDirEntry k v).cores = s.cores := rfl
@[simp] theorem setDirEntry_mem (s : State) (k : Nat) (v : Dir) : (s.setDirEntry k v).mem = s.mem := rfl
@[simp] theorem modDirEntry_mem (s : State) (k : Nat) (v : Dir → Dir) : (s.modDirEntry k v).mem = s.mem := rfl
@[simp] theorem setDirEntry_poison (s : State) (k : Nat) (v : Dir) : (s.setDirEntry k v).poison = s.poison := rfl
@[simp] theorem modDirEntry_poison (s : State) (k : Nat) (v : Dir → Dir) : (s.modDirEntry k v).poison = s.poison := rfl
@[simp] theorem setDirEntry_errs (s : State) (k : Nat) (v : Dir) : (s.setDirEntry k v).errs = s.errs := rfl
@[simp] theorem modDirEntry_errs (s : State) (k : Nat) (v : Dir → Dir) : (s.modDirEntry k v).errs = s.errs := rfl
@[simp] theorem setDirEntry_units (s : State) (k : Nat) (v : Dir) : (s.setDirEntry k v).units = s.units := rfl
@[simp] theorem modDirEntry_units (s : State) (k : Nat) (v : Dir → Dir) : (s.modDirEntry k v).units = s.units := rfl
@[simp] theorem setDirEntry_regions (s : State) (k : Nat) (v : Dir) : (s.setDirEntry k v).regions = s.regions := rfl
@[simp] theorem modDirEntry_regions (s : State) (k : Nat) (v : Dir → Dir) : (s.modDirEntry k v).regions = s.regions := rfl
@[simp] theorem setDirEntry_memTop (s : State) (k : Nat) (v : Dir) : (s.setDirEntry k v).memTop = s.memTop := rfl
@[simp] theorem modDirEntry_memTop (s : State) (k : Nat) (v : Dir → Dir) : (s.modDirEntry k v).memTop = s.memTop := rfl
@[simp] theorem setDirEntry_ctxs (s : State) (k : Nat) (v : Dir) : (s.setDirEntry k v).ctxs = s.ctxs := rfl
@[simp] theorem modDirEntry_ctxs (s : State) (k : Nat) (v : Dir → Dir) : (s.modDirEntry k v).ctxs = s.ctxs := rfl
@[simp] theorem setDirEntry_swaps (s : State) (k : Nat) (v : Dir) : (s.setDirEntry k v).swaps = s.swaps := rfl
@[simp] theorem modDirEntry_swaps (s : State) (k : Nat) (v : Dir → Dir) : (s.modDirEntry k v).swaps = s.swaps := rfl
@[simp] theorem setDirEntry_wts (s : State) (k : Nat) (v : Dir) : (s.setDirEntry k v).wts = s.wts := rfl
@[simp] theorem modDirEntry_wts (s : State) (k : Nat) (v : Dir → Dir) : (s.modDirEntry k v).wts = s.wts := rfl
@[simp] theorem setDirEntry_netLinks (s : State) (k : Nat) (v : Dir) : (s.setDirEntry k v).netLinks = s.netLinks := rfl
@[simp] theorem modDirEntry_netLinks (s : State) (k : Nat) (v : Dir → Dir) : (s.modDirEntry k v).netLinks = s.netLinks := rfl
@[simp] theorem setDirEntry_parts (s : State) (k : Nat) (v : Dir) : (s.setDirEntry k v).parts = s.parts := rfl
@[simp] theorem modDirEntry_parts (s : State) (k : Nat) (v : Dir → Dir) : (s.modDirEntry k v).parts = s.parts := rfl
@[simp] theorem setDirEntry_net (s : State) (k : Nat) (v : Dir) : (s.setDirEntry k v).net = s.net := rfl
@[simp] theorem modDirEntry_net (s : State) (k : Nat) (v : Dir → Dir) : (s.modDirEntry k v).net = s.net := rfl
@[simp] theorem setDirEntry_netBufs (s : State) (k : Nat) (v : Dir) : (s.setDirEntry k v).netBufs = s.netBufs := rfl
@[simp] theorem modDirEntry_netBufs (s : State) (k : Nat) (v : Dir → Dir) : (s.modDirEntry k v).netBufs = s.netBufs := rfl
@[simp] theorem setDirEntry_ports (s : State) (k : Nat) (v : Dir) : (s.setDirEntry k v).ports = s.ports := rfl
@[simp] theorem modDirEntry_ports (s : State) (k : Nat) (v : Dir → Dir) : (s.modDirEntry k v).ports = s.ports := rfl
@[simp] theorem setDirEntry_link (s : State) (k : Nat) (v : Dir) : (s.setDirEntry k v).link = s.link := rfl
@[simp] theorem modDirEntry_link (s : State) (k : Nat) (v : Dir → Dir) : (s.modDirEntry k v).link = s.link := rfl
@[simp] theorem setDirEntry_mbs (s : State) (k : Nat) (v : Dir) : (s.setDirEntry k v).mbs = s.mbs := rfl
@[simp] theorem modDirEntry_mbs (s : State) (k : Nat) (v : Dir → Dir) : (s.modDirEntry k v).mbs = s.mbs := rfl
@[simp] theorem setDirEntry_cmds (s : State) (k : Nat) (v : Dir) : (s.setDirEntry k v).cmds = s.cmds := rfl
@[simp] theorem modDirEntry_cmds (s : State) (k : Nat) (v : Dir → Dir) : (s.modDirEntry k v).cmds = s.cmds := rfl
@[simp] theorem setDirEntry_stw (s : State) (k : Nat) (v : Dir) : (s.setDirEntry k v).stw = s.stw := rfl
@[simp] theorem modDirEntry_stw (s : State) (k : Nat) (v : Dir → Dir) : (s.modDirEntry k v).stw = s.stw := rfl
@[simp] theorem setDirEntry_hostMem (s : State) (k : Nat) (v : Dir) : (s.setDirEntry k v).hostMem = s.hostMem := rfl
@[simp] theorem modDirEntry_hostMem (s : State) (k : Nat) (v : Dir → Dir) : (s.modDirEntry k v).hostMem = s.hostMem := rfl
@[simp] theorem setDirEntry_bu (s : State) (k : Nat) (v : Dir) : (s.setDirEntry k v).bu = s.bu := rfl
@[simp] theorem modDirEntry_bu (s : State) (k : Nat) (v : Dir → Dir) : (s.modDirEntry k v).bu = s.bu := rfl
@[simp] theorem setDirEntry_pwr (s : State) (k : Nat) (v : Dir) : (s.setDirEntry k v).pwr = s.pwr := rfl
@[simp] theorem modDirEntry_pwr (s : State) (k : Nat) (v : Dir → Dir) : (s.modDirEntry k v).pwr = s.pwr := rfl
@[simp] theorem setDirEntry_sensors (s : State) (k : Nat) (v : Dir) : (s.setDirEntry k v).sensors = s.sensors := rfl
@[simp] theorem modDirEntry_sensors (s : State) (k : Nat) (v : Dir → Dir) : (s.modDirEntry k v).sensors = s.sensors := rfl
@[simp] theorem setDirEntry_dies (s : State) (k : Nat) (v : Dir) : (s.setDirEntry k v).dies = s.dies := rfl
@[simp] theorem modDirEntry_dies (s : State) (k : Nat) (v : Dir → Dir) : (s.modDirEntry k v).dies = s.dies := rfl
@[simp] theorem setDirEntry_thm (s : State) (k : Nat) (v : Dir) : (s.setDirEntry k v).thm = s.thm := rfl
@[simp] theorem modDirEntry_thm (s : State) (k : Nat) (v : Dir → Dir) : (s.modDirEntry k v).thm = s.thm := rfl
@[simp] theorem setDirEntry_exts (s : State) (k : Nat) (v : Dir) : (s.setDirEntry k v).exts = s.exts := rfl
@[simp] theorem modDirEntry_exts (s : State) (k : Nat) (v : Dir → Dir) : (s.modDirEntry k v).exts = s.exts := rfl
@[simp] theorem setDirEntry_flt (s : State) (k : Nat) (v : Dir) : (s.setDirEntry k v).flt = s.flt := rfl
@[simp] theorem modDirEntry_flt (s : State) (k : Nat) (v : Dir → Dir) : (s.modDirEntry k v).flt = s.flt := rfl
@[simp] theorem setDirEntry_sec (s : State) (k : Nat) (v : Dir) : (s.setDirEntry k v).sec = s.sec := rfl
@[simp] theorem modDirEntry_sec (s : State) (k : Nat) (v : Dir → Dir) : (s.modDirEntry k v).sec = s.sec := rfl
@[simp] theorem setDirEntry_mg (s : State) (k : Nat) (v : Dir) : (s.setDirEntry k v).mg = s.mg := rfl
@[simp] theorem modDirEntry_mg (s : State) (k : Nat) (v : Dir → Dir) : (s.modDirEntry k v).mg = s.mg := rfl
@[simp] theorem setDirEntry_free (s : State) (k : Nat) (v : Dir) : (s.setDirEntry k v).free = s.free := rfl
@[simp] theorem modDirEntry_free (s : State) (k : Nat) (v : Dir → Dir) : (s.modDirEntry k v).free = s.free := rfl
@[simp] theorem setDirEntry_pending (s : State) (k : Nat) (v : Dir) : (s.setDirEntry k v).pending = s.pending := rfl
@[simp] theorem modDirEntry_pending (s : State) (k : Nat) (v : Dir → Dir) : (s.modDirEntry k v).pending = s.pending := rfl

theorem modCtx_eq (s : State) (k : Nat) (g : LoadCtx → LoadCtx) : s.modCtx k g = s.setCtx k (g (s.ctx k)) := rfl
@[simp] theorem setCtx_tim (s : State) (k : Nat) (v : LoadCtx) : (s.setCtx k v).tim = s.tim := rfl
@[simp] theorem modCtx_tim (s : State) (k : Nat) (v : LoadCtx → LoadCtx) : (s.modCtx k v).tim = s.tim := rfl
@[simp] theorem setCtx_pins (s : State) (k : Nat) (v : LoadCtx) : (s.setCtx k v).pins = s.pins := rfl
@[simp] theorem modCtx_pins (s : State) (k : Nat) (v : LoadCtx → LoadCtx) : (s.modCtx k v).pins = s.pins := rfl
@[simp] theorem setCtx_fields (s : State) (k : Nat) (v : LoadCtx) : (s.setCtx k v).fields = s.fields := rfl
@[simp] theorem modCtx_fields (s : State) (k : Nat) (v : LoadCtx → LoadCtx) : (s.modCtx k v).fields = s.fields := rfl
@[simp] theorem setCtx_adcs (s : State) (k : Nat) (v : LoadCtx) : (s.setCtx k v).adcs = s.adcs := rfl
@[simp] theorem modCtx_adcs (s : State) (k : Nat) (v : LoadCtx → LoadCtx) : (s.modCtx k v).adcs = s.adcs := rfl
@[simp] theorem setCtx_adcTel (s : State) (k : Nat) (v : LoadCtx) : (s.setCtx k v).adcTel = s.adcTel := rfl
@[simp] theorem modCtx_adcTel (s : State) (k : Nat) (v : LoadCtx → LoadCtx) : (s.modCtx k v).adcTel = s.adcTel := rfl
@[simp] theorem setCtx_taints (s : State) (k : Nat) (v : LoadCtx) : (s.setCtx k v).taints = s.taints := rfl
@[simp] theorem modCtx_taints (s : State) (k : Nat) (v : LoadCtx → LoadCtx) : (s.modCtx k v).taints = s.taints := rfl
@[simp] theorem setCtx_acc (s : State) (k : Nat) (v : LoadCtx) : (s.setCtx k v).acc = s.acc := rfl
@[simp] theorem modCtx_acc (s : State) (k : Nat) (v : LoadCtx → LoadCtx) : (s.modCtx k v).acc = s.acc := rfl
@[simp] theorem setCtx_bands (s : State) (k : Nat) (v : LoadCtx) : (s.setCtx k v).bands = s.bands := rfl
@[simp] theorem modCtx_bands (s : State) (k : Nat) (v : LoadCtx → LoadCtx) : (s.modCtx k v).bands = s.bands := rfl
@[simp] theorem setCtx_cal (s : State) (k : Nat) (v : LoadCtx) : (s.setCtx k v).cal = s.cal := rfl
@[simp] theorem modCtx_cal (s : State) (k : Nat) (v : LoadCtx → LoadCtx) : (s.modCtx k v).cal = s.cal := rfl
@[simp] theorem setCtx_lcols (s : State) (k : Nat) (v : LoadCtx) : (s.setCtx k v).lcols = s.lcols := rfl
@[simp] theorem modCtx_lcols (s : State) (k : Nat) (v : LoadCtx → LoadCtx) : (s.modCtx k v).lcols = s.lcols := rfl
@[simp] theorem setCtx_lports (s : State) (k : Nat) (v : LoadCtx) : (s.setCtx k v).lports = s.lports := rfl
@[simp] theorem modCtx_lports (s : State) (k : Nat) (v : LoadCtx → LoadCtx) : (s.modCtx k v).lports = s.lports := rfl
@[simp] theorem setCtx_relays (s : State) (k : Nat) (v : LoadCtx) : (s.setCtx k v).relays = s.relays := rfl
@[simp] theorem modCtx_relays (s : State) (k : Nat) (v : LoadCtx → LoadCtx) : (s.modCtx k v).relays = s.relays := rfl
@[simp] theorem setCtx_light (s : State) (k : Nat) (v : LoadCtx) : (s.setCtx k v).light = s.light := rfl
@[simp] theorem modCtx_light (s : State) (k : Nat) (v : LoadCtx → LoadCtx) : (s.modCtx k v).light = s.light := rfl
@[simp] theorem setCtx_mons (s : State) (k : Nat) (v : LoadCtx) : (s.setCtx k v).mons = s.mons := rfl
@[simp] theorem modCtx_mons (s : State) (k : Nat) (v : LoadCtx → LoadCtx) : (s.modCtx k v).mons = s.mons := rfl
@[simp] theorem setCtx_monLasts (s : State) (k : Nat) (v : LoadCtx) : (s.setCtx k v).monLasts = s.monLasts := rfl
@[simp] theorem modCtx_monLasts (s : State) (k : Nat) (v : LoadCtx → LoadCtx) : (s.modCtx k v).monLasts = s.monLasts := rfl
@[simp] theorem setCtx_ring (s : State) (k : Nat) (v : LoadCtx) : (s.setCtx k v).ring = s.ring := rfl
@[simp] theorem modCtx_ring (s : State) (k : Nat) (v : LoadCtx → LoadCtx) : (s.modCtx k v).ring = s.ring := rfl
@[simp] theorem setCtx_loops (s : State) (k : Nat) (v : LoadCtx) : (s.setCtx k v).loops = s.loops := rfl
@[simp] theorem modCtx_loops (s : State) (k : Nat) (v : LoadCtx → LoadCtx) : (s.modCtx k v).loops = s.loops := rfl
@[simp] theorem setCtx_eng (s : State) (k : Nat) (v : LoadCtx) : (s.setCtx k v).eng = s.eng := rfl
@[simp] theorem modCtx_eng (s : State) (k : Nat) (v : LoadCtx → LoadCtx) : (s.modCtx k v).eng = s.eng := rfl
@[simp] theorem setCtx_streams (s : State) (k : Nat) (v : LoadCtx) : (s.setCtx k v).streams = s.streams := rfl
@[simp] theorem modCtx_streams (s : State) (k : Nat) (v : LoadCtx → LoadCtx) : (s.modCtx k v).streams = s.streams := rfl
@[simp] theorem setCtx_ops (s : State) (k : Nat) (v : LoadCtx) : (s.setCtx k v).ops = s.ops := rfl
@[simp] theorem modCtx_ops (s : State) (k : Nat) (v : LoadCtx → LoadCtx) : (s.modCtx k v).ops = s.ops := rfl
@[simp] theorem setCtx_seq (s : State) (k : Nat) (v : LoadCtx) : (s.setCtx k v).seq = s.seq := rfl
@[simp] theorem modCtx_seq (s : State) (k : Nat) (v : LoadCtx → LoadCtx) : (s.modCtx k v).seq = s.seq := rfl
@[simp] theorem setCtx_tokens (s : State) (k : Nat) (v : LoadCtx) : (s.setCtx k v).tokens = s.tokens := rfl
@[simp] theorem modCtx_tokens (s : State) (k : Nat) (v : LoadCtx → LoadCtx) : (s.modCtx k v).tokens = s.tokens := rfl
@[simp] theorem setCtx_rowMaps (s : State) (k : Nat) (v : LoadCtx) : (s.setCtx k v).rowMaps = s.rowMaps := rfl
@[simp] theorem modCtx_rowMaps (s : State) (k : Nat) (v : LoadCtx → LoadCtx) : (s.modCtx k v).rowMaps = s.rowMaps := rfl
@[simp] theorem setCtx_manifest (s : State) (k : Nat) (v : LoadCtx) : (s.setCtx k v).manifest = s.manifest := rfl
@[simp] theorem modCtx_manifest (s : State) (k : Nat) (v : LoadCtx → LoadCtx) : (s.modCtx k v).manifest = s.manifest := rfl
@[simp] theorem setCtx_cores (s : State) (k : Nat) (v : LoadCtx) : (s.setCtx k v).cores = s.cores := rfl
@[simp] theorem modCtx_cores (s : State) (k : Nat) (v : LoadCtx → LoadCtx) : (s.modCtx k v).cores = s.cores := rfl
@[simp] theorem setCtx_mem (s : State) (k : Nat) (v : LoadCtx) : (s.setCtx k v).mem = s.mem := rfl
@[simp] theorem modCtx_mem (s : State) (k : Nat) (v : LoadCtx → LoadCtx) : (s.modCtx k v).mem = s.mem := rfl
@[simp] theorem setCtx_poison (s : State) (k : Nat) (v : LoadCtx) : (s.setCtx k v).poison = s.poison := rfl
@[simp] theorem modCtx_poison (s : State) (k : Nat) (v : LoadCtx → LoadCtx) : (s.modCtx k v).poison = s.poison := rfl
@[simp] theorem setCtx_errs (s : State) (k : Nat) (v : LoadCtx) : (s.setCtx k v).errs = s.errs := rfl
@[simp] theorem modCtx_errs (s : State) (k : Nat) (v : LoadCtx → LoadCtx) : (s.modCtx k v).errs = s.errs := rfl
@[simp] theorem setCtx_units (s : State) (k : Nat) (v : LoadCtx) : (s.setCtx k v).units = s.units := rfl
@[simp] theorem modCtx_units (s : State) (k : Nat) (v : LoadCtx → LoadCtx) : (s.modCtx k v).units = s.units := rfl
@[simp] theorem setCtx_regions (s : State) (k : Nat) (v : LoadCtx) : (s.setCtx k v).regions = s.regions := rfl
@[simp] theorem modCtx_regions (s : State) (k : Nat) (v : LoadCtx → LoadCtx) : (s.modCtx k v).regions = s.regions := rfl
@[simp] theorem setCtx_memTop (s : State) (k : Nat) (v : LoadCtx) : (s.setCtx k v).memTop = s.memTop := rfl
@[simp] theorem modCtx_memTop (s : State) (k : Nat) (v : LoadCtx → LoadCtx) : (s.modCtx k v).memTop = s.memTop := rfl
@[simp] theorem setCtx_dir (s : State) (k : Nat) (v : LoadCtx) : (s.setCtx k v).dir = s.dir := rfl
@[simp] theorem modCtx_dir (s : State) (k : Nat) (v : LoadCtx → LoadCtx) : (s.modCtx k v).dir = s.dir := rfl
@[simp] theorem setCtx_swaps (s : State) (k : Nat) (v : LoadCtx) : (s.setCtx k v).swaps = s.swaps := rfl
@[simp] theorem modCtx_swaps (s : State) (k : Nat) (v : LoadCtx → LoadCtx) : (s.modCtx k v).swaps = s.swaps := rfl
@[simp] theorem setCtx_wts (s : State) (k : Nat) (v : LoadCtx) : (s.setCtx k v).wts = s.wts := rfl
@[simp] theorem modCtx_wts (s : State) (k : Nat) (v : LoadCtx → LoadCtx) : (s.modCtx k v).wts = s.wts := rfl
@[simp] theorem setCtx_netLinks (s : State) (k : Nat) (v : LoadCtx) : (s.setCtx k v).netLinks = s.netLinks := rfl
@[simp] theorem modCtx_netLinks (s : State) (k : Nat) (v : LoadCtx → LoadCtx) : (s.modCtx k v).netLinks = s.netLinks := rfl
@[simp] theorem setCtx_parts (s : State) (k : Nat) (v : LoadCtx) : (s.setCtx k v).parts = s.parts := rfl
@[simp] theorem modCtx_parts (s : State) (k : Nat) (v : LoadCtx → LoadCtx) : (s.modCtx k v).parts = s.parts := rfl
@[simp] theorem setCtx_net (s : State) (k : Nat) (v : LoadCtx) : (s.setCtx k v).net = s.net := rfl
@[simp] theorem modCtx_net (s : State) (k : Nat) (v : LoadCtx → LoadCtx) : (s.modCtx k v).net = s.net := rfl
@[simp] theorem setCtx_netBufs (s : State) (k : Nat) (v : LoadCtx) : (s.setCtx k v).netBufs = s.netBufs := rfl
@[simp] theorem modCtx_netBufs (s : State) (k : Nat) (v : LoadCtx → LoadCtx) : (s.modCtx k v).netBufs = s.netBufs := rfl
@[simp] theorem setCtx_ports (s : State) (k : Nat) (v : LoadCtx) : (s.setCtx k v).ports = s.ports := rfl
@[simp] theorem modCtx_ports (s : State) (k : Nat) (v : LoadCtx → LoadCtx) : (s.modCtx k v).ports = s.ports := rfl
@[simp] theorem setCtx_link (s : State) (k : Nat) (v : LoadCtx) : (s.setCtx k v).link = s.link := rfl
@[simp] theorem modCtx_link (s : State) (k : Nat) (v : LoadCtx → LoadCtx) : (s.modCtx k v).link = s.link := rfl
@[simp] theorem setCtx_mbs (s : State) (k : Nat) (v : LoadCtx) : (s.setCtx k v).mbs = s.mbs := rfl
@[simp] theorem modCtx_mbs (s : State) (k : Nat) (v : LoadCtx → LoadCtx) : (s.modCtx k v).mbs = s.mbs := rfl
@[simp] theorem setCtx_cmds (s : State) (k : Nat) (v : LoadCtx) : (s.setCtx k v).cmds = s.cmds := rfl
@[simp] theorem modCtx_cmds (s : State) (k : Nat) (v : LoadCtx → LoadCtx) : (s.modCtx k v).cmds = s.cmds := rfl
@[simp] theorem setCtx_stw (s : State) (k : Nat) (v : LoadCtx) : (s.setCtx k v).stw = s.stw := rfl
@[simp] theorem modCtx_stw (s : State) (k : Nat) (v : LoadCtx → LoadCtx) : (s.modCtx k v).stw = s.stw := rfl
@[simp] theorem setCtx_hostMem (s : State) (k : Nat) (v : LoadCtx) : (s.setCtx k v).hostMem = s.hostMem := rfl
@[simp] theorem modCtx_hostMem (s : State) (k : Nat) (v : LoadCtx → LoadCtx) : (s.modCtx k v).hostMem = s.hostMem := rfl
@[simp] theorem setCtx_bu (s : State) (k : Nat) (v : LoadCtx) : (s.setCtx k v).bu = s.bu := rfl
@[simp] theorem modCtx_bu (s : State) (k : Nat) (v : LoadCtx → LoadCtx) : (s.modCtx k v).bu = s.bu := rfl
@[simp] theorem setCtx_pwr (s : State) (k : Nat) (v : LoadCtx) : (s.setCtx k v).pwr = s.pwr := rfl
@[simp] theorem modCtx_pwr (s : State) (k : Nat) (v : LoadCtx → LoadCtx) : (s.modCtx k v).pwr = s.pwr := rfl
@[simp] theorem setCtx_sensors (s : State) (k : Nat) (v : LoadCtx) : (s.setCtx k v).sensors = s.sensors := rfl
@[simp] theorem modCtx_sensors (s : State) (k : Nat) (v : LoadCtx → LoadCtx) : (s.modCtx k v).sensors = s.sensors := rfl
@[simp] theorem setCtx_dies (s : State) (k : Nat) (v : LoadCtx) : (s.setCtx k v).dies = s.dies := rfl
@[simp] theorem modCtx_dies (s : State) (k : Nat) (v : LoadCtx → LoadCtx) : (s.modCtx k v).dies = s.dies := rfl
@[simp] theorem setCtx_thm (s : State) (k : Nat) (v : LoadCtx) : (s.setCtx k v).thm = s.thm := rfl
@[simp] theorem modCtx_thm (s : State) (k : Nat) (v : LoadCtx → LoadCtx) : (s.modCtx k v).thm = s.thm := rfl
@[simp] theorem setCtx_exts (s : State) (k : Nat) (v : LoadCtx) : (s.setCtx k v).exts = s.exts := rfl
@[simp] theorem modCtx_exts (s : State) (k : Nat) (v : LoadCtx → LoadCtx) : (s.modCtx k v).exts = s.exts := rfl
@[simp] theorem setCtx_flt (s : State) (k : Nat) (v : LoadCtx) : (s.setCtx k v).flt = s.flt := rfl
@[simp] theorem modCtx_flt (s : State) (k : Nat) (v : LoadCtx → LoadCtx) : (s.modCtx k v).flt = s.flt := rfl
@[simp] theorem setCtx_sec (s : State) (k : Nat) (v : LoadCtx) : (s.setCtx k v).sec = s.sec := rfl
@[simp] theorem modCtx_sec (s : State) (k : Nat) (v : LoadCtx → LoadCtx) : (s.modCtx k v).sec = s.sec := rfl
@[simp] theorem setCtx_mg (s : State) (k : Nat) (v : LoadCtx) : (s.setCtx k v).mg = s.mg := rfl
@[simp] theorem modCtx_mg (s : State) (k : Nat) (v : LoadCtx → LoadCtx) : (s.modCtx k v).mg = s.mg := rfl
@[simp] theorem setCtx_free (s : State) (k : Nat) (v : LoadCtx) : (s.setCtx k v).free = s.free := rfl
@[simp] theorem modCtx_free (s : State) (k : Nat) (v : LoadCtx → LoadCtx) : (s.modCtx k v).free = s.free := rfl
@[simp] theorem setCtx_pending (s : State) (k : Nat) (v : LoadCtx) : (s.setCtx k v).pending = s.pending := rfl
@[simp] theorem modCtx_pending (s : State) (k : Nat) (v : LoadCtx → LoadCtx) : (s.modCtx k v).pending = s.pending := rfl

theorem modSwapOf_eq (s : State) (k : Nat) (g : Swap → Swap) : s.modSwapOf k g = s.setSwapOf k (g (s.swapOf k)) := rfl
@[simp] theorem setSwapOf_tim (s : State) (k : Nat) (v : Swap) : (s.setSwapOf k v).tim = s.tim := rfl
@[simp] theorem modSwapOf_tim (s : State) (k : Nat) (v : Swap → Swap) : (s.modSwapOf k v).tim = s.tim := rfl
@[simp] theorem setSwapOf_pins (s : State) (k : Nat) (v : Swap) : (s.setSwapOf k v).pins = s.pins := rfl
@[simp] theorem modSwapOf_pins (s : State) (k : Nat) (v : Swap → Swap) : (s.modSwapOf k v).pins = s.pins := rfl
@[simp] theorem setSwapOf_fields (s : State) (k : Nat) (v : Swap) : (s.setSwapOf k v).fields = s.fields := rfl
@[simp] theorem modSwapOf_fields (s : State) (k : Nat) (v : Swap → Swap) : (s.modSwapOf k v).fields = s.fields := rfl
@[simp] theorem setSwapOf_adcs (s : State) (k : Nat) (v : Swap) : (s.setSwapOf k v).adcs = s.adcs := rfl
@[simp] theorem modSwapOf_adcs (s : State) (k : Nat) (v : Swap → Swap) : (s.modSwapOf k v).adcs = s.adcs := rfl
@[simp] theorem setSwapOf_adcTel (s : State) (k : Nat) (v : Swap) : (s.setSwapOf k v).adcTel = s.adcTel := rfl
@[simp] theorem modSwapOf_adcTel (s : State) (k : Nat) (v : Swap → Swap) : (s.modSwapOf k v).adcTel = s.adcTel := rfl
@[simp] theorem setSwapOf_taints (s : State) (k : Nat) (v : Swap) : (s.setSwapOf k v).taints = s.taints := rfl
@[simp] theorem modSwapOf_taints (s : State) (k : Nat) (v : Swap → Swap) : (s.modSwapOf k v).taints = s.taints := rfl
@[simp] theorem setSwapOf_acc (s : State) (k : Nat) (v : Swap) : (s.setSwapOf k v).acc = s.acc := rfl
@[simp] theorem modSwapOf_acc (s : State) (k : Nat) (v : Swap → Swap) : (s.modSwapOf k v).acc = s.acc := rfl
@[simp] theorem setSwapOf_bands (s : State) (k : Nat) (v : Swap) : (s.setSwapOf k v).bands = s.bands := rfl
@[simp] theorem modSwapOf_bands (s : State) (k : Nat) (v : Swap → Swap) : (s.modSwapOf k v).bands = s.bands := rfl
@[simp] theorem setSwapOf_cal (s : State) (k : Nat) (v : Swap) : (s.setSwapOf k v).cal = s.cal := rfl
@[simp] theorem modSwapOf_cal (s : State) (k : Nat) (v : Swap → Swap) : (s.modSwapOf k v).cal = s.cal := rfl
@[simp] theorem setSwapOf_lcols (s : State) (k : Nat) (v : Swap) : (s.setSwapOf k v).lcols = s.lcols := rfl
@[simp] theorem modSwapOf_lcols (s : State) (k : Nat) (v : Swap → Swap) : (s.modSwapOf k v).lcols = s.lcols := rfl
@[simp] theorem setSwapOf_lports (s : State) (k : Nat) (v : Swap) : (s.setSwapOf k v).lports = s.lports := rfl
@[simp] theorem modSwapOf_lports (s : State) (k : Nat) (v : Swap → Swap) : (s.modSwapOf k v).lports = s.lports := rfl
@[simp] theorem setSwapOf_relays (s : State) (k : Nat) (v : Swap) : (s.setSwapOf k v).relays = s.relays := rfl
@[simp] theorem modSwapOf_relays (s : State) (k : Nat) (v : Swap → Swap) : (s.modSwapOf k v).relays = s.relays := rfl
@[simp] theorem setSwapOf_light (s : State) (k : Nat) (v : Swap) : (s.setSwapOf k v).light = s.light := rfl
@[simp] theorem modSwapOf_light (s : State) (k : Nat) (v : Swap → Swap) : (s.modSwapOf k v).light = s.light := rfl
@[simp] theorem setSwapOf_mons (s : State) (k : Nat) (v : Swap) : (s.setSwapOf k v).mons = s.mons := rfl
@[simp] theorem modSwapOf_mons (s : State) (k : Nat) (v : Swap → Swap) : (s.modSwapOf k v).mons = s.mons := rfl
@[simp] theorem setSwapOf_monLasts (s : State) (k : Nat) (v : Swap) : (s.setSwapOf k v).monLasts = s.monLasts := rfl
@[simp] theorem modSwapOf_monLasts (s : State) (k : Nat) (v : Swap → Swap) : (s.modSwapOf k v).monLasts = s.monLasts := rfl
@[simp] theorem setSwapOf_ring (s : State) (k : Nat) (v : Swap) : (s.setSwapOf k v).ring = s.ring := rfl
@[simp] theorem modSwapOf_ring (s : State) (k : Nat) (v : Swap → Swap) : (s.modSwapOf k v).ring = s.ring := rfl
@[simp] theorem setSwapOf_loops (s : State) (k : Nat) (v : Swap) : (s.setSwapOf k v).loops = s.loops := rfl
@[simp] theorem modSwapOf_loops (s : State) (k : Nat) (v : Swap → Swap) : (s.modSwapOf k v).loops = s.loops := rfl
@[simp] theorem setSwapOf_eng (s : State) (k : Nat) (v : Swap) : (s.setSwapOf k v).eng = s.eng := rfl
@[simp] theorem modSwapOf_eng (s : State) (k : Nat) (v : Swap → Swap) : (s.modSwapOf k v).eng = s.eng := rfl
@[simp] theorem setSwapOf_streams (s : State) (k : Nat) (v : Swap) : (s.setSwapOf k v).streams = s.streams := rfl
@[simp] theorem modSwapOf_streams (s : State) (k : Nat) (v : Swap → Swap) : (s.modSwapOf k v).streams = s.streams := rfl
@[simp] theorem setSwapOf_ops (s : State) (k : Nat) (v : Swap) : (s.setSwapOf k v).ops = s.ops := rfl
@[simp] theorem modSwapOf_ops (s : State) (k : Nat) (v : Swap → Swap) : (s.modSwapOf k v).ops = s.ops := rfl
@[simp] theorem setSwapOf_seq (s : State) (k : Nat) (v : Swap) : (s.setSwapOf k v).seq = s.seq := rfl
@[simp] theorem modSwapOf_seq (s : State) (k : Nat) (v : Swap → Swap) : (s.modSwapOf k v).seq = s.seq := rfl
@[simp] theorem setSwapOf_tokens (s : State) (k : Nat) (v : Swap) : (s.setSwapOf k v).tokens = s.tokens := rfl
@[simp] theorem modSwapOf_tokens (s : State) (k : Nat) (v : Swap → Swap) : (s.modSwapOf k v).tokens = s.tokens := rfl
@[simp] theorem setSwapOf_rowMaps (s : State) (k : Nat) (v : Swap) : (s.setSwapOf k v).rowMaps = s.rowMaps := rfl
@[simp] theorem modSwapOf_rowMaps (s : State) (k : Nat) (v : Swap → Swap) : (s.modSwapOf k v).rowMaps = s.rowMaps := rfl
@[simp] theorem setSwapOf_manifest (s : State) (k : Nat) (v : Swap) : (s.setSwapOf k v).manifest = s.manifest := rfl
@[simp] theorem modSwapOf_manifest (s : State) (k : Nat) (v : Swap → Swap) : (s.modSwapOf k v).manifest = s.manifest := rfl
@[simp] theorem setSwapOf_cores (s : State) (k : Nat) (v : Swap) : (s.setSwapOf k v).cores = s.cores := rfl
@[simp] theorem modSwapOf_cores (s : State) (k : Nat) (v : Swap → Swap) : (s.modSwapOf k v).cores = s.cores := rfl
@[simp] theorem setSwapOf_mem (s : State) (k : Nat) (v : Swap) : (s.setSwapOf k v).mem = s.mem := rfl
@[simp] theorem modSwapOf_mem (s : State) (k : Nat) (v : Swap → Swap) : (s.modSwapOf k v).mem = s.mem := rfl
@[simp] theorem setSwapOf_poison (s : State) (k : Nat) (v : Swap) : (s.setSwapOf k v).poison = s.poison := rfl
@[simp] theorem modSwapOf_poison (s : State) (k : Nat) (v : Swap → Swap) : (s.modSwapOf k v).poison = s.poison := rfl
@[simp] theorem setSwapOf_errs (s : State) (k : Nat) (v : Swap) : (s.setSwapOf k v).errs = s.errs := rfl
@[simp] theorem modSwapOf_errs (s : State) (k : Nat) (v : Swap → Swap) : (s.modSwapOf k v).errs = s.errs := rfl
@[simp] theorem setSwapOf_units (s : State) (k : Nat) (v : Swap) : (s.setSwapOf k v).units = s.units := rfl
@[simp] theorem modSwapOf_units (s : State) (k : Nat) (v : Swap → Swap) : (s.modSwapOf k v).units = s.units := rfl
@[simp] theorem setSwapOf_regions (s : State) (k : Nat) (v : Swap) : (s.setSwapOf k v).regions = s.regions := rfl
@[simp] theorem modSwapOf_regions (s : State) (k : Nat) (v : Swap → Swap) : (s.modSwapOf k v).regions = s.regions := rfl
@[simp] theorem setSwapOf_memTop (s : State) (k : Nat) (v : Swap) : (s.setSwapOf k v).memTop = s.memTop := rfl
@[simp] theorem modSwapOf_memTop (s : State) (k : Nat) (v : Swap → Swap) : (s.modSwapOf k v).memTop = s.memTop := rfl
@[simp] theorem setSwapOf_dir (s : State) (k : Nat) (v : Swap) : (s.setSwapOf k v).dir = s.dir := rfl
@[simp] theorem modSwapOf_dir (s : State) (k : Nat) (v : Swap → Swap) : (s.modSwapOf k v).dir = s.dir := rfl
@[simp] theorem setSwapOf_ctxs (s : State) (k : Nat) (v : Swap) : (s.setSwapOf k v).ctxs = s.ctxs := rfl
@[simp] theorem modSwapOf_ctxs (s : State) (k : Nat) (v : Swap → Swap) : (s.modSwapOf k v).ctxs = s.ctxs := rfl
@[simp] theorem setSwapOf_wts (s : State) (k : Nat) (v : Swap) : (s.setSwapOf k v).wts = s.wts := rfl
@[simp] theorem modSwapOf_wts (s : State) (k : Nat) (v : Swap → Swap) : (s.modSwapOf k v).wts = s.wts := rfl
@[simp] theorem setSwapOf_netLinks (s : State) (k : Nat) (v : Swap) : (s.setSwapOf k v).netLinks = s.netLinks := rfl
@[simp] theorem modSwapOf_netLinks (s : State) (k : Nat) (v : Swap → Swap) : (s.modSwapOf k v).netLinks = s.netLinks := rfl
@[simp] theorem setSwapOf_parts (s : State) (k : Nat) (v : Swap) : (s.setSwapOf k v).parts = s.parts := rfl
@[simp] theorem modSwapOf_parts (s : State) (k : Nat) (v : Swap → Swap) : (s.modSwapOf k v).parts = s.parts := rfl
@[simp] theorem setSwapOf_net (s : State) (k : Nat) (v : Swap) : (s.setSwapOf k v).net = s.net := rfl
@[simp] theorem modSwapOf_net (s : State) (k : Nat) (v : Swap → Swap) : (s.modSwapOf k v).net = s.net := rfl
@[simp] theorem setSwapOf_netBufs (s : State) (k : Nat) (v : Swap) : (s.setSwapOf k v).netBufs = s.netBufs := rfl
@[simp] theorem modSwapOf_netBufs (s : State) (k : Nat) (v : Swap → Swap) : (s.modSwapOf k v).netBufs = s.netBufs := rfl
@[simp] theorem setSwapOf_ports (s : State) (k : Nat) (v : Swap) : (s.setSwapOf k v).ports = s.ports := rfl
@[simp] theorem modSwapOf_ports (s : State) (k : Nat) (v : Swap → Swap) : (s.modSwapOf k v).ports = s.ports := rfl
@[simp] theorem setSwapOf_link (s : State) (k : Nat) (v : Swap) : (s.setSwapOf k v).link = s.link := rfl
@[simp] theorem modSwapOf_link (s : State) (k : Nat) (v : Swap → Swap) : (s.modSwapOf k v).link = s.link := rfl
@[simp] theorem setSwapOf_mbs (s : State) (k : Nat) (v : Swap) : (s.setSwapOf k v).mbs = s.mbs := rfl
@[simp] theorem modSwapOf_mbs (s : State) (k : Nat) (v : Swap → Swap) : (s.modSwapOf k v).mbs = s.mbs := rfl
@[simp] theorem setSwapOf_cmds (s : State) (k : Nat) (v : Swap) : (s.setSwapOf k v).cmds = s.cmds := rfl
@[simp] theorem modSwapOf_cmds (s : State) (k : Nat) (v : Swap → Swap) : (s.modSwapOf k v).cmds = s.cmds := rfl
@[simp] theorem setSwapOf_stw (s : State) (k : Nat) (v : Swap) : (s.setSwapOf k v).stw = s.stw := rfl
@[simp] theorem modSwapOf_stw (s : State) (k : Nat) (v : Swap → Swap) : (s.modSwapOf k v).stw = s.stw := rfl
@[simp] theorem setSwapOf_hostMem (s : State) (k : Nat) (v : Swap) : (s.setSwapOf k v).hostMem = s.hostMem := rfl
@[simp] theorem modSwapOf_hostMem (s : State) (k : Nat) (v : Swap → Swap) : (s.modSwapOf k v).hostMem = s.hostMem := rfl
@[simp] theorem setSwapOf_bu (s : State) (k : Nat) (v : Swap) : (s.setSwapOf k v).bu = s.bu := rfl
@[simp] theorem modSwapOf_bu (s : State) (k : Nat) (v : Swap → Swap) : (s.modSwapOf k v).bu = s.bu := rfl
@[simp] theorem setSwapOf_pwr (s : State) (k : Nat) (v : Swap) : (s.setSwapOf k v).pwr = s.pwr := rfl
@[simp] theorem modSwapOf_pwr (s : State) (k : Nat) (v : Swap → Swap) : (s.modSwapOf k v).pwr = s.pwr := rfl
@[simp] theorem setSwapOf_sensors (s : State) (k : Nat) (v : Swap) : (s.setSwapOf k v).sensors = s.sensors := rfl
@[simp] theorem modSwapOf_sensors (s : State) (k : Nat) (v : Swap → Swap) : (s.modSwapOf k v).sensors = s.sensors := rfl
@[simp] theorem setSwapOf_dies (s : State) (k : Nat) (v : Swap) : (s.setSwapOf k v).dies = s.dies := rfl
@[simp] theorem modSwapOf_dies (s : State) (k : Nat) (v : Swap → Swap) : (s.modSwapOf k v).dies = s.dies := rfl
@[simp] theorem setSwapOf_thm (s : State) (k : Nat) (v : Swap) : (s.setSwapOf k v).thm = s.thm := rfl
@[simp] theorem modSwapOf_thm (s : State) (k : Nat) (v : Swap → Swap) : (s.modSwapOf k v).thm = s.thm := rfl
@[simp] theorem setSwapOf_exts (s : State) (k : Nat) (v : Swap) : (s.setSwapOf k v).exts = s.exts := rfl
@[simp] theorem modSwapOf_exts (s : State) (k : Nat) (v : Swap → Swap) : (s.modSwapOf k v).exts = s.exts := rfl
@[simp] theorem setSwapOf_flt (s : State) (k : Nat) (v : Swap) : (s.setSwapOf k v).flt = s.flt := rfl
@[simp] theorem modSwapOf_flt (s : State) (k : Nat) (v : Swap → Swap) : (s.modSwapOf k v).flt = s.flt := rfl
@[simp] theorem setSwapOf_sec (s : State) (k : Nat) (v : Swap) : (s.setSwapOf k v).sec = s.sec := rfl
@[simp] theorem modSwapOf_sec (s : State) (k : Nat) (v : Swap → Swap) : (s.modSwapOf k v).sec = s.sec := rfl
@[simp] theorem setSwapOf_mg (s : State) (k : Nat) (v : Swap) : (s.setSwapOf k v).mg = s.mg := rfl
@[simp] theorem modSwapOf_mg (s : State) (k : Nat) (v : Swap → Swap) : (s.modSwapOf k v).mg = s.mg := rfl
@[simp] theorem setSwapOf_free (s : State) (k : Nat) (v : Swap) : (s.setSwapOf k v).free = s.free := rfl
@[simp] theorem modSwapOf_free (s : State) (k : Nat) (v : Swap → Swap) : (s.modSwapOf k v).free = s.free := rfl
@[simp] theorem setSwapOf_pending (s : State) (k : Nat) (v : Swap) : (s.setSwapOf k v).pending = s.pending := rfl
@[simp] theorem modSwapOf_pending (s : State) (k : Nat) (v : Swap → Swap) : (s.modSwapOf k v).pending = s.pending := rfl

theorem modNetLink_eq (s : State) (k : Nat) (g : NetLink → NetLink) : s.modNetLink k g = s.setNetLink k (g (s.netLink k)) := rfl
@[simp] theorem setNetLink_tim (s : State) (k : Nat) (v : NetLink) : (s.setNetLink k v).tim = s.tim := rfl
@[simp] theorem modNetLink_tim (s : State) (k : Nat) (v : NetLink → NetLink) : (s.modNetLink k v).tim = s.tim := rfl
@[simp] theorem setNetLink_pins (s : State) (k : Nat) (v : NetLink) : (s.setNetLink k v).pins = s.pins := rfl
@[simp] theorem modNetLink_pins (s : State) (k : Nat) (v : NetLink → NetLink) : (s.modNetLink k v).pins = s.pins := rfl
@[simp] theorem setNetLink_fields (s : State) (k : Nat) (v : NetLink) : (s.setNetLink k v).fields = s.fields := rfl
@[simp] theorem modNetLink_fields (s : State) (k : Nat) (v : NetLink → NetLink) : (s.modNetLink k v).fields = s.fields := rfl
@[simp] theorem setNetLink_adcs (s : State) (k : Nat) (v : NetLink) : (s.setNetLink k v).adcs = s.adcs := rfl
@[simp] theorem modNetLink_adcs (s : State) (k : Nat) (v : NetLink → NetLink) : (s.modNetLink k v).adcs = s.adcs := rfl
@[simp] theorem setNetLink_adcTel (s : State) (k : Nat) (v : NetLink) : (s.setNetLink k v).adcTel = s.adcTel := rfl
@[simp] theorem modNetLink_adcTel (s : State) (k : Nat) (v : NetLink → NetLink) : (s.modNetLink k v).adcTel = s.adcTel := rfl
@[simp] theorem setNetLink_taints (s : State) (k : Nat) (v : NetLink) : (s.setNetLink k v).taints = s.taints := rfl
@[simp] theorem modNetLink_taints (s : State) (k : Nat) (v : NetLink → NetLink) : (s.modNetLink k v).taints = s.taints := rfl
@[simp] theorem setNetLink_acc (s : State) (k : Nat) (v : NetLink) : (s.setNetLink k v).acc = s.acc := rfl
@[simp] theorem modNetLink_acc (s : State) (k : Nat) (v : NetLink → NetLink) : (s.modNetLink k v).acc = s.acc := rfl
@[simp] theorem setNetLink_bands (s : State) (k : Nat) (v : NetLink) : (s.setNetLink k v).bands = s.bands := rfl
@[simp] theorem modNetLink_bands (s : State) (k : Nat) (v : NetLink → NetLink) : (s.modNetLink k v).bands = s.bands := rfl
@[simp] theorem setNetLink_cal (s : State) (k : Nat) (v : NetLink) : (s.setNetLink k v).cal = s.cal := rfl
@[simp] theorem modNetLink_cal (s : State) (k : Nat) (v : NetLink → NetLink) : (s.modNetLink k v).cal = s.cal := rfl
@[simp] theorem setNetLink_lcols (s : State) (k : Nat) (v : NetLink) : (s.setNetLink k v).lcols = s.lcols := rfl
@[simp] theorem modNetLink_lcols (s : State) (k : Nat) (v : NetLink → NetLink) : (s.modNetLink k v).lcols = s.lcols := rfl
@[simp] theorem setNetLink_lports (s : State) (k : Nat) (v : NetLink) : (s.setNetLink k v).lports = s.lports := rfl
@[simp] theorem modNetLink_lports (s : State) (k : Nat) (v : NetLink → NetLink) : (s.modNetLink k v).lports = s.lports := rfl
@[simp] theorem setNetLink_relays (s : State) (k : Nat) (v : NetLink) : (s.setNetLink k v).relays = s.relays := rfl
@[simp] theorem modNetLink_relays (s : State) (k : Nat) (v : NetLink → NetLink) : (s.modNetLink k v).relays = s.relays := rfl
@[simp] theorem setNetLink_light (s : State) (k : Nat) (v : NetLink) : (s.setNetLink k v).light = s.light := rfl
@[simp] theorem modNetLink_light (s : State) (k : Nat) (v : NetLink → NetLink) : (s.modNetLink k v).light = s.light := rfl
@[simp] theorem setNetLink_mons (s : State) (k : Nat) (v : NetLink) : (s.setNetLink k v).mons = s.mons := rfl
@[simp] theorem modNetLink_mons (s : State) (k : Nat) (v : NetLink → NetLink) : (s.modNetLink k v).mons = s.mons := rfl
@[simp] theorem setNetLink_monLasts (s : State) (k : Nat) (v : NetLink) : (s.setNetLink k v).monLasts = s.monLasts := rfl
@[simp] theorem modNetLink_monLasts (s : State) (k : Nat) (v : NetLink → NetLink) : (s.modNetLink k v).monLasts = s.monLasts := rfl
@[simp] theorem setNetLink_ring (s : State) (k : Nat) (v : NetLink) : (s.setNetLink k v).ring = s.ring := rfl
@[simp] theorem modNetLink_ring (s : State) (k : Nat) (v : NetLink → NetLink) : (s.modNetLink k v).ring = s.ring := rfl
@[simp] theorem setNetLink_loops (s : State) (k : Nat) (v : NetLink) : (s.setNetLink k v).loops = s.loops := rfl
@[simp] theorem modNetLink_loops (s : State) (k : Nat) (v : NetLink → NetLink) : (s.modNetLink k v).loops = s.loops := rfl
@[simp] theorem setNetLink_eng (s : State) (k : Nat) (v : NetLink) : (s.setNetLink k v).eng = s.eng := rfl
@[simp] theorem modNetLink_eng (s : State) (k : Nat) (v : NetLink → NetLink) : (s.modNetLink k v).eng = s.eng := rfl
@[simp] theorem setNetLink_streams (s : State) (k : Nat) (v : NetLink) : (s.setNetLink k v).streams = s.streams := rfl
@[simp] theorem modNetLink_streams (s : State) (k : Nat) (v : NetLink → NetLink) : (s.modNetLink k v).streams = s.streams := rfl
@[simp] theorem setNetLink_ops (s : State) (k : Nat) (v : NetLink) : (s.setNetLink k v).ops = s.ops := rfl
@[simp] theorem modNetLink_ops (s : State) (k : Nat) (v : NetLink → NetLink) : (s.modNetLink k v).ops = s.ops := rfl
@[simp] theorem setNetLink_seq (s : State) (k : Nat) (v : NetLink) : (s.setNetLink k v).seq = s.seq := rfl
@[simp] theorem modNetLink_seq (s : State) (k : Nat) (v : NetLink → NetLink) : (s.modNetLink k v).seq = s.seq := rfl
@[simp] theorem setNetLink_tokens (s : State) (k : Nat) (v : NetLink) : (s.setNetLink k v).tokens = s.tokens := rfl
@[simp] theorem modNetLink_tokens (s : State) (k : Nat) (v : NetLink → NetLink) : (s.modNetLink k v).tokens = s.tokens := rfl
@[simp] theorem setNetLink_rowMaps (s : State) (k : Nat) (v : NetLink) : (s.setNetLink k v).rowMaps = s.rowMaps := rfl
@[simp] theorem modNetLink_rowMaps (s : State) (k : Nat) (v : NetLink → NetLink) : (s.modNetLink k v).rowMaps = s.rowMaps := rfl
@[simp] theorem setNetLink_manifest (s : State) (k : Nat) (v : NetLink) : (s.setNetLink k v).manifest = s.manifest := rfl
@[simp] theorem modNetLink_manifest (s : State) (k : Nat) (v : NetLink → NetLink) : (s.modNetLink k v).manifest = s.manifest := rfl
@[simp] theorem setNetLink_cores (s : State) (k : Nat) (v : NetLink) : (s.setNetLink k v).cores = s.cores := rfl
@[simp] theorem modNetLink_cores (s : State) (k : Nat) (v : NetLink → NetLink) : (s.modNetLink k v).cores = s.cores := rfl
@[simp] theorem setNetLink_mem (s : State) (k : Nat) (v : NetLink) : (s.setNetLink k v).mem = s.mem := rfl
@[simp] theorem modNetLink_mem (s : State) (k : Nat) (v : NetLink → NetLink) : (s.modNetLink k v).mem = s.mem := rfl
@[simp] theorem setNetLink_poison (s : State) (k : Nat) (v : NetLink) : (s.setNetLink k v).poison = s.poison := rfl
@[simp] theorem modNetLink_poison (s : State) (k : Nat) (v : NetLink → NetLink) : (s.modNetLink k v).poison = s.poison := rfl
@[simp] theorem setNetLink_errs (s : State) (k : Nat) (v : NetLink) : (s.setNetLink k v).errs = s.errs := rfl
@[simp] theorem modNetLink_errs (s : State) (k : Nat) (v : NetLink → NetLink) : (s.modNetLink k v).errs = s.errs := rfl
@[simp] theorem setNetLink_units (s : State) (k : Nat) (v : NetLink) : (s.setNetLink k v).units = s.units := rfl
@[simp] theorem modNetLink_units (s : State) (k : Nat) (v : NetLink → NetLink) : (s.modNetLink k v).units = s.units := rfl
@[simp] theorem setNetLink_regions (s : State) (k : Nat) (v : NetLink) : (s.setNetLink k v).regions = s.regions := rfl
@[simp] theorem modNetLink_regions (s : State) (k : Nat) (v : NetLink → NetLink) : (s.modNetLink k v).regions = s.regions := rfl
@[simp] theorem setNetLink_memTop (s : State) (k : Nat) (v : NetLink) : (s.setNetLink k v).memTop = s.memTop := rfl
@[simp] theorem modNetLink_memTop (s : State) (k : Nat) (v : NetLink → NetLink) : (s.modNetLink k v).memTop = s.memTop := rfl
@[simp] theorem setNetLink_dir (s : State) (k : Nat) (v : NetLink) : (s.setNetLink k v).dir = s.dir := rfl
@[simp] theorem modNetLink_dir (s : State) (k : Nat) (v : NetLink → NetLink) : (s.modNetLink k v).dir = s.dir := rfl
@[simp] theorem setNetLink_ctxs (s : State) (k : Nat) (v : NetLink) : (s.setNetLink k v).ctxs = s.ctxs := rfl
@[simp] theorem modNetLink_ctxs (s : State) (k : Nat) (v : NetLink → NetLink) : (s.modNetLink k v).ctxs = s.ctxs := rfl
@[simp] theorem setNetLink_swaps (s : State) (k : Nat) (v : NetLink) : (s.setNetLink k v).swaps = s.swaps := rfl
@[simp] theorem modNetLink_swaps (s : State) (k : Nat) (v : NetLink → NetLink) : (s.modNetLink k v).swaps = s.swaps := rfl
@[simp] theorem setNetLink_wts (s : State) (k : Nat) (v : NetLink) : (s.setNetLink k v).wts = s.wts := rfl
@[simp] theorem modNetLink_wts (s : State) (k : Nat) (v : NetLink → NetLink) : (s.modNetLink k v).wts = s.wts := rfl
@[simp] theorem setNetLink_parts (s : State) (k : Nat) (v : NetLink) : (s.setNetLink k v).parts = s.parts := rfl
@[simp] theorem modNetLink_parts (s : State) (k : Nat) (v : NetLink → NetLink) : (s.modNetLink k v).parts = s.parts := rfl
@[simp] theorem setNetLink_net (s : State) (k : Nat) (v : NetLink) : (s.setNetLink k v).net = s.net := rfl
@[simp] theorem modNetLink_net (s : State) (k : Nat) (v : NetLink → NetLink) : (s.modNetLink k v).net = s.net := rfl
@[simp] theorem setNetLink_netBufs (s : State) (k : Nat) (v : NetLink) : (s.setNetLink k v).netBufs = s.netBufs := rfl
@[simp] theorem modNetLink_netBufs (s : State) (k : Nat) (v : NetLink → NetLink) : (s.modNetLink k v).netBufs = s.netBufs := rfl
@[simp] theorem setNetLink_ports (s : State) (k : Nat) (v : NetLink) : (s.setNetLink k v).ports = s.ports := rfl
@[simp] theorem modNetLink_ports (s : State) (k : Nat) (v : NetLink → NetLink) : (s.modNetLink k v).ports = s.ports := rfl
@[simp] theorem setNetLink_link (s : State) (k : Nat) (v : NetLink) : (s.setNetLink k v).link = s.link := rfl
@[simp] theorem modNetLink_link (s : State) (k : Nat) (v : NetLink → NetLink) : (s.modNetLink k v).link = s.link := rfl
@[simp] theorem setNetLink_mbs (s : State) (k : Nat) (v : NetLink) : (s.setNetLink k v).mbs = s.mbs := rfl
@[simp] theorem modNetLink_mbs (s : State) (k : Nat) (v : NetLink → NetLink) : (s.modNetLink k v).mbs = s.mbs := rfl
@[simp] theorem setNetLink_cmds (s : State) (k : Nat) (v : NetLink) : (s.setNetLink k v).cmds = s.cmds := rfl
@[simp] theorem modNetLink_cmds (s : State) (k : Nat) (v : NetLink → NetLink) : (s.modNetLink k v).cmds = s.cmds := rfl
@[simp] theorem setNetLink_stw (s : State) (k : Nat) (v : NetLink) : (s.setNetLink k v).stw = s.stw := rfl
@[simp] theorem modNetLink_stw (s : State) (k : Nat) (v : NetLink → NetLink) : (s.modNetLink k v).stw = s.stw := rfl
@[simp] theorem setNetLink_hostMem (s : State) (k : Nat) (v : NetLink) : (s.setNetLink k v).hostMem = s.hostMem := rfl
@[simp] theorem modNetLink_hostMem (s : State) (k : Nat) (v : NetLink → NetLink) : (s.modNetLink k v).hostMem = s.hostMem := rfl
@[simp] theorem setNetLink_bu (s : State) (k : Nat) (v : NetLink) : (s.setNetLink k v).bu = s.bu := rfl
@[simp] theorem modNetLink_bu (s : State) (k : Nat) (v : NetLink → NetLink) : (s.modNetLink k v).bu = s.bu := rfl
@[simp] theorem setNetLink_pwr (s : State) (k : Nat) (v : NetLink) : (s.setNetLink k v).pwr = s.pwr := rfl
@[simp] theorem modNetLink_pwr (s : State) (k : Nat) (v : NetLink → NetLink) : (s.modNetLink k v).pwr = s.pwr := rfl
@[simp] theorem setNetLink_sensors (s : State) (k : Nat) (v : NetLink) : (s.setNetLink k v).sensors = s.sensors := rfl
@[simp] theorem modNetLink_sensors (s : State) (k : Nat) (v : NetLink → NetLink) : (s.modNetLink k v).sensors = s.sensors := rfl
@[simp] theorem setNetLink_dies (s : State) (k : Nat) (v : NetLink) : (s.setNetLink k v).dies = s.dies := rfl
@[simp] theorem modNetLink_dies (s : State) (k : Nat) (v : NetLink → NetLink) : (s.modNetLink k v).dies = s.dies := rfl
@[simp] theorem setNetLink_thm (s : State) (k : Nat) (v : NetLink) : (s.setNetLink k v).thm = s.thm := rfl
@[simp] theorem modNetLink_thm (s : State) (k : Nat) (v : NetLink → NetLink) : (s.modNetLink k v).thm = s.thm := rfl
@[simp] theorem setNetLink_exts (s : State) (k : Nat) (v : NetLink) : (s.setNetLink k v).exts = s.exts := rfl
@[simp] theorem modNetLink_exts (s : State) (k : Nat) (v : NetLink → NetLink) : (s.modNetLink k v).exts = s.exts := rfl
@[simp] theorem setNetLink_flt (s : State) (k : Nat) (v : NetLink) : (s.setNetLink k v).flt = s.flt := rfl
@[simp] theorem modNetLink_flt (s : State) (k : Nat) (v : NetLink → NetLink) : (s.modNetLink k v).flt = s.flt := rfl
@[simp] theorem setNetLink_sec (s : State) (k : Nat) (v : NetLink) : (s.setNetLink k v).sec = s.sec := rfl
@[simp] theorem modNetLink_sec (s : State) (k : Nat) (v : NetLink → NetLink) : (s.modNetLink k v).sec = s.sec := rfl
@[simp] theorem setNetLink_mg (s : State) (k : Nat) (v : NetLink) : (s.setNetLink k v).mg = s.mg := rfl
@[simp] theorem modNetLink_mg (s : State) (k : Nat) (v : NetLink → NetLink) : (s.modNetLink k v).mg = s.mg := rfl
@[simp] theorem setNetLink_free (s : State) (k : Nat) (v : NetLink) : (s.setNetLink k v).free = s.free := rfl
@[simp] theorem modNetLink_free (s : State) (k : Nat) (v : NetLink → NetLink) : (s.modNetLink k v).free = s.free := rfl
@[simp] theorem setNetLink_pending (s : State) (k : Nat) (v : NetLink) : (s.setNetLink k v).pending = s.pending := rfl
@[simp] theorem modNetLink_pending (s : State) (k : Nat) (v : NetLink → NetLink) : (s.modNetLink k v).pending = s.pending := rfl

theorem modPartOf_eq (s : State) (k : Nat) (g : Part → Part) : s.modPartOf k g = s.setPartOf k (g (s.partOf k)) := rfl
@[simp] theorem setPartOf_tim (s : State) (k : Nat) (v : Part) : (s.setPartOf k v).tim = s.tim := rfl
@[simp] theorem modPartOf_tim (s : State) (k : Nat) (v : Part → Part) : (s.modPartOf k v).tim = s.tim := rfl
@[simp] theorem setPartOf_pins (s : State) (k : Nat) (v : Part) : (s.setPartOf k v).pins = s.pins := rfl
@[simp] theorem modPartOf_pins (s : State) (k : Nat) (v : Part → Part) : (s.modPartOf k v).pins = s.pins := rfl
@[simp] theorem setPartOf_fields (s : State) (k : Nat) (v : Part) : (s.setPartOf k v).fields = s.fields := rfl
@[simp] theorem modPartOf_fields (s : State) (k : Nat) (v : Part → Part) : (s.modPartOf k v).fields = s.fields := rfl
@[simp] theorem setPartOf_adcs (s : State) (k : Nat) (v : Part) : (s.setPartOf k v).adcs = s.adcs := rfl
@[simp] theorem modPartOf_adcs (s : State) (k : Nat) (v : Part → Part) : (s.modPartOf k v).adcs = s.adcs := rfl
@[simp] theorem setPartOf_adcTel (s : State) (k : Nat) (v : Part) : (s.setPartOf k v).adcTel = s.adcTel := rfl
@[simp] theorem modPartOf_adcTel (s : State) (k : Nat) (v : Part → Part) : (s.modPartOf k v).adcTel = s.adcTel := rfl
@[simp] theorem setPartOf_taints (s : State) (k : Nat) (v : Part) : (s.setPartOf k v).taints = s.taints := rfl
@[simp] theorem modPartOf_taints (s : State) (k : Nat) (v : Part → Part) : (s.modPartOf k v).taints = s.taints := rfl
@[simp] theorem setPartOf_acc (s : State) (k : Nat) (v : Part) : (s.setPartOf k v).acc = s.acc := rfl
@[simp] theorem modPartOf_acc (s : State) (k : Nat) (v : Part → Part) : (s.modPartOf k v).acc = s.acc := rfl
@[simp] theorem setPartOf_bands (s : State) (k : Nat) (v : Part) : (s.setPartOf k v).bands = s.bands := rfl
@[simp] theorem modPartOf_bands (s : State) (k : Nat) (v : Part → Part) : (s.modPartOf k v).bands = s.bands := rfl
@[simp] theorem setPartOf_cal (s : State) (k : Nat) (v : Part) : (s.setPartOf k v).cal = s.cal := rfl
@[simp] theorem modPartOf_cal (s : State) (k : Nat) (v : Part → Part) : (s.modPartOf k v).cal = s.cal := rfl
@[simp] theorem setPartOf_lcols (s : State) (k : Nat) (v : Part) : (s.setPartOf k v).lcols = s.lcols := rfl
@[simp] theorem modPartOf_lcols (s : State) (k : Nat) (v : Part → Part) : (s.modPartOf k v).lcols = s.lcols := rfl
@[simp] theorem setPartOf_lports (s : State) (k : Nat) (v : Part) : (s.setPartOf k v).lports = s.lports := rfl
@[simp] theorem modPartOf_lports (s : State) (k : Nat) (v : Part → Part) : (s.modPartOf k v).lports = s.lports := rfl
@[simp] theorem setPartOf_relays (s : State) (k : Nat) (v : Part) : (s.setPartOf k v).relays = s.relays := rfl
@[simp] theorem modPartOf_relays (s : State) (k : Nat) (v : Part → Part) : (s.modPartOf k v).relays = s.relays := rfl
@[simp] theorem setPartOf_light (s : State) (k : Nat) (v : Part) : (s.setPartOf k v).light = s.light := rfl
@[simp] theorem modPartOf_light (s : State) (k : Nat) (v : Part → Part) : (s.modPartOf k v).light = s.light := rfl
@[simp] theorem setPartOf_mons (s : State) (k : Nat) (v : Part) : (s.setPartOf k v).mons = s.mons := rfl
@[simp] theorem modPartOf_mons (s : State) (k : Nat) (v : Part → Part) : (s.modPartOf k v).mons = s.mons := rfl
@[simp] theorem setPartOf_monLasts (s : State) (k : Nat) (v : Part) : (s.setPartOf k v).monLasts = s.monLasts := rfl
@[simp] theorem modPartOf_monLasts (s : State) (k : Nat) (v : Part → Part) : (s.modPartOf k v).monLasts = s.monLasts := rfl
@[simp] theorem setPartOf_ring (s : State) (k : Nat) (v : Part) : (s.setPartOf k v).ring = s.ring := rfl
@[simp] theorem modPartOf_ring (s : State) (k : Nat) (v : Part → Part) : (s.modPartOf k v).ring = s.ring := rfl
@[simp] theorem setPartOf_loops (s : State) (k : Nat) (v : Part) : (s.setPartOf k v).loops = s.loops := rfl
@[simp] theorem modPartOf_loops (s : State) (k : Nat) (v : Part → Part) : (s.modPartOf k v).loops = s.loops := rfl
@[simp] theorem setPartOf_eng (s : State) (k : Nat) (v : Part) : (s.setPartOf k v).eng = s.eng := rfl
@[simp] theorem modPartOf_eng (s : State) (k : Nat) (v : Part → Part) : (s.modPartOf k v).eng = s.eng := rfl
@[simp] theorem setPartOf_streams (s : State) (k : Nat) (v : Part) : (s.setPartOf k v).streams = s.streams := rfl
@[simp] theorem modPartOf_streams (s : State) (k : Nat) (v : Part → Part) : (s.modPartOf k v).streams = s.streams := rfl
@[simp] theorem setPartOf_ops (s : State) (k : Nat) (v : Part) : (s.setPartOf k v).ops = s.ops := rfl
@[simp] theorem modPartOf_ops (s : State) (k : Nat) (v : Part → Part) : (s.modPartOf k v).ops = s.ops := rfl
@[simp] theorem setPartOf_seq (s : State) (k : Nat) (v : Part) : (s.setPartOf k v).seq = s.seq := rfl
@[simp] theorem modPartOf_seq (s : State) (k : Nat) (v : Part → Part) : (s.modPartOf k v).seq = s.seq := rfl
@[simp] theorem setPartOf_tokens (s : State) (k : Nat) (v : Part) : (s.setPartOf k v).tokens = s.tokens := rfl
@[simp] theorem modPartOf_tokens (s : State) (k : Nat) (v : Part → Part) : (s.modPartOf k v).tokens = s.tokens := rfl
@[simp] theorem setPartOf_rowMaps (s : State) (k : Nat) (v : Part) : (s.setPartOf k v).rowMaps = s.rowMaps := rfl
@[simp] theorem modPartOf_rowMaps (s : State) (k : Nat) (v : Part → Part) : (s.modPartOf k v).rowMaps = s.rowMaps := rfl
@[simp] theorem setPartOf_manifest (s : State) (k : Nat) (v : Part) : (s.setPartOf k v).manifest = s.manifest := rfl
@[simp] theorem modPartOf_manifest (s : State) (k : Nat) (v : Part → Part) : (s.modPartOf k v).manifest = s.manifest := rfl
@[simp] theorem setPartOf_cores (s : State) (k : Nat) (v : Part) : (s.setPartOf k v).cores = s.cores := rfl
@[simp] theorem modPartOf_cores (s : State) (k : Nat) (v : Part → Part) : (s.modPartOf k v).cores = s.cores := rfl
@[simp] theorem setPartOf_mem (s : State) (k : Nat) (v : Part) : (s.setPartOf k v).mem = s.mem := rfl
@[simp] theorem modPartOf_mem (s : State) (k : Nat) (v : Part → Part) : (s.modPartOf k v).mem = s.mem := rfl
@[simp] theorem setPartOf_poison (s : State) (k : Nat) (v : Part) : (s.setPartOf k v).poison = s.poison := rfl
@[simp] theorem modPartOf_poison (s : State) (k : Nat) (v : Part → Part) : (s.modPartOf k v).poison = s.poison := rfl
@[simp] theorem setPartOf_errs (s : State) (k : Nat) (v : Part) : (s.setPartOf k v).errs = s.errs := rfl
@[simp] theorem modPartOf_errs (s : State) (k : Nat) (v : Part → Part) : (s.modPartOf k v).errs = s.errs := rfl
@[simp] theorem setPartOf_units (s : State) (k : Nat) (v : Part) : (s.setPartOf k v).units = s.units := rfl
@[simp] theorem modPartOf_units (s : State) (k : Nat) (v : Part → Part) : (s.modPartOf k v).units = s.units := rfl
@[simp] theorem setPartOf_regions (s : State) (k : Nat) (v : Part) : (s.setPartOf k v).regions = s.regions := rfl
@[simp] theorem modPartOf_regions (s : State) (k : Nat) (v : Part → Part) : (s.modPartOf k v).regions = s.regions := rfl
@[simp] theorem setPartOf_memTop (s : State) (k : Nat) (v : Part) : (s.setPartOf k v).memTop = s.memTop := rfl
@[simp] theorem modPartOf_memTop (s : State) (k : Nat) (v : Part → Part) : (s.modPartOf k v).memTop = s.memTop := rfl
@[simp] theorem setPartOf_dir (s : State) (k : Nat) (v : Part) : (s.setPartOf k v).dir = s.dir := rfl
@[simp] theorem modPartOf_dir (s : State) (k : Nat) (v : Part → Part) : (s.modPartOf k v).dir = s.dir := rfl
@[simp] theorem setPartOf_ctxs (s : State) (k : Nat) (v : Part) : (s.setPartOf k v).ctxs = s.ctxs := rfl
@[simp] theorem modPartOf_ctxs (s : State) (k : Nat) (v : Part → Part) : (s.modPartOf k v).ctxs = s.ctxs := rfl
@[simp] theorem setPartOf_swaps (s : State) (k : Nat) (v : Part) : (s.setPartOf k v).swaps = s.swaps := rfl
@[simp] theorem modPartOf_swaps (s : State) (k : Nat) (v : Part → Part) : (s.modPartOf k v).swaps = s.swaps := rfl
@[simp] theorem setPartOf_wts (s : State) (k : Nat) (v : Part) : (s.setPartOf k v).wts = s.wts := rfl
@[simp] theorem modPartOf_wts (s : State) (k : Nat) (v : Part → Part) : (s.modPartOf k v).wts = s.wts := rfl
@[simp] theorem setPartOf_netLinks (s : State) (k : Nat) (v : Part) : (s.setPartOf k v).netLinks = s.netLinks := rfl
@[simp] theorem modPartOf_netLinks (s : State) (k : Nat) (v : Part → Part) : (s.modPartOf k v).netLinks = s.netLinks := rfl
@[simp] theorem setPartOf_net (s : State) (k : Nat) (v : Part) : (s.setPartOf k v).net = s.net := rfl
@[simp] theorem modPartOf_net (s : State) (k : Nat) (v : Part → Part) : (s.modPartOf k v).net = s.net := rfl
@[simp] theorem setPartOf_netBufs (s : State) (k : Nat) (v : Part) : (s.setPartOf k v).netBufs = s.netBufs := rfl
@[simp] theorem modPartOf_netBufs (s : State) (k : Nat) (v : Part → Part) : (s.modPartOf k v).netBufs = s.netBufs := rfl
@[simp] theorem setPartOf_ports (s : State) (k : Nat) (v : Part) : (s.setPartOf k v).ports = s.ports := rfl
@[simp] theorem modPartOf_ports (s : State) (k : Nat) (v : Part → Part) : (s.modPartOf k v).ports = s.ports := rfl
@[simp] theorem setPartOf_link (s : State) (k : Nat) (v : Part) : (s.setPartOf k v).link = s.link := rfl
@[simp] theorem modPartOf_link (s : State) (k : Nat) (v : Part → Part) : (s.modPartOf k v).link = s.link := rfl
@[simp] theorem setPartOf_mbs (s : State) (k : Nat) (v : Part) : (s.setPartOf k v).mbs = s.mbs := rfl
@[simp] theorem modPartOf_mbs (s : State) (k : Nat) (v : Part → Part) : (s.modPartOf k v).mbs = s.mbs := rfl
@[simp] theorem setPartOf_cmds (s : State) (k : Nat) (v : Part) : (s.setPartOf k v).cmds = s.cmds := rfl
@[simp] theorem modPartOf_cmds (s : State) (k : Nat) (v : Part → Part) : (s.modPartOf k v).cmds = s.cmds := rfl
@[simp] theorem setPartOf_stw (s : State) (k : Nat) (v : Part) : (s.setPartOf k v).stw = s.stw := rfl
@[simp] theorem modPartOf_stw (s : State) (k : Nat) (v : Part → Part) : (s.modPartOf k v).stw = s.stw := rfl
@[simp] theorem setPartOf_hostMem (s : State) (k : Nat) (v : Part) : (s.setPartOf k v).hostMem = s.hostMem := rfl
@[simp] theorem modPartOf_hostMem (s : State) (k : Nat) (v : Part → Part) : (s.modPartOf k v).hostMem = s.hostMem := rfl
@[simp] theorem setPartOf_bu (s : State) (k : Nat) (v : Part) : (s.setPartOf k v).bu = s.bu := rfl
@[simp] theorem modPartOf_bu (s : State) (k : Nat) (v : Part → Part) : (s.modPartOf k v).bu = s.bu := rfl
@[simp] theorem setPartOf_pwr (s : State) (k : Nat) (v : Part) : (s.setPartOf k v).pwr = s.pwr := rfl
@[simp] theorem modPartOf_pwr (s : State) (k : Nat) (v : Part → Part) : (s.modPartOf k v).pwr = s.pwr := rfl
@[simp] theorem setPartOf_sensors (s : State) (k : Nat) (v : Part) : (s.setPartOf k v).sensors = s.sensors := rfl
@[simp] theorem modPartOf_sensors (s : State) (k : Nat) (v : Part → Part) : (s.modPartOf k v).sensors = s.sensors := rfl
@[simp] theorem setPartOf_dies (s : State) (k : Nat) (v : Part) : (s.setPartOf k v).dies = s.dies := rfl
@[simp] theorem modPartOf_dies (s : State) (k : Nat) (v : Part → Part) : (s.modPartOf k v).dies = s.dies := rfl
@[simp] theorem setPartOf_thm (s : State) (k : Nat) (v : Part) : (s.setPartOf k v).thm = s.thm := rfl
@[simp] theorem modPartOf_thm (s : State) (k : Nat) (v : Part → Part) : (s.modPartOf k v).thm = s.thm := rfl
@[simp] theorem setPartOf_exts (s : State) (k : Nat) (v : Part) : (s.setPartOf k v).exts = s.exts := rfl
@[simp] theorem modPartOf_exts (s : State) (k : Nat) (v : Part → Part) : (s.modPartOf k v).exts = s.exts := rfl
@[simp] theorem setPartOf_flt (s : State) (k : Nat) (v : Part) : (s.setPartOf k v).flt = s.flt := rfl
@[simp] theorem modPartOf_flt (s : State) (k : Nat) (v : Part → Part) : (s.modPartOf k v).flt = s.flt := rfl
@[simp] theorem setPartOf_sec (s : State) (k : Nat) (v : Part) : (s.setPartOf k v).sec = s.sec := rfl
@[simp] theorem modPartOf_sec (s : State) (k : Nat) (v : Part → Part) : (s.modPartOf k v).sec = s.sec := rfl
@[simp] theorem setPartOf_mg (s : State) (k : Nat) (v : Part) : (s.setPartOf k v).mg = s.mg := rfl
@[simp] theorem modPartOf_mg (s : State) (k : Nat) (v : Part → Part) : (s.modPartOf k v).mg = s.mg := rfl
@[simp] theorem setPartOf_free (s : State) (k : Nat) (v : Part) : (s.setPartOf k v).free = s.free := rfl
@[simp] theorem modPartOf_free (s : State) (k : Nat) (v : Part → Part) : (s.modPartOf k v).free = s.free := rfl
@[simp] theorem setPartOf_pending (s : State) (k : Nat) (v : Part) : (s.setPartOf k v).pending = s.pending := rfl
@[simp] theorem modPartOf_pending (s : State) (k : Nat) (v : Part → Part) : (s.modPartOf k v).pending = s.pending := rfl

theorem modNetBuf_eq (s : State) (k : Nat) (g : List NetPkt → List NetPkt) : s.modNetBuf k g = s.setNetBuf k (g (s.netBuf k)) := rfl
@[simp] theorem setNetBuf_tim (s : State) (k : Nat) (v : List NetPkt) : (s.setNetBuf k v).tim = s.tim := rfl
@[simp] theorem modNetBuf_tim (s : State) (k : Nat) (v : List NetPkt → List NetPkt) : (s.modNetBuf k v).tim = s.tim := rfl
@[simp] theorem setNetBuf_pins (s : State) (k : Nat) (v : List NetPkt) : (s.setNetBuf k v).pins = s.pins := rfl
@[simp] theorem modNetBuf_pins (s : State) (k : Nat) (v : List NetPkt → List NetPkt) : (s.modNetBuf k v).pins = s.pins := rfl
@[simp] theorem setNetBuf_fields (s : State) (k : Nat) (v : List NetPkt) : (s.setNetBuf k v).fields = s.fields := rfl
@[simp] theorem modNetBuf_fields (s : State) (k : Nat) (v : List NetPkt → List NetPkt) : (s.modNetBuf k v).fields = s.fields := rfl
@[simp] theorem setNetBuf_adcs (s : State) (k : Nat) (v : List NetPkt) : (s.setNetBuf k v).adcs = s.adcs := rfl
@[simp] theorem modNetBuf_adcs (s : State) (k : Nat) (v : List NetPkt → List NetPkt) : (s.modNetBuf k v).adcs = s.adcs := rfl
@[simp] theorem setNetBuf_adcTel (s : State) (k : Nat) (v : List NetPkt) : (s.setNetBuf k v).adcTel = s.adcTel := rfl
@[simp] theorem modNetBuf_adcTel (s : State) (k : Nat) (v : List NetPkt → List NetPkt) : (s.modNetBuf k v).adcTel = s.adcTel := rfl
@[simp] theorem setNetBuf_taints (s : State) (k : Nat) (v : List NetPkt) : (s.setNetBuf k v).taints = s.taints := rfl
@[simp] theorem modNetBuf_taints (s : State) (k : Nat) (v : List NetPkt → List NetPkt) : (s.modNetBuf k v).taints = s.taints := rfl
@[simp] theorem setNetBuf_acc (s : State) (k : Nat) (v : List NetPkt) : (s.setNetBuf k v).acc = s.acc := rfl
@[simp] theorem modNetBuf_acc (s : State) (k : Nat) (v : List NetPkt → List NetPkt) : (s.modNetBuf k v).acc = s.acc := rfl
@[simp] theorem setNetBuf_bands (s : State) (k : Nat) (v : List NetPkt) : (s.setNetBuf k v).bands = s.bands := rfl
@[simp] theorem modNetBuf_bands (s : State) (k : Nat) (v : List NetPkt → List NetPkt) : (s.modNetBuf k v).bands = s.bands := rfl
@[simp] theorem setNetBuf_cal (s : State) (k : Nat) (v : List NetPkt) : (s.setNetBuf k v).cal = s.cal := rfl
@[simp] theorem modNetBuf_cal (s : State) (k : Nat) (v : List NetPkt → List NetPkt) : (s.modNetBuf k v).cal = s.cal := rfl
@[simp] theorem setNetBuf_lcols (s : State) (k : Nat) (v : List NetPkt) : (s.setNetBuf k v).lcols = s.lcols := rfl
@[simp] theorem modNetBuf_lcols (s : State) (k : Nat) (v : List NetPkt → List NetPkt) : (s.modNetBuf k v).lcols = s.lcols := rfl
@[simp] theorem setNetBuf_lports (s : State) (k : Nat) (v : List NetPkt) : (s.setNetBuf k v).lports = s.lports := rfl
@[simp] theorem modNetBuf_lports (s : State) (k : Nat) (v : List NetPkt → List NetPkt) : (s.modNetBuf k v).lports = s.lports := rfl
@[simp] theorem setNetBuf_relays (s : State) (k : Nat) (v : List NetPkt) : (s.setNetBuf k v).relays = s.relays := rfl
@[simp] theorem modNetBuf_relays (s : State) (k : Nat) (v : List NetPkt → List NetPkt) : (s.modNetBuf k v).relays = s.relays := rfl
@[simp] theorem setNetBuf_light (s : State) (k : Nat) (v : List NetPkt) : (s.setNetBuf k v).light = s.light := rfl
@[simp] theorem modNetBuf_light (s : State) (k : Nat) (v : List NetPkt → List NetPkt) : (s.modNetBuf k v).light = s.light := rfl
@[simp] theorem setNetBuf_mons (s : State) (k : Nat) (v : List NetPkt) : (s.setNetBuf k v).mons = s.mons := rfl
@[simp] theorem modNetBuf_mons (s : State) (k : Nat) (v : List NetPkt → List NetPkt) : (s.modNetBuf k v).mons = s.mons := rfl
@[simp] theorem setNetBuf_monLasts (s : State) (k : Nat) (v : List NetPkt) : (s.setNetBuf k v).monLasts = s.monLasts := rfl
@[simp] theorem modNetBuf_monLasts (s : State) (k : Nat) (v : List NetPkt → List NetPkt) : (s.modNetBuf k v).monLasts = s.monLasts := rfl
@[simp] theorem setNetBuf_ring (s : State) (k : Nat) (v : List NetPkt) : (s.setNetBuf k v).ring = s.ring := rfl
@[simp] theorem modNetBuf_ring (s : State) (k : Nat) (v : List NetPkt → List NetPkt) : (s.modNetBuf k v).ring = s.ring := rfl
@[simp] theorem setNetBuf_loops (s : State) (k : Nat) (v : List NetPkt) : (s.setNetBuf k v).loops = s.loops := rfl
@[simp] theorem modNetBuf_loops (s : State) (k : Nat) (v : List NetPkt → List NetPkt) : (s.modNetBuf k v).loops = s.loops := rfl
@[simp] theorem setNetBuf_eng (s : State) (k : Nat) (v : List NetPkt) : (s.setNetBuf k v).eng = s.eng := rfl
@[simp] theorem modNetBuf_eng (s : State) (k : Nat) (v : List NetPkt → List NetPkt) : (s.modNetBuf k v).eng = s.eng := rfl
@[simp] theorem setNetBuf_streams (s : State) (k : Nat) (v : List NetPkt) : (s.setNetBuf k v).streams = s.streams := rfl
@[simp] theorem modNetBuf_streams (s : State) (k : Nat) (v : List NetPkt → List NetPkt) : (s.modNetBuf k v).streams = s.streams := rfl
@[simp] theorem setNetBuf_ops (s : State) (k : Nat) (v : List NetPkt) : (s.setNetBuf k v).ops = s.ops := rfl
@[simp] theorem modNetBuf_ops (s : State) (k : Nat) (v : List NetPkt → List NetPkt) : (s.modNetBuf k v).ops = s.ops := rfl
@[simp] theorem setNetBuf_seq (s : State) (k : Nat) (v : List NetPkt) : (s.setNetBuf k v).seq = s.seq := rfl
@[simp] theorem modNetBuf_seq (s : State) (k : Nat) (v : List NetPkt → List NetPkt) : (s.modNetBuf k v).seq = s.seq := rfl
@[simp] theorem setNetBuf_tokens (s : State) (k : Nat) (v : List NetPkt) : (s.setNetBuf k v).tokens = s.tokens := rfl
@[simp] theorem modNetBuf_tokens (s : State) (k : Nat) (v : List NetPkt → List NetPkt) : (s.modNetBuf k v).tokens = s.tokens := rfl
@[simp] theorem setNetBuf_rowMaps (s : State) (k : Nat) (v : List NetPkt) : (s.setNetBuf k v).rowMaps = s.rowMaps := rfl
@[simp] theorem modNetBuf_rowMaps (s : State) (k : Nat) (v : List NetPkt → List NetPkt) : (s.modNetBuf k v).rowMaps = s.rowMaps := rfl
@[simp] theorem setNetBuf_manifest (s : State) (k : Nat) (v : List NetPkt) : (s.setNetBuf k v).manifest = s.manifest := rfl
@[simp] theorem modNetBuf_manifest (s : State) (k : Nat) (v : List NetPkt → List NetPkt) : (s.modNetBuf k v).manifest = s.manifest := rfl
@[simp] theorem setNetBuf_cores (s : State) (k : Nat) (v : List NetPkt) : (s.setNetBuf k v).cores = s.cores := rfl
@[simp] theorem modNetBuf_cores (s : State) (k : Nat) (v : List NetPkt → List NetPkt) : (s.modNetBuf k v).cores = s.cores := rfl
@[simp] theorem setNetBuf_mem (s : State) (k : Nat) (v : List NetPkt) : (s.setNetBuf k v).mem = s.mem := rfl
@[simp] theorem modNetBuf_mem (s : State) (k : Nat) (v : List NetPkt → List NetPkt) : (s.modNetBuf k v).mem = s.mem := rfl
@[simp] theorem setNetBuf_poison (s : State) (k : Nat) (v : List NetPkt) : (s.setNetBuf k v).poison = s.poison := rfl
@[simp] theorem modNetBuf_poison (s : State) (k : Nat) (v : List NetPkt → List NetPkt) : (s.modNetBuf k v).poison = s.poison := rfl
@[simp] theorem setNetBuf_errs (s : State) (k : Nat) (v : List NetPkt) : (s.setNetBuf k v).errs = s.errs := rfl
@[simp] theorem modNetBuf_errs (s : State) (k : Nat) (v : List NetPkt → List NetPkt) : (s.modNetBuf k v).errs = s.errs := rfl
@[simp] theorem setNetBuf_units (s : State) (k : Nat) (v : List NetPkt) : (s.setNetBuf k v).units = s.units := rfl
@[simp] theorem modNetBuf_units (s : State) (k : Nat) (v : List NetPkt → List NetPkt) : (s.modNetBuf k v).units = s.units := rfl
@[simp] theorem setNetBuf_regions (s : State) (k : Nat) (v : List NetPkt) : (s.setNetBuf k v).regions = s.regions := rfl
@[simp] theorem modNetBuf_regions (s : State) (k : Nat) (v : List NetPkt → List NetPkt) : (s.modNetBuf k v).regions = s.regions := rfl
@[simp] theorem setNetBuf_memTop (s : State) (k : Nat) (v : List NetPkt) : (s.setNetBuf k v).memTop = s.memTop := rfl
@[simp] theorem modNetBuf_memTop (s : State) (k : Nat) (v : List NetPkt → List NetPkt) : (s.modNetBuf k v).memTop = s.memTop := rfl
@[simp] theorem setNetBuf_dir (s : State) (k : Nat) (v : List NetPkt) : (s.setNetBuf k v).dir = s.dir := rfl
@[simp] theorem modNetBuf_dir (s : State) (k : Nat) (v : List NetPkt → List NetPkt) : (s.modNetBuf k v).dir = s.dir := rfl
@[simp] theorem setNetBuf_ctxs (s : State) (k : Nat) (v : List NetPkt) : (s.setNetBuf k v).ctxs = s.ctxs := rfl
@[simp] theorem modNetBuf_ctxs (s : State) (k : Nat) (v : List NetPkt → List NetPkt) : (s.modNetBuf k v).ctxs = s.ctxs := rfl
@[simp] theorem setNetBuf_swaps (s : State) (k : Nat) (v : List NetPkt) : (s.setNetBuf k v).swaps = s.swaps := rfl
@[simp] theorem modNetBuf_swaps (s : State) (k : Nat) (v : List NetPkt → List NetPkt) : (s.modNetBuf k v).swaps = s.swaps := rfl
@[simp] theorem setNetBuf_wts (s : State) (k : Nat) (v : List NetPkt) : (s.setNetBuf k v).wts = s.wts := rfl
@[simp] theorem modNetBuf_wts (s : State) (k : Nat) (v : List NetPkt → List NetPkt) : (s.modNetBuf k v).wts = s.wts := rfl
@[simp] theorem setNetBuf_netLinks (s : State) (k : Nat) (v : List NetPkt) : (s.setNetBuf k v).netLinks = s.netLinks := rfl
@[simp] theorem modNetBuf_netLinks (s : State) (k : Nat) (v : List NetPkt → List NetPkt) : (s.modNetBuf k v).netLinks = s.netLinks := rfl
@[simp] theorem setNetBuf_parts (s : State) (k : Nat) (v : List NetPkt) : (s.setNetBuf k v).parts = s.parts := rfl
@[simp] theorem modNetBuf_parts (s : State) (k : Nat) (v : List NetPkt → List NetPkt) : (s.modNetBuf k v).parts = s.parts := rfl
@[simp] theorem setNetBuf_net (s : State) (k : Nat) (v : List NetPkt) : (s.setNetBuf k v).net = s.net := rfl
@[simp] theorem modNetBuf_net (s : State) (k : Nat) (v : List NetPkt → List NetPkt) : (s.modNetBuf k v).net = s.net := rfl
@[simp] theorem setNetBuf_ports (s : State) (k : Nat) (v : List NetPkt) : (s.setNetBuf k v).ports = s.ports := rfl
@[simp] theorem modNetBuf_ports (s : State) (k : Nat) (v : List NetPkt → List NetPkt) : (s.modNetBuf k v).ports = s.ports := rfl
@[simp] theorem setNetBuf_link (s : State) (k : Nat) (v : List NetPkt) : (s.setNetBuf k v).link = s.link := rfl
@[simp] theorem modNetBuf_link (s : State) (k : Nat) (v : List NetPkt → List NetPkt) : (s.modNetBuf k v).link = s.link := rfl
@[simp] theorem setNetBuf_mbs (s : State) (k : Nat) (v : List NetPkt) : (s.setNetBuf k v).mbs = s.mbs := rfl
@[simp] theorem modNetBuf_mbs (s : State) (k : Nat) (v : List NetPkt → List NetPkt) : (s.modNetBuf k v).mbs = s.mbs := rfl
@[simp] theorem setNetBuf_cmds (s : State) (k : Nat) (v : List NetPkt) : (s.setNetBuf k v).cmds = s.cmds := rfl
@[simp] theorem modNetBuf_cmds (s : State) (k : Nat) (v : List NetPkt → List NetPkt) : (s.modNetBuf k v).cmds = s.cmds := rfl
@[simp] theorem setNetBuf_stw (s : State) (k : Nat) (v : List NetPkt) : (s.setNetBuf k v).stw = s.stw := rfl
@[simp] theorem modNetBuf_stw (s : State) (k : Nat) (v : List NetPkt → List NetPkt) : (s.modNetBuf k v).stw = s.stw := rfl
@[simp] theorem setNetBuf_hostMem (s : State) (k : Nat) (v : List NetPkt) : (s.setNetBuf k v).hostMem = s.hostMem := rfl
@[simp] theorem modNetBuf_hostMem (s : State) (k : Nat) (v : List NetPkt → List NetPkt) : (s.modNetBuf k v).hostMem = s.hostMem := rfl
@[simp] theorem setNetBuf_bu (s : State) (k : Nat) (v : List NetPkt) : (s.setNetBuf k v).bu = s.bu := rfl
@[simp] theorem modNetBuf_bu (s : State) (k : Nat) (v : List NetPkt → List NetPkt) : (s.modNetBuf k v).bu = s.bu := rfl
@[simp] theorem setNetBuf_pwr (s : State) (k : Nat) (v : List NetPkt) : (s.setNetBuf k v).pwr = s.pwr := rfl
@[simp] theorem modNetBuf_pwr (s : State) (k : Nat) (v : List NetPkt → List NetPkt) : (s.modNetBuf k v).pwr = s.pwr := rfl
@[simp] theorem setNetBuf_sensors (s : State) (k : Nat) (v : List NetPkt) : (s.setNetBuf k v).sensors = s.sensors := rfl
@[simp] theorem modNetBuf_sensors (s : State) (k : Nat) (v : List NetPkt → List NetPkt) : (s.modNetBuf k v).sensors = s.sensors := rfl
@[simp] theorem setNetBuf_dies (s : State) (k : Nat) (v : List NetPkt) : (s.setNetBuf k v).dies = s.dies := rfl
@[simp] theorem modNetBuf_dies (s : State) (k : Nat) (v : List NetPkt → List NetPkt) : (s.modNetBuf k v).dies = s.dies := rfl
@[simp] theorem setNetBuf_thm (s : State) (k : Nat) (v : List NetPkt) : (s.setNetBuf k v).thm = s.thm := rfl
@[simp] theorem modNetBuf_thm (s : State) (k : Nat) (v : List NetPkt → List NetPkt) : (s.modNetBuf k v).thm = s.thm := rfl
@[simp] theorem setNetBuf_exts (s : State) (k : Nat) (v : List NetPkt) : (s.setNetBuf k v).exts = s.exts := rfl
@[simp] theorem modNetBuf_exts (s : State) (k : Nat) (v : List NetPkt → List NetPkt) : (s.modNetBuf k v).exts = s.exts := rfl
@[simp] theorem setNetBuf_flt (s : State) (k : Nat) (v : List NetPkt) : (s.setNetBuf k v).flt = s.flt := rfl
@[simp] theorem modNetBuf_flt (s : State) (k : Nat) (v : List NetPkt → List NetPkt) : (s.modNetBuf k v).flt = s.flt := rfl
@[simp] theorem setNetBuf_sec (s : State) (k : Nat) (v : List NetPkt) : (s.setNetBuf k v).sec = s.sec := rfl
@[simp] theorem modNetBuf_sec (s : State) (k : Nat) (v : List NetPkt → List NetPkt) : (s.modNetBuf k v).sec = s.sec := rfl
@[simp] theorem setNetBuf_mg (s : State) (k : Nat) (v : List NetPkt) : (s.setNetBuf k v).mg = s.mg := rfl
@[simp] theorem modNetBuf_mg (s : State) (k : Nat) (v : List NetPkt → List NetPkt) : (s.modNetBuf k v).mg = s.mg := rfl
@[simp] theorem setNetBuf_free (s : State) (k : Nat) (v : List NetPkt) : (s.setNetBuf k v).free = s.free := rfl
@[simp] theorem modNetBuf_free (s : State) (k : Nat) (v : List NetPkt → List NetPkt) : (s.modNetBuf k v).free = s.free := rfl
@[simp] theorem setNetBuf_pending (s : State) (k : Nat) (v : List NetPkt) : (s.setNetBuf k v).pending = s.pending := rfl
@[simp] theorem modNetBuf_pending (s : State) (k : Nat) (v : List NetPkt → List NetPkt) : (s.modNetBuf k v).pending = s.pending := rfl

theorem modPort_eq (s : State) (k : Nat) (g : LinkPort → LinkPort) : s.modPort k g = s.setPort k (g (s.port k)) := rfl
@[simp] theorem setPort_tim (s : State) (k : Nat) (v : LinkPort) : (s.setPort k v).tim = s.tim := rfl
@[simp] theorem modPort_tim (s : State) (k : Nat) (v : LinkPort → LinkPort) : (s.modPort k v).tim = s.tim := rfl
@[simp] theorem setPort_pins (s : State) (k : Nat) (v : LinkPort) : (s.setPort k v).pins = s.pins := rfl
@[simp] theorem modPort_pins (s : State) (k : Nat) (v : LinkPort → LinkPort) : (s.modPort k v).pins = s.pins := rfl
@[simp] theorem setPort_fields (s : State) (k : Nat) (v : LinkPort) : (s.setPort k v).fields = s.fields := rfl
@[simp] theorem modPort_fields (s : State) (k : Nat) (v : LinkPort → LinkPort) : (s.modPort k v).fields = s.fields := rfl
@[simp] theorem setPort_adcs (s : State) (k : Nat) (v : LinkPort) : (s.setPort k v).adcs = s.adcs := rfl
@[simp] theorem modPort_adcs (s : State) (k : Nat) (v : LinkPort → LinkPort) : (s.modPort k v).adcs = s.adcs := rfl
@[simp] theorem setPort_adcTel (s : State) (k : Nat) (v : LinkPort) : (s.setPort k v).adcTel = s.adcTel := rfl
@[simp] theorem modPort_adcTel (s : State) (k : Nat) (v : LinkPort → LinkPort) : (s.modPort k v).adcTel = s.adcTel := rfl
@[simp] theorem setPort_taints (s : State) (k : Nat) (v : LinkPort) : (s.setPort k v).taints = s.taints := rfl
@[simp] theorem modPort_taints (s : State) (k : Nat) (v : LinkPort → LinkPort) : (s.modPort k v).taints = s.taints := rfl
@[simp] theorem setPort_acc (s : State) (k : Nat) (v : LinkPort) : (s.setPort k v).acc = s.acc := rfl
@[simp] theorem modPort_acc (s : State) (k : Nat) (v : LinkPort → LinkPort) : (s.modPort k v).acc = s.acc := rfl
@[simp] theorem setPort_bands (s : State) (k : Nat) (v : LinkPort) : (s.setPort k v).bands = s.bands := rfl
@[simp] theorem modPort_bands (s : State) (k : Nat) (v : LinkPort → LinkPort) : (s.modPort k v).bands = s.bands := rfl
@[simp] theorem setPort_cal (s : State) (k : Nat) (v : LinkPort) : (s.setPort k v).cal = s.cal := rfl
@[simp] theorem modPort_cal (s : State) (k : Nat) (v : LinkPort → LinkPort) : (s.modPort k v).cal = s.cal := rfl
@[simp] theorem setPort_lcols (s : State) (k : Nat) (v : LinkPort) : (s.setPort k v).lcols = s.lcols := rfl
@[simp] theorem modPort_lcols (s : State) (k : Nat) (v : LinkPort → LinkPort) : (s.modPort k v).lcols = s.lcols := rfl
@[simp] theorem setPort_lports (s : State) (k : Nat) (v : LinkPort) : (s.setPort k v).lports = s.lports := rfl
@[simp] theorem modPort_lports (s : State) (k : Nat) (v : LinkPort → LinkPort) : (s.modPort k v).lports = s.lports := rfl
@[simp] theorem setPort_relays (s : State) (k : Nat) (v : LinkPort) : (s.setPort k v).relays = s.relays := rfl
@[simp] theorem modPort_relays (s : State) (k : Nat) (v : LinkPort → LinkPort) : (s.modPort k v).relays = s.relays := rfl
@[simp] theorem setPort_light (s : State) (k : Nat) (v : LinkPort) : (s.setPort k v).light = s.light := rfl
@[simp] theorem modPort_light (s : State) (k : Nat) (v : LinkPort → LinkPort) : (s.modPort k v).light = s.light := rfl
@[simp] theorem setPort_mons (s : State) (k : Nat) (v : LinkPort) : (s.setPort k v).mons = s.mons := rfl
@[simp] theorem modPort_mons (s : State) (k : Nat) (v : LinkPort → LinkPort) : (s.modPort k v).mons = s.mons := rfl
@[simp] theorem setPort_monLasts (s : State) (k : Nat) (v : LinkPort) : (s.setPort k v).monLasts = s.monLasts := rfl
@[simp] theorem modPort_monLasts (s : State) (k : Nat) (v : LinkPort → LinkPort) : (s.modPort k v).monLasts = s.monLasts := rfl
@[simp] theorem setPort_ring (s : State) (k : Nat) (v : LinkPort) : (s.setPort k v).ring = s.ring := rfl
@[simp] theorem modPort_ring (s : State) (k : Nat) (v : LinkPort → LinkPort) : (s.modPort k v).ring = s.ring := rfl
@[simp] theorem setPort_loops (s : State) (k : Nat) (v : LinkPort) : (s.setPort k v).loops = s.loops := rfl
@[simp] theorem modPort_loops (s : State) (k : Nat) (v : LinkPort → LinkPort) : (s.modPort k v).loops = s.loops := rfl
@[simp] theorem setPort_eng (s : State) (k : Nat) (v : LinkPort) : (s.setPort k v).eng = s.eng := rfl
@[simp] theorem modPort_eng (s : State) (k : Nat) (v : LinkPort → LinkPort) : (s.modPort k v).eng = s.eng := rfl
@[simp] theorem setPort_streams (s : State) (k : Nat) (v : LinkPort) : (s.setPort k v).streams = s.streams := rfl
@[simp] theorem modPort_streams (s : State) (k : Nat) (v : LinkPort → LinkPort) : (s.modPort k v).streams = s.streams := rfl
@[simp] theorem setPort_ops (s : State) (k : Nat) (v : LinkPort) : (s.setPort k v).ops = s.ops := rfl
@[simp] theorem modPort_ops (s : State) (k : Nat) (v : LinkPort → LinkPort) : (s.modPort k v).ops = s.ops := rfl
@[simp] theorem setPort_seq (s : State) (k : Nat) (v : LinkPort) : (s.setPort k v).seq = s.seq := rfl
@[simp] theorem modPort_seq (s : State) (k : Nat) (v : LinkPort → LinkPort) : (s.modPort k v).seq = s.seq := rfl
@[simp] theorem setPort_tokens (s : State) (k : Nat) (v : LinkPort) : (s.setPort k v).tokens = s.tokens := rfl
@[simp] theorem modPort_tokens (s : State) (k : Nat) (v : LinkPort → LinkPort) : (s.modPort k v).tokens = s.tokens := rfl
@[simp] theorem setPort_rowMaps (s : State) (k : Nat) (v : LinkPort) : (s.setPort k v).rowMaps = s.rowMaps := rfl
@[simp] theorem modPort_rowMaps (s : State) (k : Nat) (v : LinkPort → LinkPort) : (s.modPort k v).rowMaps = s.rowMaps := rfl
@[simp] theorem setPort_manifest (s : State) (k : Nat) (v : LinkPort) : (s.setPort k v).manifest = s.manifest := rfl
@[simp] theorem modPort_manifest (s : State) (k : Nat) (v : LinkPort → LinkPort) : (s.modPort k v).manifest = s.manifest := rfl
@[simp] theorem setPort_cores (s : State) (k : Nat) (v : LinkPort) : (s.setPort k v).cores = s.cores := rfl
@[simp] theorem modPort_cores (s : State) (k : Nat) (v : LinkPort → LinkPort) : (s.modPort k v).cores = s.cores := rfl
@[simp] theorem setPort_mem (s : State) (k : Nat) (v : LinkPort) : (s.setPort k v).mem = s.mem := rfl
@[simp] theorem modPort_mem (s : State) (k : Nat) (v : LinkPort → LinkPort) : (s.modPort k v).mem = s.mem := rfl
@[simp] theorem setPort_poison (s : State) (k : Nat) (v : LinkPort) : (s.setPort k v).poison = s.poison := rfl
@[simp] theorem modPort_poison (s : State) (k : Nat) (v : LinkPort → LinkPort) : (s.modPort k v).poison = s.poison := rfl
@[simp] theorem setPort_errs (s : State) (k : Nat) (v : LinkPort) : (s.setPort k v).errs = s.errs := rfl
@[simp] theorem modPort_errs (s : State) (k : Nat) (v : LinkPort → LinkPort) : (s.modPort k v).errs = s.errs := rfl
@[simp] theorem setPort_units (s : State) (k : Nat) (v : LinkPort) : (s.setPort k v).units = s.units := rfl
@[simp] theorem modPort_units (s : State) (k : Nat) (v : LinkPort → LinkPort) : (s.modPort k v).units = s.units := rfl
@[simp] theorem setPort_regions (s : State) (k : Nat) (v : LinkPort) : (s.setPort k v).regions = s.regions := rfl
@[simp] theorem modPort_regions (s : State) (k : Nat) (v : LinkPort → LinkPort) : (s.modPort k v).regions = s.regions := rfl
@[simp] theorem setPort_memTop (s : State) (k : Nat) (v : LinkPort) : (s.setPort k v).memTop = s.memTop := rfl
@[simp] theorem modPort_memTop (s : State) (k : Nat) (v : LinkPort → LinkPort) : (s.modPort k v).memTop = s.memTop := rfl
@[simp] theorem setPort_dir (s : State) (k : Nat) (v : LinkPort) : (s.setPort k v).dir = s.dir := rfl
@[simp] theorem modPort_dir (s : State) (k : Nat) (v : LinkPort → LinkPort) : (s.modPort k v).dir = s.dir := rfl
@[simp] theorem setPort_ctxs (s : State) (k : Nat) (v : LinkPort) : (s.setPort k v).ctxs = s.ctxs := rfl
@[simp] theorem modPort_ctxs (s : State) (k : Nat) (v : LinkPort → LinkPort) : (s.modPort k v).ctxs = s.ctxs := rfl
@[simp] theorem setPort_swaps (s : State) (k : Nat) (v : LinkPort) : (s.setPort k v).swaps = s.swaps := rfl
@[simp] theorem modPort_swaps (s : State) (k : Nat) (v : LinkPort → LinkPort) : (s.modPort k v).swaps = s.swaps := rfl
@[simp] theorem setPort_wts (s : State) (k : Nat) (v : LinkPort) : (s.setPort k v).wts = s.wts := rfl
@[simp] theorem modPort_wts (s : State) (k : Nat) (v : LinkPort → LinkPort) : (s.modPort k v).wts = s.wts := rfl
@[simp] theorem setPort_netLinks (s : State) (k : Nat) (v : LinkPort) : (s.setPort k v).netLinks = s.netLinks := rfl
@[simp] theorem modPort_netLinks (s : State) (k : Nat) (v : LinkPort → LinkPort) : (s.modPort k v).netLinks = s.netLinks := rfl
@[simp] theorem setPort_parts (s : State) (k : Nat) (v : LinkPort) : (s.setPort k v).parts = s.parts := rfl
@[simp] theorem modPort_parts (s : State) (k : Nat) (v : LinkPort → LinkPort) : (s.modPort k v).parts = s.parts := rfl
@[simp] theorem setPort_net (s : State) (k : Nat) (v : LinkPort) : (s.setPort k v).net = s.net := rfl
@[simp] theorem modPort_net (s : State) (k : Nat) (v : LinkPort → LinkPort) : (s.modPort k v).net = s.net := rfl
@[simp] theorem setPort_netBufs (s : State) (k : Nat) (v : LinkPort) : (s.setPort k v).netBufs = s.netBufs := rfl
@[simp] theorem modPort_netBufs (s : State) (k : Nat) (v : LinkPort → LinkPort) : (s.modPort k v).netBufs = s.netBufs := rfl
@[simp] theorem setPort_link (s : State) (k : Nat) (v : LinkPort) : (s.setPort k v).link = s.link := rfl
@[simp] theorem modPort_link (s : State) (k : Nat) (v : LinkPort → LinkPort) : (s.modPort k v).link = s.link := rfl
@[simp] theorem setPort_mbs (s : State) (k : Nat) (v : LinkPort) : (s.setPort k v).mbs = s.mbs := rfl
@[simp] theorem modPort_mbs (s : State) (k : Nat) (v : LinkPort → LinkPort) : (s.modPort k v).mbs = s.mbs := rfl
@[simp] theorem setPort_cmds (s : State) (k : Nat) (v : LinkPort) : (s.setPort k v).cmds = s.cmds := rfl
@[simp] theorem modPort_cmds (s : State) (k : Nat) (v : LinkPort → LinkPort) : (s.modPort k v).cmds = s.cmds := rfl
@[simp] theorem setPort_stw (s : State) (k : Nat) (v : LinkPort) : (s.setPort k v).stw = s.stw := rfl
@[simp] theorem modPort_stw (s : State) (k : Nat) (v : LinkPort → LinkPort) : (s.modPort k v).stw = s.stw := rfl
@[simp] theorem setPort_hostMem (s : State) (k : Nat) (v : LinkPort) : (s.setPort k v).hostMem = s.hostMem := rfl
@[simp] theorem modPort_hostMem (s : State) (k : Nat) (v : LinkPort → LinkPort) : (s.modPort k v).hostMem = s.hostMem := rfl
@[simp] theorem setPort_bu (s : State) (k : Nat) (v : LinkPort) : (s.setPort k v).bu = s.bu := rfl
@[simp] theorem modPort_bu (s : State) (k : Nat) (v : LinkPort → LinkPort) : (s.modPort k v).bu = s.bu := rfl
@[simp] theorem setPort_pwr (s : State) (k : Nat) (v : LinkPort) : (s.setPort k v).pwr = s.pwr := rfl
@[simp] theorem modPort_pwr (s : State) (k : Nat) (v : LinkPort → LinkPort) : (s.modPort k v).pwr = s.pwr := rfl
@[simp] theorem setPort_sensors (s : State) (k : Nat) (v : LinkPort) : (s.setPort k v).sensors = s.sensors := rfl
@[simp] theorem modPort_sensors (s : State) (k : Nat) (v : LinkPort → LinkPort) : (s.modPort k v).sensors = s.sensors := rfl
@[simp] theorem setPort_dies (s : State) (k : Nat) (v : LinkPort) : (s.setPort k v).dies = s.dies := rfl
@[simp] theorem modPort_dies (s : State) (k : Nat) (v : LinkPort → LinkPort) : (s.modPort k v).dies = s.dies := rfl
@[simp] theorem setPort_thm (s : State) (k : Nat) (v : LinkPort) : (s.setPort k v).thm = s.thm := rfl
@[simp] theorem modPort_thm (s : State) (k : Nat) (v : LinkPort → LinkPort) : (s.modPort k v).thm = s.thm := rfl
@[simp] theorem setPort_exts (s : State) (k : Nat) (v : LinkPort) : (s.setPort k v).exts = s.exts := rfl
@[simp] theorem modPort_exts (s : State) (k : Nat) (v : LinkPort → LinkPort) : (s.modPort k v).exts = s.exts := rfl
@[simp] theorem setPort_flt (s : State) (k : Nat) (v : LinkPort) : (s.setPort k v).flt = s.flt := rfl
@[simp] theorem modPort_flt (s : State) (k : Nat) (v : LinkPort → LinkPort) : (s.modPort k v).flt = s.flt := rfl
@[simp] theorem setPort_sec (s : State) (k : Nat) (v : LinkPort) : (s.setPort k v).sec = s.sec := rfl
@[simp] theorem modPort_sec (s : State) (k : Nat) (v : LinkPort → LinkPort) : (s.modPort k v).sec = s.sec := rfl
@[simp] theorem setPort_mg (s : State) (k : Nat) (v : LinkPort) : (s.setPort k v).mg = s.mg := rfl
@[simp] theorem modPort_mg (s : State) (k : Nat) (v : LinkPort → LinkPort) : (s.modPort k v).mg = s.mg := rfl
@[simp] theorem setPort_free (s : State) (k : Nat) (v : LinkPort) : (s.setPort k v).free = s.free := rfl
@[simp] theorem modPort_free (s : State) (k : Nat) (v : LinkPort → LinkPort) : (s.modPort k v).free = s.free := rfl
@[simp] theorem setPort_pending (s : State) (k : Nat) (v : LinkPort) : (s.setPort k v).pending = s.pending := rfl
@[simp] theorem modPort_pending (s : State) (k : Nat) (v : LinkPort → LinkPort) : (s.modPort k v).pending = s.pending := rfl

theorem modMb_eq (s : State) (k : Nat) (g : Mb → Mb) : s.modMb k g = s.setMb k (g (s.mb k)) := rfl
@[simp] theorem setMb_tim (s : State) (k : Nat) (v : Mb) : (s.setMb k v).tim = s.tim := rfl
@[simp] theorem modMb_tim (s : State) (k : Nat) (v : Mb → Mb) : (s.modMb k v).tim = s.tim := rfl
@[simp] theorem setMb_pins (s : State) (k : Nat) (v : Mb) : (s.setMb k v).pins = s.pins := rfl
@[simp] theorem modMb_pins (s : State) (k : Nat) (v : Mb → Mb) : (s.modMb k v).pins = s.pins := rfl
@[simp] theorem setMb_fields (s : State) (k : Nat) (v : Mb) : (s.setMb k v).fields = s.fields := rfl
@[simp] theorem modMb_fields (s : State) (k : Nat) (v : Mb → Mb) : (s.modMb k v).fields = s.fields := rfl
@[simp] theorem setMb_adcs (s : State) (k : Nat) (v : Mb) : (s.setMb k v).adcs = s.adcs := rfl
@[simp] theorem modMb_adcs (s : State) (k : Nat) (v : Mb → Mb) : (s.modMb k v).adcs = s.adcs := rfl
@[simp] theorem setMb_adcTel (s : State) (k : Nat) (v : Mb) : (s.setMb k v).adcTel = s.adcTel := rfl
@[simp] theorem modMb_adcTel (s : State) (k : Nat) (v : Mb → Mb) : (s.modMb k v).adcTel = s.adcTel := rfl
@[simp] theorem setMb_taints (s : State) (k : Nat) (v : Mb) : (s.setMb k v).taints = s.taints := rfl
@[simp] theorem modMb_taints (s : State) (k : Nat) (v : Mb → Mb) : (s.modMb k v).taints = s.taints := rfl
@[simp] theorem setMb_acc (s : State) (k : Nat) (v : Mb) : (s.setMb k v).acc = s.acc := rfl
@[simp] theorem modMb_acc (s : State) (k : Nat) (v : Mb → Mb) : (s.modMb k v).acc = s.acc := rfl
@[simp] theorem setMb_bands (s : State) (k : Nat) (v : Mb) : (s.setMb k v).bands = s.bands := rfl
@[simp] theorem modMb_bands (s : State) (k : Nat) (v : Mb → Mb) : (s.modMb k v).bands = s.bands := rfl
@[simp] theorem setMb_cal (s : State) (k : Nat) (v : Mb) : (s.setMb k v).cal = s.cal := rfl
@[simp] theorem modMb_cal (s : State) (k : Nat) (v : Mb → Mb) : (s.modMb k v).cal = s.cal := rfl
@[simp] theorem setMb_lcols (s : State) (k : Nat) (v : Mb) : (s.setMb k v).lcols = s.lcols := rfl
@[simp] theorem modMb_lcols (s : State) (k : Nat) (v : Mb → Mb) : (s.modMb k v).lcols = s.lcols := rfl
@[simp] theorem setMb_lports (s : State) (k : Nat) (v : Mb) : (s.setMb k v).lports = s.lports := rfl
@[simp] theorem modMb_lports (s : State) (k : Nat) (v : Mb → Mb) : (s.modMb k v).lports = s.lports := rfl
@[simp] theorem setMb_relays (s : State) (k : Nat) (v : Mb) : (s.setMb k v).relays = s.relays := rfl
@[simp] theorem modMb_relays (s : State) (k : Nat) (v : Mb → Mb) : (s.modMb k v).relays = s.relays := rfl
@[simp] theorem setMb_light (s : State) (k : Nat) (v : Mb) : (s.setMb k v).light = s.light := rfl
@[simp] theorem modMb_light (s : State) (k : Nat) (v : Mb → Mb) : (s.modMb k v).light = s.light := rfl
@[simp] theorem setMb_mons (s : State) (k : Nat) (v : Mb) : (s.setMb k v).mons = s.mons := rfl
@[simp] theorem modMb_mons (s : State) (k : Nat) (v : Mb → Mb) : (s.modMb k v).mons = s.mons := rfl
@[simp] theorem setMb_monLasts (s : State) (k : Nat) (v : Mb) : (s.setMb k v).monLasts = s.monLasts := rfl
@[simp] theorem modMb_monLasts (s : State) (k : Nat) (v : Mb → Mb) : (s.modMb k v).monLasts = s.monLasts := rfl
@[simp] theorem setMb_ring (s : State) (k : Nat) (v : Mb) : (s.setMb k v).ring = s.ring := rfl
@[simp] theorem modMb_ring (s : State) (k : Nat) (v : Mb → Mb) : (s.modMb k v).ring = s.ring := rfl
@[simp] theorem setMb_loops (s : State) (k : Nat) (v : Mb) : (s.setMb k v).loops = s.loops := rfl
@[simp] theorem modMb_loops (s : State) (k : Nat) (v : Mb → Mb) : (s.modMb k v).loops = s.loops := rfl
@[simp] theorem setMb_eng (s : State) (k : Nat) (v : Mb) : (s.setMb k v).eng = s.eng := rfl
@[simp] theorem modMb_eng (s : State) (k : Nat) (v : Mb → Mb) : (s.modMb k v).eng = s.eng := rfl
@[simp] theorem setMb_streams (s : State) (k : Nat) (v : Mb) : (s.setMb k v).streams = s.streams := rfl
@[simp] theorem modMb_streams (s : State) (k : Nat) (v : Mb → Mb) : (s.modMb k v).streams = s.streams := rfl
@[simp] theorem setMb_ops (s : State) (k : Nat) (v : Mb) : (s.setMb k v).ops = s.ops := rfl
@[simp] theorem modMb_ops (s : State) (k : Nat) (v : Mb → Mb) : (s.modMb k v).ops = s.ops := rfl
@[simp] theorem setMb_seq (s : State) (k : Nat) (v : Mb) : (s.setMb k v).seq = s.seq := rfl
@[simp] theorem modMb_seq (s : State) (k : Nat) (v : Mb → Mb) : (s.modMb k v).seq = s.seq := rfl
@[simp] theorem setMb_tokens (s : State) (k : Nat) (v : Mb) : (s.setMb k v).tokens = s.tokens := rfl
@[simp] theorem modMb_tokens (s : State) (k : Nat) (v : Mb → Mb) : (s.modMb k v).tokens = s.tokens := rfl
@[simp] theorem setMb_rowMaps (s : State) (k : Nat) (v : Mb) : (s.setMb k v).rowMaps = s.rowMaps := rfl
@[simp] theorem modMb_rowMaps (s : State) (k : Nat) (v : Mb → Mb) : (s.modMb k v).rowMaps = s.rowMaps := rfl
@[simp] theorem setMb_manifest (s : State) (k : Nat) (v : Mb) : (s.setMb k v).manifest = s.manifest := rfl
@[simp] theorem modMb_manifest (s : State) (k : Nat) (v : Mb → Mb) : (s.modMb k v).manifest = s.manifest := rfl
@[simp] theorem setMb_cores (s : State) (k : Nat) (v : Mb) : (s.setMb k v).cores = s.cores := rfl
@[simp] theorem modMb_cores (s : State) (k : Nat) (v : Mb → Mb) : (s.modMb k v).cores = s.cores := rfl
@[simp] theorem setMb_mem (s : State) (k : Nat) (v : Mb) : (s.setMb k v).mem = s.mem := rfl
@[simp] theorem modMb_mem (s : State) (k : Nat) (v : Mb → Mb) : (s.modMb k v).mem = s.mem := rfl
@[simp] theorem setMb_poison (s : State) (k : Nat) (v : Mb) : (s.setMb k v).poison = s.poison := rfl
@[simp] theorem modMb_poison (s : State) (k : Nat) (v : Mb → Mb) : (s.modMb k v).poison = s.poison := rfl
@[simp] theorem setMb_errs (s : State) (k : Nat) (v : Mb) : (s.setMb k v).errs = s.errs := rfl
@[simp] theorem modMb_errs (s : State) (k : Nat) (v : Mb → Mb) : (s.modMb k v).errs = s.errs := rfl
@[simp] theorem setMb_units (s : State) (k : Nat) (v : Mb) : (s.setMb k v).units = s.units := rfl
@[simp] theorem modMb_units (s : State) (k : Nat) (v : Mb → Mb) : (s.modMb k v).units = s.units := rfl
@[simp] theorem setMb_regions (s : State) (k : Nat) (v : Mb) : (s.setMb k v).regions = s.regions := rfl
@[simp] theorem modMb_regions (s : State) (k : Nat) (v : Mb → Mb) : (s.modMb k v).regions = s.regions := rfl
@[simp] theorem setMb_memTop (s : State) (k : Nat) (v : Mb) : (s.setMb k v).memTop = s.memTop := rfl
@[simp] theorem modMb_memTop (s : State) (k : Nat) (v : Mb → Mb) : (s.modMb k v).memTop = s.memTop := rfl
@[simp] theorem setMb_dir (s : State) (k : Nat) (v : Mb) : (s.setMb k v).dir = s.dir := rfl
@[simp] theorem modMb_dir (s : State) (k : Nat) (v : Mb → Mb) : (s.modMb k v).dir = s.dir := rfl
@[simp] theorem setMb_ctxs (s : State) (k : Nat) (v : Mb) : (s.setMb k v).ctxs = s.ctxs := rfl
@[simp] theorem modMb_ctxs (s : State) (k : Nat) (v : Mb → Mb) : (s.modMb k v).ctxs = s.ctxs := rfl
@[simp] theorem setMb_swaps (s : State) (k : Nat) (v : Mb) : (s.setMb k v).swaps = s.swaps := rfl
@[simp] theorem modMb_swaps (s : State) (k : Nat) (v : Mb → Mb) : (s.modMb k v).swaps = s.swaps := rfl
@[simp] theorem setMb_wts (s : State) (k : Nat) (v : Mb) : (s.setMb k v).wts = s.wts := rfl
@[simp] theorem modMb_wts (s : State) (k : Nat) (v : Mb → Mb) : (s.modMb k v).wts = s.wts := rfl
@[simp] theorem setMb_netLinks (s : State) (k : Nat) (v : Mb) : (s.setMb k v).netLinks = s.netLinks := rfl
@[simp] theorem modMb_netLinks (s : State) (k : Nat) (v : Mb → Mb) : (s.modMb k v).netLinks = s.netLinks := rfl
@[simp] theorem setMb_parts (s : State) (k : Nat) (v : Mb) : (s.setMb k v).parts = s.parts := rfl
@[simp] theorem modMb_parts (s : State) (k : Nat) (v : Mb → Mb) : (s.modMb k v).parts = s.parts := rfl
@[simp] theorem setMb_net (s : State) (k : Nat) (v : Mb) : (s.setMb k v).net = s.net := rfl
@[simp] theorem modMb_net (s : State) (k : Nat) (v : Mb → Mb) : (s.modMb k v).net = s.net := rfl
@[simp] theorem setMb_netBufs (s : State) (k : Nat) (v : Mb) : (s.setMb k v).netBufs = s.netBufs := rfl
@[simp] theorem modMb_netBufs (s : State) (k : Nat) (v : Mb → Mb) : (s.modMb k v).netBufs = s.netBufs := rfl
@[simp] theorem setMb_ports (s : State) (k : Nat) (v : Mb) : (s.setMb k v).ports = s.ports := rfl
@[simp] theorem modMb_ports (s : State) (k : Nat) (v : Mb → Mb) : (s.modMb k v).ports = s.ports := rfl
@[simp] theorem setMb_link (s : State) (k : Nat) (v : Mb) : (s.setMb k v).link = s.link := rfl
@[simp] theorem modMb_link (s : State) (k : Nat) (v : Mb → Mb) : (s.modMb k v).link = s.link := rfl
@[simp] theorem setMb_cmds (s : State) (k : Nat) (v : Mb) : (s.setMb k v).cmds = s.cmds := rfl
@[simp] theorem modMb_cmds (s : State) (k : Nat) (v : Mb → Mb) : (s.modMb k v).cmds = s.cmds := rfl
@[simp] theorem setMb_stw (s : State) (k : Nat) (v : Mb) : (s.setMb k v).stw = s.stw := rfl
@[simp] theorem modMb_stw (s : State) (k : Nat) (v : Mb → Mb) : (s.modMb k v).stw = s.stw := rfl
@[simp] theorem setMb_hostMem (s : State) (k : Nat) (v : Mb) : (s.setMb k v).hostMem = s.hostMem := rfl
@[simp] theorem modMb_hostMem (s : State) (k : Nat) (v : Mb → Mb) : (s.modMb k v).hostMem = s.hostMem := rfl
@[simp] theorem setMb_bu (s : State) (k : Nat) (v : Mb) : (s.setMb k v).bu = s.bu := rfl
@[simp] theorem modMb_bu (s : State) (k : Nat) (v : Mb → Mb) : (s.modMb k v).bu = s.bu := rfl
@[simp] theorem setMb_pwr (s : State) (k : Nat) (v : Mb) : (s.setMb k v).pwr = s.pwr := rfl
@[simp] theorem modMb_pwr (s : State) (k : Nat) (v : Mb → Mb) : (s.modMb k v).pwr = s.pwr := rfl
@[simp] theorem setMb_sensors (s : State) (k : Nat) (v : Mb) : (s.setMb k v).sensors = s.sensors := rfl
@[simp] theorem modMb_sensors (s : State) (k : Nat) (v : Mb → Mb) : (s.modMb k v).sensors = s.sensors := rfl
@[simp] theorem setMb_dies (s : State) (k : Nat) (v : Mb) : (s.setMb k v).dies = s.dies := rfl
@[simp] theorem modMb_dies (s : State) (k : Nat) (v : Mb → Mb) : (s.modMb k v).dies = s.dies := rfl
@[simp] theorem setMb_thm (s : State) (k : Nat) (v : Mb) : (s.setMb k v).thm = s.thm := rfl
@[simp] theorem modMb_thm (s : State) (k : Nat) (v : Mb → Mb) : (s.modMb k v).thm = s.thm := rfl
@[simp] theorem setMb_exts (s : State) (k : Nat) (v : Mb) : (s.setMb k v).exts = s.exts := rfl
@[simp] theorem modMb_exts (s : State) (k : Nat) (v : Mb → Mb) : (s.modMb k v).exts = s.exts := rfl
@[simp] theorem setMb_flt (s : State) (k : Nat) (v : Mb) : (s.setMb k v).flt = s.flt := rfl
@[simp] theorem modMb_flt (s : State) (k : Nat) (v : Mb → Mb) : (s.modMb k v).flt = s.flt := rfl
@[simp] theorem setMb_sec (s : State) (k : Nat) (v : Mb) : (s.setMb k v).sec = s.sec := rfl
@[simp] theorem modMb_sec (s : State) (k : Nat) (v : Mb → Mb) : (s.modMb k v).sec = s.sec := rfl
@[simp] theorem setMb_mg (s : State) (k : Nat) (v : Mb) : (s.setMb k v).mg = s.mg := rfl
@[simp] theorem modMb_mg (s : State) (k : Nat) (v : Mb → Mb) : (s.modMb k v).mg = s.mg := rfl
@[simp] theorem setMb_free (s : State) (k : Nat) (v : Mb) : (s.setMb k v).free = s.free := rfl
@[simp] theorem modMb_free (s : State) (k : Nat) (v : Mb → Mb) : (s.modMb k v).free = s.free := rfl
@[simp] theorem setMb_pending (s : State) (k : Nat) (v : Mb) : (s.setMb k v).pending = s.pending := rfl
@[simp] theorem modMb_pending (s : State) (k : Nat) (v : Mb → Mb) : (s.modMb k v).pending = s.pending := rfl

theorem modSensor_eq (s : State) (k : Nat) (g : Sensor → Sensor) : s.modSensor k g = s.setSensor k (g (s.sensor k)) := rfl
@[simp] theorem setSensor_tim (s : State) (k : Nat) (v : Sensor) : (s.setSensor k v).tim = s.tim := rfl
@[simp] theorem modSensor_tim (s : State) (k : Nat) (v : Sensor → Sensor) : (s.modSensor k v).tim = s.tim := rfl
@[simp] theorem setSensor_pins (s : State) (k : Nat) (v : Sensor) : (s.setSensor k v).pins = s.pins := rfl
@[simp] theorem modSensor_pins (s : State) (k : Nat) (v : Sensor → Sensor) : (s.modSensor k v).pins = s.pins := rfl
@[simp] theorem setSensor_fields (s : State) (k : Nat) (v : Sensor) : (s.setSensor k v).fields = s.fields := rfl
@[simp] theorem modSensor_fields (s : State) (k : Nat) (v : Sensor → Sensor) : (s.modSensor k v).fields = s.fields := rfl
@[simp] theorem setSensor_adcs (s : State) (k : Nat) (v : Sensor) : (s.setSensor k v).adcs = s.adcs := rfl
@[simp] theorem modSensor_adcs (s : State) (k : Nat) (v : Sensor → Sensor) : (s.modSensor k v).adcs = s.adcs := rfl
@[simp] theorem setSensor_adcTel (s : State) (k : Nat) (v : Sensor) : (s.setSensor k v).adcTel = s.adcTel := rfl
@[simp] theorem modSensor_adcTel (s : State) (k : Nat) (v : Sensor → Sensor) : (s.modSensor k v).adcTel = s.adcTel := rfl
@[simp] theorem setSensor_taints (s : State) (k : Nat) (v : Sensor) : (s.setSensor k v).taints = s.taints := rfl
@[simp] theorem modSensor_taints (s : State) (k : Nat) (v : Sensor → Sensor) : (s.modSensor k v).taints = s.taints := rfl
@[simp] theorem setSensor_acc (s : State) (k : Nat) (v : Sensor) : (s.setSensor k v).acc = s.acc := rfl
@[simp] theorem modSensor_acc (s : State) (k : Nat) (v : Sensor → Sensor) : (s.modSensor k v).acc = s.acc := rfl
@[simp] theorem setSensor_bands (s : State) (k : Nat) (v : Sensor) : (s.setSensor k v).bands = s.bands := rfl
@[simp] theorem modSensor_bands (s : State) (k : Nat) (v : Sensor → Sensor) : (s.modSensor k v).bands = s.bands := rfl
@[simp] theorem setSensor_cal (s : State) (k : Nat) (v : Sensor) : (s.setSensor k v).cal = s.cal := rfl
@[simp] theorem modSensor_cal (s : State) (k : Nat) (v : Sensor → Sensor) : (s.modSensor k v).cal = s.cal := rfl
@[simp] theorem setSensor_lcols (s : State) (k : Nat) (v : Sensor) : (s.setSensor k v).lcols = s.lcols := rfl
@[simp] theorem modSensor_lcols (s : State) (k : Nat) (v : Sensor → Sensor) : (s.modSensor k v).lcols = s.lcols := rfl
@[simp] theorem setSensor_lports (s : State) (k : Nat) (v : Sensor) : (s.setSensor k v).lports = s.lports := rfl
@[simp] theorem modSensor_lports (s : State) (k : Nat) (v : Sensor → Sensor) : (s.modSensor k v).lports = s.lports := rfl
@[simp] theorem setSensor_relays (s : State) (k : Nat) (v : Sensor) : (s.setSensor k v).relays = s.relays := rfl
@[simp] theorem modSensor_relays (s : State) (k : Nat) (v : Sensor → Sensor) : (s.modSensor k v).relays = s.relays := rfl
@[simp] theorem setSensor_light (s : State) (k : Nat) (v : Sensor) : (s.setSensor k v).light = s.light := rfl
@[simp] theorem modSensor_light (s : State) (k : Nat) (v : Sensor → Sensor) : (s.modSensor k v).light = s.light := rfl
@[simp] theorem setSensor_mons (s : State) (k : Nat) (v : Sensor) : (s.setSensor k v).mons = s.mons := rfl
@[simp] theorem modSensor_mons (s : State) (k : Nat) (v : Sensor → Sensor) : (s.modSensor k v).mons = s.mons := rfl
@[simp] theorem setSensor_monLasts (s : State) (k : Nat) (v : Sensor) : (s.setSensor k v).monLasts = s.monLasts := rfl
@[simp] theorem modSensor_monLasts (s : State) (k : Nat) (v : Sensor → Sensor) : (s.modSensor k v).monLasts = s.monLasts := rfl
@[simp] theorem setSensor_ring (s : State) (k : Nat) (v : Sensor) : (s.setSensor k v).ring = s.ring := rfl
@[simp] theorem modSensor_ring (s : State) (k : Nat) (v : Sensor → Sensor) : (s.modSensor k v).ring = s.ring := rfl
@[simp] theorem setSensor_loops (s : State) (k : Nat) (v : Sensor) : (s.setSensor k v).loops = s.loops := rfl
@[simp] theorem modSensor_loops (s : State) (k : Nat) (v : Sensor → Sensor) : (s.modSensor k v).loops = s.loops := rfl
@[simp] theorem setSensor_eng (s : State) (k : Nat) (v : Sensor) : (s.setSensor k v).eng = s.eng := rfl
@[simp] theorem modSensor_eng (s : State) (k : Nat) (v : Sensor → Sensor) : (s.modSensor k v).eng = s.eng := rfl
@[simp] theorem setSensor_streams (s : State) (k : Nat) (v : Sensor) : (s.setSensor k v).streams = s.streams := rfl
@[simp] theorem modSensor_streams (s : State) (k : Nat) (v : Sensor → Sensor) : (s.modSensor k v).streams = s.streams := rfl
@[simp] theorem setSensor_ops (s : State) (k : Nat) (v : Sensor) : (s.setSensor k v).ops = s.ops := rfl
@[simp] theorem modSensor_ops (s : State) (k : Nat) (v : Sensor → Sensor) : (s.modSensor k v).ops = s.ops := rfl
@[simp] theorem setSensor_seq (s : State) (k : Nat) (v : Sensor) : (s.setSensor k v).seq = s.seq := rfl
@[simp] theorem modSensor_seq (s : State) (k : Nat) (v : Sensor → Sensor) : (s.modSensor k v).seq = s.seq := rfl
@[simp] theorem setSensor_tokens (s : State) (k : Nat) (v : Sensor) : (s.setSensor k v).tokens = s.tokens := rfl
@[simp] theorem modSensor_tokens (s : State) (k : Nat) (v : Sensor → Sensor) : (s.modSensor k v).tokens = s.tokens := rfl
@[simp] theorem setSensor_rowMaps (s : State) (k : Nat) (v : Sensor) : (s.setSensor k v).rowMaps = s.rowMaps := rfl
@[simp] theorem modSensor_rowMaps (s : State) (k : Nat) (v : Sensor → Sensor) : (s.modSensor k v).rowMaps = s.rowMaps := rfl
@[simp] theorem setSensor_manifest (s : State) (k : Nat) (v : Sensor) : (s.setSensor k v).manifest = s.manifest := rfl
@[simp] theorem modSensor_manifest (s : State) (k : Nat) (v : Sensor → Sensor) : (s.modSensor k v).manifest = s.manifest := rfl
@[simp] theorem setSensor_cores (s : State) (k : Nat) (v : Sensor) : (s.setSensor k v).cores = s.cores := rfl
@[simp] theorem modSensor_cores (s : State) (k : Nat) (v : Sensor → Sensor) : (s.modSensor k v).cores = s.cores := rfl
@[simp] theorem setSensor_mem (s : State) (k : Nat) (v : Sensor) : (s.setSensor k v).mem = s.mem := rfl
@[simp] theorem modSensor_mem (s : State) (k : Nat) (v : Sensor → Sensor) : (s.modSensor k v).mem = s.mem := rfl
@[simp] theorem setSensor_poison (s : State) (k : Nat) (v : Sensor) : (s.setSensor k v).poison = s.poison := rfl
@[simp] theorem modSensor_poison (s : State) (k : Nat) (v : Sensor → Sensor) : (s.modSensor k v).poison = s.poison := rfl
@[simp] theorem setSensor_errs (s : State) (k : Nat) (v : Sensor) : (s.setSensor k v).errs = s.errs := rfl
@[simp] theorem modSensor_errs (s : State) (k : Nat) (v : Sensor → Sensor) : (s.modSensor k v).errs = s.errs := rfl
@[simp] theorem setSensor_units (s : State) (k : Nat) (v : Sensor) : (s.setSensor k v).units = s.units := rfl
@[simp] theorem modSensor_units (s : State) (k : Nat) (v : Sensor → Sensor) : (s.modSensor k v).units = s.units := rfl
@[simp] theorem setSensor_regions (s : State) (k : Nat) (v : Sensor) : (s.setSensor k v).regions = s.regions := rfl
@[simp] theorem modSensor_regions (s : State) (k : Nat) (v : Sensor → Sensor) : (s.modSensor k v).regions = s.regions := rfl
@[simp] theorem setSensor_memTop (s : State) (k : Nat) (v : Sensor) : (s.setSensor k v).memTop = s.memTop := rfl
@[simp] theorem modSensor_memTop (s : State) (k : Nat) (v : Sensor → Sensor) : (s.modSensor k v).memTop = s.memTop := rfl
@[simp] theorem setSensor_dir (s : State) (k : Nat) (v : Sensor) : (s.setSensor k v).dir = s.dir := rfl
@[simp] theorem modSensor_dir (s : State) (k : Nat) (v : Sensor → Sensor) : (s.modSensor k v).dir = s.dir := rfl
@[simp] theorem setSensor_ctxs (s : State) (k : Nat) (v : Sensor) : (s.setSensor k v).ctxs = s.ctxs := rfl
@[simp] theorem modSensor_ctxs (s : State) (k : Nat) (v : Sensor → Sensor) : (s.modSensor k v).ctxs = s.ctxs := rfl
@[simp] theorem setSensor_swaps (s : State) (k : Nat) (v : Sensor) : (s.setSensor k v).swaps = s.swaps := rfl
@[simp] theorem modSensor_swaps (s : State) (k : Nat) (v : Sensor → Sensor) : (s.modSensor k v).swaps = s.swaps := rfl
@[simp] theorem setSensor_wts (s : State) (k : Nat) (v : Sensor) : (s.setSensor k v).wts = s.wts := rfl
@[simp] theorem modSensor_wts (s : State) (k : Nat) (v : Sensor → Sensor) : (s.modSensor k v).wts = s.wts := rfl
@[simp] theorem setSensor_netLinks (s : State) (k : Nat) (v : Sensor) : (s.setSensor k v).netLinks = s.netLinks := rfl
@[simp] theorem modSensor_netLinks (s : State) (k : Nat) (v : Sensor → Sensor) : (s.modSensor k v).netLinks = s.netLinks := rfl
@[simp] theorem setSensor_parts (s : State) (k : Nat) (v : Sensor) : (s.setSensor k v).parts = s.parts := rfl
@[simp] theorem modSensor_parts (s : State) (k : Nat) (v : Sensor → Sensor) : (s.modSensor k v).parts = s.parts := rfl
@[simp] theorem setSensor_net (s : State) (k : Nat) (v : Sensor) : (s.setSensor k v).net = s.net := rfl
@[simp] theorem modSensor_net (s : State) (k : Nat) (v : Sensor → Sensor) : (s.modSensor k v).net = s.net := rfl
@[simp] theorem setSensor_netBufs (s : State) (k : Nat) (v : Sensor) : (s.setSensor k v).netBufs = s.netBufs := rfl
@[simp] theorem modSensor_netBufs (s : State) (k : Nat) (v : Sensor → Sensor) : (s.modSensor k v).netBufs = s.netBufs := rfl
@[simp] theorem setSensor_ports (s : State) (k : Nat) (v : Sensor) : (s.setSensor k v).ports = s.ports := rfl
@[simp] theorem modSensor_ports (s : State) (k : Nat) (v : Sensor → Sensor) : (s.modSensor k v).ports = s.ports := rfl
@[simp] theorem setSensor_link (s : State) (k : Nat) (v : Sensor) : (s.setSensor k v).link = s.link := rfl
@[simp] theorem modSensor_link (s : State) (k : Nat) (v : Sensor → Sensor) : (s.modSensor k v).link = s.link := rfl
@[simp] theorem setSensor_mbs (s : State) (k : Nat) (v : Sensor) : (s.setSensor k v).mbs = s.mbs := rfl
@[simp] theorem modSensor_mbs (s : State) (k : Nat) (v : Sensor → Sensor) : (s.modSensor k v).mbs = s.mbs := rfl
@[simp] theorem setSensor_cmds (s : State) (k : Nat) (v : Sensor) : (s.setSensor k v).cmds = s.cmds := rfl
@[simp] theorem modSensor_cmds (s : State) (k : Nat) (v : Sensor → Sensor) : (s.modSensor k v).cmds = s.cmds := rfl
@[simp] theorem setSensor_stw (s : State) (k : Nat) (v : Sensor) : (s.setSensor k v).stw = s.stw := rfl
@[simp] theorem modSensor_stw (s : State) (k : Nat) (v : Sensor → Sensor) : (s.modSensor k v).stw = s.stw := rfl
@[simp] theorem setSensor_hostMem (s : State) (k : Nat) (v : Sensor) : (s.setSensor k v).hostMem = s.hostMem := rfl
@[simp] theorem modSensor_hostMem (s : State) (k : Nat) (v : Sensor → Sensor) : (s.modSensor k v).hostMem = s.hostMem := rfl
@[simp] theorem setSensor_bu (s : State) (k : Nat) (v : Sensor) : (s.setSensor k v).bu = s.bu := rfl
@[simp] theorem modSensor_bu (s : State) (k : Nat) (v : Sensor → Sensor) : (s.modSensor k v).bu = s.bu := rfl
@[simp] theorem setSensor_pwr (s : State) (k : Nat) (v : Sensor) : (s.setSensor k v).pwr = s.pwr := rfl
@[simp] theorem modSensor_pwr (s : State) (k : Nat) (v : Sensor → Sensor) : (s.modSensor k v).pwr = s.pwr := rfl
@[simp] theorem setSensor_dies (s : State) (k : Nat) (v : Sensor) : (s.setSensor k v).dies = s.dies := rfl
@[simp] theorem modSensor_dies (s : State) (k : Nat) (v : Sensor → Sensor) : (s.modSensor k v).dies = s.dies := rfl
@[simp] theorem setSensor_thm (s : State) (k : Nat) (v : Sensor) : (s.setSensor k v).thm = s.thm := rfl
@[simp] theorem modSensor_thm (s : State) (k : Nat) (v : Sensor → Sensor) : (s.modSensor k v).thm = s.thm := rfl
@[simp] theorem setSensor_exts (s : State) (k : Nat) (v : Sensor) : (s.setSensor k v).exts = s.exts := rfl
@[simp] theorem modSensor_exts (s : State) (k : Nat) (v : Sensor → Sensor) : (s.modSensor k v).exts = s.exts := rfl
@[simp] theorem setSensor_flt (s : State) (k : Nat) (v : Sensor) : (s.setSensor k v).flt = s.flt := rfl
@[simp] theorem modSensor_flt (s : State) (k : Nat) (v : Sensor → Sensor) : (s.modSensor k v).flt = s.flt := rfl
@[simp] theorem setSensor_sec (s : State) (k : Nat) (v : Sensor) : (s.setSensor k v).sec = s.sec := rfl
@[simp] theorem modSensor_sec (s : State) (k : Nat) (v : Sensor → Sensor) : (s.modSensor k v).sec = s.sec := rfl
@[simp] theorem setSensor_mg (s : State) (k : Nat) (v : Sensor) : (s.setSensor k v).mg = s.mg := rfl
@[simp] theorem modSensor_mg (s : State) (k : Nat) (v : Sensor → Sensor) : (s.modSensor k v).mg = s.mg := rfl
@[simp] theorem setSensor_free (s : State) (k : Nat) (v : Sensor) : (s.setSensor k v).free = s.free := rfl
@[simp] theorem modSensor_free (s : State) (k : Nat) (v : Sensor → Sensor) : (s.modSensor k v).free = s.free := rfl
@[simp] theorem setSensor_pending (s : State) (k : Nat) (v : Sensor) : (s.setSensor k v).pending = s.pending := rfl
@[simp] theorem modSensor_pending (s : State) (k : Nat) (v : Sensor → Sensor) : (s.modSensor k v).pending = s.pending := rfl

theorem modDie_eq (s : State) (k : Nat) (g : Die → Die) : s.modDie k g = s.setDie k (g (s.die k)) := rfl
@[simp] theorem setDie_tim (s : State) (k : Nat) (v : Die) : (s.setDie k v).tim = s.tim := rfl
@[simp] theorem modDie_tim (s : State) (k : Nat) (v : Die → Die) : (s.modDie k v).tim = s.tim := rfl
@[simp] theorem setDie_pins (s : State) (k : Nat) (v : Die) : (s.setDie k v).pins = s.pins := rfl
@[simp] theorem modDie_pins (s : State) (k : Nat) (v : Die → Die) : (s.modDie k v).pins = s.pins := rfl
@[simp] theorem setDie_fields (s : State) (k : Nat) (v : Die) : (s.setDie k v).fields = s.fields := rfl
@[simp] theorem modDie_fields (s : State) (k : Nat) (v : Die → Die) : (s.modDie k v).fields = s.fields := rfl
@[simp] theorem setDie_adcs (s : State) (k : Nat) (v : Die) : (s.setDie k v).adcs = s.adcs := rfl
@[simp] theorem modDie_adcs (s : State) (k : Nat) (v : Die → Die) : (s.modDie k v).adcs = s.adcs := rfl
@[simp] theorem setDie_adcTel (s : State) (k : Nat) (v : Die) : (s.setDie k v).adcTel = s.adcTel := rfl
@[simp] theorem modDie_adcTel (s : State) (k : Nat) (v : Die → Die) : (s.modDie k v).adcTel = s.adcTel := rfl
@[simp] theorem setDie_taints (s : State) (k : Nat) (v : Die) : (s.setDie k v).taints = s.taints := rfl
@[simp] theorem modDie_taints (s : State) (k : Nat) (v : Die → Die) : (s.modDie k v).taints = s.taints := rfl
@[simp] theorem setDie_acc (s : State) (k : Nat) (v : Die) : (s.setDie k v).acc = s.acc := rfl
@[simp] theorem modDie_acc (s : State) (k : Nat) (v : Die → Die) : (s.modDie k v).acc = s.acc := rfl
@[simp] theorem setDie_bands (s : State) (k : Nat) (v : Die) : (s.setDie k v).bands = s.bands := rfl
@[simp] theorem modDie_bands (s : State) (k : Nat) (v : Die → Die) : (s.modDie k v).bands = s.bands := rfl
@[simp] theorem setDie_cal (s : State) (k : Nat) (v : Die) : (s.setDie k v).cal = s.cal := rfl
@[simp] theorem modDie_cal (s : State) (k : Nat) (v : Die → Die) : (s.modDie k v).cal = s.cal := rfl
@[simp] theorem setDie_lcols (s : State) (k : Nat) (v : Die) : (s.setDie k v).lcols = s.lcols := rfl
@[simp] theorem modDie_lcols (s : State) (k : Nat) (v : Die → Die) : (s.modDie k v).lcols = s.lcols := rfl
@[simp] theorem setDie_lports (s : State) (k : Nat) (v : Die) : (s.setDie k v).lports = s.lports := rfl
@[simp] theorem modDie_lports (s : State) (k : Nat) (v : Die → Die) : (s.modDie k v).lports = s.lports := rfl
@[simp] theorem setDie_relays (s : State) (k : Nat) (v : Die) : (s.setDie k v).relays = s.relays := rfl
@[simp] theorem modDie_relays (s : State) (k : Nat) (v : Die → Die) : (s.modDie k v).relays = s.relays := rfl
@[simp] theorem setDie_light (s : State) (k : Nat) (v : Die) : (s.setDie k v).light = s.light := rfl
@[simp] theorem modDie_light (s : State) (k : Nat) (v : Die → Die) : (s.modDie k v).light = s.light := rfl
@[simp] theorem setDie_mons (s : State) (k : Nat) (v : Die) : (s.setDie k v).mons = s.mons := rfl
@[simp] theorem modDie_mons (s : State) (k : Nat) (v : Die → Die) : (s.modDie k v).mons = s.mons := rfl
@[simp] theorem setDie_monLasts (s : State) (k : Nat) (v : Die) : (s.setDie k v).monLasts = s.monLasts := rfl
@[simp] theorem modDie_monLasts (s : State) (k : Nat) (v : Die → Die) : (s.modDie k v).monLasts = s.monLasts := rfl
@[simp] theorem setDie_ring (s : State) (k : Nat) (v : Die) : (s.setDie k v).ring = s.ring := rfl
@[simp] theorem modDie_ring (s : State) (k : Nat) (v : Die → Die) : (s.modDie k v).ring = s.ring := rfl
@[simp] theorem setDie_loops (s : State) (k : Nat) (v : Die) : (s.setDie k v).loops = s.loops := rfl
@[simp] theorem modDie_loops (s : State) (k : Nat) (v : Die → Die) : (s.modDie k v).loops = s.loops := rfl
@[simp] theorem setDie_eng (s : State) (k : Nat) (v : Die) : (s.setDie k v).eng = s.eng := rfl
@[simp] theorem modDie_eng (s : State) (k : Nat) (v : Die → Die) : (s.modDie k v).eng = s.eng := rfl
@[simp] theorem setDie_streams (s : State) (k : Nat) (v : Die) : (s.setDie k v).streams = s.streams := rfl
@[simp] theorem modDie_streams (s : State) (k : Nat) (v : Die → Die) : (s.modDie k v).streams = s.streams := rfl
@[simp] theorem setDie_ops (s : State) (k : Nat) (v : Die) : (s.setDie k v).ops = s.ops := rfl
@[simp] theorem modDie_ops (s : State) (k : Nat) (v : Die → Die) : (s.modDie k v).ops = s.ops := rfl
@[simp] theorem setDie_seq (s : State) (k : Nat) (v : Die) : (s.setDie k v).seq = s.seq := rfl
@[simp] theorem modDie_seq (s : State) (k : Nat) (v : Die → Die) : (s.modDie k v).seq = s.seq := rfl
@[simp] theorem setDie_tokens (s : State) (k : Nat) (v : Die) : (s.setDie k v).tokens = s.tokens := rfl
@[simp] theorem modDie_tokens (s : State) (k : Nat) (v : Die → Die) : (s.modDie k v).tokens = s.tokens := rfl
@[simp] theorem setDie_rowMaps (s : State) (k : Nat) (v : Die) : (s.setDie k v).rowMaps = s.rowMaps := rfl
@[simp] theorem modDie_rowMaps (s : State) (k : Nat) (v : Die → Die) : (s.modDie k v).rowMaps = s.rowMaps := rfl
@[simp] theorem setDie_manifest (s : State) (k : Nat) (v : Die) : (s.setDie k v).manifest = s.manifest := rfl
@[simp] theorem modDie_manifest (s : State) (k : Nat) (v : Die → Die) : (s.modDie k v).manifest = s.manifest := rfl
@[simp] theorem setDie_cores (s : State) (k : Nat) (v : Die) : (s.setDie k v).cores = s.cores := rfl
@[simp] theorem modDie_cores (s : State) (k : Nat) (v : Die → Die) : (s.modDie k v).cores = s.cores := rfl
@[simp] theorem setDie_mem (s : State) (k : Nat) (v : Die) : (s.setDie k v).mem = s.mem := rfl
@[simp] theorem modDie_mem (s : State) (k : Nat) (v : Die → Die) : (s.modDie k v).mem = s.mem := rfl
@[simp] theorem setDie_poison (s : State) (k : Nat) (v : Die) : (s.setDie k v).poison = s.poison := rfl
@[simp] theorem modDie_poison (s : State) (k : Nat) (v : Die → Die) : (s.modDie k v).poison = s.poison := rfl
@[simp] theorem setDie_errs (s : State) (k : Nat) (v : Die) : (s.setDie k v).errs = s.errs := rfl
@[simp] theorem modDie_errs (s : State) (k : Nat) (v : Die → Die) : (s.modDie k v).errs = s.errs := rfl
@[simp] theorem setDie_units (s : State) (k : Nat) (v : Die) : (s.setDie k v).units = s.units := rfl
@[simp] theorem modDie_units (s : State) (k : Nat) (v : Die → Die) : (s.modDie k v).units = s.units := rfl
@[simp] theorem setDie_regions (s : State) (k : Nat) (v : Die) : (s.setDie k v).regions = s.regions := rfl
@[simp] theorem modDie_regions (s : State) (k : Nat) (v : Die → Die) : (s.modDie k v).regions = s.regions := rfl
@[simp] theorem setDie_memTop (s : State) (k : Nat) (v : Die) : (s.setDie k v).memTop = s.memTop := rfl
@[simp] theorem modDie_memTop (s : State) (k : Nat) (v : Die → Die) : (s.modDie k v).memTop = s.memTop := rfl
@[simp] theorem setDie_dir (s : State) (k : Nat) (v : Die) : (s.setDie k v).dir = s.dir := rfl
@[simp] theorem modDie_dir (s : State) (k : Nat) (v : Die → Die) : (s.modDie k v).dir = s.dir := rfl
@[simp] theorem setDie_ctxs (s : State) (k : Nat) (v : Die) : (s.setDie k v).ctxs = s.ctxs := rfl
@[simp] theorem modDie_ctxs (s : State) (k : Nat) (v : Die → Die) : (s.modDie k v).ctxs = s.ctxs := rfl
@[simp] theorem setDie_swaps (s : State) (k : Nat) (v : Die) : (s.setDie k v).swaps = s.swaps := rfl
@[simp] theorem modDie_swaps (s : State) (k : Nat) (v : Die → Die) : (s.modDie k v).swaps = s.swaps := rfl
@[simp] theorem setDie_wts (s : State) (k : Nat) (v : Die) : (s.setDie k v).wts = s.wts := rfl
@[simp] theorem modDie_wts (s : State) (k : Nat) (v : Die → Die) : (s.modDie k v).wts = s.wts := rfl
@[simp] theorem setDie_netLinks (s : State) (k : Nat) (v : Die) : (s.setDie k v).netLinks = s.netLinks := rfl
@[simp] theorem modDie_netLinks (s : State) (k : Nat) (v : Die → Die) : (s.modDie k v).netLinks = s.netLinks := rfl
@[simp] theorem setDie_parts (s : State) (k : Nat) (v : Die) : (s.setDie k v).parts = s.parts := rfl
@[simp] theorem modDie_parts (s : State) (k : Nat) (v : Die → Die) : (s.modDie k v).parts = s.parts := rfl
@[simp] theorem setDie_net (s : State) (k : Nat) (v : Die) : (s.setDie k v).net = s.net := rfl
@[simp] theorem modDie_net (s : State) (k : Nat) (v : Die → Die) : (s.modDie k v).net = s.net := rfl
@[simp] theorem setDie_netBufs (s : State) (k : Nat) (v : Die) : (s.setDie k v).netBufs = s.netBufs := rfl
@[simp] theorem modDie_netBufs (s : State) (k : Nat) (v : Die → Die) : (s.modDie k v).netBufs = s.netBufs := rfl
@[simp] theorem setDie_ports (s : State) (k : Nat) (v : Die) : (s.setDie k v).ports = s.ports := rfl
@[simp] theorem modDie_ports (s : State) (k : Nat) (v : Die → Die) : (s.modDie k v).ports = s.ports := rfl
@[simp] theorem setDie_link (s : State) (k : Nat) (v : Die) : (s.setDie k v).link = s.link := rfl
@[simp] theorem modDie_link (s : State) (k : Nat) (v : Die → Die) : (s.modDie k v).link = s.link := rfl
@[simp] theorem setDie_mbs (s : State) (k : Nat) (v : Die) : (s.setDie k v).mbs = s.mbs := rfl
@[simp] theorem modDie_mbs (s : State) (k : Nat) (v : Die → Die) : (s.modDie k v).mbs = s.mbs := rfl
@[simp] theorem setDie_cmds (s : State) (k : Nat) (v : Die) : (s.setDie k v).cmds = s.cmds := rfl
@[simp] theorem modDie_cmds (s : State) (k : Nat) (v : Die → Die) : (s.modDie k v).cmds = s.cmds := rfl
@[simp] theorem setDie_stw (s : State) (k : Nat) (v : Die) : (s.setDie k v).stw = s.stw := rfl
@[simp] theorem modDie_stw (s : State) (k : Nat) (v : Die → Die) : (s.modDie k v).stw = s.stw := rfl
@[simp] theorem setDie_hostMem (s : State) (k : Nat) (v : Die) : (s.setDie k v).hostMem = s.hostMem := rfl
@[simp] theorem modDie_hostMem (s : State) (k : Nat) (v : Die → Die) : (s.modDie k v).hostMem = s.hostMem := rfl
@[simp] theorem setDie_bu (s : State) (k : Nat) (v : Die) : (s.setDie k v).bu = s.bu := rfl
@[simp] theorem modDie_bu (s : State) (k : Nat) (v : Die → Die) : (s.modDie k v).bu = s.bu := rfl
@[simp] theorem setDie_pwr (s : State) (k : Nat) (v : Die) : (s.setDie k v).pwr = s.pwr := rfl
@[simp] theorem modDie_pwr (s : State) (k : Nat) (v : Die → Die) : (s.modDie k v).pwr = s.pwr := rfl
@[simp] theorem setDie_sensors (s : State) (k : Nat) (v : Die) : (s.setDie k v).sensors = s.sensors := rfl
@[simp] theorem modDie_sensors (s : State) (k : Nat) (v : Die → Die) : (s.modDie k v).sensors = s.sensors := rfl
@[simp] theorem setDie_thm (s : State) (k : Nat) (v : Die) : (s.setDie k v).thm = s.thm := rfl
@[simp] theorem modDie_thm (s : State) (k : Nat) (v : Die → Die) : (s.modDie k v).thm = s.thm := rfl
@[simp] theorem setDie_exts (s : State) (k : Nat) (v : Die) : (s.setDie k v).exts = s.exts := rfl
@[simp] theorem modDie_exts (s : State) (k : Nat) (v : Die → Die) : (s.modDie k v).exts = s.exts := rfl
@[simp] theorem setDie_flt (s : State) (k : Nat) (v : Die) : (s.setDie k v).flt = s.flt := rfl
@[simp] theorem modDie_flt (s : State) (k : Nat) (v : Die → Die) : (s.modDie k v).flt = s.flt := rfl
@[simp] theorem setDie_sec (s : State) (k : Nat) (v : Die) : (s.setDie k v).sec = s.sec := rfl
@[simp] theorem modDie_sec (s : State) (k : Nat) (v : Die → Die) : (s.modDie k v).sec = s.sec := rfl
@[simp] theorem setDie_mg (s : State) (k : Nat) (v : Die) : (s.setDie k v).mg = s.mg := rfl
@[simp] theorem modDie_mg (s : State) (k : Nat) (v : Die → Die) : (s.modDie k v).mg = s.mg := rfl
@[simp] theorem setDie_free (s : State) (k : Nat) (v : Die) : (s.setDie k v).free = s.free := rfl
@[simp] theorem modDie_free (s : State) (k : Nat) (v : Die → Die) : (s.modDie k v).free = s.free := rfl
@[simp] theorem setDie_pending (s : State) (k : Nat) (v : Die) : (s.setDie k v).pending = s.pending := rfl
@[simp] theorem modDie_pending (s : State) (k : Nat) (v : Die → Die) : (s.modDie k v).pending = s.pending := rfl

theorem modExtT_eq (s : State) (k : Nat) (g : ExtT → ExtT) : s.modExtT k g = s.setExtT k (g (s.extT k)) := rfl
@[simp] theorem setExtT_tim (s : State) (k : Nat) (v : ExtT) : (s.setExtT k v).tim = s.tim := rfl
@[simp] theorem modExtT_tim (s : State) (k : Nat) (v : ExtT → ExtT) : (s.modExtT k v).tim = s.tim := rfl
@[simp] theorem setExtT_pins (s : State) (k : Nat) (v : ExtT) : (s.setExtT k v).pins = s.pins := rfl
@[simp] theorem modExtT_pins (s : State) (k : Nat) (v : ExtT → ExtT) : (s.modExtT k v).pins = s.pins := rfl
@[simp] theorem setExtT_fields (s : State) (k : Nat) (v : ExtT) : (s.setExtT k v).fields = s.fields := rfl
@[simp] theorem modExtT_fields (s : State) (k : Nat) (v : ExtT → ExtT) : (s.modExtT k v).fields = s.fields := rfl
@[simp] theorem setExtT_adcs (s : State) (k : Nat) (v : ExtT) : (s.setExtT k v).adcs = s.adcs := rfl
@[simp] theorem modExtT_adcs (s : State) (k : Nat) (v : ExtT → ExtT) : (s.modExtT k v).adcs = s.adcs := rfl
@[simp] theorem setExtT_adcTel (s : State) (k : Nat) (v : ExtT) : (s.setExtT k v).adcTel = s.adcTel := rfl
@[simp] theorem modExtT_adcTel (s : State) (k : Nat) (v : ExtT → ExtT) : (s.modExtT k v).adcTel = s.adcTel := rfl
@[simp] theorem setExtT_taints (s : State) (k : Nat) (v : ExtT) : (s.setExtT k v).taints = s.taints := rfl
@[simp] theorem modExtT_taints (s : State) (k : Nat) (v : ExtT → ExtT) : (s.modExtT k v).taints = s.taints := rfl
@[simp] theorem setExtT_acc (s : State) (k : Nat) (v : ExtT) : (s.setExtT k v).acc = s.acc := rfl
@[simp] theorem modExtT_acc (s : State) (k : Nat) (v : ExtT → ExtT) : (s.modExtT k v).acc = s.acc := rfl
@[simp] theorem setExtT_bands (s : State) (k : Nat) (v : ExtT) : (s.setExtT k v).bands = s.bands := rfl
@[simp] theorem modExtT_bands (s : State) (k : Nat) (v : ExtT → ExtT) : (s.modExtT k v).bands = s.bands := rfl
@[simp] theorem setExtT_cal (s : State) (k : Nat) (v : ExtT) : (s.setExtT k v).cal = s.cal := rfl
@[simp] theorem modExtT_cal (s : State) (k : Nat) (v : ExtT → ExtT) : (s.modExtT k v).cal = s.cal := rfl
@[simp] theorem setExtT_lcols (s : State) (k : Nat) (v : ExtT) : (s.setExtT k v).lcols = s.lcols := rfl
@[simp] theorem modExtT_lcols (s : State) (k : Nat) (v : ExtT → ExtT) : (s.modExtT k v).lcols = s.lcols := rfl
@[simp] theorem setExtT_lports (s : State) (k : Nat) (v : ExtT) : (s.setExtT k v).lports = s.lports := rfl
@[simp] theorem modExtT_lports (s : State) (k : Nat) (v : ExtT → ExtT) : (s.modExtT k v).lports = s.lports := rfl
@[simp] theorem setExtT_relays (s : State) (k : Nat) (v : ExtT) : (s.setExtT k v).relays = s.relays := rfl
@[simp] theorem modExtT_relays (s : State) (k : Nat) (v : ExtT → ExtT) : (s.modExtT k v).relays = s.relays := rfl
@[simp] theorem setExtT_light (s : State) (k : Nat) (v : ExtT) : (s.setExtT k v).light = s.light := rfl
@[simp] theorem modExtT_light (s : State) (k : Nat) (v : ExtT → ExtT) : (s.modExtT k v).light = s.light := rfl
@[simp] theorem setExtT_mons (s : State) (k : Nat) (v : ExtT) : (s.setExtT k v).mons = s.mons := rfl
@[simp] theorem modExtT_mons (s : State) (k : Nat) (v : ExtT → ExtT) : (s.modExtT k v).mons = s.mons := rfl
@[simp] theorem setExtT_monLasts (s : State) (k : Nat) (v : ExtT) : (s.setExtT k v).monLasts = s.monLasts := rfl
@[simp] theorem modExtT_monLasts (s : State) (k : Nat) (v : ExtT → ExtT) : (s.modExtT k v).monLasts = s.monLasts := rfl
@[simp] theorem setExtT_ring (s : State) (k : Nat) (v : ExtT) : (s.setExtT k v).ring = s.ring := rfl
@[simp] theorem modExtT_ring (s : State) (k : Nat) (v : ExtT → ExtT) : (s.modExtT k v).ring = s.ring := rfl
@[simp] theorem setExtT_loops (s : State) (k : Nat) (v : ExtT) : (s.setExtT k v).loops = s.loops := rfl
@[simp] theorem modExtT_loops (s : State) (k : Nat) (v : ExtT → ExtT) : (s.modExtT k v).loops = s.loops := rfl
@[simp] theorem setExtT_eng (s : State) (k : Nat) (v : ExtT) : (s.setExtT k v).eng = s.eng := rfl
@[simp] theorem modExtT_eng (s : State) (k : Nat) (v : ExtT → ExtT) : (s.modExtT k v).eng = s.eng := rfl
@[simp] theorem setExtT_streams (s : State) (k : Nat) (v : ExtT) : (s.setExtT k v).streams = s.streams := rfl
@[simp] theorem modExtT_streams (s : State) (k : Nat) (v : ExtT → ExtT) : (s.modExtT k v).streams = s.streams := rfl
@[simp] theorem setExtT_ops (s : State) (k : Nat) (v : ExtT) : (s.setExtT k v).ops = s.ops := rfl
@[simp] theorem modExtT_ops (s : State) (k : Nat) (v : ExtT → ExtT) : (s.modExtT k v).ops = s.ops := rfl
@[simp] theorem setExtT_seq (s : State) (k : Nat) (v : ExtT) : (s.setExtT k v).seq = s.seq := rfl
@[simp] theorem modExtT_seq (s : State) (k : Nat) (v : ExtT → ExtT) : (s.modExtT k v).seq = s.seq := rfl
@[simp] theorem setExtT_tokens (s : State) (k : Nat) (v : ExtT) : (s.setExtT k v).tokens = s.tokens := rfl
@[simp] theorem modExtT_tokens (s : State) (k : Nat) (v : ExtT → ExtT) : (s.modExtT k v).tokens = s.tokens := rfl
@[simp] theorem setExtT_rowMaps (s : State) (k : Nat) (v : ExtT) : (s.setExtT k v).rowMaps = s.rowMaps := rfl
@[simp] theorem modExtT_rowMaps (s : State) (k : Nat) (v : ExtT → ExtT) : (s.modExtT k v).rowMaps = s.rowMaps := rfl
@[simp] theorem setExtT_manifest (s : State) (k : Nat) (v : ExtT) : (s.setExtT k v).manifest = s.manifest := rfl
@[simp] theorem modExtT_manifest (s : State) (k : Nat) (v : ExtT → ExtT) : (s.modExtT k v).manifest = s.manifest := rfl
@[simp] theorem setExtT_cores (s : State) (k : Nat) (v : ExtT) : (s.setExtT k v).cores = s.cores := rfl
@[simp] theorem modExtT_cores (s : State) (k : Nat) (v : ExtT → ExtT) : (s.modExtT k v).cores = s.cores := rfl
@[simp] theorem setExtT_mem (s : State) (k : Nat) (v : ExtT) : (s.setExtT k v).mem = s.mem := rfl
@[simp] theorem modExtT_mem (s : State) (k : Nat) (v : ExtT → ExtT) : (s.modExtT k v).mem = s.mem := rfl
@[simp] theorem setExtT_poison (s : State) (k : Nat) (v : ExtT) : (s.setExtT k v).poison = s.poison := rfl
@[simp] theorem modExtT_poison (s : State) (k : Nat) (v : ExtT → ExtT) : (s.modExtT k v).poison = s.poison := rfl
@[simp] theorem setExtT_errs (s : State) (k : Nat) (v : ExtT) : (s.setExtT k v).errs = s.errs := rfl
@[simp] theorem modExtT_errs (s : State) (k : Nat) (v : ExtT → ExtT) : (s.modExtT k v).errs = s.errs := rfl
@[simp] theorem setExtT_units (s : State) (k : Nat) (v : ExtT) : (s.setExtT k v).units = s.units := rfl
@[simp] theorem modExtT_units (s : State) (k : Nat) (v : ExtT → ExtT) : (s.modExtT k v).units = s.units := rfl
@[simp] theorem setExtT_regions (s : State) (k : Nat) (v : ExtT) : (s.setExtT k v).regions = s.regions := rfl
@[simp] theorem modExtT_regions (s : State) (k : Nat) (v : ExtT → ExtT) : (s.modExtT k v).regions = s.regions := rfl
@[simp] theorem setExtT_memTop (s : State) (k : Nat) (v : ExtT) : (s.setExtT k v).memTop = s.memTop := rfl
@[simp] theorem modExtT_memTop (s : State) (k : Nat) (v : ExtT → ExtT) : (s.modExtT k v).memTop = s.memTop := rfl
@[simp] theorem setExtT_dir (s : State) (k : Nat) (v : ExtT) : (s.setExtT k v).dir = s.dir := rfl
@[simp] theorem modExtT_dir (s : State) (k : Nat) (v : ExtT → ExtT) : (s.modExtT k v).dir = s.dir := rfl
@[simp] theorem setExtT_ctxs (s : State) (k : Nat) (v : ExtT) : (s.setExtT k v).ctxs = s.ctxs := rfl
@[simp] theorem modExtT_ctxs (s : State) (k : Nat) (v : ExtT → ExtT) : (s.modExtT k v).ctxs = s.ctxs := rfl
@[simp] theorem setExtT_swaps (s : State) (k : Nat) (v : ExtT) : (s.setExtT k v).swaps = s.swaps := rfl
@[simp] theorem modExtT_swaps (s : State) (k : Nat) (v : ExtT → ExtT) : (s.modExtT k v).swaps = s.swaps := rfl
@[simp] theorem setExtT_wts (s : State) (k : Nat) (v : ExtT) : (s.setExtT k v).wts = s.wts := rfl
@[simp] theorem modExtT_wts (s : State) (k : Nat) (v : ExtT → ExtT) : (s.modExtT k v).wts = s.wts := rfl
@[simp] theorem setExtT_netLinks (s : State) (k : Nat) (v : ExtT) : (s.setExtT k v).netLinks = s.netLinks := rfl
@[simp] theorem modExtT_netLinks (s : State) (k : Nat) (v : ExtT → ExtT) : (s.modExtT k v).netLinks = s.netLinks := rfl
@[simp] theorem setExtT_parts (s : State) (k : Nat) (v : ExtT) : (s.setExtT k v).parts = s.parts := rfl
@[simp] theorem modExtT_parts (s : State) (k : Nat) (v : ExtT → ExtT) : (s.modExtT k v).parts = s.parts := rfl
@[simp] theorem setExtT_net (s : State) (k : Nat) (v : ExtT) : (s.setExtT k v).net = s.net := rfl
@[simp] theorem modExtT_net (s : State) (k : Nat) (v : ExtT → ExtT) : (s.modExtT k v).net = s.net := rfl
@[simp] theorem setExtT_netBufs (s : State) (k : Nat) (v : ExtT) : (s.setExtT k v).netBufs = s.netBufs := rfl
@[simp] theorem modExtT_netBufs (s : State) (k : Nat) (v : ExtT → ExtT) : (s.modExtT k v).netBufs = s.netBufs := rfl
@[simp] theorem setExtT_ports (s : State) (k : Nat) (v : ExtT) : (s.setExtT k v).ports = s.ports := rfl
@[simp] theorem modExtT_ports (s : State) (k : Nat) (v : ExtT → ExtT) : (s.modExtT k v).ports = s.ports := rfl
@[simp] theorem setExtT_link (s : State) (k : Nat) (v : ExtT) : (s.setExtT k v).link = s.link := rfl
@[simp] theorem modExtT_link (s : State) (k : Nat) (v : ExtT → ExtT) : (s.modExtT k v).link = s.link := rfl
@[simp] theorem setExtT_mbs (s : State) (k : Nat) (v : ExtT) : (s.setExtT k v).mbs = s.mbs := rfl
@[simp] theorem modExtT_mbs (s : State) (k : Nat) (v : ExtT → ExtT) : (s.modExtT k v).mbs = s.mbs := rfl
@[simp] theorem setExtT_cmds (s : State) (k : Nat) (v : ExtT) : (s.setExtT k v).cmds = s.cmds := rfl
@[simp] theorem modExtT_cmds (s : State) (k : Nat) (v : ExtT → ExtT) : (s.modExtT k v).cmds = s.cmds := rfl
@[simp] theorem setExtT_stw (s : State) (k : Nat) (v : ExtT) : (s.setExtT k v).stw = s.stw := rfl
@[simp] theorem modExtT_stw (s : State) (k : Nat) (v : ExtT → ExtT) : (s.modExtT k v).stw = s.stw := rfl
@[simp] theorem setExtT_hostMem (s : State) (k : Nat) (v : ExtT) : (s.setExtT k v).hostMem = s.hostMem := rfl
@[simp] theorem modExtT_hostMem (s : State) (k : Nat) (v : ExtT → ExtT) : (s.modExtT k v).hostMem = s.hostMem := rfl
@[simp] theorem setExtT_bu (s : State) (k : Nat) (v : ExtT) : (s.setExtT k v).bu = s.bu := rfl
@[simp] theorem modExtT_bu (s : State) (k : Nat) (v : ExtT → ExtT) : (s.modExtT k v).bu = s.bu := rfl
@[simp] theorem setExtT_pwr (s : State) (k : Nat) (v : ExtT) : (s.setExtT k v).pwr = s.pwr := rfl
@[simp] theorem modExtT_pwr (s : State) (k : Nat) (v : ExtT → ExtT) : (s.modExtT k v).pwr = s.pwr := rfl
@[simp] theorem setExtT_sensors (s : State) (k : Nat) (v : ExtT) : (s.setExtT k v).sensors = s.sensors := rfl
@[simp] theorem modExtT_sensors (s : State) (k : Nat) (v : ExtT → ExtT) : (s.modExtT k v).sensors = s.sensors := rfl
@[simp] theorem setExtT_dies (s : State) (k : Nat) (v : ExtT) : (s.setExtT k v).dies = s.dies := rfl
@[simp] theorem modExtT_dies (s : State) (k : Nat) (v : ExtT → ExtT) : (s.modExtT k v).dies = s.dies := rfl
@[simp] theorem setExtT_thm (s : State) (k : Nat) (v : ExtT) : (s.setExtT k v).thm = s.thm := rfl
@[simp] theorem modExtT_thm (s : State) (k : Nat) (v : ExtT → ExtT) : (s.modExtT k v).thm = s.thm := rfl
@[simp] theorem setExtT_flt (s : State) (k : Nat) (v : ExtT) : (s.setExtT k v).flt = s.flt := rfl
@[simp] theorem modExtT_flt (s : State) (k : Nat) (v : ExtT → ExtT) : (s.modExtT k v).flt = s.flt := rfl
@[simp] theorem setExtT_sec (s : State) (k : Nat) (v : ExtT) : (s.setExtT k v).sec = s.sec := rfl
@[simp] theorem modExtT_sec (s : State) (k : Nat) (v : ExtT → ExtT) : (s.modExtT k v).sec = s.sec := rfl
@[simp] theorem setExtT_mg (s : State) (k : Nat) (v : ExtT) : (s.setExtT k v).mg = s.mg := rfl
@[simp] theorem modExtT_mg (s : State) (k : Nat) (v : ExtT → ExtT) : (s.modExtT k v).mg = s.mg := rfl
@[simp] theorem setExtT_free (s : State) (k : Nat) (v : ExtT) : (s.setExtT k v).free = s.free := rfl
@[simp] theorem modExtT_free (s : State) (k : Nat) (v : ExtT → ExtT) : (s.modExtT k v).free = s.free := rfl
@[simp] theorem setExtT_pending (s : State) (k : Nat) (v : ExtT) : (s.setExtT k v).pending = s.pending := rfl
@[simp] theorem modExtT_pending (s : State) (k : Nat) (v : ExtT → ExtT) : (s.modExtT k v).pending = s.pending := rfl

@[simp] theorem foldl_tim {α : Type} (f : State → α → State) (l : List α) (s : State) (h : ∀ s a, (f s a).tim = s.tim) :
    (l.foldl f s).tim = s.tim := foldl_keep _ f h l s
@[simp] theorem ite_tim (c : Prop) [Decidable c] (a b : State) : (if c then a else b).tim = if c then a.tim else b.tim := apply_ite _ c a b
@[simp] theorem foldl_pins {α : Type} (f : State → α → State) (l : List α) (s : State) (h : ∀ s a, (f s a).pins = s.pins) :
    (l.foldl f s).pins = s.pins := foldl_keep _ f h l s
@[simp] theorem ite_pins (c : Prop) [Decidable c] (a b : State) : (if c then a else b).pins = if c then a.pins else b.pins := apply_ite _ c a b
@[simp] theorem foldl_fields {α : Type} (f : State → α → State) (l : List α) (s : State) (h : ∀ s a, (f s a).fields = s.fields) :
    (l.foldl f s).fields = s.fields := foldl_keep _ f h l s
@[simp] theorem ite_fields (c : Prop) [Decidable c] (a b : State) : (if c then a else b).fields = if c then a.fields else b.fields := apply_ite _ c a b
@[simp] theorem foldl_adcs {α : Type} (f : State → α → State) (l : List α) (s : State) (h : ∀ s a, (f s a).adcs = s.adcs) :
    (l.foldl f s).adcs = s.adcs := foldl_keep _ f h l s
@[simp] theorem ite_adcs (c : Prop) [Decidable c] (a b : State) : (if c then a else b).adcs = if c then a.adcs else b.adcs := apply_ite _ c a b
@[simp] theorem foldl_adcTel {α : Type} (f : State → α → State) (l : List α) (s : State) (h : ∀ s a, (f s a).adcTel = s.adcTel) :
    (l.foldl f s).adcTel = s.adcTel := foldl_keep _ f h l s
@[simp] theorem ite_adcTel (c : Prop) [Decidable c] (a b : State) : (if c then a else b).adcTel = if c then a.adcTel else b.adcTel := apply_ite _ c a b
@[simp] theorem foldl_taints {α : Type} (f : State → α → State) (l : List α) (s : State) (h : ∀ s a, (f s a).taints = s.taints) :
    (l.foldl f s).taints = s.taints := foldl_keep _ f h l s
@[simp] theorem ite_taints (c : Prop) [Decidable c] (a b : State) : (if c then a else b).taints = if c then a.taints else b.taints := apply_ite _ c a b
@[simp] theorem foldl_acc {α : Type} (f : State → α → State) (l : List α) (s : State) (h : ∀ s a, (f s a).acc = s.acc) :
    (l.foldl f s).acc = s.acc := foldl_keep _ f h l s
@[simp] theorem ite_acc (c : Prop) [Decidable c] (a b : State) : (if c then a else b).acc = if c then a.acc else b.acc := apply_ite _ c a b
@[simp] theorem foldl_bands {α : Type} (f : State → α → State) (l : List α) (s : State) (h : ∀ s a, (f s a).bands = s.bands) :
    (l.foldl f s).bands = s.bands := foldl_keep _ f h l s
@[simp] theorem ite_bands (c : Prop) [Decidable c] (a b : State) : (if c then a else b).bands = if c then a.bands else b.bands := apply_ite _ c a b
@[simp] theorem foldl_cal {α : Type} (f : State → α → State) (l : List α) (s : State) (h : ∀ s a, (f s a).cal = s.cal) :
    (l.foldl f s).cal = s.cal := foldl_keep _ f h l s
@[simp] theorem ite_cal (c : Prop) [Decidable c] (a b : State) : (if c then a else b).cal = if c then a.cal else b.cal := apply_ite _ c a b
@[simp] theorem foldl_lcols {α : Type} (f : State → α → State) (l : List α) (s : State) (h : ∀ s a, (f s a).lcols = s.lcols) :
    (l.foldl f s).lcols = s.lcols := foldl_keep _ f h l s
@[simp] theorem ite_lcols (c : Prop) [Decidable c] (a b : State) : (if c then a else b).lcols = if c then a.lcols else b.lcols := apply_ite _ c a b
@[simp] theorem foldl_lports {α : Type} (f : State → α → State) (l : List α) (s : State) (h : ∀ s a, (f s a).lports = s.lports) :
    (l.foldl f s).lports = s.lports := foldl_keep _ f h l s
@[simp] theorem ite_lports (c : Prop) [Decidable c] (a b : State) : (if c then a else b).lports = if c then a.lports else b.lports := apply_ite _ c a b
@[simp] theorem foldl_relays {α : Type} (f : State → α → State) (l : List α) (s : State) (h : ∀ s a, (f s a).relays = s.relays) :
    (l.foldl f s).relays = s.relays := foldl_keep _ f h l s
@[simp] theorem ite_relays (c : Prop) [Decidable c] (a b : State) : (if c then a else b).relays = if c then a.relays else b.relays := apply_ite _ c a b
@[simp] theorem foldl_light {α : Type} (f : State → α → State) (l : List α) (s : State) (h : ∀ s a, (f s a).light = s.light) :
    (l.foldl f s).light = s.light := foldl_keep _ f h l s
@[simp] theorem ite_light (c : Prop) [Decidable c] (a b : State) : (if c then a else b).light = if c then a.light else b.light := apply_ite _ c a b
@[simp] theorem foldl_mons {α : Type} (f : State → α → State) (l : List α) (s : State) (h : ∀ s a, (f s a).mons = s.mons) :
    (l.foldl f s).mons = s.mons := foldl_keep _ f h l s
@[simp] theorem ite_mons (c : Prop) [Decidable c] (a b : State) : (if c then a else b).mons = if c then a.mons else b.mons := apply_ite _ c a b
@[simp] theorem foldl_monLasts {α : Type} (f : State → α → State) (l : List α) (s : State) (h : ∀ s a, (f s a).monLasts = s.monLasts) :
    (l.foldl f s).monLasts = s.monLasts := foldl_keep _ f h l s
@[simp] theorem ite_monLasts (c : Prop) [Decidable c] (a b : State) : (if c then a else b).monLasts = if c then a.monLasts else b.monLasts := apply_ite _ c a b
@[simp] theorem foldl_ring {α : Type} (f : State → α → State) (l : List α) (s : State) (h : ∀ s a, (f s a).ring = s.ring) :
    (l.foldl f s).ring = s.ring := foldl_keep _ f h l s
@[simp] theorem ite_ring (c : Prop) [Decidable c] (a b : State) : (if c then a else b).ring = if c then a.ring else b.ring := apply_ite _ c a b
@[simp] theorem foldl_loops {α : Type} (f : State → α → State) (l : List α) (s : State) (h : ∀ s a, (f s a).loops = s.loops) :
    (l.foldl f s).loops = s.loops := foldl_keep _ f h l s
@[simp] theorem ite_loops (c : Prop) [Decidable c] (a b : State) : (if c then a else b).loops = if c then a.loops else b.loops := apply_ite _ c a b
@[simp] theorem foldl_eng {α : Type} (f : State → α → State) (l : List α) (s : State) (h : ∀ s a, (f s a).eng = s.eng) :
    (l.foldl f s).eng = s.eng := foldl_keep _ f h l s
@[simp] theorem ite_eng (c : Prop) [Decidable c] (a b : State) : (if c then a else b).eng = if c then a.eng else b.eng := apply_ite _ c a b
@[simp] theorem foldl_streams {α : Type} (f : State → α → State) (l : List α) (s : State) (h : ∀ s a, (f s a).streams = s.streams) :
    (l.foldl f s).streams = s.streams := foldl_keep _ f h l s
@[simp] theorem ite_streams (c : Prop) [Decidable c] (a b : State) : (if c then a else b).streams = if c then a.streams else b.streams := apply_ite _ c a b
@[simp] theorem foldl_ops {α : Type} (f : State → α → State) (l : List α) (s : State) (h : ∀ s a, (f s a).ops = s.ops) :
    (l.foldl f s).ops = s.ops := foldl_keep _ f h l s
@[simp] theorem ite_ops (c : Prop) [Decidable c] (a b : State) : (if c then a else b).ops = if c then a.ops else b.ops := apply_ite _ c a b
@[simp] theorem foldl_seq {α : Type} (f : State → α → State) (l : List α) (s : State) (h : ∀ s a, (f s a).seq = s.seq) :
    (l.foldl f s).seq = s.seq := foldl_keep _ f h l s
@[simp] theorem ite_seq (c : Prop) [Decidable c] (a b : State) : (if c then a else b).seq = if c then a.seq else b.seq := apply_ite _ c a b
@[simp] theorem foldl_tokens {α : Type} (f : State → α → State) (l : List α) (s : State) (h : ∀ s a, (f s a).tokens = s.tokens) :
    (l.foldl f s).tokens = s.tokens := foldl_keep _ f h l s
@[simp] theorem ite_tokens (c : Prop) [Decidable c] (a b : State) : (if c then a else b).tokens = if c then a.tokens else b.tokens := apply_ite _ c a b
@[simp] theorem foldl_rowMaps {α : Type} (f : State → α → State) (l : List α) (s : State) (h : ∀ s a, (f s a).rowMaps = s.rowMaps) :
    (l.foldl f s).rowMaps = s.rowMaps := foldl_keep _ f h l s
@[simp] theorem ite_rowMaps (c : Prop) [Decidable c] (a b : State) : (if c then a else b).rowMaps = if c then a.rowMaps else b.rowMaps := apply_ite _ c a b
@[simp] theorem foldl_manifest {α : Type} (f : State → α → State) (l : List α) (s : State) (h : ∀ s a, (f s a).manifest = s.manifest) :
    (l.foldl f s).manifest = s.manifest := foldl_keep _ f h l s
@[simp] theorem ite_manifest (c : Prop) [Decidable c] (a b : State) : (if c then a else b).manifest = if c then a.manifest else b.manifest := apply_ite _ c a b
@[simp] theorem foldl_cores {α : Type} (f : State → α → State) (l : List α) (s : State) (h : ∀ s a, (f s a).cores = s.cores) :
    (l.foldl f s).cores = s.cores := foldl_keep _ f h l s
@[simp] theorem ite_cores (c : Prop) [Decidable c] (a b : State) : (if c then a else b).cores = if c then a.cores else b.cores := apply_ite _ c a b
@[simp] theorem foldl_mem {α : Type} (f : State → α → State) (l : List α) (s : State) (h : ∀ s a, (f s a).mem = s.mem) :
    (l.foldl f s).mem = s.mem := foldl_keep _ f h l s
@[simp] theorem ite_mem (c : Prop) [Decidable c] (a b : State) : (if c then a else b).mem = if c then a.mem else b.mem := apply_ite _ c a b
@[simp] theorem foldl_poison {α : Type} (f : State → α → State) (l : List α) (s : State) (h : ∀ s a, (f s a).poison = s.poison) :
    (l.foldl f s).poison = s.poison := foldl_keep _ f h l s
@[simp] theorem ite_poison (c : Prop) [Decidable c] (a b : State) : (if c then a else b).poison = if c then a.poison else b.poison := apply_ite _ c a b
@[simp] theorem foldl_errs {α : Type} (f : State → α → State) (l : List α) (s : State) (h : ∀ s a, (f s a).errs = s.errs) :
    (l.foldl f s).errs = s.errs := foldl_keep _ f h l s
@[simp] theorem ite_errs (c : Prop) [Decidable c] (a b : State) : (if c then a else b).errs = if c then a.errs else b.errs := apply_ite _ c a b
@[simp] theorem foldl_units {α : Type} (f : State → α → State) (l : List α) (s : State) (h : ∀ s a, (f s a).units = s.units) :
    (l.foldl f s).units = s.units := foldl_keep _ f h l s
@[simp] theorem ite_units (c : Prop) [Decidable c] (a b : State) : (if c then a else b).units = if c then a.units else b.units := apply_ite _ c a b
@[simp] theorem foldl_regions {α : Type} (f : State → α → State) (l : List α) (s : State) (h : ∀ s a, (f s a).regions = s.regions) :
    (l.foldl f s).regions = s.regions := foldl_keep _ f h l s
@[simp] theorem ite_regions (c : Prop) [Decidable c] (a b : State) : (if c then a else b).regions = if c then a.regions else b.regions := apply_ite _ c a b
@[simp] theorem foldl_memTop {α : Type} (f : State → α → State) (l : List α) (s : State) (h : ∀ s a, (f s a).memTop = s.memTop) :
    (l.foldl f s).memTop = s.memTop := foldl_keep _ f h l s
@[simp] theorem ite_memTop (c : Prop) [Decidable c] (a b : State) : (if c then a else b).memTop = if c then a.memTop else b.memTop := apply_ite _ c a b
@[simp] theorem foldl_dir {α : Type} (f : State → α → State) (l : List α) (s : State) (h : ∀ s a, (f s a).dir = s.dir) :
    (l.foldl f s).dir = s.dir := foldl_keep _ f h l s
@[simp] theorem ite_dir (c : Prop) [Decidable c] (a b : State) : (if c then a else b).dir = if c then a.dir else b.dir := apply_ite _ c a b
@[simp] theorem foldl_ctxs {α : Type} (f : State → α → State) (l : List α) (s : State) (h : ∀ s a, (f s a).ctxs = s.ctxs) :
    (l.foldl f s).ctxs = s.ctxs := foldl_keep _ f h l s
@[simp] theorem ite_ctxs (c : Prop) [Decidable c] (a b : State) : (if c then a else b).ctxs = if c then a.ctxs else b.ctxs := apply_ite _ c a b
@[simp] theorem foldl_swaps {α : Type} (f : State → α → State) (l : List α) (s : State) (h : ∀ s a, (f s a).swaps = s.swaps) :
    (l.foldl f s).swaps = s.swaps := foldl_keep _ f h l s
@[simp] theorem ite_swaps (c : Prop) [Decidable c] (a b : State) : (if c then a else b).swaps = if c then a.swaps else b.swaps := apply_ite _ c a b
@[simp] theorem foldl_wts {α : Type} (f : State → α → State) (l : List α) (s : State) (h : ∀ s a, (f s a).wts = s.wts) :
    (l.foldl f s).wts = s.wts := foldl_keep _ f h l s
@[simp] theorem ite_wts (c : Prop) [Decidable c] (a b : State) : (if c then a else b).wts = if c then a.wts else b.wts := apply_ite _ c a b
@[simp] theorem foldl_netLinks {α : Type} (f : State → α → State) (l : List α) (s : State) (h : ∀ s a, (f s a).netLinks = s.netLinks) :
    (l.foldl f s).netLinks = s.netLinks := foldl_keep _ f h l s
@[simp] theorem ite_netLinks (c : Prop) [Decidable c] (a b : State) : (if c then a else b).netLinks = if c then a.netLinks else b.netLinks := apply_ite _ c a b
@[simp] theorem foldl_parts {α : Type} (f : State → α → State) (l : List α) (s : State) (h : ∀ s a, (f s a).parts = s.parts) :
    (l.foldl f s).parts = s.parts := foldl_keep _ f h l s
@[simp] theorem ite_parts (c : Prop) [Decidable c] (a b : State) : (if c then a else b).parts = if c then a.parts else b.parts := apply_ite _ c a b
@[simp] theorem foldl_net {α : Type} (f : State → α → State) (l : List α) (s : State) (h : ∀ s a, (f s a).net = s.net) :
    (l.foldl f s).net = s.net := foldl_keep _ f h l s
@[simp] theorem ite_net (c : Prop) [Decidable c] (a b : State) : (if c then a else b).net = if c then a.net else b.net := apply_ite _ c a b
@[simp] theorem foldl_netBufs {α : Type} (f : State → α → State) (l : List α) (s : State) (h : ∀ s a, (f s a).netBufs = s.netBufs) :
    (l.foldl f s).netBufs = s.netBufs := foldl_keep _ f h l s
@[simp] theorem ite_netBufs (c : Prop) [Decidable c] (a b : State) : (if c then a else b).netBufs = if c then a.netBufs else b.netBufs := apply_ite _ c a b
@[simp] theorem foldl_ports {α : Type} (f : State → α → State) (l : List α) (s : State) (h : ∀ s a, (f s a).ports = s.ports) :
    (l.foldl f s).ports = s.ports := foldl_keep _ f h l s
@[simp] theorem ite_ports (c : Prop) [Decidable c] (a b : State) : (if c then a else b).ports = if c then a.ports else b.ports := apply_ite _ c a b
@[simp] theorem foldl_link {α : Type} (f : State → α → State) (l : List α) (s : State) (h : ∀ s a, (f s a).link = s.link) :
    (l.foldl f s).link = s.link := foldl_keep _ f h l s
@[simp] theorem ite_link (c : Prop) [Decidable c] (a b : State) : (if c then a else b).link = if c then a.link else b.link := apply_ite _ c a b
@[simp] theorem foldl_mbs {α : Type} (f : State → α → State) (l : List α) (s : State) (h : ∀ s a, (f s a).mbs = s.mbs) :
    (l.foldl f s).mbs = s.mbs := foldl_keep _ f h l s
@[simp] theorem ite_mbs (c : Prop) [Decidable c] (a b : State) : (if c then a else b).mbs = if c then a.mbs else b.mbs := apply_ite _ c a b
@[simp] theorem foldl_cmds {α : Type} (f : State → α → State) (l : List α) (s : State) (h : ∀ s a, (f s a).cmds = s.cmds) :
    (l.foldl f s).cmds = s.cmds := foldl_keep _ f h l s
@[simp] theorem ite_cmds (c : Prop) [Decidable c] (a b : State) : (if c then a else b).cmds = if c then a.cmds else b.cmds := apply_ite _ c a b
@[simp] theorem foldl_stw {α : Type} (f : State → α → State) (l : List α) (s : State) (h : ∀ s a, (f s a).stw = s.stw) :
    (l.foldl f s).stw = s.stw := foldl_keep _ f h l s
@[simp] theorem ite_stw (c : Prop) [Decidable c] (a b : State) : (if c then a else b).stw = if c then a.stw else b.stw := apply_ite _ c a b
@[simp] theorem foldl_hostMem {α : Type} (f : State → α → State) (l : List α) (s : State) (h : ∀ s a, (f s a).hostMem = s.hostMem) :
    (l.foldl f s).hostMem = s.hostMem := foldl_keep _ f h l s
@[simp] theorem ite_hostMem (c : Prop) [Decidable c] (a b : State) : (if c then a else b).hostMem = if c then a.hostMem else b.hostMem := apply_ite _ c a b
@[simp] theorem foldl_bu {α : Type} (f : State → α → State) (l : List α) (s : State) (h : ∀ s a, (f s a).bu = s.bu) :
    (l.foldl f s).bu = s.bu := foldl_keep _ f h l s
@[simp] theorem ite_bu (c : Prop) [Decidable c] (a b : State) : (if c then a else b).bu = if c then a.bu else b.bu := apply_ite _ c a b
@[simp] theorem foldl_pwr {α : Type} (f : State → α → State) (l : List α) (s : State) (h : ∀ s a, (f s a).pwr = s.pwr) :
    (l.foldl f s).pwr = s.pwr := foldl_keep _ f h l s
@[simp] theorem ite_pwr (c : Prop) [Decidable c] (a b : State) : (if c then a else b).pwr = if c then a.pwr else b.pwr := apply_ite _ c a b
@[simp] theorem foldl_sensors {α : Type} (f : State → α → State) (l : List α) (s : State) (h : ∀ s a, (f s a).sensors = s.sensors) :
    (l.foldl f s).sensors = s.sensors := foldl_keep _ f h l s
@[simp] theorem ite_sensors (c : Prop) [Decidable c] (a b : State) : (if c then a else b).sensors = if c then a.sensors else b.sensors := apply_ite _ c a b
@[simp] theorem foldl_dies {α : Type} (f : State → α → State) (l : List α) (s : State) (h : ∀ s a, (f s a).dies = s.dies) :
    (l.foldl f s).dies = s.dies := foldl_keep _ f h l s
@[simp] theorem ite_dies (c : Prop) [Decidable c] (a b : State) : (if c then a else b).dies = if c then a.dies else b.dies := apply_ite _ c a b
@[simp] theorem foldl_thm {α : Type} (f : State → α → State) (l : List α) (s : State) (h : ∀ s a, (f s a).thm = s.thm) :
    (l.foldl f s).thm = s.thm := foldl_keep _ f h l s
@[simp] theorem ite_thm (c : Prop) [Decidable c] (a b : State) : (if c then a else b).thm = if c then a.thm else b.thm := apply_ite _ c a b
@[simp] theorem foldl_exts {α : Type} (f : State → α → State) (l : List α) (s : State) (h : ∀ s a, (f s a).exts = s.exts) :
    (l.foldl f s).exts = s.exts := foldl_keep _ f h l s
@[simp] theorem ite_exts (c : Prop) [Decidable c] (a b : State) : (if c then a else b).exts = if c then a.exts else b.exts := apply_ite _ c a b
@[simp] theorem foldl_flt {α : Type} (f : State → α → State) (l : List α) (s : State) (h : ∀ s a, (f s a).flt = s.flt) :
    (l.foldl f s).flt = s.flt := foldl_keep _ f h l s
@[simp] theorem ite_flt (c : Prop) [Decidable c] (a b : State) : (if c then a else b).flt = if c then a.flt else b.flt := apply_ite _ c a b
@[simp] theorem foldl_sec {α : Type} (f : State → α → State) (l : List α) (s : State) (h : ∀ s a, (f s a).sec = s.sec) :
    (l.foldl f s).sec = s.sec := foldl_keep _ f h l s
@[simp] theorem ite_sec (c : Prop) [Decidable c] (a b : State) : (if c then a else b).sec = if c then a.sec else b.sec := apply_ite _ c a b
@[simp] theorem foldl_mg {α : Type} (f : State → α → State) (l : List α) (s : State) (h : ∀ s a, (f s a).mg = s.mg) :
    (l.foldl f s).mg = s.mg := foldl_keep _ f h l s
@[simp] theorem ite_mg (c : Prop) [Decidable c] (a b : State) : (if c then a else b).mg = if c then a.mg else b.mg := apply_ite _ c a b
@[simp] theorem foldl_free {α : Type} (f : State → α → State) (l : List α) (s : State) (h : ∀ s a, (f s a).free = s.free) :
    (l.foldl f s).free = s.free := foldl_keep _ f h l s
@[simp] theorem ite_free (c : Prop) [Decidable c] (a b : State) : (if c then a else b).free = if c then a.free else b.free := apply_ite _ c a b
@[simp] theorem foldl_pending {α : Type} (f : State → α → State) (l : List α) (s : State) (h : ∀ s a, (f s a).pending = s.pending) :
    (l.foldl f s).pending = s.pending := foldl_keep _ f h l s
@[simp] theorem ite_pending (c : Prop) [Decidable c] (a b : State) : (if c then a else b).pending = if c then a.pending else b.pending := apply_ite _ c a b
@[simp] theorem modMemTop_tim (s : State) (v : MemTop → MemTop) : (s.modMemTop v).tim = s.tim := rfl
@[simp] theorem modMemTop_pins (s : State) (v : MemTop → MemTop) : (s.modMemTop v).pins = s.pins := rfl
@[simp] theorem modMemTop_fields (s : State) (v : MemTop → MemTop) : (s.modMemTop v).fields = s.fields := rfl
@[simp] theorem modMemTop_adcs (s : State) (v : MemTop → MemTop) : (s.modMemTop v).adcs = s.adcs := rfl
@[simp] theorem modMemTop_adcTel (s : State) (v : MemTop → MemTop) : (s.modMemTop v).adcTel = s.adcTel := rfl
@[simp] theorem modMemTop_taints (s : State) (v : MemTop → MemTop) : (s.modMemTop v).taints = s.taints := rfl
@[simp] theorem modMemTop_acc (s : State) (v : MemTop → MemTop) : (s.modMemTop v).acc = s.acc := rfl
@[simp] theorem modMemTop_bands (s : State) (v : MemTop → MemTop) : (s.modMemTop v).bands = s.bands := rfl
@[simp] theorem modMemTop_cal (s : State) (v : MemTop → MemTop) : (s.modMemTop v).cal = s.cal := rfl
@[simp] theorem modMemTop_lcols (s : State) (v : MemTop → MemTop) : (s.modMemTop v).lcols = s.lcols := rfl
@[simp] theorem modMemTop_lports (s : State) (v : MemTop → MemTop) : (s.modMemTop v).lports = s.lports := rfl
@[simp] theorem modMemTop_relays (s : State) (v : MemTop → MemTop) : (s.modMemTop v).relays = s.relays := rfl
@[simp] theorem modMemTop_light (s : State) (v : MemTop → MemTop) : (s.modMemTop v).light = s.light := rfl
@[simp] theorem modMemTop_mons (s : State) (v : MemTop → MemTop) : (s.modMemTop v).mons = s.mons := rfl
@[simp] theorem modMemTop_monLasts (s : State) (v : MemTop → MemTop) : (s.modMemTop v).monLasts = s.monLasts := rfl
@[simp] theorem modMemTop_ring (s : State) (v : MemTop → MemTop) : (s.modMemTop v).ring = s.ring := rfl
@[simp] theorem modMemTop_loops (s : State) (v : MemTop → MemTop) : (s.modMemTop v).loops = s.loops := rfl
@[simp] theorem modMemTop_eng (s : State) (v : MemTop → MemTop) : (s.modMemTop v).eng = s.eng := rfl
@[simp] theorem modMemTop_streams (s : State) (v : MemTop → MemTop) : (s.modMemTop v).streams = s.streams := rfl
@[simp] theorem modMemTop_ops (s : State) (v : MemTop → MemTop) : (s.modMemTop v).ops = s.ops := rfl
@[simp] theorem modMemTop_seq (s : State) (v : MemTop → MemTop) : (s.modMemTop v).seq = s.seq := rfl
@[simp] theorem modMemTop_tokens (s : State) (v : MemTop → MemTop) : (s.modMemTop v).tokens = s.tokens := rfl
@[simp] theorem modMemTop_rowMaps (s : State) (v : MemTop → MemTop) : (s.modMemTop v).rowMaps = s.rowMaps := rfl
@[simp] theorem modMemTop_manifest (s : State) (v : MemTop → MemTop) : (s.modMemTop v).manifest = s.manifest := rfl
@[simp] theorem modMemTop_cores (s : State) (v : MemTop → MemTop) : (s.modMemTop v).cores = s.cores := rfl
@[simp] theorem modMemTop_mem (s : State) (v : MemTop → MemTop) : (s.modMemTop v).mem = s.mem := rfl
@[simp] theorem modMemTop_poison (s : State) (v : MemTop → MemTop) : (s.modMemTop v).poison = s.poison := rfl
@[simp] theorem modMemTop_errs (s : State) (v : MemTop → MemTop) : (s.modMemTop v).errs = s.errs := rfl
@[simp] theorem modMemTop_units (s : State) (v : MemTop → MemTop) : (s.modMemTop v).units = s.units := rfl
@[simp] theorem modMemTop_regions (s : State) (v : MemTop → MemTop) : (s.modMemTop v).regions = s.regions := rfl
@[simp] theorem modMemTop_dir (s : State) (v : MemTop → MemTop) : (s.modMemTop v).dir = s.dir := rfl
@[simp] theorem modMemTop_ctxs (s : State) (v : MemTop → MemTop) : (s.modMemTop v).ctxs = s.ctxs := rfl
@[simp] theorem modMemTop_swaps (s : State) (v : MemTop → MemTop) : (s.modMemTop v).swaps = s.swaps := rfl
@[simp] theorem modMemTop_wts (s : State) (v : MemTop → MemTop) : (s.modMemTop v).wts = s.wts := rfl
@[simp] theorem modMemTop_netLinks (s : State) (v : MemTop → MemTop) : (s.modMemTop v).netLinks = s.netLinks := rfl
@[simp] theorem modMemTop_parts (s : State) (v : MemTop → MemTop) : (s.modMemTop v).parts = s.parts := rfl
@[simp] theorem modMemTop_net (s : State) (v : MemTop → MemTop) : (s.modMemTop v).net = s.net := rfl
@[simp] theorem modMemTop_netBufs (s : State) (v : MemTop → MemTop) : (s.modMemTop v).netBufs = s.netBufs := rfl
@[simp] theorem modMemTop_ports (s : State) (v : MemTop → MemTop) : (s.modMemTop v).ports = s.ports := rfl
@[simp] theorem modMemTop_link (s : State) (v : MemTop → MemTop) : (s.modMemTop v).link = s.link := rfl
@[simp] theorem modMemTop_mbs (s : State) (v : MemTop → MemTop) : (s.modMemTop v).mbs = s.mbs := rfl
@[simp] theorem modMemTop_cmds (s : State) (v : MemTop → MemTop) : (s.modMemTop v).cmds = s.cmds := rfl
@[simp] theorem modMemTop_stw (s : State) (v : MemTop → MemTop) : (s.modMemTop v).stw = s.stw := rfl
@[simp] theorem modMemTop_hostMem (s : State) (v : MemTop → MemTop) : (s.modMemTop v).hostMem = s.hostMem := rfl
@[simp] theorem modMemTop_bu (s : State) (v : MemTop → MemTop) : (s.modMemTop v).bu = s.bu := rfl
@[simp] theorem modMemTop_pwr (s : State) (v : MemTop → MemTop) : (s.modMemTop v).pwr = s.pwr := rfl
@[simp] theorem modMemTop_sensors (s : State) (v : MemTop → MemTop) : (s.modMemTop v).sensors = s.sensors := rfl
@[simp] theorem modMemTop_dies (s : State) (v : MemTop → MemTop) : (s.modMemTop v).dies = s.dies := rfl
@[simp] theorem modMemTop_thm (s : State) (v : MemTop → MemTop) : (s.modMemTop v).thm = s.thm := rfl
@[simp] theorem modMemTop_exts (s : State) (v : MemTop → MemTop) : (s.modMemTop v).exts = s.exts := rfl
@[simp] theorem modMemTop_flt (s : State) (v : MemTop → MemTop) : (s.modMemTop v).flt = s.flt := rfl
@[simp] theorem modMemTop_sec (s : State) (v : MemTop → MemTop) : (s.modMemTop v).sec = s.sec := rfl
@[simp] theorem modMemTop_mg (s : State) (v : MemTop → MemTop) : (s.modMemTop v).mg = s.mg := rfl
@[simp] theorem modMemTop_free (s : State) (v : MemTop → MemTop) : (s.modMemTop v).free = s.free := rfl
@[simp] theorem modMemTop_pending (s : State) (v : MemTop → MemTop) : (s.modMemTop v).pending = s.pending := rfl
@[simp] theorem modPins_tim (s : State) (v : Pins → Pins) : (s.modPins v).tim = s.tim := rfl
@[simp] theorem modPins_fields (s : State) (v : Pins → Pins) : (s.modPins v).fields = s.fields := rfl
@[simp] theorem modPins_adcs (s : State) (v : Pins → Pins) : (s.modPins v).adcs = s.adcs := rfl
@[simp] theorem modPins_adcTel (s : State) (v : Pins → Pins) : (s.modPins v).adcTel = s.adcTel := rfl
@[simp] theorem modPins_taints (s : State) (v : Pins → Pins) : (s.modPins v).taints = s.taints := rfl
@[simp] theorem modPins_acc (s : State) (v : Pins → Pins) : (s.modPins v).acc = s.acc := rfl
@[simp] theorem modPins_bands (s : State) (v : Pins → Pins) : (s.modPins v).bands = s.bands := rfl
@[simp] theorem modPins_cal (s : State) (v : Pins → Pins) : (s.modPins v).cal = s.cal := rfl
@[simp] theorem modPins_lcols (s : State) (v : Pins → Pins) : (s.modPins v).lcols = s.lcols := rfl
@[simp] theorem modPins_lports (s : State) (v : Pins → Pins) : (s.modPins v).lports = s.lports := rfl
@[simp] theorem modPins_relays (s : State) (v : Pins → Pins) : (s.modPins v).relays = s.relays := rfl
@[simp] theorem modPins_light (s : State) (v : Pins → Pins) : (s.modPins v).light = s.light := rfl
@[simp] theorem modPins_mons (s : State) (v : Pins → Pins) : (s.modPins v).mons = s.mons := rfl
@[simp] theorem modPins_monLasts (s : State) (v : Pins → Pins) : (s.modPins v).monLasts = s.monLasts := rfl
@[simp] theorem modPins_ring (s : State) (v : Pins → Pins) : (s.modPins v).ring = s.ring := rfl
@[simp] theorem modPins_loops (s : State) (v : Pins → Pins) : (s.modPins v).loops = s.loops := rfl
@[simp] theorem modPins_eng (s : State) (v : Pins → Pins) : (s.modPins v).eng = s.eng := rfl
@[simp] theorem modPins_streams (s : State) (v : Pins → Pins) : (s.modPins v).streams = s.streams := rfl
@[simp] theorem modPins_ops (s : State) (v : Pins → Pins) : (s.modPins v).ops = s.ops := rfl
@[simp] theorem modPins_seq (s : State) (v : Pins → Pins) : (s.modPins v).seq = s.seq := rfl
@[simp] theorem modPins_tokens (s : State) (v : Pins → Pins) : (s.modPins v).tokens = s.tokens := rfl
@[simp] theorem modPins_rowMaps (s : State) (v : Pins → Pins) : (s.modPins v).rowMaps = s.rowMaps := rfl
@[simp] theorem modPins_manifest (s : State) (v : Pins → Pins) : (s.modPins v).manifest = s.manifest := rfl
@[simp] theorem modPins_cores (s : State) (v : Pins → Pins) : (s.modPins v).cores = s.cores := rfl
@[simp] theorem modPins_mem (s : State) (v : Pins → Pins) : (s.modPins v).mem = s.mem := rfl
@[simp] theorem modPins_poison (s : State) (v : Pins → Pins) : (s.modPins v).poison = s.poison := rfl
@[simp] theorem modPins_errs (s : State) (v : Pins → Pins) : (s.modPins v).errs = s.errs := rfl
@[simp] theorem modPins_units (s : State) (v : Pins → Pins) : (s.modPins v).units = s.units := rfl
@[simp] theorem modPins_regions (s : State) (v : Pins → Pins) : (s.modPins v).regions = s.regions := rfl
@[simp] theorem modPins_memTop (s : State) (v : Pins → Pins) : (s.modPins v).memTop = s.memTop := rfl
@[simp] theorem modPins_dir (s : State) (v : Pins → Pins) : (s.modPins v).dir = s.dir := rfl
@[simp] theorem modPins_ctxs (s : State) (v : Pins → Pins) : (s.modPins v).ctxs = s.ctxs := rfl
@[simp] theorem modPins_swaps (s : State) (v : Pins → Pins) : (s.modPins v).swaps = s.swaps := rfl
@[simp] theorem modPins_wts (s : State) (v : Pins → Pins) : (s.modPins v).wts = s.wts := rfl
@[simp] theorem modPins_netLinks (s : State) (v : Pins → Pins) : (s.modPins v).netLinks = s.netLinks := rfl
@[simp] theorem modPins_parts (s : State) (v : Pins → Pins) : (s.modPins v).parts = s.parts := rfl
@[simp] theorem modPins_net (s : State) (v : Pins → Pins) : (s.modPins v).net = s.net := rfl
@[simp] theorem modPins_netBufs (s : State) (v : Pins → Pins) : (s.modPins v).netBufs = s.netBufs := rfl
@[simp] theorem modPins_ports (s : State) (v : Pins → Pins) : (s.modPins v).ports = s.ports := rfl
@[simp] theorem modPins_link (s : State) (v : Pins → Pins) : (s.modPins v).link = s.link := rfl
@[simp] theorem modPins_mbs (s : State) (v : Pins → Pins) : (s.modPins v).mbs = s.mbs := rfl
@[simp] theorem modPins_cmds (s : State) (v : Pins → Pins) : (s.modPins v).cmds = s.cmds := rfl
@[simp] theorem modPins_stw (s : State) (v : Pins → Pins) : (s.modPins v).stw = s.stw := rfl
@[simp] theorem modPins_hostMem (s : State) (v : Pins → Pins) : (s.modPins v).hostMem = s.hostMem := rfl
@[simp] theorem modPins_bu (s : State) (v : Pins → Pins) : (s.modPins v).bu = s.bu := rfl
@[simp] theorem modPins_pwr (s : State) (v : Pins → Pins) : (s.modPins v).pwr = s.pwr := rfl
@[simp] theorem modPins_sensors (s : State) (v : Pins → Pins) : (s.modPins v).sensors = s.sensors := rfl
@[simp] theorem modPins_dies (s : State) (v : Pins → Pins) : (s.modPins v).dies = s.dies := rfl
@[simp] theorem modPins_thm (s : State) (v : Pins → Pins) : (s.modPins v).thm = s.thm := rfl
@[simp] theorem modPins_exts (s : State) (v : Pins → Pins) : (s.modPins v).exts = s.exts := rfl
@[simp] theorem modPins_flt (s : State) (v : Pins → Pins) : (s.modPins v).flt = s.flt := rfl
@[simp] theorem modPins_sec (s : State) (v : Pins → Pins) : (s.modPins v).sec = s.sec := rfl
@[simp] theorem modPins_mg (s : State) (v : Pins → Pins) : (s.modPins v).mg = s.mg := rfl
@[simp] theorem modPins_free (s : State) (v : Pins → Pins) : (s.modPins v).free = s.free := rfl
@[simp] theorem modPins_pending (s : State) (v : Pins → Pins) : (s.modPins v).pending = s.pending := rfl
@[simp] theorem modDir_tim (s : State) (v : Tab Dir → Tab Dir) : (s.modDir v).tim = s.tim := rfl
@[simp] theorem modDir_pins (s : State) (v : Tab Dir → Tab Dir) : (s.modDir v).pins = s.pins := rfl
@[simp] theorem modDir_fields (s : State) (v : Tab Dir → Tab Dir) : (s.modDir v).fields = s.fields := rfl
@[simp] theorem modDir_adcs (s : State) (v : Tab Dir → Tab Dir) : (s.modDir v).adcs = s.adcs := rfl
@[simp] theorem modDir_adcTel (s : State) (v : Tab Dir → Tab Dir) : (s.modDir v).adcTel = s.adcTel := rfl
@[simp] theorem modDir_taints (s : State) (v : Tab Dir → Tab Dir) : (s.modDir v).taints = s.taints := rfl
@[simp] theorem modDir_acc (s : State) (v : Tab Dir → Tab Dir) : (s.modDir v).acc = s.acc := rfl
@[simp] theorem modDir_bands (s : State) (v : Tab Dir → Tab Dir) : (s.modDir v).bands = s.bands := rfl
@[simp] theorem modDir_cal (s : State) (v : Tab Dir → Tab Dir) : (s.modDir v).cal = s.cal := rfl
@[simp] theorem modDir_lcols (s : State) (v : Tab Dir → Tab Dir) : (s.modDir v).lcols = s.lcols := rfl
@[simp] theorem modDir_lports (s : State) (v : Tab Dir → Tab Dir) : (s.modDir v).lports = s.lports := rfl
@[simp] theorem modDir_relays (s : State) (v : Tab Dir → Tab Dir) : (s.modDir v).relays = s.relays := rfl
@[simp] theorem modDir_light (s : State) (v : Tab Dir → Tab Dir) : (s.modDir v).light = s.light := rfl
@[simp] theorem modDir_mons (s : State) (v : Tab Dir → Tab Dir) : (s.modDir v).mons = s.mons := rfl
@[simp] theorem modDir_monLasts (s : State) (v : Tab Dir → Tab Dir) : (s.modDir v).monLasts = s.monLasts := rfl
@[simp] theorem modDir_ring (s : State) (v : Tab Dir → Tab Dir) : (s.modDir v).ring = s.ring := rfl
@[simp] theorem modDir_loops (s : State) (v : Tab Dir → Tab Dir) : (s.modDir v).loops = s.loops := rfl
@[simp] theorem modDir_eng (s : State) (v : Tab Dir → Tab Dir) : (s.modDir v).eng = s.eng := rfl
@[simp] theorem modDir_streams (s : State) (v : Tab Dir → Tab Dir) : (s.modDir v).streams = s.streams := rfl
@[simp] theorem modDir_ops (s : State) (v : Tab Dir → Tab Dir) : (s.modDir v).ops = s.ops := rfl
@[simp] theorem modDir_seq (s : State) (v : Tab Dir → Tab Dir) : (s.modDir v).seq = s.seq := rfl
@[simp] theorem modDir_tokens (s : State) (v : Tab Dir → Tab Dir) : (s.modDir v).tokens = s.tokens := rfl
@[simp] theorem modDir_rowMaps (s : State) (v : Tab Dir → Tab Dir) : (s.modDir v).rowMaps = s.rowMaps := rfl
@[simp] theorem modDir_manifest (s : State) (v : Tab Dir → Tab Dir) : (s.modDir v).manifest = s.manifest := rfl
@[simp] theorem modDir_cores (s : State) (v : Tab Dir → Tab Dir) : (s.modDir v).cores = s.cores := rfl
@[simp] theorem modDir_mem (s : State) (v : Tab Dir → Tab Dir) : (s.modDir v).mem = s.mem := rfl
@[simp] theorem modDir_poison (s : State) (v : Tab Dir → Tab Dir) : (s.modDir v).poison = s.poison := rfl
@[simp] theorem modDir_errs (s : State) (v : Tab Dir → Tab Dir) : (s.modDir v).errs = s.errs := rfl
@[simp] theorem modDir_units (s : State) (v : Tab Dir → Tab Dir) : (s.modDir v).units = s.units := rfl
@[simp] theorem modDir_regions (s : State) (v : Tab Dir → Tab Dir) : (s.modDir v).regions = s.regions := rfl
@[simp] theorem modDir_memTop (s : State) (v : Tab Dir → Tab Dir) : (s.modDir v).memTop = s.memTop := rfl
@[simp] theorem modDir_ctxs (s : State) (v : Tab Dir → Tab Dir) : (s.modDir v).ctxs = s.ctxs := rfl
@[simp] theorem modDir_swaps (s : State) (v : Tab Dir → Tab Dir) : (s.modDir v).swaps = s.swaps := rfl
@[simp] theorem modDir_wts (s : State) (v : Tab Dir → Tab Dir) : (s.modDir v).wts = s.wts := rfl
@[simp] theorem modDir_netLinks (s : State) (v : Tab Dir → Tab Dir) : (s.modDir v).netLinks = s.netLinks := rfl
@[simp] theorem modDir_parts (s : State) (v : Tab Dir → Tab Dir) : (s.modDir v).parts = s.parts := rfl
@[simp] theorem modDir_net (s : State) (v : Tab Dir → Tab Dir) : (s.modDir v).net = s.net := rfl
@[simp] theorem modDir_netBufs (s : State) (v : Tab Dir → Tab Dir) : (s.modDir v).netBufs = s.netBufs := rfl
@[simp] theorem modDir_ports (s : State) (v : Tab Dir → Tab Dir) : (s.modDir v).ports = s.ports := rfl
@[simp] theorem modDir_link (s : State) (v : Tab Dir → Tab Dir) : (s.modDir v).link = s.link := rfl
@[simp] theorem modDir_mbs (s : State) (v : Tab Dir → Tab Dir) : (s.modDir v).mbs = s.mbs := rfl
@[simp] theorem modDir_cmds (s : State) (v : Tab Dir → Tab Dir) : (s.modDir v).cmds = s.cmds := rfl
@[simp] theorem modDir_stw (s : State) (v : Tab Dir → Tab Dir) : (s.modDir v).stw = s.stw := rfl
@[simp] theorem modDir_hostMem (s : State) (v : Tab Dir → Tab Dir) : (s.modDir v).hostMem = s.hostMem := rfl
@[simp] theorem modDir_bu (s : State) (v : Tab Dir → Tab Dir) : (s.modDir v).bu = s.bu := rfl
@[simp] theorem modDir_pwr (s : State) (v : Tab Dir → Tab Dir) : (s.modDir v).pwr = s.pwr := rfl
@[simp] theorem modDir_sensors (s : State) (v : Tab Dir → Tab Dir) : (s.modDir v).sensors = s.sensors := rfl
@[simp] theorem modDir_dies (s : State) (v : Tab Dir → Tab Dir) : (s.modDir v).dies = s.dies := rfl
@[simp] theorem modDir_thm (s : State) (v : Tab Dir → Tab Dir) : (s.modDir v).thm = s.thm := rfl
@[simp] theorem modDir_exts (s : State) (v : Tab Dir → Tab Dir) : (s.modDir v).exts = s.exts := rfl
@[simp] theorem modDir_flt (s : State) (v : Tab Dir → Tab Dir) : (s.modDir v).flt = s.flt := rfl
@[simp] theorem modDir_sec (s : State) (v : Tab Dir → Tab Dir) : (s.modDir v).sec = s.sec := rfl
@[simp] theorem modDir_mg (s : State) (v : Tab Dir → Tab Dir) : (s.modDir v).mg = s.mg := rfl
@[simp] theorem modDir_free (s : State) (v : Tab Dir → Tab Dir) : (s.modDir v).free = s.free := rfl
@[simp] theorem modDir_pending (s : State) (v : Tab Dir → Tab Dir) : (s.modDir v).pending = s.pending := rfl

end Sys2Proof.Machine.State
end

