-- ==== Sys2Proof/Laws/Frames.lean ====
section
/-! SUPPORT. What the shared operations leave unchanged: one lemma per operation and component of State, so that a proof never unfolds an
operation only to see that it does not touch a component. -/

namespace Sys2Proof.Machine

open Sys2Proof State

/-- A fold whose steps keep the beat number keeps it. -/
theorem foldl_tim_beat {α : Type} (f : State → α → State) (l : List α) (s : State) (h : ∀ s a, (f s a).tim.beat = s.tim.beat) :
    (l.foldl f s).tim.beat = s.tim.beat := foldl_keep (fun s => s.tim.beat) f h l s

/-! ### `tim` -/

@[simp] theorem hostWrite_tim (a : Nat) (l : List Byte) (s : State) : (hostWrite a l s).tim = s.tim := by
  unfold hostWrite
  repeat' first | with_reducible rfl | split | intro _ | (simp; done) | rw [foldl_tim] | simp

@[simp] theorem msix_tim (v : Nat) (s : State) : (msix v s).tim = s.tim := by
  unfold msix
  repeat' first | with_reducible rfl | split | intro _ | (simp; done) | rw [foldl_tim] | simp

@[simp] theorem eventTo_tim (code : Nat) (items : List Byte) (s : State) (m : Nat) : (eventTo code items s m).tim = s.tim := by
  unfold eventTo
  repeat' first | with_reducible rfl | split | intro _ | (simp; done) | rw [foldl_tim] | simp

@[simp] theorem post_tim (code : Nat) (items : List Byte) (s : State) : (post code items s).tim = s.tim := by
  unfold post
  repeat' first | with_reducible rfl | split | intro _ | (simp; done) | rw [foldl_tim] | simp

@[simp] theorem postOne_tim (m code : Nat) (items : List Byte) (s : State) : (postOne m code items s).tim = s.tim := by
  unfold postOne
  repeat' first | with_reducible rfl | split | intro _ | (simp; done) | rw [foldl_tim] | simp

@[simp] theorem raiseAlert_tim (i : Nat) (s : State) : (raiseAlert i s).tim = s.tim := by
  unfold raiseAlert
  repeat' first | with_reducible rfl | split | intro _ | (simp; done) | rw [foldl_tim] | simp

@[simp] theorem buFault_tim (step code detail : Nat) (s : State) : (buFault step code detail s).tim = s.tim := by
  unfold buFault
  repeat' first | with_reducible rfl | split | intro _ | (simp; done) | rw [foldl_tim] | simp

@[simp] theorem modCmd_tim (k : Nat) (g : Cmd → Cmd) (s : State) : (modCmd k g s).tim = s.tim := by
  unfold modCmd
  repeat' first | with_reducible rfl | split | intro _ | (simp; done) | rw [foldl_tim] | simp

@[simp] theorem finishCmd_tim (k : Nat) (r : Reply) (s : State) : (finishCmd k r s).tim = s.tim := by
  unfold finishCmd
  repeat' first | with_reducible rfl | split | intro _ | (simp; done) | rw [foldl_tim] | simp

@[simp] theorem putWord_tim (s : State) (w : Nat) (d : BitVec 64) : (putWord s w d).tim = s.tim := by
  unfold putWord
  repeat' first | with_reducible rfl | split | intro _ | (simp; done) | rw [foldl_tim] | simp

@[simp] theorem countCe_tim (u : Nat) (s : State) : (countCe u s).tim = s.tim := by
  unfold countCe
  repeat' first | with_reducible rfl | split | intro _ | (simp; done) | rw [foldl_tim] | simp

@[simp] theorem countUe_tim (u a : Nat) (s : State) : (countUe u a s).tim = s.tim := by
  unfold countUe
  repeat' first | with_reducible rfl | split | intro _ | (simp; done) | rw [foldl_tim] | simp

@[simp] theorem touchAcc_tim (s : State) (w : Nat) (e : BitVec 80) : (touchAcc s w e).tim = s.tim := by
  unfold touchAcc
  repeat' first | with_reducible rfl | split | intro _ | (simp; done) | rw [foldl_tim] | simp

@[simp] theorem touchPlain_tim (s : State) (w : Nat) (e : BitVec 80) : (touchPlain s w e).tim = s.tim := by
  unfold touchPlain
  repeat' first | with_reducible rfl | split | intro _ | (simp; done) | rw [foldl_tim] | simp

@[simp] theorem touchWord_tim (s : State) (w : Nat) (e : BitVec 80) : (touchWord s w e).tim = s.tim := by
  unfold touchWord
  repeat' first | with_reducible rfl | split | intro _ | (simp; done) | rw [foldl_tim] | simp

@[simp] theorem touchWhere_tim (q : Nat → Bool) (s : State) : (touchWhere q s).tim = s.tim := by
  unfold touchWhere
  repeat' first | with_reducible rfl | split | intro _ | (simp; done) | rw [foldl_tim] | simp

@[simp] theorem touch_tim (a n : Nat) (s : State) : (touch a n s).tim = s.tim := by
  unfold touch
  repeat' first | with_reducible rfl | split | intro _ | (simp; done) | rw [foldl_tim] | simp

@[simp] theorem upsetAt_tim (s : State) (a : Nat) (e : BitVec 80) : (upsetAt s a e).tim = s.tim := by
  unfold upsetAt
  repeat' first | with_reducible rfl | split | intro _ | (simp; done) | rw [foldl_tim] | simp

@[simp] theorem upset_tim (flips : List (Nat × BitVec 80)) (s : State) : (upset flips s).tim = s.tim := by
  unfold upset
  repeat' first | with_reducible rfl | split | intro _ | (simp; done) | rw [foldl_tim] | simp

@[simp] theorem putByte_tim (s : State) (a : Nat) (v : Byte) : (putByte s a v).tim = s.tim := by
  unfold putByte
  repeat' first | with_reducible rfl | split | intro _ | (simp; done) | rw [foldl_tim] | simp

@[simp] theorem putBytesAt_tim (l : List Byte) (s : State) (a : Nat) : (putBytesAt s a l).tim = s.tim := by
  induction l generalizing s a with
  | nil => rfl
  | cons v l ih => exact (ih _ _).trans (putByte_tim _ _ _)

@[simp] theorem putPoison_tim (s : State) (w : Nat) (full bad : Bool) : (putPoison s w full bad).tim = s.tim := by
  unfold putPoison
  repeat' first | with_reducible rfl | split | intro _ | (simp; done) | rw [foldl_tim] | simp

@[simp] theorem wrBytes_tim (a : Nat) (l : List Byte) (bad : Nat → Bool) (s : State) : (wrBytes a l bad s).tim = s.tim := by
  unfold wrBytes
  repeat' first | with_reducible rfl | split | intro _ | (simp; done) | rw [foldl_tim] | simp

@[simp] theorem wrClean_tim (a : Nat) (l : List Byte) (s : State) : (wrClean a l s).tim = s.tim := by
  unfold wrClean
  repeat' first | with_reducible rfl | split | intro _ | (simp; done) | rw [foldl_tim] | simp

@[simp] theorem showNow_tim (a n : Nat) (s : State) : (showNow a n s).tim = s.tim := by
  unfold showNow
  repeat' first | with_reducible rfl | split | intro _ | (simp; done) | rw [foldl_tim] | simp

@[simp] theorem wrShown_tim (a : Nat) (l : List Byte) (s : State) : (wrShown a l s).tim = s.tim := by
  unfold wrShown
  repeat' first | with_reducible rfl | split | intro _ | (simp; done) | rw [foldl_tim] | simp

@[simp] theorem carry_tim (p : NetPkt) (l : List (Nat × Nat)) (s : State) : (carry p l s).1.tim = s.tim := by
  induction l with
  | nil => rfl
  | cons h l ih => unfold carry; split <;> simp [ih]

@[simp] theorem hostAnswer_tim (p : NetPkt) (s : State) : (hostAnswer p s).tim = s.tim := by
  unfold hostAnswer
  repeat' first | with_reducible rfl | split | intro _ | (simp; done) | rw [foldl_tim] | simp

@[simp] theorem respond_tim (d : Nat) (data : List Byte) (poison : List Bool) (s : State) : (respond d data poison s).tim = s.tim := by
  unfold respond
  repeat' first | with_reducible rfl | split | intro _ | (simp; done) | rw [foldl_tim] | simp

@[simp] theorem cxlRespond_tim (a n : Nat) (s : State) : (cxlRespond a n s).tim = s.tim := by
  unfold cxlRespond
  repeat' first | with_reducible rfl | split | intro _ | (simp; done) | rw [foldl_tim] | simp

@[simp] theorem modOp_tim (k : Nat) (g : Op → Op) (s : State) : (modOp k g s).tim = s.tim := by
  unfold modOp
  repeat' first | with_reducible rfl | split | intro _ | (simp; done) | rw [foldl_tim] | simp

@[simp] theorem dropMaps_tim (p r n : Nat) (s : State) : (dropMaps p r n s).tim = s.tim := by
  unfold dropMaps
  repeat' first | with_reducible rfl | split | intro _ | (simp; done) | rw [foldl_tim] | simp

@[simp] theorem serveHeld_tim (u : Nat) (s : State) : (serveHeld u s).tim = s.tim := by
  unfold serveHeld
  repeat' first | with_reducible rfl | split | intro _ | (simp; done) | rw [foldl_tim] | simp

@[simp] theorem fenceCore_tim (c : Nat) (s : State) : (fenceCore c s).tim = s.tim := by
  unfold fenceCore
  repeat' first | with_reducible rfl | split | intro _ | (simp; done) | rw [foldl_tim] | simp

@[simp] theorem markFenced_tim (kind index sub : Nat) (s : State) : (markFenced kind index sub s).tim = s.tim := by
  unfold markFenced
  repeat' first | with_reducible rfl | split | intro _ | (simp; done) | rw [foldl_tim] | simp

@[simp] theorem endDisable_tim (s : State) (d : Nat × Nat × Nat × Nat × Nat) : (endDisable s d).tim = s.tim := by
  unfold endDisable
  repeat' first | with_reducible rfl | split | intro _ | (simp; done) | rw [foldl_tim] | simp

@[simp] theorem endDisables_tim (s : State) : (endDisables s).tim = s.tim := by
  unfold endDisables
  repeat' first | with_reducible rfl | split | intro _ | (simp; done) | rw [foldl_tim] | simp

@[simp] theorem signalToken_tim (p t n : Nat) (ab : Bool) (s : State) : (signalToken p t n ab s).tim = s.tim := by
  unfold signalToken
  repeat' first | with_reducible rfl | split | intro _ | (simp; done) | rw [foldl_tim] | simp

@[simp] theorem tokenBoundary_tim (p i : Nat) (s : State) : (tokenBoundary p i s).tim = s.tim := by
  unfold tokenBoundary
  repeat' first | with_reducible rfl | split | intro _ | (simp; done) | rw [foldl_tim] | simp

@[simp] theorem releaseEntry_tim (madv : Bool) (i : Nat) (s : State) : (releaseEntry madv i s).tim = s.tim := by
  unfold releaseEntry
  repeat' first | with_reducible rfl | split | intro _ | (simp; done) | rw [foldl_tim] | simp

@[simp] theorem releaseManifest_tim (o : Op) (aborted : Bool) (s : State) : (releaseManifest o aborted s).tim = s.tim := by
  unfold releaseManifest
  repeat' first | with_reducible rfl | split | intro _ | (simp; done) | rw [foldl_tim] | simp

@[simp] theorem releaseHeld_tim (o : Op) (s : State) : (releaseHeld o s).tim = s.tim := by
  unfold releaseHeld
  repeat' first | with_reducible rfl | split | intro _ | (simp; done) | rw [foldl_tim] | simp

@[simp] theorem releaseHandle_tim (o : Op) (s : State) : (releaseHandle o s).tim = s.tim := by
  unfold releaseHandle
  repeat' first | with_reducible rfl | split | intro _ | (simp; done) | rw [foldl_tim] | simp

@[simp] theorem releaseFields_tim (o : Op) (s : State) : (releaseFields o s).tim = s.tim := by
  unfold releaseFields
  repeat' first | with_reducible rfl | split | intro _ | (simp; done) | rw [foldl_tim] | simp

@[simp] theorem dropUnsent_tim (o : Op) (s : State) : (dropUnsent o s).tim = s.tim := by
  unfold dropUnsent
  repeat' first | with_reducible rfl | split | intro _ | (simp; done) | rw [foldl_tim] | simp

@[simp] theorem countRetired_tim (o : Op) (s : State) : (countRetired o s).tim = s.tim := by
  unfold countRetired
  repeat' first | with_reducible rfl | split | intro _ | (simp; done) | rw [foldl_tim] | simp

@[simp] theorem countAbort_tim (o : Op) (reason : Nat) (s : State) (k : Nat) : (countAbort o reason s k).tim = s.tim := by
  unfold countAbort
  repeat' first | with_reducible rfl | split | intro _ | (simp; done) | rw [foldl_tim] | simp

@[simp] theorem releaseCores_tim (o : Op) (s : State) : (releaseCores o s).tim = s.tim := by
  unfold releaseCores
  repeat' first | with_reducible rfl | split | intro _ | (simp; done) | rw [foldl_tim] | simp

@[simp] theorem showFence_tim (o : Op) (aborted : Bool) (s : State) : (showFence o aborted s).tim = s.tim := by
  unfold showFence
  repeat' first | with_reducible rfl | split | intro _ | (simp; done) | rw [foldl_tim] | simp

@[simp] theorem sendWord_tim (a : Nat) (l : List Byte) (s : State) : (sendWord a l s).tim = s.tim := by
  unfold sendWord
  repeat' first | with_reducible rfl | split | intro _ | (simp; done) | rw [foldl_tim] | simp

@[simp] theorem retire_tim (k : Nat) (aborted : Bool) (reason detail : Nat) (s : State) : (retire k aborted reason detail s).tim = s.tim := by
  unfold retire
  repeat' first | with_reducible rfl | split | intro _ | (simp; done) | rw [foldl_tim] | simp

@[simp] theorem retireAll_tim (ks : List Nat) (reason : Nat) (s : State) : (retireAll ks reason s).tim = s.tim := by
  unfold retireAll
  repeat' first | with_reducible rfl | split | intro _ | (simp; done) | rw [foldl_tim] | simp

@[simp] theorem calSet_tim (v : Nat × Int) (s : State) : (calSet v s).tim = s.tim := by
  unfold calSet
  repeat' first | with_reducible rfl | split | intro _ | (simp; done) | rw [foldl_tim] | simp

@[simp] theorem loadValue_tim (s : State) (k : Nat) : (loadValue s k).tim = s.tim := by
  unfold loadValue
  repeat' first | with_reducible rfl | split | intro _ | (simp; done) | rw [foldl_tim] | simp

@[simp] theorem calCmdEnd_tim (k : Nat) (s : State) : (calCmdEnd k s).tim = s.tim := by
  unfold calCmdEnd
  repeat' first | with_reducible rfl | split | intro _ | (simp; done) | rw [foldl_tim] | simp

@[simp] theorem clearDrive_tim (i : Nat) (s : State) : (clearDrive i s).tim = s.tim := by
  unfold clearDrive
  repeat' first | with_reducible rfl | split | intro _ | (simp; done) | rw [foldl_tim] | simp

@[simp] theorem restoreTrims_tim (keys : List Nat) (s : State) : (restoreTrims keys s).tim = s.tim := by
  unfold restoreTrims
  repeat' first | with_reducible rfl | split | intro _ | (simp; done) | rw [foldl_tim] | simp

@[simp] theorem dropProc_tim (i : Nat) (s : State) : (dropProc i s).tim = s.tim := by
  unfold dropProc
  repeat' first | with_reducible rfl | split | intro _ | (simp; done) | rw [foldl_tim] | simp

@[simp] theorem startProc_tim (f b proc : Nat) (rest : List Nat) (cmd : Option Nat) (s : State) : (startProc f b proc rest cmd s).tim = s.tim := by
  unfold startProc
  repeat' first | with_reducible rfl | split | intro _ | (simp; done) | rw [foldl_tim] | simp

@[simp] theorem stopUnit_tim (kind index sub : Nat) (s : State) : (stopUnit kind index sub s).tim = s.tim := by
  unfold stopUnit
  repeat' first | with_reducible rfl | split | intro _ | (simp; done) | rw [foldl_tim] | simp

@[simp] theorem contain_tim (kind index sub : Nat) (s : State) : (contain kind index sub s).tim = s.tim := by
  unfold contain
  repeat' first | with_reducible rfl | split | intro _ | (simp; done) | rw [foldl_tim] | simp

@[simp] theorem logFault_tim (e : FaultE) (outcome : Nat) (s : State) : (logFault e outcome s).tim = s.tim := by
  unfold logFault
  repeat' first | with_reducible rfl | split | intro _ | (simp; done) | rw [foldl_tim] | simp

@[simp] theorem supersede_tim (f : Nat) (s : State) : (supersede f s).tim = s.tim := by
  unfold supersede
  repeat' first | with_reducible rfl | split | intro _ | (simp; done) | rw [foldl_tim] | simp

@[simp] theorem fenceFor_tim (e : FaultE) (s : State) : (fenceFor e s).tim = s.tim := by
  unfold fenceFor
  repeat' first | with_reducible rfl | split | intro _ | (simp; done) | rw [foldl_tim] | simp

@[simp] theorem closeFenced_tim (e : FaultE) (s : State) : (closeFenced e s).tim = s.tim := by
  unfold closeFenced
  repeat' first | with_reducible rfl | split | intro _ | (simp; done) | rw [foldl_tim] | simp

@[simp] theorem answerEnable_tim (e : FaultE) (r : Reply) (s : State) : (answerEnable e r s).tim = s.tim := by
  unfold answerEnable
  repeat' first | with_reducible rfl | split | intro _ | (simp; done) | rw [foldl_tim] | simp

@[simp] theorem disableNow_tim (d : Nat × Nat × Nat × Nat × Nat) (status : Nat) (s : State) : (disableNow d status s).tim = s.tim := by
  unfold disableNow
  repeat' first | with_reducible rfl | split | intro _ | (simp; done) | rw [foldl_tim] | simp

@[simp] theorem failActive_tim (s : State) : (failActive s).tim = s.tim := by
  unfold failActive
  repeat' first | with_reducible rfl | split | intro _ | (simp; done) | rw [foldl_tim] | simp

@[simp] theorem noteColour_tim (code kind index detail : Nat) (s : State) : (noteColour code kind index detail s).tim = s.tim := by
  unfold noteColour
  repeat' first | with_reducible rfl | split | intro _ | (simp; done) | rw [foldl_tim] | simp

@[simp] theorem readTap_tim (b : Nat) (s : State) (i : Nat) : (readTap b s i).tim = s.tim := by
  unfold readTap
  repeat' first | with_reducible rfl | split | intro _ | (simp; done) | rw [foldl_tim] | simp

@[simp] theorem setComp_tim (n g : Nat) (v : Int) (s : State) : (setComp n g v s).tim = s.tim := by
  unfold setComp
  repeat' first | with_reducible rfl | split | intro _ | (simp; done) | rw [foldl_tim] | simp

@[simp] theorem lapseRelay_tim (x : Nat) (s : State) : (lapseRelay x s).tim = s.tim := by
  unfold lapseRelay
  repeat' first | with_reducible rfl | split | intro _ | (simp; done) | rw [foldl_tim] | simp

@[simp] theorem assignRelay_tim (x n : Nat) (cmd : Option Nat) (s : State) : (assignRelay x n cmd s).tim = s.tim := by
  unfold assignRelay
  repeat' first | with_reducible rfl | split | intro _ | (simp; done) | rw [foldl_tim] | simp

@[simp] theorem reachF1_tim (n : Nat) (s : State) : (reachF1 n s).tim = s.tim := by
  unfold reachF1
  cases assignedRelay s n <;> cases freeRelay s <;> simp

@[simp] theorem settleF1_tim (s : State) : (settleF1 s).tim = s.tim := by
  unfold settleF1
  repeat' first | with_reducible rfl | split | intro _ | (simp; done) | rw [foldl_tim] | simp

@[simp] theorem flagOps_tim (flag : Nat) (b : Nat) (onField : Nat → Bool) (onColour : Nat → Bool) (s : State) : (flagOps flag b onField onColour s).tim = s.tim := by
  unfold flagOps
  repeat' first | with_reducible rfl | split | intro _ | (simp; done) | rw [foldl_tim] | simp

@[simp] theorem relayCheck_tim (s : State) (x : Nat) : (relayCheck s x).tim = s.tim := by
  unfold relayCheck
  repeat' first | with_reducible rfl | split | intro _ | (simp; done) | rw [foldl_tim] | simp

@[simp] theorem lapseNormal_tim (s : State) (n : Nat) : (lapseNormal s n).tim = s.tim := by
  unfold lapseNormal
  repeat' first | with_reducible rfl | split | intro _ | (simp; done) | rw [foldl_tim] | simp

@[simp] theorem lightEdge_tim (s : State) : (lightEdge s).tim = s.tim := by
  unfold lightEdge
  repeat' first | with_reducible rfl | split | intro _ | (simp; done) | rw [foldl_tim] | simp

@[simp] theorem reacquire_tim (fs : List Nat) (s : State) : (reacquire fs s).tim = s.tim := by
  unfold reacquire
  repeat' first | with_reducible rfl | split | intro _ | (simp; done) | rw [foldl_tim] | simp

@[simp] theorem coolBad_tim (s : State) : (coolBad s).tim = s.tim := by
  unfold coolBad
  repeat' first | with_reducible rfl | split | intro _ | (simp; done) | rw [foldl_tim] | simp

@[simp] theorem coolRef_tim (code : Int) (n : Nat) (s : State) : (coolRef code n s).tim = s.tim := by
  unfold coolRef
  repeat' first | with_reducible rfl | split | intro _ | (simp; done) | rw [foldl_tim] | simp

@[simp] theorem coolRefEdge_tim (s : State) : (coolRefEdge s).tim = s.tim := by
  unfold coolRefEdge
  repeat' first | with_reducible rfl | split | intro _ | (simp; done) | rw [foldl_tim] | simp

@[simp] theorem coolEdge_tim (s : State) : (coolEdge s).tim = s.tim := by
  unfold coolEdge
  repeat' first | with_reducible rfl | split | intro _ | (simp; done) | rw [foldl_tim] | simp

@[simp] theorem monitorFrames_tim (s : State) : (monitorFrames s).tim = s.tim := by
  unfold monitorFrames
  repeat' first | with_reducible rfl | split | intro _ | (simp; done) | rw [foldl_tim] | simp

@[simp] theorem presetBand_tim (f b : Nat) (s : State) : (presetBand f b s).tim = s.tim := by
  unfold presetBand
  repeat' first | with_reducible rfl | split | intro _ | (simp; done) | rw [foldl_tim] | simp

@[simp] theorem returnBand_tim (i : Nat) (s : State) : (returnBand i s).tim = s.tim := by
  unfold returnBand
  repeat' first | with_reducible rfl | split | intro _ | (simp; done) | rw [foldl_tim] | simp

@[simp] theorem flagSlew_tim (b : Nat) (s : State) (f : Nat) : (flagSlew b s f).tim = s.tim := by
  unfold flagSlew
  repeat' first | with_reducible rfl | split | intro _ | (simp; done) | rw [foldl_tim] | simp

@[simp] theorem headroom_tim (n : Nat) (s : State) : (headroom n s).tim = s.tim := by
  unfold headroom
  repeat' first | with_reducible rfl | split | intro _ | (simp; done) | rw [foldl_tim] | simp

@[simp] theorem freezeEdge_tim (n : Nat) (s : State) : (freezeEdge n s).tim = s.tim := by
  unfold freezeEdge
  repeat' first | with_reducible rfl | split | intro _ | (simp; done) | rw [foldl_tim] | simp

@[simp] theorem testStartEdge_tim (s : State) : (testStartEdge s).tim = s.tim := by
  unfold testStartEdge
  repeat' first | with_reducible rfl | split | intro _ | (simp; done) | rw [foldl_tim] | simp

@[simp] theorem testStopEdge_tim (s : State) : (testStopEdge s).tim = s.tim := by
  unfold testStopEdge
  repeat' first | with_reducible rfl | split | intro _ | (simp; done) | rw [foldl_tim] | simp

@[simp] theorem latchOffsets_tim (s : State) : (latchOffsets s).tim = s.tim := by
  unfold latchOffsets
  repeat' first | with_reducible rfl | split | intro _ | (simp; done) | rw [foldl_tim] | simp

@[simp] theorem loopEdge_tim (s : State) : (loopEdge s).tim = s.tim := by
  unfold loopEdge
  repeat' first | with_reducible rfl | split | intro _ | (simp; done) | rw [foldl_tim] | simp

@[simp] theorem thermalEdge_tim (s : State) : (thermalEdge s).tim = s.tim := by
  unfold thermalEdge
  repeat' first | with_reducible rfl | split | intro _ | (simp; done) | rw [foldl_tim] | simp

@[simp] theorem abandonProc_tim (i : Nat) (s : State) : (abandonProc i s).tim = s.tim := by
  unfold abandonProc
  repeat' first | with_reducible rfl | split | intro _ | (simp; done) | rw [foldl_tim] | simp

@[simp] theorem postAbandoned_tim (i proc : Nat) (s : State) : (postAbandoned i proc s).tim = s.tim := by
  unfold postAbandoned
  repeat' first | with_reducible rfl | split | intro _ | (simp; done) | rw [foldl_tim] | simp

@[simp] theorem voidRun_tim (i start : Nat) (s : State) : (voidRun i start s).tim = s.tim := by
  unfold voidRun
  repeat' first | with_reducible rfl | split | intro _ | (simp; done) | rw [foldl_tim] | simp

@[simp] theorem dropQuick_tim (n : Nat) (s : State) : (dropQuick n s).tim = s.tim := by
  unfold dropQuick
  repeat' first | with_reducible rfl | split | intro _ | (simp; done) | rw [foldl_tim] | simp

@[simp] theorem applyProc_tim (i : Nat) (s : State) : (applyProc i s).tim = s.tim := by
  unfold applyProc
  repeat' first | with_reducible rfl | split | intro _ | (simp; done) | rw [foldl_tim] | simp

@[simp] theorem withhold_tim (i : Nat) (s : State) : (withhold i s).tim = s.tim := by
  unfold withhold
  repeat' first | with_reducible rfl | split | intro _ | (simp; done) | rw [foldl_tim] | simp

@[simp] theorem calibrateField_tim (s : State) (f : Nat) : (calibrateField s f).tim = s.tim := by
  unfold calibrateField
  repeat' first | with_reducible rfl | split | intro _ | (simp; done) | rw [foldl_tim] | simp

@[simp] theorem recoveryEdge_tim (s : State) : (recoveryEdge s).tim = s.tim := by
  unfold recoveryEdge
  repeat' first | with_reducible rfl | split | intro _ | (simp; done) | rw [foldl_tim] | simp

@[simp] theorem beginProc_tim (i : Nat) (s : State) : (beginProc i s).tim = s.tim := by
  unfold beginProc
  repeat' first | with_reducible rfl | split | intro _ | (simp; done) | rw [foldl_tim] | simp

@[simp] theorem fieldProc_tim (f : Nat) (s : State) : (fieldProc f s).tim = s.tim := by
  unfold fieldProc
  repeat' first | with_reducible rfl | split | intro _ | (simp; done) | rw [foldl_tim] | simp

@[simp] theorem kaEnd_tim (k : Nat) (s : State) : (kaEnd k s).tim = s.tim := by
  unfold kaEnd
  repeat' first | with_reducible rfl | split | intro _ | (simp; done) | rw [foldl_tim] | simp

@[simp] theorem refvLost_tim (s : State) : (refvLost s).tim = s.tim := by
  unfold refvLost
  repeat' first | with_reducible rfl | split | intro _ | (simp; done) | rw [foldl_tim] | simp

@[simp] theorem clearUser_tim (s : State) : (clearUser s).tim = s.tim := by
  unfold clearUser
  repeat' first | with_reducible rfl | split | intro _ | (simp; done) | rw [foldl_tim] | simp

@[simp] theorem trimRoundEdge_tim (s : State) : (trimRoundEdge s).tim = s.tim := by
  unfold trimRoundEdge
  repeat' first | with_reducible rfl | split | intro _ | (simp; done) | rw [foldl_tim] | simp

@[simp] theorem runsEdge_tim (i : Nat) (s : State) : (runsEdge i s).tim = s.tim := by
  unfold runsEdge
  repeat' first | with_reducible rfl | split | intro _ | (simp; done) | rw [foldl_tim] | simp

@[simp] theorem quickEdge_tim (n : Nat) (s : State) : (quickEdge n s).tim = s.tim := by
  unfold quickEdge
  repeat' first | with_reducible rfl | split | intro _ | (simp; done) | rw [foldl_tim] | simp

@[simp] theorem kaStart_tim (f : Nat) (s : State) : (kaStart f s).tim = s.tim := by
  unfold kaStart
  repeat' first | with_reducible rfl | split | intro _ | (simp; done) | rw [foldl_tim] | simp

@[simp] theorem advanceSlots_tim (t : Nat) (s : State) (f : Nat) : (advanceSlots t s f).tim = s.tim := by
  unfold advanceSlots
  repeat' first | with_reducible rfl | split | intro _ | (simp; done) | rw [foldl_tim] | simp

@[simp] theorem refreshEdge_tim (f : Nat) (s : State) : (refreshEdge f s).tim = s.tim := by
  unfold refreshEdge
  repeat' first | with_reducible rfl | split | intro _ | (simp; done) | rw [foldl_tim] | simp

@[simp] theorem setModes_tim (o : Op) (fs : List Nat) (root : Nat) (s : State) (f : Nat) : (setModes o fs root s f).tim = s.tim := by
  unfold setModes
  repeat' first | with_reducible rfl | split | intro _ | (simp; done) | rw [foldl_tim] | simp

@[simp] theorem startSlice_tim (o : Op) (p : GPos) (t : Nat) (s : State) : (startSlice o p t s).tim = s.tim := by
  unfold startSlice
  repeat' first | with_reducible rfl | split | intro _ | (simp; done) | rw [foldl_tim] | simp

@[simp] theorem claimGroup_tim (edge : Bool) (key root : Nat) (s : State) : (claimGroup edge key root s).tim = s.tim := by
  unfold claimGroup
  repeat' first | with_reducible rfl | split | intro _ | (simp; done) | rw [foldl_tim] | simp

@[simp] theorem claimEdge_tim (s : State) : (claimEdge s).tim = s.tim := by
  unfold claimEdge
  repeat' first | with_reducible rfl | split | intro _ | (simp; done) | rw [foldl_tim] | simp

@[simp] theorem openSlices_tim (t : Nat) (s : State) : (openSlices t s).tim = s.tim := by
  unfold openSlices
  repeat' first | with_reducible rfl | split | intro _ | (simp; done) | rw [foldl_tim] | simp

@[simp] theorem endSlice_tim (o : Op) (p : GPos) (s : State) : (endSlice o p s).tim = s.tim := by
  unfold endSlice
  repeat' first | with_reducible rfl | split | intro _ | (simp; done) | rw [foldl_tim] | simp

@[simp] theorem endSlices_tim (q : List Nat → Bool) (s : State) : (endSlices q s).tim = s.tim := by
  unfold endSlices
  repeat' first | with_reducible rfl | split | intro _ | (simp; done) | rw [foldl_tim] | simp

@[simp] theorem fieldSlotsEnd_tim (s : State) (f : Nat) : (fieldSlotsEnd s f).tim = s.tim := by
  unfold fieldSlotsEnd
  repeat' first | with_reducible rfl | split | intro _ | (simp; done) | rw [foldl_tim] | simp

@[simp] theorem formWindows_tim (P : Nat) (s : State) : (formWindows P s).tim = s.tim := by
  unfold formWindows
  repeat' first | with_reducible rfl | split | intro _ | (simp; done) | rw [foldl_tim] | simp

@[simp] theorem partsEdge_tim (s : State) : (partsEdge s).tim = s.tim := by
  unfold partsEdge
  repeat' first | with_reducible rfl | split | intro _ | (simp; done) | rw [foldl_tim] | simp

@[simp] theorem failSensor_tim (d i : Nat) (s : State) : (failSensor d i s).tim = s.tim := by
  unfold failSensor
  repeat' first | with_reducible rfl | split | intro _ | (simp; done) | rw [foldl_tim] | simp

@[simp] theorem recoverSensor_tim (d i : Nat) (s : State) : (recoverSensor d i s).tim = s.tim := by
  unfold recoverSensor
  repeat' first | with_reducible rfl | split | intro _ | (simp; done) | rw [foldl_tim] | simp

@[simp] theorem settleSensor_tim (d i : Nat) (s : State) : (settleSensor d i s).tim = s.tim := by
  unfold settleSensor
  repeat' first | with_reducible rfl | split | intro _ | (simp; done) | rw [foldl_tim] | simp

@[simp] theorem throtUpdate_tim (s : State) : (throtUpdate s).tim = s.tim := by
  unfold throtUpdate
  repeat' first | with_reducible rfl | split | intro _ | (simp; done) | rw [foldl_tim] | simp

@[simp] theorem enterThrottle_tim (d : Nat) (s : State) : (enterThrottle d s).tim = s.tim := by
  unfold enterThrottle
  repeat' first | with_reducible rfl | split | intro _ | (simp; done) | rw [foldl_tim] | simp

@[simp] theorem endEpisode_tim (s : State) : (endEpisode s).tim = s.tim := by
  unfold endEpisode
  repeat' first | with_reducible rfl | split | intro _ | (simp; done) | rw [foldl_tim] | simp

@[simp] theorem setStep_tim (t v d : Nat) (s : State) : (setStep t v d s).tim = s.tim := by
  unfold setStep
  repeat' first | with_reducible rfl | split | intro _ | (simp; done) | rw [foldl_tim] | simp

@[simp] theorem startTile_tim (s : State) (t : Nat) : (startTile s t).tim = s.tim := by
  unfold startTile
  repeat' first | with_reducible rfl | split | intro _ | (simp; done) | rw [foldl_tim] | simp

@[simp] theorem episodeUpdate_tim (s : State) : (episodeUpdate s).tim = s.tim := by
  unfold episodeUpdate
  repeat' first | with_reducible rfl | split | intro _ | (simp; done) | rw [foldl_tim] | simp

@[simp] theorem holdUpdate_tim (d : Nat) (s : State) : (holdUpdate d s).tim = s.tim := by
  unfold holdUpdate
  repeat' first | with_reducible rfl | split | intro _ | (simp; done) | rw [foldl_tim] | simp

@[simp] theorem refreshRate_tim (d : Nat) (s : State) : (refreshRate d s).tim = s.tim := by
  unfold refreshRate
  repeat' first | with_reducible rfl | split | intro _ | (simp; done) | rw [foldl_tim] | simp

@[simp] theorem coolTrack_tim (s : State) (t : Nat) : (coolTrack s t).tim = s.tim := by
  unfold coolTrack
  repeat' first | with_reducible rfl | split | intro _ | (simp; done) | rw [foldl_tim] | simp

@[simp] theorem afterDies_tim (s : State) : (afterDies s).tim = s.tim := by
  unfold afterDies
  repeat' first | with_reducible rfl | split | intro _ | (simp; done) | rw [foldl_tim] | simp

@[simp] theorem hottestDie_tim (s : State) : (hottestDie s).tim = s.tim := by
  unfold hottestDie
  repeat' first | with_reducible rfl | split | intro _ | (simp; done) | rw [foldl_tim] | simp

@[simp] theorem postPower_tim (new_ old : Nat) (s : State) : (postPower new_ old s).tim = s.tim := by
  unfold postPower
  repeat' first | with_reducible rfl | split | intro _ | (simp; done) | rw [foldl_tim] | simp

@[simp] theorem enterD1_tim (s : State) : (enterD1 s).tim = s.tim := by
  unfold enterD1
  repeat' first | with_reducible rfl | split | intro _ | (simp; done) | rw [foldl_tim] | simp

@[simp] theorem closeSlices_tim (s : State) : (closeSlices s).tim = s.tim := by
  unfold closeSlices
  repeat' first | with_reducible rfl | split | intro _ | (simp; done) | rw [foldl_tim] | simp

@[simp] theorem flagLost_tim (s : State) : (flagLost s).tim = s.tim := by
  unfold flagLost
  repeat' first | with_reducible rfl | split | intro _ | (simp; done) | rw [foldl_tim] | simp

@[simp] theorem abortEdge_tim (s : State) : (abortEdge s).tim = s.tim := by
  unfold abortEdge
  repeat' first | with_reducible rfl | split | intro _ | (simp; done) | rw [foldl_tim] | simp

@[simp] theorem refillGroup_tim (o : Op) (p : GPos) (s : State) : (refillGroup o p s).tim = s.tim := by
  unfold refillGroup
  repeat' first | with_reducible rfl | split | intro _ | (simp; done) | rw [foldl_tim] | simp

@[simp] theorem refillReturned_tim (s₀ s : State) : (refillReturned s₀ s).tim = s.tim := by
  unfold refillReturned
  repeat' first | with_reducible rfl | split | intro _ | (simp; done) | rw [foldl_tim] | simp

@[simp] theorem holdTelemetry_tim (s₀ s : State) : (holdTelemetry s₀ s).tim = s.tim := by
  unfold holdTelemetry
  repeat' first | with_reducible rfl | split | intro _ | (simp; done) | rw [foldl_tim] | simp

@[simp] theorem trimEdge_tim (s : State) : (trimEdge s).tim = s.tim := by
  unfold trimEdge
  repeat' first | with_reducible rfl | split | intro _ | (simp; done) | rw [foldl_tim] | simp

@[simp] theorem darkEdge_tim (s : State) : (darkEdge s).tim = s.tim := by
  unfold darkEdge
  repeat' first | with_reducible rfl | split | intro _ | (simp; done) | rw [foldl_tim] | simp

@[simp] theorem powerReading_tim (s : State) : (powerReading s).tim = s.tim := by
  unfold powerReading
  repeat' first | with_reducible rfl | split | intro _ | (simp; done) | rw [foldl_tim] | simp

/-! ### `tim.beat` -/

@[simp] theorem enterDeviceError_tim_beat (cause : Nat) (s : State) : (enterDeviceError cause s).tim.beat = s.tim.beat := by
  unfold enterDeviceError
  repeat' first | with_reducible rfl | split | intro _ | (simp; done) | rw [foldl_tim_beat] | simp

@[simp] theorem enqueueFault_tim_beat (e : FaultE) (s : State) : (enqueueFault e s).tim.beat = s.tim.beat := by
  unfold enqueueFault
  repeat' first | with_reducible rfl | split | intro _ | (simp; done) | rw [foldl_tim_beat] | simp

@[simp] theorem raiseFault_tim_beat (code kind index sub detail : Nat) (s : State) : (raiseFault code kind index sub detail s).tim.beat = s.tim.beat := by
  unfold raiseFault
  repeat' first | with_reducible rfl | split | intro _ | (simp; done) | rw [foldl_tim_beat] | simp

@[simp] theorem failQuantity_tim_beat (i proc key : Nat) (s : State) : (failQuantity i proc key s).tim.beat = s.tim.beat := by
  unfold failQuantity
  repeat' first | with_reducible rfl | split | intro _ | (simp; done) | rw [foldl_tim_beat] | simp

@[simp] theorem sliceTrim_tim_beat (key : Nat) (off gain skew : Int) (s : State) : (sliceTrim key off gain skew s).tim.beat = s.tim.beat := by
  unfold sliceTrim
  repeat' first | with_reducible rfl | split | intro _ | (simp; done) | rw [foldl_tim_beat] | simp

@[simp] theorem channelTrim_tim_beat (f ch : Nat) (x : Field) (s : State) (i : Nat) : (channelTrim f ch x s i).tim.beat = s.tim.beat := by
  unfold channelTrim
  repeat' first | with_reducible rfl | split | intro _ | (simp; done) | rw [foldl_tim_beat] | simp

@[simp] theorem slicesEdge_tim_beat (f : Nat) (s : State) : (slicesEdge f s).tim.beat = s.tim.beat := by
  unfold slicesEdge
  repeat' first | with_reducible rfl | split | intro _ | (simp; done) | rw [foldl_tim_beat] | simp

@[simp] theorem calEdge_tim_beat (refvOk : Bool) (s : State) : (calEdge refvOk s).tim.beat = s.tim.beat := by
  unfold calEdge
  repeat' first | with_reducible rfl | split | intro _ | (simp; done) | rw [foldl_tim_beat] | simp

@[simp] theorem endSelect_tim_beat (r : Reply) (s : State) : (endSelect r s).tim.beat = s.tim.beat := by
  unfold endSelect
  repeat' first | with_reducible rfl | split | intro _ | (simp; done) | rw [foldl_tim_beat] | simp

@[simp] theorem selectEdge_tim_beat (s : State) : (selectEdge s).tim.beat = s.tim.beat := by
  unfold selectEdge
  repeat' first | with_reducible rfl | split | intro _ | (simp; done) | rw [foldl_tim_beat] | simp

@[simp] theorem timeEdge_tim_beat (s : State) : (timeEdge s).tim.beat = s.tim.beat := by
  unfold timeEdge
  repeat' first | with_reducible rfl | split | intro _ | (simp; done) | rw [foldl_tim_beat] | simp

@[simp] theorem hardwareEdge_tim_beat (s : State) : (hardwareEdge s).tim.beat = s.tim.beat := by
  unfold hardwareEdge
  repeat' first | with_reducible rfl | split | intro _ | (simp; done) | rw [foldl_tim_beat] | simp

@[simp] theorem plannedEdge_tim_beat (s₀ : State) (refvOk : Bool) (s : State) : (plannedEdge s₀ refvOk s).tim.beat = s.tim.beat := by
  unfold plannedEdge
  repeat' first | with_reducible rfl | split | intro _ | (simp; done) | rw [foldl_tim_beat] | simp

/-! ### `pins` -/

@[simp] theorem hostWrite_pins (a : Nat) (l : List Byte) (s : State) : (hostWrite a l s).pins = s.pins := by
  unfold hostWrite
  repeat' first | with_reducible rfl | split | intro _ | (simp; done) | rw [foldl_pins] | simp

@[simp] theorem msix_pins (v : Nat) (s : State) : (msix v s).pins = s.pins := by
  unfold msix
  repeat' first | with_reducible rfl | split | intro _ | (simp; done) | rw [foldl_pins] | simp

@[simp] theorem eventTo_pins (code : Nat) (items : List Byte) (s : State) (m : Nat) : (eventTo code items s m).pins = s.pins := by
  unfold eventTo
  repeat' first | with_reducible rfl | split | intro _ | (simp; done) | rw [foldl_pins] | simp

@[simp] theorem post_pins (code : Nat) (items : List Byte) (s : State) : (post code items s).pins = s.pins := by
  unfold post
  repeat' first | with_reducible rfl | split | intro _ | (simp; done) | rw [foldl_pins] | simp

@[simp] theorem postOne_pins (m code : Nat) (items : List Byte) (s : State) : (postOne m code items s).pins = s.pins := by
  unfold postOne
  repeat' first | with_reducible rfl | split | intro _ | (simp; done) | rw [foldl_pins] | simp

@[simp] theorem raiseAlert_pins (i : Nat) (s : State) : (raiseAlert i s).pins = s.pins := by
  unfold raiseAlert
  repeat' first | with_reducible rfl | split | intro _ | (simp; done) | rw [foldl_pins] | simp

@[simp] theorem buFault_pins (step code detail : Nat) (s : State) : (buFault step code detail s).pins = s.pins := by
  unfold buFault
  repeat' first | with_reducible rfl | split | intro _ | (simp; done) | rw [foldl_pins] | simp

@[simp] theorem modCmd_pins (k : Nat) (g : Cmd → Cmd) (s : State) : (modCmd k g s).pins = s.pins := by
  unfold modCmd
  repeat' first | with_reducible rfl | split | intro _ | (simp; done) | rw [foldl_pins] | simp

@[simp] theorem finishCmd_pins (k : Nat) (r : Reply) (s : State) : (finishCmd k r s).pins = s.pins := by
  unfold finishCmd
  repeat' first | with_reducible rfl | split | intro _ | (simp; done) | rw [foldl_pins] | simp

@[simp] theorem modOp_pins (k : Nat) (g : Op → Op) (s : State) : (modOp k g s).pins = s.pins := by
  unfold modOp
  repeat' first | with_reducible rfl | split | intro _ | (simp; done) | rw [foldl_pins] | simp

/-! ### `fields` -/

@[simp] theorem hostWrite_fields (a : Nat) (l : List Byte) (s : State) : (hostWrite a l s).fields = s.fields := by
  unfold hostWrite
  repeat' first | with_reducible rfl | split | intro _ | (simp; done) | rw [foldl_fields] | simp

@[simp] theorem msix_fields (v : Nat) (s : State) : (msix v s).fields = s.fields := by
  unfold msix
  repeat' first | with_reducible rfl | split | intro _ | (simp; done) | rw [foldl_fields] | simp

@[simp] theorem eventTo_fields (code : Nat) (items : List Byte) (s : State) (m : Nat) : (eventTo code items s m).fields = s.fields := by
  unfold eventTo
  repeat' first | with_reducible rfl | split | intro _ | (simp; done) | rw [foldl_fields] | simp

@[simp] theorem post_fields (code : Nat) (items : List Byte) (s : State) : (post code items s).fields = s.fields := by
  unfold post
  repeat' first | with_reducible rfl | split | intro _ | (simp; done) | rw [foldl_fields] | simp

@[simp] theorem postOne_fields (m code : Nat) (items : List Byte) (s : State) : (postOne m code items s).fields = s.fields := by
  unfold postOne
  repeat' first | with_reducible rfl | split | intro _ | (simp; done) | rw [foldl_fields] | simp

@[simp] theorem raiseAlert_fields (i : Nat) (s : State) : (raiseAlert i s).fields = s.fields := by
  unfold raiseAlert
  repeat' first | with_reducible rfl | split | intro _ | (simp; done) | rw [foldl_fields] | simp

@[simp] theorem buFault_fields (step code detail : Nat) (s : State) : (buFault step code detail s).fields = s.fields := by
  unfold buFault
  repeat' first | with_reducible rfl | split | intro _ | (simp; done) | rw [foldl_fields] | simp

@[simp] theorem modCmd_fields (k : Nat) (g : Cmd → Cmd) (s : State) : (modCmd k g s).fields = s.fields := by
  unfold modCmd
  repeat' first | with_reducible rfl | split | intro _ | (simp; done) | rw [foldl_fields] | simp

@[simp] theorem finishCmd_fields (k : Nat) (r : Reply) (s : State) : (finishCmd k r s).fields = s.fields := by
  unfold finishCmd
  repeat' first | with_reducible rfl | split | intro _ | (simp; done) | rw [foldl_fields] | simp

@[simp] theorem putWord_fields (s : State) (w : Nat) (d : BitVec 64) : (putWord s w d).fields = s.fields := by
  unfold putWord
  repeat' first | with_reducible rfl | split | intro _ | (simp; done) | rw [foldl_fields] | simp

@[simp] theorem countCe_fields (u : Nat) (s : State) : (countCe u s).fields = s.fields := by
  unfold countCe
  repeat' first | with_reducible rfl | split | intro _ | (simp; done) | rw [foldl_fields] | simp

@[simp] theorem countUe_fields (u a : Nat) (s : State) : (countUe u a s).fields = s.fields := by
  unfold countUe
  repeat' first | with_reducible rfl | split | intro _ | (simp; done) | rw [foldl_fields] | simp

@[simp] theorem touchAcc_fields (s : State) (w : Nat) (e : BitVec 80) : (touchAcc s w e).fields = s.fields := by
  unfold touchAcc
  repeat' first | with_reducible rfl | split | intro _ | (simp; done) | rw [foldl_fields] | simp

@[simp] theorem touchPlain_fields (s : State) (w : Nat) (e : BitVec 80) : (touchPlain s w e).fields = s.fields := by
  unfold touchPlain
  repeat' first | with_reducible rfl | split | intro _ | (simp; done) | rw [foldl_fields] | simp

@[simp] theorem touchWord_fields (s : State) (w : Nat) (e : BitVec 80) : (touchWord s w e).fields = s.fields := by
  unfold touchWord
  repeat' first | with_reducible rfl | split | intro _ | (simp; done) | rw [foldl_fields] | simp

@[simp] theorem touchWhere_fields (q : Nat → Bool) (s : State) : (touchWhere q s).fields = s.fields := by
  unfold touchWhere
  repeat' first | with_reducible rfl | split | intro _ | (simp; done) | rw [foldl_fields] | simp

@[simp] theorem upsetAt_fields (s : State) (a : Nat) (e : BitVec 80) : (upsetAt s a e).fields = s.fields := by
  unfold upsetAt
  repeat' first | with_reducible rfl | split | intro _ | (simp; done) | rw [foldl_fields] | simp

@[simp] theorem upset_fields (flips : List (Nat × BitVec 80)) (s : State) : (upset flips s).fields = s.fields := by
  unfold upset
  repeat' first | with_reducible rfl | split | intro _ | (simp; done) | rw [foldl_fields] | simp

@[simp] theorem modOp_fields (k : Nat) (g : Op → Op) (s : State) : (modOp k g s).fields = s.fields := by
  unfold modOp
  repeat' first | with_reducible rfl | split | intro _ | (simp; done) | rw [foldl_fields] | simp

@[simp] theorem lapseRelay_fields (x : Nat) (s : State) : (lapseRelay x s).fields = s.fields := by
  unfold lapseRelay
  repeat' first | with_reducible rfl | split | intro _ | (simp; done) | rw [foldl_fields] | simp

@[simp] theorem restartOn_fields (fs : List Nat) (s : State) : (restartOn fs s).fields = s.fields := by
  unfold restartOn
  repeat' first | with_reducible rfl | split | intro _ | (simp; done) | rw [foldl_fields] | simp

@[simp] theorem bandsFilled_fields (f frm dst : Nat) (s : State) : (bandsFilled f frm dst s).fields = s.fields := by
  unfold bandsFilled
  repeat' first | with_reducible rfl | split | intro _ | (simp; done) | rw [foldl_fields] | simp

/-! ### `adcs` -/

@[simp] theorem hostWrite_adcs (a : Nat) (l : List Byte) (s : State) : (hostWrite a l s).adcs = s.adcs := by
  unfold hostWrite
  repeat' first | with_reducible rfl | split | intro _ | (simp; done) | rw [foldl_adcs] | simp

@[simp] theorem msix_adcs (v : Nat) (s : State) : (msix v s).adcs = s.adcs := by
  unfold msix
  repeat' first | with_reducible rfl | split | intro _ | (simp; done) | rw [foldl_adcs] | simp

@[simp] theorem eventTo_adcs (code : Nat) (items : List Byte) (s : State) (m : Nat) : (eventTo code items s m).adcs = s.adcs := by
  unfold eventTo
  repeat' first | with_reducible rfl | split | intro _ | (simp; done) | rw [foldl_adcs] | simp

@[simp] theorem post_adcs (code : Nat) (items : List Byte) (s : State) : (post code items s).adcs = s.adcs := by
  unfold post
  repeat' first | with_reducible rfl | split | intro _ | (simp; done) | rw [foldl_adcs] | simp

@[simp] theorem postOne_adcs (m code : Nat) (items : List Byte) (s : State) : (postOne m code items s).adcs = s.adcs := by
  unfold postOne
  repeat' first | with_reducible rfl | split | intro _ | (simp; done) | rw [foldl_adcs] | simp

@[simp] theorem raiseAlert_adcs (i : Nat) (s : State) : (raiseAlert i s).adcs = s.adcs := by
  unfold raiseAlert
  repeat' first | with_reducible rfl | split | intro _ | (simp; done) | rw [foldl_adcs] | simp

@[simp] theorem buFault_adcs (step code detail : Nat) (s : State) : (buFault step code detail s).adcs = s.adcs := by
  unfold buFault
  repeat' first | with_reducible rfl | split | intro _ | (simp; done) | rw [foldl_adcs] | simp

@[simp] theorem modCmd_adcs (k : Nat) (g : Cmd → Cmd) (s : State) : (modCmd k g s).adcs = s.adcs := by
  unfold modCmd
  repeat' first | with_reducible rfl | split | intro _ | (simp; done) | rw [foldl_adcs] | simp

@[simp] theorem finishCmd_adcs (k : Nat) (r : Reply) (s : State) : (finishCmd k r s).adcs = s.adcs := by
  unfold finishCmd
  repeat' first | with_reducible rfl | split | intro _ | (simp; done) | rw [foldl_adcs] | simp

@[simp] theorem modOp_adcs (k : Nat) (g : Op → Op) (s : State) : (modOp k g s).adcs = s.adcs := by
  unfold modOp
  repeat' first | with_reducible rfl | split | intro _ | (simp; done) | rw [foldl_adcs] | simp

/-! ### `adcTel` -/

@[simp] theorem hostWrite_adcTel (a : Nat) (l : List Byte) (s : State) : (hostWrite a l s).adcTel = s.adcTel := by
  unfold hostWrite
  repeat' first | with_reducible rfl | split | intro _ | (simp; done) | rw [foldl_adcTel] | simp

@[simp] theorem msix_adcTel (v : Nat) (s : State) : (msix v s).adcTel = s.adcTel := by
  unfold msix
  repeat' first | with_reducible rfl | split | intro _ | (simp; done) | rw [foldl_adcTel] | simp

@[simp] theorem eventTo_adcTel (code : Nat) (items : List Byte) (s : State) (m : Nat) : (eventTo code items s m).adcTel = s.adcTel := by
  unfold eventTo
  repeat' first | with_reducible rfl | split | intro _ | (simp; done) | rw [foldl_adcTel] | simp

@[simp] theorem post_adcTel (code : Nat) (items : List Byte) (s : State) : (post code items s).adcTel = s.adcTel := by
  unfold post
  repeat' first | with_reducible rfl | split | intro _ | (simp; done) | rw [foldl_adcTel] | simp

@[simp] theorem postOne_adcTel (m code : Nat) (items : List Byte) (s : State) : (postOne m code items s).adcTel = s.adcTel := by
  unfold postOne
  repeat' first | with_reducible rfl | split | intro _ | (simp; done) | rw [foldl_adcTel] | simp

@[simp] theorem raiseAlert_adcTel (i : Nat) (s : State) : (raiseAlert i s).adcTel = s.adcTel := by
  unfold raiseAlert
  repeat' first | with_reducible rfl | split | intro _ | (simp; done) | rw [foldl_adcTel] | simp

@[simp] theorem buFault_adcTel (step code detail : Nat) (s : State) : (buFault step code detail s).adcTel = s.adcTel := by
  unfold buFault
  repeat' first | with_reducible rfl | split | intro _ | (simp; done) | rw [foldl_adcTel] | simp

@[simp] theorem modCmd_adcTel (k : Nat) (g : Cmd → Cmd) (s : State) : (modCmd k g s).adcTel = s.adcTel := by
  unfold modCmd
  repeat' first | with_reducible rfl | split | intro _ | (simp; done) | rw [foldl_adcTel] | simp

@[simp] theorem finishCmd_adcTel (k : Nat) (r : Reply) (s : State) : (finishCmd k r s).adcTel = s.adcTel := by
  unfold finishCmd
  repeat' first | with_reducible rfl | split | intro _ | (simp; done) | rw [foldl_adcTel] | simp

@[simp] theorem modOp_adcTel (k : Nat) (g : Op → Op) (s : State) : (modOp k g s).adcTel = s.adcTel := by
  unfold modOp
  repeat' first | with_reducible rfl | split | intro _ | (simp; done) | rw [foldl_adcTel] | simp

/-! ### `taints` -/

@[simp] theorem hostWrite_taints (a : Nat) (l : List Byte) (s : State) : (hostWrite a l s).taints = s.taints := by
  unfold hostWrite
  repeat' first | with_reducible rfl | split | intro _ | (simp; done) | rw [foldl_taints] | simp

@[simp] theorem msix_taints (v : Nat) (s : State) : (msix v s).taints = s.taints := by
  unfold msix
  repeat' first | with_reducible rfl | split | intro _ | (simp; done) | rw [foldl_taints] | simp

@[simp] theorem eventTo_taints (code : Nat) (items : List Byte) (s : State) (m : Nat) : (eventTo code items s m).taints = s.taints := by
  unfold eventTo
  repeat' first | with_reducible rfl | split | intro _ | (simp; done) | rw [foldl_taints] | simp

@[simp] theorem post_taints (code : Nat) (items : List Byte) (s : State) : (post code items s).taints = s.taints := by
  unfold post
  repeat' first | with_reducible rfl | split | intro _ | (simp; done) | rw [foldl_taints] | simp

@[simp] theorem postOne_taints (m code : Nat) (items : List Byte) (s : State) : (postOne m code items s).taints = s.taints := by
  unfold postOne
  repeat' first | with_reducible rfl | split | intro _ | (simp; done) | rw [foldl_taints] | simp

@[simp] theorem raiseAlert_taints (i : Nat) (s : State) : (raiseAlert i s).taints = s.taints := by
  unfold raiseAlert
  repeat' first | with_reducible rfl | split | intro _ | (simp; done) | rw [foldl_taints] | simp

@[simp] theorem buFault_taints (step code detail : Nat) (s : State) : (buFault step code detail s).taints = s.taints := by
  unfold buFault
  repeat' first | with_reducible rfl | split | intro _ | (simp; done) | rw [foldl_taints] | simp

@[simp] theorem modCmd_taints (k : Nat) (g : Cmd → Cmd) (s : State) : (modCmd k g s).taints = s.taints := by
  unfold modCmd
  repeat' first | with_reducible rfl | split | intro _ | (simp; done) | rw [foldl_taints] | simp

@[simp] theorem finishCmd_taints (k : Nat) (r : Reply) (s : State) : (finishCmd k r s).taints = s.taints := by
  unfold finishCmd
  repeat' first | with_reducible rfl | split | intro _ | (simp; done) | rw [foldl_taints] | simp

@[simp] theorem modOp_taints (k : Nat) (g : Op → Op) (s : State) : (modOp k g s).taints = s.taints := by
  unfold modOp
  repeat' first | with_reducible rfl | split | intro _ | (simp; done) | rw [foldl_taints] | simp

/-! ### `acc` -/

@[simp] theorem hostWrite_acc (a : Nat) (l : List Byte) (s : State) : (hostWrite a l s).acc = s.acc := by
  unfold hostWrite
  repeat' first | with_reducible rfl | split | intro _ | (simp; done) | rw [foldl_acc] | simp

@[simp] theorem msix_acc (v : Nat) (s : State) : (msix v s).acc = s.acc := by
  unfold msix
  repeat' first | with_reducible rfl | split | intro _ | (simp; done) | rw [foldl_acc] | simp

@[simp] theorem eventTo_acc (code : Nat) (items : List Byte) (s : State) (m : Nat) : (eventTo code items s m).acc = s.acc := by
  unfold eventTo
  repeat' first | with_reducible rfl | split | intro _ | (simp; done) | rw [foldl_acc] | simp

@[simp] theorem post_acc (code : Nat) (items : List Byte) (s : State) : (post code items s).acc = s.acc := by
  unfold post
  repeat' first | with_reducible rfl | split | intro _ | (simp; done) | rw [foldl_acc] | simp

@[simp] theorem postOne_acc (m code : Nat) (items : List Byte) (s : State) : (postOne m code items s).acc = s.acc := by
  unfold postOne
  repeat' first | with_reducible rfl | split | intro _ | (simp; done) | rw [foldl_acc] | simp

@[simp] theorem raiseAlert_acc (i : Nat) (s : State) : (raiseAlert i s).acc = s.acc := by
  unfold raiseAlert
  repeat' first | with_reducible rfl | split | intro _ | (simp; done) | rw [foldl_acc] | simp

@[simp] theorem buFault_acc (step code detail : Nat) (s : State) : (buFault step code detail s).acc = s.acc := by
  unfold buFault
  repeat' first | with_reducible rfl | split | intro _ | (simp; done) | rw [foldl_acc] | simp

@[simp] theorem modCmd_acc (k : Nat) (g : Cmd → Cmd) (s : State) : (modCmd k g s).acc = s.acc := by
  unfold modCmd
  repeat' first | with_reducible rfl | split | intro _ | (simp; done) | rw [foldl_acc] | simp

@[simp] theorem finishCmd_acc (k : Nat) (r : Reply) (s : State) : (finishCmd k r s).acc = s.acc := by
  unfold finishCmd
  repeat' first | with_reducible rfl | split | intro _ | (simp; done) | rw [foldl_acc] | simp

@[simp] theorem modOp_acc (k : Nat) (g : Op → Op) (s : State) : (modOp k g s).acc = s.acc := by
  unfold modOp
  repeat' first | with_reducible rfl | split | intro _ | (simp; done) | rw [foldl_acc] | simp

/-! ### `bands` -/

@[simp] theorem hostWrite_bands (a : Nat) (l : List Byte) (s : State) : (hostWrite a l s).bands = s.bands := by
  unfold hostWrite
  repeat' first | with_reducible rfl | split | intro _ | (simp; done) | rw [foldl_bands] | simp

@[simp] theorem msix_bands (v : Nat) (s : State) : (msix v s).bands = s.bands := by
  unfold msix
  repeat' first | with_reducible rfl | split | intro _ | (simp; done) | rw [foldl_bands] | simp

@[simp] theorem eventTo_bands (code : Nat) (items : List Byte) (s : State) (m : Nat) : (eventTo code items s m).bands = s.bands := by
  unfold eventTo
  repeat' first | with_reducible rfl | split | intro _ | (simp; done) | rw [foldl_bands] | simp

@[simp] theorem post_bands (code : Nat) (items : List Byte) (s : State) : (post code items s).bands = s.bands := by
  unfold post
  repeat' first | with_reducible rfl | split | intro _ | (simp; done) | rw [foldl_bands] | simp

@[simp] theorem postOne_bands (m code : Nat) (items : List Byte) (s : State) : (postOne m code items s).bands = s.bands := by
  unfold postOne
  repeat' first | with_reducible rfl | split | intro _ | (simp; done) | rw [foldl_bands] | simp

@[simp] theorem raiseAlert_bands (i : Nat) (s : State) : (raiseAlert i s).bands = s.bands := by
  unfold raiseAlert
  repeat' first | with_reducible rfl | split | intro _ | (simp; done) | rw [foldl_bands] | simp

@[simp] theorem buFault_bands (step code detail : Nat) (s : State) : (buFault step code detail s).bands = s.bands := by
  unfold buFault
  repeat' first | with_reducible rfl | split | intro _ | (simp; done) | rw [foldl_bands] | simp

@[simp] theorem modCmd_bands (k : Nat) (g : Cmd → Cmd) (s : State) : (modCmd k g s).bands = s.bands := by
  unfold modCmd
  repeat' first | with_reducible rfl | split | intro _ | (simp; done) | rw [foldl_bands] | simp

@[simp] theorem finishCmd_bands (k : Nat) (r : Reply) (s : State) : (finishCmd k r s).bands = s.bands := by
  unfold finishCmd
  repeat' first | with_reducible rfl | split | intro _ | (simp; done) | rw [foldl_bands] | simp

@[simp] theorem modOp_bands (k : Nat) (g : Op → Op) (s : State) : (modOp k g s).bands = s.bands := by
  unfold modOp
  repeat' first | with_reducible rfl | split | intro _ | (simp; done) | rw [foldl_bands] | simp

/-! ### `cal` -/

@[simp] theorem hostWrite_cal (a : Nat) (l : List Byte) (s : State) : (hostWrite a l s).cal = s.cal := by
  unfold hostWrite
  repeat' first | with_reducible rfl | split | intro _ | (simp; done) | rw [foldl_cal] | simp

@[simp] theorem msix_cal (v : Nat) (s : State) : (msix v s).cal = s.cal := by
  unfold msix
  repeat' first | with_reducible rfl | split | intro _ | (simp; done) | rw [foldl_cal] | simp

@[simp] theorem eventTo_cal (code : Nat) (items : List Byte) (s : State) (m : Nat) : (eventTo code items s m).cal = s.cal := by
  unfold eventTo
  repeat' first | with_reducible rfl | split | intro _ | (simp; done) | rw [foldl_cal] | simp

@[simp] theorem post_cal (code : Nat) (items : List Byte) (s : State) : (post code items s).cal = s.cal := by
  unfold post
  repeat' first | with_reducible rfl | split | intro _ | (simp; done) | rw [foldl_cal] | simp

@[simp] theorem postOne_cal (m code : Nat) (items : List Byte) (s : State) : (postOne m code items s).cal = s.cal := by
  unfold postOne
  repeat' first | with_reducible rfl | split | intro _ | (simp; done) | rw [foldl_cal] | simp

@[simp] theorem raiseAlert_cal (i : Nat) (s : State) : (raiseAlert i s).cal = s.cal := by
  unfold raiseAlert
  repeat' first | with_reducible rfl | split | intro _ | (simp; done) | rw [foldl_cal] | simp

@[simp] theorem buFault_cal (step code detail : Nat) (s : State) : (buFault step code detail s).cal = s.cal := by
  unfold buFault
  repeat' first | with_reducible rfl | split | intro _ | (simp; done) | rw [foldl_cal] | simp

@[simp] theorem modCmd_cal (k : Nat) (g : Cmd → Cmd) (s : State) : (modCmd k g s).cal = s.cal := by
  unfold modCmd
  repeat' first | with_reducible rfl | split | intro _ | (simp; done) | rw [foldl_cal] | simp

@[simp] theorem finishCmd_cal (k : Nat) (r : Reply) (s : State) : (finishCmd k r s).cal = s.cal := by
  unfold finishCmd
  repeat' first | with_reducible rfl | split | intro _ | (simp; done) | rw [foldl_cal] | simp

@[simp] theorem modOp_cal (k : Nat) (g : Op → Op) (s : State) : (modOp k g s).cal = s.cal := by
  unfold modOp
  repeat' first | with_reducible rfl | split | intro _ | (simp; done) | rw [foldl_cal] | simp

/-! ### `lcols` -/

@[simp] theorem hostWrite_lcols (a : Nat) (l : List Byte) (s : State) : (hostWrite a l s).lcols = s.lcols := by
  unfold hostWrite
  repeat' first | with_reducible rfl | split | intro _ | (simp; done) | rw [foldl_lcols] | simp

@[simp] theorem msix_lcols (v : Nat) (s : State) : (msix v s).lcols = s.lcols := by
  unfold msix
  repeat' first | with_reducible rfl | split | intro _ | (simp; done) | rw [foldl_lcols] | simp

@[simp] theorem eventTo_lcols (code : Nat) (items : List Byte) (s : State) (m : Nat) : (eventTo code items s m).lcols = s.lcols := by
  unfold eventTo
  repeat' first | with_reducible rfl | split | intro _ | (simp; done) | rw [foldl_lcols] | simp

@[simp] theorem post_lcols (code : Nat) (items : List Byte) (s : State) : (post code items s).lcols = s.lcols := by
  unfold post
  repeat' first | with_reducible rfl | split | intro _ | (simp; done) | rw [foldl_lcols] | simp

@[simp] theorem postOne_lcols (m code : Nat) (items : List Byte) (s : State) : (postOne m code items s).lcols = s.lcols := by
  unfold postOne
  repeat' first | with_reducible rfl | split | intro _ | (simp; done) | rw [foldl_lcols] | simp

@[simp] theorem raiseAlert_lcols (i : Nat) (s : State) : (raiseAlert i s).lcols = s.lcols := by
  unfold raiseAlert
  repeat' first | with_reducible rfl | split | intro _ | (simp; done) | rw [foldl_lcols] | simp

@[simp] theorem buFault_lcols (step code detail : Nat) (s : State) : (buFault step code detail s).lcols = s.lcols := by
  unfold buFault
  repeat' first | with_reducible rfl | split | intro _ | (simp; done) | rw [foldl_lcols] | simp

@[simp] theorem modCmd_lcols (k : Nat) (g : Cmd → Cmd) (s : State) : (modCmd k g s).lcols = s.lcols := by
  unfold modCmd
  repeat' first | with_reducible rfl | split | intro _ | (simp; done) | rw [foldl_lcols] | simp

@[simp] theorem finishCmd_lcols (k : Nat) (r : Reply) (s : State) : (finishCmd k r s).lcols = s.lcols := by
  unfold finishCmd
  repeat' first | with_reducible rfl | split | intro _ | (simp; done) | rw [foldl_lcols] | simp

@[simp] theorem modOp_lcols (k : Nat) (g : Op → Op) (s : State) : (modOp k g s).lcols = s.lcols := by
  unfold modOp
  repeat' first | with_reducible rfl | split | intro _ | (simp; done) | rw [foldl_lcols] | simp

@[simp] theorem reacquire_lcols (fs : List Nat) (s : State) : (reacquire fs s).lcols = s.lcols := by
  unfold reacquire
  repeat' first | with_reducible rfl | split | intro _ | (simp; done) | rw [foldl_lcols] | simp

/-! ### `lports` -/

@[simp] theorem hostWrite_lports (a : Nat) (l : List Byte) (s : State) : (hostWrite a l s).lports = s.lports := by
  unfold hostWrite
  repeat' first | with_reducible rfl | split | intro _ | (simp; done) | rw [foldl_lports] | simp

@[simp] theorem msix_lports (v : Nat) (s : State) : (msix v s).lports = s.lports := by
  unfold msix
  repeat' first | with_reducible rfl | split | intro _ | (simp; done) | rw [foldl_lports] | simp

@[simp] theorem eventTo_lports (code : Nat) (items : List Byte) (s : State) (m : Nat) : (eventTo code items s m).lports = s.lports := by
  unfold eventTo
  repeat' first | with_reducible rfl | split | intro _ | (simp; done) | rw [foldl_lports] | simp

@[simp] theorem post_lports (code : Nat) (items : List Byte) (s : State) : (post code items s).lports = s.lports := by
  unfold post
  repeat' first | with_reducible rfl | split | intro _ | (simp; done) | rw [foldl_lports] | simp

@[simp] theorem postOne_lports (m code : Nat) (items : List Byte) (s : State) : (postOne m code items s).lports = s.lports := by
  unfold postOne
  repeat' first | with_reducible rfl | split | intro _ | (simp; done) | rw [foldl_lports] | simp

@[simp] theorem raiseAlert_lports (i : Nat) (s : State) : (raiseAlert i s).lports = s.lports := by
  unfold raiseAlert
  repeat' first | with_reducible rfl | split | intro _ | (simp; done) | rw [foldl_lports] | simp

@[simp] theorem buFault_lports (step code detail : Nat) (s : State) : (buFault step code detail s).lports = s.lports := by
  unfold buFault
  repeat' first | with_reducible rfl | split | intro _ | (simp; done) | rw [foldl_lports] | simp

@[simp] theorem modCmd_lports (k : Nat) (g : Cmd → Cmd) (s : State) : (modCmd k g s).lports = s.lports := by
  unfold modCmd
  repeat' first | with_reducible rfl | split | intro _ | (simp; done) | rw [foldl_lports] | simp

@[simp] theorem finishCmd_lports (k : Nat) (r : Reply) (s : State) : (finishCmd k r s).lports = s.lports := by
  unfold finishCmd
  repeat' first | with_reducible rfl | split | intro _ | (simp; done) | rw [foldl_lports] | simp

@[simp] theorem putWord_lports (s : State) (w : Nat) (d : BitVec 64) : (putWord s w d).lports = s.lports := by
  unfold putWord
  repeat' first | with_reducible rfl | split | intro _ | (simp; done) | rw [foldl_lports] | simp

@[simp] theorem countCe_lports (u : Nat) (s : State) : (countCe u s).lports = s.lports := by
  unfold countCe
  repeat' first | with_reducible rfl | split | intro _ | (simp; done) | rw [foldl_lports] | simp

@[simp] theorem countUe_lports (u a : Nat) (s : State) : (countUe u a s).lports = s.lports := by
  unfold countUe
  repeat' first | with_reducible rfl | split | intro _ | (simp; done) | rw [foldl_lports] | simp

@[simp] theorem touchAcc_lports (s : State) (w : Nat) (e : BitVec 80) : (touchAcc s w e).lports = s.lports := by
  unfold touchAcc
  repeat' first | with_reducible rfl | split | intro _ | (simp; done) | rw [foldl_lports] | simp

@[simp] theorem touchPlain_lports (s : State) (w : Nat) (e : BitVec 80) : (touchPlain s w e).lports = s.lports := by
  unfold touchPlain
  repeat' first | with_reducible rfl | split | intro _ | (simp; done) | rw [foldl_lports] | simp

@[simp] theorem touchWord_lports (s : State) (w : Nat) (e : BitVec 80) : (touchWord s w e).lports = s.lports := by
  unfold touchWord
  repeat' first | with_reducible rfl | split | intro _ | (simp; done) | rw [foldl_lports] | simp

@[simp] theorem touchWhere_lports (q : Nat → Bool) (s : State) : (touchWhere q s).lports = s.lports := by
  unfold touchWhere
  repeat' first | with_reducible rfl | split | intro _ | (simp; done) | rw [foldl_lports] | simp

@[simp] theorem touch_lports (a n : Nat) (s : State) : (touch a n s).lports = s.lports := by
  unfold touch
  repeat' first | with_reducible rfl | split | intro _ | (simp; done) | rw [foldl_lports] | simp

@[simp] theorem upsetAt_lports (s : State) (a : Nat) (e : BitVec 80) : (upsetAt s a e).lports = s.lports := by
  unfold upsetAt
  repeat' first | with_reducible rfl | split | intro _ | (simp; done) | rw [foldl_lports] | simp

@[simp] theorem upset_lports (flips : List (Nat × BitVec 80)) (s : State) : (upset flips s).lports = s.lports := by
  unfold upset
  repeat' first | with_reducible rfl | split | intro _ | (simp; done) | rw [foldl_lports] | simp

@[simp] theorem putByte_lports (s : State) (a : Nat) (v : Byte) : (putByte s a v).lports = s.lports := by
  unfold putByte
  repeat' first | with_reducible rfl | split | intro _ | (simp; done) | rw [foldl_lports] | simp

@[simp] theorem putBytesAt_lports (l : List Byte) (s : State) (a : Nat) : (putBytesAt s a l).lports = s.lports := by
  induction l generalizing s a with
  | nil => rfl
  | cons v l ih => exact (ih _ _).trans (putByte_lports _ _ _)

@[simp] theorem putPoison_lports (s : State) (w : Nat) (full bad : Bool) : (putPoison s w full bad).lports = s.lports := by
  unfold putPoison
  repeat' first | with_reducible rfl | split | intro _ | (simp; done) | rw [foldl_lports] | simp

@[simp] theorem wrBytes_lports (a : Nat) (l : List Byte) (bad : Nat → Bool) (s : State) : (wrBytes a l bad s).lports = s.lports := by
  unfold wrBytes
  repeat' first | with_reducible rfl | split | intro _ | (simp; done) | rw [foldl_lports] | simp

@[simp] theorem wrClean_lports (a : Nat) (l : List Byte) (s : State) : (wrClean a l s).lports = s.lports := by
  unfold wrClean
  repeat' first | with_reducible rfl | split | intro _ | (simp; done) | rw [foldl_lports] | simp

@[simp] theorem showNow_lports (a n : Nat) (s : State) : (showNow a n s).lports = s.lports := by
  unfold showNow
  repeat' first | with_reducible rfl | split | intro _ | (simp; done) | rw [foldl_lports] | simp

@[simp] theorem wrShown_lports (a : Nat) (l : List Byte) (s : State) : (wrShown a l s).lports = s.lports := by
  unfold wrShown
  repeat' first | with_reducible rfl | split | intro _ | (simp; done) | rw [foldl_lports] | simp

@[simp] theorem carry_lports (p : NetPkt) (l : List (Nat × Nat)) (s : State) : (carry p l s).1.lports = s.lports := by
  induction l with
  | nil => rfl
  | cons h l ih => unfold carry; split <;> simp [ih]

@[simp] theorem hostAnswer_lports (p : NetPkt) (s : State) : (hostAnswer p s).lports = s.lports := by
  unfold hostAnswer
  repeat' first | with_reducible rfl | split | intro _ | (simp; done) | rw [foldl_lports] | simp

@[simp] theorem respond_lports (d : Nat) (data : List Byte) (poison : List Bool) (s : State) : (respond d data poison s).lports = s.lports := by
  unfold respond
  repeat' first | with_reducible rfl | split | intro _ | (simp; done) | rw [foldl_lports] | simp

@[simp] theorem cxlRespond_lports (a n : Nat) (s : State) : (cxlRespond a n s).lports = s.lports := by
  unfold cxlRespond
  repeat' first | with_reducible rfl | split | intro _ | (simp; done) | rw [foldl_lports] | simp

@[simp] theorem modOp_lports (k : Nat) (g : Op → Op) (s : State) : (modOp k g s).lports = s.lports := by
  unfold modOp
  repeat' first | with_reducible rfl | split | intro _ | (simp; done) | rw [foldl_lports] | simp

@[simp] theorem dropMaps_lports (p r n : Nat) (s : State) : (dropMaps p r n s).lports = s.lports := by
  unfold dropMaps
  repeat' first | with_reducible rfl | split | intro _ | (simp; done) | rw [foldl_lports] | simp

@[simp] theorem serveHeld_lports (u : Nat) (s : State) : (serveHeld u s).lports = s.lports := by
  unfold serveHeld
  repeat' first | with_reducible rfl | split | intro _ | (simp; done) | rw [foldl_lports] | simp

@[simp] theorem fenceCore_lports (c : Nat) (s : State) : (fenceCore c s).lports = s.lports := by
  unfold fenceCore
  repeat' first | with_reducible rfl | split | intro _ | (simp; done) | rw [foldl_lports] | simp

@[simp] theorem markFenced_lports (kind index sub : Nat) (s : State) : (markFenced kind index sub s).lports = s.lports := by
  unfold markFenced
  repeat' first | with_reducible rfl | split | intro _ | (simp; done) | rw [foldl_lports] | simp

@[simp] theorem endDisable_lports (s : State) (d : Nat × Nat × Nat × Nat × Nat) : (endDisable s d).lports = s.lports := by
  unfold endDisable
  repeat' first | with_reducible rfl | split | intro _ | (simp; done) | rw [foldl_lports] | simp

@[simp] theorem endDisables_lports (s : State) : (endDisables s).lports = s.lports := by
  unfold endDisables
  repeat' first | with_reducible rfl | split | intro _ | (simp; done) | rw [foldl_lports] | simp

@[simp] theorem signalToken_lports (p t n : Nat) (ab : Bool) (s : State) : (signalToken p t n ab s).lports = s.lports := by
  unfold signalToken
  repeat' first | with_reducible rfl | split | intro _ | (simp; done) | rw [foldl_lports] | simp

@[simp] theorem tokenBoundary_lports (p i : Nat) (s : State) : (tokenBoundary p i s).lports = s.lports := by
  unfold tokenBoundary
  repeat' first | with_reducible rfl | split | intro _ | (simp; done) | rw [foldl_lports] | simp

@[simp] theorem releaseEntry_lports (madv : Bool) (i : Nat) (s : State) : (releaseEntry madv i s).lports = s.lports := by
  unfold releaseEntry
  repeat' first | with_reducible rfl | split | intro _ | (simp; done) | rw [foldl_lports] | simp

@[simp] theorem releaseManifest_lports (o : Op) (aborted : Bool) (s : State) : (releaseManifest o aborted s).lports = s.lports := by
  unfold releaseManifest
  repeat' first | with_reducible rfl | split | intro _ | (simp; done) | rw [foldl_lports] | simp

@[simp] theorem releaseHeld_lports (o : Op) (s : State) : (releaseHeld o s).lports = s.lports := by
  unfold releaseHeld
  repeat' first | with_reducible rfl | split | intro _ | (simp; done) | rw [foldl_lports] | simp

@[simp] theorem releaseHandle_lports (o : Op) (s : State) : (releaseHandle o s).lports = s.lports := by
  unfold releaseHandle
  repeat' first | with_reducible rfl | split | intro _ | (simp; done) | rw [foldl_lports] | simp

@[simp] theorem releaseFields_lports (o : Op) (s : State) : (releaseFields o s).lports = s.lports := by
  unfold releaseFields
  repeat' first | with_reducible rfl | split | intro _ | (simp; done) | rw [foldl_lports] | simp

@[simp] theorem dropUnsent_lports (o : Op) (s : State) : (dropUnsent o s).lports = s.lports := by
  unfold dropUnsent
  repeat' first | with_reducible rfl | split | intro _ | (simp; done) | rw [foldl_lports] | simp

@[simp] theorem countRetired_lports (o : Op) (s : State) : (countRetired o s).lports = s.lports := by
  unfold countRetired
  repeat' first | with_reducible rfl | split | intro _ | (simp; done) | rw [foldl_lports] | simp

@[simp] theorem countAbort_lports (o : Op) (reason : Nat) (s : State) (k : Nat) : (countAbort o reason s k).lports = s.lports := by
  unfold countAbort
  repeat' first | with_reducible rfl | split | intro _ | (simp; done) | rw [foldl_lports] | simp

@[simp] theorem releaseCores_lports (o : Op) (s : State) : (releaseCores o s).lports = s.lports := by
  unfold releaseCores
  repeat' first | with_reducible rfl | split | intro _ | (simp; done) | rw [foldl_lports] | simp

@[simp] theorem showFence_lports (o : Op) (aborted : Bool) (s : State) : (showFence o aborted s).lports = s.lports := by
  unfold showFence
  repeat' first | with_reducible rfl | split | intro _ | (simp; done) | rw [foldl_lports] | simp

@[simp] theorem sendWord_lports (a : Nat) (l : List Byte) (s : State) : (sendWord a l s).lports = s.lports := by
  unfold sendWord
  repeat' first | with_reducible rfl | split | intro _ | (simp; done) | rw [foldl_lports] | simp

@[simp] theorem retire_lports (k : Nat) (aborted : Bool) (reason detail : Nat) (s : State) : (retire k aborted reason detail s).lports = s.lports := by
  unfold retire
  repeat' first | with_reducible rfl | split | intro _ | (simp; done) | rw [foldl_lports] | simp

@[simp] theorem retireAll_lports (ks : List Nat) (reason : Nat) (s : State) : (retireAll ks reason s).lports = s.lports := by
  unfold retireAll
  repeat' first | with_reducible rfl | split | intro _ | (simp; done) | rw [foldl_lports] | simp

@[simp] theorem calCmdEnd_lports (k : Nat) (s : State) : (calCmdEnd k s).lports = s.lports := by
  unfold calCmdEnd
  repeat' first | with_reducible rfl | split | intro _ | (simp; done) | rw [foldl_lports] | simp

@[simp] theorem clearDrive_lports (i : Nat) (s : State) : (clearDrive i s).lports = s.lports := by
  unfold clearDrive
  repeat' first | with_reducible rfl | split | intro _ | (simp; done) | rw [foldl_lports] | simp

@[simp] theorem restoreTrims_lports (keys : List Nat) (s : State) : (restoreTrims keys s).lports = s.lports := by
  unfold restoreTrims
  repeat' first | with_reducible rfl | split | intro _ | (simp; done) | rw [foldl_lports] | simp

@[simp] theorem dropProc_lports (i : Nat) (s : State) : (dropProc i s).lports = s.lports := by
  unfold dropProc
  repeat' first | with_reducible rfl | split | intro _ | (simp; done) | rw [foldl_lports] | simp

@[simp] theorem startProc_lports (f b proc : Nat) (rest : List Nat) (cmd : Option Nat) (s : State) : (startProc f b proc rest cmd s).lports = s.lports := by
  unfold startProc
  repeat' first | with_reducible rfl | split | intro _ | (simp; done) | rw [foldl_lports] | simp

@[simp] theorem stopUnit_lports (kind index sub : Nat) (s : State) : (stopUnit kind index sub s).lports = s.lports := by
  unfold stopUnit
  repeat' first | with_reducible rfl | split | intro _ | (simp; done) | rw [foldl_lports] | simp

@[simp] theorem contain_lports (kind index sub : Nat) (s : State) : (contain kind index sub s).lports = s.lports := by
  unfold contain
  repeat' first | with_reducible rfl | split | intro _ | (simp; done) | rw [foldl_lports] | simp

@[simp] theorem enterDeviceError_lports (cause : Nat) (s : State) : (enterDeviceError cause s).lports = s.lports := by
  unfold enterDeviceError
  repeat' first | with_reducible rfl | split | intro _ | (simp; done) | rw [foldl_lports] | simp

@[simp] theorem logFault_lports (e : FaultE) (outcome : Nat) (s : State) : (logFault e outcome s).lports = s.lports := by
  unfold logFault
  repeat' first | with_reducible rfl | split | intro _ | (simp; done) | rw [foldl_lports] | simp

@[simp] theorem supersede_lports (f : Nat) (s : State) : (supersede f s).lports = s.lports := by
  unfold supersede
  repeat' first | with_reducible rfl | split | intro _ | (simp; done) | rw [foldl_lports] | simp

@[simp] theorem fenceFor_lports (e : FaultE) (s : State) : (fenceFor e s).lports = s.lports := by
  unfold fenceFor
  repeat' first | with_reducible rfl | split | intro _ | (simp; done) | rw [foldl_lports] | simp

@[simp] theorem closeFenced_lports (e : FaultE) (s : State) : (closeFenced e s).lports = s.lports := by
  unfold closeFenced
  repeat' first | with_reducible rfl | split | intro _ | (simp; done) | rw [foldl_lports] | simp

@[simp] theorem answerEnable_lports (e : FaultE) (r : Reply) (s : State) : (answerEnable e r s).lports = s.lports := by
  unfold answerEnable
  repeat' first | with_reducible rfl | split | intro _ | (simp; done) | rw [foldl_lports] | simp

@[simp] theorem disableNow_lports (d : Nat × Nat × Nat × Nat × Nat) (status : Nat) (s : State) : (disableNow d status s).lports = s.lports := by
  unfold disableNow
  repeat' first | with_reducible rfl | split | intro _ | (simp; done) | rw [foldl_lports] | simp

@[simp] theorem enqueueFault_lports (e : FaultE) (s : State) : (enqueueFault e s).lports = s.lports := by
  unfold enqueueFault
  repeat' first | with_reducible rfl | split | intro _ | (simp; done) | rw [foldl_lports] | simp

@[simp] theorem failActive_lports (s : State) : (failActive s).lports = s.lports := by
  unfold failActive
  repeat' first | with_reducible rfl | split | intro _ | (simp; done) | rw [foldl_lports] | simp

@[simp] theorem noteColour_lports (code kind index detail : Nat) (s : State) : (noteColour code kind index detail s).lports = s.lports := by
  unfold noteColour
  repeat' first | with_reducible rfl | split | intro _ | (simp; done) | rw [foldl_lports] | simp

@[simp] theorem raiseFault_lports (code kind index sub detail : Nat) (s : State) : (raiseFault code kind index sub detail s).lports = s.lports := by
  unfold raiseFault
  repeat' first | with_reducible rfl | split | intro _ | (simp; done) | rw [foldl_lports] | simp

@[simp] theorem setTestV_lports (k : Nat) (v : Int) (s : State) : (setTestV k v s).lports = s.lports := by
  unfold setTestV
  repeat' first | with_reducible rfl | split | intro _ | (simp; done) | rw [foldl_lports] | simp

@[simp] theorem trigger_lports (k t : Nat) (s : State) : (trigger k t s).lports = s.lports := by
  unfold trigger
  repeat' first | with_reducible rfl | split | intro _ | (simp; done) | rw [foldl_lports] | simp

@[simp] theorem lapseRelay_lports (x : Nat) (s : State) : (lapseRelay x s).lports = s.lports := by
  unfold lapseRelay
  repeat' first | with_reducible rfl | split | intro _ | (simp; done) | rw [foldl_lports] | simp

@[simp] theorem assignRelay_lports (x n : Nat) (cmd : Option Nat) (s : State) : (assignRelay x n cmd s).lports = s.lports := by
  unfold assignRelay
  repeat' first | with_reducible rfl | split | intro _ | (simp; done) | rw [foldl_lports] | simp

@[simp] theorem reachF1_lports (n : Nat) (s : State) : (reachF1 n s).lports = s.lports := by
  unfold reachF1
  cases assignedRelay s n <;> cases freeRelay s <;> simp

@[simp] theorem settleF1_lports (s : State) : (settleF1 s).lports = s.lports := by
  unfold settleF1
  repeat' first | with_reducible rfl | split | intro _ | (simp; done) | rw [foldl_lports] | simp

@[simp] theorem assignTarget_lports (t n : Nat) (s : State) : (assignTarget t n s).lports = s.lports := by
  unfold assignTarget
  repeat' first | with_reducible rfl | split | intro _ | (simp; done) | rw [foldl_lports] | simp

@[simp] theorem reachF3_lports (n : Nat) (s : State) : (reachF3 n s).lports = s.lports := by
  unfold reachF3
  repeat' first | with_reducible rfl | split | intro _ | (simp; done) | rw [foldl_lports] | simp

@[simp] theorem failQuantity_lports (i proc key : Nat) (s : State) : (failQuantity i proc key s).lports = s.lports := by
  unfold failQuantity
  repeat' first | with_reducible rfl | split | intro _ | (simp; done) | rw [foldl_lports] | simp

@[simp] theorem restartOn_lports (fs : List Nat) (s : State) : (restartOn fs s).lports = s.lports := by
  unfold restartOn
  repeat' first | with_reducible rfl | split | intro _ | (simp; done) | rw [foldl_lports] | simp

@[simp] theorem reacquire_lports (fs : List Nat) (s : State) : (reacquire fs s).lports = s.lports := by
  unfold reacquire
  repeat' first | with_reducible rfl | split | intro _ | (simp; done) | rw [foldl_lports] | simp

/-! ### `relays` -/

@[simp] theorem hostWrite_relays (a : Nat) (l : List Byte) (s : State) : (hostWrite a l s).relays = s.relays := by
  unfold hostWrite
  repeat' first | with_reducible rfl | split | intro _ | (simp; done) | rw [foldl_relays] | simp

@[simp] theorem msix_relays (v : Nat) (s : State) : (msix v s).relays = s.relays := by
  unfold msix
  repeat' first | with_reducible rfl | split | intro _ | (simp; done) | rw [foldl_relays] | simp

@[simp] theorem eventTo_relays (code : Nat) (items : List Byte) (s : State) (m : Nat) : (eventTo code items s m).relays = s.relays := by
  unfold eventTo
  repeat' first | with_reducible rfl | split | intro _ | (simp; done) | rw [foldl_relays] | simp

@[simp] theorem post_relays (code : Nat) (items : List Byte) (s : State) : (post code items s).relays = s.relays := by
  unfold post
  repeat' first | with_reducible rfl | split | intro _ | (simp; done) | rw [foldl_relays] | simp

@[simp] theorem postOne_relays (m code : Nat) (items : List Byte) (s : State) : (postOne m code items s).relays = s.relays := by
  unfold postOne
  repeat' first | with_reducible rfl | split | intro _ | (simp; done) | rw [foldl_relays] | simp

@[simp] theorem raiseAlert_relays (i : Nat) (s : State) : (raiseAlert i s).relays = s.relays := by
  unfold raiseAlert
  repeat' first | with_reducible rfl | split | intro _ | (simp; done) | rw [foldl_relays] | simp

@[simp] theorem buFault_relays (step code detail : Nat) (s : State) : (buFault step code detail s).relays = s.relays := by
  unfold buFault
  repeat' first | with_reducible rfl | split | intro _ | (simp; done) | rw [foldl_relays] | simp

@[simp] theorem modCmd_relays (k : Nat) (g : Cmd → Cmd) (s : State) : (modCmd k g s).relays = s.relays := by
  unfold modCmd
  repeat' first | with_reducible rfl | split | intro _ | (simp; done) | rw [foldl_relays] | simp

@[simp] theorem finishCmd_relays (k : Nat) (r : Reply) (s : State) : (finishCmd k r s).relays = s.relays := by
  unfold finishCmd
  repeat' first | with_reducible rfl | split | intro _ | (simp; done) | rw [foldl_relays] | simp

@[simp] theorem modOp_relays (k : Nat) (g : Op → Op) (s : State) : (modOp k g s).relays = s.relays := by
  unfold modOp
  repeat' first | with_reducible rfl | split | intro _ | (simp; done) | rw [foldl_relays] | simp

@[simp] theorem setTestV_relays (k : Nat) (v : Int) (s : State) : (setTestV k v s).relays = s.relays := by
  unfold setTestV
  repeat' first | with_reducible rfl | split | intro _ | (simp; done) | rw [foldl_relays] | simp

@[simp] theorem trigger_relays (k t : Nat) (s : State) : (trigger k t s).relays = s.relays := by
  unfold trigger
  repeat' first | with_reducible rfl | split | intro _ | (simp; done) | rw [foldl_relays] | simp

/-! ### `light` -/

@[simp] theorem hostWrite_light (a : Nat) (l : List Byte) (s : State) : (hostWrite a l s).light = s.light := by
  unfold hostWrite
  repeat' first | with_reducible rfl | split | intro _ | (simp; done) | rw [foldl_light] | simp

@[simp] theorem msix_light (v : Nat) (s : State) : (msix v s).light = s.light := by
  unfold msix
  repeat' first | with_reducible rfl | split | intro _ | (simp; done) | rw [foldl_light] | simp

@[simp] theorem eventTo_light (code : Nat) (items : List Byte) (s : State) (m : Nat) : (eventTo code items s m).light = s.light := by
  unfold eventTo
  repeat' first | with_reducible rfl | split | intro _ | (simp; done) | rw [foldl_light] | simp

@[simp] theorem post_light (code : Nat) (items : List Byte) (s : State) : (post code items s).light = s.light := by
  unfold post
  repeat' first | with_reducible rfl | split | intro _ | (simp; done) | rw [foldl_light] | simp

@[simp] theorem postOne_light (m code : Nat) (items : List Byte) (s : State) : (postOne m code items s).light = s.light := by
  unfold postOne
  repeat' first | with_reducible rfl | split | intro _ | (simp; done) | rw [foldl_light] | simp

@[simp] theorem raiseAlert_light (i : Nat) (s : State) : (raiseAlert i s).light = s.light := by
  unfold raiseAlert
  repeat' first | with_reducible rfl | split | intro _ | (simp; done) | rw [foldl_light] | simp

@[simp] theorem buFault_light (step code detail : Nat) (s : State) : (buFault step code detail s).light = s.light := by
  unfold buFault
  repeat' first | with_reducible rfl | split | intro _ | (simp; done) | rw [foldl_light] | simp

@[simp] theorem modCmd_light (k : Nat) (g : Cmd → Cmd) (s : State) : (modCmd k g s).light = s.light := by
  unfold modCmd
  repeat' first | with_reducible rfl | split | intro _ | (simp; done) | rw [foldl_light] | simp

@[simp] theorem finishCmd_light (k : Nat) (r : Reply) (s : State) : (finishCmd k r s).light = s.light := by
  unfold finishCmd
  repeat' first | with_reducible rfl | split | intro _ | (simp; done) | rw [foldl_light] | simp

@[simp] theorem modOp_light (k : Nat) (g : Op → Op) (s : State) : (modOp k g s).light = s.light := by
  unfold modOp
  repeat' first | with_reducible rfl | split | intro _ | (simp; done) | rw [foldl_light] | simp

/-! ### `mons` -/

@[simp] theorem hostWrite_mons (a : Nat) (l : List Byte) (s : State) : (hostWrite a l s).mons = s.mons := by
  unfold hostWrite
  repeat' first | with_reducible rfl | split | intro _ | (simp; done) | rw [foldl_mons] | simp

@[simp] theorem msix_mons (v : Nat) (s : State) : (msix v s).mons = s.mons := by
  unfold msix
  repeat' first | with_reducible rfl | split | intro _ | (simp; done) | rw [foldl_mons] | simp

@[simp] theorem eventTo_mons (code : Nat) (items : List Byte) (s : State) (m : Nat) : (eventTo code items s m).mons = s.mons := by
  unfold eventTo
  repeat' first | with_reducible rfl | split | intro _ | (simp; done) | rw [foldl_mons] | simp

@[simp] theorem post_mons (code : Nat) (items : List Byte) (s : State) : (post code items s).mons = s.mons := by
  unfold post
  repeat' first | with_reducible rfl | split | intro _ | (simp; done) | rw [foldl_mons] | simp

@[simp] theorem postOne_mons (m code : Nat) (items : List Byte) (s : State) : (postOne m code items s).mons = s.mons := by
  unfold postOne
  repeat' first | with_reducible rfl | split | intro _ | (simp; done) | rw [foldl_mons] | simp

@[simp] theorem raiseAlert_mons (i : Nat) (s : State) : (raiseAlert i s).mons = s.mons := by
  unfold raiseAlert
  repeat' first | with_reducible rfl | split | intro _ | (simp; done) | rw [foldl_mons] | simp

@[simp] theorem buFault_mons (step code detail : Nat) (s : State) : (buFault step code detail s).mons = s.mons := by
  unfold buFault
  repeat' first | with_reducible rfl | split | intro _ | (simp; done) | rw [foldl_mons] | simp

@[simp] theorem modCmd_mons (k : Nat) (g : Cmd → Cmd) (s : State) : (modCmd k g s).mons = s.mons := by
  unfold modCmd
  repeat' first | with_reducible rfl | split | intro _ | (simp; done) | rw [foldl_mons] | simp

@[simp] theorem finishCmd_mons (k : Nat) (r : Reply) (s : State) : (finishCmd k r s).mons = s.mons := by
  unfold finishCmd
  repeat' first | with_reducible rfl | split | intro _ | (simp; done) | rw [foldl_mons] | simp

@[simp] theorem modOp_mons (k : Nat) (g : Op → Op) (s : State) : (modOp k g s).mons = s.mons := by
  unfold modOp
  repeat' first | with_reducible rfl | split | intro _ | (simp; done) | rw [foldl_mons] | simp

/-! ### `monLasts` -/

@[simp] theorem hostWrite_monLasts (a : Nat) (l : List Byte) (s : State) : (hostWrite a l s).monLasts = s.monLasts := by
  unfold hostWrite
  repeat' first | with_reducible rfl | split | intro _ | (simp; done) | rw [foldl_monLasts] | simp

@[simp] theorem msix_monLasts (v : Nat) (s : State) : (msix v s).monLasts = s.monLasts := by
  unfold msix
  repeat' first | with_reducible rfl | split | intro _ | (simp; done) | rw [foldl_monLasts] | simp

@[simp] theorem eventTo_monLasts (code : Nat) (items : List Byte) (s : State) (m : Nat) : (eventTo code items s m).monLasts = s.monLasts := by
  unfold eventTo
  repeat' first | with_reducible rfl | split | intro _ | (simp; done) | rw [foldl_monLasts] | simp

@[simp] theorem post_monLasts (code : Nat) (items : List Byte) (s : State) : (post code items s).monLasts = s.monLasts := by
  unfold post
  repeat' first | with_reducible rfl | split | intro _ | (simp; done) | rw [foldl_monLasts] | simp

@[simp] theorem postOne_monLasts (m code : Nat) (items : List Byte) (s : State) : (postOne m code items s).monLasts = s.monLasts := by
  unfold postOne
  repeat' first | with_reducible rfl | split | intro _ | (simp; done) | rw [foldl_monLasts] | simp

@[simp] theorem raiseAlert_monLasts (i : Nat) (s : State) : (raiseAlert i s).monLasts = s.monLasts := by
  unfold raiseAlert
  repeat' first | with_reducible rfl | split | intro _ | (simp; done) | rw [foldl_monLasts] | simp

@[simp] theorem buFault_monLasts (step code detail : Nat) (s : State) : (buFault step code detail s).monLasts = s.monLasts := by
  unfold buFault
  repeat' first | with_reducible rfl | split | intro _ | (simp; done) | rw [foldl_monLasts] | simp

@[simp] theorem modCmd_monLasts (k : Nat) (g : Cmd → Cmd) (s : State) : (modCmd k g s).monLasts = s.monLasts := by
  unfold modCmd
  repeat' first | with_reducible rfl | split | intro _ | (simp; done) | rw [foldl_monLasts] | simp

@[simp] theorem finishCmd_monLasts (k : Nat) (r : Reply) (s : State) : (finishCmd k r s).monLasts = s.monLasts := by
  unfold finishCmd
  repeat' first | with_reducible rfl | split | intro _ | (simp; done) | rw [foldl_monLasts] | simp

@[simp] theorem modOp_monLasts (k : Nat) (g : Op → Op) (s : State) : (modOp k g s).monLasts = s.monLasts := by
  unfold modOp
  repeat' first | with_reducible rfl | split | intro _ | (simp; done) | rw [foldl_monLasts] | simp

/-! ### `ring` -/

@[simp] theorem hostWrite_ring (a : Nat) (l : List Byte) (s : State) : (hostWrite a l s).ring = s.ring := by
  unfold hostWrite
  repeat' first | with_reducible rfl | split | intro _ | (simp; done) | rw [foldl_ring] | simp

@[simp] theorem msix_ring (v : Nat) (s : State) : (msix v s).ring = s.ring := by
  unfold msix
  repeat' first | with_reducible rfl | split | intro _ | (simp; done) | rw [foldl_ring] | simp

@[simp] theorem eventTo_ring (code : Nat) (items : List Byte) (s : State) (m : Nat) : (eventTo code items s m).ring = s.ring := by
  unfold eventTo
  repeat' first | with_reducible rfl | split | intro _ | (simp; done) | rw [foldl_ring] | simp

@[simp] theorem post_ring (code : Nat) (items : List Byte) (s : State) : (post code items s).ring = s.ring := by
  unfold post
  repeat' first | with_reducible rfl | split | intro _ | (simp; done) | rw [foldl_ring] | simp

@[simp] theorem postOne_ring (m code : Nat) (items : List Byte) (s : State) : (postOne m code items s).ring = s.ring := by
  unfold postOne
  repeat' first | with_reducible rfl | split | intro _ | (simp; done) | rw [foldl_ring] | simp

@[simp] theorem raiseAlert_ring (i : Nat) (s : State) : (raiseAlert i s).ring = s.ring := by
  unfold raiseAlert
  repeat' first | with_reducible rfl | split | intro _ | (simp; done) | rw [foldl_ring] | simp

@[simp] theorem buFault_ring (step code detail : Nat) (s : State) : (buFault step code detail s).ring = s.ring := by
  unfold buFault
  repeat' first | with_reducible rfl | split | intro _ | (simp; done) | rw [foldl_ring] | simp

@[simp] theorem modCmd_ring (k : Nat) (g : Cmd → Cmd) (s : State) : (modCmd k g s).ring = s.ring := by
  unfold modCmd
  repeat' first | with_reducible rfl | split | intro _ | (simp; done) | rw [foldl_ring] | simp

@[simp] theorem finishCmd_ring (k : Nat) (r : Reply) (s : State) : (finishCmd k r s).ring = s.ring := by
  unfold finishCmd
  repeat' first | with_reducible rfl | split | intro _ | (simp; done) | rw [foldl_ring] | simp

@[simp] theorem modOp_ring (k : Nat) (g : Op → Op) (s : State) : (modOp k g s).ring = s.ring := by
  unfold modOp
  repeat' first | with_reducible rfl | split | intro _ | (simp; done) | rw [foldl_ring] | simp

/-! ### `loops` -/

@[simp] theorem hostWrite_loops (a : Nat) (l : List Byte) (s : State) : (hostWrite a l s).loops = s.loops := by
  unfold hostWrite
  repeat' first | with_reducible rfl | split | intro _ | (simp; done) | rw [foldl_loops] | simp

@[simp] theorem msix_loops (v : Nat) (s : State) : (msix v s).loops = s.loops := by
  unfold msix
  repeat' first | with_reducible rfl | split | intro _ | (simp; done) | rw [foldl_loops] | simp

@[simp] theorem eventTo_loops (code : Nat) (items : List Byte) (s : State) (m : Nat) : (eventTo code items s m).loops = s.loops := by
  unfold eventTo
  repeat' first | with_reducible rfl | split | intro _ | (simp; done) | rw [foldl_loops] | simp

@[simp] theorem post_loops (code : Nat) (items : List Byte) (s : State) : (post code items s).loops = s.loops := by
  unfold post
  repeat' first | with_reducible rfl | split | intro _ | (simp; done) | rw [foldl_loops] | simp

@[simp] theorem postOne_loops (m code : Nat) (items : List Byte) (s : State) : (postOne m code items s).loops = s.loops := by
  unfold postOne
  repeat' first | with_reducible rfl | split | intro _ | (simp; done) | rw [foldl_loops] | simp

@[simp] theorem raiseAlert_loops (i : Nat) (s : State) : (raiseAlert i s).loops = s.loops := by
  unfold raiseAlert
  repeat' first | with_reducible rfl | split | intro _ | (simp; done) | rw [foldl_loops] | simp

@[simp] theorem buFault_loops (step code detail : Nat) (s : State) : (buFault step code detail s).loops = s.loops := by
  unfold buFault
  repeat' first | with_reducible rfl | split | intro _ | (simp; done) | rw [foldl_loops] | simp

@[simp] theorem modCmd_loops (k : Nat) (g : Cmd → Cmd) (s : State) : (modCmd k g s).loops = s.loops := by
  unfold modCmd
  repeat' first | with_reducible rfl | split | intro _ | (simp; done) | rw [foldl_loops] | simp

@[simp] theorem finishCmd_loops (k : Nat) (r : Reply) (s : State) : (finishCmd k r s).loops = s.loops := by
  unfold finishCmd
  repeat' first | with_reducible rfl | split | intro _ | (simp; done) | rw [foldl_loops] | simp

@[simp] theorem modOp_loops (k : Nat) (g : Op → Op) (s : State) : (modOp k g s).loops = s.loops := by
  unfold modOp
  repeat' first | with_reducible rfl | split | intro _ | (simp; done) | rw [foldl_loops] | simp

/-! ### `eng` -/

@[simp] theorem hostWrite_eng (a : Nat) (l : List Byte) (s : State) : (hostWrite a l s).eng = s.eng := by
  unfold hostWrite
  repeat' first | with_reducible rfl | split | intro _ | (simp; done) | rw [foldl_eng] | simp

@[simp] theorem msix_eng (v : Nat) (s : State) : (msix v s).eng = s.eng := by
  unfold msix
  repeat' first | with_reducible rfl | split | intro _ | (simp; done) | rw [foldl_eng] | simp

@[simp] theorem eventTo_eng (code : Nat) (items : List Byte) (s : State) (m : Nat) : (eventTo code items s m).eng = s.eng := by
  unfold eventTo
  repeat' first | with_reducible rfl | split | intro _ | (simp; done) | rw [foldl_eng] | simp

@[simp] theorem post_eng (code : Nat) (items : List Byte) (s : State) : (post code items s).eng = s.eng := by
  unfold post
  repeat' first | with_reducible rfl | split | intro _ | (simp; done) | rw [foldl_eng] | simp

@[simp] theorem postOne_eng (m code : Nat) (items : List Byte) (s : State) : (postOne m code items s).eng = s.eng := by
  unfold postOne
  repeat' first | with_reducible rfl | split | intro _ | (simp; done) | rw [foldl_eng] | simp

@[simp] theorem raiseAlert_eng (i : Nat) (s : State) : (raiseAlert i s).eng = s.eng := by
  unfold raiseAlert
  repeat' first | with_reducible rfl | split | intro _ | (simp; done) | rw [foldl_eng] | simp

@[simp] theorem buFault_eng (step code detail : Nat) (s : State) : (buFault step code detail s).eng = s.eng := by
  unfold buFault
  repeat' first | with_reducible rfl | split | intro _ | (simp; done) | rw [foldl_eng] | simp

@[simp] theorem modCmd_eng (k : Nat) (g : Cmd → Cmd) (s : State) : (modCmd k g s).eng = s.eng := by
  unfold modCmd
  repeat' first | with_reducible rfl | split | intro _ | (simp; done) | rw [foldl_eng] | simp

@[simp] theorem finishCmd_eng (k : Nat) (r : Reply) (s : State) : (finishCmd k r s).eng = s.eng := by
  unfold finishCmd
  repeat' first | with_reducible rfl | split | intro _ | (simp; done) | rw [foldl_eng] | simp

@[simp] theorem modOp_eng (k : Nat) (g : Op → Op) (s : State) : (modOp k g s).eng = s.eng := by
  unfold modOp
  repeat' first | with_reducible rfl | split | intro _ | (simp; done) | rw [foldl_eng] | simp

/-! ### `streams` -/

@[simp] theorem hostWrite_streams (a : Nat) (l : List Byte) (s : State) : (hostWrite a l s).streams = s.streams := by
  unfold hostWrite
  repeat' first | with_reducible rfl | split | intro _ | (simp; done) | rw [foldl_streams] | simp

@[simp] theorem msix_streams (v : Nat) (s : State) : (msix v s).streams = s.streams := by
  unfold msix
  repeat' first | with_reducible rfl | split | intro _ | (simp; done) | rw [foldl_streams] | simp

@[simp] theorem eventTo_streams (code : Nat) (items : List Byte) (s : State) (m : Nat) : (eventTo code items s m).streams = s.streams := by
  unfold eventTo
  repeat' first | with_reducible rfl | split | intro _ | (simp; done) | rw [foldl_streams] | simp

@[simp] theorem post_streams (code : Nat) (items : List Byte) (s : State) : (post code items s).streams = s.streams := by
  unfold post
  repeat' first | with_reducible rfl | split | intro _ | (simp; done) | rw [foldl_streams] | simp

@[simp] theorem postOne_streams (m code : Nat) (items : List Byte) (s : State) : (postOne m code items s).streams = s.streams := by
  unfold postOne
  repeat' first | with_reducible rfl | split | intro _ | (simp; done) | rw [foldl_streams] | simp

@[simp] theorem raiseAlert_streams (i : Nat) (s : State) : (raiseAlert i s).streams = s.streams := by
  unfold raiseAlert
  repeat' first | with_reducible rfl | split | intro _ | (simp; done) | rw [foldl_streams] | simp

@[simp] theorem buFault_streams (step code detail : Nat) (s : State) : (buFault step code detail s).streams = s.streams := by
  unfold buFault
  repeat' first | with_reducible rfl | split | intro _ | (simp; done) | rw [foldl_streams] | simp

@[simp] theorem modCmd_streams (k : Nat) (g : Cmd → Cmd) (s : State) : (modCmd k g s).streams = s.streams := by
  unfold modCmd
  repeat' first | with_reducible rfl | split | intro _ | (simp; done) | rw [foldl_streams] | simp

@[simp] theorem finishCmd_streams (k : Nat) (r : Reply) (s : State) : (finishCmd k r s).streams = s.streams := by
  unfold finishCmd
  repeat' first | with_reducible rfl | split | intro _ | (simp; done) | rw [foldl_streams] | simp

@[simp] theorem modOp_streams (k : Nat) (g : Op → Op) (s : State) : (modOp k g s).streams = s.streams := by
  unfold modOp
  repeat' first | with_reducible rfl | split | intro _ | (simp; done) | rw [foldl_streams] | simp

/-! ### `ops` -/

@[simp] theorem hostWrite_ops (a : Nat) (l : List Byte) (s : State) : (hostWrite a l s).ops = s.ops := by
  unfold hostWrite
  repeat' first | with_reducible rfl | split | intro _ | (simp; done) | rw [foldl_ops] | simp

@[simp] theorem msix_ops (v : Nat) (s : State) : (msix v s).ops = s.ops := by
  unfold msix
  repeat' first | with_reducible rfl | split | intro _ | (simp; done) | rw [foldl_ops] | simp

@[simp] theorem eventTo_ops (code : Nat) (items : List Byte) (s : State) (m : Nat) : (eventTo code items s m).ops = s.ops := by
  unfold eventTo
  repeat' first | with_reducible rfl | split | intro _ | (simp; done) | rw [foldl_ops] | simp

@[simp] theorem post_ops (code : Nat) (items : List Byte) (s : State) : (post code items s).ops = s.ops := by
  unfold post
  repeat' first | with_reducible rfl | split | intro _ | (simp; done) | rw [foldl_ops] | simp

@[simp] theorem postOne_ops (m code : Nat) (items : List Byte) (s : State) : (postOne m code items s).ops = s.ops := by
  unfold postOne
  repeat' first | with_reducible rfl | split | intro _ | (simp; done) | rw [foldl_ops] | simp

@[simp] theorem raiseAlert_ops (i : Nat) (s : State) : (raiseAlert i s).ops = s.ops := by
  unfold raiseAlert
  repeat' first | with_reducible rfl | split | intro _ | (simp; done) | rw [foldl_ops] | simp

@[simp] theorem buFault_ops (step code detail : Nat) (s : State) : (buFault step code detail s).ops = s.ops := by
  unfold buFault
  repeat' first | with_reducible rfl | split | intro _ | (simp; done) | rw [foldl_ops] | simp

@[simp] theorem modCmd_ops (k : Nat) (g : Cmd → Cmd) (s : State) : (modCmd k g s).ops = s.ops := by
  unfold modCmd
  repeat' first | with_reducible rfl | split | intro _ | (simp; done) | rw [foldl_ops] | simp

@[simp] theorem finishCmd_ops (k : Nat) (r : Reply) (s : State) : (finishCmd k r s).ops = s.ops := by
  unfold finishCmd
  repeat' first | with_reducible rfl | split | intro _ | (simp; done) | rw [foldl_ops] | simp

@[simp] theorem setTestV_ops (k : Nat) (v : Int) (s : State) : (setTestV k v s).ops = s.ops := by
  unfold setTestV
  repeat' first | with_reducible rfl | split | intro _ | (simp; done) | rw [foldl_ops] | simp

@[simp] theorem trigger_ops (k t : Nat) (s : State) : (trigger k t s).ops = s.ops := by
  unfold trigger
  repeat' first | with_reducible rfl | split | intro _ | (simp; done) | rw [foldl_ops] | simp

@[simp] theorem lapseRelay_ops (x : Nat) (s : State) : (lapseRelay x s).ops = s.ops := by
  unfold lapseRelay
  repeat' first | with_reducible rfl | split | intro _ | (simp; done) | rw [foldl_ops] | simp

@[simp] theorem restartOn_ops (fs : List Nat) (s : State) : (restartOn fs s).ops = s.ops := by
  unfold restartOn
  repeat' first | with_reducible rfl | split | intro _ | (simp; done) | rw [foldl_ops] | simp

@[simp] theorem reacquire_ops (fs : List Nat) (s : State) : (reacquire fs s).ops = s.ops := by
  unfold reacquire
  repeat' first | with_reducible rfl | split | intro _ | (simp; done) | rw [foldl_ops] | simp

/-! ### `seq` -/

@[simp] theorem hostWrite_seq (a : Nat) (l : List Byte) (s : State) : (hostWrite a l s).seq = s.seq := by
  unfold hostWrite
  repeat' first | with_reducible rfl | split | intro _ | (simp; done) | rw [foldl_seq] | simp

@[simp] theorem msix_seq (v : Nat) (s : State) : (msix v s).seq = s.seq := by
  unfold msix
  repeat' first | with_reducible rfl | split | intro _ | (simp; done) | rw [foldl_seq] | simp

@[simp] theorem eventTo_seq (code : Nat) (items : List Byte) (s : State) (m : Nat) : (eventTo code items s m).seq = s.seq := by
  unfold eventTo
  repeat' first | with_reducible rfl | split | intro _ | (simp; done) | rw [foldl_seq] | simp

@[simp] theorem post_seq (code : Nat) (items : List Byte) (s : State) : (post code items s).seq = s.seq := by
  unfold post
  repeat' first | with_reducible rfl | split | intro _ | (simp; done) | rw [foldl_seq] | simp

@[simp] theorem postOne_seq (m code : Nat) (items : List Byte) (s : State) : (postOne m code items s).seq = s.seq := by
  unfold postOne
  repeat' first | with_reducible rfl | split | intro _ | (simp; done) | rw [foldl_seq] | simp

@[simp] theorem raiseAlert_seq (i : Nat) (s : State) : (raiseAlert i s).seq = s.seq := by
  unfold raiseAlert
  repeat' first | with_reducible rfl | split | intro _ | (simp; done) | rw [foldl_seq] | simp

@[simp] theorem buFault_seq (step code detail : Nat) (s : State) : (buFault step code detail s).seq = s.seq := by
  unfold buFault
  repeat' first | with_reducible rfl | split | intro _ | (simp; done) | rw [foldl_seq] | simp

@[simp] theorem modCmd_seq (k : Nat) (g : Cmd → Cmd) (s : State) : (modCmd k g s).seq = s.seq := by
  unfold modCmd
  repeat' first | with_reducible rfl | split | intro _ | (simp; done) | rw [foldl_seq] | simp

@[simp] theorem finishCmd_seq (k : Nat) (r : Reply) (s : State) : (finishCmd k r s).seq = s.seq := by
  unfold finishCmd
  repeat' first | with_reducible rfl | split | intro _ | (simp; done) | rw [foldl_seq] | simp

@[simp] theorem modOp_seq (k : Nat) (g : Op → Op) (s : State) : (modOp k g s).seq = s.seq := by
  unfold modOp
  repeat' first | with_reducible rfl | split | intro _ | (simp; done) | rw [foldl_seq] | simp

/-! ### `tokens` -/

@[simp] theorem hostWrite_tokens (a : Nat) (l : List Byte) (s : State) : (hostWrite a l s).tokens = s.tokens := by
  unfold hostWrite
  repeat' first | with_reducible rfl | split | intro _ | (simp; done) | rw [foldl_tokens] | simp

@[simp] theorem msix_tokens (v : Nat) (s : State) : (msix v s).tokens = s.tokens := by
  unfold msix
  repeat' first | with_reducible rfl | split | intro _ | (simp; done) | rw [foldl_tokens] | simp

@[simp] theorem eventTo_tokens (code : Nat) (items : List Byte) (s : State) (m : Nat) : (eventTo code items s m).tokens = s.tokens := by
  unfold eventTo
  repeat' first | with_reducible rfl | split | intro _ | (simp; done) | rw [foldl_tokens] | simp

@[simp] theorem post_tokens (code : Nat) (items : List Byte) (s : State) : (post code items s).tokens = s.tokens := by
  unfold post
  repeat' first | with_reducible rfl | split | intro _ | (simp; done) | rw [foldl_tokens] | simp

@[simp] theorem postOne_tokens (m code : Nat) (items : List Byte) (s : State) : (postOne m code items s).tokens = s.tokens := by
  unfold postOne
  repeat' first | with_reducible rfl | split | intro _ | (simp; done) | rw [foldl_tokens] | simp

@[simp] theorem raiseAlert_tokens (i : Nat) (s : State) : (raiseAlert i s).tokens = s.tokens := by
  unfold raiseAlert
  repeat' first | with_reducible rfl | split | intro _ | (simp; done) | rw [foldl_tokens] | simp

@[simp] theorem buFault_tokens (step code detail : Nat) (s : State) : (buFault step code detail s).tokens = s.tokens := by
  unfold buFault
  repeat' first | with_reducible rfl | split | intro _ | (simp; done) | rw [foldl_tokens] | simp

@[simp] theorem modCmd_tokens (k : Nat) (g : Cmd → Cmd) (s : State) : (modCmd k g s).tokens = s.tokens := by
  unfold modCmd
  repeat' first | with_reducible rfl | split | intro _ | (simp; done) | rw [foldl_tokens] | simp

@[simp] theorem finishCmd_tokens (k : Nat) (r : Reply) (s : State) : (finishCmd k r s).tokens = s.tokens := by
  unfold finishCmd
  repeat' first | with_reducible rfl | split | intro _ | (simp; done) | rw [foldl_tokens] | simp

@[simp] theorem modOp_tokens (k : Nat) (g : Op → Op) (s : State) : (modOp k g s).tokens = s.tokens := by
  unfold modOp
  repeat' first | with_reducible rfl | split | intro _ | (simp; done) | rw [foldl_tokens] | simp

/-! ### `rowMaps` -/

@[simp] theorem hostWrite_rowMaps (a : Nat) (l : List Byte) (s : State) : (hostWrite a l s).rowMaps = s.rowMaps := by
  unfold hostWrite
  repeat' first | with_reducible rfl | split | intro _ | (simp; done) | rw [foldl_rowMaps] | simp

@[simp] theorem msix_rowMaps (v : Nat) (s : State) : (msix v s).rowMaps = s.rowMaps := by
  unfold msix
  repeat' first | with_reducible rfl | split | intro _ | (simp; done) | rw [foldl_rowMaps] | simp

@[simp] theorem eventTo_rowMaps (code : Nat) (items : List Byte) (s : State) (m : Nat) : (eventTo code items s m).rowMaps = s.rowMaps := by
  unfold eventTo
  repeat' first | with_reducible rfl | split | intro _ | (simp; done) | rw [foldl_rowMaps] | simp

@[simp] theorem post_rowMaps (code : Nat) (items : List Byte) (s : State) : (post code items s).rowMaps = s.rowMaps := by
  unfold post
  repeat' first | with_reducible rfl | split | intro _ | (simp; done) | rw [foldl_rowMaps] | simp

@[simp] theorem postOne_rowMaps (m code : Nat) (items : List Byte) (s : State) : (postOne m code items s).rowMaps = s.rowMaps := by
  unfold postOne
  repeat' first | with_reducible rfl | split | intro _ | (simp; done) | rw [foldl_rowMaps] | simp

@[simp] theorem raiseAlert_rowMaps (i : Nat) (s : State) : (raiseAlert i s).rowMaps = s.rowMaps := by
  unfold raiseAlert
  repeat' first | with_reducible rfl | split | intro _ | (simp; done) | rw [foldl_rowMaps] | simp

@[simp] theorem buFault_rowMaps (step code detail : Nat) (s : State) : (buFault step code detail s).rowMaps = s.rowMaps := by
  unfold buFault
  repeat' first | with_reducible rfl | split | intro _ | (simp; done) | rw [foldl_rowMaps] | simp

@[simp] theorem modCmd_rowMaps (k : Nat) (g : Cmd → Cmd) (s : State) : (modCmd k g s).rowMaps = s.rowMaps := by
  unfold modCmd
  repeat' first | with_reducible rfl | split | intro _ | (simp; done) | rw [foldl_rowMaps] | simp

@[simp] theorem finishCmd_rowMaps (k : Nat) (r : Reply) (s : State) : (finishCmd k r s).rowMaps = s.rowMaps := by
  unfold finishCmd
  repeat' first | with_reducible rfl | split | intro _ | (simp; done) | rw [foldl_rowMaps] | simp

@[simp] theorem modOp_rowMaps (k : Nat) (g : Op → Op) (s : State) : (modOp k g s).rowMaps = s.rowMaps := by
  unfold modOp
  repeat' first | with_reducible rfl | split | intro _ | (simp; done) | rw [foldl_rowMaps] | simp

/-! ### `manifest` -/

@[simp] theorem hostWrite_manifest (a : Nat) (l : List Byte) (s : State) : (hostWrite a l s).manifest = s.manifest := by
  unfold hostWrite
  repeat' first | with_reducible rfl | split | intro _ | (simp; done) | rw [foldl_manifest] | simp

@[simp] theorem msix_manifest (v : Nat) (s : State) : (msix v s).manifest = s.manifest := by
  unfold msix
  repeat' first | with_reducible rfl | split | intro _ | (simp; done) | rw [foldl_manifest] | simp

@[simp] theorem eventTo_manifest (code : Nat) (items : List Byte) (s : State) (m : Nat) : (eventTo code items s m).manifest = s.manifest := by
  unfold eventTo
  repeat' first | with_reducible rfl | split | intro _ | (simp; done) | rw [foldl_manifest] | simp

@[simp] theorem post_manifest (code : Nat) (items : List Byte) (s : State) : (post code items s).manifest = s.manifest := by
  unfold post
  repeat' first | with_reducible rfl | split | intro _ | (simp; done) | rw [foldl_manifest] | simp

@[simp] theorem postOne_manifest (m code : Nat) (items : List Byte) (s : State) : (postOne m code items s).manifest = s.manifest := by
  unfold postOne
  repeat' first | with_reducible rfl | split | intro _ | (simp; done) | rw [foldl_manifest] | simp

@[simp] theorem raiseAlert_manifest (i : Nat) (s : State) : (raiseAlert i s).manifest = s.manifest := by
  unfold raiseAlert
  repeat' first | with_reducible rfl | split | intro _ | (simp; done) | rw [foldl_manifest] | simp

@[simp] theorem buFault_manifest (step code detail : Nat) (s : State) : (buFault step code detail s).manifest = s.manifest := by
  unfold buFault
  repeat' first | with_reducible rfl | split | intro _ | (simp; done) | rw [foldl_manifest] | simp

@[simp] theorem modCmd_manifest (k : Nat) (g : Cmd → Cmd) (s : State) : (modCmd k g s).manifest = s.manifest := by
  unfold modCmd
  repeat' first | with_reducible rfl | split | intro _ | (simp; done) | rw [foldl_manifest] | simp

@[simp] theorem finishCmd_manifest (k : Nat) (r : Reply) (s : State) : (finishCmd k r s).manifest = s.manifest := by
  unfold finishCmd
  repeat' first | with_reducible rfl | split | intro _ | (simp; done) | rw [foldl_manifest] | simp

@[simp] theorem modOp_manifest (k : Nat) (g : Op → Op) (s : State) : (modOp k g s).manifest = s.manifest := by
  unfold modOp
  repeat' first | with_reducible rfl | split | intro _ | (simp; done) | rw [foldl_manifest] | simp

/-! ### `cores` -/

@[simp] theorem hostWrite_cores (a : Nat) (l : List Byte) (s : State) : (hostWrite a l s).cores = s.cores := by
  unfold hostWrite
  repeat' first | with_reducible rfl | split | intro _ | (simp; done) | rw [foldl_cores] | simp

@[simp] theorem msix_cores (v : Nat) (s : State) : (msix v s).cores = s.cores := by
  unfold msix
  repeat' first | with_reducible rfl | split | intro _ | (simp; done) | rw [foldl_cores] | simp

@[simp] theorem eventTo_cores (code : Nat) (items : List Byte) (s : State) (m : Nat) : (eventTo code items s m).cores = s.cores := by
  unfold eventTo
  repeat' first | with_reducible rfl | split | intro _ | (simp; done) | rw [foldl_cores] | simp

@[simp] theorem post_cores (code : Nat) (items : List Byte) (s : State) : (post code items s).cores = s.cores := by
  unfold post
  repeat' first | with_reducible rfl | split | intro _ | (simp; done) | rw [foldl_cores] | simp

@[simp] theorem postOne_cores (m code : Nat) (items : List Byte) (s : State) : (postOne m code items s).cores = s.cores := by
  unfold postOne
  repeat' first | with_reducible rfl | split | intro _ | (simp; done) | rw [foldl_cores] | simp

@[simp] theorem raiseAlert_cores (i : Nat) (s : State) : (raiseAlert i s).cores = s.cores := by
  unfold raiseAlert
  repeat' first | with_reducible rfl | split | intro _ | (simp; done) | rw [foldl_cores] | simp

@[simp] theorem buFault_cores (step code detail : Nat) (s : State) : (buFault step code detail s).cores = s.cores := by
  unfold buFault
  repeat' first | with_reducible rfl | split | intro _ | (simp; done) | rw [foldl_cores] | simp

@[simp] theorem modCmd_cores (k : Nat) (g : Cmd → Cmd) (s : State) : (modCmd k g s).cores = s.cores := by
  unfold modCmd
  repeat' first | with_reducible rfl | split | intro _ | (simp; done) | rw [foldl_cores] | simp

@[simp] theorem finishCmd_cores (k : Nat) (r : Reply) (s : State) : (finishCmd k r s).cores = s.cores := by
  unfold finishCmd
  repeat' first | with_reducible rfl | split | intro _ | (simp; done) | rw [foldl_cores] | simp

@[simp] theorem modOp_cores (k : Nat) (g : Op → Op) (s : State) : (modOp k g s).cores = s.cores := by
  unfold modOp
  repeat' first | with_reducible rfl | split | intro _ | (simp; done) | rw [foldl_cores] | simp

/-! ### `mem` -/

@[simp] theorem hostWrite_mem (a : Nat) (l : List Byte) (s : State) : (hostWrite a l s).mem = s.mem := by
  unfold hostWrite
  repeat' first | with_reducible rfl | split | intro _ | (simp; done) | rw [foldl_mem] | simp

@[simp] theorem msix_mem (v : Nat) (s : State) : (msix v s).mem = s.mem := by
  unfold msix
  repeat' first | with_reducible rfl | split | intro _ | (simp; done) | rw [foldl_mem] | simp

@[simp] theorem eventTo_mem (code : Nat) (items : List Byte) (s : State) (m : Nat) : (eventTo code items s m).mem = s.mem := by
  unfold eventTo
  repeat' first | with_reducible rfl | split | intro _ | (simp; done) | rw [foldl_mem] | simp

@[simp] theorem post_mem (code : Nat) (items : List Byte) (s : State) : (post code items s).mem = s.mem := by
  unfold post
  repeat' first | with_reducible rfl | split | intro _ | (simp; done) | rw [foldl_mem] | simp

@[simp] theorem postOne_mem (m code : Nat) (items : List Byte) (s : State) : (postOne m code items s).mem = s.mem := by
  unfold postOne
  repeat' first | with_reducible rfl | split | intro _ | (simp; done) | rw [foldl_mem] | simp

@[simp] theorem raiseAlert_mem (i : Nat) (s : State) : (raiseAlert i s).mem = s.mem := by
  unfold raiseAlert
  repeat' first | with_reducible rfl | split | intro _ | (simp; done) | rw [foldl_mem] | simp

@[simp] theorem buFault_mem (step code detail : Nat) (s : State) : (buFault step code detail s).mem = s.mem := by
  unfold buFault
  repeat' first | with_reducible rfl | split | intro _ | (simp; done) | rw [foldl_mem] | simp

@[simp] theorem modCmd_mem (k : Nat) (g : Cmd → Cmd) (s : State) : (modCmd k g s).mem = s.mem := by
  unfold modCmd
  repeat' first | with_reducible rfl | split | intro _ | (simp; done) | rw [foldl_mem] | simp

@[simp] theorem finishCmd_mem (k : Nat) (r : Reply) (s : State) : (finishCmd k r s).mem = s.mem := by
  unfold finishCmd
  repeat' first | with_reducible rfl | split | intro _ | (simp; done) | rw [foldl_mem] | simp

@[simp] theorem modOp_mem (k : Nat) (g : Op → Op) (s : State) : (modOp k g s).mem = s.mem := by
  unfold modOp
  repeat' first | with_reducible rfl | split | intro _ | (simp; done) | rw [foldl_mem] | simp

@[simp] theorem setTestV_mem (k : Nat) (v : Int) (s : State) : (setTestV k v s).mem = s.mem := by
  unfold setTestV
  repeat' first | with_reducible rfl | split | intro _ | (simp; done) | rw [foldl_mem] | simp

@[simp] theorem trigger_mem (k t : Nat) (s : State) : (trigger k t s).mem = s.mem := by
  unfold trigger
  repeat' first | with_reducible rfl | split | intro _ | (simp; done) | rw [foldl_mem] | simp

@[simp] theorem lapseRelay_mem (x : Nat) (s : State) : (lapseRelay x s).mem = s.mem := by
  unfold lapseRelay
  repeat' first | with_reducible rfl | split | intro _ | (simp; done) | rw [foldl_mem] | simp

@[simp] theorem restartOn_mem (fs : List Nat) (s : State) : (restartOn fs s).mem = s.mem := by
  unfold restartOn
  repeat' first | with_reducible rfl | split | intro _ | (simp; done) | rw [foldl_mem] | simp

@[simp] theorem reacquire_mem (fs : List Nat) (s : State) : (reacquire fs s).mem = s.mem := by
  unfold reacquire
  repeat' first | with_reducible rfl | split | intro _ | (simp; done) | rw [foldl_mem] | simp

/-! ### `poison` -/

@[simp] theorem hostWrite_poison (a : Nat) (l : List Byte) (s : State) : (hostWrite a l s).poison = s.poison := by
  unfold hostWrite
  repeat' first | with_reducible rfl | split | intro _ | (simp; done) | rw [foldl_poison] | simp

@[simp] theorem msix_poison (v : Nat) (s : State) : (msix v s).poison = s.poison := by
  unfold msix
  repeat' first | with_reducible rfl | split | intro _ | (simp; done) | rw [foldl_poison] | simp

@[simp] theorem eventTo_poison (code : Nat) (items : List Byte) (s : State) (m : Nat) : (eventTo code items s m).poison = s.poison := by
  unfold eventTo
  repeat' first | with_reducible rfl | split | intro _ | (simp; done) | rw [foldl_poison] | simp

@[simp] theorem post_poison (code : Nat) (items : List Byte) (s : State) : (post code items s).poison = s.poison := by
  unfold post
  repeat' first | with_reducible rfl | split | intro _ | (simp; done) | rw [foldl_poison] | simp

@[simp] theorem postOne_poison (m code : Nat) (items : List Byte) (s : State) : (postOne m code items s).poison = s.poison := by
  unfold postOne
  repeat' first | with_reducible rfl | split | intro _ | (simp; done) | rw [foldl_poison] | simp

@[simp] theorem raiseAlert_poison (i : Nat) (s : State) : (raiseAlert i s).poison = s.poison := by
  unfold raiseAlert
  repeat' first | with_reducible rfl | split | intro _ | (simp; done) | rw [foldl_poison] | simp

@[simp] theorem buFault_poison (step code detail : Nat) (s : State) : (buFault step code detail s).poison = s.poison := by
  unfold buFault
  repeat' first | with_reducible rfl | split | intro _ | (simp; done) | rw [foldl_poison] | simp

@[simp] theorem modCmd_poison (k : Nat) (g : Cmd → Cmd) (s : State) : (modCmd k g s).poison = s.poison := by
  unfold modCmd
  repeat' first | with_reducible rfl | split | intro _ | (simp; done) | rw [foldl_poison] | simp

@[simp] theorem finishCmd_poison (k : Nat) (r : Reply) (s : State) : (finishCmd k r s).poison = s.poison := by
  unfold finishCmd
  repeat' first | with_reducible rfl | split | intro _ | (simp; done) | rw [foldl_poison] | simp

@[simp] theorem modOp_poison (k : Nat) (g : Op → Op) (s : State) : (modOp k g s).poison = s.poison := by
  unfold modOp
  repeat' first | with_reducible rfl | split | intro _ | (simp; done) | rw [foldl_poison] | simp

/-! ### `errs` -/

@[simp] theorem hostWrite_errs (a : Nat) (l : List Byte) (s : State) : (hostWrite a l s).errs = s.errs := by
  unfold hostWrite
  repeat' first | with_reducible rfl | split | intro _ | (simp; done) | rw [foldl_errs] | simp

@[simp] theorem msix_errs (v : Nat) (s : State) : (msix v s).errs = s.errs := by
  unfold msix
  repeat' first | with_reducible rfl | split | intro _ | (simp; done) | rw [foldl_errs] | simp

@[simp] theorem eventTo_errs (code : Nat) (items : List Byte) (s : State) (m : Nat) : (eventTo code items s m).errs = s.errs := by
  unfold eventTo
  repeat' first | with_reducible rfl | split | intro _ | (simp; done) | rw [foldl_errs] | simp

@[simp] theorem post_errs (code : Nat) (items : List Byte) (s : State) : (post code items s).errs = s.errs := by
  unfold post
  repeat' first | with_reducible rfl | split | intro _ | (simp; done) | rw [foldl_errs] | simp

@[simp] theorem postOne_errs (m code : Nat) (items : List Byte) (s : State) : (postOne m code items s).errs = s.errs := by
  unfold postOne
  repeat' first | with_reducible rfl | split | intro _ | (simp; done) | rw [foldl_errs] | simp

@[simp] theorem raiseAlert_errs (i : Nat) (s : State) : (raiseAlert i s).errs = s.errs := by
  unfold raiseAlert
  repeat' first | with_reducible rfl | split | intro _ | (simp; done) | rw [foldl_errs] | simp

@[simp] theorem buFault_errs (step code detail : Nat) (s : State) : (buFault step code detail s).errs = s.errs := by
  unfold buFault
  repeat' first | with_reducible rfl | split | intro _ | (simp; done) | rw [foldl_errs] | simp

@[simp] theorem modCmd_errs (k : Nat) (g : Cmd → Cmd) (s : State) : (modCmd k g s).errs = s.errs := by
  unfold modCmd
  repeat' first | with_reducible rfl | split | intro _ | (simp; done) | rw [foldl_errs] | simp

@[simp] theorem finishCmd_errs (k : Nat) (r : Reply) (s : State) : (finishCmd k r s).errs = s.errs := by
  unfold finishCmd
  repeat' first | with_reducible rfl | split | intro _ | (simp; done) | rw [foldl_errs] | simp

@[simp] theorem modOp_errs (k : Nat) (g : Op → Op) (s : State) : (modOp k g s).errs = s.errs := by
  unfold modOp
  repeat' first | with_reducible rfl | split | intro _ | (simp; done) | rw [foldl_errs] | simp

/-! ### `units` -/

@[simp] theorem hostWrite_units (a : Nat) (l : List Byte) (s : State) : (hostWrite a l s).units = s.units := by
  unfold hostWrite
  repeat' first | with_reducible rfl | split | intro _ | (simp; done) | rw [foldl_units] | simp

@[simp] theorem msix_units (v : Nat) (s : State) : (msix v s).units = s.units := by
  unfold msix
  repeat' first | with_reducible rfl | split | intro _ | (simp; done) | rw [foldl_units] | simp

@[simp] theorem eventTo_units (code : Nat) (items : List Byte) (s : State) (m : Nat) : (eventTo code items s m).units = s.units := by
  unfold eventTo
  repeat' first | with_reducible rfl | split | intro _ | (simp; done) | rw [foldl_units] | simp

@[simp] theorem post_units (code : Nat) (items : List Byte) (s : State) : (post code items s).units = s.units := by
  unfold post
  repeat' first | with_reducible rfl | split | intro _ | (simp; done) | rw [foldl_units] | simp

@[simp] theorem postOne_units (m code : Nat) (items : List Byte) (s : State) : (postOne m code items s).units = s.units := by
  unfold postOne
  repeat' first | with_reducible rfl | split | intro _ | (simp; done) | rw [foldl_units] | simp

@[simp] theorem raiseAlert_units (i : Nat) (s : State) : (raiseAlert i s).units = s.units := by
  unfold raiseAlert
  repeat' first | with_reducible rfl | split | intro _ | (simp; done) | rw [foldl_units] | simp

@[simp] theorem buFault_units (step code detail : Nat) (s : State) : (buFault step code detail s).units = s.units := by
  unfold buFault
  repeat' first | with_reducible rfl | split | intro _ | (simp; done) | rw [foldl_units] | simp

@[simp] theorem modCmd_units (k : Nat) (g : Cmd → Cmd) (s : State) : (modCmd k g s).units = s.units := by
  unfold modCmd
  repeat' first | with_reducible rfl | split | intro _ | (simp; done) | rw [foldl_units] | simp

@[simp] theorem finishCmd_units (k : Nat) (r : Reply) (s : State) : (finishCmd k r s).units = s.units := by
  unfold finishCmd
  repeat' first | with_reducible rfl | split | intro _ | (simp; done) | rw [foldl_units] | simp

@[simp] theorem modOp_units (k : Nat) (g : Op → Op) (s : State) : (modOp k g s).units = s.units := by
  unfold modOp
  repeat' first | with_reducible rfl | split | intro _ | (simp; done) | rw [foldl_units] | simp

/-! ### `regions` -/

@[simp] theorem hostWrite_regions (a : Nat) (l : List Byte) (s : State) : (hostWrite a l s).regions = s.regions := by
  unfold hostWrite
  repeat' first | with_reducible rfl | split | intro _ | (simp; done) | rw [foldl_regions] | simp

@[simp] theorem msix_regions (v : Nat) (s : State) : (msix v s).regions = s.regions := by
  unfold msix
  repeat' first | with_reducible rfl | split | intro _ | (simp; done) | rw [foldl_regions] | simp

@[simp] theorem eventTo_regions (code : Nat) (items : List Byte) (s : State) (m : Nat) : (eventTo code items s m).regions = s.regions := by
  unfold eventTo
  repeat' first | with_reducible rfl | split | intro _ | (simp; done) | rw [foldl_regions] | simp

@[simp] theorem post_regions (code : Nat) (items : List Byte) (s : State) : (post code items s).regions = s.regions := by
  unfold post
  repeat' first | with_reducible rfl | split | intro _ | (simp; done) | rw [foldl_regions] | simp

@[simp] theorem postOne_regions (m code : Nat) (items : List Byte) (s : State) : (postOne m code items s).regions = s.regions := by
  unfold postOne
  repeat' first | with_reducible rfl | split | intro _ | (simp; done) | rw [foldl_regions] | simp

@[simp] theorem raiseAlert_regions (i : Nat) (s : State) : (raiseAlert i s).regions = s.regions := by
  unfold raiseAlert
  repeat' first | with_reducible rfl | split | intro _ | (simp; done) | rw [foldl_regions] | simp

@[simp] theorem buFault_regions (step code detail : Nat) (s : State) : (buFault step code detail s).regions = s.regions := by
  unfold buFault
  repeat' first | with_reducible rfl | split | intro _ | (simp; done) | rw [foldl_regions] | simp

@[simp] theorem modCmd_regions (k : Nat) (g : Cmd → Cmd) (s : State) : (modCmd k g s).regions = s.regions := by
  unfold modCmd
  repeat' first | with_reducible rfl | split | intro _ | (simp; done) | rw [foldl_regions] | simp

@[simp] theorem finishCmd_regions (k : Nat) (r : Reply) (s : State) : (finishCmd k r s).regions = s.regions := by
  unfold finishCmd
  repeat' first | with_reducible rfl | split | intro _ | (simp; done) | rw [foldl_regions] | simp

@[simp] theorem modOp_regions (k : Nat) (g : Op → Op) (s : State) : (modOp k g s).regions = s.regions := by
  unfold modOp
  repeat' first | with_reducible rfl | split | intro _ | (simp; done) | rw [foldl_regions] | simp

/-! ### `memTop` -/

@[simp] theorem hostWrite_memTop (a : Nat) (l : List Byte) (s : State) : (hostWrite a l s).memTop = s.memTop := by
  unfold hostWrite
  repeat' first | with_reducible rfl | split | intro _ | (simp; done) | rw [foldl_memTop] | simp

@[simp] theorem msix_memTop (v : Nat) (s : State) : (msix v s).memTop = s.memTop := by
  unfold msix
  repeat' first | with_reducible rfl | split | intro _ | (simp; done) | rw [foldl_memTop] | simp

@[simp] theorem eventTo_memTop (code : Nat) (items : List Byte) (s : State) (m : Nat) : (eventTo code items s m).memTop = s.memTop := by
  unfold eventTo
  repeat' first | with_reducible rfl | split | intro _ | (simp; done) | rw [foldl_memTop] | simp

@[simp] theorem post_memTop (code : Nat) (items : List Byte) (s : State) : (post code items s).memTop = s.memTop := by
  unfold post
  repeat' first | with_reducible rfl | split | intro _ | (simp; done) | rw [foldl_memTop] | simp

@[simp] theorem postOne_memTop (m code : Nat) (items : List Byte) (s : State) : (postOne m code items s).memTop = s.memTop := by
  unfold postOne
  repeat' first | with_reducible rfl | split | intro _ | (simp; done) | rw [foldl_memTop] | simp

@[simp] theorem raiseAlert_memTop (i : Nat) (s : State) : (raiseAlert i s).memTop = s.memTop := by
  unfold raiseAlert
  repeat' first | with_reducible rfl | split | intro _ | (simp; done) | rw [foldl_memTop] | simp

@[simp] theorem buFault_memTop (step code detail : Nat) (s : State) : (buFault step code detail s).memTop = s.memTop := by
  unfold buFault
  repeat' first | with_reducible rfl | split | intro _ | (simp; done) | rw [foldl_memTop] | simp

@[simp] theorem modCmd_memTop (k : Nat) (g : Cmd → Cmd) (s : State) : (modCmd k g s).memTop = s.memTop := by
  unfold modCmd
  repeat' first | with_reducible rfl | split | intro _ | (simp; done) | rw [foldl_memTop] | simp

@[simp] theorem finishCmd_memTop (k : Nat) (r : Reply) (s : State) : (finishCmd k r s).memTop = s.memTop := by
  unfold finishCmd
  repeat' first | with_reducible rfl | split | intro _ | (simp; done) | rw [foldl_memTop] | simp

@[simp] theorem modOp_memTop (k : Nat) (g : Op → Op) (s : State) : (modOp k g s).memTop = s.memTop := by
  unfold modOp
  repeat' first | with_reducible rfl | split | intro _ | (simp; done) | rw [foldl_memTop] | simp

/-! ### `dir` -/

@[simp] theorem hostWrite_dir (a : Nat) (l : List Byte) (s : State) : (hostWrite a l s).dir = s.dir := by
  unfold hostWrite
  repeat' first | with_reducible rfl | split | intro _ | (simp; done) | rw [foldl_dir] | simp

@[simp] theorem msix_dir (v : Nat) (s : State) : (msix v s).dir = s.dir := by
  unfold msix
  repeat' first | with_reducible rfl | split | intro _ | (simp; done) | rw [foldl_dir] | simp

@[simp] theorem eventTo_dir (code : Nat) (items : List Byte) (s : State) (m : Nat) : (eventTo code items s m).dir = s.dir := by
  unfold eventTo
  repeat' first | with_reducible rfl | split | intro _ | (simp; done) | rw [foldl_dir] | simp

@[simp] theorem post_dir (code : Nat) (items : List Byte) (s : State) : (post code items s).dir = s.dir := by
  unfold post
  repeat' first | with_reducible rfl | split | intro _ | (simp; done) | rw [foldl_dir] | simp

@[simp] theorem postOne_dir (m code : Nat) (items : List Byte) (s : State) : (postOne m code items s).dir = s.dir := by
  unfold postOne
  repeat' first | with_reducible rfl | split | intro _ | (simp; done) | rw [foldl_dir] | simp

@[simp] theorem raiseAlert_dir (i : Nat) (s : State) : (raiseAlert i s).dir = s.dir := by
  unfold raiseAlert
  repeat' first | with_reducible rfl | split | intro _ | (simp; done) | rw [foldl_dir] | simp

@[simp] theorem buFault_dir (step code detail : Nat) (s : State) : (buFault step code detail s).dir = s.dir := by
  unfold buFault
  repeat' first | with_reducible rfl | split | intro _ | (simp; done) | rw [foldl_dir] | simp

@[simp] theorem modCmd_dir (k : Nat) (g : Cmd → Cmd) (s : State) : (modCmd k g s).dir = s.dir := by
  unfold modCmd
  repeat' first | with_reducible rfl | split | intro _ | (simp; done) | rw [foldl_dir] | simp

@[simp] theorem finishCmd_dir (k : Nat) (r : Reply) (s : State) : (finishCmd k r s).dir = s.dir := by
  unfold finishCmd
  repeat' first | with_reducible rfl | split | intro _ | (simp; done) | rw [foldl_dir] | simp

@[simp] theorem modOp_dir (k : Nat) (g : Op → Op) (s : State) : (modOp k g s).dir = s.dir := by
  unfold modOp
  repeat' first | with_reducible rfl | split | intro _ | (simp; done) | rw [foldl_dir] | simp

/-! ### `ctxs` -/

@[simp] theorem hostWrite_ctxs (a : Nat) (l : List Byte) (s : State) : (hostWrite a l s).ctxs = s.ctxs := by
  unfold hostWrite
  repeat' first | with_reducible rfl | split | intro _ | (simp; done) | rw [foldl_ctxs] | simp

@[simp] theorem msix_ctxs (v : Nat) (s : State) : (msix v s).ctxs = s.ctxs := by
  unfold msix
  repeat' first | with_reducible rfl | split | intro _ | (simp; done) | rw [foldl_ctxs] | simp

@[simp] theorem eventTo_ctxs (code : Nat) (items : List Byte) (s : State) (m : Nat) : (eventTo code items s m).ctxs = s.ctxs := by
  unfold eventTo
  repeat' first | with_reducible rfl | split | intro _ | (simp; done) | rw [foldl_ctxs] | simp

@[simp] theorem post_ctxs (code : Nat) (items : List Byte) (s : State) : (post code items s).ctxs = s.ctxs := by
  unfold post
  repeat' first | with_reducible rfl | split | intro _ | (simp; done) | rw [foldl_ctxs] | simp

@[simp] theorem postOne_ctxs (m code : Nat) (items : List Byte) (s : State) : (postOne m code items s).ctxs = s.ctxs := by
  unfold postOne
  repeat' first | with_reducible rfl | split | intro _ | (simp; done) | rw [foldl_ctxs] | simp

@[simp] theorem raiseAlert_ctxs (i : Nat) (s : State) : (raiseAlert i s).ctxs = s.ctxs := by
  unfold raiseAlert
  repeat' first | with_reducible rfl | split | intro _ | (simp; done) | rw [foldl_ctxs] | simp

@[simp] theorem buFault_ctxs (step code detail : Nat) (s : State) : (buFault step code detail s).ctxs = s.ctxs := by
  unfold buFault
  repeat' first | with_reducible rfl | split | intro _ | (simp; done) | rw [foldl_ctxs] | simp

@[simp] theorem modCmd_ctxs (k : Nat) (g : Cmd → Cmd) (s : State) : (modCmd k g s).ctxs = s.ctxs := by
  unfold modCmd
  repeat' first | with_reducible rfl | split | intro _ | (simp; done) | rw [foldl_ctxs] | simp

@[simp] theorem finishCmd_ctxs (k : Nat) (r : Reply) (s : State) : (finishCmd k r s).ctxs = s.ctxs := by
  unfold finishCmd
  repeat' first | with_reducible rfl | split | intro _ | (simp; done) | rw [foldl_ctxs] | simp

@[simp] theorem modOp_ctxs (k : Nat) (g : Op → Op) (s : State) : (modOp k g s).ctxs = s.ctxs := by
  unfold modOp
  repeat' first | with_reducible rfl | split | intro _ | (simp; done) | rw [foldl_ctxs] | simp

/-! ### `swaps` -/

@[simp] theorem hostWrite_swaps (a : Nat) (l : List Byte) (s : State) : (hostWrite a l s).swaps = s.swaps := by
  unfold hostWrite
  repeat' first | with_reducible rfl | split | intro _ | (simp; done) | rw [foldl_swaps] | simp

@[simp] theorem msix_swaps (v : Nat) (s : State) : (msix v s).swaps = s.swaps := by
  unfold msix
  repeat' first | with_reducible rfl | split | intro _ | (simp; done) | rw [foldl_swaps] | simp

@[simp] theorem eventTo_swaps (code : Nat) (items : List Byte) (s : State) (m : Nat) : (eventTo code items s m).swaps = s.swaps := by
  unfold eventTo
  repeat' first | with_reducible rfl | split | intro _ | (simp; done) | rw [foldl_swaps] | simp

@[simp] theorem post_swaps (code : Nat) (items : List Byte) (s : State) : (post code items s).swaps = s.swaps := by
  unfold post
  repeat' first | with_reducible rfl | split | intro _ | (simp; done) | rw [foldl_swaps] | simp

@[simp] theorem postOne_swaps (m code : Nat) (items : List Byte) (s : State) : (postOne m code items s).swaps = s.swaps := by
  unfold postOne
  repeat' first | with_reducible rfl | split | intro _ | (simp; done) | rw [foldl_swaps] | simp

@[simp] theorem raiseAlert_swaps (i : Nat) (s : State) : (raiseAlert i s).swaps = s.swaps := by
  unfold raiseAlert
  repeat' first | with_reducible rfl | split | intro _ | (simp; done) | rw [foldl_swaps] | simp

@[simp] theorem buFault_swaps (step code detail : Nat) (s : State) : (buFault step code detail s).swaps = s.swaps := by
  unfold buFault
  repeat' first | with_reducible rfl | split | intro _ | (simp; done) | rw [foldl_swaps] | simp

@[simp] theorem modCmd_swaps (k : Nat) (g : Cmd → Cmd) (s : State) : (modCmd k g s).swaps = s.swaps := by
  unfold modCmd
  repeat' first | with_reducible rfl | split | intro _ | (simp; done) | rw [foldl_swaps] | simp

@[simp] theorem finishCmd_swaps (k : Nat) (r : Reply) (s : State) : (finishCmd k r s).swaps = s.swaps := by
  unfold finishCmd
  repeat' first | with_reducible rfl | split | intro _ | (simp; done) | rw [foldl_swaps] | simp

@[simp] theorem modOp_swaps (k : Nat) (g : Op → Op) (s : State) : (modOp k g s).swaps = s.swaps := by
  unfold modOp
  repeat' first | with_reducible rfl | split | intro _ | (simp; done) | rw [foldl_swaps] | simp

/-! ### `wts` -/

@[simp] theorem hostWrite_wts (a : Nat) (l : List Byte) (s : State) : (hostWrite a l s).wts = s.wts := by
  unfold hostWrite
  repeat' first | with_reducible rfl | split | intro _ | (simp; done) | rw [foldl_wts] | simp

@[simp] theorem msix_wts (v : Nat) (s : State) : (msix v s).wts = s.wts := by
  unfold msix
  repeat' first | with_reducible rfl | split | intro _ | (simp; done) | rw [foldl_wts] | simp

@[simp] theorem eventTo_wts (code : Nat) (items : List Byte) (s : State) (m : Nat) : (eventTo code items s m).wts = s.wts := by
  unfold eventTo
  repeat' first | with_reducible rfl | split | intro _ | (simp; done) | rw [foldl_wts] | simp

@[simp] theorem post_wts (code : Nat) (items : List Byte) (s : State) : (post code items s).wts = s.wts := by
  unfold post
  repeat' first | with_reducible rfl | split | intro _ | (simp; done) | rw [foldl_wts] | simp

@[simp] theorem postOne_wts (m code : Nat) (items : List Byte) (s : State) : (postOne m code items s).wts = s.wts := by
  unfold postOne
  repeat' first | with_reducible rfl | split | intro _ | (simp; done) | rw [foldl_wts] | simp

@[simp] theorem raiseAlert_wts (i : Nat) (s : State) : (raiseAlert i s).wts = s.wts := by
  unfold raiseAlert
  repeat' first | with_reducible rfl | split | intro _ | (simp; done) | rw [foldl_wts] | simp

@[simp] theorem buFault_wts (step code detail : Nat) (s : State) : (buFault step code detail s).wts = s.wts := by
  unfold buFault
  repeat' first | with_reducible rfl | split | intro _ | (simp; done) | rw [foldl_wts] | simp

@[simp] theorem modCmd_wts (k : Nat) (g : Cmd → Cmd) (s : State) : (modCmd k g s).wts = s.wts := by
  unfold modCmd
  repeat' first | with_reducible rfl | split | intro _ | (simp; done) | rw [foldl_wts] | simp

@[simp] theorem finishCmd_wts (k : Nat) (r : Reply) (s : State) : (finishCmd k r s).wts = s.wts := by
  unfold finishCmd
  repeat' first | with_reducible rfl | split | intro _ | (simp; done) | rw [foldl_wts] | simp

@[simp] theorem modOp_wts (k : Nat) (g : Op → Op) (s : State) : (modOp k g s).wts = s.wts := by
  unfold modOp
  repeat' first | with_reducible rfl | split | intro _ | (simp; done) | rw [foldl_wts] | simp

/-! ### `netLinks` -/

@[simp] theorem hostWrite_netLinks (a : Nat) (l : List Byte) (s : State) : (hostWrite a l s).netLinks = s.netLinks := by
  unfold hostWrite
  repeat' first | with_reducible rfl | split | intro _ | (simp; done) | rw [foldl_netLinks] | simp

@[simp] theorem msix_netLinks (v : Nat) (s : State) : (msix v s).netLinks = s.netLinks := by
  unfold msix
  repeat' first | with_reducible rfl | split | intro _ | (simp; done) | rw [foldl_netLinks] | simp

@[simp] theorem eventTo_netLinks (code : Nat) (items : List Byte) (s : State) (m : Nat) : (eventTo code items s m).netLinks = s.netLinks := by
  unfold eventTo
  repeat' first | with_reducible rfl | split | intro _ | (simp; done) | rw [foldl_netLinks] | simp

@[simp] theorem post_netLinks (code : Nat) (items : List Byte) (s : State) : (post code items s).netLinks = s.netLinks := by
  unfold post
  repeat' first | with_reducible rfl | split | intro _ | (simp; done) | rw [foldl_netLinks] | simp

@[simp] theorem postOne_netLinks (m code : Nat) (items : List Byte) (s : State) : (postOne m code items s).netLinks = s.netLinks := by
  unfold postOne
  repeat' first | with_reducible rfl | split | intro _ | (simp; done) | rw [foldl_netLinks] | simp

@[simp] theorem raiseAlert_netLinks (i : Nat) (s : State) : (raiseAlert i s).netLinks = s.netLinks := by
  unfold raiseAlert
  repeat' first | with_reducible rfl | split | intro _ | (simp; done) | rw [foldl_netLinks] | simp

@[simp] theorem buFault_netLinks (step code detail : Nat) (s : State) : (buFault step code detail s).netLinks = s.netLinks := by
  unfold buFault
  repeat' first | with_reducible rfl | split | intro _ | (simp; done) | rw [foldl_netLinks] | simp

@[simp] theorem modCmd_netLinks (k : Nat) (g : Cmd → Cmd) (s : State) : (modCmd k g s).netLinks = s.netLinks := by
  unfold modCmd
  repeat' first | with_reducible rfl | split | intro _ | (simp; done) | rw [foldl_netLinks] | simp

@[simp] theorem finishCmd_netLinks (k : Nat) (r : Reply) (s : State) : (finishCmd k r s).netLinks = s.netLinks := by
  unfold finishCmd
  repeat' first | with_reducible rfl | split | intro _ | (simp; done) | rw [foldl_netLinks] | simp

@[simp] theorem modOp_netLinks (k : Nat) (g : Op → Op) (s : State) : (modOp k g s).netLinks = s.netLinks := by
  unfold modOp
  repeat' first | with_reducible rfl | split | intro _ | (simp; done) | rw [foldl_netLinks] | simp

/-! ### `parts` -/

@[simp] theorem hostWrite_parts (a : Nat) (l : List Byte) (s : State) : (hostWrite a l s).parts = s.parts := by
  unfold hostWrite
  repeat' first | with_reducible rfl | split | intro _ | (simp; done) | rw [foldl_parts] | simp

@[simp] theorem msix_parts (v : Nat) (s : State) : (msix v s).parts = s.parts := by
  unfold msix
  repeat' first | with_reducible rfl | split | intro _ | (simp; done) | rw [foldl_parts] | simp

@[simp] theorem eventTo_parts (code : Nat) (items : List Byte) (s : State) (m : Nat) : (eventTo code items s m).parts = s.parts := by
  unfold eventTo
  repeat' first | with_reducible rfl | split | intro _ | (simp; done) | rw [foldl_parts] | simp

@[simp] theorem post_parts (code : Nat) (items : List Byte) (s : State) : (post code items s).parts = s.parts := by
  unfold post
  repeat' first | with_reducible rfl | split | intro _ | (simp; done) | rw [foldl_parts] | simp

@[simp] theorem postOne_parts (m code : Nat) (items : List Byte) (s : State) : (postOne m code items s).parts = s.parts := by
  unfold postOne
  repeat' first | with_reducible rfl | split | intro _ | (simp; done) | rw [foldl_parts] | simp

@[simp] theorem raiseAlert_parts (i : Nat) (s : State) : (raiseAlert i s).parts = s.parts := by
  unfold raiseAlert
  repeat' first | with_reducible rfl | split | intro _ | (simp; done) | rw [foldl_parts] | simp

@[simp] theorem buFault_parts (step code detail : Nat) (s : State) : (buFault step code detail s).parts = s.parts := by
  unfold buFault
  repeat' first | with_reducible rfl | split | intro _ | (simp; done) | rw [foldl_parts] | simp

@[simp] theorem modCmd_parts (k : Nat) (g : Cmd → Cmd) (s : State) : (modCmd k g s).parts = s.parts := by
  unfold modCmd
  repeat' first | with_reducible rfl | split | intro _ | (simp; done) | rw [foldl_parts] | simp

@[simp] theorem finishCmd_parts (k : Nat) (r : Reply) (s : State) : (finishCmd k r s).parts = s.parts := by
  unfold finishCmd
  repeat' first | with_reducible rfl | split | intro _ | (simp; done) | rw [foldl_parts] | simp

@[simp] theorem modOp_parts (k : Nat) (g : Op → Op) (s : State) : (modOp k g s).parts = s.parts := by
  unfold modOp
  repeat' first | with_reducible rfl | split | intro _ | (simp; done) | rw [foldl_parts] | simp

/-! ### `net` -/

@[simp] theorem hostWrite_net (a : Nat) (l : List Byte) (s : State) : (hostWrite a l s).net = s.net := by
  unfold hostWrite
  repeat' first | with_reducible rfl | split | intro _ | (simp; done) | rw [foldl_net] | simp

@[simp] theorem msix_net (v : Nat) (s : State) : (msix v s).net = s.net := by
  unfold msix
  repeat' first | with_reducible rfl | split | intro _ | (simp; done) | rw [foldl_net] | simp

@[simp] theorem eventTo_net (code : Nat) (items : List Byte) (s : State) (m : Nat) : (eventTo code items s m).net = s.net := by
  unfold eventTo
  repeat' first | with_reducible rfl | split | intro _ | (simp; done) | rw [foldl_net] | simp

@[simp] theorem post_net (code : Nat) (items : List Byte) (s : State) : (post code items s).net = s.net := by
  unfold post
  repeat' first | with_reducible rfl | split | intro _ | (simp; done) | rw [foldl_net] | simp

@[simp] theorem postOne_net (m code : Nat) (items : List Byte) (s : State) : (postOne m code items s).net = s.net := by
  unfold postOne
  repeat' first | with_reducible rfl | split | intro _ | (simp; done) | rw [foldl_net] | simp

@[simp] theorem raiseAlert_net (i : Nat) (s : State) : (raiseAlert i s).net = s.net := by
  unfold raiseAlert
  repeat' first | with_reducible rfl | split | intro _ | (simp; done) | rw [foldl_net] | simp

@[simp] theorem buFault_net (step code detail : Nat) (s : State) : (buFault step code detail s).net = s.net := by
  unfold buFault
  repeat' first | with_reducible rfl | split | intro _ | (simp; done) | rw [foldl_net] | simp

@[simp] theorem modCmd_net (k : Nat) (g : Cmd → Cmd) (s : State) : (modCmd k g s).net = s.net := by
  unfold modCmd
  repeat' first | with_reducible rfl | split | intro _ | (simp; done) | rw [foldl_net] | simp

@[simp] theorem finishCmd_net (k : Nat) (r : Reply) (s : State) : (finishCmd k r s).net = s.net := by
  unfold finishCmd
  repeat' first | with_reducible rfl | split | intro _ | (simp; done) | rw [foldl_net] | simp

@[simp] theorem modOp_net (k : Nat) (g : Op → Op) (s : State) : (modOp k g s).net = s.net := by
  unfold modOp
  repeat' first | with_reducible rfl | split | intro _ | (simp; done) | rw [foldl_net] | simp

/-! ### `netBufs` -/

@[simp] theorem hostWrite_netBufs (a : Nat) (l : List Byte) (s : State) : (hostWrite a l s).netBufs = s.netBufs := by
  unfold hostWrite
  repeat' first | with_reducible rfl | split | intro _ | (simp; done) | rw [foldl_netBufs] | simp

@[simp] theorem msix_netBufs (v : Nat) (s : State) : (msix v s).netBufs = s.netBufs := by
  unfold msix
  repeat' first | with_reducible rfl | split | intro _ | (simp; done) | rw [foldl_netBufs] | simp

@[simp] theorem eventTo_netBufs (code : Nat) (items : List Byte) (s : State) (m : Nat) : (eventTo code items s m).netBufs = s.netBufs := by
  unfold eventTo
  repeat' first | with_reducible rfl | split | intro _ | (simp; done) | rw [foldl_netBufs] | simp

@[simp] theorem post_netBufs (code : Nat) (items : List Byte) (s : State) : (post code items s).netBufs = s.netBufs := by
  unfold post
  repeat' first | with_reducible rfl | split | intro _ | (simp; done) | rw [foldl_netBufs] | simp

@[simp] theorem postOne_netBufs (m code : Nat) (items : List Byte) (s : State) : (postOne m code items s).netBufs = s.netBufs := by
  unfold postOne
  repeat' first | with_reducible rfl | split | intro _ | (simp; done) | rw [foldl_netBufs] | simp

@[simp] theorem raiseAlert_netBufs (i : Nat) (s : State) : (raiseAlert i s).netBufs = s.netBufs := by
  unfold raiseAlert
  repeat' first | with_reducible rfl | split | intro _ | (simp; done) | rw [foldl_netBufs] | simp

@[simp] theorem buFault_netBufs (step code detail : Nat) (s : State) : (buFault step code detail s).netBufs = s.netBufs := by
  unfold buFault
  repeat' first | with_reducible rfl | split | intro _ | (simp; done) | rw [foldl_netBufs] | simp

@[simp] theorem modCmd_netBufs (k : Nat) (g : Cmd → Cmd) (s : State) : (modCmd k g s).netBufs = s.netBufs := by
  unfold modCmd
  repeat' first | with_reducible rfl | split | intro _ | (simp; done) | rw [foldl_netBufs] | simp

@[simp] theorem finishCmd_netBufs (k : Nat) (r : Reply) (s : State) : (finishCmd k r s).netBufs = s.netBufs := by
  unfold finishCmd
  repeat' first | with_reducible rfl | split | intro _ | (simp; done) | rw [foldl_netBufs] | simp

@[simp] theorem modOp_netBufs (k : Nat) (g : Op → Op) (s : State) : (modOp k g s).netBufs = s.netBufs := by
  unfold modOp
  repeat' first | with_reducible rfl | split | intro _ | (simp; done) | rw [foldl_netBufs] | simp

/-! ### `ports` -/

@[simp] theorem hostWrite_ports (a : Nat) (l : List Byte) (s : State) : (hostWrite a l s).ports = s.ports := by
  unfold hostWrite
  repeat' first | with_reducible rfl | split | intro _ | (simp; done) | rw [foldl_ports] | simp

@[simp] theorem msix_ports (v : Nat) (s : State) : (msix v s).ports = s.ports := by
  unfold msix
  repeat' first | with_reducible rfl | split | intro _ | (simp; done) | rw [foldl_ports] | simp

@[simp] theorem eventTo_ports (code : Nat) (items : List Byte) (s : State) (m : Nat) : (eventTo code items s m).ports = s.ports := by
  unfold eventTo
  repeat' first | with_reducible rfl | split | intro _ | (simp; done) | rw [foldl_ports] | simp

@[simp] theorem post_ports (code : Nat) (items : List Byte) (s : State) : (post code items s).ports = s.ports := by
  unfold post
  repeat' first | with_reducible rfl | split | intro _ | (simp; done) | rw [foldl_ports] | simp

@[simp] theorem postOne_ports (m code : Nat) (items : List Byte) (s : State) : (postOne m code items s).ports = s.ports := by
  unfold postOne
  repeat' first | with_reducible rfl | split | intro _ | (simp; done) | rw [foldl_ports] | simp

@[simp] theorem raiseAlert_ports (i : Nat) (s : State) : (raiseAlert i s).ports = s.ports := by
  unfold raiseAlert
  repeat' first | with_reducible rfl | split | intro _ | (simp; done) | rw [foldl_ports] | simp

@[simp] theorem buFault_ports (step code detail : Nat) (s : State) : (buFault step code detail s).ports = s.ports := by
  unfold buFault
  repeat' first | with_reducible rfl | split | intro _ | (simp; done) | rw [foldl_ports] | simp

@[simp] theorem modCmd_ports (k : Nat) (g : Cmd → Cmd) (s : State) : (modCmd k g s).ports = s.ports := by
  unfold modCmd
  repeat' first | with_reducible rfl | split | intro _ | (simp; done) | rw [foldl_ports] | simp

@[simp] theorem finishCmd_ports (k : Nat) (r : Reply) (s : State) : (finishCmd k r s).ports = s.ports := by
  unfold finishCmd
  repeat' first | with_reducible rfl | split | intro _ | (simp; done) | rw [foldl_ports] | simp

@[simp] theorem modOp_ports (k : Nat) (g : Op → Op) (s : State) : (modOp k g s).ports = s.ports := by
  unfold modOp
  repeat' first | with_reducible rfl | split | intro _ | (simp; done) | rw [foldl_ports] | simp

/-! ### `link` -/

@[simp] theorem hostWrite_link (a : Nat) (l : List Byte) (s : State) : (hostWrite a l s).link = s.link := by
  unfold hostWrite
  repeat' first | with_reducible rfl | split | intro _ | (simp; done) | rw [foldl_link] | simp

@[simp] theorem msix_link (v : Nat) (s : State) : (msix v s).link = s.link := by
  unfold msix
  repeat' first | with_reducible rfl | split | intro _ | (simp; done) | rw [foldl_link] | simp

@[simp] theorem eventTo_link (code : Nat) (items : List Byte) (s : State) (m : Nat) : (eventTo code items s m).link = s.link := by
  unfold eventTo
  repeat' first | with_reducible rfl | split | intro _ | (simp; done) | rw [foldl_link] | simp

@[simp] theorem post_link (code : Nat) (items : List Byte) (s : State) : (post code items s).link = s.link := by
  unfold post
  repeat' first | with_reducible rfl | split | intro _ | (simp; done) | rw [foldl_link] | simp

@[simp] theorem postOne_link (m code : Nat) (items : List Byte) (s : State) : (postOne m code items s).link = s.link := by
  unfold postOne
  repeat' first | with_reducible rfl | split | intro _ | (simp; done) | rw [foldl_link] | simp

@[simp] theorem raiseAlert_link (i : Nat) (s : State) : (raiseAlert i s).link = s.link := by
  unfold raiseAlert
  repeat' first | with_reducible rfl | split | intro _ | (simp; done) | rw [foldl_link] | simp

@[simp] theorem buFault_link (step code detail : Nat) (s : State) : (buFault step code detail s).link = s.link := by
  unfold buFault
  repeat' first | with_reducible rfl | split | intro _ | (simp; done) | rw [foldl_link] | simp

@[simp] theorem modCmd_link (k : Nat) (g : Cmd → Cmd) (s : State) : (modCmd k g s).link = s.link := by
  unfold modCmd
  repeat' first | with_reducible rfl | split | intro _ | (simp; done) | rw [foldl_link] | simp

@[simp] theorem finishCmd_link (k : Nat) (r : Reply) (s : State) : (finishCmd k r s).link = s.link := by
  unfold finishCmd
  repeat' first | with_reducible rfl | split | intro _ | (simp; done) | rw [foldl_link] | simp

@[simp] theorem modOp_link (k : Nat) (g : Op → Op) (s : State) : (modOp k g s).link = s.link := by
  unfold modOp
  repeat' first | with_reducible rfl | split | intro _ | (simp; done) | rw [foldl_link] | simp

/-! ### `mbs` -/

@[simp] theorem hostWrite_mbs (a : Nat) (l : List Byte) (s : State) : (hostWrite a l s).mbs = s.mbs := by
  unfold hostWrite
  repeat' first | with_reducible rfl | split | intro _ | (simp; done) | rw [foldl_mbs] | simp

@[simp] theorem msix_mbs (v : Nat) (s : State) : (msix v s).mbs = s.mbs := by
  unfold msix
  repeat' first | with_reducible rfl | split | intro _ | (simp; done) | rw [foldl_mbs] | simp

@[simp] theorem raiseAlert_mbs (i : Nat) (s : State) : (raiseAlert i s).mbs = s.mbs := by
  unfold raiseAlert
  repeat' first | with_reducible rfl | split | intro _ | (simp; done) | rw [foldl_mbs] | simp

@[simp] theorem buFault_mbs (step code detail : Nat) (s : State) : (buFault step code detail s).mbs = s.mbs := by
  unfold buFault
  repeat' first | with_reducible rfl | split | intro _ | (simp; done) | rw [foldl_mbs] | simp

@[simp] theorem modCmd_mbs (k : Nat) (g : Cmd → Cmd) (s : State) : (modCmd k g s).mbs = s.mbs := by
  unfold modCmd
  repeat' first | with_reducible rfl | split | intro _ | (simp; done) | rw [foldl_mbs] | simp

@[simp] theorem finishCmd_mbs (k : Nat) (r : Reply) (s : State) : (finishCmd k r s).mbs = s.mbs := by
  unfold finishCmd
  repeat' first | with_reducible rfl | split | intro _ | (simp; done) | rw [foldl_mbs] | simp

@[simp] theorem modOp_mbs (k : Nat) (g : Op → Op) (s : State) : (modOp k g s).mbs = s.mbs := by
  unfold modOp
  repeat' first | with_reducible rfl | split | intro _ | (simp; done) | rw [foldl_mbs] | simp

/-! ### `cmds` -/

@[simp] theorem hostWrite_cmds (a : Nat) (l : List Byte) (s : State) : (hostWrite a l s).cmds = s.cmds := by
  unfold hostWrite
  repeat' first | with_reducible rfl | split | intro _ | (simp; done) | rw [foldl_cmds] | simp

@[simp] theorem msix_cmds (v : Nat) (s : State) : (msix v s).cmds = s.cmds := by
  unfold msix
  repeat' first | with_reducible rfl | split | intro _ | (simp; done) | rw [foldl_cmds] | simp

@[simp] theorem eventTo_cmds (code : Nat) (items : List Byte) (s : State) (m : Nat) : (eventTo code items s m).cmds = s.cmds := by
  unfold eventTo
  repeat' first | with_reducible rfl | split | intro _ | (simp; done) | rw [foldl_cmds] | simp

@[simp] theorem post_cmds (code : Nat) (items : List Byte) (s : State) : (post code items s).cmds = s.cmds := by
  unfold post
  repeat' first | with_reducible rfl | split | intro _ | (simp; done) | rw [foldl_cmds] | simp

@[simp] theorem postOne_cmds (m code : Nat) (items : List Byte) (s : State) : (postOne m code items s).cmds = s.cmds := by
  unfold postOne
  repeat' first | with_reducible rfl | split | intro _ | (simp; done) | rw [foldl_cmds] | simp

@[simp] theorem raiseAlert_cmds (i : Nat) (s : State) : (raiseAlert i s).cmds = s.cmds := by
  unfold raiseAlert
  repeat' first | with_reducible rfl | split | intro _ | (simp; done) | rw [foldl_cmds] | simp

@[simp] theorem buFault_cmds (step code detail : Nat) (s : State) : (buFault step code detail s).cmds = s.cmds := by
  unfold buFault
  repeat' first | with_reducible rfl | split | intro _ | (simp; done) | rw [foldl_cmds] | simp

@[simp] theorem modOp_cmds (k : Nat) (g : Op → Op) (s : State) : (modOp k g s).cmds = s.cmds := by
  unfold modOp
  repeat' first | with_reducible rfl | split | intro _ | (simp; done) | rw [foldl_cmds] | simp

@[simp] theorem setTestV_cmds (k : Nat) (v : Int) (s : State) : (setTestV k v s).cmds = s.cmds := by
  unfold setTestV
  repeat' first | with_reducible rfl | split | intro _ | (simp; done) | rw [foldl_cmds] | simp

@[simp] theorem trigger_cmds (k t : Nat) (s : State) : (trigger k t s).cmds = s.cmds := by
  unfold trigger
  repeat' first | with_reducible rfl | split | intro _ | (simp; done) | rw [foldl_cmds] | simp

/-! ### `stw` -/

@[simp] theorem hostWrite_stw (a : Nat) (l : List Byte) (s : State) : (hostWrite a l s).stw = s.stw := by
  unfold hostWrite
  repeat' first | with_reducible rfl | split | intro _ | (simp; done) | rw [foldl_stw] | simp

@[simp] theorem raiseAlert_stw (i : Nat) (s : State) : (raiseAlert i s).stw = s.stw := by
  unfold raiseAlert
  repeat' first | with_reducible rfl | split | intro _ | (simp; done) | rw [foldl_stw] | simp

@[simp] theorem modCmd_stw (k : Nat) (g : Cmd → Cmd) (s : State) : (modCmd k g s).stw = s.stw := by
  unfold modCmd
  repeat' first | with_reducible rfl | split | intro _ | (simp; done) | rw [foldl_stw] | simp

@[simp] theorem finishCmd_stw (k : Nat) (r : Reply) (s : State) : (finishCmd k r s).stw = s.stw := by
  unfold finishCmd
  repeat' first | with_reducible rfl | split | intro _ | (simp; done) | rw [foldl_stw] | simp

@[simp] theorem modOp_stw (k : Nat) (g : Op → Op) (s : State) : (modOp k g s).stw = s.stw := by
  unfold modOp
  repeat' first | with_reducible rfl | split | intro _ | (simp; done) | rw [foldl_stw] | simp

/-! ### `hostMem` -/

@[simp] theorem msix_hostMem (v : Nat) (s : State) : (msix v s).hostMem = s.hostMem := by
  unfold msix
  repeat' first | with_reducible rfl | split | intro _ | (simp; done) | rw [foldl_hostMem] | simp

@[simp] theorem raiseAlert_hostMem (i : Nat) (s : State) : (raiseAlert i s).hostMem = s.hostMem := by
  unfold raiseAlert
  repeat' first | with_reducible rfl | split | intro _ | (simp; done) | rw [foldl_hostMem] | simp

@[simp] theorem buFault_hostMem (step code detail : Nat) (s : State) : (buFault step code detail s).hostMem = s.hostMem := by
  unfold buFault
  repeat' first | with_reducible rfl | split | intro _ | (simp; done) | rw [foldl_hostMem] | simp

@[simp] theorem modCmd_hostMem (k : Nat) (g : Cmd → Cmd) (s : State) : (modCmd k g s).hostMem = s.hostMem := by
  unfold modCmd
  repeat' first | with_reducible rfl | split | intro _ | (simp; done) | rw [foldl_hostMem] | simp

@[simp] theorem finishCmd_hostMem (k : Nat) (r : Reply) (s : State) : (finishCmd k r s).hostMem = s.hostMem := by
  unfold finishCmd
  repeat' first | with_reducible rfl | split | intro _ | (simp; done) | rw [foldl_hostMem] | simp

@[simp] theorem modOp_hostMem (k : Nat) (g : Op → Op) (s : State) : (modOp k g s).hostMem = s.hostMem := by
  unfold modOp
  repeat' first | with_reducible rfl | split | intro _ | (simp; done) | rw [foldl_hostMem] | simp

/-! ### `bu` -/

@[simp] theorem hostWrite_bu (a : Nat) (l : List Byte) (s : State) : (hostWrite a l s).bu = s.bu := by
  unfold hostWrite
  repeat' first | with_reducible rfl | split | intro _ | (simp; done) | rw [foldl_bu] | simp

@[simp] theorem msix_bu (v : Nat) (s : State) : (msix v s).bu = s.bu := by
  unfold msix
  repeat' first | with_reducible rfl | split | intro _ | (simp; done) | rw [foldl_bu] | simp

@[simp] theorem eventTo_bu (code : Nat) (items : List Byte) (s : State) (m : Nat) : (eventTo code items s m).bu = s.bu := by
  unfold eventTo
  repeat' first | with_reducible rfl | split | intro _ | (simp; done) | rw [foldl_bu] | simp

@[simp] theorem post_bu (code : Nat) (items : List Byte) (s : State) : (post code items s).bu = s.bu := by
  unfold post
  repeat' first | with_reducible rfl | split | intro _ | (simp; done) | rw [foldl_bu] | simp

@[simp] theorem postOne_bu (m code : Nat) (items : List Byte) (s : State) : (postOne m code items s).bu = s.bu := by
  unfold postOne
  repeat' first | with_reducible rfl | split | intro _ | (simp; done) | rw [foldl_bu] | simp

@[simp] theorem raiseAlert_bu (i : Nat) (s : State) : (raiseAlert i s).bu = s.bu := by
  unfold raiseAlert
  repeat' first | with_reducible rfl | split | intro _ | (simp; done) | rw [foldl_bu] | simp

@[simp] theorem modCmd_bu (k : Nat) (g : Cmd → Cmd) (s : State) : (modCmd k g s).bu = s.bu := by
  unfold modCmd
  repeat' first | with_reducible rfl | split | intro _ | (simp; done) | rw [foldl_bu] | simp

@[simp] theorem finishCmd_bu (k : Nat) (r : Reply) (s : State) : (finishCmd k r s).bu = s.bu := by
  unfold finishCmd
  repeat' first | with_reducible rfl | split | intro _ | (simp; done) | rw [foldl_bu] | simp

@[simp] theorem modOp_bu (k : Nat) (g : Op → Op) (s : State) : (modOp k g s).bu = s.bu := by
  unfold modOp
  repeat' first | with_reducible rfl | split | intro _ | (simp; done) | rw [foldl_bu] | simp

/-! ### `pwr` -/

@[simp] theorem hostWrite_pwr (a : Nat) (l : List Byte) (s : State) : (hostWrite a l s).pwr = s.pwr := by
  unfold hostWrite
  repeat' first | with_reducible rfl | split | intro _ | (simp; done) | rw [foldl_pwr] | simp

@[simp] theorem msix_pwr (v : Nat) (s : State) : (msix v s).pwr = s.pwr := by
  unfold msix
  repeat' first | with_reducible rfl | split | intro _ | (simp; done) | rw [foldl_pwr] | simp

@[simp] theorem eventTo_pwr (code : Nat) (items : List Byte) (s : State) (m : Nat) : (eventTo code items s m).pwr = s.pwr := by
  unfold eventTo
  repeat' first | with_reducible rfl | split | intro _ | (simp; done) | rw [foldl_pwr] | simp

@[simp] theorem post_pwr (code : Nat) (items : List Byte) (s : State) : (post code items s).pwr = s.pwr := by
  unfold post
  repeat' first | with_reducible rfl | split | intro _ | (simp; done) | rw [foldl_pwr] | simp

@[simp] theorem postOne_pwr (m code : Nat) (items : List Byte) (s : State) : (postOne m code items s).pwr = s.pwr := by
  unfold postOne
  repeat' first | with_reducible rfl | split | intro _ | (simp; done) | rw [foldl_pwr] | simp

@[simp] theorem raiseAlert_pwr (i : Nat) (s : State) : (raiseAlert i s).pwr = s.pwr := by
  unfold raiseAlert
  repeat' first | with_reducible rfl | split | intro _ | (simp; done) | rw [foldl_pwr] | simp

@[simp] theorem buFault_pwr (step code detail : Nat) (s : State) : (buFault step code detail s).pwr = s.pwr := by
  unfold buFault
  repeat' first | with_reducible rfl | split | intro _ | (simp; done) | rw [foldl_pwr] | simp

@[simp] theorem modCmd_pwr (k : Nat) (g : Cmd → Cmd) (s : State) : (modCmd k g s).pwr = s.pwr := by
  unfold modCmd
  repeat' first | with_reducible rfl | split | intro _ | (simp; done) | rw [foldl_pwr] | simp

@[simp] theorem finishCmd_pwr (k : Nat) (r : Reply) (s : State) : (finishCmd k r s).pwr = s.pwr := by
  unfold finishCmd
  repeat' first | with_reducible rfl | split | intro _ | (simp; done) | rw [foldl_pwr] | simp

@[simp] theorem modOp_pwr (k : Nat) (g : Op → Op) (s : State) : (modOp k g s).pwr = s.pwr := by
  unfold modOp
  repeat' first | with_reducible rfl | split | intro _ | (simp; done) | rw [foldl_pwr] | simp

@[simp] theorem failSensor_pwr (d i : Nat) (s : State) : (failSensor d i s).pwr = s.pwr := by
  unfold failSensor
  repeat' first | with_reducible rfl | split | intro _ | (simp; done) | rw [foldl_pwr] | simp

@[simp] theorem recoverSensor_pwr (d i : Nat) (s : State) : (recoverSensor d i s).pwr = s.pwr := by
  unfold recoverSensor
  repeat' first | with_reducible rfl | split | intro _ | (simp; done) | rw [foldl_pwr] | simp

@[simp] theorem settleSensor_pwr (d i : Nat) (s : State) : (settleSensor d i s).pwr = s.pwr := by
  unfold settleSensor
  repeat' first | with_reducible rfl | split | intro _ | (simp; done) | rw [foldl_pwr] | simp

@[simp] theorem throtUpdate_pwr (s : State) : (throtUpdate s).pwr = s.pwr := by
  unfold throtUpdate
  repeat' first | with_reducible rfl | split | intro _ | (simp; done) | rw [foldl_pwr] | simp

@[simp] theorem enterThrottle_pwr (d : Nat) (s : State) : (enterThrottle d s).pwr = s.pwr := by
  unfold enterThrottle
  repeat' first | with_reducible rfl | split | intro _ | (simp; done) | rw [foldl_pwr] | simp

@[simp] theorem endEpisode_pwr (s : State) : (endEpisode s).pwr = s.pwr := by
  unfold endEpisode
  repeat' first | with_reducible rfl | split | intro _ | (simp; done) | rw [foldl_pwr] | simp

@[simp] theorem setStep_pwr (t v d : Nat) (s : State) : (setStep t v d s).pwr = s.pwr := by
  unfold setStep
  repeat' first | with_reducible rfl | split | intro _ | (simp; done) | rw [foldl_pwr] | simp

@[simp] theorem startTile_pwr (s : State) (t : Nat) : (startTile s t).pwr = s.pwr := by
  unfold startTile
  repeat' first | with_reducible rfl | split | intro _ | (simp; done) | rw [foldl_pwr] | simp

@[simp] theorem episodeUpdate_pwr (s : State) : (episodeUpdate s).pwr = s.pwr := by
  unfold episodeUpdate
  repeat' first | with_reducible rfl | split | intro _ | (simp; done) | rw [foldl_pwr] | simp

@[simp] theorem holdUpdate_pwr (d : Nat) (s : State) : (holdUpdate d s).pwr = s.pwr := by
  unfold holdUpdate
  repeat' first | with_reducible rfl | split | intro _ | (simp; done) | rw [foldl_pwr] | simp

@[simp] theorem refreshRate_pwr (d : Nat) (s : State) : (refreshRate d s).pwr = s.pwr := by
  unfold refreshRate
  repeat' first | with_reducible rfl | split | intro _ | (simp; done) | rw [foldl_pwr] | simp

@[simp] theorem coolTrack_pwr (s : State) (t : Nat) : (coolTrack s t).pwr = s.pwr := by
  unfold coolTrack
  repeat' first | with_reducible rfl | split | intro _ | (simp; done) | rw [foldl_pwr] | simp

@[simp] theorem afterDies_pwr (s : State) : (afterDies s).pwr = s.pwr := by
  unfold afterDies
  repeat' first | with_reducible rfl | split | intro _ | (simp; done) | rw [foldl_pwr] | simp

@[simp] theorem hottestDie_pwr (s : State) : (hottestDie s).pwr = s.pwr := by
  unfold hottestDie
  repeat' first | with_reducible rfl | split | intro _ | (simp; done) | rw [foldl_pwr] | simp

/-! ### `sensors` -/

@[simp] theorem hostWrite_sensors (a : Nat) (l : List Byte) (s : State) : (hostWrite a l s).sensors = s.sensors := by
  unfold hostWrite
  repeat' first | with_reducible rfl | split | intro _ | (simp; done) | rw [foldl_sensors] | simp

@[simp] theorem msix_sensors (v : Nat) (s : State) : (msix v s).sensors = s.sensors := by
  unfold msix
  repeat' first | with_reducible rfl | split | intro _ | (simp; done) | rw [foldl_sensors] | simp

@[simp] theorem eventTo_sensors (code : Nat) (items : List Byte) (s : State) (m : Nat) : (eventTo code items s m).sensors = s.sensors := by
  unfold eventTo
  repeat' first | with_reducible rfl | split | intro _ | (simp; done) | rw [foldl_sensors] | simp

@[simp] theorem post_sensors (code : Nat) (items : List Byte) (s : State) : (post code items s).sensors = s.sensors := by
  unfold post
  repeat' first | with_reducible rfl | split | intro _ | (simp; done) | rw [foldl_sensors] | simp

@[simp] theorem postOne_sensors (m code : Nat) (items : List Byte) (s : State) : (postOne m code items s).sensors = s.sensors := by
  unfold postOne
  repeat' first | with_reducible rfl | split | intro _ | (simp; done) | rw [foldl_sensors] | simp

@[simp] theorem raiseAlert_sensors (i : Nat) (s : State) : (raiseAlert i s).sensors = s.sensors := by
  unfold raiseAlert
  repeat' first | with_reducible rfl | split | intro _ | (simp; done) | rw [foldl_sensors] | simp

@[simp] theorem buFault_sensors (step code detail : Nat) (s : State) : (buFault step code detail s).sensors = s.sensors := by
  unfold buFault
  repeat' first | with_reducible rfl | split | intro _ | (simp; done) | rw [foldl_sensors] | simp

@[simp] theorem modCmd_sensors (k : Nat) (g : Cmd → Cmd) (s : State) : (modCmd k g s).sensors = s.sensors := by
  unfold modCmd
  repeat' first | with_reducible rfl | split | intro _ | (simp; done) | rw [foldl_sensors] | simp

@[simp] theorem finishCmd_sensors (k : Nat) (r : Reply) (s : State) : (finishCmd k r s).sensors = s.sensors := by
  unfold finishCmd
  repeat' first | with_reducible rfl | split | intro _ | (simp; done) | rw [foldl_sensors] | simp

@[simp] theorem modOp_sensors (k : Nat) (g : Op → Op) (s : State) : (modOp k g s).sensors = s.sensors := by
  unfold modOp
  repeat' first | with_reducible rfl | split | intro _ | (simp; done) | rw [foldl_sensors] | simp

/-! ### `dies` -/

@[simp] theorem hostWrite_dies (a : Nat) (l : List Byte) (s : State) : (hostWrite a l s).dies = s.dies := by
  unfold hostWrite
  repeat' first | with_reducible rfl | split | intro _ | (simp; done) | rw [foldl_dies] | simp

@[simp] theorem msix_dies (v : Nat) (s : State) : (msix v s).dies = s.dies := by
  unfold msix
  repeat' first | with_reducible rfl | split | intro _ | (simp; done) | rw [foldl_dies] | simp

@[simp] theorem eventTo_dies (code : Nat) (items : List Byte) (s : State) (m : Nat) : (eventTo code items s m).dies = s.dies := by
  unfold eventTo
  repeat' first | with_reducible rfl | split | intro _ | (simp; done) | rw [foldl_dies] | simp

@[simp] theorem post_dies (code : Nat) (items : List Byte) (s : State) : (post code items s).dies = s.dies := by
  unfold post
  repeat' first | with_reducible rfl | split | intro _ | (simp; done) | rw [foldl_dies] | simp

@[simp] theorem postOne_dies (m code : Nat) (items : List Byte) (s : State) : (postOne m code items s).dies = s.dies := by
  unfold postOne
  repeat' first | with_reducible rfl | split | intro _ | (simp; done) | rw [foldl_dies] | simp

@[simp] theorem raiseAlert_dies (i : Nat) (s : State) : (raiseAlert i s).dies = s.dies := by
  unfold raiseAlert
  repeat' first | with_reducible rfl | split | intro _ | (simp; done) | rw [foldl_dies] | simp

@[simp] theorem buFault_dies (step code detail : Nat) (s : State) : (buFault step code detail s).dies = s.dies := by
  unfold buFault
  repeat' first | with_reducible rfl | split | intro _ | (simp; done) | rw [foldl_dies] | simp

@[simp] theorem modCmd_dies (k : Nat) (g : Cmd → Cmd) (s : State) : (modCmd k g s).dies = s.dies := by
  unfold modCmd
  repeat' first | with_reducible rfl | split | intro _ | (simp; done) | rw [foldl_dies] | simp

@[simp] theorem finishCmd_dies (k : Nat) (r : Reply) (s : State) : (finishCmd k r s).dies = s.dies := by
  unfold finishCmd
  repeat' first | with_reducible rfl | split | intro _ | (simp; done) | rw [foldl_dies] | simp

@[simp] theorem modOp_dies (k : Nat) (g : Op → Op) (s : State) : (modOp k g s).dies = s.dies := by
  unfold modOp
  repeat' first | with_reducible rfl | split | intro _ | (simp; done) | rw [foldl_dies] | simp

/-! ### `thm` -/

@[simp] theorem hostWrite_thm (a : Nat) (l : List Byte) (s : State) : (hostWrite a l s).thm = s.thm := by
  unfold hostWrite
  repeat' first | with_reducible rfl | split | intro _ | (simp; done) | rw [foldl_thm] | simp

@[simp] theorem msix_thm (v : Nat) (s : State) : (msix v s).thm = s.thm := by
  unfold msix
  repeat' first | with_reducible rfl | split | intro _ | (simp; done) | rw [foldl_thm] | simp

@[simp] theorem eventTo_thm (code : Nat) (items : List Byte) (s : State) (m : Nat) : (eventTo code items s m).thm = s.thm := by
  unfold eventTo
  repeat' first | with_reducible rfl | split | intro _ | (simp; done) | rw [foldl_thm] | simp

@[simp] theorem post_thm (code : Nat) (items : List Byte) (s : State) : (post code items s).thm = s.thm := by
  unfold post
  repeat' first | with_reducible rfl | split | intro _ | (simp; done) | rw [foldl_thm] | simp

@[simp] theorem postOne_thm (m code : Nat) (items : List Byte) (s : State) : (postOne m code items s).thm = s.thm := by
  unfold postOne
  repeat' first | with_reducible rfl | split | intro _ | (simp; done) | rw [foldl_thm] | simp

@[simp] theorem raiseAlert_thm (i : Nat) (s : State) : (raiseAlert i s).thm = s.thm := by
  unfold raiseAlert
  repeat' first | with_reducible rfl | split | intro _ | (simp; done) | rw [foldl_thm] | simp

@[simp] theorem buFault_thm (step code detail : Nat) (s : State) : (buFault step code detail s).thm = s.thm := by
  unfold buFault
  repeat' first | with_reducible rfl | split | intro _ | (simp; done) | rw [foldl_thm] | simp

@[simp] theorem modCmd_thm (k : Nat) (g : Cmd → Cmd) (s : State) : (modCmd k g s).thm = s.thm := by
  unfold modCmd
  repeat' first | with_reducible rfl | split | intro _ | (simp; done) | rw [foldl_thm] | simp

@[simp] theorem finishCmd_thm (k : Nat) (r : Reply) (s : State) : (finishCmd k r s).thm = s.thm := by
  unfold finishCmd
  repeat' first | with_reducible rfl | split | intro _ | (simp; done) | rw [foldl_thm] | simp

@[simp] theorem modOp_thm (k : Nat) (g : Op → Op) (s : State) : (modOp k g s).thm = s.thm := by
  unfold modOp
  repeat' first | with_reducible rfl | split | intro _ | (simp; done) | rw [foldl_thm] | simp

/-! ### `exts` -/

@[simp] theorem hostWrite_exts (a : Nat) (l : List Byte) (s : State) : (hostWrite a l s).exts = s.exts := by
  unfold hostWrite
  repeat' first | with_reducible rfl | split | intro _ | (simp; done) | rw [foldl_exts] | simp

@[simp] theorem msix_exts (v : Nat) (s : State) : (msix v s).exts = s.exts := by
  unfold msix
  repeat' first | with_reducible rfl | split | intro _ | (simp; done) | rw [foldl_exts] | simp

@[simp] theorem eventTo_exts (code : Nat) (items : List Byte) (s : State) (m : Nat) : (eventTo code items s m).exts = s.exts := by
  unfold eventTo
  repeat' first | with_reducible rfl | split | intro _ | (simp; done) | rw [foldl_exts] | simp

@[simp] theorem post_exts (code : Nat) (items : List Byte) (s : State) : (post code items s).exts = s.exts := by
  unfold post
  repeat' first | with_reducible rfl | split | intro _ | (simp; done) | rw [foldl_exts] | simp

@[simp] theorem postOne_exts (m code : Nat) (items : List Byte) (s : State) : (postOne m code items s).exts = s.exts := by
  unfold postOne
  repeat' first | with_reducible rfl | split | intro _ | (simp; done) | rw [foldl_exts] | simp

@[simp] theorem raiseAlert_exts (i : Nat) (s : State) : (raiseAlert i s).exts = s.exts := by
  unfold raiseAlert
  repeat' first | with_reducible rfl | split | intro _ | (simp; done) | rw [foldl_exts] | simp

@[simp] theorem buFault_exts (step code detail : Nat) (s : State) : (buFault step code detail s).exts = s.exts := by
  unfold buFault
  repeat' first | with_reducible rfl | split | intro _ | (simp; done) | rw [foldl_exts] | simp

@[simp] theorem modCmd_exts (k : Nat) (g : Cmd → Cmd) (s : State) : (modCmd k g s).exts = s.exts := by
  unfold modCmd
  repeat' first | with_reducible rfl | split | intro _ | (simp; done) | rw [foldl_exts] | simp

@[simp] theorem finishCmd_exts (k : Nat) (r : Reply) (s : State) : (finishCmd k r s).exts = s.exts := by
  unfold finishCmd
  repeat' first | with_reducible rfl | split | intro _ | (simp; done) | rw [foldl_exts] | simp

@[simp] theorem modOp_exts (k : Nat) (g : Op → Op) (s : State) : (modOp k g s).exts = s.exts := by
  unfold modOp
  repeat' first | with_reducible rfl | split | intro _ | (simp; done) | rw [foldl_exts] | simp

/-! ### `flt` -/

@[simp] theorem hostWrite_flt (a : Nat) (l : List Byte) (s : State) : (hostWrite a l s).flt = s.flt := by
  unfold hostWrite
  repeat' first | with_reducible rfl | split | intro _ | (simp; done) | rw [foldl_flt] | simp

@[simp] theorem msix_flt (v : Nat) (s : State) : (msix v s).flt = s.flt := by
  unfold msix
  repeat' first | with_reducible rfl | split | intro _ | (simp; done) | rw [foldl_flt] | simp

@[simp] theorem eventTo_flt (code : Nat) (items : List Byte) (s : State) (m : Nat) : (eventTo code items s m).flt = s.flt := by
  unfold eventTo
  repeat' first | with_reducible rfl | split | intro _ | (simp; done) | rw [foldl_flt] | simp

@[simp] theorem post_flt (code : Nat) (items : List Byte) (s : State) : (post code items s).flt = s.flt := by
  unfold post
  repeat' first | with_reducible rfl | split | intro _ | (simp; done) | rw [foldl_flt] | simp

@[simp] theorem postOne_flt (m code : Nat) (items : List Byte) (s : State) : (postOne m code items s).flt = s.flt := by
  unfold postOne
  repeat' first | with_reducible rfl | split | intro _ | (simp; done) | rw [foldl_flt] | simp

@[simp] theorem raiseAlert_flt (i : Nat) (s : State) : (raiseAlert i s).flt = s.flt := by
  unfold raiseAlert
  repeat' first | with_reducible rfl | split | intro _ | (simp; done) | rw [foldl_flt] | simp

@[simp] theorem buFault_flt (step code detail : Nat) (s : State) : (buFault step code detail s).flt = s.flt := by
  unfold buFault
  repeat' first | with_reducible rfl | split | intro _ | (simp; done) | rw [foldl_flt] | simp

@[simp] theorem modCmd_flt (k : Nat) (g : Cmd → Cmd) (s : State) : (modCmd k g s).flt = s.flt := by
  unfold modCmd
  repeat' first | with_reducible rfl | split | intro _ | (simp; done) | rw [foldl_flt] | simp

@[simp] theorem finishCmd_flt (k : Nat) (r : Reply) (s : State) : (finishCmd k r s).flt = s.flt := by
  unfold finishCmd
  repeat' first | with_reducible rfl | split | intro _ | (simp; done) | rw [foldl_flt] | simp

@[simp] theorem modOp_flt (k : Nat) (g : Op → Op) (s : State) : (modOp k g s).flt = s.flt := by
  unfold modOp
  repeat' first | with_reducible rfl | split | intro _ | (simp; done) | rw [foldl_flt] | simp

/-! ### `sec` -/

@[simp] theorem hostWrite_sec (a : Nat) (l : List Byte) (s : State) : (hostWrite a l s).sec = s.sec := by
  unfold hostWrite
  repeat' first | with_reducible rfl | split | intro _ | (simp; done) | rw [foldl_sec] | simp

@[simp] theorem msix_sec (v : Nat) (s : State) : (msix v s).sec = s.sec := by
  unfold msix
  repeat' first | with_reducible rfl | split | intro _ | (simp; done) | rw [foldl_sec] | simp

@[simp] theorem eventTo_sec (code : Nat) (items : List Byte) (s : State) (m : Nat) : (eventTo code items s m).sec = s.sec := by
  unfold eventTo
  repeat' first | with_reducible rfl | split | intro _ | (simp; done) | rw [foldl_sec] | simp

@[simp] theorem post_sec (code : Nat) (items : List Byte) (s : State) : (post code items s).sec = s.sec := by
  unfold post
  repeat' first | with_reducible rfl | split | intro _ | (simp; done) | rw [foldl_sec] | simp

@[simp] theorem postOne_sec (m code : Nat) (items : List Byte) (s : State) : (postOne m code items s).sec = s.sec := by
  unfold postOne
  repeat' first | with_reducible rfl | split | intro _ | (simp; done) | rw [foldl_sec] | simp

@[simp] theorem raiseAlert_sec (i : Nat) (s : State) : (raiseAlert i s).sec = s.sec := by
  unfold raiseAlert
  repeat' first | with_reducible rfl | split | intro _ | (simp; done) | rw [foldl_sec] | simp

@[simp] theorem buFault_sec (step code detail : Nat) (s : State) : (buFault step code detail s).sec = s.sec := by
  unfold buFault
  repeat' first | with_reducible rfl | split | intro _ | (simp; done) | rw [foldl_sec] | simp

@[simp] theorem modCmd_sec (k : Nat) (g : Cmd → Cmd) (s : State) : (modCmd k g s).sec = s.sec := by
  unfold modCmd
  repeat' first | with_reducible rfl | split | intro _ | (simp; done) | rw [foldl_sec] | simp

@[simp] theorem finishCmd_sec (k : Nat) (r : Reply) (s : State) : (finishCmd k r s).sec = s.sec := by
  unfold finishCmd
  repeat' first | with_reducible rfl | split | intro _ | (simp; done) | rw [foldl_sec] | simp

@[simp] theorem modOp_sec (k : Nat) (g : Op → Op) (s : State) : (modOp k g s).sec = s.sec := by
  unfold modOp
  repeat' first | with_reducible rfl | split | intro _ | (simp; done) | rw [foldl_sec] | simp

/-! ### `mg` -/

@[simp] theorem hostWrite_mg (a : Nat) (l : List Byte) (s : State) : (hostWrite a l s).mg = s.mg := by
  unfold hostWrite
  repeat' first | with_reducible rfl | split | intro _ | (simp; done) | rw [foldl_mg] | simp

@[simp] theorem msix_mg (v : Nat) (s : State) : (msix v s).mg = s.mg := by
  unfold msix
  repeat' first | with_reducible rfl | split | intro _ | (simp; done) | rw [foldl_mg] | simp

@[simp] theorem eventTo_mg (code : Nat) (items : List Byte) (s : State) (m : Nat) : (eventTo code items s m).mg = s.mg := by
  unfold eventTo
  repeat' first | with_reducible rfl | split | intro _ | (simp; done) | rw [foldl_mg] | simp

@[simp] theorem post_mg (code : Nat) (items : List Byte) (s : State) : (post code items s).mg = s.mg := by
  unfold post
  repeat' first | with_reducible rfl | split | intro _ | (simp; done) | rw [foldl_mg] | simp

@[simp] theorem postOne_mg (m code : Nat) (items : List Byte) (s : State) : (postOne m code items s).mg = s.mg := by
  unfold postOne
  repeat' first | with_reducible rfl | split | intro _ | (simp; done) | rw [foldl_mg] | simp

@[simp] theorem buFault_mg (step code detail : Nat) (s : State) : (buFault step code detail s).mg = s.mg := by
  unfold buFault
  repeat' first | with_reducible rfl | split | intro _ | (simp; done) | rw [foldl_mg] | simp

@[simp] theorem modCmd_mg (k : Nat) (g : Cmd → Cmd) (s : State) : (modCmd k g s).mg = s.mg := by
  unfold modCmd
  repeat' first | with_reducible rfl | split | intro _ | (simp; done) | rw [foldl_mg] | simp

@[simp] theorem finishCmd_mg (k : Nat) (r : Reply) (s : State) : (finishCmd k r s).mg = s.mg := by
  unfold finishCmd
  repeat' first | with_reducible rfl | split | intro _ | (simp; done) | rw [foldl_mg] | simp

@[simp] theorem modOp_mg (k : Nat) (g : Op → Op) (s : State) : (modOp k g s).mg = s.mg := by
  unfold modOp
  repeat' first | with_reducible rfl | split | intro _ | (simp; done) | rw [foldl_mg] | simp

/-! ### `free` -/

@[simp] theorem hostWrite_free (a : Nat) (l : List Byte) (s : State) : (hostWrite a l s).free = s.free := by
  unfold hostWrite
  repeat' first | with_reducible rfl | split | intro _ | (simp; done) | rw [foldl_free] | simp

@[simp] theorem msix_free (v : Nat) (s : State) : (msix v s).free = s.free := by
  unfold msix
  repeat' first | with_reducible rfl | split | intro _ | (simp; done) | rw [foldl_free] | simp

@[simp] theorem eventTo_free (code : Nat) (items : List Byte) (s : State) (m : Nat) : (eventTo code items s m).free = s.free := by
  unfold eventTo
  repeat' first | with_reducible rfl | split | intro _ | (simp; done) | rw [foldl_free] | simp

@[simp] theorem post_free (code : Nat) (items : List Byte) (s : State) : (post code items s).free = s.free := by
  unfold post
  repeat' first | with_reducible rfl | split | intro _ | (simp; done) | rw [foldl_free] | simp

@[simp] theorem postOne_free (m code : Nat) (items : List Byte) (s : State) : (postOne m code items s).free = s.free := by
  unfold postOne
  repeat' first | with_reducible rfl | split | intro _ | (simp; done) | rw [foldl_free] | simp

@[simp] theorem raiseAlert_free (i : Nat) (s : State) : (raiseAlert i s).free = s.free := by
  unfold raiseAlert
  repeat' first | with_reducible rfl | split | intro _ | (simp; done) | rw [foldl_free] | simp

@[simp] theorem buFault_free (step code detail : Nat) (s : State) : (buFault step code detail s).free = s.free := by
  unfold buFault
  repeat' first | with_reducible rfl | split | intro _ | (simp; done) | rw [foldl_free] | simp

@[simp] theorem modCmd_free (k : Nat) (g : Cmd → Cmd) (s : State) : (modCmd k g s).free = s.free := by
  unfold modCmd
  repeat' first | with_reducible rfl | split | intro _ | (simp; done) | rw [foldl_free] | simp

@[simp] theorem finishCmd_free (k : Nat) (r : Reply) (s : State) : (finishCmd k r s).free = s.free := by
  unfold finishCmd
  repeat' first | with_reducible rfl | split | intro _ | (simp; done) | rw [foldl_free] | simp

@[simp] theorem modOp_free (k : Nat) (g : Op → Op) (s : State) : (modOp k g s).free = s.free := by
  unfold modOp
  repeat' first | with_reducible rfl | split | intro _ | (simp; done) | rw [foldl_free] | simp

/-! ### `pending` -/

@[simp] theorem hostWrite_pending (a : Nat) (l : List Byte) (s : State) : (hostWrite a l s).pending = s.pending := by
  unfold hostWrite
  repeat' first | with_reducible rfl | split | intro _ | (simp; done) | rw [foldl_pending] | simp

@[simp] theorem msix_pending (v : Nat) (s : State) : (msix v s).pending = s.pending := by
  unfold msix
  repeat' first | with_reducible rfl | split | intro _ | (simp; done) | rw [foldl_pending] | simp

@[simp] theorem eventTo_pending (code : Nat) (items : List Byte) (s : State) (m : Nat) : (eventTo code items s m).pending = s.pending := by
  unfold eventTo
  repeat' first | with_reducible rfl | split | intro _ | (simp; done) | rw [foldl_pending] | simp

@[simp] theorem post_pending (code : Nat) (items : List Byte) (s : State) : (post code items s).pending = s.pending := by
  unfold post
  repeat' first | with_reducible rfl | split | intro _ | (simp; done) | rw [foldl_pending] | simp

@[simp] theorem postOne_pending (m code : Nat) (items : List Byte) (s : State) : (postOne m code items s).pending = s.pending := by
  unfold postOne
  repeat' first | with_reducible rfl | split | intro _ | (simp; done) | rw [foldl_pending] | simp

@[simp] theorem raiseAlert_pending (i : Nat) (s : State) : (raiseAlert i s).pending = s.pending := by
  unfold raiseAlert
  repeat' first | with_reducible rfl | split | intro _ | (simp; done) | rw [foldl_pending] | simp

@[simp] theorem buFault_pending (step code detail : Nat) (s : State) : (buFault step code detail s).pending = s.pending := by
  unfold buFault
  repeat' first | with_reducible rfl | split | intro _ | (simp; done) | rw [foldl_pending] | simp

@[simp] theorem modCmd_pending (k : Nat) (g : Cmd → Cmd) (s : State) : (modCmd k g s).pending = s.pending := by
  unfold modCmd
  repeat' first | with_reducible rfl | split | intro _ | (simp; done) | rw [foldl_pending] | simp

@[simp] theorem finishCmd_pending (k : Nat) (r : Reply) (s : State) : (finishCmd k r s).pending = s.pending := by
  unfold finishCmd
  repeat' first | with_reducible rfl | split | intro _ | (simp; done) | rw [foldl_pending] | simp

@[simp] theorem modOp_pending (k : Nat) (g : Op → Op) (s : State) : (modOp k g s).pending = s.pending := by
  unfold modOp
  repeat' first | with_reducible rfl | split | intro _ | (simp; done) | rw [foldl_pending] | simp

end Sys2Proof.Machine
end

