-- ==== Sys2Proof/Laws/Commands.lean ====
section
/-! SUPPORT. What running a mailbox command does, once: a command that is taken and passes its checks has its effect and is answered, or waits; a
failing check answers and changes nothing else (R390 to R393). -/

namespace Sys2Proof.Machine

open Sys2Proof

@[simp] theorem orElse_nil : orElse [] = none := rfl
@[simp] theorem orElse_cons (b : Bool) (r : Reply) (l : List (Bool × Reply)) :
    orElse ((b, r) :: l) = if b = true then some r else orElse l := by
  unfold orElse
  cases b <;> simp

theorem checked_pass (l : List (Bool × Reply)) (act : State → State × Reply) (s : State) (h : orElse l = none) : checked l act s = act s := by
  unfold checked; rw [h]

theorem checked_fail (l : List (Bool × Reply)) (act : State → State × Reply) (s : State) (r : Reply) (h : orElse l = some r) :
    checked l act s = (s, r) := by unfold checked; rw [h]

/-- A command that is taken runs its body. -/
theorem runCmd_taken {s : State} {k op : Nat} {c : Cmd} (h : Taken s k op c) (body : Cmd → State → State × Reply) :
    runCmd k op body s = if (body c s).2.wait = true then startCmd k (body c s).2.commit (body c s).1 else finishCmd k (body c s).2 (body c s).1 := by
  obtain ⟨h1, h2, h3, h4, h5⟩ := h
  unfold runCmd
  rw [h1]
  simp [h2, h3, h4, h5]

theorem taken_key {s : State} {k op : Nat} {c : Cmd} (h : Taken s k op c) : c.key = k := by
  have h2 := List.find?_some h.1
  simpa using h2

theorem taken_open {s : State} {k op : Nat} {c : Cmd} (h : Taken s k op c) : c.decided = false ∧ c.started = false := by
  have := h.2.2.1
  unfold mayStart at this
  simp at this
  exact ⟨this.1.1.1, this.1.1.2⟩

@[simp] theorem answer_key (c : Cmd) (r : Reply) : (c.answer r).key = c.key := by unfold Cmd.answer; split <;> rfl
@[simp] theorem answer_decided (c : Cmd) (r : Reply) : (c.answer r).decided = true := by unfold Cmd.answer; split <;> simp_all

/-- The command `k` after a change that keeps keys. -/
theorem cmdOf_modCmd (k j : Nat) (g : Cmd → Cmd) (hg : ∀ c, (g c).key = c.key) (s : State) :
    cmdOf (modCmd k g s) j = (cmdOf s j).map (fun c => if j = k then g c else c) := by
  unfold cmdOf modCmd
  simp only
  induction s.cmds with
  | nil => rfl
  | cons c l ih =>
    simp only [List.map_cons, List.find?_cons]
    by_cases h : c.key = k
    · subst h
      simp only [if_true, hg]
      by_cases h2 : c.key = j
      · subst h2; simp
      · have : (c.key == j) = false := by simpa using h2
        simp only [this, ih]
    · by_cases h2 : c.key = j
      · subst h2; simp [h]
      · have : (c.key == j) = false := by simpa using h2
        simp only [h, if_false, this, ih]

theorem cmdOf_congr {s t : State} (h : t.cmds = s.cmds) (k : Nat) : cmdOf t k = cmdOf s k := by unfold cmdOf; rw [h]

/-- After `finishCmd` the command is answered, also when the effect before it left the commands alone. -/
theorem answered_finish (k : Nat) (r : Reply) (s t : State) (h : t.cmds = s.cmds) : Answered s (finishCmd k r t) k r := by
  unfold Answered finishCmd
  rw [cmdOf_modCmd _ _ _ (by simp), cmdOf_congr h]
  simp

/-- After `startCmd` the command waits. -/
theorem waiting_start {s : State} {k op : Nat} {c : Cmd} (hc : Taken s k op c) (b : Bool) (t : State) (h : t.cmds = s.cmds) :
    Waiting (startCmd k b t) k := by
  unfold Waiting startCmd
  rw [cmdOf_modCmd _ _ _ (by simp), cmdOf_congr h, hc.1]
  exact ⟨_, rfl, by simp, by simp [(taken_open hc).1]⟩

@[simp] theorem cmd_zero_eq (c : Cmd) (i j : Nat) : c.zero i j = decide (c.at i (j - i) = 0) := by
  unfold Cmd.zero; rfl

end Sys2Proof.Machine
end

