-- ==== Sys2Proof/Laws/Memory.lean ====
section
/-! SUPPORT. Every memory operation keeps the canonical form of device memory, host memory, poison and error marks, and says which bytes it can
change. -/

namespace Sys2Proof.Machine

open Sys2Proof State

/-! ### The canonical form -/

theorem memWf_iff (s : State) : s.memWf = true ↔
    Memory.wf s.mem = true ∧ Memory.wf s.hostMem = true ∧ Tab.wf false s.poison = true ∧ Tab.wf (0 : BitVec 80) s.errs = true := by
  simp only [State.memWf, Bool.and_eq_true, and_assoc]

/-- A step of a state's other components keeps the form. -/
theorem memWf_congr {s t : State} (h1 : t.mem = s.mem) (h2 : t.hostMem = s.hostMem) (h3 : t.poison = s.poison) (h4 : t.errs = s.errs)
    (h : s.memWf = true) : t.memWf = true := by
  simpa only [State.memWf, h1, h2, h3, h4] using h

/-- A canonical table without some of its entries is canonical. -/
theorem Tab.wf_filter {α : Type} [DecidableEq α] (d : α) (q : Nat × α → Bool) (t : Tab α) (h : Tab.wf d t = true) :
    Tab.wf d (t.filter q) = true := by
  induction t with
  | nil => simp [Tab.wf]
  | cons e l ih =>
    obtain ⟨a, w⟩ := e
    obtain ⟨h1, h2, h3⟩ := (Tab.wf_cons_iff d a w l).mp h
    cases hq : q (a, w) with
    | false => rw [List.filter_cons_of_neg (by simp [hq])]; exact ih h3
    | true =>
      rw [List.filter_cons_of_pos hq]
      exact (Tab.wf_cons_iff d a w _).mpr ⟨h1, fun e he => h2 e (List.mem_filter.mp he).1, ih h3⟩

/-- A fold whose steps keep the form keeps it. -/
theorem foldl_memWf {α : Type} (f : State → α → State) (l : List α) (s : State) (hf : ∀ s a, s.memWf = true → (f s a).memWf = true)
    (h : s.memWf = true) : (l.foldl f s).memWf = true := foldl_inv (fun s => s.memWf = true) f hf l s h

/-! ### Every memory operation keeps it -/

theorem hostWrite_memWf (a : Nat) (l : List Byte) (s : State) (h : s.memWf = true) : (hostWrite a l s).memWf = true := by
  obtain ⟨h1, h2, h3, h4⟩ := (memWf_iff s).mp h
  exact (memWf_iff _).mpr ⟨h1, Memory.wf_writeN _ _ _ h2, h3, h4⟩

theorem putWord_memWf (s : State) (w : Nat) (d : BitVec 64) (h : s.memWf = true) : (putWord s w d).memWf = true := by
  obtain ⟨h1, h2, h3, h4⟩ := (memWf_iff s).mp h
  exact (memWf_iff _).mpr ⟨Memory.wf_writeN _ _ _ h1, h2, h3, h4⟩

theorem putByte_memWf (s : State) (a : Nat) (v : Byte) (h : s.memWf = true) : (putByte s a v).memWf = true := by
  unfold putByte
  split
  · exact h
  · obtain ⟨h1, h2, h3, h4⟩ := (memWf_iff s).mp h
    exact (memWf_iff _).mpr ⟨Memory.wf_write _ _ _ h1, h2, h3, h4⟩

theorem putBytesAt_memWf (s : State) (a : Nat) (l : List Byte) (h : s.memWf = true) : (putBytesAt s a l).memWf = true := by
  induction l generalizing s a with
  | nil => exact h
  | cons v l ih => exact ih _ _ (putByte_memWf s a v h)

theorem setPoisoned_memWf (s : State) (w : Nat) (v : Bool) (h : s.memWf = true) : (s.setPoisoned w v).memWf = true := by
  obtain ⟨h1, h2, h3, h4⟩ := (memWf_iff s).mp h
  exact (memWf_iff _).mpr ⟨h1, h2, Tab.wf_tset _ _ _ _ h3, h4⟩

theorem setErr_memWf (s : State) (w : Nat) (v : BitVec 80) (h : s.memWf = true) : (s.setErr w v).memWf = true := by
  obtain ⟨h1, h2, h3, h4⟩ := (memWf_iff s).mp h
  exact (memWf_iff _).mpr ⟨h1, h2, h3, Tab.wf_tset _ _ _ _ h4⟩

theorem putPoison_memWf (s : State) (w : Nat) (full bad : Bool) (h : s.memWf = true) : (putPoison s w full bad).memWf = true := by
  unfold putPoison
  split
  · exact h
  · exact setErr_memWf _ _ _ (setPoisoned_memWf _ _ _ h)

theorem msix_memWf (v : Nat) (s : State) (h : s.memWf = true) : (msix v s).memWf = true :=
  memWf_congr (by simp) (by simp) (by simp) (by simp) h

theorem setMb_memWf (s : State) (m : Nat) (b : Mb) (h : s.memWf = true) : (s.setMb m b).memWf = true := h

theorem eventTo_memWf (code : Nat) (items : List Byte) (s : State) (m : Nat) (h : s.memWf = true) : (eventTo code items s m).memWf = true := by
  unfold eventTo
  dsimp only
  split
  · exact h
  split
  · exact setMb_memWf _ _ _ h
  have h2 := fun a l b => setMb_memWf _ m b (hostWrite_memWf a l s h)
  split
  · exact msix_memWf _ _ (h2 _ _ _)
  · exact h2 _ _ _

theorem post_memWf (code : Nat) (items : List Byte) (s : State) (h : s.memWf = true) : (post code items s).memWf = true := by
  unfold post
  split
  · exact h
  · exact foldl_memWf _ _ _ (fun s m hs => eventTo_memWf code items s m hs) h

theorem postOne_memWf (m code : Nat) (items : List Byte) (s : State) (h : s.memWf = true) : (postOne m code items s).memWf = true := by
  unfold postOne
  split
  · exact h
  · exact eventTo_memWf _ _ _ _ h

theorem buFault_memWf (step code detail : Nat) (s : State) (h : s.memWf = true) : (buFault step code detail s).memWf = true :=
  msix_memWf _ _ h

theorem countCe_memWf (u : Nat) (s : State) (h : s.memWf = true) : (countCe u s).memWf = true := by
  unfold countCe
  split <;> exact h

theorem countUe_memWf (u a : Nat) (s : State) (h : s.memWf = true) : (countUe u a s).memWf = true := by
  unfold countUe
  dsimp only
  split
  · split
    · exact post_memWf _ _ _ h
    · exact h
  · exact post_memWf _ _ _ h

theorem touchPlain_memWf (s : State) (w : Nat) (e : BitVec 80) (h : s.memWf = true) : (touchPlain s w e).memWf = true := by
  unfold touchPlain
  dsimp only
  split
  · split
    · exact setPoisoned_memWf _ _ _ (setErr_memWf _ _ _ (putWord_memWf _ _ _ h))
    · exact countCe_memWf _ _ (setPoisoned_memWf _ _ _ (setErr_memWf _ _ _ (putWord_memWf _ _ _ h)))
  · exact countUe_memWf _ _ _ (setPoisoned_memWf _ _ _ (setErr_memWf _ _ _ (putWord_memWf _ _ _ h)))

theorem touchAcc_memWf (s : State) (w : Nat) (e : BitVec 80) (h : s.memWf = true) : (touchAcc s w e).memWf = true := by
  unfold touchAcc
  dsimp only
  split
  all_goals split
  all_goals first
    | exact countUe_memWf _ _ _ (setErr_memWf _ _ _ (memWf_congr rfl rfl rfl rfl h))
    | exact setErr_memWf _ _ _ (memWf_congr rfl rfl rfl rfl h)

theorem touchWord_memWf (s : State) (w : Nat) (e : BitVec 80) (h : s.memWf = true) : (touchWord s w e).memWf = true := by
  unfold touchWord
  split
  · exact touchAcc_memWf _ _ _ h
  · exact touchPlain_memWf _ _ _ h

theorem touchWhere_memWf (q : Nat → Bool) (s : State) (h : s.memWf = true) : (touchWhere q s).memWf = true := by
  unfold touchWhere
  exact foldl_memWf _ _ _ (fun s x hs => touchWord_memWf s x.1 x.2 hs) h

theorem touch_memWf (a n : Nat) (s : State) (h : s.memWf = true) : (touch a n s).memWf = true := touchWhere_memWf _ _ h

theorem touchRow_memWf (f row : Nat) (s : State) (h : s.memWf = true) : (touchRow f row s).memWf = true := touch_memWf _ _ _ h

theorem upsetAt_memWf (s : State) (a : Nat) (e : BitVec 80) (h : s.memWf = true) : (upsetAt s a e).memWf = true := by
  unfold upsetAt
  split
  · exact h
  · exact setErr_memWf s _ _ h

theorem upset_memWf (flips : List (Nat × BitVec 80)) (s : State) (h : s.memWf = true) : (upset flips s).memWf = true := by
  unfold upset
  exact foldl_memWf _ _ _ (fun s x hs => upsetAt_memWf s x.1 x.2 hs) h

theorem wrBytes_memWf (a : Nat) (l : List Byte) (bad : Nat → Bool) (s : State) (h : s.memWf = true) : (wrBytes a l bad s).memWf = true := by
  unfold wrBytes
  dsimp only
  refine foldl_memWf _ _ _ (fun s w hs => putPoison_memWf s w _ _ hs) (putBytesAt_memWf _ _ _ ?_)
  exact foldl_memWf _ _ _ (fun s w hs => touch_memWf _ _ s hs) h

theorem wrClean_memWf (a : Nat) (l : List Byte) (s : State) (h : s.memWf = true) : (wrClean a l s).memWf = true := wrBytes_memWf _ _ _ _ h

theorem zeroRange_memWf (a n : Nat) (s : State) (h : s.memWf = true) : (zeroRange a n s).memWf = true := by
  obtain ⟨h1, h2, h3, h4⟩ := (memWf_iff s).mp h
  exact (memWf_iff _).mpr ⟨Tab.wf_filter _ _ _ h1, h2, Tab.wf_filter _ _ _ h3, Tab.wf_filter _ _ _ h4⟩

theorem zeroUnit_memWf (u : Nat) (s : State) (h : s.memWf = true) : (zeroUnit u s).memWf = true := by
  obtain ⟨h1, h2, h3, h4⟩ := (memWf_iff s).mp h
  exact (memWf_iff _).mpr ⟨Tab.wf_filter _ _ _ h1, h2, Tab.wf_filter _ _ _ h3, Tab.wf_filter _ _ _ h4⟩

/-- A reset leaves nothing in device memory, and host memory as it is. -/
theorem resetTo_memWf (s : State) (h : s.memWf = true) : (resetTo s).memWf = true := by
  obtain ⟨-, h2, -, -⟩ := (memWf_iff s).mp h
  exact (memWf_iff _).mpr ⟨rfl, h2, rfl, rfl⟩

/-! ### Which bytes a store can change -/

/-- A stored byte reads back where a store reaches, and every other byte stays. -/
theorem read_putByte (s : State) (a b : Nat) (v : Byte) :
    Memory.read (putByte s a v).mem b = if b = a ∧ noStore s a = false then v else Memory.read s.mem b := by
  unfold putByte
  split
  · next h => simp [h]
  · next h => simp only [Memory.read_write, Bool.not_eq_true _ ▸ h, and_true]

/-- Stored bytes change no byte outside them. -/
theorem read_putBytesAt_out (s : State) (a b : Nat) (l : List Byte) (h : b < a ∨ a + l.length ≤ b) :
    Memory.read (putBytesAt s a l).mem b = Memory.read s.mem b := by
  induction l generalizing s a with
  | nil => rfl
  | cons v l ih =>
    simp only [List.length_cons] at h
    rw [putBytesAt, ih _ _ (by omega), read_putByte, if_neg (by omega)]

end Sys2Proof.Machine
end

