-- ==== Sys2Proof/WellFormed.lean ====
section
/-! DEFINITION. Which commands are well formed: every operand lies where the chapter's rule puts it. -/

namespace Sys2Proof

/-- A field 0 to 31 (R29). -/
def fieldOk (f : Nat) : Bool := decide (f < 32)

/-- A band 0 to 7 of a field (R54). -/
def bandOk (b : Nat) : Bool := decide (b < 8)

/-- A light port: LP0 to LP7, then LX0 and LX1 (R63). -/
def lightPortOk (n : Nat) : Bool := decide (n < 10)

/-- A colour 0 to 3 (R47). -/
def colourOk (g : Nat) : Bool := decide (g < 4)

/-- A relay source, 0 LX0 or 1 LX1 (R63). -/
def relayOk (x : Nat) : Bool := decide (x < 2)

/-- A monitor converter 0 to 63 (R120). -/
def converterOk (k : Nat) : Bool := decide (k < 64)

/-- An injection trigger: 0 light, 1 temperature, 2 request (R127). -/
def triggerOk (t : Nat) : Bool := decide (t < 3)

/-- A loop slot 0 to 8191 (R140). -/
def loopSlotOk (s : Nat) : Bool := decide (s < 8192)

/-- A partition 0 to 3 (R342). -/
def partitionOk (p : Nat) : Bool := decide (p < 4)

/-- An op stream 0 to 63 (R232). -/
def streamOk (s : Nat) : Bool := decide (s < 64)

/-- A vector core, 64 to a field (R267). -/
def coreOk (c : Nat) : Bool := decide (c < 2048)

/-- A DMA channel of a core (R271). -/
def channelOk (c : Nat) : Bool := decide (c < 4)

/-- A device address of 48 bits (R286). -/
def addressOk (a : Nat) : Bool := decide (a < 2 ^ 48)

/-- A memory unit: 0 to 11 HBM stacks, 16 to 27 DDR channels (R311). -/
def unitOk (u : Nat) : Bool := decide (u < 12 ∨ 16 ≤ u ∧ u < 28)

/-- A die-to-die link D0 to D6 (R337). -/
def dieLinkOk (n : Nat) : Bool := decide (n < 7)

/-- A link port 0 to 23 (R347). -/
def linkPortOk (p : Nat) : Bool := decide (p < 24)

/-- A link port, or 24 for a packet of this device (R361). -/
def sourceOk (p : Nat) : Bool := decide (p ≤ 24)

/-- A lane of a link port (R347). -/
def laneOk (l : Nat) : Bool := decide (l < 16)

/-- A credit pool: nine reserved, and 9 the shared one (R357). -/
def poolOk (q : Nat) : Bool := decide (q < 10)

/-- A flit sequence number of 12 bits (R355). -/
def seqOk (n : Nat) : Bool := decide (n < 4096)

/-- An OPREF of 16 bits (R361). -/
def oprefOk (n : Nat) : Bool := decide (n < 65536)

/-- A device coordinate of 14 bits (R367). -/
def coordOk (c : Nat) : Bool := decide (c < 2 ^ 14)

/-- A direction 0 to 5, or 6 for the own subtree (R375). -/
def directionOk (d : Nat) : Bool := decide (d ≤ 6)

/-- A mailbox 0 to 63 (R383). -/
def mailboxOk (m : Nat) : Bool := decide (m < 64)

/-- BAR0, BAR2, BAR4, or 1 for the management register page (R381, R490). -/
def barOk (b : Nat) : Bool := decide (b < 3 ∨ b = 4)

/-- A die 0 to 21, or 22 for the EXT_T pins (R438). -/
def sensorDieOk (d : Nat) : Bool := decide (d ≤ 22)

/-- A die 0 to 21 (R438). -/
def dieOk (d : Nat) : Bool := decide (d < 22)

/-- A power domain (R431). -/
def domainOk (d : Nat) : Bool := decide (d < 224)

/-- A CXL.mem region: 0 HBM, 1 DDR, 2 SRAM (R287). -/
def memoryRegionOk (r : Nat) : Bool := decide (r < 3)

/-- An MCTP endpoint ID of 8 bits (R487). -/
def byteOk (n : Nat) : Bool := decide (n < 256)

/-- An I3C dynamic address of 7 bits (R486). -/
def i3cOk (a : Nat) : Bool := decide (a < 128)

/-- A measurement register that firmware may extend: M6 or M7 (R477). -/
def extendableOk (r : Nat) : Bool := decide (r = 6 ∨ r = 7)

/-- A device-error cause of 3 bits (R469). -/
def causeOk (c : Nat) : Bool := decide (c < 8)

/-- An SPDM transport (R479). -/
def transportOk (t : Nat) : Bool := decide (t < 2)

/-- A time within a beat in 0.1 ns; a halt adds up to one field-clock cycle (R16, R23). -/
def timeOk (t : Nat) : Bool := decide (t ≤ 10010)

/-- A bring-up time in ms (R430). -/
def msOk (t : Nat) : Bool := decide (t < 65536)

/-- A high time within a window of 64 beats, in ns (R151). -/
def windowOk (n : Nat) : Bool := decide (n ≤ 64000)

/-- Samples of fields, columns and colours that exist (R30, R47). -/
def samplesOk (l : List Sample) : Bool := l.all (fun x => decide (x.f < 32 ∧ x.c < 256 ∧ x.g < 4))

/-- A convoy chunk: a header of 16 bytes and a payload of 4,096 (R418). -/
def chunkOk (l : List Byte) : Bool := l.length == 4112

/-- A command entry of 64 bytes (R388). -/
def entryOk (l : List Byte) : Bool := l.length == 64

/-- An extended payload: whole units of 64 bytes, at most 255 (R388). -/
def extOk (l : List Byte) : Bool := l.length % 64 == 0 && decide (l.length ≤ 16320)

/-- Loads and stores that lie in the 48-bit address space; a store carries its bytes (R268). -/
def workOk (w : CoreWork) : Bool := w.all (fun a => decide (0 < a.len ∧ a.off < 2 ^ 48 ∧ (a.store.map List.length).getD a.len = a.len))

/-- Cores that exist (R267). -/
def coresOk (l : List Nat) : Bool := l.all coreOk

/-- Every operand of the command lies where its rule puts it. -/
def Instr.wf (i : Instr) : Bool :=
  match i with
  | .beatEdge _ => true
  | .sliceWindowOpen => true
  | .calibrationWindowOpen => true
  | .sliceWindowEnd => true
  | .symbolSlot f _ samples => fieldOk f && samplesOk samples
  | .loaderBufferLoaded f t => fieldOk f && timeOk t
  | .fillComplete f t => fieldOk f && timeOk t
  | .swap f t => fieldOk f && timeOk t
  | .liveRefresh f => fieldOk f
  | .pendingRewrite f t => fieldOk f && timeOk t
  | .pendingTileReload f => fieldOk f
  | .trimRoundStart => true
  | .loopSlotCompute slot _ _ => loopSlotOk slot
  | .fadeLevelFall n g => lightPortOk n && colourOk g
  | .fadeComparatorTrip n g => lightPortOk n && colourOk g
  | .relayRecovered x => relayOk x
  | .relayPrelockDone x => relayOk x
  | .lightPauseStart => true
  | .relaySettled n => lightPortOk n
  | .quickGainDone n => lightPortOk n
  | .lightPauseEnd => true
  | .monitorSlotEnd k _ => converterOk k
  | .monitorInjectTrigger k trig => converterOk k && triggerOk trig
  | .monitorSelftestRun k => converterOk k
  | .monCommitWrite k _ => converterOk k
  | .monHostInjectWrite k _ => converterOk k
  | .monRingOnWrite _ => true
  | .coolpwmWindow high => windowOk high
  | .coolantPwmLost => true
  | .lpFreezeWrite slot _ => loopSlotOk slot
  | .loopFreezeTimeout slot => loopSlotOk slot
  | .lpTestStart _ => true
  | .lpTestStop _ => true
  | .captureBufferFull => true
  | .thermalPauseStart f => fieldOk f
  | .thermalPauseEnd f => fieldOk f
  | .calCadenceTick p => partitionOk p
  | .calRunComplete f b _ => fieldOk f && bandOk b
  | .descriptorIssue slot => streamOk slot
  | .fieldGemm _ => true
  | .opHandover _ f => fieldOk f
  | .accDrain _ => true
  | .treeFencePass _ => true
  | .accSave _ => true
  | .accRestore _ => true
  | .vecKernel _ => true
  | .quantScale _ => true
  | .move _ => true
  | .moveReduce _ => true
  | .fence _ => true
  | .wait _ => true
  | .signal _ => true
  | .tollgate _ => true
  | .nop _ => true
  | .opRetire _ => true
  | .layerRewriteStart p => partitionOk p
  | .layerRewriteDone p => partitionOk p
  | .swapDrainTimeout p => partitionOk p
  | .spillCopyDone slot => addressOk slot
  | .kernelReturn c _ wk => coreOk c && workOk wk
  | .kernelTrap c _ _ _ wk => coreOk c && workOk wk
  | .kernelWatchdog c _ wk => coreOk c && workOk wk
  | .vbarrierWrite c wk => coreOk c && workOk wk
  | .vpoisonWrite c _ wk => coreOk c && workOk wk
  | .coreDmaDescriptor c ch src dst _ _ _ _ wk => coreOk c && channelOk ch && addressOk src && addressOk dst && workOk wk
  | .hostCxlRead addr _ _ => addressOk addr
  | .hostCxlWrite addr _ => addressOk addr
  | .patrolScrubRead u _ => unitOk u
  | .ceRateTrip u => unitOk u
  | .retrainStart => true
  | .retrainDone _ => true
  | .memoryZeroingDone u => unitOk u
  | .d2dLinkFail n => dieLinkOk n
  | .d2dFallbackReady n => dieLinkOk n
  | .partitionResetEffective p => partitionOk p
  | .partitionResetRelease p failed => partitionOk p && coresOk failed
  | .linkPortTrained p _ _ _ => linkPortOk p
  | .linkPortDown p => linkPortOk p
  | .laneFail p lane => linkPortOk p && laneOk lane
  | .laneDropRetrain p => linkPortOk p
  | .portTrainRetry p => linkPortOk p
  | .flitSend p => linkPortOk p
  | .flitReceive p _ _ _ _ => linkPortOk p
  | .replayRequest p frm => linkPortOk p && seqOk frm
  | .creditReturn p pool _ => linkPortOk p && poolOk pool
  | .packetForward _ frm => sourceOk frm
  | .writePacketArrival _ => true
  | .reducePacketArrival _ => true
  | .writeAckReceive opref _ => oprefOk opref
  | .linkWriteLost opref => oprefOk opref
  | .timeMessageSend => true
  | .timeMessageReceive p _ _ _ _ => linkPortOk p
  | .tickinEdge _ => true
  | .tickFallback => true
  | .tickDisagree => true
  | .leFltNFall p => linkPortOk p
  | .leFltNRestore p => linkPortOk p
  | .lightEnginePoll p _ _ _ _ _ => linkPortOk p
  | .identityMessage p coord port _ _ _ _ => linkPortOk p && coordOk coord && linkPortOk port
  | .musterReport d _ _ _ => directionOk d
  | .systemReadyDeclare _ _ => true
  | .standbyRootDeclare _ _ => true
  | .systemReadyReceive _ _ => true
  | .musterPortTimeout p => linkPortOk p
  | .routeUpdateReceive coord _ _ => coordOk coord
  | .routeSwitchBeat => true
  | .mbEnableWrite m _ => mailboxOk m
  | .mbCmdTailWrite m _ => mailboxOk m
  | .mbDoorbell m _ => mailboxOk m
  | .commandFetch m entry ext => mailboxOk m && entryOk entry && extOk ext
  | .commandDeadline _ => true
  | .commandComplete _ => true
  | .registerWrite bar _ _ => barOk bar
  | .devInfo _ => true
  | .devReset _ => true
  | .devCmdCancel _ => true
  | .devUnitDisable _ => true
  | .devUnitEnable _ => true
  | .devUnitStatus _ => true
  | .devFaultRead _ => true
  | .devMemStatus _ => true
  | .devMemRetrain _ => true
  | .devMemScrub _ => true
  | .devMemRegion _ => true
  | .devPartitionConfig _ => true
  | .devPartitionReset _ => true
  | .devPartitionStatus _ => true
  | .powerStatus _ => true
  | .powerState _ => true
  | .powerDomain _ => true
  | .lightStatus _ => true
  | .lightCommission _ _ => true
  | .lightRelayAssign _ => true
  | .lightRelaySwitch _ => true
  | .lightRelayRelease _ => true
  | .calStatus _ => true
  | .calRun _ => true
  | .calCadence _ => true
  | .calVerify _ => true
  | .calUserClear _ => true
  | .calBandHold _ => true
  | .calBandRelease _ => true
  | .modelLoadBegin _ => true
  | .modelLoadChunk _ _ _ => true
  | .modelLoadEnd _ => true
  | .modelDirSet _ => true
  | .modelDirRead _ => true
  | .modelDirFree _ => true
  | .modelSwapStage _ => true
  | .modelSwapStatus _ => true
  | .modelSwapCancel _ => true
  | .modelPrefetch _ => true
  | .execSubmit _ => true
  | .execAbort _ => true
  | .execStatus _ => true
  | .execToken _ => true
  | .execStream _ => true
  | .manifestOpen _ => true
  | .manifestClose _ => true
  | .manifestFree _ => true
  | .manifestRead _ => true
  | .linkStatus _ => true
  | .linkConfig _ => true
  | .linkPortRetrain _ => true
  | .linkPortDisable _ => true
  | .linkPortEnable _ => true
  | .linkFec _ => true
  | .linkMusterStatus _ => true
  | .linkRejoin _ => true
  | .linkTime _ => true
  | .thermalStatus _ => true
  | .thermalConfig _ => true
  | .thermalThrottleAck _ => true
  | .thermalSensor _ => true
  | .secCertRead _ => true
  | .secMeasureRead _ => true
  | .secLicenceInstall _ => true
  | .secLicenceList _ => true
  | .secImageStage _ => true
  | .secImageCommit _ => true
  | .imageStageIdleTimeout => true
  | .telemetryRead _ => true
  | .telemetryConfig _ => true
  | .debugRead _ => true
  | .debugWrite _ => true
  | .debugSteward _ => true
  | .loopStatus _ => true
  | .loopConfig _ => true
  | .loopFreeze _ => true
  | .loopRelease _ => true
  | .loopTest _ => true
  | .loopCapture _ => true
  | .loopCoolant _ => true
  | .monitorStatus _ => true
  | .monitorConfig _ => true
  | .monitorSelftest _ => true
  | .monitorInject _ => true
  | .monitorRead _ => true
  | .resetNRise => true
  | .bootSetReady => true
  | .resetNFall => true
  | .pwrokFall => true
  | .refclkLoss => true
  | .refclkRestore => true
  | .buDomainEnWrite _ => true
  | .buPllGo _ => true
  | .buHbmTrainGo _ => true
  | .buImgLoad _ => true
  | .buAuthVerify _ => true
  | .buStewardRun _ => true
  | .buConvoyGo _ => true
  | .buConvoyAccept _ => true
  | .buStepWarmup _ => true
  | .buStepFactoryCal _ => true
  | .buStepUserCal _ => true
  | .bringupStepComplete ms _ => msOk ms
  | .bringupStepTimeout => true
  | .warmupFieldTimeout f _ => fieldOk f
  | .convoyChunkReceive c chunk => coreOk c && chunkOk chunk
  | .convoyRepairRound => true
  | .coreReconvoy cs failed => coresOk cs && coresOk failed
  | .sensorReading d _ _ => sensorDieOk d
  | .overtempComparatorTrip d => dieOk d
  | .throttleGraceExpiry => true
  | .throttleAckLimit => true
  | .throttleStepTimer => true
  | .sensorHoldTimer d => dieOk d
  | .shutdownComparatorTrip d => dieOk d
  | .domainPowerGoodLoss d => domainOk d
  | .faultDetect _ _ _ _ _ => true
  | .coreHeartbeatMiss c => coreOk c
  | .faultQueueTake => true
  | .recoveryEnd _ => true
  | .disableGracefulTimeout _ => true
  | .stewardWatchdogExpiry => true
  | .secSelfTest _ => true
  | .spdmRequest transport _ _ => transportOk transport
  | .mctpVendorRequest entry ext => entryOk entry && extOk ext
  | .mgResetWrite _ _ => true
  | .deviceFault cause => causeOk cause
  | .decoderCommit region _ => memoryRegionOk region
  | .setEndpointId eid => byteOk eid
  | .dynamicAddressAssign a => i3cOk a
  | .measurementExtend reg _ => extendableOk reg

end Sys2Proof
end

