-- ==== Sys2Proof/Tests/Slice0.lean ====
section
/-! SUPPORT. Tests: ill-formed commands are refused, a few values of the manual, and for every statement with hypotheses one concrete state and
operands that meet all of them together. -/

namespace Sys2Proof.Tests

open Sys2Proof Sys2Proof.Machine

-- Each test is elaborated when it is read: tests that wait for the kernel side by side would each hold a thread.
set_option Elab.async false

/-! ### Ill-formed commands

Each check refuses a command one past its range, and takes the same command at the end of the range. -/

/-- R29. -/
theorem test_wf_field : (Instr.liveRefresh 32).wf = false ∧ (Instr.liveRefresh 31).wf = true := by decide
/-- R54. -/
theorem test_wf_band : (Instr.calRunComplete 31 8 []).wf = false ∧ (Instr.calRunComplete 31 7 []).wf = true := by decide
/-- R63. -/
theorem test_wf_light_port : (Instr.relaySettled 10).wf = false ∧ (Instr.relaySettled 9).wf = true := by decide
/-- R47. -/
theorem test_wf_colour : (Instr.fadeLevelFall 9 4).wf = false ∧ (Instr.fadeLevelFall 9 3).wf = true := by decide
/-- R63. -/
theorem test_wf_relay : (Instr.relayRecovered 2).wf = false ∧ (Instr.relayRecovered 1).wf = true := by decide
/-- R120. -/
theorem test_wf_converter : (Instr.monCommitWrite 64 0).wf = false ∧ (Instr.monCommitWrite 63 0).wf = true := by decide
/-- R127. -/
theorem test_wf_trigger : (Instr.monitorInjectTrigger 63 3).wf = false ∧ (Instr.monitorInjectTrigger 63 2).wf = true := by decide
/-- R140. -/
theorem test_wf_loop_slot : (Instr.loopFreezeTimeout 8192).wf = false ∧ (Instr.loopFreezeTimeout 8191).wf = true := by decide
/-- R342. -/
theorem test_wf_partition : (Instr.calCadenceTick 4).wf = false ∧ (Instr.calCadenceTick 3).wf = true := by decide
/-- R232. -/
theorem test_wf_stream : (Instr.descriptorIssue 64).wf = false ∧ (Instr.descriptorIssue 63).wf = true := by decide
/-- R267. -/
theorem test_wf_core : (Instr.vbarrierWrite 2048 []).wf = false ∧ (Instr.vbarrierWrite 2047 []).wf = true := by decide
/-- R271. -/
theorem test_wf_channel : (Instr.coreDmaDescriptor 0 4 0 0 8 1 0 0 []).wf = false ∧ (Instr.coreDmaDescriptor 0 3 0 0 8 1 0 0 []).wf = true := by decide
/-- R286. -/
theorem test_wf_address : (Instr.hostCxlWrite 0x1000000000000 []).wf = false ∧ (Instr.hostCxlWrite 0xFFFFFFFFFFFF []).wf = true := by decide
/-- R311. -/
theorem test_wf_memory_unit : (Instr.ceRateTrip 12).wf = false ∧ (Instr.ceRateTrip 16).wf = true := by decide
/-- R337. -/
theorem test_wf_die_link : (Instr.d2dLinkFail 7).wf = false ∧ (Instr.d2dLinkFail 6).wf = true := by decide
/-- R347. -/
theorem test_wf_link_port : (Instr.flitSend 24).wf = false ∧ (Instr.flitSend 23).wf = true := by decide
/-- R361. -/
theorem test_wf_packet_source : (Instr.packetForward {} 25).wf = false ∧ (Instr.packetForward {} 24).wf = true := by decide
/-- R347. -/
theorem test_wf_lane : (Instr.laneFail 0 16).wf = false ∧ (Instr.laneFail 0 15).wf = true := by decide
/-- R357. -/
theorem test_wf_pool : (Instr.creditReturn 0 10 1).wf = false ∧ (Instr.creditReturn 0 9 1).wf = true := by decide
/-- R355. -/
theorem test_wf_sequence_number : (Instr.replayRequest 0 4096).wf = false ∧ (Instr.replayRequest 0 4095).wf = true := by decide
/-- R361. -/
theorem test_wf_opref : (Instr.linkWriteLost 65536).wf = false ∧ (Instr.linkWriteLost 65535).wf = true := by decide
/-- R367. -/
theorem test_wf_coordinate : (Instr.routeUpdateReceive 0x4000 true 0).wf = false ∧ (Instr.routeUpdateReceive 0x3FFF true 0).wf = true := by decide
/-- R375. -/
theorem test_wf_direction : (Instr.musterReport 7 false [] 0).wf = false ∧ (Instr.musterReport 6 false [] 0).wf = true := by decide
/-- R383. -/
theorem test_wf_mailbox : (Instr.mbDoorbell 64 1).wf = false ∧ (Instr.mbDoorbell 63 1).wf = true := by decide
/-- R381. -/
theorem test_wf_bar : (Instr.registerWrite 3 0 0).wf = false ∧ (Instr.registerWrite 4 0 0).wf = true := by decide
/-- R418. -/
theorem test_wf_convoy_chunk : (Instr.convoyChunkReceive 0 (List.replicate 4111 0)).wf = false ∧ (Instr.convoyChunkReceive 0 (List.replicate 4112 0)).wf = true := by decide +kernel
/-- R438. -/
theorem test_wf_sensor_die : (Instr.sensorReading 23 0 0).wf = false ∧ (Instr.sensorReading 22 0 0).wf = true := by decide
/-- R438. -/
theorem test_wf_die : (Instr.sensorHoldTimer 22).wf = false ∧ (Instr.sensorHoldTimer 21).wf = true := by decide
/-- R431. -/
theorem test_wf_power_domain : (Instr.domainPowerGoodLoss 224).wf = false ∧ (Instr.domainPowerGoodLoss 223).wf = true := by decide
/-- R287. -/
theorem test_wf_memory_region : (Instr.decoderCommit 3 0).wf = false ∧ (Instr.decoderCommit 2 0).wf = true := by decide
/-- R487. -/
theorem test_wf_endpoint : (Instr.setEndpointId 256).wf = false ∧ (Instr.setEndpointId 255).wf = true := by decide
/-- R486. -/
theorem test_wf_i3c_address : (Instr.dynamicAddressAssign 128).wf = false ∧ (Instr.dynamicAddressAssign 127).wf = true := by decide
/-- R477. -/
theorem test_wf_measurement : (Instr.measurementExtend 5 []).wf = false ∧ (Instr.measurementExtend 6 []).wf = true := by decide
/-- R469. -/
theorem test_wf_cause : (Instr.deviceFault 8).wf = false ∧ (Instr.deviceFault 7).wf = true := by decide
/-- R479. -/
theorem test_wf_transport : (Instr.spdmRequest 2 0x84 []).wf = false ∧ (Instr.spdmRequest 1 0x84 []).wf = true := by decide
/-- R16. -/
theorem test_wf_time : (Instr.fillComplete 0 10011).wf = false ∧ (Instr.fillComplete 0 10010).wf = true := by decide
/-- R430. -/
theorem test_wf_bring_up_time : (Instr.bringupStepComplete 65536 {}).wf = false ∧ (Instr.bringupStepComplete 65535 {}).wf = true := by decide
/-- R151. -/
theorem test_wf_high_time : (Instr.coolpwmWindow 64001).wf = false ∧ (Instr.coolpwmWindow 64000).wf = true := by decide
/-- R30. -/
theorem test_wf_samples : (Instr.symbolSlot 0 false [{ f := 0, c := 256, g := 0, err := 0 }]).wf = false ∧ (Instr.symbolSlot 0 false [{ f := 0, c := 255, g := 0, err := 0 }]).wf = true := by decide
/-- R388. -/
theorem test_wf_entry : (Instr.commandFetch 0 (List.replicate 63 0) []).wf = false ∧ (Instr.commandFetch 0 (List.replicate 64 0) []).wf = true := by decide
/-- R388. -/
theorem test_wf_extended_payload : (Instr.commandFetch 0 (List.replicate 64 0) (List.replicate 63 0)).wf = false ∧ (Instr.commandFetch 0 (List.replicate 64 0) (List.replicate 64 0)).wf = true := by decide
/-- R268. -/
theorem test_wf_loads : (Instr.kernelReturn 0 0 [{ pc := 0, off := 0xC000, len := 0 }]).wf = false ∧ (Instr.kernelReturn 0 0 [{ pc := 0, off := 0xC000, len := 1 }]).wf = true := by decide
/-- R268. -/
theorem test_wf_stores : (Instr.kernelReturn 0 0 [{ pc := 0, off := 0x14000, len := 2, store := some [1] }]).wf = false ∧ (Instr.kernelReturn 0 0 [{ pc := 0, off := 0x14000, len := 1, store := some [1] }]).wf = true := by decide
/-- R267. -/
theorem test_wf_cores : (Instr.partitionResetRelease 0 [2048]).wf = false ∧ (Instr.partitionResetRelease 0 [2047]).wf = true := by decide

/-! ### Values from the manual

The expected results are the manual's own, or follow by hand from the rule that each test names; none is the model's answer. -/

/-- The packed row that chapter 13 works out below R320: +5 at column 3, −17 at column 40, +127 at column 200, in 8 bytes. -/
theorem test_packed_row :
    (packedRow ([0x03, 0x02, 0x03, 0x28, 0xC8, 0x05, 0xEF, 0x7F] : List (BitVec 8))) =
      .row ((List.replicate 3 0) ++ [5] ++ List.replicate 36 0 ++ [0xEF] ++ List.replicate 159 0 ++ [0x7F] ++ List.replicate 55 0) [] := by
  decide +kernel

/-- A column list that is not strictly ascending is refused (R320). -/
theorem test_packed_row_ascends : packedRow ([0x03, 0x01, 0x28, 0x28, 0x05, 0x06] : List (BitVec 8)) = .bad := by decide +kernel

/-- 1 + 1 = 2 in FP32, and 1 + 2⁻²⁴ rounds to the even neighbour 1 (R191). -/
theorem test_fp32_add : fpAdd fp32 0x3F800000 0x3F800000 = 0x40000000 ∧ fpAdd fp32 0x3F800000 0x33800000 = 0x3F800000 := by decide +kernel

/-- The throttle level of an electronic die is 105 °C, with 4 °C of hysteresis (R442). -/
theorem test_die_levels : levelOf 6 0 (105 * 128) = 2 ∧ levelOf 6 2 (101 * 128) = 2 ∧ levelOf 6 2 (101 * 128 - 1) = 1 ∧ levelOf 6 0 (94 * 128) = 0 := by
  decide

/-- ΔV = η·(k/q)·ln 10·298.15 K is 59.75 mV at η = 16548/16384, a difference of 400,982 codes of 1.25 V/2²³: 25 °C. A thermistor of R25 = 125 kΩ drops 1.25 V,
the whole range, at 10 µA and 25 °C (R439). -/
theorem test_diode_and_thermistor : diodeTemp 400982 16548 = 3200 ∧ ntcTemp 0x800000 12500 3950 = 3200 := by decide +kernel

/-- A word that nothing wrote carries no error, and one flipped bit of it is found (R303). -/
theorem test_code_word : decodeErr 0 = some 0 ∧ decodeErr 0x80 = some 0x80 := by decide +kernel

/-- Coordinates wrap around the ring of their dimension (R365, R367). -/
theorem test_torus_wraps : neighbour { link := { lenX := 3 } } 3 0 = 0 ∧ neighbour { link := { lenX := 3 } } 0 1 = 3 := by decide

/-- Opcodes of the manual's groups are known, others are not (R391, R403). -/
theorem test_opcodes : opcodeDefined 0x0101 = true ∧ opcodeDefined 0x0E05 = true ∧ opcodeDefined 0x0E06 = false ∧ opcodeDefined 0x0104 = false := by decide

/-- The front command runs, and the rest of the queue waits. -/
theorem test_step_takes_the_front :
    step { pending := [.pwrokFall, .refclkLoss], thm := { shutdown := true }, pins := { pwrok := true } } =
      .next { pending := [.refclkLoss], thm := { shutdown := true } } := rfl

/-- An empty queue idles. -/
theorem test_step_idles : step {} = .next {} := rfl

/-- A word spells no command: the table gives its rows no bits. -/
theorem test_no_words (n w : Nat) : decodeTableWord n w = none := rfl

/-! ### Small states -/

/-- `n` zero bytes with the numbers of `fs` (offset, width in bytes, value) laid over them. -/
def pay (n : Nat) (fs : List (Nat × Nat × Nat)) : List (BitVec 8) :=
  fs.foldl (fun l f => l.take f.1 ++ leBytes f.2.1 f.2.2 ++ l.drop (f.1 + f.2.1)) (List.replicate n 0)

/-- A command of opcode `op` from mailbox 0, of key 0, with the payload fields `fs` and `e` units of extension. -/
def cm (op : Nat) (fs : List (Nat × Nat × Nat)) (e : Nat := 0) (x : List (BitVec 8) := []) : Cmd :=
  { opcode := op, extLen := e, entry := pay 64 fs, ext := x }

/-- `s` with command `c` alone in progress, and the steward released. -/
def sv (c : Cmd) (s : State := {}) : State := { s with cmds := [c], stw := { s.stw with ready := true } }

/-- An issued op of code `op` and key 0, with the descriptor fields `fs`. -/
def dop (op : Nat) (fs : List (Nat × Nat × Nat)) : Op := { stage := 1, desc := pay 64 ((0, 1, op) :: fs) }

/-- `s` with op `o` alone, and its beat admitting. -/
def iss (o : Op) (s : State := {}) : State := { s with ops := [o], tim := { s.tim with admits := true } }

/-- Memory that holds the bytes `l` at address `a`. -/
def lay (a : Nat) (l : List (BitVec 8)) : List Host.Cell := Memory.writeN [] a l

/-- A row map of row 0 with one token of 32 columns of the first band of field 0. -/
def rm0 : RowMap := { rows := 1, bands := [1], n := 32, cStep := 32, m := 1, r := 1, q := 1 }

/-- A byte of the local memory of a core can be stored to. -/
theorem noStore_core (s : State) (a : Nat) (h : 0x7F0040000000 ≤ a) (g : a < 0x7F0060000000) (d : s.memTop.ddrC = [])
    (u : (s.unit 31).state ≠ 3) : noStore s a = false := by
  have e : locOf s a = .coreMem ((a - 0x7F0000000000 - 0x40000000) / 0x40000) := by
    unfold locOf
    rw [if_neg (by omega), if_neg (by simp [ddrBytes, d]; omega), if_neg (by omega)]
    simp only
    rw [if_neg (by omega), if_pos (by omega)]
  simpa only [noStore, e, Loc.unit, beq_eq_false_iff_ne] using u


/-- A bootable image of 12,288 bytes: one steward byte, and a core image of one section for every cluster. -/
def img : List (BitVec 8) :=
  pay 12288 [(0, 4, 0x57545355), (4, 2, 1), (8, 4, 12288), (12, 4, 3072), (20, 4, 1), (24, 4, 4096), (28, 4, 4096), (36, 4, 0x10000),
    (4100, 4, 4096), (4108, 4, 15)]

/-- A table that gives every number of `l` the value `g`. -/
theorem tget_same {α : Type} (d g : α) (l : List Nat) (c : Nat) (h : c ∈ l) : tget d (l.map (fun i => (i, g))) c = g := by
  induction l with
  | nil => cases h
  | cons a l ih =>
    simp only [List.map_cons, tget]
    by_cases e : a = c
    · simp [e]
    · simpa [e] using ih (by simpa [Ne.symm e] using h)

/-! ### Every hypothesis can be met

For each statement of `Certificates/Slice0/Obligations.lean` that has hypotheses, and for each of its clauses, a state and operands that meet them
together. -/

/-- The hypotheses of `StepRunsFrontCommand` can be met, clause by clause. -/
theorem test_StepRunsFrontCommand_met :
    (∃ (c : Instr) (s : State) (rest : List Instr), s.pending = c :: rest) ∧
    (∃ (s : State), s.pending = []) :=
  ⟨⟨(.refclkLoss : Instr), ({pending := [.refclkLoss, .resetNFall]} : State), ([.resetNFall] : List Instr), by decide +kernel⟩,
   ⟨({} : State), by decide +kernel⟩⟩

/-- The hypotheses of `EveryStepKeepsMemoryCanonical` can be met, clause by clause. -/
theorem test_EveryStepKeepsMemoryCanonical_met :
    ∃ (s : State) (t : State), s.memWf = true ∧ step s = .next t :=
  ⟨({pending := [.refclkLoss]} : State), ({pins := {refclk := false}} : State), by decide +kernel, by rfl⟩

/-- The hypotheses of `OtherCommandsLeaveMemory` can be met, clause by clause. -/
theorem test_OtherCommandsLeaveMemory_met :
    ∃ (i : Instr) (s : State) (t : State), mayStore i = false ∧ exec i s = .next t :=
  ⟨(.refclkRestore : Instr), ({} : State), ({} : State), by decide +kernel, by rfl⟩

/-- The hypotheses of `IdentityNeverChangesAndRollbackIsBarred` can be met, clause by clause. -/
theorem test_IdentityNeverChangesAndRollbackIsBarred_met :
    ∃ (i : Instr) (s : State) (t : State), exec i s = .next t :=
  ⟨(.refclkRestore : Instr), ({} : State), ({} : State), by rfl⟩

/-- The hypotheses of `DeviceErrorEndsOnlyWithReset` can be met, clause by clause. -/
theorem test_DeviceErrorEndsOnlyWithReset_met :
    (∃ (s : State), s.flt.deviceError = false ∧ s.bu.stwRunning = true) ∧
    (∃ (s : State) (n : Nat), s.flt.deviceError = false ∧ (n = 2 ∨ n = 3)) ∧
    (∃ (s : State), s.flt.deviceError = false ∧ secOn s = true) ∧
    (∃ (s : State), s.bu.stwRunning = false) ∧
    (∃ (n : Nat), n ≠ 2 ∧ n ≠ 3) ∧
    (∃ (i : Instr) (s : State) (t : State), s.flt.deviceError = true ∧ exec i s = .next t) :=
  ⟨⟨({bu := {stwRunning := true}, cmds := [cm 0x0101 []], ports := [(3, {state := 2}), (4, {state := 3})]} : State), by decide +kernel⟩,
   ⟨({cmds := [cm 0x0102 []], ports := [(3, {state := 2}), (4, {state := 3})]} : State), 3, by decide +kernel⟩,
   ⟨({pwr := {on := [222]}} : State), by decide +kernel⟩,
   ⟨({} : State), by decide +kernel⟩,
   ⟨1, by decide +kernel⟩,
   ⟨(.refclkRestore : Instr), ({flt := {deviceError := true}} : State), ({flt := {deviceError := true}} : State), by decide +kernel, by rfl⟩⟩

/-- The hypotheses of `BeatRowsAct` can be met, clause by clause. -/
theorem test_BeatRowsAct_met :
    (∃ (s : State), s.tim.counting = true) ∧
    (∃ (s : State), s.tim.counting = false) ∧
    (∃ (s : State) (o : Op) (p : GPos), o ∈ s.ops ∧ o.code = 0x01 ∧ p ∈ o.pos ∧ p.on = false ∧ mayRun s o p = true) ∧
    (∃ (s : State), s.tim.beat % 64 = 0) :=
  ⟨⟨({tim := {counting := true}} : State), by decide +kernel⟩,
   ⟨({} : State), by decide +kernel⟩,
   ⟨({ iss ({ dop 1 [(20,2,1),(24,4,256),(28,4,32)] with stage := 2, map := some {bands := [1]}, pos := [{root := 0}] } : Op) with fields := [(0, {lit := true, slots := some 0})], lcols := [(0, {p0 := some 2000})] } : State), ({ dop 1 [(20,2,1),(24,4,256),(28,4,32)] with stage := 2, map := some {bands := [1]}, pos := [{root := 0}] } : Op), ({root := 0} : GPos), by decide +kernel⟩,
   ⟨({tim := {beat := 128}, fields := [(3, {trimRound := 2})]} : State), by decide +kernel⟩⟩

/-- The hypotheses of `LoadersFillAndSwapPlanes` can be met, clause by clause. -/
theorem test_LoadersFillAndSwapPlanes_met :
    (∃ (s : State) (f : Nat) (o : Op) (p : GPos), wantTile s f = some (o, p) ∧ (s.field f).bufFull = false ∧ heldAny s (tileRanges s o p f) = false) ∧
    (∃ (s : State) (f : Nat) (t₀ : Nat), (s.field f).bufFull = true ∧ (s.field f).loaderBusy = true ∧ (s.field f).refreshSwap = false ∧ (s.field f).fillEnd ≤ 10000 * s.tim.beat + t₀) ∧
    (∃ (s : State) (f : Nat), (s.field f).reloadPend = true ∧ (s.field f).bufFull = true ∧ (s.field f).refreshSwap = false) ∧
    (∃ (s : State) (f : Nat) (t₀ : Nat) (a : Nat), (s.field f).shadowReady = true ∧ (s.field f).bufFull = true ∧ (s.field f).shadowAt = some a ∧ a + 19000 ≤ nowNs s t₀ ∧ (fieldState s f = 1 ∨ fieldState s f = 2)) ∧
    (∃ (s : State) (f : Nat), f < 32 ∧ refreshDue s f = true ∧ swapPlanned s f = false ∧ (s.field f).refreshSwap = false) ∧
    (∃ (s : State) (f : Nat) (t₀ : Nat) (o : Op) (p : GPos), (s.field f).slots.bind (opOf s) = some o ∧ o.pos.find? (fun p => p.root == f) = some p ∧ p.live = false ∧ p.done = false ∧ (o.tiled s p).all (tileReady s o p (max t₀ (slotTime s (o.members f)))) = true) ∧
    (∃ (s : State) (f : Nat) (t₀ : Nat) (o : Op) (p : GPos), (s.field f).slots.bind (opOf s) = some o ∧ o.pos.find? (fun p => p.root == f) = some p ∧ p.live = false ∧ p.done = false ∧ (o.tiled s p).all (tileReady s o p (max t₀ (slotTime s (o.members f)))) = false) :=
  ⟨⟨({ iss ({ dop 1 [(20,2,1),(24,4,256),(28,4,32)] with stage := 2, map := some {bands := [1], cStep := 32}, pos := [{root := 0}] } : Op) with fields := [(0, {loader := some 0}), (1, {lit := true})] } : State), 0, ({ dop 1 [(20,2,1),(24,4,256),(28,4,32)] with stage := 2, map := some {bands := [1], cStep := 32}, pos := [{root := 0}] } : Op), ({root := 0} : GPos), by decide +kernel⟩,
   ⟨({fields := [(0, {loaderBusy := true, bufFull := true, fillEnd := 660, inBuf := {codes := [(0, 5)]}})]} : State), 0, 700, by decide +kernel⟩,
   ⟨({fields := [(0, {bufFull := true, reloadPend := true, inBuf := {codes := [(0, 5)]}})]} : State), 0, by decide +kernel⟩,
   ⟨({tim := {beat := 20}, fields := [(0, {lit := true, shadowReady := true, bufFull := true, shadowAt := some 5, inBuf := {codes := [(0, 5)]}})]} : State), 0, 700, 5, by decide +kernel⟩,
   ⟨({tim := {beat := 20}, fields := [(3, {lit := true, liveAt := some 2000, bandFenced := 1})]} : State), 3, by decide +kernel⟩,
   ⟨({ iss ({ dop 1 [(20,2,1),(24,4,256),(28,4,32)] with stage := 2, map := some {bands := [1], cStep := 32}, pos := [{root := 0}] } : Op) with fields := [(0, {slots := some 0, shadowReady := true, planeB := {tile := 1}}), (1, {lit := true})] } : State), 0, 1000, ({ dop 1 [(20,2,1),(24,4,256),(28,4,32)] with stage := 2, map := some {bands := [1], cStep := 32}, pos := [{root := 0}] } : Op), ({root := 0} : GPos), by decide +kernel⟩,
   ⟨({ iss ({ dop 1 [(20,2,1),(24,4,256),(28,4,32)] with stage := 2, map := some {bands := [1], cStep := 32}, pos := [{root := 0}] } : Op) with fields := [(0, {slots := some 0, planeB := {tile := 1}}), (1, {lit := true})] } : State), 0, 1000, ({ dop 1 [(20,2,1),(24,4,256),(28,4,32)] with stage := 2, map := some {bands := [1], cStep := 32}, pos := [{root := 0}] } : Op), ({root := 0} : GPos), by decide +kernel⟩⟩

/-- The hypotheses of `SymbolSlotRuns` can be met, clause by clause. -/
theorem test_SymbolSlotRuns_met :
    (∃ (s : State) (f : Nat), slotGroup s f = some ([f], none) ∧ (s.field f).slotT + (s.field f).slotLen ≤ 10000) ∧
    (∃ (s : State) (f : Nat) (o : Op) (p : GPos) (fs : List Nat) (t : Nat) (len : Nat), slotGroup s f = some (fs, some (o, p)) ∧ t = slotTime s fs ∧ len = fs.foldl (fun m g => max m (s.field g).slotLen) 1 ∧ t + len ≤ 10000 ∧ userSlot (fs.foldl (advanceSlots t) s) fs p t len = true) ∧
    (∃ (s : State) (f : Nat) (o : Op) (p : GPos) (fs : List Nat) (t : Nat) (len : Nat), slotGroup s f = some (fs, some (o, p)) ∧ s.errs = [] ∧ (∀ g ∈ o.rm.colours, g < 4) ∧ t = slotTime s fs ∧ len = fs.foldl (fun m g => max m (s.field g).slotLen) 1 ∧ t + len ≤ 10000 ∧ userSlot (fs.foldl (advanceSlots t) s) fs p t len = true) ∧
    (∃ (s : State) (f : Nat) (starved : Bool) (o : Op) (p : GPos) (fs : List Nat) (t : Nat) (len : Nat), slotGroup s f = some (fs, some (o, p)) ∧ t = slotTime s fs ∧ len = fs.foldl (fun m g => max m (s.field g).slotLen) 1 ∧ t + len ≤ 10000 ∧ (starved = true ∨ p.on = false ∨ p.live = false ∨ t < 480 ∨ windowEnd s fs < t + len)) ∧
    (∃ (s : State) (f : Nat), slotGroup s f = some ([f], none) ∧ 10000 < (s.field f).slotT + (s.field f).slotLen) :=
  ⟨⟨({} : State), 0, by decide +kernel⟩,
   ⟨({ iss ({ dop 1 [(20,2,1),(24,4,256),(28,4,32)] with stage := 2, map := some {bands := [1], cStep := 32, m := 1}, pos := [{root := 0, on := true, live := true}] } : Op) with fields := [(0, {slots := some 0, slotT := 500})] } : State), 0, ({ dop 1 [(20,2,1),(24,4,256),(28,4,32)] with stage := 2, map := some {bands := [1], cStep := 32, m := 1}, pos := [{root := 0, on := true, live := true}] } : Op), ({root := 0, on := true, live := true} : GPos), ([0] : List Nat), 500, 1, by decide +kernel⟩,
   ⟨({ iss ({ dop 1 [(20,2,1),(24,4,256),(28,4,32)] with stage := 2, map := some {bands := [1], cStep := 32, m := 1}, pos := [{root := 0, on := true, live := true}] } : Op) with fields := [(0, {slots := some 0, slotT := 9999})] } : State), 0, ({ dop 1 [(20,2,1),(24,4,256),(28,4,32)] with stage := 2, map := some {bands := [1], cStep := 32, m := 1}, pos := [{root := 0, on := true, live := true}] } : Op), ({root := 0, on := true, live := true} : GPos), ([0] : List Nat), 9999, 1, by decide +kernel⟩,
   ⟨({ iss ({ dop 1 [(20,2,1),(24,4,256),(28,4,32)] with stage := 2, map := some {bands := [1], cStep := 32, m := 1}, pos := [{root := 0, on := true, live := true}] } : Op) with fields := [(0, {slots := some 0, slotT := 500})] } : State), 0, (true : Bool), ({ dop 1 [(20,2,1),(24,4,256),(28,4,32)] with stage := 2, map := some {bands := [1], cStep := 32, m := 1}, pos := [{root := 0, on := true, live := true}] } : Op), ({root := 0, on := true, live := true} : GPos), ([0] : List Nat), 500, 1, by decide +kernel⟩,
   ⟨({fields := [(5, {slotT := 10000})]} : State), 5, by decide +kernel⟩⟩

/-- The hypotheses of `MatrixProductWithinRounding` can be met, clause by clause. -/
theorem test_MatrixProductWithinRounding_met :
    ∃ (s : State) (l : List Sample) (f : Nat) (c : Nat) (g : Nat) (G : Int) (n : Int), G = (columnCal s f c g).2.1 ∧ 0 < G ∧ (s.field f).slow = false ∧ sampleErr l f c g = (0, 0) ∧ gainExcess s (portOfField f) g = 0 ∧ bandOffset s f c g = 0 ∧ outputCode false (rawCodes s l f c g) (corrected s f c g (rawCodes s l f c g)) = (n, false) :=
  ⟨({fields := [(0, {planeA := {drives := [(0, 4000)]}})]} : State), ([] : List Sample), 0, 0, 0, ((columnCal {} 0 0 0).2.1 : Int), 0, by decide +kernel⟩

/-- The hypotheses of `OverrangeIsClippedAndTaintsItsOctet` can be met, clause by clause. -/
theorem test_OverrangeIsClippedAndTaintsItsOctet_met :
    (∃ (l : List TreeIn) (x : TreeIn), x ∈ l ∧ x.o = true ∧ (∀ y ∈ l, y.o = true → octetKey y.f y.c y.g = octetKey x.f x.c x.g → y.f = x.f)) ∧
    (∃ (l : List TreeIn) (k : Nat), (∀ y ∈ l, y.o = true → octetKey y.f y.c y.g ≠ k)) ∧
    (∃ (s : State) (l : List Sample) (f : Nat) (c : Nat) (g : Nat) (y : Int × Bool), inTaint s f c g = true ∧ outputCode (s.field f).slow (rawCodes s l f c g) (corrected s f c g (rawCodes s l f c g)) = y) ∧
    (∃ (s : State) (l : List Sample) (f : Nat) (c : Nat) (g : Nat) (y : Int × Bool), inTaint s f c g = false ∧ outputCode (s.field f).slow (rawCodes s l f c g) (corrected s f c g (rawCodes s l f c g)) = y) :=
  ⟨⟨([({f := 0, c := 3, g := 1, raw := (511, 511), w := 8176, v := 511, t := false, o := true, p := false} : TreeIn), {f := 0, c := 5, g := 1, raw := (511, 511), w := 8176, v := 511, t := false, o := true, p := false}] : List TreeIn), ({f := 0, c := 3, g := 1, raw := (511, 511), w := 8176, v := 511, t := false, o := true, p := false} : TreeIn), by decide +kernel⟩,
   ⟨([{f := 0, c := 3, g := 1, raw := (511, 511), w := 8176, v := 511, t := false, o := true, p := false}] : List TreeIn), 2, by decide +kernel⟩,
   ⟨({taints := [(1, {upTo := 1})]} : State), ([{ f := 0, c := 3, g := 1, err := 511 }] : List Sample), 0, 3, 1, ((511, true) : Int × Bool), by decide +kernel⟩,
   ⟨({} : State), ([{ f := 0, c := 3, g := 1, err := 511 }] : List Sample), 0, 3, 1, ((511, true) : Int × Bool), by decide +kernel⟩⟩

/-- The hypotheses of `LightRowsAct` can be met, clause by clause. -/
theorem test_LightRowsAct_met :
    (∃ (s : State) (n : Nat) (g : Nat), (s.lcol (4 * n + g)).level ≠ 0 ∧ 1000 ≤ (s.lcol (4 * n + g)).short) ∧
    (∃ (s : State) (n : Nat) (g : Nat), n < 8 ∧ g < 4 ∧ (s.lcol (4 * n + g)).p0.isSome = true ∧ (s.lport n).source = 0) ∧
    (∃ (s : State) (x : Nat) (g : Nat), (s.lcol (4 * (8 + x) + g)).p0.isSome = true ∧ (s.relay x).state ≠ 3) ∧
    (∃ (s : State) (x : Nat), (∀ g, g < 4 → 1000 ≤ (s.lcol (4 * (8 + x) + g)).near)) ∧
    (∃ (s : State) (x : Nat), (s.relay x).state = 1 ∧ (s.relay x).port.isSome = true ∧ routeConfirmed s x = true) ∧
    (∃ (s : State), s.light.pauseReq = true) ∧
    (∃ (s : State) (n : Nat), (s.lport n).sw = 2 ∧ ((s.lport n).swTo = 0 ∨ ((s.relay ((s.lport n).swTo - 1)).port = some n ∧ relayAvail s ((s.lport n).swTo - 1) = true))) ∧
    (∃ (s : State) (n : Nat), (s.lport n).sw = 2 ∧ (s.lport n).swTo ≠ 0 ∧ ((s.relay ((s.lport n).swTo - 1)).port ≠ some n ∨ relayAvail s ((s.lport n).swTo - 1) = false) ∧ switchTarget s n = none) ∧
    (∃ (s : State) (n : Nat), n < 8 ∧ (s.lport n).sw = 3 ∧ ((∀ f ∈ fieldsOfPort n, ∀ b, b < 8 → (s.band (8 * f + b)).qg ≠ 1 ∨ bandOut s (8 * f + b) = true) ∨ (s.lport n).settledAt + 60 ≤ s.tim.beat)) ∧
    (∃ (s : State), s.light.pause = true ∧ (∀ n, n < 8 → (s.lport n).sw = 0 ∨ (s.lport n).sw = 5)) :=
  ⟨⟨({lcols := [(9, {level := 3, short := 1000, maxD := 171})]} : State), 2, 1, by decide +kernel⟩,
   ⟨({lcols := [(3, {p0 := some 2000, power := 1900})]} : State), 0, 3, by decide +kernel⟩,
   ⟨({lcols := [(36, {p0 := some 2000})], relays := [(1, {state := 2, port := some 4})]} : State), 1, 0, by decide +kernel⟩,
   ⟨({lcols := [(32, {near := 1000}), (33, {near := 1000}), (34, {near := 1000}), (35, {near := 1000})], relays := [(0, {tripped := true})]} : State), 0, by decide +kernel⟩,
   ⟨({relays := [(0, {state := 1, port := some 2, cmd := some 0})], cmds := [cm 0x0303 []]} : State), 0, by decide +kernel⟩,
   ⟨({light := {pauseReq := true}, lports := [(1, {sw := 1, swTo := 1})], ops := [{pos := [{on := true}]}]} : State), by decide +kernel⟩,
   ⟨({lports := [(3, {sw := 2}), (4, {source := 2})]} : State), 3, by decide +kernel⟩,
   ⟨({lports := [(3, {sw := 2, swTo := 1}), (4, {source := 2})]} : State), 3, by decide +kernel⟩,
   ⟨({lports := [(3, {sw := 3, source := 1})]} : State), 3, by decide +kernel⟩,
   ⟨({light := {pause := true}, lports := [(3, {sw := 5, source := 1})]} : State), by decide +kernel⟩⟩

/-- The hypotheses of `LightCommandsRun` can be met, clause by clause. -/
theorem test_LightCommandsRun_met :
    (∃ (s : State) (k : Nat) (c : Cmd) (refl : Int) (delta : Int), (Taken s k 0x0302 c ∧ c.at 16 1 ≤ 1 ∧ c.at 17 1 ≤ 3 ∧ -1000 ≤ signed 16 (c.at 18 2) ∧ signed 16 (c.at 18 2) ≤ 0 ∧ c.at 20 44 = 0 ∧ delta = (if bit (c.at 16 1) 0 then signed 16 (c.at 18 2) - refl else 0) ∧ sliceAdmitted s = false ∧ (∀ i, i < 80 → calInRange s (kLight i) (calFactory s (kLight i) + delta) = true)) ∧ (∀ n g, n < 10 → g < 4 → portLit s delta n = true → 1900 ≤ scaledReading s delta n g ∧ scaledReading s delta n g ≤ 2300)) ∧
    (∃ (s : State) (k : Nat) (c : Cmd) (x : Nat) (n : Nat), Taken s k 0x0303 c ∧ c.at 16 1 = x ∧ c.at 17 1 = n ∧ x < 2 ∧ n < 8 ∧ c.at 18 46 = 0 ∧ relayFree s x = true) ∧
    (∃ (s : State) (k : Nat) (c : Cmd) (x : Nat) (n : Nat), Taken s k 0x0304 c ∧ c.at 16 1 = 0 ∧ c.at 17 1 = n ∧ n < 8 ∧ c.at 18 46 = 0 ∧ (s.lport n).sw = 0 ∧ x < 2 ∧ (s.relay x).port = some n ∧ (s.relay x).state = 2 ∧ (x = 1 → (s.relay 0).port ≠ some n)) ∧
    (∃ (s : State) (k : Nat) (c : Cmd) (n : Nat), Taken s k 0x0305 c ∧ c.at 16 1 = 0 ∧ c.at 17 1 = n ∧ n < 8 ∧ c.at 18 46 = 0 ∧ (s.lport n).sw = 0 ∧ (s.lport n).source ≠ 0 ∧ notBelowP0 s n 50 = true) :=
  ⟨⟨(sv (cm 0x0302 [(17,1,3)] : Cmd) {lcols := (List.range 4).map (fun g => (g, {power := 2000, loTap := 77}))} : State), 0, (cm 0x0302 [(17,1,3)] : Cmd), 0, 0, by unfold Taken; decide +kernel, by intro n g hn hg; revert g; revert n; decide +kernel⟩,
   ⟨(sv (cm 0x0303 [(16,1,1),(17,1,7)] : Cmd) {lcols := (List.range 4).map (fun g => (36 + g, {power := 2000, p0 := some 2000}))} : State), 0, (cm 0x0303 [(16,1,1),(17,1,7)] : Cmd), 1, 7, by unfold Taken; decide +kernel⟩,
   ⟨(sv (cm 0x0304 [(17,1,7)] : Cmd) {relays := [(1, {state := 2, port := some 7})]} : State), 0, (cm 0x0304 [(17,1,7)] : Cmd), 1, 7, by unfold Taken; decide +kernel⟩,
   ⟨(sv (cm 0x0305 [(17,1,7)] : Cmd) {lcols := (List.range 4).map (fun g => (28 + g, {power := 1950, p0 := some 2000})), lports := [(7, {source := 2})]} : State), 0, (cm 0x0305 [(17,1,7)] : Cmd), 7, by unfold Taken; decide +kernel⟩⟩

/-- The hypotheses of `MonitorSlotsDeliver` can be met, clause by clause. -/
theorem test_MonitorSlotsDeliver_met :
    (∃ (s : State) (k : Nat) (i : Nat) (v : Int) (x : Int), (s.mon k).injRun = true ∧ (s.mon k).selfTest = false ∧ (s.mon k).injSlot < (s.mon k).aInjLen ∧ bits (s.mon k).aInj.toNat (5 * (s.mon k).injSlot) 5 = i ∧ x = (if monWired k i then v else 0)) ∧
    (∃ (s : State) (k : Nat) (i : Nat) (v : Int) (x : Int) (hi : Bool), (s.mon k).injRun = false ∧ (s.mon k).aEnable = true ∧ (s.mon k).resume = true ∧ (s.mon k).nextSlot ≤ (s.mon k).aSeqLen ∧ s.tim.beat % (s.mon k).window = (s.mon k).window - 1 ∧ (s.mon k).winFrom + ((s.mon k).window - 1) ≤ s.tim.beat ∧ (s.mon k).winMiss.contains (s.mon k).nextSlot = false ∧ bits (tget 0 (s.mon k).aSeq (s.mon k).nextSlot).toNat 0 5 = i ∧ hi = (diodeInput k i && bit (tget 0 (s.mon k).aSeq (s.mon k).nextSlot).toNat 5) ∧ x = (if monWired k i then v else 0)) ∧
    (∃ (s : State) (k : Nat), (s.mon k).injRun = false ∧ (s.mon k).aEnable = true ∧ (s.mon k).resume = true ∧ (s.mon k).nextSlot ≤ (s.mon k).aSeqLen ∧ s.tim.beat % (s.mon k).window ≠ (s.mon k).window - 1) :=
  ⟨⟨({mons := [(60, {injRun := true, aInjLen := 3, aInj := 8, ringEn := true})], ring := {on := true}} : State), 60, 8, 8388609, 8388609, by decide +kernel⟩,
   ⟨({tim := {beat := 31}, mons := [(20, {aEnable := true, aFine := true, aLowpwr := true, aSeqLen := 2, nextSlot := 2, resume := true, aSeq := [(2, 0x23)]})], monLasts := [(643, {low := some (31, 9)})]} : State), 20, 3, 5, 5, (true : Bool), by decide +kernel⟩,
   ⟨({tim := {beat := 30}, mons := [(60, {aEnable := true, aFine := true, aLowpwr := true, aSeqLen := 2, nextSlot := 2, resume := true, aSeq := [(2, 9)]})]} : State), 60, by decide +kernel⟩⟩

/-- The hypotheses of `TriggerDuringInjectedRunWaits` can be met, clause by clause. -/
theorem test_TriggerDuringInjectedRunWaits_met :
    (∃ (s : State) (k : Nat) (trig : Nat), (s.mon k).aEnable = true ∧ (s.mon k).aTrig.getLsbD trig = true ∧ (s.mon k).injRun = true ∧ (s.mon k).selfTest = false) ∧
    (∃ (s : State) (k : Nat), (s.mon k).injRun = true ∧ (s.mon k).selfTest = false ∧ (s.mon k).injSlot = (s.mon k).aInjLen ∧ (s.mon k).injPend = true) ∧
    (∃ (s : State) (k : Nat), (s.mon k).injRun = true ∧ (s.mon k).selfTest = false ∧ (s.mon k).injSlot = (s.mon k).aInjLen ∧ (s.mon k).injPend = false) :=
  ⟨⟨({mons := [(3, {aEnable := true, aTrig := 4, injRun := true})]} : State), 3, 2, by decide +kernel⟩,
   ⟨({mons := [(3, {injRun := true, injPend := true, aInjLen := 1, injSlot := 1})]} : State), 3, by decide +kernel⟩,
   ⟨({mons := [(3, {injRun := true, aInjLen := 1, injSlot := 1})]} : State), 3, by decide +kernel⟩⟩

/-- The hypotheses of `MonitorWritesAct` can be met, clause by clause. -/
theorem test_MonitorWritesAct_met :
    (∃ (s : State) (k : Nat) (w : BitVec 32), (w.getLsbD 23 && (s.mon k).aEnable && (s.mon k).aTrig.getLsbD 2) = false) ∧
    (∃ (s : State) (k : Nat) (w : BitVec 32), w.getLsbD 23 = true ∧ (s.mon k).aEnable = true ∧ (s.mon k).aTrig.getLsbD 2 = true ∧ (s.mon k).injRun = false) ∧
    (∃ (s : State) (k : Nat) (trig : Nat), (s.mon k).aEnable = true ∧ (s.mon k).aTrig.getLsbD trig = true ∧ (s.mon k).injRun = false ∧ (s.mon k).selfTest = false) ∧
    (∃ (s : State) (k : Nat) (trig : Nat), (s.mon k).aEnable = true ∧ (s.mon k).aTrig.getLsbD trig = true ∧ (s.mon k).injRun = true ∧ (s.mon k).selfTest = true) ∧
    (∃ (s : State) (k : Nat) (trig : Nat), ((s.mon k).aEnable = false ∨ (s.mon k).aTrig.getLsbD trig = false)) ∧
    (∃ (s : State) (k : Nat), (s.mon k).injRun = false) ∧
    (∃ (s : State) (k : Nat), (s.mon k).injRun = true) ∧
    (∃ (s : State) (w : BitVec 32) (sz : Nat), s.ring.on = false ∧ w.getLsbD 0 = true ∧ sz = (if bits w.toNat 1 5 < 10 ∨ 18 < bits w.toNat 1 5 then s.ring.sizeLog2 else bits w.toNat 1 5) ∧ 64 * s.ring.base + 8 * 2 ^ sz ≤ 16777216) ∧
    (∃ (s : State) (w : BitVec 32) (sz : Nat), s.ring.on = false ∧ w.getLsbD 0 = true ∧ sz = (if bits w.toNat 1 5 < 10 ∨ 18 < bits w.toNat 1 5 then s.ring.sizeLog2 else bits w.toNat 1 5) ∧ 16777216 < 64 * s.ring.base + 8 * 2 ^ sz) ∧
    (∃ (s : State), s.ring.on = true) :=
  ⟨⟨({} : State), 5, (0xFFFFFFFF : BitVec 32), by decide +kernel⟩,
   ⟨({mons := [(5, {aEnable := true, aTrig := 4, aInj := 9, nextSlot := 1, aSeqLen := 2})]} : State), 5, (0x00F12345 : BitVec 32), by decide +kernel⟩,
   ⟨({mons := [(5, {aEnable := true, aTrig := 2, aInj := 9, nextSlot := 1, aSeqLen := 2, resume := true})]} : State), 5, 1, by decide +kernel⟩,
   ⟨({mons := [(5, {aEnable := true, aTrig := 2, injRun := true, selfTest := true})]} : State), 5, 1, by decide +kernel⟩,
   ⟨({mons := [(5, {aEnable := true, aTrig := 5})]} : State), 5, 1, by decide +kernel⟩,
   ⟨({} : State), 63, by decide +kernel⟩,
   ⟨({mons := [(63, {injRun := true})]} : State), 63, by decide +kernel⟩,
   ⟨({ring := {base := 5, ovf := true}} : State), 0x25, 18, by decide +kernel⟩,
   ⟨({ring := {base := 262144}} : State), 0x25, 18, by decide +kernel⟩,
   ⟨({ring := {on := true}} : State), by decide +kernel⟩⟩

/-- The hypotheses of `CoolantAndThermalPauseAct` can be met, clause by clause. -/
theorem test_CoolantAndThermalPauseAct_met :
    (∃ (s : State) (high : Nat), s.eng.src = 2 ∧ 6400 ≤ high ∧ high ≤ 57600) ∧
    (∃ (s : State) (high : Nat), s.eng.src = 2 ∧ (high < 6400 ∨ 57600 < high)) ∧
    (∃ (s : State), s.eng.src = 2) ∧
    (∃ (s : State), s.eng.src ≠ 2) ∧
    (∃ (high : Nat), 6400 ≤ high ∧ high ≤ 57600) ∧
    (∃ (s : State) (f : Nat), f < 32 ∧ 7864 < (s.field f).slew ∧ (s.field f).thPause = false) ∧
    (∃ (s : State) (f : Nat), (s.field f).slew ≤ 7864) ∧
    (∃ (s : State) (f : Nat), (s.field f).thPause = true ∧ (s.field f).thPauseAt + 5 ≤ s.tim.beat ∧ (∀ b, b < 8 → bandInService s f b = true → bandLocked s f b = true)) ∧
    (∃ (s : State) (f : Nat) (b : Nat), (s.field f).thPause = true ∧ (s.field f).thPauseAt + 20 ≤ s.tim.beat ∧ b < 8 ∧ bandInService s f b = true ∧ bandLocked s f b = false) ∧
    (∃ (s : State) (f : Nat), s.tim.beat < (s.field f).thPauseAt + 5) :=
  ⟨⟨({eng := {src := 2, bad := true, pwmLost := true}} : State), 57600, by decide +kernel⟩,
   ⟨({eng := {src := 2}} : State), 57601, by decide +kernel⟩,
   ⟨({eng := {src := 2}} : State), by decide +kernel⟩,
   ⟨({eng := {src := 1}} : State), by decide +kernel⟩,
   ⟨6400, by decide +kernel⟩,
   ⟨({fields := [(31, {slew := 7865})]} : State), 31, by decide +kernel⟩,
   ⟨({fields := [(31, {slew := 7864})]} : State), 31, by decide +kernel⟩,
   ⟨({tim := {beat := 5}, fields := [(1, {thPause := true, bandFenced := 0xFF})]} : State), 1, by decide +kernel⟩,
   ⟨({tim := {beat := 20}, fields := [(1, {thPause := true, bandFenced := 0x7F})]} : State), 1, 7, by decide +kernel⟩,
   ⟨({tim := {beat := 4}, fields := [(1, {thPause := true})]} : State), 1, by decide +kernel⟩⟩

/-- The hypotheses of `LoopLawKeepsLimits` can be met, clause by clause. -/
theorem test_LoopLawKeepsLimits_met :
    ∃ (c : LoopSlot) (k : LoopSlot) (r : Int) (y : Int) (ff : Int) (acq : Nat), k.preset = true ∧ c.outMin.toInt ≤ k.out ∧ k.out ≤ c.outMax.toInt ∧ sat40 (k.out * 2 ^ 15 - (lawTerms c k acq (sat16 (r - y))).1 - (lawTerms c k acq (sat16 (r - y))).2.2 - ff * 2 ^ 15) = k.out * 2 ^ 15 - (lawTerms c k acq (sat16 (r - y))).1 - (lawTerms c k acq (sat16 (r - y))).2.2 - ff * 2 ^ 15 :=
  ⟨({kp := 0x10100, outMin := 0x8000, outMax := 0x7FFF} : LoopSlot), ({out := 100, preset := true} : LoopSlot), 40, 40, 4, 3, by decide +kernel⟩

/-- The hypotheses of `LoopSlotsComputeAndAreWritten` can be met, clause by clause. -/
theorem test_LoopSlotsComputeAndAreWritten_met :
    (∃ (s : State) (n : Nat), (8192 ≤ n ∨ s.eng.run = false ∨ loopIdle s n = true ∨ (s.loop n).slotBeat = some s.tim.beat)) ∧
    (∃ (s : State) (n : Nat) (y : Int) (st : InputState), n < 8192 ∧ s.eng.run = true ∧ loopIdle s n = false ∧ (s.loop n).slotBeat ≠ some s.tim.beat ∧ ((s.loop n).frozen = true ∨ loopHeld s n = true ∨ (inputOf s n y st).2 ≠ .fresh)) ∧
    (∃ (s : State) (n : Nat) (key : Nat) (y : Int) (st : InputState) (x : LoopSlot), n < 8192 ∧ s.eng.run = true ∧ loopIdle s n = false ∧ (s.loop n).slotBeat ≠ some s.tim.beat ∧ (s.loop n).frozen = false ∧ loopHeld s n = false ∧ (inputOf s n y st).2 = .fresh ∧ tapHolds s n = false ∧ key = loopKey n s.tim.beat ∧ x = (lawOf s n (sat16 (inputOf s n y st).1)).1) ∧
    (∃ (n : Nat), n < 8192) ∧
    (∃ (s : State) (w : BitVec 32), w.getLsbD 3 = true ∧ testBadSlot s = false ∧ testBusy s = false) ∧
    (∃ (s : State) (w : BitVec 32), w.getLsbD 3 = false ∧ w.getLsbD 4 = true ∧ s.eng.testActive = true) ∧
    (∃ (s : State), s.eng.capturing = true ∧ s.eng.count = 65536) :=
  ⟨⟨({} : State), 8191, by decide +kernel⟩,
   ⟨({eng := {run := true}} : State), 128, 5, (.missing : InputState), by decide +kernel⟩,
   ⟨({tim := {beat := 3}, eng := {run := true}, loops := [(167, {kp := 0x41000, outMax := 0x7FFF, outMin := 0x8000})]} : State), 167, (loopKey 167 3 : Nat), 500, (.fresh : InputState), ((lawOf {tim := {beat := 3}, eng := {run := true}, loops := [(167, {kp := 0x41000, outMax := 0x7FFF, outMin := 0x8000})]} 167 500).1 : LoopSlot), by decide +kernel⟩,
   ⟨8191, by decide +kernel⟩,
   ⟨({} : State), (0xFFFFFFEF : BitVec 32), by decide +kernel⟩,
   ⟨({eng := {testActive := true}} : State), (0xFFFFFFF7 : BitVec 32), by decide +kernel⟩,
   ⟨({eng := {capturing := true, count := 65536}} : State), by decide +kernel⟩⟩

/-- The hypotheses of `FreezeIsRefusedInServiceAndTimesOut` can be met, clause by clause. -/
theorem test_FreezeIsRefusedInServiceAndTimesOut_met :
    (∃ (s : State) (n : Nat), n < 8192 ∧ (slotKind s n = 1 ∨ slotKind s n = 2) ∧ bandInService s (slotField n s.tim.beat) (slotBand n) = true) ∧
    (∃ (s : State) (k : Nat) (c : Cmd) (n : Nat), Taken s k 0x0D03 c ∧ c.at 16 2 = n ∧ n < 8192 ∧ c.at 18 46 = 0 ∧ (slotKind s n = 1 ∨ slotKind s n = 2) ∧ bandInService s (slotField n s.tim.beat) (slotBand n) = true) ∧
    (∃ (s : State) (n : Nat), (s.loop n).frozen = true ∧ (s.loop n).freeze = true ∧ (s.loop n).frozenAt + 64 ≤ s.tim.beat) ∧
    (∃ (s : State) (n : Nat), (s.loop n).frozen = true ∧ (s.loop n).freeze = false) :=
  ⟨⟨({} : State), 64, by decide +kernel⟩,
   ⟨(sv (cm 0x0D03 [(16,2,64)] : Cmd) : State), 0, (cm 0x0D03 [(16,2,64)] : Cmd), 64, by unfold Taken; decide +kernel⟩,
   ⟨({tim := {beat := 64}, loops := [(5, {frozen := true, freeze := true})]} : State), 5, by decide +kernel⟩,
   ⟨({loops := [(5, {frozen := true, bumpless := true})]} : State), 5, by decide +kernel⟩⟩

/-- The hypotheses of `CalibrationPointIsKeptUntilTheHalt` can be met, clause by clause. -/
theorem test_CalibrationPointIsKeptUntilTheHalt_met :
    (∃ (s : State) (f : Nat) (b : Nat) (q : List PointEst) (l : List PointEst) (x : Band), s.band (8 * f + b) = x ∧ f < 32 ∧ b < 8 ∧ bandOut s (8 * f + b) = false ∧ s.cal.refvOk = true ∧ x.qg ≠ 1 ∧ x.proc ≠ 0 ∧ x.done = false ∧ fieldPaused s f = false ∧ 2 * runLength x.proc x.point ≤ x.symbols ∧ answers (pointKeys f b x.proc x.point (calColours s f)) q = some l ∧ (l.map (fun p => p.key)).Nodup ∧ l.find? (pairFails s x.proc x.point l) = none ∧ ¬(x.proc = 1 ∧ x.point = 4) ∧ x.point ≠ lastPoint x.proc ∧ (∀ p, p ∈ l → (x.proc = 2 ∧ 257 ≤ x.point ∧ x.point < 514) ∨ 14 ≤ p.key % 16 ∨ calInRange s p.key (calMean p.first p.second) = true)) ∧
    (∃ (s : State) (f : Nat) (b : Nat) (q : List PointEst) (l : List PointEst) (x : Band), s.band (8 * f + b) = x ∧ f < 32 ∧ b < 8 ∧ bandOut s (8 * f + b) = false ∧ s.cal.refvOk = true ∧ x.qg ≠ 1 ∧ x.proc ≠ 0 ∧ x.done = false ∧ fieldPaused s f = false ∧ 2 * runLength x.proc x.point ≤ x.symbols ∧ answers (pointKeys f b x.proc x.point (calColours s f)) q = some l ∧ l.find? (pairFails s x.proc x.point l) = none ∧ ¬(x.proc = 1 ∧ x.point = 4) ∧ x.point = lastPoint x.proc ∧ (∀ p, p ∈ l → 14 ≤ p.key % 16 ∨ calInRange s p.key (calMean p.first p.second) = true) ∧ (∀ v, v ∈ procValues s f b x.proc (x.pend ++ l.map (fun p => (p.key, calMean p.first p.second))) → calInRange s v.1 v.2 = true)) ∧
    (∃ (s : State) (f : Nat) (b : Nat) (q : List PointEst) (l : List PointEst) (p : PointEst) (x : Band), s.band (8 * f + b) = x ∧ f < 32 ∧ b < 8 ∧ bandOut s (8 * f + b) = false ∧ s.cal.refvOk = true ∧ x.qg ≠ 1 ∧ x.proc ≠ 0 ∧ x.done = false ∧ fieldPaused s f = false ∧ 2 * runLength x.proc x.point ≤ x.symbols ∧ answers (pointKeys f b x.proc x.point (calColours s f)) q = some l ∧ l.find? (pairFails s x.proc x.point l) = some p) ∧
    (∃ (s : State) (f : Nat) (b : Nat) (q : List PointEst) (l : List PointEst) (v : Nat × Int) (x : Band), s.band (8 * f + b) = x ∧ f < 32 ∧ b < 8 ∧ bandOut s (8 * f + b) = false ∧ s.cal.refvOk = true ∧ x.qg ≠ 1 ∧ x.proc = 1 ∧ x.point = 4 ∧ x.done = false ∧ fieldPaused s f = false ∧ 57344 ≤ x.symbols ∧ answers (pointKeys f b 1 4 (calColours s f)) q = some l ∧ l.find? (pairFails s 1 4 l) = none ∧ (l.map (fun p => (p.key, calMean p.first p.second))).find? (beyondCentre s x) = some v ∧ x.moves < 2) ∧
    (∃ (s : State) (f : Nat) (b : Nat) (q : List PointEst) (l : List PointEst) (x : Band), s.band (8 * f + b) = x ∧ f < 32 ∧ b < 8 ∧ bandOut s (8 * f + b) = false ∧ s.cal.refvOk = true ∧ x.qg = 1 ∧ 8192 ≤ x.qgSymbols ∧ answers (quickKeys f b x.qgPoint (calColours s f)) q = some l ∧ (∀ p, p ∈ l → calAgree p.key p.first p.second = true ∧ calInRange s p.key (calMean p.first p.second) = true)) ∧
    (∃ (s : State) (f : Nat) (b : Nat), (32 ≤ f ∨ 8 ≤ b ∨ bandOut s (8 * f + b) = true ∨ s.cal.refvOk = false ∨ ((s.band (8 * f + b)).qg ≠ 1 ∧ ((s.band (8 * f + b)).proc = 0 ∨ (s.band (8 * f + b)).done = true)))) ∧
    (∃ (s : State) (k : Nat) (i : Nat) (len : Nat) (start : Nat) (x : Band), s.band i = x ∧ len = runLength x.proc x.point ∧ start = runStart x.symbols len ∧ start + len ≤ x.symbols + k ∧ x.voids < 15) ∧
    (∃ (s : State) (k : Nat) (i : Nat) (len : Nat) (start : Nat) (x : Band), s.band i = x ∧ len = runLength x.proc x.point ∧ start = runStart x.symbols len ∧ start + len ≤ x.symbols + k ∧ 15 ≤ x.voids) ∧
    (∃ (s : State) (i : Nat) (len : Nat) (start : Nat) (x : Band), s.band i = x ∧ len = runLength x.proc x.point ∧ start = runStart x.symbols len ∧ x.marred = false ∧ beatMarred s (i / 8) = false) :=
  ⟨⟨({bands := [(10, {proc := 2, point := 3, symbols := 4096, repeats := 2})]} : State), 1, 2, ((pointKeys 1 2 2 3 []).map (fun k => { key := k, first := calEff {} k, second := calEff {} k }) : List PointEst), ((pointKeys 1 2 2 3 []).map (fun k => { key := k, first := calEff {} k, second := calEff {} k }) : List PointEst), ({proc := 2, point := 3, symbols := 4096, repeats := 2} : Band), by decide +kernel⟩,
   ⟨({fields := [(1, {colours := 8})], bands := [(10, {proc := 3, point := 255, symbols := 8704})]} : State), 1, 2, ((pointKeys 1 2 3 255 [3]).map (fun k => { key := k, first := 10 * (k / 16 % 17 : Nat), second := 10 * (k / 16 % 17 : Nat) + 2 }) : List PointEst), ((pointKeys 1 2 3 255 [3]).map (fun k => { key := k, first := 10 * (k / 16 % 17 : Nat), second := 10 * (k / 16 % 17 : Nat) + 2 }) : List PointEst), ({proc := 3, point := 255, symbols := 8704} : Band), by decide +kernel⟩,
   ⟨({fields := [(1, {colours := 8})], bands := [(10, {proc := 1, symbols := 8192, repeats := 3})]} : State), 1, 2, ((pointKeys 1 2 1 0 [3]).map (fun k => { key := k, first := 0, second := 1000000 }) : List PointEst), ((pointKeys 1 2 1 0 [3]).map (fun k => { key := k, first := 0, second := 1000000 }) : List PointEst), ({ key := kOffset 1 64 3 0, first := 0, second := 1000000 } : PointEst), ({proc := 1, symbols := 8192, repeats := 3} : Band), by decide +kernel⟩,
   ⟨({fields := [(1, {colours := 8})], bands := [(10, {proc := 1, point := 4, symbols := 57344})]} : State), 1, 2, ([{ key := kLo 1 2 3, first := 500, second := 500 }] : List PointEst), ([{ key := kLo 1 2 3, first := 500, second := 500 }] : List PointEst), ((kLo 1 2 3, 500) : Nat × Int), ({proc := 1, point := 4, symbols := 57344} : Band), by decide +kernel⟩,
   ⟨({fields := [(1, {colours := 8})], bands := [(10, {qg := 1, qgSymbols := 8192, qgPoint := 3})]} : State), 1, 2, ((quickKeys 1 2 3 [3]).map (fun k => { key := k, first := calEff {} k, second := calEff {} k }) : List PointEst), ((quickKeys 1 2 3 [3]).map (fun k => { key := k, first := calEff {} k, second := calEff {} k }) : List PointEst), ({qg := 1, qgSymbols := 8192, qgPoint := 3} : Band), by decide +kernel⟩,
   ⟨({} : State), 32, 0, by decide +kernel⟩,
   ⟨({bands := [(9, {proc := 1, symbols := 4090, voids := 3})]} : State), 6, 9, 4096, 0, ({proc := 1, symbols := 4090, voids := 3} : Band), by decide +kernel⟩,
   ⟨({bands := [(9, {proc := 1, symbols := 4090, voids := 15})]} : State), 6, 9, 4096, 0, ({proc := 1, symbols := 4090, voids := 15} : Band), by decide +kernel⟩,
   ⟨({bands := [(9, {proc := 2, point := 3, symbols := 2047})]} : State), 9, 2048, 0, ({proc := 2, point := 3, symbols := 2047} : Band), by decide +kernel⟩⟩

/-- The hypotheses of `CalibrationIsScheduledAndCommanded` can be met, clause by clause. -/
theorem test_CalibrationIsScheduledAndCommanded_met :
    (∃ (s : State) (p : Nat) (b : Nat) (deep : Bool), p < s.net.parts ∧ s.cal.scheduled.getLsbD p = false ∧ s.cal.refvOk = true ∧ tget 0 s.cal.cadAt p + 1000000 ≤ s.tim.beat ∧ tget 0 s.cal.cadNext p = b ∧ deep = decide (tget 0 s.cal.deepAt p + 225000000 ≤ s.tim.beat)) ∧
    (∃ (s : State) (k : Nat) (c : Cmd), Taken s k 0x0402 c ∧ 1 ≤ c.at 16 1 ∧ c.at 16 1 ≤ 7 ∧ c.at 17 3 = 0 ∧ c.at 20 4 ≠ 0 ∧ c.at 24 1 ≠ 0 ∧ c.at 25 39 = 0 ∧ (∀ f, f ∈ maskList 32 (c.at 20 4) → (s.field f).fenced = false) ∧ (∀ i, i ∈ namedBands (c.at 20 4) (c.at 24 1) → bandOut s i = false) ∧ maskResetting s (c.at 20 4) = false ∧ s.cal.refvOk = true ∧ s.tim.admits = true ∧ s.pwr.state = 0 ∧ (∀ j, j ∈ calJobs s (c.at 16 1) (c.at 20 4) (c.at 24 1) → bandBusy (s.band j.1) = false ∧ (s.field (j.1 / 8)).kaCheck = none ∧ (s.band j.1).cmd = none)) ∧
    (∃ (s : State) (k : Nat) (c : Cmd) (p : Nat), Taken s k 0x0403 c ∧ c.at 16 1 = p ∧ p < 4 ∧ p < s.net.parts ∧ c.at 17 1 ≤ 1 ∧ c.at 18 46 = 0 ∧ resetting s p = false) ∧
    (∃ (s : State) (k : Nat) (c : Cmd), (Taken s k 0x0404 c ∧ c.at 16 1 ≤ 2 ∧ (c.at 16 1 = 2 → licensed s 0 = true) ∧ (colourSet s (c.at 16 1)).isSome = true ∧ c.at 17 1 ≤ 3 ∧ c.at 18 2 = 0 ∧ c.at 20 4 ≠ 0 ∧ c.at 24 40 = 0 ∧ 128 * (maskList 32 (c.at 20 4)).length * (kaColours s c).length ≤ 64 * c.extLen ∧ maskResetting s (c.at 20 4) = false ∧ s.cal.refvOk = true ∧ s.tim.admits = true ∧ s.pwr.state = 0) ∧ (∀ f, f ∈ maskList 32 (c.at 20 4) → (s.field f).fenced = false ∧ (s.field f).kaCheck = none ∧ ∀ b, b < 8 → bandBusy (s.band (8 * f + b)) = false)) ∧
    (∃ (s : State) (k : Nat) (c : Cmd), (cmdOf s k = some c ∧ c.opcode = 0x0404 ∧ c.started = true ∧ c.decided = false) ∧ (∀ f, f ∈ maskList 32 (c.at 20 4) → 9 ≤ (s.field f).kaStage)) ∧
    (∃ (s : State) (k : Nat) (f : Nat) (c : Cmd), cmdOf s k = some c ∧ c.opcode = 0x0404 ∧ c.started = true ∧ c.decided = false ∧ f ∈ maskList 32 (c.at 20 4) ∧ (s.field f).kaStage < 9) ∧
    (∃ (s : State) (k : Nat) (c : Cmd), Taken s k 0x0405 c ∧ c.at 16 48 = 0 ∧ (s.bands.any (fun e => e.2.proc != 0 || !e.2.queue.isEmpty || e.2.qg != 0) || s.fields.any (fun e => e.2.kaCheck.isSome)) = false) ∧
    (∃ (s : State) (k : Nat) (c : Cmd), Taken s k 0x0406 c ∧ c.at 16 4 ≠ 0 ∧ c.at 20 1 ≠ 0 ∧ c.at 21 43 = 0 ∧ maskResetting s (c.at 16 4) = false ∧ (∀ f, f ∈ maskList 32 (c.at 16 4) → (s.field f).fenced = false) ∧ (∀ i, i ∈ namedBands (c.at 16 4) (c.at 20 1) → bandOut s i = false ∧ (s.band i).proc = 0 ∧ (s.band i).queue = [] ∧ (s.band i).test = false ∧ (s.field (i / 8)).kaCheck = none)) ∧
    (∃ (s : State) (k : Nat) (c : Cmd), Taken s k 0x0407 c ∧ c.at 16 4 ≠ 0 ∧ c.at 20 1 ≠ 0 ∧ c.at 21 43 = 0 ∧ maskResetting s (c.at 16 4) = false ∧ (∀ i, i ∈ namedBands (c.at 16 4) (c.at 20 1) → (s.band i).hold = true)) :=
  ⟨⟨({tim := {beat := 225000000}, cal := {cadNext := [(0, 7)]}, fields := [(3, {lit := true})]} : State), 0, 7, (true : Bool), by decide +kernel⟩,
   ⟨(sv (cm 0x0402 [(16,1,7),(20,4,5),(24,1,1)] : Cmd) {tim := {admits := true}} : State), 0, (cm 0x0402 [(16,1,7),(20,4,5),(24,1,1)] : Cmd), by unfold Taken; decide +kernel⟩,
   ⟨(sv (cm 0x0403 [(17,1,1)] : Cmd) : State), 0, (cm 0x0403 [(17,1,1)] : Cmd), 0, by unfold Taken; decide +kernel⟩,
   ⟨(sv (cm 0x0404 [(17,1,3),(20,4,0x80000000)] 2 : Cmd) {tim := {admits := true}} : State), 0, (cm 0x0404 [(17,1,3),(20,4,0x80000000)] 2 : Cmd), by unfold Taken; decide +kernel, by intro f hf; have e : f = 31 := (by simpa [show maskList 32 ((cm 0x0404 [(17,1,3),(20,4,0x80000000)] 2).at 20 4) = [31] by decide +kernel] using hf); subst e; decide +kernel⟩,
   ⟨({ cmds := [({ cm 0x0404 [(20,4,1)] with started := true } : Cmd)], fields := [(0, {kaCheck := some 0, kaStage := 9})] } : State), 0, ({ cm 0x0404 [(20,4,1)] with started := true } : Cmd), by decide +kernel, by intro f hf; have e : f = 0 := (by simpa [show maskList 32 (({ cm 0x0404 [(20,4,1)] with started := true } : Cmd).at 20 4) = [0] by decide +kernel] using hf); subst e; decide +kernel⟩,
   ⟨({ cmds := [({ cm 0x0404 [(20,4,1)] with started := true } : Cmd)], fields := [(0, {kaCheck := some 0, kaStage := 3})] } : State), 0, 0, ({ cm 0x0404 [(20,4,1)] with started := true } : Cmd), by decide +kernel⟩,
   ⟨(sv (cm 0x0405 [] : Cmd) {bands := [(3, {bandAt := some 4})], fields := [(2, {rowAt := some 1})]} : State), 0, (cm 0x0405 [] : Cmd), by unfold Taken; decide +kernel⟩,
   ⟨(sv (cm 0x0406 [(16,4,3),(20,1,0x80)] : Cmd) : State), 0, (cm 0x0406 [(16,4,3),(20,1,0x80)] : Cmd), by unfold Taken; decide +kernel⟩,
   ⟨(sv (cm 0x0407 [(16,4,3),(20,1,0x80)] : Cmd) {bands := [(7, {hold := true}), (15, {hold := true})]} : State), 0, (cm 0x0407 [(16,4,3),(20,1,0x80)] : Cmd), by unfold Taken; decide +kernel⟩⟩

/-- The hypotheses of `RetireEndsTheOpAndStoresItsWord` can be met, clause by clause. -/
theorem test_RetireEndsTheOpAndStoresItsWord_met :
    (∃ (s : State) (k : Nat) (o : Op), opOf s k = some o ∧ s.flt.deviceError = false) ∧
    (∃ (s : State), s.flt.deviceError = true) ∧
    (∃ (s : State) (k : Nat) (o : Op) (i : Nat), opOf s k = some o ∧ s.flt.deviceError = false ∧ s.errs = [] ∧ s.flt.disabling = [] ∧ (∀ j, j < 16 → noStore s (o.cpl + j) = false) ∧ held s o.cpl 16 = false ∧ i < 16) :=
  ⟨⟨(iss (dop 0x31 [(12,2,0x8005)] : Op) : State), 0, (dop 0x31 [(12,2,0x8005)] : Op), by decide +kernel⟩,
   ⟨({ iss (dop 0x31 []) with flt := {deviceError := true} } : State), by decide +kernel⟩,
   ⟨(iss ({ dop 0x31 [] with cpl := 0x7F0040014000, abortCmds := [0] } : Op) {cmds := [cm 0x0602 []]} : State), 0, ({ dop 0x31 [] with cpl := 0x7F0040014000, abortCmds := [0] } : Op), 4, by decide +kernel⟩⟩

/-- The hypotheses of `SequencerOpsWaitAndRetire` can be met, clause by clause. -/
theorem test_SequencerOpsWaitAndRetire_met :
    (∃ (s : State) (k : Nat) (o : Op) (i : Instr), opOf s k = some o ∧ waitsMet s o = false ∧ i ∈ [Instr.wait k, .signal k, .nop k, .fence k, .accDrain k, .accSave k, .accRestore k, .vecKernel k, .quantScale k, .move k, .moveReduce k, .tollgate k, .fieldGemm k]) ∧
    (∃ (s : State) (k : Nat) (o : Op), opOf s k = some o ∧ o.code = 0x3F ∧ o.stage = 1 ∧ o.copying = false ∧ o.abortAt = none ∧ admitting s (o.part s) = true ∧ waitsMet s o = true ∧ upstream s o = true) ∧
    (∃ (s : State) (k : Nat) (o : Op) (q : Op) (i : Instr), opOf s k = some o ∧ upstream s o = false ∧ q ∈ s.ops ∧ q.key ≠ o.key ∧ q.part s = o.part s ∧ unitClass o.code ≠ 0 ∧ unitClass q.code = unitClass o.code ∧ admissible s q = true ∧ unitsFree s q = true ∧ servedBefore s q o = true ∧ i ∈ [Instr.accDrain k, .vecKernel k, .quantScale k, .fieldGemm k]) ∧
    (∃ (s : State) (k : Nat) (o : Op), Admissible s k 0x31 o) ∧
    (∃ (s : State) (k : Nat) (o : Op), Admissible s k 0x32 o) ∧
    (∃ (s : State) (k : Nat) (o : Op), Admissible s k 0x3F o) ∧
    (∃ (s : State) (k : Nat) (o : Op), Admissible s k 0x30 o ∧ fenceMet s o = true) ∧
    (∃ (s : State) (k : Nat) (o : Op), Admissible s k 0x30 o ∧ fenceMet s o = false) ∧
    (∃ (s : State) (k : Nat) (o : Op), opOf s k = some o ∧ o.abortAt = none ∧ o.code = 0x30 ∧ o.stage = 2 ∧ fenceMet s o = true) ∧
    (∃ (s : State) (k : Nat) (o : Op), opOf s k = some o ∧ o.abortAt = none ∧ o.stage = 3 ∧ o.code ∉ [0x33, 0x30, 0x11] ∧ (o.code = 0x01 → evaluated s o = true)) ∧
    (∃ (s : State) (k : Nat) (o : Op), opOf s k = some o ∧ o.abortAt = none ∧ o.stage = 3 ∧ o.code = 0x11 ∧ held s (o.dn 44 6) 128 = false) ∧
    (∃ (s : State) (k : Nat) (o : Op), opOf s k = some o ∧ (o.abortAt.isSome = true ∨ (o.code ∉ [0x33, 0x30] ∧ o.stage ≠ 3) ∨ (o.code = 0x30 ∧ fenceMet s o = false))) :=
  ⟨⟨(iss (dop 1 [(4,2,0x8005),(6,2,1)] : Op) : State), 0, (dop 1 [(4,2,0x8005),(6,2,1)] : Op), (.fieldGemm 0 : Instr), by decide +kernel⟩,
   ⟨(iss (dop 0x3F [(4,2,0x8005),(6,2,1)] : Op) {tokens := [(5, {abort := true, count := 1})]} : State), 0, (dop 0x3F [(4,2,0x8005),(6,2,1)] : Op), by decide +kernel⟩,
   ⟨({ops := [({ dop 0x11 [] with stage := 1 } : Op), ({ dop 0x11 [] with stage := 1, key := 7, stream := 1 } : Op)], tim := {admits := true}, streams := [(1, {prio := 1})]} : State), 0, ({ dop 0x11 [] with stage := 1 } : Op), ({ dop 0x11 [] with stage := 1, key := 7, stream := 1 } : Op), (.quantScale 0 : Instr), by decide +kernel⟩,
   ⟨(iss (dop 0x31 [(4,2,0x8005),(6,2,1),(12,2,0x8FFF)] : Op) {tokens := [(5, {count := 1})]} : State), 0, (dop 0x31 [(4,2,0x8005),(6,2,1),(12,2,0x8FFF)] : Op), by unfold Admissible; decide +kernel⟩,
   ⟨(iss (dop 0x32 [(12,2,0x8FFF),(16,2,4)] : Op) : State), 0, (dop 0x32 [(12,2,0x8FFF),(16,2,4)] : Op), by unfold Admissible; decide +kernel⟩,
   ⟨(iss (dop 0x3F [] : Op) : State), 0, (dop 0x3F [] : Op), by unfold Admissible; decide +kernel⟩,
   ⟨(iss (dop 0x30 [(16,1,3)] : Op) : State), 0, (dop 0x30 [(16,1,3)] : Op), by unfold Admissible; decide +kernel⟩,
   ⟨({ iss (dop 0x30 [(16,1,3)] : Op) with seq := {remoteUnacked := [(0, 0, 0, 0)]} } : State), 0, (dop 0x30 [(16,1,3)] : Op), by unfold Admissible; decide +kernel⟩,
   ⟨(iss ({ dop 0x30 [] with stage := 2 } : Op) : State), 0, ({ dop 0x30 [] with stage := 2 } : Op), by decide +kernel⟩,
   ⟨({ iss ({ dop 1 [] with stage := 3, sliceBeat := some 4, evalBeat := 5 } : Op) with tim := {beat := 6} } : State), 0, ({ dop 1 [] with stage := 3, sliceBeat := some 4, evalBeat := 5 } : Op), by decide +kernel⟩,
   ⟨(iss ({ dop 0x11 [(44,6,0x7F0040014000)] with stage := 3, push := [1, 2, 0, 0, 1, 1] } : Op) : State), 0, ({ dop 0x11 [(44,6,0x7F0040014000)] with stage := 3, push := [1, 2, 0, 0, 1, 1] } : Op), by decide +kernel⟩,
   ⟨(iss ({ dop 0x31 [] with stage := 2 } : Op) : State), 0, ({ dop 0x31 [] with stage := 2 } : Op), by decide +kernel⟩⟩

/-- The hypotheses of `DescriptorIssues` can be met, clause by clause. -/
theorem test_DescriptorIssues_met :
    (∃ (s : State) (st : Nat) (u : Submission), (streamOps s st).find? (fun o => o.stage == 0) = none ∧ mayIssue s st = true ∧ (s.stream st).subs.find? (fun u => decide (u.next < u.count)) = some u ∧ s.errs = [] ∧ held s (u.addr + 64 * u.next) 64 = false ∧ anyBad s (u.addr + 64 * u.next) 64 = false ∧ opOf s s.seq.nextKey = none ∧ firstFailing (takeNext st u s) (nextOp st u s) = none ∧ unlicensedOp (takeNext st u s) (nextOp st u s) = false ∧ ((nextOp st u s).code ≠ 0x01 ∨ (nextOp st u s).wsrc ≠ 0)) ∧
    (∃ (s : State) (st : Nat) (u : Submission) (d : Nat), (streamOps s st).find? (fun o => o.stage == 0) = none ∧ mayIssue s st = true ∧ (s.stream st).subs.find? (fun u => decide (u.next < u.count)) = some u ∧ s.errs = [] ∧ held s (u.addr + 64 * u.next) 64 = false ∧ anyBad s (u.addr + 64 * u.next) 64 = false ∧ opOf s s.seq.nextKey = none ∧ firstFailing (takeNext st u s) (nextOp st u s) = some d) ∧
    (∃ (s : State) (st : Nat) (o : Op), (streamOps s st).find? (fun o => o.stage == 0) = some o ∧ s.flt.deviceError = false ∧ opOf s o.key = some o ∧ handleValid s o.whandle = true ∧ (s.dirEntry (handleIdx o.whandle)).part = o.part s ∧ (s.dirEntry (handleIdx o.whandle)).swap ≠ 3 ∧ (s.dirEntry (handleIdx o.whandle)).spilled = false) ∧
    (∃ (s : State) (st : Nat), (streamOps s st).find? (fun o => o.stage == 0) = none ∧ mayIssue s st = false) ∧
    (∃ (s : State) (st : Nat) (u : Submission), (streamOps s st).find? (fun o => o.stage == 0) = none ∧ (s.stream st).subs.find? (fun u => decide (u.next < u.count)) = some u ∧ held s (u.addr + 64 * u.next) 64 = true) :=
  ⟨⟨({mem := lay 0x7F0040014000 [0x3F], streams := [(63, {subs := [({addr := 0x7F0040014000, count := 1} : Submission)]})]} : State), 63, ({addr := 0x7F0040014000, count := 1} : Submission), by decide +kernel⟩,
   ⟨({mem := lay 0x7F0040014040 [0x3E], streams := [(63, {subs := [({addr := 0x7F0040014000, count := 2, next := 1} : Submission)]})]} : State), 63, ({addr := 0x7F0040014000, count := 2, next := 1} : Submission), 0, by decide +kernel⟩,
   ⟨(iss ({ dop 1 [(32,4,5)] with stage := 0 } : Op) {dir := [(5, {valid := true, epoch := 3, holders := 1, swap := 2})]} : State), 0, ({ dop 1 [(32,4,5)] with stage := 0 } : Op), by decide +kernel⟩,
   ⟨({ops := [dop 0x30 []], streams := [(0, {subs := [{count := 2}]})]} : State), 0, by decide +kernel⟩,
   ⟨({streams := [(63, {subs := [({addr := 0x400000, count := 1} : Submission)]})], memTop := {windows := [(0, [3])]}, units := [(3, {state := 2})]} : State), 63, ({addr := 0x400000, count := 1} : Submission), by decide +kernel⟩⟩

/-- The hypotheses of `FieldGemmIsAdmittedAndLoadersPass` can be met, clause by clause. -/
theorem test_FieldGemmIsAdmittedAndLoadersPass_met :
    (∃ (s : State) (k : Nat) (o : Op) (mode : Nat) (cols : List Nat) (m : RowMap), s.pwr.state = 0 ∧ s.pwr.next = none ∧ Admissible s k 0x01 o ∧ o.isAdd = false ∧ modeRun s (bits (o.dn 16 2) 3 2) = some (mode, cols) ∧ m = mapFor s o (shapeRunOf s (o.part s) (bits (o.dn 16 2) 0 3)) mode cols ∧ m.cStep ≠ 0 ∧ ¬ (o.wsrc = 2 ∧ m.cStep < o.nLen) ∧ m.firstRow + m.rows ≤ 2048 ∧ ((dropMaps m.part m.firstRow m.rows s).rowMaps.filter (fun x => x.part == m.part)).length < 64 ∧ fieldsReady s k (groupsOf m.shapeRun (m.roots s)) = true ∧ o.loadHeld s m = false) ∧
    (∃ (s : State) (k : Nat) (o : Op) (m : RowMap), s.pwr.state = 0 ∧ s.pwr.next = none ∧ Admissible s k 0x01 o ∧ o.isAdd = true ∧ addMap s o = some m ∧ addDiffers o m = none ∧ (o.wsrc = 0 → o.epoch = m.epoch) ∧ m.colours.any (colourOff s) = false ∧ passOver s { o with entries := (listOf s o).map (captOf s), map := some m } m = false ∧ fieldsReady s k (groupsOf m.shapeRun (m.roots s)) = true ∧ o.loadHeld s m = false) ∧
    (∃ (s : State) (k : Nat) (o : Op), s.pwr.state = 0 ∧ s.pwr.next = none ∧ Admissible s k 0x01 o ∧ o.mlist.2 = 0 ∧ o.isAdd = false ∧ modeRun s (bits (o.dn 16 2) 3 2) = none) ∧
    (∃ (s : State) (k : Nat) (o : Op), s.pwr.state = 0 ∧ s.pwr.next = none ∧ Admissible s k 0x01 o ∧ o.mlist.2 = 0 ∧ o.isAdd = true ∧ addMap s o = none) ∧
    (∃ (s : State), (s.pwr.state ≠ 0 ∨ s.pwr.next ≠ none)) ∧
    (∃ (s : State) (k : Nat) (f : Nat) (o : Op) (p : GPos), opOf s k = some o ∧ o.code = 0x01 ∧ o.stage = 2 ∧ o.abortAt = none ∧ f < 32 ∧ o.posOf s f = some p ∧ p.done = false ∧ loaderFree s f = true ∧ (s.field f).loader ≠ some k) ∧
    (∃ (s : State) (f : Nat), loaderFree s f = false) :=
  ⟨⟨(iss (dop 1 [(16,2,0x100),(20,2,1),(24,4,1),(28,4,1),(48,6,0x7F0040014000)] : Op) {mem := lay 0x7F0040014000 [0x80, 0x3F]} : State), 0, (dop 1 [(16,2,0x100),(20,2,1),(24,4,1),(28,4,1),(48,6,0x7F0040014000)] : Op), 0, ([0] : List Nat), (mapFor (iss (dop 1 [(16,2,0x100),(20,2,1),(24,4,1),(28,4,1),(48,6,0x7F0040014000)] : Op) {mem := lay 0x7F0040014000 [0x80, 0x3F]} : State) (dop 1 [(16,2,0x100),(20,2,1),(24,4,1),(28,4,1),(48,6,0x7F0040014000)] : Op) 0 0 [0] : RowMap), by unfold Admissible; decide +kernel⟩,
   ⟨(iss (dop 1 [(16,2,0x180),(20,2,1),(24,4,1),(28,4,32),(48,6,0x7F0040014000)] : Op) {rowMaps := [({ rm0 with wsrc := 1 } : RowMap)]} : State), 0, (dop 1 [(16,2,0x180),(20,2,1),(24,4,1),(28,4,32),(48,6,0x7F0040014000)] : Op), ({ rm0 with wsrc := 1 } : RowMap), by unfold Admissible; decide +kernel⟩,
   ⟨(iss (dop 1 [] : Op) {light := {disabled := 0xF}} : State), 0, (dop 1 [] : Op), by unfold Admissible; decide +kernel⟩,
   ⟨(iss (dop 1 [(16,2,0x80)] : Op) : State), 0, (dop 1 [(16,2,0x80)] : Op), by unfold Admissible; decide +kernel⟩,
   ⟨({pwr := {next := some 1}} : State), by decide +kernel⟩,
   ⟨(iss ({ dop 1 [] with stage := 2, pos := [{root := 3}] } : Op) {fields := [(3, {bufFull := true})]} : State), 0, 3, ({ dop 1 [] with stage := 2, pos := [{root := 3}] } : Op), ({root := 3} : GPos), by decide +kernel⟩,
   ⟨(iss { dop 1 [] with stage := 2, pos := [{root := 3}] } {fields := [(3, {loader := some 0})]} : State), 3, by decide +kernel⟩⟩

/-- The hypotheses of `DrainAndSaveWaitForTheirTreeFence` can be met, clause by clause. -/
theorem test_DrainAndSaveWaitForTheirTreeFence_met :
    (∃ (s : State) (k : Nat) (o : Op) (cl : List (Nat × Nat × Nat)), Admissible s k 0x03 o ∧ noCores s (o.part s) = false ∧ (∀ r, r ∈ o.rowRange → (mapOf (mapsOver s (o.part s) (o.dn 18 2) (o.dn 20 2)) r).isSome = true) ∧ clustersFor s (o.part s) (drainRoots s o (mapsOver s (o.part s) (o.dn 18 2) (o.dn 20 2))) = some cl ∧ (∀ x, x ∈ o.segs s (mapsOver s (o.part s) (o.dn 18 2) (o.dn 20 2)) → noWrite s (o.part s) (o.segAddr x) (x.cnt * o.outBytes) = false)) ∧
    (∃ (s : State) (k : Nat) (o : Op) (r : Nat), Admissible s k 0x03 o ∧ noCores s (o.part s) = false ∧ r ∈ o.rowRange ∧ mapOf (mapsOver s (o.part s) (o.dn 18 2) (o.dn 20 2)) r = none) ∧
    (∃ (s : State) (k : Nat) (o : Op), Admissible s k 0x04 o ∧ o.dn 40 6 = 0) ∧
    (∃ (s : State) (k : Nat) (o : Op), opOf s k = some o ∧ o.stage = 4 ∧ o.abortAt = none ∧ s.flt.deviceError = false ∧ fencePasses s o = true ∧ heldAny s (o.passRanges s) = false ∧ o.code = 0x03) ∧
    (∃ (s : State) (k : Nat) (i : Nat) (o : Op), (opOf s k = some o ∧ o.stage = 4 ∧ o.abortAt = none ∧ s.flt.deviceError = false ∧ fencePasses s o = true ∧ heldAny s (o.passRanges s) = false ∧ o.code = 0x04 ∧ s.errs = [] ∧ o.dn 34 6 = 0 ∧ o.dn 40 6 = 0 ∧ i < ((selected (o.dn 24 4)).map (fun f => (o.rowRange.map (rowImage s f)).flatten)).flatten.length) ∧ (∀ j, j ≤ i → noStore s (o.dn 28 6 + j) = false)) ∧
    (∃ (s : State) (k : Nat) (o : Op), opOf s k = some o ∧ (o.stage ≠ 4 ∨ fencePasses s o = false ∨ heldAny s (o.passRanges s) = true)) :=
  ⟨⟨(iss (dop 3 [(20,2,1),(24,6,0x7F0040014000)] : Op) {rowMaps := [rm0], cores := [(0, {verified := true})]} : State), 0, (dop 3 [(20,2,1),(24,6,0x7F0040014000)] : Op), ([(0, 0, 0)] : List (Nat × Nat × Nat)), by unfold Admissible; decide +kernel⟩,
   ⟨(iss (dop 3 [(20,2,2)] : Op) {rowMaps := [rm0], cores := [(0, {verified := true})]} : State), 0, (dop 3 [(20,2,2)] : Op), 1, by unfold Admissible; decide +kernel⟩,
   ⟨(iss (dop 4 [] : Op) : State), 0, (dop 4 [] : Op), by unfold Admissible; decide +kernel⟩,
   ⟨(iss ({ dop 3 [(20,2,1),(24,6,0x7F0040014000)] with stage := 4, maps := [rm0], clusters := [(0, 0, 0)] } : Op) {rowMaps := [rm0]} : State), 0, ({ dop 3 [(20,2,1),(24,6,0x7F0040014000)] with stage := 4, maps := [rm0], clusters := [(0, 0, 0)] } : Op), by decide +kernel⟩,
   ⟨(iss ({ dop 4 [(20,2,1),(24,4,1),(28,6,0x7F0040014000)] with stage := 4 } : Op) {acc := [(1023, {val := 5, P := true})]} : State), 0, 4607, ({ dop 4 [(20,2,1),(24,4,1),(28,6,0x7F0040014000)] with stage := 4 } : Op), by decide +kernel, by intro j hj; exact noStore_core _ _ (Nat.le_trans (by decide +kernel) (Nat.le_add_right _ _)) (Nat.lt_of_le_of_lt (Nat.add_le_add_left hj _) (by decide +kernel)) rfl (by decide +kernel)⟩,
   ⟨(iss ({ dop 4 [] with stage := 3 } : Op) : State), 0, ({ dop 4 [] with stage := 3 } : Op), by decide +kernel⟩⟩

/-- The hypotheses of `AccRestoreTakesTheImage` can be met, clause by clause. -/
theorem test_AccRestoreTakesTheImage_met :
    (∃ (s : State) (f : Nat) (row : Nat) (j : Nat), j < 1024 ∧ -(2 ^ 31) ≤ (s.accCell ((f * 2048 + row) * 1024 + j)).val ∧ (s.accCell ((f * 2048 + row) * 1024 + j)).val < 2 ^ 31) ∧
    (∃ (s : State) (k : Nat) (o : Op), Admissible s k 0x05 o ∧ o.dn 46 2 = 0 ∧ s.errs = [] ∧ heldAny s (o.restoreRanges s) = false ∧ ((dropMaps (o.part s) (o.dn 22 2) (o.dn 20 2) s).rowMaps.filter (fun m => m.part == o.part s)).length ≤ 64 ∧ o.dn 22 2 + o.dn 20 2 ≤ 2048) ∧
    (∃ (s : State) (k : Nat) (o : Op), Admissible s k 0x05 o ∧ heldAny s (o.restoreRanges s) = true) :=
  ⟨⟨({acc := [((31 * 2048 + 2047) * 1024 + 1023, {val := -2147483648, P := true})]} : State), 31, 2047, 1023, by decide +kernel⟩,
   ⟨(iss (dop 5 [(20,2,1),(22,2,2047),(24,4,1),(28,6,0x7F0040014000)] : Op) {rowMaps := [rm0], mem := lay 0x7F0040014000 [5]} : State), 0, (dop 5 [(20,2,1),(22,2,2047),(24,4,1),(28,6,0x7F0040014000)] : Op), by unfold Admissible; decide +kernel⟩,
   ⟨(iss (dop 5 [(20,2,1),(22,2,2047),(24,4,1),(28,6,0x400000)] : Op) {memTop := {windows := [(0, [3])]}, units := [(3, {state := 2})]} : State), 0, (dop 5 [(20,2,1),(22,2,2047),(24,4,1),(28,6,0x400000)] : Op), by unfold Admissible; decide +kernel⟩⟩

/-- The hypotheses of `VecKernelLaunches` can be met, clause by clause. -/
theorem test_VecKernelLaunches_met :
    (∃ (s : State) (k : Nat) (o : Op) (s' : State), Admissible s k 0x10 o ∧ s.errs = [] ∧ canLaunch s o = true ∧ heldAny s (o.launchRanges s) = false ∧ launchCores s o ≠ [] ∧ 0x10000 ≤ o.dn 16 6 ∧ s' = modOp k (fun x => { x with cores := launchCores s o }) (nameEntries k o (setAdmitted k s)) ∧ packageOk s' (o.part s') (o.dn 16 6) (launchCores s o).length = true) ∧
    (∃ (s : State) (k : Nat) (o : Op), Admissible s k 0x10 o ∧ canLaunch s o = true ∧ heldAny s (o.launchRanges s) = false ∧ launchCores s o = []) ∧
    (∃ (s : State) (k : Nat) (o : Op), Admissible s k 0x10 o ∧ (canLaunch s o = false ∨ heldAny s (o.launchRanges s) = true)) :=
  ⟨⟨(iss (dop 0x10 [(16,6,0x7F0040014000),(24,4,1),(28,1,1)] : Op) {cores := [(0, {verified := true})], mem := lay 0x7F0040014000 (pay 64 [(0,4,0x50554B55),(4,2,1),(8,4,4),(20,4,1),(24,4,0x48674BC7)])} : State), 0, (dop 0x10 [(16,6,0x7F0040014000),(24,4,1),(28,1,1)] : Op), (modOp 0 (fun x => { x with cores := launchCores (iss (dop 0x10 [(16,6,0x7F0040014000),(24,4,1),(28,1,1)] : Op) {cores := [(0, {verified := true})], mem := lay 0x7F0040014000 (pay 64 [(0,4,0x50554B55),(4,2,1),(8,4,4),(20,4,1),(24,4,0x48674BC7)])} : State) (dop 0x10 [(16,6,0x7F0040014000),(24,4,1),(28,1,1)] : Op) }) (nameEntries 0 (dop 0x10 [(16,6,0x7F0040014000),(24,4,1),(28,1,1)] : Op) (setAdmitted 0 (iss (dop 0x10 [(16,6,0x7F0040014000),(24,4,1),(28,1,1)] : Op) {cores := [(0, {verified := true})], mem := lay 0x7F0040014000 (pay 64 [(0,4,0x50554B55),(4,2,1),(8,4,4),(20,4,1),(24,4,0x48674BC7)])} : State))) : State), by unfold Admissible; decide +kernel⟩,
   ⟨(iss (dop 0x10 [(28,1,1)] : Op) : State), 0, (dop 0x10 [(28,1,1)] : Op), by unfold Admissible; decide +kernel⟩,
   ⟨(iss (dop 0x10 [(24,4,1),(28,1,1)] : Op) {cores := [(0, {verified := true, launch := some 3})]} : State), 0, (dop 0x10 [(24,4,1),(28,1,1)] : Op), by unfold Admissible; decide +kernel⟩⟩

/-- The hypotheses of `KernelsWriteAndEnd` can be met, clause by clause. -/
theorem test_KernelsWriteAndEnd_met :
    (∃ (s : State) (c : Nat) (o : Op), runningOp s c = some o ∧ (s.coreOf c).usesBarrier = true ∧ (s.coreOf c).stalled = false ∧ o.cores = [c]) ∧
    (∃ (s : State) (c : Nat) (d : Nat) (o : Op), runningOp s c = some o ∧ (s.coreOf c).usesBarrier = true ∧ (s.coreOf c).stalled = false ∧ c ∈ o.cores ∧ d ∈ o.cores ∧ (s.coreOf d).barrier ≤ (s.coreOf c).barrier ∧ d ≠ c) ∧
    (∃ (s : State) (c : Nat) (o : Op), runningOp s c = some o ∧ (s.coreOf c).stalled = false) ∧
    (∃ (s : State) (c : Nat) (off : Nat) (i : Nat) (o : Op) (l : List (BitVec 8)), runningOp s c = some o ∧ (s.coreOf c).stalled = false ∧ s.errs = [] ∧ 0x14000 ≤ off ∧ off + l.length ≤ 0x40000 ∧ opsRo s (coreBase c + off) l.length = false ∧ (∀ j, j < l.length → noStore s (coreBase c + off + j) = false) ∧ i < l.length) ∧
    (∃ (s : State) (c : Nat) (ch : Nat) (src : Nat) (dst : Nat) (len : Nat) (i : Nat) (o : Op), runningOp s c = some o ∧ ch < 4 ∧ 0 < len ∧ len ≤ 1048576 ∧ heldAny s [(src, len), (dst, len)] = false ∧ s.errs = [] ∧ noRead s (partOfField s (c / 64)) src len = false ∧ noWrite s (partOfField s (c / 64)) dst len = false ∧ (∀ j, j < len → noStore s (dst + j) = false) ∧ i < len) ∧
    (∃ (s : State) (c : Nat) (ch : Nat) (src : Nat) (dst : Nat) (len : Nat) (o : Op), runningOp s c = some o ∧ ch < 4 ∧ 0 < len ∧ len ≤ 1048576 ∧ heldAny s [(src, len), (dst, len)] = false ∧ noRead s (partOfField s (c / 64)) src len = true) ∧
    (∃ (s : State) (c : Nat) (ch : Nat) (src : Nat) (dst : Nat) (len : Nat) (i : Nat), runningOp s c = none ∧ (s.coreOf c).dmaLeft.getLsbD ch = true ∧ ch < 4 ∧ 0 < len ∧ len ≤ 1048576 ∧ heldAny s [(src, len), (dst, len)] = false ∧ s.errs = [] ∧ noRead s (partOfField s (c / 64)) src len = false ∧ noWrite s (partOfField s (c / 64)) dst len = false ∧ (∀ j, j < len → noStore s (dst + j) = false) ∧ i < len) ∧
    (∃ (s : State) (src : Nat) (dst : Nat) (len : Nat), heldAny s [(src, len), (dst, len)] = true) ∧
    (∃ (s : State) (c : Nat) (o : Op), runningOp s c = some o ∧ (s.coreOf c).stalled = false ∧ o.cores = [c]) ∧
    (∃ (s : State) (c : Nat) (d : Nat) (o : Op), runningOp s c = some o ∧ (s.coreOf c).stalled = false ∧ o.stage = 2 ∧ d ∈ o.cores ∧ d ≠ c) ∧
    (∃ (s : State) (c : Nat) (cause : Nat) (o : Op), runningOp s c = some o ∧ (s.coreOf c).stalled = false ∧ (cause = 1 ∨ cause = 2)) ∧
    (∃ (s : State) (c : Nat) (o : Op), runningOp s c = some o ∧ (s.coreOf c).started + 1000 * s.stw.watchdogMs ≤ s.tim.beat) ∧
    (∃ (s : State) (c : Nat) (o : Op), runningOp s c = some o ∧ s.tim.beat < (s.coreOf c).started + 1000 * s.stw.watchdogMs) ∧
    (∃ (s : State) (c : Nat) (o : Op) (x : CoreAccess) (t : Nat × Nat), runningOp s c = some o ∧ (s.coreOf c).stalled = false ∧ accessTrap s c x = some t) :=
  ⟨⟨(iss ({ dop 0x10 [] with stage := 2, cores := [5] } : Op) {cores := [(5, {state := 1, launch := some 0, usesBarrier := true})]} : State), 5, ({ dop 0x10 [] with stage := 2, cores := [5] } : Op), by decide +kernel⟩,
   ⟨(iss ({ dop 0x10 [] with stage := 2, cores := [5, 7] } : Op) {cores := [(5, {state := 1, launch := some 0, usesBarrier := true})]} : State), 5, 7, ({ dop 0x10 [] with stage := 2, cores := [5, 7] } : Op), by decide +kernel⟩,
   ⟨(iss ({ dop 0x10 [] with stage := 2, cores := [5] } : Op) {cores := [(5, {state := 1, launch := some 0})]} : State), 5, ({ dop 0x10 [] with stage := 2, cores := [5] } : Op), by decide +kernel⟩,
   ⟨(iss ({ dop 0x10 [] with stage := 2, cores := [5] } : Op) {cores := [(5, {state := 1, launch := some 0})]} : State), 5, 0x14003, 2, ({ dop 0x10 [] with stage := 2, cores := [5] } : Op), ([1, 2, 3] : List (BitVec 8)), by decide +kernel⟩,
   ⟨(iss ({ dop 0x10 [] with stage := 2, cores := [5] } : Op) {cores := [(5, {state := 1, launch := some 0})], mem := lay 0x7F0040014000 [1, 2, 3, 4, 5, 6, 7, 8]} : State), 5, 3, (0x7F0040014000 : Nat), (0x7F0040014005 : Nat), 7, 6, ({ dop 0x10 [] with stage := 2, cores := [5] } : Op), by decide +kernel⟩,
   ⟨(iss ({ dop 0x10 [] with stage := 2, cores := [5] } : Op) {cores := [(5, {state := 1, launch := some 0})]} : State), 5, 3, (0x7F0060000000 : Nat), (0x7F0040014005 : Nat), 7, ({ dop 0x10 [] with stage := 2, cores := [5] } : Op), by decide +kernel⟩,
   ⟨({cores := [(5, {dmaLeft := 8})], mem := lay 0x7F0040014000 [1, 2, 3, 4, 5, 6, 7, 8]} : State), 5, 3, (0x7F0040014000 : Nat), (0x7F0040014005 : Nat), 7, 6, by decide +kernel⟩,
   ⟨(iss ({ dop 0x10 [] with stage := 2, cores := [5] }) {cores := [(5, {state := 1, launch := some 0})], memTop := {windows := [(0, [3])]}, units := [(3, {state := 2})]} : State), (0x7F0040014000 : Nat), 0x400000, 7, by decide +kernel⟩,
   ⟨(iss ({ dop 0x10 [] with stage := 2, cores := [5] } : Op) {cores := [(5, {state := 1, launch := some 0})]} : State), 5, ({ dop 0x10 [] with stage := 2, cores := [5] } : Op), by decide +kernel⟩,
   ⟨(iss ({ dop 0x10 [] with stage := 2, cores := [5, 7] } : Op) {cores := [(5, {state := 1, launch := some 0}), (7, {state := 1, launch := some 0})]} : State), 5, 7, ({ dop 0x10 [] with stage := 2, cores := [5, 7] } : Op), by decide +kernel⟩,
   ⟨(iss ({ dop 0x10 [] with stage := 2, cores := [5, 7] } : Op) {cores := [(5, {state := 1, launch := some 0}), (7, {state := 1, launch := some 0})]} : State), 5, 2, ({ dop 0x10 [] with stage := 2, cores := [5, 7] } : Op), by decide +kernel⟩,
   ⟨(iss ({ dop 0x10 [] with stage := 2, cores := [5, 7] } : Op) {tim := {beat := 100000}, cores := [(5, {state := 1, launch := some 0}), (7, {state := 1, launch := some 0})]} : State), 5, ({ dop 0x10 [] with stage := 2, cores := [5, 7] } : Op), by decide +kernel⟩,
   ⟨(iss ({ dop 0x10 [] with stage := 2, cores := [5, 7] } : Op) {tim := {beat := 99999}, cores := [(5, {state := 1, launch := some 0}), (7, {state := 1, launch := some 0})]} : State), 5, ({ dop 0x10 [] with stage := 2, cores := [5, 7] } : Op), by decide +kernel⟩,
   ⟨(iss ({ dop 0x10 [] with stage := 2, cores := [5] } : Op) {cores := [(5, {state := 1, launch := some 0})]} : State), 5, ({ dop 0x10 [] with stage := 2, cores := [5] } : Op), ({ pc := 0, off := 0x3FFFF, len := 4 } : CoreAccess), ((2, 0) : Nat × Nat), by decide +kernel⟩⟩

/-- The hypotheses of `QuantScaleAndMovesAct` can be met, clause by clause. -/
theorem test_QuantScaleAndMovesAct_met :
    (∃ (s : State) (k : Nat) (a : Nat) (o : Op), Admissible s k 0x11 o ∧ s.errs = [] ∧ heldAny s o.quantRanges = false ∧ (s.field ((selected (o.dn 40 4)).headD 0)).quantBusy = 0 ∧ anyBad s (o.dn 44 6) 128 = false ∧ (Tracker.ofBytes (rdBytes s (o.dn 44 6) 128)).valid = true ∧ (∀ f, f ∈ selected (o.dn 40 4) → 8 ≤ o.dn 36 3 ∧ (a < feedAddr f (o.dn 36 3 - 8) ∨ feedAddr f (o.dn 36 3) + o.dn 28 2 * (256 * ((o.dn 32 4 + 255) / 256)) ≤ a))) ∧
    (∃ (s : State) (k : Nat) (o : Op), Admissible s k 0x11 o ∧ s.errs = [] ∧ heldAny s o.quantRanges = false ∧ (s.field ((selected (o.dn 40 4)).headD 0)).quantBusy = 0 ∧ anyBad s (o.dn 44 6) 128 = false ∧ (Tracker.ofBytes (rdBytes s (o.dn 44 6) 128)).valid = false) ∧
    (∃ (s : State) (k : Nat) (o : Op), Admissible s k 0x11 o ∧ ((s.field ((selected (o.dn 40 4)).headD 0)).quantBusy ≠ 0 ∨ heldAny s o.quantRanges = true)) ∧
    (∃ (s : State) (k : Nat) (i : Nat) (o : Op), Admissible s k 0x20 o ∧ heldAny s o.moveRanges = false ∧ o.leaves = false ∧ s.errs = [] ∧ i < o.len ∧ (∀ j, j < o.len → noStore s (o.dst + j) = false)) ∧
    (∃ (s : State) (k : Nat) (o : Op), Admissible s k 0x20 o ∧ heldAny s o.moveRanges = false ∧ o.leaves = true ∧ s.errs = []) ∧
    (∃ (s : State) (k : Nat) (o : Op), Admissible s k 0x21 o ∧ heldAny s o.moveRanges = false ∧ o.leaves = false ∧ s.errs = []) ∧
    (∃ (s : State) (k : Nat) (o : Op), Admissible s k 0x21 o ∧ heldAny s o.moveRanges = false ∧ o.leaves = true ∧ s.errs = []) ∧
    (∃ (s : State) (k : Nat) (o : Op), Admissible s k 0x20 o ∧ heldAny s o.moveRanges = true) ∧
    (∃ (s : State) (k : Nat) (o : Op), Admissible s k 0x21 o ∧ heldAny s o.moveRanges = true) :=
  ⟨⟨(iss (dop 0x11 [(16,6,0x7F0040015000),(28,2,1),(32,4,1),(36,3,64),(40,4,1),(44,6,0x7F0040014000)] : Op) {mem := lay 0x7F0040014000 (pay 128 [(0,4,0x3F800000),(4,1,4)])} : State), 0, 0, (dop 0x11 [(16,6,0x7F0040015000),(28,2,1),(32,4,1),(36,3,64),(40,4,1),(44,6,0x7F0040014000)] : Op), by unfold Admissible; decide +kernel⟩,
   ⟨(iss (dop 0x11 [(16,6,0x7F0040015000),(28,2,1),(32,4,1),(36,3,64),(40,4,1),(44,6,0x7F0040014000)] : Op) : State), 0, (dop 0x11 [(16,6,0x7F0040015000),(28,2,1),(32,4,1),(36,3,64),(40,4,1),(44,6,0x7F0040014000)] : Op), by unfold Admissible; decide +kernel⟩,
   ⟨(iss (dop 0x11 [(40,4,2)] : Op) {fields := [(1, {quantBusy := 15})]} : State), 0, (dop 0x11 [(40,4,2)] : Op), by unfold Admissible; decide +kernel⟩,
   ⟨(iss (dop 0x20 [(16,6,0x7F0040014000),(24,6,0x7F0040014003),(32,4,7)] : Op) {mem := lay 0x7F0040014000 [1, 2, 3, 4, 5, 6, 7, 8]} : State), 0, 6, (dop 0x20 [(16,6,0x7F0040014000),(24,6,0x7F0040014003),(32,4,7)] : Op), by unfold Admissible; decide +kernel⟩,
   ⟨(iss (dop 0x20 [(16,6,0x7F0040014000),(24,6,0x7F0040014003),(32,4,8190),(36,2,0x4005)] : Op) : State), 0, (dop 0x20 [(16,6,0x7F0040014000),(24,6,0x7F0040014003),(32,4,8190),(36,2,0x4005)] : Op), by unfold Admissible; decide +kernel⟩,
   ⟨(iss (dop 0x21 [(16,6,0x7F0040014000),(24,6,0x7F0040014004),(32,4,8)] : Op) : State), 0, (dop 0x21 [(16,6,0x7F0040014000),(24,6,0x7F0040014004),(32,4,8)] : Op), by unfold Admissible; decide +kernel⟩,
   ⟨(iss (dop 0x21 [(16,6,0x7F0040014000),(24,6,0x7F0040014004),(32,4,8),(36,2,0x4005)] : Op) : State), 0, (dop 0x21 [(16,6,0x7F0040014000),(24,6,0x7F0040014004),(32,4,8),(36,2,0x4005)] : Op), by unfold Admissible; decide +kernel⟩,
   ⟨(iss (dop 0x20 [(16,6,0x7F0040014000),(24,6,0x400003),(32,4,7)] : Op) {memTop := {windows := [(0, [3])]}, units := [(3, {state := 2})]} : State), 0, (dop 0x20 [(16,6,0x7F0040014000),(24,6,0x400003),(32,4,7)] : Op), by unfold Admissible; decide +kernel⟩,
   ⟨(iss (dop 0x21 [(16,6,0x400000),(24,6,0x7F0040014000),(32,4,8)] : Op) {memTop := {windows := [(0, [3])]}, units := [(3, {state := 2})]} : State), 0, (dop 0x21 [(16,6,0x400000),(24,6,0x7F0040014000),(32,4,8)] : Op), by unfold Admissible; decide +kernel⟩⟩

/-- The hypotheses of `TollGatesAndSwapsAct` can be met, clause by clause. -/
theorem test_TollGatesAndSwapsAct_met :
    (∃ (s : State) (k : Nat) (o : Op), Admissible s k 0x33 o ∧ o.mlist.2 = 0 ∧ handleValid s o.gHandle = true ∧ (s.dirEntry (handleIdx o.gHandle)).part = o.part s ∧ (s.swapOf (o.part s)).epoch ≠ o.gEpoch ∧ o.gEpoch ≤ (s.dirEntry (handleIdx o.gHandle)).epoch) ∧
    (∃ (s : State) (k : Nat) (o : Op), Admissible s k 0x33 o ∧ handleValid s o.gHandle = true ∧ (s.dirEntry (handleIdx o.gHandle)).part = o.part s ∧ listOf s o ≠ [] ∧ (∀ i, i ∈ listOf s o → (s.entry i).epoch = o.gEpoch ∧ (s.entry i).state < 2) ∧ (s.dirEntry (handleIdx o.gHandle)).epoch < o.gEpoch ∧ (s.dirEntry (handleIdx o.gHandle)).swap ≠ 0 ∧ (s.dirEntry (handleIdx o.gHandle)).nextEpoch = o.gEpoch ∧ (s.swapOf (o.part s)).epoch = o.gEpoch ∧ (s.swapOf (o.part s)).armed = false) ∧
    (∃ (s : State) (k : Nat) (o : Op), Admissible s k 0x33 o ∧ handleValid s o.gHandle = false ∧ o.mlist.2 = 0) ∧
    (∃ (s : State) (k : Nat) (o : Op), opOf s k = some o ∧ o.abortAt = none ∧ gateOpen s o = true) ∧
    (∃ (s : State) (p : Nat) (i : Nat), (s.swapOf p).armed = true ∧ (s.swapOf p).rewriting = none ∧ s.flt.deviceError = false ∧ resetting s p = false ∧ nextLayer s p = some i) ∧
    (∃ (s : State) (p : Nat) (i : Nat) (j : Nat), nextLayer s p = some i ∧ j ∈ layersOf s p ∧ (s.dirEntry j).swap = 2 ∧ (s.dirEntry j).holders = 0 ∧ reachable s p (s.dirEntry j).order = false) ∧
    (∃ (s : State) (p : Nat) (i : Nat), (s.swapOf p).rewriting = some i ∧ heldAny s [((s.dirEntry i).nextScalePtr, 4 * (s.dirEntry i).n), ((s.dirEntry i).scalePtr, 4 * (s.dirEntry i).n), ((s.dirEntry i).nextPtr, codeBytes (s.dirEntry i).k (s.dirEntry i).n), ((s.dirEntry i).ptr, codeBytes (s.dirEntry i).k (s.dirEntry i).n)] = false) ∧
    (∃ (s : State) (p : Nat), (s.swapOf p).armed = true ∧ (s.swapOf p).policy = 0 ∧ (s.swapOf p).timedOut = false ∧ (s.swapOf p).armedAt + 1000 * (s.swapOf p).timeout ≤ s.tim.beat ∧ oldRequests s p ≠ []) ∧
    (∃ (s : State) (a : Nat) (h : Nat) (e : Nat) (src : Nat) (i : Nat), (s.wts.hotBusy.find? (fun x => x.1 == a) = some (a, h, e, src) ∧ s.errs = [] ∧ heldAny s [(src, codeBytes (s.dirEntry (handleIdx h)).k (s.dirEntry (handleIdx h)).n), (a, codeBytes (s.dirEntry (handleIdx h)).k (s.dirEntry (handleIdx h)).n)] = false ∧ i < codeBytes (s.dirEntry (handleIdx h)).k (s.dirEntry (handleIdx h)).n) ∧ (∀ j, j < codeBytes (s.dirEntry (handleIdx h)).k (s.dirEntry (handleIdx h)).n → noStore s (a + j) = false)) :=
  ⟨⟨(iss (dop 0x33 [(16,4,2),(20,4,5)] : Op) {dir := [(5, {valid := true, epoch := 2})]} : State), 0, (dop 0x33 [(16,4,2),(20,4,5)] : Op), by unfold Admissible; decide +kernel⟩,
   ⟨(iss (dop 0x33 [(16,4,2),(20,4,5),(24,1,1),(28,6,0x7F0040014000),(34,2,1)] : Op) {mem := lay 0x7F0040014000 [7], manifest := [(7, {valid := true, epoch := 2})], dir := [(5, {valid := true, epoch := 1, swap := 1, nextEpoch := 2})], swaps := [(0, {epoch := 2})]} : State), 0, (dop 0x33 [(16,4,2),(20,4,5),(24,1,1),(28,6,0x7F0040014000),(34,2,1)] : Op), by unfold Admissible; decide +kernel⟩,
   ⟨(iss (dop 0x33 [(16,4,2),(20,4,5)] : Op) : State), 0, (dop 0x33 [(16,4,2),(20,4,5)] : Op), by unfold Admissible; decide +kernel⟩,
   ⟨(iss ({ dop 0x33 [(16,4,2),(20,4,5)] with stage := 2 } : Op) {dir := [(5, {valid := true, epoch := 2})]} : State), 0, ({ dop 0x33 [(16,4,2),(20,4,5)] with stage := 2 } : Op), by decide +kernel⟩,
   ⟨({swaps := [(0, {armed := true})], dir := [(5, {valid := true, swap := 2})]} : State), 0, 5, by decide +kernel⟩,
   ⟨({dir := [(5, {valid := true, swap := 2, order := 2}), (6, {valid := true, swap := 2, order := 1})]} : State), 0, 6, 5, by decide +kernel⟩,
   ⟨({swaps := [(0, {armed := true, rewriting := some 5, epoch := 4, handles := [5]})], dir := [(5, {valid := true, swap := 3, nextEpoch := 4})]} : State), 0, 5, by decide +kernel⟩,
   ⟨({tim := {beat := 1000}, swaps := [(0, {armed := true, trackE := 2, timeout := 1})], manifest := [(7, {valid := true, epoch := 1})]} : State), 0, by decide +kernel⟩,
   ⟨({wts := {hotBusy := [(0x7F0040040000, (5, 1, 0x7F0040080000))]}, dir := [(5, {k := 1, n := 1})], mem := lay 0x7F004008FFFF [9]} : State), (0x7F0040040000 : Nat), 5, 1, (0x7F0040080000 : Nat), 65535, by decide +kernel, by intro j hj; exact noStore_core _ _ (by omega) (Nat.lt_of_lt_of_le (Nat.add_lt_add_left hj _) (by decide +kernel)) rfl (by decide +kernel)⟩⟩

/-- The hypotheses of `ModelLoadCommandsRun` can be met, clause by clause. -/
theorem test_ModelLoadCommandsRun_met :
    (∃ (s : State) (k : Nat) (i : Nat) (c : Cmd), (Taken s k 0x0501 c ∧ orElse (loadBeginChecks s c) = none ∧ i < 4 ∧ (s.ctx (4 * c.at 102 1 + i)).open_ = false) ∧ (∀ j, j < i → (s.ctx (4 * c.at 102 1 + j)).open_ = true)) ∧
    (∃ (s : State) (k : Nat) (c : Cmd), Taken s k 0x0502 c ∧ orElse (loadChunkChecks s c) = none) ∧
    (∃ (s : State) (k : Nat) (c : Cmd), cmdOf s k = some c ∧ c.opcode = 0x0502 ∧ c.started = true ∧ c.decided = false ∧ (s.ctx (c.at 16 1)).busy = true ∧ heldAny s ((s.ctx (c.at 16 1)).moved c) = false) ∧
    (∃ (s : State) (k : Nat) (i : Nat) (j : Nat) (c : Cmd), Taken s k 0x0503 c ∧ c.at 16 1 = i ∧ i < 16 ∧ (s.ctx i).open_ = true ∧ c.at 17 47 = 0 ∧ resetting s (i / 4) = false ∧ (s.ctx i).busy = false ∧ (s.ctx i).failed = false ∧ (s.ctx i).delivered = true ∧ (s.ctx i).handle = 0 ∧ (s.ctx i).target = 0 ∧ freeIndex s = some j ∧ inDdr (s.ctx i).dest = false) ∧
    (∃ (s : State) (k : Nat) (i : Nat) (c : Cmd), Taken s k 0x0503 c ∧ c.at 16 1 = i ∧ i < 16 ∧ (s.ctx i).open_ = true ∧ c.at 17 47 = 0 ∧ resetting s (i / 4) = false ∧ (s.ctx i).busy = false ∧ (s.ctx i).failed = true) :=
  ⟨⟨(sv (cm 0x0501 [] 1 (pay 64 [(8,4,1),(12,4,1),(20,4,1),(32,6,0x10000)]) : Cmd) {ctxs := [(0, {open_ := true})], regions := [(0, {set := true, len := 0x100000}), (1, {set := true, kind := 4, len := 0x100000})]} : State), 0, 1, (cm 0x0501 [] 1 (pay 64 [(8,4,1),(12,4,1),(20,4,1),(32,6,0x10000)]) : Cmd), by unfold Taken; decide +kernel, by decide +kernel⟩,
   ⟨(sv (cm 0x0502 [(16,1,15),(32,4,1)] : Cmd) {ctxs := [(15, {open_ := true, k := 1, n := 1, stageLen := 4})]} : State), 0, (cm 0x0502 [(16,1,15),(32,4,1)] : Cmd), by unfold Taken; decide +kernel⟩,
   ⟨({cmds := [({ cm 0x0502 [(16,1,15),(32,4,1)] with started := true } : Cmd)], ctxs := [(15, {open_ := true, k := 1, n := 1, stageLen := 4, busy := true})]} : State), 0, ({ cm 0x0502 [(16,1,15),(32,4,1)] with started := true } : Cmd), by decide +kernel⟩,
   ⟨(sv (cm 0x0503 [(16,1,3)] : Cmd) {ctxs := [(3, {open_ := true, k := 1, n := 1, ranges := [(0, 1)], dest := 65536, zeroCol := true})], dir := [(1, {valid := true}), (2, {gen := 9})]} : State), 0, 3, 2, (cm 0x0503 [(16,1,3)] : Cmd), by unfold Taken; decide +kernel⟩,
   ⟨(sv (cm 0x0503 [(16,1,3)] : Cmd) {ctxs := [(3, {open_ := true, failed := true})]} : State), 0, 3, (cm 0x0503 [(16,1,3)] : Cmd), by unfold Taken; decide +kernel⟩⟩

/-- The hypotheses of `DirectoryCommandsRun` can be met, clause by clause. -/
theorem test_DirectoryCommandsRun_met :
    (∃ (s : State) (k : Nat) (h : Nat) (c : Cmd), Taken s k 0x0504 c ∧ c.at 16 4 = h ∧ handleValid s h = true ∧ c.at 20 4 ≠ 0 ∧ c.at 24 6 % 65536 = 0 ∧ c.at 30 1 ≤ 3 ∧ c.at 31 1 = 0 ∧ c.at 32 6 % 64 = 0 ∧ c.at 38 2 = 0 ∧ (bit (c.at 30 1) 1 = false → c.at 40 6 = 0) ∧ c.at 46 18 = 0 ∧ resetting s (s.dirEntry (handleIdx h)).part = false ∧ (s.dirEntry (handleIdx h)).prevHolders = 0 ∧ (s.dirEntry (handleIdx h)).swap = 0 ∧ noCapacity s (s.dirEntry (handleIdx h)).part 0 (s.dirEntry (handleIdx h)).spilled (bit (c.at 30 1) 1) (c.at 24 6) (c.at 32 6) (s.dirEntry (handleIdx h)).k (s.dirEntry (handleIdx h)).n (c.at 40 6) = false) ∧
    (∃ (s : State) (k : Nat) (h : Nat) (c : Cmd), Taken s k 0x0506 c ∧ c.at 16 4 = h ∧ handleValid s h = true ∧ c.at 20 44 = 0 ∧ resetting s (s.dirEntry (handleIdx h)).part = false ∧ (s.dirEntry (handleIdx h)).holders = 0 ∧ (s.dirEntry (handleIdx h)).prevHolders = 0 ∧ (s.dirEntry (handleIdx h)).swap = 0) ∧
    (∃ (s : State) (k : Nat) (h : Nat) (e : Nat) (c : Cmd), Taken s k 0x0507 c ∧ c.at 16 4 = h ∧ handleValid s h = true ∧ c.at 20 4 = e ∧ e ≠ 0 ∧ stageEpochBad s (s.dirEntry (handleIdx h)).part e = false ∧ c.at 24 6 % 65536 = 0 ∧ stagePlaceBad s (s.dirEntry (handleIdx h)) (c.at 24 6) (codeBytes (s.dirEntry (handleIdx h)).k (s.dirEntry (handleIdx h)).n) = false ∧ c.at 32 6 % 64 = 0 ∧ stagePlaceBad s (s.dirEntry (handleIdx h)) (c.at 32 6) (4 * (s.dirEntry (handleIdx h)).n) = false ∧ c.at 38 1 ≤ 1 ∧ c.at 39 25 = 0 ∧ resetting s (s.dirEntry (handleIdx h)).part = false ∧ (s.dirEntry (handleIdx h)).swap = 0) ∧
    (∃ (s : State) (k : Nat) (p : Nat) (c : Cmd), Taken s k 0x0509 c ∧ c.at 16 1 = p ∧ p < 4 ∧ p < s.net.parts ∧ (s.swapOf p).epoch ≠ 0 ∧ c.at 17 47 = 0 ∧ resetting s p = false ∧ ((s.swapOf p).armed && (s.swapOf p).layersDone) = false ∧ (∀ o, o ∈ s.ops → k ∉ o.abortCmds) ∧ (∀ d, d ∈ s.flt.disabling → d.2.2.2.1 ≠ k)) ∧
    (∃ (s : State) (k : Nat) (h : Nat) (c : Cmd), Taken s k 0x050A c ∧ c.at 16 4 = h ∧ handleValid s h = true ∧ (s.dirEntry (handleIdx h)).spilled = true ∧ c.at 20 44 = 0 ∧ resetting s (s.dirEntry (handleIdx h)).part = false ∧ hotUsed s (s.dirEntry (handleIdx h)).hotStage h (s.dirEntry (handleIdx h)).epoch = false ∧ s.wts.hotBusy.any (fun x => x.1 == (s.dirEntry (handleIdx h)).hotStage) = false ∧ s.ops.any (fun o => o.copying && o.ptr == (s.dirEntry (handleIdx h)).hotStage) = false ∧ hotHolds s (s.dirEntry (handleIdx h)).hotStage h (s.dirEntry (handleIdx h)).epoch = false) :=
  ⟨⟨(sv (cm 0x0504 [(16,4,0x20005),(20,4,1),(24,6,0x10000),(30,1,1),(32,6,0x40)] : Cmd) {dir := [(5, {valid := true, gen := 2, k := 1, n := 1, holders := 3})], regions := [(0, {set := true, len := 0x100000})], ops := [{holds := some 5}]} : State), 0, 0x20005, (cm 0x0504 [(16,4,0x20005),(20,4,1),(24,6,0x10000),(30,1,1),(32,6,0x40)] : Cmd), by unfold Taken; decide +kernel⟩,
   ⟨(sv (cm 0x0506 [(16,4,0xFFFF0005)] : Cmd) {dir := [(5, {valid := true, gen := 0xFFFF})]} : State), 0, (0xFFFF0005 : Nat), (cm 0x0506 [(16,4,0xFFFF0005)] : Cmd), by unfold Taken; decide +kernel⟩,
   ⟨(sv (cm 0x0507 [(16,4,5),(20,4,2),(24,6,0x10000),(30,2,9),(32,6,0x40),(38,1,1)] : Cmd) {dir := [(5, {valid := true, k := 1, n := 1, epoch := 1})], regions := [(0, {set := true, kind := 4, len := 0x100000})]} : State), 0, 5, 2, (cm 0x0507 [(16,4,5),(20,4,2),(24,6,0x10000),(30,2,9),(32,6,0x40),(38,1,1)] : Cmd), by unfold Taken; decide +kernel⟩,
   ⟨(sv (cm 0x0509 [] : Cmd) (iss { dop 0x33 [(12,2,0x8001)] with stage := 2, key := 4, held := [7] } {swaps := [(0, {epoch := 2, armed := true, handles := [5]})], dir := [(5, {valid := true, swap := 2, nextPtr := 7})], manifest := [(7, {valid := true, state := 2})]}) : State), 0, 0, (cm 0x0509 [] : Cmd), by unfold Taken; decide +kernel⟩,
   ⟨(sv (cm 0x050A [(16,4,5)] : Cmd) {dir := [(5, {valid := true, spilled := true, hotStage := 65536, ptr := 0x400000000000})]} : State), 0, 5, (cm 0x050A [(16,4,5)] : Cmd), by unfold Taken; decide +kernel⟩⟩

/-- The hypotheses of `ExecAndManifestCommandsRun` can be met, clause by clause. -/
theorem test_ExecAndManifestCommandsRun_met :
    (∃ (s : State) (k : Nat) (st : Nat) (u : Nat) (c : Cmd), Taken s k 0x0601 c ∧ c.at 16 1 = st ∧ st < 64 ∧ c.at 17 7 = 0 ∧ c.at 24 6 % 64 = 0 ∧ locOf s (c.at 24 6) = .hbm (partOfStream s st) u ∧ c.at 30 2 = 0 ∧ 1 ≤ c.at 32 4 ∧ c.at 32 4 ≤ 65536 ∧ c.at 36 4 = 0 ∧ c.at 40 6 % 16 = 0 ∧ c.at 46 18 = 0 ∧ resetting s (partOfStream s st) = false ∧ (s.stream st).subs.length < 256) ∧
    (∃ (s : State) (k : Nat) (st : Nat) (c : Cmd), Taken s k 0x0602 c ∧ c.at 16 1 = st ∧ st < 64 ∧ c.at 17 1 = 1 ∧ c.at 20 44 = 0 ∧ resetting s (partOfStream s st) = false ∧ queuedOps s st = [] ∧ (∀ o, o ∈ streamOps s st → o.admitted = true) ∧ streamOps s st ≠ []) ∧
    (∃ (s : State) (k : Nat) (st : Nat) (tag : Nat) (c : Cmd), Taken s k 0x0602 c ∧ c.at 16 1 = st ∧ st < 64 ∧ c.at 17 1 = 0 ∧ c.at 18 2 = tag ∧ c.at 20 44 = 0 ∧ resetting s (partOfStream s st) = false ∧ (streamOps s st).filter (fun o => o.tag == tag) = [] ∧ (queuedOps s st).filter (fun q => queuedTag s st q == tag) = [] ∧ tag ∈ (s.stream st).tags ∧ abortHeld s k = false) ∧
    (∃ (s : State) (k : Nat) (p : Nat) (f : Nat) (n : Nat) (c : Cmd), Taken s k 0x0604 c ∧ c.at 16 1 = p ∧ p < 4 ∧ p < s.net.parts ∧ c.at 17 1 = 0 ∧ c.at 18 2 = f ∧ c.at 20 2 = n ∧ f < 4096 ∧ 1 ≤ n ∧ f + n ≤ 4096 ∧ 4 * n ≤ 64 * c.extLen ∧ c.at 22 42 = 0 ∧ resetting s p = false) ∧
    (∃ (s : State) (k : Nat) (p : Nat) (f : Nat) (n : Nat) (c : Cmd), Taken s k 0x0604 c ∧ c.at 16 1 = p ∧ p < 4 ∧ p < s.net.parts ∧ c.at 17 1 = 1 ∧ c.at 18 2 = f ∧ c.at 20 2 = n ∧ f < 4096 ∧ 1 ≤ n ∧ f + n ≤ 4096 ∧ c.at 22 42 = 0 ∧ resetting s p = false ∧ tokensNamed s p f n = false) ∧
    (∃ (s : State) (k : Nat) (st : Nat) (c : Cmd), Taken s k 0x0605 c ∧ c.at 16 1 = st ∧ st < 64 ∧ c.at 17 1 ≤ 3 ∧ c.at 18 46 = 0 ∧ resetting s (partOfStream s st) = false) ∧
    (∃ (s : State) (k : Nat) (i : Nat) (c : Cmd), Taken s k 0x0701 c ∧ c.at 16 2 = i ∧ beyondLicence s i 1 = false ∧ c.at 18 2 = 0 ∧ (s.swapOf (partOfEntry s i)).trackE ≤ c.at 20 4 ∧ c.at 48 4 ≤ c.at 52 4 ∧ resetting s (partOfEntry s i) = false ∧ (s.entry i).valid = false ∧ inRegion s (partOfEntry s i) 1 (c.at 32 6) (c.at 52 4 * c.at 44 4) = true ∧ inRegion s (partOfEntry s i) 1 (c.at 38 6) (c.at 52 4 * c.at 44 4) = true) ∧
    (∃ (s : State) (k : Nat) (i : Nat) (c : Cmd), Taken s k 0x0702 c ∧ c.at 16 2 = i ∧ beyondLicence s i 1 = false ∧ c.at 18 46 = 0 ∧ (s.entry i).valid = true ∧ resetting s (partOfEntry s i) = false) ∧
    (∃ (s : State) (k : Nat) (i : Nat) (c : Cmd), Taken s k 0x0703 c ∧ c.at 16 2 = i ∧ beyondLicence s i 1 = false ∧ c.at 18 46 = 0 ∧ (s.entry i).valid = true ∧ (s.entry i).state = 3 ∧ (s.entry i).inflight = 0 ∧ resetting s (partOfEntry s i) = false) ∧
    (∃ (s : State) (k : Nat) (i : Nat) (c : Cmd), Taken s k 0x0703 c ∧ c.at 16 2 = i ∧ beyondLicence s i 1 = false ∧ c.at 18 46 = 0 ∧ (s.entry i).valid = true ∧ (s.entry i).state = 3 ∧ (s.entry i).inflight ≠ 0 ∧ resetting s (partOfEntry s i) = false) ∧
    (∃ (s : State) (k : Nat) (i : Nat) (n : Nat) (c : Cmd), Taken s k 0x0704 c ∧ c.at 16 2 = i ∧ c.at 18 2 = n ∧ beyondLicence s i n = false ∧ 1 ≤ n ∧ n ≤ 255 ∧ i + n ≤ manifestSize s ∧ 64 * n ≤ 64 * c.extLen ∧ c.at 20 44 = 0 ∧ (∀ j, j < n → resetting s (partOfEntry s (i + j)) = false)) :=
  ⟨⟨(sv (cm 0x0601 [(16,1,63),(24,6,0x40),(32,4,65536),(40,6,0x1230)] : Cmd) {memTop := {windows := [(0, [3])]}} : State), 0, 63, 3, (cm 0x0601 [(16,1,63),(24,6,0x40),(32,4,65536),(40,6,0x1230)] : Cmd), by unfold Taken; decide +kernel⟩,
   ⟨(sv (cm 0x0602 [(17,1,1)] : Cmd) {ops := [{ dop 0x20 [] with stage := 2, key := 9 }, { dop 0x20 [] with stage := 3, key := 8 }, { dop 0x20 [] with stream := 1, key := 7 }]} : State), 0, 0, (cm 0x0602 [(17,1,1)] : Cmd), by unfold Taken; decide +kernel⟩,
   ⟨(sv (cm 0x0602 [(18,2,7)] : Cmd) {streams := [(0, {tags := [7, 8, 7]})]} : State), 0, 0, 7, (cm 0x0602 [(18,2,7)] : Cmd), by unfold Taken; decide +kernel⟩,
   ⟨(sv (cm 0x0604 [(18,2,4095),(20,2,1)] 1 : Cmd) {tokens := [(4095, {count := 5, abort := true})]} : State), 0, 0, 4095, 1, (cm 0x0604 [(18,2,4095),(20,2,1)] 1 : Cmd), by unfold Taken; decide +kernel⟩,
   ⟨(sv (cm 0x0604 [(17,1,1),(18,2,4095),(20,2,1)] : Cmd) {tokens := [(4094, {count := 4}), (4095, {count := 5, abort := true})]} : State), 0, 0, 4095, 1, (cm 0x0604 [(17,1,1),(18,2,4095),(20,2,1)] : Cmd), by unfold Taken; decide +kernel⟩,
   ⟨(sv (cm 0x0605 [(16,1,63),(17,1,3)] : Cmd) : State), 0, 63, (cm 0x0605 [(16,1,63),(17,1,3)] : Cmd), by unfold Taken; decide +kernel⟩,
   ⟨(sv (cm 0x0701 [(16,2,4095),(20,4,3),(24,8,77),(32,6,0x40),(38,6,0x1000),(44,4,64),(48,4,4),(52,4,4),(56,8,6)] : Cmd) {regions := [(0, {set := true, kind := 1, len := 0x10000})], swaps := [(0, {trackE := 3, trackCarry := true})]} : State), 0, 4095, (cm 0x0701 [(16,2,4095),(20,4,3),(24,8,77),(32,6,0x40),(38,6,0x1000),(44,4,64),(48,4,4),(52,4,4),(56,8,6)] : Cmd), by unfold Taken; decide +kernel⟩,
   ⟨(sv (cm 0x0702 [(16,2,9)] : Cmd) {manifest := [(9, {valid := true, inflight := 2})]} : State), 0, 9, (cm 0x0702 [(16,2,9)] : Cmd), by unfold Taken; decide +kernel⟩,
   ⟨(sv (cm 0x0703 [(16,2,9)] : Cmd) {manifest := [(9, {valid := true, state := 3})]} : State), 0, 9, (cm 0x0703 [(16,2,9)] : Cmd), by unfold Taken; decide +kernel⟩,
   ⟨(sv (cm 0x0703 [(16,2,9)] : Cmd) {manifest := [(9, {valid := true, state := 3, inflight := 1})]} : State), 0, 9, (cm 0x0703 [(16,2,9)] : Cmd), by unfold Taken; decide +kernel⟩,
   ⟨(sv (cm 0x0704 [(16,2,4094),(18,2,2)] 2 : Cmd) {manifest := [(4095, {valid := true, state := 3, inflight := 1})]} : State), 0, 4094, 2, (cm 0x0704 [(16,2,4094),(18,2,2)] 2 : Cmd), by unfold Taken; decide +kernel⟩⟩

/-- The hypotheses of `HostMemoryRequestsAct` can be met, clause by clause. -/
theorem test_HostMemoryRequestsAct_met :
    (∃ (s : State) (h : Nat) (a : Nat) (n : Nat), deviceAddr s h = some a ∧ (∀ m, m < 7 → (s.netLink m).switching = false) ∧ hostReq s false a n = .serve ∧ s.errs = []) ∧
    (∃ (s : State) (h : Nat) (a : Nat) (n : Nat), deviceAddr s h = some a ∧ (∀ m, m < 7 → (s.netLink m).switching = false) ∧ (hostReq s false a n = .unmapped ∨ hostReq s false a n = .resetting)) ∧
    (∃ (s : State) (h : Nat) (a : Nat) (i : Nat) (l : List (BitVec 8)), deviceAddr s h = some a ∧ (∀ m, m < 7 → (s.netLink m).switching = false) ∧ hostReq s true a l.length = .serve ∧ s.errs = [] ∧ (∀ j, j < l.length → noStore s (a + j) = false) ∧ i < l.length) ∧
    (∃ (s : State) (h : Nat) (a : Nat) (u : Nat) (l : List (BitVec 8)), deviceAddr s h = some a ∧ (∀ m, m < 7 → (s.netLink m).switching = false) ∧ hostReq s true a l.length = .held u) ∧
    (∃ (s : State) (h : Nat) (a : Nat) (l : List (BitVec 8)), deviceAddr s h = some a ∧ (∀ m, m < 7 → (s.netLink m).switching = false) ∧ hostReq s true a l.length = .unmapped) ∧
    (∃ (s : State) (h : Nat) (a : Nat) (n : Nat) (d : Nat) (l : List (Nat × Nat)), deviceAddr s h = some a ∧ dieHops 5 (locOf s a).die = (n, d) :: l ∧ (s.netLink n).switching = true) ∧
    (∃ (s : State) (h : Nat), deviceAddr s h = none) :=
  ⟨⟨({memTop := {decoders := 4, decBase := [(2, 0x100000000000)]}, mem := lay 0x7F0040014000 [1, 2, 3, 4, 5, 6], poison := [(0xFE008002801, true)]} : State), 0x100040014003, (0x7F0040014003 : Nat), 7, by decide +kernel⟩,
   ⟨({memTop := {decoders := 7}} : State), 0, 0, 9, by decide +kernel⟩,
   ⟨({memTop := {decoders := 4, decBase := [(2, 0x100000000000)]}, poison := [(0xFE008002800, true)]} : State), 0x100040014003, (0x7F0040014003 : Nat), 5, ([7, 8, 9, 10, 11, 12] : List (BitVec 8)), by decide +kernel⟩,
   ⟨({memTop := {decoders := 7, windows := [(0, [3])]}, units := [(3, {state := 2})]} : State), 5, 5, 3, ([7, 8] : List (BitVec 8)), by decide +kernel⟩,
   ⟨({memTop := {decoders := 7}} : State), 5, 5, ([7, 8] : List (BitVec 8)), by decide +kernel⟩,
   ⟨({memTop := {decoders := 7, windows := [(0, [3])]}, netLinks := [(5, {switching := true})]} : State), 5, 5, 5, 1, ([] : List (Nat × Nat)), by decide +kernel⟩,
   ⟨({} : State), 5, by decide +kernel⟩⟩

/-- The hypotheses of `MemoryControllerAndDieLinkRowsAct` can be met, clause by clause. -/
theorem test_MemoryControllerAndDieLinkRowsAct_met :
    (∃ (s : State) (u : Nat), s.memTop.scrubEn = true ∧ (s.unit u).state = 1 ∧ (s.unit u).zeroing = false ∧ (s.unit u).hold = false ∧ s.errs = []) ∧
    (∃ (s : State) (u : Nat), u < 28 ∧ s.memTop.ceRateLimit < (lastSecond s.tim.beat (s.unit u).ceWin).length ∧ ((s.unit u).state = 1 ∨ (s.unit u).state = 2) ∧ s.memTop.retrain ≠ some u) ∧
    (∃ (s : State) (u : Nat) (rest : List Nat), s.memTop.retrain = none ∧ s.memTop.queue = u :: rest ∧ (s.unit u).state ≠ 0 ∧ (s.unit u).zeroing = false) ∧
    (∃ (s : State) (u : Nat), s.memTop.retrain = some u) ∧
    (∃ (s : State) (u : Nat), s.memTop.retrain = some u ∧ recovering s u = false) ∧
    (∃ (s : State) (u : Nat), s.memTop.retrain = some u ∧ recovering s u = false ∧ u < 12) ∧
    (∃ (s : State) (u : Nat) (a : Nat), (s.unit u).zeroing = true ∧ (s.unit u).state ≠ 2 ∧ s.memTop.heldReqs = [] ∧ (locOf s a).unit = u) ∧
    (∃ (s : State) (n : Nat), n < 7 ∧ (s.netLink n).state = 1 ∧ (s.netLink n).switching = false ∧ s.net.fallbacks < 3) ∧
    (∃ (s : State) (n : Nat), n < 7 ∧ (s.netLink n).state = 1 ∧ (s.netLink n).switching = false ∧ 3 ≤ s.net.fallbacks) ∧
    (∃ (s : State) (n : Nat), (s.netLink n).switching = true ∧ (∀ i, i < 6 → s.netBuf (6 * n + i) = [])) ∧
    (∃ (s : State) (n : Nat) (p : NetPkt), ((s.netLink n).switching = true ∧ s.netBuf (6 * n + 1) = [p] ∧ p.cls ≠ 0) ∧ (∀ m, m ≠ n → (s.netLink m).switching = false) ∧ (∀ i, i < 6 → i ≠ 1 → s.netBuf (6 * n + i) = [])) ∧
    (∃ (s : State) (n : Nat), (s.netLink n).switching = false) :=
  ⟨⟨({units := [(3, {state := 1, scrubPos := 399999999})]} : State), 3, by decide +kernel⟩,
   ⟨({memTop := {ceRateLimit := 1}, units := [(27, {state := 1, ceWin := [0, 0]})]} : State), 27, by decide +kernel⟩,
   ⟨({memTop := {queue := [3, 4]}, units := [(3, {state := 1, queued := true})]} : State), 3, ([4] : List Nat), by decide +kernel⟩,
   ⟨({memTop := {queue := [4], retrain := some 3}} : State), 3, by decide +kernel⟩,
   ⟨({memTop := {retrain := some 3, windows := [(0, [3])], heldReqs := [(3, true, 5, [7]), (4, false, 5, [0])]}, units := [(3, {state := 2, hold := true})]} : State), 3, by decide +kernel⟩,
   ⟨({memTop := {retrain := some 11}, units := [(11, {state := 2})]} : State), 11, by decide +kernel⟩,
   ⟨({memTop := {windows := [(0, [3])]}, units := [(3, {zeroing := true})], mem := [(5, 9)], poison := [(0, true)]} : State), 3, 5, by decide +kernel⟩,
   ⟨({netLinks := [(6, {state := 1})], net := {fallbacks := 2}} : State), 6, by decide +kernel⟩,
   ⟨({netLinks := [(6, {state := 1})], net := {fallbacks := 3}} : State), 6, by decide +kernel⟩,
   ⟨({netLinks := [(6, {state := 1, switching := true})]} : State), 6, by decide +kernel⟩,
   ⟨({netLinks := [(6, {state := 1, switching := true})], netBufs := [(37, [{ src := 5, dst := 0, cls := 1, write := false, addr := 5, len := 2, data := [1, 2], poison := [true] }])]} : State), 6, ({ src := 5, dst := 0, cls := 1, write := false, addr := 5, len := 2, data := [1, 2], poison := [true] } : NetPkt), by decide +kernel, by intro m h; simp [State.netLink, tget, Ne.symm h], by intro i hi; revert i; decide +kernel⟩,
   ⟨({netLinks := [(6, {state := 1})]} : State), 6, by decide +kernel⟩⟩

/-- The hypotheses of `OneBitErrorIsCorrected` can be met, clause by clause. -/
theorem test_OneBitErrorIsCorrected_met :
    (∃ (i : Nat), i < 80) ∧
    (∃ (s : State) (w : Nat) (i : Nat), i < 80 ∧ (∀ f, locOf s (8 * w) ≠ .accv f)) :=
  ⟨⟨79, by decide +kernel⟩,
   ⟨({mem := lay 0x7F0040014000 [1, 2], poison := [(0xFE008002800, true)]} : State), (0xFE008002800 : Nat), 79, by decide +kernel, by intro f h; have e : locOf ({mem := lay 0x7F0040014000 [1, 2], poison := [(0xFE008002800, true)]} : State) (8 * 0xFE008002800) = .coreMem 0 := (by decide +kernel); rw [e] at h; cases h⟩⟩

/-- The hypotheses of `MemoryPartitionAndPowerCommandsRun` can be met, clause by clause. -/
theorem test_MemoryPartitionAndPowerCommandsRun_met :
    (∃ (s : State) (k : Nat) (u : Nat) (c : Cmd), Taken s k 0x0121 c ∧ c.at 16 1 = u ∧ (u < 12 ∨ (16 ≤ u ∧ u < 28 ∧ licensed s 2 = true)) ∧ ((s.unit u).state = 1 ∨ (s.unit u).state = 2) ∧ c.at 17 47 = 0 ∧ (unitPartOf s u).any (resetting s) = false ∧ s.memTop.retrain ≠ some u) ∧
    (∃ (s : State) (k : Nat) (i : Nat) (kd : Nat) (a : Nat) (n : Nat) (c : Cmd), Taken s k 0x0123 c ∧ c.at 16 1 = i ∧ c.at 17 1 = 1 ∧ c.at 18 1 = kd ∧ kd % 8 ≤ 5 ∧ kd < 64 ∧ bits kd 4 2 < s.net.parts ∧ c.at 19 5 = 0 ∧ c.at 24 6 = a ∧ (a < 0x400000000000 ∨ 0x7F0000000000 ≤ a ∨ licensed s 2 = true) ∧ a % 4096 = 0 ∧ c.at 30 2 = 0 ∧ c.at 32 8 = n ∧ n ≠ 0 ∧ n % 4096 = 0 ∧ regionBad s i (kd % 8) (bits kd 4 2) a n = false ∧ c.at 40 24 = 0 ∧ resetting s (bits kd 4 2) = false) ∧
    (∃ (s : State) (k : Nat) (i : Nat) (c : Cmd), Taken s k 0x0123 c ∧ c.at 16 1 = i ∧ c.at 17 1 = 0 ∧ c.at 18 46 = 0 ∧ ((s.region i).set && resetting s (s.region i).part) = false) ∧
    (∃ (s : State) (k : Nat) (p : Nat) (c : Cmd), Taken s k 0x0130 c ∧ c.at 16 1 = p ∧ (p = 1 ∨ ((p = 2 ∨ p = 4) ∧ licensed s 3 = true)) ∧ c.at 17 47 = 0 ∧ s.parts.any (fun x => x.2.resetting || x.2.resetReq) = false ∧ configBusy s = false ∧ s.net.partsNext = none) ∧
    (∃ (s : State) (k : Nat) (c : Cmd), Taken s k 0x0202 c ∧ c.at 16 1 = 1 ∧ c.at 17 47 = 0 ∧ s.bu.step = 10 ∧ s.pwr.next = none ∧ s.pwr.state = 0 ∧ (∀ o, o ∈ s.ops → o.code ≠ 0x01)) ∧
    (∃ (s : State) (k : Nat) (c : Cmd), Taken s k 0x0202 c ∧ c.at 16 1 = 3 ∧ c.at 17 47 = 0 ∧ s.bu.step = 10 ∧ s.pwr.next = none ∧ s.pwr.state = 0 ∧ s.ops = []) ∧
    (∃ (s : State) (k : Nat) (c : Cmd), (Taken s k 0x0202 c ∧ c.at 16 1 = 1 ∧ c.at 17 47 = 0 ∧ s.bu.step = 10 ∧ s.pwr.next = none ∧ s.pwr.state = 0) ∧ (∃ o, o ∈ s.ops ∧ o.code = 0x01)) ∧
    (∃ (s : State) (k : Nat) (d : Nat) (c : Cmd), Taken s k 0x0203 c ∧ c.at 16 1 = d ∧ d < 208 ∧ c.at 17 1 = 0 ∧ c.at 18 46 = 0 ∧ (dependants d).any (fun x => s.pwr.on.contains x) = false ∧ (s.pwr.on.contains d = false ∨ domainIdle s d = true)) ∧
    (∃ (s : State) (k : Nat) (d : Nat) (c : Cmd), Taken s k 0x0203 c ∧ c.at 16 1 = d ∧ d < 208 ∧ c.at 17 1 = 1 ∧ c.at 18 46 = 0 ∧ (prerequisite d).any (fun x => !s.pwr.on.contains x) = false) :=
  ⟨⟨(sv (cm 0x0121 [(16,1,27)] : Cmd) {bu := {licences := 4}, units := [(27, {state := 2})]} : State), 0, 27, (cm 0x0121 [(16,1,27)] : Cmd), by unfold Taken; decide +kernel⟩,
   ⟨(sv (cm 0x0123 [(16,1,255),(17,1,1),(18,1,9),(24,6,0x7F0040000000),(32,8,0x1000)] : Cmd) : State), 0, 255, 9, (0x7F0040000000 : Nat), 0x1000, (cm 0x0123 [(16,1,255),(17,1,1),(18,1,9),(24,6,0x7F0040000000),(32,8,0x1000)] : Cmd), by unfold Taken; decide +kernel⟩,
   ⟨(sv (cm 0x0123 [(16,1,255)] : Cmd) {regions := [(255, {set := true})]} : State), 0, 255, (cm 0x0123 [(16,1,255)] : Cmd), by unfold Taken; decide +kernel⟩,
   ⟨(sv (cm 0x0130 [(16,1,2)] : Cmd) {bu := {licences := 8}, tokens := [(3, {count := 1})], rowMaps := [rm0], mem := [(5, 1)], memTop := {windows := [(0, [3])]}} : State), 0, 2, (cm 0x0130 [(16,1,2)] : Cmd), by unfold Taken; decide +kernel⟩,
   ⟨(sv (cm 0x0202 [(16,1,1)] : Cmd) {bu := {step := 10}} : State), 0, (cm 0x0202 [(16,1,1)] : Cmd), by unfold Taken; decide +kernel⟩,
   ⟨(sv (cm 0x0202 [(16,1,3)] : Cmd) {bu := {step := 10}} : State), 0, (cm 0x0202 [(16,1,3)] : Cmd), by unfold Taken; decide +kernel⟩,
   ⟨(sv (cm 0x0202 [(16,1,1)] : Cmd) {bu := {step := 10}, ops := [dop 1 []]} : State), 0, (cm 0x0202 [(16,1,1)] : Cmd), by unfold Taken; decide +kernel, by exact ⟨dop 1 [], by decide +kernel, by decide +kernel⟩⟩,
   ⟨(sv (cm 0x0203 [(16,1,3)] : Cmd) {pwr := {on := [3, 4]}, fields := [(0, {fenced := true})]} : State), 0, 3, (cm 0x0203 [(16,1,3)] : Cmd), by unfold Taken; decide +kernel⟩,
   ⟨(sv (cm 0x0203 [(16,1,2),(17,1,1)] : Cmd) {pwr := {on := [3]}} : State), 0, 2, (cm 0x0203 [(16,1,2),(17,1,1)] : Cmd), by unfold Taken; decide +kernel⟩⟩

/-- The hypotheses of `PartitionResetRuns` can be met, clause by clause. -/
theorem test_PartitionResetRuns_met :
    (∃ (s : State) (k : Nat) (p : Nat) (c : Cmd), Taken s k 0x0131 c ∧ c.at 16 1 = p ∧ p < 4 ∧ p < s.net.parts ∧ c.at 17 47 = 0 ∧ (s.partOf p).resetting = false ∧ (s.partOf p).resetReq = false) ∧
    (∃ (s : State) (p : Nat) (k : Nat) (c : Cmd), (s.partOf p).resetReq = true ∧ p < s.net.parts ∧ s.flt.deviceError = false ∧ (s.partOf p).cmd = some k ∧ cmdOf s k = some c ∧ c.decided = false) ∧
    (∃ (s : State) (p : Nat), (s.partOf p).resetReq = false) ∧
    (∃ (s : State) (p : Nat), (s.partOf p).resetting = true ∧ (∀ u, u ∈ liveStacks s p → (s.unit u).zeroing = false)) :=
  ⟨⟨(sv (cm 0x0131 [(16,1,3)] : Cmd) {net := {parts := 4}} : State), 0, 3, (cm 0x0131 [(16,1,3)] : Cmd), by unfold Taken; decide +kernel⟩,
   ⟨({cmds := [(cm 0x0131 [(16,1,3)] : Cmd)], net := {parts := 4}, parts := [(3, {resetReq := true, cmd := some 0})], tokens := [(4096, {count := 2}), (12288, {count := 1})], ops := [{ dop 0x20 [] with stream := 63 }]} : State), 3, 0, (cm 0x0131 [(16,1,3)] : Cmd), by decide +kernel⟩,
   ⟨({} : State), 3, by decide +kernel⟩,
   ⟨({net := {parts := 4}, parts := [(3, {resetting := true})], mbs := [(63, {enable := true, cmdHead := 3})], units := [(9, {state := 1})]} : State), 3, by decide +kernel⟩⟩

/-- The hypotheses of `FlitsAct` can be met, clause by clause. -/
theorem test_FlitsAct_met :
    (∃ (s : State) (p : Nat) (pk : Packet), p < 24 ∧ (s.port p).state = 2 ∧ (s.port p).reqReplay = false ∧ (s.port p).resend = 0 ∧ (s.port p).replayBuf.length < 2048 ∧ (s.port p).flits ≠ 511 ∧ (s.port p).nextPacket [] (s.port p).waiting = some pk) ∧
    (∃ (s : State) (p : Nat), p < 24 ∧ (s.port p).state = 2 ∧ (s.port p).flits = 511) ∧
    (∃ (s : State) (p : Nat), (s.port p).state ≠ 2) ∧
    (∃ (s : State) (p : Nat) (fl : Flit), p < 24 ∧ (s.port p).state = 2 ∧ fl.kind = 1 ∧ fl.crc = flitCheck fl ∧ fl.seq = (s.port p).seqRx) ∧
    (∃ (s : State) (p : Nat) (fl : Flit) (cl : Bool), p < 24 ∧ (s.port p).state = 2 ∧ (cl = false ∨ fl.crc ≠ flitCheck fl ∨ (fl.kind = 1 ∧ fl.seq ≠ (s.port p).seqRx))) ∧
    (∃ (s : State) (p : Nat) (q : Nat), p < 24 ∧ (s.port p).state = 2 ∧ q ≤ 8) ∧
    (∃ (s : State) (p : Nat), p < 24 ∧ (s.port p).state = 2) ∧
    (∃ (s : State) (p : Nat) (frm : Nat) (l : LinkPort), p < 24 ∧ (s.port p).state = 2 ∧ (s.port p).acked ((frm + 4095) % 4096) = l ∧ l.replayBuf ≠ [] ∧ l.replayRow < 15) ∧
    (∃ (s : State) (p : Nat) (frm : Nat) (l : LinkPort), p < 24 ∧ (s.port p).state = 2 ∧ (s.port p).acked ((frm + 4095) % 4096) = l ∧ l.replayBuf ≠ [] ∧ l.replayRow = 15) :=
  ⟨⟨({ports := [(23, {state := 2, seqTx := 4095, shared := 0, credits := [(0, 64), (1, 63)], owed := [(9, 5)], waiting := [{bytes := 8}, {vc := 1, bytes := 8, data := [1, 2, 3, 4, 5, 6, 7, 8], poison := [0]}]})]} : State), 23, ({vc := 1, bytes := 8, data := [1, 2, 3, 4, 5, 6, 7, 8], poison := [0]} : Packet), by decide +kernel⟩,
   ⟨({tim := {beat := 77, t := 5}, ports := [(23, {state := 2, flits := 511, tmDue := true, seqTx := 4095, replayBuf := [{seq := 4094}]})]} : State), 23, by decide +kernel⟩,
   ⟨({} : State), 24, by decide +kernel⟩,
   ⟨({ports := [(0, {state := 2, seqRx := 4095, reqReplay := true, replayBuf := [{seq := 6}, {seq := 7}, {seq := 8}], credits := [(2, 9)]})]} : State), 0, ({kind := 1, seq := 4095, ack := 7, crPool := 2, crCount := 4, crc := 0x0c7a1f5c#32} : Flit), by decide +kernel⟩,
   ⟨({ports := [(0, {state := 2})]} : State), 0, ({kind := 1, seq := 1} : Flit), (true : Bool), by decide +kernel⟩,
   ⟨({ports := [(5, {state := 2, credits := [(8, 4)]})]} : State), 5, 8, by decide +kernel⟩,
   ⟨({ports := [(5, {state := 2, shared := 1720})]} : State), 5, by decide +kernel⟩,
   ⟨({ports := [(5, {state := 2, replays := 0xFFFFFFFF, resend := 1, replayRow := 9, replayBuf := [{seq := 4095}, {seq := 0}]})]} : State), 5, 0, ({state := 2, replayBuf := [{seq := 0}], resend := 1, replays := 0xFFFFFFFF} : LinkPort), by decide +kernel⟩,
   ⟨({ports := [(5, {state := 2, replayRow := 15, replayBuf := [{seq := 5}]})]} : State), 5, 1, ({state := 2, replayBuf := [{seq := 5}], replayRow := 15} : LinkPort), by decide +kernel⟩⟩

/-- The hypotheses of `LinkPortsAct` can be met, clause by clause. -/
theorem test_LinkPortsAct_met :
    (∃ (s : State) (p : Nat) (q : BitVec 4), p < 24 ∧ (s.port p).state = 1 ∧ s.pins.leFltN.getLsbD p = true ∧ q &&& ~~~(s.port p).disQuads ≠ 0 ∧ (s.port p).cmd = none ∧ s.link.phase ≠ 1) ∧
    (∃ (s : State) (p : Nat) (x : Bool), p < 24 ∧ (s.port p).state = 1 ∧ s.pins.leFltN.getLsbD p = true ∧ x ≠ (s.port p).lightNext ∧ (s.port p).retries < 3) ∧
    (∃ (s : State) (p : Nat), p < 24 ∧ (s.port p).state ≠ 3) ∧
    (∃ (s : State) (p : Nat) (n : Nat) (q : BitVec 4), p < 24 ∧ n < 16 ∧ (s.port p).state = 2 ∧ q = BitVec.twoPow 4 (n / 4) ∧ (s.port p).quadOk &&& q ≠ 0 ∧ (s.port p).quadOk &&& ~~~q ≠ 0) ∧
    (∃ (s : State) (p : Nat) (n : Nat) (q : BitVec 4), p < 24 ∧ n < 16 ∧ (s.port p).state = 2 ∧ q = BitVec.twoPow 4 (n / 4) ∧ (s.port p).quadOk = q) ∧
    (∃ (s : State) (p : Nat) (b : Nat), p < 24 ∧ (s.port p).state ≠ 3 ∧ s.pins.leFltN.getLsbD p = true ∧ (s.port p).dropAt = some b ∧ b + 1000000 ≤ s.tim.beat) ∧
    (∃ (s : State) (p : Nat), p < 24 ∧ (s.port p).state = 0 ∧ (s.port p).retries ≠ 0 ∧ (s.port p).retryAt + 2000000 ≤ s.tim.beat) ∧
    (∃ (s : State) (p : Nat), s.tim.beat < (s.port p).retryAt + 2000000) ∧
    (∃ (s : State) (p : Nat), p < 24 ∧ s.pins.leEn.getLsbD p = true ∧ (s.port p).state ≠ 3) ∧
    (∃ (s : State) (p : Nat), p < 24 ∧ s.pins.leFltN.getLsbD p = false ∧ s.pins.leEn.getLsbD p = true ∧ (s.port p).state = 0) ∧
    (∃ (p : Nat), p < 24) ∧
    (∃ (s : State) (p : Nat) (a : Bool) (pr : BitVec 16), p < 24 ∧ (a = false ∨ pr ≠ 1) ∧ (s.port p).state ≠ 3) :=
  ⟨⟨({ports := [(23, {state := 1, disQuads := 1, lightNext := true, reqReplay := true, replayBuf := [{seq := 5}]})]} : State), 23, 13, by decide +kernel⟩,
   ⟨({tim := {beat := 9}, ports := [(23, {state := 1, retries := 2, cmd := some 0})], cmds := [cm 0x0805 [(16,1,23)]]} : State), 23, (true : Bool), by decide +kernel⟩,
   ⟨({ports := [(5, {state := 2, replayBuf := [{seq := 5}], waiting := [{dst := 1}]}), (11, {state := 2})], link := {phase := 4, lenX := 1}} : State), 5, by decide +kernel⟩,
   ⟨({ports := [(0, {state := 2, quadOk := 15, width := 3})]} : State), 0, 15, 8, by decide +kernel⟩,
   ⟨({ports := [(0, {state := 2, quadOk := 8})]} : State), 0, 15, 8, by decide +kernel⟩,
   ⟨({tim := {beat := 1000005}, ports := [(0, {state := 2, dropAt := some 5})]} : State), 0, 5, by decide +kernel⟩,
   ⟨({tim := {beat := 2000005}, ports := [(0, {retryAt := 5, retries := 1})]} : State), 0, by decide +kernel⟩,
   ⟨({tim := {beat := 2000004}, ports := [(0, {retryAt := 5, retries := 1})]} : State), 0, by decide +kernel⟩,
   ⟨({pins := {leEn := 0x800000}, ports := [(23, {state := 2})]} : State), 23, by decide +kernel⟩,
   ⟨({pins := {leEn := 0x800000, leFltN := 0x7FFFFF}} : State), 23, by decide +kernel⟩,
   ⟨23, by decide +kernel⟩,
   ⟨({pins := {leEn := 0x800000}, ports := [(23, {state := 1, cmd := some 0})], cmds := [cm 0x0805 [(16,1,23)]]} : State), 23, (true : Bool), 2, by decide +kernel⟩⟩

/-- The hypotheses of `PacketsAct` can be met, clause by clause. -/
theorem test_PacketsAct_met :
    (∃ (s : State) (pk : Packet) (p : Nat), p < 24 ∧ packetWaits s pk p = true ∧ pk.dst = s.link.coord) ∧
    (∃ (s : State) (pk : Packet) (pk' : Packet) (d : Nat) (p : Nat), s.link.own.contains pk = true ∧ pk.dst ≠ s.link.coord ∧ s.link.routed = true ∧ s.link.phase ≠ 5 ∧ pk.hops < 254 ∧ presentDev s pk.dst = true ∧ routePacket s pk 6 = some (d, pk') ∧ steer s d (pkPool pk') 0 = some p) ∧
    (∃ (s : State) (pk : Packet) (p : Nat), p < 24 ∧ packetWaits s pk p = true ∧ pk.dst ≠ s.link.coord ∧ s.link.routed = true ∧ s.link.phase ≠ 5 ∧ 254 ≤ pk.hops) ∧
    (∃ (s : State) (pk : Packet) (i : Nat), s.link.delivered.contains pk = true ∧ held s (pkStart pk) pk.bytes = false ∧ pk.type = 0 ∧ refusal s pk = 0 ∧ s.errs = [] ∧ (∀ j, j < pk.data.length → noStore s (pkStart pk + j) = false) ∧ i < pk.data.length) ∧
    (∃ (s : State) (pk : Packet), s.link.delivered.contains pk = true ∧ held s (pkStart pk) pk.bytes = false ∧ pk.type = 0 ∧ refusal s pk ≠ 0) ∧
    (∃ (s : State) (pk : Packet), s.link.delivered.contains pk = true ∧ held s (pkStart pk) pk.bytes = false ∧ (pk.type = 1 ∨ pk.type = 2) ∧ (locOf s (pkStart pk)).unit = 31) ∧
    (∃ (s : State) (pk : Packet), s.link.delivered.contains pk = true ∧ held s (pkStart pk) pk.bytes = false ∧ pk.type = 2 ∧ (locOf s (pkStart pk)).unit ≠ 31 ∧ refusal s pk = 0 ∧ s.errs = [] ∧ pk.data.length = 4 ∧ pk.poison = [] ∧ noStore s (pkStart pk) = false ∧ pkStart pk % 4 = 0) ∧
    (∃ (s : State) (pk : Packet) (r : Nat) (u : Nat × Nat × Nat × Nat), s.link.delivered.find? (fun x => x.type == 3 && x.opref == r) = some pk ∧ s.seq.remoteUnacked.find? (fun x => x.1 == r) = some u) ∧
    (∃ (s : State) (r : Nat) (b : Nat) (u : Nat × Nat × Nat × Nat), s.link.pending10.find? (fun x => x.1 == r) = some (r, b) ∧ s.seq.remoteUnacked.find? (fun x => x.1 == r) = some u ∧ b + 10000 ≤ s.tim.beat) ∧
    (∃ (s : State) (r : Nat) (b : Nat), s.link.pending10.find? (fun x => x.1 == r) = some (r, b) ∧ s.tim.beat < b + 10000) :=
  ⟨⟨({link := {coord := 7, routed := true}, ports := [(23, {rxBuf := [pkFlit ({dst := 7, src := 9, vc := 1, firstByte := 3, bytes := 300, addr := 0x7F0040014000, opref := 6, data := List.replicate 300 (5 : BitVec 8), poison := [29, 37]} : Packet) 0, {cls := 1, sop := true}, pkFlit ({dst := 7, src := 9, vc := 1, firstByte := 3, bytes := 300, addr := 0x7F0040014000, opref := 6, data := List.replicate 300 (5 : BitVec 8), poison := [29, 37]} : Packet) 1, pkFlit ({dst := 7, src := 9, vc := 1, firstByte := 3, bytes := 300, addr := 0x7F0040014000, opref := 6, data := List.replicate 300 (5 : BitVec 8), poison := [29, 37]} : Packet) 0]})]} : State), ({dst := 7, src := 9, vc := 1, firstByte := 3, bytes := 300, addr := 0x7F0040014000, opref := 6, data := List.replicate 300 (5 : BitVec 8), poison := [29, 37]} : Packet), 23, by decide +kernel⟩,
   ⟨({link := {routed := true, lenX := 1, own := [({dst := 1, hops := 253, opref := 4} : Packet)]}, ports := [(0, {state := 2, shared := 9}), (6, {state := 2})]} : State), ({dst := 1, hops := 253, opref := 4} : Packet), ({dst := 1, hops := 254, opref := 4} : Packet), 0, 6, by decide +kernel⟩,
   ⟨({link := {routed := true, coord := 1}, ports := [(0, {rxBuf := [pkFlit ({dst := 7, hops := 254, bytes := 8, data := [1, 2, 3, 4, 5, 6, 7, 8]} : Packet) 0]})]} : State), ({dst := 7, hops := 254, bytes := 8, data := [1, 2, 3, 4, 5, 6, 7, 8]} : Packet), 0, by decide +kernel⟩,
   ⟨({link := {coord := 7, delivered := [({dst := 7, src := 9, firstByte := 3, bytes := 7, addr := 0x7F0040014000, opref := 6, data := [1, 2, 3, 4, 5, 6, 7], poison := [1]} : Packet)]}, poison := [(0xFE008002800, true)]} : State), ({dst := 7, src := 9, firstByte := 3, bytes := 7, addr := 0x7F0040014000, opref := 6, data := [1, 2, 3, 4, 5, 6, 7], poison := [1]} : Packet), 6, by decide +kernel⟩,
   ⟨({link := {coord := 7, delivered := [({dst := 7, src := 9, bytes := 8, addr := 0x400000, opref := 6, data := [1, 2, 3, 4, 5, 6, 7, 8]} : Packet)]}, memTop := {windows := [(0, [3])]}, regions := [(2, {set := true, base := 0, len := 0x400001, opsRo := true})]} : State), ({dst := 7, src := 9, bytes := 8, addr := 0x400000, opref := 6, data := [1, 2, 3, 4, 5, 6, 7, 8]} : Packet), by decide +kernel⟩,
   ⟨({link := {coord := 7, delivered := [({type := 1, dst := 7, src := 9, bytes := 4, addr := 0x7F0040014000, opref := 6, data := [0, 0, 0x80, 0x3F]} : Packet)]}} : State), ({type := 1, dst := 7, src := 9, bytes := 4, addr := 0x7F0040014000, opref := 6, data := [0, 0, 0x80, 0x3F]} : Packet), by decide +kernel⟩,
   ⟨({link := {coord := 7, delivered := [({type := 2, dst := 7, src := 9, firstByte := 4, bytes := 4, addr := 0x400000, opref := 6, data := [0, 0, 0x80, 0x3F]} : Packet)]}, memTop := {windows := [(0, [3])]}, mem := lay 0x400000 [1, 2, 3, 4, 0, 0, 0x80, 0x3F]} : State), ({type := 2, dst := 7, src := 9, firstByte := 4, bytes := 4, addr := 0x400000, opref := 6, data := [0, 0, 0x80, 0x3F]} : Packet), by decide +kernel⟩,
   ⟨({link := {delivered := [{type := 4, opref := 5}, ({type := 3, opref := 5} : Packet)], pending10 := [(5, 0), (6, 0)]}, seq := {remoteUnacked := [(4, 0, 0, 0), (5, 1, 2, 3)]}, ops := [{ dop 0x3A [] with acks := [5, 6] }]} : State), ({type := 3, opref := 5} : Packet), 5, ((5, 1, 2, 3) : Nat × Nat × Nat × Nat), by decide +kernel⟩,
   ⟨({tim := {beat := 10003}, link := {pending10 := [(5, 3), (6, 0)]}, seq := {remoteUnacked := [(4, 0, 0, 0), (5, 1, 2, 3)]}, ops := [{ dop 0x3A [] with acks := [5, 6] }]} : State), 5, 3, ((5, 1, 2, 3) : Nat × Nat × Nat × Nat), by decide +kernel⟩,
   ⟨({tim := {beat := 10002}, link := {pending10 := [(5, 3), (6, 0)]}} : State), 5, 3, by decide +kernel⟩⟩

/-- The hypotheses of `LinkTimeActs` can be met, clause by clause. -/
theorem test_LinkTimeActs_met :
    (∃ (s : State) (d : Nat), d < 6 ∧ upPorts s d ≠ [] ∧ (tget 0 s.link.tmSent d = 0 ∨ tget 0 s.link.tmSent d + 63 ≤ s.tim.beat)) ∧
    (∃ (s : State) (d : Nat), upPorts s d = []) ∧
    (∃ (s : State) (p : Nat) (b : Nat) (tx : Nat) (rx : Nat) (here : Int), p < 24 ∧ (s.port p).state = 2 ∧ here = ((s.tim.beat : Int) - b) * 20000 + rx - tx ∧ s.link.parent = some (dirOf p) ∧ s.link.phase ≠ 5) ∧
    (∃ (s : State) (p : Nat) (b : Nat) (tx : Nat) (rx : Nat) (here : Int), p < 24 ∧ (s.port p).state = 2 ∧ here = ((s.tim.beat : Int) - b) * 20000 + rx - tx ∧ s.link.parent ≠ some (dirOf p)) ∧
    (∃ (s : State) (off : Int), s.tim.counting = true ∧ s.tim.tickUse = true ∧ off.natAbs ≤ 1000) ∧
    (∃ (s : State) (off : Int), s.tim.tickUse = true ∧ 1000 < off.natAbs) ∧
    (∃ (s : State), s.tim.tickUse = true ∧ 3 ≤ s.tim.tickMiss) ∧
    (∃ (s : State), (s.tim.tickUse = false ∨ s.tim.tickMiss < 3)) ∧
    (∃ (s : State), s.tim.tickUse = true ∧ s.tim.disagree = 64) ∧
    (∃ (s : State), s.tim.disagree ≠ 64) :=
  ⟨⟨({tim := {beat := 68}, ports := [(5, {state := 2}), (11, {state := 2}), (0, {state := 2})], link := {tmSent := [(0, 6), (5, 5)]}} : State), 5, by decide +kernel⟩,
   ⟨({tim := {beat := 68}, ports := [(0, {state := 2})], link := {tmSent := [(5, 5)]}} : State), 5, by decide +kernel⟩,
   ⟨({tim := {beat := 0x100000008}, ports := [(11, {state := 2})], link := {parent := some 5, phase := 4}} : State), 11, 0x100000007, 3, 30000, 49997, by decide +kernel⟩,
   ⟨({ports := [(11, {state := 2})], link := {parent := some 4}} : State), 11, 7, 3, 0, (-140003 : Int), by decide +kernel⟩,
   ⟨({tim := {counting := true, tickUse := true}} : State), (-1000 : Int), by decide +kernel⟩,
   ⟨({tim := {counting := true, tickUse := true}} : State), (-1001 : Int), by decide +kernel⟩,
   ⟨({tim := {tickUse := true, tickMiss := 3, disagree := 9}} : State), by decide +kernel⟩,
   ⟨({tim := {tickUse := true, tickMiss := 2}} : State), by decide +kernel⟩,
   ⟨({tim := {tickUse := true, disagree := 64}} : State), by decide +kernel⟩,
   ⟨({tim := {tickUse := true, disagree := 65}} : State), by decide +kernel⟩⟩

/-- The hypotheses of `MusterRuns` can be met, clause by clause. -/
theorem test_MusterRuns_met :
    (∃ (s : State) (p : Nat) (c : Nat) (q : Nat) (x : Nat) (y : Nat) (z : Nat), p < 24 ∧ (s.port p).state = 2 ∧ s.link.configured = true ∧ s.link.phase = 3 ∧ c = neighbour s s.link.coord (dirOf p) ∧ q = p - p % 6 + (p % 6 ^^^ 1) ∧ x = s.link.lenX ∧ y = s.link.lenY ∧ z = s.link.lenZ) ∧
    (∃ (s : State) (p : Nat) (c : Nat), p < 24 ∧ (s.port p).state = 2 ∧ s.link.configured = true ∧ s.link.phase = 3 ∧ c ≠ neighbour s s.link.coord (dirOf p)) ∧
    (∃ (s : State) (p : Nat), p < 24 ∧ (s.port p).state < 2 ∧ s.link.phase = 3) ∧
    (∃ (s : State) (p : Nat), p < 24 ∧ (s.port p).state < 2 ∧ s.link.phase = 2 ∧ (∀ q, q < 24 → q ≠ p → portSettled (s.port q) = true)) ∧
    (∃ (s : State) (d : Nat), s.link.phase ≠ 0 ∧ d < 6 ∧ s.link.readySeen = false) ∧
    (∃ (s : State), s.link.phase = 3 ∧ s.link.reported = false ∧ s.link.coord ≠ s.link.root) ∧
    (∃ (s : State) (b : Nat), s.link.coord = s.link.root ∧ s.link.phase = 3 ∧ s.link.readySeen = false ∧ s.tim.beat < b ∧ missing s s.link.bitmap = []) ∧
    (∃ (s : State) (ms : Nat) (b : Nat), s.link.coord = s.link.root ∧ s.link.phase = 3 ∧ s.link.readySeen = false ∧ s.tim.beat < b ∧ 120000 ≤ ms) ∧
    (∃ (s : State) (ms : Nat), missing s s.link.bitmap ≠ [] ∧ ms < 120000) ∧
    (∃ (s : State) (ms : Nat) (b : Nat), s.link.coord = s.link.root2 ∧ s.link.phase = 3 ∧ s.link.readySeen = false ∧ s.tim.beat < b ∧ 123000 ≤ ms) ∧
    (∃ (ms : Nat), ms < 123000) ∧
    (∃ (s : State) (l : List Nat), 1 ≤ s.link.phase ∧ s.link.readySeen = false ∧ s.link.coord ∉ l) ∧
    (∃ (s : State), s.link.readySeen = true) ∧
    (∃ (s : State) (c : Nat) (b : Nat), 3 ≤ s.link.phase ∧ (c, true, b) ∉ s.link.pendRoute) ∧
    (∃ (s : State) (c : Nat) (b : Nat), s.link.readyBeat = none ∧ s.link.pendRoute = [(c, false, b)] ∧ b ≤ s.tim.beat ∧ c ≠ s.link.coord) ∧
    (∃ (s : State) (b : Nat), s.link.readyBeat = some b ∧ b ≤ s.tim.beat ∧ s.link.pendRoute = []) :=
  ⟨⟨({link := {configured := true, phase := 3, coord := 0x222, lenX := 3, lenY := 3, lenZ := 3}, ports := [(23, {state := 2, waiting := [{dst := 5}]})], pins := {leEn := 0x800000}} : State), 23, 34, 22, 3, 3, 3, by decide +kernel⟩,
   ⟨({link := {configured := true, phase := 3, coord := 0x222, lenX := 3, lenY := 3, lenZ := 3}, ports := [(23, {state := 2})], pins := {leEn := 0x800000}} : State), 23, 35, by decide +kernel⟩,
   ⟨({link := {phase := 3}, ports := [(23, {state := 1, retries := 2})]} : State), 23, by decide +kernel⟩,
   ⟨({link := {phase := 2, coord := 0x225, lenX := 7}, ports := (23, {state := 1}) :: (List.range 23).map (fun q => (q, if q < 9 then {state := 3} else if q < 13 then {state := 2, passed := true} else {reason := 6}))} : State), 23, by decide +kernel⟩,
   ⟨({link := {phase := 3, bitmap := [4], bitmap2 := [5]}} : State), 5, by decide +kernel⟩,
   ⟨({link := {phase := 3, coord := 1}, bu := {step := 10}, pwr := {state := 0}, tim := {beat := 9}} : State), by decide +kernel⟩,
   ⟨({link := {phase := 3, coord := 0x11, root := 0x11, lenX := 1, lenY := 1, bitmap := [16, 0, 1, 17]}, tim := {beat := 9}} : State), 10, by decide +kernel⟩,
   ⟨({link := {phase := 3, coord := 0x11, root := 0x11, lenX := 1, lenY := 1, lenZ := 1, bitmap := [16, 0, 1, 17]}, tim := {beat := 9}} : State), 120000, 10, by decide +kernel⟩,
   ⟨({link := {phase := 3, lenX := 1, bitmap := [0]}} : State), 119999, by decide +kernel⟩,
   ⟨({link := {phase := 3, coord := 1, root2 := 1, lenX := 1, bitmap2 := [0]}, tim := {beat := 9}} : State), 123000, 10, by decide +kernel⟩,
   ⟨122999, by decide +kernel⟩,
   ⟨({link := {phase := 1, coord := 1}, seq := {remoteUnacked := [(4, 0, 0, 2)]}} : State), ([0x3FFF, 2] : List Nat), by decide +kernel⟩,
   ⟨({link := {phase := 4, readySeen := true}} : State), by decide +kernel⟩,
   ⟨({link := {phase := 3, pendRoute := [(1, true, 9)]}} : State), 1, 10, by decide +kernel⟩,
   ⟨({tim := {beat := 10}, link := {phase := 4, routed := true, routeEpoch := 0xFFFFFFFF, pendRoute := [(3, false, 10)]}} : State), 3, 10, by decide +kernel⟩,
   ⟨({tim := {beat := 10}, link := {phase := 3, readyBeat := some 10}} : State), 10, by decide +kernel⟩⟩

/-- The hypotheses of `LinkCommandsRun` can be met, clause by clause. -/
theorem test_LinkCommandsRun_met :
    (∃ (s : State) (k : Nat) (x : Nat) (y : Nat) (z : Nat) (c : Cmd), (Taken s k 0x0802 c ∧ c.at 18 1 = x ∧ c.at 19 1 = y ∧ c.at 20 1 = z ∧ 1 ≤ x ∧ x ≤ 16 ∧ 1 ≤ y ∧ y ≤ 24 ∧ 1 ≤ z ∧ z ≤ 32 ∧ (x * y * z ≤ 64 ∨ licensed s 5 = true) ∧ (c.at 16 2 % 16 < x ∧ c.at 16 2 / 16 % 32 < y ∧ c.at 16 2 / 512 < z) ∧ (c.at 22 2 % 16 < x ∧ c.at 22 2 / 16 % 32 < y ∧ c.at 22 2 / 512 < z) ∧ (c.at 24 2 % 16 < x ∧ c.at 24 2 / 16 % 32 < y ∧ c.at 24 2 / 512 < z) ∧ c.at 21 1 = 0 ∧ c.at 26 38 = 0 ∧ s.link.phase = 0 ∧ s.tim.everAdmitted = false) ∧ (∀ p, (s.port p).cmd = none)) ∧
    (∃ (s : State) (k : Nat) (p : Nat) (c : Cmd), Taken s k 0x0803 c ∧ c.at 16 1 = p ∧ p < 24 ∧ (p < 6 ∨ licensed s 1 = true) ∧ c.at 17 47 = 0 ∧ ((s.port p).state = 0 ∨ (s.port p).state = 2)) ∧
    (∃ (s : State) (k : Nat) (p : Nat) (c : Cmd), Taken s k 0x0803 c ∧ c.at 16 1 = p ∧ p < 24 ∧ (p < 6 ∨ licensed s 1 = true) ∧ (s.port p).state = 3) ∧
    (∃ (s : State) (k : Nat) (p : Nat) (c : Cmd), Taken s k 0x0804 c ∧ c.at 16 1 = p ∧ p < 24 ∧ c.at 17 47 = 0 ∧ (s.port p).state ≠ 3 ∧ (upPorts s (dirOf p) ≠ [p] ∨ (s.port p).waiting = []) ∧ (s.port p).cmd = none) ∧
    (∃ (s : State) (k : Nat) (p : Nat) (c : Cmd), Taken s k 0x0805 c ∧ c.at 16 1 = p ∧ p < 24 ∧ (p < 6 ∨ licensed s 1 = true) ∧ (s.link.configured && lenAt s (p % 6 / 2) == 1) = false ∧ c.at 17 47 = 0 ∧ (s.port p).cmd = none ∧ inMuster s = false ∧ (s.port p).state ≠ 2) ∧
    (∃ (s : State) (k : Nat) (p : Nat) (m : Nat) (c : Cmd), Taken s k 0x0806 c ∧ c.at 16 1 = p ∧ p < 24 ∧ (p < 6 ∨ licensed s 1 = true) ∧ c.at 17 1 = m ∧ m < 2 ∧ c.at 18 46 = 0 ∧ (s.port p).state ≠ 3) ∧
    (∃ (s : State) (k : Nat) (p : Nat) (c : Cmd), Taken s k 0x0806 c ∧ c.at 16 1 = p ∧ 6 ≤ p ∧ p < 24 ∧ licensed s 1 = false) ∧
    (∃ (s : State) (k : Nat) (d : Nat) (b : Nat) (c : Cmd), Taken s k 0x0808 c ∧ c.at 16 2 = d ∧ s.link.configured = true ∧ s.link.coord = s.link.root ∧ d ∈ s.link.absent ∧ c.at 18 46 = 0 ∧ b = s.tim.beat + 1000) ∧
    (∃ (s : State) (k : Nat) (m : Nat) (c : Cmd), Taken s k 0x0809 c ∧ c.at 16 1 = m ∧ m < 2 ∧ c.at 17 47 = 0 ∧ s.tim.sel = 0 ∧ s.tim.tickUse = false) ∧
    (∃ (s : State) (k : Nat) (c : Cmd), Taken s k 0x0809 c ∧ c.at 16 1 = 0 ∧ c.at 17 47 = 0 ∧ s.tim.sel = 0 ∧ s.tim.tickUse = true) ∧
    (∃ (s : State) (k : Nat) (c : Cmd), Taken s k 0x0809 c ∧ c.at 16 1 < 2 ∧ c.at 17 47 = 0 ∧ s.tim.sel ≠ 0) :=
  ⟨⟨(sv (cm 0x0802 [(16,2,0x3F7F),(18,1,16),(19,1,24),(20,1,32),(22,2,0x3F7F),(24,2,0)] : Cmd) {bu := {licences := 32, step := 10}, tim := {aloneStart := true, admits := true}} : State), 0, 16, 24, 32, (cm 0x0802 [(16,2,0x3F7F),(18,1,16),(19,1,24),(20,1,32),(22,2,0x3F7F),(24,2,0)] : Cmd), by unfold Taken; decide +kernel, by intro p; rfl⟩,
   ⟨(sv (cm 0x0803 [(16,1,23)] : Cmd) {bu := {licences := 2}, ports := [(23, {state := 2, waiting := [{}], retries := 2})]} : State), 0, 23, (cm 0x0803 [(16,1,23)] : Cmd), by unfold Taken; decide +kernel⟩,
   ⟨(sv (cm 0x0803 [(16,1,5),(17,1,1)] : Cmd) {ports := [(5, {state := 3})]} : State), 0, 5, (cm 0x0803 [(16,1,5),(17,1,1)] : Cmd), by unfold Taken; decide +kernel⟩,
   ⟨(sv (cm 0x0804 [(16,1,23)] : Cmd) {ports := [(23, {state := 2, waiting := [{}]}), (17, {state := 2})], pins := {leEn := 0x800000}} : State), 0, 23, (cm 0x0804 [(16,1,23)] : Cmd), by unfold Taken; decide +kernel⟩,
   ⟨(sv (cm 0x0805 [(16,1,23)] : Cmd) {bu := {licences := 2}, link := {configured := true, lenZ := 1, phase := 4}, ports := [(23, {state := 3, reason := 7})]} : State), 0, 23, (cm 0x0805 [(16,1,23)] : Cmd), by unfold Taken; decide +kernel⟩,
   ⟨(sv (cm 0x0806 [(16,1,23),(17,1,1)] : Cmd) {bu := {licences := 2}, ports := [(23, {state := 2})]} : State), 0, 23, 1, (cm 0x0806 [(16,1,23),(17,1,1)] : Cmd), by unfold Taken; decide +kernel⟩,
   ⟨(sv (cm 0x0806 [(16,1,23),(17,1,1)] : Cmd) {ports := [(23, {state := 2})]} : State), 0, 23, (cm 0x0806 [(16,1,23),(17,1,1)] : Cmd), by unfold Taken; decide +kernel⟩,
   ⟨(sv (cm 0x0808 [(16,2,3)] : Cmd) {link := {configured := true, absent := [3]}, tim := {beat := 9}} : State), 0, 3, 1009, (cm 0x0808 [(16,2,3)] : Cmd), by unfold Taken; decide +kernel⟩,
   ⟨(sv (cm 0x0809 [(16,1,1)] : Cmd) {tim := {selGood := 5, tickMiss := 2}} : State), 0, 1, (cm 0x0809 [(16,1,1)] : Cmd), by unfold Taken; decide +kernel⟩,
   ⟨(sv (cm 0x0809 [] : Cmd) {tim := {tickUse := true}} : State), 0, (cm 0x0809 [] : Cmd), by unfold Taken; decide +kernel⟩,
   ⟨(sv (cm 0x0809 [(16,1,1)] : Cmd) {tim := {tickUse := true, sel := 2}} : State), 0, (cm 0x0809 [(16,1,1)] : Cmd), by unfold Taken; decide +kernel⟩⟩

/-- The hypotheses of `MailboxRegistersAct` can be met, clause by clause. -/
theorem test_MailboxRegistersAct_met :
    (∃ (s : State) (m : Nat) (w : BitVec 32), windowOpen s m = true ∧ (s.mb m).enable = false ∧ (s.mb m).draining = false ∧ basesOk (s.mb m) = true ∧ w.getLsbD 0 = true) ∧
    (∃ (s : State) (m : Nat) (w : BitVec 32), windowOpen s m = true ∧ (s.mb m).enable = false ∧ (s.mb m).draining = false ∧ basesOk (s.mb m) = false ∧ w.getLsbD 0 = true) ∧
    (∃ (s : State) (m : Nat) (w : BitVec 32), windowOpen s m = true ∧ (s.mb m).enable = true ∧ w.getLsbD 0 = false) ∧
    (∃ (s : State) (m : Nat) (w : BitVec 32), windowOpen s m = true ∧ (s.mb m).enable = true ∧ (w - (s.mb m).cmdHead).toNat ≤ 256) ∧
    (∃ (s : State) (m : Nat) (w : BitVec 32), windowOpen s m = true ∧ (s.mb m).enable = true ∧ 256 < (w - (s.mb m).cmdHead).toNat) ∧
    (∃ (s : State) (m : Nat), (s.mb m).enable = false) ∧
    (∃ (s : State) (m : Nat) (w : BitVec 32), windowOpen s m = true ∧ (s.mb m).enable = true ∧ w.getLsbD 0 = true) ∧
    (∃ (s : State) (w : BitVec 32), mmioOpen s = true ∧ 5 ≤ w.toNat % 1024 ∧ w.toNat % 1024 ≤ 500) ∧
    (∃ (w : BitVec 32), (w.toNat % 1024 < 5 ∨ 500 < w.toNat % 1024)) ∧
    (∃ (s : State) (m : Nat), s.pins.rstN = true ∧ s.pins.pwrok = true ∧ windowOpen s m = true) ∧
    (∃ (s : State), mgOn s = true) ∧
    (∃ (s : State), s.bu.bootOk = false) :=
  ⟨⟨({stw := {ready := true}, mbs := [(63, {cmdBase := 0x10000, cplBase := 0x14000, evtBase := 0x16000, cmdHead := 9, cplTail := 4, lost := 3, bell := some 4}), (62, {lost := 1})]} : State), 63, (0x7FFE07 : BitVec 32), by decide +kernel⟩,
   ⟨({stw := {ready := true}, mbs := [(63, {cmdBase := 0x10000, cplBase := 0x13000, evtBase := 0x16000})]} : State), 63, 1, by decide +kernel⟩,
   ⟨({stw := {ready := true}, mbs := [(5, {enable := true, bell := some 4})], cmds := [{src := 5}]} : State), 5, 0, by decide +kernel⟩,
   ⟨({stw := {ready := true}, mbs := [(5, {enable := true, cmdHead := 0xFFFFFFF7})]} : State), 5, (0xF7 : BitVec 32), by decide +kernel⟩,
   ⟨({stw := {ready := true}, mbs := [(5, {enable := true, cmdHead := 0xFFFFFFF7})]} : State), 5, (0xF8 : BitVec 32), by decide +kernel⟩,
   ⟨({stw := {ready := true}} : State), 5, by decide +kernel⟩,
   ⟨({stw := {ready := true}, mbs := [(5, {enable := true, cmdTail := 7, bell := some 3})]} : State), 5, 1, by decide +kernel⟩,
   ⟨({bu := {step := 2}} : State), (0xFFFFFDF4 : BitVec 32), by decide +kernel⟩,
   ⟨501, by decide +kernel⟩,
   ⟨({pins := {rstN := true, pwrok := true}, stw := {ready := true}} : State), 63, by decide +kernel⟩,
   ⟨({pwr := {on := [223]}, mg := {alert := 0x63}} : State), by decide +kernel⟩,
   ⟨({} : State), by decide +kernel⟩⟩

/-- The hypotheses of `CommandsAreFetchedAndReported` can be met, clause by clause. -/
theorem test_CommandsAreFetchedAndReported_met :
    (∃ (s : State) (m : Nat) (x : BitVec 32) (e : List (BitVec 8)), windowOpen s m = true ∧ (s.mb m).enable = true ∧ (s.mb m).bell = some x ∧ x ≠ (s.mb m).cmdHead ∧ s.cmds.length < 1024 ∧ inflight s m + ((s.mb m).cplTail - (s.mb m).cplHead).toNat < 256 ∧ headerReply s e = none ∧ resetting s (partOfMb s m) = false) ∧
    (∃ (s : State) (m : Nat) (x : BitVec 32) (e : List (BitVec 8)) (r : Reply), windowOpen s m = true ∧ (s.mb m).enable = true ∧ (s.mb m).bell = some x ∧ x ≠ (s.mb m).cmdHead ∧ s.cmds.length < 1024 ∧ inflight s m + ((s.mb m).cplTail - (s.mb m).cplHead).toNat < 256 ∧ headerReply s e = some r) ∧
    (∃ (s : State) (e : List (BitVec 8)), s.flt.deviceError = true ∧ bytesAt e 0 2 ≠ 0x0102) ∧
    (∃ (s : State) (e : List (BitVec 8)), s.flt.deviceError = false ∧ opcodeDefined (bytesAt e 0 2) = false) ∧
    (∃ (s : State) (m : Nat), (1024 ≤ s.cmds.length ∨ (s.mb m).bell = some (s.mb m).cmdHead ∨ (s.mb m).enable = false)) ∧
    (∃ (s : State) (k : Nat) (c : Cmd), cmdOf s k = some c ∧ c.decided = false ∧ c.committed = false ∧ c.started = false ∧ c.opcode ≠ 0x0502 ∧ c.fetchBeat + 1000 * c.deadline ≤ s.tim.beat) ∧
    (∃ (s : State) (k : Nat) (c : Cmd), cmdOf s k = some c ∧ (c.committed = true ∨ s.tim.beat < c.fetchBeat + 1000 * c.deadline)) ∧
    (∃ (s : State) (k : Nat) (m : Nat) (i : Nat) (c : Cmd), cmdOf s k = some c ∧ c.decided = true ∧ c.src = m ∧ m < 64 ∧ c.opcode ≠ 0x0102 ∧ i < 32) ∧
    (∃ (s : State) (k : Nat) (c : Cmd), cmdOf s k = some c ∧ c.decided = false) ∧
    (∃ (s : State) (k : Nat) (c : Cmd), cmdOf s k = some c ∧ c.opcode = 0x0103 ∧ mayStart s c = true ∧ (s.stw.ready || c.src == 64) = true ∧ c.tooLate = true) ∧
    (∃ (s : State) (k : Nat) (c : Cmd) (d : Cmd), Taken s k 0x0103 c ∧ c.at 16 1 ≤ 63 ∧ c.at 17 1 = 0 ∧ c.at 20 44 = 0 ∧ s.cmds.find? (fun d => d.key != k && d.src == c.at 16 1 && d.cid == c.at 18 2 && !(d.decided && d.status == stAborted)) = some d ∧ d.committed = false ∧ d.decided = false ∧ d.started = false) ∧
    (∃ (s : State) (k : Nat) (c : Cmd) (d : Cmd), Taken s k 0x0103 c ∧ c.at 16 1 ≤ 63 ∧ c.at 17 1 = 0 ∧ c.at 20 44 = 0 ∧ s.cmds.find? (fun d => d.key != k && d.src == c.at 16 1 && d.cid == c.at 18 2 && !(d.decided && d.status == stAborted)) = some d ∧ (d.committed = true ∨ d.decided = true)) ∧
    (∃ (s : State) (k : Nat) (c : Cmd), (Taken s k 0x0103 c ∧ c.at 16 1 ≤ 63 ∧ c.at 17 1 = 0 ∧ c.at 20 44 = 0) ∧ (∀ d, d ∈ s.cmds → d.key ≠ k → d.src = c.at 16 1 → d.cid ≠ c.at 18 2)) :=
  ⟨⟨({stw := {ready := true, nextKey := 9}, tim := {beat := 77}, cmds := List.replicate 254 {src := 63}, mbs := [(63, {enable := true, bell := some 0, cmdHead := 0xFFFFFFFF, cplTail := 1})]} : State), 63, 0, (pay 64 [(0,2,0x0101),(2,2,0x1234),(4,1,1),(5,1,2),(8,8,0x40),(16,1,9)] : List (BitVec 8)), by decide +kernel⟩,
   ⟨({stw := {ready := true, nextKey := 9}, mbs := [(63, {enable := true, bell := some 0, cmdHead := 0xFFFFFFFF})]} : State), 63, 0, (pay 64 [(0,2,0x0101),(4,1,2)] : List (BitVec 8)), ({status := 4, detail := 4} : Reply), by decide +kernel⟩,
   ⟨({flt := {deviceError := true}} : State), (pay 64 [(0,2,0x0103)] : List (BitVec 8)), by decide +kernel⟩,
   ⟨({} : State), (pay 64 [(0,2,0x0F01)] : List (BitVec 8)), by decide +kernel⟩,
   ⟨({stw := {ready := true}, mbs := [(63, {enable := true, bell := some 5, cmdHead := 5})]} : State), 63, by decide +kernel⟩,
   ⟨({ sv ({ cm 0x0D05 [] with fetchBeat := 7, deadline := 10 } : Cmd) with tim := { beat := 10007 } } : State), 0, ({ cm 0x0D05 [] with fetchBeat := 7, deadline := 10 } : Cmd), by decide +kernel⟩,
   ⟨({ sv ({ cm 0x0D05 [] with fetchBeat := 7, deadline := 10 } : Cmd) with tim := { beat := 10006 } } : State), 0, ({ cm 0x0D05 [] with fetchBeat := 7, deadline := 10 } : Cmd), by decide +kernel⟩,
   ⟨({ sv ({ cm 0x0101 [] with src := 63, decided := true, status := 4, detail := 5, cid := 0x1234, result := List.replicate 16 7 } : Cmd) with mbs := [(63, {enable := true, cplIrq := true, cplBase := 0x4000, cplTail := 0x1FF})] } : State), 0, 63, 31, ({ cm 0x0101 [] with src := 63, decided := true, status := 4, detail := 5, cid := 0x1234, result := List.replicate 16 7 } : Cmd), by decide +kernel⟩,
   ⟨(sv (cm 0x0101 [] : Cmd) : State), 0, (cm 0x0101 [] : Cmd), by decide +kernel⟩,
   ⟨(sv (cm 0x0103 [(6,2,0xFFFF)] : Cmd) : State), 0, (cm 0x0103 [(6,2,0xFFFF)] : Cmd), by decide +kernel⟩,
   ⟨({ cmds := [{ ({ cm 0x0101 [] with key := 3, src := 63, cid := 0x1234 } : Cmd) with key := 2, decided := true, status := 11 }, ({ cm 0x0101 [] with key := 3, src := 63, cid := 0x1234 } : Cmd), (cm 0x0103 [(16,1,63),(18,2,0x1234)] : Cmd)], stw := { ready := true } } : State), 0, (cm 0x0103 [(16,1,63),(18,2,0x1234)] : Cmd), ({ cm 0x0101 [] with key := 3, src := 63, cid := 0x1234 } : Cmd), by unfold Taken; decide +kernel⟩,
   ⟨({ cmds := [({ cm 0x0101 [] with key := 3, src := 63, cid := 0x1234, committed := true } : Cmd), (cm 0x0103 [(16,1,63),(18,2,0x1234)] : Cmd)], stw := { ready := true } } : State), 0, (cm 0x0103 [(16,1,63),(18,2,0x1234)] : Cmd), ({ cm 0x0101 [] with key := 3, src := 63, cid := 0x1234, committed := true } : Cmd), by unfold Taken; decide +kernel⟩,
   ⟨({ cmds := [{ (cm 0x0103 [(16,1,0),(18,2,0)] : Cmd) with src := 5, key := 4 }, (cm 0x0103 [(16,1,0),(18,2,0)] : Cmd)], stw := { ready := true } } : State), 0, (cm 0x0103 [(16,1,0),(18,2,0)] : Cmd), by unfold Taken; decide +kernel, by decide +kernel⟩⟩

/-- The hypotheses of `StatusCommandsAnswer` can be met, clause by clause. -/
theorem test_StatusCommandsAnswer_met :
    (∃ (s : State) (k : Nat) (c : Cmd) (r : (Nat → Instr) × Nat × Nat), (Taken s k r.2.1 c ∧ r.2.2 ≤ 64 * c.extLen ∧ c.at 16 48 = 0) ∧ r ∈ [(Instr.devInfo, 0x0101, 128), (Instr.devUnitStatus, 0x0112, 556), (Instr.devMemStatus, 0x0120, 404), (Instr.devPartitionStatus, 0x0132, 32), (Instr.powerStatus, 0x0201, 32), (Instr.lightStatus, 0x0301, 332), (Instr.calStatus, 0x0401, 2112), (Instr.execStatus, 0x0603, 516), (Instr.linkMusterStatus, 0x0807, 1600), (Instr.thermalStatus, 0x0901, 912)]) ∧
    (∃ (s : State) (k : Nat) (c : Cmd) (r : (Nat → Instr) × Nat × Nat), (Taken s k r.2.1 c ∧ 64 * c.extLen < r.2.2) ∧ r ∈ [(Instr.devInfo, 0x0101, 128), (Instr.devUnitStatus, 0x0112, 556), (Instr.devMemStatus, 0x0120, 404), (Instr.devPartitionStatus, 0x0132, 32), (Instr.powerStatus, 0x0201, 32), (Instr.lightStatus, 0x0301, 332), (Instr.calStatus, 0x0401, 2112), (Instr.execStatus, 0x0603, 516), (Instr.linkStatus, 0x0801, 1358), (Instr.linkMusterStatus, 0x0807, 1600), (Instr.thermalStatus, 0x0901, 912)]) ∧
    (∃ (s : State) (k : Nat) (c : Cmd), Taken s k 0x0101 c ∧ 2 ≤ c.extLen ∧ c.at 16 48 = 0) ∧
    (∃ (s : State) (k : Nat) (c : Cmd), Taken s k 0x0201 c ∧ 1 ≤ c.extLen ∧ c.at 16 48 = 0) ∧
    (∃ (s : State) (k : Nat) (c : Cmd), Taken s k 0x0120 c ∧ 7 ≤ c.extLen ∧ c.at 16 48 = 0) ∧
    (∃ (s : State) (k : Nat) (c : Cmd), Taken s k 0x0801 c ∧ 22 ≤ c.extLen ∧ c.at 16 48 = 0) ∧
    (∃ (s : State) (k : Nat) (c : Cmd), Taken s k 0x0B01 c ∧ ((telemetryOn s).map telemetrySize).sum ≤ 64 * c.extLen ∧ c.at 16 48 = 0) :=
  ⟨⟨(sv (cm 0x0101 [] 2 : Cmd) : State), 0, (cm 0x0101 [] 2 : Cmd), ((Instr.devInfo, 0x0101, 128) : (Nat → Instr) × Nat × Nat), by unfold Taken; decide +kernel, by simp⟩,
   ⟨(sv (cm 0x0801 [] 21 : Cmd) : State), 0, (cm 0x0801 [] 21 : Cmd), ((Instr.linkStatus, 0x0801, 1358) : (Nat → Instr) × Nat × Nat), by unfold Taken; decide +kernel, by simp⟩,
   ⟨(sv (cm 0x0101 [] 2 : Cmd) : State), 0, (cm 0x0101 [] 2 : Cmd), by unfold Taken; decide +kernel⟩,
   ⟨(sv (cm 0x0201 [] 1 : Cmd) {pwr := {state := 2, on := [3, 100, 217]}} : State), 0, (cm 0x0201 [] 1 : Cmd), by unfold Taken; decide +kernel⟩,
   ⟨(sv (cm 0x0120 [] 7 : Cmd) {units := [(3, {state := 1})]} : State), 0, (cm 0x0120 [] 7 : Cmd), by unfold Taken; decide +kernel⟩,
   ⟨(sv (cm 0x0801 [] 22 : Cmd) {link := {coord := 7, root := 3}, ports := [(23, {state := 2})]} : State), 0, (cm 0x0801 [] 22 : Cmd), by unfold Taken; decide +kernel⟩,
   ⟨(sv (cm 0x0B01 [] 19 : Cmd) : State), 0, (cm 0x0B01 [] 19 : Cmd), by unfold Taken; decide +kernel⟩⟩

/-- The hypotheses of `ReadCommandsAnswer` can be met, clause by clause. -/
theorem test_ReadCommandsAnswer_met :
    (∃ (s : State) (k : Nat) (c : Cmd), Taken s k 0x0113 c ∧ c.at 16 48 = 0) ∧
    (∃ (s : State) (k : Nat) (f : Nat) (n : Nat) (c : Cmd), Taken s k 0x0D01 c ∧ c.at 16 2 = f ∧ c.at 18 2 = n ∧ 64 + 32 * n ≤ 64 * c.extLen ∧ f ≤ 8191 ∧ f + n ≤ 8192 ∧ c.at 20 44 = 0) ∧
    (∃ (s : State) (k : Nat) (f : Nat) (n : Nat) (c : Cmd), Taken s k 0x0D06 c ∧ c.at 16 2 = 0 ∧ c.at 18 2 = 0 ∧ c.at 20 4 = f ∧ c.at 24 4 = n ∧ 8 * n ≤ 64 * c.extLen ∧ f ≤ 65535 ∧ f + n ≤ 65536 ∧ c.at 28 36 = 0) ∧
    (∃ (s : State) (k : Nat) (m : Nat) (c : Cmd), Taken s k 0x0E01 c ∧ c.at 16 1 = m ∧ m < 64 ∧ 1 ≤ c.extLen ∧ c.at 17 47 = 0) ∧
    (∃ (s : State) (k : Nat) (m : Nat) (c : Cmd), Taken s k 0x0E05 c ∧ c.at 16 1 = m ∧ m < 64 ∧ 2 ≤ c.extLen ∧ c.at 17 47 = 0) ∧
    (∃ (s : State) (k : Nat) (d : Nat) (i : Nat) (c : Cmd), Taken s k 0x0904 c ∧ c.at 16 1 = d ∧ d < 22 ∧ c.at 17 1 = i ∧ i < sensorCount d ∧ 8 ≤ c.extLen ∧ c.at 18 46 = 0 ∧ (s.sensor (sensorKey d i)).hist.length ≤ 64) ∧
    (∃ (s : State) (k : Nat) (c : Cmd), Taken s k 0x0A01 c ∧ c.at 16 48 = 0) ∧
    (∃ (s : State) (k : Nat) (c : Cmd), Taken s k 0x0A04 c ∧ c.at 16 48 = 0 ∧ 5 ≤ c.extLen) ∧
    (∃ (s : State) (k : Nat) (p : Nat) (f : Nat) (n : Nat) (c : Cmd), Taken s k 0x0505 c ∧ c.at 16 1 = p ∧ p < 4 ∧ p < s.net.parts ∧ c.at 17 1 = 0 ∧ c.at 18 2 = f ∧ c.at 20 2 = n ∧ 0 < f ∧ f + n ≤ 16384 ∧ f ≤ 16383 ∧ 64 * n + 64 ≤ 64 * c.extLen ∧ c.at 22 42 = 0 ∧ resetting s p = false) ∧
    (∃ (s : State) (k : Nat) (p : Nat) (c : Cmd), Taken s k 0x0508 c ∧ c.at 16 1 = p ∧ p < 4 ∧ p < s.net.parts ∧ 64 + 8 * (swapHandles s p).length ≤ 64 * c.extLen ∧ c.at 17 47 = 0 ∧ resetting s p = false) ∧
    (∃ (s : State) (k : Nat) (a : Nat) (n : Nat) (c : Cmd), Taken s k 0x0C01 c ∧ c.at 16 1 = 0 ∧ c.at 17 7 = 0 ∧ c.at 24 6 = a ∧ c.at 30 2 = 0 ∧ c.at 32 4 = n ∧ c.at 36 28 = 0 ∧ a % 8 = 0 ∧ 8 ≤ n ∧ n % 8 = 0 ∧ n ≤ 64 * c.extLen ∧ debugRange s a n = true ∧ debugPart s 0 a n = false ∧ held s a n = false ∧ s.errs = []) :=
  ⟨⟨(sv (cm 0x0113 [] 1 : Cmd) {flt := {queue := [{code := 5}], log := [{code := 6}, {code := 7}, {code := 8}]}} : State), 0, (cm 0x0113 [] 1 : Cmd), by unfold Taken; decide +kernel⟩,
   ⟨(sv (cm 0x0D01 [(16,2,8190),(18,2,2)] 2 : Cmd) {loops := [(8191, {kp := 5})]} : State), 0, 8190, 2, (cm 0x0D01 [(16,2,8190),(18,2,2)] 2 : Cmd), by unfold Taken; decide +kernel⟩,
   ⟨(sv (cm 0x0D06 [(20,4,65534),(24,4,2)] 1 : Cmd) {eng := {cap := [(65535, 0x123456789ABCDEF)]}} : State), 0, 65534, 2, (cm 0x0D06 [(20,4,65534),(24,4,2)] 1 : Cmd), by unfold Taken; decide +kernel⟩,
   ⟨(sv (cm 0x0E01 [(16,1,63)] 1 : Cmd) {mons := [(63, {enable := true})]} : State), 0, 63, (cm 0x0E01 [(16,1,63)] 1 : Cmd), by unfold Taken; decide +kernel⟩,
   ⟨(sv (cm 0x0E05 [(16,1,63)] 2 : Cmd) : State), 0, 63, (cm 0x0E05 [(16,1,63)] 2 : Cmd), by unfold Taken; decide +kernel⟩,
   ⟨(sv (cm 0x0904 [(16,1,9),(17,1,7)] 8 : Cmd) {sensors := [(151, {hist := [(5, -3, true, false), (6, 9, false, true)]})]} : State), 0, 9, 7, (cm 0x0904 [(16,1,9),(17,1,7)] 8 : Cmd), by unfold Taken; decide +kernel⟩,
   ⟨(sv (cm 0x0A01 [] 0 : Cmd) {sec := {identity := [1, 2]}} : State), 0, (cm 0x0A01 [] 0 : Cmd), by unfold Taken; decide +kernel⟩,
   ⟨(sv (cm 0x0A04 [] 5 : Cmd) {bu := {licences := 0x22}} : State), 0, (cm 0x0A04 [] 5 : Cmd), by unfold Taken; decide +kernel⟩,
   ⟨(sv (cm 0x0505 [(16,1,3),(18,2,16383),(20,2,1)] 2 : Cmd) {net := {parts := 4}, dir := [(16383, {valid := true, gen := 3})]} : State), 0, 3, 16383, 1, (cm 0x0505 [(16,1,3),(18,2,16383),(20,2,1)] 2 : Cmd), by unfold Taken; decide +kernel⟩,
   ⟨(sv (cm 0x0508 [] 2 : Cmd) {swaps := [(0, {epoch := 2, armed := true, handles := [5]})], dir := [(5, {valid := true, swap := 2, nextPtr := 7})]} : State), 0, 0, (cm 0x0508 [] 2 : Cmd), by unfold Taken; decide +kernel⟩,
   ⟨(sv (cm 0x0C01 [(24,6,0x7F0040000008),(32,4,16)] 1 : Cmd) {mem := lay 0x7F0040000010 [1, 2], poison := [(0xFE008000002, true)]} : State), 0, (0x7F0040000008 : Nat), 16, (cm 0x0C01 [(24,6,0x7F0040000008),(32,4,16)] 1 : Cmd), by unfold Taken; decide +kernel⟩⟩

/-- The hypotheses of `SettingCommandsAct` can be met, clause by clause. -/
theorem test_SettingCommandsAct_met :
    (∃ (s : State) (k : Nat) (c : Cmd), Taken s k 0x0122 c ∧ c.at 16 2 = 4 ∧ c.at 18 2 = 0 ∧ c.at 20 4 = 0x200 ∧ c.at 28 4 = 0 ∧ c.at 32 4 = 0x100 ∧ c.at 36 4 = 0 ∧ c.at 40 24 = 0) ∧
    (∃ (s : State) (k : Nat) (g : Nat) (c : Cmd), Taken s k 0x0902 c ∧ c.at 16 2 = 9 ∧ c.at 18 2 = 0 ∧ c.at 20 4 = 0x100 ∧ c.at 24 4 = g ∧ 5 ≤ g ∧ g ≤ 500 ∧ c.at 28 4 = 0 ∧ c.at 32 4 = 0x3FF ∧ c.at 36 4 = 0 ∧ c.at 40 24 = 0) ∧
    (∃ (s : State) (k : Nat) (g : Nat) (c : Cmd), Taken s k 0x0902 c ∧ c.at 16 2 = 9 ∧ c.at 18 2 = 0 ∧ c.at 20 4 = 0x100 ∧ c.at 24 4 = g ∧ 500 < g ∧ g < 1024 ∧ c.at 32 4 = 0x3FF ∧ 5 ≤ s.thm.grace ∧ s.thm.grace ≤ 500) ∧
    (∃ (s : State) (k : Nat) (n : Nat) (c : Cmd), Taken s k 0x0E02 c ∧ c.at 16 2 = 5 ∧ c.at 18 2 = n + 1 ∧ n < 64 ∧ c.at 20 4 = 0 ∧ c.at 24 4 = 1 ∧ c.at 28 4 = 0 ∧ c.at 32 4 = 1 ∧ c.at 36 4 = 0 ∧ c.at 40 24 = 0) ∧
    (∃ (s : State) (k : Nat) (n : Nat) (c : Cmd), Taken s k 0x0D02 c ∧ c.at 16 2 = 6 ∧ c.at 18 2 = n + 1 ∧ n < 8192 ∧ c.at 20 4 = 8 ∧ c.at 24 4 < 2 ^ 20 ∧ c.at 28 4 = 0 ∧ c.at 32 4 = 0xFFFFF ∧ c.at 36 4 = 0 ∧ c.at 40 24 = 0) ∧
    (∃ (s : State) (k : Nat) (c : Cmd), Taken s k 0x0D07 c ∧ c.at 16 2 = 6 ∧ c.at 18 2 = 0 ∧ c.at 20 4 = 8 ∧ c.at 24 4 < 2 ^ 16 ∧ c.at 28 4 = 0 ∧ c.at 32 4 = 0xFFFF ∧ c.at 36 4 = 0 ∧ c.at 40 24 = 0) ∧
    (∃ (s : State) (k : Nat) (n : Nat) (c : Cmd), Taken s k 0x0D03 c ∧ c.at 16 2 = n ∧ n ≤ 8191 ∧ slotKind s n ≠ 0 ∧ c.at 18 46 = 0 ∧ freezeRefused s n = false) ∧
    (∃ (s : State) (k : Nat) (n : Nat) (c : Cmd), Taken s k 0x0D04 c ∧ c.at 16 2 = n ∧ n ≤ 8191 ∧ slotKind s n ≠ 0 ∧ c.at 18 46 = 0) ∧
    (∃ (s : State) (k : Nat) (c : Cmd), Taken s k 0x0D05 c ∧ c.at 16 48 = 0 ∧ testBadSlot s = false ∧ testBusy s = false) ∧
    (∃ (s : State) (k : Nat) (m : Nat) (c : Cmd), Taken s k 0x0E03 c ∧ c.at 16 1 = m ∧ m < 64 ∧ c.at 17 47 = 0 ∧ (s.mon m).selfCmd = none) ∧
    (∃ (s : State) (k : Nat) (m : Nat) (c : Cmd), Taken s k 0x0E04 c ∧ m < 64 ∧ c.at 16 8 = 2 ^ m ∧ c.at 24 40 = 0 ∧ (s.mon m).aEnable = true ∧ (s.mon m).aTrig.getLsbD 2 = true ∧ (s.mon m).injRun = false) ∧
    (∃ (s : State) (k : Nat) (g : Nat) (c : Cmd), Taken s k 0x0B02 c ∧ c.at 16 1 = g ∧ g ≤ 63 ∧ c.at 17 47 = 0) ∧
    (∃ (s : State) (k : Nat) (d : Nat) (c : Cmd), Taken s k 0x0903 c ∧ c.at 16 48 = 0 ∧ s.thm.episode = true ∧ s.thm.enforcing = false ∧ s.thm.acked = false ∧ s.tim.beat < s.thm.startAt + 100 * s.thm.grace ∧ d < 22 ∧ (s.die d).level = 2) ∧
    (∃ (s : State) (k : Nat) (c : Cmd), Taken s k 0x0903 c ∧ c.at 16 48 = 0 ∧ s.thm.episode = false) ∧
    (∃ (s : State) (k : Nat) (a : Nat) (n : Nat) (i : Nat) (c : Cmd), Taken s k 0x0C02 c ∧ c.at 16 1 = 0 ∧ c.at 17 7 = 0 ∧ c.at 24 6 = a ∧ c.at 30 2 = 0 ∧ c.at 32 4 = n ∧ c.at 36 28 = 0 ∧ a % 8 = 0 ∧ 8 ≤ n ∧ n % 8 = 0 ∧ n ≤ 64 * c.extLen ∧ c.ext.length = 64 * c.extLen ∧ debugRange s a n = true ∧ reachRange s .host true a n = true ∧ debugPart s 0 a n = false ∧ held s a n = false ∧ s.errs = [] ∧ (∀ j, j < n → noStore s (a + j) = false) ∧ i < n) ∧
    (∃ (s : State) (k : Nat) (n : Nat) (c : Cmd), Taken s k 0x0C03 c ∧ c.at 16 48 = 0 ∧ c.extLen = n + 4) :=
  ⟨⟨(sv (cm 0x0122 [(16,2,4),(20,4,0x200),(24,4,0x1FF),(32,4,0x100)] : Cmd) : State), 0, (cm 0x0122 [(16,2,4),(20,4,0x200),(24,4,0x1FF),(32,4,0x100)] : Cmd), by unfold Taken; decide +kernel⟩,
   ⟨(sv (cm 0x0902 [(16,2,9),(20,4,0x100),(24,4,500),(32,4,0x3FF)] : Cmd) : State), 0, 500, (cm 0x0902 [(16,2,9),(20,4,0x100),(24,4,500),(32,4,0x3FF)] : Cmd), by unfold Taken; decide +kernel⟩,
   ⟨(sv (cm 0x0902 [(16,2,9),(20,4,0x100),(24,4,501),(32,4,0x3FF)] : Cmd) : State), 0, 501, (cm 0x0902 [(16,2,9),(20,4,0x100),(24,4,501),(32,4,0x3FF)] : Cmd), by unfold Taken; decide +kernel⟩,
   ⟨(sv (cm 0x0E02 [(16,2,5),(18,2,64),(24,4,1),(32,4,1)] : Cmd) {mons := [(63, {fine := true})]} : State), 0, 63, (cm 0x0E02 [(16,2,5),(18,2,64),(24,4,1),(32,4,1)] : Cmd), by unfold Taken; decide +kernel⟩,
   ⟨(sv (cm 0x0D02 [(16,2,6),(18,2,8192),(20,4,8),(24,4,0xFFFFF),(32,4,0xFFFFF)] : Cmd) {loops := [(8191, {ki := 5})]} : State), 0, 8191, (cm 0x0D02 [(16,2,6),(18,2,8192),(20,4,8),(24,4,0xFFFFF),(32,4,0xFFFFF)] : Cmd), by unfold Taken; decide +kernel⟩,
   ⟨(sv (cm 0x0D07 [(16,2,6),(20,4,8),(24,4,0x8000),(32,4,0xFFFF)] : Cmd) : State), 0, (cm 0x0D07 [(16,2,6),(20,4,8),(24,4,0x8000),(32,4,0xFFFF)] : Cmd), by unfold Taken; decide +kernel⟩,
   ⟨(sv (cm 0x0D03 [(16,2,8191)] : Cmd) {loops := [(8191, {kind := 4})]} : State), 0, 8191, (cm 0x0D03 [(16,2,8191)] : Cmd), by unfold Taken; decide +kernel⟩,
   ⟨(sv (cm 0x0D04 [] : Cmd) {loops := [(0, {freeze := true})]} : State), 0, 0, (cm 0x0D04 [] : Cmd), by unfold Taken; decide +kernel⟩,
   ⟨(sv (cm 0x0D05 [] : Cmd) : State), 0, (cm 0x0D05 [] : Cmd), by unfold Taken; decide +kernel⟩,
   ⟨(sv (cm 0x0E03 [(16,1,63)] : Cmd) {mons := [(63, {aEnable := true})]} : State), 0, 63, (cm 0x0E03 [(16,1,63)] : Cmd), by unfold Taken; decide +kernel⟩,
   ⟨(sv (cm 0x0E04 [(16,8,0x8000000000000000)] : Cmd) {mons := [(63, {aEnable := true, aTrig := 4})]} : State), 0, 63, (cm 0x0E04 [(16,8,0x8000000000000000)] : Cmd), by unfold Taken; decide +kernel⟩,
   ⟨(sv (cm 0x0B02 [(16,1,63)] : Cmd) {stw := {telemetry := 1}} : State), 0, 63, (cm 0x0B02 [(16,1,63)] : Cmd), by unfold Taken; decide +kernel⟩,
   ⟨(sv (cm 0x0903 [] : Cmd) {tim := {beat := 499}, thm := {episode := true, grace := 5}, dies := [(21, {level := 2})]} : State), 0, 21, (cm 0x0903 [] : Cmd), by unfold Taken; decide +kernel⟩,
   ⟨(sv (cm 0x0903 [] : Cmd) : State), 0, (cm 0x0903 [] : Cmd), by unfold Taken; decide +kernel⟩,
   ⟨(sv (cm 0x0C02 [(24,6,0x7F0040000008),(32,4,16)] 1 ((List.range 64).map (fun j => BitVec.ofNat 8 (j + 1))) : Cmd) {mem := lay 0x7F0040000010 [1, 2], poison := [(0xFE008000002, true)]} : State), 0, (0x7F0040000008 : Nat), 16, 15, (cm 0x0C02 [(24,6,0x7F0040000008),(32,4,16)] 1 ((List.range 64).map (fun j => BitVec.ofNat 8 (j + 1))) : Cmd), by unfold Taken; decide +kernel⟩,
   ⟨(sv (cm 0x0C03 [] 5 : Cmd) : State), 0, 1, (cm 0x0C03 [] 5 : Cmd), by unfold Taken; decide +kernel⟩⟩

/-- The hypotheses of `UnitCommandsRun` can be met, clause by clause. -/
theorem test_UnitCommandsRun_met :
    (∃ (s : State) (k : Nat) (kind : Nat) (i : Nat) (b : Nat) (c : Cmd), Taken s k 0x0110 c ∧ c.at 16 1 = kind ∧ c.at 20 2 = i ∧ c.at 22 1 = b ∧ kind ≤ 6 ∧ c.at 17 1 ≤ 1 ∧ c.at 18 2 ≤ 60000 ∧ orElse (unitChecks s c) = none ∧ cmdUnitOut s kind i b = false ∧ c.at 23 41 = 0 ∧ (unitPart s kind i).any (resetting s) = false ∧ disableOn s kind i b = none ∧ s.ops = [] ∧ s.flt.active = none ∧ s.memTop.heldReqs = [] ∧ c.aux = 0 ∧ c.aux2 = 0) ∧
    (∃ (s : State) (k : Nat) (kind : Nat) (i : Nat) (b : Nat) (c : Cmd), Taken s k 0x0110 c ∧ c.at 16 1 = kind ∧ c.at 20 2 = i ∧ c.at 22 1 = b ∧ kind ≤ 6 ∧ c.at 17 1 ≤ 1 ∧ c.at 18 2 ≤ 60000 ∧ orElse (unitChecks s c) = none ∧ cmdUnitOut s kind i b = true) ∧
    (∃ (s : State) (k : Nat) (kind : Nat) (i : Nat) (b : Nat) (c : Cmd), Taken s k 0x0111 c ∧ c.at 16 1 = kind ∧ c.at 20 2 = i ∧ c.at 22 1 = b ∧ kind ≤ 6 ∧ c.at 17 1 ≤ 1 ∧ c.at 18 2 ≤ 60000 ∧ orElse (unitChecks s c) = none ∧ cmdUnitOut s kind i b = true ∧ c.at 23 41 = 0 ∧ fencedAtBoot s kind i b = false ∧ (kind ≠ 0 ∨ (∀ g, g < 4 → (s.lcol (4 * portOfField i + g)).level ≠ 3)) ∧ (kind = 4 → (s.unit i).gaveUp = false) ∧ (kind = 5 → (s.unit (16 + i)).gaveUp = false) ∧ (unitPart s kind i).any (resetting s) = false ∧ (∀ e, e ∈ s.flt.queue → sameUnit e.kind e.index e.sub kind i (entrySub kind b) = false) ∧ s.flt.queue.length < 64) ∧
    (∃ (s : State) (k : Nat) (d : Nat × Nat × Nat × Nat × Nat), s.flt.disabling.find? (fun d => d.2.2.2.1 == k) = some d ∧ d.2.2.2.2 ≤ s.tim.beat) ∧
    (∃ (s : State) (k : Nat) (d : Nat × Nat × Nat × Nat × Nat), s.flt.disabling.find? (fun d => d.2.2.2.1 == k) = some d ∧ s.tim.beat < d.2.2.2.2) ∧
    (∃ (s : State) (k : Nat) (c : Cmd), Taken s k 0x0102 c ∧ s.flt.deviceError = false ∧ c.at 16 48 = 0) ∧
    (∃ (s : State) (k : Nat) (c : Cmd), cmdOf s k = some c ∧ c.opcode = 0x0102 ∧ s.flt.deviceError = true) :=
  ⟨⟨(sv (cm 0x0110 [(16,1,4),(18,2,60000),(20,2,3)] : Cmd) {units := [(3, {state := 1})], mem := [(5, 7)], memTop := {windows := [(0, [3])]}, flt := {queue := [{kind := 4, index := 3}]}} : State), 0, 4, 3, 0, (cm 0x0110 [(16,1,4),(18,2,60000),(20,2,3)] : Cmd), by unfold Taken; decide +kernel⟩,
   ⟨(sv (cm 0x0110 [(16,1,6),(17,1,1),(20,2,23),(22,1,3)] : Cmd) {ports := [(23, {disQuads := 8})]} : State), 0, 6, 23, 3, (cm 0x0110 [(16,1,6),(17,1,1),(20,2,23),(22,1,3)] : Cmd), by unfold Taken; decide +kernel⟩,
   ⟨(sv (cm 0x0111 [(16,1,6),(20,2,23),(22,1,3)] : Cmd) {ports := [(23, {disQuads := 8})], flt := {queue := List.replicate 47 {kind := 6, index := 22, sub := 8} ++ List.replicate 16 {kind := 1}}} : State), 0, 6, 23, 3, (cm 0x0111 [(16,1,6),(20,2,23),(22,1,3)] : Cmd), by unfold Taken; decide +kernel⟩,
   ⟨({tim := {beat := 100}, flt := {disabling := [(0, 4, 0, 6, 90), (0, 3, 0, 5, 100)]}, ops := [dop 1 []]} : State), 5, ((0, 3, 0, 5, 100) : Nat × Nat × Nat × Nat × Nat), by decide +kernel⟩,
   ⟨({tim := {beat := 99}, flt := {disabling := [(0, 4, 0, 6, 90), (0, 3, 0, 5, 100)]}} : State), 5, ((0, 3, 0, 5, 100) : Nat × Nat × Nat × Nat × Nat), by decide +kernel⟩,
   ⟨(sv (cm 0x0102 [] : Cmd) : State), 0, (cm 0x0102 [] : Cmd), by unfold Taken; decide +kernel⟩,
   ⟨({ cmds := [({ cm 0x0102 [] with started := true } : Cmd)], flt := {deviceError := true} } : State), 0, ({ cm 0x0102 [] with started := true } : Cmd), by decide +kernel⟩⟩

/-- The hypotheses of `SecurityCommandsRun` can be met, clause by clause. -/
theorem test_SecurityCommandsRun_met :
    (∃ (s : State) (k : Nat) (c : Cmd) (key : List (BitVec 8)) (body : List (BitVec 8)), Taken s k 0x0A02 c ∧ reportLen ≤ 64 * c.extLen ∧ c.at 48 16 = 0 ∧ s.sec.bootKey = some key ∧ s.sec.bootSigs < 32768 ∧ body = reportBody s ((c.entry.drop 16).take 32)) ∧
    (∃ (s : State) (k : Nat) (c : Cmd), Taken s k 0x0A02 c ∧ reportLen ≤ 64 * c.extLen ∧ c.at 48 16 = 0 ∧ s.sec.bootKey = none) ∧
    (∃ (s : State) (k : Nat) (c : Cmd) (tok : List (BitVec 8)), Taken s k 0x0A03 c ∧ 3136 ≤ 64 * c.extLen ∧ c.at 16 48 = 0 ∧ tok = c.ext.take 3136 ∧ tokenBad tok = none ∧ s.sec.tokens = []) ∧
    (∃ (s : State) (k : Nat) (off : Nat) (total : Nat) (c : Cmd), Taken s k 0x0A05 c ∧ 1 ≤ c.extLen ∧ c.at 16 4 = off ∧ c.at 20 4 = total ∧ off = s.sec.stData.length ∧ off % 64 = 0 ∧ off ≠ 0 ∧ s.sec.stOpen = some c.src ∧ total = s.sec.stTotal ∧ total ≠ 0 ∧ total ≤ 8388608 ∧ total % 4096 = 0 ∧ off + c.ext.length < total ∧ c.at 24 40 = 0) ∧
    (∃ (s : State) (k : Nat) (c : Cmd), Taken s k 0x0A06 c ∧ c.at 16 1 = 0 ∧ c.at 17 47 = 0 ∧ s.sec.staged = true ∧ (s.bu.running == 4 && s.bu.imgAddr == 0) = false) ∧
    (∃ (s : State) (k : Nat) (c : Cmd), Taken s k 0x0A06 c ∧ c.at 16 1 ≤ 1 ∧ c.at 17 47 = 0 ∧ s.sec.staged = false) ∧
    (∃ (s : State) (src : Nat), s.sec.stOpen = some src ∧ s.sec.stAt + 60000000 ≤ s.tim.beat) ∧
    (∃ (s : State), s.sec.stOpen = none) ∧
    (∃ (s : State), secOn s = true ∧ s.flt.deviceError = false) ∧
    (∃ (s : State) (code : Nat), secOn s = true ∧ code ∈ spdmSupported) ∧
    (∃ (s : State) (code : Nat), secOn s = true ∧ code ∉ spdmSupported) ∧
    (∃ (s : State) (e : List (BitVec 8)), mgOn s = true ∧ managementReply s e = none) ∧
    (∃ (s : State) (e : List (BitVec 8)), s.flt.deviceError = false ∧ bytesAt e 0 2 ∉ carried) ∧
    (∃ (s : State), mgOn s = true) ∧
    (∃ (s : State), mgOn s = true ∧ s.mg.resetArm = true) ∧
    (∃ (s : State), mgOn s = true ∧ s.mg.resetArm = false) ∧
    (∃ (s : State) (n : Nat), mgOn s = true ∧ n < 128) ∧
    (∃ (s : State) (r : Nat), s.bu.stwRunning = true ∧ (r = 6 ∨ r = 7) ∧ s.sec.meas.length = 8) ∧
    (∃ (r : Nat), r < 6) ∧
    (∃ (s : State) (r : Nat), 3 ≤ s.bu.step ∧ r < 3 ∧ s.memTop.decoders.getLsbD r = false) ∧
    (∃ (s : State) (r : Nat), s.memTop.decoders.getLsbD r = true) :=
  ⟨⟨(sv (cm 0x0A02 [(16,8,77)] 98 : Cmd) {sec := {bootKey := some [1], bootSigs := 32767}} : State), 0, (cm 0x0A02 [(16,8,77)] 98 : Cmd), ([1] : List (BitVec 8)), (reportBody {sec := {bootKey := some [1], bootSigs := 32767}} (((cm 0x0A02 [(16,8,77)] 98 : Cmd).entry.drop 16).take 32) : List (BitVec 8)), by unfold Taken; decide +kernel⟩,
   ⟨(sv (cm 0x0A02 [] 98 : Cmd) : State), 0, (cm 0x0A02 [] 98 : Cmd), by unfold Taken; decide +kernel⟩,
   ⟨(sv (cm 0x0A03 [] 49 (pay 3136 [(0,4,0x43494C55),(4,2,1),(24,1,63)]) : Cmd) : State), 0, (cm 0x0A03 [] 49 (pay 3136 [(0,4,0x43494C55),(4,2,1),(24,1,63)]) : Cmd), (pay 3136 [(0,4,0x43494C55),(4,2,1),(24,1,63)] : List (BitVec 8)), by unfold Taken; decide +kernel⟩,
   ⟨(sv (cm 0x0A05 [(16,4,64),(20,4,4096)] 1 (List.replicate 64 3) : Cmd) {tim := {beat := 6}, sec := {stOpen := some 0, stTotal := 4096, stData := List.replicate 64 2, staged := true}} : State), 0, 64, 4096, (cm 0x0A05 [(16,4,64),(20,4,4096)] 1 (List.replicate 64 3) : Cmd), by unfold Taken; decide +kernel⟩,
   ⟨(sv (cm 0x0A06 [] : Cmd) {sec := {staged := true, select := 1, flashImg := [(0, pay 3000 [(75,1,16)])]}} : State), 0, (cm 0x0A06 [] : Cmd), by unfold Taken; decide +kernel⟩,
   ⟨(sv (cm 0x0A06 [(16,1,1)] : Cmd) : State), 0, (cm 0x0A06 [(16,1,1)] : Cmd), by unfold Taken; decide +kernel⟩,
   ⟨({tim := {beat := 60000003}, sec := {stOpen := some 5, stAt := 3}} : State), 5, by decide +kernel⟩,
   ⟨({} : State), by decide +kernel⟩,
   ⟨({pwr := {on := [222]}} : State), by decide +kernel⟩,
   ⟨({pwr := {on := [222]}} : State), (0xE1 : Nat), by decide +kernel⟩,
   ⟨({pwr := {on := [222]}} : State), 0x87, by decide +kernel⟩,
   ⟨({pwr := {on := [223]}} : State), (pay 64 [(0,2,0x0101)] : List (BitVec 8)), by decide +kernel⟩,
   ⟨({} : State), (pay 64 [(0,2,0x0103)] : List (BitVec 8)), by decide +kernel⟩,
   ⟨({pwr := {on := [223]}} : State), by decide +kernel⟩,
   ⟨({pwr := {on := [223]}, mg := {resetArm := true}} : State), by decide +kernel⟩,
   ⟨({pwr := {on := [223]}} : State), by decide +kernel⟩,
   ⟨({pwr := {on := [223]}} : State), 127, by decide +kernel⟩,
   ⟨({bu := {stwRunning := true}} : State), 7, by decide +kernel⟩,
   ⟨5, by decide +kernel⟩,
   ⟨({bu := {step := 3}, memTop := {decoders := 1}} : State), 2, by decide +kernel⟩,
   ⟨({bu := {step := 3}, memTop := {decoders := 1}} : State), 0, by decide +kernel⟩⟩

/-- The hypotheses of `ResetsAct` can be met, clause by clause. -/
theorem test_ResetsAct_met :
    (∃ (s : State), s.thm.shutdown = false) ∧
    (∃ (s : State), s.thm.shutdown = true) ∧
    (∃ (s : State), s.pins.rstN = false) ∧
    (∃ (s : State), s.pins.rstN = true ∧ s.pins.pwrok = true) ∧
    (∃ (s : State) (p : Nat), s.pins.rstN = true ∧ s.pins.pwrok = true ∧ s.pins.refclk = true ∧ 217 ∈ s.pwr.on ∧ s.bu.bootOk = false ∧ 6 ≤ p ∧ p < 24 ∧ s.sec.tokens = []) ∧
    (∃ (s : State), s.pins.refclk = false) ∧
    (∃ (s : State), 2 ≤ s.bu.step) ∧
    (∃ (s : State), s.bu.step < 2) ∧
    (∃ (s : State), s.pins.refclk = false ∧ s.pins.held = false) ∧
    (∃ (s : State), s.pins.refclk = false ∧ s.pins.held = true ∧ s.pins.rstN = true ∧ s.pins.pwrok = true) ∧
    (∃ (s : State) (k : Nat) (c : Cmd), cmdOf s k = some c ∧ c.opcode = 0x0102 ∧ c.status = stAccepted ∧ c.decided = true) :=
  ⟨⟨({pins := {rstN := true, pwrok := true, leFltN := 5}, mem := [(5, 1)], sec := {leaf := 4}} : State), by decide +kernel⟩,
   ⟨({pins := {rstN := true, pwrok := true}, thm := {shutdown := true}} : State), by decide +kernel⟩,
   ⟨({sec := {leaf := 32767}} : State), by decide +kernel⟩,
   ⟨({pins := {rstN := true, pwrok := true}} : State), by decide +kernel⟩,
   ⟨({pins := {rstN := true, pwrok := true}, pwr := {on := [217]}, ports := [(5, {state := 1})]} : State), 23, by decide +kernel⟩,
   ⟨({pins := {rstN := true, pwrok := true, refclk := false}, pwr := {on := [217]}} : State), by decide +kernel⟩,
   ⟨({bu := {step := 2}, mem := [(5, 1)]} : State), by decide +kernel⟩,
   ⟨({bu := {step := 1}} : State), by decide +kernel⟩,
   ⟨({pins := {refclk := false}} : State), by decide +kernel⟩,
   ⟨({pins := {refclk := false, held := true, rstN := true, pwrok := true}} : State), by decide +kernel⟩,
   ⟨(sv ({ cm 0x0102 [] with decided := true, status := 1 } : Cmd) {bu := {step := 10}, sec := {tokens := [(0, [1])], minSvn := 3}} : State), 0, ({ cm 0x0102 [] with decided := true, status := 1 } : Cmd), by decide +kernel⟩⟩

/-- The hypotheses of `BringupWritesAct` can be met, clause by clause. -/
theorem test_BringupWritesAct_met :
    (∃ (s : State) (w : BitVec 32), s.bu.bootOk = true ∧ s.bu.rwlLocked = false ∧ (s.bu.state = 0 ∨ s.bu.state = 2) ∧ bits w.toNat 0 10 ≠ 0) ∧
    (∃ (s : State) (w : BitVec 32), s.bu.bootOk = true ∧ s.bu.rwlLocked = false ∧ (s.bu.state = 0 ∨ s.bu.state = 2) ∧ s.bu.step = 1 ∧ w.getLsbD 0 = true) ∧
    (∃ (s : State) (w : BitVec 32), s.bu.bootOk = true ∧ (s.bu.state = 0 ∨ s.bu.state = 2) ∧ s.bu.step = 0 ∧ w.getLsbD 0 = true) ∧
    (∃ (s : State), (s.bu.bootOk = false ∨ s.bu.state = 1)) ∧
    (∃ (s : State) (w : BitVec 32), s.bu.bootOk = true ∧ s.bu.rwlLocked = false ∧ (s.bu.state = 0 ∨ s.bu.state = 2) ∧ s.bu.step = 2 ∧ w.getLsbD 24 = true ∧ s.bu.on.getLsbD 0 = true ∧ s.bu.on.getLsbD 2 = true ∧ s.bu.on.getLsbD 3 = true) ∧
    (∃ (s : State) (w : BitVec 32), s.bu.bootOk = true ∧ s.bu.rwlLocked = false ∧ (s.bu.state = 0 ∨ s.bu.state = 2) ∧ (s.bu.step = 3 ∨ s.bu.step = 4) ∧ w.getLsbD 31 = true ∧ s.bu.on.getLsbD 1 = true) ∧
    (∃ (s : State) (w : BitVec 32), s.bu.bootOk = true ∧ s.bu.rwlLocked = false ∧ (s.bu.state = 0 ∨ s.bu.state = 2) ∧ s.bu.step = 4 ∧ w.getLsbD 0 = true ∧ s.bu.on.getLsbD 1 = true) ∧
    (∃ (s : State) (w : BitVec 32), s.bu.bootOk = true ∧ s.bu.rwlLocked = false ∧ (s.bu.state = 0 ∨ s.bu.state = 2) ∧ s.bu.step = 5 ∧ w.getLsbD 0 = true ∧ bits w.toNat 8 4 = 0 ∧ s.bu.on.getLsbD 1 = true) ∧
    (∃ (s : State) (w : BitVec 32), s.bu.bootOk = true ∧ (s.bu.state = 0 ∨ s.bu.state = 2) ∧ s.bu.step = 6 ∧ s.bu.failedStep ≠ 7 ∧ w.getLsbD 0 = true ∧ w.getLsbD 1 = false ∧ (∀ g, g ∈ [0, 1, 6, 7, 8, 9] → s.bu.on.getLsbD g = true)) ∧
    (∃ (s : State) (w : BitVec 32) (g : Nat), s.bu.bootOk = true ∧ (s.bu.state = 0 ∨ s.bu.state = 2) ∧ s.bu.step = 6 ∧ s.bu.failedStep ≠ 7 ∧ w.getLsbD 0 = true ∧ w.getLsbD 1 = false ∧ ([0, 1, 6, 7, 8, 9].find? fun g => !s.bu.on.getLsbD g) = some g) ∧
    (∃ (s : State) (w : BitVec 32), s.bu.bootOk = true ∧ s.bu.state = 2 ∧ s.bu.failedStep = 7 ∧ s.bu.cvOver = true ∧ s.bu.step = 6 ∧ w.getLsbD 0 = false ∧ w.getLsbD 1 = true) ∧
    (∃ (s : State) (w : BitVec 32), s.bu.cvOver = false ∧ w.getLsbD 0 = false) ∧
    (∃ (s : State) (w : BitVec 32) (m : Nat) (f : Nat), s.bu.bootOk = true ∧ (s.bu.state = 0 ∨ s.bu.state = 2) ∧ s.bu.step = 7 ∧ w.getLsbD 0 = false ∧ bits w.toNat 8 4 = 8 ∧ (∀ g, g ∈ [0, 1, 5, 6, 7, 8, 9] → s.bu.on.getLsbD g = true) ∧ m < 61 ∧ f < 32 ∧ (s.field f).fenced = false) ∧
    (∃ (s : State) (w : BitVec 32), s.bu.bootOk = true ∧ (s.bu.state = 0 ∨ s.bu.state = 2) ∧ s.bu.step = 8 ∧ w.getLsbD 0 = false ∧ bits w.toNat 8 4 = 9 ∧ (∀ g, g ∈ [0, 1, 6, 7, 8, 9] → s.bu.on.getLsbD g = true)) ∧
    (∃ (s : State) (w : BitVec 32), s.bu.bootOk = true ∧ (s.bu.state = 0 ∨ s.bu.state = 2) ∧ s.bu.step = 9 ∧ w.getLsbD 0 = false ∧ bits w.toNat 8 4 = 10 ∧ (∀ g, g ∈ [0, 1, 6, 7, 8, 9] → s.bu.on.getLsbD g = true) ∧ portWithoutP0 s = none) ∧
    (∃ (s : State) (w : BitVec 32) (p : Nat), s.bu.bootOk = true ∧ (s.bu.state = 0 ∨ s.bu.state = 2) ∧ s.bu.step = 9 ∧ w.getLsbD 0 = false ∧ bits w.toNat 8 4 = 10 ∧ (∀ g, g ∈ [0, 1, 6, 7, 8, 9] → s.bu.on.getLsbD g = true) ∧ portWithoutP0 s = some p) :=
  ⟨⟨({bu := {bootOk := true, state := 2, en := 1, step := 5}} : State), (0xFFFFFE00 : BitVec 32), by decide +kernel⟩,
   ⟨({bu := {bootOk := true, step := 1}} : State), 1, by decide +kernel⟩,
   ⟨({bu := {bootOk := true, state := 2}} : State), (0xFFFFFFFF : BitVec 32), by decide +kernel⟩,
   ⟨({bu := {bootOk := true, state := 1, step := 1}} : State), by decide +kernel⟩,
   ⟨({bu := {bootOk := true, step := 2, on := 13}} : State), (0x1FFF001 : BitVec 32), by decide +kernel⟩,
   ⟨({bu := {bootOk := true, step := 4, on := 2, imgLen := 9}} : State), (0x80FFF000 : BitVec 32), by decide +kernel⟩,
   ⟨({bu := {bootOk := true, step := 4, on := 2}} : State), 1, by decide +kernel⟩,
   ⟨({bu := {bootOk := true, step := 5, on := 2}} : State), 1, by decide +kernel⟩,
   ⟨({bu := {bootOk := true, step := 6, on := 0x3C3, cvRound := 3, cvOver := true, image := pay 5000 [(24,4,0),(28,4,4096),(48,4,0x12345678)]}, cores := [(2047, {chunks := [(0, [])]})]} : State), 1, by decide +kernel⟩,
   ⟨({bu := {bootOk := true, step := 6, on := 0x383}} : State), 1, 6, by decide +kernel⟩,
   ⟨({bu := {bootOk := true, state := 2, failedStep := 7, cvOver := true, step := 6}} : State), 2, by decide +kernel⟩,
   ⟨({bu := {bootOk := true, state := 2, failedStep := 7, step := 6}} : State), 2, by decide +kernel⟩,
   ⟨({bu := {bootOk := true, step := 7, on := 0x3E3}, tim := {beat := 9}} : State), 0x800, 60, 31, by decide +kernel⟩,
   ⟨({bu := {bootOk := true, step := 8, on := 0x3C3}} : State), 0x900, by decide +kernel⟩,
   ⟨({bu := {bootOk := true, step := 9, on := 0x3C3}, relays := [(0, {tripped := true}), (1, {failed := true})], fields := (List.range 32).map (fun f => (f, {fenced := true}))} : State), (0xA00 : BitVec 32), by decide +kernel⟩,
   ⟨({bu := {bootOk := true, step := 9, on := 0x3C3}} : State), (0xA00 : BitVec 32), 0, by decide +kernel⟩⟩

/-- The hypotheses of `BringupStepsEnd` can be met, clause by clause. -/
theorem test_BringupStepsEnd_met :
    (∃ (s : State), s.bu.running = 0) ∧
    (∃ (s : State) (obs : StepObs), s.bu.running = 1 ∧ s.bu.state = 1 ∧ s.bu.on = 0 ∧ s.bu.en = 1 ∧ obs.good.getLsbD 0 = true) ∧
    (∃ (s : State) (obs : StepObs), s.bu.running = 1 ∧ s.bu.state = 1 ∧ s.bu.on = 0 ∧ s.bu.en = 1 ∧ obs.good.getLsbD 0 = false) ∧
    (∃ (s : State) (obs : StepObs), s.bu.running = 2 ∧ s.pins.refclk = true ∧ obs.plls = BitVec.allOnes 5) ∧
    (∃ (s : State) (obs : StepObs), s.bu.running = 2 ∧ s.pins.refclk = true ∧ obs.plls = 0) ∧
    (∃ (s : State) (n : Nat) (obs : StepObs), s.bu.running = 3 ∧ s.bu.hbmSel = BitVec.allOnes 12 ∧ s.bu.ddrSel = 0 ∧ obs.hbm = BitVec.allOnes 12 ∧ n < 12 ∧ (∀ u, u < 12 → (s.unit u).state = 0)) ∧
    (∃ (s : State) (obs : StepObs), s.bu.running = 3 ∧ obs.hbm = 0 ∧ s.bu.hbmOk = 0) ∧
    (∃ (s : State) (obs : StepObs), s.bu.running = 4 ∧ s.bu.imgAddr ≠ 0 ∧ obs.readError = false ∧ imageBad obs.image (some s.bu.imgLen.toNat) = none) ∧
    (∃ (s : State) (off : Nat) (obs : StepObs), s.bu.running = 4 ∧ s.bu.imgAddr ≠ 0 ∧ obs.readError = false ∧ imageBad obs.image (some s.bu.imgLen.toNat) = some off) ∧
    (∃ (s : State), s.bu.running = 5 ∧ s.bu.attempts < 3) ∧
    (∃ (s : State), s.bu.running = 5 ∧ s.bu.attempts = 3) ∧
    (∃ (s : State), s.bu.running = 6) ∧
    (∃ (s : State) (obs : StepObs), (s.bu.running = 7 ∧ obs.coresBad = [] ∧ repairDue s [] = false) ∧ (∀ c, c < 2048 → (s.coreOf c).verified = true)) ∧
    (∃ (s : State) (obs : StepObs), s.bu.running = 7 ∧ (∀ c, c < 2048 → (s.coreOf c).verified = false) ∧ repairDue s obs.coresBad = false) ∧
    (∃ (s : State) (obs : StepObs), s.bu.running = 7 ∧ repairDue s obs.coresBad = true) ∧
    (∃ (s : State) (obs : StepObs), (s.bu.running = 8 ∧ obs.fieldsOk = BitVec.allOnes 32 ∧ obs.bandsBad = [] ∧ (∀ i, i < 32 → 1500 ≤ (s.lcol i).power)) ∧ (∃ f, f < 32 ∧ (s.field f).fenced = false)) ∧
    (∃ (s : State), s.bu.running = 9) ∧
    (∃ (s : State), s.bu.running = 10 ∧ (∀ i, i < 256 → (s.band i).proc = 0 ∧ (s.band i).queue = [] ∧ (s.band i).suspect = false) ∧ s.link.configured = false) ∧
    (∃ (s : State) (n : Nat), s.bu.running = n ∧ n ∈ [1, 2, 3, 4, 5, 8, 9]) ∧
    (∃ (s : State), s.bu.running = 6) ∧
    (∃ (s : State) (f : Nat) (b : Nat), f < 32 ∧ (s.field f).tlStart = some b ∧ b + 10000000 ≤ s.tim.beat ∧ (s.field f).tlLocked = false ∧ s.bu.running = 8 ∧ (s.field f).fenced = false ∧ s.ops = [] ∧ s.flt.queue = []) ∧
    (∃ (s : State) (f : Nat), (s.field f).tlStart = none) ∧
    (∃ (s : State) (f : Nat) (b : Nat), (s.field f).tlStart = some b ∧ s.tim.beat < b + 10000000) ∧
    (∃ (s : State) (c : Nat) (q : Nat) (l : List (BitVec 8)), s.bu.running = 7 ∧ c < 2048 ∧ chunkGood s l = true ∧ q = bytesAt l 0 2 ∧ (s.coreOf c).chunks.any (fun x => x.1 == q) = false) ∧
    (∃ (s : State) (c : Nat) (l : List (BitVec 8)), (chunkGood s l = false ∨ (s.coreOf c).chunks.any (fun x => x.1 == bytesAt l 0 2) = true)) ∧
    (∃ (s : State), s.bu.running = 7 ∧ s.bu.cvRound < 3) ∧
    (∃ (s : State), 3 ≤ s.bu.cvRound) ∧
    (∃ (s : State) (c : Nat), 7 ≤ s.bu.step ∧ s.flt.deviceError = false ∧ c < 2048) :=
  ⟨⟨({} : State), by decide +kernel⟩,
   ⟨({bu := {state := 1, running := 1, en := 1}, pwr := {on := [217]}} : State), ({good := 1} : StepObs), by decide +kernel⟩,
   ⟨({bu := {state := 1, running := 1, en := 1, step := 5}} : State), ({good := 2} : StepObs), by decide +kernel⟩,
   ⟨({bu := {state := 1, running := 2, step := 1}, tim := {beat := 7, t := 3}} : State), ({plls := 31} : StepObs), by decide +kernel⟩,
   ⟨({bu := {state := 1, running := 2, step := 1}} : State), ({} : StepObs), by decide +kernel⟩,
   ⟨({bu := {running := 3, hbmSel := 0xFFF, ddrSel := 0, step := 2}} : State), 11, ({hbm := 0xFFF} : StepObs), by decide +kernel⟩,
   ⟨({bu := {running := 3, hbmSel := 0xFFF, ddrSel := 0, step := 2}} : State), ({} : StepObs), by decide +kernel⟩,
   ⟨({bu := {running := 4, imgAddr := 4096, imgLen := 12288, authentic := true}} : State), ({image := img} : StepObs), by decide +kernel⟩,
   ⟨({bu := {running := 4, imgAddr := 4096, imgLen := 4096}} : State), 4, ({image := pay 64 [(0,4,0x57545355),(4,2,2)]} : StepObs), by decide +kernel⟩,
   ⟨({bu := {running := 5, attempts := 2}} : State), by decide +kernel⟩,
   ⟨({bu := {running := 5, attempts := 3}} : State), by decide +kernel⟩,
   ⟨({bu := {running := 6, step := 5}} : State), by decide +kernel⟩,
   ⟨({bu := {running := 7, step := 6, cvN := 1, cvRound := 3}, cores := (List.range 2048).map (fun c => (c, {verified := true, chunks := [(0, [])]}))} : State), ({} : StepObs), by decide +kernel, by intro c h; simp only [State.coreOf]; rw [tget_same ({} : Core) ({verified := true, chunks := [(0, [])]} : Core) (List.range 2048) c (List.mem_range.2 h)]⟩,
   ⟨({bu := {running := 7, step := 6, cvRound := 3}} : State), ({} : StepObs), by decide +kernel⟩,
   ⟨({bu := {running := 7, cvRound := 2, cvN := 1, step := 6}} : State), ({} : StepObs), by decide +kernel⟩,
   ⟨({bu := {running := 8, step := 7}, lcols := (List.range 32).map (fun i => (i, {power := 1500})), fields := [(3, {fenced := true})]} : State), ({fieldsOk := 0xFFFFFFFF} : StepObs), by decide +kernel, by exact ⟨31, by decide +kernel, by decide +kernel⟩⟩,
   ⟨({bu := {running := 9}} : State), by decide +kernel⟩,
   ⟨({bu := {running := 10, step := 9}, pwr := {state := 2, on := [3]}} : State), by decide +kernel⟩,
   ⟨({bu := {running := 9, step := 8, state := 1}} : State), 9, by decide +kernel⟩,
   ⟨({bu := {running := 6, step := 5, state := 1}} : State), by decide +kernel⟩,
   ⟨({tim := {beat := 10000005}, bu := {running := 8}, fields := [(31, {tlStart := some 5})]} : State), 31, 5, by decide +kernel⟩,
   ⟨({bu := {running := 8}} : State), 31, by decide +kernel⟩,
   ⟨({tim := {beat := 10000004}, bu := {running := 8}, fields := [(31, {tlStart := some 5})]} : State), 31, 5, by decide +kernel⟩,
   ⟨({bu := {running := 7, cvN := 2, cvTag := 9}, cores := [(2047, {chunks := [(0, [])]}), (5, {chunks := [(1, [])]})]} : State), 2047, 1, ([1, 0, 0, 0, 9, 0, 0, 0, 0, 0, 0, 0, 102, 83, 56, 110, 1, 2, 3, 4] : List (BitVec 8)), by decide +kernel⟩,
   ⟨({bu := {running := 7, cvN := 2, cvTag := 9}, cores := [(2047, {chunks := [(1, [])]})]} : State), 2047, ([1, 0, 0, 0, 9, 0, 0, 0, 0, 0, 0, 0, 102, 83, 56, 110, 1, 2, 3, 4] : List (BitVec 8)), by decide +kernel⟩,
   ⟨({bu := {running := 7, cvRound := 2, cvPhase := 1}} : State), by decide +kernel⟩,
   ⟨({bu := {running := 7, cvRound := 3, cvPhase := 2}} : State), by decide +kernel⟩,
   ⟨({bu := {step := 10}, cores := [(2047, {resident := some (5, 7)})]} : State), 2047, by decide +kernel⟩⟩

/-- The hypotheses of `TemperaturesAct` can be met, clause by clause. -/
theorem test_TemperaturesAct_met :
    (∃ (s : State) (d : Nat) (i : Nat) (v : Int) (x : Int), d < 10 ∧ i < sensorCount d ∧ s.tim.counting = true ∧ s.bu.on.getLsbD 1 = true ∧ (s.sensor (sensorKey d i)).failed = false ∧ converterFailed s d i = false ∧ readAlready s d i = false ∧ sensorTemp s d i v = some x ∧ discards d (s.sensor (sensorKey d i)) x = false) ∧
    (∃ (s : State) (d : Nat) (i : Nat) (v : Int) (x : Int), d < 10 ∧ i < sensorCount d ∧ s.tim.counting = true ∧ s.bu.on.getLsbD 1 = true ∧ (s.sensor (sensorKey d i)).failed = false ∧ converterFailed s d i = false ∧ readAlready s d i = false ∧ sensorTemp s d i v = some x ∧ discards d (s.sensor (sensorKey d i)) x = true ∧ (s.sensor (sensorKey d i)).discards < 2) ∧
    (∃ (s : State) (d : Nat) (i : Nat) (v : Int) (x : Int), d < 10 ∧ i < sensorCount d ∧ s.tim.counting = true ∧ s.bu.on.getLsbD 1 = true ∧ (s.sensor (sensorKey d i)).failed = false ∧ readAlready s d i = false ∧ sensorTemp s d i v = some x ∧ discards d (s.sensor (sensorKey d i)) x = true ∧ (s.sensor (sensorKey d i)).discards = 2) ∧
    (∃ (s : State) (i : Nat) (v : Int) (x : Int), i < 8 ∧ s.tim.counting = true ∧ s.bu.on.getLsbD 1 = true ∧ readAlready s 22 i = false ∧ sensorTemp s 22 i v = some x ∧ pinOutside s 22 i = true) ∧
    (∃ (s : State) (d : Nat) (i : Nat), (d < 10 ∨ d = 22) ∧ readAlready s d i = true) ∧
    (∃ (s : State) (d : Nat) (v : Int), 10 ≤ d ∧ d < 22 ∧ s.tim.counting = true ∧ s.bu.on.getLsbD 1 = true ∧ (s.sensor (sensorKey d 0)).failed = false ∧ discards d (s.sensor (sensorKey d 0)) (32 * v) = false ∧ v < 420) ∧
    (∃ (s : State) (d : Nat) (v : Int), 10 ≤ d ∧ d < 22 ∧ s.tim.counting = true ∧ s.bu.on.getLsbD 1 = true ∧ (s.sensor (sensorKey d 0)).failed = false ∧ discards d (s.sensor (sensorKey d 0)) (32 * v) = false ∧ 420 ≤ v) ∧
    (∃ (s : State) (d : Nat), d < 22 ∧ s.bu.on.getLsbD 1 = true ∧ (s.die d).level ≠ 2 ∧ s.thm.episode = false) ∧
    (∃ (s : State) (d : Nat) (i : Nat) (k : Nat), d < 22 ∧ s.bu.on.getLsbD 1 = true ∧ (s.die d).level = 2 ∧ i < sensorCount d ∧ sensorConverter d i = some k ∧ (s.mon k).aEnable = true ∧ (s.mon k).aTrig.getLsbD 1 = true ∧ (s.mon k).injRun = false ∧ (s.mon k).selfTest = false) ∧
    (∃ (s : State), s.thm.episode = true ∧ s.thm.acked = false ∧ s.thm.enforcing = false ∧ s.thm.startAt + 100 * s.thm.grace ≤ s.tim.beat ∧ s.thm.tile = [0, 0, 0, 0] ∧ (s.die 8).level = 2) ∧
    (∃ (s : State), (s.thm.acked = true ∨ s.tim.beat < s.thm.startAt + 100 * s.thm.grace)) ∧
    (∃ (s : State), s.thm.episode = true ∧ s.thm.acked = true ∧ s.thm.enforcing = false ∧ s.thm.ackAt + 50000 ≤ s.tim.beat ∧ s.thm.tile = [0, 0, 0, 0] ∧ (s.die 8).level = 2) ∧
    (∃ (s : State), s.tim.beat < s.thm.ackAt + 50000 ∧ (∀ d, d < 22 → (s.die d).temp < throttleAt d + 384)) ∧
    (∃ (s : State) (n : Nat), s.thm.episode = true ∧ s.thm.enforcing = true ∧ 1 ≤ n ∧ n ≤ 4 ∧ s.thm.tile = [n, n, n, n] ∧ s.thm.raiseAt = [s.tim.beat, s.tim.beat, s.tim.beat, s.tim.beat] ∧ (s.die 8).level = 2 ∧ (s.die 8).hold = none) ∧
    (∃ (s : State), s.thm.enforcing = false) ∧
    (∃ (s : State) (d : Nat) (i : Nat) (b : Nat), (s.die d).hold = some i ∧ (s.die d).holdFrom = some b ∧ b + 1000000 ≤ s.tim.beat) ∧
    (∃ (s : State) (d : Nat) (b : Nat), (s.die d).holdFrom = some b ∧ s.tim.beat < b + 1000000) ∧
    (∃ (s : State) (d : Nat), d < 22 ∧ s.pins.rstN = true ∧ s.pins.pwrok = true ∧ s.pwr.state < 3) ∧
    (∃ (eta : Nat), 0 < eta) ∧
    (∃ (n : Nat) (beta : Nat), 0 < n ∧ 0 < beta ∧ 12500 * n = 2 ^ 23 * (n * 12500 / 2 ^ 23)) ∧
    (∃ (s : State) (d : Nat) (i : Nat) (a : Int) (b : Int) (x : BitVec 24) (y : BitVec 24), d < 10 ∧ (s.monLast (sensorInput d i)).low = some (s.tim.beat, x) ∧ (s.monLast (sensorInput d i)).high = some (s.tim.beat, y) ∧ a = x.toInt ∧ b = y.toInt) ∧
    (∃ (s : State) (d : Nat) (i : Nat), d < 10 ∧ (s.monLast (sensorInput d i)).high = none) ∧
    (∃ (s : State) (i : Nat), (s.extT i).type = 0) :=
  ⟨⟨({tim := {counting := true}, bu := {on := 2}, monLasts := [(1447, {low := some (0, 0), high := some (0, 501871)})], sensors := [(151, {any := true, reading := 12777, discards := 2, lastDiscard := true})]} : State), 9, 7, 3, 12802, by decide +kernel⟩,
   ⟨({tim := {counting := true}, bu := {on := 2}, monLasts := [(1383, {low := some (0, 1000), high := some (0, 503123)})], sensors := [(127, {any := true, reading := 12800, discards := 1})]} : State), 7, 15, 0, 12826, by decide +kernel⟩,
   ⟨({tim := {counting := true}, bu := {on := 2}, monLasts := [(640, {low := some (0, 0), high := some (0, 313552)})], sensors := [(0, {any := true, reading := -5120, discards := 2})]} : State), 0, 0, 0, (-5121 : Int), by decide +kernel⟩,
   ⟨({tim := {counting := true}, bu := {on := 2}, exts := [(7, {type := 1, eta := 16548})], monLasts := [(1927, {low := some (0, 7653000), high := some (0, 8053982)})]} : State), 7, 0, 3200, by decide +kernel⟩,
   ⟨({tim := {beat := 9}, sensors := [(359, {hist := [(9, 0, false, false)]})]} : State), 22, 7, by decide +kernel⟩,
   ⟨({tim := {counting := true}, bu := {on := 2}, dies := [(21, {level := 1})]} : State), 21, 419, by decide +kernel⟩,
   ⟨({tim := {counting := true}, bu := {on := 2}, ops := [dop 1 []]} : State), 10, 420, by decide +kernel⟩,
   ⟨({tim := {beat := 7}, bu := {on := 2}, dies := [(9, {level := 1})], thm := {acked := true, enforcing := true}} : State), 9, by decide +kernel⟩,
   ⟨({bu := {on := 2}, dies := [(7, {level := 2})], mons := [(43, {aEnable := true, aTrig := 2})]} : State), 7, 15, 43, by decide +kernel⟩,
   ⟨({tim := {beat := 1007}, thm := {episode := true, startAt := 7, grace := 10, tile := [0, 0, 0, 0]}, dies := [(8, {level := 2})]} : State), by decide +kernel⟩,
   ⟨({tim := {beat := 1006}, thm := {episode := true, startAt := 7, grace := 10}, dies := [(8, {level := 2})]} : State), by decide +kernel⟩,
   ⟨({tim := {beat := 50007}, thm := {episode := true, acked := true, ackAt := 7, tile := [0, 0, 0, 0]}, dies := [(8, {level := 2})]} : State), by decide +kernel⟩,
   ⟨({tim := {beat := 50006}, thm := {episode := true, acked := true, ackAt := 7}, dies := [(8, {level := 2, temp := 13823}), (21, {temp := 12543})]} : State), by decide +kernel⟩,
   ⟨({tim := {beat := 7}, thm := {episode := true, enforcing := true, tile := [4, 4, 4, 4], raiseAt := [7, 7, 7, 7]}, dies := [(8, {level := 2})]} : State), 4, by decide +kernel⟩,
   ⟨({thm := {episode := true, tile := [1, 1, 1, 1]}} : State), by decide +kernel⟩,
   ⟨({tim := {beat := 1000005}, dies := [(21, {hold := some 3, holdFrom := some 5, rest := true})]} : State), 21, 3, 5, by decide +kernel⟩,
   ⟨({tim := {beat := 1000004}, dies := [(21, {hold := some 3, holdFrom := some 5, rest := true})]} : State), 21, 5, by decide +kernel⟩,
   ⟨({pins := {rstN := true, pwrok := true}, pwr := {on := [217]}, ops := [dop 1 []]} : State), 21, by decide +kernel⟩,
   ⟨16548, by decide +kernel⟩,
   ⟨0x800000, 3950, by decide +kernel⟩,
   ⟨({tim := {beat := 9}, monLasts := [(1447, {low := some (9, -5), high := some (9, 501871)})]} : State), 9, 7, (-5 : Int), 501871, (-5 : BitVec 24), 501871, by decide +kernel⟩,
   ⟨({monLasts := [(1447, {low := some (0, 5)})]} : State), 9, 7, by decide +kernel⟩,
   ⟨({} : State), 7, by decide +kernel⟩⟩

/-- The hypotheses of `FaultsAct` can be met, clause by clause. -/
theorem test_FaultsAct_met :
    (∃ (s : State) (kind : Nat) (index : Nat) (sub : Nat), s.flt.deviceError = false ∧ unitOut s kind index sub = false ∧ s.ops = [] ∧ s.flt.active = none ∧ disableOn s kind index sub = none ∧ (∀ e, e ∈ s.flt.queue → sameUnit e.kind e.index e.sub kind index sub = false) ∧ s.flt.queue.length < 64) ∧
    (∃ (s : State) (kind : Nat) (index : Nat) (sub : Nat), s.flt.deviceError = false ∧ unitOut s kind index sub = false ∧ s.ops = [] ∧ s.flt.active = none ∧ disableOn s kind index sub = none ∧ (∀ e, e ∈ s.flt.queue → sameUnit e.kind e.index e.sub kind index sub = false) ∧ s.flt.queue.length = 64) ∧
    (∃ (s : State), s.flt.deviceError = true) ∧
    (∃ (s : State) (c : Nat), c < 2048 ∧ s.flt.deviceError = false ∧ (s.field (c / 64)).fenced = false ∧ (s.coreOf c).state ≠ 3 ∧ s.ops = [] ∧ s.flt.active = none ∧ s.flt.disabling = [] ∧ s.flt.queue = []) ∧
    (∃ (s : State) (e : FaultE) (rest : List FaultE), s.flt.active = none ∧ s.flt.queue = e :: rest ∧ s.flt.deviceError = false ∧ fenceCode e.code = true ∧ e.kind = 0 ∧ s.ops = [] ∧ s.light.colFaults = [] ∧ s.flt.log = [] ∧ rest = []) ∧
    (∃ (s : State) (e : FaultE) (rest : List FaultE), s.flt.active = none ∧ s.flt.queue = e :: rest ∧ s.flt.deviceError = false ∧ fenceCode e.code = false ∧ (e.kind = 4 ∨ e.kind = 6) ∧ s.light.colFaults = []) ∧
    (∃ (s : State) (e : FaultE), s.flt.active = some e) ∧
    (∃ (s : State) (e : FaultE), s.flt.active = some e ∧ e.kind = 1 ∧ mayPass s e = true ∧ e.cmds = [] ∧ e.sub < 8 ∧ s.flt.disabling = [] ∧ s.flt.log = []) ∧
    (∃ (s : State) (e : FaultE), s.flt.active = some e ∧ e.kind = 1 ∧ e.cmds = [] ∧ e.sub < 8 ∧ s.flt.disabling = [] ∧ s.ops = [] ∧ s.flt.log = []) ∧
    (∃ (s : State) (e : FaultE), s.flt.active = some e ∧ mayPass s e = false) ∧
    (∃ (s : State), s.flt.active = none) ∧
    (∃ (d : Nat), 128 ≤ d) ∧
    (∃ (s : State) (d : Nat), d < 128 ∧ s.flt.deviceError = false ∧ (s.field (d / 4)).fenced = false ∧ s.ops = [] ∧ s.flt.active = none ∧ s.flt.disabling = [] ∧ s.flt.queue = []) :=
  ⟨⟨({tim := {beat := 0x100000007}, fields := [(31, {bandFenced := 3})], flt := {queue := List.replicate 63 {kind := 1, index := 31}, faults := 0xFFFFFFFF}} : State), 0, 31, 0, by decide +kernel⟩,
   ⟨({flt := {queue := List.replicate 64 {kind := 1, index := 31}}} : State), 0, 31, 0, by decide +kernel⟩,
   ⟨({flt := {deviceError := true}} : State), by decide +kernel⟩,
   ⟨({cores := [(2047, {verified := true})]} : State), 2047, by decide +kernel⟩,
   ⟨({flt := {queue := [{code := 4, kind := 0, index := 31, recovering := true}]}, pwr := {on := [3]}} : State), ({code := 4, kind := 0, index := 31, recovering := true} : FaultE), ([] : List FaultE), by decide +kernel⟩,
   ⟨({tim := {beat := 7}, flt := {queue := [{code := 0x20, kind := 4, index := 3}, {code := 1}], log := [{code := 2}]}, units := [(3, {state := 1})]} : State), ({code := 0x20, kind := 4, index := 3} : FaultE), ([{code := 1}] : List FaultE), by decide +kernel⟩,
   ⟨({flt := {active := some {code := 1}, queue := [{code := 3}]}} : State), ({code := 1} : FaultE), by decide +kernel⟩,
   ⟨({bands := [(255, {bandAt := some 0})], flt := {active := some {code := 1, kind := 1, index := 31, sub := 7, recovering := true}}, fields := [(31, {bandFenced := 0xC0})]} : State), ({code := 1, kind := 1, index := 31, sub := 7, recovering := true} : FaultE), by decide +kernel⟩,
   ⟨({flt := {active := some {code := 1, kind := 1, index := 31, sub := 7, recovering := true}}, fields := [(31, {bandWithheld := 0xC0})]} : State), ({code := 1, kind := 1, index := 31, sub := 7, recovering := true} : FaultE), by decide +kernel⟩,
   ⟨({flt := {active := some {code := 1, kind := 6, index := 23, recovering := true}}} : State), ({code := 1, kind := 6, index := 23, recovering := true} : FaultE), by decide +kernel⟩,
   ⟨({flt := {queue := [{code := 3}]}} : State), by decide +kernel⟩,
   ⟨128, by decide +kernel⟩,
   ⟨({pwr := {on := [127, 128]}} : State), 127, by decide +kernel⟩⟩

end Sys2Proof.Tests
end

section
/-! SUPPORT. The queue of the commands that wait: what each operation of the model leaves of it, in the order of the model's files, and the two
statements about `step` and `exec` that follow. -/

namespace Sys2Proof.Machine

open Sys2Proof State

/-- `t` has the queue of `s`. A hypothesis of a `simp` lemma below says it in this word, not as the equation: `simp` cannot discharge an equation that
holds by unfolding record updates alone. -/
def SameQueue (s t : State) : Prop := t.pending = s.pending

@[simp] theorem sameQueue_iff (s t : State) : SameQueue s t ↔ t.pending = s.pending := ⟨id, id⟩

/-- The outcome is a next state with the queue of `s`. -/
def KeepsQueue (s : State) (o : Host.Outcome State Fault Refusal) : Prop := ∃ t, o = .next t ∧ t.pending = s.pending

@[simp high] theorem foldl_sameQueue {α : Type} (f : State → α → State) (l : List α) (s : State) (h : ∀ s a, SameQueue s (f s a)) :
    (l.foldl f s).pending = s.pending := foldl_pending f l s h

/-! ### Machine/Commands -/

@[simp] theorem startCmd_pending (k : Nat) (commit : Bool) (s : State) : (startCmd k commit s).pending = s.pending := by simp [startCmd]

@[simp] theorem runCmd_pending (k op : Nat) (body : Cmd → State → State × Reply) (s : State) (h : ∀ c, SameQueue s (body c s).1) :
    (runCmd k op body s).pending = s.pending := by
  unfold runCmd
  cases cmdOf s k <;> simp [show ∀ c, (body c s).1.pending = s.pending from h]

@[simp] theorem extendMeas_pending (i : Nat) (d : List Byte) (s : State) : (extendMeas i d s).pending = s.pending := by simp [extendMeas]
@[simp] theorem extendConfig_pending (c : Cmd) (s : State) : (extendConfig c s).pending = s.pending := by simp [extendConfig]

@[simp] theorem checked_pending (l : List (Bool × Reply)) (act : State → State × Reply) (s : State) (h : SameQueue s (act s).1) :
    (checked l act s).1.pending = s.pending := by
  unfold checked
  cases orElse l
  · exact h
  · rfl

@[simp] theorem fst_ite_pending {β : Type} (c : Prop) [Decidable c] (x y : State × β) :
    (if c then x else y).1.pending = if c then x.1.pending else y.1.pending := by split <;> rfl

/-- A mailbox command that checks first and then acts keeps the queue when its act does. -/
@[simp high] theorem runCmd_checked_pending (k op : Nat) (l : Cmd → State → List (Bool × Reply)) (act : Cmd → State → State → State × Reply) (s : State)
    (h : ∀ c, SameQueue s (act c s s).1) : (runCmd k op (fun c s => checked (l c s) (act c s) s) s).pending = s.pending :=
  runCmd_pending _ _ _ _ fun c => checked_pending _ _ _ (h c)

/-! ### Machine/Memory -/

@[simp] theorem putWord_pending (s : State) (w : Nat) (d : BitVec 64) : (putWord s w d).pending = s.pending := by simp [putWord]
@[simp] theorem countCe_pending (u : Nat) (s : State) : (countCe u s).pending = s.pending := by simp [countCe]
@[simp] theorem countUe_pending (u a : Nat) (s : State) : (countUe u a s).pending = s.pending := by simp [countUe]
@[simp] theorem touchAcc_pending (s : State) (w : Nat) (e : BitVec 80) : (touchAcc s w e).pending = s.pending := by simp [touchAcc]

@[simp] theorem touchPlain_pending (s : State) (w : Nat) (e : BitVec 80) : (touchPlain s w e).pending = s.pending := by
  simp only [touchPlain]
  split <;> simp

@[simp] theorem touchWord_pending (s : State) (w : Nat) (e : BitVec 80) : (touchWord s w e).pending = s.pending := by
  simp only [touchWord]
  split <;> simp

@[simp] theorem touchWhere_pending (q : Nat → Bool) (s : State) : (touchWhere q s).pending = s.pending := by simp [touchWhere]
@[simp] theorem touch_pending (a n : Nat) (s : State) : (touch a n s).pending = s.pending := by simp [touch]
@[simp] theorem touchRow_pending (f row : Nat) (s : State) : (touchRow f row s).pending = s.pending := by simp [touchRow]

@[simp] theorem upsetAt_pending (s : State) (a : Nat) (e : BitVec 80) : (upsetAt s a e).pending = s.pending := by
  simp only [upsetAt]
  split <;> simp

@[simp] theorem upset_pending (flips : List (Nat × BitVec 80)) (s : State) : (upset flips s).pending = s.pending := by simp [upset]
@[simp] theorem putByte_pending (s : State) (a : Nat) (v : Byte) : (putByte s a v).pending = s.pending := by simp [putByte]

@[simp] theorem putBytesAt_pending (l : List Byte) (s : State) (a : Nat) : (putBytesAt s a l).pending = s.pending := by
  induction l generalizing s a with
  | nil => rfl
  | cons v l ih => simp [putBytesAt, ih]

@[simp] theorem putPoison_pending (s : State) (w : Nat) (full bad : Bool) : (putPoison s w full bad).pending = s.pending := by simp [putPoison]

@[simp] theorem wrBytes_pending (a : Nat) (l : List Byte) (bad : Nat → Bool) (s : State) : (wrBytes a l bad s).pending = s.pending := by
  simp [wrBytes]

@[simp] theorem wrClean_pending (a : Nat) (l : List Byte) (s : State) : (wrClean a l s).pending = s.pending := by simp [wrClean]
@[simp] theorem hide_pending (x a n : Nat) (s : State) : (hide x a n s).pending = s.pending := by simp [hide]
@[simp] theorem showNow_pending (a n : Nat) (s : State) : (showNow a n s).pending = s.pending := by simp [showNow]
@[simp] theorem wrShown_pending (a : Nat) (l : List Byte) (s : State) : (wrShown a l s).pending = s.pending := by simp [wrShown]
@[simp] theorem zeroRange_pending (a n : Nat) (s : State) : (zeroRange a n s).pending = s.pending := by simp [zeroRange]

/-! ### Machine/PackageNet -/

@[simp] theorem carry_pending (p : NetPkt) (l : List (Nat × Nat)) (s : State) : (carry p l s).1.pending = s.pending := by
  induction l with
  | nil => rfl
  | cons h l ih => unfold carry; split <;> simp [ih]

@[simp] theorem hostAnswer_pending (p : NetPkt) (s : State) : (hostAnswer p s).pending = s.pending := by simp [hostAnswer]

@[simp] theorem respond_pending (d : Nat) (data : List Byte) (poison : List Bool) (s : State) : (respond d data poison s).pending = s.pending := by
  simp [respond]

@[simp] theorem cxlRespond_pending (a n : Nat) (s : State) : (cxlRespond a n s).pending = s.pending := by simp [cxlRespond]

/-! ### Machine/OpCore -/

@[simp] theorem dropMaps_pending (p r n : Nat) (s : State) : (dropMaps p r n s).pending = s.pending := by simp [dropMaps]
@[simp] theorem serveHeld_pending (u : Nat) (s : State) : (serveHeld u s).pending = s.pending := by simp [serveHeld]
@[simp] theorem fenceCore_pending (c : Nat) (s : State) : (fenceCore c s).pending = s.pending := by simp [fenceCore]

@[simp] theorem markFenced_pending (kind index sub : Nat) (s : State) : (markFenced kind index sub s).pending = s.pending := by
  simp only [markFenced]
  split <;> simp

@[simp] theorem endDisable_pending (s : State) (d : Nat × Nat × Nat × Nat × Nat) : (endDisable s d).pending = s.pending := by simp [endDisable]
@[simp] theorem endDisables_pending (s : State) : (endDisables s).pending = s.pending := by simp [endDisables]
@[simp] theorem signalToken_pending (p t n : Nat) (ab : Bool) (s : State) : (signalToken p t n ab s).pending = s.pending := by simp [signalToken]
@[simp] theorem tokenBoundary_pending (p i : Nat) (s : State) : (tokenBoundary p i s).pending = s.pending := by simp [tokenBoundary]
@[simp] theorem releaseEntry_pending (madv : Bool) (i : Nat) (s : State) : (releaseEntry madv i s).pending = s.pending := by simp [releaseEntry]

@[simp] theorem releaseManifest_pending (o : Op) (aborted : Bool) (s : State) : (releaseManifest o aborted s).pending = s.pending := by
  simp [releaseManifest]

@[simp] theorem releaseHeld_pending (o : Op) (s : State) : (releaseHeld o s).pending = s.pending := by simp [releaseHeld]

@[simp] theorem releaseHandle_pending (o : Op) (s : State) : (releaseHandle o s).pending = s.pending := by
  simp only [releaseHandle]
  split <;> simp

@[simp] theorem releaseFields_pending (o : Op) (s : State) : (releaseFields o s).pending = s.pending := by simp [releaseFields]
@[simp] theorem dropUnsent_pending (o : Op) (s : State) : (dropUnsent o s).pending = s.pending := by simp [dropUnsent]
@[simp] theorem countRetired_pending (o : Op) (s : State) : (countRetired o s).pending = s.pending := by simp [countRetired]

@[simp] theorem countAbort_pending (o : Op) (reason : Nat) (s : State) (k : Nat) : (countAbort o reason s k).pending = s.pending := by
  simp only [countAbort]
  split <;> simp

@[simp] theorem releaseCores_pending (o : Op) (s : State) : (releaseCores o s).pending = s.pending := by simp [releaseCores]
@[simp] theorem showFence_pending (o : Op) (aborted : Bool) (s : State) : (showFence o aborted s).pending = s.pending := by simp [showFence]
@[simp] theorem sendWord_pending (a : Nat) (l : List Byte) (s : State) : (sendWord a l s).pending = s.pending := by simp [sendWord]

@[simp] theorem retire_pending (k : Nat) (aborted : Bool) (reason detail : Nat) (s : State) : (retire k aborted reason detail s).pending = s.pending := by
  simp only [retire]
  (repeat' split) <;> simp

@[simp] theorem retireAll_pending (ks : List Nat) (reason : Nat) (s : State) : (retireAll ks reason s).pending = s.pending := by simp [retireAll]

/-! ### Machine/CalKeys -/

@[simp] theorem calSet_pending (v : Nat × Int) (s : State) : (calSet v s).pending = s.pending := by simp [calSet]

@[simp] theorem loadValue_pending (s : State) (k : Nat) : (loadValue s k).pending = s.pending := by
  simp only [loadValue]
  split <;> simp

@[simp] theorem calCmdEnd_pending (k : Nat) (s : State) : (calCmdEnd k s).pending = s.pending := by
  simp only [calCmdEnd]
  (repeat' split) <;> simp

@[simp] theorem clearDrive_pending (i : Nat) (s : State) : (clearDrive i s).pending = s.pending := by simp [clearDrive]
@[simp] theorem restoreTrims_pending (keys : List Nat) (s : State) : (restoreTrims keys s).pending = s.pending := by simp [restoreTrims]

@[simp] theorem dropProc_pending (i : Nat) (s : State) : (dropProc i s).pending = s.pending := by
  simp only [dropProc]
  split <;> simp

@[simp] theorem startProc_pending (f b proc : Nat) (rest : List Nat) (cmd : Option Nat) (s : State) :
    (startProc f b proc rest cmd s).pending = s.pending := by simp [startProc]

/-! ### Machine/Faults -/

@[simp] theorem stopUnit_pending (kind index sub : Nat) (s : State) : (stopUnit kind index sub s).pending = s.pending := by
  simp only [stopUnit]
  split <;> simp

@[simp] theorem contain_pending (kind index sub : Nat) (s : State) : (contain kind index sub s).pending = s.pending := by simp [contain]
@[simp] theorem enterDeviceError_pending (cause : Nat) (s : State) : (enterDeviceError cause s).pending = s.pending := by simp [enterDeviceError]
@[simp] theorem logFault_pending (e : FaultE) (outcome : Nat) (s : State) : (logFault e outcome s).pending = s.pending := by simp [logFault]
@[simp] theorem supersede_pending (f : Nat) (s : State) : (supersede f s).pending = s.pending := by simp [supersede]

@[simp] theorem fenceFor_pending (e : FaultE) (s : State) : (fenceFor e s).pending = s.pending := by
  simp only [fenceFor]
  split <;> simp

@[simp] theorem closeFenced_pending (e : FaultE) (s : State) : (closeFenced e s).pending = s.pending := by simp [closeFenced]
@[simp] theorem answerEnable_pending (e : FaultE) (r : Reply) (s : State) : (answerEnable e r s).pending = s.pending := by simp [answerEnable]

@[simp] theorem disableNow_pending (d : Nat × Nat × Nat × Nat × Nat) (status : Nat) (s : State) : (disableNow d status s).pending = s.pending := by
  simp [disableNow]

@[simp] theorem enqueueFault_pending (e : FaultE) (s : State) : (enqueueFault e s).pending = s.pending := by simp [enqueueFault]

@[simp] theorem failActive_pending (s : State) : (failActive s).pending = s.pending := by
  simp only [failActive]
  (repeat' split) <;> simp

@[simp] theorem noteColour_pending (code kind index detail : Nat) (s : State) : (noteColour code kind index detail s).pending = s.pending := by
  simp [noteColour]

@[simp] theorem raiseFault_pending (code kind index sub detail : Nat) (s : State) : (raiseFault code kind index sub detail s).pending = s.pending := by
  simp only [raiseFault]
  (repeat' split) <;> simp

@[simp] theorem triggerRetrain_pending (u : Nat) (s : State) : (triggerRetrain u s).pending = s.pending := by simp [triggerRetrain]

@[simp] theorem startRecovery_pending (e : FaultE) (s : State) : (startRecovery e s).pending = s.pending := by
  simp only [startRecovery]
  split <;> simp

@[simp] theorem zeroUnit_pending (u : Nat) (s : State) : (zeroUnit u s).pending = s.pending := by simp [zeroUnit]

@[simp] theorem returnUnit_pending (e : FaultE) (s : State) : (returnUnit e s).pending = s.pending := by
  simp only [returnUnit]
  split <;> simp

@[simp] theorem recalibrate_pending (s : State) (i : Nat) : (recalibrate s i).pending = s.pending := by simp [recalibrate]
@[simp] theorem lateColour_pending (e : FaultE) (s : State) : (lateColour e s).pending = s.pending := by simp [lateColour]
@[simp] theorem disableColour_pending (g : Nat) (s : State) : (disableColour g s).pending = s.pending := by simp [disableColour]

@[simp] theorem takeFault_pending (s : State) : (takeFault s).pending = s.pending := by
  simp only [takeFault]
  (repeat' split) <;> simp

@[simp] theorem endRecovery_pending (pass : Bool) (s : State) : (endRecovery pass s).pending = s.pending := by
  simp only [endRecovery]
  (repeat' split) <;> simp

@[simp] theorem execFaultDetect_keepsQueue (code kind index sub detail : Nat) (s : State) :
    KeepsQueue s (execFaultDetect code kind index sub detail s) := ⟨_, rfl, by simp⟩

@[simp] theorem execCoreHeartbeatMiss_keepsQueue (c : Nat) (s : State) : KeepsQueue s (execCoreHeartbeatMiss c s) := ⟨_, rfl, by simp⟩
@[simp] theorem execFaultQueueTake_keepsQueue (s : State) : KeepsQueue s (execFaultQueueTake s) := ⟨_, rfl, by simp⟩
@[simp] theorem execRecoveryEnd_keepsQueue (pass : Bool) (s : State) : KeepsQueue s (execRecoveryEnd pass s) := ⟨_, rfl, by simp⟩
@[simp] theorem execStewardWatchdogExpiry_keepsQueue (s : State) : KeepsQueue s (execStewardWatchdogExpiry s) := ⟨_, rfl, by simp⟩
@[simp] theorem execDeviceFault_keepsQueue (cause : Nat) (s : State) : KeepsQueue s (execDeviceFault cause s) := ⟨_, rfl, by simp⟩
@[simp] theorem execDomainPowerGoodLoss_keepsQueue (d : Nat) (s : State) : KeepsQueue s (execDomainPowerGoodLoss d s) := ⟨_, rfl, by simp⟩

@[simp] theorem cancelEntries_pending (kind index sub : Nat) (s : State) : (cancelEntries kind index sub s).pending = s.pending := by
  simp [cancelEntries]

@[simp] theorem execDevUnitDisable_keepsQueue (k : Nat) (s : State) : KeepsQueue s (execDevUnitDisable k s) := ⟨_, rfl, by simp⟩

@[simp] theorem execDisableGracefulTimeout_keepsQueue (k : Nat) (s : State) : KeepsQueue s (execDisableGracefulTimeout k s) := by
  refine ⟨_, rfl, ?_⟩
  split <;> simp

@[simp] theorem execDevUnitEnable_keepsQueue (k : Nat) (s : State) : KeepsQueue s (execDevUnitEnable k s) := ⟨_, rfl, by simp⟩

/-! ### Machine/Light -/

@[simp] theorem setTestV_pending (k : Nat) (v : Int) (s : State) : (setTestV k v s).pending = s.pending := by simp [setTestV]
@[simp] theorem trigger_pending (k t : Nat) (s : State) : (trigger k t s).pending = s.pending := by simp [trigger]

@[simp] theorem readTap_pending (b : Nat) (s : State) (i : Nat) : (readTap b s i).pending = s.pending := by
  simp only [readTap]
  split <;> simp

@[simp] theorem setComp_pending (n g : Nat) (v : Int) (s : State) : (setComp n g v s).pending = s.pending := by simp [setComp]

@[simp] theorem lapseRelay_pending (x : Nat) (s : State) : (lapseRelay x s).pending = s.pending := by
  simp only [lapseRelay]
  (repeat' split) <;> simp

@[simp] theorem assignRelay_pending (x n : Nat) (cmd : Option Nat) (s : State) : (assignRelay x n cmd s).pending = s.pending := by simp [assignRelay]

@[simp] theorem requestSwitch_pending (n dst : Nat) (cmd : Option Nat) (s : State) : (requestSwitch n dst cmd s).pending = s.pending := by
  simp [requestSwitch]

@[simp] theorem reachF1_pending (n : Nat) (s : State) : (reachF1 n s).pending = s.pending := by
  unfold reachF1
  cases assignedRelay s n <;> cases freeRelay s <;> simp

@[simp] theorem settleF1_pending (s : State) : (settleF1 s).pending = s.pending := by simp [settleF1]
@[simp] theorem assignTarget_pending (t n : Nat) (s : State) : (assignTarget t n s).pending = s.pending := by simp [assignTarget]

@[simp] theorem reachF2_pending (n : Nat) (s : State) : (reachF2 n s).pending = s.pending := by
  simp only [reachF2]
  (repeat' split) <;> simp

@[simp] theorem reachF3_pending (n : Nat) (s : State) : (reachF3 n s).pending = s.pending := by simp [reachF3]
@[simp] theorem levelRose_pending (n old : Nat) (s : State) : (levelRose n old s).pending = s.pending := by simp [levelRose]

@[simp] theorem flagOps_pending (flag : Nat) (b : Nat) (onField : Nat → Bool) (onColour : Nat → Bool) (s : State) :
    (flagOps flag b onField onColour s).pending = s.pending := by simp [flagOps]

@[simp] theorem flagLight_pending (n g b : Nat) (s : State) : (flagLight n g b s).pending = s.pending := by simp [flagLight]
@[simp] theorem evalFade_pending (n g : Nat) (d : Int) (s : State) : (evalFade n g d s).pending = s.pending := by simp [evalFade]
@[simp] theorem failQuantity_pending (i proc key : Nat) (s : State) : (failQuantity i proc key s).pending = s.pending := by simp [failQuantity]
@[simp] theorem floorCheck_pending (n g : Nat) (s : State) : (floorCheck n g s).pending = s.pending := by simp [floorCheck]

@[simp] theorem tapActs_pending (i : Nat) (out : Int) (s : State) : (tapActs i out s).pending = s.pending := by
  simp only [tapActs]
  (repeat' split) <;> simp

@[simp] theorem prelockActs_pending (lane : Nat) (out : Int) (s : State) : (prelockActs lane out s).pending = s.pending := by
  simp only [prelockActs]
  split <;> simp

@[simp] theorem relayCheck_pending (s : State) (x : Nat) : (relayCheck s x).pending = s.pending := by simp [relayCheck]

@[simp] theorem lapseNormal_pending (s : State) (n : Nat) : (lapseNormal s n).pending = s.pending := by
  simp only [lapseNormal]
  (repeat' split) <;> simp

@[simp] theorem lightEdge_pending (s : State) : (lightEdge s).pending = s.pending := by simp [lightEdge]
@[simp] theorem execFadeLevelFall_keepsQueue (n g : Nat) (s : State) : KeepsQueue s (execFadeLevelFall n g s) := ⟨_, rfl, by simp⟩

@[simp] theorem execFadeComparatorTrip_keepsQueue (n g : Nat) (s : State) : KeepsQueue s (execFadeComparatorTrip n g s) := by
  refine ⟨_, rfl, ?_⟩
  simp only
  (repeat' split) <;> simp

@[simp] theorem execRelayRecovered_keepsQueue (x : Nat) (s : State) : KeepsQueue s (execRelayRecovered x s) := ⟨_, rfl, by simp⟩

@[simp] theorem finishAssign_pending (x : Nat) (s : State) : (finishAssign x s).pending = s.pending := by
  simp only [finishAssign]
  split <;> simp

@[simp] theorem execRelayPrelockDone_keepsQueue (x : Nat) (s : State) : KeepsQueue s (execRelayPrelockDone x s) := ⟨_, rfl, by simp⟩
@[simp] theorem restartOn_pending (fs : List Nat) (s : State) : (restartOn fs s).pending = s.pending := by simp [restartOn]
@[simp] theorem execLightPauseStart_keepsQueue (s : State) : KeepsQueue s (execLightPauseStart s) := ⟨_, rfl, by simp⟩
@[simp] theorem reacquire_pending (fs : List Nat) (s : State) : (reacquire fs s).pending = s.pending := by simp [reacquire]
@[simp] theorem startQuick_pending (fs : List Nat) (s : State) : (startQuick fs s).pending = s.pending := by simp [startQuick]
@[simp] theorem dropSource_pending (src : Nat) (s : State) : (dropSource src s).pending = s.pending := by simp [dropSource]
@[simp] theorem settleOn_pending (n dst : Nat) (s : State) : (settleOn n dst s).pending = s.pending := by simp [settleOn]

@[simp] theorem execRelaySettled_keepsQueue (n : Nat) (s : State) : KeepsQueue s (execRelaySettled n s) := by
  refine ⟨_, rfl, ?_⟩
  simp only
  (repeat' split) <;> simp

@[simp] theorem endSwitch_pending (s : State) (n : Nat) : (endSwitch s n).pending = s.pending := by
  simp only [endSwitch]
  split <;> simp

@[simp] theorem execLightPauseEnd_keepsQueue (s : State) : KeepsQueue s (execLightPauseEnd s) := ⟨_, rfl, by simp⟩
@[simp] theorem rescaleTaps_pending (delta : Int) (s : State) : (rescaleTaps delta s).pending = s.pending := by simp [rescaleTaps]
@[simp] theorem storeP0_pending (refl : Bool) (s : State) (n : Nat) : (storeP0 refl s n).pending = s.pending := by simp [storeP0]
@[simp] theorem execLightCommission_keepsQueue (k : Nat) (refl : Int) (s : State) : KeepsQueue s (execLightCommission k refl s) := ⟨_, rfl, by simp⟩
@[simp] theorem execLightRelayAssign_keepsQueue (k : Nat) (s : State) : KeepsQueue s (execLightRelayAssign k s) := ⟨_, rfl, by simp⟩
@[simp] theorem execLightRelaySwitch_keepsQueue (k : Nat) (s : State) : KeepsQueue s (execLightRelaySwitch k s) := ⟨_, rfl, by simp⟩
@[simp] theorem execLightRelayRelease_keepsQueue (k : Nat) (s : State) : KeepsQueue s (execLightRelayRelease k s) := ⟨_, rfl, by simp⟩

/-! ### Machine/Monitor -/

@[simp] theorem toRing_pending (bytes : List Byte) (s : State) : (toRing bytes s).pending = s.pending := by simp [toRing]
@[simp] theorem coolBad_pending (s : State) : (coolBad s).pending = s.pending := by simp [coolBad]
@[simp] theorem coolRef_pending (code : Int) (n : Nat) (s : State) : (coolRef code n s).pending = s.pending := by simp [coolRef]

@[simp] theorem coolRefEdge_pending (s : State) : (coolRefEdge s).pending = s.pending := by
  simp only [coolRefEdge]
  (repeat' split) <;> simp

@[simp] theorem coolEdge_pending (s : State) : (coolEdge s).pending = s.pending := by simp [coolEdge]
@[simp] theorem execCoolpwmWindow_keepsQueue (high : Nat) (s : State) : KeepsQueue s (execCoolpwmWindow high s) := ⟨_, rfl, by simp⟩
@[simp] theorem execCoolantPwmLost_keepsQueue (s : State) : KeepsQueue s (execCoolantPwmLost s) := ⟨_, rfl, by simp⟩

@[simp] theorem deliver_pending (k i : Nat) (v : Int) (inj ihi : Bool) (first : Nat) (s : State) : (deliver k i v inj ihi first s).pending = s.pending := by
  simp [deliver]

@[simp] theorem monConsumers_pending (s : State) : (monConsumers s).pending = s.pending := by simp [monConsumers]

@[simp] theorem judgeSelfTest_pending (k : Nat) (s : State) : (judgeSelfTest k s).pending = s.pending := by
  simp only [judgeSelfTest]
  split <;> simp

@[simp] theorem endInjSlot_pending (k : Nat) (v : Int) (s : State) : (endInjSlot k v s).pending = s.pending := by simp [endInjSlot]
@[simp] theorem endSlot_pending (k : Nat) (v : Int) (s : State) : (endSlot k v s).pending = s.pending := by simp [endSlot]
@[simp] theorem execMonitorSlotEnd_keepsQueue (k : Nat) (v : Int) (s : State) : KeepsQueue s (execMonitorSlotEnd k v s) := ⟨_, rfl, by simp⟩
@[simp] theorem execMonitorInjectTrigger_keepsQueue (k trig : Nat) (s : State) : KeepsQueue s (execMonitorInjectTrigger k trig s) := ⟨_, rfl, by simp⟩

@[simp] theorem startSelfTest_pending (k : Nat) (cmd : Option Nat) (s : State) : (startSelfTest k cmd s).pending = s.pending := by
  simp [startSelfTest]

@[simp] theorem execMonitorSelftestRun_keepsQueue (k : Nat) (s : State) : KeepsQueue s (execMonitorSelftestRun k s) := ⟨_, rfl, by simp⟩
@[simp] theorem monitorFrames_pending (s : State) : (monitorFrames s).pending = s.pending := by simp [monitorFrames]
@[simp] theorem writeMonCtrl_pending (k v msk : Nat) (s : State) : (writeMonCtrl k v msk s).pending = s.pending := by simp [writeMonCtrl]
@[simp] theorem writeMonInj_pending (k v msk : Nat) (s : State) : (writeMonInj k v msk s).pending = s.pending := by simp [writeMonInj]
@[simp] theorem writeMonSeq_pending (k w v msk : Nat) (s : State) : (writeMonSeq k w v msk s).pending = s.pending := by simp [writeMonSeq]
@[simp] theorem writeRingCtrl_pending (v msk : Nat) (s : State) : (writeRingCtrl v msk s).pending = s.pending := by simp [writeRingCtrl]
@[simp] theorem execMonCommitWrite_keepsQueue (k : Nat) (w : BitVec 32) (s : State) : KeepsQueue s (execMonCommitWrite k w s) := ⟨_, rfl, by simp⟩

@[simp] theorem execMonHostInjectWrite_keepsQueue (k : Nat) (w : BitVec 32) (s : State) : KeepsQueue s (execMonHostInjectWrite k w s) :=
  ⟨_, rfl, by simp⟩

@[simp] theorem execMonRingOnWrite_keepsQueue (w : BitVec 32) (s : State) : KeepsQueue s (execMonRingOnWrite w s) := ⟨_, rfl, by simp⟩

/-! ### Machine/Loops -/

@[simp] theorem testTick_pending (n : Nat) (s : State) : (testTick n s).pending = s.pending := by simp [testTick]
@[simp] theorem capture_pending (n : Nat) (y r : Int) (missed : Bool) (s : State) : (capture n y r missed s).pending = s.pending := by simp [capture]
@[simp] theorem presetBand_pending (f b : Nat) (s : State) : (presetBand f b s).pending = s.pending := by simp [presetBand]
@[simp] theorem returnBand_pending (i : Nat) (s : State) : (returnBand i s).pending = s.pending := by simp [returnBand]
@[simp] theorem loseLock_pending (f b : Nat) (s : State) : (loseLock f b s).pending = s.pending := by simp [loseLock]
@[simp] theorem flagSlew_pending (b : Nat) (s : State) (f : Nat) : (flagSlew b s f).pending = s.pending := by simp [flagSlew]
@[simp] theorem noteTemp_pending (n : Nat) (y : Int) (s : State) : (noteTemp n y s).pending = s.pending := by simp [noteTemp]
@[simp] theorem headroom_pending (n : Nat) (s : State) : (headroom n s).pending = s.pending := by simp [headroom]
@[simp] theorem stuckCheck_pending (n : Nat) (s : State) : (stuckCheck n s).pending = s.pending := by simp [stuckCheck]

@[simp] theorem skipSlot_pending (n : Nat) (y : Int) (miss fail held : Bool) (s : State) : (skipSlot n y miss fail held s).pending = s.pending := by
  simp only [skipSlot]
  split <;> simp

@[simp] theorem lawSlot_pending (n : Nat) (y : Int) (s : State) : (lawSlot n y s).pending = s.pending := by simp [lawSlot]
@[simp] theorem driveSlot_pending (n : Nat) (y : Int) (s : State) : (driveSlot n y s).pending = s.pending := by simp [driveSlot]

@[simp] theorem execLoopSlotCompute_keepsQueue (slot : Nat) (y : Int) (st : InputState) (s : State) : KeepsQueue s (execLoopSlotCompute slot y st s) := by
  refine ⟨_, rfl, ?_⟩
  simp only
  (repeat' split) <;> simp

@[simp] theorem writeSlotWord0_pending (n : Nat) (w msk : BitVec 32) (s : State) : (writeSlotWord0 n w msk s).pending = s.pending := by
  simp [writeSlotWord0]

@[simp] theorem execLpFreezeWrite_keepsQueue (n : Nat) (w : BitVec 32) (s : State) : KeepsQueue s (execLpFreezeWrite n w s) := ⟨_, rfl, by simp⟩
@[simp] theorem execLoopFreezeTimeout_keepsQueue (n : Nat) (s : State) : KeepsQueue s (execLoopFreezeTimeout n s) := ⟨_, rfl, by simp⟩
@[simp] theorem freezeEdge_pending (n : Nat) (s : State) : (freezeEdge n s).pending = s.pending := by simp [freezeEdge]
@[simp] theorem writeTestCtrl_pending (v msk : Nat) (s : State) : (writeTestCtrl v msk s).pending = s.pending := by simp [writeTestCtrl]
@[simp] theorem execLpTestStart_keepsQueue (w : BitVec 32) (s : State) : KeepsQueue s (execLpTestStart w s) := ⟨_, rfl, by simp⟩
@[simp] theorem execLpTestStop_keepsQueue (w : BitVec 32) (s : State) : KeepsQueue s (execLpTestStop w s) := ⟨_, rfl, by simp⟩
@[simp] theorem execCaptureBufferFull_keepsQueue (s : State) : KeepsQueue s (execCaptureBufferFull s) := ⟨_, rfl, by simp⟩

@[simp] theorem testStartEdge_pending (s : State) : (testStartEdge s).pending = s.pending := by
  simp only [testStartEdge]
  (repeat' split) <;> simp

@[simp] theorem testStopEdge_pending (s : State) : (testStopEdge s).pending = s.pending := by simp [testStopEdge]
@[simp] theorem latchOffsets_pending (s : State) : (latchOffsets s).pending = s.pending := by simp [latchOffsets]
@[simp] theorem loopEdge_pending (s : State) : (loopEdge s).pending = s.pending := by simp [loopEdge]
@[simp] theorem execThermalPauseStart_keepsQueue (f : Nat) (s : State) : KeepsQueue s (execThermalPauseStart f s) := ⟨_, rfl, by simp⟩
@[simp] theorem thermalEdge_pending (s : State) : (thermalEdge s).pending = s.pending := by simp [thermalEdge]
@[simp] theorem execThermalPauseEnd_keepsQueue (f : Nat) (s : State) : KeepsQueue s (execThermalPauseEnd f s) := ⟨_, rfl, by simp⟩

/-! ### Machine/Calib -/

@[simp] theorem abandonProc_pending (i : Nat) (s : State) : (abandonProc i s).pending = s.pending := by simp [abandonProc]
@[simp] theorem postAbandoned_pending (i proc : Nat) (s : State) : (postAbandoned i proc s).pending = s.pending := by simp [postAbandoned]
@[simp] theorem voidRun_pending (i start : Nat) (s : State) : (voidRun i start s).pending = s.pending := by simp [voidRun]
@[simp] theorem addSymbols_pending (k : Nat) (bad : Bool) (i : Nat) (s : State) : (addSymbols k bad i s).pending = s.pending := by simp [addSymbols]
@[simp] theorem dropQuick_pending (n : Nat) (s : State) : (dropQuick n s).pending = s.pending := by simp [dropQuick]
@[simp] theorem addQuick_pending (k : Nat) (bad : Bool) (i : Nat) (s : State) : (addQuick k bad i s).pending = s.pending := by simp [addQuick]

@[simp] theorem nextPoint_pending (i now : Nat) (vals : List (Nat × Int)) (s : State) : (nextPoint i now vals s).pending = s.pending := by
  simp [nextPoint]

@[simp] theorem finishProc_pending (i : Nat) (vals : List (Nat × Int)) (s : State) : (finishProc i vals s).pending = s.pending := by
  simp only [finishProc]
  split <;> simp

@[simp] theorem takePoint_pending (i : Nat) (q : List PointEst) (s : State) : (takePoint i q s).pending = s.pending := by
  simp only [takePoint]
  (repeat' split) <;> simp

@[simp] theorem failQuick_pending (i key : Nat) (s : State) : (failQuick i key s).pending = s.pending := by simp [failQuick]

@[simp] theorem takeQuick_pending (i : Nat) (q : List PointEst) (s : State) : (takeQuick i q s).pending = s.pending := by
  simp only [takeQuick]
  (repeat' split) <;> simp

@[simp] theorem execCalRunComplete_keepsQueue (f b : Nat) (q : List PointEst) (s : State) : KeepsQueue s (execCalRunComplete f b q s) := by
  refine ⟨_, rfl, ?_⟩
  simp only
  (repeat' split) <;> simp

@[simp] theorem applyProc_pending (i : Nat) (s : State) : (applyProc i s).pending = s.pending := by
  simp only [applyProc]
  (repeat' split) <;> simp

@[simp] theorem withhold_pending (i : Nat) (s : State) : (withhold i s).pending = s.pending := by simp [withhold]
@[simp] theorem calibrateField_pending (s : State) (f : Nat) : (calibrateField s f).pending = s.pending := by simp [calibrateField]

@[simp] theorem recoveryEdge_pending (s : State) : (recoveryEdge s).pending = s.pending := by
  simp only [recoveryEdge]
  split <;> simp

@[simp] theorem beginProc_pending (i : Nat) (s : State) : (beginProc i s).pending = s.pending := by
  simp only [beginProc]
  split <;> simp

@[simp] theorem fieldProc_pending (f : Nat) (s : State) : (fieldProc f s).pending = s.pending := by simp [fieldProc]

@[simp] theorem sliceTrim_pending (key : Nat) (off gain skew : Int) (s : State) : (sliceTrim key off gain skew s).pending = s.pending := by
  simp [sliceTrim]

@[simp] theorem channelTrim_pending (f ch : Nat) (x : Field) (s : State) (i : Nat) : (channelTrim f ch x s i).pending = s.pending := by
  simp [channelTrim]

@[simp] theorem slicesEdge_pending (f : Nat) (s : State) : (slicesEdge f s).pending = s.pending := by simp [slicesEdge]
@[simp] theorem kaEnd_pending (k : Nat) (s : State) : (kaEnd k s).pending = s.pending := by simp [kaEnd]
@[simp] theorem refvLost_pending (s : State) : (refvLost s).pending = s.pending := by simp [refvLost]
@[simp] theorem clearUser_pending (s : State) : (clearUser s).pending = s.pending := by simp [clearUser]
@[simp] theorem trimRoundEdge_pending (s : State) : (trimRoundEdge s).pending = s.pending := by simp [trimRoundEdge]
@[simp] theorem runsEdge_pending (i : Nat) (s : State) : (runsEdge i s).pending = s.pending := by simp [runsEdge]
@[simp] theorem execQuickGainDone_keepsQueue (n : Nat) (s : State) : KeepsQueue s (execQuickGainDone n s) := ⟨_, rfl, by simp⟩
@[simp] theorem quickEdge_pending (n : Nat) (s : State) : (quickEdge n s).pending = s.pending := by simp [quickEdge]

@[simp] theorem kaStart_pending (f : Nat) (s : State) : (kaStart f s).pending = s.pending := by
  simp only [kaStart]
  split <;> simp

@[simp] theorem calEdge_pending (refvOk : Bool) (s : State) : (calEdge refvOk s).pending = s.pending := by simp [calEdge]

@[simp] theorem execCalCadenceTick_keepsQueue (p : Nat) (s : State) : KeepsQueue s (execCalCadenceTick p s) := by
  refine ⟨_, rfl, ?_⟩
  split
  · rfl
  · refine foldl_pending _ _ _ fun s f => ?_
    split
    · simp
    · split <;> simp

@[simp] theorem execCalRun_keepsQueue (k : Nat) (s : State) : KeepsQueue s (execCalRun k s) := ⟨_, rfl, by simp⟩
@[simp] theorem undoCalRun_pending (k : Nat) (s : State) : (undoCalRun k s).pending = s.pending := by simp [undoCalRun]
@[simp] theorem execCalCadence_keepsQueue (k : Nat) (s : State) : KeepsQueue s (execCalCadence k s) := ⟨_, rfl, by simp⟩
@[simp] theorem execCalUserClear_keepsQueue (k : Nat) (s : State) : KeepsQueue s (execCalUserClear k s) := ⟨_, rfl, by simp⟩
@[simp] theorem execCalBandHold_keepsQueue (k : Nat) (s : State) : KeepsQueue s (execCalBandHold k s) := ⟨_, rfl, by simp⟩
@[simp] theorem execCalBandRelease_keepsQueue (k : Nat) (s : State) : KeepsQueue s (execCalBandRelease k s) := ⟨_, rfl, by simp⟩

@[simp] theorem execCalVerify_keepsQueue (k : Nat) (s : State) : KeepsQueue s (execCalVerify k s) := by
  refine ⟨_, rfl, ?_⟩
  simp only
  split <;> simp

/-! ### Machine/Quant -/

@[simp] theorem touchAll_pending (l : List (Nat × Nat)) (s : State) : (touchAll l s).pending = s.pending := by simp [touchAll]

/-! ### Machine/Tiles -/

@[simp] theorem stageTile_pending (o : Op) (p : GPos) (f : Nat) (s : State) : (stageTile o p f s).pending = s.pending := by simp [stageTile]
@[simp] theorem advanceSlots_pending (t : Nat) (s : State) (f : Nat) : (advanceSlots t s f).pending = s.pending := by simp [advanceSlots]
@[simp] theorem bandsFilled_pending (f frm dst : Nat) (s : State) : (bandsFilled f frm dst s).pending = s.pending := by simp [bandsFilled]
@[simp] theorem startFill_pending (f t : Nat) (s : State) : (startFill f t s).pending = s.pending := by simp [startFill]

@[simp] theorem execLoaderBufferLoaded_keepsQueue (f t : Nat) (s : State) : KeepsQueue s (execLoaderBufferLoaded f t s) := by
  refine ⟨_, rfl, ?_⟩
  simp only
  split <;> simp

@[simp] theorem fillShadow_pending (f : Nat) (s : State) : (fillShadow f s).pending = s.pending := by simp [fillShadow]
@[simp] theorem execFillComplete_keepsQueue (f t : Nat) (s : State) : KeepsQueue s (execFillComplete f t s) := ⟨_, rfl, by simp⟩
@[simp] theorem swapField_pending (f : Nat) (s : State) : (swapField f s).pending = s.pending := by simp [swapField]

@[simp] theorem execSwap_keepsQueue (f t : Nat) (s : State) : KeepsQueue s (execSwap f t s) := by
  refine ⟨_, rfl, ?_⟩
  (repeat' split) <;> simp

@[simp] theorem refreshEdge_pending (f : Nat) (s : State) : (refreshEdge f s).pending = s.pending := by simp [refreshEdge]
@[simp] theorem execPendingTileReload_keepsQueue (f : Nat) (s : State) : KeepsQueue s (execPendingTileReload f s) := ⟨_, rfl, by simp⟩
@[simp] theorem execPendingRewrite_keepsQueue (f t : Nat) (s : State) : KeepsQueue s (execPendingRewrite f t s) := ⟨_, rfl, by simp⟩
@[simp] theorem execTrimRoundStart_keepsQueue (s : State) : KeepsQueue s (execTrimRoundStart s) := ⟨_, rfl, by simp⟩

/-! ### Machine/Slots -/

@[simp] theorem setModes_pending (o : Op) (fs : List Nat) (root : Nat) (s : State) (f : Nat) : (setModes o fs root s f).pending = s.pending := by
  simp [setModes]

@[simp] theorem startSlice_pending (o : Op) (p : GPos) (t : Nat) (s : State) : (startSlice o p t s).pending = s.pending := by simp [startSlice]

@[simp] theorem claimGroup_pending (edge : Bool) (key root : Nat) (s : State) : (claimGroup edge key root s).pending = s.pending := by
  simp only [claimGroup]
  split <;> simp

@[simp] theorem claimEdge_pending (s : State) : (claimEdge s).pending = s.pending := by simp [claimEdge]
@[simp] theorem openSlices_pending (t : Nat) (s : State) : (openSlices t s).pending = s.pending := by simp [openSlices]

@[simp] theorem tryStart_pending (key : Nat) (s : State) : (tryStart key s).pending = s.pending := by
  simp only [tryStart]
  (repeat' split) <;> simp

@[simp] theorem execSliceWindowOpen_keepsQueue (s : State) : KeepsQueue s (execSliceWindowOpen s) := ⟨_, rfl, by simp⟩
@[simp] theorem endSlice_pending (o : Op) (p : GPos) (s : State) : (endSlice o p s).pending = s.pending := by simp [endSlice]
@[simp] theorem endSlices_pending (q : List Nat → Bool) (s : State) : (endSlices q s).pending = s.pending := by simp [endSlices]
@[simp] theorem execCalibrationWindowOpen_keepsQueue (s : State) : KeepsQueue s (execCalibrationWindowOpen s) := ⟨_, rfl, by simp⟩
@[simp] theorem execSliceWindowEnd_keepsQueue (s : State) : KeepsQueue s (execSliceWindowEnd s) := ⟨_, rfl, by simp⟩
@[simp] theorem execLiveRefresh_keepsQueue (f : Nat) (s : State) : KeepsQueue s (execLiveRefresh f s) := ⟨_, rfl, by simp⟩
@[simp] theorem openTaints_pending (l : List TreeIn) (s : State) : (openTaints l s).pending = s.pending := by simp [openTaints]

@[simp] theorem noteField_pending (s₀ : State) (l : List TreeIn) (s : State) (f : Nat) : (noteField s₀ l s f).pending = s.pending := by
  simp [noteField]

@[simp] theorem fieldSlotsEnd_pending (s : State) (f : Nat) : (fieldSlotsEnd s f).pending = s.pending := by simp [fieldSlotsEnd]

@[simp] theorem feedTouch_pending (o : Op) (p : GPos) (work : List Nat) (i : Nat) (s : State) : (feedTouch o p work i s).pending = s.pending :=
  foldl_pending _ _ _ fun _ _ => foldl_pending _ _ _ fun _ _ => by split <;> simp

@[simp] theorem modulate_pending (f : Nat) (l : Tab (BitVec 8)) (direct : Bool) (s : State) : (modulate f l direct s).pending = s.pending := by
  simp [modulate]

@[simp] theorem feedSlot_pending (o : Op) (p : GPos) (s : State) : (feedSlot o p s).pending = s.pending := by simp [feedSlot]

@[simp] theorem accWrite_pending (init : Bool) (key : Nat) (v : AccCell) (s : State) : (accWrite init key v s).pending = s.pending := by
  simp [accWrite]

@[simp] theorem countPass_pending (root row n : Nat) (init : Bool) (s : State) : (countPass root row n init s).pending = s.pending := by
  simp [countPass]

@[simp] theorem freeGroup_pending (o : Op) (s : State) : (freeGroup o s).pending = s.pending := by simp [freeGroup]

@[simp] theorem finishGroup_pending (o : Op) (root : Nat) (s : State) : (finishGroup o root s).pending = s.pending := by
  simp only [finishGroup]
  split <;> simp

@[simp] theorem runSlot_pending (o : Op) (p : GPos) (l : List Sample) (s₀ s : State) : (runSlot o p l s₀ s).pending = s.pending := by
  simp only [runSlot]
  (repeat' split) <;> simp

@[simp] theorem quietSlot_pending (t : Nat) (s : State) (f : Nat) : (quietSlot t s f).pending = s.pending := by simp [quietSlot]
@[simp] theorem kaToken_pending (s₀ : State) (l : List TreeIn) (f : Nat) (s : State) : (kaToken s₀ l f s).pending = s.pending := by simp [kaToken]

@[simp] theorem calCount_pending (s₀ : State) (l : List TreeIn) (t : Nat) (s : State) (f : Nat) : (calCount s₀ l t s f).pending = s.pending := by
  simp only [calCount]
  (repeat' split) <;> simp

@[simp] theorem tickSlots_pending (fs : List Nat) (s : State) : (tickSlots fs s).pending = s.pending := by simp [tickSlots]

@[simp] theorem execSymbolSlot_keepsQueue (f : Nat) (starved : Bool) (samples : List Sample) (s : State) :
    KeepsQueue s (execSymbolSlot f starved samples s) := by
  refine ⟨_, rfl, ?_⟩
  simp only
  (repeat' split) <;> simp

/-! ### Machine/Issue -/

@[simp] theorem resolveHandle_pending (k : Nat) (s : State) : (resolveHandle k s).pending = s.pending := by
  simp only [resolveHandle]
  split <;> simp

@[simp] theorem takeNext_pending (st : Nat) (u : Submission) (s : State) : (takeNext st u s).pending = s.pending := by simp [takeNext]

@[simp] theorem checkIssued_pending (k : Nat) (bad : Option Nat) (s : State) : (checkIssued k bad s).pending = s.pending := by
  simp only [checkIssued]
  (repeat' split) <;> simp

@[simp] theorem execDescriptorIssue_keepsQueue (st : Nat) (s : State) : KeepsQueue s (execDescriptorIssue st s) := by
  refine ⟨_, rfl, ?_⟩
  (repeat' split) <;> simp

@[simp] theorem copyBytes_pending (src dst n : Nat) (s : State) : (copyBytes src dst n s).pending = s.pending := by simp [copyBytes]
@[simp] theorem copyShown_pending (src dst n : Nat) (s : State) : (copyShown src dst n s).pending = s.pending := by simp [copyShown]
@[simp] theorem hotReady_pending (a h e : Nat) (s : State) : (hotReady a h e s).pending = s.pending := by simp [hotReady]

@[simp] theorem execSpillCopyDone_keepsQueue (a : Nat) (s : State) : KeepsQueue s (execSpillCopyDone a s) := by
  refine ⟨_, rfl, ?_⟩
  (repeat' split) <;> simp

/-! ### Machine/Admit -/

@[simp] theorem nameEntries_pending (k : Nat) (o : Op) (s : State) : (nameEntries k o s).pending = s.pending := by simp [nameEntries]

@[simp] theorem setAdmitted_pending (k : Nat) (s : State) : (setAdmitted k s).pending = s.pending := by
  simp only [setAdmitted]
  split <;> simp

@[simp] theorem admitOp_pending (k code : Nat) (body : Op → State → State) (s : State) (h : ∀ o s, SameQueue s (body o s)) :
    (admitOp k code body s).pending = s.pending := by
  unfold admitOp
  cases opOf s k <;> simp [show ∀ o s, (body o s).pending = s.pending from h]

@[simp] theorem runtimeReach_pending (k : Nat) (l : List (Nat × Nat)) (s : State) : (runtimeReach k l s).pending = s.pending := by
  simp only [runtimeReach]
  split <;> simp

@[simp] theorem zeroRequest_pending (o : Op) (m : RowMap) (roots : List Nat) (r : Nat) (s : State) : (zeroRequest o m roots r s).pending = s.pending :=
  foldl_pending _ _ _ fun _ _ => foldl_pending _ _ _ fun _ _ => by simp

@[simp] theorem startGemm_pending (k : Nat) (m : RowMap) (roots : List Nat) (init : Bool) (s : State) :
    (startGemm k m roots init s).pending = s.pending := by
  simp only [startGemm]
  (repeat' split) <;> simp

@[simp] theorem takeGemm_pending (k : Nat) (m : RowMap) (add : Bool) (o : Op) (s : State) : (takeGemm k m add o s).pending = s.pending := by
  simp only [takeGemm]
  split <;> simp

@[simp] theorem admitInit_pending (k : Nat) (o : Op) (s : State) : (admitInit k o s).pending = s.pending := by
  simp only [admitInit]
  split <;> simp

@[simp] theorem admitAdd_pending (k : Nat) (o : Op) (s : State) : (admitAdd k o s).pending = s.pending := by
  simp only [admitAdd]
  (repeat' split) <;> simp

@[simp] theorem execFieldGemm_keepsQueue (k : Nat) (s : State) : KeepsQueue s (execFieldGemm k s) := ⟨_, rfl, by simp⟩

@[simp] theorem execOpHandover_keepsQueue (k f : Nat) (s : State) : KeepsQueue s (execOpHandover k f s) := by
  refine ⟨_, rfl, ?_⟩
  simp only
  split <;> simp

@[simp] theorem execWait_keepsQueue (k : Nat) (s : State) : KeepsQueue s (execWait k s) := ⟨_, rfl, by simp⟩
@[simp] theorem execNop_keepsQueue (k : Nat) (s : State) : KeepsQueue s (execNop k s) := ⟨_, rfl, by simp⟩
@[simp] theorem execSignal_keepsQueue (k : Nat) (s : State) : KeepsQueue s (execSignal k s) := ⟨_, rfl, by simp⟩
@[simp] theorem execFence_keepsQueue (k : Nat) (s : State) : KeepsQueue s (execFence k s) := ⟨_, rfl, by simp⟩

/-! ### Machine/Drain -/

@[simp] theorem writeSeg_pending (k : Nat) (x : Seg) (s : State) : (writeSeg k x s).pending = s.pending := by
  simp only [writeSeg]
  split <;> simp

@[simp] theorem raiseFence_pending (k : Nat) (s : State) : (raiseFence k s).pending = s.pending := by simp [raiseFence]

@[simp] theorem execAccDrain_keepsQueue (k : Nat) (s : State) : KeepsQueue s (execAccDrain k s) := by
  refine ⟨_, rfl, admitOp_pending _ _ _ _ fun o s => ?_⟩
  simp only [sameQueue_iff]
  (repeat' split) <;> simp

@[simp] theorem drainPass_pending (o : Op) (s : State) : (drainPass o s).pending = s.pending := by simp [drainPass]

@[simp] theorem touchBlocks_pending (n a : Nat) (s : State) : (touchBlocks n a s).pending = s.pending := by
  induction n generalizing a s with
  | zero => rfl
  | succ n ih => simp [touchBlocks, ih]

@[simp] theorem execAccSave_keepsQueue (k : Nat) (s : State) : KeepsQueue s (execAccSave k s) := ⟨_, rfl, by simp⟩
@[simp] theorem savePass_pending (o : Op) (s : State) : (savePass o s).pending = s.pending := by simp [savePass]

@[simp] theorem execTreeFencePass_keepsQueue (k : Nat) (s : State) : KeepsQueue s (execTreeFencePass k s) := by
  refine ⟨_, rfl, ?_⟩
  simp only
  split <;> simp

@[simp] theorem restoreRow_pending (o : Op) (n k f i : Nat) (s : State) : (restoreRow o n k f i s).pending = s.pending := by simp [restoreRow]

@[simp] theorem execAccRestore_keepsQueue (k : Nat) (s : State) : KeepsQueue s (execAccRestore k s) := by
  refine ⟨_, rfl, admitOp_pending _ _ _ _ fun o s => ?_⟩
  simp only [sameQueue_iff]
  (repeat' split) <;> simp

/-! ### Machine/Kernels -/

@[simp] theorem postTrap_pending (o : Op) (c cause mcause mepc : Nat) (s : State) : (postTrap o c cause mcause mepc s).pending = s.pending := by
  simp [postTrap]

@[simp] theorem trapCore_pending (o : Op) (c cause mcause mepc : Nat) (s : State) : (trapCore o c cause mcause mepc s).pending = s.pending := by
  simp [trapCore]

@[simp] theorem releaseBarrier_pending (k : Nat) (s : State) : (releaseBarrier k s).pending = s.pending := by
  simp only [releaseBarrier]
  split <;> simp

@[simp] theorem endCore_pending (o : Op) (c : Nat) (s : State) : (endCore o c s).pending = s.pending := by simp [endCore]

@[simp] theorem startCore_pending (o : Op) (n c : Nat) (rank : Nat) (barrier : Bool) (s : State) :
    (startCore o n c rank barrier s).pending = s.pending := by simp [startCore]

@[simp] theorem refRank_pending (o : Op) (a : RefArgs) (n : Nat) (s : State) (rc : Nat × Nat) : (refRank o a n s rc).pending = s.pending := by
  simp [refRank]

@[simp] theorem execVecKernel_keepsQueue (k : Nat) (s : State) : KeepsQueue s (execVecKernel k s) := ⟨_, rfl, by simp⟩

@[simp] theorem coreAccess_pending (o : Op) (c : Nat) (x : CoreAccess) (s : State) : (coreAccess o c x s).pending = s.pending := by
  simp only [coreAccess]
  split <;> simp

@[simp] theorem coreWork_pending (c : Nat) (wk : CoreWork) (s : State) : (coreWork c wk s).pending = s.pending :=
  foldl_pending _ _ _ fun s x => by (repeat' split) <;> simp

@[simp] theorem coreStep_pending (c : Nat) (wk : CoreWork) (g : Op → State → State) (s : State) (h : ∀ o s, SameQueue s (g o s)) :
    (coreStep c wk g s).pending = s.pending := by
  simp only [coreStep]
  split <;> simp [show ∀ o s, (g o s).pending = s.pending from h]

@[simp] theorem execKernelReturn_keepsQueue (c : Nat) (a0 : BitVec 64) (wk : CoreWork) (s : State) : KeepsQueue s (execKernelReturn c a0 wk s) :=
  ⟨_, rfl, by simp⟩

@[simp] theorem execKernelTrap_keepsQueue (c cause : Nat) (mcause mepc : BitVec 64) (wk : CoreWork) (s : State) :
    KeepsQueue s (execKernelTrap c cause mcause mepc wk s) := ⟨_, rfl, by simp⟩

@[simp] theorem execKernelWatchdog_keepsQueue (c : Nat) (mepc : BitVec 64) (wk : CoreWork) (s : State) : KeepsQueue s (execKernelWatchdog c mepc wk s) := by
  refine ⟨_, rfl, ?_⟩
  simp only
  (repeat' split) <;> simp

@[simp] theorem execVbarrierWrite_keepsQueue (c : Nat) (wk : CoreWork) (s : State) : KeepsQueue s (execVbarrierWrite c wk s) := ⟨_, rfl, by simp⟩

@[simp] theorem execVpoisonWrite_keepsQueue (c : Nat) (w : BitVec 64) (wk : CoreWork) (s : State) : KeepsQueue s (execVpoisonWrite c w wk s) :=
  ⟨_, rfl, by simp⟩

@[simp] theorem dmaCopy_pending (x c ch : Nat) (d : DmaDesc) (s : State) : (dmaCopy x c ch d s).pending = s.pending := by simp [dmaCopy]

@[simp] theorem execCoreDmaDescriptor_keepsQueue (c ch src dst len rows sstr dstr : Nat) (wk : CoreWork) (s : State) :
    KeepsQueue s (execCoreDmaDescriptor c ch src dst len rows sstr dstr wk s) := by
  refine ⟨_, rfl, ?_⟩
  simp only
  (repeat' split) <;> simp

@[simp] theorem execQuantScale_keepsQueue (k : Nat) (s : State) : KeepsQueue s (execQuantScale k s) := ⟨_, rfl, by simp⟩

@[simp] theorem trackerPush_pending (o : Op) (s : State) : (trackerPush o s).pending = s.pending := by
  simp only [trackerPush]
  split <;> simp

/-! ### Machine/Swap -/

@[simp] theorem armSwap_pending (p policy timeout : Nat) (s : State) : (armSwap p policy timeout s).pending = s.pending := by simp [armSwap]
@[simp] theorem passGate_pending (l : List Nat) (ord : Nat) (s : State) : (passGate l ord s).pending = s.pending := by simp [passGate]
@[simp] theorem holdEntries_pending (k : Nat) (l : List Nat) (s : State) : (holdEntries k l s).pending = s.pending := by simp [holdEntries]

@[simp] theorem gateActs_pending (k e i : Nat) (l : List Nat) (s : State) : (gateActs k e i l s).pending = s.pending := by
  simp only [gateActs]
  split <;> simp

@[simp] theorem execTollgate_keepsQueue (k : Nat) (s : State) : KeepsQueue s (execTollgate k s) := ⟨_, rfl, by simp⟩
@[simp] theorem openGates_pending (i : Nat) (s : State) : (openGates i s).pending = s.pending := by simp [openGates]

@[simp] theorem execLayerRewriteStart_keepsQueue (p : Nat) (s : State) : KeepsQueue s (execLayerRewriteStart p s) := by
  refine ⟨_, rfl, ?_⟩
  split <;> simp

@[simp] theorem swapDone_pending (p e : Nat) (s : State) : (swapDone p e s).pending = s.pending := by simp [swapDone]

@[simp] theorem execLayerRewriteDone_keepsQueue (p : Nat) (s : State) : KeepsQueue s (execLayerRewriteDone p s) := by
  refine ⟨_, rfl, ?_⟩
  simp only
  split <;> simp

@[simp] theorem execSwapDrainTimeout_keepsQueue (p : Nat) (s : State) : KeepsQueue s (execSwapDrainTimeout p s) := ⟨_, rfl, by simp⟩

@[simp] theorem execOpRetire_keepsQueue (k : Nat) (s : State) : KeepsQueue s (execOpRetire k s) := by
  refine ⟨_, rfl, ?_⟩
  split <;> simp

/-! ### Machine/Weights -/

@[simp] theorem switchPointer_pending (i : Nat) (d : Dir) (s : State) : (switchPointer i d s).pending = s.pending := by simp [switchPointer]

@[simp] theorem stageVersion_pending (i e ptr scale order : Nat) (zero : Bool) (s : State) :
    (stageVersion i e ptr scale order zero s).pending = s.pending := by simp [stageVersion]

@[simp] theorem stageScratch_pending (x : LoadCtx) (s : State) : (stageScratch x s).pending = s.pending := by simp [stageScratch]

@[simp] theorem writeWide_pending (x : LoadCtx) (src : List Byte × (Nat → Bool)) (n0 cn : Nat) (s : State) :
    (writeWide x src n0 cn s).pending = s.pending := by simp [writeWide]

@[simp] theorem failCtx_pending (i : Nat) (s : State) : (failCtx i s).pending = s.pending := by simp [failCtx]

@[simp] theorem endWide_pending (i : Nat) (c : Cmd) (data : List Byte) (bad : List Nat) (s : State) : (endWide i c data bad s).1.pending = s.pending := by
  simp only [endWide]
  split <;> simp

@[simp] theorem endPacked_pending (i : Nat) (c : Cmd) (data : List Byte) (bad : List Nat) (s : State) :
    (endPacked i c data bad s).1.pending = s.pending := by simp [endPacked]

@[simp] theorem execModelLoadBegin_keepsQueue (k : Nat) (s : State) : KeepsQueue s (execModelLoadBegin k s) := ⟨_, rfl, by simp⟩

@[simp] theorem execModelLoadChunk_keepsQueue (k : Nat) (data : List Byte) (bad : List Nat) (s : State) :
    KeepsQueue s (execModelLoadChunk k data bad s) := by
  refine ⟨_, rfl, ?_⟩
  simp only
  split <;> simp

@[simp] theorem execModelLoadEnd_keepsQueue (k : Nat) (s : State) : KeepsQueue s (execModelLoadEnd k s) := by
  refine ⟨_, rfl, runCmd_pending _ _ _ _ fun c => ?_⟩
  simp only [sameQueue_iff]
  (repeat' split) <;> simp

@[simp] theorem execModelDirSet_keepsQueue (k : Nat) (s : State) : KeepsQueue s (execModelDirSet k s) := ⟨_, rfl, by simp⟩
@[simp] theorem execModelDirRead_keepsQueue (k : Nat) (s : State) : KeepsQueue s (execModelDirRead k s) := ⟨_, rfl, by simp⟩
@[simp] theorem execModelDirFree_keepsQueue (k : Nat) (s : State) : KeepsQueue s (execModelDirFree k s) := ⟨_, rfl, by simp⟩
@[simp] theorem execModelSwapStage_keepsQueue (k : Nat) (s : State) : KeepsQueue s (execModelSwapStage k s) := ⟨_, rfl, by simp⟩
@[simp] theorem execModelSwapStatus_keepsQueue (k : Nat) (s : State) : KeepsQueue s (execModelSwapStatus k s) := ⟨_, rfl, by simp⟩
@[simp] theorem cancelSwap_pending (p : Nat) (s : State) : (cancelSwap p s).pending = s.pending := by simp [cancelSwap]
@[simp] theorem execModelSwapCancel_keepsQueue (k : Nat) (s : State) : KeepsQueue s (execModelSwapCancel k s) := ⟨_, rfl, by simp⟩
@[simp] theorem execModelPrefetch_keepsQueue (k : Nat) (s : State) : KeepsQueue s (execModelPrefetch k s) := ⟨_, rfl, by simp⟩

/-! ### Machine/Exec -/

@[simp] theorem execExecSubmit_keepsQueue (k : Nat) (s : State) : KeepsQueue s (execExecSubmit k s) := ⟨_, rfl, by simp⟩

@[simp] theorem abortQueued_pending (st reason : Nat) (s : State) (q : Nat × Nat) : (abortQueued st reason s q).pending = s.pending := by
  simp only [abortQueued]
  split <;> simp

@[simp] theorem execExecAbort_keepsQueue (k : Nat) (s : State) : KeepsQueue s (execExecAbort k s) := ⟨_, rfl, by simp⟩
@[simp] theorem execExecToken_keepsQueue (k : Nat) (s : State) : KeepsQueue s (execExecToken k s) := ⟨_, rfl, by simp⟩
@[simp] theorem execExecStream_keepsQueue (k : Nat) (s : State) : KeepsQueue s (execExecStream k s) := ⟨_, rfl, by simp⟩
@[simp] theorem endTracking_pending (p : Nat) (s : State) : (endTracking p s).pending = s.pending := by simp [endTracking]
@[simp] theorem execManifestOpen_keepsQueue (k : Nat) (s : State) : KeepsQueue s (execManifestOpen k s) := ⟨_, rfl, by simp⟩
@[simp] theorem execManifestClose_keepsQueue (k : Nat) (s : State) : KeepsQueue s (execManifestClose k s) := ⟨_, rfl, by simp⟩
@[simp] theorem execManifestFree_keepsQueue (k : Nat) (s : State) : KeepsQueue s (execManifestFree k s) := ⟨_, rfl, by simp⟩
@[simp] theorem execManifestRead_keepsQueue (k : Nat) (s : State) : KeepsQueue s (execManifestRead k s) := ⟨_, rfl, by simp⟩

/-! ### Machine/MemEvents -/

@[simp] theorem cxlRefused_pending (d n : Nat) (s : State) : (cxlRefused d n s).pending = s.pending := by simp [cxlRefused]

@[simp] theorem hostArrive_pending (p : NetPkt) (s : State) : (hostArrive p s).pending = s.pending := by
  simp only [hostArrive]
  split <;> simp

@[simp] theorem hostSend_pending (wr : Bool) (a n : Nat) (data : List Byte) (s : State) : (hostSend wr a n data s).pending = s.pending := by
  simp [hostSend]

@[simp] theorem goOn_pending (n d : Nat) (s : State) (p : NetPkt) : (goOn n d s p).pending = s.pending := by simp [goOn]
@[simp] theorem netRelease_pending (n : Nat) (s : State) : (netRelease n s).pending = s.pending := by simp [netRelease]

@[simp] theorem execHostCxlRead_keepsQueue (addr n : Nat) (flips : List (Nat × BitVec 80)) (s : State) : KeepsQueue s (execHostCxlRead addr n flips s) := by
  refine ⟨_, rfl, ?_⟩
  simp only
  split <;> simp

@[simp] theorem execHostCxlWrite_keepsQueue (addr : Nat) (bytes : List (BitVec 8)) (s : State) : KeepsQueue s (execHostCxlWrite addr bytes s) := by
  refine ⟨_, rfl, ?_⟩
  split <;> simp

@[simp] theorem execPatrolScrubRead_keepsQueue (u : Nat) (flips : List (Nat × BitVec 80)) (s : State) : KeepsQueue s (execPatrolScrubRead u flips s) := by
  refine ⟨_, rfl, ?_⟩
  simp only
  (repeat' split) <;> simp

@[simp] theorem execCeRateTrip_keepsQueue (u : Nat) (s : State) : KeepsQueue s (execCeRateTrip u s) := ⟨_, rfl, by simp⟩

@[simp] theorem execRetrainStart_keepsQueue (s : State) : KeepsQueue s (execRetrainStart s) := by
  refine ⟨_, rfl, ?_⟩
  split <;> simp

@[simp] theorem execRetrainDone_keepsQueue (pass : Bool) (s : State) : KeepsQueue s (execRetrainDone pass s) := by
  refine ⟨_, rfl, ?_⟩
  simp only
  split <;> simp

@[simp] theorem execMemoryZeroingDone_keepsQueue (u : Nat) (s : State) : KeepsQueue s (execMemoryZeroingDone u s) := ⟨_, rfl, by simp⟩
@[simp] theorem execDevMemRetrain_keepsQueue (k : Nat) (s : State) : KeepsQueue s (execDevMemRetrain k s) := ⟨_, rfl, by simp⟩
@[simp] theorem execDevMemRegion_keepsQueue (k : Nat) (s : State) : KeepsQueue s (execDevMemRegion k s) := ⟨_, rfl, by simp⟩

/-! ### Machine/Auth -/

@[simp] theorem takeLeaf_pending (s : State) : (takeLeaf s).pending = s.pending := by simp [takeLeaf]
@[simp] theorem renewKey_pending (s : State) : (renewKey s).pending = s.pending := by simp [renewKey]
@[simp] theorem verifyLicences_pending (s : State) : (verifyLicences s).pending = s.pending := by simp [verifyLicences]

/-! ### Machine/Convoy -/

@[simp] theorem placeChunk_pending (core payload : List Byte) (c q : Nat) (s : State) : (placeChunk core payload c q s).pending = s.pending := by
  simp [placeChunk]

@[simp] theorem placeImage_pending (c : Nat) (s : State) : (placeImage c s).pending = s.pending := by simp [placeImage]

/-! ### Machine/Partitions -/

@[simp] theorem execD2dLinkFail_keepsQueue (n : Nat) (s : State) : KeepsQueue s (execD2dLinkFail n s) := ⟨_, rfl, by simp⟩
@[simp] theorem execD2dFallbackReady_keepsQueue (n : Nat) (s : State) : KeepsQueue s (execD2dFallbackReady n s) := ⟨_, rfl, by simp⟩
@[simp] theorem abortPartition_pending (p reason : Nat) (s : State) : (abortPartition p reason s).pending = s.pending := by simp [abortPartition]
@[simp] theorem freeDir_pending (q : Dir → Bool) (s : State) : (freeDir q s).pending = s.pending := by simp [freeDir]
@[simp] theorem freeObjects_pending (q : Nat → Bool) (s : State) : (freeObjects q s).pending = s.pending := by simp [freeObjects]
@[simp] theorem zeroField_pending (f : Nat) (s : State) : (zeroField f s).pending = s.pending := by simp [zeroField]
@[simp] theorem refuseNaming_pending (p : Nat) (s : State) : (refuseNaming p s).pending = s.pending := by simp [refuseNaming]
@[simp] theorem execDevPartitionReset_keepsQueue (k : Nat) (s : State) : KeepsQueue s (execDevPartitionReset k s) := ⟨_, rfl, by simp⟩

@[simp] theorem execPartitionResetEffective_keepsQueue (p : Nat) (s : State) : KeepsQueue s (execPartitionResetEffective p s) := by
  refine ⟨_, rfl, ?_⟩
  simp only
  (repeat' split) <;> simp

@[simp] theorem execPartitionResetRelease_keepsQueue (p : Nat) (failed : List Nat) (s : State) : KeepsQueue s (execPartitionResetRelease p failed s) :=
  ⟨_, rfl, by simp⟩

@[simp] theorem formWindows_pending (P : Nat) (s : State) : (formWindows P s).pending = s.pending := by simp [formWindows]
@[simp] theorem execDevPartitionConfig_keepsQueue (k : Nat) (s : State) : KeepsQueue s (execDevPartitionConfig k s) := ⟨_, rfl, by simp⟩

@[simp] theorem partsEdge_pending (s : State) : (partsEdge s).pending = s.pending := by
  simp only [partsEdge]
  split <;> simp

/-! ### Machine/Mailbox -/

@[simp] theorem mbCtrlWrite_pending (m : Nat) (w : BitVec 32) (s : State) : (mbCtrlWrite m w s).pending = s.pending := by simp [mbCtrlWrite]
@[simp] theorem execMbEnableWrite_keepsQueue (m : Nat) (w : BitVec 32) (s : State) : KeepsQueue s (execMbEnableWrite m w s) := ⟨_, rfl, by simp⟩
@[simp] theorem mbTailWrite_pending (m : Nat) (w : BitVec 32) (s : State) : (mbTailWrite m w s).pending = s.pending := by simp [mbTailWrite]
@[simp] theorem execMbCmdTailWrite_keepsQueue (m : Nat) (w : BitVec 32) (s : State) : KeepsQueue s (execMbCmdTailWrite m w s) := ⟨_, rfl, by simp⟩
@[simp] theorem mbBellWrite_pending (m : Nat) (w : BitVec 32) (s : State) : (mbBellWrite m w s).pending = s.pending := by simp [mbBellWrite]
@[simp] theorem execMbDoorbell_keepsQueue (m : Nat) (w : BitVec 32) (s : State) : KeepsQueue s (execMbDoorbell m w s) := ⟨_, rfl, by simp⟩

@[simp] theorem takeCommand_pending (src : Nat) (idx : BitVec 32) (e ext : List Byte) (why : Option Reply) (s : State) :
    (takeCommand src idx e ext why s).pending = s.pending := by simp [takeCommand]

@[simp] theorem execCommandFetch_keepsQueue (m : Nat) (entry ext : List (BitVec 8)) (s : State) : KeepsQueue s (execCommandFetch m entry ext s) :=
  ⟨_, rfl, by simp⟩

@[simp] theorem withdrawEnable_pending (k : Nat) (s : State) : (withdrawEnable k s).pending = s.pending := by
  simp only [withdrawEnable]
  (repeat' split) <;> simp

@[simp] theorem undoCommand_pending (c : Cmd) (s : State) : (undoCommand c s).pending = s.pending := by
  simp only [undoCommand]
  (repeat' split) <;> simp

@[simp] theorem execCommandDeadline_keepsQueue (k : Nat) (s : State) : KeepsQueue s (execCommandDeadline k s) := by
  refine ⟨_, rfl, ?_⟩
  split <;> simp

@[simp] theorem execDevCmdCancel_keepsQueue (k : Nat) (s : State) : KeepsQueue s (execDevCmdCancel k s) := by
  refine ⟨_, rfl, runCmd_checked_pending _ _ _ _ _ fun c => ?_⟩
  simp only [sameQueue_iff]
  (repeat' split) <;> simp

/-! ### Machine/Boot -/

@[simp] theorem resetTo_pending (s : State) : (resetTo s).pending = s.pending := by simp [resetTo]
@[simp] theorem bootStart_pending (s : State) : (bootStart s).pending = s.pending := by simp [bootStart]
@[simp] theorem devReset_pending (s : State) : (devReset s).pending = s.pending := by simp [devReset]
@[simp] theorem execResetNRise_keepsQueue (s : State) : KeepsQueue s (execResetNRise s) := ⟨_, rfl, by simp⟩
@[simp] theorem execBootSetReady_keepsQueue (s : State) : KeepsQueue s (execBootSetReady s) := ⟨_, rfl, by simp⟩
@[simp] theorem execResetNFall_keepsQueue (s : State) : KeepsQueue s (execResetNFall s) := ⟨_, rfl, by simp⟩
@[simp] theorem execPwrokFall_keepsQueue (s : State) : KeepsQueue s (execPwrokFall s) := ⟨_, rfl, by simp⟩
@[simp] theorem execRefclkLoss_keepsQueue (s : State) : KeepsQueue s (execRefclkLoss s) := ⟨_, rfl, by simp⟩
@[simp] theorem execRefclkRestore_keepsQueue (s : State) : KeepsQueue s (execRefclkRestore s) := ⟨_, rfl, by simp⟩

@[simp] theorem execDevReset_keepsQueue (k : Nat) (s : State) : KeepsQueue s (execDevReset k s) := by
  refine ⟨_, rfl, ?_⟩
  (repeat' split) <;> simp

@[simp] theorem execDecoderCommit_keepsQueue (region base : Nat) (s : State) : KeepsQueue s (execDecoderCommit region base s) := ⟨_, rfl, by simp⟩
@[simp] theorem reportCmd_pending (c : Cmd) (s : State) : (reportCmd c s).pending = s.pending := by simp [reportCmd]

@[simp] theorem execCommandComplete_keepsQueue (k : Nat) (s : State) : KeepsQueue s (execCommandComplete k s) := by
  refine ⟨_, rfl, ?_⟩
  simp only
  split <;> simp

/-! ### Machine/LinkFlits -/

@[simp] theorem emitFlit_pending (p : Nat) (fl : Flit) (s : State) : (emitFlit p fl s).pending = s.pending := by simp [emitFlit]
@[simp] theorem sendMarker_pending (p : Nat) (s : State) : (sendMarker p s).pending = s.pending := by simp [sendMarker]

@[simp] theorem sendFlit_pending (p : Nat) (s : State) : (sendFlit p s).pending = s.pending := by
  simp only [sendFlit]
  (repeat' split) <;> simp

@[simp] theorem execFlitSend_keepsQueue (p : Nat) (s : State) : KeepsQueue s (execFlitSend p s) := ⟨_, rfl, by simp⟩

@[simp] theorem execFlitReceive_keepsQueue (p : Nat) (fl : Flit) (clean : Bool) (corr uncorr : Nat) (s : State) :
    KeepsQueue s (execFlitReceive p fl clean corr uncorr s) := ⟨_, rfl, by simp⟩

@[simp] theorem execCreditReturn_keepsQueue (p pool n : Nat) (s : State) : KeepsQueue s (execCreditReturn p pool n s) := ⟨_, rfl, by simp⟩

@[simp] theorem resteer_pending (p : Nat) (s : State) : (resteer p s).pending = s.pending :=
  foldl_pending _ _ _ fun _ _ => by split <;> simp

@[simp] theorem startTraining_pending (p : Nat) (s : State) : (startTraining p s).pending = s.pending := by simp [startTraining]

@[simp] theorem answerPort_pending (p : Nat) (r : Reply) (s : State) : (answerPort p r s).pending = s.pending := by
  simp only [answerPort]
  split <;> simp

@[simp] theorem trainFailed_pending (p reason : Nat) (s : State) : (trainFailed p reason s).pending = s.pending := by simp [trainFailed]

@[simp] theorem execLinkPortTrained_keepsQueue (p : Nat) (quads : BitVec 4) (peerLight ok : Bool) (s : State) :
    KeepsQueue s (execLinkPortTrained p quads peerLight ok s) := ⟨_, rfl, by simp⟩

@[simp] theorem checkAbsent_pending (d : Nat) (s : State) : (checkAbsent d s).pending = s.pending := by simp [checkAbsent]
@[simp] theorem portDown_pending (p : Nat) (s : State) : (portDown p s).pending = s.pending := by simp [portDown]
@[simp] theorem execLinkPortDown_keepsQueue (p : Nat) (s : State) : KeepsQueue s (execLinkPortDown p s) := ⟨_, rfl, by simp⟩
@[simp] theorem execReplayRequest_keepsQueue (p frm : Nat) (s : State) : KeepsQueue s (execReplayRequest p frm s) := ⟨_, rfl, by simp⟩
@[simp] theorem execLaneFail_keepsQueue (p lane : Nat) (s : State) : KeepsQueue s (execLaneFail p lane s) := ⟨_, rfl, by simp⟩
@[simp] theorem execLaneDropRetrain_keepsQueue (p : Nat) (s : State) : KeepsQueue s (execLaneDropRetrain p s) := ⟨_, rfl, by simp⟩
@[simp] theorem execPortTrainRetry_keepsQueue (p : Nat) (s : State) : KeepsQueue s (execPortTrainRetry p s) := ⟨_, rfl, by simp⟩
@[simp] theorem execLeFltNFall_keepsQueue (p : Nat) (s : State) : KeepsQueue s (execLeFltNFall p s) := ⟨_, rfl, by simp⟩
@[simp] theorem execLeFltNRestore_keepsQueue (p : Nat) (s : State) : KeepsQueue s (execLeFltNRestore p s) := ⟨_, rfl, by simp⟩

@[simp] theorem execLightEnginePoll_keepsQueue (p : Nat) (answers : Bool) (profile status temp : BitVec 16) (rx : List Int) (s : State) :
    KeepsQueue s (execLightEnginePoll p answers profile status temp rx s) := ⟨_, rfl, by simp⟩

/-! ### Machine/LinkRoute -/

@[simp] theorem acceptBytes_pending (opref n : Nat) (s : State) : (acceptBytes opref n s).pending = s.pending := by simp [acceptBytes]
@[simp] theorem takePacket_pending (pk : Packet) (frm : Nat) (s : State) : (takePacket pk frm s).pending = s.pending := by simp [takePacket]
@[simp] theorem noteAbsent_pending (pk : Packet) (s : State) : (noteAbsent pk s).pending = s.pending := by simp [noteAbsent]
@[simp] theorem discardPacket_pending (pk : Packet) (frm : Nat) (s : State) : (discardPacket pk frm s).pending = s.pending := by simp [discardPacket]

@[simp] theorem execPacketForward_keepsQueue (pk : Packet) (frm : Nat) (s : State) : KeepsQueue s (execPacketForward pk frm s) := by
  refine ⟨_, rfl, ?_⟩
  (repeat' split) <;> simp

@[simp] theorem answerPacket_pending (pk : Packet) (type : Nat) (s : State) : (answerPacket pk type s).pending = s.pending := by simp [answerPacket]
@[simp] theorem refusePacket_pending (why : Nat) (pk : Packet) (s : State) : (refusePacket why pk s).pending = s.pending := by simp [refusePacket]
@[simp] theorem takeDelivered_pending (pk : Packet) (s : State) : (takeDelivered pk s).pending = s.pending := by simp [takeDelivered]
@[simp] theorem execWritePacketArrival_keepsQueue (pk : Packet) (s : State) : KeepsQueue s (execWritePacketArrival pk s) := ⟨_, rfl, by simp⟩

@[simp] theorem addElem_pending (f : FpFmt) (a : Nat) (v : List Byte) (bad : Bool) (s : State) : (addElem f a v bad s).1.pending = s.pending := by
  simp [addElem]

@[simp] theorem addElems_pending (f : FpFmt) (bad : Nat → Bool) (a : Nat) (l : List (List Byte)) (s : State) :
    (addElems f bad a l s).1.pending = s.pending := by
  induction l generalizing a s with
  | nil => rfl
  | cons v l ih => simp [addElems, ih]

@[simp] theorem execReducePacketArrival_keepsQueue (pk : Packet) (s : State) : KeepsQueue s (execReducePacketArrival pk s) := ⟨_, rfl, by simp⟩
@[simp] theorem completePacket_pending (opref : Nat) (s : State) : (completePacket opref s).pending = s.pending := by simp [completePacket]

@[simp] theorem execWriteAckReceive_keepsQueue (opref : Nat) (refused : Bool) (s : State) : KeepsQueue s (execWriteAckReceive opref refused s) := by
  refine ⟨_, rfl, ?_⟩
  simp only
  split <;> simp

@[simp] theorem execLinkWriteLost_keepsQueue (opref : Nat) (s : State) : KeepsQueue s (execLinkWriteLost opref s) := by
  refine ⟨_, rfl, ?_⟩
  split <;> simp

/-! ### Machine/LinkMuster -/

@[simp] theorem disablePort_pending (p reason : Nat) (s : State) : (disablePort p reason s).pending = s.pending := by simp [disablePort]
@[simp] theorem startMuster_pending (s : State) : (startMuster s).pending = s.pending := by simp [startMuster]
@[simp] theorem tryMuster_pending (s : State) : (tryMuster s).pending = s.pending := by simp [tryMuster]
@[simp] theorem tryReporting_pending (s : State) : (tryReporting s).pending = s.pending := by simp [tryReporting]

@[simp] theorem execIdentityMessage_keepsQueue (p coord port lx ly lz : Nat) (msg : List (BitVec 8)) (s : State) :
    KeepsQueue s (execIdentityMessage p coord port lx ly lz msg s) := ⟨_, rfl, by simp⟩

@[simp] theorem execMusterPortTimeout_keepsQueue (p : Nat) (s : State) : KeepsQueue s (execMusterPortTimeout p s) := ⟨_, rfl, by simp⟩
@[simp] theorem stepBeat_pending (beat : Nat) (s : State) : (stepBeat beat s).pending = s.pending := by simp [stepBeat]

@[simp] theorem execMusterReport_keepsQueue (d : Nat) (second : Bool) (present : List Nat) (beat : Nat) (s : State) :
    KeepsQueue s (execMusterReport d second present beat s) := ⟨_, rfl, by simp⟩

@[simp] theorem learnAbsent_pending (l : List Nat) (s : State) : (learnAbsent l s).pending = s.pending := by simp [learnAbsent]

@[simp] theorem systemReady_pending (absent : List Nat) (beat : Nat) (s : State) : (systemReady absent beat s).pending = s.pending := by
  simp [systemReady]

@[simp] theorem execSystemReadyDeclare_keepsQueue (ms beat : Nat) (s : State) : KeepsQueue s (execSystemReadyDeclare ms beat s) := ⟨_, rfl, by simp⟩
@[simp] theorem execStandbyRootDeclare_keepsQueue (ms beat : Nat) (s : State) : KeepsQueue s (execStandbyRootDeclare ms beat s) := ⟨_, rfl, by simp⟩

@[simp] theorem execSystemReadyReceive_keepsQueue (absent : List Nat) (beat : Nat) (s : State) : KeepsQueue s (execSystemReadyReceive absent beat s) :=
  ⟨_, rfl, by simp⟩

@[simp] theorem execRouteUpdateReceive_keepsQueue (coord : Nat) (present : Bool) (beat : Nat) (s : State) :
    KeepsQueue s (execRouteUpdateReceive coord present beat s) := ⟨_, rfl, by simp⟩

@[simp] theorem applyRoute_pending (s : State) (u : Nat × Bool × Nat) : (applyRoute s u).pending = s.pending := by simp [applyRoute]
@[simp] theorem execRouteSwitchBeat_keepsQueue (s : State) : KeepsQueue s (execRouteSwitchBeat s) := ⟨_, rfl, by simp⟩
@[simp] theorem execTimeMessageSend_keepsQueue (s : State) : KeepsQueue s (execTimeMessageSend s) := ⟨_, rfl, by simp⟩

@[simp] theorem execTimeMessageReceive_keepsQueue (p beat tx rx : Nat) (back : Int) (s : State) :
    KeepsQueue s (execTimeMessageReceive p beat tx rx back s) := by
  refine ⟨_, rfl, ?_⟩
  simp only
  (repeat' split) <;> simp

@[simp] theorem execTickinEdge_keepsQueue (off : Int) (s : State) : KeepsQueue s (execTickinEdge off s) := ⟨_, rfl, by simp⟩
@[simp] theorem execTickFallback_keepsQueue (s : State) : KeepsQueue s (execTickFallback s) := ⟨_, rfl, by simp⟩
@[simp] theorem execTickDisagree_keepsQueue (s : State) : KeepsQueue s (execTickDisagree s) := ⟨_, rfl, by simp⟩
@[simp] theorem endSelect_pending (r : Reply) (s : State) : (endSelect r s).pending = s.pending := by simp [endSelect]
@[simp] theorem selectEdge_pending (s : State) : (selectEdge s).pending = s.pending := by simp [selectEdge]
@[simp] theorem timeEdge_pending (s : State) : (timeEdge s).pending = s.pending := by simp [timeEdge]
@[simp] theorem disableFlat_pending (s : State) : (disableFlat s).pending = s.pending := by simp [disableFlat]
@[simp] theorem execLinkConfig_keepsQueue (k : Nat) (s : State) : KeepsQueue s (execLinkConfig k s) := ⟨_, rfl, by simp⟩
@[simp] theorem execLinkPortRetrain_keepsQueue (k : Nat) (s : State) : KeepsQueue s (execLinkPortRetrain k s) := ⟨_, rfl, by simp⟩
@[simp] theorem execLinkPortDisable_keepsQueue (k : Nat) (s : State) : KeepsQueue s (execLinkPortDisable k s) := ⟨_, rfl, by simp⟩
@[simp] theorem execLinkPortEnable_keepsQueue (k : Nat) (s : State) : KeepsQueue s (execLinkPortEnable k s) := ⟨_, rfl, by simp⟩
@[simp] theorem execLinkFec_keepsQueue (k : Nat) (s : State) : KeepsQueue s (execLinkFec k s) := ⟨_, rfl, by simp⟩
@[simp] theorem execLinkRejoin_keepsQueue (k : Nat) (s : State) : KeepsQueue s (execLinkRejoin k s) := ⟨_, rfl, by simp⟩
@[simp] theorem execLinkTime_keepsQueue (k : Nat) (s : State) : KeepsQueue s (execLinkTime k s) := ⟨_, rfl, by simp⟩

/-! ### Machine/Bringup -/

@[simp] theorem powerOn_pending (l : List Nat) (s : State) : (powerOn l s).pending = s.pending := by simp [powerOn]
@[simp] theorem stepDone_pending (n : Nat) (degraded : Bool) (s : State) : (stepDone n degraded s).pending = s.pending := by simp [stepDone]
@[simp] theorem stepFail_pending (n code detail : Nat) (s : State) : (stepFail n code detail s).pending = s.pending := by simp [stepFail]

@[simp] theorem bootFence_pending (kind i b : Nat) (s : State) : (bootFence kind i b s).pending = s.pending := by
  simp only [bootFence]
  split <;> simp

@[simp] theorem bootFault_pending (code kind i b detail : Nat) (s : State) : (bootFault code kind i b detail s).pending = s.pending := by
  simp [bootFault]

@[simp] theorem convoyStart_pending (s : State) : (convoyStart s).pending = s.pending := by simp [convoyStart]
@[simp] theorem startMonitors_pending (s : State) : (startMonitors s).pending = s.pending := by simp [startMonitors]
@[simp] theorem shipSlots_pending (s : State) : (shipSlots s).pending = s.pending := by simp [shipSlots]
@[simp] theorem loadLight_pending (s : State) : (loadLight s).pending = s.pending := by simp [loadLight]
@[simp] theorem warmupStart_pending (s : State) : (warmupStart s).pending = s.pending := by simp [warmupStart]

@[simp] theorem stepStart_pending (n : Nat) (s : State) : (stepStart n s).pending = s.pending := by
  simp only [stepStart]
  (repeat' split) <;> simp

@[simp] theorem requestStep_pending (n : Nat) (s : State) : (requestStep n s).pending = s.pending := by
  simp only [requestStep]
  (repeat' split) <;> simp

@[simp] theorem acceptConvoy_pending (s : State) : (acceptConvoy s).pending = s.pending := by simp [acceptConvoy]
@[simp] theorem writeStewardRun_pending (v : Nat) (s : State) : (writeStewardRun v s).pending = s.pending := by simp [writeStewardRun]

@[simp] theorem buWrite_pending (off v msk : Nat) (s : State) : (buWrite off v msk s).pending = s.pending := by
  simp only [buWrite]
  (repeat' split) <;> simp

@[simp] theorem buWrite32_pending (off : Nat) (w : BitVec 32) (s : State) : (buWrite32 off w s).pending = s.pending := by simp [buWrite32]
@[simp] theorem execBuDomainEnWrite_keepsQueue (w : BitVec 32) (s : State) : KeepsQueue s (execBuDomainEnWrite w s) := ⟨_, rfl, by simp⟩
@[simp] theorem execBuPllGo_keepsQueue (w : BitVec 32) (s : State) : KeepsQueue s (execBuPllGo w s) := ⟨_, rfl, by simp⟩
@[simp] theorem execBuHbmTrainGo_keepsQueue (w : BitVec 32) (s : State) : KeepsQueue s (execBuHbmTrainGo w s) := ⟨_, rfl, by simp⟩
@[simp] theorem execBuImgLoad_keepsQueue (w : BitVec 32) (s : State) : KeepsQueue s (execBuImgLoad w s) := ⟨_, rfl, by simp⟩
@[simp] theorem execBuAuthVerify_keepsQueue (w : BitVec 32) (s : State) : KeepsQueue s (execBuAuthVerify w s) := ⟨_, rfl, by simp⟩
@[simp] theorem execBuStewardRun_keepsQueue (w : BitVec 32) (s : State) : KeepsQueue s (execBuStewardRun w s) := ⟨_, rfl, by simp⟩
@[simp] theorem execBuConvoyGo_keepsQueue (w : BitVec 32) (s : State) : KeepsQueue s (execBuConvoyGo w s) := ⟨_, rfl, by simp⟩
@[simp] theorem execBuConvoyAccept_keepsQueue (w : BitVec 32) (s : State) : KeepsQueue s (execBuConvoyAccept w s) := ⟨_, rfl, by simp⟩
@[simp] theorem execBuStepWarmup_keepsQueue (w : BitVec 32) (s : State) : KeepsQueue s (execBuStepWarmup w s) := ⟨_, rfl, by simp⟩
@[simp] theorem execBuStepFactoryCal_keepsQueue (w : BitVec 32) (s : State) : KeepsQueue s (execBuStepFactoryCal w s) := ⟨_, rfl, by simp⟩
@[simp] theorem execBuStepUserCal_keepsQueue (w : BitVec 32) (s : State) : KeepsQueue s (execBuStepUserCal w s) := ⟨_, rfl, by simp⟩
@[simp] theorem powerGroup_pending (good : BitVec 10) (s : State) (g : Nat) : (powerGroup good s g).pending = s.pending := by simp [powerGroup]
@[simp] theorem endPower_pending (obs : StepObs) (s : State) : (endPower obs s).pending = s.pending := by simp [endPower]

@[simp] theorem endPll_pending (obs : StepObs) (s : State) : (endPll obs s).pending = s.pending := by
  simp only [endPll]
  (repeat' split) <;> simp

@[simp] theorem serveUnit_pending (obs : StepObs) (u : Nat) (s : State) : (serveUnit obs u s).pending = s.pending := by simp [serveUnit]
@[simp] theorem endTrain_pending (obs : StepObs) (s : State) : (endTrain obs s).pending = s.pending := by simp [endTrain]

@[simp] theorem endImage_pending (obs : StepObs) (s : State) : (endImage obs s).pending = s.pending := by
  simp only [endImage]
  (repeat' split) <;> simp

@[simp] theorem endAuth_pending (s : State) : (endAuth s).pending = s.pending := by simp [endAuth]
@[simp] theorem endRelease_pending (s : State) : (endRelease s).pending = s.pending := by simp [endRelease]

@[simp] theorem execConvoyChunkReceive_keepsQueue (c : Nat) (chunk : List Byte) (s : State) : KeepsQueue s (execConvoyChunkReceive c chunk s) :=
  ⟨_, rfl, by simp⟩

@[simp] theorem execConvoyRepairRound_keepsQueue (s : State) : KeepsQueue s (execConvoyRepairRound s) := ⟨_, rfl, by simp⟩
@[simp] theorem endConvoy_pending (coresBad : List Nat) (s : State) : (endConvoy coresBad s).pending = s.pending := by simp [endConvoy]
@[simp] theorem execCoreReconvoy_keepsQueue (cs failed : List Nat) (s : State) : KeepsQueue s (execCoreReconvoy cs failed s) := ⟨_, rfl, by simp⟩

@[simp] theorem warmupFail_pending (f : Nat) (b : Option Nat) (s : State) : (warmupFail f b s).pending = s.pending := by
  simp only [warmupFail]
  split <;> simp

@[simp] theorem lightCheck_pending (s : State) (n : Nat) : (lightCheck s n).pending = s.pending := by
  unfold lightCheck
  split <;> simp

@[simp] theorem endWarmup_pending (obs : StepObs) (s : State) : (endWarmup obs s).pending = s.pending := by simp [endWarmup]

@[simp] theorem execWarmupFieldTimeout_keepsQueue (f : Nat) (band : Option Nat) (s : State) : KeepsQueue s (execWarmupFieldTimeout f band s) :=
  ⟨_, rfl, by simp⟩

@[simp] theorem endFactory_pending (s : State) : (endFactory s).pending = s.pending := by simp [endFactory]

@[simp] theorem calUnit_pending (s : State) (i : Nat) : (calUnit s i).pending = s.pending := by
  simp only [calUnit]
  split <;> simp

@[simp] theorem bringupDone_pending (s : State) : (bringupDone s).pending = s.pending := by simp [bringupDone]
@[simp] theorem endUserCal_pending (s : State) : (endUserCal s).pending = s.pending := by simp [endUserCal]

@[simp] theorem execBringupStepComplete_keepsQueue (ms : Nat) (obs : StepObs) (s : State) : KeepsQueue s (execBringupStepComplete ms obs s) := by
  refine ⟨_, rfl, ?_⟩
  simp only
  split <;> simp

@[simp] theorem undoUserCal_pending (s : State) : (undoUserCal s).pending = s.pending := by simp [undoUserCal]
@[simp] theorem execBringupStepTimeout_keepsQueue (s : State) : KeepsQueue s (execBringupStepTimeout s) := ⟨_, rfl, by simp⟩

/-! ### Machine/Thermal -/

@[simp] theorem failSensor_pending (d i : Nat) (s : State) : (failSensor d i s).pending = s.pending := by simp [failSensor]
@[simp] theorem recoverSensor_pending (d i : Nat) (s : State) : (recoverSensor d i s).pending = s.pending := by simp [recoverSensor]
@[simp] theorem settleSensor_pending (d i : Nat) (s : State) : (settleSensor d i s).pending = s.pending := by simp [settleSensor]
@[simp] theorem throtUpdate_pending (s : State) : (throtUpdate s).pending = s.pending := by simp [throtUpdate]
@[simp] theorem enterThrottle_pending (d : Nat) (s : State) : (enterThrottle d s).pending = s.pending := by simp [enterThrottle]
@[simp] theorem endEpisode_pending (s : State) : (endEpisode s).pending = s.pending := by simp [endEpisode]
@[simp] theorem setStep_pending (t v d : Nat) (s : State) : (setStep t v d s).pending = s.pending := by simp [setStep]

@[simp] theorem startTile_pending (s : State) (t : Nat) : (startTile s t).pending = s.pending := by
  simp only [startTile]
  split <;> simp

@[simp] theorem episodeUpdate_pending (s : State) : (episodeUpdate s).pending = s.pending := by simp [episodeUpdate]
@[simp] theorem startEnforcing_pending (s : State) : (startEnforcing s).pending = s.pending := by simp [startEnforcing]
@[simp] theorem shutDown_pending (s : State) : (shutDown s).pending = s.pending := by simp [shutDown]

@[simp] theorem holdUpdate_pending (d : Nat) (s : State) : (holdUpdate d s).pending = s.pending := by
  simp only [holdUpdate]
  split <;> simp

@[simp] theorem refreshRate_pending (d : Nat) (s : State) : (refreshRate d s).pending = s.pending := by simp [refreshRate]

@[simp] theorem evalDie_pending (d : Nat) (s : State) : (evalDie d s).pending = s.pending := by
  simp only [evalDie]
  split <;> simp

@[simp] theorem driftCheck_pending (n : Nat) (s : State) : (driftCheck n s).pending = s.pending := by
  simp only [driftCheck]
  split <;> simp

@[simp] theorem coolTrack_pending (s : State) (t : Nat) : (coolTrack s t).pending = s.pending := by simp [coolTrack]
@[simp] theorem afterDies_pending (s : State) : (afterDies s).pending = s.pending := by simp [afterDies]
@[simp] theorem hottestDie_pending (s : State) : (hottestDie s).pending = s.pending := by simp [hottestDie]
@[simp] theorem dieEdge_pending (s : State) : (dieEdge s).pending = s.pending := by simp [dieEdge]
@[simp] theorem extWarn_pending (i : Nat) (s : State) : (extWarn i s).pending = s.pending := by simp [extWarn]

@[simp] theorem takeReading_pending (d i : Nat) (out : Bool) (v : Int) (s : State) : (takeReading d i out v s).pending = s.pending := by
  simp [takeReading]

@[simp] theorem execSensorReading_keepsQueue (d i : Nat) (v : Int) (s : State) : KeepsQueue s (execSensorReading d i v s) := by
  refine ⟨_, rfl, ?_⟩
  (repeat' split) <;> simp

@[simp] theorem execOvertempComparatorTrip_keepsQueue (d : Nat) (s : State) : KeepsQueue s (execOvertempComparatorTrip d s) := ⟨_, rfl, by simp⟩
@[simp] theorem execThrottleGraceExpiry_keepsQueue (s : State) : KeepsQueue s (execThrottleGraceExpiry s) := ⟨_, rfl, by simp⟩
@[simp] theorem execThrottleAckLimit_keepsQueue (s : State) : KeepsQueue s (execThrottleAckLimit s) := ⟨_, rfl, by simp⟩

@[simp] theorem tileTimer_pending (s : State) (t : Nat) : (tileTimer s t).pending = s.pending := by
  simp only [tileTimer]
  (repeat' split) <;> simp

@[simp] theorem execThrottleStepTimer_keepsQueue (s : State) : KeepsQueue s (execThrottleStepTimer s) := ⟨_, rfl, by simp⟩
@[simp] theorem execSensorHoldTimer_keepsQueue (d : Nat) (s : State) : KeepsQueue s (execSensorHoldTimer d s) := ⟨_, rfl, by simp⟩
@[simp] theorem execShutdownComparatorTrip_keepsQueue (d : Nat) (s : State) : KeepsQueue s (execShutdownComparatorTrip d s) := ⟨_, rfl, by simp⟩
@[simp] theorem execThermalThrottleAck_keepsQueue (k : Nat) (s : State) : KeepsQueue s (execThermalThrottleAck k s) := ⟨_, rfl, by simp⟩
@[simp] theorem execThermalSensor_keepsQueue (k : Nat) (s : State) : KeepsQueue s (execThermalSensor k s) := ⟨_, rfl, by simp⟩

/-! ### Machine/Power -/

@[simp] theorem postPower_pending (new_ old : Nat) (s : State) : (postPower new_ old s).pending = s.pending := by simp [postPower]

@[simp] theorem enterD1_pending (s : State) : (enterD1 s).pending = s.pending := by
  simp only [enterD1]
  split <;> simp

@[simp] theorem leaveD1_pending (k : Nat) (s : State) : (leaveD1 k s).pending = s.pending := by simp [leaveD1]

@[simp] theorem reachD0_pending (s : State) : (reachD0 s).pending = s.pending := by
  simp only [reachD0]
  (repeat' split) <;> simp

@[simp] theorem enterD3_pending (s : State) : (enterD3 s).pending = s.pending := by simp [enterD3]

@[simp] theorem powerEdge_pending (s : State) : (powerEdge s).pending = s.pending := by
  simp only [powerEdge]
  split <;> simp

@[simp] theorem execPowerState_keepsQueue (k : Nat) (s : State) : KeepsQueue s (execPowerState k s) := ⟨_, rfl, by simp⟩
@[simp] theorem execPowerDomain_keepsQueue (k : Nat) (s : State) : KeepsQueue s (execPowerDomain k s) := ⟨_, rfl, by simp⟩

/-! ### Machine/Edge -/

@[simp] theorem closeSlices_pending (s : State) : (closeSlices s).pending = s.pending := by simp [closeSlices]
@[simp] theorem flagLost_pending (s : State) : (flagLost s).pending = s.pending := by simp [flagLost]
@[simp] theorem abortEdge_pending (s : State) : (abortEdge s).pending = s.pending := by simp [abortEdge]
@[simp] theorem refillGroup_pending (o : Op) (p : GPos) (s : State) : (refillGroup o p s).pending = s.pending := by simp [refillGroup]

@[simp] theorem refillReturned_pending (s₀ s : State) : (refillReturned s₀ s).pending = s.pending := by
  simp [refillReturned]

@[simp] theorem holdTelemetry_pending (s₀ s : State) : (holdTelemetry s₀ s).pending = s.pending := by
  simp [holdTelemetry]

@[simp] theorem trimEdge_pending (s : State) : (trimEdge s).pending = s.pending := by simp [trimEdge]
@[simp] theorem darkEdge_pending (s : State) : (darkEdge s).pending = s.pending := by simp [darkEdge]
@[simp] theorem powerReading_pending (s : State) : (powerReading s).pending = s.pending := by simp [powerReading]
@[simp] theorem hardwareEdge_pending (s : State) : (hardwareEdge s).pending = s.pending := by simp [hardwareEdge]
@[simp] theorem plannedEdge_pending (s₀ : State) (refvOk : Bool) (s : State) : (plannedEdge s₀ refvOk s).pending = s.pending := by simp [plannedEdge]
@[simp] theorem execBeatEdge_keepsQueue (refvOk : Bool) (s : State) : KeepsQueue s (execBeatEdge refvOk s) := ⟨_, rfl, by simp⟩

/-! ### Machine/Moves -/

@[simp] theorem sendMove_pending (k : Nat) (o : Op) (s : State) : (sendMove k o s).pending = s.pending := by simp [sendMove]
@[simp] theorem copyMove_pending (o : Op) (s : State) : (copyMove o s).pending = s.pending := by simp [copyMove]
@[simp] theorem addMove_pending (o : Op) (s : State) : (addMove o s).1.pending = s.pending := by simp [addMove]
@[simp] theorem runMove_pending (k : Nat) (reduce : Bool) (o : Op) (s : State) : (runMove k reduce o s).pending = s.pending := by simp [runMove]
@[simp] theorem tryMove_pending (k : Nat) (reduce : Bool) (o : Op) (s : State) : (tryMove k reduce o s).pending = s.pending := by simp [tryMove]
@[simp] theorem execMove_keepsQueue (k : Nat) (s : State) : KeepsQueue s (execMove k s) := ⟨_, rfl, by simp⟩
@[simp] theorem execMoveReduce_keepsQueue (k : Nat) (s : State) : KeepsQueue s (execMoveReduce k s) := ⟨_, rfl, by simp⟩

/-! ### Machine/Security -/

@[simp] theorem execSecSelfTest_keepsQueue (pass : Bool) (s : State) : KeepsQueue s (execSecSelfTest pass s) := ⟨_, rfl, by simp⟩

@[simp] theorem execMeasurementExtend_keepsQueue (reg : Nat) (d : List (BitVec 8)) (s : State) : KeepsQueue s (execMeasurementExtend reg d s) :=
  ⟨_, rfl, by simp⟩

@[simp] theorem execSpdmRequest_keepsQueue (transport code : Nat) (body : List (BitVec 8)) (s : State) :
    KeepsQueue s (execSpdmRequest transport code body s) := ⟨_, rfl, by simp⟩

@[simp] theorem execMctpVendorRequest_keepsQueue (entry ext : List (BitVec 8)) (s : State) : KeepsQueue s (execMctpVendorRequest entry ext s) :=
  ⟨_, rfl, by simp⟩

@[simp] theorem execMgResetWrite_keepsQueue (v : BitVec 8) (soon : Bool) (s : State) : KeepsQueue s (execMgResetWrite v soon s) := ⟨_, rfl, by simp⟩
@[simp] theorem execSetEndpointId_keepsQueue (eid : Nat) (s : State) : KeepsQueue s (execSetEndpointId eid s) := ⟨_, rfl, by simp⟩
@[simp] theorem execDynamicAddressAssign_keepsQueue (a : Nat) (s : State) : KeepsQueue s (execDynamicAddressAssign a s) := ⟨_, rfl, by simp⟩
@[simp] theorem execSecCertRead_keepsQueue (k : Nat) (s : State) : KeepsQueue s (execSecCertRead k s) := ⟨_, rfl, by simp⟩

@[simp] theorem execSecMeasureRead_keepsQueue (k : Nat) (s : State) : KeepsQueue s (execSecMeasureRead k s) := by
  refine ⟨_, rfl, runCmd_checked_pending _ _ _ _ _ fun c => ?_⟩
  simp only [sameQueue_iff]
  split <;> simp

@[simp] theorem execSecLicenceInstall_keepsQueue (k : Nat) (s : State) : KeepsQueue s (execSecLicenceInstall k s) := ⟨_, rfl, by simp⟩
@[simp] theorem execSecLicenceList_keepsQueue (k : Nat) (s : State) : KeepsQueue s (execSecLicenceList k s) := ⟨_, rfl, by simp⟩
@[simp] theorem closeStage_pending (s : State) : (closeStage s).pending = s.pending := by simp [closeStage]
@[simp] theorem putSlot_pending (l : List Byte) (s : State) : (putSlot l s).pending = s.pending := by simp [putSlot]
@[simp] theorem endStage_pending (s : State) : (endStage s).1.pending = s.pending := by simp [endStage]
@[simp] theorem execSecImageStage_keepsQueue (k : Nat) (s : State) : KeepsQueue s (execSecImageStage k s) := ⟨_, rfl, by simp⟩
@[simp] theorem execImageStageIdleTimeout_keepsQueue (s : State) : KeepsQueue s (execImageStageIdleTimeout s) := ⟨_, rfl, by simp⟩
@[simp] theorem execSecImageCommit_keepsQueue (k : Nat) (s : State) : KeepsQueue s (execSecImageCommit k s) := ⟨_, rfl, by simp⟩

/-! ### Machine/RegWrite -/

@[simp] theorem fieldWrite_pending (f o v msk : Nat) (s : State) : (fieldWrite f o v msk s).pending = s.pending := by simp [fieldWrite]
@[simp] theorem lightWrite_pending (o v msk : Nat) (s : State) : (lightWrite o v msk s).pending = s.pending := by simp [lightWrite]
@[simp] theorem memRegWrite_pending (o v msk : Nat) (s : State) : (memRegWrite o v msk s).pending = s.pending := by simp [memRegWrite]

@[simp] theorem ringWrite_pending (o v msk : Nat) (s : State) : (ringWrite o v msk s).pending = s.pending := by
  simp only [ringWrite]
  split <;> simp

@[simp] theorem monWrite_pending (k o v msk : Nat) (s : State) : (monWrite k o v msk s).pending = s.pending := by simp [monWrite]
@[simp] theorem monBlockWrite_pending (o v msk : Nat) (s : State) : (monBlockWrite o v msk s).pending = s.pending := by simp [monBlockWrite]

@[simp] theorem slotWrite_pending (n i v msk : Nat) (s : State) : (slotWrite n i v msk s).pending = s.pending := by
  simp only [slotWrite]
  split <;> simp

@[simp] theorem engineWrite_pending (o v msk : Nat) (s : State) : (engineWrite o v msk s).pending = s.pending := by
  simp only [engineWrite]
  split <;> simp

@[simp] theorem loopWrite_pending (o v msk : Nat) (s : State) : (loopWrite o v msk s).pending = s.pending := by simp [loopWrite]

@[simp] theorem extWrite_pending (n i v msk : Nat) (s : State) : (extWrite n i v msk s).pending = s.pending := by
  simp only [extWrite]
  split <;> simp

@[simp] theorem pwrWrite_pending (o v msk : Nat) (s : State) : (pwrWrite o v msk s).pending = s.pending := by simp [pwrWrite]
@[simp] theorem mmioWrite_pending (o v msk : Nat) (s : State) : (mmioWrite o v msk s).pending = s.pending := by simp [mmioWrite]

@[simp] theorem mbWrite_pending (m o : Nat) (w : BitVec 32) (s : State) : (mbWrite m o w s).pending = s.pending := by
  simp only [mbWrite]
  (repeat' split) <;> simp

@[simp] theorem msixWrite_pending (i : Nat) (w : BitVec 32) (s : State) : (msixWrite i w s).pending = s.pending := by simp [msixWrite]
@[simp] theorem bar2Write_pending (o : Nat) (w : BitVec 32) (s : State) : (bar2Write o w s).pending = s.pending := by simp [bar2Write]

@[simp] theorem mgWrite_pending (code : Nat) (w : BitVec 32) (s : State) : (mgWrite code w s).pending = s.pending := by
  simp only [mgWrite]
  split <;> simp

@[simp] theorem execRegisterWrite_keepsQueue (bar off : Nat) (w : BitVec 32) (s : State) : KeepsQueue s (execRegisterWrite bar off w s) := by
  refine ⟨_, rfl, ?_⟩
  split <;> simp

/-! ### Machine/Status -/

@[simp] theorem statusCmd_pending (k op need : Nat) (out : State → List Byte) (s : State) : (statusCmd k op need out s).pending = s.pending := by
  simp [statusCmd]

@[simp] theorem execDevInfo_keepsQueue (k : Nat) (s : State) : KeepsQueue s (execDevInfo k s) := ⟨_, rfl, by simp⟩
@[simp] theorem execDevUnitStatus_keepsQueue (k : Nat) (s : State) : KeepsQueue s (execDevUnitStatus k s) := ⟨_, rfl, by simp⟩
@[simp] theorem execDevFaultRead_keepsQueue (k : Nat) (s : State) : KeepsQueue s (execDevFaultRead k s) := ⟨_, rfl, by simp⟩
@[simp] theorem execDevMemStatus_keepsQueue (k : Nat) (s : State) : KeepsQueue s (execDevMemStatus k s) := ⟨_, rfl, by simp⟩
@[simp] theorem execDevPartitionStatus_keepsQueue (k : Nat) (s : State) : KeepsQueue s (execDevPartitionStatus k s) := ⟨_, rfl, by simp⟩
@[simp] theorem execPowerStatus_keepsQueue (k : Nat) (s : State) : KeepsQueue s (execPowerStatus k s) := ⟨_, rfl, by simp⟩
@[simp] theorem execLightStatus_keepsQueue (k : Nat) (s : State) : KeepsQueue s (execLightStatus k s) := ⟨_, rfl, by simp⟩
@[simp] theorem execCalStatus_keepsQueue (k : Nat) (s : State) : KeepsQueue s (execCalStatus k s) := ⟨_, rfl, by simp⟩
@[simp] theorem execExecStatus_keepsQueue (k : Nat) (s : State) : KeepsQueue s (execExecStatus k s) := ⟨_, rfl, by simp⟩
@[simp] theorem execLinkStatus_keepsQueue (k : Nat) (s : State) : KeepsQueue s (execLinkStatus k s) := ⟨_, rfl, by simp⟩
@[simp] theorem execLinkMusterStatus_keepsQueue (k : Nat) (s : State) : KeepsQueue s (execLinkMusterStatus k s) := ⟨_, rfl, by simp⟩
@[simp] theorem setRegs_pending (k op blk : Nat) (q : Nat → Nat → Bool) (s : State) : (setRegs k op blk q s).pending = s.pending := by simp [setRegs]
@[simp] theorem execDevMemScrub_keepsQueue (k : Nat) (s : State) : KeepsQueue s (execDevMemScrub k s) := ⟨_, rfl, by simp⟩
@[simp] theorem execThermalConfig_keepsQueue (k : Nat) (s : State) : KeepsQueue s (execThermalConfig k s) := ⟨_, rfl, by simp⟩
@[simp] theorem execMonitorConfig_keepsQueue (k : Nat) (s : State) : KeepsQueue s (execMonitorConfig k s) := ⟨_, rfl, by simp⟩
@[simp] theorem execLoopConfig_keepsQueue (k : Nat) (s : State) : KeepsQueue s (execLoopConfig k s) := ⟨_, rfl, by simp⟩
@[simp] theorem execLoopCoolant_keepsQueue (k : Nat) (s : State) : KeepsQueue s (execLoopCoolant k s) := ⟨_, rfl, by simp⟩
@[simp] theorem execThermalStatus_keepsQueue (k : Nat) (s : State) : KeepsQueue s (execThermalStatus k s) := ⟨_, rfl, by simp⟩
@[simp] theorem execTelemetryRead_keepsQueue (k : Nat) (s : State) : KeepsQueue s (execTelemetryRead k s) := ⟨_, rfl, by simp⟩
@[simp] theorem execTelemetryConfig_keepsQueue (k : Nat) (s : State) : KeepsQueue s (execTelemetryConfig k s) := ⟨_, rfl, by simp⟩
@[simp] theorem execDebugRead_keepsQueue (k : Nat) (s : State) : KeepsQueue s (execDebugRead k s) := ⟨_, rfl, by simp⟩
@[simp] theorem execDebugWrite_keepsQueue (k : Nat) (s : State) : KeepsQueue s (execDebugWrite k s) := ⟨_, rfl, by simp⟩
@[simp] theorem execDebugSteward_keepsQueue (k : Nat) (s : State) : KeepsQueue s (execDebugSteward k s) := ⟨_, rfl, by simp⟩
@[simp] theorem execLoopStatus_keepsQueue (k : Nat) (s : State) : KeepsQueue s (execLoopStatus k s) := ⟨_, rfl, by simp⟩
@[simp] theorem execLoopFreeze_keepsQueue (k : Nat) (s : State) : KeepsQueue s (execLoopFreeze k s) := ⟨_, rfl, by simp⟩
@[simp] theorem execLoopRelease_keepsQueue (k : Nat) (s : State) : KeepsQueue s (execLoopRelease k s) := ⟨_, rfl, by simp⟩
@[simp] theorem execLoopTest_keepsQueue (k : Nat) (s : State) : KeepsQueue s (execLoopTest k s) := ⟨_, rfl, by simp⟩
@[simp] theorem execLoopCapture_keepsQueue (k : Nat) (s : State) : KeepsQueue s (execLoopCapture k s) := ⟨_, rfl, by simp⟩
@[simp] theorem execMonitorStatus_keepsQueue (k : Nat) (s : State) : KeepsQueue s (execMonitorStatus k s) := ⟨_, rfl, by simp⟩
@[simp] theorem execMonitorSelftest_keepsQueue (k : Nat) (s : State) : KeepsQueue s (execMonitorSelftest k s) := ⟨_, rfl, by simp⟩
@[simp] theorem execMonitorInject_keepsQueue (k : Nat) (s : State) : KeepsQueue s (execMonitorInject k s) := ⟨_, rfl, by simp⟩
@[simp] theorem execMonitorRead_keepsQueue (k : Nat) (s : State) : KeepsQueue s (execMonitorRead k s) := ⟨_, rfl, by simp⟩

/-! ### Every command -/

/-- One case for each command of the table: the lemma of its meaning above. -/
theorem exec_keepsQueue (i : Instr) (s : State) : KeepsQueue s (exec i s) := by
  cases i <;> simp [exec]

/-- Settles O1: the two branches of `step`. -/
theorem stepRunsFrontCommand : Obligations.StepRunsFrontCommand := by
  refine ⟨fun c s rest h => ?_, fun s h => ?_⟩ <;> simp only [step, h]

/-- Settles O2: each command's meaning answers a next state and keeps the queue, by the lemmas above on the operations it is made of. -/
theorem everyCommandCompletesAndLeavesTheQueue : Obligations.EveryCommandCompletesAndLeavesTheQueue :=
  exec_keepsQueue

end Sys2Proof.Machine
end

section
/-! SUPPORT. Mailbox commands: how a list of checks answers, and the two ways a command that is taken runs. -/

namespace Sys2Proof.Machine

open Sys2Proof State

/-! ### Checks of a command, and the two ways it runs -/

@[simp] theorem orElse_refuse (b : Bool) (st : Nat) (l : List (Bool × Reply)) :
    orElse (refuse b st :: l) = if b = true then some (.no st) else orElse l := orElse_cons _ _ _
@[simp] theorem orElse_badField (b : Bool) (off : Nat) (l : List (Bool × Reply)) :
    orElse (badField b off :: l) = if b = true then some (.no stBadField off) else orElse l := orElse_cons _ _ _
@[simp] theorem orElse_outOfRange (b : Bool) (off : Nat) (l : List (Bool × Reply)) :
    orElse (outOfRange b off :: l) = if b = true then some (.no stOutOfRange off) else orElse l := orElse_cons _ _ _
@[simp] theorem orElse_rsvd (c : Cmd) (i j : Nat) (l : List (Bool × Reply)) :
    orElse (c.rsvd i j :: l) = if c.at i (j - i) = 0 then orElse l else some (.no stBadField (c.firstBad i j)) := by
  unfold Cmd.rsvd
  rw [orElse_cons, cmd_zero_eq]
  by_cases h : c.at i (j - i) = 0 <;> simp [h]

section
variable {s : State} {k op : Nat} {c : Cmd}

/-- A command that is taken and refused by a check is answered so, and nothing else changes. -/
theorem runCmd_refused (h : Taken s k op c) {l : Cmd → State → List (Bool × Reply)} {act : Cmd → State → State → State × Reply} {r : Reply}
    (hl : orElse (l c s) = some r) (hr : r.wait = false) : runCmd k op (fun c s => checked (l c s) (act c s) s) s = finishCmd k r s := by
  rw [runCmd_taken h, checked_fail _ _ _ _ hl, hr]
  rfl

/-- A command that is taken, passes its checks and does not wait acts and is answered. -/
theorem runCmd_acts (h : Taken s k op c) {l : Cmd → State → List (Bool × Reply)} {act : Cmd → State → State → State × Reply} {t : State} {r : Reply}
    (hl : orElse (l c s) = none) (ha : act c s s = (t, r)) (hr : r.wait = false) :
    runCmd k op (fun c s => checked (l c s) (act c s) s) s = finishCmd k r t := by
  rw [runCmd_taken h, checked_pass _ _ _ hl, ha, hr]
  rfl

/-- A command that is taken and passes its checks, whose work goes on, acts and waits. -/
theorem runCmd_waits (h : Taken s k op c) {l : Cmd → State → List (Bool × Reply)} {act : Cmd → State → State → State × Reply} {t : State} {r : Reply}
    (hl : orElse (l c s) = none) (ha : act c s s = (t, r)) (hr : r.wait = true) :
    runCmd k op (fun c s => checked (l c s) (act c s) s) s = startCmd k r.commit t := by
  rw [runCmd_taken h, checked_pass _ _ _ hl, ha, hr]
  rfl

end

end Sys2Proof.Machine
end

section
/-! Writes of mailbox registers and of registers of the four windows. -/

namespace Sys2Proof.Machine

open Sys2Proof State

/-! ### Mailbox registers -/

/-- Every field of a mailbox after a write of 1 to ENABLE that takes it into use (R383, R384). -/
theorem writeEnable_on {b : Mb} (busy : Bool) (he : b.enable = false) (hd : b.draining = false) (hb : basesOk b = true) :
    b.writeEnable true busy = { b with enable := true, cmdHead := 0, cmdTail := 0, cplHead := 0, cplTail := 0, evtTail := 0, evtHead := 0, lost := 0, bell := none } := by
  simp [Mb.writeEnable, he, hd, hb]

theorem writeEnable_badBases {b : Mb} (busy : Bool) (he : b.enable = false) (hd : b.draining = false) (hb : basesOk b = false) :
    b.writeEnable true busy = { b with baseErr := true } := by
  simp [Mb.writeEnable, he, hd, hb]

theorem writeEnable_off {b : Mb} (busy : Bool) (he : b.enable = true) :
    b.writeEnable false busy = { b with enable := false, draining := busy, bell := none } := by
  simp [Mb.writeEnable, he]

/-- A write of MB_CTRL to an open window sets its mailbox and no other. -/
theorem mbCtrlWrite_open {s : State} {m : Nat} (w : BitVec 32) (h : windowOpen s m = true) :
    mbCtrlWrite m w s = s.setMb m { (s.mb m).writeEnable (w.getLsbD 0) (decide (0 < inflight s m)) with
      cplIrq := w.getLsbD 1, evtIrq := w.getLsbD 2, mask := w.extractLsb' 9 14 } := by
  simp [mbCtrlWrite, h]

theorem mbTailWrite_near {s : State} {m : Nat} {w : BitVec 32} (h : windowOpen s m = true) (he : (s.mb m).enable = true)
    (hw : (w - (s.mb m).cmdHead).toNat ≤ 256) : mbTailWrite m w s = s.setMb m { s.mb m with cmdTail := w } := by
  rw [mbTailWrite, if_pos ⟨h, he⟩, if_neg (Nat.not_lt.mpr hw), modMb_eq]

theorem mbTailWrite_far {s : State} {m : Nat} {w : BitVec 32} (h : windowOpen s m = true) (he : (s.mb m).enable = true)
    (hw : 256 < (w - (s.mb m).cmdHead).toNat) : mbTailWrite m w s = s.setMb m { s.mb m with ringErr := true } := by
  rw [mbTailWrite, if_pos ⟨h, he⟩, if_pos hw, modMb_eq]

theorem mbTailWrite_disabled {s : State} {m : Nat} (w : BitVec 32) (he : (s.mb m).enable = false) : mbTailWrite m w s = s := by
  simp [mbTailWrite, he]

theorem mbBellWrite_disabled {s : State} {m : Nat} (w : BitVec 32) (he : (s.mb m).enable = false) : mbBellWrite m w s = s := by
  simp [mbBellWrite, he]

theorem mbBellWrite_rings {s : State} {m : Nat} {w : BitVec 32} (h : windowOpen s m = true) (he : (s.mb m).enable = true)
    (hw : w.getLsbD 0 = true) : mbBellWrite m w s = s.setMb m { s.mb m with bell := some (s.mb m).cmdTail } := by
  rw [mbBellWrite, if_pos ⟨h, he, hw⟩, modMb_eq]

/-! ### Register writes -/

theorem windowOpen_lt {s : State} {m : Nat} (h : windowOpen s m = true) : m < 64 := by
  simp only [windowOpen, Bool.and_eq_true, decide_eq_true_eq] at h
  exact h.1.1

/-- CPL_HEAD stands at 0x28 of its mailbox's 16 KiB window of BAR2. -/
theorem bar2Write_cplHead {s : State} {m : Nat} (w : BitVec 32) (h : windowOpen s m = true) :
    bar2Write (0x4000 * m + 0x28) w s = s.setMb m { s.mb m with cplHead := w } := by
  have hm := windowOpen_lt h
  have hdiv : (0x4000 * m + 0x28) / 0x4000 = m := by omega
  have hmod : (0x4000 * m + 0x28) % 0x4000 = 0x28 := by omega
  rw [bar2Write, if_pos (by omega), hdiv, hmod]
  simp [mbWrite, h]

/-- A write of GRACE takes effect for the values 5 to 500, and for no other (R445). -/
theorem mmioWrite_grace (v : Nat) (s : State) :
    mmioWrite 0x60100 v 0xFFFFFFFF s =
      if 5 ≤ v % 1024 ∧ v % 1024 ≤ 500 then { s with thm := { s.thm with grace := v % 1024 } } else s := by
  simp [mmioWrite, pwrWrite, fieldW, bits]

/-- Settles O49: each register by the lemma that says what a write to it does. -/
theorem mailboxRegistersAct : Obligations.MailboxRegistersAct := by
  refine ⟨?_, ?_, ?_, ?_, ?_, ?_, ?_, ?_, ?_, ?_, ?_, ?_⟩
  · intro s m w h he hd hb hw
    refine ⟨_, congrArg Host.Outcome.next (mbCtrlWrite_open w h), ?_⟩
    rw [hw, writeEnable_on _ he hd hb]
    refine ⟨?_, ?_, ?_, ?_, ?_, ?_, ?_, ?_, ?_, ?_, ?_, fun j hj => by simp [hj], rfl⟩ <;> simp
  · intro s m w h he hd hb hw
    refine ⟨_, congrArg Host.Outcome.next (mbCtrlWrite_open w h), ?_⟩
    rw [hw, writeEnable_badBases _ he hd hb]
    simp [he]
  · intro s m w h he hw
    refine ⟨_, congrArg Host.Outcome.next (mbCtrlWrite_open w h), ?_⟩
    rw [hw, writeEnable_off _ he]
    simp
  · exact fun s m w h he hw => congrArg Host.Outcome.next (mbTailWrite_near h he hw)
  · exact fun s m w h he hw => congrArg Host.Outcome.next (mbTailWrite_far h he hw)
  · exact fun s m w he => ⟨congrArg Host.Outcome.next (mbTailWrite_disabled w he), congrArg Host.Outcome.next (mbBellWrite_disabled w he)⟩
  · exact fun s m w h he hw => congrArg Host.Outcome.next (mbBellWrite_rings h he hw)
  · intro s w h hlo hhi
    simp [exec, execRegisterWrite, h, mmioWrite_grace, hlo, hhi]
  · intro s w hw
    have hout : ¬(5 ≤ w.toNat % 1024 ∧ w.toNat % 1024 ≤ 500) := by omega
    simp [exec, execRegisterWrite, mmioWrite_grace, hout]
  · intro s m w hr hp h
    have halign : (0x4000 * m + 0x28) % 4 = 0 := by omega
    simp [exec, execRegisterWrite, hr, hp, halign, bar2Write_cplHead w h]
  · intro s w h
    simp [exec, execRegisterWrite, h, mgWrite]
  · intro s off w h
    simp [exec, execRegisterWrite, h]

end Sys2Proof.Machine
end

section
/-! The link commands: what they do to ports, pins and the torus. -/

namespace Sys2Proof.Machine

open Sys2Proof State

/-! ### Ports: what re-steering, training and disabling leave of a state

`resteer` moves packets only, so a port keeps every field but `waiting`; `startTraining` and `disablePort` change one port besides, and LE_EN. -/

/-- `t` is `s` but for packets that wait at another port. -/
def Resteered (s t : State) : Prop :=
  t = { s with ports := t.ports } ∧ ∀ q, ∃ w, t.port q = { s.port q with waiting := w }

theorem resteered_refl (s : State) : Resteered s s := ⟨rfl, fun q => ⟨(s.port q).waiting, rfl⟩⟩

theorem resteered_trans {s t u : State} (h : Resteered s t) (h' : Resteered t u) : Resteered s u := by
  obtain ⟨ht, hp⟩ := h
  obtain ⟨hu, hq⟩ := h'
  refine ⟨by rw [hu, ht], fun q => ?_⟩
  obtain ⟨w, hw⟩ := hp q
  obtain ⟨w', hw'⟩ := hq q
  exact ⟨w', by rw [hw', hw]⟩

theorem resteered_modPort (s : State) (p : Nat) (f : List Packet → List Packet) :
    Resteered s (s.modPort p (fun x => { x with waiting := f x.waiting })) := by
  refine ⟨rfl, fun q => ?_⟩
  rw [port_modPort]
  split
  next h => exact ⟨f (s.port p).waiting, by rw [h]⟩
  next => exact ⟨(s.port q).waiting, rfl⟩

theorem resteered_resteer (p : Nat) (s : State) : Resteered s (resteer p s) := by
  refine foldl_inv (Resteered s) _ (fun t pk ht => ?_) _ _ (resteered_modPort s p _)
  split <;> exact resteered_trans ht (resteered_modPort _ _ (· ++ [pk]))

/-- `t` is `s` but for its ports and pins. -/
def OnlyPorts (s t : State) : Prop := t = { s with ports := t.ports, pins := t.pins }

theorem onlyPorts_trans {s t u : State} (h : OnlyPorts s t) (h' : OnlyPorts t u) : OnlyPorts s u := by
  unfold OnlyPorts at *
  rw [h', h]

theorem Resteered.onlyPorts {s t : State} (h : Resteered s t) : OnlyPorts s t := by
  have ht := h.1
  unfold OnlyPorts
  rw [ht]

/-- A command answered after a change of ports and pins: only those and the commands differ. -/
theorem OnlyPorts.finishCmd {s t : State} (h : OnlyPorts s t) (k : Nat) (r : Reply) :
    finishCmd k r t = { s with cmds := (finishCmd k r t).cmds, ports := t.ports, pins := t.pins } := by
  unfold OnlyPorts at h
  rw [h]
  rfl

theorem OnlyPorts.startCmd {s t : State} (h : OnlyPorts s t) (k : Nat) (b : Bool) :
    startCmd k b t = { s with cmds := (startCmd k b t).cmds, ports := t.ports, pins := t.pins } := by
  unfold OnlyPorts at h
  rw [h]
  rfl

theorem OnlyPorts.cmds {s t : State} (h : OnlyPorts s t) : t.cmds = s.cmds := by
  unfold OnlyPorts at h
  rw [h]

theorem OnlyPorts.link {s t : State} (h : OnlyPorts s t) : t.link = s.link := by
  unfold OnlyPorts at h
  rw [h]

theorem OnlyPorts.tim {s t : State} (h : OnlyPorts s t) : t.tim = s.tim := by
  unfold OnlyPorts at h
  rw [h]

theorem OnlyPorts.sec {s t : State} (h : OnlyPorts s t) : t.sec = s.sec := by
  unfold OnlyPorts at h
  rw [h]

@[simp] theorem startCmd_ports (k : Nat) (b : Bool) (s : State) : (startCmd k b s).ports = s.ports := rfl
@[simp] theorem startCmd_pins (k : Nat) (b : Bool) (s : State) : (startCmd k b s).pins = s.pins := rfl
@[simp] theorem startCmd_tim (k : Nat) (b : Bool) (s : State) : (startCmd k b s).tim = s.tim := rfl

theorem startTraining_onlyPorts (p : Nat) (s : State) : OnlyPorts s (startTraining p s) :=
  onlyPorts_trans (t := (s.modPort p _).modPins _) rfl (resteered_resteer p _).onlyPorts

/-- The port that starts training keeps its other fields. -/
theorem startTraining_port (p : Nat) (s : State) :
    ∃ w, (startTraining p s).port p = { s.port p with state := 1, retries := 0, dropAt := none, waiting := w } := by
  obtain ⟨w, hw⟩ := (resteered_resteer p ((s.modPort p (fun l => { l with state := 1, retries := 0, dropAt := none })).modPins (fun x =>
    { x with leEn := x.leEn ||| BitVec.twoPow 24 p }))).2 p
  refine ⟨w, hw.trans ?_⟩
  rw [port_congr _ _ (modPins_ports _ _), port_modPort, if_pos rfl]

theorem startTraining_pins (p : Nat) (s : State) :
    (startTraining p s).pins = { s.pins with leEn := s.pins.leEn ||| BitVec.twoPow 24 p } := by
  unfold startTraining
  rw [(resteered_resteer p _).1]
  rfl

theorem answerPort_idle {s : State} {p : Nat} (r : Reply) (h : (s.port p).cmd = none) : answerPort p r s = s := by
  simp only [answerPort, h]

/-- With no command waiting for the port, disabling it re-steers its packets and turns its engine off. -/
theorem disablePort_idle {s : State} {p : Nat} (reason : Nat) (h : (s.port p).cmd = none) :
    disablePort p reason s = (resteer p (s.modPort p (fun l => { l with state := 3, reason := reason, dropAt := none }))).modPins (fun x =>
      { x with leEn := x.leEn &&& ~~~(BitVec.twoPow 24 p) }) := by
  unfold disablePort
  rw [answerPort_idle]
  obtain ⟨w, hw⟩ := (resteered_resteer p (s.modPort p (fun l => { l with state := 3, reason := reason, dropAt := none }))).2 p
  rw [hw, port_modPort, if_pos rfl]
  exact h

theorem disablePort_onlyPorts {s : State} {p : Nat} (reason : Nat) (h : (s.port p).cmd = none) : OnlyPorts s (disablePort p reason s) := by
  rw [disablePort_idle reason h]
  exact onlyPorts_trans (t := s.modPort p _) rfl (onlyPorts_trans (resteered_resteer p _).onlyPorts rfl)

/-- What disabling a port leaves of each port, and of the port itself. -/
theorem disablePort_port {s : State} {p : Nat} (reason : Nat) (h : (s.port p).cmd = none) (q : Nat) :
    ∃ w, (disablePort p reason s).port q =
      if q = p then { s.port p with state := 3, reason := reason, dropAt := none, waiting := w } else { s.port q with waiting := w } := by
  rw [disablePort_idle reason h, port_congr _ _ (modPins_ports _ _)]
  obtain ⟨w, hw⟩ := (resteered_resteer p (s.modPort p (fun l => { l with state := 3, reason := reason, dropAt := none }))).2 q
  refine ⟨w, hw.trans ?_⟩
  rw [port_modPort]
  split <;> rfl

theorem disablePort_pins {s : State} {p : Nat} (reason : Nat) (h : (s.port p).cmd = none) :
    (disablePort p reason s).pins = { s.pins with leEn := s.pins.leEn &&& ~~~(BitVec.twoPow 24 p) } := by
  rw [disablePort_idle reason h]
  unfold modPins
  rw [(resteered_resteer p _).1]
  rfl

/-! ### Flat dimensions and the start of muster -/

/-- Ports and pins alone differ, and no command waits for a port. -/
def IdlePorts (s t : State) : Prop := OnlyPorts s t ∧ ∀ p, (t.port p).cmd = none

theorem disableFlat_idlePorts {s : State} (h : ∀ p, (s.port p).cmd = none) : IdlePorts s (disableFlat s) := by
  refine foldl_inv (IdlePorts s) _ (fun t p ht => ?_) _ _ ⟨rfl, h⟩
  obtain ⟨hframe, hidle⟩ := ht
  refine ⟨onlyPorts_trans hframe (disablePort_onlyPorts 0 (hidle p)), fun q => ?_⟩
  obtain ⟨w, hw⟩ := disablePort_port 0 (hidle p) q
  rw [hw]
  split
  next => exact hidle p
  next => exact hidle q

theorem startMuster_onlyPorts (s : State) :
    OnlyPorts { s with link := { s.link with phase := 1, nonce := freeBytes 32 s }, free := s.free + 32 } (startMuster s) :=
  foldl_inv (OnlyPorts _) _ (fun t p ht => onlyPorts_trans ht (startTraining_onlyPorts p t)) _ _ rfl

/-- Muster starts with a phase, a nonce and the training of ports: the rest of the state stands (R373). -/
theorem tryMuster_frame (s : State) : ∃ ph nonce free ps pn,
    tryMuster s = { s with link := { s.link with phase := ph, nonce := nonce }, free := free, ports := ps, pins := pn } := by
  unfold tryMuster
  split
  · exact ⟨1, freeBytes 32 s, s.free + 32, (startMuster s).ports, (startMuster s).pins, startMuster_onlyPorts s⟩
  · exact ⟨s.link.phase, s.link.nonce, s.free, s.ports, s.pins, rfl⟩

theorem tryMuster_tim (s : State) : (tryMuster s).tim = s.tim := by
  obtain ⟨_, _, _, _, _, h⟩ := tryMuster_frame s
  rw [h]

theorem tryMuster_sec (s : State) : (tryMuster s).sec = s.sec := by
  obtain ⟨_, _, _, _, _, h⟩ := tryMuster_frame s
  rw [h]

theorem tryMuster_cmds (s : State) : (tryMuster s).cmds = s.cmds := by
  obtain ⟨_, _, _, _, _, h⟩ := tryMuster_frame s
  rw [h]

theorem tryMuster_link (s : State) : ∃ ph nonce, (tryMuster s).link = { s.link with phase := ph, nonce := nonce } := by
  obtain ⟨ph, nonce, _, _, _, h⟩ := tryMuster_frame s
  exact ⟨ph, nonce, by rw [h]⟩

/-! ### The link commands -/

/-- The licence check of a port passes for the six ports that need none, and with LINK24 for all. -/
theorem orElse_portLicence {s : State} {c : Cmd} (l : List (Bool × Reply)) (h : c.at 16 1 < 6 ∨ licensed s 1 = true) :
    orElse (portLicence s c :: l) = orElse l := by
  unfold portLicence
  rcases h with h | h <;> simp [h, Nat.not_le.mpr]

theorem orElse_portCheck {c : Cmd} (l : List (Bool × Reply)) (h : c.at 16 1 < 24) : orElse (portCheck c :: l) = orElse l := by
  rw [portCheck, orElse_outOfRange, if_neg]
  rw [decide_eq_true_eq]
  exact Nat.not_le.mpr h

theorem linkPortRetrain_trains (s : State) (k p : Nat) (c : Cmd) (h : Taken s k 0x0803 c) (hp : c.at 16 1 = p) (h24 : p < 24)
    (hl : p < 6 ∨ licensed s 1 = true) (hz : c.at 17 47 = 0) (hst : (s.port p).state = 0 ∨ (s.port p).state = 2) :
    Completes (.linkPortRetrain k) s (fun t => Answered s t k { status := stAccepted } ∧ (t.port p).state = 1 ∧ (t.port p).retries = 0 ∧
      t = { s with cmds := t.cmds, ports := t.ports, pins := t.pins }) := by
  subst hp
  have hrun : exec (.linkPortRetrain k) s = .next (finishCmd k { status := stAccepted } (startTraining (c.at 16 1) s)) := by
    refine congrArg Host.Outcome.next (runCmd_acts h ?_ rfl rfl)
    rw [orElse_portLicence _ hl, orElse_portCheck _ h24]
    rcases hst with hst | hst <;> simp [hst, hz]
  have hframe := startTraining_onlyPorts (c.at 16 1) s
  obtain ⟨w, hw⟩ := startTraining_port (c.at 16 1) s
  refine ⟨_, hrun, answered_finish _ _ _ _ hframe.cmds, ?_, ?_, hframe.finishCmd _ _⟩ <;>
    rw [port_congr _ _ (finishCmd_ports _ _ _), hw]

theorem linkPortRetrain_refused (s : State) (k p : Nat) (c : Cmd) (h : Taken s k 0x0803 c) (hp : c.at 16 1 = p) (h24 : p < 24)
    (hl : p < 6 ∨ licensed s 1 = true) (hst : (s.port p).state = 3) :
    Completes (.linkPortRetrain k) s (fun t => (∃ r, Answered s t k r ∧ r.status = stOutOfRange) ∧ t = { s with cmds := t.cmds }) := by
  subst hp
  have hrun : exec (.linkPortRetrain k) s = .next (finishCmd k (.no stOutOfRange 16) s) := by
    refine congrArg Host.Outcome.next (runCmd_refused h ?_ rfl)
    rw [orElse_portLicence _ hl, orElse_portCheck _ h24]
    simp [hst]
  exact ⟨_, hrun, ⟨_, answered_finish _ _ _ _ rfl, rfl⟩, rfl⟩

theorem linkPortDisable_disables (s : State) (k p : Nat) (c : Cmd) (h : Taken s k 0x0804 c) (hp : c.at 16 1 = p) (h24 : p < 24)
    (hz : c.at 17 47 = 0) (hst : (s.port p).state ≠ 3) (hlast : upPorts s (dirOf p) ≠ [p] ∨ (s.port p).waiting = []) (hcmd : (s.port p).cmd = none) :
    Completes (.linkPortDisable k) s (fun t => Answered s t k {} ∧ (t.port p).state = 3 ∧ (t.port p).reason = 7 ∧ t.pins.leEn.getLsbD p = false ∧
      t = { s with cmds := t.cmds, ports := t.ports, pins := t.pins }) := by
  subst hp
  have hrun : exec (.linkPortDisable k) s = .next (finishCmd k {} (disablePort (c.at 16 1) 7 s)) := by
    refine congrArg Host.Outcome.next (runCmd_acts h ?_ (if_neg hst) rfl)
    rw [orElse_portCheck _ h24]
    rcases hlast with hlast | hlast <;> simp [hz, hlast]
  have hframe := disablePort_onlyPorts 7 hcmd
  obtain ⟨w, hw⟩ := disablePort_port 7 hcmd (c.at 16 1)
  rw [if_pos rfl] at hw
  refine ⟨_, hrun, answered_finish _ _ _ _ hframe.cmds, ?_, ?_, ?_, hframe.finishCmd _ _⟩
  · rw [port_congr _ _ (finishCmd_ports _ _ _), hw]
  · rw [port_congr _ _ (finishCmd_ports _ _ _), hw]
  · rw [finishCmd_pins, disablePort_pins 7 hcmd]
    simp

theorem linkPortEnable_trains (s : State) (k p : Nat) (c : Cmd) (h : Taken s k 0x0805 c) (hp : c.at 16 1 = p) (h24 : p < 24)
    (hl : p < 6 ∨ licensed s 1 = true) (hflat : (s.link.configured && lenAt s (p % 6 / 2) == 1) = false) (hz : c.at 17 47 = 0)
    (hcmd : (s.port p).cmd = none) (hmuster : inMuster s = false) (hst : (s.port p).state ≠ 2) :
    Completes (.linkPortEnable k) s (fun t => Waiting t k ∧ (t.port p).state = 1 ∧ (t.port p).cmd = some k ∧ (t.port p).reason = 0 ∧
      t.pins.leEn.getLsbD p = true ∧ t = { s with cmds := t.cmds, ports := t.ports, pins := t.pins }) := by
  subst hp
  let s₁ := s.modPort (c.at 16 1) (fun l => { l with reason := 0, cmd := some k })
  have hrun : exec (.linkPortEnable k) s = .next (startCmd k true (startTraining (c.at 16 1) s₁)) := by
    refine congrArg Host.Outcome.next (runCmd_waits (r := { wait := true }) h ?_ (if_neg hst) rfl)
    rw [orElse_portLicence _ hl, orElse_portCheck _ h24, orElse_outOfRange, hflat]
    simp [hz, hcmd, hmuster]
  have hframe : OnlyPorts s (startTraining (c.at 16 1) s₁) := onlyPorts_trans (t := s₁) rfl (startTraining_onlyPorts _ s₁)
  obtain ⟨w, hw⟩ := startTraining_port (c.at 16 1) s₁
  have hs₁ : s₁.port (c.at 16 1) = { s.port (c.at 16 1) with reason := 0, cmd := some k } := by rw [port_modPort, if_pos rfl]
  rw [hs₁] at hw
  refine ⟨_, hrun, waiting_start h _ _ hframe.cmds, ?_, ?_, ?_, ?_, hframe.startCmd _ _⟩
  · rw [port_congr _ _ (startCmd_ports _ _ _), hw]
  · rw [port_congr _ _ (startCmd_ports _ _ _), hw]
  · rw [port_congr _ _ (startCmd_ports _ _ _), hw]
  · rw [startCmd_pins, startTraining_pins]
    simp [h24]

theorem linkFec_trains (s : State) (k p m : Nat) (c : Cmd) (h : Taken s k 0x0806 c) (hp : c.at 16 1 = p) (h24 : p < 24)
    (hl : p < 6 ∨ licensed s 1 = true) (hm : c.at 17 1 = m) (hm2 : m < 2) (hz : c.at 18 46 = 0) (hst : (s.port p).state ≠ 3) :
    Completes (.linkFec k) s (fun t => Answered s t k {} ∧ (t.port p).lightNext = (m == 1) ∧ (t.port p).light = (s.port p).light ∧ (t.port p).state = 1 ∧
      t = { s with cmds := t.cmds, ports := t.ports, pins := t.pins }) := by
  subst hp hm
  let s₁ := s.modPort (c.at 16 1) (fun l => { l with lightNext := c.at 17 1 == 1 })
  have hs₁ : s₁.port (c.at 16 1) = { s.port (c.at 16 1) with lightNext := c.at 17 1 == 1 } := by rw [port_modPort, if_pos rfl]
  have hrun : exec (.linkFec k) s = .next (finishCmd k {} (startTraining (c.at 16 1) s₁)) := by
    refine congrArg Host.Outcome.next (runCmd_acts h ?_ (congrArg (·, ({} : Reply)) (if_neg ?_)) rfl)
    · rw [orElse_portLicence _ hl, orElse_portCheck _ h24]
      simp [hz, Nat.not_lt.mpr (Nat.le_of_lt_succ hm2)]
    · rw [hs₁]
      exact hst
  have hframe : OnlyPorts s (startTraining (c.at 16 1) s₁) := onlyPorts_trans (t := s₁) rfl (startTraining_onlyPorts _ s₁)
  obtain ⟨w, hw⟩ := startTraining_port (c.at 16 1) s₁
  rw [hs₁] at hw
  refine ⟨_, hrun, answered_finish _ _ _ _ hframe.cmds, ?_, ?_, ?_, hframe.finishCmd _ _⟩ <;>
    rw [port_congr _ _ (finishCmd_ports _ _ _), hw]

theorem linkFec_unlicensed (s : State) (k p : Nat) (c : Cmd) (h : Taken s k 0x0806 c) (hp : c.at 16 1 = p) (h6 : 6 ≤ p) (h24 : p < 24)
    (hl : licensed s 1 = false) :
    Completes (.linkFec k) s (fun t => Answered s t k { status := stNotLicensed } ∧ t = { s with cmds := t.cmds }) := by
  subst hp
  have hrun : exec (.linkFec k) s = .next (finishCmd k (.no stNotLicensed) s) := by
    refine congrArg Host.Outcome.next (runCmd_refused h ?_ rfl)
    simp [portLicence, h6, h24, hl]
  exact ⟨_, hrun, answered_finish _ _ _ _ rfl, rfl⟩

theorem linkRejoin_floods (s : State) (k d b : Nat) (c : Cmd) (h : Taken s k 0x0808 c) (hd : c.at 16 2 = d) (hcfg : s.link.configured = true)
    (hroot : s.link.coord = s.link.root) (habs : d ∈ s.link.absent) (hz : c.at 18 46 = 0) (hb : b = s.tim.beat + 1000) :
    Completes (.linkRejoin k) s (fun t => Answered s t k {} ∧
      t.link = { s.link with floods := s.link.floods ++ [(23, b, [d])], pendRoute := s.link.pendRoute ++ [(d, true, b)] } ∧
      t = { s with cmds := t.cmds, link := t.link }) := by
  subst hd hb
  refine ⟨_, congrArg Host.Outcome.next (runCmd_acts h ?_ rfl rfl), answered_finish _ _ _ _ rfl, rfl, rfl⟩
  simp [hcfg, hroot, habs, hz]

theorem linkTime_selects (s : State) (k m : Nat) (c : Cmd) (h : Taken s k 0x0809 c) (hm : c.at 16 1 = m) (hm2 : m < 2) (hz : c.at 17 47 = 0)
    (hsel : s.tim.sel = 0) (hticks : s.tim.tickUse = false) :
    Completes (.linkTime k) s (fun t => Waiting t k ∧
      t.tim = { s.tim with sel := (if m = 0 then 1 else 3), selGood := 0, selBeats := 0, selAny := false, selCmd := k, tickMiss := 0 } ∧
      t = { s with cmds := t.cmds, tim := t.tim }) := by
  subst hm
  refine ⟨_, congrArg Host.Outcome.next (runCmd_waits h ?_ (if_neg (by simp [hticks])) rfl), waiting_start h _ _ rfl, ?_, rfl⟩
  · simp [hz, hsel, Nat.not_lt.mpr (Nat.le_of_lt_succ hm2)]
  · simp [hticks]

theorem linkTime_follows (s : State) (k : Nat) (c : Cmd) (h : Taken s k 0x0809 c) (hm : c.at 16 1 = 0) (hz : c.at 17 47 = 0)
    (hsel : s.tim.sel = 0) (hticks : s.tim.tickUse = true) :
    Completes (.linkTime k) s (fun t => Answered s t k {} ∧ t = { s with cmds := t.cmds }) := by
  refine ⟨_, congrArg Host.Outcome.next (runCmd_acts h ?_ (if_pos ⟨hm, hticks⟩) rfl), answered_finish _ _ _ _ rfl, rfl⟩
  simp [hm, hz, hsel]

theorem linkTime_busy (s : State) (k : Nat) (c : Cmd) (h : Taken s k 0x0809 c) (hm : c.at 16 1 < 2) (hz : c.at 17 47 = 0) (hsel : s.tim.sel ≠ 0) :
    Completes (.linkTime k) s (fun t => Answered s t k { status := stBusy } ∧ t = { s with cmds := t.cmds }) := by
  refine ⟨_, congrArg Host.Outcome.next (runCmd_refused (r := .no stBusy) h ?_ rfl), answered_finish _ _ _ _ rfl, rfl⟩
  simp [hz, hsel, Nat.not_lt.mpr (Nat.le_of_lt_succ hm)]

theorem linkConfig_configures (s : State) (k x y z : Nat) (c : Cmd) (h : Taken s k 0x0802 c) (hx : c.at 18 1 = x) (hy : c.at 19 1 = y) (hz : c.at 20 1 = z)
    (hx1 : 1 ≤ x) (hx16 : x ≤ 16) (hy1 : 1 ≤ y) (hy24 : y ≤ 24) (hz1 : 1 ≤ z) (hz32 : z ≤ 32) (hl : x * y * z ≤ 64 ∨ licensed s 5 = true)
    (hown : c.at 16 2 % 16 < x ∧ c.at 16 2 / 16 % 32 < y ∧ c.at 16 2 / 512 < z)
    (hroot : c.at 22 2 % 16 < x ∧ c.at 22 2 / 16 % 32 < y ∧ c.at 22 2 / 512 < z)
    (hroot2 : c.at 24 2 % 16 < x ∧ c.at 24 2 / 16 % 32 < y ∧ c.at 24 2 / 512 < z)
    (h21 : c.at 21 1 = 0) (h26 : c.at 26 38 = 0) (hphase : s.link.phase = 0) (hadm : s.tim.everAdmitted = false) (hcmd : ∀ p, (s.port p).cmd = none) :
    Completes (.linkConfig k) s (fun t => Answered s t k {} ∧ t.link.configured = true ∧ t.link.coord = c.at 16 2 ∧ t.link.lenX + 1 = x ∧ t.link.lenY + 1 = y ∧
      t.link.lenZ + 1 = z ∧ t.link.root = c.at 22 2 ∧ t.link.root2 = c.at 24 2 ∧ t.tim = { s.tim with admits := false, aloneStart := false } ∧
      t.sec = (extendConfig c s).sec) := by
  subst hx hy hz
  let s₁ : State := { s with
    link := { s.link with coord := c.at 16 2, lenX := c.at 18 1 - 1, lenY := c.at 19 1 - 1, lenZ := c.at 20 1 - 1, root := c.at 22 2, root2 := c.at 24 2, configured := true }
    tim := { s.tim with admits := false, aloneStart := false }, sec := (extendConfig c s).sec }
  have hrun : exec (.linkConfig k) s = .next (finishCmd k {} (tryMuster (disableFlat s₁))) := by
    refine congrArg Host.Outcome.next (runCmd_acts h ?_ rfl rfl)
    rw [orElse_refuse, if_neg (by rcases hl with hl | hl <;> simp [hl, Nat.not_lt.mpr])]
    simp [hown, hroot, hroot2, h21, h26, hphase, hadm, Nat.not_lt.mpr, hx16, hy24, hz32, Nat.ne_of_gt hx1, Nat.ne_of_gt hy1, Nat.ne_of_gt hz1]
  have hflat : OnlyPorts s₁ (disableFlat s₁) := (disableFlat_idlePorts (s := s₁) hcmd).1
  obtain ⟨ph, nonce, hlink⟩ := tryMuster_link (disableFlat s₁)
  rw [hflat.link] at hlink
  refine ⟨_, hrun, answered_finish _ _ _ _ ((tryMuster_cmds _).trans hflat.cmds), ?_⟩
  rw [finishCmd_link, finishCmd_tim, finishCmd_sec, hlink, tryMuster_tim, tryMuster_sec, hflat.tim, hflat.sec]
  exact ⟨rfl, rfl, Nat.sub_add_cancel hx1, Nat.sub_add_cancel hy1, Nat.sub_add_cancel hz1, rfl, rfl, rfl, rfl⟩

/-- Settles O48: each clause by the lemma that says what its command does. -/
theorem linkCommandsRun : Obligations.LinkCommandsRun :=
  ⟨linkConfig_configures, linkPortRetrain_trains, linkPortRetrain_refused, linkPortDisable_disables, linkPortEnable_trains, linkFec_trains,
    linkFec_unlicensed, linkRejoin_floods, linkTime_selects, linkTime_follows, linkTime_busy⟩

end Sys2Proof.Machine
end

section
/-! Symbol slots: what a slot leaves of the ops, the accumulator and memory, and the one accumulator row that a slot of a running group writes. -/

namespace Sys2Proof.Machine

open Sys2Proof State

/-! ### What the operations of a slot leave unchanged

A slot's judging, its estimators and its calibration counts are `Quiet`; what a running group's slot does beside its accumulator writes keeps the
`SameStore`. -/

/-- `t` has the accumulator, the memory, the memory errors and the throttle of `s`. -/
structure SameStore (s t : State) : Prop where
  acc : t.acc = s.acc
  mem : t.mem = s.mem
  errs : t.errs = s.errs
  thm : t.thm = s.thm

/-- `t` has the ops of `s` besides. -/
structure SameWork (s t : State) : Prop extends SameStore s t where
  ops : t.ops = s.ops

/-- Where the slots of a field stand (R20, R52, R96, R100): symbol index, sample index, time within the beat, rate. -/
def Field.clock (x : Field) : Nat × Nat × Nat × Bool := (x.symIdx, x.smpIdx, x.slotT, x.slow)

/-- `t` has the work of `s`, and every field's slots stand where they stood. -/
structure Quiet (s t : State) : Prop extends SameWork s t where
  clock : ∀ g, (t.field g).clock = (s.field g).clock

section
variable {s t u : State}

theorem SameStore.refl (s : State) : SameStore s s := ⟨rfl, rfl, rfl, rfl⟩

theorem SameStore.trans (h : SameStore s t) (h' : SameStore t u) : SameStore s u :=
  ⟨h'.acc.trans h.acc, h'.mem.trans h.mem, h'.errs.trans h.errs, h'.thm.trans h.thm⟩

theorem SameStore.foldl {α : Type} {f : State → α → State} (h : ∀ s a, SameStore s (f s a)) (l : List α) (s : State) :
    SameStore s (l.foldl f s) := foldl_inv (SameStore s) f (fun t a ht => ht.trans (h t a)) l s (.refl s)

theorem SameWork.refl (s : State) : SameWork s s := ⟨.refl s, rfl⟩

theorem SameWork.trans (h : SameWork s t) (h' : SameWork t u) : SameWork s u :=
  ⟨h.toSameStore.trans h'.toSameStore, h'.ops.trans h.ops⟩

theorem SameWork.foldl {α : Type} {f : State → α → State} (h : ∀ s a, SameWork s (f s a)) (l : List α) (s : State) :
    SameWork s (l.foldl f s) := foldl_inv (SameWork s) f (fun t a ht => ht.trans (h t a)) l s (.refl s)

theorem Quiet.refl (s : State) : Quiet s s := ⟨.refl s, fun _ => rfl⟩

theorem Quiet.trans (h : Quiet s t) (h' : Quiet t u) : Quiet s u :=
  ⟨h.toSameWork.trans h'.toSameWork, fun g => (h'.clock g).trans (h.clock g)⟩

theorem Quiet.foldl {α : Type} {f : State → α → State} (h : ∀ s a, Quiet s (f s a)) (l : List α) (s : State) :
    Quiet s (l.foldl f s) := foldl_inv (Quiet s) f (fun t a ht => ht.trans (h t a)) l s (.refl s)

theorem Quiet.ite {c : Prop} [Decidable c] (h : Quiet s t) (h' : Quiet s u) : Quiet s (if c then t else u) := by
  split
  · exact h
  · exact h'

end

theorem modField_sameWork (s : State) (f : Nat) (g : Field → Field) : SameWork s (s.modField f g) := ⟨⟨rfl, rfl, rfl, rfl⟩, rfl⟩

theorem modField_quiet (s : State) (f : Nat) {g : Field → Field} (h : ∀ x, (g x).clock = x.clock) : Quiet s (s.modField f g) := by
  refine ⟨modField_sameWork s f g, fun j => ?_⟩
  rw [field_modField]
  split
  next hj => rw [h, hj]
  next => rfl

theorem setBand_quiet (s : State) (i : Nat) (b : Band) : Quiet s (s.setBand i b) := ⟨⟨⟨rfl, rfl, rfl, rfl⟩, rfl⟩, fun _ => rfl⟩
theorem modBand_quiet (s : State) (i : Nat) (g : Band → Band) : Quiet s (s.modBand i g) := setBand_quiet s i _
theorem setLoop_quiet (s : State) (i : Nat) (v : LoopSlot) : Quiet s (s.setLoop i v) := ⟨⟨⟨rfl, rfl, rfl, rfl⟩, rfl⟩, fun _ => rfl⟩
theorem setTaint_quiet (s : State) (i : Nat) (v : Taint) : Quiet s (s.setTaint i v) := ⟨⟨⟨rfl, rfl, rfl, rfl⟩, rfl⟩, fun _ => rfl⟩
theorem modCmd_quiet (k : Nat) (g : Cmd → Cmd) (s : State) : Quiet s (modCmd k g s) := ⟨⟨⟨rfl, rfl, rfl, rfl⟩, rfl⟩, fun _ => rfl⟩
theorem finishCmd_quiet (k : Nat) (r : Reply) (s : State) : Quiet s (finishCmd k r s) := ⟨⟨⟨rfl, rfl, rfl, rfl⟩, rfl⟩, fun _ => rfl⟩

theorem post_quiet (code : Nat) (items : List Byte) (s : State) : Quiet s (post code items s) :=
  ⟨⟨⟨post_acc _ _ _, post_mem _ _ _, post_errs _ _ _, post_thm _ _ _⟩, post_ops _ _ _⟩, fun g => by rw [field_congr _ _ (post_fields _ _ _)]⟩

/-! ### Calibration counts -/

theorem calCmdEnd_quiet (k : Nat) (s : State) : Quiet s (calCmdEnd k s) := by
  refine .ite (.refl s) ?_
  split
  · exact finishCmd_quiet _ _ _
  · exact .refl s

theorem clearDrive_quiet (i : Nat) (s : State) : Quiet s (clearDrive i s) := .foldl (fun _ _ => setLoop_quiet _ _ _) _ _

theorem restoreTrims_quiet (keys : List Nat) (s : State) : Quiet s (restoreTrims keys s) := ⟨⟨⟨rfl, rfl, rfl, rfl⟩, rfl⟩, fun _ => rfl⟩

theorem dropProc_quiet (i : Nat) (s : State) : Quiet s (dropProc i s) := by
  have h := ((setBand_quiet s i { (s.band i).fresh with queue := [], cmd := none }).trans (clearDrive_quiet i _)).trans
    (restoreTrims_quiet ((s.band i).pend.map Prod.fst) _)
  simp only [dropProc]
  split
  · exact (h.trans (modCmd_quiet _ _ _)).trans (calCmdEnd_quiet _ _)
  · exact h

theorem voidRun_quiet (i start : Nat) (s : State) : Quiet s (voidRun i start s) :=
  .ite (((dropProc_quiet i s).trans (modBand_quiet _ _ _)).trans (post_quiet _ _ _)) (setBand_quiet _ _ _)

theorem addSymbols_quiet (k : Nat) (bad : Bool) (i : Nat) (s : State) : Quiet s (addSymbols k bad i s) :=
  .ite (voidRun_quiet _ _ _) (setBand_quiet _ _ _)

theorem dropQuick_quiet (n : Nat) (s : State) : Quiet s (dropQuick n s) :=
  .foldl (fun _ _ => .foldl (fun _ _ => modBand_quiet _ _ _) _ _) _ _

theorem addQuick_quiet (k : Nat) (bad : Bool) (i : Nat) (s : State) : Quiet s (addQuick k bad i s) :=
  .ite (.ite ((dropQuick_quiet _ s).trans (post_quiet _ _ _)) (setBand_quiet _ _ _)) (setBand_quiet _ _ _)

theorem kaToken_quiet (s₀ : State) (l : List TreeIn) (f : Nat) (s : State) : Quiet s (kaToken s₀ l f s) := by
  unfold kaToken
  exact modField_quiet s f fun _ => rfl

theorem calCount_quiet (s₀ : State) (l : List TreeIn) (t : Nat) (s : State) (f : Nat) : Quiet s (calCount s₀ l t s f) := by
  refine .ite (.refl s) (.ite (.ite (kaToken_quiet _ _ _ _) (.refl s)) ?_)
  split
  · exact .foldl (fun _ _ => addQuick_quiet _ _ _ _) _ _
  · split
    · exact .foldl (fun _ _ => addSymbols_quiet _ _ _ _) _ _
    · exact .refl s

/-! ### Modulators, taint windows and estimators -/

theorem modulate_quiet (f : Nat) (l : Tab (BitVec 8)) (direct : Bool) (s : State) : Quiet s (modulate f l direct s) :=
  modField_quiet s f fun _ => rfl

theorem quietSlot_quiet (t : Nat) (s : State) (f : Nat) : Quiet s (quietSlot t s f) := modulate_quiet _ _ _ _

theorem openTaints_quiet (l : List TreeIn) (s : State) : Quiet s (openTaints l s) := .foldl (fun _ _ => setTaint_quiet _ _ _) _ _

theorem noteField_quiet (s₀ : State) (l : List TreeIn) (s : State) (f : Nat) : Quiet s (noteField s₀ l s f) := by
  refine .ite (.refl s) (modField_quiet s f fun x => ?_)
  refine (foldl_keep Field.clock _ (fun y z => ?_) _ _).trans ?_
  · simp only
    split <;> split <;> rfl
  · split <;> rfl

/-! ### The slots' clocks -/

/-- A field whose slots have reached `t` passes no dark slot before it. -/
theorem advanceSlots_reached {t : Nat} {s : State} {f : Nat} (h : t ≤ (s.field f).slotT) : Quiet s (advanceSlots t s f) := by
  have hn : (t - (s.field f).slotT + (s.field f).slotLen - 1) / (s.field f).slotLen = 0 := by
    rw [Nat.sub_eq_zero_of_le h]
    unfold Field.slotLen
    split <;> rfl
  refine ⟨modField_sameWork _ _ _, fun g => ?_⟩
  rw [advanceSlots, field_modField]
  split
  next hg => simp only [hn, hg, Nat.zero_mul, Nat.add_zero, Field.clock]
  next => rfl

theorem advanceSlots_symIdx (t : Nat) (s : State) (f g : Nat) : (s.field g).symIdx ≤ ((advanceSlots t s f).field g).symIdx := by
  rw [advanceSlots, field_modField]
  split
  next hg => exact hg ▸ Nat.le_add_right _ _
  next => exact Nat.le_refl _

/-- Dark slots move the clocks of a field alone. -/
theorem advanceSlots_field (t : Nat) (s : State) (f g : Nat) :
    ∃ c : Nat × Nat × Nat, (advanceSlots t s f).field g = { s.field g with slotT := c.1, symIdx := c.2.1, smpIdx := c.2.2 } := by
  rw [advanceSlots, field_modField]
  split
  next hg =>
    subst hg
    exact ⟨(_, _, _), rfl⟩
  next => exact ⟨(_, _, _), rfl⟩

theorem advanceAll_field (t : Nat) (fs : List Nat) (s : State) (g : Nat) :
    ∃ c : Nat × Nat × Nat, (fs.foldl (advanceSlots t) s).field g = { s.field g with slotT := c.1, symIdx := c.2.1, smpIdx := c.2.2 } := by
  refine foldl_inv (fun (u : State) => ∃ c : Nat × Nat × Nat, u.field g = { s.field g with slotT := c.1, symIdx := c.2.1, smpIdx := c.2.2 })
    _ ?_ fs s ⟨(_, _, _), rfl⟩
  rintro u f ⟨c, hu⟩
  obtain ⟨c', h⟩ := advanceSlots_field t u f g
  exact ⟨c', by rw [h, hu]⟩

theorem advanceAll_symIdx (t : Nat) (fs : List Nat) (s : State) (g : Nat) :
    (s.field g).symIdx ≤ ((fs.foldl (advanceSlots t) s).field g).symIdx :=
  foldl_inv (fun u => (s.field g).symIdx ≤ (u.field g).symIdx) _ (fun u f hu => Nat.le_trans hu (advanceSlots_symIdx t u f g)) fs s (Nat.le_refl _)

theorem advanceAll_sameWork (t : Nat) (fs : List Nat) (s : State) : SameWork s (fs.foldl (advanceSlots t) s) :=
  .foldl (fun _ _ => modField_sameWork _ _ _) fs s

theorem windowEnd_advanceAll (t : Nat) (fs gs : List Nat) (s : State) : windowEnd (gs.foldl (advanceSlots t) s) fs = windowEnd s fs := by
  have h : ∀ g, ((gs.foldl (advanceSlots t) s).field g).window = (s.field g).window := fun g => by
    obtain ⟨_, h⟩ := advanceAll_field t gs s g
    rw [h]
  simp only [windowEnd, h]

theorem tickSlots_sameWork (fs : List Nat) (s : State) : SameWork s (tickSlots fs s) := .foldl (fun _ _ => modField_sameWork _ _ _) fs s

theorem tickSlots_cons (f : Nat) (fs : List Nat) (s : State) : tickSlots (f :: fs) s = tickSlots fs (tickSlots [f] s) := rfl

/-- One field's slot is over. -/
theorem tickSlots_one (f : Nat) (s : State) (g : Nat) : ((tickSlots [f] s).field g).clock =
    if g = f then ((s.field f).symIdx + 1, (s.field f).smpIdx + (s.field f).slotLen, (s.field f).slotT + (s.field f).slotLen, (s.field f).slow)
    else (s.field g).clock := by
  unfold tickSlots
  rw [List.foldl_cons, List.foldl_nil, field_modField]
  split <;> rfl

theorem tickSlots_one_symIdx (f : Nat) (s : State) (g : Nat) :
    ((tickSlots [f] s).field g).symIdx = if g = f then (s.field f).symIdx + 1 else (s.field g).symIdx := by
  have h := congrArg Prod.fst (tickSlots_one f s g)
  rw [apply_ite Prod.fst] at h
  exact h

theorem tickSlots_symIdx_le (fs : List Nat) (s : State) (g : Nat) : (s.field g).symIdx ≤ ((tickSlots fs s).field g).symIdx := by
  induction fs generalizing s with
  | nil => exact Nat.le_refl _
  | cons f fs ih =>
    rw [tickSlots_cons]
    refine Nat.le_trans ?_ (ih _)
    rw [tickSlots_one_symIdx]
    split
    next h => exact h ▸ Nat.le_succ _
    next => exact Nat.le_refl _

theorem tickSlots_symIdx_lt {fs : List Nat} {g : Nat} (h : g ∈ fs) (s : State) : (s.field g).symIdx < ((tickSlots fs s).field g).symIdx := by
  induction fs generalizing s with
  | nil => cases h
  | cons f fs ih =>
    rw [tickSlots_cons]
    rcases List.mem_cons.mp h with rfl | h
    · refine Nat.lt_of_lt_of_le ?_ (tickSlots_symIdx_le fs _ g)
      rw [tickSlots_one_symIdx, if_pos rfl]
      exact Nat.lt_succ_self _
    · exact Nat.lt_of_le_of_lt (tickSlots_symIdx_le [f] s g) (ih h _)

theorem slotTime_one (s : State) (f : Nat) : slotTime s [f] = (s.field f).slotT := Nat.zero_max _

theorem slotLen_one (s : State) (f : Nat) : [f].foldl (fun m g => max m (s.field g).slotLen) 1 = (s.field f).slotLen := by
  show max 1 (s.field f).slotLen = _
  unfold Field.slotLen
  split <;> rfl

/-! ### The three ways of a symbol slot -/

/-- The slot at `t` of the fields `fs` without user symbols, before it is over: dark or calibration symbols, judged, noted and counted (R20, R170). -/
def quietSlots (fs : List Nat) (t : Nat) (l : List Sample) (s : State) : State :=
  let s₀ := fs.foldl (quietSlot t) s
  let x := fs.flatMap (judgeField s₀ l)
  fs.foldl (calCount s₀ x t) (openTaints x (fs.foldl (noteField s₀ x) s₀))

theorem quietSlots_quiet (fs : List Nat) (t : Nat) (l : List Sample) (s : State) : Quiet s (quietSlots fs t l s) :=
  ((Quiet.foldl (quietSlot_quiet t) fs s).trans ((Quiet.foldl (noteField_quiet _ _) fs _).trans (openTaints_quiet _ _))).trans
    (.foldl (calCount_quiet _ _ t) fs _)

/-- A slot that does not fit the beat is none. -/
theorem symbolSlot_beyond {s : State} {f : Nat} {fs : List Nat} {run : Option (Op × GPos)} (starved : Bool) (l : List Sample)
    (hg : slotGroup s f = some (fs, run)) (hfit : 10000 < slotTime s fs + fs.foldl (fun m g => max m (s.field g).slotLen) 1) :
    exec (.symbolSlot f starved l) s = .next s := by
  show execSymbolSlot f starved l s = .next s
  simp only [execSymbolSlot, hg, if_pos hfit]

section
variable {s : State} {f : Nat} {fs : List Nat} {t len : Nat} (ht : t = slotTime s fs) (hlen : len = fs.foldl (fun m g => max m (s.field g).slotLen) 1)
  (hfit : t + len ≤ 10000)
include ht hlen hfit

/-- A slot without user symbols: the dark slots before it pass, it is quiet, and it is over. -/
theorem symbolSlot_quiet {run : Option (Op × GPos)} {starved : Bool} (l : List Sample) (hg : slotGroup s f = some (fs, run))
    (hrun : run.filter (fun r => !starved && userSlot (fs.foldl (advanceSlots t) s) fs r.2 t len) = none) :
    exec (.symbolSlot f starved l) s = .next (tickSlots fs (quietSlots fs t l (fs.foldl (advanceSlots t) s))) := by
  subst ht hlen
  show execSymbolSlot f starved l s = _
  simp only [execSymbolSlot, hg, if_neg (Nat.not_lt.mpr hfit), hrun]
  rfl

/-- A slot of a running group with user symbols (R20). -/
theorem symbolSlot_user {o : Op} {p : GPos} (l : List Sample) (hg : slotGroup s f = some (fs, some (o, p)))
    (huser : userSlot (fs.foldl (advanceSlots t) s) fs p t len = true) :
    exec (.symbolSlot f false l) s =
      .next (let s₀ := feedSlot o p (fs.foldl (advanceSlots t) s)
             let x := fs.flatMap (judgeField s₀ l)
             tickSlots fs (runSlot o p l s₀ (openTaints x (fs.foldl (noteField s₀ x) s₀)))) := by
  subst ht hlen
  show execSymbolSlot f false l s = _
  simp only [execSymbolSlot, hg, if_neg (Nat.not_lt.mpr hfit), Option.filter_some, huser, Bool.not_false, Bool.and_self, if_true]

end

/-! ### The slot of a field that no running op holds -/

theorem symbolSlot_alone (s : State) (f : Nat) (starved : Bool) (l : List Sample) (hg : slotGroup s f = some ([f], none))
    (hfit : (s.field f).slotT + (s.field f).slotLen ≤ 10000) :
    Completes (.symbolSlot f starved l) s (fun t => (t.field f).symIdx = (s.field f).symIdx + 1 ∧ (t.field f).smpIdx = (s.field f).smpIdx + (s.field f).slotLen ∧
      (t.field f).slotT = (s.field f).slotT + (s.field f).slotLen ∧ t.acc = s.acc ∧ t.ops = s.ops ∧ t.mem = s.mem) := by
  let u := quietSlots [f] (s.field f).slotT l (advanceSlots (s.field f).slotT s f)
  have hquiet : Quiet s u := (advanceSlots_reached (Nat.le_refl _)).trans (quietSlots_quiet _ _ _ _)
  obtain ⟨⟨hacc, hmem, -, -⟩, hops⟩ := hquiet.toSameWork.trans (tickSlots_sameWork [f] u)
  have htick := tickSlots_one f u f
  have hclock := hquiet.clock f
  rw [if_pos rfl] at htick
  simp only [Field.clock, Prod.mk.injEq] at htick hclock
  obtain ⟨hsym, hsmp, hslot, hslow⟩ := hclock
  have hlen : (u.field f).slotLen = (s.field f).slotLen := by
    unfold Field.slotLen
    rw [hslow]
  rw [hsym, hsmp, hslot, hlen] at htick
  obtain ⟨hsym', hsmp', hslot', -⟩ := htick
  exact ⟨_, symbolSlot_quiet (slotTime_one s f).symm (slotLen_one s f).symm hfit l hg rfl, hsym', hsmp', hslot', hacc, hops, hmem⟩

/-! ### A slot of a running group without user symbols -/

/-- A starved slot carries no user symbol, nor does one outside its slice, its tile or its window (R19, R20, R109). -/
theorem userSlot_false {s : State} {fs gs : List Nat} {starved : Bool} {p : GPos} {t len : Nat}
    (h : starved = true ∨ p.on = false ∨ p.live = false ∨ t < 480 ∨ windowEnd s fs < t + len) :
    (!starved && userSlot (gs.foldl (advanceSlots t) s) fs p t len) = false := by
  unfold userSlot
  rw [windowEnd_advanceAll]
  rcases h with h | h | h | h | h
  · rw [h, Bool.not_true, Bool.false_and]
  · simp only [h, Bool.false_and, Bool.and_false]
  · simp only [h, Bool.false_and, Bool.and_false]
  · have hw : ¬(480 ≤ t ∧ t + len ≤ windowEnd s fs) := fun hw => Nat.not_lt.mpr hw.1 h
    simp only [hw, decide_false, Bool.false_and, Bool.and_false]
  · have hw : ¬(480 ≤ t ∧ t + len ≤ windowEnd s fs) := fun hw => Nat.not_lt.mpr hw.2 h
    simp only [hw, decide_false, Bool.false_and, Bool.and_false]

theorem symbolSlot_idle (s : State) (f : Nat) (starved : Bool) (l : List Sample) (o : Op) (p : GPos) (fs : List Nat) (t len : Nat)
    (hg : slotGroup s f = some (fs, some (o, p))) (ht : t = slotTime s fs) (hlen : len = fs.foldl (fun m g => max m (s.field g).slotLen) 1)
    (hfit : t + len ≤ 10000) (hidle : starved = true ∨ p.on = false ∨ p.live = false ∨ t < 480 ∨ windowEnd s fs < t + len) :
    Completes (.symbolSlot f starved l) s (fun u => u.ops = s.ops ∧ u.acc = s.acc ∧ u.mem = s.mem ∧
      ∀ g ∈ fs, (s.field g).symIdx < (u.field g).symIdx) := by
  have hq := quietSlots_quiet fs t l (fs.foldl (advanceSlots t) s)
  obtain ⟨⟨hacc, hmem, -, -⟩, hops⟩ := ((advanceAll_sameWork t fs s).trans hq.toSameWork).trans (tickSlots_sameWork fs _)
  refine ⟨_, symbolSlot_quiet ht hlen hfit l hg ?_, hops, hacc, hmem, fun g hgfs => ?_⟩
  · rw [Option.filter_some, if_neg]
    rw [userSlot_false hidle]
    exact Bool.false_ne_true
  · have hsym : ((quietSlots fs t l (fs.foldl (advanceSlots t) s)).field g).symIdx = ((fs.foldl (advanceSlots t) s).field g).symIdx :=
      congrArg Prod.fst (hq.clock g)
    calc (s.field g).symIdx ≤ ((fs.foldl (advanceSlots t) s).field g).symIdx := advanceAll_symIdx t fs s g
      _ = ((quietSlots fs t l (fs.foldl (advanceSlots t) s)).field g).symIdx := hsym.symm
      _ < _ := tickSlots_symIdx_lt hgfs _

/-! ### The row that a slot of a running group writes -/

theorem touchWhere_noErrs {s : State} (h : s.errs = []) (q : Nat → Bool) : touchWhere q s = s := by
  unfold touchWhere
  rw [h]
  rfl

theorem touch_noErrs {s : State} (h : s.errs = []) (a n : Nat) : touch a n s = s := touchWhere_noErrs h _

theorem feedTouch_noErrs {s : State} (h : s.errs = []) (o : Op) (p : GPos) (work : List Nat) (i : Nat) : feedTouch o p work i s = s := by
  refine foldl_inv (fun t => t = s) _ (fun t j ht => foldl_inv (fun t => t = s) _ (fun t f ht => ?_) _ t ht) _ s rfl
  subst ht
  simp only
  split
  · exact touch_noErrs h _ _
  · rfl

theorem feedSlot_sameStore {s : State} (h : s.errs = []) (o : Op) (p : GPos) : SameStore s (feedSlot o p s) := by
  simp only [feedSlot, feedTouch_noErrs h]
  exact .foldl (fun _ _ => (modulate_quiet _ _ _ _).toSameStore) _ s

theorem hide_sameStore (x a n : Nat) (s : State) : SameStore s (hide x a n s) := by
  simp only [hide]
  split
  · exact .refl s
  · exact ⟨rfl, rfl, rfl, rfl⟩

theorem modOp_sameStore (k : Nat) (g : Op → Op) (s : State) : SameStore s (modOp k g s) := ⟨rfl, rfl, rfl, rfl⟩
theorem modField_sameStore (s : State) (f : Nat) (g : Field → Field) : SameStore s (s.modField f g) := ⟨rfl, rfl, rfl, rfl⟩

theorem setModes_sameStore (o : Op) (fs : List Nat) (root : Nat) (s : State) (f : Nat) : SameStore s (setModes o fs root s f) := by
  unfold setModes
  exact modField_sameStore s f _

theorem claimGroup_sameStore (edge : Bool) (key root : Nat) (s : State) : SameStore s (claimGroup edge key root s) := by
  simp only [claimGroup]
  repeat' split
  · exact .refl s
  · exact .foldl (fun _ _ => setModes_sameStore _ _ _ _ _) _ s
  · exact .foldl (fun _ _ => modField_sameStore _ _ _) _ s
  · exact .foldl (fun _ _ => modField_sameStore _ _ _) _ s
  · exact .refl s

theorem startSlice_sameStore (o : Op) (p : GPos) (t : Nat) (s : State) : SameStore s (startSlice o p t s) := modOp_sameStore _ _ s

theorem tryStart_sameStore (key : Nat) (s : State) : SameStore s (tryStart key s) := by
  unfold tryStart
  extract_lets s₁
  have hclaim : SameStore s s₁ := by
    dsimp only [s₁]
    split
    · exact .foldl (fun _ _ => claimGroup_sameStore _ _ _ _) _ s
    · exact .refl s
  split
  · refine hclaim.trans (.foldl (fun u p => ?_) _ _)
    dsimp only
    split
    · exact (advanceAll_sameWork _ _ u).toSameStore.trans (startSlice_sameStore _ _ _ _)
    · exact .refl u
  · exact hclaim

theorem freeGroup_sameStore (o : Op) (s : State) : SameStore s (freeGroup o s) :=
  (SameStore.foldl (fun _ _ => modField_sameStore _ _ _) _ s).trans (.foldl (fun _ _ => tryStart_sameStore _ _) _ _)

theorem finishGroup_sameStore (o : Op) (root : Nat) (s : State) : SameStore s (finishGroup o root s) := by
  simp only [finishGroup]
  split
  · exact modOp_sameStore _ _ s
  · split
    · exact ((modOp_sameStore _ _ s).trans (modOp_sameStore _ _ _)).trans (freeGroup_sameStore _ _)
    · exact modOp_sameStore _ _ s

theorem pairsFor_congr {s t : State} (h : t.thm = s.thm) (o : Op) (fs : List Nat) : pairsFor t o fs = pairsFor s o fs := by
  unfold pairsFor groupStep stepOf
  rw [h]

theorem accWrite_mem (init : Bool) (key : Nat) (v : AccCell) (s : State) : (accWrite init key v s).mem = s.mem := by
  unfold accWrite
  split <;> rfl

theorem accCell_accWrite_ne {j key : Nat} (h : j ≠ key) (init : Bool) (v : AccCell) (s : State) : (accWrite init key v s).accCell j = s.accCell j := by
  unfold accWrite
  split
  · rw [accCell_setAccCell, if_neg h]
  · rw [accCell_modAccCell, if_neg h]

/-- The writes of a slot, cell by cell. -/
def accWrites (init : Bool) (cells : List (Nat × AccCell)) (s : State) : State := cells.foldl (fun s x => accWrite init x.1 x.2 s) s

theorem accWrites_mem (init : Bool) (cells : List (Nat × AccCell)) (s : State) : (accWrites init cells s).mem = s.mem :=
  foldl_keep _ _ (fun _ _ => accWrite_mem _ _ _ _) cells s

theorem accCell_accWrites {cells : List (Nat × AccCell)} {k : Nat} (h : ∀ x ∈ cells, k ≠ x.1) (init : Bool) (s : State) :
    (accWrites init cells s).accCell k = s.accCell k :=
  List.foldlRecOn (motive := fun (t : State) => t.accCell k = s.accCell k) cells _ rfl fun _ ht x hx => (accCell_accWrite_ne (h x hx) _ _ _).trans ht

/-- The cells that a slot writes: for each colour position that carries a token the columns `cols`, in row `i` of the group (R109 to R112, R251). -/
def slotCells (o : Op) (p : GPos) (l : List Sample) (s₀ : State) (cols : List Nat) (bad : Nat → Bool) (work : List Nat) (i : Nat) : List (Nat × AccCell) :=
  (work.filterMap (fun pos => (o.token p.req i pos).map (fun j =>
    let g := o.rm.colours.getD pos 0
    cols.map (fun c => (((p.root * 2048 + o.accRow p i) * 1024 + 256 * g + c), treeSum s₀ o p l g c (bad j)))))).flatten

/-- Every one of them lies in the group's accumulator row `i`. -/
theorem slotCells_row {o : Op} (p : GPos) (l : List Sample) (s₀ : State) {cols : List Nat} (bad : Nat → Bool) (work : List Nat) (i : Nat)
    (hcolours : ∀ g ∈ o.rm.colours, g < 4) (hcols : ∀ c ∈ cols, c < 256) :
    ∀ x ∈ slotCells o p l s₀ cols bad work i, x.1 / 1024 = p.root * 2048 + o.accRow p i := by
  intro x hx
  simp only [slotCells, List.mem_flatten, List.mem_filterMap, Option.map_eq_some_iff] at hx
  obtain ⟨_, ⟨pos, -, j, -, rfl⟩, hx⟩ := hx
  obtain ⟨c, hc, rfl⟩ := List.mem_map.mp hx
  have hcol : c < 256 := hcols c hc
  have hcolour : o.rm.colours.getD pos 0 < 4 := by
    rw [List.getD_eq_getElem?_getD]
    cases hg : o.rm.colours[pos]? with
    | none => exact Nat.zero_lt_succ 3
    | some g => exact hcolours g (List.mem_of_getElem? hg)
  simp only
  omega

theorem groupColumns_lt (s : State) (o : Op) (root : Nat) : ∀ c ∈ o.groupColumns s root, c < 256 :=
  fun _ hc => List.mem_range.mp (List.mem_filter.mp hc).1

theorem countPass_sameStore (root row n : Nat) (init : Bool) (s : State) : SameStore s (countPass root row n init s) := ⟨rfl, rfl, rfl, rfl⟩

/-- What the slot of a running group does to the accumulator and to memory: it writes cells of its own row, and no more. -/
theorem runSlot_writes {o : Op} {p : GPos} (l : List Sample) (s₀ : State) {s : State} (he : s.errs = []) (hc : ∀ g ∈ o.rm.colours, g < 4) :
    ∃ (init : Bool) (cells : List (Nat × AccCell)) (u : State),
      (∀ x ∈ cells, x.1 / 1024 = p.root * 2048 + o.accRow p (o.slotWork (pairsFor s o (o.members p.root)) p).2) ∧
      SameStore s u ∧ SameStore (accWrites init cells u) (runSlot o p l s₀ s) := by
  let w := o.slotWork (pairsFor s o (o.members p.root)) p
  let u := hide o.stream (accAddr p.root (o.accRow p w.2)) 4096 s
  refine ⟨!o.isAdd && p.kStep == 0, slotCells o p l s₀ (o.groupColumns s p.root) (fun j => (o.members p.root).any (feedBad u o p j)) w.1 w.2, u,
    slotCells_row _ _ _ _ _ _ hc (groupColumns_lt s o p.root), hide_sameStore _ _ _ s, ?_⟩
  have hcount : ∀ (v : State) (n : Nat) (init : Bool),
      SameStore v (if w.1.contains 0 then countPass p.root (o.accRow p w.2) n init v else v) := by
    intro v n init
    split
    · exact countPass_sameStore _ _ _ _ _
    · exact .refl v
  have htouch : ∀ r, touchRow p.root r s = s := fun r => touch_noErrs he _ _
  simp only [runSlot, htouch]
  split
  · split
    · exact ((hcount _ _ _).trans (modOp_sameStore _ _ _)).trans (modOp_sameStore _ _ _)
    · exact ((hcount _ _ _).trans (modOp_sameStore _ _ _)).trans (finishGroup_sameStore _ _ _)
  · exact (hcount _ _ _).trans (modOp_sameStore _ _ _)

theorem slotGroup_members {s : State} {f : Nat} {fs : List Nat} {o : Op} {p : GPos} (h : slotGroup s f = some (fs, some (o, p))) :
    fs = o.members p.root := by
  unfold slotGroup at h
  split at h
  · cases h
  · split at h
    · cases h
    · split at h
      · cases h
      · split at h
        next hroot =>
          cases h
          rw [hroot]
        · cases h

theorem symbolSlot_ownRow (s : State) (f : Nat) (l : List Sample) (o : Op) (p : GPos) (fs : List Nat) (t len : Nat)
    (hg : slotGroup s f = some (fs, some (o, p))) (he : s.errs = []) (hc : ∀ g ∈ o.rm.colours, g < 4)
    (ht : t = slotTime s fs) (hlen : len = fs.foldl (fun m g => max m (s.field g).slotLen) 1) (hfit : t + len ≤ 10000)
    (huser : userSlot (fs.foldl (advanceSlots t) s) fs p t len = true) :
    Completes (.symbolSlot f false l) s (fun u => u.mem = s.mem ∧
      ∀ k, k / 1024 ≠ p.root * 2048 + o.accRow p (o.slotWork (pairsFor s o fs) p).2 → u.accCell k = s.accCell k) := by
  refine ⟨_, symbolSlot_user ht hlen hfit l hg huser, ?_⟩
  let s₁ := fs.foldl (advanceSlots t) s
  have hadv : SameStore s s₁ := (advanceAll_sameWork t fs s).toSameStore
  let s₀ := feedSlot o p s₁
  have hfeed : SameStore s s₀ := hadv.trans (feedSlot_sameStore (hadv.errs.trans he) o p)
  let x := fs.flatMap (judgeField s₀ l)
  let s₂ := openTaints x (fs.foldl (noteField s₀ x) s₀)
  have hnote : SameStore s s₂ := hfeed.trans ((Quiet.foldl (noteField_quiet s₀ x) fs s₀).trans (openTaints_quiet x _)).toSameStore
  obtain ⟨init, cells, u, hrow, hhide, htail⟩ := runSlot_writes (p := p) l s₀ (hnote.errs.trans he) hc
  rw [← slotGroup_members hg, pairsFor_congr hnote.thm] at hrow
  have htick : SameStore _ (tickSlots fs (runSlot o p l s₀ s₂)) := htail.trans (tickSlots_sameWork fs _).toSameStore
  refine ⟨?_, fun k hk => ?_⟩
  · calc (tickSlots fs (runSlot o p l s₀ s₂)).mem = (accWrites init cells u).mem := htick.mem
      _ = u.mem := accWrites_mem _ _ _
      _ = s.mem := (hnote.trans hhide).mem
  · calc (tickSlots fs (runSlot o p l s₀ s₂)).accCell k = (accWrites init cells u).accCell k := accCell_congr _ _ htick.acc k
      _ = u.accCell k := accCell_accWrites (fun x hx hkx => hk ((congrArg (· / 1024) hkx).trans (hrow x hx))) _ _
      _ = s.accCell k := accCell_congr _ _ (hnote.trans hhide).acc k

/-- Settles O10: a slot that carries no user symbol is quiet; one that does writes the accumulator row of its own offset. -/
theorem symbolSlotRuns : Obligations.SymbolSlotRuns := by
  refine ⟨symbolSlot_alone, ?_, symbolSlot_ownRow, symbolSlot_idle, ?_⟩
  · exact fun s f l o p fs t len hg ht hlen hfit huser => symbolSlot_user ht hlen hfit l hg huser
  · intro s f starved l hg hbeyond
    exact symbolSlot_beyond starved l hg (by rwa [slotTime_one, slotLen_one])

end Sys2Proof.Machine
end

section
/-! The rows of a beat: what starts and ends slices, the beat number across an edge, trim rounds. -/

namespace Sys2Proof.Machine

open Sys2Proof State

/-- A step of a fold that reaches `Q` from `I` leaves it so to the end, when every other step keeps `I` and `Q`. -/
theorem foldl_reaches {σ α : Type} {I Q : σ → Prop} {f : σ → α → σ} {l : List α} {a : α} (ha : a ∈ l) (hI : ∀ s b, I s → I (f s b))
    (hreach : ∀ s, I s → Q (f s a)) (hQ : ∀ s b, Q s → Q (f s b)) (s : σ) (hs : I s) : Q (l.foldl f s) := by
  induction l generalizing s with
  | nil => cases ha
  | cons b l ih =>
    rw [List.foldl_cons]
    rcases List.mem_cons.mp ha with rfl | ha
    · exact foldl_inv Q f hQ l _ (hreach s hs)
    · exact ih ha _ (hI s b hs)

/-! ### Which slices run -/

/-- In `s` an op of key `k` has a group of root `r` and members `fs`, and its slice runs (`on`) or does not. -/
def Slice (s : State) (k r : Nat) (fs : List Nat) (on : Bool) : Prop :=
  ∃ o ∈ s.ops, o.key = k ∧ o.members r = fs ∧ ∃ p ∈ o.pos, p.root = r ∧ p.on = on

/-- The op that `g` makes of `o` has the key, the groups and the members of `o`; of root `r` its slices run as `b` says, the others as they did. -/
structure SetsSlice (r : Nat) (b : Bool) (g : Op → Op) : Prop where
  key : ∀ o, (g o).key = o.key
  members : ∀ o, (g o).members = o.members
  pos : ∀ o, ∃ h : GPos → GPos, (g o).pos = o.pos.map h ∧ ∀ p, (h p).root = p.root ∧ (h p).on = if p.root = r then b else p.on

section
variable {r : Nat} {b : Bool} {g : Op → Op} {s : State} {k k' r' : Nat} {fs : List Nat} {c : Bool}

theorem mem_modOp_ops {o : Op} : o ∈ (modOp k g s).ops ↔ ∃ x ∈ s.ops, (if x.key = k then g x else x) = o := List.mem_map

/-- A slice after the change: one of the group that it sets, or one that stood so before. -/
theorem Slice.of_modOp (hg : SetsSlice r b g) (h : Slice (modOp k g s) k' r' fs c) :
    if k' = k ∧ r' = r then c = b ∧ ∃ c', Slice s k' r' fs c' else Slice s k' r' fs c := by
  obtain ⟨o, ho, rfl, rfl, p, hp, rfl, rfl⟩ := h
  obtain ⟨x, hx, rfl⟩ := mem_modOp_ops.mp ho
  by_cases hk : x.key = k
  · rw [if_pos hk] at hp ⊢
    obtain ⟨h, hpos, hh⟩ := hg.pos x
    rw [hpos] at hp
    obtain ⟨q, hq, rfl⟩ := List.mem_map.mp hp
    obtain ⟨hroot, hon⟩ := hh q
    rw [hg.key, hg.members, hroot, hon]
    by_cases hr : q.root = r
    · rw [if_pos hr, if_pos ⟨hk, hr⟩]
      exact ⟨rfl, q.on, x, hx, rfl, rfl, q, hq, rfl, rfl⟩
    · rw [if_neg hr, if_neg (fun h => hr h.2)]
      exact ⟨x, hx, rfl, rfl, q, hq, rfl, rfl⟩
  · rw [if_neg hk] at hp ⊢
    rw [if_neg (fun h => hk h.1)]
    exact ⟨x, hx, rfl, rfl, p, hp, rfl, rfl⟩

/-- What a slice becomes. -/
theorem Slice.modOp (hg : SetsSlice r b g) (h : Slice s k' r' fs c) :
    Slice (modOp k g s) k' r' fs (if k' = k ∧ r' = r then b else c) := by
  obtain ⟨x, hx, rfl, rfl, q, hq, rfl, rfl⟩ := h
  refine ⟨_, mem_modOp_ops.mpr ⟨x, hx, rfl⟩, ?_⟩
  by_cases hk : x.key = k
  · obtain ⟨h, hpos, hh⟩ := hg.pos x
    obtain ⟨hroot, hon⟩ := hh q
    rw [if_pos hk]
    refine ⟨hg.key x, congrFun (hg.members x) _, h q, hpos ▸ List.mem_map_of_mem hq, hroot, ?_⟩
    rw [hon]
    simp only [hk, true_and]
  · rw [if_neg hk, if_neg (fun h => hk h.1)]
    exact ⟨rfl, rfl, q, hq, rfl, rfl⟩

/-- What a change of the slices of one group of one op does to every slice. -/
theorem slice_modOp (hg : SetsSlice r b g) :
    Slice (modOp k g s) k' r' fs c ↔ if k' = k ∧ r' = r then c = b ∧ ∃ c', Slice s k' r' fs c' else Slice s k' r' fs c := by
  refine ⟨Slice.of_modOp hg, fun h => ?_⟩
  split at h
  next hkr =>
    obtain ⟨rfl, c', hs⟩ := h
    have himage := hs.modOp hg (k := k)
    rwa [if_pos hkr] at himage
  next hkr =>
    have himage := h.modOp hg (k := k)
    rwa [if_neg hkr] at himage

end

/-- `y` is the op `x` with the groups that `x` has. -/
structure SameGroups (x y : Op) : Prop where
  key : y.key = x.key
  members : y.members = x.members
  pos : y.pos = x.pos

theorem SameGroups.trans {x y z : Op} (h : SameGroups x y) (h' : SameGroups y z) : SameGroups x z :=
  ⟨h'.key.trans h.key, h'.members.trans h.members, h'.pos.trans h.pos⟩

theorem flagIf_sameGroups (b : Bool) (i : Nat) (o : Op) : SameGroups o (o.flagIf b i) := by
  unfold Op.flagIf
  split <;> exact ⟨rfl, rfl, rfl⟩

theorem sliceBeat_sameGroups (b : Nat) (o : Op) :
    SameGroups o (if o.sliceBeat = some b then o else { o with slicePrev := o.sliceBeat, sliceBeat := some b }) := by
  split <;> exact ⟨rfl, rfl, rfl⟩

theorem setsSlice_modPos {e : Op → Op} {g : Op → GPos → GPos} {b : Bool} (r : Nat) (he : ∀ o, SameGroups o (e o))
    (hg : ∀ o p, (g o p).root = p.root ∧ (g o p).on = b) : SetsSlice r b (fun o => (e o).modPos r (g o)) := by
  refine ⟨fun o => (he o).key, fun o => (he o).members, fun o => ⟨fun p => if p.root = r then g o p else p, congrArg _ (he o).pos, fun p => ?_⟩⟩
  dsimp only
  split
  · exact hg o p
  · exact ⟨rfl, rfl⟩

theorem ran_root (b : Nat) (c : BitVec 4) (p : GPos) : (p.ran b c).root = p.root := by unfold GPos.ran; split <;> rfl
theorem ran_on (b : Nat) (c : BitVec 4) (p : GPos) : (p.ran b c).on = p.on := by unfold GPos.ran; split <;> rfl

/-- A slice ends: the group's slices of the op do not run, and every other slice is as it was. -/
theorem slice_endSlice (o : Op) (p : GPos) (s : State) (k r : Nat) (fs : List Nat) (c : Bool) :
    Slice (endSlice o p s) k r fs c ↔ if k = o.key ∧ r = p.root then c = false ∧ ∃ c', Slice s k r fs c' else Slice s k r fs c := by
  unfold endSlice
  exact slice_modOp (setsSlice_modPos (b := false) p.root (fun x => flagIf_sameGroups _ _ x) (by exact fun _ _ => ⟨rfl, rfl⟩))

/-- A slice starts: the group's slices of the op run, and every other slice is as it was. -/
theorem slice_startSlice (o : Op) (p : GPos) (t : Nat) (s : State) (k r : Nat) (fs : List Nat) (c : Bool) :
    Slice (startSlice o p t s) k r fs c ↔ if k = o.key ∧ r = p.root then c = true ∧ ∃ c', Slice s k r fs c' else Slice s k r fs c := by
  dsimp only [startSlice]
  refine slice_modOp (setsSlice_modPos (b := true) p.root (fun x => ?_) (by exact fun x q => ⟨ran_root _ _ _, ran_on _ _ _⟩))
  exact ((flagIf_sameGroups _ _ x).trans (flagIf_sameGroups _ _ _)).trans (sliceBeat_sameGroups _ _)

/-! ### The end of slices -/

theorem endSlice_keepsOff (o : Op) (p : GPos) {s : State} {k r : Nat} {fs : List Nat} (h : ¬ Slice s k r fs true) :
    ¬ Slice (endSlice o p s) k r fs true := by
  rw [slice_endSlice]
  split
  · exact fun h => Bool.noConfusion h.1
  · exact h

/-- The step of `endSlices` for one group. -/
def endOne (q : List Nat → Bool) (o : Op) (s : State) (p : GPos) : State := if p.on && q (o.members p.root) then endSlice o p s else s

theorem endSlices_eq (q : List Nat → Bool) (s : State) : endSlices q s = s.ops.foldl (fun s o => o.pos.foldl (endOne q o) s) s := rfl

theorem endOne_keepsOff {k r : Nat} {fs : List Nat} (q : List Nat → Bool) (o : Op) (s : State) (p : GPos) (h : ¬ Slice s k r fs true) :
    ¬ Slice (endOne q o s p) k r fs true := by
  unfold endOne
  split
  · exact endSlice_keepsOff o p h
  · exact h

/-- After the slices that `q` picks have ended none of them runs. -/
theorem endSlices_notRunning {q : List Nat → Bool} (s : State) (k r : Nat) {fs : List Nat} (hq : q fs = true) :
    ¬ Slice (endSlices q s) k r fs true := by
  have hkeep : ∀ (u : State) (o : Op), ¬ Slice u k r fs true → ¬ Slice (o.pos.foldl (endOne q o) u) k r fs true := fun u o =>
    foldl_inv _ _ (endOne_keepsOff q o) o.pos u
  rw [endSlices_eq]
  by_cases hs : Slice s k r fs true
  · obtain ⟨o, ho, rfl, rfl, p, hp, rfl, hon⟩ := hs
    refine foldl_reaches (I := fun _ => True) ho (fun _ _ h => h) (fun u _ => ?_) hkeep s trivial
    refine foldl_reaches (I := fun _ => True) hp (fun _ _ h => h) (fun v _ => ?_) (endOne_keepsOff q o) u trivial
    rw [endOne, hon, hq, Bool.and_self, if_pos rfl, slice_endSlice, if_pos ⟨rfl, rfl⟩]
    exact fun h => Bool.noConfusion h.1
  · exact foldl_inv _ _ hkeep s.ops s hs

theorem endSlices_off (q : List Nat → Bool) (s : State) {o : Op} (ho : o ∈ (endSlices q s).ops) {p : GPos} (hp : p ∈ o.pos)
    (hq : q (o.members p.root) = true) : p.on = false := by
  refine Bool.eq_false_iff.mpr fun hon => ?_
  exact endSlices_notRunning s o.key p.root hq ⟨o, ho, rfl, rfl, p, hp, rfl, hon⟩

/-! ### The start of slices -/

/-- The op of key `k` has a group of root `r`, and every such group runs a slice. -/
def Runs (s : State) (k r : Nat) : Prop := (∃ fs, Slice s k r fs true) ∧ ∀ fs, ¬ Slice s k r fs false

theorem startSlice_keepsRuns (o : Op) (p : GPos) (t : Nat) {s : State} {k r : Nat} (h : Runs s k r) : Runs (startSlice o p t s) k r := by
  obtain ⟨⟨fs, hfs⟩, hoff⟩ := h
  refine ⟨⟨fs, ?_⟩, fun fs => ?_⟩ <;> rw [slice_startSlice] <;> split
  · exact ⟨rfl, true, hfs⟩
  · exact hfs
  · exact fun h => Bool.noConfusion h.1
  · exact hoff fs

theorem startSlice_runs (o : Op) (p : GPos) (t : Nat) {s : State} (h : ∃ fs on, Slice s o.key p.root fs on) :
    Runs (startSlice o p t s) o.key p.root := by
  obtain ⟨fs, hs⟩ := h
  refine ⟨⟨fs, ?_⟩, fun fs => ?_⟩ <;> rw [slice_startSlice, if_pos ⟨rfl, rfl⟩]
  · exact ⟨rfl, hs⟩
  · exact fun h => Bool.noConfusion h.1

theorem startSlice_keepsSlice (o : Op) (p : GPos) (t : Nat) {s : State} {k r : Nat} (h : ∃ fs on, Slice s k r fs on) :
    ∃ fs on, Slice (startSlice o p t s) k r fs on := by
  obtain ⟨fs, on, hs⟩ := h
  by_cases hkr : k = o.key ∧ r = p.root
  · exact ⟨fs, true, by rw [slice_startSlice, if_pos hkr]; exact ⟨rfl, on, hs⟩⟩
  · exact ⟨fs, on, by rw [slice_startSlice, if_neg hkr]; exact hs⟩

/-- Whether a group may run does not depend on the slices that run. -/
theorem mayRun_startSlice (o o' : Op) (p p' : GPos) (t : Nat) (s : State) : mayRun (startSlice o' p' t s) o p = mayRun s o p := rfl

theorem mayRun_stage {s : State} {o : Op} {p : GPos} (h : mayRun s o p = true) : o.stage = 2 := by
  simp only [mayRun, Bool.and_eq_true, decide_eq_true_eq] at h
  obtain ⟨⟨⟨⟨-, hstage⟩, -⟩, -⟩, -⟩ := h
  exact hstage

/-- The step of `openSlices` for one group. -/
def startOne (t : Nat) (o : Op) (s : State) (p : GPos) : State := if mayRun s o p && !p.on then startSlice o p t s else s

theorem openSlices_eq (t : Nat) (s : State) :
    openSlices t s = (s.ops.filter (fun o => o.code == 0x01 && o.stage == 2)).foldl (fun s o => o.pos.foldl (startOne t o) s) s := rfl

/-- The group of `p` in `o` may run, and an op of that key has a group of that root. -/
def Ready (o : Op) (p : GPos) (s : State) : Prop := mayRun s o p = true ∧ ∃ fs on, Slice s o.key p.root fs on

theorem startOne_keepsReady {o : Op} {p : GPos} (t : Nat) (o' : Op) (s : State) (p' : GPos) (h : Ready o p s) : Ready o p (startOne t o' s p') := by
  obtain ⟨hmay, hslice⟩ := h
  unfold startOne
  split
  · exact ⟨(mayRun_startSlice o o' p p' t s).trans hmay, startSlice_keepsSlice o' p' t hslice⟩
  · exact ⟨hmay, hslice⟩

theorem startOne_keepsRuns {k r : Nat} (t : Nat) (o : Op) (s : State) (p : GPos) (h : Runs s k r) : Runs (startOne t o s p) k r := by
  unfold startOne
  split
  · exact startSlice_keepsRuns o p t h
  · exact h

/-- The slice of a group that may run starts with the window (R19, R256). -/
theorem openSlices_runs (t : Nat) {s : State} {o : Op} {p : GPos} (ho : o ∈ s.ops) (hcode : o.code = 0x01) (hp : p ∈ o.pos) (hon : p.on = false)
    (hmay : mayRun s o p = true) : Runs (openSlices t s) o.key p.root := by
  have hmem : o ∈ s.ops.filter (fun o => o.code == 0x01 && o.stage == 2) := by
    refine List.mem_filter.mpr ⟨ho, ?_⟩
    rw [hcode, mayRun_stage hmay]
    rfl
  rw [openSlices_eq]
  refine foldl_reaches (I := Ready o p) hmem (fun u o' => foldl_inv _ _ (startOne_keepsReady t o') o'.pos u) (fun u hu => ?_)
    (fun u o' => foldl_inv _ _ (startOne_keepsRuns t o') o'.pos u) s ⟨hmay, _, _, o, ho, rfl, rfl, p, hp, rfl, rfl⟩
  refine foldl_reaches (I := Ready o p) hp (startOne_keepsReady t o) (fun v hv => ?_) (startOne_keepsRuns t o) u hu
  obtain ⟨hmay, hslice⟩ := hv
  rw [startOne, hmay, hon]
  exact startSlice_runs o p t hslice

theorem advanceAll_eq (t : Nat) (fs : List Nat) (s : State) : fs.foldl (advanceSlots t) s = { s with fields := (fs.foldl (advanceSlots t) s).fields } :=
  foldl_inv (fun (u : State) => u = { s with fields := u.fields }) _ (fun u f hu => by rw [advanceSlots, hu]; rfl) fs s rfl

/-- Whether a group may run depends neither on its fields' clocks nor on the time within the beat. -/
theorem mayRun_advanceAll (t : Nat) (fs : List Nat) (s : State) (o : Op) (p : GPos) : mayRun (fs.foldl (advanceSlots t) s) o p = mayRun s o p := by
  obtain ⟨c, h⟩ := Classical.skolem.mp (advanceAll_field t fs s)
  simp only [mayRun, planeFresh, h]
  rw [advanceAll_eq]
  rfl

theorem sliceWindowOpen_runs (s : State) (o : Op) (p : GPos) (ho : o ∈ s.ops) (hcode : o.code = 0x01) (hp : p ∈ o.pos) (hon : p.on = false)
    (hmay : mayRun s o p = true) :
    Completes .sliceWindowOpen s (fun t => t.tim.t = 480 ∧ t.tim.everAdmitted = true ∧
      ∀ o' ∈ t.ops, o'.key = o.key → ∀ p' ∈ o'.pos, p'.root = p.root → p'.on = true) := by
  let s₁ : State := (List.range 32).foldl (advanceSlots 480) { s with tim := { s.tim with t := 480 } }
  have hops : s₁.ops = s.ops := (advanceAll_sameWork _ _ _).ops
  have hmay₁ : mayRun s₁ o p = true := (mayRun_advanceAll 480 (List.range 32) { s with tim := { s.tim with t := 480 } } o p).trans hmay
  obtain ⟨⟨fs, o₁, ho₁, hkey, -, p₁, hp₁, hroot, hon₁⟩, hoff⟩ := openSlices_runs 480 (hops ▸ ho) hcode hp hon hmay₁
  have hany : (openSlices 480 s₁).ops.any (fun o => o.pos.any (fun p => p.on)) = true :=
    List.any_eq_true.mpr ⟨o₁, ho₁, List.any_eq_true.mpr ⟨p₁, hp₁, hon₁⟩⟩
  refine ⟨{ openSlices 480 s₁ with tim := { (openSlices 480 s₁).tim with everAdmitted := true } }, congrArg Host.Outcome.next (if_pos hany), ?_, rfl, ?_⟩
  · show (openSlices 480 s₁).tim.t = 480
    rw [openSlices_tim, foldl_tim _ _ _ (fun _ _ => advanceSlots_tim _ _ _)]
  · intro o' ho' hk p' hp' hr
    exact eq_true_of_ne_false fun hp'on => hoff _ ⟨o', ho', hk, rfl, p', hp', hr, hp'on⟩

theorem sliceWindowEnd_off (s : State) : Completes .sliceWindowEnd s (fun t => t.tim.t = 10000 ∧ ∀ o ∈ t.ops, ∀ p ∈ o.pos, p.on = false) :=
  ⟨_, rfl, congrArg Tim.t (endSlices_tim _ _), fun _ ho _ hp => endSlices_off _ _ ho hp rfl⟩

theorem calibrationWindowOpen_off (s : State) : Completes .calibrationWindowOpen s (fun t => t.tim.t = 9904 ∧
    ∀ o ∈ t.ops, ∀ p ∈ o.pos, (o.members p.root).any (fun f => (s.field f).window) = true → p.on = false) :=
  ⟨_, rfl, congrArg Tim.t (endSlices_tim _ _), fun _ ho _ hp => endSlices_off (fun fs => fs.any (fun f => (s.field f).window)) _ ho hp⟩

/-! ### Trim rounds -/

theorem tget_unlisted {α : Type} (d : α) (t : Tab α) {k : Nat} (h : k ∉ t.map Prod.fst) : tget d t k = d := by
  induction t with
  | nil => rfl
  | cons e l ih =>
    rw [List.map_cons, List.mem_cons, not_or] at h
    rw [tget, if_neg (Ne.symm h.1)]
    exact ih h.2

/-- What holds of the default and of every changed entry holds of what any key reads as once every listed entry has been changed. -/
theorem tget_tmap {α : Type} [DecidableEq α] {d : α} {g : Nat → α → α} {P : α → Prop} (hd : P d) (hg : ∀ k v, P (g k v)) (t : Tab α) (k : Nat) :
    P (tget d (tmap d t g) k) := by
  have hkeep : ∀ (u : Tab α) (j : Nat), P (tget d u k) → P (tget d (tset d u j (g j (tget d u j))) k) := by
    intro u j hu
    rw [tget_tset]
    split
    · exact hg _ _
    · exact hu
  by_cases hk : k ∈ t.map Prod.fst
  · refine foldl_reaches (I := fun _ => True) (Q := fun u => P (tget d u k)) hk (fun _ _ h => h) (fun u _ => ?_) hkeep t trivial
    rw [tget_tset, if_pos rfl]
    exact hg _ _
  · refine foldl_inv (fun u => P (tget d u k)) _ hkeep _ t ?_
    rw [tget_unlisted d t hk]
    exact hd

theorem trimRoundStart_restarts (s : State) (h : s.tim.beat % 64 = 0) :
    Completes .trimRoundStart s (fun t => ∀ f, (t.field f).trimRound = 0) := by
  refine ⟨_, congrArg Host.Outcome.next (if_pos h), fun f => ?_⟩
  exact tget_tmap (d := {}) (g := fun _ x => { x with trimRound := 0 }) (P := fun x : Field => x.trimRound = 0) rfl (fun _ _ => rfl) s.fields f

/-! ### The beat edge -/

/-- `t` is in D3, or its beat is `n`. -/
def AtBeat (n : Nat) (t : State) : Prop := t.pwr.state = 3 ∨ t.tim.beat = n

theorem AtBeat.of_eq {n : Nat} {s t : State} (h : AtBeat n s) (hpwr : t.pwr = s.pwr) (htim : t.tim = s.tim) : AtBeat n t := by
  unfold AtBeat
  rw [hpwr, htim]
  exact h

theorem evalDie_atBeat {n : Nat} (d : Nat) {s : State} (h : AtBeat n s) : AtBeat n (evalDie d s) := by
  unfold evalDie
  split
  · exact h
  · dsimp only
    split
    · exact .inl rfl
    · refine h.of_eq ?_ ?_ <;> simp

theorem dieEdge_atBeat {n : Nat} {s : State} (h : AtBeat n s) : AtBeat n (dieEdge s) := by
  have hsettle : ∀ l : List Nat, AtBeat n (l.foldl (fun s d => (List.range (sensorCount d)).foldl (fun s i => settleSensor d i s) s) s) := fun l =>
    foldl_inv (AtBeat n) _ (fun t d ht => foldl_inv (AtBeat n) _ (fun u i hu => hu.of_eq (settleSensor_pwr d i u) (settleSensor_tim d i u)) _ t ht) l s h
  have heval : ∀ (l : List Nat) (t : State), AtBeat n t → AtBeat n (l.foldl (fun s d => if s.thm.shutdown then s else evalDie d s) t) := by
    refine fun l t => foldl_inv (AtBeat n) _ (fun u d hu => ?_) l t
    split
    · exact hu
    · exact evalDie_atBeat d hu
  unfold dieEdge
  extract_lets on s₁ s₂ s₃ clamp s₄
  have hdies : AtBeat n s₂ := heval on s₁ (hsettle _)
  have hclamp : AtBeat n s₄ := by
    refine hdies.of_eq ?_ ?_ <;> dsimp only [s₄] <;> split
    · exact post_pwr _ _ _
    · rfl
    · exact post_tim _ _ _
    · rfl
  split
  · exact hdies
  · exact hclamp.of_eq ((hottestDie_pwr _).trans (afterDies_pwr _)) ((hottestDie_tim _).trans (afterDies_tim _))

theorem reachD0_tim_beat (s : State) : (reachD0 s).tim.beat = s.tim.beat := by
  have hfail : ∀ l : List Nat, (l.foldl (fun (s : State) i => failQuantity i 1 (kLo (i / 8) (i % 8) 0) s) s).tim.beat = s.tim.beat := fun l =>
    foldl_tim_beat _ l s fun _ _ => failQuantity_tim_beat _ _ _ _
  simp only [reachD0]
  split
  · rfl
  · rw [postPower_tim]
    split
    · rw [finishCmd_tim]
      exact hfail _
    · exact hfail _

theorem powerEdge_atBeat {n : Nat} {s : State} (h : s.tim.beat = n) : AtBeat n (powerEdge s) := by
  unfold powerEdge
  split
  · exact .inr (by rw [enterD1_tim, h])
  · split
    · exact .inr h
    · exact .inl rfl
  · split
    · exact .inr (by rw [reachD0_tim_beat, h])
    · exact .inr h

theorem beatEdge_counts (s : State) (refvOk : Bool) (h : s.tim.counting = true) :
    Completes (.beatEdge refvOk) s (fun t => t.pwr.state = 3 ∨ t.tim.beat = s.tim.beat + 1) := by
  let s₀ := closeSlices s
  let s₁ := hardwareEdge { s₀ with tim := { s₀.tim with beat := s₀.tim.beat + 1, t := 0 } }
  have hbeat : s₁.tim.beat = s.tim.beat + 1 := by
    rw [hardwareEdge_tim_beat]
    exact congrArg (fun t : Tim => t.beat + 1) (closeSlices_tim s)
  refine ⟨dieEdge (powerEdge (if s₁.flt.deviceError then darkEdge s₁ else plannedEdge s₀ refvOk s₁)), ?_, dieEdge_atBeat (powerEdge_atBeat ?_)⟩
  · show execBeatEdge refvOk s = _
    rw [execBeatEdge, if_pos h]
  · split
    · rw [darkEdge_tim, hbeat]
    · rw [plannedEdge_tim_beat, hbeat]

theorem beatEdge_notCounting (s : State) (refvOk : Bool) (h : s.tim.counting = false) : exec (.beatEdge refvOk) s = .next s := by
  show execBeatEdge refvOk s = .next s
  exact congrArg Host.Outcome.next (if_neg (Bool.eq_false_iff.mp h))

/-- Settles O8: the edge by the frames of its parts, the slices by what a step of each row does to one slice. -/
theorem beatRowsAct : Obligations.BeatRowsAct :=
  ⟨beatEdge_counts, beatEdge_notCounting, sliceWindowOpen_runs, sliceWindowEnd_off, calibrationWindowOpen_off, trimRoundStart_restarts⟩

end Sys2Proof.Machine
end

section
/-! Time over the links and TICKIN: when a time message is due, what it gives, and what an edge of TICKIN does. -/

namespace Sys2Proof.Machine

open Sys2Proof State

/-! ### Time messages that are due -/

/-- A time message of direction `d` is due: a port of it is up, and none was sent in the last 63 beats (R370). -/
def timeDue (s : State) (d : Nat) : Bool := !(upPorts s d).isEmpty && (tget 0 s.link.tmSent d == 0 || decide (tget 0 s.link.tmSent d + 63 ≤ s.tim.beat))

/-- The next marker flit of the lowest port of direction `d` that is up carries a time message (assumption log 58). -/
def markDue (s : State) (d : Nat) : State := s.modPort ((upPorts s d).headD 0) (fun l => { l with tmDue := true })

theorem markDue_state (s : State) (d p : Nat) : ((markDue s d).port p).state = (s.port p).state := by
  rw [markDue, port_modPort]
  split
  next h => rw [h]
  next => rfl

theorem markDue_upPorts (s : State) (d e : Nat) : upPorts (markDue s d) e = upPorts s e := by
  unfold upPorts
  simp only [markDue_state]

theorem markDue_keeps {s : State} {p : Nat} (h : (s.port p).tmDue = true) (d : Nat) : ((markDue s d).port p).tmDue = true := by
  rw [markDue, port_modPort]
  split
  · rfl
  · exact h

/-- A fold of marks marks the lowest port of each of its directions. -/
theorem markAll_due {l : List Nat} {d : Nat} (hd : d ∈ l) (s : State) : ((l.foldl markDue s).port ((upPorts s d).headD 0)).tmDue = true := by
  refine foldl_reaches (I := fun u => upPorts u d = upPorts s d) (Q := fun (u : State) => (u.port ((upPorts s d).headD 0)).tmDue = true) hd
    (fun u e hu => (markDue_upPorts u e d).trans hu) (fun u hu => ?_) (fun u e hu => markDue_keeps hu e) s rfl
  rw [markDue, port_modPort, hu, if_pos rfl]

theorem markAll_frame (l : List Nat) (s : State) : l.foldl markDue s = { s with ports := (l.foldl markDue s).ports } :=
  foldl_inv (fun (u : State) => u = { s with ports := u.ports }) _ (fun u e hu => by rw [hu]; rfl) l s rfl

/-- A fold of writes of one value. -/
theorem tget_tsetAll (l : List Nat) (v : Nat) (t : Tab Nat) (d : Nat) :
    tget 0 (l.foldl (fun t d => tset 0 t d v) t) d = if d ∈ l then v else tget 0 t d := by
  induction l generalizing t with
  | nil => rfl
  | cons e l ih =>
    rw [List.foldl_cons, ih, tget_tset]
    by_cases hl : d ∈ l
    · rw [if_pos hl, if_pos (List.mem_cons_of_mem e hl)]
    · simp only [hl, if_false, List.mem_cons, or_false]

theorem timeMessageSend_eq (s : State) :
    exec .timeMessageSend s = .next { s with
      ports := (((List.range 6).filter (timeDue s)).foldl markDue s).ports
      link := { s.link with tmSent := ((List.range 6).filter (timeDue s)).foldl (fun t d => tset 0 t d (s.tim.beat + 1)) s.link.tmSent } } := by
  let u := ((List.range 6).filter (timeDue s)).foldl markDue s
  have hu : u = { s with ports := u.ports } := markAll_frame _ s
  have hexec : exec .timeMessageSend s = .next { u with
      link := { u.link with tmSent := ((List.range 6).filter (timeDue s)).foldl (fun t d => tset 0 t d (u.tim.beat + 1)) u.link.tmSent } } := rfl
  rw [hexec, hu]

theorem timeMessageSend_due (s : State) (d : Nat) (hd : d < 6) (hup : upPorts s d ≠ [])
    (hdue : tget 0 s.link.tmSent d = 0 ∨ tget 0 s.link.tmSent d + 63 ≤ s.tim.beat) :
    Completes .timeMessageSend s (fun t => tget 0 t.link.tmSent d = s.tim.beat + 1 ∧ (t.port ((upPorts s d).headD 0)).tmDue = true ∧
      t = { s with link := { s.link with tmSent := t.link.tmSent }, ports := t.ports }) := by
  have hmem : d ∈ (List.range 6).filter (timeDue s) := by
    refine List.mem_filter.mpr ⟨List.mem_range.mpr hd, ?_⟩
    rw [timeDue, List.isEmpty_eq_false_iff.mpr hup]
    simpa using hdue
  exact ⟨_, timeMessageSend_eq s, (tget_tsetAll _ _ _ _).trans (if_pos hmem), markAll_due hmem s, rfl⟩

theorem timeMessageSend_down (s : State) (d : Nat) (hup : upPorts s d = []) :
    Completes .timeMessageSend s (fun t => tget 0 t.link.tmSent d = tget 0 s.link.tmSent d) := by
  have hmem : d ∉ (List.range 6).filter (timeDue s) := fun h => by
    have hd := (List.mem_filter.mp h).2
    rw [timeDue, hup] at hd
    exact Bool.noConfusion hd
  exact ⟨_, timeMessageSend_eq s, (tget_tsetAll _ _ _ _).trans (if_neg hmem)⟩

/-! ### What a time message gives -/

theorem timeMessageReceive_parent (s : State) (p b tx rx : Nat) (back here : Int) (hp : p < 24) (hst : (s.port p).state = 2)
    (hhere : here = ((s.tim.beat : Int) - b) * 20000 + rx - tx) (hpar : s.link.parent = some (dirOf p)) (hphase : s.link.phase ≠ 5) :
    exec (.timeMessageReceive p b tx rx back) s = .next { s.setPort p { s.port p with tmBeat := b % 2 ^ 32, tmDelay := (here + back) / 2 } with
      tim := { s.tim with ltOff := (here - back) / 2 } } := by
  subst hhere
  show execTimeMessageReceive p b tx rx back s = _
  simp [execTimeMessageReceive, Nat.not_le.mpr hp, hst, hpar, hphase, modPort_eq]

theorem timeMessageReceive_other (s : State) (p b tx rx : Nat) (back here : Int) (hp : p < 24) (hst : (s.port p).state = 2)
    (hhere : here = ((s.tim.beat : Int) - b) * 20000 + rx - tx) (hpar : s.link.parent ≠ some (dirOf p)) :
    exec (.timeMessageReceive p b tx rx back) s = .next (s.setPort p { s.port p with tmBeat := b % 2 ^ 32, tmDelay := (here + back) / 2 }) := by
  subst hhere
  show execTimeMessageReceive p b tx rx back s = _
  simp [execTimeMessageReceive, Nat.not_le.mpr hp, hst, hpar, modPort_eq]

/-! ### TICKIN -/

theorem tickinEdge_counts (s : State) (off : Int) (hcount : s.tim.counting = true) (huse : s.tim.tickUse = true) (hoff : off.natAbs ≤ 1000) :
    exec (.tickinEdge off) s = .next { s with tim := { s.tim with tickSeen := true, tickOff := off } } := by
  show execTickinEdge off s = _
  simp [execTickinEdge, hcount, huse, hoff]

theorem tickinEdge_far (s : State) (off : Int) (huse : s.tim.tickUse = true) (hoff : 1000 < off.natAbs) : exec (.tickinEdge off) s = .next s := by
  show execTickinEdge off s = _
  simp [execTickinEdge, huse, Nat.not_le.mpr hoff]

/-- Settles O46: each row by the branch of its meaning that the clause names. -/
theorem linkTimeActs : Obligations.LinkTimeActs := by
  refine ⟨timeMessageSend_due, timeMessageSend_down, timeMessageReceive_parent, timeMessageReceive_other, tickinEdge_counts, tickinEdge_far, ?_, ?_, ?_, ?_⟩
  · exact fun s huse hmiss => congrArg Host.Outcome.next (if_pos ⟨huse, hmiss⟩)
  · intro s h
    refine congrArg Host.Outcome.next (if_neg ?_)
    rintro ⟨huse, hmiss⟩
    rcases h with h | h
    · exact Bool.false_ne_true (h.symm.trans huse)
    · exact Nat.not_le.mpr h hmiss
  · exact fun s huse hrun => congrArg Host.Outcome.next (if_pos ⟨huse, hrun⟩)
  · exact fun s hrun => congrArg Host.Outcome.next (if_neg fun h => hrun h.2)

end Sys2Proof.Machine
end

section
/-! The loaders and the planes of a field: fills, rewrites, live refreshes, and the swap of a group's planes. -/

namespace Sys2Proof.Machine

open Sys2Proof State

/-! ### Planes of one field (R37) -/

@[simp] theorem putShadow_shadow (p : Plane) (x : Field) : (x.putShadow p).shadow = p := by
  unfold Field.putShadow Field.shadow
  cases x.livePlane <;> simp

@[simp] theorem putShadow_live (p : Plane) (x : Field) : (x.putShadow p).live = x.live := by
  unfold Field.putShadow Field.live
  cases x.livePlane <;> simp

/-- The field after its swap: plane select inverted, the drive-code store with the codes now live (R39, R93). -/
def Field.swapped (x : Field) : Field :=
  { x with
    livePlane := !x.livePlane, shadowReady := false, bufFull := false, swapWait := false
    liveAt := x.shadowAt, shadowAt := none, drvStore := x.shadow.drives }

@[simp] theorem swapped_live (x : Field) : x.swapped.live = x.shadow := by
  unfold Field.swapped Field.live Field.shadow
  cases x.livePlane <;> rfl

/-- The field that carries no user symbols until 2 ns after the time that its slots have reached in beat `n` (R18, R39). -/
def Field.darkened (n : Nat) (x : Field) : Field := { x with darkTo := 10000 * n + x.slotT + 20 }

/-- The field whose input buffer holds the tile plane `b`; a refresh in progress leaves it pending (R42, R93). -/
def Field.buffered (b : Plane) (x : Field) : Field := { x with inBuf := b, bufFull := true, reloadPend := x.refreshSwap }

theorem buffered_refreshSwap (b : Plane) (x : Field) : (x.buffered b).refreshSwap = x.refreshSwap := rfl

/-- The field whose fill has settled (R92). -/
def Field.filled (x : Field) : Field :=
  { x.putShadow x.inBuf with shadowReady := true, loaderBusy := false, shadowAt := some (x.fillEnd / 10) }

/-- The field in whose shadow plane a live refresh in beat `n` has begun to write `b` (R41, R42). -/
def Field.refreshing (b : Plane) (n : Nat) (x : Field) : Field :=
  { x.putShadow b with
    refreshSwap := true, reloadPend := x.reloadPend || x.bufFull, shadowReady := false, loaderBusy := true
    shadowAt := some (1000 * (n + 1)), fillEnd := 10000 * n + 10000 }

/-- The field in whose shadow plane a fill from `b` has begun, to settle at `e` (R92, R94). -/
def Field.filling (b : Plane) (e : Nat) (x : Field) : Field :=
  { x with inBuf := b, shadowReady := false, shadowStale := false, loaderBusy := true, reloadPend := false, fillEnd := e }

/-! ### Changes of one field -/

/-- From `s` to `t` field `f` becomes `x`, and every other stays. -/
structure OnlyField (f : Nat) (x : Field) (s t : State) : Prop where
  own : t.field f = x
  others : ∀ g, g ≠ f → t.field g = s.field g

theorem setField_onlyField (s : State) (f : Nat) (x : Field) : OnlyField f x s (s.setField f x) :=
  ⟨by simp, fun g hg => by simp [hg]⟩

theorem modField_onlyField (s : State) (f : Nat) (g : Field → Field) : OnlyField f (g (s.field f)) s (s.modField f g) :=
  setField_onlyField s f _

theorem OnlyField.trans {f : Nat} {x y : Field} {s t u : State} (h : OnlyField f x s t) (h' : OnlyField f y t u) : OnlyField f y s u :=
  ⟨h'.own, fun g hg => (h'.others g hg).trans (h.others g hg)⟩

/-- What leaves the fields alone may come before. -/
theorem OnlyField.of_congr {f : Nat} {g : Field → Field} {s t u : State} (hs : s.fields = u.fields) (h : OnlyField f (g (s.field f)) s t) :
    OnlyField f (g (u.field f)) u t :=
  ⟨field_congr u s hs f ▸ h.own, fun g hg => (h.others g hg).trans (field_congr u s hs g)⟩

/-- What leaves the fields alone may follow. -/
theorem OnlyField.congr {f : Nat} {x : Field} {s t u : State} (h : OnlyField f x s t) (hu : u.fields = t.fields) : OnlyField f x s u :=
  ⟨(field_congr t u hu f).trans h.own, fun g hg => (field_congr t u hu g).trans (h.others g hg)⟩

theorem startFill_onlyField (f t : Nat) (s : State) :
    OnlyField f ((s.field f).filling (convert s f (s.field f).inBuf) (absT s t + 640)) s (startFill f t s) :=
  modField_onlyField s f _

theorem fillShadow_onlyField (f : Nat) (s : State) : OnlyField f (s.field f).filled s (fillShadow f s) :=
  (modField_onlyField s f Field.filled).congr (bandsFilled_fields f 0 1 _)

theorem swapField_onlyField (f : Nat) (s : State) : OnlyField f (s.field f).swapped s (swapField f s) :=
  (setField_onlyField s f (s.field f).swapped).congr (bandsFilled_fields f 1 2 _)

/-! ### What the reading of a tile leaves unchanged -/

theorem putBytesAt_fields (s : State) (a : Nat) (l : List Byte) : (putBytesAt s a l).fields = s.fields := by
  induction l generalizing s a with
  | nil => rfl
  | cons v l ih =>
    refine (ih (putByte s a v) (a + 1)).trans ?_
    unfold putByte
    split <;> rfl

theorem putPoison_fields (s : State) (w : Nat) (full bad : Bool) : (putPoison s w full bad).fields = s.fields := by
  unfold putPoison
  split <;> rfl

theorem wrBytes_fields (a : Nat) (l : List Byte) (bad : Nat → Bool) (s : State) : (wrBytes a l bad s).fields = s.fields := by
  unfold wrBytes
  rw [foldl_fields _ _ _ fun _ _ => putPoison_fields _ _ _ _, putBytesAt_fields]
  exact foldl_fields _ _ _ fun _ _ => touchWhere_fields _ _

theorem hide_fields (x a n : Nat) (s : State) : (hide x a n s).fields = s.fields := by
  unfold hide
  dsimp only
  split <;> rfl

theorem hide_tim (x a n : Nat) (s : State) : (hide x a n s).tim = s.tim := by
  unfold hide
  dsimp only
  split <;> rfl

/-- The quantisers hide the place of the tile, and write it. -/
theorem stageTile_writes (o : Op) (p : GPos) (f : Nat) (s : State) :
    ∃ x a l n bad, stageTile o p f s = wrBytes a l bad (hide x a n s) := ⟨_, _, _, _, _, rfl⟩

theorem stageTile_fields (o : Op) (p : GPos) (f : Nat) (s : State) : (stageTile o p f s).fields = s.fields := by
  obtain ⟨x, a, l, n, bad, h⟩ := stageTile_writes o p f s
  rw [h, wrBytes_fields, hide_fields]

theorem stageTile_tim (o : Op) (p : GPos) (f : Nat) (s : State) : (stageTile o p f s).tim = s.tim := by
  obtain ⟨x, a, l, n, bad, h⟩ := stageTile_writes o p f s
  rw [h, wrBytes_tim, hide_tim]

/-! ### The next tile enters the input buffer (R93) -/

/-- The loaders have read the tile of step `p` on field `f` at `t`, and quantised it where it is quantised at load. -/
def tileRead (o : Op) (p : GPos) (f t : Nat) (s : State) : State :=
  let u := touchWhere (tileReads { s with tim := { s.tim with t := t } } o p f) { s with tim := { s.tim with t := t } }
  if o.wsrc = 0 then u else stageTile o p f u

theorem tileRead_fields (o : Op) (p : GPos) (f t : Nat) (s : State) : (tileRead o p f t s).fields = s.fields := by
  unfold tileRead
  dsimp only
  split
  · exact touchWhere_fields _ _
  · exact (stageTile_fields _ _ _ _).trans (touchWhere_fields _ _)

theorem tileRead_beat (o : Op) (p : GPos) (f t : Nat) (s : State) : (tileRead o p f t s).tim.beat = s.tim.beat := by
  unfold tileRead
  dsimp only
  split
  · rw [touchWhere_tim]
  · rw [stageTile_tim, touchWhere_tim]

/-- The tile of step `p`, read for field `f` at `t`, stands in its input buffer. -/
def tileEntered (o : Op) (p : GPos) (f t : Nat) (s : State) : State :=
  (tileRead o p f t s).modField f (Field.buffered (tilePlane (tileRead o p f t s) o p f))

theorem tileEntered_onlyField (o : Op) (p : GPos) (f t : Nat) (s : State) :
    OnlyField f ((s.field f).buffered (tilePlane (tileRead o p f t s) o p f)) s (tileEntered o p f t s) :=
  OnlyField.of_congr (tileRead_fields o p f t s) (modField_onlyField _ f _)

/-- A tile that poison reached marks its op (R114). -/
def notePoison (o : Op) (b : Plane) (s : State) : State := if b.poisonCols = 0 then s else modOp o.key (Op.flag fPoison) s

theorem notePoison_fields (o : Op) (b : Plane) (s : State) : (notePoison o b s).fields = s.fields := by
  unfold notePoison
  split <;> rfl

theorem loaderBufferLoaded_eq {s : State} {f : Nat} {o : Op} {p : GPos} (t : Nat) (hwant : wantTile s f = some (o, p))
    (hbuf : (s.field f).bufFull = false) (hheld : heldAny s (tileRanges s o p f) = false) :
    exec (.loaderBufferLoaded f t) s = .next (notePoison o (tilePlane (tileRead o p f t s) o p f)
      (if (s.field f).refreshSwap then tileEntered o p f t s else startFill f t (tileEntered o p f t s))) := by
  have hswap : ((tileEntered o p f t s).field f).refreshSwap = (s.field f).refreshSwap := by
    rw [(tileEntered_onlyField o p f t s).own, buffered_refreshSwap]
  rw [← hswap]
  show execLoaderBufferLoaded f t s = _
  simp only [execLoaderBufferLoaded, hwant, hbuf, hheld, Bool.or_self, Bool.false_eq_true, if_false]
  rfl

theorem loaderBufferLoaded_enters (s : State) (f t₀ : Nat) (o : Op) (p : GPos) (hwant : wantTile s f = some (o, p))
    (hbuf : (s.field f).bufFull = false) (hheld : heldAny s (tileRanges s o p f) = false) :
    Completes (.loaderBufferLoaded f t₀) s (fun t => (t.field f).bufFull = true ∧ (t.field f).inBuf.tile = tileKey o p ∧
      ((s.field f).refreshSwap = false → (t.field f).loaderBusy = true ∧ (t.field f).shadowReady = false ∧
        (t.field f).fillEnd = 10000 * s.tim.beat + t₀ + 640) ∧
      ((s.field f).refreshSwap = true → (t.field f).reloadPend = true) ∧ ∀ g, g ≠ f → t.field g = s.field g) := by
  have henter := tileEntered_onlyField o p f t₀ s
  refine ⟨_, loaderBufferLoaded_eq t₀ hwant hbuf hheld, ?_⟩
  cases hswap : (s.field f).refreshSwap with
  | true =>
    obtain ⟨hown, hothers⟩ := henter.congr (notePoison_fields o _ _)
    rw [if_pos rfl, hown]
    exact ⟨rfl, rfl, fun h => Bool.noConfusion h, fun _ => hswap, hothers⟩
  | false =>
    obtain ⟨hown, hothers⟩ := (henter.trans (startFill_onlyField f t₀ _)).congr (notePoison_fields o _ _)
    have hend : absT (tileEntered o p f t₀ s) t₀ + 640 = 10000 * s.tim.beat + t₀ + 640 :=
      congrArg (fun b => 10000 * b + t₀ + 640) (tileRead_beat o p f t₀ s)
    rw [if_neg Bool.false_ne_true, hown, henter.own]
    exact ⟨rfl, rfl, fun _ => ⟨rfl, rfl, hend⟩, fun h => Bool.noConfusion h, hothers⟩

/-! ### Fills, rewrites and live refreshes -/

theorem fillComplete_settles (s : State) (f t₀ : Nat) (hbuf : (s.field f).bufFull = true) (hbusy : (s.field f).loaderBusy = true)
    (hswap : (s.field f).refreshSwap = false) (hend : (s.field f).fillEnd ≤ 10000 * s.tim.beat + t₀) :
    Completes (.fillComplete f t₀) s (fun t => (t.field f).shadowReady = true ∧ (t.field f).shadow = (s.field f).inBuf ∧
      (t.field f).loaderBusy = false ∧ (t.field f).live = (s.field f).live ∧ ∀ g, g ≠ f → t.field g = s.field g) := by
  obtain ⟨hown, hothers⟩ := fillShadow_onlyField f { s with tim := { s.tim with t := t₀ } }
  refine ⟨_, congrArg Host.Outcome.next (if_pos ⟨hbuf, hbusy, by rw [hswap]; rfl, hend⟩), ?_⟩
  dsimp only
  rw [hown]
  exact ⟨rfl, putShadow_shadow _ _, rfl, putShadow_live _ _, hothers⟩

theorem pendingTileReload_refills (s : State) (f : Nat) (hpend : (s.field f).reloadPend = true) (hbuf : (s.field f).bufFull = true)
    (hswap : (s.field f).refreshSwap = false) :
    Completes (.pendingTileReload f) s (fun t => (t.field f).inBuf = convert s f (s.field f).inBuf ∧ (t.field f).reloadPend = false ∧
      (t.field f).shadowReady = false ∧ (t.field f).loaderBusy = true ∧ (t.field f).fillEnd = 10000 * s.tim.beat + 660 ∧
      (t.field f).live = (s.field f).live ∧ ∀ g, g ≠ f → t.field g = s.field g) := by
  obtain ⟨hown, hothers⟩ := startFill_onlyField f 20 s
  refine ⟨_, congrArg Host.Outcome.next (if_pos ⟨hpend, hbuf, by rw [hswap]; rfl⟩), ?_⟩
  dsimp only
  rw [hown]
  exact ⟨rfl, rfl, rfl, rfl, rfl, rfl, hothers⟩

theorem pendingRewrite_refills (s : State) (f t₀ a : Nat) (hready : (s.field f).shadowReady = true) (hbuf : (s.field f).bufFull = true)
    (hat : (s.field f).shadowAt = some a) (hold : a + 19000 ≤ nowNs s t₀) (hstate : fieldState s f = 1 ∨ fieldState s f = 2) :
    Completes (.pendingRewrite f t₀) s (fun t => (t.field f).inBuf = convert { s with tim := { s.tim with t := t₀ } } f (s.field f).inBuf ∧
      (t.field f).shadowReady = false ∧ (t.field f).loaderBusy = true ∧ (t.field f).fillEnd = 10000 * s.tim.beat + t₀ + 640 ∧
      (t.field f).live = (s.field f).live ∧ ∀ g, g ≠ f → t.field g = s.field g) := by
  obtain ⟨hown, hothers⟩ := startFill_onlyField f t₀ { s with tim := { s.tim with t := t₀ } }
  refine ⟨_, congrArg Host.Outcome.next (if_pos ⟨hready, hbuf, by simp [hat, hold], hstate⟩), ?_⟩
  dsimp only
  rw [hown]
  exact ⟨rfl, rfl, rfl, rfl, rfl, hothers⟩

theorem liveRefresh_writes (s : State) (f : Nat) (hf : f < 32) (hdue : refreshDue s f = true) (hplan : swapPlanned s f = false)
    (hswap : (s.field f).refreshSwap = false) :
    Completes (.liveRefresh f) s (fun t => (t.field f).refreshSwap = true ∧ (t.field f).shadow = refreshPlane s f ∧ (t.field f).loaderBusy = true ∧
      ((s.field f).bufFull = true → (t.field f).reloadPend = true) ∧ (t.field f).live = (s.field f).live ∧ ∀ g, g ≠ f → t.field g = s.field g) := by
  obtain ⟨hown, hothers⟩ := setField_onlyField s f ((s.field f).refreshing (refreshPlane s f) s.tim.beat)
  refine ⟨s.setField f ((s.field f).refreshing (refreshPlane s f) s.tim.beat),
    congrArg Host.Outcome.next (if_pos ⟨hf, hdue, by rw [hplan]; rfl, by rw [hswap]; rfl⟩), ?_⟩
  dsimp only
  rw [hown]
  exact ⟨rfl, putShadow_shadow _ _, rfl, fun h => by simp [Field.refreshing, h], putShadow_live _ _, hothers⟩

/-! ### The swap of a group (R39, R40, R109) -/

/-- A fold over distinct fields that changes one field by `h` at each step changes exactly those of the list. -/
theorem foldl_field {F : State → Nat → State} {h : Field → Field} {I : State → Prop} (hI : ∀ s f, I s → I (F s f))
    (hF : ∀ s f, I s → OnlyField f (h (s.field f)) s (F s f)) {l : List Nat} (hl : l.Nodup) {s : State} (hs : I s) (g : Nat) :
    (l.foldl F s).field g = if g ∈ l then h (s.field g) else s.field g := by
  induction l generalizing s with
  | nil => rfl
  | cons f l ih =>
    obtain ⟨hf, hl⟩ := List.nodup_cons.mp hl
    obtain ⟨hown, hothers⟩ := hF s f hs
    rw [List.foldl_cons, ih hl (hI s f hs)]
    by_cases hg : g = f
    · subst hg
      rw [if_neg hf, hown, if_pos List.mem_cons_self]
    · simp only [hothers g hg, List.mem_cons, hg, false_or]

theorem members_nodup (o : Op) (root : Nat) : (o.members root).Nodup :=
  List.Pairwise.map _ (fun _ _ hne heq => hne (Nat.add_left_cancel heq)) List.nodup_range

theorem tiled_subset_members (s : State) (o : Op) (p : GPos) : o.tiled s p ⊆ o.members p.root :=
  fun _ hg => (List.mem_filter.mp hg).1

theorem tiled_nodup (s : State) (o : Op) (p : GPos) : (o.tiled s p).Nodup := List.Pairwise.filter _ (members_nodup o p.root)

theorem tiled_advanceAll (t : Nat) (fs : List Nat) (s : State) (o : Op) (p : GPos) : o.tiled (fs.foldl (advanceSlots t) s) p = o.tiled s p := by
  rw [advanceAll_eq]
  rfl

/-- Dark slots pass on the members of a list alone. -/
theorem advanceAll_others {fs : List Nat} {g : Nat} (hg : g ∉ fs) (t : Nat) (s : State) : (fs.foldl (advanceSlots t) s).field g = s.field g := by
  induction fs generalizing s with
  | nil => rfl
  | cons f fs ih =>
    obtain ⟨hf, hg⟩ := not_or.mp (mt List.mem_cons.mpr hg)
    rw [List.foldl_cons, ih hg, advanceSlots, (modField_onlyField s f _).others g hf]

theorem swapField_tim (f : Nat) (s : State) : (swapField f s).tim = s.tim :=
  foldl_tim _ _ _ fun _ _ => by split <;> rfl

/-- The planes of the fields `gs` swap, and the members `fs` carry no user symbols for 2 ns (R18, R39). -/
def swapPlanes (fs gs : List Nat) (s : State) : State :=
  fs.foldl (fun s g => s.modField g (Field.darkened s.tim.beat)) (gs.foldl (fun s g => swapField g s) s)

/-- What the swap makes of every field. -/
theorem swapPlanes_field {fs gs : List Nat} (hfs : fs.Nodup) (hgs : gs.Nodup) (s : State) (g : Nat) :
    (swapPlanes fs gs s).field g =
      if g ∈ fs then (if g ∈ gs then (s.field g).swapped else s.field g).darkened s.tim.beat
      else if g ∈ gs then (s.field g).swapped else s.field g := by
  have hswap : (gs.foldl (fun s g => swapField g s) s).field g = if g ∈ gs then (s.field g).swapped else s.field g :=
    foldl_field (I := fun _ => True) (fun _ _ _ => trivial) (fun s f _ => swapField_onlyField f s) hgs trivial g
  have hbeat : (gs.foldl (fun s g => swapField g s) s).tim.beat = s.tim.beat :=
    foldl_tim_beat _ _ _ fun u f => by rw [swapField_tim]
  rw [← hswap]
  exact foldl_field (F := fun s g => s.modField g (Field.darkened s.tim.beat)) (I := fun u => u.tim.beat = s.tim.beat)
    (fun _ _ hu => hu) (fun u f hu => hu ▸ modField_onlyField u f (Field.darkened u.tim.beat)) hfs hbeat g

section
variable {s : State} {f : Nat} {o : Op} {p : GPos} (t₀ : Nat) (hop : (s.field f).slots.bind (opOf s) = some o)
  (hpos : o.pos.find? (fun p => p.root == f) = some p) (hlive : p.live = false) (hdone : p.done = false)
include hop hpos hlive hdone

theorem swap_ready (hready : (o.tiled s p).all (tileReady s o p (max t₀ (slotTime s (o.members f)))) = true) :
    exec (.swap f t₀) s = .next (modOp o.key (Op.modPos f (fun p => { p with live := true })) (swapPlanes (o.members f) (o.tiled s p)
      ((o.members f).foldl (advanceSlots (max t₀ (slotTime s (o.members f)))) { s with tim := { s.tim with t := t₀ } }))) := by
  show execSwap f t₀ s = _
  simp only [execSwap, hop, hpos, hlive, hdone, Bool.false_eq_true, or_self, if_false, hready, if_true, tiled_advanceAll]
  rfl

theorem swap_waits (hready : (o.tiled s p).all (tileReady s o p (max t₀ (slotTime s (o.members f)))) = false) :
    exec (.swap f t₀) s = .next ((o.tiled s p).foldl (fun s g => s.modField g (fun x => { x with swapWait := true })) s) := by
  show execSwap f t₀ s = _
  simp only [execSwap, hop, hpos, hlive, hdone, Bool.false_eq_true, or_self, if_false, hready]

end

/-- Every group of root `f` of the op of key `k` is live after its swap. -/
theorem modOp_live {k f : Nat} {s : State} {o : Op} (ho : o ∈ (modOp k (Op.modPos f (fun p => { p with live := true })) s).ops) (hk : o.key = k)
    {p : GPos} (hp : p ∈ o.pos) (hroot : p.root = f) : p.live = true := by
  obtain ⟨x, -, rfl⟩ := mem_modOp_ops.mp ho
  by_cases hx : x.key = k
  · rw [if_pos hx] at hp
    obtain ⟨q, -, rfl⟩ := List.mem_map.mp hp
    by_cases hq : q.root = f
    · rw [if_pos hq]
    · rw [if_neg hq] at hroot
      exact absurd hroot hq
  · rw [if_neg hx] at hk
    exact absurd hk hx

theorem swap_swaps (s : State) (f t₀ : Nat) (o : Op) (p : GPos) (hop : (s.field f).slots.bind (opOf s) = some o)
    (hpos : o.pos.find? (fun p => p.root == f) = some p) (hlive : p.live = false) (hdone : p.done = false)
    (hready : (o.tiled s p).all (tileReady s o p (max t₀ (slotTime s (o.members f)))) = true) :
    Completes (.swap f t₀) s (fun t => (∀ g ∈ o.tiled s p, (t.field g).live = (s.field g).shadow ∧ (t.field g).drvStore = (s.field g).shadow.drives) ∧
      (∀ g ∈ o.members f, (t.field g).darkTo = 10000 * s.tim.beat + (t.field g).slotT + 20) ∧
      (∀ g, g ∉ o.members f → g ∉ o.tiled s p → t.field g = s.field g) ∧
      ∀ o' ∈ t.ops, o'.key = o.key → ∀ p' ∈ o'.pos, p'.root = f → p'.live = true) := by
  have hroot : p.root = f := by simpa using List.find?_some hpos
  have hsub : o.tiled s p ⊆ o.members f := hroot ▸ tiled_subset_members s o p
  obtain ⟨u, hu⟩ : ∃ u, u = (o.members f).foldl (advanceSlots (max t₀ (slotTime s (o.members f)))) { s with tim := { s.tim with t := t₀ } } := ⟨_, rfl⟩
  have hfield := swapPlanes_field (members_nodup o f) (tiled_nodup s o p) u
  have hshadow : ∀ g, (u.field g).shadow = (s.field g).shadow := fun g => by
    obtain ⟨c, hc⟩ := advanceAll_field (max t₀ (slotTime s (o.members f))) (o.members f) { s with tim := { s.tim with t := t₀ } } g
    rw [hu, hc]
    rfl
  have hbeat : u.tim.beat = s.tim.beat := by
    rw [hu, foldl_tim _ _ _ fun _ _ => advanceSlots_tim _ _ _]
  refine ⟨_, swap_ready t₀ hop hpos hlive hdone hready, ?_⟩
  rw [← hu]
  refine ⟨fun g hg => ?_, fun g hg => ?_, fun g hg hg' => ?_, fun o' ho' hk p' hp' hr => modOp_live ho' hk hp' hr⟩
  · rw [field_congr _ _ (modOp_fields _ _ _), hfield, if_pos (hsub hg), if_pos hg, ← hshadow]
    exact ⟨swapped_live _, rfl⟩
  · rw [field_congr _ _ (modOp_fields _ _ _), hfield, if_pos hg, hbeat]
    rfl
  · rw [field_congr _ _ (modOp_fields _ _ _), hfield, if_neg hg, if_neg hg', hu]
    exact advanceAll_others hg _ _

theorem swap_waits_live (s : State) (f t₀ : Nat) (o : Op) (p : GPos) (hop : (s.field f).slots.bind (opOf s) = some o)
    (hpos : o.pos.find? (fun p => p.root == f) = some p) (hlive : p.live = false) (hdone : p.done = false)
    (hready : (o.tiled s p).all (tileReady s o p (max t₀ (slotTime s (o.members f)))) = false) :
    Completes (.swap f t₀) s (fun t => t.ops = s.ops ∧ ∀ g, (t.field g).live = (s.field g).live) := by
  refine ⟨_, swap_waits t₀ hop hpos hlive hdone hready, foldl_ops _ _ _ fun _ _ => rfl, fun g => ?_⟩
  refine foldl_keep (fun u : State => (u.field g).live) _ (fun u m => ?_) _ s
  rw [field_modField]
  split
  next h => rw [h]; rfl
  next => rfl

/-- Settles O9: fills, rewrites and refreshes by the one field that each changes, the swap by what it makes of every field of the group. -/
theorem loadersFillAndSwapPlanes : Obligations.LoadersFillAndSwapPlanes :=
  ⟨loaderBufferLoaded_enters, fillComplete_settles, pendingTileReload_refills, pendingRewrite_refills, liveRefresh_writes, swap_swaps, swap_waits_live⟩

end Sys2Proof.Machine
end

section
/-! The output code of a sample against the light it stands for: what the roundings of the ideal code and of the correction stage may add. -/

namespace Sys2Proof.Machine

open Sys2Proof

/-! ### Rounding and rails -/

/-- `d` departs from zero by at most `b`. -/
def Within (b d : Int) : Prop := -b ≤ d ∧ d ≤ b

theorem Within.mul {b d u : Int} (hu : 0 ≤ u) (h : Within b d) : Within (u * b) (u * d) := by
  obtain ⟨hlow, hhigh⟩ := h
  exact ⟨Int.mul_neg u b ▸ Int.mul_le_mul_of_nonneg_left hlow hu, Int.mul_le_mul_of_nonneg_left hhigh hu⟩

/-- A rounded quotient times its divisor lies within half the divisor of the dividend. -/
theorem roundEven_near (a : Int) {b : Nat} (hb : 0 < b) : Within b (2 * (roundEven a b * b - a)) := by
  have hdiv : a.fdiv b * b + a.fmod b = a := Int.fdiv_mul_add_fmod a b
  have hlow : 0 ≤ a.fmod b := Int.fmod_nonneg_of_pos a (Int.natCast_pos.mpr hb)
  have hhigh : a.fmod b < b := Int.fmod_lt_of_pos a (Int.natCast_pos.mpr hb)
  have hnext : (a.fdiv b + 1) * b = a.fdiv b * b + b := by rw [Int.add_mul, Int.one_mul]
  unfold Within roundEven
  dsimp only
  split
  · omega
  · split
    · omega
    · split <;> omega

/-- A value that is not at a rail was not held at one. -/
theorem clampI_off_rail {x : Int} (h : atRail (clampI (-512) 511 x) = false) : clampI (-512) 511 x = x := by
  have hoff : ¬ (clampI (-512) 511 x ≤ -512 ∨ 511 ≤ clampI (-512) 511 x) := of_decide_eq_false h
  unfold clampI at hoff ⊢
  split
  next hlow => simp [hlow] at hoff
  next hlow =>
    split
    next hhigh => simp [hlow, hhigh] at hoff
    next => rfl

/-- A code without overrange is the rounded corrected value, of a raw code off the rails (R101). -/
theorem outputCode_inside {raw : Int × Int} {v n : Int} (h : outputCode false raw v = (n, false)) :
    atRail raw.1 = false ∧ n = roundEven v 16 := by
  unfold outputCode at h
  cases hrail : atRail raw.1 with
  | true => simp [hrail] at h
  | false =>
    simp only [hrail, Bool.false_and, Bool.false_eq_true, if_false] at h
    split at h
    · simp at h
    · split at h
      · simp at h
      · exact ⟨rfl, (congrArg Prod.fst h).symm⟩

/-! ### The ideal code and the correction of one sample -/

/-- The in-phase pilot term that the light carries and the correction takes off, in 1/65536 code (R53, R101). -/
def pilotTerm (s : State) (f c g : Nat) : Int := (pilotSymbol (s.field f).symIdx g).1 * (columnCal s f c g).2.2.2

/-- The offset of slice and column that the raw code carries and the correction takes off, in 1/16 code (R97, R101). -/
def sampleOffset (s : State) (f c g : Nat) : Int := sliceOffset s f c g (s.field f).smpIdx + (columnCal s f c g).2.2.1

/-- What 1270 times a `columnSum` amounts to for one output code of a column of gain `G` (R33, R96, R101). -/
def codeUnit (G : Int) : Int := 9 * G * 2 ^ 48

section
variable {s : State} {f c g : Nat} {G : Int} (hG : G = (columnCal s f c g).2.1)
  (hgain : gainExcess s (portOfField f) g = 0) (hband : bandOffset s f c g = 0)
include hG hgain hband

/-- The ideal code as one quotient, when neither light nor analogue path departs from calibration (R97). -/
theorem idealCode_calibrated (i : Nat) :
    idealCode s f c g i = roundEven
      (2 ^ 80 * (codeUnit G * (4096 * (sliceOffset s f c g i + (columnCal s f c g).2.2.1) + pilotTerm s f c g) + 2 ^ 16 * (1270 * columnSum s f c g)))
      (codeUnit G * 2 ^ 96).toNat := by
  have hratio : fieldRatio (gainExcess s (portOfField f) g) = 2 ^ 64 := by
    rw [hgain]
    rfl
  show roundEven ((4096 * (sliceOffset s f c g i + (columnCal s f c g).2.2.1) + bandOffset s f c g) * (9 * (columnCal s f c g).2.1 * 2 ^ 64 * 2 ^ 64) +
    (pilotTerm s f c g * (9 * (columnCal s f c g).2.1 * 2 ^ 64) + columnSum s f c g * (1270 * 2 ^ 32)) * fieldRatio _)
    (9 * (columnCal s f c g).2.1 * 2 ^ 64 * 2 ^ 80).toNat = _
  rw [hband, hratio, ← hG]
  congr 2 <;> unfold codeUnit <;> grind

/-- The ideal code is within half a code of the product, the offsets and the pilot (R97). -/
theorem idealCode_near (hpos : 0 < G) :
    Within (2 ^ 16 * codeUnit G) (2 * (2 ^ 16 * (idealCode s f c g (s.field f).smpIdx * codeUnit G - 1270 * columnSum s f c g) -
      codeUnit G * (4096 * sampleOffset s f c g + pilotTerm s f c g))) := by
  have hunit : 0 < codeUnit G * 2 ^ 96 := by
    unfold codeUnit
    omega
  have hnear := roundEven_near
    (2 ^ 80 * (codeUnit G * (4096 * sampleOffset s f c g + pilotTerm s f c g) + 2 ^ 16 * (1270 * columnSum s f c g)))
    (b := (codeUnit G * 2 ^ 96).toNat) (by omega)
  rw [sampleOffset, ← idealCode_calibrated hG hgain hband, Int.toNat_of_nonneg (Int.le_of_lt hunit), ← Int.mul_assoc] at hnear
  obtain ⟨hlow, hhigh⟩ := hnear
  rw [sampleOffset]
  constructor <;> omega

end

/-- At 10 GBd the correction takes offsets and pilot off the first raw sample, and rounds the pilot to 1/16 code (R101). -/
theorem corrected_fast {s : State} {f c g : Nat} (raw : Int × Int) (hslow : (s.field f).slow = false) :
    corrected s f c g raw = 16 * raw.1 - sampleOffset s f c g - roundEven (pilotTerm s f c g) 4096 := by
  show (if (s.field f).slow then _ else 16 * raw.1 - sliceOffset s f c g (s.field f).smpIdx) - (columnCal s f c g).2.2.1 -
    roundEven (pilotTerm s f c g) 4096 = _
  rw [hslow, sampleOffset]
  simp only [Bool.false_eq_true, if_false]
  omega

/-! ### The three roundings together -/

/-- Settles O11: half a code each for the raw code and for the output code, and half of 1/16 code for the pilot. -/
theorem matrixProductWithinRounding : Obligations.MatrixProductWithinRounding := by
  intro s l f c g G n hG hpos hslow herr hgain hband hout
  obtain ⟨hrail, hn⟩ := outputCode_inside hout
  have hraw : (rawCodes s l f c g).1 = idealCode s f c g (s.field f).smpIdx := by
    refine (clampI_off_rail hrail).trans ?_
    rw [herr, Int.add_zero]
  rw [corrected_fast _ hslow, hraw] at hn
  have hunit : 0 ≤ codeUnit G := by
    unfold codeUnit
    omega
  obtain ⟨hrawLow, hrawHigh⟩ := idealCode_near hG hgain hband hpos
  obtain ⟨hpilotLow, hpilotHigh⟩ := (roundEven_near (pilotTerm s f c g) (b := 4096) (by decide)).mul hunit
  have hcode := roundEven_near
    (16 * idealCode s f c g (s.field f).smpIdx - sampleOffset s f c g - roundEven (pilotTerm s f c g) 4096) (b := 16) (by decide)
  rw [← hn] at hcode
  obtain ⟨hcodeLow, hcodeHigh⟩ := hcode.mul hunit
  rw [show 9 * G * 2 ^ 48 = codeUnit G from rfl]
  constructor <;> grind

end Sys2Proof.Machine
end

section
/-! The output code of a sample, taint windows, and accumulator writes (R101 to R105, R112). -/

namespace Sys2Proof.Machine

open Sys2Proof State

/-! ### The output code -/

theorem atRail_high {a : Int} (h : 511 ≤ a) : atRail a = true := decide_eq_true (Or.inr h)
theorem atRail_low {a : Int} (h : a ≤ -512) : atRail a = true := decide_eq_true (Or.inl h)
theorem atRail_within {a : Int} (hlow : -512 < a) (hhigh : a < 511) : atRail a = false := decide_eq_false (by omega)

/-- The clip code of a raw code at a rail: the side that the raw code's sign gives (R101). -/
def clipOf (a : Int) : Int × Bool := (if a < 0 then -511 else 511, true)

theorem clipOf_high {a : Int} (h : 511 ≤ a) : clipOf a = (511, true) := congrArg (·, true) (if_neg (by omega))
theorem clipOf_low {a : Int} (h : a ≤ -512) : clipOf a = (-511, true) := congrArg (·, true) (if_pos (by omega))

theorem outputCode_rail {a : Int} (h : atRail a = true) (slow : Bool) (b v : Int) : outputCode slow (a, b) v = clipOf a := if_pos h

theorem outputCode_secondRail {a b : Int} (ha : atRail a = false) (hb : atRail b = true) (v : Int) : outputCode true (a, b) v = clipOf b := by
  simp only [outputCode, ha, hb, clipOf, Bool.and_self, if_true, Bool.false_eq_true, if_false]

/-- At 10 GBd the second half of a slot has no sample, and its raw code none of the output's say (R96, R100). -/
theorem outputCode_fast (a b c v : Int) : outputCode false (a, b) v = outputCode false (a, c) v := by
  simp only [outputCode, Bool.false_and, Bool.false_eq_true, if_false]

/-- A code within ±511 that is flagged exactly at its bounds. -/
def FlagsClips (y : Int × Bool) : Prop := -511 ≤ y.1 ∧ y.1 ≤ 511 ∧ (y.2 = true ↔ y.1 = 511 ∨ y.1 = -511)

theorem flagsClips_high : FlagsClips (511, true) := by unfold FlagsClips; decide
theorem flagsClips_low : FlagsClips (-511, true) := by unfold FlagsClips; decide

theorem flagsClips_clipOf (a : Int) : FlagsClips (clipOf a) := by
  unfold clipOf
  split
  · exact flagsClips_low
  · exact flagsClips_high

theorem outputCode_flagsClips (slow : Bool) (raw : Int × Int) (v : Int) : FlagsClips (outputCode slow raw v) := by
  unfold outputCode
  dsimp only
  split
  · exact flagsClips_clipOf raw.1
  · split
    · exact flagsClips_clipOf raw.2
    · split
      · exact flagsClips_high
      · split
        · exact flagsClips_low
        next hhigh hlow =>
          simp only [FlagsClips, Bool.false_eq_true, false_iff]
          omega

/-! ### Taint windows -/

/-- A step of a fold that reaches `Q` from `I` leaves it so to the end, when every step keeps `I` and every other step on a member of the list keeps `Q`. -/
theorem foldl_reaches_mem {σ α : Type} {I Q : σ → Prop} {f : σ → α → σ} {l : List α} {a : α} (ha : a ∈ l) (hI : ∀ s b, I s → I (f s b))
    (hreach : ∀ s, I s → Q (f s a)) (hQ : ∀ s, ∀ b ∈ l, b ≠ a → Q s → Q (f s b)) {s : σ} (hs : I s) : Q (l.foldl f s) := by
  induction l generalizing s with
  | nil => cases ha
  | cons b l ih =>
    by_cases hb : b = a
    · subst hb
      refine (List.foldlRecOn (motive := fun t => I t ∧ Q t) l f ⟨hI s b hs, hreach s hs⟩ fun t ht c hc => ⟨hI t c ht.1, ?_⟩).2
      by_cases hcb : c = b
      · exact hcb ▸ hreach t ht.1
      · exact hQ t c (List.mem_cons_of_mem b hc) hcb ht.2
    · exact ih (List.mem_of_ne_of_mem (Ne.symm hb) ha) (fun t c hc => hQ t c (List.mem_cons_of_mem b hc)) (hI s b hs)

/-- The window of the sample's octet and colour, to the 24th slot after it (R104, R105). -/
def taintOctet (s : State) (x : TreeIn) : State := s.setTaint (octetKey x.f x.c x.g) { upTo := (s.field x.f).symIdx + 25 }

theorem openTaints_eq (l : List TreeIn) (s : State) : openTaints l s = (l.filter (fun x => x.o)).foldl taintOctet s := rfl

theorem taint_taintOctet (s : State) (x : TreeIn) (k : Nat) :
    (taintOctet s x).taint k = if k = octetKey x.f x.c x.g then { upTo := (s.field x.f).symIdx + 25 } else s.taint k := taint_setTaint _ _ _ _

theorem openTaints_upTo {s : State} {l : List TreeIn} {x : TreeIn} (hx : x ∈ l) (ho : x.o = true)
    (hsame : ∀ y ∈ l, y.o = true → octetKey y.f y.c y.g = octetKey x.f x.c x.g → y.f = x.f) :
    ((openTaints l s).taint (octetKey x.f x.c x.g)).upTo = (s.field x.f).symIdx + 25 := by
  rw [openTaints_eq]
  refine (foldl_reaches_mem (f := taintOctet) (I := fun (t : State) => t.fields = s.fields)
    (Q := fun (t : State) => t.fields = s.fields ∧ (t.taint (octetKey x.f x.c x.g)).upTo = (s.field x.f).symIdx + 25)
    (List.mem_filter.mpr ⟨hx, ho⟩) (fun _ _ ht => ht) (fun t ht => ⟨ht, ?_⟩) (fun t y hy _ ht => ⟨ht.1, ?_⟩) (s := s) rfl).2
  · show ((taintOctet t x).taint _).upTo = _
    rw [taint_taintOctet, if_pos rfl, field_congr s t ht]
  · show ((taintOctet t y).taint _).upTo = _
    obtain ⟨hyl, hyo⟩ := List.mem_filter.mp hy
    rw [taint_taintOctet]
    split
    next hkey => rw [hsame y hyl hyo hkey.symm, field_congr s t ht.1]
    next => exact ht.2

theorem openTaints_others {s : State} {l : List TreeIn} {k : Nat} (h : ∀ y ∈ l, y.o = true → octetKey y.f y.c y.g ≠ k) :
    (openTaints l s).taint k = s.taint k :=
  List.foldlRecOn (motive := fun (t : State) => t.taint k = s.taint k) _ taintOctet rfl fun t ht y hy => by
    obtain ⟨hyl, hyo⟩ := List.mem_filter.mp hy
    rw [taint_taintOctet, if_neg (Ne.symm (h y hyl hyo)), ht]

/-- Settles O12: the code by the branches of `outputCode`, where a first half at a rail gives its side whatever the second half (the model's choice,
assumption log 55), and the windows by the fold over the overrange samples. -/
theorem overrangeIsClippedAndTaintsItsOctet : Obligations.OverrangeIsClippedAndTaintsItsOctet := by
  refine ⟨⟨outputCode_flagsClips, ?_, ?_, ?_⟩, fun s l x => openTaints_upTo, fun s l k => openTaints_others, ?_, ?_⟩
  · exact fun slow a b v ha => (outputCode_rail (atRail_high ha) slow b v).trans (clipOf_high ha)
  · exact fun slow a b v ha => (outputCode_rail (atRail_low ha) slow b v).trans (clipOf_low ha)
  · exact fun a b v hlow hhigh hb =>
      ⟨(outputCode_secondRail (atRail_within hlow hhigh) (atRail_high hb) v).trans (clipOf_high hb), outputCode_fast a b 0 v⟩
  · rintro s l f c g y ht rfl
    exact ⟨if_pos ht, ht, rfl⟩
  · rintro s l f c g y ht rfl
    exact ⟨if_neg (ht ▸ Bool.false_ne_true), ht, rfl⟩

/-! ### Accumulator writes -/

theorem accCell_accWrite_init (s : State) (key : Nat) (v : AccCell) : (accWrite true key v s).accCell key = v :=
  (accCell_setAccCell s key key v).trans (if_pos rfl)

theorem accCell_accWrite_add (s : State) (key : Nat) (v : AccCell) : (accWrite false key v s).accCell key =
    { val := signed 32 (image 32 ((s.accCell key).val + v.val)), T := (s.accCell key).T || v.T
      O := (s.accCell key).O || v.O, P := (s.accCell key).P || v.P } := by
  unfold accWrite
  rw [if_neg Bool.false_ne_true, accCell_modAccCell, if_pos rfl]

theorem accWrite_frame (init : Bool) (key : Nat) (v : AccCell) (s : State) : { accWrite init key v s with acc := s.acc } = s := by
  cases init <;> rfl

/-- Settles O13: an initialising write stores the cell, an adding one its sums, wrapped as the model chooses for a value past R111's 32 bits, and
either leaves the rest. -/
theorem accumulatorInitialisesOrAdds : Obligations.AccumulatorInitialisesOrAdds := by
  intro s key v
  rw [accCell_accWrite_add]
  exact ⟨accCell_accWrite_init s key v, rfl, ⟨rfl, rfl, rfl⟩, fun init j hj => accCell_accWrite_ne hj init v s, fun init => accWrite_frame init key v s⟩

end Sys2Proof.Machine
end

section
/-! Ops that are admitted, wait and retire, and writes of memory in a state without bit errors: the layer that the drains, saves and restores below stand on. -/

namespace Sys2Proof.Machine

open Sys2Proof State

/-! ### One op of the table of ops -/

theorem opOf_key {s : State} {k : Nat} {o : Op} (h : opOf s k = some o) : o.key = k := by
  simpa using List.find?_some h

theorem opOf_congr {s t : State} (h : t.ops = s.ops) (k : Nat) : opOf t k = opOf s k := by
  unfold opOf
  rw [h]

/-- A change of op `k` that leaves its key is what `opOf` shows of it. -/
theorem opOf_modOp {g : Op → Op} (hg : ∀ o, (g o).key = o.key) (k : Nat) (s : State) : opOf (modOp k g s) k = (opOf s k).map g := by
  unfold opOf modOp
  dsimp only
  induction s.ops with
  | nil => rfl
  | cons o l ih =>
    by_cases ho : o.key = k
    · simp [ho, hg]
    · simp [ho, ih]

theorem opOf_modOp_some {g : Op → Op} {s : State} {k : Nat} {o : Op} (h : opOf s k = some o) (hg : ∀ o, (g o).key = o.key) :
    opOf (modOp k g s) k = some (g o) := by
  rw [opOf_modOp hg, h]
  rfl

/-- The op in stage `n`. -/
def Op.staged (n : Nat) (o : Op) : Op := { o with stage := n }

/-- A change of op `k` that puts it in stage `n`. -/
theorem inStage_modOp {g : Op → Op} {k n : Nat} {s : State} {o : Op} (h : opOf s k = some o) (hg : ∀ o, (g o).key = o.key)
    (hn : (g o).stage = n) : InStage (modOp k g s) k n :=
  ⟨g o, opOf_modOp_some h hg, hn⟩

/-- The op as its admission in beat `b` records it. -/
def Op.admittedAt (b : Nat) (o : Op) : Op := { o with stage := 2, admBeat := some b }

theorem setAdmitted_frame (k : Nat) (s : State) :
    ∃ q, setAdmitted k s = { s with ops := (modOp k (Op.admittedAt s.tim.beat) s).ops, seq := { s.seq with rrLast := q } } := by
  unfold setAdmitted
  dsimp only
  split
  · exact ⟨_, rfl⟩
  · exact ⟨s.seq.rrLast, rfl⟩

theorem opOf_setAdmitted {k : Nat} {s : State} {o : Op} (h : opOf s k = some o) : opOf (setAdmitted k s) k = some (o.admittedAt s.tim.beat) := by
  obtain ⟨q, hq⟩ := setAdmitted_frame k s
  rw [hq]
  exact opOf_modOp_some h fun _ => rfl

/-- `acc.drain`, `acc.save` and `acc.restore` name no manifest entries: the body of their admission runs in the state as it stands. -/
theorem admitOp_runs {s : State} {k code : Nat} {o : Op} (h : Admissible s k code o) (hacc : code = 0x03 ∨ code = 0x04 ∨ code = 0x05)
    (body : Op → State → State) : admitOp k code body s = body o s := by
  obtain ⟨hop, hcode, hstage, hcopy, habort, hadmit, hwaits, hup, hfirst, -⟩ := h
  have hlist : o.mlist.2 = 0 := by
    unfold Op.mlist
    rw [hcode]
    rcases hacc with rfl | rfl | rfl <;> rfl
  simp only [admitOp, hop, hcode, hstage, hcopy, habort, hadmit, hwaits, hup, hfirst, hlist, and_self, if_true, Bool.false_eq_true, if_false,
    Bool.not_true]

/-! ### Writes of memory without bit errors -/

theorem touchRow_noErrs {s : State} (h : s.errs = []) (f row : Nat) : touchRow f row s = s := touch_noErrs h _ _

theorem foldl_fixed {σ α : Type} {f : σ → α → σ} {s : σ} (h : ∀ a, f s a = s) (l : List α) : l.foldl f s = s :=
  foldl_inv (fun t => t = s) f (fun _ a ht => ht ▸ h a) l s rfl

theorem hide_frame (x a n : Nat) (s : State) : ∃ q, hide x a n s = { s with seq := q } := by
  unfold hide
  dsimp only
  split
  · exact ⟨_, rfl⟩
  · exact ⟨_, rfl⟩

theorem putBytesAt_frame (s : State) (a : Nat) (l : List Byte) : putBytesAt s a l = { s with mem := (putBytesAt s a l).mem } := by
  induction l generalizing s a with
  | nil => rfl
  | cons v l ih =>
    have hbyte : putByte s a v = { s with mem := (putByte s a v).mem } := by
      unfold putByte
      split <;> rfl
    rw [putBytesAt, ih, hbyte]

theorem putPoison_frame (s : State) (w : Nat) (full bad : Bool) :
    putPoison s w full bad = { s with poison := (putPoison s w full bad).poison, errs := (putPoison s w full bad).errs } := by
  unfold putPoison
  split <;> rfl

/-- A write leaves all but memory, its poison and its bit errors as they were. -/
theorem wrBytes_noErrs {s : State} (h : s.errs = []) (a : Nat) (l : List Byte) (bad : Nat → Bool) :
    ∃ p e, wrBytes a l bad s = { s with mem := (putBytesAt s a l).mem, poison := p, errs := e } := by
  unfold wrBytes
  dsimp only
  rw [foldl_fixed (f := fun s w => touch (8 * w) 8 s) (fun w => touch_noErrs h _ _)]
  refine foldl_inv (fun (t : State) => ∃ p e, t = { s with mem := (putBytesAt s a l).mem, poison := p, errs := e }) _ ?_ _ _
    ⟨_, _, putBytesAt_frame s a l⟩
  rintro t w ⟨p, e, rfl⟩
  exact ⟨_, _, putPoison_frame _ w _ _⟩

section
variable {s t : State} (hnet : t.net = s.net) (htop : t.memTop = s.memTop)
include hnet htop

theorem locHbm_congr (a : Nat) (l : List Nat) : locHbm t a l = locHbm s a l := by
  induction l with
  | nil => rfl
  | cons p l ih =>
    unfold locHbm windowStacks
    rw [ih, hnet, htop]

/-- Where an address lies is a matter of the partitions and of the memory in service. -/
theorem locOf_congr (a : Nat) : locOf t a = locOf s a := by
  unfold locOf ddrBytes
  rw [locHbm_congr hnet htop, hnet, htop]

theorem noStore_congr (hunits : t.units = s.units) (a : Nat) : noStore t a = noStore s a := by
  simp only [noStore, locOf_congr hnet htop, State.unit, hunits]

end

theorem noStore_putByte (s : State) (a : Nat) (v : Byte) (b : Nat) : noStore (putByte s a v) b = noStore s b := by
  unfold putByte
  split
  · rfl
  · refine noStore_congr ?_ ?_ ?_ b <;> rfl

/-- A stored byte reads back where a store reaches. -/
theorem read_putBytesAt_in (s : State) (a i : Nat) (l : List Byte) (hi : i < l.length) (h : noStore s (a + i) = false) :
    Memory.read (putBytesAt s a l).mem (a + i) = l.getD i 0 := by
  induction l generalizing s a i with
  | nil => exact absurd hi (Nat.not_lt_zero i)
  | cons v l ih =>
    cases i with
    | zero =>
      rw [putBytesAt, read_putBytesAt_out _ _ _ _ (by omega), read_putByte, if_pos ⟨rfl, h⟩]
      rfl
    | succ i =>
      have hbyte : noStore (putByte s a v) (a + 1 + i) = false := by
        rw [noStore_putByte, Nat.add_assoc, Nat.add_comm 1 i, h]
      rw [putBytesAt, show a + (i + 1) = a + 1 + i by omega, ih _ _ _ (Nat.lt_of_succ_lt_succ hi) hbyte]
      rfl

end Sys2Proof.Machine
end

section
/-! Drains and saves of accumulator rows: their admission behind a tree fence, and what they do when it passes (R115, R117, R119, R240, R282). -/

namespace Sys2Proof.Machine

open Sys2Proof State

/-! ### A drain leaves the row maps -/

theorem countCe_rowMaps (u : Nat) (s : State) : (countCe u s).rowMaps = s.rowMaps := by
  unfold countCe
  split <;> rfl

theorem countUe_rowMaps (u a : Nat) (s : State) : (countUe u a s).rowMaps = s.rowMaps := by
  unfold countUe
  dsimp only
  split
  · split
    · exact post_rowMaps _ _ _
    · rfl
  · exact post_rowMaps _ _ _

theorem touchAcc_rowMaps (s : State) (w : Nat) (e : BitVec 80) : (touchAcc s w e).rowMaps = s.rowMaps := by
  unfold touchAcc
  dsimp only
  rw [ite_rowMaps, countUe_rowMaps]
  exact ite_self _

theorem touchPlain_rowMaps (s : State) (w : Nat) (e : BitVec 80) : (touchPlain s w e).rowMaps = s.rowMaps := by
  unfold touchPlain
  dsimp only
  split
  · rw [ite_rowMaps, countCe_rowMaps]
    exact ite_self _
  · exact countUe_rowMaps _ _ _

theorem touchWord_rowMaps (s : State) (w : Nat) (e : BitVec 80) : (touchWord s w e).rowMaps = s.rowMaps := by
  unfold touchWord
  split
  · exact touchAcc_rowMaps _ _ _
  · exact touchPlain_rowMaps _ _ _

theorem touch_rowMaps (a n : Nat) (s : State) : (touch a n s).rowMaps = s.rowMaps := foldl_rowMaps _ _ _ fun _ _ => touchWord_rowMaps _ _ _

theorem touchRow_rowMaps (f row : Nat) (s : State) : (touchRow f row s).rowMaps = s.rowMaps := touch_rowMaps _ _ _

theorem wrBytes_rowMaps (a : Nat) (l : List Byte) (bad : Nat → Bool) (s : State) : (wrBytes a l bad s).rowMaps = s.rowMaps := by
  unfold wrBytes
  dsimp only
  rw [foldl_rowMaps _ _ _ fun _ _ => by rw [putPoison_frame], putBytesAt_frame]
  exact foldl_rowMaps _ _ _ fun _ _ => touch_rowMaps _ _ _

theorem hide_rowMaps (x a n : Nat) (s : State) : (hide x a n s).rowMaps = s.rowMaps := by
  obtain ⟨q, hq⟩ := hide_frame x a n s
  rw [hq]

theorem writeSeg_rowMaps (k : Nat) (x : Seg) (s : State) : (writeSeg k x s).rowMaps = s.rowMaps := by
  unfold writeSeg
  split
  · rfl
  · dsimp only
    rw [modOp_rowMaps, wrBytes_rowMaps, hide_rowMaps]

theorem runtimeReach_rowMaps (k : Nat) (l : List (Nat × Nat)) (s : State) : (runtimeReach k l s).rowMaps = s.rowMaps := by
  unfold runtimeReach
  split
  · rfl
  · exact foldl_rowMaps _ _ _ fun _ _ => by rw [post_rowMaps, modOp_rowMaps]

theorem drainPass_rowMaps (o : Op) (s : State) : (drainPass o s).rowMaps = s.rowMaps := by
  unfold drainPass
  dsimp only
  rw [foldl_rowMaps _ _ _ fun _ _ => writeSeg_rowMaps _ _ _, modOp_rowMaps, runtimeReach_rowMaps,
    foldl_rowMaps _ _ _ fun _ _ => touchRow_rowMaps _ _ _]
  exact foldl_rowMaps _ _ _ fun _ _ => touch_rowMaps _ _ _

/-! ### The admission of a drain -/

/-- The clusters `cl` serve a drain (R282). -/
def raiseDrains (cl : List (Nat × Nat × Nat)) (s : State) : State :=
  cl.foldl (fun (s : State) c => s.modField c.2.1 (fun x => { x with drain := x.drain ||| BitVec.twoPow 4 c.2.2 })) s

theorem raiseDrains_frame (cl : List (Nat × Nat × Nat)) (s : State) : ∃ fs, raiseDrains cl s = { s with fields := fs } := by
  refine foldl_inv (fun (t : State) => ∃ fs, t = { s with fields := fs }) _ ?_ cl s ⟨_, rfl⟩
  rintro t c ⟨fs, rfl⟩
  exact ⟨_, rfl⟩

theorem raiseDrains_on {cl : List (Nat × Nat × Nat)} {c : Nat × Nat × Nat} (hc : c ∈ cl) (hlt : c.2.2 < 4) (s : State) :
    ((raiseDrains cl s).field c.2.1).drain.getLsbD c.2.2 = true := by
  refine foldl_reaches (I := fun _ => True) (Q := fun (t : State) => (t.field c.2.1).drain.getLsbD c.2.2 = true) hc (fun _ _ _ => trivial)
    (fun t _ => ?_) (fun t d ht => ?_) s trivial
  · simp [hlt]
  · rw [field_modField]
    split
    next hd => simp [← hd, ht]
    next => exact ht

/-- The row maps of the rows that a drain names (R282). -/
def Op.drainMaps (s : State) (o : Op) : List RowMap := mapsOver s (o.part s) (o.dn 18 2) (o.dn 20 2)

/-- The op with the row maps and the clusters that its drain uses. -/
def Op.draining (maps : List RowMap) (cl : List (Nat × Nat × Nat)) (o : Op) : Op := { o with maps := maps, clusters := cl }

/-- The state in which a drain waits for its tree fence, with its maps and clusters fixed (R117, R119, R282). -/
def drainFenced (k : Nat) (maps : List RowMap) (cl : List (Nat × Nat × Nat)) (s : State) : State :=
  raiseFence k (raiseDrains cl (modOp k (Op.draining maps cl) (setAdmitted k s)))

section
variable (s : State) (k : Nat) (maps : List RowMap) (cl : List (Nat × Nat × Nat))

theorem opOf_drainFenced {o : Op} (h : opOf s k = some o) :
    opOf (drainFenced k maps cl s) k = some (((o.admittedAt s.tim.beat).draining maps cl).staged 4) := by
  have hfixed := opOf_modOp_some (g := Op.draining maps cl) (opOf_setAdmitted h) fun _ => rfl
  obtain ⟨fs, hfs⟩ := raiseDrains_frame cl (modOp k (Op.draining maps cl) (setAdmitted k s))
  rw [drainFenced, hfs]
  exact opOf_modOp_some (g := Op.staged 4) hfixed fun _ => rfl

theorem drainFenced_frame : ∃ ops q fs, drainFenced k maps cl s = { s with ops := ops, seq := q, fields := fs } := by
  obtain ⟨q, hq⟩ := setAdmitted_frame k s
  obtain ⟨fs, hfs⟩ := raiseDrains_frame cl (modOp k (Op.draining maps cl) (setAdmitted k s))
  rw [drainFenced, hfs, hq]
  exact ⟨_, _, _, rfl⟩

end

theorem accDrain_fenced {s : State} {k : Nat} {o : Op} {cl : List (Nat × Nat × Nat)} (h : Admissible s k 0x03 o) (hcores : noCores s (o.part s) = false)
    (hrows : ∀ r, r ∈ o.rowRange → (mapOf (o.drainMaps s) r).isSome = true)
    (hcl : clustersFor s (o.part s) (drainRoots s o (o.drainMaps s)) = some cl)
    (hwrite : ∀ x, x ∈ o.segs s (o.drainMaps s) → noWrite s (o.part s) (o.segAddr x) (x.cnt * o.outBytes) = false) :
    exec (.accDrain k) s = .next (drainFenced k (o.drainMaps s) cl s) := by
  have hmapped : (o.rowRange.any fun r => (mapOf (o.drainMaps s) r).isNone) = false :=
    List.any_eq_false.mpr fun r hr => by rw [← Option.not_isSome, hrows r hr]; exact Bool.false_ne_true
  have hwritable : ((o.segs s (o.drainMaps s)).any fun x => noWrite s (o.part s) (o.segAddr x) (x.cnt * o.outBytes)) = false :=
    List.any_eq_false.mpr fun x hx => by rw [hwrite x hx]; exact Bool.false_ne_true
  refine congrArg Host.Outcome.next ((admitOp_runs h (Or.inl rfl) _).trans ?_)
  simp only [Op.drainMaps] at hmapped hcl hwritable ⊢
  simp only [hcores, hmapped, hcl, hwritable, Bool.false_eq_true, if_false]
  rfl

theorem accDrain_waits (s : State) (k : Nat) (o : Op) (cl : List (Nat × Nat × Nat)) (h : Admissible s k 0x03 o) (hcores : noCores s (o.part s) = false)
    (hrows : ∀ r, r ∈ o.rowRange → (mapOf (o.drainMaps s) r).isSome = true)
    (hcl : clustersFor s (o.part s) (drainRoots s o (o.drainMaps s)) = some cl)
    (hwrite : ∀ x, x ∈ o.segs s (o.drainMaps s) → noWrite s (o.part s) (o.segAddr x) (x.cnt * o.outBytes) = false) :
    Completes (.accDrain k) s (fun t => InStage t k 4 ∧
      (opOf t k).map (fun x => (x.maps, x.clusters, x.admBeat)) = some (o.drainMaps s, cl, some s.tim.beat) ∧
      (∀ c, c ∈ cl → c.2.2 < 4 → (t.field c.2.1).drain.getLsbD c.2.2 = true) ∧ t = { s with ops := t.ops, seq := t.seq, fields := t.fields }) := by
  have hop := opOf_drainFenced s k (o.drainMaps s) cl h.1
  refine ⟨_, accDrain_fenced h hcores hrows hcl hwrite, ⟨_, hop, rfl⟩, by rw [hop]; rfl, fun c hc hlt => ?_, ?_⟩
  · exact raiseDrains_on hc hlt _
  · obtain ⟨ops, q, fs, ht⟩ := drainFenced_frame s k (o.drainMaps s) cl
    rw [ht]

theorem accDrain_unmapped (s : State) (k : Nat) (o : Op) (r : Nat) (h : Admissible s k 0x03 o) (hcores : noCores s (o.part s) = false)
    (hr : r ∈ o.rowRange) (hmap : mapOf (o.drainMaps s) r = none) : exec (.accDrain k) s = .next (retire k true 5 0 s) := by
  have hunmapped : (o.rowRange.any fun r => (mapOf (o.drainMaps s) r).isNone) = true :=
    List.any_eq_true.mpr ⟨r, hr, by rw [hmap]; rfl⟩
  refine congrArg Host.Outcome.next ((admitOp_runs h (Or.inl rfl) _).trans ?_)
  simp only [Op.drainMaps] at hunmapped
  simp only [hcores, hunmapped, Bool.false_eq_true, if_false, if_true]

/-! ### A save without row-map blocks and pass counts -/

theorem noWrite_empty (s : State) (p a : Nat) : noWrite s p a 0 = false := rfl

/-- The state in which a save waits for its tree fence (R115, R117). -/
def saveFenced (k : Nat) (s : State) : State := raiseFence k (modOp k (fun o => { o with maps := [] }) (setAdmitted k s))

theorem accSave_waits (s : State) (k : Nat) (o : Op) (h : Admissible s k 0x04 o) (hblocks : o.dn 40 6 = 0) :
    Completes (.accSave k) s (fun t => InStage t k 4 ∧ (opOf t k).map (fun x => (x.maps, x.admBeat)) = some ([], some s.tim.beat) ∧
      t = { s with ops := t.ops, seq := t.seq }) := by
  have hexec : exec (.accSave k) s = .next (saveFenced k s) := by
    refine congrArg Host.Outcome.next ((admitOp_runs h (Or.inr (Or.inl rfl)) _).trans ?_)
    simp only [hblocks, if_true, List.map_nil, List.sum_nil, noWrite_empty, Bool.false_eq_true, if_false]
    rfl
  have hop : opOf (saveFenced k s) k = some ((({ o.admittedAt s.tim.beat with maps := [] } : Op)).staged 4) :=
    opOf_modOp_some (g := Op.staged 4) (opOf_modOp_some (opOf_setAdmitted h.1) fun _ => rfl) fun _ => rfl
  obtain ⟨q, hq⟩ := setAdmitted_frame k s
  refine ⟨_, hexec, ⟨_, hop, rfl⟩, by rw [hop]; rfl, ?_⟩
  rw [saveFenced, raiseFence, hq]
  rfl

/-- The images of the rows that a save selects, field by field (R115). -/
def Op.savedImages (s : State) (o : Op) : List Byte := ((selected (o.dn 24 4)).map (fun f => (o.rowRange.map (rowImage s f)).flatten)).flatten

/-- Some cell of the rows that a save selects has its P flag set (R115). -/
def Op.savesPoison (s : State) (o : Op) : Bool :=
  (selected (o.dn 24 4)).any (fun f => o.rowRange.any (fun r => (List.range 1024).any (fun j => (s.accCell ((f * 2048 + r) * 1024 + j)).P)))

/-- The op of a save that has written its row-map blocks, with POISON where `b` (R115, R240). -/
def Op.saved (b : Bool) (o : Op) : Op := ({ o with detail := o.maps.length } : Op).flagIf b fPoison

theorem saved_key (b : Bool) (o : Op) : (o.saved b).key = o.key := (flagIf_sameGroups b fPoison _).key

theorem savePass_images {s : State} (o : Op) (he : s.errs = []) (hcounts : o.dn 34 6 = 0) (hblocks : o.dn 40 6 = 0) :
    savePass o s = modOp o.key (Op.saved (o.savesPoison s))
      (wrClean (o.dn 28 6) (o.savedImages s) (hide o.stream (o.dn 28 6) (o.savedImages s).length s)) := by
  have hread : (selected (o.dn 24 4)).foldl (fun s f => o.rowRange.foldl (fun s r => touchRow f r s) s) s = s :=
    foldl_fixed (fun f => foldl_fixed (fun r => touchRow_noErrs he f r) _) _
  simp only [savePass, hread, hcounts, hblocks, if_true]
  rfl

/-! ### The tree fence passes -/

/-- What a drain or save must meet for its tree fence to pass (R117, R306). -/
theorem treeFencePass_eq {s : State} {k : Nat} {o : Op} (h : opOf s k = some o) :
    exec (.treeFencePass k) s = .next (
      if o.stage = 4 ∧ o.abortAt = none ∧ s.flt.deviceError = false ∧ fencePasses s o = true ∧ heldAny s (o.passRanges s) = false then
        modOp k (fun o => { o with stage := 3 }) (if o.code = 0x03 then drainPass o s else savePass o s)
      else s) := by
  show execTreeFencePass k s = _
  simp only [execTreeFencePass, h]

theorem treeFencePass_drains (s : State) (k : Nat) (o : Op) (h : opOf s k = some o) (hstage : o.stage = 4) (habort : o.abortAt = none)
    (herror : s.flt.deviceError = false) (hpass : fencePasses s o = true) (hheld : heldAny s (o.passRanges s) = false) (hcode : o.code = 0x03) :
    exec (.treeFencePass k) s = .next (modOp k (fun o => { o with stage := 3 }) (drainPass o s)) ∧ (drainPass o s).rowMaps = s.rowMaps := by
  rw [treeFencePass_eq h, if_pos ⟨hstage, habort, herror, hpass, hheld⟩, if_pos hcode]
  exact ⟨rfl, drainPass_rowMaps o s⟩

theorem treeFencePass_saves (s : State) (k i : Nat) (o : Op) (h : opOf s k = some o) (hstage : o.stage = 4) (habort : o.abortAt = none)
    (herror : s.flt.deviceError = false) (hpass : fencePasses s o = true) (hheld : heldAny s (o.passRanges s) = false) (hcode : o.code = 0x04)
    (he : s.errs = []) (hcounts : o.dn 34 6 = 0) (hblocks : o.dn 40 6 = 0) (hi : i < (o.savedImages s).length)
    (hstore : ∀ j, j ≤ i → noStore s (o.dn 28 6 + j) = false) :
    Completes (.treeFencePass k) s (fun t => InStage t k 3 ∧ t.acc = s.acc ∧ Memory.read t.mem (o.dn 28 6 + i) = (o.savedImages s).getD i 0) := by
  obtain ⟨q, hq⟩ := hide_frame o.stream (o.dn 28 6) (o.savedImages s).length s
  obtain ⟨p, e, hwrite⟩ := wrBytes_noErrs (s := { s with seq := q }) he (o.dn 28 6) (o.savedImages s) (fun _ => false)
  have hsave := savePass_images o he hcounts hblocks
  rw [opOf_key h, hq, wrClean, hwrite] at hsave
  have hcode' : o.code ≠ 0x03 := hcode ▸ by decide
  rw [Completes, treeFencePass_eq h, if_pos ⟨hstage, habort, herror, hpass, hheld⟩, if_neg hcode', hsave]
  refine ⟨_, rfl, inStage_modOp (g := Op.staged 3) (opOf_modOp_some h (saved_key _)) (fun _ => rfl) rfl, rfl, ?_⟩
  refine read_putBytesAt_in { s with seq := q } _ _ _ hi ((noStore_congr ?_ ?_ ?_ _).trans (hstore i (Nat.le_refl i))) <;> rfl

theorem treeFencePass_waits (s : State) (k : Nat) (o : Op) (h : opOf s k = some o)
    (hwait : o.stage ≠ 4 ∨ fencePasses s o = false ∨ heldAny s (o.passRanges s) = true) : exec (.treeFencePass k) s = .next s := by
  rw [treeFencePass_eq h, if_neg]
  rintro ⟨hstage, -, -, hpass, hheld⟩
  rcases hwait with hwait | hwait | hwait
  · exact hwait hstage
  · exact Bool.false_ne_true (hwait.symm.trans hpass)
  · exact Bool.false_ne_true (hheld.symm.trans hwait)

/-- Settles O29: the admissions by the branch that each clause names, the passing of the fence by what `drainPass` and `savePass` leave and write. -/
theorem drainAndSaveWaitForTheirTreeFence : Obligations.DrainAndSaveWaitForTheirTreeFence :=
  ⟨accDrain_waits, accDrain_unmapped, accSave_waits, treeFencePass_drains, treeFencePass_saves, treeFencePass_waits⟩

end Sys2Proof.Machine
end

section
/-! Row images and their restore: what bytes an image holds, and what a restored row takes from memory (R115, R116, R240, R306). -/

namespace Sys2Proof.Machine

open Sys2Proof State

/-! ### Bytes and their numbers -/

theorem length_leBytes (n v : Nat) : (leBytes n v).length = n := by
  induction n generalizing v with
  | zero => rfl
  | succ n ih => exact congrArg Nat.succ (ih (v / 256))

theorem leNat_leBytes (n v : Nat) : leNat (leBytes n v) = v % 256 ^ n := by
  induction n generalizing v with
  | zero => exact (Nat.mod_one v).symm
  | succ n ih => rw [leBytes, leNat, ih, Nat.pow_succ', Nat.mod_mul, BitVec.toNat_ofNat]

theorem image_lt (v : Int) : image 32 v < 2 ^ 32 := by
  unfold image
  omega

/-- A 32-bit value is the one that its image stands for (R11). -/
theorem signed_image {v : Int} (hlow : -(2 ^ 31) ≤ v) (hhigh : v < 2 ^ 31) : signed 32 (image 32 v) = v := by
  simp only [signed, Nat.mod_eq_of_lt (image_lt v)]
  unfold image
  split <;> omega

theorem length_flatten_chunks {α : Type} {g : Nat → List α} {w : Nat} (hw : ∀ j, (g j).length = w) (n : Nat) :
    ((List.range n).map g).flatten.length = w * n := by
  induction n with
  | zero => rfl
  | succ n ih =>
    rw [List.range_succ, List.map_append, List.flatten_append, List.map_singleton, List.flatten_singleton, List.length_append, ih, hw, Nat.mul_succ]

/-- A chunk of equal ones laid side by side. -/
theorem take_drop_chunks {α : Type} {g : Nat → List α} {w n j : Nat} (hw : ∀ j, (g j).length = w) (hj : j < n) :
    (((List.range n).map g).flatten.drop (w * j)).take w = g j := by
  induction n with
  | zero => exact absurd hj (Nat.not_lt_zero j)
  | succ n ih =>
    have hlen := length_flatten_chunks hw n
    rw [List.range_succ, List.map_append, List.flatten_append, List.map_singleton, List.flatten_singleton]
    rcases Nat.lt_succ_iff_lt_or_eq.mp hj with hlt | rfl
    · have hfit : w * j + w ≤ w * n := Nat.mul_le_mul_left w hlt
      rw [List.drop_append_of_le_length (by omega), List.take_append_of_le_length (by rw [List.length_drop]; omega), ih hlt]
    · rw [← hlen, List.drop_left, List.take_of_length_le (Nat.le_of_eq (hw j))]

/-! ### The image of a row -/

/-- Cell `j` of accumulator row `row` of field `f` (R110). -/
def rowCell (s : State) (f row j : Nat) : AccCell := s.accCell ((f * 2048 + row) * 1024 + j)

/-- The values of a row, and the flags of its cells, as its image lays them out (R115). -/
def valueBytes (s : State) (f row : Nat) : List Byte := ((List.range 1024).map (fun j => leBytes 4 (image 32 (rowCell s f row j).val))).flatten
def flagBytes (s : State) (f row : Nat) : List Byte :=
  (List.range 512).map (fun i => BitVec.ofNat 8 (flagBits (rowCell s f row (2 * i)) + 16 * flagBits (rowCell s f row (2 * i + 1))))

theorem rowImage_eq (s : State) (f row : Nat) : rowImage s f row = valueBytes s f row ++ flagBytes s f row := rfl

theorem length_valueBytes (s : State) (f row : Nat) : (valueBytes s f row).length = 4096 := length_flatten_chunks (fun _ => length_leBytes 4 _) 1024

theorem length_rowImage (s : State) (f row : Nat) : (rowImage s f row).length = 4608 := by
  rw [rowImage_eq, List.length_append, length_valueBytes, flagBytes, List.length_map, List.length_range]

theorem rowImage_value (s : State) (f row : Nat) {j : Nat} (hj : j < 1024) :
    bytesAt (rowImage s f row) (4 * j) 4 = image 32 (rowCell s f row j).val := by
  have hlen := length_valueBytes s f row
  rw [bytesAt, rowImage_eq, List.drop_append_of_le_length (by omega), List.take_append_of_le_length (by rw [List.length_drop]; omega), valueBytes,
    take_drop_chunks (fun _ => length_leBytes 4 _) hj, leNat_leBytes]
  exact Nat.mod_eq_of_lt (image_lt _)

theorem flagBits_lt (v : AccCell) : flagBits v < 8 := by
  unfold flagBits b01
  split <;> split <;> split <;> decide

/-- Each half of a flag byte holds the flags of its cell. -/
theorem bits_nibble {a b : Nat} (ha : a < 8) (hb : b < 8) (j : Nat) :
    bits (BitVec.ofNat 8 (a + 16 * b)).toNat (4 * (j % 2)) 3 = if j % 2 = 0 then a else b := by
  rw [BitVec.toNat_ofNat, Nat.mod_eq_of_lt (by omega), bits]
  rcases Nat.mod_two_eq_zero_or_one j with h | h
  · rw [h, if_pos rfl]
    omega
  · rw [h, if_neg Nat.one_ne_zero]
    omega

theorem rowImage_flags (s : State) (f row : Nat) {j : Nat} (hj : j < 1024) :
    bits ((rowImage s f row).getD (4096 + j / 2) 0).toNat (4 * (j % 2)) 3 = flagBits (rowCell s f row j) := by
  have hbyte : (flagBytes s f row).getD (j / 2) 0 =
      BitVec.ofNat 8 (flagBits (rowCell s f row (2 * (j / 2))) + 16 * flagBits (rowCell s f row (2 * (j / 2) + 1))) := by
    have hhalf : j / 2 < 512 := by omega
    rw [flagBytes, List.getD_eq_getElem?_getD, List.getElem?_map, List.getElem?_range hhalf]
    rfl
  rw [rowImage_eq, List.getD_eq_getElem?_getD, List.getElem?_append_right (by rw [length_valueBytes]; omega), length_valueBytes,
    Nat.add_sub_cancel_left, ← List.getD_eq_getElem?_getD, hbyte, bits_nibble (flagBits_lt _) (flagBits_lt _)]
  split
  · rw [show 2 * (j / 2) = j by omega]
  · rw [show 2 * (j / 2) + 1 = j by omega]

/-! ### Reads past the accumulator -/

section
variable {s t : State} (hnet : t.net = s.net) (htop : t.memTop = s.memTop) (hmem : t.mem = s.mem) (hentry : t.manifest = s.manifest)
include hnet htop hmem hentry

/-- A byte outside the accumulator windows is a matter of memory and of the manifest. -/
theorem rdByte_congr {a : Nat} (ha : ∀ f, locOf s a ≠ .accv f) : rdByte t a = rdByte s a := by
  unfold rdByte State.entry
  rw [locOf_congr hnet htop, hmem, hentry]
  split
  next f hf => exact absurd hf (ha f)
  next => rfl
  next => rfl

theorem rdNat_congr {a n : Nat} (ha : ∀ b f, b < n → locOf s (a + b) ≠ .accv f) : rdNat t a n = rdNat s a n := by
  unfold rdNat rdBytes
  exact congrArg leNat (List.map_congr_left fun b hb => rdByte_congr hnet htop hmem hentry fun f => ha b f (List.mem_range.mp hb))

end

/-! ### One restored row -/

/-- `t` is `s` but for the accumulator and for what the sequencer counts and hides. -/
def RowsOnly (s t : State) : Prop := ∃ acc q, t = { s with acc := acc, seq := q }

theorem RowsOnly.trans {s t u : State} (h : RowsOnly s t) (h' : RowsOnly t u) : RowsOnly s u := by
  obtain ⟨acc, q, rfl⟩ := h
  obtain ⟨acc, q, rfl⟩ := h'
  exact ⟨acc, q, rfl⟩

section
variable {s t : State} (h : RowsOnly s t)
include h

theorem RowsOnly.errs : t.errs = s.errs := by obtain ⟨acc, q, rfl⟩ := h; rfl
theorem RowsOnly.ops : t.ops = s.ops := by obtain ⟨acc, q, rfl⟩ := h; rfl
theorem RowsOnly.rowMaps : t.rowMaps = s.rowMaps := by obtain ⟨acc, q, rfl⟩ := h; rfl
theorem RowsOnly.mem : t.mem = s.mem := by obtain ⟨acc, q, rfl⟩ := h; rfl

theorem RowsOnly.rdNat {a n : Nat} (ha : ∀ b f, b < n → locOf s (a + b) ≠ .accv f) : rdNat t a n = rdNat s a n := by
  obtain ⟨acc, q, rfl⟩ := h
  refine rdNat_congr ?_ ?_ ?_ ?_ ha <;> rfl

end

/-- Cells `base` to `base + n − 1` take the values `cell`. -/
def setCells (base n : Nat) (cell : Nat → AccCell) (s : State) : State :=
  ((List.range n).map (fun j => (base + j, cell j))).foldl (fun (s : State) x => s.setAccCell x.1 x.2) s

theorem setCells_succ (base n : Nat) (cell : Nat → AccCell) (s : State) :
    setCells base (n + 1) cell s = (setCells base n cell s).setAccCell (base + n) (cell n) := by
  simp only [setCells, List.range_succ, List.map_append, List.foldl_append, List.map_cons, List.map_nil, List.foldl_cons, List.foldl_nil]

theorem setCells_frame (base n : Nat) (cell : Nat → AccCell) (s : State) : ∃ acc, setCells base n cell s = { s with acc := acc } := by
  induction n with
  | zero => exact ⟨_, rfl⟩
  | succ n ih =>
    obtain ⟨acc, hacc⟩ := ih
    rw [setCells_succ, hacc]
    exact ⟨_, rfl⟩

theorem accCell_setCells (base n : Nat) (cell : Nat → AccCell) (s : State) (k : Nat) :
    (setCells base n cell s).accCell k = if base ≤ k ∧ k < base + n then cell (k - base) else s.accCell k := by
  induction n with
  | zero => exact (if_neg (by omega)).symm
  | succ n ih =>
    rw [setCells_succ, accCell_setAccCell, ih]
    by_cases hk : k = base + n
    · rw [if_pos hk, if_pos (by omega), hk, Nat.add_sub_cancel_left]
    · have hrange : (base ≤ k ∧ k < base + n) ↔ (base ≤ k ∧ k < base + (n + 1)) := by omega
      simp only [if_neg hk, hrange]

/-- Cell `j` of row `i` of selected field `k`, as the image in memory gives it; the restore takes `n` rows of each field (R115, R116). -/
def restoredCell (o : Op) (n k i : Nat) (s : State) (j : Nat) : AccCell :=
  let a := o.dn 28 6 + (k * n + i) * 4608
  let fb := bits (rdByte s (a + 4096 + j / 2)).toNat (4 * (j % 2)) 3
  { val := signed 32 (rdNat s (a + 4 * j) 4), T := bit fb 0, O := bit fb 1
    P := bit fb 2 || anyBad s (a + 4 * j) 4 || anyBad s (a + 4096 + j / 2) 1 }

theorem accCell_countPass (root row n : Nat) (init : Bool) (s : State) (c : Nat) : (countPass root row n init s).accCell c = s.accCell c := rfl

section
variable {s : State} (he : s.errs = []) (o : Op) (n k f i : Nat)
include he

theorem restoreRow_eq : ∃ cnt q, restoreRow o n k f i s = countPass f (o.dn 22 2 + i) cnt true
    (setCells ((f * 2048 + (o.dn 22 2 + i)) * 1024) 1024 (restoredCell o n k i s) { s with seq := q }) := by
  obtain ⟨q, hq⟩ := hide_frame o.stream (accAddr f (o.dn 22 2 + i)) 4096 s
  refine ⟨if o.dn 34 6 = 0 then 65535 else rdNat s (o.dn 34 6 + 2 * (k * n + i)) 2, q, ?_⟩
  rw [← hq]
  simp only [restoreRow, touch_noErrs he, touchRow_noErrs he]
  rfl

theorem restoreRow_rowsOnly : RowsOnly s (restoreRow o n k f i s) := by
  obtain ⟨cnt, q, h⟩ := restoreRow_eq he o n k f i
  obtain ⟨acc, hacc⟩ := setCells_frame ((f * 2048 + (o.dn 22 2 + i)) * 1024) 1024 (restoredCell o n k i s) { s with seq := q }
  rw [h, hacc]
  exact ⟨_, _, rfl⟩

theorem accCell_restoreRow (c : Nat) : (restoreRow o n k f i s).accCell c =
    if c / 1024 = f * 2048 + (o.dn 22 2 + i) then restoredCell o n k i s (c % 1024) else s.accCell c := by
  obtain ⟨cnt, q, h⟩ := restoreRow_eq he o n k f i
  rw [h, accCell_countPass, accCell_setCells]
  by_cases hc : c / 1024 = f * 2048 + (o.dn 22 2 + i)
  · rw [if_pos hc, if_pos (by omega)]
    rw [show c - (f * 2048 + (o.dn 22 2 + i)) * 1024 = c % 1024 by omega]
  · rw [if_neg hc, if_neg (by omega)]
    rfl

end

/-! ### All restored rows -/

theorem getElem?_eq_getD {l : List Nat} {i : Nat} (h : i < l.length) : l[i]? = some (l.getD i 0) := by
  rw [List.getD_eq_getElem?_getD, List.getElem?_eq_getElem h, Option.getD_some]

/-- Two places of a list without repetition hold two numbers. -/
theorem getD_ne_getD {l : List Nat} (hl : l.Nodup) {i k : Nat} (hi : i < l.length) (hk : k < l.length) (hne : k ≠ i) : l.getD i 0 ≠ l.getD k 0 :=
  fun heq => hne ((List.getElem?_inj hi hl).mp (by rw [getElem?_eq_getD hi, getElem?_eq_getD hk, heq])).symm

/-- The restore of the `n` rows of field `f`, the `k`-th selected one. -/
def restoreField (o : Op) (n k f : Nat) (s : State) : State := (List.range n).foldl (fun s i => restoreRow o n k f i s) s

/-- The restore of the `n` rows of each of the fields `fs`. -/
def restoreFields (o : Op) (n : Nat) (fs : List Nat) (s : State) : State :=
  (List.range fs.length).foldl (fun s k => restoreField o n k (fs.getD k 0) s) s

section
variable {s : State} (he : s.errs = []) (o : Op) (n : Nat)
include he

theorem RowsOnly.restoreRow (k f i : Nat) {t : State} (h : RowsOnly s t) : RowsOnly s (restoreRow o n k f i t) :=
  h.trans (restoreRow_rowsOnly (h.errs.trans he) o n k f i)

theorem RowsOnly.restoreField (k f : Nat) {t : State} (h : RowsOnly s t) : RowsOnly s (restoreField o n k f t) :=
  foldl_inv (RowsOnly s) _ (fun _ i ht => ht.restoreRow he o n k f i) _ t h

theorem restoreFields_rowsOnly (fs : List Nat) : RowsOnly s (restoreFields o n fs s) :=
  foldl_inv (RowsOnly s) _ (fun _ k ht => ht.restoreField he o n k _) _ s ⟨_, _, rfl⟩

variable {o n}

/-- Another field's cells stay. -/
theorem accCell_restoreField_ne {k f c : Nat} (hrows : o.dn 22 2 + n ≤ 2048) (hc : c / 1024 / 2048 ≠ f) {t : State} (h : RowsOnly s t) :
    (restoreField o n k f t).accCell c = t.accCell c := by
  refine (List.foldlRecOn (motive := fun u => RowsOnly s u ∧ u.accCell c = t.accCell c) _ _ ⟨h, rfl⟩ fun u hu i hi => ?_).2
  have hi := List.mem_range.mp hi
  refine ⟨hu.1.restoreRow he o n k f i, ?_⟩
  rw [accCell_restoreRow (hu.1.errs.trans he), if_neg (by omega), hu.2]

/-- A cell of a restored row has the value that stood in memory before the restore. -/
theorem val_restoreField {k f r j : Nat} (hr : r < n) (hj : j < 1024)
    (hloc : ∀ b f, b < 4 → locOf s (o.dn 28 6 + (k * n + r) * 4608 + 4 * j + b) ≠ .accv f) {t : State} (h : RowsOnly s t) :
    ((restoreField o n k f t).accCell ((f * 2048 + (o.dn 22 2 + r)) * 1024 + j)).val =
      signed 32 (rdNat s (o.dn 28 6 + (k * n + r) * 4608 + 4 * j) 4) := by
  have hrow : ((f * 2048 + (o.dn 22 2 + r)) * 1024 + j) / 1024 = f * 2048 + (o.dn 22 2 + r) := by omega
  have hcol : ((f * 2048 + (o.dn 22 2 + r)) * 1024 + j) % 1024 = j := by omega
  refine (foldl_reaches_mem (f := fun s i => restoreRow o n k f i s) (I := RowsOnly s)
    (Q := fun u => RowsOnly s u ∧ (u.accCell ((f * 2048 + (o.dn 22 2 + r)) * 1024 + j)).val =
      signed 32 (rdNat s (o.dn 28 6 + (k * n + r) * 4608 + 4 * j) 4))
    (List.mem_range.mpr hr) (fun u i hu => hu.restoreRow he o n k f i) (fun u hu => ⟨hu.restoreRow he o n k f r, ?_⟩)
    (fun u i _ hi hu => ⟨hu.1.restoreRow he o n k f i, ?_⟩) h).2
  · rw [accCell_restoreRow (hu.errs.trans he), if_pos hrow, hcol]
    exact congrArg (signed 32) (hu.rdNat hloc)
  · rw [accCell_restoreRow (hu.1.errs.trans he), hrow, if_neg (by omega), hu.2]

theorem val_restoreFields (hrows : o.dn 22 2 + n ≤ 2048) {fs : List Nat} (hfs : fs.Nodup) {i r j : Nat} (hi : i < fs.length) (hr : r < n) (hj : j < 1024)
    (hloc : ∀ b f, b < 4 → locOf s (o.dn 28 6 + (i * n + r) * 4608 + 4 * j + b) ≠ .accv f) :
    ((restoreFields o n fs s).accCell ((fs.getD i 0 * 2048 + (o.dn 22 2 + r)) * 1024 + j)).val =
      signed 32 (rdNat s (o.dn 28 6 + (i * n + r) * 4608 + 4 * j) 4) := by
  refine (foldl_reaches_mem (f := fun s k => restoreField o n k (fs.getD k 0) s) (I := RowsOnly s)
    (Q := fun u => RowsOnly s u ∧ (u.accCell ((fs.getD i 0 * 2048 + (o.dn 22 2 + r)) * 1024 + j)).val =
      signed 32 (rdNat s (o.dn 28 6 + (i * n + r) * 4608 + 4 * j) 4))
    (List.mem_range.mpr hi) (fun u k hu => hu.restoreField he o n k _)
    (fun u hu => ⟨hu.restoreField he o n i _, val_restoreField he hr hj hloc hu⟩)
    (fun u k hk hne hu => ⟨hu.1.restoreField he o n k _, ?_⟩) ⟨_, _, rfl⟩).2
  have hfield := getD_ne_getD hfs hi (List.mem_range.mp hk) hne
  rw [accCell_restoreField_ne he hrows (by omega) hu.1, hu.2]

end

theorem selected_nodup (mask : Nat) : (selected mask).Nodup := List.Pairwise.filter _ List.nodup_range

/-! ### The admission of a restore -/

/-- The state in which a restore without blocks reads its rows: admitted, the row maps of its rows gone (R240). -/
def restoreAdmitted (k : Nat) (o : Op) (s : State) : State :=
  setAdmitted k { dropMaps (o.part s) (o.dn 22 2) (o.dn 20 2) s with free := (dropMaps (o.part s) (o.dn 22 2) (o.dn 20 2) s).free + 1 }

/-- The op of a restore that has taken its rows, with POISON where `b` (R115, R511). -/
def Op.restored (b : Bool) (o : Op) : Op := ({ o with stage := 3 } : Op).flagIf b fPoison

theorem restored_key (b : Bool) (o : Op) : (o.restored b).key = o.key := (flagIf_sameGroups b fPoison _).key

theorem restored_stage (b : Bool) (o : Op) : (o.restored b).stage = 3 := by
  unfold Op.restored Op.flagIf
  split <;> rfl

theorem restoreAdmitted_frame (k : Nat) (o : Op) (s : State) : ∃ ops q, restoreAdmitted k o s =
    { s with ops := ops, seq := q, rowMaps := (dropMaps (o.part s) (o.dn 22 2) (o.dn 20 2) s).rowMaps, free := s.free + 1 } := by
  obtain ⟨q, hq⟩ := setAdmitted_frame k { dropMaps (o.part s) (o.dn 22 2) (o.dn 20 2) s with free := s.free + 1 }
  exact ⟨_, _, hq⟩

/-- Some word that the restore takes its cells or counts from is poisoned (R511). -/
def Op.restoresPoison (s : State) (o : Op) : Bool :=
  anyBad s (o.dn 28 6) ((selected (o.dn 24 4)).length * o.dn 20 2 * 4608) ||
    (o.dn 34 6 != 0 && anyBad s (o.dn 34 6) (2 * o.dn 20 2 * (selected (o.dn 24 4)).length))

theorem accRestore_eq {s : State} {k : Nat} {o : Op} (h : Admissible s k 0x05 o) (hblocks : o.dn 46 2 = 0) (he : s.errs = [])
    (hheld : heldAny s (o.restoreRanges s) = false)
    (hmaps : ((dropMaps (o.part s) (o.dn 22 2) (o.dn 20 2) s).rowMaps.filter (fun m => m.part == o.part s)).length ≤ 64) :
    exec (.accRestore k) s = .next (modOp k (Op.restored (o.restoresPoison (restoreAdmitted k o s)))
      (restoreFields o (o.dn 20 2) (selected (o.dn 24 4)) (restoreAdmitted k o s))) := by
  obtain ⟨ops, q, hframe⟩ := restoreAdmitted_frame k o s
  have hread : ∀ a n, touch a n (restoreAdmitted k o s) = restoreAdmitted k o s := fun a n => touch_noErrs (by rw [hframe]; exact he) a n
  refine congrArg Host.Outcome.next ((admitOp_runs h (Or.inr (Or.inr rfl)) _).trans ?_)
  simp only [restoreAdmitted] at hread ⊢
  simp only [hheld, hblocks, touchBlocks, readBlocks, List.foldl_nil, Nat.not_lt.mpr hmaps, Bool.false_eq_true, if_false, hread, ite_self]
  rfl

theorem accRestore_takes (s : State) (k : Nat) (o : Op) (h : Admissible s k 0x05 o) (hblocks : o.dn 46 2 = 0) (he : s.errs = [])
    (hheld : heldAny s (o.restoreRanges s) = false)
    (hmaps : ((dropMaps (o.part s) (o.dn 22 2) (o.dn 20 2) s).rowMaps.filter (fun m => m.part == o.part s)).length ≤ 64)
    (hrows : o.dn 22 2 + o.dn 20 2 ≤ 2048) :
    Completes (.accRestore k) s (fun t => InStage t k 3 ∧ t.rowMaps = (dropMaps (o.part s) (o.dn 22 2) (o.dn 20 2) s).rowMaps ∧ t.mem = s.mem ∧
      ∀ i r j, i < (selected (o.dn 24 4)).length → r < o.dn 20 2 → j < 1024 →
        (∀ b f, b < 4 → locOf s (o.dn 28 6 + (i * o.dn 20 2 + r) * 4608 + 4 * j + b) ≠ .accv f) →
        (t.accCell (((selected (o.dn 24 4)).getD i 0 * 2048 + (o.dn 22 2 + r)) * 1024 + j)).val =
          signed 32 (rdNat s (o.dn 28 6 + (i * o.dn 20 2 + r) * 4608 + 4 * j) 4)) := by
  obtain ⟨ops, q, hadmitted⟩ := restoreAdmitted_frame k o s
  obtain ⟨u, hu⟩ : ∃ u, u = restoreAdmitted k o s := ⟨_, rfl⟩
  have hop : opOf u k = some (o.admittedAt s.tim.beat) := hu ▸ opOf_setAdmitted h.1
  rw [Completes, accRestore_eq h hblocks he hheld hmaps, ← hu]
  rw [← hu] at hadmitted
  have heu : u.errs = [] := by rw [hadmitted]; exact he
  have hrest := restoreFields_rowsOnly heu o (o.dn 20 2) (selected (o.dn 24 4))
  refine ⟨_, rfl, inStage_modOp ((opOf_congr hrest.ops k).trans hop) (restored_key _) (restored_stage _ _), ?_, ?_, fun i r j hi hr hj hloc => ?_⟩
  · rw [modOp_rowMaps, hrest.rowMaps, hadmitted]
  · rw [modOp_mem, hrest.mem, hadmitted]
  · have hplace : ∀ a, locOf u a = locOf s a := locOf_congr (by rw [hadmitted]) (by rw [hadmitted])
    rw [accCell_congr _ _ (modOp_acc _ _ _), val_restoreFields heu hrows (selected_nodup _) hi hr hj fun b f hb => by rw [hplace]; exact hloc b f hb]
    refine congrArg (signed 32) (rdNat_congr ?_ ?_ ?_ ?_ hloc) <;> rw [hadmitted]

theorem accRestore_waits (s : State) (k : Nat) (o : Op) (h : Admissible s k 0x05 o) (hheld : heldAny s (o.restoreRanges s) = true) :
    exec (.accRestore k) s = .next s := by
  refine congrArg Host.Outcome.next ((admitOp_runs h (Or.inr (Or.inr rfl)) _).trans ?_)
  exact if_pos hheld

/-- Settles O30: the image by its bytes, the restore by the rows that it takes one after another, the wait by the first check of the admission. -/
theorem accRestoreTakesTheImage : Obligations.AccRestoreTakesTheImage := by
  refine ⟨fun s f row j hj hlow hhigh => ⟨length_rowImage s f row, ?_, rowImage_flags s f row hj⟩, accRestore_takes, accRestore_waits⟩
  rw [rowImage_value s f row hj]
  exact signed_image hlow hhigh

end Sys2Proof.Machine
end

section
/-! What reset leaves. -/

namespace Sys2Proof.Machine

open Sys2Proof State

/-- Settles O3: the reset state gives each value, and its tables list nothing. -/
theorem resetLeavesTheManualsValues : Obligations.ResetLeavesTheManualsValues :=
  ⟨rfl, rfl, rfl, rfl, rfl, rfl, rfl, rfl, rfl, rfl, rfl, rfl, rfl, rfl, rfl, rfl, rfl, rfl, rfl, rfl, rfl, rfl, rfl,
    fun _ => rfl, fun _ => rfl, fun _ => rfl, fun _ => ⟨rfl, rfl⟩⟩

end Sys2Proof.Machine
end

section
/-! Monitor converters: what a result, a trigger and a write of a register leave of a state, and the slots of R121 to R137. -/

namespace Sys2Proof.Machine

open Sys2Proof State

/-! ### One converter of the table -/

theorem tdel_tdel {α : Type} (t : Tab α) (k : Nat) : tdel (tdel t k) k = tdel t k := by
  simp [tdel]

theorem tdel_tins {α : Type} (t : Tab α) (k : Nat) (v : α) : tdel (tins k v t) k = tdel t k := by
  induction t with
  | nil => simp [tins, tdel]
  | cons e l ih =>
    obtain ⟨a, w⟩ := e
    rw [tins]
    split
    · simp [tdel]
    · unfold tdel at ih ⊢
      rw [List.filter_cons, List.filter_cons, ih]

/-- Of two writes of a key the later one stands. -/
theorem tset_tset {α : Type} [DecidableEq α] (d : α) (t : Tab α) (k : Nat) (v w : α) : tset d (tset d t k v) k w = tset d t k w := by
  have hdel : tdel (tset d t k v) k = tdel t k := by
    unfold tset
    split
    · exact tdel_tdel t k
    · rw [tdel_tins, tdel_tdel]
  change (if w = d then tdel (tset d t k v) k else tins k w (tdel (tset d t k v) k)) = _
  rw [hdel]
  rfl

theorem setMon_setMon (s : State) (k : Nat) (m n : Mon) : (s.setMon k m).setMon k n = s.setMon k n := by
  simp only [setMon, tset_tset]

/-! ### What a result leaves of the converters -/

/-- `t` has the converters, their results and the time of `s`. -/
structure SameMonitors (s t : State) : Prop where
  mons : t.mons = s.mons
  monLasts : t.monLasts = s.monLasts
  tim : t.tim = s.tim

section
variable {s t u : State}

theorem SameMonitors.refl (s : State) : SameMonitors s s := ⟨rfl, rfl, rfl⟩

theorem SameMonitors.trans (h : SameMonitors s t) (h' : SameMonitors t u) : SameMonitors s u :=
  ⟨h'.mons.trans h.mons, h'.monLasts.trans h.monLasts, h'.tim.trans h.tim⟩

/-- `trans` with the later step first: the goal names that one, and so gives the state between. -/
theorem SameMonitors.after (h' : SameMonitors t u) (h : SameMonitors s t) : SameMonitors s u := h.trans h'

theorem SameMonitors.foldl {α : Type} {f : State → α → State} (h : ∀ s a, SameMonitors s (f s a)) (l : List α) (s : State) :
    SameMonitors s (l.foldl f s) := foldl_inv (SameMonitors s) f (fun t a ht => ht.trans (h t a)) l s (.refl s)

theorem SameMonitors.ite {c : Prop} [Decidable c] (h : SameMonitors s t) (h' : SameMonitors s u) : SameMonitors s (if c then t else u) := by
  split
  · exact h
  · exact h'

end

theorem post_sameMonitors (code : Nat) (items : List Byte) (s : State) : SameMonitors s (post code items s) :=
  ⟨post_mons _ _ _, post_monLasts _ _ _, post_tim _ _ _⟩

theorem countCe_sameMonitors (u : Nat) (s : State) : SameMonitors s (countCe u s) := .ite ⟨rfl, rfl, rfl⟩ (.refl s)

theorem countUe_sameMonitors (u a : Nat) (s : State) : SameMonitors s (countUe u a s) :=
  .ite (.ite ((post_sameMonitors _ _ _).after ⟨rfl, rfl, rfl⟩) ⟨rfl, rfl, rfl⟩) ((post_sameMonitors _ _ _).after ⟨rfl, rfl, rfl⟩)

theorem touchAcc_sameMonitors (s : State) (w : Nat) (e : BitVec 80) : SameMonitors s (touchAcc s w e) := by
  have hcells (a b : Nat) (f g : AccCell → AccCell) : SameMonitors s (((s.modAccCell a f).modAccCell b g).setErr w 0) := ⟨rfl, rfl, rfl⟩
  unfold touchAcc
  dsimp only
  exact .ite ((countUe_sameMonitors _ _ _).after (hcells _ _ _ _)) (hcells _ _ _ _)

theorem touchPlain_sameMonitors (s : State) (w : Nat) (e : BitVec 80) : SameMonitors s (touchPlain s w e) := by
  have hword (d : BitVec 64) (p : Bool) : SameMonitors s (((putWord s w d).setErr w 0).setPoisoned w p) := ⟨rfl, rfl, rfl⟩
  unfold touchPlain
  dsimp only
  split
  · exact .ite (hword _ _) ((countCe_sameMonitors _ _).after (hword _ _))
  · exact (countUe_sameMonitors _ _ _).after (hword _ _)

theorem touchWord_sameMonitors (s : State) (w : Nat) (e : BitVec 80) : SameMonitors s (touchWord s w e) := by
  unfold touchWord
  split
  · exact touchAcc_sameMonitors _ _ _
  · exact touchPlain_sameMonitors _ _ _

theorem touch_sameMonitors (a n : Nat) (s : State) : SameMonitors s (touch a n s) := .foldl (fun _ _ => touchWord_sameMonitors _ _ _) _ _

theorem putBytesAt_sameMonitors (s : State) (a : Nat) (l : List Byte) : SameMonitors s (putBytesAt s a l) := by
  rw [putBytesAt_frame]
  exact ⟨rfl, rfl, rfl⟩

theorem putPoison_sameMonitors (s : State) (w : Nat) (full bad : Bool) : SameMonitors s (putPoison s w full bad) := by
  rw [putPoison_frame]
  exact ⟨rfl, rfl, rfl⟩

theorem wrBytes_sameMonitors (a : Nat) (l : List Byte) (bad : Nat → Bool) (s : State) : SameMonitors s (wrBytes a l bad s) :=
  ((SameMonitors.foldl (fun _ _ => touch_sameMonitors _ _ _) _ s).trans (putBytesAt_sameMonitors _ a l)).trans
    (.foldl (fun _ _ => putPoison_sameMonitors _ _ _ _) _ _)

theorem wrShown_sameMonitors (a : Nat) (l : List Byte) (s : State) : SameMonitors s (wrShown a l s) :=
  (wrBytes_sameMonitors a l _ s).trans ⟨rfl, rfl, rfl⟩

/-- A result that goes to the ring changes the ring, memory and what posts an event (R133). -/
theorem toRing_sameMonitors (bytes : List Byte) (s : State) : SameMonitors s (toRing bytes s) :=
  .ite (.refl s) (.ite (.ite ⟨rfl, rfl, rfl⟩ ((post_sameMonitors _ _ _).after ⟨rfl, rfl, rfl⟩)) (.trans (wrShown_sameMonitors _ _ _) ⟨rfl, rfl, rfl⟩))

/-- The entry of an input after a result of converted value `x` in beat `b` (R123, R130, R131); `low` and `high` say at which current it was taken. -/
def MonLast.take (b : Nat) (x : Int) (inj low high : Bool) (l : MonLast) : MonLast :=
  { result := saturate x, valid := true, ovr := overRange x, inj := inj, samples := addSample b (saturate x) l.samples
    low := if low then some (b, saturate x) else l.low, high := if high then some (b, saturate x) else l.high }

section
variable (k i : Nat) (v : Int) (inj ihi : Bool) (first : Nat) (s : State)

/-- A result leaves all converters, and of the results all but the one of its input. -/
theorem deliver_sameMonitors :
    SameMonitors (s.modMonLast (32 * k + i) (MonLast.take s.tim.beat (if monWired k i then v else 0) inj (diodeInput k i && !ihi) (diodeInput k i && ihi)))
      (deliver k i v inj ihi first s) :=
  .ite (toRing_sameMonitors _ _) (.refl _)

theorem deliver_mon (j : Nat) : (deliver k i v inj ihi first s).mon j = s.mon j :=
  mon_congr _ _ (deliver_sameMonitors k i v inj ihi first s).mons j

theorem deliver_tim : (deliver k i v inj ihi first s).tim = s.tim := (deliver_sameMonitors k i v inj ihi first s).tim

theorem deliver_monLast (j : Nat) : (deliver k i v inj ihi first s).monLast j = if j = 32 * k + i then
      (s.monLast (32 * k + i)).take s.tim.beat (if monWired k i then v else 0) inj (diodeInput k i && !ihi) (diodeInput k i && ihi)
    else s.monLast j := by
  rw [monLast_congr _ _ (deliver_sameMonitors k i v inj ihi first s).monLasts, monLast_modMonLast]

end

/-! ### Slots of the injected and of the regular sequence -/

section
variable {s : State} {k : Nat} {v : Int}

/-- The end of an injected slot before the sequence's last: its result, and the next slot from this beat (R128). -/
theorem endInjSlot_next (hself : (s.mon k).selfTest = false) (hlt : (s.mon k).injSlot < (s.mon k).aInjLen) :
    endInjSlot k v s = (deliver k (bits (s.mon k).aInj.toNat (5 * (s.mon k).injSlot) 5) v true false (s.mon k).injBeat s).setMon k
      { s.mon k with injBeat := s.tim.beat, injSlot := (s.mon k).injSlot + 1 } := by
  simp only [endInjSlot, hself, Bool.false_eq_true, if_false, Nat.succ_lt_succ hlt, if_true, Bool.not_false, Bool.true_or, Bool.and_true,
    modMon_eq, setMon_setMon, mon_setMon, deliver_mon, deliver_tim]

/-- The end of the last injected slot: a pending trigger starts the sequence once more in this beat, else the run ends (R129). -/
theorem endInjSlot_last (hself : (s.mon k).selfTest = false) (hlast : (s.mon k).injSlot = (s.mon k).aInjLen) :
    endInjSlot k v s = (deliver k (bits (s.mon k).aInj.toNat (5 * (s.mon k).injSlot) 5) v true false (s.mon k).injBeat s).setMon k
      (if (s.mon k).injPend then { s.mon k with injBeat := s.tim.beat, injSlot := 0, injPend := false }
        else { s.mon k with injBeat := s.tim.beat, injRun := false, injSlot := 0 }) := by
  simp only [endInjSlot, hself, hlast, Bool.false_eq_true, if_false, Nat.lt_irrefl, Bool.not_false, Bool.true_or, Bool.and_true,
    modMon_eq, setMon_setMon, mon_setMon, deliver_mon, deliver_tim, if_true]

/-- The end of a regular slot in a frame that is not the last of its window (R124, R125). -/
theorem endSlot_early (h : s.tim.beat % (s.mon k).window ≠ (s.mon k).window - 1) :
    endSlot k v s = s.setMon k { s.mon k with nextSlot := (s.mon k).nextSlot + 1 } := by
  simp only [endSlot, setMon_tim, h, false_and, if_false]

/-- The end of a regular slot in the last frame of a window of which no frame is missed (R124, R128). -/
theorem endSlot_delivers (h : s.tim.beat % (s.mon k).window = (s.mon k).window - 1)
    (hfrom : (s.mon k).winFrom + ((s.mon k).window - 1) ≤ s.tim.beat) (hmiss : (s.mon k).winMiss.contains (s.mon k).nextSlot = false) :
    endSlot k v s = deliver k (bits (tget 0 (s.mon k).aSeq (s.mon k).nextSlot).toNat 0 5) v false
      (bit (tget 0 (s.mon k).aSeq (s.mon k).nextSlot).toNat 5) (s.tim.beat - ((s.mon k).window - 1))
      (s.setMon k { s.mon k with nextSlot := (s.mon k).nextSlot + 1 }) := by
  have hfirst : (s.mon k).winFrom ≤ s.tim.beat - ((s.mon k).window - 1) := by omega
  simp only [endSlot, setMon_tim, h, hfirst, hmiss, Bool.not_false, and_self, if_true]

theorem monitorSlotEnd_injected (v : Int) (h : (s.mon k).injRun = true) : exec (.monitorSlotEnd k v) s = .next (endInjSlot k v s) :=
  congrArg Host.Outcome.next (if_pos h)

theorem monitorSlotEnd_regular (v : Int) (h : (s.mon k).injRun = false) (hon : (s.mon k).aEnable = true) (hres : (s.mon k).resume = true)
    (hslot : (s.mon k).nextSlot ≤ (s.mon k).aSeqLen) : exec (.monitorSlotEnd k v) s = .next (endSlot k v s) := by
  refine congrArg Host.Outcome.next ((if_neg (by simp [h])).trans (if_pos ?_))
  simp [hon, hres, hslot]

end

theorem toInt_saturate (v : Int) : (saturate v).toInt = if v < -(2 ^ 23) then -(2 ^ 23) else if 2 ^ 23 - 1 < v then 2 ^ 23 - 1 else v := by
  rw [saturate, clampI, BitVec.toInt_ofInt]
  split
  · rfl
  split
  · rfl
  · exact Int.bmod_eq_of_le (by omega) (by omega)

theorem overRange_iff (v : Int) : overRange v = true ↔ v < -(2 ^ 23) ∨ 2 ^ 23 < v := by
  simp [overRange]

/-- Settles O16: the slot's end by the way it takes, its result by what a delivery leaves of each input. -/
theorem monitorSlotsDeliver : Obligations.MonitorSlotsDeliver := by
  refine ⟨?_, ?_, ?_, fun v => ⟨toInt_saturate v, overRange_iff v⟩⟩
  · rintro s k i v x hrun hself hlt rfl rfl
    refine ⟨_, (monitorSlotEnd_injected v hrun).trans (congrArg _ (endInjSlot_next hself hlt)), ?_, ?_, ?_, fun j hj => ?_, fun j hj => ?_⟩
    · simp
    · simp
    · rw [monLast_congr _ _ (setMon_monLasts _ _ _), deliver_monLast, if_pos rfl]
      simp [MonLast.take]
    · rw [monLast_congr _ _ (setMon_monLasts _ _ _), deliver_monLast, if_neg hj]
    · rw [mon_setMon, if_neg hj, deliver_mon]
  · rintro s k i v x hi hrun hon hres hslot hlast hfrom hmiss rfl rfl rfl
    refine ⟨_, (monitorSlotEnd_regular v hrun hon hres hslot).trans (congrArg _ (endSlot_delivers hlast hfrom hmiss)), ?_, ?_, fun j hj => ?_, fun j hj => ?_⟩
    · rw [deliver_mon, mon_setMon, if_pos rfl]
    · rw [deliver_monLast, if_pos rfl, monLast_congr _ _ (setMon_monLasts _ _ _)]
      cases diodeInput k (bits (tget 0 (s.mon k).aSeq (s.mon k).nextSlot).toNat 0 5) <;> rfl
    · rw [deliver_monLast, if_neg hj, monLast_congr _ _ (setMon_monLasts _ _ _)]
    · rw [deliver_mon, mon_setMon, if_neg hj]
  · intro s k v hrun hon hres hslot hearly
    rw [monitorSlotEnd_regular v hrun hon hres hslot, endSlot_early hearly]

/-! ### Triggers -/

section
variable {s : State} {k t : Nat}

theorem trigger_ignored (h : (s.mon k).aEnable = false ∨ (s.mon k).aTrig.getLsbD t = false) : trigger k t s = s := by
  rcases h with h | h <;> simp [trigger, h]

/-- A trigger that finds its sequence running stays pending (R129). -/
theorem trigger_pends (hon : (s.mon k).aEnable = true) (htrig : (s.mon k).aTrig.getLsbD t = true) (hrun : (s.mon k).injRun = true)
    (hself : (s.mon k).selfTest = false) : trigger k t s = s.setMon k { s.mon k with injPend := true } := by
  simp [trigger, hon, htrig, hrun, hself]

/-- A trigger that finds no sequence running starts it (R127). -/
theorem trigger_starts (hon : (s.mon k).aEnable = true) (htrig : (s.mon k).aTrig.getLsbD t = true) (hrun : (s.mon k).injRun = false)
    (hself : (s.mon k).selfTest = false) : trigger k t s = s.setMon k (startInject false s.tim.beat (s.mon k)) := by
  simp [trigger, hon, htrig, hrun, hself]

/-- A trigger ends a running self-test, takes its test voltage down and starts the sequence (R135). -/
theorem trigger_endsSelfTest (hon : (s.mon k).aEnable = true) (htrig : (s.mon k).aTrig.getLsbD t = true) (hself : (s.mon k).selfTest = true) :
    trigger k t s = (setTestV k 0 s).setMon k (startInject false s.tim.beat (s.mon k)) := by
  simp [trigger, hon, htrig, hself]

end

/-- Settles O17: a trigger that finds its sequence running sets INJ_PENDING, also a second time, and the sequence's last slot looks at it. -/
theorem triggerDuringInjectedRunWaits : Obligations.TriggerDuringInjectedRunWaits := by
  refine ⟨?_, ?_, ?_⟩
  · intro s k trig hon htrig hrun hself
    refine ⟨_, congrArg Host.Outcome.next (trigger_pends hon htrig hrun hself), ?_, rfl, fun j hj => ?_, congrArg Host.Outcome.next ?_⟩
    · rw [mon_setMon, if_pos rfl]
    · rw [mon_setMon, if_neg hj]
    · rw [trigger_pends (by simpa using hon) (by simpa using htrig) (by simpa using hrun) (by simpa using hself), setMon_setMon, mon_setMon, if_pos rfl]
  · intro s k v hrun hself hlast hpend
    refine ⟨_, (monitorSlotEnd_injected v hrun).trans (congrArg _ (endInjSlot_last hself hlast)), ?_⟩
    simp only [mon_setMon, if_true, hpend]
  · intro s k v hrun hself hlast hpend
    refine ⟨_, (monitorSlotEnd_injected v hrun).trans (congrArg _ (endInjSlot_last hself hlast)), ?_⟩
    simp only [mon_setMon, if_true, hpend, Bool.false_eq_true, if_false]

/-! ### The start of an injected run -/

section
variable (self : Bool) (b : Nat) (m : Mon)

/-- Every field of a converter whose injected run starts (R128). -/
theorem startInject_eq : ∃ sk miss, startInject self b m =
    { m with injRun := true, injSlot := 0, injBeat := b, selfTest := self, resume := m.resume && !m.aEnable, skip := sk, winMiss := miss } := by
  unfold startInject
  split
  next h =>
    obtain ⟨hres, hon⟩ := Bool.and_eq_true_iff.mp h
    exact ⟨_, _, by rw [hres, hon]; rfl⟩
  next h =>
    refine ⟨m.skip, m.winMiss, ?_⟩
    have hres : (m.resume && !m.aEnable) = m.resume := by revert h; cases m.resume <;> cases m.aEnable <;> decide
    rw [hres]

/-- SKIP_COUNT of a converter whose regular frame an injected run breaks off (R128). -/
theorem startInject_skip (hres : m.resume = true) (hon : m.aEnable = true) :
    (startInject self b m).skip = min 0xFFFF (m.skip + (m.aSeqLen + 1 - m.nextSlot)) := by
  simp [startInject, hres, hon]

end

/-- A trigger that finds no sequence running, or a self-test, leaves its converter at the start of the sequence (R127, R135). -/
theorem trigger_runs {s : State} {k t : Nat} (hon : (s.mon k).aEnable = true) (htrig : (s.mon k).aTrig.getLsbD t = true)
    (hrun : (s.mon k).injRun = false ∨ (s.mon k).selfTest = true) : (trigger k t s).mon k = startInject false s.tim.beat (s.mon k) := by
  by_cases hself : (s.mon k).selfTest = true
  · rw [trigger_endsSelfTest hon htrig hself, mon_setMon, if_pos rfl]
  · rw [trigger_starts hon htrig (hrun.resolve_right hself) (Bool.eq_false_iff.mpr hself), mon_setMon, if_pos rfl]

/-! ### Register writes -/

theorem bit_toNat {n : Nat} (w : BitVec n) (i : Nat) : bit w.toNat i = w.getLsbD i := by
  rw [BitVec.getLsbD, Nat.testBit_eq_decide_div_mod_eq]
  rfl

/-- A mask of all ones covers every field of its word. -/
theorem bits_ones {n lo len : Nat} (h : lo + len ≤ n) : bits (2 ^ n - 1) lo len = 2 ^ len - 1 := by
  refine Nat.eq_of_testBit_eq fun i => ?_
  simp only [bits, Nat.testBit_mod_two_pow, Nat.testBit_div_two_pow, Nat.testBit_two_pow_sub_one]
  by_cases hi : i < len
  · simp [hi, show i + lo < n by omega]
  · simp [hi]

/-- A write of a whole 32-bit word sets each of its fields. -/
theorem fieldW_word {lo len : Nat} (v old : Nat) (h : lo + len ≤ 32) : fieldW v 0xFFFFFFFF lo len old = bits v lo len :=
  if_pos (bits_ones h)

theorem bitW_word {i : Nat} (w : BitVec 32) (old : Bool) (h : i < 32) : bitW w.toNat 0xFFFFFFFF i old = w.getLsbD i := by
  rw [bitW, if_pos, bit_toNat]
  have hone := bits_ones (n := 32) (lo := i) (len := 1) h
  simpa [bits, bit] using hone

theorem b01_bitW_word {i : Nat} (w : BitVec 32) (old : Bool) (h : i < 32) : b01 (bitW w.toNat 0xFFFFFFFF i old) = w.toNat / 2 ^ i % 2 := by
  rw [bitW_word w old h, ← bit_toNat, bit, b01]
  split <;> simp_all

section
variable (s : State) (k : Nat) (w : BitVec 32)

theorem writeMonCtrl_word : writeMonCtrl k w.toNat 0xFFFFFFFF s = s.setMon k { s.mon k with
    enable := w.getLsbD 0, fine := w.getLsbD 1, lowpwr := w.getLsbD 2, ringEn := w.getLsbD 3, seqLen := bits w.toNat 4 5
    injLen := bits w.toNat 9 2, commitPend := (s.mon k).commitPend || w.getLsbD 11 } := by
  have hcommit : bit 0xFFFFFFFF 11 = true := rfl
  simp [writeMonCtrl, modMon_eq, bitW_word, fieldW_word, bit_toNat, hcommit]

/-- The four staged inputs of MON_INJ side by side (R137). -/
theorem injInputs_word (old : BitVec 20) :
    BitVec.ofNat 20 ((List.range 4).foldl (fun a j => a + 2 ^ (5 * j) * fieldW w.toNat 0xFFFFFFFF (5 * j) 5 (bits old.toNat (5 * j) 5)) 0) =
      w.extractLsb' 0 20 := by
  apply BitVec.eq_of_toNat_eq
  simp [List.range_succ, fieldW_word, bits]
  omega

/-- The three staged triggers of MON_INJ side by side (R137). -/
theorem injTriggers_word (old : BitVec 3) :
    BitVec.ofNat 3 ((List.range 3).foldl (fun a j => a + 2 ^ j * b01 (bitW w.toNat 0xFFFFFFFF (20 + j) (old.getLsbD j))) 0) =
      w.extractLsb' 20 3 := by
  apply BitVec.eq_of_toNat_eq
  simp [List.range_succ, b01_bitW_word, Nat.shiftRight_eq_div_pow]
  omega

theorem writeMonInj_word : writeMonInj k w.toNat 0xFFFFFFFF s =
    (if w.getLsbD 23 then trigger k 2 (s.setMon k { s.mon k with inj := w.extractLsb' 0 20, trig := w.extractLsb' 20 3 })
      else s.setMon k { s.mon k with inj := w.extractLsb' 0 20, trig := w.extractLsb' 20 3 }) := by
  have hmask : bit 0xFFFFFFFF 23 = true := rfl
  simp only [writeMonInj, modMon_eq, injInputs_word, injTriggers_word, bit_toNat, hmask, Bool.and_true]

end

/-! ### The monitor ring's switch -/

section
variable {s : State} {w : BitVec 32} {sz : Nat}

/-- The size that MON_RING_CTRL takes while the ring is off: one of 10 to 18 (R137). -/
theorem ringSize_word (hsz : sz = if bits w.toNat 1 5 < 10 ∨ 18 < bits w.toNat 1 5 then s.ring.sizeLog2 else bits w.toNat 1 5)
    (old : Nat) : (if fieldW w.toNat 0xFFFFFFFF 1 5 old < 10 ∨ 18 < fieldW w.toNat 0xFFFFFFFF 1 5 old then s.ring.sizeLog2
      else fieldW w.toNat 0xFFFFFFFF 1 5 old) = sz := by
  rw [fieldW_word _ _ (by decide), hsz]

/-- A write of 1 to RING_ON while the ring is off: it starts empty, unless it would pass the end of steward SRAM. -/
theorem writeRingCtrl_on (hoff : s.ring.on = false) (hw : w.getLsbD 0 = true)
    (hsz : sz = if bits w.toNat 1 5 < 10 ∨ 18 < bits w.toNat 1 5 then s.ring.sizeLog2 else bits w.toNat 1 5) :
    writeRingCtrl w.toNat 0xFFFFFFFF s =
      if 16777216 < 64 * s.ring.base + 8 * 2 ^ sz then { s with ring := { s.ring with sizeLog2 := sz, cfgErr := true, drop := 0 } }
      else { s with ring := { s.ring with sizeLog2 := sz, on := true, wr := 0, rd := 0, drop := 0 } } := by
  have hmask : bit 0xFFFFFFFF 0 = true := rfl
  have hon (old : Bool) : bitW w.toNat 0xFFFFFFFF 0 old = true := (bitW_word w _ (by decide)).trans hw
  simp only [writeRingCtrl, bit_toNat, hw, hmask, Bool.and_self, if_true, hon, hoff, Bool.not_false, Bool.false_eq_true, false_or, ringSize_word hsz]

/-- A write of MON_RING_CTRL while the ring is on leaves its size (R137). -/
theorem writeRingCtrl_running (hon : s.ring.on = true) : writeRingCtrl w.toNat 0xFFFFFFFF s =
    { s with ring := { s.ring with on := w.getLsbD 0, drop := if w.getLsbD 0 then 0 else s.ring.drop } } := by
  have hmask : bit 0xFFFFFFFF 0 = true := rfl
  have hset (old : Bool) : bitW w.toNat 0xFFFFFFFF 0 old = w.getLsbD 0 := bitW_word w _ (by decide)
  cases hw : w.getLsbD 0 <;>
    simp only [writeRingCtrl, bit_toNat, hmask, hset, hw, hon, Bool.and_true, Bool.not_true, Bool.and_false, Bool.false_eq_true, true_or, if_true, if_false]

end

/-! ### The writes and the self-test -/

theorem monHostInjectWrite_starts {s : State} {k : Nat} {w : BitVec 32} (hw : w.getLsbD 23 = true) (hon : (s.mon k).aEnable = true)
    (htrig : (s.mon k).aTrig.getLsbD 2 = true) (hrun : (s.mon k).injRun = false) :
    Completes (.monHostInjectWrite k w) s (fun t => (t.mon k).injRun = true ∧ (t.mon k).injSlot = 0 ∧ (t.mon k).selfTest = false ∧
      (t.mon k).inj = w.extractLsb' 0 20 ∧ (t.mon k).trig = w.extractLsb' 20 3 ∧ (t.mon k).aInj = (s.mon k).aInj) := by
  refine ⟨_, congrArg Host.Outcome.next ((writeMonInj_word s k w).trans (if_pos hw)), ?_⟩
  obtain ⟨sk, miss, hstart⟩ := startInject_eq false s.tim.beat { s.mon k with inj := w.extractLsb' 0 20, trig := w.extractLsb' 20 3 }
  have hmon := trigger_runs (s := s.setMon k { s.mon k with inj := w.extractLsb' 0 20, trig := w.extractLsb' 20 3 }) (k := k) (t := 2)
    (by simpa using hon) (by simpa using htrig) (Or.inl (by simpa using hrun))
  rw [mon_setMon, if_pos rfl, setMon_tim, hstart] at hmon
  rw [hmon]
  exact ⟨rfl, rfl, rfl, rfl, rfl, rfl⟩

theorem monHostInjectWrite_stages {s : State} {k : Nat} {w : BitVec 32} (h : (w.getLsbD 23 && (s.mon k).aEnable && (s.mon k).aTrig.getLsbD 2) = false) :
    exec (.monHostInjectWrite k w) s = .next (s.setMon k { s.mon k with inj := w.extractLsb' 0 20, trig := w.extractLsb' 20 3 }) := by
  refine congrArg Host.Outcome.next ((writeMonInj_word s k w).trans ?_)
  split
  next hw =>
    rw [hw, Bool.true_and, Bool.and_eq_false_iff] at h
    exact trigger_ignored (by simpa using h)
  next => rfl

theorem monitorInjectTrigger_starts {s : State} {k trig : Nat} (hon : (s.mon k).aEnable = true) (htrig : (s.mon k).aTrig.getLsbD trig = true)
    (hrun : (s.mon k).injRun = false) (hself : (s.mon k).selfTest = false) :
    Completes (.monitorInjectTrigger k trig) s (fun t => (t.mon k).injRun = true ∧ (t.mon k).injSlot = 0 ∧ (t.mon k).selfTest = false ∧
      (t.mon k).resume = false ∧ (t.mon k).aInj = (s.mon k).aInj ∧ (t.mon k).injBeat = s.tim.beat ∧
      ((s.mon k).resume = true → (t.mon k).skip = min 0xFFFF ((s.mon k).skip + ((s.mon k).aSeqLen + 1 - (s.mon k).nextSlot))) ∧
      t = s.setMon k (t.mon k)) := by
  refine ⟨_, congrArg Host.Outcome.next (trigger_starts hon htrig hrun hself), ?_⟩
  have hskip := fun hres => startInject_skip false s.tim.beat (s.mon k) hres hon
  obtain ⟨sk, miss, hstart⟩ := startInject_eq false s.tim.beat (s.mon k)
  rw [hstart] at hskip ⊢
  simp only [mon_setMon, if_true, hon, Bool.not_true, Bool.and_false, and_true, true_and]
  exact hskip

theorem monitorInjectTrigger_endsSelfTest {s : State} {k trig : Nat} (hon : (s.mon k).aEnable = true) (htrig : (s.mon k).aTrig.getLsbD trig = true)
    (hself : (s.mon k).selfTest = true) :
    Completes (.monitorInjectTrigger k trig) s (fun t => (t.mon k).injRun = true ∧ (t.mon k).injSlot = 0 ∧ (t.mon k).selfTest = false ∧
      (t.mon k).injPend = (s.mon k).injPend ∧ (t.field (k % 32)).testV = 0) := by
  refine ⟨_, congrArg Host.Outcome.next (trigger_endsSelfTest hon htrig hself), ?_⟩
  obtain ⟨sk, miss, hstart⟩ := startInject_eq false s.tim.beat (s.mon k)
  rw [hstart, mon_setMon, if_pos rfl]
  refine ⟨rfl, rfl, rfl, rfl, ?_⟩
  rw [field_congr _ _ (setMon_fields _ _ _), setTestV, field_modField, if_pos rfl]

theorem monitorSelftestRun_runs {s : State} {k : Nat} (hrun : (s.mon k).injRun = false) :
    Completes (.monitorSelftestRun k) s (fun t => (t.mon k).injRun = true ∧ (t.mon k).selfTest = true ∧ (t.mon k).injSlot = 0 ∧ (t.mon k).selfPass = true ∧
      (t.field (k % 32)).testV = (if (s.mon k).selfRuns % 2 = 0 then 1 else -1) ∧ (∀ j, j ≠ k → t.mon j = s.mon j) ∧
      t = { s with mons := t.mons, fields := t.fields }) := by
  refine ⟨_, congrArg Host.Outcome.next (if_neg (Bool.eq_false_iff.mp hrun)), ?_⟩
  obtain ⟨sk, miss, hstart⟩ := startInject_eq true s.tim.beat (s.mon k)
  rw [hstart, mon_setMon, if_pos rfl]
  refine ⟨rfl, rfl, rfl, rfl, ?_, fun j hj => ?_, rfl⟩
  · rw [field_congr _ _ (setMon_fields _ _ _), setTestV, field_modField, if_pos rfl]
  · rw [mon_setMon, if_neg hj]
    rfl

theorem monitorSelftestRun_waits {s : State} {k : Nat} (hrun : (s.mon k).injRun = true) :
    Completes (.monitorSelftestRun k) s (fun t => ∀ j, t.mon j = s.mon j) := by
  refine ⟨_, congrArg Host.Outcome.next (if_pos hrun), fun j => ?_⟩
  rw [mon_setMon]
  split
  next hj => rw [hj]; rfl
  next => rfl

/-- Settles O18: each write by the lemma that says what a whole word does, each trigger by the start of the run that it makes. -/
theorem monitorWritesAct : Obligations.MonitorWritesAct := by
  refine ⟨fun s k w => ?_, fun s k w h => ?_, fun s k w => monHostInjectWrite_starts, fun s k trig => monitorInjectTrigger_starts,
    fun s k trig hon htrig _ => monitorInjectTrigger_endsSelfTest hon htrig, fun s k trig h => congrArg Host.Outcome.next (trigger_ignored h),
    fun s k => monitorSelftestRun_runs, fun s k => monitorSelftestRun_waits, fun s w sz hoff hw hsz hfit => ?_, fun s w sz hoff hw hsz hfit => ?_,
    fun s w hon => congrArg Host.Outcome.next (writeRingCtrl_running hon)⟩
  · refine ⟨_, congrArg Host.Outcome.next (writeMonCtrl_word s k w), ?_⟩
    simp only [mon_setMon, if_true, and_self]
  · refine ⟨_, monHostInjectWrite_stages h, ?_⟩
    simp only [mon_setMon, if_true, and_self]
  · exact congrArg Host.Outcome.next ((writeRingCtrl_on hoff hw hsz).trans (if_neg (Nat.not_lt.mpr hfit)))
  · exact congrArg Host.Outcome.next ((writeRingCtrl_on hoff hw hsz).trans (if_pos hfit))

end Sys2Proof.Machine
end

section
/-! Commands that read: the bytes of register images and records, and what each answers (R404 to R407, R512, R514). -/

namespace Sys2Proof.Machine

open Sys2Proof State

/-! ### Numbers at a place among bytes -/

theorem bytesAt_append_left {l r : List Byte} {i n : Nat} (h : i + n ≤ l.length) : bytesAt (l ++ r) i n = bytesAt l i n := by
  rw [bytesAt, bytesAt, List.drop_append_of_le_length (by omega), List.take_append_of_le_length (by rw [List.length_drop]; omega)]

theorem bytesAt_append_right (l r : List Byte) (i n : Nat) : bytesAt (l ++ r) (l.length + i) n = bytesAt r i n := by
  rw [bytesAt, List.drop_length_add_append, bytesAt]

/-- The number that stands first, and those behind it. -/
theorem bytesAt_leBytes (n v : Nat) (r : List Byte) : bytesAt (leBytes n v ++ r) 0 n = v % 256 ^ n := by
  rw [bytesAt, List.drop_zero, List.take_left' (length_leBytes n v), leNat_leBytes]

theorem bytesAt_behind_leBytes (m v : Nat) (r : List Byte) (i n : Nat) : bytesAt (leBytes m v ++ r) (m + i) n = bytesAt r i n := by
  have h := bytesAt_append_right (leBytes m v) r i n
  rwa [length_leBytes] at h

@[simp] theorem length_fitBytes (n : Nat) (l : List Byte) : (fitBytes n l).length = n := by
  simp [fitBytes]
  omega

theorem length_flatMap_const {α β : Type} {g : α → List β} {w : Nat} (hw : ∀ a, (g a).length = w) (l : List α) : (l.flatMap g).length = w * l.length := by
  induction l with
  | nil => rfl
  | cons a l ih => rw [List.flatMap_cons, List.length_append, hw, ih, List.length_cons, Nat.mul_succ, Nat.add_comm]

theorem length_imageBytes (l : List Nat) : (imageBytes l).length = 4 * l.length := by
  rw [imageBytes, ← List.flatMap_def, length_flatMap_const (length_leBytes 4)]

/-- Word `i` of register images (R405). -/
theorem bytesAt_imageBytes (l : List Nat) (i : Nat) : bytesAt (imageBytes l) (4 * i) 4 = l.getD i 0 % 2 ^ 32 := by
  induction l generalizing i with
  | nil => simp [imageBytes, bytesAt, leNat]
  | cons v l ih =>
    change bytesAt (leBytes 4 v ++ imageBytes l) _ _ = _
    cases i with
    | zero => exact bytesAt_leBytes 4 v _
    | succ i => rw [Nat.mul_succ, Nat.add_comm, bytesAt_behind_leBytes, ih, List.getD_cons_succ]

theorem getD_map_range {α : Type} (f : Nat → α) {n i : Nat} (d : α) (h : i < n) : ((List.range n).map f).getD i d = f i := by
  rw [List.getD_eq_getElem?_getD, List.getElem?_map, List.getElem?_range h]
  rfl

/-- Word `i` of the images of `n` numbered registers. -/
theorem bytesAt_images (f : Nat → Nat) {n i : Nat} (h : i < n) : bytesAt (imageBytes ((List.range n).map f)) (4 * i) 4 = f i % 2 ^ 32 := by
  rw [bytesAt_imageBytes, getD_map_range f 0 h]

/-- Element `i` of chunk `j` of equal ones laid side by side. -/
theorem getD_chunks {α : Type} {g : Nat → List α} {w n j i : Nat} (d : α) (hw : ∀ j, (g j).length = w) (hj : j < n) (hi : i < w) :
    ((List.range n).flatMap g).getD (w * j + i) d = (g j).getD i d := by
  rw [← take_drop_chunks hw hj, List.flatMap_def, List.getD_eq_getElem?_getD, List.getD_eq_getElem?_getD, List.getElem?_take_of_lt hi, List.getElem?_drop]

/-! ### Commands that read -/

section
variable {i : Instr} {s : State} {k : Nat}

/-- A command that answers with its output and changes nothing else. -/
theorem completes_output {out : List Byte} {P : List Byte → Prop} (hrun : exec i s = .next (finishCmd k { output := out } s)) (hP : P out) :
    Completes i s (fun t => (∃ l : List (BitVec 8), Answered s t k { output := l } ∧ P l) ∧ t = { s with cmds := t.cmds }) :=
  ⟨_, hrun, ⟨_, answered_finish _ _ _ _ rfl, hP⟩, rfl⟩

end

@[simp] theorem orElse_extNeed (c : Cmd) (n : Nat) (l : List (Bool × Reply)) :
    orElse (c.extNeed n :: l) = if 64 * c.extLen < n then some (.no stBadField 5) else orElse l := by
  rw [Cmd.extNeed, orElse_badField]
  simp only [decide_eq_true_eq]

section
variable {s : State} {k : Nat} {c : Cmd}

theorem devFaultRead_answers (h : Taken s k 0x0113 c) (hz : c.at 16 48 = 0) :
    Completes (.devFaultRead k) s (fun t => (∃ r, Answered s t k r ∧ r.status = stOk ∧ bytesAt r.output 0 4 = fltStatus s % 2 ^ 32 ∧
      bytesAt r.output 4 2 = s.flt.queue.length % 65536 ∧ bytesAt r.output 6 2 = s.flt.log.length % 65536 ∧
      r.output.drop 16 = (s.flt.queue.take (4 * c.extLen - 1) ++ s.flt.log.take (4 * c.extLen - 1 - s.flt.queue.length)).flatMap faultBytes) ∧
      t = { s with cmds := t.cmds }) := by
  refine ⟨_, congrArg Host.Outcome.next (runCmd_acts h (by simp [hz]) rfl rfl), ⟨_, answered_finish _ _ _ _ rfl, rfl, ?_, ?_, ?_, ?_⟩, rfl⟩
  · simp only [List.append_assoc]
    exact bytesAt_leBytes 4 _ _
  · simp only [List.append_assoc]
    exact (bytesAt_behind_leBytes 4 _ _ 0 2).trans (bytesAt_leBytes 2 _ _)
  · simp only [List.append_assoc]
    exact (bytesAt_behind_leBytes 4 _ _ 2 2).trans ((bytesAt_behind_leBytes 2 _ _ 0 2).trans (bytesAt_leBytes 2 _ _))
  · have hroom : 4 * c.extLen - 1 - (s.flt.queue.take (4 * c.extLen - 1)).length = 4 * c.extLen - 1 - s.flt.queue.length := by
      rw [List.length_take]
      omega
    rw [List.drop_left' (by simp [length_leBytes]), hroom]

theorem loopStatus_answers {f n : Nat} (h : Taken s k 0x0D01 c) (hf : c.at 16 2 = f) (hn : c.at 18 2 = n) (hext : 64 + 32 * n ≤ 64 * c.extLen)
    (hfirst : f ≤ 8191) (hlast : f + n ≤ 8192) (hz : c.at 20 44 = 0) :
    Completes (.loopStatus k) s (fun t => (∃ l : List (BitVec 8), Answered s t k { output := l } ∧ l.length = 64 + 32 * n ∧
      ∀ j i, j < n → i < 8 → bytesAt l (64 + 32 * j + 4 * i) 4 = slotRead s (f + j) i % 2 ^ 32) ∧ t = { s with cmds := t.cmds }) := by
  subst hf hn
  refine completes_output (congrArg Host.Outcome.next (runCmd_acts h ?_ rfl rfl)) ⟨?_, fun j i hj hi => ?_⟩
  · simp [hz, Nat.not_lt.mpr hext, Nat.not_lt.mpr hfirst, Nat.not_lt.mpr hlast]
  · rw [List.length_append, length_fitBytes, length_imageBytes, length_flatMap_const (w := 8) (by simp), List.length_range]
    omega
  · have hplace := bytesAt_append_right (fitBytes 64 (imageBytes ((List.range 10).map (fun i => engineRead s (4 * i)))))
      (imageBytes ((List.range (c.at 18 2)).flatMap (fun j => (List.range 8).map (slotRead s (c.at 16 2 + j))))) (4 * (8 * j + i)) 4
    rw [length_fitBytes, bytesAt_imageBytes, getD_chunks 0 (by simp) hj hi, getD_map_range _ 0 hi] at hplace
    rw [← hplace]
    congr 1
    omega

theorem loopCapture_answers {f n : Nat} (h : Taken s k 0x0D06 c) (hb : c.at 16 2 = 0) (hi : c.at 18 2 = 0) (hf : c.at 20 4 = f) (hn : c.at 24 4 = n)
    (hext : 8 * n ≤ 64 * c.extLen) (hfirst : f ≤ 65535) (hlast : f + n ≤ 65536) (hz : c.at 28 36 = 0) :
    Completes (.loopCapture k) s (fun t => (∃ l : List (BitVec 8), Answered s t k { output := l } ∧ l.length = 8 * n ∧
      ∀ i, i < n → bytesAt l (8 * i) 8 = (tget 0 s.eng.cap (f + i)).toNat) ∧ t = { s with cmds := t.cmds }) := by
  subst hf hn
  have hreads : ¬((cmdOf s k).any (fun c => c.at 16 2 != 0) = true) := by simp [h.1, hb]
  refine completes_output (congrArg Host.Outcome.next ((if_neg hreads).trans (runCmd_acts h ?_ rfl rfl))) ⟨?_, fun i hi => ?_⟩
  · simp [hi, hz, Nat.not_lt.mpr hext, Nat.not_lt.mpr hfirst, Nat.not_lt.mpr hlast]
  · rw [length_flatMap_const (fun _ => length_leBytes 8 _), List.length_range]
  · rw [bytesAt, List.flatMap_def, take_drop_chunks (fun _ => length_leBytes 8 _) hi, leNat_leBytes]
    exact Nat.mod_eq_of_lt (BitVec.isLt _)

theorem monitorStatus_answers {m : Nat} (h : Taken s k 0x0E01 c) (hm : c.at 16 1 = m) (h64 : m < 64) (hext : 1 ≤ c.extLen) (hz : c.at 17 47 = 0) :
    Completes (.monitorStatus k) s (fun t => (∃ l : List (BitVec 8), Answered s t k { output := l } ∧ l.length = 64 ∧
      (∀ i, i < 5 → bytesAt l (4 * i) 4 = monBlockRead s (4 * i) % 2 ^ 32) ∧ bytesAt l 20 4 = monRead s m 0 % 2 ^ 32) ∧ t = { s with cmds := t.cmds }) := by
  subst hm
  refine completes_output (congrArg Host.Outcome.next (runCmd_acts h ?_ rfl rfl)) ⟨?_, fun i hi => ?_, ?_⟩
  · simp [monCheck, hz, Nat.not_lt.mpr (Nat.le_of_lt_succ h64), Nat.not_lt.mpr (Nat.mul_le_mul_left 64 hext)]
  · simp [length_imageBytes]
  · rw [bytesAt_imageBytes, List.append_assoc, List.getD_eq_getElem?_getD, List.getElem?_append_left (by simpa using hi), ← List.getD_eq_getElem?_getD,
      getD_map_range _ 0 hi]
  · exact bytesAt_imageBytes _ 5

theorem monitorRead_answers {m : Nat} (h : Taken s k 0x0E05 c) (hm : c.at 16 1 = m) (h64 : m < 64) (hext : 2 ≤ c.extLen) (hz : c.at 17 47 = 0) :
    Completes (.monitorRead k) s (fun t => (∃ l : List (BitVec 8), Answered s t k { output := l } ∧ l.length = 128 ∧
      ∀ i, i < 32 → bytesAt l (4 * i) 4 = monRead s m (0x80 + 4 * i) % 2 ^ 32) ∧ t = { s with cmds := t.cmds }) := by
  subst hm
  refine completes_output (congrArg Host.Outcome.next (runCmd_acts h ?_ rfl rfl)) ⟨?_, fun i hi => bytesAt_images _ hi⟩
  · simp [monCheck, hz, Nat.not_lt.mpr (Nat.le_of_lt_succ h64), Nat.not_lt.mpr (Nat.mul_le_mul_left 64 hext)]
  · simp [length_imageBytes]

theorem thermalSensor_answers {d i : Nat} (h : Taken s k 0x0904 c) (hd : c.at 16 1 = d) (h22 : d < 22) (hi : c.at 17 1 = i) (hsensor : i < sensorCount d)
    (hext : 8 ≤ c.extLen) (hz : c.at 18 46 = 0) (hhist : (s.sensor (sensorKey d i)).hist.length ≤ 64) :
    Completes (.thermalSensor k) s (fun t => (∃ l : List (BitVec 8), Answered s t k { output := l } ∧ l.length = 512 ∧
      l.drop (512 - 8 * (s.sensor (sensorKey d i)).hist.length) = ((s.sensor (sensorKey d i)).hist.map historyRecord).flatten) ∧
      t = { s with cmds := t.cmds }) := by
  subst hd hi
  have hdie : (if c.at 16 1 = 0xFF then 22 else if c.at 16 1 < 22 then c.at 16 1 else 23) = c.at 16 1 := by
    rw [if_neg (by omega), if_pos h22]
  have hrecord (x : Nat × Int × Bool × Bool) : (historyRecord x).length = 8 := by simp [historyRecord, length_leBytes]
  refine completes_output (out := List.replicate (512 - 8 * (s.sensor (sensorKey (c.at 16 1) (c.at 17 1))).hist.length) 0 ++
    ((s.sensor (sensorKey (c.at 16 1) (c.at 17 1))).hist.map historyRecord).flatten)
    (congrArg Host.Outcome.next (runCmd_acts h ?_ (by simp only [hdie]) rfl)) ⟨?_, ?_⟩
  · have hdev : (c.at 16 1 == 23) = false := by simpa using (by omega : c.at 16 1 ≠ 23)
    simp [hdie, hz, hdev, Nat.not_le.mpr hsensor, Nat.not_lt.mpr (Nat.mul_le_mul_left 64 hext)]
  · rw [List.length_append, List.length_replicate, ← List.flatMap_def, length_flatMap_const hrecord]
    omega
  · exact List.drop_left' List.length_replicate

theorem secCertRead_answers (h : Taken s k 0x0A01 c) (hz : c.at 16 48 = 0) :
    exec (.secCertRead k) s = .next (finishCmd k { output := s.sec.identity } s) :=
  congrArg Host.Outcome.next (runCmd_acts h (by simp [hz]) rfl rfl)

theorem length_licenceRecord (s : State) (i : Nat) : (licenceRecord s i).length = 16 := by
  simp [licenceRecord, length_leBytes]

theorem secLicenceList_answers (h : Taken s k 0x0A04 c) (hz : c.at 16 48 = 0) (hext : 5 ≤ c.extLen) :
    Completes (.secLicenceList k) s (fun t => (∃ l : List (BitVec 8), Answered s t k { output := l } ∧ l.length ≤ 272 ∧ l.length % 16 = 0 ∧
      bytesAt l (l.length - 15) 1 = s.bu.licences.toNat % 256) ∧ t = { s with cmds := t.cmds }) := by
  obtain ⟨slots, hslots⟩ : ∃ slots, slots = (List.range 16).filter (fun i => tget [] s.sec.tokens i != []) := ⟨_, rfl⟩
  have hfew : slots.length ≤ 16 := hslots ▸ List.length_filter_le _ (List.range 16)
  have hrecords := length_flatMap_const (length_licenceRecord s) slots
  have hlen : (slots.flatMap (licenceRecord s) ++ leBytes 1 (installedMask s) ++ leBytes 1 s.bu.licences.toNat ++ leBytes 14 0).length =
      16 * slots.length + 16 := by
    simp only [List.length_append, hrecords, length_leBytes]
  refine completes_output (out := slots.flatMap (licenceRecord s) ++ leBytes 1 (installedMask s) ++ leBytes 1 s.bu.licences.toNat ++ leBytes 14 0)
    (congrArg Host.Outcome.next (runCmd_acts h ?_ (by rw [hslots]) rfl)) ⟨?_, ?_, ?_⟩
  · rw [← hslots, orElse_extNeed, if_neg (by omega)]
    simp [hz]
  · omega
  · omega
  · have hgranted : 16 * slots.length + 16 - 15 = (slots.flatMap (licenceRecord s)).length + (1 + 0) := by omega
    rw [hlen, hgranted]
    simp only [List.append_assoc]
    rw [bytesAt_append_right, bytesAt_behind_leBytes]
    exact bytesAt_leBytes 1 _ _

/-- The checks of a partition number that names one. -/
theorem orElse_partChecks {i : Nat} (l : List (Bool × Reply)) (h4 : c.at i 1 < 4) (hp : c.at i 1 < s.net.parts) :
    orElse (partChecks s c i ++ l) = orElse l := by
  simp [partChecks, Nat.not_lt.mpr (Nat.le_of_lt_succ h4), Nat.not_le.mpr hp]

theorem length_swapRecord (s : State) (p : Nat) : (swapRecord s p).length = 64 := length_fitBytes _ _

theorem modelDirRead_answers {p f n : Nat} (h : Taken s k 0x0505 c) (hp : c.at 16 1 = p) (h4 : p < 4) (hparts : p < s.net.parts) (hz : c.at 17 1 = 0)
    (hf : c.at 18 2 = f) (hn : c.at 20 2 = n) (hf0 : 0 < f) (hlast : f + n ≤ 16384) (hfirst : f ≤ 16383) (hext : 64 * n + 64 ≤ 64 * c.extLen)
    (hz' : c.at 22 42 = 0) (hres : resetting s p = false) :
    Completes (.modelDirRead k) s (fun t => (∃ l : List (BitVec 8), Answered s t k { output := l } ∧ l.take 64 = swapRecord s p ∧
      l.drop 64 = ((List.range n).map (fun i => dirBytes (s.dirEntry (f + i)))).flatten) ∧ t = { s with cmds := t.cmds }) := by
  subst hp hf hn
  refine completes_output (congrArg Host.Outcome.next (runCmd_acts h ?_ rfl rfl))
    ⟨List.take_left' (length_swapRecord _ _), List.drop_left' (length_swapRecord _ _)⟩
  rw [List.cons_append, orElse_extNeed, if_neg (Nat.not_lt.mpr hext), orElse_partChecks _ h4 hparts]
  simp [hz, hz', hres, Nat.not_lt.mpr hlast, Nat.not_lt.mpr hfirst, Nat.ne_of_gt hf0]

theorem modelSwapStatus_answers {p : Nat} (h : Taken s k 0x0508 c) (hp : c.at 16 1 = p) (h4 : p < 4) (hparts : p < s.net.parts)
    (hext : 64 + 8 * (swapHandles s p).length ≤ 64 * c.extLen) (hz : c.at 17 47 = 0) (hres : resetting s p = false) :
    Completes (.modelSwapStatus k) s (fun t => (∃ l : List (BitVec 8), Answered s t k { output := l } ∧ l.take 64 = swapRecord s p ∧
      l.length = 64 + 8 * (swapHandles s p).length) ∧ t = { s with cmds := t.cmds }) := by
  subst hp
  refine completes_output (congrArg Host.Outcome.next (runCmd_acts h ?_ rfl rfl)) ⟨List.take_left' (length_swapRecord _ _), ?_⟩
  · rw [List.cons_append, orElse_extNeed, if_neg (Nat.not_lt.mpr hext), orElse_partChecks _ h4 hparts]
    simp [hz, hres]
  · rw [List.length_append, length_swapRecord, ← List.flatMap_def, length_flatMap_const (w := 8) (by simp [length_leBytes])]

/-! ### Reads of memory (R407) -/

/-- A range of device addresses that no unit holds does not wait (R306). -/
theorem debugHeld_free (h : cmdOf s k = some c) (hheld : held s (c.at 24 6) (c.at 32 4) = false) : ¬(debugHeld s k = true) := by
  simp [debugHeld, h, hheld]

/-- The checks of `debug.read` and `debug.write` pass for whole words of device addresses that memory stands at. -/
theorem orElse_debugChecks {spaces a n : Nat} (hspaces : 0 < spaces) (hsp : c.at 16 1 = 0) (hz : c.at 17 7 = 0) (ha : c.at 24 6 = a) (hz30 : c.at 30 2 = 0)
    (hn : c.at 32 4 = n) (hz36 : c.at 36 28 = 0) (halign : a % 8 = 0) (h8 : 8 ≤ n) (hwords : n % 8 = 0) (hext : n ≤ 64 * c.extLen)
    (hrange : debugRange s a n = true) (hpart : debugPart s 0 a n = false) : orElse (debugChecks s c spaces) = none := by
  simp [debugChecks, debugOut, hsp, hz, ha, hz30, hn, hz36, halign, hwords, hrange, hpart, Nat.not_lt.mpr h8, Nat.not_lt.mpr hext, Nat.ne_of_gt hspaces]

theorem debugRead_answers {a n : Nat} (h : Taken s k 0x0C01 c) (hsp : c.at 16 1 = 0) (hz : c.at 17 7 = 0) (ha : c.at 24 6 = a) (hz30 : c.at 30 2 = 0)
    (hn : c.at 32 4 = n) (hz36 : c.at 36 28 = 0) (halign : a % 8 = 0) (h8 : 8 ≤ n) (hwords : n % 8 = 0) (hext : n ≤ 64 * c.extLen)
    (hrange : debugRange s a n = true) (hpart : debugPart s 0 a n = false) (hheld : held s a n = false) (he : s.errs = []) :
    Completes (.debugRead k) s (fun t => Answered s t k { output := rdBytes s a n, result := leBytes 4 ((wordsOf a n).filter (wordBad s)).length } ∧
      t = { s with cmds := t.cmds }) := by
  have hchecks := orElse_debugChecks (spaces := 3) (by decide) hsp hz ha hz30 hn hz36 halign h8 hwords hext hrange hpart
  subst ha hn
  refine ⟨_, congrArg Host.Outcome.next ((if_neg (debugHeld_free h.1 hheld)).trans (runCmd_acts h hchecks ?_ rfl)), answered_finish _ _ _ _ rfl, rfl⟩
  simp [hsp, debugAddr, touch_noErrs he]

end

/-- Settles O52: each command by its own lemma, which gives the checks that pass and reads the fields off its output. -/
theorem readCommandsAnswer : Obligations.ReadCommandsAnswer :=
  ⟨fun _ _ _ => devFaultRead_answers, fun _ _ _ _ _ => loopStatus_answers, fun _ _ _ _ _ => loopCapture_answers, fun _ _ _ _ => monitorStatus_answers,
    fun _ _ _ _ => monitorRead_answers, fun _ _ _ _ _ => thermalSensor_answers, fun _ _ _ => secCertRead_answers, fun _ _ _ => secLicenceList_answers,
    fun _ _ _ _ _ _ => modelDirRead_answers, fun _ _ _ _ => modelSwapStatus_answers, fun _ _ _ _ _ => debugRead_answers⟩

end Sys2Proof.Machine
end

section
/-! The request trigger of `monitor.inject`, and the statement about the setting commands (R127, R135). -/

namespace Sys2Proof.Machine

open Sys2Proof State

/-! ### A mask of one bit -/

theorem bit_two_pow (m i : Nat) : bit (2 ^ m) i = true ↔ m = i := by
  have h := Nat.testBit_two_pow (n := m) (m := i)
  rw [Nat.testBit_eq_decide_div_mod_eq, decide_eq_decide] at h
  rw [bit, beq_iff_eq, h]

theorem maskList_two_pow {n m : Nat} (h : m < n) : maskList n (2 ^ m) = [m] := by
  unfold maskList
  induction n with
  | zero => exact absurd h (Nat.not_lt_zero m)
  | succ n ih =>
    rw [List.range_succ, List.filter_append]
    rcases Nat.lt_succ_iff_lt_or_eq.mp h with hlt | rfl
    · have hlast : ¬(bit (2 ^ m) n = true) := fun hn => Nat.ne_of_lt hlt ((bit_two_pow m n).mp hn)
      rw [ih hlt, List.filter_cons_of_neg hlast, List.filter_nil, List.append_nil]
    · have hbelow : ∀ i ∈ List.range m, ¬(bit (2 ^ m) i = true) := fun i hi hm =>
        Nat.ne_of_gt (List.mem_range.mp hi) ((bit_two_pow m i).mp hm)
      rw [List.filter_eq_nil_iff.mpr hbelow, List.filter_cons_of_pos ((bit_two_pow m m).mpr rfl), List.filter_nil, List.nil_append]

/-! ### `monitor.inject` -/

/-- With the mask of one converter the command brings the request trigger to it and is answered (R127). -/
theorem monitorInject_triggers {s : State} {k m : Nat} {c : Cmd} (h : Taken s k 0x0E04 c) (hm : m < 64) (hmask : c.at 16 8 = 2 ^ m) (hz : c.at 24 40 = 0) :
    exec (.monitorInject k) s = .next (finishCmd k {} (trigger m 2 s)) := by
  refine congrArg Host.Outcome.next (runCmd_acts h ?_ ?_ rfl)
  · simp [hmask, hz]
  · rw [hmask, maskList_two_pow hm]
    rfl

/-- `monitor.inject` of converter 0. -/
def injectFirst : Cmd := { opcode := 0x0E04, entry := List.replicate 16 0 ++ [1] ++ List.replicate 47 0 }

/-- Refutes O53: the clause of `monitor.inject` asks that no injected run is in progress, but not that the converter is in no self-test. A trigger ends a
self-test, so it takes the test voltage of the converter's field down (R135), and `fields` is not as it was: of converter 0 with SELFTEST set and its
field's test voltage up, the command leaves the voltage at 0. -/
theorem not_settingCommandsAct : ¬ Obligations.SettingCommandsAct := by
  rintro ⟨-, -, -, -, -, -, -, -, -, -, hinject, -⟩
  obtain ⟨s, hs⟩ : ∃ s : State, s =
      { cmds := [injectFirst], stw := { ready := true }
        mons := [(0, { aEnable := true, aTrig := 4, selfTest := true })], fields := [(0, { testV := 1 })] } := ⟨_, rfl⟩
  have htaken : Taken s 0 0x0E04 injectFirst := hs ▸ ⟨rfl, rfl, rfl, rfl, rfl⟩
  have hon : (s.mon 0).aEnable = true := hs ▸ rfl
  have htrig : (s.mon 0).aTrig.getLsbD 2 = true := hs ▸ rfl
  have hself : (s.mon 0).selfTest = true := hs ▸ rfl
  have hup : (s.field 0).testV = 1 := hs ▸ rfl
  obtain ⟨t, hexec, -, -, -, -, hframe⟩ := hinject s 0 0 injectFirst htaken (by decide) rfl rfl hon htrig (hs ▸ rfl)
  have ht : t = finishCmd 0 {} (trigger 0 2 s) :=
    Host.Outcome.next.inj (hexec.symm.trans (monitorInject_triggers htaken (by decide) rfl rfl))
  have hdown : (t.field 0).testV = 0 := by
    rw [ht, field_congr _ _ (finishCmd_fields _ _ _), trigger_endsSelfTest hon htrig hself, field_congr _ _ (setMon_fields _ _ _), setTestV, field_modField,
      if_pos rfl]
  have hfields : t.fields = s.fields := by rw [hframe]
  have hkept : (t.field 0).testV = 1 := by rw [field_congr s t hfields, hup]
  exact absurd (hdown.symm.trans hkept) (by decide)

end Sys2Proof.Machine
end

section
/-! The loop law: what a computation lays on its output and keeps in its integral, D filter and error (R142 to R147). -/

namespace Sys2Proof.Machine

open Sys2Proof State

/-! ### Values held in a range -/

theorem clampI_mem {lo hi : Int} (h : lo ≤ hi) (x : Int) : lo ≤ clampI lo hi x ∧ clampI lo hi x ≤ hi := by
  unfold clampI
  split
  · omega
  · split <;> omega

theorem clampI_of_mem {lo hi x : Int} (hlo : lo ≤ x) (hhi : x ≤ hi) : clampI lo hi x = x := by
  rw [clampI, if_neg (Int.not_lt.mpr hlo), if_neg (Int.not_lt.mpr hhi)]

theorem sat40_mem (i : Int) : -(2 ^ 39) ≤ sat40 i ∧ sat40 i < 2 ^ 39 := by
  obtain ⟨hlo, hhi⟩ := clampI_mem (lo := -(2 ^ 39)) (hi := 2 ^ 39 - 1) (by decide) i
  exact ⟨hlo, Int.lt_of_le_sub_one hhi⟩

theorem sat40_of_mem {i : Int} (hlo : -(2 ^ 39) ≤ i) (hhi : i < 2 ^ 39) : sat40 i = i :=
  clampI_of_mem hlo (Int.le_sub_one_of_lt hhi)

/-- A Q15 value brought to Q30 and back is itself. -/
theorem roundEven_q30 (x : Int) : roundEven (x * 2 ^ 15) (2 ^ 15) = x := by
  obtain ⟨hlo, hhi⟩ := roundEven_near (x * 2 ^ 15) (b := 2 ^ 15) (by decide)
  omega

/-! ### The parts of a computation -/

/-- What the limits and SLEW of slot `c` leave of output `u` after the output `held` (R142). -/
def LoopSlot.limited (c : LoopSlot) (held u : Int) : Int :=
  if c.slew = 0 then clampI c.outMin.toInt c.outMax.toInt u
  else clampI (held - c.slew.toNat) (held + c.slew.toNat) (clampI c.outMin.toInt c.outMax.toInt u)

section
variable {c : LoopSlot} {held : Int}

theorem limited_mem (u : Int) (hslew : c.slew = 0) (h : c.outMin.toInt ≤ c.outMax.toInt) :
    c.outMin.toInt ≤ c.limited held u ∧ c.limited held u ≤ c.outMax.toInt := by
  rw [LoopSlot.limited, if_pos hslew]
  exact clampI_mem h u

theorem limited_near (u : Int) (hslew : c.slew ≠ 0) : held - c.slew.toNat ≤ c.limited held u ∧ c.limited held u ≤ held + c.slew.toNat := by
  rw [LoopSlot.limited, if_neg hslew]
  exact clampI_mem (by omega) _

/-- An output within the limits that stands as it did passes them. -/
theorem limited_held (hlo : c.outMin.toInt ≤ held) (hhi : held ≤ c.outMax.toInt) : c.limited held held = held := by
  rw [LoopSlot.limited, clampI_of_mem hlo hhi, clampI_of_mem (by omega) (by omega), ite_self]

end

section
variable (c k : LoopSlot) (r tSp y n ff tOut : Int) (acq : Nat)

theorem loopLaw_ePrev : (loopLaw c k r tSp y n ff tOut acq).ePrev = sat16 (r + tSp - y) := rfl
theorem loopLaw_preset : (loopLaw c k r tSp y n ff tOut acq).preset = false := rfl

theorem loopLaw_df_off (h : c.dEn = false) : (loopLaw c k r tSp y n ff tOut acq).df = k.df := if_neg (Bool.eq_false_iff.mp h)

/-- The integral is preset, kept at a limit, or grows by n_beats·ki·e (R142, R144, R147). -/
theorem loopLaw_integ : (loopLaw c k r tSp y n ff tOut acq).integ =
    if k.preset then sat40 (k.out * 2 ^ 15 - (lawTerms c k acq (sat16 (r - y))).1 - (lawTerms c k acq (sat16 (r - y))).2.2 - ff * 2 ^ 15)
    else if LoopSlot.heldByLimit { k with outMin := c.outMin, outMax := c.outMax, ki := c.ki } acq (sat16 (r + tSp - y)) then k.integ
    else sat40 (k.integ + n * coefMul c.ki acq (sat16 (r + tSp - y))) := rfl

/-- An integral within 40 bits stays so. -/
theorem loopLaw_integ_mem (h : -(2 ^ 39) ≤ k.integ ∧ k.integ < 2 ^ 39) :
    -(2 ^ 39) ≤ (loopLaw c k r tSp y n ff tOut acq).integ ∧ (loopLaw c k r tSp y n ff tOut acq).integ < 2 ^ 39 := by
  rw [loopLaw_integ]
  split
  · exact sat40_mem _
  · split
    · exact h
    · exact sat40_mem _

/-- The output is the sum of the terms, rounded to Q15, with the test signal, under the limits (R142). -/
theorem loopLaw_out : (loopLaw c k r tSp y n ff tOut acq).out =
    c.limited k.out (roundEven (sat40 ((lawTerms c k acq (sat16 (r + tSp - y))).1 + (loopLaw c k r tSp y n ff tOut acq).integ +
      (lawTerms c k acq (sat16 (r + tSp - y))).2.2 + ff * 2 ^ 15)) (2 ^ 15) + tOut) := rfl

end

/-- The previous output stands at a limit, and ki·e drives it on (R144). -/
theorem heldByLimit_iff {k : LoopSlot} {acq : Nat} {e : Int} : k.heldByLimit acq e = true ↔
    k.out = k.outMax.toInt ∧ 0 < coefMul k.ki acq e ∨ k.out = k.outMin.toInt ∧ coefMul k.ki acq e < 0 := by
  simp [LoopSlot.heldByLimit]

section
variable {c k : LoopSlot} {r tSp y : Int} {acq : Nat}

/-- A loop at a limit that ki·e pushes further keeps its integral (R144). -/
theorem loopLaw_keepsIntegral (n ff tOut : Int) (hpre : k.preset = false)
    (h : k.out = c.outMax.toInt ∧ 0 < coefMul c.ki acq (sat16 (r + tSp - y)) ∨ k.out = c.outMin.toInt ∧ coefMul c.ki acq (sat16 (r + tSp - y)) < 0) :
    (loopLaw c k r tSp y n ff tOut acq).integ = k.integ := by
  have hheld : LoopSlot.heldByLimit { k with outMin := c.outMin, outMax := c.outMax, ki := c.ki } acq (sat16 (r + tSp - y)) = true :=
    heldByLimit_iff.mpr h
  rw [loopLaw_integ, if_neg (Bool.eq_false_iff.mp hpre), if_pos hheld]

/-- A bumpless preset that fits the accumulator makes the terms add up to the held output (R147). -/
theorem loopLaw_preset_out (n : Int) {ff : Int} (hpre : k.preset = true) (hlo : c.outMin.toInt ≤ k.out) (hhi : k.out ≤ c.outMax.toInt)
    (hfit : sat40 (k.out * 2 ^ 15 - (lawTerms c k acq (sat16 (r - y))).1 - (lawTerms c k acq (sat16 (r - y))).2.2 - ff * 2 ^ 15) =
      k.out * 2 ^ 15 - (lawTerms c k acq (sat16 (r - y))).1 - (lawTerms c k acq (sat16 (r - y))).2.2 - ff * 2 ^ 15) :
    (loopLaw c k r 0 y n ff 0 acq).out = k.out := by
  have hmin := c.outMin.le_toInt
  have hmax := c.outMax.toInt_lt
  have hsum (p d f : Int) : p + (k.out * 2 ^ 15 - p - d - f) + d + f = k.out * 2 ^ 15 := by omega
  have hacc : sat40 (k.out * 2 ^ 15) = k.out * 2 ^ 15 := sat40_of_mem (by omega) (by omega)
  rw [loopLaw_out, loopLaw_integ, if_pos hpre, hfit, Int.add_zero r, hsum, hacc, roundEven_q30, Int.add_zero, limited_held hlo hhi]

end

/-- Settles O20: each part of a computation by its equation, the limits and the slew by what they leave of an output. -/
theorem loopLawKeepsLimits : Obligations.LoopLawKeepsLimits := by
  refine ⟨fun c k r tSp y n ff tOut acq => ?_, fun c k r y n ff acq => loopLaw_preset_out n⟩
  obtain ⟨hlow, hhigh⟩ := loopLaw_integ_mem c { k with integ := sat40 k.integ } r tSp y n ff tOut acq (sat40_mem _)
  exact ⟨loopLaw_ePrev .., fun hslew h => limited_mem _ hslew h, fun hslew => (limited_near _ hslew).symm, hlow, hhigh,
    fun hpre hout hv => loopLaw_keepsIntegral n ff tOut hpre (.inl ⟨hout, hv⟩), fun hpre hout hv => loopLaw_keepsIntegral n ff tOut hpre (.inr ⟨hout, hv⟩),
    loopLaw_df_off c k r tSp y n ff tOut acq, loopLaw_preset ..⟩

end Sys2Proof.Machine
end

section
/-! Freezing of a loop slot: the writes that ask for it, the refusal in service, the release (R147, R148). -/

namespace Sys2Proof.Machine

open Sys2Proof State

section
variable {s : State} {n : Nat}

theorem freezeRefused_inService (hkind : slotKind s n = 1 ∨ slotKind s n = 2) (hband : bandInService s (slotField n s.tim.beat) (slotBand n) = true) :
    freezeRefused s n = true := by
  rcases hkind with h | h <;> simp [freezeRefused, h, hband]

/-- A write of the whole first word of a slot sets each of its fields (R162), with what R147 to R149 refuse. -/
theorem lpFreezeWrite_word (w : BitVec 32) (h : n < 8192) :
    exec (.lpFreezeWrite n w) s = .next (s.setLoop n { s.loop n with
      kind := if n % 512 < 295 ∨ 8 ≤ bits w.toNat 0 4 then (s.loop n).kind else bits w.toNat 0 4
      spSrc := spSrcTaken s n (bits w.toNat 16 2), dEn := w.getLsbD 18, freeze := w.getLsbD 19 && !freezeRefused s n, bumpless := w.getLsbD 20 }) := by
  have hkind : bits (BitVec.allOnes 32).toNat 0 4 = 15 := by decide
  have hsrc : bits (BitVec.allOnes 32).toNat 16 2 = 3 := by decide
  have hdEn : bit (BitVec.allOnes 32).toNat 18 = true := by decide
  have hfreeze : bit (BitVec.allOnes 32).toNat 19 = true := by decide
  have hbumpless : bit (BitVec.allOnes 32).toNat 20 = true := by decide
  refine congrArg Host.Outcome.next ((if_pos h).trans ?_)
  simp only [writeSlotWord0, hkind, hsrc, hdEn, hfreeze, hbumpless, bit_toNat, ne_eq, not_true_eq_false, false_or, if_true]

/-- `loop.freeze` of a slot whose band is in service is refused (R148). -/
theorem loopFreeze_refused {k : Nat} {c : Cmd} (h : Taken s k 0x0D03 c) (hn : c.at 16 2 < 8192) (hz : c.at 18 46 = 0)
    (hkind : slotKind s (c.at 16 2) ≠ 0) (hrefused : freezeRefused s (c.at 16 2) = true) :
    exec (.loopFreeze k) s = .next (finishCmd k { status := stBusy } s) := by
  refine congrArg Host.Outcome.next (runCmd_refused h ?_ rfl)
  simp [slotChecks, hz, hkind, hrefused, Nat.not_lt.mpr (Nat.le_of_lt_succ hn), Reply.no]

theorem loopFreezeTimeout_releases (hfrozen : (s.loop n).frozen = true) (hfreeze : (s.loop n).freeze = true)
    (hlate : (s.loop n).frozenAt + 64 ≤ s.tim.beat) :
    exec (.loopFreezeTimeout n) s = .next (post 0x0D01 (leBytes 2 n) (s.setLoop n { s.loop n with freeze := false })) :=
  congrArg Host.Outcome.next (if_pos ⟨hfrozen, hfreeze, hlate⟩)

/-- The edge that ends a freeze clears FROZEN; the presets of a bias slot's loops leave it so. -/
theorem freezeEdge_releases (hfrozen : (s.loop n).frozen = true) (hfreeze : (s.loop n).freeze = false) :
    ((freezeEdge n s).loop n).frozen = false := by
  have hpreset (t : State) (i : Nat) (ht : (t.loop n).frozen = false) :
      ((t.modLoop (8192 + 16 * n + i) (fun k => { k with preset := true })).loop n).frozen = false := by
    rw [modLoop_eq, loop_setLoop_ne _ _ _ _ (by omega), ht]
  simp only [freezeEdge, hfrozen, hfreeze, Bool.false_and, Bool.not_false, Bool.and_self, Bool.false_eq_true, if_false, if_true]
  split
  · exact foldl_inv (fun (t : State) => (t.loop n).frozen = false) _ hpreset _ _ (by rw [loop_setLoop])
  · rw [loop_setLoop]

end

/-- Settles O22: both ways to ask for a freeze meet the same refusal; the timeout takes the request away, and the edge then the freeze. -/
theorem freezeIsRefusedInServiceAndTimesOut : Obligations.FreezeIsRefusedInServiceAndTimesOut := by
  refine ⟨fun s n w hn hkind hband => ?_, ?_, fun s n => loopFreezeTimeout_releases, fun s n => freezeEdge_releases⟩
  · refine ⟨_, lpFreezeWrite_word w hn, ?_⟩
    simp only [loop_setLoop, freezeRefused_inService hkind hband, Bool.not_true, Bool.and_false, and_self]
  · rintro s k c n htaken rfl hn hz hkind hband
    have hloop : slotKind s (c.at 16 2) ≠ 0 := by omega
    exact ⟨_, loopFreeze_refused htaken hn hz hloop (freezeRefused_inService hkind hband), answered_finish _ _ _ _ rfl, rfl⟩

end Sys2Proof.Machine
end

section
/-! The coolant reading and thermal pauses: what an event posts, what a COOLPWM window gives, and how a pause starts and ends (R151, R158). -/

namespace Sys2Proof.Machine

open Sys2Proof State

/-! ### What posting an event changes (R382, R397) -/

/-- `t` is `s` but for what sending events writes: rings in host memory, mailboxes, MSI-X. -/
def EventsOnly (s t : State) : Prop := ∃ h b w, t = { s with hostMem := h, mbs := b, stw := w }

theorem EventsOnly.frame {s t : State} (h : EventsOnly s t) : t = { s with hostMem := t.hostMem, mbs := t.mbs, stw := t.stw } := by
  obtain ⟨_, _, _, rfl⟩ := h
  rfl

theorem EventsOnly.send {s t : State} (h : EventsOnly s t) (v : Nat) : EventsOnly s (msix v t) := by
  obtain ⟨_, _, _, rfl⟩ := h
  unfold msix
  split
  · split
    · exact ⟨_, _, _, rfl⟩
    · exact ⟨_, _, _, rfl⟩
  · exact ⟨_, _, _, rfl⟩

theorem eventTo_eventsOnly (code : Nat) (items : List Byte) (s : State) (m : Nat) : EventsOnly s (eventTo code items s m) := by
  unfold eventTo
  dsimp only
  split
  · exact ⟨_, _, _, rfl⟩
  split
  · exact ⟨_, _, _, rfl⟩
  split
  · exact EventsOnly.send ⟨_, _, _, rfl⟩ _
  · exact ⟨_, _, _, rfl⟩

theorem post_eventsOnly (code : Nat) (items : List Byte) (s : State) : EventsOnly s (post code items s) := by
  unfold post
  split
  · exact ⟨_, _, _, rfl⟩
  · refine foldl_inv (EventsOnly s) _ (fun t m ht => ?_) _ s ⟨_, _, _, rfl⟩
    obtain ⟨_, _, _, rfl⟩ := ht
    obtain ⟨_, _, _, hsend⟩ := eventTo_eventsOnly code items _ m
    exact ⟨_, _, _, hsend⟩

/-! ### The coolant reading (R151) -/

/-- The coolant reading of a COOLPWM window of `high` 10-ns units high, in 1/256 °C (R151). -/
def coolReading (high : Nat) : Int := roundEven (28800 * ((high : Int) - 6400)) 64000

/-- The loop engine after a good COOLPWM window: the reading, and both flags clear. -/
def LoopEng.reads (e : LoopEng) (high : Nat) : LoopEng := { e with bad := false, pwmLost := false, goodRun := [], coolT := coolReading high }

theorem coolReading_mem {high : Nat} (hlo : 6400 ≤ high) (hhi : high ≤ 57600) : 0 ≤ coolReading high ∧ coolReading high ≤ 90 * 256 := by
  obtain ⟨hlow, hhigh⟩ := roundEven_near (28800 * ((high : Int) - 6400)) (b := 64000) (by decide)
  unfold coolReading
  omega

section
variable {s : State} {high : Nat}

theorem coolpwmWindow_good (hsrc : s.eng.src = 2) (hlo : 6400 ≤ high) (hhi : high ≤ 57600) : exec (.coolpwmWindow high) s =
    .next (if s.eng.bad then post 0x0904 [] { s with eng := s.eng.reads high } else { s with eng := s.eng.reads high }) := by
  have hscale : (high : Int) * 225 * 128 - 6400 * 225 * 128 = 28800 * ((high : Int) - 6400) := by omega
  refine congrArg Host.Outcome.next ((if_neg (not_not_intro hsrc)).trans ((if_neg (by omega)).trans ?_))
  simp only [hscale, LoopEng.reads, coolReading]

theorem coolpwmWindow_outside (hsrc : s.eng.src = 2) (hout : high < 6400 ∨ 57600 < high) : exec (.coolpwmWindow high) s = .next (coolBad s) :=
  congrArg Host.Outcome.next ((if_neg (not_not_intro hsrc)).trans (if_pos hout))

theorem coolBad_eng (s : State) : (coolBad s).eng = { s.eng with bad := true, goodRun := [] } := by
  unfold coolBad
  dsimp only
  split
  · rfl
  · rw [post_eng]

theorem coolantPwmLost_flags (hsrc : s.eng.src = 2) : exec .coolantPwmLost s =
    .next (if s.eng.pwmLost then { s with eng := { s.eng with pwmLost := true, bad := true, goodRun := [] } }
      else post 0x0905 [] { s with eng := { s.eng with pwmLost := true, bad := true, goodRun := [] } }) :=
  congrArg Host.Outcome.next (if_neg (not_not_intro hsrc))

theorem coolpwm_otherSource (high : Nat) (hsrc : s.eng.src ≠ 2) : exec (.coolpwmWindow high) s = .next s ∧ exec .coolantPwmLost s = .next s :=
  ⟨congrArg Host.Outcome.next (if_pos hsrc), congrArg Host.Outcome.next (if_pos hsrc)⟩

theorem coolpwmWindow_reads (hsrc : s.eng.src = 2) (hlo : 6400 ≤ high) (hhi : high ≤ 57600) :
    Completes (.coolpwmWindow high) s (fun t => t.eng.coolT = coolReading high ∧ t.eng.bad = false ∧ t.eng.pwmLost = false ∧
      t = { s with eng := t.eng, hostMem := t.hostMem, mbs := t.mbs, stw := t.stw } ∧ (s.eng.bad = false → t = { s with eng := t.eng })) := by
  refine ⟨_, coolpwmWindow_good hsrc hlo hhi, ?_⟩
  cases hbad : s.eng.bad with
  | false => exact ⟨rfl, rfl, rfl, rfl, fun _ => rfl⟩
  | true =>
    have heng := post_eng 0x0904 [] { s with eng := s.eng.reads high }
    have hframe := (post_eventsOnly 0x0904 [] { s with eng := s.eng.reads high }).frame
    rw [if_pos rfl, heng]
    exact ⟨rfl, rfl, rfl, hframe, nofun⟩

theorem coolpwmWindow_holds (hsrc : s.eng.src = 2) (hout : high < 6400 ∨ 57600 < high) :
    Completes (.coolpwmWindow high) s (fun t => t.eng.coolT = s.eng.coolT ∧ t.eng.bad = true ∧ t.eng.pwmLost = s.eng.pwmLost) := by
  refine ⟨_, coolpwmWindow_outside hsrc hout, ?_⟩
  simp only [coolBad_eng, and_self]

theorem coolantPwmLost_reports (hsrc : s.eng.src = 2) :
    Completes .coolantPwmLost s (fun t => t.eng.pwmLost = true ∧ t.eng.bad = true ∧ t.eng.coolT = s.eng.coolT ∧
      (s.eng.pwmLost = false → t = post 0x0905 [] { s with eng := t.eng })) := by
  refine ⟨_, coolantPwmLost_flags hsrc, ?_⟩
  cases hlost : s.eng.pwmLost with
  | false =>
    rw [if_neg Bool.false_ne_true, post_eng]
    exact ⟨rfl, rfl, rfl, fun _ => rfl⟩
  | true => exact ⟨rfl, rfl, rfl, nofun⟩

end

/-! ### Procedures that a band is sent to -/

/-- `t` has the fields and the bands of `s`. -/
structure SameBands (s t : State) : Prop where
  fields : t.fields = s.fields
  bands : t.bands = s.bands

theorem clearDrive_sameBands (i : Nat) (s : State) : SameBands s (clearDrive i s) := by
  unfold clearDrive
  refine foldl_inv (SameBands s) _ (fun t g ht => ?_) _ s ⟨rfl, rfl⟩
  exact ⟨ht.fields, ht.bands⟩

theorem calCmdEnd_sameBands (k : Nat) (s : State) : SameBands s (calCmdEnd k s) := by
  unfold calCmdEnd
  split
  · exact ⟨rfl, rfl⟩
  · split
    · exact ⟨finishCmd_fields _ _ _, finishCmd_bands _ _ _⟩
    · exact ⟨rfl, rfl⟩

/-- A band loses its procedures, and no other band or field changes (R170). -/
theorem dropProc_sameBands (i : Nat) (s : State) : SameBands (s.setBand i { (s.band i).fresh with queue := [], cmd := none }) (dropProc i s) := by
  obtain ⟨hfields, hbands⟩ := clearDrive_sameBands i (s.setBand i { (s.band i).fresh with queue := [], cmd := none })
  unfold dropProc
  dsimp only
  split
  · exact ⟨(calCmdEnd_sameBands _ _).fields.trans hfields, (calCmdEnd_sameBands _ _).bands.trans hbands⟩
  · exact ⟨hfields, hbands⟩

/-- The queue of a band that is to run procedures; no procedure runs on it until the edge (R170). -/
theorem startProc_band (f b proc : Nat) (rest : List Nat) (cmd : Option Nat) (s : State) (j : Nat) : (startProc f b proc rest cmd s).band j =
    if j = 8 * f + b then { (s.band (8 * f + b)).fresh with queue := proc :: rest, cmd := cmd } else s.band j := by
  have hbands := (dropProc_sameBands (8 * f + b) s).bands
  rw [startProc, band_modBand, band_congr _ _ hbands, band_congr _ _ hbands, band_setBand, band_setBand, if_pos rfl]
  split <;> rfl

theorem startProc_fields (f b proc : Nat) (rest : List Nat) (cmd : Option Nat) (s : State) : (startProc f b proc rest cmd s).fields = s.fields := by
  rw [startProc, modBand_fields, (dropProc_sameBands _ _).fields, setBand_fields]

/-! ### Thermal pauses (R158) -/

/-- Bands of field `f` in service that have not locked. -/
def looseBands (s : State) (f : Nat) : List Nat := (List.range 8).filter (fun b => bandInService s f b && !bandLocked s f b)

theorem mem_looseBands {s : State} {f b : Nat} : b ∈ looseBands s f ↔ b < 8 ∧ bandInService s f b = true ∧ bandLocked s f b = false := by
  simp [looseBands]

/-- The bands of a field on the way to calibration at the end of its pause. -/
def calibrateBands (f : Nat) (l : List Nat) (s : State) : State := l.foldl (fun (s : State) b => startProc f b 1 [] none s) s

/-- Each band of the list has the procedure queued, and none runs. -/
theorem calibrateBands_band {f b : Nat} {l : List Nat} (hb : b ∈ l) (s : State) :
    ((calibrateBands f l s).band (8 * f + b)).queue = [1] ∧ ((calibrateBands f l s).band (8 * f + b)).proc = 0 := by
  refine foldl_reaches (I := fun _ => True) (Q := fun (t : State) => (t.band (8 * f + b)).queue = [1] ∧ (t.band (8 * f + b)).proc = 0) hb
    (fun _ _ _ => trivial) (fun t _ => ?_) (fun t b' ht => ?_) s trivial
  · rw [startProc_band, if_pos rfl]
    exact ⟨rfl, rfl⟩
  · rw [startProc_band]
    split
    · exact ⟨rfl, rfl⟩
    · exact ht

theorem calibrateBands_fields (f : Nat) (l : List Nat) (s : State) : (calibrateBands f l s).fields = s.fields :=
  foldl_keep State.fields _ (fun _ _ => startProc_fields _ _ _ _ _ _) l s

section
variable {s : State} {f : Nat}

theorem thermalPauseStart_asks (hf : f < 32) (hslew : 7864 < (s.field f).slew) (hpause : (s.field f).thPause = false) :
    exec (.thermalPauseStart f) s = .next (s.setField f { s.field f with thPauseReq := true }) :=
  congrArg Host.Outcome.next (if_pos ⟨hf, hslew, by rw [hpause]; rfl⟩)

theorem thermalPauseStart_calm (hslew : (s.field f).slew ≤ 7864) : exec (.thermalPauseStart f) s = .next s :=
  congrArg Host.Outcome.next (if_neg fun h => Nat.not_lt.mpr hslew h.2.1)

/-- A pause of 5 beats ends once no band is loose, and one of 20 beats with the loose bands sent to calibration. -/
theorem thermalPauseEnd_ends (hpause : (s.field f).thPause = true) (h5 : (s.field f).thPauseAt + 5 ≤ s.tim.beat)
    (hend : looseBands s f = [] ∨ (s.field f).thPauseAt + 20 ≤ s.tim.beat) :
    exec (.thermalPauseEnd f) s = .next (post 0x0902 (leBytes 1 f ++ leBytes 2 (s.tim.beat - (s.field f).thPauseAt))
      (calibrateBands f (looseBands s f) (s.setField f { s.field f with thPause := false }))) :=
  congrArg Host.Outcome.next (if_pos ⟨hpause, Nat.le_sub_of_add_le' h5, hend.imp_right Nat.le_sub_of_add_le'⟩)

theorem thermalPauseEnd_early (h : s.tim.beat < (s.field f).thPauseAt + 5) : exec (.thermalPauseEnd f) s = .next s :=
  congrArg Host.Outcome.next (if_neg fun hend => by omega)

theorem thermalPauseEnd_locked (hpause : (s.field f).thPause = true) (h5 : (s.field f).thPauseAt + 5 ≤ s.tim.beat)
    (hlocked : ∀ b, b < 8 → bandInService s f b = true → bandLocked s f b = true) :
    exec (.thermalPauseEnd f) s = .next (post 0x0902 (leBytes 1 f ++ leBytes 2 (s.tim.beat - (s.field f).thPauseAt))
      (s.setField f { s.field f with thPause := false })) := by
  have hnone : looseBands s f = [] := List.eq_nil_iff_forall_not_mem.mpr fun b hb => by
    obtain ⟨hb8, hin, hloose⟩ := mem_looseBands.mp hb
    exact Bool.false_ne_true (hloose.symm.trans (hlocked b hb8 hin))
  rw [thermalPauseEnd_ends hpause h5 (.inl hnone), hnone]
  rfl

theorem thermalPauseEnd_loose {b : Nat} (hpause : (s.field f).thPause = true) (h20 : (s.field f).thPauseAt + 20 ≤ s.tim.beat) (hb : b < 8)
    (hin : bandInService s f b = true) (hloose : bandLocked s f b = false) :
    Completes (.thermalPauseEnd f) s (fun t => (t.field f).thPause = false ∧ (t.band (8 * f + b)).queue = [1] ∧ (t.band (8 * f + b)).proc = 0) := by
  refine ⟨_, thermalPauseEnd_ends hpause (by omega) (.inr h20), ?_, ?_⟩
  · rw [field_congr _ _ (post_fields _ _ _), field_congr _ _ (calibrateBands_fields _ _ _), field_setField, if_pos rfl]
  · rw [band_congr _ _ (post_bands _ _ _)]
    exact calibrateBands_band (mem_looseBands.mpr ⟨hb, hin, hloose⟩) _

end

/-- Settles O19: COOLPWM by what a window and its loss leave of the coolant reading, a pause by the ways in which it starts and ends. -/
theorem coolantAndThermalPauseAct : Obligations.CoolantAndThermalPauseAct :=
  ⟨fun _ _ => coolpwmWindow_reads, fun _ _ => coolpwmWindow_holds, fun _ => coolantPwmLost_reports, fun _ => coolpwm_otherSource, fun _ => coolReading_mem,
    fun _ _ => thermalPauseStart_asks, fun _ _ => thermalPauseStart_calm, fun _ _ => thermalPauseEnd_locked, fun _ _ _ => thermalPauseEnd_loose,
    fun _ _ => thermalPauseEnd_early⟩

end Sys2Proof.Machine
end

section
/-! The points of a calibration procedure: what the two runs of a point lead to, and what a calibration slot's samples make of a run (R171, R175 to R181). -/

namespace Sys2Proof.Machine

open Sys2Proof State

/-! ### Tables in which accepted values stand -/

theorem tget_tins_tdel {α : Type} (d : α) (t : Tab α) (j k : Nat) (v : α) : tget d (tins j v (tdel t j)) k = if k = j then v else tget d t k := by
  split
  next h => rw [h, tget_tins_self _ _ _ _ (tdel_not_mem t j)]
  next h => rw [tget_tins_ne _ _ _ _ _ h, tget_tdel, if_neg h]

/-- In a list of distinct keys a key has one entry. -/
theorem eq_of_key_eq {α : Type} {l : List (Nat × α)} (hnodup : (l.map Prod.fst).Nodup) {v w : Nat × α} (hv : v ∈ l) (hw : w ∈ l) (h : v.1 = w.1) : v = w := by
  induction l with
  | nil => cases hv
  | cons e l ih =>
    obtain ⟨he, hnodup⟩ := List.nodup_cons.mp hnodup
    rcases List.mem_cons.mp hv with rfl | hvl
    · rcases List.mem_cons.mp hw with rfl | hwl
      · rfl
      · exact absurd (h ▸ List.mem_map_of_mem hwl) he
    · rcases List.mem_cons.mp hw with rfl | hwl
      · exact absurd (h ▸ List.mem_map_of_mem hvl) he
      · exact ih hnodup hvl hwl

/-- The accepted values with those of `vals` among them, the later of two for one quantity in force. -/
def keepValues (vals : List (Nat × Int)) (t : Tab Int) : Tab Int := vals.foldl (fun t v => tins v.1 v.2 (tdel t v.1)) t

/-- Of distinct quantities each has its value. -/
theorem tget_keepValues {vals : List (Nat × Int)} (hnodup : (vals.map Prod.fst).Nodup) {v : Nat × Int} (hv : v ∈ vals) (t : Tab Int) :
    tget 0 (keepValues vals t) v.1 = v.2 := by
  refine foldl_reaches_mem (I := fun _ => True) (Q := fun t : Tab Int => tget 0 t v.1 = v.2) hv (fun _ _ _ => trivial) (fun t _ => ?_) (fun t w hw hne ht => ?_)
    trivial
  · rw [tget_tins_tdel, if_pos rfl]
  · rw [tget_tins_tdel, if_neg fun h => hne (eq_of_key_eq hnodup hw hv h.symm), ht]

/-- The quantities of a point with the mean of their two estimates (R175). -/
def means (q : List PointEst) : List (Nat × Int) := q.map (fun p => (p.key, calMean p.first p.second))

theorem means_keys (q : List PointEst) : (means q).map Prod.fst = q.map (fun p => p.key) := by
  rw [means, List.map_map]
  rfl

/-! ### Both runs of a point complete (R175 to R177) -/

/-- The values of a point that wait for the halt: none of a point that confirms a null. -/
def keptOf (x : Band) (q : List PointEst) : List (Nat × Int) := if x.proc = 2 ∧ 257 ≤ x.point ∧ x.point < 514 then [] else means q

theorem keptOf_means {x : Band} (h : ¬(x.proc = 2 ∧ 257 ≤ x.point ∧ x.point < 514)) (q : List PointEst) : keptOf x q = means q := if_neg h

/-- Estimates of a point whose means lie in their limits, but for responses and for a point that confirms a null, break no limit. -/
theorem keptOf_inRange {s : State} {x : Band} {q : List PointEst}
    (h : ∀ p, p ∈ q → (x.proc = 2 ∧ 257 ≤ x.point ∧ x.point < 514) ∨ 14 ≤ p.key % 16 ∨ calInRange s p.key (calMean p.first p.second) = true) :
    ((keptOf x q).filter (fun v => decide (v.1 % 16 < 14))).find? (fun v => !calInRange s v.1 v.2) = none := by
  unfold keptOf
  split
  next => rfl
  next hconfirms =>
    refine List.find?_eq_none.mpr fun v hv => ?_
    obtain ⟨hv, hlow⟩ := List.mem_filter.mp hv
    obtain ⟨p, hp, rfl⟩ := List.mem_map.mp hv
    rcases h p hp with hconf | hhigh | hin
    · exact absurd hconf hconfirms
    · exact absurd (of_decide_eq_true hlow) (Nat.not_lt.mpr hhigh)
    · simp only [hin, Bool.not_true, Bool.false_eq_true, not_false_eq_true]

/-- The time in ns at which the slots of band `i`'s field stand (R20, R172). -/
def bandTime (s : State) (i : Nat) : Nat := 1000 * s.tim.beat + (s.field (i / 8)).slotT / 10

/-- From `s` to `t` the procedure of band `i` is done, the next in the order of acceptance, and no other band or value changes (R180). -/
structure Finished (i : Nat) (s t : State) : Prop where
  done : (t.band i).done = true
  doneAt : (t.band i).doneAt = s.cal.accepts
  cal : t.cal = { s.cal with accepts := s.cal.accepts + 1 }
  others : ∀ j, j ≠ i → t.band j = s.band j

section
variable {s : State} {i : Nat} {q : List PointEst} {x : Band} (hx : s.band i = x)
include hx

theorem takePoint_disagrees {p : PointEst} (hfail : q.find? (pairFails s x.proc x.point q) = some p) :
    takePoint i q s = if 3 ≤ x.repeats then failQuantity i x.proc p.key s else s.setBand i { x with repeats := x.repeats + 1, symbols := 0 } := by
  subst hx
  simp only [takePoint, hfail]

theorem takePoint_recentres {v : Nat × Int} (hok : q.find? (pairFails s x.proc x.point q) = none) (hlo : x.proc = 1 ∧ x.point = 4)
    (hv : (means q).find? (beyondCentre s x) = some v) (hmoves : x.moves < 2) :
    takePoint i q s = s.setBand i { x with
      moves := x.moves + 1, symbols := 0, repeats := 0
      pend := (means q).foldl (fun t v => tins v.1 (moveCentre s x v).2 (tdel t v.1)) x.pend } := by
  subst hx
  simp only [means] at hv
  simp only [takePoint, hok, if_pos hlo, hv, if_neg (Nat.not_le.mpr hmoves), means]

theorem takePoint_passes (hok : q.find? (pairFails s x.proc x.point q) = none) (hlo : ¬(x.proc = 1 ∧ x.point = 4))
    (hin : ∀ p, p ∈ q → (x.proc = 2 ∧ 257 ≤ x.point ∧ x.point < 514) ∨ 14 ≤ p.key % 16 ∨ calInRange s p.key (calMean p.first p.second) = true) :
    takePoint i q s =
      if x.point = lastPoint x.proc then finishProc i (keptOf x q) s else nextPoint i (bandTime s i) (keptOf x q) s := by
  have hkept := keptOf_inRange hin
  subst hx
  simp only [keptOf, means] at hkept
  simp only [takePoint, hok, if_neg hlo, hkept, bandTime, keptOf, means]

theorem finishProc_finished {vals : List (Nat × Int)}
    (hin : ∀ v, v ∈ procValues s (i / 8) (i % 8) x.proc (x.pend ++ vals) → calInRange s v.1 v.2 = true) : Finished i s (finishProc i vals s) := by
  subst hx
  have hnone : (procValues s (i / 8) (i % 8) (s.band i).proc ((s.band i).pend ++ vals)).find? (fun v => !calInRange s v.1 v.2) = none :=
    List.find?_eq_none.mpr fun v hv => by simp only [hin v hv, Bool.not_true, Bool.false_eq_true, not_false_eq_true]
  simp only [finishProc, hnone]
  have hown (v : Band) : (s.setBand i v).band i = v := (band_setBand s i i v).trans (if_pos rfl)
  exact ⟨congrArg Band.done (hown _), congrArg Band.doneAt (hown _), rfl, fun j hj => (band_setBand s i j _).trans (if_neg hj)⟩

theorem takeQuick_passes (hok : ∀ p, p ∈ q → calAgree p.key p.first p.second = true ∧ calInRange s p.key (calMean p.first p.second) = true) :
    takeQuick i q s = s.setBand i { x with
      qg := if x.qgPoint = 3 then 2 else 1, qgPoint := if x.qgPoint = 3 then 3 else x.qgPoint + 1, qgSymbols := 0, qgRepeats := 0
      qgPend := keepValues (means q) x.qgPend } := by
  subst hx
  have hagree : q.find? (fun p => !calAgree p.key p.first p.second) = none :=
    List.find?_eq_none.mpr fun p hp => by simp only [(hok p hp).1, Bool.not_true, Bool.false_eq_true, not_false_eq_true]
  have hin : (q.map (fun p => (p.key, calMean p.first p.second))).find? (fun v => !calInRange s v.1 v.2) = none :=
    List.find?_eq_none.mpr fun v hv => by
      obtain ⟨p, hp, rfl⟩ := List.mem_map.mp hv
      simp only [(hok p hp).2, Bool.not_true, Bool.false_eq_true, not_false_eq_true]
  simp only [takeQuick, hagree, hin, keepValues, means]

end

/-! ### CAL_RUN_COMPLETE (R175, R179, R180) -/

theorem band_index {f b : Nat} (hb : b < 8) : (8 * f + b) / 8 = f ∧ (8 * f + b) % 8 = b := by omega

section
variable {s : State} {f b : Nat} {q l : List PointEst} {x : Band} (hx : s.band (8 * f + b) = x) (hf : f < 32) (hb : b < 8)
  (hout : bandOut s (8 * f + b) = false) (hrefv : s.cal.refvOk = true)
include hx hf hb hout hrefv

theorem calRunComplete_takesQuick (hqg : x.qg = 1) (hsymbols : 8192 ≤ x.qgSymbols) (hanswers : answers (quickKeys f b x.qgPoint (calColours s f)) q = some l) :
    exec (.calRunComplete f b q) s = .next (takeQuick (8 * f + b) l s) := by
  subst hx
  refine congrArg Host.Outcome.next ((if_neg ?_).trans ((if_pos ⟨hqg, hsymbols⟩).trans ?_))
  · simp only [hout, hrefv, Bool.false_eq_true, Bool.true_eq_false, or_false, not_or]
    omega
  · rw [hanswers]

/-- A quick gain point whose estimates agree and lie in their limits is passed (R179). -/
theorem calRunComplete_passesQuick (hqg : x.qg = 1) (hsymbols : 8192 ≤ x.qgSymbols)
    (hanswers : answers (quickKeys f b x.qgPoint (calColours s f)) q = some l)
    (hok : ∀ p, p ∈ l → calAgree p.key p.first p.second = true ∧ calInRange s p.key (calMean p.first p.second) = true) :
    Completes (.calRunComplete f b q) s (fun t => t = s.setBand (8 * f + b) (t.band (8 * f + b)) ∧
      (t.band (8 * f + b)).qg = (if x.qgPoint = 3 then 2 else 1) ∧
      (x.qgPoint ≠ 3 → (t.band (8 * f + b)).qgPoint = x.qgPoint + 1) ∧ (t.band (8 * f + b)).qgSymbols = 0) := by
  refine ⟨_, (calRunComplete_takesQuick hx hf hb hout hrefv hqg hsymbols hanswers).trans (congrArg _ (takeQuick_passes hx hok)), ?_⟩
  simp only [band_setBand, if_true, true_and, and_true]
  exact fun h => if_neg h

variable (hqg : x.qg ≠ 1) (hproc : x.proc ≠ 0) (hopen : x.done = false) (hpaused : fieldPaused s f = false)
  (hsymbols : 2 * runLength x.proc x.point ≤ x.symbols) (hanswers : answers (pointKeys f b x.proc x.point (calColours s f)) q = some l)
include hqg hproc hopen hpaused hsymbols hanswers

theorem calRunComplete_takesPoint : exec (.calRunComplete f b q) s = .next (takePoint (8 * f + b) l s) := by
  subst hx
  refine congrArg Host.Outcome.next ((if_neg ?_).trans ((if_neg fun h => hqg h.1).trans ((if_neg ?_).trans ?_)))
  · simp only [hout, hrefv, Bool.false_eq_true, Bool.true_eq_false, or_false, not_or]
    omega
  · simp only [hproc, hopen, hpaused, Bool.false_eq_true, false_or]
    omega
  · rw [hanswers]

/-- Estimates that pass are kept for the halt, and the next point begins (R175, R180). -/
theorem calRunComplete_keepsPoint (hnodup : (l.map (fun p => p.key)).Nodup) (hok : l.find? (pairFails s x.proc x.point l) = none)
    (hlo : ¬(x.proc = 1 ∧ x.point = 4)) (hlast : x.point ≠ lastPoint x.proc)
    (hin : ∀ p, p ∈ l → (x.proc = 2 ∧ 257 ≤ x.point ∧ x.point < 514) ∨ 14 ≤ p.key % 16 ∨ calInRange s p.key (calMean p.first p.second) = true) :
    Completes (.calRunComplete f b q) s (fun t => t = s.setBand (8 * f + b) (t.band (8 * f + b)) ∧ (t.band (8 * f + b)).point = x.point + 1 ∧
      (t.band (8 * f + b)).symbols = 0 ∧ (t.band (8 * f + b)).repeats = 0 ∧ (t.band (8 * f + b)).done = false ∧ (t.band (8 * f + b)).proc = x.proc ∧
      (¬(x.proc = 2 ∧ 257 ≤ x.point ∧ x.point < 514) → ∀ p, p ∈ l → tget 0 (t.band (8 * f + b)).pend p.key = calMean p.first p.second)) := by
  have hnext := (takePoint_passes hx hok hlo hin).trans (if_neg hlast)
  refine ⟨_, (calRunComplete_takesPoint hx hf hb hout hrefv hqg hproc hopen hpaused hsymbols hanswers).trans (congrArg _ hnext), ?_⟩
  simp only [nextPoint, hx, band_setBand, if_true, true_and]
  refine ⟨hopen, fun hconfirms p hp => ?_⟩
  rw [keptOf_means hconfirms]
  exact tget_keepValues (v := (p.key, calMean p.first p.second)) (vals := means l) (by rwa [means_keys]) (List.mem_map.mpr ⟨p, hp, rfl⟩) x.pend

/-- After its last point the procedure is done, and waits for the halt (R180). -/
theorem calRunComplete_finishes (hok : l.find? (pairFails s x.proc x.point l) = none) (hlo : ¬(x.proc = 1 ∧ x.point = 4))
    (hlast : x.point = lastPoint x.proc) (hin : ∀ p, p ∈ l → 14 ≤ p.key % 16 ∨ calInRange s p.key (calMean p.first p.second) = true)
    (hvalues : ∀ v, v ∈ procValues s f b x.proc (x.pend ++ means l) → calInRange s v.1 v.2 = true) :
    Completes (.calRunComplete f b q) s (fun t => (t.band (8 * f + b)).done = true ∧ (t.band (8 * f + b)).doneAt = s.cal.accepts ∧
      t.cal = { s.cal with accepts := s.cal.accepts + 1 } ∧ (∀ j, j ≠ 8 * f + b → t.band j = s.band j)) := by
  have hconfirms : ¬(x.proc = 2 ∧ 257 ≤ x.point ∧ x.point < 514) := by
    rintro ⟨htwo, -, hless⟩
    rw [hlast, htwo] at hless
    exact absurd hless (by decide)
  obtain ⟨hdiv, hmod⟩ := band_index (f := f) hb
  have hfinish : takePoint (8 * f + b) l s = finishProc (8 * f + b) (means l) s := by
    rw [takePoint_passes hx hok hlo fun p hp => .inr (hin p hp), if_pos hlast, keptOf_means hconfirms]
  have hdone : Finished (8 * f + b) s (finishProc (8 * f + b) (means l) s) := finishProc_finished hx (by rwa [hdiv, hmod])
  exact ⟨_, (calRunComplete_takesPoint hx hf hb hout hrefv hqg hproc hopen hpaused hsymbols hanswers).trans (congrArg _ hfinish),
    hdone.done, hdone.doneAt, hdone.cal, hdone.others⟩

/-- Estimates that disagree repeat the point, and after three repeats fail the quantity (R175, R177). -/
theorem calRunComplete_repeats {p : PointEst} (hfail : l.find? (pairFails s x.proc x.point l) = some p) :
    exec (.calRunComplete f b q) s = .next (if 3 ≤ x.repeats then failQuantity (8 * f + b) x.proc p.key s
      else s.setBand (8 * f + b) { x with repeats := x.repeats + 1, symbols := 0 }) := by
  rw [calRunComplete_takesPoint hx hf hb hout hrefv hqg hproc hopen hpaused hsymbols hanswers, takePoint_disagrees hx hfail]

/-- A vertex beyond 20 mrad of the LO phase point moves the centre, twice at most (R175). -/
theorem calRunComplete_recentres {v : Nat × Int} (hlo : x.proc = 1 ∧ x.point = 4) (hok : l.find? (pairFails s x.proc x.point l) = none)
    (hv : (means l).find? (beyondCentre s x) = some v) (hmoves : x.moves < 2) :
    Completes (.calRunComplete f b q) s (fun t => (t.band (8 * f + b)).moves = x.moves + 1 ∧ (t.band (8 * f + b)).point = 4 ∧
      (t.band (8 * f + b)).symbols = 0 ∧ t.cal = s.cal) := by
  refine ⟨_, (calRunComplete_takesPoint hx hf hb hout hrefv hqg hproc hopen hpaused hsymbols hanswers).trans
    (congrArg _ (takePoint_recentres hx hok hlo hv hmoves)), ?_⟩
  simp only [band_setBand, if_true, true_and]
  exact ⟨hlo.2, rfl⟩

end

/-- Of a band that is out, without REFV, or that runs neither a quick gain nor a procedure, the row leaves the state as it is. -/
theorem calRunComplete_stays {s : State} {f b : Nat} (q : List PointEst)
    (h : 32 ≤ f ∨ 8 ≤ b ∨ bandOut s (8 * f + b) = true ∨ s.cal.refvOk = false ∨
      ((s.band (8 * f + b)).qg ≠ 1 ∧ ((s.band (8 * f + b)).proc = 0 ∨ (s.band (8 * f + b)).done = true))) :
    exec (.calRunComplete f b q) s = .next s := by
  by_cases hshut : 32 ≤ f ∨ 8 ≤ b ∨ bandOut s (8 * f + b) = true ∨ s.cal.refvOk = false
  · exact congrArg Host.Outcome.next (if_pos hshut)
  · have hcases : (32 ≤ f ∨ 8 ≤ b ∨ bandOut s (8 * f + b) = true ∨ s.cal.refvOk = false) ∨
        ((s.band (8 * f + b)).qg ≠ 1 ∧ ((s.band (8 * f + b)).proc = 0 ∨ (s.band (8 * f + b)).done = true)) := by
      simpa only [or_assoc] using h
    obtain ⟨hqg, hidle⟩ := hcases.resolve_left hshut
    exact congrArg Host.Outcome.next ((if_neg hshut).trans ((if_neg fun h => hqg h.1).trans (if_pos (hidle.imp_right .inl))))

/-! ### Samples of a run (R171, R176) -/

section
variable {s : State} {k i len start : Nat} {x : Band} (hx : s.band i = x) (hlen : len = runLength x.proc x.point) (hstart : start = runStart x.symbols len)
include hx hlen hstart

theorem addSymbols_ends_void (hend : start + len ≤ x.symbols + k) : addSymbols k true i s = voidRun i start s := by
  subst hx hlen hstart
  exact if_pos ⟨Nat.min_eq_right hend, by rw [Bool.or_true, Bool.true_or]⟩

theorem addSymbols_repeats (hend : start + len ≤ x.symbols + k) (hvoids : x.voids < 15) :
    addSymbols k true i s = s.setBand i { x with voids := x.voids + 1, symbols := start, marred := false } := by
  rw [addSymbols_ends_void hx hlen hstart hend, voidRun, hx, if_neg (by omega)]

/-- The sixteenth void run abandons the procedure, and the band returns with what it held (R176, R181). -/
theorem addSymbols_abandons (hend : start + len ≤ x.symbols + k) (hvoids : 15 ≤ x.voids) :
    ((addSymbols k true i s).band i).proc = 0 ∧ ((addSymbols k true i s).band i).pend = [] ∧ ((addSymbols k true i s).band i).back = true := by
  have hvoid := addSymbols_ends_void hx hlen hstart hend
  subst hx
  have hband : (addSymbols k true i s).band i = { (s.band i).fresh with queue := [], cmd := none, back := true } := by
    rw [hvoid, voidRun, if_pos (by omega), postAbandoned, band_congr _ _ (post_bands _ _ _), abandonProc,
      band_modBand, if_pos rfl, band_congr _ _ (dropProc_sameBands i s).bands, band_setBand, if_pos rfl]
  rw [hband]
  exact ⟨rfl, rfl, rfl⟩

theorem addSymbols_counts (hclean : x.marred = false) (hbeat : beatMarred s (i / 8) = false) :
    addSymbols k false i s = s.setBand i { x with symbols := min (x.symbols + k) (start + len) } := by
  subst hx hlen hstart
  simp only [addSymbols, hclean, hbeat, Bool.or_false, Bool.false_eq_true, and_false, if_false, Bool.false_and]

end

/-- Settles O23: CAL_RUN_COMPLETE by the way in which the two runs of a point end, a run by the way in which a slot's samples end it. -/
theorem calibrationPointIsKeptUntilTheHalt : Obligations.CalibrationPointIsKeptUntilTheHalt := by
  refine ⟨fun _ _ _ _ _ _ hx hf hb hout hrefv => calRunComplete_keepsPoint hx hf hb hout hrefv,
    fun _ _ _ _ _ _ hx hf hb hout hrefv => calRunComplete_finishes hx hf hb hout hrefv,
    fun _ _ _ _ _ _ _ hx hf hb hout hrefv hqg hproc hopen hpaused hsymbols hanswers =>
      calRunComplete_repeats hx hf hb hout hrefv hqg hproc hopen hpaused hsymbols hanswers, ?_,
    fun _ _ _ _ _ _ hx hf hb hout hrefv => calRunComplete_passesQuick hx hf hb hout hrefv,
    fun _ _ _ q => calRunComplete_stays q, fun _ _ _ _ _ _ => addSymbols_repeats, fun _ _ _ _ _ _ => addSymbols_abandons,
    fun _ _ _ _ _ _ => addSymbols_counts⟩
  intro s f b q l v x hx hf hb hout hrefv hqg hproc hpoint hopen hpaused hsymbols hanswers hok hv hmoves
  refine calRunComplete_recentres hx hf hb hout hrefv hqg (by omega) hopen hpaused ?_ ?_ ⟨hproc, hpoint⟩ ?_ hv hmoves
  · rw [hproc, hpoint]
    exact hsymbols
  · rwa [hproc, hpoint]
  · rwa [hproc, hpoint]

end Sys2Proof.Machine
end

section
/-! Procedures that bands are sent to: what a start leaves of a state, the jobs of a tick of the cadence and of `cal.run` (R170, R184, R189). -/

namespace Sys2Proof.Machine

open Sys2Proof State

/-! ### The start of a procedure (R170, R173, R181) -/

/-- `t` is `s` but for the commands, the bands, the drives of LO phase shifters and the phase trims that the bands hold. -/
structure ProcsOnly (s t : State) : Prop where
  rest : ∃ c b l r, t = { s with cmds := c, bands := b, loops := l, cal := { s.cal with trims := r } }
  loops : ∀ j, j < driveKey 0 → t.loop j = s.loop j

section
variable {s t u : State}

theorem ProcsOnly.refl (s : State) : ProcsOnly s s := ⟨⟨_, _, _, _, rfl⟩, fun _ _ => rfl⟩

theorem ProcsOnly.trans (h : ProcsOnly s t) (h' : ProcsOnly t u) : ProcsOnly s u := by
  refine ⟨?_, fun j hj => (h'.loops j hj).trans (h.loops j hj)⟩
  obtain ⟨_, _, _, _, rfl⟩ := h.rest
  obtain ⟨_, _, _, _, rfl⟩ := h'.rest
  exact ⟨_, _, _, _, rfl⟩

theorem ProcsOnly.foldl {α : Type} {f : State → α → State} (h : ∀ s a, ProcsOnly s (f s a)) (l : List α) (s : State) : ProcsOnly s (l.foldl f s) :=
  foldl_inv (ProcsOnly s) f (fun t a ht => ht.trans (h t a)) l s (.refl s)

theorem ProcsOnly.frame (h : ProcsOnly s t) :
    t = { s with cmds := t.cmds, bands := t.bands, loops := t.loops, cal := { s.cal with trims := t.cal.trims } } := by
  obtain ⟨_, _, _, _, rfl⟩ := h.rest
  rfl

end

theorem setBand_procsOnly (s : State) (i : Nat) (x : Band) : ProcsOnly s (s.setBand i x) := ⟨⟨_, _, _, _, rfl⟩, fun _ _ => rfl⟩

theorem clearDrive_procsOnly (i : Nat) (s : State) : ProcsOnly s (clearDrive i s) :=
  .foldl (fun s g => ⟨⟨_, _, _, _, rfl⟩, fun j hj => loop_setLoop_ne s _ j _ (by simp only [driveKey] at hj ⊢; omega)⟩) _ _

theorem restoreTrims_procsOnly (keys : List Nat) (s : State) : ProcsOnly s (restoreTrims keys s) := ⟨⟨_, _, _, _, rfl⟩, fun _ _ => rfl⟩

theorem modCmd_procsOnly (k : Nat) (g : Cmd → Cmd) (s : State) : ProcsOnly s (modCmd k g s) := ⟨⟨_, _, _, _, rfl⟩, fun _ _ => rfl⟩

theorem calCmdEnd_procsOnly (k : Nat) (s : State) : ProcsOnly s (calCmdEnd k s) := by
  unfold calCmdEnd
  split
  · exact .refl s
  · split
    · exact modCmd_procsOnly _ _ _
    · exact .refl s

/-- What a band gives up with its procedures, before the command that waits for them hears of it. -/
def leaveProc (i : Nat) (s : State) : State :=
  restoreTrims ((s.band i).pend.map Prod.fst) (clearDrive i (s.setBand i { (s.band i).fresh with queue := [], cmd := none }))

theorem leaveProc_procsOnly (i : Nat) (s : State) : ProcsOnly s (leaveProc i s) :=
  ((setBand_procsOnly s i _).trans (clearDrive_procsOnly i _)).trans (restoreTrims_procsOnly _ _)

theorem dropProc_procsOnly (i : Nat) (s : State) : ProcsOnly s (dropProc i s) := by
  unfold dropProc
  dsimp only
  split
  · exact ((leaveProc_procsOnly i s).trans (modCmd_procsOnly _ _ _)).trans (calCmdEnd_procsOnly _ _)
  · exact leaveProc_procsOnly i s

theorem startProc_procsOnly (f b proc : Nat) (rest : List Nat) (cmd : Option Nat) (s : State) : ProcsOnly s (startProc f b proc rest cmd s) :=
  (dropProc_procsOnly _ s).trans (setBand_procsOnly _ _ _)

theorem leaveProc_cmds (i : Nat) (s : State) : (leaveProc i s).cmds = s.cmds := by
  rw [leaveProc, restoreTrims]
  refine (foldl_cmds _ _ _ fun t g => ?_).trans (setBand_cmds _ _ _)
  rw [setLoop_cmds]

/-- On a band that no command waits for a start leaves the commands alone. -/
theorem startProc_cmds (f b proc : Nat) (rest : List Nat) (cmd : Option Nat) {s : State} (h : (s.band (8 * f + b)).cmd = none) :
    (startProc f b proc rest cmd s).cmds = s.cmds := by
  rw [startProc, modBand_cmds, dropProc]
  simp only [h]
  exact leaveProc_cmds _ s

theorem startProc_own (f b proc : Nat) (rest : List Nat) (cmd : Option Nat) (s : State) :
    (startProc f b proc rest cmd s).band (8 * f + b) = { (s.band (8 * f + b)).fresh with queue := proc :: rest, cmd := cmd } := by
  rw [startProc_band, if_pos rfl]

theorem startProc_other (f b proc : Nat) (rest : List Nat) (cmd : Option Nat) (s : State) {j : Nat} (h : j ≠ 8 * f + b) :
    (startProc f b proc rest cmd s).band j = s.band j := by
  rw [startProc_band, if_neg h]

/-! ### A tick of the cadence (R184) -/

/-- Band `b` of field `f` can take a procedure (R184). -/
def bandFree (s : State) (f b : Nat) : Bool := !bandOut s (8 * f + b) && !bandBusy (s.band (8 * f + b)) && (s.field f).kaCheck.isNone

/-- The procedures that a tick gives band `b`: the first and those behind it (R184). -/
def tickProcs (deep : Bool) (b : Nat) : Nat × List Nat := if deep then (if b = 0 then (3, [2, 1]) else (2, [1])) else (1, [])

/-- A tick of band number `b`, as state `s` has it, on field `f` (R184). -/
def tickField (s : State) (b : Nat) (deep : Bool) (t : State) (f : Nat) : State :=
  if bandFree s f b then startProc f b (tickProcs deep b).1 (tickProcs deep b).2 none t
  else match (if deep ∧ b = 0 then (List.range 8).find? (bandFree s f) else none) with
    | some c => startProc f c 3 [] none t
    | none => t

/-- The lit fields of partition `p`. -/
def litFields (s : State) (p : Nat) : List Nat := (fieldsOfPart s p).filter (fun f => (s.field f).lit)

/-- A tick of band number `b` on the lit fields of partition `p`. -/
def tickFields (s : State) (p b : Nat) (deep : Bool) : State := (litFields s p).foldl (tickField s b deep) s

theorem calCadenceTick_due {s : State} {p b : Nat} {deep : Bool} (hp : p < s.net.parts) (hsched : s.cal.scheduled.getLsbD p = false)
    (hrefv : s.cal.refvOk = true) (hdue : tget 0 s.cal.cadAt p + 1000000 ≤ s.tim.beat) (hb : tget 0 s.cal.cadNext p = b)
    (hdeep : deep = decide (tget 0 s.cal.deepAt p + 225000000 ≤ s.tim.beat)) :
    exec (.calCadenceTick p) s = .next { tickFields s p b deep with cal := { (tickFields s p b deep).cal with
      cadNext := tset 0 (tickFields s p b deep).cal.cadNext p ((b + 1) % 8)
      cadAt := tset 0 (tickFields s p b deep).cal.cadAt p (tickFields s p b deep).tim.beat
      deepAt := if deep then tset 0 (tickFields s p b deep).cal.deepAt p (tickFields s p b deep).tim.beat else (tickFields s p b deep).cal.deepAt } } := by
  have hopen : ¬(s.net.parts ≤ p ∨ s.cal.scheduled.getLsbD p = true ∨ s.cal.refvOk = false ∨ s.tim.beat < tget 0 s.cal.cadAt p + 1000000) := by
    simp only [hsched, hrefv, Bool.false_eq_true, Bool.true_eq_false, false_or, not_or]
    omega
  change execCalCadenceTick p s = _
  rw [execCalCadenceTick, if_neg hopen, hb, ← hdeep]
  rfl

section
variable {s : State} {b : Nat} {deep : Bool}

theorem tickField_free {f : Nat} (h : bandFree s f b = true) (t : State) :
    tickField s b deep t f = startProc f b (tickProcs deep b).1 (tickProcs deep b).2 none t := if_pos h

theorem tickField_row {f c : Nat} (hdeep : deep = true) (hb : b = 0) (hbusy : bandFree s f b = false) (hc : (List.range 8).find? (bandFree s f) = some c)
    (t : State) : tickField s b deep t f = startProc f c 3 [] none t := by
  rw [tickField, if_neg (ne_true_of_eq_false hbusy), if_pos ⟨hdeep, hb⟩, hc]

theorem tickField_procsOnly (t : State) (f : Nat) : ProcsOnly t (tickField s b deep t f) := by
  unfold tickField
  split
  · exact startProc_procsOnly _ _ _ _ _ _
  · split
    · exact startProc_procsOnly _ _ _ _ _ _
    · exact .refl t

/-- A tick on field `f` leaves the bands that are not of number `b`, for number 0 the bands of other fields. -/
theorem tickField_other {f j : Nat} (hj : j ≠ 8 * f + b) (hzero : b = 0 → j / 8 ≠ f) (t : State) : (tickField s b deep t f).band j = t.band j := by
  unfold tickField
  split
  · exact startProc_other _ _ _ _ _ _ hj
  · split
    next c hc =>
      obtain ⟨⟨-, hb⟩, hc⟩ := Option.ite_none_right_eq_some.mp hc
      have hc8 := List.mem_range.mp (List.mem_of_find?_eq_some hc)
      exact startProc_other _ _ _ _ _ _ fun h => hzero hb (by omega)
    next => rfl

theorem tickFields_procsOnly (p : Nat) : ProcsOnly s (tickFields s p b deep) := .foldl tickField_procsOnly _ _

/-- A band that the tick gives a queue in its own field has it in the end. -/
theorem tickFields_queue {p f j : Nat} {l : List Nat} (hf : f ∈ litFields s p) (hown : ∀ t, ((tickField s b deep t f).band j).queue = l)
    (hj : ∀ g, g ≠ f → j ≠ 8 * g + b) (hzero : b = 0 → j / 8 = f) : ((tickFields s p b deep).band j).queue = l := by
  refine foldl_reaches_mem (I := fun _ => True) (Q := fun t => (t.band j).queue = l) hf (fun _ _ _ => trivial) (fun t _ => hown t)
    (fun t g _ hg ht => ?_) trivial
  rw [tickField_other (hj g hg) fun hb heq => hg (heq.symm.trans (hzero hb)), ht]

end

theorem tickProcs_queue (deep : Bool) (b : Nat) :
    (tickProcs deep b).1 :: (tickProcs deep b).2 = if deep = true then (if b = 0 then [3, 2, 1] else [2, 1]) else [1] := by
  unfold tickProcs
  split
  · split <;> rfl
  · rfl

theorem calCadenceTick_schedules {s : State} {p b : Nat} {deep : Bool} (hp : p < s.net.parts) (hsched : s.cal.scheduled.getLsbD p = false)
    (hrefv : s.cal.refvOk = true) (hdue : tget 0 s.cal.cadAt p + 1000000 ≤ s.tim.beat) (hb : tget 0 s.cal.cadNext p = b)
    (hdeep : deep = decide (tget 0 s.cal.deepAt p + 225000000 ≤ s.tim.beat)) :
    Completes (.calCadenceTick p) s (fun t => tget 0 t.cal.cadNext p = (b + 1) % 8 ∧ tget 0 t.cal.cadAt p = s.tim.beat ∧
      tget 0 t.cal.deepAt p = (if deep then s.tim.beat else tget 0 s.cal.deepAt p) ∧ t.cal.user = s.cal.user ∧ t.fields = s.fields ∧
      (∀ f, f ∈ fieldsOfPart s p → (s.field f).lit = true → bandOut s (8 * f + b) = false → bandBusy (s.band (8 * f + b)) = false →
        (s.field f).kaCheck = none →
        (t.band (8 * f + b)).queue = if deep = true then (if b = 0 then [3, 2, 1] else [2, 1]) else [1]) ∧
      ∀ f c, f ∈ fieldsOfPart s p → (s.field f).lit = true → deep = true → b = 0 → bandOut s (8 * f) = true ∨ bandBusy (s.band (8 * f)) = true →
        (s.field f).kaCheck = none →
        (List.range 8).find? (fun c => !bandOut s (8 * f + c) && !bandBusy (s.band (8 * f + c))) = some c → (t.band (8 * f + c)).queue = [3]) := by
  refine ⟨_, calCadenceTick_due hp hsched hrefv hdue hb hdeep, ?_⟩
  have hframe := (tickFields_procsOnly (s := s) (b := b) (deep := deep) p).frame
  have htim : (tickFields s p b deep).tim = s.tim := by rw [hframe]
  have huser : (tickFields s p b deep).cal.user = s.cal.user := by rw [hframe]
  have hfields : (tickFields s p b deep).fields = s.fields := by rw [hframe]
  have hdeepAt : (tickFields s p b deep).cal.deepAt = s.cal.deepAt := by rw [hframe]
  refine ⟨(tget_tset _ _ _ _ _).trans (if_pos rfl), ?_, ?_, ?_, ?_, fun f hf hlit hin hidle hka => ?_, fun f c hf hlit hd hzero hbusy hka hc => ?_⟩
  · rw [tget_tset, if_pos rfl, htim]
  · cases deep with
    | true => exact (tget_tset _ _ _ _ _).trans ((if_pos rfl).trans (congrArg Tim.beat htim))
    | false => exact congrArg (tget 0 · p) hdeepAt
  · exact huser
  · exact hfields
  · have hfree : bandFree s f b = true := by simp only [bandFree, hin, hidle, hka, Option.isNone_none, Bool.not_false, Bool.and_self]
    refine tickFields_queue (List.mem_filter.mpr ⟨hf, hlit⟩) (fun t => ?_) (fun g hg => by omega) (fun hb0 => by omega)
    rw [tickField_free hfree, startProc_own]
    exact tickProcs_queue deep b
  · have hfind : (List.range 8).find? (bandFree s f) = some c := by
      rw [← hc]
      exact congrArg (List.find? · (List.range 8)) (funext fun c => by rw [bandFree, hka, Option.isNone_none, Bool.and_true])
    have hc8 := List.mem_range.mp (List.mem_of_find?_eq_some hc)
    have htaken : bandFree s f b = false := by
      rw [hzero, bandFree, Nat.add_zero]
      rcases hbusy with h | h <;> simp only [h, Bool.not_true, Bool.false_and, Bool.and_false]
    refine tickFields_queue (List.mem_filter.mpr ⟨hf, hlit⟩) (fun t => ?_) (fun g hg => by omega) (fun _ => by omega)
    rw [tickField_row hd hzero htaken hfind, startProc_own]

end Sys2Proof.Machine
end

section
/-! The calibration commands (R167, R185, R187 to R189). -/

namespace Sys2Proof.Machine

open Sys2Proof State

/-! ### Masks (R405) -/

theorem leNat_lt (l : List Byte) : leNat l < 256 ^ l.length := by
  induction l with
  | nil => exact Nat.one_pos
  | cons b l ih =>
    rw [leNat, List.length_cons, Nat.pow_succ]
    omega

theorem cmdAt_lt (c : Cmd) (i n : Nat) : c.at i n < 256 ^ n := by
  have hbytes (l : List Byte) (i : Nat) : bytesAt l i n < 256 ^ n :=
    Nat.lt_of_lt_of_le (leNat_lt _) (Nat.pow_le_pow_right (by decide) (List.length_take_le _ _))
  unfold Cmd.at
  split
  · exact hbytes _ _
  · exact hbytes _ _

theorem bit_eq_testBit (m i : Nat) : bit m i = m.testBit i := by
  rw [Nat.testBit_eq_decide_div_mod_eq, bit]
  rfl

theorem mem_maskList {n m i : Nat} : i ∈ maskList n m ↔ i < n ∧ bit m i = true := by
  rw [maskList, List.mem_filter, List.mem_range]

theorem maskList_nodup (n m : Nat) : (maskList n m).Nodup := List.Pairwise.filter _ List.nodup_range

/-- A mask of `n` bits that is not zero names a member. -/
theorem exists_mem_maskList {n m : Nat} (h0 : m ≠ 0) (h : m < 2 ^ n) : ∃ i, i ∈ maskList n m := by
  obtain ⟨i, hi⟩ := Nat.exists_testBit_of_ne_zero h0
  refine ⟨i, mem_maskList.mpr ⟨?_, (bit_eq_testBit m i).trans hi⟩⟩
  refine Nat.lt_of_not_le fun hn => ?_
  rw [Nat.testBit_lt_two_pow (Nat.lt_of_lt_of_le h (Nat.pow_le_pow_right (by decide) hn))] at hi
  exact Bool.false_ne_true hi

theorem mem_namedBands {fm bm i : Nat} : i ∈ namedBands fm bm ↔ ∃ f ∈ maskList 32 fm, ∃ b ∈ maskList 8 bm, 8 * f + b = i := by
  rw [namedBands, ← List.flatMap_def, List.mem_flatMap]
  simp only [List.mem_map]

theorem any_eq_false {α : Type} {p : α → Bool} {l : List α} (h : ∀ a, a ∈ l → p a = false) : l.any p = false :=
  List.any_eq_false.mpr fun a ha => ne_true_of_eq_false (h a ha)

/-! ### Fields and bands of a list that all change by one function -/

/-- Bands of a list that all change by `g`, which does so once however often a band is named. -/
theorem foldl_modBand {g : Band → Band} (hg : ∀ x, g (g x) = g x) (l : List Nat) (s : State) (j : Nat) :
    (l.foldl (fun (s : State) i => s.modBand i g) s).band j = if j ∈ l then g (s.band j) else s.band j := by
  induction l generalizing s with
  | nil => rfl
  | cons i l ih =>
    rw [List.foldl_cons, ih, band_modBand]
    by_cases hi : j = i
    · subst hi
      simp only [if_true, List.mem_cons_self, hg, ite_self]
    · simp only [hi, if_false, List.mem_cons, false_or]

theorem foldl_modBand_frame (g : Band → Band) (l : List Nat) (s : State) :
    ∃ y, l.foldl (fun (s : State) i => s.modBand i g) s = { s with bands := y } :=
  foldl_inv (fun t : State => ∃ y, t = { s with bands := y }) _ (fun t i ht => by obtain ⟨_, rfl⟩ := ht; exact ⟨_, rfl⟩) l s ⟨_, rfl⟩

/-- Fields that a list without repetition names all change by `g`. -/
theorem foldl_modField {l : List Nat} (hl : l.Nodup) (g : Field → Field) (s : State) (j : Nat) :
    (l.foldl (fun (s : State) f => s.modField f g) s).field j = if j ∈ l then g (s.field j) else s.field j :=
  foldl_field (I := fun _ => True) (fun _ _ _ => trivial) (fun s f _ => modField_onlyField s f g) hl trivial j

theorem foldl_modField_frame (g : Field → Field) (l : List Nat) (s : State) :
    ∃ x, l.foldl (fun (s : State) f => s.modField f g) s = { s with fields := x } :=
  foldl_inv (fun t : State => ∃ x, t = { s with fields := x }) _ (fun t f ht => by obtain ⟨_, rfl⟩ := ht; exact ⟨_, rfl⟩) l s ⟨_, rfl⟩

/-! ### `cal.run` (R189) -/

/-- The band of field `f` that a row calibration of `cal.run` goes through (assumption log 18). -/
def rowBand (s : State) (bm f : Nat) : Option Nat :=
  match (maskList 8 bm).find? (fun b => !bandOut s (8 * f + b)) with
  | some b => some b
  | none => (List.range 8).find? (fun b => !bandOut s (8 * f + b))

/-- The procedures that `cal.run` asks of band `b` of field `f`. -/
def jobQueue (s : State) (pr bm f b : Nat) : List Nat :=
  let own := if bit bm b then calAsked pr else []
  if (bit pr 2 && rowBand s bm f == some b) = true then 3 :: own else own

/-- The job of band `b` of field `f`, none without procedures. -/
def jobOf (s : State) (pr bm f b : Nat) : Option (Nat × List Nat) :=
  let l := jobQueue s pr bm f b
  match l with
  | [] => none
  | _ => some (8 * f + b, l)

theorem calJobs_eq (s : State) (pr fm bm : Nat) :
    calJobs s pr fm bm = (maskList 32 fm).flatMap (fun f => (List.range 8).filterMap (jobOf s pr bm f)) := by
  rw [List.flatMap_def]
  rfl

theorem jobOf_eq_some {s : State} {pr bm f b : Nat} {j : Nat × List Nat} :
    jobOf s pr bm f b = some j ↔ jobQueue s pr bm f b ≠ [] ∧ j = (8 * f + b, jobQueue s pr bm f b) := by
  unfold jobOf
  dsimp only
  cases jobQueue s pr bm f b with
  | nil => simp only [reduceCtorEq, ne_eq, not_true_eq_false, false_and]
  | cons p l => simp only [Option.some.injEq, ne_eq, reduceCtorEq, not_false_eq_true, true_and, eq_comm]

theorem mem_calJobs {s : State} {pr fm bm : Nat} {j : Nat × List Nat} :
    j ∈ calJobs s pr fm bm ↔ ∃ f ∈ maskList 32 fm, ∃ b < 8, jobQueue s pr bm f b ≠ [] ∧ j = (8 * f + b, jobQueue s pr bm f b) := by
  simp only [calJobs_eq, List.mem_flatMap, List.mem_filterMap, List.mem_range, jobOf_eq_some]

/-- No band has two jobs. -/
theorem calJobs_nodup (s : State) (pr fm bm : Nat) : ((calJobs s pr fm bm).map Prod.fst).Nodup := by
  rw [calJobs_eq, List.Nodup, List.pairwise_map, List.pairwise_flatMap]
  refine ⟨fun f _ => List.pairwise_filterMap.mpr (List.nodup_range.imp fun hne j hj j' hj' => ?_), (maskList_nodup 32 fm).imp fun hne j hj j' hj' => ?_⟩
  · obtain ⟨-, rfl⟩ := jobOf_eq_some.mp hj
    obtain ⟨-, rfl⟩ := jobOf_eq_some.mp hj'
    exact fun heq => hne (Nat.add_left_cancel heq)
  · obtain ⟨b, hb, hj⟩ := List.mem_filterMap.mp hj
    obtain ⟨b', hb', hj'⟩ := List.mem_filterMap.mp hj'
    obtain ⟨-, rfl⟩ := jobOf_eq_some.mp hj
    obtain ⟨-, rfl⟩ := jobOf_eq_some.mp hj'
    have hb := List.mem_range.mp hb
    have hb' := List.mem_range.mp hb'
    exact fun heq => hne (by dsimp only at heq; omega)

/-- A PROC asks for cell or band calibration, or for row calibration. -/
theorem calAsked_or_row : ∀ pr < 8, pr ≠ 0 → calAsked pr ≠ [] ∨ bit pr 2 = true := by decide

/-- A `cal.run` whose masks name a band, and no band that is out, has a job. -/
theorem calJobs_ne_nil {s : State} {pr fm bm f b : Nat} (hpr : pr < 8) (hpr0 : pr ≠ 0) (hf : f ∈ maskList 32 fm) (hb : b ∈ maskList 8 bm)
    (hin : ∀ i, i ∈ namedBands fm bm → bandOut s i = false) : calJobs s pr fm bm ≠ [] := by
  rcases calAsked_or_row pr hpr hpr0 with hasked | hrow
  · obtain ⟨hb8, hbit⟩ := mem_maskList.mp hb
    have hqueue : jobQueue s pr bm f b ≠ [] := by
      simp only [jobQueue, hbit, if_true]
      split
      · exact List.cons_ne_nil _ _
      · exact hasked
    exact List.ne_nil_of_mem (mem_calJobs.mpr ⟨f, hf, b, hb8, hqueue, rfl⟩)
  · have hsome : ((maskList 8 bm).find? (fun b => !bandOut s (8 * f + b))).isSome = true :=
      List.find?_isSome.mpr ⟨b, hb, by rw [hin _ (mem_namedBands.mpr ⟨f, hf, b, hb, rfl⟩), Bool.not_false]⟩
    obtain ⟨r, hr⟩ := Option.isSome_iff_exists.mp hsome
    obtain ⟨hr8, -⟩ := mem_maskList.mp (List.mem_of_find?_eq_some hr)
    have hqueue : jobQueue s pr bm f r ≠ [] := by
      simp only [jobQueue, rowBand, hrow, hr, beq_self_eq_true, Bool.and_self, if_true]
      exact List.cons_ne_nil _ _
    exact List.ne_nil_of_mem (mem_calJobs.mpr ⟨f, hf, r, hr8, hqueue, rfl⟩)

/-- The start of one job of command `k`. -/
def startJob (k : Nat) (s : State) (j : Nat × List Nat) : State := startProc (j.1 / 8) (j.1 % 8) (j.2.headD 1) (j.2.drop 1) (some k) s

section
variable (k : Nat) (s : State) (j : Nat × List Nat)

theorem startJob_procsOnly : ProcsOnly s (startJob k s j) := startProc_procsOnly _ _ _ _ _ _

theorem startJob_own (h : j.2 ≠ []) : ((startJob k s j).band j.1).queue = j.2 ∧ ((startJob k s j).band j.1).cmd = some k := by
  have hown := startProc_own (j.1 / 8) (j.1 % 8) (j.2.headD 1) (j.2.drop 1) (some k) s
  rw [Nat.div_add_mod] at hown
  rw [startJob, hown]
  obtain ⟨p, l, hl⟩ := List.exists_cons_of_ne_nil h
  rw [hl]
  exact ⟨rfl, rfl⟩

theorem startJob_other {i : Nat} (h : i ≠ j.1) : (startJob k s j).band i = s.band i :=
  startProc_other _ _ _ _ _ _ (by rwa [Nat.div_add_mod])

theorem startJob_cmds (h : (s.band j.1).cmd = none) : (startJob k s j).cmds = s.cmds :=
  startProc_cmds _ _ _ _ _ (by rwa [Nat.div_add_mod])

end

/-- Jobs of distinct bands that no command waits for leave the commands alone. -/
theorem startJobs_cmds (k : Nat) {jobs : List (Nat × List Nat)} (hnodup : (jobs.map Prod.fst).Nodup) {s : State}
    (hfree : ∀ j, j ∈ jobs → (s.band j.1).cmd = none) : (jobs.foldl (startJob k) s).cmds = s.cmds := by
  induction jobs generalizing s with
  | nil => rfl
  | cons j jobs ih =>
    obtain ⟨hj, hnodup⟩ := List.nodup_cons.mp hnodup
    rw [List.foldl_cons, ih hnodup fun j' hj' => ?_, startJob_cmds k s j (hfree j List.mem_cons_self)]
    rw [startJob_other k s j fun h => hj (h ▸ List.mem_map_of_mem hj')]
    exact hfree j' (List.mem_cons_of_mem j hj')

theorem startJobs_other (k : Nat) {jobs : List (Nat × List Nat)} {i : Nat} (hi : i ∉ jobs.map Prod.fst) (s : State) :
    (jobs.foldl (startJob k) s).band i = s.band i :=
  List.foldlRecOn (motive := fun t : State => t.band i = s.band i) jobs _ rfl fun t ht j hj =>
    (startJob_other k t j fun heq : i = j.1 => hi (heq ▸ List.mem_map_of_mem hj)).trans ht

theorem startJobs_own (k : Nat) {jobs : List (Nat × List Nat)} (hnodup : (jobs.map Prod.fst).Nodup) {j : Nat × List Nat} (hj : j ∈ jobs) (hq : j.2 ≠ [])
    (s : State) : ((jobs.foldl (startJob k) s).band j.1).queue = j.2 ∧ ((jobs.foldl (startJob k) s).band j.1).cmd = some k := by
  refine foldl_reaches_mem (I := fun _ => True) (Q := fun t : State => (t.band j.1).queue = j.2 ∧ (t.band j.1).cmd = some k) hj (fun _ _ _ => trivial)
    (fun t _ => startJob_own k t j hq) (fun t j' hj' hne ht => ?_) trivial
  rwa [startJob_other k t j' fun h => hne (eq_of_key_eq hnodup hj' hj h.symm)]

section
variable {s : State} {k : Nat} {c : Cmd} (h : Taken s k 0x0402 c) (hpr : 1 ≤ c.at 16 1) (hpr7 : c.at 16 1 ≤ 7) (hz : c.at 17 3 = 0) (hfm : c.at 20 4 ≠ 0)
  (hbm : c.at 24 1 ≠ 0) (hz' : c.at 25 39 = 0) (hfenced : ∀ f, f ∈ maskList 32 (c.at 20 4) → (s.field f).fenced = false)
  (hin : ∀ i, i ∈ namedBands (c.at 20 4) (c.at 24 1) → bandOut s i = false) (hreset : maskResetting s (c.at 20 4) = false)
  (hrefv : s.cal.refvOk = true) (hadmits : s.tim.admits = true) (hpwr : s.pwr.state = 0)
  (hidle : ∀ j, j ∈ calJobs s (c.at 16 1) (c.at 20 4) (c.at 24 1) →
    bandBusy (s.band j.1) = false ∧ (s.field (j.1 / 8)).kaCheck = none ∧ (s.band j.1).cmd = none)
include h hpr hpr7 hz hfm hbm hz' hfenced hin hreset hrefv hadmits hpwr hidle

theorem calRun_starts :
    exec (.calRun k) s = .next (startCmd k false ((calJobs s (c.at 16 1) (c.at 20 4) (c.at 24 1)).foldl (startJob k) s)) := by
  obtain ⟨f, hf⟩ := exists_mem_maskList (n := 32) hfm (cmdAt_lt c 20 4)
  obtain ⟨b, hb⟩ := exists_mem_maskList (n := 8) hbm (cmdAt_lt c 24 1)
  have hjobs := calJobs_ne_nil (Nat.lt_succ_of_le hpr7) (Nat.ne_of_gt hpr) hf hb hin
  have hnoFence := any_eq_false hfenced
  have hnoneOut := any_eq_false hin
  have hnoneBusy : (calJobs s (c.at 16 1) (c.at 20 4) (c.at 24 1)).any (fun j => bandBusy (s.band j.1) || (s.field (j.1 / 8)).kaCheck.isSome) = false :=
    any_eq_false fun j hj => by
      obtain ⟨hbusy, hka, -⟩ := hidle j hj
      rw [hbusy, hka, Option.isSome_none, Bool.or_self]
  refine congrArg Host.Outcome.next
    (runCmd_waits (r := { wait := true, commit := false }) h ?_ (if_neg fun hnil => hjobs (List.isEmpty_iff.mp hnil)) rfl)
  simp [Nat.not_lt.mpr hpr7, Nat.ne_of_gt hpr, hz, hfm, hbm, hz', hnoFence, hnoneOut, hreset, hrefv, hadmits, hpwr, hnoneBusy]

/-- `cal.run` queues its procedures on its bands and waits for them (R189). -/
theorem calRun_waits :
    Completes (.calRun k) s (fun t => Waiting t k ∧ t = { s with cmds := t.cmds, bands := t.bands, loops := t.loops, cal := { s.cal with trims := t.cal.trims } } ∧
      (∀ j, j < driveKey 0 → t.loop j = s.loop j) ∧ (∀ i, i ∉ (calJobs s (c.at 16 1) (c.at 20 4) (c.at 24 1)).map (fun j => j.1) → t.band i = s.band i) ∧
      ∀ j, j ∈ calJobs s (c.at 16 1) (c.at 20 4) (c.at 24 1) → (t.band j.1).queue = j.2 ∧ (t.band j.1).cmd = some k) := by
  have honly : ProcsOnly s (startCmd k false ((calJobs s (c.at 16 1) (c.at 20 4) (c.at 24 1)).foldl (startJob k) s)) :=
    (ProcsOnly.foldl (startJob_procsOnly k) _ s).trans (modCmd_procsOnly _ _ _)
  have hnodup := calJobs_nodup s (c.at 16 1) (c.at 20 4) (c.at 24 1)
  refine ⟨_, calRun_starts h hpr hpr7 hz hfm hbm hz' hfenced hin hreset hrefv hadmits hpwr hidle,
    waiting_start h false _ (startJobs_cmds k hnodup fun j hj => (hidle j hj).2.2), honly.frame, honly.loops, fun i hi => startJobs_other k hi s, fun j hj => ?_⟩
  obtain ⟨f, -, b, -, hq, rfl⟩ := mem_calJobs.mp hj
  exact startJobs_own k hnodup hj hq s

end

/-! ### `cal.verify` (R187, R188) -/

/-- The field that a known-answer check of command `k` has taken, and has not begun (R187). -/
def Field.checking (k : Nat) (x : Field) : Field := { x with kaCheck := some k, kaAt := 0, kaStage := 0, kaTok := 0, kaSums := [] }

/-- The field that a known-answer check has given back (R187). -/
def Field.givenBack (x : Field) : Field := { x with kaCheck := none, kaAt := 0, kaStage := 0, kaTok := 0, kaSums := [] }

/-- `t` is `s` but for the fields and the bands. -/
def FieldsAndBands (s t : State) : Prop := ∃ x y, t = { s with fields := x, bands := y }

theorem FieldsAndBands.foldl {α : Type} {f : State → α → State} (h : ∀ s a, FieldsAndBands s (f s a)) (l : List α) (s : State) :
    FieldsAndBands s (l.foldl f s) := by
  refine foldl_inv (FieldsAndBands s) f (fun t a ht => ?_) l s ⟨_, _, rfl⟩
  obtain ⟨_, _, rfl⟩ := ht
  obtain ⟨_, _, hstep⟩ := h _ a
  exact ⟨_, _, hstep⟩

/-- The return of field `f` from a known-answer check (R187). -/
def giveBack (s : State) (f : Nat) : State :=
  (List.range 8).foldl (fun (s : State) b => s.modBand (8 * f + b) (fun x => { x with back := x.proc == 0 })) (s.modField f Field.givenBack)

theorem giveBack_onlyField (s : State) (f : Nat) : OnlyField f (s.field f).givenBack s (giveBack s f) :=
  (modField_onlyField s f Field.givenBack).congr (foldl_fields _ _ _ fun _ _ => modBand_fields _ _ _)

theorem giveBack_fieldsAndBands (s : State) (f : Nat) : FieldsAndBands s (giveBack s f) := by
  obtain ⟨_, _, h⟩ := FieldsAndBands.foldl (f := fun (s : State) b => s.modBand (8 * f + b) (fun x => { x with back := x.proc == 0 }))
    (fun _ _ => ⟨_, _, rfl⟩) (List.range 8) (s.modField f Field.givenBack)
  exact ⟨_, _, h⟩

/-- The fields whose known-answer check is that of command `k`. -/
def checkedBy (k : Nat) (s : State) : List Nat := (List.range 32).filter (fun f => (s.field f).kaCheck == some k)

theorem kaEnd_eq (k : Nat) (s : State) : kaEnd k s = (checkedBy k s).foldl giveBack s := rfl

theorem kaEnd_fieldsAndBands (k : Nat) (s : State) : FieldsAndBands s (kaEnd k s) := by
  rw [kaEnd_eq]
  exact .foldl giveBack_fieldsAndBands _ _

/-- No field stays in the check of command `k` (R187). -/
theorem kaEnd_gives_back (k : Nat) (s : State) {f : Nat} (hf : f < 32) : ((kaEnd k s).field f).kaCheck ≠ some k := by
  rw [kaEnd_eq, checkedBy, foldl_field (h := Field.givenBack) (I := fun _ => True) (fun _ _ _ => trivial) (fun s f _ => giveBack_onlyField s f)
    (List.Pairwise.filter _ List.nodup_range) trivial]
  split
  next => exact nofun
  next hout => exact fun hka => hout (List.mem_filter.mpr ⟨List.mem_range.mpr hf, beq_iff_eq.mpr hka⟩)

section
variable {s : State} {k : Nat} {c : Cmd}

theorem calVerify_takes (h : Taken s k 0x0404 c) (hmode : c.at 16 1 ≤ 2) (hlicence : c.at 16 1 = 2 → licensed s 0 = true)
    (hset : (colourSet s (c.at 16 1)).isSome = true) (hhead : c.at 17 1 ≤ 3) (hz : c.at 18 2 = 0) (hfm : c.at 20 4 ≠ 0) (hz' : c.at 24 40 = 0)
    (hext : 128 * (maskList 32 (c.at 20 4)).length * (kaColours s c).length ≤ 64 * c.extLen) (hreset : maskResetting s (c.at 20 4) = false)
    (hrefv : s.cal.refvOk = true) (hadmits : s.tim.admits = true) (hpwr : s.pwr.state = 0)
    (hidle : ∀ f, f ∈ maskList 32 (c.at 20 4) → (s.field f).fenced = false ∧ (s.field f).kaCheck = none ∧ ∀ b, b < 8 → bandBusy (s.band (8 * f + b)) = false) :
    Completes (.calVerify k) s (fun t => Waiting t k ∧ t = { s with cmds := t.cmds, fields := t.fields } ∧
      (∀ f, f ∈ maskList 32 (c.at 20 4) → t.field f = (s.field f).checking k) ∧ ∀ f, f ∉ maskList 32 (c.at 20 4) → t.field f = s.field f) := by
  have hnoFence : (maskList 32 (c.at 20 4)).any (fun f => (s.field f).fenced) = false := any_eq_false fun f hf => (hidle f hf).1
  have hnoneBusy : (maskList 32 (c.at 20 4)).any (fun f => (s.field f).kaCheck.isSome || (List.range 8).any (fun b => bandBusy (s.band (8 * f + b)))) = false :=
    any_eq_false fun f hf => by
      obtain ⟨-, hka, hbands⟩ := hidle f hf
      rw [hka, any_eq_false fun b hb => hbands b (List.mem_range.mp hb), Option.isSome_none, Bool.or_self]
  have hlicensed : (c.at 16 1 == 2 && !licensed s 0) = false := by
    by_cases htwo : c.at 16 1 = 2
    · rw [hlicence htwo, Bool.not_true, Bool.and_false]
    · rw [beq_false_of_ne htwo, Bool.false_and]
  have hfresh : ¬(c.opcode = 0x0404 ∧ c.started = true ∧ (!c.decided) = true) := fun hs => Bool.false_ne_true ((taken_open h).2.symm.trans hs.2.1)
  have hexec : exec (.calVerify k) s =
      .next (startCmd k false ((maskList 32 (c.at 20 4)).foldl (fun (s : State) f => s.modField f (Field.checking k)) s)) := by
    change execCalVerify k s = _
    rw [execCalVerify, h.1]
    refine congrArg Host.Outcome.next ((if_neg hfresh).trans (runCmd_waits (r := { wait := true, commit := false }) h ?_ rfl rfl))
    simp [Cmd.extNeed, Nat.not_lt.mpr hext, hlicensed, Nat.not_lt.mpr hmode, Option.isSome_iff_ne_none.mp hset, Nat.not_lt.mpr hhead, hz, hfm, hz', hnoFence,
      hreset, hrefv, hadmits, hpwr, hnoneBusy]
  have hfield := foldl_modField (maskList_nodup 32 (c.at 20 4)) (Field.checking k) s
  obtain ⟨_, hframe⟩ := foldl_modField_frame (Field.checking k) (maskList 32 (c.at 20 4)) s
  refine ⟨_, hexec, waiting_start h false _ (by rw [hframe]), ?_, fun f hf => (hfield f).trans (if_pos hf), fun f hf => (hfield f).trans (if_neg hf)⟩
  rw [hframe]
  rfl

variable (hc : cmdOf s k = some c) (hop : c.opcode = 0x0404) (hstarted : c.started = true) (hopen : c.decided = false)
include hc hop hstarted hopen

/-- The second arrival of a `cal.verify` whose fields have all carried the nine stages answers with the records (R188). -/
theorem calVerify_ends (hstages : ∀ f, f ∈ maskList 32 (c.at 20 4) → 9 ≤ (s.field f).kaStage) :
    Completes (.calVerify k) s (fun t => Answered s t k { output := kaOutput s c } ∧ (∀ f, f < 32 → (t.field f).kaCheck ≠ some k) ∧
      t = { s with cmds := t.cmds, fields := t.fields, bands := t.bands }) := by
  have hall : (maskList 32 (c.at 20 4)).all (fun f => decide (9 ≤ (s.field f).kaStage)) = true :=
    List.all_eq_true.mpr fun f hf => decide_eq_true (hstages f hf)
  have hexec : exec (.calVerify k) s = .next (finishCmd k { output := kaOutput s c } (kaEnd k s)) := by
    change execCalVerify k s = _
    rw [execCalVerify, hc]
    exact congrArg Host.Outcome.next ((if_pos ⟨hop, hstarted, by rw [hopen]; rfl⟩).trans (if_pos hall))
  have hback := fun f (hf : f < 32) => kaEnd_gives_back k s hf
  obtain ⟨_, _, hframe⟩ := kaEnd_fieldsAndBands k s
  refine ⟨_, hexec, answered_finish _ _ _ _ (by rw [hframe]), hback, ?_⟩
  rw [hframe]
  rfl

theorem calVerify_goesOn {f : Nat} (hf : f ∈ maskList 32 (c.at 20 4)) (hstage : (s.field f).kaStage < 9) : exec (.calVerify k) s = .next s := by
  have hnotAll : ¬(maskList 32 (c.at 20 4)).all (fun f => decide (9 ≤ (s.field f).kaStage)) = true := fun hall =>
    Nat.not_le.mpr hstage (of_decide_eq_true (List.all_eq_true.mp hall f hf))
  change execCalVerify k s = _
  rw [execCalVerify, hc]
  exact congrArg Host.Outcome.next ((if_pos ⟨hop, hstarted, by rw [hopen]; rfl⟩).trans (if_neg hnotAll))

end

/-! ### The commands that act at once (R167, R185, R189) -/

section
variable {s : State} {k : Nat} {c : Cmd}

theorem calCadence_sets {p : Nat} (h : Taken s k 0x0403 c) (hp : c.at 16 1 = p) (hp4 : p < 4) (hparts : p < s.net.parts) (hon : c.at 17 1 ≤ 1)
    (hz : c.at 18 46 = 0) (hreset : resetting s p = false) :
    Completes (.calCadence k) s (fun t => Answered s t k {} ∧ t = { s with cmds := t.cmds, cal := { s.cal with
      schedNext := if c.at 17 1 = 1 then s.cal.schedNext ||| BitVec.twoPow 4 p else s.cal.schedNext &&& ~~~ BitVec.twoPow 4 p } }) := by
  subst hp
  have hbit : bit (c.at 17 1) 0 = true ↔ c.at 17 1 = 1 := by
    rw [bit, beq_iff_eq]
    omega
  refine ⟨_, congrArg Host.Outcome.next (runCmd_acts h ?_ rfl rfl), answered_finish _ _ _ _ rfl, ?_⟩
  · simp [Nat.not_lt.mpr (Nat.le_of_lt_succ hp4), Nat.not_le.mpr hparts, Nat.not_lt.mpr hon, hz, hreset]
  · simp only [hbit]
    rfl

theorem calUserClear_clears (h : Taken s k 0x0405 c) (hz : c.at 16 48 = 0)
    (hidle : (s.bands.any (fun e => e.2.proc != 0 || !e.2.queue.isEmpty || e.2.qg != 0) || s.fields.any (fun e => e.2.kaCheck.isSome)) = false) :
    Completes (.calUserClear k) s (fun t => Answered s t k {} ∧ (∀ i, (t.band i).bandAt = none ∧ (t.band i).cellAt = none) ∧ (∀ f, (t.field f).rowAt = none) ∧
      t = { s with cmds := t.cmds, bands := t.bands, fields := t.fields, cal := { s.cal with clearPend := true } }) := by
  refine ⟨_, congrArg Host.Outcome.next (runCmd_acts h ?_ rfl rfl), answered_finish _ _ _ _ rfl, fun i => ?_, fun f => ?_, rfl⟩
  · simp only [orElse_rsvd, hz, if_true, orElse_refuse, hidle, Bool.false_eq_true, if_false, orElse_nil]
  · exact tget_tmap (d := {}) (g := fun _ b => { b with bandAt := none, cellAt := none }) (P := fun b : Band => b.bandAt = none ∧ b.cellAt = none) ⟨rfl, rfl⟩
      (fun _ _ => ⟨rfl, rfl⟩) s.bands i
  · exact tget_tmap (d := {}) (g := fun _ x => { x with rowAt := none }) (P := fun x : Field => x.rowAt = none) rfl (fun _ _ => rfl) s.fields f

/-- A command that changes each band of a list by `g`, which does so once however often the list names it, and is answered. -/
theorem completes_modBands {i : Instr} {g : Band → Band} {l : List Nat} (hg : ∀ x, g (g x) = g x)
    (h : exec i s = .next (finishCmd k {} (l.foldl (fun (s : State) i => s.modBand i g) s))) :
    Completes i s (fun t => Answered s t k {} ∧ t = { s with cmds := t.cmds, bands := t.bands } ∧
      (∀ i, i ∈ l → t.band i = g (s.band i)) ∧ ∀ i, i ∉ l → t.band i = s.band i) := by
  have hband := foldl_modBand hg l s
  obtain ⟨_, hframe⟩ := foldl_modBand_frame g l s
  refine ⟨_, h, answered_finish _ _ _ _ (by rw [hframe]), ?_, fun i hi => (hband i).trans (if_pos hi), fun i hi => (hband i).trans (if_neg hi)⟩
  rw [hframe]
  rfl

/-- The band as `cal.band.hold` leaves it, and as `cal.band.release` does (R189). -/
def Band.held (b : Band) : Band := { b with hold := true, back := false }
def Band.released (b : Band) : Band := { b with hold := false, back := true }

theorem calBandHold_holds (h : Taken s k 0x0406 c) (hfm : c.at 16 4 ≠ 0) (hbm : c.at 20 1 ≠ 0) (hz : c.at 21 43 = 0)
    (hreset : maskResetting s (c.at 16 4) = false) (hfenced : ∀ f, f ∈ maskList 32 (c.at 16 4) → (s.field f).fenced = false)
    (hidle : ∀ i, i ∈ namedBands (c.at 16 4) (c.at 20 1) → bandOut s i = false ∧ (s.band i).proc = 0 ∧ (s.band i).queue = [] ∧ (s.band i).test = false ∧
      (s.field (i / 8)).kaCheck = none) :
    exec (.calBandHold k) s =
      .next (finishCmd k {} ((namedBands (c.at 16 4) (c.at 20 1)).foldl (fun (s : State) i => s.modBand i Band.held) s)) := by
  have hnoFence := any_eq_false hfenced
  have hnoneOut : (namedBands (c.at 16 4) (c.at 20 1)).any (bandOut s) = false := any_eq_false fun i hi => (hidle i hi).1
  have hnoneBusy : (namedBands (c.at 16 4) (c.at 20 1)).any (fun i => (s.band i).proc != 0 || !(s.band i).queue.isEmpty || (s.band i).test ||
      (s.field (i / 8)).kaCheck.isSome) = false := any_eq_false fun i hi => by
    obtain ⟨-, hproc, hqueue, htest, hka⟩ := hidle i hi
    rw [hproc, hqueue, htest, hka]
    rfl
  refine congrArg Host.Outcome.next (runCmd_acts h ?_ rfl rfl)
  simp [hfm, hbm, hz, hreset, hnoFence, hnoneOut, hnoneBusy]

theorem calBandRelease_releases (h : Taken s k 0x0407 c) (hfm : c.at 16 4 ≠ 0) (hbm : c.at 20 1 ≠ 0) (hz : c.at 21 43 = 0)
    (hreset : maskResetting s (c.at 16 4) = false) (hheld : ∀ i, i ∈ namedBands (c.at 16 4) (c.at 20 1) → (s.band i).hold = true) :
    exec (.calBandRelease k) s =
      .next (finishCmd k {} ((namedBands (c.at 16 4) (c.at 20 1)).foldl (fun (s : State) i => s.modBand i Band.released) s)) := by
  have hallHeld : (namedBands (c.at 16 4) (c.at 20 1)).any (fun i => !(s.band i).hold) = false := any_eq_false fun i hi => by rw [hheld i hi, Bool.not_true]
  refine congrArg Host.Outcome.next (runCmd_acts h ?_ rfl rfl)
  simp [hfm, hbm, hz, hreset, hallHeld]

end

/-- Settles O24: a tick of the cadence by the bands that it gives procedures, each command by its effect. -/
theorem calibrationIsScheduledAndCommanded : Obligations.CalibrationIsScheduledAndCommanded :=
  ⟨fun _ _ _ _ => calCadenceTick_schedules, fun _ _ _ => calRun_waits, fun _ _ _ _ => calCadence_sets, fun _ _ _ => calVerify_takes,
    fun _ _ _ => calVerify_ends, fun _ _ _ _ hc hop hstarted hopen => calVerify_goesOn hc hop hstarted hopen, fun _ _ _ => calUserClear_clears,
    fun _ _ _ h hfm hbm hz hreset hfenced hidle => completes_modBands (g := Band.held) (fun _ => rfl) (calBandHold_holds h hfm hbm hz hreset hfenced hidle),
    fun _ _ _ h hfm hbm hz hreset hheld => completes_modBands (g := Band.released) (fun _ => rfl) (calBandRelease_releases h hfm hbm hz hreset hheld)⟩

end Sys2Proof.Machine
end

section
/-! The moves: what their admission takes, the copy and the sums within the device, and the packets that leave for another one (R246, R260, R306, R361). -/

namespace Sys2Proof.Machine

open Sys2Proof State

/-! ### Ops that name no manifest entries -/

/-- Only `field.gemm`, `vec.kernel` and `tollgate` name manifest entries (R236): the body of another op's admission runs in the state as it stands. -/
theorem admitOp_runs_unlisted {s : State} {k code : Nat} {o : Op} (h : Admissible s k code o) (hcode : code ≠ 0x01 ∧ code ≠ 0x10 ∧ code ≠ 0x33)
    (body : Op → State → State) : admitOp k code body s = body o s := by
  obtain ⟨hop, rfl, hstage, hcopy, habort, hadmit, hwaits, hup, hfirst, -⟩ := h
  obtain ⟨hgemm, hkernel, hgate⟩ := hcode
  have hlist : o.mlist = (0, 0) := by
    unfold Op.mlist
    split
    · exact absurd ‹_› hgemm
    · exact absurd ‹_› hkernel
    · exact absurd ‹_› hgate
    · rfl
  simp only [admitOp, hop, hstage, hcopy, habort, hadmit, hwaits, hup, hfirst, hlist, and_self, if_true, Bool.false_eq_true, if_false, Bool.not_true]

@[simp] theorem flagIf_key (b : Bool) (i : Nat) (o : Op) : (o.flagIf b i).key = o.key := (flagIf_sameGroups b i o).key
@[simp] theorem flagIf_stage (b : Bool) (i : Nat) (o : Op) : (o.flagIf b i).stage = o.stage := by unfold Op.flagIf; split <;> rfl
@[simp] theorem flagIf_admBeat (b : Bool) (i : Nat) (o : Op) : (o.flagIf b i).admBeat = o.admBeat := by unfold Op.flagIf; split <;> rfl
@[simp] theorem flagIf_push (b : Bool) (i : Nat) (o : Op) : (o.flagIf b i).push = o.push := by unfold Op.flagIf; split <;> rfl

/-! ### Reads -/

/-- Every read of memory gives in `t` what it gives in `s`. -/
structure SameReads (s t : State) : Prop where
  net : t.net = s.net
  memTop : t.memTop = s.memTop
  units : t.units = s.units
  mem : t.mem = s.mem
  poison : t.poison = s.poison
  manifest : t.manifest = s.manifest
  acc : t.acc = s.acc

theorem SameReads.trans {s t u : State} (h : SameReads s t) (h' : SameReads t u) : SameReads s u :=
  ⟨h'.net.trans h.net, h'.memTop.trans h.memTop, h'.units.trans h.units, h'.mem.trans h.mem, h'.poison.trans h.poison, h'.manifest.trans h.manifest,
    h'.acc.trans h.acc⟩

section
variable {s t : State} (h : SameReads s t)
include h

theorem SameReads.rdByte (a : Nat) : rdByte t a = rdByte s a := by
  simp only [Machine.rdByte, locOf_congr h.net h.memTop, accCell_congr s t h.acc, entry_congr s t h.manifest, h.mem]

theorem SameReads.rdBytes (a n : Nat) : rdBytes t a n = rdBytes s a n := List.map_congr_left fun _ _ => h.rdByte _

theorem SameReads.wordBad (w : Nat) : wordBad t w = wordBad s w := by
  simp only [Machine.wordBad, locOf_congr h.net h.memTop, poisoned_congr s t h.poison, unit_congr s t h.units, accCell_congr s t h.acc]

theorem SameReads.anyBad (a n : Nat) : anyBad t a n = anyBad s a n := congrArg (wordsOf a n).any (funext h.wordBad)

end

theorem setAdmitted_sameReads (k : Nat) (s : State) : SameReads s (setAdmitted k s) := by
  obtain ⟨q, hq⟩ := setAdmitted_frame k s
  rw [hq]
  exact ⟨rfl, rfl, rfl, rfl, rfl, rfl, rfl⟩

theorem setAdmitted_noErrs {s : State} (he : s.errs = []) (k : Nat) : (setAdmitted k s).errs = [] := by
  obtain ⟨q, hq⟩ := setAdmitted_frame k s
  rw [hq]
  exact he

/-! ### Stores beside the bytes that stay -/

theorem putPoison_noErrs {s : State} (he : s.errs = []) (w : Nat) (full bad : Bool) : ∃ p, putPoison s w full bad = { s with poison := p } := by
  unfold putPoison
  split
  · exact ⟨_, rfl⟩
  · have herrs : tset (0 : BitVec 80) s.errs w 0 = s.errs := by rw [he]; rfl
    refine ⟨(s.setPoisoned w (bad || (!full && s.poisoned w))).poison, ?_⟩
    change ({ s with poison := _, errs := tset 0 s.errs w 0 } : State) = _
    rw [herrs]

/-- A write in a state without bit errors leaves none, and all but memory and its poison as they were. -/
theorem wrBytes_eq {s : State} (he : s.errs = []) (a : Nat) (l : List Byte) (bad : Nat → Bool) :
    ∃ p, wrBytes a l bad s = { s with mem := (putBytesAt s a l).mem, poison := p } := by
  unfold wrBytes
  dsimp only
  rw [foldl_fixed (f := fun s w => touch (8 * w) 8 s) (fun w => touch_noErrs he _ _)]
  refine foldl_inv (fun (t : State) => ∃ p, t = { s with mem := (putBytesAt s a l).mem, poison := p }) _ ?_ _ _ ⟨_, putBytesAt_frame s a l⟩
  rintro t w ⟨p, rfl⟩
  obtain ⟨p', hp⟩ := putPoison_noErrs (s := { s with mem := (putBytesAt s a l).mem, poison := p }) he w (wholeWord a l.length w) (bad w)
  exact ⟨p', hp⟩

/-- `t` is `s` but for memory, its poison and what the sequencer hides, and the bytes at the addresses `K` stay. -/
def StoresBeside (K : Nat → Prop) (s t : State) : Prop :=
  ∃ q m p, t = { s with seq := q, mem := m, poison := p } ∧ ∀ a, K a → Memory.read m a = Memory.read s.mem a

section
variable {K : Nat → Prop} {s t : State}

theorem StoresBeside.refl (K : Nat → Prop) (s : State) : StoresBeside K s s := ⟨_, _, _, rfl, fun _ _ => rfl⟩

theorem StoresBeside.ops (h : StoresBeside K s t) : t.ops = s.ops := by
  obtain ⟨q, m, p, rfl, -⟩ := h
  rfl

theorem StoresBeside.read (h : StoresBeside K s t) {a : Nat} (ha : K a) : Memory.read t.mem a = Memory.read s.mem a := by
  obtain ⟨q, m, p, rfl, hread⟩ := h
  exact hread a ha

theorem StoresBeside.noErrs (h : StoresBeside K s t) (he : s.errs = []) : t.errs = [] := by
  obtain ⟨q, m, p, rfl, -⟩ := h
  exact he

theorem StoresBeside.hide (h : StoresBeside K s t) (x a n : Nat) : StoresBeside K s (hide x a n t) := by
  obtain ⟨q, m, p, rfl, hread⟩ := h
  obtain ⟨q', hq⟩ := hide_frame x a n { s with seq := q, mem := m, poison := p }
  exact ⟨q', m, p, hq, hread⟩

theorem StoresBeside.wrBytes (h : StoresBeside K s t) (he : s.errs = []) {a : Nat} {l : List Byte} (hK : ∀ b, K b → b < a ∨ a + l.length ≤ b)
    (bad : Nat → Bool) : StoresBeside K s (wrBytes a l bad t) := by
  obtain ⟨p', hp⟩ := wrBytes_eq (h.noErrs he) a l bad
  obtain ⟨q, m, p, rfl, hread⟩ := h
  exact ⟨q, _, p', hp, fun b hb => (read_putBytesAt_out _ _ _ _ (hK b hb)).trans (hread b hb)⟩

theorem StoresBeside.addElem (h : StoresBeside K s t) (he : s.errs = []) {f : FpFmt} {a : Nat} (hK : ∀ b, K b → b < a ∨ a + f.width / 8 ≤ b)
    (v : List Byte) (bad : Bool) : StoresBeside K s (addElem f a v bad t).1 := by
  unfold Machine.addElem
  dsimp only
  rw [touch_noErrs (h.noErrs he)]
  exact h.wrBytes he (by rw [length_leBytes]; exact hK) _

theorem StoresBeside.addElems (h : StoresBeside K s t) (he : s.errs = []) {f : FpFmt} {a : Nat} {l : List (List Byte)}
    (hK : ∀ b, K b → b < a ∨ a + f.width / 8 * l.length ≤ b) (bad : Nat → Bool) : StoresBeside K s (addElems f bad a l t).1 := by
  induction l generalizing a t with
  | nil => exact h
  | cons v l ih =>
    simp only [List.length_cons, Nat.mul_succ] at hK
    exact ih (h.addElem he (fun b hb => by have := hK b hb; omega) v _) fun b hb => by have := hK b hb; omega

end

/-! ### The admission of a move -/

/-- The state in which a move acts: admitted, with POISON where a word of its source is poisoned (R263). -/
def moveTaken (k : Nat) (o : Op) (s : State) : State := modOp k (Op.flagIf (anyBad (setAdmitted k s) o.src o.len) fPoison) (setAdmitted k s)

section
variable {s : State} {k : Nat} {o : Op}

theorem moveTaken_frame (k : Nat) (o : Op) (s : State) : ∃ ops q, moveTaken k o s = { s with ops := ops, seq := { s.seq with rrLast := q } } := by
  obtain ⟨q, hq⟩ := setAdmitted_frame k s
  rw [moveTaken, hq]
  exact ⟨_, q, rfl⟩

theorem inStage_moveTaken (h : opOf s k = some o) : InStage (moveTaken k o s) k 2 :=
  inStage_modOp (opOf_setAdmitted h) (flagIf_key _ _) (flagIf_stage _ _ _)

theorem moveTaken_sameReads (k : Nat) (o : Op) (s : State) : SameReads s (moveTaken k o s) := by
  obtain ⟨ops, q, hq⟩ := moveTaken_frame k o s
  rw [hq]
  exact ⟨rfl, rfl, rfl, rfl, rfl, rfl, rfl⟩

theorem moveTaken_noErrs (he : s.errs = []) (k : Nat) (o : Op) : (moveTaken k o s).errs = [] := by
  obtain ⟨ops, q, hq⟩ := moveTaken_frame k o s
  rw [hq]
  exact he

/-- The op of a move within the device that has done its work and left `t`: SAT as `sat` says, POISON where a word of its destination is poisoned (R263). -/
def Op.moved (sat : Bool) (t : State) (o : Op) : Op := (Op.flagIf sat fSat { o with stage := 3 }).flagIf (anyBad t o.dst o.len) fPoison

theorem moved_key (sat : Bool) (t : State) (o : Op) : (o.moved sat t).key = o.key := by simp [Op.moved]
theorem moved_stage (sat : Bool) (t : State) (o : Op) : (o.moved sat t).stage = 3 := by simp [Op.moved]

/-- The retire point of a move within the device whose work left `t` (R260). -/
def moveDone (k : Nat) (sat : Bool) (t : State) : State := modOp k (Op.moved sat t) t

theorem runMove_copies (he : s.errs = []) (hleaves : o.leaves = false) : runMove k false o s = moveDone k false (copyMove o (moveTaken k o s)) := by
  simp only [runMove, touch_noErrs (setAdmitted_noErrs he k), hleaves, Bool.false_eq_true, if_false]
  rfl

theorem runMove_adds (he : s.errs = []) (hleaves : o.leaves = false) :
    runMove k true o s = moveDone k (addMove o (moveTaken k o s)).2 (addMove o (moveTaken k o s)).1 := by
  simp only [runMove, touch_noErrs (setAdmitted_noErrs he k), hleaves, Bool.false_eq_true, if_false, if_true]
  rfl

/-- A move to another device hands its packets to the link ports (R361). -/
theorem runMove_leaves (he : s.errs = []) (hleaves : o.leaves = true) (reduce : Bool) : runMove k reduce o s = sendMove k o (moveTaken k o s) := by
  simp only [runMove, touch_noErrs (setAdmitted_noErrs he k), hleaves, if_true]
  rfl

/-- What a move within the device leaves, when its work stores beside the bytes at `K`. -/
theorem moveDone_leaves {K : Nat → Prop} {t : State} (h : opOf s k = some o) (hwork : StoresBeside K (moveTaken k o s) t) (sat : Bool) :
    InStage (moveDone k sat t) k 3 ∧ (∀ a, K a → Memory.read (moveDone k sat t).mem a = Memory.read s.mem a) ∧
    moveDone k sat t = { s with ops := (moveDone k sat t).ops, seq := (moveDone k sat t).seq, mem := (moveDone k sat t).mem, poison := (moveDone k sat t).poison } := by
  obtain ⟨o', ho', -⟩ := inStage_moveTaken h
  obtain ⟨ops, q', htaken⟩ := moveTaken_frame k o s
  refine ⟨inStage_modOp ((opOf_congr hwork.ops k).trans ho') (moved_key sat t) (moved_stage sat t o'), ?_⟩
  rw [htaken] at hwork
  obtain ⟨q, m, p, rfl, hread⟩ := hwork
  exact ⟨hread, rfl⟩

theorem move_runs (h : Admissible s k 0x20 o) : exec (.move k) s = .next (tryMove k false o s) :=
  congrArg Host.Outcome.next (admitOp_runs_unlisted h (by decide) _)

theorem moveReduce_runs (h : Admissible s k 0x21 o) : exec (.moveReduce k) s = .next (tryMove k true o s) :=
  congrArg Host.Outcome.next (admitOp_runs_unlisted h (by decide) _)

theorem tryMove_acts (hheld : heldAny s o.moveRanges = false) (reduce : Bool) : tryMove k reduce o s = runMove k reduce o s :=
  if_neg (ne_true_of_eq_false hheld)

theorem tryMove_waits (hheld : heldAny s o.moveRanges = true) (reduce : Bool) : tryMove k reduce o s = s := if_pos hheld

end

/-! ### Within the device -/

theorem length_rdBytes (s : State) (a n : Nat) : (rdBytes s a n).length = n := by rw [rdBytes, List.length_map, List.length_range]

theorem getD_rdBytes (s : State) (a : Nat) {i n : Nat} (hi : i < n) : (rdBytes s a n).getD i 0 = rdByte s (a + i) := by
  rw [rdBytes, List.getD_eq_getElem?_getD, List.getElem?_map, List.getElem?_range hi]
  rfl

theorem length_elemsOf (n : Nat) (l : List Byte) : (elemsOf n l).length = l.length / n := by rw [elemsOf, List.length_map, List.length_range]

theorem copyMove_storesBeside {s : State} (he : s.errs = []) (o : Op) : StoresBeside (fun a => a < o.dst ∨ o.dst + o.len ≤ a) s (copyMove o s) :=
  ((StoresBeside.refl _ s).hide o.stream o.dst o.len).wrBytes he (fun _ hb => by rwa [length_rdBytes]) _

/-- A copied byte is that of the source as the copy found it. -/
theorem read_copyMove {s : State} (he : s.errs = []) {o : Op} {i : Nat} (hi : i < o.len) (hstore : noStore s (o.dst + i) = false) :
    Memory.read (copyMove o s).mem (o.dst + i) = rdByte s (o.src + i) := by
  obtain ⟨q, hq⟩ := hide_frame o.stream o.dst o.len s
  obtain ⟨p, hp⟩ := wrBytes_eq (s := { s with seq := q }) he o.dst (rdBytes s o.src o.len)
    (fun w => ((wordsOf o.dst o.len).filter (movedBad s o.src o.dst o.len)).contains w)
  have hplace : noStore ({ s with seq := q } : State) (o.dst + i) = false := by
    rw [← hstore]
    apply noStore_congr <;> rfl
  have hlen := length_rdBytes s o.src o.len
  rw [copyMove, hq, hp, ← getD_rdBytes _ _ hi]
  exact read_putBytesAt_in _ _ _ _ (hlen.symm ▸ hi) hplace

/-- The sums of a `move.reduce` fall within its destination (R246). -/
theorem addMove_storesBeside {s : State} (he : s.errs = []) (o : Op) : StoresBeside (fun a => a < o.dst ∨ o.dst + o.len ≤ a) s (addMove o s).1 := by
  refine ((StoresBeside.refl _ s).hide o.stream o.dst o.len).addElems he (fun b hb => ?_) _
  have hfit := Nat.mul_div_le o.len ((if bit (o.dn 38 1) 0 then fp32 else bf16).width / 8)
  rw [length_elemsOf, length_rdBytes]
  omega

section
variable {s : State} {k : Nat} {o : Op}

theorem move_copies {i : Nat} (h : Admissible s k 0x20 o) (hheld : heldAny s o.moveRanges = false) (hleaves : o.leaves = false) (he : s.errs = [])
    (hi : i < o.len) (hstore : ∀ j, j < o.len → noStore s (o.dst + j) = false) :
    Completes (.move k) s (fun t => InStage t k 3 ∧ Memory.read t.mem (o.dst + i) = rdByte s (o.src + i) ∧
      (∀ a, a < o.dst ∨ o.dst + o.len ≤ a → Memory.read t.mem a = Memory.read s.mem a) ∧
      t = { s with ops := t.ops, seq := t.seq, mem := t.mem, poison := t.poison }) := by
  have he' := moveTaken_noErrs he k o
  have hreads := moveTaken_sameReads k o s
  have hplace := (noStore_congr hreads.net hreads.memTop hreads.units _).trans (hstore i hi)
  obtain ⟨hstage, hbeside, hframe⟩ := moveDone_leaves h.1 (copyMove_storesBeside he' o) false
  exact ⟨_, (move_runs h).trans (congrArg Host.Outcome.next ((tryMove_acts hheld false).trans (runMove_copies he hleaves))), hstage,
    (read_copyMove he' hi hplace).trans (hreads.rdByte _), hbeside, hframe⟩

theorem moveReduce_adds (h : Admissible s k 0x21 o) (hheld : heldAny s o.moveRanges = false) (hleaves : o.leaves = false) (he : s.errs = []) :
    Completes (.moveReduce k) s (fun t => InStage t k 3 ∧ (∀ a, a < o.dst ∨ o.dst + o.len ≤ a → Memory.read t.mem a = Memory.read s.mem a) ∧
      t.tokens = s.tokens ∧ t.link = s.link) := by
  obtain ⟨hstage, hbeside, hframe⟩ := moveDone_leaves h.1 (addMove_storesBeside (moveTaken_noErrs he k o) o)
    (addMove o (moveTaken k o s)).2
  exact ⟨_, (moveReduce_runs h).trans (congrArg Host.Outcome.next ((tryMove_acts hheld true).trans (runMove_adds he hleaves))), hstage, hbeside,
    by rw [hframe], by rw [hframe]⟩

end

/-! ### To another device -/

/-- What a move to another device leaves (R361): one packet and one reference for each cut. -/
theorem sendMove_leaves (k : Nat) (o : Op) (s : State) :
    (sendMove k o s).seq.opRef = (s.seq.opRef + (cuts o.dst o.len).length) % 65536 ∧
    (sendMove k o s).link.own.length = s.link.own.length + (cuts o.dst o.len).length ∧
    sendMove k o s = { s with ops := (sendMove k o s).ops, seq := (sendMove k o s).seq, link := (sendMove k o s).link } := by
  refine ⟨rfl, ?_, rfl⟩
  simp [sendMove]

section
variable {s : State} {k : Nat} {o : Op}

/-- A move to another device stays admitted until the ports have accepted its last flit (R260). -/
theorem runMove_sends (h : opOf s k = some o) (hleaves : o.leaves = true) (he : s.errs = []) (reduce : Bool) :
    InStage (runMove k reduce o s) k 2 ∧ (runMove k reduce o s).seq.opRef = (s.seq.opRef + (cuts o.dst o.len).length) % 65536 ∧
    (runMove k reduce o s).link.own.length = s.link.own.length + (cuts o.dst o.len).length ∧
    runMove k reduce o s = { s with ops := (runMove k reduce o s).ops, seq := (runMove k reduce o s).seq, link := (runMove k reduce o s).link } := by
  obtain ⟨ops, q, htaken⟩ := moveTaken_frame k o s
  obtain ⟨o', ho', hstage⟩ := inStage_moveTaken h
  rw [runMove_leaves he hleaves]
  obtain ⟨href, hown, hframe⟩ := sendMove_leaves k o (moveTaken k o s)
  refine ⟨inStage_modOp ho' (fun _ => rfl) hstage, href.trans (by rw [htaken]), hown.trans (by rw [htaken]), hframe.trans (by rw [htaken])⟩

theorem move_sends (h : Admissible s k 0x20 o) (hheld : heldAny s o.moveRanges = false) (hleaves : o.leaves = true) (he : s.errs = []) :
    Completes (.move k) s (fun t => InStage t k 2 ∧ t.seq.opRef = (s.seq.opRef + (cuts o.dst o.len).length) % 65536 ∧
      t.link.own.length = s.link.own.length + (cuts o.dst o.len).length ∧ t = { s with ops := t.ops, seq := t.seq, link := t.link }) :=
  ⟨_, (move_runs h).trans (congrArg Host.Outcome.next (tryMove_acts hheld false)), runMove_sends h.1 hleaves he false⟩

theorem moveReduce_sends (h : Admissible s k 0x21 o) (hheld : heldAny s o.moveRanges = false) (hleaves : o.leaves = true) (he : s.errs = []) :
    Completes (.moveReduce k) s (fun t => InStage t k 2 ∧ t.link.own.length = s.link.own.length + (cuts o.dst o.len).length ∧ t.mem = s.mem) := by
  obtain ⟨hstage, -, hown, hframe⟩ := runMove_sends h.1 hleaves he true
  exact ⟨_, (moveReduce_runs h).trans (congrArg Host.Outcome.next (tryMove_acts hheld true)), hstage, hown, by rw [hframe]⟩

end

end Sys2Proof.Machine
end

section
/-! The admission of a `quant.scale`: the record that it reads, the codes and the scale word that it writes, and what it leaves of memory (R192 to
R200, R279, R306). -/

namespace Sys2Proof.Machine

open Sys2Proof State

/-! ### What the instance gives -/

/-- The scale tracker record as the op reads it (R198). -/
def Op.quantRecord (s : State) (o : Op) : Tracker := Tracker.ofBytes (rdBytes s (o.dn 44 6) 128)

/-- The source elements, token by token (R191, R279). -/
def Op.quantSource (s : State) (o : Op) : List (List (Nat × Bool)) :=
  ((List.range (o.dn 28 2)).map (fun j => (List.range (o.dn 32 4)).map (fun i =>
    o.dn 16 6 + j * o.dn 24 4 + i * (srcFmt (bit (o.dn 22 1) 0)).bytes))).map (elems s (srcFmt (bit (o.dn 22 1) 0)))

/-- The range of the instance, and the scale that it uses (R194, R196). -/
def Op.quantMax (s : State) (o : Op) : Nat := rangeOf (((o.quantSource s).flatten.filter (fun x => !x.2)).map Prod.fst)
def Op.quantScale (s : State) (o : Op) : ScaleOf :=
  scaleOf (o.quantRecord s).headF (if (o.quantRecord s).seeds then o.quantMax s else (o.quantRecord s).windowMax)

/-- The codes of every token, padded to K_STRIDE, and whether one of them saturated (R192, R193, R239). -/
def Op.quantCodes (s : State) (o : Op) : List (Byte × Bool × Bool) :=
  ((o.quantSource s).map (fun l => quantRow l (o.quantScale s).s (o.quantScale s).zero)).flatten
def Op.quantSat (s : State) (o : Op) : Bool := (o.quantScale s).sat || (o.quantCodes s).any (fun x => x.2.1)

/-- The scale word of the instance (R200). -/
def Op.quantWord (s : State) (o : Op) : Nat :=
  feedWord (o.quantScale s).s (o.quantSat s) (o.quantScale s).zero (o.quantRecord s).seeds (o.quantRecord s).stepUsed

/-- Scale word and codes of the instance that `s` gives enter field `f` of `t` (R200, R279). -/
def quantWrite (s : State) (o : Op) (t : State) (f : Nat) : State :=
  wrBytes (feedAddr f (o.dn 36 3)) ((o.quantCodes s).map (fun x => x.1))
    (fun w => (List.range 8).any (fun i => ((o.quantCodes s).getD (8 * w + i - feedAddr f (o.dn 36 3)) (0, false, false)).2.2))
    (wrClean (feedAddr f (o.dn 36 3 - 8)) (leBytes 8 (o.quantWord s)) (hide o.stream (feedAddr f (o.dn 36 3 - 8)) (8 + (o.quantCodes s).length) t))

/-- The op `x` at its retire point, with the push that its completion makes (R197) and its flags. -/
def Op.quantised (s : State) (o x : Op) : Op :=
  ((Op.flagIf (o.quantSat s) fSat { x with
      stage := 3
      push := [o.quantMax s, (o.quantScale s).s, b01 (o.quantSat s), b01 (o.quantScale s).zero, b01 (o.quantRecord s).seeds,
        b01 ((o.quantRecord s).fill == 0)] }).flagIf (o.quantScale s).zero fZero).flagIf ((o.quantCodes s).any (fun x => x.2.2)) fPoison

section
variable (s : State) (o x : Op)

theorem quantised_key : (o.quantised s x).key = x.key := by simp [Op.quantised]
theorem quantised_stage : (o.quantised s x).stage = 3 := by simp [Op.quantised]
theorem quantised_admBeat : (o.quantised s x).admBeat = x.admBeat := by simp [Op.quantised]
theorem length_quantised_push : (o.quantised s x).push.length = 6 := by simp [Op.quantised]

/-- A token's codes fill whole tile rows (R239). -/
theorem length_quantRow (l : List (Nat × Bool)) (sc : Nat) (zero : Bool) : (quantRow l sc zero).length = 256 * ((l.length + 255) / 256) := by
  rw [quantRow, List.length_append, List.length_map, List.length_replicate]
  omega

theorem length_quantCodes : (o.quantCodes s).length = o.dn 28 2 * (256 * ((o.dn 32 4 + 255) / 256)) := by
  rw [Op.quantCodes, Op.quantSource, List.map_map, List.map_map, length_flatten_chunks (w := 256 * ((o.dn 32 4 + 255) / 256)), Nat.mul_comm]
  intro j
  simp only [Function.comp_apply, length_quantRow, elems, List.length_map, List.length_range]

end

/-! ### The admission -/

/-- The quantiser that the op takes: that of its first field (R279). -/
def Op.quantUnit (o : Op) : Nat := (selected (o.dn 40 4)).headD 0

/-- The state in which the codes stand in every selected field and the first one's quantiser is busy. -/
def quantWritten (o : Op) (s : State) : State :=
  ((selected (o.dn 40 4)).foldl (quantWrite s o) s).modField o.quantUnit (fun x => { x with quantBusy := 0xF })

theorem touchAll_noErrs {s : State} (he : s.errs = []) (l : List (Nat × Nat)) : touchAll l s = s := foldl_fixed (fun _ => touch_noErrs he _ _) l

theorem modOp_id {g : Op → Op} (hg : ∀ o, g o = o) (k : Nat) (s : State) : modOp k g s = s := by
  have hops : s.ops.map (fun o => if o.key = k then g o else o) = s.ops := by simp [hg]
  unfold modOp
  rw [hops]

section
variable {s : State} {k : Nat} {o : Op} (h : Admissible s k 0x11 o) (he : s.errs = []) (hheld : heldAny s o.quantRanges = false)
  (hbusy : (s.field o.quantUnit).quantBusy = 0) (hbad : anyBad s (o.dn 44 6) 128 = false)
include h

theorem quantScale_waits (hwait : (s.field o.quantUnit).quantBusy ≠ 0 ∨ heldAny s o.quantRanges = true) : exec (.quantScale k) s = .next s :=
  congrArg Host.Outcome.next ((admitOp_runs_unlisted h (by decide) _).trans (if_pos hwait))

include he hheld hbusy hbad

theorem quantScale_refuses (hvalid : (o.quantRecord s).valid = false) : exec (.quantScale k) s = .next (retire k true 11 0 (setAdmitted k s)) := by
  have hreads := setAdmitted_sameReads k s
  have hfree : ¬((s.field o.quantUnit).quantBusy ≠ 0 ∨ heldAny s o.quantRanges = true) := by simp [hbusy, hheld]
  refine congrArg Host.Outcome.next ((admitOp_runs_unlisted h (by decide) _).trans ((if_neg hfree).trans ?_))
  simp only [Op.quantRecord] at hvalid
  simp only [touch_noErrs (setAdmitted_noErrs he k), hreads.anyBad, hreads.rdBytes, hbad, hvalid, Bool.false_or, Bool.not_false, if_true]
  rw [modOp_id (g := Op.flagIf false fPoison) fun _ => rfl]

theorem quantScale_writes (hvalid : (o.quantRecord s).valid = true) :
    exec (.quantScale k) s = .next (modOp k (o.quantised (setAdmitted k s)) (quantWritten o (setAdmitted k s))) := by
  have hreads := setAdmitted_sameReads k s
  have he' := setAdmitted_noErrs he k
  have hfree : ¬((s.field o.quantUnit).quantBusy ≠ 0 ∨ heldAny s o.quantRanges = true) := by simp [hbusy, hheld]
  have hok : (anyBad (setAdmitted k s) (o.dn 44 6) 128 || !(o.quantRecord (setAdmitted k s)).valid) = false := by
    rw [Op.quantRecord, hreads.anyBad, hreads.rdBytes, hbad]
    exact congrArg not hvalid
  refine congrArg Host.Outcome.next ((admitOp_runs_unlisted h (by decide) _).trans ((if_neg hfree).trans ?_))
  simp only [touch_noErrs he', touchAll_noErrs he']
  exact if_neg (ne_true_of_eq_false hok)

end

/-! ### What it leaves -/

/-- The bytes beside the scale word and the codes of every selected field stay. -/
theorem foldl_quantWrite_storesBeside {K : Nat → Prop} {s t : State} (he : t.errs = []) (o : Op) {l : List Nat}
    (hK : ∀ a, K a → ∀ f, f ∈ l → 8 ≤ o.dn 36 3 ∧ (a < feedAddr f (o.dn 36 3 - 8) ∨ feedAddr f (o.dn 36 3) + (o.quantCodes s).length ≤ a)) :
    StoresBeside K t (l.foldl (quantWrite s o) t) := by
  refine List.foldlRecOn l (quantWrite s o) (.refl K t) fun u hu f hf => ?_
  refine ((hu.hide _ _ _).wrBytes he (fun a ha => ?_) _).wrBytes he (fun a ha => ?_) _
  · obtain ⟨hoff, hout⟩ := hK a ha f hf
    rw [length_leBytes]
    unfold feedAddr at hout ⊢
    omega
  · obtain ⟨hoff, hout⟩ := hK a ha f hf
    rw [List.length_map]
    unfold feedAddr at hout ⊢
    omega

theorem quantScale_acts (s : State) (k a : Nat) (o : Op) (h : Admissible s k 0x11 o) (he : s.errs = []) (hheld : heldAny s o.quantRanges = false)
    (hbusy : (s.field o.quantUnit).quantBusy = 0) (hbad : anyBad s (o.dn 44 6) 128 = false) (hvalid : (o.quantRecord s).valid = true)
    (hout : ∀ f, f ∈ selected (o.dn 40 4) →
      8 ≤ o.dn 36 3 ∧ (a < feedAddr f (o.dn 36 3 - 8) ∨ feedAddr f (o.dn 36 3) + o.dn 28 2 * (256 * ((o.dn 32 4 + 255) / 256)) ≤ a)) :
    Completes (.quantScale k) s (fun t => InStage t k 3 ∧ (t.field o.quantUnit).quantBusy = 0xF ∧
      (opOf t k).map (fun x => (x.admBeat, x.push.length)) = some (some s.tim.beat, 6) ∧ Memory.read t.mem a = Memory.read s.mem a) := by
  have hfields := foldl_quantWrite_storesBeside (K := (· = a)) (s := setAdmitted k s) (setAdmitted_noErrs he k) o (l := selected (o.dn 40 4))
    fun b hb f hf => by rw [hb, length_quantCodes]; exact hout f hf
  have hwritten : opOf (quantWritten o (setAdmitted k s)) k = some (o.admittedAt s.tim.beat) :=
    (opOf_congr (by rw [quantWritten, modField_ops, hfields.ops]) k).trans (opOf_setAdmitted h.1)
  have hop := opOf_modOp_some hwritten (quantised_key (setAdmitted k s) o)
  refine ⟨_, quantScale_writes h he hheld hbusy hbad hvalid, ⟨_, hop, quantised_stage _ o _⟩, ?_, ?_, ?_⟩
  · rw [field_congr _ _ (modOp_fields _ _ _), quantWritten, field_modField, if_pos rfl]
  · rw [hop, Option.map_some, quantised_admBeat, length_quantised_push]
    rfl
  · rw [modOp_mem, quantWritten, modField_mem, hfields.read rfl, (setAdmitted_sameReads k s).mem]

/-- Settles O33: the quantiser by the state that `quantScale_writes` gives, the moves by what `copyMove`, `addMove` and `sendMove` leave, the waits by
the first check of each admission. -/
theorem quantScaleAndMovesAct : Obligations.QuantScaleAndMovesAct :=
  ⟨quantScale_acts, fun _ _ _ h => quantScale_refuses h, fun _ _ _ h => quantScale_waits h, fun _ _ _ _ => move_copies, fun _ _ _ => move_sends,
    fun _ _ _ => moveReduce_adds, fun _ _ _ => moveReduce_sends,
    fun _ _ _ h hheld => (move_runs h).trans (congrArg Host.Outcome.next (tryMove_waits hheld false)),
    fun _ _ _ h hheld => (moveReduce_runs h).trans (congrArg Host.Outcome.next (tryMove_waits hheld true))⟩

end Sys2Proof.Machine
end

section
/-! Host CXL.mem requests: the way of a packet over the package network, and what a read, a write and a refused request leave (R245, R287 to R294, R306,
R337, R338). -/

namespace Sys2Proof.Machine

open Sys2Proof State

/-! ### Requests that a decoder takes (R287) -/

section
variable {s : State} {h a : Nat} (ha : deviceAddr s h = some a)
include ha

theorem hostCxlRead_sends (n : Nat) : exec (.hostCxlRead h n []) s = .next (hostSend false a n [] s) := by
  change execHostCxlRead h n [] s = _
  simp only [execHostCxlRead, upset, List.foldl_nil, ha]

theorem hostCxlWrite_sends (l : List Byte) : exec (.hostCxlWrite h l) s = .next (hostSend true a l.length l s) := by
  change execHostCxlWrite h l s = _
  simp only [execHostCxlWrite, ha]

end

/-! ### The way over the package network (R337) -/

theorem linkTo_lt {a b : Nat} {h : Nat × Nat} (hlink : linkTo a b = some h) : h.1 < 7 := by
  have hends (e : Nat × Nat) {n : Nat} (hn : linkEnds.findIdx? (fun x => x == e) = some n) : n < 7 :=
    (List.findIdx?_eq_some_iff_getElem.mp hn).1
  unfold linkTo at hlink
  split at hlink
  next h₁ => cases hlink; exact hends _ h₁
  next _ h₂ => cases hlink; exact hends _ h₂
  next => cases hlink

theorem dieHops_lt {a b : Nat} {h : Nat × Nat} (hh : h ∈ dieHops a b) : h.1 < 7 := by
  obtain ⟨e, -, he⟩ := List.mem_filterMap.mp hh
  exact linkTo_lt he

/-- Where no link of its way switches, a packet arrives. -/
theorem carry_arrives (p : NetPkt) {l : List (Nat × Nat)} {s : State} (h : ∀ x, x ∈ l → (s.netLink x.1).switching = false) : carry p l s = (s, true) := by
  induction l with
  | nil => rfl
  | cons x l ih =>
    rw [carry, h x List.mem_cons_self, if_neg Bool.false_ne_true]
    exact ih fun y hy => h y (List.mem_cons_of_mem x hy)

/-- No die-to-die link is in switch-over (R338). -/
def LinksServe (s : State) : Prop := ∀ m, m < 7 → (s.netLink m).switching = false

section
variable {s : State} (hl : LinksServe s)
include hl

theorem carry_dieHops (p : NetPkt) (a b : Nat) : carry p (dieHops a b) s = (s, true) := carry_arrives p fun x hx => hl x.1 (dieHops_lt hx)

theorem respond_answers (d : Nat) (data : List Byte) (poison : List Bool) :
    respond d data poison s = { s with memTop := { s.memTop with cxlData := data, cxlPoison := poison } } := by
  simp only [respond, carry_dieHops hl, if_true]
  rfl

/-- The packet of a host request, as it leaves B1 (R337). -/
def hostPacket (s : State) (wr : Bool) (a n : Nat) (data : List Byte) : NetPkt :=
  { src := 5, dst := (locOf s a).die, cls := 0, write := wr, addr := a, len := n, data := data }

theorem hostSend_arrives (wr : Bool) (a n : Nat) (data : List Byte) : hostSend wr a n data s = hostArrive (hostPacket s wr a n data) s := by
  simp only [hostSend, carry_dieHops hl, if_true]
  rfl

theorem hostCxlRead_arrives {h a : Nat} (ha : deviceAddr s h = some a) (n : Nat) :
    exec (.hostCxlRead h n []) s = .next (hostArrive (hostPacket s false a n []) s) := by
  rw [hostCxlRead_sends ha, hostSend_arrives hl]

theorem hostCxlWrite_arrives {h a : Nat} (ha : deviceAddr s h = some a) (l : List Byte) :
    exec (.hostCxlWrite h l) s = .next (hostArrive (hostPacket s true a l.length l) s) := by
  rw [hostCxlWrite_sends ha, hostSend_arrives hl]

/-! ### Reads -/

theorem hostCxlRead_serves {h a n : Nat} (ha : deviceAddr s h = some a) (hreq : hostReq s false a n = .serve) (he : s.errs = []) :
    exec (.hostCxlRead h n []) s = .next { s with memTop := { s.memTop with
      cxlData := (List.range n).map (fun i => seenByte s s.seq.hidden (a + i)), cxlPoison := (wordsOf a n).map (seenBad s s.seq.hidden) } } := by
  rw [hostCxlRead_arrives hl ha]
  simp only [hostArrive, hostPacket, hreq, Bool.false_eq_true, if_false, cxlRespond, touch_noErrs he, respond_answers hl]

/-- A refused read brings data marked poisoned, of which the manual says nothing else (R290, R343). -/
theorem cxlRefused_answers (d n : Nat) : cxlRefused d n s =
    { s with free := s.free + n, memTop := { s.memTop with cxlData := freeBytes n s, cxlPoison := List.replicate ((n + 7) / 8) true } } :=
  respond_answers (s := { s with free := s.free + n }) hl d _ _

theorem hostCxlRead_refuses {h a n : Nat} (ha : deviceAddr s h = some a) (hreq : hostReq s false a n = .unmapped ∨ hostReq s false a n = .resetting) :
    Completes (.hostCxlRead h n []) s (fun t => t.memTop.cxlPoison = List.replicate ((n + 7) / 8) true ∧ t.memTop.cxlData.length = n ∧ t.mem = s.mem) := by
  obtain ⟨code, hpost⟩ : ∃ code, hostArrive (hostPacket s false a n []) s = post code (leBytes 6 a) (cxlRefused (locOf s a).die n s) := by
    rcases hreq with hreq | hreq
    · exact ⟨0x0112, by simp only [hostArrive, hostPacket, hreq, Bool.false_eq_true, if_false]⟩
    · exact ⟨0x0106, by simp only [hostArrive, hostPacket, hreq, Bool.false_eq_true, if_false]⟩
  have htop : (hostArrive (hostPacket s false a n []) s).memTop =
      { s.memTop with cxlData := freeBytes n s, cxlPoison := List.replicate ((n + 7) / 8) true } := by
    rw [hpost, post_memTop, cxlRefused_answers hl]
  have hmem : (hostArrive (hostPacket s false a n []) s).mem = s.mem := by
    rw [hpost, post_mem, cxlRefused_answers hl]
  exact ⟨_, hostCxlRead_arrives hl ha n, by rw [htop], by rw [htop]; simp [freeBytes], hmem⟩

end

/-! ### What the host sees of a write (R245) -/

theorem showNow_frame (a n : Nat) (s : State) : showNow a n s = { s with seq := { s.seq with hidden := (showNow a n s).seq.hidden } } := rfl

/-- Memory that a store reaches is plain memory: the accumulator and the manifest are read-only windows (R288). -/
theorem rdByte_stored {s : State} {a : Nat} (h : noStore s a = false) : rdByte s a = Memory.read s.mem a := by
  unfold noStore at h
  unfold rdByte
  split
  next hloc => rw [hloc] at h; cases h
  next hloc => rw [hloc] at h; cases h
  next => rfl

/-- A hidden range as it shows a write of [a, a+n) at once (R245). -/
def shownAt (a n : Nat) (s : State) (h : Hidden) : Hidden :=
  { h with
    data := (List.range h.data.length).map (fun i => if a ≤ h.addr + i ∧ h.addr + i < a + n then rdByte s (h.addr + i) else h.data.getD i 0)
    bad := (wordsOf h.addr h.data.length).filter (fun w => if wholeWord a n w then wordBad s w else h.bad.contains w) }

theorem showNow_hidden (a n : Nat) (s : State) : (showNow a n s).seq.hidden = s.seq.hidden.map (shownAt a n s) := rfl

theorem shownAt_covers (a n : Nat) (s : State) (h : Hidden) (b : Nat) : (shownAt a n s h).covers b = h.covers b := by
  simp [Hidden.covers, shownAt]

theorem rdByte_seq (q : Seq) (s : State) (b : Nat) : rdByte { s with seq := q } b = rdByte s b := by
  refine SameReads.rdByte ?_ b
  exact ⟨rfl, rfl, rfl, rfl, rfl, rfl, rfl⟩

/-- Within the range shown, the host sees what stands in memory. -/
theorem seenByte_showNow {a n b : Nat} (s : State) (hb : a ≤ b ∧ b < a + n) :
    seenByte (showNow a n s) (showNow a n s).seq.hidden b = rdByte s b := by
  unfold seenByte
  split
  next g hg =>
    rw [showNow_hidden, List.find?_map, Option.map_eq_some_iff] at hg
    obtain ⟨h, hfind, rfl⟩ := hg
    have hcov := List.find?_some hfind
    simp only [Function.comp_apply] at hcov
    rw [shownAt_covers, Hidden.covers, decide_eq_true_eq] at hcov
    obtain ⟨hlow, hhigh⟩ := hcov
    show (shownAt a n s h).data.getD (b - h.addr) 0 = _
    have hin : b - h.addr < h.data.length := by omega
    rw [shownAt, List.getD_eq_getElem?_getD, List.getElem?_map, List.getElem?_range hin, Option.map_some, Option.getD_some,
      Nat.add_sub_cancel' hlow, if_pos hb]
  next => exact rdByte_seq _ s b

theorem wrShown_eq {s : State} (he : s.errs = []) (a : Nat) (l : List Byte) :
    ∃ p q, wrShown a l s = { s with mem := (putBytesAt s a l).mem, poison := p, seq := { s.seq with hidden := q } } := by
  obtain ⟨p, hp⟩ := wrBytes_eq he a l (fun _ => false)
  refine ⟨p, (showNow a l.length (wrClean a l s)).seq.hidden, ?_⟩
  rw [wrShown, showNow_frame, wrClean, hp]

/-- A byte that the host writes is the byte that stands in memory, and the byte that it sees. -/
theorem wrShown_stores {s : State} (he : s.errs = []) {a i : Nat} {l : List Byte} (hi : i < l.length) (hstore : noStore s (a + i) = false) :
    Memory.read (wrShown a l s).mem (a + i) = l.getD i 0 ∧ seenByte (wrShown a l s) (wrShown a l s).seq.hidden (a + i) = l.getD i 0 := by
  obtain ⟨p, hp⟩ := wrBytes_eq he a l (fun _ => false)
  have hread : Memory.read (wrClean a l s).mem (a + i) = l.getD i 0 := by
    rw [wrClean, hp]
    exact read_putBytesAt_in s a i l hi hstore
  have hplace : noStore (wrClean a l s) (a + i) = false := by
    rw [wrClean, hp, ← hstore]
    apply noStore_congr <;> rfl
  refine ⟨hread, ?_⟩
  rw [wrShown, seenByte_showNow _ (by omega), rdByte_stored hplace, hread]

/-! ### Writes -/

section
variable {s : State} (hl : LinksServe s) {h a : Nat} (ha : deviceAddr s h = some a)
include hl ha

theorem hostCxlWrite_serves {i : Nat} {l : List Byte} (hreq : hostReq s true a l.length = .serve) (he : s.errs = [])
    (hstore : ∀ j, j < l.length → noStore s (a + j) = false) (hi : i < l.length) :
    Completes (.hostCxlWrite h l) s (fun t => Memory.read t.mem (a + i) = l.getD i 0 ∧ seenByte t t.seq.hidden (a + i) = l.getD i 0 ∧
      (∀ b, b < a ∨ a + l.length ≤ b → Memory.read t.mem b = Memory.read s.mem b) ∧
      t = { s with mem := t.mem, poison := t.poison, seq := { s.seq with hidden := t.seq.hidden } }) := by
  have hserve : hostArrive (hostPacket s true a l.length l) s = wrShown a l s := by
    simp only [hostArrive, hostPacket, hreq, if_true]
  obtain ⟨hread, hseen⟩ := wrShown_stores he hi (hstore i hi)
  obtain ⟨p, q, hframe⟩ := wrShown_eq he a l
  refine ⟨_, (hostCxlWrite_arrives hl ha l).trans (congrArg _ hserve), hread, hseen, fun b hb => ?_, ?_⟩
  · rw [hframe]
    exact read_putBytesAt_out s a b l hb
  · rw [hframe]

theorem hostCxlWrite_waits {u : Nat} {l : List Byte} (hreq : hostReq s true a l.length = .held u) :
    exec (.hostCxlWrite h l) s = .next { s with memTop := { s.memTop with heldReqs := s.memTop.heldReqs ++ [(u, true, a, l)] } } := by
  rw [hostCxlWrite_arrives hl ha]
  simp only [hostArrive, hostPacket, hreq, if_true]

theorem hostCxlWrite_discarded {l : List Byte} (hreq : hostReq s true a l.length = .unmapped) :
    exec (.hostCxlWrite h l) s = .next (post 0x0112 (leBytes 6 a) s) := by
  rw [hostCxlWrite_arrives hl ha]
  simp only [hostArrive, hostPacket, hreq, if_true]

end

/-! ### Links in switch-over (R338) -/

/-- A packet that meets a link in switch-over joins the buffer of its class and direction there. -/
theorem carry_waits (p : NetPkt) {n d : Nat} {s : State} (l : List (Nat × Nat)) (h : (s.netLink n).switching = true) :
    carry p ((n, d) :: l) s = (s.modNetBuf (netKey n d p.cls) (fun b => b ++ [p]), false) := by
  rw [carry, if_pos h]

theorem hostCxlRead_buffered {s : State} {h a n d : Nat} {l : List (Nat × Nat)} (ha : deviceAddr s h = some a)
    (hhops : dieHops 5 (locOf s a).die = (n, d) :: l) (hswitch : (s.netLink n).switching = true) :
    Completes (.hostCxlRead h 64 []) s (fun t => t.memTop = s.memTop ∧
      t.netBuf (netKey n d 0) = s.netBuf (netKey n d 0) ++ [{ src := 5, dst := (locOf s a).die, cls := 0, write := false, addr := a, len := 64, data := [] }]) := by
  have hwait : hostSend false a 64 [] s = s.modNetBuf (netKey n d 0) (fun b => b ++ [hostPacket s false a 64 []]) := by
    simp only [hostSend, hhops, carry_waits _ l hswitch, Bool.false_eq_true, if_false]
    rfl
  have hbuf := netBuf_modNetBuf s (netKey n d 0) (netKey n d 0) (fun b => b ++ [hostPacket s false a 64 []])
  exact ⟨_, (hostCxlRead_sends ha 64).trans (congrArg _ hwait), modNetBuf_memTop s _ _, hbuf.trans (if_pos rfl)⟩

/-- No decoder takes the address: nothing answers (R287). -/
theorem hostCxl_ignored (s : State) (h n : Nat) (l : List Byte) (ha : deviceAddr s h = none) :
    exec (.hostCxlRead h n []) s = .next s ∧ exec (.hostCxlWrite h l) s = .next s := by
  change execHostCxlRead h n [] s = _ ∧ execHostCxlWrite h l s = _
  simp only [execHostCxlRead, execHostCxlWrite, upset, List.foldl_nil, ha, and_self]

/-- Settles O38: a request by what becomes of it where it arrives, and a write by what it leaves in memory and shows. -/
theorem hostMemoryRequestsAct : Obligations.HostMemoryRequestsAct :=
  ⟨fun _ _ _ _ ha hl => hostCxlRead_serves hl ha, fun _ _ _ _ ha hl => hostCxlRead_refuses hl ha,
    fun _ _ _ _ _ ha hl => hostCxlWrite_serves hl ha, fun _ _ _ _ _ ha hl => hostCxlWrite_waits hl ha,
    fun _ _ _ _ ha hl => hostCxlWrite_discarded hl ha, fun _ _ _ _ _ _ => hostCxlRead_buffered, fun s h n l => hostCxl_ignored s h n l⟩

end Sys2Proof.Machine
end

section
/-! The sequencer's own ops and the order of service: what makes an op wait at its admission, the ops that retire at it, and the retire point (R235, R237,
R241, R244, R247, R260). -/

namespace Sys2Proof.Machine

open Sys2Proof State

/-! ### What an op meets at its admission -/

section
variable {s : State} {k : Nat} {o : Op} (h : opOf s k = some o) (code : Nat) (body : Op → State → State)
include h

/-- An op of which a wait is not met stays as it is (R241). -/
theorem admitOp_unmet (hwait : waitsMet s o = false) : admitOp k code body s = s := by
  simp only [admitOp, h, hwait, Bool.false_eq_true, and_false, if_false]

/-- An op that no waited token aborts and that has not its turn stays as it is (R235). -/
theorem admitOp_outOfTurn (hup : upstream s o = false) (hturn : servedFirst s o = false) : admitOp k code body s = s := by
  simp only [admitOp, h, hup, hturn, Bool.false_eq_true, if_false, Bool.not_false, if_true, ite_self]

/-- An op that a waited token aborts retires aborted (R247). -/
theorem admitOp_upstream (hcode : o.code = code) (hstage : o.stage = 1) (hcopy : o.copying = false) (habort : o.abortAt = none)
    (hadmit : admitting s (o.part s) = true) (hwait : waitsMet s o = true) (hup : upstream s o = true) :
    admitOp k code body s = retire k true 4 0 s := by
  simp only [admitOp, h, hcode, hstage, hcopy, habort, hadmit, hwait, hup, and_self, if_true]

end

/-- An op of an earlier turn that asks for free units of the same kind comes first (R235). -/
theorem servedFirst_false {s : State} {o q : Op} (hq : q ∈ s.ops) (hkey : q.key ≠ o.key) (hpart : q.part s = o.part s) (hclass : unitClass o.code ≠ 0)
    (hsame : unitClass q.code = unitClass o.code) (hadm : admissible s q = true) (hfree : unitsFree s q = true) (hbefore : servedBefore s q o = true) :
    servedFirst s o = false := by
  have hfirst : (s.ops.all fun q =>
      !(q.key != o.key && unitClass q.code == unitClass o.code && q.part s == o.part s && admissible s q && servedBefore s q o && unitsFree s q)) = false :=
    List.all_eq_false.mpr ⟨q, hq, by simp [hkey, hsame, hpart, hadm, hfree, hbefore]⟩
  rw [servedFirst, hfirst, Bool.or_false, beq_eq_false_iff_ne.mpr hclass]

/-- The commands by which op `k` is admitted. -/
def admissions (k : Nat) : List Instr :=
  [.wait k, .signal k, .nop k, .fence k, .accDrain k, .accSave k, .accRestore k, .vecKernel k, .quantScale k, .move k, .moveReduce k, .tollgate k, .fieldGemm k]

/-- When no admission changes the state, none of these commands does. -/
theorem admission_stays {k : Nat} {s : State} (hstay : ∀ code body, admitOp k code body s = s) {i : Instr} (hi : i ∈ admissions k) :
    exec i s = .next s := by
  simp only [admissions, List.mem_cons, List.not_mem_nil, or_false] at hi
  rcases hi with rfl | rfl | rfl | rfl | rfl | rfl | rfl | rfl | rfl | rfl | rfl | rfl | rfl
  on_goal 13 =>
    change execFieldGemm k s = _
    rw [execFieldGemm, hstay, ite_self]
  all_goals exact congrArg Host.Outcome.next (hstay _ _)

theorem admission_outOfTurn {s : State} {k : Nat} {o q : Op} {i : Instr} (h : opOf s k = some o) (hup : upstream s o = false) (hq : q ∈ s.ops)
    (hkey : q.key ≠ o.key) (hpart : q.part s = o.part s) (hclass : unitClass o.code ≠ 0) (hsame : unitClass q.code = unitClass o.code)
    (hadm : admissible s q = true) (hfree : unitsFree s q = true) (hbefore : servedBefore s q o = true)
    (hi : i ∈ [Instr.accDrain k, .vecKernel k, .quantScale k, .fieldGemm k]) : exec i s = .next s := by
  have hsub : [Instr.accDrain k, .vecKernel k, .quantScale k, .fieldGemm k] ⊆ admissions k := by simp [admissions]
  exact admission_stays (fun code body => admitOp_outOfTurn h code body hup (servedFirst_false hq hkey hpart hclass hsame hadm hfree hbefore)) (hsub hi)

/-! ### Ops that retire at their admission -/

theorem nop_upstream {s : State} {k : Nat} {o : Op} (h : opOf s k = some o) (hcode : o.code = 0x3F) (hstage : o.stage = 1) (hcopy : o.copying = false)
    (habort : o.abortAt = none) (hadmit : admitting s (o.part s) = true) (hwait : waitsMet s o = true) (hup : upstream s o = true) :
    exec (.nop k) s = .next (retire k true 4 0 s) :=
  congrArg Host.Outcome.next (admitOp_upstream h _ _ hcode hstage hcopy habort hadmit hwait hup)

section
variable {s : State} {k : Nat} {o : Op}

theorem wait_retires (h : Admissible s k 0x31 o) : exec (.wait k) s = .next (retire k false 0 0 (setAdmitted k s)) :=
  congrArg Host.Outcome.next (admitOp_runs_unlisted h (by decide) _)

theorem signal_retires (h : Admissible s k 0x32 o) : exec (.signal k) s = .next (retire k false 0 0 (setAdmitted k s)) :=
  congrArg Host.Outcome.next (admitOp_runs_unlisted h (by decide) _)

theorem nop_retires (h : Admissible s k 0x3F o) : exec (.nop k) s = .next (retire k false 0 0 (setAdmitted k s)) :=
  congrArg Host.Outcome.next (admitOp_runs_unlisted h (by decide) _)

end

/-- The ops that a fence waits for are told by their descriptors, which an admission leaves (R244). -/
theorem fenceMet_setAdmitted (k : Nat) (s : State) (fence : Op) : fenceMet (setAdmitted k s) fence = fenceMet s fence := by
  obtain ⟨q, hq⟩ := setAdmitted_frame k s
  have hop (o : Op) : (!((if o.key = k then o.admittedAt s.tim.beat else o).stream == fence.stream) ||
      ((if o.key = k then o.admittedAt s.tim.beat else o).key == fence.key || !fenceWaits fence (if o.key = k then o.admittedAt s.tim.beat else o))) =
      (!(o.stream == fence.stream) || (o.key == fence.key || !fenceWaits fence o)) := by
    split <;> rfl
  simp only [fenceMet, streamOps, List.all_filter, hq, modOp, List.all_map, Function.comp_def, hop]

section
variable {s : State} {k : Nat} {o : Op} (h : Admissible s k 0x30 o)
include h

theorem fence_eq : exec (.fence k) s = .next (if fenceMet s o = true then retire k false 0 0 (setAdmitted k s) else setAdmitted k s) := by
  have hrun : exec (.fence k) s = .next (if fenceMet (setAdmitted k s) o = true then retire k false 0 0 (setAdmitted k s) else setAdmitted k s) :=
    congrArg Host.Outcome.next (admitOp_runs_unlisted h (by decide) _)
  rwa [fenceMet_setAdmitted] at hrun

theorem fence_retires (hmet : fenceMet s o = true) : exec (.fence k) s = .next (retire k false 0 0 (setAdmitted k s)) := by
  rw [fence_eq h, if_pos hmet]

theorem fence_admitted (hmet : fenceMet s o = false) : exec (.fence k) s = .next (setAdmitted k s) := by
  rw [fence_eq h, if_neg (ne_true_of_eq_false hmet)]

end

/-! ### The retire point (R260) -/

section
variable {s : State} {k : Nat} {o : Op} (h : opOf s k = some o)
include h

theorem opRetire_eq : exec (.opRetire k) s = .next (
    if o.abortAt.isSome then s
    else if o.code = 0x33 then (if gateOpen s o then retire k false 0 0 s else s)
    else if o.code = 0x30 then (if o.stage = 2 ∧ fenceMet s o = true then retire k false 0 0 s else s)
    else if o.stage ≠ 3 then s
    else if o.code = 0x01 then (if evaluated s o then retire k false 0 0 s else s)
    else if o.code = 0x11 then (if held s (o.dn 44 6) 128 then s else retire k false 0 0 (trackerPush o s))
    else retire k false 0 o.detail s) := by
  change execOpRetire k s = _
  simp only [execOpRetire, h]

theorem opRetire_fence (habort : o.abortAt = none) (hcode : o.code = 0x30) (hstage : o.stage = 2) (hmet : fenceMet s o = true) :
    exec (.opRetire k) s = .next (retire k false 0 0 s) := by
  simp [opRetire_eq h, habort, hcode, hstage, hmet]

theorem opRetire_done (habort : o.abortAt = none) (hstage : o.stage = 3) (hcode : o.code ∉ [0x33, 0x30, 0x11]) (heval : o.code = 0x01 → evaluated s o = true) :
    exec (.opRetire k) s = .next (retire k false 0 (if o.code = 0x01 then 0 else o.detail) s) := by
  simp only [List.mem_cons, List.not_mem_nil, or_false, not_or] at hcode
  obtain ⟨hgate, hfence, hquant⟩ := hcode
  by_cases hgemm : o.code = 0x01
  · simp [opRetire_eq h, habort, hstage, hgemm, heval hgemm]
  · simp [opRetire_eq h, habort, hstage, hgate, hfence, hquant, hgemm]

theorem opRetire_quant (habort : o.abortAt = none) (hstage : o.stage = 3) (hcode : o.code = 0x11) (hheld : held s (o.dn 44 6) 128 = false) :
    exec (.opRetire k) s = .next (retire k false 0 0 (trackerPush o s)) := by
  simp [opRetire_eq h, habort, hstage, hcode, hheld]

theorem opRetire_waits (hwait : o.abortAt.isSome = true ∨ (o.code ∉ [0x33, 0x30] ∧ o.stage ≠ 3) ∨ (o.code = 0x30 ∧ fenceMet s o = false)) :
    exec (.opRetire k) s = .next s := by
  rcases hwait with habort | ⟨hcode, hstage⟩ | ⟨hcode, hmet⟩
  · simp [opRetire_eq h, habort]
  · simp only [List.mem_cons, List.not_mem_nil, or_false, not_or] at hcode
    simp [opRetire_eq h, hcode.1, hcode.2, hstage]
  · simp [opRetire_eq h, hcode, hmet]

end

/-- Settles O26: the admissions by what `admitOp` answers an op that waits, is aborted or is not served first, the retire point by the branches of
OP_RETIRE. -/
theorem sequencerOpsWaitAndRetire : Obligations.SequencerOpsWaitAndRetire :=
  ⟨fun _ _ _ _ => decide_eq_true_iff, fun _ _ _ _ h hwait hi => admission_stays (fun code body => admitOp_unmet h code body hwait) hi,
    fun _ _ _ => nop_upstream, fun _ _ _ _ _ => admission_outOfTurn, fun _ _ _ => wait_retires, fun _ _ _ => signal_retires, fun _ _ _ => nop_retires,
    fun _ _ _ => fence_retires, fun _ _ _ => fence_admitted, fun _ _ _ => opRetire_fence, fun _ _ _ => opRetire_done, fun _ _ _ => opRetire_quant,
    fun _ _ _ => opRetire_waits⟩

end Sys2Proof.Machine
end

section
/-! DESCRIPTOR_ISSUE: the next descriptor of a stream becomes an op, and an op of a weight handle captures its directory entry (R234, R238, R306, R322). -/

namespace Sys2Proof.Machine

open Sys2Proof State

/-! ### The op that the next descriptor makes -/

theorem takeNext_ops (st : Nat) (u : Submission) (s : State) : (takeNext st u s).ops = s.ops ++ [nextOp st u s] := rfl

theorem opOf_takeNext {st : Nat} {u : Submission} {s : State} (hnew : opOf s s.seq.nextKey = none) :
    opOf (takeNext st u s) s.seq.nextKey = some (nextOp st u s) := by
  have hkey : (nextOp st u s).key = s.seq.nextKey := rfl
  unfold opOf at hnew ⊢
  rw [takeNext_ops, List.find?_append, hnew, Option.none_or, List.find?_cons_of_pos (by rw [hkey, beq_self_eq_true])]

/-- The submission moves on past the descriptors that an abort has taken (R233, R264). -/
def Submission.advance (u : Submission) : Submission := { u with next := u.after (u.next + 1) }

theorem stream_takeNext_subs (st : Nat) (u : Submission) (s : State) :
    ((takeNext st u s).stream st).subs = (s.stream st).subs.map (fun v => if v.id = u.id then v.advance else v) := by
  rw [takeNext, stream_modStream, if_pos rfl]
  rfl

theorem takeNext_frame (st : Nat) (u : Submission) (s : State) : takeNext st u s =
    { s with ops := s.ops ++ [nextOp st u s], seq := { s.seq with nextKey := s.seq.nextKey + 1 }, streams := (takeNext st u s).streams } := rfl

/-! ### Issue -/

section
variable {s : State} {st : Nat} {u : Submission} (hstall : (streamOps s st).find? (fun o => o.stage == 0) = none)
include hstall

theorem descriptorIssue_stays (hmay : mayIssue s st = false) : exec (.descriptorIssue st) s = .next s := by
  change execDescriptorIssue st s = _
  simp only [execDescriptorIssue, hstall, hmay, Bool.false_eq_true, if_false]

variable (hu : (s.stream st).subs.find? (fun u => decide (u.next < u.count)) = some u)
include hu

theorem descriptorIssue_waits (hheld : held s (u.addr + 64 * u.next) 64 = true) : exec (.descriptorIssue st) s = .next s := by
  change execDescriptorIssue st s = _
  simp only [execDescriptorIssue, hstall, hu, hheld, if_true, ite_self]

variable (hmay : mayIssue s st = true) (he : s.errs = []) (hheld : held s (u.addr + 64 * u.next) 64 = false)
  (hbad : anyBad s (u.addr + 64 * u.next) 64 = false) (hnew : opOf s s.seq.nextKey = none)
include hmay he hheld hbad hnew

/-- A descriptor without poison is issued by its validation alone (R238, R322). -/
theorem descriptorIssue_checks : exec (.descriptorIssue st) s = .next (
    match firstFailing (takeNext st u s) (nextOp st u s) with
    | some i => retire s.seq.nextKey true 2 i (takeNext st u s)
    | none =>
      if unlicensedOp (takeNext st u s) (nextOp st u s) then retire s.seq.nextKey true 3 0 (takeNext st u s)
      else if (nextOp st u s).code = 0x01 ∧ (nextOp st u s).wsrc = 0 then resolveHandle s.seq.nextKey (takeNext st u s)
      else takeNext st u s) := by
  have hclean : (wordsOf (u.addr + 64 * u.next) 64).find? (wordBad s) = none :=
    List.find?_eq_none.mpr fun w hw => List.any_eq_false.mp hbad w hw
  change execDescriptorIssue st s = _
  simp only [execDescriptorIssue, hstall, hmay, hu, hheld, if_true, Bool.false_eq_true, if_false, touch_noErrs he, hclean, Option.map_none, checkIssued,
    opOf_takeNext hnew] <;> rfl

theorem descriptorIssue_refuses {d : Nat} (hfail : firstFailing (takeNext st u s) (nextOp st u s) = some d) :
    exec (.descriptorIssue st) s = .next (retire s.seq.nextKey true 2 d (takeNext st u s)) := by
  rw [descriptorIssue_checks hstall hu hmay he hheld hbad hnew, hfail]

theorem descriptorIssue_issues (hpass : firstFailing (takeNext st u s) (nextOp st u s) = none)
    (hlicensed : unlicensedOp (takeNext st u s) (nextOp st u s) = false) (hplain : (nextOp st u s).code ≠ 0x01 ∨ (nextOp st u s).wsrc ≠ 0) :
    Completes (.descriptorIssue st) s (fun t => opOf t s.seq.nextKey = some (nextOp st u s) ∧ t.seq.nextKey = s.seq.nextKey + 1 ∧
      (∀ v, v ∈ (s.stream st).subs → v.id = u.id → { v with next := v.after (v.next + 1) } ∈ (t.stream st).subs) ∧
      t = { s with ops := s.ops ++ [nextOp st u s], seq := { s.seq with nextKey := s.seq.nextKey + 1 }, streams := t.streams }) := by
  have hhandle : ¬((nextOp st u s).code = 0x01 ∧ (nextOp st u s).wsrc = 0) := by tauto
  refine ⟨takeNext st u s, ?_, opOf_takeNext hnew, rfl, fun v hv hid => ?_, takeNext_frame st u s⟩
  · rw [descriptorIssue_checks hstall hu hmay he hheld hbad hnew, hpass, hlicensed]
    simp only [Bool.false_eq_true, if_false, if_neg hhandle]
  · rw [stream_takeNext_subs]
    exact List.mem_map.mpr ⟨v, hv, if_pos hid⟩

end

/-! ### Weight handles (R322) -/

/-- The op as it captures entry `i`, which stands at `d` (R322, R333). -/
def Op.capture (s : State) (i : Nat) (d : Dir) (o : Op) : Op :=
  { o with
    stage := 1, holds := some i, ptr := if d.spilled then d.hotStage else d.ptr, scalePtr := d.scalePtr, epoch := d.epoch, zeroCol := d.zeroCol
    tk := d.k, tn := d.n, spillSrc := if d.spilled then d.ptr else 0, copying := d.spilled && !hotHolds s d.hotStage o.whandle d.epoch }

theorem resolveHandle_captures {s : State} {k : Nat} {o : Op} (h : opOf s k = some o) (hvalid : handleValid s o.whandle = true)
    (hpart : (s.dirEntry (handleIdx o.whandle)).part = o.part s) (hswap : (s.dirEntry (handleIdx o.whandle)).swap ≠ 3) :
    resolveHandle k s = modOp k (Op.capture s (handleIdx o.whandle) (s.dirEntry (handleIdx o.whandle)))
      (s.modDirEntry (handleIdx o.whandle) (fun d => { d with holders := d.holders + 1 })) := by
  have hmine : ((s.dirEntry (handleIdx o.whandle)).part != o.part s) = false := by rw [hpart, bne_self_eq_false]
  simp only [resolveHandle, h, hvalid, hmine, hswap, Bool.not_true, Bool.or_self, Bool.false_eq_true, if_false]
  rfl

theorem descriptorIssue_captures {s : State} {st : Nat} {o : Op} (hstall : (streamOps s st).find? (fun o => o.stage == 0) = some o)
    (herror : s.flt.deviceError = false) (h : opOf s o.key = some o) (hvalid : handleValid s o.whandle = true)
    (hpart : (s.dirEntry (handleIdx o.whandle)).part = o.part s) (hswap : (s.dirEntry (handleIdx o.whandle)).swap ≠ 3)
    (hspill : (s.dirEntry (handleIdx o.whandle)).spilled = false) :
    Completes (.descriptorIssue st) s (fun t => t.dirEntry (handleIdx o.whandle) =
        { s.dirEntry (handleIdx o.whandle) with holders := (s.dirEntry (handleIdx o.whandle)).holders + 1 } ∧
      (opOf t o.key).map (fun x => (x.stage, x.ptr, x.scalePtr, x.epoch, x.holds)) =
        some (1, (s.dirEntry (handleIdx o.whandle)).ptr, (s.dirEntry (handleIdx o.whandle)).scalePtr, (s.dirEntry (handleIdx o.whandle)).epoch,
          some (handleIdx o.whandle)) ∧ t.mem = s.mem) := by
  obtain ⟨i, hi⟩ : ∃ i, i = handleIdx o.whandle := ⟨_, rfl⟩
  have hresolve := resolveHandle_captures h hvalid hpart hswap
  have hexec : exec (.descriptorIssue st) s = .next (resolveHandle o.key s) := by
    change execDescriptorIssue st s = _
    simp only [execDescriptorIssue, hstall, herror, Bool.false_eq_true, if_false]
  rw [← hi] at hresolve hspill ⊢
  have hop : opOf (modOp o.key (Op.capture s i (s.dirEntry i)) (s.modDirEntry i (fun d => { d with holders := d.holders + 1 }))) o.key =
      some (o.capture s i (s.dirEntry i)) := opOf_modOp_some ((opOf_congr (modDirEntry_ops s i _) o.key).trans h) fun _ => rfl
  refine ⟨_, hexec.trans (congrArg _ hresolve), ?_, by rw [hop]; simp [Op.capture, hspill], by rw [modOp_mem, modDirEntry_mem]⟩
  rw [dirEntry_congr _ _ (modOp_dir _ _ _), dirEntry_modDirEntry, if_pos rfl]

/-- Settles O27: an issue by its validation (`descriptorIssue_checks`), the end of an issue stall by the entry that the op captures. -/
theorem descriptorIssues : Obligations.DescriptorIssues :=
  ⟨fun _ _ _ hstall hmay hu he hheld hbad hnew => descriptorIssue_issues hstall hu hmay he hheld hbad hnew,
    fun _ _ _ _ hstall hmay hu he hheld hbad hnew => descriptorIssue_refuses hstall hu hmay he hheld hbad hnew,
    fun _ _ _ => descriptorIssue_captures, fun _ _ => descriptorIssue_stays, fun _ _ _ => descriptorIssue_waits⟩

end Sys2Proof.Machine
end

section
/-! The retire of an op: what it takes from the op window, its token, its stream, its directory entry and its fields, and the completion word that it
stores (R233, R241, R247, R257, R260, R261, R322). -/

namespace Sys2Proof.Machine

open Sys2Proof State

/-! ### What ops claim

Of the parts of a retire only a few touch what ops claim; all others are shown once to leave it. -/

/-- `t` has the ops, the tokens, the streams' counts of retired ops, the holders of directory entries and the claims on fields of `s`. -/
structure SameClaims (s t : State) : Prop where
  ops : t.ops = s.ops
  tokens : t.tokens = s.tokens
  retired : ∀ x, (t.stream x).retired = (s.stream x).retired
  holders : ∀ h, (t.dirEntry h).holders = (s.dirEntry h).holders
  slots : ∀ f, (t.field f).slots = (s.field f).slots
  loader : ∀ f, (t.field f).loader = (s.field f).loader

section
variable {s t u : State}

theorem SameClaims.of_tables (hops : t.ops = s.ops) (htokens : t.tokens = s.tokens) (hstreams : t.streams = s.streams) (hdir : t.dir = s.dir)
    (hfields : t.fields = s.fields) : SameClaims s t :=
  ⟨hops, htokens, fun x => by rw [stream_congr s t hstreams], fun h => by rw [dirEntry_congr s t hdir], fun f => by rw [field_congr s t hfields],
    fun f => by rw [field_congr s t hfields]⟩

theorem SameClaims.refl (s : State) : SameClaims s s := ⟨rfl, rfl, fun _ => rfl, fun _ => rfl, fun _ => rfl, fun _ => rfl⟩

theorem SameClaims.trans (h : SameClaims s t) (h' : SameClaims t u) : SameClaims s u :=
  ⟨h'.ops.trans h.ops, h'.tokens.trans h.tokens, fun x => (h'.retired x).trans (h.retired x), fun i => (h'.holders i).trans (h.holders i),
    fun f => (h'.slots f).trans (h.slots f), fun f => (h'.loader f).trans (h.loader f)⟩

/-- `trans` with the later step first: the goal names that one, and so gives the state between. -/
theorem SameClaims.after (h' : SameClaims t u) (h : SameClaims s t) : SameClaims s u := h.trans h'

theorem SameClaims.foldl {α : Type} {f : State → α → State} (h : ∀ s a, SameClaims s (f s a)) (l : List α) (s : State) :
    SameClaims s (l.foldl f s) := foldl_inv (SameClaims s) f (fun t a ht => ht.trans (h t a)) l s (.refl s)

theorem SameClaims.ite {c : Prop} [Decidable c] (h : SameClaims s t) (h' : SameClaims s u) : SameClaims s (if c then t else u) := by
  split
  · exact h
  · exact h'

theorem EventsOnly.sameClaims (h : EventsOnly s t) : SameClaims s t := by
  obtain ⟨_, _, _, rfl⟩ := h
  exact .of_tables rfl rfl rfl rfl rfl

end

theorem modField_sameClaims (s : State) (f : Nat) {g : Field → Field} (hslots : ∀ x, (g x).slots = x.slots) (hloader : ∀ x, (g x).loader = x.loader) :
    SameClaims s (s.modField f g) := by
  refine ⟨rfl, rfl, fun _ => rfl, fun _ => rfl, fun j => ?_, fun j => ?_⟩ <;> rw [field_modField] <;> split
  next hj => rw [hslots, hj]
  next => rfl
  next hj => rw [hloader, hj]
  next => rfl

theorem modStream_sameClaims (s : State) (x : Nat) {g : Stream → Stream} (hg : ∀ y, (g y).retired = y.retired) : SameClaims s (s.modStream x g) := by
  refine ⟨rfl, rfl, fun j => ?_, fun _ => rfl, fun _ => rfl, fun _ => rfl⟩
  rw [stream_modStream]
  split
  next hj => rw [hg, hj]
  next => rfl

theorem modCmd_sameClaims (k : Nat) (g : Cmd → Cmd) (s : State) : SameClaims s (modCmd k g s) := .of_tables rfl rfl rfl rfl rfl
theorem finishCmd_sameClaims (k : Nat) (r : Reply) (s : State) : SameClaims s (finishCmd k r s) := modCmd_sameClaims _ _ _
theorem post_sameClaims (code : Nat) (items : List Byte) (s : State) : SameClaims s (post code items s) := (post_eventsOnly _ _ _).sameClaims

/-! ### Memory -/

theorem countCe_sameClaims (u : Nat) (s : State) : SameClaims s (countCe u s) := .ite (.of_tables rfl rfl rfl rfl rfl) (.refl s)

theorem countUe_sameClaims (u a : Nat) (s : State) : SameClaims s (countUe u a s) :=
  .ite (.ite ((post_sameClaims _ _ _).after (.of_tables rfl rfl rfl rfl rfl)) (.of_tables rfl rfl rfl rfl rfl))
    ((post_sameClaims _ _ _).after (.of_tables rfl rfl rfl rfl rfl))

theorem touchAcc_sameClaims (s : State) (w : Nat) (e : BitVec 80) : SameClaims s (touchAcc s w e) := by
  have hcells (a b : Nat) (f g : AccCell → AccCell) : SameClaims s (((s.modAccCell a f).modAccCell b g).setErr w 0) := .of_tables rfl rfl rfl rfl rfl
  unfold touchAcc
  dsimp only
  exact .ite ((countUe_sameClaims _ _ _).after (hcells _ _ _ _)) (hcells _ _ _ _)

theorem touchPlain_sameClaims (s : State) (w : Nat) (e : BitVec 80) : SameClaims s (touchPlain s w e) := by
  have hword (d : BitVec 64) (p : Bool) : SameClaims s (((putWord s w d).setErr w 0).setPoisoned w p) := by
    refine .of_tables ?_ ?_ ?_ ?_ ?_ <;> simp only [setPoisoned_ops, setPoisoned_tokens, setPoisoned_streams, setPoisoned_dir, setPoisoned_fields,
      setErr_ops, setErr_tokens, setErr_streams, setErr_dir, setErr_fields] <;> rfl
  unfold touchPlain
  dsimp only
  split
  · exact .ite (hword _ _) ((countCe_sameClaims _ _).after (hword _ _))
  · exact (countUe_sameClaims _ _ _).after (hword _ _)

theorem touchWord_sameClaims (s : State) (w : Nat) (e : BitVec 80) : SameClaims s (touchWord s w e) := by
  unfold touchWord
  split
  · exact touchAcc_sameClaims _ _ _
  · exact touchPlain_sameClaims _ _ _

theorem touch_sameClaims (a n : Nat) (s : State) : SameClaims s (touch a n s) := .foldl (fun _ _ => touchWord_sameClaims _ _ _) _ _

theorem putBytesAt_sameClaims (s : State) (a : Nat) (l : List Byte) : SameClaims s (putBytesAt s a l) := by
  rw [putBytesAt_frame]
  exact .of_tables rfl rfl rfl rfl rfl

theorem putPoison_sameClaims (s : State) (w : Nat) (full bad : Bool) : SameClaims s (putPoison s w full bad) := by
  rw [putPoison_frame]
  exact .of_tables rfl rfl rfl rfl rfl

theorem wrBytes_sameClaims (a : Nat) (l : List Byte) (bad : Nat → Bool) (s : State) : SameClaims s (wrBytes a l bad s) :=
  ((SameClaims.foldl (fun _ _ => touch_sameClaims _ _ _) _ s).trans (putBytesAt_sameClaims _ a l)).trans
    (.foldl (fun _ _ => putPoison_sameClaims _ _ _ _) _ _)

theorem wrShown_sameClaims (a : Nat) (l : List Byte) (s : State) : SameClaims s (wrShown a l s) :=
  (wrBytes_sameClaims a l _ s).trans (.of_tables rfl rfl rfl rfl rfl)

theorem carry_sameClaims (p : NetPkt) (l : List (Nat × Nat)) (s : State) : SameClaims s (carry p l s).1 := by
  induction l with
  | nil => exact .refl s
  | cons h l ih =>
    unfold carry
    split
    · exact .of_tables rfl rfl rfl rfl rfl
    · exact ih

theorem respond_sameClaims (d : Nat) (data : List Byte) (poison : List Bool) (s : State) : SameClaims s (respond d data poison s) :=
  .ite ((carry_sameClaims _ _ s).trans (.of_tables rfl rfl rfl rfl rfl)) (carry_sameClaims _ _ s)

theorem cxlRespond_sameClaims (a n : Nat) (s : State) : SameClaims s (cxlRespond a n s) := (respond_sameClaims _ _ _ _).after (touch_sameClaims a n s)

theorem serveHeld_sameClaims (u : Nat) (s : State) : SameClaims s (serveHeld u s) :=
  (SameClaims.foldl (fun _ _ => .ite (wrShown_sameClaims _ _ _) (cxlRespond_sameClaims _ _ _)) _ _).after (.of_tables rfl rfl rfl rfl rfl)

/-! ### Units that are fenced when the last op leaves them (R465) -/

/-- What every entry of a table keeps, the table keeps. -/
theorem tget_tmap_keep {α β : Type} [DecidableEq α] {d : α} {g : Nat → α → α} {c : α → β} (hg : ∀ k v, c (g k v) = c v) (t : Tab α) (k : Nat) :
    c (tget d (tmap d t g) k) = c (tget d t k) := by
  refine foldl_keep (fun t => c (tget d t k)) _ (fun t j => ?_) _ t
  show c (tget d (tset d t j _) k) = _
  rw [tget_tset]
  split
  next hj => rw [hg, hj]
  next => rfl

theorem damage_holders (s : State) (u : Nat) (d : Dir) : (d.damage s u).holders = d.holders := by
  unfold Dir.damage
  split <;> rfl

/-- A memory unit out of service damages the entries that touch it, and serves what it held (R334, R459). -/
theorem memoryFenced_sameClaims (s : State) (u : Nat) (m : MemUnit → MemUnit) :
    SameClaims s (serveHeld u ((s.modUnit u m).modDir (fun d => tmap {} d (fun _ e => e.damage s u)))) :=
  (serveHeld_sameClaims _ _).after ⟨rfl, rfl, fun _ => rfl, fun h => tget_tmap_keep (c := Dir.holders) (fun _ _ => damage_holders _ _ _) s.dir h,
    fun _ => rfl, fun _ => rfl⟩

theorem markFenced_sameClaims (kind index sub : Nat) (s : State) : SameClaims s (markFenced kind index sub s) := by
  unfold markFenced
  split
  · exact modField_sameClaims _ _ (fun _ => rfl) fun _ => rfl
  · exact modField_sameClaims _ _ (fun _ => rfl) fun _ => rfl
  · exact .of_tables rfl rfl rfl rfl rfl
  · exact .of_tables rfl rfl rfl rfl rfl
  · exact memoryFenced_sameClaims _ _ _
  · exact memoryFenced_sameClaims _ _ _
  · exact .of_tables rfl rfl rfl rfl rfl
  · exact .refl s

theorem endDisable_sameClaims (s : State) (d : Nat × Nat × Nat × Nat × Nat) : SameClaims s (endDisable s d) :=
  .ite (.refl s) ((finishCmd_sameClaims _ _ _).after ((post_sameClaims _ _ _).after ((markFenced_sameClaims _ _ _ _).after
    (.of_tables rfl rfl rfl rfl rfl))))

theorem endDisables_sameClaims (s : State) : SameClaims s (endDisables s) := .foldl (fun _ _ => endDisable_sameClaims _ _) _ s

theorem countAbort_sameClaims (o : Op) (reason : Nat) (s : State) (k : Nat) : SameClaims s (countAbort o reason s k) := by
  unfold countAbort
  extract_lets t
  have ht : SameClaims s t := modCmd_sameClaims _ _ _
  split
  · refine .ite (ht.trans ((finishCmd_sameClaims _ _ _).after (modStream_sameClaims t o.stream ?_))) ht
    exact fun _ => rfl
  · exact ht

/-! ### The parts of a retire -/

/-- An aborted, admitted `field.gemm` loses the row map of its rows (R264). -/
def dropAborted (o : Op) (ab : Bool) (s : State) : State :=
  match o.map with
  | some m => if ab && o.admitted && o.code == 0x01 then dropMaps m.part m.firstRow m.rows s else s
  | none => s

/-- The row map of an aborted `field.gemm`, the unsent packets and the manifest references of the op are gone (R249, R264). -/
def retireReleased (o : Op) (ab : Bool) (s : State) : State :=
  releaseManifest o ab (releaseHeld o (if ab then dropUnsent o (dropAborted o ab s) else dropAborted o ab s))

/-- The token of the op counts it (R241, R247). -/
def retireSignalled (o : Op) (ab : Bool) (s : State) : State :=
  match o.signals with
  | some t => signalToken (o.part s) t o.signalCount ab s
  | none => s

/-- The units of the op are free, and a fence shows the writes before it (R244, R257, R322). -/
def retireFreed (o : Op) (ab : Bool) (s : State) : State := showFence o ab (releaseFields o (releaseCores o (releaseHandle o s)))

/-- The op is counted in its stream, told of, and leaves the window (R233, R397). -/
def retireCounted (k : Nat) (o : Op) (s : State) : State :=
  let s := countRetired o s
  let s := if o.wantsEvent then postOne o.mb 0x0101 (leBytes 1 o.stream ++ leBytes 2 o.tag ++ leBytes 2 (o.index % 65536)) s else s
  { s with ops := s.ops.filter (fun x => x.key != k) }

/-- What waits for the op's retire is answered (R264, R465). -/
def retireAnswered (o : Op) (reason : Nat) (s : State) : State := endDisables (o.abortCmds.foldl (countAbort o reason) s)

/-- All that comes before the completion word. -/
def retireCleared (o : Op) (ab : Bool) (s : State) : State := retireFreed o ab (retireSignalled o ab (retireReleased o ab s))

/-- The whole retire of the op as it stands with its flags. -/
def retireEnd (k : Nat) (o : Op) (ab : Bool) (reason detail : Nat) (s : State) : State :=
  retireAnswered o reason (retireCounted k o
    (sendWord o.cpl (completionWord (retireCleared o ab s) o ab reason detail) (retireCleared o ab s)))

theorem retire_eq {s : State} {k : Nat} {o : Op} (h : opOf s k = some o) (herror : s.flt.deviceError = false) (ab : Bool) (reason detail : Nat) :
    retire k ab reason detail s = retireEnd k (o.flagIf (reason == 8) fDegraded) ab reason detail s := by
  simp only [retire, h, herror, Bool.false_eq_true, if_false]
  rfl

theorem flagIf_eq (b : Bool) (i : Nat) (o : Op) : ∃ fl, o.flagIf b i = { o with flags := fl } := by
  unfold Op.flagIf
  split
  · exact ⟨_, rfl⟩
  · exact ⟨o.flags, rfl⟩

/-! ### What each part leaves -/

/-- `t` is `s` but for row maps, link packets, what the sequencer counts, and the manifest. -/
def ReleasesOnly (s t : State) : Prop := ∃ m l q e, t = { s with rowMaps := m, link := l, seq := q, manifest := e }

theorem ReleasesOnly.trans {s t u : State} (h : ReleasesOnly s t) (h' : ReleasesOnly t u) : ReleasesOnly s u := by
  obtain ⟨_, _, _, _, rfl⟩ := h
  obtain ⟨_, _, _, _, rfl⟩ := h'
  exact ⟨_, _, _, _, rfl⟩

theorem ReleasesOnly.foldl {α : Type} {f : State → α → State} (h : ∀ s a, ReleasesOnly s (f s a)) (l : List α) (s : State) :
    ReleasesOnly s (l.foldl f s) := foldl_inv (ReleasesOnly s) f (fun t a ht => ht.trans (h t a)) l s ⟨_, _, _, _, rfl⟩

theorem dropAborted_releasesOnly (o : Op) (ab : Bool) (s : State) : ReleasesOnly s (dropAborted o ab s) := by
  unfold dropAborted
  split
  · split <;> exact ⟨_, _, _, _, rfl⟩
  · exact ⟨_, _, _, _, rfl⟩

theorem dropUnsent_releasesOnly (o : Op) (s : State) : ReleasesOnly s (dropUnsent o s) := by
  unfold dropUnsent
  split <;> exact ⟨_, _, _, _, rfl⟩

theorem releaseHeld_releasesOnly (o : Op) (s : State) : ReleasesOnly s (releaseHeld o s) := .foldl (fun _ _ => ⟨_, _, _, _, rfl⟩) _ s

theorem releaseManifest_releasesOnly (o : Op) (ab : Bool) (s : State) : ReleasesOnly s (releaseManifest o ab s) := by
  refine .foldl (fun t i => ?_) _ s
  dsimp only
  split <;> exact ⟨_, _, _, _, rfl⟩

theorem retireReleased_releasesOnly (o : Op) (ab : Bool) (s : State) : ReleasesOnly s (retireReleased o ab s) := by
  refine ((dropAborted_releasesOnly o ab s).trans ?_).trans ((releaseHeld_releasesOnly o _).trans (releaseManifest_releasesOnly o ab _))
  split
  · exact dropUnsent_releasesOnly o _
  · exact ⟨_, _, _, _, rfl⟩

theorem retireReleased_sameClaims (o : Op) (ab : Bool) (s : State) : SameClaims s (retireReleased o ab s) := by
  obtain ⟨m, l, q, e, h⟩ := retireReleased_releasesOnly o ab s
  rw [h]
  exact .of_tables rfl rfl rfl rfl rfl

theorem retireSignalled_frame (o : Op) (ab : Bool) (s : State) : retireSignalled o ab s = { s with tokens := (retireSignalled o ab s).tokens } := by
  unfold retireSignalled
  split <;> rfl

theorem releaseHandle_frame (o : Op) (s : State) : releaseHandle o s = { s with dir := (releaseHandle o s).dir } := by
  unfold releaseHandle
  split <;> rfl

/-- The cores and the drains of the op change cores and the clusters in use of fields. -/
theorem releaseCores_frame (o : Op) (s : State) : ∃ c f, releaseCores o s = { s with cores := c, fields := f } := by
  unfold releaseCores
  refine foldl_inv (fun (t : State) => ∃ c f, t = { s with cores := c, fields := f }) _ ?_ _ _ ?_
  · rintro t x ⟨c, f, rfl⟩
    exact ⟨_, _, rfl⟩
  · refine foldl_inv (fun (t : State) => ∃ c f, t = { s with cores := c, fields := f }) _ ?_ _ _ ⟨_, _, rfl⟩
    rintro t x ⟨c, f, rfl⟩
    exact ⟨_, _, rfl⟩

theorem showFence_frame (o : Op) (ab : Bool) (s : State) : ∃ q, showFence o ab s = { s with seq := q } := by
  unfold showFence
  split <;> exact ⟨_, rfl⟩

/-- The freeing of the units changes cores, fields, the directory and what the sequencer hides. -/
theorem retireFreed_frame (o : Op) (ab : Bool) (s : State) :
    ∃ c f q, retireFreed o ab s = { s with dir := (releaseHandle o s).dir, cores := c, fields := f, seq := q } := by
  obtain ⟨c, f, hcores⟩ := releaseCores_frame o (releaseHandle o s)
  obtain ⟨q, hfence⟩ := showFence_frame o ab (releaseFields o (releaseCores o (releaseHandle o s)))
  refine ⟨c, (releaseFields o (releaseCores o (releaseHandle o s))).fields, q, ?_⟩
  rw [retireFreed, hfence, releaseFields, hcores, releaseHandle_frame]

/-- The field without what op `o` holds of it. -/
def Field.release (o : Op) (f : Nat) (x : Field) : Field :=
  { x with
    quantBusy := if o.code = 0x11 ∧ 2 ≤ o.stage ∧ (maskList 32 (o.dn 40 4)).head? = some f then 0 else x.quantBusy
    slots := if x.slots = some o.key then none else x.slots
    swapWait := x.swapWait && !(x.slots == some o.key)
    loader := if x.loader = some o.key then none else x.loader
    nextOp := if x.nextOp = some o.key then none else x.nextOp }

theorem release_unclaimed (o : Op) (f : Nat) (x : Field) : (x.release o f).slots ≠ some o.key ∧ (x.release o f).loader ≠ some o.key := by
  have hfree (y : Option Nat) : (if y = some o.key then none else y) ≠ some o.key := by
    split
    · exact (Option.some_ne_none _).symm
    · assumption
  exact ⟨hfree _, hfree _⟩

theorem releaseFields_fields (o : Op) (s : State) : (releaseFields o s).fields = tmap {} s.fields (fun f x => x.release o f) := rfl

/-- All that comes before the completion word leaves memory, the units, the time and the ops. -/
theorem retireCleared_frame (o : Op) (ab : Bool) (s : State) : ∃ m l q e c f, retireCleared o ab s =
    { s with rowMaps := m, link := l, seq := q, manifest := e, cores := c, fields := f, tokens := (retireSignalled o ab s).tokens, dir := (releaseHandle o s).dir } := by
  obtain ⟨m, l, q, e, hrel⟩ := retireReleased_releasesOnly o ab s
  have htokens : (retireSignalled o ab (retireReleased o ab s)).tokens = (retireSignalled o ab s).tokens := by
    rw [hrel]
    unfold retireSignalled
    split <;> rfl
  have hdir : (releaseHandle o (retireSignalled o ab (retireReleased o ab s))).dir = (releaseHandle o s).dir := by
    rw [retireSignalled_frame, hrel]
    unfold releaseHandle
    split <;> rfl
  obtain ⟨c, f, q', hfreed⟩ := retireFreed_frame o ab (retireSignalled o ab (retireReleased o ab s))
  refine ⟨m, l, q', e, c, f, ?_⟩
  rw [retireCleared, hfreed, hdir, retireSignalled_frame, htokens, hrel]

/-- No field is held by an op that has left it. -/
theorem field_retireFreed (o : Op) (ab : Bool) (s : State) (f : Nat) :
    ((retireFreed o ab s).field f).slots ≠ some o.key ∧ ((retireFreed o ab s).field f).loader ≠ some o.key := by
  obtain ⟨q, hfence⟩ := showFence_frame o ab (releaseFields o (releaseCores o (releaseHandle o s)))
  have hfields : (retireFreed o ab s).fields = tmap {} (releaseCores o (releaseHandle o s)).fields (fun f x => x.release o f) := by
    rw [retireFreed, hfence, ← releaseFields_fields]
  unfold State.field
  rw [hfields]
  exact tget_tmap (P := fun x : Field => x.slots ≠ some o.key ∧ x.loader ≠ some o.key) ⟨(Option.some_ne_none _).symm, (Option.some_ne_none _).symm⟩
    (fun f x => release_unclaimed o f x) _ f

theorem sendWord_sameClaims (a : Nat) (l : List Byte) (s : State) : SameClaims s (sendWord a l s) :=
  .ite (.of_tables rfl rfl rfl rfl rfl) (wrShown_sameClaims a l s)

theorem retireAnswered_sameClaims (o : Op) (reason : Nat) (s : State) : SameClaims s (retireAnswered o reason s) :=
  (endDisables_sameClaims _).after (.foldl (fun _ _ => countAbort_sameClaims _ _ _ _) _ s)

theorem postOne_eventsOnly (m code : Nat) (items : List Byte) (s : State) : EventsOnly s (postOne m code items s) := by
  unfold postOne
  split
  · exact ⟨_, _, _, rfl⟩
  · exact eventTo_eventsOnly _ _ _ _

/-- The count of a retired op changes its stream, the ops, and what sending an event writes. -/
theorem retireCounted_frame (k : Nat) (o : Op) (s : State) : ∃ h b w, retireCounted k o s =
    { s with ops := s.ops.filter (fun x => x.key != k), streams := (countRetired o s).streams, hostMem := h, mbs := b, stw := w } := by
  have hevent : EventsOnly (countRetired o s) (if o.wantsEvent then
      postOne o.mb 0x0101 (leBytes 1 o.stream ++ leBytes 2 o.tag ++ leBytes 2 (o.index % 65536)) (countRetired o s) else countRetired o s) := by
    split
    · exact postOne_eventsOnly _ _ _ _
    · exact ⟨_, _, _, rfl⟩
  obtain ⟨h, b, w, hevent⟩ := hevent
  refine ⟨h, b, w, ?_⟩
  rw [retireCounted, hevent]
  rfl

theorem retired_countRetired (o : Op) (s : State) : ((countRetired o s).stream o.stream).retired = (s.stream o.stream).retired + 1 := by
  rw [countRetired, stream_modStream, if_pos rfl]

/-! ### The op window -/

theorem opOf_filter_self (s : State) (k : Nat) : opOf { s with ops := s.ops.filter (fun x => x.key != k) } k = none := by
  refine List.find?_eq_none.mpr fun o ho => ?_
  simpa using (List.mem_filter.mp ho).2

theorem opOf_filter_ne (s : State) {j k : Nat} (hj : j ≠ k) : opOf { s with ops := s.ops.filter (fun x => x.key != k) } j = opOf s j := by
  unfold opOf
  dsimp only
  rw [List.find?_filter]
  congr 1
  funext x
  by_cases hx : x.key = j <;> simp [hx, hj]

/-! ### What a retire leaves -/

/-- What a retire does to what ops claim: the op leaves the window, its token counts it, its stream counts one, its directory entry has one holder less, and no
field is held by it. -/
theorem retireEnd_claims {k : Nat} {o : Op} (hkey : o.key = k) (ab : Bool) (reason detail : Nat) (s : State) :
    (retireEnd k o ab reason detail s).ops = s.ops.filter (fun x => x.key != k) ∧
    (retireEnd k o ab reason detail s).tokens = (retireSignalled o ab s).tokens ∧
    ((retireEnd k o ab reason detail s).stream o.stream).retired = (s.stream o.stream).retired + 1 ∧
    (∀ i, ((retireEnd k o ab reason detail s).dirEntry i).holders = ((releaseHandle o s).dirEntry i).holders) ∧
    ∀ f, ((retireEnd k o ab reason detail s).field f).slots ≠ some k ∧ ((retireEnd k o ab reason detail s).field f).loader ≠ some k := by
  obtain ⟨w, hw⟩ : ∃ w, w = sendWord o.cpl (completionWord (retireCleared o ab s) o ab reason detail) (retireCleared o ab s) := ⟨_, rfl⟩
  have hword : SameClaims (retireCleared o ab s) w := hw ▸ sendWord_sameClaims _ _ _
  have hclaims : SameClaims (retireCounted k o w) (retireEnd k o ab reason detail s) := by
    rw [retireEnd, ← hw]
    exact retireAnswered_sameClaims _ _ _
  obtain ⟨h, b, v, hcount⟩ := retireCounted_frame k o w
  obtain ⟨m, l, q, e, c, f, hclear⟩ := retireCleared_frame o ab s
  have hheld (f : Nat) : ((retireCleared o ab s).field f).slots ≠ some k ∧ ((retireCleared o ab s).field f).loader ≠ some k := hkey ▸ field_retireFreed o ab _ f
  refine ⟨?_, ?_, ?_, fun i => ?_, fun f => ?_⟩
  · rw [hclaims.ops, hcount, hword.ops, hclear]
  · rw [hclaims.tokens, hcount, hword.tokens, hclear]
  · rw [hclaims.retired, stream_congr (countRetired o w) _ (by rw [hcount]), retired_countRetired, hword.retired, stream_congr s _ (by rw [hclear])]
  · rw [hclaims.holders, dirEntry_congr w _ (by rw [hcount]), hword.holders, dirEntry_congr (releaseHandle o s) _ (by rw [hclear])]
  · rw [hclaims.slots, hclaims.loader, field_congr w _ (by rw [hcount]), hword.slots, hword.loader]
    exact hheld f

section
variable {s : State} {k : Nat} {o : Op} (h : opOf s k = some o) (herror : s.flt.deviceError = false)
include h herror

theorem retire_leaves (ab : Bool) (reason detail : Nat) :
    opOf (retire k ab reason detail s) k = none ∧
    (∀ j, j ≠ k → opOf (retire k ab reason detail s) j = opOf s j) ∧
    (∀ tk, o.signals = some tk → (retire k ab reason detail s).token (4096 * o.part s + tk) =
      { count := (s.token (4096 * o.part s + tk)).count + BitVec.ofNat 16 o.signalCount, abort := (s.token (4096 * o.part s + tk)).abort || ab }) ∧
    (o.signals = none → (retire k ab reason detail s).tokens = s.tokens) ∧
    ((retire k ab reason detail s).stream o.stream).retired = (s.stream o.stream).retired + 1 ∧
    (∀ h, o.holds = some h → o.holdsPrev = false → ((retire k ab reason detail s).dirEntry h).holders = (s.dirEntry h).holders - 1) ∧
    ∀ f, ((retire k ab reason detail s).field f).slots ≠ some k ∧ ((retire k ab reason detail s).field f).loader ≠ some k := by
  obtain ⟨fl, hfl⟩ := flagIf_eq (reason == 8) fDegraded o
  have hkey : o.key = k := opOf_key h
  obtain ⟨hops, htokens, hretired, hholders, hfields⟩ := retireEnd_claims (o := { o with flags := fl }) hkey ab reason detail s
  rw [retire_eq h herror, hfl]
  refine ⟨?_, fun j hj => ?_, fun tk htk => ?_, fun hnone => ?_, hretired, fun i hi hprev => ?_, hfields⟩
  · exact (opOf_congr hops k).trans (opOf_filter_self s k)
  · exact (opOf_congr hops j).trans (opOf_filter_ne s hj)
  · rw [token_congr _ _ htokens, retireSignalled, show ({ o with flags := fl } : Op).signals = some tk from htk]
    exact (token_modToken s _ _ _).trans (if_pos rfl)
  · rw [htokens, retireSignalled, show ({ o with flags := fl } : Op).signals = none from hnone]
  · rw [hholders, releaseHandle, show ({ o with flags := fl } : Op).holds = some i from hi]
    dsimp only
    rw [dirEntry_modDirEntry, if_pos rfl, hprev]
    rfl

end

theorem retire_deviceError {s : State} (k : Nat) (ab : Bool) (reason detail : Nat) (herror : s.flt.deviceError = true) :
    retire k ab reason detail s = s := by
  unfold retire
  split
  · rfl
  · exact if_pos herror

/-! ### The completion word (R245, R261) -/

theorem length_completionWord (s : State) (o : Op) (ab : Bool) (reason detail : Nat) : (completionWord s o ab reason detail).length = 16 := by
  simp only [completionWord, List.length_append, length_leBytes, List.length_cons, List.length_nil]

theorem heldAny_congr {s t : State} (hnet : t.net = s.net) (htop : t.memTop = s.memTop) (hunits : t.units = s.units) (l : List (Nat × Nat)) :
    heldAny t l = heldAny s l := by
  simp only [heldAny, unitHolds, touchesUnit, locOf_congr hnet htop, unit_congr s t hunits]

/-- A word that goes out to memory which takes it stands there. -/
theorem read_sendWord {s : State} {a i : Nat} {l : List Byte} (he : s.errs = []) (hheld : held s a l.length = false) (hi : i < l.length)
    (hstore : noStore s (a + i) = false) : Memory.read (sendWord a l s).mem (a + i) = l.getD i 0 := by
  rw [sendWord, if_neg (ne_true_of_eq_false hheld)]
  exact (wrShown_stores he hi hstore).1

theorem sendWord_flt {s : State} (he : s.errs = []) (a : Nat) (l : List Byte) : (sendWord a l s).flt = s.flt := by
  obtain ⟨p, q, h⟩ := wrShown_eq he a l
  unfold sendWord
  split
  · rfl
  · rw [h]

theorem countAbort_store (o : Op) (reason : Nat) (s : State) (k : Nat) :
    (countAbort o reason s k).mem = s.mem ∧ (countAbort o reason s k).flt = s.flt := by
  unfold countAbort
  dsimp only
  split
  · split <;> exact ⟨rfl, rfl⟩
  · exact ⟨rfl, rfl⟩

/-- Where no unit is being disabled, the answers to those that wait for the op write no memory. -/
theorem retireAnswered_mem {s : State} (hd : s.flt.disabling = []) (o : Op) (reason : Nat) : (retireAnswered o reason s).mem = s.mem := by
  obtain ⟨hmem, hflt⟩ := foldl_inv (fun (t : State) => t.mem = s.mem ∧ t.flt = s.flt) (countAbort o reason)
    (fun t k ht => ⟨(countAbort_store o reason t k).1.trans ht.1, (countAbort_store o reason t k).2.trans ht.2⟩) o.abortCmds s ⟨rfl, rfl⟩
  rw [retireAnswered, endDisables, hflt, hd]
  exact hmem

/-- The completion word of the op stands in memory where the units take it (R261). -/
theorem retireEnd_storesWord {s : State} {k i : Nat} {o : Op} (ab : Bool) (reason detail : Nat) (he : s.errs = []) (hd : s.flt.disabling = [])
    (hstore : ∀ j, j < 16 → noStore s (o.cpl + j) = false) (hheld : held s o.cpl 16 = false) (hi : i < 16) :
    Memory.read (retireEnd k o ab reason detail s).mem (o.cpl + i) = (completionWord s o ab reason detail).getD i 0 := by
  obtain ⟨m, l, q, e, c, f, hclear⟩ := retireCleared_frame o ab s
  obtain ⟨t, ht⟩ : ∃ t, t = retireCleared o ab s := ⟨_, rfl⟩
  rw [retireEnd, ← ht]
  rw [← ht] at hclear
  have hword : completionWord t o ab reason detail = completionWord s o ab reason detail := by rw [hclear]; rfl
  have hlen := length_completionWord s o ab reason detail
  have hnet : t.net = s.net := by rw [hclear]
  have htop : t.memTop = s.memTop := by rw [hclear]
  have hunits : t.units = s.units := by rw [hclear]
  have het : t.errs = [] := by rw [hclear, he]
  have hdt : t.flt.disabling = [] := by rw [hclear, hd]
  rw [hword]
  obtain ⟨h, b, v, hcount⟩ := retireCounted_frame k o (sendWord o.cpl (completionWord s o ab reason detail) t)
  rw [retireAnswered_mem (by rw [hcount, sendWord_flt het, hdt]), hcount]
  refine read_sendWord het ?_ (by rw [hlen]; exact hi) ((noStore_congr hnet htop hunits _).trans (hstore i hi))
  rw [hlen]
  exact (heldAny_congr hnet htop hunits _).trans hheld

theorem retire_storesWord {s : State} {k i : Nat} {o : Op} (ab : Bool) (reason detail : Nat) (h : opOf s k = some o) (herror : s.flt.deviceError = false)
    (he : s.errs = []) (hd : s.flt.disabling = []) (hstore : ∀ j, j < 16 → noStore s (o.cpl + j) = false) (hheld : held s o.cpl 16 = false) (hi : i < 16) :
    Memory.read (retire k ab reason detail s).mem (o.cpl + i) = (completionWord s (o.flagIf (reason == 8) fDegraded) ab reason detail).getD i 0 := by
  obtain ⟨fl, hfl⟩ := flagIf_eq (reason == 8) fDegraded o
  rw [retire_eq h herror, hfl]
  exact retireEnd_storesWord (o := { o with flags := fl }) ab reason detail he hd hstore hheld hi

/-- Settles O25: what ops claim by the parts of a retire that touch it (`retireEnd_claims`), the completion word by the one store that the retire makes. -/
theorem retireEndsTheOpAndStoresItsWord : Obligations.RetireEndsTheOpAndStoresItsWord :=
  ⟨fun _ _ _ ab reason detail h herror => retire_leaves h herror ab reason detail, fun _ k ab reason detail => retire_deviceError k ab reason detail,
    fun _ _ _ ab reason detail _ => retire_storesWord ab reason detail⟩

end Sys2Proof.Machine
end

section
/-! The `exec` and `manifest` commands: each is taken, passes its checks, acts and is answered or waits. -/

namespace Sys2Proof.Machine

open Sys2Proof State

/-! ### The stream commands -/

section
variable {s : State} {k st : Nat} {c : Cmd}

theorem execSubmit_queues {u : Nat} (h : Taken s k 0x0601 c) (hst : c.at 16 1 = st) (h64 : st < 64) (hz : c.at 17 7 = 0) (halign : c.at 24 6 % 64 = 0)
    (hhome : locOf s (c.at 24 6) = .hbm (partOfStream s st) u) (hz30 : c.at 30 2 = 0) (hlo : 1 ≤ c.at 32 4) (hhi : c.at 32 4 ≤ 65536) (hz36 : c.at 36 4 = 0)
    (hcpl : c.at 40 6 % 16 = 0) (hz46 : c.at 46 18 = 0) (hres : resetting s (partOfStream s st) = false) (hroom : (s.stream st).subs.length < 256) :
    Completes (.execSubmit k) s (fun t =>
      Answered s t k { status := stAccepted, result := leBytes 4 (s.stream st).subCount ++ leBytes 4 ((s.stream st).subs.length + 1) } ∧
      (t.stream st).subs = (s.stream st).subs ++ [{ id := (s.stream st).subCount, addr := c.at 24 6, count := c.at 32 4, cplBase := c.at 40 6, mb := c.src }] ∧
      (t.stream st).subCount = (s.stream st).subCount + 1 ∧ (∀ j, j ≠ st → t.stream j = s.stream j) ∧ t = { s with cmds := t.cmds, streams := t.streams }) := by
  subst hst
  have hcount : ¬(c.at 32 4 = 0 ∨ 65536 < c.at 32 4) := by omega
  refine ⟨_, congrArg Host.Outcome.next (runCmd_acts h ?_ rfl rfl), answered_finish _ _ _ _ rfl, ?_, ?_, fun j hj => ?_, rfl⟩
  · simp [hz, halign, hhome, hz30, hcount, hz36, hcpl, hz46, hres, Nat.not_lt.mpr (Nat.le_of_lt_succ h64), Nat.not_le.mpr hroom]
  · rw [stream_congr _ _ (finishCmd_streams _ _ _), stream_setStream, if_pos rfl]
  · rw [stream_congr _ _ (finishCmd_streams _ _ _), stream_setStream, if_pos rfl]
  · rw [stream_congr _ _ (finishCmd_streams _ _ _), stream_setStream, if_neg hj]

theorem execStream_setsPrio (h : Taken s k 0x0605 c) (hst : c.at 16 1 = st) (h64 : st < 64) (hprio : c.at 17 1 ≤ 3) (hz : c.at 18 46 = 0)
    (hres : resetting s (partOfStream s st) = false) :
    Completes (.execStream k) s (fun t => Answered s t k {} ∧ t.stream st = { s.stream st with prio := c.at 17 1 } ∧
      (∀ j, j ≠ st → t.stream j = s.stream j) ∧ t = { s with cmds := t.cmds, streams := t.streams }) := by
  subst hst
  refine ⟨_, congrArg Host.Outcome.next (runCmd_acts h ?_ rfl rfl), answered_finish _ _ _ _ rfl, ?_, fun j hj => ?_, rfl⟩
  · simp [hz, hres, Nat.not_lt.mpr (Nat.le_of_lt_succ h64), Nat.not_lt.mpr hprio]
  · rw [stream_congr _ _ (finishCmd_streams _ _ _), stream_modStream, if_pos rfl]
  · rw [stream_congr _ _ (finishCmd_streams _ _ _), stream_modStream, if_neg hj]

/-! ### Abort -/

/-- An abort of a stream with no descriptor queued reads no memory. -/
theorem abortHeld_unqueued (h : cmdOf s k = some c) (hq : queuedOps s (c.at 16 1) = []) : abortHeld s k = false := by
  simp [abortHeld, h, hq, heldAny]

/-- The op that an abort command finds admitted: it retires aborted within its bound, and tells the command. -/
def Op.abortedBy (o : Op) (k beat : Nat) : Op := { o with abortAt := some (o.abortAt.getD beat), abortCmds := o.abortCmds ++ [k] }

/-- An abort command that counts the `n` admitted ops it waits for, and found nothing else. -/
def Cmd.awaits (n : Nat) (c : Cmd) : Cmd := { c with wait := n, aux := 0, aux2 := 0 }

/-- The state in which the admitted ops of stream `st` are being aborted by command `k`, which counts them. -/
def abortAdmitted (k st : Nat) (s : State) : State :=
  let adm := (streamOps s st).map (fun o => o.key)
  let s := modCmd k (Cmd.awaits adm.length) s
  ({ s with ops := s.ops.map (fun (o : Op) => if adm.contains o.key then o.abortedBy k s.tim.beat else o) } : State).modStream st
    (fun x => { x with aborting := x.aborting ++ [k] })

/-- The command of key `k` is the one that `modCmd k` changes. -/
theorem cmdOf_modCmd_own {g : Cmd → Cmd} (hg : ∀ c, (g c).key = c.key) (h : cmdOf s k = some c) : cmdOf (modCmd k g s) k = some (g c) := by
  simp [cmdOf_modCmd k k g hg, h]

/-- A command that is taken and changed in its counters alone waits once it has started. -/
theorem waiting_startCmd {t : State} (b : Bool) (h : cmdOf t k = some c) (hd : c.decided = false) : Waiting (startCmd k b t) k := by
  refine ⟨{ c with started := true, committed := c.committed || b }, ?_, rfl, hd⟩
  rw [startCmd, cmdOf_modCmd_own ?_ h]
  exact fun _ => rfl

theorem execAbort_stream (h : Taken s k 0x0602 c) (hst : c.at 16 1 = st) (h64 : st < 64) (hall : c.at 17 1 = 1) (hz : c.at 20 44 = 0)
    (hres : resetting s (partOfStream s st) = false) (hq : queuedOps s st = []) (hadm : ∀ o, o ∈ streamOps s st → o.admitted = true)
    (hne : streamOps s st ≠ []) : exec (.execAbort k) s = .next (startCmd k true (abortAdmitted k st s)) := by
  subst hst
  have hheld : ¬(abortHeld s k = true) := by rw [abortHeld_unqueued h.1 hq]; exact Bool.false_ne_true
  have hadmitted : (streamOps s (c.at 16 1)).filter Op.admitted = streamOps s (c.at 16 1) := List.filter_eq_self.mpr hadm
  have hearly : (streamOps s (c.at 16 1)).filter (fun o => !o.admitted) = [] := List.filter_eq_nil_iff.mpr (by simpa using hadm)
  refine congrArg Host.Outcome.next ((if_neg hheld).trans (runCmd_waits h ?_ (t := abortAdmitted k (c.at 16 1) s) (r := { wait := true }) ?_ rfl))
  · simp [hall, hz, hres, Nat.not_lt.mpr (Nat.le_of_lt_succ h64)]
  · simp [hall, hq, hadmitted, hearly, hne, retireAll, abortAdmitted, Op.abortedBy]
    rfl

theorem execAbort_streamWaits (h : Taken s k 0x0602 c) (hst : c.at 16 1 = st) (h64 : st < 64) (hall : c.at 17 1 = 1) (hz : c.at 20 44 = 0)
    (hres : resetting s (partOfStream s st) = false) (hq : queuedOps s st = []) (hadm : ∀ o, o ∈ streamOps s st → o.admitted = true)
    (hne : streamOps s st ≠ []) :
    Completes (.execAbort k) s (fun t => Waiting t k ∧ (∀ o, o ∈ t.ops → o.stream = st → o.abortAt.isSome = true ∧ k ∈ o.abortCmds) ∧ t.mem = s.mem) := by
  refine ⟨_, execAbort_stream h hst h64 hall hz hres hq hadm hne, ?_, ?_, rfl⟩
  · have hcmd : cmdOf (abortAdmitted k st s) k = some (c.awaits ((streamOps s st).map (fun o => o.key)).length) :=
      (cmdOf_congr rfl k).trans (cmdOf_modCmd_own (fun _ => rfl) h.1)
    exact waiting_startCmd _ hcmd (taken_open h).1
  · intro o ho hstream
    obtain ⟨x, hx, rfl⟩ := List.mem_map.mp (show o ∈ s.ops.map _ from ho)
    by_cases hkey : x.key ∈ (streamOps s st).map (fun o => o.key)
    · simp [hkey, Op.abortedBy]
    · have : x.stream ≠ st := fun hxs => hkey (List.mem_map_of_mem (List.mem_filter.mpr ⟨hx, by simpa using hxs⟩))
      simp [hkey] at hstream
      exact absurd hstream this

theorem execAbort_gone {tag : Nat} (h : Taken s k 0x0602 c) (hst : c.at 16 1 = st) (h64 : st < 64) (hby : c.at 17 1 = 0) (htag : c.at 18 2 = tag)
    (hz : c.at 20 44 = 0) (hres : resetting s (partOfStream s st) = false) (hi : (streamOps s st).filter (fun o => o.tag == tag) = [])
    (hq : (queuedOps s st).filter (fun q => queuedTag s st q == tag) = []) (hgone : tag ∈ (s.stream st).tags) (hheld : abortHeld s k = false) :
    Completes (.execAbort k) s (fun t =>
      Answered s t k { status := stAlreadyDone, result := leBytes 4 0 ++ leBytes 4 ((s.stream st).tags.filter (fun x => x == tag)).length } ∧
      t = { s with cmds := t.cmds }) := by
  subst hst htag
  have hfound : ¬(((s.stream (c.at 16 1)).tags.filter (fun t => t == c.at 18 2)).length = 0) := by
    rw [List.length_eq_zero_iff, List.filter_eq_nil_iff]
    exact fun hall => hall _ hgone (by simp)
  refine ⟨_, congrArg Host.Outcome.next ((if_neg (by simp [hheld])).trans (runCmd_refused h ?_ rfl)), answered_finish _ _ _ _ rfl, rfl⟩
  simp [hby, hz, hres, hi, hq, hgone, Nat.not_lt.mpr (Nat.le_of_lt_succ h64), orElse_cons]

end

/-! ### Tokens -/

/-- Clearing tokens leaves every other as it was and changes no other table. -/
theorem clearTokens_only (l : List Nat) (s : State) : (∀ j, (l.foldl (fun (s : State) i => s.setToken i {}) s).token j = if j ∈ l then {} else s.token j) ∧
    l.foldl (fun (s : State) i => s.setToken i {}) s = { s with tokens := (l.foldl (fun (s : State) i => s.setToken i {}) s).tokens } := by
  induction l generalizing s with
  | nil => exact ⟨fun j => by simp, rfl⟩
  | cons i l ih =>
    obtain ⟨htoken, honly⟩ := ih (s.setToken i {})
    refine ⟨fun j => ?_, honly⟩
    rw [List.foldl_cons, htoken, token_setToken]
    by_cases hj : j ∈ l <;> by_cases hi : j = i <;> simp [hj, hi]

section
variable {s : State} {k p f n : Nat} {c : Cmd}

/-- The checks of `exec.token` that a range of tokens passes, whichever of the two forms the command has. -/
theorem orElse_tokenChecks {need : Nat} {busy : Bool} (hext : need ≤ 64 * c.extLen) (h4 : c.at 16 1 < 4) (hparts : c.at 16 1 < s.net.parts) (hform : c.at 17 1 ≤ 1)
    (hf : c.at 18 2 < 4096) (hn : 1 ≤ c.at 20 2) (hlast : c.at 18 2 + c.at 20 2 ≤ 4096) (hz : c.at 22 42 = 0) (hres : resetting s (c.at 16 1) = false)
    (hbusy : busy = false) :
    orElse (c.extNeed need :: partChecks s c 16 ++ [ badField (decide (1 < c.at 17 1)) 17, outOfRange (decide (4095 < c.at 18 2)) 18,
      outOfRange (decide (c.at 20 2 = 0 ∨ 4096 < c.at 18 2 + c.at 20 2)) 20, c.rsvd 22 64, refuse (resetting s (c.at 16 1)) stPartitionResetting,
      refuse busy stBusy ]) = none := by
  rw [List.cons_append, orElse_extNeed, if_neg (Nat.not_lt.mpr hext), orElse_partChecks _ h4 hparts]
  simp [hz, hres, hbusy, Nat.not_lt.mpr hform, Nat.not_lt.mpr (Nat.le_of_lt_succ hf), Nat.not_lt.mpr hlast, Nat.ne_of_gt hn]

theorem execToken_reads (h : Taken s k 0x0604 c) (hp : c.at 16 1 = p) (h4 : p < 4) (hparts : p < s.net.parts) (hread : c.at 17 1 = 0) (hfirst : c.at 18 2 = f)
    (hcount : c.at 20 2 = n) (hf : f < 4096) (hn : 1 ≤ n) (hlast : f + n ≤ 4096) (hext : 4 * n ≤ 64 * c.extLen) (hz : c.at 22 42 = 0)
    (hres : resetting s p = false) :
    Completes (.execToken k) s (fun t => Answered s t k { output := ((List.range n).map (fun i =>
        leBytes 4 ((s.token (4096 * p + f + i)).count.toNat + 65536 * b01 (s.token (4096 * p + f + i)).abort))).flatten } ∧ t = { s with cmds := t.cmds }) := by
  subst hp hfirst hcount
  have hform : (c.at 17 1 == 0) = true := by simpa using hread
  refine ⟨_, congrArg Host.Outcome.next (runCmd_acts h ?_ (by rw [if_pos hform, List.map_map]; rfl) rfl), answered_finish _ _ _ _ rfl, rfl⟩
  exact orElse_tokenChecks (by rw [if_pos hform]; exact hext) h4 hparts (by omega) hf hn hlast hz hres (by simp [hread])

theorem execToken_clears (h : Taken s k 0x0604 c) (hp : c.at 16 1 = p) (h4 : p < 4) (hparts : p < s.net.parts) (hclear : c.at 17 1 = 1) (hfirst : c.at 18 2 = f)
    (hcount : c.at 20 2 = n) (hf : f < 4096) (hn : 1 ≤ n) (hlast : f + n ≤ 4096) (hz : c.at 22 42 = 0) (hres : resetting s p = false)
    (hnamed : tokensNamed s p f n = false) :
    Completes (.execToken k) s (fun t => Answered s t k { result := leBytes 4 n } ∧ (∀ i, i < n → t.token (4096 * p + f + i) = {}) ∧
      (∀ j, j < 4096 * p + f ∨ 4096 * p + f + n ≤ j → t.token j = s.token j) ∧ t = { s with cmds := t.cmds, tokens := t.tokens }) := by
  subst hp hfirst hcount
  obtain ⟨l, hl⟩ : ∃ l, l = (List.range (c.at 20 2)).map (fun i => 4096 * c.at 16 1 + c.at 18 2 + i) := ⟨_, rfl⟩
  obtain ⟨htoken, honly⟩ := clearTokens_only l s
  have hform : ¬((c.at 17 1 == 0) = true) := by simp [hclear]
  refine ⟨_, congrArg Host.Outcome.next (runCmd_acts h ?_ (by rw [if_neg hform, ← hl]) rfl), answered_finish _ _ _ _ ?_, fun i hi => ?_, fun j hj => ?_, ?_⟩
  · exact orElse_tokenChecks (by rw [if_neg hform]; exact Nat.zero_le _) h4 hparts (by omega) hf hn hlast hz hres (by simp [hnamed])
  · rw [honly]
  · rw [token_congr _ _ (finishCmd_tokens _ _ _), htoken, if_pos (by rw [hl]; exact List.mem_map_of_mem (List.mem_range.mpr hi))]
  · have hout : j ∉ l := by
      rw [hl, List.mem_map]
      rintro ⟨i, hi, rfl⟩
      have := List.mem_range.mp hi
      omega
    rw [token_congr _ _ (finishCmd_tokens _ _ _), htoken, if_neg hout]
  · rw [honly]
    rfl

end

/-! ### The manifest commands -/

section
variable {s : State} {k i : Nat} {c : Cmd}

/-- The end of tracking changes the swap record alone, and leaves no bound on the epochs of new requests above the one that stood. -/
theorem endTracking_only (p : Nat) (s : State) : endTracking p s = { s with swaps := (endTracking p s).swaps } ∧
    ((endTracking p s).swapOf p).trackE ≤ (s.swapOf p).trackE := by
  unfold endTracking
  split
  · exact ⟨rfl, by simp⟩
  · exact ⟨rfl, Nat.le_refl _⟩

theorem manifestOpen_opens (h : Taken s k 0x0701 c) (hi : c.at 16 2 = i) (hlic : beyondLicence s i 1 = false) (hz : c.at 18 2 = 0)
    (hepoch : (s.swapOf (partOfEntry s i)).trackE ≤ c.at 20 4) (hlimit : c.at 48 4 ≤ c.at 52 4) (hres : resetting s (partOfEntry s i) = false)
    (hfree : (s.entry i).valid = false) (hkeys : inRegion s (partOfEntry s i) 1 (c.at 32 6) (c.at 52 4 * c.at 44 4) = true)
    (hvals : inRegion s (partOfEntry s i) 1 (c.at 38 6) (c.at 52 4 * c.at 44 4) = true) :
    Completes (.manifestOpen k) s (fun t => Answered s t k {} ∧
      t.entry i = { valid := true, reqId := BitVec.ofNat 64 (c.at 24 8), epoch := c.at 20 4, kptr := c.at 32 6, vptr := c.at 38 6, stride := c.at 44 4
                    length := c.at 48 4, limit := c.at 52 4, user := BitVec.ofNat 64 (c.at 56 8) } ∧
      (∀ j, j ≠ i → t.entry j = s.entry j) ∧ t = { s with cmds := t.cmds, manifest := t.manifest, swaps := t.swaps }) := by
  subst hi
  obtain ⟨honly, htrack⟩ := endTracking_only (partOfEntry s (c.at 16 2)) s
  have hnew := Nat.not_lt.mpr (htrack.trans hepoch)
  refine ⟨_, congrArg Host.Outcome.next (runCmd_acts h ?_ rfl rfl), answered_finish _ _ _ _ ?_, ?_, fun j hj => ?_, ?_⟩
  · simp [hlic, hz, hnew, hres, hfree, hkeys, hvals, Nat.not_lt.mpr hlimit]
  · rw [setEntry_cmds, honly]
  · rw [entry_congr _ _ (finishCmd_manifest _ _ _), entry_setEntry, if_pos rfl]
  · rw [entry_congr _ _ (finishCmd_manifest _ _ _), entry_setEntry, if_neg hj, honly]
    rfl
  · rw [honly]
    rfl

theorem manifestClose_closes (h : Taken s k 0x0702 c) (hi : c.at 16 2 = i) (hlic : beyondLicence s i 1 = false) (hz : c.at 18 46 = 0)
    (hvalid : (s.entry i).valid = true) (hres : resetting s (partOfEntry s i) = false) :
    Completes (.manifestClose k) s (fun t => Answered s t k {} ∧ t.entry i = { s.entry i with state := 3 } ∧ (∀ j, j ≠ i → t.entry j = s.entry j) ∧
      t = { s with cmds := t.cmds, manifest := t.manifest }) := by
  subst hi
  refine ⟨_, congrArg Host.Outcome.next (runCmd_acts h ?_ rfl rfl), answered_finish _ _ _ _ rfl, ?_, fun j hj => ?_, rfl⟩
  · simp [hlic, hz, hvalid, hres]
  · rw [entry_congr _ _ (finishCmd_manifest _ _ _), entry_modEntry, if_pos rfl]
  · rw [entry_congr _ _ (finishCmd_manifest _ _ _), entry_modEntry, if_neg hj]

theorem manifestFree_frees (h : Taken s k 0x0703 c) (hi : c.at 16 2 = i) (hlic : beyondLicence s i 1 = false) (hz : c.at 18 46 = 0)
    (hvalid : (s.entry i).valid = true) (hdone : (s.entry i).state = 3) (hidle : (s.entry i).inflight = 0) (hres : resetting s (partOfEntry s i) = false) :
    Completes (.manifestFree k) s (fun t => Answered s t k {} ∧ t.entry i = { s.entry i with valid := false } ∧ (∀ j, j ≠ i → t.entry j = s.entry j) ∧
      t = { s with cmds := t.cmds, manifest := t.manifest }) := by
  subst hi
  refine ⟨_, congrArg Host.Outcome.next (runCmd_acts h ?_ rfl rfl), answered_finish _ _ _ _ rfl, ?_, fun j hj => ?_, rfl⟩
  · simp [hlic, hz, hvalid, hdone, hidle, hres]
  · rw [entry_congr _ _ (finishCmd_manifest _ _ _), entry_setEntry, if_pos rfl]
  · rw [entry_congr _ _ (finishCmd_manifest _ _ _), entry_setEntry, if_neg hj]

theorem manifestFree_busy (h : Taken s k 0x0703 c) (hi : c.at 16 2 = i) (hlic : beyondLicence s i 1 = false) (hz : c.at 18 46 = 0)
    (hvalid : (s.entry i).valid = true) (hdone : (s.entry i).state = 3) (hbusy : (s.entry i).inflight ≠ 0) (hres : resetting s (partOfEntry s i) = false) :
    Completes (.manifestFree k) s (fun t => Answered s t k { status := stBusy } ∧ t = { s with cmds := t.cmds }) := by
  subst hi
  refine ⟨_, congrArg Host.Outcome.next (runCmd_refused (r := .no stBusy) h ?_ rfl), answered_finish _ _ _ _ rfl, rfl⟩
  simp [hlic, hz, hvalid, hdone, hbusy, hres]

theorem manifestRead_reads {n : Nat} (h : Taken s k 0x0704 c) (hi : c.at 16 2 = i) (hn : c.at 18 2 = n) (hlic : beyondLicence s i n = false) (hlo : 1 ≤ n)
    (hhi : n ≤ 255) (hlast : i + n ≤ manifestSize s) (hext : 64 * n ≤ 64 * c.extLen) (hz : c.at 20 44 = 0)
    (hres : ∀ j, j < n → resetting s (partOfEntry s (i + j)) = false) :
    Completes (.manifestRead k) s (fun t => Answered s t k { output := ((List.range n).map (fun j => entryBytes (s.entry (i + j)))).flatten } ∧
      t = { s with cmds := t.cmds }) := by
  subst hi hn
  have hcount : ¬(c.at 18 2 = 0 ∨ 255 < c.at 18 2 ∨ manifestSize s < c.at 16 2 + c.at 18 2) := by omega
  have hfirst : ¬(manifestSize s ≤ c.at 16 2) := by omega
  have hserved : (List.range (c.at 18 2)).any (fun j => resetting s (partOfEntry s (c.at 16 2 + j))) = false := by simpa using hres
  refine ⟨_, congrArg Host.Outcome.next (runCmd_acts h ?_ rfl rfl), answered_finish _ _ _ _ rfl, rfl⟩
  rw [orElse_extNeed, if_neg (Nat.not_lt.mpr hext)]
  simp only [orElse_refuse, orElse_outOfRange, orElse_rsvd, decide_eq_true_eq, hlic, hz, hcount, hfirst, hserved, Bool.false_eq_true, if_false, if_true]
  rfl

end

/-- Settles O37: each command by the lemma above that says what it does. -/
theorem execAndManifestCommandsRun : Obligations.ExecAndManifestCommandsRun :=
  ⟨fun _ _ _ _ _ => execSubmit_queues, fun _ _ _ _ => execAbort_streamWaits, fun _ _ _ _ _ => execAbort_gone, fun _ _ _ _ _ _ => execToken_reads,
    fun _ _ _ _ _ _ => execToken_clears, fun _ _ _ _ => execStream_setsPrio, fun _ _ _ _ => manifestOpen_opens, fun _ _ _ _ => manifestClose_closes,
    fun _ _ _ _ => manifestFree_frees, fun _ _ _ _ => manifestFree_busy, fun _ _ _ _ _ => manifestRead_reads⟩

end Sys2Proof.Machine
end

section
/-! The admission of a `field.gemm`, and the hand-over of a field's loaders: what the start of slices leaves of the ops and of the fields' loaders, and
what each part of the admission sets (R234, R252 to R257, R434). -/

namespace Sys2Proof.Machine

open Sys2Proof State

/-! ### What the start of slices leaves

An op that begins to run keeps what its admission recorded, and a field keeps its loaders; only slots, clocks, flags and places move on. -/

/-- `y` is the op `x` with what its admission recorded: its row map, its stage, its captures and the roots of its groups. -/
structure SameTask (x y : Op) : Prop where
  map : y.map = x.map
  stage : y.stage = x.stage
  admBeat : y.admBeat = x.admBeat
  desc : y.desc = x.desc
  entries : y.entries = x.entries
  shapeRun : y.shapeRun = x.shapeRun
  roots : y.pos.map (fun p => p.root) = x.pos.map (fun p => p.root)

/-- Each op of `t` has the task it has in `s`, and the fields' loaders, the streams, the tokens and the row maps stand. -/
structure SameTasks (s t : State) : Prop where
  op : ∀ k o, opOf s k = some o → ∃ o', opOf t k = some o' ∧ SameTask o o'
  loader : ∀ f, (t.field f).loader = (s.field f).loader
  bufFull : ∀ f, (t.field f).bufFull = (s.field f).bufFull
  streams : t.streams = s.streams
  tokens : t.tokens = s.tokens
  rowMaps : t.rowMaps = s.rowMaps

theorem SameTask.refl (x : Op) : SameTask x x := ⟨rfl, rfl, rfl, rfl, rfl, rfl, rfl⟩

theorem SameTask.trans {x y z : Op} (h : SameTask x y) (h' : SameTask y z) : SameTask x z :=
  ⟨h'.map.trans h.map, h'.stage.trans h.stage, h'.admBeat.trans h.admBeat, h'.desc.trans h.desc, h'.entries.trans h.entries, h'.shapeRun.trans h.shapeRun,
    h'.roots.trans h.roots⟩

/-- Two ops of one task have the same requests with the same K steps. -/
theorem SameTask.kSteps {x y : Op} (h : SameTask x y) : y.requests = x.requests ∧ y.kSteps = x.kSteps := by
  have hdn : y.dn = x.dn := by
    funext i n
    simp only [Op.dn, h.desc]
  have hwsrc : y.wsrc = x.wsrc := by rw [Op.wsrc, Op.wsrc, hdn]
  have hcapt (r : Nat) : y.capt r = x.capt r := by rw [Op.capt, Op.capt, h.entries]
  have hcols (r : Nat) : y.nOf r = x.nOf r := by
    simp only [Op.nOf, hwsrc, hcapt, show y.n0 = x.n0 from congrFun₂ hdn _ _, show y.nLen = x.nLen from congrFun₂ hdn _ _]
  have hrows (r : Nat) : y.kOf r = x.kOf r := by
    simp only [Op.kOf, hwsrc, hcapt, show y.k0 = x.k0 from congrFun₂ hdn _ _, show y.kLen = x.kLen from congrFun₂ hdn _ _]
  refine ⟨by simp only [Op.requests, hwsrc, hdn], funext fun r => ?_⟩
  simp only [Op.kSteps, Op.kTiles, hcols, hrows, h.shapeRun]

section
variable {s t u : State}

theorem SameTasks.of_tables (hops : t.ops = s.ops) (hfields : t.fields = s.fields) (hstreams : t.streams = s.streams) (htokens : t.tokens = s.tokens)
    (hmaps : t.rowMaps = s.rowMaps) : SameTasks s t :=
  ⟨fun k o h => ⟨o, (opOf_congr hops k).trans h, .refl o⟩, fun f => by rw [field_congr s t hfields], fun f => by rw [field_congr s t hfields], hstreams,
    htokens, hmaps⟩

theorem SameTasks.refl (s : State) : SameTasks s s := .of_tables rfl rfl rfl rfl rfl

theorem SameTasks.trans (h : SameTasks s t) (h' : SameTasks t u) : SameTasks s u := by
  refine ⟨fun k o ho => ?_, fun f => (h'.loader f).trans (h.loader f), fun f => (h'.bufFull f).trans (h.bufFull f), h'.streams.trans h.streams,
    h'.tokens.trans h.tokens, h'.rowMaps.trans h.rowMaps⟩
  obtain ⟨o', ho', hoo'⟩ := h.op k o ho
  obtain ⟨o'', ho'', ho'o''⟩ := h'.op k o' ho'
  exact ⟨o'', ho'', hoo'.trans ho'o''⟩

theorem SameTasks.foldl {α : Type} {f : State → α → State} (h : ∀ s a, SameTasks s (f s a)) (l : List α) (s : State) : SameTasks s (l.foldl f s) :=
  foldl_inv (SameTasks s) f (fun t a ht => ht.trans (h t a)) l s (.refl s)

theorem EventsOnly.sameTasks (h : EventsOnly s t) : SameTasks s t := by
  obtain ⟨_, _, _, rfl⟩ := h
  exact .of_tables rfl rfl rfl rfl rfl

end

/-- A change of op `j` that keeps keys is what `opOf` shows of every op. -/
theorem opOf_modOp_any {g : Op → Op} (hg : ∀ o, (g o).key = o.key) (j k : Nat) (s : State) :
    opOf (modOp j g s) k = (opOf s k).map (fun o => if k = j then g o else o) := by
  by_cases hkj : k = j
  · subst hkj
    simp [opOf_modOp hg]
  · have hkey (o : Op) : (if o.key = j then g o else o).key = o.key := by split <;> simp [hg]
    have hbeq : (fun o : Op => o.key == k) ∘ (fun o => if o.key = j then g o else o) = fun o => o.key == k := by
      funext o
      simp [hkey]
    rw [opOf, modOp, List.find?_map, hbeq]
    cases hfind : s.ops.find? (fun o => o.key == k) with
    | none => simp [opOf, hfind]
    | some o =>
      have hok : o.key = k := by simpa using List.find?_some hfind
      simp [opOf, hfind, hok, hkj]

theorem modOp_sameTasks {g : Op → Op} (j : Nat) (hkey : ∀ o, (g o).key = o.key) (hg : ∀ o, SameTask o (g o)) (s : State) : SameTasks s (modOp j g s) := by
  refine ⟨fun k o h => ⟨if k = j then g o else o, by rw [opOf_modOp_any hkey, h]; rfl, ?_⟩, fun _ => rfl, fun _ => rfl, rfl, rfl, rfl⟩
  split
  · exact hg o
  · exact .refl o

theorem modField_sameTasks (s : State) (f : Nat) {g : Field → Field} (hloader : ∀ x, (g x).loader = x.loader) (hbuf : ∀ x, (g x).bufFull = x.bufFull) :
    SameTasks s (s.modField f g) := by
  refine ⟨fun _ o h => ⟨o, h, .refl o⟩, fun j => ?_, fun j => ?_, rfl, rfl, rfl⟩ <;> rw [field_modField] <;> split
  next hj => rw [hloader, hj]
  next => rfl
  next hj => rw [hbuf, hj]
  next => rfl

theorem claimGroup_sameTasks (key root : Nat) (s : State) : SameTasks s (claimGroup false key root s) := by
  simp only [claimGroup, Bool.false_eq_true, if_false]
  split
  · exact .refl s
  split
  · split
    · exact .foldl (fun u f => modField_sameTasks u f (by exact fun _ => rfl) (by exact fun _ => rfl)) _ s
    · exact .foldl (fun u f => modField_sameTasks u f (by exact fun _ => rfl) (by exact fun _ => rfl)) _ s
  · exact .refl s

theorem advanceAll_sameTasks (t : Nat) (fs : List Nat) (s : State) : SameTasks s (fs.foldl (advanceSlots t) s) :=
  .foldl (fun u f => modField_sameTasks u f (by exact fun _ => rfl) (by exact fun _ => rfl)) fs s

theorem flagIf_sameTask (b : Bool) (i : Nat) (o : Op) : SameTask o (o.flagIf b i) := by
  unfold Op.flagIf
  split <;> exact ⟨rfl, rfl, rfl, rfl, rfl, rfl, rfl⟩

theorem sliceBeat_sameTask (b : Nat) (o : Op) : SameTask o (if o.sliceBeat = some b then o else { o with slicePrev := o.sliceBeat, sliceBeat := some b }) := by
  split <;> exact ⟨rfl, rfl, rfl, rfl, rfl, rfl, rfl⟩

theorem modPos_sameTask (r : Nat) {g : GPos → GPos} (hg : ∀ p, (g p).root = p.root) (o : Op) : SameTask o (o.modPos r g) := by
  refine ⟨rfl, rfl, rfl, rfl, rfl, rfl, ?_⟩
  rw [Op.modPos, List.map_map]
  refine List.map_congr_left fun p _ => ?_
  dsimp only [Function.comp]
  split
  · exact hg p
  · rfl

theorem startSlice_sameTasks (o : Op) (p : GPos) (t : Nat) (s : State) : SameTasks s (startSlice o p t s) := by
  refine modOp_sameTasks _ (fun x => ?_) (fun x => ?_) s
  · exact ((flagIf_sameGroups _ _ x).trans ((flagIf_sameGroups _ _ _).trans (sliceBeat_sameGroups _ _))).key
  · refine .trans (((flagIf_sameTask _ _ x).trans (flagIf_sameTask _ _ _)).trans (sliceBeat_sameTask _ _)) (modPos_sameTask p.root ?_ _)
    exact fun q => ran_root _ _ _

theorem tryStart_sameTasks (key : Nat) (s : State) : SameTasks s (tryStart key s) := by
  unfold tryStart
  extract_lets s₁
  have hclaim : SameTasks s s₁ := by
    dsimp only [s₁]
    split
    · exact .foldl (fun _ _ => claimGroup_sameTasks _ _ _) _ s
    · exact .refl s
  split
  · refine hclaim.trans (.foldl (fun u p => ?_) _ _)
    dsimp only
    split
    · exact (advanceAll_sameTasks _ _ u).trans (startSlice_sameTasks _ _ _ _)
    · exact .refl u
  · exact hclaim

/-! ### The hand-over of a field's loaders (R257) -/

section
variable {s : State} {k f : Nat} {o : Op}

theorem opHandover_passes {p : GPos} (hop : opOf s k = some o) (hcode : o.code = 0x01) (hstage : o.stage = 2) (habort : o.abortAt = none) (hf : f < 32)
    (hpos : o.posOf s f = some p) (hdone : p.done = false) (hfree : loaderFree s f = true) (hother : (s.field f).loader ≠ some k) :
    exec (.opHandover k f) s = .next (tryStart k (s.modField f (fun x => { x with loader := some k, bufFull := false }))) := by
  change execOpHandover k f s = _
  simp [execOpHandover, hop, hcode, hstage, habort, hf, hpos, hdone, hfree, hother]

theorem opHandover_takesLoaders {p : GPos} (hop : opOf s k = some o) (hcode : o.code = 0x01) (hstage : o.stage = 2) (habort : o.abortAt = none) (hf : f < 32)
    (hpos : o.posOf s f = some p) (hdone : p.done = false) (hfree : loaderFree s f = true) (hother : (s.field f).loader ≠ some k) :
    Completes (.opHandover k f) s (fun t => (t.field f).loader = some k ∧ (t.field f).bufFull = false ∧
      (∀ g, g ≠ f → (t.field g).loader = (s.field g).loader) ∧ t.mem = s.mem ∧ t.rowMaps = s.rowMaps) := by
  obtain ⟨s₁, hs₁⟩ : ∃ s₁, s₁ = s.modField f (fun x => { x with loader := some k, bufFull := false }) := ⟨_, rfl⟩
  have hkeep := tryStart_sameTasks k s₁
  have hstore := tryStart_sameStore k s₁
  refine ⟨_, opHandover_passes hop hcode hstage habort hf hpos hdone hfree hother, ?_⟩
  rw [← hs₁]
  refine ⟨?_, ?_, fun g hg => ?_, ?_, ?_⟩
  · rw [hkeep.loader, hs₁, field_modField, if_pos rfl]
  · rw [hkeep.bufFull, hs₁, field_modField, if_pos rfl]
  · rw [hkeep.loader, hs₁, field_modField, if_neg hg]
  · rw [hstore.mem, hs₁]
    rfl
  · rw [hkeep.rowMaps, hs₁]
    rfl

theorem opHandover_stays (hheld : loaderFree s f = false) : exec (.opHandover k f) s = .next s := by
  change execOpHandover k f s = _
  unfold execOpHandover
  split
  · rfl
  · simp [hheld]

end

end Sys2Proof.Machine
end

section
/-! The admission of a `field.gemm`: the entries it names, the flags and scales it takes, and its start (R234, R252 to R257, R434). -/

namespace Sys2Proof.Machine

open Sys2Proof State

/-! ### What the parts of the admission leave -/

theorem countUe_streams (u a : Nat) (s : State) : (countUe u a s).streams = s.streams := by
  unfold countUe
  dsimp only
  split
  · split
    · exact post_streams _ _ _
    · rfl
  · exact post_streams _ _ _

theorem countCe_streams (u : Nat) (s : State) : (countCe u s).streams = s.streams := by
  unfold countCe
  split <;> rfl

theorem touchWord_streams (s : State) (w : Nat) (e : BitVec 80) : (touchWord s w e).streams = s.streams := by
  unfold touchWord
  split
  · unfold touchAcc
    dsimp only
    rw [ite_streams, countUe_streams]
    exact ite_self _
  · have hword (d : BitVec 64) (p : Bool) : (((putWord s w d).setErr w 0).setPoisoned w p).streams = s.streams := by
      rw [setPoisoned_streams, setErr_streams]
      rfl
    unfold touchPlain
    dsimp only
    split
    · rw [ite_streams, countCe_streams, ite_self]
      exact hword _ _
    · exact (countUe_streams _ _ _).trans (hword _ _)

theorem touch_sameTasks (a n : Nat) (s : State) : SameTasks s (touch a n s) :=
  .of_tables (touch_sameClaims a n s).ops (touchWhere_fields _ s) (foldl_streams _ _ _ fun _ _ => touchWord_streams _ _ _) (touch_sameClaims a n s).tokens
    (touch_rowMaps a n s)

theorem touchAll_sameTasks (l : List (Nat × Nat)) (s : State) : SameTasks s (touchAll l s) := .foldl (fun _ _ => touch_sameTasks _ _ _) l s

theorem runtimeReach_sameTasks (k : Nat) (l : List (Nat × Nat)) (s : State) : SameTasks s (runtimeReach k l s) := by
  unfold runtimeReach
  split
  · exact .refl s
  · have hflag (u : State) : SameTasks u (modOp k (Op.flag fPoison) u) :=
      modOp_sameTasks (g := Op.flag fPoison) k (fun _ => rfl) (fun _ => ⟨rfl, rfl, rfl, rfl, rfl, rfl, rfl⟩) u
    exact .foldl (fun u _ => (hflag u).trans (post_eventsOnly _ _ _).sameTasks) _ s

theorem runtimeReach_sameStore (k : Nat) (l : List (Nat × Nat)) (s : State) : SameStore s (runtimeReach k l s) := by
  unfold runtimeReach
  split
  · exact .refl s
  · exact .foldl (fun u a => (modOp_sameStore k _ u).trans (post_quiet _ _ _).toSameStore) _ s

theorem hide_sameTasks (x a n : Nat) (s : State) : SameTasks s (hide x a n s) := by
  obtain ⟨q, hq⟩ := hide_frame x a n s
  rw [hq]
  exact .of_tables rfl rfl rfl rfl rfl

theorem zeroRequest_sameTasks (o : Op) (m : RowMap) (roots : List Nat) (r : Nat) (s : State) : SameTasks s (zeroRequest o m roots r s) := by
  refine .foldl (fun u row => .foldl (fun v root => ?_) roots u) _ s
  have hcells (key : Nat → Nat → Nat) (l : List Nat) (w : State) :
      SameTasks w (l.foldl (fun (s : State) c => m.colours.foldl (fun (s : State) g => s.setAccCell (key c g) {}) s) w) :=
    .foldl (fun x c => .foldl (fun y g => (.of_tables (by rfl) (by rfl) (by rfl) (by rfl) (by rfl) : SameTasks y (y.setAccCell (key c g) {}))) m.colours x) l w
  exact ((hide_sameTasks _ _ _ v).trans (hcells (fun c g => (root * 2048 + row) * 1024 + 256 * g + c) _ _)).trans (.of_tables rfl rfl rfl rfl rfl)

theorem loadFlags_sameTask (s : State) (fs : List Nat) (add : Bool) (m : RowMap) (o : Op) : SameTask o (o.loadFlags s fs add m) :=
  ((flagIf_sameTask _ _ o).trans (flagIf_sameTask _ _ _)).trans (flagIf_sameTask _ _ _)

theorem loadFlags_key (s : State) (fs : List Nat) (add : Bool) (m : RowMap) (o : Op) : (o.loadFlags s fs add m).key = o.key := by
  simp only [Op.loadFlags, flagIf_key]

/-! ### The start (R256, R257) -/

/-- The fields `fs` whose loaders are free give them to op `k`. -/
def claimLoaders (k : Nat) (fs : List Nat) (s : State) : State :=
  fs.foldl (fun (s : State) f => if (s.field f).loader = none then s.modField f (fun x => { x with loader := some k, bufFull := false }) else s) s

theorem claimLoaders_frame (k : Nat) (fs : List Nat) (s : State) : claimLoaders k fs s = { s with fields := (claimLoaders k fs s).fields } :=
  foldl_inv (fun (u : State) => u = { s with fields := u.fields }) _ (fun u f hu => by rw [hu]; split <;> rfl) fs s rfl

theorem claimLoaders_takes {k f : Nat} {fs : List Nat} (hf : f ∈ fs) {s : State} (hfree : (s.field f).loader = none) :
    ((claimLoaders k fs s).field f).loader = some k := by
  refine foldl_reaches (I := fun u => (u.field f).loader = none ∨ (u.field f).loader = some k) (Q := fun u => (u.field f).loader = some k) hf
    (fun u g hu => ?_) (fun u hu => ?_) (fun u g hu => ?_) s (.inl hfree)
  · split
    next hg =>
      rw [field_modField]
      split
      · exact .inr rfl
      · exact hu
    next => exact hu
  · split
    next hg => rw [field_modField, if_pos rfl]
    next hg => exact hu.resolve_left hg
  · split
    next hg =>
      rw [field_modField, if_neg]
      · exact hu
      · rintro rfl
        rw [hu] at hg
        cases hg
    next => exact hu

/-- A `field.gemm` of key `k`, admitted in beat `b` with row map `m`, has begun in `t` on the groups `roots`: it is at work unless it has no K step at all, and the
loaders that were free in `s` are its own. -/
structure Begins (k : Nat) (m : RowMap) (b : Nat) (roots : List Nat) (s t : State) : Prop where
  op : ∃ o, opOf t k = some o ∧ o.map = some m ∧ o.stage = (if (List.range o.requests).all (fun r => o.kSteps r == 0) then 3 else 2) ∧ o.admBeat = some b ∧
    (o.stage = 2 → o.pos.map (fun p => p.root) = roots ∧ ∀ f, f ∈ groupsOf m.shapeRun roots → (s.field f).loader = none → (t.field f).loader = some k)
  rowMaps : t.rowMaps = s.rowMaps
  tokens : t.tokens = s.tokens
  streams : t.streams = s.streams

/-- The same begin seen from an earlier state with the same free loaders, row maps, tokens and streams. -/
theorem Begins.after {k b : Nat} {m : RowMap} {roots : List Nat} {s u t : State} (h : Begins k m b roots u t) (hloader : ∀ f, (u.field f).loader = (s.field f).loader)
    (hmaps : u.rowMaps = s.rowMaps) (htokens : u.tokens = s.tokens) (hstreams : u.streams = s.streams) : Begins k m b roots s t := by
  obtain ⟨⟨o, hop, hmap, hstage, hadm, hrun⟩, hmaps', htokens', hstreams'⟩ := h
  exact ⟨⟨o, hop, hmap, hstage, hadm, fun hst => ⟨(hrun hst).1, fun f hf hfree => (hrun hst).2 f hf ((hloader f).trans hfree)⟩⟩, hmaps'.trans hmaps,
    htokens'.trans htokens, hstreams'.trans hstreams⟩

/-- No request has a K step when none is the first that has. -/
theorem noSteps_iff (o : Op) : (List.range o.requests).find? (fun r => 0 < o.kSteps r) = none ↔ (List.range o.requests).all (fun r => o.kSteps r == 0) = true := by
  rw [List.find?_eq_none, List.all_eq_true]
  refine forall₂_congr fun r _ => ?_
  simp

section
variable {s : State} {k : Nat} {o : Op}

theorem startGemm_begins {m : RowMap} {b : Nat} (roots : List Nat) (init : Bool) (hop : opOf s k = some o) (hstage : o.stage = 2) (hmap : o.map = some m)
    (hadm : o.admBeat = some b) : Begins k m b roots s (startGemm k m roots init s) := by
  obtain ⟨z, hz⟩ : ∃ z, z = if init then ((List.range o.requests).filter o.emptyReq).foldl (fun s r => zeroRequest o m roots r s) s else s := ⟨_, rfl⟩
  have hzero : SameTasks s z := by
    rw [hz]
    split
    · exact .foldl (fun u r => zeroRequest_sameTasks o m roots r u) _ s
    · exact .refl s
  obtain ⟨o₁, hop₁, htask⟩ := hzero.op k o hop
  have hsteps := noSteps_iff o
  simp only [startGemm, hop, ← hz]
  split
  next hnone =>
    refine ⟨⟨{ o₁ with stage := 3, evalBeat := z.tim.beat }, opOf_modOp_some hop₁ fun _ => rfl, htask.map.trans hmap, ?_, htask.admBeat.trans hadm,
      fun h => by cases h⟩, hzero.rowMaps, hzero.tokens, hzero.streams⟩
    obtain ⟨hreq, hk⟩ := htask.kSteps
    have hall := hsteps.mp hnone
    rw [← hreq, ← hk] at hall
    exact (if_pos hall).symm
  next r hsome =>
    obtain ⟨o₂, ho₂⟩ : ∃ o₂ : Op, o₂ = { o₁ with pos := roots.map (fun root => { root := root, req := r }) } := ⟨_, rfl⟩
    obtain ⟨u, hu⟩ : ∃ u, u = modOp k (fun o => { o with pos := roots.map (fun root => { root := root, req := r }) }) z := ⟨_, rfl⟩
    have hop₂ : opOf (claimLoaders k (groupsOf m.shapeRun roots) u) k = some o₂ := by
      rw [claimLoaders_frame, ho₂, hu]
      exact opOf_modOp_some hop₁ fun _ => rfl
    have hroots : o₂.pos.map (fun p => p.root) = roots := by
      rw [ho₂, List.map_map]
      exact List.map_id _
    have htry := tryStart_sameTasks k (claimLoaders k (groupsOf m.shapeRun roots) u)
    obtain ⟨o₃, hop₃, htask₃⟩ := htry.op k o₂ hop₂
    have hrest : (claimLoaders k (groupsOf m.shapeRun roots) u).streams = s.streams ∧ (claimLoaders k (groupsOf m.shapeRun roots) u).tokens = s.tokens ∧
        (claimLoaders k (groupsOf m.shapeRun roots) u).rowMaps = s.rowMaps := by
      rw [claimLoaders_frame, hu]
      exact ⟨hzero.streams, hzero.tokens, hzero.rowMaps⟩
    obtain ⟨hstreams, htokens, hmaps⟩ := hrest
    have hsome₃ : ¬((List.range o₃.requests).all (fun r => o₃.kSteps r == 0) = true) := by
      obtain ⟨hreq, hk⟩ := htask.kSteps
      obtain ⟨hreq₃, hk₃⟩ := htask₃.kSteps
      have hreq₂ : o₂.requests = o₁.requests := by rw [ho₂]; rfl
      have hk₂ : o₂.kSteps = o₁.kSteps := by rw [ho₂]; rfl
      rw [hreq₃, hk₃, hreq₂, hk₂, hreq, hk, ← hsteps, hsome]
      exact Option.some_ne_none r
    rw [← hu]
    refine ⟨⟨o₃, hop₃, ?_, ?_, ?_, fun _ => ⟨htask₃.roots.trans hroots, fun f hf hfree => ?_⟩⟩, htry.rowMaps.trans hmaps, htry.tokens.trans htokens,
      htry.streams.trans hstreams⟩
    · rw [htask₃.map, ho₂]
      exact htask.map.trans hmap
    · rw [if_neg hsome₃, htask₃.stage, ho₂]
      exact htask.stage.trans hstage
    · rw [htask₃.admBeat, ho₂]
      exact htask.admBeat.trans hadm
    · have hfree' : (u.field f).loader = none := by
        rw [hu]
        exact (hzero.loader f).trans hfree
      exact (htry.loader f).trans (claimLoaders_takes hf hfree')

end

/-! ### The op with its entries, flags and scales (R202, R239, R249, R252, R280) -/

/-- Op `k`, admitted with row map `m` and the manifest entries that it names, before its flags and scales are taken. -/
def gemmNamed (k : Nat) (m : RowMap) (o : Op) (s : State) : State :=
  modOp k (fun o => { o with map := some m, shapeRun := m.shapeRun }) (nameEntries k o (setAdmitted k s))

/-- The op with what it captures of the entries that it names (R234). -/
def Op.naming (l : List Capt) (u : List Nat) (o : Op) : Op := { o with entries := l, named := u }

theorem nameEntries_frame (k : Nat) (o : Op) (s : State) :
    ∃ l u mf, nameEntries k o s = { s with ops := (modOp k (Op.naming l u) s).ops, manifest := mf } := by
  refine ⟨(listOf s o).map (captOf s), (listOf s o).eraseDups, ?_⟩
  unfold nameEntries
  refine foldl_inv (fun (v : State) => ∃ mf, v = { s with ops := _, manifest := mf }) _ ?_ _ _ ⟨_, rfl⟩
  rintro v i ⟨mf, rfl⟩
  exact ⟨_, rfl⟩

/-- The admission names entries and admits the op, and changes nothing else. -/
theorem gemmNamed_frame (k : Nat) (m : RowMap) (o : Op) (s : State) :
    ∃ l q mf, gemmNamed k m o s = { s with ops := l, seq := q, manifest := mf } := by
  obtain ⟨q, hq⟩ := setAdmitted_frame k s
  obtain ⟨l, u, mf, hmf⟩ := nameEntries_frame k o (setAdmitted k s)
  rw [gemmNamed, hmf, hq]
  exact ⟨_, _, _, rfl⟩

section
variable {s : State} {k : Nat} {o : Op}

theorem opOf_gemmNamed (m : RowMap) (x : Op) (hop : opOf s k = some o) :
    ∃ o', opOf (gemmNamed k m x s) k = some o' ∧ o'.stage = 2 ∧ o'.admBeat = some s.tim.beat ∧ o'.desc = o.desc := by
  obtain ⟨l, u, mf, hmf⟩ := nameEntries_frame k x (setAdmitted k s)
  refine ⟨{ (o.admittedAt s.tim.beat).naming l u with map := some m, shapeRun := m.shapeRun }, ?_, rfl, rfl, rfl⟩
  rw [gemmNamed, hmf]
  refine opOf_modOp_some ?_ fun _ => rfl
  exact (opOf_congr rfl k).trans (opOf_modOp_some (opOf_setAdmitted hop) fun _ => rfl)

/-- Op `k` with row map `m` in force takes its flags, and its reads through captured pointers are held to its reach. -/
def gemmLoaded (k : Nat) (m : RowMap) (fs : List Nat) (add : Bool) (l : List (Nat × Nat)) (s : State) : State :=
  runtimeReach k l (modOp k (fun o => Op.loadFlags s fs add m { o with map := some m }) s)

/-- With its flags taken, the op begins on the groups of its row map. -/
theorem startGemm_loaded (m : RowMap) (roots fs : List Nat) (add init : Bool) (l : List (Nat × Nat)) {b : Nat} (hop : opOf s k = some o) (hstage : o.stage = 2)
    (hadm : o.admBeat = some b) : Begins k m b roots s (startGemm k m roots init (gemmLoaded k m fs add l s)) := by
  obtain ⟨v, hv⟩ : ∃ v, v = modOp k (fun o => Op.loadFlags s fs add m { o with map := some m }) s := ⟨_, rfl⟩
  have hopv : opOf v k = some (Op.loadFlags s fs add m { o with map := some m }) := by
    rw [hv]
    exact opOf_modOp_some hop fun x => loadFlags_key _ _ _ _ _
  have hreach := runtimeReach_sameTasks k l v
  obtain ⟨x, hopx, htask⟩ := hreach.op k _ hopv
  have hall := (loadFlags_sameTask s fs add m { o with map := some m }).trans htask
  rw [gemmLoaded, ← hv]
  refine (startGemm_begins roots init hopx (hall.stage.trans hstage) hall.map (hall.admBeat.trans hadm)).after (fun f => ?_) ?_ ?_ ?_
  · rw [hreach.loader, hv]
    rfl
  · rw [hreach.rowMaps, hv]
    rfl
  · rw [hreach.tokens, hv]
    rfl
  · rw [hreach.streams, hv]
    rfl

/-! ### The admission with a row map -/

/-- The words whose bit errors the admission meets: the operand that it quantises, and the feed scale words of its fields. -/
def Op.loadSpan (o : Op) (fs : List Nat) : List (Nat × Nat) := o.sources ++ fs.map (fun f => (feedAddr f (o.dn 44 3 - 8), 8))

/-- An op that takes its codes from a stored tensor measures no scale. -/
theorem measure_stored (h : o.wsrc = 0) : o.measure s = [] := if_pos h

/-- The row map with the scales that its initialise op measured (R280). -/
def RowMap.scaled (l : List ScaleOf) (m : RowMap) : RowMap := { m with scales := l.map (fun x => BitVec.ofNat 32 x.s), zeroCol := l.any (fun x => x.zero) }

/-- The row map of an initialise op takes the place of every map that it overlaps (R252). -/
def recordMap (m : RowMap) (s : State) : State := { s with rowMaps := (dropMaps m.part m.firstRow m.rows s).rowMaps ++ [m] }

/-- Op `k`, named and admitted as `gemmNamed` says, has read what it loads. -/
def gemmRead (k : Nat) (m : RowMap) (x o : Op) (s : State) : State := touchAll (o.loadSpan (groupsOf m.shapeRun (m.roots s))) (gemmNamed k m x s)

theorem takeGemm_init {m : RowMap} {x o₁ : Op} (hop : opOf (gemmNamed k m x s) k = some o₁) : takeGemm k m false x s =
    startGemm k (m.scaled (o₁.measure (gemmRead k m x o₁ s))) (m.roots s) true
      (gemmLoaded k (m.scaled (o₁.measure (gemmRead k m x o₁ s))) (groupsOf m.shapeRun (m.roots s)) false o₁.runtimeRanges
        (recordMap (m.scaled (o₁.measure (gemmRead k m x o₁ s))) (gemmRead k m x o₁ s))) := by
  unfold takeGemm
  dsimp only
  rw [← gemmNamed, hop]
  rfl

theorem takeGemm_add {m : RowMap} {x o₁ : Op} (hop : opOf (gemmNamed k m x s) k = some o₁) : takeGemm k m true x s =
    startGemm k m (m.roots s) false (gemmLoaded k m (groupsOf m.shapeRun (m.roots s)) true o₁.runtimeRanges (gemmRead k m x o₁ s)) := by
  unfold takeGemm
  dsimp only
  rw [← gemmNamed, hop]
  rfl

/-- What the op reads at its admission leaves its record, and every table that the start of the op works on. -/
theorem gemmRead_keeps (m : RowMap) (x o₁ : Op) (hop₁ : opOf (gemmNamed k m x s) k = some o₁) :
    (∃ o₂, opOf (gemmRead k m x o₁ s) k = some o₂ ∧ SameTask o₁ o₂) ∧ (∀ f, ((gemmRead k m x o₁ s).field f).loader = (s.field f).loader) ∧
      (gemmRead k m x o₁ s).rowMaps = s.rowMaps ∧ (gemmRead k m x o₁ s).tokens = s.tokens ∧ (gemmRead k m x o₁ s).streams = s.streams := by
  obtain ⟨u, hu⟩ : ∃ u, u = gemmNamed k m x s := ⟨_, rfl⟩
  have hread := touchAll_sameTasks (o₁.loadSpan (groupsOf m.shapeRun (m.roots s))) u
  obtain ⟨l, q, mf, hframe⟩ := gemmNamed_frame k m x s
  rw [gemmRead, ← hu]
  refine ⟨hread.op k o₁ (hu ▸ hop₁), fun f => ?_, ?_, ?_, ?_⟩
  · rw [hread.loader, hu, hframe]
    rfl
  · rw [hread.rowMaps, hu, hframe]
  · rw [hread.tokens, hu, hframe]
  · rw [hread.streams, hu, hframe]

/-- An initialise op is admitted: its row map stands, with the scales that it measured, in place of those it overlaps, and it begins. -/
theorem takeGemm_initBegins (m : RowMap) (x : Op) (hop : opOf s k = some o) : ∃ l, (o.wsrc = 0 → l = []) ∧
    Begins k (m.scaled l) s.tim.beat (m.roots s) (recordMap (m.scaled l) s) (takeGemm k m false x s) := by
  obtain ⟨o₁, hop₁, hstage, hadm, hdesc⟩ := opOf_gemmNamed m x hop
  obtain ⟨⟨o₂, hop₂, htask⟩, hloader, hmaps, htokens, hstreams⟩ := gemmRead_keeps m x o₁ hop₁
  have hwsrc : o₁.wsrc = o.wsrc := by simp only [Op.wsrc, Op.dn, hdesc]
  refine ⟨o₁.measure (gemmRead k m x o₁ s), fun h => measure_stored (hwsrc.trans h), ?_⟩
  rw [takeGemm_init hop₁]
  generalize m.scaled (o₁.measure (gemmRead k m x o₁ s)) = m'
  generalize gemmRead k m x o₁ s = r at hop₂ hloader hmaps htokens hstreams
  have hrecord : (recordMap m' r).rowMaps = (recordMap m' s).rowMaps := by simp only [recordMap, dropMaps, hmaps]
  have hop' : opOf (recordMap m' r) k = some o₂ := hop₂
  exact (startGemm_loaded m' _ _ false true _ hop' (htask.stage.trans hstage) (htask.admBeat.trans hadm)).after hloader hrecord htokens hstreams

/-- An add op is admitted: it begins on its row map, and the row maps stand. -/
theorem takeGemm_addBegins (m : RowMap) (x : Op) (hop : opOf s k = some o) : Begins k m s.tim.beat (m.roots s) s (takeGemm k m true x s) := by
  obtain ⟨o₁, hop₁, hstage, hadm, -⟩ := opOf_gemmNamed m x hop
  obtain ⟨⟨o₂, hop₂, htask⟩, hloader, hmaps, htokens, hstreams⟩ := gemmRead_keeps m x o₁ hop₁
  rw [takeGemm_add hop₁]
  exact (startGemm_loaded m (m.roots s) _ true false o₁.runtimeRanges hop₂ (htask.stage.trans hstage) (htask.admBeat.trans hadm)).after hloader hmaps htokens hstreams

/-- The start of an add op writes no accumulator cell. -/
theorem startGemm_addStore (m : RowMap) (roots : List Nat) (s : State) : SameStore s (startGemm k m roots false s) := by
  simp only [startGemm, Bool.false_eq_true, if_false]
  split
  · exact .refl s
  split
  · exact modOp_sameStore _ _ s
  · refine SameStore.trans (t := claimLoaders k _ (modOp k _ s)) ?_ (tryStart_sameStore k _)
    rw [claimLoaders_frame]
    exact ⟨rfl, rfl, rfl, rfl⟩

theorem takeGemm_addAcc (m : RowMap) (x : Op) (hop : opOf s k = some o) (he : s.errs = []) : (takeGemm k m true x s).acc = s.acc := by
  obtain ⟨o₁, hop₁, -⟩ := opOf_gemmNamed m x hop
  obtain ⟨l, q, mf, hframe⟩ := gemmNamed_frame k m x s
  have hnamed : SameStore s (gemmNamed k m x s) := by
    rw [hframe]
    exact ⟨rfl, rfl, rfl, rfl⟩
  have hread : gemmRead k m x o₁ s = gemmNamed k m x s := touchAll_noErrs (hnamed.errs.trans he) _
  rw [takeGemm_add hop₁, hread]
  exact (((hnamed.trans (modOp_sameStore k _ _)).trans (runtimeReach_sameStore k _ _)).trans (startGemm_addStore m _ _)).acc

/-! ### The admission (R234, R252 to R255, R434) -/

/-- The body of an admission runs in the state as it stands: no list is read, or no word of it holds bit errors. -/
theorem admitOp_runs_admissible {code : Nat} (h : Admissible s k code o) (body : Op → State → State) : admitOp k code body s = body o s := by
  obtain ⟨hop, rfl, hstage, hcopy, habort, hadmit, hwaits, hup, hfirst, hlist⟩ := h
  simp only [admitOp, hop, hstage, hcopy, habort, hadmit, hwaits, hup, hfirst, and_self, if_true, Bool.false_eq_true, if_false, Bool.not_true]
  rcases hlist with hnone | ⟨he, hbad, hheld, hunit⟩
  · rw [if_pos hnone]
  · simp only [hunit, touch_noErrs he, hheld, hbad, Bool.false_eq_true, if_false, ite_self]

section
variable (hd0 : s.pwr.state = 0) (hstay : s.pwr.next = none) (h : Admissible s k 0x01 o)
include hd0 hstay h

theorem fieldGemm_admits : exec (.fieldGemm k) s = .next (if o.isAdd then admitAdd k o s else admitInit k o s) :=
  congrArg Host.Outcome.next ((if_pos ⟨hd0, hstay⟩).trans (admitOp_runs_admissible h _))

theorem fieldGemm_inits {mode : Nat} {cols : List Nat} {m : RowMap} (hinit : o.isAdd = false) (hmode : modeRun s (bits (o.dn 16 2) 3 2) = some (mode, cols))
    (hm : m = mapFor s o (shapeRunOf s (o.part s) (bits (o.dn 16 2) 0 3)) mode cols) (hstep : m.cStep ≠ 0) (hcols : ¬ (o.wsrc = 2 ∧ m.cStep < o.nLen))
    (hrows : m.firstRow + m.rows ≤ 2048) (hroom : ((dropMaps m.part m.firstRow m.rows s).rowMaps.filter (fun x => x.part == m.part)).length < 64)
    (hready : fieldsReady s k (groupsOf m.shapeRun (m.roots s)) = true) (hheld : o.loadHeld s m = false) :
    exec (.fieldGemm k) s = .next (takeGemm k m false o (modOp k (Op.flagIf (m.shapeRun != m.shape) fDegraded) s)) := by
  rw [fieldGemm_admits hd0 hstay h, hinit, if_neg Bool.false_ne_true]
  have hwait : ¬((!fieldsReady s k (groupsOf m.shapeRun (m.roots s)) || o.loadHeld s m) = true) := by simp [hready, hheld]
  subst hm
  refine congrArg Host.Outcome.next ?_
  simp only [admitInit, hmode]
  exact (if_neg hstep).trans ((if_neg hcols).trans ((if_neg (Nat.not_lt.mpr hrows)).trans ((if_neg (Nat.not_le.mpr hroom)).trans (if_neg hwait))))

theorem fieldGemm_adds {m : RowMap} (hadd : o.isAdd = true) (hmap : addMap s o = some m) (hdiff : addDiffers o m = none) (hepoch : o.wsrc = 0 → o.epoch = m.epoch)
    (hcolour : m.colours.any (colourOff s) = false) (hpass : passOver s { o with entries := (listOf s o).map (captOf s), map := some m } m = false)
    (hready : fieldsReady s k (groupsOf m.shapeRun (m.roots s)) = true) (hheld : o.loadHeld s m = false) :
    exec (.fieldGemm k) s = .next (takeGemm k m true o (modOp k (Op.flagIf (m.shapeRun != m.shape) fDegraded) s)) := by
  have hsame : ¬(o.wsrc = 0 ∧ o.epoch ≠ m.epoch) := fun hw => hw.2 (hepoch hw.1)
  rw [fieldGemm_admits hd0 hstay h, hadd, if_pos rfl]
  simp [admitAdd, hmap, hdiff, hsame, hcolour, hpass, hready, hheld]

theorem fieldGemm_noColours (hinit : o.isAdd = false) (hmode : modeRun s (bits (o.dn 16 2) 3 2) = none) :
    exec (.fieldGemm k) s = .next (retire k true 8 0 s) := by
  rw [fieldGemm_admits hd0 hstay h, hinit, if_neg Bool.false_ne_true]
  simp only [admitInit, hmode]

theorem fieldGemm_noMap (hadd : o.isAdd = true) (hmap : addMap s o = none) : exec (.fieldGemm k) s = .next (retire k true 2 18 s) := by
  rw [fieldGemm_admits hd0 hstay h, hadd, if_pos rfl]
  simp only [admitAdd, hmap]

end

theorem fieldGemm_waits (hpower : s.pwr.state ≠ 0 ∨ s.pwr.next ≠ none) : exec (.fieldGemm k) s = .next s :=
  congrArg Host.Outcome.next (if_neg fun ⟨hd0, hstay⟩ => hpower.elim (absurd hd0) (absurd hstay))

end

/-- Settles O28: an op that passes every check is admitted by `takeGemm` and begins; each other case is a lemma above. -/
theorem fieldGemmIsAdmittedAndLoadersPass : Obligations.FieldGemmIsAdmittedAndLoadersPass := by
  refine ⟨?_, ?_, fun _ _ _ hd0 hstay h _ => fieldGemm_noColours hd0 hstay h, fun _ _ _ hd0 hstay h _ => fieldGemm_noMap hd0 hstay h,
    fun _ _ => fieldGemm_waits, fun _ _ _ _ _ => opHandover_takesLoaders, fun _ _ _ => opHandover_stays⟩
  · intro s k o mode cols m hd0 hstay h hinit hmode hm hstep hcols hrows hroom hready hheld
    have hop : opOf (modOp k (Op.flagIf (m.shapeRun != m.shape) fDegraded) s) k = some (o.flagIf (m.shapeRun != m.shape) fDegraded) :=
      opOf_modOp_some h.1 fun _ => flagIf_key _ _ _
    have hwsrc : (o.flagIf (m.shapeRun != m.shape) fDegraded).wsrc = o.wsrc := by
      simp only [Op.wsrc, Op.dn, (flagIf_sameTask _ _ o).desc]
    obtain ⟨l, hl, ⟨o', hop', hmap, hstage, hadm, hrun⟩, hmaps, htokens, hstreams⟩ := takeGemm_initBegins m o hop
    exact ⟨_, fieldGemm_inits hd0 hstay h hinit hmode hm hstep hcols hrows hroom hready hheld,
      o', _, _, hop', hmap, fun hw => by rw [hl (hwsrc.trans hw)]; rfl, hstage, hadm, hrun, hmaps, htokens, hstreams⟩
  · intro s k o m hd0 hstay h hadd hmap hdiff hepoch hcolour hpass hready hheld
    have hop : opOf (modOp k (Op.flagIf (m.shapeRun != m.shape) fDegraded) s) k = some (o.flagIf (m.shapeRun != m.shape) fDegraded) :=
      opOf_modOp_some h.1 fun _ => flagIf_key _ _ _
    obtain ⟨⟨o', hop', hmap', hstage, hadm, hrun⟩, hmaps, htokens, -⟩ := takeGemm_addBegins m o hop
    exact ⟨_, fieldGemm_adds hd0 hstay h hadd hmap hdiff hepoch hcolour hpass hready hheld, ⟨o', hop', hmap', hadm, hstage, hrun⟩, hmaps,
      takeGemm_addAcc m o hop, htokens⟩

end Sys2Proof.Machine
end

section
/-! The launch of a `vec.kernel`: what a copied range leaves, the state in which a core enters its kernel, and the three ways of the admission (R274 to R276,
R306). -/

namespace Sys2Proof.Machine

open Sys2Proof State

/-! ### Copied ranges -/

theorem copyBytes_storesBeside {s : State} (he : s.errs = []) (src dst n : Nat) :
    StoresBeside (fun a => a < dst ∨ dst + n ≤ a) s (copyBytes src dst n s) := by
  simp only [copyBytes, touch_noErrs he]
  exact (StoresBeside.refl _ s).wrBytes he (fun _ hb => by rwa [length_rdBytes]) _

/-- `t` is `s` but for memory, its poison and what the sequencer hides. -/
def StoresOnly (s t : State) : Prop := ∃ q m p, t = { s with seq := q, mem := m, poison := p }

theorem StoresOnly.trans {s t u : State} (h : StoresOnly s t) (h' : StoresOnly t u) : StoresOnly s u := by
  obtain ⟨q, m, p, rfl⟩ := h
  obtain ⟨q', m', p', rfl⟩ := h'
  exact ⟨q', m', p', rfl⟩

theorem StoresOnly.noErrs {s t : State} (h : StoresOnly s t) (he : s.errs = []) : t.errs = [] := by
  obtain ⟨q, m, p, rfl⟩ := h
  exact he

theorem StoresBeside.storesOnly {K : Nat → Prop} {s t : State} (h : StoresBeside K s t) : StoresOnly s t := by
  obtain ⟨q, m, p, rfl, -⟩ := h
  exact ⟨q, m, p, rfl⟩

theorem copyShown_storesOnly {s : State} (he : s.errs = []) (src dst n : Nat) : StoresOnly s (copyShown src dst n s) :=
  (copyBytes_storesBeside he src dst n).storesOnly.trans ⟨_, _, _, rfl⟩

/-! ### The integer registers at kernel entry (R275) -/

/-- A table whose keys differ reads alike without its zero entries. -/
theorem tget_filter_pos {t : Tab Nat} (hkeys : (t.map Prod.fst).Nodup) (k : Nat) : tget 0 (t.filter (fun r => decide (0 < r.2))) k = tget 0 t k := by
  induction t with
  | nil => rfl
  | cons e t ih =>
    obtain ⟨a, v⟩ := e
    obtain ⟨hnew, hkeys⟩ := List.nodup_cons.mp hkeys
    by_cases hv : 0 < v
    · rw [List.filter_cons_of_pos (by simpa using hv), tget, tget, ih hkeys]
    · rw [List.filter_cons_of_neg (by simpa using hv), tget, ih hkeys]
      split
      next hak => rw [← hak, tget_unlisted 0 t hnew, Nat.eq_zero_of_not_pos hv]
      next => rfl

theorem tget_entryRegs (o : Op) (c rank n r : Nat) : tget 0 (entryRegs o c rank n) r = tget 0
    [(2, 0x40000), (4, c % 64), (10, 0x14000), (11, o.dn 38 2), (12, rank), (13, n), (14, c / 64),
      (15, if 0 < o.mlist.2 then 0x15000 else 0), (16, o.mlist.2), (17, o.stream * 65536 + o.tag)] r :=
  tget_filter_pos (t := [(2, 0x40000), (4, _), (10, _), (11, _), (12, _), (13, _), (14, _), (15, _), (16, _), (17, _)])
    (by decide : [2, 4, 10, 11, 12, 13, 14, 15, 16, 17].Nodup) r

/-! ### A core that enters its kernel -/

/-- Core `c` runs op `k`'s launch on `n` cores since beat `b`, in the entry state of R275. -/
structure Entered (k n b c : Nat) (x : Core) : Prop where
  state : x.state = 1
  launch : x.launch = some k
  started : x.started = b
  stalled : x.stalled = false
  vill : x.vill = true
  vl : x.vl = 0
  frm : x.frm = 0
  fregs : x.fregs = []
  vregs : x.vregs = []
  sp : tget 0 x.xregs 2 = 0x40000
  tp : tget 0 x.xregs 4 = c % 64
  a0 : tget 0 x.xregs 10 = 0x14000
  a3 : tget 0 x.xregs 13 = n
  a4 : tget 0 x.xregs 14 = c / 64

/-- `t` is `s` but for memory and cores, and of the cores those in `l` have entered op `k`'s launch on `n` cores. -/
structure Launched (k n : Nat) (l : List Nat) (s t : State) : Prop where
  frame : ∃ q m p r, t = { s with seq := q, mem := m, poison := p, cores := r }
  enters : ∀ c, c ∈ l → Entered k n s.tim.beat c (t.coreOf c)
  others : ∀ c, c ∉ l → t.coreOf c = s.coreOf c

section
variable {s : State}

/-- The runtime's copies on core `c`: the code unless it is resident, the arguments, the manifest list (R274). -/
def runtimeCopies (o : Op) (c : Nat) (s : State) : State :=
  copyShown o.mlist.1 (coreBase c + 0x15000) (2 * o.mlist.2) (copyShown (o.dn 32 6) (coreBase c + 0x14000) (o.dn 38 2)
    (if o.dn 16 6 < 0x10000 ∨ (s.coreOf c).resident = some (o.dn 16 6, BitVec.ofNat 32 (rdNat s (o.dn 16 6 + 24) 4)) then s
     else copyShown (o.dn 16 6 + 64) (coreBase c + 0xC000) (rdNat s (o.dn 16 6 + 8) 4) s))

theorem runtimeCopies_storesOnly (he : s.errs = []) (o : Op) (c : Nat) : StoresOnly s (runtimeCopies o c s) := by
  have hcode : StoresOnly s (if o.dn 16 6 < 0x10000 ∨ (s.coreOf c).resident = some (o.dn 16 6, BitVec.ofNat 32 (rdNat s (o.dn 16 6 + 24) 4)) then s
      else copyShown (o.dn 16 6 + 64) (coreBase c + 0xC000) (rdNat s (o.dn 16 6 + 8) 4) s) := by
    split
    · exact ⟨_, _, _, rfl⟩
    · exact copyShown_storesOnly he _ _ _
  have hargs := hcode.trans (copyShown_storesOnly (hcode.noErrs he) (o.dn 32 6) (coreBase c + 0x14000) (o.dn 38 2))
  exact hargs.trans (copyShown_storesOnly (hargs.noErrs he) _ _ _)

theorem startCore_launches (he : s.errs = []) (o : Op) (n c rank : Nat) (bar : Bool) : Launched o.key n [c] s (startCore o n c rank bar s) := by
  obtain ⟨q, m, p, hcopies⟩ := runtimeCopies_storesOnly he o c
  unfold runtimeCopies at hcopies
  unfold startCore
  dsimp only
  rw [hcopies]
  refine ⟨⟨q, m, p, _, rfl⟩, fun d hd => ?_, fun d hd => ?_⟩
  · obtain rfl := List.mem_singleton.mp hd
    rw [coreOf_modCoreOf, if_pos rfl]
    constructor
    case sp | tp | a0 | a3 | a4 => exact tget_entryRegs ..
    all_goals rfl
  · rw [coreOf_modCoreOf, if_neg (fun h => hd (List.mem_singleton.mpr h))]
    rfl

/-- One launch after another: a core of both lists has entered the later one, which is the same op's. -/
theorem Launched.trans {k n : Nat} {l l' : List Nat} {t u : State} (h : Launched k n l s t) (h' : Launched k n l' t u) : Launched k n (l ++ l') s u := by
  obtain ⟨⟨q, m, p, r, ht⟩, henters, hothers⟩ := h
  obtain ⟨⟨q', m', p', r', hu⟩, henters', hothers'⟩ := h'
  refine ⟨⟨q', m', p', r', by rw [hu, ht]⟩, fun c hc => ?_, fun c hc => ?_⟩
  · by_cases hc' : c ∈ l'
    · have hbeat : t.tim.beat = s.tim.beat := by rw [ht]
      exact hbeat ▸ henters' c hc'
    · rw [hothers' c hc']
      exact henters c ((List.mem_append.mp hc).resolve_right hc')
  · rw [List.mem_append, not_or] at hc
    exact (hothers' c hc.2).trans (hothers c hc.1)

theorem Launched.noErrs {k n : Nat} {l : List Nat} {t : State} (h : Launched k n l s t) (he : s.errs = []) : t.errs = [] := by
  obtain ⟨q, m, p, r, rfl⟩ := h.frame
  exact he

/-- The runtime starts the ranks of a launch on the cores `l` one after another (R274). -/
def startRanks (o : Op) (l : List Nat) (bar : Bool) (s : State) : State :=
  ((List.range l.length).zip l).foldl (fun s x => startCore o l.length x.2 x.1 bar s) s

theorem foldl_startCore_launches (he : s.errs = []) (o : Op) (n : Nat) (bar : Bool) (ranks : List (Nat × Nat)) :
    Launched o.key n (ranks.map Prod.snd) s (ranks.foldl (fun s x => startCore o n x.2 x.1 bar s) s) := by
  induction ranks generalizing s with
  | nil => exact ⟨⟨_, _, _, _, rfl⟩, fun c hc => absurd hc List.not_mem_nil, fun _ _ => rfl⟩
  | cons x ranks ih =>
    have hfirst := startCore_launches he o n x.2 x.1 bar
    exact hfirst.trans (ih (hfirst.noErrs he))

theorem startRanks_launches (he : s.errs = []) (o : Op) (l : List Nat) (bar : Bool) : Launched o.key l.length l s (startRanks o l bar s) := by
  have h := foldl_startCore_launches he o l.length bar ((List.range l.length).zip l)
  rwa [List.map_snd_zip (by rw [List.length_range])] at h

end

/-! ### The admission (R274, R306) -/

/-- Op `k`, admitted with the manifest entries that it names, and given the cores `l`. -/
def kernelNamed (k : Nat) (o : Op) (l : List Nat) (s : State) : State := modOp k (fun x => { x with cores := l }) (nameEntries k o (setAdmitted k s))

section
variable {s : State} {k : Nat} {o : Op}

theorem kernelNamed_frame (k : Nat) (o : Op) (l : List Nat) (s : State) : ∃ ops q mf, kernelNamed k o l s = { s with ops := ops, seq := q, manifest := mf } := by
  obtain ⟨q, hq⟩ := setAdmitted_frame k s
  obtain ⟨_, _, mf, hmf⟩ := nameEntries_frame k o (setAdmitted k s)
  rw [kernelNamed, hmf, hq]
  exact ⟨_, _, mf, rfl⟩

theorem opOf_kernelNamed (x : Op) (l : List Nat) (hop : opOf s k = some o) :
    ∃ o', opOf (kernelNamed k x l s) k = some o' ∧ o'.stage = 2 ∧ o'.admBeat = some s.tim.beat ∧ o'.cores = l := by
  obtain ⟨caps, u, mf, hmf⟩ := nameEntries_frame k x (setAdmitted k s)
  refine ⟨{ (o.admittedAt s.tim.beat).naming caps u with cores := l }, ?_, rfl, rfl, rfl⟩
  rw [kernelNamed, hmf]
  refine opOf_modOp_some ?_ fun _ => rfl
  exact (opOf_congr rfl k).trans (opOf_modOp_some (opOf_setAdmitted hop) fun _ => rfl)

theorem vecKernel_waits (h : Admissible s k 0x10 o) (hwait : canLaunch s o = false ∨ heldAny s (o.launchRanges s) = true) : exec (.vecKernel k) s = .next s :=
  congrArg Host.Outcome.next ((admitOp_runs_admissible h _).trans (if_pos (by simpa using hwait)))

/-- With no healthy core in its fields the op is at its retire point at once, and KERNEL_TRAP is posted (R276). -/
theorem vecKernel_coreless (h : Admissible s k 0x10 o) (hcan : canLaunch s o = true) (hheld : heldAny s (o.launchRanges s) = false) (hnone : launchCores s o = []) :
    exec (.vecKernel k) s = .next (modOp k (fun o => { o with cores := [], stage := 3 })
      (postTrap o 0xFFFF 6 0 0 (modOp k (Op.flag fPoison) (kernelNamed k o [] s)))) := by
  refine congrArg Host.Outcome.next ((admitOp_runs_admissible h _).trans ((if_neg (by simp [hcan, hheld])).trans ?_))
  rw [hnone]
  rfl

theorem vecKernel_coreless_ends (h : Admissible s k 0x10 o) (hcan : canLaunch s o = true) (hheld : heldAny s (o.launchRanges s) = false)
    (hnone : launchCores s o = []) : Completes (.vecKernel k) s (fun t =>
      (∃ o', opOf t k = some o' ∧ o'.stage = 3 ∧ o'.flags.getLsbD fPoison = true ∧ o'.cores = []) ∧ t.cores = s.cores) := by
  obtain ⟨o₁, hop₁, -⟩ := opOf_kernelNamed o [] h.1
  obtain ⟨ops, q, mf, hframe⟩ := kernelNamed_frame k o [] s
  have hflag := opOf_modOp_some (g := Op.flag fPoison) hop₁ fun _ => rfl
  have hpost : opOf (postTrap o 0xFFFF 6 0 0 (modOp k (Op.flag fPoison) (kernelNamed k o [] s))) k = some (o₁.flag fPoison) :=
    (opOf_congr (post_ops _ _ _) k).trans hflag
  refine ⟨_, vecKernel_coreless h hcan hheld hnone, ⟨_, opOf_modOp_some hpost fun _ => rfl, rfl, by simp [Op.flag, fPoison], rfl⟩, ?_⟩
  rw [modOp_cores, postTrap, post_cores, modOp_cores, hframe]

theorem kernelNamed_noErrs (he : s.errs = []) (k : Nat) (o : Op) (l : List Nat) : (kernelNamed k o l s).errs = [] := by
  obtain ⟨ops, q, mf, hq⟩ := kernelNamed_frame k o l s
  rw [hq]
  exact he

/-- A package in order starts on every core of the launch (R272, R274). -/
theorem vecKernel_starts {s' : State} (h : Admissible s k 0x10 o) (he : s.errs = []) (hcan : canLaunch s o = true)
    (hheld : heldAny s (o.launchRanges s) = false) (hcores : launchCores s o ≠ []) (hentry : 0x10000 ≤ o.dn 16 6)
    (hs' : s' = kernelNamed k o (launchCores s o) s) (hok : packageOk s' (o.part s') (o.dn 16 6) (launchCores s o).length = true) :
    exec (.vecKernel k) s = .next (startRanks o (launchCores s o) (bit (rdNat s' (o.dn 16 6 + 6) 2) 0) s') := by
  have he' : s'.errs = [] := hs' ▸ kernelNamed_noErrs he k o (launchCores s o)
  have hlong : ¬ o.dn 16 6 < 0x10000 := Nat.not_lt.mpr hentry
  refine congrArg Host.Outcome.next ((admitOp_runs_admissible h _).trans ((if_neg (by simp [hcan, hheld])).trans
    ((if_neg (by simpa using hcores)).trans ?_)))
  unfold kernelNamed at hs'
  simp only [← hs', if_neg hlong, touch_noErrs he', hok, Bool.true_eq_false, and_false, if_false, if_pos hentry, decide_eq_true hentry, Bool.true_and]
  rfl

end

/-- Settles O31: the two launches and the wait by what each admission leaves; a core that the launch takes is `Entered`. -/
theorem vecKernelLaunches : Obligations.VecKernelLaunches := by
  refine ⟨?_, fun _ _ _ => vecKernel_coreless_ends, fun _ _ _ => vecKernel_waits⟩
  intro s k o s' h he hcan hheld hcores hentry hs' hok
  have hexec := vecKernel_starts h he hcan hheld hcores hentry hs' hok
  obtain ⟨o', hop', hstage, hadm, hcs⟩ := opOf_kernelNamed o (launchCores s o) h.1
  obtain ⟨ops, q, mf, hnamed⟩ := kernelNamed_frame k o (launchCores s o) s
  have he' : s'.errs = [] := hs' ▸ kernelNamed_noErrs he k o (launchCores s o)
  obtain ⟨⟨q', m, p, r, hframe⟩, henters, hothers⟩ := startRanks_launches he' o (launchCores s o) (bit (rdNat s' (o.dn 16 6 + 6) 2) 0)
  have hop : opOf (startRanks o (launchCores s o) (bit (rdNat s' (o.dn 16 6 + 6) 2) 0) s') k = some o' := by
    rw [hframe]
    exact (congrArg (opOf · k) hs').trans hop'
  have hkeeps : s' = _ := hs'.trans hnamed
  have hbeat : s'.tim.beat = s.tim.beat := by rw [hkeeps]
  have hcores' : s'.cores = s.cores := by rw [hkeeps]
  refine ⟨_, hexec, ⟨o', hop, hstage⟩, by rw [hop, Option.map_some, hcs, hadm], fun c hc => ?_, fun c hc => (hothers c hc).trans (coreOf_congr s s' hcores' c),
    by rw [hframe, hkeeps], by rw [hframe, hkeeps]⟩
  obtain ⟨hstate, hlaunch, hstarted, hstalled, hvill, hvl, hfrm, hfregs, hvregs, hsp, htp, ha0, ha3, ha4⟩ := henters c hc
  exact ⟨hstate, hlaunch.trans (congrArg some (opOf_key h.1)), hstarted.trans hbeat, hstalled, hvill, hvl, hfrm, hfregs, hvregs, hsp, htp, ha0, ha3, ha4⟩

end Sys2Proof.Machine
end

section
/-! What a running core writes, and the ends of its kernel: barriers, `vpoison`, stores, core DMA, returns, traps and the watchdog (R268 to R271, R276, R277,
R306). -/

namespace Sys2Proof.Machine

open Sys2Proof State

/-! ### A running core and its op -/

section
variable {s t : State} {k c : Nat} {o : Op}

theorem runningOp_eq_some : runningOp s c = some o ↔ (s.coreOf c).state = 1 ∧ (s.coreOf c).launch = some o.key ∧ opOf s o.key = some o := by
  unfold runningOp
  split
  next hstate =>
    rw [Option.bind_eq_some_iff]
    constructor
    · rintro ⟨k, hlaunch, hop⟩
      obtain rfl := opOf_key hop
      exact ⟨hstate, hlaunch, hop⟩
    · rintro ⟨-, hlaunch, hop⟩
      exact ⟨_, hlaunch, hop⟩
  next hstate => exact ⟨nofun, fun h => absurd h.1 hstate⟩

theorem runningOp_idle (hstate : (s.coreOf c).state = 0) : runningOp s c = none := if_neg (by rw [hstate]; decide)

/-! ### Barriers (R277) -/

/-- The core, which goes on unless a core of `l` has written `vbarrier` fewer times, as `b` counts them. -/
def Core.released (l : List Nat) (b : Nat → Nat) (x : Core) : Core := { x with stalled := x.stalled && l.any (fun d => decide (b d < x.barrier)) }

theorem released_released (l : List Nat) (b : Nat → Nat) (x : Core) : (x.released l b).released l b = x.released l b := by
  unfold Core.released
  dsimp only
  rw [Bool.and_assoc, Bool.and_self]

/-- How often each core has written `vbarrier`. -/
def barriers (s : State) (d : Nat) : Nat := (s.coreOf d).barrier

/-- The release of one core of a launch on the cores `l`. -/
def releaseOne (l : List Nat) (s : State) (c : Nat) : State := s.modCoreOf c (Core.released l (barriers s))

theorem releaseBarrier_eq (h : opOf s k = some o) : releaseBarrier k s = o.cores.foldl (releaseOne o.cores) s := by
  simp only [releaseBarrier, h]
  rfl

theorem barriers_releaseOne (l : List Nat) (s : State) (c : Nat) : barriers (releaseOne l s c) = barriers s := by
  funext d
  unfold releaseOne barriers
  rw [coreOf_modCoreOf]
  split
  next hd => rw [hd]; rfl
  next => rfl

theorem coreOf_foldl_releaseOne (l l' : List Nat) (s : State) (c : Nat) :
    (l'.foldl (releaseOne l) s).coreOf c = if c ∈ l' then (s.coreOf c).released l (barriers s) else s.coreOf c := by
  induction l' generalizing s with
  | nil => rfl
  | cons a l' ih =>
    rw [List.foldl_cons, ih, barriers_releaseOne]
    by_cases hca : c = a
    · subst hca
      simp [releaseOne, released_released]
    · simp [releaseOne, hca]

theorem releaseBarrier_frame (k : Nat) (s : State) : releaseBarrier k s = { s with cores := (releaseBarrier k s).cores } := by
  cases h : opOf s k with
  | none => simp only [releaseBarrier, h]
  | some o =>
    rw [releaseBarrier_eq h]
    exact foldl_inv (fun t => t = { s with cores := t.cores }) (releaseOne o.cores) (fun t c ht => by rw [ht]; rfl) _ s rfl

/-- A release changes of a core only whether it is stalled. -/
theorem coreOf_releaseBarrier (k : Nat) (s : State) (c : Nat) : ∃ b, (releaseBarrier k s).coreOf c = { s.coreOf c with stalled := (s.coreOf c).stalled && b } := by
  cases h : opOf s k with
  | none =>
    refine ⟨true, ?_⟩
    simp [releaseBarrier, h]
  | some o =>
    rw [releaseBarrier_eq h, coreOf_foldl_releaseOne]
    split
    · exact ⟨_, rfl⟩
    · exact ⟨true, by rw [Bool.and_true]⟩

/-! ### The end of a kernel (R276) -/

/-- The op once core `c` has ended its part: at its retire point when that was the last, with POISON where the core's kernel met poison. -/
def Op.endedOn (c : Nat) (pois : Bool) (o : Op) : Op :=
  ({ o with cores := o.cores.filter (fun d => d != c), stage := if (o.cores.filter (fun d => d != c)).isEmpty then 3 else o.stage } : Op).flagIf pois fPoison

theorem endedOn_key (c : Nat) (pois : Bool) (o : Op) : (o.endedOn c pois).key = o.key := flagIf_key ..

theorem endedOn_stage (c : Nat) (pois : Bool) (o : Op) :
    (o.endedOn c pois).stage = if (o.cores.filter (fun d => d != c)).isEmpty then 3 else o.stage := flagIf_stage ..

/-- A flag that an op has it keeps under further flags. -/
theorem flagIf_keeps {i j : Nat} (b : Bool) (h : o.flags.getLsbD i = true) : (o.flagIf b j).flags.getLsbD i = true := by
  unfold Op.flagIf
  split
  · simp [Op.flag, h]
  · exact h

theorem endedOn_keepsFlag {i : Nat} (c : Nat) (pois : Bool) (h : o.flags.getLsbD i = true) : (o.endedOn c pois).flags.getLsbD i = true :=
  flagIf_keeps pois h

/-- Core `c` of `s` has ended its kernel in `t`: it is free with its trap bits as they were, its op has one core less, and no other core changes its state. -/
structure Ends (o : Op) (c : Nat) (s t : State) : Prop where
  state : (t.coreOf c).state = 0
  launch : (t.coreOf c).launch = none
  trapped : (t.coreOf c).trapped = (s.coreOf c).trapped
  cause : (t.coreOf c).cause = (s.coreOf c).cause
  others : ∀ d, d ≠ c → (t.coreOf d).state = (s.coreOf d).state
  op : opOf t o.key = (opOf s o.key).map (Op.endedOn c (s.coreOf c).poison)
  mem : t.mem = s.mem

theorem endCore_eq (o : Op) (c : Nat) (s : State) :
    endCore o c s = releaseBarrier o.key (modOp o.key (Op.endedOn c (s.coreOf c).poison) (s.modCoreOf c Core.leave)) := rfl

theorem endCore_ends (o : Op) (hstate : (s.coreOf c).state ≠ 3) : Ends o c s (endCore o c s) := by
  have hops : (endCore o c s).ops = (modOp o.key (Op.endedOn c (s.coreOf c).poison) s).ops := by
    rw [endCore_eq, releaseBarrier_frame]
    rfl
  have hmem : (endCore o c s).mem = s.mem := by
    rw [endCore_eq, releaseBarrier_frame]
    rfl
  have hcore (d : Nat) : ∃ b, (endCore o c s).coreOf d =
      { (s.modCoreOf c Core.leave).coreOf d with stalled := ((s.modCoreOf c Core.leave).coreOf d).stalled && b } := coreOf_releaseBarrier o.key _ d
  obtain ⟨b, hc⟩ := hcore c
  rw [coreOf_modCoreOf, if_pos rfl] at hc
  refine ⟨?_, ?_, ?_, ?_, fun d hd => ?_, (opOf_congr hops o.key).trans (opOf_modOp (endedOn_key c _) o.key s), hmem⟩
  · rw [hc]
    exact if_neg hstate
  · rw [hc]; rfl
  · rw [hc]; rfl
  · rw [hc]; rfl
  · obtain ⟨b, hb⟩ := hcore d
    rw [hb, coreOf_modCoreOf, if_neg hd]

/-! ### Traps (R276) -/

/-- The core with its trap bits (R285). -/
def Core.trap (cause : Nat) (x : Core) : Core := { x with trapped := true, cause := cause }

theorem trapCore_cores (o : Op) (c cause mcause mepc : Nat) (s : State) :
    (trapCore o c cause mcause mepc s).cores = (s.modCoreOf c (Core.trap cause)).cores := post_cores ..

theorem trapCore_ops (o : Op) (c cause mcause mepc : Nat) (s : State) :
    (trapCore o c cause mcause mepc s).ops = (modOp o.key (Op.flag fPoison) s).ops := post_ops ..

theorem trapCore_mem (o : Op) (c cause mcause mepc : Nat) (s : State) : (trapCore o c cause mcause mepc s).mem = s.mem := post_mem ..

/-- Core `c` of `s` has trapped with `cause` in `t`: it is free, its op has POISON, and memory stands. -/
structure Traps (o : Op) (c cause : Nat) (s t : State) : Prop where
  state : (t.coreOf c).state = 0
  launch : (t.coreOf c).launch = none
  trapped : (t.coreOf c).trapped = true
  cause : (t.coreOf c).cause = cause
  op : opOf t o.key = some ((o.flag fPoison).endedOn c (s.coreOf c).poison)
  mem : t.mem = s.mem

theorem Traps.poisons {cause : Nat} (h : Traps o c cause s t) : ∃ o', opOf t o.key = some o' ∧ o'.flags.getLsbD fPoison = true :=
  ⟨_, h.op, endedOn_keepsFlag c _ (by simp [Op.flag, fPoison])⟩

theorem endCore_traps (hrun : runningOp s c = some o) (cause mcause mepc : Nat) : Traps o c cause s (endCore o c (trapCore o c cause mcause mepc s)) := by
  obtain ⟨hstate, -, hop⟩ := runningOp_eq_some.mp hrun
  have hcore : (trapCore o c cause mcause mepc s).coreOf c = (s.coreOf c).trap cause :=
    (coreOf_congr _ _ (trapCore_cores ..) c).trans ((coreOf_modCoreOf s c c _).trans (if_pos rfl))
  have hop' : opOf (trapCore o c cause mcause mepc s) o.key = some (o.flag fPoison) :=
    (opOf_congr (trapCore_ops ..) o.key).trans (opOf_modOp_some hop fun _ => rfl)
  have hends : Ends o c (trapCore o c cause mcause mepc s) (endCore o c (trapCore o c cause mcause mepc s)) :=
    endCore_ends o (by rw [hcore]; exact hstate.symm ▸ (by decide : (1 : Nat) ≠ 3))
  refine ⟨hends.state, hends.launch, by rw [hends.trapped, hcore]; rfl, by rw [hends.cause, hcore]; rfl, ?_, hends.mem.trans (trapCore_mem ..)⟩
  rw [hends.op, hop', hcore]
  rfl

/-! ### The loads and stores of a kernel (R268 to R270) -/

theorem coreStep_nil (g : Op → State → State) (hrun : runningOp s c = some o) (hgo : (s.coreOf c).stalled = false) : coreStep c [] g s = g o s := by
  simp [coreStep, coreWork, hrun, hgo]

theorem coreWork_traps {x : CoreAccess} {tr : Nat × Nat} (hrun : runningOp s c = some o) (hgo : (s.coreOf c).stalled = false) (htrap : accessTrap s c x = some tr) :
    coreWork c [x] s = endCore o c (trapCore o c tr.1 tr.2 x.pc.toNat s) := by
  simp [coreWork, hrun, hgo, htrap]

theorem coreWork_accesses {x : CoreAccess} (hrun : runningOp s c = some o) (hgo : (s.coreOf c).stalled = false) (hok : accessTrap s c x = none) :
    coreWork c [x] s = coreAccess o c x s := by
  simp [coreWork, hrun, hgo, hok]

/-- An access that traps ends the kernel: nothing of what follows runs. -/
theorem coreStep_traps {x : CoreAccess} {tr : Nat × Nat} (g : Op → State → State) (hrun : runningOp s c = some o) (hgo : (s.coreOf c).stalled = false)
    (htrap : accessTrap s c x = some tr) : Traps o c tr.1 s (coreStep c [x] g s) := by
  have htraps := endCore_traps hrun tr.1 tr.2 x.pc.toNat
  simp only [coreStep, coreWork_traps hrun hgo htrap, runningOp_idle htraps.state]
  exact htraps

theorem coreStep_mem (c : Nat) (wk : CoreWork) {g : Op → State → State} (hg : ∀ o u, (g o u).mem = u.mem) (s : State) :
    (coreStep c wk g s).mem = (coreWork c wk s).mem := by
  simp only [coreStep]
  split
  · rfl
  · split
    · rfl
    · exact hg _ _

/-- A store within the core's own memory, outside runtime and code, and outside an OPS_RO region, is allowed. -/
theorem accessTrap_store {off : Nat} {l : List Byte} (pc : BitVec 64) (hlow : 0x14000 ≤ off) (hhigh : off + l.length ≤ 0x40000)
    (hro : opsRo s (coreBase c + off) l.length = false) : accessTrap s c { pc := pc, off := off, len := l.length, store := some l } = none := by
  simp [accessTrap, Nat.not_lt.mpr hlow, Nat.not_lt.mpr hhigh, hro]

theorem coreAccess_store (he : s.errs = []) (o : Op) (c off len : Nat) (pc : BitVec 64) (l : List Byte) :
    ∃ q, (coreAccess o c { pc := pc, off := off, len := len, store := some l } s).mem = (putBytesAt { s with seq := q } (coreBase c + off) l).mem := by
  obtain ⟨q, hq⟩ := hide_frame o.stream (coreBase c + off) l.length s
  obtain ⟨p, hp⟩ := wrBytes_eq (s := { s with seq := q }) he (coreBase c + off) l (fun _ => (s.coreOf c).poisonNext && l.length == 8 && off % 8 == 0)
  refine ⟨q, ?_⟩
  simp only [coreAccess, hq, hp]
  split <;> rfl

/-! ### What a core can reach (R270, R290, R310) -/

section
variable (hnet : t.net = s.net) (htop : t.memTop = s.memTop)
include hnet

theorem reach_congr (ag : Agent) (wr : Bool) (l : Loc) : reach t ag wr l = reach s ag wr l := by
  have hfield : partOfField t = partOfField s := by
    funext f
    rw [partOfField, partOfField, hnet]
  have hpart : Loc.part t = Loc.part s := by
    funext l
    unfold Loc.part
    rw [hfield]
  unfold reach
  rw [hpart, hfield]

include htop

theorem regionEnd_congr (a : Nat) : regionEnd t a = regionEnd s a := by
  simp only [regionEnd, windowStacks, ddrBytes, locOf_congr hnet htop, hnet, htop]

theorem firstOutside_congr (ag : Agent) (wr : Bool) (n a e : Nat) : firstOutside t ag wr n a e = firstOutside s ag wr n a e := by
  induction n generalizing a with
  | zero => rfl
  | succ n ih => simp only [firstOutside, reach_congr hnet, regionEnd_congr hnet htop, locOf_congr hnet htop, ih]

theorem noRead_congr (p a n : Nat) : noRead t p a n = noRead s p a n := by
  simp only [noRead, reachRange, outsideReach, firstOutside_congr hnet htop]

theorem noWrite_congr (hregions : t.regions = s.regions) (p a n : Nat) : noWrite t p a n = noWrite s p a n := by
  simp only [noWrite, reachRange, outsideReach, opsRo, firstOutside_congr hnet htop, hregions]

end

/-! ### A core's DMA (R270, R271) -/

theorem modCoreOf_sameReads (s : State) (c : Nat) (g : Core → Core) : SameReads s (s.modCoreOf c g) := ⟨rfl, rfl, rfl, rfl, rfl, rfl, rfl⟩

theorem read_copyBytes (he : s.errs = []) {src dst n i : Nat} (hi : i < n) (hstore : noStore s (dst + i) = false) :
    Memory.read (copyBytes src dst n s).mem (dst + i) = rdByte s (src + i) := by
  simp only [copyBytes, touch_noErrs he]
  obtain ⟨p, hp⟩ := wrBytes_eq he dst (rdBytes s src n) _
  rw [hp, ← getD_rdBytes s src hi]
  exact read_putBytesAt_in s dst i _ ((length_rdBytes s src n).symm ▸ hi) hstore

/-- The descriptor of one row. -/
def oneRow (src dst len : Nat) : DmaDesc := { src := src, dst := dst, len := len, rows := 1, sstr := 0, dstr := 0 }

theorem oneRow_ranges (src dst len : Nat) : (oneRow src dst len).ranges = [(src, len), (dst, len)] := rfl

theorem dmaBlocked_oneRow (s : State) (c src dst len : Nat) :
    dmaBlocked s c (oneRow src dst len) = (noRead s (partOfField s (c / 64)) src len || noWrite s (partOfField s (c / 64)) dst len) := Bool.or_false _

/-- The core after channel `ch` has completed descriptor `d`, `bad` where it read poison. -/
def Core.copied (ch : Nat) (d : DmaDesc) (bad : Bool) (x : Core) : Core :=
  { x with poison := x.poison || (bad && decide (x.state = 1)), dma := tins ch (tget [] x.dma ch ++ [d]) (tdel x.dma ch) }

theorem dmaCopy_oneRow (he : s.errs = []) (x c ch src dst len : Nat) : ∃ bad, dmaCopy x c ch (oneRow src dst len) s =
    (copyBytes src dst len (hide x dst len s)).modCoreOf c (Core.copied ch (oneRow src dst len) bad) := by
  unfold dmaCopy
  dsimp only
  rw [touchAll_noErrs he]
  exact ⟨_, rfl⟩

/-- One row of a DMA descriptor, copied in a state without bit errors: its bytes arrive, no other byte changes, the core keeps its state and its channels. -/
theorem dmaCopy_copies (he : s.errs = []) (x c ch src dst len : Nat) :
    (∀ i, i < len → noStore s (dst + i) = false → Memory.read (dmaCopy x c ch (oneRow src dst len) s).mem (dst + i) = rdByte s (src + i)) ∧
    (∀ a, a < dst ∨ dst + len ≤ a → Memory.read (dmaCopy x c ch (oneRow src dst len) s).mem a = Memory.read s.mem a) ∧
    ((dmaCopy x c ch (oneRow src dst len) s).coreOf c).state = (s.coreOf c).state ∧
    ((dmaCopy x c ch (oneRow src dst len) s).coreOf c).dmaLeft = (s.coreOf c).dmaLeft ∧ (dmaCopy x c ch (oneRow src dst len) s).ops = s.ops := by
  obtain ⟨bad, hcopy⟩ := dmaCopy_oneRow he x c ch src dst len
  obtain ⟨q, hq⟩ := hide_frame x dst len s
  rw [hcopy, hq]
  have hbeside := copyBytes_storesBeside (s := { s with seq := q }) he src dst len
  have hcore : (copyBytes src dst len { s with seq := q }).coreOf c = s.coreOf c := by
    obtain ⟨q', m, p, hu, -⟩ := hbeside
    rw [hu]
    rfl
  refine ⟨fun i hi hstore => ?_, fun a ha => hbeside.read ha, ?_, ?_, hbeside.ops⟩
  · have hplace : noStore ({ s with seq := q } : State) (dst + i) = false := by
      rw [← hstore]
      apply noStore_congr <;> rfl
    exact (read_copyBytes (s := { s with seq := q }) he hi hplace).trans (rdByte_seq q s _)
  · rw [coreOf_modCoreOf, if_pos rfl, hcore]
    rfl
  · rw [coreOf_modCoreOf, if_pos rfl, hcore]
    rfl

/-! ### The rows -/

/-- The core once it has written `vbarrier` (R277). -/
def Core.atBarrier (x : Core) : Core := { x with barrier := x.barrier + 1, stalled := true }

/-- A core that writes `vbarrier` waits where another core of its launch has written it fewer times (R277). -/
theorem vbarrierWrite_counts (hrun : runningOp s c = some o) (huses : (s.coreOf c).usesBarrier = true) (hgo : (s.coreOf c).stalled = false) (hc : c ∈ o.cores) :
    Completes (.vbarrierWrite c []) s (fun t => (t.coreOf c).barrier = (s.coreOf c).barrier + 1 ∧
      (t.coreOf c).stalled = o.cores.any (fun d => d != c && decide ((s.coreOf d).barrier < (s.coreOf c).barrier + 1)) ∧ t = { s with cores := t.cores }) := by
  obtain ⟨-, -, hop⟩ := runningOp_eq_some.mp hrun
  have hexec : exec (.vbarrierWrite c []) s = .next (releaseBarrier o.key (s.modCoreOf c Core.atBarrier)) :=
    congrArg Host.Outcome.next ((coreStep_nil _ hrun hgo).trans (if_pos huses))
  have hcore : (releaseBarrier o.key (s.modCoreOf c Core.atBarrier)).coreOf c = (s.coreOf c).atBarrier.released o.cores (barriers (s.modCoreOf c Core.atBarrier)) := by
    rw [releaseBarrier_eq (s := s.modCoreOf c Core.atBarrier) hop, coreOf_foldl_releaseOne, if_pos hc, coreOf_modCoreOf, if_pos rfl]
  have hwaits (d : Nat) : decide (barriers (s.modCoreOf c Core.atBarrier) d < (s.coreOf c).barrier + 1) =
      (d != c && decide ((s.coreOf d).barrier < (s.coreOf c).barrier + 1)) := by
    by_cases hd : d = c
    · simp [barriers, Core.atBarrier, hd]
    · simp [barriers, hd]
  refine ⟨_, hexec, by rw [hcore]; rfl, ?_, releaseBarrier_frame _ _⟩
  rw [hcore]
  exact congrArg o.cores.any (funext hwaits)

theorem kernelReturn_ends (hrun : runningOp s c = some o) (hgo : (s.coreOf c).stalled = false) :
    exec (.kernelReturn c 0 []) s = .next (endCore o c s) :=
  congrArg Host.Outcome.next ((coreStep_nil _ hrun hgo).trans (if_pos rfl))

theorem kernelReturn_traps {a0 : BitVec 64} (hrun : runningOp s c = some o) (hgo : (s.coreOf c).stalled = false) (ha0 : a0 ≠ 0) :
    exec (.kernelReturn c a0 []) s = .next (endCore o c (trapCore o c 4 0 a0.toNat s)) :=
  congrArg Host.Outcome.next ((coreStep_nil _ hrun hgo).trans (if_neg ha0))

theorem kernelTrap_traps {cause : Nat} (mcause mepc : BitVec 64) (hrun : runningOp s c = some o) (hgo : (s.coreOf c).stalled = false)
    (hcause : cause = 1 ∨ cause = 2) : exec (.kernelTrap c cause mcause mepc []) s = .next (endCore o c (trapCore o c cause mcause.toNat mepc.toNat s)) :=
  congrArg Host.Outcome.next ((coreStep_nil _ hrun hgo).trans (if_pos hcause))

theorem kernelWatchdog_traps (mepc : BitVec 64) (hrun : runningOp s c = some o) (hlate : (s.coreOf c).started + 1000 * s.stw.watchdogMs ≤ s.tim.beat) :
    exec (.kernelWatchdog c mepc []) s = .next (endCore o c (trapCore o c 3 0 mepc.toNat s)) := by
  refine congrArg Host.Outcome.next ((if_pos hlate).trans ?_)
  simp only [coreWork, List.foldl_nil, hrun]

theorem kernelWatchdog_waits (mepc : BitVec 64) (wk : CoreWork) (hearly : s.tim.beat < (s.coreOf c).started + 1000 * s.stw.watchdogMs) :
    exec (.kernelWatchdog c mepc wk) s = .next s := congrArg Host.Outcome.next (if_neg (Nat.not_le.mpr hearly))

theorem endedOn_last (h : o.cores = [c]) (pois : Bool) : (o.endedOn c pois).stage = 3 := by
  rw [endedOn_stage, h]
  exact if_pos (by simp)

theorem endedOn_goesOn {d : Nat} (hd : d ∈ o.cores) (hdc : d ≠ c) (pois : Bool) : (o.endedOn c pois).stage = o.stage := by
  rw [endedOn_stage]
  exact if_neg (by simpa using ⟨d, hd, hdc⟩)

section
variable {ch src dst len : Nat} (hch : ch < 4) (hpos : 0 < len) (hlen : len ≤ 1048576) (hheld : heldAny s [(src, len), (dst, len)] = false)
include hch hpos hlen hheld

theorem oneRow_taken :
    ¬(4 ≤ ch ∨ len = 0 ∨ 1048576 < len ∨ 1 = 0 ∨ 65536 < 1 ∨ heldAny s (oneRow src dst len).ranges = true) := by
  simp only [oneRow_ranges, hheld, Bool.false_eq_true, or_false]
  omega

theorem coreDma_running (hrun : runningOp s c = some o) : exec (.coreDmaDescriptor c ch src dst len 1 0 0 []) s =
    .next (if dmaBlocked s c (oneRow src dst len) then endCore o c (trapCore o c 2 0 0 s) else dmaCopy o.stream c ch (oneRow src dst len) s) := by
  refine congrArg Host.Outcome.next ((if_neg (oneRow_taken hch hpos hlen hheld)).trans ((if_pos (by rw [hrun]; rfl)).trans ?_))
  simp only [coreWork, List.foldl_nil, hrun]
  rfl

/-- The channel's descriptor in progress is done. -/
def Core.dmaDone (ch : Nat) (x : Core) : Core := { x with dmaLeft := x.dmaLeft &&& ~~~(BitVec.twoPow 4 ch) }

/-- After the launch has ended, a channel completes the one descriptor that it had in progress (R276, R278). -/
theorem coreDma_left (hrun : runningOp s c = none) (hleft : (s.coreOf c).dmaLeft.getLsbD ch = true)
    (hread : noRead s (partOfField s (c / 64)) src len = false) (hwrite : noWrite s (partOfField s (c / 64)) dst len = false) :
    exec (.coreDmaDescriptor c ch src dst len 1 0 0 []) s =
      .next (dmaCopy ((s.modCoreOf c (Core.dmaDone ch)).coreOf c).stream c ch (oneRow src dst len) (s.modCoreOf c (Core.dmaDone ch))) := by
  have hreach : dmaBlocked (s.modCoreOf c (Core.dmaDone ch)) c (oneRow src dst len) = false := by
    have hreads := modCoreOf_sameReads s c (Core.dmaDone ch)
    rw [dmaBlocked_oneRow, noRead_congr hreads.net hreads.memTop, noWrite_congr hreads.net hreads.memTop (modCoreOf_regions s c _)]
    exact Bool.or_eq_false_iff.mpr ⟨hread, hwrite⟩
  refine congrArg Host.Outcome.next ((if_neg (oneRow_taken hch hpos hlen hheld)).trans ((if_neg (by rw [hrun]; decide)).trans ((if_pos hleft).trans ?_)))
  exact if_neg (ne_true_of_eq_false hreach)

end

theorem coreDma_waits (c ch : Nat) {src dst len : Nat} (hheld : heldAny s [(src, len), (dst, len)] = true) :
    exec (.coreDmaDescriptor c ch src dst len 1 0 0 []) s = .next s :=
  congrArg Host.Outcome.next (if_pos (.inr (.inr (.inr (.inr (.inr hheld))))))

theorem vpoisonWrite_marks (w : BitVec 64) (hrun : runningOp s c = some o) (hgo : (s.coreOf c).stalled = false) : Completes (.vpoisonWrite c w []) s (fun t =>
    t.coreOf c = { s.coreOf c with poisonNext := (s.coreOf c).poisonNext || w.getLsbD 1 } ∧ ∀ d, d ≠ c → t.coreOf d = s.coreOf d) := by
  refine ⟨_, congrArg Host.Outcome.next (coreStep_nil _ hrun hgo), ?_⟩
  dsimp only
  cases w.getLsbD 1 with
  | true => exact ⟨by rw [if_pos rfl, coreOf_modCoreOf, if_pos rfl, Bool.or_true], fun d hd => by rw [if_pos rfl, coreOf_modCoreOf, if_neg hd]⟩
  | false => exact ⟨by rw [if_neg Bool.false_ne_true, Bool.or_false], fun d _ => by rw [if_neg Bool.false_ne_true]⟩

theorem vpoisonWrite_stores {off i : Nat} {l : List Byte} (w pc : BitVec 64) (hrun : runningOp s c = some o) (hgo : (s.coreOf c).stalled = false) (he : s.errs = [])
    (hlow : 0x14000 ≤ off) (hhigh : off + l.length ≤ 0x40000) (hro : opsRo s (coreBase c + off) l.length = false)
    (hstore : ∀ j, j < l.length → noStore s (coreBase c + off + j) = false) (hi : i < l.length) :
    Completes (.vpoisonWrite c w [{ pc := pc, off := off, len := l.length, store := some l }]) s (fun t =>
      Memory.read t.mem (coreBase c + off + i) = l.getD i 0 ∧
      ∀ a, a < coreBase c + off ∨ coreBase c + off + l.length ≤ a → Memory.read t.mem a = Memory.read s.mem a) := by
  obtain ⟨q, hq⟩ := coreAccess_store he o c off l.length pc l
  have hmem {g : Op → State → State} (hg : ∀ o u, (g o u).mem = u.mem) := (coreStep_mem c _ hg s).trans
    ((congrArg State.mem (coreWork_accesses hrun hgo (accessTrap_store pc hlow hhigh hro))).trans hq)
  have hplace : noStore ({ s with seq := q } : State) (coreBase c + off + i) = false := by
    rw [← hstore i hi]
    apply noStore_congr <;> rfl
  refine ⟨_, rfl, ?_, fun a ha => ?_⟩
  · rw [hmem fun _ _ => by split <;> rfl]
    exact read_putBytesAt_in _ _ _ _ hi hplace
  · rw [hmem fun _ _ => by split <;> rfl]
    exact read_putBytesAt_out { s with seq := q } _ _ _ ha

end

/-- Settles O32: each row by the equation of its meaning, and then by what the release of a barrier, an end, a trap, a store and a copied row leave. -/
theorem kernelsWriteAndEnd : Obligations.KernelsWriteAndEnd := by
  refine ⟨?alone, ?waits, fun _ _ _ w hrun hgo => vpoisonWrite_marks w hrun hgo, ?store, ?dma, ?denied, ?left, fun _ c ch _ _ _ hheld => coreDma_waits c ch hheld,
    ?last, ?goesOn, ?trap, ?watchdog, fun _ _ _ mepc wk _ hearly => kernelWatchdog_waits mepc wk hearly, ?access⟩
  case alone =>
    intro s c o hrun huses hgo hcores
    obtain ⟨t, hexec, hcount, hstalled, hframe⟩ := vbarrierWrite_counts hrun huses hgo (by rw [hcores]; exact List.mem_singleton_self c)
    exact ⟨t, hexec, hcount, hstalled.trans (by simp [hcores]), hframe⟩
  case waits =>
    intro s c d o hrun huses hgo hc hd hfewer hdc
    obtain ⟨t, hexec, hcount, hstalled, -⟩ := vbarrierWrite_counts hrun huses hgo hc
    exact ⟨t, hexec, hcount, hstalled.trans (List.any_eq_true.mpr ⟨d, hd, by simp [hdc, Nat.lt_succ_of_le hfewer]⟩)⟩
  case store => exact fun _ _ _ _ _ w pc _ hrun hgo he hlow hhigh hro hstore hi => vpoisonWrite_stores w pc hrun hgo he hlow hhigh hro hstore hi
  case dma =>
    intro s c ch src dst len i o hrun hch hpos hlen hheld he hread hwrite hstore hi
    obtain ⟨hin, hout, hstate, -, -⟩ := dmaCopy_copies he o.stream c ch src dst len
    exact ⟨_, (coreDma_running hch hpos hlen hheld hrun).trans (congrArg Host.Outcome.next (if_neg (by simp [dmaBlocked_oneRow, hread, hwrite]))),
      hin i hi (hstore i hi), hout, hstate⟩
  case denied =>
    intro s c ch src dst len o hrun hch hpos hlen hheld hread
    have htraps := endCore_traps hrun 2 0 0
    exact ⟨_, (coreDma_running hch hpos hlen hheld hrun).trans (congrArg Host.Outcome.next (if_pos (by simp [dmaBlocked_oneRow, hread]))),
      htraps.trapped, htraps.cause⟩
  case left =>
    intro s c ch src dst len i hrun hleft hch hpos hlen hheld he hread hwrite hstore hi
    obtain ⟨hin, -, -, hdone, hops⟩ := dmaCopy_copies (s := s.modCoreOf c (Core.dmaDone ch)) he
      ((s.modCoreOf c (Core.dmaDone ch)).coreOf c).stream c ch src dst len
    have hreads := modCoreOf_sameReads s c (Core.dmaDone ch)
    have hplace := (noStore_congr hreads.net hreads.memTop hreads.units (dst + i)).trans (hstore i hi)
    refine ⟨_, coreDma_left hch hpos hlen hheld hrun hleft hread hwrite, (hin i hi hplace).trans (hreads.rdByte _), ?_, hops⟩
    rw [hdone, coreOf_modCoreOf, if_pos rfl]
    simp [Core.dmaDone, hch]
  case last =>
    intro s c o a0 hrun hgo hcores
    obtain ⟨hstate, -, hop⟩ := runningOp_eq_some.mp hrun
    by_cases ha0 : a0 = 0
    · subst ha0
      have hends := endCore_ends o (by rw [hstate]; decide : (s.coreOf c).state ≠ 3)
      exact ⟨_, kernelReturn_ends hrun hgo, hends.state, hends.launch, ⟨_, hends.op.trans (congrArg _ hop), endedOn_last hcores _⟩,
        fun _ => ⟨hends.trapped, hends.mem⟩, fun h => absurd rfl h⟩
    · have htraps := endCore_traps hrun 4 0 a0.toNat
      exact ⟨_, kernelReturn_traps hrun hgo ha0, htraps.state, htraps.launch, ⟨_, htraps.op, endedOn_last (o := o.flag fPoison) hcores _⟩,
        fun h => absurd h ha0, fun _ => ⟨htraps.trapped, htraps.cause, htraps.poisons⟩⟩
  case goesOn =>
    intro s c d o hrun hgo hstage hd hdc
    obtain ⟨hstate, -, hop⟩ := runningOp_eq_some.mp hrun
    have hends := endCore_ends o (by rw [hstate]; decide : (s.coreOf c).state ≠ 3)
    exact ⟨_, kernelReturn_ends hrun hgo, hends.state, ⟨_, hends.op.trans (congrArg _ hop), (endedOn_goesOn hd hdc _).trans hstage⟩, hends.others d hdc⟩
  case trap =>
    intro s c cause o mcause mepc hrun hgo hcause
    have htraps := endCore_traps hrun cause mcause.toNat mepc.toNat
    exact ⟨_, kernelTrap_traps mcause mepc hrun hgo hcause, htraps.state, htraps.trapped, htraps.cause, htraps.poisons, htraps.mem⟩
  case watchdog =>
    intro s c o mepc hrun hlate
    have htraps := endCore_traps hrun 3 0 mepc.toNat
    exact ⟨_, kernelWatchdog_traps mepc hrun hlate, htraps.state, htraps.trapped, htraps.cause, htraps.poisons⟩
  case access =>
    intro s c o a0 x tr hrun hgo htrap
    have htraps (g : Op → State → State) := coreStep_traps g hrun hgo htrap
    exact ⟨_, rfl, (htraps _).state, (htraps _).trapped, (htraps _).cause, (htraps _).poisons, (htraps _).mem⟩

end Sys2Proof.Machine
end

section
/-! SUPPORT. What no command undoes: the canonical form of memory, the device's identity and its counters, and a device error. One relation holds all of
it, and one lemma for each operation of the model says which part the operation keeps. -/

namespace Sys2Proof.Machine

open Sys2Proof State

/-- `b` has the identity of `a`, and its counters and revoked slots stand at least where those of `a` stand (R471, R472, R476, R483). -/
def SecKept (a b : Sec) : Prop :=
  b.serial = a.serial ∧ b.part = a.part ∧ b.stepping = a.stepping ∧ b.roots = a.roots ∧ b.factoryFlash = a.factoryFlash ∧ b.identity = a.identity ∧
    a.minSvn ≤ b.minSvn ∧ a.revoked &&& b.revoked = a.revoked ∧ a.leaf ≤ b.leaf

/-- A device error of `a` stands in `b`, with its cause (R468). -/
def FltKept (a b : Flt) : Prop := a.deviceError = true → b.deviceError = true ∧ b.deCause = a.deCause

/-- What an operation that leads from `s` to `t` keeps. With `rs` it may reset the device, which ends a device error. -/
def Safe (rs : Bool) (s t : State) : Prop :=
  (s.memWf = true → t.memWf = true) ∧ SecKept s.sec t.sec ∧ (rs = false → FltKept s.flt t.flt)

/-- `Safe` under a second name, which no rule below rewrites. -/
def SafeAs (rs : Bool) (s t : State) : Prop := Safe rs s t

/-- The step from `t` to `u` keeps what `Safe` says. The form is that of a rewriting rule: `simp` takes `u` back to `t`, and the second name on the right
keeps the rule an equivalence. -/
abbrev SafeStep (rs : Bool) (t u : State) : Prop := ∀ s, Safe rs s u ↔ (Safe rs s t ∨ SafeAs rs s u)

variable {rs : Bool} {s t u : State}

@[simp] theorem secKept_iff (a b : Sec) : SecKept a b ↔
    b.serial = a.serial ∧ b.part = a.part ∧ b.stepping = a.stepping ∧ b.roots = a.roots ∧ b.factoryFlash = a.factoryFlash ∧ b.identity = a.identity ∧
      a.minSvn ≤ b.minSvn ∧ a.revoked &&& b.revoked = a.revoked ∧ a.leaf ≤ b.leaf := Iff.rfl

@[simp] theorem fltKept_iff (a b : Flt) : FltKept a b ↔ (a.deviceError = true → b.deviceError = true ∧ b.deCause = a.deCause) := Iff.rfl

theorem SecKept.trans {a b c : Sec} (h : SecKept a b) (k : SecKept b c) : SecKept a c := by
  obtain ⟨h1, h2, h3, h4, h5, h6, h7, h8, h9⟩ := h
  obtain ⟨k1, k2, k3, k4, k5, k6, k7, k8, k9⟩ := k
  refine ⟨k1.trans h1, k2.trans h2, k3.trans h3, k4.trans h4, k5.trans h5, k6.trans h6, h7.trans k7, ?_, h9.trans k9⟩
  rw [← h8, BitVec.and_assoc, k8]

theorem FltKept.trans {a b c : Flt} (h : FltKept a b) (k : FltKept b c) : FltKept a c := fun ha =>
  ⟨(k (h ha).1).1, ((k (h ha).1).2).trans (h ha).2⟩

@[simp] theorem Safe.refl (rs : Bool) (s : State) : Safe rs s s :=
  ⟨id, by simp, fun _ => by simp⟩

theorem Safe.trans (h : Safe rs s t) (k : Safe rs t u) : Safe rs s u := by
  obtain ⟨h1, h2, h3⟩ := h
  obtain ⟨k1, k2, k3⟩ := k
  exact ⟨k1 ∘ h1, h2.trans k2, fun hr => (h3 hr).trans (k3 hr)⟩

theorem SafeStep.of (h : Safe rs t u) : SafeStep rs t u := fun _ =>
  ⟨Or.inr, fun hk => hk.elim (fun k => k.trans h) id⟩

theorem SafeStep.safe (h : SafeStep rs s t) : Safe rs s t := (h s).mpr (.inl (.refl rs s))

/-- Memory that is what it was, and the parts of the state that `Safe` speaks of. -/
theorem Safe.of_eq (hm : t.mem = s.mem) (hh : t.hostMem = s.hostMem) (hp : t.poison = s.poison) (he : t.errs = s.errs) (hs : SecKept s.sec t.sec)
    (hf : rs = false → FltKept s.flt t.flt) : Safe rs s t :=
  ⟨memWf_congr hm hh hp he, hs, hf⟩

/-- A store that keeps the canonical form. -/
theorem Safe.of_store (h : s.memWf = true → t.memWf = true) (hs : t.sec = s.sec) (hf : t.flt = s.flt) : Safe rs s t :=
  ⟨h, by simp [hs], fun _ => by simp [hf]⟩

/-- A record update that leaves the memories alone is a step when what it puts for the security block and the faults is kept. -/
@[simp] theorem safe_mk (tim pins fields adcs adcTel taints acc bands cal lcols lports relays light mons monLasts ring loops eng streams ops seq tokens
    rowMaps manifest cores units regions memTop dir ctxs swaps wts netLinks parts net netBufs ports link mbs cmds stw bu pwr sensors dies thm exts flt sec
    mg free pending) (t : State) (s : State) :
    Safe rs s ⟨tim, pins, fields, adcs, adcTel, taints, acc, bands, cal, lcols, lports, relays, light, mons, monLasts, ring, loops, eng, streams, ops, seq,
      tokens, rowMaps, manifest, cores, t.mem, t.poison, t.errs, units, regions, memTop, dir, ctxs, swaps, wts, netLinks, parts, net, netBufs, ports, link,
      mbs, cmds, stw, t.hostMem, bu, pwr, sensors, dies, thm, exts, flt, sec, mg, free, pending⟩ ↔
    (Safe rs s t ∧ SecKept t.sec sec ∧ (rs = false → FltKept t.flt flt)) ∨
      SafeAs rs s ⟨tim, pins, fields, adcs, adcTel, taints, acc, bands, cal, lcols, lports, relays, light, mons, monLasts, ring, loops, eng, streams, ops,
      seq, tokens, rowMaps, manifest, cores, t.mem, t.poison, t.errs, units, regions, memTop, dir, ctxs, swaps, wts, netLinks, parts, net, netBufs, ports,
      link, mbs, cmds, stw, t.hostMem, bu, pwr, sensors, dies, thm, exts, flt, sec, mg, free, pending⟩ :=
  ⟨Or.inr, fun h => h.elim (fun ⟨h1, h2, h3⟩ => h1.trans (.of_eq rfl rfl rfl rfl h2 h3)) id⟩

@[simp] theorem safe_ite (c : Prop) [Decidable c] (s a b : State) : Safe rs s (if c then a else b) ↔ if c then Safe rs s a else Safe rs s b := by
  split <;> rfl

@[simp] theorem safe_fst_ite {β : Type} (c : Prop) [Decidable c] (s : State) (a b : State × β) :
    Safe rs s (if c then a else b).1 ↔ if c then Safe rs s a.1 else Safe rs s b.1 := by
  split <;> rfl

@[simp] theorem foldl_safe {α : Type} (f : State → α → State) (l : List α) (t : State) (h : ∀ s a, Safe rs s (f s a)) : SafeStep rs t (l.foldl f t) :=
  .of (foldl_inv (Safe rs t) f (fun s a hs => hs.trans (h s a)) l t (.refl rs t))

/-- A command completes with what `Safe` says. -/
def SafeNext (rs : Bool) (s : State) (o : Host.Outcome State Fault Refusal) : Prop := ∃ t, o = .next t ∧ Safe rs s t

/-! ### Machine/Access -/

@[simp] theorem setField_safe (s : State) (k : Nat) (v : Field) : SafeStep rs s (s.setField k v) := .of (.of_eq rfl rfl rfl rfl (by simp) (by simp))
@[simp] theorem modField_safe (s : State) (k : Nat) (v : Field → Field) : SafeStep rs s (s.modField k v) := .of (.of_eq rfl rfl rfl rfl (by simp) (by simp))
@[simp] theorem setAdc_safe (s : State) (k : Nat) (v : Adc) : SafeStep rs s (s.setAdc k v) := .of (.of_eq rfl rfl rfl rfl (by simp) (by simp))
@[simp] theorem modAdc_safe (s : State) (k : Nat) (v : Adc → Adc) : SafeStep rs s (s.modAdc k v) := .of (.of_eq rfl rfl rfl rfl (by simp) (by simp))
@[simp] theorem setAdcOld_safe (s : State) (k : Nat) (v : Adc) : SafeStep rs s (s.setAdcOld k v) := .of (.of_eq rfl rfl rfl rfl (by simp) (by simp))
@[simp] theorem modAdcOld_safe (s : State) (k : Nat) (v : Adc → Adc) : SafeStep rs s (s.modAdcOld k v) := .of (.of_eq rfl rfl rfl rfl (by simp) (by simp))
@[simp] theorem setTaint_safe (s : State) (k : Nat) (v : Taint) : SafeStep rs s (s.setTaint k v) := .of (.of_eq rfl rfl rfl rfl (by simp) (by simp))
@[simp] theorem modTaint_safe (s : State) (k : Nat) (v : Taint → Taint) : SafeStep rs s (s.modTaint k v) := .of (.of_eq rfl rfl rfl rfl (by simp) (by simp))
@[simp] theorem setAccCell_safe (s : State) (k : Nat) (v : AccCell) : SafeStep rs s (s.setAccCell k v) := .of (.of_eq rfl rfl rfl rfl (by simp) (by simp))

@[simp] theorem modAccCell_safe (s : State) (k : Nat) (v : AccCell → AccCell) :
    SafeStep rs s (s.modAccCell k v) := .of (.of_eq rfl rfl rfl rfl (by simp) (by simp))

@[simp] theorem setBand_safe (s : State) (k : Nat) (v : Band) : SafeStep rs s (s.setBand k v) := .of (.of_eq rfl rfl rfl rfl (by simp) (by simp))
@[simp] theorem modBand_safe (s : State) (k : Nat) (v : Band → Band) : SafeStep rs s (s.modBand k v) := .of (.of_eq rfl rfl rfl rfl (by simp) (by simp))
@[simp] theorem setLcol_safe (s : State) (k : Nat) (v : LightCol) : SafeStep rs s (s.setLcol k v) := .of (.of_eq rfl rfl rfl rfl (by simp) (by simp))

@[simp] theorem modLcol_safe (s : State) (k : Nat) (v : LightCol → LightCol) :
    SafeStep rs s (s.modLcol k v) := .of (.of_eq rfl rfl rfl rfl (by simp) (by simp))

@[simp] theorem setLport_safe (s : State) (k : Nat) (v : LightPort) : SafeStep rs s (s.setLport k v) := .of (.of_eq rfl rfl rfl rfl (by simp) (by simp))

@[simp] theorem modLport_safe (s : State) (k : Nat) (v : LightPort → LightPort) :
    SafeStep rs s (s.modLport k v) := .of (.of_eq rfl rfl rfl rfl (by simp) (by simp))

@[simp] theorem setRelay_safe (s : State) (k : Nat) (v : Relay) : SafeStep rs s (s.setRelay k v) := .of (.of_eq rfl rfl rfl rfl (by simp) (by simp))
@[simp] theorem modRelay_safe (s : State) (k : Nat) (v : Relay → Relay) : SafeStep rs s (s.modRelay k v) := .of (.of_eq rfl rfl rfl rfl (by simp) (by simp))
@[simp] theorem setMon_safe (s : State) (k : Nat) (v : Mon) : SafeStep rs s (s.setMon k v) := .of (.of_eq rfl rfl rfl rfl (by simp) (by simp))
@[simp] theorem modMon_safe (s : State) (k : Nat) (v : Mon → Mon) : SafeStep rs s (s.modMon k v) := .of (.of_eq rfl rfl rfl rfl (by simp) (by simp))
@[simp] theorem setMonLast_safe (s : State) (k : Nat) (v : MonLast) : SafeStep rs s (s.setMonLast k v) := .of (.of_eq rfl rfl rfl rfl (by simp) (by simp))

@[simp] theorem modMonLast_safe (s : State) (k : Nat) (v : MonLast → MonLast) :
    SafeStep rs s (s.modMonLast k v) := .of (.of_eq rfl rfl rfl rfl (by simp) (by simp))

@[simp] theorem setLoop_safe (s : State) (k : Nat) (v : LoopSlot) : SafeStep rs s (s.setLoop k v) := .of (.of_eq rfl rfl rfl rfl (by simp) (by simp))

@[simp] theorem modLoop_safe (s : State) (k : Nat) (v : LoopSlot → LoopSlot) :
    SafeStep rs s (s.modLoop k v) := .of (.of_eq rfl rfl rfl rfl (by simp) (by simp))

@[simp] theorem setStream_safe (s : State) (k : Nat) (v : Stream) : SafeStep rs s (s.setStream k v) := .of (.of_eq rfl rfl rfl rfl (by simp) (by simp))

@[simp] theorem modStream_safe (s : State) (k : Nat) (v : Stream → Stream) :
    SafeStep rs s (s.modStream k v) := .of (.of_eq rfl rfl rfl rfl (by simp) (by simp))

@[simp] theorem setToken_safe (s : State) (k : Nat) (v : Token) : SafeStep rs s (s.setToken k v) := .of (.of_eq rfl rfl rfl rfl (by simp) (by simp))
@[simp] theorem modToken_safe (s : State) (k : Nat) (v : Token → Token) : SafeStep rs s (s.modToken k v) := .of (.of_eq rfl rfl rfl rfl (by simp) (by simp))
@[simp] theorem setEntry_safe (s : State) (k : Nat) (v : Manifest) : SafeStep rs s (s.setEntry k v) := .of (.of_eq rfl rfl rfl rfl (by simp) (by simp))

@[simp] theorem modEntry_safe (s : State) (k : Nat) (v : Manifest → Manifest) :
    SafeStep rs s (s.modEntry k v) := .of (.of_eq rfl rfl rfl rfl (by simp) (by simp))

@[simp] theorem setCoreOf_safe (s : State) (k : Nat) (v : Core) : SafeStep rs s (s.setCoreOf k v) := .of (.of_eq rfl rfl rfl rfl (by simp) (by simp))
@[simp] theorem modCoreOf_safe (s : State) (k : Nat) (v : Core → Core) : SafeStep rs s (s.modCoreOf k v) := .of (.of_eq rfl rfl rfl rfl (by simp) (by simp))
@[simp] theorem setPoisoned_safe (s : State) (k : Nat) (v : Bool) : SafeStep rs s (s.setPoisoned k v) := .of (.of_store (setPoisoned_memWf s k v) (by simp) (by simp))

@[simp] theorem modPoisoned_safe (s : State) (k : Nat) (v : Bool → Bool) : SafeStep rs s (s.modPoisoned k v) := setPoisoned_safe s k _

@[simp] theorem setErr_safe (s : State) (k : Nat) (v : BitVec 80) : SafeStep rs s (s.setErr k v) := .of (.of_store (setErr_memWf s k v) (by simp) (by simp))

@[simp] theorem modErr_safe (s : State) (k : Nat) (v : BitVec 80 → BitVec 80) : SafeStep rs s (s.modErr k v) := setErr_safe s k _

@[simp] theorem setUnit_safe (s : State) (k : Nat) (v : MemUnit) : SafeStep rs s (s.setUnit k v) := .of (.of_eq rfl rfl rfl rfl (by simp) (by simp))
@[simp] theorem modUnit_safe (s : State) (k : Nat) (v : MemUnit → MemUnit) : SafeStep rs s (s.modUnit k v) := .of (.of_eq rfl rfl rfl rfl (by simp) (by simp))
@[simp] theorem setRegion_safe (s : State) (k : Nat) (v : Region) : SafeStep rs s (s.setRegion k v) := .of (.of_eq rfl rfl rfl rfl (by simp) (by simp))

@[simp] theorem modRegion_safe (s : State) (k : Nat) (v : Region → Region) :
    SafeStep rs s (s.modRegion k v) := .of (.of_eq rfl rfl rfl rfl (by simp) (by simp))

@[simp] theorem setDirEntry_safe (s : State) (k : Nat) (v : Dir) : SafeStep rs s (s.setDirEntry k v) := .of (.of_eq rfl rfl rfl rfl (by simp) (by simp))
@[simp] theorem modDirEntry_safe (s : State) (k : Nat) (v : Dir → Dir) : SafeStep rs s (s.modDirEntry k v) := .of (.of_eq rfl rfl rfl rfl (by simp) (by simp))
@[simp] theorem setCtx_safe (s : State) (k : Nat) (v : LoadCtx) : SafeStep rs s (s.setCtx k v) := .of (.of_eq rfl rfl rfl rfl (by simp) (by simp))
@[simp] theorem modCtx_safe (s : State) (k : Nat) (v : LoadCtx → LoadCtx) : SafeStep rs s (s.modCtx k v) := .of (.of_eq rfl rfl rfl rfl (by simp) (by simp))
@[simp] theorem setSwapOf_safe (s : State) (k : Nat) (v : Swap) : SafeStep rs s (s.setSwapOf k v) := .of (.of_eq rfl rfl rfl rfl (by simp) (by simp))
@[simp] theorem modSwapOf_safe (s : State) (k : Nat) (v : Swap → Swap) : SafeStep rs s (s.modSwapOf k v) := .of (.of_eq rfl rfl rfl rfl (by simp) (by simp))
@[simp] theorem setNetLink_safe (s : State) (k : Nat) (v : NetLink) : SafeStep rs s (s.setNetLink k v) := .of (.of_eq rfl rfl rfl rfl (by simp) (by simp))

@[simp] theorem modNetLink_safe (s : State) (k : Nat) (v : NetLink → NetLink) :
    SafeStep rs s (s.modNetLink k v) := .of (.of_eq rfl rfl rfl rfl (by simp) (by simp))

@[simp] theorem setPartOf_safe (s : State) (k : Nat) (v : Part) : SafeStep rs s (s.setPartOf k v) := .of (.of_eq rfl rfl rfl rfl (by simp) (by simp))
@[simp] theorem modPartOf_safe (s : State) (k : Nat) (v : Part → Part) : SafeStep rs s (s.modPartOf k v) := .of (.of_eq rfl rfl rfl rfl (by simp) (by simp))
@[simp] theorem setNetBuf_safe (s : State) (k : Nat) (v : List NetPkt) : SafeStep rs s (s.setNetBuf k v) := .of (.of_eq rfl rfl rfl rfl (by simp) (by simp))

@[simp] theorem modNetBuf_safe (s : State) (k : Nat) (v : List NetPkt → List NetPkt) :
    SafeStep rs s (s.modNetBuf k v) := .of (.of_eq rfl rfl rfl rfl (by simp) (by simp))

@[simp] theorem setPort_safe (s : State) (k : Nat) (v : LinkPort) : SafeStep rs s (s.setPort k v) := .of (.of_eq rfl rfl rfl rfl (by simp) (by simp))

@[simp] theorem modPort_safe (s : State) (k : Nat) (v : LinkPort → LinkPort) :
    SafeStep rs s (s.modPort k v) := .of (.of_eq rfl rfl rfl rfl (by simp) (by simp))

@[simp] theorem setMb_safe (s : State) (k : Nat) (v : Mb) : SafeStep rs s (s.setMb k v) := .of (.of_eq rfl rfl rfl rfl (by simp) (by simp))
@[simp] theorem modMb_safe (s : State) (k : Nat) (v : Mb → Mb) : SafeStep rs s (s.modMb k v) := .of (.of_eq rfl rfl rfl rfl (by simp) (by simp))
@[simp] theorem setSensor_safe (s : State) (k : Nat) (v : Sensor) : SafeStep rs s (s.setSensor k v) := .of (.of_eq rfl rfl rfl rfl (by simp) (by simp))

@[simp] theorem modSensor_safe (s : State) (k : Nat) (v : Sensor → Sensor) :
    SafeStep rs s (s.modSensor k v) := .of (.of_eq rfl rfl rfl rfl (by simp) (by simp))

@[simp] theorem setDie_safe (s : State) (k : Nat) (v : Die) : SafeStep rs s (s.setDie k v) := .of (.of_eq rfl rfl rfl rfl (by simp) (by simp))
@[simp] theorem modDie_safe (s : State) (k : Nat) (v : Die → Die) : SafeStep rs s (s.modDie k v) := .of (.of_eq rfl rfl rfl rfl (by simp) (by simp))
@[simp] theorem setExtT_safe (s : State) (k : Nat) (v : ExtT) : SafeStep rs s (s.setExtT k v) := .of (.of_eq rfl rfl rfl rfl (by simp) (by simp))
@[simp] theorem modExtT_safe (s : State) (k : Nat) (v : ExtT → ExtT) : SafeStep rs s (s.modExtT k v) := .of (.of_eq rfl rfl rfl rfl (by simp) (by simp))
@[simp] theorem modMemTop_safe (s : State) (v : MemTop → MemTop) : SafeStep rs s (s.modMemTop v) := .of (.of_eq rfl rfl rfl rfl (by simp) (by simp))
@[simp] theorem modPins_safe (s : State) (v : Pins → Pins) : SafeStep rs s (s.modPins v) := .of (.of_eq rfl rfl rfl rfl (by simp) (by simp))
@[simp] theorem modDir_safe (s : State) (v : Tab Dir → Tab Dir) : SafeStep rs s (s.modDir v) := .of (.of_eq rfl rfl rfl rfl (by simp) (by simp))
/-! ### Machine/Events and Commands -/

@[simp] theorem hostWrite_safe (a : Nat) (l : List Byte) (s : State) : SafeStep rs s (hostWrite a l s) :=
  .of ⟨hostWrite_memWf a l s, by simp [hostWrite], fun _ => by simp [hostWrite]⟩

@[simp] theorem msix_safe (v : Nat) (s : State) : SafeStep rs s (msix v s) := .of (by simp [msix])
@[simp] theorem eventTo_safe (code : Nat) (items : List Byte) (s : State) (m : Nat) : SafeStep rs s (eventTo code items s m) := .of (by simp [eventTo])
@[simp] theorem post_safe (code : Nat) (items : List Byte) (s : State) : SafeStep rs s (post code items s) := .of (by simp [post])
@[simp] theorem postOne_safe (m code : Nat) (items : List Byte) (s : State) : SafeStep rs s (postOne m code items s) := .of (by simp [postOne])
@[simp] theorem raiseAlert_safe (i : Nat) (s : State) : SafeStep rs s (raiseAlert i s) := .of (by simp [raiseAlert])
@[simp] theorem buFault_safe (step code detail : Nat) (s : State) : SafeStep rs s (buFault step code detail s) := .of (by simp [buFault])
@[simp] theorem modCmd_safe (k : Nat) (g : Cmd → Cmd) (s : State) : SafeStep rs s (modCmd k g s) := .of (by simp [modCmd])
@[simp] theorem finishCmd_safe (k : Nat) (r : Reply) (s : State) : SafeStep rs s (finishCmd k r s) := .of (by simp [finishCmd])
@[simp] theorem modOp_safe (k : Nat) (g : Op → Op) (s : State) : SafeStep rs s (modOp k g s) := .of (by simp [modOp])
/-! ### Machine/Commands -/

@[simp] theorem startCmd_safe (k : Nat) (commit : Bool) (s : State) : SafeStep rs s (startCmd k commit s) := .of (by simp [startCmd])

@[simp] theorem runCmd_safe (k op : Nat) (body : Cmd → State → State × Reply) (s : State) (h : ∀ c, Safe rs s (body c s).1) :
    SafeStep rs s (runCmd k op body s) := .of (by
  unfold runCmd
  simp only
  (repeat' split) <;> simp_all)

@[simp] theorem extendMeas_safe (i : Nat) (d : List Byte) (s : State) : SafeStep rs s (extendMeas i d s) := .of (by simp [extendMeas])
@[simp] theorem extendConfig_safe (c : Cmd) (s : State) : SafeStep rs s (extendConfig c s) := .of (by simp [extendConfig])
@[simp] theorem checked_safe (l : List (Bool × Reply)) (act : State → State × Reply) (s : State) (h : Safe rs s (act s).1) :
    SafeStep rs s (checked l act s).1 := by
  refine .of ?_
  unfold checked
  cases orElse l
  · exact h
  · exact .refl _ s

/-- A mailbox command that checks first and then acts keeps what its act keeps. -/
@[simp] theorem runCmd_checked_safe (k op : Nat) (l : Cmd → State → List (Bool × Reply)) (act : Cmd → State → State → State × Reply) (s : State)
    (h : ∀ c, Safe rs s (act c s s).1) : SafeStep rs s (runCmd k op (fun c s => checked (l c s) (act c s) s) s) :=
  runCmd_safe _ _ _ _ fun c => by simp [h]

/-! ### Machine/Memory -/

@[simp] theorem putWord_safe (s : State) (w : Nat) (d : BitVec 64) : SafeStep rs s (putWord s w d) := .of (.of_store (putWord_memWf s w d) (by simp [putWord]) (by simp [putWord]))

@[simp] theorem countCe_safe (u : Nat) (s : State) : SafeStep rs s (countCe u s) := .of (by simp [countCe])
@[simp] theorem countUe_safe (u a : Nat) (s : State) : SafeStep rs s (countUe u a s) := .of (by simp [countUe])
@[simp] theorem touchAcc_safe (s : State) (w : Nat) (e : BitVec 80) : SafeStep rs s (touchAcc s w e) := .of (by simp [touchAcc])

@[simp] theorem touchPlain_safe (s : State) (w : Nat) (e : BitVec 80) : SafeStep rs s (touchPlain s w e) := .of (by
  simp only [touchPlain]
  (repeat' split) <;> simp)

@[simp] theorem touchWord_safe (s : State) (w : Nat) (e : BitVec 80) : SafeStep rs s (touchWord s w e) := .of (by
  simp only [touchWord]
  (repeat' split) <;> simp)

@[simp] theorem touchWhere_safe (q : Nat → Bool) (s : State) : SafeStep rs s (touchWhere q s) := .of (by simp [touchWhere])
@[simp] theorem touch_safe (a n : Nat) (s : State) : SafeStep rs s (touch a n s) := .of (by simp [touch])
@[simp] theorem touchRow_safe (f row : Nat) (s : State) : SafeStep rs s (touchRow f row s) := .of (by simp [touchRow])

@[simp] theorem upsetAt_safe (s : State) (a : Nat) (e : BitVec 80) : SafeStep rs s (upsetAt s a e) := .of (by
  simp only [upsetAt]
  (repeat' split) <;> simp)

@[simp] theorem upset_safe (flips : List (Nat × BitVec 80)) (s : State) : SafeStep rs s (upset flips s) := .of (by simp [upset])
@[simp] theorem putByte_safe (s : State) (a : Nat) (v : Byte) : SafeStep rs s (putByte s a v) :=
  .of (.of_store (putByte_memWf s a v) (by unfold putByte; split <;> rfl) (by unfold putByte; split <;> rfl))

@[simp] theorem putBytesAt_safe (l : List Byte) (s : State) (a : Nat) : SafeStep rs s (putBytesAt s a l) := by
  refine .of ?_
  induction l generalizing s a with
  | nil => exact .refl _ s
  | cons v l ih => exact (((putByte_safe s a v) s).mpr (.inl (.refl _ s))).trans (ih _ _)

@[simp] theorem putPoison_safe (s : State) (w : Nat) (full bad : Bool) : SafeStep rs s (putPoison s w full bad) := .of (by simp [putPoison])
@[simp] theorem wrBytes_safe (a : Nat) (l : List Byte) (bad : Nat → Bool) (s : State) : SafeStep rs s (wrBytes a l bad s) := .of (by simp [wrBytes])
@[simp] theorem wrClean_safe (a : Nat) (l : List Byte) (s : State) : SafeStep rs s (wrClean a l s) := .of (by simp [wrClean])
@[simp] theorem hide_safe (x a n : Nat) (s : State) : SafeStep rs s (hide x a n s) := .of (by simp [hide])
@[simp] theorem showNow_safe (a n : Nat) (s : State) : SafeStep rs s (showNow a n s) := .of (by simp [showNow])
@[simp] theorem wrShown_safe (a : Nat) (l : List Byte) (s : State) : SafeStep rs s (wrShown a l s) := .of (by simp [wrShown])
@[simp] theorem zeroRange_safe (a n : Nat) (s : State) : SafeStep rs s (zeroRange a n s) := .of (.of_store (zeroRange_memWf a n s) (by simp [zeroRange]) (by simp [zeroRange]))

/-! ### Machine/PackageNet -/

@[simp] theorem carry_safe (p : NetPkt) (l : List (Nat × Nat)) (s : State) : SafeStep rs s (carry p l s).1 := by
  refine .of ?_
  induction l with
  | nil => exact .refl _ s
  | cons h l ih => unfold carry; split <;> simp [ih]

@[simp] theorem hostAnswer_safe (p : NetPkt) (s : State) : SafeStep rs s (hostAnswer p s) := .of (by simp [hostAnswer])

@[simp] theorem respond_safe (d : Nat) (data : List Byte) (poison : List Bool) (s : State) :
    SafeStep rs s (respond d data poison s) := .of (by simp [respond])

@[simp] theorem cxlRespond_safe (a n : Nat) (s : State) : SafeStep rs s (cxlRespond a n s) := .of (by simp [cxlRespond])
/-! ### Machine/OpCore -/

@[simp] theorem dropMaps_safe (p r n : Nat) (s : State) : SafeStep rs s (dropMaps p r n s) := .of (by simp [dropMaps])
@[simp] theorem serveHeld_safe (u : Nat) (s : State) : SafeStep rs s (serveHeld u s) := .of (by simp [serveHeld])
@[simp] theorem fenceCore_safe (c : Nat) (s : State) : SafeStep rs s (fenceCore c s) := .of (by simp [fenceCore])

@[simp] theorem markFenced_safe (kind index sub : Nat) (s : State) : SafeStep rs s (markFenced kind index sub s) := .of (by
  simp only [markFenced]
  (repeat' split) <;> simp)

@[simp] theorem endDisable_safe (s : State) (d : Nat × Nat × Nat × Nat × Nat) : SafeStep rs s (endDisable s d) := .of (by simp [endDisable])
@[simp] theorem endDisables_safe (s : State) : SafeStep rs s (endDisables s) := .of (by simp [endDisables])
@[simp] theorem signalToken_safe (p t n : Nat) (ab : Bool) (s : State) : SafeStep rs s (signalToken p t n ab s) := .of (by simp [signalToken])
@[simp] theorem tokenBoundary_safe (p i : Nat) (s : State) : SafeStep rs s (tokenBoundary p i s) := .of (by simp [tokenBoundary])
@[simp] theorem releaseEntry_safe (madv : Bool) (i : Nat) (s : State) : SafeStep rs s (releaseEntry madv i s) := .of (by simp [releaseEntry])
@[simp] theorem releaseManifest_safe (o : Op) (aborted : Bool) (s : State) : SafeStep rs s (releaseManifest o aborted s) := .of (by simp [releaseManifest])
@[simp] theorem releaseHeld_safe (o : Op) (s : State) : SafeStep rs s (releaseHeld o s) := .of (by simp [releaseHeld])

@[simp] theorem releaseHandle_safe (o : Op) (s : State) : SafeStep rs s (releaseHandle o s) := .of (by
  simp only [releaseHandle]
  (repeat' split) <;> simp)

@[simp] theorem releaseFields_safe (o : Op) (s : State) : SafeStep rs s (releaseFields o s) := .of (by simp [releaseFields])
@[simp] theorem dropUnsent_safe (o : Op) (s : State) : SafeStep rs s (dropUnsent o s) := .of (by simp [dropUnsent])
@[simp] theorem countRetired_safe (o : Op) (s : State) : SafeStep rs s (countRetired o s) := .of (by simp [countRetired])

@[simp] theorem countAbort_safe (o : Op) (reason : Nat) (s : State) (k : Nat) : SafeStep rs s (countAbort o reason s k) := .of (by
  simp only [countAbort]
  (repeat' split) <;> simp)

@[simp] theorem releaseCores_safe (o : Op) (s : State) : SafeStep rs s (releaseCores o s) := .of (by simp [releaseCores])
@[simp] theorem showFence_safe (o : Op) (aborted : Bool) (s : State) : SafeStep rs s (showFence o aborted s) := .of (by simp [showFence])
@[simp] theorem sendWord_safe (a : Nat) (l : List Byte) (s : State) : SafeStep rs s (sendWord a l s) := .of (by simp [sendWord])
@[simp] theorem retire_safe (k : Nat) (aborted : Bool) (reason detail : Nat) (s : State) : SafeStep rs s (retire k aborted reason detail s) := .of (by
  simp only [retire]
  (repeat' split) <;> simp [↓safe_mk, ↓foldl_safe, ↓endDisables_safe])

@[simp] theorem retireAll_safe (ks : List Nat) (reason : Nat) (s : State) : SafeStep rs s (retireAll ks reason s) := .of (by simp [retireAll])
/-! ### Machine/CalKeys -/

@[simp] theorem calSet_safe (v : Nat × Int) (s : State) : SafeStep rs s (calSet v s) := .of (by simp [calSet])

@[simp] theorem loadValue_safe (s : State) (k : Nat) : SafeStep rs s (loadValue s k) := .of (by
  simp only [loadValue]
  (repeat' split) <;> simp)

@[simp] theorem calCmdEnd_safe (k : Nat) (s : State) : SafeStep rs s (calCmdEnd k s) := .of (by
  simp only [calCmdEnd]
  (repeat' split) <;> simp)

@[simp] theorem clearDrive_safe (i : Nat) (s : State) : SafeStep rs s (clearDrive i s) := .of (by simp [clearDrive])
@[simp] theorem restoreTrims_safe (keys : List Nat) (s : State) : SafeStep rs s (restoreTrims keys s) := .of (by simp [restoreTrims])

@[simp] theorem dropProc_safe (i : Nat) (s : State) : SafeStep rs s (dropProc i s) := .of (by
  simp only [dropProc]
  (repeat' split) <;> simp)

@[simp] theorem startProc_safe (f b proc : Nat) (rest : List Nat) (cmd : Option Nat) (s : State) :
    SafeStep rs s (startProc f b proc rest cmd s) := .of (by simp [startProc])

/-! ### Machine/Faults -/

@[simp] theorem stopUnit_safe (kind index sub : Nat) (s : State) : SafeStep rs s (stopUnit kind index sub s) := .of (by
  simp only [stopUnit]
  (repeat' split) <;> simp)

@[simp] theorem contain_safe (kind index sub : Nat) (s : State) : SafeStep rs s (contain kind index sub s) := .of (by simp [contain])

@[simp] theorem enterDeviceError_safe (cause : Nat) (s : State) : SafeStep rs s (enterDeviceError cause s) := .of (by
  unfold enterDeviceError
  simp only
  (repeat' split) <;> simp_all)

@[simp] theorem logFault_safe (e : FaultE) (outcome : Nat) (s : State) : SafeStep rs s (logFault e outcome s) := .of (by simp [logFault])
@[simp] theorem supersede_safe (f : Nat) (s : State) : SafeStep rs s (supersede f s) := .of (by simp [supersede])

@[simp] theorem fenceFor_safe (e : FaultE) (s : State) : SafeStep rs s (fenceFor e s) := .of (by
  simp only [fenceFor]
  (repeat' split) <;> simp)

@[simp] theorem closeFenced_safe (e : FaultE) (s : State) : SafeStep rs s (closeFenced e s) := .of (by simp [closeFenced])
@[simp] theorem answerEnable_safe (e : FaultE) (r : Reply) (s : State) : SafeStep rs s (answerEnable e r s) := .of (by simp [answerEnable])

@[simp] theorem disableNow_safe (d : Nat × Nat × Nat × Nat × Nat) (status : Nat) (s : State) :
    SafeStep rs s (disableNow d status s) := .of (by simp [disableNow])

@[simp] theorem enqueueFault_safe (e : FaultE) (s : State) : SafeStep rs s (enqueueFault e s) := .of (by simp [enqueueFault])

@[simp] theorem failActive_safe (s : State) : SafeStep rs s (failActive s) := .of (by
  simp only [failActive]
  (repeat' split) <;> simp)

@[simp] theorem noteColour_safe (code kind index detail : Nat) (s : State) : SafeStep rs s (noteColour code kind index detail s) := .of (by simp [noteColour])

@[simp] theorem raiseFault_safe (code kind index sub detail : Nat) (s : State) : SafeStep rs s (raiseFault code kind index sub detail s) := .of (by
  simp only [raiseFault]
  (repeat' split) <;> simp)

@[simp] theorem triggerRetrain_safe (u : Nat) (s : State) : SafeStep rs s (triggerRetrain u s) := .of (by simp [triggerRetrain])

@[simp] theorem startRecovery_safe (e : FaultE) (s : State) : SafeStep rs s (startRecovery e s) := .of (by
  simp only [startRecovery]
  (repeat' split) <;> simp)

@[simp] theorem zeroUnit_safe (u : Nat) (s : State) : SafeStep rs s (zeroUnit u s) := .of (.of_store (zeroUnit_memWf u s) (by simp [zeroUnit]) (by simp [zeroUnit]))

@[simp] theorem returnUnit_safe (e : FaultE) (s : State) : SafeStep rs s (returnUnit e s) := .of (by
  simp only [returnUnit]
  (repeat' split) <;> simp)

@[simp] theorem recalibrate_safe (s : State) (i : Nat) : SafeStep rs s (recalibrate s i) := .of (by simp [recalibrate])
@[simp] theorem lateColour_safe (e : FaultE) (s : State) : SafeStep rs s (lateColour e s) := .of (by simp [lateColour])
@[simp] theorem disableColour_safe (g : Nat) (s : State) : SafeStep rs s (disableColour g s) := .of (by simp [disableColour])

@[simp] theorem takeFault_safe (s : State) : SafeStep rs s (takeFault s) := .of (by
  simp only [takeFault]
  (repeat' split) <;> simp)

@[simp] theorem endRecovery_safe (pass : Bool) (s : State) : SafeStep rs s (endRecovery pass s) := .of (by
  simp only [endRecovery]
  (repeat' split) <;> simp)

@[simp] theorem execFaultDetect_safe (code kind index sub detail : Nat) (s : State) :
    SafeNext rs s (execFaultDetect code kind index sub detail s) := ⟨_, rfl, by simp⟩

@[simp] theorem execCoreHeartbeatMiss_safe (c : Nat) (s : State) : SafeNext rs s (execCoreHeartbeatMiss c s) := ⟨_, rfl, by simp⟩
@[simp] theorem execFaultQueueTake_safe (s : State) : SafeNext rs s (execFaultQueueTake s) := ⟨_, rfl, by simp⟩
@[simp] theorem execRecoveryEnd_safe (pass : Bool) (s : State) : SafeNext rs s (execRecoveryEnd pass s) := ⟨_, rfl, by simp⟩
@[simp] theorem execStewardWatchdogExpiry_safe (s : State) : SafeNext rs s (execStewardWatchdogExpiry s) := ⟨_, rfl, by simp⟩
@[simp] theorem execDeviceFault_safe (cause : Nat) (s : State) : SafeNext rs s (execDeviceFault cause s) := ⟨_, rfl, by simp⟩
@[simp] theorem execDomainPowerGoodLoss_safe (d : Nat) (s : State) : SafeNext rs s (execDomainPowerGoodLoss d s) := ⟨_, rfl, by simp⟩
@[simp] theorem cancelEntries_safe (kind index sub : Nat) (s : State) : SafeStep rs s (cancelEntries kind index sub s) := .of (by simp [cancelEntries])
@[simp] theorem execDevUnitDisable_safe (k : Nat) (s : State) : SafeNext rs s (execDevUnitDisable k s) := ⟨_, rfl, by simp⟩

@[simp] theorem execDisableGracefulTimeout_safe (k : Nat) (s : State) : SafeNext rs s (execDisableGracefulTimeout k s) := by
  refine ⟨_, rfl, ?_⟩
  (repeat' split) <;> simp

@[simp] theorem execDevUnitEnable_safe (k : Nat) (s : State) : SafeNext rs s (execDevUnitEnable k s) := ⟨_, rfl, by simp⟩
/-! ### Machine/Light -/

@[simp] theorem setTestV_safe (k : Nat) (v : Int) (s : State) : SafeStep rs s (setTestV k v s) := .of (by simp [setTestV])
@[simp] theorem trigger_safe (k t : Nat) (s : State) : SafeStep rs s (trigger k t s) := .of (by simp [trigger])

@[simp] theorem readTap_safe (b : Nat) (s : State) (i : Nat) : SafeStep rs s (readTap b s i) := .of (by
  simp only [readTap]
  (repeat' split) <;> simp)

@[simp] theorem setComp_safe (n g : Nat) (v : Int) (s : State) : SafeStep rs s (setComp n g v s) := .of (by simp [setComp])

@[simp] theorem lapseRelay_safe (x : Nat) (s : State) : SafeStep rs s (lapseRelay x s) := .of (by
  simp only [lapseRelay]
  (repeat' split) <;> simp)

@[simp] theorem assignRelay_safe (x n : Nat) (cmd : Option Nat) (s : State) : SafeStep rs s (assignRelay x n cmd s) := .of (by simp [assignRelay])
@[simp] theorem requestSwitch_safe (n dst : Nat) (cmd : Option Nat) (s : State) : SafeStep rs s (requestSwitch n dst cmd s) := .of (by simp [requestSwitch])

@[simp] theorem reachF1_safe (n : Nat) (s : State) : SafeStep rs s (reachF1 n s) := .of (by
  simp only [reachF1]
  (repeat' split) <;> simp)

@[simp] theorem settleF1_safe (s : State) : SafeStep rs s (settleF1 s) := .of (by simp [settleF1])
@[simp] theorem assignTarget_safe (t n : Nat) (s : State) : SafeStep rs s (assignTarget t n s) := .of (by simp [assignTarget])

@[simp] theorem reachF2_safe (n : Nat) (s : State) : SafeStep rs s (reachF2 n s) := .of (by
  simp only [reachF2]
  (repeat' split) <;> simp)

@[simp] theorem reachF3_safe (n : Nat) (s : State) : SafeStep rs s (reachF3 n s) := .of (by simp [reachF3])
@[simp] theorem levelRose_safe (n old : Nat) (s : State) : SafeStep rs s (levelRose n old s) := .of (by simp [levelRose])

@[simp] theorem flagOps_safe (flag : Nat) (b : Nat) (onField : Nat → Bool) (onColour : Nat → Bool) (s : State) :
    SafeStep rs s (flagOps flag b onField onColour s) := .of (by simp [flagOps])

@[simp] theorem flagLight_safe (n g b : Nat) (s : State) : SafeStep rs s (flagLight n g b s) := .of (by simp [flagLight])
@[simp] theorem evalFade_safe (n g : Nat) (d : Int) (s : State) : SafeStep rs s (evalFade n g d s) := .of (by simp [evalFade])
@[simp] theorem failQuantity_safe (i proc key : Nat) (s : State) : SafeStep rs s (failQuantity i proc key s) := .of (by simp [failQuantity])
@[simp] theorem floorCheck_safe (n g : Nat) (s : State) : SafeStep rs s (floorCheck n g s) := .of (by simp [floorCheck])

@[simp] theorem tapActs_safe (i : Nat) (out : Int) (s : State) : SafeStep rs s (tapActs i out s) := .of (by
  simp only [tapActs]
  (repeat' split) <;> simp)

@[simp] theorem prelockActs_safe (lane : Nat) (out : Int) (s : State) : SafeStep rs s (prelockActs lane out s) := .of (by
  simp only [prelockActs]
  (repeat' split) <;> simp)

@[simp] theorem relayCheck_safe (s : State) (x : Nat) : SafeStep rs s (relayCheck s x) := .of (by simp [relayCheck])

@[simp] theorem lapseNormal_safe (s : State) (n : Nat) : SafeStep rs s (lapseNormal s n) := .of (by
  simp only [lapseNormal]
  (repeat' split) <;> simp)

@[simp] theorem lightEdge_safe (s : State) : SafeStep rs s (lightEdge s) := .of (by simp [lightEdge])
@[simp] theorem execFadeLevelFall_safe (n g : Nat) (s : State) : SafeNext rs s (execFadeLevelFall n g s) := ⟨_, rfl, by simp⟩

@[simp] theorem execFadeComparatorTrip_safe (n g : Nat) (s : State) : SafeNext rs s (execFadeComparatorTrip n g s) := by
  refine ⟨_, rfl, ?_⟩
  simp only
  (repeat' split) <;> simp

@[simp] theorem execRelayRecovered_safe (x : Nat) (s : State) : SafeNext rs s (execRelayRecovered x s) := ⟨_, rfl, by simp⟩

@[simp] theorem finishAssign_safe (x : Nat) (s : State) : SafeStep rs s (finishAssign x s) := .of (by
  simp only [finishAssign]
  (repeat' split) <;> simp)

@[simp] theorem execRelayPrelockDone_safe (x : Nat) (s : State) : SafeNext rs s (execRelayPrelockDone x s) := ⟨_, rfl, by simp⟩
@[simp] theorem restartOn_safe (fs : List Nat) (s : State) : SafeStep rs s (restartOn fs s) := .of (by simp [restartOn])
@[simp] theorem execLightPauseStart_safe (s : State) : SafeNext rs s (execLightPauseStart s) := ⟨_, rfl, by simp⟩
@[simp] theorem reacquire_safe (fs : List Nat) (s : State) : SafeStep rs s (reacquire fs s) := .of (by simp [reacquire])
@[simp] theorem startQuick_safe (fs : List Nat) (s : State) : SafeStep rs s (startQuick fs s) := .of (by simp [startQuick])
@[simp] theorem dropSource_safe (src : Nat) (s : State) : SafeStep rs s (dropSource src s) := .of (by simp [dropSource])
@[simp] theorem settleOn_safe (n dst : Nat) (s : State) : SafeStep rs s (settleOn n dst s) := .of (by simp [settleOn])

@[simp] theorem execRelaySettled_safe (n : Nat) (s : State) : SafeNext rs s (execRelaySettled n s) := by
  refine ⟨_, rfl, ?_⟩
  simp only
  (repeat' split) <;> simp

@[simp] theorem endSwitch_safe (s : State) (n : Nat) : SafeStep rs s (endSwitch s n) := .of (by
  simp only [endSwitch]
  (repeat' split) <;> simp)

@[simp] theorem execLightPauseEnd_safe (s : State) : SafeNext rs s (execLightPauseEnd s) := ⟨_, rfl, by simp⟩
@[simp] theorem rescaleTaps_safe (delta : Int) (s : State) : SafeStep rs s (rescaleTaps delta s) := .of (by simp [rescaleTaps])

@[simp] theorem storeP0_safe (refl : Bool) (s : State) (n : Nat) : SafeStep rs s (storeP0 refl s n) := .of (by
  simp only [storeP0]
  simp [↓safe_mk, ↓foldl_safe])

@[simp] theorem execLightCommission_safe (k : Nat) (refl : Int) (s : State) : SafeNext rs s (execLightCommission k refl s) := ⟨_, rfl, by simp⟩
@[simp] theorem execLightRelayAssign_safe (k : Nat) (s : State) : SafeNext rs s (execLightRelayAssign k s) := ⟨_, rfl, by simp⟩
@[simp] theorem execLightRelaySwitch_safe (k : Nat) (s : State) : SafeNext rs s (execLightRelaySwitch k s) := ⟨_, rfl, by simp⟩
@[simp] theorem execLightRelayRelease_safe (k : Nat) (s : State) : SafeNext rs s (execLightRelayRelease k s) := ⟨_, rfl, by simp⟩
/-! ### Machine/Monitor -/

@[simp] theorem toRing_safe (bytes : List Byte) (s : State) : SafeStep rs s (toRing bytes s) := .of (by simp [toRing])
@[simp] theorem coolBad_safe (s : State) : SafeStep rs s (coolBad s) := .of (by simp [coolBad])
@[simp] theorem coolRef_safe (code : Int) (n : Nat) (s : State) : SafeStep rs s (coolRef code n s) := .of (by simp [coolRef])

@[simp] theorem coolRefEdge_safe (s : State) : SafeStep rs s (coolRefEdge s) := .of (by
  simp only [coolRefEdge]
  (repeat' split) <;> simp)

@[simp] theorem coolEdge_safe (s : State) : SafeStep rs s (coolEdge s) := .of (by simp [coolEdge])
@[simp] theorem execCoolpwmWindow_safe (high : Nat) (s : State) : SafeNext rs s (execCoolpwmWindow high s) := ⟨_, rfl, by simp⟩
@[simp] theorem execCoolantPwmLost_safe (s : State) : SafeNext rs s (execCoolantPwmLost s) := ⟨_, rfl, by simp⟩

@[simp] theorem deliver_safe (k i : Nat) (v : Int) (inj ihi : Bool) (first : Nat) (s : State) :
    SafeStep rs s (deliver k i v inj ihi first s) := .of (by simp [deliver])

@[simp] theorem monConsumers_safe (s : State) : SafeStep rs s (monConsumers s) := .of (by simp [monConsumers])

@[simp] theorem judgeSelfTest_safe (k : Nat) (s : State) : SafeStep rs s (judgeSelfTest k s) := .of (by
  simp only [judgeSelfTest]
  (repeat' split) <;> simp)

@[simp] theorem endInjSlot_safe (k : Nat) (v : Int) (s : State) : SafeStep rs s (endInjSlot k v s) := .of (by simp [endInjSlot])
@[simp] theorem endSlot_safe (k : Nat) (v : Int) (s : State) : SafeStep rs s (endSlot k v s) := .of (by simp [endSlot])
@[simp] theorem execMonitorSlotEnd_safe (k : Nat) (v : Int) (s : State) : SafeNext rs s (execMonitorSlotEnd k v s) := ⟨_, rfl, by simp⟩
@[simp] theorem execMonitorInjectTrigger_safe (k trig : Nat) (s : State) : SafeNext rs s (execMonitorInjectTrigger k trig s) := ⟨_, rfl, by simp⟩
@[simp] theorem startSelfTest_safe (k : Nat) (cmd : Option Nat) (s : State) : SafeStep rs s (startSelfTest k cmd s) := .of (by simp [startSelfTest])
@[simp] theorem execMonitorSelftestRun_safe (k : Nat) (s : State) : SafeNext rs s (execMonitorSelftestRun k s) := ⟨_, rfl, by simp⟩
@[simp] theorem monitorFrames_safe (s : State) : SafeStep rs s (monitorFrames s) := .of (by simp [monitorFrames])
@[simp] theorem writeMonCtrl_safe (k v msk : Nat) (s : State) : SafeStep rs s (writeMonCtrl k v msk s) := .of (by simp [writeMonCtrl])
@[simp] theorem writeMonInj_safe (k v msk : Nat) (s : State) : SafeStep rs s (writeMonInj k v msk s) := .of (by simp [writeMonInj])
@[simp] theorem writeMonSeq_safe (k w v msk : Nat) (s : State) : SafeStep rs s (writeMonSeq k w v msk s) := .of (by simp [writeMonSeq])
@[simp] theorem writeRingCtrl_safe (v msk : Nat) (s : State) : SafeStep rs s (writeRingCtrl v msk s) := .of (by simp [writeRingCtrl])
@[simp] theorem execMonCommitWrite_safe (k : Nat) (w : BitVec 32) (s : State) : SafeNext rs s (execMonCommitWrite k w s) := ⟨_, rfl, by simp⟩
@[simp] theorem execMonHostInjectWrite_safe (k : Nat) (w : BitVec 32) (s : State) : SafeNext rs s (execMonHostInjectWrite k w s) := ⟨_, rfl, by simp⟩
@[simp] theorem execMonRingOnWrite_safe (w : BitVec 32) (s : State) : SafeNext rs s (execMonRingOnWrite w s) := ⟨_, rfl, by simp⟩
/-! ### Machine/Loops -/

@[simp] theorem testTick_safe (n : Nat) (s : State) : SafeStep rs s (testTick n s) := .of (by simp [testTick])
@[simp] theorem capture_safe (n : Nat) (y r : Int) (missed : Bool) (s : State) : SafeStep rs s (capture n y r missed s) := .of (by simp [capture])
@[simp] theorem presetBand_safe (f b : Nat) (s : State) : SafeStep rs s (presetBand f b s) := .of (by simp [presetBand])
@[simp] theorem returnBand_safe (i : Nat) (s : State) : SafeStep rs s (returnBand i s) := .of (by simp [returnBand])
@[simp] theorem loseLock_safe (f b : Nat) (s : State) : SafeStep rs s (loseLock f b s) := .of (by simp [loseLock])
@[simp] theorem flagSlew_safe (b : Nat) (s : State) (f : Nat) : SafeStep rs s (flagSlew b s f) := .of (by simp [flagSlew])
@[simp] theorem noteTemp_safe (n : Nat) (y : Int) (s : State) : SafeStep rs s (noteTemp n y s) := .of (by simp [noteTemp])
@[simp] theorem headroom_safe (n : Nat) (s : State) : SafeStep rs s (headroom n s) := .of (by simp [headroom])
@[simp] theorem stuckCheck_safe (n : Nat) (s : State) : SafeStep rs s (stuckCheck n s) := .of (by simp [stuckCheck])

@[simp] theorem skipSlot_safe (n : Nat) (y : Int) (miss fail held : Bool) (s : State) : SafeStep rs s (skipSlot n y miss fail held s) := .of (by
  simp only [skipSlot]
  simp [↓capture_safe, ↓safe_ite, ↓stuckCheck_safe, ↓modLoop_safe])

@[simp] theorem lawSlot_safe (n : Nat) (y : Int) (s : State) : SafeStep rs s (lawSlot n y s) := .of (by simp [lawSlot])
@[simp] theorem driveSlot_safe (n : Nat) (y : Int) (s : State) : SafeStep rs s (driveSlot n y s) := .of (by simp [driveSlot])
@[simp] theorem execLoopSlotCompute_safe (slot : Nat) (y : Int) (inp : InputState) (s : State) : SafeNext rs s (execLoopSlotCompute slot y inp s) := by
  refine ⟨_, rfl, ?_⟩
  simp only
  (repeat' split) <;> simp

@[simp] theorem writeSlotWord0_safe (n : Nat) (w msk : BitVec 32) (s : State) : SafeStep rs s (writeSlotWord0 n w msk s) := .of (by simp [writeSlotWord0])
@[simp] theorem execLpFreezeWrite_safe (n : Nat) (w : BitVec 32) (s : State) : SafeNext rs s (execLpFreezeWrite n w s) := ⟨_, rfl, by simp⟩
@[simp] theorem execLoopFreezeTimeout_safe (n : Nat) (s : State) : SafeNext rs s (execLoopFreezeTimeout n s) := ⟨_, rfl, by simp⟩
@[simp] theorem freezeEdge_safe (n : Nat) (s : State) : SafeStep rs s (freezeEdge n s) := .of (by simp [freezeEdge])
@[simp] theorem writeTestCtrl_safe (v msk : Nat) (s : State) : SafeStep rs s (writeTestCtrl v msk s) := .of (by simp [writeTestCtrl])
@[simp] theorem execLpTestStart_safe (w : BitVec 32) (s : State) : SafeNext rs s (execLpTestStart w s) := ⟨_, rfl, by simp⟩
@[simp] theorem execLpTestStop_safe (w : BitVec 32) (s : State) : SafeNext rs s (execLpTestStop w s) := ⟨_, rfl, by simp⟩
@[simp] theorem execCaptureBufferFull_safe (s : State) : SafeNext rs s (execCaptureBufferFull s) := ⟨_, rfl, by simp⟩

@[simp] theorem testStartEdge_safe (s : State) : SafeStep rs s (testStartEdge s) := .of (by
  simp only [testStartEdge]
  (repeat' split) <;> simp)

@[simp] theorem testStopEdge_safe (s : State) : SafeStep rs s (testStopEdge s) := .of (by simp [testStopEdge])
@[simp] theorem latchOffsets_safe (s : State) : SafeStep rs s (latchOffsets s) := .of (by simp [latchOffsets])
@[simp] theorem loopEdge_safe (s : State) : SafeStep rs s (loopEdge s) := .of (by simp [loopEdge])
@[simp] theorem execThermalPauseStart_safe (f : Nat) (s : State) : SafeNext rs s (execThermalPauseStart f s) := ⟨_, rfl, by simp⟩
@[simp] theorem thermalEdge_safe (s : State) : SafeStep rs s (thermalEdge s) := .of (by simp [thermalEdge])
@[simp] theorem execThermalPauseEnd_safe (f : Nat) (s : State) : SafeNext rs s (execThermalPauseEnd f s) := ⟨_, rfl, by simp⟩
/-! ### Machine/Calib -/

@[simp] theorem abandonProc_safe (i : Nat) (s : State) : SafeStep rs s (abandonProc i s) := .of (by simp [abandonProc])
@[simp] theorem postAbandoned_safe (i proc : Nat) (s : State) : SafeStep rs s (postAbandoned i proc s) := .of (by simp [postAbandoned])
@[simp] theorem voidRun_safe (i start : Nat) (s : State) : SafeStep rs s (voidRun i start s) := .of (by simp [voidRun])
@[simp] theorem addSymbols_safe (k : Nat) (bad : Bool) (i : Nat) (s : State) : SafeStep rs s (addSymbols k bad i s) := .of (by simp [addSymbols])
@[simp] theorem dropQuick_safe (n : Nat) (s : State) : SafeStep rs s (dropQuick n s) := .of (by simp [dropQuick])
@[simp] theorem addQuick_safe (k : Nat) (bad : Bool) (i : Nat) (s : State) : SafeStep rs s (addQuick k bad i s) := .of (by simp [addQuick])
@[simp] theorem nextPoint_safe (i now : Nat) (vals : List (Nat × Int)) (s : State) : SafeStep rs s (nextPoint i now vals s) := .of (by simp [nextPoint])

@[simp] theorem finishProc_safe (i : Nat) (vals : List (Nat × Int)) (s : State) : SafeStep rs s (finishProc i vals s) := .of (by
  simp only [finishProc]
  (repeat' split) <;> simp)

@[simp] theorem takePoint_safe (i : Nat) (q : List PointEst) (s : State) : SafeStep rs s (takePoint i q s) := .of (by
  simp only [takePoint]
  (repeat' split) <;> simp)

@[simp] theorem failQuick_safe (i key : Nat) (s : State) : SafeStep rs s (failQuick i key s) := .of (by simp [failQuick])

@[simp] theorem takeQuick_safe (i : Nat) (q : List PointEst) (s : State) : SafeStep rs s (takeQuick i q s) := .of (by
  simp only [takeQuick]
  (repeat' split) <;> simp)

@[simp] theorem execCalRunComplete_safe (f b : Nat) (q : List PointEst) (s : State) : SafeNext rs s (execCalRunComplete f b q s) := by
  refine ⟨_, rfl, ?_⟩
  simp only
  (repeat' split) <;> simp

@[simp] theorem applyProc_safe (i : Nat) (s : State) : SafeStep rs s (applyProc i s) := .of (by
  simp only [applyProc]
  (repeat' split) <;> simp)

@[simp] theorem withhold_safe (i : Nat) (s : State) : SafeStep rs s (withhold i s) := .of (by simp [withhold])
@[simp] theorem calibrateField_safe (s : State) (f : Nat) : SafeStep rs s (calibrateField s f) := .of (by simp [calibrateField])

@[simp] theorem recoveryEdge_safe (s : State) : SafeStep rs s (recoveryEdge s) := .of (by
  simp only [recoveryEdge]
  (repeat' split) <;> simp)

@[simp] theorem beginProc_safe (i : Nat) (s : State) : SafeStep rs s (beginProc i s) := .of (by
  simp only [beginProc]
  (repeat' split) <;> simp)

@[simp] theorem fieldProc_safe (f : Nat) (s : State) : SafeStep rs s (fieldProc f s) := .of (by simp [fieldProc])
@[simp] theorem sliceTrim_safe (key : Nat) (off gain skew : Int) (s : State) : SafeStep rs s (sliceTrim key off gain skew s) := .of (by simp [sliceTrim])
@[simp] theorem channelTrim_safe (f ch : Nat) (x : Field) (s : State) (i : Nat) : SafeStep rs s (channelTrim f ch x s i) := .of (by simp [channelTrim])
@[simp] theorem slicesEdge_safe (f : Nat) (s : State) : SafeStep rs s (slicesEdge f s) := .of (by simp [slicesEdge])
@[simp] theorem kaEnd_safe (k : Nat) (s : State) : SafeStep rs s (kaEnd k s) := .of (by simp [kaEnd])
@[simp] theorem refvLost_safe (s : State) : SafeStep rs s (refvLost s) := .of (by simp [refvLost])
@[simp] theorem clearUser_safe (s : State) : SafeStep rs s (clearUser s) := .of (by simp [clearUser])
@[simp] theorem trimRoundEdge_safe (s : State) : SafeStep rs s (trimRoundEdge s) := .of (by simp [trimRoundEdge])
@[simp] theorem runsEdge_safe (i : Nat) (s : State) : SafeStep rs s (runsEdge i s) := .of (by simp [runsEdge])
@[simp] theorem execQuickGainDone_safe (n : Nat) (s : State) : SafeNext rs s (execQuickGainDone n s) := ⟨_, rfl, by simp⟩
@[simp] theorem quickEdge_safe (n : Nat) (s : State) : SafeStep rs s (quickEdge n s) := .of (by simp [quickEdge])

@[simp] theorem kaStart_safe (f : Nat) (s : State) : SafeStep rs s (kaStart f s) := .of (by
  simp only [kaStart]
  (repeat' split) <;> simp)

@[simp] theorem calEdge_safe (refvOk : Bool) (s : State) : SafeStep rs s (calEdge refvOk s) := .of (by simp [calEdge])
@[simp] theorem execCalCadenceTick_safe (p : Nat) (s : State) : SafeNext rs s (execCalCadenceTick p s) := by
  refine ⟨_, rfl, ?_⟩
  split
  · exact .refl _ s
  · simp only
    rw [safe_mk]
    refine .inl ⟨(foldl_safe _ _ _ fun s f => ?_).safe, by simp, by simp⟩
    split
    · simp
    · split <;> simp

@[simp] theorem execCalRun_safe (k : Nat) (s : State) : SafeNext rs s (execCalRun k s) := ⟨_, rfl, by simp⟩
@[simp] theorem undoCalRun_safe (k : Nat) (s : State) : SafeStep rs s (undoCalRun k s) := .of (by simp [undoCalRun])
@[simp] theorem execCalCadence_safe (k : Nat) (s : State) : SafeNext rs s (execCalCadence k s) := ⟨_, rfl, by simp⟩
@[simp] theorem execCalUserClear_safe (k : Nat) (s : State) : SafeNext rs s (execCalUserClear k s) := ⟨_, rfl, by simp⟩
@[simp] theorem execCalBandHold_safe (k : Nat) (s : State) : SafeNext rs s (execCalBandHold k s) := ⟨_, rfl, by simp⟩
@[simp] theorem execCalBandRelease_safe (k : Nat) (s : State) : SafeNext rs s (execCalBandRelease k s) := ⟨_, rfl, by simp⟩

@[simp] theorem execCalVerify_safe (k : Nat) (s : State) : SafeNext rs s (execCalVerify k s) := by
  refine ⟨_, rfl, ?_⟩
  (repeat' split) <;> simp

/-! ### Machine/Quant -/

@[simp] theorem touchAll_safe (l : List (Nat × Nat)) (s : State) : SafeStep rs s (touchAll l s) := .of (by simp [touchAll])
/-! ### Machine/Tiles -/

@[simp] theorem stageTile_safe (o : Op) (p : GPos) (f : Nat) (s : State) : SafeStep rs s (stageTile o p f s) := .of (by simp [stageTile])
@[simp] theorem advanceSlots_safe (t : Nat) (s : State) (f : Nat) : SafeStep rs s (advanceSlots t s f) := .of (by simp [advanceSlots])
@[simp] theorem bandsFilled_safe (f frm dst : Nat) (s : State) : SafeStep rs s (bandsFilled f frm dst s) := .of (by simp [bandsFilled])
@[simp] theorem startFill_safe (f t : Nat) (s : State) : SafeStep rs s (startFill f t s) := .of (by simp [startFill])

@[simp] theorem execLoaderBufferLoaded_safe (f t : Nat) (s : State) : SafeNext rs s (execLoaderBufferLoaded f t s) := by
  refine ⟨_, rfl, ?_⟩
  (repeat' split) <;> simp

@[simp] theorem fillShadow_safe (f : Nat) (s : State) : SafeStep rs s (fillShadow f s) := .of (by simp [fillShadow])
@[simp] theorem execFillComplete_safe (f t : Nat) (s : State) : SafeNext rs s (execFillComplete f t s) := ⟨_, rfl, by simp⟩
@[simp] theorem swapField_safe (f : Nat) (s : State) : SafeStep rs s (swapField f s) := .of (by simp [swapField])

@[simp] theorem execSwap_safe (f t : Nat) (s : State) : SafeNext rs s (execSwap f t s) := by
  refine ⟨_, rfl, ?_⟩
  (repeat' split) <;> simp

@[simp] theorem refreshEdge_safe (f : Nat) (s : State) : SafeStep rs s (refreshEdge f s) := .of (by simp [refreshEdge])
@[simp] theorem execPendingTileReload_safe (f : Nat) (s : State) : SafeNext rs s (execPendingTileReload f s) := ⟨_, rfl, by simp⟩
@[simp] theorem execPendingRewrite_safe (f t : Nat) (s : State) : SafeNext rs s (execPendingRewrite f t s) := ⟨_, rfl, by simp⟩
@[simp] theorem execTrimRoundStart_safe (s : State) : SafeNext rs s (execTrimRoundStart s) := ⟨_, rfl, by simp⟩
/-! ### Machine/Slots -/

@[simp] theorem setModes_safe (o : Op) (fs : List Nat) (root : Nat) (s : State) (f : Nat) : SafeStep rs s (setModes o fs root s f) := .of (by simp [setModes])
@[simp] theorem startSlice_safe (o : Op) (p : GPos) (t : Nat) (s : State) : SafeStep rs s (startSlice o p t s) := .of (by simp [startSlice])

@[simp] theorem claimGroup_safe (edge : Bool) (key root : Nat) (s : State) : SafeStep rs s (claimGroup edge key root s) := .of (by
  simp only [claimGroup]
  (repeat' split) <;> simp)

@[simp] theorem claimEdge_safe (s : State) : SafeStep rs s (claimEdge s) := .of (by simp [claimEdge])
@[simp] theorem openSlices_safe (t : Nat) (s : State) : SafeStep rs s (openSlices t s) := .of (by simp [openSlices])

@[simp] theorem tryStart_safe (key : Nat) (s : State) : SafeStep rs s (tryStart key s) := .of (by
  simp only [tryStart]
  (repeat' split) <;> simp)

@[simp] theorem execSliceWindowOpen_safe (s : State) : SafeNext rs s (execSliceWindowOpen s) := ⟨_, rfl, by simp⟩
@[simp] theorem endSlice_safe (o : Op) (p : GPos) (s : State) : SafeStep rs s (endSlice o p s) := .of (by simp [endSlice])
@[simp] theorem endSlices_safe (q : List Nat → Bool) (s : State) : SafeStep rs s (endSlices q s) := .of (by simp [endSlices])
@[simp] theorem execCalibrationWindowOpen_safe (s : State) : SafeNext rs s (execCalibrationWindowOpen s) := ⟨_, rfl, by simp⟩
@[simp] theorem execSliceWindowEnd_safe (s : State) : SafeNext rs s (execSliceWindowEnd s) := ⟨_, rfl, by simp⟩
@[simp] theorem execLiveRefresh_safe (f : Nat) (s : State) : SafeNext rs s (execLiveRefresh f s) := ⟨_, rfl, by simp⟩
@[simp] theorem openTaints_safe (l : List TreeIn) (s : State) : SafeStep rs s (openTaints l s) := .of (by simp [openTaints])
@[simp] theorem noteField_safe (s₀ : State) (l : List TreeIn) (s : State) (f : Nat) : SafeStep rs s (noteField s₀ l s f) := .of (by simp [noteField])
@[simp] theorem fieldSlotsEnd_safe (s : State) (f : Nat) : SafeStep rs s (fieldSlotsEnd s f) := .of (by simp [fieldSlotsEnd])
@[simp] theorem feedTouch_safe (o : Op) (p : GPos) (work : List Nat) (i : Nat) (s : State) : SafeStep rs s (feedTouch o p work i s) :=
  foldl_safe _ _ _ fun s _ => (foldl_safe _ _ _ fun _ _ => by split <;> simp).safe

@[simp] theorem modulate_safe (f : Nat) (l : Tab (BitVec 8)) (direct : Bool) (s : State) : SafeStep rs s (modulate f l direct s) := .of (by simp [modulate])
@[simp] theorem feedSlot_safe (o : Op) (p : GPos) (s : State) : SafeStep rs s (feedSlot o p s) := .of (by simp [feedSlot])
@[simp] theorem accWrite_safe (init : Bool) (key : Nat) (v : AccCell) (s : State) : SafeStep rs s (accWrite init key v s) := .of (by simp [accWrite])
@[simp] theorem countPass_safe (root row n : Nat) (init : Bool) (s : State) : SafeStep rs s (countPass root row n init s) := .of (by simp [countPass])
@[simp] theorem freeGroup_safe (o : Op) (s : State) : SafeStep rs s (freeGroup o s) := .of (by simp [freeGroup])

@[simp] theorem finishGroup_safe (o : Op) (root : Nat) (s : State) : SafeStep rs s (finishGroup o root s) := .of (by
  simp only [finishGroup]
  (repeat' split) <;> simp)

@[simp] theorem runSlot_safe (o : Op) (p : GPos) (l : List Sample) (s₀ s : State) : SafeStep rs s (runSlot o p l s₀ s) := .of (by
  simp only [runSlot]
  (repeat' split) <;> simp)

@[simp] theorem quietSlot_safe (t : Nat) (s : State) (f : Nat) : SafeStep rs s (quietSlot t s f) := .of (by simp [quietSlot])
@[simp] theorem kaToken_safe (s₀ : State) (l : List TreeIn) (f : Nat) (s : State) : SafeStep rs s (kaToken s₀ l f s) := .of (by simp [kaToken])

@[simp] theorem calCount_safe (s₀ : State) (l : List TreeIn) (t : Nat) (s : State) (f : Nat) : SafeStep rs s (calCount s₀ l t s f) := .of (by
  simp only [calCount]
  (repeat' split) <;> simp)

@[simp] theorem tickSlots_safe (fs : List Nat) (s : State) : SafeStep rs s (tickSlots fs s) := .of (by simp [tickSlots])

@[simp] theorem execSymbolSlot_safe (f : Nat) (starved : Bool) (samples : List Sample) (s : State) : SafeNext rs s (execSymbolSlot f starved samples s) := by
  refine ⟨_, rfl, ?_⟩
  simp only
  (repeat' split) <;> simp

/-! ### Machine/Issue -/

@[simp] theorem resolveHandle_safe (k : Nat) (s : State) : SafeStep rs s (resolveHandle k s) := .of (by
  simp only [resolveHandle]
  (repeat' split) <;> simp)

@[simp] theorem takeNext_safe (st : Nat) (u : Submission) (s : State) : SafeStep rs s (takeNext st u s) := .of (by simp [takeNext])

@[simp] theorem checkIssued_safe (k : Nat) (bad : Option Nat) (s : State) : SafeStep rs s (checkIssued k bad s) := .of (by
  simp only [checkIssued]
  (repeat' split) <;> simp)

@[simp] theorem execDescriptorIssue_safe (n : Nat) (s : State) : SafeNext rs s (execDescriptorIssue n s) := by
  refine ⟨_, rfl, ?_⟩
  simp only
  (repeat' split) <;> simp

@[simp] theorem copyBytes_safe (src dst n : Nat) (s : State) : SafeStep rs s (copyBytes src dst n s) := .of (by simp [copyBytes])
@[simp] theorem copyShown_safe (src dst n : Nat) (s : State) : SafeStep rs s (copyShown src dst n s) := .of (by simp [copyShown])
@[simp] theorem hotReady_safe (a h e : Nat) (s : State) : SafeStep rs s (hotReady a h e s) := .of (by simp [hotReady])

@[simp] theorem execSpillCopyDone_safe (a : Nat) (s : State) : SafeNext rs s (execSpillCopyDone a s) := by
  refine ⟨_, rfl, ?_⟩
  (repeat' split) <;> simp

/-! ### Machine/Admit -/

@[simp] theorem nameEntries_safe (k : Nat) (o : Op) (s : State) : SafeStep rs s (nameEntries k o s) := .of (by simp [nameEntries])

@[simp] theorem setAdmitted_safe (k : Nat) (s : State) : SafeStep rs s (setAdmitted k s) := .of (by
  simp only [setAdmitted]
  (repeat' split) <;> simp)

@[simp] theorem admitOp_safe (k code : Nat) (body : Op → State → State) (s : State) (h : ∀ o s, Safe rs s (body o s)) :
    SafeStep rs s (admitOp k code body s) := by
  refine .of ?_
  unfold admitOp
  cases opOf s k with
  | none => exact .refl _ s
  | some o =>
    have htouch (t : State) (a n : Nat) : Safe rs t (body o (touch a n t)) := .trans (by simp) (h o _)
    simp [h, htouch]

@[simp] theorem runtimeReach_safe (k : Nat) (l : List (Nat × Nat)) (s : State) : SafeStep rs s (runtimeReach k l s) := .of (by
  simp only [runtimeReach]
  (repeat' split) <;> simp)

@[simp] theorem zeroRequest_safe (o : Op) (m : RowMap) (roots : List Nat) (r : Nat) (s : State) : SafeStep rs s (zeroRequest o m roots r s) :=
  foldl_safe _ _ _ fun _ _ => (foldl_safe _ _ _ fun _ _ => by simp).safe

@[simp] theorem startGemm_safe (k : Nat) (m : RowMap) (roots : List Nat) (init : Bool) (s : State) : SafeStep rs s (startGemm k m roots init s) := .of (by
  simp only [startGemm]
  (repeat' split) <;> simp)

@[simp] theorem takeGemm_safe (k : Nat) (m : RowMap) (add : Bool) (o : Op) (s : State) : SafeStep rs s (takeGemm k m add o s) := .of (by
  simp only [takeGemm]
  (repeat' split) <;> simp)

@[simp] theorem admitInit_safe (k : Nat) (o : Op) (s : State) : SafeStep rs s (admitInit k o s) := .of (by
  simp only [admitInit]
  (repeat' split) <;> simp)

@[simp] theorem admitAdd_safe (k : Nat) (o : Op) (s : State) : SafeStep rs s (admitAdd k o s) := .of (by
  simp only [admitAdd]
  (repeat' split) <;> simp)

@[simp] theorem execFieldGemm_safe (k : Nat) (s : State) : SafeNext rs s (execFieldGemm k s) := ⟨_, rfl, by simp⟩

@[simp] theorem execOpHandover_safe (k f : Nat) (s : State) : SafeNext rs s (execOpHandover k f s) := by
  refine ⟨_, rfl, ?_⟩
  (repeat' split) <;> simp

@[simp] theorem execWait_safe (k : Nat) (s : State) : SafeNext rs s (execWait k s) := ⟨_, rfl, by simp⟩
@[simp] theorem execNop_safe (k : Nat) (s : State) : SafeNext rs s (execNop k s) := ⟨_, rfl, by simp⟩
@[simp] theorem execSignal_safe (k : Nat) (s : State) : SafeNext rs s (execSignal k s) := ⟨_, rfl, by simp⟩
@[simp] theorem execFence_safe (k : Nat) (s : State) : SafeNext rs s (execFence k s) := ⟨_, rfl, by simp⟩
/-! ### Machine/Drain -/

@[simp] theorem writeSeg_safe (k : Nat) (x : Seg) (s : State) : SafeStep rs s (writeSeg k x s) := .of (by
  simp only [writeSeg]
  (repeat' split) <;> simp)

@[simp] theorem raiseFence_safe (k : Nat) (s : State) : SafeStep rs s (raiseFence k s) := .of (by simp [raiseFence])
@[simp] theorem execAccDrain_safe (k : Nat) (s : State) : SafeNext rs s (execAccDrain k s) := by
  refine ⟨_, rfl, (admitOp_safe _ _ _ _ fun o s => ?_).safe⟩
  simp only
  (repeat' split) <;> simp

@[simp] theorem drainPass_safe (o : Op) (s : State) : SafeStep rs s (drainPass o s) := .of (by simp [drainPass])
@[simp] theorem touchBlocks_safe (n a : Nat) (s : State) : SafeStep rs s (touchBlocks n a s) := by
  refine .of ?_
  induction n generalizing a s with
  | zero => exact .refl _ s
  | succ n ih => exact .trans (by simp) (ih _ _)

@[simp] theorem execAccSave_safe (k : Nat) (s : State) : SafeNext rs s (execAccSave k s) := ⟨_, rfl, by simp⟩
@[simp] theorem savePass_safe (o : Op) (s : State) : SafeStep rs s (savePass o s) := .of (by simp [savePass])

@[simp] theorem execTreeFencePass_safe (k : Nat) (s : State) : SafeNext rs s (execTreeFencePass k s) := by
  refine ⟨_, rfl, ?_⟩
  (repeat' split) <;> simp

@[simp] theorem restoreRow_safe (o : Op) (n k f i : Nat) (s : State) : SafeStep rs s (restoreRow o n k f i s) := .of (by simp [restoreRow])
@[simp] theorem execAccRestore_safe (k : Nat) (s : State) : SafeNext rs s (execAccRestore k s) := by
  refine ⟨_, rfl, (admitOp_safe _ _ _ _ fun o s => ?_).safe⟩
  simp only
  (repeat' split) <;> simp

/-! ### Machine/Kernels -/

@[simp] theorem postTrap_safe (o : Op) (c cause mcause mepc : Nat) (s : State) : SafeStep rs s (postTrap o c cause mcause mepc s) := .of (by simp [postTrap])
@[simp] theorem trapCore_safe (o : Op) (c cause mcause mepc : Nat) (s : State) : SafeStep rs s (trapCore o c cause mcause mepc s) := .of (by simp [trapCore])

@[simp] theorem releaseBarrier_safe (k : Nat) (s : State) : SafeStep rs s (releaseBarrier k s) := .of (by
  simp only [releaseBarrier]
  (repeat' split) <;> simp)

@[simp] theorem endCore_safe (o : Op) (c : Nat) (s : State) : SafeStep rs s (endCore o c s) := .of (by simp [endCore])

@[simp] theorem startCore_safe (o : Op) (n c : Nat) (rank : Nat) (barrier : Bool) (s : State) :
    SafeStep rs s (startCore o n c rank barrier s) := .of (by simp [startCore])

@[simp] theorem refRank_safe (o : Op) (a : RefArgs) (n : Nat) (s : State) (rc : Nat × Nat) : SafeStep rs s (refRank o a n s rc) := .of (by simp [refRank])
@[simp] theorem execVecKernel_safe (k : Nat) (s : State) : SafeNext rs s (execVecKernel k s) := ⟨_, rfl, by simp⟩

@[simp] theorem coreAccess_safe (o : Op) (c : Nat) (x : CoreAccess) (s : State) : SafeStep rs s (coreAccess o c x s) := .of (by
  simp only [coreAccess]
  (repeat' split) <;> simp)

@[simp] theorem coreWork_safe (c : Nat) (wk : CoreWork) (s : State) : SafeStep rs s (coreWork c wk s) :=
  foldl_safe _ _ _ fun s x => by (repeat' split) <;> simp

@[simp] theorem coreStep_safe (c : Nat) (wk : CoreWork) (g : Op → State → State) (s : State) (h : ∀ o s, Safe rs s (g o s)) :
    SafeStep rs s (coreStep c wk g s) := by
  refine .of ?_
  simp only [coreStep]
  split
  · simp
  · next o _ =>
    have hwork : Safe rs s (g o (coreWork c wk s)) := .trans (by simp) (h o _)
    split <;> simp [hwork]

@[simp] theorem execKernelReturn_safe (c : Nat) (a0 : BitVec 64) (wk : CoreWork) (s : State) : SafeNext rs s (execKernelReturn c a0 wk s) := ⟨_, rfl, by simp⟩

@[simp] theorem execKernelTrap_safe (c cause : Nat) (mcause mepc : BitVec 64) (wk : CoreWork) (s : State) :
    SafeNext rs s (execKernelTrap c cause mcause mepc wk s) := ⟨_, rfl, by simp⟩

@[simp] theorem execKernelWatchdog_safe (c : Nat) (mepc : BitVec 64) (wk : CoreWork) (s : State) : SafeNext rs s (execKernelWatchdog c mepc wk s) := by
  refine ⟨_, rfl, ?_⟩
  simp only
  (repeat' split) <;> simp

@[simp] theorem execVbarrierWrite_safe (c : Nat) (wk : CoreWork) (s : State) : SafeNext rs s (execVbarrierWrite c wk s) := ⟨_, rfl, by simp⟩
@[simp] theorem execVpoisonWrite_safe (c : Nat) (w : BitVec 64) (wk : CoreWork) (s : State) : SafeNext rs s (execVpoisonWrite c w wk s) := ⟨_, rfl, by simp⟩
@[simp] theorem dmaCopy_safe (x c ch : Nat) (d : DmaDesc) (s : State) : SafeStep rs s (dmaCopy x c ch d s) := .of (by simp [dmaCopy])

@[simp] theorem execCoreDmaDescriptor_safe (c ch src dst len rows sstr dstr : Nat) (wk : CoreWork) (s : State) :
    SafeNext rs s (execCoreDmaDescriptor c ch src dst len rows sstr dstr wk s) := by
  refine ⟨_, rfl, ?_⟩
  simp only
  (repeat' split) <;> simp

@[simp] theorem execQuantScale_safe (k : Nat) (s : State) : SafeNext rs s (execQuantScale k s) := ⟨_, rfl, by simp⟩

@[simp] theorem trackerPush_safe (o : Op) (s : State) : SafeStep rs s (trackerPush o s) := .of (by
  simp only [trackerPush]
  (repeat' split) <;> simp)

/-! ### Machine/Swap -/

@[simp] theorem armSwap_safe (p policy timeout : Nat) (s : State) : SafeStep rs s (armSwap p policy timeout s) := .of (by simp [armSwap])
@[simp] theorem passGate_safe (l : List Nat) (ord : Nat) (s : State) : SafeStep rs s (passGate l ord s) := .of (by simp [passGate])
@[simp] theorem holdEntries_safe (k : Nat) (l : List Nat) (s : State) : SafeStep rs s (holdEntries k l s) := .of (by simp [holdEntries])

@[simp] theorem gateActs_safe (k e i : Nat) (l : List Nat) (s : State) : SafeStep rs s (gateActs k e i l s) := .of (by
  simp only [gateActs]
  (repeat' split) <;> simp)

@[simp] theorem execTollgate_safe (k : Nat) (s : State) : SafeNext rs s (execTollgate k s) := ⟨_, rfl, by simp⟩
@[simp] theorem openGates_safe (i : Nat) (s : State) : SafeStep rs s (openGates i s) := .of (by simp [openGates])

@[simp] theorem execLayerRewriteStart_safe (p : Nat) (s : State) : SafeNext rs s (execLayerRewriteStart p s) := by
  refine ⟨_, rfl, ?_⟩
  (repeat' split) <;> simp

@[simp] theorem swapDone_safe (p e : Nat) (s : State) : SafeStep rs s (swapDone p e s) := .of (by simp [swapDone])

@[simp] theorem execLayerRewriteDone_safe (p : Nat) (s : State) : SafeNext rs s (execLayerRewriteDone p s) := by
  refine ⟨_, rfl, ?_⟩
  simp only
  (repeat' split) <;> simp

@[simp] theorem execSwapDrainTimeout_safe (p : Nat) (s : State) : SafeNext rs s (execSwapDrainTimeout p s) := ⟨_, rfl, by simp⟩

@[simp] theorem execOpRetire_safe (k : Nat) (s : State) : SafeNext rs s (execOpRetire k s) := by
  refine ⟨_, rfl, ?_⟩
  (repeat' split) <;> simp

/-! ### Machine/Weights -/

@[simp] theorem switchPointer_safe (i : Nat) (d : Dir) (s : State) : SafeStep rs s (switchPointer i d s) := .of (by simp [switchPointer])

@[simp] theorem stageVersion_safe (i e ptr scale order : Nat) (zero : Bool) (s : State) :
    SafeStep rs s (stageVersion i e ptr scale order zero s) := .of (by simp [stageVersion])

@[simp] theorem stageScratch_safe (x : LoadCtx) (s : State) : SafeStep rs s (stageScratch x s) := .of (by simp [stageScratch])

@[simp] theorem writeWide_safe (x : LoadCtx) (src : List Byte × (Nat → Bool)) (n0 cn : Nat) (s : State) :
    SafeStep rs s (writeWide x src n0 cn s) := .of (by simp [writeWide])

@[simp] theorem failCtx_safe (i : Nat) (s : State) : SafeStep rs s (failCtx i s) := .of (by simp [failCtx])

@[simp] theorem endWide_safe (i : Nat) (c : Cmd) (data : List Byte) (bad : List Nat) (s : State) : SafeStep rs s (endWide i c data bad s).1 := .of (by
  simp only [endWide]
  (repeat' split) <;> simp)

@[simp] theorem endPacked_safe (i : Nat) (c : Cmd) (data : List Byte) (bad : List Nat) (s : State) :
    SafeStep rs s (endPacked i c data bad s).1 := .of (by simp [endPacked])

@[simp] theorem execModelLoadBegin_safe (k : Nat) (s : State) : SafeNext rs s (execModelLoadBegin k s) := ⟨_, rfl, by simp⟩

@[simp] theorem execModelLoadChunk_safe (k : Nat) (data : List Byte) (bad : List Nat) (s : State) : SafeNext rs s (execModelLoadChunk k data bad s) := by
  refine ⟨_, rfl, ?_⟩
  (repeat' split) <;> simp

@[simp] theorem execModelLoadEnd_safe (k : Nat) (s : State) : SafeNext rs s (execModelLoadEnd k s) := by
  refine ⟨_, rfl, (runCmd_safe _ _ _ _ fun c => ?_).safe⟩
  simp only
  (repeat' split) <;> simp

@[simp] theorem execModelDirSet_safe (k : Nat) (s : State) : SafeNext rs s (execModelDirSet k s) := ⟨_, rfl, by simp⟩
@[simp] theorem execModelDirRead_safe (k : Nat) (s : State) : SafeNext rs s (execModelDirRead k s) := ⟨_, rfl, by simp⟩
@[simp] theorem execModelDirFree_safe (k : Nat) (s : State) : SafeNext rs s (execModelDirFree k s) := ⟨_, rfl, by simp⟩
@[simp] theorem execModelSwapStage_safe (k : Nat) (s : State) : SafeNext rs s (execModelSwapStage k s) := ⟨_, rfl, by simp⟩
@[simp] theorem execModelSwapStatus_safe (k : Nat) (s : State) : SafeNext rs s (execModelSwapStatus k s) := ⟨_, rfl, by simp⟩
@[simp] theorem cancelSwap_safe (p : Nat) (s : State) : SafeStep rs s (cancelSwap p s) := .of (by simp [cancelSwap])
@[simp] theorem execModelSwapCancel_safe (k : Nat) (s : State) : SafeNext rs s (execModelSwapCancel k s) := ⟨_, rfl, by simp⟩
@[simp] theorem execModelPrefetch_safe (k : Nat) (s : State) : SafeNext rs s (execModelPrefetch k s) := ⟨_, rfl, by simp⟩
/-! ### Machine/Exec -/

@[simp] theorem execExecSubmit_safe (k : Nat) (s : State) : SafeNext rs s (execExecSubmit k s) := ⟨_, rfl, by simp⟩

@[simp] theorem abortQueued_safe (st reason : Nat) (s : State) (q : Nat × Nat) : SafeStep rs s (abortQueued st reason s q) := .of (by
  simp only [abortQueued]
  (repeat' split) <;> simp)

@[simp] theorem execExecAbort_safe (k : Nat) (s : State) : SafeNext rs s (execExecAbort k s) := ⟨_, rfl, by simp⟩
@[simp] theorem execExecToken_safe (k : Nat) (s : State) : SafeNext rs s (execExecToken k s) := ⟨_, rfl, by simp⟩
@[simp] theorem execExecStream_safe (k : Nat) (s : State) : SafeNext rs s (execExecStream k s) := ⟨_, rfl, by simp⟩
@[simp] theorem endTracking_safe (p : Nat) (s : State) : SafeStep rs s (endTracking p s) := .of (by simp [endTracking])
@[simp] theorem execManifestOpen_safe (k : Nat) (s : State) : SafeNext rs s (execManifestOpen k s) := ⟨_, rfl, by simp⟩
@[simp] theorem execManifestClose_safe (k : Nat) (s : State) : SafeNext rs s (execManifestClose k s) := ⟨_, rfl, by simp⟩
@[simp] theorem execManifestFree_safe (k : Nat) (s : State) : SafeNext rs s (execManifestFree k s) := ⟨_, rfl, by simp⟩
@[simp] theorem execManifestRead_safe (k : Nat) (s : State) : SafeNext rs s (execManifestRead k s) := ⟨_, rfl, by simp⟩
/-! ### Machine/MemEvents -/

@[simp] theorem cxlRefused_safe (d n : Nat) (s : State) : SafeStep rs s (cxlRefused d n s) := .of (by simp [cxlRefused])

@[simp] theorem hostArrive_safe (p : NetPkt) (s : State) : SafeStep rs s (hostArrive p s) := .of (by
  simp only [hostArrive]
  (repeat' split) <;> simp)

@[simp] theorem hostSend_safe (wr : Bool) (a n : Nat) (data : List Byte) (s : State) : SafeStep rs s (hostSend wr a n data s) := .of (by simp [hostSend])
@[simp] theorem goOn_safe (n d : Nat) (s : State) (p : NetPkt) : SafeStep rs s (goOn n d s p) := .of (by simp [goOn])
@[simp] theorem netRelease_safe (n : Nat) (s : State) : SafeStep rs s (netRelease n s) := .of (by simp [netRelease])

@[simp] theorem execHostCxlRead_safe (addr n : Nat) (flips : List (Nat × BitVec 80)) (s : State) : SafeNext rs s (execHostCxlRead addr n flips s) := by
  refine ⟨_, rfl, ?_⟩
  simp only
  (repeat' split) <;> simp

@[simp] theorem execHostCxlWrite_safe (addr : Nat) (bytes : List (BitVec 8)) (s : State) : SafeNext rs s (execHostCxlWrite addr bytes s) := by
  refine ⟨_, rfl, ?_⟩
  (repeat' split) <;> simp

@[simp] theorem execPatrolScrubRead_safe (u : Nat) (flips : List (Nat × BitVec 80)) (s : State) : SafeNext rs s (execPatrolScrubRead u flips s) := by
  refine ⟨_, rfl, ?_⟩
  simp only
  (repeat' split) <;> simp

@[simp] theorem execCeRateTrip_safe (u : Nat) (s : State) : SafeNext rs s (execCeRateTrip u s) := ⟨_, rfl, by simp⟩

@[simp] theorem execRetrainStart_safe (s : State) : SafeNext rs s (execRetrainStart s) := by
  refine ⟨_, rfl, ?_⟩
  (repeat' split) <;> simp

@[simp] theorem execRetrainDone_safe (pass : Bool) (s : State) : SafeNext rs s (execRetrainDone pass s) := by
  refine ⟨_, rfl, ?_⟩
  (repeat' split) <;> simp

@[simp] theorem execMemoryZeroingDone_safe (u : Nat) (s : State) : SafeNext rs s (execMemoryZeroingDone u s) := ⟨_, rfl, by simp⟩
@[simp] theorem execDevMemRetrain_safe (k : Nat) (s : State) : SafeNext rs s (execDevMemRetrain k s) := ⟨_, rfl, by simp⟩
@[simp] theorem execDevMemRegion_safe (k : Nat) (s : State) : SafeNext rs s (execDevMemRegion k s) := ⟨_, rfl, by simp⟩
/-! ### Machine/Auth -/

@[simp] theorem takeLeaf_safe (s : State) : SafeStep rs s (takeLeaf s) := .of (by simp [takeLeaf])
@[simp] theorem renewKey_safe (s : State) : SafeStep rs s (renewKey s) := .of (by simp [renewKey])
@[simp] theorem verifyLicences_safe (s : State) : SafeStep rs s (verifyLicences s) := .of (by simp [verifyLicences])
/-! ### Machine/Convoy -/

@[simp] theorem placeChunk_safe (core payload : List Byte) (c q : Nat) (s : State) :
    SafeStep rs s (placeChunk core payload c q s) := .of (by simp [placeChunk])

@[simp] theorem placeImage_safe (c : Nat) (s : State) : SafeStep rs s (placeImage c s) := .of (by simp [placeImage])
/-! ### Machine/Partitions -/

@[simp] theorem execD2dLinkFail_safe (n : Nat) (s : State) : SafeNext rs s (execD2dLinkFail n s) := ⟨_, rfl, by simp⟩
@[simp] theorem execD2dFallbackReady_safe (n : Nat) (s : State) : SafeNext rs s (execD2dFallbackReady n s) := ⟨_, rfl, by simp⟩
@[simp] theorem abortPartition_safe (p reason : Nat) (s : State) : SafeStep rs s (abortPartition p reason s) := .of (by simp [abortPartition])
@[simp] theorem freeDir_safe (q : Dir → Bool) (s : State) : SafeStep rs s (freeDir q s) := .of (by simp [freeDir])
@[simp] theorem freeObjects_safe (q : Nat → Bool) (s : State) : SafeStep rs s (freeObjects q s) := .of (by simp [freeObjects])
@[simp] theorem zeroField_safe (f : Nat) (s : State) : SafeStep rs s (zeroField f s) := .of (by simp [zeroField])
@[simp] theorem refuseNaming_safe (p : Nat) (s : State) : SafeStep rs s (refuseNaming p s) := .of (by simp [refuseNaming])
@[simp] theorem execDevPartitionReset_safe (k : Nat) (s : State) : SafeNext rs s (execDevPartitionReset k s) := ⟨_, rfl, by simp⟩

@[simp] theorem execPartitionResetEffective_safe (p : Nat) (s : State) : SafeNext rs s (execPartitionResetEffective p s) := by
  refine ⟨_, rfl, ?_⟩
  simp only
  (repeat' split) <;> simp

@[simp] theorem execPartitionResetRelease_safe (p : Nat) (failed : List Nat) (s : State) :
    SafeNext rs s (execPartitionResetRelease p failed s) := ⟨_, rfl, by simp⟩

@[simp] theorem formWindows_safe (P : Nat) (s : State) : SafeStep rs s (formWindows P s) := .of (by simp [formWindows])
@[simp] theorem execDevPartitionConfig_safe (k : Nat) (s : State) : SafeNext rs s (execDevPartitionConfig k s) := ⟨_, rfl, by simp⟩

@[simp] theorem partsEdge_safe (s : State) : SafeStep rs s (partsEdge s) := .of (by
  simp only [partsEdge]
  (repeat' split) <;> simp)

/-! ### Machine/Mailbox -/

@[simp] theorem mbCtrlWrite_safe (m : Nat) (w : BitVec 32) (s : State) : SafeStep rs s (mbCtrlWrite m w s) := .of (by simp [mbCtrlWrite])
@[simp] theorem execMbEnableWrite_safe (m : Nat) (w : BitVec 32) (s : State) : SafeNext rs s (execMbEnableWrite m w s) := ⟨_, rfl, by simp⟩
@[simp] theorem mbTailWrite_safe (m : Nat) (w : BitVec 32) (s : State) : SafeStep rs s (mbTailWrite m w s) := .of (by simp [mbTailWrite])
@[simp] theorem execMbCmdTailWrite_safe (m : Nat) (w : BitVec 32) (s : State) : SafeNext rs s (execMbCmdTailWrite m w s) := ⟨_, rfl, by simp⟩
@[simp] theorem mbBellWrite_safe (m : Nat) (w : BitVec 32) (s : State) : SafeStep rs s (mbBellWrite m w s) := .of (by simp [mbBellWrite])
@[simp] theorem execMbDoorbell_safe (m : Nat) (w : BitVec 32) (s : State) : SafeNext rs s (execMbDoorbell m w s) := ⟨_, rfl, by simp⟩

@[simp] theorem takeCommand_safe (src : Nat) (idx : BitVec 32) (e ext : List Byte) (why : Option Reply) (s : State) :
    SafeStep rs s (takeCommand src idx e ext why s) := .of (by simp [takeCommand])

@[simp] theorem execCommandFetch_safe (m : Nat) (entry ext : List (BitVec 8)) (s : State) :
    SafeNext rs s (execCommandFetch m entry ext s) := ⟨_, rfl, by simp⟩

@[simp] theorem withdrawEnable_safe (k : Nat) (s : State) : SafeStep rs s (withdrawEnable k s) := .of (by
  simp only [withdrawEnable]
  (repeat' split) <;> simp)

@[simp] theorem undoCommand_safe (c : Cmd) (s : State) : SafeStep rs s (undoCommand c s) := .of (by
  simp only [undoCommand]
  (repeat' split) <;> simp)

@[simp] theorem execCommandDeadline_safe (k : Nat) (s : State) : SafeNext rs s (execCommandDeadline k s) := by
  refine ⟨_, rfl, ?_⟩
  (repeat' split) <;> simp

@[simp] theorem execDevCmdCancel_safe (k : Nat) (s : State) : SafeNext rs s (execDevCmdCancel k s) := by
  refine ⟨_, rfl, (runCmd_checked_safe _ _ _ _ _ fun c => ?_).safe⟩
  (repeat' split) <;> simp

/-! ### Machine/Boot -/

/-- A reset leaves the fuses and the flash. -/
@[simp] theorem resetTo_safe (s : State) : SafeStep true s (resetTo s) :=
  .of ⟨resetTo_memWf s, by simp [resetTo, Sec.kept], nofun⟩

@[simp] theorem bootStart_safe (s : State) : SafeStep rs s (bootStart s) := .of (by simp [bootStart])
@[simp] theorem devReset_safe (s : State) : SafeStep true s (devReset s) := .of (by simp [devReset])
@[simp] theorem execResetNRise_safe (s : State) : SafeNext rs s (execResetNRise s) := ⟨_, rfl, by simp⟩
@[simp] theorem execBootSetReady_safe (s : State) : SafeNext rs s (execBootSetReady s) := ⟨_, rfl, by simp⟩
@[simp] theorem execResetNFall_safe (s : State) : SafeNext true s (execResetNFall s) := ⟨_, rfl, by simp⟩
@[simp] theorem execPwrokFall_safe (s : State) : SafeNext true s (execPwrokFall s) := ⟨_, rfl, by simp⟩
@[simp] theorem execRefclkLoss_safe (s : State) : SafeNext true s (execRefclkLoss s) := ⟨_, rfl, by simp⟩
@[simp] theorem execRefclkRestore_safe (s : State) : SafeNext rs s (execRefclkRestore s) := ⟨_, rfl, by simp⟩

@[simp] theorem execDevReset_safe (k : Nat) (s : State) : SafeNext rs s (execDevReset k s) := by
  refine ⟨_, rfl, ?_⟩
  (repeat' split) <;> simp

@[simp] theorem execDecoderCommit_safe (region base : Nat) (s : State) : SafeNext rs s (execDecoderCommit region base s) := ⟨_, rfl, by simp⟩
@[simp] theorem reportCmd_safe (c : Cmd) (s : State) : SafeStep rs s (reportCmd c s) := .of (by simp [reportCmd])

@[simp] theorem execCommandComplete_safe (k : Nat) (s : State) : SafeNext true s (execCommandComplete k s) := by
  refine ⟨_, rfl, ?_⟩
  (repeat' split) <;> simp

/-! ### Machine/LinkFlits -/

@[simp] theorem emitFlit_safe (p : Nat) (fl : Flit) (s : State) : SafeStep rs s (emitFlit p fl s) := .of (by simp [emitFlit])
@[simp] theorem sendMarker_safe (p : Nat) (s : State) : SafeStep rs s (sendMarker p s) := .of (by simp [sendMarker])

@[simp] theorem sendFlit_safe (p : Nat) (s : State) : SafeStep rs s (sendFlit p s) := .of (by
  simp only [sendFlit]
  (repeat' split) <;> simp)

@[simp] theorem execFlitSend_safe (p : Nat) (s : State) : SafeNext rs s (execFlitSend p s) := ⟨_, rfl, by simp⟩

@[simp] theorem execFlitReceive_safe (p : Nat) (fl : Flit) (clean : Bool) (corr uncorr : Nat) (s : State) :
    SafeNext rs s (execFlitReceive p fl clean corr uncorr s) := ⟨_, rfl, by simp⟩

@[simp] theorem execCreditReturn_safe (p pool n : Nat) (s : State) : SafeNext rs s (execCreditReturn p pool n s) := ⟨_, rfl, by simp⟩
@[simp] theorem resteer_safe (p : Nat) (s : State) : SafeStep rs s (resteer p s) :=
  .of (.trans (setPort_safe _ _ _).safe (foldl_safe _ _ _ fun _ _ => by split <;> simp).safe)

@[simp] theorem startTraining_safe (p : Nat) (s : State) : SafeStep rs s (startTraining p s) := .of (by simp [startTraining])

@[simp] theorem answerPort_safe (p : Nat) (r : Reply) (s : State) : SafeStep rs s (answerPort p r s) := .of (by
  simp only [answerPort]
  (repeat' split) <;> simp)

@[simp] theorem trainFailed_safe (p reason : Nat) (s : State) : SafeStep rs s (trainFailed p reason s) := .of (by simp [trainFailed])

@[simp] theorem execLinkPortTrained_safe (p : Nat) (quads : BitVec 4) (peerLight ok : Bool) (s : State) :
    SafeNext rs s (execLinkPortTrained p quads peerLight ok s) := ⟨_, rfl, by simp⟩

@[simp] theorem checkAbsent_safe (d : Nat) (s : State) : SafeStep rs s (checkAbsent d s) := .of (by simp [checkAbsent])
@[simp] theorem portDown_safe (p : Nat) (s : State) : SafeStep rs s (portDown p s) := .of (by simp [portDown])
@[simp] theorem execLinkPortDown_safe (p : Nat) (s : State) : SafeNext rs s (execLinkPortDown p s) := ⟨_, rfl, by simp⟩
@[simp] theorem execReplayRequest_safe (p frm : Nat) (s : State) : SafeNext rs s (execReplayRequest p frm s) := ⟨_, rfl, by simp⟩
@[simp] theorem execLaneFail_safe (p lane : Nat) (s : State) : SafeNext rs s (execLaneFail p lane s) := ⟨_, rfl, by simp⟩
@[simp] theorem execLaneDropRetrain_safe (p : Nat) (s : State) : SafeNext rs s (execLaneDropRetrain p s) := ⟨_, rfl, by simp⟩
@[simp] theorem execPortTrainRetry_safe (p : Nat) (s : State) : SafeNext rs s (execPortTrainRetry p s) := ⟨_, rfl, by simp⟩
@[simp] theorem execLeFltNFall_safe (p : Nat) (s : State) : SafeNext rs s (execLeFltNFall p s) := ⟨_, rfl, by simp⟩
@[simp] theorem execLeFltNRestore_safe (p : Nat) (s : State) : SafeNext rs s (execLeFltNRestore p s) := ⟨_, rfl, by simp⟩

@[simp] theorem execLightEnginePoll_safe (p : Nat) (answers : Bool) (profile status temp : BitVec 16) (rx : List Int) (s : State) :
    SafeNext rs s (execLightEnginePoll p answers profile status temp rx s) := ⟨_, rfl, by simp⟩

/-! ### Machine/LinkRoute -/

@[simp] theorem acceptBytes_safe (opref n : Nat) (s : State) : SafeStep rs s (acceptBytes opref n s) := .of (by simp [acceptBytes])
@[simp] theorem takePacket_safe (pk : Packet) (frm : Nat) (s : State) : SafeStep rs s (takePacket pk frm s) := .of (by simp [takePacket])
@[simp] theorem noteAbsent_safe (pk : Packet) (s : State) : SafeStep rs s (noteAbsent pk s) := .of (by simp [noteAbsent])
@[simp] theorem discardPacket_safe (pk : Packet) (frm : Nat) (s : State) : SafeStep rs s (discardPacket pk frm s) := .of (by simp [discardPacket])

@[simp] theorem execPacketForward_safe (pk : Packet) (frm : Nat) (s : State) : SafeNext rs s (execPacketForward pk frm s) := by
  refine ⟨_, rfl, ?_⟩
  (repeat' split) <;> simp

@[simp] theorem answerPacket_safe (pk : Packet) (type : Nat) (s : State) : SafeStep rs s (answerPacket pk type s) := .of (by simp [answerPacket])
@[simp] theorem refusePacket_safe (why : Nat) (pk : Packet) (s : State) : SafeStep rs s (refusePacket why pk s) := .of (by simp [refusePacket])
@[simp] theorem takeDelivered_safe (pk : Packet) (s : State) : SafeStep rs s (takeDelivered pk s) := .of (by simp [takeDelivered])
@[simp] theorem execWritePacketArrival_safe (pk : Packet) (s : State) : SafeNext rs s (execWritePacketArrival pk s) := ⟨_, rfl, by simp⟩
@[simp] theorem addElem_safe (f : FpFmt) (a : Nat) (v : List Byte) (bad : Bool) (s : State) : SafeStep rs s (addElem f a v bad s).1 := .of (by simp [addElem])
@[simp] theorem addElems_safe (f : FpFmt) (bad : Nat → Bool) (a : Nat) (l : List (List Byte)) (s : State) :
    SafeStep rs s (addElems f bad a l s).1 := by
  refine .of ?_
  induction l generalizing a s with
  | nil => exact .refl _ s
  | cons v l ih => exact .trans (by simp) (ih _ _)

@[simp] theorem execReducePacketArrival_safe (pk : Packet) (s : State) : SafeNext rs s (execReducePacketArrival pk s) := ⟨_, rfl, by simp⟩
@[simp] theorem completePacket_safe (opref : Nat) (s : State) : SafeStep rs s (completePacket opref s) := .of (by simp [completePacket])

@[simp] theorem execWriteAckReceive_safe (opref : Nat) (refused : Bool) (s : State) : SafeNext rs s (execWriteAckReceive opref refused s) := by
  refine ⟨_, rfl, ?_⟩
  (repeat' split) <;> simp

@[simp] theorem execLinkWriteLost_safe (opref : Nat) (s : State) : SafeNext rs s (execLinkWriteLost opref s) := by
  refine ⟨_, rfl, ?_⟩
  (repeat' split) <;> simp

/-! ### Machine/LinkMuster -/

@[simp] theorem disablePort_safe (p reason : Nat) (s : State) : SafeStep rs s (disablePort p reason s) := .of (by simp [disablePort])
@[simp] theorem startMuster_safe (s : State) : SafeStep rs s (startMuster s) := .of (by simp [startMuster])
@[simp] theorem tryMuster_safe (s : State) : SafeStep rs s (tryMuster s) := .of (by simp [tryMuster])
@[simp] theorem tryReporting_safe (s : State) : SafeStep rs s (tryReporting s) := .of (by simp [tryReporting])

@[simp] theorem execIdentityMessage_safe (p coord port lx ly lz : Nat) (msg : List (BitVec 8)) (s : State) :
    SafeNext rs s (execIdentityMessage p coord port lx ly lz msg s) := ⟨_, rfl, by simp⟩

@[simp] theorem execMusterPortTimeout_safe (p : Nat) (s : State) : SafeNext rs s (execMusterPortTimeout p s) := ⟨_, rfl, by simp⟩
@[simp] theorem stepBeat_safe (beat : Nat) (s : State) : SafeStep rs s (stepBeat beat s) := .of (by simp [stepBeat])

@[simp] theorem execMusterReport_safe (d : Nat) (second : Bool) (present : List Nat) (beat : Nat) (s : State) :
    SafeNext rs s (execMusterReport d second present beat s) := ⟨_, rfl, by simp⟩

@[simp] theorem learnAbsent_safe (l : List Nat) (s : State) : SafeStep rs s (learnAbsent l s) := .of (by simp [learnAbsent])
@[simp] theorem systemReady_safe (absent : List Nat) (beat : Nat) (s : State) : SafeStep rs s (systemReady absent beat s) := .of (by simp [systemReady])
@[simp] theorem execSystemReadyDeclare_safe (ms beat : Nat) (s : State) : SafeNext rs s (execSystemReadyDeclare ms beat s) := ⟨_, rfl, by simp⟩
@[simp] theorem execStandbyRootDeclare_safe (ms beat : Nat) (s : State) : SafeNext rs s (execStandbyRootDeclare ms beat s) := ⟨_, rfl, by simp⟩

@[simp] theorem execSystemReadyReceive_safe (absent : List Nat) (beat : Nat) (s : State) :
    SafeNext rs s (execSystemReadyReceive absent beat s) := ⟨_, rfl, by simp⟩

@[simp] theorem execRouteUpdateReceive_safe (coord : Nat) (present : Bool) (beat : Nat) (s : State) :
    SafeNext rs s (execRouteUpdateReceive coord present beat s) := ⟨_, rfl, by simp⟩

@[simp] theorem applyRoute_safe (s : State) (u : Nat × Bool × Nat) : SafeStep rs s (applyRoute s u) := .of (by simp [applyRoute])
@[simp] theorem execRouteSwitchBeat_safe (s : State) : SafeNext rs s (execRouteSwitchBeat s) := ⟨_, rfl, by simp [↓safe_mk, ↓safe_ite, ↓foldl_safe]⟩
@[simp] theorem execTimeMessageSend_safe (s : State) : SafeNext rs s (execTimeMessageSend s) := ⟨_, rfl, by simp⟩

@[simp] theorem execTimeMessageReceive_safe (p beat tx rx : Nat) (back : Int) (s : State) : SafeNext rs s (execTimeMessageReceive p beat tx rx back s) := by
  refine ⟨_, rfl, ?_⟩
  simp only
  (repeat' split) <;> simp

@[simp] theorem execTickinEdge_safe (off : Int) (s : State) : SafeNext rs s (execTickinEdge off s) := ⟨_, rfl, by simp⟩
@[simp] theorem execTickFallback_safe (s : State) : SafeNext rs s (execTickFallback s) := ⟨_, rfl, by simp⟩
@[simp] theorem execTickDisagree_safe (s : State) : SafeNext rs s (execTickDisagree s) := ⟨_, rfl, by simp⟩
@[simp] theorem endSelect_safe (r : Reply) (s : State) : SafeStep rs s (endSelect r s) := .of (by simp [endSelect])
@[simp] theorem selectEdge_safe (s : State) : SafeStep rs s (selectEdge s) := .of (by simp [selectEdge])
@[simp] theorem timeEdge_safe (s : State) : SafeStep rs s (timeEdge s) := .of (by simp [timeEdge])
@[simp] theorem disableFlat_safe (s : State) : SafeStep rs s (disableFlat s) := .of (by simp [disableFlat])
@[simp] theorem execLinkConfig_safe (k : Nat) (s : State) : SafeNext rs s (execLinkConfig k s) := ⟨_, rfl, by simp⟩
@[simp] theorem execLinkPortRetrain_safe (k : Nat) (s : State) : SafeNext rs s (execLinkPortRetrain k s) := ⟨_, rfl, by simp⟩
@[simp] theorem execLinkPortDisable_safe (k : Nat) (s : State) : SafeNext rs s (execLinkPortDisable k s) := ⟨_, rfl, by simp⟩
@[simp] theorem execLinkPortEnable_safe (k : Nat) (s : State) : SafeNext rs s (execLinkPortEnable k s) := ⟨_, rfl, by simp⟩
@[simp] theorem execLinkFec_safe (k : Nat) (s : State) : SafeNext rs s (execLinkFec k s) := ⟨_, rfl, by simp⟩
@[simp] theorem execLinkRejoin_safe (k : Nat) (s : State) : SafeNext rs s (execLinkRejoin k s) := ⟨_, rfl, by simp⟩
@[simp] theorem execLinkTime_safe (k : Nat) (s : State) : SafeNext rs s (execLinkTime k s) := ⟨_, rfl, by simp⟩
/-! ### Machine/Bringup -/

@[simp] theorem powerOn_safe (l : List Nat) (s : State) : SafeStep rs s (powerOn l s) := .of (by simp [powerOn])
@[simp] theorem stepDone_safe (n : Nat) (degraded : Bool) (s : State) : SafeStep rs s (stepDone n degraded s) := .of (by simp [stepDone])
@[simp] theorem stepFail_safe (n code detail : Nat) (s : State) : SafeStep rs s (stepFail n code detail s) := .of (by simp [stepFail])

@[simp] theorem bootFence_safe (kind i b : Nat) (s : State) : SafeStep rs s (bootFence kind i b s) := .of (by
  simp only [bootFence]
  (repeat' split) <;> simp)

@[simp] theorem bootFault_safe (code kind i b detail : Nat) (s : State) : SafeStep rs s (bootFault code kind i b detail s) := .of (by simp [bootFault])
@[simp] theorem convoyStart_safe (s : State) : SafeStep rs s (convoyStart s) := .of (by simp [convoyStart])
@[simp] theorem startMonitors_safe (s : State) : SafeStep rs s (startMonitors s) := .of (by simp [startMonitors])
@[simp] theorem shipSlots_safe (s : State) : SafeStep rs s (shipSlots s) := .of (by simp [shipSlots])
@[simp] theorem loadLight_safe (s : State) : SafeStep rs s (loadLight s) := .of (by simp [loadLight])
@[simp] theorem warmupStart_safe (s : State) : SafeStep rs s (warmupStart s) := .of (by simp [warmupStart])

@[simp] theorem stepStart_safe (n : Nat) (s : State) : SafeStep rs s (stepStart n s) := .of (by
  simp only [stepStart]
  (repeat' split) <;> simp)

@[simp] theorem requestStep_safe (n : Nat) (s : State) : SafeStep rs s (requestStep n s) := .of (by
  simp only [requestStep]
  (repeat' split) <;> simp)

@[simp] theorem acceptConvoy_safe (s : State) : SafeStep rs s (acceptConvoy s) := .of (by simp [acceptConvoy])
@[simp] theorem writeStewardRun_safe (v : Nat) (s : State) : SafeStep rs s (writeStewardRun v s) := .of (by simp [writeStewardRun])

@[simp] theorem buWrite_safe (off v msk : Nat) (s : State) : SafeStep rs s (buWrite off v msk s) := .of (by
  simp only [buWrite]
  (repeat' split) <;> simp)

@[simp] theorem buWrite32_safe (off : Nat) (w : BitVec 32) (s : State) : SafeStep rs s (buWrite32 off w s) := .of (by simp [buWrite32])
@[simp] theorem execBuDomainEnWrite_safe (w : BitVec 32) (s : State) : SafeNext rs s (execBuDomainEnWrite w s) := ⟨_, rfl, by simp⟩
@[simp] theorem execBuPllGo_safe (w : BitVec 32) (s : State) : SafeNext rs s (execBuPllGo w s) := ⟨_, rfl, by simp⟩
@[simp] theorem execBuHbmTrainGo_safe (w : BitVec 32) (s : State) : SafeNext rs s (execBuHbmTrainGo w s) := ⟨_, rfl, by simp⟩
@[simp] theorem execBuImgLoad_safe (w : BitVec 32) (s : State) : SafeNext rs s (execBuImgLoad w s) := ⟨_, rfl, by simp⟩
@[simp] theorem execBuAuthVerify_safe (w : BitVec 32) (s : State) : SafeNext rs s (execBuAuthVerify w s) := ⟨_, rfl, by simp⟩
@[simp] theorem execBuStewardRun_safe (w : BitVec 32) (s : State) : SafeNext rs s (execBuStewardRun w s) := ⟨_, rfl, by simp⟩
@[simp] theorem execBuConvoyGo_safe (w : BitVec 32) (s : State) : SafeNext rs s (execBuConvoyGo w s) := ⟨_, rfl, by simp⟩
@[simp] theorem execBuConvoyAccept_safe (w : BitVec 32) (s : State) : SafeNext rs s (execBuConvoyAccept w s) := ⟨_, rfl, by simp⟩
@[simp] theorem execBuStepWarmup_safe (w : BitVec 32) (s : State) : SafeNext rs s (execBuStepWarmup w s) := ⟨_, rfl, by simp⟩
@[simp] theorem execBuStepFactoryCal_safe (w : BitVec 32) (s : State) : SafeNext rs s (execBuStepFactoryCal w s) := ⟨_, rfl, by simp⟩
@[simp] theorem execBuStepUserCal_safe (w : BitVec 32) (s : State) : SafeNext rs s (execBuStepUserCal w s) := ⟨_, rfl, by simp⟩
@[simp] theorem powerGroup_safe (good : BitVec 10) (s : State) (g : Nat) : SafeStep rs s (powerGroup good s g) := .of (by simp [powerGroup])
@[simp] theorem endPower_safe (obs : StepObs) (s : State) : SafeStep rs s (endPower obs s) := .of (by simp [endPower])

@[simp] theorem endPll_safe (obs : StepObs) (s : State) : SafeStep rs s (endPll obs s) := .of (by
  simp only [endPll]
  (repeat' split) <;> simp)

@[simp] theorem serveUnit_safe (obs : StepObs) (u : Nat) (s : State) : SafeStep rs s (serveUnit obs u s) := .of (by simp [serveUnit])
@[simp] theorem endTrain_safe (obs : StepObs) (s : State) : SafeStep rs s (endTrain obs s) := .of (by simp [endTrain])

@[simp] theorem endImage_safe (obs : StepObs) (s : State) : SafeStep rs s (endImage obs s) := .of (by
  simp only [endImage]
  (repeat' split) <;> simp)

@[simp] theorem endAuth_safe (s : State) : SafeStep rs s (endAuth s) := .of (by simp [endAuth])
@[simp] theorem endRelease_safe (s : State) : SafeStep rs s (endRelease s) := .of (by simp [endRelease])
@[simp] theorem execConvoyChunkReceive_safe (c : Nat) (chunk : List Byte) (s : State) : SafeNext rs s (execConvoyChunkReceive c chunk s) := ⟨_, rfl, by simp⟩
@[simp] theorem execConvoyRepairRound_safe (s : State) : SafeNext rs s (execConvoyRepairRound s) := ⟨_, rfl, by simp⟩
@[simp] theorem endConvoy_safe (coresBad : List Nat) (s : State) : SafeStep rs s (endConvoy coresBad s) := .of (by simp [endConvoy])
@[simp] theorem execCoreReconvoy_safe (cs failed : List Nat) (s : State) : SafeNext rs s (execCoreReconvoy cs failed s) := ⟨_, rfl, by simp⟩

@[simp] theorem warmupFail_safe (f : Nat) (b : Option Nat) (s : State) : SafeStep rs s (warmupFail f b s) := .of (by
  simp only [warmupFail]
  (repeat' split) <;> simp)

@[simp] theorem lightCheck_safe (s : State) (n : Nat) : SafeStep rs s (lightCheck s n) := .of (by
  simp only [lightCheck]
  (repeat' split) <;> simp)

@[simp] theorem endWarmup_safe (obs : StepObs) (s : State) : SafeStep rs s (endWarmup obs s) := .of (by simp [endWarmup])
@[simp] theorem execWarmupFieldTimeout_safe (f : Nat) (band : Option Nat) (s : State) : SafeNext rs s (execWarmupFieldTimeout f band s) := ⟨_, rfl, by simp⟩
@[simp] theorem endFactory_safe (s : State) : SafeStep rs s (endFactory s) := .of (by simp [endFactory])

@[simp] theorem calUnit_safe (s : State) (i : Nat) : SafeStep rs s (calUnit s i) := .of (by
  simp only [calUnit]
  (repeat' split) <;> simp)

@[simp] theorem bringupDone_safe (s : State) : SafeStep rs s (bringupDone s) := .of (by simp [bringupDone])
@[simp] theorem endUserCal_safe (s : State) : SafeStep rs s (endUserCal s) := .of (by simp [endUserCal])

@[simp] theorem execBringupStepComplete_safe (ms : Nat) (obs : StepObs) (s : State) : SafeNext rs s (execBringupStepComplete ms obs s) := by
  refine ⟨_, rfl, ?_⟩
  simp only
  (repeat' split) <;> simp

@[simp] theorem undoUserCal_safe (s : State) : SafeStep rs s (undoUserCal s) := .of (by simp [undoUserCal])
@[simp] theorem execBringupStepTimeout_safe (s : State) : SafeNext rs s (execBringupStepTimeout s) := ⟨_, rfl, by simp⟩
/-! ### Machine/Thermal -/

@[simp] theorem failSensor_safe (d i : Nat) (s : State) : SafeStep rs s (failSensor d i s) := .of (by simp [failSensor])
@[simp] theorem recoverSensor_safe (d i : Nat) (s : State) : SafeStep rs s (recoverSensor d i s) := .of (by simp [recoverSensor])
@[simp] theorem settleSensor_safe (d i : Nat) (s : State) : SafeStep rs s (settleSensor d i s) := .of (by simp [settleSensor])
@[simp] theorem throtUpdate_safe (s : State) : SafeStep rs s (throtUpdate s) := .of (by simp [throtUpdate])
@[simp] theorem enterThrottle_safe (d : Nat) (s : State) : SafeStep rs s (enterThrottle d s) := .of (by simp [enterThrottle])
@[simp] theorem endEpisode_safe (s : State) : SafeStep rs s (endEpisode s) := .of (by simp [endEpisode])
@[simp] theorem setStep_safe (t v d : Nat) (s : State) : SafeStep rs s (setStep t v d s) := .of (by simp [setStep])

@[simp] theorem startTile_safe (s : State) (t : Nat) : SafeStep rs s (startTile s t) := .of (by
  simp only [startTile]
  (repeat' split) <;> simp)

@[simp] theorem episodeUpdate_safe (s : State) : SafeStep rs s (episodeUpdate s) := .of (by simp [episodeUpdate])
@[simp] theorem startEnforcing_safe (s : State) : SafeStep rs s (startEnforcing s) := .of (by simp [startEnforcing])
@[simp] theorem shutDown_safe (s : State) : SafeStep true s (shutDown s) := .of (by simp [shutDown])

@[simp] theorem holdUpdate_safe (d : Nat) (s : State) : SafeStep rs s (holdUpdate d s) := .of (by
  simp only [holdUpdate]
  (repeat' split) <;> simp)

@[simp] theorem refreshRate_safe (d : Nat) (s : State) : SafeStep rs s (refreshRate d s) := .of (by simp [refreshRate])

@[simp] theorem evalDie_safe (d : Nat) (s : State) : SafeStep true s (evalDie d s) := .of (by
  simp only [evalDie]
  (repeat' split) <;> simp)

@[simp] theorem driftCheck_safe (n : Nat) (s : State) : SafeStep rs s (driftCheck n s) := .of (by
  simp only [driftCheck]
  (repeat' split) <;> simp)

@[simp] theorem coolTrack_safe (s : State) (t : Nat) : SafeStep rs s (coolTrack s t) := .of (by simp [coolTrack])
@[simp] theorem afterDies_safe (s : State) : SafeStep rs s (afterDies s) := .of (by simp [afterDies])
@[simp] theorem hottestDie_safe (s : State) : SafeStep rs s (hottestDie s) := .of (by simp [hottestDie])
@[simp] theorem dieEdge_safe (s : State) : SafeStep true s (dieEdge s) := .of (by
  simp only [dieEdge]
  (repeat' split) <;> simp [↓safe_mk, ↓safe_ite, ↓foldl_safe, ↓hottestDie_safe, ↓afterDies_safe])

@[simp] theorem extWarn_safe (i : Nat) (s : State) : SafeStep rs s (extWarn i s) := .of (by simp [extWarn])
@[simp] theorem takeReading_safe (d i : Nat) (out : Bool) (v : Int) (s : State) : SafeStep true s (takeReading d i out v s) := .of (by simp [takeReading])

@[simp] theorem execSensorReading_safe (d i : Nat) (v : Int) (s : State) : SafeNext true s (execSensorReading d i v s) := by
  refine ⟨_, rfl, ?_⟩
  (repeat' split) <;> simp

@[simp] theorem execOvertempComparatorTrip_safe (d : Nat) (s : State) : SafeNext rs s (execOvertempComparatorTrip d s) := ⟨_, rfl, by simp⟩
@[simp] theorem execThrottleGraceExpiry_safe (s : State) : SafeNext rs s (execThrottleGraceExpiry s) := ⟨_, rfl, by simp⟩
@[simp] theorem execThrottleAckLimit_safe (s : State) : SafeNext rs s (execThrottleAckLimit s) := ⟨_, rfl, by simp⟩

@[simp] theorem tileTimer_safe (s : State) (t : Nat) : SafeStep rs s (tileTimer s t) := .of (by
  simp only [tileTimer]
  (repeat' split) <;> simp)

@[simp] theorem execThrottleStepTimer_safe (s : State) : SafeNext rs s (execThrottleStepTimer s) := ⟨_, rfl, by simp⟩
@[simp] theorem execSensorHoldTimer_safe (d : Nat) (s : State) : SafeNext rs s (execSensorHoldTimer d s) := ⟨_, rfl, by simp⟩
@[simp] theorem execShutdownComparatorTrip_safe (d : Nat) (s : State) : SafeNext true s (execShutdownComparatorTrip d s) := ⟨_, rfl, by simp⟩
@[simp] theorem execThermalThrottleAck_safe (k : Nat) (s : State) : SafeNext rs s (execThermalThrottleAck k s) := ⟨_, rfl, by simp⟩
@[simp] theorem execThermalSensor_safe (k : Nat) (s : State) : SafeNext rs s (execThermalSensor k s) := ⟨_, rfl, by simp⟩
/-! ### Machine/Power -/

@[simp] theorem postPower_safe (new_ old : Nat) (s : State) : SafeStep rs s (postPower new_ old s) := .of (by simp [postPower])

@[simp] theorem enterD1_safe (s : State) : SafeStep rs s (enterD1 s) := .of (by
  simp only [enterD1]
  (repeat' split) <;> simp)

@[simp] theorem leaveD1_safe (k : Nat) (s : State) : SafeStep rs s (leaveD1 k s) := .of (by simp [leaveD1])

@[simp] theorem reachD0_safe (s : State) : SafeStep rs s (reachD0 s) := .of (by
  simp only [reachD0]
  (repeat' split) <;> simp)

@[simp] theorem enterD3_safe (s : State) : SafeStep true s (enterD3 s) := .of (by simp [enterD3])

@[simp] theorem powerEdge_safe (s : State) : SafeStep true s (powerEdge s) := .of (by
  simp only [powerEdge]
  (repeat' split) <;> simp)

@[simp] theorem execPowerState_safe (k : Nat) (s : State) : SafeNext rs s (execPowerState k s) := ⟨_, rfl, by simp⟩
@[simp] theorem execPowerDomain_safe (k : Nat) (s : State) : SafeNext rs s (execPowerDomain k s) := ⟨_, rfl, by simp⟩
/-! ### Machine/Edge -/

@[simp] theorem closeSlices_safe (s : State) : SafeStep rs s (closeSlices s) := .of (by simp [closeSlices])
@[simp] theorem flagLost_safe (s : State) : SafeStep rs s (flagLost s) := .of (by simp [flagLost])
@[simp] theorem abortEdge_safe (s : State) : SafeStep rs s (abortEdge s) := .of (by simp [abortEdge])
@[simp] theorem refillGroup_safe (o : Op) (p : GPos) (s : State) : SafeStep rs s (refillGroup o p s) := .of (by simp [refillGroup])
@[simp] theorem refillReturned_safe (s₀ s : State) : SafeStep rs s (refillReturned s₀ s) := .of (by simp [refillReturned])
@[simp] theorem holdTelemetry_safe (s₀ s : State) : SafeStep rs s (holdTelemetry s₀ s) := .of (by simp [holdTelemetry])
@[simp] theorem trimEdge_safe (s : State) : SafeStep rs s (trimEdge s) := .of (by simp [trimEdge])
@[simp] theorem darkEdge_safe (s : State) : SafeStep rs s (darkEdge s) := .of (by simp [darkEdge])
@[simp] theorem powerReading_safe (s : State) : SafeStep rs s (powerReading s) := .of (by simp [powerReading])
@[simp] theorem hardwareEdge_safe (s : State) : SafeStep rs s (hardwareEdge s) := .of (by simp [hardwareEdge])
@[simp] theorem plannedEdge_safe (s₀ : State) (refvOk : Bool) (s : State) : SafeStep true s (plannedEdge s₀ refvOk s) := .of (by simp [plannedEdge])
@[simp] theorem execBeatEdge_safe (refvOk : Bool) (s : State) : SafeNext true s (execBeatEdge refvOk s) := ⟨_, rfl, by simp⟩
/-! ### Machine/Moves -/

@[simp] theorem sendMove_safe (k : Nat) (o : Op) (s : State) : SafeStep rs s (sendMove k o s) := .of (by simp [sendMove])
@[simp] theorem copyMove_safe (o : Op) (s : State) : SafeStep rs s (copyMove o s) := .of (by simp [copyMove])
@[simp] theorem addMove_safe (o : Op) (s : State) : SafeStep rs s (addMove o s).1 := .of (by simp [addMove])
@[simp] theorem runMove_safe (k : Nat) (reduce : Bool) (o : Op) (s : State) : SafeStep rs s (runMove k reduce o s) := .of (by simp [runMove])
@[simp] theorem tryMove_safe (k : Nat) (reduce : Bool) (o : Op) (s : State) : SafeStep rs s (tryMove k reduce o s) := .of (by simp [tryMove])
@[simp] theorem execMove_safe (k : Nat) (s : State) : SafeNext rs s (execMove k s) := ⟨_, rfl, by simp⟩
@[simp] theorem execMoveReduce_safe (k : Nat) (s : State) : SafeNext rs s (execMoveReduce k s) := ⟨_, rfl, by simp⟩
/-! ### Machine/Security -/

@[simp] theorem execSecSelfTest_safe (pass : Bool) (s : State) : SafeNext rs s (execSecSelfTest pass s) := ⟨_, rfl, by simp⟩
@[simp] theorem execMeasurementExtend_safe (reg : Nat) (d : List (BitVec 8)) (s : State) : SafeNext rs s (execMeasurementExtend reg d s) := ⟨_, rfl, by simp⟩

@[simp] theorem execSpdmRequest_safe (transport code : Nat) (body : List (BitVec 8)) (s : State) :
    SafeNext rs s (execSpdmRequest transport code body s) := ⟨_, rfl, by simp⟩

@[simp] theorem execMctpVendorRequest_safe (entry ext : List (BitVec 8)) (s : State) : SafeNext rs s (execMctpVendorRequest entry ext s) := ⟨_, rfl, by simp⟩
@[simp] theorem execMgResetWrite_safe (v : BitVec 8) (soon : Bool) (s : State) : SafeNext true s (execMgResetWrite v soon s) := ⟨_, rfl, by simp⟩
@[simp] theorem execSetEndpointId_safe (eid : Nat) (s : State) : SafeNext rs s (execSetEndpointId eid s) := ⟨_, rfl, by simp⟩
@[simp] theorem execDynamicAddressAssign_safe (a : Nat) (s : State) : SafeNext rs s (execDynamicAddressAssign a s) := ⟨_, rfl, by simp⟩
@[simp] theorem execSecCertRead_safe (k : Nat) (s : State) : SafeNext rs s (execSecCertRead k s) := ⟨_, rfl, by simp⟩
@[simp] theorem execSecMeasureRead_safe (k : Nat) (s : State) : SafeNext rs s (execSecMeasureRead k s) := by
  refine ⟨_, rfl, (runCmd_checked_safe _ _ _ _ _ fun c => ?_).safe⟩
  simp only
  split <;> simp

@[simp] theorem execSecLicenceInstall_safe (k : Nat) (s : State) : SafeNext rs s (execSecLicenceInstall k s) := ⟨_, rfl, by simp⟩
@[simp] theorem execSecLicenceList_safe (k : Nat) (s : State) : SafeNext rs s (execSecLicenceList k s) := ⟨_, rfl, by simp⟩
@[simp] theorem closeStage_safe (s : State) : SafeStep rs s (closeStage s) := .of (by simp [closeStage])
@[simp] theorem putSlot_safe (l : List Byte) (s : State) : SafeStep rs s (putSlot l s) := .of (by simp [putSlot])
@[simp] theorem endStage_safe (s : State) : SafeStep rs s (endStage s).1 := .of (by simp [endStage])
@[simp] theorem execSecImageStage_safe (k : Nat) (s : State) : SafeNext rs s (execSecImageStage k s) := ⟨_, rfl, by simp⟩
@[simp] theorem execImageStageIdleTimeout_safe (s : State) : SafeNext rs s (execImageStageIdleTimeout s) := ⟨_, rfl, by simp⟩
/-- Slots that a new image revokes join those that are revoked. -/
theorem and_revokeBelow (old : BitVec 8) (b : List Byte) : old &&& revokeBelow old b = old := by
  unfold revokeBelow
  dsimp only
  split
  · ext i; simp; tauto
  · exact BitVec.and_self

@[simp] theorem execSecImageCommit_safe (k : Nat) (s : State) : SafeNext rs s (execSecImageCommit k s) := by
  refine ⟨_, rfl, (runCmd_checked_safe _ _ _ _ _ fun c => ?_).safe⟩
  simp only
  simp [and_revokeBelow]
  split <;> simp

/-! ### Machine/RegWrite -/

@[simp] theorem fieldWrite_safe (f o v msk : Nat) (s : State) : SafeStep rs s (fieldWrite f o v msk s) := .of (by simp [fieldWrite])
@[simp] theorem lightWrite_safe (o v msk : Nat) (s : State) : SafeStep rs s (lightWrite o v msk s) := .of (by simp [lightWrite])
@[simp] theorem memRegWrite_safe (o v msk : Nat) (s : State) : SafeStep rs s (memRegWrite o v msk s) := .of (by simp [memRegWrite])

@[simp] theorem ringWrite_safe (o v msk : Nat) (s : State) : SafeStep rs s (ringWrite o v msk s) := .of (by
  simp only [ringWrite]
  (repeat' split) <;> simp)

@[simp] theorem monWrite_safe (k o v msk : Nat) (s : State) : SafeStep rs s (monWrite k o v msk s) := .of (by simp [monWrite])
@[simp] theorem monBlockWrite_safe (o v msk : Nat) (s : State) : SafeStep rs s (monBlockWrite o v msk s) := .of (by simp [monBlockWrite])

@[simp] theorem slotWrite_safe (n i v msk : Nat) (s : State) : SafeStep rs s (slotWrite n i v msk s) := .of (by
  simp only [slotWrite]
  (repeat' split) <;> simp)

@[simp] theorem engineWrite_safe (o v msk : Nat) (s : State) : SafeStep rs s (engineWrite o v msk s) := .of (by
  simp only [engineWrite]
  (repeat' split) <;> simp)

@[simp] theorem loopWrite_safe (o v msk : Nat) (s : State) : SafeStep rs s (loopWrite o v msk s) := .of (by simp [loopWrite])

@[simp] theorem extWrite_safe (n i v msk : Nat) (s : State) : SafeStep rs s (extWrite n i v msk s) := .of (by
  simp only [extWrite]
  (repeat' split) <;> simp)

@[simp] theorem pwrWrite_safe (o v msk : Nat) (s : State) : SafeStep rs s (pwrWrite o v msk s) := .of (by simp [pwrWrite])
@[simp] theorem mmioWrite_safe (o v msk : Nat) (s : State) : SafeStep rs s (mmioWrite o v msk s) := .of (by simp [mmioWrite])

@[simp] theorem mbWrite_safe (m o : Nat) (w : BitVec 32) (s : State) : SafeStep rs s (mbWrite m o w s) := .of (by
  simp only [mbWrite]
  (repeat' split) <;> simp)

@[simp] theorem msixWrite_safe (i : Nat) (w : BitVec 32) (s : State) : SafeStep rs s (msixWrite i w s) := .of (by simp [msixWrite])
@[simp] theorem bar2Write_safe (o : Nat) (w : BitVec 32) (s : State) : SafeStep rs s (bar2Write o w s) := .of (by simp [bar2Write])

@[simp] theorem mgWrite_safe (code : Nat) (w : BitVec 32) (s : State) : SafeStep rs s (mgWrite code w s) := .of (by
  simp only [mgWrite]
  (repeat' split) <;> simp)

@[simp] theorem execRegisterWrite_safe (bar off : Nat) (w : BitVec 32) (s : State) : SafeNext rs s (execRegisterWrite bar off w s) := by
  refine ⟨_, rfl, ?_⟩
  (repeat' split) <;> simp

/-! ### Machine/Status -/

@[simp] theorem statusCmd_safe (k op need : Nat) (out : State → List Byte) (s : State) :
    SafeStep rs s (statusCmd k op need out s) := .of (by simp [statusCmd])

@[simp] theorem execDevInfo_safe (k : Nat) (s : State) : SafeNext rs s (execDevInfo k s) := ⟨_, rfl, by simp⟩
@[simp] theorem execDevUnitStatus_safe (k : Nat) (s : State) : SafeNext rs s (execDevUnitStatus k s) := ⟨_, rfl, by simp⟩
@[simp] theorem execDevFaultRead_safe (k : Nat) (s : State) : SafeNext rs s (execDevFaultRead k s) := ⟨_, rfl, by simp⟩
@[simp] theorem execDevMemStatus_safe (k : Nat) (s : State) : SafeNext rs s (execDevMemStatus k s) := ⟨_, rfl, by simp⟩
@[simp] theorem execDevPartitionStatus_safe (k : Nat) (s : State) : SafeNext rs s (execDevPartitionStatus k s) := ⟨_, rfl, by simp⟩
@[simp] theorem execPowerStatus_safe (k : Nat) (s : State) : SafeNext rs s (execPowerStatus k s) := ⟨_, rfl, by simp⟩
@[simp] theorem execLightStatus_safe (k : Nat) (s : State) : SafeNext rs s (execLightStatus k s) := ⟨_, rfl, by simp⟩
@[simp] theorem execCalStatus_safe (k : Nat) (s : State) : SafeNext rs s (execCalStatus k s) := ⟨_, rfl, by simp⟩
@[simp] theorem execExecStatus_safe (k : Nat) (s : State) : SafeNext rs s (execExecStatus k s) := ⟨_, rfl, by simp⟩
@[simp] theorem execLinkStatus_safe (k : Nat) (s : State) : SafeNext rs s (execLinkStatus k s) := ⟨_, rfl, by simp⟩
@[simp] theorem execLinkMusterStatus_safe (k : Nat) (s : State) : SafeNext rs s (execLinkMusterStatus k s) := ⟨_, rfl, by simp⟩
@[simp] theorem setRegs_safe (k op blk : Nat) (q : Nat → Nat → Bool) (s : State) : SafeStep rs s (setRegs k op blk q s) := .of (by simp [setRegs])
@[simp] theorem execDevMemScrub_safe (k : Nat) (s : State) : SafeNext rs s (execDevMemScrub k s) := ⟨_, rfl, by simp⟩
@[simp] theorem execThermalConfig_safe (k : Nat) (s : State) : SafeNext rs s (execThermalConfig k s) := ⟨_, rfl, by simp⟩
@[simp] theorem execMonitorConfig_safe (k : Nat) (s : State) : SafeNext rs s (execMonitorConfig k s) := ⟨_, rfl, by simp⟩
@[simp] theorem execLoopConfig_safe (k : Nat) (s : State) : SafeNext rs s (execLoopConfig k s) := ⟨_, rfl, by simp⟩
@[simp] theorem execLoopCoolant_safe (k : Nat) (s : State) : SafeNext rs s (execLoopCoolant k s) := ⟨_, rfl, by simp⟩
@[simp] theorem execThermalStatus_safe (k : Nat) (s : State) : SafeNext rs s (execThermalStatus k s) := ⟨_, rfl, by simp⟩
@[simp] theorem execTelemetryRead_safe (k : Nat) (s : State) : SafeNext rs s (execTelemetryRead k s) := ⟨_, rfl, by simp⟩
@[simp] theorem execTelemetryConfig_safe (k : Nat) (s : State) : SafeNext rs s (execTelemetryConfig k s) := ⟨_, rfl, by simp⟩
@[simp] theorem execDebugRead_safe (k : Nat) (s : State) : SafeNext rs s (execDebugRead k s) := ⟨_, rfl, by simp⟩
@[simp] theorem execDebugWrite_safe (k : Nat) (s : State) : SafeNext rs s (execDebugWrite k s) := ⟨_, rfl, by simp⟩
@[simp] theorem execDebugSteward_safe (k : Nat) (s : State) : SafeNext rs s (execDebugSteward k s) := ⟨_, rfl, by simp⟩
@[simp] theorem execLoopStatus_safe (k : Nat) (s : State) : SafeNext rs s (execLoopStatus k s) := ⟨_, rfl, by simp⟩
@[simp] theorem execLoopFreeze_safe (k : Nat) (s : State) : SafeNext rs s (execLoopFreeze k s) := ⟨_, rfl, by simp⟩
@[simp] theorem execLoopRelease_safe (k : Nat) (s : State) : SafeNext rs s (execLoopRelease k s) := ⟨_, rfl, by simp⟩
@[simp] theorem execLoopTest_safe (k : Nat) (s : State) : SafeNext rs s (execLoopTest k s) := ⟨_, rfl, by simp⟩
@[simp] theorem execLoopCapture_safe (k : Nat) (s : State) : SafeNext rs s (execLoopCapture k s) := ⟨_, rfl, by simp⟩
@[simp] theorem execMonitorStatus_safe (k : Nat) (s : State) : SafeNext rs s (execMonitorStatus k s) := ⟨_, rfl, by simp⟩
@[simp] theorem execMonitorSelftest_safe (k : Nat) (s : State) : SafeNext rs s (execMonitorSelftest k s) := ⟨_, rfl, by simp⟩
@[simp] theorem execMonitorInject_safe (k : Nat) (s : State) : SafeNext rs s (execMonitorInject k s) := ⟨_, rfl, by simp⟩
@[simp] theorem execMonitorRead_safe (k : Nat) (s : State) : SafeNext rs s (execMonitorRead k s) := ⟨_, rfl, by simp⟩
/-! ### Every command -/

/-! ### Every command -/

/-- One case for each command of the table: the lemma of its meaning above. -/
theorem exec_safe (i : Instr) (s : State) : SafeNext (mayReset i) s (exec i s) := by
  cases i <;> simp [exec, mayReset]

theorem safe_of_exec {i : Instr} (h : exec i s = .next t) : Safe (mayReset i) s t := by
  obtain ⟨u, hu, hsafe⟩ := exec_safe i s
  cases h.symm.trans hu
  exact hsafe

end Sys2Proof.Machine
end

section
/-! The canonical form, the identity and the device error along every command: what `exec_safe` settles. -/

namespace Sys2Proof.Machine

open Sys2Proof State

variable {s t : State}

/-- Settles O4: a step runs a command, which is `Safe`, or idles. -/
theorem everyStepKeepsMemoryCanonical : Obligations.EveryStepKeepsMemoryCanonical := by
  intro s t hs hstep
  unfold step at hstep
  split at hstep
  next => cases hstep; exact hs
  next c rest _ => exact (safe_of_exec hstep).1 hs

/-- Settles O6: every command is `Safe`. -/
theorem identityNeverChangesAndRollbackIsBarred : Obligations.IdentityNeverChangesAndRollbackIsBarred :=
  fun _ _ _ h => (safe_of_exec h).2.1

/-! ### Device error (R468) -/

/-- Entries that all change by `g`, where `g` acts on `c` as `φ` does, and once or more is the same. -/
theorem tget_tmap_once {α β : Type} [DecidableEq α] {d : α} {g : Nat → α → α} {c : α → β} {φ : β → β} (hg : ∀ k v, c (g k v) = φ (c v))
    (hφ : ∀ b, φ (φ b) = φ b) (hd : φ (c d) = c d) (l : Tab α) (k : Nat) : c (tget d (tmap d l g) k) = φ (c (tget d l k)) := by
  by_cases hk : k ∈ l.map Prod.fst
  · refine foldl_reaches (I := fun u => c (tget d u k) = c (tget d l k) ∨ c (tget d u k) = φ (c (tget d l k))) (Q := fun u => c (tget d u k) = φ (c (tget d l k)))
      hk (fun u j h => ?_) (fun u h => ?_) (fun u j h => ?_) l (.inl rfl)
    · rw [tget_tset]
      split
      next hj => subst hj; rw [hg]; exact .inr (h.elim (congrArg φ) fun h => (congrArg φ h).trans (hφ _))
      next => exact h
    · rw [tget_tset, if_pos rfl, hg]
      exact h.elim (congrArg φ) fun h => (congrArg φ h).trans (hφ _)
    · rw [tget_tset]
      split
      next hj => subst hj; rw [hg, h, hφ]
      next => exact h
  · rw [tget_unlisted d l hk, hd]
    refine foldl_inv (fun u => c (tget d u k) = c d) _ (fun u j h => ?_) _ l (by rw [tget_unlisted d l hk])
    rw [tget_tset]
    split
    next hj => subst hj; rw [hg, h, hd]
    next => exact h

theorem enterDeviceError_eq (n : Nat) (h : s.flt.deviceError = false) : EntersDeviceError n s (enterDeviceError n s) := by
  have hport (p : Nat) : ((enterDeviceError n s).port p).state = if (s.port p).state = 3 then 3 else 0 := by
    simp only [enterDeviceError, h]
    exact tget_tmap_once (d := {}) (g := fun _ l => { l with state := if l.state = 3 then 3 else 0 }) (c := LinkPort.state) (φ := fun b => if b = 3 then 3 else 0) (fun _ _ => rfl) (fun b => by split <;> simp_all) rfl s.ports p
  refine ⟨by simp [enterDeviceError, h], by simp [enterDeviceError, h], by simp [enterDeviceError, h], hport, fun c hc => ?_, ?_, by simp [enterDeviceError, h]⟩
  · simp only [enterDeviceError, h, Bool.false_eq_true, if_false, List.mem_map] at hc
    obtain ⟨d, -, rfl⟩ := hc
    exact answer_decided _ _
  · simp [enterDeviceError, h]

/-- Settles O7: the entries by what `enterDeviceError` makes of the state, its stay by `exec_safe`. -/
theorem deviceErrorEndsOnlyWithReset : Obligations.DeviceErrorEndsOnlyWithReset := by
  refine ⟨fun s h hrun => ⟨_, congrArg Host.Outcome.next (if_pos hrun), enterDeviceError_eq 1 h⟩,
    fun s n h hn => ⟨_, congrArg Host.Outcome.next (if_pos hn), enterDeviceError_eq n h⟩,
    fun s h hon => ⟨_, congrArg Host.Outcome.next (if_pos (by simp [hon])), enterDeviceError_eq 6 h⟩,
    fun s h => congrArg Host.Outcome.next (if_neg (by simp [h])), fun s n h2 h3 => congrArg Host.Outcome.next (if_neg (by simp [h2, h3])),
    fun i s t h hexec => ?_⟩
  cases hr : mayReset i with
  | true => exact .inl rfl
  | false => exact .inr ((safe_of_exec hexec).2.2 hr h)

end Sys2Proof.Machine
end

section
/-! A command that stores although it is none of those that the statement names: a deadline that withdraws an enable. -/

namespace Sys2Proof.Machine

open Sys2Proof

/-- Command 7, a `dev.unit.enable` of HBM stack 0, is in progress and its deadline has passed; the recovery of the stack runs for it. The stack holds a host
write of two bytes, the second of which lies on stack 1. -/
def withdrawnEnable : State :=
  { flt := { active := some { code := 0x50, kind := 4, index := 0, cmds := [7], recovering := true } }
    units := [(0, { state := 2 })]
    memTop := { windows := [(0, [0, 1])], heldReqs := [(0, true, 255, [7, 7])] }
    cmds := [{ key := 7, opcode := 0x0111, started := true }] }

theorem withdrawnEnable_holds_write : held withdrawnEnable 255 2 = true := by decide +kernel

/-- Refutes O5: a deadline that withdraws an enable leaves the unit fenced (R467), and a fenced memory unit serves the requests that it held (R306); the part
of a held write that lies on another unit is stored. -/
theorem not_otherCommandsLeaveMemory : ¬ Obligations.OtherCommandsLeaveMemory := by
  intro h
  obtain ⟨hbytes, -, -⟩ := h (.commandDeadline 7) withdrawnEnable _ rfl rfl
  exact absurd (hbytes 256) (by decide +kernel)

end Sys2Proof.Machine
end

section
/-! One-bit errors of a code word (R291, R292, R303). -/

namespace Sys2Proof.Machine

open Sys2Proof State

theorem leBytes_leNat (l : List Byte) : leBytes l.length (leNat l) = l := by
  induction l with
  | nil => rfl
  | cons b l ih =>
    have hlow : BitVec.ofNat 8 (b.toNat + 256 * leNat l) = b := by
      apply BitVec.eq_of_toNat_eq
      rw [BitVec.toNat_ofNat]
      omega
    rw [List.length_cons, leNat, leBytes, hlow, Nat.add_mul_div_left _ _ (by decide), Nat.div_eq_of_lt b.isLt, Nat.zero_add, ih]

/-- A word written back as it was read leaves memory as it was. -/
theorem read_putWord_rawWord (s : State) (w a : Nat) : Memory.read (putWord s w (rawWord s w)).mem a = Memory.read s.mem a := by
  have hbytes : leBytes 8 (rawWord s w).toNat = Memory.readN s.mem (8 * w) 8 := by
    have hlt := leNat_lt (Memory.readN s.mem (8 * w) 8)
    have hlen : (Memory.readN s.mem (8 * w) 8).length = 8 := by simp [Memory.readN]
    rw [rawWord, BitVec.toNat_ofNat, Nat.mod_eq_of_lt (by rwa [hlen] at hlt)]
    exact hlen ▸ leBytes_leNat _
  show Memory.read (Memory.writeN s.mem (8 * w) (leBytes 8 (rawWord s w).toNat)) a = _
  rw [hbytes]
  have hlen : (Memory.readN s.mem (8 * w) 8).length = 8 := by simp [Memory.readN]
  by_cases ha : a < 8 * w ∨ 8 * w + 8 ≤ a
  · exact Memory.read_writeN_out _ _ _ _ (by rwa [hlen])
  · obtain ⟨i, rfl⟩ := Nat.exists_eq_add_of_le (show 8 * w ≤ a by omega)
    rw [Memory.read_writeN_in _ _ _ _ (show i < _ by omega)]
    simp [Memory.readN]

/-- Each bit of a code word has a syndrome of its own, none of them 0 (R291, R292). -/
theorem decodeErr_oneBit : ∀ i : Nat, i < 80 → decodeErr (BitVec.twoPow 80 i) = some (BitVec.twoPow 80 i) := by decide +kernel

/-- A read of a word of plain memory with an error of one bit (R303). -/
theorem touchWord_oneBit (s : State) (w : Nat) {i : Nat} (hi : i < 80) (hplain : ∀ f, locOf s (8 * w) ≠ .accv f) :
    touchWord s w (BitVec.twoPow 80 i) =
      countCe (locOf s (8 * w)).unit (((putWord s w (rawWord s w)).setErr w 0).setPoisoned w (s.poisoned w)) := by
  have hne : BitVec.twoPow 80 i ≠ 0 := by
    intro h
    have hbit := congrArg (fun v => v.getLsbD i) h
    simp [hi] at hbit
  unfold touchWord
  split
  next f hloc => exact absurd hloc (hplain f)
  next =>
    simp only [touchPlain, decodeErr_oneBit i hi, BitVec.xor_self, if_neg hne]
    simp

theorem countCe_frame (u : Nat) (s : State) : ∃ l, countCe u s = { s with units := l } := by
  unfold countCe
  split
  · exact ⟨_, rfl⟩
  · exact ⟨_, rfl⟩

/-- Settles O40: the decoder by its 80 syndromes, the read by the state that it leaves. -/
theorem oneBitErrorIsCorrected : Obligations.OneBitErrorIsCorrected := by
  refine ⟨decodeErr_oneBit, fun s w i hi hplain => ?_⟩
  rw [touchWord_oneBit s w hi hplain]
  generalize hu : (locOf s (8 * w)).unit = u
  obtain ⟨l, hcount⟩ := countCe_frame u (((putWord s w (rawWord s w)).setErr w 0).setPoisoned w (s.poisoned w))
  refine ⟨fun j _ => ?_, ?_, ?_, fun hlt hce => ?_⟩
  · rw [hcount]
    exact read_putWord_rawWord s w _
  · rw [hcount]
    exact (tget_tset false s.poison w w _).trans (if_pos rfl)
  · rw [hcount]
    exact (tget_tset (0 : BitVec 80) s.errs w w 0).trans (if_pos rfl)
  · have hunit : (((putWord s w (rawWord s w)).setErr w 0).setPoisoned w (s.poisoned w)).unit u = s.unit u := rfl
    rw [countCe, if_pos hlt, unit_modUnit, if_pos rfl, hunit]
    exact if_neg hce

end Sys2Proof.Machine
end

section
/-! The rows of the memory controllers and of the die-to-die links: patrol, error rates, retraining, zeroing, fallback (R301 to R308, R337 to R339). -/

namespace Sys2Proof.Machine

open Sys2Proof State

/-! ### The service of memory units -/

/-- `t` has the service of every memory unit, the retraining and its queue, and the held requests as `s` has them. -/
structure SameService (s t : State) : Prop where
  state : ∀ u, (t.unit u).state = (s.unit u).state
  hold : ∀ u, (t.unit u).hold = (s.unit u).hold
  zeroing : ∀ u, (t.unit u).zeroing = (s.unit u).zeroing
  retrain : t.memTop.retrain = s.memTop.retrain
  queue : t.memTop.queue = s.memTop.queue
  heldReqs : t.memTop.heldReqs = s.memTop.heldReqs

section
variable {s t u : State}

theorem SameService.of_tables (hunits : t.units = s.units) (htop : t.memTop = s.memTop) : SameService s t :=
  ⟨fun u => by rw [unit_congr s t hunits], fun u => by rw [unit_congr s t hunits], fun u => by rw [unit_congr s t hunits], by rw [htop], by rw [htop],
    by rw [htop]⟩

theorem SameService.refl (s : State) : SameService s s := .of_tables rfl rfl

theorem SameService.trans (h : SameService s t) (h' : SameService t u) : SameService s u :=
  ⟨fun x => (h'.state x).trans (h.state x), fun x => (h'.hold x).trans (h.hold x), fun x => (h'.zeroing x).trans (h.zeroing x),
    h'.retrain.trans h.retrain, h'.queue.trans h.queue, h'.heldReqs.trans h.heldReqs⟩

/-- `trans` with the later step first: the goal names that one, and so gives the state between. -/
theorem SameService.after (h' : SameService t u) (h : SameService s t) : SameService s u := h.trans h'

theorem SameService.foldl {α : Type} {f : State → α → State} (h : ∀ s a, SameService s (f s a)) (l : List α) (s : State) :
    SameService s (l.foldl f s) := foldl_inv (SameService s) f (fun t a ht => ht.trans (h t a)) l s (.refl s)

theorem SameService.ite {c : Prop} [Decidable c] (h : SameService s t) (h' : SameService s u) : SameService s (if c then t else u) := by
  split
  · exact h
  · exact h'

theorem EventsOnly.sameService (h : EventsOnly s t) : SameService s t := by
  obtain ⟨_, _, _, rfl⟩ := h
  exact .of_tables rfl rfl

end

/-- A change of one unit that leaves its service. -/
theorem modUnit_sameService (s : State) (u : Nat) {g : MemUnit → MemUnit} (hstate : ∀ m, (g m).state = m.state) (hhold : ∀ m, (g m).hold = m.hold)
    (hzero : ∀ m, (g m).zeroing = m.zeroing) : SameService s (s.modUnit u g) := by
  refine ⟨fun x => ?_, fun x => ?_, fun x => ?_, rfl, rfl, rfl⟩ <;> rw [unit_modUnit] <;> split
  next hx => rw [hstate, hx]
  next => rfl
  next hx => rw [hhold, hx]
  next => rfl
  next hx => rw [hzero, hx]
  next => rfl

theorem countCe_sameService (u : Nat) (s : State) : SameService s (countCe u s) :=
  .ite (modUnit_sameService s u (fun _ => rfl) (fun _ => rfl) fun _ => rfl) (.refl s)

theorem countUe_sameService (u a : Nat) (s : State) : SameService s (countUe u a s) := by
  have hlast : SameService s { s with memTop := { s.memTop with lastUe := a } } :=
    ⟨fun _ => rfl, fun _ => rfl, fun _ => rfl, rfl, rfl, rfl⟩
  have hcount (t : State) (n : BitVec 32) (l l' : List Nat) : SameService t (t.setUnit u { t.unit u with ue := n, ueWin := l, uePosts := l' }) :=
    modUnit_sameService t u (g := fun m => { m with ue := n, ueWin := l, uePosts := l' }) (fun _ => rfl) (fun _ => rfl) fun _ => rfl
  exact hlast.trans (.ite (.ite ((post_eventsOnly _ _ _).sameService.after (hcount _ _ _ _)) (hcount _ _ _ _)) (post_eventsOnly _ _ _).sameService)

theorem touchAcc_sameService (s : State) (w : Nat) (e : BitVec 80) : SameService s (touchAcc s w e) := by
  have hcells (a b : Nat) (f g : AccCell → AccCell) : SameService s (((s.modAccCell a f).modAccCell b g).setErr w 0) := .of_tables rfl rfl
  unfold touchAcc
  dsimp only
  exact .ite ((countUe_sameService _ _ _).after (hcells _ _ _ _)) (hcells _ _ _ _)

theorem touchPlain_sameService (s : State) (w : Nat) (e : BitVec 80) : SameService s (touchPlain s w e) := by
  have hword (d : BitVec 64) (p : Bool) : SameService s (((putWord s w d).setErr w 0).setPoisoned w p) := .of_tables rfl rfl
  unfold touchPlain
  dsimp only
  split
  · exact .ite (hword _ _) ((countCe_sameService _ _).after (hword _ _))
  · exact (countUe_sameService _ _ _).after (hword _ _)

theorem touchWord_sameService (s : State) (w : Nat) (e : BitVec 80) : SameService s (touchWord s w e) := by
  unfold touchWord
  split
  · exact touchAcc_sameService _ _ _
  · exact touchPlain_sameService _ _ _

theorem touch_sameService (a n : Nat) (s : State) : SameService s (touch a n s) := .foldl (fun _ _ => touchWord_sameService _ _ _) _ _

theorem wrShown_sameService (a : Nat) (l : List Byte) (s : State) : SameService s (wrShown a l s) := by
  have hbytes (t : State) : SameService t (putBytesAt t a l) := by
    rw [putBytesAt_frame]
    exact .of_tables rfl rfl
  have hpoison (t : State) (w : Nat) (b b' : Bool) : SameService t (putPoison t w b b') := by
    rw [putPoison_frame]
    exact .of_tables rfl rfl
  exact (((SameService.foldl (fun _ _ => touch_sameService _ _ _) _ s).trans (hbytes _)).trans (.foldl (fun t w => hpoison t w _ _) _ _)).trans
    (.of_tables rfl rfl)

theorem carry_sameService (p : NetPkt) (l : List (Nat × Nat)) (s : State) : SameService s (carry p l s).1 := by
  induction l with
  | nil => exact .refl s
  | cons h l ih =>
    unfold carry
    split
    · exact .of_tables rfl rfl
    · exact ih

theorem cxlRespond_sameService (a n : Nat) (s : State) : SameService s (cxlRespond a n s) := by
  have hanswer (p : NetPkt) (t : State) : SameService t (hostAnswer p t) := ⟨fun _ => rfl, fun _ => rfl, fun _ => rfl, rfl, rfl, rfl⟩
  have hrespond (t : State) (d : Nat) (data : List Byte) (poison : List Bool) : SameService t (respond d data poison t) :=
    .ite ((carry_sameService _ _ t).trans (hanswer _ _)) (carry_sameService _ _ t)
  exact (hrespond _ _ _ _).after (touch_sameService a n s)

/-- The requests that a unit held are served; what it serves next is for it to say (R306). -/
theorem serveHeld_serves (u : Nat) (s : State) :
    SameService { s with memTop := { s.memTop with heldReqs := s.memTop.heldReqs.filter (fun r => r.1 != u) } } (serveHeld u s) :=
  .foldl (fun _ _ => .ite (wrShown_sameService _ _ _) (cxlRespond_sameService _ _ _)) _ _

theorem serveHeld_none {s : State} (u : Nat) (h : s.memTop.heldReqs = []) : serveHeld u s = s := by
  have htop : { s.memTop with heldReqs := [] } = s.memTop := by rw [← h]
  simp only [serveHeld, h, List.filter_nil, List.foldl_nil, htop]

/-! ### The rows of the controllers -/

theorem patrolScrubRead_goesOn (s : State) (u : Nat) (hen : s.memTop.scrubEn = true) (hserve : (s.unit u).state = 1) (hzero : (s.unit u).zeroing = false)
    (hhold : (s.unit u).hold = false) (he : s.errs = []) :
    exec (.patrolScrubRead u []) s = .next (s.setUnit u { s.unit u with
      scrubPos := if (s.unit u).scrubPos.toNat + 1 < unitBlocks s u then (s.unit u).scrubPos + 1 else 0 }) := by
  have hclean : (match blockAddr s u (s.unit u).scrubPos.toNat with | some a => touch a 256 s | none => s) = s := by
    split
    · exact touch_noErrs he _ _
    · rfl
  refine congrArg Host.Outcome.next ((if_pos ⟨hen, hserve, hzero, hhold⟩).trans ?_)
  exact congrArg (fun t => t.modUnit u (fun m => { m with scrubPos := if (s.unit u).scrubPos.toNat + 1 < unitBlocks t u then m.scrubPos + 1 else 0 })) hclean

theorem tget_tset_self {α : Type} [DecidableEq α] (d : α) (t : Tab α) (k : Nat) (v : α) : tget d (tset d t k v) k = v :=
  (tget_tset d t k k v).trans (if_pos rfl)

/-- The unit that a change of the table of units names. -/
theorem unit_of_tset {s t : State} {u : Nat} {v : MemUnit} (h : t.units = tset {} s.units u v) : t.unit u = v := by
  rw [State.unit, h, tget_tset_self]

theorem netLink_of_tset {s t : State} {n : Nat} {v : NetLink} (h : t.netLinks = tset {} s.netLinks n v) : t.netLink n = v := by
  rw [State.netLink, h, tget_tset_self]

theorem triggerRetrain_queues (s : State) (u : Nat) (h : s.memTop.retrain ≠ some u) : u ∈ (triggerRetrain u s).memTop.queue := by
  unfold triggerRetrain
  split
  next hwaits => exact List.contains_iff_mem.mp (hwaits.resolve_left h)
  next => exact List.mem_append_right _ List.mem_cons_self

theorem triggerRetrain_frame (s : State) (u : Nat) :
    triggerRetrain u s = { s with memTop := { s.memTop with queue := (triggerRetrain u s).memTop.queue }, units := (triggerRetrain u s).units } := by
  unfold triggerRetrain
  split <;> rfl

theorem triggerRetrain_unit (s : State) (u : Nat) : ∃ q, (triggerRetrain u s).unit u = { s.unit u with queued := q } := by
  unfold triggerRetrain
  split
  · exact ⟨_, rfl⟩
  · exact ⟨true, unit_of_tset rfl⟩

theorem ceRateTrip_queues (s : State) (u : Nat) (hu : u < 28) (hrate : s.memTop.ceRateLimit < (lastSecond s.tim.beat (s.unit u).ceWin).length)
    (hstate : (s.unit u).state = 1 ∨ (s.unit u).state = 2) (hidle : s.memTop.retrain ≠ some u) :
    Completes (.ceRateTrip u) s (fun t => (t.unit u).ceWin = [] ∧ u ∈ t.memTop.queue ∧ (t.unit u).state = (s.unit u).state ∧ t.mem = s.mem) := by
  refine ⟨_, congrArg Host.Outcome.next (if_pos ⟨hu, hrate, hstate⟩), ?_⟩
  generalize hitems : leBytes 1 u ++ leBytes 4 (lastSecond s.tim.beat (s.unit u).ceWin).length = items
  obtain ⟨h, b, w, hpost⟩ := post_eventsOnly 0x0111 items (s.setUnit u { s.unit u with ceWin := [] })
  rw [hpost]
  obtain ⟨q, hunit⟩ := triggerRetrain_unit { s.setUnit u { s.unit u with ceWin := [] } with hostMem := h, mbs := b, stw := w } u
  have hset : State.unit { s.setUnit u { s.unit u with ceWin := [] } with hostMem := h, mbs := b, stw := w } u = { s.unit u with ceWin := [] } :=
    (unit_setUnit s u u _).trans (if_pos rfl)
  rw [hset] at hunit
  refine ⟨by rw [hunit], triggerRetrain_queues _ _ hidle, by rw [hunit], ?_⟩
  rw [triggerRetrain_frame]
  rfl

theorem retrainStart_starts (s : State) (u : Nat) (rest : List Nat) (hidle : s.memTop.retrain = none) (hqueue : s.memTop.queue = u :: rest)
    (hstate : (s.unit u).state ≠ 0) (hzero : (s.unit u).zeroing = false) :
    Completes .retrainStart s (fun t => t.unit u = { s.unit u with state := 2, queued := false } ∧
      t.memTop = { s.memTop with retrain := some u, queue := rest, retrainAt := s.tim.beat } ∧ t = { s with units := t.units, memTop := t.memTop }) := by
  refine ⟨(s.modUnit u (fun m => { m with state := 2, queued := false })).modMemTop (fun t =>
    { t with retrain := some u, queue := rest, retrainAt := s.tim.beat }), ?_, unit_of_tset (s := s) rfl, rfl, rfl⟩
  change execRetrainStart s = _
  simp only [execRetrainStart, hidle, hqueue, hstate, hzero, false_or, Bool.false_eq_true, if_false]

theorem retrainStart_waits (s : State) (u : Nat) (h : s.memTop.retrain = some u) : exec .retrainStart s = .next s := by
  change execRetrainStart s = _
  simp only [execRetrainStart, h]

theorem retrainDone_serves (s : State) (u : Nat) (hbusy : s.memTop.retrain = some u) (hrec : recovering s u = false) :
    Completes (.retrainDone true) s (fun t => (t.unit u).state = 1 ∧ (t.unit u).hold = false ∧ t.memTop.retrain = none ∧ ∀ r, r ∈ t.memTop.heldReqs → r.1 ≠ u) := by
  have hrec' : recovering { s with memTop := { s.memTop with retrain := none } } u = false := hrec
  generalize hs' : (State.modUnit { s with memTop := { s.memTop with retrain := none } } u
    (fun m => { m with state := 1, hold := false, trainTemp := if u < 12 then some (s.die (10 + u)).temp else m.trainTemp })) = s'
  have hunit : s'.unit u = { s.unit u with state := 1, hold := false, trainTemp := if u < 12 then some (s.die (10 + u)).temp else (s.unit u).trainTemp } := by
    rw [← hs']
    exact (unit_modUnit _ _ _ _).trans (if_pos rfl)
  have htop : s'.memTop = { s.memTop with retrain := none } := by rw [← hs']; rfl
  obtain ⟨hstate, hhold, -, hretrain, -, hreqs⟩ := serveHeld_serves u s'
  refine ⟨serveHeld u s', ?_, (hstate u).trans (congrArg MemUnit.state hunit), (hhold u).trans (congrArg MemUnit.hold hunit),
    hretrain.trans (congrArg MemTop.retrain htop), fun r hr => ?_⟩
  · change execRetrainDone true s = _
    simp only [execRetrainDone, hbusy, hrec', Bool.false_eq_true, if_false, if_true, ← hs']
    rfl
  · rw [hreqs] at hr
    simpa using (List.mem_filter.mp hr).2

theorem retrainDone_faults (s : State) (u : Nat) (hbusy : s.memTop.retrain = some u) (hrec : recovering s u = false) (hu : u < 12) :
    exec (.retrainDone false) s = .next (raiseFault 0x21 4 u 0 0 { s with memTop := { s.memTop with retrain := none } }) := by
  have hrec' : recovering { s with memTop := { s.memTop with retrain := none } } u = false := hrec
  change execRetrainDone false s = _
  simp only [execRetrainDone, hbusy, hrec', hu, Bool.false_eq_true, if_false, if_true]

/-- What a table without some entries reads as. -/
theorem tget_filter_key {α : Type} (d : α) (q : Nat → Bool) (l : Tab α) (k : Nat) :
    tget d (l.filter (fun e => q e.1)) k = if q k = true then tget d l k else d := by
  induction l with
  | nil => split <;> rfl
  | cons e l ih =>
    obtain ⟨a, v⟩ := e
    by_cases ha : q a = true
    · rw [List.filter_cons_of_pos (by simpa using ha), tget, tget, ih]
      by_cases hk : a = k
      · rw [if_pos hk, if_pos hk, if_pos (hk ▸ ha)]
      · rw [if_neg hk, if_neg hk]
    · rw [List.filter_cons_of_neg (by simpa using ha), ih, tget]
      by_cases hk : a = k
      · rw [if_neg (hk ▸ ha), if_neg (hk ▸ ha)]
      · rw [if_neg hk]

/-- A unit written as zero reads as zero, and no other byte changes (R301). -/
theorem read_zeroUnit (u : Nat) (s : State) (a : Nat) :
    Memory.read (zeroUnit u s).mem a = if (locOf s a).unit = u then 0 else Memory.read s.mem a := by
  refine (tget_filter_key memDefault (fun a => (locOf s a).unit != u) s.mem a).trans ?_
  by_cases h : (locOf s a).unit = u
  · rw [if_pos h, if_neg (by simp [h])]
    rfl
  · rw [if_neg h, if_pos (by simpa using h)]
    rfl

theorem memoryZeroingDone_zeroes (s : State) (u a : Nat) (hzero : (s.unit u).zeroing = true) (hstate : (s.unit u).state ≠ 2) (hreqs : s.memTop.heldReqs = [])
    (ha : (locOf s a).unit = u) :
    Completes (.memoryZeroingDone u) s (fun t => (t.unit u).zeroing = false ∧ (t.unit u).state = (if (s.unit u).state = 3 then 3 else 1) ∧
      Memory.read t.mem a = 0 ∧ (∀ b, (locOf s b).unit ≠ u → Memory.read t.mem b = Memory.read s.mem b)) := by
  refine ⟨_, congrArg Host.Outcome.next ((if_pos ⟨hzero, hstate⟩).trans (serveHeld_none u hreqs)), ?_⟩
  have hunit := (unit_modUnit (zeroUnit u s) u u fun m => { m with zeroing := false, state := if m.state = 3 then 3 else 1 }).trans (if_pos rfl)
  exact ⟨congrArg MemUnit.zeroing hunit, congrArg MemUnit.state hunit, (read_zeroUnit u s a).trans (if_pos ha), fun b hb => (read_zeroUnit u s b).trans (if_neg hb)⟩

/-! ### Die-to-die links -/

theorem d2dLinkFail_switches (s : State) (n : Nat) (hn : n < 7) (hstate : (s.netLink n).state = 1) (hswitch : (s.netLink n).switching = false)
    (hfew : s.net.fallbacks < 3) :
    Completes (.d2dLinkFail n) s (fun t => t.netLink n = { s.netLink n with switching := true } ∧ t.net = { s.net with fallbacks := s.net.fallbacks + 1 } ∧
      t = { s with net := t.net, netLinks := t.netLinks }) :=
  ⟨_, congrArg Host.Outcome.next ((if_pos ⟨hn, hstate, hswitch⟩).trans (if_neg (Nat.not_le.mpr hfew))), netLink_of_tset (s := s) rfl, rfl, rfl⟩

theorem d2dLinkFail_fourth (s : State) (n : Nat) (hn : n < 7) (hstate : (s.netLink n).state = 1) (hswitch : (s.netLink n).switching = false)
    (hmany : 3 ≤ s.net.fallbacks) : Completes (.d2dLinkFail n) s (fun t => t.flt.deviceError = true) := by
  refine ⟨_, congrArg Host.Outcome.next ((if_pos ⟨hn, hstate, hswitch⟩).trans (if_pos hmany)), ?_⟩
  unfold enterDeviceError
  split
  next h => exact h
  next => rfl

/-- The link of a fallback that is ready, with D2D_FALLBACK posted. -/
def fellBack (n : Nat) (s : State) : State := post 0x0105 (leBytes 1 n) (s.modNetLink n (fun l => { l with state := 2, switching := false }))

theorem fellBack_frame (n : Nat) (s : State) : ∃ h b w, fellBack n s =
    { s with netLinks := tset {} s.netLinks n { s.netLink n with state := 2, switching := false }, hostMem := h, mbs := b, stw := w } :=
  post_eventsOnly _ _ _

theorem d2dFallbackReady_releases (s : State) (n : Nat) (h : (s.netLink n).switching = true) :
    exec (.d2dFallbackReady n) s = .next (netRelease n (fellBack n s)) := congrArg Host.Outcome.next (if_pos h)

/-- One class and direction goes on. -/
def releaseBuf (n : Nat) (s : State) (i : Nat) : State := (s.netBuf (6 * n + i)).foldl (goOn n (i / 3)) (s.setNetBuf (6 * n + i) [])

theorem netRelease_split (n : Nat) (s : State) :
    netRelease n s = [2, 3, 4, 5].foldl (releaseBuf n) (releaseBuf n ([0].foldl (releaseBuf n) s) 1) := rfl

/-- Buffers that are empty hold nothing back: their release leaves all but the table that lists them. -/
theorem release_empty (n : Nat) (l : List Nat) {s : State} (h : ∀ i, i ∈ l → s.netBuf (6 * n + i) = []) :
    ∃ b, l.foldl (releaseBuf n) s = { s with netBufs := b } ∧ ∀ j, tget [] b j = s.netBuf j := by
  induction l generalizing s with
  | nil => exact ⟨_, rfl, fun _ => rfl⟩
  | cons i l ih =>
    have hkeep (j : Nat) : (s.setNetBuf (6 * n + i) []).netBuf j = s.netBuf j := by
      rw [netBuf_setNetBuf]
      split
      next hj => rw [hj, h i List.mem_cons_self]
      next => rfl
    have hone : releaseBuf n s i = s.setNetBuf (6 * n + i) [] := by
      rw [releaseBuf, h i List.mem_cons_self, List.foldl_nil]
    obtain ⟨b, hb, hread⟩ := ih (s := s.setNetBuf (6 * n + i) []) fun j hj => (hkeep _).trans (h j (List.mem_cons_of_mem i hj))
    rw [List.foldl_cons, hone, hb]
    exact ⟨b, rfl, fun j => (hread j).trans (hkeep j)⟩

theorem d2dFallbackReady_switchesOver (s : State) (n : Nat) (hswitch : (s.netLink n).switching = true) (hbufs : ∀ i, i < 6 → s.netBuf (6 * n + i) = []) :
    Completes (.d2dFallbackReady n) s (fun t => t.netLink n = { s.netLink n with state := 2, switching := false } ∧ (∀ j, t.netBuf j = s.netBuf j) ∧
      (∀ m, m ≠ n → t.netLink m = s.netLink m) ∧ t.mem = s.mem ∧ t.memTop = s.memTop) := by
  obtain ⟨h, b, w, hpost⟩ := fellBack_frame n s
  obtain ⟨bufs, hrelease, hread⟩ := release_empty n (List.range 6) (s := fellBack n s) fun i hi => by
    rw [hpost]
    exact hbufs i (List.mem_range.mp hi)
  refine ⟨_, (d2dFallbackReady_releases s n hswitch).trans (congrArg _ hrelease), ?_⟩
  rw [hpost] at hread ⊢
  exact ⟨netLink_of_tset (s := s) rfl, hread, fun m hm => (tget_tset ({} : NetLink) s.netLinks n m { s.netLink n with state := 2, switching := false }).trans (if_neg hm), rfl, rfl⟩

/-- One response waits in the buffer of its class on the way out, and no other link switches: it goes on to the host port (R338). -/
theorem d2dFallbackReady_answers (s : State) (n : Nat) (p : NetPkt) (hswitch : (s.netLink n).switching = true)
    (hothers : ∀ m, m ≠ n → (s.netLink m).switching = false) (hbuf : s.netBuf (6 * n + 1) = [p]) (hbufs : ∀ i, i < 6 → i ≠ 1 → s.netBuf (6 * n + i) = [])
    (hclass : p.cls ≠ 0) :
    Completes (.d2dFallbackReady n) s (fun t => t.memTop = { s.memTop with cxlData := p.data, cxlPoison := p.poison } ∧ t.netBuf (6 * n + 1) = [] ∧
      (t.netLink n).state = 2) := by
  obtain ⟨h, b, w, hpost⟩ := fellBack_frame n s
  obtain ⟨b₀, hfirst, hread₀⟩ := release_empty n [0] (s := fellBack n s) fun i hi => by
    rw [hpost, List.mem_singleton.mp hi]
    exact hbufs 0 (by decide) (by decide)
  generalize hs₁ : ({ fellBack n s with netBufs := b₀ } : State) = s₁ at hfirst
  have hread₁ (j : Nat) : s₁.netBuf j = s.netBuf j := by
    rw [← hs₁]
    refine (hread₀ j).trans ?_
    rw [hpost]
    rfl
  have hlink (m : Nat) : s₁.netLink m = if m = n then { s.netLink n with state := 2, switching := false } else s.netLink m := by
    rw [← hs₁, hpost]
    exact tget_tset {} s.netLinks n m { s.netLink n with state := 2, switching := false }
  have hserve (m : Nat) : (s₁.netLink m).switching = false := by
    rw [hlink]
    split
    next => rfl
    next hm => exact hothers m hm
  have hgo : releaseBuf n s₁ 1 = hostAnswer p (s₁.setNetBuf (6 * n + 1) []) := by
    have hcarry : carry p (hopsLeft n 0 p) (s₁.setNetBuf (6 * n + 1) []) = (s₁.setNetBuf (6 * n + 1) [], true) :=
      carry_arrives p fun x _ => hserve x.1
    rw [releaseBuf, hread₁, hbuf]
    simp only [List.foldl_cons, List.foldl_nil, goOn, hcarry, hclass, Bool.not_true, Bool.false_eq_true, if_false]
  obtain ⟨b₂, hlast, hread₂⟩ := release_empty n [2, 3, 4, 5] (s := hostAnswer p (s₁.setNetBuf (6 * n + 1) [])) fun i hi => by
    have hi' : i < 6 ∧ i ≠ 1 := by fin_cases hi <;> decide
    refine (netBuf_setNetBuf s₁ (6 * n + 1) _ []).trans ((if_neg ?_).trans ((hread₁ _).trans (hbufs i hi'.1 hi'.2)))
    have := hi'.2
    omega
  have hrelease : netRelease n (fellBack n s) = { hostAnswer p (s₁.setNetBuf (6 * n + 1) []) with netBufs := b₂ } := by
    rw [netRelease_split, hfirst, hgo, hlast]
  refine ⟨_, (d2dFallbackReady_releases s n hswitch).trans (congrArg _ hrelease), ?_, (hread₂ _).trans ((netBuf_setNetBuf s₁ _ (6 * n + 1) []).trans (if_pos rfl)),
    congrArg NetLink.state ((hlink n).trans (if_pos rfl))⟩
  rw [← hs₁, hpost]
  rfl

/-- Settles O39: each row by the lemma that says what its meaning leaves. -/
theorem memoryControllerAndDieLinkRowsAct : Obligations.MemoryControllerAndDieLinkRowsAct :=
  ⟨patrolScrubRead_goesOn, ceRateTrip_queues, retrainStart_starts, retrainStart_waits, retrainDone_serves, retrainDone_faults, memoryZeroingDone_zeroes,
    d2dLinkFail_switches, d2dLinkFail_fourth, d2dFallbackReady_switchesOver, d2dFallbackReady_answers,
    fun _ _ h => congrArg Host.Outcome.next (if_neg (by simp [h]))⟩

end Sys2Proof.Machine
end

section
/-! The commands on memory units, regions, partitions and power (R305, R309, R342, R432 to R437). -/

namespace Sys2Proof.Machine

open Sys2Proof State

/-- A command whose body comes to a list of checks that it passes, and does not wait, acts and is answered. -/
theorem runCmd_body_acts {s t : State} {k op : Nat} {c : Cmd} (h : Taken s k op c) {body : Cmd → State → State × Reply} {l : List (Bool × Reply)}
    {act : State → State × Reply} {r : Reply} (hbody : body c s = checked l act s) (hl : orElse l = none) (ha : act s = (t, r)) (hr : r.wait = false) :
    runCmd k op body s = finishCmd k r t := by
  rw [runCmd_taken h, hbody, checked_pass _ _ _ hl, ha, hr]
  rfl

/-! What a list of checks asks of a command that is to pass it. -/

section
variable {b : Bool} {n i j : Nat} {c : Cmd} {l : List (Bool × Reply)}

theorem refuse_passes : orElse (refuse b n :: l) = none ↔ b = false ∧ orElse l = none := by cases b <;> simp
theorem badField_passes : orElse (badField b n :: l) = none ↔ b = false ∧ orElse l = none := by cases b <;> simp
theorem outOfRange_passes : orElse (outOfRange b n :: l) = none ↔ b = false ∧ orElse l = none := by cases b <;> simp
theorem rsvd_passes : orElse (c.rsvd i j :: l) = none ↔ c.at i (j - i) = 0 ∧ orElse l = none := by
  rw [orElse_rsvd]
  split <;> simp [*]

end

/-! ### Memory -/

theorem devMemRetrain_queues (s : State) (k u : Nat) (c : Cmd) (h : Taken s k 0x0121 c) (hunit : c.at 16 1 = u)
    (hplace : u < 12 ∨ (16 ≤ u ∧ u < 28 ∧ licensed s 2 = true)) (hstate : (s.unit u).state = 1 ∨ (s.unit u).state = 2) (hz : c.at 17 47 = 0)
    (hpart : (unitPartOf s u).any (resetting s) = false) (hidle : s.memTop.retrain ≠ some u) :
    Completes (.devMemRetrain k) s (fun t => Answered s t k { status := stAccepted } ∧ u ∈ t.memTop.queue ∧ t.mem = s.mem ∧
      t = { s with cmds := t.cmds, memTop := { s.memTop with queue := t.memTop.queue }, units := t.units }) := by
  subst hunit
  have hframe := triggerRetrain_frame s (c.at 16 1)
  refine ⟨_, congrArg Host.Outcome.next (runCmd_acts h ?_ rfl rfl), answered_finish _ _ _ _ (by rw [hframe]), triggerRetrain_queues s _ hidle, ?_, ?_⟩
  · simp only [refuse_passes, outOfRange_passes, rsvd_passes, orElse_nil, hz, hpart, and_true]
    rcases hplace with hu | ⟨hlow, hhigh, hlic⟩
    · have hlow : ¬ 16 ≤ c.at 16 1 := by omega
      simpa [hu, hlow, or_iff_not_imp_left] using hstate
    · simpa [hlow, hhigh, hlic, or_iff_not_imp_left] using hstate
  · show (triggerRetrain (c.at 16 1) s).mem = s.mem
    rw [hframe]
  · show finishCmd k _ (triggerRetrain (c.at 16 1) s) = _
    rw [hframe]
    rfl

/-! The regions after a change of one. -/

theorem region_set_self (s : State) (i : Nat) (v : Region) {t : State} (h : t.regions = (s.setRegion i v).regions) : t.region i = v :=
  (region_congr _ _ h i).trans ((region_setRegion s i i v).trans (if_pos rfl))

theorem region_set_ne (s : State) (i : Nat) (v : Region) {t : State} (h : t.regions = (s.setRegion i v).regions) {j : Nat} (hj : j ≠ i) : t.region j = s.region j :=
  (region_congr _ _ h j).trans ((region_setRegion s i j v).trans (if_neg hj))

theorem devMemRegion_records (s : State) (k i kd a n : Nat) (c : Cmd) (h : Taken s k 0x0123 c) (hi : c.at 16 1 = i) (hset : c.at 17 1 = 1) (hkd : c.at 18 1 = kd)
    (hkind : kd % 8 ≤ 5) (hkd64 : kd < 64) (hpart : bits kd 4 2 < s.net.parts) (hz₁ : c.at 19 5 = 0) (ha : c.at 24 6 = a)
    (hlic : a < 0x400000000000 ∨ 0x7F0000000000 ≤ a ∨ licensed s 2 = true) (hpage : a % 4096 = 0) (hz₂ : c.at 30 2 = 0) (hn : c.at 32 8 = n) (hn0 : n ≠ 0)
    (hnpage : n % 4096 = 0) (hbad : regionBad s i (kd % 8) (bits kd 4 2) a n = false) (hz₃ : c.at 40 24 = 0) (hreset : resetting s (bits kd 4 2) = false) :
    Completes (.devMemRegion k) s (fun t => Answered s t k {} ∧
      t.region i = { set := true, kind := kd % 8, opsRo := bit kd 3, part := bits kd 4 2, base := a, len := n } ∧
      (∀ j, j ≠ i → t.region j = s.region j) ∧ t = { s with cmds := t.cmds, regions := t.regions }) := by
  have hset' : (c.at 17 1 == 1) = true := by simp [hset]
  subst hi hkd ha hn
  refine ⟨_, congrArg Host.Outcome.next (runCmd_body_acts h (if_pos hset') ?_ rfl rfl), answered_finish _ _ _ _ rfl, region_set_self s _ _ rfl,
    fun j hj => region_set_ne s (c.at 16 1)
      { set := true, kind := c.at 18 1 % 8, opsRo := bit (c.at 18 1) 3, part := bits (c.at 18 1) 4 2, base := c.at 24 6, len := c.at 32 8 } rfl hj, rfl⟩
  have hddr : (decide (0x400000000000 ≤ c.at 24 6 ∧ c.at 24 6 < 0x7F0000000000) && !licensed s 2) = false := by
    rcases hlic with h | h | h
    · simp [Nat.not_le.mpr h]
    · simp [Nat.not_lt.mpr h]
    · simp [h]
  simp only [refuse_passes, badField_passes, outOfRange_passes, rsvd_passes, orElse_nil, hddr, hz₁, hz₂, hz₃, hbad, hreset, and_true, true_and]
  simp [hpage, hn0, hnpage, hkind, hpart, Nat.le_of_lt_succ hkd64]

theorem devMemRegion_clears (s : State) (k i : Nat) (c : Cmd) (h : Taken s k 0x0123 c) (hi : c.at 16 1 = i) (hset : c.at 17 1 = 0) (hz : c.at 18 46 = 0)
    (hreset : ((s.region i).set && resetting s (s.region i).part) = false) :
    Completes (.devMemRegion k) s (fun t => Answered s t k {} ∧ t.region i = {} ∧ (∀ j, j ≠ i → t.region j = s.region j) ∧
      t = { s with cmds := t.cmds, regions := t.regions }) := by
  have hset' : ¬ (c.at 17 1 == 1) = true := by simp [hset]
  subst hi
  refine ⟨_, congrArg Host.Outcome.next (runCmd_body_acts h (if_neg hset') ?_ rfl rfl), answered_finish _ _ _ _ rfl, region_set_self s _ _ rfl,
    fun j hj => region_set_ne s (c.at 16 1) {} rfl hj, rfl⟩
  simp only [refuse_passes, badField_passes, rsvd_passes, orElse_nil, hset, hz, hreset, and_true]
  decide

/-! ### The number of partitions -/

/-- What the writing of every stack as zero leaves alone. -/
theorem zeroUnits_frame (l : List Nat) (s : State) :
    l.foldl (fun s u => zeroUnit u s) s = { s with mem := (l.foldl (fun s u => zeroUnit u s) s).mem, poison := (l.foldl (fun s u => zeroUnit u s) s).poison,
                                                   errs := (l.foldl (fun s u => zeroUnit u s) s).errs } := by
  induction l generalizing s with
  | nil => rfl
  | cons u l ih =>
    rw [List.foldl_cons, ih]
    rfl

theorem freeDir_valid (s : State) (i : Nat) : ((freeDir (fun _ => true) s).dirEntry i).valid = false :=
  tget_tmap (d := ({} : Dir)) (g := fun _ d => { ({} : Dir) with gen := if d.valid then (d.gen + 1) % 65536 else d.gen }) (P := fun d : Dir => d.valid = false) rfl
    (fun _ _ => rfl) s.dir i

theorem freeObjects_all (s : State) : freeObjects (fun _ => true) s =
    { freeDir (fun _ => true) s with tokens := [], rowMaps := [], ctxs := [], manifest := [], swaps := [], seq := { s.seq with hidden := [] } } := by
  simp only [freeObjects, Bool.not_true, List.filter_false]
  rfl

theorem devPartitionConfig_empties (s : State) (k p : Nat) (c : Cmd) (h : Taken s k 0x0130 c) (hp : c.at 16 1 = p)
    (hcount : p = 1 ∨ ((p = 2 ∨ p = 4) ∧ licensed s 3 = true)) (hz : c.at 17 47 = 0)
    (hreset : s.parts.any (fun x => x.2.resetting || x.2.resetReq) = false) (hbusy : configBusy s = false) (hnext : s.net.partsNext = none) :
    Completes (.devPartitionConfig k) s (fun t => Answered s t k {} ∧ t.net = { s.net with partsNext := some p } ∧ t.tokens = [] ∧ t.rowMaps = [] ∧ t.manifest = [] ∧
      t.ctxs = [] ∧ t.swaps = [] ∧ (∀ i, (t.dirEntry i).valid = false) ∧ t.wts = {} ∧ t.sec = (extendConfig c s).sec ∧ t.acc = s.acc) := by
  subst hp
  have hframe := zeroUnits_frame (List.range 12) (freeObjects (fun _ => true) (extendConfig c s))
  refine ⟨_, congrArg Host.Outcome.next (runCmd_acts h ?_ rfl rfl), ?_⟩
  · simp [hz, hreset, hbusy, hnext]
    rcases hcount with hp | ⟨hp | hp, hl⟩ <;> simp [*]
  · rw [hframe, freeObjects_all]
    exact ⟨answered_finish _ _ _ _ rfl, rfl, rfl, rfl, rfl, rfl, rfl, fun i => freeDir_valid _ i, rfl, rfl, rfl⟩

/-! ### Power -/

theorem powerState_waits (s : State) (k : Nat) (c : Cmd) (h : Taken s k 0x0202 c) (hv : c.at 16 1 = 1) (hz : c.at 17 47 = 0) (hstep : s.bu.step = 10)
    (hnext : s.pwr.next = none) (hstate : s.pwr.state = 0) (hops : ∀ o, o ∈ s.ops → o.code ≠ 0x01) :
    Completes (.powerState k) s (fun t => Waiting t k ∧ t.pwr = { s.pwr with next := some 1, cmd := some k } ∧
      t = { s with cmds := t.cmds, pwr := t.pwr, sec := (extendConfig c s).sec }) := by
  refine ⟨_, congrArg Host.Outcome.next (runCmd_waits h ?_ (Eq.trans (if_neg ?_) (Eq.trans (if_neg ?_) (if_pos hv))) rfl), waiting_start h _ _ rfl, rfl, rfl⟩
  · simpa [hv, hz, hstep, hnext, hstate] using hops
  · rw [hv]
    decide
  · rw [hv]
    exact fun h => absurd (h.trans hstate) (by decide)

theorem powerState_off (s : State) (k : Nat) (c : Cmd) (h : Taken s k 0x0202 c) (hv : c.at 16 1 = 3) (hz : c.at 17 47 = 0) (hstep : s.bu.step = 10)
    (hnext : s.pwr.next = none) (hstate : s.pwr.state = 0) (hops : s.ops = []) :
    Completes (.powerState k) s (fun t => Answered s t k {} ∧ t.pwr.next = some 3 ∧ t.pwr.state = 0) := by
  refine ⟨_, congrArg Host.Outcome.next (runCmd_acts h ?_ (if_pos hv) rfl), answered_finish _ _ _ _ ?_, ?_, ?_⟩
  · simp [hv, hz, hstep, hnext, hstate, hops]
  all_goals
    unfold postPower
    rw [(post_eventsOnly _ _ _).frame]
  · rfl
  · rfl
  · exact hstate

theorem powerState_busy (s : State) (k : Nat) (c : Cmd) (h : Taken s k 0x0202 c) (hv : c.at 16 1 = 1) (hz : c.at 17 47 = 0) (hstep : s.bu.step = 10)
    (hnext : s.pwr.next = none) (hstate : s.pwr.state = 0) (hops : ∃ o, o ∈ s.ops ∧ o.code = 0x01) :
    Completes (.powerState k) s (fun t => Answered s t k { status := stBusy } ∧ t = { s with cmds := t.cmds }) := by
  refine ⟨_, congrArg Host.Outcome.next (runCmd_refused h (r := { status := stBusy }) ?_ rfl), answered_finish _ _ _ _ rfl, rfl⟩
  obtain ⟨o, ho, hcode⟩ := hops
  have hany : s.ops.any (fun o => o.code == 0x01) = true := List.any_eq_true.mpr ⟨o, ho, by simp [hcode]⟩
  simp [hv, hz, hstep, hnext, hstate, hany, Reply.no]

theorem powerDomain_off (s : State) (k d : Nat) (c : Cmd) (h : Taken s k 0x0203 c) (hd : c.at 16 1 = d) (hlt : d < 208) (hon : c.at 17 1 = 0) (hz : c.at 18 46 = 0)
    (hdep : (dependants d).any (fun x => s.pwr.on.contains x) = false) (hidle : s.pwr.on.contains d = false ∨ domainIdle s d = true) :
    Completes (.powerDomain k) s (fun t => Answered s t k {} ∧ d ∉ t.pwr.on ∧ (∀ x, x ≠ d → (x ∈ t.pwr.on ↔ x ∈ s.pwr.on)) ∧
      t = { s with cmds := t.cmds, pwr := t.pwr }) := by
  subst hd
  refine ⟨_, congrArg Host.Outcome.next (runCmd_acts h ?_ (congrArg (·, ({} : Reply)) (if_neg (by simp [hon]))) rfl), answered_finish _ _ _ _ rfl, ?_, fun x hx => ?_, rfl⟩
  · simp only [refuse_passes, badField_passes, outOfRange_passes, rsvd_passes, orElse_nil, hon, hz, hdep, and_true]
    simpa [hlt, or_iff_not_imp_left] using hidle
  · exact fun hmem => by simpa using (List.mem_filter.mp hmem).2
  · exact List.mem_filter.trans (and_iff_left (by simpa using hx))

theorem powerDomain_on (s : State) (k d : Nat) (c : Cmd) (h : Taken s k 0x0203 c) (hd : c.at 16 1 = d) (hlt : d < 208) (hon : c.at 17 1 = 1) (hz : c.at 18 46 = 0)
    (hpre : (prerequisite d).any (fun x => !s.pwr.on.contains x) = false) :
    Completes (.powerDomain k) s (fun t => Answered s t k {} ∧ d ∈ t.pwr.on ∧ t = { s with cmds := t.cmds, pwr := t.pwr }) := by
  subst hd
  refine ⟨_, congrArg Host.Outcome.next (runCmd_acts h ?_ (congrArg (·, ({} : Reply)) (if_pos (by simp [hon]))) rfl), answered_finish _ _ _ _ rfl, ?_, rfl⟩
  · simp only [refuse_passes, badField_passes, outOfRange_passes, rsvd_passes, orElse_nil, hon, hz, hpre, and_true]
    simp [hlt]
  · exact List.mem_filter.mpr ⟨List.mem_range.mpr (by omega), by simp⟩

/-- Settles O41: each command by the checks it passes and the state it leaves. -/
theorem memoryPartitionAndPowerCommandsRun : Obligations.MemoryPartitionAndPowerCommandsRun :=
  ⟨devMemRetrain_queues, devMemRegion_records, devMemRegion_clears, devPartitionConfig_empties, powerState_waits, powerState_off, powerState_busy,
    powerDomain_off, powerDomain_on⟩

end Sys2Proof.Machine
end

section
/-! A partition's reset: it is asked for, takes effect and is released (R343 to R345, R402). -/

namespace Sys2Proof.Machine

open Sys2Proof State

/-! ### What stores and responses leave -/

/-- `t` is `s` but for accumulators and memory, the units' counts, the die-to-die buffers and the host's port, what the host sees, and what events write. -/
def MemoryOnly (s t : State) : Prop :=
  ∃ a m p e u top n q h b w, t = { s with acc := a, mem := m, poison := p, errs := e, units := u, memTop := top, netBufs := n, seq := q, hostMem := h, mbs := b, stw := w }

section
variable {s t u : State}

theorem MemoryOnly.refl (s : State) : MemoryOnly s s := ⟨_, _, _, _, _, _, _, _, _, _, _, rfl⟩

theorem MemoryOnly.trans (h : MemoryOnly s t) (h' : MemoryOnly t u) : MemoryOnly s u := by
  obtain ⟨_, _, _, _, _, _, _, _, _, _, _, rfl⟩ := h
  obtain ⟨_, _, _, _, _, _, _, _, _, _, _, rfl⟩ := h'
  exact ⟨_, _, _, _, _, _, _, _, _, _, _, rfl⟩

theorem MemoryOnly.foldl {α : Type} {f : State → α → State} (h : ∀ s a, MemoryOnly s (f s a)) (l : List α) (s : State) :
    MemoryOnly s (l.foldl f s) := foldl_inv (MemoryOnly s) f (fun t a ht => ht.trans (h t a)) l s (.refl s)

theorem MemoryOnly.ite {c : Prop} [Decidable c] (h : MemoryOnly s t) (h' : MemoryOnly s u) : MemoryOnly s (if c then t else u) := by
  split
  · exact h
  · exact h'

theorem EventsOnly.memoryOnly (h : EventsOnly s t) : MemoryOnly s t := by
  obtain ⟨_, _, _, rfl⟩ := h
  exact ⟨_, _, _, _, _, _, _, _, _, _, _, rfl⟩

end

theorem countCe_memoryOnly (u : Nat) (s : State) : MemoryOnly s (countCe u s) := .ite ⟨_, _, _, _, _, _, _, _, _, _, _, rfl⟩ (.refl s)

theorem countUe_memoryOnly (u a : Nat) (s : State) : MemoryOnly s (countUe u a s) := by
  have hset (t : State) (m : MemUnit) (top : MemTop) : MemoryOnly t ({ t with memTop := top }.setUnit u m) := ⟨_, _, _, _, _, _, _, _, _, _, _, rfl⟩
  have htop : MemoryOnly s { s with memTop := { s.memTop with lastUe := a } } := ⟨_, _, _, _, _, _, _, _, _, _, _, rfl⟩
  exact .ite (.ite ((hset _ _ _).trans (post_eventsOnly _ _ _).memoryOnly) (hset _ _ _)) (htop.trans (post_eventsOnly _ _ _).memoryOnly)

theorem touchAcc_memoryOnly (s : State) (w : Nat) (e : BitVec 80) : MemoryOnly s (touchAcc s w e) := by
  have hcells (a b : Nat) (f g : AccCell → AccCell) : MemoryOnly s (((s.modAccCell a f).modAccCell b g).setErr w 0) := ⟨_, _, _, _, _, _, _, _, _, _, _, rfl⟩
  exact .ite ((hcells _ _ _ _).trans (countUe_memoryOnly _ _ _)) (hcells _ _ _ _)

theorem touchPlain_memoryOnly (s : State) (w : Nat) (e : BitVec 80) : MemoryOnly s (touchPlain s w e) := by
  have hword (d : BitVec 64) (p : Bool) : MemoryOnly s (((putWord s w d).setErr w 0).setPoisoned w p) := ⟨_, _, _, _, _, _, _, _, _, _, _, rfl⟩
  unfold touchPlain
  dsimp only
  split
  · exact .ite (hword _ _) ((hword _ _).trans (countCe_memoryOnly _ _))
  · exact (hword _ _).trans (countUe_memoryOnly _ _ _)

theorem touch_memoryOnly (a n : Nat) (s : State) : MemoryOnly s (touch a n s) := by
  refine .foldl (fun t x => ?_) _ _
  unfold touchWord
  split
  · exact touchAcc_memoryOnly _ _ _
  · exact touchPlain_memoryOnly _ _ _

theorem wrBytes_memoryOnly (a : Nat) (l : List Byte) (bad : Nat → Bool) (s : State) : MemoryOnly s (wrBytes a l bad s) := by
  have hbytes (t : State) : MemoryOnly t (putBytesAt t a l) := by
    rw [putBytesAt_frame]
    exact ⟨_, _, _, _, _, _, _, _, _, _, _, rfl⟩
  have hpoison (t : State) (w : Nat) (b b' : Bool) : MemoryOnly t (putPoison t w b b') := by
    rw [putPoison_frame]
    exact ⟨_, _, _, _, _, _, _, _, _, _, _, rfl⟩
  exact ((MemoryOnly.foldl (fun _ _ => touch_memoryOnly _ _ _) _ s).trans (hbytes _)).trans (.foldl (fun t w => hpoison t w _ _) _ _)

theorem wrShown_memoryOnly (a : Nat) (l : List Byte) (s : State) : MemoryOnly s (wrShown a l s) :=
  (wrBytes_memoryOnly a l _ s).trans ⟨_, _, _, _, _, _, _, _, _, _, _, rfl⟩

theorem carry_memoryOnly (p : NetPkt) (l : List (Nat × Nat)) (s : State) : MemoryOnly s (carry p l s).1 := by
  induction l with
  | nil => exact .refl s
  | cons h l ih =>
    unfold carry
    split
    · exact ⟨_, _, _, _, _, _, _, _, _, _, _, rfl⟩
    · exact ih

theorem respond_memoryOnly (d : Nat) (data : List Byte) (poison : List Bool) (s : State) : MemoryOnly s (respond d data poison s) :=
  .ite ((carry_memoryOnly _ _ s).trans ⟨_, _, _, _, _, _, _, _, _, _, _, rfl⟩) (carry_memoryOnly _ _ s)

theorem cxlRespond_memoryOnly (a n : Nat) (s : State) : MemoryOnly s (cxlRespond a n s) := (touch_memoryOnly a n s).trans (respond_memoryOnly _ _ _ _)

theorem serveHeld_memoryOnly (u : Nat) (s : State) : MemoryOnly s (serveHeld u s) := by
  have htop : MemoryOnly s { s with memTop := { s.memTop with heldReqs := s.memTop.heldReqs.filter (fun r => r.1 != u) } } :=
    ⟨_, _, _, _, _, _, _, _, _, _, _, rfl⟩
  exact htop.trans (.foldl (fun _ _ => .ite (wrShown_memoryOnly _ _ _) (cxlRespond_memoryOnly _ _ _)) _ _)

theorem sendWord_memoryOnly (a : Nat) (l : List Byte) (s : State) : MemoryOnly s (sendWord a l s) :=
  .ite ⟨_, _, _, _, _, _, _, _, _, _, _, rfl⟩ (wrShown_memoryOnly a l s)

/-! ### What the retire of an op leaves besides the ops -/

/-- From `s` to `t` partitions, the package network and the device error stand, no disable arises, and every answer stands. -/
structure Steady (s t : State) : Prop where
  parts : t.parts = s.parts
  net : t.net = s.net
  error : t.flt.deviceError = s.flt.deviceError
  disabling : ∀ d, d ∈ t.flt.disabling → d ∈ s.flt.disabling
  answers : ∀ k c, cmdOf s k = some c → c.decided = true → ∃ c', cmdOf t k = some c' ∧ c'.decided = true ∧ c'.status = c.status

section
variable {s t u : State}

theorem Steady.of_tables (hparts : t.parts = s.parts) (hnet : t.net = s.net) (hflt : t.flt = s.flt) (hcmds : t.cmds = s.cmds) : Steady s t :=
  ⟨hparts, hnet, by rw [hflt], fun d hd => hflt ▸ hd, fun k c hc hd => ⟨c, (cmdOf_congr hcmds k).trans hc, hd, rfl⟩⟩

theorem Steady.refl (s : State) : Steady s s := .of_tables rfl rfl rfl rfl

theorem Steady.trans (h : Steady s t) (h' : Steady t u) : Steady s u := by
  refine ⟨h'.parts.trans h.parts, h'.net.trans h.net, h'.error.trans h.error, fun d hd => h.disabling d (h'.disabling d hd), fun k c hc hd => ?_⟩
  obtain ⟨c₁, hc₁, hd₁, hs₁⟩ := h.answers k c hc hd
  obtain ⟨c₂, hc₂, hd₂, hs₂⟩ := h'.answers k c₁ hc₁ hd₁
  exact ⟨c₂, hc₂, hd₂, hs₂.trans hs₁⟩

/-- `trans` with the later step first: the goal names that one, and so gives the state between. -/
theorem Steady.after (h' : Steady t u) (h : Steady s t) : Steady s u := h.trans h'

theorem Steady.ite {c : Prop} [Decidable c] (h : Steady s t) (h' : Steady s u) : Steady s (if c then t else u) := by
  split
  · exact h
  · exact h'

theorem Steady.foldl {α : Type} {f : State → α → State} (h : ∀ s a, Steady s (f s a)) (l : List α) (s : State) : Steady s (l.foldl f s) :=
  foldl_inv (Steady s) f (fun t a ht => ht.trans (h t a)) l s (.refl s)

theorem MemoryOnly.steady (h : MemoryOnly s t) : Steady s t := by
  obtain ⟨_, _, _, _, _, _, _, _, _, _, _, rfl⟩ := h
  exact .of_tables rfl rfl rfl rfl

end

/-- A change of a command that keeps its key and its answer. -/
theorem modCmd_steady (k : Nat) {g : Cmd → Cmd} (hkey : ∀ c, (g c).key = c.key)
    (hanswer : ∀ c, c.decided = true → (g c).decided = true ∧ (g c).status = c.status) (s : State) : Steady s (modCmd k g s) := by
  refine ⟨rfl, rfl, rfl, fun _ hd => hd, fun j c hc hd => ?_⟩
  rw [cmdOf_modCmd k j g hkey, hc]
  by_cases hj : j = k
  · obtain ⟨hd', hs'⟩ := hanswer c hd
    exact ⟨g c, congrArg some (if_pos hj), hd', hs'⟩
  · exact ⟨c, congrArg some (if_neg hj), hd, rfl⟩

theorem answer_of_decided {c : Cmd} (h : c.decided = true) (r : Reply) : c.answer r = c := if_pos h

theorem finishCmd_steady (k : Nat) (r : Reply) (s : State) : Steady s (finishCmd k r s) :=
  modCmd_steady k (fun _ => answer_key _ _) (fun c hd => by rw [answer_of_decided hd]; exact ⟨hd, rfl⟩) s

theorem markFenced_steady (kind index sub : Nat) (s : State) : Steady s (markFenced kind index sub s) := by
  have hmemory (u : Nat) (m : MemUnit → MemUnit) (f : Tab Dir → Tab Dir) : Steady s (serveHeld u ((s.modUnit u m).modDir f)) :=
    (serveHeld_memoryOnly u _).steady.after (.of_tables rfl rfl rfl rfl)
  unfold markFenced
  split
  case h_5 => exact hmemory _ _ _
  case h_6 => exact hmemory _ _ _
  all_goals exact .of_tables rfl rfl rfl rfl

theorem endDisable_steady (s : State) (d : Nat × Nat × Nat × Nat × Nat) : Steady s (endDisable s d) := by
  have hends : Steady s { s with flt := { s.flt with disabling := s.flt.disabling.filter (fun x => x != d) } } :=
    ⟨rfl, rfl, rfl, fun x hx => (List.mem_filter.mp hx).1, fun _ c hc hd => ⟨c, hc, hd, rfl⟩⟩
  exact .ite (.refl s) ((((finishCmd_steady _ _ _).after (post_eventsOnly _ _ _).memoryOnly.steady).after (markFenced_steady _ _ _ _)).after hends)

theorem countAbort_steady (o : Op) (reason : Nat) (s : State) (k : Nat) : Steady s (countAbort o reason s k) := by
  unfold countAbort
  extract_lets t
  have ht : Steady s t := modCmd_steady k (fun _ => by rfl) (fun _ hd => by exact ⟨hd, rfl⟩) s
  split
  · refine .ite (((finishCmd_steady k _ _).after ?_).after ht) ht
    exact .of_tables rfl rfl rfl rfl
  · exact ht

theorem retireAnswered_steady (o : Op) (reason : Nat) (s : State) : Steady s (retireAnswered o reason s) :=
  (Steady.foldl (fun _ _ => countAbort_steady _ _ _ _) _ s).trans (.foldl (fun _ _ => endDisable_steady _ _) _ _)

theorem retireEnd_steady (k : Nat) (o : Op) (ab : Bool) (reason detail : Nat) (s : State) : Steady s (retireEnd k o ab reason detail s) := by
  have hclear : Steady s (retireCleared o ab s) := by
    obtain ⟨m, l, q, e, c, f, h⟩ := retireCleared_frame o ab s
    rw [h]
    exact .of_tables rfl rfl rfl rfl
  have hcount (t : State) : Steady t (retireCounted k o t) := by
    obtain ⟨h, b, w, hframe⟩ := retireCounted_frame k o t
    rw [hframe]
    exact .of_tables rfl rfl rfl rfl
  exact ((hclear.trans (sendWord_memoryOnly _ _ _).steady).trans (hcount _)).trans (retireAnswered_steady _ _ _)

theorem retire_steady (k : Nat) (ab : Bool) (reason detail : Nat) (s : State) : Steady s (retire k ab reason detail s) := by
  by_cases herror : s.flt.deviceError = true
  · rw [retire_deviceError k ab reason detail herror]
    exact .refl s
  · cases hop : opOf s k with
    | none =>
      rw [retire, hop]
      exact .refl s
    | some o =>
      rw [retire_eq hop (by simpa using herror)]
      exact retireEnd_steady _ _ _ _ _ _

/-- A retire takes every op of its key from the window. -/
theorem retire_ops {s : State} (herror : s.flt.deviceError = false) (k : Nat) (ab : Bool) (reason detail : Nat) :
    (retire k ab reason detail s).ops = s.ops.filter (fun x => x.key != k) := by
  cases hop : opOf s k with
  | none =>
    rw [retire, hop]
    refine (List.filter_eq_self.mpr fun x hx => ?_).symm
    simpa using List.find?_eq_none.mp hop x hx
  | some o =>
    obtain ⟨fl, hfl⟩ := flagIf_eq (reason == 8) fDegraded o
    rw [retire_eq hop herror, hfl]
    have hkey : o.key = k := opOf_key hop
    exact (retireEnd_claims (o := { o with flags := fl }) hkey ab reason detail s).1

theorem mem_retire {o : Op} {k : Nat} {ab : Bool} {reason detail : Nat} {s : State} (h : o ∈ (retire k ab reason detail s).ops) (herror : s.flt.deviceError = false) :
    o ∈ s.ops ∧ o.key ≠ k := by
  rw [retire_ops herror] at h
  simpa using List.mem_filter.mp h

/-! ### The ops of a partition -/

theorem retireAll_steady (ks : List Nat) (reason : Nat) (s : State) : Steady s (retireAll ks reason s) := .foldl (fun _ _ => retire_steady _ _ _ _ _) ks s

theorem mem_retireAll {o : Op} {ks : List Nat} {reason : Nat} {s : State} (herror : s.flt.deviceError = false) (h : o ∈ (retireAll ks reason s).ops) :
    o ∈ s.ops ∧ o.key ∉ ks := by
  induction ks generalizing s with
  | nil => exact ⟨h, List.not_mem_nil⟩
  | cons k ks ih =>
    obtain ⟨hmem, hks⟩ := ih ((retire_steady _ _ _ _ _).error.trans herror) h
    obtain ⟨hmem, hkey⟩ := mem_retire hmem herror
    exact ⟨hmem, fun hk => (List.mem_cons.mp hk).elim hkey hks⟩

theorem abortQueued_steady (st reason : Nat) (s : State) (q : Nat × Nat) : Steady s (abortQueued st reason s q) := by
  unfold abortQueued
  split
  · exact .refl s
  · exact (retire_steady _ _ _ _ _).after (.of_tables rfl rfl rfl rfl)

/-- A queued descriptor that an abort takes leaves no op behind. -/
theorem mem_abortQueued {o : Op} {st reason : Nat} {s : State} {q : Nat × Nat} (herror : s.flt.deviceError = false) (h : o ∈ (abortQueued st reason s q).ops) :
    o ∈ s.ops := by
  unfold abortQueued at h
  split at h
  · exact h
  · obtain ⟨hmem, hkey⟩ := mem_retire h herror
    rcases List.mem_append.mp hmem with hmem | hmem
    · exact hmem
    · exact absurd (congrArg Op.key (List.mem_singleton.mp hmem)) hkey

theorem abortPartition_steady (p reason : Nat) (s : State) : Steady s (abortPartition p reason s) :=
  (retireAll_steady _ _ _).trans (.foldl (fun _ _ => .foldl (fun _ _ => abortQueued_steady _ _ _ _) _ _) _ _)

theorem mem_abortPartition {o : Op} {p reason : Nat} {s : State} (herror : s.flt.deviceError = false) (h : o ∈ (abortPartition p reason s).ops) :
    o ∈ s.ops ∧ o.part s ≠ p := by
  have hqueued (t : State) (st : Nat) (l : List (Nat × Nat)) (ht : t.flt.deviceError = false ∧ (o ∈ t.ops → o ∈ s.ops ∧ o.part s ≠ p)) :
      (l.foldl (abortQueued st reason) t).flt.deviceError = false ∧ (o ∈ (l.foldl (abortQueued st reason) t).ops → o ∈ s.ops ∧ o.part s ≠ p) :=
    foldl_inv (fun t : State => t.flt.deviceError = false ∧ (o ∈ t.ops → o ∈ s.ops ∧ o.part s ≠ p)) _
      (fun t q ht => ⟨(abortQueued_steady _ _ _ _).error.trans ht.1, fun h => ht.2 (mem_abortQueued ht.1 h)⟩) l t ht
  refine (foldl_inv (fun t : State => t.flt.deviceError = false ∧ (o ∈ t.ops → o ∈ s.ops ∧ o.part s ≠ p)) _ (fun t st ht => hqueued t st _ ht) _ _ ⟨?_, fun h => ?_⟩).2 h
  · exact (retireAll_steady _ _ _).error.trans herror
  · obtain ⟨hmem, hkey⟩ := mem_retireAll herror h
    exact ⟨hmem, fun hpart => hkey (List.mem_map.mpr ⟨o, List.mem_filter.mpr ⟨hmem, by simpa using hpart⟩, rfl⟩)⟩

/-! ### The effect of a reset -/

/-- The reset of what a partition owns but its ops: its objects, its fields' SRAM and cores, its stacks and its copies. -/
def clearPartition (p : Nat) (s : State) : State :=
  let s := freeObjects (fun q => q == p) s
  let s := (fieldsOfPart s p).foldl (fun s f => zeroField f s) s
  let s := ((fieldsOfPart s p).map coresOf).flatten.foldl (fun (s : State) c => s.modCoreOf c (fun y =>
    if y.state = 3 then y else { y with state := 0, launch := none, stalled := false, dmaLeft := 0, barrier := 0, resident := none, verified := false
                                        poison := false, poisonNext := false, dma := [] })) s
  let s := (liveStacks s p).foldl (fun (s : State) u => s.modUnit u (fun m => { m with zeroing := true })) s
  let l := windowStacks s p
  let b := windowBase s.net.parts p
  let out := fun (a : Nat) => !(decide (b ≤ a ∧ a < b + l.length * stackBytes))
  { s with wts := { s.wts with hot := s.wts.hot.filter (fun e => out e.1), hotBusy := s.wts.hotBusy.filter (fun e => out e.1) } }

/-- The command that asked for the reset is accepted; those that name the partition are refused (R343, R402). -/
def answerReset (p k : Nat) (s : State) : State := refuseNaming p ((finishCmd k { status := stAccepted } s).setPartOf p { resetting := true })

theorem partitionResetEffective_eq {s : State} {p k : Nat} (hreq : (s.partOf p).resetReq = true) (hp : p < s.net.parts) (hcmd : (s.partOf p).cmd = some k) :
    exec (.partitionResetEffective p) s = .next (clearPartition p (abortPartition p 9 (answerReset p k s))) := by
  refine congrArg Host.Outcome.next ((if_pos ⟨hreq, hp⟩).trans ?_)
  simp only [hcmd]
  rfl

/-- The SRAM that a reset zeroes field by field. -/
def zeroFields (p : Nat) (s : State) : State := (fieldsOfPart s p).foldl (fun s f => zeroField f s) s

theorem zeroFields_frame (p : Nat) (s : State) : ∃ q, zeroFields p s =
    { s with mem := (zeroFields p s).mem, poison := (zeroFields p s).poison, errs := (zeroFields p s).errs, acc := (zeroFields p s).acc, seq := q } := by
  have h := foldl_inv (fun t : State => ∃ m p e a q, t = { s with mem := m, poison := p, errs := e, acc := a, seq := q }) (fun s f => zeroField f s)
    (by rintro t f ⟨_, _, _, _, _, rfl⟩; exact ⟨_, _, _, _, _, rfl⟩) (fieldsOfPart s p) s ⟨_, _, _, _, _, rfl⟩
  obtain ⟨m, po, e, a, q, h⟩ := h
  exact ⟨q, by rw [zeroFields, h]⟩

theorem clearPartition_frame (p : Nat) (s : State) : ∃ c u w q, clearPartition p s =
    { zeroFields p (freeObjects (fun q => q == p) s) with cores := c, units := u, wts := w, seq := q } := by
  have hcores (l : List Nat) (g : Core → Core) (t : State) : ∃ c, l.foldl (fun s c => s.modCoreOf c g) t = { t with cores := c } :=
    foldl_inv (fun u : State => ∃ c, u = { t with cores := c }) _ (by rintro u a ⟨_, rfl⟩; exact ⟨_, rfl⟩) l t ⟨_, rfl⟩
  have hunits (l : List Nat) (g : MemUnit → MemUnit) (t : State) : ∃ c, l.foldl (fun s c => s.modUnit c g) t = { t with units := c } :=
    foldl_inv (fun u : State => ∃ c, u = { t with units := c }) _ (by rintro u a ⟨_, rfl⟩; exact ⟨_, rfl⟩) l t ⟨_, rfl⟩
  unfold clearPartition
  extract_lets s₁ s₂ s₃ s₄ l b out
  obtain ⟨c, hc⟩ : ∃ c, s₃ = { s₂ with cores := c } := hcores _ _ _
  obtain ⟨u, hu⟩ : ∃ u, s₄ = { s₃ with units := u } := hunits _ _ _
  refine ⟨c, u, { s₄.wts with hot := s₄.wts.hot.filter (fun e => out e.1), hotBusy := s₄.wts.hotBusy.filter (fun e => out e.1) }, s₂.seq, ?_⟩
  rw [hu, hc]
  rfl

theorem read_zeroRange_in (a n : Nat) (s : State) {x : Nat} (h : a ≤ x ∧ x < a + n) : Memory.read (zeroRange a n s).mem x = 0 :=
  (tget_filter_key memDefault (fun x => !decide (a ≤ x ∧ x < a + n)) s.mem x).trans (if_neg (by simpa using h))

/-- What reads as zero still does when a range is zeroed. -/
theorem read_zeroRange_zero (a n : Nat) {s : State} {x : Nat} (h : Memory.read s.mem x = 0) : Memory.read (zeroRange a n s).mem x = 0 := by
  refine (tget_filter_key memDefault (fun x => !decide (a ≤ x ∧ x < a + n)) s.mem x).trans ?_
  split
  · exact h
  · rfl

theorem read_zeroField_zero (f : Nat) {s : State} {x : Nat} (h : Memory.read s.mem x = 0) : Memory.read (zeroField f s).mem x = 0 :=
  read_zeroRange_zero _ _ (read_zeroRange_zero _ _ (read_zeroRange_zero _ _ h))

theorem read_zeroField_in (f : Nat) (s : State) {x : Nat} (hx : 0x7F0000000000 + 0x2000000 * f ≤ x ∧ x < 0x7F0000000000 + 0x2000000 * f + 0x1800000) :
    Memory.read (zeroField f s).mem x = 0 := by
  unfold zeroField
  dsimp only
  exact read_zeroRange_zero _ _ (read_zeroRange_zero _ _ (read_zeroRange_in _ _ _ hx))

/-- The feed SRAM of the partition reads as zero (R344). -/
theorem read_zeroFields {p f : Nat} {s : State} (hf : f ∈ fieldsOfPart s p) {x : Nat}
    (hx : 0x7F0000000000 + 0x2000000 * f ≤ x ∧ x < 0x7F0000000000 + 0x2000000 * f + 0x1800000) : Memory.read (zeroFields p s).mem x = 0 :=
  foldl_reaches (I := fun _ => True) (Q := fun t : State => Memory.read t.mem x = 0) hf (fun _ _ h => h)
    (fun s _ => read_zeroField_in f s hx) (fun _ f h => read_zeroField_zero f h) s trivial

theorem accCell_zeroField (g : Nat) (s : State) (i : Nat) : (zeroField g s).accCell i = if i / 2097152 = g then {} else s.accCell i := by
  refine (tget_filter_key {} (fun i => i / (2048 * 1024) != g) s.acc i).trans ?_
  by_cases h : i / 2097152 = g
  · rw [if_pos h, if_neg (by simpa using h)]
  · rw [if_neg h, if_pos (by simpa using h)]
    rfl

/-- The accumulators of the partition are zero (R344). -/
theorem accCell_zeroFields {p f i : Nat} {s : State} (hf : f ∈ fieldsOfPart s p) (hi : i / 2097152 = f) : (zeroFields p s).accCell i = {} := by
  refine foldl_reaches (I := fun _ => True) (Q := fun t : State => t.accCell i = {}) hf (fun _ _ h => h) (fun t _ => ?_) (fun t g h => ?_) s trivial
  · exact (accCell_zeroField f t i).trans (if_pos hi)
  · rw [accCell_zeroField]
    split
    · rfl
    · exact h

/-- The command `k` after a change of every command that keeps keys. -/
theorem cmdOf_map {g : Cmd → Cmd} (hg : ∀ c, (g c).key = c.key) (s : State) (k : Nat) : cmdOf { s with cmds := s.cmds.map g } k = (cmdOf s k).map g := by
  have hkeys : (fun c : Cmd => c.key == k) ∘ g = fun c => c.key == k := funext fun c => by simp [hg]
  unfold cmdOf
  rw [List.find?_map, hkeys]

theorem cmdOf_answerReset {s : State} {p k : Nat} {c : Cmd} (hc : cmdOf s k = some c) (hopen : c.decided = false) :
    ∃ c', cmdOf (answerReset p k s) k = some c' ∧ c'.decided = true ∧ c'.status = stAccepted := by
  let r : Reply := { status := stAccepted }
  have hanswered : cmdOf (finishCmd k r s) k = some (c.answer r) := by
    rw [finishCmd, cmdOf_modCmd _ _ _ (fun _ => answer_key _ _), hc]
    exact congrArg some (if_pos rfl)
  have hstatus : (c.answer r).status = stAccepted := by
    rw [Cmd.answer, hopen]
    rfl
  refine ⟨c.answer r, ?_, answer_decided c r, hstatus⟩
  have hkeys (d : Cmd) : (if (cmdParts ((finishCmd k r s).setPartOf p { resetting := true }) d).contains p then d.answer { status := stPartitionResetting }
      else d).key = d.key := by
    split
    · exact answer_key _ _
    · rfl
  refine (cmdOf_map hkeys ((finishCmd k r s).setPartOf p { resetting := true }) k).trans ((congrArg (Option.map _) hanswered).trans (congrArg some ?_))
  dsimp only
  split
  · exact answer_of_decided (answer_decided c r) _
  · rfl

/-- The effect of a reset that is asked for (R343, R344, R402). -/
theorem partitionResetEffective_clears (s : State) (p k : Nat) (c : Cmd) (hreq : (s.partOf p).resetReq = true) (hp : p < s.net.parts) (herror : s.flt.deviceError = false)
    (hcmd : (s.partOf p).cmd = some k) (hc : cmdOf s k = some c) (hopen : c.decided = false) :
    Completes (.partitionResetEffective p) s (fun t => resetting t p = true ∧ (∀ o, o ∈ t.ops → o.part s ≠ p) ∧ (∀ i, i / 4096 = p → t.token i = {}) ∧
      (∀ m, m ∈ t.rowMaps → m.part ≠ p) ∧ (∀ f i, f ∈ fieldsOfPart s p → i / 2097152 = f → t.accCell i = {}) ∧
      (∀ f a, f ∈ fieldsOfPart s p → 0x7F0000000000 + 0x2000000 * f ≤ a → a < 0x7F0000000000 + 0x2000000 * f + 0x1800000 → Memory.read t.mem a = 0) ∧
      (∃ c', cmdOf t k = some c' ∧ c'.decided = true ∧ c'.status = stAccepted)) := by
  obtain ⟨s₀, hs₀⟩ : ∃ s₀, s₀ = answerReset p k s := ⟨_, rfl⟩
  obtain ⟨s₁, hs₁⟩ : ∃ s₁, s₁ = abortPartition p 9 s₀ := ⟨_, rfl⟩
  obtain ⟨s₂, hs₂⟩ : ∃ s₂, s₂ = freeObjects (fun q => q == p) s₁ := ⟨_, rfl⟩
  have hsteady : Steady s₀ s₁ := hs₁ ▸ abortPartition_steady p 9 s₀
  have hnet : s₁.net = s.net := hsteady.net.trans (by rw [hs₀]; rfl)
  have hfields : fieldsOfPart s₂ p = fieldsOfPart s p := by
    rw [hs₂]
    show (List.range 32).filter (fun f => f * s₁.net.parts / 32 == p) = _
    rw [hnet]
    rfl
  obtain ⟨cores, units, wts, seq, hframe⟩ := clearPartition_frame p s₁
  obtain ⟨seq', hzero⟩ := zeroFields_frame p s₂
  refine ⟨_, partitionResetEffective_eq hreq hp hcmd, ?_⟩
  rw [← hs₀, ← hs₁, hframe, ← hs₂]
  refine ⟨?_, fun o ho => ?_, fun i hi => ?_, fun m hm => ?_, fun f i hf hi => ?_, fun f a hf hlow hhigh => ?_, ?_⟩
  · have hparts : (State.partOf s₂ p).resetting = true := by
      rw [partOf_congr s₀ s₂ ((congrArg State.parts hs₂).trans hsteady.parts), hs₀]
      exact congrArg Part.resetting ((partOf_setPartOf (finishCmd k { status := stAccepted } s) p p { resetting := true }).trans (if_pos rfl))
    rw [hzero]
    exact hparts
  · have hops : o ∈ s₁.ops := by
      rw [hzero, hs₂] at ho
      exact ho
    rw [hs₁] at hops
    have hpart := (mem_abortPartition (by rw [hs₀]; exact herror) hops).2
    rw [hs₀] at hpart
    exact hpart
  · rw [hzero, hs₂]
    exact (tget_filter_key {} (fun i => !(i / 4096 == p)) s₁.tokens i).trans (if_neg (by simp [hi]))
  · rw [hzero, hs₂] at hm
    simpa using (List.mem_filter.mp hm).2
  · exact accCell_zeroFields (hfields ▸ hf) hi
  · exact read_zeroFields (hfields ▸ hf) ⟨hlow, hhigh⟩
  · obtain ⟨c₀, hc₀, hd₀, hst₀⟩ := cmdOf_answerReset (p := p) hc hopen
    obtain ⟨c₁, hc₁, hd₁, hst₁⟩ := hsteady.answers k c₀ (hs₀ ▸ hc₀) hd₀
    refine ⟨c₁, ?_, hd₁, hst₁.trans hst₀⟩
    rw [hzero, hs₂]
    exact hc₁

/-! ### The asking and the release -/

theorem devPartitionReset_asks (s : State) (k p : Nat) (c : Cmd) (h : Taken s k 0x0131 c) (hp : c.at 16 1 = p) (h4 : p < 4) (hparts : p < s.net.parts)
    (hz : c.at 17 47 = 0) (hreset : (s.partOf p).resetting = false) (hreq : (s.partOf p).resetReq = false) :
    Completes (.devPartitionReset k) s (fun t => Waiting t k ∧ t.partOf p = { s.partOf p with resetReq := true, cmd := some k } ∧
      (∀ q, q ≠ p → t.partOf q = s.partOf q) ∧ t = { s with cmds := t.cmds, parts := t.parts }) := by
  subst hp
  have hpart (q : Nat) := partOf_modPartOf s (c.at 16 1) q (fun x => { x with resetReq := true, cmd := some k })
  refine ⟨_, congrArg Host.Outcome.next (runCmd_waits h ?_ rfl rfl), waiting_start h _ _ rfl, ?_, fun q hq => ?_, rfl⟩
  · rw [orElse_partChecks _ h4 hparts]
    simp [hz, hreset, hreq]
  · exact (partOf_congr (s.modPartOf _ _) _ rfl _).trans ((hpart _).trans (if_pos rfl))
  · exact (partOf_congr (s.modPartOf _ _) _ rfl q).trans ((hpart q).trans (if_neg hq))

/-- What of a mailbox the events that it takes leave: ENABLE and the pointers of its command and completion rings. -/
def Mb.rings (b : Mb) : Bool × BitVec 32 × BitVec 32 × BitVec 32 × BitVec 32 := (b.enable, b.cmdHead, b.cmdTail, b.cplHead, b.cplTail)

theorem eventTo_rings (code : Nat) (items : List Byte) (s : State) (m j : Nat) : ((eventTo code items s m).mb j).rings = (s.mb j).rings := by
  have hset (t : State) (b : Mb) (ht : t.mbs = s.mbs) (hb : b.rings = (s.mb m).rings) : ((t.setMb m b).mb j).rings = (s.mb j).rings := by
    rw [mb_setMb]
    split
    next hj => rw [hb, hj]
    next => rw [mb_congr s t ht]
  have hmsix (v : Nat) (t : State) : (msix v t).mb j = t.mb j := mb_congr _ _ (by simp) j
  unfold eventTo
  dsimp only
  split
  · rfl
  · split
    · exact hset _ _ rfl rfl
    · split
      · exact (congrArg Mb.rings (hmsix _ _)).trans (hset _ _ rfl rfl)
      · exact hset _ _ rfl rfl

theorem post_rings (code : Nat) (items : List Byte) (s : State) (j : Nat) : ((post code items s).mb j).rings = (s.mb j).rings := by
  unfold post
  split
  · rfl
  · exact foldl_keep (fun t : State => (t.mb j).rings) _ (fun t m => eventTo_rings code items t m j) _ s

/-- The core image in place, one core verified, another as it was. -/
theorem placeImage_memoryOnly (c : Nat) (s : State) : MemoryOnly s (placeImage c s) :=
  .foldl (fun _ _ => .foldl (fun _ _ => wrBytes_memoryOnly _ _ _ _) _ _) _ _

/-- The convoy has reached core `c`. -/
def verifyCore (failed : List Nat) (s : State) (c : Nat) : State := (placeImage c s).modCoreOf c (fun y => { y with verified := !failed.contains c })

theorem coreOf_verifyCore (failed : List Nat) (s : State) (c j : Nat) :
    ((verifyCore failed s c).coreOf j).verified = if j = c then !failed.contains c else (s.coreOf j).verified := by
  obtain ⟨_, _, _, _, _, _, _, _, _, _, _, h⟩ := placeImage_memoryOnly c s
  rw [verifyCore, coreOf_modCoreOf]
  split
  · rfl
  · rw [h]
    rfl

/-- What one entry of a changed table keeps to, when its default does and its change makes it so. -/
theorem tget_tmap_key {α : Type} [DecidableEq α] {d : α} {g : Nat → α → α} {k : Nat} {P : α → Prop} (hd : P d) (hg : ∀ v, P (g k v)) (t : Tab α) :
    P (tget d (tmap d t g) k) := by
  have hkeep (u : Tab α) (j : Nat) (hu : P (tget d u k)) : P (tget d (tset d u j (g j (tget d u j))) k) := by
    rw [tget_tset]
    split
    next hj => exact hj ▸ hg _
    next => exact hu
  by_cases hk : k ∈ t.map Prod.fst
  · refine foldl_reaches (I := fun _ => True) (Q := fun u => P (tget d u k)) hk (fun _ _ h => h) (fun u _ => ?_) hkeep t trivial
    rw [tget_tset, if_pos rfl]
    exact hg _
  · refine foldl_inv (fun u => P (tget d u k)) _ hkeep _ t ?_
    rw [tget_unlisted d t hk]
    exact hd

/-- The cores that a release's convoy reaches. -/
def convoyCores (s : State) (p : Nat) : List Nat := ((fieldsOfPart s p).map coresOf).flatten.filter (fun c => (s.coreOf c).state != 3)

/-- The mailboxes after the release empties the rings of partition `p`. -/
def emptyRings (p : Nat) (s : State) : Tab Mb := tmap {} s.mbs (fun m b => if partOfMb s m = p then b.emptied (s.cmds.any (fun c => c.src == m)) else b)

theorem rings_emptyRings {s : State} {p m : Nat} (hm : partOfMb s m = p) : (tget {} (emptyRings p s) m).rings = (false, 0, 0, 0, 0) := by
  unfold emptyRings
  refine tget_tmap_key (P := fun b : Mb => b.rings = (false, 0, 0, 0, 0)) rfl (fun b => ?_) s.mbs
  rw [if_pos hm]
  rfl

theorem partitionResetRelease_releases (s : State) (p : Nat) (hreset : (s.partOf p).resetting = true)
    (hzero : ∀ u, u ∈ liveStacks s p → (s.unit u).zeroing = false) :
    Completes (.partitionResetRelease p []) s (fun t => resetting t p = false ∧ (∀ m, partOfMb s m = p → (t.mb m).enable = false ∧ (t.mb m).cmdHead = 0 ∧
        (t.mb m).cmdTail = 0 ∧ (t.mb m).cplHead = 0 ∧ (t.mb m).cplTail = 0) ∧
      ∀ f c, f ∈ fieldsOfPart s p → c ∈ coresOf f → (s.coreOf c).state ≠ 3 → (t.coreOf c).verified = true) := by
  obtain ⟨s₁, hs₁⟩ : ∃ s₁, s₁ = (convoyCores s p).foldl (verifyCore []) s := ⟨_, rfl⟩
  obtain ⟨s₂, hs₂⟩ : ∃ s₂, s₂ = ({ s₁ with mbs := emptyRings p s₁ } : State).setPartOf p {} := ⟨_, rfl⟩
  have hexec : exec (.partitionResetRelease p []) s = .next (post 0x0107 (leBytes 1 p) s₂) := by
    have hzeroed : (liveStacks s p).all (fun u => !(s.unit u).zeroing) = true := by simpa using hzero
    have hnone : (convoyCores s p).filter (fun c => ([] : List Nat).contains c) = [] := List.filter_eq_nil_iff.mpr fun _ _ => by simp
    rw [hs₂, hs₁]
    refine congrArg Host.Outcome.next ((if_pos ⟨hreset, hzeroed⟩).trans ?_)
    exact congrArg (fun l => post 0x0107 (leBytes 1 p) (({ l.foldl (fun s c => raiseFault 0x12 3 (c / 64) (c % 64) 0 s) ((convoyCores s p).foldl (verifyCore []) s) with
      mbs := emptyRings p (l.foldl (fun s c => raiseFault 0x12 3 (c / 64) (c % 64) 0 s) ((convoyCores s p).foldl (verifyCore []) s)) } : State).setPartOf p {})) hnone
  have hevents : EventsOnly s₂ (post 0x0107 (leBytes 1 p) s₂) := post_eventsOnly _ _ _
  refine ⟨_, hexec, ?_, fun m hm => ?_, fun f c hf hc hserve => ?_⟩
  · rw [hevents.frame, hs₂]
    exact congrArg Part.resetting ((partOf_setPartOf { s₁ with mbs := emptyRings p s₁ } p p {}).trans (if_pos rfl))
  · have hnet : s₁.net = s.net := by
      rw [hs₁]
      refine foldl_keep State.net _ (fun t c => ?_) _ s
      obtain ⟨_, _, _, _, _, _, _, _, _, _, _, h⟩ := placeImage_memoryOnly c t
      rw [verifyCore, h]
      rfl
    have hm' : partOfMb s₁ m = p := by rw [partOfMb, hnet]; exact hm
    have hempty : (s₂.mb m).rings = (false, 0, 0, 0, 0) := by
      rw [hs₂]
      exact rings_emptyRings hm'
    have hrings := (post_rings 0x0107 (leBytes 1 p) s₂ m).trans hempty
    simpa only [Mb.rings, Prod.mk.injEq] using hrings
  · have hmem : c ∈ convoyCores s p :=
      List.mem_filter.mpr ⟨List.mem_flatten.mpr ⟨coresOf f, List.mem_map.mpr ⟨f, hf, rfl⟩, hc⟩, by simpa using hserve⟩
    have hverified : (s₁.coreOf c).verified = true := by
      rw [hs₁]
      refine foldl_reaches (I := fun _ => True) (Q := fun t : State => (t.coreOf c).verified = true) hmem (fun _ _ h => h) (fun t _ => ?_) (fun t j ht => ?_) s trivial
      · exact (coreOf_verifyCore [] t c c).trans (if_pos rfl)
      · rw [coreOf_verifyCore]
        split
        · rfl
        · exact ht
    rw [hevents.frame, hs₂]
    exact hverified

/-- Settles O42: the request by its checks, its effect and its release by what they clear. -/
theorem partitionResetRuns : Obligations.PartitionResetRuns :=
  ⟨devPartitionReset_asks, partitionResetEffective_clears,
    fun s p hreq => congrArg Host.Outcome.next (if_neg fun h => by simp [hreq] at h), partitionResetRelease_releases⟩

end Sys2Proof.Machine
end

section
/-! The resets and the boot set (R408, R429, R451, R471, R483, R500, R501). -/

namespace Sys2Proof.Machine

open Sys2Proof State

/-- A new boot key counts at most one leaf and changes nothing else but the key, the free values drawn and what an event writes (R476). -/
theorem takeLeaf_frame (s : State) : ∃ n key sigs f h b w, n ≤ s.sec.leaf + 1 ∧
    takeLeaf s = { s with sec := { s.sec with leaf := n, bootKey := key, bootSigs := sigs }, free := f, hostMem := h, mbs := b, stw := w } := by
  unfold takeLeaf
  split
  · split
    · exact ⟨_, _, _, _, _, _, _, Nat.le_refl _, rfl⟩
    · obtain ⟨h, b, w, hpost⟩ := post_eventsOnly 0x0A05 [] { s with sec := { s.sec with bootKey := none }, free := s.free + 1 }
      exact ⟨s.sec.leaf, none, s.sec.bootSigs, _, h, b, w, Nat.le_succ _, hpost⟩
  · exact ⟨s.sec.leaf, none, s.sec.bootSigs, s.free, s.hostMem, s.mbs, s.stw, Nat.le_succ _, rfl⟩

/-- What the start of the boot set makes of the device: its domains are on, M0 holds fuses and ROM, and at most one leaf is used (R408, R476). -/
theorem bootStart_frame (s : State) : ∃ n key sigs f h b w, n ≤ s.sec.leaf + 1 ∧ bootStart s =
    { s with
      pwr := { s.pwr with on := bootDomains }
      sec := { s.sec with
        meas := s.sec.meas.set 0 (Config.sha384 (s.sec.meas.getD 0 [] ++ (Config.sha384 (fuseImage s) ++ Config.romVersion)))
        leaf := n, bootKey := key, bootSigs := sigs }
      free := f, hostMem := h, mbs := b, stw := w } :=
  takeLeaf_frame (extendMeas 0 (Config.sha384 (fuseImage s) ++ Config.romVersion) { s with pwr := { s.pwr with on := bootDomains } })

theorem pwrokFall_resets (s : State) (h : s.thm.shutdown = false) : exec .pwrokFall s = .next { State.reset with
    sec := s.sec.kept, hostMem := s.hostMem, free := s.free, pending := s.pending
    pins := { State.reset.pins with rstN := s.pins.rstN, pwrok := false, refclk := s.pins.refclk, leFltN := s.pins.leFltN } } :=
  congrArg Host.Outcome.next (if_neg (Bool.eq_false_iff.mp h))

theorem resetNRise_boots (s : State) (h : s.pins.rstN = false) :
    Completes .resetNRise s (fun t => t.pins = { s.pins with rstN := true, pwrok := true } ∧ t.pwr = { s.pwr with on := bootDomains } ∧
      t.bu = s.bu ∧ t.sec.leaf ≤ s.sec.leaf + 1 ∧ t.sec.meas = s.sec.meas.set 0 (Config.sha384 (s.sec.meas.getD 0 [] ++ (Config.sha384 (fuseImage s) ++ Config.romVersion))) ∧
      t.mem = s.mem) := by
  obtain ⟨n, key, sigs, f, hm, b, w, hn, hboot⟩ := bootStart_frame { s with pins := { s.pins with rstN := true, pwrok := true } }
  exact ⟨_, congrArg Host.Outcome.next ((if_pos (.inl h)).trans hboot), rfl, rfl, rfl, hn, rfl, rfl⟩

theorem resetNRise_stays (s : State) (h : s.pins.rstN = true) (h' : s.pins.pwrok = true) : exec .resetNRise s = .next s :=
  congrArg Host.Outcome.next (if_neg (by simp [h, h']))

/-! ### Licences -/

theorem tokenBad_nil : (tokenBad []).isNone = false := by decide

/-- Without a token no feature is licensed. -/
theorem installedMask_nil {s : State} (h : s.sec.tokens = []) : installedMask s = 0 := by
  have hslots : validSlots s = [] := List.filter_eq_nil_iff.mpr fun i _ => by
    rw [h]
    simp [tokenValid, tget, tokenBad_nil]
  rw [installedMask, hslots, List.foldl_nil]

theorem foldl_modPort {l : List Nat} (hl : l.Nodup) (g : LinkPort → LinkPort) (s : State) (j : Nat) :
    (l.foldl (fun (s : State) p => s.modPort p g) s).port j = if j ∈ l then g (s.port j) else s.port j := by
  induction l generalizing s with
  | nil => rfl
  | cons p l ih =>
    obtain ⟨hp, hl⟩ := List.nodup_cons.mp hl
    rw [List.foldl_cons, ih hl, port_modPort]
    by_cases hj : j = p
    · subst hj
      rw [if_neg hp, if_pos rfl, if_pos List.mem_cons_self]
    · rw [if_neg hj]
      simp only [List.mem_cons, hj, false_or]

/-- The ports that LINK24 licenses, out for want of a licence. -/
def unlicensedPorts (s : State) : State :=
  ((List.range 18).map (· + 6)).foldl (fun (s : State) p => s.modPort p (fun l => { l with state := 3, reason := 1 })) s

theorem port_unlicensedPorts (s : State) (p : Nat) :
    (unlicensedPorts s).port p = if 6 ≤ p ∧ p < 24 then { s.port p with state := 3, reason := 1 } else s.port p := by
  refine (foldl_modPort (by decide) _ s p).trans ?_
  by_cases hp : 6 ≤ p ∧ p < 24
  · rw [if_pos hp, if_pos (List.mem_map.mpr ⟨p - 6, List.mem_range.mpr (by omega), by omega⟩)]
  · rw [if_neg hp, if_neg]
    intro hmem
    obtain ⟨x, hx, rfl⟩ := List.mem_map.mp hmem
    have := List.mem_range.mp hx
    omega

theorem unlicensedPorts_frame (s : State) : unlicensedPorts s = { s with ports := (unlicensedPorts s).ports } := by
  have h := foldl_inv (fun t : State => ∃ x, t = { s with ports := x }) (fun (s : State) p => s.modPort p (fun l => { l with state := 3, reason := 1 }))
    (by rintro t p ⟨_, rfl⟩; exact ⟨_, rfl⟩) ((List.range 18).map (· + 6)) s ⟨_, rfl⟩
  obtain ⟨x, h⟩ := h
  rw [unlicensedPorts, h]

theorem bootSetReady_licenses (s : State) (p : Nat) (hrst : s.pins.rstN = true) (hpwrok : s.pins.pwrok = true) (hclk : s.pins.refclk = true)
    (hon : 217 ∈ s.pwr.on) (hboot : s.bu.bootOk = false) (hlow : 6 ≤ p) (hhigh : p < 24) (htokens : s.sec.tokens = []) :
    Completes .bootSetReady s (fun t => t.bu.bootOk = true ∧ t.bu.licDone = true ∧ t.bu.licences = 0 ∧ (t.port p).state = 3 ∧ (∀ j, j < 6 → t.port j = s.port j)) := by
  obtain ⟨t, ht⟩ : ∃ t, t = verifyLicences { s with bu := { s.bu with bootOk := true } } := ⟨_, rfl⟩
  have hmask : BitVec.ofNat 6 (installedMask { s with bu := { s.bu with bootOk := true } }) = 0 := congrArg (BitVec.ofNat 6) (installedMask_nil htokens)
  have hbu : t.bu = { s.bu with bootOk := true, licDone := true, licences := 0 } := by
    rw [ht, ← hmask]
    rfl
  have hports : t.ports = s.ports := by
    rw [ht]
    rfl
  have hready : (s.pins.rstN && s.pins.pwrok && s.pins.refclk && s.pwr.on.contains 217 && !s.bu.bootOk) = true := by simp [hrst, hpwrok, hclk, hon, hboot]
  have hout : ¬ licensed t 1 = true := by simp [licensed, hbu]
  have hbu' : (unlicensedPorts t).bu = t.bu := by rw [unlicensedPorts_frame]
  refine ⟨unlicensedPorts t, congrArg Host.Outcome.next ((if_pos hready).trans ?_), ?_, ?_, ?_, ?_, fun j hj => ?_⟩
  · rw [ht] at hout ⊢
    exact if_neg hout
  · rw [hbu', hbu]
  · rw [hbu', hbu]
  · rw [hbu', hbu]
  · rw [port_unlicensedPorts, if_pos ⟨hlow, hhigh⟩]
  · rw [port_unlicensedPorts, if_neg (by omega)]
    exact port_congr _ _ hports j

theorem refclkLoss_resets (s : State) (h : 2 ≤ s.bu.step) :
    Completes .refclkLoss s (fun t => t.pins.refclk = false ∧ t.pins.held = true ∧ t.bu = State.reset.bu ∧ t.mem = State.reset.mem ∧ t.sec = s.sec.kept) :=
  ⟨_, congrArg Host.Outcome.next (if_pos h), rfl, rfl, rfl, rfl, rfl⟩

theorem refclkRestore_eq {s : State} (h : s.pins.refclk = false) : exec .refclkRestore s = .next (
    if s.pins.held && s.pins.rstN && s.pins.pwrok then bootStart { s with pins := { s.pins with refclk := true, held := false } }
    else { s with pins := { s.pins with refclk := true, held := false } }) := congrArg Host.Outcome.next (if_neg (by simp [h]))

theorem refclkRestore_boots (s : State) (h : s.pins.refclk = false) (hheld : s.pins.held = true) (hrst : s.pins.rstN = true) (hpwrok : s.pins.pwrok = true) :
    Completes .refclkRestore s (fun t => t.pins.refclk = true ∧ t.pins.held = false ∧ t.pwr.on = bootDomains) := by
  obtain ⟨n, key, sigs, f, hm, b, w, -, hboot⟩ := bootStart_frame { s with pins := { s.pins with refclk := true, held := false } }
  exact ⟨_, (refclkRestore_eq h).trans (congrArg Host.Outcome.next ((if_pos (by simp [hheld, hrst, hpwrok])).trans hboot)), rfl, rfl, rfl⟩

/-- The report of a command leaves fuses and flash. -/
theorem reportCmd_sec (c : Cmd) (s : State) : (reportCmd c s).sec = s.sec := by
  unfold reportCmd
  dsimp only
  split
  · rfl
  · split
    · exact (msix_sec _ _).trans rfl
    · rfl

theorem commandComplete_resets (s : State) (k : Nat) (c : Cmd) (h : cmdOf s k = some c) (hop : c.opcode = 0x0102) (hstatus : c.status = stAccepted)
    (hdecided : c.decided = true) :
    Completes (.commandComplete k) s (fun t => t.bu = State.reset.bu ∧ t.cmds = [] ∧ t.ops = [] ∧ t.flt = State.reset.flt ∧ t.pwr.on = bootDomains ∧
      t.sec.tokens = s.sec.tokens ∧ t.sec.minSvn = s.sec.minSvn) := by
  have hexec : exec (.commandComplete k) s = .next (devReset (reportCmd c s)) := by
    change execCommandComplete k s = _
    simp only [execCommandComplete, h, hdecided, hop, hstatus, and_self, if_true]
  obtain ⟨n, key, sigs, f, hm, b, w, -, hboot⟩ := bootStart_frame (resetTo (reportCmd c s))
  refine ⟨_, hexec.trans (congrArg Host.Outcome.next hboot), rfl, rfl, rfl, rfl, rfl, ?_, ?_⟩
  · show (reportCmd c s).sec.tokens = s.sec.tokens
    rw [reportCmd_sec]
  · show (reportCmd c s).sec.minSvn = s.sec.minSvn
    rw [reportCmd_sec]

/-- Settles O56: each reset by the state it leaves, each start by what it adds. -/
theorem resetsAct : Obligations.ResetsAct :=
  ⟨fun _ => rfl, pwrokFall_resets, fun _ h => congrArg Host.Outcome.next (if_pos h), resetNRise_boots, resetNRise_stays, bootSetReady_licenses,
    fun _ h => congrArg Host.Outcome.next (if_neg (by simp [h])), refclkLoss_resets, fun _ h => congrArg Host.Outcome.next (if_neg (Nat.not_le.mpr h)),
    fun _ h hheld => (refclkRestore_eq h).trans (congrArg Host.Outcome.next (if_neg (by simp [hheld]))), refclkRestore_boots, commandComplete_resets⟩

end Sys2Proof.Machine
end

section
/-! The writes of the bring-up registers and the requests of steps that they make (R409 to R426, R430). -/

namespace Sys2Proof.Machine

open Sys2Proof State

/-! ### Requests of steps -/

/-- A bring-up fault sets BU_FAULT, and may send its vector (R430). -/
theorem buFault_frame (n code detail : Nat) (s : State) : ∃ h b w, buFault n code detail s =
    { s with bu := { s.bu with fltValid := true, fltStep := n, fltCode := code, fltDetail := detail }, hostMem := h, mbs := b, stw := w } := by
  let s' := { s with bu := { s.bu with fltValid := true, fltStep := n, fltCode := code, fltDetail := detail } }
  exact EventsOnly.send (s := s') (t := s') ⟨_, _, _, rfl⟩ 128

/-- A step that fails: its number and its fault stand in the bring-up registers, and no step runs (R409). -/
theorem stepFail_frame (n code detail : Nat) (s : State) : ∃ h b w, stepFail n code detail s =
    { s with
      bu := { s.bu with state := 2, running := 0, failedStep := n, fltValid := true, fltStep := n, fltCode := code, fltDetail := detail }
      hostMem := h, mbs := b, stw := w } := buFault_frame n code detail _

/-- The device as the request of step `n` leaves it before the step starts. -/
def stepTaken (n : Nat) (s : State) : State :=
  { s with bu := { s.bu with state := 1, running := n, elapsed := 0, step := if n = 4 then 3 else s.bu.step } }

section
variable {s : State} {n : Nat}

theorem requestStep_busy (h : s.bu.state = 1 ∨ s.bu.state = 3) : requestStep n s = s := if_pos h

variable (hstate : s.bu.state = 0 ∨ s.bu.state = 2)
include hstate

theorem requestStep_order (h : s.bu.step + 1 < n) : requestStep n s = buFault n buOrder n s :=
  (if_neg (by omega)).trans (if_pos h)

theorem requestStep_taken (hstep : ¬ s.bu.step + 1 < n) (hmay : stepMayRun s n = true) :
    requestStep n s = match (groupsFor s n).find? (fun g => !s.bu.on.getLsbD g) with
      | some g => stepFail n buDependency g (stepTaken n s)
      | none => stepStart n (stepTaken n s) :=
  (if_neg (by omega)).trans ((if_neg hstep).trans ((if_neg (by simp [hmay])).trans rfl))

theorem requestStep_starts (hstep : ¬ s.bu.step + 1 < n) (hmay : stepMayRun s n = true) (hon : ∀ g, g ∈ groupsFor s n → s.bu.on.getLsbD g = true) :
    requestStep n s = stepStart n (stepTaken n s) := by
  have hnone : (groupsFor s n).find? (fun g => !s.bu.on.getLsbD g) = none := List.find?_eq_none.mpr fun g hg => by simp [hon g hg]
  rw [requestStep_taken hstate hstep hmay, hnone]

theorem requestStep_lacks {g : Nat} (hstep : ¬ s.bu.step + 1 < n) (hmay : stepMayRun s n = true)
    (hoff : (groupsFor s n).find? (fun g => !s.bu.on.getLsbD g) = some g) : requestStep n s = stepFail n buDependency g (stepTaken n s) := by
  rw [requestStep_taken hstate hstep hmay, hoff]

end

/-! ### The registers -/

theorem and_word (w : BitVec 32) : w.toNat &&& 0xFFFFFFFF = w.toNat := by
  rw [show 0xFFFFFFFF = 2 ^ 32 - 1 from rfl, Nat.and_two_pow_sub_one_eq_mod]
  exact Nat.mod_eq_of_lt w.isLt

theorem buWrite32_closed {s : State} (h : s.bu.bootOk = false) (off : Nat) (w : BitVec 32) : buWrite32 off w s = s := if_pos (by simp [h])

section
variable {s : State} (hboot : s.bu.bootOk = true) (w : BitVec 32)
include hboot

theorem buPllGo_eq : exec (.buPllGo w) s = .next (if w.getLsbD 0 then requestStep 2 s else s) := by
  refine congrArg Host.Outcome.next ((if_neg (by simp [hboot])).trans ?_)
  show (if bit (w.toNat &&& 0xFFFFFFFF) 0 = true then _ else _) = _
  rw [and_word, bit_toNat]

theorem buAuthVerify_eq : exec (.buAuthVerify w) s = .next (if w.getLsbD 0 then requestStep 5 s else s) := by
  refine congrArg Host.Outcome.next ((if_neg (by simp [hboot])).trans ?_)
  show (if bit (w.toNat &&& 0xFFFFFFFF) 0 = true then _ else _) = _
  rw [and_word, bit_toNat]

theorem buStewardRun_eq : buWrite32 0x2C w s = writeStewardRun w.toNat s := by
  refine (if_neg (by simp [hboot])).trans ?_
  show writeStewardRun (w.toNat &&& 0xFFFFFFFF) s = _
  rw [and_word]

theorem buConvoy_eq : buWrite32 0x30 w s =
    if w.getLsbD 0 then requestStep 7 (if w.getLsbD 1 then acceptConvoy s else s) else if w.getLsbD 1 then acceptConvoy s else s := by
  refine (if_neg (by simp [hboot])).trans ?_
  show (if bit (w.toNat &&& 0xFFFFFFFF) 0 = true then requestStep 7 (if bit (w.toNat &&& 0xFFFFFFFF) 1 = true then acceptConvoy s else s)
    else if bit (w.toNat &&& 0xFFFFFFFF) 1 = true then acceptConvoy s else s) = _
  rw [and_word, bit_toNat, bit_toNat]

end

/-! A field of the register that the write covers, and the field's bits of the word. -/

theorem ofNat_bits (w : BitVec 32) (lo n : Nat) : BitVec.ofNat n (bits w.toNat lo n) = w.extractLsb' lo n := by
  refine BitVec.eq_of_toNat_eq ?_
  simp [bits, Nat.shiftRight_eq_div_pow]

theorem ofNat_bits_low (w : BitVec 32) (n : Nat) : BitVec.ofNat n (bits w.toNat 0 n) = w.setWidth n := by
  refine BitVec.eq_of_toNat_eq ?_
  simp [bits]

theorem putBits_whole {n : Nat} (old : BitVec n) (v : Nat) : BitVec.ofNat n (putBits old.toNat v 0 n) = BitVec.ofNat n v := by
  have hold : bits old.toNat 0 n = old.toNat := by simp [bits, Nat.mod_eq_of_lt old.isLt]
  refine BitVec.eq_of_toNat_eq ?_
  simp [putBits, hold]

/-- A field of a bring-up register that is writable until release, after a write of the whole word `v` (R417, R430). -/
def rwlField (s : State) (old lo n place v : Nat) : Nat :=
  if !s.bu.rwlLocked && decide (bits 0xFFFFFFFF place n = 2 ^ n - 1) then putBits old (bits v place n) lo n else old

theorem rwlField_open {s : State} {n place : Nat} (h : s.bu.rwlLocked = false) (hn : place + n ≤ 32) (old : BitVec n) (v : Nat) :
    BitVec.ofNat n (rwlField s old.toNat 0 n place v) = BitVec.ofNat n (bits v place n) := by
  have hwhole : bits 0xFFFFFFFF place n = 2 ^ n - 1 := bits_ones (n := 32) hn
  exact (congrArg (BitVec.ofNat n) (if_pos (by rw [h, hwhole]; simp))).trans (putBits_whole old _)

/-! ### Steps 1 to 6 -/

section
variable (s : State) (w : BitVec 32)

theorem buDomainEnWrite_starts (hboot : s.bu.bootOk = true) (hrwl : s.bu.rwlLocked = false) (hstate : s.bu.state = 0 ∨ s.bu.state = 2) (hw : bits w.toNat 0 10 ≠ 0) :
    exec (.buDomainEnWrite w) s = .next { s with bu := { s.bu with en := s.bu.en ||| w.setWidth 10, state := 1, running := 1, elapsed := 0 } } := by
  have hopen : ¬ (s.bu.rwlLocked || bits w.toNat 0 10 == 0 || s.bu.state == 1 || s.bu.state == 3) = true := by
    rcases hstate with h | h <;> simp [hrwl, hw, h]
  refine congrArg Host.Outcome.next ((if_neg (by simp [hboot])).trans ?_)
  show (if (s.bu.rwlLocked || bits (w.toNat &&& 0xFFFFFFFF) 0 10 == 0 || s.bu.state == 1 || s.bu.state == 3) = true then s
    else requestStep 1 { s with bu := { s.bu with en := s.bu.en ||| BitVec.ofNat 10 (bits (w.toNat &&& 0xFFFFFFFF) 0 10) } }) = _
  rw [and_word, if_neg hopen, ofNat_bits_low]
  exact requestStep_starts (n := 1) hstate (by simp) (by simp [stepMayRun, hrwl]) fun g hg => by cases hg

theorem buPllGo_starts (hboot : s.bu.bootOk = true) (hrwl : s.bu.rwlLocked = false) (hstate : s.bu.state = 0 ∨ s.bu.state = 2) (hstep : s.bu.step = 1)
    (hgo : w.getLsbD 0 = true) : exec (.buPllGo w) s = .next { s with bu := { s.bu with state := 1, running := 2, elapsed := 0 } } := by
  rw [buPllGo_eq hboot, if_pos hgo, requestStep_starts hstate (by omega) (by simp [stepMayRun, hrwl, hstep]) (fun g hg => by cases hg)]
  rfl

theorem buPllGo_order (hboot : s.bu.bootOk = true) (hstate : s.bu.state = 0 ∨ s.bu.state = 2) (hstep : s.bu.step = 0) (hgo : w.getLsbD 0 = true) :
    exec (.buPllGo w) s = .next (buFault 2 buOrder 2 s) := by
  rw [buPllGo_eq hboot, if_pos hgo, requestStep_order hstate (by omega)]

theorem buWrites_nothing (h : s.bu.bootOk = false ∨ s.bu.state = 1) : exec (.buPllGo w) s = .next s ∧ exec (.buAuthVerify w) s = .next s := by
  cases hboot : s.bu.bootOk with
  | false => exact ⟨congrArg _ (buWrite32_closed hboot _ w), congrArg _ (buWrite32_closed hboot _ w)⟩
  | true =>
    have hbusy : s.bu.state = 1 := h.resolve_left (by simp [hboot])
    rw [buPllGo_eq hboot, buAuthVerify_eq hboot, requestStep_busy (.inl hbusy), requestStep_busy (.inl hbusy), ite_self]
    exact ⟨rfl, rfl⟩

theorem buHbmTrainGo_starts (hboot : s.bu.bootOk = true) (hrwl : s.bu.rwlLocked = false) (hstate : s.bu.state = 0 ∨ s.bu.state = 2) (hstep : s.bu.step = 2)
    (hgo : w.getLsbD 24 = true) (h0 : s.bu.on.getLsbD 0 = true) (h2 : s.bu.on.getLsbD 2 = true) (h3 : s.bu.on.getLsbD 3 = true) :
    exec (.buHbmTrainGo w) s = .next { s with bu := { s.bu with
      hbmSel := w.setWidth 12, ddrSel := w.extractLsb' 12 12, state := 1, running := 3, elapsed := 0 } } := by
  have hgroups : ∀ g, g ∈ groupsFor { s with bu := { s.bu with hbmSel := w.setWidth 12, ddrSel := w.extractLsb' 12 12 } } 3 → s.bu.on.getLsbD g = true := by
    intro g hg
    simp only [groupsFor, Nat.lt_irrefl, if_false, if_true, List.mem_append, List.mem_cons, List.not_mem_nil, or_false] at hg
    rcases hg with (rfl | rfl) | hg
    · exact h0
    · exact h2
    · split at hg
      · cases hg
      · rw [List.mem_singleton.mp hg]
        exact h3
  have hstart := requestStep_starts (s := { s with bu := { s.bu with hbmSel := w.setWidth 12, ddrSel := w.extractLsb' 12 12 } }) (n := 3) hstate
    (by simp [hstep]) (by simp [stepMayRun, hrwl, hstep]) hgroups
  refine congrArg Host.Outcome.next ((if_neg (by simp [hboot])).trans ?_)
  show (if bit (w.toNat &&& 0xFFFFFFFF) 24 = true then requestStep 3 { s with bu := { s.bu with
      hbmSel := BitVec.ofNat 12 (rwlField s s.bu.hbmSel.toNat 0 12 0 w.toNat), ddrSel := BitVec.ofNat 12 (rwlField s s.bu.ddrSel.toNat 0 12 12 w.toNat) } }
    else _) = _
  rw [and_word, bit_toNat, if_pos hgo, rwlField_open hrwl (by decide), rwlField_open hrwl (by decide), ofNat_bits_low, ofNat_bits]
  exact hstart

theorem buImgLoad_starts (hboot : s.bu.bootOk = true) (hrwl : s.bu.rwlLocked = false) (hstate : s.bu.state = 0 ∨ s.bu.state = 2) (hstep : s.bu.step = 3 ∨ s.bu.step = 4)
    (hgo : w.getLsbD 31 = true) (h1 : s.bu.on.getLsbD 1 = true) :
    exec (.buImgLoad w) s = .next { s with bu := { s.bu with imgLen := w.setWidth 24, state := 1, running := 4, elapsed := 0, step := 3 } } := by
  have hstart := requestStep_starts (s := { s with bu := { s.bu with imgLen := w.setWidth 24 } }) (n := 4) hstate
    (by rcases hstep with h | h <;> simp [h]) (by rcases hstep with h | h <;> simp [stepMayRun, hrwl, h]) fun g hg => by
      rw [show groupsFor { s with bu := { s.bu with imgLen := w.setWidth 24 } } 4 = [1] from rfl, List.mem_singleton] at hg
      rw [hg]
      exact h1
  refine congrArg Host.Outcome.next ((if_neg (by simp [hboot])).trans ?_)
  show (if bit (w.toNat &&& 0xFFFFFFFF) 31 = true then requestStep 4 { s with bu := { s.bu with imgLen := BitVec.ofNat 24 (rwlField s s.bu.imgLen.toNat 0 24 0 w.toNat) } }
    else _) = _
  rw [and_word, bit_toNat, if_pos hgo, rwlField_open hrwl (by decide), ofNat_bits_low]
  exact hstart

theorem buAuthVerify_starts (hboot : s.bu.bootOk = true) (hrwl : s.bu.rwlLocked = false) (hstate : s.bu.state = 0 ∨ s.bu.state = 2) (hstep : s.bu.step = 4)
    (hgo : w.getLsbD 0 = true) (h1 : s.bu.on.getLsbD 1 = true) :
    exec (.buAuthVerify w) s = .next { s with bu := { s.bu with state := 1, running := 5, elapsed := 0 } } := by
  have hgroups : groupsFor s 5 = [1] := rfl
  rw [buAuthVerify_eq hboot, if_pos hgo, requestStep_starts hstate (by omega) (by simp [stepMayRun, hrwl, hstep])
    (fun g hg => by rw [hgroups, List.mem_singleton] at hg; rw [hg, h1])]
  rfl

theorem buStewardRun_starts (hboot : s.bu.bootOk = true) (hrwl : s.bu.rwlLocked = false) (hstate : s.bu.state = 0 ∨ s.bu.state = 2) (hstep : s.bu.step = 5)
    (hgo : w.getLsbD 0 = true) (hst : bits w.toNat 8 4 = 0) (h1 : s.bu.on.getLsbD 1 = true) :
    exec (.buStewardRun w) s = .next { s with bu := { s.bu with state := 1, running := 6, elapsed := 0, rwlLocked := true, stwRunning := true } } := by
  have hgroups : groupsFor s 6 = [1] := rfl
  have hwrite : writeStewardRun w.toNat s = requestStep 6 s := by
    rw [writeStewardRun, hst, bit_toNat, hgo]
    rfl
  refine congrArg Host.Outcome.next ((buStewardRun_eq hboot w).trans (hwrite.trans ?_))
  rw [requestStep_starts hstate (by omega) (by simp [stepMayRun, hrwl, hstep]) (fun g hg => by rw [hgroups, List.mem_singleton] at hg; rw [hg, h1])]
  rfl

/-! ### Step 7 -/

theorem buConvoyGo_request (hboot : s.bu.bootOk = true) (hgo : w.getLsbD 0 = true) (hacc : w.getLsbD 1 = false) : exec (.buConvoyGo w) s = .next (requestStep 7 s) := by
  refine congrArg Host.Outcome.next ((buConvoy_eq hboot w).trans ?_)
  rw [hgo, hacc]
  rfl

theorem convoy_mayRun {s : State} (hstep : s.bu.step = 6) (hfail : s.bu.failedStep ≠ 7) : stepMayRun s 7 = true := by
  simp [stepMayRun, hstep, hfail]

theorem buConvoyGo_starts (hboot : s.bu.bootOk = true) (hstate : s.bu.state = 0 ∨ s.bu.state = 2) (hstep : s.bu.step = 6) (hfail : s.bu.failedStep ≠ 7)
    (hgo : w.getLsbD 0 = true) (hacc : w.getLsbD 1 = false) (hon : ∀ g, g ∈ [0, 1, 6, 7, 8, 9] → s.bu.on.getLsbD g = true) :
    Completes (.buConvoyGo w) s (fun t => t.bu.running = 7 ∧ t.bu.state = 1 ∧ t.bu.cvPhase = 1 ∧ t.bu.cvRound = 0 ∧ t.bu.cvN = chunkCount (coreImage s.bu.image) ∧
      t.bu.cvTag = bytesAt (coreDigest s.bu.image) 0 4 ∧ (∀ c, (t.coreOf c).chunks = []) ∧ t = { s with bu := t.bu, cores := t.cores }) :=
  ⟨_, (buConvoyGo_request s w hboot hgo hacc).trans (congrArg _ (requestStep_starts hstate (by omega) (convoy_mayRun hstep hfail) hon)), rfl, rfl, rfl, rfl, rfl, rfl,
    fun c => tget_tmap (d := ({} : Core)) (g := fun _ x => { x with chunks := [] }) (P := fun x => x.chunks = []) rfl (fun _ _ => rfl) s.cores c, rfl⟩

theorem buConvoyGo_lacks (g : Nat) (hboot : s.bu.bootOk = true) (hstate : s.bu.state = 0 ∨ s.bu.state = 2) (hstep : s.bu.step = 6) (hfail : s.bu.failedStep ≠ 7)
    (hgo : w.getLsbD 0 = true) (hacc : w.getLsbD 1 = false) (hoff : ([0, 1, 6, 7, 8, 9].find? fun g => !s.bu.on.getLsbD g) = some g) :
    Completes (.buConvoyGo w) s (fun t => t.bu.state = 2 ∧ t.bu.running = 0 ∧ t.bu.failedStep = 7 ∧ t.bu.step = 6 ∧ t.bu.fltValid = true ∧ t.bu.fltStep = 7 ∧
      t.bu.fltCode = buDependency ∧ t.bu.fltDetail = g) := by
  obtain ⟨h, b, v, hframe⟩ := stepFail_frame 7 buDependency g (stepTaken 7 s)
  exact ⟨_, (buConvoyGo_request s w hboot hgo hacc).trans (congrArg _ ((requestStep_lacks hstate (by omega) (convoy_mayRun hstep hfail) hoff).trans hframe)),
    rfl, rfl, rfl, hstep, rfl, rfl, rfl, rfl⟩

theorem buConvoyAccept_accepts (hboot : s.bu.bootOk = true) (hstate : s.bu.state = 2) (hfail : s.bu.failedStep = 7) (hover : s.bu.cvOver = true) (hstep : s.bu.step = 6)
    (hgo : w.getLsbD 0 = false) (hacc : w.getLsbD 1 = true) :
    exec (.buConvoyAccept w) s = .next { s with bu := { s.bu with step := 7, state := 0, running := 0, failedStep := 0, degraded := true } } := by
  refine congrArg Host.Outcome.next ((buConvoy_eq hboot w).trans ?_)
  have hdone : acceptConvoy s = stepDone 7 true s := if_pos ⟨hover, hfail, hstate⟩
  rw [hgo, hacc, hdone]
  simp only [stepDone, hstep, Bool.or_true]
  rfl

theorem buConvoyAccept_stays (hover : s.bu.cvOver = false) (hgo : w.getLsbD 0 = false) : exec (.buConvoyAccept w) s = .next s := by
  have hacc : acceptConvoy s = s := if_neg (by simp [hover])
  cases hboot : s.bu.bootOk with
  | false => exact congrArg _ (buWrite32_closed hboot _ w)
  | true =>
    refine congrArg Host.Outcome.next ((buConvoy_eq hboot w).trans ?_)
    rw [hgo, hacc, ite_self]
    rfl

/-! ### Steps 8 to 10 -/

/-- A write of BU_STEWARD_RUN that names one of the steps 8 to 10. -/
theorem writeStewardRun_step {n : Nat} (hboot : s.bu.bootOk = true) (hgo : w.getLsbD 0 = false) (hst : bits w.toNat 8 4 = n) (hn : n = 8 ∨ n = 9 ∨ n = 10) :
    buWrite32 0x2C w s = requestStep n s := by
  rw [buStewardRun_eq hboot w, writeStewardRun, hst, bit_toNat, hgo, if_neg Bool.false_ne_true, if_neg (by omega), if_pos hn]

theorem buStepFactoryCal_starts (hboot : s.bu.bootOk = true) (hstate : s.bu.state = 0 ∨ s.bu.state = 2) (hstep : s.bu.step = 8) (hgo : w.getLsbD 0 = false)
    (hst : bits w.toNat 8 4 = 9) (hon : ∀ g, g ∈ [0, 1, 6, 7, 8, 9] → s.bu.on.getLsbD g = true) :
    exec (.buStepFactoryCal w) s = .next { s with bu := { s.bu with state := 1, running := 9, elapsed := 0 } } :=
  congrArg Host.Outcome.next ((writeStewardRun_step s w hboot hgo hst (by decide)).trans
    (requestStep_starts hstate (by omega) (by simp [stepMayRun, hstep]) hon))

/-- The request of step 10 asks for P0 on every port in service (R426). -/
theorem userCal_request (hboot : s.bu.bootOk = true) (hstate : s.bu.state = 0 ∨ s.bu.state = 2) (hstep : s.bu.step = 9) (hgo : w.getLsbD 0 = false)
    (hst : bits w.toNat 8 4 = 10) (hon : ∀ g, g ∈ [0, 1, 6, 7, 8, 9] → s.bu.on.getLsbD g = true) :
    exec (.buStepUserCal w) s = .next (match portWithoutP0 s with
      | some p => stepFail 10 buNoP0 p (stepTaken 10 s)
      | none => (liveFields s).foldl calibrateField (stepTaken 10 s)) :=
  congrArg Host.Outcome.next ((writeStewardRun_step s w hboot hgo hst (by decide)).trans
    (requestStep_starts hstate (by omega) (by simp [stepMayRun, hstep]) hon))

theorem calibrateField_bu (s : State) (f : Nat) : (calibrateField s f).bu = s.bu := by
  unfold calibrateField
  dsimp only
  refine (foldl_keep State.bu _ (fun t b => ?_) _ _).trans rfl
  split
  · rw [(startProc_procsOnly _ _ _ _ _ t).frame]
  · rw [(startProc_procsOnly _ _ _ _ _ t).frame]

theorem buStepUserCal_starts (hboot : s.bu.bootOk = true) (hstate : s.bu.state = 0 ∨ s.bu.state = 2) (hstep : s.bu.step = 9) (hgo : w.getLsbD 0 = false)
    (hst : bits w.toNat 8 4 = 10) (hon : ∀ g, g ∈ [0, 1, 6, 7, 8, 9] → s.bu.on.getLsbD g = true) (hp0 : portWithoutP0 s = none) :
    Completes (.buStepUserCal w) s (fun t => t.bu = { s.bu with state := 1, running := 10, elapsed := 0 }) := by
  refine ⟨_, (userCal_request s w hboot hstate hstep hgo hst hon).trans (by rw [hp0]), ?_⟩
  exact foldl_keep State.bu _ calibrateField_bu (liveFields s) (stepTaken 10 s)

theorem buStepUserCal_lacks (p : Nat) (hboot : s.bu.bootOk = true) (hstate : s.bu.state = 0 ∨ s.bu.state = 2) (hstep : s.bu.step = 9) (hgo : w.getLsbD 0 = false)
    (hst : bits w.toNat 8 4 = 10) (hon : ∀ g, g ∈ [0, 1, 6, 7, 8, 9] → s.bu.on.getLsbD g = true) (hp0 : portWithoutP0 s = some p) :
    Completes (.buStepUserCal w) s (fun t => t.bu.failedStep = 10 ∧ t.bu.state = 2 ∧ t.bu.fltCode = buNoP0 ∧ t.bu.fltDetail = p) := by
  obtain ⟨h, b, v, hframe⟩ := stepFail_frame 10 buNoP0 p (stepTaken 10 s)
  refine ⟨stepFail 10 buNoP0 p (stepTaken 10 s), (userCal_request s w hboot hstate hstep hgo hst hon).trans (by rw [hp0]), ?_⟩
  rw [hframe]
  exact ⟨rfl, rfl, rfl, rfl⟩

end

/-! ### Warm-up (R423) -/

/-- `t` has what the warm-up's set-up leaves: the bring-up registers, the time and the engine of `s`, and which fields are fenced. -/
structure SetsUp (s t : State) : Prop where
  bu : t.bu = s.bu
  tim : t.tim = s.tim
  eng : t.eng = s.eng
  fenced : ∀ f, (t.field f).fenced = (s.field f).fenced

section
variable {s t u : State}

theorem SetsUp.refl (s : State) : SetsUp s s := ⟨rfl, rfl, rfl, fun _ => rfl⟩

theorem SetsUp.trans (h : SetsUp s t) (h' : SetsUp t u) : SetsUp s u :=
  ⟨h'.bu.trans h.bu, h'.tim.trans h.tim, h'.eng.trans h.eng, fun f => (h'.fenced f).trans (h.fenced f)⟩

theorem SetsUp.foldl {α : Type} {f : State → α → State} (h : ∀ s a, SetsUp s (f s a)) (l : List α) (s : State) : SetsUp s (l.foldl f s) :=
  foldl_inv (SetsUp s) f (fun t a ht => ht.trans (h t a)) l s (.refl s)

end

/-- The shipped values change the loop slots (R162, R423). -/
theorem shipSlots_frame (s : State) : ∃ l, shipSlots s = { s with loops := l } := by
  unfold shipSlots
  refine foldl_inv (fun t : State => ∃ l, t = { s with loops := l }) _ (fun t n ht => ?_) _ s ⟨_, rfl⟩
  obtain ⟨l, rfl⟩ := ht
  split <;> exact ⟨_, rfl⟩

/-- The light store changes light columns and ports (R423). -/
theorem loadLight_frame (s : State) : ∃ p l, loadLight s = { s with lports := p, lcols := l } := by
  unfold loadLight
  refine foldl_inv (fun t : State => ∃ p l, t = { s with lports := p, lcols := l }) _ (fun t n ht => ?_) _ _ ?_
  · obtain ⟨p, l, rfl⟩ := ht
    dsimp only
    split <;> exact ⟨_, _, rfl⟩
  · refine foldl_inv (fun t : State => ∃ p l, t = { s with lports := p, lcols := l }) _ (fun t n ht => ?_) _ s ⟨_, _, rfl⟩
    obtain ⟨p, l, rfl⟩ := ht
    exact ⟨_, _, rfl⟩

/-- A self-test takes the converter's turn, with its enable and its pending commit as they were (R135). -/
theorem startSelfTest_sets (k : Nat) (cmd : Option Nat) (s : State) : ∃ y g, startSelfTest k cmd s = (({ s with fields := g } : State).setMon k y) ∧
    y.enable = (s.mon k).enable ∧ y.commitPend = (s.mon k).commitPend ∧ ∀ f, (tget {} g f : Field).fenced = (s.field f).fenced := by
  unfold startSelfTest
  dsimp only
  split
  · exact ⟨_, _, rfl, rfl, rfl, fun _ => rfl⟩
  · refine ⟨_, _, rfl, ?_, ?_, fun f => ?_⟩
    · dsimp only [startInject]
      split <;> rfl
    · dsimp only [startInject]
      split <;> rfl
    · refine (congrArg Field.fenced (field_modField s (k % 32) f (fun x => { x with testV := if (s.mon k).selfRuns % 2 = 0 then 1 else -1 }))).trans ?_
      split
      next hf => rw [hf]
      next => rfl

theorem startSelfTest_keeps (k m : Nat) (cmd : Option Nat) (s : State) :
    ((startSelfTest k cmd s).mon m).enable = (s.mon m).enable ∧ ((startSelfTest k cmd s).mon m).commitPend = (s.mon m).commitPend := by
  obtain ⟨y, g, h, hen, hpend, -⟩ := startSelfTest_sets k cmd s
  rw [h, mon_setMon]
  split
  next hm => exact hm ▸ ⟨hen, hpend⟩
  next => exact ⟨rfl, rfl⟩

theorem startSelfTest_setsUp (k : Nat) (cmd : Option Nat) (s : State) : SetsUp s (startSelfTest k cmd s) := by
  obtain ⟨y, g, h, -, -, hfenced⟩ := startSelfTest_sets k cmd s
  rw [h]
  exact ⟨rfl, rfl, rfl, hfenced⟩

theorem startMonitors_starts {m : Nat} (hm : m < 61) (s : State) : ((startMonitors s).mon m).enable = true ∧ ((startMonitors s).mon m).commitPend = true := by
  refine foldl_reaches (I := fun _ => True) (Q := fun t : State => (t.mon m).enable = true ∧ (t.mon m).commitPend = true) (List.mem_range.mpr hm)
    (fun _ _ h => h) (fun t _ => ?_) (fun t k ht => ?_) s trivial
  · rw [mon_modMon, if_pos rfl]
    exact ⟨rfl, rfl⟩
  · rw [mon_modMon]
    split
    · exact ⟨rfl, rfl⟩
    · exact ht

/-- The self-tests of the warm-up (R135). -/
def selfTests (s : State) : State := (List.range 64).foldl (fun (s : State) k => startSelfTest k none s) s

/-- The warm-up up to the thermal locks. -/
def warmupSetup (s : State) : State := loadLight (shipSlots (selfTests (startMonitors s)))

theorem warmupSetup_frame (s : State) : ∃ l p c, warmupSetup s = { selfTests (startMonitors s) with loops := l, lports := p, lcols := c } := by
  unfold warmupSetup
  generalize selfTests (startMonitors s) = t
  obtain ⟨l, hship⟩ := shipSlots_frame t
  obtain ⟨p, c, hlight⟩ := loadLight_frame (shipSlots t)
  exact ⟨l, p, c, by rw [hlight, hship]⟩

theorem modMon_setsUp (s : State) (k : Nat) (g : Mon → Mon) : SetsUp s (s.modMon k g) := ⟨rfl, rfl, rfl, fun _ => rfl⟩

theorem startMonitors_setsUp (s : State) : SetsUp s (startMonitors s) := by
  unfold startMonitors
  refine .foldl (fun t k => ?_) _ s
  exact modMon_setsUp _ _ _

theorem selfTests_setsUp (s : State) : SetsUp s (selfTests s) := .foldl (fun t k => startSelfTest_setsUp k none t) _ s

theorem warmupSetup_setsUp (s : State) : SetsUp s (warmupSetup s) := by
  have htests := (startMonitors_setsUp s).trans (selfTests_setsUp (startMonitors s))
  obtain ⟨l, p, c, hframe⟩ := warmupSetup_frame s
  generalize selfTests (startMonitors s) = t at htests hframe
  rw [hframe]
  exact ⟨htests.bu, htests.tim, htests.eng, htests.fenced⟩

theorem warmupSetup_mons {m : Nat} (hm : m < 61) (s : State) : ((warmupSetup s).mon m).enable = true ∧ ((warmupSetup s).mon m).commitPend = true := by
  have htests : ((selfTests (startMonitors s)).mon m).enable = true ∧ ((selfTests (startMonitors s)).mon m).commitPend = true :=
    foldl_inv (fun t : State => (t.mon m).enable = true ∧ (t.mon m).commitPend = true) _
      (fun t k ht => ⟨(startSelfTest_keeps k m none t).1.trans ht.1, (startSelfTest_keeps k m none t).2.trans ht.2⟩) (List.range 64) _ (startMonitors_starts hm s)
  obtain ⟨l, p, c, hframe⟩ := warmupSetup_frame s
  generalize selfTests (startMonitors s) = t at htests hframe
  rw [hframe]
  exact htests

/-- The thermal locks of the fields in `l` start. -/
def startLocks (l : List Nat) (s : State) : State := l.foldl (fun (s : State) f => s.modField f (fun x => { x with tlStart := some s.tim.beat, tlLocked := false })) s

theorem startLocks_frame (l : List Nat) (s : State) : ∃ x, startLocks l s = { s with fields := x } :=
  foldl_inv (fun t : State => ∃ x, t = { s with fields := x }) _ (fun t f ht => by obtain ⟨_, rfl⟩ := ht; exact ⟨_, rfl⟩) l s ⟨_, rfl⟩

theorem startLocks_starts {l : List Nat} {f : Nat} (hf : f ∈ l) (s : State) : ((startLocks l s).field f).tlStart = some s.tim.beat := by
  unfold startLocks
  refine (foldl_reaches (f := fun (t : State) f => t.modField f (fun x => { x with tlStart := some t.tim.beat, tlLocked := false })) (I := fun t : State => t.tim = s.tim) (Q := fun t : State => t.tim = s.tim ∧ (t.field f).tlStart = some s.tim.beat) hf
    (fun _ _ h => h) (fun t ht => ⟨ht, ?_⟩) (fun t j ht => ⟨ht.1, ?_⟩) s rfl).2
  · rw [field_modField, if_pos rfl, ht]
  · rw [field_modField]
    split
    · rw [ht.1]
    · exact ht.2

theorem warmupStart_eq (s : State) : warmupStart s = startLocks (liveFields { warmupSetup s with eng := { (warmupSetup s).eng with run := true } })
    { warmupSetup s with eng := { (warmupSetup s).eng with run := true } } := by
  unfold warmupStart warmupSetup selfTests startLocks
  rfl

theorem warmup_starts (s : State) (w : BitVec 32) (m f : Nat) (hboot : s.bu.bootOk = true) (hstate : s.bu.state = 0 ∨ s.bu.state = 2) (hstep : s.bu.step = 7) (hgo : w.getLsbD 0 = false)
    (hst : bits w.toNat 8 4 = 8) (hon : ∀ g, g ∈ [0, 1, 5, 6, 7, 8, 9] → s.bu.on.getLsbD g = true) (hm : m < 61) (hf : f < 32) (hfence : (s.field f).fenced = false) :
    Completes (.buStepWarmup w) s (fun t => t.bu = { s.bu with state := 1, running := 8, elapsed := 0 } ∧ (t.mon m).enable = true ∧ (t.mon m).commitPend = true ∧
      t.eng = { s.eng with run := true } ∧ (t.field f).tlStart = some s.tim.beat) := by
  have hrequest := (writeStewardRun_step s w hboot hgo hst (by decide)).trans (requestStep_starts hstate (by omega) (by simp [stepMayRun, hstep]) hon)
  have hsetup := warmupSetup_setsUp (stepTaken 8 s)
  have hmon := warmupSetup_mons hm (stepTaken 8 s)
  generalize hu : warmupSetup (stepTaken 8 s) = u at hsetup hmon
  have hwarm : warmupStart (stepTaken 8 s) = startLocks (liveFields u) { u with eng := { u.eng with run := true } } := by
    rw [warmupStart_eq, hu]
    rfl
  have hlive : f ∈ liveFields u := List.mem_filter.mpr ⟨List.mem_range.mpr hf, by rw [hsetup.fenced]; exact congrArg (!·) hfence⟩
  have hlock := startLocks_starts hlive { u with eng := { u.eng with run := true } }
  obtain ⟨x, hframe⟩ := startLocks_frame (liveFields u) { u with eng := { u.eng with run := true } }
  refine ⟨_, congrArg Host.Outcome.next (hrequest.trans hwarm), ?_, ?_, ?_, ?_, hlock.trans (congrArg (fun t : Tim => some t.beat) hsetup.tim)⟩
  all_goals rw [hframe]
  · exact hsetup.bu
  · exact hmon.1
  · exact hmon.2
  · exact congrArg (fun e : LoopEng => { e with run := true }) hsetup.eng

/-- Settles O57: each write by the request of a step that it makes, each request by what it starts. -/
theorem bringupWritesAct : Obligations.BringupWritesAct :=
  ⟨buDomainEnWrite_starts, buPllGo_starts, buPllGo_order, buWrites_nothing, buHbmTrainGo_starts, buImgLoad_starts, buAuthVerify_starts, buStewardRun_starts,
    buConvoyGo_starts, buConvoyGo_lacks, buConvoyAccept_accepts, buConvoyAccept_stays, warmup_starts, buStepFactoryCal_starts, buStepUserCal_starts, buStepUserCal_lacks⟩

end Sys2Proof.Machine
end

section
/-! A statement about flits that fails: the count of flits since the last marker wraps. -/

namespace Sys2Proof.Machine

open Sys2Proof

/-- Port 0 is up with one packet to send, and its count of flits since the last marker stands beyond the marker's place. -/
def flitsBeyondMarker : State := { ports := [(0, { state := 2, flits := 600, waiting := [{}] })] }

/-- Refutes O43: the count of flits goes on modulo 512 (R354), so a count beyond 511 does not rise by one. The statement excludes 511 alone. -/
theorem not_flitsAct : ¬ Obligations.FlitsAct := by
  intro h
  obtain ⟨t, hexec, fl, -, -, -, -, -, -, hflits, -⟩ := h.1 flitsBeyondMarker 0 {} (by decide) rfl rfl rfl (by decide) (by decide) (by decide +kernel)
  have hcount : ∀ u, exec (.flitSend 0) flitsBeyondMarker = .next u → (u.port 0).flits = 89 := by
    intro u hu
    cases hu
    rfl
  exact absurd ((hcount t hexec).symm.trans hflits) (by decide)

end Sys2Proof.Machine
end

section
/-! Link ports train, narrow, fall and retrain, and their light engines are polled (R351, R353, R358 to R360). -/

namespace Sys2Proof.Machine

open Sys2Proof State

/-! ### A port that goes down -/

theorem checkAbsent_frame (d : Nat) (s : State) : ∃ l, checkAbsent d s = { s with link := l } := by
  unfold checkAbsent
  dsimp only
  split <;> exact ⟨_, rfl⟩

/-- A port that goes down has state 0 and all its flits to resend; of the other ports and of itself packets that wait may move (R360). -/
theorem portDown_ports {s : State} {p : Nat} (h : (s.port p).state ≠ 3) :
    (∃ x l, portDown p s = { s with ports := x, link := l }) ∧
      ∀ q, ∃ w, (portDown p s).port q = { (if q = p then { s.port p with state := 0, resend := (s.port p).replayBuf.length } else s.port q) with waiting := w } := by
  obtain ⟨u, hu⟩ : ∃ u, u = s.setPort p { s.port p with state := 0, resend := (s.port p).replayBuf.length } := ⟨_, rfl⟩
  obtain ⟨hframe, hports⟩ := resteered_resteer p u
  obtain ⟨l, habsent⟩ := checkAbsent_frame (dirOf p) (resteer p u)
  have hdown : portDown p s = { resteer p u with link := l } := by
    rw [hu] at habsent ⊢
    exact (if_neg h).trans habsent
  refine ⟨⟨(resteer p u).ports, l, ?_⟩, fun q => ?_⟩
  · rw [hdown, hframe, hu]
    rfl
  · obtain ⟨w, hw⟩ := hports q
    refine ⟨w, ?_⟩
    rw [hdown, port_congr (resteer p u) { resteer p u with link := l } rfl, hw, hu, port_setPort]

theorem portDown_state {s : State} {p : Nat} (h : (s.port p).state ≠ 3) : ((portDown p s).port p).state = 0 := by
  obtain ⟨w, hw⟩ := (portDown_ports h).2 p
  rw [hw, if_pos rfl]

/-- The port of a state whose table is another's with one port set. -/
theorem port_set_self (s : State) (p : Nat) (l : LinkPort) {t : State} (h : t.ports = (s.setPort p l).ports) : t.port p = l :=
  (port_congr _ _ h p).trans ((port_setPort s p p l).trans (if_pos rfl))

theorem port_set_ne (s : State) (p : Nat) (l : LinkPort) {t : State} (h : t.ports = (s.setPort p l).ports) {q : Nat} (hq : q ≠ p) : t.port q = s.port q :=
  (port_congr _ _ h q).trans ((port_setPort s p q l).trans (if_neg hq))

/-! ### Training -/

theorem linkPortTrained_comesUp (s : State) (p : Nat) (q : BitVec 4) (hp : p < 24) (hstate : (s.port p).state = 1) (hlight : s.pins.leFltN.getLsbD p = true)
    (hq : q &&& ~~~(s.port p).disQuads ≠ 0) (hcmd : (s.port p).cmd = none) (hphase : s.link.phase ≠ 1) :
    Completes (.linkPortTrained p q (s.port p).lightNext true) s (fun t => (t.port p).state = 2 ∧ (t.port p).quadOk = q &&& ~~~(s.port p).disQuads ∧
      (t.port p).width = popcount 4 (q &&& ~~~(s.port p).disQuads).toNat - 1 ∧ (t.port p).light = (s.port p).lightNext ∧
      (t.port p).resend = (s.port p).replayBuf.length ∧ (∀ j, j ≠ p → t.port j = s.port j) ∧ t = { s with ports := t.ports }) := by
  obtain ⟨l, hl⟩ : ∃ l : LinkPort, l = { s.port p with
    state := 2, quadOk := q &&& ~~~(s.port p).disQuads, width := popcount 4 (q &&& ~~~(s.port p).disQuads).toNat - 1, light := (s.port p).lightNext, reason := 0, retries := 0
    laneEn := lanesOf (q &&& ~~~(s.port p).disQuads), resend := (s.port p).replayBuf.length, reqReplay := false } := ⟨_, rfl⟩
  have hidle : ((s.setPort p l).port p).cmd = none := by
    rw [port_set_self s p l rfl, hl]
    exact hcmd
  have hexec : exec (.linkPortTrained p q (s.port p).lightNext true) s = .next (s.setPort p l) := by
    have hup : (true && s.pins.leFltN.getLsbD p) = true := by rw [hlight, Bool.and_self]
    refine congrArg Host.Outcome.next ((if_neg (by omega)).trans ((if_neg (by simp)).trans ((if_neg fun h => h.elim (by simp [hlight]) hq).trans ?_)))
    rw [hl] at hidle ⊢
    dsimp only
    rw [answerPort_idle _ hidle]
    exact if_neg hphase
  have hport := port_set_self s p l (t := s.setPort p l) rfl
  refine ⟨_, hexec, ?_, ?_, ?_, ?_, ?_, fun j hj => port_set_ne s p l rfl hj, rfl⟩
  all_goals rw [hport, hl]

/-- An answer at a port changes the commands and takes the command from the port. -/
theorem answerPort_leaves (p : Nat) (r : Reply) (s : State) :
    (∃ x c, answerPort p r s = { s with ports := x, cmds := c }) ∧ ∃ k, (answerPort p r s).port p = { s.port p with cmd := k } := by
  unfold answerPort
  split
  next h => exact ⟨⟨s.ports, s.cmds, rfl⟩, none, by rw [← h]⟩
  next k _ =>
    refine ⟨⟨(s.modPort p fun l => { l with cmd := none }).ports, (finishCmd k r s).cmds, rfl⟩, none, ?_⟩
    refine (port_congr (s.modPort p fun l => { l with cmd := none }) _ rfl p).trans ?_
    rw [port_modPort, if_pos rfl]

/-- A training that fails leaves the port down for a retry; three retries in a row end it (R360). -/
theorem trainFailed_retries {s : State} {p : Nat} (reason : Nat) (h : (s.port p).retries < 3) :
    ((trainFailed p reason s).port p).state = 0 ∧ ((trainFailed p reason s).port p).reason = reason ∧
      ((trainFailed p reason s).port p).retries = (s.port p).retries + 1 ∧ ((trainFailed p reason s).port p).retryAt = s.tim.beat ∧
      ∃ x c, trainFailed p reason s = { s with ports := x, cmds := c } := by
  obtain ⟨l, hl⟩ : ∃ l : LinkPort, l = { s.port p with state := 0, reason := reason, retries := min 3 ((s.port p).retries + 1), retryAt := s.tim.beat } := ⟨_, rfl⟩
  have hn : min 3 ((s.port p).retries + 1) = (s.port p).retries + 1 := by omega
  obtain ⟨⟨x, c, hframe⟩, k, hport⟩ := answerPort_leaves p { status := stDegraded } (s.setPort p l)
  rw [port_set_self s p l rfl] at hport
  have hfail : trainFailed p reason s = answerPort p { status := stDegraded } (s.setPort p l) := by
    unfold trainFailed
    dsimp only
    rw [if_neg fun h' => absurd h'.1 (Nat.ne_of_lt h), hl]
  rw [hfail, hport]
  refine ⟨by rw [hl], by rw [hl], ?_, by rw [hl], x, c, hframe⟩
  rw [hl]
  exact hn

theorem linkPortTrained_mismatch (s : State) (p : Nat) (q : BitVec 4) (x : Bool) (hp : p < 24) (hstate : (s.port p).state = 1)
    (hlight : s.pins.leFltN.getLsbD p = true) (hx : x ≠ (s.port p).lightNext) (hretries : (s.port p).retries < 3) :
    Completes (.linkPortTrained p q x true) s (fun t => (t.port p).state = 0 ∧ (t.port p).reason = 5 ∧ (t.port p).retries = (s.port p).retries + 1 ∧
      (t.port p).retryAt = s.tim.beat ∧ t = { s with ports := t.ports, cmds := t.cmds }) := by
  obtain ⟨hstate', hreason, hcount, hat, ports, cmds, hframe⟩ := trainFailed_retries (s := s) (p := p) 5 hretries
  refine ⟨_, congrArg Host.Outcome.next ((if_neg (by omega)).trans (if_pos ⟨by simp [hlight], hx⟩)), hstate', hreason, hcount, hat, ?_⟩
  rw [hframe]

theorem linkPortDown_falls (s : State) (p : Nat) (hp : p < 24) (hstate : (s.port p).state ≠ 3) :
    Completes (.linkPortDown p) s (fun t => (t.port p).state = 0 ∧ (t.port p).resend = (s.port p).replayBuf.length ∧ (∀ j, j ≠ p → (t.port j).state = (s.port j).state) ∧
      t = { s with ports := t.ports, link := t.link }) := by
  obtain ⟨⟨x, l, hframe⟩, hports⟩ := portDown_ports hstate
  refine ⟨_, congrArg Host.Outcome.next (if_pos ⟨hp, hstate⟩), portDown_state hstate, ?_, fun j hj => ?_, ?_⟩
  · obtain ⟨w, hw⟩ := hports p
    rw [hw, if_pos rfl]
  · obtain ⟨w, hw⟩ := hports j
    rw [hw, if_neg hj]
  · rw [hframe]

/-! ### Lanes that fail (R358, R359) -/

/-- The port after its quads `q` are taken out. -/
def narrowed (p : Nat) (q : BitVec 4) (s : State) : LinkPort :=
  { (s.port p).dropQuads q with laneEn := lanesOf ((s.port p).dropQuads q).quadOk, dropAt := some s.tim.beat, resend := (s.port p).replayBuf.length }

section
variable {s : State} {p n : Nat} {q : BitVec 4} (hp : p < 24) (hn : n < 16) (hstate : (s.port p).state = 2) (hq : q = BitVec.twoPow 4 (n / 4))
  (hhas : (s.port p).quadOk &&& q ≠ 0)
include hp hn hstate hq hhas

theorem laneFail_eq : exec (.laneFail p n) s = .next (
    if ((s.port p).dropQuads q).state = 0 then portDown p (post 0x0802 (leBytes 1 p ++ leBytes 1 q.toNat) (s.setPort p (narrowed p q s)))
    else post 0x0802 (leBytes 1 p ++ leBytes 1 q.toNat) (s.setPort p (narrowed p q s))) := by
  subst hq
  exact congrArg Host.Outcome.next (if_pos ⟨hp, hn, hstate, hhas⟩)

end

/-- The port of the lane after the quads are out and the event is sent. -/
theorem port_narrowed (p : Nat) (q : BitVec 4) (items : List Byte) (s : State) : (post 0x0802 items (s.setPort p (narrowed p q s))).port p = narrowed p q s := by
  refine port_set_self s p _ ?_
  rw [(post_eventsOnly _ _ _).frame]

theorem laneFail_narrows (s : State) (p n : Nat) (q : BitVec 4) (hp : p < 24) (hn : n < 16) (hstate : (s.port p).state = 2) (hq : q = BitVec.twoPow 4 (n / 4))
    (hhas : (s.port p).quadOk &&& q ≠ 0) (hleft : (s.port p).quadOk &&& ~~~q ≠ 0) :
    Completes (.laneFail p n) s (fun t => (t.port p).state = 2 ∧ (t.port p).quadOk = (s.port p).quadOk &&& ~~~q ∧
      (t.port p).width = popcount 4 ((s.port p).quadOk &&& ~~~q).toNat - 1 ∧ (t.port p).dropAt = some s.tim.beat) := by
  have hdrop : (s.port p).dropQuads q = { s.port p with quadOk := (s.port p).quadOk &&& ~~~q, width := popcount 4 ((s.port p).quadOk &&& ~~~q).toNat - 1 } := if_neg hleft
  have hup : ¬ ((s.port p).dropQuads q).state = 0 := by
    rw [hdrop, hstate]
    decide
  refine ⟨_, (laneFail_eq hp hn hstate hq hhas).trans (congrArg _ (if_neg hup)), ?_⟩
  dsimp only
  rw [port_narrowed, narrowed, hdrop]
  exact ⟨hstate, rfl, rfl, rfl⟩

theorem laneFail_downs (s : State) (p n : Nat) (q : BitVec 4) (hp : p < 24) (hn : n < 16) (hstate : (s.port p).state = 2) (hq : q = BitVec.twoPow 4 (n / 4))
    (hall : (s.port p).quadOk = q) : Completes (.laneFail p n) s (fun t => (t.port p).state = 0) := by
  have hhas : (s.port p).quadOk &&& q ≠ 0 := by
    rw [hall, BitVec.and_self, hq]
    exact fun h => by simpa [show n / 4 < 4 by omega] using congrArg (fun b : BitVec 4 => b.getLsbD (n / 4)) h
  have hnone : (s.port p).quadOk &&& ~~~q = 0 := by
    rw [hall]
    exact BitVec.and_not_self _
  have hdown : ((s.port p).dropQuads q).state = 0 := by
    unfold LinkPort.dropQuads
    rw [hnone]
    simp [hstate]
  refine ⟨_, (laneFail_eq hp hn hstate hq hhas).trans (congrArg _ (if_pos hdown)), portDown_state ?_⟩
  rw [port_narrowed, narrowed]
  dsimp only
  rw [hdown]
  decide

/-- An option that holds `b` holds something that `q` takes, when it takes `b`. -/
theorem any_of_some {o : Option Nat} {b : Nat} {q : Nat → Bool} (h : o = some b) (hq : q b = true) : o.any q = true := by
  subst h
  exact hq

theorem laneDropRetrain_trains (s : State) (p b : Nat) (hp : p < 24) (hstate : (s.port p).state ≠ 3) (hlight : s.pins.leFltN.getLsbD p = true)
    (hdrop : (s.port p).dropAt = some b) (hb : b + 1000000 ≤ s.tim.beat) :
    Completes (.laneDropRetrain p) s (fun t => (t.port p).state = 1 ∧ (t.port p).dropAt = none ∧ t = { s with ports := t.ports, pins := t.pins }) := by
  obtain ⟨w, hw⟩ := startTraining_port p s
  exact ⟨_, congrArg Host.Outcome.next (if_pos ⟨hp, hstate, hlight, any_of_some hdrop (decide_eq_true hb)⟩), by rw [hw], by rw [hw], startTraining_onlyPorts p s⟩

/-! ### Light engines (R351) -/

theorem leFltNFall_downs (s : State) (p : Nat) (hp : p < 24) (hen : s.pins.leEn.getLsbD p = true) (hstate : (s.port p).state ≠ 3) :
    Completes (.leFltNFall p) s (fun t => (t.port p).state = 0 ∧ t.pins.leFltN.getLsbD p = false ∧ (∀ j, j ≠ p → t.pins.leFltN.getLsbD j = s.pins.leFltN.getLsbD j)) := by
  obtain ⟨u, hu⟩ : ∃ u, u = s.modPins (fun x => { x with leFltN := x.leFltN &&& ~~~(BitVec.twoPow 24 p) }) := ⟨_, rfl⟩
  have hstate' : (u.port p).state ≠ 3 := by
    rw [hu, port_congr s _ (modPins_ports _ _)]
    exact hstate
  obtain ⟨⟨x, l, hframe⟩, -⟩ := portDown_ports hstate'
  have hpost := (post_eventsOnly 0x0801 (leBytes 1 p) (portDown p u)).frame
  have hpins : (post 0x0801 (leBytes 1 p) (portDown p u)).pins = { s.pins with leFltN := s.pins.leFltN &&& ~~~(BitVec.twoPow 24 p) } := by
    rw [hpost, hframe, hu]
    rfl
  have hen' : u.pins.leEn.getLsbD p = true := by
    rw [hu]
    exact hen
  refine ⟨post 0x0801 (leBytes 1 p) (portDown p u), congrArg Host.Outcome.next ((if_neg (Nat.not_le.mpr hp)).trans ?_), ?_, ?_, fun j hj => ?_⟩
  · rw [hu] at hen' ⊢
    exact if_pos hen'
  · rw [port_congr (portDown p u) _ (by rw [hpost]), portDown_state hstate']
  · rw [hpins]
    simp [hp]
  · rw [hpins]
    by_cases hj24 : j < 24
    · simp [hj, hj24]
    · simp [BitVec.getLsbD_of_ge _ _ (Nat.le_of_not_lt hj24)]

theorem leFltNRestore_trains (s : State) (p : Nat) (hp : p < 24) (hlow : s.pins.leFltN.getLsbD p = false) (hen : s.pins.leEn.getLsbD p = true)
    (hstate : (s.port p).state = 0) :
    Completes (.leFltNRestore p) s (fun t => (t.port p).state = 1 ∧ t.pins.leFltN.getLsbD p = true ∧ t = { s with ports := t.ports, pins := t.pins }) := by
  obtain ⟨u, hu⟩ : ∃ u, u = s.modPins (fun x => { x with leFltN := x.leFltN ||| BitVec.twoPow 24 p }) := ⟨_, rfl⟩
  obtain ⟨w, hw⟩ := startTraining_port p u
  refine ⟨startTraining p u, congrArg Host.Outcome.next ((if_neg fun h => h.elim (Nat.not_le.mpr hp) (by rw [hlow]; decide)).trans ?_), by rw [hw], ?_, onlyPorts_trans ?_ (startTraining_onlyPorts p u)⟩
  · rw [hu]
    exact if_pos ⟨hen, hstate⟩
  · rw [startTraining_pins, hu]
    show (s.pins.leFltN ||| BitVec.twoPow 24 p).getLsbD p = true
    simp [hp]
  · rw [hu]
    rfl

theorem lightEnginePoll_disables (s : State) (p : Nat) (a : Bool) (pr st tp : BitVec 16) (rx : List Int) (hp : p < 24) (hbad : a = false ∨ pr ≠ 1) (hstate : (s.port p).state ≠ 3) :
    Completes (.lightEnginePoll p a pr st tp rx) s (fun t => (t.port p).state = 3 ∧ (t.port p).reason = 2 ∧ t.pins.leEn.getLsbD p = false ∧
      t = { s with ports := t.ports, pins := t.pins, link := t.link, cmds := t.cmds }) := by
  obtain ⟨⟨x, l, hframe⟩, -⟩ := portDown_ports hstate
  obtain ⟨⟨x', c, hanswer⟩, -⟩ := answerPort_leaves p { status := stDegraded } (portDown p s)
  rw [hframe] at hanswer
  have hbad' : ¬ (a = true ∧ pr = 1) := by
    rintro ⟨ha, hpr⟩
    rcases hbad with h | h
    · rw [ha] at h
      cases h
    · exact h hpr
  have hport := port_modPort ({ s with ports := x', link := l, cmds := c } : State) p p (fun l => { l with state := 3, reason := 2 })
  rw [if_pos rfl] at hport
  refine ⟨((answerPort p { status := stDegraded } (portDown p s)).modPort p (fun l => { l with state := 3, reason := 2 })).modPins
    (fun x => { x with leEn := x.leEn &&& ~~~(BitVec.twoPow 24 p) }),
    congrArg Host.Outcome.next ((if_neg (Nat.not_le.mpr hp)).trans ((if_neg hbad').trans (if_neg hstate))), ?_⟩
  rw [hframe, hanswer]
  refine ⟨congrArg LinkPort.state hport, congrArg LinkPort.reason hport, ?_, rfl⟩
  show (s.pins.leEn &&& ~~~(BitVec.twoPow 24 p)).getLsbD p = false
  simp [hp]

/-- Settles O44: each row by the state of the port that it leaves. -/
theorem linkPortsAct : Obligations.LinkPortsAct :=
  ⟨linkPortTrained_comesUp, linkPortTrained_mismatch, linkPortDown_falls, laneFail_narrows, laneFail_downs, laneDropRetrain_trains,
    fun _ _ hp hstate hretries hat => congrArg Host.Outcome.next (if_pos ⟨hp, hstate, hretries, hat⟩),
    fun _ _ hat => congrArg Host.Outcome.next (if_neg fun h => absurd h.2.2.2 (Nat.not_le.mpr hat)), leFltNFall_downs, leFltNRestore_trains,
    fun _ _ _ _ _ hp => congrArg Host.Outcome.next ((if_neg (Nat.not_le.mpr hp)).trans (if_pos ⟨rfl, rfl⟩)), lightEnginePoll_disables⟩

end Sys2Proof.Machine
end

section
/-! Packets are delivered, forwarded, stored, refused and acknowledged (R361 to R364, R366, R369). -/

namespace Sys2Proof.Machine

open Sys2Proof State

/-! ### Packets that move on -/

theorem packetForward_delivers (s : State) (pk : Packet) (p : Nat) (hp : p < 24) (hwaits : packetWaits s pk p = true) (hdst : pk.dst = s.link.coord) :
    Completes (.packetForward pk p) s (fun t => t.link = { s.link with delivered := s.link.delivered ++ [pk] } ∧
      (t.port p).rxBuf = dropPacket (pkPool pk) (s.port p).rxBuf ∧ t = { s with ports := t.ports, link := t.link }) := by
  have htake : takePacket pk p s = s.modPort p (fun l =>
      { (headFlits (pkPool pk) l.rxBuf).foldl (fun (l : LinkPort) fl => l.owe fl) l with rxBuf := dropPacket (pkPool pk) l.rxBuf }) := if_pos hp
  refine ⟨_, congrArg Host.Outcome.next ((if_neg fun h => h.elim (by omega) (by simp [hwaits])).trans (if_pos hdst)), ?_⟩
  rw [htake]
  exact ⟨rfl, congrArg LinkPort.rxBuf (port_set_self s p _ rfl), rfl⟩

/-- A packet leaves one hop older, over its VC or the escape path's (R366 to R368). -/
theorem routePacket_hops {s : State} {pk pk' : Packet} {frm d : Nat} (h : routePacket s pk frm = some (d, pk')) :
    pk' = { pk with vc := pk'.vc, escape := pk'.escape, hops := pk.hops + 1 } := by
  have hesc : (escapeDir s s.link.coord pk.dst).map (fun d => (d, { pk with vc := 2, escape := true, hops := pk.hops + 1 })) = some (d, pk') →
      pk' = { pk with vc := pk'.vc, escape := pk'.escape, hops := pk.hops + 1 } := by
    intro h
    obtain ⟨e, -, he⟩ := Option.map_eq_some_iff.mp h
    cases he
    rfl
  unfold routePacket at h
  dsimp only at h
  split at h
  · exact hesc h
  · split at h
    · cases h
      rfl
    · exact hesc h

theorem packetForward_steers (s : State) (pk pk' : Packet) (d p : Nat) (hown : s.link.own.contains pk = true) (hdst : pk.dst ≠ s.link.coord)
    (hrouted : s.link.routed = true) (hphase : s.link.phase ≠ 5) (hhops : pk.hops < 254) (hpresent : presentDev s pk.dst = true)
    (hroute : routePacket s pk 6 = some (d, pk')) (hsteer : steer s d (pkPool pk') 0 = some p) :
    Completes (.packetForward pk 24) s (fun t => (t.port p).waiting = (s.port p).waiting ++ [pk'] ∧ (∀ j, j ≠ p → t.port j = s.port j) ∧
      pk' = { pk with vc := pk'.vc, escape := pk'.escape, hops := pk.hops + 1 } ∧ t = { s with ports := t.ports, link := t.link, ops := t.ops }) := by
  have hwaits : packetWaits s pk 24 = true := hown
  refine ⟨(takePacket pk 24 s).modPort p (fun l => { l with waiting := l.waiting ++ [pk'] }), congrArg Host.Outcome.next ?_,
    ?_, fun j hj => ?_, routePacket_hops hroute, rfl⟩
  · refine (if_neg fun h => h.elim (by omega) (by simp [hwaits])).trans ((if_neg hdst).trans ((if_neg fun h => h.elim (by simp [hrouted]) hphase).trans
      ((if_neg (by omega)).trans ((if_neg (by simp [hpresent])).trans ?_))))
    simp only [show ¬(24 : Nat) < 24 from by omega, if_false, hroute, hsteer]
  · exact congrArg LinkPort.waiting (port_set_self (takePacket pk 24 s) p _ rfl)
  · exact port_set_ne (takePacket pk 24 s) p _ rfl hj

theorem noteAbsent_frame (pk : Packet) (s : State) : ∃ l, noteAbsent pk s = { s with link := { s.link with pending10 := l } } := by
  unfold noteAbsent
  split <;> exact ⟨_, rfl⟩

theorem discardPacket_frame (pk : Packet) (frm : Nat) (s : State) :
    ∃ l, discardPacket pk frm s = { takePacket pk frm s with link := { (takePacket pk frm s).link with pending10 := l } } := by
  unfold discardPacket
  dsimp only
  split
  · exact noteAbsent_frame pk _
  · exact ⟨_, rfl⟩

theorem packetForward_loses (s : State) (pk : Packet) (p : Nat) (hp : p < 24) (hwaits : packetWaits s pk p = true) (hdst : pk.dst ≠ s.link.coord)
    (hrouted : s.link.routed = true) (hphase : s.link.phase ≠ 5) (hhops : 254 ≤ pk.hops) :
    Completes (.packetForward pk p) s (fun t => t.link.lost = s.link.lost + 1 ∧ t.link.delivered = s.link.delivered) := by
  have htake : (takePacket pk p s).link = s.link := by
    unfold takePacket
    rw [if_pos hp]
    rfl
  obtain ⟨l, hl⟩ := discardPacket_frame pk p s
  refine ⟨_, congrArg Host.Outcome.next ((if_neg fun h => h.elim (by omega) (by simp [hwaits])).trans ((if_neg hdst).trans
    ((if_neg fun h => h.elim (by simp [hrouted]) hphase).trans (if_pos (by omega))))), ?_⟩
  dsimp only
  rw [post_link, hl, htake]
  exact ⟨rfl, rfl⟩

/-! ### Writes that arrive -/

theorem locOf_takeDelivered (pk : Packet) (s : State) (a : Nat) : locOf (takeDelivered pk s) a = locOf s a := locOf_congr (s := s) (t := takeDelivered pk s) rfl rfl a

theorem noStore_takeDelivered (pk : Packet) (s : State) (a : Nat) : noStore (takeDelivered pk s) a = noStore s a :=
  noStore_congr (s := s) (t := takeDelivered pk s) rfl rfl rfl a

theorem refusal_takeDelivered (pk : Packet) (s : State) : refusal (takeDelivered pk s) pk = refusal s pk := by
  unfold refusal reachRange outsideReach
  dsimp only
  rw [firstOutside_congr (s := s) (t := takeDelivered pk s) rfl rfl, locOf_takeDelivered]
  rfl

/-- The refusal's event leaves all but the events' own parts, and the refuse ack joins this device's packets. -/
theorem refusePacket_acks (why : Nat) (pk : Packet) (s : State) : (refusePacket why pk s).mem = s.mem ∧ (refusePacket why pk s).poison = s.poison ∧
    (refusePacket why pk s).link.own = s.link.own ++ [{ dst := pk.src, src := s.link.coord, type := 4, opref := pk.opref }] := by
  have hack : ∀ t : State, t.mem = s.mem → t.poison = s.poison → t.link = s.link → (answerPacket pk 4 t).mem = s.mem ∧ (answerPacket pk 4 t).poison = s.poison ∧
      (answerPacket pk 4 t).link.own = s.link.own ++ [{ dst := pk.src, src := s.link.coord, type := 4, opref := pk.opref }] :=
    fun t hmem hpoison hlink => ⟨hmem, hpoison, by rw [← hlink]; rfl⟩
  unfold refusePacket
  dsimp only
  split
  · exact hack _ (post_mem _ _ _) (post_poison _ _ _) (post_link _ _ _)
  · split
    · exact hack _ (post_mem _ _ _) (post_poison _ _ _) (post_link _ _ _)
    · exact hack s rfl rfl rfl

/-- A delivered packet of the right type whose memory units serve it is taken up. -/
theorem not_waits {s : State} {pk : Packet} {c : Prop} (hpk : s.link.delivered.contains pk = true) (hheld : held s (pkStart pk) pk.bytes = false) (hc : ¬c) :
    ¬(s.link.delivered.contains pk = false ∨ c ∨ held s (pkStart pk) pk.bytes = true) := by
  rintro (h | h | h)
  · rw [hpk] at h
    cases h
  · exact hc h
  · rw [hheld] at h
    cases h

theorem writePacket_refused (s : State) (pk : Packet) (hpk : s.link.delivered.contains pk = true) (hheld : held s (pkStart pk) pk.bytes = false)
    (htype : pk.type = 0) (hwhy : refusal s pk ≠ 0) :
    Completes (.writePacketArrival pk) s (fun t => t.mem = s.mem ∧ t.poison = s.poison ∧
      t.link.own = s.link.own ++ [{ dst := pk.src, src := s.link.coord, type := 4, opref := pk.opref }]) :=
  ⟨_, congrArg Host.Outcome.next ((if_neg (not_waits hpk hheld (by simp [htype]))).trans (if_neg (by rwa [refusal_takeDelivered]))), refusePacket_acks _ pk (takeDelivered pk s)⟩

/-- The bytes of a write in a state without bit errors, and the ack: memory, poison, the network's lists and what the host is shown. -/
theorem writePacket_stores (s : State) (pk : Packet) (i : Nat) (hpk : s.link.delivered.contains pk = true) (hheld : held s (pkStart pk) pk.bytes = false)
    (htype : pk.type = 0) (hwhy : refusal s pk = 0) (he : s.errs = []) (hstore : ∀ j, j < pk.data.length → noStore s (pkStart pk + j) = false)
    (hi : i < pk.data.length) :
    Completes (.writePacketArrival pk) s (fun t => Memory.read t.mem (pkStart pk + i) = pk.data.getD i 0 ∧
      (∀ b, b < pkStart pk ∨ pkStart pk + pk.data.length ≤ b → Memory.read t.mem b = Memory.read s.mem b) ∧
      t.link.own = s.link.own ++ [{ dst := pk.src, src := s.link.coord, type := 3, opref := pk.opref }] ∧
      t = { s with mem := t.mem, poison := t.poison, link := t.link, seq := { s.seq with hidden := t.seq.hidden } }) := by
  obtain ⟨q, hq⟩ := wrBytes_eq (s := takeDelivered pk s) he (pkStart pk) pk.data (pkBad pk)
  refine ⟨_, congrArg Host.Outcome.next ((if_neg (not_waits hpk hheld (by simp [htype]))).trans (if_pos (by rwa [refusal_takeDelivered]))), ?_⟩
  dsimp only
  rw [hq, showNow_frame]
  exact ⟨read_putBytesAt_in _ _ _ _ hi ((noStore_takeDelivered pk s _).trans (hstore i hi)), fun b hb => read_putBytesAt_out _ _ _ _ hb, rfl, rfl⟩

/-! ### Reduce packets that arrive -/

theorem reducePacket_refused (s : State) (pk : Packet) (hpk : s.link.delivered.contains pk = true) (hheld : held s (pkStart pk) pk.bytes = false)
    (htype : pk.type = 1 ∨ pk.type = 2) (hunit : (locOf s (pkStart pk)).unit = 31) :
    Completes (.reducePacketArrival pk) s (fun t => t.mem = s.mem ∧
      t.link.own = s.link.own ++ [{ dst := pk.src, src := s.link.coord, type := 4, opref := pk.opref }]) := by
  have hwhy : (if (locOf (takeDelivered pk s) (pkStart pk)).unit = 31 then 1 else refusal (takeDelivered pk s) pk) = 1 := if_pos (by rwa [locOf_takeDelivered])
  refine ⟨refusePacket 1 pk (takeDelivered pk s), congrArg Host.Outcome.next ((if_neg (not_waits hpk hheld (by simp [htype]))).trans ?_),
    (refusePacket_acks 1 pk (takeDelivered pk s)).1, (refusePacket_acks 1 pk (takeDelivered pk s)).2.2⟩
  dsimp only
  rw [hwhy, if_pos (by omega)]

/-- Windows begin at multiples of four bytes (R295). -/
theorem windowBase_aligned (P p : Nat) : windowBase P p % 4 = 0 := by
  unfold windowBase
  split
  · omega
  · split <;> omega

/-- The bytes of an aligned group of four in the HBM windows lie in one place (R295, R296). -/
theorem locHbm_group (s : State) {a i : Nat} (ha : a % 4 = 0) (hi : i < 4) (l : List Nat) : locHbm s (a + i) l = locHbm s a l := by
  induction l with
  | nil => rfl
  | cons p l ih =>
    have hbase := windowBase_aligned s.net.parts p
    unfold locHbm stackAt stackBytes
    dsimp only
    generalize windowBase s.net.parts p = b at hbase ⊢
    generalize windowStacks s p = st
    have hin : (b ≤ a + i ∧ a + i < b + st.length * 102400000000) ↔ (b ≤ a ∧ a < b + st.length * 102400000000) := by omega
    by_cases h : b ≤ a ∧ a < b + st.length * 102400000000
    · rw [if_pos h, if_pos (hin.mpr h), show (a + i - b) / 256 = (a - b) / 256 from by omega]
    · rw [if_neg h, if_neg fun h' => h (hin.mp h'), ih]

theorem ddrBytes_aligned (s : State) : ddrBytes s % 4 = 0 := by
  unfold ddrBytes
  rw [← Nat.mul_assoc]
  omega

/-- The bytes of an aligned group of four at a memory unit lie in one place (R295 to R300). -/
theorem locOf_group {s : State} {a i : Nat} (ha : a % 4 = 0) (hi : i < 4) (hunit : (locOf s a).unit ≠ 31) : locOf s (a + i) = locOf s a := by
  have hddr := ddrBytes_aligned s
  unfold locOf at hunit ⊢
  generalize ddrBytes s = n at hddr hunit ⊢
  by_cases hhbm : a < 0x400000000000
  · rw [if_pos hhbm, if_pos (by omega), locHbm_group s ha hi]
  · rw [if_neg hhbm, if_neg (by omega)]
    rw [if_neg hhbm] at hunit
    by_cases htier : a < 0x400000000000 + n
    · rw [if_pos htier, if_pos (by omega), show (a + i - 0x400000000000) / 4096 = (a - 0x400000000000) / 4096 from by omega]
    · rw [if_neg htier] at hunit
      refine absurd ?_ hunit
      dsimp only
      repeat' split
      all_goals rfl

/-- An FP32 element added at an aligned address of a memory unit stands there rounded, in a state without bit errors (R246). -/
theorem rdNat_addElem {s : State} (he : s.errs = []) {a : Nat} (ha : a % 4 = 0) (hunit : (locOf s a).unit ≠ 31) (hstore : noStore s a = false)
    (v : List Byte) (bad : Bool) : rdNat (addElem fp32 a v bad s).1 a 4 = fpAdd fp32 (rdNat s a 4) (leNat v) % 2 ^ 32 := by
  have hplace : ∀ i, i < 4 → noStore s (a + i) = false := by
    intro i hi
    have hloc : locOf s (a + i) = locOf s a := locOf_group ha hi hunit
    unfold noStore at hstore ⊢
    rw [hloc]
    exact hstore
  obtain ⟨q, hq⟩ := wrBytes_eq he a (leBytes 4 (fpAdd fp32 (rdNat s a 4) (leNat v))) (fun _ => bad || anyBad s a 4)
  have helem : (addElem fp32 a v bad s).1 = wrBytes a (leBytes 4 (fpAdd fp32 (rdNat s a 4) (leNat v))) (fun _ => bad || anyBad s a 4) s := by
    change (let t := touch a 4 s
      wrBytes a (leBytes 4 (fpAdd fp32 (rdNat t a 4) (leNat v))) (fun _ => bad || anyBad t a 4) t) = _
    dsimp only
    rw [touch_noErrs he]
  rw [helem, hq]
  generalize fpAdd fp32 (rdNat s a 4) (leNat v) = r
  have hbytes : rdBytes { s with mem := (putBytesAt s a (leBytes 4 r)).mem, poison := q } a 4 = leBytes 4 r := by
    refine List.ext_getElem (by simp [rdBytes, length_leBytes]) fun i hi _ => ?_
    have hlt : i < 4 := by simpa [rdBytes] using hi
    have hin : i < (leBytes 4 r).length := by rw [length_leBytes]; exact hlt
    simp only [rdBytes, List.getElem_map, List.getElem_range]
    rw [rdByte_stored ((noStore_congr (s := s) (t := { s with mem := (putBytesAt s a (leBytes 4 r)).mem, poison := q }) rfl rfl rfl (a + i)).trans (hplace i hlt))]
    rw [show Memory.read (putBytesAt s a (leBytes 4 r)).mem (a + i) = (leBytes 4 r).getD i 0 from read_putBytesAt_in s a i _ hin (hplace i hlt)]
    exact (List.getElem_eq_getD _).symm
  unfold rdNat
  rw [hbytes, leNat_leBytes, show 256 ^ 4 = 2 ^ 32 from by norm_num]

theorem rdNat_sameReads {s t : State} (h : SameReads s t) (a n : Nat) : rdNat t a n = rdNat s a n := congrArg leNat (h.rdBytes a n)

theorem reducePacket_adds (s : State) (pk : Packet) (hpk : s.link.delivered.contains pk = true) (hheld : held s (pkStart pk) pk.bytes = false)
    (htype : pk.type = 2) (hunit : (locOf s (pkStart pk)).unit ≠ 31) (hwhy : refusal s pk = 0) (he : s.errs = []) (hlen : pk.data.length = 4)
    (hstore : noStore s (pkStart pk) = false) (halign : pkStart pk % 4 = 0) :
    Completes (.reducePacketArrival pk) s (fun t =>
      rdNat t (pkStart pk) 4 = fpAdd fp32 (rdNat s (pkStart pk) 4) (leNat pk.data) % 2 ^ 32 ∧
      (∀ b, b < pkStart pk ∨ pkStart pk + 4 ≤ b → Memory.read t.mem b = Memory.read s.mem b) ∧
      t.link.own = s.link.own ++ [{ dst := pk.src, src := s.link.coord, type := 3, opref := pk.opref }]) := by
  obtain ⟨u, hu⟩ : ∃ u, u = takeDelivered pk s := ⟨_, rfl⟩
  obtain ⟨x, hx⟩ : ∃ x, x = addElems fp32 (pkBad pk) (pkStart pk) [pk.data] u := ⟨_, rfl⟩
  have hue : u.errs = [] := by rw [hu]; exact he
  have hsum : rdNat x.1 (pkStart pk) 4 = fpAdd fp32 (rdNat s (pkStart pk) 4) (leNat pk.data) % 2 ^ 32 := by
    rw [hx]
    refine (rdNat_addElem hue halign (by rwa [hu, locOf_takeDelivered]) (by rwa [hu, noStore_takeDelivered]) pk.data _).trans ?_
    rw [hu, rdNat_sameReads (s := s) (t := takeDelivered pk s) ⟨rfl, rfl, rfl, rfl, rfl, rfl, rfl⟩]
  have hbeside : StoresBeside (fun b => b < pkStart pk ∨ pkStart pk + 4 ≤ b) u x.1 := by
    rw [hx]
    exact (StoresBeside.refl _ u).addElems hue (fun b hb => hb) _
  have hshown : ∀ t : State, SameReads x.1 t → t.mem = x.1.mem → t.link.own = x.1.link.own ++ [{ dst := pk.src, src := x.1.link.coord, type := 3, opref := pk.opref }] →
      rdNat t (pkStart pk) 4 = fpAdd fp32 (rdNat s (pkStart pk) 4) (leNat pk.data) % 2 ^ 32 ∧
      (∀ b, b < pkStart pk ∨ pkStart pk + 4 ≤ b → Memory.read t.mem b = Memory.read s.mem b) ∧
      t.link.own = s.link.own ++ [{ dst := pk.src, src := s.link.coord, type := 3, opref := pk.opref }] := by
    intro t hreads hmem hown
    refine ⟨(rdNat_sameReads hreads _ _).trans hsum, fun b hb => ?_, ?_⟩
    · rw [hmem, hbeside.read hb, hu]
      rfl
    · obtain ⟨q, m, p, hframe, -⟩ := hbeside
      rw [hown, hframe, hu]
      rfl
  have helems : elemsOf 4 pk.data = [pk.data] := by
    unfold elemsOf
    rw [hlen]
    simp [List.range_succ, List.take_of_length_le hlen.le]
  refine ⟨if x.2 then post 0x0807 (leBytes 2 pk.src) (answerPacket pk 3 (showNow (pkStart pk) pk.data.length x.1))
    else answerPacket pk 3 (showNow (pkStart pk) pk.data.length x.1), ?_, ?_⟩
  · have hwhy' : (if (locOf u (pkStart pk)).unit = 31 then 1 else refusal u pk) = 0 := by
      rw [hu, locOf_takeDelivered, refusal_takeDelivered]
      exact (if_neg hunit).trans hwhy
    refine congrArg Host.Outcome.next ((if_neg (not_waits hpk hheld (by simp [htype]))).trans ?_)
    dsimp only
    rw [← hu, hwhy', if_neg (by omega), show reduceFmt pk.type = fp32 from if_neg (by omega), show fp32.width / 8 = 4 from rfl, helems, ← hx]
  · split
    · refine hshown _ ?_ (post_mem _ _ _) (by rw [post_link]; rfl)
      rw [(post_eventsOnly _ _ _).frame]
      exact ⟨rfl, rfl, rfl, rfl, rfl, rfl, rfl⟩
    · exact hshown _ ⟨rfl, rfl, rfl, rfl, rfl, rfl, rfl⟩ rfl rfl

/-! ### Acknowledgements -/

/-- A packet that counts as complete is gone from the unacknowledged ones, from its op's list and from those that wait (R362). -/
theorem completePacket_clears (r : Nat) (s : State) : (∀ x, x ∈ (completePacket r s).seq.remoteUnacked → x.1 ≠ r) ∧
    (∀ o, o ∈ (completePacket r s).ops → r ∉ o.acks) ∧ (∀ x, x ∈ (completePacket r s).link.pending10 → x.1 ≠ r) := by
  refine ⟨fun x hx => ?_, fun o ho => ?_, fun x hx => ?_⟩
  · simpa using (List.mem_filter.mp hx).2
  · obtain ⟨o', -, rfl⟩ := List.mem_map.mp ho
    split
    · simp
    next h => simpa using h
  · simpa using (List.mem_filter.mp hx).2

theorem writeAck_completes (s : State) (pk : Packet) (r : Nat) (u : Nat × Nat × Nat × Nat)
    (hpk : s.link.delivered.find? (fun x => x.type == 3 && x.opref == r) = some pk) (hu : s.seq.remoteUnacked.find? (fun x => x.1 == r) = some u) :
    Completes (.writeAckReceive r false) s (fun t => (∀ x, x ∈ t.seq.remoteUnacked → x.1 ≠ r) ∧ (∀ o, o ∈ t.ops → r ∉ o.acks) ∧
      (∀ x, x ∈ t.link.pending10 → x.1 ≠ r) ∧ t = { s with seq := t.seq, ops := t.ops, link := t.link }) := by
  obtain ⟨hunacked, hops, hpending⟩ := completePacket_clears r (takeDelivered pk s)
  refine ⟨completePacket r (takeDelivered pk s), ?_, hunacked, hops, hpending, rfl⟩
  change execWriteAckReceive r false s = _
  unfold execWriteAckReceive
  simp only [Bool.false_eq_true, if_false, hpk, hu]

theorem linkWriteLost_completes (s : State) (r b : Nat) (u : Nat × Nat × Nat × Nat) (hw : s.link.pending10.find? (fun x => x.1 == r) = some (r, b))
    (hu : s.seq.remoteUnacked.find? (fun x => x.1 == r) = some u) (hb : b + 10000 ≤ s.tim.beat) :
    Completes (.linkWriteLost r) s (fun t => (∀ x, x ∈ t.seq.remoteUnacked → x.1 ≠ r) ∧ (∀ o, o ∈ t.ops → r ∉ o.acks) ∧ t.mem = s.mem) := by
  obtain ⟨hunacked, hops, -⟩ := completePacket_clears r s
  refine ⟨post 0x0806 (leBytes 1 u.2.1 ++ leBytes 2 u.2.2.1 ++ leBytes 2 u.2.2.2) (completePacket r s), ?_, ?_, ?_, ?_⟩
  · change execLinkWriteLost r s = _
    simp only [execLinkWriteLost, hw, hu]
    rw [if_pos hb]
  · rwa [post_seq]
  · rwa [post_ops]
  · exact post_mem _ _ _

theorem linkWriteLost_waits (s : State) (r b : Nat) (hw : s.link.pending10.find? (fun x => x.1 == r) = some (r, b)) (hb : s.tim.beat < b + 10000) :
    exec (.linkWriteLost r) s = .next s := by
  change execLinkWriteLost r s = _
  unfold execLinkWriteLost
  rw [hw]
  cases s.seq.remoteUnacked.find? (fun x => x.1 == r) with
  | none => rfl
  | some u => exact congrArg Host.Outcome.next (if_neg (Nat.not_le.mpr hb))

/-- Settles O45: every clause follows from what a packet taken, stored, added, refused or completed leaves unchanged. -/
theorem packetsAct : Obligations.PacketsAct :=
  ⟨packetForward_delivers, packetForward_steers, packetForward_loses, writePacket_stores, writePacket_refused, reducePacket_refused,
    fun s pk hpk hheld htype hunit hwhy he hlen _ hstore halign =>
      let ⟨t, hexec, hsum, hbeside, hown⟩ := reducePacket_adds s pk hpk hheld htype hunit hwhy he hlen hstore halign
      ⟨t, hexec, fun _ => hsum, hbeside, hown⟩,
    writeAck_completes, linkWriteLost_completes, linkWriteLost_waits⟩

end Sys2Proof.Machine
end

section
/-! Toll gates and the rows of a layer swap (R326 to R333). -/

namespace Sys2Proof.Machine

open Sys2Proof State

/-- The entry of a state whose directory is another's with one entry changed. -/
theorem dirEntry_mod_self (s : State) (i : Nat) (g : Dir → Dir) {t : State} (h : t.dir = (s.modDirEntry i g).dir) : t.dirEntry i = g (s.dirEntry i) :=
  (dirEntry_congr _ _ h i).trans ((dirEntry_modDirEntry s i i g).trans (if_pos rfl))

theorem dirEntry_mod_ne (s : State) (i : Nat) (g : Dir → Dir) {t : State} (h : t.dir = (s.modDirEntry i g).dir) {j : Nat} (hj : j ≠ i) :
    t.dirEntry j = s.dirEntry j := (dirEntry_congr _ _ h j).trans ((dirEntry_modDirEntry s i j g).trans (if_neg hj))

/-- The swap of a state whose table is another's with one swap changed. -/
theorem swapOf_mod_self (s : State) (p : Nat) (g : Swap → Swap) {t : State} (h : t.swaps = (s.modSwapOf p g).swaps) : t.swapOf p = g (s.swapOf p) :=
  (swapOf_congr _ _ h p).trans ((swapOf_modSwapOf s p p g).trans (if_pos rfl))

/-! ### What a retire leaves of the weights -/

/-- A directory entry without what ops and units count in it: the version that it names and the next one. -/
def Dir.version (d : Dir) : Dir := { d with holders := 0, prevHolders := 0, damaged := false }

/-- From `s` to `t` the swaps and the versions of every directory entry stand. -/
structure SameVersions (s t : State) : Prop where
  swaps : t.swaps = s.swaps
  version : ∀ i, (t.dirEntry i).version = (s.dirEntry i).version

section
variable {s t u : State}

theorem SameVersions.of_tables (hswaps : t.swaps = s.swaps) (hdir : t.dir = s.dir) : SameVersions s t :=
  ⟨hswaps, fun i => by rw [dirEntry_congr s t hdir]⟩

theorem SameVersions.refl (s : State) : SameVersions s s := .of_tables rfl rfl

theorem SameVersions.trans (h : SameVersions s t) (h' : SameVersions t u) : SameVersions s u :=
  ⟨h'.swaps.trans h.swaps, fun i => (h'.version i).trans (h.version i)⟩

/-- `trans` with the later step first: the goal names that one, and so gives the state between. -/
theorem SameVersions.after (h' : SameVersions t u) (h : SameVersions s t) : SameVersions s u := h.trans h'

theorem SameVersions.ite {c : Prop} [Decidable c] (h : SameVersions s t) (h' : SameVersions s u) : SameVersions s (if c then t else u) := by
  split
  · exact h
  · exact h'

theorem SameVersions.foldl {α : Type} {f : State → α → State} (h : ∀ s a, SameVersions s (f s a)) (l : List α) (s : State) :
    SameVersions s (l.foldl f s) := foldl_inv (SameVersions s) f (fun t a ht => ht.trans (h t a)) l s (.refl s)

theorem MemoryOnly.sameVersions (h : MemoryOnly s t) : SameVersions s t := by
  obtain ⟨_, _, _, _, _, _, _, _, _, _, _, rfl⟩ := h
  exact .of_tables rfl rfl

end

theorem finishCmd_sameVersions (k : Nat) (r : Reply) (s : State) : SameVersions s (finishCmd k r s) := .of_tables rfl rfl

theorem damage_version (s : State) (u : Nat) (d : Dir) : (d.damage s u).version = d.version := by
  unfold Dir.damage
  split <;> rfl

theorem markDamaged_version (s : State) (d : Dir) : (markDamaged s d).version = d.version :=
  foldl_keep Dir.version _ (fun d u => damage_version s u d) _ _

theorem markFenced_sameVersions (kind index sub : Nat) (s : State) : SameVersions s (markFenced kind index sub s) := by
  have hmemory (u : Nat) (m : MemUnit → MemUnit) :
      SameVersions s (serveHeld u ((s.modUnit u m).modDir (fun d => tmap {} d (fun _ e => e.damage s u)))) :=
    (serveHeld_memoryOnly u _).sameVersions.after ⟨rfl, fun i => tget_tmap_keep (c := Dir.version) (fun _ _ => damage_version s u _) s.dir i⟩
  unfold markFenced
  split
  case h_5 => exact hmemory _ _
  case h_6 => exact hmemory _ _
  all_goals exact .of_tables rfl rfl

theorem endDisable_sameVersions (s : State) (d : Nat × Nat × Nat × Nat × Nat) : SameVersions s (endDisable s d) :=
  .ite (.refl s) ((((finishCmd_sameVersions _ _ _).after (post_eventsOnly _ _ _).memoryOnly.sameVersions).after (markFenced_sameVersions _ _ _ _)).after
    (.of_tables rfl rfl))

theorem countAbort_sameVersions (o : Op) (reason : Nat) (s : State) (k : Nat) : SameVersions s (countAbort o reason s k) := by
  unfold countAbort
  extract_lets t
  have ht : SameVersions s t := .of_tables rfl rfl
  split
  · refine .ite (((finishCmd_sameVersions k _ _).after ?_).after ht) ht
    exact .of_tables rfl rfl
  · exact ht

theorem releaseHandle_version (o : Op) (s : State) (i : Nat) : ((releaseHandle o s).dirEntry i).version = (s.dirEntry i).version := by
  unfold releaseHandle
  split
  · rfl
  · rw [dirEntry_modDirEntry]
    split
    next h =>
      rw [h]
      split <;> rfl
    next => rfl

theorem retireEnd_sameVersions (k : Nat) (o : Op) (ab : Bool) (reason detail : Nat) (s : State) : SameVersions s (retireEnd k o ab reason detail s) := by
  have hclear : SameVersions s (retireCleared o ab s) := by
    obtain ⟨m, l, q, e, c, f, h⟩ := retireCleared_frame o ab s
    refine ⟨by rw [h], fun i => ?_⟩
    rw [dirEntry_congr (releaseHandle o s) (retireCleared o ab s) (by rw [h])]
    exact releaseHandle_version o s i
  have hcount (t : State) : SameVersions t (retireCounted k o t) := by
    obtain ⟨h, b, w, hframe⟩ := retireCounted_frame k o t
    rw [hframe]
    exact .of_tables rfl rfl
  have hanswer (t : State) : SameVersions t (retireAnswered o reason t) :=
    (SameVersions.foldl (fun _ _ => countAbort_sameVersions _ _ _ _) _ t).trans (.foldl (fun _ _ => endDisable_sameVersions _ _) _ _)
  exact ((hclear.trans (sendWord_memoryOnly _ _ _).sameVersions).trans (hcount _)).trans (hanswer _)

theorem retire_sameVersions (k : Nat) (ab : Bool) (reason detail : Nat) (s : State) : SameVersions s (retire k ab reason detail s) := by
  by_cases herror : s.flt.deviceError = true
  · rw [retire_deviceError k ab reason detail herror]
    exact .refl s
  · cases hop : opOf s k with
    | none =>
      rw [retire, hop]
      exact .refl s
    | some o =>
      rw [retire_eq hop (by simpa using herror)]
      exact retireEnd_sameVersions _ _ _ _ _ _

/-! ### Toll gates (R326) -/

/-- The admission of a gate: its entries named and the op admitted. -/
theorem gateTaken_frame (k : Nat) (o : Op) (s : State) : ∃ l q mf, setAdmitted k (nameEntries k o s) = { s with ops := l, seq := q, manifest := mf } := by
  obtain ⟨l, u, mf, hmf⟩ := nameEntries_frame k o s
  obtain ⟨q, hq⟩ := setAdmitted_frame k (nameEntries k o s)
  rw [hq, hmf]
  exact ⟨_, _, _, rfl⟩

theorem opOf_gateTaken {k : Nat} {o : Op} {s : State} (h : opOf s k = some o) (x : Op) :
    ∃ o', opOf (setAdmitted k (nameEntries k x s)) k = some o' ∧ o'.stage = 2 := by
  obtain ⟨l, u, mf, hmf⟩ := nameEntries_frame k x s
  have hnamed : opOf (nameEntries k x s) k = some (o.naming l u) := by
    rw [hmf]
    exact (opOf_congr rfl k).trans (opOf_modOp_some h fun _ => rfl)
  exact ⟨_, opOf_setAdmitted hnamed, rfl⟩

theorem listOf_empty {o : Op} (h : o.mlist.2 = 0) (s : State) : listOf s o = [] := by
  unfold listOf
  rw [h]
  rfl

theorem notMine {e f : Nat} (h : f ≠ e) : (e != 0 && f == e) = false := by
  rw [beq_false_of_ne h, Bool.and_false]

theorem tollgate_passes (s : State) (k : Nat) (o : Op) (h : Admissible s k 0x33 o) (hlist : o.mlist.2 = 0) (hvalid : handleValid s o.gHandle = true)
    (hpart : (s.dirEntry (handleIdx o.gHandle)).part = o.part s) (hepoch : (s.swapOf (o.part s)).epoch ≠ o.gEpoch)
    (hreached : o.gEpoch ≤ (s.dirEntry (handleIdx o.gHandle)).epoch) :
    Completes (.tollgate k) s (fun t => opOf t k = none ∧ t.swaps = s.swaps) := by
  have hop := h.1
  have herror : s.flt.deviceError = false := by
    have hadmit : admitting s (o.part s) = true := h.2.2.2.2.2.1
    unfold admitting at hadmit
    simp only [Bool.and_eq_true, Bool.not_eq_true'] at hadmit
    exact hadmit.1.2
  obtain ⟨l, q, mf, hframe⟩ := gateTaken_frame k o s
  obtain ⟨o', hop', -⟩ := opOf_gateTaken hop o
  refine ⟨retire k false 0 0 (setAdmitted k (nameEntries k o s)), congrArg Host.Outcome.next ((admitOp_runs_admissible h _).trans ?_),
    (retire_leaves hop' (by rw [hframe]; exact herror) _ _ _).1, ?_⟩
  · simp only [hvalid, hpart, notMine hepoch, Bool.not_true, bne_self_eq_false, Bool.or_self, Bool.false_and, Bool.false_eq_true, if_false]
    rw [listOf_empty hlist, hframe]
    exact if_pos hreached
  · rw [(retire_sameVersions _ _ _ _ _).swaps, hframe]

theorem tollgate_badHandle (s : State) (k : Nat) (o : Op) (h : Admissible s k 0x33 o) (hvalid : handleValid s o.gHandle = false) (_ : o.mlist.2 = 0) :
    exec (.tollgate k) s = .next (retire k true 2 20 s) := by
  refine congrArg Host.Outcome.next ((admitOp_runs_admissible h _).trans ?_)
  simp only [hvalid, Bool.not_false, Bool.true_or, if_true]

theorem gateOpen_code {s : State} {o : Op} (h : gateOpen s o = true) : o.code = 0x33 := by
  unfold gateOpen at h
  simp only [Bool.and_eq_true, beq_iff_eq] at h
  exact h.1.1.1

theorem opRetire_gate (s : State) (k : Nat) (o : Op) (hop : opOf s k = some o) (habort : o.abortAt = none) (hopen : gateOpen s o = true) :
    exec (.opRetire k) s = .next (retire k false 0 0 s) := by
  change execOpRetire k s = _
  simp only [execOpRetire, hop, habort, gateOpen_code hopen, hopen, Option.isSome_none, Bool.false_eq_true, if_false, if_true]

/-! ### A gate that holds its entries (R326, R327) -/

theorem foldl_modEntry_frame (g : Nat → Manifest → Manifest) (l : List Nat) (s : State) :
    ∃ mf, l.foldl (fun (s : State) i => s.modEntry i (g i)) s = { s with manifest := mf } :=
  foldl_inv (fun t : State => ∃ mf, t = { s with manifest := mf }) _ (by rintro t i ⟨mf, rfl⟩; exact ⟨_, rfl⟩) l s ⟨_, rfl⟩

/-- An entry that is not held stays so, with its epoch. -/
def SameTurn (e e' : Manifest) : Prop := e'.epoch = e.epoch ∧ (e.state < 2 → e'.state < 2)

theorem sameTurn_nameEntries (k : Nat) (o : Op) (s : State) (j : Nat) : SameTurn (s.entry j) ((nameEntries k o s).entry j) := by
  refine foldl_inv (fun t : State => SameTurn (s.entry j) (t.entry j)) _ (fun t i ht => ?_) _ (modOp k _ s) ⟨rfl, id⟩
  rw [entry_modEntry]
  split
  next h =>
    subst h
    refine ⟨ht.1, fun hs => ?_⟩
    have hopen := ht.2 hs
    dsimp only
    split <;> omega
  next => exact ht

theorem holdEntries_holds {k i : Nat} {l : List Nat} {s : State} (hi : i ∈ l) (hs : (s.entry i).state < 2) : ((holdEntries k l s).entry i).state = 2 := by
  unfold holdEntries
  refine foldl_reaches (I := fun t : State => (t.entry i).state ≤ 2) (Q := fun t : State => (t.entry i).state = 2) hi ?_ ?_ ?_ _ (Nat.le_of_lt hs)
  · intro t b ht
    rw [entry_modEntry]
    split
    next h =>
      subst h
      split
      · exact Nat.le_refl _
      · exact ht
    next => exact ht
  · intro t ht
    rw [entry_modEntry, if_pos rfl]
    split
    · rfl
    · omega
  · intro t b ht
    rw [entry_modEntry]
    split
    next h =>
      subst h
      rw [if_neg (by omega)]
      exact ht
    next => exact ht

theorem holdEntries_frame (k : Nat) (l : List Nat) (s : State) :
    ∃ mf, holdEntries k l s = { modOp k (fun o => { o with held := l }) s with manifest := mf } := foldl_modEntry_frame (fun _ => _) l _

theorem eraseDups_constant {l : List Nat} {e : Nat} (hne : l ≠ []) (h : ∀ x, x ∈ l → x = e) : l.eraseDups = [e] := by
  cases l with
  | nil => exact absurd rfl hne
  | cons x l =>
    have hx : x = e := h x List.mem_cons_self
    have hrest : l.filter (fun b => !b == x) = [] := by
      refine List.filter_eq_nil_iff.mpr fun b hb => ?_
      simp [hx, h b (List.mem_cons_of_mem _ hb)]
    rw [List.eraseDups_cons, hrest, hx]
    rfl

theorem gateActs_holds {k e i : Nat} {l : List Nat} {s : State} (hne : l ≠ []) (hl : ∀ j, j ∈ l → (s.entry j).epoch = e)
    (hold : (s.dirEntry i).epoch < e) (hswap : (s.dirEntry i).swap ≠ 0) (hnext : (s.dirEntry i).nextEpoch = e) :
    gateActs k e i l s = holdEntries k l s := by
  have hepochs : (l.map (fun j => (s.entry j).epoch)).eraseDups = [e] := by
    refine eraseDups_constant (by simpa using hne) fun x hx => ?_
    obtain ⟨j, hj, rfl⟩ := List.mem_map.mp hx
    exact hl j hj
  unfold gateActs
  dsimp only
  rw [hepochs]
  exact (if_neg (by omega)).trans (if_pos ⟨rfl, hold, hswap, hnext⟩)

/-- A layer of the swap stays one when the swap arms, with its epochs. -/
def SameLayer (d d' : Dir) : Prop := d'.epoch = d.epoch ∧ d'.nextEpoch = d.nextEpoch ∧ (d.swap ≠ 0 → d'.swap ≠ 0)

section
variable (p policy timeout : Nat) (s : State)

theorem armSwap_frame : ∃ d mf, armSwap p policy timeout s = { s.modSwapOf p (fun w => { w with
    armed := true, policy := policy, timeout := timeout, armedAt := s.tim.beat, timedOut := false, layersDone := false, trackE := w.epoch, trackCarry := decide (policy = 1) })
    with dir := d, manifest := mf } := by
  have hlayers (l : List Nat) (g : Dir → Dir) (t : State) : ∃ d, l.foldl (fun (s : State) i => s.modDirEntry i g) t = { t with dir := d } :=
    foldl_inv (fun u : State => ∃ d, u = { t with dir := d }) _ (by rintro u i ⟨d, rfl⟩; exact ⟨_, rfl⟩) l t ⟨_, rfl⟩
  unfold armSwap
  dsimp only
  obtain ⟨d, hd⟩ := hlayers (layersOf (s.modSwapOf p (fun w => { w with
    armed := true, policy := policy, timeout := timeout, armedAt := s.tim.beat, timedOut := false, layersDone := false, trackE := w.epoch, trackCarry := decide (policy = 1) })) p)
    (fun d => if d.swap = 1 then { d with swap := 2 } else d) (s.modSwapOf p (fun w => { w with
    armed := true, policy := policy, timeout := timeout, armedAt := s.tim.beat, timedOut := false, layersDone := false, trackE := w.epoch, trackCarry := decide (policy = 1) }))
  rw [hd]
  exact ⟨_, _, rfl⟩

theorem sameLayer_armSwap (i : Nat) : SameLayer (s.dirEntry i) ((armSwap p policy timeout s).dirEntry i) := by
  unfold armSwap
  dsimp only
  refine foldl_inv (fun t : State => SameLayer (s.dirEntry i) (t.dirEntry i)) _ (fun t j ht => ?_) _ (s.modSwapOf p _) ⟨rfl, rfl, id⟩
  rw [dirEntry_modDirEntry]
  split
  next h =>
    subst h
    split
    · exact ⟨ht.1, ht.2.1, fun _ => by simp⟩
    · exact ht
  next => exact ht

/-- Arming forgets only which gates an entry has passed. -/
theorem armSwap_entry {β : Type} {c : Manifest → β} (hc : ∀ e g, c { e with gateOrder := g } = c e) (i : Nat) :
    c ((armSwap p policy timeout s).entry i) = c (s.entry i) := by
  have hmanifest : (armSwap p policy timeout s).entry i = tget {} (tmap {} s.manifest (fun i e =>
      if partOfEntry s i = p ∧ !(oldRequests s p).contains i then { e with gateOrder := none } else e)) i := by
    unfold armSwap
    dsimp only
    have hlayers (l : List Nat) (g : Dir → Dir) (t : State) : (l.foldl (fun (s : State) i => s.modDirEntry i g) t).manifest = t.manifest ∧
        (l.foldl (fun (s : State) i => s.modDirEntry i g) t).net = t.net ∧ (l.foldl (fun (s : State) i => s.modDirEntry i g) t).bu = t.bu :=
      foldl_inv (fun u : State => u.manifest = t.manifest ∧ u.net = t.net ∧ u.bu = t.bu) (f := fun (s : State) i => s.modDirEntry i g) (fun u i hu => hu) l t ⟨rfl, rfl, rfl⟩
    obtain ⟨hm, hn, hb⟩ := hlayers (layersOf (s.modSwapOf p (fun w => { w with
      armed := true, policy := policy, timeout := timeout, armedAt := s.tim.beat, timedOut := false, layersDone := false, trackE := w.epoch, trackCarry := decide (policy = 1) })) p)
      (fun d => if d.swap = 1 then { d with swap := 2 } else d) (s.modSwapOf p (fun w => { w with
      armed := true, policy := policy, timeout := timeout, armedAt := s.tim.beat, timedOut := false, layersDone := false, trackE := w.epoch, trackCarry := decide (policy = 1) }))
    simp only [State.entry, hm, hn, hb, partOfEntry, manifestSize, licensed]
    rfl
  rw [hmanifest]
  refine tget_tmap_keep (c := c) (fun _ e => ?_) s.manifest i
  split
  · exact hc e none
  · rfl

theorem rdByte_armSwap (a : Nat) : rdByte (armSwap p policy timeout s) a = rdByte s a := by
  have hentry := armSwap_entry p policy timeout s (c := entryBytes) (fun _ _ => rfl)
  obtain ⟨d, mf, hframe⟩ := armSwap_frame p policy timeout s
  unfold rdByte
  simp only [hentry]
  rw [locOf_congr (s := s) (by rw [hframe]; rfl) (by rw [hframe]; rfl), accCell_congr s _ (by rw [hframe]; rfl), hframe]
  rfl

theorem listOf_armSwap (o : Op) : listOf (armSwap p policy timeout s) o = listOf s o := by
  unfold listOf rdNat rdBytes
  simp only [rdByte_armSwap]

end

theorem tollgate_holds (s : State) (k : Nat) (o : Op) (h : Admissible s k 0x33 o) (hvalid : handleValid s o.gHandle = true)
    (hpart : (s.dirEntry (handleIdx o.gHandle)).part = o.part s) (hne : listOf s o ≠ [])
    (hentries : ∀ i, i ∈ listOf s o → (s.entry i).epoch = o.gEpoch ∧ (s.entry i).state < 2)
    (hold : (s.dirEntry (handleIdx o.gHandle)).epoch < o.gEpoch) (hswap : (s.dirEntry (handleIdx o.gHandle)).swap ≠ 0)
    (hnext : (s.dirEntry (handleIdx o.gHandle)).nextEpoch = o.gEpoch) (hepoch : (s.swapOf (o.part s)).epoch = o.gEpoch)
    (harmed : (s.swapOf (o.part s)).armed = false) :
    Completes (.tollgate k) s (fun t => InStage t k 2 ∧ (∀ i, i ∈ listOf s o → (t.entry i).state = 2) ∧
      (t.swapOf (o.part s)).armed = true ∧ (t.swapOf (o.part s)).policy = o.gPolicy ∧ (t.swapOf (o.part s)).timeout = o.gTimeout ∧
      (t.swapOf (o.part s)).armedAt = s.tim.beat ∧ t.mem = s.mem) := by
  obtain ⟨u, hu⟩ : ∃ u, u = armSwap (o.part s) o.gPolicy o.gTimeout s := ⟨_, rfl⟩
  obtain ⟨v, hv⟩ : ∃ v, v = setAdmitted k (nameEntries k o u) := ⟨_, rfl⟩
  have hlist : listOf u o = listOf s o := hu ▸ listOf_armSwap _ _ _ s o
  obtain ⟨d, mf, hframe⟩ := armSwap_frame (o.part s) o.gPolicy o.gTimeout s
  obtain ⟨l, q, mf', hframe'⟩ := gateTaken_frame k o u
  obtain ⟨mf'', hframe''⟩ := holdEntries_frame k (listOf s o).eraseDups v
  rw [← hu] at hframe
  rw [← hv] at hframe'
  have hmine : (o.gEpoch != 0 && (s.swapOf (o.part s)).epoch == o.gEpoch) = true := by
    rw [hepoch, beq_self_eq_true, Bool.and_true, bne_iff_ne]
    omega
  have hentry (i : Nat) (hi : i ∈ listOf s o) : (v.entry i).epoch = o.gEpoch ∧ (v.entry i).state < 2 := by
    obtain ⟨he, hs⟩ := hentries i hi
    have hue : (u.entry i).epoch = o.gEpoch := by rw [hu, armSwap_entry (c := Manifest.epoch) _ _ _ _ (fun _ _ => rfl), he]
    have hus : (u.entry i).state < 2 := by rw [hu, armSwap_entry (c := Manifest.state) _ _ _ _ (fun _ _ => rfl)]; exact hs
    obtain ⟨hepoch', hstate⟩ := sameTurn_nameEntries k o u i
    obtain ⟨r, hr⟩ := setAdmitted_frame k (nameEntries k o u)
    have hadmit : v.entry i = (nameEntries k o u).entry i := by rw [hv]; exact entry_congr _ _ (by rw [hr]) i
    rw [hadmit]
    exact ⟨hepoch'.trans hue, hstate hus⟩
  have hop : opOf u k = some o := (opOf_congr (s := s) (by rw [hframe]; rfl) k).trans h.1
  obtain ⟨o', hop', hstage⟩ := opOf_gateTaken hop o
  rw [← hv] at hop'
  have hswapOf (t : State) (ht : t.swaps = u.swaps) : (t.swapOf (o.part s)) = { s.swapOf (o.part s) with
      armed := true, policy := o.gPolicy, timeout := o.gTimeout, armedAt := s.tim.beat, timedOut := false, layersDone := false
      trackE := (s.swapOf (o.part s)).epoch, trackCarry := decide (o.gPolicy = 1) } := by
    rw [swapOf_congr u t ht, hframe]
    exact swapOf_mod_self s (o.part s) (fun w => { w with
      armed := true, policy := o.gPolicy, timeout := o.gTimeout, armedAt := s.tim.beat, timedOut := false, layersDone := false, trackE := w.epoch,
      trackCarry := decide (o.gPolicy = 1) }) rfl
  have hlayer := sameLayer_armSwap (o.part s) o.gPolicy o.gTimeout s (handleIdx o.gHandle)
  rw [← hu, ← dirEntry_congr u v (by rw [hframe'])] at hlayer
  obtain ⟨he, hn, hs⟩ := hlayer
  have hnames : (listOf s o).eraseDups ≠ [] := by
    obtain ⟨i, hi⟩ := List.exists_mem_of_ne_nil _ hne
    exact List.ne_nil_of_mem (a := i) (by simpa using hi)
  refine ⟨holdEntries k (listOf s o).eraseDups v, congrArg Host.Outcome.next ((admitOp_runs_admissible h _).trans ?_), ?_, fun i hi => ?_, ?_⟩
  · simp only [hvalid, hpart, hmine, harmed, Bool.not_true, Bool.not_false, bne_self_eq_false, Bool.or_self, Bool.and_false, Bool.false_and, Bool.and_true,
      Bool.false_eq_true, if_false, if_true]
    rw [← hu, hlist, ← hv]
    exact gateActs_holds hnames (fun j hj => (hentry j (by simpa using hj)).1) (by rw [he]; exact hold) (hs hswap) (hn.trans hnext)
  · rw [hframe'']
    exact ⟨{ o' with held := (listOf s o).eraseDups }, (opOf_congr rfl k).trans (opOf_modOp_some hop' fun _ => rfl), hstage⟩
  · exact holdEntries_holds (by simpa using hi) (hentry i hi).2
  · have hswaps : (holdEntries k (listOf s o).eraseDups v).swaps = u.swaps := by rw [hframe'', hframe']; rfl
    rw [hswapOf _ hswaps]
    refine ⟨rfl, rfl, rfl, rfl, ?_⟩
    rw [hframe'', modOp, hframe', hframe]
    rfl

/-! ### Layers (R328, R331) -/

theorem layerRewriteStart_starts (s : State) (p i : Nat) (harmed : (s.swapOf p).armed = true) (hidle : (s.swapOf p).rewriting = none)
    (herror : s.flt.deviceError = false) (hreset : resetting s p = false) (hnext : nextLayer s p = some i) :
    Completes (.layerRewriteStart p) s (fun t => t.dirEntry i = { s.dirEntry i with swap := 3 } ∧ (∀ j, j ≠ i → t.dirEntry j = s.dirEntry j) ∧
      t.swapOf p = { s.swapOf p with rewriting := some i, layersDone := true } ∧ t = { s with dir := t.dir, swaps := t.swaps }) := by
  refine ⟨(s.modDirEntry i (fun d => { d with swap := 3 })).modSwapOf p (fun w => { w with rewriting := some i, layersDone := true }),
    congrArg Host.Outcome.next ((if_pos ⟨harmed, hidle, herror, hreset⟩).trans ?_), ?_, fun j hj => ?_, ?_, rfl⟩
  · rw [hnext]
  · exact dirEntry_mod_self s i (fun d => { d with swap := 3 }) rfl
  · exact dirEntry_mod_ne s i (fun d => { d with swap := 3 }) rfl hj
  · exact (swapOf_modSwapOf _ p p _).trans (if_pos rfl)

/-- Of a candidate and the next member of a list the one with the lower value, the earlier one where both have the same. -/
def lower (g : Nat → Nat) (b : Option Nat) (i : Nat) : Option Nat :=
  match b with
  | none => some i
  | some j => if g i < g j then some i else some j

theorem foldl_lower {g : Nat → Nat} {l : List Nat} {b : Option Nat} {i : Nat} (h : l.foldl (lower g) b = some i) :
    (i ∈ l ∨ b = some i) ∧ ∀ j, j ∈ l ∨ b = some j → g i ≤ g j := by
  induction l generalizing b with
  | nil =>
    refine ⟨.inr h, fun j hj => ?_⟩
    cases Option.some.inj (h.symm.trans (hj.resolve_left List.not_mem_nil))
    exact Nat.le_refl _
  | cons x l ih =>
    obtain ⟨hmem, hle⟩ := ih h
    cases b with
    | none =>
      refine ⟨?_, fun j hj => ?_⟩
      · rcases hmem with hmem | hmem
        · exact .inl (List.mem_cons_of_mem _ hmem)
        · cases hmem
          exact .inl List.mem_cons_self
      · rcases List.mem_cons.mp (hj.resolve_right (Option.some_ne_none _).symm) with rfl | hj
        · exact hle _ (.inr rfl)
        · exact hle _ (.inl hj)
    | some y =>
      have hstep : lower g (some y) x = if g x < g y then some x else some y := rfl
      rw [hstep] at hmem hle
      split at hmem
      next hlt =>
        rw [if_pos hlt] at hle
        refine ⟨?_, fun j hj => ?_⟩
        · rcases hmem with hmem | hmem
          · exact .inl (List.mem_cons_of_mem _ hmem)
          · cases hmem
            exact .inl List.mem_cons_self
        · have hx := hle x (.inr rfl)
          rcases hj with hj | hj
          · rcases List.mem_cons.mp hj with rfl | hj
            · exact hx
            · exact hle _ (.inl hj)
          · cases hj
            omega
      next hge =>
        rw [if_neg hge] at hle
        refine ⟨hmem.imp_left (List.mem_cons_of_mem _), fun j hj => ?_⟩
        have hy := hle y (.inr rfl)
        rcases hj with hj | hj
        · rcases List.mem_cons.mp hj with rfl | hj
          · omega
          · exact hle _ (.inl hj)
        · exact hle _ (.inr hj)

theorem nextLayer_lowest (s : State) (p i j : Nat) (h : nextLayer s p = some i) (hj : j ∈ layersOf s p) (hswap : (s.dirEntry j).swap = 2)
    (hholders : (s.dirEntry j).holders = 0) (hreach : reachable s p (s.dirEntry j).order = false) :
    (s.dirEntry i).order ≤ (s.dirEntry j).order ∧ (s.dirEntry i).holders = 0 ∧ (s.dirEntry i).swap = 2 ∧ reachable s p (s.dirEntry i).order = false := by
  obtain ⟨hmem, hle⟩ := foldl_lower (g := fun i => (s.dirEntry i).order) h
  have hready := (List.mem_filter.mp (hmem.resolve_right (Option.some_ne_none _).symm)).2
  simp only [Bool.and_eq_true, beq_iff_eq, Bool.not_eq_true'] at hready
  obtain ⟨⟨hs, hh⟩, hr⟩ := hready
  exact ⟨hle j (.inl (List.mem_filter.mpr ⟨hj, by simp [hswap, hholders, hreach]⟩)), hh, hs, hr⟩

theorem copyShown_memoryOnly (src dst n : Nat) (s : State) : MemoryOnly s (copyShown src dst n s) :=
  ((touch_memoryOnly src n s).trans (wrBytes_memoryOnly _ _ _ _)).trans ⟨_, _, _, _, _, _, _, _, _, _, _, rfl⟩

theorem openGates_sameVersions (i : Nat) (s : State) : SameVersions s (openGates i s) := .foldl (fun _ _ => retire_sameVersions _ _ _ _ _) _ s

/-- The end of a swap leaves which layer is being rewritten, and every directory entry. -/
theorem swapDone_keeps (p e : Nat) (s : State) (q : Nat) : ((swapDone p e s).swapOf q).rewriting = (s.swapOf q).rewriting ∧ (swapDone p e s).dir = s.dir := by
  unfold swapDone
  dsimp only
  refine ⟨?_, post_dir _ _ _⟩
  rw [swapOf_modSwapOf]
  split
  next h => rw [h, swapOf_congr s _ (post_swaps _ _ _)]
  next => rw [swapOf_congr s _ (post_swaps _ _ _)]

theorem layerRewriteDone_switches (s : State) (p i : Nat) (hrewriting : (s.swapOf p).rewriting = some i)
    (hheld : heldAny s [((s.dirEntry i).nextScalePtr, 4 * (s.dirEntry i).n), ((s.dirEntry i).scalePtr, 4 * (s.dirEntry i).n),
      ((s.dirEntry i).nextPtr, codeBytes (s.dirEntry i).k (s.dirEntry i).n), ((s.dirEntry i).ptr, codeBytes (s.dirEntry i).k (s.dirEntry i).n)] = false) :
    Completes (.layerRewriteDone p) s (fun t => (t.swapOf p).rewriting = none ∧ (t.dirEntry i).epoch = (s.swapOf p).epoch ∧ (t.dirEntry i).swap = 0 ∧
      (t.dirEntry i).ptr = (s.dirEntry i).ptr ∧ (t.dirEntry i).scalePtr = (s.dirEntry i).scalePtr ∧ (t.dirEntry i).nextEpoch = 0 ∧
      (t.dirEntry i).zeroCol = (s.dirEntry i).nextZeroCol) := by
  obtain ⟨u, hu⟩ : ∃ u, u = copyShown (s.dirEntry i).nextScalePtr (s.dirEntry i).scalePtr (4 * (s.dirEntry i).n)
    (copyShown (s.dirEntry i).nextPtr (s.dirEntry i).ptr (codeBytes (s.dirEntry i).k (s.dirEntry i).n) s) := ⟨_, rfl⟩
  obtain ⟨v, hv⟩ : ∃ v, v = (u.modDirEntry i (fun d => markDamaged u (d.rewritten (s.swapOf p).epoch))).modSwapOf p (fun w => { w with rewriting := none }) := ⟨_, rfl⟩
  obtain ⟨w, hw⟩ : ∃ w, w = openGates i (post 0x0501 (leBytes 4 (handleOf v i)) v) := ⟨_, rfl⟩
  have hcopied : SameVersions s u := hu ▸ ((copyShown_memoryOnly _ _ _ _).trans (copyShown_memoryOnly _ _ _ _)).sameVersions
  have hopened : SameVersions v w := hw ▸ ((post_eventsOnly _ _ _).memoryOnly.sameVersions.trans (openGates_sameVersions _ _))
  have hidle : (w.swapOf p).rewriting = none := by
    rw [swapOf_congr v w hopened.swaps, hv, swapOf_modSwapOf, if_pos rfl]
  have hversion : (w.dirEntry i).version = ((s.dirEntry i).rewritten (s.swapOf p).epoch).version := by
    have hrewritten : v.dirEntry i = markDamaged u ((u.dirEntry i).rewritten (s.swapOf p).epoch) := by
      rw [hv]
      exact dirEntry_mod_self u i (fun d => markDamaged u (d.rewritten (s.swapOf p).epoch)) rfl
    rw [hopened.version, hrewritten, markDamaged_version]
    exact congrArg (Dir.rewritten (s.swapOf p).epoch) (hcopied.version i)
  have hexec : exec (.layerRewriteDone p) s = .next (if (layersOf w p).isEmpty then swapDone p (s.swapOf p).epoch w else w) := by
    change execLayerRewriteDone p s = _
    simp only [execLayerRewriteDone, hrewriting]
    rw [if_neg (by rw [hheld]; exact Bool.false_ne_true), ← hu, ← hv, ← hw]
  have hdone (t : State) (ht : (t.swapOf p).rewriting = none) (hdir : t.dir = w.dir) : (t.swapOf p).rewriting = none ∧
      (t.dirEntry i).epoch = (s.swapOf p).epoch ∧ (t.dirEntry i).swap = 0 ∧ (t.dirEntry i).ptr = (s.dirEntry i).ptr ∧
      (t.dirEntry i).scalePtr = (s.dirEntry i).scalePtr ∧ (t.dirEntry i).nextEpoch = 0 ∧ (t.dirEntry i).zeroCol = (s.dirEntry i).nextZeroCol := by
    rw [dirEntry_congr w t hdir]
    generalize w.dirEntry i = d at hversion
    exact ⟨ht, show d.version.epoch = _ by rw [hversion]; rfl, show d.version.swap = _ by rw [hversion]; rfl, show d.version.ptr = _ by rw [hversion]; rfl,
      show d.version.scalePtr = _ by rw [hversion]; rfl, show d.version.nextEpoch = _ by rw [hversion]; rfl, show d.version.zeroCol = _ by rw [hversion]; rfl⟩
  refine ⟨_, hexec, ?_⟩
  obtain ⟨hkeep, hdir⟩ := swapDone_keeps p (s.swapOf p).epoch w p
  split
  · exact hdone _ (hkeep.trans hidle) hdir
  · exact hdone _ hidle rfl

theorem swapDrainTimeout_carriesOver (s : State) (p : Nat) (harmed : (s.swapOf p).armed = true) (hpolicy : (s.swapOf p).policy = 0)
    (hopen : (s.swapOf p).timedOut = false) (hdue : (s.swapOf p).armedAt + 1000 * (s.swapOf p).timeout ≤ s.tim.beat) (hold : oldRequests s p ≠ []) :
    Completes (.swapDrainTimeout p) s (fun t => t.swapOf p = { s.swapOf p with timedOut := true, trackCarry := true } ∧
      t = { s with swaps := t.swaps, hostMem := t.hostMem, mbs := t.mbs, stw := t.stw }) := by
  refine ⟨_, congrArg Host.Outcome.next (if_pos ⟨harmed, hpolicy, hopen, hdue, by simpa using hold⟩), ?_, ?_⟩
  · rw [swapOf_congr _ _ (post_swaps _ _ _), swapOf_modSwapOf, if_pos rfl]
  · obtain ⟨h, b, w, hpost⟩ := post_eventsOnly 0x0503 (leBytes 1 p ++ leBytes 4 (s.swapOf p).epoch ++ leBytes 4 (oldRequests s p).length)
      (s.modSwapOf p (fun w => { w with timedOut := true, trackCarry := true }))
    rw [hpost]
    rfl

/-! ### Copies of spilled tensors (R333) -/

theorem mem_tins_self {α : Type} (k : Nat) (v : α) (t : Tab α) : (k, v) ∈ tins k v t := by
  induction t with
  | nil => exact List.mem_cons_self
  | cons e t ih =>
    obtain ⟨a, w⟩ := e
    unfold tins
    split
    · exact List.mem_cons_self
    · exact List.mem_cons_of_mem _ ih

theorem spillCopyDone_copies (s : State) (a h e src i : Nat) (hbusy : s.wts.hotBusy.find? (fun x => x.1 == a) = some (a, h, e, src)) (he : s.errs = [])
    (hheld : heldAny s [(src, codeBytes (s.dirEntry (handleIdx h)).k (s.dirEntry (handleIdx h)).n),
      (a, codeBytes (s.dirEntry (handleIdx h)).k (s.dirEntry (handleIdx h)).n)] = false)
    (hi : i < codeBytes (s.dirEntry (handleIdx h)).k (s.dirEntry (handleIdx h)).n)
    (hstore : ∀ j, j < codeBytes (s.dirEntry (handleIdx h)).k (s.dirEntry (handleIdx h)).n → noStore s (a + j) = false) :
    Completes (.spillCopyDone a) s (fun t => hotHolds t a h e = true ∧ Memory.read t.mem (a + i) = rdByte s (src + i) ∧
      ∀ o, o ∈ t.ops → o.ptr = a → o.whandle = h → o.epoch = e → o.copying = false) := by
  refine ⟨hotReady a h e (copyShown src a (codeBytes (s.dirEntry (handleIdx h)).k (s.dirEntry (handleIdx h)).n) s), ?_, ?_, read_copyBytes he hi (hstore i hi), ?_⟩
  · change execSpillCopyDone a s = _
    simp only [execSpillCopyDone, hbusy]
    rw [if_neg (by rw [hheld]; exact Bool.false_ne_true)]
  · generalize copyShown src a _ s = t
    have hmem : (a, h, e) ∈ tins a (h, e) (tdel t.wts.hot a) := mem_tins_self _ _ _
    exact List.any_eq_true.mpr ⟨_, hmem, by simp⟩
  · generalize copyShown src a _ s = t
    intro o ho hptr hhandle hepoch
    obtain ⟨o', -, rfl⟩ := List.mem_map.mp ho
    split at hptr
    next hc =>
      rw [if_pos hc]
    next hn =>
      rw [if_neg hn] at hhandle hepoch ⊢
      exact Bool.eq_false_iff.mpr fun hc => hn ⟨hc, hptr, hhandle, hepoch⟩

/-- Settles O34: a retire leaves the swaps and the versions of every entry, so each row's own effect stands. -/
theorem tollGatesAndSwapsAct : Obligations.TollGatesAndSwapsAct :=
  ⟨tollgate_passes, tollgate_holds, tollgate_badHandle, opRetire_gate, layerRewriteStart_starts, nextLayer_lowest, layerRewriteDone_switches,
    swapDrainTimeout_carriesOver, spillCopyDone_copies⟩

end Sys2Proof.Machine
end

section
/-! Loading a tensor: begin, chunk, end (R314, R315, R317). -/

namespace Sys2Proof.Machine

open Sys2Proof State

/-- The context of a state whose table is another's with one context set. -/
theorem ctx_set_self (s : State) (i : Nat) (v : LoadCtx) {t : State} (h : t.ctxs = (s.setCtx i v).ctxs) : t.ctx i = v :=
  (ctx_congr _ _ h i).trans ((ctx_setCtx s i i v).trans (if_pos rfl))

theorem ctx_set_ne (s : State) (i : Nat) (v : LoadCtx) {t : State} (h : t.ctxs = (s.setCtx i v).ctxs) {j : Nat} (hj : j ≠ i) : t.ctx j = s.ctx j :=
  (ctx_congr _ _ h j).trans ((ctx_setCtx s i j v).trans (if_neg hj))

theorem modelLoadBegin_opens (s : State) (k i : Nat) (c : Cmd) (h : Taken s k 0x0501 c) (hchecks : orElse (loadBeginChecks s c) = none) (hi : i < 4)
    (hfree : (s.ctx (4 * c.at 102 1 + i)).open_ = false) (hlower : ∀ j, j < i → (s.ctx (4 * c.at 102 1 + j)).open_ = true) :
    Completes (.modelLoadBegin k) s (fun t => Answered s t k { result := leBytes 1 (4 * c.at 102 1 + i) } ∧
      t.ctx (4 * c.at 102 1 + i) = { open_ := true, handle := c.at 64 4, target := c.at 68 1, sfmt := c.at 69 1, transpose := c.at 70 1 == 1, spill := c.at 71 1 == 1
                                     k := c.at 72 4, n := c.at 76 4, ld := c.at 80 4, epoch := c.at 84 4, dest := c.at 88 6, order := c.at 94 2
                                     destScale := c.at 96 6, stage := c.at 104 6, stageLen := c.at 112 8, hotStage := c.at 120 6 } ∧
      (∀ j, j ≠ 4 * c.at 102 1 + i → t.ctx j = s.ctx j) ∧ t = { s with cmds := t.cmds, ctxs := t.ctxs }) := by
  have hlowest : (List.range 4).find? (fun i => !(s.ctx (4 * c.at 102 1 + i)).open_) = some i := by
    refine List.find?_range_eq_some.mpr ⟨by rw [hfree]; rfl, List.mem_range.mpr hi, fun j hj => by rw [hlower j hj]; rfl⟩
  have hexec : exec (.modelLoadBegin k) s = .next (finishCmd k { result := leBytes 1 (4 * c.at 102 1 + i) } (s.setCtx (4 * c.at 102 1 + i) (loadContext c))) := by
    refine congrArg Host.Outcome.next (runCmd_acts h hchecks ?_ rfl)
    simp only [hlowest, Option.getD_some]
  exact ⟨_, hexec, answered_finish _ _ _ _ rfl, ctx_set_self s _ (loadContext c) rfl, fun j hj => ctx_set_ne s _ (loadContext c) rfl hj, rfl⟩

/-- A command whose body gives a final reply is answered with it. -/
theorem runCmd_answers {s t : State} {k op : Nat} {c : Cmd} (h : Taken s k op c) {body : Cmd → State → State × Reply} {r : Reply} (hbody : body c s = (t, r))
    (hr : r.wait = false) : runCmd k op body s = finishCmd k r t := by
  rw [runCmd_taken h, hbody, hr]
  rfl

theorem modelLoadChunk_starts (s : State) (k : Nat) (c : Cmd) (h : Taken s k 0x0502 c) (hchecks : orElse (loadChunkChecks s c) = none) :
    Completes (.modelLoadChunk k [] []) s (fun t => Waiting t k ∧ t.ctx (c.at 16 1) = { s.ctx (c.at 16 1) with busy := true } ∧
      t = { s with cmds := t.cmds, ctxs := t.ctxs }) := by
  refine ⟨startCmd k false (s.modCtx (c.at 16 1) (fun x => { x with busy := true })), ?_, waiting_start h _ _ rfl, ?_, rfl⟩
  · have hcmd : cmdOf s k = some c := h.1
    have hfirst : ¬(c.opcode = 0x0502 ∧ c.started = true ∧ (!c.decided) = true) := fun hc => by
      rw [(taken_open h).2] at hc
      exact Bool.false_ne_true hc.2.1
    change execModelLoadChunk k [] [] s = _
    unfold execModelLoadChunk
    rw [hcmd]
    exact congrArg Host.Outcome.next ((if_neg hfirst).trans (runCmd_waits h (r := { wait := true, commit := false }) hchecks rfl rfl))
  · exact ctx_set_self s (c.at 16 1) { s.ctx (c.at 16 1) with busy := true } rfl

/-! ### The end of a chunk -/

/-- From `s` to `t` load contexts, commands, the directory and the ops stand. -/
structure SameLoads (s t : State) : Prop where
  ctxs : t.ctxs = s.ctxs
  cmds : t.cmds = s.cmds
  dir : t.dir = s.dir
  ops : t.ops = s.ops

section
variable {s t u : State}

theorem SameLoads.trans (h : SameLoads s t) (h' : SameLoads t u) : SameLoads s u :=
  ⟨h'.ctxs.trans h.ctxs, h'.cmds.trans h.cmds, h'.dir.trans h.dir, h'.ops.trans h.ops⟩

theorem MemoryOnly.sameLoads (h : MemoryOnly s t) : SameLoads s t := by
  obtain ⟨_, _, _, _, _, _, _, _, _, _, _, rfl⟩ := h
  exact ⟨rfl, rfl, rfl, rfl⟩

theorem SameLoads.ite {c : Prop} [Decidable c] (h : SameLoads s t) (h' : SameLoads s u) : SameLoads s (if c then t else u) := by
  split
  · exact h
  · exact h'

end

/-- Context `i` is free for its next chunk, and commands, the directory and the ops stand. -/
def ChunkEnds (i : Nat) (s t : State) : Prop := (t.ctx i).busy = false ∧ t.cmds = s.cmds ∧ t.dir = s.dir ∧ t.ops = s.ops

theorem SameLoads.leads {s t u : State} {i : Nat} (h : SameLoads s t) (h' : ChunkEnds i t u) : ChunkEnds i s u := by
  obtain ⟨hbusy, hcmds, hdir, hops⟩ := h'
  exact ⟨hbusy, hcmds.trans h.cmds, hdir.trans h.dir, hops.trans h.ops⟩

theorem SameLoads.follows {s t u : State} {i : Nat} (h' : SameLoads t u) (h : ChunkEnds i s t) : ChunkEnds i s u := by
  obtain ⟨hbusy, hcmds, hdir, hops⟩ := h
  exact ⟨by rw [ctx_congr t u h'.ctxs]; exact hbusy, h'.cmds.trans hcmds, h'.dir.trans hdir, h'.ops.trans hops⟩

theorem SameLoads.refl (s : State) : SameLoads s s := ⟨rfl, rfl, rfl, rfl⟩

/-- A change of a context that leaves it free. -/
theorem modCtx_chunkEnds (s : State) (i : Nat) {g : LoadCtx → LoadCtx} (hg : ∀ x, (g x).busy = false) : ChunkEnds i s (s.modCtx i g) := by
  refine ⟨?_, rfl, rfl, rfl⟩
  rw [ctx_modCtx, if_pos rfl]
  exact hg _

theorem failCtx_chunkEnds (i : Nat) (s : State) : ChunkEnds i s (failCtx i s) := modCtx_chunkEnds s i fun _ => rfl

theorem stageScratch_sameLoads (x : LoadCtx) (s : State) : SameLoads s (stageScratch x s) := by
  obtain ⟨hctxs, hcmds, hdir, hops⟩ :=
    (wrShown_memoryOnly x.stage ((List.range x.stageLen).map (fun i => BitVec.ofNat 8 (Config.freeNat (s.free + i)))) s).sameLoads
  exact ⟨hctxs, hcmds, hdir, hops⟩

theorem writeWide_sameLoads (x : LoadCtx) (src : List Byte × (Nat → Bool)) (n0 cn : Nat) (s : State) : SameLoads s (writeWide x src n0 cn s) :=
  ((wrShown_memoryOnly _ _ s).trans (wrShown_memoryOnly _ _ _)).sameLoads

theorem readSource_sameLoads (n a len : Nat) (s : State) : SameLoads s (if n = 0 then s else touch a len s) :=
  .ite (.refl s) (touch_memoryOnly a len s).sameLoads

/-- The reply of a chunk's end is final, and leaves its context free. -/
def ChunkAnswers (i : Nat) (s : State) (x : State × Reply) : Prop := ChunkEnds i s x.1 ∧ x.2.wait = false

theorem endWide_ends (i : Nat) (c : Cmd) (data : List Byte) (bad : List Nat) (s : State) : ChunkAnswers i s (endWide i c data bad s) := by
  have hread := readSource_sameLoads (c.at 17 1) (c.at 24 8) ((s.ctx i).srcLen (c.at 32 4)) s
  unfold endWide
  extract_lets x n0 cn len t src
  split
  · exact ⟨(stageScratch_sameLoads _ _).follows (hread.leads (failCtx_chunkEnds i _)), rfl⟩
  · refine ⟨((hread.trans (stageScratch_sameLoads _ _)).trans (writeWide_sameLoads _ _ _ _ _)).leads (modCtx_chunkEnds _ i ?_), rfl⟩
    exact fun _ => rfl

theorem endPacked_ends (i : Nat) (c : Cmd) (data : List Byte) (bad : List Nat) (s : State) : ChunkAnswers i s (endPacked i c data bad s) := by
  have hread := readSource_sameLoads (c.at 17 1) (c.at 24 8) (c.at 40 8) s
  unfold endPacked
  extract_lets x len t src stream old new u v zero
  have hrows : SameLoads s v := (hread.trans (wrShown_memoryOnly _ _ _).sameLoads).trans (.ite (wrShown_memoryOnly _ _ _).sameLoads (.refl _))
  have hfails : ChunkAnswers i s (failCtx i t, .no stOutOfRange) := ⟨hread.leads (failCtx_chunkEnds i _), rfl⟩
  split
  · exact hfails
  · split
    · exact hfails
    · refine ⟨hrows.leads (modCtx_chunkEnds _ i ?_), rfl⟩
      exact fun _ => rfl

theorem modelLoadChunk_ends (s : State) (k : Nat) (c : Cmd) (data : List (BitVec 8)) (bad : List Nat) (hcmd : cmdOf s k = some c) (hop : c.opcode = 0x0502)
    (hstarted : c.started = true) (hopen : c.decided = false) (hbusy : (s.ctx (c.at 16 1)).busy = true)
    (hheld : heldAny s ((s.ctx (c.at 16 1)).moved c) = false) :
    Completes (.modelLoadChunk k data bad) s (fun t => (t.ctx (c.at 16 1)).busy = false ∧ (∃ r, Answered s t k r ∧ r.wait = false) ∧ t.dir = s.dir ∧ t.ops = s.ops) := by
  obtain ⟨x, hx⟩ : ∃ x, x = if (s.ctx (c.at 16 1)).sfmt = 3 then endPacked (c.at 16 1) c data bad s else endWide (c.at 16 1) c data bad s := ⟨_, rfl⟩
  have hends : ChunkAnswers (c.at 16 1) s x := by
    rw [hx]
    split
    · exact endPacked_ends _ c data bad s
    · exact endWide_ends _ c data bad s
  obtain ⟨⟨hfree, hcmds, hdir, hops⟩, hwait⟩ := hends
  refine ⟨finishCmd k x.2 x.1, ?_, hfree, ⟨x.2, answered_finish _ _ _ _ hcmds, hwait⟩, hdir, hops⟩
  change execModelLoadChunk k data bad s = _
  simp only [execModelLoadChunk, hcmd]
  rw [if_pos ⟨hop, hstarted, by rw [hopen]; rfl⟩, if_neg (by rw [hbusy, hheld]; exact Bool.false_ne_true), ← hx]

/-! ### The end of a load -/

/-- What a switch of a directory entry leaves: all but the directory and which ops count in PREV_HOLDERS (R323). -/
theorem switchPointer_frame (i : Nat) (d : Dir) (s : State) :
    switchPointer i d s = { s with dir := (switchPointer i d s).dir, ops := (switchPointer i d s).ops } := rfl

/-- The switched entry names the version given and counts no holder yet. -/
theorem switchPointer_version (i : Nat) (d : Dir) (s : State) : ((switchPointer i d s).dirEntry i).version = d.version := by
  have hentry : (switchPointer i d s).dirEntry i = markDamaged s { d with prevHolders := (s.dirEntry i).holders, holders := 0 } :=
    (dirEntry_congr (s.setDirEntry i _) _ rfl i).trans ((dirEntry_setDirEntry s i i _).trans (if_pos rfl))
  rw [hentry, markDamaged_version]
  rfl

theorem switchPointer_ne (i : Nat) (d : Dir) (s : State) {j : Nat} (hj : j ≠ i) : (switchPointer i d s).dirEntry j = s.dirEntry j :=
  (dirEntry_congr (s.setDirEntry i _) _ rfl j).trans ((dirEntry_setDirEntry s i j _).trans (if_neg hj))

section
variable {s : State} {k i : Nat} {c : Cmd} (hctx : c.at 16 1 = i) (hi : i < 16) (hopen : (s.ctx i).open_ = true) (hz : c.at 17 47 = 0)
  (hreset : resetting s (i / 4) = false) (hbusy : (s.ctx i).busy = false)
include hctx hi hopen hz hreset hbusy

/-- The checks that come before the context's own state. -/
theorem loadEnd_checks : orElse [ctxChecks s c, c.rsvd 17 64, refuse (resetting s (i / 4)) stPartitionResetting, refuse (s.ctx i).busy stBusy] = none := by
  subst hctx
  unfold ctxChecks
  simp only [outOfRange_passes, rsvd_passes, refuse_passes, orElse_nil, hopen, hz, hreset, hbusy, and_true]
  simp
  omega

theorem modelLoadEnd_publishes (h : Taken s k 0x0503 c) {j : Nat} (hsound : (s.ctx i).failed = false) (hdelivered : (s.ctx i).delivered = true)
    (hhandle : (s.ctx i).handle = 0) (htarget : (s.ctx i).target = 0) (hfree : freeIndex s = some j) (hddr : inDdr (s.ctx i).dest = false) :
    Completes (.modelLoadEnd k) s (fun t => Answered s t k { result := leBytes 4 (j + 65536 * (s.dirEntry j).gen) } ∧ t.ctx i = {} ∧
      (t.dirEntry j).valid = true ∧ (t.dirEntry j).ptr = (s.ctx i).dest ∧ (t.dirEntry j).scalePtr = (s.ctx i).destScale ∧
      (t.dirEntry j).epoch = (s.ctx i).epoch ∧ (t.dirEntry j).part = i / 4 ∧ (t.dirEntry j).k = (s.ctx i).k ∧ (t.dirEntry j).n = (s.ctx i).n ∧
      (t.dirEntry j).gen = (s.dirEntry j).gen ∧ (∀ m, m ≠ j → t.dirEntry m = s.dirEntry m) ∧ t.mem = s.mem) := by
  have hchecks := loadEnd_checks hctx hi hopen hz hreset hbusy
  subst hctx
  obtain ⟨d, hd⟩ : ∃ d : Dir, d = { gen := (s.dirEntry j).gen, part := c.at 16 1 / 4, k := (s.ctx (c.at 16 1)).k, n := (s.ctx (c.at 16 1)).n
                                    ptr := (s.ctx (c.at 16 1)).dest, scalePtr := (s.ctx (c.at 16 1)).destScale, epoch := (s.ctx (c.at 16 1)).epoch
                                    zeroCol := (s.ctx (c.at 16 1)).zeroCol, order := (s.ctx (c.at 16 1)).order, valid := true, spilled := false, hotStage := 0 } := ⟨_, rfl⟩
  obtain ⟨u, hu⟩ : ∃ u, u = switchPointer j d s := ⟨_, rfl⟩
  have hversion : (u.dirEntry j).version = d.version := hu ▸ switchPointer_version j d s
  have hne (m : Nat) (hm : m ≠ j) : u.dirEntry m = s.dirEntry m := hu ▸ switchPointer_ne j d s hm
  have hframe : u = { s with dir := u.dir, ops := u.ops } := hu ▸ switchPointer_frame j d s
  have hgen : (u.dirEntry j).gen = (s.dirEntry j).gen := by
    change (u.dirEntry j).version.gen = _
    rw [hversion, hd]
    rfl
  have hexec : exec (.modelLoadEnd k) s = .next (finishCmd k { result := leBytes 4 (j + 65536 * (s.dirEntry j).gen) } (u.setCtx (c.at 16 1) {})) := by
    refine congrArg Host.Outcome.next (runCmd_answers h ?_ rfl)
    dsimp only
    rw [hchecks]
    dsimp only
    rw [if_neg (by rw [hsound]; exact Bool.false_ne_true), checked_pass, if_neg (by rw [htarget]; exact Nat.zero_ne_one)]
    · simp only [hhandle, hddr, hfree, Option.getD_some, bne_self_eq_false, Bool.false_eq_true, if_false]
      rw [← hd, ← hu, handleOf, hgen]
    · simp only [outOfRange_passes, refuse_passes, orElse_nil, hdelivered, hhandle, htarget, hfree]
      simp
  have hmem : u.mem = s.mem := by rw [hframe]
  have hcmds : u.cmds = s.cmds := by rw [hframe]
  have hfields : (u.dirEntry j).valid = true ∧ (u.dirEntry j).ptr = (s.ctx (c.at 16 1)).dest ∧ (u.dirEntry j).scalePtr = (s.ctx (c.at 16 1)).destScale ∧
      (u.dirEntry j).epoch = (s.ctx (c.at 16 1)).epoch ∧ (u.dirEntry j).part = c.at 16 1 / 4 ∧ (u.dirEntry j).k = (s.ctx (c.at 16 1)).k ∧
      (u.dirEntry j).n = (s.ctx (c.at 16 1)).n := by
    generalize u.dirEntry j = e at hversion
    subst hd
    exact ⟨congrArg Dir.valid hversion, congrArg Dir.ptr hversion, congrArg Dir.scalePtr hversion, congrArg Dir.epoch hversion, congrArg Dir.part hversion,
      congrArg Dir.k hversion, congrArg Dir.n hversion⟩
  obtain ⟨hvalid, hptr, hscale, hepoch, hpart, hk, hn⟩ := hfields
  clear hframe hu hd hversion
  exact ⟨_, hexec, answered_finish _ _ _ _ hcmds, ctx_set_self u _ {} rfl, hvalid, hptr, hscale, hepoch, hpart, hk, hn, hgen, hne, hmem⟩

theorem modelLoadEnd_failed (h : Taken s k 0x0503 c) (hfailed : (s.ctx i).failed = true) :
    Completes (.modelLoadEnd k) s (fun t => Answered s t k { status := stOutOfRange, detail := 16 } ∧ t.ctx i = {} ∧ t.dir = s.dir) := by
  have hchecks := loadEnd_checks hctx hi hopen hz hreset hbusy
  subst hctx
  refine ⟨finishCmd k (.no stOutOfRange 16) (s.setCtx (c.at 16 1) {}), congrArg Host.Outcome.next (runCmd_answers h ?_ rfl), answered_finish _ _ _ _ rfl,
    ctx_set_self s _ {} rfl, rfl⟩
  dsimp only
  rw [hchecks]
  exact if_pos hfailed

end

/-- Settles O35: a chunk's writes leave contexts, commands, the directory and the ops, so each command's own effect stands. -/
theorem modelLoadCommandsRun : Obligations.ModelLoadCommandsRun :=
  ⟨modelLoadBegin_opens, modelLoadChunk_starts, modelLoadChunk_ends,
    fun _ _ _ _ _ h hctx hi hopen hz hreset hbusy hsound hdelivered hhandle htarget hfree hddr =>
      modelLoadEnd_publishes hctx hi hopen hz hreset hbusy h hsound hdelivered hhandle htarget hfree hddr,
    fun _ _ _ _ h hctx hi hopen hz hreset hbusy hfailed => modelLoadEnd_failed hctx hi hopen hz hreset hbusy h hfailed⟩

end Sys2Proof.Machine
end

section
/-! The commands of the weight directory and of swaps (R323 to R325, R331, R333). -/

namespace Sys2Proof.Machine

open Sys2Proof State

/-! ### The directory -/

theorem switchPointer_holders (i : Nat) (d : Dir) (s : State) : ((switchPointer i d s).dirEntry i).holders = 0 ∧
    ((switchPointer i d s).dirEntry i).prevHolders = (s.dirEntry i).holders := by
  have hdamage (e : Dir) : (markDamaged s e).holders = e.holders ∧ (markDamaged s e).prevHolders = e.prevHolders := by
    unfold markDamaged
    refine foldl_inv (fun x : Dir => x.holders = e.holders ∧ x.prevHolders = e.prevHolders) _ (fun x u hx => ?_) _ _ ⟨rfl, rfl⟩
    unfold Dir.damage
    split <;> exact hx
  have hentry : (switchPointer i d s).dirEntry i = markDamaged s { d with prevHolders := (s.dirEntry i).holders, holders := 0 } :=
    (dirEntry_congr (s.setDirEntry i _) _ rfl i).trans ((dirEntry_setDirEntry s i i _).trans (if_pos rfl))
  rw [hentry]
  exact hdamage _

/-- The ops that hold the version before count in PREV_HOLDERS (R323). -/
theorem switchPointer_ops (i : Nat) (d : Dir) (s : State) : ∀ o, o ∈ (switchPointer i d s).ops → o.holds = some i → o.holdsPrev = true := by
  intro o ho hholds
  obtain ⟨o', -, rfl⟩ := List.mem_map.mp ho
  split at hholds
  next h => rw [if_pos h]
  next h => exact absurd hholds h

theorem modelDirSet_switches (s : State) (k h : Nat) (c : Cmd) (htaken : Taken s k 0x0504 c) (hh : c.at 16 4 = h) (hvalid : handleValid s h = true)
    (hepoch : c.at 20 4 ≠ 0) (hptr : c.at 24 6 % 65536 = 0) (hflags : c.at 30 1 ≤ 3) (hz₁ : c.at 31 1 = 0) (hscale : c.at 32 6 % 64 = 0) (hz₂ : c.at 38 2 = 0)
    (hspill : bit (c.at 30 1) 1 = false → c.at 40 6 = 0) (hz₃ : c.at 46 18 = 0) (hreset : resetting s (s.dirEntry (handleIdx h)).part = false)
    (hprev : (s.dirEntry (handleIdx h)).prevHolders = 0) (hswap : (s.dirEntry (handleIdx h)).swap = 0)
    (hcap : noCapacity s (s.dirEntry (handleIdx h)).part 0 (s.dirEntry (handleIdx h)).spilled (bit (c.at 30 1) 1) (c.at 24 6) (c.at 32 6)
      (s.dirEntry (handleIdx h)).k (s.dirEntry (handleIdx h)).n (c.at 40 6) = false) :
    Completes (.modelDirSet k) s (fun t => Answered s t k {} ∧ (t.dirEntry (handleIdx h)).ptr = c.at 24 6 ∧ (t.dirEntry (handleIdx h)).scalePtr = c.at 32 6 ∧
      (t.dirEntry (handleIdx h)).epoch = c.at 20 4 ∧ (t.dirEntry (handleIdx h)).holders = 0 ∧
      (t.dirEntry (handleIdx h)).prevHolders = (s.dirEntry (handleIdx h)).holders ∧ (t.dirEntry (handleIdx h)).gen = (s.dirEntry (handleIdx h)).gen ∧
      (∀ o, o ∈ t.ops → o.holds = some (handleIdx h) → o.holdsPrev = true) ∧ (∀ j, j ≠ handleIdx h → t.dirEntry j = s.dirEntry j) ∧ t.mem = s.mem) := by
  subst hh
  obtain ⟨d, hd⟩ : ∃ d : Dir, d = { s.dirEntry (handleIdx (c.at 16 4)) with
    ptr := c.at 24 6, scalePtr := c.at 32 6, epoch := c.at 20 4, zeroCol := bit (c.at 30 1) 0, spilled := inDdr (c.at 24 6)
    hotStage := if inDdr (c.at 24 6) then c.at 40 6 else 0 } := ⟨_, rfl⟩
  obtain ⟨u, hu⟩ : ∃ u, u = switchPointer (handleIdx (c.at 16 4)) d s := ⟨_, rfl⟩
  have hversion : (u.dirEntry (handleIdx (c.at 16 4))).version = d.version := hu ▸ switchPointer_version _ d s
  obtain ⟨hholders, hprevs⟩ := switchPointer_holders (handleIdx (c.at 16 4)) d s
  have hops := switchPointer_ops (handleIdx (c.at 16 4)) d s
  have hne (m : Nat) (hm : m ≠ handleIdx (c.at 16 4)) : u.dirEntry m = s.dirEntry m := hu ▸ switchPointer_ne _ d s hm
  have hframe : u = { s with dir := u.dir, ops := u.ops } := hu ▸ switchPointer_frame _ d s
  have hmem : u.mem = s.mem := by rw [hframe]
  have hcmds : u.cmds = s.cmds := by rw [hframe]
  have hexec : exec (.modelDirSet k) s = .next (finishCmd k {} u) := by
    refine congrArg Host.Outcome.next (runCmd_acts htaken ?_ (by rw [hu, hd]) rfl)
    simp only [refuse_passes, badField_passes, outOfRange_passes, rsvd_passes, orElse_nil, hvalid, hz₁, hz₂, hz₃, hreset, hcap, hptr, hscale, switchBusy, hprev, hswap, and_true]
    have hstage : (!bit (c.at 30 1) 1 && c.at 40 6 != 0) = false := by
      cases hbit : bit (c.at 30 1) 1 with
      | false => rw [hspill hbit]; rfl
      | true => rfl
    simp [hepoch, hflags, hstage]
  rw [← hu] at hholders hprevs hops
  have hfields : (u.dirEntry (handleIdx (c.at 16 4))).ptr = c.at 24 6 ∧ (u.dirEntry (handleIdx (c.at 16 4))).scalePtr = c.at 32 6 ∧
      (u.dirEntry (handleIdx (c.at 16 4))).epoch = c.at 20 4 ∧ (u.dirEntry (handleIdx (c.at 16 4))).gen = (s.dirEntry (handleIdx (c.at 16 4))).gen := by
    generalize u.dirEntry (handleIdx (c.at 16 4)) = e at hversion
    subst hd
    exact ⟨(congrArg Dir.ptr hversion :), (congrArg Dir.scalePtr hversion :), (congrArg Dir.epoch hversion :), (congrArg Dir.gen hversion :)⟩
  obtain ⟨hp, hs, he, hg⟩ := hfields
  clear hframe hu hd hversion
  exact ⟨_, hexec, answered_finish _ _ _ _ hcmds, hp, hs, he, hholders, hprevs, hg, hops, hne, hmem⟩

/-- The entry of a state whose directory is another's with one entry set. -/
theorem dirEntry_set_self (s : State) (i : Nat) (d : Dir) {t : State} (h : t.dir = (s.setDirEntry i d).dir) : t.dirEntry i = d :=
  (dirEntry_congr _ _ h i).trans ((dirEntry_setDirEntry s i i d).trans (if_pos rfl))

theorem modelDirFree_frees (s : State) (k h : Nat) (c : Cmd) (htaken : Taken s k 0x0506 c) (hh : c.at 16 4 = h) (hvalid : handleValid s h = true)
    (hz : c.at 20 44 = 0) (hreset : resetting s (s.dirEntry (handleIdx h)).part = false) (hholders : (s.dirEntry (handleIdx h)).holders = 0)
    (hprev : (s.dirEntry (handleIdx h)).prevHolders = 0) (hswap : (s.dirEntry (handleIdx h)).swap = 0) :
    Completes (.modelDirFree k) s (fun t => Answered s t k {} ∧ handleValid t h = false ∧
      t.dirEntry (handleIdx h) = { s.dirEntry (handleIdx h) with valid := false, gen := ((s.dirEntry (handleIdx h)).gen + 1) % 65536 } ∧
      t = { s with cmds := t.cmds, dir := t.dir }) := by
  subst hh
  obtain ⟨d, hd⟩ : ∃ d : Dir, d = { s.dirEntry (handleIdx (c.at 16 4)) with valid := false, gen := ((s.dirEntry (handleIdx (c.at 16 4))).gen + 1) % 65536 } := ⟨_, rfl⟩
  have hexec : exec (.modelDirFree k) s = .next (finishCmd k {} (s.setDirEntry (handleIdx (c.at 16 4)) d)) := by
    refine congrArg Host.Outcome.next (runCmd_acts htaken ?_ (by rw [hd]) rfl)
    simp [hvalid, hz, hreset, switchBusy, hholders, hprev, hswap]
  have hentry : (finishCmd k {} (s.setDirEntry (handleIdx (c.at 16 4)) d)).dirEntry (handleIdx (c.at 16 4)) = d := dirEntry_set_self s _ d rfl
  refine ⟨_, hexec, answered_finish _ _ _ _ rfl, ?_, hentry.trans hd, rfl⟩
  unfold handleValid
  rw [hentry, hd]
  simp

theorem modelSwapStage_stages (s : State) (k h e : Nat) (c : Cmd) (htaken : Taken s k 0x0507 c) (hh : c.at 16 4 = h) (hvalid : handleValid s h = true)
    (he : c.at 20 4 = e) (he0 : e ≠ 0) (hepoch : stageEpochBad s (s.dirEntry (handleIdx h)).part e = false) (hptr : c.at 24 6 % 65536 = 0)
    (hcodes : stagePlaceBad s (s.dirEntry (handleIdx h)) (c.at 24 6) (codeBytes (s.dirEntry (handleIdx h)).k (s.dirEntry (handleIdx h)).n) = false)
    (hscale : c.at 32 6 % 64 = 0) (hscales : stagePlaceBad s (s.dirEntry (handleIdx h)) (c.at 32 6) (4 * (s.dirEntry (handleIdx h)).n) = false)
    (hflags : c.at 38 1 ≤ 1) (hz : c.at 39 25 = 0) (hreset : resetting s (s.dirEntry (handleIdx h)).part = false) (hswap : (s.dirEntry (handleIdx h)).swap = 0) :
    Completes (.modelSwapStage k) s (fun t => Answered s t k {} ∧ (t.dirEntry (handleIdx h)).nextPtr = c.at 24 6 ∧ (t.dirEntry (handleIdx h)).nextEpoch = e ∧
      (t.dirEntry (handleIdx h)).ptr = (s.dirEntry (handleIdx h)).ptr ∧ (t.dirEntry (handleIdx h)).order = c.at 30 2 ∧
      (t.dirEntry (handleIdx h)).swap = (if (s.swapOf (s.dirEntry (handleIdx h)).part).armed then 2 else 1) ∧
      (t.swapOf (s.dirEntry (handleIdx h)).part).epoch = e ∧ t = { s with cmds := t.cmds, dir := t.dir, swaps := t.swaps }) := by
  subst hh he
  obtain ⟨d, hd⟩ : ∃ d : Dir, d = { s.dirEntry (handleIdx (c.at 16 4)) with
    nextPtr := c.at 24 6, nextScalePtr := c.at 32 6, nextEpoch := c.at 20 4, nextZeroCol := bit (c.at 38 1) 0, order := c.at 30 2
    swap := if (s.swapOf (s.dirEntry (handleIdx (c.at 16 4))).part).armed then 2 else 1 } := ⟨_, rfl⟩
  obtain ⟨u, hu⟩ : ∃ u, u = stageVersion (handleIdx (c.at 16 4)) (c.at 20 4) (c.at 24 6) (c.at 32 6) (c.at 30 2) (bit (c.at 38 1) 0) s := ⟨_, rfl⟩
  have hexec : exec (.modelSwapStage k) s = .next (finishCmd k {} u) := by
    refine congrArg Host.Outcome.next (runCmd_acts htaken ?_ (by rw [hu]) rfl)
    simp [hvalid, he0, hepoch, hptr, hcodes, hscale, hscales, hz, hreset, hswap, hflags]
  have hframe : u = { s with dir := u.dir, swaps := u.swaps } := by rw [hu]; rfl
  have hentry : u.dirEntry (handleIdx (c.at 16 4)) = markDamaged s d := by
    rw [hu, hd]
    exact dirEntry_set_self s _ _ rfl
  have hversion : (u.dirEntry (handleIdx (c.at 16 4))).version = d.version := by rw [hentry, markDamaged_version]
  have hstaged : (u.swapOf (s.dirEntry (handleIdx (c.at 16 4))).part).epoch = c.at 20 4 := by
    rw [hu, stageVersion]
    exact congrArg Swap.epoch ((swapOf_modSwapOf _ _ _ _).trans (if_pos rfl))
  have hfields : (u.dirEntry (handleIdx (c.at 16 4))).nextPtr = c.at 24 6 ∧ (u.dirEntry (handleIdx (c.at 16 4))).nextEpoch = c.at 20 4 ∧
      (u.dirEntry (handleIdx (c.at 16 4))).ptr = (s.dirEntry (handleIdx (c.at 16 4))).ptr ∧ (u.dirEntry (handleIdx (c.at 16 4))).order = c.at 30 2 ∧
      (u.dirEntry (handleIdx (c.at 16 4))).swap = (if (s.swapOf (s.dirEntry (handleIdx (c.at 16 4))).part).armed then 2 else 1) := by
    clear hentry
    generalize u.dirEntry (handleIdx (c.at 16 4)) = e at hversion
    subst hd
    exact ⟨(congrArg Dir.nextPtr hversion :), (congrArg Dir.nextEpoch hversion :), (congrArg Dir.ptr hversion :), (congrArg Dir.order hversion :), (congrArg Dir.swap hversion :)⟩
  obtain ⟨hn, hne, hp, ho, hs⟩ := hfields
  clear hu hd hversion hentry
  refine ⟨_, hexec, answered_finish _ _ _ _ (by rw [hframe]), hn, hne, hp, ho, hs, hstaged, ?_⟩
  rw [hframe]
  rfl

/-! ### Commands that a retire leaves alone -/

theorem cmdOf_finishCmd_ne {j k : Nat} (hj : j ≠ k) (r : Reply) (s : State) : cmdOf (finishCmd k r s) j = cmdOf s j := by
  rw [finishCmd, cmdOf_modCmd _ _ _ (by simp)]
  simp [hj]

/-- No op waits for command `k` to count its retire, and no graceful disable is its. -/
def Unawaited (k : Nat) (s : State) : Prop := (∀ o, o ∈ s.ops → k ∉ o.abortCmds) ∧ ∀ d, d ∈ s.flt.disabling → d.2.2.2.1 ≠ k

theorem MemoryOnly.cmds {s t : State} (h : MemoryOnly s t) : t.cmds = s.cmds := by
  obtain ⟨_, _, _, _, _, _, _, _, _, _, _, rfl⟩ := h
  rfl

theorem markFenced_cmds (kind index sub : Nat) (s : State) : (markFenced kind index sub s).cmds = s.cmds := by
  unfold markFenced
  split
  case h_5 => exact (serveHeld_memoryOnly _ _).cmds
  case h_6 => exact (serveHeld_memoryOnly _ _).cmds
  all_goals rfl

theorem cmdOf_endDisable {k : Nat} (s : State) (d : Nat × Nat × Nat × Nat × Nat) (hd : d.2.2.2.1 ≠ k) : cmdOf (endDisable s d) k = cmdOf s k := by
  unfold endDisable
  dsimp only
  split
  · rfl
  · rw [cmdOf_finishCmd_ne (Ne.symm hd)]
    exact cmdOf_congr ((post_cmds _ _ _).trans (markFenced_cmds _ _ _ _)) k

theorem cmdOf_countAbort {j k : Nat} (hj : j ≠ k) (o : Op) (reason : Nat) (s : State) : cmdOf (countAbort o reason s k) j = cmdOf s j := by
  unfold countAbort
  extract_lets t
  have ht : cmdOf t j = cmdOf s j := by
    rw [cmdOf_modCmd _ _ _ (fun _ => by rfl)]
    simp [hj]
  split
  · split
    · exact ((cmdOf_finishCmd_ne hj _ _).trans (cmdOf_congr (by rfl) j)).trans ht
    · exact ht
  · exact ht

theorem cmdOf_retire {k : Nat} {s : State} (h : Unawaited k s) (j : Nat) (ab : Bool) (reason detail : Nat) :
    cmdOf (retire j ab reason detail s) k = cmdOf s k := by
  by_cases herror : s.flt.deviceError = true
  · rw [retire_deviceError j ab reason detail herror]
  · cases hop : opOf s j with
    | none =>
      rw [retire, hop]
    | some o =>
      obtain ⟨fl, hfl⟩ := flagIf_eq (reason == 8) fDegraded o
      rw [retire_eq hop (by simpa using herror), hfl]
      have hclear : (retireCleared { o with flags := fl } ab s).cmds = s.cmds ∧ (retireCleared { o with flags := fl } ab s).flt = s.flt := by
        obtain ⟨m, l, q, e, c, f, hc⟩ := retireCleared_frame { o with flags := fl } ab s
        rw [hc]
        exact ⟨rfl, rfl⟩
      obtain ⟨w, hw⟩ : ∃ w, w = retireCounted j { o with flags := fl } (sendWord o.cpl (completionWord (retireCleared { o with flags := fl } ab s) { o with flags := fl }
        ab reason detail) (retireCleared { o with flags := fl } ab s)) := ⟨_, rfl⟩
      have hword : w.cmds = s.cmds ∧ w.flt = s.flt := by
        obtain ⟨_, _, _, hframe⟩ := retireCounted_frame j { o with flags := fl } (sendWord o.cpl (completionWord (retireCleared { o with flags := fl } ab s)
          { o with flags := fl } ab reason detail) (retireCleared { o with flags := fl } ab s))
        have hsend := sendWord_memoryOnly o.cpl (completionWord (retireCleared { o with flags := fl } ab s) { o with flags := fl } ab reason detail)
          (retireCleared { o with flags := fl } ab s)
        rw [hw, hframe]
        refine ⟨hsend.cmds.trans hclear.1, Eq.trans ?_ hclear.2⟩
        obtain ⟨_, _, _, _, _, _, _, _, _, _, _, hsend⟩ := hsend
        rw [hsend]
      have hcounted : cmdOf (o.abortCmds.foldl (countAbort { o with flags := fl } reason) w) k = cmdOf s k ∧
          ∀ d, d ∈ (o.abortCmds.foldl (countAbort { o with flags := fl } reason) w).flt.disabling → d ∈ s.flt.disabling := by
        refine List.foldlRecOn (motive := fun t : State => cmdOf t k = cmdOf s k ∧ ∀ d, d ∈ t.flt.disabling → d ∈ s.flt.disabling) _ _
          ⟨cmdOf_congr hword.1 k, fun d hd => hword.2 ▸ hd⟩ fun t ht i hi => ⟨?_, fun d hd => ht.2 d ((countAbort_steady _ _ _ _).disabling d hd)⟩
        have hne : k ≠ i := fun hk => h.1 o (List.mem_of_find?_eq_some hop) (hk ▸ hi)
        exact (cmdOf_countAbort hne _ _ _).trans ht.1
      change cmdOf (retireAnswered { o with flags := fl } reason _) k = _
      rw [← hw]
      refine List.foldlRecOn (motive := fun t : State => cmdOf t k = cmdOf s k) _ _ hcounted.1 fun t ht d hd => ?_
      exact (cmdOf_endDisable t d (h.2 d (hcounted.2 d (List.mem_filter.mp hd).1))).trans ht

theorem unawaited_retire {k : Nat} {s : State} (h : Unawaited k s) (j : Nat) (ab : Bool) (reason detail : Nat) : Unawaited k (retire j ab reason detail s) := by
  refine ⟨fun o ho => h.1 o ?_, fun d hd => h.2 d ((retire_steady _ _ _ _ _).disabling d hd)⟩
  by_cases herror : s.flt.deviceError = true
  · rwa [retire_deviceError j ab reason detail herror] at ho
  · exact (mem_retire ho (by simpa using herror)).1

/-! ### A swap that is cancelled (R331) -/

/-- The entry without its next version. -/
def Dir.dropped (d : Dir) : Dir := { d with swap := 0, nextPtr := 0, nextScalePtr := 0, nextEpoch := 0, nextZeroCol := false }

/-- The swap of `p` ends: its layers fall IDLE. -/
def idleSwap (p : Nat) (s : State) : State :=
  ((layersOf s p).foldl (fun (s : State) i => s.modDirEntry i (fun d => markDamaged s d.dropped)) s).modSwapOf p (fun v => { v with
    epoch := 0, armed := false, rewriting := none, handles := []
    trackE := if (s.swapOf p).armed then 0 else v.trackE, trackCarry := v.trackCarry && !(s.swapOf p).armed })

theorem cancelSwap_eq (p : Nat) (s : State) : cancelSwap p s =
    (((idleSwap p s).ops.filter (fun o => o.code == 0x33 && o.part (idleSwap p s) == p && !o.held.isEmpty)).map (fun o => o.key)).foldl
      (fun s k => retire k true 6 0 s) (idleSwap p s) := rfl

theorem dropLayers_frame (l : List Nat) (s : State) :
    ∃ d, l.foldl (fun (s : State) i => s.modDirEntry i (fun d => markDamaged s d.dropped)) s = { s with dir := d } :=
  foldl_inv (fun t : State => ∃ d, t = { s with dir := d }) _ (by rintro t i ⟨d, rfl⟩; exact ⟨_, rfl⟩) l s ⟨_, rfl⟩

theorem dropLayers_drops {l : List Nat} {i : Nat} (hi : i ∈ l) (s : State) :
    ((l.foldl (fun (s : State) i => s.modDirEntry i (fun d => markDamaged s d.dropped)) s).dirEntry i).version = (s.dirEntry i).dropped.version := by
  refine foldl_reaches (I := fun t : State => (t.dirEntry i).dropped.version = (s.dirEntry i).dropped.version)
    (Q := fun t : State => (t.dirEntry i).version = (s.dirEntry i).dropped.version) hi (fun t j ht => ?_) (fun t ht => ?_) (fun t j ht => ?_) s rfl
  · rw [dirEntry_modDirEntry]
    split
    next h =>
      subst h
      refine Eq.trans ?_ ht
      exact congrArg Dir.dropped (markDamaged_version t (t.dirEntry i).dropped)
    next => exact ht
  · rw [dirEntry_modDirEntry, if_pos rfl, markDamaged_version]
    exact ht
  · rw [dirEntry_modDirEntry]
    split
    next h =>
      subst h
      rw [markDamaged_version]
      exact congrArg Dir.dropped ht
    next => exact ht

theorem modelSwapCancel_cancels (s : State) (k p : Nat) (c : Cmd) (h : Taken s k 0x0509 c) (hp : c.at 16 1 = p) (h4 : p < 4) (hparts : p < s.net.parts)
    (hepoch : (s.swapOf p).epoch ≠ 0) (hz : c.at 17 47 = 0) (hreset : resetting s p = false) (hwaits : ((s.swapOf p).armed && (s.swapOf p).layersDone) = false)
    (hops : ∀ o, o ∈ s.ops → k ∉ o.abortCmds) (hdisabling : ∀ d, d ∈ s.flt.disabling → d.2.2.2.1 ≠ k) :
    Completes (.modelSwapCancel k) s (fun t => Answered s t k {} ∧ (t.swapOf p).epoch = 0 ∧ (t.swapOf p).armed = false ∧ (t.swapOf p).handles = [] ∧
      ∀ i, i ∈ layersOf s p → (t.dirEntry i).swap = 0 ∧ (t.dirEntry i).nextEpoch = 0 ∧ (t.dirEntry i).ptr = (s.dirEntry i).ptr) := by
  subst hp
  obtain ⟨d, hd⟩ := dropLayers_frame (layersOf s (c.at 16 1)) s
  have hidle : (idleSwap (c.at 16 1) s).ops = s.ops ∧ (idleSwap (c.at 16 1) s).flt = s.flt ∧ (idleSwap (c.at 16 1) s).cmds = s.cmds := by
    unfold idleSwap
    rw [hd]
    exact ⟨rfl, rfl, rfl⟩
  obtain ⟨u, hu⟩ : ∃ u, u = cancelSwap (c.at 16 1) s := ⟨_, rfl⟩
  have hversions : SameVersions (idleSwap (c.at 16 1) s) u := by
    rw [hu, cancelSwap_eq]
    exact .foldl (fun _ _ => retire_sameVersions _ _ _ _ _) _ _
  have hcmd : cmdOf u k = cmdOf s k := by
    rw [hu, cancelSwap_eq]
    refine (foldl_inv (fun t : State => Unawaited k t ∧ cmdOf t k = cmdOf s k) _ (fun t j ht => ?_) _ _ ⟨⟨?_, ?_⟩, cmdOf_congr hidle.2.2 k⟩).2
    · exact ⟨unawaited_retire ht.1 _ _ _ _, (cmdOf_retire ht.1 _ _ _ _).trans ht.2⟩
    · rwa [hidle.1]
    · rwa [hidle.2.1]
  have hswap : u.swapOf (c.at 16 1) = (idleSwap (c.at 16 1) s).swapOf (c.at 16 1) := swapOf_congr _ _ hversions.swaps _
  have hended : ((idleSwap (c.at 16 1) s).swapOf (c.at 16 1)).epoch = 0 ∧ ((idleSwap (c.at 16 1) s).swapOf (c.at 16 1)).armed = false ∧
      ((idleSwap (c.at 16 1) s).swapOf (c.at 16 1)).handles = [] := by
    rw [idleSwap, swapOf_modSwapOf, if_pos rfl]
    exact ⟨rfl, rfl, rfl⟩
  have hexec : exec (.modelSwapCancel k) s = .next (finishCmd k {} u) := by
    refine congrArg Host.Outcome.next (runCmd_acts h ?_ (by rw [hu]) rfl)
    simp only [partChecks, List.cons_append, List.nil_append, refuse_passes, badField_passes, outOfRange_passes, rsvd_passes, orElse_nil, hz, hreset, hwaits, and_true]
    exact ⟨decide_eq_false (by omega), decide_eq_false (by omega), beq_false_of_ne hepoch⟩
  refine ⟨_, hexec, ?_, ?_, ?_, ?_, fun i hi => ?_⟩
  · unfold Answered
    rw [finishCmd, cmdOf_modCmd _ _ _ (by simp), hcmd]
    simp
  · exact (congrArg Swap.epoch hswap).trans hended.1
  · exact (congrArg Swap.armed hswap).trans hended.2.1
  · exact (congrArg Swap.handles hswap).trans hended.2.2
  · have hversion : (u.dirEntry i).version = (s.dirEntry i).dropped.version :=
      (hversions.version i).trans (dropLayers_drops hi s)
    exact ⟨(congrArg Dir.swap hversion :), (congrArg Dir.nextEpoch hversion :), (congrArg Dir.ptr hversion :)⟩

/-! ### Prefetch (R333) -/

theorem modelPrefetch_starts (s : State) (k h : Nat) (c : Cmd) (htaken : Taken s k 0x050A c) (hh : c.at 16 4 = h) (hvalid : handleValid s h = true)
    (hspilled : (s.dirEntry (handleIdx h)).spilled = true) (hz : c.at 20 44 = 0) (hreset : resetting s (s.dirEntry (handleIdx h)).part = false)
    (hused : hotUsed s (s.dirEntry (handleIdx h)).hotStage h (s.dirEntry (handleIdx h)).epoch = false)
    (hbusy : s.wts.hotBusy.any (fun x => x.1 == (s.dirEntry (handleIdx h)).hotStage) = false)
    (hcopying : s.ops.any (fun o => o.copying && o.ptr == (s.dirEntry (handleIdx h)).hotStage) = false)
    (hholds : hotHolds s (s.dirEntry (handleIdx h)).hotStage h (s.dirEntry (handleIdx h)).epoch = false) :
    Completes (.modelPrefetch k) s (fun t => Answered s t k {} ∧
      t.wts.hotBusy.any (fun x => x == ((s.dirEntry (handleIdx h)).hotStage, h, (s.dirEntry (handleIdx h)).epoch, (s.dirEntry (handleIdx h)).ptr)) = true ∧
      t = { s with cmds := t.cmds, wts := { s.wts with hotBusy := t.wts.hotBusy } }) := by
  subst hh
  obtain ⟨d, hd⟩ : ∃ d, d = s.dirEntry (handleIdx (c.at 16 4)) := ⟨_, rfl⟩
  rw [← hd] at hspilled hreset hused hbusy hcopying hholds ⊢
  have hexec : exec (.modelPrefetch k) s = .next (finishCmd k {} { s with wts := { s.wts with
      hotBusy := tins d.hotStage (c.at 16 4, d.epoch, d.ptr) (tdel s.wts.hotBusy d.hotStage) } }) := by
    refine congrArg Host.Outcome.next (runCmd_acts htaken ?_ ?_ rfl)
    · simp only [refuse_passes, outOfRange_passes, rsvd_passes, orElse_nil, ← hd, hvalid, hspilled, hz, hreset, hused, hbusy, hcopying, and_true]
      decide
    · rw [← hd, hholds]
      rfl
  refine ⟨_, hexec, answered_finish _ _ _ _ rfl, List.any_eq_true.mpr ⟨_, mem_tins_self _ _ _, by simp⟩, rfl⟩

/-- Settles O36: the switch of an entry, and the retires that a cancel causes, change of the directory only what each command names. -/
theorem directoryCommandsRun : Obligations.DirectoryCommandsRun :=
  ⟨modelDirSet_switches, modelDirFree_frees, modelSwapStage_stages, modelSwapCancel_cancels, modelPrefetch_starts⟩

end Sys2Proof.Machine
end

section
/-! Muster: identities, reports, system ready and route updates (R373 to R377). -/

namespace Sys2Proof.Machine

open Sys2Proof State

/-! ### Ports in muster (R373, R374) -/

/-- Muster's third phase is complete but for the identities that have still to come. -/
theorem tryReporting_reporting {s : State} (h : s.link.phase = 3) : tryReporting s = s := if_neg fun h' => h'.1.elim (by omega) (by omega)

/-- A disabled port has state 3 for its reason, its engine off, and the link's part of the state stands. -/
theorem disablePort_disables {p : Nat} (hp : p < 24) (reason : Nat) (s : State) :
    ((disablePort p reason s).port p).state = 3 ∧ ((disablePort p reason s).port p).reason = reason ∧
      ((disablePort p reason s).port p).passed = (s.port p).passed ∧ (disablePort p reason s).pins.leEn.getLsbD p = false ∧ (disablePort p reason s).link = s.link := by
  obtain ⟨u, hu⟩ : ∃ u, u = resteer p (s.modPort p (fun l => { l with state := 3, reason := reason, dropAt := none })) := ⟨_, rfl⟩
  obtain ⟨hframe, hports⟩ := resteered_resteer p (s.modPort p (fun l => { l with state := 3, reason := reason, dropAt := none }))
  obtain ⟨w, hw⟩ := hports p
  obtain ⟨⟨x, c, hanswer⟩, k, hport⟩ := answerPort_leaves p { status := stDegraded } u
  rw [← hu] at hframe hw
  rw [hw, port_modPort, if_pos rfl] at hport
  have hpins : (answerPort p { status := stDegraded } u).pins = s.pins := by rw [hanswer, hframe]; rfl
  have hlink : (answerPort p { status := stDegraded } u).link = s.link := by rw [hanswer, hframe]; rfl
  unfold disablePort
  rw [← hu, port_congr _ _ (modPins_ports _ _), hport]
  refine ⟨rfl, rfl, rfl, ?_, hlink⟩
  change ((answerPort p { status := stDegraded } u).pins.leEn &&& ~~~(BitVec.twoPow 24 p)).getLsbD p = false
  simp [hp]

/-- A port that fails its identity is disabled, with an event, and muster's reports go on as they were. -/
theorem identity_fails {s : State} {p : Nat} (hp : p < 24) (hphase : s.link.phase = 3) (reason code : Nat) (items : List Byte) :
    tryReporting (post code items (disablePort p reason s)) = post code items (disablePort p reason s) ∧
      ((post code items (disablePort p reason s)).port p).state = 3 ∧ ((post code items (disablePort p reason s)).port p).reason = reason ∧
      ((post code items (disablePort p reason s)).port p).passed = (s.port p).passed ∧ (post code items (disablePort p reason s)).pins.leEn.getLsbD p = false := by
  obtain ⟨hstate, hreason, hpassed, hen, hlink⟩ := disablePort_disables hp reason s
  refine ⟨tryReporting_reporting (by rw [post_link, hlink, hphase]), ?_⟩
  rw [port_congr _ _ (post_ports _ _ _), post_pins]
  exact ⟨hstate, hreason, hpassed, hen⟩

theorem identityMessage_inPlace (s : State) (p c q x y z : Nat) (m : List (BitVec 8)) (hp : p < 24) (hstate : (s.port p).state = 2)
    (hconf : s.link.configured = true) (hphase : s.link.phase = 3) (hc : c = neighbour s s.link.coord (dirOf p)) (hq : q = p - p % 6 + (p % 6 ^^^ 1))
    (hx : x = s.link.lenX) (hy : y = s.link.lenY) (hz : z = s.link.lenZ) :
    Completes (.identityMessage p c q x y z m) s (fun t =>
      if Config.sigOk s.link.nonce m = true then t = s.setPort p { s.port p with passed := true, partner := c, partnerPort := q }
      else (t.port p).state = 3 ∧ (t.port p).reason = 3 ∧ (t.port p).passed = (s.port p).passed ∧ t.pins.leEn.getLsbD p = false) := by
  have hready : ¬(24 ≤ p ∨ (s.port p).state ≠ 2 ∨ s.link.configured = false) := by simp [hp, hstate, hconf]
  by_cases hsig : Config.sigOk s.link.nonce m = true
  · refine ⟨s.setPort p { s.port p with passed := true, partner := c, partnerPort := q }, congrArg Host.Outcome.next ((if_neg hready).trans
      ((if_neg (by simp [hsig])).trans ((if_neg (by simp [hc, hq, hx, hy, hz])).trans (tryReporting_reporting hphase)))), ?_⟩
    dsimp only
    rw [if_pos hsig]
  · obtain ⟨hidle, hfails⟩ := identity_fails hp hphase 3 0x0803 (leBytes 1 p)
    refine ⟨_, congrArg Host.Outcome.next ((if_neg hready).trans ((if_pos (by simpa using hsig)).trans hidle)), ?_⟩
    dsimp only
    rw [if_neg hsig]
    exact hfails

theorem identityMessage_outOfPlace (s : State) (p c q x y z : Nat) (m : List (BitVec 8)) (hp : p < 24) (hstate : (s.port p).state = 2)
    (hconf : s.link.configured = true) (hphase : s.link.phase = 3) (hc : c ≠ neighbour s s.link.coord (dirOf p)) :
    Completes (.identityMessage p c q x y z m) s (fun t => (t.port p).state = 3 ∧ (t.port p).passed = (s.port p).passed ∧
      (t.port p).reason = (if Config.sigOk s.link.nonce m = true then 4 else 3)) := by
  have hready : ¬(24 ≤ p ∨ (s.port p).state ≠ 2 ∨ s.link.configured = false) := by simp [hp, hstate, hconf]
  by_cases hsig : Config.sigOk s.link.nonce m = true
  · obtain ⟨hidle, hst, hreason, hpassed, -⟩ := identity_fails hp hphase 4 0x0804 (leBytes 2 c ++ leBytes 1 q)
    refine ⟨_, congrArg Host.Outcome.next ((if_neg hready).trans ((if_neg (by simp [hsig])).trans ((if_pos (.inl hc)).trans hidle))), hst, hpassed, ?_⟩
    rw [if_pos hsig]
    exact hreason
  · obtain ⟨hidle, hst, hreason, hpassed, -⟩ := identity_fails hp hphase 3 0x0803 (leBytes 1 p)
    refine ⟨_, congrArg Host.Outcome.next ((if_neg hready).trans ((if_pos (by simpa using hsig)).trans hidle)), hst, hpassed, ?_⟩
    rw [if_neg hsig]
    exact hreason

theorem musterPortTimeout_settles (s : State) (p : Nat) (hp : p < 24) (hstate : (s.port p).state < 2) (hphase : s.link.phase = 3) :
    exec (.musterPortTimeout p) s = .next (s.setPort p { s.port p with state := 0, reason := 6, retries := 0 }) :=
  congrArg Host.Outcome.next ((if_pos ⟨hp, decide_eq_true (by omega), hstate⟩).trans (tryReporting_reporting hphase))

theorem musterPortTimeout_reports (s : State) (p : Nat) (hp : p < 24) (hstate : (s.port p).state < 2) (hphase : s.link.phase = 2)
    (hothers : ∀ q, q < 24 → q ≠ p → portSettled (s.port q) = true) :
    Completes (.musterPortTimeout p) s (fun t => t.link.phase = 3 ∧ coordIdx s.link.coord ∈ t.link.bitmap ∧ coordIdx s.link.coord ∈ t.link.bitmap2) := by
  obtain ⟨u, hu⟩ : ∃ u, u = s.modPort p (fun l => { l with state := 0, reason := 6, retries := 0 }) := ⟨_, rfl⟩
  have hsettled : (List.range 24).all (fun q => portSettled (u.port q)) = true := by
    refine List.all_eq_true.mpr fun q hq => ?_
    rw [hu, port_modPort]
    split
    · simp [portSettled]
    next hne => exact hothers q (List.mem_range.mp hq) hne
  have hlink : u.link = s.link := by rw [hu]; rfl
  refine ⟨_, congrArg Host.Outcome.next ((if_pos ⟨hp, decide_eq_true (by omega), hstate⟩).trans ((congrArg tryReporting hu.symm).trans
    (if_pos ⟨.inr (by rw [hlink, hphase]), hsettled⟩))), rfl, ?_, ?_⟩
  · rw [hlink]
    exact List.mem_cons_self
  · rw [hlink]
    exact List.mem_cons_self

/-! ### Reports (R372, R375) -/

theorem mem_union {i : Nat} {a b : List Nat} : i ∈ union a b ↔ i ∈ a ∨ i ∈ b := by
  unfold union
  simp only [List.mem_append, List.mem_eraseDups, List.mem_filter, List.contains_eq_mem, Bool.not_eq_true', decide_eq_false_iff_not]
  by_cases h : i ∈ a <;> simp [h]

theorem musterReport_joins (s : State) (d b i : Nat) (l : List Nat) (hphase : s.link.phase ≠ 0) (hd : d < 6) (hready : s.link.readySeen = false) :
    Completes (.musterReport d false l b) s (fun t => (i ∈ t.link.bitmap ↔ i ∈ s.link.bitmap ∨ i ∈ l) ∧ d ∈ t.link.childrenIn ∧ t.link.bitmap2 = s.link.bitmap2 ∧
      t = { s with link := t.link }) :=
  ⟨_, congrArg Host.Outcome.next ((if_neg hphase).trans ((if_pos hd).trans ((if_neg (by simp [hready])).trans (if_neg Bool.false_ne_true)))),
    mem_union, mem_union.mpr (.inr List.mem_cons_self), rfl, rfl⟩

theorem musterReport_steps (s : State) (l : List Nat) (b : Nat) (hphase : s.link.phase = 3) (hreported : s.link.reported = false)
    (hroot : s.link.coord ≠ s.link.root) :
    Completes (.musterReport 6 false l b) s (fun t => t.link.reported = true ∧ t.tim.beat = b ∧ t.tim.admits = (s.tim.admits || mayAdmit s)) := by
  obtain ⟨u, hu⟩ : ∃ u : State, u = { s with tim := { s.tim with beat := b, ltOff := 0 }, link := { s.link with reported := true, linkTime := !s.tim.tickUse } } := ⟨_, rfl⟩
  have hstep : stepBeat b { s with link := { s.link with reported := true } } = if mayAdmit s then { u with tim := { u.tim with admits := true } } else u := by
    unfold stepBeat
    dsimp only
    rw [decide_eq_false hroot, if_neg Bool.false_ne_true, hu]
    rfl
  refine ⟨_, congrArg Host.Outcome.next ((if_neg (by omega)).trans ((if_neg (by omega)).trans ((if_neg (by omega)).trans ((if_neg Bool.false_ne_true).trans
    ((if_neg (by simp [hreported])).trans hstep))))), ?_⟩
  subst hu
  cases hadmit : mayAdmit s with
  | true => exact ⟨rfl, rfl, (Bool.or_true _).symm⟩
  | false => exact ⟨rfl, rfl, (Bool.or_false _).symm⟩

/-! ### System ready (R376) -/

theorem learnAbsent_frame (l : List Nat) (s : State) : ∃ w, learnAbsent l s = { s with link := { s.link with pending10 := w } } := ⟨_, rfl⟩

/-- The link's part of the state as system ready leaves it, but for what follows when this device is absent itself. -/
theorem systemReady_link (l : List Nat) (b : Nat) (s : State) : ∃ w, ∀ t, t = { s with link := { s.link with
    readySeen := true, readyBeat := some b, absent := l, floods := s.link.floods ++ [(6, b, l)], pending10 := w } } →
    systemReady l b s = if l.contains s.link.coord then post 0x080A [] { t with link := { t.link with phase := 5, readyBeat := none } } else t :=
  ⟨_, fun _ ht => by rw [ht]; rfl⟩

theorem systemReady_declares (l : List Nat) (b : Nat) (s : State) : (systemReady l b s).link.readySeen = true ∧ (systemReady l b s).link.absent = l := by
  obtain ⟨w, hw⟩ := systemReady_link l b s
  rw [hw _ rfl]
  split
  · rw [post_link]
    exact ⟨rfl, rfl⟩
  · exact ⟨rfl, rfl⟩

theorem systemReady_present {l : List Nat} {s : State} (h : s.link.coord ∉ l) (b : Nat) : ∃ w, systemReady l b s = { s with link := { s.link with
    readySeen := true, readyBeat := some b, absent := l, floods := s.link.floods ++ [(6, b, l)], pending10 := w } } := by
  obtain ⟨w, hw⟩ := systemReady_link l b s
  refine ⟨w, (hw _ rfl).trans (if_neg ?_)⟩
  simpa using h

section
variable {s : State} (ms b : Nat)

theorem rootDeclare_exec (hroot : s.link.coord = s.link.root) (hphase : s.link.phase = 3) (hready : s.link.readySeen = false) (hb : s.tim.beat < b)
    (hdue : missing s s.link.bitmap = [] ∨ 120000 ≤ ms) : exec (.systemReadyDeclare ms b) s = .next (systemReady (missing s s.link.bitmap) b s) :=
  congrArg Host.Outcome.next (if_pos ⟨hroot, hphase, hready, hb, hdue.imp_left (fun h => by rw [h]; rfl)⟩)

theorem systemReadyDeclare_complete (hroot : s.link.coord = s.link.root) (hphase : s.link.phase = 3) (hready : s.link.readySeen = false) (hb : s.tim.beat < b)
    (hnone : missing s s.link.bitmap = []) :
    Completes (.systemReadyDeclare ms b) s (fun t => t.link.readySeen = true ∧ t.link.readyBeat = some b ∧ t.link.absent = [] ∧ (6, b, []) ∈ t.link.floods) := by
  obtain ⟨w, hw⟩ := systemReady_present (List.not_mem_nil (a := s.link.coord)) b
  refine ⟨_, rootDeclare_exec ms b hroot hphase hready hb (.inl hnone), ?_⟩
  rw [hnone, hw]
  exact ⟨rfl, rfl, rfl, List.mem_append_right _ List.mem_cons_self⟩

theorem systemReadyDeclare_late (hroot : s.link.coord = s.link.root) (hphase : s.link.phase = 3) (hready : s.link.readySeen = false) (hb : s.tim.beat < b)
    (hms : 120000 ≤ ms) : Completes (.systemReadyDeclare ms b) s (fun t => t.link.readySeen = true ∧ t.link.absent = missing s s.link.bitmap) :=
  ⟨_, rootDeclare_exec ms b hroot hphase hready hb (.inr hms), systemReady_declares _ _ _⟩

theorem systemReadyDeclare_waits (hmissing : missing s s.link.bitmap ≠ []) (hms : ms < 120000) : exec (.systemReadyDeclare ms b) s = .next s := by
  refine congrArg Host.Outcome.next (if_neg ?_)
  rintro ⟨-, -, -, -, hdue⟩
  exact hdue.elim (fun h => hmissing (List.isEmpty_iff.mp h)) (by omega)

theorem standbyRootDeclare_declares (hroot : s.link.coord = s.link.root2) (hphase : s.link.phase = 3) (hready : s.link.readySeen = false) (hb : s.tim.beat < b)
    (hms : 123000 ≤ ms) : Completes (.standbyRootDeclare ms b) s (fun t => t.link.readySeen = true ∧ t.link.absent = missing s s.link.bitmap2) :=
  ⟨_, congrArg Host.Outcome.next (if_pos ⟨hroot, hphase, hready, hb, hms⟩), systemReady_declares _ _ _⟩

theorem standbyRootDeclare_waits (hms : ms < 123000) : exec (.standbyRootDeclare ms b) s = .next s := by
  refine congrArg Host.Outcome.next (if_neg ?_)
  rintro ⟨-, -, -, -, hdue⟩
  omega

end

theorem systemReadyReceive_floods (s : State) (l : List Nat) (b : Nat) (hphase : 1 ≤ s.link.phase) (hready : s.link.readySeen = false) (hpresent : s.link.coord ∉ l) :
    Completes (.systemReadyReceive l b) s (fun t => t.link.readySeen = true ∧ t.link.readyBeat = some b ∧ t.link.absent = l ∧ t.link.phase = s.link.phase ∧
      (6, b, l) ∈ t.link.floods ∧ t = { s with link := t.link }) := by
  obtain ⟨w, hw⟩ := systemReady_present hpresent b
  exact ⟨_, congrArg Host.Outcome.next ((if_pos ⟨hphase, hready⟩).trans hw), rfl, rfl, rfl, rfl, List.mem_append_right _ List.mem_cons_self, rfl⟩

theorem systemReadyReceive_first (s : State) (l : List Nat) (b : Nat) (hready : s.link.readySeen = true) : exec (.systemReadyReceive l b) s = .next s :=
  congrArg Host.Outcome.next (if_neg fun h => absurd (hready.symm.trans h.2) (by decide))

/-! ### Route updates (R377) -/

theorem routeUpdateReceive_present (s : State) (c b : Nat) (hphase : 3 ≤ s.link.phase) (hnew : (c, true, b) ∉ s.link.pendRoute) :
    exec (.routeUpdateReceive c true b) s =
      .next { s with link := { s.link with pendRoute := s.link.pendRoute ++ [(c, true, b)], floods := s.link.floods ++ [(23, b, [c])] } } := by
  refine congrArg Host.Outcome.next ((if_neg ?_).trans ((if_neg ?_).trans rfl))
  · rintro (h | h)
    · omega
    · exact hnew (by simpa using h)
  · rintro ⟨-, h⟩
    cases h

theorem routeSwitchBeat_absent (s : State) (c b : Nat) (hready : s.link.readyBeat = none) (hpend : s.link.pendRoute = [(c, false, b)]) (hb : b ≤ s.tim.beat)
    (hc : c ≠ s.link.coord) :
    Completes .routeSwitchBeat s (fun t => c ∈ t.link.absent ∧ t.link.pendRoute = [] ∧ t.link.routeEpoch = (s.link.routeEpoch + 1) % 2 ^ 32 ∧
      t.link.routed = s.link.routed ∧ t = { s with link := t.link }) := by
  have hexec : exec .routeSwitchBeat s = .next (applyRoute { s with link := { s.link with pendRoute := [] } } (c, false, b)) := by
    change execRouteSwitchBeat s = _
    simp only [execRouteSwitchBeat, hready, hpend, Option.any_none, Bool.false_eq_true, if_false, List.filter_cons, decide_eq_true hb, if_true, List.filter_nil,
      Bool.not_true, List.foldl_cons, List.foldl_nil]
  have hown : (c == s.link.coord) = false := beq_false_of_ne hc
  refine ⟨_, hexec, mem_union.mpr (.inr List.mem_cons_self), rfl, rfl, ?_, rfl⟩
  exact if_neg (by rw [hown]; exact Bool.false_ne_true)

theorem routeSwitchBeat_ready (s : State) (b : Nat) (hready : s.link.readyBeat = some b) (hb : b ≤ s.tim.beat) (hpend : s.link.pendRoute = []) :
    Completes .routeSwitchBeat s (fun t => t.link.routed = true ∧ t.link.phase = 4 ∧ t.link.readyBeat = none) := by
  obtain ⟨u, hu⟩ : ∃ u : State, u = { s with link := { s.link with
    readyBeat := none, routed := true, phase := 4, routeEpoch := (s.link.routeEpoch + 1) % 2 ^ 32 } } := ⟨_, rfl⟩
  have hexec : exec .routeSwitchBeat s = .next { post 0x0809 [] u with link := { u.link with pendRoute := [] } } := by
    change execRouteSwitchBeat s = _
    have hpend' : u.link.pendRoute = [] := by rw [hu]; exact hpend
    simp only [execRouteSwitchBeat, hready, Option.any_some, decide_eq_true hb, if_true, ← hu, hpend', List.filter_nil, List.foldl_nil, post_link]
  refine ⟨_, hexec, ?_⟩
  rw [hu]
  exact ⟨rfl, rfl, rfl⟩

/-- Settles O47: in phase 3 no port's part in muster can begin the reports again, so each row changes only what it names. -/
theorem musterRuns : Obligations.MusterRuns :=
  ⟨identityMessage_inPlace, identityMessage_outOfPlace, musterPortTimeout_settles, musterPortTimeout_reports, musterReport_joins, musterReport_steps,
    fun _ ms b => systemReadyDeclare_complete ms b, fun _ ms b => systemReadyDeclare_late ms b, fun _ ms b => systemReadyDeclare_waits ms b,
    fun _ ms b => standbyRootDeclare_declares ms b, fun _ ms b => standbyRootDeclare_waits ms b, systemReadyReceive_floods, systemReadyReceive_first,
    routeUpdateReceive_present, routeSwitchBeat_absent, routeSwitchBeat_ready⟩

end Sys2Proof.Machine
end

section
/-! A command's way through its mailbox: fetch, deadline, report and cancel (R386 to R396, R402). -/

namespace Sys2Proof.Machine

open Sys2Proof State

/-! ### Fetching (R386, R390, R396) -/

section
variable {s : State} {m : Nat} {x : BitVec 32} (e ext : List (BitVec 8)) (hwin : windowOpen s m = true) (hon : (s.mb m).enable = true)
  (hbell : (s.mb m).bell = some x) (hx : x ≠ (s.mb m).cmdHead) (hroom : s.cmds.length < 1024)
  (hslots : inflight s m + ((s.mb m).cplTail - (s.mb m).cplHead).toNat < 256)
include hwin hon hbell hx hroom hslots

/-- A mailbox with room takes the entry at CMD_HEAD, refused already where its header or its partition refuses it. -/
theorem commandFetch_takes {why : Option Reply} (hwhy : (match headerReply s e with
    | some r => some r
    | none => if resetting s (partOfMb s m) then some (.no stPartitionResetting) else none) = why) :
    exec (.commandFetch m e ext) s =
      .next (takeCommand m (s.mb m).cmdHead e ext why (s.setMb m { s.mb m with cmdHead := (s.mb m).cmdHead + 1 })) := by
  subst hwhy
  refine congrArg Host.Outcome.next ((if_pos ⟨hwin, hon, ?_, hroom, hslots⟩).trans rfl)
  rw [hbell]
  exact bne_iff_ne.mpr hx

theorem commandFetch_fetches (hheader : headerReply s e = none) (hreset : resetting s (partOfMb s m) = false) :
    Completes (.commandFetch m e ext) s (fun t => (∃ c, t.cmds = s.cmds ++ [c] ∧ c.key = s.stw.nextKey ∧ c.src = m ∧ c.opcode = bytesAt e 0 2 ∧ c.cid = bytesAt e 2 2 ∧
        c.fetchIdx = (s.mb m).cmdHead ∧ c.fetchBeat = s.tim.beat ∧ c.decided = false ∧ c.started = false ∧ c.entry = fitBytes 64 e) ∧
      t.mb m = { s.mb m with cmdHead := (s.mb m).cmdHead + 1 } ∧ t.stw.nextKey = s.stw.nextKey + 1 ∧ t = { s with cmds := t.cmds, mbs := t.mbs, stw := t.stw }) := by
  refine ⟨_, commandFetch_takes e ext hwin hon hbell hx hroom hslots (why := none) ?_, ⟨_, rfl, rfl, rfl, rfl, rfl, rfl, rfl, rfl, rfl, rfl⟩, ?_, rfl, rfl⟩
  · rw [hheader, hreset]
    rfl
  · exact (mb_congr (s.setMb m { s.mb m with cmdHead := (s.mb m).cmdHead + 1 }) _ rfl m).trans ((mb_setMb s m m _).trans (if_pos rfl))

theorem commandFetch_refuses {r : Reply} (hheader : headerReply s e = some r) :
    Completes (.commandFetch m e ext) s (fun t => ∃ c, t.cmds = s.cmds ++ [c] ∧ c.src = m ∧ c.decided = true ∧ c.status = r.status ∧ c.detail = r.detail) :=
  ⟨_, commandFetch_takes e ext hwin hon hbell hx hroom hslots (why := some r) (by rw [hheader]), _, rfl, rfl, rfl, rfl, rfl⟩

end

theorem headerReply_deviceError (s : State) (e : List (BitVec 8)) (herror : s.flt.deviceError = true) (hop : bytesAt e 0 2 ≠ 0x0102) :
    headerReply s e = some { status := stDeviceError } := by
  have hrefuse : (s.flt.deviceError && bytesAt e 0 2 != 0x0102) = true := by
    rw [herror, Bool.true_and]
    exact bne_iff_ne.mpr hop
  unfold headerReply
  dsimp only
  rw [hrefuse]
  rfl

theorem headerReply_badOpcode (s : State) (e : List (BitVec 8)) (herror : s.flt.deviceError = false) (hop : opcodeDefined (bytesAt e 0 2) = false) :
    headerReply s e = some { status := stBadOpcode } := by
  unfold headerReply
  dsimp only
  rw [herror, hop]
  rfl

theorem commandFetch_waits (s : State) (m : Nat) (e ext : List (BitVec 8))
    (h : 1024 ≤ s.cmds.length ∨ (s.mb m).bell = some (s.mb m).cmdHead ∨ (s.mb m).enable = false) : exec (.commandFetch m e ext) s = .next s := by
  refine congrArg Host.Outcome.next (if_neg ?_)
  rintro ⟨-, hon, hbell, hroom, -⟩
  rcases h with h | h | h
  · omega
  · rw [h] at hbell
    exact absurd hbell (by simp)
  · rw [h] at hon
    cases hon

/-! ### Deadlines (R393) -/

theorem commandDeadline_answers (s : State) (k : Nat) (c : Cmd) (hc : cmdOf s k = some c) (hopen : c.decided = false) (hcommit : c.committed = false)
    (hstart : c.started = false) (hop : c.opcode ≠ 0x0502) (hdue : c.fetchBeat + 1000 * c.deadline ≤ s.tim.beat) :
    Completes (.commandDeadline k) s (fun t => Answered s t k { status := stTimedOut } ∧ t = { s with cmds := t.cmds }) := by
  have hundo : undoCommand c s = s := if_pos (by rw [hstart]; rfl)
  refine ⟨finishCmd k { status := stTimedOut } s, ?_, answered_finish _ _ _ _ rfl, rfl⟩
  change execCommandDeadline k s = _
  unfold execCommandDeadline
  rw [hc]
  refine congrArg Host.Outcome.next ((if_pos ⟨hopen, hcommit, hdue⟩).trans ?_)
  rw [if_neg hop, hundo]

theorem commandDeadline_waits (s : State) (k : Nat) (c : Cmd) (hc : cmdOf s k = some c) (h : c.committed = true ∨ s.tim.beat < c.fetchBeat + 1000 * c.deadline) :
    exec (.commandDeadline k) s = .next s := by
  change execCommandDeadline k s = _
  unfold execCommandDeadline
  rw [hc]
  refine congrArg Host.Outcome.next (if_neg ?_)
  rintro ⟨-, hcommit, hdue⟩
  rcases h with h | h
  · rw [h] at hcommit
    cases hcommit
  · omega

/-! ### Reports (R389) -/

theorem length_completionEntry (s : State) (c : Cmd) (i : Nat) : (completionEntry s c i).length = 32 := by
  simp only [completionEntry, List.length_append, length_leBytes, length_fitBytes]

/-- The report of a command of a mailbox: it leaves the commands in progress, its entry stands at CPL_TAIL, and CPL_TAIL rises. -/
theorem reportCmd_reports {s : State} {c : Cmd} (hsrc : c.src < 64) {i : Nat} (hi : i < 32) :
    (reportCmd c s).cmds = s.cmds.filter (fun d => d.key != c.key) ∧ ((reportCmd c s).mb c.src).cplTail = (s.mb c.src).cplTail + 1 ∧
      Memory.read (reportCmd c s).hostMem ((s.mb c.src).cplBase.toNat + 32 * ((s.mb c.src).cplTail.toNat % 256) + i) =
        (completionEntry s c (s.mb c.src).cplTail.toNat).getD i 0 ∧
      reportCmd c s = { s with cmds := (reportCmd c s).cmds, hostMem := (reportCmd c s).hostMem, mbs := (reportCmd c s).mbs, stw := (reportCmd c s).stw } := by
  obtain ⟨b, hb⟩ : ∃ b, b = s.mb c.src := ⟨_, rfl⟩
  obtain ⟨h, hh⟩ : ∃ h, h = Memory.writeN (Memory.writeN s.hostMem c.extAddr (c.output.take (64 * c.extLen)))
    (b.cplBase.toNat + 32 * (b.cplTail.toNat % 256)) (completionEntry s c b.cplTail.toNat) := ⟨_, rfl⟩
  obtain ⟨n, hn⟩ : ∃ n, n = (s.cmds.filter (fun d => d.key != c.key)).length - 0 := ⟨_, rfl⟩
  obtain ⟨u, hu⟩ : ∃ u : State, u = ({ s with cmds := s.cmds.filter (fun d => d.key != c.key), hostMem := h } : State).setMb c.src
    ({ b with cplTail := b.cplTail + 1 }.drained (inflight { s with cmds := s.cmds.filter (fun d => d.key != c.key) } c.src)) := ⟨_, rfl⟩
  have hreport : reportCmd c s = if b.cplIrq then msix c.src u else u := by
    rw [hu, hh, hb]
    exact if_neg (by omega)
  have htail : (u.mb c.src).cplTail = b.cplTail + 1 := by
    have hdrained (b : Mb) (n : Nat) : (b.drained n).cplTail = b.cplTail := by
      unfold Mb.drained
      split <;> rfl
    rw [hu, mb_setMb, if_pos rfl, hdrained]
  have hentry : Memory.read h (b.cplBase.toNat + 32 * (b.cplTail.toNat % 256) + i) = (completionEntry s c b.cplTail.toNat).getD i 0 := by
    have hlt : i < (completionEntry s c b.cplTail.toNat).length := by rw [length_completionEntry]; exact hi
    rw [hh, Memory.read_writeN_in _ _ _ _ hlt]
    exact List.getElem_eq_getD _
  have hevents : EventsOnly u (reportCmd c s) := by
    rw [hreport]
    split
    · exact EventsOnly.send (s := u) (t := u) ⟨_, _, _, rfl⟩ c.src
    · exact ⟨_, _, _, rfl⟩
  have hsent : (reportCmd c s).mbs = u.mbs ∧ (reportCmd c s).hostMem = u.hostMem := by
    rw [hreport]
    split
    · exact ⟨msix_mbs _ _, msix_hostMem _ _⟩
    · exact ⟨rfl, rfl⟩
  rw [← hb]
  refine ⟨?_, ?_, ?_, ?_⟩
  · rw [hevents.frame, hu]
    rfl
  · rw [mb_congr u _ hsent.1, htail]
  · rw [hsent.2, hu]
    exact hentry
  · obtain ⟨_, _, _, hsend⟩ := hevents
    rw [hsend, hu]
    rfl

theorem commandComplete_reports (s : State) (k m i : Nat) (c : Cmd) (hc : cmdOf s k = some c) (hdone : c.decided = true) (hsrc : c.src = m) (hm : m < 64)
    (hop : c.opcode ≠ 0x0102) (hi : i < 32) :
    Completes (.commandComplete k) s (fun t => cmdOf t k = none ∧ (t.mb m).cplTail = (s.mb m).cplTail + 1 ∧
      Memory.read t.hostMem ((s.mb m).cplBase.toNat + 32 * ((s.mb m).cplTail.toNat % 256) + i) = (completionEntry s c (s.mb m).cplTail.toNat).getD i 0 ∧
      t = { s with cmds := t.cmds, hostMem := t.hostMem, mbs := t.mbs, stw := t.stw }) := by
  subst hsrc
  obtain ⟨hcmds, htail, hentry, hframe⟩ := reportCmd_reports (s := s) hm hi
  have hkey : c.key = k := by simpa using List.find?_some hc
  refine ⟨reportCmd c s, ?_, ?_, htail, hentry, hframe⟩
  · change execCommandComplete k s = _
    unfold execCommandComplete
    rw [hc]
    exact congrArg Host.Outcome.next ((if_pos hdone).trans (if_neg fun h => hop h.1))
  · unfold cmdOf
    rw [hcmds, hkey]
    refine List.find?_eq_none.mpr fun d hd => ?_
    simpa using (List.mem_filter.mp hd).2

theorem completionEntry_fields (s : State) (c : Cmd) (i : Nat) : bytesAt (completionEntry s c i) 0 2 = c.cid % 65536 ∧
    bytesAt (completionEntry s c i) 2 2 = c.opcode % 65536 ∧ bytesAt (completionEntry s c i) 4 1 = c.status % 256 ∧
    bytesAt (completionEntry s c i) 6 2 = c.detail % 65536 := by
  unfold completionEntry
  simp only [List.append_assoc]
  refine ⟨bytesAt_leBytes 2 _ _, ?_, ?_, ?_⟩
  · exact (bytesAt_behind_leBytes 2 _ _ 0 2).trans (bytesAt_leBytes 2 _ _)
  · exact (bytesAt_behind_leBytes 2 _ _ 2 1).trans ((bytesAt_behind_leBytes 2 _ _ 0 1).trans (bytesAt_leBytes 1 _ _))
  · exact (bytesAt_behind_leBytes 2 _ _ 4 2).trans ((bytesAt_behind_leBytes 2 _ _ 2 2).trans ((bytesAt_behind_leBytes 1 _ _ 1 2).trans
      ((bytesAt_behind_leBytes 1 _ _ 0 2).trans (bytesAt_leBytes 2 _ _))))

theorem commandComplete_waits (s : State) (k : Nat) (c : Cmd) (hc : cmdOf s k = some c) (hopen : c.decided = false) :
    exec (.commandComplete k) s = .next s := by
  change execCommandComplete k s = _
  unfold execCommandComplete
  rw [hc]
  exact congrArg Host.Outcome.next (if_neg (by rw [hopen]; exact Bool.false_ne_true))

/-! ### Cancelling (R395) -/

theorem firstBad_ge (c : Cmd) (i j : Nat) : i ≤ c.firstBad i j := by
  unfold Cmd.firstBad
  cases (List.range (j - i)).find? (fun n => c.at (i + n) 1 != 0) with
  | none => exact Nat.le_refl i
  | some n => exact Nat.le_add_right i n

/-- A reply that is no EXT_LEN refusal stands behind DEADLINE (R390). -/
theorem lateReply_deadline {r : Reply} (h : r.status = stBadField → r.detail ≠ 5) : lateReply r = .no stOutOfRange 6 := if_neg fun h' => h h'.1 h'.2

/-- The command that a cancel of `c` names: the earliest fetched of the mailbox with the CID. -/
def cancelled (s : State) (k : Nat) (c : Cmd) : Option Cmd :=
  s.cmds.find? (fun d => d.key != k && d.src == c.at 16 1 && d.cid == c.at 18 2 && !(d.decided && d.status == stAborted))

/-- What a cancel that passes its checks does. -/
def cancelBody (s : State) (k : Nat) (c : Cmd) : State × Reply :=
  match cancelled s k c with
  | none => (s, .no stOutOfRange)
  | some d => if d.committed ∨ d.decided then (s, .no stAlreadyDone) else (finishCmd d.key { status := stAborted } (undoCommand d s), {})

theorem cancelBody_status (s : State) (k : Nat) (c : Cmd) : (cancelBody s k c).2.status ≠ stBadField := by
  unfold cancelBody
  split
  · exact (by decide : stOutOfRange ≠ stBadField)
  · split
    · exact (by decide : stAlreadyDone ≠ stBadField)
    · exact (by decide : stOk ≠ stBadField)

theorem devCmdCancel_eq (s : State) (k : Nat) : exec (.devCmdCancel k) s = .next (runCmd k 0x0103 (fun c s =>
    checked [badField (decide (63 < c.at 16 1)) 16, c.rsvd 17 18, c.rsvd 20 64] (fun s => cancelBody s k c) s) s) := rfl

theorem devCmdCancel_late (s : State) (k : Nat) (c : Cmd) (hc : cmdOf s k = some c) (hop : c.opcode = 0x0103) (hstart : mayStart s c = true)
    (hserved : (s.stw.ready || c.src == 64) = true) (hlate : c.tooLate = true) :
    Completes (.devCmdCancel k) s (fun t => (∃ r, Answered s t k r ∧ r.status = stOutOfRange ∧ r.detail = 6) ∧ t = { s with cmds := t.cmds }) := by
  obtain ⟨x, hx⟩ : ∃ x, x = checked [badField (decide (63 < c.at 16 1)) 16, c.rsvd 17 18, c.rsvd 20 64] (fun s => cancelBody s k c) s := ⟨_, rfl⟩
  have hreply : lateReply x.2 = .no stOutOfRange 6 := by
    refine lateReply_deadline fun hs => ?_
    rw [hx] at hs ⊢
    unfold checked at hs ⊢
    split at hs
    next r hr =>
      simp only [badField, Cmd.rsvd, orElse, List.find?_cons, List.find?_nil] at hr
      have h17 := firstBad_ge c 17 18
      have h20 := firstBad_ge c 20 64
      split at hr
      · cases hr
        exact (by decide : (16 : Nat) ≠ 5)
      · split at hr
        · cases hr
          exact fun h => by simp only [Reply.no] at h; omega
        · split at hr
          · cases hr
            exact fun h => by simp only [Reply.no] at h; omega
          · cases hr
    next hr =>
      exact absurd hs (cancelBody_status s k c)
  refine ⟨finishCmd k (.no stOutOfRange 6) s, ?_, ⟨_, answered_finish _ _ _ _ rfl, rfl, rfl⟩, rfl⟩
  rw [devCmdCancel_eq]
  refine congrArg Host.Outcome.next ?_
  unfold runCmd
  rw [hc]
  dsimp only
  rw [if_pos ⟨hop, hstart, hserved⟩, ← hx, if_pos hlate, hreply]

section
variable {s : State} {k : Nat} {c : Cmd} (h : Taken s k 0x0103 c) (hsrc : c.at 16 1 ≤ 63) (hz₁ : c.at 17 1 = 0) (hz₂ : c.at 20 44 = 0)
include h hsrc hz₁ hz₂

theorem devCmdCancel_exec {t : State} {r : Reply} (hbody : cancelBody s k c = (t, r)) (hr : r.wait = false) :
    exec (.devCmdCancel k) s = .next (finishCmd k r t) := by
  rw [devCmdCancel_eq]
  refine congrArg Host.Outcome.next (runCmd_body_acts h rfl ?_ hbody hr)
  simp [hsrc, hz₁, hz₂]

theorem devCmdCancel_aborts {d : Cmd} (hfind : cancelled s k c = some d) (hcommit : d.committed = false) (hopen : d.decided = false)
    (hstart : d.started = false) :
    Completes (.devCmdCancel k) s (fun t => Answered s t k {} ∧ Answered s t d.key { status := stAborted } ∧ t = { s with cmds := t.cmds }) := by
  have hne : d.key ≠ k := by
    have hpick := List.find?_some hfind
    simp only [Bool.and_eq_true, bne_iff_ne] at hpick
    exact hpick.1.1.1
  have hundo : undoCommand d s = s := if_pos (by rw [hstart]; rfl)
  have hbody : cancelBody s k c = (finishCmd d.key { status := stAborted } s, {}) := by
    unfold cancelBody
    rw [hfind]
    refine (if_neg ?_).trans (by rw [hundo])
    rw [hcommit, hopen]
    simp
  refine ⟨_, devCmdCancel_exec h hsrc hz₁ hz₂ hbody rfl, ?_, ?_, rfl⟩
  · unfold Answered
    rw [finishCmd, cmdOf_modCmd _ _ _ (by simp), cmdOf_finishCmd_ne (Ne.symm hne)]
    simp
  · unfold Answered
    rw [cmdOf_finishCmd_ne hne]
    exact answered_finish _ _ s s rfl

theorem devCmdCancel_done {d : Cmd} (hfind : cancelled s k c = some d) (hdone : d.committed = true ∨ d.decided = true) :
    Completes (.devCmdCancel k) s (fun t => Answered s t k { status := stAlreadyDone } ∧ t = { s with cmds := t.cmds }) := by
  have hbody : cancelBody s k c = (s, .no stAlreadyDone) := by
    unfold cancelBody
    rw [hfind]
    exact if_pos hdone
  exact ⟨_, devCmdCancel_exec h hsrc hz₁ hz₂ hbody rfl, answered_finish _ _ _ _ rfl, rfl⟩

theorem devCmdCancel_none (hnone : ∀ d, d ∈ s.cmds → d.key ≠ k → d.src = c.at 16 1 → d.cid ≠ c.at 18 2) :
    Completes (.devCmdCancel k) s (fun t => Answered s t k { status := stOutOfRange } ∧ t = { s with cmds := t.cmds }) := by
  have hfind : cancelled s k c = none := by
    refine List.find?_eq_none.mpr fun d hd hpick => ?_
    simp only [Bool.and_eq_true, bne_iff_ne, beq_iff_eq] at hpick
    obtain ⟨⟨⟨hkey, hsrc'⟩, hcid⟩, -⟩ := hpick
    exact hnone d hd hkey hsrc' hcid
  have hbody : cancelBody s k c = (s, .no stOutOfRange) := by
    unfold cancelBody
    rw [hfind]
  exact ⟨_, devCmdCancel_exec h hsrc hz₁ hz₂ hbody rfl, answered_finish _ _ _ _ rfl, rfl⟩

end

/-- Settles O50: each step of a command's way changes the commands in progress, its mailbox and the host's memory only. -/
theorem commandsAreFetchedAndReported : Obligations.CommandsAreFetchedAndReported :=
  ⟨fun _ _ _ e ext hwin hon hbell hx hroom hslots => commandFetch_fetches e ext hwin hon hbell hx hroom hslots,
    fun _ _ _ e ext _ hwin hon hbell hx hroom hslots => commandFetch_refuses e ext hwin hon hbell hx hroom hslots,
    headerReply_deviceError, headerReply_badOpcode, commandFetch_waits, commandDeadline_answers, commandDeadline_waits, commandComplete_reports,
    completionEntry_fields, commandComplete_waits, devCmdCancel_late,
    fun _ _ _ _ h hsrc hz₁ hz₂ hfind => devCmdCancel_aborts h hsrc hz₁ hz₂ hfind,
    fun _ _ _ _ h hsrc hz₁ hz₂ hfind => devCmdCancel_done h hsrc hz₁ hz₂ hfind,
    fun _ _ _ h hsrc hz₁ hz₂ hnone => devCmdCancel_none h hsrc hz₁ hz₂ hnone⟩

end Sys2Proof.Machine
end

section
/-! The commands on units (R394, R396, R461, R465 to R467). -/

namespace Sys2Proof.Machine

open Sys2Proof State

/-! ### Checks -/

theorem orElse_none_iff {l : List (Bool × Reply)} : orElse l = none ↔ ∀ x, x ∈ l → x.1 = false := by
  unfold orElse
  rw [Option.map_eq_none_iff, List.find?_eq_none]
  simp

theorem orElse_append {l : List (Bool × Reply)} (h : orElse l = none) (r : List (Bool × Reply)) : orElse (l ++ r) = orElse r := by
  have hl : l.find? (fun x => x.1) = none := Option.map_eq_none_iff.mp h
  unfold orElse
  rw [List.find?_append, hl, Option.none_or]

theorem orElse_drop {l : List (Bool × Reply)} (h : orElse l = none) (n : Nat) : orElse (l.drop n) = none :=
  orElse_none_iff.mpr fun x hx => orElse_none_iff.mp h x (List.mem_of_mem_drop hx)

/-- The ranges that the checks of a unit leave: 4 colours, 8 bands of a field, 4 quads of a port. -/
theorem unitChecks_ranges {s : State} {c : Cmd} (h : orElse (unitChecks s c) = none) : (c.at 16 1 = 2 → c.at 20 2 < 4) ∧ (c.at 16 1 = 1 → c.at 22 1 < 8) ∧
    (c.at 16 1 = 6 → c.at 22 1 < 4) := by
  unfold unitChecks at h
  simp only [List.cons_append, List.nil_append, badField_passes, outOfRange_passes, orElse_nil] at h
  obtain ⟨-, hindex, hsub, -⟩ := h
  refine ⟨fun hk => ?_, fun hk => ?_, fun hk => ?_⟩
  · rw [hk] at hindex
    simpa using hindex
  · rw [hk] at hsub
    simpa using hsub
  · rw [hk] at hsub
    simpa using hsub

section
variable {s : State} {c : Cmd} {l : List (Bool × Reply)} (hkind : c.at 16 1 ≤ 6) (hflags : c.at 17 1 ≤ 1) (htime : c.at 18 2 ≤ 60000)
  (hunit : orElse (unitChecks s c) = none)
include hkind hflags htime hunit

/-- The checks of the unit's number, which every command on a unit begins with, leave those that follow. -/
theorem unitCommand_checks : orElse ([badField (decide (6 < c.at 16 1)) 16, badField (decide (1 < c.at 17 1)) 17, outOfRange (decide (60000 < c.at 18 2)) 18] ++
    (unitChecks s c).drop 1 ++ l) = orElse l := by
  rw [List.append_assoc, orElse_append, orElse_append (orElse_drop hunit 1)]
  simp only [badField_passes, outOfRange_passes, orElse_nil, and_true]
  exact ⟨decide_eq_false (by omega), decide_eq_false (by omega), decide_eq_false (by omega)⟩

end

/-! ### Units that leave service (R459, R465) -/

/-- Whether a unit is out is a matter of the units' own tables. -/
theorem unitOut_congr {s t : State} (hfields : t.fields = s.fields) (hlight : t.light = s.light) (hcores : t.cores = s.cores) (hunits : t.units = s.units)
    (hports : t.ports = s.ports) (kind index sub : Nat) : unitOut t kind index sub = unitOut s kind index sub := by
  unfold unitOut
  rw [field_congr s t hfields, hlight, coreOf_congr s t hcores, port_congr s t hports]
  simp only [unit_congr s t hunits]

theorem or_twoPow_getLsbD {w b : Nat} (hb : b < w) (x : BitVec w) : (x ||| BitVec.twoPow w b).getLsbD b = true := by
  simp [hb]

/-- No bit of a mask is outside a union that holds the mask. -/
theorem and_not_or_self {w : Nat} (q x : BitVec w) : q &&& ~~~(x ||| q) = 0 := by
  ext i hi
  cases hq : q[i] <;> simp [hq]

/-- A unit that is marked as fenced, with no requests held for it, is out of service; memory and accumulators stand. -/
theorem markFenced_out {s : State} (hheld : s.memTop.heldReqs = []) {kind i b : Nat} (hkind : kind ≤ 6) (hcolour : kind = 2 → i < 4) (hband : kind = 1 → b < 8) :
    cmdUnitOut (markFenced kind i (entrySub kind b) s) kind i b = true ∧ (markFenced kind i (entrySub kind b) s).mem = s.mem ∧
      (markFenced kind i (entrySub kind b) s).acc = s.acc := by
  unfold cmdUnitOut
  match kind, hkind with
  | 0, _ =>
    refine ⟨?_, rfl, rfl⟩
    change ((s.modField i (fun x => { x with fenced := true })).field i).fenced = true
    rw [field_modField, if_pos rfl]
  | 1, _ =>
    refine ⟨?_, rfl, rfl⟩
    change (((s.modField i _).field i).fenced || ((s.modField i _).field i).bandFenced.getLsbD b) = true
    rw [field_modField, if_pos rfl]
    exact (congrArg _ (or_twoPow_getLsbD (hband rfl) _)).trans (Bool.or_true _)
  | 2, _ => exact ⟨or_twoPow_getLsbD (hcolour rfl) _, rfl, rfl⟩
  | 3, _ =>
    refine ⟨?_, rfl, rfl⟩
    change (((s.modCoreOf (64 * i + b) _).field i).fenced || ((s.modCoreOf (64 * i + b) (fun x => { x with state := 3, launch := none, stalled := false })).coreOf (64 * i + b)).state == 3) = true
    rw [coreOf_modCoreOf, if_pos rfl]
    exact Bool.or_true _
  | 4, _ =>
    have hserve : markFenced 4 i (entrySub 4 b) s = (s.modUnit i (fun m => { m with state := 3, hold := false })).modDir (fun d => tmap {} d (fun _ e => e.damage s i)) :=
      serveHeld_none i hheld
    rw [hserve]
    refine ⟨?_, rfl, rfl⟩
    change ((s.modUnit i (fun m => { m with state := 3, hold := false })).unit i).state == 3
    rw [unit_modUnit, if_pos rfl]
    rfl
  | 5, _ =>
    have hserve : markFenced 5 i (entrySub 5 b) s =
        (s.modUnit (16 + i) (fun m => { m with state := 3, hold := false })).modDir (fun d => tmap {} d (fun _ e => e.damage s (16 + i))) :=
      serveHeld_none (16 + i) hheld
    rw [hserve]
    refine ⟨?_, rfl, rfl⟩
    change ((s.modUnit (16 + i) (fun m => { m with state := 3, hold := false })).unit (16 + i)).state == 3
    rw [unit_modUnit, if_pos rfl]
    rfl
  | 6, _ =>
    refine ⟨?_, rfl, rfl⟩
    change (BitVec.ofNat 4 (2 ^ b) &&& ~~~((s.modPort i (fun l => { l.dropQuads (BitVec.ofNat 4 (2 ^ b)) with disQuads := l.disQuads ||| BitVec.ofNat 4 (2 ^ b) })).port i).disQuads == 0) = true
    rw [port_modPort, if_pos rfl]
    exact beq_iff_eq.mpr (and_not_or_self _ _)

/-! ### What the queue's own steps leave -/

/-- `t` is `s` but for the faults' own part of the state. -/
def FaultsOnly (s t : State) : Prop := ∃ f, t = { s with flt := f }

theorem FaultsOnly.foldl {α : Type} {f : State → α → State} (h : ∀ s a, FaultsOnly s (f s a)) (l : List α) (s : State) : FaultsOnly s (l.foldl f s) := by
  refine foldl_inv (FaultsOnly s) f ?_ l s ⟨_, rfl⟩
  rintro t a ⟨x, rfl⟩
  obtain ⟨y, hy⟩ := h { s with flt := x } a
  exact ⟨y, hy⟩

theorem logFaults_frame (n : Nat) (l : List FaultE) (s : State) : ∃ g, l.foldl (fun s e => logFault e n s) s = { s with flt := { s.flt with log := g } } :=
  foldl_inv (fun t : State => ∃ g, t = { s with flt := { s.flt with log := g } }) (fun s e => logFault e n s) (by rintro t e ⟨g, rfl⟩; exact ⟨_, rfl⟩) l s ⟨_, rfl⟩

theorem cancelEntries_frame (kind index sub : Nat) (s : State) : ∃ q g, cancelEntries kind index sub s = { s with flt := { s.flt with queue := q, log := g } } := by
  obtain ⟨g, hg⟩ := logFaults_frame 4 (s.flt.queue.filter (fun e => sameUnit e.kind e.index e.sub kind index sub))
    { s with flt := { s.flt with queue := s.flt.queue.filter (fun e => !sameUnit e.kind e.index e.sub kind index sub) } }
  exact ⟨_, g, hg⟩

theorem supersede_frame (f : Nat) (s : State) : ∃ q g, supersede f s = { s with flt := { s.flt with queue := q, log := g } } := by
  obtain ⟨g, hg⟩ := logFaults_frame 3 (s.flt.queue.filter (fun e => e.index == f && (e.kind == 1 || e.kind == 3)))
    { s with flt := { s.flt with queue := s.flt.queue.filter (fun e => !(e.index == f && (e.kind == 1 || e.kind == 3))) } }
  exact ⟨_, g, hg⟩

/-- What a disable that ends leaves, when no op is issued and nothing is held: its unit is out, and its command is answered with no op counted. -/
structure EndsDisable (kind i b k : Nat) (s t : State) : Prop where
  out : cmdUnitOut t kind i b = true
  mem : t.mem = s.mem
  acc : t.acc = s.acc
  cmds : t.cmds = (finishCmd k { result := leBytes 4 0 } s).cmds

section
variable {s : State} {kind i b k time : Nat} {c : Cmd} (hops : s.ops = []) (hheld : s.memTop.heldReqs = []) (hkind : kind ≤ 6) (hcolour : kind = 2 → i < 4)
  (hband : kind = 1 → b < 8) (hc : cmdOf s k = some c) (haux : c.aux = 0)
include hops hheld hkind hcolour hband hc haux

theorem disableNow_ends : EndsDisable kind i b k s (disableNow (kind, i, b, k, time) stOk s) := by
  obtain ⟨u, hu⟩ : ∃ u : State, u = { s with flt := { s.flt with disabling := s.flt.disabling.filter (fun x => x != (kind, i, b, k, time)) } } := ⟨_, rfl⟩
  obtain ⟨v, hv⟩ : ∃ v, v = markFenced kind i (entrySub kind b) u := ⟨_, rfl⟩
  obtain ⟨w, hw⟩ : ∃ w, w = if kind = 0 then supersede i v else v := ⟨_, rfl⟩
  obtain ⟨hout, hmem, hacc⟩ := markFenced_out (s := u) (by rw [hu]; exact hheld) hkind hcolour hband (i := i) (b := b)
  have hcmds : v.cmds = s.cmds := by rw [hv, markFenced_cmds, hu]
  have hsuper : FaultsOnly v w := by
    rw [hw]
    split
    · obtain ⟨q, g, h⟩ := supersede_frame i v
      exact ⟨_, h⟩
    · exact ⟨v.flt, rfl⟩
  have hnow : disableNow (kind, i, b, k, time) stOk s = finishCmd k { result := leBytes 4 0 } (post 0x0143 (faultItems 0 kind b i ++ leBytes 4 0) w) := by
    have husers : usersOf s kind i b = [] := by rw [usersOf, hops]; rfl
    unfold disableNow
    dsimp only
    rw [husers, hc]
    simp only [Option.map_some, Option.getD_some, haux, List.length_nil]
    rw [← hu, hw, hv]
    rfl
  obtain ⟨x, hx⟩ := hsuper
  obtain ⟨_, _, _, hpost⟩ := post_eventsOnly 0x0143 (faultItems 0 kind b i ++ leBytes 4 0) w
  rw [hnow, hpost, hx]
  rw [← hv] at hout hmem hacc
  refine ⟨?_, hmem.trans (by rw [hu]), hacc.trans (by rw [hu]), ?_⟩
  · exact (unitOut_congr (s := v) rfl rfl rfl rfl rfl _ _ _).trans hout
  · exact congrArg (fun l : List Cmd => l.map _) hcmds

theorem endDisable_ends (haux2 : c.aux2 = 0) : EndsDisable kind i b k s (endDisable s (kind, i, b, k, time)) := by
  obtain ⟨u, hu⟩ : ∃ u : State, u = { s with flt := { s.flt with disabling := s.flt.disabling.filter (fun x => x != (kind, i, b, k, time)) } } := ⟨_, rfl⟩
  obtain ⟨v, hv⟩ : ∃ v, v = markFenced kind i (entrySub kind b) u := ⟨_, rfl⟩
  obtain ⟨hout, hmem, hacc⟩ := markFenced_out (s := u) (by rw [hu]; exact hheld) hkind hcolour hband (i := i) (b := b)
  have hcmds : v.cmds = s.cmds := by rw [hv, markFenced_cmds, hu]
  have hend : endDisable s (kind, i, b, k, time) = finishCmd k { result := leBytes 4 0 } (post 0x0143 (faultItems 0 kind b i ++ leBytes 4 0) v) := by
    have hcmd : cmdOf (post 0x0143 (faultItems 0 kind b i ++ leBytes 4 0) v) k = some c := (cmdOf_congr ((post_cmds _ _ _).trans hcmds) k).trans hc
    unfold endDisable
    dsimp only
    rw [if_neg (by rw [hops]; exact Bool.false_ne_true), hc]
    simp only [Option.map_some, Option.getD_some, haux]
    rw [← hu, show (if kind = 6 then 2 ^ b else b) = entrySub kind b from rfl, ← hv, hcmd]
    simp only [Option.map_some, Option.getD_some, haux2, if_true]
    rfl
  obtain ⟨_, _, _, hpost⟩ := post_eventsOnly 0x0143 (faultItems 0 kind b i ++ leBytes 4 0) v
  rw [hend, hpost]
  rw [← hv] at hout hmem hacc
  refine ⟨?_, hmem.trans (by rw [hu]), hacc.trans (by rw [hu]), ?_⟩
  · exact (unitOut_congr (s := v) rfl rfl rfl rfl rfl _ _ _).trans hout
  · exact congrArg (fun l : List Cmd => l.map _) hcmds

end

/-- A disable that has ended answers its command, also where the command counts as waiting. -/
theorem EndsDisable.answered {kind i b k : Nat} {s t u : State} (h : EndsDisable kind i b k t u) (hcmds : t.cmds = s.cmds) {c : Cmd} (hc : cmdOf s k = some c)
    (hopen : c.decided = false) : Answered s (startCmd k true u) k { result := leBytes 4 0 } := by
  have hfinish : cmdOf u k = some (c.answer { result := leBytes 4 0 }) := by
    rw [cmdOf_congr h.cmds, finishCmd, cmdOf_modCmd_own (by simp) ((cmdOf_congr hcmds k).trans hc)]
  unfold Answered
  rw [startCmd, cmdOf_modCmd_own (fun _ => by rfl) hfinish, hc]
  simp [Cmd.answer, hopen]

theorem devUnitDisable_disables (s : State) (k kind i b : Nat) (c : Cmd) (h : Taken s k 0x0110 c) (hk : c.at 16 1 = kind) (hi : c.at 20 2 = i) (hb : c.at 22 1 = b)
    (hkind : kind ≤ 6) (hflags : c.at 17 1 ≤ 1) (htime : c.at 18 2 ≤ 60000) (hunit : orElse (unitChecks s c) = none) (hin : cmdUnitOut s kind i b = false)
    (hz : c.at 23 41 = 0) (hreset : (unitPart s kind i).any (resetting s) = false) (hidle : disableOn s kind i b = none) (hops : s.ops = [])
    (hactive : s.flt.active = none) (hheld : s.memTop.heldReqs = []) (haux : c.aux = 0) (haux2 : c.aux2 = 0) :
    Completes (.devUnitDisable k) s (fun t => Answered s t k { result := leBytes 4 0 } ∧ cmdUnitOut t kind i b = true ∧ t.mem = s.mem ∧ t.acc = s.acc) := by
  subst hk hi hb
  obtain ⟨hcolour, hband, -⟩ := unitChecks_ranges hunit
  obtain ⟨q, g, hcancel⟩ := cancelEntries_frame (c.at 16 1) (c.at 20 2) (entrySub (c.at 16 1) (c.at 22 1)) s
  obtain ⟨time, htm⟩ : ∃ time, time = s.tim.beat + 1000 * (if c.at 18 2 = 0 then 100 else c.at 18 2) := ⟨_, rfl⟩
  obtain ⟨u, hu⟩ : ∃ u : State, u = { s with flt := { s.flt with
    queue := q, log := g, disabling := s.flt.disabling ++ [(c.at 16 1, c.at 20 2, c.at 22 1, k, time)] } } := ⟨_, rfl⟩
  have hchecks : orElse ([badField (decide (6 < c.at 16 1)) 16, badField (decide (1 < c.at 17 1)) 17, outOfRange (decide (60000 < c.at 18 2)) 18] ++
      (unitChecks s c).drop 1 ++ [outOfRange (cmdUnitOut s (c.at 16 1) (c.at 20 2) (c.at 22 1)) (if c.at 16 1 = 1 ∨ c.at 16 1 = 3 ∨ c.at 16 1 = 6 then 22 else 20),
        c.rsvd 23 64, refuse ((unitPart s (c.at 16 1) (c.at 20 2)).any (resetting s)) stPartitionResetting,
        refuse (disableOn s (c.at 16 1) (c.at 20 2) (c.at 22 1)).isSome stBusy]) = none := by
    rw [unitCommand_checks hkind hflags htime hunit]
    simp only [outOfRange_passes, rsvd_passes, refuse_passes, orElse_nil, hin, hz, hreset, hidle, Option.isSome_none, and_true]
  have hcmd : cmdOf u k = some c := (cmdOf_congr (s := s) (by rw [hu]) k).trans h.1
  obtain ⟨v, hv, hends⟩ : ∃ v, (if bit (c.at 17 1) 0 || c.at 16 1 == 6 then (disableNow (c.at 16 1, c.at 20 2, c.at 22 1, k, time) stOk u, ({ wait := true } : Reply))
      else if c.at 16 1 == 4 || c.at 16 1 == 5 then (disableNow (c.at 16 1, c.at 20 2, c.at 22 1, k, time) stOk
        (u.modUnit (if c.at 16 1 = 4 then c.at 20 2 else 16 + c.at 20 2) (fun m => { m with hold := true })), { wait := true })
      else (endDisable u (c.at 16 1, c.at 20 2, c.at 22 1, k, time), { wait := true })) = (v, { wait := true }) ∧
        ∃ t : State, t.cmds = s.cmds ∧ t.mem = s.mem ∧ t.acc = s.acc ∧ EndsDisable (c.at 16 1) (c.at 20 2) (c.at 22 1) k t v := by
    have huops : u.ops = [] := by rw [hu]; exact hops
    have huheld : u.memTop.heldReqs = [] := by rw [hu]; exact hheld
    have husame : u.cmds = s.cmds ∧ u.mem = s.mem ∧ u.acc = s.acc := by rw [hu]; exact ⟨rfl, rfl, rfl⟩
    split
    · exact ⟨_, rfl, u, husame.1, husame.2.1, husame.2.2, disableNow_ends huops huheld hkind hcolour hband hcmd haux⟩
    · split
      · exact ⟨_, rfl, u.modUnit _ _, husame.1, husame.2.1, husame.2.2, disableNow_ends huops huheld hkind hcolour hband (hcmd : cmdOf (u.modUnit _ _) k = _) haux⟩
      · exact ⟨_, rfl, u, husame.1, husame.2.1, husame.2.2, endDisable_ends huops huheld hkind hcolour hband hcmd haux haux2⟩
  obtain ⟨t, hcmds, hmem, hacc, hend⟩ := hends
  refine ⟨startCmd k true v, ?_, hend.answered hcmds h.1 (taken_open h).1, ?_, hend.mem.trans hmem, hend.acc.trans hacc⟩
  · refine congrArg Host.Outcome.next (runCmd_waits h (r := { wait := true }) hchecks ?_ rfl)
    rw [hcancel]
    subst hu htm
    exact (if_neg (by simp [hactive])).trans hv
  · exact (unitOut_congr (s := v) rfl rfl rfl rfl rfl _ _ _).trans hend.out

theorem devUnitDisable_refuses (s : State) (k kind i b : Nat) (c : Cmd) (h : Taken s k 0x0110 c) (hk : c.at 16 1 = kind) (hi : c.at 20 2 = i) (hb : c.at 22 1 = b)
    (hkind : kind ≤ 6) (hflags : c.at 17 1 ≤ 1) (htime : c.at 18 2 ≤ 60000) (hunit : orElse (unitChecks s c) = none) (hout : cmdUnitOut s kind i b = true) :
    Completes (.devUnitDisable k) s (fun t => (∃ r, Answered s t k r ∧ r.status = stOutOfRange) ∧ t = { s with cmds := t.cmds }) := by
  subst hk hi hb
  refine ⟨finishCmd k (.no stOutOfRange (if c.at 16 1 = 1 ∨ c.at 16 1 = 3 ∨ c.at 16 1 = 6 then 22 else 20)) s, ?_, ⟨_, answered_finish _ _ _ _ rfl, rfl⟩, rfl⟩
  refine congrArg Host.Outcome.next (runCmd_refused h ?_ rfl)
  rw [unitCommand_checks hkind hflags htime hunit, hout]
  rfl

/-! ### Enabling (R467) -/

/-- A new entry for a unit that no entry waits for enters the queue (R460, R461). -/
theorem enqueueFault_enters {s : State} {e : FaultE} (hnew : ∀ x, x ∈ s.flt.queue → sameUnit x.kind x.index x.sub e.kind e.index e.sub = false)
    (hroom : s.flt.queue.length < 64) :
    EventsOnly { s with flt := { s.flt with queue := s.flt.queue ++ [e], faults := satInc s.flt.faults } } (enqueueFault e s) := by
  have hnone : ¬ s.flt.queue.any (fun x => sameUnit x.kind x.index x.sub e.kind e.index e.sub) = true := by
    rw [List.any_eq_true]
    rintro ⟨x, hx, hsame⟩
    rw [hnew x hx] at hsame
    cases hsame
  obtain ⟨u, hu⟩ : ∃ u : State, u = { s with flt := { s.flt with queue := s.flt.queue ++ [e], faults := satInc s.flt.faults } } := ⟨_, rfl⟩
  have hpost := post_eventsOnly 0x0140 (faultItems e.code e.kind e.sub e.index) u
  have hqueue : enqueueFault e s = if (post 0x0140 (faultItems e.code e.kind e.sub e.index) u).flt.queue.length = 48 then
      post 0x0146 (faultItems e.code e.kind e.sub e.index) (post 0x0140 (faultItems e.code e.kind e.sub e.index) u)
      else post 0x0140 (faultItems e.code e.kind e.sub e.index) u := by
    rw [hu]
    exact (if_neg hnone).trans (if_neg (Nat.not_le.mpr hroom))
  rw [← hu, hqueue]
  split
  · obtain ⟨_, _, _, hsend⟩ := post_eventsOnly 0x0146 (faultItems e.code e.kind e.sub e.index) (post 0x0140 (faultItems e.code e.kind e.sub e.index) u)
    obtain ⟨_, _, _, hpost⟩ := hpost
    rw [hsend, hpost]
    exact ⟨_, _, _, rfl⟩
  · exact hpost

theorem devUnitEnable_queues (s : State) (k kind i b : Nat) (c : Cmd) (h : Taken s k 0x0111 c) (hk : c.at 16 1 = kind) (hi : c.at 20 2 = i) (hb : c.at 22 1 = b)
    (hkind : kind ≤ 6) (hflags : c.at 17 1 ≤ 1) (htime : c.at 18 2 ≤ 60000) (hunit : orElse (unitChecks s c) = none) (hout : cmdUnitOut s kind i b = true)
    (hz : c.at 23 41 = 0) (hboot : fencedAtBoot s kind i b = false)
    (hlight : kind ≠ 0 ∨ (∀ g, g < 4 → (s.lcol (4 * portOfField i + g)).level ≠ 3)) (hstack : kind = 4 → (s.unit i).gaveUp = false)
    (hchannel : kind = 5 → (s.unit (16 + i)).gaveUp = false) (hreset : (unitPart s kind i).any (resetting s) = false)
    (hnew : ∀ e, e ∈ s.flt.queue → sameUnit e.kind e.index e.sub kind i (entrySub kind b) = false) (hroom : s.flt.queue.length < 64) :
    Completes (.devUnitEnable k) s (fun t => Waiting t k ∧ t.flt.queue = s.flt.queue ++
      [{ code := 0x50, kind := kind, sub := entrySub kind b, index := i, beat := s.tim.beat % 2 ^ 32, cmds := [k] }] ∧ t.flt.faults = satInc s.flt.faults) := by
  subst hk hi hb
  obtain ⟨e, he⟩ : ∃ e : FaultE, e = { code := 0x50, kind := c.at 16 1, sub := entrySub (c.at 16 1) (c.at 22 1), index := c.at 20 2, beat := s.tim.beat % 2 ^ 32, cmds := [k] } :=
    ⟨_, rfl⟩
  have hbright : (c.at 16 1 == 0 && (List.range 4).any (fun g => (s.lcol (4 * portOfField (c.at 20 2) + g)).level == 3)) = false := by
    rcases hlight with hk | hlevel
    · rw [beq_false_of_ne hk]
      rfl
    · rw [Bool.and_eq_false_iff]
      exact .inr (any_eq_false fun g hg => beq_false_of_ne (hlevel g (List.mem_range.mp hg)))
  have hgave : ((c.at 16 1 == 4 || c.at 16 1 == 5) && (s.unit (if c.at 16 1 = 4 then c.at 20 2 else 16 + c.at 20 2)).gaveUp) = false := by
    by_cases h4 : c.at 16 1 = 4
    · rw [if_pos h4, hstack h4, Bool.and_false]
    · by_cases h5 : c.at 16 1 = 5
      · rw [if_neg h4, hchannel h5, Bool.and_false]
      · simp [h4, h5]
  have hqueue : EventsOnly { s with flt := { s.flt with queue := s.flt.queue ++ [e], faults := satInc s.flt.faults } } (enqueueFault e s) :=
    enqueueFault_enters (by rw [he]; exact hnew) hroom
  obtain ⟨_, _, _, hframe⟩ := hqueue
  refine ⟨startCmd k false (enqueueFault e s), ?_, waiting_start h _ _ (by rw [hframe]), ?_, ?_⟩
  · refine congrArg Host.Outcome.next (runCmd_waits h (r := { wait := true, commit := false }) ?_ (by rw [he]) rfl)
    rw [unitCommand_checks hkind hflags htime hunit]
    simp only [outOfRange_passes, rsvd_passes, refuse_passes, orElse_nil, hout, hz, hboot, hbright, hgave, hreset, Bool.not_true, Bool.or_self, and_true]
  · rw [← he]
    change (enqueueFault e s).flt.queue = _
    rw [hframe]
  · change (enqueueFault e s).flt.faults = _
    rw [hframe]

/-! ### The graceful limit and the reset (R394, R396, R465) -/

theorem disableNow_removes (d : Nat × Nat × Nat × Nat × Nat) (status : Nat) (s : State) :
    ∀ x, x ∈ (disableNow d status s).flt.disabling → x ∈ s.flt.disabling ∧ x ≠ d := by
  obtain ⟨u, hu⟩ : ∃ u : State, u = { s with flt := { s.flt with disabling := s.flt.disabling.filter (fun x => x != d) } } := ⟨_, rfl⟩
  have hsuper (f : Nat) (t : State) : Steady t (supersede f t) := by
    obtain ⟨q, g, h⟩ := supersede_frame f t
    rw [h]
    exact ⟨rfl, rfl, rfl, fun _ hd => hd, fun _ c hc hd => ⟨c, hc, hd, rfl⟩⟩
  have hsteady : Steady u (disableNow d status s) := by
    rw [hu]
    unfold disableNow
    dsimp only
    exact ((((finishCmd_steady _ _ _).after (post_eventsOnly _ _ _).memoryOnly.steady).after (.ite (hsuper _ _) (.refl _))).after (markFenced_steady _ _ _ _)).after
      (retireAll_steady _ _ _)
  intro x hx
  have hmem := hsteady.disabling x hx
  rw [hu] at hmem
  simpa using List.mem_filter.mp hmem

theorem disableGracefulTimeout_ends (s : State) (k : Nat) (d : Nat × Nat × Nat × Nat × Nat) (hd : s.flt.disabling.find? (fun d => d.2.2.2.1 == k) = some d)
    (hdue : d.2.2.2.2 ≤ s.tim.beat) :
    Completes (.disableGracefulTimeout k) s (fun t => ∀ x, x ∈ t.flt.disabling → x ∈ s.flt.disabling ∧ x ≠ d) := by
  refine ⟨disableNow d stDegraded s, ?_, disableNow_removes d stDegraded s⟩
  change execDisableGracefulTimeout k s = _
  unfold execDisableGracefulTimeout
  rw [hd]
  exact congrArg Host.Outcome.next (if_pos hdue)

theorem disableGracefulTimeout_waits (s : State) (k : Nat) (d : Nat × Nat × Nat × Nat × Nat) (hd : s.flt.disabling.find? (fun d => d.2.2.2.1 == k) = some d)
    (hdue : s.tim.beat < d.2.2.2.2) : exec (.disableGracefulTimeout k) s = .next s := by
  change execDisableGracefulTimeout k s = _
  unfold execDisableGracefulTimeout
  rw [hd]
  exact congrArg Host.Outcome.next (if_neg (Nat.not_le.mpr hdue))

theorem devReset_accepts (s : State) (k : Nat) (c : Cmd) (h : Taken s k 0x0102 c) (herror : s.flt.deviceError = false) (hz : c.at 16 48 = 0) :
    exec (.devReset k) s = .next (finishCmd k { status := stAccepted } s) := by
  refine congrArg Host.Outcome.next ((if_neg (by rw [herror]; exact Bool.false_ne_true)).trans (runCmd_acts h ?_ rfl rfl))
  simp only [rsvd_passes, orElse_nil, hz, and_true]

theorem devReset_inDeviceError (s : State) (k : Nat) (c : Cmd) (hc : cmdOf s k = some c) (hop : c.opcode = 0x0102) (herror : s.flt.deviceError = true) :
    exec (.devReset k) s = .next (finishCmd k { status := stAccepted } s) := by
  refine congrArg Host.Outcome.next ((if_pos herror).trans ?_)
  rw [hc]
  exact if_pos hop

/-- Settles O54: with no op issued and nothing held, the end of a disable is the mark on its unit and the answer. -/
theorem unitCommandsRun : Obligations.UnitCommandsRun :=
  ⟨devUnitDisable_disables, devUnitDisable_refuses, devUnitEnable_queues, disableGracefulTimeout_ends, disableGracefulTimeout_waits, devReset_accepts,
    devReset_inDeviceError⟩

end Sys2Proof.Machine
end

section
/-! Faults: their detection, the queue, fences and recoveries (R457 to R468). -/

namespace Sys2Proof.Machine

open Sys2Proof State

/-! ### Containment (R457) -/

/-- With no op in the device, containment is the stop of the unit. -/
theorem contain_no_ops {s : State} (hops : s.ops = []) (kind index sub : Nat) : contain kind index sub s = stopUnit kind index sub s := by
  have husers : usersOf s kind index sub = [] := by rw [usersOf, hops]; rfl
  rw [contain, husers]
  rfl

theorem stopUnit_frame (kind index sub : Nat) (s : State) : ∃ f d c u p, stopUnit kind index sub s =
    { s with fields := f, light := { s.light with disabled := d }, cores := c, units := u, ports := p } := by
  unfold stopUnit
  split <;> exact ⟨_, _, _, _, _, rfl⟩

theorem noteColour_frame (code kind index detail : Nat) (s : State) : ∃ l, noteColour code kind index detail s = { s with light := l } := by
  unfold noteColour
  split <;> exact ⟨_, rfl⟩

theorem disableOn_none {s : State} (h : s.flt.disabling = []) (kind index sub : Nat) : disableOn s kind index sub = none := by
  rw [disableOn, h]
  rfl

/-! ### Detection (R457, R461, R462) -/

/-- The entry of a fault that is detected in `s` (R460). -/
def detected (s : State) (code kind index sub detail : Nat) : FaultE :=
  { code := code, kind := kind, sub := sub, index := index, beat := s.tim.beat % 2 ^ 32, detail := detail }

section
variable {s : State} {code kind index sub detail : Nat} (hsound : s.flt.deviceError = false) (hin : unitOut s kind index sub = false) (hops : s.ops = [])
  (hactive : s.flt.active = none) (hidle : disableOn s kind index sub = none)
include hsound hin hops hactive hidle

/-- A fault of a unit in service, with no op, recovery or disable in the device: the unit stops and its entry goes to the queue. -/
theorem raiseFault_enqueues : raiseFault code kind index sub detail s =
    enqueueFault (detected s code kind index sub detail) (noteColour code kind index detail (stopUnit kind index sub s)) := by
  obtain ⟨_, _, _, _, _, hstop⟩ := stopUnit_frame kind index sub s
  have hflt : (stopUnit kind index sub s).flt = s.flt := by rw [hstop]
  have htim : (stopUnit kind index sub s).tim = s.tim := by rw [hstop]
  unfold raiseFault
  rw [contain_no_ops hops, hsound, hin]
  dsimp only [disableOn, underRecovery] at hidle ⊢
  rw [hflt, hactive, hidle, htim]
  simp only [Option.any_none, Bool.and_false, Bool.or_self, Bool.false_eq_true, if_false]
  rfl

/-- What a detection leaves, when the queue has room and no entry of the unit waits. -/
theorem raiseFault_enters (hnew : ∀ e, e ∈ s.flt.queue → sameUnit e.kind e.index e.sub kind index sub = false) (hroom : s.flt.queue.length < 64) :
    ∃ l h b w, raiseFault code kind index sub detail s = { stopUnit kind index sub s with
      flt := { s.flt with queue := s.flt.queue ++ [detected s code kind index sub detail], faults := satInc s.flt.faults }
      light := l, hostMem := h, mbs := b, stw := w } := by
  rw [raiseFault_enqueues hsound hin hops hactive hidle]
  obtain ⟨_, _, _, _, _, hstop⟩ := stopUnit_frame kind index sub s
  obtain ⟨l, hnote⟩ := noteColour_frame code kind index detail (stopUnit kind index sub s)
  have hflt : (stopUnit kind index sub s).flt = s.flt := by rw [hstop]
  rw [hnote]
  obtain ⟨u, hu⟩ : ∃ u : State, u = { stopUnit kind index sub s with light := l } := ⟨_, rfl⟩
  have huflt : u.flt = s.flt := by rw [hu]; exact hflt
  obtain ⟨h, b, w, henter⟩ := enqueueFault_enters (s := u) (e := detected s code kind index sub detail) (by rw [huflt]; exact hnew) (by rw [huflt]; exact hroom)
  rw [← hu, henter, huflt, hu]
  exact ⟨_, _, _, _, rfl⟩

end

theorem faultDetect_queues (s : State) (code kind index sub detail : Nat) (hsound : s.flt.deviceError = false) (hin : unitOut s kind index sub = false) (hops : s.ops = [])
    (hactive : s.flt.active = none) (hidle : disableOn s kind index sub = none) (hnew : ∀ e, e ∈ s.flt.queue → sameUnit e.kind e.index e.sub kind index sub = false)
    (hroom : s.flt.queue.length < 64) :
    Completes (.faultDetect code kind index sub detail) s (fun t => t.flt.queue = s.flt.queue ++
        [{ code := code, kind := kind, sub := sub, index := index, beat := s.tim.beat % 2 ^ 32, detail := detail }] ∧ t.flt.faults = satInc s.flt.faults ∧
      t.flt.log = s.flt.log ∧ t.flt.deviceError = false ∧ (kind = 0 → (t.field index).bandWithheld = ~~~ (s.field index).bandFenced) ∧ t.mem = s.mem) := by
  obtain ⟨l, h, b, w, henters⟩ := raiseFault_enters (code := code) (detail := detail) hsound hin hops hactive hidle hnew hroom
  obtain ⟨_, _, _, _, _, hstop⟩ := stopUnit_frame kind index sub s
  refine ⟨_, congrArg Host.Outcome.next henters, rfl, rfl, rfl, hsound, ?_, ?_⟩
  · rintro rfl
    change ((s.modField index (fun x => { x with bandWithheld := ~~~ x.bandFenced })).field index).bandWithheld = _
    rw [field_modField, if_pos rfl]
  · change (stopUnit kind index sub s).mem = s.mem
    rw [hstop]

theorem faultDetect_overflows (s : State) (code kind index sub detail : Nat) (hsound : s.flt.deviceError = false) (hin : unitOut s kind index sub = false) (hops : s.ops = [])
    (hactive : s.flt.active = none) (hidle : disableOn s kind index sub = none) (hnew : ∀ e, e ∈ s.flt.queue → sameUnit e.kind e.index e.sub kind index sub = false)
    (hfull : s.flt.queue.length = 64) : Completes (.faultDetect code kind index sub detail) s (fun t => t.flt.deviceError = true ∧ t.flt.deCause = 4) := by
  obtain ⟨_, _, _, _, _, hstop⟩ := stopUnit_frame kind index sub s
  obtain ⟨l, hnote⟩ := noteColour_frame code kind index detail (stopUnit kind index sub s)
  obtain ⟨u, hu⟩ : ∃ u : State, u = noteColour code kind index detail (stopUnit kind index sub s) := ⟨_, rfl⟩
  have hflt : u.flt = s.flt := by rw [hu, hnote, hstop]
  have hnone : ¬ u.flt.queue.any (fun x => sameUnit x.kind x.index x.sub kind index sub) = true := by
    rw [hflt, any_eq_false hnew]
    exact Bool.false_ne_true
  have herror : raiseFault code kind index sub detail s = enterDeviceError 4 u := by
    rw [raiseFault_enqueues hsound hin hops hactive hidle, ← hu]
    exact (if_neg hnone).trans (if_pos (by rw [hflt, hfull]))
  refine ⟨_, congrArg Host.Outcome.next herror, ?_⟩
  rw [enterDeviceError, if_neg (by rw [hflt, hsound]; exact Bool.false_ne_true)]
  exact ⟨rfl, rfl⟩

theorem raiseFault_inDeviceError {s : State} (h : s.flt.deviceError = true) (code kind index sub detail : Nat) : raiseFault code kind index sub detail s = s := if_pos h

theorem coreHeartbeatMiss_queues (s : State) (c : Nat) (hc : c < 2048) (hsound : s.flt.deviceError = false) (hfield : (s.field (c / 64)).fenced = false)
    (hcore : (s.coreOf c).state ≠ 3) (hops : s.ops = []) (hactive : s.flt.active = none) (hdisabling : s.flt.disabling = []) (hqueue : s.flt.queue = []) :
    Completes (.coreHeartbeatMiss c) s (fun t => t.flt.queue = [{ code := 0x11, kind := 3, sub := c % 64, index := c / 64, beat := s.tim.beat % 2 ^ 32, detail := 0 }] ∧
      (t.coreOf c).verified = false) := by
  have hself : 64 * (c / 64) + c % 64 = c := Nat.div_add_mod c 64
  have hin : unitOut s 3 (c / 64) (c % 64) = false := by
    change ((s.field (c / 64)).fenced || (s.coreOf (64 * (c / 64) + c % 64)).state == 3) = false
    rw [hself, hfield, beq_false_of_ne hcore]
    rfl
  obtain ⟨l, h, b, w, henters⟩ := raiseFault_enters (code := 0x11) (detail := 0) hsound hin hops hactive (disableOn_none hdisabling _ _ _)
    (by rw [hqueue]; exact fun _ he => nomatch he) (by rw [hqueue]; exact Nat.zero_lt_succ _)
  refine ⟨_, congrArg Host.Outcome.next henters, congrArg (· ++ [_]) hqueue, ?_⟩
  change ((s.modCoreOf (64 * (c / 64) + c % 64) (fun x => { x with verified := false })).coreOf c).verified = false
  rw [hself, coreOf_modCoreOf, if_pos rfl]

theorem domainPowerGoodLoss_queues (s : State) (d : Nat) (hd : d < 128) (hsound : s.flt.deviceError = false) (hfield : (s.field (d / 4)).fenced = false) (hops : s.ops = [])
    (hactive : s.flt.active = none) (hdisabling : s.flt.disabling = []) (hqueue : s.flt.queue = []) :
    Completes (.domainPowerGoodLoss d) s (fun t => d ∉ t.pwr.on ∧
      t.flt.queue = [{ code := 4, kind := 0, sub := 0, index := d / 4, beat := s.tim.beat % 2 ^ 32, detail := 0 }]) := by
  obtain ⟨l, h, b, w, henters⟩ := raiseFault_enters (s := { s with pwr := { s.pwr with on := s.pwr.on.filter (fun x => x != d) } }) (code := 4) (kind := 0) (index := d / 4)
    (sub := 0) (detail := 0) hsound hfield hops hactive (disableOn_none hdisabling _ _ _) (by rw [hqueue]; exact fun _ he => nomatch he)
    (by rw [hqueue]; exact Nat.zero_lt_succ _)
  refine ⟨_, congrArg Host.Outcome.next ((if_pos hd).trans henters), ?_, congrArg (· ++ [_]) hqueue⟩
  exact fun hmem => (bne_iff_ne.mp (List.mem_filter.mp hmem).2) rfl

/-! ### The fence of an entry (R459, R461) -/

theorem supersede_empty {s : State} (h : s.flt.queue = []) (f : Nat) : supersede f s = s := by
  have hflt : { s.flt with queue := [] } = s.flt := by rw [← h]
  unfold supersede
  rw [h]
  change { s with flt := { s.flt with queue := [] } } = s
  rw [hflt]

theorem fenceCores_frame (f : Nat) (l : List Nat) {s : State} (hops : s.ops = []) :
    ∃ c, l.foldl (fun s c => fenceCore c (contain 3 f (c % 64) s)) s = { s with cores := c } := by
  refine foldl_inv (fun t : State => ∃ c, t = { s with cores := c }) _ ?_ l s ⟨_, rfl⟩
  rintro t c ⟨x, rfl⟩
  have hstop := contain_no_ops (s := { s with cores := x }) hops 3 f (c % 64)
  rw [hstop]
  exact ⟨_, rfl⟩

/-- What the fence of a field leaves, with no op in the device and no entry waiting. -/
structure FencesField (f : Nat) (s t : State) : Prop where
  fenced : (t.field f).fenced = true
  flt : t.flt = { s.flt with fences := satInc s.flt.fences }
  light : t.light = s.light
  alert : t.mg.alert.getLsbD 6 = true
  bu : t.bu = s.bu
  ops : t.ops = s.ops

/-- The field marked, counted and reported, before its bands and cores follow. -/
def fieldMarked (f : Nat) (s : State) : State :=
  raiseAlert 6 { markFenced 0 f 0 (stopUnit 0 f 0 s) with flt := { s.flt with fences := satInc s.flt.fences } }

theorem fieldMarked_fenced (f : Nat) (s : State) : ((fieldMarked f s).field f).fenced = true := by
  have hfields : (fieldMarked f s).fields = ((stopUnit 0 f 0 s).modField f (fun x => { x with fenced := true })).fields := rfl
  rw [field_congr _ _ hfields, field_modField, if_pos rfl]

theorem fieldMarked_fences (f : Nat) (s : State) : FencesField f s (fieldMarked f s) :=
  ⟨fieldMarked_fenced f s, rfl, rfl, or_twoPow_getLsbD (by decide) _, rfl, rfl⟩

theorem FencesField.procs {f : Nat} {s t u : State} (h : FencesField f s t) (hprocs : ProcsOnly t u) : FencesField f s u := by
  obtain ⟨_, _, _, _, rfl⟩ := hprocs.rest
  exact ⟨h.fenced, h.flt, h.light, h.alert, h.bu, h.ops⟩

theorem fenceField_fences {s : State} {e : FaultE} (hops : s.ops = []) (hqueue : s.flt.queue = []) (hkind : e.kind = 0) : FencesField e.index s (fenceFor e s) := by
  obtain ⟨t, ht⟩ : ∃ t, t = (List.range 8).foldl (fun (s : State) b => dropProc (8 * e.index + b) s) (fieldMarked e.index s) := ⟨_, rfl⟩
  have hfences : FencesField e.index s t := by
    rw [ht]
    exact (fieldMarked_fences e.index s).procs (.foldl (fun s b => dropProc_procsOnly _ s) _ _)
  have hfence : fenceFor e s = if e.code = 0x04 ∧ !t.pwr.on.contains (4 * e.index + 3) then
      (coresOf e.index).foldl (fun s c => fenceCore c (contain 3 e.index (c % 64) s)) t else t := by
    have hsuper : supersede e.index (fieldMarked e.index s) = fieldMarked e.index s := supersede_empty (s := fieldMarked e.index s) hqueue e.index
    unfold fenceFor
    rw [contain_no_ops hops, hkind, ht, ← hsuper]
    rfl
  rw [hfence]
  split
  · obtain ⟨c, hcores⟩ := fenceCores_frame e.index (coresOf e.index) (hfences.ops.trans hops)
    rw [hcores]
    exact ⟨hfences.fenced, hfences.flt, hfences.light, hfences.alert, hfences.bu, hfences.ops⟩
  · exact hfences

/-- The fault log with a processed entry behind those it holds (R461). -/
def logged (e : FaultE) (outcome : Nat) (l : List FaultE) : List FaultE :=
  (l ++ [{ e with outcome := outcome, recovering := false }]).drop (l.length + 1 - 256)

theorem logFault_eq (e : FaultE) (outcome : Nat) (s : State) : logFault e outcome s = { s with flt := { s.flt with log := logged e outcome s.flt.log } } := rfl

theorem logged_first (e : FaultE) (outcome : Nat) {l : List FaultE} (h : l = []) : logged e outcome l = [{ e with outcome := outcome, recovering := false }] := by
  rw [h]
  simp [logged]

theorem closeFenced_frame (e : FaultE) (s : State) : ∃ h b w, closeFenced e s =
    { fenceFor e s with flt := { (fenceFor e s).flt with log := logged e 2 (fenceFor e s).flt.log }, hostMem := h, mbs := b, stw := w } := by
  rw [closeFenced, logFault_eq]
  exact post_eventsOnly _ _ _

/-- A field's entry that its fence closes (R461, R462). -/
theorem closeFenced_field {s : State} {e : FaultE} (hops : s.ops = []) (hqueue : s.flt.queue = []) (hkind : e.kind = 0) :
    ((closeFenced e s).field e.index).fenced = true ∧ (closeFenced e s).flt = { s.flt with fences := satInc s.flt.fences, log := logged e 2 s.flt.log } ∧
      (closeFenced e s).light = s.light ∧ (closeFenced e s).mg.alert.getLsbD 6 = true ∧ (closeFenced e s).bu = s.bu := by
  obtain ⟨hfenced, hflt, hlight, halert, hbu, -⟩ := fenceField_fences hops hqueue hkind
  obtain ⟨_, _, _, hclose⟩ := closeFenced_frame e s
  rw [hclose]
  refine ⟨hfenced, ?_, hlight, halert, hbu⟩
  dsimp only
  rw [hflt]

/-! ### The queue's first entry (R461, R463) -/

theorem colourDue_none {s : State} (h : s.light.colFaults = []) : colourDue s = none := by
  rw [colourDue, List.find?_eq_none]
  intro g _
  rw [colourFaulty, h]
  simp

/-- The entry that the steward takes, when no colour has failed in several fields. -/
theorem takeFault_takes {s t : State} {e : FaultE} {rest : List FaultE} (hactive : s.flt.active = none) (hqueue : s.flt.queue = e :: rest)
    (hsound : s.flt.deviceError = false) (htaken : (if fenceCode e.code then lateColour e (closeFenced e { s with flt := { s.flt with queue := rest } })
      else if e.code = 0x50 ∧ e.kind = 2 then
        answerEnable e {} (post 0x0144 (faultItems e.code e.kind e.sub e.index) (logFault e 1 (returnUnit e { s with flt := { s.flt with queue := rest } })))
      else startRecovery e { s with flt := { s.flt with queue := rest, active := some { e with recovering := true }, activeAt := s.tim.beat } }) = t)
    (hcolours : t.light.colFaults = []) : takeFault s = t := by
  unfold takeFault
  split
  next x l _ hl =>
    obtain ⟨rfl, rfl⟩ := List.cons.inj (hl.symm.trans hqueue)
    rw [hsound, if_neg Bool.false_ne_true]
    dsimp only
    rw [htaken, colourDue_none hcolours]
  next hnone => exact absurd hqueue (hnone _ _ hactive)

theorem faultQueueTake_fences (s : State) (e : FaultE) (rest : List FaultE) (hactive : s.flt.active = none) (hqueue : s.flt.queue = e :: rest)
    (hsound : s.flt.deviceError = false) (hcode : fenceCode e.code = true) (hkind : e.kind = 0) (hops : s.ops = []) (hcolours : s.light.colFaults = []) (hlog : s.flt.log = [])
    (hrest : rest = []) :
    Completes .faultQueueTake s (fun t => (t.field e.index).fenced = true ∧ t.flt.queue = [] ∧ t.flt.log = [{ e with outcome := 2, recovering := false }] ∧
      t.flt.active = none ∧ t.mg.alert.getLsbD 6 = true) := by
  subst hrest
  obtain ⟨hfenced, hflt, hlight, halert, -⟩ := closeFenced_field (s := { s with flt := { s.flt with queue := [] } }) (e := e) hops rfl hkind
  refine ⟨closeFenced e { s with flt := { s.flt with queue := [] } }, congrArg Host.Outcome.next (takeFault_takes hactive hqueue hsound ?_ ?_), hfenced, ?_, ?_, ?_, halert⟩
  · rw [if_pos hcode]
    exact if_neg (fun h => by rw [hkind] at h; exact absurd h.2.1 (by decide))
  · rw [hlight]
    exact hcolours
  · rw [hflt]
  · rw [hflt]
    dsimp only
    exact logged_first e 2 hlog
  · rw [hflt]
    exact hactive

theorem faultQueueTake_recovers (s : State) (e : FaultE) (rest : List FaultE) (hactive : s.flt.active = none) (hqueue : s.flt.queue = e :: rest)
    (hsound : s.flt.deviceError = false) (hcode : fenceCode e.code = false) (hkind : e.kind = 4 ∨ e.kind = 6) (hcolours : s.light.colFaults = []) :
    Completes .faultQueueTake s (fun t => t.flt.queue = rest ∧ t.flt.active = some { e with recovering := true } ∧ t.flt.activeAt = s.tim.beat ∧ t.flt.log = s.flt.log) := by
  obtain ⟨u, hu⟩ : ∃ u : State, u = { s with flt := { s.flt with queue := rest, active := some { e with recovering := true }, activeAt := s.tim.beat } } := ⟨_, rfl⟩
  have hstart : (startRecovery e u).flt = u.flt ∧ (startRecovery e u).light = u.light := by
    unfold startRecovery
    rcases hkind with h | h
    · rw [h]
      dsimp only
      rw [triggerRetrain_frame]
      exact ⟨rfl, rfl⟩
    · rw [h]
      exact ⟨rfl, rfl⟩
  have hcolour : ¬ (e.code = 0x50 ∧ e.kind = 2) := by omega
  refine ⟨startRecovery e u, congrArg Host.Outcome.next (takeFault_takes hactive hqueue hsound ?_ ?_), ?_⟩
  · rw [hcode, if_neg Bool.false_ne_true, if_neg hcolour, hu]
  · rw [hstart.2, hu]
    exact hcolours
  · dsimp only
    rw [hstart.1, hu]
    exact ⟨rfl, rfl, rfl, rfl⟩

theorem faultQueueTake_waits (s : State) (e : FaultE) (h : s.flt.active = some e) : exec .faultQueueTake s = .next s := by
  change Host.Outcome.next (takeFault s) = _
  rw [takeFault, h]

/-! ### The end of a recovery (R458, R461, R467) -/

/-- A band that returns is in service again, and withheld until a halt (R174). -/
theorem returnBand_returns {s : State} {e : FaultE} (hkind : e.kind = 1) (hsub : e.sub < 8) :
    (returnUnit e s).flt = s.flt ∧ ((returnUnit e s).field e.index).bandFenced.getLsbD e.sub = false ∧
      ((returnUnit e s).field e.index).bandWithheld.getLsbD e.sub = true ∧ ((returnUnit e s).band (8 * e.index + e.sub)).back = true := by
  have hreturn : returnUnit e s = (s.modField e.index (fun x => { x with bandFenced := x.bandFenced &&& ~~~(BitVec.twoPow 8 e.sub)
                                                                         bandWithheld := x.bandWithheld ||| BitVec.twoPow 8 e.sub })).modBand (8 * e.index + e.sub)
      (fun x => { x with proc := 0, queue := [], back := true, colFault := none }) := by
    unfold returnUnit
    rw [hkind]
    rfl
  have hfield : (returnUnit e s).field e.index = { s.field e.index with
      bandFenced := (s.field e.index).bandFenced &&& ~~~(BitVec.twoPow 8 e.sub)
      bandWithheld := (s.field e.index).bandWithheld ||| BitVec.twoPow 8 e.sub } := by
    rw [hreturn, field_congr _ _ (modBand_fields _ _ _), field_modField, if_pos rfl]
  refine ⟨by rw [hreturn]; rfl, ?_, ?_, ?_⟩
  · rw [hfield]
    simp
  · rw [hfield]
    exact or_twoPow_getLsbD hsub _
  · rw [hreturn, band_modBand, if_pos rfl]

theorem answerEnable_none {e : FaultE} (h : e.cmds = []) (r : Reply) (s : State) : answerEnable e r s = s := by
  rw [answerEnable, h]
  rfl

theorem recoveryEnd_returns (s : State) (e : FaultE) (hactive : s.flt.active = some e) (hkind : e.kind = 1) (hpass : mayPass s e = true) (hcmds : e.cmds = [])
    (hsub : e.sub < 8) (hdisabling : s.flt.disabling = []) (hlog : s.flt.log = []) :
    Completes (.recoveryEnd true) s (fun t => t.flt.active = none ∧ t.flt.log = [{ e with outcome := 1, recovering := false }] ∧
      (t.field e.index).bandFenced.getLsbD e.sub = false ∧ (t.field e.index).bandWithheld.getLsbD e.sub = true ∧ (t.band (8 * e.index + e.sub)).back = true) := by
  obtain ⟨u, hu⟩ : ∃ u : State, u = { s with flt := { s.flt with active := none } } := ⟨_, rfl⟩
  obtain ⟨t, ht⟩ : ∃ t, t = post (if e.code = 0x50 then 0x0144 else 0x0141) (faultItems e.code e.kind e.sub e.index) (logFault e 1 (returnUnit e u)) := ⟨_, rfl⟩
  obtain ⟨hreturned, hfenced, hwithheld, hback⟩ := returnBand_returns (s := u) hkind hsub
  have hpost := post_eventsOnly (if e.code = 0x50 then 0x0144 else 0x0141) (faultItems e.code e.kind e.sub e.index) (logFault e 1 (returnUnit e u))
  rw [← ht, logFault_eq, hreturned] at hpost
  obtain ⟨_, _, _, hframe⟩ := hpost
  have hflt : t.flt = { u.flt with log := logged e 1 u.flt.log } := by rw [hframe]
  refine ⟨t, congrArg Host.Outcome.next ?_, ?_, ?_, ?_⟩
  · rw [hactive, Option.any_some, hpass]
    change endRecovery true s = t
    have hend : disableOn t e.kind e.index e.sub = none := disableOn_none (by rw [hflt, hu]; exact hdisabling) _ _ _
    unfold endRecovery
    rw [hactive]
    dsimp only
    rw [← hu, ← ht, answerEnable_none hcmds, hend]
    rfl
  · rw [hflt, hu]
  · rw [hflt, hu]
    dsimp only
    exact logged_first e 1 hlog
  · rw [hframe]
    exact ⟨hfenced, hwithheld, hback⟩

/-- The band marked, counted and reported, before its procedures leave it. -/
def bandMarked (f b : Nat) (s : State) : State :=
  raiseAlert 6 { markFenced 1 f b (stopUnit 1 f b s) with flt := { s.flt with fences := satInc s.flt.fences } }

theorem bandMarked_fenced {b : Nat} (f : Nat) (hb : b < 8) (s : State) : ((bandMarked f b s).field f).bandFenced.getLsbD b = true := by
  have hfields : (bandMarked f b s).fields = ((stopUnit 1 f b s).modField f (fun x => { x with
    bandFenced := x.bandFenced ||| BitVec.twoPow 8 b, bandWithheld := x.bandWithheld &&& ~~~(BitVec.twoPow 8 b) })).fields := rfl
  rw [field_congr _ _ hfields, field_modField, if_pos rfl]
  exact or_twoPow_getLsbD hb _

/-- The fence of a band, with no op in the device: its field's bit, and the faults' own count. -/
theorem fenceBand_fences {s : State} {e : FaultE} (hops : s.ops = []) (hkind : e.kind = 1) (hsub : e.sub < 8) :
    ((fenceFor e s).field e.index).bandFenced.getLsbD e.sub = true ∧ (fenceFor e s).flt = { s.flt with fences := satInc s.flt.fences } := by
  have hfence : fenceFor e s = (dropProc (8 * e.index + e.sub) (bandMarked e.index e.sub s)).modBand (8 * e.index + e.sub) (fun b => { b with
      colFault := if e.code = 0x01 ∧ bits e.detail 8 3 < 4 then some (bits e.detail 8 3) else none }) := by
    unfold fenceFor
    rw [contain_no_ops hops, hkind]
    rfl
  have hbit := bandMarked_fenced e.index hsub s
  have hflt : (bandMarked e.index e.sub s).flt = { s.flt with fences := satInc s.flt.fences } := rfl
  obtain ⟨u, hu⟩ : ∃ u, u = bandMarked e.index e.sub s := ⟨_, rfl⟩
  rw [← hu] at hfence hbit hflt
  obtain ⟨_, _, _, _, hdrop⟩ := (dropProc_procsOnly (8 * e.index + e.sub) u).rest
  rw [hfence, hdrop]
  exact ⟨hbit, hflt⟩

theorem recoveryEnd_fences (s : State) (e : FaultE) (hactive : s.flt.active = some e) (hkind : e.kind = 1) (hcmds : e.cmds = []) (hsub : e.sub < 8)
    (hdisabling : s.flt.disabling = []) (hops : s.ops = []) (hlog : s.flt.log = []) :
    Completes (.recoveryEnd false) s (fun t => t.flt.active = none ∧ t.flt.log = [{ e with outcome := 2, recovering := false }] ∧
      (t.field e.index).bandFenced.getLsbD e.sub = true) := by
  obtain ⟨u, hu⟩ : ∃ u : State, u = { s with flt := { s.flt with active := none } } := ⟨_, rfl⟩
  obtain ⟨hfenced, hcount⟩ := fenceBand_fences (s := u) (e := e) (by rw [hu]; exact hops) hkind hsub
  obtain ⟨_, _, _, hclose⟩ := closeFenced_frame e u
  have hflt : (closeFenced e u).flt = { u.flt with fences := satInc u.flt.fences, log := logged e 2 u.flt.log } := by
    rw [hclose]
    dsimp only
    rw [hcount]
  refine ⟨closeFenced e u, congrArg Host.Outcome.next ?_, ?_, ?_, ?_⟩
  · change endRecovery false s = _
    have hend : disableOn (closeFenced e u) e.kind e.index e.sub = none := disableOn_none (by rw [hflt, hu]; exact hdisabling) _ _ _
    unfold endRecovery failActive
    rw [hactive]
    dsimp only
    rw [← hu, answerEnable_none hcmds, hend]
    rfl
  · rw [hflt, hu]
  · rw [hflt, hu]
    dsimp only
    exact logged_first e 2 hlog
  · rw [hclose]
    exact hfenced

theorem recoveryEnd_unshown (s : State) (e : FaultE) (hactive : s.flt.active = some e) (hpass : mayPass s e = false) : exec (.recoveryEnd true) s = .next s := by
  refine congrArg Host.Outcome.next (if_pos ?_)
  rw [hactive, Option.any_some, hpass]
  rfl

theorem recoveryEnd_idle (s : State) (b : Bool) (hactive : s.flt.active = none) : exec (.recoveryEnd b) s = .next s := by
  refine congrArg Host.Outcome.next ((if_neg ?_).trans ?_)
  · rw [hactive, Option.any_none, Bool.and_false]
    exact Bool.false_ne_true
  · rw [endRecovery, hactive]

/-- Settles O60: with no op in the device, a fault is the stop of its unit and an entry, and a fence is the mark and its record. -/
theorem faultsAct : Obligations.FaultsAct :=
  ⟨faultDetect_queues, faultDetect_overflows, fun s code kind index sub detail h => congrArg Host.Outcome.next (raiseFault_inDeviceError h code kind index sub detail),
    coreHeartbeatMiss_queues, faultQueueTake_fences, faultQueueTake_recovers, faultQueueTake_waits, recoveryEnd_returns, recoveryEnd_fences, recoveryEnd_unshown,
    recoveryEnd_idle, fun _ _ hd => congrArg Host.Outcome.next (if_neg (Nat.not_lt.mpr hd)), domainPowerGoodLoss_queues⟩

end Sys2Proof.Machine
end

section
/-! How the steps of bring-up end, time out and fence (R410 to R427). -/

namespace Sys2Proof.Machine

open Sys2Proof State

/-! ### The end of the step that runs (R409, R410) -/

/-- A step that has run for `e` ms. -/
def ranFor (e : Nat) (s : State) : State := { s with bu := { s.bu with elapsed := e } }

/-- The end of step `n`, with what it met. -/
def endStep (n : Nat) (obs : StepObs) (s : State) : State :=
  match n with
  | 1 => endPower obs s
  | 2 => endPll obs s
  | 3 => endTrain obs s
  | 4 => endImage obs s
  | 5 => endAuth s
  | 6 => endRelease s
  | 7 => if repairDue s obs.coresBad then s else endConvoy obs.coresBad s
  | 8 => endWarmup obs s
  | 9 => endFactory s
  | 10 => endUserCal s
  | _ => s

theorem bringupStepComplete_eq {s : State} {n : Nat} (h : s.bu.running = n) (hn : n ≠ 0) (ms : Nat) (obs : StepObs) :
    exec (.bringupStepComplete ms obs) s = .next (endStep n obs (ranFor (min ms 0xFFFF) s)) := by
  change execBringupStepComplete ms obs s = _
  unfold execBringupStepComplete
  rw [if_neg (by omega)]
  generalize min ms 0xFFFF = e
  subst h
  rfl

/-- What holds of every end of step `n`, whatever the time, holds of its completion. -/
theorem stepComplete_of {s : State} {n : Nat} (h : s.bu.running = n) (hn : n ≠ 0) (ms : Nat) (obs : StepObs) {P : State → Prop}
    (hend : ∀ e, P (endStep n obs (ranFor e s))) : Completes (.bringupStepComplete ms obs) s P :=
  ⟨_, bringupStepComplete_eq h hn ms obs, hend _⟩

theorem bringup_idle (s : State) (ms : Nat) (obs : StepObs) (h : s.bu.running = 0) :
    exec (.bringupStepComplete ms obs) s = .next s ∧ exec .bringupStepTimeout s = .next s := by
  constructor
  · change execBringupStepComplete ms obs s = _
    unfold execBringupStepComplete
    simp only [h, if_true]
  · change execBringupStepTimeout s = _
    unfold execBringupStepTimeout
    simp only [h, if_true]

/-! ### Power and clocks (R411, R412) -/

theorem foldl_stays {σ α : Type} {f : σ → α → σ} {s : σ} : ∀ l : List α, (∀ a, a ∈ l → f s a = s) → l.foldl f s = s
  | [], _ => rfl
  | a :: l, h => by rw [List.foldl_cons, h a List.mem_cons_self, foldl_stays l (fun b hb => h b (List.mem_cons_of_mem a hb))]

/-- The groups after the first, when none of them is enabled. -/
theorem powerGroups_rest {s : State} (good : BitVec 10) (hen : s.bu.en = 1 ∨ s.bu.en = 0) : [1, 2, 3, 4, 5, 6, 7, 8, 9].foldl (powerGroup good) s = s := by
  refine foldl_stays _ fun g hg => if_pos (.inr ?_)
  have h1 : ∀ g, g ∈ [1, 2, 3, 4, 5, 6, 7, 8, 9] → (!(1 : BitVec 10).getLsbD g) = true := by decide
  rcases hen with h | h
  · rw [h]
    exact h1 g hg
  · rw [h]
    simp

theorem powerGroups_first (good : BitVec 10) (s : State) :
    (List.range 10).foldl (powerGroup good) s = [1, 2, 3, 4, 5, 6, 7, 8, 9].foldl (powerGroup good) (powerGroup good s 0) := rfl

section
variable {s : State} (ms : Nat) (obs : StepObs)

theorem powerStep_completes (hrun : s.bu.running = 1) (hstate : s.bu.state = 1) (hon : s.bu.on = 0) (hen : s.bu.en = 1) (hgood : obs.good.getLsbD 0 = true) :
    Completes (.bringupStepComplete ms obs) s (fun t => t.bu.on = 1 ∧ t.bu.step = max 1 s.bu.step ∧ t.bu.state = 0 ∧ t.bu.running = 0 ∧
      (∀ d, d ∈ groupDomains 0 → d ∈ t.pwr.on)) := by
  refine stepComplete_of hrun (by decide) ms obs fun e => ?_
  obtain ⟨u, hu⟩ : ∃ u, u = powerOn (groupDomains 0) { ranFor e s with bu := { (ranFor e s).bu with on := s.bu.on ||| BitVec.twoPow 10 0 } } := ⟨_, rfl⟩
  have hfirst : powerGroup obs.good (ranFor e s) 0 = u := by
    have hoff : ¬ (s.bu.on.getLsbD 0 = true ∨ (!s.bu.en.getLsbD 0) = true) := by rw [hon, hen]; decide
    rw [hu]
    exact (if_neg hoff).trans ((if_neg (by omega)).trans (if_pos hgood))
  have huen : u.bu.en = 1 := by rw [hu]; exact hen
  have hustate : u.bu.state = 1 := by rw [hu]; exact hstate
  have hend : endStep 1 obs (ranFor e s) = stepDone 1 false u := by
    change endPower obs (ranFor e s) = _
    unfold endPower
    rw [powerGroups_first, hfirst, powerGroups_rest obs.good (.inl huen)]
    exact if_neg (by rw [hustate]; decide)
  rw [hend, hu]
  refine ⟨?_, rfl, rfl, rfl, fun d hd => ?_⟩
  · change s.bu.on ||| BitVec.twoPow 10 0 = 1
    rw [hon]
    decide
  · refine List.mem_filter.mpr ⟨?_, by rw [List.contains_iff_mem.mpr hd, Bool.or_true]⟩
    have hrange : ∀ d, d ∈ groupDomains 0 → d < 224 := by decide
    exact List.mem_range.mpr (hrange d hd)

theorem powerStep_fails (hrun : s.bu.running = 1) (hstate : s.bu.state = 1) (hon : s.bu.on = 0) (hen : s.bu.en = 1) (hbad : obs.good.getLsbD 0 = false) :
    Completes (.bringupStepComplete ms obs) s (fun t => t.bu.on = 0 ∧ t.bu.en = 0 ∧ t.bu.state = 2 ∧ t.bu.fltCode = buSupply ∧ t.bu.fltDetail = 0 ∧ t.bu.step = s.bu.step) := by
  refine stepComplete_of hrun (by decide) ms obs fun e => ?_
  obtain ⟨x, hx⟩ : ∃ x : State, x = { ranFor e s with bu := { (ranFor e s).bu with en := s.bu.en &&& ~~~(BitVec.twoPow 10 0) } } := ⟨_, rfl⟩
  obtain ⟨h, b, w, hfail⟩ := stepFail_frame 1 buSupply 0 x
  have hxen : x.bu.en = 0 := by
    rw [hx]
    change s.bu.en &&& ~~~(BitVec.twoPow 10 0) = 0
    rw [hen]
    decide
  have hfirst : powerGroup obs.good (ranFor e s) 0 = stepFail 1 buSupply 0 x := by
    have hoff : ¬ (s.bu.on.getLsbD 0 = true ∨ (!s.bu.en.getLsbD 0) = true) := by rw [hon, hen]; decide
    rw [hx]
    exact (if_neg hoff).trans ((if_neg (by omega)).trans (if_neg (by rw [hbad]; exact Bool.false_ne_true)))
  have hend : endStep 1 obs (ranFor e s) = stepFail 1 buSupply 0 x := by
    change endPower obs (ranFor e s) = _
    unfold endPower
    rw [powerGroups_first, hfirst, powerGroups_rest obs.good (.inr (by rw [hfail]; exact hxen))]
    exact if_pos (by rw [hfail])
  rw [hend, hfail]
  refine ⟨?_, hxen, rfl, rfl, rfl, ?_⟩
  · rw [hx]
    exact hon
  · rw [hx]
    rfl

theorem pllStep_completes (hrun : s.bu.running = 2) (href : s.pins.refclk = true) (hplls : obs.plls = BitVec.allOnes 5) :
    Completes (.bringupStepComplete ms obs) s (fun t => t.bu.step = max 2 s.bu.step ∧ t.bu.pllLock = BitVec.allOnes 5 ∧
      t.tim = { s.tim with counting := true, beat := 0, t := 0 }) := by
  refine stepComplete_of hrun (by decide) ms obs fun e => ?_
  have hall : (List.range 5).find? (fun i => !(BitVec.allOnes 5).getLsbD i) = none := by decide
  change (endPll obs (ranFor e s)).bu.step = _ ∧ (endPll obs (ranFor e s)).bu.pllLock = _ ∧ (endPll obs (ranFor e s)).tim = _
  unfold endPll
  rw [if_neg (by rw [show (ranFor e s).pins.refclk = true from href]; decide), hplls, hall]
  exact ⟨rfl, rfl, rfl⟩

theorem pllStep_fails (hrun : s.bu.running = 2) (href : s.pins.refclk = true) (hplls : obs.plls = 0) :
    Completes (.bringupStepComplete ms obs) s (fun t => t.bu.state = 2 ∧ t.bu.fltCode = buPll ∧ t.bu.fltDetail = 8 ∧ t.tim = s.tim) := by
  refine stepComplete_of hrun (by decide) ms obs fun e => ?_
  have hfirst : (List.range 5).find? (fun i => !(0 : BitVec 5).getLsbD i) = some 0 := by decide
  have hend : endStep 2 obs (ranFor e s) = stepFail 2 buPll 8 { ranFor e s with bu := { (ranFor e s).bu with pllLock := 0 } } := by
    change endPll obs (ranFor e s) = _
    unfold endPll
    rw [if_neg (by rw [show (ranFor e s).pins.refclk = true from href]; decide), hplls, hfirst]
  obtain ⟨_, _, _, hfail⟩ := stepFail_frame 2 buPll 8 { ranFor e s with bu := { (ranFor e s).bu with pllLock := 0 } }
  rw [hend, hfail]
  exact ⟨rfl, rfl, rfl, rfl⟩

/-! ### Memory training (R413) -/

theorem serveUnits_frame (l : List Nat) (s : State) : ∃ u, l.foldl (fun s n => serveUnit obs n s) s = { s with units := u } :=
  foldl_inv (fun t : State => ∃ u, t = { s with units := u }) _ (fun t n ht => by obtain ⟨_, rfl⟩ := ht; exact ⟨_, rfl⟩) l s ⟨_, rfl⟩

theorem serveUnit_serves (u : Nat) (s : State) : ((serveUnit obs u s).unit u).state = 1 := by
  rw [serveUnit, unit_modUnit, if_pos rfl]

theorem serveUnits_serves {l : List Nat} {n : Nat} (hn : n ∈ l) (s : State) : ((l.foldl (fun s n => serveUnit obs n s) s).unit n).state = 1 := by
  refine foldl_reaches (I := fun _ => True) (Q := fun t : State => (t.unit n).state = 1) hn (fun _ _ _ => trivial) (fun t _ => serveUnit_serves obs n t) (fun t m ht => ?_) s trivial
  rw [serveUnit, unit_modUnit]
  split
  · rfl
  · exact ht

theorem ddrWanted_none {s : State} (h : s.bu.ddrSel = 0) : ddrWanted s = [] := by
  unfold ddrWanted
  rw [h]
  split <;> rfl

theorem trainStep_completes (n : Nat) (hrun : s.bu.running = 3) (hsel : s.bu.hbmSel = BitVec.allOnes 12) (hddr : s.bu.ddrSel = 0) (hobs : obs.hbm = BitVec.allOnes 12) (hn : n < 12)
    (hstate : ∀ u, u < 12 → (s.unit u).state = 0) :
    Completes (.bringupStepComplete ms obs) s (fun t => (t.unit n).state = 1 ∧ t.bu.hbmOk = BitVec.allOnes 12 ∧ t.bu.step = max 3 s.bu.step) := by
  refine stepComplete_of hrun (by decide) ms obs fun e => ?_
  have hs : (maskList 12 (ranFor e s).bu.hbmSel.toNat).filter (fun n => ((ranFor e s).unit n).state != 1) = List.range 12 := by
    have hall : maskList 12 (BitVec.allOnes 12).toNat = List.range 12 := by decide
    rw [show (ranFor e s).bu.hbmSel = BitVec.allOnes 12 from hsel, hall, List.filter_eq_self]
    intro u hu
    rw [show (ranFor e s).unit u = s.unit u from rfl, hstate u (List.mem_range.mp hu)]
    rfl
  have hgood : ∀ u, u ∈ List.range 12 → (BitVec.allOnes 12).getLsbD u = true := by decide
  have hbad : (List.range 12).filter (fun n => !obs.hbm.getLsbD n) = [] := by
    rw [List.filter_eq_nil_iff, hobs]
    exact fun u hu => by rw [hgood u hu]; decide
  have hok : (List.range 12).filter (fun n => obs.hbm.getLsbD n) = List.range 12 := by
    rw [List.filter_eq_self, hobs]
    exact hgood
  obtain ⟨u, hu⟩ : ∃ u, u = (List.range 12).foldl (fun s n => serveUnit obs n s) (ranFor e s) := ⟨_, rfl⟩
  have hend : endStep 3 obs (ranFor e s) = stepDone 3 false (formWindows u.net.parts { u with
      bu := { u.bu with hbmOk := BitVec.ofNat 12 (listMask 12 ((List.range 12).filter (fun n => (u.unit n).state == 1))), ddrOk := BitVec.ofNat 12 (listMask 12 []) }
      memTop := { u.memTop with ddrC := [], ddrD := 0 } }) := by
    change endTrain obs (ranFor e s) = _
    unfold endTrain
    rw [hs]
    refine (if_neg (fun h => nomatch h.1.trans hbad)).trans ?_
    rw [hbad, hok, ddrWanted_none (s := ranFor e s) hddr]
    dsimp only [List.foldl_nil, List.filter_nil]
    rw [← hu]
    rfl
  have hserved : ∀ m, m ∈ List.range 12 → (u.unit m).state = 1 := by
    rw [hu]
    exact fun m hm => serveUnits_serves obs hm _
  have hmask : (List.range 12).filter (fun n => (u.unit n).state == 1) = List.range 12 := by
    rw [List.filter_eq_self]
    exact fun m hm => beq_iff_eq.mpr (hserved m hm)
  have hbu : u.bu = (ranFor e s).bu := by
    obtain ⟨_, h⟩ := serveUnits_frame obs (List.range 12) (ranFor e s)
    rw [hu, h]
  rw [hend, hmask]
  refine ⟨hserved n (List.mem_range.mpr hn), ?_, ?_⟩
  · change BitVec.ofNat 12 (listMask 12 (List.range 12)) = BitVec.allOnes 12
    decide
  · change max 3 u.bu.step = max 3 s.bu.step
    rw [hbu]
    rfl

theorem trainStep_fails (hrun : s.bu.running = 3) (hobs : obs.hbm = 0) (hnone : s.bu.hbmOk = 0) :
    Completes (.bringupStepComplete ms obs) s (fun t => t.bu.state = 2 ∧ t.bu.fltCode = buNoHbm ∧ t.bu.step = s.bu.step) := by
  refine stepComplete_of hrun (by decide) ms obs fun e => ?_
  obtain ⟨hs, hhs⟩ : ∃ l, l = (maskList 12 (ranFor e s).bu.hbmSel.toNat).filter (fun n => ((ranFor e s).unit n).state != 1) := ⟨_, rfl⟩
  obtain ⟨u, hu⟩ : ∃ u, u = hs.foldl (fun s n => buFault 3 buHbmTrain n s) (ranFor e s) := ⟨_, rfl⟩
  have hbad : hs.filter (fun n => !obs.hbm.getLsbD n) = hs := by
    rw [List.filter_eq_self, hobs]
    exact fun n _ => by simp
  have hkept : u.bu.hbmOk = s.bu.hbmOk ∧ u.bu.step = s.bu.step := by
    rw [hu]
    refine foldl_inv (fun t : State => t.bu.hbmOk = s.bu.hbmOk ∧ t.bu.step = s.bu.step) _ (fun t n ht => ?_) hs (ranFor e s) ⟨rfl, rfl⟩
    obtain ⟨_, _, _, h⟩ := buFault_frame 3 buHbmTrain n t
    rw [h]
    exact ht
  have hend : endStep 3 obs (ranFor e s) = stepFail 3 buNoHbm 0 u := by
    change endTrain obs (ranFor e s) = _
    unfold endTrain
    rw [← hhs]
    rw [hu] at hkept ⊢
    refine (if_pos ⟨hbad.symm, ?_⟩).trans ?_
    · rw [hbad]
    · rw [hbad]
      exact hkept.1.trans hnone
  obtain ⟨_, _, _, hfail⟩ := stepFail_frame 3 buNoHbm 0 u
  rw [hend, hfail]
  exact ⟨rfl, rfl, hkept.2⟩

/-! ### The image (R415, R416) -/

theorem imageStep_completes (hrun : s.bu.running = 4) (haddr : s.bu.imgAddr ≠ 0) (hread : obs.readError = false)
    (hgood : imageBad obs.image (some s.bu.imgLen.toNat) = none) :
    Completes (.bringupStepComplete ms obs) s (fun t => t.bu.image = obs.image ∧ t.bu.authentic = false ∧ t.bu.step = max 4 s.bu.step ∧ t.bu.state = 0) := by
  refine stepComplete_of hrun (by decide) ms obs fun e => ?_
  have hend : endStep 4 obs (ranFor e s) = stepDone 4 false { ranFor e s with bu := { (ranFor e s).bu with
      image := obs.image, ecdsaOk := false, lmsOk := false, chainOk := false, svnOk := false, authentic := false } } := by
    change endImage obs (ranFor e s) = _
    unfold endImage
    rw [hread, bne_iff_ne.mpr (show (ranFor e s).bu.imgAddr ≠ 0 from haddr)]
    dsimp only
    rw [if_pos rfl, if_pos rfl, show (ranFor e s).bu.imgLen = s.bu.imgLen from rfl, hgood]
    rfl
  rw [hend]
  exact ⟨rfl, rfl, rfl, rfl⟩

theorem imageStep_fails (off : Nat) (hrun : s.bu.running = 4) (haddr : s.bu.imgAddr ≠ 0) (hread : obs.readError = false)
    (hbad : imageBad obs.image (some s.bu.imgLen.toNat) = some off) :
    Completes (.bringupStepComplete ms obs) s (fun t => t.bu.image = s.bu.image ∧ t.bu.fltCode = buImgFormat ∧ t.bu.fltDetail = off ∧ t.bu.state = 2) := by
  refine stepComplete_of hrun (by decide) ms obs fun e => ?_
  have hend : endStep 4 obs (ranFor e s) = stepFail 4 buImgFormat off (ranFor e s) := by
    change endImage obs (ranFor e s) = _
    unfold endImage
    rw [hread, bne_iff_ne.mpr (show (ranFor e s).bu.imgAddr ≠ 0 from haddr)]
    dsimp only
    rw [if_pos rfl, if_pos rfl, show (ranFor e s).bu.imgLen = s.bu.imgLen from rfl, hbad]
    rfl
  obtain ⟨_, _, _, hfail⟩ := stepFail_frame 4 buImgFormat off (ranFor e s)
  rw [hend, hfail]
  exact ⟨rfl, rfl, rfl, rfl⟩

/-- The device as the verification of the image leaves it, before the step ends. -/
def imageVerdict (s : State) : State :=
  let r := authOf s 1 s.bu.image (bytesAt s.bu.image 40 4)
  { s with bu := { s.bu with
    ecdsaOk := r.ecdsa, lmsOk := r.lms, chainOk := r.chain, svnOk := r.svn, authentic := r.reason == 0, reason := r.reason
    attempts := if r.reason == 0 then s.bu.attempts else s.bu.attempts + 1 } }

theorem endAuth_passes {s : State} (h : (authOf s 1 s.bu.image (bytesAt s.bu.image 40 4)).reason = 0) :
    endAuth s = stepDone 5 false (extendMeas 3 (coreDigest s.bu.image) (extendMeas 2 (digestOf s.bu.image) (imageVerdict s))) :=
  if_pos (beq_iff_eq.mpr h)

theorem endAuth_fails {s : State} (h : (authOf s 1 s.bu.image (bytesAt s.bu.image 40 4)).reason ≠ 0) : endAuth s =
    if 4 ≤ (stepFail 5 buAuth (authOf s 1 s.bu.image (bytesAt s.bu.image 40 4)).reason (imageVerdict s)).bu.attempts then
      let t := stepFail 5 buLockout 0 (stepFail 5 buAuth (authOf s 1 s.bu.image (bytesAt s.bu.image 40 4)).reason (imageVerdict s))
      { t with bu := { t.bu with state := 3, lockout := true } }
    else stepFail 5 buAuth (authOf s 1 s.bu.image (bytesAt s.bu.image 40 4)).reason (imageVerdict s) :=
  if_neg (by rw [beq_iff_eq]; exact h)

theorem authOf_ranFor (e : Nat) (s : State) (ty : Nat) (obj : List Byte) (svn : Nat) : authOf (ranFor e s) ty obj svn = authOf s ty obj svn := rfl

theorem imageVerdict_attempts {s : State} (h : (authOf s 1 s.bu.image (bytesAt s.bu.image 40 4)).reason ≠ 0) : (imageVerdict s).bu.attempts = s.bu.attempts + 1 :=
  if_neg (by rw [beq_iff_eq]; exact h)

theorem authStep_ends (hrun : s.bu.running = 5) (hattempts : s.bu.attempts < 3) :
    Completes (.bringupStepComplete ms obs) s (fun t => t.bu.authentic = ((authOf s 1 s.bu.image (bytesAt s.bu.image 40 4)).reason == 0) ∧
      if (authOf s 1 s.bu.image (bytesAt s.bu.image 40 4)).reason = 0 then t.bu.step = max 5 s.bu.step ∧ t.bu.attempts = s.bu.attempts
      else t.bu.step = s.bu.step ∧ t.bu.attempts = s.bu.attempts + 1 ∧ t.bu.fltCode = buAuth ∧ t.bu.state = 2) := by
  refine stepComplete_of hrun (by decide) ms obs fun e => ?_
  by_cases h : (authOf s 1 s.bu.image (bytesAt s.bu.image 40 4)).reason = 0
  · have hend : endStep 5 obs (ranFor e s) = stepDone 5 false (extendMeas 3 (coreDigest s.bu.image) (extendMeas 2 (digestOf s.bu.image) (imageVerdict (ranFor e s)))) :=
      endAuth_passes (s := ranFor e s) h
    rw [hend, if_pos h]
    exact ⟨rfl, rfl, if_pos (beq_iff_eq.mpr h)⟩
  · obtain ⟨_, _, _, hfail⟩ := stepFail_frame 5 buAuth (authOf s 1 s.bu.image (bytesAt s.bu.image 40 4)).reason (imageVerdict (ranFor e s))
    have hcount : (imageVerdict (ranFor e s)).bu.attempts = s.bu.attempts + 1 := imageVerdict_attempts (s := ranFor e s) h
    have hend : endStep 5 obs (ranFor e s) = stepFail 5 buAuth (authOf s 1 s.bu.image (bytesAt s.bu.image 40 4)).reason (imageVerdict (ranFor e s)) :=
      (endAuth_fails (s := ranFor e s) h).trans (if_neg (by
        change ¬ 4 ≤ (stepFail 5 buAuth (authOf s 1 s.bu.image (bytesAt s.bu.image 40 4)).reason (imageVerdict (ranFor e s))).bu.attempts
        rw [hfail]
        dsimp only
        omega))
    rw [hend, if_neg h, hfail]
    exact ⟨rfl, rfl, hcount, rfl, rfl⟩

theorem authStep_locks (hrun : s.bu.running = 5) (hattempts : s.bu.attempts = 3) :
    Completes (.bringupStepComplete ms obs) s (fun t => (authOf s 1 s.bu.image (bytesAt s.bu.image 40 4)).reason ≠ 0 → t.bu.state = 3 ∧ t.bu.lockout = true ∧
      t.bu.fltCode = buLockout) := by
  refine stepComplete_of hrun (by decide) ms obs fun e h => ?_
  obtain ⟨v, hv⟩ : ∃ v, v = stepFail 5 buAuth (authOf s 1 s.bu.image (bytesAt s.bu.image 40 4)).reason (imageVerdict (ranFor e s)) := ⟨_, rfl⟩
  have hcount : v.bu.attempts = s.bu.attempts + 1 := by
    obtain ⟨_, _, _, hfail⟩ := stepFail_frame 5 buAuth (authOf s 1 s.bu.image (bytesAt s.bu.image 40 4)).reason (imageVerdict (ranFor e s))
    rw [hv, hfail]
    exact imageVerdict_attempts (s := ranFor e s) h
  have hend : endStep 5 obs (ranFor e s) = { stepFail 5 buLockout 0 v with bu := { (stepFail 5 buLockout 0 v).bu with state := 3, lockout := true } } := by
    have hfour : 4 ≤ v.bu.attempts := by omega
    rw [hv] at hfour ⊢
    exact (endAuth_fails (s := ranFor e s) h).trans (if_pos hfour)
  obtain ⟨_, _, _, hfail⟩ := stepFail_frame 5 buLockout 0 v
  rw [hend, hfail]
  exact ⟨rfl, rfl, rfl⟩

/-! ### Release (R417) -/

theorem msix_ready (v : Nat) (s : State) : (msix v s).stw.ready = s.stw.ready := by
  unfold msix
  split
  · split <;> rfl
  · rfl

theorem eventTo_ready (code : Nat) (items : List Byte) (s : State) (m : Nat) : (eventTo code items s m).stw.ready = s.stw.ready := by
  unfold eventTo
  dsimp only
  split
  · rfl
  · split
    · rfl
    · split
      · exact msix_ready _ _
      · rfl

theorem post_ready (code : Nat) (items : List Byte) (s : State) : (post code items s).stw.ready = s.stw.ready := by
  unfold post
  split
  · rfl
  · exact foldl_keep (fun t : State => t.stw.ready) _ (eventTo_ready code items) _ s

/-- The steward ready, its watchdog set (R417). -/
def stewardReady (s : State) : State :=
  { s with stw := { s.stw with ready := true, watchdogMs := if Config.watchdog = 0 then 100 else min 10000 Config.watchdog } }

/-- The stored tokens that are not valid reported (R481). -/
def tokensReported (s : State) : State :=
  ((List.range 16).filter (fun i => tget [] (stewardReady s).sec.tokens i != [] && !tokenValid (stewardReady s) (tget [] (stewardReady s).sec.tokens i))).foldl
    (fun s i => raiseAlert 4 (post 0x0A01 (leBytes 1 i) s)) (stewardReady s)

theorem endRelease_eq (s : State) : endRelease s = stepDone 6 false
    (if 32768 - (tokensReported s).sec.leaf < 1024 then post 0x0A04 [] (tokensReported s) else tokensReported s) := rfl

theorem tokensReported_keeps (s : State) : (tokensReported s).stw.ready = true ∧ (tokensReported s).bu = s.bu := by
  refine foldl_inv (fun t : State => t.stw.ready = true ∧ t.bu = s.bu) _ (fun t i ht => ⟨?_, ?_⟩) _ (stewardReady s) ⟨rfl, rfl⟩
  · exact (post_ready _ _ t).trans ht.1
  · exact (post_bu _ _ t).trans ht.2

theorem releaseStep_completes (hrun : s.bu.running = 6) : Completes (.bringupStepComplete ms obs) s (fun t => t.stw.ready = true ∧ t.bu.step = max 6 s.bu.step) := by
  refine stepComplete_of hrun (by decide) ms obs fun e => ?_
  obtain ⟨hready, hbu⟩ := tokensReported_keeps (ranFor e s)
  have hstep : ∀ t : State, t.bu = (ranFor e s).bu → (stepDone 6 false t).bu.step = max 6 s.bu.step := fun t ht => by
    change max 6 t.bu.step = max 6 s.bu.step
    rw [ht]
    rfl
  rw [show endStep 6 obs (ranFor e s) = _ from endRelease_eq (ranFor e s)]
  split
  · exact ⟨(post_ready _ _ _).trans hready, hstep _ ((post_bu _ _ _).trans hbu)⟩
  · exact ⟨hready, hstep _ hbu⟩

/-! ### The convoy (R418 to R422) -/

theorem repairDue_ranFor (e : Nat) (s : State) (l : List Nat) : repairDue (ranFor e s) l = repairDue s l := rfl

/-- The cores that the end of step 7 fences. -/
def convoyMissing (coresBad : List Nat) (s : State) : List Nat := (List.range 2048).filter (fun c => !(s.coreOf c).verified || coresBad.contains c)

/-- The device with the cores of `l` fenced, before step 7 ends or fails. -/
def convoyFenced (l : List Nat) (s : State) : State :=
  let t := l.foldl (fun (s : State) c => (bootFence 3 (c / 64) (c % 64) s).modCoreOf c (fun x => { x with verified := false })) s
  { t with
    cores := tmap {} t.cores (fun _ x => { x with chunks := [] })
    bu := { t.bu with cvPhase := 3, cvFenced := l.length, cvOver := decide (64 < l.length) } }

theorem convoyFenced_bu (l : List Nat) (s : State) :
    (convoyFenced l s).bu = { s.bu with cvPhase := 3, cvFenced := l.length, cvOver := decide (64 < l.length) } := by
  have hcore : ∀ (t : State) (c : Nat), ((bootFence 3 (c / 64) (c % 64) t).modCoreOf c (fun x => { x with verified := false })).bu = t.bu := by
    intro t c
    rw [modCoreOf_bu]
    rfl
  have hbu := foldl_keep (fun t : State => t.bu) (fun (s : State) c => (bootFence 3 (c / 64) (c % 64) s).modCoreOf c (fun x => { x with verified := false })) hcore l s
  unfold convoyFenced
  dsimp only
  rw [hbu]

theorem endConvoy_eq (coresBad : List Nat) (s : State) : endConvoy coresBad s =
    if (convoyMissing coresBad s).length = 2048 then stepFail 7 buConvoyFailed 0 (convoyFenced (convoyMissing coresBad s) s)
    else if 64 < (convoyMissing coresBad s).length then
      stepFail 7 buConvoyDegraded (convoyMissing coresBad s).length { convoyFenced (convoyMissing coresBad s) s with
        bu := { (convoyFenced (convoyMissing coresBad s) s).bu with degraded := true } }
    else stepDone 7 (decide (0 < (convoyMissing coresBad s).length)) (convoyFenced (convoyMissing coresBad s) s) := by
  unfold endConvoy convoyMissing
  generalize (List.range 2048).filter (fun c => !(s.coreOf c).verified || coresBad.contains c) = l
  rfl

theorem convoyStep_completes (hrun : s.bu.running = 7) (hcores : ∀ c, c < 2048 → (s.coreOf c).verified = true) (hreport : obs.coresBad = []) (hrepair : repairDue s [] = false) :
    Completes (.bringupStepComplete ms obs) s (fun t => t.bu.step = max 7 s.bu.step ∧ t.bu.state = 0 ∧ t.bu.cvFenced = 0 ∧ t.bu.cvPhase = 3 ∧ t.bu.degraded = s.bu.degraded) := by
  refine stepComplete_of hrun (by decide) ms obs fun e => ?_
  have hnone : convoyMissing [] (ranFor e s) = [] := by
    rw [convoyMissing, List.filter_eq_nil_iff]
    intro c hc
    rw [show (ranFor e s).coreOf c = s.coreOf c from rfl, hcores c (List.mem_range.mp hc)]
    exact Bool.false_ne_true
  have hend : endStep 7 obs (ranFor e s) = stepDone 7 false (convoyFenced [] (ranFor e s)) := by
    change (if repairDue (ranFor e s) obs.coresBad then ranFor e s else endConvoy obs.coresBad (ranFor e s)) = _
    rw [repairDue_ranFor, hreport, hrepair, if_neg Bool.false_ne_true, endConvoy_eq, hnone]
    rfl
  rw [hend]
  exact ⟨rfl, rfl, rfl, rfl, Bool.or_false _⟩

theorem convoyStep_fails (hrun : s.bu.running = 7) (hcores : ∀ c, c < 2048 → (s.coreOf c).verified = false) (hrepair : repairDue s obs.coresBad = false) :
    Completes (.bringupStepComplete ms obs) s (fun t => t.bu.step = s.bu.step ∧ t.bu.state = 2 ∧ t.bu.fltCode = buConvoyFailed ∧ t.bu.cvFenced = 2048) := by
  refine stepComplete_of hrun (by decide) ms obs fun e => ?_
  have hall : convoyMissing obs.coresBad (ranFor e s) = List.range 2048 := by
    rw [convoyMissing, List.filter_eq_self]
    intro c hc
    rw [show (ranFor e s).coreOf c = s.coreOf c from rfl, hcores c (List.mem_range.mp hc)]
    rfl
  have hlength : (convoyMissing obs.coresBad (ranFor e s)).length = 2048 := by rw [hall, List.length_range]
  have hend : endStep 7 obs (ranFor e s) = stepFail 7 buConvoyFailed 0 (convoyFenced (convoyMissing obs.coresBad (ranFor e s)) (ranFor e s)) := by
    change (if repairDue (ranFor e s) obs.coresBad then ranFor e s else endConvoy obs.coresBad (ranFor e s)) = _
    rw [repairDue_ranFor, hrepair, if_neg Bool.false_ne_true, endConvoy_eq, if_pos hlength]
  obtain ⟨_, _, _, hfail⟩ := stepFail_frame 7 buConvoyFailed 0 (convoyFenced (convoyMissing obs.coresBad (ranFor e s)) (ranFor e s))
  rw [hend, hfail, convoyFenced_bu, hlength]
  exact ⟨rfl, rfl, rfl, rfl⟩

theorem convoyStep_repairs (hrun : s.bu.running = 7) (hrepair : repairDue s obs.coresBad = true) :
    exec (.bringupStepComplete ms obs) s = .next { s with bu := { s.bu with elapsed := min ms 0xFFFF } } := by
  refine (bringupStepComplete_eq hrun (by decide) ms obs).trans (congrArg Host.Outcome.next ?_)
  generalize min ms 0xFFFF = e
  exact if_pos hrepair

/-! ### Warm-up and the factory's calibration (R423 to R425) -/

theorem lightCheck_bright {s : State} {n : Nat} (h : ∀ g, g < 4 → 1500 ≤ (s.lcol (4 * n + g)).power) : lightCheck s n = s := by
  have hdark : (List.range 4).filter (fun g => decide ((s.lcol (4 * n + g)).power < 1500)) = [] := by
    rw [List.filter_eq_nil_iff]
    intro g hg
    simpa using h g (List.mem_range.mp hg)
  exact if_pos hdark

theorem mem_liveFields {s : State} {f : Nat} : f ∈ liveFields s ↔ f < 32 ∧ (s.field f).fenced = false := by
  rw [liveFields, List.mem_filter, List.mem_range, Bool.not_eq_true']

theorem warmupStep_completes (hrun : s.bu.running = 8) (hfields : obs.fieldsOk = BitVec.allOnes 32) (hbands : obs.bandsBad = [])
    (hpower : ∀ i, i < 32 → 1500 ≤ (s.lcol i).power) (hlive : ∃ f, f < 32 ∧ (s.field f).fenced = false) :
    Completes (.bringupStepComplete ms obs) s (fun t => t.bu.step = max 8 s.bu.step ∧ t.bu.state = 0 ∧
      ∀ f, f < 32 → (s.field f).fenced = false → (t.field f).tlLocked = true) := by
  refine stepComplete_of hrun (by decide) ms obs fun e => ?_
  have hlight : (List.range 8).foldl lightCheck (ranFor e s) = ranFor e s :=
    foldl_stays _ fun n hn => lightCheck_bright fun g hg => hpower (4 * n + g) (by rw [List.mem_range] at hn; omega)
  have hfail : (liveFields (ranFor e s)).filter (fun f => !obs.fieldsOk.getLsbD f) = [] := by
    rw [List.filter_eq_nil_iff, hfields]
    intro f hf
    rw [BitVec.getLsbD_allOnes, decide_eq_true (mem_liveFields.mp hf).1]
    decide
  obtain ⟨u, hu⟩ : ∃ u, u = (liveFields (ranFor e s)).foldl (fun (s : State) f => s.modField f (fun x => { x with tlLocked := true })) (ranFor e s) := ⟨_, rfl⟩
  have hnodup : (liveFields (ranFor e s)).Nodup := List.Pairwise.filter _ List.nodup_range
  have hfield : ∀ f, u.field f = if f ∈ liveFields (ranFor e s) then { s.field f with tlLocked := true } else s.field f := by
    rw [hu]
    exact foldl_modField hnodup (fun x => { x with tlLocked := true }) (ranFor e s)
  have hsome : liveFields u ≠ [] := by
    obtain ⟨f, hf, hopen⟩ := hlive
    refine List.ne_nil_of_mem (mem_liveFields.mpr ⟨hf, ?_⟩)
    rw [hfield]
    split <;> exact hopen
  have hend : endStep 8 obs (ranFor e s) = stepDone 8 false u := by
    change endWarmup obs (ranFor e s) = _
    unfold endWarmup
    rw [hlight, hbands]
    dsimp only [List.filter_nil, List.foldl_nil]
    rw [hfail]
    dsimp only [List.foldl_nil]
    refine (if_neg ?_).trans ?_
    · rw [← hu]
      exact hsome
    · rw [← hu]
  have hbu : u.bu = (ranFor e s).bu := by
    obtain ⟨_, h⟩ := foldl_modField_frame (fun x => { x with tlLocked := true }) (liveFields (ranFor e s)) (ranFor e s)
    rw [hu, h]
  rw [hend]
  refine ⟨?_, rfl, fun f hf hopen => ?_⟩
  · change max 8 u.bu.step = max 8 s.bu.step
    rw [hbu]
    rfl
  · change (u.field f).tlLocked = true
    rw [hfield, if_pos ((mem_liveFields (s := ranFor e s)).mpr ⟨hf, hopen⟩)]

theorem loadValue_frame (s : State) (k : Nat) : ∃ l a, loadValue s k = { s with loops := l, adcs := a } := by
  unfold loadValue
  dsimp only
  split <;> exact ⟨_, _, rfl⟩

theorem loadValues_frame (l : List Nat) (s : State) : ∃ x a, l.foldl loadValue s = { s with loops := x, adcs := a } := by
  refine foldl_inv (fun t : State => ∃ x a, t = { s with loops := x, adcs := a }) _ (fun t k ht => ?_) l s ⟨_, _, rfl⟩
  obtain ⟨_, _, rfl⟩ := ht
  obtain ⟨_, _, h⟩ := loadValue_frame { s with loops := _, adcs := _ } k
  exact ⟨_, _, h⟩

/-- The factory's layer alone stands (R425). -/
def factoryLayer (s : State) : State :=
  { s with cal := { s.cal with user := [], factory := (Config.factoryTable s.sec.factoryFlash).foldl (fun (t : Tab Int) (v : Nat × Int) => tset 0 t v.1 (v.2 - calNominal v.1)) [] } }

theorem endFactory_genuine {s : State} (h : (authentic s 3 s.sec.factoryFlash && bytesAt s.sec.factoryFlash 8 8 == s.sec.serial.toNat) = true) :
    (endFactory s).bu.step = max 9 s.bu.step ∧ (endFactory s).cal.user = [] := by
  obtain ⟨_, _, hload⟩ := loadValues_frame ((factoryLayer s).cal.factory.map Prod.fst) (factoryLayer s)
  obtain ⟨u, hu⟩ : ∃ u, u = ((factoryLayer s).cal.factory.map Prod.fst).foldl loadValue (factoryLayer s) := ⟨_, rfl⟩
  have hend : endFactory s = stepDone 9 false (extendMeas 4 (digestOf s.sec.factoryFlash) { u with
      bands := tmap {} u.bands (fun _ b => { b with bandAt := none, cellAt := none }), fields := tmap {} u.fields (fun _ x => { x with rowAt := none }) }) := by
    rw [hu]
    exact if_pos h
  rw [← hu] at hload
  rw [hend, hload]
  exact ⟨rfl, rfl⟩

theorem factoryStep_ends (hrun : s.bu.running = 9) :
    Completes (.bringupStepComplete ms obs) s (fun t =>
      if (authentic s 3 s.sec.factoryFlash && bytesAt s.sec.factoryFlash 8 8 == s.sec.serial.toNat) = true then t.bu.step = max 9 s.bu.step ∧ t.cal.user = []
      else t.bu.step = s.bu.step ∧ t.bu.fltCode = buFactoryCal ∧ t.bu.state = 2 ∧ t.cal = s.cal) := by
  refine stepComplete_of hrun (by decide) ms obs fun e => ?_
  have hsame : authentic (ranFor e s) 3 (ranFor e s).sec.factoryFlash = authentic s 3 s.sec.factoryFlash := rfl
  split
  next h => exact endFactory_genuine (s := ranFor e s) h
  next h =>
    obtain ⟨_, _, _, hfail⟩ := stepFail_frame 9 buFactoryCal 0 (ranFor e s)
    rw [show endStep 9 obs (ranFor e s) = _ from if_neg h, hfail]
    exact ⟨rfl, rfl, rfl, rfl⟩

/-! ### The user's calibration, and the end of bring-up (R426, R427) -/

theorem userStep_completes (hrun : s.bu.running = 10) (hbands : ∀ i, i < 256 → (s.band i).proc = 0 ∧ (s.band i).queue = [] ∧ (s.band i).suspect = false)
    (hlink : s.link.configured = false) :
    Completes (.bringupStepComplete ms obs) s (fun t => t.bu.step = max 10 s.bu.step ∧ t.bu.state = 0 ∧ t.pwr = { s.pwr with state := 0 } ∧
      t.tim = { s.tim with aloneStart := true } ∧ t.cal = { s.cal with scheduled := 0, schedNext := 0 }) := by
  refine stepComplete_of hrun (by decide) ms obs fun e => ?_
  have hidle : (List.range 256).any (fun i => !((ranFor e s).field (i / 8)).fenced && (((ranFor e s).band i).proc != 0 || !((ranFor e s).band i).queue.isEmpty)) = false := by
    refine any_eq_false fun i hi => ?_
    obtain ⟨hproc, hqueue, -⟩ := hbands i (List.mem_range.mp hi)
    rw [show (ranFor e s).band i = s.band i from rfl, hproc, hqueue]
    exact Bool.and_false _
  have hgood : (List.range 256).filter (fun i => !((ranFor e s).field (i / 8)).fenced && ((ranFor e s).band i).suspect && !((ranFor e s).band i).bootFenced) = [] := by
    rw [List.filter_eq_nil_iff]
    intro i hi
    obtain ⟨-, -, hsuspect⟩ := hbands i (List.mem_range.mp hi)
    rw [show (ranFor e s).band i = s.band i from rfl, hsuspect, Bool.and_false, Bool.false_and]
    exact Bool.false_ne_true
  have hend : endStep 10 obs (ranFor e s) = bringupDone (stepDone 10 false (ranFor e s)) := by
    change endUserCal (ranFor e s) = _
    unfold endUserCal
    dsimp only
    rw [hidle, hgood]
    rfl
  have hdone : endStep 10 obs (ranFor e s) = { stepDone 10 false (ranFor e s) with
      pwr := { s.pwr with state := 0 }, cal := { s.cal with scheduled := 0, schedNext := 0 }, tim := { s.tim with aloneStart := true } } :=
    hend.trans (if_neg (fun h => by rw [show (stepDone 10 false (ranFor e s)).link.configured = false from hlink] at h; cases h))
  rw [hdone]
  exact ⟨rfl, rfl, rfl, rfl, rfl⟩

end

/-! ### Limits (R410, R417) -/

theorem stepTimeout_fails (s : State) (n : Nat) (hrun : s.bu.running = n) (hn : n ∈ [1, 2, 3, 4, 5, 8, 9]) :
    Completes .bringupStepTimeout s (fun t => t.bu.state = 2 ∧ t.bu.running = 0 ∧ t.bu.failedStep = n ∧ t.bu.fltStep = n ∧ t.bu.fltCode = buTimeout ∧ t.bu.step = s.bu.step ∧
      t.bu.elapsed = stepLimit n) := by
  have hrange : n ≠ 0 ∧ n ≠ 6 ∧ n ≠ 7 ∧ n ≠ 10 := by
    simp only [List.mem_cons, List.not_mem_nil, or_false] at hn
    omega
  subst hrun
  obtain ⟨h0, h6, h7, h10⟩ := hrange
  obtain ⟨_, _, _, hfail⟩ := stepFail_frame s.bu.running buTimeout 0 (ranFor (stepLimit s.bu.running) s)
  refine ⟨stepFail s.bu.running buTimeout 0 (ranFor (stepLimit s.bu.running) s), ?_, ?_⟩
  · change execBringupStepTimeout s = _
    unfold execBringupStepTimeout
    dsimp only
    rw [if_neg h0, if_neg h0, if_neg h6, if_neg h7, if_neg h10]
    rfl
  · rw [hfail]
    exact ⟨rfl, rfl, rfl, rfl, rfl, rfl, rfl⟩

theorem releaseTimeout_fails (s : State) (hrun : s.bu.running = 6) :
    Completes .bringupStepTimeout s (fun t => t.bu.state = 2 ∧ t.bu.fltCode = buSteward ∧ t.bu.step = s.bu.step) := by
  obtain ⟨_, _, _, hfail⟩ := stepFail_frame 6 buSteward 0 (ranFor (stepLimit s.bu.running) s)
  refine ⟨stepFail 6 buSteward 0 (ranFor (stepLimit s.bu.running) s), ?_, ?_⟩
  · change execBringupStepTimeout s = _
    unfold execBringupStepTimeout
    dsimp only
    have h0 : s.bu.running ≠ 0 := by rw [hrun]; decide
    rw [if_neg h0, if_neg h0, if_pos hrun]
    rfl
  · rw [hfail]
    exact ⟨rfl, rfl, rfl⟩

/-- A field that fails to lock in warm-up, with no op in the device and no entry waiting: its entry passes through the queue to its fence (R424). -/
theorem bootFault_fences {s : State} (code f : Nat) (hops : s.ops = []) (hqueue : s.flt.queue = []) (hin : (s.field f).fenced = false) :
    ((bootFault code 0 f 0 0 s).field f).fenced = true ∧ ((bootFault code 0 f 0 0 s).field f).bootFenced = true ∧ (bootFault code 0 f 0 0 s).bu = s.bu := by
  obtain ⟨e, he⟩ : ∃ e : FaultE, e = { code := code, kind := 0, index := f, beat := s.tim.beat % 2 ^ 32 } := ⟨_, rfl⟩
  obtain ⟨u, hu⟩ : ∃ u, u = enqueueFault e (stopUnit 0 f 0 s) := ⟨_, rfl⟩
  obtain ⟨_, _, _, henter⟩ := enqueueFault_enters (s := stopUnit 0 f 0 s) (e := e) (fun x hx => by rw [show (stopUnit 0 f 0 s).flt.queue = [] from hqueue] at hx; cases hx)
    (by rw [show (stopUnit 0 f 0 s).flt.queue = [] from hqueue]; exact Nat.zero_lt_succ _)
  rw [← hu] at henter
  have huqueue : u.flt.queue = [e] := by
    rw [henter]
    exact congrArg (· ++ [e]) hqueue
  have huops : u.ops = [] := by rw [henter]; exact hops
  have hubu : u.bu = s.bu := by rw [henter]; rfl
  have hhit : sameUnit e.kind e.index e.sub 0 f 0 = true := by rw [he]; simp [sameUnit]
  obtain ⟨hfenced, -, -, -, hbu⟩ := closeFenced_field (s := { u with flt := { u.flt with queue := [] } }) (e := e) huops rfl (by rw [he])
  obtain ⟨v, hv⟩ : ∃ v, v = closeFenced e { u with flt := { u.flt with queue := [] } } := ⟨_, rfl⟩
  have hboot : bootFault code 0 f 0 0 s = bootFence 0 f 0 v := by
    unfold bootFault
    rw [if_neg (by rw [show unitOut s 0 f 0 = _ from hin]; exact Bool.false_ne_true), contain_no_ops hops]
    change bootFence 0 f 0 (((enqueueFault { code := code, kind := 0, index := f, beat := s.tim.beat % 2 ^ 32 } (stopUnit 0 f 0 s)).flt.queue.filter
      (fun e => sameUnit e.kind e.index e.sub 0 f 0)).foldl
      (fun s e => closeFenced e s) _) = _
    rw [← he, ← hu, huqueue, List.filter_cons_of_pos (p := fun e : FaultE => sameUnit e.kind e.index e.sub 0 f 0) hhit,
      List.filter_cons_of_neg (p := fun e : FaultE => !sameUnit e.kind e.index e.sub 0 f 0) (by simp [hhit]), hv]
    rfl
  rw [← hv] at hfenced hbu
  have hfield : (bootFence 0 f 0 v).field f = { v.field f with fenced := true, bootFenced := true } := by
    change ((raiseAlert 6 (markFenced 0 f 0 v)).modField f (fun x => { x with bootFenced := true })).field f = _
    rw [field_modField, if_pos rfl, field_congr _ _ (raiseAlert_fields 6 _)]
    change { (v.modField f (fun x => { x with fenced := true })).field f with bootFenced := true } = _
    rw [field_modField, if_pos rfl]
  rw [hboot, hfield]
  exact ⟨rfl, rfl, hbu.trans hubu⟩

theorem warmupFieldTimeout_fences (s : State) (f b : Nat) (hf : f < 32) (hstart : (s.field f).tlStart = some b) (htime : b + 10000000 ≤ s.tim.beat)
    (hlock : (s.field f).tlLocked = false) (hrun : s.bu.running = 8) (hin : (s.field f).fenced = false) (hops : s.ops = []) (hqueue : s.flt.queue = []) :
    Completes (.warmupFieldTimeout f none) s (fun t => (t.field f).fenced = true ∧ (t.field f).bootFenced = true ∧ t.bu.degraded = true ∧ t.bu.fltCode = buWarmupUnit ∧
      t.bu.fltDetail = f + 0xFF00) := by
  obtain ⟨u, hu⟩ : ∃ u, u = buFault 8 buWarmupUnit (unitDetail f none) { s with bu := { s.bu with degraded := true } } := ⟨_, rfl⟩
  obtain ⟨_, _, _, hframe⟩ := buFault_frame 8 buWarmupUnit (unitDetail f none) { s with bu := { s.bu with degraded := true } }
  rw [← hu] at hframe
  obtain ⟨hfenced, hboot, hbu⟩ := bootFault_fences (s := u) 0x03 f (by rw [hframe]; exact hops) (by rw [hframe]; exact hqueue) (by rw [hframe]; exact hin)
  refine ⟨bootFault 0x03 0 f 0 0 u, ?_, hfenced, hboot, ?_, ?_, ?_⟩
  · refine congrArg Host.Outcome.next ((if_neg ?_).trans ((if_pos hrun).trans ((if_neg (by rw [hin]; exact Bool.false_ne_true)).trans (by rw [hu]; rfl))))
    rintro (h | h | h | h)
    · omega
    · cases h
    · rw [hlock] at h
      cases h
    · rw [hstart, Option.any_some, Bool.not_eq_true', decide_eq_false_iff_not, if_neg (by decide)] at h
      exact h htime
  all_goals rw [hbu, hframe]
  rfl

theorem warmupFieldTimeout_unlocked (s : State) (f : Nat) (b : Option Nat) (hstart : (s.field f).tlStart = none) : exec (.warmupFieldTimeout f b) s = .next s := by
  refine congrArg Host.Outcome.next (if_pos (.inr (.inr (.inr ?_))))
  rw [hstart]
  rfl

theorem warmupFieldTimeout_early (s : State) (f b : Nat) (x : Option Nat) (hstart : (s.field f).tlStart = some b) (htime : s.tim.beat < b + 10000000) :
    exec (.warmupFieldTimeout f x) s = .next s := by
  refine congrArg Host.Outcome.next (if_pos (.inr (.inr (.inr ?_))))
  rw [hstart, Option.any_some, Bool.not_eq_true', decide_eq_false_iff_not]
  split <;> omega

/-! ### The chunks of the convoy (R418 to R420, R422) -/

theorem placeChunk_memoryOnly (core payload : List Byte) (c q : Nat) (s : State) : MemoryOnly s (placeChunk core payload c q s) :=
  .foldl (fun _ _ => wrBytes_memoryOnly _ _ _ _) _ _

theorem convoyChunkReceive_places (s : State) (c q : Nat) (l : List (BitVec 8)) (hrun : s.bu.running = 7) (hc : c < 2048) (hgood : chunkGood s l = true)
    (hq : q = bytesAt l 0 2) (hnew : (s.coreOf c).chunks.any (fun x => x.1 == q) = false) :
    Completes (.convoyChunkReceive c l) s (fun t => (t.coreOf c).chunks = tins q (Config.sha384 (l.drop 16)) (s.coreOf c).chunks ∧
      (t.coreOf c).verified = imageVerified s (t.coreOf c).chunks ∧ (∀ j, j ≠ c → (t.coreOf j).chunks = (s.coreOf j).chunks) ∧ t.bu = s.bu) := by
  subst hq
  obtain ⟨u, hu⟩ : ∃ u, u = placeChunk (coreImage s.bu.image) (l.drop 16) c (bytesAt l 0 2) s := ⟨_, rfl⟩
  obtain ⟨_, _, _, _, _, _, _, _, _, _, _, hframe⟩ := placeChunk_memoryOnly (coreImage s.bu.image) (l.drop 16) c (bytesAt l 0 2) s
  rw [← hu] at hframe
  refine ⟨u.modCoreOf c (fun x => { x with
    chunks := tins (bytesAt l 0 2) (Config.sha384 (l.drop 16)) (s.coreOf c).chunks
    verified := imageVerified s (tins (bytesAt l 0 2) (Config.sha384 (l.drop 16)) (s.coreOf c).chunks) }), ?_, ?_, ?_, ?_, ?_⟩
  · rw [hu]
    exact congrArg Host.Outcome.next (if_pos ⟨hrun, hc, hgood, hnew⟩)
  · rw [coreOf_modCoreOf, if_pos rfl]
  · rw [coreOf_modCoreOf, if_pos rfl]
  · intro j hj
    rw [coreOf_modCoreOf, if_neg hj, coreOf_congr s u (by rw [hframe])]
  · change u.bu = s.bu
    rw [hframe]

theorem convoyChunkReceive_drops (s : State) (c : Nat) (l : List (BitVec 8)) (h : chunkGood s l = false ∨ (s.coreOf c).chunks.any (fun x => x.1 == bytesAt l 0 2) = true) :
    exec (.convoyChunkReceive c l) s = .next s := by
  refine congrArg Host.Outcome.next (if_neg ?_)
  rintro ⟨-, -, hgood, hnew⟩
  rcases h with hbad | hagain
  · rw [hgood] at hbad
    cases hbad
  · rw [hagain] at hnew
    cases hnew

theorem convoyRepairRound_counts (s : State) (hrun : s.bu.running = 7) (hround : s.bu.cvRound < 3) :
    exec .convoyRepairRound s = .next { s with bu := { s.bu with cvPhase := 2, cvRound := s.bu.cvRound + 1 } } :=
  congrArg Host.Outcome.next (if_pos ⟨hrun, hround⟩)

theorem convoyRepairRound_over (s : State) (hround : 3 ≤ s.bu.cvRound) : exec .convoyRepairRound s = .next s :=
  congrArg Host.Outcome.next (if_neg (fun h => by omega))

theorem coreReconvoy_verifies (s : State) (c : Nat) (hstep : 7 ≤ s.bu.step) (hsound : s.flt.deviceError = false) (hc : c < 2048) :
    Completes (.coreReconvoy [c] []) s (fun t => (t.coreOf c).verified = true ∧ (t.coreOf c).resident = none ∧ t.flt = s.flt ∧ t.bu = s.bu) := by
  obtain ⟨u, hu⟩ : ∃ u, u = placeImage c s := ⟨_, rfl⟩
  obtain ⟨_, _, _, _, _, _, _, _, _, _, _, hframe⟩ := placeImage_memoryOnly c s
  rw [← hu] at hframe
  have hkept : [c].filter (fun c => decide (c < 2048)) = [c] := List.filter_cons_of_pos (decide_eq_true hc)
  have hexec : exec (.coreReconvoy [c] []) s = .next (u.modCoreOf c (fun x => { x with verified := true, resident := none })) := by
    change execCoreReconvoy [c] [] s = _
    unfold execCoreReconvoy
    rw [if_neg (by rw [hsound]; simpa using hstep), hkept, hu]
    rfl
  refine ⟨_, hexec, ?_, ?_, ?_, ?_⟩
  · rw [coreOf_modCoreOf, if_pos rfl]
  · rw [coreOf_modCoreOf, if_pos rfl]
  · change u.flt = s.flt
    rw [hframe]
  · change u.bu = s.bu
    rw [hframe]

/-- Settles O58: each step's end in the case the clause names; the step's registers are what its end or its failure writes. -/
theorem bringupStepsEnd : Obligations.BringupStepsEnd :=
  ⟨bringup_idle, @powerStep_completes, @powerStep_fails, @pllStep_completes, @pllStep_fails, fun _ ms n obs => trainStep_completes ms obs n, @trainStep_fails, @imageStep_completes,
    fun _ ms off obs => imageStep_fails ms obs off, @authStep_ends, @authStep_locks, @releaseStep_completes, @convoyStep_completes, @convoyStep_fails, @convoyStep_repairs,
    @warmupStep_completes, @factoryStep_ends, @userStep_completes, stepTimeout_fails, releaseTimeout_fails, warmupFieldTimeout_fences, warmupFieldTimeout_unlocked,
    warmupFieldTimeout_early, convoyChunkReceive_places, convoyChunkReceive_drops, convoyRepairRound_counts, convoyRepairRound_over, coreReconvoy_verifies⟩

end Sys2Proof.Machine
end

section
/-! Temperatures: conversions, readings, die levels, throttle episodes and shut-down (R438 to R451). -/

namespace Sys2Proof.Machine

open Sys2Proof State

/-! ### Conversions (R439) -/

/-- A value strictly between the rails was not held at one. -/
theorem clampI_inner {lo hi x : Int} (hlow : lo < clampI lo hi x) (hhigh : clampI lo hi x < hi) : clampI lo hi x = x := by
  by_cases hbelow : x < lo
  · rw [clampI, if_pos hbelow] at hlow
    omega
  · by_cases habove : hi < x
    · rw [clampI, if_neg hbelow, if_pos habove] at hhigh
      omega
    · rw [clampI, if_neg hbelow, if_neg habove]

theorem roundEven_exact (k : Int) {b : Nat} (hb : 0 < b) : roundEven (k * b) b = k := by
  have hpos : (b : Int) ≠ 0 := by omega
  unfold roundEven
  rw [Int.mul_fdiv_cancel _ hpos, Int.mul_fmod_left]
  dsimp only
  exact if_pos (by omega)

theorem diodeTemp_near (n : Int) (eta : Nat) (heta : 0 < eta) : -32768 ≤ diodeTemp n eta ∧ diodeTemp n eta ≤ 32767 ∧
    (-32768 < diodeTemp n eta → diodeTemp n eta < 32767 →
      2 * (40 * (eta : Int) * 2302585092994046 * diodeTemp n eta - (145056250000000000000 * n - 349632 * (4 * (eta : Int) * 2302585092994046))) ≤ 40 * eta * 2302585092994046 ∧
      -(40 * (eta : Int) * 2302585092994046) ≤
        2 * (40 * (eta : Int) * 2302585092994046 * diodeTemp n eta - (145056250000000000000 * n - 349632 * (4 * (eta : Int) * 2302585092994046)))) := by
  obtain ⟨den, hden⟩ : ∃ den : Nat, den = 4 * eta * 2302585092994046 := ⟨_, rfl⟩
  obtain ⟨a, ha⟩ : ∃ a : Int, a = 145056250000000000000 * n - 349632 * den := ⟨_, rfl⟩
  have htemp : diodeTemp n eta = clampI (-32768) 32767 (roundEven a (10 * den)) := by rw [ha, hden]; rfl
  obtain ⟨hlow, hhigh⟩ := clampI_mem (lo := -32768) (hi := 32767) (by decide) (roundEven a (10 * den))
  rw [htemp]
  refine ⟨hlow, hhigh, fun hl hh => ?_⟩
  rw [clampI_inner hl hh]
  obtain ⟨hbelow, habove⟩ := roundEven_near a (b := 10 * den) (by omega)
  have hscale : 40 * (eta : Int) * 2302585092994046 = ((10 * den : Nat) : Int) := by
    rw [hden]
    push_cast
    ring
  have hsum : 145056250000000000000 * n - 349632 * (4 * (eta : Int) * 2302585092994046) = a := by
    rw [ha, hden]
    push_cast
    ring
  rw [hscale, hsum, Int.mul_comm _ (roundEven a (10 * den))]
  exact ⟨habove, hbelow⟩

theorem ntcTemp_bounds (r : Int) (r25 beta : Nat) : -32768 ≤ ntcTemp r r25 beta ∧ ntcTemp r r25 beta ≤ 32767 := by
  unfold ntcTemp
  dsimp only
  split
  · have hlow := BitVec.le_toInt (Config.ntcOpen r r25 beta)
    have hhigh := BitVec.toInt_lt (x := Config.ntcOpen r r25 beta)
    omega
  · exact clampI_mem (by decide) _

/-- At its reference resistance a thermistor reads 25 °C. -/
theorem ntcTemp_reference (n beta : Nat) (hn : 0 < n) (hbeta : 0 < beta) (hexact : 12500 * n = 2 ^ 23 * (n * 12500 / 2 ^ 23)) :
    ntcTemp n (n * 12500 / 2 ^ 23) beta = 3200 := by
  generalize n * 12500 / 2 ^ 23 = q at *
  have hq : q ≠ 0 := by rintro rfl; omega
  obtain ⟨d, hd⟩ : ∃ d : Nat, d = beta * (100 * 2 ^ 32 * 10 ^ 15) := ⟨_, rfl⟩
  have hpos : 0 < d := by rw [hd]; exact Nat.mul_pos hbeta (by decide)
  have hden : 29815 * ((log2Fix (12500 * (n : Int).toNat) : Int) - log2Fix (2 ^ 23 * q)) * 693147180559945 + beta * (100 * 2 ^ 32 * 10 ^ 15) = (d : Int) := by
    rw [Int.toNat_natCast, hexact, Int.sub_self, hd]
    push_cast
    ring
  have hnum : 1280 * 29815 * (beta : Int) * 2 ^ 32 * 10 ^ 15 - 349632 * (d : Int) = 3200 * ((10 * d : Nat) : Int) := by
    rw [hd]
    push_cast
    ring
  unfold ntcTemp
  dsimp only
  rw [hden, Int.toNat_natCast, hnum, roundEven_exact _ (by omega)]
  exact if_neg (by omega)

/-! ### Which readings stand (R438, R440) -/

section
variable {s : State} {d i : Nat} {v x : Int}

theorem sensorTemp_diode (s : State) (d i : Nat) (v a b : Int) (x y : BitVec 24) (hd : d < 10) (hlow : (s.monLast (sensorInput d i)).low = some (s.tim.beat, x))
    (hhigh : (s.monLast (sensorInput d i)).high = some (s.tim.beat, y)) (ha : a = x.toInt) (hb : b = y.toInt) :
    sensorTemp s d i v = some (diodeTemp (b - a) (calFactory s (kEta d i)).toNat) := by
  have hbeat : ∀ z : BitVec 24, ofBeat s (some (s.tim.beat, z)) = some z.toInt := fun z => if_pos rfl
  unfold sensorTemp
  dsimp only
  rw [if_neg (by omega), if_neg (by omega), if_neg (by omega), hlow, hhigh, hbeat, hbeat, if_neg (by omega), ha, hb]

theorem sensorReading_nothing (h : sensorTemp s d i v = none) : exec (.sensorReading d i v) s = .next s := by
  change execSensorReading d i v s = _
  unfold execSensorReading
  rw [h]
  split <;> rfl

theorem sensorReading_incomplete (s : State) (d i : Nat) (v : Int) (hd : d < 10) (hhigh : (s.monLast (sensorInput d i)).high = none) :
    exec (.sensorReading d i v) s = .next s := by
  refine sensorReading_nothing ?_
  unfold sensorTemp
  dsimp only
  rw [if_neg (by omega), if_neg (by omega), if_neg (by omega), hhigh]
  cases ofBeat s (s.monLast (sensorInput d i)).low <;> rfl

theorem sensorReading_unused (s : State) (i : Nat) (v : Int) (htype : (s.extT i).type = 0) : exec (.sensorReading 22 i v) s = .next s := by
  refine sensorReading_nothing ?_
  unfold sensorTemp
  dsimp only
  rw [if_neg (by omega), if_pos ⟨rfl, htype⟩]

theorem sensorReading_again (s : State) (d i : Nat) (v : Int) (h : readAlready s d i = true) : exec (.sensorReading d i v) s = .next s :=
  congrArg Host.Outcome.next (if_pos (.inr (.inr (.inr h))))

theorem sensorReading_takes (hi : i < sensorCount d) (hcount : s.tim.counting = true) (hon : s.bu.on.getLsbD 1 = true) (hnew : readAlready s d i = false)
    (htemp : sensorTemp s d i v = some x) : exec (.sensorReading d i v) s = .next (takeReading d i (pinOutside s d i) x s) := by
  change execSensorReading d i v s = _
  unfold execSensorReading
  rw [if_neg (by simp [hcount, hon, hnew, hi]), htemp]

/-- A sensor after its reading `v` of beat `now` (R440). -/
def Sensor.read (x : Sensor) (bad : Bool) (v : Int) (now : Nat) : Sensor :=
  { x with
    reading := if bad then x.reading else v, any := x.any || !bad, discards := min 3 (if bad then x.discards + 1 else 0), lastDiscard := bad
    goodSince := if bad then none else if x.goodSince.isSome then x.goodSince else some now
    hist := (x.hist ++ [(now, v, bad, x.failed)]).drop (x.hist.length + 1 - 64) }

/-- The device with a reading noted, before its sensor's failure is looked at. -/
def noteReading (d i : Nat) (bad : Bool) (v : Int) (s : State) : State :=
  s.setSensor (sensorKey d i) ((s.sensor (sensorKey d i)).read bad v s.tim.beat)

theorem noteReading_own (d i : Nat) (bad : Bool) (v : Int) (s : State) :
    (noteReading d i bad v s).sensor (sensorKey d i) = (s.sensor (sensorKey d i)).read bad v s.tim.beat := by
  rw [noteReading, sensor_setSensor, if_pos rfl]

/-- The sensor's failure or recovery after a reading (R440). -/
def settled (d i : Nat) (bad : Bool) (v : Int) (s : State) : State :=
  if 3 ≤ (if bad then (s.sensor (sensorKey d i)).discards + 1 else 0) ∧ !(s.sensor (sensorKey d i)).failed then failSensor d i (noteReading d i bad v s)
  else settleSensor d i (noteReading d i bad v s)

theorem takeReading_eq (d i : Nat) (out : Bool) (v : Int) (s : State) : takeReading d i out v s =
    (let t := settled d i (out || discards d (s.sensor (sensorKey d i)) v) v s
     if d = 22 then extWarn i t
     else if 10 ≤ d then (if (evalDie d t).thm.shutdown then evalDie d t else driftCheck (d - 10) (afterDies (evalDie d t)))
     else t) := rfl

theorem settleSensor_stays (hfailed : (s.sensor (sensorKey d i)).failed = false) (hconv : converterFailed s d i = false) : settleSensor d i s = s := by
  unfold settleSensor
  simp [hfailed, hconv]

/-- A sensor in order whose reading is accepted, or discarded for less than the third time, stays as its reading leaves it. -/
theorem settled_stays {bad : Bool} (hfailed : (s.sensor (sensorKey d i)).failed = false) (hconv : converterFailed s d i = false)
    (hcount : bad = true → (s.sensor (sensorKey d i)).discards < 2) : settled d i bad v s = noteReading d i bad v s := by
  have hfew : ¬ (3 ≤ (if bad then (s.sensor (sensorKey d i)).discards + 1 else 0) ∧ (!(s.sensor (sensorKey d i)).failed) = true) := by
    cases bad with
    | false => simp
    | true => have := hcount rfl; simp; omega
  have hkept : ((noteReading d i bad v s).sensor (sensorKey d i)).failed = false := by
    rw [noteReading_own]
    exact hfailed
  exact (if_neg hfew).trans (settleSensor_stays hkept hconv)

theorem pinOutside_diode (hd : d < 10) (s : State) (i : Nat) : pinOutside s d i = false := by
  unfold pinOutside
  simp [show d ≠ 22 by omega]

theorem takeReading_diode (hd : d < 10) (s : State) (i : Nat) (v : Int) :
    takeReading d i (pinOutside s d i) v s = settled d i (discards d (s.sensor (sensorKey d i)) v) v s := by
  rw [takeReading_eq, pinOutside_diode hd, Bool.false_or]
  dsimp only
  rw [if_neg (by omega), if_neg (by omega)]

end

theorem sensorReading_accepts (s : State) (d i : Nat) (v x : Int) (hd : d < 10) (hi : i < sensorCount d) (hcount : s.tim.counting = true) (hon : s.bu.on.getLsbD 1 = true)
    (hfailed : (s.sensor (sensorKey d i)).failed = false) (hconv : converterFailed s d i = false) (hnew : readAlready s d i = false) (htemp : sensorTemp s d i v = some x)
    (hgood : discards d (s.sensor (sensorKey d i)) x = false) :
    Completes (.sensorReading d i v) s (fun t => (t.sensor (sensorKey d i)).reading = x ∧ (t.sensor (sensorKey d i)).any = true ∧ (t.sensor (sensorKey d i)).discards = 0 ∧
      (∀ j, j ≠ sensorKey d i → t.sensor j = s.sensor j) ∧ t = { s with sensors := t.sensors }) := by
  refine ⟨noteReading d i false x s, ?_, ?_⟩
  · rw [sensorReading_takes hi hcount hon hnew htemp, takeReading_diode hd, hgood, settled_stays (bad := false) hfailed hconv (fun h => nomatch h)]
  · dsimp only
    rw [noteReading_own]
    refine ⟨rfl, Bool.or_true _, rfl, fun j hj => ?_, rfl⟩
    rw [noteReading, sensor_setSensor, if_neg hj]

theorem sensorReading_discards (s : State) (d i : Nat) (v x : Int) (hd : d < 10) (hi : i < sensorCount d) (hcount : s.tim.counting = true) (hon : s.bu.on.getLsbD 1 = true)
    (hfailed : (s.sensor (sensorKey d i)).failed = false) (hconv : converterFailed s d i = false) (hnew : readAlready s d i = false) (htemp : sensorTemp s d i v = some x)
    (hbad : discards d (s.sensor (sensorKey d i)) x = true) (hfew : (s.sensor (sensorKey d i)).discards < 2) :
    Completes (.sensorReading d i v) s (fun t => (t.sensor (sensorKey d i)).reading = (s.sensor (sensorKey d i)).reading ∧ (t.sensor (sensorKey d i)).failed = false ∧
      (t.sensor (sensorKey d i)).discards = (s.sensor (sensorKey d i)).discards + 1 ∧ (t.sensor (sensorKey d i)).lastDiscard = true) := by
  refine ⟨noteReading d i true x s, ?_, ?_⟩
  · rw [sensorReading_takes hi hcount hon hnew htemp, takeReading_diode hd, hbad, settled_stays hfailed hconv fun _ => hfew]
  · dsimp only
    rw [noteReading_own]
    refine ⟨rfl, hfailed, ?_, rfl⟩
    change min 3 ((s.sensor (sensorKey d i)).discards + 1) = _
    omega

/-- What a failing sensor leaves: its own mark, the report, and for a die's hottest a hold. -/
theorem failSensor_fails (d i : Nat) (s : State) : ((failSensor d i s).sensor (sensorKey d i)).failed = true ∧ (failSensor d i s).mg.alert.getLsbD 2 = true := by
  obtain ⟨u, hu⟩ : ∃ u, u = raiseAlert 2 (post 0x0915 (leBytes 1 (dieName d) ++ leBytes 1 i) (s.modSensor (sensorKey d i) (fun x => { x with failed := true, goodSince := none }))) :=
    ⟨_, rfl⟩
  have hsensor : (u.sensor (sensorKey d i)).failed = true := by
    rw [hu, sensor_congr _ _ ((raiseAlert_sensors _ _).trans (post_sensors _ _ _)), sensor_modSensor, if_pos rfl]
  have halert : u.mg.alert.getLsbD 2 = true := by
    rw [hu]
    exact or_twoPow_getLsbD (by decide) _
  have hfail : failSensor d i s = if d < 22 ∧ u.thm.episode ∧ (u.die d).level = 2 ∧ (u.die d).lastHot = i then
      u.modDie d (fun x => { x with hold := some i, holdFrom := none, rest := true }) else u := by
    rw [hu]
    rfl
  rw [hfail]
  split
  · exact ⟨hsensor, halert⟩
  · exact ⟨hsensor, halert⟩

theorem sensorReading_fails (s : State) (d i : Nat) (v x : Int) (hd : d < 10) (hi : i < sensorCount d) (hcount : s.tim.counting = true) (hon : s.bu.on.getLsbD 1 = true)
    (hfailed : (s.sensor (sensorKey d i)).failed = false) (hnew : readAlready s d i = false) (htemp : sensorTemp s d i v = some x)
    (hbad : discards d (s.sensor (sensorKey d i)) x = true) (hthird : (s.sensor (sensorKey d i)).discards = 2) :
    Completes (.sensorReading d i v) s (fun t => (t.sensor (sensorKey d i)).failed = true ∧ t.mg.alert.getLsbD 2 = true) := by
  refine ⟨failSensor d i (noteReading d i true x s), ?_, failSensor_fails d i _⟩
  rw [sensorReading_takes hi hcount hon hnew htemp, takeReading_diode hd, hbad]
  exact congrArg Host.Outcome.next (if_pos ⟨by rw [hthird]; exact Nat.le_refl 3, by rw [hfailed]; rfl⟩)

/-! ### EXT_T pins (R440, R443) -/

/-- `t` has the reading and the verdict on it that sensor `i` of die `d` has in `s`, and the dies and the throttle state of `s`. -/
structure SameReading (d i : Nat) (s t : State) : Prop where
  reading : (t.sensor (sensorKey d i)).reading = (s.sensor (sensorKey d i)).reading
  lastDiscard : (t.sensor (sensorKey d i)).lastDiscard = (s.sensor (sensorKey d i)).lastDiscard
  thm : t.thm = s.thm
  dies : t.dies = s.dies

theorem SameReading.of_tables {d i : Nat} {s t : State} (hsensors : t.sensors = s.sensors) (hthm : t.thm = s.thm) (hdies : t.dies = s.dies) : SameReading d i s t := by
  have hsensor := sensor_congr s t hsensors (sensorKey d i)
  exact ⟨by rw [hsensor], by rw [hsensor], hthm, hdies⟩

theorem SameReading.trans {d i : Nat} {s t u : State} (h : SameReading d i s t) (h' : SameReading d i t u) : SameReading d i s u :=
  ⟨h'.reading.trans h.reading, h'.lastDiscard.trans h.lastDiscard, h'.thm.trans h.thm, h'.dies.trans h.dies⟩

theorem failSensor_pin (i : Nat) (s : State) : SameReading 22 i s (failSensor 22 i s) := by
  obtain ⟨t, ht⟩ : ∃ t, t = s.modSensor (sensorKey 22 i) (fun x => { x with failed := true, goodSince := none }) := ⟨_, rfl⟩
  have hmark : SameReading 22 i s t := by
    have hsensor : t.sensor (sensorKey 22 i) = { s.sensor (sensorKey 22 i) with failed := true, goodSince := none } := by rw [ht, sensor_modSensor, if_pos rfl]
    exact ⟨by rw [hsensor], by rw [hsensor], by rw [ht]; rfl, by rw [ht]; rfl⟩
  have hfail : failSensor 22 i s = raiseAlert 2 (post 0x0915 (leBytes 1 (dieName 22) ++ leBytes 1 i) t) := by
    rw [ht]
    unfold failSensor
    dsimp only
    rw [if_neg (by simp)]
  rw [hfail]
  exact hmark.trans (.of_tables ((raiseAlert_sensors _ _).trans (post_sensors _ _ _)) (post_thm _ _ t) ((raiseAlert_dies _ _).trans (post_dies _ _ _)))

/-- A sensor that no accepted reading stands for can fail, and does not recover. -/
theorem settleSensor_cases {d i : Nat} {s : State} (h : (s.sensor (sensorKey d i)).goodSince = none) :
    settleSensor d i s = failSensor d i s ∨ settleSensor d i s = s := by
  unfold settleSensor
  simp only [h, Option.any_none, Bool.and_false, Bool.false_eq_true, if_false]
  exact ite_eq_or_eq _ _ _

/-- A discarded reading of a pin can fail its sensor, and changes neither the reading nor a die. -/
theorem settled_pin (i : Nat) (v : Int) (s : State) : SameReading 22 i (noteReading 22 i true v s) (settled 22 i true v s) := by
  have hcases : settled 22 i true v s = failSensor 22 i (noteReading 22 i true v s) ∨ settled 22 i true v s = settleSensor 22 i (noteReading 22 i true v s) :=
    ite_eq_or_eq _ _ _
  have hgood : ((noteReading 22 i true v s).sensor (sensorKey 22 i)).goodSince = none := by
    rw [noteReading_own]
    rfl
  rcases hcases with h | h
  · rw [h]
    exact failSensor_pin i _
  · rw [h]
    rcases settleSensor_cases hgood with h | h
    · rw [h]
      exact failSensor_pin i _
    · rw [h]
      exact .of_tables rfl rfl rfl

theorem extWarn_reading (d i j : Nat) (s : State) : SameReading d i s (extWarn j s) := by
  unfold extWarn
  dsimp only
  split
  · exact .of_tables ((post_sensors _ _ _).trans rfl) ((post_thm _ _ _).trans rfl) ((post_dies _ _ _).trans rfl)
  · exact .of_tables rfl rfl rfl

theorem sensorReading_outside (s : State) (i : Nat) (v x : Int) (hi : i < 8) (hcount : s.tim.counting = true) (hon : s.bu.on.getLsbD 1 = true)
    (hnew : readAlready s 22 i = false) (htemp : sensorTemp s 22 i v = some x) (hout : pinOutside s 22 i = true) :
    Completes (.sensorReading 22 i v) s (fun t => (t.sensor (sensorKey 22 i)).reading = (s.sensor (sensorKey 22 i)).reading ∧
      (t.sensor (sensorKey 22 i)).lastDiscard = true ∧ t.thm = s.thm ∧ t.dies = s.dies) := by
  obtain ⟨hreading, hlast, hthm, hdies⟩ := (settled_pin i x s).trans (extWarn_reading 22 i i (settled 22 i true x s))
  rw [noteReading_own] at hreading hlast
  refine ⟨extWarn i (settled 22 i true x s), ?_, hreading, hlast, hthm, hdies⟩
  rw [sensorReading_takes hi hcount hon hnew htemp, takeReading_eq, hout, Bool.true_or]
  rfl

end Sys2Proof.Machine
end

section
/-! Dies at their levels, throttle episodes, enforcement, holds and shut-down (R442 to R451). -/

namespace Sys2Proof.Machine

open Sys2Proof State

/-! ### What the throttle handshake leaves -/

/-- `t` is `s` but for the throttle state, THROT_N, the causes of an alert, and what events write. -/
def ThermalOnly (s t : State) : Prop := ∃ m p a h b w, t = { s with thm := m, pins := p, mg := a, hostMem := h, mbs := b, stw := w }

section
variable {s t u : State}

theorem ThermalOnly.refl (s : State) : ThermalOnly s s := ⟨_, _, _, _, _, _, rfl⟩

theorem ThermalOnly.trans (h : ThermalOnly s t) (h' : ThermalOnly t u) : ThermalOnly s u := by
  obtain ⟨_, _, _, _, _, _, rfl⟩ := h
  obtain ⟨_, _, _, _, _, _, rfl⟩ := h'
  exact ⟨_, _, _, _, _, _, rfl⟩

theorem ThermalOnly.foldl {α : Type} {f : State → α → State} (h : ∀ s a, ThermalOnly s (f s a)) (l : List α) (s : State) : ThermalOnly s (l.foldl f s) :=
  foldl_inv (ThermalOnly s) f (fun t a ht => ht.trans (h t a)) l s (.refl s)

theorem ThermalOnly.ite {c : Prop} [Decidable c] (h : ThermalOnly s t) (h' : ThermalOnly s u) : ThermalOnly s (if c then t else u) := by
  split
  · exact h
  · exact h'

theorem ThermalOnly.dies (h : ThermalOnly s t) : t.dies = s.dies := by
  obtain ⟨_, _, _, _, _, _, rfl⟩ := h
  rfl

theorem ThermalOnly.units (h : ThermalOnly s t) : t.units = s.units := by
  obtain ⟨_, _, _, _, _, _, rfl⟩ := h
  rfl

theorem post_thermalOnly (code : Nat) (items : List Byte) (s : State) : ThermalOnly s (post code items s) := by
  obtain ⟨_, _, _, h⟩ := post_eventsOnly code items s
  exact ⟨_, _, _, _, _, _, h⟩

theorem raiseAlert_thermalOnly (i : Nat) (s : State) : ThermalOnly s (raiseAlert i s) := ⟨_, _, _, _, _, _, rfl⟩

theorem setThm_thermalOnly (s : State) (m : Thm) : ThermalOnly s { s with thm := m } := ⟨_, _, _, _, _, _, rfl⟩

theorem throtUpdate_thermalOnly (s : State) : ThermalOnly s (throtUpdate s) := ⟨_, _, _, _, _, _, rfl⟩

theorem enterThrottle_thermalOnly (d : Nat) (s : State) : ThermalOnly s (enterThrottle d s) :=
  .ite (.refl s) ((((setThm_thermalOnly s _).trans (post_thermalOnly _ _ _)).trans (raiseAlert_thermalOnly 0 _)).trans (throtUpdate_thermalOnly _))

theorem setStep_thermalOnly (t v d : Nat) (s : State) : ThermalOnly s (setStep t v d s) :=
  ((setThm_thermalOnly s _).trans (throtUpdate_thermalOnly _)).trans (post_thermalOnly _ _ _)

theorem startTile_thermalOnly (s : State) (t : Nat) : ThermalOnly s (startTile s t) := by
  unfold startTile
  split
  · exact .ite ((setThm_thermalOnly s _).trans (setStep_thermalOnly _ _ _ _)) (.refl s)
  · exact .refl s

theorem episodeUpdate_thermalOnly (s : State) : ThermalOnly s (episodeUpdate s) := by
  have hend : ∀ t : State, ThermalOnly t (endEpisode t) := fun t => ((setThm_thermalOnly t _).trans (post_thermalOnly _ _ _)).trans (throtUpdate_thermalOnly _)
  have htiles : ThermalOnly s (if s.thm.enforcing then (List.range 4).foldl startTile s else s) := .ite (.foldl startTile_thermalOnly _ s) (.refl s)
  exact .ite (.refl s) (htiles.trans (.ite (hend _) (.refl _)))

theorem coolTrack_thermalOnly (s : State) (t : Nat) : ThermalOnly s (coolTrack s t) := setThm_thermalOnly s _

theorem afterDies_thermalOnly (s : State) : ThermalOnly s (afterDies s) := by
  have htrack : ThermalOnly s (if s.thm.enforcing then (List.range 4).foldl coolTrack s else s) := .ite (.foldl coolTrack_thermalOnly _ s) (.refl s)
  exact .ite (.refl s) ((htrack.trans (episodeUpdate_thermalOnly _)).trans (throtUpdate_thermalOnly _))

end

/-! ### An HBM die's evaluation (R442, R443, R451) -/

/-- Die `d` shows temperature `x` and level `lv`, and its stack's refresh rate goes with the level. -/
structure DieShows (d : Nat) (x : Int) (lv : Nat) (t : State) : Prop where
  temp : (t.die d).temp = x
  level : (t.die d).level = lv
  fastRef : (t.unit (d - 10)).fastRef = decide (0 < lv)

section
variable {d lv : Nat} {x : Int} {s t : State}

theorem DieShows.of_tables (h : DieShows d x lv s) (hdies : t.dies = s.dies) (hunits : t.units = s.units) : DieShows d x lv t := by
  have hdie := die_congr s t hdies d
  have hunit := unit_congr s t hunits (d - 10)
  exact ⟨by rw [hdie, h.temp], by rw [hdie, h.level], by rw [hunit, h.fastRef]⟩

theorem DieShows.thermal (h : DieShows d x lv s) (ht : ThermalOnly s t) : DieShows d x lv t := h.of_tables ht.dies ht.units

theorem DieShows.hold (h : DieShows d x lv s) : DieShows d x lv (holdUpdate d s) := by
  unfold holdUpdate
  split
  · exact h
  · refine ⟨?_, ?_, h.fastRef⟩
    · rw [die_modDie, if_pos rfl]
      exact h.temp
    · rw [die_modDie, if_pos rfl]
      exact h.level

theorem DieShows.drift (h : DieShows d x lv s) : DieShows d x lv (driftCheck (d - 10) s) := by
  unfold driftCheck
  split
  · split
    · obtain ⟨_, hunit⟩ := triggerRetrain_unit s (d - 10)
      have hdies : (triggerRetrain (d - 10) s).dies = s.dies := by rw [triggerRetrain_frame]
      have hdie := die_congr s _ hdies d
      exact ⟨by rw [hdie, h.temp], by rw [hdie, h.level], by rw [hunit]; exact h.fastRef⟩
    · exact h
  · exact h

end

section
variable {s : State} {d : Nat} (hlow : 10 ≤ d) (hhigh : d < 22)
include hlow hhigh

theorem sensorCount_hbm : sensorCount d = 1 := by
  unfold sensorCount
  rw [if_neg (by omega), if_neg (by omega), if_pos hhigh]

theorem hottestOf_hbm {x : Int} (h : sensorValue s d 0 = some x) : hottestOf s d none = some (0, x) := by
  unfold hottestOf
  rw [sensorCount_hbm hlow hhigh]
  change (match sensorValue s d 0, (none : Option (Nat × Int)) with
    | some v, some x => if x.2 < v then some (0, v) else none
    | some v, none => some (0, v)
    | none, _ => none) = _
  rw [h]

theorem thresholds_hbm : thresholds d = (85 * 128, 95 * 128, 105 * 128) := by
  unfold thresholds
  rw [if_neg (by omega), if_neg (by omega)]

theorem evalDie_shows {x : Int} (h : sensorValue s d 0 = some x) (hx : x < 105 * 128) : DieShows d x (levelOf d (s.die d).level x) (evalDie d s) := by
  obtain ⟨lv, hlv⟩ : ∃ lv, lv = levelOf d (s.die d).level x := ⟨_, rfl⟩
  obtain ⟨y, hy⟩ : ∃ y : Die, y = { s.die d with
      temp := x, hottest := 0, subst := (s.sensor (sensorKey d 0)).failed, level := lv
      lastHot := if (s.sensor (sensorKey d 0)).failed then (s.die d).lastHot else 0, enforced := decide (2 ≤ failedCount s d) } := ⟨_, rfl⟩
  obtain ⟨u, hu⟩ : ∃ u, u = refreshRate d (s.setDie d y) := ⟨_, rfl⟩
  have hshows : DieShows d x lv u := by
    have hrate : u = (s.setDie d y).modUnit (d - 10) (fun m => { m with fastRef := decide (0 < ((s.setDie d y).die d).level) }) := by
      rw [hu]
      exact if_pos hlow
    have hdie : u.die d = y := by
      rw [hrate]
      exact (die_setDie s d d y).trans (if_pos rfl)
    refine ⟨by rw [hdie, hy], by rw [hdie, hy], ?_⟩
    rw [hrate, unit_modUnit, if_pos rfl, die_setDie, if_pos rfl, hy]
  have heval : evalDie d s = holdUpdate d (
      let t := if (s.die d).level = 0 ∧ 0 < lv then raiseAlert 3 (post 0x0910 (leBytes 1 d ++ leBytes 2 (image 16 x)) u)
        else if 0 < (s.die d).level ∧ lv = 0 then post 0x0911 (leBytes 1 d ++ leBytes 2 (image 16 x)) u else u
      if (s.die d).level < 2 ∧ lv = 2 then enterThrottle d t else t) := by
    unfold evalDie
    rw [hottestOf_hbm hlow hhigh h]
    dsimp only
    rw [thresholds_hbm hlow hhigh, if_neg (Int.not_le.mpr hx), ← hlv, ← hy, ← hu]
  rw [heval, ← hlv]
  refine DieShows.hold (hshows.thermal ?_)
  have hreport : ThermalOnly u (if (s.die d).level = 0 ∧ 0 < lv then raiseAlert 3 (post 0x0910 (leBytes 1 d ++ leBytes 2 (image 16 x)) u)
      else if 0 < (s.die d).level ∧ lv = 0 then post 0x0911 (leBytes 1 d ++ leBytes 2 (image 16 x)) u else u) :=
    .ite ((post_thermalOnly _ _ u).trans (raiseAlert_thermalOnly 3 _)) (.ite (post_thermalOnly _ _ u) (.refl u))
  exact .ite (hreport.trans (enterThrottle_thermalOnly d _)) hreport

theorem evalDie_shutDown {x : Int} (h : sensorValue s d 0 = some x) (hx : 105 * 128 ≤ x) : evalDie d s = shutDown s := by
  unfold evalDie
  rw [hottestOf_hbm hlow hhigh h]
  dsimp only
  rw [thresholds_hbm hlow hhigh, if_pos hx]

section
variable {v : Int} (hcount : s.tim.counting = true) (hon : s.bu.on.getLsbD 1 = true) (hfailed : (s.sensor (sensorKey d 0)).failed = false)
  (hgood : discards d (s.sensor (sensorKey d 0)) (32 * v) = false)
include hcount hon hfailed hgood

/-- An HBM die takes its own reading, of 0.25 °C, and is evaluated at once (R438, R442). -/
theorem sensorReading_hbm : exec (.sensorReading d 0 v) s = .next (
    let t := evalDie d (noteReading d 0 false (32 * v) s)
    if t.thm.shutdown then t else driftCheck (d - 10) (afterDies t)) := by
  have hrange : -5120 ≤ 32 * v ∧ 32 * v ≤ 16000 := by
    unfold discards at hgood
    simp only [Bool.or_eq_false_iff, decide_eq_false_iff_not, hlow, hhigh, and_self, decide_true, if_true] at hgood
    obtain ⟨⟨hcold, hhot⟩, -⟩ := hgood
    omega
  have htemp : sensorTemp s d 0 v = some (32 * v) := by
    unfold sensorTemp
    dsimp only
    rw [if_pos ⟨hlow, hhigh⟩, clampI_of_mem (by omega) (by omega)]
  have hnew : readAlready s d 0 = false := by
    unfold readAlready
    rw [decide_eq_false (by omega), beq_false_of_ne (by omega)]
    rfl
  have hout : pinOutside s d 0 = false := by
    unfold pinOutside
    rw [beq_false_of_ne (by omega)]
    rfl
  have hconv : converterFailed s d 0 = false := by
    unfold converterFailed sensorConverter
    rw [if_neg (by omega), if_neg (by omega), if_neg (by omega), if_pos hhigh]
    rfl
  rw [sensorReading_takes (by rw [sensorCount_hbm hlow hhigh]; exact Nat.zero_lt_one) hcount hon hnew htemp, takeReading_eq, hout, hgood]
  dsimp only
  rw [if_neg (by omega), if_pos hlow, Bool.or_false, settled_stays (bad := false) hfailed hconv (fun h => nomatch h)]

theorem noteReading_hbm : sensorValue (noteReading d 0 false (32 * v) s) d 0 = some (32 * v) := by
  unfold sensorValue
  rw [noteReading_own]
  dsimp only [Sensor.read]
  rw [hfailed, if_neg Bool.false_ne_true, if_neg Bool.false_ne_true, Bool.not_false, Bool.or_true, if_pos rfl]

end

end

theorem sensorReading_evaluates (s : State) (d : Nat) (v : Int) (hlow : 10 ≤ d) (hhigh : d < 22) (hcount : s.tim.counting = true) (hon : s.bu.on.getLsbD 1 = true)
    (hfailed : (s.sensor (sensorKey d 0)).failed = false) (hgood : discards d (s.sensor (sensorKey d 0)) (32 * v) = false) (hv : v < 420) :
    Completes (.sensorReading d 0 v) s (fun t => (t.die d).temp = 32 * v ∧ (t.die d).level = levelOf d (s.die d).level (32 * v) ∧
      (t.unit (d - 10)).fastRef = decide (0 < levelOf d (s.die d).level (32 * v))) := by
  have hshows : DieShows d (32 * v) (levelOf d (s.die d).level (32 * v)) (evalDie d (noteReading d 0 false (32 * v) s)) :=
    evalDie_shows (s := noteReading d 0 false (32 * v) s) hlow hhigh (noteReading_hbm hlow hhigh hcount hon hfailed hgood) (by omega)
  refine ⟨_, sensorReading_hbm hlow hhigh hcount hon hfailed hgood, ?_⟩
  dsimp only
  split
  · exact ⟨hshows.temp, hshows.level, hshows.fastRef⟩
  · obtain ⟨htemp, hlevel, href⟩ := (hshows.thermal (afterDies_thermalOnly _)).drift
    exact ⟨htemp, hlevel, href⟩

theorem sensorReading_shutsDown (s : State) (d : Nat) (v : Int) (hlow : 10 ≤ d) (hhigh : d < 22) (hcount : s.tim.counting = true) (hon : s.bu.on.getLsbD 1 = true)
    (hfailed : (s.sensor (sensorKey d 0)).failed = false) (hgood : discards d (s.sensor (sensorKey d 0)) (32 * v) = false) (hv : 420 ≤ v) :
    Completes (.sensorReading d 0 v) s (fun t => t.thm.shutdown = true ∧ t.pwr.state = 3 ∧ t.pwr.on = [] ∧ t.pins.throtN = false ∧ t.pins.faultN = false) := by
  refine ⟨shutDown (noteReading d 0 false (32 * v) s), ?_, rfl, rfl, rfl, rfl, rfl⟩
  rw [sensorReading_hbm hlow hhigh hcount hon hfailed hgood, evalDie_shutDown hlow hhigh (noteReading_hbm hlow hhigh hcount hon hfailed hgood) (by omega)]
  rfl

/-! ### Throttle (R442, R445) -/

theorem anyThrottle_of {s : State} {d : Nat} (hd : d < 22) (h : (s.die d).level = 2) : anyThrottle s = true :=
  List.any_eq_true.mpr ⟨d, List.mem_range.mpr hd, beq_iff_eq.mpr h⟩

theorem throtUpdate_low {s : State} (h : s.thm.episode = true) : (throtUpdate s).pins.throtN = false := by
  unfold throtUpdate
  dsimp only
  rw [h, Bool.or_true, Bool.true_or]
  rfl

/-- The start of an episode, which no step follows while a die stands at throttle (R445). -/
theorem enterThrottle_begins {s : State} (d : Nat) (h : s.thm.episode = false) : ∃ t : State, enterThrottle d s = throtUpdate (raiseAlert 0 t) ∧ t.dies = s.dies ∧
    t.thm = { s.thm with
      episode := true, acked := false, enforcing := false, startAt := s.tim.beat, tile := [0, 0, 0, 0]
      coolAt := [none, none, none, none], fallAt := [none, none, none, none] } := by
  refine ⟨_, if_neg (by rw [h]; exact Bool.false_ne_true), ?_, ?_⟩
  · exact (post_dies _ _ _).trans rfl
  · exact (post_thm _ _ _).trans rfl

theorem episodeUpdate_waits {s : State} (henforcing : s.thm.enforcing = false) (hthrottle : anyThrottle s = true) : episodeUpdate s = s := by
  unfold episodeUpdate
  dsimp only
  rw [henforcing, if_neg Bool.false_ne_true, hthrottle, Bool.not_true, Bool.false_and, Bool.false_and, if_neg Bool.false_ne_true, ite_self]

theorem trigger_frame (k t : Nat) (s : State) : ∃ m f, trigger k t s = { s with mons := m, fields := f } := by
  unfold trigger
  dsimp only
  split
  · exact ⟨_, _, rfl⟩
  · split
    · exact ⟨_, _, rfl⟩
    · split <;> exact ⟨_, _, rfl⟩

theorem triggers_frame (t : Nat) (l : List Nat) (s : State) : ∃ m f, l.foldl (fun (s : State) k => trigger k t s) s = { s with mons := m, fields := f } := by
  refine foldl_inv (fun u : State => ∃ m f, u = { s with mons := m, fields := f }) _ ?_ l s ⟨_, _, rfl⟩
  rintro u k ⟨m, f, rfl⟩
  obtain ⟨_, _, h⟩ := trigger_frame k t { s with mons := m, fields := f }
  exact ⟨_, _, h⟩

/-- The converters of die `d`'s sensors. -/
def dieConverters (d : Nat) : List Nat := ((List.range (sensorCount d)).filterMap (sensorConverter d)).eraseDups

/-- The die at its throttle level, its temperature sequences triggered (R127, R442). -/
def comparatorTripped (d : Nat) (s : State) : State :=
  (dieConverters d).foldl (fun (s : State) k => trigger k 1 s) (refreshRate d (s.setDie d { s.die d with level := 2 }))

theorem refreshRate_frame (d : Nat) (s : State) : ∃ u, refreshRate d s = { s with units := u } := by
  unfold refreshRate
  split <;> exact ⟨_, rfl⟩

theorem comparatorTripped_frame (d : Nat) (s : State) : ∃ m f u, comparatorTripped d s = { s.setDie d { s.die d with level := 2 } with mons := m, fields := f, units := u } := by
  obtain ⟨u, hrate⟩ := refreshRate_frame d (s.setDie d { s.die d with level := 2 })
  obtain ⟨m, f, h⟩ := triggers_frame 1 (dieConverters d) (refreshRate d (s.setDie d { s.die d with level := 2 }))
  exact ⟨m, f, u, by rw [comparatorTripped, h, hrate]⟩

theorem comparatorTripped_level (d : Nat) (s : State) : ((comparatorTripped d s).die d).level = 2 := by
  obtain ⟨_, _, _, h⟩ := comparatorTripped_frame d s
  have hdies : (comparatorTripped d s).dies = (s.setDie d { s.die d with level := 2 }).dies := by rw [h]
  rw [die_congr _ _ hdies, die_setDie, if_pos rfl]

theorem overtempComparatorTrip_eq {s : State} {d : Nat} (hd : d < 22) (hon : s.bu.on.getLsbD 1 = true) : exec (.overtempComparatorTrip d) s = .next (
    if (s.die d).level = 2 then comparatorTripped d s
    else episodeUpdate (enterThrottle d (
      if (s.die d).level = 0 then raiseAlert 3 (post 0x0910 (leBytes 1 d ++ leBytes 2 (image 16 (s.die d).temp)) (comparatorTripped d s)) else comparatorTripped d s))) := by
  change execOvertempComparatorTrip d s = _
  unfold execOvertempComparatorTrip
  rw [if_neg (by simp [hon, hd])]
  rfl

theorem overtempComparatorTrip_begins (s : State) (d : Nat) (hd : d < 22) (hon : s.bu.on.getLsbD 1 = true) (hlevel : (s.die d).level ≠ 2) (hepisode : s.thm.episode = false) :
    Completes (.overtempComparatorTrip d) s (fun t => (t.die d).level = 2 ∧ t.thm.episode = true ∧ t.thm.startAt = s.tim.beat ∧ t.thm.enforcing = false ∧ t.thm.acked = false ∧
      t.pins.throtN = false ∧ t.mg.alert.getLsbD 0 = true) := by
  obtain ⟨_, _, _, htripped⟩ := comparatorTripped_frame d s
  obtain ⟨u, hu⟩ : ∃ u, u = if (s.die d).level = 0 then raiseAlert 3 (post 0x0910 (leBytes 1 d ++ leBytes 2 (image 16 (s.die d).temp)) (comparatorTripped d s))
      else comparatorTripped d s := ⟨_, rfl⟩
  have hreport : u.thm = s.thm ∧ u.dies = (comparatorTripped d s).dies ∧ u.tim = s.tim := by
    rw [hu]
    split
    · exact ⟨(post_thm _ _ _).trans (by rw [htripped]; rfl), post_dies _ _ _, (post_tim _ _ _).trans (by rw [htripped]; rfl)⟩
    · exact ⟨by rw [htripped]; rfl, rfl, by rw [htripped]; rfl⟩
  obtain ⟨hthm, hdies, htim⟩ := hreport
  obtain ⟨v, hbegin, hvdies, hvthm⟩ := enterThrottle_begins (s := u) d (by rw [hthm]; exact hepisode)
  have hvlevel : (v.die d).level = 2 := by rw [die_congr _ _ (hvdies.trans hdies), comparatorTripped_level]
  have hstays : episodeUpdate (throtUpdate (raiseAlert 0 v)) = throtUpdate (raiseAlert 0 v) :=
    episodeUpdate_waits (by change v.thm.enforcing = false; rw [hvthm]) (anyThrottle_of hd hvlevel)
  refine ⟨throtUpdate (raiseAlert 0 v), ?_, hvlevel, ?_, ?_, ?_, ?_, ?_, or_twoPow_getLsbD (by decide) _⟩
  · rw [overtempComparatorTrip_eq hd hon, if_neg hlevel, ← hu, hbegin, hstays]
  · change v.thm.episode = true
    rw [hvthm]
  · change v.thm.startAt = _
    rw [hvthm, htim]
  · change v.thm.enforcing = false
    rw [hvthm]
  · change v.thm.acked = false
    rw [hvthm]
  · exact throtUpdate_low (by change v.thm.episode = true; rw [hvthm])

theorem trigger_mon_ne {j k : Nat} (h : j ≠ k) (t : Nat) (s : State) : (trigger k t s).mon j = s.mon j := by
  unfold trigger
  dsimp only
  split
  · rfl
  · split
    · rw [mon_setMon, if_neg h]
    · rw [mon_setMon, if_neg h]
      split <;> rfl

/-- What of a converter a trigger does not end: its injected sequence, and that no self-test runs. -/
theorem trigger_keeps {s : State} {j : Nat} (k t : Nat) (hself : (s.mon j).selfTest = false) :
    ((trigger k t s).mon j).aEnable = (s.mon j).aEnable ∧ ((trigger k t s).mon j).aTrig = (s.mon j).aTrig ∧ ((trigger k t s).mon j).selfTest = false ∧
      ((s.mon j).injRun = true → ((trigger k t s).mon j).injRun = true) := by
  by_cases hj : j = k
  · subst hj
    by_cases htrig : (s.mon j).aEnable = true ∧ (s.mon j).aTrig.getLsbD t = true
    · cases hrun : (s.mon j).injRun with
      | true =>
        rw [trigger_pends htrig.1 htrig.2 hrun hself, mon_setMon, if_pos rfl]
        exact ⟨rfl, rfl, hself, fun _ => hrun⟩
      | false =>
        obtain ⟨_, _, hinject⟩ := startInject_eq false s.tim.beat (s.mon j)
        rw [trigger_starts htrig.1 htrig.2 hrun hself, mon_setMon, if_pos rfl, hinject]
        exact ⟨rfl, rfl, rfl, fun _ => rfl⟩
    · rw [trigger_ignored (by simpa [Decidable.or_iff_not_imp_left] using htrig)]
      exact ⟨rfl, rfl, hself, id⟩
  · rw [trigger_mon_ne hj]
    exact ⟨rfl, rfl, hself, id⟩

theorem trigger_injects {s : State} {k t : Nat} (hon : (s.mon k).aEnable = true) (htrig : (s.mon k).aTrig.getLsbD t = true) (hself : (s.mon k).selfTest = false) :
    ((trigger k t s).mon k).injRun = true := by
  cases hrun : (s.mon k).injRun with
  | true =>
    rw [trigger_pends hon htrig hrun hself, mon_setMon, if_pos rfl]
    exact hrun
  | false =>
    obtain ⟨_, _, hinject⟩ := startInject_eq false s.tim.beat (s.mon k)
    rw [trigger_starts hon htrig hrun hself, mon_setMon, if_pos rfl, hinject]

theorem overtempComparatorTrip_injects (s : State) (d i k : Nat) (hd : d < 22) (hon : s.bu.on.getLsbD 1 = true) (hlevel : (s.die d).level = 2) (hi : i < sensorCount d)
    (hconv : sensorConverter d i = some k) (haon : (s.mon k).aEnable = true) (htrig : (s.mon k).aTrig.getLsbD 1 = true) (_hrun : (s.mon k).injRun = false)
    (hself : (s.mon k).selfTest = false) :
    Completes (.overtempComparatorTrip d) s (fun t => (t.mon k).injRun = true ∧ (t.die d).level = 2 ∧ t.thm = s.thm ∧ t.pins = s.pins) := by
  have hmem : k ∈ dieConverters d := List.mem_eraseDups.mpr (List.mem_filterMap.mpr ⟨i, List.mem_range.mpr hi, hconv⟩)
  obtain ⟨u, hu⟩ : ∃ u, u = refreshRate d (s.setDie d { s.die d with level := 2 }) := ⟨_, rfl⟩
  have hmon : u.mon k = s.mon k := by
    obtain ⟨_, h⟩ := refreshRate_frame d (s.setDie d { s.die d with level := 2 })
    rw [hu, h]
    rfl
  have hinject : ((comparatorTripped d s).mon k).injRun = true := by
    rw [comparatorTripped, ← hu]
    refine (foldl_reaches (I := fun t : State => (t.mon k).aEnable = true ∧ (t.mon k).aTrig.getLsbD 1 = true ∧ (t.mon k).selfTest = false)
      (Q := fun t : State => (t.mon k).injRun = true ∧ (t.mon k).selfTest = false) hmem (fun t j ht => ?_) (fun t ht => ?_) (fun t j ht => ?_) u
      (by rw [hmon]; exact ⟨haon, htrig, hself⟩)).1
    · obtain ⟨hkon, hktrig, hkself, -⟩ := trigger_keeps j 1 ht.2.2
      exact ⟨hkon.trans ht.1, by rw [hktrig]; exact ht.2.1, hkself⟩
    · exact ⟨trigger_injects ht.1 ht.2.1 ht.2.2, (trigger_keeps k 1 ht.2.2).2.2.1⟩
    · obtain ⟨-, -, hkself, hkrun⟩ := trigger_keeps j 1 ht.2
      exact ⟨hkrun ht.1, hkself⟩
  obtain ⟨_, _, _, hframe⟩ := comparatorTripped_frame d s
  refine ⟨comparatorTripped d s, by rw [overtempComparatorTrip_eq hd hon, if_pos hlevel], hinject, comparatorTripped_level d s, ?_, ?_⟩
  · rw [hframe]
    rfl
  · rw [hframe]
    rfl

/-! ### Enforcement (R446, R448) -/

/-- Enforcement runs in an episode, the tiles at the steps `l`, with die 8, which lies over every tile, at throttle and without a hold of its own. -/
structure Enforced (l : List Nat) (s : State) : Prop where
  episode : s.thm.episode = true
  enforcing : s.thm.enforcing = true
  tile : s.thm.tile = l
  hot : (s.die 8).level = 2

/-- A tile's step set: the step itself, what is kept, and THROT_N low. -/
theorem setStep_sets (t v d : Nat) (s : State) : ∃ q, (setStep t v d s).thm = { s.thm with tile := s.thm.tile.set t v, stepsNext := q } ∧
    (setStep t v d s).dies = s.dies ∧ (setStep t v d s).tim = s.tim ∧ (s.thm.episode = true → (setStep t v d s).pins.throtN = false) := by
  refine ⟨_, (post_thm _ _ _).trans rfl, (post_dies _ _ _).trans rfl, (post_tim _ _ _).trans rfl, fun h => ?_⟩
  exact (congrArg Pins.throtN (post_pins _ _ _)).trans (throtUpdate_low (s := { s with thm := { s.thm with tile := s.thm.tile.set t v } }) h)

theorem mem_diesOver (t : Nat) : 8 ∈ diesOver t := by simp [diesOver]

/-- A die over tile `t` meets `p`, when die 8 does. -/
theorem find_diesOver {p : Nat → Bool} (t : Nat) (h : p 8 = true) : ∃ d, (diesOver t).find? p = some d :=
  Option.isSome_iff_exists.mp (List.find?_isSome.mpr ⟨8, mem_diesOver t, h⟩)

theorem startTile_starts {l : List Nat} {s : State} (h : Enforced l s) {t : Nat} (ht : l.getD t 0 = 0) :
    Enforced (l.set t 1) (startTile s t) ∧ (startTile s t).pins.throtN = false := by
  obtain ⟨d, hd⟩ := find_diesOver (p := fun d => (s.die d).level == 2) t (beq_iff_eq.mpr h.hot)
  obtain ⟨u, hu⟩ : ∃ u : State, u = { s with thm := { s.thm with
    raiseAt := s.thm.raiseAt.set t (s.tim.beat + 10000), coolAt := s.thm.coolAt.set t none, fallAt := s.thm.fallAt.set t none } } := ⟨_, rfl⟩
  have hstart : startTile s t = setStep t 1 d u := by
    unfold startTile
    rw [hd, hu]
    exact if_pos (by rw [h.tile]; exact ht)
  have huthm : u.thm.episode = true ∧ u.thm.enforcing = true ∧ u.thm.tile = l ∧ u.dies = s.dies := by
    rw [hu]
    exact ⟨h.episode, h.enforcing, h.tile, rfl⟩
  obtain ⟨hepisode, henforcing, htile, hudies⟩ := huthm
  obtain ⟨_, hthm, hdies, -, hlow⟩ := setStep_sets t 1 d u
  rw [hstart]
  refine ⟨⟨by rw [hthm]; exact hepisode, by rw [hthm]; exact henforcing, by rw [hthm, htile], ?_⟩, hlow hepisode⟩
  rw [die_congr _ _ (hdies.trans hudies), h.hot]

theorem startTile_stands {l : List Nat} {s : State} (h : Enforced l s) {t : Nat} (ht : l.getD t 0 ≠ 0) : startTile s t = s := by
  unfold startTile
  split
  · exact if_neg (by rw [h.tile]; exact ht)
  · rfl

theorem episodeUpdate_enforced {l : List Nat} {s : State} (hepisode : s.thm.episode = true) (henforcing : s.thm.enforcing = true)
    (h : Enforced l ((List.range 4).foldl startTile s)) : episodeUpdate s = (List.range 4).foldl startTile s := by
  unfold episodeUpdate
  dsimp only
  rw [hepisode, henforcing, if_neg (by decide), if_pos rfl, anyThrottle_of (by decide) h.hot, Bool.not_true, Bool.false_and, Bool.false_and, if_neg Bool.false_ne_true]

theorem set_four (a b : Nat) : ((([a, a, a, a].set 0 b).set 1 b).set 2 b).set 3 b = [b, b, b, b] := rfl

theorem foldl_four {α : Type} (f : α → Nat → α) (a : α) : (List.range 4).foldl f a = f (f (f (f a 0) 1) 2) 3 := rfl

/-- Enforcement that starts sets every tile at step 1 (R446). -/
theorem startEnforcing_starts {s : State} (hepisode : s.thm.episode = true) (htile : s.thm.tile = [0, 0, 0, 0]) (hot : (s.die 8).level = 2) :
    (startEnforcing s).thm.enforcing = true ∧ (startEnforcing s).thm.tile = [1, 1, 1, 1] ∧ (startEnforcing s).pins.throtN = false := by
  obtain ⟨u, hu⟩ : ∃ u : State, u = { s with thm := { s.thm with enforcing := true } } := ⟨_, rfl⟩
  have h0 : Enforced [0, 0, 0, 0] u := by
    rw [hu]
    exact ⟨hepisode, rfl, htile, hot⟩
  obtain ⟨h1, -⟩ := startTile_starts h0 (t := 0) rfl
  obtain ⟨h2, -⟩ := startTile_starts h1 (t := 1) rfl
  obtain ⟨h3, -⟩ := startTile_starts h2 (t := 2) rfl
  obtain ⟨h4, hlow⟩ := startTile_starts h3 (t := 3) rfl
  have hstart : startEnforcing s = startTile (startTile (startTile (startTile u 0) 1) 2) 3 := by
    rw [← foldl_four startTile] at h4 ⊢
    rw [startEnforcing, ← hu, episodeUpdate_enforced h0.episode h0.enforcing h4]
  rw [hstart]
  exact ⟨h4.enforcing, h4.tile, hlow⟩

theorem throttleGraceExpiry_enforces (s : State) (hepisode : s.thm.episode = true) (hacked : s.thm.acked = false) (henforcing : s.thm.enforcing = false)
    (htime : s.thm.startAt + 100 * s.thm.grace ≤ s.tim.beat) (htile : s.thm.tile = [0, 0, 0, 0]) (hot : (s.die 8).level = 2) :
    Completes .throttleGraceExpiry s (fun t => t.thm.enforcing = true ∧ t.thm.tile = [1, 1, 1, 1] ∧ t.pins.throtN = false) :=
  ⟨_, congrArg Host.Outcome.next (if_pos ⟨hepisode, by rw [hacked]; rfl, by rw [henforcing]; rfl, htime⟩), startEnforcing_starts hepisode htile hot⟩

theorem throttleGraceExpiry_waits (s : State) (h : s.thm.acked = true ∨ s.tim.beat < s.thm.startAt + 100 * s.thm.grace) : exec .throttleGraceExpiry s = .next s := by
  refine congrArg Host.Outcome.next (if_neg ?_)
  rintro ⟨-, hacked, -, htime⟩
  rcases h with h | h
  · rw [h] at hacked
    cases hacked
  · omega

theorem throttleAckLimit_enforces (s : State) (hepisode : s.thm.episode = true) (hacked : s.thm.acked = true) (henforcing : s.thm.enforcing = false)
    (htime : s.thm.ackAt + 50000 ≤ s.tim.beat) (htile : s.thm.tile = [0, 0, 0, 0]) (hot : (s.die 8).level = 2) :
    Completes .throttleAckLimit s (fun t => t.thm.enforcing = true ∧ t.thm.tile = [1, 1, 1, 1]) := by
  obtain ⟨hon, hsteps, -⟩ := startEnforcing_starts hepisode htile hot
  refine ⟨startEnforcing s, congrArg Host.Outcome.next (if_pos ?_), hon, hsteps⟩
  rw [hepisode, hacked, henforcing, anyThrottle_of (by decide) hot, decide_eq_true htime, Bool.or_true]
  rfl

theorem throttleAckLimit_waits (s : State) (htime : s.tim.beat < s.thm.ackAt + 50000) (hcool : ∀ d, d < 22 → (s.die d).temp < throttleAt d + 384) :
    exec .throttleAckLimit s = .next s := by
  have hhot : (List.range 22).any (fun d => (s.die d).level == 2 && decide (throttleAt d + 384 ≤ (s.die d).temp)) = false := by
    refine any_eq_false fun d hd => ?_
    rw [decide_eq_false (Int.not_le.mpr (hcool d (List.mem_range.mp hd))), Bool.and_false]
  refine congrArg Host.Outcome.next (if_neg ?_)
  rw [hhot, decide_eq_false (Nat.not_le.mpr htime), Bool.or_false, Bool.and_false]
  exact Bool.false_ne_true

/-- Enforcement at the steps `l`, with every tile's next look at a rise at the beats `r`, and die 8 at throttle without a hold. -/
structure Rising (l r : List Nat) (now : Nat) (s : State) : Prop extends Enforced l s where
  raiseAt : s.thm.raiseAt = r
  hold : (s.die 8).hold = none
  beat : s.tim.beat = now

theorem coolTrack_rising {l r : List Nat} {now : Nat} {s : State} (h : Rising l r now s) (t : Nat) : Rising l r now (coolTrack s t) := by
  obtain ⟨⟨hepisode, henforcing, htile, hot⟩, hraise, hhold, hbeat⟩ := h
  exact ⟨⟨hepisode, henforcing, htile, hot⟩, hraise, hhold, hbeat⟩

/-- A tile whose look at a rise is due, with die 8 at throttle, goes one step up, below step 5 (R448). -/
theorem tileTimer_rises {l r : List Nat} {now n : Nat} {s : State} (h : Rising l r now s) {t : Nat} (hn : l.getD t 0 = n) (hlow : 1 ≤ n) (hhigh : n ≤ 4)
    (hr : r.getD t 0 = now) : Rising (l.set t (n + 1)) (r.set t (now + 10000)) now (tileTimer s t) := by
  have hraises : raises s 8 = true := by
    unfold raises
    rw [h.hold]
    exact beq_iff_eq.mpr h.hot
  obtain ⟨d, hd⟩ := find_diesOver (p := raises s) t hraises
  obtain ⟨u, hu⟩ : ∃ u : State, u = { s with thm := { s.thm with raiseAt := s.thm.raiseAt.set t (s.thm.raiseAt.getD t 0 + 10000) } } := ⟨_, rfl⟩
  have hstep : s.thm.tile.getD t 0 = n := by rw [h.tile, hn]
  have hdue : s.thm.raiseAt.getD t 0 = now := by rw [h.raiseAt, hr]
  have htimer : tileTimer s t = setStep t (n + 1) d u := by
    unfold tileTimer
    dsimp only
    rw [hd, if_neg (by omega), if_pos ⟨by rw [hdue, h.beat], rfl⟩, hstep, if_pos (by omega), hu]
    rfl
  obtain ⟨_, hthm, hdies, htim, -⟩ := setStep_sets t (n + 1) d u
  have hufacts : u.thm.episode = true ∧ u.thm.enforcing = true ∧ u.thm.tile = l ∧ u.thm.raiseAt = r.set t (now + 10000) ∧ u.dies = s.dies ∧ u.tim.beat = now := by
    rw [hu]
    dsimp only
    exact ⟨h.episode, h.enforcing, h.tile, by rw [hdue, h.raiseAt], rfl, h.beat⟩
  obtain ⟨hepisode, henforcing, htile, hraise, hudies, hbeat⟩ := hufacts
  have hdie := die_congr _ _ (hdies.trans hudies) 8
  rw [htimer]
  exact ⟨⟨by rw [hthm]; exact hepisode, by rw [hthm]; exact henforcing, by rw [hthm, htile], by rw [hdie]; exact h.hot⟩, by rw [hthm]; exact hraise, by rw [hdie]; exact h.hold,
    by rw [htim]; exact hbeat⟩

theorem throttleStepTimer_rises (s : State) (n : Nat) (hepisode : s.thm.episode = true) (henforcing : s.thm.enforcing = true) (hlow : 1 ≤ n) (hhigh : n ≤ 4)
    (htile : s.thm.tile = [n, n, n, n]) (hraise : s.thm.raiseAt = [s.tim.beat, s.tim.beat, s.tim.beat, s.tim.beat]) (hot : (s.die 8).level = 2)
    (hhold : (s.die 8).hold = none) :
    Completes .throttleStepTimer s (fun t => t.thm.tile = [n + 1, n + 1, n + 1, n + 1] ∧
      t.thm.raiseAt = [s.tim.beat + 10000, s.tim.beat + 10000, s.tim.beat + 10000, s.tim.beat + 10000]) := by
  obtain ⟨u, hu⟩ : ∃ u, u = (List.range 4).foldl coolTrack s := ⟨_, rfl⟩
  have h0 : Rising [n, n, n, n] [s.tim.beat, s.tim.beat, s.tim.beat, s.tim.beat] s.tim.beat u := by
    rw [hu]
    exact foldl_inv (Rising _ _ _) coolTrack (fun t i ht => coolTrack_rising ht i) _ s ⟨⟨hepisode, henforcing, htile, hot⟩, hraise, hhold, rfl⟩
  have h1 := tileTimer_rises h0 (t := 0) (n := n) rfl hlow hhigh rfl
  have h2 := tileTimer_rises h1 (t := 1) (n := n) rfl hlow hhigh rfl
  have h3 := tileTimer_rises h2 (t := 2) (n := n) rfl hlow hhigh rfl
  have h4 := tileTimer_rises h3 (t := 3) (n := n) rfl hlow hhigh rfl
  obtain ⟨v, hv⟩ : ∃ v, v = (List.range 4).foldl tileTimer u := ⟨_, rfl⟩
  have hrisen : Rising [n + 1, n + 1, n + 1, n + 1] [s.tim.beat + 10000, s.tim.beat + 10000, s.tim.beat + 10000, s.tim.beat + 10000] s.tim.beat v := by
    rw [set_four, set_four] at h4
    rw [hv, foldl_four]
    exact h4
  have hstands : (List.range 4).foldl startTile v = v := by
    refine foldl_stays _ fun t ht => startTile_stands hrisen.toEnforced ?_
    have hall : ∀ t, t ∈ List.range 4 → [n + 1, n + 1, n + 1, n + 1].getD t 0 = n + 1 := by
      intro t ht
      have hrange : t = 0 ∨ t = 1 ∨ t = 2 ∨ t = 3 := by rw [List.mem_range] at ht; omega
      rcases hrange with rfl | rfl | rfl | rfl <;> rfl
    rw [hall t ht]
    exact Nat.succ_ne_zero n
  have hupdate : episodeUpdate v = v := by
    have hfolded := hrisen.toEnforced
    rw [← hstands] at hfolded
    exact (episodeUpdate_enforced hrisen.episode hrisen.enforcing hfolded).trans hstands
  refine ⟨v, ?_, hrisen.tile, hrisen.raiseAt⟩
  rw [← hupdate, hv, hu]
  exact congrArg Host.Outcome.next (if_pos (by rw [hepisode, henforcing]; rfl))

theorem throttleStepTimer_idle (s : State) (h : s.thm.enforcing = false) : exec .throttleStepTimer s = .next s := by
  refine congrArg Host.Outcome.next (if_neg ?_)
  rw [h, Bool.and_false]
  exact Bool.false_ne_true

/-! ### Holds and shut-down (R449, R451) -/

theorem sensorHoldTimer_ends (s : State) (d i b : Nat) (hhold : (s.die d).hold = some i) (hfrom : (s.die d).holdFrom = some b) (htime : b + 1000000 ≤ s.tim.beat) :
    exec (.sensorHoldTimer d) s = .next (s.setDie d { s.die d with hold := none, holdFrom := none, rest := false }) := by
  refine congrArg Host.Outcome.next (if_pos ?_)
  rw [hhold, hfrom, Option.any_some, decide_eq_true htime]
  rfl

theorem sensorHoldTimer_waits (s : State) (d b : Nat) (hfrom : (s.die d).holdFrom = some b) (htime : s.tim.beat < b + 1000000) : exec (.sensorHoldTimer d) s = .next s := by
  refine congrArg Host.Outcome.next (if_neg ?_)
  rw [hfrom, Option.any_some, decide_eq_false (Nat.not_le.mpr htime), Bool.and_false]
  exact Bool.false_ne_true

theorem shutdownComparatorTrip_shutsDown (s : State) (d : Nat) (hd : d < 22) (hreset : s.pins.rstN = true) (hpower : s.pins.pwrok = true) (hstate : s.pwr.state < 3) :
    Completes (.shutdownComparatorTrip d) s (fun t => t.thm.shutdown = true ∧ t.pwr.state = 3 ∧ t.pwr.on = [] ∧ t.pins.throtN = false ∧ t.pins.faultN = false ∧ t.ops = [] ∧
      t.cmds = [] ∧ t.sec = s.sec.kept) :=
  ⟨_, congrArg Host.Outcome.next (if_pos ⟨hd, hreset, hpower, hstate⟩), rfl, rfl, rfl, rfl, rfl, rfl, rfl, rfl⟩

/-- Settles O59: a reading is noted in its own sensor; an episode, its steps and a hold are the throttle state's own; a shut-down is a reset without power. -/
theorem temperaturesAct : Obligations.TemperaturesAct :=
  ⟨sensorReading_accepts, sensorReading_discards, sensorReading_fails, sensorReading_outside, fun s d i v _ h => sensorReading_again s d i v h, sensorReading_evaluates,
    sensorReading_shutsDown, overtempComparatorTrip_begins, overtempComparatorTrip_injects, throttleGraceExpiry_enforces, throttleGraceExpiry_waits, throttleAckLimit_enforces,
    throttleAckLimit_waits, throttleStepTimer_rises, throttleStepTimer_idle, sensorHoldTimer_ends, sensorHoldTimer_waits, shutdownComparatorTrip_shutsDown, diodeTemp_near,
    ntcTemp_bounds, ntcTemp_reference, sensorTemp_diode, sensorReading_incomplete, sensorReading_unused⟩

end Sys2Proof.Machine
end

section
/-! The security block and the management interface: measurements, licences, image updates, SPDM and MG_RESET (R475 to R493). -/

namespace Sys2Proof.Machine

open Sys2Proof State

theorem extNeed_passes {c : Cmd} {n : Nat} {l : List (Bool × Reply)} : orElse (c.extNeed n :: l) = none ↔ n ≤ 64 * c.extLen ∧ orElse l = none := by
  rw [orElse_extNeed]
  split
  next h => simp [Nat.not_le.mpr h]
  next h => simp [Nat.not_lt.mp h]

/-! ### Measurement reports (R475 to R478) -/

theorem renewKey_stays {s : State} (h : s.sec.bootKey = none ∨ s.sec.bootSigs < 32768) : renewKey s = s := by
  refine if_neg ?_
  rintro ⟨hkey, hsigs⟩
  rcases h with h | h
  · rw [h] at hkey
    cases hkey
  · omega

section
variable (s : State) (k : Nat) (c : Cmd) (h : Taken s k 0x0A02 c) (hext : reportLen ≤ 64 * c.extLen) (hz : c.at 48 16 = 0)
include h hext hz

theorem secMeasureRead_signs (key body : List (BitVec 8)) (hkey : s.sec.bootKey = some key) (hsigs : s.sec.bootSigs < 32768)
    (hbody : body = reportBody s ((c.entry.drop 16).take 32)) :
    Completes (.secMeasureRead k) s (fun t => Answered s t k { output := body ++ Config.deviceSign key body } ∧
      t = { s with cmds := t.cmds, sec := { s.sec with bootSigs := s.sec.bootSigs + 1 } }) := by
  subst hbody
  have hsign : ∀ msg, deviceSign s msg = some (Config.deviceSign key msg) := fun msg => by rw [deviceSign, hkey]; rfl
  refine ⟨_, congrArg Host.Outcome.next (runCmd_acts h (t := { s with sec := { s.sec with bootSigs := s.sec.bootSigs + 1 } })
    (r := { output := reportBody s ((c.entry.drop 16).take 32) ++ Config.deviceSign key (reportBody s ((c.entry.drop 16).take 32)) }) ?_ ?_ rfl),
    answered_finish _ _ _ _ rfl, rfl⟩
  · simp only [extNeed_passes, rsvd_passes, orElse_nil, hext, hz, and_true]
  · dsimp only
    rw [renewKey_stays (.inr hsigs), hsign]

theorem secMeasureRead_keyless (hkey : s.sec.bootKey = none) :
    Completes (.secMeasureRead k) s (fun t => Answered s t k { status := stNoResource } ∧ t = { s with cmds := t.cmds }) := by
  have hsign : ∀ msg, deviceSign s msg = none := fun msg => by rw [deviceSign, hkey]; rfl
  refine ⟨_, congrArg Host.Outcome.next (runCmd_acts h (t := s) (r := { status := stNoResource }) ?_ ?_ rfl), answered_finish _ _ _ _ rfl, rfl⟩
  · simp only [extNeed_passes, rsvd_passes, orElse_nil, hext, hz, and_true]
  · dsimp only
    rw [renewKey_stays (.inl hkey), hsign]
    rfl

end

/-! ### Licences (R480 to R482) -/

theorem tokenValid_nil (s : State) : tokenValid s [] = false := rfl

theorem validSlots_empty {s : State} (h : s.sec.tokens = []) : validSlots s = [] := by
  rw [validSlots, List.filter_eq_nil_iff]
  intro i _
  rw [h, show tget [] [] i = ([] : List Byte) from rfl, tokenValid_nil]
  exact Bool.false_ne_true

theorem secLicenceInstall_decides (s : State) (k : Nat) (c : Cmd) (tok : List (BitVec 8)) (h : Taken s k 0x0A03 c) (hext : 3136 ≤ 64 * c.extLen) (hz : c.at 16 48 = 0)
    (htok : tok = c.ext.take 3136) (hform : tokenBad tok = none) (hstore : s.sec.tokens = []) :
    Completes (.secLicenceInstall k) s (fun t =>
      if tokenValid s tok = true then Answered s t k {} ∧ tget [] t.sec.tokens 0 = tok ∧ t.mg.alert.getLsbD 4 = true ∧ t.sec.meas = s.sec.meas
      else Answered s t k { status := stAuthFailed } ∧ t = { s with cmds := t.cmds }) := by
  subst htok
  have hslots := validSlots_empty hstore
  cases hvalid : tokenValid s (c.ext.take 3136) with
  | true =>
    obtain ⟨u, hu⟩ : ∃ u, u = post 0x0A02 [] { s with sec := { s.sec with tokens := tset [] s.sec.tokens 0 (c.ext.take 3136) } } := ⟨_, rfl⟩
    have hcmds : u.cmds = s.cmds := by rw [hu, post_cmds]
    have hsec : u.sec = { s.sec with tokens := tset [] s.sec.tokens 0 (c.ext.take 3136) } := by rw [hu, post_sec]
    refine ⟨finishCmd k {} (raiseAlert 4 u), congrArg Host.Outcome.next (runCmd_acts h ?_ ?_ rfl), ?_⟩
    · simp only [extNeed_passes, rsvd_passes, badField_passes, refuse_passes, orElse_nil, hext, hz, hform, hvalid, hslots, and_true]
      simp
    · dsimp only
      rw [hslots, hu]
      rfl
    · dsimp only
      rw [if_pos rfl]
      refine ⟨answered_finish _ _ _ _ hcmds, ?_, or_twoPow_getLsbD (by decide) _, ?_⟩
      · change tget [] u.sec.tokens 0 = _
        rw [hsec]
        exact (tget_tset ([] : List Byte) _ _ _ _).trans (if_pos rfl)
      · change u.sec.meas = _
        rw [hsec]
  | false =>
    refine ⟨finishCmd k { status := stAuthFailed } s, congrArg Host.Outcome.next (runCmd_refused h ?_ rfl), ?_⟩
    · rw [orElse_extNeed, if_neg (Nat.not_lt.mpr hext), orElse_rsvd, if_pos hz, orElse_badField, hform, orElse_refuse, hvalid]
      rfl
    · exact ⟨answered_finish _ _ _ _ rfl, rfl⟩

/-! ### Image updates (R484, R485) -/

theorem secImageStage_takes (s : State) (k off total : Nat) (c : Cmd) (h : Taken s k 0x0A05 c) (hext : 1 ≤ c.extLen) (hoff : c.at 16 4 = off) (htotal : c.at 20 4 = total)
    (hat : off = s.sec.stData.length) (halign : off % 64 = 0) (h0 : off ≠ 0) (hopen : s.sec.stOpen = some c.src) (hsame : total = s.sec.stTotal) (hsome : total ≠ 0)
    (hmax : total ≤ 8388608) (hblock : total % 4096 = 0) (hmore : off + c.ext.length < total) (hz : c.at 24 40 = 0) :
    Completes (.secImageStage k) s (fun t => Answered s t k {} ∧ t.sec.stOpen = some c.src ∧ t.sec.stData = s.sec.stData ++ c.ext ∧ t.sec.stAt = s.tim.beat ∧
      t.sec.staged = false ∧ t.sec.select = s.sec.select ∧ t.sec.minSvn = s.sec.minSvn ∧ t = { s with cmds := t.cmds, sec := t.sec }) := by
  subst hoff htotal
  have hmine : (s.sec.stOpen == some c.src) = true := by rw [hopen]; exact beq_self_eq_true _
  refine ⟨finishCmd k {} (putSlot (s.sec.stData ++ c.ext) { s with sec := { s.sec with
      stOpen := some c.src, stData := s.sec.stData ++ c.ext, stTotal := c.at 20 4, stAt := s.tim.beat, staged := false } }),
    congrArg Host.Outcome.next (runCmd_acts h ?_ ?_ rfl), answered_finish _ _ _ _ rfl, rfl, rfl, rfl, rfl, rfl, rfl, rfl⟩
  · have hrange : ¬ (c.at 20 4 = 0 ∨ 8388608 < c.at 20 4 ∨ c.at 20 4 < c.at 16 4 + c.ext.length) := by omega
    simp only [extNeed_passes, badField_passes, outOfRange_passes, rsvd_passes, refuse_passes, orElse_nil, hmine, hz, hopen, hrange, hblock, halign, ← hat, ← hsame]
    refine ⟨by omega, ?_⟩
    simp
  · dsimp only
    rw [if_neg h0]
    refine if_neg ?_
    rw [List.length_append, ← hat]
    omega

theorem secImageCommit_commits (s : State) (k : Nat) (c : Cmd) (h : Taken s k 0x0A06 c) (hflags : c.at 16 1 = 0) (hz : c.at 17 47 = 0) (hstaged : s.sec.staged = true)
    (hidle : (s.bu.running == 4 && s.bu.imgAddr == 0) = false) :
    Completes (.secImageCommit k) s (fun t => Answered s t k {} ∧ t.sec = { s.sec with
      select := idleSlot s, selectSeq := s.sec.selectSeq + 1, staged := false, revoked := revokeBelow s.sec.revoked (blockOf (tget [] s.sec.flashImg (idleSlot s))) } ∧
      t.mg.alert.getLsbD 5 = true) := by
  obtain ⟨x, hx⟩ : ∃ x : State, x = { s with sec := { s.sec with
    select := idleSlot s, selectSeq := s.sec.selectSeq + 1, staged := false, revoked := revokeBelow s.sec.revoked (blockOf (tget [] s.sec.flashImg (idleSlot s))) } } := ⟨_, rfl⟩
  refine ⟨finishCmd k {} (raiseAlert 5 (post 0x0A03 [] x)), congrArg Host.Outcome.next (runCmd_acts h ?_ ?_ rfl),
    answered_finish _ _ _ _ ((post_cmds _ _ x).trans (by rw [hx])), ?_, or_twoPow_getLsbD (by decide) _⟩
  · simp only [badField_passes, rsvd_passes, outOfRange_passes, refuse_passes, orElse_nil, hflags, hz, hstaged, hidle, and_true]
    simp
  · dsimp only
    rw [hflags, hx]
    rfl
  · exact (post_sec _ _ x).trans (by rw [hx])

theorem secImageCommit_unstaged (s : State) (k : Nat) (c : Cmd) (h : Taken s k 0x0A06 c) (hflags : c.at 16 1 ≤ 1) (hz : c.at 17 47 = 0) (hstaged : s.sec.staged = false) :
    Completes (.secImageCommit k) s (fun t => Answered s t k { status := stOutOfRange } ∧ t = { s with cmds := t.cmds }) := by
  refine ⟨finishCmd k { status := stOutOfRange } s, congrArg Host.Outcome.next (runCmd_refused h ?_ rfl), answered_finish _ _ _ _ rfl, rfl⟩
  rw [orElse_badField, decide_eq_false (Nat.not_lt.mpr hflags), if_neg Bool.false_ne_true, orElse_rsvd, if_pos hz, hstaged]
  rfl

theorem imageStageIdleTimeout_closes (s : State) (src : Nat) (hopen : s.sec.stOpen = some src) (htime : s.sec.stAt + 60000000 ≤ s.tim.beat) :
    exec .imageStageIdleTimeout s = .next { s with sec := { s.sec with stOpen := none, stData := [], stTotal := 0 } } :=
  congrArg Host.Outcome.next (if_pos ⟨by rw [hopen]; rfl, .inr htime⟩)

theorem imageStageIdleTimeout_idle (s : State) (hopen : s.sec.stOpen = none) : exec .imageStageIdleTimeout s = .next s := by
  refine congrArg Host.Outcome.next (if_neg ?_)
  rw [hopen]
  exact fun h => nomatch h.1

/-! ### Self-tests, SPDM and measurements (R477, R479, R493) -/

theorem secSelfTest_fails (s : State) (hon : secOn s = true) (hsound : s.flt.deviceError = false) :
    Completes (.secSelfTest false) s (fun t => t.flt.deviceError = true ∧ t.flt.deCause = 6) := by
  refine ⟨enterDeviceError 6 s, congrArg Host.Outcome.next (if_pos (by rw [hon]; rfl)), ?_⟩
  rw [enterDeviceError, if_neg (by rw [hsound]; exact Bool.false_ne_true)]
  exact ⟨rfl, rfl⟩

theorem secSelfTest_passes (s : State) : exec (.secSelfTest true) s = .next s :=
  congrArg Host.Outcome.next (if_neg (by rw [Bool.not_true, Bool.and_false]; exact Bool.false_ne_true))

section
variable (s : State) (code : Nat) (body : List (BitVec 8)) (hon : secOn s = true)
include hon

/-- Transport 1 is served whenever the security block is powered. -/
theorem spdm_served : ¬ ((!secOn s) = true ∨ 2 ≤ 1 ∨ ((1 : Nat) = 0 ∧ (!mgOn s) = true)) := by
  rw [hon]
  simp

theorem spdmRequest_replies (hcode : code ∈ spdmSupported) :
    Completes (.spdmRequest 1 code body) s (fun t => tget 0 t.sec.spdm 1 = spdmNext (tget 0 s.sec.spdm 1) code ∧
      t.stw.spdmOut = Config.spdmReply (1 + 2 * tget 0 s.sec.spdm 1) code body s.sec.meas ∧
      t = { s with sec := { s.sec with spdm := t.sec.spdm }, stw := { s.stw with spdmOut := t.stw.spdmOut } }) := by
  refine ⟨_, congrArg Host.Outcome.next ((if_neg (spdm_served s hon)).trans (if_pos (List.contains_iff_mem.mpr hcode))), ?_, rfl, rfl⟩
  exact (tget_tset (0 : Nat) _ _ _ _).trans (if_pos rfl)

theorem spdmRequest_refuses (hcode : code ∉ spdmSupported) :
    exec (.spdmRequest 1 code body) s = .next { s with stw := { s.stw with spdmOut := spdmError code } } :=
  congrArg Host.Outcome.next ((if_neg (spdm_served s hon)).trans (if_neg (fun h => hcode (List.contains_iff_mem.mp h))))

end

theorem measurementExtend_extends (s : State) (r : Nat) (d : List (BitVec 8)) (hrun : s.bu.stwRunning = true) (hr : r = 6 ∨ r = 7) (hlength : s.sec.meas.length = 8) :
    Completes (.measurementExtend r d) s (fun t => t.sec.meas.getD r [] = Config.sha384 (s.sec.meas.getD r [] ++ d) ∧
      (∀ j, j ≠ r → t.sec.meas.getD j [] = s.sec.meas.getD j []) ∧ t = { s with sec := { s.sec with meas := t.sec.meas } }) := by
  refine ⟨extendMeas r d s, congrArg Host.Outcome.next (if_pos ⟨hrun, hr⟩), ?_, fun j hj => ?_, rfl⟩
  · change (s.sec.meas.set r _).getD r [] = _
    rw [List.getD_eq_getElem?_getD, List.getElem?_set_self (by omega)]
    rfl
  · change (s.sec.meas.set r _).getD j [] = _
    rw [List.getD_eq_getElem?_getD, List.getElem?_set_ne (Ne.symm hj), List.getD_eq_getElem?_getD]

theorem measurementExtend_refuses (s : State) (r : Nat) (d : List (BitVec 8)) (hr : r < 6) : exec (.measurementExtend r d) s = .next s :=
  congrArg Host.Outcome.next (if_neg (fun h => by omega))

/-! ### The management interface (R486 to R490) -/

theorem mctpVendorRequest_takes (s : State) (e ext : List (BitVec 8)) (hon : mgOn s = true) (hreply : managementReply s e = none) :
    Completes (.mctpVendorRequest e ext) s (fun t => ∃ c, t.cmds = s.cmds ++ [c] ∧ c.key = s.stw.nextKey ∧ c.src = 64 ∧ c.opcode = bytesAt e 0 2 ∧ c.decided = false) := by
  refine ⟨takeCommand 64 0 e ext none s, congrArg Host.Outcome.next ((if_pos hon).trans (by rw [hreply])), _, rfl, rfl, rfl, rfl, rfl⟩

theorem managementReply_notCarried (s : State) (e : List (BitVec 8)) (hsound : s.flt.deviceError = false) (hop : bytesAt e 0 2 ∉ carried) :
    managementReply s e = some { status := stBadOpcode } := by
  have hnot : carried.contains (bytesAt e 0 2) = false := Bool.eq_false_iff.mpr fun h => hop (List.contains_iff_mem.mp h)
  unfold managementReply
  dsimp only
  rw [orElse_refuse, hsound, Bool.false_and, if_neg Bool.false_ne_true, orElse_refuse, hnot]
  rfl

section
variable (s : State) (hon : mgOn s = true)
include hon

theorem mgResetWrite_arms (b : Bool) : exec (.mgResetWrite 0x5A b) s = .next { s with mg := { s.mg with resetArm := true } } :=
  congrArg Host.Outcome.next ((if_neg (by rw [hon]; exact Bool.false_ne_true)).trans (if_neg (fun h => absurd h.1 (by decide))))

theorem mgResetWrite_resets (harm : s.mg.resetArm = true) : exec (.mgResetWrite 0xA5 true) s = .next (devReset s) :=
  congrArg Host.Outcome.next ((if_neg (by rw [hon]; exact Bool.false_ne_true)).trans (if_pos ⟨rfl, rfl, harm⟩))

theorem mgResetWrite_unarmed (harm : s.mg.resetArm = false) : exec (.mgResetWrite 0xA5 true) s = .next s := by
  have hkept : { s.mg with resetArm := (0xA5 : BitVec 8) == 0x5A } = s.mg := by
    rw [show ((0xA5 : BitVec 8) == 0x5A) = s.mg.resetArm by rw [harm]; decide]
  refine congrArg Host.Outcome.next ((if_neg (by rw [hon]; exact Bool.false_ne_true)).trans ((if_neg (by rw [harm]; exact fun h => nomatch h.2.2)).trans ?_))
  rw [hkept]

theorem endpoint_assigned (n : Nat) (hn : n < 128) : exec (.setEndpointId n) s = .next { s with pins := { s.pins with mgEid := some n } } ∧
    exec (.dynamicAddressAssign n) s = .next { s with pins := { s.pins with mgAddr := some n } } :=
  ⟨congrArg Host.Outcome.next (if_pos ⟨hon, by omega⟩), congrArg Host.Outcome.next (if_pos ⟨hon, hn⟩)⟩

end

/-! ### Decoders (R287, R413) -/

theorem decoderCommit_locks (s : State) (r b : Nat) (hstep : 3 ≤ s.bu.step) (hr : r < 3) (hopen : s.memTop.decoders.getLsbD r = false) :
    Completes (.decoderCommit r b) s (fun t => t.memTop.decoders.getLsbD r = true ∧ tget 0 t.memTop.decBase r = b ∧
      t = { s with memTop := { s.memTop with decoders := t.memTop.decoders, decBase := t.memTop.decBase } }) :=
  ⟨_, congrArg Host.Outcome.next (if_pos ⟨hstep, hr, hopen⟩), or_twoPow_getLsbD hr _, (tget_tset (0 : Nat) _ _ _ _).trans (if_pos rfl), rfl⟩

theorem decoderCommit_locked (s : State) (r b : Nat) (hlocked : s.memTop.decoders.getLsbD r = true) : exec (.decoderCommit r b) s = .next s :=
  congrArg Host.Outcome.next (if_neg (fun h => by rw [hlocked] at h; cases h.2.2))

/-- Settles O55: each clause by the checks its command passes and the one part of the state that its act writes. -/
theorem securityCommandsRun : Obligations.SecurityCommandsRun :=
  ⟨fun s k c key body h hext hz hkey hsigs hbody => secMeasureRead_signs s k c h hext hz key body hkey hsigs hbody, secMeasureRead_keyless, secLicenceInstall_decides,
    secImageStage_takes, secImageCommit_commits, secImageCommit_unstaged, imageStageIdleTimeout_closes, imageStageIdleTimeout_idle, secSelfTest_fails, secSelfTest_passes,
    fun s code body hon hcode => spdmRequest_replies s code body hon hcode, fun s code body hon hcode => spdmRequest_refuses s code body hon hcode, mctpVendorRequest_takes,
    managementReply_notCarried, fun s b hon => mgResetWrite_arms s hon b, mgResetWrite_resets, mgResetWrite_unarmed, fun s n hon hn => endpoint_assigned s hon n hn,
    measurementExtend_extends, measurementExtend_refuses, decoderCommit_locks, decoderCommit_locked⟩

end Sys2Proof.Machine
end
